-- ==== Sys2Proof/Word.lean ====
section
/-!
DEFINITION. Machine words, unit numbers and the plain data types which commands carry: the command
packet of R259, block kinds of a Poica port, program images, and so on. No meaning is given here.
-/

namespace Sys2Proof

/-- A byte (R8, R9). -/
abbrev Byte := BitVec 8
/-- A 16-bit field. -/
abbrev W16 := BitVec 16
/-- A 32-bit field. -/
abbrev W32 := BitVec 32
/-- A 64-bit field. -/
abbrev W64 := BitVec 64
/-- A value of the global tick (R108). -/
abbrev Tick := BitVec 64
/-- A PCI Express function, which is also a stratum number (R189). -/
abbrev FnNo := Fin 16
/-- One of the four queue pairs of a function (R305). -/
abbrev QpNo := Fin 4
/-- A Poica port (R24). -/
abbrev PortNo := Fin 8
/-- A Poica lane; lane `l` of port `p` is lane `4 * p + l`. -/
abbrev LaneNo := Fin 32
/-- A physical cluster (R10). -/
abbrev PhysNo := Fin 72
/-- A logical cluster (R10). -/
abbrev LogNo := Fin 64
/-- A Geode bank (R679). -/
abbrev BankNo := Fin 64
/-- An LPDDR5X channel, 4 times the controller plus the channel (R429). -/
abbrev ExtNo := Fin 8
/-- A Slate or copy engine. -/
abbrev EngNo := Fin 4

/-- R259: a command packet less its OPCODE byte, which the row of the table names. `body` holds packet
bytes 8 to 63, byte 8 in its lowest bits. -/
structure Packet where
  /-- FLAGS: bit 7 FENCE_BEFORE, bit 6 NOTIFY, bit 5 CHAIN (R260). -/
  flags : BitVec 8
  /-- TAG. -/
  tag : BitVec 16
  /-- STRATUM. -/
  stratum : BitVec 8
  /-- The reserved byte at offset 5. -/
  byte5 : BitVec 8
  /-- PARAM_LEN. -/
  paramLen : BitVec 16
  /-- The parameters and the unused tail. -/
  body : BitVec 448
  deriving DecidableEq, Repr

/-- What a read of host memory gave: its bytes, or the lowest address whose read completed with an error (R277, R463). -/
inductive HostData where
  | bytes (bs : List Byte)
  | error (addr : W64)
  deriving DecidableEq, Repr

/-- What the supply monitor measures: VIN_MAIN and VIN_AUX in 10 mV (R83, R303), and the charge of the hold-up bank in
percent of 30 J. -/
structure Volts where
  main : Nat
  aux : Nat
  charge : Nat
  deriving DecidableEq, Repr

/-- A feature of the PCI Express endpoint which R182 names as supported or as unsupported. -/
inductive PciCap where
  | laneReversal | polarityInversion | tenBitTags | msix | aer | ecrc | aspmL1 | d3hot | sriov | ari | functionLevelReset
  | intx | msi | aspmL0s | l1Substates | ats | pri | pasid | atomicOp | peerToPeer
  deriving DecidableEq, Repr

/-- A field of a function's configuration space whose value the spec gives or reads (R182, R183, R185, R187, R190, R1142,
R1144). The addresses of the fields are those of PCI Express. -/
inductive CfgField where
  /-- R183. -/
  | vendorId | deviceId | vfDeviceId | classCode | subsystemVendorId | subsystemId
  /-- R182: a feature, 1 when it is supported. -/
  | cap (c : PciCap)
  /-- R182: the speeds, bit n - 1 for generation n, and the widths, bit n for 2^n lanes. -/
  | linkSpeeds | linkWidths
  /-- R182: the largest Max Payload Size and Max Read Request Size, in bytes; and the entries of the MSI-X table. -/
  | payloadSupported | readRequestSupported | msixEntries
  /-- R182: the time in microseconds below which the advertised L1 exit latency lies. -/
  | l1ExitBound
  /-- R187. -/
  | noSoftReset
  /-- R190. -/
  | totalVfs | initialVfs | firstVfOffset | vfStride
  /-- R190: the supported page sizes, bit n for 4 KiB times 2^n. -/
  | pageSizes
  /-- R190: the size of BAR0 and of BAR2 in bytes, and whether the BAR is 64-bit and prefetchable. -/
  | barSize (bar2 : Bool) | bar64 (bar2 : Bool) | barPrefetchable (bar2 : Bool)
  /-- Fields which a host writes: Memory Space Enable, Bus Master Enable, Enable Relaxed Ordering, Max Payload Size and
  Max Read Request Size in bytes, VF Enable and NumVFs. -/
  | memSpace | busMaster | relaxedOrdering | maxPayload | maxReadRequest | vfEnable | numVfs
  deriving DecidableEq, Repr

/-- A configuration request (R150): a write of Memory Space Enable, one which sets VF Enable with a NumVFs, a write of a
Device Control field, a read of a field, or any other. -/
inductive ConfigReq where
  | memSpace (on : Bool)
  | vfEnable (numVfs : Nat)
  | relaxedOrdering (on : Bool)
  | maxPayload (bytes : Nat)
  | maxReadRequest (bytes : Nat)
  | read (f : CfgField)
  | other
  deriving DecidableEq, Repr

/-- What the error correction of a memory found on a read (R688, R759, R760). -/
inductive Ecc where
  /-- No error. -/
  | clean
  /-- A single-bit error, corrected. -/
  | corrected
  /-- An uncorrectable error. -/
  | uncorrectable
  deriving DecidableEq, Repr

/-- What a copy job met while it ran. -/
structure CopyOutcome where
  /-- The lowest host address of a read or write which failed (R370). -/
  fail : Option W64
  /-- What error correction found, and the view address where (R688, R689). -/
  found : Option (Nat × Ecc)
  deriving DecidableEq, Repr

/-- A stratum's job on a copy engine (R724, R726). -/
structure EngineJob where
  engine : EngNo
  stratum : FnNo
  deriving DecidableEq, Repr

/-- A reply which is malformed or answers no open request (R134, R1036). -/
structure BadReply where
  /-- The requester whose network interface it reaches, none at the completion proxy of its unit. -/
  requester : Option W16
  /-- The epoch which it carries. -/
  epoch : Nat
  deriving DecidableEq, Repr

/-- A private instruction of the test port (R477 to R479). -/
structure PrivateIns where
  code : BitVec 8
  /-- It starts trace capture. -/
  trace : Bool
  deriving DecidableEq, Repr

/-- The load of an operand slot by a cluster (R610). -/
structure SlotRead where
  cluster : LogNo
  /-- What error correction found, and the view address where (R688, R689). -/
  found : Option (Nat × Ecc)
  deriving DecidableEq, Repr

end Sys2Proof
end

