-- ==== Sys2Proof/Syntax.lean ====
section
/-!
DEFINITION. The commands and events of the module: one constructor per row of spec/opcode_table.json, with
the operands which that row's rule gives it. `fn` and `qp` name the function and queue pair which hold a
command packet; what the module reads from host memory while it carries a row out is an operand of the row.
-/

namespace Sys2Proof

/-- One constructor per row of spec/opcode_table.json. -/
inductive Instr where
  /-- R314: Command that returns the identity block in RESULT0/RESULT1 and optionally writes it to
  BUF_ADDR. -/
  | devIdentify (fn : FnNo) (qp : QpNo) (pkt : Packet)
  /-- R316: Command that assembles and returns the 256-byte device status block. -/
  | devStatus (fn : FnNo) (qp : QpNo) (pkt : Packet)
  /-- R318: Command that records a new host power cap and installs the plan R94 then calls for before
  replying. -/
  | devSetPowerCap (fn : FnNo) (qp : QpNo) (pkt : Packet)
  /-- R323: Long-running command that selects a clock plan and starts installing the plan R94 calls for. -/
  | devSetClockPlan (fn : FnNo) (qp : QpNo) (pkt : Packet)
  /-- R330: Command that creates a tenant stratum, zeroes its clusters, generates its key and sets its
  HIF_STATUS bits. -/
  | stratumCreate (fn : FnNo) (qp : QpNo) (pkt : Packet)
  /-- R334: Long-running command whose acceptance marks the stratum as being destroyed; the teardown
  follows. -/
  | stratumDestroy (fn : FnNo) (qp : QpNo) (pkt : Packet)
  /-- R335: End of a stratum's teardown: commands ended, frames aborted, channels unbound, storage zeroed,
  key destroyed and resources returned. -/
  | stratumDestroyComplete (target : FnNo)
  /-- R339: Command that returns a stratum's terms and counts. -/
  | stratumQuery (fn : FnNo) (qp : QpNo) (pkt : Packet)
  /-- R343: Command that changes a tenant's arbitration mode and slot share at the start of the next round. -/
  | stratumSetArbitration (fn : FnNo) (qp : QpNo) (pkt : Packet)
  /-- R345: Command that sets the issuing stratum's REPRO, RETRY_FRAME and MICA_COMPAT bits and may begin a
  run. -/
  | stratumSetMode (fn : FnNo) (qp : QpNo) (pkt : Packet)
  /-- R349: Command that allocates arena or external memory at the lowest free view range. -/
  | memAlloc (fn : FnNo) (qp : QpNo) (pkt : Packet)
  /-- R355: Command that frees an allocation and zeroes its Geode granules. -/
  | memFree (fn : FnNo) (qp : QpNo) (pkt : Packet)
  /-- R357: Command that moves the BAR2 external aperture base. -/
  | memMapExternal (fn : FnNo) (qp : QpNo) (pkt : Packet)
  /-- R360: POOL_CONFIG operation that carves the Geode pool from free granules or returns the pool. -/
  | setSize (fn : FnNo) (qp : QpNo) (pkt : Packet)
  /-- R362: POOL_CONFIG operation that replaces a stratum's pool reserve and ceiling. -/
  | setStratum (fn : FnNo) (qp : QpNo) (pkt : Packet)
  /-- R365: Command that returns the pool figures of a stratum or of the whole pool. -/
  | poolQuery (fn : FnNo) (qp : QpNo) (pkt : Packet)
  /-- R730: Long-running strided copy, with optional transposition, placed on a copy engine. -/
  | copy (fn : FnNo) (qp : QpNo) (pkt : Packet)
  /-- R366: Long-running fill of a strided destination with a pattern. -/
  | copyFill (fn : FnNo) (qp : QpNo) (pkt : Packet)
  /-- R373: Long-running CRC of a strided source taken in traversal order. -/
  | copyChecksum (fn : FnNo) (qp : QpNo) (pkt : Packet)
  /-- R724: Engine starts the next command job of a stratum once that stratum's previous job has ended. -/
  | copyJobStart (engine : EngNo) (stratum : FnNo)
  /-- R372: A command job ends and its completion record is written. -/
  | copyJobComplete (engine : EngNo) (stratum : FnNo) (host : List Byte) (outcome : CopyOutcome)
  /-- R726: Engine starts copying a raster snapshot to its host slot. -/
  | deliveryJobStart (engine : EngNo) (stratum : FnNo)
  /-- R912: A raster delivery finishes before the frame result is written. -/
  | deliveryJobComplete (job : EngineJob) (found : Option (Nat × Ecc))
  /-- R801: PORT_TRAIN OP TRAIN moves a DISABLED port to DETECT. -/
  | portTrainTrain (fn : FnNo) (qp : QpNo) (pkt : Packet)
  /-- R801: PORT_TRAIN OP RETRAIN moves an ACTIVE port to RETRAIN. -/
  | portTrainRetrain (fn : FnNo) (qp : QpNo) (pkt : Packet)
  /-- R801: PORT_TRAIN OP DISABLE sends TS STAGE 0xF and disables the port. -/
  | portTrainDisable (fn : FnNo) (qp : QpNo) (pkt : Packet)
  /-- R382: Command that returns a port's state block. -/
  | portStatus (fn : FnNo) (qp : QpNo) (pkt : Packet)
  /-- R386: Long-running command that changes port width through the WIDTH_CHANGE handshake. -/
  | portSetWidth (fn : FnNo) (qp : QpNo) (pkt : Packet)
  /-- R390: Command that binds a logical channel, allots its floor and takes its SYSTEM space. -/
  | chanBind (fn : FnNo) (qp : QpNo) (pkt : Packet)
  /-- R874: Long-running command that sets a channel's route, effective at its next FRAME_MARK. -/
  | chanRoute (fn : FnNo) (qp : QpNo) (pkt : Packet)
  /-- R395: Long-running command that switches a channel to discard, withdraws its credits and frees its
  resources. -/
  | chanUnbind (fn : FnNo) (qp : QpNo) (pkt : Packet)
  /-- R396: Command that returns a channel's binding block. -/
  | chanQuery (fn : FnNo) (qp : QpNo) (pkt : Packet)
  /-- R399: Command that loads a channel's Slate context for later frames. -/
  | slateContextLoad (fn : FnNo) (qp : QpNo) (pkt : Packet) (host : HostData)
  /-- R906: Command that loads a correction set into a slot and computes its 16-tap coefficients. -/
  | slateParamSet (fn : FnNo) (qp : QpNo) (pkt : Packet) (host : HostData)
  /-- R402: Command that configures a channel's raster, coded record and tensor outputs. -/
  | slateOutputCfg (fn : FnNo) (qp : QpNo) (pkt : Packet)
  /-- R404: Command that selects frame or stripe scheduling from the next FRAME_MARK. -/
  | slateSchedule (fn : FnNo) (qp : QpNo) (pkt : Packet)
  /-- R408: Long-running command that validates the package header, selects a variant and reserves a
  PROG_ID. -/
  | progLoad (fn : FnNo) (qp : QpNo) (pkt : Packet) (host : HostData)
  /-- R628: After the whole package is read, its checks run and PROG_LOAD completes with ST_OK or
  ST_IMAGE_INVALID. -/
  | packageCheck (stratum : FnNo) (prog : Nat) (host : List Byte) (fail : Option W64)
  /-- R410: Long-running command that waits for the program's last channel-frame, then unloads it. -/
  | progUnload (fn : FnNo) (qp : QpNo) (pkt : Packet)
  /-- R410: After the last channel-frame's result, the launch ends, scratch and banks are zeroed and routes
  set to discard. -/
  | progUnloadComplete (stratum : FnNo) (prog : Nat)
  /-- R668: Long-running command that loads a Mica table slot. -/
  | tableLoad (fn : FnNo) (qp : QpNo) (pkt : Packet)
  /-- R667: Checks of a table image (CRC, fields, monotonicity) that end TABLE_LOAD. -/
  | tableImageCheck (stratum : FnNo) (slot : Fin 8) (host : List Byte) (fail : Option W64)
  /-- R669: Long-running command that loads a Mica micro-program slot. -/
  | microprogLoad (fn : FnNo) (qp : QpNo) (pkt : Packet)
  /-- R672: Step checks of a micro-program image that end MICROPROG_LOAD. -/
  | microprogImageCheck (stratum : FnNo) (slot : Fin 8) (host : List Byte) (fail : Option W64)
  /-- R415: Command that launches a program to serve frames opened after its reply. -/
  | launch (fn : FnNo) (qp : QpNo) (pkt : Packet)
  /-- R415: Long-running command that schedules a launch at START_TICK. -/
  | launchAtTick (fn : FnNo) (qp : QpNo) (pkt : Packet)
  /-- R987: The global tick reaches START_TICK, the launch takes effect and LAUNCH_AT_TICK completes. -/
  | startTickReached (stratum : FnNo)
  /-- R421: Long-running command that waits for the stratum's earlier commands and frames. -/
  | barrier (fn : FnNo) (qp : QpNo) (pkt : Packet)
  /-- R421: A BARRIER command's conditions hold and it completes. -/
  | barrierComplete (stratum : FnNo)
  /-- R422: Command that writes ST_FRAME_ABORTED results for a channel's launched frames. -/
  | frameAbort (fn : FnNo) (qp : QpNo) (pkt : Packet)
  /-- R423: Long-running command that waits for a tick, a frame, an occurrence or a timeout. -/
  | eventWait (fn : FnNo) (qp : QpNo) (pkt : Packet)
  /-- R424: An EVENT_WAIT condition or its timeout occurs and the command completes. -/
  | eventWaitComplete (stratum : FnNo) (wait : Nat)
  /-- R969: Command that configures an inter-module channel end for send or receive. -/
  | qlinkConfig (fn : FnNo) (qp : QpNo) (pkt : Packet)
  /-- R970: Command that returns narrow-transport statistics. -/
  | qlinkStats (fn : FnNo) (qp : QpNo) (pkt : Packet)
  /-- R427: Command that writes a telemetry counter block. -/
  | telemetryRead (fn : FnNo) (qp : QpNo) (pkt : Packet)
  /-- R1100: COUNTER_CONFIG OP CLEAR zeroes the named counters. -/
  | counterConfigClear (fn : FnNo) (qp : QpNo) (pkt : Packet)
  /-- R431: Long-running command that fences a unit through FENCE, DRAIN and CUT. -/
  | unitFence (fn : FnNo) (qp : QpNo) (pkt : Packet)
  /-- R127: The DRAIN step ends when the tracking table empties or 1 ms passes, and CUT follows. -/
  | drainEnd (unit : W16)
  /-- R433: Long-running command that starts BIST or lane training of a fenced unit. -/
  | unitSelftest (fn : FnNo) (qp : QpNo) (pkt : Packet)
  /-- R433: A self-test ends and UNIT_SELFTEST reports pass or a failure code. -/
  | unitSelftestComplete (unit code : W16)
  /-- R434: Command that performs RETURN and clears a unit's retired mark. -/
  | unitReturn (fn : FnNo) (qp : QpNo) (pkt : Packet)
  /-- R437: Long-running command that stops starting frames on the affected stratum and waits for its frame
  boundary. -/
  | clusterRemap (fn : FnNo) (qp : QpNo) (pkt : Packet)
  /-- R437: At the stratum's frame boundary, scratch is copied, the logical cluster moves to NEW and OLD
  becomes a spare. -/
  | clusterRemapSwitch
  /-- R439: Long-running command that copies fault-log records to host memory. -/
  | faultLogRead (fn : FnNo) (qp : QpNo) (pkt : Packet)
  /-- R439: The records are written and FAULT_LOG_READ completes. -/
  | faultLogReadComplete (fail : Option W64)
  /-- R441: Long-running command that reads a flash region range to host memory. -/
  | nvRead (fn : FnNo) (qp : QpNo) (pkt : Packet)
  /-- R441: Long-running command that writes the HOST flash region. -/
  | nvWrite (fn : FnNo) (qp : QpNo) (pkt : Packet)
  /-- R1057: Long-running command that writes a firmware image into the staging slot. -/
  | fwStage (fn : FnNo) (qp : QpNo) (pkt : Packet)
  /-- R1058: Long-running command that writes the staging slot's commit record. -/
  | fwCommit (fn : FnNo) (qp : QpNo) (pkt : Packet)
  /-- R1061: Long-running command that writes a calibration set and commits it. -/
  | calStore (fn : FnNo) (qp : QpNo) (pkt : Packet)
  /-- R1046: The next accepted flash command starts once the previous one has its completion. -/
  | nvOperationStart (host : List Byte) (fail : Option W64)
  /-- R1044: A flash page program finishes and the operation continues or completes. -/
  | pageProgramComplete (mismatch : Option W32)
  /-- R1044: A flash sector erase finishes and the operation continues. -/
  | sectorEraseComplete
  /-- R448: Long-running command that reads a bitmap and queues it for the next refresh. -/
  | panelDraw (fn : FnNo) (qp : QpNo) (pkt : Packet) (host : List Byte) (fail : Option W64)
  /-- R450: Command that returns HIF_PANEL_STATUS and the stratum's grant. -/
  | panelStatus (fn : FnNo) (qp : QpNo) (pkt : Packet)
  /-- R991: LOCKSTEP_PAIR OP PAIR sends a pair record to the peer. -/
  | lockstepPair (fn : FnNo) (qp : QpNo) (pkt : Packet)
  /-- R1005: LOCKSTEP_PAIR OP UNPAIR ends a pair. -/
  | lockstepUnpair (fn : FnNo) (qp : QpNo) (pkt : Packet)
  /-- R991: No peer pair record arrives within 100 ms and PAIR completes with ST_PARTNER_REFUSED. -/
  | pairTimeout
  /-- R1004: Command that returns the lock-step status block and ST_DIVERGENCE when a divergence was found. -/
  | lockstepStatus (fn : FnNo) (qp : QpNo) (pkt : Packet)
  /-- R455: Long-running command that starts tick synchronisation as source or follower. -/
  | tickSync (fn : FnNo) (qp : QpNo) (pkt : Packet)
  /-- R455: Synchronisation not achieved within 10 ms ends TICK_SYNC with ST_TICK_UNSYNCED. -/
  | tickSyncTimeout (port : PortNo)
  /-- R26: A packet with an unlisted opcode is rejected with ST_BAD_OPCODE. -/
  | unlistedOpcode (fn : FnNo) (qp : QpNo) (opcode : BitVec 8) (pkt : Packet)
  /-- R286: A command of a failed chain receives ST_BAD_STATE when its validation would begin. -/
  | cancelledCommand (fn : FnNo) (qp : QpNo) (opcode : BitVec 8) (pkt : Packet)
  /-- R99: A clock plan installation ends; CAP_CHANGED and any pending installation follow. -/
  | planInstallComplete
  /-- R240: W1C write that clears interrupt cause bits. -/
  | hifIntCause (fn : FnNo) (value : W32)
  /-- R242: Write of the interrupt mask; unmasking a set cause sends an MSI-X message. -/
  | hifIntMask (fn : FnNo) (value : W32)
  /-- R206: Read returns tick bits 31:0 and captures bits 63:32 for HIF_TICK_HI. -/
  | hifTickLo (fn : FnNo)
  /-- R214: Setting ENABLE of a queue pair starts it, or flags a size error. -/
  | queuePairEnable (fn : FnNo) (qp : QpNo) (value : W32)
  /-- R236: Clearing ENABLE stops reading the SQ, writes pending replies, then clears RUNNING. -/
  | queuePairDisable (fn : FnNo) (qp : QpNo) (value : W32)
  /-- R214: Setting ENABLE of the event queue starts it. -/
  | evqEnable (fn : FnNo) (value : W32)
  /-- R239: Clearing ENABLE of the event queue stops record writes within 2 us. -/
  | evqDisable (fn : FnNo) (value : W32)
  /-- R218: Write of HIF_SQn_TAIL that exposes new commands to be read. -/
  | doorbell (fn : FnNo) (qp : QpNo) (value : W32)
  /-- R225: Write that releases completion queue entries. -/
  | hifCqnHead (fn : FnNo) (qp : QpNo) (value : W32)
  /-- R225: Write that releases event queue entries. -/
  | hifEvqHead (fn : FnNo) (value : W32)
  /-- R222: A failed memory read of an SQ ring stops the queue pair. -/
  | ringReadError (fn : FnNo) (qp : QpNo)
  /-- R83: W1C write that clears SWITCHED. -/
  | hifSupplyStatus (value : W32)
  /-- R12: Write to a BAR0 register or offset that has no row of its own. -/
  | registerWrite (fn : FnNo) (offset : BitVec 16) (wide : Bool) (value : W64)
  /-- R196: A BAR0 access of illegal size or alignment is refused and sets ACCESS_ERR. -/
  | accessErr (fn : FnNo) (write : Bool) (offset : BitVec 16) (size : Nat)
  /-- R249: Host read through BAR2 of the stratum's arena or external memory. -/
  | bar2Read (fn : FnNo) (offset : W32) (size : Nat) (ecc : Ecc)
  /-- R253: Host write through BAR2, encrypted for external memory. -/
  | bar2Write (fn : FnNo) (offset : W32) (bytes : List Byte)
  /-- R419: Host release of frame result ring entries through HEAD_ADDR, letting waiting results be
  written. -/
  | resultRingRelease (stratum : FnNo) (prog : Nat) (value : W64)
  /-- R112: PERST# low performs a host reset. -/
  | perstAssert
  /-- R179: SCRUB ends with entry to READY. -/
  | scrubComplete
  /-- R149: PERST# deassertion starts PCIe link training and readiness. -/
  | perstDeassert
  /-- R149: The PCIe link reaches L0, which can make the module configuration-ready. -/
  | linkL0
  /-- R150: A configuration request, answered with CRS until the module is configuration-ready. -/
  | configRequest (fn : FnNo) (req : ConfigReq)
  /-- R112: Function Level Reset of the physical function performs a host reset. -/
  | flrPf
  /-- R112: Function Level Reset of a virtual function performs a function reset of its stratum. -/
  | flrVf (fn : FnNo)
  /-- R187: PF transition from D3hot to D0 performs a host reset. -/
  | d3hotToD0
  /-- R194: Clearing VF Enable or lowering NumVFs function-resets the removed VFs. -/
  | vfEnableClear (vfs : Option Nat)
  /-- R1144: A change of Bus Master Enable pauses or resumes host traffic of a function. -/
  | busMasterEnable (fn : FnNo) (enable : Bool)
  /-- R139: PCIe reference absent for 100 us causes a host reset with cause 0x05. -/
  | pcieReferenceLost
  /-- R72: An input rises above V_LOW_R in OFF: STANDBY, power-on reset and supervisor boot. -/
  | inputRise (v : Volts)
  /-- R51: VIN_MAIN falls below V_LOW_F while on VIN_MAIN; a switch to VIN_AUX begins. -/
  | vinMainLow (v : Volts)
  /-- R51: VIN_AUX goes low while on VIN_AUX; an immediate switch to VIN_MAIN. -/
  | vinAuxLow (v : Volts)
  /-- R51: VIN_MAIN stays at V_QUAL for t_QUAL: switch back to VIN_MAIN, or entry to ACTIVE from STANDBY. -/
  | vinMainQualified (v : Volts)
  /-- R87: A source switch completes; SWITCHED, the cause bit and the supply events follow. -/
  | switchComplete (v : Volts)
  /-- R79: Active source falls below V_SAG; the NV rail moves to the bank and risky operations are handled
  per the sag rule. -/
  | sagBegin (v : Volts)
  /-- R87: Active source returns to V_SAG or above; SUPPLY_SAG_END is sent. -/
  | sagEnd (v : Volts)
  /-- R72: The higher input stays below V_LOSS for t_LOSS and the module enters HOLDUP. -/
  | vinLoss (v : Volts)
  /-- R72: The HOLDUP sequence ends and the module goes to OFF or STANDBY. -/
  | holdupSequenceComplete (v : Volts)
  /-- R76: The supply gate comes to hold; paused risky steps, held commits, erase resumption and redraws
  proceed. -/
  | supplyGateOpen (v : Volts)
  /-- R77: A command paused 10 s ends with ST_SUPPLY_LOW. -/
  | supplyGatePauseTimeout
  /-- R69: The bank fails to reach 90 % after 15 s of charging. -/
  | holdupFault (v : Volts)
  /-- R84: Periodic refresh of HIF_SUPPLY_STATUS fields, at least once per millisecond. -/
  | supplyStatusRefresh (v : Volts)
  /-- R120: Recognised low pulse runs HOLDUP steps 1-5 and then applies the module reset. -/
  | modResetN
  /-- R112: The module reset is applied within 310 ms of the falling edge. -/
  | moduleReset
  /-- R121: Rising edge of MOD_RESET_N lets the supervisor boot. -/
  | modResetNRise
  /-- R1128: TEST_EN high acts as MOD_RESET_N low. -/
  | testEn
  /-- R146: A started image has not ended SUPERVISOR_BOOT within 180 ms and is abandoned. -/
  | imageBootTimeout
  /-- R148: Supervisor boot ends and AON_CHECK runs. -/
  | supervisorBootEnd (tickCounts : Option (W32 × W32)) (monitorOk logOk : Bool)
  /-- R140: AON_CHECK ends; WAIT_MAIN or RECOVERY follows. -/
  | aonCheckEnd
  /-- R140: PLLs are locked and P1600 installed; GEODE_TEST begins. -/
  | clockStartEnd
  /-- R160: Geode BIST and scrub end; CLUSTER_TEST begins. -/
  | geodeTestEnd (failed : List BankNo)
  /-- R161: A BIST round of eight clusters ends. -/
  | clusterRoundEnd (failed : List PhysNo)
  /-- R164: LPDDR5X training and initialisation end. -/
  | lpddrTrainingEnd (failed : List ExtNo)
  /-- R171: MAPPING restores or builds the cluster mapping and ends in READY or FAILED. -/
  | mapping
  /-- R139: A PLL loses lock and the units it feeds are fenced. -/
  | pllOutOfLock (pll : Nat)
  /-- R1010: The PLL relocks within 1 ms and its units return. -/
  | pllRelocked (pll : Nat)
  /-- R139: Relock fails within 1 ms and the units are retired. -/
  | pllRelockTimeout (pll : Nat)
  /-- R139: Poica reference or PLL_SER lost: every port is fenced. -/
  | poicaReferenceLost (pll : Bool)
  /-- R139: Always-on crystal or PLL_AON lost: fatal condition. -/
  | aonCrystalLost (pll : Bool) (status : W32)
  /-- R136: A request open 10 ms fences its unit. -/
  | requestOpenTimeout (unit : W16)
  /-- R1010: A detected unit fault fences and retires the unit. -/
  | unitFault (unit : W16) (cause : BitVec 8) (detail : BitVec 224)
  /-- R1036: A malformed or unexpected internal reply is discarded and recorded with ST_INTERNAL. -/
  | malformedReply (unit : W16) (reply : BadReply)
  /-- R1039: The supervisor does not refresh the always-on watchdog for 100 ms: fatal. -/
  | watchdogTimeout (counter : W32) (opcode : BitVec 8)
  /-- R1039: An uncorrectable error in supervisor memory: fatal. -/
  | supervisorMemoryError (address : W32)
  /-- R1039: A parity error in the always-on domain: fatal. -/
  | alwaysOnParity (group : W32)
  /-- R1039: The supervisor firmware integrity check fails: fatal. -/
  | firmwareIntegrityFailed (check : W32)
  /-- R1018: Once no frame is in flight on the affected replicas, a spare is mapped to the failed logical
  cluster. -/
  | spareReplacement
  /-- R1025: An unmapped logical cluster is mapped to a spare at PROG_LOAD validation or when no program is
  launched. -/
  | restoration
  /-- R1087: 100 us sample of die sensors; T_J is compared with thresholds. -/
  | sensorSample (readings : List Int)
  /-- R1080: 1 ms sample of the card sensor 82. -/
  | cardSensorSample (reading : Int)
  /-- R1087: 20 ms step timer expiry in CAPPED may lower the cap one plan. -/
  | stepTimer
  /-- R1087: 1 s release timer expiry ends the thermal cap. -/
  | releaseTimer
  /-- R1105: SMBus Read Word 0x01 returns 0x4820. -/
  | smbusProduct
  /-- R1105: SMBus Read Byte 0x02 returns ORDER. -/
  | smbusOrder
  /-- R1105: SMBus Block Read 0x03 returns SERIAL. -/
  | smbusSerial
  /-- R1105: SMBus Block Read 0x04 returns FW_VERSION. -/
  | smbusFwVersion
  /-- R1105: SMBus Block Read 0x10 returns HIF_SUPPLY_STATUS without clearing SWITCHED. -/
  | smbusSupplyStatus
  /-- R1105: SMBus Read Word 0x11 returns VIN_MAIN. -/
  | smbusVinMain
  /-- R1105: SMBus Read Word 0x12 returns VIN_AUX. -/
  | smbusVinAux
  /-- R1105: SMBus Read Byte 0x13 returns the power state. -/
  | smbusPowerState
  /-- R1105: SMBus Read Word 0x20 returns T_J. -/
  | smbusTJ
  /-- R1105: SMBus Read Word 0x21 returns sensor 82. -/
  | smbusCardTemperature
  /-- R1105: SMBus Read Byte 0x22 returns the thermal state bits and FATAL. -/
  | smbusState
  /-- R1105: Any other SMBus command code or write is NACKed without effect. -/
  | smbusNack (code : BitVec 8) (write : Bool) (protocol : BitVec 8)
  /-- R1125: JTAG BYPASS instruction. -/
  | bypass (code : BitVec 8)
  /-- R1126: JTAG IDCODE instruction returns 0x1482_0E97. -/
  | idcode
  /-- R1125: JTAG SAMPLE/PRELOAD instruction. -/
  | samplePreload
  /-- R1125: JTAG EXTEST instruction, available only while TEST_EN is high. -/
  | extest
  /-- R478: Private debug or trace instruction, acting as BYPASS and refused while a sealed stratum exists. -/
  | privateDebug (ins : PrivateIns)
  /-- R783: 64 consecutive valid sync headers give block lock on a lane. -/
  | blockLockAcquired (lane : LaneNo)
  /-- R783: 16 invalid headers in 64 blocks lose block lock. -/
  | blockLockLost (lane : LaneNo)
  /-- R820: A lane in use fails; it is fenced and the port narrows or retrains. -/
  | laneFailure (lane : LaneNo)
  /-- R787: Receipt of a TS block; the side acts after four agreeing TS. -/
  | ts (lane : LaneNo) (payload : W64) (inverted : Bool)
  /-- R798: 400 us measurement of a preset ends during EQUALIZE. -/
  | presetMeasureTimer (lane : LaneNo) (margin : Nat)
  /-- R801: The DETECT timer expires and the port is disabled. -/
  | detectTimeout (port : PortNo)
  /-- R801: The EQUALIZE timer expires. -/
  | equalizeTimeout (port : PortNo)
  /-- R801: The ALIGN timer expires. -/
  | alignTimeout (port : PortNo)
  /-- R801: The NEGOTIATE timer expires. -/
  | negotiateTimeout (port : PortNo)
  /-- R801: The RETRAIN timer expires and the port re-equalises or disables. -/
  | retrainTimeout (port : PortNo)
  /-- R804: Receipt of a LANE_MARK used for deskew and BIP check. -/
  | laneMark (lane : LaneNo) (payload : W64) (arrival : Int) (bip : Byte)
  /-- R792: LANE_MARK sent every 16,384 block positions in ACTIVE. -/
  | laneMarkTransmit (port : PortNo) (bips : W32)
  /-- R814: Receipt of a negotiation record fragment. -/
  | negRecord (lane : LaneNo) (payload : W64)
  /-- R815: Receipt of NEG ACCEPT, completing NEGOTIATE when both ways. -/
  | negAccept (lane : LaneNo) (payload : W64)
  /-- R801: Receipt of NEG REFUSE disables the port. -/
  | negRefuse (lane : LaneNo) (payload : W64)
  /-- R825: Receipt of a WIDTH_CHANGE REQ, answered with ACK or NAK. -/
  | widthChangeReq (port : PortNo) (payload : W64)
  /-- R825: Receipt of ACK; the side sends SWITCH. -/
  | widthChangeAck (port : PortNo) (payload : W64)
  /-- R829: Receipt of NAK ends the handshake unchanged. -/
  | widthChangeNak (port : PortNo) (payload : W64)
  /-- R825: Receipt of SWITCH moves destriping to NEW_MASK. -/
  | widthChangeSwitch (port : PortNo) (payload : W64)
  /-- R830: No answer within 2 us: resend REQ, or fail after three. -/
  | widthChangeReqTimeout (port : PortNo)
  /-- R801: A narrowing after a lane failure not complete within 10 us leads to RETRAIN. -/
  | widthChangeTimeout (port : PortNo)
  /-- R843: Receipt of an IDLE block, after which the next data block is a header. -/
  | idle (port : PortNo)
  /-- R855: Receipt of a SAMPLES link-layer frame, whose payload is placed in pool buffers. -/
  | samples (port : PortNo) (bytes : List Byte)
  /-- R855: Receipt of a TENSOR link-layer frame. -/
  | tensor (port : PortNo) (bytes : List Byte)
  /-- R999: Receipt of LOCKSTEP DIGEST records; held pairs of digests are compared. -/
  | digestFrame (port : PortNo) (bytes : List Byte)
  /-- R1001: Receipt of a tile-log request, answered with the LOG. -/
  | logReq (port : PortNo) (bytes : List Byte)
  /-- R1001: Receipt of a peer's tile log, compared entry by entry. -/
  | logFrame (port : PortNo) (bytes : List Byte)
  /-- R995: Receipt of a forwarded item on the secondary. -/
  | forward (port : PortNo) (bytes : List Byte)
  /-- R991: Receipt of the peer's pair record, completing PAIR. -/
  | pairFrame (port : PortNo) (bytes : List Byte)
  /-- R1005: Receipt of UNPAIR ends the pair. -/
  | unpairFrame (port : PortNo) (bytes : List Byte)
  /-- R862: Receipt of a CREDIT block updates the transmitter's LIMIT. -/
  | credit (lane : LaneNo) (payload : W64)
  /-- R863: Receipt of a CREDIT with WITHDRAW sets LIMIT to CONSUMED. -/
  | creditWithdraw (lane : LaneNo) (payload : W64)
  /-- R861: One refresh CREDIT sent per 256 striped block positions. -/
  | creditRefresh (port : PortNo)
  /-- R849: Receipt of ACK frees replay buffer items. -/
  | ack (lane : LaneNo) (payload : W64)
  /-- R851: Receipt of NAK triggers replay from the named item. -/
  | nak (lane : LaneNo) (payload : W64)
  /-- R851: 10 us without progress triggers replay from the oldest item. -/
  | replayTimeout (port : PortNo)
  /-- R866: Receipt of FRAME_MARK closes a frame and opens the next, with route and setting effects. -/
  | frameMark (lane : LaneNo) (payload : W64)
  /-- R870: Receipt of SETTING_NOTICE records the set for its effective frame. -/
  | settingNotice (lane : LaneNo) (payload : W64)
  /-- R875: No FRAME_MARK within 2 x PERIOD forces a route switch and drops the open frame. -/
  | forcedSwitch (channel : Nat)
  /-- R706: Credit starvation lasting one PERIOD sends POOL_STARVED. -/
  | poolStarved (channel : Nat)
  /-- R882: Receipt of a SYNC TIME block, answered with ECHO. -/
  | syncTime (lane : LaneNo) (payload : W64)
  /-- R883: Receipt of a SYNC ECHO; the offset is estimated and the follower tick adjusted. -/
  | echo (lane : LaneNo) (payload : W64)
  /-- R882: A TIME block sent every 10 us during synchronisation. -/
  | timeTransmit (port : PortNo)
  /-- R886: No ECHO for 1 ms ends synchronisation and sends TICK_UNSYNCED. -/
  | echoTimeout (port : PortNo)
  /-- R1122: A cage exceeding its current limit is switched off. -/
  | cageOvercurrent (cage : Fin 4)
  /-- R1122: Once per second a switched-off cage is retried. -/
  | cageRetry (cage : Fin 4)
  /-- R696: An attempted grant of one pool buffer to a channel. -/
  | grant
  /-- R699: A pool buffer finishes zeroing and returns to POOL. -/
  | zeroingComplete (buffer : Nat)
  /-- R927: A Slate engine takes the oldest waiting piece of work. -/
  | pieceStart (engine : EngNo)
  /-- R922: A piece of conditioning ends; a finished frame becomes ready. -/
  | pieceEnd (engine : EngNo)
  /-- R631: The dispatcher starts the oldest ready channel-frame on an idle replica. -/
  | dispatch (stratum : FnNo)
  /-- R560: Issue of a matrix step micro-operation. -/
  | microStep (cluster : LogNo)
  /-- R566: Drain of a closed bank converts the tile and computes row reductions. -/
  | drain (cluster : LogNo)
  /-- R583: A reduction partial becomes ready and is combined with another partial or the root; the partials of all the
  clusters named become ready in one cycle (R584). -/
  | reductionTransfer (clusters : List LogNo)
  /-- R610: Issue of a slot load micro-operation. -/
  | sload (read : SlotRead)
  /-- R611: Issue of a quire bank save. -/
  | qsave (cluster : LogNo)
  /-- R611: Issue of a quire bank load. -/
  | qload (cluster : LogNo)
  /-- R611: Issue of a quire bank clear. -/
  | qclear (cluster : LogNo)
  /-- R612: Issue of a block transfer into scratch. -/
  | get (cluster : LogNo) (found : Option (Nat × Ecc))
  /-- R612: Issue of a block transfer out of scratch. -/
  | put (cluster : LogNo)
  /-- R618: Issue of a halo send. -/
  | hsend (cluster : LogNo)
  /-- R618: Issue of a halo receive; its paired send may begin. -/
  | hrecv (cluster : LogNo)
  /-- R647: MICA FUNC EXP. -/
  | micaExp (cluster : LogNo)
  /-- R647: MICA FUNC EXP2. -/
  | micaExp2 (cluster : LogNo)
  /-- R647: MICA FUNC LOG2. -/
  | micaLog2 (cluster : LogNo)
  /-- R647: MICA FUNC RECIP. -/
  | micaRecip (cluster : LogNo)
  /-- R647: MICA FUNC RSQRT. -/
  | micaRsqrt (cluster : LogNo)
  /-- R647: MICA FUNC TANH. -/
  | micaTanh (cluster : LogNo)
  /-- R647: MICA FUNC SIGMOID. -/
  | micaSigmoid (cluster : LogNo)
  /-- R647: MICA FUNC ERF. -/
  | micaErf (cluster : LogNo)
  /-- R647: MICA FUNC GELU_ERF. -/
  | micaGeluErf (cluster : LogNo)
  /-- R647: MICA FUNC GELU_TANH. -/
  | micaGeluTanh (cluster : LogNo)
  /-- R647: MICA FUNC GELU_SIG. -/
  | micaGeluSig (cluster : LogNo)
  /-- R647: MICA FUNC SILU. -/
  | micaSilu (cluster : LogNo)
  /-- R655: MICA two-pass accumulation of row maximum and sum. -/
  | smaxAcc (cluster : LogNo)
  /-- R656: MICA two-pass normalisation. -/
  | smaxNorm (cluster : LogNo)
  /-- R658: MICA single-pass exponentials with quire accumulation, counting saturations. -/
  | smax1p (cluster : LogNo)
  /-- R660: MICA row scaling by a posit32 vector. -/
  | rowscale (cluster : LogNo)
  /-- R664: MICA evaluation of a loaded interpolation table. -/
  | micaTable (cluster : LogNo)
  /-- R670: MICA run of a loaded micro-program. -/
  | micaMprog (cluster : LogNo)
  /-- R671: Micro-program step MUL. -/
  | mul (cluster : LogNo)
  /-- R671: Micro-program step ADD. -/
  | add (cluster : LogNo)
  /-- R671: Micro-program step FMQ into the quire. -/
  | fmq (cluster : LogNo)
  /-- R671: Micro-program step LUT table lookup. -/
  | lut (cluster : LogNo)
  /-- R671: Micro-program step CSEL compare-select. -/
  | csel (cluster : LogNo)
  /-- R671: Micro-program step RRED range reduction. -/
  | rred (cluster : LogNo)
  /-- R671: Micro-program step RSCALE. -/
  | rscale (cluster : LogNo)
  /-- R607: Issue of a BARRIER micro-operation at one position. -/
  | microBarrier (cluster : LogNo)
  /-- R985: All positions reach a BARRIER and are released within 4 cycles. -/
  | barrierRelease (cluster : LogNo)
  /-- R607: Issue of a NOP micro-operation. -/
  | nop (cluster : LogNo)
  /-- R607: Issue of END at a position. -/
  | microEnd (cluster : LogNo)
  /-- R599: A micro-operation completes and signals its semaphore. -/
  | microOpComplete (cluster : LogNo) (uop : Nat)
  /-- R562: The M-queue head waits 10 ms: program fault. -/
  | scoreboardStall (cluster : LogNo)
  /-- R603: Any queue head waits 10 ms with nothing in flight: program fault. -/
  | queueWaitTimeout (cluster : LogNo)
  /-- R595: All positions complete END; the send descriptor is read and the frame result written. -/
  | channelFrameEnd (cluster : LogNo)
  /-- R420: A result unannounced for 100 us triggers a result-vector message. -/
  | resultAnnounceTimeout (stratum : FnNo) (prog : Nat)
  /-- R949: A send begins once the wide copy fits with one ALLOTTED buffer left. -/
  | sendStart (channel : Nat)
  /-- R950: A wide copy is released 10 ms after its narrow message with no answer. -/
  | wideCopyTimeout (channel : Nat) (msgSeq : W32)
  /-- R950: Receipt of a QMSG ACCEPT releases the wide copy. -/
  | acceptAnswer (channel : Nat)
  /-- R951: Receipt of a WIDE_REQ sends the WIDE message next, or UNAVAILABLE. -/
  | wideReq (channel : Nat)
  /-- R955: Receipt of a WIDE message makes the waiting channel-frame ready. -/
  | wideMessage (channel : Nat)
  /-- R957: Receipt of UNAVAILABLE aborts the waiting channel-frame. -/
  | unavailable (channel : Nat)
  /-- R753: Tick-driven tracking instant of an LPDDR5X channel. -/
  | tracking (channel : ExtNo) (failure : Bool)
  /-- R757: Tick-driven all-bank refresh while a stratum is ISOLATED. -/
  | fixedRefresh (channel : ExtNo)
  /-- R756: Per-bank refresh and RFM at MR4-indicated rates. -/
  | adaptiveRefresh (channel : ExtNo)
  /-- R762: Patrol read of codewords in SHARED slots. -/
  | patrolRead (channel : ExtNo) (word : Nat) (found : Ecc)
  /-- R771: Re-initialisation ends, pages are placed again and the channels return. -/
  | extReinitComplete
  /-- R505: A 64-slot round begins; a new slot table or refresh mode takes effect. -/
  | roundStart
  /-- R507: End of an ISOLATED slot: precharge, suspend and credit gating. -/
  | slotBoundary
  /-- R1073: 10 s after a change of the identity or strata strip, a refresh starts. -/
  | identityChangeTimer
  /-- R1070: A refresh begins once the previous one ends. -/
  | panelRefreshStart
  /-- R1070: A waveform phase ends; the last completes the refresh. -/
  | waveformPhaseEnd
  /-- R72: While the active source stays below V_SAG, the hold-up bank discharges to 20 % or less and the
  module enters HOLDUP. -/
  | bankChargeLow (v : Volts)
  /-- R1146: A failed or weak bank runs out of energy part-way through the HOLDUP sequence, which stops
  with each flash write whole or absent. -/
  | bankEnergyExhausted (writes : Nat) (v : Volts)
  /-- R51: VIN_AUX rises above V_LOW_R while on VIN_MAIN with VIN_MAIN low, so the controller switches to
  VIN_AUX. -/
  | vinAuxNotLow (v : Volts)
  /-- R51: VIN_MAIN rises above V_LOW_R while on VIN_AUX with VIN_AUX low, so the controller switches to
  VIN_MAIN at once, before VIN_MAIN qualifies. -/
  | vinMainNotLow (v : Volts)
  /-- R1128: TEST_EN returns low, releasing the module reset so that the supervisor boots. -/
  | testEnLow
  /-- R441: A flash read (NV_READ, or the read-back of FW_STAGE, FW_COMMIT or CAL_STORE) ends, and the
  operation completes or goes on. -/
  | flashReadComplete (mismatch : Option W32) (fail : Option W64)
  /-- R1142: The PF moves from D0 to D3hot, after which it answers memory requests with Unsupported
  Request. -/
  | d0ToD3hot
  /-- R82: The PCIe link goes down without PERST#, so later completions cannot reach the host. -/
  | pcieLinkDown
  /-- R244: A write of the MSI-X Function Mask: clearing it sends the messages held in the pending bit
  array. -/
  | msixFunctionMask (fn : FnNo) (mask : Bool)
  deriving DecidableEq, Repr

end Sys2Proof
end

