-- ==== Sys2Proof/Decode.lean ====
section
/-!
DEFINITION. Decoding. No row of spec/opcode_table.json gives bits, so no word spells a command by the table: the commands
of a host arrive as packets of 64 bytes (R259), whose OPCODE byte names the row.
-/

namespace Sys2Proof

/-- The command which a word of `nbits` bits spells by the table's bits: none, since no row gives bits.
(Log entry 2 DESIGN CHOICE.) -/
def decodeTableWord (_nbits _w : Nat) : Option Instr := none

/-! ### Command packets (R259) -/

/-- R8, R259: the fields of the 64 bytes of a packet, byte 0 in the lowest bits, less its OPCODE. -/
def Packet.ofBits (w : BitVec 512) : Packet :=
  { flags := w.extractLsb' 8 8, tag := w.extractLsb' 16 16, stratum := w.extractLsb' 32 8, byte5 := w.extractLsb' 40 8
    paramLen := w.extractLsb' 48 16, body := w.extractLsb' 64 448 }

/-- R8, R259: the 64 bytes of a packet with an OPCODE. -/
def Packet.bits (op : BitVec 8) (p : Packet) : BitVec 512 :=
  ((((((p.body ++ p.paramLen) ++ p.byte5) ++ p.stratum) ++ p.tag) ++ p.flags) ++ op).cast (by decide)

/-- Packet byte `n`, 8 to 63. -/
def Packet.byte (p : Packet) (n : Nat) : BitVec 8 := p.body.extractLsb' (8 * (n - 8)) 8

/-- R259, R306, R375: the row which a packet with an opcode from 0x00 to 0x5F names. `host` is what the read of host memory
gave, for a command which reads it. -/
def hostCommandLow (fn : FnNo) (qp : QpNo) (op : BitVec 8) (p : Packet) (host : HostData) : Instr :=
  if op = 0x01 then .devIdentify fn qp p else
  if op = 0x02 then .devStatus fn qp p else
  if op = 0x03 then .devSetPowerCap fn qp p else
  if op = 0x04 then .devSetClockPlan fn qp p else
  if op = 0x10 then .stratumCreate fn qp p else
  if op = 0x11 then .stratumDestroy fn qp p else
  if op = 0x12 then .stratumQuery fn qp p else
  if op = 0x13 then .stratumSetArbitration fn qp p else
  if op = 0x14 then .stratumSetMode fn qp p else
  if op = 0x20 then .memAlloc fn qp p else
  if op = 0x21 then .memFree fn qp p else
  if op = 0x22 then .memMapExternal fn qp p else
  if op = 0x23 then if p.byte 8 = 2 then .setStratum fn qp p else .setSize fn qp p else
  if op = 0x24 then .poolQuery fn qp p else
  if op = 0x30 then .copy fn qp p else
  if op = 0x31 then .copyFill fn qp p else
  if op = 0x32 then .copyChecksum fn qp p else
  if op = 0x40 then
    if p.byte 9 = 2 then .portTrainRetrain fn qp p
    else if p.byte 9 = 3 then .portTrainDisable fn qp p else .portTrainTrain fn qp p
  else
  if op = 0x41 then .portStatus fn qp p else
  if op = 0x42 then .portSetWidth fn qp p else
  if op = 0x43 then .chanBind fn qp p else
  if op = 0x44 then .chanRoute fn qp p else
  if op = 0x45 then .chanUnbind fn qp p else
  if op = 0x46 then .chanQuery fn qp p else
  if op = 0x50 then .slateContextLoad fn qp p host else
  if op = 0x51 then .slateParamSet fn qp p host else
  if op = 0x52 then .slateOutputCfg fn qp p else
  if op = 0x53 then .slateSchedule fn qp p else
  .unlistedOpcode fn qp op p

/-- PANEL_DRAW with what its reads of host memory gave. -/
def panelDrawOf (fn : FnNo) (qp : QpNo) (p : Packet) : HostData → Instr
  | .bytes b => .panelDraw fn qp p b none
  | .error x => .panelDraw fn qp p [] (some x)

/-- R259, R306, R375: the row which a packet with an opcode from 0x60 on names. -/
def hostCommandHigh (fn : FnNo) (qp : QpNo) (op : BitVec 8) (p : Packet) (host : HostData) : Instr :=
  if op = 0x60 then .progLoad fn qp p host else
  if op = 0x61 then .progUnload fn qp p else
  if op = 0x62 then .tableLoad fn qp p else
  if op = 0x63 then .microprogLoad fn qp p else
  if op = 0x70 then .launch fn qp p else
  if op = 0x71 then .launchAtTick fn qp p else
  if op = 0x72 then .barrier fn qp p else
  if op = 0x73 then .frameAbort fn qp p else
  if op = 0x74 then .eventWait fn qp p else
  if op = 0x80 then .qlinkConfig fn qp p else
  if op = 0x81 then .qlinkStats fn qp p else
  if op = 0x90 then .telemetryRead fn qp p else
  if op = 0x91 then .counterConfigClear fn qp p else
  if op = 0xA0 then .unitFence fn qp p else
  if op = 0xA1 then .unitSelftest fn qp p else
  if op = 0xA2 then .unitReturn fn qp p else
  if op = 0xA3 then .clusterRemap fn qp p else
  if op = 0xA4 then .faultLogRead fn qp p else
  if op = 0xB0 then .nvRead fn qp p else
  if op = 0xB1 then .nvWrite fn qp p else
  if op = 0xB2 then .fwStage fn qp p else
  if op = 0xB3 then .fwCommit fn qp p else
  if op = 0xB4 then .calStore fn qp p else
  if op = 0xC0 then panelDrawOf fn qp p host else
  if op = 0xC1 then .panelStatus fn qp p else
  if op = 0xD0 then if p.byte 8 = 2 then .lockstepUnpair fn qp p else .lockstepPair fn qp p else
  if op = 0xD1 then .lockstepStatus fn qp p else
  if op = 0xD2 then .tickSync fn qp p else
  .unlistedOpcode fn qp op p

/-- R259: the command which the 64 bytes of a packet in a submission queue of a function spell. A packet with an opcode
which several rows share names the row of its OP field. (Log entry 159 DEDUCED.) -/
def hostCommand (fn : FnNo) (qp : QpNo) (w : BitVec 512) (host : HostData) : Instr :=
  let op := w.extractLsb' 0 8
  if op < 0x60 then hostCommandLow fn qp op (Packet.ofBits w) host else hostCommandHigh fn qp op (Packet.ofBits w) host

end Sys2Proof
end

