-- ==== Sys2Proof/Config.lean ====
section
/-!
DEFINITION. The free values: what the spec leaves open, as constants without a body, so that no proof
can use a value of theirs. Each is applied to what it may depend on; `n` is the free-value counter of
State (or another generation number), so that two uses need not agree.
-/

namespace Sys2Proof.Config

/-- R431: how many requests a unit had open when its fence cut them off.
(Log entries 15 DESIGN CHOICE, 69 DESIGN CHOICE.) -/
opaque openRequests (n : Nat) : BitVec 64

/-- R919: a pattern of a spectrogram element of log2 (P / 2^112). -/
opaque spectrumLog (p : Nat) : BitVec 16

/-- R351, R491, R772: byte `i` of a 64-byte data unit of external memory which nothing has written since its generation
`gen`: what the ciphertext there decrypts to under the key pair `key` and the tweak. -/
opaque extByte (gen key tweak i : Nat) : BitVec 8

/-- R132, R371: byte `i` of what a copy engine had read from host memory when its job ended early.
(Log entry 15 DESIGN CHOICE.) -/
opaque hostByte (n i : Nat) : BitVec 8

/-- R129, R135, R370: a requester had a request open at a unit, or across a network segment, when it was cut.
(Log entry 69 DESIGN CHOICE.) -/
opaque requestOpen (n : Nat) : Bool

/-- R314, R809: the digits of the module's serial number, each 0 to 35. -/
opaque serialDigit (i : Fin 12) : Fin 36

/-- R1054: the signature of a firmware image verifies against the processor's key store. -/
opaque signatureOk (bytes : List (BitVec 8)) : Bool

/-- R132, R371: how far a request which ends with ST_TARGET_RESET or ST_OUT_OF_RANGE took effect.
(Log entry 15 DESIGN CHOICE.) -/
opaque progress (n : Nat) : Nat

/-- R465, R1062: a flash byte which an operation that failed or ended left, `n` a draw and `off` its place. -/
opaque flashByte (n off : Nat) : BitVec 8

/-- R1062: an erase which an end cut off has erased its sector. (Log entry 83 DESIGN CHOICE.) -/
opaque sectorErased (n : Nat) : Bool

/-- R1049: a byte of a SYSTEM record, whose field order the spec does not give. (Log entry 81 DESIGN CHOICE.) -/
opaque systemByte (seq i : Nat) : BitVec 8

/-- R1066: a byte of the rows which the supervisor draws on the panel, whose typeface the spec leaves open.
(Log entry 81 DESIGN CHOICE.) -/
opaque panelByte (n i : Nat) : BitVec 8

/-- R1094: the sensor which HOTTEST names among several which give T_J, or when none does.
(Log entry 86 DESIGN CHOICE.) -/
opaque hottest (n : Nat) : Nat

/-- A value for which the spec states no result, `n` a draw and `i` its place: a rescale drain without a message header
(R964), a code element beyond its row (R961), a reduction over banks of unlike form (R581, R583).
(Log entries 15 DESIGN CHOICE, 106 DESIGN CHOICE.) -/
opaque openValue (n i : Nat) : BitVec 256

/-- R640, R671: N of a range reduction with a NaR operand, for which the spec states no result, by the patterns of its
operands. (Log entry 106 DESIGN CHOICE.) -/
opaque nanReduction (a b : Nat) : BitVec 256

/-- R640, R649: the pattern which a Mica unit of a version returns in native mode, where the error bound leaves a choice:
FUNC, formats and input pattern. (Log entry 112 DESIGN CHOICE.) -/
opaque micaNear (version func inFmt outFmt x : Nat) : Nat

/-- R640, R674: the same in VK3310 compatibility mode, posit16 to posit16. (Log entry 112 DESIGN CHOICE.) -/
opaque micaCompat (version func x : Nat) : Nat

/-- R1135: the posit32 pattern of E(d) where the error bound leaves a choice, d in units of 2^-120.
(Log entry 112 DESIGN CHOICE.) -/
opaque micaExp (version : Nat) (d : Int) : Nat

end Sys2Proof.Config
end

