-- ==== Sys2Proof/Machine/Flags.lean ====
section
/-!
DEFINITION. Status codes (R462), interrupt cause bits (R240), start-up phase codes (R140, R141), event
types, and the bits of the PCI Express registers.
-/

namespace Sys2Proof.Machine

/-! ### Status codes (R462) -/
abbrev stOk : W16 := 0x0000
abbrev stAccepted : W16 := 0x0001
abbrev stBadOpcode : W16 := 0x0100
abbrev stBadLength : W16 := 0x0101
abbrev stBadField : W16 := 0x0102
abbrev stReserved : W16 := 0x0103
abbrev stNotPermitted : W16 := 0x0104
abbrev stBadState : W16 := 0x0105
abbrev stNoResource : W16 := 0x0200
abbrev stPoolExhausted : W16 := 0x0201
abbrev stQuota : W16 := 0x0202
abbrev stCopyOverlap : W16 := 0x0300
abbrev stOutOfRange : W16 := 0x0301
abbrev stNotOwner : W16 := 0x0302
abbrev stLinkDown : W16 := 0x0400
abbrev stTrainFailed : W16 := 0x0401
abbrev stPartnerRefused : W16 := 0x0402
abbrev stTargetReset : W16 := 0x0500
abbrev stUnitFenced : W16 := 0x0501
abbrev stCapacityLost : W16 := 0x0502
abbrev stSupplyLow : W16 := 0x0600
abbrev stNvVerify : W16 := 0x0601
abbrev stImageInvalid : W16 := 0x0602
abbrev stDivergence : W16 := 0x0700
abbrev stTickUnsynced : W16 := 0x0701
abbrev stFrameLate : W16 := 0x0800
abbrev stFrameAborted : W16 := 0x0801
abbrev stWideRerun : W16 := 0x0802
abbrev stInternal : W16 := 0x0F00

/-! ### Cause bits (R240) -/
abbrev causeFatal : BitVec 12 := 0x800
abbrev causeStart : BitVec 12 := 0x400
abbrev causePanel : BitVec 12 := 0x200
abbrev causeSupply : BitVec 12 := 0x100
abbrev causeAccessErr : BitVec 12 := 0x080
abbrev causeQueueErr : BitVec 12 := 0x040
abbrev causeEvqLost : BitVec 12 := 0x020
abbrev causeEvq : BitVec 12 := 0x010

/-- The cause bit of completion queue `n`. -/
def causeCq (n : QpNo) : BitVec 12 := 1#12 <<< n.val

/-- R240: the MSI-X vector of a cause bit. -/
def causeVector (b : Fin 12) : Nat :=
  if b.val < 4 then b.val else if b.val < 6 then 4 else 5

/-- R240: bits 8 and 9 are reserved in a VF. -/
def causeValid (fn : FnNo) : BitVec 12 := if fn.val = 0 then 0xFFF else 0xCFF

/-! ### Start-up phases (R140, R141) -/
abbrev phSupervisorBoot : BitVec 4 := 0x1
abbrev phAonCheck : BitVec 4 := 0x2
abbrev phWaitMain : BitVec 4 := 0x3
abbrev phClockStart : BitVec 4 := 0x4
abbrev phGeodeTest : BitVec 4 := 0x5
abbrev phClusterTest : BitVec 4 := 0x6
abbrev phMapping : BitVec 4 := 0x7
abbrev phReady : BitVec 4 := 0x8
abbrev phScrub : BitVec 4 := 0x9
abbrev phRecovery : BitVec 4 := 0xA
abbrev phFailed : BitVec 4 := 0xB
abbrev phFatal : BitVec 4 := 0xC

/-! ### Reasons and resources of R463 -/
abbrev bsPhase : W64 := 1
abbrev bsStratum : W64 := 2
abbrev bsObject : W64 := 3

end Sys2Proof.Machine
end

