-- ==== Sys2Proof/Machine/State.lean ====
section
/-!
DEFINITION. The state of the module as plain data, one field per piece of state which the spec names,
the reasons a step can stop, and the state right after reset.
-/

namespace Sys2Proof.Machine

/-! ### Sparse memory -/

/-- A sparse byte memory: (address, byte) pairs at strictly rising addresses, none equal to what an
unlisted address reads as. -/
abbrev Mem := List Host.Cell

/-! ### Host interface (05, 06) -/

/-- The MSI-X table entry of one vector (R244; the layout is PCI Express's). -/
structure MsixEntry where
  /-- Message address. -/
  addr : W64
  /-- Message data. -/
  data : W32
  /-- Per-vector Mask bit. -/
  masked : Bool
  deriving DecidableEq, Repr

/-- A command which has been read from its submission queue and is not yet validated. -/
structure HeldCmd where
  /-- OPCODE byte. -/
  op : BitVec 8
  /-- The packet. -/
  pkt : Packet
  deriving DecidableEq, Repr

/-- A status reply (R266). `phase` is PHASE of R226. -/
structure Reply where
  op : BitVec 8
  phase : Bool
  notified : Bool
  chain : Bool
  tag : W16
  status : W16
  detail : W16
  r0 : W64
  r1 : W64
  tick : Tick
  deriving DecidableEq, Repr

/-- An event record (R299), less PHASE and STRATUM, which the ring and the function give. -/
structure EvRec where
  /-- KIND: true for a completion record. -/
  completion : Bool
  tag : W16
  evType : W16
  status : W16
  queue : BitVec 8
  detail : W16
  seq : W32
  tick : Tick
  r0 : W64
  r1 : W64
  /-- DATA, byte 40 in its lowest bits. -/
  data : BitVec 192
  deriving DecidableEq, Repr

/-- One queue pair of a function (R209, R210, R212, R226). -/
structure QPair where
  /-- HIF_SQn_BASE. -/
  sqBase : W64
  /-- HIF_CQn_BASE. -/
  cqBase : W64
  /-- SQ_LOG2. -/
  sqLog2 : BitVec 4
  /-- CQ_LOG2. -/
  cqLog2 : BitVec 4
  /-- ENABLE. -/
  enable : Bool
  /-- RUNNING. -/
  running : Bool
  /-- ERROR. -/
  error : Bool
  /-- TAIL of the submission queue. -/
  tail : BitVec 12
  /-- HEAD of the completion queue. -/
  cqHead : BitVec 12
  /-- The next submission queue entry to read. -/
  readPos : BitVec 12
  /-- The next completion queue entry to write. -/
  cqPos : BitVec 12
  /-- The phase of the next reply (R226). -/
  cqPhase : Bool
  /-- Replies not yet released (R224). -/
  cqUnreleased : Nat
  /-- No further entry is read, and RUNNING clears once no read command waits (R222, R236). -/
  stopping : Bool
  /-- An enable recorded under R1143. -/
  reenable : Bool
  /-- The command read and not yet validated (R232, R282, R284). -/
  held : Option HeldCmd
  /-- The command whose reply waits for the start of a round (R343). -/
  awaiting : Option HeldCmd
  /-- The last command validated had CHAIN 1. -/
  chain : Bool
  /-- TAG of the command whose failure cancels the rest of the chain (R285). -/
  chainFailed : Option W16
  /-- Number of the last command's outstanding work, for R284. -/
  prevId : Nat
  /-- Queues which have been served once while this one was ready (R293). -/
  passed : List (FnNo × QpNo)
  deriving DecidableEq, Repr

/-- The event queue of a function (R211, R212, R232, R233, R300). -/
structure Evq where
  /-- Ring address. -/
  base : W64
  /-- EVQ_LOG2. -/
  log2 : BitVec 4
  enable : Bool
  running : Bool
  error : Bool
  head : BitVec 12
  /-- The next entry to write. -/
  pos : BitVec 12
  phase : Bool
  unreleased : Nat
  /-- SEQ of the next record (R300). -/
  seq : W32
  /-- Entries reserved for completion records (R232). -/
  reserved : Nat
  /-- Records held in the order in which they arose (R233, R235). -/
  held : List EvRec
  /-- The queue has run since the last reset of its registers (R177). -/
  everRan : Bool
  deriving DecidableEq, Repr

/-- A write to host memory which waits for Bus Master Enable (R1144): bytes at an address, or a status reply. -/
inductive Unsent where
  | bytes (addr : W64) (bs : List Byte)
  | reply (qp : QpNo) (op : BitVec 8) (flags : BitVec 8) (tag status detail : W16) (r0 r1 : W64)
  deriving DecidableEq, Repr

/-- The host interface state of one PCI Express function. -/
structure Func where
  /-- HIF_INT_CAUSE bits 11:0 (R240). -/
  intCause : BitVec 12
  /-- HIF_INT_MASK bits 11:0 (R240). -/
  intMask : BitVec 12
  /-- The tick capture of R206. -/
  tickCapture : W32
  qps : Vector QPair 4
  evq : Evq
  /-- Bus Master Enable (R1144). -/
  busMaster : Bool
  /-- Memory Space Enable (R1142). -/
  memSpace : Bool
  /-- Enable Relaxed Ordering of Device Control (R185). -/
  relaxed : Bool
  /-- Max Payload Size and Max Read Request Size of Device Control, in bytes (R182). -/
  maxPayload : Nat
  maxReadRequest : Nat
  /-- Writes which wait for Bus Master Enable, oldest first (R1144). -/
  unsent : List Unsent
  /-- The MSI-X Function Mask (R244). -/
  functionMask : Bool
  msix : Vector MsixEntry 64
  /-- The MSI-X pending bit array. -/
  pba : BitVec 64
  /-- EVQ_LOST count of DEV_STATUS (R234). -/
  evqLost : W32
  /-- HELD_LOST of DEV_STATUS (R177). -/
  heldLost : W32
  deriving DecidableEq, Repr

/-- A long-running command accepted and without completion (R269). -/
structure Outst where
  /-- A number which no other outstanding command carries. -/
  id : Nat
  fn : FnNo
  qp : QpNo
  op : BitVec 8
  tag : W16
  /-- The command belongs to a live chain as one which is not its last (R285). -/
  chain : Bool
  deriving DecidableEq, Repr

/-! ### Strata (07, 10) -/

/-- An allocation in a stratum's view: granules (Geode) or 1 MiB pages (external), `none` for one
marked LOST (R713, R771). -/
structure Alloc where
  /-- View address of the first byte. -/
  base : Nat
  parts : List (Option Nat)
  /-- Generation of the undefined contents (R351, R772). -/
  gen : Nat
  deriving DecidableEq, Repr

/-- One stratum (R326, R469). -/
structure Stratum where
  /-- The stratum exists. -/
  live : Bool
  /-- STRATUM_DESTROY has been accepted (R334). -/
  destroying : Bool
  /-- The outstanding command which destroys it. -/
  destroyId : Nat
  sealed : Bool
  repro : Bool
  isolated : Bool
  retry : Bool
  compat : Bool
  /-- SLOT_SHARE. -/
  share : Nat
  /-- PANEL_GRANT. -/
  panelGrant : BitVec 8
  chanQuota : Nat
  /-- CLUSTER_MASK; for stratum 0 it is derived (R312). -/
  clusters : BitVec 64
  arenaQuota : Nat
  extQuota : Nat
  /-- Pool reserve R_s. -/
  reserve : Nat
  /-- Pool ceiling C_s. -/
  ceiling : Nat
  /-- CREATED. -/
  created : Tick
  /-- Generation of the AES-XTS key pair, `none` when no key exists (R490, R493). -/
  key : Option Nat
  /-- Live arena allocations by rising view address. -/
  arena : List Alloc
  /-- Live external allocations by rising view address. -/
  ext : List Alloc
  /-- BAR2 aperture base (R250). -/
  aperture : Nat
  /-- Bank of the last granule placed (R683). -/
  lastBank : Nat
  deriving DecidableEq, Repr

/-! ### Geode memory and the pool (15) -/

/-- Mark of a granule which is not FREE (R680). -/
inductive Mark where
  /-- Part of an arena allocation of a stratum. -/
  | arena (owner : FnNo)
  /-- Four pool buffers. -/
  | pool
  /-- Slate context store: the channel which holds each of its two parts (R1138). -/
  | system (p0 p1 : Option Nat)
  deriving DecidableEq, Repr

/-- State of a pool buffer other than POOL and LOST (R699): one in neither is in POOL when its granule is in the
pool, and LOST when the granule was lost and not replaced. -/
inductive BufState where
  | allotted | filling | held | zeroing
  deriving DecidableEq, Repr

/-- A pool buffer which is not in state POOL. -/
structure Buf where
  num : Nat
  state : BufState
  /-- Owner field (R483): the channel. -/
  chan : Nat
  /-- FRAME_SEQ of the frame whose payload it holds, or MSG_SEQ of the wide copy which it holds (R948). -/
  frame : Nat
  /-- It holds a wide copy. -/
  copy : Bool
  deriving DecidableEq, Repr

/-- Geode memory. -/
structure Geode where
  /-- Contents by physical address (R679). -/
  mem : Mem
  /-- Granules which are not FREE, by rising global number. -/
  marks : List (Nat × Mark)
  /-- Granules of the pool in buffer order, `none` for one lost and not replaced (R690, R716). -/
  poolGranules : List (Option Nat)
  /-- Pool buffers not in state POOL, by rising number. -/
  bufs : List Buf
  /-- Bank of the last SYSTEM granule taken (R1138). -/
  lastSystem : Nat
  /-- Bank of the last pool granule taken (R690, R716). -/
  lastPool : Nat
  /-- The pool is short since this tick (R692, R712). -/
  shortSince : Option Tick
  /-- Strata which received the RESERVE_SHORT of this shortage. -/
  shortTold : List FnNo
  deriving DecidableEq, Repr

/-! ### External memory (17) -/

/-- External memory. -/
structure ExtMem where
  /-- Bytes written, by data-space offset; every other byte is undefined (R351, R772). -/
  mem : Mem
  /-- The interleave order (R748). -/
  order : List ExtNo
  /-- Poisoned codewords: channel, codeword number and the tick of poisoning (R760, R764). -/
  poisoned : List (ExtNo × Nat × Tick)
  /-- Poisonings of the last second: channel, codeword number and tick (R764). -/
  events : List (ExtNo × Nat × Tick)
  /-- Tick of the last MEMORY_POISONED of each channel (R763). -/
  toldAt : Vector (Option Tick) 8
  /-- Fixed refresh is in force (R757). -/
  fixedRefresh : Bool
  /-- R771 is under way. -/
  reinit : Bool
  deriving DecidableEq, Repr

/-! ### Copy engines (16) -/

/-- What a copy engine keeps for one stratum (R507, R725, R734). A running job whose stratum the slot does not serve stands
in the engine's suspend store for that stratum. -/
structure EngStore where
  /-- The next burst is the delivery job's (R725). -/
  delivery : Bool
  /-- The stratum's staging buffer, from its first byte; bytes beyond the list read zero (R734, R740). -/
  staging : List Byte
  deriving DecidableEq, Repr

/-- Which copy command a job carries out. -/
inductive CopyKind where
  | copy | fill | checksum
  deriving DecidableEq, Repr

/-- A command job (R366, R721). -/
structure CopyJob where
  /-- The outstanding command. -/
  id : Nat
  stratum : FnNo
  kind : CopyKind
  engine : EngNo
  src : Nat
  dst : Nat
  srcStride1 : Nat
  srcStride2 : Nat
  dstStride1 : Nat
  dstStride2 : Nat
  ext0 : Nat
  ext1 : Nat
  ext2 : Nat
  srcHost : Bool
  dstHost : Bool
  /-- Element size in bytes. -/
  esize : Nat
  transpose : Bool
  /-- PATTERN of COPY_FILL. -/
  pattern : W32
  /-- ALGO of COPY_CHECKSUM: CRC-64. -/
  crc64 : Bool
  started : Bool
  /-- The candidate of R731 which runs, 1 to 8, 0 for a diagonal copy (R732). -/
  traversal : Nat
  deriving DecidableEq, Repr

/-! ### Host interface after a reset of its registers (R198, R1141) -/

/-- A queue pair after a reset of its registers. (Log entry 10 PRESUMED.) -/
def QPair.reset : QPair :=
  { sqBase := 0, cqBase := 0, sqLog2 := 0, cqLog2 := 0, enable := false, running := false, error := false,
    tail := 0, cqHead := 0, readPos := 0, cqPos := 0, cqPhase := true, cqUnreleased := 0,
    stopping := false, reenable := false, held := none, awaiting := none, chain := false,
    chainFailed := none, prevId := 0, passed := [] }

/-- An event queue after a reset of its registers (R1141, R300). (Log entry 10 PRESUMED.) -/
def Evq.reset : Evq :=
  { base := 0, log2 := 0, enable := false, running := false, error := false, head := 0, pos := 0,
    phase := true, unreleased := 0, seq := 0, reserved := 0, held := [], everRan := false }

/-- A function after a reset of its HIF_ registers and MSI-X state (R198).
(Log entries 10 PRESUMED, 11 DESIGN CHOICE, 50 PRESUMED.) -/
def Func.reset (fn : FnNo) : Func :=
  { intCause := 0, intMask := causeValid fn, tickCapture := 0, qps := Vector.replicate 4 QPair.reset,
    evq := Evq.reset, busMaster := false, memSpace := false, relaxed := true,
    maxPayload := 128, maxReadRequest := 512, unsent := [], functionMask := false,
    msix := Vector.replicate 64 { addr := 0, data := 0, masked := true }, pba := 0, evqLost := 0,
    heldLost := 0 }


/-! ### Supplies, clock plans and start-up (02, 03, 04) -/

/-- R71: power states. -/
inductive PowerState where
  | off | standby | active | holdup
  deriving DecidableEq, Repr

/-- The supply monitor, the source controller and the hold-up bank (02). -/
structure Supply where
  power : PowerState
  /-- VIN_MAIN and VIN_AUX in 10 mV. -/
  vinMain : Nat
  vinAux : Nat
  /-- The input is low (R50). -/
  mainLow : Bool
  auxLow : Bool
  /-- VIN_MAIN is qualified (R50). -/
  mainQual : Bool
  /-- The controller is in ON_AUX (R51). -/
  onAux : Bool
  /-- A switch-over is in progress, to VIN_AUX when true (R51). -/
  switching : Option Bool
  /-- The active source is below V_SAG, since this tick (R83, R87). -/
  sag : Option Tick
  /-- The fast throttle is in force (R54). -/
  throttle : Bool
  /-- The 70 W supply cap is in force (R59). -/
  cap70 : Bool
  /-- SWITCHED (R83). -/
  switched : Bool
  /-- Bank charge in percent of 30 J (R83). -/
  charge : Nat
  /-- HOLDUP_FAULT (R69, R70). -/
  holdupFault : Bool
  /-- The supply monitor failed its AON_CHECK (R148). -/
  monitorFailed : Bool
  /-- Tick of the entry to HOLDUP (R1064). -/
  holdupTick : Tick
  /-- The RO fields of HIF_SUPPLY_STATUS as last refreshed (R84). -/
  shown : W32
  deriving DecidableEq, Repr

/-- Clock plans and caps (R58, R62, R93, R94). -/
structure Plans where
  /-- Host cap in W. -/
  hostCap : Nat
  /-- Thermal cap in W while it is in force. -/
  thermalCap : Option Nat
  /-- Plan ID selected by host software. -/
  selected : BitVec 8
  /-- Plan ID in force. -/
  inForce : BitVec 8
  /-- Plan ID of the installation under way. -/
  installing : Option (BitVec 8)
  /-- CAP_CHANGED is due after the installation under way (R87). -/
  capNotice : Bool
  /-- A cap began, stepped or ended since the installation under way began (R511). -/
  capMoved : Bool
  /-- DEV_SET_CLOCK_PLAN commands without completion, in order (R324). -/
  cmds : List Nat
  deriving DecidableEq, Repr

/-- Start-up, resets and fatal conditions (03, 04, 23). -/
structure Boot where
  /-- START_PHASE (R140, R141). -/
  phase : BitVec 4
  /-- START_FAIL (R171). -/
  fail : BitVec 8
  /-- START_DEGRADED (R173). -/
  degraded : Bool
  /-- RESET_CAUSE (R124). -/
  resetCause : BitVec 8
  /-- The running firmware image: 0 A, 1 B, 0xFF none (R314). -/
  image : BitVec 8
  /-- Images abandoned under R146, A then B. -/
  abandonedA : Bool
  abandonedB : Bool
  /-- Clusters tested so far in CLUSTER_TEST, in rounds of eight (R161). -/
  rounds : Nat
  /-- LPDDR5X training and initialisation have ended (R166). -/
  lpddrDone : Bool
  /-- PERST# is asserted. -/
  perst : Bool
  /-- The PCIe link is in L0 (R149). -/
  linkL0 : Bool
  /-- The PF is in D3hot (R142). -/
  d3hot : Bool
  /-- VF Enable and NumVFs (R194). -/
  vfEnable : Bool
  numVfs : Nat
  /-- MOD_RESET_N and TEST_EN levels, and the latched module reset (R119, R1128). -/
  modResetLow : Bool
  testEn : Bool
  resetPending : Bool
  /-- RESET_CAUSE of the latched module reset (R124, R1128). -/
  pendingCause : BitVec 8
  /-- The processor is held in module reset (R121). -/
  inReset : Bool
  /-- Phase-end ticks of phases 1 to 8 (R316). -/
  phaseEnd : Vector Tick 8
  /-- FATAL (R1040). -/
  fatal : Bool
  /-- HIF_FATAL_LOG words 0 to 7 (R246). -/
  fatalLog : Vector W32 8
  /-- The Poica reference is lost, or PLL_SER is out of lock (R139). -/
  poicaLost : Bool
  /-- PLLs out of lock, with the units which that fenced (R139). -/
  pllOut : List (Nat × List W16)
  deriving DecidableEq, Repr

/-- A unit which can be reset on its own (R125, R429). -/
structure UnitSt where
  fenced : Bool
  retired : Bool
  /-- A draining fence is in its DRAIN step for this outstanding command, since this tick (R127). -/
  draining : Option (Nat × Tick)
  /-- The outstanding commands of the self-test under way (R433). -/
  testing : List Nat
  /-- A self-test has passed since the unit was fenced (R434). -/
  passed : Bool
  /-- Epoch of the completion proxy, and of the network interface by which the unit makes requests (R127, R134). -/
  epoch : Nat
  own : Nat
  /-- An LPDDR5X channel which left service with its controller (R775). -/
  withCtrl : Bool
  deriving DecidableEq, Repr

/-- The state of every unit of R125. -/
structure Units where
  clusters : Vector UnitSt 72
  banks : Vector UnitSt 64
  slates : Vector UnitSt 4
  copies : Vector UnitSt 4
  ports : Vector UnitSt 8
  lanes : Vector UnitSt 32
  exts : Vector UnitSt 8
  ctrls : Vector UnitSt 2
  segs : Vector UnitSt 8
  deriving DecidableEq, Repr

/-! ### Waiting commands (08) -/

/-- What an EVENT_WAIT waits for (R423). -/
structure EvWait where
  /-- The outstanding command. -/
  id : Nat
  stratum : FnNo
  /-- KIND: 1 tick, 2 frame, 3 occurrence. -/
  kind : BitVec 8
  chan : Nat
  evType : W16
  value : W64
  /-- Tick of acceptance. -/
  accepted : Tick
  timeout : W64
  /-- An occurrence of EVENT_TYPE has been queued since acceptance. -/
  hit : Bool
  deriving DecidableEq, Repr

/-- What a BARRIER waits for (R421). -/
structure BarrierWait where
  id : Nat
  stratum : FnNo
  /-- Every command numbered below this which is still outstanding. -/
  below : Nat
  /-- The channel-frames, by channel and FRAME_SEQ, which are without a result. -/
  frames : List (Nat × W64)
  /-- Queues whose STRATUM_SET_ARBITRATION, accepted before, has no reply yet (R343). -/
  queues : List QpNo
  deriving DecidableEq, Repr

/-! ### Programs and compute (12, 13, 14) -/

/-- The terms of a launch (R413). -/
structure Launch where
  binary32 : Bool
  modLog2 : Nat
  vector : Nat
  ringLog2 : Nat
  deadline : W32
  ringAddr : W64
  headAddr : W64
  /-- Frames whose opening FRAME_MARK arrives at or after this tick are served (R415). -/
  fromTick : Tick
  /-- The launch's number among all launches. -/
  serial : Nat
  deriving DecidableEq, Repr

/-- A frame result ring (R418 to R420). -/
structure ResultRing where
  /-- Next entry to write. -/
  pos : Nat
  phase : Bool
  unreleased : Nat
  head : Nat
  /-- Results written and not announced by a message, and the tick of the oldest (R420). -/
  unannounced : Nat
  oldest : Tick
  /-- Results which wait for room, as bytes, oldest first (R419). -/
  waiting : List (Nat × W64 × List Byte)
  deriving DecidableEq, Repr

/-- The ring of a launch which has written nothing. -/
def ResultRing.empty : ResultRing :=
  { pos := 0, phase := true, unreleased := 0, head := 0, unannounced := 0, oldest := 0, waiting := [] }

/-- A program of a stratum (R405 to R410, R629, R630). -/
structure Prog where
  stratum : FnNo
  /-- PROG_ID. -/
  id : Nat
  /-- The package bytes as read at PROG_LOAD; empty until PACKAGE_CHECK has read them. -/
  pkg : List Byte
  /-- The 256-byte header. -/
  header : List Byte
  arena : Nat
  /-- The outstanding PROG_LOAD, while the package check has not ended. -/
  loading : Option Nat
  /-- The outstanding PROG_UNLOADs, in the order of their acceptance (R298, R410). -/
  unloading : List Nat
  /-- Variant in use, `none` when none fits (R635). -/
  variant : Option Nat
  /-- Logical cluster of the first position of each replica. -/
  origins : List Nat
  /-- Offset of the scratch window in each logical cluster it has been placed in (R630). -/
  windows : List (Nat × Nat)
  /-- A change of variant or placement waits for the running channel-frames (R634). -/
  reselect : Bool
  /-- The latest selection of R634 found no variant which fits (R635). -/
  unfit : Bool
  launch : Option Launch
  ring : ResultRing
  deriving DecidableEq, Repr

/-- A launch scheduled by LAUNCH_AT_TICK (R415, R987). -/
structure Scheduled where
  /-- The outstanding command. -/
  id : Nat
  stratum : FnNo
  prog : Nat
  start : Tick
  requireSync : Bool
  terms : Launch
  deriving DecidableEq, Repr

/-- A Mica table slot (14 R663). -/
structure MicaTable where
  /-- The image as loaded, `none` when the slot is empty. -/
  image : List Byte
  monotone : Bool
  deriving DecidableEq, Repr

/-- A TABLE_LOAD or MICROPROG_LOAD under way (R411). -/
structure SlotLoad where
  id : Nat
  stratum : FnNo
  slot : Nat
  arg : Nat
  deriving DecidableEq, Repr

/-- The states of an operand slot (R553). -/
inductive SlotState where
  | empty | filling | resident | inUse
  deriving DecidableEq, Repr

/-- An operand slot (R552, R553). (Log entry 101 DEDUCED.) -/
structure OpSlot where
  state : SlotState
  /-- The user count. -/
  users : Nat
  /-- Patterns of the tile's elements, row-major. -/
  tile : List Nat
  rows : Nat
  cols : Nat
  /-- Element-size code: 0 8-bit, 1 16-bit, 2 32-bit. -/
  esize : Nat
  /-- It was last loaded from a code region (R963). -/
  code : Bool
  deriving DecidableEq, Repr

/-- A Granite cluster with its Mica unit, less its scratch (12). -/
structure Cluster where
  /-- The 256 bits of each cell of banks A and B which are not zero; cell (i, j) has number 32 i + j (R526). -/
  bankA : List (Nat × BitVec 256)
  bankB : List (Nat × BitVec 256)
  /-- The bank is in quire32 form (R569). -/
  wideA : Bool
  wideB : Bool
  /-- The bank is coded (R963). -/
  codedA : Bool
  codedB : Bool
  west : Vector OpSlot 8
  north : Vector OpSlot 8
  deriving DecidableEq, Repr

/-- A micro-operation which has issued and is not complete (R597, R599). -/
structure Flight where
  /-- Its index in the entry. -/
  idx : Nat
  /-- The drain of a closing step has read its bank (R566). -/
  drained : Bool
  /-- What it does is done; only its completion is missing. -/
  done : Bool
  /-- The tile which an SLOAD has read (R610). -/
  tile : Option OpSlot
  /-- Its number among the HSENDs or HRECVs of its direction, the BARRIERs, or the closing steps of its reduction group
  (R581, R607, R618). -/
  num : Nat
  deriving DecidableEq, Repr

/-- One position of a replica while a channel-frame runs (R597 to R602). -/
structure Position where
  cluster : LogNo
  /-- The entry's micro-operations. -/
  code : List (BitVec 128)
  /-- Index from which on the M, X and F queues have not issued. -/
  next : Vector Nat 3
  /-- Tick since which the head of each queue waits. -/
  since : Vector Tick 3
  flights : List Flight
  sems : Vector Nat 16
  /-- HSENDs and HRECVs issued, by direction. -/
  sends : Vector Nat 4
  recvs : Vector Nat 4
  /-- BARRIERs reached. -/
  barriers : Nat
  /-- Closing steps issued, by reduction group. -/
  reduced : List (Nat × Nat)
  ended : Bool
  deriving DecidableEq, Repr

/-- A partial result of a reduction, in the combine buffer of a position (R581, R583). -/
structure Partial where
  pos : Nat
  group : Nat
  /-- Number of its closing step among those of the group at the position. -/
  num : Nat
  /-- Ranks combined in it. -/
  ranks : List Nat
  /-- Level which it has reached. -/
  level : Nat
  /-- FAST: it is ready at the root's scoreboard, at its level. -/
  ready : Bool
  /-- The bank was in quire32 form: 16 columns. -/
  wide : Bool
  /-- Quires in REPRODUCIBLE mode, posit32 values in FAST mode; `none` is NaR. -/
  vals : List (Option Int)
  deriving DecidableEq, Repr

/-- A micro-program which runs in one cluster (R670). -/
structure MprogRun where
  /-- Index of the MICA operation. -/
  idx : Nat
  /-- Group of 32 elements under work, and the next step. -/
  group : Nat
  step : Nat
  /-- P0 to P7 of the 32 lanes. -/
  regs : List (List Nat)
  /-- Q of the 32 lanes, `none` for NaR, and N. -/
  quires : List (Option Int)
  ints : List Int
  deriving DecidableEq, Repr

/-- A channel-frame which runs on a replica (R593, R594). -/
structure Run where
  stratum : FnNo
  prog : Nat
  replica : Nat
  chan : Nat
  seq : W64
  positions : List Position
  /-- A program fault has ended it: what is in flight completes, and the channel-frame ends then (R604). -/
  ending : Bool
  /-- The OUT area. -/
  out : List Byte
  partials : List Partial
  /-- Micro-programs which run, by position. -/
  mprogs : List (Nat × MprogRun)
  deriving DecidableEq, Repr

/-! ### Poica ports, lanes and the link layer (18, 19) -/

/-- State of a port (R799). -/
inductive PState where
  | disabled | detect | equalize | align | negotiate | active | retrain
  deriving DecidableEq, Repr

/-- One Poica lane. -/
structure LaneSt where
  /-- Block lock (R783). -/
  locked : Bool
  /-- Polarity correction (R782). -/
  inverted : Bool
  /-- Bytes 1 to 5 of the latest TS, and how many in a row agreed in them (R787). -/
  seenTs : BitVec 40
  seenCount : Nat
  /-- Bytes 1 to 5 of the last TS acted on since the stage began (R787). -/
  farTs : Option (BitVec 40)
  /-- SEQ of the next TS which the module sends on the lane (R786). -/
  tsSeq : W16
  /-- Preset of the module's transmitter on the lane (R797). -/
  applied : BitVec 4
  /-- REQ which the module's receiver sends, 0xF none (R798). -/
  request : BitVec 4
  /-- Eye margins measured so far in the sweep, preset 0 first (R798). -/
  margins : List Nat
  /-- DONE (R798). -/
  done : Bool
  /-- MARK_SEQ and arrival in UI of the last LANE_MARK (R804). -/
  arrival : Option (W16 × Int)
  /-- DESKEWED of this side and of the far side. -/
  deskewed : Bool
  farDeskewed : Bool
  /-- Ticks of the block errors of the last 1 ms (R820). -/
  errors : List Tick
  /-- The fenced lane joins the port at its next PORT_TRAIN TRAIN (R835). -/
  rejoin : Bool
  deriving DecidableEq, Repr

/-- Why a width change which the module initiates takes place. -/
inductive WcCause where
  /-- A lane in use failed (R826). -/
  | failure
  /-- PORT_SET_WIDTH, by its outstanding command. -/
  | command (id : Nat)
  /-- UNIT_FENCE with MODE 0x00 of a lane in use, by its outstanding command (R832). -/
  | fence (id : Nat) (lane : LaneNo)
  deriving DecidableEq, Repr

/-- A WIDTH_CHANGE handshake under way (R825). -/
structure WidthChange where
  cause : WcCause
  mask : BitVec 4
  width : Nat
  seq : W16
  /-- REQ blocks sent (R830). -/
  tries : Nat
  /-- NAK has been received. -/
  refused : Bool
  /-- ACK has been received and SWITCH sent. -/
  acked : Bool
  /-- Tick at which the last REQ was sent, and at which the change began. -/
  sent : Tick
  began : Tick
  deriving DecidableEq, Repr

/-- An item in a replay buffer (R849): its number, its size there (R850) and its bytes. -/
structure Item where
  seq : W16
  bytes : List Byte
  /-- A frame, or a sequenced block. -/
  frame : Bool
  deriving DecidableEq, Repr

/-- Tick synchronisation on a port (R880 to R886). -/
structure Sync where
  /-- The module is the tick source. -/
  source : Bool
  /-- The outstanding TICK_SYNC and its tick of acceptance; none for a front end (19). -/
  cmd : Option Nat
  began : Tick
  /-- The last own measurement. -/
  a : Option Int
  /-- The last estimate of the offset (R883). -/
  theta : Int
  /-- Consecutive estimates within 2 ticks, and consecutive ones beyond. -/
  good : Nat
  bad : Nat
  /-- Tick of the last ECHO received. -/
  lastEcho : Tick
  /-- Synchronised (R886). -/
  synced : Bool
  deriving DecidableEq, Repr

/-- Suppression of LINK_VIOLATION records (R888): cause, tick of the last record, and violations since. -/
structure Violation where
  cause : BitVec 8
  last : Tick
  since : Nat
  deriving DecidableEq, Repr

/-- Credit counts of a CH in one direction (R858): LIMIT and CONSUMED. -/
structure Credit where
  limit : W16
  consumed : W16
  deriving DecidableEq, Repr

/-- One Poica port. -/
structure Port where
  st : PState
  /-- Disable reason (R800). -/
  reason : BitVec 8
  /-- ROLE and MAX_WIDTH of the last PORT_TRAIN (R801). -/
  role : BitVec 8
  maxWidth : Nat
  /-- The outstanding PORT_TRAIN. -/
  cmd : Option Nat
  /-- Tick at which the timer of the state expires (R801). -/
  due : Tick
  /-- Fragments of the far record: the last bytes per INDEX, the lane on which they first arrived, and
  whether a repetition has confirmed them (R814). -/
  frags : Vector (Option (BitVec 48 × LaneNo × Bool)) 16
  /-- The whole far record of the exchange under way (R815). -/
  incoming : Option (List Byte)
  /-- An ACCEPT of the own record has been received (R815). -/
  farAccepted : Bool
  /-- The partner's MAX_WIDTH and VERSION as noted on leaving DETECT (R801). -/
  noted : W16
  /-- The far record and the own record of the last NEGOTIATE (R807, R821). -/
  far : List Byte
  own : List Byte
  /-- Lanes in service and lanes in use (R819). -/
  lanes : BitVec 4
  inUse : BitVec 4
  /-- Step of RETRAIN under way (R821): 1, 2 or 3. -/
  retrainStep : Nat
  /-- MARK_SEQ of the next LANE_MARK (R788). -/
  markSeq : W16
  /-- Width change which the module initiated (R825). -/
  wc : Option WidthChange
  /-- Width change which the module answered with ACK: NEW_MASK and WC_SEQ (R825). -/
  farWc : Option (BitVec 4 × W16)
  /-- WC_SEQ of the next REQ. -/
  wcSeq : W16
  /-- PORT_SET_WIDTH which waits for the end of a narrowing (R831): command and WIDTH. -/
  widthCmd : Option (Nat × Nat)
  /-- PORT_STATUS counters (R382). -/
  retrains : W32
  crcErrors : W64
  replays : W64
  /-- Number of the next item sent (R845). -/
  txSeq : W16
  /-- The replay buffer, oldest item first (R849). -/
  replay : List Item
  /-- Tick at which the oldest item was last sent, and how often it was resent (R851, R854). -/
  oldestSent : Tick
  oldestResent : Nat
  /-- Expected number (R847). -/
  rxSeq : W16
  /-- Tick of the last NAK, while no further one is sent (R847). -/
  nakAt : Option Tick
  /-- Data blocks are discarded until the next IDLE (R843). -/
  skipping : Bool
  /-- CH of the last refresh CREDIT (R861). -/
  refreshed : Nat
  /-- CHs whose withdrawal is repeated, with their credits as received and those consumed since the last
  FRAME_MARK (R863). -/
  withdrawn : List (Nat × Credit × Nat)
  /-- Credits received for CHs which no channel is bound to (R858). -/
  farCredits : List (Nat × Credit)
  violations : List Violation
  /-- Credits of CH 4095, received and sent (R855). -/
  lockRx : Credit
  lockTx : Credit
  sync : Option Sync
  /-- The cage is switched off, since this tick (R1122). -/
  cageOff : Option Tick
  deriving DecidableEq, Repr

/-! ### Logical channels and channel-frames (08, 15, 19, 20) -/

/-- A route (R391): SLATE, PROG_ID and INPUT. -/
structure Route where
  slate : BitVec 8
  prog : Nat
  input : Nat
  deriving DecidableEq, Repr

/-- A CHAN_ROUTE or CHAN_UNBIND without completion (R393, R395). -/
structure PendingRoute where
  id : Nat
  route : Route
  unbind : Bool
  accepted : Tick
  /-- The channel has been switched to discard, and its unbinding waits for frame results (R297, R395). -/
  switched : Bool
  deriving DecidableEq, Repr

/-- An output configuration of SLATE_OUTPUT_CFG (R400). -/
structure SlateOut where
  /-- OUT_MASK: bit 0 raster, bit 1 coded record, bit 2 tensor. -/
  mask : BitVec 3
  density : Bool
  spectrogram : Bool
  rasterDiv : Nat
  slotsLog2 : Nat
  rasterHost : Nat
  rasterAddr : Nat
  codedAddr : Nat
  codedBytes : Nat
  tensorAddr : Nat
  deriving DecidableEq, Repr

/-- A pending setting notice (R870): its effective frame and SET. -/
structure Notice where
  effective : Nat
  set : Nat
  deriving DecidableEq, Repr

/-- The Slate part of an acquisition channel: its context and correction sets (20). -/
structure SlateCtx where
  /-- Context image, empty when none is loaded (R933). -/
  image : List Byte
  /-- Correction-set slots, empty when not loaded (R934). -/
  sets : Vector (List Byte) 16
  /-- Pending notices (R908). -/
  notices : List Notice
  /-- The set in force for the previous frame; none after SLATE_CONTEXT_LOAD (R905). -/
  inForce : Option Nat
  out : SlateOut
  /-- STRIPE in use and STRIPE which the next opening FRAME_MARK puts in use; 0 whole frames (R404). -/
  stripe : Nat
  stripeNext : Nat
  /-- The engine which holds the context (R890). -/
  engine : Option EngNo
  /-- Filter histories: last values of x0, x2 and x3, newest last (R896). -/
  hist0 : List W16
  hist2 : List W16
  hist3 : List W16
  /-- Counts the events after which the histories read zero: SLATE_CONTEXT_LOAD, and frames dropped under R895; and the
  count which the frame had whose samples the histories hold (R896, R399). -/
  gen : Nat
  histGen : Nat
  /-- Ring offset at which the next coded record starts (R917). -/
  codedPos : Nat
  /-- Number of rasters delivered, which gives the next host slot (R403). -/
  delivered : Nat
  /-- Event types sent in this PERIOD and the tick of each (R935). -/
  sentAt : List (W16 × Tick)
  /-- Part of its SYSTEM space was lost and not replaced (R1139). -/
  lostSpace : Bool
  deriving DecidableEq, Repr

/-- A wide copy which a send end holds (R948). -/
structure WideCopy where
  msgSeq : W32
  /-- The WIDE message. -/
  bytes : List Byte
  /-- Number of the closing FRAME_MARK of the narrow message once it is sent, and the tick at which it was
  acknowledged. -/
  markSeq : Option W16
  acked : Option Tick
  /-- WIDE_REQ has been received: the WIDE message is sent next. -/
  requested : Bool
  deriving DecidableEq, Repr

/-- A tensor which a producing channel-frame offered and which is not yet sent (R943, R949). -/
structure Offer where
  /-- Logical channel and FRAME_SEQ of the producing channel-frame. -/
  srcChan : Nat
  srcSeq : W64
  rows : Nat
  cols : Nat
  /-- Elements are posit32. -/
  wide32 : Bool
  /-- Window offset of the tensor, and bytes from row to row. -/
  addr : Nat
  stride : Nat
  deriving DecidableEq, Repr

/-- A message received on a KIND 0x01 channel and not yet acted on (R950, R951, R956, R957). -/
structure Answer where
  kind : BitVec 8
  msgSeq : W32
  bytes : List Byte
  /-- FRAME_SEQ of the frame which holds it. -/
  seq : Nat
  deriving DecidableEq, Repr

/-- What a channel end waits to send: the payload of a TENSOR frame, or a FRAME_MARK when it is empty, with
KIND and MSG_SEQ of the message (R938, R939). -/
structure QItem where
  payload : List Byte
  kind : BitVec 8
  msgSeq : W32
  deriving DecidableEq, Repr

/-- The narrow-transport end of a KIND 0x01 channel (21). -/
structure QEnd where
  /-- DIRECTION send. -/
  send : Bool
  k : Nat
  outliers : Nat
  outlierList : List Nat
  clipThreshold : Nat
  /-- hi and lo of the narrow messages since QLINK_CONFIG, newest first, as binary32 (R944, R947). -/
  history : List (W32 × W32)
  /-- MSG_SEQ of the next narrow message. -/
  msgSeq : W32
  /-- Narrow messages sent since binding, WIDE messages sent, and the clipped share of the latest narrow message sent
  (R970). -/
  sent : W64
  wideSent : W32
  sentShare : W32
  /-- Narrow messages received since binding, and the other counts which QLINK_STATS reports of them (R426, R970). -/
  narrow : W64
  overCount : W32
  wideCount : W32
  share : W32
  /-- Consecutive narrow messages over threshold, and CLIP_PERSISTENT has been sent (R972). -/
  overRun : Nat
  persistentSent : Bool
  copies : List WideCopy
  offers : List Offer
  answers : List Answer
  /-- A first FRAME_MARK has been sent since binding or the return to ACTIVE (R938). -/
  opened : Bool
  /-- LIMIT and CONSUMED as transmitter (R865). -/
  tx : Credit
  /-- Tick of the last SEND_DROPPED. -/
  droppedAt : Option Tick
  /-- Answers and messages which wait to be sent, in order (R951, R954). -/
  queue : List QItem
  /-- Part of the first message of the queue has been sent. -/
  midway : Bool
  /-- Credits which the message under way has consumed (R859). -/
  txUsed : Nat
  deriving DecidableEq, Repr

/-- A bound logical channel. -/
structure Chan where
  num : Nat
  port : PortNo
  stratum : FnNo
  partnerCh : Nat
  kind1 : Bool
  floor : Nat
  cap : Nat
  period : Nat
  route : Route
  pending : Option PendingRoute
  /-- FRAME_MARKs received since binding (FRAMES of R396). -/
  marks : Nat
  dropped : W64
  /-- Starvation since binding, and since its counter was cleared (R396, R1097). -/
  starved : W64
  starvedClr : W64
  /-- LAST_SEQ. -/
  lastSeq : W64
  /-- Highest FRAME_SEQ which has a result (R424). -/
  maxSeq : Option Nat
  /-- Payload belongs to no frame until the next FRAME_MARK (R867, R875), and it has been counted. -/
  noFrame : Bool
  strayCounted : Bool
  /-- LIMIT and CONSUMED as receiver (R858). -/
  rx : Credit
  /-- Credits which the open frame consumed (R859). -/
  used : Nat
  /-- Starved since, and POOL_STARVED has been sent (R705, R706). -/
  starvedSince : Option Tick
  /-- Starvation up to this tick has been added to the counts. -/
  starvedFrom : Tick
  starvedSent : Bool
  /-- Waiting for a grant since (R696). -/
  waitSince : Option Tick
  slate : SlateCtx
  q : QEnd
  deriving DecidableEq, Repr

/-- An entry of a tile log (R1001, R1003). -/
structure TileSig where
  position : Nat
  cluster : Nat
  uop : Nat
  sig : W64
  deriving DecidableEq, Repr

/-- How far a frame of a channel has come. -/
inductive FStage where
  /-- Its closing FRAME_MARK has not been accepted. -/
  | opened
  /-- Closed, and its conditioning has not ended (R922). -/
  | conditioning
  /-- Waits for its WIDE message (R955). -/
  | wide
  /-- Ready for its program since a tick (R631). -/
  | ready (tick : Tick)
  /-- Runs on a replica; it became ready at a tick (R1028). -/
  | running (tick : Tick)
  /-- Its result waits for room in its ring (R419). -/
  | result
  /-- Its result is written, and its items are not all forwarded (R996). -/
  | forwarding
  deriving DecidableEq, Repr

/-- A frame of a channel, from its opening FRAME_MARK until its result, its release or its drop. -/
structure Frame where
  chan : Nat
  /-- FRAME_SEQ. -/
  seq : Nat
  stage : FStage
  /-- Arrival of the opening FRAME_MARK, and TICK_MARK. -/
  openTick : Tick
  markTick : Tick
  payload : List Byte
  route : Route
  /-- Serial number of the launch which serves it (R415). -/
  launch : Option Nat
  /-- The reproducibility run in which it opened (R981). -/
  runNo : Option Nat
  /-- REPRO, RETRY_FRAME and MICA_COMPAT of the stratum, and its table and micro-program slots, at the
  opening FRAME_MARK (R296, R297). -/
  repro : Bool
  retry : Bool
  compat : Bool
  tables : Vector MicaTable 8
  mprogs : Vector (List Byte) 8
  /-- The channel's count of events which clear the histories, at the opening FRAME_MARK (R896, R399). -/
  gen : Nat
  /-- The Slate engine which conditions it (R890, R928). -/
  engine : Option EngNo
  /-- Set in force and its contents, context image, output areas and STRIPE (R905, R906, R929). -/
  set : Nat
  setImage : List Byte
  ctx : List Byte
  out : SlateOut
  stripe : Nat
  /-- Pieces of work which wait: first sample, end, and the tick since which they wait (R926). -/
  pieces : List (Nat × Nat × Tick)
  /-- Samples which are in pieces made so far, and samples conditioned. -/
  cut : Nat
  done : Nat
  /-- Values of x0, x2 and x3 computed so far, and the samples which took the 4-tap kernel. -/
  x0 : List W16
  x2 : List W16
  x3 : List W16
  kernel4 : Nat
  /-- RECORD_ADDR, and the host raster slot plus 1 of its delivery (R416). -/
  record : Nat
  raster : Nat
  /-- RETRIED (R1029). -/
  retried : Bool
  /-- Pair sequence (R992), while its launch is compared. -/
  pairSeq : Option Nat
  /-- Tile signatures of its drains so far (R997). -/
  sigs : List TileSig
  /-- The WIDE message (R955). -/
  wideMsg : List Byte
  deriving DecidableEq, Repr

/-- A piece of work which a Slate engine has taken (R927). It runs while the slot serves its stratum, and stands in the
engine's suspend store for that stratum in other slots (R507). -/
structure Piece where
  chan : Nat
  seq : Nat
  first : Nat
  last : Nat
  deriving DecidableEq, Repr

/-- A raster delivery job (R726). -/
structure Delivery where
  chan : Nat
  seq : Nat
  stratum : FnNo
  engine : EngNo
  /-- View address of the snapshot, and the host slot. -/
  src : Nat
  dst : Nat
  started : Bool
  deriving DecidableEq, Repr

/-! ### Reproducibility and lock-step (22) -/

/-- A stratum's reproducibility run (R978). -/
structure ReproRun where
  /-- The run under way, by its number. -/
  current : Option Nat
  /-- A run begins once the throttle and the installation have ended (R978). -/
  due : Bool
  /-- Number of the next run. -/
  next : Nat
  deriving DecidableEq, Repr

/-- A digest of a channel-frame (R998, R1003). -/
structure Digest where
  chan : Nat
  pairSeq : Nat
  flags : BitVec 8
  tiles : Nat
  digest : W64
  conditions : W32
  /-- This module's FRAME_SEQ and PROG_ID. -/
  frameSeq : W64
  prog : Nat
  deriving DecidableEq, Repr

/-- The first divergence (R1002, R1004). -/
structure Divergence where
  kind : BitVec 8
  pairSeq : W64
  chan : Nat
  position : Nat
  cluster : Nat
  peerCluster : Nat
  prog : Nat
  uop : Nat
  frameSeq : W64
  mine : W64
  peer : W64
  deriving DecidableEq, Repr

/-- State of a lock-step pair (R1004). -/
inductive PairState where
  | unpaired | pairing | paired | ended
  deriving DecidableEq, Repr

/-- A forwarded item on the secondary (R995, R1003): its channel, ITYPE, SBITS, ARG, payload, and the tick of
its arrival. -/
structure FwdItem where
  chan : Nat
  itype : BitVec 8
  sbits : Nat
  arg : BitVec 8
  bytes : List Byte
  tick : Tick
  deriving DecidableEq, Repr

/-- What LOCKSTEP_STATUS gives of a pair (R1004). -/
structure PairReport where
  st : PairState
  secondary : Bool
  forwarded : Bool
  endCause : BitVec 8
  comparedTiles : W64
  compared : W64
  skipped : W64
  divergent : W64
  first : Option Divergence
  deriving DecidableEq, Repr

/-- Lock-step (R991 to R1005). -/
structure Lock where
  st : PairState
  target : FnNo
  /-- ROLE secondary and INPUT forwarded (R451). -/
  secondary : Bool
  forwarded : Bool
  endCause : BitVec 8
  /-- The outstanding PAIR and its tick of acceptance. -/
  cmd : Option Nat
  began : Tick
  /-- The pair record received before this side's PAIR, and the tick of its receipt. -/
  peerRec : Option (Tick × List Byte)
  comparedTiles : W64
  compared : W64
  skipped : W64
  divergent : W64
  first : Option Divergence
  /-- Digests of this side and of the peer which are not compared. -/
  mine : List Digest
  peers : List Digest
  /-- Tile logs of uncompared channel-frames: channel, pair sequence and entries. -/
  logs : List (Nat × Nat × List TileSig)
  /-- Divergent channel-frames whose peer log has been requested, with the entries received. -/
  asked : List (Digest × List TileSig)
  /-- Divergent channel-frames, by channel and pair sequence, for whose log the peer has been answered. -/
  answered : List (Nat × Nat)
  /-- What LOCKSTEP_STATUS gives of pairs of other TARGETs which have ended (R1005). -/
  past : List (Nat × PairReport)
  /-- Granules taken for tile logs (R1000). -/
  granules : List Nat
  /-- Next pair sequence per channel and launch serial (R992). -/
  pairSeqs : List (Nat × Nat × Nat)
  /-- Forwarded items in the 64 KiB area, oldest first (R996). -/
  area : List FwdItem
  /-- Channels which take items again only from their next FRAME_MARK (R1005). -/
  rejoin : List Nat
  /-- Launches from this serial number on are compared (R992). -/
  since : Nat
  /-- LOCKSTEP payloads which wait to be sent, with the channel and frame whose item each forwards. -/
  sendq : List (Option (Nat × Nat) × List Byte)
  deriving DecidableEq, Repr

/-! ### Faults, storage and the panel (23, 24) -/

/-- A fault-log record less its CRC (R1034). -/
structure FaultRec where
  index : Nat
  cls : BitVec 8
  cause : BitVec 8
  unit : W16
  tick : Tick
  strata : W16
  action : BitVec 8
  logical : BitVec 8
  newUnit : W16
  boot : W32
  /-- DETAIL, offset 28 in its lowest bits. -/
  detail : BitVec 224
  deriving DecidableEq, Repr

/-- The fault log (R1034 to R1037, R1047, R1048). -/
structure FaultLog where
  /-- Records in flash with the slot each lies in, oldest first. -/
  recs : List (Nat × FaultRec)
  /-- Records held for the supply gate (R78). -/
  held : List FaultRec
  next : Nat
  /-- Slot of the next record. -/
  slot : Nat
  /-- BOOT: resets since manufacture. -/
  boots : W32
  deriving DecidableEq, Repr

/-- A FAULT_LOG_READ without completion (R439). -/
structure LogRead where
  id : Nat
  fn : FnNo
  first : Nat
  count : Nat
  addr : W64
  deriving DecidableEq, Repr

/-- A step of a flash operation (R75). -/
inductive NvStep where
  /-- Erase of the sector at a region offset. -/
  | erase (region : Nat) (off : Nat)
  /-- A page program. -/
  | program (region : Nat) (off : Nat) (bytes : List Byte)
  /-- The read, or the read-back, which ends in a completion or goes on. -/
  | read
  deriving DecidableEq, Repr

/-- A flash command accepted and without completion (R1046). -/
structure NvOp where
  id : Nat
  fn : FnNo
  qp : QpNo
  op : BitVec 8
  tag : W16
  region : Nat
  off : Nat
  len : Nat
  /-- BUF_ADDR or SRC_ADDR. -/
  addr : W64
  data : Option (List Byte)
  /-- The bytes which the range of an NV_WRITE held as the operation began (R465). -/
  old : List Byte
  started : Bool
  /-- Steps left, the one under way first. -/
  steps : List NvStep
  /-- SEQ of its journal entry, once it is written. -/
  entry : Option Nat
  /-- Paused under R76 or suspended under R79 since. -/
  paused : Option Tick
  /-- The sector erase which is the front step was suspended under way (R79, R1063). -/
  eraseCut : Bool
  deriving DecidableEq, Repr

/-- A journal entry (R1050). -/
structure JEntry where
  seq : Nat
  kind : BitVec 8
  done : BitVec 8
  opcode : BitVec 8
  region : BitVec 8
  tick : Tick
  offset : Nat
  len : Nat
  ref : Nat
  deriving DecidableEq, Repr

/-- A SYSTEM record (R1049). -/
structure SysRec where
  seq : Nat
  mapping : Vector (Option PhysNo) 64
  retired : List W16
  phaseEnd : Vector Tick 8
  deriving DecidableEq, Repr

/-- The flash (24). -/
structure Nv where
  /-- Bytes of IMAGE_A, IMAGE_B, CAL, PANEL_STORE, HOST and IDENTITY, at region code times 2^28 plus the
  offset; an unlisted byte is 0xFF. -/
  mem : Mem
  ops : List NvOp
  journal : List JEntry
  nextEntry : Nat
  system : List SysRec
  nextSystem : Nat
  /-- A SYSTEM record is held for the supply gate (R170). -/
  systemHeld : Bool
  /-- The staged mark (R1057). -/
  staged : Bool
  /-- KIND 0x03 journal entries whose sectors AON_CHECK scheduled for erasure (R148, R1063). -/
  reerase : List Nat
  deriving DecidableEq, Repr

/-- A PANEL_DRAW accepted and without completion (R449, R1071). -/
structure Draw where
  id : Nat
  fn : FnNo
  qp : QpNo
  tag : W16
  region : Nat
  bitmap : List Byte
  /-- The bitmap is in the composite image: the refresh under way, or the redraw which follows it, carries it. -/
  carried : Bool
  /-- Paused under R76 or stopped under R79 since. -/
  paused : Option Tick
  deriving DecidableEq, Repr

/-- A refresh under way (R1070). -/
structure Refresh where
  /-- SEQ of its journal entry, OPCODE and PANEL_STORE slot. -/
  entry : Nat
  opcode : BitVec 8
  slot : Nat
  /-- Waveform phases which have ended. -/
  phases : Nat
  /-- It is stopped at the next phase boundary (R79). -/
  stop : Bool
  /-- Host regions which it changes. -/
  regions : BitVec 10
  deriving DecidableEq, Repr

/-- The status panel (R1065 to R1079, R245). -/
structure Panel where
  /-- Pixels of rows 48 to 127, pixel 296 times (row - 48) plus column (R1067). -/
  pixels : BitVec 23680
  draws : List Draw
  refresh : Option Refresh
  count : W16
  pending : Bool
  glyph : Bool
  /-- PANEL_STORE slot of the last refresh. -/
  lastSlot : Nat
  /-- Tick of the first identity or strata strip change without refresh (R1073). -/
  changed : Option Tick
  /-- The 10 s of R1073 have passed without a refresh. -/
  due : Bool
  /-- Unresolved entry whose image the next refresh redraws (R1076, R1077). -/
  redraw : Option Nat
  /-- Host regions which changed since the last refresh. -/
  touched : BitVec 10
  deriving DecidableEq, Repr

/-! ### Temperature and telemetry (25) -/

/-- Sensors, the thermal cap and the TEMPERATURE block (R1080 to R1094). -/
structure Thermal where
  readings : Vector W16 83
  failed : BitVec 83
  /-- The last valid reading of each sensor. -/
  lastValid : Vector W16 83
  capped : Bool
  /-- The cap is in force for failed sensors (R1085). -/
  sensorCap : Bool
  cappedSince : Tick
  stepDue : Tick
  /-- Every sample since the start of the step timer had T_J at or above T_CAP. -/
  allHot : Bool
  releaseDue : Option Tick
  /-- THERMAL_WARN has been sent and not re-armed. -/
  warned : Bool
  /-- STATE bit 0 of R1094. -/
  warnBit : Bool
  /-- Samples in a row at or above T_SHUT (R1092). -/
  shut : Nat
  tjMax : W16
  capTicks : W64
  /-- CAP_TICKS has been counted up to this tick while CAPPED. -/
  capFrom : Tick
  capEntries : W32
  deriving DecidableEq, Repr

/-- Telemetry counters (R1095, R1096). -/
structure Telem where
  geodeCorrected : W64
  extCorrected : Vector W64 8
  poisoned : W64
  throttles : W64
  records : W64
  /-- The fourteen counters of each STRATUM block, in the order of R1096. -/
  strata : Vector (Vector W64 14) 16
  deriving DecidableEq, Repr

/-! ### Arbitration slots (10) -/

/-- A cause of TIMING_LAPSE (R511, R514): stratum, cause, UNIT and the tick of its beginning. -/
structure Lapse where
  stratum : FnNo
  cause : BitVec 8
  unit : W16
  since : Tick
  /-- It has ended, and TIMING_RESTORED follows at a round's start; ended ones stand in the order of
  their ends. -/
  ended : Bool
  deriving DecidableEq, Repr

/-- Memory and network slots (R499 to R514). -/
structure Slots where
  /-- Holder of each of the 64 slots, `none` for SHARED; and the table of the next round. -/
  table : Vector (Option FnNo) 64
  next : Vector (Option FnNo) 64
  /-- Strata whose ARBITRATION_SET follows at the next round. -/
  notices : List FnNo
  /-- Terms of STRATUM_SET_ARBITRATION which take effect at the next round, in order: stratum, ISOLATED and share (R343). -/
  terms : List (FnNo × Bool × Nat)
  lapses : List Lapse
  deriving DecidableEq, Repr

/-! ### Outputs -/

/-- What the module sends out, in order: the output log of the model. -/
inductive Emit where
  /-- The 32 bytes of a status reply written at `addr` in host memory by one write (R229, R266). -/
  | reply (fn : FnNo) (qp : QpNo) (addr : W64) (bytes : List Byte)
  /-- The 64 bytes of an event record written at `addr` by one write (R229, R299). -/
  | event (fn : FnNo) (addr : W64) (bytes : List Byte)
  /-- An MSI-X message (R241). -/
  | msix (fn : FnNo) (vector : Nat) (addr : W64) (data : W32)
  /-- Bytes written to host memory for a function's stratum, with the Relaxed Ordering attribute (R185). -/
  | hostWrite (fn : FnNo) (addr : W64) (bytes : List Byte) (relaxed : Bool)
  /-- The data of a host read of a register or of BAR2. -/
  | readData (fn : FnNo) (value : W64)
  /-- The data of a host read of BAR2. -/
  | bar2Data (fn : FnNo) (bytes : List Byte)
  /-- A memory request answered with Unsupported Request (R1142). -/
  | unsupported (fn : FnNo)
  /-- A configuration request answered with CRS, or completed, with the value which a read returns (R150). -/
  | configAnswer (fn : FnNo) (crs : Bool) (value : Option W64)
  /-- A control block of a port's striped stream, by its payload (R838). -/
  | block (port : PortNo) (payload : W64)
  /-- A link-layer frame, CRC included (R839). -/
  | frame (port : PortNo) (bytes : List Byte)
  /-- A block sent on one lane, so many times: TS, LANE_MARK, NEG and WIDTH_CHANGE (R785). -/
  | laneBlock (lane : LaneNo) (payload : W64) (count : Nat)
  /-- A data byte string answered on SMBus, or none for NACK (R1105). -/
  | smbus (data : Option (List Byte))
  /-- The register which a JTAG instruction places between TDI and TDO (R1125): its name's code and its
  captured value, `none` where the spec does not give the register's content. -/
  | jtag (instruction : BitVec 8) (value : Option W32)
  /-- A waveform phase drives the panel with an image (R1070). -/
  | panel (phase : Nat)
  deriving DecidableEq, Repr

/-! ### The state -/

/-- Everything the spec gives the module, the queue of waiting commands, and the model's own output log
and counters. -/
structure State where
  /-- The commands which wait, first in, first out. -/
  pending : List Instr
  /-- The output log. -/
  out : List Emit
  /-- The global tick (R108). -/
  tick : Tick
  /-- Counts of the tick which a follower still withholds (R884). -/
  withhold : Nat
  /-- Counter of free values drawn (the model's own). -/
  free : Nat
  /-- Next number for outstanding work (the model's own). -/
  nextId : Nat
  /-- Next number for launches (the model's own). -/
  nextLaunch : Nat
  /-- ORDER: true for the VK4820-M32, false for the VK4820-M16 (R2, R200). -/
  order32 : Bool
  /-- Host interface of each PCI Express function (05). -/
  fns : Vector Func 16
  /-- Long-running commands without completion, oldest first (R269). -/
  outst : List Outst
  /-- Strata (R326). -/
  strata : Vector Stratum 16
  /-- Geode memory and the pool (15). -/
  geo : Geode
  /-- External memory (17). -/
  ext : ExtMem
  /-- Command jobs of the copy engines (16). -/
  copies : List CopyJob
  /-- Raster delivery jobs (R726). -/
  deliveries : List Delivery
  /-- Supply monitor, source controller and hold-up bank (02). -/
  sup : Supply
  /-- Clock plans and caps (R58, R93). -/
  plans : Plans
  /-- Start-up, resets and fatal conditions (03, 04, 23). -/
  boot : Boot
  /-- Units which are fenced, retired or under test (R125). -/
  units : Units
  /-- The physical cluster of each logical cluster, `none` when it is not mapped (R167, R1022). -/
  mapping : Vector (Option PhysNo) 64
  /-- The physical cluster which last carried each logical cluster (R1016). -/
  lastPhys : Vector PhysNo 64
  /-- Logical clusters whose replacement waits: number, former physical cluster, and channel-frames ended and
  queued for retry (R1018, R1043). -/
  toReplace : List (LogNo × PhysNo × Nat × Nat)
  /-- Scratch memory of each physical cluster (R592). -/
  scratch : Vector Mem 72
  /-- Quire banks and operand slots of each physical cluster (12). -/
  clusters : Vector Cluster 72
  /-- EVENT_WAITs without completion (R423). -/
  waits : List EvWait
  /-- BARRIERs without completion (R421). -/
  barriers : List BarrierWait
  /-- Programs (R405). -/
  progs : List Prog
  /-- Launches of LAUNCH_AT_TICK which wait for their tick (R987). -/
  scheduled : List Scheduled
  /-- Mica table slots of each stratum (R663). -/
  tables : Vector (Vector MicaTable 8) 16
  /-- Micro-program slots of each stratum, as images (R672). -/
  mprogs : Vector (Vector (List Byte) 8) 16
  /-- TABLE_LOADs and MICROPROG_LOADs without completion (R411). -/
  tableLoads : List SlotLoad
  mprogLoads : List SlotLoad
  /-- Channel-frames which run (R593). -/
  runs : List Run
  /-- Poica ports (18, 19). -/
  ports : Vector Port 8
  /-- Poica lanes (18). -/
  lanes : Vector LaneSt 32
  /-- Bound logical channels, by rising number (R387). -/
  chans : List Chan
  /-- Frames of channels which are not at an end (19, 20). -/
  frames : List Frame
  /-- What each copy engine keeps for each stratum (R725, R734). -/
  stores : Vector (Vector EngStore 16) 4
  /-- The pieces of work which each Slate engine has taken, oldest first, and the channel whose context it holds
  (R507, R893, R927). -/
  pieces : Vector (List Piece) 4
  loaded : Vector (Option Nat) 4
  /-- Reproducibility runs of the strata (R978). -/
  repro : Vector ReproRun 16
  /-- Lock-step (R991). -/
  lock : Lock
  /-- The fault log (R1034). -/
  faults : FaultLog
  /-- FAULT_LOG_READs without completion, oldest first (R439). -/
  logReads : List LogRead
  /-- Flash (24). -/
  nv : Nv
  /-- The status panel (24). -/
  panel : Panel
  /-- Temperature (25). -/
  thermal : Thermal
  /-- Telemetry counters (25). -/
  telem : Telem
  /-- Arbitration slots (10). -/
  slots : Slots
  /-- A cluster remap which waits for its frame boundary: command, logical cluster and NEW (R437). -/
  remaps : List (Nat × LogNo × PhysNo)
  /-- The JTAG instruction in force (R1125). -/
  jtag : BitVec 8
  deriving DecidableEq, Repr

/-- Why a step can stop with a fault. No meaning of this model raises one: every condition which the
spec describes is an effect on the state (safe). -/
inductive Fault where
  /-- Raised by nobody (safe). -/
  | none
  deriving DecidableEq, Repr

/-- Why a step can be refused. -/
inductive Refusal where
  /-- The command has no meaning yet: raised by Dispatch for arms without one (safe). -/
  | notModelled (mnemonic : String)
  deriving DecidableEq, Repr

/-! ### Reset values -/

/-- A stratum which does not exist. -/
def Stratum.none : Stratum :=
  { live := false, destroying := false, destroyId := 0, sealed := false, repro := false,
    isolated := false, retry := false, compat := false, share := 0, panelGrant := 0, chanQuota := 0,
    clusters := 0, arenaQuota := 0, extQuota := 0, reserve := 0, ceiling := 0, created := 0, key := .none,
    arena := [], ext := [], aperture := 0, lastBank := 63 }

/-- Stratum 0, which always exists (R469), with the pool ceiling of R1149 and a key (R490). -/
def Stratum.zero : Stratum :=
  { Stratum.none with live := true, ceiling := 65536, key := some 0, aperture := 0x10000000000 }

/-- A unit in service. -/
def UnitSt.fresh : UnitSt :=
  { fenced := false, retired := false, draining := none, testing := [], passed := false, epoch := 0, own := 0,
    withCtrl := false }

/-- An operand slot which holds no tile (R552). -/
def OpSlot.empty : OpSlot := { state := .empty, users := 0, tile := [], rows := 0, cols := 0, esize := 0, code := false }

/-- A cluster whose quire banks read zero (R175, R489). -/
def Cluster.fresh : Cluster :=
  { bankA := [], bankB := [], wideA := false, wideB := false, codedA := false, codedB := false, west := Vector.replicate 8 OpSlot.empty,
    north := Vector.replicate 8 OpSlot.empty }

/-- A copy engine keeps nothing for a stratum (R740). -/
def EngStore.empty : EngStore := { delivery := true, staging := [] }

/-- No credit (R858). -/
def Credit.zero : Credit := { limit := 0, consumed := 0 }

/-- A lane which is not trained. -/
def LaneSt.idle : LaneSt :=
  { locked := false, inverted := false, seenTs := 0, seenCount := 0, farTs := none, tsSeq := 0,
    applied := 2, request := 0xF, margins := [], done := false, arrival := none, deskewed := false,
    farDeskewed := false, errors := [], rejoin := false }

/-- A DISABLED port with a reason (R800). -/
def Port.idle (reason : BitVec 8) : Port :=
  { st := .disabled, reason, role := 0, maxWidth := 0, cmd := none, due := 0,
    frags := Vector.replicate 16 none, incoming := none, farAccepted := false, noted := 0,
    far := [], own := [], lanes := 0, inUse := 0,
    retrainStep := 0, markSeq := 0, wc := none, farWc := none, wcSeq := 1, widthCmd := none, retrains := 0,
    crcErrors := 0, replays := 0, txSeq := 0, replay := [], oldestSent := 0, oldestResent := 0, rxSeq := 0,
    nakAt := none, skipping := false, refreshed := 0, withdrawn := [], farCredits := [], violations := [],
    lockRx := Credit.zero, lockTx := Credit.zero, sync := none, cageOff := none }

/-- No output (R400). -/
def SlateOut.none : SlateOut :=
  { mask := 0, density := false, spectrogram := false, rasterDiv := 0, slotsLog2 := 0, rasterHost := 0,
    rasterAddr := 0, codedAddr := 0, codedBytes := 0, tensorAddr := 0 }

/-- The Slate part of a channel at CHAN_BIND (R891). -/
def SlateCtx.empty : SlateCtx :=
  { image := [], sets := Vector.replicate 16 [], notices := [], inForce := none, out := SlateOut.none,
    stripe := 0, stripeNext := 0, engine := none, hist0 := [], hist2 := [], hist3 := [], gen := 0, histGen := 0, codedPos := 0,
    delivered := 0, sentAt := [], lostSpace := false }

/-- The narrow-transport end at CHAN_BIND (R937). -/
def QEnd.initial : QEnd :=
  { send := false, k := 4, outliers := 0, outlierList := [], clipThreshold := 16384, history := [],
    msgSeq := 0, narrow := 0, overCount := 0, wideCount := 0, share := 0, sent := 0, wideSent := 0, sentShare := 0, overRun := 0,
    persistentSent := false, copies := [], offers := [], answers := [], opened := false, tx := Credit.zero,
    droppedAt := none, queue := [], midway := false, txUsed := 0 }

/-- No pair (R1004). (Log entry 11 DESIGN CHOICE.) -/
def Lock.none : Lock :=
  { st := .unpaired, target := 0, secondary := false, forwarded := false, endCause := 0, cmd := .none,
    began := 0, peerRec := .none, comparedTiles := 0, compared := 0, skipped := 0, divergent := 0,
    first := .none, mine := [], peers := [], logs := [], asked := [], answered := [], past := [], granules := [], pairSeqs := [],
    area := [], rejoin := [], since := 0, sendq := [] }

/-- Sensors which have not completed a first sample (R1081), and a cap which is not in force.
(Log entries 11 DESIGN CHOICE, 85 DEDUCED.) -/
def Thermal.reset : Thermal :=
  { readings := Vector.replicate 83 0x8000, failed := 0, lastValid := Vector.replicate 83 0x8000,
    capped := false, sensorCap := false, cappedSince := 0, stepDue := 0, allHot := false,
    releaseDue := none, warned := false, warnBit := false, shut := 0, tjMax := 0x8000, capTicks := 0, capFrom := 0,
    capEntries := 0 }

/-- Counters at zero (R1102). (Log entry 11 DESIGN CHOICE.) -/
def Telem.zero : Telem :=
  { geodeCorrected := 0, extCorrected := Vector.replicate 8 0, poisoned := 0, throttles := 0, records := 0,
    strata := Vector.replicate 16 (Vector.replicate 14 0) }

/-- Every slot SHARED. (Log entry 11 DESIGN CHOICE.) -/
def Slots.shared : Slots :=
  { table := Vector.replicate 64 none, next := Vector.replicate 64 none, notices := [], terms := [],
    lapses := [] }

/-- The flash as the model takes it at the first power-on: erased (a log entry says so).
(Log entries 11 DESIGN CHOICE, 13 DESIGN CHOICE.) -/
def Nv.erased : Nv :=
  { mem := [], ops := [], journal := [], nextEntry := 0, system := [], nextSystem := 0,
    systemHeld := false, staged := false, reerase := [] }

/-- A white panel, no refresh under way. (Log entry 11 DESIGN CHOICE.) -/
def Panel.white : Panel :=
  { pixels := 0, draws := [], refresh := none, count := 0, pending := false, glyph := false, lastSlot := 1,
    changed := none, due := false, redraw := none, touched := 0 }

/-- The fault log after the first power-on: the record of the reset's cause (R124) waits for the supply gate.
(Log entry 11 DESIGN CHOICE.) -/
def FaultLog.first : FaultLog :=
  let r : FaultRec :=
    { index := 0, cls := 5, cause := 4, unit := 0xFFFF, tick := 0, strata := 0, action := 0, logical := 0xFF,
      newUnit := 0xFFFF, boot := 1, detail := 0 }
  { recs := [], held := [r], next := 1, slot := 0, boots := 1 }

/-- Geode memory which reads zero and is free (R160). (Log entry 22 DESIGN CHOICE.) -/
def Geode.fresh : Geode :=
  { mem := [], marks := [], poolGranules := [], bufs := [], lastSystem := 63, lastPool := 63,
    shortSince := none, shortTold := [] }

/-- External memory with every channel in the interleave and no allocation.
(Log entries 21 DESIGN CHOICE, 52 DEDUCED.) -/
def ExtMem.fresh : ExtMem :=
  { mem := [], order := [0, 4, 1, 5, 2, 6, 3, 7], poisoned := [], events := [], toldAt := Vector.replicate 8 none
    fixedRefresh := false, reinit := false }

/-- The supply state on entry to STANDBY from OFF with VIN_MAIN at 12 V and VIN_AUX at 0 V.
(Log entry 12 DESIGN CHOICE.) -/
def Supply.standby : Supply :=
  { power := .standby, vinMain := 1200, vinAux := 0, mainLow := false, auxLow := true, mainQual := false,
    onAux := false, switching := none, sag := none, throttle := false, cap70 := false, switched := false,
    charge := 0, holdupFault := false, monitorFailed := false, holdupTick := 0, shown := 0 }

/-- R113, R175: caps and plan after a reset. (Log entry 11 DESIGN CHOICE.) -/
def Plans.reset : Plans :=
  { hostCap := 175, thermalCap := none, selected := 1, inForce := 1, installing := none,
    capNotice := false, capMoved := false, cmds := [] }

/-- Start-up at the reset's end (R140). (Log entries 11 DESIGN CHOICE, 12 DESIGN CHOICE.) -/
def Boot.start : Boot :=
  { phase := phSupervisorBoot, fail := 0, degraded := false, resetCause := 0, image := 0xFF,
    abandonedA := false, abandonedB := false, rounds := 0, lpddrDone := false,
    perst := true, linkL0 := false, d3hot := false, vfEnable := false, numVfs := 0, modResetLow := false,
    testEn := false, resetPending := false, pendingCause := 0, inReset := false, phaseEnd := Vector.replicate 8 0,
    fatal := false, fatalLog := Vector.replicate 8 0, poicaLost := false, pllOut := [] }

/-- Every unit in service. -/
def Units.fresh : Units :=
  { clusters := Vector.replicate 72 UnitSt.fresh, banks := Vector.replicate 64 UnitSt.fresh,
    slates := Vector.replicate 4 UnitSt.fresh, copies := Vector.replicate 4 UnitSt.fresh,
    ports := Vector.replicate 8 UnitSt.fresh, lanes := Vector.replicate 32 UnitSt.fresh,
    exts := Vector.replicate 8 UnitSt.fresh, ctrls := Vector.replicate 2 UnitSt.fresh,
    segs := Vector.replicate 8 UnitSt.fresh }

/-- The module right after a power-on reset (R15, R112): on entry to STANDBY from OFF.
(Log entries 11 DESIGN CHOICE, 12 DESIGN CHOICE, 127 PRESUMED.) -/
def State.reset : State :=
  { pending := [], out := [], tick := 0, withhold := 0, free := 1, nextId := 1, nextLaunch := 1,
    order32 := true, fns := Vector.ofFn Func.reset, outst := [],
    strata := (Vector.replicate 16 Stratum.none).set 0 Stratum.zero, geo := Geode.fresh,
    ext := ExtMem.fresh, copies := [], deliveries := [], sup := Supply.standby, plans := Plans.reset,
    boot := Boot.start, units := Units.fresh, mapping := Vector.replicate 64 none,
    lastPhys := Vector.ofFn fun l => Fin.ofNat 72 (9 * (l.val / 8) + l.val % 8), toReplace := [],
    scratch := Vector.replicate 72 [], clusters := Vector.replicate 72 Cluster.fresh, waits := [],
    barriers := [], progs := [], scheduled := [],
    tables := Vector.replicate 16 (Vector.replicate 8 { image := [], monotone := false }),
    mprogs := Vector.replicate 16 (Vector.replicate 8 []), tableLoads := [], mprogLoads := [], runs := [],
    ports := Vector.replicate 8 (Port.idle 1), lanes := Vector.replicate 32 LaneSt.idle, chans := [],
    frames := [], stores := Vector.replicate 4 (Vector.replicate 16 EngStore.empty),
    pieces := Vector.replicate 4 [], loaded := Vector.replicate 4 none,
    repro := Vector.replicate 16 { current := none, due := false, next := 0 }, lock := Lock.none,
    faults := FaultLog.first, logReads := [], nv := Nv.erased, panel := Panel.white, thermal := Thermal.reset,
    telem := Telem.zero, slots := Slots.shared, remaps := [], jtag := 1 }

end Sys2Proof.Machine
end

