-- ==== Sys2Proof/Machine/Ops.lean ====
section
/-!
DEFINITION. The named operations which the meanings share: sparse tables, vectors of units, the output
log, interrupt causes and MSI-X messages, event records, and status replies.
-/

namespace Sys2Proof.Machine

/-! ### Sparse tables: (key, value) pairs by rising key -/

/-- The entry of a key. -/
def spGet {α : Type} (t : List (Nat × α)) (k : Nat) : Option α :=
  match t with
  | [] => none
  | e :: r => if e.1 = k then some e.2 else spGet r k

/-- The table with an entry set. -/
def spPut {α : Type} (t : List (Nat × α)) (k : Nat) (v : α) : List (Nat × α) :=
  match t with
  | [] => [(k, v)]
  | e :: r => if k < e.1 then (k, v) :: e :: r else if e.1 = k then (k, v) :: r else e :: spPut r k v

/-- The table without a key. -/
def spDel {α : Type} (t : List (Nat × α)) (k : Nat) : List (Nat × α) :=
  t.filter fun e => e.1 ≠ k

/-! ### Sparse byte memories, where an unlisted address reads `d` -/

/-- The byte at an address. (Log entry 22 DESIGN CHOICE.) -/
def memRead (d : Byte) (m : Mem) (a : Nat) : Byte := (spGet m a).getD d

/-- The memory after a byte is written. (Log entry 22 DESIGN CHOICE.) -/
def memWrite (d : Byte) (m : Mem) (a : Nat) (v : Byte) : Mem :=
  if v = d then spDel m a else spPut m a v

/-- The memory after bytes are written from an address upward. -/
def memWriteList (d : Byte) (m : Mem) (a : Nat) : List Byte → Mem
  | [] => m
  | v :: r => memWriteList d (memWrite d m a v) (a + 1) r

/-- The memory with `n` bytes from an address upward returned to what an unlisted address reads as.
(Log entry 22 DESIGN CHOICE.) -/
def memClear (m : Mem) (a n : Nat) : Mem := m.filter fun c => ¬ (a ≤ c.1 ∧ c.1 < a + n)

/-- Keys rise strictly. -/
def spSorted {α : Type} : List (Nat × α) → Bool
  | [] => true
  | e :: r => (match r with | [] => true | f :: _ => decide (e.1 < f.1)) && spSorted r

/-- The canonical form of a memory whose unlisted addresses read `d`. (Log entry 22 DESIGN CHOICE.) -/
def memWf (d : Byte) (m : Mem) : Bool := spSorted m && m.all fun c => decide (c.2 ≠ d)

/-- The canonical form of every memory of a state: Geode and scratch memory list no zero byte, flash lists no 0xFF byte,
and external memory, whose unlisted bytes are undefined, lists its bytes by rising offset.
(Log entry 22 DESIGN CHOICE.) -/
abbrev Memory.wf (s : State) : Prop :=
  memWf 0 s.geo.mem = true ∧ spSorted s.ext.mem = true ∧ (∀ c : PhysNo, memWf 0 s.scratch[c] = true) ∧
    memWf 0xFF s.nv.mem = true

/-! ### Bytes and words (R8) -/

/-- The `n` low bytes of a number, lowest first. -/
def leBytes (n v : Nat) : List Byte := (List.range n).map fun i => BitVec.ofNat 8 (v / 256 ^ i)

/-- The number which bytes spell, lowest first. -/
def leNat : List Byte → Nat
  | [] => 0
  | b :: r => b.toNat + 256 * leNat r

/-- Little-endian field of `n` bytes at offset `o` of a byte string (zero past its end). -/
def fieldNat (bs : List Byte) (o n : Nat) : Nat :=
  leNat ((List.range n).map fun i => (bs[o + i]?).getD 0)

/-! ### Vectors of units -/

/-- The vector with one element changed. -/
def vmod {α : Type} {n : Nat} (v : Vector α n) (i : Fin n) (f : α → α) : Vector α n :=
  v.set i.val (f v[i]) i.isLt

/-- The state with one function changed. -/
def State.modFn (s : State) (fn : FnNo) (f : Func → Func) : State := { s with fns := vmod s.fns fn f }

/-- The state with one queue pair changed. -/
def State.modQp (s : State) (fn : FnNo) (qp : QpNo) (f : QPair → QPair) : State :=
  s.modFn fn fun g => { g with qps := vmod g.qps qp f }

/-- The state with one event queue changed. -/
def State.modEvq (s : State) (fn : FnNo) (f : Evq → Evq) : State :=
  s.modFn fn fun g => { g with evq := f g.evq }

/-- The state with one stratum changed. -/
def State.modStratum (s : State) (n : FnNo) (f : Stratum → Stratum) : State :=
  { s with strata := vmod s.strata n f }

/-- The state with what a copy engine keeps for a stratum changed. -/
def State.modStore (s : State) (e : EngNo) (n : FnNo) (f : EngStore → EngStore) : State :=
  { s with stores := vmod s.stores e fun v => vmod v n f }

/-- An output which travels over the PCIe link. (Log entries 5 DESIGN CHOICE, 6 DEDUCED.) -/
def Emit.overPcie : Emit → Bool
  | .reply .. => true | .event .. => true | .msix .. => true | .hostWrite .. => true | .readData .. => true
  | .bar2Data .. => true | .unsupported .. => true | .configAnswer .. => true
  | _ => false

/-- The state with one more output. What is to travel over the PCIe link while it is down reaches nobody (R82, R116).
(Log entries 5 DESIGN CHOICE, 6 DEDUCED.) -/
def State.emit (s : State) (e : Emit) : State :=
  if e.overPcie && !s.boot.linkL0 then s else { s with out := s.out ++ [e] }

/-- Applies a change for each element of a list, in order. -/
def State.forEach {α : Type} (s : State) (l : List α) (f : α → State → State) : State :=
  l.foldl (fun t a => f a t) s

/-- The next free-value number, and the state which has drawn it. (Log entry 15 DESIGN CHOICE.) -/
def State.draw (s : State) : Nat × State := (s.free, { s with free := s.free + 1 })

/-! ### MSI-X messages and cause bits (R241, R244) -/

/-- A message of a vector is sent, or held in the pending bit array while it is masked (R244) or Bus
Master Enable is 0 (R1144). (Log entries 10 PRESUMED, 133 DESIGN CHOICE.) -/
def State.sendMsix (s : State) (fn : FnNo) (v : Fin 64) : State :=
  let f := s.fns[fn]
  let e := f.msix[v]
  if f.busMaster && !f.functionMask && !e.masked then s.emit (.msix fn v.val e.addr e.data)
  else s.modFn fn fun g => { g with pba := g.pba ||| (1#64 <<< v.val) }

/-- The messages which the pending bit array holds and nothing masks any longer are sent. -/
def State.releaseMsix (s : State) (fn : FnNo) : State :=
  s.forEach (List.finRange 64) fun v t =>
    let f := t.fns[fn]
    let e := f.msix[v]
    if f.pba.getLsbD v.val && f.busMaster && !f.functionMask && !e.masked then
      (t.modFn fn fun g => { g with pba := g.pba &&& ~~~(1#64 <<< v.val) }).emit
        (.msix fn v.val e.addr e.data)
    else t

/-- The vectors on which a bit of `cause AND NOT mask` changes from 0 to 1 (R240, R241). -/
def riseVectors (before after : BitVec 12) : List (Fin 64) :=
  (List.finRange 64).filter fun v => (List.finRange 12).any fun b =>
    decide (causeVector b = v.val) && after.getLsbD b.val && !before.getLsbD b.val

/-- Cause and mask of a function change, and the messages of R241 follow. (Log entry 133 DESIGN CHOICE.) -/
def State.setCause (s : State) (fn : FnNo) (cause mask : BitVec 12) : State :=
  let f := s.fns[fn]
  (s.modFn fn fun g => { g with intCause := cause, intMask := mask }).forEach
    (riseVectors (f.intCause &&& ~~~f.intMask) (cause &&& ~~~mask)) fun v t => t.sendMsix fn v

/-- R240: cause bits of a function become 1. -/
def State.raise (s : State) (fn : FnNo) (bits : BitVec 12) : State :=
  s.setCause fn (s.fns[fn].intCause ||| (bits &&& causeValid fn)) s.fns[fn].intMask

/-- Cause bits of every function become 1. -/
def State.raiseAll (s : State) (bits : BitVec 12) : State :=
  s.forEach (List.finRange 16) fun fn t => t.raise fn bits

/-! ### Event records (R232 to R235, R299, R300) -/

/-- Entries of a ring of 2^log2 entries. -/
def ringSize (log2 : BitVec 4) : Nat := 2 ^ log2.toNat

/-- R224, R232, R233: the record at the head of the held records can be written now. A completion record
uses its reservation. -/
def Evq.writable (e : Evq) (r : EvRec) : Bool :=
  e.running && decide (e.unreleased + (if r.completion && e.reserved != 0 then 0 else e.reserved)
    < ringSize e.log2 - 1)

/-- The ring position and phase after one entry is written (R226). -/
def ringNext (log2 : BitVec 4) (pos : BitVec 12) (phase : Bool) : BitVec 12 × Bool :=
  if pos.toNat + 1 < ringSize log2 then (pos + 1, phase) else (0, !phase)

/-- R299: the 64 bytes of an event record of a function's event queue. -/
def EvRec.bytes (r : EvRec) (fn : FnNo) (phase : Bool) : List Byte :=
  [if r.completion then 1 else 2, if phase then 1 else 0] ++ leBytes 2 r.tag.toNat ++ leBytes 2 r.evType.toNat ++
    leBytes 2 r.status.toNat ++ [r.queue, BitVec.ofNat 8 fn.val] ++ leBytes 2 r.detail.toNat ++ leBytes 4 r.seq.toNat ++
    leBytes 8 r.tick.toNat ++ leBytes 8 r.r0.toNat ++ leBytes 8 r.r1.toNat ++ leBytes 24 r.data.toNat

/-- One record is written into the event queue, and EVQ is set (R228, R229, R240). -/
def State.writeRec (s : State) (fn : FnNo) (r : EvRec) : State :=
  let e := s.fns[fn].evq
  let nx := ringNext e.log2 e.pos e.phase
  ((s.modEvq fn fun q => { q with
      pos := nx.1, phase := nx.2, unreleased := q.unreleased + 1,
      reserved := if r.completion then q.reserved - 1 else q.reserved }).emit
    (.event fn (e.base + 64 * e.pos.setWidth 64) (r.bytes fn e.phase))).raise fn causeEvq

/-- Held records are written in the order in which they arose, while they can be (R235). (Log entry 9 DEDUCED.) -/
def State.writeHeld (s : State) (fn : FnNo) : List EvRec → State
  | [] => s.modEvq fn fun q => { q with held := [] }
  | r :: rs =>
    if s.fns[fn].busMaster && !s.boot.fatal && s.fns[fn].evq.writable r then (s.writeRec fn r).writeHeld fn rs
    else s.modEvq fn fun q => { q with held := r :: rs }

/-- R235: held records are written as soon as entries are free and RUNNING is 1. (Log entry 9 DEDUCED.) -/
def State.flushEvq (s : State) (fn : FnNo) : State := s.writeHeld fn s.fns[fn].evq.held

/-- The list without its first occurrence record (R233). -/
def dropOldestOccurrence : List EvRec → List EvRec
  | [] => []
  | r :: rs => if r.completion then r :: dropOldestOccurrence rs else rs

/-- R233, R234, R177: beyond 32 held occurrence records the oldest is overwritten, and counted.
(Log entry 9 DEDUCED.) -/
def State.trimHeld (s : State) (fn : FnNo) : State :=
  let e := s.fns[fn].evq
  if 32 < (e.held.filter fun r => !r.completion).length then
    (s.modFn fn fun g => { g with
      evq := { e with held := dropOldestOccurrence e.held }
      evqLost := g.evqLost + 1
      heldLost := if fn.val = 0 && !e.everRan then g.heldLost + 1 else g.heldLost }).raise fn causeEvqLost
  else s

/-- R423: an occurrence record which is queued meets the EVENT_WAITs which wait for its type. -/
def State.hitWaits (s : State) (fn : FnNo) (r : EvRec) : State :=
  let hit := fun (w : EvWait) =>
    if !r.completion && w.stratum == fn && w.kind == 3 && w.evType == r.evType then { w with hit := true }
    else w
  { s with waits := s.waits.map hit }

/-- A record arises for a function: it is numbered (R300) and written, or held (R233).
(Log entries 9 DEDUCED, 14 DESIGN CHOICE.) -/
def State.sendRec (s : State) (fn : FnNo) (r : EvRec) : State :=
  (((s.hitWaits fn r).modEvq fn fun q => { q with
      held := q.held ++ [{ r with seq := q.seq }], seq := q.seq + 1 }).flushEvq fn).trimHeld fn

/-- R299: an occurrence record of a stratum, with the tick at which its condition arose. -/
def State.occurAt (s : State) (n : FnNo) (evType : W16) (tick : Tick) (r0 r1 : W64)
    (data : BitVec 192) : State :=
  s.sendRec n { completion := false, tag := 0, evType, status := 0, queue := 0xFF, detail := 0, seq := 0,
                tick, r0, r1, data }

/-- An occurrence record whose condition arises now, with DATA zero. -/
def State.occur (s : State) (n : FnNo) (evType : W16) (r0 r1 : W64) : State :=
  s.occurAt n evType s.tick r0 r1 0

/-- An occurrence record for each stratum of a list. -/
def State.occurAll (s : State) (l : List FnNo) (evType : W16) (r0 r1 : W64) : State :=
  s.forEach l fun n t => t.occur n evType r0 r1

/-- The existing strata, those being destroyed left out. -/
def State.liveStrata (s : State) : List FnNo :=
  (List.finRange 16).filter fun n => s.strata[n].live && !s.strata[n].destroying

/-- R269, R285: a long-running command receives its completion record. A status other than ST_OK fails
its chain. From this moment it counts as completed (R305, FENCE_BEFORE, CHAIN), also while the record is held under R233.
(Log entry 144 DESIGN CHOICE.) -/
def State.complete (s : State) (id : Nat) (status detail : W16) (r0 r1 : W64) (data : BitVec 192) :
    State :=
  match s.outst.find? fun o => o.id = id with
  | none => s
  | some o =>
    let s := { s with outst := s.outst.filter fun p => p.id ≠ id }
    let s := if o.chain && status != stOk then
        s.modQp o.fn o.qp fun q => { q with chainFailed := some o.tag } else s
    s.sendRec o.fn { completion := true, tag := o.tag, evType := o.op.setWidth 16, status,
                     queue := BitVec.ofNat 8 o.qp.val, detail, seq := 0, tick := s.tick, r0, r1, data }

/-- A completion with ST_OK. -/
def State.completeOk (s : State) (id : Nat) (r0 r1 : W64) : State := s.complete id stOk 0 r0 r1 0

/-- R464: DATA of ST_TARGET_RESET: bytes 40-41 the unit, byte 42 the cause. -/
def dataTargetReset (unit : W16) (cause : BitVec 8) : BitVec 192 :=
  unit.setWidth 192 ||| (cause.setWidth 192 <<< 16)

/-! ### Status replies (R227, R229, R266) -/

/-- R227, R266: the 32 bytes of a status reply. -/
def Reply.bytes (r : Reply) : List Byte :=
  [r.op, (if r.phase then 1 else 0) ||| (if r.notified then 2 else 0) ||| (if r.chain then 4 else 0)] ++
    leBytes 2 r.tag.toNat ++ leBytes 2 r.status.toNat ++ leBytes 2 r.detail.toNat ++ leBytes 8 r.r0.toNat ++
    leBytes 8 r.r1.toNat ++ leBytes 8 r.tick.toNat

/-- A status reply is written into the completion queue; NOTIFY sets the cause bit (R231, R240).
(Log entry 14 DESIGN CHOICE.) -/
def State.writeReply (s : State) (fn : FnNo) (qp : QpNo) (op flags : BitVec 8) (tag status detail : W16) (r0 r1 : W64) :
    State :=
  let q := s.fns[fn].qps[qp]
  let nx := ringNext q.cqLog2 q.cqPos q.cqPhase
  let notify := flags.getLsbD 6
  let t := (s.modQp fn qp fun x => { x with
      cqPos := nx.1, cqPhase := nx.2, cqUnreleased := x.cqUnreleased + 1 }).emit
    (.reply fn qp (q.cqBase + 32 * q.cqPos.setWidth 64)
      (Reply.bytes { op, phase := q.cqPhase, notified := notify, chain := flags.getLsbD 5, tag, status,
                     detail, r0, r1, tick := s.tick }))
  if notify then t.raise fn (causeCq qp) else t

/-- A write for a function waits for its Bus Master Enable (R1144). -/
def State.postpone (s : State) (fn : FnNo) (w : Unsent) : State := s.modFn fn fun g => { g with unsent := g.unsent ++ [w] }

/-- A command is answered: its status reply is written, or waits for Bus Master Enable (R1144).
(Log entry 14 DESIGN CHOICE.) -/
def State.reply (s : State) (fn : FnNo) (qp : QpNo) (op : BitVec 8) (p : Packet)
    (status detail : W16) (r0 r1 : W64) : State :=
  if s.fns[fn].busMaster then s.writeReply fn qp op p.flags p.tag status detail r0 r1
  else s.postpone fn (.reply qp op p.flags p.tag status detail r0 r1)

/-- Bytes are written to host memory for a function, or wait for Bus Master Enable (R1144). -/
def State.hostWrite (s : State) (fn : FnNo) (addr : W64) (bytes : List Byte) : State :=
  if s.fns[fn].busMaster then s.emit (.hostWrite fn addr bytes false) else s.postpone fn (.bytes addr bytes)

/-- Bulk data is written to host memory, with Relaxed Ordering where the function enables it (R185); what writes bulk data
is paused while Bus Master Enable is 0. (Log entry 135 DESIGN CHOICE.) -/
def State.bulkWrite (s : State) (fn : FnNo) (addr : W64) (bytes : List Byte) : State :=
  s.emit (.hostWrite fn addr bytes s.fns[fn].relaxed)

/-- R1144: a write which waited is made. -/
def State.sendNow (s : State) (fn : FnNo) : Unsent → State
  | .bytes a bs => s.emit (.hostWrite fn a bs false)
  | .reply qp op flags tag status detail r0 r1 => s.writeReply fn qp op flags tag status detail r0 r1

/-- R1144: what waited for Bus Master Enable is written, oldest first. -/
def State.sendUnsent (s : State) (fn : FnNo) : State :=
  let l := s.fns[fn].unsent
  (s.modFn fn fun g => { g with unsent := [] }).forEach l fun w t => t.sendNow fn w

/-- A status reply of a queue pair waits for Bus Master Enable. -/
def Func.replyWaits (f : Func) (qp : QpNo) : Bool :=
  f.unsent.any fun w => match w with
    | .reply q .. => q == qp
    | .bytes .. => false

/-! ### Time (R108, R109, R884) -/

/-- The module is powered, so its tick counter counts (R108). -/
def State.powered (s : State) : Bool := s.sup.power != .off

/-- One period of the tick clock passes. While a follower withholds counts, the tick advances only on every
second period (R884): `withhold` counts the periods left in which two periods make one count.
(Log entries 1 DESIGN CHOICE, 64 DEDUCED.) -/
def idle (s : State) : State :=
  if !s.powered then s
  else if s.withhold % 2 = 1 then { s with tick := s.tick + 1, withhold := s.withhold - 1 }
  else if s.withhold ≠ 0 then { s with withhold := s.withhold - 1 }
  else { s with tick := s.tick + 1 }

/-- The tick is brought to an instant which has been reached; it never decreases (R109).
(Log entries 1 DESIGN CHOICE, 14 DESIGN CHOICE, 132 DESIGN CHOICE.) -/
def State.reach (s : State) (t : Tick) : State := if s.tick < t then { s with tick := t } else s

end Sys2Proof.Machine
end

