-- ==== Sys2Proof/Machine/Crc.lean ====
section
/-!
DEFINITION. The checks of the spec: CRC-32C and CRC-64/ECMA-182 (R374) and the CRC-8 of control blocks
(R837).
-/

namespace Sys2Proof.Machine

/-- One bit of the reflected CRC-32C. -/
def crc32cBit (c : W32) : W32 := if c.getLsbD 0 then (c >>> 1) ^^^ 0x82F63B78 else c >>> 1

/-- One byte of CRC-32C. -/
def crc32cByte (c : W32) (b : Byte) : W32 :=
  (List.range 8).foldl (fun x _ => crc32cBit x) (c ^^^ b.setWidth 32)

/-- R374: CRC-32C of a byte string. -/
def crc32c (bs : List Byte) : W32 := ~~~(bs.foldl crc32cByte 0xFFFFFFFF)

/-- One bit of CRC-64/ECMA-182. -/
def crc64Bit (c : W64) : W64 := if c.getLsbD 63 then (c <<< 1) ^^^ 0x42F0E1EBA9EA3693 else c <<< 1

/-- One byte of CRC-64/ECMA-182. -/
def crc64Byte (c : W64) (b : Byte) : W64 :=
  (List.range 8).foldl (fun x _ => crc64Bit x) (c ^^^ (b.setWidth 64 <<< 56))

/-- R374: CRC-64/ECMA-182 of a byte string. -/
def crc64 (bs : List Byte) : W64 := bs.foldl crc64Byte 0

/-- One byte of the CRC-8 of R837. -/
def crc8Byte (c b : Byte) : Byte :=
  (List.range 8).foldl (fun x _ => if x.getLsbD 7 then (x <<< 1) ^^^ 0x07 else x <<< 1) (c ^^^ b)

/-- R837: CRC-8 of a byte string. -/
def crc8 (bs : List Byte) : Byte := bs.foldl crc8Byte 0

/-- The eight bytes of a block payload, byte 0 first (R779). -/
def blockBytes (w : W64) : List Byte := leBytes 8 w.toNat

/-- R837: a control block payload of seven bytes with CHK in byte 7. -/
def withChk (bs : List Byte) : W64 :=
  let seven := (bs ++ List.replicate 7 0).take 7
  BitVec.ofNat 64 (leNat (seven ++ [crc8 seven]))

/-- R837: CHK of a control block holds. -/
def chkOk (w : W64) : Bool := crc8 ((blockBytes w).take 7) == w.extractLsb' 56 8

end Sys2Proof.Machine
end

