-- ==== Sys2Proof/Machine/Operands.lean ====
section
/-!
DEFINITION. Command packets: the fields of the parameters (R259), the checks of R274 as rejections, and
the one shared way in which the module takes a command from a submission queue, validates it and
replies (R218, R232, R267, R269, R278 to R289).
-/

namespace Sys2Proof

/-- A field of `n` bits at byte offset `o` of the packet (offset 8 or more). -/
def Packet.field (p : Packet) (o n : Nat) : BitVec n := p.body.extractLsb' (8 * (o - 8)) n

/-- A byte of the parameters. -/
def Packet.u8 (p : Packet) (o : Nat) : BitVec 8 := Packet.field p o 8
/-- A 16-bit parameter. -/
def Packet.u16 (p : Packet) (o : Nat) : W16 := Packet.field p o 16
/-- A 32-bit parameter. -/
def Packet.u32 (p : Packet) (o : Nat) : W32 := Packet.field p o 32
/-- A 64-bit parameter. -/
def Packet.u64 (p : Packet) (o : Nat) : W64 := Packet.field p o 64

end Sys2Proof

namespace Sys2Proof.Machine

/-- A stratum number in a byte, which the legal values bound. -/
def toFn (b : BitVec 8) : FnNo := Fin.ofNat 16 b.toNat

/-- The parameter bits which an opcode reads: (offset, bytes) of its fields (R259, R366). -/
def usedBits : List (Nat × Nat) → BitVec 448
  | [] => 0
  | f :: r => (BitVec.ofNat 448 (2 ^ (8 * f.2) - 1) <<< (8 * (f.1 - 8))) ||| usedBits r

/-- A rejection (R274, R463): STATUS, DETAIL, RESULT0 and RESULT1. -/
structure Rej where
  status : W16
  detail : W16
  r0 : W64
  r1 : W64
  deriving DecidableEq, Repr

/-- A rejection when a condition holds. -/
def rejIf (c : Bool) (r : Rej) : Option Rej := if c then some r else none

/-- Check 6: a field outside its legal values. -/
def badField (c : Bool) (off : Nat) : Option Rej := rejIf c ⟨stBadField, BitVec.ofNat 16 off, 0, 0⟩

/-- Check 7: a named object is in a state which the command does not allow. -/
def badState (c : Bool) : Option Rej := rejIf c ⟨stBadState, 0, bsObject, 0⟩

/-- Check 8: not permitted, with the field's offset. -/
def notPermitted (c : Bool) (off : Nat) : Option Rej := rejIf c ⟨stNotPermitted, BitVec.ofNat 16 off, 0, 0⟩

/-- Check 8: the named object belongs to another stratum. -/
def notOwner (c : Bool) (off obj : Nat) : Option Rej :=
  rejIf c ⟨stNotOwner, BitVec.ofNat 16 off, BitVec.ofNat 64 obj, 0⟩

/-- Check 8: an address or range outside what the command may touch. -/
def outOfRange (c : Bool) (off : Nat) (r0 r1 : W64) : Option Rej :=
  rejIf c ⟨stOutOfRange, BitVec.ofNat 16 off, r0, r1⟩

/-- Check 9: a shared resource is lacking (R463). (Log entry 29 DEDUCED.) -/
def noResource (c : Bool) (res : W64) : Option Rej := rejIf c ⟨stNoResource, 0, res, 0⟩

/-- Check 9: a quota, with its limit, kind and the amount brought to bear (R463). (Log entry 29 DEDUCED.) -/
def overQuota (c : Bool) (limit kind amount : Nat) : Option Rej :=
  rejIf c ⟨stQuota, 0, BitVec.ofNat 64 limit, BitVec.ofNat 64 (kind * 2 ^ 56 + amount)⟩

/-- R308: a BUF_ADDR which is neither zero nor a multiple of 64. -/
def badBuf (p : Packet) (off : Nat) : Option Rej := badField (Packet.u64 p off % 64 != 0) off

/-- R308, R309: a block is written to a nonzero BUF_ADDR. -/
def State.writeBlock (s : State) (fn : FnNo) (addr : W64) (bytes : List Byte) : State :=
  if addr = 0 then s else s.hostWrite fn addr bytes

/-- The offset of the lowest nonzero byte of the parameters and tail (R1134). -/
def lowestByte (b : BitVec 448) : Nat :=
  ((List.range 56).find? fun i => b.extractLsb' (8 * i) 8 != 0).getD 0 + 8

/-- What R274 needs to know of an opcode. -/
structure CmdSpec where
  /-- OPCODE. -/
  op : BitVec 8
  /-- PARAM_LEN (R261). -/
  len : W16
  /-- Parameter bits which the opcode reads. -/
  used : BitVec 448
  /-- Long-running (R273). -/
  long : Bool := false
  /-- Issued by stratum 0 only. -/
  pfOnly : Bool := false
  /-- Executed in RECOVERY and in FAILED (R156). -/
  anyPhase : Bool := false
  /-- Executed in RECOVERY, not in FAILED (R156). -/
  recovery : Bool := false
  /-- Executed in a function whose stratum does not exist (R315). -/
  anyStratum : Bool := false

/-- R154, R1040: submission queues are read: the phases in which they are, with the link up. -/
def State.serving (s : State) : Bool :=
  s.sup.power == .active && s.boot.linkL0 && !s.boot.fatal && !s.boot.inReset && !s.boot.resetPending &&
    (s.boot.phase == phReady || s.boot.phase == phRecovery || s.boot.phase == phFailed)

/-- Check 2 of R274. -/
def check2 (c : CmdSpec) (fn : FnNo) (s : State) : Option Rej :=
  (rejIf (!(s.boot.phase == phReady || c.anyPhase || (c.recovery && s.boot.phase == phRecovery)))
    ⟨stBadState, 0, bsPhase ||| (s.boot.phase.setWidth 64 <<< 8), 0⟩).or
  (rejIf (!c.anyStratum && (!s.strata[fn].live || s.strata[fn].destroying))
    ⟨stBadState, 0, bsStratum, 0⟩)

/-- Check 3 of R274. -/
def check3 (c : CmdSpec) (p : Packet) : Option Rej :=
  rejIf (p.paramLen != c.len) ⟨stBadLength, 6, c.len.setWidth 64, 0⟩

/-- Check 4 of R274, with the DETAIL of R1134. -/
def check4 (c : CmdSpec) (p : Packet) : Option Rej :=
  let rest := p.body &&& ~~~c.used
  if p.flags &&& 0x1F ≠ 0 then some ⟨stReserved, 1, 0, 0⟩
  else if p.byte5 ≠ 0 then some ⟨stReserved, 5, 0, 0⟩
  else rejIf (rest != 0) ⟨stReserved, BitVec.ofNat 16 (lowestByte rest), 0, 0⟩

/-- Check 5 of R274. -/
def check5 (c : CmdSpec) (fn : FnNo) (p : Packet) : Option Rej :=
  (notPermitted (c.pfOnly && fn.val != 0) 0).or (notPermitted (p.stratum != BitVec.ofNat 8 fn.val) 4)

/-- Long-running commands of a function without completion. -/
def State.longCount (s : State) (fn : FnNo) : Nat := (s.outst.filter fun o => o.fn = fn).length

/-- The first part of check 9 of R274: the limit of R305. -/
def check9Long (c : CmdSpec) (fn : FnNo) (s : State) : Option Rej :=
  overQuota (c.long && decide (256 ≤ s.longCount fn)) 256 1 (s.longCount fn + 1)

/-- All ten checks in order: `chk` is the opcode's checks 6 to 8, `res` its part of check 9 and check 10.
(Log entry 17 DEDUCED.) -/
def validate (c : CmdSpec) (fn : FnNo) (p : Packet) (chk res : Option Rej) (s : State) : Option Rej :=
  (check2 c fn s).or <| (check3 c p).or <| (check4 c p).or <| (check5 c fn p).or <|
    chk.or <| (check9Long c fn s).or res

/-- R232: an entry of the event queue can be reserved. -/
def Evq.reservable (e : Evq) : Bool :=
  e.running && decide (e.unreleased + e.reserved < ringSize e.log2 - 1)

/-- R273: the opcodes of the long-running commands. -/
def longOpcodes : List Nat :=
  [0x04, 0x11, 0x30, 0x31, 0x32, 0x40, 0x42, 0x44, 0x45, 0x60, 0x61, 0x62, 0x63, 0x71, 0x72, 0x74, 0xA0, 0xA1, 0xA3, 0xA4,
   0xB0, 0xB1, 0xB2, 0xB3, 0xB4, 0xC0, 0xD0, 0xD2]

/-- R277, R448: the opcodes which read host memory as they are taken: SLATE_CONTEXT_LOAD, SLATE_PARAM_SET, PROG_LOAD and
PANEL_DRAW. -/
def readsHost (op : BitVec 8) : Bool := op == 0x50 || op == 0x51 || op == 0x60 || op == 0xC0

/-- FENCE_BEFORE (R282) or CHAIN (R284) holds the command back. -/
def State.orderWaits (s : State) (fn : FnNo) (qp : QpNo) (p : Packet) : Bool :=
  let q := s.fns[fn].qps[qp]
  (p.flags.getLsbD 7 && s.outst.any fun o => o.fn = fn && o.qp = qp) ||
    (q.chain && s.outst.any fun o => o.id = q.prevId)

/-- The command cannot be answered yet: R282, R284, R232 for a long-running command which is not cancelled, or R1144 for
one which reads host memory. (Log entry 4 DEDUCED.) -/
def State.mustWait (s : State) (long : Bool) (fn : FnNo) (qp : QpNo) (op : BitVec 8) (p : Packet) : Bool :=
  s.orderWaits fn qp p ||
    ((s.fns[fn].qps[qp].chainFailed == none) &&
      ((long && !s.fns[fn].evq.reservable) || (readsHost op && !s.fns[fn].busMaster)))

/-- R154, R223, R279: the module may answer a command of this queue now. (Log entry 4 DEDUCED.) -/
def State.queueOpen (s : State) (fn : FnNo) (qp : QpNo) : Bool :=
  let q := s.fns[fn].qps[qp]
  s.serving && q.running && (q.awaiting == none) && !s.fns[fn].replyWaits qp &&
    decide (q.cqUnreleased < ringSize q.cqLog2 - 1)

/-- R154, R223, R1144: the module takes commands from this queue now. (Log entry 4 DEDUCED.) -/
def State.queueServed (s : State) (fn : FnNo) (qp : QpNo) : Bool := s.queueOpen fn qp && s.fns[fn].busMaster

/-- R293: the queue has a command ready for validation: one which was read and need not wait any longer, or one which can
be read. (Log entry 136 DEDUCED.) -/
def State.queueReady (s : State) (fn : FnNo) (qp : QpNo) : Bool :=
  let q := s.fns[fn].qps[qp]
  s.queueOpen fn qp && match q.held with
    | some h => !s.mustWait (longOpcodes.contains h.op.toNat) fn qp h.op h.pkt
    | none => s.fns[fn].busMaster && !q.stopping && q.readPos != q.tail

/-- R293: it is this queue's turn: it has not been served while another queue waits which is still ready.
(Log entry 136 DEDUCED.) -/
def State.inTurn (s : State) (fn : FnNo) (qp : QpNo) : Bool :=
  (List.finRange 16).all fun f => (List.finRange 4).all fun q =>
    !((s.fns[f].qps[q]).passed.contains (fn, qp) && s.queueReady f q)

/-- R293: the queue is served: every other queue which is ready has waited through one service of it.
(Log entry 136 DEDUCED.) -/
def State.serve (s : State) (fn : FnNo) (qp : QpNo) : State :=
  { s with fns := Vector.ofFn fun f =>
      let g := s.fns[f]
      { g with qps := Vector.ofFn fun q =>
          let x := g.qps[q]
          if f = fn ∧ q = qp then { x with passed := [] }
          else if s.queueReady f q && !x.passed.contains (fn, qp) then { x with passed := x.passed ++ [(fn, qp)] }
          else x } }

/-- The state in which the module has taken the command at the front of a submission queue: read it from the ring, or
released the one which it had read and held back (R218, R282, R284). -/
def State.taken (s : State) (fn : FnNo) (qp : QpNo) : State :=
  let t := s.serve fn qp
  match s.fns[fn].qps[qp].held with
  | some _ => t.modQp fn qp fun x => { x with held := none }
  | none => t.modQp fn qp fun x => { x with
      readPos := (ringNext s.fns[fn].qps[qp].sqLog2 s.fns[fn].qps[qp].readPos true).1 }

/-- R213, R214, R215: a recorded or written enable takes effect with the values the registers hold. -/
def startQueue (s : State) (fn : FnNo) (qp : QpNo) : State :=
  let q := s.fns[fn].qps[qp]
  let ok := 4 ≤ q.sqLog2.toNat && q.sqLog2.toNat ≤ 12 && 4 ≤ q.cqLog2.toNat && q.cqLog2.toNat ≤ 12
  if ok then
    s.modQp fn qp fun x => { x with
      enable := true, running := true, error := false, tail := 0, cqHead := 0, readPos := 0, cqPos := 0,
      cqPhase := true, cqUnreleased := 0, stopping := false, reenable := false, held := none,
      awaiting := none, chain := false, chainFailed := none, prevId := 0, passed := [] }
  else
    (s.modQp fn qp fun x => { x with enable := false, error := true, reenable := false }).raise fn
      causeQueueErr

/-- R222, R236, R1143: a stopping queue pair whose read commands are answered clears RUNNING, and a
recorded enable then takes effect. -/
def settleQueue (s : State) (fn : FnNo) (qp : QpNo) : State :=
  let q := s.fns[fn].qps[qp]
  if q.stopping && (q.held == none) && (q.awaiting == none) && !s.fns[fn].replyWaits qp then
    let t := s.modQp fn qp fun x => { x with running := false, stopping := false }
    if q.reenable then startQueue t fn qp else t
  else s

/-- After a command's status reply: the chain of R284 to R286 continues or ends. `failed` is the TAG which
cancels the rest of the chain. (Log entry 121 DEDUCED.) -/
def afterReply (fn : FnNo) (qp : QpNo) (p : Packet) (prev : Nat) (failed : Option W16) (s : State) :
    State :=
  s.modQp fn qp fun q => { q with
    chain := p.flags.getLsbD 5, prevId := prev,
    chainFailed := if p.flags.getLsbD 5 then failed else none }

/-- R286, R287: a cancelled command is answered with ST_BAD_STATE and the failed command's TAG. -/
def cancelReply (fn : FnNo) (qp : QpNo) (op : BitVec 8) (p : Packet) (tag : W16) (s : State) : State :=
  afterReply fn qp p 0 (some tag)
    (s.reply fn qp op p stBadState 0 ((1#64 <<< 63) ||| tag.setWidth 64) 0)

/-- A rejected command is answered, and its chain fails (R274, R285). -/
def rejectReply (fn : FnNo) (qp : QpNo) (op : BitVec 8) (p : Packet) (r : Rej) (s : State) : State :=
  afterReply fn qp p 0 (some p.tag) (s.reply fn qp op p r.status r.detail r.r0 r.r1)

/-- The command is read (R218) unless it already was, and `body` answers it unless it must wait. A packet
which is not the one already read, or which the module does not read now, stays in its ring.
(Log entries 3 DESIGN CHOICE, 4 DEDUCED.) -/
def takeCommand (fn : FnNo) (qp : QpNo) (op : BitVec 8) (long : Bool) (p : Packet)
    (body : State → State) (s : State) : State :=
  let q := s.fns[fn].qps[qp]
  if !s.queueOpen fn qp || !s.inTurn fn qp then s
  else
    match q.held with
    | some h =>
      if h ≠ ⟨op, p⟩ || s.mustWait long fn qp op p then s
      else settleQueue (body (s.taken fn qp)) fn qp
    | none =>
      if !s.fns[fn].busMaster || q.stopping || q.readPos == q.tail then s
      else if s.mustWait long fn qp op p then s.modQp fn qp fun x => { x with
          readPos := (ringNext q.sqLog2 q.readPos true).1, held := some ⟨op, p⟩ }
      else settleQueue (body (s.taken fn qp)) fn qp

/-- Result of a short command: STATUS, RESULT0 and RESULT1 of its reply. -/
structure Res where
  status : W16 := stOk
  r0 : W64 := 0
  r1 : W64 := 0

/-- A short command (R267): it is validated, takes its full effect, and is answered. (Log entry 4 DEDUCED.) -/
def shortCommand (c : CmdSpec) (fn : FnNo) (qp : QpNo) (p : Packet)
    (chk res : State → Option Rej) (eff : State → State × Res) (s : State) : State :=
  takeCommand fn qp c.op false p (fun t =>
    match t.fns[fn].qps[qp].chainFailed with
    | some tag => cancelReply fn qp c.op p tag t
    | none =>
      match validate c fn p (chk t) (res t) t with
      | some r => rejectReply fn qp c.op p r t
      | none =>
        let u := eff t
        afterReply fn qp p 0 (if u.2.status = stOk then none else some p.tag)
          (u.1.reply fn qp c.op p u.2.status 0 u.2.r0 u.2.r1)) s

/-- A long-running command which is read and may be answered: it is validated, makes its acceptance effects `acc`, is
answered with ST_ACCEPTED, and its work `work` begins. Both know the number under which it is outstanding. -/
def longBody (c : CmdSpec) (fn : FnNo) (qp : QpNo) (p : Packet)
    (chk res : State → Option Rej) (acc work : Nat → State → State) (t : State) : State :=
  match t.fns[fn].qps[qp].chainFailed with
  | some tag => cancelReply fn qp c.op p tag t
  | none =>
    match validate c fn p (chk t) (res t) t with
    | some r => rejectReply fn qp c.op p r t
    | none =>
      let id := t.nextId
      let o : Outst := { id, fn, qp, op := c.op, tag := p.tag,
                         chain := p.flags.getLsbD 5 && !t.fns[fn].qps[qp].stopping }
      let u := acc id ({ t with nextId := id + 1, outst := t.outst ++ [o] }.modEvq fn
        fun e => { e with reserved := e.reserved + 1 })
      work id (afterReply fn qp p id none (u.reply fn qp c.op p stAccepted 0 0 0))

/-- A long-running command (R232, R269): it is taken with an event queue entry reserved. (Log entry 4 DEDUCED.) -/
def longCommand (c : CmdSpec) (fn : FnNo) (qp : QpNo) (p : Packet)
    (chk res : State → Option Rej) (acc work : Nat → State → State) (s : State) : State :=
  takeCommand fn qp c.op true p (longBody c fn qp p chk res acc work) s

end Sys2Proof.Machine
end

