-- ==== Sys2Proof/Machine/Memory.lean ====
section
/-!
DEFINITION. The memories behind a stratum's view: Geode granules and their placement (15), external
memory, its interleave and its codewords (17), cluster scratch, the view of R310, and the allocation and
freeing of both kinds (R347 to R355).
-/

namespace Sys2Proof.Machine

/-! ### Units by UNIT identifier (R429) -/

/-- UNIT of R429. -/
def unitId (type index : Nat) : W16 := BitVec.ofNat 16 (256 * type + index)

/-- In service: neither retired nor fenced. -/
def UnitSt.up (u : UnitSt) : Bool := !u.retired && !u.fenced

/-- A unit which works on what it has accepted: it is in service, or in the DRAIN step of its fence (R127). -/
def UnitSt.works (u : UnitSt) : Bool := u.up || u.draining.isSome

/-! ### Granules (R679 to R685) -/

/-- Bytes of a granule. -/
abbrev granuleBytes : Nat := 0x10000

/-- The bank of a granule (R679). -/
def bankOf (g : Nat) : BankNo := Fin.ofNat 64 (g / 512)

/-- The granule is FREE (R680): unmarked, in a bank in service. -/
def State.granuleFree (s : State) (g : Nat) : Bool :=
  (spGet s.geo.marks g).isNone && s.units.banks[bankOf g].up

/-- The first FREE granule of a run of granules. -/
def State.freeFrom (s : State) (g : Nat) : Nat → Option Nat
  | 0 => none
  | n + 1 => if s.granuleFree g then some g else s.freeFrom (g + 1) n

/-- The lowest FREE granule of a bank. -/
def State.freeInBank (s : State) (b : Nat) : Option Nat := s.freeFrom (512 * b) 512

/-- The 64 banks in order. -/
def bankNumbers : List Nat :=
  [0, 1, 2, 3, 4, 5, 6, 7, 8, 9, 10, 11, 12, 13, 14, 15,
   16, 17, 18, 19, 20, 21, 22, 23, 24, 25, 26, 27, 28, 29, 30, 31,
   32, 33, 34, 35, 36, 37, 38, 39, 40, 41, 42, 43, 44, 45, 46, 47,
   48, 49, 50, 51, 52, 53, 54, 55, 56, 57, 58, 59, 60, 61, 62, 63]

/-- R683: the granule placed after bank `last`. (Log entry 23 DEDUCED.) -/
def State.placeAfter (s : State) (last : Nat) : Option Nat :=
  bankNumbers.findSome? fun k => s.freeInBank ((last + 1 + k) % 64)

/-- The number of FREE granules. (Log entry 23 DEDUCED.) -/
def State.freeGranules (s : State) : Nat :=
  ((List.finRange 64).map fun b =>
    if s.units.banks[b].up then 512 - (s.geo.marks.filter fun m => m.1 / 512 = b.val).length else 0).sum

/-- A granule receives a mark. -/
def State.markGranule (s : State) (g : Nat) (m : Mark) : State :=
  { s with geo := { s.geo with marks := spPut s.geo.marks g m } }

/-- R681: a granule is zeroed and becomes FREE. -/
def State.freeGranule (s : State) (g : Nat) : State :=
  { s with geo := { s.geo with
      marks := spDel s.geo.marks g
      mem := memClear s.geo.mem (g * granuleBytes) granuleBytes } }

/-- R683: `n` granules are placed one after another from bank `last`, each with mark `m`. Answers them in
order (`none` for each one which finds no FREE granule), with the bank of the last one. (Log entry 23 DEDUCED.) -/
def State.placeGranules (s : State) (m : Mark) (last : Nat) : Nat → State × List (Option Nat) × Nat
  | 0 => (s, [], last)
  | n + 1 =>
    match s.placeAfter last with
    | none => let r := s.placeGranules m last n; (r.1, none :: r.2.1, r.2.2)
    | some g =>
      let r := (s.markGranule g m).placeGranules m (g / 512) n
      (r.1, some g :: r.2.1, r.2.2)

/-! ### External memory (R746 to R750) -/

/-- Bytes of a page (R484). -/
abbrev pageBytes : Nat := 0x100000

/-- R746: pages of the data space: 15/16 of the fitted capacity of the channels in the interleave. -/
def State.dataPages (s : State) : Nat := s.ext.order.length * (if s.order32 then 3840 else 1920)

/-- Pages which allocations hold. -/
def State.usedPages (s : State) : List Nat :=
  ((List.finRange 16).map fun n => (s.strata[n].ext.map fun a => a.parts.filterMap id).flatten).flatten

/-- R747: the first `n` lowest-numbered free pages. -/
def State.freePages (s : State) (n : Nat) : List Nat :=
  let used := s.usedPages
  ((List.range s.dataPages).filter fun p => !used.contains p).take n

/-- A codeword of R749: its channel and its number on that channel (256 times the ECC block plus k). -/
def State.codeword (s : State) (off : Nat) : Option (ExtNo × Nat) :=
  let c := s.ext.order.length
  match s.ext.order[off / 256 % c]? with
  | none => none
  | some ch =>
    let b := off / 256 / c * 256 + off % 256
    some (ch, b / 3840 * 256 + b % 3840 / 15)

/-- R491: the tweak of the 64-byte XTS data unit which holds an offset of the data space: its physical address, divided by
64. The data space starts at 0x0100_0000_0000 (17). -/
def xtsTweak (off : Nat) : Nat := (0x010000000000 + off) / 64

/-- The codeword is poisoned (R760). -/
def State.isPoisoned (s : State) (w : ExtNo × Nat) : Bool :=
  s.ext.poisoned.any fun p => p.1 = w.1 && p.2.1 = w.2

/-! ### The view (R310, R311) -/

/-- Where a view address leads. -/
inductive Loc where
  /-- Geode, by physical address. -/
  | geode (addr : Nat)
  /-- Scratch of a physical cluster. -/
  | scratch (cl : PhysNo) (off : Nat)
  /-- External memory: data-space offset, generation of the page, and generation of the stratum's key pair. -/
  | ext (off gen key : Nat)
  /-- A view address marked LOST (R714, R773). -/
  | lost
  /-- Not in the stratum's memory. -/
  | none
  deriving DecidableEq, Repr

/-- R312: the stratum holds the logical cluster. -/
def State.holdsCluster (s : State) (n : FnNo) (l : LogNo) : Bool :=
  if n.val = 0 then (List.finRange 16).all fun k => k.val = 0 || !s.strata[k].clusters.getLsbD l.val
  else s.strata[n].clusters.getLsbD l.val

/-- R312: CLUSTER_MASK of a stratum; stratum 0 holds what no tenant holds. -/
def State.clusterMask (s : State) (n : FnNo) : BitVec 64 :=
  if n.val = 0 then ~~~((List.finRange 16).foldl (fun m k => if k.val = 0 then m else m ||| s.strata[k].clusters) 0)
  else s.strata[n].clusters

/-- The allocation which holds a view address, with unit size `u`. -/
def findAlloc (l : List Alloc) (u a : Nat) : Option Alloc :=
  l.find? fun x => decide (x.base ≤ a ∧ a < x.base + u * x.parts.length)

/-- First view address of external memory. -/
abbrev extViewBase : Nat := 0x010000000000
/-- First view address of cluster scratch. -/
abbrev scratchViewBase : Nat := 0x000100000000
/-- Bytes of a cluster's scratch. -/
abbrev scratchBytes : Nat := 0x400000

/-- R310: where a view address of a stratum leads. -/
def State.locate (s : State) (n : FnNo) (a : Nat) : Loc :=
  if a < 0x80000000 then
    match findAlloc s.strata[n].arena granuleBytes a with
    | none => .none
    | some x =>
      match (x.parts[(a - x.base) / granuleBytes]?).join with
      | none => .lost
      | some g => .geode (g * granuleBytes + a % granuleBytes)
  else if scratchViewBase ≤ a && a < scratchViewBase + 64 * scratchBytes then
    let l : LogNo := Fin.ofNat 64 ((a - scratchViewBase) / scratchBytes)
    match s.mapping[l] with
    | none => .none
    | some c => if s.holdsCluster n l then .scratch c ((a - scratchViewBase) % scratchBytes) else .none
  else
    match findAlloc s.strata[n].ext pageBytes a with
    | none => .none
    | some x =>
      match (x.parts[(a - x.base) / pageBytes]?).join with
      | none => .lost
      | some p => .ext (p * pageBytes + a % pageBytes) x.gen (s.strata[n].key.getD 0)

/-- How an access to one byte ends when it is not served. -/
inductive AccErr where
  /-- Outside the stratum's memory, or at a LOST address (R255, R485, R714). -/
  | refused
  /-- LOST (R370, R714). -/
  | lost
  /-- ST_TARGET_RESET of a unit, with the cause of R464. -/
  | reset (unit : W16) (cause : BitVec 8)
  deriving DecidableEq, Repr

/-- The unit which a location needs is out of service (R127), or the external codeword is poisoned
(R760); a write which covers the whole codeword is not held up by the poison (R761). (Log entry 123 DEDUCED.) -/
def State.locError (s : State) (wholeWrite : Bool) : Loc → Option AccErr
  | .none => some .refused
  | .lost => some .lost
  | .geode a =>
    let b := bankOf (a / granuleBytes)
    if s.units.banks[b].up then none else some (.reset (unitId 2 b.val) 1)
  | .scratch c _ =>
    if s.units.clusters[c].up then none else some (.reset (unitId 1 c.val) 1)
  | .ext off _ _ =>
    match s.codeword off with
    | none => some .lost
    | some w =>
      if !s.units.exts[w.1].up || s.ext.reinit then some (.reset (unitId 7 w.1.val) 1)
      else if s.isPoisoned w && !wholeWrite then some (.reset (unitId 7 w.1.val) 5)
      else none

/-- The byte at a location which can be served; external memory decrypts it under the stratum's key pair (R490, R491).
(Log entry 21 DESIGN CHOICE.) -/
def State.locRead (s : State) : Loc → Byte
  | .geode a => memRead 0 s.geo.mem a
  | .scratch c o => memRead 0 s.scratch[c] o
  | .ext off gen key =>
    match spGet s.ext.mem off with
    | some b => b
    | none => Config.extByte gen key (xtsTweak off) (off % 64)
  | _ => 0

/-- A byte is written at a location which can be served. -/
def State.locWrite (s : State) (v : Byte) : Loc → State
  | .geode a => { s with geo := { s.geo with mem := memWrite 0 s.geo.mem a v } }
  | .scratch c o => { s with scratch := vmod s.scratch c fun m => memWrite 0 m o v }
  | .ext off _ _ => { s with ext := { s.ext with mem := spPut s.ext.mem off v } }
  | _ => s

/-- A stratum reads one byte of its view. -/
def State.viewRead (s : State) (n : FnNo) (a : Nat) : Except AccErr Byte :=
  let l := s.locate n a
  match s.locError false l with
  | some e => .error e
  | none => .ok (s.locRead l)

/-- A stratum reads `k` bytes of its view upward from an address; the error names its address. -/
def State.viewReadN (s : State) (n : FnNo) (a : Nat) : Nat → Except (Nat × AccErr) (List Byte)
  | 0 => .ok []
  | k + 1 =>
    match s.viewRead n a with
    | .error e => .error (a, e)
    | .ok b =>
      match s.viewReadN n (a + 1) k with
      | .error e => .error e
      | .ok r => .ok (b :: r)

/-- The external codewords which bytes of a view cover wholly (R761). -/
def State.coversCodeword (s : State) (n : FnNo) (as : List Nat) (w : ExtNo × Nat) : Bool :=
  decide (15 ≤ (as.filter fun a =>
    match s.locate n a with
    | .ext off _ _ => s.codeword off == some w
    | _ => false).length)

/-- A poisoned codeword stops being poisoned (R761). -/
def State.unpoison (s : State) (w : ExtNo × Nat) : State :=
  { s with ext := { s.ext with poisoned := s.ext.poisoned.filter fun p => ¬ (p.1 = w.1 ∧ p.2.1 = w.2) } }

/-- The poisoned codewords which a list of written view addresses touches. -/
def State.poisonTouched (s : State) (n : FnNo) (as : List Nat) : List (ExtNo × Nat) :=
  (s.ext.poisoned.map fun p => (p.1, p.2.1)).filter fun w => as.any fun a =>
    match s.locate n a with
    | .ext off _ _ => s.codeword off == some w
    | _ => false

/-- A stratum writes bytes of its view, in order, up to the first one which is not served. Answers the
state, and the address and error of that byte. -/
def State.viewWriteGo (s : State) (n : FnNo) : List (Nat × Byte) → State × Option (Nat × AccErr)
  | [] => (s, none)
  | w :: r =>
    let l := s.locate n w.1
    match s.locError false l with
    | some e => (s, some (w.1, e))
    | none => (s.locWrite w.2 l).viewWriteGo n r

/-- The poisoned codewords which a write covers wholly are made good (R761). -/
def State.makeGood (s : State) (n : FnNo) (ws : List (Nat × Byte)) : State :=
  let as := ws.map (·.1)
  s.forEach ((s.poisonTouched n as).filter (s.coversCodeword n as)) fun w u => u.unpoison w

/-- How many of these bytes a write serves, from the first one on. -/
def State.servedBytes (s : State) (n : FnNo) (ws : List (Nat × Byte)) : Nat :=
  (ws.takeWhile fun w => (s.locError false (s.locate n w.1)).isNone).length

/-- A stratum writes bytes of its view. A poisoned codeword which the write covers wholly is made good
first (R761). -/
def State.viewWrite (s : State) (n : FnNo) (ws : List (Nat × Byte)) : State × Option (Nat × AccErr) :=
  (s.makeGood n ws).viewWriteGo n ws

/-! ### Allocation (R347 to R355, R682, R683, R747) -/

/-- Granules of the arena, or pages of external memory, which a stratum holds (R715). -/
def heldParts (l : List Alloc) : Nat := (l.map fun a => a.parts.length).sum

/-- An allocation enters the list, by rising view address. -/
def insertAlloc (l : List Alloc) (x : Alloc) : List Alloc :=
  match l with
  | [] => [x]
  | y :: r => if x.base < y.base then x :: y :: r else y :: insertAlloc r x

/-- R349: the lowest view address from `at_` on which starts a free range of `n` parts of `u` bytes, below
`top`. The list rises by view address. (Log entry 23 DEDUCED.) -/
def lowestFree (l : List Alloc) (u n at_ top : Nat) : Option Nat :=
  match l with
  | [] => if at_ + n * u ≤ top then some at_ else none
  | y :: r => if at_ + n * u ≤ y.base then some at_ else lowestFree r u n (y.base + u * y.parts.length) top

/-- Where a new allocation of a kind would lie in the stratum's view. (Log entry 23 DEDUCED.) -/
def State.allocBase (s : State) (n : FnNo) (ext : Bool) (parts : Nat) : Option Nat :=
  if ext then lowestFree s.strata[n].ext pageBytes parts extViewBase (extViewBase + 0x800000000)
  else lowestFree s.strata[n].arena granuleBytes parts 0 0x80000000

/-- R349, R350, R351, R683, R747: an allocation of a kind at a view address. -/
def State.allocate (s : State) (n : FnNo) (ext : Bool) (base parts : Nat) : State :=
  if ext then
    let d := s.draw
    d.2.modStratum n fun x => { x with
      ext := insertAlloc x.ext { base, parts := (s.freePages parts).map some, gen := d.1 } }
  else
    let r := s.placeGranules (.arena n) s.strata[n].lastBank parts
    r.1.modStratum n fun x => { x with
      arena := insertAlloc x.arena { base, parts := r.2.1, gen := 0 }, lastBank := r.2.2 }

/-- R761: the poisoned codewords of freed pages are made good. -/
def State.unpoisonPages (s : State) (ps : List Nat) : State :=
  let touches := fun (w : ExtNo × Nat × Tick) (p : Nat) =>
    (List.range pageBytes).any fun i => s.codeword (p * pageBytes + i) == some (w.1, w.2.1)
  { s with ext := { s.ext with poisoned := s.ext.poisoned.filter fun w => !ps.any (touches w) } }

/-- The written bytes of pages are forgotten: what they hold next is undefined. (Log entry 21 DESIGN CHOICE.) -/
def State.dropPages (s : State) (ps : List Nat) : State :=
  { s with ext := { s.ext with mem := s.ext.mem.filter fun c => ! ps.contains (c.1 / pageBytes) } }

/-- R355, R715: an allocation of a stratum is freed; its Geode granules are zeroed. -/
def State.release (s : State) (n : FnNo) (ext : Bool) (x : Alloc) : State :=
  let ps := x.parts.filterMap id
  if ext then
    ((if s.ext.poisoned.isEmpty then s else s.unpoisonPages ps).dropPages ps).modStratum n fun y => { y with
      ext := y.ext.filter fun z => z.base ≠ x.base }
  else
    (s.forEach ps fun g t => t.freeGranule g).modStratum n fun y => { y with
      arena := y.arena.filter fun z => z.base ≠ x.base }

end Sys2Proof.Machine
end

