-- ==== Sys2Proof/Machine/Pool.lean ====
section
/-!
DEFINITION. Channels and the Geode pool (15): grants, releases, reclaiming, room and credits, starvation,
shortage, and what becomes of a frame's buffers.
-/

namespace Sys2Proof.Machine

/-! ### Channels and frames by name -/

/-- The channel of a number. -/
def State.chan (s : State) (c : Nat) : Option Chan := s.chans.find? fun x => x.num = c

/-- The state with one channel changed. -/
def State.modChan (s : State) (c : Nat) (f : Chan → Chan) : State :=
  let g := fun (x : Chan) => if x.num = c then f x else x
  { s with chans := s.chans.map g }

/-- The frame of a channel by FRAME_SEQ. -/
def State.frame (s : State) (c q : Nat) : Option Frame := s.frames.find? fun x => x.chan = c && x.seq = q

/-- The open frame of a channel. -/
def State.openFrame (s : State) (c : Nat) : Option Frame :=
  s.frames.find? fun x => x.chan = c && x.stage == .opened

/-- The state with one frame changed. -/
def State.modFrame (s : State) (c q : Nat) (f : Frame → Frame) : State :=
  let g := fun (x : Frame) => if x.chan = c ∧ x.seq = q then f x else x
  { s with frames := s.frames.map g }

/-- The frame leaves the state. -/
def State.delFrame (s : State) (c q : Nat) : State :=
  { s with frames := s.frames.filter fun x => !(x.chan == c && x.seq == q) }

/-- A 64-bit counter which saturates (R1098). -/
def satAdd (w : W64) (n : Nat) : W64 := if 2 ^ 64 ≤ w.toNat + n then BitVec.allOnes 64 else w + BitVec.ofNat 64 n

/-- A counter of a STRATUM block grows (R1096). -/
def State.count (s : State) (n : FnNo) (i : Fin 14) (k : Nat) : State :=
  { s with telem := { s.telem with
    strata := vmod s.telem.strata n fun v => vmod v i fun w => satAdd w k } }

/-- DROPPED of a channel grows by one (R396, R1096). -/
def State.countDrop (s : State) (c : Nat) : State :=
  match s.chan c with
  | none => s
  | some x => (s.modChan c fun y => { y with dropped := satAdd y.dropped 1 }).count x.stratum 12 1

/-! ### Holdings (R691 to R693) -/

/-- R691: the pool size. -/
def State.poolSize (s : State) : Nat := 4 * (s.geo.poolGranules.filter Option.isSome).length

/-- A pool is configured. -/
def State.poolConfigured (s : State) : Bool := !s.geo.poolGranules.isEmpty

/-- The buffer counts towards an allotment. (Log entry 27 DEDUCED.) -/
def Buf.allotted (b : Buf) : Bool := b.state == .allotted || b.state == .filling || b.state == .held

/-- The allotment of a channel. -/
def State.allotment (s : State) (c : Nat) : Nat :=
  (s.geo.bufs.filter fun b => b.allotted && b.chan == c).length

/-- The ALLOTTED buffers of a channel. (Log entry 59 DEDUCED.) -/
def State.spare (s : State) (c : Nat) : Nat :=
  (s.geo.bufs.filter fun b => b.state == .allotted && b.chan == c).length

/-- H_s: the buffers which a stratum's channels hold. -/
def State.held (s : State) (n : FnNo) : Nat :=
  ((s.chans.filter fun c => c.stratum == n).map fun c => s.allotment c.num).sum

/-- F: the buffers which no channel holds. -/
def State.poolFree (s : State) : Nat :=
  s.poolSize - (s.geo.bufs.filter Buf.allotted).length

/-- U: the unclaimed reserve. -/
def State.unclaimed (s : State) : Nat :=
  ((List.finRange 16).map fun n => s.strata[n].reserve - s.held n).sum

/-- Sum of all reserves. -/
def State.reserves (s : State) : Nat := ((List.finRange 16).map fun n => s.strata[n].reserve).sum

/-- R692: the pool is short. -/
def State.poolShort (s : State) : Bool := s.poolConfigured && decide (s.poolFree < s.unclaimed)

/-- R693, R710: a grant of one buffer to a channel is made. (Log entry 25 DEDUCED.) -/
def State.mayGrant (s : State) (c : Chan) : Bool :=
  decide (s.allotment c.num < c.cap) && decide (s.held c.stratum < s.strata[c.stratum].ceiling) &&
    (if s.held c.stratum < s.strata[c.stratum].reserve then decide (1 ≤ s.poolFree)
     else !s.poolShort && decide (s.unclaimed + 1 ≤ s.poolFree))

/-! ### The life of a buffer (R699) -/

/-- A buffer enters the table, by rising number. -/
def insertBuf (l : List Buf) (b : Buf) : List Buf :=
  match l with
  | [] => [b]
  | x :: r => if b.num < x.num then b :: x :: r else if x.num = b.num then b :: r else x :: insertBuf r b

/-- R690: the physical address of a pool buffer's first byte. (Log entries 27 DEDUCED, 158 DESIGN CHOICE.) -/
def State.bufAddr (s : State) (n : Nat) : Option Nat :=
  (s.geo.poolGranules[n / 4]?).join.map fun g => g * granuleBytes + n % 4 * 0x4000

/-- The buffer's granule is in the pool. (Log entry 27 DEDUCED.) -/
def State.bufExists (s : State) (n : Nat) : Bool := (s.bufAddr n).isSome

/-- The lowest-numbered buffer in state POOL. (Log entry 24 DEDUCED.) -/
def State.lowestPool (s : State) : Option Nat :=
  (List.range (4 * s.geo.poolGranules.length)).find? fun n =>
    s.bufExists n && !s.geo.bufs.any fun b => b.num = n

/-- R1151: the buffer which a grant names: the lowest-numbered in POOL, else the lowest-numbered whose
zeroing ends. (Log entry 24 DEDUCED.) -/
def State.grantee (s : State) : Option Nat :=
  match s.lowestPool with
  | some n => some n
  | none => (s.geo.bufs.find? fun b => b.state == .zeroing).map (·.num)

/-- The buffer table changes. -/
def State.modBufs (s : State) (f : List Buf → List Buf) : State :=
  { s with geo := { s.geo with bufs := f s.geo.bufs } }

/-- One buffer is granted to a channel (R699, R1151). -/
def State.grantOne (s : State) (c : Nat) : State :=
  match s.grantee with
  | none => s
  | some n => s.modBufs fun l => insertBuf l { num := n, state := .allotted, chan := c, frame := 0, copy := false }

/-- A buffer goes to ZEROING, and its owner field is cleared. -/
def State.zeroBuf (s : State) (n : Nat) : State :=
  s.modBufs fun l => insertBuf l { num := n, state := .zeroing, chan := 0, frame := 0, copy := false }

/-! ### Room and credits (R702 to R705, R858 to R863) -/

/-- R810: log2 of the credit granularity of a port; the module proposes 12. -/
def Port.gLog2 (p : Port) : Nat := max 12 (fieldNat p.far 28 1)

/-- B of R859: credits in one pool buffer. -/
def Port.perBuf (p : Port) : Nat := 2 ^ (14 - min 14 p.gLog2)

/-- R703: the room of a channel in credits. -/
def State.room (s : State) (c : Chan) : Nat :=
  let b := s.ports[c.port].perBuf
  let filling := s.geo.bufs.any fun x => x.state == .filling && x.chan == c.num
  b * s.spare c.num + (if filling then b - c.used % b else 0)

/-- Credits outstanding to the partner. -/
def Chan.outstanding (c : Chan) : Nat :=
  let d := c.rx.limit - c.rx.consumed
  if d.toNat ≤ 32767 then d.toNat else 0

/-- R495: the position in the round of the slot at the present tick. -/
def State.slotPos (s : State) : Fin 64 := Fin.ofNat 64 (s.tick.toNat * 5 / 1024)

/-- R498: work of a stratum is served now. -/
def State.slotServes (s : State) (n : FnNo) : Bool :=
  match s.slots.table[s.slotPos] with
  | some m => m == n
  | none => !(List.finRange 64).any fun p => s.slots.table[p] == some n

/-- R471, R498: an engine may make an access to host memory for a stratum now, or its job has no side there.
(Log entry 6 DEDUCED.) -/
def State.engineServes (s : State) (n : FnNo) (host : Bool) : Bool :=
  s.slotServes n && (!host || s.fns[n].busMaster)

/-- The CREDIT block of a CH (R838). -/
def creditBlock (ch : Nat) (withdraw : Bool) (limit : W16) : W64 :=
  withChk ([0x78] ++ leBytes 2 (ch + if withdraw then 0x8000 else 0) ++ leBytes 2 limit.toNat)

/-- Starvation up to now is added to a channel's counts (R705). (Log entry 26 DEDUCED.) -/
def State.foldStarved (s : State) (c : Chan) : State :=
  match c.starvedSince with
  | none => s
  | some _ =>
    let d := (s.tick - c.starvedFrom).toNat
    (s.modChan c.num fun x => { x with
      starved := satAdd x.starved d, starvedClr := satAdd x.starvedClr d, starvedFrom := s.tick }).count
      c.stratum 11 d

/-- R703, R861, R864: the module advertises a channel's new credits, and its starvation ends (R705).
(Log entry 26 DEDUCED.) -/
def State.advertise (s : State) (c : Chan) : State :=
  let p := s.ports[c.port]
  if p.st == .active && decide (c.outstanding < s.room c) && s.slotServes c.stratum then
    let limit := c.rx.consumed + BitVec.ofNat 16 (s.room c)
    ((s.foldStarved c).modChan c.num fun x => { x with
      rx := { x.rx with limit }, starvedSince := none, starvedSent := false }).emit
      (.block c.port (creditBlock c.partnerCh false limit))
  else if c.outstanding = 0 && s.room c = 0 && c.starvedSince.isNone then
    s.modChan c.num fun x => { x with starvedSince := some s.tick, starvedFrom := s.tick }
  else s

/-- The channel seeks a grant (R696). (Log entry 25 DEDUCED.) -/
def State.seeks (s : State) (c : Chan) : Bool :=
  decide (s.allotment c.num < c.floor) || (decide (s.allotment c.num < c.cap) && s.spare c.num == 0)

/-- Since when each channel waits for a grant (R697). (Log entry 25 DEDUCED.) -/
def State.noteWaits (s : State) : State :=
  let g := fun (c : Chan) => { c with
    waitSince := if s.seeks c then some (c.waitSince.getD s.tick) else none }
  { s with chans := s.chans.map g }

/-- R712: the pool becomes short, or stops being short. (Log entry 26 DEDUCED.) -/
def State.noteShort (s : State) : State :=
  match s.geo.shortSince with
  | none =>
    if s.poolShort then
      let told := s.liveStrata.filter fun n => n.val = 0 || s.held n < s.strata[n].reserve
      ({ s with geo := { s.geo with shortSince := some s.tick, shortTold := told } }).occurAll told 0x2002
        (BitVec.ofNat 64 (s.unclaimed - s.poolFree)) (BitVec.ofNat 64 s.reserves)
    else s
  | some t =>
    if s.poolShort then s
    else
      let told := s.geo.shortTold.filter fun n => s.liveStrata.contains n
      ({ s with geo := { s.geo with shortSince := none, shortTold := [] } }).occurAll told 0x2003
        (s.tick - t) 0

/-- What follows every change of holdings or terms: shortage, waiting channels and credits. (Log entry 25 DEDUCED.) -/
def State.settlePool (s : State) : State :=
  let t := s.noteShort.noteWaits
  t.forEach (t.chans.map (·.num)) fun c u =>
    match u.chan c with
    | some x => u.advertise x
    | none => u

/-! ### Release and reclaim (R698, R701, R704, R708, R709) -/

/-- R704: the channel can give up one ALLOTTED buffer without uncovering a credit. -/
def State.uncovered (s : State) (c : Chan) : Bool :=
  decide (c.outstanding + s.ports[c.port].perBuf ≤ s.room c)

/-- R708: the stratum is over its ceiling. -/
def State.overCeiling (s : State) (n : FnNo) : Bool := decide (s.strata[n].ceiling < s.held n)

/-- The stratum gives up released buffers: over its ceiling (R708), or beyond its reserve while the pool is
short (R709). -/
def State.shrinks (s : State) (n : FnNo) : Bool :=
  s.overCeiling n ||
    (s.poolShort && decide (s.strata[n].reserve < s.held n))

/-- A FILLING or HELD buffer of a channel is released (R698, R701). (Log entry 24 DEDUCED.) -/
def State.releaseBuf (s : State) (c : Chan) (n : Nat) : State :=
  let t := s.modBufs fun l => insertBuf l { num := n, state := .allotted, chan := c.num, frame := 0, copy := false }
  if decide (c.floor < t.allotment c.num) && t.uncovered c && (decide (2 ≤ t.spare c.num) || t.shrinks c.stratum)
  then t.zeroBuf n else t

/-- The buffers of a channel's frame, or of its wide copy. -/
def State.bufsOf (s : State) (c q : Nat) (copy : Bool) : List Nat :=
  (s.geo.bufs.filter fun b => b.chan == c && b.frame == q && b.copy == copy &&
    (b.state == .filling || b.state == .held)).map (·.num)

/-- R700: the buffers of a channel's frame, or of its wide copy, are released. -/
def State.releaseFrame (s : State) (c q : Nat) (copy : Bool) : State :=
  match s.chan c with
  | none => s
  | some x => s.forEach (s.bufsOf c q copy) fun n t => t.releaseBuf x n

/-- R708: the ALLOTTED buffers of a stratum which no credit covers go to ZEROING while `go` holds, in
descending channel number, from channels above their floors. -/
def State.reclaim (s : State) (n : FnNo) (go : State → Bool) : State :=
  s.forEach ((s.chans.filter fun c => c.stratum == n).reverse.map (·.num)) fun c t =>
    t.forEach ((t.geo.bufs.filter fun b => b.state == .allotted && b.chan == c).map (·.num)) fun b u =>
      match u.chan c with
      | some x => if go u && decide (x.floor < u.allotment c) && u.uncovered x then u.zeroBuf b else u
      | none => u

/-- R708, R709: reclaiming as terms or the pool change: from each stratum which was not over its ceiling in `old` and now
is, and then from every stratum beyond its reserve while the pool is short. -/
def State.reclaimAll (s old : State) : State :=
  let t := s.forEach (List.finRange 16) fun n u => if old.overCeiling n then u else u.reclaim n fun v => v.overCeiling n
  t.forEach (List.finRange 16).reverse fun n u =>
    u.reclaim n fun v => v.poolShort && decide (v.strata[n].reserve < v.held n)

/-- The frame is dropped whole and counted once: its buffers are released (R699). (Log entry 131 DEDUCED.) -/
def State.dropFrame (s : State) (c q : Nat) : State :=
  ((s.releaseFrame c q false).countDrop c).delFrame c q

/-- R707, R1140: the open frame of a channel is dropped at once; the rest of its payload, up to its closing
FRAME_MARK, belongs to no frame. (Log entry 131 DEDUCED.) -/
def State.dropOpen (s : State) (c : Nat) : State :=
  match s.openFrame c with
  | none => s
  | some f =>
    (s.dropFrame c f.seq).modChan c fun x => { x with noFrame := true, strayCounted := true }

/-! ### Payload (R702, R707, R1140) -/

/-- The buffers which hold the open frame take `k` more credits of payload: ALLOTTED buffers become FILLING
and then HELD, lowest number first. Answers none when the channel has no room.
(Log entries 24 DEDUCED, 131 DEDUCED.) -/
def State.fill (s : State) (c : Chan) (q k : Nat) (copy : Bool) (used : Nat) : Option State :=
  let b := s.ports[c.port].perBuf
  let have_ := (s.bufsOf c.num q copy).length
  let total := used + k
  let need := (total + b - 1) / b
  let new := ((s.geo.bufs.filter fun x => x.state == .allotted && x.chan == c.num).map (·.num)).take
    (need - have_)
  if have_ + new.length < need then none
  else
    let t := s.modBufs fun l => l.map fun x =>
      if new.contains x.num || (x.chan == c.num && x.frame == q && x.copy == copy && x.state == .filling) then
        { x with state := .held, frame := q, copy := copy } else x
    let all := t.bufsOf c.num q copy
    if total % b = 0 then some t
    else
      let lastNew := new.getLast?.getD (all.getLast?.getD 0)
      some (t.modBufs fun l => l.map fun x =>
        if x.num = lastNew && x.chan == c.num then { x with state := .filling } else x)

/-- R707: the open frame fills its channel at its cap. (Log entry 131 DEDUCED.) -/
def State.oversize (s : State) (c : Chan) (q : Nat) : Bool :=
  decide (s.allotment c.num = c.cap) && decide ((s.bufsOf c.num q false).length = c.cap)

end Sys2Proof.Machine
end

