-- ==== Sys2Proof/Machine/Notices.lean ====
section
/-!
DEFINITION. Conditions which several families share: caps and clock plans (R58, R94), reproducibility runs
(R978 to R983), timing lapses (R511, R514), the supply gate, and fault records (R1034 to R1037).
-/

namespace Sys2Proof.Machine

/-! ### Caps and plans (R58, R93, R94) -/

/-- R93: the maximum processor power of a plan in W. -/
def planPower (id : BitVec 8) : Nat :=
  match id.toNat with
  | 1 => 160 | 2 => 140 | 3 => 118 | 4 => 96 | 5 => 80 | 6 => 64 | _ => 50

/-- R58: the effective power cap in W. -/
def State.effectiveCap (s : State) : Nat :=
  let c := if s.sup.cap70 then min s.plans.hostCap 70 else s.plans.hostCap
  match s.plans.thermalCap with
  | some t => min c t
  | none => c

/-- The fastest plan which fits a cap; P0400 fits every cap. (Log entry 34 DEDUCED.) -/
def fastestFitting (cap : Nat) : BitVec 8 :=
  (([1, 2, 3, 4, 5, 6, 7] : List Nat).map (BitVec.ofNat 8)).find? (fun p => planPower p ≤ cap) |>.getD 7

/-- R94: the plan which the caps call for. (Log entry 34 DEDUCED.) -/
def State.planCalled (s : State) : BitVec 8 :=
  if planPower s.plans.selected ≤ s.effectiveCap then s.plans.selected else fastestFitting s.effectiveCap

/-! ### Reproducibility runs (R978 to R983, R1006) -/

/-- The mapped logical clusters which a stratum holds. -/
def State.clustersOf (s : State) (n : FnNo) : List LogNo :=
  (List.finRange 64).filter fun l => s.holdsCluster n l && (s.mapping[l]).isSome

/-- RESULT1 of REPRO_BREAK: plan in force, effective cap and logical clusters. -/
def State.reproTerms (s : State) (n : FnNo) : W64 :=
  BitVec.ofNat 64 (s.plans.inForce.toNat + 2 ^ 16 * s.effectiveCap + 2 ^ 32 * (s.clustersOf n).length)

/-- The run record of a stratum changes. -/
def State.modRepro (s : State) (n : FnNo) (f : ReproRun → ReproRun) : State :=
  { s with repro := vmod s.repro n f }

/-- R979, R983: a break ends the stratum's run. -/
def State.reproBreak (s : State) (cause : W64) (n : FnNo) : State :=
  if (s.repro[n].current).isNone then s
  else
    let t := s.modRepro n fun r => { r with current := none }
    if cause = 1 then t else t.occur n 0x7000 cause (s.reproTerms n)

/-- A break of every run. -/
def State.breakAll (s : State) (cause : W64) : State :=
  s.forEach (List.finRange 16) fun n t => t.reproBreak cause n

/-- R978: runs which wait begin once the throttle and the installation have ended. (Log entry 30 DEDUCED.) -/
def State.beginDueRuns (s : State) : State :=
  if s.sup.throttle || s.plans.installing.isSome then s
  else s.forEach (List.finRange 16) fun n t =>
    if t.repro[n].due then
      (t.modRepro n fun r => { r with current := some r.next, due := false, next := r.next + 1 }).occur n 0x7001
        (t.reproTerms n) 0
    else t

/-- R978: a run of the stratum is to begin. (Log entry 30 DEDUCED.) -/
def State.reproBegin (s : State) (n : FnNo) : State :=
  (s.modRepro n fun r => { r with due := true }).beginDueRuns

/-- R54, R87, R980: the fast throttle is asserted: REPRO_VOID, a break of cause 0x01 of every run, and the
count of R1095. (Log entry 37 DEDUCED.) -/
def State.throttle (s : State) : State :=
  let t := { s with
    sup := { s.sup with throttle := true }
    telem := { s.telem with throttles := satAdd s.telem.throttles (if s.sup.throttle then 0 else 1) } }
  let reproducible := t.liveStrata.filter fun n => t.strata[n].repro
  (t.occurAll reproducible 0x6003 t.tick 0).breakAll 1

/-! ### Timing lapses (R510, R511, R514) -/

/-- The existing ISOLATED strata. -/
def State.isolatedStrata (s : State) : List FnNo := s.liveStrata.filter fun n => s.strata[n].isolated

/-- R511: a condition begins for strata: each which does not know it already is told. (Log entry 33 DEDUCED.) -/
def State.lapse (s : State) (cause : BitVec 8) (unit : W16) (l : List FnNo) : State :=
  s.forEach l fun n t =>
    if t.slots.lapses.any fun x => x.stratum = n && x.cause = cause && x.unit = unit && !x.ended then t
    else
      let l : Lapse := { stratum := n, cause, unit, since := t.tick, ended := false }
      let u : State := { t with slots := { t.slots with lapses := t.slots.lapses ++ [l] } }
      u.occur n 0x1001 (cause.setWidth 64) (unit.setWidth 64)

/-- R511: a condition ends; TIMING_RESTORED follows at a round's start. (Log entry 33 DEDUCED.) -/
def State.lapseEnds (s : State) (cause : BitVec 8) (unit : W16) : State :=
  let gone := s.slots.lapses.filter fun x => x.cause = cause && x.unit = unit && !x.ended
  let rest := s.slots.lapses.filter fun x => !(x.cause = cause && x.unit = unit && !x.ended)
  let mark := fun (x : Lapse) => { x with ended := true }
  { s with slots := { s.slots with lapses := rest ++ gone.map mark } }

/-- R511, R514: at a round's start, a stratum whose last lapse has ended is told, with the cause which ended
last. (Log entry 33 DEDUCED.) -/
def State.restoreTiming (s : State) : State :=
  s.forEach (List.finRange 16) fun n t =>
    let mine := t.slots.lapses.filter fun x => x.stratum = n
    match mine.head?, mine.getLast? with
    | some _, some b =>
      if mine.all Lapse.ended then
        let since := (mine.map fun x => x.since.toNat).foldl min b.since.toNat
        let rest := t.slots.lapses.filter fun x => x.stratum ≠ n
        let u : State := { t with slots := { t.slots with lapses := rest } }
        u.occur n 0x1002 (b.cause.setWidth 64) (t.tick - BitVec.ofNat 64 since)
      else t
    | _, _ => t

/-! ### Installing a plan (R97 to R100, R62, R318, R324) -/

/-- R979, R511: the installation of a plan starts. `capCaused` is true when a cap's beginning, step or end
calls for it. -/
def State.startInstall (s : State) (plan : BitVec 8) (capCaused : Bool) : State :=
  let t := ({ s with plans := { s.plans with installing := some plan, capMoved := false } }).breakAll 2
  if capCaused then t else t.lapse 3 0xFFFF t.isolatedStrata

/-- The supervisor installs plans: the clocks have started, and it serves (R56, R57, R181). (Log entry 35 DEDUCED.) -/
def State.planner (s : State) : Bool :=
  s.sup.power == .active && !s.boot.fatal && !s.boot.inReset && !s.boot.resetPending &&
    (s.boot.phase == phGeodeTest || s.boot.phase == phClusterTest || s.boot.phase == phMapping ||
      s.boot.phase == phReady || s.boot.phase == phScrub || s.boot.phase == phFailed)

/-- The plan called for is installed when it is not in force and no installation is under way (R62).
(Log entries 32 DEDUCED, 35 DEDUCED.) -/
def State.callPlan (s : State) (capCaused : Bool) : State :=
  if !s.planner || s.plans.installing.isSome || s.planCalled = s.plans.inForce then s
  else s.startInstall s.planCalled capCaused

/-! ### The supply gate -/

/-- The active source in 10 mV. (Log entry 36 DEDUCED.) -/
def Supply.active (p : Supply) : Nat := if p.onAux then p.vinAux else p.vinMain

/-- HIF_SUPPLY_STATUS (R83): its RO fields as last refreshed, and SWITCHED. (Log entry 90 DEDUCED.) -/
def State.supplyStatus (s : State) : W32 := if s.sup.switched then s.sup.shown ||| 0x1000 else s.sup.shown

/-- The supply gate holds (R148: never once the monitor has failed its check). (Log entry 36 DEDUCED.) -/
def State.gate (s : State) : Bool :=
  decide (1100 ≤ s.sup.active) && decide (90 ≤ s.sup.charge) && !s.sup.monitorFailed &&
    (s.sup.power == .standby || s.sup.power == .active)

/-! ### Fault records (R78, R1034 to R1037, R1047, R1048) -/

/-- A record is written into the ring: the last slot of each sector is left free (R1048), and a first record
in a sector erases the following one (R1047). -/
def FaultLog.commit (l : FaultLog) (r : FaultRec) : FaultLog :=
  let slot := if l.slot % 64 = 63 then (l.slot + 1) % 32768 else l.slot
  let kept := if slot % 64 = 0 then l.recs.filter fun x => x.1 / 64 ≠ (slot / 64 + 1) % 512 && x.1 / 64 ≠ slot / 64 else l.recs
  { l with recs := kept ++ [(slot, r)], slot := (slot + 1) % 32768 }

/-- Held records are committed while the gate holds (R78). (Log entry 79 DEDUCED.) -/
def State.commitFaults (s : State) : State :=
  if s.gate then
    { s with
      faults := { s.faults.held.foldl FaultLog.commit s.faults with held := [] }
      telem := { s.telem with records := satAdd s.telem.records s.faults.held.length } }
  else s

/-- The bit mask of strata. (Log entry 39 DEDUCED.) -/
def strataMask (l : List FnNo) : W16 := l.foldl (fun m n => m ||| (1#16 <<< n.val)) 0

/-- A fault record of a condition which arose at a tick is made; it is committed when the supply gate holds (R78).
Answers its INDEX. -/
def State.faultAt (s : State) (tick : Tick) (cls cause : BitVec 8) (unit strata : W16) (action logical : BitVec 8)
    (newUnit : W16) (detail : BitVec 224) : State × Nat :=
  let r : FaultRec := { index := s.faults.next, cls, cause, unit, tick, strata, action, logical,
                        newUnit, boot := s.faults.boots, detail }
  (({ s with faults := { s.faults with held := s.faults.held ++ [r], next := s.faults.next + 1 } }).commitFaults,
    s.faults.next)

/-- A fault record of a condition which arises now. (Log entry 39 DEDUCED.) -/
def State.fault (s : State) (cls cause : BitVec 8) (unit strata : W16) (action logical : BitVec 8) (newUnit : W16)
    (detail : BitVec 224) : State × Nat := s.faultAt s.tick cls cause unit strata action logical newUnit detail

/-- R1043: UNIT_FAILED to stratum 0 and to each stratum which lost something. -/
def State.unitFailed (s : State) (unit : W16) (cause action : BitVec 8) (strata : List FnNo) (index : Nat) :
    State :=
  let dests := (List.finRange 16).filter fun n => n.val = 0 || (strata.contains n && s.liveStrata.contains n)
  s.occurAll dests 0xA000 (BitVec.ofNat 64 (unit.toNat + 2 ^ 16 * cause.toNat + 2 ^ 24 * action.toNat))
    (BitVec.ofNat 64 index)

end Sys2Proof.Machine
end

