-- ==== Sys2Proof/Machine/Link.lean ====
section
/-!
DEFINITION. The link layer of a Poica port (19): what a port shows of itself, frames and blocks, the replay
buffer of a transmitter, the acceptance of items by a receiver, credits and link violations.
-/

namespace Sys2Proof.Machine

/-! ### What a port shows (R381, R382, R810, R824) -/

/-- Lanes in a mask. -/
def laneCount (m : BitVec 4) : Nat := ((List.range 4).filter fun i => m.getLsbD i).length

/-- R799: the code of a port state. -/
def PState.code : PState → Nat
  | .disabled => 0 | .detect => 1 | .equalize => 2 | .align => 3 | .negotiate => 4 | .active => 5
  | .retrain => 6

/-- WIDTH of R382: the lanes in use, in ACTIVE and RETRAIN. -/
def Port.width (p : Port) : Nat := if p.st == .active || p.st == .retrain then laneCount p.inUse else 0

/-- R381: RESULT0 of a PORT_TRAIN completion record. -/
def Port.res (p : Port) : W64 :=
  BitVec.ofNat 64 (p.st.code + 2 ^ 8 * p.width + 2 ^ 16 * p.lanes.toNat + 2 ^ 24 * p.reason.toNat)

/-- R381, R811: the partner's IDENTITY. -/
def Port.partnerId (p : Port) : List Byte := (p.far.drop 4).take 16

/-- R381: bytes 0 to 7 of the partner's IDENTITY, or zero. -/
def Port.partnerLow (p : Port) : W64 := BitVec.ofNat 64 (fieldNat p.far 4 8)

/-- R810: the agreed setting latency, on a port in role 0x00. -/
def Port.latency (p : Port) : Nat := if p.role = 0 then fieldNat p.far 21 1 else 0

/-- R810: the channel count which the partner announced. -/
def Port.farChannels (p : Port) : Nat := fieldNat p.far 22 2

/-- A bit of CAPS of the partner's record. -/
def Port.farCap (p : Port) (b : Nat) : Bool := (fieldNat p.far 29 1).testBit b

/-- The strata with a channel bound to a port. -/
def State.portStrata (s : State) (p : PortNo) : List FnNo :=
  (List.finRange 16).filter fun n => s.chans.any fun c => c.port == p && c.stratum == n

/-- The port changes. -/
def State.modPort (s : State) (p : PortNo) (f : Port → Port) : State := { s with ports := vmod s.ports p f }

/-- The lane changes. -/
def State.modLane (s : State) (l : LaneNo) (f : LaneSt → LaneSt) : State := { s with lanes := vmod s.lanes l f }

/-- R824: PORT_STATE to stratum 0 and to each stratum with a channel on the port. (Log entry 63 DEDUCED.) -/
def State.notePort (s : State) (p : PortNo) : State :=
  s.occurAll ((List.finRange 16).filter fun n => n.val = 0 || (s.portStrata p).contains n) 0x4000
    s.ports[p].res (BitVec.ofNat 64 p.val)

/-- R511, R824: a width change or RETRAIN begins. (Log entry 71 DEDUCED.) -/
def State.portLapse (s : State) (p : PortNo) : State :=
  s.lapse 5 (unitId 5 p.val) (s.isolatedStrata.filter fun n => (s.portStrata p).contains n)

/-- R511, R824: a width change or RETRAIN ends. -/
def State.portLapseEnds (s : State) (p : PortNo) : State := s.lapseEnds 5 (unitId 5 p.val)

/-- Lane `i` of a port. -/
def laneOf (p : PortNo) (i : Fin 4) : LaneNo := ⟨4 * p.val + i.val, by omega⟩

/-- The port of a lane. -/
def portOf (l : LaneNo) : PortNo := ⟨l.val / 4, by omega⟩

/-- The mask bit of a lane on its port. -/
def laneBit (l : LaneNo) : BitVec 4 := 1#4 <<< (l.val % 4)

/-! ### Link violations (R888) -/

/-- R888: LINK_VIOLATION to stratum 0 and to the owning stratum of a bound CH, at most one per port and cause
per millisecond. (Log entries 62 DEDUCED, 63 DEDUCED.) -/
def State.violation (s : State) (p : PortNo) (cause : BitVec 8) (ch : Nat) : State :=
  let chan := s.chans.find? fun c => c.port == p && c.partnerCh == ch
  let old := s.ports[p].violations.find? fun v => v.cause = cause
  let rest := s.ports[p].violations.filter fun v => v.cause ≠ cause
  match old with
  | some v =>
    if s.tick - v.last < 800000 then
      s.modPort p fun q => { q with violations := rest ++ [{ v with since := v.since + 1 }] }
    else send chan rest (v.since + 1)
  | none => send chan rest 1
where
  /-- The record is sent. -/
  send (chan : Option Chan) (rest : List Violation) (n : Nat) : State :=
    let dests := (List.finRange 16).filter fun k =>
      k.val = 0 || (match chan with | some c => c.stratum == k | none => false)
    (s.modPort p fun q => { q with violations := rest ++ [{ cause, last := s.tick, since := 0 }] }).occurAll dests
      0x4001 (BitVec.ofNat 64 (cause.toNat + 2 ^ 8 * p.val + 2 ^ 16 * ch))
      (BitVec.ofNat 64 ((match chan with | some c => c.num | none => 0xFFFF) + 2 ^ 32 * n))

/-! ### Transmitting (R839 to R842, R845, R849 to R853) -/

/-- Zero bytes up to a multiple of eight. -/
def padTo8 (n : Nat) : List Byte := List.replicate ((8 - n % 8) % 8) 0

/-- R839, R841: a link-layer frame. -/
def frameBytes (ftype ch seq sbits : Nat) (payload : List Byte) : List Byte :=
  let body := leBytes 2 (ftype * 4096 + ch) ++ leBytes 2 seq ++ leBytes 2 payload.length ++ leBytes 1 sbits ++
    [0] ++ payload ++ padTo8 payload.length
  body ++ leBytes 4 (crc32c body).toNat ++ List.replicate 4 0

/-- R850: bytes which the items of a replay buffer take. -/
def replaySize (l : List Item) : Nat := (l.map fun i => i.bytes.length).sum

/-- R850: a new item of so many bytes can be sent. -/
def Port.canSend (p : Port) (n : Nat) : Bool :=
  p.st == .active && decide (replaySize p.replay + n ≤ 65536) && decide (p.replay.length < 16384)

/-- One item leaves the port. -/
def State.emitItem (s : State) (p : PortNo) (i : Item) : State :=
  if i.frame then s.emit (.frame p i.bytes) else s.emit (.block p (BitVec.ofNat 64 (leNat i.bytes)))

/-- R845, R849: a new item is numbered, sent, and kept in the replay buffer. -/
def State.sendItem (s : State) (p : PortNo) (frame : Bool) (bytes : List Byte) : State :=
  let q := s.ports[p]
  let i : Item := { seq := q.txSeq, bytes, frame }
  (s.modPort p fun x => { x with
    txSeq := x.txSeq + 1, replay := x.replay ++ [i]
    oldestSent := if x.replay.isEmpty then s.tick else x.oldestSent
    oldestResent := if x.replay.isEmpty then 0 else x.oldestResent }).emitItem p i

/-- A new frame is sent. -/
def State.sendFrame (s : State) (p : PortNo) (ftype ch : Nat) (payload : List Byte) : State :=
  s.sendItem p true (frameBytes ftype ch s.ports[p].txSeq.toNat 0 payload)

/-- A new FRAME_MARK is sent. -/
def State.sendMark (s : State) (p : PortNo) (ch : Nat) : State :=
  s.sendItem p false (blockBytes (withChk ([0xAA] ++ leBytes 2 ch ++ leBytes 2 s.ports[p].txSeq.toNat)))

/-- The IDLE block (R785). -/
abbrev idleBlock : W64 := 0x1E

/-- R851, R852, R853: every item of the replay buffer from a number onward is sent again, after one IDLE. -/
def State.replayFrom (s : State) (p : PortNo) (seq : W16) : State :=
  let again := s.ports[p].replay.filter fun i => decide ((i.seq - seq).toNat ≤ 32767)
  let fromOldest : Bool := match s.ports[p].replay.head? with | some i => i.seq == seq | none => false
  let t := s.modPort p fun q => { q with
    replays := satAdd q.replays again.length, oldestSent := s.tick
    oldestResent := cond fromOldest (q.oldestResent + 1) q.oldestResent }
  (t.emit (.block p idleBlock)).forEach again fun i u => u.emitItem p i

/-- R854: LINK_VIOLATION of cause 0x05 when the oldest item has been resent four times. -/
def State.noteStuck (s : State) (p : PortNo) : State :=
  if s.ports[p].oldestResent = 4 then s.violation p 5 0xFFF else s

/-- R849: an ACK of a number, or a NAK of the number after it, frees what it covers. -/
def State.coverItems (s : State) (p : PortNo) (upTo : W16) : State :=
  let left := s.ports[p].replay.filter fun i => ! decide ((upTo - i.seq).toNat ≤ 32767)
  if left.length = s.ports[p].replay.length then s
  else s.modPort p fun q => { q with replay := left, oldestSent := s.tick, oldestResent := 0 }

/-! ### Credits as transmitter (R859, R860, R862, R865) -/

/-- R859: credits which a frame of so many payload bytes consumes. -/
def Port.creditsOf (p : Port) (n : Nat) : Nat := (n + 2 ^ p.gLog2 - 1) / 2 ^ p.gLog2

/-- R860: a frame which consumes `k` credits may be sent. -/
def Credit.allows (c : Credit) (k : Nat) : Bool :=
  decide ((c.limit - c.consumed - BitVec.ofNat 16 k).toNat ≤ 32767)

/-- R862: a new LIMIT counts when it lies ahead of the present one. -/
def Credit.update (c : Credit) (limit : W16) : Credit :=
  let d := (c.limit - limit).toNat
  if 32769 ≤ d then { c with limit } else c

/-! ### Receiving (R843, R846 to R848) -/

/-- The ACK_NAK block of a kind. (Log entry 61 DEDUCED.) -/
def ackBlock (kind : Byte) (seq : W16) : W64 := withChk ([0x87, kind] ++ leBytes 2 seq.toNat)

/-- R843, R847: an item met a link error, or lies ahead: NAK, unless one was sent within 10 µs.
(Log entry 61 DEDUCED.) -/
def State.sendNak (s : State) (p : PortNo) : State :=
  let q := s.ports[p]
  let wait := match q.nakAt with | some t => decide (s.tick - t < 8000) | none => false
  if wait then s
  else (s.modPort p fun x => { x with nakAt := some s.tick }).emit (.block p (ackBlock 0x20 q.rxSeq))

/-- R847, R848: an intact item arrives; answers whether it is accepted. (Log entry 61 DEDUCED.) -/
def State.rxItem (s : State) (p : PortNo) (seq : W16) : State × Bool :=
  let q := s.ports[p]
  if seq = q.rxSeq then
    ((s.modPort p fun x => { x with rxSeq := x.rxSeq + 1, nakAt := none }).emit
      (.block p (ackBlock 0x10 seq)), true)
  else if (q.rxSeq - seq).toNat ≤ 32768 then (s.emit (.block p (ackBlock 0x10 (q.rxSeq - 1))), false)
  else (s.sendNak p, false)

/-- FTYPE, CH, SEQ, LENGTH and SBITS of a frame header, when the header is legal (R839, R843). -/
structure RxHead where
  ftype : Nat
  ch : Nat
  seq : W16
  len : Nat
  sbits : Nat
  deriving DecidableEq, Repr

/-- FTYPE as it stands in the first bytes. -/
def rawFtype (bs : List Byte) : Nat := fieldNat bs 0 2 / 4096

/-- LKIND of a LOCKSTEP frame as it stands. (Log entry 119 DEDUCED.) -/
def rawLkind (bs : List Byte) : Nat := fieldNat bs 8 1

/-- R839, R843: the header, unless it is a link error. -/
def rxHead (bs : List Byte) : Option RxHead :=
  let len := fieldNat bs 4 2
  let ftype := rawFtype bs
  if ftype = 0 || 3 < ftype || len = 0 || 4096 < len || fieldNat bs 7 1 != 0 then none
  else some { ftype, ch := fieldNat bs 0 2 % 4096, seq := BitVec.ofNat 16 (fieldNat bs 2 2), len,
              sbits := fieldNat bs 6 1 }

/-- R841: the frame is whole and its CRC holds. -/
def frameIntact (bs : List Byte) (len : Nat) : Bool :=
  let n := 8 + (len + 7) / 8 * 8
  bs.length == n + 8 && fieldNat bs n 4 == (crc32c (bs.take n)).toNat

/-- R843: a link error. -/
def State.linkError (s : State) (p : PortNo) : State :=
  (s.modPort p fun q => { q with crcErrors := satAdd q.crcErrors 1, skipping := true }).sendNak p

/-- A link-layer frame arrives. Answers its header and payload when it is accepted (R847). -/
def State.rxFrame (s : State) (p : PortNo) (bs : List Byte) : State × Option (RxHead × List Byte) :=
  let q := s.ports[p]
  if q.st != .active || q.skipping then (s, none)
  else
    match rxHead bs with
    | none => (s.linkError p, none)
    | some h =>
      if frameIntact bs h.len then
        let r := s.rxItem p h.seq
        (r.1, if r.2 then some (h, (bs.drop 8).take h.len) else none)
      else (s.linkError p, none)

end Sys2Proof.Machine
end

