-- ==== Sys2Proof/Machine/Frames.lean ====
section
/-!
DEFINITION. Frame results (R416 to R420) and what they bring with them: lock-step digests (R998 to R1002),
the release of a frame's buffers, the end of a channel's binding (R395, R1138), and the commands of a
stratum which ends (R295).
-/

namespace Sys2Proof.Machine

/-- The lock-step record changes. -/
def State.modLock (s : State) (f : Lock → Lock) : State := { s with lock := f s.lock }

/-! ### SYSTEM space (R891, R1138) -/

/-- Owner number by which the model marks granules taken for tile logs (R1000). -/
abbrev lockOwner : Nat := 4096

/-- One free part of a SYSTEM granule, lowest first; else a FREE granule is marked SYSTEM. (Log entry 24 DEDUCED.) -/
def State.takePart (s : State) (owner : Nat) : State :=
  let free := s.geo.marks.findSome? fun m =>
    match m.2 with
    | .system none b => some (m.1, Mark.system (some owner) b)
    | .system a none => some (m.1, Mark.system a (some owner))
    | _ => none
  match free with
  | some (g, m) => s.markGranule g m
  | none =>
    match s.placeAfter s.geo.lastSystem with
    | none => s
    | some g =>
      let t := s.markGranule g (.system (some owner) none)
      { t with geo := { t.geo with lastSystem := g / 512 } }

/-- Free parts and FREE granules suffice for `n` more parts. -/
def State.partsAvailable (s : State) (n : Nat) : Bool :=
  let free := (s.geo.marks.map fun m =>
    match m.2 with
    | .system a b => (if a.isNone then 1 else 0) + (if b.isNone then 1 else 0)
    | _ => 0).sum
  decide (n ≤ free + 2 * s.freeGranules)

/-- The parts of an owner are released; a granule without a held part returns to FREE. -/
def State.releaseParts (s : State) (owner : Nat) : State :=
  let gone := fun (o : Option Nat) => if o = some owner then none else o
  s.forEach s.geo.marks fun m t =>
    match m.2 with
    | .system a b =>
      if gone a = a ∧ gone b = b then t
      else if (gone a).isNone && (gone b).isNone then t.freeGranule m.1
      else t.markGranule m.1 (.system (gone a) (gone b))
    | _ => t

/-! ### Unbinding (R395, R699, R863, R873) -/

/-- The channel's end: its credits are withdrawn, its buffers zeroed, its frames without result dropped, its
SYSTEM space returned, and its counter cleared (R1102). -/
def State.unbindNow (s : State) (c : Nat) : State :=
  match s.chan c with
  | none => s
  | some x =>
    let t := s.dropOpen c
    let t := t.forEach (t.frames.filter fun f => f.chan == c) fun f u => u.dropFrame c f.seq
    let t := t.modPort x.port fun p => { p with
      withdrawn := (p.withdrawn.filter fun w => w.1 ≠ x.partnerCh) ++ [(x.partnerCh, x.rx, x.used)]
      farCredits := if x.kind1 then spPut p.farCredits x.partnerCh x.q.tx else p.farCredits }
    let t := if t.ports[x.port].st == .active then
        t.emit (.block x.port (creditBlock x.partnerCh true x.rx.limit)) else t
    let t := t.forEach ((t.geo.bufs.filter fun b =>
      b.chan == c && b.allotted).map (·.num)) fun b u => u.zeroBuf b
    let t : State := { t with
      chans := t.chans.filter fun y => y.num ≠ c
      runs := t.runs.filter fun r => r.chan ≠ c
      loaded := t.loaded.map fun o => if o = some c then none else o
      deliveries := t.deliveries.filter fun d => d.chan ≠ c }
    (State.reclaimAll ((t.releaseParts c).modLock fun l => { l with
      area := l.area.filter fun e => e.1 ≠ c
      rejoin := l.rejoin.filter (· ≠ c) }) s).settlePool

/-- R395: a CHAN_UNBIND whose channel has been switched ends once every frame which was closed on the former route has
run to its end (R297, R874, R925). -/
def State.endUnbind (s : State) (c : Nat) : State :=
  match s.chan c with
  | none => s
  | some x =>
    match x.pending with
    | none => s
    | some r =>
      if r.unbind && r.switched && x.q.offers.isEmpty && !s.frames.any fun f => f.chan == c && f.stage != .opened then
        let t := s.dropOpen c
        let dropped := match t.chan c with | some y => y.dropped | none => x.dropped
        (t.unbindNow c).completeOk r.id (BitVec.ofNat 64 x.marks) dropped
      else s

/-- Every CHAN_UNBIND which waits for frame results is looked at. -/
def State.endUnbinds (s : State) : State :=
  s.forEach (s.chans.map (·.num)) fun c t => t.endUnbind c

/-! ### LOCKSTEP frames (R855, R1003) -/

/-- A LOCKSTEP payload: the subheader and its records. -/
def lockPayload (kind count : Nat) (records : List Byte) : List Byte :=
  leBytes 1 kind ++ [0] ++ leBytes 2 count ++ List.replicate 4 0 ++ records

/-- A frame whose result is written and whose items are all forwarded releases its buffers (R996). -/
def State.releaseForwarded (s : State) : State :=
  s.forEach (s.frames.filter fun f => f.stage == .forwarding) fun f t =>
    if t.lock.sendq.any fun e => e.1 == some (f.chan, f.seq) then t
    else (t.releaseFrame f.chan f.seq false).delFrame f.chan f.seq

/-- LOCKSTEP payloads which wait are sent while credit and the replay buffer allow it. (Log entry 60 DEDUCED.) -/
def State.flushLock : Nat → State → State
  | 0, s => s
  | n + 1, s =>
    match s.lock.sendq with
    | [] => s
    | e :: rest =>
      let p := s.ports[7]
      let k := p.creditsOf e.2.length
      if p.canSend (16 + (e.2.length + 7) / 8 * 8) && p.lockTx.allows k then
        let t := ((s.modLock fun l => { l with sendq := rest }).modPort 7 fun q => { q with
          lockTx := { q.lockTx with consumed := q.lockTx.consumed + BitVec.ofNat 16 k } }).sendFrame 7 3 4095 e.2
        t.flushLock n
      else s

/-- Everything of the LOCKSTEP queue which can be sent is sent. (Log entry 60 DEDUCED.) -/
def State.pumpLock (s : State) : State :=
  (s.flushLock s.lock.sendq.length).releaseForwarded.settlePool.endUnbinds

/-- A LOCKSTEP payload is to be sent; `item` names the frame whose item it forwards. -/
def State.lockSend (s : State) (item : Option (Nat × Nat)) (payload : List Byte) : State :=
  (s.modLock fun l => { l with sendq := l.sendq ++ [(item, payload)] }).pumpLock

/-! ### Digests (R997 to R1002) -/

/-- A tile signature takes its place in digest order: by position, then by micro-operation.
(Log entry 130 DEDUCED.) -/
def insertSig (l : List TileSig) (x : TileSig) : List TileSig :=
  match l with
  | [] => [x]
  | y :: r => if x.position < y.position ∨ (x.position = y.position ∧ x.uop < y.uop) then x :: y :: r
              else y :: insertSig r x

/-- R998: the digest over tile signatures and OUTPUTS. (Log entry 130 DEDUCED.) -/
def digestValue (sigs : List TileSig) (outs : List Byte) : W64 :=
  crc64 ((sigs.map fun x => leBytes 8 x.sig.toNat).flatten ++ outs)

/-- R1003: a DIGEST record. (Log entry 130 DEDUCED.) -/
def digestRecord (d : Digest) : List Byte :=
  leBytes 8 d.pairSeq ++ leBytes 2 d.chan ++ leBytes 1 d.flags.toNat ++ [0] ++ leBytes 4 d.tiles ++
    leBytes 8 d.digest.toNat ++ leBytes 4 d.conditions.toNat ++ List.replicate 4 0

/-- R1003: CONDITIONS of a digest. -/
def State.conditions (s : State) (n : FnNo) : W32 :=
  BitVec.ofNat 32 (s.plans.inForce.toNat + 2 ^ 8 * (s.clustersOf n).length + 2 ^ 16 * s.effectiveCap)

/-- R1002: a divergence is located: the first one is recorded and reported. -/
def State.located (s : State) (d : Divergence) : State :=
  match s.lock.first with
  | some _ => s
  | none =>
    (s.modLock fun l => { l with first := some d }).occurAt s.lock.target 0x7003 s.tick d.pairSeq
      (BitVec.ofNat 64 (d.chan + 2 ^ 16 * d.position + 2 ^ 24 * d.cluster + 2 ^ 32 * d.peerCluster +
        2 ^ 40 * d.uop + 2 ^ 56 * d.kind.toNat))
      (d.frameSeq.setWidth 192 |||
        (if d.kind = 1 then (d.mine.setWidth 192 <<< 64) ||| (d.peer.setWidth 192 <<< 128) else 0))

/-- A divergence located to the channel-frame alone. (Log entry 118 DEDUCED.) -/
def Digest.wholeFrame (d : Digest) : Divergence :=
  { kind := 2, pairSeq := BitVec.ofNat 64 d.pairSeq, chan := d.chan, position := 0, cluster := 0,
    peerCluster := 0, prog := d.prog, uop := 0, frameSeq := d.frameSeq, mine := 0, peer := 0 }

/-- The tile log which this module keeps of a channel-frame. -/
def Lock.log (l : Lock) (chan q : Nat) : Option (List TileSig) :=
  (l.logs.find? fun e => e.1 == chan && e.2.1 == q).map (·.2.2)

/-- R999, R1001: a digest of this side meets the peer's. -/
def State.compareDigests (s : State) (mine peer : Digest) : State :=
  let drop := fun (l : Lock) => { l with
    mine := l.mine.filter fun d => !(d.chan == mine.chan && d.pairSeq == mine.pairSeq)
    peers := l.peers.filter fun d => !(d.chan == mine.chan && d.pairSeq == mine.pairSeq) }
  let dropLog := fun (l : Lock) => { l with
    logs := l.logs.filter fun e => !(e.1 == mine.chan && e.2.1 == mine.pairSeq) }
  let t := s.modLock drop
  if (mine.flags ||| peer.flags) &&& 3 ≠ 0 ∨ mine.conditions ≠ peer.conditions then
    t.modLock fun l => { dropLog l with skipped := l.skipped + 1 }
  else
    let t := t.modLock fun l => { l with
      compared := l.compared + 1, comparedTiles := l.comparedTiles + BitVec.ofNat 64 mine.tiles }
    if mine.digest = peer.digest then t.modLock dropLog
    else
      let t := t.modLock fun l => { l with divergent := l.divergent + 1 }
      match t.lock.log mine.chan mine.pairSeq with
      | none => t.located mine.wholeFrame
      | some _ =>
        (t.modLock fun l => { l with asked := l.asked ++ [(mine, [])] }).lockSend none
          (lockPayload 2 1 (leBytes 8 mine.pairSeq ++ leBytes 2 mine.chan ++ List.replicate 6 0))

/-- Entries which the tile log can hold: 16 bytes each in the granules taken (R1000; the size of an entry is
the model's reading). -/
def Lock.logRoom (l : Lock) : Nat := 4096 * l.granules.length

/-- R1000: the oldest logs are dropped until the rest fits. -/
def trimLogs (room : Nat) : List (Nat × Nat × List TileSig) → List (Nat × Nat × List TileSig)
  | [] => []
  | e :: r => if ((e :: r).map fun x => x.2.2.length).sum ≤ room then e :: r else trimLogs room r

/-- R1000: the module holds as many uncompared digests as it can. -/
def Lock.full (l : Lock) : Bool := decide (65536 ≤ l.mine.length + l.peers.length)

/-- R998, R1000: the digest of a channel-frame whose result is written is formed, sent and compared. -/
def State.formDigest (s : State) (f : Frame) (prog : Nat) (outside aborted : Bool) (outs : List Byte) : State :=
  match f.pairSeq with
  | none => s
  | some q =>
    if s.lock.st != .paired then s
    else
      let logs := trimLogs s.lock.logRoom (s.lock.logs ++ [(f.chan, q, f.sigs)])
      let kept := logs.any fun e => e.1 == f.chan && e.2.1 == q
      let d : Digest := {
        chan := f.chan, pairSeq := q
        flags := BitVec.ofNat 8 ((if outside then 1 else 0) + (if aborted then 2 else 0) + (if kept then 4 else 0))
        tiles := f.sigs.length, digest := digestValue f.sigs outs, conditions := s.conditions s.lock.target
        frameSeq := BitVec.ofNat 64 f.seq, prog }
      let t := s.lockSend none (lockPayload 1 1 (digestRecord d))
      match t.lock.peers.find? fun e => e.chan == d.chan && e.pairSeq == d.pairSeq with
      | some e => (t.modLock fun l => { l with logs }).compareDigests d e
      | none =>
        if t.lock.full then t.modLock fun l => { l with skipped := l.skipped + 1 }
        else t.modLock fun l => { l with mine := l.mine ++ [d], logs }

/-! ### Frame results (R416 to R420, R981, R982) -/

/-- The program of a stratum by PROG_ID. -/
def State.prog (s : State) (n : FnNo) (pid : Nat) : Option Prog :=
  s.progs.find? fun p => p.stratum == n && p.id == pid

/-- The program whose launch has a serial number. -/
def State.progOf (s : State) (serial : Nat) : Option Prog :=
  s.progs.find? fun p => match p.launch with | some l => l.serial == serial | none => false

/-- The program changes. -/
def State.modProg (s : State) (n : FnNo) (pid : Nat) (f : Prog → Prog) : State :=
  let g := fun (p : Prog) => if p.stratum = n ∧ p.id = pid then f p else p
  { s with progs := s.progs.map g }

/-- R416: the 256 bytes of a frame result, with PHASE, OUTSIDE and RASTER zero. -/
def resultBytes (l : Launch) (pid : Nat) (f : Frame) (status : W16) (done : Tick) (outs : List Byte) :
    List Byte :=
  leBytes 1 (if f.retried then 8 else 0) ++
  leBytes 1 (if l.binary32 then 1 else 0) ++ leBytes 2 status.toNat ++ leBytes 2 f.chan ++ leBytes 1 pid ++
  [0] ++ leBytes 8 f.seq ++ leBytes 8 f.markTick.toNat ++ leBytes 8 done.toNat ++ leBytes 2 outs.length ++
  leBytes 2 0xFFFF ++ leBytes 4 0 ++ leBytes 8 f.record ++
  List.replicate 16 0 ++ (outs ++ List.replicate 192 0).take 192

/-- R981: the channel-frame is covered at this moment. -/
def State.covered (s : State) (n : FnNo) (f : Frame) : Bool :=
  f.runNo.isSome && f.runNo == s.repro[n].current

/-- Flag bits are set in byte 0 of a result. -/
def setFlags (b : List Byte) (v : Byte) : List Byte :=
  match b with
  | [] => []
  | x :: r => (x ||| v) :: r

/-- RASTER and RASTER_SLOT of a result (R416): `raster` is the slot plus 1, or 0. -/
def withRaster (b : List Byte) (raster : Nat) : List Byte :=
  setFlags ((b.take 34) ++ leBytes 2 (if raster = 0 then 0xFFFF else raster - 1) ++ b.drop 36)
    (if raster = 0 then 0 else 2)

/-- R420: a result is announced by a message, or waits to be. -/
def State.announce (s : State) (n : FnNo) (pid : Nat) : State :=
  match s.prog n pid with
  | none => s
  | some p =>
    match p.launch with
    | none => s
    | some l =>
      if l.vector = 0 then s
      else if 2 ^ l.modLog2 ≤ p.ring.unannounced then
        (s.modProg n pid fun x => { x with ring := { x.ring with unannounced := 0 } }).sendMsix n
          (Fin.ofNat 64 l.vector)
      else s

/-- R127, R553: what was in flight at a cluster has ended: a load has filled its slot, and no step uses one.
(Log entry 154 DEDUCED.) -/
def OpSlot.settle (x : OpSlot) : OpSlot :=
  if x.state = .filling || x.state = .inUse then { x with state := .resident, users := 0 } else x

/-- See `OpSlot.settle`. -/
def Cluster.settle (c : Cluster) : Cluster := { c with west := c.west.map OpSlot.settle, north := c.north.map OpSlot.settle }

/-- The run of a channel-frame leaves its replica. -/
def State.endRun (s : State) (c q : Nat) : State :=
  let mine := fun (r : Run) => r.chan == c && r.seq.toNat == q
  let t := s.forEach ((s.runs.filter mine).flatMap fun r => r.positions) fun p u =>
    match u.mapping[p.cluster] with
    | some k => { u with clusters := vmod u.clusters k Cluster.settle }
    | none => u
  { t with runs := t.runs.filter fun r => !mine r }

/-- R700, R996: a frame whose result is written gives up its buffers, once its items are forwarded. -/
def State.retireFrame (s : State) (c q : Nat) : State :=
  if s.lock.sendq.any fun e => e.1 == some (c, q) then s.modFrame c q fun f => { f with stage := .forwarding }
  else (s.releaseFrame c q false).delFrame c q

/-- Results can be written for a function now (R1040, R1144). -/
def State.resultsFlow (s : State) (n : FnNo) : Bool := s.fns[n].busMaster && !s.boot.fatal

/-- R418: one frame result is written into its ring, and what waited for it follows. -/
def State.writeResult (s : State) (n : FnNo) (p : Prog) (l : Launch) (c q : Nat) (bytes : List Byte) : State :=
  match s.frame c q with
  | none => s
  | some f =>
    let out := !s.covered n f
    let b := setFlags (withRaster bytes f.raster) ((if p.ring.phase then 1 else 0) ||| (if out then 4 else 0))
    let addr := l.ringAddr + BitVec.ofNat 64 (256 * p.ring.pos)
    let wrap := p.ring.pos + 1 = 2 ^ l.ringLog2
    let t := (s.modProg n p.id fun x => { x with ring := { x.ring with
        pos := if wrap then 0 else x.ring.pos + 1
        phase := if wrap then !x.ring.phase else x.ring.phase
        unreleased := x.ring.unreleased + 1
        unannounced := x.ring.unannounced + 1
        oldest := if x.ring.unannounced = 0 then s.tick else x.ring.oldest } }).hostWrite n addr b
    let t := (t.announce n p.id).count n 0 1
    let t := if out then t.count n 13 1 else t
    let t := t.modChan c fun x => { x with
      lastSeq := BitVec.ofNat 64 q, maxSeq := some (max (x.maxSeq.getD 0) q) }
    let outs := (bytes.drop 64).take (fieldNat bytes 32 2)
    let t := t.formDigest f p.id out (fieldNat bytes 2 2 == stFrameAborted.toNat) outs
    ((t.endRun c q).retireFrame c q)

/-- R402, R418, R419: results which wait are written in their order while the ring has room; one whose raster is being
delivered waits for that, and those behind it wait too. (Log entry 109 DEDUCED.) -/
def State.flushRing (n : FnNo) (pid : Nat) : Nat → State → State
  | 0, s => s
  | k + 1, s =>
    match s.prog n pid with
    | none => s
    | some p =>
      match p.launch, p.ring.waiting with
      | some l, e :: rest =>
        let delivering := s.deliveries.any fun d => d.chan == e.1 && d.seq == e.2.1.toNat
        if s.resultsFlow n && !delivering && decide (p.ring.unreleased < 2 ^ l.ringLog2 - 1) then
          ((s.modProg n pid fun x => { x with ring := { x.ring with waiting := rest } }).writeResult n
            p l e.1 e.2.1.toNat e.2.2).flushRing n pid k
        else s
      | _, _ => s

/-- Every result of a program which can be written is written, and the pool settles. (Log entry 109 DEDUCED.) -/
def State.pumpRing (s : State) (n : FnNo) (pid : Nat) : State :=
  match s.prog n pid with
  | none => s
  | some p => (s.flushRing n pid p.ring.waiting.length).settlePool.endUnbinds

/-- The frame is launched and has no result (R422, R925). (Log entry 97 DEDUCED.) -/
def Frame.unresolved (f : Frame) : Bool :=
  f.launch.isSome && f.stage != .opened && f.stage != .result && f.stage != .forwarding

/-- The channel-frame is launched, and its result is not decided: it is open, or unresolved. -/
def Frame.unfinished (f : Frame) : Bool :=
  f.launch.isSome && f.stage != .result && f.stage != .forwarding

/-- R32, R33, R417: a channel-frame ends: its outcome is decided, counted, and its result is written as soon
as its ring has room. (Log entry 97 DEDUCED.) -/
def State.finishFrame (s : State) (c q : Nat) (aborted : Bool) (outs : List Byte) : State :=
  match s.frame c q with
  | none => s
  | some f =>
    match f.launch.bind s.progOf with
    | none => ((s.endRun c q).releaseFrame c q false).delFrame c q
    | some p =>
      match p.launch with
      | none => ((s.endRun c q).releaseFrame c q false).delFrame c q
      | some l =>
        if !f.unresolved then s
        else
          let late := l.deadline ≠ 0 ∧ l.deadline.toNat < (s.tick - f.markTick).toNat
          let wide := !f.wideMsg.isEmpty
          let status := if aborted then stFrameAborted else if late then stFrameLate
            else if wide then stWideRerun else stOk
          let n := p.stratum
          let t := if late then s.count n 1 1 else s
          let t := if aborted then t.count n 2 1 else t
          let t := if wide then t.count n 3 1 else t
          let t := t.modFrame c q fun x => { x with stage := .result, pieces := [] }
          let bytes := resultBytes l p.id f status s.tick (if aborted then [] else outs)
          (t.modProg n p.id fun x => { x with ring := { x.ring with
            waiting := x.ring.waiting ++ [(c, BitVec.ofNat 64 q, bytes)] } }).pumpRing n p.id

/-- The delivery of a frame's host raster is given up. (Log entries 97 DEDUCED, 151 DESIGN CHOICE.) -/
def State.dropRaster (s : State) (c q : Nat) : State :=
  let keep := s.deliveries.filter fun d => !(d.chan == c && d.seq == q)
  if s.deliveries.any fun d => d.chan == c && d.seq == q then
    ({ s with deliveries := keep }).modFrame c q fun x => { x with raster := 0 }
  else s

/-- A channel-frame ends with ST_FRAME_ABORTED at once: a host raster of it which is not delivered yet is given up, and the
result names none. (Log entries 97 DEDUCED, 151 DESIGN CHOICE.) -/
def State.abortFrame (s : State) (c q : Nat) : State :=
  match s.frame c q with
  | some f => (if f.unresolved then s.dropRaster c q else s).finishFrame c q true []
  | none => s

/-- R635: a channel-frame is ready; it ends with ST_FRAME_ABORTED when no variant of its program fits. -/
def State.makeReady (s : State) (c q : Nat) (tick : Tick) : State :=
  let t := s.modFrame c q fun g => { g with stage := .ready tick }
  match ((t.frame c q).bind (·.launch)).bind t.progOf with
  | some p => if p.unfit then t.abortFrame c q else t
  | none => t

/-- The launched channel-frames of a stratum without a result. (Log entry 97 DEDUCED.) -/
def State.unresolvedOf (s : State) (n : FnNo) : List Frame :=
  s.frames.filter fun f => f.unresolved && (match s.chan f.chan with | some c => c.stratum == n | none => false)

/-- Every launched channel-frame of a list ends with ST_FRAME_ABORTED. -/
def State.abortAll (s : State) (l : List Frame) : State := s.forEach l fun f t => t.abortFrame f.chan f.seq

/-- R335, R81: the results of a stratum which are decided and not yet written: their raster deliveries end, and each is
written with ST_FRAME_ABORTED where its ring has room. (Log entry 138 DEDUCED.) -/
def State.abortWaiting (s : State) (n : FnNo) : State :=
  let t : State := { s with deliveries := s.deliveries.filter fun d => d.stratum ≠ n }
  t.forEach (t.progs.filter fun p => p.stratum == n) fun p u =>
    match p.launch with
    | none => u
    | some l =>
      let again := fun (e : Nat × W64 × List Byte) => match u.frame e.1 e.2.1.toNat with
        | some f => (e.1, e.2.1, resultBytes l p.id f stFrameAborted s.tick [])
        | none => e
      let plain := fun (f : Frame) =>
        if p.ring.waiting.any fun e => e.1 == f.chan && e.2.1.toNat == f.seq then { f with raster := 0 } else f
      let u : State := { u with frames := u.frames.map plain }
      (u.modProg n p.id fun x => { x with ring := { x.ring with waiting := x.ring.waiting.map again } }).pumpRing n p.id

/-- R81, R420: the messages which announce a stratum's results are sent for those which wait for one. -/
def State.announceAll (s : State) (n : FnNo) : State :=
  s.forEach (s.progs.filter fun p => p.stratum == n) fun p t =>
    match p.launch with
    | none => t
    | some l =>
      if l.vector = 0 || p.ring.unannounced = 0 then t
      else (t.modProg n p.id fun x => { x with ring := { x.ring with unannounced := 0 } }).sendMsix n (Fin.ofNat 64 l.vector)

/-! ### The beginning and the end of a pair (R1000, R1005) -/

/-- R1000: up to `n` granules are taken for tile logs. -/
def State.takeLogGranules : Nat → State → State
  | 0, s => s
  | n + 1, s =>
    match s.placeAfter s.geo.lastSystem with
    | none => s
    | some g =>
      let t := s.markGranule g (.system (some lockOwner) (some lockOwner))
      let u : State := { t with geo := { t.geo with lastSystem := g / 512 } }
      (u.modLock fun l => { l with granules := l.granules ++ [g] }).takeLogGranules n

/-- R855, R996: credit for CH 4095 is advertised as the 64 KiB area empties. (Log entry 120 DEDUCED.) -/
def State.areaCredit (s : State) : State :=
  let p := s.ports[7]
  let held := (s.lock.area.map fun i => p.creditsOf (16 + i.bytes.length)).sum
  let limit := p.lockRx.consumed + BitVec.ofNat 16 (65536 / 2 ^ p.gLog2 - held)
  if p.st != .active || p.role != 2 || limit == p.lockRx.limit then s
  else (s.modPort 7 fun q => { q with lockRx := { q.lockRx with limit } }).emit (.block 7 (creditBlock 4095 false limit))

/-- R1005: a pair ends: its granules return, forwarding stops, and both strata are told. A peer is told by an
UNPAIR frame when `tell` is true. (Log entry 49 DEDUCED.) -/
def State.endPair (s : State) (cause : BitVec 8) (tell : Bool) : State :=
  if s.lock.st != .paired then s
  else
    let l := s.lock
    let mine := (s.chans.filter fun c => c.stratum == l.target).map (·.num)
    let t : State := s.modLock fun x => { x with
      st := .ended, endCause := cause, mine := [], peers := [], logs := [], asked := [], answered := [], granules := []
      area := [], rejoin := if x.secondary && x.forwarded then mine else x.rejoin, sendq := [] }
    let t : State := t.releaseParts lockOwner
    let t : State := if tell then t.lockSend none (lockPayload 6 0 []) else t.pumpLock
    let dests := (List.finRange 16).filter fun n => n.val = 0 || (n == l.target && t.liveStrata.contains n)
    (t.occurAll dests 0x7004 (cause.setWidth 64) l.divergent).areaCredit

/-! ### The commands of a stratum which ends (R295) -/

/-- R464: DATA of a completion which a stratum's destruction ends. -/
abbrev dataDestroyed : BitVec 192 := 0x02FFFF

/-- R458: the short commands, and those not yet validated, which were read on a function's queues and have no reply are
answered with ST_TARGET_RESET. -/
def State.resetShorts (s : State) (n : FnNo) : State :=
  s.forEach (List.finRange 4) fun qp u =>
    let q := u.fns[n].qps[qp]
    match q.awaiting.or q.held with
    | some h => settleQueue (afterReply n qp h.pkt 0 (some h.pkt.tag)
        ((u.modQp n qp fun q => { q with held := none, awaiting := none }).reply n qp h.op h.pkt stTargetReset 0 0 0)) n qp
    | none => u

/-- R295: every command of the stratum which was read and has no completion ends with ST_TARGET_RESET, on
the stratum's own queues. (Log entry 51 DEDUCED.) -/
def State.endCommands (s : State) (n : FnNo) : State :=
  let t := s.forEach (s.outst.filter fun o => o.fn == n) fun o u => u.complete o.id stTargetReset 0 0 0 dataDestroyed
  t.resetShorts n

/-- The work behind a stratum's commands is forgotten: copies, waits, barriers, loads and scheduled launches; what the copy
engines kept for it reads zero (R740). (Log entry 51 DEDUCED.) -/
def State.forgetWork (s : State) (n : FnNo) : State :=
  { s with
    copies := s.copies.filter fun j => j.stratum ≠ n
    stores := s.stores.map fun v => vmod v n fun _ => EngStore.empty
    waits := s.waits.filter fun w => w.stratum ≠ n
    barriers := s.barriers.filter fun b => b.stratum ≠ n
    scheduled := s.scheduled.filter fun d => d.stratum ≠ n
    logReads := s.logReads.filter fun d => d.fn ≠ n
    nv := { s.nv with ops := s.nv.ops.filter fun o => o.fn ≠ n }
    tableLoads := s.tableLoads.filter fun x => x.stratum ≠ n
    mprogLoads := s.mprogLoads.filter fun x => x.stratum ≠ n
    panel := { s.panel with draws := s.panel.draws.filter fun d => d.fn ≠ n } }

end Sys2Proof.Machine
end

