-- ==== Sys2Proof/Machine/Place.lean ====
section
/-!
DEFINITION. The placement of program variants on logical clusters, their selection and their scratch windows
(R624, R629, R630, R634, R635).
-/

namespace Sys2Proof.Machine

/-- R624: a variant summary. -/
structure Variant where
  clusters : Nat
  gr : Nat
  gc : Nat
  planMask : Nat
  dflt : Bool
  /-- Bytes of the scratch window. -/
  window : Nat
  deriving DecidableEq, Repr

/-- R624: summary `i` of a package header. -/
def variantOf (header : List Byte) (i : Nat) : Variant :=
  let o := 64 + 8 * i
  { clusters := fieldNat header o 1, gr := fieldNat header (o + 1) 1, gc := fieldNat header (o + 2) 1,
    planMask := fieldNat header (o + 3) 1, dflt := (fieldNat header (o + 4) 1).testBit 0,
    window := fieldNat header (o + 6) 2 * 0x4000 }

/-- The summaries of a header with their indices. -/
def variantsOf (header : List Byte) : List (Nat × Variant) :=
  (List.range (fieldNat header 6 1)).map fun i => (i, variantOf header i)

/-- The logical clusters of a group of positions with its origin at `o`, in position order. -/
def groupCells (v : Variant) (o : Nat) : List Nat :=
  ((List.range v.gr).map fun r => (List.range v.gc).map fun c => o + 8 * r + c).flatten

/-- The first origin, row-major, whose group lies in the free clusters. -/
def firstOrigin (v : Variant) (free : List Nat) : Option Nat :=
  (List.range 64).find? fun o =>
    decide (o / 8 + v.gr ≤ 8) && decide (o % 8 + v.gc ≤ 8) && (groupCells v o).all fun l => free.contains l

/-- Replicas are placed one after another (13, Placement). -/
def placeReplicas (v : Variant) : Nat → List Nat → Option (List Nat)
  | 0, _ => some []
  | n + 1, free =>
    match firstOrigin v free with
    | none => none
    | some o =>
      match placeReplicas v n (free.filter fun l => !(groupCells v o).contains l) with
      | none => none
      | some r => some (o :: r)

/-- R624: replicas of a variant. -/
def Variant.replicas (v : Variant) : Nat := v.clusters / (v.gr * v.gc)

/-- The origins of a variant's replicas when it fits the clusters held. -/
def Variant.fits (v : Variant) (held : List Nat) : Option (List Nat) := placeReplicas v v.replicas held

/-- R629: the variant which is selected, with its origins. -/
def selectVariant (header : List Byte) (held : List Nat) (plan : BitVec 8) : Option (Nat × List Nat) :=
  let fitting := (variantsOf header).filterMap fun e => (e.2.fits held).map fun o => (e.1, e.2, o)
  let best := (fitting.map fun e => e.2.1.clusters).foldl max 0
  let large := fitting.filter fun e => e.2.1.clusters == best
  let pick := (large.find? fun e => e.2.1.planMask.testBit plan.toNat).or (large.find? fun e => e.2.1.dflt)
  pick.map fun e => (e.1, e.2.2)

/-- The mapped logical clusters which a stratum holds, as numbers. -/
def State.heldCells (s : State) (n : FnNo) : List Nat := (s.clustersOf n).map (·.val)

/-- The variant in use of a program. -/
def Prog.shape (p : Prog) : Option Variant := p.variant.map (variantOf p.header)

/-- The logical clusters of a program's replicas. -/
def Prog.cells (p : Prog) : List Nat :=
  match p.shape with
  | some v => (p.origins.map (groupCells v)).flatten
  | none => []

/-- Scratch windows of a program: cluster, first byte and length. -/
def Prog.extents (p : Prog) : List (Nat × Nat × Nat) :=
  match p.shape with
  | some v => p.windows.map fun w => (w.1, w.2, v.window)
  | none => []

/-- The windows of a stratum's programs other than one. -/
def State.otherWindows (s : State) (n : FnNo) (pid : Nat) : List (Nat × Nat × Nat) :=
  ((s.progs.filter fun p => p.stratum == n && p.id != pid).map Prog.extents).flatten

/-- A window of `len` bytes at `o` in a cluster overlaps none of a list. -/
def windowFree (others : List (Nat × Nat × Nat)) (cell o len : Nat) : Bool :=
  decide (o + len ≤ scratchBytes) &&
    others.all fun w => w.1 != cell || decide (o + len ≤ w.2.1) || decide (w.2.1 + w.2.2 ≤ o)

/-- R630: the offset of a window in a cluster: the one it has, when that stays possible, else the lowest. -/
def windowOffset (others : List (Nat × Nat × Nat)) (old : Option Nat) (cell len : Nat) : Option Nat :=
  let keep := old.filter fun o => windowFree others cell o len
  keep.or (((List.range 256).map (· * 0x4000)).find? fun o => windowFree others cell o len)

/-- R630: windows in every cluster of a variant, or none when some cluster has no room. -/
def placeWindows (others : List (Nat × Nat × Nat)) (old : List (Nat × Nat)) (len : Nat) :
    List Nat → Option (List (Nat × Nat))
  | [] => some []
  | c :: r =>
    match windowOffset others (spGet old c) c len, placeWindows others old len r with
    | some o, some rest => some ((c, o) :: rest)
    | _, _ => none

/-- Selection, origins and windows which a program would have now (R629, R630). -/
def State.selection (s : State) (p : Prog) : Option (Nat × List Nat × List (Nat × Nat)) :=
  match selectVariant p.header (s.heldCells p.stratum) s.plans.inForce with
  | none => none
  | some (i, origins) =>
    let v := variantOf p.header i
    (placeWindows (s.otherWindows p.stratum p.id) p.windows v.window
      (origins.map (groupCells v)).flatten).map fun w => (i, origins, w)

/-- The program's channel-frames which run. -/
def State.runsOf (s : State) (n : FnNo) (pid : Nat) : List Run :=
  s.runs.filter fun r => r.stratum == n && r.prog == pid

/-- R635: the ready channel-frames of a program without a variant end with ST_FRAME_ABORTED. -/
def State.abortReady (s : State) (p : Prog) : State :=
  match p.launch with
  | none => s
  | some l => s.abortAll (s.frames.filter fun f => f.launch == some l.serial &&
      (match f.stage with | .ready _ => true | _ => false))

/-- R634, R635, R979: the selection is repeated for a program: it changes to its new variant and placement once none of its
channel-frames runs. When no variant fits, its ready channel-frames end at once. -/
def State.reselectProg (s : State) (n : FnNo) (pid : Nat) : State :=
  match s.prog n pid with
  | none => s
  | some p =>
    let new := s.selection p
    let variant := new.map (·.1)
    let origins := (new.map (·.2.1)).getD []
    let unfit := variant.isNone
    if variant = p.variant ∧ origins = p.origins then s.modProg n pid fun x => { x with reselect := false, unfit }
    else
      let t := if !(s.runsOf n pid).isEmpty then s.modProg n pid fun x => { x with reselect := true, unfit }
        else
          let u := s.modProg n pid fun x => { x with
            variant, origins, windows := (new.map (·.2.2)).getD [], reselect := false, unfit }
          if variant = p.variant then u else u.reproBreak 4 n
      if unfit then t.abortReady p else t

/-- R634: the selection is repeated for a stratum's programs. -/
def State.reselect (s : State) (n : FnNo) : State :=
  s.forEach ((s.progs.filter fun p => p.stratum == n && p.loading.isNone).map (·.id)) fun pid t => t.reselectProg n pid

/-- R634: the selection is repeated for every program, as the plan in force changes. -/
def State.reselectAll (s : State) : State := s.forEach (List.finRange 16) fun n t => t.reselect n

/-- R979: the logical cluster count of a stratum changed, and R634 follows. -/
def State.clustersChanged (s : State) (n : FnNo) : State := (s.reproBreak 4 n).reselect n

/-- A program's launch ends: it serves no frame from now on. -/
def State.endLaunch (s : State) (n : FnNo) (pid : Nat) : State :=
  s.modProg n pid fun x => { x with launch := none }

end Sys2Proof.Machine
end

