-- ==== Sys2Proof/Machine/Device.lean ====
section
/-!
DEFINITION. The device commands (07): identity, status, power cap and clock plan, and the end of a plan's
installation.
-/

namespace Sys2Proof.Machine

/-! ### Flash regions (R1045) -/

/-- A byte of a flash region. -/
def State.flashByte (s : State) (region off : Nat) : Byte := memRead 0xFF s.nv.mem (region * 0x10000000 + off)

/-- Bytes of a flash region. -/
def State.flashBytes (s : State) (region off n : Nat) : List Byte :=
  (List.range n).map fun i => s.flashByte region (off + i)

/-- A little-endian field of a flash region. -/
def State.flashField (s : State) (region off n : Nat) : Nat := leNat (s.flashBytes region off n)

/-- First byte of the commit record of an image slot (24). -/
abbrev imageCommit : Nat := 0xFFF000

/-- The region of an image: IMAGE_A or IMAGE_B. -/
def imageRegion (image : BitVec 8) : Nat := if image = 1 then 2 else 1

/-- The region code under which the model keeps a calibration slot. -/
def calBase (slot : Nat) : Nat := slot * 0x200000

/-- R1053: a commit record of 64 bytes with a MAGIC is correct. -/
def commitOk (magic : Nat) (len : Nat) (r : List Byte) : Bool :=
  fieldNat r 0 4 == magic && fieldNat r 8 4 == len && (r.drop 12 |>.take 48).all (· == 0) &&
    fieldNat r 60 4 == (crc32c (r.take 60)).toNat

/-- The commit record of a calibration slot, when it is correct: its SEQ. -/
def State.calSeq (s : State) (slot : Nat) : Option Nat :=
  let r := s.flashBytes 3 (calBase slot + 0x1FF000) 64
  if commitOk 0x52434B56 (s.flashField 3 (calBase slot + 8) 4) r then some (fieldNat r 4 4) else none

/-- The slot of the calibration set in force (24). -/
def State.calInForce (s : State) : Option Nat :=
  match s.calSeq 0, s.calSeq 1 with
  | some a, some b => if a < b then some 1 else some 0
  | some _, none => some 0
  | none, some _ => some 1
  | none, none => none

/-- IMAGE_SEQ of the running image (R314). -/
def State.imageSeq (s : State) : Nat :=
  if s.boot.image = 0xFF then 0 else s.flashField (imageRegion s.boot.image) (imageCommit + 4) 4

/-- FW_VERSION of the running image (R314, R1052), 0 without one. (Log entry 145 DESIGN CHOICE.) -/
def State.fwVersion (s : State) : Nat :=
  if s.boot.image = 0xFF then 0 else s.flashField (imageRegion s.boot.image) 12 4

/-- MICA_VERSION of the running image (R314, R1052), 0 without one. (Log entry 145 DESIGN CHOICE.) -/
def State.micaVersion (s : State) : Nat :=
  if s.boot.image = 0xFF then 0 else s.flashField (imageRegion s.boot.image) 16 4

/-- R314: the serial number, 12 characters and four zero bytes. -/
def serialBytes : List Byte :=
  ((List.finRange 12).map fun i =>
    let d := (Config.serialDigit i).val
    BitVec.ofNat 8 (if d < 10 then 0x30 + d else 0x41 + d - 10)) ++ List.replicate 4 0

/-! ### DEV_IDENTIFY and DEV_STATUS -/

/-- R314: the identity block. (Log entry 129 DEDUCED.) -/
def State.identityBlock (s : State) : List Byte :=
  leBytes 2 0x4820 ++ leBytes 1 (if s.order32 then 0x32 else 0x16) ++ leBytes 1 0x10 ++ leBytes 1 1 ++
  leBytes 1 0 ++ leBytes 1 s.boot.image.toNat ++ leBytes 1 0 ++ leBytes 4 s.imageSeq ++
  leBytes 4 s.fwVersion ++ leBytes 4 s.micaVersion ++
  leBytes 4 (match s.calInForce with | some k => (s.calSeq k).getD 0 | none => 0) ++
  leBytes 8 (if s.order32 then 0x800000000 else 0x400000000) ++ serialBytes ++ List.replicate 16 0

/-- RESULT0 and RESULT1 from the first sixteen bytes of a block. -/
def blockRes (b : List Byte) : Res :=
  { r0 := BitVec.ofNat 64 (fieldNat b 0 8), r1 := BitVec.ofNat 64 (fieldNat b 8 8) }

/-- DEV_IDENTIFY in R306, R315. -/
def specDevIdentify : CmdSpec :=
  { op := 0x01, len := 8, used := usedBits [(8, 8)], anyPhase := true, anyStratum := true }

/-- R313 to R315: the identity block, in RESULT0 and RESULT1 and at BUF_ADDR. -/
def execDevIdentify (fn : FnNo) (qp : QpNo) (pkt : Packet) (s : State) : Host.Outcome State Fault Refusal :=
  .next (shortCommand specDevIdentify fn qp pkt (fun _ => badBuf pkt 8) (fun _ => none)
    (fun t => (t.writeBlock fn (pkt.u64 8) t.identityBlock, blockRes t.identityBlock)) s)

/-- Bit mask of the units which satisfy a test. -/
def unitMask {n : Nat} (v : Vector UnitSt n) (p : UnitSt → Bool) : Nat :=
  ((List.finRange n).map fun i => if p v[i] then 2 ^ i.val else 0).sum

/-- How many units are in service. -/
def upCount {n : Nat} (v : Vector UnitSt n) : Nat := ((List.finRange n).filter fun i => v[i].up).length

/-- R1015: the spare set. -/
def State.spareSet (s : State) : List PhysNo :=
  (List.finRange 72).filter fun c => s.units.clusters[c].up &&
    !(List.finRange 64).any fun l => s.mapping[l] == some c && !s.toReplace.any fun x => x.1 == l && x.2.1 == c

/-- R169, R1022: the logical cluster count. -/
def State.logicalCount (s : State) : Nat :=
  ((List.finRange 64).filter fun l => (s.mapping[l]).isSome).length

/-- EXT_MIB of R316. (Log entry 12 DESIGN CHOICE.) -/
def State.extMib (s : State) : Nat := s.dataPages

/-- R316: the status block; the fields marked PF read zero through a VF. -/
def State.statusBlock (s : State) (fn : FnNo) : List Byte :=
  let pf := fun (n v : Nat) => leBytes n (if fn.val = 0 then v else 0)
  let flags := (if s.boot.degraded then 1 else 0) + (if s.sup.cap70 then 2 else 0) +
    (if s.thermal.capped then 4 else 0) + (if s.boot.fatal then 8 else 0)
  let retired := unitMask s.units.clusters UnitSt.retired + 2 ^ 72 * unitMask s.units.banks UnitSt.retired +
    2 ^ 136 * unitMask s.units.exts UnitSt.retired + 2 ^ 144 * unitMask s.units.slates UnitSt.retired +
    2 ^ 148 * unitMask s.units.copies UnitSt.retired
  let exist := ((List.finRange 16).map fun n => if s.strata[n].live then 2 ^ n.val else 0).sum
  leBytes 1 s.boot.phase.toNat ++ leBytes 1 s.boot.fail.toNat ++ leBytes 1 flags ++
  leBytes 1 s.boot.resetCause.toNat ++ leBytes 1 s.boot.image.toNat ++ leBytes 1 s.plans.selected.toNat ++
  leBytes 1 s.plans.inForce.toNat ++ leBytes 1 0 ++ leBytes 4 s.imageSeq ++ leBytes 2 s.plans.hostCap ++
  leBytes 2 s.effectiveCap ++ leBytes 1 s.logicalCount ++
  leBytes 1 (72 - (unitMask s.units.clusters UnitSt.retired |> fun m =>
    ((List.range 72).filter fun i => m.testBit i).length)) ++
  leBytes 1 s.spareSet.length ++ leBytes 1 (upCount s.units.banks) ++ leBytes 1 (upCount s.units.exts) ++
  leBytes 1 (upCount s.units.slates) ++ leBytes 1 (upCount s.units.copies) ++ leBytes 1 0 ++
  leBytes 4 s.fns[fn].evqLost.toNat ++ pf 4 s.fns[fn].heldLost.toNat ++ pf 2 exist ++ leBytes 2 0 ++
  leBytes 4 s.extMib ++ leBytes 8 s.tick.toNat ++ pf 24 retired ++
  ((List.finRange 64).map fun l => pf 1 (match s.mapping[l] with | some c => c.val | none => 0xFF)).flatten ++
  ((List.finRange 8).map fun i => pf 8 (s.boot.phaseEnd[i]).toNat).flatten ++ List.replicate 56 0

/-- DEV_STATUS in R306, R156. -/
def specDevStatus : CmdSpec :=
  { op := 0x02, len := 8, used := usedBits [(8, 8)], anyPhase := true }

/-- R316: the status block. -/
def execDevStatus (fn : FnNo) (qp : QpNo) (pkt : Packet) (s : State) : Host.Outcome State Fault Refusal :=
  .next (shortCommand specDevStatus fn qp pkt (fun _ => badBuf pkt 8) (fun _ => none)
    (fun t => (t.writeBlock fn (pkt.u64 8) (t.statusBlock fn), blockRes (t.statusBlock fn))) s)

/-! ### The end of an installation (R62, R87, R95, R99, R324, R325, R1088) -/

/-- R87: CAP_CHANGED to every existing stratum. -/
def State.capChanged (s : State) : State :=
  s.occurAll s.liveStrata 0x6002 (BitVec.ofNat 64 s.effectiveCap) (s.plans.inForce.setWidth 64)

/-- R87: a CAP_CHANGED which is due is sent once no installation is called for. -/
def State.capNoticeNow (s : State) : State :=
  if s.plans.capNotice && s.plans.installing.isNone && s.sup.switching.isNone then
    ({ s with plans := { s.plans with capNotice := false } }).capChanged
  else s

/-- R511: lapses whose condition lasts until the installation which its end calls for has completed. -/
def State.endCapLapses (s : State) : State :=
  if s.plans.installing.isSome then s
  else
    let t := if !s.thermal.capped then s.lapseEnds 1 0xFFFF else s
    let u := if !t.sup.cap70 && !t.sup.throttle then t.lapseEnds 2 0xFFFF else t
    u.lapseEnds 3 0xFFFF

/-- R56, R1088: the fast throttle is released once the plan in force fits every cap. -/
def State.releaseThrottle (s : State) : State :=
  if s.plans.installing.isNone && decide (planPower s.plans.inForce ≤ s.effectiveCap) then
    { s with sup := { s.sup with throttle := false } }
  else s

/-- Installations which the caps call for begin one after another; when none is left, what waited for the
end of the last one follows. `capCaused` as for R511. Before the clocks have started no plan is installed; in STANDBY and
RECOVERY none is called for, and CAP_CHANGED follows at once (R87). -/
def State.settlePlan (s : State) (capCaused : Bool) : State :=
  let s : State := { s with plans := { s.plans with capMoved := s.plans.capMoved || (capCaused && s.plans.installing.isSome) } }
  if !s.planner then (if s.sup.power == .standby || s.boot.phase == phRecovery then s.capNoticeNow else s)
  else ((s.callPlan capCaused).releaseThrottle.endCapLapses.beginDueRuns).capNoticeNow

/-- The oldest DEV_SET_CLOCK_PLAN completes (R323, R325). (Log entry 32 DEDUCED.) -/
def State.planCommandDone (s : State) : State :=
  match s.plans.cmds with
  | [] => s
  | id :: rest =>
    ({ s with plans := { s.plans with cmds := rest } }).completeOk id
      (BitVec.ofNat 64 (s.plans.inForce.toNat + 2 ^ 16 * s.effectiveCap)) 0

/-- DEV_SET_CLOCK_PLAN commands which find nothing left to install complete in order (R324).
(Log entry 32 DEDUCED.) -/
def State.planCommands (s : State) : State :=
  s.forEach s.plans.cmds fun _ t => if t.plans.installing.isNone then t.planCommandDone else t

/-- An installation which ends puts its plan in force (R95, R99). A DEV_SET_CLOCK_PLAN behind the oldest one
begins its installation when that one completes (R324); a last one waits for what the caps call for (R325).
(Log entry 32 DEDUCED.) -/
def endInstall (s : State) : State :=
  match s.plans.installing with
  | none => s
  | some p =>
    let t : State := { s with plans := { s.plans with installing := none, inForce := p } }
    let t : State := t.reselectAll
    let capCaused := t.plans.cmds.isEmpty || t.plans.capMoved
    let t : State := if 2 ≤ t.plans.cmds.length then t.planCommandDone else t
    (t.settlePlan capCaused).planCommands

/-- R99, R62, R324: the installation under way ends. -/
def execPlanInstallComplete (s : State) : Host.Outcome State Fault Refusal := .next (endInstall s)

/-! ### DEV_SET_POWER_CAP (R317 to R320) -/

/-- DEV_SET_POWER_CAP in R306. -/
def specDevSetPowerCap : CmdSpec :=
  { op := 0x03, len := 8, used := usedBits [(8, 2)], pfOnly := true }

/-- R318, R319: the cap is recorded; unless an installation is under way, the plan which R94 then calls for
is installed before the reply. A change of the effective cap is a break of cause 0x03 (R979, R983).
(Log entry 34 DEDUCED.) -/
def setPowerCap (cap : Nat) (s : State) : State × Res :=
  let before := s.effectiveCap
  let t : State := { s with plans := { s.plans with hostCap := cap } }
  let t := if t.effectiveCap = before then t else t.breakAll 3
  let u : State := if t.plans.installing.isSome then { t with plans := { t.plans with capMoved := true } }
    else endInstall (t.callPlan true)
  let plan := if u.plans.installing.isSome then u.planCalled else u.plans.inForce
  (u, { r0 := BitVec.ofNat 64 (u.effectiveCap + 2 ^ 16 * plan.toNat) })

/-- R317 to R320: the host cap. -/
def execDevSetPowerCap (fn : FnNo) (qp : QpNo) (pkt : Packet) (s : State) :
    Host.Outcome State Fault Refusal :=
  .next (shortCommand specDevSetPowerCap fn qp pkt
    (fun _ => badField (decide (pkt.u16 8 < 50) || decide (175 < pkt.u16 8)) 8) (fun _ => none)
    (setPowerCap (pkt.u16 8).toNat) s)

/-! ### DEV_SET_CLOCK_PLAN (R321 to R325) -/

/-- DEV_SET_CLOCK_PLAN in R306. -/
def specDevSetClockPlan : CmdSpec :=
  { op := 0x04, len := 8, used := usedBits [(8, 1)], long := true, pfOnly := true }

/-- R61, R322: ST_SUPPLY_LOW with HIF_SUPPLY_STATUS while the 70 W supply cap is in force. -/
def supplyLow (c : Bool) (status : W32) : Option Rej := rejIf c ⟨stSupplyLow, 0, status.setWidth 64, 0⟩

/-- R321 to R325: a plan is selected, and the plan which R94 calls for is installed. -/
def execDevSetClockPlan (fn : FnNo) (qp : QpNo) (pkt : Packet) (s : State) :
    Host.Outcome State Fault Refusal :=
  .next (longCommand specDevSetClockPlan fn qp pkt
    (fun _ => badField (pkt.u8 8 == 0 || decide (7 < pkt.u8 8)) 8)
    (fun t => supplyLow t.sup.cap70 t.supplyStatus)
    (fun id t => { t with plans := { t.plans with selected := pkt.u8 8, cmds := t.plans.cmds ++ [id] } })
    (fun _ t => (t.callPlan false).planCommands) s)

end Sys2Proof.Machine
end

