-- ==== Sys2Proof/Machine/Copy.lean ====
section
/-!
DEFINITION. The copy engines (07, 16): the copy commands, their checks, their placement, their start and
their end.
-/

namespace Sys2Proof.Machine

/-! ### The packet (R366) -/

/-- Element size in bytes. -/
def copyEsize (p : Packet) : Nat := 2 ^ (p.u8 49 &&& 3).toNat
/-- TRANSPOSE. -/
def copyTranspose (p : Packet) : Bool := (p.u8 49).getLsbD 2
/-- The source side is host memory. -/
def copySrcHost (p : Packet) : Bool := p.u8 48 &&& 0x0F == 1
/-- The destination side is host memory. -/
def copyDstHost (p : Packet) : Bool := p.u8 48 >>> 4 == 1

/-- The job which a packet describes, not yet placed. -/
def copyJobOf (kind : CopyKind) (id : Nat) (n : FnNo) (p : Packet) : CopyJob :=
  { id, stratum := n, kind, engine := 0, src := (p.u64 8).toNat, dst := (p.u64 16).toNat,
    srcStride1 := (p.u32 24).toNat, srcStride2 := (p.u32 28).toNat, dstStride1 := (p.u32 32).toNat,
    dstStride2 := (p.u32 36).toNat, ext0 := (p.u32 40).toNat, ext1 := (p.u16 44).toNat,
    ext2 := (p.u16 46).toNat, srcHost := copySrcHost p, dstHost := copyDstHost p, esize := copyEsize p,
    transpose := copyTranspose p, pattern := p.u32 8, crc64 := p.u8 51 == 1, started := false,
    traversal := 0 }

/-- R366: check 6 of the fields which every copy command reads, from offset 40. -/
def chkCopyShape (kind : CopyKind) (p : Packet) : Option Rej :=
  (badField (p.u32 40 == 0 || decide (16777216 < p.u32 40)) 40).or <| (badField (p.u16 44 == 0) 44).or <|
  (badField (p.u16 46 == 0 || (copyTranspose p && p.u16 46 != 1)) 46).or <|
  (badField (decide (1 < p.u8 48 &&& 0x0F) || decide (1 < p.u8 48 >>> 4) || p.u8 48 == 0x11) 48).or <|
  (badField (p.u8 49 &&& 0xF8 != 0 || p.u8 49 &&& 3 == 3 || (kind != .copy && copyTranspose p)) 49).or <|
  (badField (decide (3 < p.u8 50) && p.u8 50 != 0xFF) 50).or <|
  badField (kind == .checksum && decide (1 < p.u8 51)) 51

/-- R366: check 6 of the destination strides; an illegal ESIZE of 3 counts as 8 bytes here.
(Log entry 147 DESIGN CHOICE.) -/
def chkCopyStrides (p : Packet) : Option Rej :=
  let e := copyEsize p
  let rows := if copyTranspose p then (p.u32 40).toNat else (p.u16 44).toNat
  let rowBytes := e * if copyTranspose p then (p.u16 44).toNat else (p.u32 40).toNat
  (badField (decide (1 < rows) && decide ((p.u32 32).toNat < rowBytes)) 32).or <|
  badField (decide (1 < p.u16 46) && decide ((p.u32 36).toNat < (p.u16 44).toNat * (p.u32 32).toNat)) 36

/-- R366: check 6 of a copy command. -/
def chkCopyFields (kind : CopyKind) (p : Packet) : Option Rej :=
  (badField (kind == .fill && decide (2 ^ (8 * copyEsize p) ≤ (p.u32 8).toNat)) 8).or <|
  ((if kind == .checksum then none else chkCopyStrides p)).or (chkCopyShape kind p)

/-! ### Sides and ranges (R728, 16) -/

/-- Address of source element (p, i, j). -/
def CopyJob.srcAt (j : CopyJob) (pl i e : Nat) : Nat :=
  j.src + pl * j.srcStride2 + i * j.srcStride1 + e * j.esize

/-- Address of destination element (p, i, j). -/
def CopyJob.dstAt (j : CopyJob) (pl i e : Nat) : Nat :=
  if j.transpose then j.dst + e * j.dstStride1 + i * j.esize
  else j.dst + pl * j.dstStride2 + i * j.dstStride1 + e * j.esize

/-- Highest byte of the source side. -/
def CopyJob.srcTop (j : CopyJob) : Nat := j.srcAt (j.ext2 - 1) (j.ext1 - 1) (j.ext0 - 1) + j.esize - 1

/-- Highest byte of the destination side. -/
def CopyJob.dstTop (j : CopyJob) : Nat := j.dstAt (j.ext2 - 1) (j.ext1 - 1) (j.ext0 - 1) + j.esize - 1

/-- R354: bytes `lo` to `hi` - 1 of the view hold a byte which the source side names. -/
def CopyJob.srcNames (j : CopyJob) (lo hi : Nat) : Bool :=
  !j.srcHost && j.kind != .fill && (List.range j.ext2).any fun pl => (List.range j.ext1).any fun i =>
    decide (j.srcAt pl i 0 < hi) && decide (lo < j.srcAt pl i 0 + j.ext0 * j.esize)

/-- R354: bytes `lo` to `hi` - 1 of the view hold a byte which the destination side names. -/
def CopyJob.dstNames (j : CopyJob) (lo hi : Nat) : Bool :=
  let meets := fun (a n : Nat) => decide (a < hi) && decide (lo < a + n * j.esize)
  !j.dstHost && j.kind != .checksum &&
    if j.transpose then (List.range j.ext0).any fun e => meets (j.dstAt 0 0 e) j.ext1
    else (List.range j.ext2).any fun pl => (List.range j.ext1).any fun i => meets (j.dstAt pl i 0) j.ext0

/-- Bytes which the job moves. -/
def CopyJob.bytes (j : CopyJob) : Nat := j.ext0 * j.ext1 * j.ext2 * j.esize

/-- The lowest address of a range which lies outside a stratum's memory or is marked LOST. -/
def State.firstOutside (s : State) (n : FnNo) (hi : Nat) : Nat → Nat → Option Nat
  | 0, a => if hi < a then none else some a
  | k + 1, a =>
    if hi < a then none
    else
      match s.locate n a with
      | .none => some a
      | .lost => some a
      | .geode _ => s.firstOutside n hi k ((a / granuleBytes + 1) * granuleBytes)
      | .scratch _ _ => s.firstOutside n hi k ((a / scratchBytes + 1) * scratchBytes)
      | .ext _ _ _ => s.firstOutside n hi k ((a / pageBytes + 1) * pageBytes)

/-- More units than any view holds. -/
abbrev viewUnits : Nat := 70000

/-- R310: a range lies wholly in the stratum's memory. -/
def State.inView (s : State) (n : FnNo) (lo hi : Nat) : Bool := (s.firstOutside n hi viewUnits lo).isNone

/-- R367, R463: a side outside its space. -/
def chkSide (s : State) (n : FnNo) (host : Bool) (lo hi off : Nat) : Option Rej :=
  if (if host then 2 ^ 64 - 1 else 2 ^ 48 - 1) < hi then
    some ⟨stOutOfRange, BitVec.ofNat 16 off, BitVec.ofNat 64 lo, 2⟩
  else if host then none
  else (s.firstOutside n hi viewUnits lo).map fun a => ⟨stOutOfRange, BitVec.ofNat 16 off, BitVec.ofNat 64 a, 0⟩

/-- R368: the ranges of a transposing copy share a byte. -/
def chkOverlap (j : CopyJob) : Option Rej :=
  let lo := max j.src j.dst
  let hi := min j.srcTop j.dstTop
  rejIf (j.transpose && !j.srcHost && !j.dstHost && decide (lo ≤ hi))
    ⟨stCopyOverlap, 16, BitVec.ofNat 64 lo, BitVec.ofNat 64 hi⟩

/-- R369: the engine named, or every engine, is out of service. -/
def chkEngine (p : Packet) (s : State) : Option Rej :=
  if p.u8 50 = 0xFF then
    rejIf (!(List.finRange 4).any fun e => s.units.copies[e].up) ⟨stUnitFenced, 0, 0xFFFF, 0⟩
  else
    let e : EngNo := Fin.ofNat 4 (p.u8 50).toNat
    rejIf (!s.units.copies[e].up) ⟨stUnitFenced, 0, (unitId 4 e.val).setWidth 64, 0⟩

/-- Checks 6 to 8 of a copy command. -/
def chkCopy (kind : CopyKind) (n : FnNo) (p : Packet) (s : State) : Option Rej :=
  let j := copyJobOf kind 0 n p
  (chkCopyFields kind p).or <| (chkEngine p s).or <|
  ((if kind == .fill then none else chkSide s n j.srcHost j.src j.srcTop 8)).or <|
  ((if kind == .checksum then none else chkSide s n j.dstHost j.dst j.dstTop 16)).or <|
  (if kind == .copy then chkOverlap j else none)

/-! ### Placement and start (R722 to R724, R731, R732) -/

/-- Jobs of a stratum which are queued or running on an engine. -/
def State.jobsOn (s : State) (n : FnNo) (e : EngNo) : Nat :=
  (s.copies.filter fun j => j.stratum == n && j.engine == e).length +
  (s.deliveries.filter fun j => j.stratum == n && j.engine == e).length

/-- R722: the engine on which a job is placed. -/
def State.copyEngine (s : State) (n : FnNo) (p : Packet) : EngNo :=
  if p.u8 50 = 0xFF then
    ((List.finRange 4).filter fun e => s.units.copies[e].up).foldl (fun best e =>
      if !s.units.copies[best].up || s.jobsOn n e < s.jobsOn n best then e else best) 0
  else Fin.ofNat 4 (p.u8 50).toNat

/-- The acceptance of a copy command: its job is placed. -/
def acceptCopy (kind : CopyKind) (n : FnNo) (p : Packet) (id : Nat) (s : State) : State :=
  { s with copies := s.copies ++ [{ copyJobOf kind id n p with engine := s.copyEngine n p }] }

/-- The elements of a dimension, ascending or descending. -/
def runOf (n : Nat) (down : Bool) : List Nat := if down then (List.range n).reverse else List.range n

/-- R731: whether planes, rows and elements descend in a candidate. -/
def candidate : Nat → Bool × Bool × Bool
  | 2 => (true, true, true) | 3 => (false, false, true) | 4 => (true, true, false)
  | 5 => (false, true, false) | 6 => (true, false, true) | 7 => (false, true, true)
  | 8 => (true, false, false) | _ => (false, false, false)

/-- The elements of a job in the order of a candidate: (source, destination) addresses. (Log entry 19 DEDUCED.) -/
def CopyJob.order (j : CopyJob) (cand : Nat) : List (Nat × Nat) :=
  let d := candidate cand
  ((runOf j.ext2 d.1).map fun pl => ((runOf j.ext1 d.2.1).map fun i =>
    (runOf j.ext0 d.2.2).map fun e => (j.srcAt pl i e, j.dstAt pl i e)).flatten).flatten

/-- R731: no element writes a byte which a later element reads. (Log entry 20 DEDUCED.) -/
def safeOrder (esize : Nat) : List (Nat × Nat) → Bool
  | [] => true
  | x :: r => (r.all fun y => decide (y.1 + esize ≤ x.2) || decide (x.2 + esize ≤ y.1)) && safeOrder esize r

/-- R731, R732: the candidate which the engine runs, 0 for a diagonal copy. (Log entry 20 DEDUCED.) -/
def CopyJob.choose (j : CopyJob) : Nat :=
  if j.srcHost || j.dstHost || j.srcTop < j.dst || j.dstTop < j.src then 1
  else ((List.range 8).map (· + 1)).find? (fun c => safeOrder j.esize (j.order c)) |>.getD 0

/-- R732: the at-risk span of a diagonal copy, from its first byte, and its length. -/
def CopyJob.risk (j : CopyJob) : Nat × Nat := (max j.src j.dst, min j.srcTop j.dstTop + 1 - max j.src j.dst)

/-- R732, R734: what pass 1 of a diagonal copy reads into the staging buffer: its at-risk span, when that is at most
256 KiB and can be read. (Log entries 19 DEDUCED, 20 DEDUCED.) -/
def State.stageBytes (s : State) (j : CopyJob) : List Byte :=
  if j.traversal = 0 ∧ j.risk.2 ≤ 0x40000 then
    match s.viewReadN j.stratum j.risk.1 j.risk.2 with
    | .ok b => b
    | .error _ => []
  else []

/-- R498, R724, R725, R731, R1144: the engine starts the stratum's next command job, in a slot of the stratum, once none
of its runs; an engine in DRAIN still runs what it has accepted (R127). A delivery job which runs has the first burst.
(Log entry 20 DEDUCED.) -/
def startCopyJob (e : EngNo) (n : FnNo) (s : State) : State :=
  let mine := s.copies.filter fun j => j.engine == e && j.stratum == n
  if mine.any CopyJob.started || !s.units.copies[e].works then s
  else
    match mine.head? with
    | none => s
    | some j =>
      if !s.engineServes n (j.srcHost || j.dstHost) then s
      else
        let j : CopyJob := { j with started := true, traversal := if j.kind == .copy && !j.transpose then j.choose else 1 }
        let start := fun (x : CopyJob) => if x.id = j.id then j else x
        let t : State := { s with copies := s.copies.map start }
        t.modStore e n fun _ => { delivery := s.deliveries.any fun d => d.engine == e && d.stratum == n && d.started
                                  staging := s.stageBytes j }

/-- R724: COPY_JOB_START. -/
def execCopyJobStart (engine : EngNo) (stratum : FnNo) (s : State) : Host.Outcome State Fault Refusal :=
  .next (startCopyJob engine stratum s)

/-! ### The end of a job (R370 to R373, R730, R742, R743) -/

/-- How a copy ends early: status, DETAIL and DATA. -/
structure CopyFail where
  status : W16
  detail : W16
  data : BitVec 192

/-- R370, R742: the end which an access error of a side brings. (Log entry 19 DEDUCED.) -/
def copyFail (detail : W16) (a : Nat) : AccErr → CopyFail
  | .reset u c => { status := stTargetReset, detail := 0, data := dataTargetReset u c }
  | _ => { status := stOutOfRange, detail, data := BitVec.ofNat 192 a }

/-- R732: byte `a` of the source lies in the staging buffer: its value. -/
def State.staged (s : State) (j : CopyJob) (a : Nat) : Option Byte :=
  if a < j.risk.1 then none else ((s.stores[j.engine])[j.stratum]).staging[a - j.risk.1]?

/-- The element's value is read, or how it fails. `host` gives the source bytes which host memory answered. -/
def State.readElement (s : State) (j : CopyJob) (host : Nat → Byte) (k : Nat) (x : Nat × Nat) :
    Except CopyFail (List Byte) :=
  if j.kind == .fill then .ok (leBytes j.esize j.pattern.toNat)
  else if j.srcHost then .ok ((List.range j.esize).map fun i => host (k * j.esize + i))
  else
    match (List.range j.esize).mapM fun i => s.staged j (x.1 + i) with
    | some b => .ok b
    | none =>
      match s.viewReadN j.stratum x.1 j.esize with
      | .ok b => .ok ((List.range j.esize).map fun i => (s.staged j (x.1 + i)).getD ((b[i]?).getD 0))
      | .error e => .error (copyFail 8 e.1 e.2)

/-- A destination element cannot be written now. A write which covers a whole poisoned codeword is not held
up by it (R761). -/
def State.writeFails (s : State) (j : CopyJob) (x : Nat × Nat) : Option CopyFail :=
  if j.kind == .checksum || j.dstHost then none
  else (List.range j.esize).findSome? fun i =>
    match s.locError true (s.locate j.stratum (x.2 + i)) with
    | some e => some (copyFail 16 (x.2 + i) e)
    | none => none

/-- Every element is read before any is written (R730): the values up to the first failure. (Log entry 19 DEDUCED.) -/
def State.readElements (s : State) (j : CopyJob) (host : Nat → Byte) :
    Nat → List (Nat × Nat) → List (Nat × List Byte) × Option CopyFail
  | _, [] => ([], none)
  | k, x :: r =>
    match s.readElement j host k x, s.writeFails j x with
    | .error f, _ => ([], some f)
    | .ok _, some f => ([], some f)
    | .ok b, none => let t := s.readElements j host (k + 1) r; ((x.2, b) :: t.1, t.2)

/-- Elements are written. Answers the bytes written (R372), and how the write failed. (Log entry 19 DEDUCED.) -/
def State.writeElements (s : State) (j : CopyJob) (ws : List (Nat × List Byte)) : State × Nat × Option CopyFail :=
  let all := ws.length * j.esize
  if j.kind == .checksum then (s, all, none)
  else if j.dstHost then
    (s.forEach ws fun w t => t.bulkWrite j.stratum (BitVec.ofNat 64 w.1) w.2, all, none)
  else
    let flat := (ws.map fun w => (List.range w.2.length).map fun i => (w.1 + i, (w.2[i]?).getD 0)).flatten
    let t := s.makeGood j.stratum flat
    let r := t.viewWriteGo j.stratum flat
    (r.1, t.servedBytes j.stratum flat, r.2.map fun e => copyFail 16 e.1 e.2)

/-- R374: the checksum of bytes. -/
def CopyJob.sum (j : CopyJob) (bs : List Byte) : W64 := if j.crc64 then Sys2Proof.Machine.crc64 bs else (crc32c bs).setWidth 64

/-- R372, R725, R740: the completion of a job which read these elements and wrote so many bytes; the engine keeps nothing
of it, and a delivery job has the next burst. -/
def State.copyDone (s : State) (j : CopyJob) (ws : List (Nat × List Byte)) (bytes : Nat) (f : Option CopyFail) : State :=
  let n := BitVec.ofNat 64 bytes
  let r0 := if j.kind == .checksum then j.sum (ws.map (·.2)).flatten else n
  let r1 := if j.kind == .checksum then n else 0
  let t : State := { s with copies := s.copies.filter fun x => x.id ≠ j.id }
  let t := t.modStore j.engine j.stratum fun _ => EngStore.empty
  match f with
  | none => t.completeOk j.id r0 r1
  | some e => t.complete j.id e.status e.detail r0 r1 e.data

/-- A job ends early after some of the elements which it could cover (R132, R371). -/
def State.copyStops (s : State) (j : CopyJob) (ws : List (Nat × List Byte)) (f : CopyFail) : State :=
  let d := s.draw
  let some_ := ws.take (Config.progress d.1 % (ws.length + 1))
  let w := d.2.writeElements j some_
  w.1.copyDone j some_ w.2.1 (some f)

/-- A job which runs or waits is cut off with ST_TARGET_RESET of a unit (R741, R742); what it had read of host memory is
not in the state. (Log entries 15 DESIGN CHOICE, 19 DEDUCED.) -/
def State.cutJob (s : State) (j : CopyJob) (unit : W16) : State :=
  let r := s.readElements j (Config.hostByte s.free) 0 (j.order j.traversal)
  s.copyStops j (if j.started then r.1 else []) { status := stTargetReset, detail := 0, data := dataTargetReset unit 1 }

/-- A running job ends, in a slot of its stratum, and with Bus Master Enable 1 when it has a side in host memory (R498,
R1144). `host` gives the source bytes which host memory answered, in traversal order, and `fail` the host address of an
access which completed with an error. (Log entry 19 DEDUCED.) -/
def finishCopy (e : EngNo) (n : FnNo) (host : List Byte) (fail : Option W64) (s : State) : State :=
  match s.copies.find? fun j => j.engine == e && j.stratum == n && j.started with
  | none => s
  | some j =>
    if !s.engineServes n (j.srcHost || j.dstHost) then s
    else
      let r := s.readElements j (fun i => (host[i]?).getD 0) 0 (j.order j.traversal)
      match fail, r.2 with
      | some a, _ => s.copyStops j (if j.srcHost then r.1.take (host.length / j.esize) else r.1)
          { status := stOutOfRange, detail := if j.srcHost then 8 else 16, data := a.setWidth 192 }
      | none, some f => s.copyStops j r.1 f
      | none, none =>
        let w := s.writeElements j r.1
        w.1.copyDone j r.1 w.2.1 w.2.2

/-- The running jobs of an engine end with ST_TARGET_RESET of a unit (R741, R742). Answers how many. -/
def State.endJobsOn (s : State) (e : EngNo) (unit : W16) : State × Nat :=
  let js := s.copies.filter fun j => j.engine == e
  (s.forEach js fun j t => t.cutJob j unit, js.length)

/-! ### The three commands -/

/-- COPY in R306, with the fields of R366. -/
def specCopy : CmdSpec :=
  { op := 0x30, len := 48, long := true
    used := usedBits [(8, 8), (16, 8), (24, 4), (28, 4), (32, 4), (36, 4), (40, 4), (44, 2), (46, 2), (48, 1),
                      (49, 1), (50, 1)] }

/-- COPY_FILL in R306, with the fields of R366. -/
def specCopyFill : CmdSpec :=
  { op := 0x31, len := 48, long := true
    used := usedBits [(8, 4), (16, 8), (32, 4), (36, 4), (40, 4), (44, 2), (46, 2), (48, 1), (49, 1), (50, 1)] }

/-- COPY_CHECKSUM in R306, with the fields of R366. -/
def specCopyChecksum : CmdSpec :=
  { op := 0x32, len := 48, long := true
    used := usedBits [(8, 8), (24, 4), (28, 4), (40, 4), (44, 2), (46, 2), (48, 1), (49, 1), (50, 1), (51, 1)] }

/-- R366 to R372, R730: COPY. -/
def execCopy (fn : FnNo) (qp : QpNo) (pkt : Packet) (s : State) : Host.Outcome State Fault Refusal :=
  .next (longCommand specCopy fn qp pkt (chkCopy .copy fn pkt) (fun _ => none) (acceptCopy .copy fn pkt)
    (fun _ t => t) s)

/-- R366: COPY_FILL. -/
def execCopyFill (fn : FnNo) (qp : QpNo) (pkt : Packet) (s : State) : Host.Outcome State Fault Refusal :=
  .next (longCommand specCopyFill fn qp pkt (chkCopy .fill fn pkt) (fun _ => none) (acceptCopy .fill fn pkt)
    (fun _ t => t) s)

/-- R366, R373, R374: COPY_CHECKSUM. -/
def execCopyChecksum (fn : FnNo) (qp : QpNo) (pkt : Packet) (s : State) : Host.Outcome State Fault Refusal :=
  .next (longCommand specCopyChecksum fn qp pkt (chkCopy .checksum fn pkt) (fun _ => none)
    (acceptCopy .checksum fn pkt) (fun _ t => t) s)

end Sys2Proof.Machine
end

