-- ==== Sys2Proof/Machine/Posit.lean ====
section
/-!
DEFINITION. Posits, quires and binary32 (11): decoding, rounding, order, the quire, and the arithmetic of the
rescale path. A posit of `n` bits is a pattern below 2^n; its real value is carried exactly, as an integer
multiple of minpos, 2^-(4 (n - 2)), or as a fraction `num / den`.
-/

namespace Sys2Proof.Machine

/-! ### Posits (R516 to R523) -/

/-- log2 of maxpos, and of 1 / minpos (R517). -/
def posScale (n : Nat) : Nat := 4 * (n - 2)

/-- The NaR pattern. -/
def nar (n : Nat) : Nat := 2 ^ (n - 1)

/-- Length of the run of bits equal to `r` from bit `i - 1` of `p` downward. -/
def runLength (p : Nat) (r : Bool) : Nat → Nat
  | 0 => 0
  | i + 1 => if p.testBit i == r then 1 + runLength p r i else 0

/-- R516: the magnitude of a positive pattern, in units of minpos. -/
def decodeMag (n p : Nat) : Nat :=
  let r := p.testBit (n - 2)
  let m := runLength p r (n - 1)
  let restLen := n - 2 - m
  let rest := p % 2 ^ restLen
  let e := if 2 ≤ restLen then rest / 2 ^ (restLen - 2) else rest * 2 ^ (2 - restLen)
  let fl := restLen - 2
  let f := if 2 ≤ restLen then rest % 2 ^ fl else 0
  let k4 := if r then 4 * (m - 1) + posScale n else posScale n - 4 * m
  2 ^ (k4 + e - fl) * (2 ^ fl + f)

/-- R516: the value of a pattern in units of minpos, `none` for NaR. (Log entry 134 DESIGN CHOICE.) -/
def decodePosit (n p : Nat) : Option Int :=
  let q := p % 2 ^ n
  if q = 0 then some 0
  else if q = nar n then none
  else if q < nar n then some (decodeMag n q : Int)
  else some (-(decodeMag n (2 ^ n - q) : Int))

/-- ⌊log2 (a / b)⌋ for positive a and b. -/
def ratLog2 (a b : Nat) : Int :=
  let l : Int := (a.log2 : Int) - b.log2
  -- a / b lies in (2^(l-1), 2^(l+1))
  if 0 ≤ l then (if b * 2 ^ l.toNat ≤ a then l else l - 1)
  else (if b ≤ a * 2 ^ (-l).toNat then l else l - 1)

/-- The integer nearest to `a / b`, a tie going to the even one. (Log entry 134 DESIGN CHOICE.) -/
def roundEven (a b : Nat) : Nat :=
  let q := a / b
  let r := a % b
  if 2 * r > b ∨ (2 * r = b ∧ q % 2 = 1) then q + 1 else q

/-- R520: the pattern of a positive value `a / b`. (Log entry 134 DESIGN CHOICE.) -/
def encodeMag (n a b : Nat) : Nat :=
  if b * 2 ^ posScale n ≤ a then 2 ^ (n - 1) - 1
  else if a * 2 ^ posScale n ≤ b then 1
  else
    let l := ratLog2 a b
    let k := l / 4
    let e := (l % 4).toNat
    let len := if 0 ≤ k then k.toNat + 2 else (-k).toNat + 1
    let regime := if 0 ≤ k then 2 * (2 ^ (k.toNat + 1) - 1) else 1
    let avail := n - 1 - len
    let num := if 0 ≤ l then e * (b * 2 ^ l.toNat) + (a - b * 2 ^ l.toNat)
      else e * b + (a * 2 ^ (-l).toNat - b)
    let den := if 0 ≤ l then b * 2 ^ l.toNat else b
    -- the first bits of the unbounded string, cut with ties to even
    roundEven (regime * 2 ^ avail * (4 * den) + num * 2 ^ avail) (4 * den)

/-- R520: the posit nearest to `num / den`. (Log entry 134 DESIGN CHOICE.) -/
def roundPosit (n : Nat) (num : Int) (den : Nat) : Nat :=
  if num = 0 then 0
  else if 0 < num then encodeMag n num.toNat den
  else 2 ^ n - encodeMag n (-num).toNat den

/-- R522, R523: a posit of width `m` becomes one of width `n`. -/
def convertPosit (m n p : Nat) : Nat :=
  if m ≤ n then (p % 2 ^ m) * 2 ^ (n - m)
  else match decodePosit m p with
    | none => nar n
    | some v => roundPosit n v (2 ^ posScale m)

/-- R518: the pattern as a signed integer, by which posits are ordered. -/
def positKey (n p : Nat) : Int := (BitVec.ofNat n p).toInt

/-- The negative of a posit. -/
def positNeg (n p : Nat) : Nat := (2 ^ n - p % 2 ^ n) % 2 ^ n

/-! ### Quires (R524 to R537) -/

/-- A quire of width `w` as a signed integer, or NaR: the pattern with only the top bit set (R525). -/
def quireWrap (w : Nat) (v : Int) : Option Int :=
  let x := (BitVec.ofInt w v).toInt
  if x = -(2 ^ (w - 1) : Int) then none else some x

/-- R527, R530, R532: a product sum in quire units is added. -/
def quireAdd (w : Nat) (q : Option Int) (v : Option Int) : Option Int :=
  match q, v with
  | some a, some b => quireWrap w (a + b)
  | _, _ => none

/-- The pattern of a quire. -/
def quirePattern (w : Nat) (q : Option Int) : Nat :=
  match q with
  | none => 2 ^ (w - 1)
  | some v => (BitVec.ofInt w v).toNat

/-- The quire of a pattern. -/
def quireOf (w p : Nat) : Option Int := quireWrap w (BitVec.ofNat w p).toInt

/-- log2 of the weight denominator of a quire: minpos squared (R524). -/
def quireScale (n : Nat) : Nat := 2 * posScale n

/-- R539: a quire of format `n` becomes a posit of width `m`. (Log entry 134 DESIGN CHOICE.) -/
def quireToPosit (n m : Nat) (q : Option Int) : Nat :=
  match q with
  | none => nar m
  | some v => roundPosit m v (2 ^ quireScale n)

/-! ### binary32 (R538, R541, R544) -/

/-- The binary32 NaN which the module makes. -/
abbrev f32NaN : W32 := 0x7FC00000

/-- The value of a binary32 as a fraction, `none` for NaN and the infinities. A subnormal is taken as zero when
`flush` holds (R544). -/
def f32Value (flush : Bool) (x : W32) : Option (Int × Nat) :=
  let e := (x.extractLsb' 23 8).toNat
  let m := (x.extractLsb' 0 23).toNat
  let sgn : Int := if x.getLsbD 31 then -1 else 1
  if e = 255 then none
  else if e = 0 then some (if flush then 0 else sgn * m, 2 ^ 149)
  else
    let m := 2 ^ 23 + m
    if 150 ≤ e then some (sgn * (m * 2 ^ (e - 150) : Nat), 1) else some (sgn * (m : Nat), 2 ^ (150 - e))

/-- R544: a positive value `a / b` to nearest with ties to even; a small one becomes zero, and a large one the
largest finite value. -/
def f32Mag (a b : Nat) : Nat :=
  let l := ratLog2 a b
  -- 24 significant bits
  let m := if 23 ≤ l then roundEven a (b * 2 ^ (l - 23).toNat) else roundEven (a * 2 ^ (23 - l).toNat) b
  let e := (if m = 2 ^ 24 then l + 1 else l) + 127
  let frac := if m = 2 ^ 24 then 0 else m - 2 ^ 23
  if e < 1 then 0 else if 254 < e then 0x7F7FFFFF else e.toNat * 2 ^ 23 + frac

/-- R544: `num / den` in binary32. (Log entry 134 DESIGN CHOICE.) -/
def f32Round (num : Int) (den : Nat) : W32 :=
  if num = 0 then 0
  else if 0 < num then BitVec.ofNat 32 (f32Mag num.toNat den)
  else BitVec.ofNat 32 (2 ^ 31 + f32Mag (-num).toNat den)

/-- R544: a binary32 operation on fractions. -/
def f32Op (f : Int × Nat → Int × Nat → Int × Nat) (x y : W32) : W32 :=
  match f32Value true x, f32Value true y with
  | some a, some b => let r := f a b; f32Round r.1 r.2
  | _, _ => f32NaN

/-- R544: product. -/
def f32Mul (x y : W32) : W32 := f32Op (fun a b => (a.1 * b.1, a.2 * b.2)) x y

/-- R544: sum. -/
def f32Add (x y : W32) : W32 := f32Op (fun a b => (a.1 * b.2 + b.1 * a.2, a.2 * b.2)) x y

/-- R944: difference. -/
def f32Sub (x y : W32) : W32 := f32Op (fun a b => (a.1 * b.2 - b.1 * a.2, a.2 * b.2)) x y

/-- R545, R944: quotient by a value which is not zero. -/
def f32Div (x y : W32) : W32 :=
  f32Op (fun a b => (a.1 * (b.2 : Int) * b.1.sign, a.2 * b.1.natAbs)) x y

/-- R538, R540: a posit in binary32. -/
def positToF32 (n p : Nat) : W32 :=
  match decodePosit n p with
  | none => f32NaN
  | some v => f32Round v (2 ^ posScale n)

/-- R541: a binary32 as a posit. -/
def f32ToPosit (n : Nat) (x : W32) : Nat :=
  match f32Value false x with
  | none => nar n
  | some v => roundPosit n v.1 v.2

/-- R544: a quire of format `n` in binary32. -/
def quireToF32 (n : Nat) (q : Option Int) : W32 :=
  match q with
  | none => f32NaN
  | some v => f32Round v (2 ^ quireScale n)

/-- The order of binary32 values which are numbers. -/
def f32Less (x y : W32) : Bool :=
  match f32Value false x, f32Value false y with
  | some a, some b => decide (a.1 * b.2 < b.1 * a.2)
  | _, _ => false

/-- The integer nearest to a binary32 number, a tie going away from zero (R545). -/
def f32RoundAway (x : W32) : Int :=
  match f32Value false x with
  | none => 0
  | some v => v.1.sign * ((2 * v.1.natAbs + v.2) / (2 * v.2) : Nat)

end Sys2Proof.Machine
end

