-- ==== Sys2Proof/Machine/Narrow.lean ====
section
/-!
DEFINITION. The sending end of an inter-module channel (21): messages and answers, the choice of the scale,
coding, wide copies, and the frames and FRAME_MARKs which carry them.
-/

namespace Sys2Proof.Machine

/-! ### Messages (R938 to R940) -/

/-- R939: a message header. -/
structure QHead where
  kind : Nat
  outliers : Nat
  msgSeq : Nat
  rows : Nat
  cols : Nat
  s2 : Nat
  f : Nat
  z : Nat
  clipped : Nat
  srcChan : Nat
  srcSeq : Nat
  tick : Nat
  deriving DecidableEq, Repr

/-- MAGIC of a message. -/
abbrev qmsgMagic : Nat := 0x47534D51

/-- R939: the 64 bytes of a header. -/
def QHead.bytes (h : QHead) : List Byte :=
  leBytes 4 qmsgMagic ++ leBytes 1 h.kind ++ leBytes 1 h.outliers ++ leBytes 2 0 ++ leBytes 4 h.msgSeq ++
  leBytes 2 h.rows ++ leBytes 2 h.cols ++ leBytes 2 h.s2 ++ leBytes 1 h.f ++ leBytes 1 h.z ++
  leBytes 4 h.clipped ++ leBytes 2 h.srcChan ++ leBytes 6 0 ++ leBytes 8 h.srcSeq ++ leBytes 8 h.tick ++
  List.replicate 16 0

/-- R939: a header is read from the first bytes of a message. -/
def qhead (b : List Byte) : QHead :=
  { kind := fieldNat b 4 1, outliers := fieldNat b 5 1, msgSeq := fieldNat b 8 4, rows := fieldNat b 12 2,
    cols := fieldNat b 14 2, s2 := fieldNat b 16 2, f := fieldNat b 18 1, z := fieldNat b 19 1,
    clipped := fieldNat b 20 4, srcChan := fieldNat b 24 2, srcSeq := fieldNat b 32 8, tick := fieldNat b 40 8 }

/-- A number rounded up to a multiple of `m`. -/
def roundUp (n m : Nat) : Nat := (n + m - 1) / m * m

/-- R940: CSTRIDE and WSTRIDE. -/
def cstride (cols : Nat) : Nat := roundUp cols 16
def wstride (cols : Nat) : Nat := roundUp (2 * cols) 16

/-- R940: offset of the outlier region. -/
def outlierOffset (rows cols : Nat) : Nat := roundUp (128 + rows * cstride cols) 64

/-- R940: bytes of a message of a kind. -/
def QHead.size (h : QHead) : Nat :=
  if h.kind = 1 then
    if h.outliers = 0 then 128 + h.rows * cstride h.cols else outlierOffset h.rows h.cols + 32 * h.rows
  else if h.kind = 2 then 128 + h.rows * wstride h.cols
  else 64

/-- A posit16 power of two. -/
def isPow2Posit16 (p : Nat) : Bool :=
  match decodePosit 16 p with
  | some v => decide (0 < v) && v.toNat == 2 ^ v.toNat.log2
  | none => false

/-- R939: the fields of a message lie within their legal values, and its regions are there.
(Log entry 161 DESIGN CHOICE.) -/
def QHead.legal (h : QHead) (b : List Byte) : Bool :=
  let answer := decide (3 ≤ h.kind)
  fieldNat b 0 4 == qmsgMagic && decide (1 ≤ h.kind) && decide (h.kind ≤ 5) && decide (h.size ≤ b.length) &&
    fieldNat b 6 2 == 0 && (b.drop 26 |>.take 6).all (· == 0) && (b.drop 48 |>.take 16).all (· == 0) &&
    (if answer then h.outliers == 0 && (b.drop 12 |>.take 52).all (· == 0)
     else (h.kind != 2 || (h.s2 == 0x4000 && h.f == 0x40 && h.z == 0 && h.clipped == 0)) && decide (h.outliers ≤ 16) && decide (1 ≤ h.rows) && decide (h.rows ≤ 4096) && decide (1 ≤ h.cols) &&
       decide (h.cols ≤ 4096) && decide (h.rows * h.cols ≤ 2 ^ 20) && isPow2Posit16 h.s2 &&
       decide (0x40 ≤ h.f) && decide (h.f ≤ 0x48) && decide (h.srcChan ≤ 4095) &&
       decide (h.clipped ≤ h.rows * (h.cols - h.outliers)))

/-! ### The transmitter of a channel end (R860, R865, R938, R951) -/

/-- Pieces of at most 4096 bytes. -/
def pieces : Nat → List Byte → List (List Byte)
  | 0, _ => []
  | n + 1, b => if b.isEmpty then [] else b.take 4096 :: pieces n (b.drop 4096)

/-- R938: the items of a message. -/
def messageItems (kind : BitVec 8) (msgSeq : W32) (bytes : List Byte) : List QItem :=
  (pieces (bytes.length + 1) bytes).map (fun p => { payload := p, kind, msgSeq }) ++
    [{ payload := [], kind, msgSeq }]

/-- The first item of a channel end's queue is sent, and leaves the queue. (Log entry 60 DEDUCED.) -/
def State.sendFirst (s : State) (x : Chan) (i : QItem) : State :=
  let p := s.ports[x.port]
  if i.payload.isEmpty then
    let b := p.perBuf
    let charge := if x.q.txUsed % b = 0 then 0 else b - x.q.txUsed % b
    let seq := p.txSeq
    let t := (s.sendMark x.port x.partnerCh).modChan x.num fun y => { y with
      q := { y.q with
        queue := y.q.queue.drop 1, midway := false, txUsed := 0
        tx := { y.q.tx with consumed := y.q.tx.consumed + BitVec.ofNat 16 charge }
        copies := y.q.copies.map fun w =>
          if i.kind = 1 ∧ w.msgSeq = i.msgSeq then { w with markSeq := some seq } else w } }
    -- the WIDE message which a WIDE_REQ asked for has been sent: its copy is released (R950)
    if i.kind = 2 then
      (t.releaseFrame x.num i.msgSeq.toNat true).modChan x.num fun y => { y with
        q := { y.q with copies := y.q.copies.filter fun w => w.msgSeq ≠ i.msgSeq } }
    else t
  else
    let k := p.creditsOf i.payload.length
    (s.sendFrame x.port 2 x.partnerCh i.payload).modChan x.num fun y => { y with
      q := { y.q with
        queue := y.q.queue.drop 1, midway := true, txUsed := y.q.txUsed + k
        tx := { y.q.tx with consumed := y.q.tx.consumed + BitVec.ofNat 16 k } } }

/-- The first item of a channel end's queue can be sent now (R850, R860, R507). (Log entry 60 DEDUCED.) -/
def State.mayItem (s : State) (x : Chan) (i : QItem) : Bool :=
  let p := s.ports[x.port]
  s.slotServes x.stratum &&
    (if i.payload.isEmpty then p.canSend 8
     else p.canSend (16 + (i.payload.length + 7) / 8 * 8) && x.q.tx.allows (p.creditsOf i.payload.length))

/-- Items of a channel end's queue are sent while they can be. (Log entry 60 DEDUCED.) -/
def State.pumpChan (c : Nat) : Nat → State → State
  | 0, s => s
  | n + 1, s =>
    match s.chan c with
    | none => s
    | some x =>
      match x.q.queue with
      | [] => s
      | i :: _ => if s.mayItem x i then (s.sendFirst x i).pumpChan c n else s

/-- Every channel end of a port, or of every port, sends what it can. (Log entry 60 DEDUCED.) -/
def State.pumpChans (s : State) (p : Option PortNo) : State :=
  let cs := s.chans.filter fun c => c.kind1 && (match p with | some q => c.port == q | none => true)
  (s.forEach cs fun c t => t.pumpChan c.num (c.q.queue.length)).settlePool

/-- The queue with a message put directly after the one in progress, ahead of any other (R951). -/
def aheadOf (midway : Bool) (queue items : List QItem) : List QItem :=
  if midway then
    let head := queue.takeWhile fun i => !i.payload.isEmpty
    head ++ (queue.drop head.length).take 1 ++ items ++ (queue.drop head.length).drop 1
  else items ++ queue

/-- R938: a message joins the queue of a channel end, and what can be sent is sent. `first` puts it ahead. -/
def State.sendMessage (s : State) (c : Nat) (kind : BitVec 8) (msgSeq : W32) (bytes : List Byte)
    (first : Bool) : State :=
  match s.chan c with
  | none => s
  | some x =>
    let items := messageItems kind msgSeq bytes
    let opening : List QItem := if x.q.opened then [] else [{ payload := [], kind := 0, msgSeq := 0 }]
    let queue := if first then aheadOf x.q.midway (opening ++ x.q.queue) items else opening ++ x.q.queue ++ items
    let t := s.modChan c fun y => { y with q := { y.q with queue, opened := true } }
    t.pumpChan c queue.length

/-- R939, R954: an answer. -/
def State.sendAnswer (s : State) (c : Nat) (kind : Nat) (msgSeq : W32) : State :=
  s.sendMessage c (BitVec.ofNat 8 kind) msgSeq
    (QHead.bytes { kind, outliers := 0, msgSeq := msgSeq.toNat, rows := 0, cols := 0, s2 := 0, f := 0, z := 0,
                   clipped := 0, srcChan := 0, srcSeq := 0, tick := 0 }) false

/-! ### The scale and the codes (R944 to R946) -/

/-- R944: largest and smallest real element of a tensor, in binary32; zero when it has none. -/
def rangeOf (xs : List W32) : W32 × W32 :=
  match xs.filter fun x => (f32Value false x).isSome with
  | [] => (0, 0)
  | x :: r => (r.foldl (fun m y => if f32Less m y then y else m) x,
               r.foldl (fun m y => if f32Less y m then y else m) x)

/-- The scale of a narrow message: S2 as a posit16, F as a posit8, Z, and s in binary32. -/
structure QScale where
  s2 : Nat
  f : Nat
  z : Nat
  s : W32
  deriving DecidableEq, Repr

/-- 255 in binary32. -/
abbrev f32_255 : W32 := 0x437F0000

/-- R944: S2, F, s and Z for a remembered range. -/
def chooseScale (hi lo : W32) : QScale :=
  let hi := if f32Less hi 0 then 0 else hi
  let lo := if f32Less 0 lo then 0 else lo
  let r := f32Sub hi lo
  if r = 0 then { s2 := 0x4000, f := 0x40, z := 0, s := 0x3F800000 }
  else
    let sigma := f32Div r f32_255
    let e : Int := match f32Value false sigma with
      | some v => if v.1 = 0 then -56 else max (-56) (min 56 (ratLog2 v.1.natAbs v.2))
      | none => 56
    let two := if 0 ≤ e then ((2 : Int) ^ e.toNat, 1) else (1, 2 ^ (-e).toNat)
    let s2 := roundPosit 16 two.1 two.2
    let t := f32Div sigma (f32Round two.1 two.2)
    -- F is 1 + j / 8
    let j := match f32Value false t with
      | some v => if v.1 ≤ v.2 then 0 else min 8 ((8 * (v.1.toNat - v.2) + v.2 - 1) / v.2)
      | none => 8
    let f := 0x40 + j
    let sc := f32Mul (positToF32 8 f) (positToF32 16 s2)
    { s2, f, z := (max 0 (min 255 (f32RoundAway (f32Div (f32Sub 0 lo) sc)))).toNat, s := sc }

/-- R545: the code of an element, and whether it counts as clipped. -/
def codeOf (q : QScale) (x : W32) : Nat × Bool :=
  match f32Value false x with
  | none => (q.z, true)
  | some _ =>
    let i := f32RoundAway (f32Div x q.s) + q.z
    if i < 0 then (0, true) else if 255 < i then (255, true) else (i.toNat, false)

/-- R944: the range which the previous K messages of a channel give, or the tensor itself. -/
def rememberedRange (k : Nat) (history : List (W32 × W32)) (own : W32 × W32) : W32 × W32 :=
  match history.take k with
  | [] => own
  | h :: r => (r.foldl (fun m y => if f32Less m y.1 then y.1 else m) h.1,
               r.foldl (fun m y => if f32Less y.2 m then y.2 else m) h.2)

/-- A row of bytes padded with zeros. -/
def padRow (n : Nat) (b : List Byte) : List Byte := b ++ List.replicate (n - b.length) 0

/-- A tensor read for sending: rows of patterns. -/
structure Tensor where
  rows : List (List Nat)
  cols : Nat
  wide32 : Bool
  deriving DecidableEq, Repr

/-- R948: the posit16 pattern of an element. -/
def Tensor.p16 (t : Tensor) (p : Nat) : Nat := if t.wide32 then convertPosit 32 16 p else p

/-- R538: an element in binary32. -/
def Tensor.f32 (t : Tensor) (p : Nat) : W32 := positToF32 (if t.wide32 then 32 else 16) p

/-- The outlier list region (R940). -/
def outlierRegion (list : List Nat) : List Byte :=
  padRow 64 ((list.map fun c => leBytes 2 c).flatten)

/-- R940: the narrow message which a header, a scale and an outlier list give, and the wide copy. Answers the
narrow bytes, the wide bytes and CLIPPED. -/
def buildMessages (t : Tensor) (h : QHead) (q : QScale) (list : List Nat) :
    List Byte × List Byte × Nat :=
  let coded := t.rows.map fun r => (List.range t.cols).map fun c =>
    if list.contains c then (q.z, false) else codeOf q (t.f32 ((r[c]?).getD 0))
  let clipped := ((coded.map fun r => (r.filter fun e => e.2).length)).sum
  let codes := (coded.map fun r => padRow (cstride t.cols) (r.map fun e => BitVec.ofNat 8 e.1)).flatten
  let region := (t.rows.map fun r =>
    padRow 32 ((list.map fun c => leBytes 2 (t.p16 ((r[c]?).getD 0))).flatten)).flatten
  let wide := (t.rows.map fun r => padRow (wstride t.cols) ((r.map fun p => leBytes 2 (t.p16 p)).flatten)).flatten
  let n := { h with kind := 1, outliers := list.length, s2 := q.s2, f := q.f, z := q.z, clipped }
  let w := { h with kind := 2, outliers := list.length, s2 := 0x4000, f := 0x40, z := 0, clipped := 0 }
  let body := n.bytes ++ outlierRegion list ++ codes
  (if list.isEmpty then body else padRow (outlierOffset t.rows.length t.cols) body ++ region,
    w.bytes ++ outlierRegion list ++ wide, clipped)

/-- The clipped share in units of 2^-24 (R953, R970). -/
def clippedShare (clipped e : Nat) : Nat := if e = 0 then 0 else clipped * 2 ^ 24 / e

/-! ### Offers and sends (R941 to R952) -/

/-- R972: SEND_DROPPED, at most once per PERIOD of the channel. -/
def State.sendDropped (s : State) (x : Chan) (cause : Nat) (srcSeq : W64) : State :=
  let quiet := match x.q.droppedAt with
    | some t => decide ((s.tick - t).toNat < x.period)
    | none => false
  if quiet then s
  else (s.modChan x.num fun y => { y with q := { y.q with droppedAt := some s.tick } }).occur x.stratum 0x8001
    (BitVec.ofNat 64 (x.num + 2 ^ 16 * cause)) srcSeq

/-- The run of a channel-frame. -/
def State.runOf (s : State) (c q : Nat) : Option Run := s.runs.find? fun r => r.chan = c && r.seq.toNat = q

/-- R542, R595: the outputs which an OUT area delivers. -/
def outputsOf (header : List Byte) (binary32 : Bool) (out : List Byte) : List Byte :=
  let e := if fieldNat header 25 1 = 1 then 2 else 4
  ((List.range (fieldNat header 24 1)).map fun (i : Nat) =>
    let p := fieldNat out (e * i) e
    if binary32 then leBytes 4 (positToF32 (8 * e) p).toNat
    else leBytes 2 (if e = 2 then p else convertPosit 32 16 p)).flatten

/-- A channel-frame whose program has ended receives its result, with the outputs of its OUT area (R595). -/
def State.finishRun (s : State) (c q : Nat) : State :=
  match s.runOf c q with
  | some r =>
    let outs := match s.prog r.stratum r.prog with
      | some p => match p.launch with
        | some l => outputsOf p.header l.binary32 r.out
        | none => []
      | none => []
    s.finishFrame c q false outs
  | none => s

/-- Scratch cluster and first byte of the window of position 0 of a run (R942). -/
def State.window0 (s : State) (r : Run) : Option (PhysNo × Nat) :=
  match r.positions.head?, s.prog r.stratum r.prog with
  | some p, some g =>
    match s.mapping[p.cluster], spGet g.windows p.cluster.val with
    | some c, some o => some (c, o)
    | _, _ => none
  | _, _ => none

/-- Bytes of the scratch of a cluster. -/
def State.scratchN (s : State) (c : PhysNo) (o n : Nat) : List Byte :=
  (List.range n).map fun i => memRead 0 s.scratch[c] (o + i)

/-- The tensor which an offer names is read. -/
def State.readTensor (s : State) (c : PhysNo) (o : Nat) (f : Offer) : Tensor :=
  let e := if f.wide32 then 4 else 2
  { rows := (List.range f.rows).map fun i => (List.range f.cols).map fun j =>
      leNat (s.scratchN c (o + f.addr + i * f.stride + j * e) e)
    cols := f.cols, wide32 := f.wide32 }

/-- R949: pool buffers of a wide copy. (Log entry 59 DEDUCED.) -/
def Offer.buffers (f : Offer) : Nat := (f.rows * f.cols * 2 + 16383) / 16384

/-- R948, R699: ALLOTTED buffers of a channel hold a wide copy. (Log entry 59 DEDUCED.) -/
def State.takeCopy (s : State) (x : Chan) (n msgSeq : Nat) : State :=
  let new := ((s.geo.bufs.filter fun b => b.state == .allotted && b.chan == x.num).map (·.num)).take n
  s.modBufs fun l => l.map fun b =>
    if new.contains b.num then { b with state := .held, frame := msgSeq, copy := true } else b

/-- The offer of a channel-frame leaves the list of a send channel. -/
def State.dropOffer (s : State) (c : Nat) (f : Offer) : State :=
  s.modChan c fun y => { y with q := { y.q with offers := y.q.offers.filter fun x => x != f } }

/-- R974: in REPRODUCIBLE mode an offered tensor is held while a channel-frame of the same channel with a lower FRAME_SEQ
has neither offered its tensor nor ended, and behind the tensors of such frames. -/
def State.offerHeld (s : State) (x : Chan) (o : Offer) : Bool :=
  let offered := fun (g : Frame) => s.chans.any fun y => y.q.offers.any fun z => z.srcChan == g.chan && z.srcSeq.toNat == g.seq
  match s.frame o.srcChan o.srcSeq.toNat with
  | none => false
  | some f => f.repro &&
      ((s.frames.any fun g => g.chan == f.chan && decide (g.seq < f.seq) && g.unfinished && !offered g) ||
        x.q.offers.any fun z => z.srcChan == o.srcChan && decide (z.srcSeq < o.srcSeq))

/-- R943, R974: the offer which a send channel sends next: the oldest which is not held. -/
def State.nextOffer (s : State) (x : Chan) : Option Offer := x.q.offers.find? fun o => !s.offerHeld x o

/-- R943 to R949, R974: the next offer of a send channel is read, coded and sent, once its wide copy fits.
(Log entry 59 DEDUCED.) -/
def State.startSend (s : State) (c : Nat) : State :=
  match s.chan c with
  | none => s
  | some x =>
    match s.nextOffer x with
    | none => s
    | some f =>
      if s.ports[x.port].st != .active || s.spare c < f.buffers + 1 then s
      else
        match s.runOf f.srcChan f.srcSeq.toNat with
        | none => s.dropOffer c f
        | some r =>
          match s.window0 r with
          | none => (s.dropOffer c f).finishRun f.srcChan f.srcSeq.toNat
          | some w =>
            let t := s.readTensor w.1 w.2 f
            let own := rangeOf ((t.rows.flatten).map t.f32)
            let range := rememberedRange x.q.k x.q.history own
            let sc := chooseScale range.1 range.2
            let list := (x.q.outlierList.take x.q.outliers).filter fun i => decide (i < f.cols)
            let h : QHead := { kind := 1, outliers := 0, msgSeq := x.q.msgSeq.toNat, rows := f.rows,
                               cols := f.cols, s2 := 0, f := 0, z := 0, clipped := 0, srcChan := f.srcChan,
                               srcSeq := f.srcSeq.toNat, tick := s.tick.toNat }
            let m := buildMessages t h sc list
            let share := clippedShare m.2.2 (f.rows * (f.cols - list.length))
            let copy : WideCopy := { msgSeq := x.q.msgSeq, bytes := m.2.1, markSeq := none, acked := none,
                                     requested := false }
            let u := (s.takeCopy x f.buffers x.q.msgSeq.toNat).modChan c fun y => { y with
              q := { y.q with
                offers := y.q.offers.filter fun z => z != f, copies := y.q.copies ++ [copy]
                history := (own :: y.q.history).take 8, msgSeq := y.q.msgSeq + 1, sent := y.q.sent + 1
                sentShare := BitVec.ofNat 32 share } }
            let u : State := { u with scratch := vmod u.scratch w.1 fun m => memWriteList 0 m w.2 [0, 0, 0, 0] }
            (u.sendMessage c 1 x.q.msgSeq m.1 false).finishRun f.srcChan f.srcSeq.toNat

/-- The send channel which a channel-frame's program and input feed (R941). -/
def State.sendChannel (s : State) (n : FnNo) (pid input : Nat) : Option Chan :=
  s.chans.find? fun c => c.stratum == n && c.kind1 && c.q.send && c.route.prog == pid && c.route.input == input

/-- R942: the descriptor of a channel-frame names a legal tensor inside the window. -/
def legalDescriptor (d : List Byte) (window : Nat) : Bool :=
  let f := fun o n => fieldNat d o n
  let e := if f 4 1 = 2 then 4 else 2
  (f 4 1 == 1 || f 4 1 == 2) && f 5 3 == 0 && decide (1 ≤ f 8 2) && decide (f 8 2 ≤ 4096) &&
    decide (1 ≤ f 10 2) && decide (f 10 2 ≤ 4096) && decide (f 8 2 * f 10 2 ≤ 2 ^ 20) && f 12 4 % 64 == 0 &&
    decide (64 ≤ f 12 4) && f 16 4 % 16 == 0 && decide (f 10 2 * e ≤ f 16 4) &&
    (d.drop 20 |>.take 44).all (· == 0) &&
    decide (f 12 4 + (f 8 2 - 1) * f 16 4 + f 10 2 * e ≤ window)

/-- R943, R949, R952: every position of a channel-frame has completed END: the tensor which it offers is sent,
waits to be sent, or is not sent; in the first and the last case the frame result follows. `window` is the
length of the program's scratch window. -/
def State.offerTensor (s : State) (r : Run) (input window : Nat) : State :=
  match s.sendChannel r.stratum r.prog input, s.window0 r with
  | some x, some w =>
    let d := s.scratchN w.1 w.2 64
    if fieldNat d 0 4 ≠ 0x444E5351 then s.finishRun r.chan r.seq.toNat
    else
      let clear : State := { s with scratch := vmod s.scratch w.1 fun m => memWriteList 0 m w.2 [0, 0, 0, 0] }
      let f : Offer := { srcChan := r.chan, srcSeq := r.seq, rows := fieldNat d 8 2, cols := fieldNat d 10 2,
                         wide32 := fieldNat d 4 1 == 2, addr := fieldNat d 12 4, stride := fieldNat d 16 4 }
      if !legalDescriptor d window then (clear.sendDropped x 1 r.seq).finishRun r.chan r.seq.toNat
      else if x.cap < f.buffers + 1 then (clear.sendDropped x 2 r.seq).finishRun r.chan r.seq.toNat
      else if s.ports[x.port].st != .active then (clear.sendDropped x 3 r.seq).finishRun r.chan r.seq.toNat
      else
        let t := s.modChan x.num fun y => { y with q := { y.q with offers := y.q.offers ++ [f] } }
        if (s.nextOffer x).isNone then t.startSend x.num else t
  | _, _ => s.finishRun r.chan r.seq.toNat

/-- R952, R959: what becomes of the send ends and waiting channel-frames of a port which enters DISABLED. -/
def State.dropPortMessages (s : State) (p : PortNo) : State :=
  let cs := (s.chans.filter fun c => c.port == p && c.kind1)
  s.forEach cs fun x t =>
    let t := t.forEach x.q.copies fun w u => u.releaseFrame x.num w.msgSeq.toNat true
    let t := t.modChan x.num fun y => { y with q := { y.q with copies := [], offers := [], answers := [] } }
    let t := t.forEach x.q.answers fun a u => u.releaseFrame x.num a.seq false
    let t := t.forEach x.q.offers fun f u => (u.sendDropped x 3 f.srcSeq).finishRun f.srcChan f.srcSeq.toNat
    t.abortAll (t.frames.filter fun f => f.chan == x.num && f.stage == .wide)

/-! ### Events of the sending end -/

/-- R949: SEND_START. -/
def execSendStart (channel : Nat) (s : State) : Host.Outcome State Fault Refusal := .next (s.startSend channel)

/-- A wide copy is released (R950). -/
def State.releaseCopy (s : State) (c : Nat) (m : W32) : State :=
  ((s.releaseFrame c m.toNat true).modChan c fun y => { y with
    q := { y.q with copies := y.q.copies.filter fun w => w.msgSeq ≠ m } }).settlePool

/-- R950: 10 ms after the acknowledgement of a narrow message without an answer, its wide copy is released. -/
def copyTimeout (c : Nat) (m : W32) (s : State) : State :=
  match s.chan c with
  | none => s
  | some x =>
    match x.q.copies.find? fun w => w.msgSeq = m with
    | none => s
    | some w =>
      match w.acked with
      | none => s
      | some t => if w.requested then s else (s.reach (t + 8000000)).releaseCopy c m

/-- R950: WIDE_COPY_TIMEOUT. -/
def execWideCopyTimeout (channel : Nat) (msgSeq : W32) (s : State) : Host.Outcome State Fault Refusal :=
  .next (copyTimeout channel msgSeq s)

/-- The oldest answer of a kind at a channel end, and the state in which its frame has given up its buffers. -/
def State.takeAnswer (s : State) (c : Nat) (kind : BitVec 8) : Option (Chan × Answer × State) :=
  match s.chan c with
  | none => none
  | some x =>
    match x.q.answers.find? fun a => a.kind = kind with
    | none => none
    | some a =>
      let t := s.modChan c fun y => { y with q := { y.q with answers := y.q.answers.filter fun b => b ≠ a } }
      some (x, a, t)

/-- An answer is acted on: `f` follows the release of its buffers. -/
def onAnswer (c : Nat) (kind : BitVec 8) (f : Chan → Answer → State → State) (s : State) : State :=
  match s.takeAnswer c kind with
  | none => s
  | some (x, a, t) => (f x a (t.releaseFrame c a.seq false)).settlePool

/-- R950: ACCEPT_ANSWER. -/
def execAcceptAnswer (channel : Nat) (s : State) : Host.Outcome State Fault Refusal :=
  .next (onAnswer channel 3 (fun _ a t => t.releaseCopy channel a.msgSeq) s)

/-- R950, R951: a WIDE_REQ is answered with the WIDE message, or with UNAVAILABLE. -/
def wideReq (c : Nat) (x : Chan) (a : Answer) (s : State) : State :=
  match x.q.copies.find? fun w => w.msgSeq = a.msgSeq && !w.requested with
  | none => s.sendAnswer c 5 a.msgSeq
  | some w =>
    (s.modChan c fun y => { y with q := { y.q with
      wideSent := y.q.wideSent + 1
      copies := y.q.copies.map fun v => if v.msgSeq = w.msgSeq then { v with requested := true } else v } }).sendMessage
      c 2 w.msgSeq w.bytes true

/-- R951: WIDE_REQ. -/
def execWideReq (channel : Nat) (s : State) : Host.Outcome State Fault Refusal :=
  .next (onAnswer channel 4 (wideReq channel) s)

/-- The channel-frame which waits for the WIDE message of a number. -/
def State.waitingWide (s : State) (c : Nat) (m : W32) : Option Frame :=
  s.frames.find? fun f => f.chan = c && f.stage == .wide && fieldNat f.payload 8 4 == m.toNat

/-- R955, R956: a WIDE message makes its channel-frame ready; one which nothing waits for is dropped. -/
def wideMessage (c : Nat) (s : State) : State :=
  match s.takeAnswer c 2 with
  | none => s
  | some (_, a, t) =>
    match t.waitingWide c a.msgSeq with
    | none => ((t.releaseFrame c a.seq false).countDrop c).settlePool
    | some f =>
      let t := t.modBufs fun l => l.map fun b =>
        if b.chan == c && b.frame == a.seq && !b.copy && b.state == .held then { b with frame := f.seq } else b
      let t := t.modChan c fun y => { y with q := { y.q with wideCount := y.q.wideCount + 1 } }
      (t.modFrame c f.seq fun g => { g with wideMsg := a.bytes }).makeReady c f.seq s.tick

/-- R955: WIDE_MESSAGE. -/
def execWideMessage (channel : Nat) (s : State) : Host.Outcome State Fault Refusal :=
  .next (wideMessage channel s)

/-- R957: UNAVAILABLE ends the waiting channel-frame. -/
def unavailable (c : Nat) (x : Chan) (a : Answer) (s : State) : State :=
  match s.waitingWide c a.msgSeq with
  | none => s
  | some f => (s.abortFrame c f.seq).occur x.stratum 0x8002 (BitVec.ofNat 64 x.num) (a.msgSeq.setWidth 64)

/-- R957: UNAVAILABLE. -/
def execUnavailable (channel : Nat) (s : State) : Host.Outcome State Fault Refusal :=
  .next (onAnswer channel 5 (unavailable channel) s)

end Sys2Proof.Machine
end

