-- ==== Sys2Proof/Machine/Ports.lean ====
section
/-!
DEFINITION. Port training and width changes (18): the states of a port and their transitions, TS and NEG
blocks, deskew, lane failures, and the WIDTH_CHANGE handshake.
-/

namespace Sys2Proof.Machine

/-! ### Lanes and blocks of training (R785 to R790) -/

/-- Lanes of a port, lowest first. -/
def lanesOf (p : PortNo) : List LaneNo := (List.finRange 4).map (laneOf p)

/-- The lanes of a port in a mask. -/
def lanesIn (p : PortNo) (m : BitVec 4) : List LaneNo :=
  ((List.finRange 4).filter fun i => m.getLsbD i.val).map (laneOf p)

/-- The lane is not fenced. -/
def State.laneUp (s : State) (l : LaneNo) : Bool := s.units.lanes[l].up

/-- The mask of the lanes of a port which satisfy a test. -/
def maskOf (p : PortNo) (f : LaneNo → Bool) : BitVec 4 :=
  ((lanesOf p).filter f).foldl (fun m l => m ||| laneBit l) 0

/-- The `w` lowest-numbered lanes of a mask. -/
def lowestLanes (m : BitVec 4) (w : Nat) : BitVec 4 :=
  (((List.range 4).filter fun i => m.getLsbD i).take w).foldl (fun x i => x ||| (1#4 <<< i)) 0

/-- The widest of 4, 2 and 1 which does not exceed a count; 0 for none. -/
def widest (n : Nat) : Nat := if 4 ≤ n then 4 else if 2 ≤ n then 2 else n

/-- STAGE of the TS which a port sends (R786, R799, R821), 0 for none. -/
def Port.stage (p : Port) : Nat :=
  match p.st with
  | .detect => 1
  | .equalize => 2
  | .retrain => if p.retrainStep = 1 then 3 else 0
  | _ => 0

/-- A TS block (R786). -/
def tsBlock (stage reason maxWidth : Nat) (l : LaneNo) (x : LaneSt) : W64 :=
  let b1 := 16 * stage + 4 * (l.val % 4) + (if x.locked then 2 else 0) + (if x.done then 1 else 0)
  BitVec.ofNat 64 (leNat ([0x4B] ++ leBytes 1 b1 ++ leBytes 1 (16 * x.request.toNat + x.applied.toNat) ++
    leBytes 1 reason ++ leBytes 1 maxWidth ++ [0x10] ++ leBytes 2 x.tsSeq.toNat))

/-- A lane sends a TS so many times, each with the next SEQ; the log shows the first. -/
def State.sendTs (s : State) (l : LaneNo) (stage reason count : Nat) : State :=
  (s.modLane l fun x => { x with tsSeq := x.tsSeq + BitVec.ofNat 16 count }).emit
    (.laneBlock l (tsBlock stage reason s.ports[portOf l].maxWidth l s.lanes[l]) count)

/-- The TS of a lane changes in content while its port sends TS. -/
def State.showTs (s : State) (l : LaneNo) : State :=
  let p := s.ports[portOf l]
  if !(s.units.lanes[l].testing).isEmpty then s.sendTs l 2 0 1
  else if p.stage ≠ 0 && s.laneUp l then s.sendTs l p.stage 0 1 else s

/-- Every lane of a list shows its TS. -/
def State.showAll (s : State) (ls : List LaneNo) : State := s.forEach ls fun l t => t.showTs l

/-- The lanes which train: those not fenced. -/
def State.training (s : State) (p : PortNo) : List LaneNo := (lanesOf p).filter s.laneUp

/-- R787: what a side keeps of TS blocks is forgotten as a stage begins. -/
def LaneSt.newStage (x : LaneSt) : LaneSt :=
  { x with farTs := none, request := 0xF, margins := [], done := false, arrival := none, deskewed := false,
           farDeskewed := false }

/-- A lane which begins the sweep of R798. -/
def LaneSt.sweep (x : LaneSt) : LaneSt := { x with request := 0 }

/-! ### Lanes which leave service (R802, R820, R1010) -/

/-- A Poica lane is fenced, with a fault record (R802). Answers the record's INDEX. (Log entry 55 DEDUCED.) -/
def State.fenceLane (s : State) (l : LaneNo) (cause : BitVec 8) : State × Nat :=
  let lanes := vmod s.units.lanes l fun u => { u with fenced := true, passed := false }
  let t : State := { s with units := { s.units with lanes } }
  t.fault 1 cause (unitId 6 l.val) (strataMask (s.portStrata (portOf l))) 1 0xFF 0xFFFF 0

/-- The lanes of a list are fenced as training leaves them out (R801, R802). (Log entry 55 DEDUCED.) -/
def State.fenceLanes (s : State) (ls : List LaneNo) : State :=
  s.forEach ls fun l t => (t.fenceLane l 6).1

/-! ### Leaving ACTIVE (R455, R886, R1005) -/

/-- DATA of a completion record which names a port (R464). -/
def dataPort (p : PortNo) : BitVec 192 := BitVec.ofNat 192 p.val

/-- The `bad` completion of a command which a port's state ends. -/
def State.portCommandEnds (s : State) (p : PortNo) (id : Nat) (status : W16) (r0 : W64) : State :=
  s.complete id status 0 r0 0 (dataPort p)

/-- R886, R1006: synchronisation ends; the module tells when it was synchronised. A TICK_SYNC without completion goes on,
unless its port left ACTIVE (R455). -/
def State.syncLost (s : State) (p : PortNo) (cause : BitVec 8) : State :=
  match s.ports[p].sync with
  | none => s
  | some y =>
    let keeps := cause != 1 && y.cmd.isSome
    let t := s.modPort p fun q => { q with sync := if keeps then some { y with synced := false } else none }
    let t := match y.cmd with
      | some id => if keeps then t else t.complete id stLinkDown 0 0 0 (dataPort p)
      | none => t
    if y.synced then
      let dests := (List.finRange 16).filter fun n =>
        n.val = 0 || (t.liveStrata.contains n && t.scheduled.any fun d => d.stratum == n && d.requireSync)
      t.occurAll dests 0x7002 (BitVec.ofNat 64 (p.val + 256 * cause.toNat)) (BitVec.ofInt 64 y.theta)
    else t

/-- The lane of a draining UNIT_FENCE is fenced and the command completes (R431, R832). -/
def State.endLaneFence (s : State) (id : Nat) (l : LaneNo) : State :=
  if s.units.lanes[l].fenced then s.completeOk id 0 0
  else
    let strata := s.portStrata (portOf l)
    let r := s.fenceLane l 0x0A
    let t := r.1.unitFailed (unitId 6 l.val) 0x0A 1 strata r.2
    let t := t.modPort (portOf l) fun q => { q with lanes := q.lanes &&& ~~~laneBit l }
    t.completeOk id 0 0

/-- The width change which the module initiated, and a PORT_SET_WIDTH behind it, end without effect. -/
def State.dropWidthChange (s : State) (p : PortNo) : State :=
  let q := s.ports[p]
  let t := s.modPort p fun x => { x with wc := none, farWc := none, widthCmd := none }
  let t := match q.wc with
    | some w =>
      match w.cause with
      | .command id => t.portCommandEnds p id stLinkDown 0
      | .fence id l => t.endLaneFence id l
      | .failure => t
    | none => t
  match q.widthCmd with
  | some c => t.portCommandEnds p c.1 stLinkDown 0
  | none => t

/-- What ends as a port leaves ACTIVE. -/
def State.leaveActive (s : State) (p : PortNo) : State :=
  if s.ports[p].st != .active then s
  else
    let t := (s.dropWidthChange p).syncLost p 1
    let t := if p.val = 7 then t.endPair 1 false else t
    if p.val = 7 && t.lock.st == .pairing then
      let u := t.modLock fun l => { l with st := .unpaired, cmd := none }
      match t.lock.cmd with
      | some id => u.portCommandEnds p id stLinkDown 0
      | none => u
    else t

/-! ### DISABLED (R800, R801, R823, R879) -/

/-- R879: what becomes of the channels of a port which enters DISABLED. -/
def State.dropPortFrames (s : State) (p : PortNo) : State :=
  s.forEach ((s.chans.filter fun c => c.port == p).map (·.num)) fun c t =>
    (t.dropOpen c).modChan c fun x => { x with
      noFrame := true, strayCounted := false, used := 0, rx := Credit.zero
      slate := { x.slate with notices := [] }
      q := { x.q with opened := false, tx := Credit.zero, queue := [], midway := false, txUsed := 0 } }

/-- R800: the status with which a TRAIN or RETRAIN ends. -/
def reasonStatus (reason : BitVec 8) : W16 :=
  if reason = 0x08 ∨ reason = 0x09 ∨ reason = 0x0A then stPartnerRefused else stTrainFailed

/-- A port enters DISABLED with a reason. A host reset writes no completion (R116). -/
def State.toDisabled (s : State) (p : PortNo) (reason : BitVec 8) : State :=
  let cmd := s.ports[p].cmd
  let t := s.leaveActive p
  let t := (t.dropPortFrames p).modPort p fun q => { q with
    st := .disabled, reason, cmd := none, lanes := 0, inUse := 0, replay := [], incoming := none
    farAccepted := false, wc := none, farWc := none, retrainStep := 0, skipping := false, nakAt := none }
  let t := t.forEach (lanesOf p) fun l u => u.modLane l fun x => { LaneSt.idle with rejoin := x.rejoin }
  let t := ((t.dropPortMessages p).portLapseEnds p).notePort p
  let t := match cmd with
    | some id => t.complete id (reasonStatus reason) 0 t.ports[p].res t.ports[p].partnerLow (dataPort p)
    | none => t
  (t.reclaimAll s).settlePool

/-- The port sends TS STAGE 0xF with a reason 16 times on every lane in service, and is DISABLED (R801). -/
def State.disableByHost (s : State) (p : PortNo) : State :=
  let ls := match s.ports[p].st with
    | .detect | .equalize | .align => s.training p
    | _ => lanesIn p s.ports[p].lanes
  (s.forEach ls fun l t => t.sendTs l 0xF 3 16).toDisabled p 3

/-! ### The record exchange (R806 to R816) -/

/-- R808, R809: the module's negotiation record for a port. -/
def Port.record (p : Port) : List Byte :=
  let serial := (List.finRange 12).foldl (fun n i => n * 36 + (Config.serialDigit i).val) 0
  let body := [1, 0, 2] ++ leBytes 1 p.role.toNat ++ leBytes 2 0xC4E7 ++ leBytes 2 0x4820 ++ [0x10, 0, 0, 0] ++
    leBytes 8 serial ++ leBytes 1 p.maxWidth ++ [0] ++ leBytes 2 (if p.role = 1 then 1024 else 0) ++ [0, 0] ++
    leBytes 2 0 ++ [12, 1] ++ leBytes 2 64 ++ List.replicate 60 0
  body ++ leBytes 4 (crc32c body).toNat

/-- R806: a RECORD fragment. -/
def negRecord (rec : List Byte) (i : Nat) : W64 :=
  BitVec.ofNat 64 (leNat ([0x55] ++ leBytes 1 (0x10 + i) ++ (rec.drop (6 * i)).take 6))

/-- R806: an ACCEPT of the record whose CRC field is given. -/
def negAccept (crc : List Byte) : W64 := BitVec.ofNat 64 (leNat ([0x55, 0x20] ++ crc ++ [0, 0]))

/-- R806: a REFUSE with a code and the offset of the offending field. -/
def negRefuse (code off : Nat) : W64 :=
  BitVec.ofNat 64 (leNat ([0x55, 0x30] ++ leBytes 1 code ++ leBytes 2 off ++ [0, 0, 0]))

/-- A block is replicated on every aligned lane of a port. -/
def State.replicate (s : State) (p : PortNo) (w : W64) (count : Nat) : State :=
  s.forEach (lanesIn p s.ports[p].lanes) fun l t => t.emit (.laneBlock l w count)

/-- R813: the record exchange begins. -/
def State.beginExchange (s : State) (p : PortNo) : State :=
  let t := s.modPort p fun q => { q with
    frags := Vector.replicate 16 none, incoming := none, farAccepted := false }
  t.forEach (List.range 16) fun i u => u.replicate p (negRecord u.ports[p].own i) 1

/-- R807, R812: the offset of the first field of a far record outside its legal values. -/
def illegalField (r : List Byte) : Option Nat :=
  let f := fun o n => fieldNat r o n
  let fe := f 2 1 == 1
  let tests : List (Bool × Nat) := [
    (f 4 2 == 0, 4), (f 20 1 != 1 && f 20 1 != 2 && f 20 1 != 4, 20),
    (if fe then decide (7 < f 21 1) else f 21 1 != 0, 21),
    (decide (1024 < f 22 2) || (fe && f 22 2 == 0), 22),
    (if fe then f 24 1 == 0 || decide (16 < f 24 1) else f 24 1 != 0, 24),
    (f 25 1 != 0 && f 1 1 == 0, 25),
    (if fe then f 26 2 == 0 || decide (511 < f 26 2) else f 26 2 != 0, 26),
    (decide (f 28 1 < 6) || decide (14 < f 28 1), 28), (decide (3 < f 29 1), 29),
    (decide (f 30 2 < 16) || decide (1024 < f 30 2), 30),
    ((r.drop 32 |>.take 60).any (· != 0) && f 1 1 == 0, 32)]
  (tests.find? fun t => t.1).map (·.2)

/-- R816: the refusal code of a far record and the offset of the offending field. -/
def State.refusal (s : State) (p : PortNo) (r : List Byte) : Option (Nat × Nat) :=
  let q := s.ports[p]
  let kind := fieldNat r 2 1
  let bound := (s.chans.filter fun c => c.port == p).map (·.partnerCh)
  if fieldNat r 0 1 ≠ 1 then some (1, 0)
  else if kind ≠ (if q.role = 0 then 1 else 2) then some (2, 2)
  else if fieldNat r 3 1 ≠ q.role.toNat then some (2, 3)
  else match illegalField r with
    | some o => some (3, o)
    | none =>
      if (r.drop 4).take 16 = (q.own.drop 4).take 16 then some (4, 4)
      else if bound.any fun c => fieldNat r 22 2 ≤ c then some (5, 22)
      else none

/-! ### ACTIVE (R810, R815, R818, R819, R845, R853, R858) -/

/-- R810: the widest width which neither side's MAX_WIDTH excludes. -/
def Port.agreedMax (p : Port) : Nat := min p.maxWidth (fieldNat p.far 20 1)

/-- Numbering, credits and the replay buffer start afresh at an entry to ACTIVE from NEGOTIATE (R845, R858).
(Log entry 54 DEDUCED.) -/
def State.freshLink (s : State) (p : PortNo) : State :=
  let t := s.modPort p fun q => { q with
    txSeq := 0, rxSeq := 0, replay := [], oldestSent := s.tick, oldestResent := 0, nakAt := none
    skipping := false, lockRx := Credit.zero, lockTx := Credit.zero
    withdrawn := q.withdrawn.map fun w => (w.1, Credit.zero, 0), farCredits := [] }
  t.forEach ((t.chans.filter fun c => c.port == p).map (·.num)) fun c u => u.modChan c fun x => { x with
    rx := Credit.zero, used := 0, q := { x.q with opened := false, tx := Credit.zero, txUsed := 0 } }

/-- R855: credit for CH 4095 covers the 64 KiB receive area. -/
def State.creditLock (s : State) (p : PortNo) : State :=
  let q := s.ports[p]
  if q.role ≠ 2 then s
  else
    let limit := BitVec.ofNat 16 (65536 / 2 ^ q.gLog2)
    (s.modPort p fun x => { x with lockRx := { limit, consumed := 0 } }).emit
      (.block p (creditBlock 4095 false limit))

/-- Tick synchronisation as a source towards a front end which offers it (19). -/
def State.frontEndSync (s : State) (p : PortNo) : State :=
  if s.ports[p].role = 0 && s.ports[p].farCap 0 then
    s.modPort p fun q => { q with sync := some {
      source := true, cmd := none, began := s.tick, a := none, theta := 0, good := 0, bad := 0
      lastEcho := s.tick, synced := false } }
  else s

/-- The exchange of R815 is complete both ways: the port enters ACTIVE. -/
def State.enterActive (s : State) (p : PortNo) : State :=
  let q := s.ports[p]
  let retrain := q.st == .retrain
  let far := q.incoming.getD q.far
  let w := widest (min (min q.maxWidth (fieldNat far 20 1)) (laneCount q.lanes))
  let t := s.modPort p fun x => { x with
    st := .active, reason := 0, far, incoming := none, inUse := lowestLanes x.lanes w, cmd := none
    retrainStep := 0 }
  let t := if retrain then t.portLapseEnds p else ((t.freshLink p).creditLock p).frontEndSync p
  let t := t.notePort p
  let t := match q.cmd with
    | some id => t.complete id stOk 0 t.ports[p].res t.ports[p].partnerLow 0
    | none => t
  let t := match retrain, t.ports[p].replay.head? with
    | true, some i => t.replayFrom p i.seq
    | _, _ => t
  (t.pumpChans (some p)).pumpLock

/-- R815: the exchange completes once the far record is accepted and an ACCEPT has come. -/
def State.endExchange (s : State) (p : PortNo) : State :=
  if s.ports[p].incoming.isSome && s.ports[p].farAccepted then s.enterActive p else s

/-- A whole far record with a correct CRC has been received: it is accepted or refused (R815, R816, R821).
(Log entry 56 DEDUCED.) -/
def State.judgeRecord (s : State) (p : PortNo) (r : List Byte) : State :=
  let q := s.ports[p]
  let accept := (s.modPort p fun x => { x with incoming := some r }).replicate p (negAccept (r.drop 92)) 8
  if q.st == .retrain then
    if r = q.far then accept.endExchange p
    else (s.replicate p (negRefuse 3 0) 16).toDisabled p 9
  else
    match s.refusal p r with
    | some e => (s.replicate p (negRefuse e.1 e.2) 16).toDisabled p 9
    | none => accept.endExchange p

/-- The port is in a record exchange, and the lane is aligned. -/
def State.exchanging (s : State) (l : LaneNo) : Bool :=
  let q := s.ports[portOf l]
  (q.st == .negotiate || (q.st == .retrain && q.retrainStep == 3)) && q.lanes.getLsbD (l.val % 4)

/-- The far record when every fragment has been accepted and its CRC holds. -/
def Port.whole (p : Port) : Option (List Byte) :=
  if (List.finRange 16).all fun i => (match p.frags[i] with | some f => f.2.2 | none => false) then
    let r := ((List.finRange 16).map fun i => match p.frags[i] with
      | some f => leBytes 6 f.1.toNat
      | none => []).flatten
    if fieldNat r 92 4 = (crc32c (r.take 92)).toNat then some r else none
  else none

/-! ### EQUALIZE, ALIGN and RETRAIN (R798, R801, R804, R821) -/

/-- The timer of a state starts. -/
def State.startTimer (s : State) (p : PortNo) (ms : Nat) : State :=
  s.modPort p fun q => { q with due := s.tick + BitVec.ofNat 64 (800000 * ms) }

/-- A port enters EQUALIZE: every lane not fenced trains again, and locked lanes begin the sweep. -/
def State.enterEqualize (s : State) (p : PortNo) : State :=
  let ls := s.training p
  let t := (s.modPort p fun q => { q with st := .equalize, lanes := 0, inUse := 0, retrainStep := 0 }).startTimer p 10
  let t := t.forEach (lanesOf p) fun l u => u.modLane l fun x =>
    if ls.contains l && x.locked then x.newStage.sweep else x.newStage
  (t.showAll ls).notePort p

/-- R801: DETECT is left once a lane has block lock and agreeing TS STAGE 0x1 with LOCKED 1. -/
def State.checkDetect (s : State) (p : PortNo) : State :=
  if s.ports[p].st != .detect then s
  else
    match (s.training p).find? fun l =>
      let x := s.lanes[l]
      x.locked && (match x.farTs with | some v => v.extractLsb' 4 4 == 1#4 && v.getLsbD 1 | none => false) with
    | none => s
    | some l =>
      let v := (s.lanes[l].farTs).getD 0
      (s.modPort p fun q => { q with noted := v.extractLsb' 24 16 }).enterEqualize p

/-- The far side shows DONE in EQUALIZE. -/
def LaneSt.farDone (x : LaneSt) : Bool :=
  match x.farTs with
  | some v => v.extractLsb' 4 4 == 2#4 && v.getLsbD 0
  | none => false

/-- The lane is equalised in both directions. -/
def LaneSt.equalised (x : LaneSt) : Bool := x.locked && x.done && x.farDone

/-- R801: the port enters ALIGN with the equalised lanes; every other lane is fenced. -/
def State.enterAlign (s : State) (p : PortNo) : State :=
  let t := s.fenceLanes ((s.training p).filter fun l => !(s.lanes[l].equalised))
  let t := (t.modPort p fun q => { q with st := .align, lanes := maskOf p t.laneUp }).startTimer p 4
  (t.forEach (lanesOf p) fun l u => u.modLane l fun x => { x with
    arrival := none, deskewed := false, farDeskewed := false }).notePort p

/-- R801: EQUALIZE is left once every locked lane is done in both directions, and at least one is. -/
def State.checkEqualize (s : State) (p : PortNo) : State :=
  let ls := (s.training p).filter fun l => s.lanes[l].locked
  if s.ports[p].st == .equalize && !ls.isEmpty && ls.all fun l => s.lanes[l].equalised then s.enterAlign p else s

/-- R801: the port enters NEGOTIATE with an aligned set. -/
def State.enterNegotiate (s : State) (p : PortNo) (set : BitVec 4) : State :=
  let t := s.fenceLanes ((s.training p).filter fun l => set &&& laneBit l = 0)
  let t := (t.modPort p fun q => { q with st := .negotiate, lanes := set, own := q.record }).startTimer p 6
  (t.notePort p).beginExchange p

/-- The steps of R821 follow one another. (Log entry 54 DEDUCED.) -/
def State.retrainAligned (s : State) (p : PortNo) (set : BitVec 4) : State :=
  (s.modPort p fun q => { q with retrainStep := 3, lanes := set }).beginExchange p

/-- A set of lanes keeps its arrivals within 64 UI of one another. -/
def within64 (as : List Int) : Bool := as.all fun a => as.all fun b => decide ((a - b).natAbs ≤ 64)

/-- R804: the largest set of lanes with a mark of the sequence, within 64 UI, a tie going to the set with the
lowest-numbered lane. -/
def State.alignedSet (s : State) (p : PortNo) (seq : W16) : BitVec 4 :=
  let arrived := fun (l : LaneNo) => match s.lanes[l].arrival with
    | some a => a.1 == seq && s.ports[p].lanes &&& laneBit l != 0
    | none => false
  let ok := fun (m : BitVec 4) => (lanesIn p m).all arrived &&
    within64 ((lanesIn p m).filterMap fun l => (s.lanes[l].arrival).map (·.2))
  -- ascending masks: of two sets of one size, the one with the lowest-numbered lane wins
  (((List.range 15).map fun i => BitVec.ofNat 4 (i + 1)).filter ok).foldl (fun best m =>
    if laneCount best < laneCount m then m
    else if laneCount best = laneCount m && decide ((best &&& (0 - best)).toNat > (m &&& (0 - m)).toNat) then m
    else best) 0

/-- R804: the set is chosen, and its lanes become deskewed. -/
def State.chooseSet (s : State) (p : PortNo) (seq : W16) : State :=
  let set := s.alignedSet p seq
  s.forEach (lanesOf p) fun l t => t.modLane l fun x => { x with deskewed := set &&& laneBit l != 0 }

/-- R801, R821: both sides show DESKEWED on the chosen set. -/
def State.checkAlign (s : State) (p : PortNo) : State :=
  let q := s.ports[p]
  let set := maskOf p fun l => s.lanes[l].deskewed && q.lanes &&& laneBit l != 0
  if set ≠ 0 && (lanesIn p set).all fun l => s.lanes[l].farDeskewed then
    if q.st == .align then s.enterNegotiate p set
    else if q.st == .retrain && q.retrainStep == 2 then s.retrainAligned p set
    else s
  else s

/-- A port enters RETRAIN (R801, R821, R824). (Log entry 54 DEDUCED.) -/
def State.enterRetrain (s : State) (p : PortNo) : State :=
  let t := s.leaveActive p
  let t := (t.modPort p fun q => { q with
    st := .retrain, retrainStep := 1, retrains := q.retrains + 1, skipping := false, nakAt := none }).startTimer p 5
  let t := t.forEach (lanesIn p t.ports[p].lanes) fun l u => u.modLane l LaneSt.newStage
  ((t.showAll (lanesIn p t.ports[p].lanes)).notePort p).portLapse p

/-- R821: step 1 ends once both sides show LOCKED 1 on every lane in service. (Log entry 54 DEDUCED.) -/
def State.checkRetrain (s : State) (p : PortNo) : State :=
  let q := s.ports[p]
  let ls := lanesIn p q.lanes
  let ok := fun (l : LaneNo) => s.lanes[l].locked && (match s.lanes[l].farTs with
    | some v => v.extractLsb' 4 4 == 3#4 && v.getLsbD 1
    | none => false)
  if q.st == .retrain && q.retrainStep == 1 && !ls.isEmpty && ls.all ok then
    let t := s.modPort p fun x => { x with retrainStep := 2 }
    t.forEach ls fun l u => u.modLane l fun x => { x with arrival := none, deskewed := false, farDeskewed := false }
  else s

/-! ### Width changes (R825 to R832) -/

/-- R790: a WIDTH_CHANGE block. -/
def widthBlock (op : Nat) (mask : BitVec 4) (width reason : Nat) (seq : W16) : W64 :=
  BitVec.ofNat 64 (leNat ([0x66] ++ leBytes 1 (16 * op + mask.toNat) ++ leBytes 1 width ++ leBytes 1 reason ++
    leBytes 2 seq.toNat ++ [0, 0]))

/-- R825, R830: REQ is sent, with a fresh WC_SEQ. -/
def State.sendReq (s : State) (p : PortNo) (w : WidthChange) : State :=
  let q := s.ports[p]
  (s.modPort p fun x => { x with
    wc := some { w with seq := q.wcSeq, tries := w.tries + 1, sent := s.tick }, wcSeq := x.wcSeq + 1 }).replicate p
    (widthBlock 1 w.mask w.width 0 q.wcSeq) 1

/-- A width change begins. -/
def State.beginChange (s : State) (p : PortNo) (cause : WcCause) (mask : BitVec 4) (width : Nat) : State :=
  (s.sendReq p { cause, mask, width, seq := 0, tries := 0, refused := false, acked := false, sent := s.tick,
                 began := s.tick }).portLapse p

/-- R386, R831: a PORT_SET_WIDTH begins, or ends at once. -/
def State.beginSetWidth (s : State) (p : PortNo) (id width : Nat) : State :=
  let q := s.ports[p]
  if laneCount q.lanes < width then s.portCommandEnds p id stLinkDown (BitVec.ofNat 64 q.width)
  else if width = q.width then s.completeOk id (BitVec.ofNat 64 width) 0
  else s.beginChange p (.command id) (lowestLanes q.lanes width) width

/-- Once no width change is under way, a PORT_SET_WIDTH which waits begins (R831). -/
def State.nextWidth (s : State) (p : PortNo) : State :=
  let q := s.ports[p]
  match q.wc, q.farWc, q.widthCmd with
  | none, none, some c => (s.modPort p fun x => { x with widthCmd := none }).beginSetWidth p c.1 c.2
  | some w, none, _ => if w.acked || w.refused || w.tries ≠ 0 then s else s.sendReq p w
  | _, _, _ => s

/-- Lanes in use change to a mask (R825). -/
def State.switchLanes (s : State) (p : PortNo) (mask : BitVec 4) : State :=
  ((s.modPort p fun q => { q with inUse := mask }).notePort p).portLapseEnds p

/-- The width change which the module initiated completes. -/
def State.changeDone (s : State) (p : PortNo) (w : WidthChange) : State :=
  let t := (s.modPort p fun q => { q with wc := none }).switchLanes p w.mask
  let t := match w.cause with
    | .command id => t.completeOk id (BitVec.ofNat 64 w.width) 0
    | .fence id l => t.endLaneFence id l
    | .failure => t
  t.nextWidth p

/-- The width change which the module initiated failed (R829, R830). -/
def State.changeFailed (s : State) (p : PortNo) (w : WidthChange) : State :=
  match w.cause with
  | .command id =>
    (((s.modPort p fun q => { q with wc := none }).portLapseEnds p).complete id stPartnerRefused 0
      (BitVec.ofNat 64 s.ports[p].width) 0 (dataPort p)).nextWidth p
  | _ => s.enterRetrain p

/-- R801, R820, R826: a narrowing after a lane failure begins, ahead of any other width change. -/
def State.narrow (s : State) (p : PortNo) : State :=
  let q := s.ports[p]
  let width := min q.width (min (widest (min 2 (laneCount q.lanes))) q.agreedMax)
  let t := match q.wc with
    | some w =>
      match w.cause with
      | .command id => s.modPort p fun x => { x with wc := none, widthCmd := some (id, w.width) }
      | .fence id l => (s.modPort p fun x => { x with wc := none }).endLaneFence id l
      | .failure => s
    | none => s
  let t := t.modPort p fun x => { x with farWc := none }
  t.beginChange p .failure (lowestLanes t.ports[p].lanes width) width

/-- R820, R832, R1010: a lane in use fails or is fenced at once: the port narrows or retrains (R801).
(Log entry 55 DEDUCED.) -/
def State.laneFailBy (s : State) (l : LaneNo) (cause : BitVec 8) : State :=
  let p := portOf l
  let q := s.ports[p]
  if q.st != .active || q.inUse &&& laneBit l = 0 then s
  else
    let strata := s.portStrata p
    let r := s.fenceLane l cause
    let t := r.1.unitFailed (unitId 6 l.val) cause 1 strata r.2
    let t := t.modPort p fun x => { x with lanes := x.lanes &&& ~~~laneBit l }
    if t.ports[p].lanes = 0 then t.enterRetrain p else t.narrow p

/-- R820: a lane in use fails. (Log entry 54 DEDUCED.) -/
def State.laneFail (s : State) (l : LaneNo) : State := s.laneFailBy l 6

/-- R785, R820: a block error on a lane; more than 32 within 1 ms fail a lane in use. (Log entry 57 DEDUCED.) -/
def State.blockError (s : State) (l : LaneNo) : State :=
  let near := s.lanes[l].errors.filter fun t => s.tick - t < 800000
  let t := s.modLane l fun x => { x with errors := near ++ [s.tick] }
  if 32 < near.length + 1 then t.laneFail l else t

/-- R785: the control block types. -/
def listedType (b : Nat) : Bool := [0x1E, 0x2D, 0x4B, 0x55, 0x66, 0x78, 0x87, 0x99, 0xAA, 0xCC].contains b

/-- A block arrives which the row's rule does not describe: one of an unlisted type is a block error.
(Log entry 57 DEDUCED.) -/
def State.otherBlock (s : State) (l : LaneNo) (w : W64) : State :=
  if listedType (w.toNat % 256) then s else s.blockError l

/-! ### PORT_TRAIN (R378 to R381, R801) -/

/-- PORT_TRAIN in R375. -/
def specPortTrain : CmdSpec :=
  { op := 0x40, len := 8, long := true, pfOnly := true, used := usedBits [(8, 1), (9, 1), (10, 1), (11, 1), (12, 2)] }

/-- The port which a command names at offset 8. -/
def Packet.port (p : Packet) : PortNo := Fin.ofNat 8 (p.u8 8).toNat

/-- R463: ST_LINK_DOWN with the port's state. -/
def State.linkDown (s : State) (c : Bool) (p : PortNo) : Option Rej :=
  rejIf c ⟨stLinkDown, 0, s.ports[p].res ||| BitVec.ofNat 64 (2 ^ 32 * p.val), 0⟩

/-- R378: the legal values of PORT_TRAIN. -/
def chkTrainFields (p : Packet) : Option Rej :=
  let op := p.u8 9
  let role := p.u8 10
  let w := p.u8 11
  (badField (decide (7 < p.u8 8)) 8).or <| (badField (op == 0 || decide (3 < op)) 9).or <|
  (badField (if op = 1 then decide (2 < role) || (role == 1 && decide (p.u8 8 < 6)) || (role == 2 && p.u8 8 != 7)
    else role != 0) 10).or <|
  (badField (if op = 3 then w != 0 else w != 1 && w != 2 && w != 4) 11).or <|
  badField (if op = 1 then p.u16 12 == 0 else p.u16 12 != 0) 12

/-- R379: the port carries a lock-step pairing. -/
def State.carriesPair (s : State) (p : PortNo) : Bool :=
  p.val == 7 && (s.lock.st == .paired || s.lock.st == .pairing)

/-- R379: check 7 of PORT_TRAIN. -/
def chkTrain (p : Packet) (s : State) : Option Rej :=
  let q := s.ports[Packet.port p]
  (chkTrainFields p).or <|
  (badState (p.u8 9 == 1 && q.st != .disabled)).or <|
  (badState (p.u8 9 == 3 && (s.chans.any (fun c => c.port == Packet.port p) || s.carriesPair (Packet.port p) ||
    q.sync.isSome))).or <|
  s.linkDown (p.u8 9 == 2 && q.st != .active) (Packet.port p)

/-- R801: a port begins to train. Lanes of R835 train as any lane. -/
def State.beginTrain (s : State) (p : PortNo) (role : BitVec 8) (maxWidth ms id : Nat) : State :=
  let t := s.forEach (lanesOf p) fun l u =>
    if u.lanes[l].rejoin then
      ({ u with units := { u.units with lanes := vmod u.units.lanes l fun x => { x with fenced := false } } }).modLane
        l fun x => { x with rejoin := false }
    else u
  let t := t.modPort p fun q => { q with role, maxWidth, cmd := some id, retrains := 0, far := [] }
  if !t.units.ports[p].up || (t.training p).isEmpty then t.toDisabled p 0x0B
  else
    let t := (t.modPort p fun q => { q with st := .detect, reason := 0 }).startTimer p ms
    let t := t.forEach (lanesOf p) fun l u => u.modLane l fun _ => LaneSt.idle
    (t.showAll (t.training p)).notePort p

/-- PORT_TRAIN carries out its OP. -/
def trainWork (p : Packet) (id : Nat) (s : State) : State :=
  let n := Packet.port p
  if p.u8 9 = 1 then s.beginTrain n (p.u8 10) (p.u8 11).toNat (p.u16 12).toNat id
  else if p.u8 9 = 2 then
    (s.modPort n fun q => { q with cmd := some id, maxWidth := (p.u8 11).toNat }).enterRetrain n
  else
    let t := if s.ports[n].st == .disabled then s else s.disableByHost n
    t.completeOk id t.ports[n].res t.ports[n].partnerLow

/-- R378 to R381, R801: PORT_TRAIN TRAIN. A packet with an OP which R378 does not list is answered here.
(Log entry 16 DEDUCED.) -/
def execPortTrainTrain (fn : FnNo) (qp : QpNo) (pkt : Packet) (s : State) : Host.Outcome State Fault Refusal :=
  .next (if pkt.u8 9 = 2 ∨ pkt.u8 9 = 3 then s
    else longCommand specPortTrain fn qp pkt (chkTrain pkt) (fun _ => none) (fun _ t => t) (trainWork pkt) s)

/-- R378 to R381, R801: PORT_TRAIN RETRAIN. (Log entry 16 DEDUCED.) -/
def execPortTrainRetrain (fn : FnNo) (qp : QpNo) (pkt : Packet) (s : State) : Host.Outcome State Fault Refusal :=
  .next (if pkt.u8 9 = 2 then
      longCommand specPortTrain fn qp pkt (chkTrain pkt) (fun _ => none) (fun _ t => t) (trainWork pkt) s
    else s)

/-- R378 to R381, R801: PORT_TRAIN DISABLE. (Log entry 16 DEDUCED.) -/
def execPortTrainDisable (fn : FnNo) (qp : QpNo) (pkt : Packet) (s : State) : Host.Outcome State Fault Refusal :=
  .next (if pkt.u8 9 = 3 then
      longCommand specPortTrain fn qp pkt (chkTrain pkt) (fun _ => none) (fun _ t => t) (trainWork pkt) s
    else s)

/-! ### PORT_STATUS and PORT_SET_WIDTH (R382 to R386) -/

/-- R382: the status block of a port. -/
def State.portBlock (s : State) (p : PortNo) : List Byte :=
  let q := s.ports[p]
  leBytes 1 q.st.code ++ leBytes 1 q.width ++ leBytes 1 q.lanes.toNat ++
  leBytes 1 q.reason.toNat ++ leBytes 1 q.role.toNat ++ leBytes 1 q.latency ++
  leBytes 2 (s.chans.filter fun c => c.port == p).length ++
  (q.partnerId ++ List.replicate 16 0).take 16 ++ leBytes 8 q.crcErrors.toNat ++ leBytes 8 q.replays.toNat ++
  leBytes 4 q.retrains.toNat ++ List.replicate 20 0

/-- PORT_STATUS in R375. -/
def specPortStatus : CmdSpec := { op := 0x41, len := 16, used := usedBits [(8, 1), (16, 8)] }

/-- R382, R383: checks 6 and 8 of PORT_STATUS. -/
def chkPortStatus (fn : FnNo) (p : Packet) (s : State) : Option Rej :=
  (badField (decide (7 < p.u8 8)) 8).or <| (badBuf p 16).or <|
  notPermitted (decide (fn.val ≠ 0) && !(s.portStrata (Packet.port p)).contains fn) 8

/-- R382, R383: PORT_STATUS. -/
def execPortStatus (fn : FnNo) (qp : QpNo) (pkt : Packet) (s : State) : Host.Outcome State Fault Refusal :=
  .next (shortCommand specPortStatus fn qp pkt (chkPortStatus fn pkt) (fun _ => none)
    (fun t =>
      let b := t.portBlock (Packet.port pkt)
      (t.writeBlock fn (pkt.u64 16) b, { r0 := BitVec.ofNat 64 (fieldNat b 0 8) })) s)

/-- PORT_SET_WIDTH in R375. -/
def specPortSetWidth : CmdSpec :=
  { op := 0x42, len := 8, long := true, pfOnly := true, used := usedBits [(8, 1), (9, 1)] }

/-- A PORT_SET_WIDTH of the port has no completion. -/
def Port.settingWidth (p : Port) : Bool :=
  p.widthCmd.isSome || (match p.wc with | some w => (match w.cause with | .command _ => true | _ => false) | none => false)

/-- R384, R385: checks 6 and 7 of PORT_SET_WIDTH. -/
def chkSetWidth (p : Packet) (s : State) : Option Rej :=
  let q := s.ports[Packet.port p]
  let w := p.u8 9
  (badField (decide (7 < p.u8 8)) 8).or <| (badField (w != 1 && w != 2 && w != 4) 9).or <|
  (s.linkDown (q.st != .active) (Packet.port p)).or <|
  badState (decide (laneCount q.lanes < w.toNat) || decide (q.maxWidth < w.toNat) || q.settingWidth)

/-- R386, R831: the handshake begins, or waits for the one under way. -/
def setWidth (p : Packet) (id : Nat) (s : State) : State :=
  (s.modPort (Packet.port p) fun q => { q with widthCmd := some (id, (p.u8 9).toNat) }).nextWidth (Packet.port p)

/-- R384 to R386, R825: PORT_SET_WIDTH. -/
def execPortSetWidth (fn : FnNo) (qp : QpNo) (pkt : Packet) (s : State) : Host.Outcome State Fault Refusal :=
  .next (longCommand specPortSetWidth fn qp pkt (chkSetWidth pkt) (fun _ => none) (fun _ t => t)
    (setWidth pkt) s)

/-! ### Block lock and lane failures (R783, R820) -/

/-- R783: a lane acquires block lock; in EQUALIZE its sweep begins (R798). -/
def lockLane (l : LaneNo) (s : State) : State :=
  let q := s.ports[portOf l]
  if q.st == .disabled || !(s.laneUp l || !(s.units.lanes[l].testing).isEmpty) then s
  else
    let t := s.modLane l fun x => if q.st == .equalize && !x.locked then { x with locked := true }.sweep
      else { x with locked := true }
    (((t.showTs l).checkDetect (portOf l)).checkRetrain (portOf l))

/-- R783: BLOCK_LOCK_ACQUIRED. -/
def execBlockLockAcquired (lane : LaneNo) (s : State) : Host.Outcome State Fault Refusal :=
  .next (lockLane lane s)

/-- R783, R820: a lane loses block lock; a lane in use fails. -/
def unlockLane (l : LaneNo) (s : State) : State :=
  let t := (s.modLane l fun x => { x with locked := false, deskewed := false }).showTs l
  (t.laneFail l).checkEqualize (portOf l)

/-- R783: BLOCK_LOCK_LOST. -/
def execBlockLockLost (lane : LaneNo) (s : State) : Host.Outcome State Fault Refusal :=
  .next (unlockLane lane s)

/-- R820: LANE_FAILURE. -/
def execLaneFailure (lane : LaneNo) (s : State) : Host.Outcome State Fault Refusal := .next (s.laneFail lane)

/-! ### TS (R782, R786, R787, R797, R798) -/

/-- R786: the fields of a TS lie within their legal values. (Log entry 57 DEDUCED.) -/
def tsLegal (w : W64) : Bool :=
  let b := blockBytes w
  let f := fun i => fieldNat b i 1
  (f 0 == 0x4B) && [1, 2, 3, 15].contains (f 1 / 16) && (decide (f 2 / 16 < 8) || f 2 / 16 == 15) &&
    decide (f 2 % 16 < 8) && (f 1 / 16 == 15 || f 3 == 0) && [1, 2, 4].contains (f 4)

/-- R797, R798: the presets which a TS requests and reports take effect on a lane. -/
def LaneSt.presets (x : LaneSt) (v : BitVec 40) : LaneSt :=
  let req := v.extractLsb' 12 4
  let rep := v.extractLsb' 8 4
  { x with
    applied := if req = 0xF then x.applied else req
    done := x.done || (x.margins.length == 8 && rep == x.request) }

/-- A side acts on agreeing TS blocks (R787, R801). -/
def State.actTs (s : State) (l : LaneNo) (v : BitVec 40) : State :=
  let p := portOf l
  let q := s.ports[p]
  let stage := v.extractLsb' 4 4
  if q.st == .disabled then s
  else if stage = 0xF then s.toDisabled p 0x0A
  else if q.st == .active then
    if stage = 3 ∧ q.inUse &&& laneBit l ≠ 0 then s.enterRetrain p
    else s.modLane l fun x => { x.presets v with farTs := some v }
  else
    let before := s.lanes[l]
    let t := s.modLane l fun x => { x.presets v with farTs := some v }
    let t := if t.lanes[l].applied = before.applied ∧ t.lanes[l].done = before.done then t else t.showTs l
    ((t.checkDetect p).checkEqualize p).checkRetrain p

/-- R782, R787: a TS arrives on a lane; `inverted` tells that it arrived with every bit inverted.
(Log entry 57 DEDUCED.) -/
def rxTs (l : LaneNo) (w : W64) (inverted : Bool) (s : State) : State :=
  let x := s.lanes[l]
  let q := s.ports[portOf l]
  if q.st == .disabled || !(s.laneUp l || !(s.units.lanes[l].testing).isEmpty) then s
  else if inverted != x.inverted then
    if q.st == .detect && tsLegal w then s.modLane l fun y => { y with inverted, seenCount := 0 } else s
  else if w.toNat % 256 ≠ 0x4B then s.otherBlock l w
  else if !tsLegal w then s.modLane l fun y => { y with seenCount := 0 }
  else
    let v := w.extractLsb' 8 40
    let n := if x.seenTs = v then min 4 (x.seenCount + 1) else 1
    let t := s.modLane l fun y => { y with seenTs := v, seenCount := n }
    if 4 ≤ n then t.actTs l v else t

/-- R787: TS. -/
def execTs (lane : LaneNo) (payload : W64) (inverted : Bool) (s : State) : Host.Outcome State Fault Refusal :=
  .next (rxTs lane payload inverted s)

/-- R798: the preset with the largest margin, a tie going to the lower one. -/
def bestPreset (ms : List Nat) : Nat :=
  ((List.range ms.length).find? fun i => (ms[i]?).getD 0 == ms.foldl max 0).getD 0

/-- R798: the measurement of a preset ends with a margin; the next preset is requested, or the best one.
(Log entry 58 DESIGN CHOICE.) -/
def measured (l : LaneNo) (margin : Nat) (s : State) : State :=
  let p := portOf l
  let x := s.lanes[l]
  let reported := match x.farTs with | some v => v.extractLsb' 8 4 == x.request | none => false
  let sweeps := s.ports[p].st == .equalize && s.laneUp l || !(s.units.lanes[l].testing).isEmpty
  if !sweeps || !x.locked || x.request = 0xF || 8 ≤ x.margins.length || !reported then s
  else
    let ms := x.margins ++ [margin]
    let req := if ms.length < 8 then ms.length else bestPreset ms
    let t := s.modLane l fun y => { y with
      margins := ms, request := BitVec.ofNat 4 req, done := ms.length == 8 && req == 7 }
    (t.showTs l).checkEqualize p

/-- R798: PRESET_MEASURE_TIMER. -/
def execPresetMeasureTimer (lane : LaneNo) (margin : Nat) (s : State) : Host.Outcome State Fault Refusal :=
  .next (measured lane margin s)

/-! ### The timers of R801 -/

/-- The timer of a state expires: the tick reaches the instant which the port holds. -/
def onTimer (p : PortNo) (st : PState) (f : State → State) (s : State) : State :=
  if s.ports[p].st == st then f (s.reach s.ports[p].due) else s

/-- R801: DETECT_TIMEOUT. (Log entry 132 DESIGN CHOICE.) -/
def execDetectTimeout (port : PortNo) (s : State) : Host.Outcome State Fault Refusal :=
  .next (onTimer port .detect (fun t => t.toDisabled port 4) s)

/-- R801: EQUALIZE_TIMEOUT. -/
def execEqualizeTimeout (port : PortNo) (s : State) : Host.Outcome State Fault Refusal :=
  .next (onTimer port .equalize (fun t =>
    if (t.training port).any fun l => t.lanes[l].equalised then t.enterAlign port else t.toDisabled port 5) s)

/-- R801: ALIGN_TIMEOUT. -/
def execAlignTimeout (port : PortNo) (s : State) : Host.Outcome State Fault Refusal :=
  .next (onTimer port .align (fun t => t.toDisabled port 6) s)

/-- R801: NEGOTIATE_TIMEOUT. -/
def execNegotiateTimeout (port : PortNo) (s : State) : Host.Outcome State Fault Refusal :=
  .next (onTimer port .negotiate (fun t => t.toDisabled port 7) s)

/-- R801: RETRAIN_TIMEOUT. -/
def execRetrainTimeout (port : PortNo) (s : State) : Host.Outcome State Fault Refusal :=
  .next (onTimer port .retrain (fun t =>
    if t.boot.poicaLost then t.toDisabled port 0x0C else (t.portLapseEnds port).enterEqualize port) s)

/-! ### LANE_MARK (R788, R789, R792, R804) -/

/-- A port state in which LANE_MARKs are exchanged. -/
def Port.marks (p : Port) : Bool :=
  p.st == .align || p.st == .negotiate || p.st == .active || (p.st == .retrain && p.retrainStep != 1)

/-- R788: the fields of a LANE_MARK lie within their legal values. (Log entry 57 DEDUCED.) -/
def markLegal (w : W64) : Bool := w &&& 0xFFFFFF00_0000D300 == 0 && w.toNat % 256 == 0x2D

/-- R788, R789, R804: a LANE_MARK arrives at an instant in UI; `bip` is the receiver's own XOR.
(Log entries 57 DEDUCED, 58 DESIGN CHOICE.) -/
def rxMark (l : LaneNo) (w : W64) (arrival : Int) (bip : Byte) (s : State) : State :=
  let p := portOf l
  if !s.ports[p].marks || s.ports[p].lanes &&& laneBit l = 0 then s
  else if w.toNat % 256 ≠ 0x2D then s.otherBlock l w
  else if !markLegal w then s.blockError l
  else
    let s := if w.extractLsb' 32 8 = bip then s else s.blockError l
    let seq := w.extractLsb' 16 16
    let right : Bool := (w.extractLsb' 10 2).toNat == l.val % 4
    let aligning := s.ports[p].st == .align || s.ports[p].st == .retrain
    let ls := lanesIn p s.ports[p].lanes
    let old := (ls.filterMap fun k => (s.lanes[k].arrival).map (·.1)).find? fun q => q ≠ seq
    -- the first mark of a new sequence number settles the set of the previous one
    let s := match aligning, old with
      | true, some q => (s.chooseSet p q).forEach ls fun k u => u.modLane k fun x => { x with arrival := none }
      | _, _ => s
    let s := s.modLane l fun x => { x with
      arrival := if right then some (seq, arrival) else none, farDeskewed := w.getLsbD 13 }
    let s := if aligning && ls.all fun k => (match s.lanes[k].arrival with | some a => a.1 == seq | none => false) then
        s.chooseSet p seq else s
    if aligning then s.checkAlign p else s

/-- R804: LANE_MARK. -/
def execLaneMark (lane : LaneNo) (payload : W64) (arrival : Int) (bip : Byte) (s : State) :
    Host.Outcome State Fault Refusal :=
  .next (rxMark lane payload arrival bip s)

/-- R788, R792, R799: each lane which carries markers sends one; `bips` holds the XORs of the port's four
lanes. -/
def txMark (p : PortNo) (bips : W32) (s : State) : State :=
  let q := s.ports[p]
  if !q.marks then s
  else
    let t := s.forEach (lanesIn p q.lanes) fun l u =>
      let b1 := (if u.lanes[l].deskewed || q.st == .active then 0x20 else 0) + 4 * (l.val % 4)
      u.emit (.laneBlock l (BitVec.ofNat 64 (leNat ([0x2D] ++ leBytes 1 b1 ++ leBytes 2 q.markSeq.toNat ++
        leBytes 1 (fieldNat (leBytes 4 bips.toNat) (l.val % 4) 1) ++ [0, 0, 0]))) 1)
    t.modPort p fun x => { x with markSeq := x.markSeq + 1 }

/-- R792: LANE_MARK_TRANSMIT. -/
def execLaneMarkTransmit (port : PortNo) (bips : W32) (s : State) : Host.Outcome State Fault Refusal :=
  .next (txMark port bips s)

/-! ### NEG (R806, R813 to R816) -/

/-- A NEG block of a kind arrives on an aligned lane while records are exchanged; its reserved bytes are the
mask `res`. (Log entry 57 DEDUCED.) -/
def rxNeg (kind : Nat) (res : W64) (l : LaneNo) (w : W64) (f : State → State) (s : State) : State :=
  if !s.exchanging l then s
  else if w.toNat % 256 ≠ 0x55 then s.otherBlock l w
  else if (w.extractLsb' 12 4).toNat ≠ kind then s
  else if w &&& res ≠ 0 then s.blockError l
  else f s

/-- R814: a fragment arrives. -/
def rxFragment (l : LaneNo) (w : W64) (s : State) : State :=
  let p := portOf l
  let i : Fin 16 := Fin.ofNat 16 (w.extractLsb' 8 4).toNat
  let v : BitVec 48 := w.extractLsb' 16 48
  let new := match s.ports[p].frags[i] with
    | some f => if f.1 = v then (v, f.2.1, f.2.2 || f.2.1 == l) else (v, l, false)
    | none => (v, l, false)
  let t := s.modPort p fun q => { q with frags := q.frags.set i.val (some new) i.isLt }
  if t.ports[p].incoming.isSome then t
  else
    match t.ports[p].whole with
    | some r => t.judgeRecord p r
    | none => t

/-- R814: NEG_RECORD. -/
def execNegRecord (lane : LaneNo) (payload : W64) (s : State) : Host.Outcome State Fault Refusal :=
  .next (rxNeg 1 0 lane payload (rxFragment lane payload) s)

/-- R815: an ACCEPT arrives. -/
def rxAccept (l : LaneNo) (w : W64) (s : State) : State :=
  let p := portOf l
  if (w.extractLsb' 16 32).toNat = fieldNat s.ports[p].own 92 4 then
    (s.modPort p fun q => { q with farAccepted := true }).endExchange p
  else s

/-- R815: NEG_ACCEPT. -/
def execNegAccept (lane : LaneNo) (payload : W64) (s : State) : Host.Outcome State Fault Refusal :=
  .next (rxNeg 2 0xFFFF0000_00000F00 lane payload (rxAccept lane payload) s)

/-- R801, R816: a REFUSE arrives in NEGOTIATE; its code goes to the fault log. (Log entry 56 DEDUCED.) -/
def rxRefuse (l : LaneNo) (w : W64) (s : State) : State :=
  let p := portOf l
  if s.ports[p].st != .negotiate then s
  else
    let r := s.fault 7 1 (unitId 5 p.val) (strataMask (s.portStrata p)) 0 0xFF 0xFFFF
      ((w.extractLsb' 16 8).setWidth 224)
    r.1.toDisabled p 8

/-- R801: NEG_REFUSE. -/
def execNegRefuse (lane : LaneNo) (payload : W64) (s : State) : Host.Outcome State Fault Refusal :=
  .next (rxNeg 3 0xFFFFFF00_00000F00 lane payload (rxRefuse lane payload) s)

/-! ### WIDTH_CHANGE (R825 to R831) -/

/-- R785, R790: a WIDTH_CHANGE of an OP arrives at an ACTIVE port, on every lane in service; one whose reserved bytes are not
zero is a block error on each. -/
def rxWidth (op : Nat) (p : PortNo) (w : W64) (f : State → State) (s : State) : State :=
  let q := s.ports[p]
  let mine : Bool := w.toNat % 256 == 0x66 && (w.extractLsb' 12 4).toNat == op
  let legal : Bool := mine &&
    [1, 2, 4].contains (w.extractLsb' 16 8).toNat && laneCount (w.extractLsb' 8 4) == (w.extractLsb' 16 8).toNat &&
    (op == 3 || w.extractLsb' 24 8 == 0#8)
  if q.st == .active && mine && w.extractLsb' 48 16 != 0#16 then s.forEach (lanesIn p q.lanes) fun l t => t.blockError l
  else if q.st == .active && legal then f s else s

/-- R810: this module is the arbiter. -/
def Port.arbiter (p : Port) : Bool :=
  let f := fun (r : List Byte) => leNat ((r.drop 4).take 16).reverse
  decide (f p.far < f p.own)

/-- R825, R827, R829: a REQ is answered. -/
def rxReq (p : PortNo) (w : W64) (s : State) : State :=
  let q := s.ports[p]
  let mask := w.extractLsb' 8 4
  let width := (w.extractLsb' 16 8).toNat
  let seq := w.extractLsb' 32 16
  let own : Bool := match q.wc with | some x => !x.acked && !x.refused && x.tries != 0 | none => false
  let reason :=
    if own && q.arbiter then 4
    else if (lanesIn p mask).any fun l => !(s.lanes[l].locked && s.laneUp l) then 1
    else if (lanesIn p mask).any fun l => !s.lanes[l].deskewed then 2
    else if q.agreedMax < width then 3
    else 0
  if reason ≠ 0 then s.replicate p (widthBlock 3 mask width reason seq) 1
  else
    (((s.modPort p fun x => { x with farWc := some (mask, seq) }).portLapse p).replicate p
      (widthBlock 2 mask width 0 seq) 1).replicate p (widthBlock 4 mask width 0 seq) 1

/-- R825: WIDTH_CHANGE_REQ. -/
def execWidthChangeReq (port : PortNo) (payload : W64) (s : State) : Host.Outcome State Fault Refusal :=
  .next (rxWidth 1 port payload (rxReq port payload) s)

/-- R825: an ACK of the own REQ: SWITCH follows. -/
def rxAck (p : PortNo) (w : W64) (s : State) : State :=
  match s.ports[p].wc with
  | some x =>
    if x.seq = w.extractLsb' 32 16 && !x.acked && !x.refused && x.tries ≠ 0 then
      (s.modPort p fun q => { q with wc := some { x with acked := true } }).replicate p
        (widthBlock 4 x.mask x.width 0 x.seq) 1
    else s
  | none => s

/-- R825: WIDTH_CHANGE_ACK. -/
def execWidthChangeAck (port : PortNo) (payload : W64) (s : State) : Host.Outcome State Fault Refusal :=
  .next (rxWidth 2 port payload (rxAck port payload) s)

/-- R829, R830: a NAK of the own REQ. After a collision the module asks again once the arbiter's handshake has
ended; a narrowing after a failure waits for its 10 µs. -/
def rxNak (p : PortNo) (w : W64) (s : State) : State :=
  let q := s.ports[p]
  match q.wc with
  | some x =>
    if x.seq ≠ w.extractLsb' 32 16 ∨ x.acked ∨ x.refused ∨ x.tries = 0 then s
    else if w.extractLsb' 24 8 = 4#8 ∧ q.arbiter = false then
      (s.modPort p fun y => { y with wc := some { x with tries := 0 } }).nextWidth p
    else
      match x.cause with
      | .failure => s.modPort p fun y => { y with wc := some { x with refused := true } }
      | _ => s.changeFailed p x
  | none => s

/-- R829: WIDTH_CHANGE_NAK. -/
def execWidthChangeNak (port : PortNo) (payload : W64) (s : State) : Host.Outcome State Fault Refusal :=
  .next (rxWidth 3 port payload (rxNak port payload) s)

/-- R825: a SWITCH moves the lanes in use. -/
def rxSwitch (p : PortNo) (w : W64) (s : State) : State :=
  let q := s.ports[p]
  let seq := w.extractLsb' 32 16
  match q.farWc, q.wc with
  | some f, _ =>
    if f.2 = seq then ((s.modPort p fun x => { x with farWc := none }).switchLanes p f.1).nextWidth p else s
  | none, some x => if x.acked && x.seq == seq then s.changeDone p x else s
  | none, none => s

/-- R825: WIDTH_CHANGE_SWITCH. -/
def execWidthChangeSwitch (port : PortNo) (payload : W64) (s : State) : Host.Outcome State Fault Refusal :=
  .next (rxWidth 4 port payload (rxSwitch port payload) s)

/-- R830: 2 µs pass without an answer to a REQ: it is sent again, or after three REQ the handshake fails. -/
def reqTimeout (p : PortNo) (s : State) : State :=
  match s.ports[p].wc with
  | some x =>
    if s.ports[p].st != .active || x.acked || x.refused || x.tries = 0 then s
    else
      let t := s.reach (x.sent + 1600)
      if x.tries < 3 then t.sendReq p x else t.changeFailed p x
  | none => s

/-- R830: WIDTH_CHANGE_REQ_TIMEOUT. -/
def execWidthChangeReqTimeout (port : PortNo) (s : State) : Host.Outcome State Fault Refusal :=
  .next (reqTimeout port s)

/-- R801: a narrowing after a lane failure has not completed within 10 µs: RETRAIN. -/
def narrowTimeout (p : PortNo) (s : State) : State :=
  match s.ports[p].wc with
  | some x =>
    match x.cause with
    | .failure => if s.ports[p].st == .active then (s.reach (x.began + 8000)).enterRetrain p else s
    | _ => s
  | none => s

/-- R801: WIDTH_CHANGE_TIMEOUT. -/
def execWidthChangeTimeout (port : PortNo) (s : State) : Host.Outcome State Fault Refusal :=
  .next (narrowTimeout port s)

/-! ### IDLE (R843) -/

/-- R843: after an IDLE the next data block is a header. -/
def rxIdle (p : PortNo) (s : State) : State :=
  if s.ports[p].st == .active then s.modPort p fun q => { q with skipping := false } else s

/-- R843: IDLE. -/
def execIdle (port : PortNo) (s : State) : Host.Outcome State Fault Refusal := .next (rxIdle port s)

end Sys2Proof.Machine
end

