-- ==== Sys2Proof/Machine/Items.lean ====
section
/-!
DEFINITION. What arrives on a logical channel (19): payload, FRAME_MARKs and SETTING_NOTICEs, the opening and
closing of frames, route switches, and the judgement of narrow messages (21).
-/

namespace Sys2Proof.Machine

/-! ### Engines and routes (R874, R877, R890) -/

/-- Contexts which a Slate engine holds. -/
def State.contextsOn (s : State) (e : EngNo) : Nat := (s.chans.filter fun c => c.slate.engine == some e).length

/-- R890: the engine in service which holds the fewest contexts, a tie going to the lower number. -/
def State.placeEngine (s : State) : Option EngNo :=
  ((List.finRange 4).filter fun e => s.units.slates[e].up).foldl (fun best e =>
    match best with
    | none => some e
    | some b => if s.contextsOn e < s.contextsOn b then some e else best) none

/-- A route takes effect: the channel's context lies on the engine which it names (R877, R890). -/
def State.setRoute (s : State) (c : Nat) (r : Route) : State :=
  let e : EngNo := Fin.ofNat 4 r.slate.toNat
  let engine := if r.slate = 0xFE then none
    else if r.slate.toNat < 4 && s.units.slates[e].up then some e
    else s.placeEngine
  s.modChan c fun x => { x with route := r, slate := { x.slate with engine } }

/-- The route passes through Slate. -/
def Route.slated (r : Route) : Bool := r.slate != 0xFE

/-- A pending CHAN_ROUTE or CHAN_UNBIND switches at a tick (R393, R876); `forced` and `partials` as R393. -/
def State.switchRoute (s : State) (x : Chan) (r : PendingRoute) (tick : Tick) (forced : Bool) (partials : Nat) :
    State :=
  let t := s.setRoute x.num r.route
  if r.unbind then t.modChan x.num fun y => { y with pending := some { r with switched := true } }
  else (t.modChan x.num fun y => { y with pending := none }).completeOk r.id tick
    (BitVec.ofNat 64 ((if forced then 1 else 0) + 2 ^ 16 * partials))

/-! ### Slate notices and the parts of a context image (R933, R935) -/

/-- R935: an occurrence record of the Slate group, at most one of each type per channel in each PERIOD. -/
def State.slateNote (s : State) (x : Chan) (evType : W16) (hi : Nat) (r1 : W64) : State :=
  let quiet := x.slate.sentAt.any fun e => e.1 == evType && decide ((s.tick - e.2).toNat < x.period)
  if quiet then s
  else
    let sentAt := (x.slate.sentAt.filter fun e => e.1 != evType) ++ [(evType, s.tick)]
    (s.modChan x.num fun y => { y with slate := { y.slate with sentAt } }).occur x.stratum evType
      (BitVec.ofNat 64 (x.num + 2 ^ 16 * hi)) r1

/-- Fields of a context image (R933). -/
def ctxMosaic (b : List Byte) : Nat := fieldNat b 6 1
def ctxSbits (b : List Byte) : Nat := fieldNat b 7 1
def ctxMaxSamples (b : List Byte) : Nat := fieldNat b 8 4
def ctxInitialSet (b : List Byte) : Nat := fieldNat b 12 1

/-- Bytes of a sample (R844). -/
def sampleBytes (sbits : Nat) : Nat := if sbits ≤ 8 then 1 else 2

/-- Samples of a frame which have arrived. -/
def Frame.samples (f : Frame) : Nat := f.payload.length / sampleBytes (ctxSbits f.ctx)

/-! ### Opening and closing frames (R866 to R869, R905 to R907, R925, R926) -/

/-- The launch of a program which serves a frame opened at a tick (R415). A program which is being unloaded serves those
which open until its PROG_UNLOAD has its completion (R296, R297). (Log entry 94 DEDUCED.) -/
def State.servingLaunch (s : State) (n : FnNo) (pid : Nat) (tick : Tick) : Option Nat :=
  match s.prog n pid with
  | none => none
  | some p =>
    match p.launch with
    | some l => if l.fromTick ≤ tick then some l.serial else none
    | none => none

/-- The launch which was to serve the frame has not ended. (Log entry 96 DEDUCED.) -/
def State.served (s : State) (f : Frame) : Bool :=
  match f.launch with
  | some n => (s.progOf n).isSome
  | none => false

/-- R992: the pair sequence of a channel-frame which opens, and the lock-step record which has counted it. -/
def State.nextPairSeq (s : State) (x : Chan) (launch : Option Nat) : Option Nat × Lock :=
  match launch with
  | some n =>
    if s.lock.st == .paired && s.lock.target == x.stratum && decide (s.lock.since ≤ n) then
      let mine := s.lock.pairSeqs.find? fun e => e.1 = x.num && e.2.1 = n
      let q := match mine with | some e => e.2.2 | none => 0
      let rest := s.lock.pairSeqs.filter fun e => !(e.1 = x.num && e.2.1 = n)
      (some q, { s.lock with pairSeqs := rest ++ [(x.num, n, q + 1)] })
    else (none, s.lock)
  | none => (none, s.lock)

/-- R866, R905 to R907: a FRAME_MARK opens the next frame of a channel. -/
def State.openNext (s : State) (c : Nat) (tick : Tick) : State :=
  match s.chan c with
  | none => s
  | some x =>
    let seq := x.marks
    let due := x.slate.notices.find? fun n => n.effective = seq
    let initial := if x.slate.image.isEmpty then none else some (ctxInitialSet x.slate.image)
    let inForce := (due.map (·.set)).or (x.slate.inForce.or initial)
    let set := inForce.getD 0
    let setImage := (x.slate.sets[set]?).getD []
    let launch := if x.kind1 && x.q.send then none
      else if x.route.prog = 0 then none else s.servingLaunch x.stratum x.route.prog tick
    let t := s.modChan c fun y => { y with
      marks := y.marks + 1, noFrame := false, strayCounted := false, used := 0
      slate := { y.slate with
        notices := y.slate.notices.filter fun n => decide (seq < n.effective)
        inForce, stripe := y.slate.stripeNext } }
    let mismatch := !setImage.isEmpty && ctxMosaic setImage != ctxMosaic x.slate.image
    if x.route.slated && !x.kind1 && !x.slate.image.isEmpty && (setImage.isEmpty || mismatch) then
      ((t.countDrop c).modChan c fun y => { y with
        noFrame := true, strayCounted := true }).slateNote x
        0x5000 (set + if mismatch then 256 else 0) (BitVec.ofNat 64 seq)
    else
      let pair := s.nextPairSeq x launch
      let n := x.stratum
      let f : Frame := {
        chan := c, seq, stage := .opened, openTick := tick, markTick := 0, payload := [], route := x.route
        launch, runNo := s.repro[n].current, repro := s.strata[n].repro, retry := s.strata[n].retry
        compat := s.strata[n].compat, tables := s.tables[n], mprogs := s.mprogs[n]
        gen := x.slate.gen, engine := x.slate.engine, set, setImage, ctx := x.slate.image, out := x.slate.out
        stripe := x.slate.stripeNext, pieces := [], cut := 0, done := 0, x0 := [], x2 := [], x3 := [], kernel4 := 0
        record := 0, raster := 0, retried := false, pairSeq := pair.1, sigs := [], wideMsg := [] }
      { t with frames := t.frames ++ [f], lock := pair.2 }

/-- R926: runs of STRIPE samples which are whole, with their seven following samples, or with the frame closed,
become pieces. -/
def cutRuns : Nat → Frame → Bool → Tick → Frame
  | 0, f, _, _ => f
  | k + 1, f, closed, tick =>
    let n := f.samples
    if f.stripe = 0 then
      if closed && f.cut < n then { f with pieces := f.pieces ++ [(f.cut, n, tick)], cut := n } else f
    else if f.cut + f.stripe + 7 ≤ n || (closed && f.cut + f.stripe ≤ n) then
      cutRuns k { f with pieces := f.pieces ++ [(f.cut, f.cut + f.stripe, tick)], cut := f.cut + f.stripe } closed tick
    else if closed && f.cut < n then { f with pieces := f.pieces ++ [(f.cut, n, tick)], cut := n }
    else f

/-- R895, R896: the frame breaks a rule of its context: it is dropped whole and reported, and the histories of the frames
which open later read zero. -/
def State.dropBad (s : State) (x : Chan) (q : Nat) (cause : Nat) : State :=
  ((s.dropFrame x.num q).modChan x.num fun y => { y with
    slate := { y.slate with gen := y.slate.gen + 1 } }).slateNote x 0x5001 cause (BitVec.ofNat 64 q)

/-- R895, R925, R926, R931, R1139: the closing FRAME_MARK of a frame of an acquisition channel. -/
def State.closeSamples (s : State) (x : Chan) (f : Frame) (tick : Tick) : State :=
  if !f.route.slated || f.ctx.isEmpty || x.slate.lostSpace || s.placeEngine.isNone || (f.route.prog ≠ 0 && !s.served f) then s.dropFrame x.num f.seq
  else if f.samples % ctxMosaic f.ctx ≠ 0 then s.dropBad x f.seq 1
  else s.modFrame x.num f.seq fun g =>
    { cutRuns (g.samples + 1) g true tick with stage := .conditioning, launch := if f.route.prog = 0 then none else g.launch }

/-- R953, R970, R972, R1096: a narrow message is judged and counted. -/
def State.judge (s : State) (x : Chan) (h : QHead) (exceeds : Bool) (e : Nat) : State :=
  let share := clippedShare h.clipped e
  let run := if exceeds then x.q.overRun + 1 else 0
  let tell := run == 8 && !x.q.persistentSent
  let t := s.modChan x.num fun y => { y with
    q := { y.q with
      narrow := y.q.narrow + 1, share := BitVec.ofNat 32 share, overRun := run
      overCount := if exceeds then y.q.overCount + 1 else y.q.overCount
      persistentSent := exceeds && (tell || y.q.persistentSent) } }
  let t := (((t.count x.stratum 6 1).count x.stratum 7 (if exceeds then 1 else 0)).count x.stratum 8 e).count x.stratum 9
    h.clipped
  let largest := fun (w : W64) => if w.toNat < share then BitVec.ofNat 64 share else w
  let t : State := { t with telem := { t.telem with
    strata := vmod t.telem.strata x.stratum fun v => vmod v 10 largest } }
  if tell then t.occur x.stratum 0x8000 (BitVec.ofNat 64 x.num) (BitVec.ofNat 64 h.msgSeq) else t

/-- R953: the message is over threshold. -/
def overThreshold (threshold clipped e : Nat) : Bool := e != 0 && decide (threshold * e < clipped * 2 ^ 24)

/-- The message which a frame holds is kept until it is acted on; its buffers stay HELD. -/
def State.keepMessage (s : State) (x : Chan) (f : Frame) (h : QHead) : State :=
  let a : Answer := { kind := BitVec.ofNat 8 h.kind, msgSeq := BitVec.ofNat 32 h.msgSeq, bytes := f.payload, seq := f.seq }
  (s.modChan x.num fun y => { y with q := { y.q with answers := y.q.answers ++ [a] } }).delFrame x.num f.seq

/-- R938, R953 to R957: the closing FRAME_MARK of a message. (Log entry 161 DESIGN CHOICE.) -/
def State.closeMessage (s : State) (x : Chan) (f : Frame) (tick : Tick) : State :=
  let h := qhead f.payload
  if !h.legal f.payload then s.dropFrame x.num f.seq
  else if x.q.send then (if 3 ≤ h.kind then s.keepMessage x f h else s.dropFrame x.num f.seq)
  else if h.kind = 2 then s.keepMessage x f h
  else if h.kind ≠ 1 then s.dropFrame x.num f.seq
  else
    let e := h.rows * (h.cols - h.outliers)
    let exceeds := overThreshold x.q.clipThreshold h.clipped e
    let t := s.judge x h exceeds e
    let t := if f.route.prog ≠ 0 && t.served f then
        if exceeds then t.modFrame x.num f.seq fun g => { g with stage := .wide } else t.makeReady x.num f.seq tick
      else t.dropFrame x.num f.seq
    t.sendAnswer x.num (if exceeds then 4 else 3) (BitVec.ofNat 32 h.msgSeq)

/-- R866, R868, R869: a FRAME_MARK closes the open frame of a channel. -/
def State.closeFrame (s : State) (c : Nat) (discard : Bool) (tick : Tick) : State :=
  match s.openFrame c, s.chan c with
  | some f, some x =>
    let held := fun (b : Buf) =>
      if b.chan == c && b.state == .filling && !b.copy then { b with state := BufState.held } else b
    let t := (s.modFrame c f.seq fun g => { g with markTick := tick }).modBufs fun l => l.map held
    if discard || f.payload.isEmpty then t.dropFrame c f.seq
    else if x.kind1 then t.closeMessage x { f with markTick := tick } tick
    else t.closeSamples x { f with markTick := tick } tick
  | _, _ => s

/-! ### Items taken (R707, R856, R867, R874, R895, R1140) -/

/-- R867: payload which belongs to no frame is counted once. -/
def State.strayPayload (s : State) (c : Nat) : State :=
  match s.chan c with
  | none => s
  | some x =>
    if x.strayCounted then s
    else (s.countDrop c).modChan c fun y => { y with strayCounted := true }

/-- The channel's open frame is dropped whole, or what has arrived belongs to no frame. -/
def State.dropWhole (s : State) (c : Nat) : State :=
  if (s.openFrame c).isSome then s.dropOpen c else s.strayPayload c

/-- The credits which the channel's open frame has consumed grow. -/
def State.addUsed (s : State) (c k : Nat) : State := s.modChan c fun y => { y with used := y.used + k }

/-- Payload which was accepted for a channel takes effect; it takes `k` credits of room. -/
def State.takePayload (s : State) (c sbits : Nat) (bytes : List Byte) (k : Nat) : State :=
  match s.chan c with
  | none => s
  | some x =>
    match s.openFrame c with
    | none => (s.strayPayload c).addUsed c k
    | some f =>
      let slated := f.route.slated && !x.kind1 && !f.ctx.isEmpty
      let total := (f.payload.length + bytes.length) / sampleBytes (ctxSbits f.ctx)
      let stray := fun (t : State) => (t.modChan c fun y => { y with noFrame := true, strayCounted := true }).addUsed c k
      if slated && sbits ≠ ctxSbits f.ctx then stray (s.dropBad x f.seq 2)
      else if slated && ctxMaxSamples f.ctx < total then stray (s.dropBad x f.seq 3)
      else
        match s.fill x f.seq k false x.used with
        | none => (s.dropOpen c).addUsed c k
        | some t =>
          let t := (t.modFrame c f.seq fun g => { g with payload := g.payload ++ bytes }).addUsed c k
          if t.oversize x f.seq then t.dropOpen c
          else if slated && (f.route.prog = 0 || s.served f) then
            t.modFrame c f.seq fun g => cutRuns (g.samples + 1) g false s.tick
          else t

/-- R866, R874: a FRAME_MARK which was accepted for a channel takes effect. -/
def State.takeMark (s : State) (c : Nat) (discard : Bool) (tick : Tick) : State :=
  let t := s.closeFrame c discard tick
  let t := match t.chan c with
    | some x =>
      match x.pending with
      | some r => if r.switched then t else t.switchRoute x r tick false 0
      | none => t
    | none => t
  ((t.openNext c tick).endUnbind c).settlePool

/-- R870, R871, R908: a SETTING_NOTICE which was accepted for a channel is kept for its effective frame. -/
def State.takeNotice (s : State) (c set : Nat) : State :=
  s.modChan c fun x =>
    let effective := x.marks + s.ports[x.port].latency
    let rest := x.slate.notices.filter fun n => n.effective ≠ effective
    { x with slate := { x.slate with notices := rest ++ [{ effective, set }] } }

/-! ### Forwarding (R995, R996) -/

/-- This module forwards the channel's items. -/
def State.forwards (s : State) (x : Chan) : Bool :=
  s.lock.st == .paired && !s.lock.secondary && s.lock.forwarded && s.lock.target == x.stratum

/-- This module takes the channel's items from FORWARD frames only. -/
def State.takesForwarded (s : State) (x : Chan) : Bool :=
  s.lock.st == .paired && s.lock.secondary && s.lock.forwarded && s.lock.target == x.stratum

/-- R1003: a FORWARD record. -/
def forwardRecord (c itype sbits arg : Nat) : List Byte :=
  leBytes 2 c ++ leBytes 1 itype ++ leBytes 1 sbits ++ leBytes 1 arg ++ [0, 0, 0]

/-- R995: an item is forwarded. A payload longer than one LOCKSTEP frame carries goes in two. -/
def State.forward (s : State) (x : Chan) (tag : Option (Nat × Nat)) (itype sbits arg : Nat) (bytes : List Byte) :
    State :=
  if !s.forwards x then s
  else
    let send := fun (b : List Byte) (t : State) => t.lockSend tag (lockPayload 4 1 (forwardRecord x.num itype sbits arg ++ b))
    if bytes.length ≤ 4080 then send bytes s else send (bytes.drop 4080) (send (bytes.take 4080) s)

/-! ### Items of a port (R855, R856, R872) -/

/-- The channel which a CH of a port is bound to. -/
def State.chanOn (s : State) (p : PortNo) (ch : Nat) : Option Chan :=
  s.chans.find? fun c => c.port = p && c.partnerCh = ch

/-- R863: what an unbound CH consumes is counted while its withdrawal is pending. -/
def State.consumeUnbound (s : State) (p : PortNo) (ch k : Nat) (mark : Bool) : State :=
  let b := s.ports[p].perBuf
  let f := fun (w : Nat × Credit × Nat) =>
    if w.1 ≠ ch then w
    else
      let k := if mark then (if w.2.2 % b = 0 then 0 else b - w.2.2 % b) else k
      (w.1, { w.2.1 with consumed := w.2.1.consumed + BitVec.ofNat 16 k }, if mark then 0 else w.2.2 + k)
  s.modPort p fun q => { q with withdrawn := q.withdrawn.map f }

/-- Credits are consumed as a receiver counts them. -/
def State.consume (s : State) (c k : Nat) : State :=
  s.modChan c fun y => { y with rx := { y.rx with consumed := y.rx.consumed + BitVec.ofNat 16 k } }

/-- R855, R856: the payload of a SAMPLES or TENSOR frame which was accepted at link level. (Log entry 62 DEDUCED.) -/
def State.acceptPayload (s : State) (p : PortNo) (h : RxHead) (bytes : List Byte) : State :=
  let k := s.ports[p].creditsOf bytes.length
  match s.chanOn p h.ch with
  | none => (s.consumeUnbound p h.ch k false).violation p 2 h.ch
  | some x =>
    let announced := (fieldNat s.ports[p].far 26 2).testBit (h.sbits - 8) && decide (8 ≤ h.sbits) && decide (h.sbits ≤ 16)
    let fits := if h.ftype = 1 then !x.kind1 && announced else x.kind1 && h.sbits == 0
    let t := s.consume x.num k
    let t :=
      if t.takesForwarded x || t.lock.rejoin.contains x.num then (t.countDrop x.num).addUsed x.num k
      else if x.outstanding < k then ((t.dropWhole x.num).addUsed x.num k).violation p 1 h.ch
      else if !fits then ((t.dropWhole x.num).addUsed x.num k).violation p 3 h.ch
      else (t.takePayload x.num h.sbits bytes k).forward x (some (x.num, x.marks - 1)) 1 h.sbits 0 bytes
    t.settlePool

/-- R859, R866: a FRAME_MARK which was accepted at link level. (Log entry 62 DEDUCED.) -/
def State.acceptMark (s : State) (p : PortNo) (ch : Nat) (discard : Bool) : State :=
  match s.chanOn p ch with
  | none => s.consumeUnbound p ch 0 true
  | some x =>
    let b := s.ports[p].perBuf
    let t := s.consume x.num (if x.used % b = 0 then 0 else b - x.used % b)
    if t.takesForwarded x then
      ((t.countDrop x.num).modChan x.num fun y => { y with used := 0 }).settlePool
    else
      let t := if t.lock.rejoin.contains x.num then
          (t.dropOpen x.num).modLock fun l => { l with rejoin := l.rejoin.filter (· ≠ x.num) }
        else t
      (t.takeMark x.num discard s.tick).forward x (some (x.num, x.marks - 1)) 2 0 (if discard then 1 else 0) []

/-- R870 to R872: a SETTING_NOTICE which was accepted at link level. (Log entry 62 DEDUCED.) -/
def State.acceptNotice (s : State) (p : PortNo) (ch set : Nat) : State :=
  let q := s.ports[p]
  match s.chanOn p ch with
  | some x =>
    if q.role ≠ 0 || !q.farCap 1 || x.kind1 then s.violation p 4 ch
    else if s.takesForwarded x || s.lock.rejoin.contains x.num then s.countDrop x.num
    else (s.takeNotice x.num set).forward x none 3 0 set []
  | none => s.violation p 4 ch

/-! ### Rows -/

/-- A frame of an FTYPE arrives; one of an unlisted FTYPE is a link error. -/
def rxFrameRow (ftype : Nat) (p : PortNo) (bytes : List Byte) (f : RxHead → List Byte → State → State)
    (s : State) : State :=
  let t := rawFtype bytes
  if t = ftype ∨ t = 0 ∨ 3 < t then
    match s.rxFrame p bytes with
    | (u, some r) => f r.1 r.2 u
    | (u, none) => u
  else s

/-- R855: SAMPLES. -/
def execSamples (port : PortNo) (bytes : List Byte) (s : State) : Host.Outcome State Fault Refusal :=
  .next (rxFrameRow 1 port bytes (fun h b t => t.acceptPayload port h b) s)

/-- R855: TENSOR. -/
def execTensor (port : PortNo) (bytes : List Byte) (s : State) : Host.Outcome State Fault Refusal :=
  .next (rxFrameRow 2 port bytes (fun h b t => t.acceptPayload port h b) s)

/-- R785, R837, R838: a control block of the striped stream arrives on a lane in use. A failed CHK or a nonzero
reserved bit is a block error. -/
def rxStriped (type : Nat) (reserved : W64) (l : LaneNo) (w : W64) (f : State → State) (s : State) : State :=
  let q := s.ports[portOf l]
  if q.st != .active || q.inUse &&& laneBit l = 0 then s
  else if w.toNat % 256 ≠ type then s.otherBlock l w
  else if !chkOk w || w &&& reserved != 0 then s.blockError l
  else f s

/-- CH of a control block. -/
def blockCh (w : W64) : Nat := (w.extractLsb' 8 12).toNat

/-- R847: a sequenced block arrives. -/
def rxSequenced (p : PortNo) (w : W64) (f : State → State) (s : State) : State :=
  let r := s.rxItem p (w.extractLsb' 24 16)
  if r.2 then f r.1 else r.1

/-- R866: FRAME_MARK. -/
def execFrameMark (lane : LaneNo) (payload : W64) (s : State) : Host.Outcome State Fault Refusal :=
  .next (rxStriped 0xAA 0x00FFFF0000700000 lane payload (rxSequenced (portOf lane) payload
    (fun t => t.acceptMark (portOf lane) (blockCh payload) (payload.getLsbD 23))) s)

/-- R870: SETTING_NOTICE. -/
def execSettingNotice (lane : LaneNo) (payload : W64) (s : State) : Host.Outcome State Fault Refusal :=
  .next (rxStriped 0xCC 0x00FFF00000F00000 lane payload (rxSequenced (portOf lane) payload
    (fun t => t.acceptNotice (portOf lane) (blockCh payload) (payload.extractLsb' 40 4).toNat)) s)

/-- R875, R876: no FRAME_MARK within 2 PERIODs of a route change's acceptance: the switch is forced. -/
def forcedSwitch (c : Nat) (s : State) : State :=
  match s.chan c with
  | none => s
  | some x =>
    match x.pending with
    | none => s
    | some r =>
      if r.switched then s
      else
        let t := s.reach (r.accepted + BitVec.ofNat 64 (2 * x.period))
        let part : Nat := match t.openFrame c with | some f => if f.payload.isEmpty then 0 else 1 | none => 0
        let t := t.dropOpen c
        ((t.switchRoute x r t.tick true part).endUnbind c).settlePool

/-- R875: FORCED_SWITCH. -/
def execForcedSwitch (channel : Nat) (s : State) : Host.Outcome State Fault Refusal :=
  .next (forcedSwitch channel s)

end Sys2Proof.Machine
end

