-- ==== Sys2Proof/Machine/LinkRows.lean ====
section
/-!
DEFINITION. Acknowledgement and replay, credits received and refreshed, and tick synchronisation on a port
(19).
-/

namespace Sys2Proof.Machine

/-! ### ACK, NAK and replay (R849 to R854) -/

/-- R948, R950: wide copies whose closing FRAME_MARK the replay buffer no longer holds are acknowledged. -/
def State.noteAcked (s : State) (p : PortNo) : State :=
  let waits := fun (m : W16) => s.ports[p].replay.any fun i => i.seq == m
  let f := fun (w : WideCopy) => match w.markSeq, w.acked with
    | some m, none => if waits m then w else { w with acked := some s.tick }
    | _, _ => w
  let g := fun (c : Chan) => if c.port = p then { c with q := { c.q with copies := c.q.copies.map f } } else c
  { s with chans := s.chans.map g }

/-- R849: items up to a number are covered, and what waited for room in the replay buffer is sent. -/
def State.covered_ (s : State) (p : PortNo) (upTo : W16) : State :=
  let t := ((s.coverItems p upTo).noteAcked p).pumpChans (some p)
  if p.val = 7 then t.pumpLock else t

/-- Reserved bits of an ACK_NAK block (R838). -/
abbrev ackReserved : W64 := 0x00FFFFFF00000F00

/-- KIND of a control block which has one. -/
def blockKind (w : W64) : Nat := (w.extractLsb' 12 4).toNat

/-- R849: ACK. -/
def execAck (lane : LaneNo) (payload : W64) (s : State) : Host.Outcome State Fault Refusal :=
  .next (rxStriped 0x87 ackReserved lane payload (fun t =>
    if blockKind payload = 1 then t.covered_ (portOf lane) (payload.extractLsb' 16 16) else t) s)

/-- R851: everything from a number onward is sent again. -/
def State.resend (s : State) (p : PortNo) (seq : W16) : State :=
  if s.ports[p].replay.any fun i => decide ((i.seq - seq).toNat ≤ 32767) then (s.replayFrom p seq).noteStuck p else s

/-- R851: NAK. -/
def execNak (lane : LaneNo) (payload : W64) (s : State) : Host.Outcome State Fault Refusal :=
  .next (rxStriped 0x87 ackReserved lane payload (fun t =>
    let seq : W16 := payload.extractLsb' 16 16
    if blockKind payload = 2 then
      ((t.coverItems (portOf lane) (seq - 1)).resend (portOf lane) seq).covered_ (portOf lane) (seq - 1)
    else t) s)

/-- R851: 10 µs without progress: replay from the oldest item. -/
def replayTimeout (p : PortNo) (s : State) : State :=
  match s.ports[p].replay.head? with
  | some i => if s.ports[p].st == .active then (s.reach (s.ports[p].oldestSent + 8000)).resend p i.seq else s
  | none => s

/-- R851: REPLAY_TIMEOUT. -/
def execReplayTimeout (port : PortNo) (s : State) : Host.Outcome State Fault Refusal :=
  .next (replayTimeout port s)

/-! ### Credits (R861 to R865) -/

/-- Reserved bits of a CREDIT block (R838). -/
abbrev creditReserved : W64 := 0x00FFFF0000700000

/-- A CREDIT of a CH changes the credits which this module holds as transmitter, and what they allow is sent. -/
def State.rxCredit (s : State) (p : PortNo) (ch : Nat) (f : Credit → Credit) : State :=
  if ch = 4095 then (s.modPort p fun q => { q with lockTx := f q.lockTx }).pumpLock
  else
    match s.chanOn p ch with
    | some x =>
      (s.modChan x.num fun y => { y with q := { y.q with tx := f y.q.tx } }).pumpChans (some p)
    | none =>
      s.modPort p fun q => { q with
        farCredits := spPut q.farCredits ch (f ((spGet q.farCredits ch).getD Credit.zero)) }

/-- R862: CREDIT. -/
def execCredit (lane : LaneNo) (payload : W64) (s : State) : Host.Outcome State Fault Refusal :=
  .next (rxStriped 0x78 creditReserved lane payload (fun t =>
    if payload.getLsbD 23 then t
    else t.rxCredit (portOf lane) (blockCh payload) fun c => c.update (payload.extractLsb' 24 16)) s)

/-- R863: CREDIT_WITHDRAW. -/
def execCreditWithdraw (lane : LaneNo) (payload : W64) (s : State) : Host.Outcome State Fault Refusal :=
  .next (rxStriped 0x78 creditReserved lane payload (fun t =>
    if payload.getLsbD 23 then
      t.rxCredit (portOf lane) (blockCh payload) fun c => { c with limit := c.consumed }
    else t) s)

/-- The CHs which refresh CREDITs take in turn, with what each carries: WITHDRAW and LIMIT (R861, R864). -/
def State.refreshable (s : State) (p : PortNo) : List (Nat × Bool × W16) :=
  let bound := (s.chans.filter fun c => c.port == p && s.slotServes c.stratum).map fun c =>
    (c.partnerCh, false, c.rx.limit)
  bound ++ s.ports[p].withdrawn.map fun w => (w.1, true, w.2.1.limit)

/-- The entry with the lowest CH among those of a list which satisfy a test. -/
def lowestCh (l : List (Nat × Bool × W16)) (f : Nat → Bool) : Option (Nat × Bool × W16) :=
  (l.filter fun e => f e.1).foldl (fun best e =>
    match best with
    | some b => if e.1 < b.1 then some e else best
    | none => some e) none

/-- R861, R863: one refresh CREDIT is sent. -/
def refreshCredit (p : PortNo) (s : State) : State :=
  if s.ports[p].st != .active then s
  else
    let l := s.refreshable p
    match (lowestCh l fun c => decide (s.ports[p].refreshed < c)).or (lowestCh l fun _ => true) with
    | some e => (s.modPort p fun q => { q with refreshed := e.1 }).emit (.block p (creditBlock e.1 e.2.1 e.2.2))
    | none => s

/-- R861: CREDIT_REFRESH. -/
def execCreditRefresh (port : PortNo) (s : State) : Host.Outcome State Fault Refusal :=
  .next (refreshCredit port s)

/-! ### Tick synchronisation (R455, R880 to R886) -/

/-- The module's tick is synchronised (R886). -/
def State.tickSynced (s : State) : Bool :=
  (List.finRange 8).any fun p => match s.ports[p].sync with | some y => y.synced | none => false

/-- A SYNC block (R838). -/
def syncBlock (kind : Nat) (src : Bool) (value : BitVec 40) : W64 :=
  withChk ([0x99] ++ leBytes 1 (16 * kind + if src then 1 else 0) ++ leBytes 5 value.toNat)

/-- VALUE of a SYNC block. -/
def syncValue (w : W64) : BitVec 40 := w.extractLsb' 16 40

/-- R881, R882: a TIME is stamped on arrival and answered with an ECHO. (Log entry 64 DEDUCED.) -/
def State.rxTime (s : State) (p : PortNo) (w : W64) : State :=
  let q := s.ports[p]
  match q.sync with
  | none => s
  | some y =>
    if q.role = 0 && w.getLsbD 8 then s
    else
      let a : BitVec 40 := s.tick.setWidth 40 - syncValue w
      (s.modPort p fun x => { x with sync := some { y with a := some a.toInt } }).emit
        (.block p (syncBlock 2 y.source a))

/-- R882: TIME. -/
def execSyncTime (lane : LaneNo) (payload : W64) (s : State) : Host.Outcome State Fault Refusal :=
  .next (rxStriped 0x99 0xE00 lane payload (fun t =>
    if blockKind payload = 1 then t.rxTime (portOf lane) payload else t) s)

/-- R884: the follower corrects its tick by an estimate. (Log entry 64 DEDUCED.) -/
def State.correctTick (s : State) (theta : Int) : State :=
  if theta < 0 then { s with tick := s.tick + BitVec.ofNat 64 (-theta).toNat }
  else if 0 < theta then { s with withhold := 2 * theta.toNat }
  else s

/-- R883 to R886: an estimate of the offset is made. (Log entry 64 DEDUCED.) -/
def State.estimate (s : State) (p : PortNo) (y : Sync) (theta : Int) : State :=
  let near := decide (theta.natAbs ≤ 2)
  let z : Sync := { y with
    theta, lastEcho := s.tick, good := if near then y.good + 1 else 0, bad := if near then 0 else y.bad + 1 }
  let t := s.modPort p fun x => { x with sync := some z }
  let t := if y.source then t else t.correctTick theta
  let t := match z.cmd with
    | some id =>
      if 3 ≤ z.good then
        (t.modPort p fun x => { x with sync := some { z with cmd := none, synced := true } }).completeOk id 0 0
      else t
    | none => t
  if y.synced && 8 ≤ z.bad then t.syncLost p 3 else t

/-- R883: an ECHO arrives. (Log entry 64 DEDUCED.) -/
def State.rxEcho (s : State) (p : PortNo) (w : W64) : State :=
  match s.ports[p].sync with
  | none => s
  | some y =>
    match y.a with
    | none => s.modPort p fun x => { x with sync := some { y with lastEcho := s.tick } }
    | some own =>
      let b := (syncValue w).toInt
      -- rounded to the nearest integer, ties toward zero
      s.estimate p y ((if y.source then b - own else own - b).tdiv 2)

/-- R883: ECHO. -/
def execEcho (lane : LaneNo) (payload : W64) (s : State) : Host.Outcome State Fault Refusal :=
  .next (rxStriped 0x99 0xE00 lane payload (fun t =>
    if blockKind payload = 2 then t.rxEcho (portOf lane) payload else t) s)

/-- R882: a TIME is sent. -/
def sendTime (p : PortNo) (s : State) : State :=
  match s.ports[p].sync with
  | some y => if s.ports[p].st == .active then s.emit (.block p (syncBlock 1 y.source (s.tick.setWidth 40))) else s
  | none => s

/-- R882: TIME_TRANSMIT. -/
def execTimeTransmit (port : PortNo) (s : State) : Host.Outcome State Fault Refusal := .next (sendTime port s)

/-- R886: no ECHO for 1 ms. -/
def echoTimeout (p : PortNo) (s : State) : State :=
  match s.ports[p].sync with
  | some y => if y.synced then (s.reach (y.lastEcho + 800000)).syncLost p 2 else s
  | none => s

/-- R886: ECHO_TIMEOUT. -/
def execEchoTimeout (port : PortNo) (s : State) : Host.Outcome State Fault Refusal := .next (echoTimeout port s)

/-- TICK_SYNC in R375. -/
def specTickSync : CmdSpec :=
  { op := 0xD2, len := 8, long := true, pfOnly := true, used := usedBits [(8, 1), (9, 1)] }

/-- R455, R817: checks 6 and 7 of TICK_SYNC. -/
def chkTickSync (p : Packet) (s : State) : Option Rej :=
  let q := s.ports[Packet.port p]
  let busy := (List.finRange 8).any fun i => match s.ports[i].sync with | some y => y.cmd.isSome | none => false
  (badField (p.u8 8 != 6 && p.u8 8 != 7) 8).or <| (badField (decide (1 < p.u8 9)) 9).or <|
  (s.linkDown (q.st != .active || (q.role != 0 && !q.farCap 0)) (Packet.port p)).or <| badState busy

/-- R455, R882: tick synchronisation starts. -/
def startSync (p : Packet) (id : Nat) (s : State) : State :=
  let n := Packet.port p
  let before := match s.ports[n].sync with | some y => y.synced | none => false
  s.modPort n fun q => { q with sync := some {
    source := p.u8 9 == 0 || q.role == 0, cmd := some id, began := s.tick, a := none, theta := 0, good := 0
    bad := 0, lastEcho := s.tick, synced := before } }

/-- R455: TICK_SYNC. -/
def execTickSync (fn : FnNo) (qp : QpNo) (pkt : Packet) (s : State) : Host.Outcome State Fault Refusal :=
  .next (longCommand specTickSync fn qp pkt (chkTickSync pkt) (fun _ => none) (fun _ t => t) (startSync pkt) s)

/-- R455, R465: 10 ms pass without synchronisation: the port does not synchronise any more. -/
def syncTimeout (p : PortNo) (s : State) : State :=
  match s.ports[p].sync with
  | none => s
  | some y =>
    match y.cmd with
    | none => s
    | some id =>
      ((s.reach (y.began + 8000000)).modPort p fun q => { q with
        sync := none }).complete id stTickUnsynced 0 0 0
        ((BitVec.ofInt 64 y.theta).setWidth 192)

/-- R455: TICK_SYNC_TIMEOUT. -/
def execTickSyncTimeout (port : PortNo) (s : State) : Host.Outcome State Fault Refusal :=
  .next (syncTimeout port s)

end Sys2Proof.Machine
end

