-- ==== Sys2Proof/Machine/Slots.lean ====
section
/-!
DEFINITION. Slot tables (R495 to R505): placement, the start of a round, and the end of a slot.
-/

namespace Sys2Proof.Machine

/-- R343: the arbitration terms which a stratum has from the next round on. -/
def State.termsNext (s : State) (n : FnNo) : Bool × Nat :=
  match (s.slots.terms.filter fun x => x.1 == n).getLast? with
  | some x => x.2
  | none => (s.strata[n].isolated, s.strata[n].share)

/-- R501: slot shares of all ISOLATED strata but one, from the next round on. -/
def State.sharesBut (s : State) (n : FnNo) : Nat :=
  ((List.finRange 16).map fun k =>
    if k ≠ n ∧ (s.strata[k].live ∨ s.strata[k].destroying) ∧ (s.termsNext k).1 then (s.termsNext k).2 else 0).sum

/-- The first SHARED position of a table, counting upward from a position and wrapping. -/
def firstShared (t : Vector (Option FnNo) 64) (from_ : Nat) : Option (Fin 64) :=
  ((List.range 64).map fun i => Fin.ofNat 64 (from_ + i)).find? fun p => (t[p]).isNone

/-- R502: the slots of a stratum with a share are placed one at a time. (Log entry 31 DEDUCED.) -/
def placeSlots (t : Vector (Option FnNo) 64) (n : FnNo) (share : Nat) : Vector (Option FnNo) 64 :=
  (List.range share).foldl (fun v k =>
    match firstShared v (k * 64 / share) with
    | some p => v.set p.val (some n) p.isLt
    | none => v) t

/-- R503, R504: a stratum's positions return to SHARED. -/
def freeSlots (t : Vector (Option FnNo) 64) (n : FnNo) : Vector (Option FnNo) 64 :=
  t.map fun e => if e = some n then none else e

/-- The positions of a stratum as a bit mask (R513). -/
def slotMask (t : Vector (Option FnNo) 64) (n : FnNo) : W64 :=
  (List.finRange 64).foldl (fun m p => if t[p] = some n then m ||| (1#64 <<< p.val) else m) 0

/-- The share of a stratum in a table. -/
def slotCount (t : Vector (Option FnNo) 64) (n : FnNo) : Nat :=
  ((List.finRange 64).filter fun p => t[p] = some n).length

/-- The table of the next round gives a stratum its share, or none when it is SHARED (R502 to R504). Terms
which do not change leave the positions where they are; the stratum is told at the round's start.
(Log entry 31 DEDUCED.) -/
def State.setSlots (s : State) (n : FnNo) (share : Nat) : State :=
  let t := if slotCount s.slots.next n = share then s.slots.next
           else placeSlots (freeSlots s.slots.next n) n share
  { s with slots := { s.slots with next := t, notices := (s.slots.notices.filter (· ≠ n)) ++ [n] } }

/-- R504: a destroyed stratum's positions return to SHARED at the next round. -/
def State.dropSlots (s : State) (n : FnNo) : State :=
  { s with slots := { s.slots with
    next := freeSlots s.slots.next n
    notices := s.slots.notices.filter (· ≠ n)
    terms := s.slots.terms.filter fun x => x.1 ≠ n
    lapses := s.slots.lapses.filter fun l => l.stratum ≠ n } }

/-- The first tick of a slot: the least tick whose slot number (R495) is at least this. -/
def slotStart (n : Nat) : Nat := (n * 1024 + 4) / 5

/-- The tick at which the next slot, or the next round, begins; a slot which begins now counts. -/
def State.nextSlot (s : State) (unit : Nat) : Tick :=
  let n := (s.tick.toNat * 5 / 1024 / unit) * unit
  if slotStart n = s.tick.toNat then s.tick else BitVec.ofNat 64 (slotStart (n + unit))

/-- R513: ARBITRATION_SET to the stratum and to stratum 0. (Log entry 31 DEDUCED.) -/
def State.arbitrationSet (s : State) (n : FnNo) : State :=
  let share := slotCount s.slots.table n
  s.occurAll [n, 0] 0x1000 (slotMask s.slots.table n)
    (BitVec.ofNat 64 (share + if share = 0 then 0 else 0x100))

/-- R343, R345, R421: a command whose reply waits for the round answers now, and no BARRIER waits for it.
(Log entry 31 DEDUCED.) -/
def State.answerAwaiting (s : State) (fn : FnNo) (qp : QpNo) : State :=
  match s.fns[fn].qps[qp].awaiting with
  | none => s
  | some h =>
    let t := s.modQp fn qp fun q => { q with awaiting := none }
    let done := fun (b : BarrierWait) => if b.stratum = fn then { b with queues := b.queues.filter fun k => k != qp } else b
    let t : State := { t with barriers := t.barriers.map done }
    settleQueue (afterReply fn qp h.pkt 0 none (t.reply fn qp h.op h.pkt stOk 0 0 0)) fn qp

/-- The arbiters run: the module is active, out of reset, and not in a fatal condition (R1040). -/
def State.arbitrates (s : State) : Bool :=
  s.sup.power == .active && !s.boot.fatal && !s.boot.inReset && !s.boot.resetPending && s.boot.phase == phReady

/-- R343: arbitration terms take effect. -/
def State.applyTerms (s : State) : State :=
  let t : State := s.forEach s.slots.terms fun x u => u.modStratum x.1 fun y => { y with isolated := x.2.1, share := x.2.2 }
  { t with slots := { t.slots with terms := [] } }

/-- R343, R505, R511, R513, R757: a round begins. The new terms and the new table are in force, the strata whose slots it
sets are told, lapses which have ended are reported, replies which waited are written, and refresh follows the
presence of ISOLATED strata. (Log entry 31 DEDUCED.) -/
def startRound (s : State) : State :=
  if !s.arbitrates then s
  else
    let t := (s.reach (s.nextSlot 64)).applyTerms
    let told := t.slots.notices
    let t : State := { t with
      slots := { t.slots with table := t.slots.next, notices := [] }
      ext := { t.ext with fixedRefresh := (List.finRange 64).any fun p => (t.slots.next[p]).isSome } }
    let t := (t.forEach told fun n u => u.arbitrationSet n).restoreTiming
    let t := t.forEach (List.finRange 16) fun fn u =>
      u.forEach (List.finRange 4) fun qp v => v.answerAwaiting fn qp
    t.pumpChans none

/-- R505: ROUND_START. -/
def execRoundStart (s : State) : Host.Outcome State Fault Refusal := .next (startRound s)

/-- R507, R508: a slot ends and the next one begins: from its first tick on the engines go on with the jobs and pieces of
the strata which it serves (`State.engineServes`, `State.piece`), those of others stand in their suspend stores, credits are
advertised, and waiting messages sent, for the strata which it serves (R864). Bank precharge changes only the time which
accesses take. -/
def endSlot (s : State) : State :=
  if !s.arbitrates then s
  else
    let n := s.tick.toNat * 5 / 1024
    (s.reach (BitVec.ofNat 64 (slotStart (n + 1)))).pumpChans none

/-- R507: SLOT_BOUNDARY. -/
def execSlotBoundary (s : State) : Host.Outcome State Fault Refusal := .next (endSlot s)

end Sys2Proof.Machine
end

