-- ==== Sys2Proof/Machine/Strata.lean ====
section
/-!
DEFINITION. The strata commands (07, 10): creation, destruction, query, arbitration and mode.
-/

namespace Sys2Proof.Machine

/-! ### Clusters and the panel -/

/-- R330, R487: the scratch and both quire banks of a physical cluster read zero. Operand slots are emptied. -/
def State.zeroCluster (s : State) (c : PhysNo) : State :=
  { s with scratch := vmod s.scratch c fun _ => [], clusters := vmod s.clusters c fun _ => Cluster.fresh }

/-- The physical clusters of a mask of logical clusters. -/
def State.physOf (s : State) (mask : BitVec 64) : List PhysNo :=
  (List.finRange 64).filterMap fun l => if mask.getLsbD l.val then s.mapping[l] else none

/-- R1073: the identity region or the strata strip changed. -/
def State.stripChanged (s : State) : State :=
  { s with panel := { s.panel with changed := some (s.panel.changed.getD s.tick) } }

/-- R1065: first column, first row, width and height of a host-drawable region. -/
def regionRect (r : Nat) : Nat × Nat × Nat × Nat :=
  if r = 9 then (0, 48, 296, 80)
  else if r ≤ 4 then ((r - 1) * 74, 48, 74, 40) else ((r - 5) * 74, 88, 74, 40)

/-- A pixel of the rows which host software draws changes. -/
def setPixel (px : BitVec 23680) (col row : Nat) (v : Bool) : BitVec 23680 :=
  let m : BitVec 23680 := 1#23680 <<< (296 * (row - 48) + col)
  if v then px ||| m else px &&& ~~~m

/-- R1067, R1072: a bitmap is applied to a region of the composite image. -/
def drawRegion (px : BitVec 23680) (r : Nat) (bits : List Byte) : BitVec 23680 :=
  let q := regionRect r
  let stride := (q.2.2.1 + 7) / 8
  (List.range q.2.2.2).foldl (fun a y => (List.range q.2.2.1).foldl (fun b x =>
    setPixel b (q.1 + x) (q.2.1 + y) (((bits[y * stride + x / 8]?).getD 0).getLsbD (7 - x % 8))) a) px

/-- R1069: a region is set to white. -/
def State.whiten (s : State) (r : Nat) : State :=
  if r = 0 then s else { s with panel := { s.panel with
    pixels := drawRegion s.panel.pixels r [], touched := s.panel.touched ||| (1#10 <<< r) } }

/-- R1102: the counters of a STRATUM group are zeroed. -/
def State.zeroCounters (s : State) (n : FnNo) : State :=
  { s with telem := { s.telem with strata := vmod s.telem.strata n fun _ => Vector.replicate 14 0 } }

/-- R1125: a private instruction of the test access port. -/
def jtagPrivate (code : BitVec 8) : Bool := code.extractLsb' 4 4 == 8

/-! ### STRATUM_CREATE (R326 to R331) -/

/-- The fields of STRATUM_CREATE. -/
def usedCreate : BitVec 448 :=
  usedBits [(8, 1), (9, 1), (10, 1), (11, 1), (12, 2), (16, 8), (24, 4), (28, 4), (32, 4), (36, 4)]

/-- STRATUM_CREATE in R306. -/
def specStratumCreate : CmdSpec := { op := 0x10, len := 32, used := usedCreate, pfOnly := true }

/-- R326: a slot share against the ISOLATED bit. -/
def badShare (isolated : Bool) (share : BitVec 8) (off : Nat) : Option Rej :=
  badField (if isolated then share == 0 || decide (63 < share) else share != 0) off

/-- The logical clusters which are mapped. -/
def State.mappedMask (s : State) : BitVec 64 :=
  (List.finRange 64).foldl (fun m l => if (s.mapping[l]).isSome then m ||| (1#64 <<< l.val) else m) 0

/-- The logical clusters which tenants hold. -/
def State.tenantMask (s : State) : BitVec 64 := ~~~(s.clusterMask 0)

/-- R326, R327: checks 6 and 7 of STRATUM_CREATE. -/
def chkStratumCreate (p : Packet) (s : State) : Option Rej :=
  let n := toFn (p.u8 8)
  let onTheirs := (s.progs.filter fun q => q.stratum.val = 0).any fun q =>
    q.cells.any fun l => (p.u64 16).getLsbD l
  (badField (p.u8 8 == 0 || decide (15 < p.u8 8)) 8).or <| (badField (p.u8 9 &&& 0xE0 != 0) 9).or <|
  (badShare ((p.u8 9).getLsbD 2) (p.u8 10) 10).or <| (badField (decide (8 < p.u8 11)) 11).or <|
  (badField (decide (4096 < p.u16 12)) 12).or <|
  (badField (p.u64 16 &&& ~~~s.mappedMask != 0) 16).or <| (badField (decide (32768 < p.u32 24)) 24).or <|
  (badField (decide (s.extMib < (p.u32 28).toNat)) 28).or <| (badField (decide (65536 < p.u32 32)) 32).or <|
  (badField (decide (p.u32 36 < p.u32 32) || decide (65536 < p.u32 36)) 36).or <|
  badState (s.strata[n].live || s.strata[n].destroying || onTheirs)

/-- R328, R1068: check 9 of STRATUM_CREATE. (Log entry 29 DEDUCED.) -/
def resStratumCreate (p : Packet) (s : State) : Option Rej :=
  let n := toFn (p.u8 8)
  let granted := (List.finRange 16).any fun k =>
    k.val ≠ 0 && (s.strata[k].live || s.strata[k].destroying) && s.strata[k].panelGrant == p.u8 11 && p.u8 11 != 0
  (noResource (p.u64 16 &&& s.tenantMask != 0) 1).or <|
  (noResource (decide (63 < s.sharesBut n + (p.u8 10).toNat)) 2).or <|
  (noResource (s.poolConfigured && decide (s.poolSize < s.reserves + (p.u32 32).toNat)) 3).or <|
  noResource granted 9

/-- R330, R331, R478, R490, R978, R1102: the stratum exists; once it is sealed, a private instruction of the test access port
which is in force acts as BYPASS. (Log entry 30 DEDUCED.) -/
def createStratum (p : Packet) (s : State) : State × Res :=
  let n := toFn (p.u8 8)
  let attr := p.u8 9
  let d := s.draw
  let st : Stratum := { Stratum.none with
    live := true, sealed := attr.getLsbD 0, repro := attr.getLsbD 1, isolated := attr.getLsbD 2
    retry := attr.getLsbD 3, compat := attr.getLsbD 4, share := (p.u8 10).toNat, panelGrant := p.u8 11
    chanQuota := (p.u16 12).toNat, clusters := p.u64 16, arenaQuota := (p.u32 24).toNat
    extQuota := (p.u32 28).toNat, reserve := (p.u32 32).toNat, ceiling := (p.u32 36).toNat
    created := s.tick, key := some d.1, aperture := extViewBase }
  let t : State := d.2.forEach (d.2.physOf (p.u64 16)) fun c u => u.zeroCluster c
  let t : State := ((t.modStratum n fun _ => st).zeroCounters n).stripChanged
  let t : State := t.modRepro n fun r => { r with current := none, due := false }
  let t : State := if st.isolated then t.setSlots n st.share else t
  let t : State := if st.sealed && jtagPrivate t.jtag then { t with jtag := 0xFF } else t
  let t : State := if p.u64 16 = 0 then t else t.clustersChanged 0
  let t : State := (t.reclaimAll s).settlePool
  (if st.repro then t.reproBegin n else t, {})

/-- R326 to R331: STRATUM_CREATE. -/
def execStratumCreate (fn : FnNo) (qp : QpNo) (pkt : Packet) (s : State) :
    Host.Outcome State Fault Refusal :=
  .next (shortCommand specStratumCreate fn qp pkt (chkStratumCreate pkt) (resStratumCreate pkt)
    (createStratum pkt) s)

/-! ### STRATUM_DESTROY (R332 to R336) -/

/-- STRATUM_DESTROY in R306. -/
def specStratumDestroy : CmdSpec :=
  { op := 0x11, len := 8, used := usedBits [(8, 1)], long := true, pfOnly := true }

/-- R332, R333: checks 6 and 7 of STRATUM_DESTROY. -/
def chkStratumDestroy (p : Packet) (s : State) : Option Rej :=
  (badField (p.u8 8 == 0 || decide (15 < p.u8 8)) 8).or (badState (!s.strata[toFn (p.u8 8)].live))

/-- R334: the stratum is being destroyed. -/
def acceptDestroy (n : FnNo) (id : Nat) (s : State) : State :=
  (s.modStratum n fun x => { x with live := false, destroying := true, destroyId := id }).stripChanged

/-- R332 to R334: STRATUM_DESTROY. -/
def execStratumDestroy (fn : FnNo) (qp : QpNo) (pkt : Packet) (s : State) :
    Host.Outcome State Fault Refusal :=
  .next (longCommand specStratumDestroy fn qp pkt (chkStratumDestroy pkt) (fun _ => none)
    (acceptDestroy (toFn (pkt.u8 8))) (fun _ t => t) s)

/-- R1005: what becomes of lock-step when a stratum is destroyed: its pair ends, its unfinished PAIR ends with
ST_TARGET_RESET, and nothing is kept of its pairs. (Log entries 49 DEDUCED, 116 DEDUCED.) -/
def State.dropPair (s : State) (n : FnNo) : State :=
  let t : State := if s.lock.target != n then s
    else match s.lock.st, s.lock.cmd with
      | .pairing, some id => s.complete id stTargetReset 0 0 0 dataDestroyed
      | _, _ => s.endPair 3 true
  t.modLock fun l =>
    if l.target = n then { Lock.none with past := l.past, peerRec := l.peerRec, sendq := l.sendq }
    else { l with past := spDel l.past n.val }

/-- R335 step 3: the stratum's channels are unbound; a CHAN_UNBIND of stratum 0 which waits for one
completes. -/
def State.unbindAll (s : State) (n : FnNo) : State :=
  s.forEach (s.chans.filter fun c => c.stratum == n) fun c t =>
    let u := t.unbindNow c.num
    match c.pending with
    | some r => if r.unbind then u.completeOk r.id (BitVec.ofNat 64 c.marks) c.dropped else u
    | none => u

/-- R335 step 4: the stratum's granules, clusters, tables and micro-programs are zeroed, and its external
pages are free. -/
def State.zeroStratum (s : State) (n : FnNo) : State :=
  let t := s.forEach s.strata[n].arena fun a u => u.release n false a
  let t := t.forEach t.strata[n].ext fun a u => u.release n true a
  let t := t.forEach (t.physOf t.strata[n].clusters) fun c u => u.zeroCluster c
  { t with
    tables := vmod t.tables n fun _ => Vector.replicate 8 { image := [], monotone := false }
    mprogs := vmod t.mprogs n fun _ => Vector.replicate 8 [] }

/-- The launched channel-frames of a stratum whose result is not written. -/
def State.withoutResult (s : State) (n : FnNo) : Nat :=
  (s.frames.filter fun f => f.launch.isSome && f.stage != .opened && f.stage != .forwarding &&
    (match s.chan f.chan with | some c => c.stratum == n | none => false)).length

/-- R335, R336: the teardown, in its order. (Log entry 138 DEDUCED.) -/
def destroyStratum (n : FnNo) (s : State) : State :=
  if !s.strata[n].destroying then s
  else
    let id := s.strata[n].destroyId
    let s : State := (s.endCommands n).forgetWork n
    let before := s.withoutResult n
    let t : State := (s.abortAll (s.unresolvedOf n)).abortWaiting n
    let written := before - t.withoutResult n
    let t : State := { t with progs := t.progs.filter fun p => p.stratum ≠ n }
    let bound := (t.chans.filter fun c => c.stratum == n).length
    let t : State := (t.unbindAll n).zeroStratum n
    let t : State := t.dropPair n
    let grant := t.strata[n].panelGrant.toNat
    let t : State := (((t.modStratum n fun _ => Stratum.none).dropSlots n).whiten grant).zeroCounters n
    let t : State := t.modRepro n fun r => { r with current := none, due := false }
    let t : State := ((t.clustersChanged 0).reclaimAll s).settlePool
    t.completeOk id (BitVec.ofNat 64 bound) (BitVec.ofNat 64 written)

/-- R335, R336: STRATUM_DESTROY_COMPLETE. -/
def execStratumDestroyComplete (target : FnNo) (s : State) : Host.Outcome State Fault Refusal :=
  .next (destroyStratum target s)

/-! ### STRATUM_QUERY (R337 to R340) -/

/-- ATTR of R326 as in force. -/
def Stratum.attr (x : Stratum) : Nat :=
  (if x.sealed then 1 else 0) + (if x.repro then 2 else 0) + (if x.isolated then 4 else 0) +
    (if x.retry then 8 else 0) + (if x.compat then 16 else 0)

/-- R339: the stratum record. -/
def State.stratumRecord (s : State) (n : FnNo) : List Byte :=
  let x := s.strata[n]
  leBytes 1 n.val ++ leBytes 1 x.attr ++ leBytes 1 x.share ++ leBytes 1 x.panelGrant.toNat ++
  leBytes 2 x.chanQuota ++ leBytes 2 0 ++ leBytes 8 (s.clusterMask n).toNat ++ leBytes 4 x.arenaQuota ++
  leBytes 4 x.extQuota ++ leBytes 4 x.reserve ++ leBytes 4 x.ceiling ++
  leBytes 1 (if x.destroying then 2 else 1) ++ leBytes 1 0 ++
  leBytes 2 (s.chans.filter fun c => c.stratum == n).length ++ leBytes 4 (heldParts x.arena) ++
  leBytes 4 (heldParts x.ext) ++ leBytes 4 (s.held n) ++ leBytes 8 x.created.toNat ++ List.replicate 8 0

/-- STRATUM_QUERY in R306. -/
def specStratumQuery : CmdSpec := { op := 0x12, len := 16, used := usedBits [(8, 1), (16, 8)] }

/-- R337, R338: checks 6 to 8 of STRATUM_QUERY. -/
def chkStratumQuery (fn : FnNo) (p : Packet) (s : State) : Option Rej :=
  let n := toFn (p.u8 8)
  (badField (decide (15 < p.u8 8)) 8).or <| (badBuf p 16).or <|
  (badState (!s.strata[n].live && !s.strata[n].destroying)).or <|
  notPermitted (decide (fn.val ≠ 0) && n != fn) 8

/-- R337 to R340: STRATUM_QUERY. -/
def execStratumQuery (fn : FnNo) (qp : QpNo) (pkt : Packet) (s : State) : Host.Outcome State Fault Refusal :=
  .next (shortCommand specStratumQuery fn qp pkt (chkStratumQuery fn pkt) (fun _ => none)
    (fun t =>
      let b := t.stratumRecord (toFn (pkt.u8 8))
      (t.writeBlock fn (pkt.u64 16) b,
        { r0 := BitVec.ofNat 64 (fieldNat b 0 8), r1 := BitVec.ofNat 64 (fieldNat b 32 8) })) s)

/-! ### STRATUM_SET_ARBITRATION (R341 to R343) -/

/-- STRATUM_SET_ARBITRATION in R306. -/
def specStratumSetArbitration : CmdSpec :=
  { op := 0x13, len := 8, used := usedBits [(8, 1), (9, 1), (10, 1)], pfOnly := true }

/-- R341, R342: checks 6 to 8 of STRATUM_SET_ARBITRATION. -/
def chkSetArbitration (p : Packet) (s : State) : Option Rej :=
  let n := toFn (p.u8 8)
  (badField (p.u8 8 == 0 || decide (15 < p.u8 8)) 8).or <| (badField (decide (1 < p.u8 9)) 9).or <|
  (badShare (p.u8 9 == 1) (p.u8 10) 10).or <| (badState (!s.strata[n].live)).or <|
  notPermitted s.strata[n].sealed 8

/-- R342: check 9 of STRATUM_SET_ARBITRATION. -/
def resSetArbitration (p : Packet) (s : State) : Option Rej :=
  noResource (decide (63 < s.sharesBut (toFn (p.u8 8)) + (p.u8 10).toNat)) 2

/-- R343, R502 to R504: the terms and the table of the next round. (Log entry 31 DEDUCED.) -/
def setArbitration (p : Packet) (s : State) : State :=
  let n := toFn (p.u8 8)
  let t : State := { s with slots := { s.slots with terms := s.slots.terms ++ [(n, p.u8 9 == 1, (p.u8 10).toNat)] } }
  (t.setSlots n (p.u8 10).toNat).stripChanged

/-- R341 to R343: STRATUM_SET_ARBITRATION. Its reply follows the start of the next round (ROUND_START). -/
def execStratumSetArbitration (fn : FnNo) (qp : QpNo) (pkt : Packet) (s : State) :
    Host.Outcome State Fault Refusal :=
  .next (takeCommand fn qp 0x13 false pkt (fun t =>
    match t.fns[fn].qps[qp].chainFailed with
    | some tag => cancelReply fn qp 0x13 pkt tag t
    | none =>
      match validate specStratumSetArbitration fn pkt (chkSetArbitration pkt t) (resSetArbitration pkt t) t with
      | some r => rejectReply fn qp 0x13 pkt r t
      | none => (setArbitration pkt t).modQp fn qp fun q => { q with awaiting := some ⟨0x13, pkt⟩ }) s)

/-! ### STRATUM_SET_MODE (R344 to R346) -/

/-- STRATUM_SET_MODE in R306. -/
def specStratumSetMode : CmdSpec := { op := 0x14, len := 8, used := usedBits [(8, 1)] }

/-- R345, R346, R978, R979, R1005: the stratum's mode. (Log entry 30 DEDUCED.) -/
def setMode (n : FnNo) (attr : BitVec 8) (s : State) : State × Res :=
  let old := s.strata[n].attr
  let repro := attr.getLsbD 1
  let t : State := s.modStratum n fun x => { x with
    repro, retry := attr.getLsbD 3, compat := attr.getLsbD 4 }
  let t : State := if repro = s.strata[n].repro then t else t.stripChanged
  let t : State := if repro then t.reproBegin n
    else
      let u := (t.reproBreak 5 n).modRepro n fun r => { r with due := false }
      if u.lock.target == n then u.endPair 3 true else u
  (t, { r0 := BitVec.ofNat 64 old })

/-- R344 to R346: STRATUM_SET_MODE. -/
def execStratumSetMode (fn : FnNo) (qp : QpNo) (pkt : Packet) (s : State) :
    Host.Outcome State Fault Refusal :=
  .next (shortCommand specStratumSetMode fn qp pkt
    (fun _ => badField (pkt.u8 8 &&& (if fn.val = 0 then 0xE7 else 0xE5) != 0) 8) (fun _ => none)
    (setMode fn (pkt.u8 8)) s)

end Sys2Proof.Machine
end

