-- ==== Sys2Proof/Machine/Lockstep.lean ====
section
/-!
DEFINITION. Lock-step (22): LOCKSTEP_PAIR and LOCKSTEP_STATUS, LOCKSTEP frames as they arrive, the comparison of tile
logs, and the forwarding of input.
-/

namespace Sys2Proof.Machine

/-! ### Pairing (R451 to R453, R817, R991, R992) -/

/-- 100 ms in ticks. -/
abbrev pairWait : Tick := 80000000

/-- A number takes its place in a rising list without repeats. -/
def insertAsc (v : Nat) : List Nat → List Nat
  | [] => [v]
  | x :: r => if v < x then v :: x :: r else if v = x then x :: r else x :: insertAsc v r

/-- R991: the PKG_CRC values of a stratum's loaded programs. (Log entry 116 DEDUCED.) -/
def State.pkgCrcs (s : State) (n : FnNo) : List Nat :=
  ((s.progs.filter fun p => p.stratum == n && p.loading.isNone).map fun p => fieldNat p.header 248 8).foldl
    (fun l v => insertAsc v l) []

/-- R1003: the pair record of this side. -/
def State.pairRecord (s : State) : List Byte :=
  let l := s.lock
  let crcs := s.pkgCrcs l.target
  leBytes 1 (if l.secondary then 1 else 0) ++ leBytes 1 (if l.forwarded then 1 else 0) ++
    leBytes 1 s.plans.inForce.toNat ++ leBytes 1 (s.clustersOf l.target).length ++ leBytes 2 s.effectiveCap ++
    leBytes 2 crcs.length ++ leBytes 4 s.fwVersion ++ leBytes 4 s.micaVersion ++ List.replicate 48 0 ++
    (crcs.map (leBytes 8)).flatten

/-- R991: the two records agree: ROLE is complementary, and everything else is the same. (Log entry 116 DEDUCED.) -/
def recordsAgree (mine peer : List Byte) : Bool :=
  let n := 64 + 8 * fieldNat mine 6 2
  fieldNat mine 0 1 + fieldNat peer 0 1 == 1 && (mine.take 16).drop 1 == (peer.take 16).drop 1 &&
    (mine.take n).drop 64 == (peer.take n).drop 64

/-- R1004: what is kept of a pair. -/
def Lock.report (l : Lock) : PairReport :=
  { st := l.st, secondary := l.secondary, forwarded := l.forwarded, endCause := l.endCause
    comparedTiles := l.comparedTiles, compared := l.compared, skipped := l.skipped, divergent := l.divergent
    first := l.first }

/-- R1005: a PAIR of a stratum begins: what was known of its last pair goes, and what is known of another's stays.
(Log entry 115 DEDUCED.) -/
def Lock.startPair (l : Lock) (target : FnNo) (secondary forwarded : Bool) (id : Nat) (tick : Tick) : Lock :=
  let past := if l.st = .ended then spPut l.past l.target.val l.report else l.past
  { Lock.none with
    st := .pairing, target, secondary, forwarded, cmd := some id, began := tick, peerRec := l.peerRec
    past := spDel past target.val, sendq := l.sendq }

/-- R453, R991, R1000: with both records here, PAIR completes. A record which came more than 100 ms ago belongs to a PAIR
of the peer's which has ended. (Log entries 115 DEDUCED, 116 DEDUCED.) -/
def State.tryPair (s : State) : State :=
  match s.lock.st, s.lock.cmd, s.lock.peerRec with
  | .pairing, some id, some (t, r) =>
    if pairWait < s.tick - t then s
    else if recordsAgree s.pairRecord r then
      ((s.modLock fun l => { l with st := .paired, cmd := none, peerRec := none, since := s.nextLaunch }).takeLogGranules
        256).completeOk id 0 0
    else (s.modLock fun l => { l with st := .unpaired, cmd := none, peerRec := none }).portCommandEnds 7 id stPartnerRefused 0
  | _, _, _ => s

/-- LOCKSTEP_PAIR in R375. -/
def specLockstepPair : CmdSpec :=
  { op := 0xD0, len := 8, long := true, pfOnly := true, used := usedBits [(8, 1), (9, 1), (10, 1), (11, 1)] }

/-- R451: the fields of LOCKSTEP_PAIR. -/
def chkPairFields (p : Packet) : Option Rej :=
  let pair := p.u8 8 == 1
  (badField (p.u8 8 != 1 && p.u8 8 != 2) 8).or <|
  (badField (if pair then decide (1 < p.u8 9) else p.u8 9 != 0) 9).or <|
  (badField (if pair then decide (1 < p.u8 10) else p.u8 10 != 0) 10).or <|
  badField (p.u8 11 == 0 || decide (15 < p.u8 11)) 11

/-- R452, R817: check 7 of PAIR. Port 7 carries one pair. (Log entry 115 DEDUCED.) -/
def chkPairState (p : Packet) (s : State) : Option Rej :=
  let q := s.ports[7]
  let n := toFn (p.u8 11)
  (s.linkDown (q.st != .active || q.role != 2 || !q.farCap 0) 7).or <|
  (rejIf (!s.tickSynced) ⟨stTickUnsynced, 0, 0, 0⟩).or <|
  badState (!s.liveStrata.contains n || !s.strata[n].repro || s.lock.st == .paired || s.lock.st == .pairing)

/-- R451 to R453, R991: LOCKSTEP_PAIR PAIR; a packet of OP 0x02 is the row LOCKSTEP_UNPAIR's.
(Log entry 16 DEDUCED.) -/
def execLockstepPair (fn : FnNo) (qp : QpNo) (pkt : Packet) (s : State) : Host.Outcome State Fault Refusal :=
  .next (if pkt.u8 8 = 2 then s else longCommand specLockstepPair fn qp pkt
    (fun t => (chkPairFields pkt).or (chkPairState pkt t)) (fun _ => none)
    (fun id t => t.modLock fun l => l.startPair (toFn (pkt.u8 11)) (pkt.u8 9 == 1) (pkt.u8 10 == 1) id t.tick)
    (fun _ t => (t.lockSend none (lockPayload 5 1 t.pairRecord)).tryPair) s)

/-- R334, R452, R1005: LOCKSTEP_PAIR UNPAIR. (Log entry 16 DEDUCED.) -/
def execLockstepUnpair (fn : FnNo) (qp : QpNo) (pkt : Packet) (s : State) : Host.Outcome State Fault Refusal :=
  .next (if pkt.u8 8 ≠ 2 then s else longCommand specLockstepPair fn qp pkt
    (fun t => (chkPairFields pkt).or (badState (t.lock.st != .paired || t.lock.target != toFn (pkt.u8 11) ||
      !t.liveStrata.contains (toFn (pkt.u8 11)))))
    (fun _ => none) (fun _ t => t) (fun id t => (t.endPair 2 true).completeOk id 0 0) s)

/-- R991: no pair record came within 100 ms. (Log entry 116 DEDUCED.) -/
def pairTimeout (s : State) : State :=
  match s.lock.st, s.lock.cmd with
  | .pairing, some id =>
    ((s.reach (s.lock.began + pairWait)).modLock fun l => { l with st := .unpaired, cmd := none }).portCommandEnds 7 id
      stPartnerRefused 0
  | _, _ => s

/-- R991: PAIR_TIMEOUT. -/
def execPairTimeout (s : State) : Host.Outcome State Fault Refusal := .next (pairTimeout s)

/-! ### LOCKSTEP_STATUS (R454, R1004) -/

/-- R1004: the code of a state. -/
def PairState.code : PairState → Nat
  | .unpaired => 0 | .pairing => 1 | .paired => 2 | .ended => 3

/-- R1004: what is known of a stratum's pair. -/
def State.pairReport (s : State) (n : FnNo) : PairReport :=
  if s.lock.target = n then s.lock.report else (spGet s.lock.past n.val).getD Lock.none.report

/-- R1004: the status block; `whole` holds unless the stratum is sealed against the reader. -/
def PairReport.block (r : PairReport) (whole : Bool) : List Byte :=
  let kind : Nat := match r.first with | some d => d.kind.toNat | none => 0
  let place := match r.first with
    | some d =>
      leBytes 8 d.pairSeq.toNat ++ leBytes 2 d.chan ++ leBytes 1 d.position ++ leBytes 1 d.cluster ++
        leBytes 1 d.peerCluster ++ leBytes 1 d.prog ++ leBytes 2 d.uop ++ leBytes 8 d.frameSeq.toNat
    | none => List.replicate 24 0
  leBytes 1 r.st.code ++ leBytes 1 (if r.secondary then 1 else 0) ++ leBytes 1 (if r.forwarded then 1 else 0) ++
    leBytes 1 (if r.st = .ended then r.endCause.toNat else 0) ++ leBytes 1 kind ++ List.replicate 3 0 ++
    leBytes 8 r.comparedTiles.toNat ++ leBytes 8 r.compared.toNat ++ leBytes 8 r.skipped.toNat ++
    leBytes 8 r.divergent.toNat ++ (if whole then place else List.replicate 24 0)

/-- LOCKSTEP_STATUS in R375. -/
def specLockstepStatus : CmdSpec := { op := 0xD1, len := 16, used := usedBits [(8, 1), (16, 8)] }

/-- R454: the checks of LOCKSTEP_STATUS. -/
def chkLockstepStatus (fn : FnNo) (p : Packet) (s : State) : Option Rej :=
  let n := toFn (p.u8 8)
  (badField (p.u8 8 == 0 || decide (15 < p.u8 8)) 8).or <| (badBuf p 16).or <|
  (badState (!s.liveStrata.contains n)).or <| notPermitted (fn.val != 0 && n != fn) 8

/-- R454, R459, R1004: LOCKSTEP_STATUS. (Log entry 121 DEDUCED.) -/
def execLockstepStatus (fn : FnNo) (qp : QpNo) (pkt : Packet) (s : State) : Host.Outcome State Fault Refusal :=
  .next (shortCommand specLockstepStatus fn qp pkt (chkLockstepStatus fn pkt) (fun _ => none)
    (fun t =>
      let n := toFn (pkt.u8 8)
      let r := t.pairReport n
      (t.writeBlock fn (pkt.u64 16) (r.block (!(fn.val == 0 && t.strata[n].sealed))),
        { status := if r.first.isSome then stDivergence else stOk, r0 := r.comparedTiles })) s)

/-! ### LOCKSTEP frames (R855, R1003) -/

/-- A LOCKSTEP frame was accepted at link level: its credits are consumed, and `f` acts on its records. One which the
port does not carry is a link violation. (Log entry 119 DEDUCED.) -/
def State.acceptLock (s : State) (p : PortNo) (h : RxHead) (bytes : List Byte) (f : List Byte → State → State) :
    State :=
  let q := s.ports[p]
  let k := q.creditsOf bytes.length
  if q.role = 2 ∧ h.ch = 4095 then
    let d := q.lockRx.limit - q.lockRx.consumed
    let t := s.modPort p fun x => { x with
      lockRx := { x.lockRx with consumed := x.lockRx.consumed + BitVec.ofNat 16 k } }
    (if 32767 < d.toNat ∨ d.toNat < k then t.violation p 1 h.ch else f bytes t).areaCredit
  else
    match s.chanOn p h.ch with
    | none => (s.consumeUnbound p h.ch k false).violation p 2 h.ch
    | some x => ((((s.consume x.num k).dropWhole x.num).addUsed x.num k).violation p 3 h.ch).settlePool

/-- A LOCKSTEP frame of a kind arrives. A frame of a kind which R1003 does not list is taken by the row of DIGEST, and
says nothing. (Log entry 119 DEDUCED.) -/
def rxLockRow (kind : Nat) (p : PortNo) (bytes : List Byte) (f : List Byte → State → State) (s : State) : State :=
  let k := rawLkind bytes
  let unlisted := k = 0 || decide (6 < k)
  if k = kind then rxFrameRow 3 p bytes (fun h b t => t.acceptLock p h b f) s
  else if kind = 1 ∧ unlisted then rxFrameRow 3 p bytes (fun h b t => t.acceptLock p h b fun _ u => u) s
  else s

/-- Record `i` of a LOCKSTEP payload, of `n` bytes each. -/
def lockRecord (b : List Byte) (n i : Nat) : List Byte := (b.drop (8 + n * i)).take n

/-- The whole records of `n` bytes which a LOCKSTEP payload counts and holds. -/
def lockRecords (b : List Byte) (n : Nat) : List (List Byte) :=
  (List.range (min (fieldNat b 2 2) ((b.length - 8) / n))).map fun (i : Nat) => lockRecord b n i

/-! ### Digests (R999, R1000) -/

/-- R1003: the peer's digest in a DIGEST record. -/
def digestOf (b : List Byte) : Digest :=
  { pairSeq := fieldNat b 0 8, chan := fieldNat b 8 2, flags := BitVec.ofNat 8 (fieldNat b 10 1), tiles := fieldNat b 12 4
    digest := BitVec.ofNat 64 (fieldNat b 16 8), conditions := BitVec.ofNat 32 (fieldNat b 24 4), frameSeq := 0, prog := 0 }

/-- R999, R1000: a digest of the peer's arrives. -/
def State.peerDigest (s : State) (d : Digest) : State :=
  match s.lock.mine.find? fun e => e.chan == d.chan && e.pairSeq == d.pairSeq with
  | some e => s.compareDigests e d
  | none => s.modLock fun l => if l.full then { l with skipped := l.skipped + 1 } else { l with peers := l.peers ++ [d] }

/-- R999: the records of a DIGEST frame. -/
def takeDigests (b : List Byte) (s : State) : State :=
  if s.lock.st != .paired then s else s.forEach (lockRecords b 32) fun r t => t.peerDigest (digestOf r)

/-- R999: DIGEST_FRAME. -/
def execDigestFrame (port : PortNo) (bytes : List Byte) (s : State) : Host.Outcome State Fault Refusal :=
  .next (rxLockRow 1 port bytes takeDigests s)

/-! ### Tile logs (R1001, R1002) -/

/-- Entries which one LOG frame carries (R839, R1003). (Log entry 117 DESIGN CHOICE.) -/
abbrev logChunk : Nat := 254

/-- R1003: an entry of a LOG. (Log entries 117 DESIGN CHOICE, 130 DEDUCED.) -/
def sigBytes (x : TileSig) : List Byte :=
  leBytes 1 x.position ++ leBytes 1 x.cluster ++ leBytes 2 x.uop ++ List.replicate 4 0 ++ leBytes 8 x.sig.toNat

/-- R1003: an entry of the peer's LOG. -/
def sigOf (b : List Byte) : TileSig :=
  { position := fieldNat b 0 1, cluster := fieldNat b 1 1, uop := fieldNat b 2 2, sig := BitVec.ofNat 64 (fieldNat b 8 8) }

/-- A log in pieces for one LOG frame each; the last is shorter than a frame holds. (Log entry 117 DESIGN CHOICE.) -/
def logPieces : Nat → List TileSig → List (List TileSig)
  | 0, l => [l]
  | n + 1, l => if l.length < logChunk then [l] else l.take logChunk :: logPieces n (l.drop logChunk)

/-- R1003: the payload of a LOG frame. (Log entry 117 DESIGN CHOICE.) -/
def logPayload (chan q : Nat) (dropped : Bool) (l : List TileSig) : List Byte :=
  lockPayload 3 l.length (leBytes 8 q ++ leBytes 2 chan ++ leBytes 1 (if dropped then 1 else 0) ++ List.replicate 5 0 ++
    (l.map sigBytes).flatten)

/-- A log which has been compared here, and for which the peer has been answered, goes.
(Log entry 117 DESIGN CHOICE.) -/
def State.dropLog (s : State) (chan q : Nat) : State :=
  let done := !(s.lock.asked.any fun e => e.1.chan == chan && e.1.pairSeq == q) && s.lock.answered.contains (chan, q)
  if done then s.modLock fun l => { l with
    logs := l.logs.filter fun e => !(e.1 == chan && e.2.1 == q), answered := l.answered.filter fun e => e != (chan, q) }
  else s

/-- R1001: a request of the peer's is answered with this module's log. (Log entry 117 DESIGN CHOICE.) -/
def State.answerLog (s : State) (chan q : Nat) : State :=
  let log := s.lock.log chan q
  let t := match log with
    | some l => s.forEach (logPieces l.length l) fun x u => u.lockSend none (logPayload chan q false x)
    | none => s.lockSend none (logPayload chan q true [])
  (t.modLock fun l => { l with answered := if log.isSome then l.answered ++ [(chan, q)] else l.answered }).dropLog chan q

/-- R1001: the records of a LOG_REQ frame. -/
def takeLogReq (b : List Byte) (s : State) : State :=
  if s.lock.st != .paired then s
  else s.forEach (lockRecords b 16) fun r t => t.answerLog (fieldNat r 8 2) (fieldNat r 0 8)

/-- R1001: LOG_REQ. -/
def execLogReq (port : PortNo) (bytes : List Byte) (s : State) : Host.Outcome State Fault Refusal :=
  .next (rxLockRow 2 port bytes takeLogReq s)

/-- R1001: the first entries which differ. (Log entry 118 DEDUCED.) -/
def firstDiff : List TileSig → List TileSig → Option (TileSig × TileSig)
  | a :: r, b :: t =>
    if a.position = b.position ∧ a.uop = b.uop ∧ a.sig = b.sig then firstDiff r t else some (a, b)
  | _, _ => none

/-- R1001, R1002: the peer's whole log of a divergent channel-frame is here, or is dropped.
(Log entry 118 DEDUCED.) -/
def State.compareLogs (s : State) (d : Digest) (peer : Option (List TileSig)) : State :=
  let t := (s.modLock fun l => { l with asked := l.asked.filter fun e => e.1 != d }).dropLog d.chan d.pairSeq
  match s.lock.log d.chan d.pairSeq, peer with
  | some a, some b =>
    match firstDiff a b with
    | some x => t.located { d.wholeFrame with
        kind := 1, position := x.1.position, cluster := x.1.cluster, peerCluster := x.2.cluster, uop := x.1.uop
        mine := x.1.sig, peer := x.2.sig }
    | none => t.located d.wholeFrame
  | _, _ => t.located d.wholeFrame

/-- R1001: a LOG frame. -/
def takeLog (b : List Byte) (s : State) : State :=
  let chan := fieldNat b 16 2
  let q := fieldNat b 8 8
  match s.lock.asked.find? fun e => e.1.chan == chan && e.1.pairSeq == q with
  | none => s
  | some e =>
    if fieldNat b 18 1 % 2 = 1 then s.compareLogs e.1 none
    else
      let new := (lockRecords (b.take 8 ++ b.drop 24) 16).map sigOf
      let got := e.2 ++ new
      if fieldNat b 2 2 < logChunk then s.compareLogs e.1 (some got)
      else s.modLock fun l => { l with asked := l.asked.map fun x => if x.1 = e.1 then (x.1, got) else x }

/-- R1001: LOG_FRAME. -/
def execLogFrame (port : PortNo) (bytes : List Byte) (s : State) : Host.Outcome State Fault Refusal :=
  .next (rxLockRow 3 port bytes takeLog s)

/-! ### Forwarded input (R995, R996) -/

/-- R996: the channel can take the item now: payload of its open frame takes room. (Log entry 120 DEDUCED.) -/
def State.itemFits (s : State) (i : FwdItem) : Bool :=
  match s.chan i.chan with
  | none => true
  | some x => i.itype != 1 || (s.openFrame i.chan).isNone || decide (s.ports[x.port].creditsOf i.bytes.length ≤ s.room x)

/-- R995: a forwarded item takes effect on its channel, as accepted at its arrival. (Log entry 120 DEDUCED.) -/
def State.moveItem (s : State) (i : FwdItem) : State :=
  match s.chan i.chan with
  | none => s
  | some x =>
    if i.itype = 1 then (s.takePayload i.chan i.sbits i.bytes (s.ports[x.port].creditsOf i.bytes.length)).settlePool
    else if i.itype = 2 then s.takeMark i.chan (i.arg.getLsbD 0) i.tick
    else s.takeNotice i.chan i.arg.toNat

/-- R996: the items of the area move to their channels while they have room, each channel's in order.
(Log entry 120 DEDUCED.) -/
def State.drainArea (s : State) : State :=
  (s.forEach s.lock.area fun i t =>
    if (t.lock.area.find? fun j => j.chan == i.chan) == some i && t.itemFits i then
      (t.modLock fun l => { l with area := l.area.erase i }).moveItem i
    else t).areaCredit

/-- R995, R1003: a FORWARD frame: its item joins the area, when its channel takes forwarded items.
(Log entry 120 DEDUCED.) -/
def takeForward (b : List Byte) (s : State) : State :=
  let r := b.drop 8
  let c := fieldNat r 0 2
  let kind := fieldNat r 2 1
  let takes := match s.chan c with | some x => s.takesForwarded x | none => false
  if !takes || kind = 0 || 3 < kind then s
  else
    let i : FwdItem := { chan := c, itype := BitVec.ofNat 8 kind, sbits := fieldNat r 3 1, arg := BitVec.ofNat 8 (fieldNat r 4 1)
                         bytes := if kind = 1 then r.drop 8 else [], tick := s.tick }
    (s.modLock fun l => { l with area := l.area ++ [i] }).drainArea

/-- R995: FORWARD. -/
def execForward (port : PortNo) (bytes : List Byte) (s : State) : Host.Outcome State Fault Refusal :=
  .next (rxLockRow 4 port bytes takeForward s)

/-- R991: the peer's pair record. (Log entry 116 DEDUCED.) -/
def takePairRecord (b : List Byte) (s : State) : State :=
  if s.lock.st = .paired then s else (s.modLock fun l => { l with peerRec := some (s.tick, b.drop 8) }).tryPair

/-- R991: PAIR_FRAME. -/
def execPairFrame (port : PortNo) (bytes : List Byte) (s : State) : Host.Outcome State Fault Refusal :=
  .next (rxLockRow 5 port bytes takePairRecord s)

/-- R1005: UNPAIR_FRAME. -/
def execUnpairFrame (port : PortNo) (bytes : List Byte) (s : State) : Host.Outcome State Fault Refusal :=
  .next (rxLockRow 6 port bytes (fun _ t => t.endPair 2 false) s)

end Sys2Proof.Machine
end

