-- ==== Sys2Proof/Machine/PoolCmds.lean ====
section
/-!
DEFINITION. The pool commands and events (07, 15): POOL_CONFIG, POOL_QUERY, grants, the end of a buffer's
zeroing, and starvation which lasts a period.
-/

namespace Sys2Proof.Machine

/-- The fields of POOL_CONFIG. -/
def usedPoolConfig : BitVec 448 := usedBits [(8, 1), (9, 1), (12, 4), (16, 4), (20, 4)]

/-- POOL_CONFIG in R306. -/
def specPoolConfig : CmdSpec := { op := 0x23, len := 16, used := usedPoolConfig, pfOnly := true }

/-! ### SET_SIZE (R358 to R360, R690) -/

/-- R358, R359: checks 6 and 7 of SET_SIZE; an OP which R358 does not list fails here. -/
def chkSetSize (p : Packet) (s : State) : Option Rej :=
  (badField (p.u8 8 != 1) 8).or <| (badField (p.u8 9 != 0) 9).or <|
  (badField (p.u32 12 % 4 != 0 || decide (65536 < p.u32 12)) 12).or <| (badField (p.u32 16 != 0) 16).or <|
  (badField (p.u32 20 != 0) 20).or <| badState (!s.chans.isEmpty)

/-- The granules of the pool. -/
def State.poolLive (s : State) : List Nat := s.geo.poolGranules.filterMap id

/-- R359: check 9 of SET_SIZE. The present pool's granules count as free, since it is returned.
(Log entry 27 DEDUCED.) -/
def resSetSize (p : Packet) (s : State) : Option Rej :=
  (noResource (decide ((p.u32 12).toNat < s.reserves)) 3).or <|
  noResource (decide (s.freeGranules + s.poolLive.length < (p.u32 12).toNat / 4)) 6

/-- R360, R690: the former pool's granules return, and the new pool is carved. (Log entry 27 DEDUCED.) -/
def setPoolSize (p : Packet) (s : State) : State × Res :=
  let t : State := s.forEach s.poolLive fun g u => u.freeGranule g
  let t : State := { t with geo := { t.geo with poolGranules := [], bufs := [], lastPool := 63 } }
  let r := t.placeGranules .pool 63 ((p.u32 12).toNat / 4)
  let u : State := r.1
  (({ u with geo := { u.geo with poolGranules := r.2.1, lastPool := r.2.2 } }).settlePool, {})

/-- R358 to R360: POOL_CONFIG SET_SIZE. A packet of OP 0x02 is the row SET_STRATUM's. (Log entry 16 DEDUCED.) -/
def execSetSize (fn : FnNo) (qp : QpNo) (pkt : Packet) (s : State) : Host.Outcome State Fault Refusal :=
  .next (if pkt.u8 8 = 2 then s else
    shortCommand specPoolConfig fn qp pkt (chkSetSize pkt) (resSetSize pkt) (setPoolSize pkt) s)

/-! ### SET_STRATUM (R358, R361, R362) -/

/-- R358, R361: checks 6 to 8 of SET_STRATUM. -/
def chkSetStratum (p : Packet) (s : State) : Option Rej :=
  let n := toFn (p.u8 9)
  (badField (decide (15 < p.u8 9)) 9).or <| (badField (p.u32 12 != 0) 12).or <|
  (badField (decide (65536 < p.u32 16)) 16).or <|
  (badField (decide (p.u32 20 < p.u32 16) || decide (65536 < p.u32 20)) 20).or <|
  (badState (!s.strata[n].live)).or <| notPermitted s.strata[n].sealed 9

/-- The sum of the floors of a stratum's channels. -/
def State.floors (s : State) (n : FnNo) : Nat :=
  ((s.chans.filter fun c => c.stratum == n).map fun c => c.floor).sum

/-- R361: check 9 of SET_STRATUM. (Log entry 29 DEDUCED.) -/
def resSetStratum (p : Packet) (s : State) : Option Rej :=
  let n := toFn (p.u8 9)
  (noResource (s.poolConfigured &&
    decide (s.poolSize < s.reserves - s.strata[n].reserve + (p.u32 16).toNat)) 3).or <|
  noResource (decide ((p.u32 20).toNat < s.floors n)) 0xA

/-- R362, R708, R709: the reserve and ceiling are replaced, and reclaiming follows. -/
def setStratumTerms (p : Packet) (s : State) : State × Res :=
  let n := toFn (p.u8 9)
  ((State.reclaimAll (s.modStratum n fun x => { x with
    reserve := (p.u32 16).toNat, ceiling := (p.u32 20).toNat }) s).settlePool, {})

/-- R358, R361, R362: POOL_CONFIG SET_STRATUM. (Log entry 16 DEDUCED.) -/
def execSetStratum (fn : FnNo) (qp : QpNo) (pkt : Packet) (s : State) : Host.Outcome State Fault Refusal :=
  .next (if pkt.u8 8 = 2 then
    shortCommand specPoolConfig fn qp pkt (chkSetStratum pkt) (resSetStratum pkt) (setStratumTerms pkt) s
    else s)

/-! ### POOL_QUERY (R363 to R365) -/

/-- POOL_QUERY in R306. -/
def specPoolQuery : CmdSpec := { op := 0x24, len := 8, used := usedBits [(8, 1)] }

/-- R363, R364: checks 6 to 8 of POOL_QUERY. -/
def chkPoolQuery (fn : FnNo) (p : Packet) (s : State) : Option Rej :=
  let whole := p.u8 8 == 0xFF
  (badField (decide (15 < p.u8 8) && !whole) 8).or <|
  (badState (!whole && !s.strata[toFn (p.u8 8)].live)).or <|
  notPermitted (decide (fn.val ≠ 0) && p.u8 8 != BitVec.ofNat 8 fn.val) 8

/-- R365: the reply of POOL_QUERY. (Log entry 27 DEDUCED.) -/
def poolFigures (p : Packet) (s : State) : Res :=
  if p.u8 8 = 0xFF then
    { r0 := BitVec.ofNat 64 (s.poolSize + 2 ^ 32 * s.poolFree), r1 := BitVec.ofNat 64 s.reserves }
  else
    let n := toFn (p.u8 8)
    let starving := (s.chans.filter fun c => c.stratum == n && c.starvedSince.isSome).length
    { r0 := BitVec.ofNat 64 (s.held n + 2 ^ 32 * s.strata[n].reserve)
      r1 := BitVec.ofNat 64 (s.strata[n].ceiling + 2 ^ 32 * starving) }

/-- R363 to R365: POOL_QUERY. -/
def execPoolQuery (fn : FnNo) (qp : QpNo) (pkt : Packet) (s : State) : Host.Outcome State Fault Refusal :=
  .next (shortCommand specPoolQuery fn qp pkt (chkPoolQuery fn pkt) (fun _ => none)
    (fun t => (t, poolFigures pkt t)) s)

/-! ### Grants, zeroing and starvation (R696, R697, R699, R705, R706) -/

/-- R697: the class of a waiting channel, served in rising order. -/
def State.grantClass (s : State) (c : Chan) : Nat :=
  if s.allotment c.num < c.floor then 0
  else if s.held c.stratum < s.strata[c.stratum].reserve then 1 else 2

/-- R697: channel `a` is served before channel `b`. -/
def State.servedBefore (s : State) (a b : Chan) : Bool :=
  let ka := s.grantClass a
  let kb := s.grantClass b
  let ta := a.waitSince.getD s.tick
  let tb := b.waitSince.getD s.tick
  decide (ka < kb) || (ka == kb && (decide (ta < tb) || (ta == tb && decide (a.num < b.num))))

/-- The channel which a grant serves next, among those which R693 lets have one. (Log entry 25 DEDUCED.) -/
def State.nextGrant (s : State) : Option Chan :=
  (s.chans.filter fun c => s.seeks c && s.mayGrant c).foldl (fun best c =>
    match best with
    | none => some c
    | some b => if s.servedBefore c b then some c else some b) none

/-- R696, R697, R996: one grant is attempted; forwarded payload moves into what it gives. (Log entry 25 DEDUCED.) -/
def grant (s : State) : State :=
  match s.nextGrant with
  | some c => (s.grantOne c.num).settlePool.drainArea
  | none => s

/-- R696: GRANT. -/
def execGrant (s : State) : Host.Outcome State Fault Refusal := .next (grant s)

/-- R699: a buffer's zeroing ends, and it is in state POOL. -/
def zeroingComplete (n : Nat) (s : State) : State :=
  if s.geo.bufs.any fun b => b.num = n && b.state == .zeroing then
    (s.modBufs fun l => l.filter fun b => b.num ≠ n).settlePool
  else s

/-- R699: ZEROING_COMPLETE. -/
def execZeroingComplete (buffer : Nat) (s : State) : Host.Outcome State Fault Refusal :=
  .next (zeroingComplete buffer s)

/-- R706: starvation has lasted one PERIOD. (Log entry 26 DEDUCED.) -/
def poolStarved (c : Nat) (s : State) : State :=
  match s.chan c with
  | none => s
  | some x =>
    match x.starvedSince with
    | none => s
    | some t =>
      if x.starvedSent then s
      else
        let u := s.reach (t + BitVec.ofNat 64 x.period)
        (u.modChan c fun y => { y with starvedSent := true }).occur x.stratum 0x2004 (BitVec.ofNat 64 c)
          (BitVec.ofNat 64 (u.allotment c + 2 ^ 16 * x.cap))

/-- R706: POOL_STARVED. -/
def execPoolStarved (channel : Nat) (s : State) : Host.Outcome State Fault Refusal :=
  .next (poolStarved channel s)

end Sys2Proof.Machine
end

