-- ==== Sys2Proof/Machine/Real.lean ====
section
/-!
DEFINITION. Real functions in fixed point, far finer than any posit: what R647, R901 and R919 round is taken
from them, to 200 significant bits. A number `v` stands for the real value `v / 2^512`.
-/

namespace Sys2Proof.Machine

/-- Fraction bits. -/
abbrev fxBits : Nat := 512
/-- One. -/
abbrev fxOne : Int := 2 ^ fxBits
/-- A fraction in fixed point. -/
def fxOf (num : Int) (den : Nat) : Int := num * fxOne / den
/-- Product. -/
def fxMul (a b : Int) : Int := a * b / fxOne
/-- Quotient by a positive number. -/
def fxDiv (a b : Int) : Int := a * fxOne / b

/-- A result, to 300 fraction bits and 200 significant bits: exact values which the series miss by less than
that are met. -/
def fxSnap (v : Int) : Int :=
  let cut := fun (x : Int) (k : Nat) => if k = 0 then x else (x + 2 ^ (k - 1)) / 2 ^ k * 2 ^ k
  let a := cut v 212
  cut a (a.natAbs.log2 - 199)

/-- Terms of e^x from term `t` of number `n` on. -/
def expTerms (x : Int) : Nat → Nat → Int → Int
  | 0, _, _ => 0
  | k + 1, n, t => t + expTerms x k (n + 1) (fxMul t x / (n + 1))

/-- e^x for |x| up to some hundreds. -/
def fxExp (x : Int) : Int :=
  (List.range 16).foldl (fun a _ => fxMul a a) (expTerms (x / 2 ^ 16) 80 0 fxOne)

/-- atan (1 / k) from power `p` of 1 / k on. -/
def atanTerms (k : Int) : Nat → Nat → Int → Int
  | 0, _, _ => 0
  | m + 1, n, p => p / (2 * n + 1) - atanTerms k m (n + 1) (p / (k * k))

/-- π. -/
def fxPi : Int := 16 * atanTerms 5 130 0 (fxOne / 5) - 4 * atanTerms 239 40 0 (fxOne / 239)

/-- ln 2, as a sum of 1 / (n 2^n). -/
def fxLn2 : Int := ((List.range 520).map fun i => fxOne / ((i + 1 : Nat) * 2 ^ (i + 1) : Nat)).sum

/-- Terms of cos x. -/
def cosTerms (x2 : Int) : Nat → Nat → Int → Int
  | 0, _, _ => 0
  | k + 1, n, t => t - cosTerms x2 k (n + 2) (fxMul t x2 / ((n + 1) * (n + 2)))

/-- cos (π a / b) for |a / b| up to 2. -/
def fxCosPi (a : Int) (b : Nat) : Int :=
  let x := fxPi * a / b
  fxSnap (cosTerms (fxMul x x) 110 0 fxOne)

/-- Fraction bits of log2 of a number in [1, 2). -/
def log2Bits : Nat → Int → Int
  | 0, _ => 0
  | k + 1, m =>
    let q := fxMul m m
    if 2 * fxOne ≤ q then 2 ^ k + log2Bits k (q / 2) else log2Bits k q

/-- log2 (a / b) for positive a and b. (Log entry 66 DESIGN CHOICE.) -/
def fxLog2 (a b : Nat) : Int :=
  let l := ratLog2 a b
  let m := if 0 ≤ l then fxOf a (b * 2 ^ l.toNat) else fxOf (a * 2 ^ (-l).toNat : Nat) b
  l * fxOne + log2Bits 320 m * 2 ^ (fxBits - 320)

/-- The integer square root of `n`, given bits above `k` in `r`. -/
def sqrtBits (n : Nat) : Nat → Nat → Nat
  | 0, r => r
  | k + 1, r => let c := r + 2 ^ k; sqrtBits n k (if c * c ≤ n then c else r)

/-- √(a / b). -/
def fxSqrt (a b : Nat) : Int := sqrtBits (a * 2 ^ (2 * fxBits) / b) 660 0

/-- Terms of the series of erf. -/
def erfTerms (x2 : Int) : Nat → Nat → Int → Int
  | 0, _, _ => 0
  | k + 1, n, t => t + erfTerms x2 k (n + 1) (fxMul t x2 * 2 / (2 * n + 3))

/-- erf x; beyond 12 it differs from ±1 by less than 2^-200, the trace which it is given there. -/
def fxErf (x : Int) : Int :=
  if 12 * fxOne ≤ x then fxOne - 2 ^ (fxBits - 200)
  else if x ≤ -12 * fxOne then 2 ^ (fxBits - 200) - fxOne
  else
    let x2 := fxMul x x
    fxDiv (2 * fxMul (fxExp (-x2)) (erfTerms x2 1200 0 x)) (sqrtBits (fxPi.toNat * 2 ^ fxBits) 520 0)

/-- 1 / (1 + e^-x). -/
def fxSigmoid (x : Int) : Int :=
  let y := max (-200 * fxOne) (min (200 * fxOne) x)
  fxDiv fxOne (fxOne + fxExp (-y))

/-- x times a factor which tends to 1: far out, x less a trace. -/
def fxGate (x gate : Int) : Int := if 100 * fxOne ≤ x then x - x / 2 ^ 190 else fxMul x gate

/-! ### Rounding to posits (R520, R649) -/

/-- R520: a fixed-point value becomes a posit. -/
def fxToPosit (n : Nat) (v : Int) : Nat := roundPosit n v (2 ^ fxBits)

/-- A real pattern of `n` bits as a fixed-point value. -/
def fxOfPosit (n p : Nat) : Int := (decodePosit n p).getD 0 * 2 ^ (fxBits - posScale n)

/-- The next pattern above a positive or zero one, or below. -/
def patternBelow (n : Nat) (v : Int) : Nat :=
  let r := fxToPosit n v
  if v < fxOfPosit n r then r - 1 else r

/-- ulp of R649 for a magnitude which lies between minpos and maxpos. -/
def ulpAt (n : Nat) (v : Int) : Int :=
  let p := patternBelow n v
  fxOfPosit n (p + 1) - fxOfPosit n p

/-- R521, R649: the pattern `c` lies within `b` halves of an ulp of the value `v`, and is a number of its sign. -/
def withinUlps (n b c : Nat) (v : Int) : Bool :=
  let a : Int := v.natAbs
  (decodePosit n c).isSome && decide (c < 2 ^ n) && (fxOfPosit n c).sign == v.sign &&
    decide (2 * (fxOfPosit n c - v).natAbs ≤ b * (ulpAt n a).natAbs)

/-- R520, R649: a value which R520 takes to ±maxpos or ±minpos. -/
def saturates (n : Nat) (v : Int) : Bool :=
  let a : Int := v.natAbs
  decide (a ≤ fxOfPosit n 1) || decide (fxOfPosit n (2 ^ (n - 1) - 1) ≤ a)

/-- R648, R649: the result for an exact value `v`, when the bound is `b` halves of an ulp: the value rounded
once, or the free pattern of `c` within a bound above half an ulp. Values which are posits come out exactly.
(Log entries 66 DESIGN CHOICE, 112 DESIGN CHOICE.) -/
def boundedPosit (n b : Nat) (c : Unit → Nat) (v : Int) : Nat :=
  let r := fxToPosit n v
  if b ≤ 1 || v == 0 || saturates n v || v == fxOfPosit n r then r else if withinUlps n b (c ()) v then c () else r

end Sys2Proof.Machine
end

