-- ==== Sys2Proof/Machine/Slate.lean ====
section
/-!
DEFINITION. Slate conditioning (20): the correction chain, the raster, the coded record, the vision tensor, and
the pieces of work which an engine takes.
-/

namespace Sys2Proof.Machine

/-! ### Fields of the images (R933, R934) -/

/-- A posit16 of an image as an integer multiple of 2^-56. -/
def imgPosit (b : List Byte) (o : Nat) : Int := (decodePosit 16 (fieldNat b o 2)).getD 0

/-- C[i][j][t], G[i], O[i] and TAU[i] of a correction set. -/
def setC (b : List Byte) (i j t : Nat) : Int := imgPosit b (64 + 2 * (64 * i + 4 * j + t))
def setG (b : List Byte) (i : Nat) : Int := imgPosit b (2112 + 2 * i)
def setO (b : List Byte) (i : Nat) : Int := imgPosit b (2144 + 2 * i)
def setTau (b : List Byte) (i : Nat) : Int := imgPosit b (2176 + 2 * i)

def ctxKsel (b : List Byte) : Nat := fieldNat b 13 1
def ctxStepT (b : List Byte) : Int := imgPosit b 14
def ctxRasterLo (b : List Byte) : Int := imgPosit b 16
def ctxRasterHi (b : List Byte) : Int := imgPosit b 18
def ctxRasterSpan (b : List Byte) : Nat := fieldNat b 20 4
def ctxDecay (b : List Byte) : Nat := fieldNat b 24 1
def ctxRecordRaw (b : List Byte) : Bool := fieldNat b 25 1 == 1
def ctxTensorSlots (b : List Byte) : Nat := fieldNat b 26 1
def ctxSpecLog (b : List Byte) : Bool := fieldNat b 27 1 == 1
def ctxWinLen (b : List Byte) : Nat := fieldNat b 28 2

/-! ### The areas of the outputs (R918, R923) -/

/-- R918: rows of the tensor, and its row stride in bytes. -/
def tensorRows (ctx : List Byte) (spec : Bool) : Nat :=
  if spec then 128 else (ctxMaxSamples ctx + ctxWinLen ctx - 1) / ctxWinLen ctx
def tensorStride (ctx : List Byte) (spec : Bool) : Nat :=
  if spec then roundUp (2 * (ctxMaxSamples ctx / 128)) 64 else 2 * ctxWinLen ctx

/-- R923: the size of a tensor slot. -/
def tensorSlotBytes (ctx : List Byte) (spec : Bool) : Nat :=
  roundUp (64 + tensorRows ctx spec * tensorStride ctx spec) 4096

/-- R923: the areas of the enabled outputs: the offset of the address field, first address and length. -/
def outputAreas (ctx : List Byte) (o : SlateOut) : List (Nat × Nat × Nat) :=
  (if o.mask.getLsbD 0 then [(24, o.rasterAddr, 0x200000)] else []) ++
  (if o.mask.getLsbD 1 then [(32, o.codedAddr, o.codedBytes)] else []) ++
  (if o.mask.getLsbD 2 then [(48, o.tensorAddr, ctxTensorSlots ctx * tensorSlotBytes ctx o.spectrogram)] else [])

/-- The lowest address of a range which lies outside a stratum's Geode allocations. -/
def State.outsideArena (s : State) (n : FnNo) (a len : Nat) : Option Nat :=
  (((List.range (roundUp (len + granuleBytes) granuleBytes / granuleBytes)).map fun i =>
      if i = 0 then a else (a / granuleBytes + i) * granuleBytes).filter fun x => x < a + len).find? fun x =>
    (findAlloc s.strata[n].arena granuleBytes x).isNone

/-- The view address of a frame's tensor slot (R921). -/
def Frame.tensorSlot (f : Frame) : Nat :=
  f.out.tensorAddr + f.seq % ctxTensorSlots f.ctx * tensorSlotBytes f.ctx f.out.spectrogram

/-! ### The correction chain (R897 to R903) -/

/-- Raw sample `n` of a frame (R844). -/
def Frame.raw (f : Frame) (n : Nat) : Int :=
  if sampleBytes (ctxSbits f.ctx) = 1 then (BitVec.ofNat 8 (fieldNat f.payload n 1)).toInt
  else (BitVec.ofNat 16 (fieldNat f.payload (2 * n) 2)).toInt

/-- The value of a posit16 pattern as an integer multiple of 2^-56. -/
def p16v (w : W16) : Int := (decodePosit 16 w.toNat).getD 0

/-- The posit16 nearest to `num / 2^den`. -/
def round16 (num : Int) (den : Nat) : W16 := BitVec.ofNat 16 (roundPosit 16 num (2 ^ den))

/-- Value `n` of a stream whose history ends before value 0; beyond the last value, that one. -/
def streamAt (hist now : List W16) (n : Int) : Int :=
  if n < 0 then
    let back := (-n).toNat
    if back ≤ hist.length then p16v ((hist[hist.length - back]?).getD 0) else 0
  else p16v ((now[min n.toNat (now.length - 1)]?).getD 0)

/-- Stage 0: sample `n` (R543). -/
def Frame.stage0 (f : Frame) (n : Nat) : W16 := round16 (f.raw n) (ctxSbits f.ctx - 1)

/-- Stages 1 and 2 of sample `n` (R898, R899). -/
def Frame.stage2 (f : Frame) (hist0 x0 : List W16) (n : Nat) : W16 :=
  let m := ctxMosaic f.ctx
  let i := n % m
  let talk := ((List.range m).map fun j =>
    if j = i then 0
    else ((List.range 4).map fun t =>
      let p : Int := (n : Int) - ((i + m - j) % m : Nat) - (t * m : Nat)
      setC f.setImage i j t * streamAt hist0 x0 p).sum).sum
  let x1 := p16v (round16 (streamAt hist0 x0 n * 2 ^ 56 - talk) 112)
  round16 (setG f.setImage i * (x1 - setO f.setImage i)) 112

/-- R901: `s (t - δ)` less the factor sin πδ / π, which every tap has, with δ = d / 2^56 ≠ 0.
(Log entry 66 DESIGN CHOICE.) -/
def tapWeight (d : Int) (t : Int) : Int :=
  let v := t * 2 ^ 56 - d
  let c := fxCosPi v (2 ^ 59)
  let w := (34 * fxOne + 50 * c + 16 * fxMul c c) / 100
  if (v.natAbs : Int) ≤ 2 ^ 59 then (if t % 2 = 0 then 1 else -1) * (w * 2 ^ 56 / v) else 0

/-- R901, R902: the coefficients of the 16-tap kernel, t = -8 to 7, for δ = d / 2^56. (Log entry 66 DESIGN CHOICE.) -/
def taps16 (d : Int) : List W16 :=
  let ts : List Int := (List.range 16).map fun (k : Nat) => (k : Int) - 8
  if d = 0 then ts.map fun t => if t = 0 then 0x4000 else 0
  else
    let w := ts.map (tapWeight d)
    let sum := w.sum
    w.map fun x => BitVec.ofNat 16 (roundPosit 16 (x * sum.sign) sum.natAbs)

/-- R901: the 16-tap kernel at sample `n`. (Log entry 66 DESIGN CHOICE.) -/
def sixteenTap (h : List W16) (at_ : Int → Int) (n : Nat) : W16 :=
  round16 (((List.range 16).map fun (k : Nat) => p16v ((h[k]?).getD 0) * at_ ((n : Int) + k - 8)).sum) 112

/-- R903: the 4-tap kernel at sample `n`, for δ = d / 2^56. -/
def fourTap (d : Int) (at_ : Int → Int) (n : Nat) : W16 :=
  let base : Int := if 0 ≤ d then n else (n : Int) - 1
  let one : Int := 2 ^ 56
  let u := if 0 ≤ d then d else one + d
  let b := at_ base
  let c := at_ (base + 1)
  let v := (-u * u * u + 2 * u * u * one - u * one * one) * at_ (base - 1) +
    (3 * u * u * u - 5 * u * u * one + 2 * one * one * one) * b +
    (-3 * u * u * u + 4 * u * u * one + u * one * one) * c + (u * u * u - u * u * one) * at_ (base + 2)
  let unit : Int := 2 ^ 169
  round16 (max (min b c * unit) (min (max b c * unit) v)) 225

/-- R900: the 4-tap kernel is used at sample `n`. -/
def useKernel4 (ksel : Nat) (step : Int) (at_ : Int → Int) (n : Nat) : Bool :=
  ksel == 2 || (ksel == 0 && (List.range 15).any fun k =>
    let m : Int := (n : Int) - 8 + k
    decide (step < (at_ (m + 1) - at_ m).natAbs))

/-- The histories which a frame starts from (R896). -/
def Frame.histories (f : Frame) (c : SlateCtx) : List W16 × List W16 × List W16 :=
  if f.gen = c.histGen then (c.hist0, c.hist2, c.hist3) else ([], [], [])

/-- Samples `first` up to `last` of a frame pass through the chain; the stages which reach beyond them are
computed as far as the kernel needs. (Log entry 65 DEDUCED.) -/
def Frame.condition (f : Frame) (c : SlateCtx) (last : Nat) : Frame :=
  let h := f.histories c
  let m := ctxMosaic f.ctx
  let upto := min (last + 7) f.samples
  let x0 := f.x0 ++ (List.range (upto - f.x0.length)).map fun k => f.stage0 (f.x0.length + k)
  let x2 := f.x2 ++ (List.range (upto - f.x2.length)).map fun k => f.stage2 h.1 x0 (f.x2.length + k)
  let at_ := streamAt h.2.1 x2
  let kernels := (List.range m).map fun i => taps16 (-setTau f.setImage i)
  let new := (List.range (last - f.x3.length)).map fun k =>
    let n := f.x3.length + k
    if useKernel4 (ctxKsel f.ctx) (ctxStepT f.ctx) at_ n then (fourTap (-setTau f.setImage (n % m)) at_ n, 1)
    else (sixteenTap ((kernels[n % m]?).getD []) at_ n, 0)
  { f with x0, x2, x3 := f.x3 ++ new.map (·.1), kernel4 := f.kernel4 + (new.map (·.2)).sum, done := last }

/-! ### Writes to the arena -/

/-- Bytes are written in a stratum's view; what no memory in service holds is lost. -/
def State.slatePut (s : State) (n : FnNo) (a : Nat) (bs : List Byte) : State :=
  s.forEach (List.range bs.length) fun i t =>
    let l := t.locate n (a + i)
    match t.locError false l with
    | some _ => t
    | none => t.locWrite ((bs[i]?).getD 0) l

/-- A byte of a stratum's view; zero where no memory in service holds it. -/
def State.slateGet (s : State) (n : FnNo) (a : Nat) : Byte :=
  match s.viewRead n a with
  | .ok b => b
  | .error _ => 0

/-! ### The display raster (R909 to R912) -/

/-- A raster cell. -/
def State.cell (s : State) (n : FnNo) (a : Nat) : Nat := (s.slateGet n a).toNat + 256 * (s.slateGet n (a + 1)).toNat

/-- R910: the cells decay before a frame's first hit. -/
def State.decayRaster (s : State) (n : FnNo) (base decay : Nat) : State :=
  s.forEach (List.range 524288) fun i t =>
    let c := t.cell n (base + 2 * i)
    t.slatePut n (base + 2 * i) (leBytes 2 (c - (c + 2 ^ decay - 1) / 2 ^ decay))

/-- A raster is cleared. -/
def State.clearRaster (s : State) (n : FnNo) (base : Nat) : State :=
  s.slatePut n base (List.replicate 0x100000 0)

/-- R909, R910: one corrected sample hits its cell. -/
def State.hit (s : State) (n : FnNo) (f : Frame) (k : Nat) : State :=
  let span := ctxRasterSpan f.ctx
  let lo := ctxRasterLo f.ctx
  let row := ((p16v ((f.x3[k]?).getD 0) - lo) * 512 / (ctxRasterHi f.ctx - lo))
  let row := 511 - (max 0 (min 511 row)).toNat
  let a := f.out.rasterAddr + 2048 * row + 2 * (k * 1024 / span)
  if span ≤ k then s
  else s.slatePut n a (leBytes 2 (if f.out.density then min 65535 (s.cell n a + 1) else 65535))

/-- R909 to R911: the raster updates of the samples from `first` to `last`. -/
def State.rasterPiece (s : State) (n : FnNo) (f : Frame) (first last : Nat) : State :=
  if !f.out.mask.getLsbD 0 then s
  else
    let t := if first ≠ 0 then s
      else if !f.out.density then s.decayRaster n f.out.rasterAddr (ctxDecay f.ctx)
      else if f.out.rasterDiv = 0 then s.clearRaster n f.out.rasterAddr
      else s
    t.forEach (List.range (last - first)) fun i u => u.hit n f (first + i)

/-- R402, R912: the frame's raster goes to the host. -/
def Frame.delivers (f : Frame) : Bool :=
  f.out.mask.getLsbD 0 && f.out.rasterDiv != 0 && (f.seq + 1) % f.out.rasterDiv == 0 && f.launch.isSome

/-- R726: the copy engine of a delivery job. -/
def State.deliveryEngine (s : State) (c : Nat) : Option EngNo :=
  ((List.range 4).map fun k => (Fin.ofNat 4 (c + k) : EngNo)).find? fun e => s.units.copies[e].up

/-- R911, R912, R726, R727: the snapshot is taken and its delivery job is placed. (Log entry 67 DEDUCED.) -/
def State.snapshot (s : State) (x : Chan) (f : Frame) : State :=
  let n := x.stratum
  let a := f.out.rasterAddr
  let bytes := (List.range 0x100000).map fun i => s.slateGet n (a + i)
  let t := s.slatePut n (a + 0x100000) bytes
  let t := if f.out.density then t.clearRaster n a else t
  match s.deliveryEngine x.num with
  | none => t
  | some engine =>
    let slot := x.slate.delivered % 2 ^ f.out.slotsLog2
    let job : Delivery := { chan := x.num, seq := f.seq, stratum := n, engine, src := a + 0x100000
                            dst := f.out.rasterHost + slot * 0x100000, started := false }
    let t : State := { t with deliveries := t.deliveries ++ [job] }
    t.modFrame x.num f.seq fun g => { g with raster := slot + 1 }

/-! ### The coded record (R913 to R917) -/

/-- Bits of a number, lowest first. -/
def bitsOf (k v : Nat) : List Bool := (List.range k).map fun i => v.testBit i

/-- R915: the folded delta of two successive values. -/
def foldDelta (prev x : Int) : Nat := let d := x - prev; if 0 ≤ d then (2 * d).toNat else (-2 * d - 1).toNat

/-- The folded deltas of values. -/
def foldAll : Int → List Int → List Nat
  | _, [] => []
  | prev, x :: r => foldDelta prev x :: foldAll x r

/-- R916: bits of a block's samples under a code below 15. -/
def codeCost (k : Nat) (us : List Nat) : Nat := (us.map fun u => u / 2 ^ k + 1 + k).sum

/-- R916: the code of a block. -/
def chooseK (us : List Nat) : Nat :=
  let best := (List.range 15).foldl (fun b k => if codeCost k us < codeCost b us then k else b) 0
  if 16 * us.length < codeCost best us then 15 else best

/-- R915: the bits of one block. -/
def blockBits (xs : List Int) (us : List Nat) : List Bool :=
  let k := chooseK us
  bitsOf 4 k ++ (if k = 15 then (xs.map fun x => bitsOf 16 (BitVec.ofInt 16 x).toNat).flatten
    else (us.map fun u => List.replicate (u / 2 ^ k) true ++ [false] ++ bitsOf k (u % 2 ^ k)).flatten)

/-- R914, R915: the coded bits of a record, block by block. -/
def recordBits : Nat → List Int → List Nat → List Bool
  | 0, _, _ => []
  | b + 1, xs, us => blockBits (xs.take 64) (us.take 64) ++ recordBits b (xs.drop 64) (us.drop 64)

/-- Bits as bytes, bit 0 first. -/
def packBits (bs : List Bool) : List Byte :=
  (List.range ((bs.length + 7) / 8)).map fun i =>
    BitVec.ofNat 8 (((List.range 8).map fun j => if (bs[8 * i + j]?).getD false then 2 ^ j else 0).sum)

/-- R913 to R915: the coded record of a frame. -/
def Frame.codedRecord (f : Frame) : List Byte :=
  let raw := ctxRecordRaw f.ctx
  let xs : List Int := if raw then (List.range f.samples).map f.raw else f.x3.map BitVec.toInt
  let bits := recordBits ((xs.length + 63) / 64) xs (foldAll 0 xs)
  leBytes 4 0x43455253 ++ leBytes 2 f.chan ++ leBytes 1 (if raw then 1 else 0) ++
  leBytes 1 (if raw then ctxSbits f.ctx else 16) ++ leBytes 8 f.seq ++ leBytes 8 f.markTick.toNat ++
  leBytes 4 xs.length ++ leBytes 4 bits.length ++ leBytes 1 f.set ++ leBytes 1 (ctxMosaic f.ctx) ++
  List.replicate 30 0 ++ packBits bits

/-- R917: the record takes its place in the ring. -/
def State.writeRecord (s : State) (x : Chan) (f : Frame) : State :=
  if !f.out.mask.getLsbD 1 then s
  else
    let r := f.codedRecord
    if f.out.codedBytes < r.length then s.slateNote x 0x5002 0 (BitVec.ofNat 64 r.length)
    else
      let pos := if f.out.codedBytes < x.slate.codedPos + r.length then 0 else x.slate.codedPos
      ((s.slatePut x.stratum (f.out.codedAddr + pos) r).modChan x.num fun y => { y with
        slate := { y.slate with codedPos := roundUp (pos + r.length) 64 } }).modFrame x.num f.seq fun g =>
        { g with record := f.out.codedAddr + pos }

/-! ### The vision tensor (R918 to R920) -/

/-- cos (2π k / 256) as a posit16. (Log entry 66 DESIGN CHOICE.) -/
def cos256 (k : Nat) : Int := p16v (BitVec.ofNat 16 (fxToPosit 16 (fxCosPi (k % 256 : Nat) 128)))

/-- sin (2π k / 256) as a posit16. (Log entry 66 DESIGN CHOICE.) -/
def sin256 (k : Nat) : Int := cos256 (k + 192)

/-- The Hann window as a posit16. (Log entry 66 DESIGN CHOICE.) -/
def hann256 (m : Nat) : Int :=
  p16v (BitVec.ofNat 16 (fxToPosit 16 (fxSnap ((fxOne - fxCosPi (m : Int) 128) / 2))))

/-- R919: P of bin `k` of column `c`, as an integer multiple of 2^-336. -/
def binPower (hist x3 : List W16) (k c : Nat) : Int :=
  let at_ := streamAt hist x3
  let part := fun (w : Nat → Int) => ((List.range 256).map fun m =>
    at_ ((128 * c + m : Nat) - 128) * hann256 m * w (k * m)).sum
  let re := part cos256
  let im := part sin256
  re * re + im * im

/-- R919: an element of the spectrogram. (Log entry 66 DESIGN CHOICE.) -/
def binElement (log : Bool) (p : Int) : W16 :=
  if !log then round16 p 336
  else
    let q := max p (2 ^ 280)
    let v := fxSnap (fxLog2 q.toNat (2 ^ 336))
    BitVec.ofNat 16 (boundedPosit 16 2 (fun _ => (Config.spectrumLog q.toNat).toNat) v)

/-- R918: columns which the frame covers, and the elements of a row. -/
def Frame.tensorRow (f : Frame) (hist3 : List W16) (r : Nat) : List W16 :=
  if f.out.spectrogram then (List.range (f.samples / 128)).map fun c => binElement (ctxSpecLog f.ctx) (binPower hist3 f.x3 r c)
  else (f.x3.drop (r * ctxWinLen f.ctx)).take (ctxWinLen f.ctx)

/-- R920: COLS of the descriptor: the columns which the frame's samples reach. (Log entry 162 DEDUCED.) -/
def Frame.tensorCols (f : Frame) : Nat := if f.out.spectrogram then f.samples / 128 else min f.samples (ctxWinLen f.ctx)

/-- R918, R920: a tensor slot. -/
def Frame.tensorBytes (f : Frame) (hist3 : List W16) : List Byte :=
  let rows := tensorRows f.ctx f.out.spectrogram
  let stride := tensorStride f.ctx f.out.spectrogram
  let desc := leBytes 8 f.seq ++ leBytes 8 f.markTick.toNat ++ leBytes 4 f.samples ++ leBytes 2 rows ++
    leBytes 2 f.tensorCols ++ leBytes 2 stride ++ leBytes 1 (if f.out.spectrogram then 1 else 0) ++ leBytes 1 f.set ++
    leBytes 4 f.kernel4 ++ List.replicate 32 0
  desc ++ ((List.range rows).map fun r =>
    padRow stride (((f.tensorRow hist3 r).map fun w => leBytes 2 w.toNat).flatten)).flatten

/-! ### Pieces of work (R921, R922, R925 to R928) -/

/-- R921: the channel-frame which last used the frame's tensor slot has no result yet. -/
def State.slotBusy (s : State) (f : Frame) : Bool :=
  f.launch.isSome && f.out.mask.getLsbD 2 && s.frames.any fun g =>
    g.chan == f.chan && decide (g.seq < f.seq) && g.launch.isSome && g.stage != .forwarding &&
      g.out.mask.getLsbD 2 && g.tensorSlot == f.tensorSlot

/-- The piece which a channel offers to an engine: the first of its oldest frame which has one (R928). -/
def State.offered (s : State) (e : EngNo) (x : Chan) : Option (Frame × (Nat × Nat × Tick)) :=
  if (List.finRange 4).any fun k => (s.pieces[k]).any fun p => p.chan == x.num then none
  else
    match s.frames.find? fun f => f.chan == x.num && !f.pieces.isEmpty with
    | none => none
    | some f => if f.engine != some e || s.slotBusy f then none else f.pieces.head?.map fun p => (f, p)

/-- R507, R508: the slot serves the stratum of a piece of work. -/
def State.pieceServed (s : State) (p : Piece) : Bool :=
  match s.chan p.chan with
  | some x => s.slotServes x.stratum
  | none => true

/-- R507, R508: the piece which runs on an engine in this slot: the oldest one taken for a stratum which the slot serves.
Others stand in their strata's suspend stores. (Log entry 139 DEDUCED.) -/
def State.piece (s : State) (e : EngNo) : Option Piece := (s.pieces[e]).find? s.pieceServed

/-- R927: an engine which is idle in this slot takes the oldest waiting piece. -/
def startPiece (e : EngNo) (s : State) : State :=
  if (s.piece e).isSome || !s.units.slates[e].up then s
  else
    let all := (s.chans.filter fun x => s.slotServes x.stratum).filterMap (s.offered e)
    let best := all.foldl (fun (b : Option (Frame × (Nat × Nat × Tick))) p =>
      match b with
      | none => some p
      | some q => if p.2.2.2 < q.2.2.2 then some p else some q) none
    match best with
    | none => s
    | some (f, p) =>
      let t := s.modFrame f.chan f.seq fun g => { g with pieces := g.pieces.drop 1 }
      { t with
        pieces := t.pieces.set e.val ((t.pieces[e]) ++ [{ chan := f.chan, seq := f.seq, first := p.1, last := p.2.1 }]) e.isLt
        loaded := t.loaded.set e.val (some f.chan) e.isLt }

/-- R927: PIECE_START. -/
def execPieceStart (engine : EngNo) (s : State) : Host.Outcome State Fault Refusal := .next (startPiece engine s)

/-- The last values of a stream. -/
def lastOf (k : Nat) (l : List W16) : List W16 := l.drop (l.length - k)

/-- R896: the histories after a frame has been conditioned. (Log entry 65 DEDUCED.) -/
def State.keepHistories (s : State) (c : Nat) (f : Frame) : State :=
  s.modChan c fun y =>
    let h := f.histories y.slate
    { y with slate := { y.slate with
      histGen := f.gen, hist0 := lastOf 64 (h.1 ++ f.x0), hist2 := lastOf 8 (h.2.1 ++ f.x2), hist3 := lastOf 128 (h.2.2 ++ f.x3) } }

/-- R402, R912, R918 to R922, R925: conditioning of a closed frame has ended. A frame without tensor output ends with
ST_FRAME_ABORTED, after the delivery of its raster. -/
def State.conditioned (s : State) (x : Chan) (f : Frame) : State :=
  let t := s.writeRecord x f
  let t := if f.out.mask.getLsbD 2 && f.launch.isSome then
      t.slatePut x.stratum f.tensorSlot (f.tensorBytes (f.histories x.slate).2.2) else t
  let t := t.keepHistories x.num f
  let t := if f.delivers then t.snapshot x f else t
  if f.launch.isNone then ((t.releaseFrame x.num f.seq false).delFrame x.num f.seq).settlePool.endUnbinds
  else if !f.out.mask.getLsbD 2 then t.finishFrame x.num f.seq true []
  else t.makeReady x.num f.seq t.tick

/-- R498, R912, R922: the piece which runs on an engine ends. The snapshot of a frame waits for the channel's delivery job.
(Log entry 65 DEDUCED.) -/
def endPiece (e : EngNo) (s : State) : State :=
  match s.piece e with
  | none => s
  | some p =>
    let idle : State := { s with pieces := s.pieces.set e.val ((s.pieces[e]).erase p) e.isLt }
    match s.frame p.chan p.seq, s.chan p.chan with
    | some f, some x =>
      let ends := f.stage == .conditioning && f.pieces.isEmpty && f.cut == p.last
      if ends && f.delivers && s.deliveries.any fun d => d.chan == p.chan then s
      else
        let g := f.condition x.slate p.last
        let t := idle.modFrame p.chan p.seq fun _ => g
        let t := t.rasterPiece x.stratum g p.first p.last
        if ends then t.conditioned x g else t
    | _, _ => idle

/-- R922: PIECE_END. -/
def execPieceEnd (engine : EngNo) (s : State) : Host.Outcome State Fault Refusal := .next (endPiece engine s)

/-! ### Raster deliveries (R402, R403, R725 to R727, R912) -/

/-- R724, R725: an engine starts a stratum's next delivery job, in a slot of the stratum, once none of its runs. The next
burst is the delivery's. (Log entry 67 DEDUCED.) -/
def startDelivery (e : EngNo) (n : FnNo) (s : State) : State :=
  let mine := s.deliveries.filter fun d => d.engine == e && d.stratum == n
  if mine.any Delivery.started || !s.units.copies[e].up || !s.engineServes n true then s
  else
    match mine.head? with
    | none => s
    | some d =>
      let go := fun (x : Delivery) => if x.chan = d.chan ∧ x.seq = d.seq then { x with started := true } else x
      let t : State := { s with deliveries := s.deliveries.map go }
      t.modStore e n fun k => { k with delivery := true }

/-- R726: DELIVERY_JOB_START. -/
def execDeliveryJobStart (engine : EngNo) (stratum : FnNo) (s : State) : Host.Outcome State Fault Refusal :=
  .next (startDelivery engine stratum s)

/-- The results of the stratum's programs which a delivery held up are written. (Log entry 67 DEDUCED.) -/
def State.pumpRings (s : State) (n : FnNo) : State :=
  s.forEach ((s.progs.filter fun p => p.stratum == n).map (·.id)) fun pid t => t.pumpRing n pid

/-- R402, R403, R912: a delivery job has written its slot, in a slot of its stratum and with Bus Master Enable 1
(R498, R1144). The next burst is the command job's (R725). (Log entry 67 DEDUCED.) -/
def endDelivery (e : EngNo) (n : FnNo) (s : State) : State :=
  match s.deliveries.find? fun d => d.engine == e && d.stratum == n && d.started with
  | none => s
  | some d =>
    if !s.engineServes n true then s
    else
      let bytes := (List.range 0x100000).map fun i => s.slateGet n (d.src + i)
      let rest := s.deliveries.filter fun x => !(x.chan == d.chan && x.seq == d.seq)
      let t : State := { s with deliveries := rest }
      (((t.modStore e n fun k => { k with delivery := false }).modChan d.chan fun y => { y with
          slate := { y.slate with delivered := y.slate.delivered + 1 } }).bulkWrite n (BitVec.ofNat 64 d.dst) bytes).pumpRings n

/-- R727: a raster which no engine can deliver is given up. -/
def State.dropDelivery (s : State) (d : Delivery) : State :=
  let rest := s.deliveries.filter fun x => !(x.chan == d.chan && x.seq == d.seq)
  let t : State := { s with deliveries := rest }
  (t.modFrame d.chan d.seq fun g => { g with raster := 0 }).pumpRings d.stratum

/-- R727: the delivery jobs of a fenced engine start again elsewhere. -/
def State.moveDeliveries (s : State) (e : EngNo) : State :=
  s.forEach (s.deliveries.filter fun d => d.engine == e) fun d t =>
    match t.deliveryEngine d.chan with
    | none => t.dropDelivery d
    | some k =>
      let move := fun (x : Delivery) => if x.chan = d.chan ∧ x.seq = d.seq then { x with engine := k, started := false } else x
      { t with deliveries := t.deliveries.map move }

end Sys2Proof.Machine
end

