-- ==== Sys2Proof/Machine/Uops.lean ====
section
/-!
DEFINITION. Micro-operations (R606 to R614): their fields, read once out of the 16 bytes.
-/

namespace Sys2Proof.Machine

/-- A micro-operation (R606). -/
abbrev Uop := BitVec 128

/-- Bits `hi` to `lo` of a micro-operation. -/
def uf (u : Uop) (hi lo : Nat) : Nat := u.toNat / 2 ^ lo % 2 ^ (hi + 1 - lo)

/-- One bit of a micro-operation. -/
def ub (u : Uop) (i : Nat) : Bool := u.getLsbD i

/-- OPC (R607). -/
def opcOf (u : Uop) : Nat := uf u 127 122

/-- R607: the opcodes. -/
abbrev opcStep : Nat := 1
abbrev opcSload : Nat := 2
abbrev opcQsave : Nat := 3
abbrev opcQload : Nat := 4
abbrev opcQclear : Nat := 5
abbrev opcGet : Nat := 6
abbrev opcPut : Nat := 7
abbrev opcHsend : Nat := 8
abbrev opcHrecv : Nat := 9
abbrev opcMica : Nat := 10
abbrev opcBarrier : Nat := 11
abbrev opcNop : Nat := 12
abbrev opcEnd : Nat := 13

/-- Number of the queue of an opcode (R597): 0 matrix, 1 transfer, 2 function. -/
def queueOf (opc : Nat) : Nat :=
  if opc = 1 ∨ opc = 3 ∨ opc = 4 ∨ opc = 5 then 0 else if opc ≤ 9 then 1 else 2

/-- R606: the semaphore which the micro-operation waits on, and the one which it signals. -/
def waitOf (u : Uop) : Option (Fin 16) := if ub u 117 then some (Fin.ofNat 16 (uf u 121 118)) else none
/-- R606: see `waitOf`. -/
def signalOf (u : Uop) : Option (Fin 16) := if ub u 112 then some (Fin.ofNat 16 (uf u 116 113)) else none

/-- Bits of a posit format code (R609, R643). -/
def fmtBits (f : Nat) : Nat := 8 * 2 ^ f
/-- Bytes of an element-size code (R610). -/
def sizeBytes (e : Nat) : Nat := 2 ^ e

/-- R609: the operands of STEP. -/
structure StepOp where
  fmt : Nat
  k : Nat
  wslot : Fin 8
  nslot : Fin 8
  bankB : Bool
  clear : Bool
  close : Bool
  reduce : Nat
  outFmt : Nat
  red : Nat
  /-- DST, STRIDE and VDST in bytes. -/
  dst : Nat
  stride : Nat
  vdst : Nat
  deriving DecidableEq, Repr

/-- R609: STEP. -/
def stepOp (u : Uop) : StepOp :=
  { fmt := uf u 95 94, k := 16 * (uf u 93 89 + 1), wslot := Fin.ofNat 8 (uf u 88 86), nslot := Fin.ofNat 8 (uf u 85 83)
    bankB := ub u 82, clear := ub u 81, close := ub u 80, reduce := uf u 79 74, outFmt := uf u 73 72, red := uf u 71 68
    dst := 64 * uf u 67 52, stride := 64 * uf u 51 40, vdst := 64 * uf u 39 24 }

/-- R610: the operands of SLOAD. -/
structure SloadOp where
  north : Bool
  slot : Fin 8
  esize : Nat
  trans : Bool
  base : Nat
  rows : Nat
  cols : Nat
  stride : Nat
  off : Nat
  deriving DecidableEq, Repr

/-- R610: SLOAD. -/
def sloadOp (u : Uop) : SloadOp :=
  { north := ub u 95, slot := Fin.ofNat 8 (uf u 94 92), esize := uf u 91 90, trans := ub u 89, base := uf u 88 86
    rows := uf u 85 76 + 1, cols := uf u 75 66 + 1, stride := 16 * uf u 65 46, off := 64 * uf u 45 14 }

/-- R611: the operands of QSAVE, QLOAD and QCLEAR. FORM: 0 quire8, 1 quire16, 2 quire32. -/
structure BankOp where
  bankB : Bool
  form : Nat
  addr : Nat
  deriving DecidableEq, Repr

/-- R611: QSAVE, QLOAD, QCLEAR. -/
def bankOp (u : Uop) : BankOp := { bankB := ub u 95, form := uf u 94 93, addr := 64 * uf u 92 77 }

/-- R611: bytes of a quire tile. -/
def BankOp.bytes (o : BankOp) : Nat := if o.form = 0 then 0x4000 else 0x8000

/-- R612: the operands of GET and PUT. -/
structure BlockOp where
  base : Nat
  esize : Nat
  trans : Bool
  rows : Nat
  rbytes : Nat
  fstride : Nat
  loc : Nat
  off : Nat
  deriving DecidableEq, Repr

/-- R612: GET, PUT. -/
def blockOp (u : Uop) : BlockOp :=
  { base := uf u 95 93, esize := uf u 92 91, trans := ub u 90, rows := uf u 89 80 + 1, rbytes := 16 * uf u 79 68
    fstride := 16 * uf u 67 48, loc := 64 * uf u 47 32, off := 64 * uf u 31 0 }

/-- R612: rows of the block in scratch, and bytes of each. -/
def BlockOp.local (o : BlockOp) : Nat × Nat :=
  if o.trans then (o.rbytes / sizeBytes o.esize, o.rows * sizeBytes o.esize) else (o.rows, o.rbytes)

/-- R613: the operands of HSEND and HRECV. DIR: 0 north, 1 east, 2 south, 3 west. -/
structure HaloOp where
  dir : Nat
  rows : Nat
  rbytes : Nat
  loc : Nat
  lstride : Nat
  deriving DecidableEq, Repr

/-- R613: HSEND, HRECV. -/
def haloOp (u : Uop) : HaloOp :=
  { dir := uf u 95 94, rows := uf u 93 84 + 1, rbytes := 16 * uf u 83 72, loc := 64 * uf u 71 56
    lstride := 64 * uf u 55 40 }

/-- R614, R644: the operands of MICA. -/
structure MicaOp where
  func : Nat
  inFmt : Nat
  outFmt : Nat
  src : Nat
  dst : Nat
  count : Nat
  aux : Nat
  sel : Nat
  mid : Nat
  fin : Bool
  vec : Bool
  init : Bool
  deriving DecidableEq, Repr

/-- R614: MICA. -/
def micaOp (u : Uop) : MicaOp :=
  { func := uf u 95 88, inFmt := uf u 87 86, outFmt := uf u 85 84, src := 64 * uf u 83 68, dst := 64 * uf u 67 52
    count := uf u 51 40, aux := 64 * uf u 39 24, sel := uf u 23 22, mid := uf u 21 19, fin := ub u 18, vec := ub u 17
    init := ub u 16 }

/-- R642: FUNC names a table slot, or a micro-program slot. -/
def MicaOp.table (o : MicaOp) : Bool := decide (0x20 ≤ o.func) && decide (o.func ≤ 0x27)
/-- R642: see `MicaOp.table`. -/
def MicaOp.mprog (o : MicaOp) : Bool := decide (0x30 ≤ o.func) && decide (o.func ≤ 0x37)
/-- R642: FUNC is a built-in function, or a row function. -/
def MicaOp.builtin (o : MicaOp) : Bool := decide (1 ≤ o.func) && decide (o.func ≤ 0xC)
/-- R642: see `MicaOp.builtin`. -/
def MicaOp.rowFunc (o : MicaOp) : Bool := decide (0x10 ≤ o.func) && decide (o.func ≤ 0x13)
/-- R639: the row layout. -/
def MicaOp.rowLayout (o : MicaOp) : Bool := o.rowFunc || (o.mprog && o.vec)

/-- R639: bytes from row to row in a format, in the row layout. -/
def MicaOp.rowBytes (o : MicaOp) (fmt : Nat) : Nat := roundUp (o.count * fmtBits fmt / 8) 64

/-- R639: bytes of a source or destination area. -/
def MicaOp.areaBytes (o : MicaOp) (fmt : Nat) : Nat :=
  if o.rowLayout then 32 * o.rowBytes fmt else 32 * o.count * (fmtBits fmt / 8)

/-- R642, R655: bytes of the AUX area. -/
def MicaOp.auxBytes (o : MicaOp) : Nat :=
  if o.func = 0x10 then (if o.vec then 384 else 256) else if o.func = 0x11 then 256
  else if o.func = 0x12 then 2048 + 128 else if o.func = 0x13 || (o.mprog && o.vec) then 128 else 0

/-- R639, R643: source, destination and AUX areas, as first byte and length; an area which does not exist has
length 0. -/
def MicaOp.areas (o : MicaOp) : List (Nat × Nat) :=
  [(o.src, o.areaBytes o.inFmt), (o.dst, if o.func = 0x10 then 0 else o.areaBytes o.outFmt), (o.aux, o.auxBytes)]

/-- R674, R675: the functions and formats of the compatibility mode. -/
def MicaOp.compatible (o : MicaOp) : Bool :=
  (o.func == 1 || o.func == 2 || o.func == 3 || o.func == 4 || o.func == 5 || o.func == 6 || o.func == 7 ||
    o.func == 0xA || o.func == 0xC) && o.inFmt == 1 && o.outFmt == 1

/-- R676: the operation runs in compatibility mode in a stratum with this default. -/
def MicaOp.compat (o : MicaOp) (dflt : Bool) : Bool := o.sel == 2 || (o.sel == 0 && dflt && o.compatible)

/-- R574: row vectors of a RED code. -/
def vectorsOf (red : Nat) : Nat := if red = 0 then 0 else if red = 3 || red = 5 then 2 else 1

/-- R526, R587: bytes of a row of a drain's output tile. -/
def outRow (wide : Bool) (outFmt : Nat) : Nat := (if wide then 16 else 32) * (fmtBits outFmt / 8)

/-- R592: the entry's micro-operations at an offset of a package. -/
def uopsAt (pkg : List Byte) (o n : Nat) : List Uop :=
  (List.range n).map fun (i : Nat) => BitVec.ofNat 128 (fieldNat pkg (o + 16 * i) 16)

end Sys2Proof.Machine
end

