-- ==== Sys2Proof/Machine/Units.lean ====
section
/-!
DEFINITION. Units which fail, are fenced or return (03, 15, 17, 23): the cost of each type of unit, spare
clusters, restoration, and the mapping records in flash.
-/

namespace Sys2Proof.Machine

/-! ### Units by name (R429) -/

/-- A unit of R125. -/
inductive Unit_ where
  | cluster (c : PhysNo)
  | bank (b : BankNo)
  | slate (e : EngNo)
  | copy (e : EngNo)
  | port (p : PortNo)
  | lane (l : LaneNo)
  | ext (c : ExtNo)
  | ctrl (c : Fin 2)
  | seg (k : Fin 8)
  deriving DecidableEq, Repr

/-- R429: the unit which an identifier names. -/
def unitOf (w : W16) : Option Unit_ :=
  let i := w.toNat % 256
  match w.toNat / 256 with
  | 1 => if h : i < 72 then some (.cluster ⟨i, h⟩) else none
  | 2 => if h : i < 64 then some (.bank ⟨i, h⟩) else none
  | 3 => if h : i < 4 then some (.slate ⟨i, h⟩) else none
  | 4 => if h : i < 4 then some (.copy ⟨i, h⟩) else none
  | 5 => if h : i < 8 then some (.port ⟨i, h⟩) else none
  | 6 => if h : i < 32 then some (.lane ⟨i, h⟩) else none
  | 7 => if h : i < 8 then some (.ext ⟨i, h⟩) else none
  | 8 => if h : i < 2 then some (.ctrl ⟨i, h⟩) else none
  | 9 => if h : i < 8 then some (.seg ⟨i, h⟩) else none
  | _ => none

/-- R429: the identifier of a unit. -/
def Unit_.code : Unit_ → W16
  | .cluster c => unitId 1 c.val
  | .bank b => unitId 2 b.val
  | .slate e => unitId 3 e.val
  | .copy e => unitId 4 e.val
  | .port p => unitId 5 p.val
  | .lane l => unitId 6 l.val
  | .ext c => unitId 7 c.val
  | .ctrl c => unitId 8 c.val
  | .seg k => unitId 9 k.val

/-- What the state holds of a unit. -/
def State.unitSt (s : State) : Unit_ → UnitSt
  | .cluster c => s.units.clusters[c]
  | .bank b => s.units.banks[b]
  | .slate e => s.units.slates[e]
  | .copy e => s.units.copies[e]
  | .port p => s.units.ports[p]
  | .lane l => s.units.lanes[l]
  | .ext c => s.units.exts[c]
  | .ctrl c => s.units.ctrls[c]
  | .seg k => s.units.segs[k]

/-- The state with one unit changed. -/
def State.modUnit (s : State) (u : Unit_) (f : UnitSt → UnitSt) : State :=
  let w := s.units
  { s with units := match u with
    | .cluster c => { w with clusters := vmod w.clusters c f }
    | .bank b => { w with banks := vmod w.banks b f }
    | .slate e => { w with slates := vmod w.slates e f }
    | .copy e => { w with copies := vmod w.copies e f }
    | .port p => { w with ports := vmod w.ports p f }
    | .lane l => { w with lanes := vmod w.lanes l f }
    | .ext c => { w with exts := vmod w.exts c f }
    | .ctrl c => { w with ctrls := vmod w.ctrls c f }
    | .seg k => { w with segs := vmod w.segs k f } }

/-! ### The mapping (R167, R1016, R1021) -/

/-- The logical cluster which a physical cluster carries. -/
def State.logicalOf (s : State) (c : PhysNo) : Option LogNo := (List.finRange 64).find? fun l => s.mapping[l] == some c

/-- The stratum which holds a logical cluster (R312). -/
def State.holder (s : State) (l : LogNo) : FnNo :=
  ((List.finRange 16).find? fun n => n.val != 0 && s.strata[n].clusters.getLsbD l.val).getD 0

/-- The mark of retired units of a SYSTEM record (R1049). (Log entry 53 DEDUCED.) -/
def State.retiredUnits (s : State) : List W16 :=
  ((List.range 0xA00).filterMap fun w => unitOf (BitVec.ofNat 16 w)).filterMap fun u =>
    if (s.unitSt u).retired then some u.code else none

/-- R167, R1021, R1047, R1049: a SYSTEM record is written, or held for the supply gate. Before MAPPING has ended
there is no mapping to record: MAPPING then records what holds. (Log entry 79 DEDUCED.) -/
def State.recordSystem (s : State) : State :=
  if !(s.boot.phase == phReady || s.boot.phase == phScrub || s.boot.phase == phFailed) then s
  else if s.gate then
    let r : SysRec := { seq := s.nv.nextSystem, mapping := s.mapping, retired := s.retiredUnits, phaseEnd := s.boot.phaseEnd }
    let next := (s.nv.nextSystem / 16 + 1) % 64
    let kept := if s.nv.nextSystem % 16 = 0 then s.nv.system.filter fun x => x.seq / 16 % 64 ≠ next else s.nv.system
    { s with nv := { s.nv with system := kept ++ [r], nextSystem := s.nv.nextSystem + 1, systemHeld := false } }
  else { s with nv := { s.nv with systemHeld := true } }

/-- Rows between two physical clusters' rows. -/
def rowGap (a b : Nat) : Nat := (a - b) + (b - a)

/-- R1016: the spare for a logical cluster. -/
def State.spareFor (s : State) (l : LogNo) : Option PhysNo :=
  let r := s.lastPhys[l].val / 9
  let set := s.spareSet
  match set.find? fun c => c.val == 9 * r + 8 with
  | some c => some c
  | none => set.foldl (fun best c =>
      match best with
      | none => some c
      | some b => if rowGap (c.val / 9) r < rowGap (b.val / 9) r then some c else some b) none

/-- A logical cluster is carried by a physical one from now on; what the latter held reads zero (R489). -/
def State.mapTo (s : State) (l : LogNo) (c : PhysNo) : State :=
  let t := s.zeroCluster c
  { t with mapping := vmod t.mapping l fun _ => some c, lastPhys := vmod t.lastPhys l fun _ => c }

/-- The holding stratum of a logical cluster, and stratum 0. -/
def State.holderAnd0 (s : State) (l : LogNo) : List FnNo :=
  (List.finRange 16).filter fun n => n.val == 0 || (n == s.holder l && s.liveStrata.contains n)

/-! ### Replacement and unmapping (R1017 to R1023) -/

/-- R1027 to R1030: a channel-frame which the loss of a unit ends is queued for retry, or ends with
ST_FRAME_ABORTED. Answers whether it is retried. -/
def State.endOrRetry (s : State) (r : Run) : State × Bool :=
  match s.frame r.chan r.seq.toNat with
  | none => (s.endRun r.chan r.seq.toNat, false)
  | some f =>
    match f.stage with
    | .running tick =>
      if f.retry && !f.retried then
        let t := (s.endRun r.chan r.seq.toNat).modFrame r.chan r.seq.toNat fun x =>
          { x with stage := .ready tick, retried := true, sigs := [] }
        (t.count r.stratum 4 1, true)
      else ((s.endRun r.chan r.seq.toNat).abortFrame r.chan r.seq.toNat, false)
    | _ => (s.endRun r.chan r.seq.toNat, false)

/-- R1017: the channel-frames in flight on replicas which include a logical cluster end. Answers how many ended
and how many are queued for retry. -/
def State.endRunsAt (s : State) (l : LogNo) : State × Nat × Nat :=
  (s.runs.filter fun r => r.positions.any fun p => p.cluster == l).foldl (fun a r =>
    let e := a.1.endOrRetry r
    (e.1, if e.2 then (a.2.1, a.2.2 + 1) else (a.2.1 + 1, a.2.2))) (s, 0, 0)

/-- R438: CLUSTER_REMAPs which name a physical cluster end. (Log entry 75 DEDUCED.) -/
def State.endRemaps (s : State) (c : PhysNo) : State :=
  s.forEach (s.remaps.filter fun x => x.2.2 == c || s.mapping[x.2.1] == some c) fun x t =>
    ({ t with remaps := t.remaps.filter fun y => y.1 != x.1 }).complete x.1 stTargetReset 0 0 0
      (dataTargetReset (unitId 1 c.val) 1)

/-- R1017: a cluster has failed or is fenced. (Log entry 74 DEDUCED.) -/
def State.loseCluster (s : State) (c : PhysNo) : State :=
  let s := s.endRemaps c
  match s.logicalOf c with
  | none => s
  | some l =>
    if s.toReplace.any fun x => x.1 == l then s
    else
      let r := s.endRunsAt l
      { r.1 with toReplace := r.1.toReplace ++ [(l, c, r.2.1, r.2.2)] }

/-- R1022: a program of a stratum has no variant which fits. -/
def State.unfitted (s : State) (n : FnNo) : Bool :=
  s.progs.any fun p => p.stratum == n && p.loading.isNone && p.variant.isNone

/-- R1016 to R1023: the oldest logical cluster whose carrier was lost is mapped to a spare, or becomes
unmapped. (Log entry 74 DEDUCED.) -/
def replaceOne (s : State) : State :=
  match s.toReplace with
  | [] => s
  | x :: rest =>
    let l := x.1
    let s : State := { s with toReplace := rest }
    let h := s.holder l
    match s.spareFor l with
    | some c =>
      let t := s.mapTo l c
      let r := t.fault 3 1 (unitId 1 x.2.1.val) (strataMask [h]) 3 (BitVec.ofNat 8 l.val) (unitId 1 c.val) 0
      (r.1.occurAll (r.1.holderAnd0 l) 0xA001
        (BitVec.ofNat 64 (l.val + 2 ^ 8 * x.2.1.val + 2 ^ 16 * c.val + 2 ^ 24 * r.1.spareSet.length))
        (BitVec.ofNat 64 (x.2.2.1 + 2 ^ 32 * x.2.2.2))).recordSystem
    | none =>
      let t : State := { s with mapping := vmod s.mapping l fun _ => none }
      let r := t.fault 3 2 (unitId 1 x.2.1.val) (strataMask [h]) 4 (BitVec.ofNat 8 l.val) 0xFFFF 0
      let t := r.1.clustersChanged h
      (t.occurAll (t.holderAnd0 l) 0xA002 (BitVec.ofNat 64 (l.val + 2 ^ 8 * (t.clustersOf h).length))
        (if t.unfitted h then 1 else 0)).recordSystem

/-- R1018: SPARE_REPLACEMENT. -/
def execSpareReplacement (s : State) : Host.Outcome State Fault Refusal := .next (replaceOne s)

/-! ### Restoration (R1025, R1026) -/

/-- An unmapped logical cluster takes its spare. -/
def State.restoreAt (s : State) (l : LogNo) : State :=
  match s.spareFor l with
  | none => s
  | some c =>
    let h := s.holder l
    let t := s.mapTo l c
    let r := t.fault 3 3 (unitId 1 c.val) (strataMask [h]) 0 (BitVec.ofNat 8 l.val) (unitId 1 c.val) 0
    let t := r.1.occurAll (r.1.holderAnd0 l) 0xA003
      (BitVec.ofNat 64 (l.val + 2 ^ 8 * (r.1.clustersOf h).length + 2 ^ 16 * c.val)) 0
    (t.clustersChanged h).recordSystem

/-- The lowest-numbered unmapped logical cluster whose holder satisfies a test. -/
def State.unmapped (s : State) (ok : FnNo → Bool) : Option LogNo :=
  (List.finRange 64).find? fun l => (s.mapping[l]).isNone && ok (s.holder l)

/-- R1025: while the spare set is not empty, the unmapped clusters of a stratum are restored. -/
def State.restoreFor (n : FnNo) : Nat → State → State
  | 0, s => s
  | k + 1, s =>
    match s.unmapped fun h => h == n with
    | some l => if s.spareSet.isEmpty then s else (s.restoreAt l).restoreFor n k
    | none => s

/-- R1025: the lowest-numbered unmapped logical cluster is restored, when no program of its stratum is
launched. The clusters run once start-up has reached READY (R147). (Log entry 74 DEDUCED.) -/
def restoreNext (s : State) : State :=
  if s.boot.phase != phReady then s
  else
  match s.unmapped fun n => !s.progs.any fun p => p.stratum == n && p.launch.isSome with
  | some l => s.restoreAt l
  | none => s

/-- R1025: RESTORATION. -/
def execRestoration (s : State) : Host.Outcome State Fault Refusal := .next (restoreNext s)

/-! ### Geode banks (R713 to R719, R1139) -/

/-- The granule lies in the bank. -/
def inBank (b : BankNo) (g : Nat) : Bool := g / 512 == b.val

/-- R1139: the context and the sets of a channel are lost; `replaced` says whether its space was replaced. -/
def State.contextLost (s : State) (c : Nat) (replaced : Bool) : State :=
  match s.chan c with
  | none => s
  | some x =>
    (s.modChan c fun y => { y with slate := { y.slate with
      image := [], sets := Vector.replicate 16 [], inForce := none, lostSpace := y.slate.lostSpace || !replaced } }).slateNote x
      0x5004 (if replaced then 0 else 1) 0

/-- R1139: one SYSTEM granule of a retired bank is replaced. Answers the owners of its parts and whether it was. -/
def State.replaceSystem (s : State) (g : Nat) (a b : Option Nat) : State × List Nat × Bool :=
  let owners := a.toList ++ b.toList
  let tile := owners.contains lockOwner
  let s : State := { s with geo := { s.geo with marks := spDel s.geo.marks g } }
  match s.placeAfter s.geo.lastSystem with
  | some k =>
    let t := s.markGranule k (.system a b)
    let t : State := { t with geo := { t.geo with lastSystem := k / 512 } }
    let t := if tile then t.modLock fun l => { l with
        granules := l.granules.map fun x => if x = g then k else x, logs := [] } else t
    (t, owners, true)
  | none =>
    let t := if tile then s.modLock fun l => { l with granules := l.granules.filter (· ≠ g), logs := [] } else s
    (t, owners, false)

/-- R1139: the SYSTEM granules of a retired bank. -/
def State.loseSystem (s : State) (b : BankNo) : State :=
  let lost := s.geo.marks.filterMap fun m =>
    match m.2 with
    | .system x y => if inBank b m.1 then some (m.1, x, y) else none
    | _ => none
  let r := lost.foldl (fun (acc : State × List (Nat × Bool)) m =>
    let e := acc.1.replaceSystem m.1 m.2.1 m.2.2
    (e.1, acc.2 ++ e.2.1.map fun o => (o, e.2.2))) (s, [])
  let owners := (r.2.map (·.1)).eraseDups.filter fun o => decide (o < lockOwner)
  r.1.forEach owners fun c t => t.contextLost c (r.2.all fun e => e.1 != c || e.2)

/-- R713: the parts of one allocation in a retired bank are replaced or marked LOST. Answers the allocation's
parts, how many were replaced and lost, and the offset of the first one. -/
def State.replaceParts (b : BankNo) (n : FnNo) :
    State → List (Option Nat) → State × List (Option Nat) × Nat × Nat
  | s, [] => (s, [], 0, 0)
  | s, o :: r =>
    match o with
    | some g =>
      if inBank b g then
        let s : State := { s with geo := { s.geo with marks := spDel s.geo.marks g } }
        match s.placeAfter s.strata[n].lastBank with
        | some k =>
          let t := (s.markGranule k (.arena n)).modStratum n fun x => { x with lastBank := k / 512 }
          let e := State.replaceParts b n t r
          (e.1, some k :: e.2.1, e.2.2.1 + 1, e.2.2.2)
        | none =>
          let e := State.replaceParts b n s r
          (e.1, none :: e.2.1, e.2.2.1, e.2.2.2 + 1)
      else
        let e := State.replaceParts b n s r
        (e.1, o :: e.2.1, e.2.2.1, e.2.2.2)
    | none =>
      let e := State.replaceParts b n s r
      (e.1, o :: e.2.1, e.2.2.1, e.2.2.2)

/-- R713, R719: the arena of one stratum. -/
def State.loseArena (s : State) (b : BankNo) (n : FnNo) : State :=
  let first := s.strata[n].arena.findSome? fun a =>
    (a.parts.findIdx? fun o => match o with | some g => inBank b g | none => false).map fun i => a.base + i * granuleBytes
  match first with
  | none => s
  | some va =>
    let r := s.strata[n].arena.foldl (fun (acc : State × List Alloc × Nat × Nat) a =>
      let e := State.replaceParts b n acc.1 a.parts
      (e.1, acc.2.1 ++ [{ a with parts := e.2.1 }], acc.2.2.1 + e.2.2.1, acc.2.2.2 + e.2.2.2)) (s, [], 0, 0)
    let arena := r.2.1
    let t := r.1.modStratum n fun x => { x with arena }
    if t.liveStrata.contains n then
      t.occur n 0x2000 (BitVec.ofNat 64 va) (BitVec.ofNat 64 (r.2.2.1 + 2 ^ 32 * r.2.2.2))
    else t

/-- R717: the frame or the wide copy which lay in a lost buffer is dropped. -/
def State.loseHolder (s : State) (b : Buf) : State :=
  if b.copy then
    (s.releaseFrame b.chan b.frame true).modChan b.chan fun x => { x with q := { x.q with
      copies := x.q.copies.filter fun y => y.msgSeq.toNat ≠ b.frame } }
  else
    match s.frame b.chan b.frame with
    | none => s
    | some f =>
      if f.stage == .opened then s.dropOpen b.chan
      else if f.unresolved then
        let t := (s.endRun b.chan b.frame).countDrop b.chan
        t.abortFrame b.chan b.frame
      else s.dropFrame b.chan b.frame

/-- R716, R1032: pool granules which were lost are replaced as far as FREE granules allow. -/
def State.refillPool (s : State) : List Nat → State
  | [] => s
  | i :: r =>
    match s.placeAfter s.geo.lastPool with
    | none => s
    | some g =>
      let t := s.markGranule g .pool
      let u : State := { t with geo := { t.geo with poolGranules := t.geo.poolGranules.set i (some g), lastPool := g / 512 } }
      u.refillPool r

/-- The places of the pool which hold no granule. -/
def State.poolGaps (s : State) : List Nat :=
  (List.range s.geo.poolGranules.length).filter fun i => ((s.geo.poolGranules[i]?).join).isNone

/-- R716 to R718: the pool granules of a retired bank. -/
def State.losePool (s : State) (b : BankNo) : State :=
  let size := s.poolSize
  let gone := (List.range s.geo.poolGranules.length).filter fun i =>
    match (s.geo.poolGranules[i]?).join with | some g => inBank b g | none => false
  let inGone := fun (x : Buf) => gone.contains (x.num / 4)
  let t := s.forEach (s.geo.bufs.filter fun x => inGone x && (x.state == .filling || x.state == .held)) fun x u =>
    u.loseHolder x
  let lose := fun (o : Option Nat) => match o with | some g => if inBank b g then none else some g | none => none
  let keep := t.geo.marks.filter fun m => !(inBank b m.1 && m.2 == .pool)
  let t : State := { t with geo := { t.geo with
    bufs := t.geo.bufs.filter fun x => !inGone x
    poolGranules := t.geo.poolGranules.map lose, marks := keep } }
  let t := t.refillPool gone
  let t := if t.poolSize < size then
      t.occur 0 0x2001 (BitVec.ofNat 64 (size - t.poolSize)) (BitVec.ofNat 64 t.poolSize) else t
  (t.reclaimAll s).settlePool

/-- R713 to R719, R1139: what the retirement of a bank costs. -/
def State.loseBank (s : State) (b : BankNo) : State :=
  let t : State := { s with geo := { s.geo with mem := memClear s.geo.mem (b.val * 512 * granuleBytes) (512 * granuleBytes) } }
  let t := t.loseSystem b
  let t := t.forEach (List.finRange 16) fun n u => u.loseArena b n
  t.losePool b

/-! ### Slate and copy engines (R727, R741, R931) -/

/-- R890, R931: the channels of a fenced Slate engine are placed elsewhere. -/
def State.moveContexts (s : State) (e : EngNo) : State :=
  s.forEach (s.chans.filter fun x => x.slate.engine == some e) fun x t =>
    let k := t.placeEngine
    let move := fun (f : Frame) => if f.chan = x.num ∧ f.engine = some e then { f with engine := k } else f
    let u : State := { t with frames := t.frames.map move }
    let u := u.modChan x.num fun y => { y with slate := { y.slate with engine := k } }
    match k with
    | some n => u.slateNote x 0x5003 (e.val + 2 ^ 8 * n.val) 0
    | none => u

/-- R931: the pieces which a fenced engine has taken end, and their frames are dropped. Answers how many ended. -/
def State.endPieceOn (s : State) (e : EngNo) : State × Nat :=
  let ps := s.pieces[e]
  let t : State := { s with pieces := s.pieces.set e.val [] e.isLt, loaded := s.loaded.set e.val none e.isLt }
  (t.forEach ps fun p u =>
    match u.frame p.chan p.seq with
    | none => u
    | some f => (if f.stage == .opened then u.dropOpen p.chan else u.dropFrame p.chan p.seq).settlePool.endUnbinds,
    ps.length)

/-! ### Requests which a CUT ends (R129, R135, R370, R742) -/

/-- The started jobs of a list which have a request open at a unit end with it. Answers how many. Which have one is not in
the state. (Log entry 69 DESIGN CHOICE.) -/
def State.cutJobs (s : State) (unit : W16) (js : List CopyJob) : State × Nat :=
  (js.filter CopyJob.started).foldl (fun a j =>
    let d := a.1.draw
    if Config.requestOpen d.1 then (d.2.cutJob j unit, a.2 + 1) else (d.2, a.2)) (s, 0)

/-- The view addresses of a job's side which lies in the stratum's memory, from the lowest to the highest. -/
def CopyJob.sides (j : CopyJob) : List (Nat × Nat) :=
  (if j.srcHost || j.kind == .fill then [] else [(j.src, j.srcTop)]) ++
  (if j.dstHost || j.kind == .checksum then [] else [(j.dst, j.dstTop)])

/-- The job has a side in a Geode bank. -/
def State.usesBank (s : State) (b : BankNo) (j : CopyJob) : Bool :=
  s.strata[j.stratum].arena.any fun a => (List.range a.parts.length).any fun i =>
    match (a.parts[i]?).join with
    | some g => inBank b g && j.sides.any fun x =>
        decide (x.1 < a.base + (i + 1) * granuleBytes) && decide (a.base + i * granuleBytes ≤ x.2)
    | none => false

/-- A position waits for a transfer over the network: an SLOAD, GET, PUT, HSEND or HRECV in flight. -/
def Run.crosses (r : Run) : Bool :=
  r.positions.any fun p => p.flights.any fun f => !f.done && queueOf (opcOf ((p.code[f.idx]?).getD 0)) == 1

/-! ### External memory (R771 to R775) -/

/-- The job touches external memory. -/
def CopyJob.usesExt (j : CopyJob) : Bool := j.sides.any fun x => decide (extViewBase ≤ x.2)

/-- R771 step 1: started jobs which use external memory end. -/
def State.endExtJobs (s : State) (unit : W16) : State :=
  s.forEach (s.copies.filter fun j => j.started && j.usesExt) fun j t => t.cutJob j unit

/-- R771 step 4: the pages of a list of allocations are placed again from page `k` on. Answers the next page. -/
def placeAgain (pages k : Nat) : List Alloc → List Alloc × Nat
  | [] => ([], k)
  | a :: r =>
    let parts := (List.range a.parts.length).map fun i => if k + i < pages then some (k + i) else none
    let rest := placeAgain pages (k + a.parts.length) r
    ({ a with parts } :: rest.1, rest.2)

/-- R771 step 4, R772: every page of every stratum is placed again, with undefined contents. -/
def State.placeExt (s : State) : State :=
  let pages := s.dataPages
  ((List.finRange 16).foldl (fun (acc : State × Nat) n =>
    let d := acc.1.draw
    let r := placeAgain pages acc.2 (d.2.strata[n].ext.map fun a => { a with gen := d.1 })
    (d.2.modStratum n fun x => { x with ext := r.1 }, r.2)) (s, 0)).1

/-- R771 to R774: channels leave the interleave order. -/
def State.loseExt (s : State) (cs : List ExtNo) : State :=
  if !s.ext.order.any fun c => cs.contains c then s
  else
    let unit := unitId 7 (cs.head?.getD 0).val
    let t := s.endExtJobs unit
    let t : State := { t with ext := { t.ext with
      mem := [], poisoned := [], reinit := true, order := t.ext.order.filter fun c => !cs.contains c } }
    t.placeExt.lapse 4 unit t.isolatedStrata

/-- R771 step 5, R774: the channels return to service, and the lapses of retired ones end. -/
def extReady (s : State) : State :=
  if !s.ext.reinit then s
  else
    let t : State := { s with ext := { s.ext with reinit := false } }
    let held := fun (w : W16) => s.boot.pllOut.any fun x => x.2.contains w
    t.forEach ((t.slots.lapses.filter fun x => x.cause == 4 && x.unit.toNat / 256 == 7 && !held x.unit).map (·.unit)).eraseDups
      fun u v => v.lapseEnds 4 u

/-- R771: EXT_REINIT_COMPLETE. -/
def execExtReinitComplete (s : State) : Host.Outcome State Fault Refusal := .next (extReady s)

/-! ### Fences (R127, R1010 to R1013) -/

/-- The strata which lose something with a unit. (Log entry 72 DEDUCED.) -/
def State.losers (s : State) (u : Unit_) : List FnNo :=
  let holderOf := fun (c : PhysNo) => (s.logicalOf c).map s.holder
  match u with
  | .cluster c => (holderOf c).toList
  | .bank b => (List.finRange 16).filter fun n =>
      (s.strata[n].arena.any fun a => a.parts.any fun o => match o with | some g => inBank b g | none => false) ||
      s.geo.bufs.any fun x => inBank b (((s.geo.poolGranules[x.num / 4]?).join).getD 0) && x.allotted &&
        (match s.chan x.chan with | some c => c.stratum == n | none => false)
  | .slate e => ((s.chans.filter fun x => x.slate.engine == some e).map (·.stratum)).eraseDups
  | .copy e => ((s.copies.filter fun j => j.engine == e).map (·.stratum)).eraseDups
  | .port p => s.portStrata p
  | .lane l => s.portStrata (portOf l)
  | .ext _ => (List.finRange 16).filter fun n => !s.strata[n].ext.isEmpty
  | .ctrl _ => (List.finRange 16).filter fun n => !s.strata[n].ext.isEmpty
  | .seg k => (((List.finRange 72).filter fun c => c.val / 9 == k.val).filterMap holderOf).eraseDups

/-- What ends as a unit's FENCE begins: the channel-frames on a cluster (R1017), and the placement of contexts and
deliveries on an engine (R931, R727). (Log entry 68 DEDUCED.) -/
def State.fenceStep (s : State) : Unit_ → State
  | .cluster c => s.loseCluster c
  | .slate e => s.moveContexts e
  | .seg k => s.forEach ((List.finRange 72).filter fun c => c.val / 9 == k.val) fun c t =>
      (t.modUnit (.cluster c) fun x => { x with fenced := true, retired := true, passed := false }).loseCluster c
  | _ => s

/-- The UNIT which TIMING_LAPSE of cause 0x04 names for a shared unit (R511, R774, R775), `none` for a unit which
is not shared. (Log entry 71 DEDUCED.) -/
def lapseUnit : Unit_ → Option W16
  | .cluster _ => none
  | .lane _ => none
  | .ctrl k => some (unitId 7 (4 * k.val))
  | u => some u.code

/-- R510, R511: the ISOLATED strata which the fence of a shared unit affects. (Log entry 71 DEDUCED.) -/
def State.lapsed (s : State) (u : Unit_) : List FnNo :=
  match u with
  | .port p => s.isolatedStrata.filter (s.portStrata p).contains
  | _ => s.isolatedStrata

/-- R511: the lapse of a fence ends with its CUT, or with the reconfiguration of external memory (R771).
(Log entry 71 DEDUCED.) -/
def State.fenceLapseEnds (s : State) (u : Unit_) : State :=
  match u, lapseUnit u with
  | .ext _, some w => if s.ext.reinit then s else s.lapseEnds 4 w
  | .ctrl _, some w => if s.ext.reinit then s else s.lapseEnds 4 w
  | _, some w => s.lapseEnds 4 w
  | _, none => s

/-- A lane which is not in use leaves its port; the port's last lane in service disables it (R801).
(Log entry 70 DEDUCED.) -/
def State.laneLost (s : State) (l : LaneNo) : State :=
  let p := portOf l
  let t := s.modPort p fun q => { q with lanes := q.lanes &&& ~~~laneBit l }
  let q := t.ports[p]
  let gone := match q.st with
    | .disabled => false
    | .detect => (t.training p).isEmpty
    | .equalize => (t.training p).isEmpty
    | .align => (t.training p).isEmpty
    | _ => q.lanes == 0
  if gone then t.toDisabled p 0x0B else t

/-- R135, R1027: the requests which cross a network segment end: those of copy jobs, and those of channel-frames, which are
retried or end. (Log entry 69 DESIGN CHOICE.) -/
def State.cutSegment (s : State) (unit : W16) : State × Nat :=
  let j := s.cutJobs unit s.copies
  (j.1.runs.filter Run.crosses).foldl (fun a r =>
    let d := a.1.draw
    if Config.requestOpen d.1 then ((d.2.endOrRetry r).1, a.2 + 1) else (d.2, a.2)) j

/-- R127, R129: what the CUT of a unit costs those whose requests it ends. Answers how many jobs, pieces and channel-frames
those are. (Log entries 69 DESIGN CHOICE, 72 DEDUCED.) -/
def State.endRequests (s : State) : Unit_ → State × Nat
  | .slate e => s.endPieceOn e
  | .copy e => let r := s.endJobsOn e (unitId 4 e.val); (r.1.moveDeliveries e, r.2)
  | .bank b => s.cutJobs (unitId 2 b.val) (s.copies.filter (s.usesBank b))
  | .ext c => s.cutJobs (unitId 7 c.val) (s.copies.filter CopyJob.usesExt)
  | .ctrl k => s.cutJobs (unitId 7 (4 * k.val)) (s.copies.filter CopyJob.usesExt)
  | .seg k => s.cutSegment (unitId 9 k.val)
  | _ => (s, 0)

/-- The lasting cost of a unit's CUT (R1013). -/
def State.cutCost (s : State) : Unit_ → State
  | .bank b => s.loseBank b
  | .port p => if s.ports[p].st == .disabled then s else s.toDisabled p 0x0B
  | .ext c => s.loseExt [c]
  | .ctrl k =>
    let cs : List ExtNo := (List.finRange 8).filter fun c => c.val / 4 == k.val
    (s.forEach cs fun c t => t.modUnit (.ext c) fun x =>
      { x with fenced := true, retired := true, passed := false, withCtrl := !x.retired }).loseExt cs
  | .lane l => s.laneLost l
  | _ => s

/-- R127, R129, R431: what ends at a unit's CUT. Answers how many requests it completed with ST_TARGET_RESET: the ones which
the model holds for an engine, none for a lane and after a DRAIN which emptied the tracking table, and else a free number
of single requests which the state does not hold, beside the work they belonged to. (Log entry 69 DESIGN CHOICE.) -/
def State.cutEffects (s : State) (u : Unit_) (emptied : Bool) : State × W64 :=
  if emptied then ((match u with | .copy e => s.moveDeliveries e | _ => s).cutCost u, 0)
  else
    let r := s.endRequests u
    match u with
    | .slate _ => (r.1.cutCost u, BitVec.ofNat 64 r.2)
    | .copy _ => (r.1.cutCost u, BitVec.ofNat 64 r.2)
    | .lane _ => (r.1.cutCost u, 0)
    | _ => let d := r.1.draw; (d.2.cutCost u, BitVec.ofNat 64 r.2 + Config.openRequests d.1)

/-- R127, R134: the CUT of a unit; the unit is then reset, and the epoch of its own requests rises.
(Log entry 68 DEDUCED.) -/
def State.cutStep (s : State) (u : Unit_) (emptied : Bool) : State × W64 :=
  let r := s.cutEffects u emptied
  ((r.1.modUnit u fun x => { x with own := x.own + 1 }).fenceLapseEnds u, r.2)

/-- R1010, R1012: fencing the unit retires it: by a fault, every unit but a Poica lane; by UNIT_FENCE, a bank, an
LPDDR5X channel or controller, or a segment. -/
def retiresOnFault : Unit_ → Bool
  | .lane _ => false
  | _ => true
def retiresOnFence : Unit_ → Bool
  | .bank _ => true | .ext _ => true | .ctrl _ => true | .seg _ => true | _ => false

/-- The logical cluster which a fault record of a unit names, 0xFF for none (R1035). -/
def State.logicalByte (s : State) : Unit_ → BitVec 8
  | .cluster c => match s.logicalOf c with | some l => BitVec.ofNat 8 l.val | none => 0xFF
  | _ => 0xFF

/-- R1010, R1012, R1043: the unit is fenced, and retired or not, with its fault record and UNIT_FAILED. -/
def State.fenceUnit (s : State) (u : Unit_) (cause : BitVec 8) (retire : Bool) (detail : BitVec 224) : State :=
  let strata := s.losers u
  let action : BitVec 8 := if retire then 2 else 1
  let r := s.fault 1 cause u.code (strataMask strata) action (s.logicalByte u) 0xFFFF detail
  let t := (r.1.unitFailed u.code cause action strata r.2).modUnit u fun x =>
    { x with fenced := true, retired := x.retired || retire, passed := false }
  let t := match lapseUnit u with
    | some w => t.lapse 4 w (t.lapsed u)
    | none => t
  (if retire then t.recordSystem else t).fenceStep u

/-- R1010: a unit fault: an immediate fence, CUT, and retirement. -/
def State.failUnit (s : State) (u : Unit_) (cause : BitVec 8) (detail : BitVec 224) : State :=
  match u with
  | .lane l =>
    if s.ports[portOf l].st == .active && s.ports[portOf l].inUse &&& laneBit l != 0 then s.laneFailBy l cause
    else if s.units.lanes[l].fenced then s
    else ((s.fenceUnit u cause false detail).cutStep u false).1
  | _ =>
    if (s.unitSt u).retired then s
    else if (s.unitSt u).fenced && (s.unitSt u).draining.isNone then
      (s.modUnit u fun x => { x with retired := true }).recordSystem
    else
      let c := (s.fenceUnit u cause (retiresOnFault u) detail).cutStep u false
      match (s.unitSt u).draining with
      | some d => (c.1.modUnit u fun x => { x with draining := none }).completeOk d.1 c.2 0
      | none => c.1

/-- R1032, R435, R834, R776: a unit returns to service. (Log entries 72 DEDUCED, 78 DEDUCED.) -/
def State.returnUnit (s : State) (u : Unit_) : State :=
  let t := s.modUnit u fun x => { x with
    fenced := false, retired := false, passed := false, withCtrl := false, epoch := x.epoch + 1 }
  match u with
  | .cluster c => t.zeroCluster c
  | .lane l =>
    if t.ports[portOf l].st == .active then t.modPort (portOf l) fun q => { q with lanes := q.lanes ||| laneBit l } else t
  | .port p => t.modPort p fun q => { q with st := .disabled, reason := 1 }
  | .bank _ => (t.refillPool t.poolGaps).settlePool
  | .ctrl k => t.forEach ((List.finRange 8).filter fun c => c.val / 4 == k.val && t.units.exts[c].withCtrl) fun c t =>
      t.modUnit (.ext c) fun x => { x with
        fenced := false, retired := false, passed := false, withCtrl := false, epoch := x.epoch + 1 }
  | _ => t

/-- R434, R1043: the record, the SYSTEM record and UNIT_RETURNED of a unit which UNIT_RETURN returns.
(Log entry 78 DEDUCED.) -/
def State.noteReturn (s : State) (u : Unit_) : State :=
  let r := s.recordSystem.fault 3 4 u.code 0 5 0xFF 0xFFFF 0
  r.1.occur 0 0xA006 (u.code.setWidth 64) 0

end Sys2Proof.Machine
end

