-- ==== Sys2Proof/Machine/Ext.lean ====
section
/-!
DEFINITION. Error correction of Geode and of external memory (15, 17), poisoning, patrol, tracking and refresh.
-/

namespace Sys2Proof.Machine

/-! ### Codewords (R748, R749) -/

/-- Codewords of a channel: 256 to an ECC block, whose 15 lines hold 3840 bytes. -/
def State.channelWords (s : State) : Nat := (if s.order32 then 3840 else 1920) * pageBytes / 15

/-- R749: the offset among a channel's data bytes of a codeword's first data byte. -/
def wordOffset (k : Nat) : Nat := k / 256 * 3840 + k % 256 * 15

/-- The position of a channel in the interleave order. -/
def State.position (s : State) (c : ExtNo) : Option Nat := s.ext.order.findIdx? fun x => x == c

/-- R748: the data-space offset of a data byte of a channel. -/
def State.spaceOffset (s : State) (c : ExtNo) (b : Nat) : Option Nat :=
  (s.position c).map fun p => (b / 256 * s.ext.order.length + p) * 256 + b % 256

/-- R484: the stratum which holds a page, and the page's view address there. (Log entry 122 DEDUCED.) -/
def State.pageHolder (s : State) (page : Nat) : Option (FnNo × Nat) :=
  (List.finRange 16).findSome? fun n => s.strata[n].ext.findSome? fun a =>
    (a.parts.findIdx? fun x => x == some page).map fun i => (n, a.base + i * pageBytes)

/-! ### Errors (R688, R689, R759 to R764) -/

/-- R1043: MEMORY_POISONED was sent for a channel within the last millisecond. (Log entry 122 DEDUCED.) -/
def State.toldLately (s : State) (c : ExtNo) : Bool :=
  match s.ext.toldAt[c] with
  | some t => decide (s.tick - t < 800000)
  | none => false

/-- R763, R1043: MEMORY_POISONED, at most one per channel per millisecond. (Log entry 122 DEDUCED.) -/
def State.tellPoisoned (s : State) (w : ExtNo × Nat) : State :=
  if s.toldLately w.1 then s
  else
    let unit : W64 := (unitId 7 w.1.val).setWidth 64
    let b := wordOffset w.2
    let t : State := { s with ext := { s.ext with toldAt := vmod s.ext.toldAt w.1 fun _ => some s.tick } }
    let t := t.occur 0 0xA005 unit (BitVec.ofNat 64 b)
    match (s.spaceOffset w.1 b).bind fun o => (s.pageHolder (o / pageBytes)).map fun h => (h.1, h.2 + o % pageBytes) with
    | some h => t.occur h.1 0xA005 unit (BitVec.ofNat 64 h.2)
    | none => t

/-- R764: a channel on which four distinct codewords were poisoned within one second has failed. -/
def State.channelFails (s : State) (c : ExtNo) : Bool :=
  decide (4 ≤ ((s.ext.events.filter fun e => e.1 == c).map (·.2.1)).eraseDups.length)

/-- R760, R763, R764: a codeword is found uncorrectable. -/
def State.poison (s : State) (w : ExtNo × Nat) : State :=
  if s.isPoisoned w then s
  else
    let recent := s.ext.events.filter fun e => decide (s.tick - e.2.2 < 800000000)
    let t : State := { s with
      ext := { s.ext with
        poisoned := s.ext.poisoned ++ [(w.1, w.2, s.tick)], events := recent ++ [(w.1, w.2, s.tick)] }
      telem := { s.telem with poisoned := satAdd s.telem.poisoned 1 } }
    let t := t.tellPoisoned w
    if t.channelFails w.1 then t.failUnit (.ext w.1) 9 0 else t

/-- R759, R760: what error correction found in a codeword which was read. -/
def State.foundWord (s : State) (w : ExtNo × Nat) : Ecc → State
  | .clean => s
  | .corrected => { s with telem := { s.telem with
      extCorrected := vmod s.telem.extCorrected w.1 fun v => satAdd v 1 } }
  | .uncorrectable => s.poison w

/-- R688, R689, R759, R760: what error correction found on the read of a byte of a stratum's view which can be served. -/
def State.foundAt (s : State) (n : FnNo) (a : Nat) (e : Ecc) : State :=
  let l := s.locate n a
  if (s.locError false l).isSome then s
  else
    match l, e with
    | .geode _, .corrected => { s with telem := { s.telem with geodeCorrected := satAdd s.telem.geodeCorrected 1 } }
    | .geode p, .uncorrectable => s.failUnit (.bank (bankOf (p / granuleBytes))) 2 0
    | .ext off _ _, _ => match s.codeword off with | some w => s.foundWord w e | none => s
    | _, _ => s

/-- R689: the read of a byte of a stratum's view ends with ST_TARGET_RESET: its Geode word is uncorrectable. -/
def State.readLost (s : State) (n : FnNo) (a : Nat) (e : Ecc) : Bool :=
  match s.locate n a, e with
  | .geode p, .uncorrectable => (s.locError false (.geode p)).isNone
  | _, _ => false

/-- R688, R689, R742, R759, R760: what error correction found at one of the view addresses which a running copy job reads.
The job ends where its read does. (Log entries 19 DEDUCED, 157 DEDUCED.) -/
def copyFound (e : EngNo) (n : FnNo) (x : Nat × Ecc) (s : State) : State :=
  match s.copies.find? fun j => j.engine == e && j.stratum == n && j.started with
  | none => s
  | some j =>
    if !s.engineServes n (j.srcHost || j.dstHost) || !j.srcNames x.1 (x.1 + 1) then s
    else
      let t := s.foundAt n x.1 x.2
      match s.locate n x.1, t.copies.find? fun k => k.id == j.id && k.started with
      | .geode p, some k => if s.readLost n x.1 x.2 then t.cutJob k (Unit_.bank (bankOf (p / granuleBytes))).code else t
      | _, _ => t

/-- R372: COPY_JOB_COMPLETE. -/
def execCopyJobComplete (engine : EngNo) (stratum : FnNo) (host : List Byte) (outcome : CopyOutcome) (s : State) :
    Host.Outcome State Fault Refusal :=
  .next (finishCopy engine stratum host outcome.fail
    (match outcome.found with | some x => copyFound engine stratum x s | none => s))

/-- R688, R689, R759, R760: what error correction found at one of the view addresses which a running delivery reads. What
then becomes of the raster is not stated: the delivery goes on. (Log entry 160 DESIGN CHOICE.) -/
def deliveryFound (e : EngNo) (n : FnNo) (x : Nat × Ecc) (s : State) : State :=
  match s.deliveries.find? fun d => d.engine == e && d.stratum == n && d.started with
  | none => s
  | some d => if s.engineServes n true && decide (d.src ≤ x.1 ∧ x.1 < d.src + 0x100000) then s.foundAt n x.1 x.2 else s

/-- R912: DELIVERY_JOB_COMPLETE. `found` is what error correction found, and the view address where. -/
def execDeliveryJobComplete (job : EngineJob) (found : Option (Nat × Ecc)) (s : State) : Host.Outcome State Fault Refusal :=
  .next (endDelivery job.engine job.stratum
    (match found with | some x => deliveryFound job.engine job.stratum x s | none => s))

/-- A channel is in service. -/
def State.channelServes (s : State) (c : ExtNo) : Bool :=
  s.powered && !s.ext.reinit && s.units.exts[c].up && (s.position c).isSome

/-- R762: a patrol read of a codeword, in a SHARED slot. -/
def patrolRead (c : ExtNo) (k : Nat) (e : Ecc) (s : State) : State :=
  if s.channelServes c && decide (k < s.channelWords) && (s.slots.table[s.slotPos]).isNone then s.foundWord (c, k) e else s

/-- R762: PATROL_READ. -/
def execPatrolRead (channel : ExtNo) (word : Nat) (found : Ecc) (s : State) : Host.Outcome State Fault Refusal :=
  .next (patrolRead channel word found s)

/-! ### Tracking and refresh (R753 to R757) -/

/-- The first tick from `t` on which leaves the remainder `r` modulo `m`. (Log entry 125 DESIGN CHOICE.) -/
def nextTick (t : Tick) (m r : Nat) : Tick := t + BitVec.ofNat 64 ((r + m - t.toNat % m) % m)

/-- R753, R754, R764: the next tracking instant of a channel; a tracking failure retires it.
(Log entry 125 DESIGN CHOICE.) -/
def track (c : ExtNo) (failure : Bool) (s : State) : State :=
  match s.position c with
  | none => s
  | some p =>
    if !s.channelServes c then s
    else
      let t := s.reach (nextTick s.tick (2 ^ 25) (2 ^ 20 * p))
      if failure then t.failUnit (.ext c) 7 0 else t

/-- R753: TRACKING. -/
def execTracking (channel : ExtNo) (failure : Bool) (s : State) : Host.Outcome State Fault Refusal :=
  .next (track channel failure s)

/-- R757: the next all-bank refresh of a channel while fixed refresh is in force. (Log entry 125 DESIGN CHOICE.) -/
def fixedRefreshAt (c : ExtNo) (s : State) : State :=
  match s.position c with
  | none => s
  | some p => if s.channelServes c && s.ext.fixedRefresh then s.reach (nextTick s.tick 1536 (192 * p)) else s

/-- R757: FIXED_REFRESH. -/
def execFixedRefresh (channel : ExtNo) (s : State) : Host.Outcome State Fault Refusal :=
  .next (fixedRefreshAt channel s)

/-- R756: ADAPTIVE_REFRESH: a refresh changes nothing but the time which accesses take.
(Log entry 125 DESIGN CHOICE.) -/
def execAdaptiveRefresh (_channel : ExtNo) (s : State) : Host.Outcome State Fault Refusal := .next s

end Sys2Proof.Machine
end

