-- ==== Sys2Proof/Machine/HostIf.lean ====
section
/-!
DEFINITION. The host interface (05): BAR0 registers, doorbells, queue enables, event queue, interrupt
registers, and the access rules.
-/

namespace Sys2Proof.Machine

/-- R149: the module is configuration-ready. -/
def State.configReady (s : State) : Bool :=
  s.sup.power == .active && s.boot.linkL0 && !s.boot.inReset && !s.boot.resetPending &&
    !(s.boot.phase == 0 || s.boot.phase == phSupervisorBoot || s.boot.phase == phAonCheck)

/-- R194, R174: the function is presented on the link. -/
def State.present (s : State) (fn : FnNo) : Bool :=
  decide (fn.val = 0) || (s.boot.vfEnable && decide (fn.val ≤ s.boot.numVfs))

/-- R1142: the function answers memory requests to BAR0 and BAR2. -/
def State.barOpen (s : State) (fn : FnNo) : Bool :=
  s.configReady && s.present fn && s.fns[fn].memSpace && !(fn.val = 0 && s.boot.d3hot)

/-- A memory request of the host: it is served only while R1142 lets it be; in D3hot the PF answers
Unsupported Request. (Log entry 3 DESIGN CHOICE.) -/
def hostAccess (fn : FnNo) (f : State → State) (s : State) : State :=
  if s.barOpen fn then f s
  else if s.configReady && s.boot.d3hot && fn.val = 0 then s.emit (.unsupported fn)
  else s

/-! ### Queue pairs -/

/-- R221: a queue error of a queue pair. -/
def qpError (fn : FnNo) (qp : QpNo) (s : State) : State :=
  (s.modQp fn qp fun q => { q with error := true }).raise fn causeQueueErr

/-- R221: a queue error of the event queue. -/
def evqError (fn : FnNo) (s : State) : State :=
  (s.modEvq fn fun q => { q with error := true }).raise fn causeQueueErr

/-- R236, R289, R237: ENABLE of a queue pair is written 0. No further entry is read, its chains end, and
RUNNING clears once the commands already read have their replies. -/
def disableQueue (fn : FnNo) (qp : QpNo) (s : State) : State :=
  let unchain := fun (o : Outst) => if o.fn = fn ∧ o.qp = qp then { o with chain := false } else o
  let t := { s with outst := s.outst.map unchain }
  settleQueue (t.modQp fn qp fun q => { q with
    enable := false, reenable := false, stopping := q.running, chain := false, chainFailed := none }) fn qp

/-- A write of HIF_SQn_SIZE (R210, R213 to R216, R236, R1143). (Log entry 7 DEDUCED.) -/
def writeSqSize (fn : FnNo) (qp : QpNo) (v : W32) (s : State) : State :=
  let q := s.fns[fn].qps[qp]
  let en := v.getLsbD 31
  let t := if q.running then s else s.modQp fn qp fun x => { x with
    cqLog2 := v.extractLsb' 20 4, sqLog2 := v.extractLsb' 16 4 }
  if en then
    let t := t.modQp fn qp fun x => { x with error := false }
    if q.enable then t
    else if q.running then t.modQp fn qp fun x => { x with enable := true, reenable := true }
    else startQueue t fn qp
  else if q.enable then disableQueue fn qp t else t

/-- The 12-bit TAIL or HEAD of a written value (R212). -/
def ringValue (v : W32) : BitVec 12 := v.extractLsb' 0 12

/-- R218, R221: the doorbell of a submission queue. -/
def writeTail (fn : FnNo) (qp : QpNo) (v : W32) (s : State) : State :=
  let q := s.fns[fn].qps[qp]
  if q.running && decide ((ringValue v).toNat < ringSize q.sqLog2) then
    s.modQp fn qp fun x => { x with tail := ringValue v }
  else qpError fn qp s

/-- Entries from one ring index up to the one before another. -/
def ringSpan (size old new : Nat) : Nat := (new + size - old) % size

/-- R221, R225: a write of HIF_CQn_HEAD releases entries. -/
def writeCqHead (fn : FnNo) (qp : QpNo) (v : W32) (s : State) : State :=
  let q := s.fns[fn].qps[qp]
  let h := ringValue v
  let n := ringSpan (ringSize q.cqLog2) q.cqHead.toNat h.toNat
  if q.running && decide (h.toNat < ringSize q.cqLog2) && decide (n ≤ q.cqUnreleased) then
    s.modQp fn qp fun x => { x with cqHead := h, cqUnreleased := x.cqUnreleased - n }
  else qpError fn qp s

/-- R222: a ring read which fails stops the queue pair. -/
def ringError (fn : FnNo) (qp : QpNo) (s : State) : State :=
  if s.fns[fn].qps[qp].running then
    settleQueue ((qpError fn qp s).modQp fn qp fun q => { q with stopping := true }) fn qp
  else s

/-! ### The event queue -/

/-- A write of HIF_EVQ_BASE_LO (R209, R211, R213 to R216, R239). Records held are written once the queue
runs (R235). (Log entries 7 DEDUCED, 8 DESIGN CHOICE.) -/
def writeEvqLo (fn : FnNo) (v : W32) (s : State) : State :=
  let e := s.fns[fn].evq
  let en := v.getLsbD 0
  let t := if e.running then s else s.modEvq fn fun q => { q with
    base := (q.base &&& ~~~0xFFFFFFFF#64) ||| (v &&& 0xFFFFF000).setWidth 64, log2 := v.extractLsb' 4 4 }
  if en then
    if e.enable then t.modEvq fn fun q => { q with error := false }
    else
      let l := t.fns[fn].evq.log2.toNat
      if 4 ≤ l ∧ l ≤ 12 then
        (t.modEvq fn fun q => { q with
          enable := true, running := true, error := false, head := 0, pos := 0, phase := true,
          unreleased := 0, everRan := true }).flushEvq fn
      else (t.modEvq fn fun q => { q with enable := false, error := true }).raise fn causeQueueErr
  else t.modEvq fn fun q => { q with enable := false, running := false }

/-- R221, R225, R235: a write of HIF_EVQ_HEAD. -/
def writeEvqHead (fn : FnNo) (v : W32) (s : State) : State :=
  let e := s.fns[fn].evq
  let h := ringValue v
  let n := ringSpan (ringSize e.log2) e.head.toNat h.toNat
  if e.running && decide (h.toNat < ringSize e.log2) && decide (n ≤ e.unreleased) then
    (s.modEvq fn fun q => { q with head := h, unreleased := q.unreleased - n }).flushEvq fn
  else evqError fn s

/-! ### Register writes -/

/-- The register of a queue pair at a BAR0 offset: the pair and the offset in its block (R195). -/
def qpRegister (off : Nat) : Option (QpNo × Nat) :=
  if 0x40 ≤ off ∧ off < 0xC0 then some (Fin.ofNat 4 ((off - 0x40) / 0x20), (off - 0x40) % 0x20) else none

/-- A 4-byte write into the MSI-X table (R195, R244): entry `k`, word `w`. Unmasking a vector sends what
the pending bit array holds for it. -/
def writeMsix (fn : FnNo) (k : Fin 64) (w : Nat) (v : W32) (s : State) : State :=
  (s.modFn fn fun f => { f with msix := vmod f.msix k fun e =>
    if w = 0 then { e with addr := (e.addr &&& ~~~0xFFFFFFFF#64) ||| v.setWidth 64 }
    else if w = 1 then { e with addr := (e.addr &&& 0xFFFFFFFF#64) ||| (v.setWidth 64 <<< 32) }
    else if w = 2 then { e with data := v }
    else { e with masked := v.getLsbD 0 } }).releaseMsix fn

/-- R83: a write of HIF_SUPPLY_STATUS clears SWITCHED by a 1 in bit 12. -/
def writeSupplyStatus (v : W32) (s : State) : State :=
  if v.getLsbD 12 then { s with sup := { s.sup with switched := false } } else s

/-- A 4-byte write of a BAR0 register (R12, R18, R19, R195, R209, R216). -/
def bar0Write (fn : FnNo) (off : Nat) (v : W32) (s : State) : State :=
  if off = 0x10 then s.setCause fn (s.fns[fn].intCause &&& ~~~(v.extractLsb' 0 12)) s.fns[fn].intMask
  else if off = 0x14 then s.setCause fn s.fns[fn].intCause (v.extractLsb' 0 12 &&& causeValid fn)
  else if off = 0x20 then writeEvqLo fn v s
  else if off = 0x24 then
    if s.fns[fn].evq.running then s
    else s.modEvq fn fun q => { q with base := (q.base &&& 0xFFFFFFFF#64) ||| (v.setWidth 64 <<< 32) }
  else if off = 0x28 then writeEvqHead fn v s
  else if off = 0x100 ∧ fn.val = 0 then writeSupplyStatus v s
  else if 0x8000 ≤ off ∧ off < 0x8400 then
    writeMsix fn (Fin.ofNat 64 ((off - 0x8000) / 16)) (off % 16 / 4) v s
  else match qpRegister off with
    | none => s
    | some (n, r) =>
      let q := s.fns[fn].qps[n]
      let lo (b : W64) : W64 := (b &&& ~~~0xFFFFFFFF#64) ||| (v &&& 0xFFFFF000).setWidth 64
      let hi (b : W64) : W64 := (b &&& 0xFFFFFFFF#64) ||| (v.setWidth 64 <<< 32)
      if r = 0x08 then writeSqSize fn n v s
      else if r = 0x0C then writeTail fn n v s
      else if r = 0x18 then writeCqHead fn n v s
      else if q.running then s
      else if r = 0x00 then s.modQp fn n fun x => { x with sqBase := lo x.sqBase }
      else if r = 0x04 then s.modQp fn n fun x => { x with sqBase := hi x.sqBase }
      else if r = 0x10 then s.modQp fn n fun x => { x with cqBase := lo x.cqBase }
      else if r = 0x14 then s.modQp fn n fun x => { x with cqBase := hi x.cqBase }
      else s

/-- R196: the MSI-X table or its pending bit array. -/
def msixRegion (off : Nat) : Bool :=
  (0x8000 ≤ off && off < 0x8400) || (0x9000 ≤ off && off < 0x9008)

/-- R196: a BAR0 access of `n` bytes at an offset is accepted. -/
def bar0Legal (off n : Nat) : Bool :=
  (n = 4 && off % 4 = 0) || (n = 8 && off % 8 = 0 && msixRegion off)

/-- R196: a refused access sets ACCESS_ERR, and a refused read returns zero. -/
def refuseAccess (fn : FnNo) (write : Bool) (s : State) : State :=
  (if write then s else s.emit (.readData fn 0)).raise fn causeAccessErr

/-! ### Resets of the HIF_ registers (R198, R1141) -/

/-- The HIF_ registers and MSI-X state of a function are re-initialised; the completions of its commands
are discarded (R1141, R115). (Log entry 51 DEDUCED.) -/
def resetFunc (fn : FnNo) (s : State) : State :=
  { s with fns := vmod s.fns fn fun _ => Func.reset fn, outst := s.outst.filter fun o => o.fn ≠ fn }

end Sys2Proof.Machine
end

