-- ==== Sys2Proof/Machine/HostRegs.lean ====
section
/-!
DEFINITION. The rows of the host interface registers (05).
-/

namespace Sys2Proof.Machine

/-- R240, R241: a W1C write of HIF_INT_CAUSE. -/
def execHifIntCause (fn : FnNo) (value : W32) (s : State) : Host.Outcome State Fault Refusal :=
  .next (hostAccess fn (bar0Write fn 0x10 value) s)

/-- R242: a write of HIF_INT_MASK; unmasking a set cause sends a message. -/
def execHifIntMask (fn : FnNo) (value : W32) (s : State) : Host.Outcome State Fault Refusal :=
  .next (hostAccess fn (bar0Write fn 0x14 value) s)

/-- R206: a read of HIF_TICK_LO returns bits 31:0 of the tick and captures bits 63:32. -/
def readTickLo (fn : FnNo) (s : State) : State :=
  (s.modFn fn fun f => { f with tickCapture := s.tick.extractLsb' 32 32 }).emit
    (.readData fn ((s.tick.extractLsb' 0 32).setWidth 64))

/-- R206: HIF_TICK_LO is read. -/
def execHifTickLo (fn : FnNo) (s : State) : Host.Outcome State Fault Refusal :=
  .next (hostAccess fn (readTickLo fn) s)

/-- R213 to R215, R1143: HIF_SQn_SIZE is written with ENABLE 1. -/
def execQueuePairEnable (fn : FnNo) (qp : QpNo) (value : W32) (s : State) :
    Host.Outcome State Fault Refusal :=
  .next (hostAccess fn (writeSqSize fn qp (value ||| 0x80000000)) s)

/-- R236, R237, R289: HIF_SQn_SIZE is written with ENABLE 0. -/
def execQueuePairDisable (fn : FnNo) (qp : QpNo) (value : W32) (s : State) :
    Host.Outcome State Fault Refusal :=
  .next (hostAccess fn (writeSqSize fn qp (value &&& 0x7FFFFFFF)) s)

/-- R213 to R215, R235: HIF_EVQ_BASE_LO is written with ENABLE 1. -/
def execEvqEnable (fn : FnNo) (value : W32) (s : State) : Host.Outcome State Fault Refusal :=
  .next (hostAccess fn (writeEvqLo fn (value ||| 1)) s)

/-- R239: HIF_EVQ_BASE_LO is written with ENABLE 0. -/
def execEvqDisable (fn : FnNo) (value : W32) (s : State) : Host.Outcome State Fault Refusal :=
  .next (hostAccess fn (writeEvqLo fn (value &&& 0xFFFFFFFE)) s)

/-- R218, R221: a doorbell. -/
def execDoorbell (fn : FnNo) (qp : QpNo) (value : W32) (s : State) : Host.Outcome State Fault Refusal :=
  .next (hostAccess fn (writeTail fn qp value) s)

/-- R225: completion queue entries are released. -/
def execHifCqnHead (fn : FnNo) (qp : QpNo) (value : W32) (s : State) :
    Host.Outcome State Fault Refusal :=
  .next (hostAccess fn (writeCqHead fn qp value) s)

/-- R225, R235: event queue entries are released. -/
def execHifEvqHead (fn : FnNo) (value : W32) (s : State) : Host.Outcome State Fault Refusal :=
  .next (hostAccess fn (writeEvqHead fn value) s)

/-- R221, R222: a memory read of a submission queue ring fails. -/
def execRingReadError (fn : FnNo) (qp : QpNo) (s : State) : Host.Outcome State Fault Refusal :=
  .next (ringError fn qp s)

/-- R83: HIF_SUPPLY_STATUS is written. -/
def execHifSupplyStatus (value : W32) (s : State) : Host.Outcome State Fault Refusal :=
  .next (hostAccess 0 (writeSupplyStatus value) s)

/-- R12, R18, R19, R196, R216: a write of a BAR0 register, of 4 bytes or, when `wide`, of 8. -/
def execRegisterWrite (fn : FnNo) (offset : BitVec 16) (wide : Bool) (value : W64) (s : State) :
    Host.Outcome State Fault Refusal :=
  .next (hostAccess fn (fun t =>
    if bar0Legal offset.toNat (if wide then 8 else 4) then
      let u := bar0Write fn offset.toNat (value.extractLsb' 0 32) t
      if wide then bar0Write fn (offset.toNat + 4) (value.extractLsb' 32 32) u else u
    else refuseAccess fn true t) s)

/-- R244: the MSI-X Function Mask is written; clearing it sends the messages held. -/
def execMsixFunctionMask (fn : FnNo) (mask : Bool) (s : State) : Host.Outcome State Fault Refusal :=
  .next ((s.modFn fn fun f => { f with functionMask := mask }).releaseMsix fn)

end Sys2Proof.Machine
end

