-- ==== Sys2Proof/Machine/Service.lean ====
section
/-!
DEFINITION. The service commands (08, 23): fencing, self-test, return and remapping of units, the fault log, and the
rows of unit faults and PLL faults (03).
-/

namespace Sys2Proof.Machine

/-! ### UNIT_FENCE (R430, R431, R1012) -/

/-- UNIT_FENCE in R375. -/
def specUnitFence : CmdSpec :=
  { op := 0xA0, len := 8, long := true, pfOnly := true, used := usedBits [(8, 2), (10, 1)] }

/-- R429: a UNIT which no service command acts on. -/
def badUnit (p : Packet) : Option Rej := badField (unitOf (p.u16 8)).isNone 8

/-- R832: a lane in use is fenced with MODE 0x00: the port narrows first, when other lanes are in service and no
failure or fence narrows it already. (Log entry 70 DEDUCED.) -/
def State.drainLane (s : State) (l : LaneNo) (id : Nat) : State :=
  let p := portOf l
  let q := s.ports[p]
  let rest := q.lanes &&& ~~~laneBit l
  let width := min q.width (min (widest (min 2 (laneCount rest))) q.agreedMax)
  let start := fun (t : State) => t.beginChange p (.fence id l) (lowestLanes rest width) width
  if rest = 0 then
    let r := s.fenceLane l 0x0A
    ((r.1.unitFailed (unitId 6 l.val) 0x0A 1 (s.portStrata p) r.2).laneLost l).completeOk id 0 0
  else
    match q.wc with
    | none => start s
    | some w =>
      match w.cause with
      | .command c => start (s.modPort p fun x => { x with wc := none, widthCmd := some (c, w.width) })
      | _ => (s.laneFailBy l 0x0A).completeOk id 0 0

/-- R127, R131, R431, R1012: UNIT_FENCE carries out FENCE, and CUT at once for MODE 0x01.
(Log entries 68 DEDUCED, 70 DEDUCED.) -/
def fenceWork (p : Packet) (id : Nat) (s : State) : State :=
  let draining := p.u8 10 == 0
  match unitOf (p.u16 8) with
  | none => s
  | some u =>
    if !(s.unitSt u).up then s.completeOk id 0 0
    else
      let other := fun (t : State) =>
        let r := t.fenceUnit u 0x0A (retiresOnFence u) 0
        if draining then r.modUnit u fun x => { x with draining := some (id, t.tick) }
        else let c := r.cutStep u false; c.1.completeOk id c.2 0
      match u with
      | .lane l =>
        let q := s.ports[portOf l]
        if q.st == .active && q.inUse &&& laneBit l != 0 then
          if draining then s.drainLane l id else (s.laneFailBy l 0x0A).completeOk id 0 0
        else
          let c := (s.fenceUnit u 0x0A false 0).cutStep u false
          c.1.completeOk id c.2 0
      | _ => other s

/-- R430, R431: UNIT_FENCE. -/
def execUnitFence (fn : FnNo) (qp : QpNo) (pkt : Packet) (s : State) : Host.Outcome State Fault Refusal :=
  .next (longCommand specUnitFence fn qp pkt (fun _ => (badUnit pkt).or (badField (decide (1 < pkt.u8 10)) 10))
    (fun _ => none) (fun _ t => t) (fenceWork pkt) s)

/-- R127: an engine still works on what it has accepted. -/
def State.working (s : State) : Unit_ → Bool
  | .slate e => !(s.pieces[e]).isEmpty
  | .copy e => s.copies.any fun j => j.engine == e
  | _ => false

/-- R127: DRAIN of a unit ends, and CUT follows: 1 ms after FENCE, or before, once the tracking table is empty.
(Log entry 68 DEDUCED.) -/
def drainEnds (unit : W16) (s : State) : State :=
  match unitOf unit with
  | none => s
  | some u =>
    match (s.unitSt u).draining with
    | none => s
    | some d =>
      let emptied := decide (s.tick - d.2 < 800000)
      if emptied && s.working u then s
      else
        let c := (s.modUnit u fun x => { x with draining := none }).cutStep u emptied
        c.1.completeOk d.1 c.2 0

/-- R127: DRAIN_END. -/
def execDrainEnd (unit : W16) (s : State) : Host.Outcome State Fault Refusal := .next (drainEnds unit s)

/-! ### UNIT_SELFTEST and UNIT_RETURN (R432 to R435, R833 to R835, R1031, R1032) -/

/-- UNIT_SELFTEST in R375. -/
def specUnitSelftest : CmdSpec := { op := 0xA1, len := 8, long := true, pfOnly := true, used := usedBits [(8, 2)] }

/-- R432: the unit of a packet is fenced or retired. -/
def State.unitDown (s : State) (p : Packet) : Bool :=
  match unitOf (p.u16 8) with
  | some u => !(s.unitSt u).up
  | none => false

/-- R433, R833, R835: the test begins; a lane whose port is not ACTIVE fails at once. (Log entry 76 DEDUCED.) -/
def selftestWork (p : Packet) (id : Nat) (s : State) : State :=
  match unitOf (p.u16 8) with
  | none => s
  | some u =>
    match u with
    | .lane l =>
      if s.ports[portOf l].st == .active then
        let t := s.modUnit u fun x => { x with testing := x.testing ++ [id] }
        (t.modLane l fun x => x.newStage.sweep).showTs l
      else (s.modLane l fun x => { x with rejoin := true }).completeOk id (0x0001 <<< 16) 0
    | _ => s.modUnit u fun x => { x with testing := x.testing ++ [id] }

/-- R432, R433: UNIT_SELFTEST. -/
def execUnitSelftest (fn : FnNo) (qp : QpNo) (pkt : Packet) (s : State) : Host.Outcome State Fault Refusal :=
  .next (longCommand specUnitSelftest fn qp pkt (fun t => (badUnit pkt).or (badState (!t.unitDown pkt)))
    (fun _ => none) (fun _ t => t) (selftestWork pkt) s)

/-- R433, R1031: the test of a unit ends with a failure code, 0 for a pass. (Log entry 76 DEDUCED.) -/
def selftestEnds (unit code : W16) (s : State) : State :=
  match unitOf unit with
  | none => s
  | some u =>
    let x := s.unitSt u
    let away : Bool := match u with
      | .lane l => s.ports[portOf l].st != .active
      | _ => false
    let code : W16 := if away then 1 else code
    if x.testing.isEmpty then s
    else
      let t := s.modUnit u fun y => { y with testing := [], passed := y.passed || (code == 0 && !y.up) }
      let t := match u with
        | .lane l => if away then t.modLane l fun y => { y with rejoin := true } else t
        | _ => t
      t.forEach x.testing fun id v =>
        v.completeOk id (if code = 0 then 1 else code.setWidth 64 <<< 16) 0

/-- R433: UNIT_SELFTEST_COMPLETE. -/
def execUnitSelftestComplete (unit code : W16) (s : State) : Host.Outcome State Fault Refusal :=
  .next (selftestEnds unit code s)

/-- UNIT_RETURN in R375. -/
def specUnitReturn : CmdSpec := { op := 0xA2, len := 8, pfOnly := true, used := usedBits [(8, 2)] }

/-- R434: check 7 of UNIT_RETURN. -/
def chkUnitReturn (p : Packet) (s : State) : Option Rej :=
  (badUnit p).or <| badState <|
    match unitOf (p.u16 8) with
    | some u => (s.unitSt u).up || !(s.unitSt u).passed
    | none => false

/-- R434, R1032: the unit returns. -/
def returnWork (p : Packet) (s : State) : State × Res :=
  match unitOf (p.u16 8) with
  | some u => ((s.returnUnit u).noteReturn u, {})
  | none => (s, {})

/-- R434: UNIT_RETURN. -/
def execUnitReturn (fn : FnNo) (qp : QpNo) (pkt : Packet) (s : State) : Host.Outcome State Fault Refusal :=
  .next (shortCommand specUnitReturn fn qp pkt (chkUnitReturn pkt) (fun _ => none) (returnWork pkt) s)

/-! ### CLUSTER_REMAP (R436 to R438) -/

/-- CLUSTER_REMAP in R375. -/
def specClusterRemap : CmdSpec :=
  { op := 0xA3, len := 8, long := true, pfOnly := true, used := usedBits [(8, 1), (9, 1)] }

/-- A physical cluster which a byte names. -/
def toPhys (b : BitVec 8) : PhysNo := Fin.ofNat 72 b.toNat

/-- R436: checks 6 and 7 of CLUSTER_REMAP. -/
def chkClusterRemap (p : Packet) (s : State) : Option Rej :=
  let old := toPhys (p.u8 8)
  let named := match s.logicalOf old with
    | none => true
    | some l => s.remaps.any fun x => x.2.1 == l
  (badField (decide (71 < p.u8 8)) 8).or <| (badField (decide (71 < p.u8 9)) 9).or <|
  badState (named || !s.units.clusters[old].up || !s.spareSet.contains (toPhys (p.u8 9)))

/-- R437: the remap waits for the stratum's frame boundary. -/
def remapWork (p : Packet) (id : Nat) (s : State) : State :=
  match s.logicalOf (toPhys (p.u8 8)) with
  | none => s
  | some l => { s with remaps := s.remaps ++ [(id, l, toPhys (p.u8 9))] }

/-- R436, R437: CLUSTER_REMAP. -/
def execClusterRemap (fn : FnNo) (qp : QpNo) (pkt : Packet) (s : State) : Host.Outcome State Fault Refusal :=
  .next (longCommand specClusterRemap fn qp pkt (chkClusterRemap pkt) (fun _ => none) (fun _ t => t)
    (remapWork pkt) s)

/-- R437: a logical cluster moves to another physical cluster with its scratch memory, and the one it leaves is zeroed. -/
def State.moveCluster (s : State) (l : LogNo) (old new : PhysNo) : State :=
  let t := (s.mapTo l new).zeroCluster old
  { t with scratch := vmod t.scratch new fun _ => s.scratch[old] }

/-- R437, R438: the oldest remap whose stratum has no channel-frame in flight takes effect.
(Log entries 74 DEDUCED, 75 DEDUCED.) -/
def remapSwitch (s : State) : State :=
  match s.remaps.find? fun x => !s.runs.any fun r => r.stratum == s.holder x.2.1 with
  | none => s
  | some x =>
    let l := x.2.1
    let new := x.2.2
    let t : State := { s with remaps := s.remaps.filter fun y => y.1 != x.1 }
    match t.mapping[l] with
    | none => t
    | some old =>
      if !t.spareSet.contains new then
        t.complete x.1 stTargetReset 0 0 0 (dataTargetReset (unitId 1 new.val) 1)
      else
        let h := t.holder l
        let r := (t.moveCluster l old new).fault 3 5 (unitId 1 old.val) (strataMask [h]) 3 (BitVec.ofNat 8 l.val) (unitId 1 new.val) 0
        r.1.recordSystem.completeOk x.1 t.tick 0

/-- R437: CLUSTER_REMAP_SWITCH. -/
def execClusterRemapSwitch (s : State) : Host.Outcome State Fault Refusal := .next (remapSwitch s)

/-! ### FAULT_LOG_READ (R439, R440, R1034) -/

/-- R1034: the 64 bytes of a fault-log record. -/
def FaultRec.bytes (r : FaultRec) : List Byte :=
  let b := leBytes 4 r.index ++ leBytes 1 r.cls.toNat ++ leBytes 1 r.cause.toNat ++ leBytes 2 r.unit.toNat ++
    leBytes 8 r.tick.toNat ++ leBytes 2 r.strata.toNat ++ leBytes 1 r.action.toNat ++ leBytes 1 r.logical.toNat ++
    leBytes 2 r.newUnit.toNat ++ leBytes 2 0 ++ leBytes 4 r.boot.toNat ++ leBytes 28 r.detail.toNat ++ leBytes 4 0
  b ++ leBytes 4 (crc32c b).toNat

/-- FAULT_LOG_READ in R375. -/
def specFaultLogRead : CmdSpec :=
  { op := 0xA4, len := 16, long := true, anyPhase := true, used := usedBits [(8, 4), (12, 2), (16, 8)] }

/-- R308, R439: check 6 of FAULT_LOG_READ. -/
def chkFaultLogRead (p : Packet) : Option Rej :=
  (badField (p.u16 12 == 0 || decide (1024 < p.u16 12)) 12).or <|
  badField (p.u64 16 == 0 || p.u64 16 % 64 != 0) 16

/-- R439: FAULT_LOG_READ. -/
def execFaultLogRead (fn : FnNo) (qp : QpNo) (pkt : Packet) (s : State) : Host.Outcome State Fault Refusal :=
  .next (longCommand specFaultLogRead fn qp pkt (fun _ => chkFaultLogRead pkt) (fun _ => none) (fun _ t => t)
    (fun id t =>
      let r : LogRead := { id, fn, first := (pkt.u32 8).toNat, count := (pkt.u16 12).toNat, addr := pkt.u64 16 }
      { t with logReads := t.logReads ++ [r] }) s)

/-- The records are examined in order: up to `left` more are written from `addr` on, those which do not name the
reader's stratum are skipped (R440), and a write to `fail` fails. Answers the writes, the records written, the index
after the last record examined, and whether the write failed. (Log entry 77 DEDUCED.) -/
def readRecords (fn : FnNo) (fail : Option W64) :
    List FaultRec → Nat → W64 → Nat → Nat → List (W64 × List Byte) × Nat × Nat × Bool
  | [], _, _, written, next => ([], written, next, false)
  | r :: rs, left, addr, written, next =>
    if left = 0 then ([], written, next, false)
    else if fn.val ≠ 0 && !r.strata.getLsbD fn.val then readRecords fn fail rs left addr written (r.index + 1)
    else if (match fail with | some a => decide ((a - addr).toNat < 64) | none => false) then
      ([], written, r.index + 1, true)
    else
      let e := readRecords fn fail rs (left - 1) (addr + 64) (written + 1) (r.index + 1)
      ((addr, r.bytes) :: e.1, e.2)

/-- R439, R440, R464, R1037: the oldest FAULT_LOG_READ writes its records and completes. (Log entry 77 DEDUCED.) -/
def logReadEnds (fail : Option W64) (s : State) : State :=
  match s.logReads with
  | [] => s
  | x :: rest =>
    let t : State := { s with logReads := rest }
    let recs := (t.faults.recs.map (·.2)).filter fun r => decide (x.first ≤ r.index)
    let e := readRecords x.fn fail recs x.count x.addr 0 x.first
    let t := t.forEach e.1 fun w u => u.hostWrite x.fn w.1 w.2
    let n := BitVec.ofNat 64 e.2.1
    let next := BitVec.ofNat 64 e.2.2.1
    if e.2.2.2 then t.complete x.id stOutOfRange 16 n next ((fail.getD 0).setWidth 192)
    else t.completeOk x.id n next

/-- R439: FAULT_LOG_READ_COMPLETE; `fail` is a host address which cannot be written. -/
def execFaultLogReadComplete (fail : Option W64) (s : State) : Host.Outcome State Fault Refusal :=
  .next (logReadEnds fail s)

/-! ### Unit faults (R136, R1007, R1010, R1036) -/

/-- R1010: UNIT_FAULT, with the CAUSE of R1035 and the location in DETAIL. -/
def execUnitFault (unit : W16) (cause : BitVec 8) (detail : BitVec 224) (s : State) :
    Host.Outcome State Fault Refusal :=
  .next (match unitOf unit with | some u => s.failUnit u cause detail | none => s)

/-- R136: REQUEST_OPEN_TIMEOUT. -/
def execRequestOpenTimeout (unit : W16) (s : State) : Host.Outcome State Fault Refusal :=
  .next (match unitOf unit with | some u => s.failUnit u 3 0 | none => s)

/-- R134: the epoch which a reply must carry where it arrives: at the completion proxy of the unit which sends it, or at the
network interface of a requester. -/
def State.epochAt (s : State) (u : Unit_) (requester : Option W16) : Nat :=
  match requester.bind unitOf with
  | some r => (s.unitSt r).own
  | none => (s.unitSt u).epoch

/-- R134, R1036: MALFORMED_REPLY: the unit sends a reply of an epoch which is malformed or answers no open request. One of an
earlier epoch is discarded and recorded nowhere. -/
def execMalformedReply (unit : W16) (reply : BadReply) (s : State) : Host.Outcome State Fault Refusal :=
  .next (match unitOf unit with
    | some u => if reply.epoch < s.epochAt u reply.requester then s else s.failUnit u 0x0C 0x0F00
    | none => s)

/-! ### PLLs and references (R92, R139, R803, R1010) -/

/-- R92, R1038: the units which a PLL feeds, by its index: 1 PLL_SYS, 2 PLL_MEM, 3 to 10 PLL_CORE0 to PLL_CORE7, 11
PLL_SER. -/
def fedBy (pll : Nat) : List Unit_ :=
  if pll = 1 then
    (List.finRange 8).map .seg ++ (List.finRange 64).map .bank ++ (List.finRange 4).map .slate ++
      (List.finRange 4).map .copy ++ (List.finRange 8).map .port
  else if pll = 2 then (List.finRange 2).map .ctrl ++ (List.finRange 8).map .ext
  else if 3 ≤ pll ∧ pll ≤ 10 then ((List.finRange 72).filter fun c => c.val / 9 == pll - 3).map .cluster
  else if pll = 11 then (List.finRange 8).map .port
  else []

/-- R139: an immediate fence and CUT of a unit whose PLL is out of lock; its contents are kept.
(Log entry 73 DEDUCED.) -/
def State.holdUnit (s : State) (u : Unit_) : State :=
  let t := s.modUnit u fun x => { x with fenced := true, passed := false, draining := none }
  let t : State := match lapseUnit u with
    | some w => t.lapse 4 w (t.lapsed u)
    | none => t
  let t : State := match u with
    | .cluster c => t.loseCluster c
    | .slate e => t.moveContexts e
    | .port p => if t.ports[p].st == .disabled then t else t.toDisabled p 0x0B
    | _ => t
  let r := t.endRequests u
  let t := r.1.modUnit u fun x => { x with own := x.own + 1 }
  match (s.unitSt u).draining with
  | some d => t.completeOk d.1 (BitVec.ofNat 64 r.2) 0
  | none => t

/-- R139: PLL_SYS, PLL_MEM or a PLL_CORE loses lock. A unit in the DRAIN step of a fence is cut too; it stays fenced when
the PLL relocks. (Log entry 73 DEDUCED.) -/
def pllLost (pll : Nat) (s : State) : State :=
  if pll = 0 || decide (10 < pll) || s.boot.pllOut.any (fun x => x.1 == pll) then s
  else
    let us := (fedBy pll).filter fun u => (s.unitSt u).up
    let t : State := { s with boot := { s.boot with pllOut := s.boot.pllOut ++ [(pll, us.map (·.code))] } }
    t.forEach ((fedBy pll).filter fun u => (s.unitSt u).works) fun u v => v.holdUnit u

/-- R139: PLL_OUT_OF_LOCK. -/
def execPllOutOfLock (pll : Nat) (s : State) : Host.Outcome State Fault Refusal := .next (pllLost pll s)

/-- The units which a PLL fenced and which are not retired since. (Log entry 73 DEDUCED.) -/
def State.heldBy (s : State) (pll : Nat) : List Unit_ :=
  (((s.boot.pllOut.find? fun x => x.1 == pll).map (·.2)).getD []).filterMap fun w =>
    (unitOf w).filter fun u => (s.unitSt u).fenced && !(s.unitSt u).retired

/-- R803, R1010: a PLL relocks within 1 ms and its units return without retirement. (Log entry 73 DEDUCED.) -/
def pllBack (pll : Nat) (s : State) : State :=
  let us := s.heldBy pll
  let t : State := { s with boot := { s.boot with
    pllOut := s.boot.pllOut.filter fun x => x.1 != pll, poicaLost := s.boot.poicaLost && pll != 11 } }
  t.forEach us fun u v =>
    match u with
    | .port p =>
      (v.modUnit u fun x => { x with fenced := false, epoch := x.epoch + 1 }).fenceLapseEnds (.port p)
    | _ => (v.returnUnit u).fenceLapseEnds u

/-- R1010: PLL_RELOCKED. -/
def execPllRelocked (pll : Nat) (s : State) : Host.Outcome State Fault Refusal := .next (pllBack pll s)

/-- R139, R1007, R1010: relock fails, and every unit which the PLL feeds is retired. (Log entry 73 DEDUCED.) -/
def pllGone (pll : Nat) (s : State) : State :=
  if !s.boot.pllOut.any fun x => x.1 == pll then s
  else
    let us := s.heldBy pll
    let t : State := { s with boot := { s.boot with pllOut := s.boot.pllOut.filter fun x => x.1 != pll } }
    (t.forEach us fun u v => ((v.fenceUnit u 4 true 0).cutStep u false).1).forEach (fedBy pll) fun u v => v.failUnit u 4 0

/-- R139: PLL_RELOCK_TIMEOUT. -/
def execPllRelockTimeout (pll : Nat) (s : State) : Host.Outcome State Fault Refusal := .next (pllGone pll s)

/-- R139, R803: the Poica reference is lost, or PLL_SER is out of lock: every port is fenced, and leaves ACTIVE for
RETRAIN. (Log entry 73 DEDUCED.) -/
def poicaReferenceLost (pll : Bool) (s : State) : State :=
  if s.boot.poicaLost then s
  else
    let us := (fedBy 11).filter fun u => (s.unitSt u).up
    let t : State := { s with boot := { s.boot with
      poicaLost := true, pllOut := s.boot.pllOut ++ [(11, us.map (·.code))] } }
    let all := ((List.finRange 8).map t.portStrata).flatten
    let r := t.fault 1 (if pll then 4 else 0x0B) 0x100B (strataMask all.eraseDups) 1 0xFF 0xFFFF 0
    let t := r.1.forEach us fun u v =>
      let w := v.modUnit u fun x => { x with fenced := true, passed := false, own := x.own + 1 }
      w.lapse 4 u.code (w.lapsed u)
    t.forEach (List.finRange 8) fun p v => if v.ports[p].st == .active then v.enterRetrain p else v

/-- R139: POICA_REFERENCE_LOST; `pll` tells that PLL_SER is out of lock rather than its reference lost. -/
def execPoicaReferenceLost (pll : Bool) (s : State) : Host.Outcome State Fault Refusal :=
  .next (poicaReferenceLost pll s)

end Sys2Proof.Machine
end

