-- ==== Sys2Proof/Machine/Nv.lean ====
section
/-!
DEFINITION. Flash (24): its regions, the journal, firmware images and calibration sets, the flash commands and their
steps under the supply gate, and what an operation leaves which ends without completion.
-/

namespace Sys2Proof.Machine

/-! ### Erasing and programming (R1044) -/

/-- The state with the flash's bytes changed. -/
def State.modFlash (s : State) (f : Mem → Mem) : State := { s with nv := { s.nv with mem := f s.nv.mem } }

/-- A 4 KiB sector is erased. -/
def State.eraseSector (s : State) (region off : Nat) : State :=
  s.modFlash fun m => memClear m (region * 0x10000000 + off / 4096 * 4096) 4096

/-- Programming only clears bits. -/
def programBytes (m : Mem) (a : Nat) : List Byte → Mem
  | [] => m
  | v :: r => programBytes (memWrite 0xFF m a (memRead 0xFF m a &&& v)) (a + 1) r

/-- Bytes of a region are programmed. -/
def State.programPage (s : State) (region off : Nat) (bytes : List Byte) : State :=
  s.modFlash fun m => programBytes m (region * 0x10000000 + off) bytes

/-- The bytes of a range read as something else than what was written: the first one differs, the others are free.
(Log entry 82 DEDUCED.) -/
def State.damage (s : State) (region off n : Nat) : State :=
  let d := s.draw
  let old := d.2.flashByte region off
  let first := if Config.flashByte d.1 off = old then ~~~old else Config.flashByte d.1 off
  let rest := (List.range (n - 1)).map fun i => Config.flashByte d.1 (off + 1 + i)
  d.2.modFlash fun m => memWriteList 0xFF m (region * 0x10000000 + off) (first :: rest)

/-- R465: the written range of an NV_WRITE holds a mix of old and new bytes from offset `m` of the range on, where the
byte is the old one; which of the later ones are old is free. (Log entry 82 DEDUCED.) -/
def State.mixOld (s : State) (o : NvOp) (m : Nat) : State :=
  let d := s.draw
  let b := (List.range (o.len - m)).map fun i =>
    let new := d.2.flashByte 7 (o.off + m + i)
    if i = 0 || (Config.flashByte d.1 (o.off + m + i)).getLsbD 0 then (o.old[m + i]?).getD new else new
  d.2.modFlash fun x => memWriteList 0xFF x (7 * 0x10000000 + o.off + m) b

/-! ### The journal (R1047, R1050, R1051) -/

/-- R1050: the 64 bytes of a journal entry. -/
def JEntry.bytes (e : JEntry) : List Byte :=
  let b := fun (done : Nat) => leBytes 4 e.seq ++ leBytes 1 e.kind.toNat ++ leBytes 1 done ++ leBytes 1 e.opcode.toNat ++
    leBytes 1 e.region.toNat ++ leBytes 8 e.tick.toNat ++ leBytes 4 e.offset ++ leBytes 4 e.len ++ leBytes 4 e.ref ++
    List.replicate 32 0
  b e.done.toNat ++ leBytes 4 (crc32c (b 0xFF)).toNat

/-- R1047: a rewritten entry keeps its users. -/
def State.moveEntry (s : State) (old new : Nat) : State :=
  let op := fun (o : NvOp) => if o.entry = some old then { o with entry := some new } else o
  let pan := s.panel
  let refresh := pan.refresh.map fun r => if r.entry = old then { r with entry := new } else r
  { s with
    nv := { s.nv with ops := s.nv.ops.map op, reerase := s.nv.reerase.map fun k => if k = old then new else k }
    panel := { pan with refresh, redraw := pan.redraw.map fun k => if k = old then new else k } }

/-- One more entry is written, with the next SEQ. (Log entry 79 DEDUCED.) -/
def State.putEntry (s : State) (e : JEntry) : State :=
  { s with nv := { s.nv with journal := s.nv.journal ++ [{ e with seq := s.nv.nextEntry }], nextEntry := s.nv.nextEntry + 1 } }

/-- R1047, R1050: a journal entry is written; the first one in a sector erases the following sector, whose open entries
are first written again. (Log entry 79 DEDUCED.) -/
def State.journal (s : State) (e : JEntry) : State × Nat :=
  let seq := s.nv.nextEntry
  let t := s.putEntry e
  if seq % 64 = 0 then
    let next := (seq / 64 + 1) % 64
    let doomed := s.nv.journal.filter fun x => x.seq / 64 % 64 == next
    let u : State := { t with nv := { t.nv with journal := t.nv.journal.filter fun x => x.seq / 64 % 64 != next } }
    (u.forEach (doomed.filter fun x => x.done == 0xFF) fun x v => (v.moveEntry x.seq v.nv.nextEntry).putEntry x, seq)
  else (t, seq)

/-- R1050: DONE of an entry is programmed. -/
def State.setDone (s : State) (seq : Nat) (done : BitVec 8) : State :=
  let f := fun (e : JEntry) => if e.seq = seq then { e with done } else e
  { s with nv := { s.nv with journal := s.nv.journal.map f } }

/-- R1051: the entry is an unresolved panel refresh. -/
def State.isUnresolved (s : State) (e : JEntry) : Bool :=
  e.kind == 2 && (e.done == 0xFF || e.done == 0x5A) &&
    !s.nv.journal.any fun x => x.kind == 2 && x.done == 0 && decide (e.seq < x.seq)

/-- R1051: the last unresolved panel refresh entry. -/
def State.unresolvedEntry (s : State) : Option JEntry := (s.nv.journal.filter s.isUnresolved).getLast?

/-! ### Regions (R1045) -/

/-- Size of a region; 0 for an illegal code. -/
def State.regionSize (s : State) (r : Nat) : Nat :=
  match r with
  | 1 => 0x1000000
  | 2 => 0x1000000
  | 3 => match s.calInForce with | some k => s.flashField 3 (calBase k + 8) 4 | none => 0
  | 4 => 0x200000
  | 5 => 0x40000
  | 6 => 0x10000
  | 7 => 0x800000
  | 8 => 0x10000
  | 9 => 0x40000
  | _ => 0

/-- A byte of a region as NV_READ reads it. (Log entries 13 DESIGN CHOICE, 81 DESIGN CHOICE.) -/
def State.regionByte (s : State) (r off : Nat) : Byte :=
  match r with
  | 3 => s.flashByte 3 (calBase (s.calInForce.getD 0) + off)
  | 4 =>
    match s.faults.recs.find? fun x => x.1 == off / 64 with
    | some x => (x.2.bytes[off % 64]?).getD 0xFF
    | none => 0xFF
  | 5 =>
    match s.nv.journal.find? fun e => e.seq % 4096 == off / 64 with
    | some e => (e.bytes[off % 64]?).getD 0xFF
    | none => 0xFF
  | 9 => if s.nv.system.any fun x => x.seq % 1024 == off / 256 then
      Config.systemByte (((s.nv.system.find? fun x => x.seq % 1024 == off / 256).map (·.seq)).getD 0) (off % 256)
    else 0xFF
  | _ => s.flashByte r off

/-! ### Images (R1052 to R1055) and calibration sets (R1059) -/

/-- Every byte of a range is zero. -/
def zeros (b : List Byte) (o n : Nat) : Bool := ((b.drop o).take n).all (· == 0)

/-- R1052, R1054, R464: the offset of the first header field of an image which fails. -/
def headerFault (b : List Byte) : Option Nat :=
  if fieldNat b 0 4 ≠ 0x57464B56 then some 0
  else if fieldNat b 4 2 ≠ 1 then some 4
  else if fieldNat b 6 2 ≠ 0x4820 then some 6
  else if fieldNat b 8 4 % 256 ≠ 0 ∨ fieldNat b 8 4 < 256 ∨ 0xFFF000 < fieldNat b 8 4 then some 8
  else if 0x10 < fieldNat b 20 1 then some 20
  else if !zeros b 21 43 then some 21
  else if !zeros b 160 88 then some 160
  else none

/-- R1054: the first failing item of the image in a slot, its commit record left out; 0xFFFFFFFF for IMAGE_CRC and
SIGNATURE. -/
def State.imageFault (s : State) (region : Nat) : Option Nat :=
  let h := s.flashBytes region 0 256
  match headerFault h with
  | some o => some o
  | none =>
    let b := s.flashBytes region 0 (fieldNat h 8 4)
    let plain := b.take 248 ++ List.replicate 8 0 ++ b.drop 256
    if fieldNat b 248 8 ≠ (crc64 plain).toNat || !Config.signatureOk b then some 0xFFFFFFFF else none

/-- The correct commit record of an image slot: its SEQ (R1053). (Log entry 80 DEDUCED.) -/
def State.commitSeq (s : State) (region : Nat) : Option Nat :=
  let r := s.flashBytes region imageCommit 64
  if commitOk 0x4D434B56 (s.flashField region 8 4) r then some (fieldNat r 4 4) else none

/-- R1054: the slot is valid; its sequence number. -/
def State.slotValid (s : State) (region : Nat) : Option Nat :=
  if (s.imageFault region).isNone then s.commitSeq region else none

/-- R1055: the region of the staging slot. (Log entry 80 DEDUCED.) -/
def State.stagingSlot (s : State) : Nat :=
  if s.boot.image = 0 then 2
  else if s.boot.image = 1 then 1
  else
    match s.slotValid 1, s.slotValid 2 with
    | some a, some b => if b < a then 2 else 1
    | some _, none => 2
    | none, _ => 1

/-- R1053: a commit record. (Log entry 80 DEDUCED.) -/
def commitRecord (magic seq len : Nat) : List Byte :=
  let b := leBytes 4 magic ++ leBytes 4 seq ++ leBytes 4 len ++ List.replicate 48 0
  b ++ leBytes 4 (crc32c b).toNat

/-- R1059: LABEL is printable ASCII, padded with zero bytes. -/
def labelOk (b : List Byte) : Bool :=
  let text := b.takeWhile (· != 0)
  text.all (fun c => decide (0x20 ≤ c) && decide (c ≤ 0x7E)) && (b.drop text.length).all (· == 0)

/-- R1059, R464: the offset of the first failing item of a calibration set. -/
def calFault (b : List Byte) : Option Nat :=
  if fieldNat b 0 4 ≠ 0x4C434B56 then some 0
  else if fieldNat b 4 2 ≠ 1 then some 4
  else if fieldNat b 8 4 ≠ b.length then some 8
  else if !labelOk ((b.drop 12).take 24) then some 12
  else if !zeros b 40 20 then some 40
  else if fieldNat b 60 4 ≠ (crc32c (b.take 60 ++ List.replicate 4 0 ++ b.drop 64)).toNat then some 60
  else none

/-- The calibration slot which does not hold the set in force (R1061). -/
def State.calTarget (s : State) : Nat := match s.calInForce with | some 0 => 1 | _ => 0

/-! ### Operations (R1046, R1057, R1058, R1061) -/

/-- Erases of the sectors which `n` bytes from a region offset need. -/
def eraseSteps (region off n : Nat) : List NvStep := (List.range ((n + 4095) / 4096)).map fun i => .erase region (off + 4096 * i)

/-- Page programs of bytes from a region offset on. -/
def programSteps (region off : Nat) (b : List Byte) : List NvStep :=
  (List.range ((b.length + 255) / 256)).map fun i => .program region (off + 256 * i) ((b.drop (256 * i)).take 256)

/-- NV_WRITE: each sector is erased and then programmed. -/
def writeSteps (off : Nat) (b : List Byte) : List NvStep :=
  ((List.range (b.length / 4096)).map fun i =>
    .erase 7 (off + 4096 * i) :: programSteps 7 (off + 4096 * i) ((b.drop (4096 * i)).take 4096)).flatten

/-- The steps of an operation as it begins, with the region, offset and length of its journal entry. -/
def State.nvSteps (s : State) (o : NvOp) : List NvStep × Nat × Nat × Nat :=
  let data := (o.data.getD [] ++ List.replicate o.len 0).take o.len
  match o.op.toNat with
  | 0xB1 => (writeSteps o.off data, 7, o.off, o.len)
  | 0xB2 =>
    let r := s.stagingSlot
    (.erase r imageCommit :: eraseSteps r 0 o.len ++ programSteps r 0 data ++ [.read], r, 0, o.len)
  | 0xB3 =>
    let r := s.stagingSlot
    let seq := max ((s.commitSeq 1).getD 0) ((s.commitSeq 2).getD 0) + 1
    ([.erase r imageCommit, .program r imageCommit (commitRecord 0x4D434B56 seq (s.flashField r 8 4)), .read], r,
      imageCommit, 64)
  | 0xB4 =>
    let b := calBase s.calTarget
    let seq := max ((s.calSeq 0).getD 0) ((s.calSeq 1).getD 0) + 1
    (.erase 3 (b + 0x1FF000) :: eraseSteps 3 b o.len ++ programSteps 3 b data ++
      [.read, .program 3 (b + 0x1FF000) (commitRecord 0x52434B56 seq o.len), .read], 3, b, o.len)
  | _ => ([.read], o.region, o.off, o.len)

/-- The front operation changes. -/
def State.modFront (s : State) (f : NvOp → NvOp) : State :=
  match s.nv.ops with
  | [] => s
  | o :: r => { s with nv := { s.nv with ops := f o :: r } }

/-- R303: RESULT0 of NV_SUSPENDED and NV_RESUMED. -/
def nvEvent (op : BitVec 8) (qp : QpNo) (tag : W16) : W64 := BitVec.ofNat 64 (op.toNat + 256 * qp.val + 65536 * tag.toNat)

/-- R76, R79, R87: the front operation pauses. -/
def State.pauseFront (s : State) (cut : Bool) : State :=
  match s.nv.ops with
  | [] => s
  | o :: _ => (s.modFront fun x => { x with paused := some s.tick, eraseCut := cut }).occur o.fn 0x6007
      (nvEvent o.op o.qp o.tag) 0

/-- The step needs the supply gate (R75). -/
def NvStep.risky : NvStep → Bool
  | .read => false
  | _ => true

/-- R1050: the front operation begins: its journal entry is written. NV_READ writes none. -/
def State.beginFront (s : State) : State :=
  match s.nv.ops with
  | [] => s
  | o :: _ =>
    let p := s.nvSteps o
    let old := if o.op = 0xB1 then s.flashBytes 7 o.off o.len else []
    let t := s.modFront fun x => { x with steps := p.1, old }
    if o.op = 0xB0 then t
    else
      let j := t.journal { seq := 0, kind := 1, done := 0xFF, opcode := o.op, region := BitVec.ofNat 8 p.2.1, tick := t.tick, offset := p.2.2.1, len := p.2.2.2, ref := 0 }
      j.1.modFront fun x => { x with entry := some j.2 }

/-- The front operation completes. -/
def State.finishFront (s : State) (status detail : W16) (r0 : W64) (data : BitVec 192) : State :=
  match s.nv.ops with
  | [] => s
  | o :: r =>
    let t : State := { s with nv := { s.nv with ops := r } }
    let t := match o.entry with
      | some k => t.setDone k 0
      | none => t
    t.complete o.id status detail r0 0 data

/-- R1046: the next flash command takes effect. `host` is the source in host memory, `fail` the address which its read
fails at. Without Bus Master Enable its host memory is not read (R1144). -/
def startNv (host : List Byte) (fail : Option W64) (s : State) : State :=
  match s.nv.ops with
  | [] => s
  | o :: _ =>
    let reads := o.op == 0xB1 || o.op == 0xB2 || o.op == 0xB4
    if o.started || (reads && !s.fns[o.fn].busMaster) then s
    else
      let t := s.modFront fun x => { x with started := true, data := some host }
      let off : W16 := if o.op = 0xB1 then 24 else 8
      match fail with
      | some a => if reads then t.finishFront stOutOfRange off 0 (a.setWidth 192)
          else if o.op = 0xB0 || t.gate then t.beginFront else t.pauseFront false
      | none => if o.op = 0xB0 || t.gate then t.beginFront else t.pauseFront false

/-- R1046: NV_OPERATION_START. -/
def execNvOperationStart (host : List Byte) (fail : Option W64) (s : State) : Host.Outcome State Fault Refusal :=
  .next (startNv host fail s)

/-- Before a step, the supply gate is checked (R75, R76). -/
def State.checkStep (s : State) : State :=
  match s.nv.ops with
  | [] => s
  | o :: _ => if (match o.steps with | x :: _ => x.risky | [] => false) && !s.gate then s.pauseFront false else s

/-- Flash commands go on: the module is powered and not in its HOLDUP sequence. -/
def State.nvRuns (s : State) : Bool :=
  (s.sup.power == .standby || s.sup.power == .active) && !s.boot.inReset && !s.boot.resetPending

/-- R464: DATA of ST_NV_VERIFY. (Log entry 82 DEDUCED.) -/
def dataVerify (region off : Nat) : BitVec 192 := BitVec.ofNat 192 (region + 2 ^ 32 * off)

/-- A program step takes effect; a commit record of a calibration set puts the set in force (R1061).
(Log entry 82 DEDUCED.) -/
def State.doProgram (s : State) (region off : Nat) (b : List Byte) : State :=
  let t := s.programPage region off b
  if region = 3 && off % 0x200000 = 0x1FF000 then t.stripChanged else t

/-- R1044, R465: a page program of the front operation ends. (Log entry 82 DEDUCED.) -/
def pageDone (mismatch : Option W32) (s : State) : State :=
  match s.nv.ops with
  | [] => s
  | o :: _ =>
    match o.steps with
    | .program r off b :: rest =>
      if !s.nvRuns || o.paused.isSome then s
      else
        let t := (s.doProgram r off b).modFront fun x => { x with steps := rest }
        if rest.isEmpty then
          match mismatch with
          | some m =>
            if o.off ≤ m.toNat ∧ m.toNat < o.off + o.len ∧
                (o.old[m.toNat - o.off]?).getD 0xFF ≠ t.flashByte 7 m.toNat then
              (t.mixOld o (m.toNat - o.off)).finishFront stNvVerify 0 0 (dataVerify 7 m.toNat)
            else t.finishFront stOk 0 0 0
          | none => t.finishFront stOk 0 0 0
        else t.checkStep
    | _ => s

/-- R1044: PAGE_PROGRAM_COMPLETE; `mismatch` is the region offset of the first byte which an NV_WRITE reads back
wrongly. -/
def execPageProgramComplete (mismatch : Option W32) (s : State) : Host.Outcome State Fault Refusal :=
  .next (pageDone mismatch s)

/-- R1044: a sector erase of the front operation ends. -/
def eraseDone (s : State) : State :=
  match s.nv.ops with
  | [] => s
  | o :: _ =>
    match o.steps with
    | .erase r off :: rest =>
      if !s.nvRuns || o.paused.isSome then s
      else ((s.eraseSector r off).modFront fun x => { x with steps := rest }).checkStep
    | _ => s

/-- R1044: SECTOR_ERASE_COMPLETE. -/
def execSectorEraseComplete (s : State) : Host.Outcome State Fault Refusal := .next (eraseDone s)

/-- R464: DATA of ST_IMAGE_INVALID. -/
def dataInvalid (off : Nat) : BitVec 192 := BitVec.ofNat 192 off

/-- Where an operation writes, as its journal entry says: region and offset. -/
def State.place (s : State) (o : NvOp) : Nat × Nat :=
  match o.entry with
  | some k => match s.nv.journal.find? fun e => e.seq == k with
    | some e => (e.region.toNat, e.offset)
    | none => (0, 0)
  | none => (0, 0)

/-- The read-back of FW_STAGE ends (R444, R1057). -/
def State.stageRead (s : State) (o : NvOp) (mismatch : Option W32) : State :=
  let r := (s.place o).1
  match mismatch with
  | some m =>
    if m.toNat < o.len then
      (s.damage r m.toNat (o.len - m.toNat)).finishFront stNvVerify 0 0 (dataVerify r m.toNat)
    else s
  | none =>
    match s.imageFault r with
    | some k => s.finishFront stImageInvalid 0 0 (dataInvalid k)
    | none =>
      let t : State := { s with nv := { s.nv with staged := true } }
      t.finishFront stOk 0 0 0

/-- The read-back of FW_COMMIT ends (R1058). -/
def State.commitRead (s : State) (o : NvOp) (mismatch : Option W32) : State :=
  let r := (s.place o).1
  match mismatch with
  | some m =>
    if imageCommit ≤ m.toNat ∧ m.toNat < imageCommit + 64 then
      (s.damage r m.toNat 1).finishFront stNvVerify 0 0 (dataVerify r m.toNat)
    else s
  | none =>
    let t : State := { s with nv := { s.nv with staged := false } }
    t.finishFront stOk 0 0 0

/-- A read-back of CAL_STORE ends: the set's (R1059) or its commit record's (R446, R1061). -/
def State.calRead (s : State) (o : NvOp) (rest : List NvStep) (mismatch : Option W32) : State :=
  let base := (s.place o).2
  match mismatch with
  | some m =>
    let read := if rest.isEmpty then (0x1FF000, 64) else (0, o.len)
    if read.1 ≤ m.toNat ∧ m.toNat < read.1 + read.2 then
      (s.damage 3 (base + m.toNat) (if rest.isEmpty then 1 else o.len - m.toNat)).finishFront stNvVerify 0 0
        (dataVerify 3 m.toNat)
    else s
  | none =>
    if rest.isEmpty then
      s.finishFront stOk 0 (BitVec.ofNat 64 (s.flashField 3 (base + 0x1FF004) 4)) 0
    else
      match calFault (s.flashBytes 3 base o.len) with
      | some k => s.finishFront stImageInvalid 0 0 (dataInvalid k)
      | none => (s.modFront fun x => { x with steps := rest }).checkStep

/-- A flash read of the front operation ends. -/
def readDone (mismatch : Option W32) (fail : Option W64) (s : State) : State :=
  match s.nv.ops with
  | [] => s
  | o :: _ =>
    match o.steps with
    | .read :: rest =>
      if !s.nvRuns || !o.started || o.paused.isSome then s
      else
        match o.op.toNat with
        | 0xB2 => s.stageRead o mismatch
        | 0xB3 => s.commitRead o mismatch
        | 0xB4 => s.calRead o rest mismatch
        | _ =>
          match fail with
          | some a => s.finishFront stOutOfRange 24 0 (a.setWidth 192)
          | none =>
            (s.hostWrite o.fn o.addr ((List.range o.len).map fun i => s.regionByte o.region (o.off + i))).finishFront
              stOk 0 0 0
    | _ => s

/-- R441, R444, R446, R1057, R1058, R1061: FLASH_READ_COMPLETE; `mismatch` is the offset of the first byte which reads
back wrongly, `fail` a host address which NV_READ cannot write. -/
def execFlashReadComplete (mismatch : Option W32) (fail : Option W64) (s : State) :
    Host.Outcome State Fault Refusal := .next (readDone mismatch fail s)

/-! ### Operations which end without completion (R117, R1062, R1063) -/

/-- One write which the remaining energy allows (R1146): `budget` counts those still possible. -/
def State.budgeted (x : State × Nat) (f : State → State) : State × Nat :=
  if x.2 = 0 then x else (f x.1, x.2 - 1)

/-- R1063: a sector erase was suspended and its operation ends: a KIND 0x03 entry names the sector, whose contents are
its old data or 0xFF throughout. (Log entry 83 DESIGN CHOICE.) -/
def State.leaveErase (x : State × Nat) (o : NvOp) (region off : Nat) : State × Nat :=
  let d := x.1.draw
  let commit := o.op != 0xB1 && decide (off % 0x200000 = 0x1FF000 ∨ off = imageCommit)
  let t := if commit || Config.sectorErased d.1 then d.2.eraseSector region off else d.2
  State.budgeted (t, x.2) fun u =>
    (u.journal { seq := 0, kind := 3, done := 0xFF, opcode := 0, region := BitVec.ofNat 8 region, tick := u.tick, offset := off, len := 0, ref := o.entry.getD 0 }).1

/-- An operation is gone from the queue, and its journal entry, if it has one, is marked as ended.
(Log entry 83 DESIGN CHOICE.) -/
def State.dropNv (x : State × Nat) (o : NvOp) (stopped : Nat) : State × Nat × Nat :=
  let z := match o.entry with
    | some k => State.budgeted x fun u => u.setDone k 0xA5
    | none => x
  ({ z.1 with nv := { z.1.nv with ops := z.1.nv.ops.filter fun p => p.id != o.id } }, z.2, stopped)

/-- The bytes of the program operation under way are written. -/
def State.programNow (o : NvOp) (region off : Nat) (bytes : List Byte) (s : State) : State :=
  let t := s.doProgram region off bytes
  if o.op = 0xB3 then { t with nv := { t.nv with staged := false } } else t

/-- R81 step 4, R117, R1062: an operation is brought to a safe point and ends without completion. Answers the state, the
writes still possible, and bits 0 and 1 of STOPPED (R1064). -/
def State.endNv (x : State × Nat) (o : NvOp) : State × Nat × Nat :=
  if !o.started then State.dropNv x o 0
  else
    match o.steps with
    | .program r off b :: _ =>
      if o.paused.isSome then State.dropNv x o 0
      else
        State.dropNv (State.budgeted x (State.programNow o r off b)) o 1
    | .erase r off :: _ =>
      if o.paused.isSome && !o.eraseCut then
        State.dropNv (if o.op = 0xB2 && off = imageCommit then (x.1.eraseSector r off, x.2) else x) o 0
      else State.dropNv (State.leaveErase x o r off) o 2
    | _ => State.dropNv x o 0

/-- The operations which satisfy a test end; the one under way first. Answers as `State.endNv`. -/
def State.endNvs (x : State × Nat) (p : NvOp → Bool) : State × Nat × Nat :=
  (x.1.nv.ops.filter p).foldl (fun (y : State × Nat × Nat) o =>
    let z := State.endNv (y.1, y.2.1) o
    (z.1, z.2.1, y.2.2 ||| z.2.2)) (x.1, x.2, 0)

/-- A number of writes which no energy limits. -/
abbrev allWrites : Nat := 0x100000000

/-- R77: the front operation has been paused for 10 s: it ends with ST_SUPPLY_LOW. -/
def State.frontTimedOut (s : State) (o : NvOp) : State :=
  let r := State.endNv (s, allWrites) o
  r.1.complete o.id stSupplyLow 0 0 0 (s.supplyStatus.setWidth 192)

/-- R1063: the erases which AON_CHECK scheduled are made again once the gate holds. -/
def State.runReerase (s : State) : State :=
  if !s.gate then s
  else
    let t := s.forEach s.nv.reerase fun k u =>
      match u.nv.journal.find? fun e => e.seq == k with
      | some e => (u.eraseSector e.region.toNat e.offset).setDone k 0
      | none => u
    { t with nv := { t.nv with reerase := [] } }

/-- R76: the front operation resumes. -/
def State.resumeFront (s : State) : State :=
  match s.nv.ops with
  | [] => s
  | o :: _ =>
    match o.paused with
    | none => s
    | some since =>
      let t := (s.modFront fun x => { x with paused := none, eraseCut := false }).occur o.fn 0x6008
        (nvEvent o.op o.qp o.tag) (s.tick - since)
      if o.entry.isNone && o.op != 0xB0 then t.beginFront else t

/-! ### The commands (R441 to R446, R1055 to R1061) -/

/-- An operation enters the queue of R1046. -/
def State.queueNv (s : State) (o : NvOp) : State := { s with nv := { s.nv with ops := s.nv.ops ++ [o] } }

/-- The operation of a packet. -/
def nvOp (fn : FnNo) (qp : QpNo) (p : Packet) (op : BitVec 8) (region off len : Nat) (addr : W64) (id : Nat) : NvOp :=
  { id, fn, qp, op, tag := p.tag, region, off, len, addr, data := none, old := [], started := false, steps := [], entry := none,
    paused := none, eraseCut := false }

/-- R74: check 10: the supply gate. -/
def State.gateCheck (s : State) : Option Rej := supplyLow (!s.gate) s.supplyStatus

/-- NV_READ in R375, R156. -/
def specNvRead : CmdSpec :=
  { op := 0xB0, len := 24, long := true, anyPhase := true, used := usedBits [(8, 1), (12, 4), (16, 4), (24, 8)] }

/-- LENGTH and ADDR of R441. -/
def chkNvFields (p : Packet) : Option Rej :=
  (badField (p.u32 16 == 0 || decide (0x1000000 < p.u32 16)) 16).or <| badField (p.u64 24 == 0 || p.u64 24 % 64 != 0) 24

/-- R442: the range lies within the region. -/
def State.nvRange (s : State) (p : Packet) : Option Rej :=
  let size := s.regionSize (p.u8 8).toNat
  let off := (p.u32 12).toNat
  outOfRange (decide (size < off + (p.u32 16).toNat)) 12 (BitVec.ofNat 64 (max off size)) 0

/-- R441, R442: checks 6 and 8 of NV_READ. -/
def chkNvRead (fn : FnNo) (p : Packet) (s : State) : Option Rej :=
  (badField (p.u8 8 == 0 || decide (9 < p.u8 8)) 8).or <| (chkNvFields p).or <|
  (notPermitted (decide (fn.val ≠ 0) && p.u8 8 != 3 && p.u8 8 != 8) 8).or (s.nvRange p)

/-- R441, R442: NV_READ. -/
def execNvRead (fn : FnNo) (qp : QpNo) (pkt : Packet) (s : State) : Host.Outcome State Fault Refusal :=
  .next (longCommand specNvRead fn qp pkt (chkNvRead fn pkt) (fun _ => none) (fun _ t => t)
    (fun id t => t.queueNv (nvOp fn qp pkt 0xB0 (pkt.u8 8).toNat (pkt.u32 12).toNat (pkt.u32 16).toNat (pkt.u64 24) id))
    s)

/-- NV_WRITE in R375. -/
def specNvWrite : CmdSpec :=
  { op := 0xB1, len := 24, long := true, pfOnly := true, used := usedBits [(8, 1), (12, 4), (16, 4), (24, 8)] }

/-- R441, R442: checks 6 and 8 of NV_WRITE. -/
def chkNvWrite (p : Packet) (s : State) : Option Rej :=
  (badField (p.u8 8 != 7) 8).or <| (badField (p.u32 12 % 4096 != 0) 12).or <|
  (badField (p.u32 16 % 4096 != 0) 16).or <| (chkNvFields p).or (s.nvRange p)

/-- R441, R442, R74: NV_WRITE. -/
def execNvWrite (fn : FnNo) (qp : QpNo) (pkt : Packet) (s : State) : Host.Outcome State Fault Refusal :=
  .next (longCommand specNvWrite fn qp pkt (chkNvWrite pkt) State.gateCheck (fun _ t => t)
    (fun id t => t.queueNv (nvOp fn qp pkt 0xB1 7 (pkt.u32 12).toNat (pkt.u32 16).toNat (pkt.u64 24) id)) s)

/-- R443: SRC_ADDR and LENGTH, at most `top`. -/
def chkSource (p : Packet) (top : Nat) : Option Rej :=
  (badField (p.u64 8 == 0 || p.u64 8 % 64 != 0) 8).or <|
  badField (decide (p.u32 16 < 256) || decide (top < (p.u32 16).toNat) || p.u32 16 % 256 != 0) 16

/-- FW_STAGE in R375, R156. -/
def specFwStage : CmdSpec :=
  { op := 0xB2, len := 16, long := true, pfOnly := true, recovery := true, used := usedBits [(8, 8), (16, 4)] }

/-- R443, R444, R1056, R1057: FW_STAGE. -/
def execFwStage (fn : FnNo) (qp : QpNo) (pkt : Packet) (s : State) : Host.Outcome State Fault Refusal :=
  .next (longCommand specFwStage fn qp pkt (fun _ => chkSource pkt 0xFFF000) State.gateCheck
    (fun _ t => { t with nv := { t.nv with staged := false } })
    (fun id t => t.queueNv (nvOp fn qp pkt 0xB2 0 0 (pkt.u32 16).toNat (pkt.u64 8) id)) s)

/-- FW_COMMIT in R375, R156. -/
def specFwCommit : CmdSpec := { op := 0xB3, len := 0, long := true, pfOnly := true, recovery := true, used := 0 }

/-- R445, R1058: FW_COMMIT. -/
def execFwCommit (fn : FnNo) (qp : QpNo) (pkt : Packet) (s : State) : Host.Outcome State Fault Refusal :=
  .next (longCommand specFwCommit fn qp pkt (fun t => badState (!t.nv.staged)) State.gateCheck (fun _ t => t)
    (fun id t => t.queueNv (nvOp fn qp pkt 0xB3 0 0 64 0 id)) s)

/-- CAL_STORE in R375. -/
def specCalStore : CmdSpec :=
  { op := 0xB4, len := 16, long := true, pfOnly := true, used := usedBits [(8, 8), (16, 4)] }

/-- R443, R446, R1060, R1061: CAL_STORE. -/
def execCalStore (fn : FnNo) (qp : QpNo) (pkt : Packet) (s : State) : Host.Outcome State Fault Refusal :=
  .next (longCommand specCalStore fn qp pkt (fun _ => chkSource pkt 0x1FF000) State.gateCheck (fun _ t => t)
    (fun id t => t.queueNv (nvOp fn qp pkt 0xB4 3 0 (pkt.u32 16).toNat (pkt.u64 8) id)) s)

end Sys2Proof.Machine
end

