-- ==== Sys2Proof/Machine/Panel.lean ====
section
/-!
DEFINITION. The status panel (24): the composite image, refreshes and redraws, PANEL_DRAW and PANEL_STATUS.
-/

namespace Sys2Proof.Machine

/-! ### The composite image (R1065, R1067, R1070) -/

/-- A byte with its bits in the opposite order. -/
def flipByte (b : Byte) : Byte :=
  (List.range 8).foldl (fun (a : Byte) i => if b.getLsbD i then a ||| (1#8 <<< (7 - i)) else a) 0

/-- The 4736 bytes of an image: the supervisor's rows, whose pixels the spec leaves open, and rows 48 to 127.
(Log entry 81 DESIGN CHOICE.) -/
def imageBytes (n : Nat) (px : BitVec 23680) : List Byte :=
  (List.range 1776).map (Config.panelByte n) ++
    (List.range 2960).map fun j => flipByte (px.extractLsb' (8 * j) 8)

/-- Rows 48 to 127 of an image. -/
def imagePixels (b : List Byte) : BitVec 23680 :=
  (List.range 2960).foldl (fun (a : BitVec 23680) j =>
    a ||| ((flipByte ((b[1776 + j]?).getD 0)).setWidth 23680 <<< (8 * j))) 0

/-- The image in a PANEL_STORE slot. (Log entry 48 DEDUCED.) -/
def State.storedPixels (s : State) (off : Nat) : BitVec 23680 := imagePixels (s.flashBytes 6 off 4736)

/-- R1070: an image is written into a PANEL_STORE slot. -/
def State.storeImage (s : State) (off : Nat) (px : BitVec 23680) : State :=
  let d := s.draw
  (((d.2.eraseSector 6 off).eraseSector 6 (off + 4096))).programPage 6 off (imageBytes d.1 px)

/-- The panel's record changes. -/
def State.modPanel (s : State) (f : Panel → Panel) : State := { s with panel := f s.panel }

/-! ### HIF_PANEL_STATUS (R245) -/

/-- R245: HIF_PANEL_STATUS. -/
def State.panelStatus (s : State) : W32 :=
  BitVec.ofNat 32 (65536 * s.panel.count.toNat + (if s.nv.journal.any s.isUnresolved then 8 else 0) +
    (if s.panel.refresh.isSome then 4 else 0) + (if s.panel.glyph then 2 else 0) + (if s.panel.pending then 1 else 0))

/-! ### Refreshes (R1070 to R1078) -/

/-- A refresh begins, of an image, with an OPCODE and REF of its journal entry. (Log entry 84 DEDUCED.) -/
def State.beginRefresh (s : State) (px : BitVec 23680) (opcode : BitVec 8) (ref : Nat) : State :=
  let slot := 1 - s.panel.lastSlot
  let t := s.storeImage (slot * 0x8000) px
  let j := t.journal { seq := 0, kind := 2, done := 0xFF, opcode, region := 6, tick := t.tick, offset := slot * 0x8000, len := 0, ref }
  let r : Refresh := { entry := j.2, opcode, slot, phases := 0, stop := false, regions := s.panel.touched }
  (j.1.modPanel fun p => { p with
    refresh := some r, lastSlot := slot, changed := none, due := false, touched := 0, pending := false }).emit (.panel 0)

/-- R1071: the bitmaps which have been read are applied in their order, and the refresh carries them. -/
def State.carryDraws (s : State) : State :=
  s.forEach (s.panel.draws.filter fun d => !d.carried) fun d t => t.modPanel fun p => { p with
    pixels := drawRegion p.pixels d.region d.bitmap
    touched := p.touched ||| (1#10 <<< d.region)
    draws := p.draws.map fun x => if x.id = d.id then { x with carried := true } else x }

/-- R76, R87: PANEL_DRAWs which a refresh would carry pause while the supply gate does not hold. -/
def State.pauseDraws (s : State) (p : Draw → Bool) : State :=
  s.forEach (s.panel.draws.filter fun d => p d && d.paused.isNone) fun d t =>
    (t.modPanel fun q => { q with
      draws := q.draws.map fun x => if x.id = d.id then { x with paused := some t.tick } else x }).occur d.fn 0x6007
      (nvEvent 0xC0 d.qp d.tag) 0

/-- R87: the PANEL_DRAWs which a refresh carries resume. -/
def State.resumeDraws (s : State) : State :=
  s.forEach (s.panel.draws.filter fun d => d.carried && d.paused.isSome) fun d t =>
    (t.modPanel fun q => { q with
      draws := q.draws.map fun x => if x.id = d.id then { x with paused := none } else x }).occur d.fn 0x6008
      (nvEvent 0xC0 d.qp d.tag) (t.tick - d.paused.getD 0)

/-- R448, R1070 to R1077: the next refresh begins: a redraw which waits, then the draws which wait, then the
supervisor's own change when it is due. -/
def startRefresh (s : State) : State :=
  if s.panel.refresh.isSome || !s.nvRuns then s
  else if s.panel.redraw.isSome then
    if !s.gate then s
    else
      let k := s.panel.redraw.getD 0
      let off := ((s.nv.journal.find? fun e => e.seq == k).map (·.offset)).getD (s.panel.lastSlot * 0x8000)
      ((s.modPanel fun p => { p with redraw := none }).beginRefresh (s.storedPixels off) 3 k).resumeDraws
  else if s.panel.draws.any fun d => !d.carried then
    if !s.gate then s.pauseDraws fun d => !d.carried
    else
      let t := s.carryDraws
      (t.beginRefresh t.panel.pixels 1 0).resumeDraws
  else if s.panel.due && s.gate then s.beginRefresh s.panel.pixels 2 0
  else s

/-- R1070: PANEL_REFRESH_START. -/
def execPanelRefreshStart (s : State) : Host.Outcome State Fault Refusal := .next (startRefresh s)

/-- R1073: 10 s have passed since the first change of the supervisor's regions: the refresh starts, or waits its turn. -/
def identityTimer (s : State) : State :=
  match s.panel.changed with
  | none => s
  | some since => startRefresh ((s.reach (since + 8000000000)).modPanel fun p => { p with due := true })

/-- R1073: IDENTITY_CHANGE_TIMER. -/
def execIdentityChangeTimer (s : State) : Host.Outcome State Fault Refusal := .next (identityTimer s)

/-- R1079: stratum 0, and the tenants whose granted region is among those which a refresh changed. -/
def State.panelTold (s : State) (regions : BitVec 10) : List FnNo :=
  (List.finRange 16).filter fun n => n.val = 0 || (s.liveStrata.contains n && (s.strata[n].panelGrant != 0) &&
    (regions.getLsbD s.strata[n].panelGrant.toNat || regions.getLsbD 9))

/-- R1070, R1075, R1078, R1079: a refresh completes. -/
def State.refreshDone (s : State) (r : Refresh) : State :=
  let t := (s.setDone r.entry 0).modPanel fun p => { p with
    refresh := none, count := p.count + 1, glyph := r.opcode == 3 }
  let carried := t.panel.draws.filter fun d => d.carried
  let t := t.modPanel fun p => { p with draws := p.draws.filter fun d => !d.carried }
  let t := t.raise 0 causePanel
  let t := t.occurAll (t.panelTold r.regions) 0xC000
    (BitVec.ofNat 64 (t.panel.count.toNat + (if t.panel.glyph then 65536 else 0) + 2 ^ 24 * r.opcode.toNat))
    (BitVec.ofNat 64 r.entry)
  t.forEach carried fun d u => u.completeOk d.id 0 0

/-- R79, R1075, R1077, R1079: a refresh is stopped at a phase boundary; a redraw of its image follows.
(Log entry 84 DEDUCED.) -/
def State.refreshStopped (s : State) (r : Refresh) : State :=
  let t := (s.setDone r.entry 0x5A).modPanel fun p => { p with
    refresh := none, redraw := some r.entry, pending := true, touched := p.touched ||| r.regions }
  let drawn := t.panel.draws.filter fun d => d.carried
  let dests := (List.finRange 16).filter fun n =>
    n.val = 0 || (t.liveStrata.contains n && drawn.any fun d => d.fn == n)
  let last := if r.phases = 0 then 0xFF else r.phases - 1
  ((t.raise 0 causePanel).occurAll dests 0xC001 (BitVec.ofNat 64 last) (BitVec.ofNat 64 r.entry)).pauseDraws fun d => d.carried

/-- R1070: a waveform phase ends; the last completes the refresh, unless the refresh is stopped at the boundary.
(Log entry 84 DEDUCED.) -/
def phaseEnds (s : State) : State :=
  match s.panel.refresh with
  | none => s
  | some r =>
    if !s.nvRuns then s
    else
      let r : Refresh := { r with phases := r.phases + 1 }
      if r.stop then s.refreshStopped r
      else if r.phases = 8 then s.refreshDone r
      else (s.modPanel fun p => { p with refresh := some r }).emit (.panel r.phases)

/-- R1070: WAVEFORM_PHASE_END. -/
def execWaveformPhaseEnd (s : State) : Host.Outcome State Fault Refusal := .next (phaseEnds s)

/-- R79, R117: the refresh under way is to stop at its next phase boundary. (Log entry 84 DEDUCED.) -/
def State.stopRefresh (s : State) : State :=
  s.modPanel fun p => { p with refresh := p.refresh.map fun r => { r with stop := true } }

/-- R77: a PANEL_DRAW has been paused for 10 s: it ends with ST_SUPPLY_LOW. -/
def State.drawTimedOut (s : State) (d : Draw) : State :=
  (s.modPanel fun p => { p with draws := p.draws.filter fun x => x.id != d.id }).complete d.id stSupplyLow 0 0 0
    (s.supplyStatus.setWidth 192)

/-! ### PANEL_DRAW and PANEL_STATUS (R447 to R450) -/

/-- PANEL_DRAW in R375. -/
def specPanelDraw : CmdSpec := { op := 0xC0, len := 16, long := true, used := usedBits [(8, 1), (16, 8)] }

/-- R447: checks 6 and 8 of PANEL_DRAW. -/
def chkPanelDraw (fn : FnNo) (p : Packet) (s : State) : Option Rej :=
  (badField (p.u8 8 == 0 || decide (9 < p.u8 8)) 8).or <|
  (badField (p.u64 16 == 0 || p.u64 16 % 64 != 0) 16).or <|
  notPermitted (decide (fn.val ≠ 0) && p.u8 8 != s.strata[fn].panelGrant) 8

/-- R1067: bytes of a region's bitmap. -/
def bitmapBytes (r : Nat) : Nat := if r = 9 then 2960 else 400

/-- R448: the bitmap has been read and waits for its refresh, or its read failed. -/
def queueDraw (fn : FnNo) (qp : QpNo) (p : Packet) (host : List Byte) (fail : Option W64) (id : Nat) (s : State) : State :=
  match fail with
  | some a => s.complete id stOutOfRange 16 0 0 (a.setWidth 192)
  | none =>
    let r := (p.u8 8).toNat
    let n := bitmapBytes r
    let d : Draw := { id, fn, qp, tag := p.tag, region := r, bitmap := (host ++ List.replicate n 0).take n, carried := false, paused := none }
    s.modPanel fun q => { q with draws := q.draws ++ [d] }

/-- R447, R448: PANEL_DRAW; `host` is the bitmap in host memory, `fail` the address at which its read fails. -/
def execPanelDraw (fn : FnNo) (qp : QpNo) (pkt : Packet) (host : List Byte) (fail : Option W64) (s : State) :
    Host.Outcome State Fault Refusal :=
  .next (longCommand specPanelDraw fn qp pkt (chkPanelDraw fn pkt) State.gateCheck (fun _ t => t)
    (queueDraw fn qp pkt host fail) s)

/-- PANEL_STATUS in R375. -/
def specPanelStatus : CmdSpec := { op := 0xC1, len := 0, used := 0 }

/-- R450: PANEL_STATUS. -/
def execPanelStatus (fn : FnNo) (qp : QpNo) (pkt : Packet) (s : State) : Host.Outcome State Fault Refusal :=
  .next (shortCommand specPanelStatus fn qp pkt (fun _ => none) (fun _ => none)
    (fun t => (t, { r0 := t.panelStatus.setWidth 64 ||| (t.strata[fn].panelGrant.setWidth 64 <<< 32) })) s)

end Sys2Proof.Machine
end

