-- ==== Sys2Proof/Machine/Access.lean ====
section
/-!
DEFINITION. BAR2 (05 R249 to R258), what BAR0 reads return (R195 to R246), opcodes which are not listed (R26), and
cancelled commands (R286).
-/

namespace Sys2Proof.Machine

/-! ### BAR2 -/

/-- R249: the view address which a BAR2 offset reaches. -/
def State.bar2View (s : State) (fn : FnNo) (o : Nat) : Nat :=
  if o < 0x80000000 then o else s.strata[fn].aperture + (o - 0x80000000)

/-- The view addresses of an access. -/
def State.bar2Addrs (s : State) (fn : FnNo) (o n : Nat) : List Nat :=
  (List.range n).map fun (i : Nat) => s.bar2View fn (o + i)

/-- R255: the function's stratum exists and is not being destroyed. -/
def State.bar2Stratum (s : State) (fn : FnNo) : Bool := s.strata[fn].live && !s.strata[fn].destroying

/-- R254: the slot of this moment serves a BAR2 access of the function's stratum; one which is made in another slot waits,
and is served when it is presented in a slot which does. (Log entries 3 DESIGN CHOICE, 124 DEDUCED.) -/
def State.bar2Slot (s : State) (fn : FnNo) : Bool := !s.bar2Stratum fn || s.slotServes fn

/-- R255: bytes at view addresses, unless one is refused. (Log entry 124 DEDUCED.) -/
def State.bar2Bytes (s : State) (fn : FnNo) (as : List Nat) : Option (List Byte) :=
  as.mapM fun a => match s.viewRead fn a with | .ok b => some b | .error _ => none

/-- R249, R252, R255, R689, R714, R760: a BAR2 read. `found` is what error correction found at its first byte.
(Log entry 124 DEDUCED.) -/
def bar2Read (fn : FnNo) (o n : Nat) (found : Ecc) (s : State) : State :=
  let as := s.bar2Addrs fn o n
  let mine := s.bar2Stratum fn
  let t := match as with | a :: _ => if mine then s.foundAt fn a found else s | [] => s
  let lost := match as with | a :: _ => s.readLost fn a found | [] => false
  match if mine && !lost then t.bar2Bytes fn as else none with
  | some b => t.emit (.bar2Data fn b)
  | none => (t.emit (.bar2Data fn (List.replicate n 0))).raise fn causeAccessErr

/-- R249, R254: BAR2_READ. -/
def execBar2Read (fn : FnNo) (offset : W32) (size : Nat) (found : Ecc) (s : State) : Host.Outcome State Fault Refusal :=
  .next (hostAccess fn (fun t => if t.bar2Slot fn then bar2Read fn offset.toNat size found t else t) s)

/-- R249, R253, R255, R750, R761, R766: a BAR2 write, which takes effect wholly or not at all.
(Log entry 124 DEDUCED.) -/
def bar2Write (fn : FnNo) (o : Nat) (b : List Byte) (s : State) : State :=
  let w := if s.bar2Stratum fn then s.viewWrite fn ((s.bar2Addrs fn o b.length).zip b) else (s, some (0, .refused))
  match w.2 with
  | none => w.1
  | some _ => s.raise fn causeAccessErr

/-- R249, R253, R254: BAR2_WRITE. -/
def execBar2Write (fn : FnNo) (offset : W32) (bytes : List Byte) (s : State) : Host.Outcome State Fault Refusal :=
  .next (hostAccess fn (fun t => if t.bar2Slot fn then bar2Write fn offset.toNat bytes t else t) s)

/-! ### BAR0 reads (R195, R199 to R212, R240, R245, R246) -/

/-- R200: HIF_ID. (Log entry 12 DESIGN CHOICE.) -/
def State.hifId (s : State) (fn : FnNo) : W32 :=
  0x48200000 ||| (if s.order32 then 0x3200 else 0x1600) ||| (if fn.val = 0 then 0 else 0x10) ||| BitVec.ofNat 32 fn.val

/-- R201: HIF_VERSION. (Log entry 129 DEDUCED.) -/
abbrev hifVersion : W32 := 0x01001000

/-- R204: HIF_CAPS. -/
def hifCaps (fn : FnNo) : W32 := 0x04CCC400 ||| (if fn.val = 0 then 0x80 else 0)

/-- R205: HIF_STATUS. -/
def State.hifStatus (s : State) (fn : FnNo) : W32 :=
  let x := s.strata[fn]
  let bit := fun (b : Bool) (i : Nat) => if b then 2 ^ i else 0
  BitVec.ofNat 32 (s.boot.phase.toNat * 2 ^ 28 + s.boot.fail.toNat * 2 ^ 20 + bit s.boot.degraded 19 + bit s.boot.fatal 18 +
    bit (fn.val = 0 || x.live) 17 + bit x.sealed 16 + bit x.repro 15 + bit (s.isolatedStrata.contains fn) 14)

/-- R209, R211: HIF_EVQ_BASE_LO. -/
def Evq.baseLo (e : Evq) : W32 :=
  (e.base.setWidth 32 &&& 0xFFFFF000) ||| (e.log2.setWidth 32 <<< 4) ||| (if e.error then 4 else 0) |||
    (if e.running then 2 else 0) ||| (if e.enable then 1 else 0)

/-- R210: HIF_SQn_SIZE. -/
def QPair.sizeReg (q : QPair) : W32 :=
  (if q.enable then 0x80000000 else 0) ||| (if q.running then 0x40000000 else 0) ||| (if q.error then 0x20000000 else 0) |||
    (q.cqLog2.setWidth 32 <<< 20) ||| (q.sqLog2.setWidth 32 <<< 16)

/-- R209, R210, R212: a register of a queue pair, by the offset in its block. -/
def QPair.read (q : QPair) (r : Nat) : W32 :=
  let lo := fun (b : W64) => b.setWidth 32 &&& 0xFFFFF000
  if r = 0x00 then lo q.sqBase else if r = 0x04 then q.sqBase.extractLsb' 32 32
  else if r = 0x08 then q.sizeReg else if r = 0x0C then q.tail.setWidth 32
  else if r = 0x10 then lo q.cqBase else if r = 0x14 then q.cqBase.extractLsb' 32 32
  else if r = 0x18 then q.cqHead.setWidth 32 else 0

/-- R244: a word of the MSI-X table or of the pending bit array. -/
def Func.msixRead (f : Func) (off : Nat) : W32 :=
  if off < 0x8400 then
    let e := f.msix[(Fin.ofNat 64 ((off - 0x8000) / 16) : Fin 64)]
    if off % 16 = 0 then e.addr.setWidth 32 else if off % 16 = 4 then e.addr.extractLsb' 32 32
    else if off % 16 = 8 then e.data else if e.masked then 1 else 0
  else
    f.pba.extractLsb' (8 * (off - 0x9000)) 32

/-- R195: what a 4-byte read of BAR0 returns, less the capture which a read of HIF_TICK_LO makes (R206). An offset which
is not listed reads zero (R19). -/
def State.readBar0 (s : State) (fn : FnNo) (off : Nat) : W32 :=
  let f := s.fns[fn]
  if off = 0x00 then s.hifId fn else if off = 0x04 then hifVersion else if off = 0x08 then hifCaps fn
  else if off = 0x0C then s.hifStatus fn
  else if off = 0x10 then f.intCause.setWidth 32 else if off = 0x14 then f.intMask.setWidth 32
  else if off = 0x18 then s.tick.setWidth 32 else if off = 0x1C then f.tickCapture
  else if off = 0x20 then f.evq.baseLo else if off = 0x24 then f.evq.base.extractLsb' 32 32
  else if off = 0x28 then f.evq.head.setWidth 32
  else if off = 0x100 ∧ fn.val = 0 then s.supplyStatus
  else if off = 0x104 ∧ fn.val = 0 then s.panelStatus
  else if 0x120 ≤ off ∧ off < 0x140 ∧ fn.val = 0 then s.boot.fatalLog[(Fin.ofNat 8 ((off - 0x120) / 4) : Fin 8)]
  else if msixRegion off then f.msixRead off
  else match qpRegister off with
    | some (n, r) => (f.qps[n]).read r
    | none => 0

/-- R195, R196, R206: an accepted read of BAR0 returns its register, or in the MSI-X parts its two registers; a read of
HIF_TICK_LO makes its capture. -/
def bar0Read (fn : FnNo) (off size : Nat) (s : State) : State :=
  if off = 0x18 then readTickLo fn s
  else s.emit (.readData fn ((s.readBar0 fn off).setWidth 64 |||
    (if size = 8 then (s.readBar0 fn (off + 4)).setWidth 64 <<< 32 else 0)))

/-- R196: a BAR0 read, or a write which R196 does not accept, of `size` bytes: an access which R196 does not accept is
refused, and any other read returns data. -/
def execAccessErr (fn : FnNo) (write : Bool) (offset : BitVec 16) (size : Nat) (s : State) :
    Host.Outcome State Fault Refusal :=
  .next (hostAccess fn (fun t =>
    if !bar0Legal offset.toNat size then refuseAccess fn write t
    else if write then t else bar0Read fn offset.toNat size t) s)

/-! ### Opcodes which are not listed, and cancelled commands -/

/-- R375, R306: the opcodes of the command reference. -/
def listedOpcodes : List Nat :=
  [0x01, 0x02, 0x03, 0x04, 0x10, 0x11, 0x12, 0x13, 0x14, 0x20, 0x21, 0x22, 0x23, 0x24, 0x30, 0x31, 0x32, 0x40, 0x41, 0x42,
   0x43, 0x44, 0x45, 0x46, 0x50, 0x51, 0x52, 0x53, 0x60, 0x61, 0x62, 0x63, 0x70, 0x71, 0x72, 0x73, 0x74, 0x80, 0x81, 0x90,
   0x91, 0xA0, 0xA1, 0xA2, 0xA3, 0xA4, 0xB0, 0xB1, 0xB2, 0xB3, 0xB4, 0xC0, 0xC1, 0xD0, 0xD1, 0xD2]

/-- R26, R274: UNLISTED_OPCODE: check 1. -/
def execUnlistedOpcode (fn : FnNo) (qp : QpNo) (opcode : BitVec 8) (pkt : Packet) (s : State) :
    Host.Outcome State Fault Refusal :=
  .next (if listedOpcodes.contains opcode.toNat then s else
    takeCommand fn qp opcode false pkt (fun t =>
      match t.fns[fn].qps[qp].chainFailed with
      | some tag => cancelReply fn qp opcode pkt tag t
      | none => rejectReply fn qp opcode pkt ⟨stBadOpcode, 0, 0, 0⟩ t) s)

/-- R286: CANCELLED_COMMAND: the next command of a chain which has failed. -/
def execCancelledCommand (fn : FnNo) (qp : QpNo) (opcode : BitVec 8) (pkt : Packet) (s : State) :
    Host.Outcome State Fault Refusal :=
  .next (match s.fns[fn].qps[qp].chainFailed with
    | none => s
    | some tag => takeCommand fn qp opcode false pkt (cancelReply fn qp opcode pkt tag) s)

end Sys2Proof.Machine
end

