-- ==== Sys2Proof/Machine/Board.lean ====
section
/-!
DEFINITION. The test access port (26 R1124 to R1128) and the supply of the Poica cages (R1122).
-/

namespace Sys2Proof.Machine

/-! ### The test access port -/

/-- Codes of R1125. -/
abbrev jtagBypass : BitVec 8 := 0xFF
/-- See `jtagBypass`. -/
abbrev jtagIdcode : BitVec 8 := 0x01
/-- See `jtagBypass`. -/
abbrev jtagSample : BitVec 8 := 0x02
/-- See `jtagBypass`. -/
abbrev jtagExtest : BitVec 8 := 0x00

/-- R1125: the code is not listed, or is that of BYPASS. (Log entry 126 DEDUCED.) -/
def jtagOther (code : BitVec 8) : Bool :=
  code != jtagIdcode && code != jtagSample && code != jtagExtest && !jtagPrivate code

/-- The sealed strata which exist, those being destroyed among them: their contents are not yet zeroed. -/
def State.sealedStrata (s : State) : List FnNo :=
  (List.finRange 16).filter fun n => (s.strata[n].live || s.strata[n].destroying) && s.strata[n].sealed

/-- R1127: the port answers in STANDBY and ACTIVE. (Log entry 126 DEDUCED.) -/
def State.jtagAnswers (s : State) : Bool := s.sup.power == .standby || s.sup.power == .active

/-- An instruction is loaded: the register which it puts between TDI and TDO captures a value.
(Log entry 126 DEDUCED.) -/
def State.jtagLoad (s : State) (code act : BitVec 8) (v : Option W32) : State :=
  if s.jtagAnswers then ({ s with jtag := code }).emit (.jtag act v) else s

/-- R1125: an instruction which acts as BYPASS. (Log entry 126 DEDUCED.) -/
def bypassAs (code : BitVec 8) (s : State) : State := s.jtagLoad code jtagBypass (some 0)

/-- R1125: BYPASS, or a code which is not listed. -/
def execBypass (code : BitVec 8) (s : State) : Host.Outcome State Fault Refusal :=
  .next (if jtagOther code then bypassAs code s else s)

/-- R1126: IDCODE. -/
def execIdcode (s : State) : Host.Outcome State Fault Refusal :=
  .next (s.jtagLoad jtagIdcode jtagIdcode (some 0x14820E97))

/-- R1125: SAMPLE/PRELOAD. -/
def execSamplePreload (s : State) : Host.Outcome State Fault Refusal := .next (s.jtagLoad jtagSample jtagSample none)

/-- R1125, R1128: EXTEST, which acts as BYPASS unless TEST_EN is high. -/
def execExtest (s : State) : Host.Outcome State Fault Refusal :=
  .next (if s.boot.testEn then s.jtagLoad jtagExtest jtagExtest none else bypassAs jtagExtest s)

/-- R479, R513: DEBUG_REFUSED of a debug access, or of trace capture, to stratum 0 and to every sealed stratum. -/
def State.debugRefused (s : State) (trace : Bool) : State :=
  s.occurAll (0 :: s.sealedStrata) 0x1004 (if trace then 2 else 1) 0

/-- R477 to R479, R1125: a private instruction, for debug access or for trace capture. While a sealed stratum exists it acts
as BYPASS, and is refused. (Log entry 140 DESIGN CHOICE.) -/
def execPrivateDebug (ins : PrivateIns) (s : State) : Host.Outcome State Fault Refusal :=
  .next (if !jtagPrivate ins.code || !s.jtagAnswers then s
    else if s.sealedStrata.isEmpty then s.jtagLoad ins.code ins.code none
    else (bypassAs ins.code s).debugRefused ins.trace)

/-! ### Cages (R1121, R1122) -/

/-- R1121: the ports of a cage. -/
def cagePorts (c : Fin 4) : List PortNo := [⟨2 * c.val, by omega⟩, ⟨2 * c.val + 1, by omega⟩]

/-- A cage's supply changes. (Log entry 128 DEDUCED.) -/
def State.setCage (s : State) (c : Fin 4) (v : Option Tick) : State :=
  s.forEach (cagePorts c) fun p t => t.modPort p fun q => { q with cageOff := v }

/-- R1122: since when a cage is switched off. -/
def State.cageOff (s : State) (c : Fin 4) : Option Tick := s.ports[(⟨2 * c.val, by omega⟩ : PortNo)].cageOff

/-- R1122: a cage exceeds its current limit, and is switched off. (Log entry 128 DEDUCED.) -/
def cageTrips (c : Fin 4) (s : State) : State :=
  if s.sup.power == .active && (s.cageOff c).isNone then s.setCage c (some s.tick) else s

/-- R1122: CAGE_OVERCURRENT. -/
def execCageOvercurrent (cage : Fin 4) (s : State) : Host.Outcome State Fault Refusal := .next (cageTrips cage s)

/-- One second in ticks. -/
abbrev oneSecond : Tick := 800000000

/-- R1122: a second later the cage is switched on again. (Log entry 128 DEDUCED.) -/
def cageRetries (c : Fin 4) (s : State) : State :=
  match s.cageOff c with
  | some t => if s.sup.power == .active then (s.reach (t + oneSecond)).setCage c none else s
  | none => s

/-- R1122: CAGE_RETRY. (Log entry 132 DESIGN CHOICE.) -/
def execCageRetry (cage : Fin 4) (s : State) : Host.Outcome State Fault Refusal := .next (cageRetries cage s)

end Sys2Proof.Machine
end

