-- ==== Sys2Proof/Machine/Channels.lean ====
section
/-!
DEFINITION. The channel commands (08): CHAN_BIND, CHAN_ROUTE, CHAN_UNBIND, CHAN_QUERY, QLINK_CONFIG and
QLINK_STATS.
-/

namespace Sys2Proof.Machine

/-- CHANNEL, at offset 8 of a channel command. -/
def Packet.chanNo (p : Packet) : Nat := (p.u16 8).toNat

/-- R377: legal values of CHANNEL. -/
def badChannel (p : Packet) : Option Rej := badField (decide (4095 < p.u16 8)) 8

/-- R377: check 7 for a channel which must be bound, with a test of its state. (Log entry 89 DEDUCED.) -/
def State.chanState (s : State) (p : Packet) (bad : Chan → Bool) : Option Rej :=
  match s.chan (Packet.chanNo p) with
  | none => badState true
  | some x => badState (bad x)

/-- R376: check 8 for the channel's owner; `exempt` lets stratum 0 name any channel. (Log entry 89 DEDUCED.) -/
def State.chanOwner (s : State) (fn : FnNo) (p : Packet) (exempt : Bool) : Option Rej :=
  match s.chan (Packet.chanNo p) with
  | none => none
  | some x => notOwner (x.stratum != fn && !(exempt && fn.val == 0)) 8 (Packet.chanNo p)

/-! ### CHAN_BIND (R387 to R390, R682, R695) -/

/-- CHAN_BIND in R375. -/
def specChanBind : CmdSpec :=
  { op := 0x43, len := 24, pfOnly := true
    used := usedBits [(8, 2), (10, 1), (11, 1), (12, 2), (14, 1), (16, 2), (18, 2), (20, 4)] }

/-- R387: the channel which a CHAN_BIND describes, with the credits which its CH has on the port. -/
def State.newChan (s : State) (p : Packet) : Chan :=
  let port : PortNo := Fin.ofNat 8 (p.u8 10).toNat
  let ch := (p.u16 12).toNat
  let old := s.ports[port].withdrawn.find? fun w => w.1 = ch
  let rx : Credit := match old with
    | some w => { limit := w.2.1.consumed, consumed := w.2.1.consumed }
    | none => Credit.zero
  { num := Packet.chanNo p, port, stratum := toFn (p.u8 11), partnerCh := ch, kind1 := p.u8 14 == 1
    floor := (p.u16 16).toNat, cap := (p.u16 18).toNat, period := (p.u32 20).toNat
    route := { slate := 0xFE, prog := 0, input := 0 }, pending := none, marks := 0, dropped := 0, starved := 0
    starvedClr := 0, lastSeq := BitVec.allOnes 64, maxSeq := none, noFrame := true, strayCounted := false, rx
    used := match old with | some w => w.2.2 | none => 0
    starvedSince := none, starvedFrom := 0, starvedSent := false, waitSince := none, slate := SlateCtx.empty
    q := { QEnd.initial with tx := (spGet s.ports[port].farCredits ch).getD Credit.zero } }

/-- A channel takes its place, by rising number. -/
def insertChan (l : List Chan) (x : Chan) : List Chan :=
  match l with
  | [] => [x]
  | y :: r => if x.num < y.num then x :: y :: r else y :: insertChan r x

/-- Up to `n` successive grants are made to a channel (R695). -/
def State.grantUpTo (c : Nat) : Nat → State → State
  | 0, s => s
  | n + 1, s =>
    match s.chan c with
    | some x => if s.mayGrant x && s.grantee.isSome then (s.grantOne c).grantUpTo c n else s
    | none => s

/-- The state with the channel bound and its floor allotted as far as the pool allows. -/
def State.withChan (s : State) (p : Packet) : State :=
  let x := s.newChan p
  ({ s with chans := insertChan s.chans x }).grantUpTo x.num x.floor

/-- R387, R388: checks 6 and 7 of CHAN_BIND, check 7 in the order of the fields. -/
def chkChanBind (p : Packet) (s : State) : Option Rej :=
  let x := s.newChan p
  let q := s.ports[x.port]
  (badChannel p).or <| (badField (decide (7 < p.u8 10)) 10).or <| (badField (decide (15 < p.u8 11)) 11).or <|
  (badField (decide (1023 < p.u16 12)) 12).or <| (badField (decide (1 < p.u8 14)) 14).or <|
  (badField (decide (p.u16 16 < 2)) 16).or <| (badField (decide (p.u16 18 < p.u16 16)) 18).or <|
  (badField (decide (p.u32 20 < 800)) 20).or <|
  (badState (!s.poolConfigured || (s.chan x.num).isSome)).or <|
  (s.linkDown (q.st != .active) x.port).or <|
  badState (!s.strata[x.stratum].live || s.strata[x.stratum].destroying || (s.chanOn x.port x.partnerCh).isSome ||
    decide (q.farChannels ≤ x.partnerCh) || (if x.kind1 then q.role != 1 else q.role != 0))

/-- R389, R682, R695: check 9 of CHAN_BIND. Stratum 0 has no CHAN_QUOTA.
(Log entries 29 DEDUCED, 148 DESIGN CHOICE.) -/
def resChanBind (p : Packet) (s : State) : Option Rej :=
  let x := s.newChan p
  let st := s.strata[x.stratum]
  let mine := s.chans.filter fun c => c.stratum == x.stratum
  let floors := (mine.map (·.floor)).sum + x.floor
  let got := (s.withChan p).allotment x.num
  (noResource (decide (1024 ≤ (s.chans.filter fun c => c.port == x.port).length)) 7).or <|
  (overQuota (x.stratum.val != 0 && decide (st.chanQuota ≤ mine.length)) st.chanQuota 4 (mine.length + 1)).or <|
  (overQuota (decide (st.ceiling < x.cap)) st.ceiling 5 x.cap).or <|
  (overQuota (decide (st.ceiling < floors)) st.ceiling 6 floors).or <|
  (rejIf (decide (got < x.floor)) ⟨stPoolExhausted, 0, BitVec.ofNat 64 got, BitVec.ofNat 64 x.floor⟩).or <|
  noResource (!x.kind1 && !s.partsAvailable 3) 4

/-- R390, R891, R1138: the channel is bound, takes its SYSTEM space, and its credits are advertised. -/
def chanBind (p : Packet) (s : State) : State × Res :=
  let x := s.newChan p
  let t := s.withChan p
  let t := if x.kind1 then t else ((t.takePart x.num).takePart x.num).takePart x.num
  let t := t.modPort x.port fun q => { q with
    withdrawn := q.withdrawn.filter fun w => w.1 ≠ x.partnerCh, farCredits := spDel q.farCredits x.partnerCh }
  (t.settlePool, { r0 := BitVec.ofNat 64 (t.allotment x.num) })

/-- R387 to R390: CHAN_BIND. -/
def execChanBind (fn : FnNo) (qp : QpNo) (pkt : Packet) (s : State) : Host.Outcome State Fault Refusal :=
  .next (shortCommand specChanBind fn qp pkt (chkChanBind pkt) (resChanBind pkt) (chanBind pkt) s)

/-! ### CHAN_ROUTE and CHAN_UNBIND (R391 to R395, R890, R941) -/

/-- CHAN_ROUTE in R375. -/
def specChanRoute : CmdSpec :=
  { op := 0x44, len := 8, long := true, used := usedBits [(8, 2), (10, 1), (12, 1), (13, 1)] }

/-- The route which a CHAN_ROUTE gives. -/
def Packet.route (p : Packet) : Route := { slate := p.u8 10, prog := (p.u8 12).toNat, input := (p.u8 13).toNat }

/-- R391: SLATE outside its legal values for a KIND, with PROG_ID. -/
def badSlate (kind1 : Bool) (r : Route) : Bool :=
  if kind1 then r.slate != 0xFE
  else !(decide (r.slate.toNat < 4) || r.slate == 0xFF || (r.slate == 0xFE && r.prog == 0))

/-- R392, R890: check 7 for SLATE. -/
def State.slateState (s : State) (x : Chan) (r : Route) : Option Rej :=
  let e : EngNo := Fin.ofNat 4 r.slate.toNat
  let up := (List.finRange 4).filter fun k => s.units.slates[k].up
  if !r.slated then none
  else
    (badState x.slate.image.isEmpty).or <|
    (rejIf (if r.slate = 0xFF then up.isEmpty else !s.units.slates[e].up)
      ⟨stUnitFenced, 0, if r.slate = 0xFF then 0xFFFF else (unitId 3 e.val).setWidth 64, 0⟩).or <|
    badState (if r.slate = 0xFF then up.all fun k => decide (1024 ≤ s.contextsOn k) else decide (1024 ≤ s.contextsOn e))

/-- R391, R392, R376, R941: checks 6 to 8 of CHAN_ROUTE. A CHANNEL which is not bound has no KIND: its SLATE is outside
the legal values when both KINDs forbid it. (Log entry 149 DESIGN CHOICE.) -/
def chkChanRoute (fn : FnNo) (p : Packet) (s : State) : Option Rej :=
  let r := Packet.route p
  let x := s.chan (Packet.chanNo p)
  (badChannel p).or <|
  (badField (match x with
    | some c => badSlate c.kind1 r
    | none => badSlate false r && badSlate true r) 10).or <|
  (badField (decide (16 < r.prog)) 12).or <|
  (badField (decide (7 < r.input) || (r.prog == 0 && r.input != 0)) 13).or <|
  (s.chanState p fun c => c.pending.isSome).or <|
  (match x with | some c => s.slateState c r | none => none).or <|
  (badState (r.prog != 0 && (match s.prog fn r.prog with | some g => g.loading.isSome | none => true))).or <|
  (badState (match x with
    | some c => c.kind1 && c.q.send && r.prog != 0 && s.chans.any fun y => y.num != c.num && y.stratum == c.stratum &&
        y.kind1 && y.q.send && y.route.prog == r.prog && y.route.input == r.input
    | none => false)).or <|
  s.chanOwner fn p false

/-- The acceptance of a CHAN_ROUTE or CHAN_UNBIND: the change waits for the channel's next FRAME_MARK. -/
def acceptRoute (p : Packet) (r : Route) (unbind : Bool) (id : Nat) (s : State) : State :=
  s.modChan (Packet.chanNo p) fun x => { x with
    pending := some { id, route := r, unbind, accepted := s.tick, switched := false } }

/-- R391 to R393, R874: CHAN_ROUTE. -/
def execChanRoute (fn : FnNo) (qp : QpNo) (pkt : Packet) (s : State) : Host.Outcome State Fault Refusal :=
  .next (longCommand specChanRoute fn qp pkt (chkChanRoute fn pkt) (fun _ => none)
    (acceptRoute pkt (Packet.route pkt) false) (fun _ t => t) s)

/-- CHAN_UNBIND in R375. -/
def specChanUnbind : CmdSpec := { op := 0x45, len := 8, long := true, pfOnly := true, used := usedBits [(8, 2)] }

/-- R394: checks 6 and 7 of CHAN_UNBIND. -/
def chkChanUnbind (p : Packet) (s : State) : Option Rej :=
  (badChannel p).or <| s.chanState p fun c => c.pending.isSome

/-- R394, R395: CHAN_UNBIND. -/
def execChanUnbind (fn : FnNo) (qp : QpNo) (pkt : Packet) (s : State) : Host.Outcome State Fault Refusal :=
  .next (longCommand specChanUnbind fn qp pkt (chkChanUnbind pkt) (fun _ => none)
    (acceptRoute pkt { slate := 0xFE, prog := 0, input := 0 } true) (fun _ t => t) s)

/-! ### CHAN_QUERY (R396) -/

/-- R396: the binding block of a channel. -/
def State.chanBlock (s : State) (x : Chan) : List Byte :=
  let now := match x.starvedSince with | some _ => (s.tick - x.starvedFrom).toNat | none => 0
  leBytes 1 x.port.val ++ leBytes 1 x.stratum.val ++ leBytes 2 x.partnerCh ++ leBytes 1 (if x.kind1 then 1 else 0) ++
  leBytes 1 x.route.slate.toNat ++ leBytes 1 x.route.prog ++ leBytes 1 x.route.input ++ leBytes 2 x.floor ++
  leBytes 2 x.cap ++ leBytes 2 (s.allotment x.num) ++ leBytes 2 0 ++ leBytes 8 x.marks ++
  leBytes 8 x.dropped.toNat ++ leBytes 8 (satAdd x.starved now).toNat ++ leBytes 8 x.lastSeq.toNat ++
  List.replicate 16 0

/-- CHAN_QUERY in R375. -/
def specChanQuery : CmdSpec := { op := 0x46, len := 16, used := usedBits [(8, 2), (16, 8)] }

/-- R376, R377, R396: checks 6 to 8 of CHAN_QUERY. -/
def chkChanQuery (fn : FnNo) (p : Packet) (s : State) : Option Rej :=
  (badChannel p).or <| (badBuf p 16).or <| (s.chanState p fun _ => false).or <| s.chanOwner fn p true

/-- R396: CHAN_QUERY. -/
def execChanQuery (fn : FnNo) (qp : QpNo) (pkt : Packet) (s : State) : Host.Outcome State Fault Refusal :=
  .next (shortCommand specChanQuery fn qp pkt (chkChanQuery fn pkt) (fun _ => none)
    (fun t => match t.chan (Packet.chanNo pkt) with
      | none => (t, {})
      | some x => let b := t.chanBlock x
                  (t.writeBlock fn (pkt.u64 16) b,
                    { r0 := BitVec.ofNat 64 (fieldNat b 0 8), r1 := BitVec.ofNat 64 (fieldNat b 8 8) })) s)

/-! ### QLINK_CONFIG and QLINK_STATS (R425, R426, R968 to R970) -/

/-- QLINK_CONFIG in R375. -/
def specQlinkConfig : CmdSpec :=
  { op := 0x80, len := 48, used := usedBits [(8, 2), (10, 1), (11, 1), (12, 1), (16, 4), (24, 32)] }

/-- OUTLIER_LIST. -/
def Packet.outlierList (p : Packet) : List Nat := (List.range 16).map fun i => (p.u16 (24 + 2 * i)).toNat

/-- The numbers ascend strictly. -/
def ascending : List Nat → Bool
  | [] => true
  | a :: r => (match r with | [] => true | b :: _ => decide (a < b)) && ascending r

/-- R968: the channel is busy with messages, so that its DIRECTION must stay. -/
def State.qBusy (s : State) (x : Chan) : Bool :=
  x.route.prog != 0 || !x.q.copies.isEmpty || !x.q.queue.isEmpty || !x.q.offers.isEmpty ||
    s.frames.any fun f => f.chan == x.num && (f.stage == .wide || (f.stage == .opened && !f.payload.isEmpty))

/-- R425, R968, R376: checks 6 to 8 of QLINK_CONFIG. -/
def chkQlinkConfig (fn : FnNo) (p : Packet) (s : State) : Option Rej :=
  let n := (p.u8 12).toNat
  (badChannel p).or <| (badField (decide (1 < p.u8 10)) 10).or <|
  (badField (p.u8 11 == 0 || decide (8 < p.u8 11)) 11).or <| (badField (decide (16 < n)) 12).or <|
  (badField (p.u32 16 == 0 || decide (0x1000000 < p.u32 16)) 16).or <|
  (badField ((Packet.outlierList p).drop n |>.any (· != 0)) 24).or <|
  (badField (!ascending ((Packet.outlierList p).take n)) 24).or <|
  (s.chanState p fun x => !x.kind1 || (x.q.send != (p.u8 10 == 0) && s.qBusy x)).or <|
  s.chanOwner fn p false

/-- R969, R947: the configuration of a channel end. -/
def qlinkConfig (p : Packet) (s : State) : State × Res :=
  let send := p.u8 10 == 0
  (s.modChan (Packet.chanNo p) fun x => { x with q := { x.q with
    send, k := (p.u8 11).toNat, outliers := (p.u8 12).toNat, outlierList := Packet.outlierList p
    clipThreshold := (p.u32 16).toNat, history := if send then [] else x.q.history
    msgSeq := if send then 0 else x.q.msgSeq } }, {})

/-- R425, R969: QLINK_CONFIG. -/
def execQlinkConfig (fn : FnNo) (qp : QpNo) (pkt : Packet) (s : State) : Host.Outcome State Fault Refusal :=
  .next (shortCommand specQlinkConfig fn qp pkt (chkQlinkConfig fn pkt) (fun _ => none) (qlinkConfig pkt) s)

/-- QLINK_STATS in R375. -/
def specQlinkStats : CmdSpec := { op := 0x81, len := 8, used := usedBits [(8, 2)] }

/-- R426, R376: checks 6 to 8 of QLINK_STATS. -/
def chkQlinkStats (fn : FnNo) (p : Packet) (s : State) : Option Rej :=
  (badChannel p).or <| (s.chanState p fun x => !x.kind1).or <| s.chanOwner fn p false

/-- R426, R970: QLINK_STATS. -/
def execQlinkStats (fn : FnNo) (qp : QpNo) (pkt : Packet) (s : State) : Host.Outcome State Fault Refusal :=
  .next (shortCommand specQlinkStats fn qp pkt (chkQlinkStats fn pkt) (fun _ => none)
    (fun t => match t.chan (Packet.chanNo pkt) with
      | none => (t, {})
      | some x =>
        let q := x.q
        (t, { r0 := if q.send then q.sent else q.narrow
              r1 := (if q.send then q.wideSent else q.wideCount).setWidth 64 |||
                ((if q.send then q.sentShare else q.share).setWidth 64 <<< 32) })) s)

end Sys2Proof.Machine
end

