-- ==== Sys2Proof/Machine/SlateCmds.lean ====
section
/-!
DEFINITION. The Slate commands (08, 20): SLATE_CONTEXT_LOAD, SLATE_PARAM_SET, SLATE_OUTPUT_CFG and
SLATE_SCHEDULE.
-/

namespace Sys2Proof.Machine

/-! ### Images (R277, R398, R933, R934) -/

/-- R277, R463: check 8 of a host structure read during validation, whose address stands at `off`: the read failed.
(Log entry 17 DEDUCED.) -/
def hostFault (host : HostData) (off : Nat) : Option Rej :=
  match host with
  | .error addr => some ⟨stOutOfRange, BitVec.ofNat 16 off, addr, 1⟩
  | .bytes _ => none

/-- Check 6 of a host structure which was read: what `chk` says of its first `n` bytes. -/
def hostLegal (host : HostData) (n : Nat) (chk : List Byte → Option Rej) : Option Rej :=
  match host with
  | .error _ => none
  | .bytes b => chk ((b ++ List.replicate n 0).take n)

/-- The bytes of a host structure which was read. -/
def hostBytes (host : HostData) (n : Nat) : List Byte :=
  match host with
  | .error _ => List.replicate n 0
  | .bytes b => (b ++ List.replicate n 0).take n

/-- R933, R934: the CRC of an image at an offset, over the image with the CRC taken as zero. -/
def imageCrcOk (b : List Byte) (o : Nat) : Bool :=
  fieldNat b o 4 == (crc32c (b.take o ++ List.replicate 4 0 ++ b.drop (o + 4))).toNat

/-- Every byte of a range is zero. -/
def zeroRange (b : List Byte) (o n : Nat) : Bool := (b.drop o |>.take n).all (· == 0)

/-- R933: a context image is legal on a port whose partner announced these limits. -/
def ctxLegal (b : List Byte) (maxSubconv sampleBits : Nat) : Bool :=
  let win := ctxWinLen b
  fieldNat b 0 4 == 0x54584353 && fieldNat b 4 2 == 1 && decide (1 ≤ ctxMosaic b) && decide (ctxMosaic b ≤ maxSubconv) &&
  decide (8 ≤ ctxSbits b) && decide (ctxSbits b ≤ 16) && sampleBits.testBit (ctxSbits b - 8) &&
  decide (256 ≤ ctxMaxSamples b) && decide (ctxMaxSamples b ≤ 65536) && decide (ctxInitialSet b ≤ 15) &&
  decide (ctxKsel b ≤ 2) && decide (1 ≤ fieldNat b 14 2) && decide (fieldNat b 14 2 ≤ 0x7FFF) &&
  fieldNat b 16 2 != 0x8000 && decide (positKey 16 (fieldNat b 16 2) < positKey 16 (fieldNat b 18 2)) &&
  decide (1024 ≤ ctxRasterSpan b) && decide (ctxRasterSpan b ≤ 65536) && decide (1 ≤ ctxDecay b) &&
  decide (ctxDecay b ≤ 15) && decide (fieldNat b 25 1 ≤ 1) && decide (1 ≤ ctxTensorSlots b) &&
  decide (ctxTensorSlots b ≤ 8) && decide (fieldNat b 27 1 ≤ 1) && decide (32 ≤ win) && decide (win ≤ 4096) &&
  win == 2 ^ win.log2 && zeroRange b 30 222 && imageCrcOk b 252

/-- R934: the entries of a correction set are legal. -/
def setEntriesLegal (b : List Byte) : Bool :=
  let m := fieldNat b 6 1
  let p := fun (o : Nat) => fieldNat b o 2
  ((List.range 16).all fun i => (List.range 16).all fun j => (List.range 4).all fun t =>
    let v := p (64 + 2 * (64 * i + 4 * j + t))
    v != 0x8000 && (v == 0 || (decide (i < m) && decide (j < m) && i != j))) &&
  (List.range 16).all fun i =>
    if i < m then
      p (2112 + 2 * i) != 0 && p (2112 + 2 * i) != 0x8000 && p (2144 + 2 * i) != 0x8000 && p (2176 + 2 * i) != 0x8000 &&
        decide ((setTau b i).natAbs ≤ 2 ^ 55)
    else p (2112 + 2 * i) == 0 && p (2144 + 2 * i) == 0 && p (2176 + 2 * i) == 0

/-- R934: a correction-set image is legal. -/
def setLegal (b : List Byte) : Bool :=
  fieldNat b 0 4 == 0x524F4353 && fieldNat b 4 2 == 1 && decide (1 ≤ fieldNat b 6 1) && decide (fieldNat b 6 1 ≤ 16) &&
  zeroRange b 7 53 && imageCrcOk b 60 && setEntriesLegal b && zeroRange b 2208 672

/-- Check 6 of CHANNEL, SET and SRC_ADDR (R397). -/
def chkSlateFields (p : Packet) (maxSet : Nat) : Option Rej :=
  (badChannel p).or <| (badField (decide (maxSet < (p.u8 10).toNat)) 10).or <|
  badField (p.u64 16 == 0 || p.u64 16 % 64 != 0) 16

/-- R398, R1139: check 7 of a channel whose SYSTEM space is to hold an image. -/
def State.slateTarget (s : State) (p : Packet) : Option Rej :=
  s.chanState p fun x => x.kind1 || x.slate.lostSpace

/-! ### SLATE_CONTEXT_LOAD (R397 to R399, R908, R929, R930) -/

/-- SLATE_CONTEXT_LOAD in R375. -/
def specSlateContextLoad : CmdSpec := { op := 0x50, len := 16, used := usedBits [(8, 2), (10, 1), (16, 8)] }

/-- R398, R930, R933: the image is legal for its channel. Where the channel is not bound for acquisition, or its port
holds no partner record, the widest limits apply. (Log entry 150 DESIGN CHOICE.) -/
def State.ctxImage (s : State) (p : Packet) (b : List Byte) : Option Rej :=
  let x := (s.chan (Packet.chanNo p)).filter fun c => !c.kind1
  let far := match x with | some c => s.ports[c.port].far | none => []
  let sub := if far.isEmpty then 16 else fieldNat far 24 1
  let bits := if far.isEmpty then 0x1FF else fieldNat far 26 2
  let leaves := match x with
    | some c => (outputAreas b c.slate.out).any fun a => (s.outsideArena c.stratum a.2.1 a.2.2).isSome
    | none => false
  badField (!ctxLegal b sub bits || leaves) 16

/-- Checks 6 to 8 of SLATE_CONTEXT_LOAD. (Log entry 17 DEDUCED.) -/
def chkSlateContextLoad (fn : FnNo) (p : Packet) (host : HostData) (s : State) : Option Rej :=
  (chkSlateFields p 0).or <| (hostLegal host 256 (s.ctxImage p)).or <|
  (s.slateTarget p).or <| (s.chanOwner fn p false).or (hostFault host 16)

/-- R399, R905, R908: the context is loaded: the histories read zero from the next frame on, and the set in force
is INITIAL_SET again. -/
def loadContext (p : Packet) (host : HostData) (s : State) : State × Res :=
  (s.modChan (Packet.chanNo p) fun x => { x with slate := { x.slate with
    image := hostBytes host 256, inForce := none, gen := x.slate.gen + 1 } }, {})

/-- R397 to R399: SLATE_CONTEXT_LOAD. -/
def execSlateContextLoad (fn : FnNo) (qp : QpNo) (pkt : Packet) (host : HostData) (s : State) :
    Host.Outcome State Fault Refusal :=
  .next (shortCommand specSlateContextLoad fn qp pkt (chkSlateContextLoad fn pkt host) (fun _ => none)
    (loadContext pkt host) s)

/-! ### SLATE_PARAM_SET (R397, R398, R906, R934) -/

/-- SLATE_PARAM_SET in R375. -/
def specSlateParamSet : CmdSpec := { op := 0x51, len := 16, used := usedBits [(8, 2), (10, 1), (16, 8)] }

/-- Checks 6 to 8 of SLATE_PARAM_SET. (Log entry 17 DEDUCED.) -/
def chkSlateParamSet (fn : FnNo) (p : Packet) (host : HostData) (s : State) : Option Rej :=
  (chkSlateFields p 15).or <| (hostLegal host 2880 fun b => badField (!setLegal b) 16).or <|
  (s.slateTarget p).or <| (s.chanOwner fn p false).or (hostFault host 16)

/-- R906: the set's slot holds the image, for frames whose opening FRAME_MARK comes later. -/
def paramSet (p : Packet) (host : HostData) (s : State) : State × Res :=
  let k : Fin 16 := Fin.ofNat 16 (p.u8 10).toNat
  (s.modChan (Packet.chanNo p) fun x => { x with slate := { x.slate with
    sets := vmod x.slate.sets k fun _ => hostBytes host 2880 } }, {})

/-- R397, R398, R906: SLATE_PARAM_SET. -/
def execSlateParamSet (fn : FnNo) (qp : QpNo) (pkt : Packet) (host : HostData) (s : State) :
    Host.Outcome State Fault Refusal :=
  .next (shortCommand specSlateParamSet fn qp pkt (chkSlateParamSet fn pkt host) (fun _ => none)
    (paramSet pkt host) s)

/-! ### SLATE_OUTPUT_CFG (R400 to R402, R911, R923, R924) -/

/-- SLATE_OUTPUT_CFG in R375. -/
def specSlateOutputCfg : CmdSpec :=
  { op := 0x52, len := 56
    used := usedBits [(8, 2), (10, 1), (11, 1), (12, 2), (14, 1), (16, 8), (24, 8), (32, 8), (40, 4), (48, 8)] }

/-- The configuration which a packet gives. -/
def Packet.slateOut (p : Packet) : SlateOut :=
  { mask := (p.u8 10).extractLsb' 0 3, density := (p.u8 11).getLsbD 0, spectrogram := (p.u8 11).getLsbD 1
    rasterDiv := (p.u16 12).toNat, slotsLog2 := (p.u8 14).toNat, rasterHost := (p.u64 16).toNat
    rasterAddr := (p.u64 24).toNat, codedAddr := (p.u64 32).toNat, codedBytes := (p.u32 40).toNat
    tensorAddr := (p.u64 48).toNat }

/-- R401, R463: check 8 of an enabled output's area. -/
def State.outputRange (s : State) (p : Packet) : Option Rej :=
  match s.chan (Packet.chanNo p) with
  | none => none
  | some x => (outputAreas x.slate.image (Packet.slateOut p)).findSome? fun a =>
      (s.outsideArena x.stratum a.2.1 a.2.2).map fun w => ⟨stOutOfRange, BitVec.ofNat 16 a.1, BitVec.ofNat 64 w, 0⟩

/-- R400, R401, R398, R924: checks 6 to 8 of SLATE_OUTPUT_CFG. -/
def chkSlateOutputCfg (fn : FnNo) (p : Packet) (s : State) : Option Rej :=
  let off := fun (b : Nat) => !(p.u8 10).getLsbD b
  (badChannel p).or <| (badField (decide (7 < p.u8 10)) 10).or <| (badField (decide (3 < p.u8 11)) 11).or <|
  (badField (decide (10 < p.u8 14) || (p.u16 12 == 0 && p.u8 14 != 0)) 14).or <|
  (badField (p.u64 16 % 4096 != 0 || (p.u16 12 == 0 && p.u64 16 != 0)) 16).or <|
  (badField (off 0 && p.u64 24 != 0) 24).or <| (badField (off 1 && p.u64 32 != 0) 32).or <|
  (badField (p.u32 40 % 65536 != 0) 40).or <| (badField (off 2 && p.u64 48 != 0) 48).or <|
  (s.chanState p fun x => x.kind1 || (p.u8 10 != 0 && x.slate.image.isEmpty)).or <|
  (s.chanOwner fn p false).or (s.outputRange p)

/-- R402, R911: the configuration is in force for frames which open later; a persistence raster which it enables
is cleared, and the first record of a coded ring starts at its beginning. The host raster ring goes on with the channel's
delivery count, whichever slot that names. (Log entry 152 DESIGN CHOICE.) -/
def outputCfg (p : Packet) (s : State) : State × Res :=
  let o := Packet.slateOut p
  let t := s.modChan (Packet.chanNo p) fun x => { x with slate := { x.slate with out := o, codedPos := 0 } }
  match s.chan (Packet.chanNo p) with
  | some x => (if o.mask.getLsbD 0 && !o.density then t.clearRaster x.stratum o.rasterAddr else t, {})
  | none => (t, {})

/-- R400 to R402: SLATE_OUTPUT_CFG. -/
def execSlateOutputCfg (fn : FnNo) (qp : QpNo) (pkt : Packet) (s : State) : Host.Outcome State Fault Refusal :=
  .next (shortCommand specSlateOutputCfg fn qp pkt (chkSlateOutputCfg fn pkt) (fun _ => none) (outputCfg pkt) s)

/-! ### SLATE_SCHEDULE (R404) -/

/-- SLATE_SCHEDULE in R375. -/
def specSlateSchedule : CmdSpec := { op := 0x53, len := 8, used := usedBits [(8, 2), (10, 1), (12, 2)] }

/-- R404, R376: checks 6 to 8 of SLATE_SCHEDULE. -/
def chkSlateSchedule (fn : FnNo) (p : Packet) (s : State) : Option Rej :=
  let stripe := p.u16 12
  (badChannel p).or <| (badField (decide (1 < p.u8 10)) 10).or <|
  (badField (if p.u8 10 == 1 then decide (stripe < 256) || decide (4096 < stripe) || stripe % 256 != 0
    else stripe != 0) 12).or <|
  (s.chanState p fun x => x.kind1).or <| s.chanOwner fn p false

/-- R404: SLATE_SCHEDULE. -/
def execSlateSchedule (fn : FnNo) (qp : QpNo) (pkt : Packet) (s : State) : Host.Outcome State Fault Refusal :=
  .next (shortCommand specSlateSchedule fn qp pkt (chkSlateSchedule fn pkt) (fun _ => none)
    (fun t => (t.modChan (Packet.chanNo pkt) fun x => { x with slate := { x.slate with
      stripeNext := (pkt.u16 12).toNat } }, {})) s)

end Sys2Proof.Machine
end

