-- ==== Sys2Proof/Machine/Package.lean ====
section
/-!
DEFINITION. The program package (R623 to R628, R1137): the header checks of PROG_LOAD and the package check.
-/

namespace Sys2Proof.Machine

/-! ### The header (R623, R624, R1137) -/

/-- R624: a variant summary holds legal values. -/
def summaryLegal (h : List Byte) (i : Nat) : Bool :=
  let v := variantOf h i
  let o := 64 + 8 * i
  decide (1 ≤ v.gr) && decide (v.gr ≤ 8) && decide (1 ≤ v.gc) && decide (v.gc ≤ 8) && decide (1 ≤ v.clusters) &&
    decide (v.clusters ≤ 64) && v.clusters % (v.gr * v.gc) == 0 && !v.planMask.testBit 0 &&
    decide (fieldNat h (o + 4) 1 ≤ 1) && fieldNat h (o + 5) 1 == 0 && decide (1 ≤ fieldNat h (o + 6) 2) &&
    decide (fieldNat h (o + 6) 2 ≤ 256)

/-- R624: no two summaries share CLUSTERS and a plan, and of those with one CLUSTERS value exactly one is DEFAULT. -/
def summariesAgree (vs : List (Nat × Variant)) : Bool :=
  vs.all fun a =>
    (vs.all fun b => a.1 == b.1 || a.2.clusters != b.2.clusters || a.2.planMask &&& b.2.planMask == 0) &&
    (vs.filter fun b => b.2.clusters == a.2.clusters && b.2.dflt).length == 1

/-- R406, R623, R1137: the header of a package of `length` bytes holds legal values. (Log entry 92 DEDUCED.) -/
def headerLegal (h : List Byte) (length : Nat) : Bool :=
  let f := fieldNat h
  let n := f 6 1
  let total := f 8 8
  f 0 4 == 0x474B5053 && f 4 2 == 1 && decide (1 ≤ n) && decide (n ≤ 16) && decide (1 ≤ f 7 1) &&
    decide (f 7 1 ≤ 8) && total == length && f 16 8 % granuleBytes == 0 && decide (total ≤ f 16 8) &&
    decide (f 24 1 ≤ 96) && (f 25 1 == 1 || f 25 1 == 2) && f 40 4 % 64 == 0 && decide (f 40 4 + 64 * n ≤ total) &&
    f 44 4 % 64 == 0 && decide (f 44 4 + f 48 4 ≤ total) && decide (f 52 4 + f 56 4 ≤ total) && zeroRange h 60 4 &&
    zeroRange h (64 + 8 * n) (128 - 8 * n) && zeroRange h 192 56 &&
    ((List.range n).all fun i => summaryLegal h i) && summariesAgree (variantsOf h)

/-- R623: INPUTS, TOTAL_BYTES, RESIDENT_BYTES, OUT_COUNT, OUT_ELEM, TABLE_MASK and MICA_VERSION of a header. -/
def hdrInputs (h : List Byte) : Nat := fieldNat h 7 1
def hdrTotal (h : List Byte) : Nat := fieldNat h 8 8
def hdrResident (h : List Byte) : Nat := fieldNat h 16 8
def hdrOutCount (h : List Byte) : Nat := fieldNat h 24 1
/-- Bytes of an element of OUT. -/
def hdrOutBytes (h : List Byte) : Nat := if fieldNat h 25 1 = 1 then 2 else 4
def hdrTableMask (h : List Byte) : Nat := fieldNat h 26 2
def hdrMicaVersion (h : List Byte) : Nat := fieldNat h 28 4

/-! ### The directory (R625) -/

/-- R625: the directory entry of variant `i`. -/
def dirAt (p : List Byte) (i : Nat) : Nat := fieldNat p 40 4 + 64 * i
def dirEntry (p : List Byte) (i : Nat) : Nat := fieldNat p (dirAt p i) 4
def dirCode (p : List Byte) (i : Nat) : Nat := fieldNat p (dirAt p i + 4) 4
def dirCodeBytes (p : List Byte) (i : Nat) : Nat := fieldNat p (dirAt p i + 8) 4
def dirGroups (p : List Byte) (i : Nat) : Nat := fieldNat p (dirAt p i + 12) 4
def dirGroupCount (p : List Byte) (i : Nat) : Nat := fieldNat p (dirAt p i + 16) 1
/-- V_COUNT (R409, R626). -/
def dirVCount (p : List Byte) (i : Nat) : Nat := fieldNat p (dirAt p i + 20) 4

/-- R625: the positions of a reduction group record, rank 0 first. -/
def groupAt (p : List Byte) (r : Nat) : List Nat :=
  let m := fieldNat p r 1
  if 2 ≤ m ∧ m ≤ 64 then ((p.drop (r + 2)).take m).map (·.toNat) else []

/-- R625: reduction group `g` (1 and up) of variant `i`. -/
def groupOf (p : List Byte) (i g : Nat) : List Nat := groupAt p (dirGroups p i + 128 * (g - 1))

/-- R625: the entry of a position and an input of variant `i`: its first micro-operation's offset in the package, and
their number. (Log entry 91 DEDUCED.) -/
def entryOf (p : List Byte) (i pos input : Nat) : Nat × Nat :=
  let r := dirEntry p i + 8 * (pos * hdrInputs p + input)
  (dirCode p i + 16 * fieldNat p r 4, fieldNat p (r + 4) 4)

/-- The micro-operations of an entry. -/
def codeOfEntry (p : List Byte) (i pos input : Nat) : List Uop :=
  let e := entryOf p i pos input
  uopsAt p e.1 e.2

/-! ### Micro-operations (R571, R606 to R614, R619, R628, R642 to R646, R675, R1150) -/

/-- What the check of a micro-operation needs to know of its entry. -/
structure UopCx where
  window : Nat
  outLimit : Nat
  groupCount : Nat
  tableMask : Nat
  pos : Nat
  gr : Nat
  gc : Nat

/-- R571, R628: where the check stands in an entry: the banks in quire32 form, and the slots which an SLOAD has named. -/
structure Scan where
  wideA : Bool
  wideB : Bool
  west : BitVec 8
  north : BitVec 8

/-- The bits of the header and operands which an opcode defines (R606, R609 to R614). (Log entry 93 DEDUCED.) -/
def uopUsed (opc : Nat) : Nat :=
  let head := 2 ^ 128 - 2 ^ 112
  let range := fun (hi lo : Nat) => 2 ^ (hi + 1) - 2 ^ lo
  head + (if opc = 1 then range 95 24 else if opc = 2 then range 95 14
    else if opc = 3 ∨ opc = 4 then range 95 77 else if opc = 5 then range 95 93
    else if opc = 6 ∨ opc = 7 then range 95 0 else if opc = 8 ∨ opc = 9 then range 95 40
    else if opc = 10 then range 95 16 else 0)

/-- R628: a scratch operand lies within the window. -/
def UopCx.inWindow (c : UopCx) (o len : Nat) : Bool := decide (o + len ≤ c.window)

/-- R569: the form of a bank as the scan has it. -/
def Scan.wide (x : Scan) (b : Bool) : Bool := if b then x.wideB else x.wideA

/-- R569: a bank's form is set. -/
def Scan.setWide (x : Scan) (b w : Bool) : Scan := if b then { x with wideB := w } else { x with wideA := w }

/-- R549, R571, R609, R628: STEP. (Log entry 93 DEDUCED.) -/
def stepLegal (c : UopCx) (x : Scan) (o : StepOp) : Bool :=
  let wide := if o.clear then o.fmt == 2 else x.wide o.bankB
  let row := outRow wide o.outFmt
  decide (o.fmt ≤ 2) && decide (o.k ≤ 2 ^ (9 - o.fmt)) && decide (o.reduce ≤ c.groupCount) &&
    x.west.getLsbD o.wslot && x.north.getLsbD o.nslot &&
    (if o.close then
      decide (o.outFmt ≤ 2) && decide (o.red ≤ 0xD) && (o.red != 0 || o.vdst == 0) && decide (row ≤ o.stride) &&
        !(wide && o.outFmt != 2) && c.inWindow (o.dst + 31 * o.stride) row &&
        c.inWindow o.vdst (128 * vectorsOf o.red)
    else o.outFmt == 0 && o.red == 0 && o.dst == 0 && o.stride == 0 && o.vdst == 0)

/-- R608, R610, R1150: SLOAD. -/
def sloadLegal (c : UopCx) (o : SloadOp) : Bool :=
  decide (o.esize ≤ 2) && decide (o.base ≤ 4) && decide (o.rows ≤ 512) && decide (o.cols ≤ 512) && o.stride != 0 &&
    decide (o.rows * o.cols * sizeBytes o.esize ≤ 0x4000) &&
    (o.base != 0 || c.inWindow (o.off + (o.rows - 1) * o.stride) (o.cols * sizeBytes o.esize))

/-- R608, R612, R628: GET and PUT. -/
def blockLegal (c : UopCx) (get : Bool) (o : BlockOp) : Bool :=
  let rows := o.local.1
  let len := o.local.2
  (if get then decide (1 ≤ o.base) && decide (o.base ≤ 4) else decide (3 ≤ o.base) && decide (o.base ≤ 5) && !o.trans) &&
    decide (o.esize ≤ 2) && o.rbytes != 0 && o.fstride != 0 && c.inWindow (o.loc + (rows - 1) * roundUp len 64) len &&
    (get || o.base != 5 || decide (o.off + (o.rows - 1) * o.fstride + o.rbytes ≤ c.outLimit))

/-- R592, R618: the neighbour of a position in a direction, within the group. -/
def neighbour (gr gc pos dir : Nat) : Option Nat :=
  let r := pos / gc
  let k := pos % gc
  if dir = 0 then (if r = 0 then none else some (pos - gc))
  else if dir = 1 then (if k + 1 < gc then some (pos + 1) else none)
  else if dir = 2 then (if r + 1 < gr then some (pos + gc) else none)
  else (if k = 0 then none else some (pos - 1))

/-- R613, R619: HSEND and HRECV. -/
def haloLegal (c : UopCx) (o : HaloOp) : Bool :=
  (neighbour c.gr c.gc c.pos o.dir).isSome && o.rbytes != 0 && decide (o.rbytes ≤ o.lstride) &&
    c.inWindow (o.loc + (o.rows - 1) * o.lstride) o.rbytes

/-- Two areas share no byte. -/
def apart (a b : Nat × Nat) : Bool := decide (a.1 + a.2 ≤ b.1) || decide (b.1 + b.2 ≤ a.1) || a.2 == 0 || b.2 == 0

/-- R645: the areas of a MICA operation overlap only as they may. -/
def MicaOp.areasLegal (o : MicaOp) : Bool :=
  match o.areas with
  | [s, d, a] =>
    (apart s d || (s.1 == d.1 && o.inFmt == o.outFmt && !o.rowLayout)) && apart s a && apart d a
  | _ => true

/-- R642 to R646, R675: MICA. (Log entry 93 DEDUCED.) -/
def micaLegal (c : UopCx) (o : MicaOp) : Bool :=
  (o.builtin || o.rowFunc || o.table || o.mprog) && decide (o.inFmt ≤ 2) && decide (o.outFmt ≤ 2) && o.count != 0 &&
    decide (o.sel ≤ 2) && o.mid == 0 && (!o.fin || o.func == 0x12) && (!o.vec || o.func == 0x10 || o.mprog) &&
    (!o.init || o.func == 0x10 || o.func == 0x12) && (o.func != 0x10 || (o.outFmt == 0 && o.dst == 0)) &&
    (o.auxBytes != 0 || o.aux == 0) && (!o.table || c.tableMask.testBit (o.func - 0x20)) &&
    (!o.mprog || c.tableMask.testBit (8 + o.func - 0x30)) && (o.sel != 2 || o.compatible) && o.areasLegal &&
    o.areas.all fun a => a.2 == 0 || c.inWindow a.1 a.2

/-- R628: the micro-operation is legal where it stands. (Log entry 93 DEDUCED.) -/
def uopLegal (c : UopCx) (x : Scan) (u : Uop) : Bool :=
  let opc := opcOf u
  decide (1 ≤ opc) && decide (opc ≤ 13) && u.toNat &&& (2 ^ 128 - 1 - uopUsed opc) == 0 &&
    (if opc = opcStep then stepLegal c x (stepOp u)
    else if opc = opcSload then sloadLegal c (sloadOp u)
    else if opc = opcQsave then
      let o := bankOp u
      decide (o.form ≤ 2) && (x.wide o.bankB == (o.form == 2)) && c.inWindow o.addr o.bytes
    else if opc = opcQload then decide ((bankOp u).form ≤ 2) && c.inWindow (bankOp u).addr (bankOp u).bytes
    else if opc = opcQclear then (bankOp u).form == 1 || (bankOp u).form == 2
    else if opc = opcGet then blockLegal c true (blockOp u)
    else if opc = opcPut then blockLegal c false (blockOp u)
    else if opc = opcHsend || opc = opcHrecv then haloLegal c (haloOp u)
    else if opc = opcMica then micaLegal c (micaOp u)
    else true)

/-- The scan moves past a micro-operation. -/
def scanNext (x : Scan) (u : Uop) : Scan :=
  let opc := opcOf u
  if opc = opcStep then
    let o := stepOp u
    if o.clear then x.setWide o.bankB (o.fmt == 2) else x
  else if opc = opcSload then
    let o := sloadOp u
    if o.north then { x with north := x.north ||| (1#8 <<< o.slot.val) }
    else { x with west := x.west ||| (1#8 <<< o.slot.val) }
  else if opc = opcQload || opc = opcQclear then x.setWide (bankOp u).bankB ((bankOp u).form == 2)
  else x

/-- The offsets of an entry's illegal micro-operations; `o` is the offset of the first one. -/
def scanEntry (c : UopCx) : Scan → Nat → List Uop → List Nat
  | _, _, [] => []
  | x, o, u :: r =>
    let rest := scanEntry c (scanNext x u) (o + 16) r
    if uopLegal c x u then rest else o :: rest

/-- R628: an entry ends with its only END; else the offset of the first END, or of the last micro-operation when there
is none. -/
def endFault (o : Nat) (us : List Uop) : List Nat :=
  match us.findIdx? fun u => opcOf u == opcEnd with
  | some k => if k + 1 = us.length then [] else [o + 16 * k]
  | none => [o + 16 * (us.length - 1)]

/-- R626: the micro-operation is marked "V". -/
def markedV (u : Uop) : Bool := opcOf u == opcStep && (stepOp u).close && (stepOp u).reduce != 0

/-! ### The package check (R628) -/

/-- R625, R580: the offsets of the failing items of a reduction group record. -/
def groupFaults (p : List Byte) (positions r : Nat) : List Nat :=
  let m := fieldNat p r 1
  let ms := groupAt p r
  if ms.isEmpty then [r]
  else
    let late := (List.range (126 - m)).find? fun k => fieldNat p (r + 2 + m + k) 1 != 0
    let bad := (List.range m).find? fun k =>
      let x := (ms[k]?).getD 0
      decide (positions ≤ x) || (ms.take k).contains x
    (if fieldNat p (r + 1) 1 = 0 then [] else [r + 1]) ++ (match bad with | some k => [r + 2 + k] | none => []) ++
      match late with | some k => [r + 2 + m + k] | none => []

/-- R625, R628: the offsets of the failing items of one variant. Items which a bad directory field places outside the package
have offsets above that field's. -/
def variantFaults (p : List Byte) (i : Nat) : List Nat :=
  let v := variantOf p i
  let d := dirAt p i
  let total := hdrTotal p
  let inputs := hdrInputs p
  let cells := v.gr * v.gc
  let n := dirGroupCount p i
  let code := dirCode p i
  let reserved := ([17, 18, 19] ++ (List.range 40).map (24 + ·)).filter fun k => fieldNat p (d + k) 1 != 0
  let fields := (if dirEntry p i + 8 * cells * inputs ≤ total then [] else [d]) ++
    (if code + dirCodeBytes p i ≤ total then [] else [d + 4]) ++
    (if dirCodeBytes p i % 16 = 0 then [] else [d + 8]) ++
    (if n = 0 ∨ dirGroups p i + 128 * n ≤ total then [] else [d + 12])
  let more := (if n ≤ 63 then [] else [d + 16]) ++ (reserved.take 1).map (d + ·)
  let groups := ((List.range n).map fun g => groupFaults p cells (dirGroups p i + 128 * g)).flatten
  let entries := (List.range (cells * inputs)).map fun e =>
    let r := dirEntry p i + 8 * e
    let k := fieldNat p (r + 4) 4
    let first := fieldNat p r 4
    if k < 1 ∨ 65536 < k then ([r + 4], 0)
    else if dirCodeBytes p i / 16 < first + k then ([r], 0)
    else
      let o := code + 16 * first
      let us := uopsAt p o k
      let c : UopCx := { window := v.window, outLimit := min 192 (hdrOutCount p * hdrOutBytes p), groupCount := n
                         tableMask := hdrTableMask p, pos := e / inputs, gr := v.gr, gc := v.gc }
      (scanEntry c { wideA := false, wideB := false, west := 0, north := 0 } o us ++ endFault o us,
        (us.filter markedV).length)
  let count := (entries.map (·.2)).sum
  fields ++ more ++ groups ++ (entries.map (·.1)).flatten ++ (if count = dirVCount p i then [] else [d + 20])

/-- R627: PKG_CRC. -/
def packageCrcOk (p : List Byte) : Bool :=
  fieldNat p 248 8 == (crc64 (p.take 248 ++ List.replicate 8 0 ++ p.drop 256)).toNat

/-- R628: DATA of ST_IMAGE_INVALID for a package, or none when it passes. `version` is the module's MICA_VERSION.
(Log entry 92 DEDUCED.) -/
def packageFault (p : List Byte) (version : Nat) : Option Nat :=
  if !packageCrcOk p then some 0xFFFFFFFF
  else if hdrMicaVersion p ≠ 0 ∧ hdrMicaVersion p ≠ version then some 28
  else
    match ((List.range (fieldNat p 6 1)).map (variantFaults p)).flatten with
    | [] => none
    | x :: r => some (r.foldl min x)

end Sys2Proof.Machine
end

