-- ==== Sys2Proof/Machine/Programs.lean ====
section
/-!
DEFINITION. Programs and their launches (08, 13): PROG_LOAD and the package check, PROG_UNLOAD, LAUNCH,
LAUNCH_AT_TICK, BARRIER, FRAME_ABORT, EVENT_WAIT, and the frame result rings.
-/

namespace Sys2Proof.Machine

/-! ### PROG_LOAD (R405 to R409, R629, R630, R1025) -/

/-- PROG_LOAD in R375. -/
def specProgLoad : CmdSpec :=
  { op := 0x60, len := 32, used := usedBits [(8, 8), (16, 4), (24, 8)], long := true }

/-- R274, R405, R406: checks 6 and 8 of PROG_LOAD; within check 6 the lowest offset decides, so that an illegal header field
(DETAIL 8) comes before LENGTH and ARENA_ADDR. A resident size beyond the 2 GiB of the view is cut there, which changes no
lowest address. (Log entry 17 DEDUCED.) -/
def chkProgLoad (fn : FnNo) (p : Packet) (host : HostData) (s : State) : Option Rej :=
  let len := p.u32 16
  let resident := min (hdrResident (hostBytes host 256)) 0x80010000
  (badField (p.u64 8 == 0 || p.u64 8 % 64 != 0) 8).or <|
  (hostLegal host 256 fun b => badField (!headerLegal b len.toNat) 8).or <|
  (badField (len % 64 != 0 || decide (len < 256) || decide (0x80000000 < len)) 16).or <|
  (badField (p.u64 24 % 0x10000 != 0) 24).or <|
  (hostFault host 8).or <|
  (s.outsideArena fn (p.u64 24).toNat resident).map fun a => ⟨stOutOfRange, 24, BitVec.ofNat 64 a, 0⟩

/-- A program which a PROG_LOAD would make; its PROG_ID is the lowest free one (R408). -/
def State.newProg (s : State) (fn : FnNo) (p : Packet) (header : List Byte) (id : Nat) : Prog :=
  let pid := ((List.range 16).map (· + 1)).find? fun k => (s.prog fn k).isNone
  { stratum := fn, id := pid.getD 0, pkg := [], header, arena := (p.u64 24).toNat, loading := some id, unloading := []
    variant := none, origins := [], windows := [], reselect := false, unfit := false, launch := none, ring := ResultRing.empty }

/-- R463: the clusters for which a package carries a variant. -/
def variantMask (header : List Byte) : W64 :=
  (variantsOf header).foldl (fun m v => m ||| (1#64 <<< (v.2.clusters - 1))) 0

/-- R407, R629, R630: check 9 of PROG_LOAD. -/
def resProgLoad (fn : FnNo) (p : Packet) (host : HostData) (s : State) : Option Rej :=
  let h := hostBytes host 256
  (noResource (decide (16 ≤ (s.progs.filter fun x => x.stratum == fn).length)) 8).or <|
  if (selectVariant h (s.heldCells fn) s.plans.inForce).isNone then
    some ⟨stCapacityLost, 0, BitVec.ofNat 64 (s.heldCells fn).length, variantMask h⟩
  else noResource (s.selection (s.newProg fn p h 0)).isNone 4

/-- R408, R629, R630: the PROG_ID, the variant and the windows are reserved. -/
def reserveProg (fn : FnNo) (p : Packet) (host : HostData) (id : Nat) (s : State) : State :=
  let x := s.newProg fn p (hostBytes host 256) id
  match s.selection x with
  | none => { s with progs := s.progs ++ [x] }
  | some v => { s with progs := s.progs ++ [{ x with variant := some v.1, origins := v.2.1, windows := v.2.2 }] }

/-- R1025: the validation of a PROG_LOAD restores the unmapped clusters of its stratum. One which fails validation all the
same changes nothing (R276). (Log entry 18 DEDUCED.) -/
def State.atProgLoad (fn : FnNo) (qp : QpNo) (pkt : Packet) (host : HostData) (s : State) : State :=
  let t := s.restoreFor fn 64
  if s.boot.phase == phReady && (s.fns[fn].qps[qp].chainFailed).isNone &&
      (validate specProgLoad fn pkt (chkProgLoad fn pkt host t) (resProgLoad fn pkt host t) t).isNone then t else s

/-- R405 to R408, R1025: PROG_LOAD. (Log entry 18 DEDUCED.) -/
def execProgLoad (fn : FnNo) (qp : QpNo) (pkt : Packet) (host : HostData) (s : State) :
    Host.Outcome State Fault Refusal :=
  .next (takeCommand fn qp specProgLoad.op true pkt (fun t =>
    longBody specProgLoad fn qp pkt (chkProgLoad fn pkt host) (resProgLoad fn pkt host) (reserveProg fn pkt host)
      (fun _ u => u) (t.atProgLoad fn qp pkt host)) s)

/-- A program leaves its stratum, and its PROG_ID is free. -/
def State.dropProg (s : State) (n : FnNo) (pid : Nat) : State :=
  { s with progs := s.progs.filter fun p => !(p.stratum == n && p.id == pid) }

/-- The first granule of a resident package which cannot be written now: its view address and the error.
(Log entry 91 DEDUCED.) -/
def State.residentError (s : State) (n : FnNo) (base len : Nat) : Option (Nat × AccErr) :=
  (List.range (len / granuleBytes)).findSome? fun i =>
    (s.locError true (s.locate n (base + granuleBytes * i))).map fun e => (base + granuleBytes * i, e)

/-- R623: whole granules of an arena are zeroed. -/
def State.zeroView (s : State) (n : FnNo) (base granules : Nat) : State :=
  s.forEach (List.range granules) fun i t =>
    match t.locate n (base + granuleBytes * i) with
    | .geode a => { t with geo := { t.geo with mem := memClear t.geo.mem a granuleBytes } }
    | _ => t

/-- The package is written to its arena, over a zeroed work area (R623), for its first `granules` granules.
(Log entry 91 DEDUCED.) -/
def State.placePackage (s : State) (n : FnNo) (base : Nat) (pkg : List Byte) (granules : Nat) : State :=
  let cut := pkg.take (granuleBytes * granules)
  ((s.zeroView n base granules).viewWrite n
    ((List.range cut.length).zip cut |>.map fun x => (base + x.1, x.2))).1

/-- R408, R409, R628: the package has been read, for which Bus Master Enable is 1 (R1144). `host` gives its bytes, and
`fail` the host address of a read which failed. (Log entry 91 DEDUCED.) -/
def packageCheck (n : FnNo) (pid : Nat) (host : List Byte) (fail : Option W64) (s : State) : State :=
  match s.prog n pid with
  | none => s
  | some p =>
    match p.loading with
    | none => s
    | some id =>
      if !s.fns[n].busMaster then s
      else
      let t := s.dropProg n pid
      let total := hdrTotal p.header
      let pkg := p.header ++ ((host ++ List.replicate total 0).take total).drop 256
      let resident := hdrResident p.header
      match fail, packageFault pkg s.micaVersion, s.residentError n p.arena resident with
      | some a, _, _ => t.complete id stOutOfRange 8 0 0 (a.setWidth 192)
      | none, some o, _ => t.complete id stImageInvalid 0 0 0 (dataInvalid o)
      | none, none, some e =>
        let d := t.draw
        let u := d.2.placePackage n p.arena pkg (Config.progress d.1 % ((e.1 - p.arena) / granuleBytes + 1))
        match e.2 with
        | .reset unit cause => u.complete id stTargetReset 0 0 0 (dataTargetReset unit cause)
        | _ => u.complete id stOutOfRange 24 0 0 (BitVec.ofNat 192 e.1)
      | none, none, none =>
        let v := p.variant.getD 0
        let r0 := p.id + 2 ^ 8 * v + 2 ^ 16 * (variantOf p.header v).clusters
        let u := (s.placePackage n p.arena pkg (resident / granuleBytes)).modProg n pid fun x => { x with
          pkg, loading := none }
        (u.completeOk id (BitVec.ofNat 64 r0) (BitVec.ofNat 64 (dirVCount pkg v))).reselectProg n pid

/-- R408, R409, R628: PACKAGE_CHECK. -/
def execPackageCheck (stratum : FnNo) (prog : Nat) (host : List Byte) (fail : Option W64) (s : State) :
    Host.Outcome State Fault Refusal :=
  .next (packageCheck stratum prog host fail s)

/-! ### PROG_UNLOAD (R410, R553) -/

/-- R281, R377: the program is loaded. One whose PROG_UNLOAD has no completion is. -/
def State.loadedProg (s : State) (n : FnNo) (pid : Nat) : Option Prog := (s.prog n pid).filter fun p => p.loading.isNone

/-- PROG_ID at offset 8. -/
def badProgId (p : Packet) : Option Rej := badField (p.u8 8 == 0 || decide (16 < p.u8 8)) 8

/-- PROG_UNLOAD in R375. -/
def specProgUnload : CmdSpec := { op := 0x61, len := 8, used := usedBits [(8, 1)], long := true }

/-- R281, R296, R410: PROG_UNLOAD. Its effects come with its completion. (Log entry 141 DESIGN CHOICE.) -/
def execProgUnload (fn : FnNo) (qp : QpNo) (pkt : Packet) (s : State) : Host.Outcome State Fault Refusal :=
  .next (longCommand specProgUnload fn qp pkt
    (fun t => (badProgId pkt).or (badState (t.loadedProg fn (pkt.u8 8).toNat).isNone)) (fun _ => none)
    (fun id t => t.modProg fn (pkt.u8 8).toNat fun x => { x with unloading := x.unloading ++ [id] }) (fun _ t => t) s)

/-- A frame which the launch with a serial number serves, and which has no result (R297). (Log entry 94 DEDUCED.) -/
def Frame.owes (f : Frame) (serial : Nat) : Bool := f.launch == some serial && f.stage != .forwarding

/-- R410: a program's scratch windows, and the quire banks and operand slots of its clusters, read zero.
(Log entry 94 DEDUCED.) -/
def State.zeroProg (s : State) (p : Prog) : State :=
  let t := s.forEach p.extents fun w u =>
    match u.mapping[Fin.ofNat 64 w.1] with
    | some c => { u with scratch := vmod u.scratch c fun m => memClear m w.2.1 w.2.2 }
    | none => u
  t.forEach p.cells fun l u =>
    match u.mapping[Fin.ofNat 64 l] with
    | some c => { u with clusters := vmod u.clusters c fun _ => Cluster.fresh }
    | none => u

/-- R390: the route which discards. (Log entry 94 DEDUCED.) -/
def Route.discard : Route := { slate := 0xFE, prog := 0, input := 0 }

/-- R296 to R298, R410: the last channel-frame of a program which is being unloaded has its result, and the program goes. A
LAUNCH_AT_TICK which waits for its tick launches nothing then. A further PROG_UNLOAD of the program begins then, finds
nothing left and completes too. (Log entries 94 DEDUCED, 141 DESIGN CHOICE.) -/
def unloadDone (n : FnNo) (pid : Nat) (s : State) : State :=
  match s.prog n pid with
  | none => s
  | some p =>
    match p.unloading with
    | [] => s
    | id :: more =>
      let busy := match p.launch with
        | some l => s.frames.any fun f => f.owes l.serial
        | none => false
      if busy then s
      else
        let named := fun (c : Chan) => c.stratum == n && c.route.prog == pid
        let route := fun (c : Chan) => if named c then { c with route := Route.discard } else c
        let cancel := fun (d : Scheduled) => if d.stratum = n ∧ d.prog = pid then { d with prog := 0 } else d
        let t : State := (s.zeroProg p).dropProg n pid
        let t : State := { t with chans := t.chans.map route, scheduled := t.scheduled.map cancel }
        (t.completeOk id (BitVec.ofNat 64 (s.chans.filter named).length) 0).forEach more fun k u => u.completeOk k 0 0

/-- R410: PROG_UNLOAD_COMPLETE. -/
def execProgUnloadComplete (stratum : FnNo) (prog : Nat) (s : State) : Host.Outcome State Fault Refusal :=
  .next (unloadDone stratum prog s)

/-! ### LAUNCH and LAUNCH_AT_TICK (R413 to R415, R636, R637, R987, R988) -/

/-- The parameter bits of LAUNCH. -/
def usedLaunch : List (Nat × Nat) := [(8, 1), (9, 1), (10, 1), (11, 1), (12, 4), (16, 8), (24, 8)]

/-- LAUNCH in R375. -/
def specLaunch : CmdSpec := { op := 0x70, len := 32, used := usedBits usedLaunch }

/-- LAUNCH_AT_TICK in R375. -/
def specLaunchAtTick : CmdSpec :=
  { op := 0x71, len := 40, used := usedBits (usedLaunch ++ [(32, 8)]), long := true }

/-- R413, R637: check 6 of the fields which both commands have; `zero` are the bits of OPTIONS which must be zero. -/
def chkLaunchFields (fn : FnNo) (p : Packet) (zero : BitVec 8) (s : State) : Option Rej :=
  let wide := (p.u8 9).getLsbD 0 && match s.loadedProg fn (p.u8 8).toNat with
    | some x => decide (48 < hdrOutCount x.header)
    | none => false
  (badProgId p).or <| (badField (p.u8 9 &&& zero != 0 || wide) 9).or <|
  (badField (p.u8 10 != 0 && (decide (p.u8 10 < 6) || decide (63 < p.u8 10))) 10).or <|
  (badField (decide (p.u8 11 < 4) || decide (16 < p.u8 11)) 11).or <|
  (badField (p.u64 16 == 0 || p.u64 16 % 4096 != 0) 16).or <|
  badField (p.u64 24 == 0 || p.u64 24 % 8 != 0) 24

/-- R636: every slot of TABLE_MASK holds something. (Log entry 95 DEDUCED.) -/
def State.slotsHeld (s : State) (n : FnNo) (header : List Byte) : Bool :=
  (List.finRange 8).all fun i =>
    (!(hdrTableMask header).testBit i.val || !(s.tables[n])[i].image.isEmpty) &&
      (!(hdrTableMask header).testBit (8 + i.val) || !((s.mprogs[n])[i]).isEmpty)

/-- R414, R636: check 7 of both commands. A program whose LAUNCH_AT_TICK waits for its tick counts as launched.
(Log entry 95 DEDUCED.) -/
def chkLaunchState (fn : FnNo) (p : Packet) (s : State) : Option Rej :=
  let pid := (p.u8 8).toNat
  match s.loadedProg fn pid with
  | none => badState true
  | some x => badState (x.launch.isSome || (s.scheduled.any fun d => d.stratum == fn && d.prog == pid) ||
      !s.slotsHeld fn x.header)

/-- R413: the terms of a launch. -/
def launchTerms (p : Packet) (serial : Nat) (fromTick : Tick) : Launch :=
  { binary32 := (p.u8 9).getLsbD 0, modLog2 := ((p.u8 9).toNat / 16) % 8, vector := (p.u8 10).toNat
    ringLog2 := (p.u8 11).toNat, deadline := p.u32 12, ringAddr := p.u64 16, headAddr := p.u64 24, fromTick, serial }

/-- R415, R418: the launch takes effect, with an empty ring. -/
def State.launchProg (s : State) (n : FnNo) (pid : Nat) (l : Launch) : State :=
  s.modProg n pid fun x => { x with launch := some l, ring := ResultRing.empty }

/-- R413 to R415: LAUNCH. -/
def execLaunch (fn : FnNo) (qp : QpNo) (pkt : Packet) (s : State) : Host.Outcome State Fault Refusal :=
  .next (shortCommand specLaunch fn qp pkt
    (fun t => (chkLaunchFields fn pkt 0x8E t).or (chkLaunchState fn pkt t)) (fun _ => none)
    (fun t => (({ t with nextLaunch := t.nextLaunch + 1 }).launchProg fn (pkt.u8 8).toNat
      (launchTerms pkt t.nextLaunch t.tick), {})) s)

/-- R413, R414: checks of LAUNCH_AT_TICK. -/
def chkLaunchAtTick (fn : FnNo) (p : Packet) (s : State) : Option Rej :=
  (chkLaunchFields fn p 0x0E s).or <| (badField (decide (p.u64 32 ≤ s.tick)) 32).or <| (chkLaunchState fn p s).or <|
  rejIf ((p.u8 9).getLsbD 7 && !s.tickSynced) ⟨stTickUnsynced, 0, 0, 0⟩

/-- R413 to R415: LAUNCH_AT_TICK. -/
def execLaunchAtTick (fn : FnNo) (qp : QpNo) (pkt : Packet) (s : State) : Host.Outcome State Fault Refusal :=
  .next (longCommand specLaunchAtTick fn qp pkt (chkLaunchAtTick fn pkt) (fun _ => none)
    (fun id t => { t with
      nextLaunch := t.nextLaunch + 1
      scheduled := t.scheduled ++ [{ id, stratum := fn, prog := (pkt.u8 8).toNat, start := pkt.u64 32
                                     requireSync := (pkt.u8 9).getLsbD 7
                                     terms := launchTerms pkt t.nextLaunch (pkt.u64 32) }] })
    (fun _ t => t) s)

/-- R415, R987, R988: the global tick reaches the START_TICK which comes first of a stratum's LAUNCH_AT_TICKs.
(Log entries 95 DEDUCED, 96 DEDUCED.) -/
def startTick (n : FnNo) (s : State) : State :=
  let mine := s.scheduled.filter fun d => d.stratum == n
  match mine.find? fun d => mine.all fun e => decide (d.start ≤ e.start) with
  | none => s
  | some d =>
    let t : State := s.reach d.start
    let t : State := { t with scheduled := t.scheduled.filter fun e => e.id ≠ d.id }
    let l : Launch := { d.terms with serial := t.nextLaunch }
    (({ t with nextLaunch := t.nextLaunch + 1 }).launchProg n d.prog l).completeOk d.id 0 0

/-- R987: START_TICK_REACHED. -/
def execStartTickReached (stratum : FnNo) (s : State) : Host.Outcome State Fault Refusal := .next (startTick stratum s)

/-! ### BARRIER, FRAME_ABORT and EVENT_WAIT (R421 to R424) -/

/-- The stratum whose channel a frame belongs to. -/
def State.ownsFrame (s : State) (n : FnNo) (f : Frame) : Bool :=
  match s.chan f.chan with
  | some c => c.stratum == n
  | none => false

/-- BARRIER in R375. -/
def specBarrier : CmdSpec := { op := 0x72, len := 0, used := 0, long := true }

/-- R421: what a BARRIER waits for. -/
def acceptBarrier (fn : FnNo) (id : Nat) (s : State) : State :=
  let owed := s.frames.filter fun f => f.launch.isSome && f.stage != .forwarding && s.ownsFrame fn f
  let queues := (List.finRange 4).filter fun k => (s.fns[fn].qps[k].awaiting).isSome
  { s with barriers := s.barriers ++ [{ id, stratum := fn, below := id, queues
                                        frames := owed.map fun f => (f.chan, BitVec.ofNat 64 f.seq) }] }

/-- R421: BARRIER. -/
def execBarrier (fn : FnNo) (qp : QpNo) (pkt : Packet) (s : State) : Host.Outcome State Fault Refusal :=
  .next (longCommand specBarrier fn qp pkt (fun _ => none) (fun _ => none) (acceptBarrier fn) (fun _ t => t) s)

/-- R421: the conditions of a BARRIER hold. -/
def State.barrierMet (s : State) (b : BarrierWait) : Bool :=
  !(s.outst.any fun o => o.fn == b.stratum && decide (o.id < b.below)) && b.queues.isEmpty &&
    b.frames.all fun e =>
      match s.frame e.1 e.2.toNat with
      | some f => f.stage == .forwarding
      | none => true

/-- R421: the first BARRIER of a stratum whose conditions hold completes. -/
def barrierDone (n : FnNo) (s : State) : State :=
  match s.barriers.find? fun b => b.stratum == n && s.barrierMet b with
  | none => s
  | some b => ({ s with barriers := s.barriers.filter fun x => x.id ≠ b.id }).completeOk b.id 0 0

/-- R421: BARRIER_COMPLETE. -/
def execBarrierComplete (stratum : FnNo) (s : State) : Host.Outcome State Fault Refusal := .next (barrierDone stratum s)

/-- FRAME_ABORT in R375. -/
def specFrameAbort : CmdSpec := { op := 0x73, len := 8, used := usedBits [(8, 2)] }

/-- R376, R377, R422: checks 6 to 8 of FRAME_ABORT. (Log entry 89 DEDUCED.) -/
def chkFrameAbort (fn : FnNo) (p : Packet) (s : State) : Option Rej :=
  if p.u16 8 = 0xFFFF then none
  else (badChannel p).or <| (s.chanState p fun _ => false).or <| s.chanOwner fn p false

/-- R422: the named channel-frames end with ST_FRAME_ABORTED. (Log entry 97 DEDUCED.) -/
def abortFrames (fn : FnNo) (p : Packet) (s : State) : State × Res :=
  let l := (s.unresolvedOf fn).filter fun f => p.u16 8 == 0xFFFF || f.chan == Packet.chanNo p
  (s.abortAll l, { r0 := BitVec.ofNat 64 l.length })

/-- R422: FRAME_ABORT. -/
def execFrameAbort (fn : FnNo) (qp : QpNo) (pkt : Packet) (s : State) : Host.Outcome State Fault Refusal :=
  .next (shortCommand specFrameAbort fn qp pkt (chkFrameAbort fn pkt) (fun _ => none) (abortFrames fn pkt) s).drainArea

/-- R302: the number of listed occurrence types of each group. -/
def occurTypes : List (BitVec 8 × Nat) :=
  [(0x10, 5), (0x20, 5), (0x40, 2), (0x50, 5), (0x60, 9), (0x70, 5), (0x80, 3), (0x90, 4), (0xA0, 7), (0xC0, 2)]

/-- R302, R423: a listed occurrence type. -/
def occurType (t : W16) : Bool := occurTypes.any fun g => t.extractLsb' 8 8 == g.1 && decide ((t &&& 0xFF).toNat < g.2)

/-- EVENT_WAIT in R375. -/
def specEventWait : CmdSpec :=
  { op := 0x74, len := 24, used := usedBits [(8, 1), (10, 2), (12, 2), (16, 8), (24, 8)], long := true }

/-- R376, R377, R423: checks 6 to 8 of EVENT_WAIT. (Log entry 89 DEDUCED.) -/
def chkEventWait (fn : FnNo) (p : Packet) (s : State) : Option Rej :=
  let kind := p.u8 8
  let bound := s.chan (p.u16 10).toNat
  (badField (kind == 0 || decide (3 < kind)) 8).or <|
  (badField (if kind == 2 then decide (4095 < p.u16 10) else p.u16 10 != 0) 10).or <|
  (badField (if kind == 3 then !occurType (p.u16 12) else p.u16 12 != 0) 12).or <|
  (badField (kind == 3 && p.u64 16 != 0) 16).or <| (badState (kind == 2 && bound.isNone)).or <|
  match bound with
  | some c => notOwner (kind == 2 && c.stratum != fn) 10 (p.u16 10).toNat
  | none => none

/-- R423: the wait is recorded. -/
def acceptWait (fn : FnNo) (p : Packet) (id : Nat) (s : State) : State :=
  { s with waits := s.waits ++ [{ id, stratum := fn, kind := p.u8 8, chan := (p.u16 10).toNat, evType := p.u16 12
                                  value := p.u64 16, accepted := s.tick, timeout := p.u64 24, hit := false }] }

/-- R423: EVENT_WAIT. -/
def execEventWait (fn : FnNo) (qp : QpNo) (pkt : Packet) (s : State) : Host.Outcome State Fault Refusal :=
  .next (longCommand specEventWait fn qp pkt (chkEventWait fn pkt) (fun _ => none) (acceptWait fn pkt)
    (fun _ t => t) s)

/-- R424: the condition of a wait for a frame or an occurrence holds. (Log entry 98 DEDUCED.) -/
def State.waitMet (s : State) (w : EvWait) : Bool :=
  if w.kind = 2 then
    match s.chan w.chan with
    | some c => (c.maxSeq.map fun m => decide (w.value.toNat ≤ m)).getD false
    | none => false
  else w.hit

/-- R424: the instant at which a wait ends, and whether by its timeout; none when it does not end by itself.
(Log entry 98 DEDUCED.) -/
def State.waitEnd (s : State) (w : EvWait) : Option (Tick × Bool) :=
  let late := if w.timeout = 0 then none else some (w.accepted.toNat + w.timeout.toNat)
  if w.kind = 1 then
    match late with
    | some l => if w.value.toNat ≤ l then some (w.value, false) else some (BitVec.ofNat 64 l, true)
    | none => some (w.value, false)
  else if s.waitMet w then some (s.tick, false)
  else late.map fun l => (BitVec.ofNat 64 (min l (2 ^ 64 - 1)), true)

/-- R424: a stratum's wait, by its place among the stratum's waits, ends. (Log entry 98 DEDUCED.) -/
def endWait (n : FnNo) (k : Nat) (s : State) : State :=
  match (s.waits.filter fun w => w.stratum == n)[k]? with
  | none => s
  | some w =>
    match s.waitEnd w with
    | none => s
    | some e =>
      let t : State := s.reach e.1
      ({ t with waits := t.waits.filter fun x => x.id ≠ w.id }).completeOk w.id t.tick (if e.2 then 1 else 0)

/-- R424: EVENT_WAIT_COMPLETE. -/
def execEventWaitComplete (stratum : FnNo) (wait : Nat) (s : State) : Host.Outcome State Fault Refusal :=
  .next (endWait stratum wait s)

/-! ### Frame result rings (R419, R420) -/

/-- R419: host software writes HEAD_ADDR: an index which lies among the unreleased entries, or just behind them,
releases those before it. (Log entry 28 DEDUCED.) -/
def ringRelease (n : FnNo) (pid : Nat) (value : W64) (s : State) : State :=
  match s.prog n pid with
  | none => s
  | some p =>
    match p.launch with
    | none => s
    | some l =>
      let size := 2 ^ l.ringLog2
      let freed := (value.toNat + size - p.ring.head) % size
      if size ≤ value.toNat ∨ p.ring.unreleased < freed then s
      else
        let t := s.modProg n pid fun x => { x with ring := { x.ring with
          head := value.toNat, unreleased := x.ring.unreleased - freed } }
        t.pumpRing n pid

/-- R419: RESULT_RING_RELEASE. -/
def execResultRingRelease (stratum : FnNo) (prog : Nat) (value : W64) (s : State) : Host.Outcome State Fault Refusal :=
  .next (ringRelease stratum prog value s).drainArea

/-- R420: a result has waited 100 µs unannounced. -/
def announceTimeout (n : FnNo) (pid : Nat) (s : State) : State :=
  match s.prog n pid with
  | none => s
  | some p =>
    match p.launch with
    | none => s
    | some l =>
      if l.vector = 0 ∨ p.ring.unannounced = 0 then s
      else ((s.reach (p.ring.oldest + 80000)).modProg n pid fun x => { x with
        ring := { x.ring with unannounced := 0 } }).sendMsix n (Fin.ofNat 64 l.vector)

/-- R420: RESULT_ANNOUNCE_TIMEOUT. -/
def execResultAnnounceTimeout (stratum : FnNo) (prog : Nat) (s : State) : Host.Outcome State Fault Refusal :=
  .next (announceTimeout stratum prog s)

end Sys2Proof.Machine
end

