-- ==== Sys2Proof/Machine/Clusters.lean ====
section
/-!
DEFINITION. Channel-frames on the clusters (13): dispatch, the three queues of a position, semaphores, barriers,
the end of micro-operations and of the channel-frame, and program faults.
-/

namespace Sys2Proof.Machine

/-! ### Dispatch (R593, R594, R631, R635) -/

/-- A replica of a program: its number and its logical clusters in position order. -/
def Prog.replicas (p : Prog) : List (Nat × List Nat) :=
  match p.shape with
  | some v => (List.range p.origins.length).map fun (r : Nat) => (r, groupCells v ((p.origins[r]?).getD 0))
  | none => []

/-- A logical cluster can start work: it is mapped to a cluster in service which no replacement awaits. -/
def State.cellServes (s : State) (l : Nat) : Bool :=
  let k : LogNo := Fin.ofNat 64 l
  match s.mapping[k] with
  | some c => s.units.clusters[c].up && !s.toReplace.any fun x => x.1 == k
  | none => false

/-- Some channel-frame has a logical cluster. -/
def State.cellBusy (s : State) (l : Nat) : Bool :=
  s.runs.any fun r => r.positions.any fun p => p.cluster.val == l

/-- The lowest-numbered idle replica of a program. -/
def State.idleReplica (s : State) (p : Prog) : Option (Nat × List Nat) :=
  p.replicas.find? fun r => r.2.all fun l => s.cellServes l && !s.cellBusy l

/-- R594: a position at the start of its entry. -/
def freshPosition (tick : Tick) (l : Nat) (code : List Uop) : Position :=
  { cluster := Fin.ofNat 64 l, code, next := Vector.replicate 3 0, since := Vector.replicate 3 tick, flights := []
    sems := Vector.replicate 16 0, sends := Vector.replicate 4 0, recvs := Vector.replicate 4 0, barriers := 0
    reduced := [], ended := false }

/-- The ready channel-frames of a stratum, with the tick since which each is ready. -/
def State.readyFrames (s : State) (n : FnNo) : List (Frame × Nat) :=
  (s.frames.filter (s.ownsFrame n)).filterMap fun f =>
    match f.stage with
    | .ready t => some (f, t.toNat)
    | _ => none

/-- The program which serves a frame. -/
def State.progFor (s : State) (f : Frame) : Option Prog := f.launch.bind s.progOf

/-- R631, R634: the frame's program may start it, on a replica. -/
def State.startsOn (s : State) (f : Frame) : Option (Prog × Nat × List Nat) :=
  match s.progFor f with
  | none => none
  | some p => if p.reselect then none else (s.idleReplica p).map fun r => (p, r.1, r.2)

/-- R593, R594: a channel-frame starts on a replica. One for whose input the program has no entry ends with
ST_FRAME_ABORTED. (Log entry 99 DEDUCED.) -/
def State.startRun (s : State) (f : Frame) (since : Nat) (p : Prog) (replica : Nat) (cells : List Nat) : State :=
  if hdrInputs p.header ≤ f.route.input then s.abortFrame f.chan f.seq
  else
    let v := p.variant.getD 0
    let positions := (List.range cells.length).map fun (i : Nat) =>
      freshPosition s.tick ((cells[i]?).getD 0) (codeOfEntry p.pkg v i f.route.input)
    let r : Run := { stratum := p.stratum, prog := p.id, replica, chan := f.chan, seq := BitVec.ofNat 64 f.seq, positions
                     ending := false, out := List.replicate 192 0, partials := [], mprogs := [] }
    ({ s with runs := s.runs ++ [r] }).modFrame f.chan f.seq fun g => { g with stage := .running (BitVec.ofNat 64 since) }

/-- R635: a ready channel-frame whose program has no variant which fits. (Log entry 74 DEDUCED.) -/
def State.stranded (s : State) (n : FnNo) : Option Frame :=
  ((s.readyFrames n).map (·.1)).find? fun f =>
    match s.progFor f with
    | some p => p.unfit || (p.variant.isNone && !p.reselect)
    | none => true

/-- R631: of two ready frames the older, or the one of the lower channel. (Log entry 109 DEDUCED.) -/
def older (a b : Frame × Nat) : Bool := decide (a.2 < b.2) || (a.2 == b.2 && decide (a.1.chan < b.1.chan))

/-- R631, R634, R635, R437: the dispatcher of a stratum ends a frame which nothing can run, or starts one.
(Log entries 74 DEDUCED, 99 DEDUCED.) -/
def dispatch (n : FnNo) (s : State) : State :=
  let s := s.forEach ((s.progs.filter fun p => p.stratum == n && p.reselect).map (·.id)) fun pid t => t.reselectProg n pid
  match s.stranded n with
  | some f => s.abortFrame f.chan f.seq
  | none =>
    if s.remaps.any fun x => s.holder x.2.1 == n then s
    else
      let can := (s.readyFrames n).filter fun f => (s.startsOn f.1).isSome
      match can.find? fun a => can.all fun b => !older b a with
      | none => s
      | some f =>
        match s.startsOn f.1 with
        | some x => s.startRun f.1 f.2 x.1 x.2.1 x.2.2
        | none => s

/-- R631: DISPATCH. -/
def execDispatch (stratum : FnNo) (s : State) : Host.Outcome State Fault Refusal := .next (dispatch stratum s)

/-! ### Positions -/

/-- The channel-frame which runs on a logical cluster, and the position there. -/
def State.runAt (s : State) (l : LogNo) : Option (Run × Nat) :=
  (s.runs.find? fun r => r.positions.any fun p => p.cluster == l).bind fun r =>
    match s.frame r.chan r.seq.toNat, r.positions.findIdx? fun p => p.cluster == l with
    | some f, some i =>
      match f.stage with
      | .running _ => some (r, i)
      | _ => none
    | _, _ => none

/-- A run changes. -/
def State.modRun (s : State) (r : Run) (f : Run → Run) : State :=
  let g := fun (x : Run) => if x.chan = r.chan ∧ x.seq = r.seq then f x else x
  { s with runs := s.runs.map g }

/-- A position of a run changes. -/
def State.modPos (s : State) (r : Run) (i : Nat) (f : Position → Position) : State :=
  s.modRun r fun x => { x with positions := x.positions.modify i f }

/-- A micro-operation in flight changes. -/
def State.modFlight (s : State) (r : Run) (i idx : Nat) (f : Flight → Flight) : State :=
  s.modPos r i fun p => { p with flights := p.flights.map fun x => if x.idx = idx then f x else x }

/-- What a micro-operation in flight does is done. -/
def State.flightDone (s : State) (r : Run) (i idx : Nat) : State :=
  s.modFlight r i idx fun x => { x with drained := true, done := true }

/-- A position of a run. -/
def Run.pos (r : Run) (i : Nat) : Option Position := r.positions[i]?

/-- The micro-operation of an entry. -/
def Position.uop (p : Position) (i : Nat) : Uop := (p.code[i]?).getD 0

/-- The head of a queue: the first of its micro-operations which has not issued. -/
def Position.head (p : Position) (q : Fin 3) : Option Nat :=
  ((List.range p.code.length).drop p.next[q]).find? fun i => queueOf (opcOf (p.uop i)) == q.val

/-- A micro-operation has issued. -/
def Position.issued (p : Position) (i : Nat) : Bool :=
  decide (i < p.next[(Fin.ofNat 3 (queueOf (opcOf (p.uop i))) : Fin 3)])

/-- Micro-operations in flight of a queue. -/
def Position.inQueue (p : Position) (q : Nat) : Nat :=
  (p.flights.filter fun x => queueOf (opcOf (p.uop x.idx)) == q).length

/-- R597, R598: the head of a queue may issue as far as its semaphore and its queue's concurrency go. -/
def Position.mayIssue (p : Position) (i : Nat) : Bool :=
  let u := p.uop i
  let q := queueOf (opcOf u)
  (match waitOf u with | some k => p.sems[k] != 0 | none => true) &&
    (if q = 1 then decide (p.inQueue 1 < 8) else if q = 2 then p.inQueue 2 == 0 else true)

/-- R598: a micro-operation issues: its queue moves on, and its semaphore falls by one. -/
def Position.issue (p : Position) (tick : Tick) (i : Nat) (x : Flight) : Position :=
  let u := p.uop i
  let q : Fin 3 := Fin.ofNat 3 (queueOf (opcOf u))
  { p with
    next := vmod p.next q fun _ => i + 1
    since := vmod p.since q fun _ => tick
    flights := p.flights ++ [x]
    sems := match waitOf u with | some k => vmod p.sems k fun n => n - 1 | none => p.sems }

/-- A micro-operation in flight of which nothing is done yet. -/
def Flight.start (idx num : Nat) : Flight := { idx, drained := false, done := false, tile := none, num }

/-- A micro-operation of a run issues. (Log entry 100 DEDUCED.) -/
def State.issue (s : State) (r : Run) (i : Nat) (x : Flight) : State := s.modPos r i fun p => p.issue s.tick x.idx x

/-- The head of the queue of an opcode at a cluster issues, when it is such a micro-operation and may: `body` has its
run, its position and its index. -/
def onHead (opc : Nat) (is : Uop → Bool) (l : LogNo) (body : Run → Nat → Position → Nat → State → State) (s : State) :
    State :=
  match s.runAt l with
  | none => s
  | some (r, i) =>
    match r.pos i with
    | none => s
    | some p =>
      match p.head (Fin.ofNat 3 (queueOf opc)) with
      | none => s
      | some k =>
        let u := p.uop k
        if opcOf u == opc && is u && p.mayIssue k then body r i p k s else s

/-! ### Program faults (R485, R604, R605, R1035) -/

/-- R604: a micro-operation in flight completes without the other positions: it is none which meets a BARRIER, an END, a
halo exchange or a reduction of theirs, unless that is done. (Log entry 153 DEDUCED.) -/
def Position.alone (p : Position) (x : Flight) : Bool :=
  let u := p.uop x.idx
  let o := opcOf u
  x.done || !(o == opcBarrier || o == opcEnd || o == opcHsend || o == opcHrecv ||
    (o == opcStep && (stepOp u).reduce != 0))

/-- R604: the rest of a position's entry is discarded; what is in flight and completes alone stays, less the
micro-operation `k`. (Log entry 153 DEDUCED.) -/
def Position.discard (p : Position) (k : Option Nat) : Position :=
  { p with next := Vector.replicate 3 p.code.length, flights := p.flights.filter fun x => p.alone x && some x.idx != k }

/-- R604: a channel-frame which a program fault ended has nothing in flight any more. -/
def State.endFaulted (s : State) (r : Run) : State :=
  match s.runOf r.chan r.seq.toNat with
  | some x => if x.ending && x.positions.all fun p => p.flights.isEmpty then s.abortFrame r.chan r.seq.toNat else s
  | none => s

/-- R604, R605: a program fault at a position: it is recorded and reported, the rest of every position is discarded, and the
channel-frame ends once what is in flight has completed. `addr` is the view address which a failed owner check names. A
further fault of a micro-operation in flight ends that one alone. (Log entries 103 DEDUCED, 153 DEDUCED.) -/
def State.progFault (s : State) (r : Run) (i k : Nat) (cause addr : Nat) : State :=
  match r.pos i with
  | none => s
  | some p =>
    let stop := fun (u : State) => (u.modRun r fun x => { x with
      ending := true, positions := (List.range x.positions.length).zip x.positions |>.map fun y =>
        y.2.discard (if y.1 = i then some k else none) }).endFaulted r
    if r.ending then stop s
    else
    let unit := match s.mapping[p.cluster] with | some c => unitId 1 c.val | none => 0xFFFF
    let t := (s.fault 2 (BitVec.ofNat 8 cause) unit (strataMask [r.stratum]) 0 (BitVec.ofNat 8 p.cluster.val) 0xFFFF 0).1
    let t := if cause = 7 then
        t.occur r.stratum 0x1003 (BitVec.ofNat 64 addr)
          (BitVec.ofNat 64 (p.cluster.val + 2 ^ 8 * r.prog + 2 ^ 16 * r.chan))
      else
        t.occur r.stratum 0xA004
          (BitVec.ofNat 64 (p.cluster.val + 2 ^ 8 * r.prog + 2 ^ 16 * cause + 2 ^ 32 * (k % 65536) + 2 ^ 48 * r.chan)) r.seq
    stop t

/-! ### Completion (R599, R602, R607) -/

/-- R553: a STEP has injected its last beat: a slot which it names loses one user, unless a later load into the slot has
begun since. (Log entry 154 DEDUCED.) -/
def OpSlot.leave (x : OpSlot) : OpSlot :=
  if x.state = .inUse then { x with users := x.users - 1, state := if x.users ≤ 1 then .resident else .inUse } else x

/-- A later SLOAD into a slot of a STEP has begun to write it. (Log entry 154 DEDUCED.) -/
def Position.reloaded (p : Position) (k : Nat) (north : Bool) (slot : Fin 8) (st : SlotState) : Bool :=
  (List.range p.code.length).any fun j =>
    let b := sloadOp (p.uop j)
    decide (k < j) && opcOf (p.uop j) == opcSload && b.north == north && b.slot == slot && p.issued j &&
      (!(p.flights.any fun x => x.idx == j) || st == .filling)

/-- R553: the last beat of the STEP `k` of a position has been injected. -/
def State.stepLeaves (s : State) (r : Run) (i k : Nat) : State :=
  match r.pos i with
  | none => s
  | some p =>
    match s.mapping[p.cluster] with
    | none => s
    | some c =>
      let o := stepOp (p.uop k)
      { s with clusters := vmod s.clusters c fun g =>
          let g := if p.reloaded k true o.nslot (g.north[o.nslot]).state then g
            else { g with north := vmod g.north o.nslot OpSlot.leave }
          if p.reloaded k false o.wslot (g.west[o.wslot]).state then g
          else { g with west := vmod g.west o.wslot OpSlot.leave } }

/-- R599, R602: a micro-operation completes and signals its semaphore. Of a channel-frame which a fault ended it signals
none (R604). -/
def State.completeUop (s : State) (r : Run) (i k : Nat) : State :=
  match r.pos i with
  | none => s
  | some p =>
    let u := p.uop k
    let t := s.modPos r i fun x => { x with flights := x.flights.filter fun y => y.idx ≠ k }
    if r.ending then t.endFaulted r
    else
    match signalOf u with
    | none => t
    | some n =>
      if 255 ≤ p.sems[n] then t.progFault r i k 3 0
      else t.modPos r i fun x => { x with sems := vmod x.sems n fun v => v + 1 }

/-- R554, R600: an SLOAD may write its slot: every earlier STEP which names the slot has issued, and no earlier SLOAD into
it is in flight. (Log entry 101 DEDUCED.) -/
def Position.mayFill (p : Position) (k : Nat) : Bool :=
  let o := sloadOp (p.uop k)
  (List.range k).all fun j =>
    let v := p.uop j
    if opcOf v = opcStep then
      let a := stepOp v
      p.issued j || !(if o.north then a.nslot == o.slot else a.wslot == o.slot)
    else if opcOf v = opcSload then
      let b := sloadOp v
      !(p.flights.any fun x => x.idx == j) || b.north != o.north || b.slot != o.slot
    else true

/-- R553: a load puts its tile into its slot; the slot is FILLING, and RESIDENT once every byte is written.
(Log entry 100 DEDUCED.) -/
def State.fillSlot (s : State) (c : PhysNo) (o : SloadOp) (x : OpSlot) : State :=
  { s with clusters := vmod s.clusters c fun g =>
      if o.north then { g with north := vmod g.north o.slot fun _ => x }
      else { g with west := vmod g.west o.slot fun _ => x } }

/-- R607: every earlier micro-operation of the entry has completed. -/
def Position.allBefore (p : Position) (k : Nat) : Bool :=
  p.flights.all (fun x => x.idx == k) && (List.range k).all fun j => p.issued j

/-- R553, R599, R607: a micro-operation in flight completes, if it can. (Log entry 100 DEDUCED.) -/
def uopComplete (l : LogNo) (k : Nat) (s : State) : State :=
  match s.runAt l with
  | none => s
  | some (r, i) =>
    match r.pos i with
    | none => s
    | some p =>
      match p.flights.find? fun x => x.idx == k with
      | none => s
      | some x =>
        let u := p.uop k
        if opcOf u = opcSload then
          match s.mapping[p.cluster], x.tile with
          | some c, some t =>
            if p.mayFill k then (s.fillSlot c (sloadOp u) { t with state := .resident }).completeUop r i k else s
          | _, _ => s
        else if opcOf u = opcEnd then
          if p.allBefore k then (s.completeUop r i k).modPos r i fun y => { y with ended := true } else s
        else if x.done then
          (if opcOf u = opcStep && !(stepOp u).close then s.stepLeaves r i k else s).completeUop r i k
        else s

/-- R599: MICRO_OP_COMPLETE. -/
def execMicroOpComplete (cluster : LogNo) (uop : Nat) (s : State) : Host.Outcome State Fault Refusal :=
  .next (uopComplete cluster uop s)

/-! ### NOP, BARRIER and END (R607, R985) -/

/-- R607: NOP completes at issue. -/
def nopIssue (l : LogNo) : State → State :=
  onHead opcNop (fun _ => true) l fun r i _ k s =>
    let t := s.issue r i { Flight.start k 0 with done := true }
    match t.runAt l with
    | some (q, j) => t.completeUop q j k
    | none => t

/-- R607: NOP. -/
def execNop (cluster : LogNo) (s : State) : Host.Outcome State Fault Refusal := .next (nopIssue cluster s)

/-- R607: END issues; it completes once every earlier micro-operation has. -/
def endIssue (l : LogNo) : State → State :=
  onHead opcEnd (fun _ => true) l fun r i _ k s => s.issue r i (Flight.start k 0)

/-- R607: END. -/
def execMicroEnd (cluster : LogNo) (s : State) : Host.Outcome State Fault Refusal := .next (endIssue cluster s)

/-- R607: a position reaches its next BARRIER. -/
def barrierIssue (l : LogNo) : State → State :=
  onHead opcBarrier (fun _ => true) l fun r i p k s =>
    (s.issue r i (Flight.start k p.barriers)).modPos r i fun x => { x with barriers := x.barriers + 1 }

/-- R607: BARRIER. -/
def execMicroBarrier (cluster : LogNo) (s : State) : Host.Outcome State Fault Refusal := .next (barrierIssue cluster s)

/-- The BARRIER at which a position waits: its index and number. -/
def Position.barrier (p : Position) : Option (Nat × Nat) :=
  (p.flights.find? fun x => opcOf (p.uop x.idx) == opcBarrier).map fun x => (x.idx, x.num)

/-- R607, R985: when every position of the replica has reached a BARRIER, each of them is released from it. -/
def barrierRelease (l : LogNo) (s : State) : State :=
  match s.runAt l with
  | none => s
  | some (r, i) =>
    match (r.pos i).bind Position.barrier with
    | none => s
    | some b =>
      if r.positions.all fun p => decide (b.2 < p.barriers) then
        s.forEach (List.range r.positions.length) fun j t =>
          match (r.pos j).bind Position.barrier with
          | some x =>
            if x.2 = b.2 then
              match t.runAt l with
              | some q => t.completeUop q.1 j x.1
              | none => t
            else t
          | none => t
      else s

/-- R607, R985: BARRIER_RELEASE. -/
def execBarrierRelease (cluster : LogNo) (s : State) : Host.Outcome State Fault Refusal :=
  .next (barrierRelease cluster s)

/-! ### Waits of 10 ms (R562, R603) -/

/-- 10 ms in ticks. -/
abbrev tenMs : Tick := 8000000

/-- R552, R560, R600: each slot which a STEP names holds the tile of the last SLOAD into it before the STEP.
(Log entry 101 DEDUCED.) -/
def Position.slotsReady (p : Position) (k : Nat) : Bool :=
  let o := stepOp (p.uop k)
  (List.range k).all fun j =>
    let v := p.uop j
    if opcOf v = opcSload then
      let b := sloadOp v
      let named := if b.north then b.slot == o.nslot else b.slot == o.wslot
      !named || (p.issued j && !(p.flights.any fun x => x.idx == j))
    else true

/-- R562: a load into a slot of a STEP is under way or pending. (Log entries 101 DEDUCED, 110 DEDUCED.) -/
def Position.loadsComing (p : Position) (k : Nat) : Bool :=
  let o := stepOp (p.uop k)
  (List.range p.code.length).any fun j =>
    let v := p.uop j
    opcOf v == opcSload && (if (sloadOp v).north then (sloadOp v).slot == o.nslot else (sloadOp v).slot == o.wslot) &&
      (!p.issued j || p.flights.any fun x => x.idx == j)

/-- The closing steps in flight whose drains have not read their banks, oldest first. -/
def Position.undrained (p : Position) : List Flight :=
  p.flights.filter fun x => opcOf (p.uop x.idx) == opcStep && (stepOp (p.uop x.idx)).close && !x.drained

/-- A bank of a cluster is coded. (Log entry 104 DEDUCED.) -/
def Cluster.coded (c : Cluster) (b : Bool) : Bool := if b then c.codedB else c.codedA

/-- R565, R966: no drain which reads a bank is outstanding. -/
def Position.bankFree (p : Position) (c : Cluster) (b : Bool) : Bool :=
  p.undrained.all fun x =>
    let d := (stepOp (p.uop x.idx)).bankB
    d != b && !c.coded d

/-- R575: output buffer bytes which a closing step reserves. -/
def reservation (repro : Bool) (wide : Bool) (o : StepOp) : Nat :=
  if o.reduce ≠ 0 then (if repro then 0x8000 else 0x1000)
  else 32 * outRow wide o.outFmt + 128 * vectorsOf o.red

/-- The form of a bank of a cluster (R569). -/
def Cluster.wide (c : Cluster) (b : Bool) : Bool := if b then c.wideB else c.wideA

/-- R575: output buffer bytes which the closing steps in flight hold. (Log entry 107 DEDUCED.) -/
def Position.reserved (p : Position) (c : Cluster) (repro : Bool) : Nat :=
  ((p.flights.filter fun x => opcOf (p.uop x.idx) == opcStep && (stepOp (p.uop x.idx)).close && !x.done).map fun x =>
    let o := stepOp (p.uop x.idx)
    reservation repro (c.wide o.bankB) o).sum

/-- R560: the slot is RESIDENT or IN_USE. -/
def OpSlot.ready (x : OpSlot) : Bool := x.state == .resident || x.state == .inUse

/-- R560, R565, R600: a STEP may issue as far as slots, banks and buffers go. -/
def Position.stepMay (p : Position) (c : Cluster) (repro : Bool) (k : Nat) : Bool :=
  let o := stepOp (p.uop k)
  let wide := if o.clear then o.fmt == 2 else c.wide o.bankB
  p.slotsReady k && (c.west[o.wslot]).ready && (c.north[o.nslot]).ready && p.bankFree c o.bankB &&
    (!o.close || (decide (p.reserved c repro + reservation repro wide o ≤ 0x10000) &&
      (o.reduce == 0 || !(p.flights.any fun x => opcOf (p.uop x.idx) == opcStep && (stepOp (p.uop x.idx)).close &&
        (stepOp (p.uop x.idx)).reduce != 0 && !x.done))))

/-- The head of a queue cannot issue now. (Log entries 101 DEDUCED, 110 DEDUCED.) -/
def Position.stuck (p : Position) (c : Cluster) (repro : Bool) (k : Nat) : Bool :=
  let u := p.uop k
  !p.mayIssue k ||
    (if opcOf u = opcStep then !p.stepMay c repro k
     else if opcOf u = opcQload || opcOf u = opcQclear then !p.bankFree c (bankOp u).bankB
     else false)

/-- The cluster which carries a logical cluster, less its scratch. -/
def State.clusterAt (s : State) (l : LogNo) : Cluster :=
  match s.mapping[l] with
  | some c => s.clusters[c]
  | none => Cluster.fresh

/-- The stratum of a channel-frame was in REPRODUCIBLE mode at its opening FRAME_MARK (R296). -/
def State.reproOf (s : State) (r : Run) : Bool :=
  match s.frame r.chan r.seq.toNat with
  | some f => f.repro
  | none => false

/-- R562: the STEP at the head of the M queue has waited 10 ms, and no load into its slots is coming.
(Log entry 110 DEDUCED.) -/
def scoreboardStall (l : LogNo) (s : State) : State :=
  match s.runAt l with
  | none => s
  | some (r, i) =>
    match r.pos i with
    | none => s
    | some p =>
      match p.head 0 with
      | none => s
      | some k =>
        if opcOf (p.uop k) = opcStep ∧ p.stuck (s.clusterAt l) (s.reproOf r) k ∧ !p.loadsComing k then
          (s.reach (p.since[(0 : Fin 3)] + tenMs)).progFault r i k 1 0
        else s

/-- R562: SCOREBOARD_STALL. -/
def execScoreboardStall (cluster : LogNo) (s : State) : Host.Outcome State Fault Refusal :=
  .next (scoreboardStall cluster s)

/-- The heads of a position's queues which cannot issue: queue and index. -/
def State.stuckHeads (s : State) (r : Run) (p : Position) : List (Fin 3 × Nat) :=
  (List.finRange 3).filterMap fun q =>
    match p.head q with
    | some k => if p.stuck (s.clusterAt p.cluster) (s.reproOf r) k then some (q, k) else none
    | none => none

/-- R603: with nothing in flight in a cluster, a head which cannot issue has waited 10 ms; of several, the one which has
waited longest. -/
def queueTimeout (l : LogNo) (s : State) : State :=
  match s.runAt l with
  | none => s
  | some (r, i) =>
    match r.pos i with
    | none => s
    | some p =>
      if !p.flights.isEmpty then s
      else
        let heads := s.stuckHeads r p
        match heads.find? fun a => heads.all fun b => decide (p.since[a.1] ≤ p.since[b.1]) with
        | none => s
        | some a => (s.reach (p.since[a.1] + tenMs)).progFault r i a.2 2 0

/-- R603: QUEUE_WAIT_TIMEOUT. -/
def execQueueWaitTimeout (cluster : LogNo) (s : State) : Host.Outcome State Fault Refusal :=
  .next (queueTimeout cluster s)

/-! ### The end of a channel-frame (R595, R943) -/

/-- R595, R634, R943: every position has completed END: the send descriptor is read, and the frame result follows. -/
def frameEnd (l : LogNo) (s : State) : State :=
  match s.runAt l with
  | none => s
  | some (r, _) =>
    if !r.ending && r.positions.all fun p => p.ended then
      match s.prog r.stratum r.prog, s.frame r.chan r.seq.toNat with
      | some p, some f =>
        let window := match p.shape with | some v => v.window | none => 0
        let t := s.offerTensor r f.route.input window
        if p.reselect then t.reselectProg r.stratum r.prog else t
      | _, _ => s
    else s

/-- R595: CHANNEL_FRAME_END. -/
def execChannelFrameEnd (cluster : LogNo) (s : State) : Host.Outcome State Fault Refusal :=
  .next (frameEnd cluster s).drainArea

end Sys2Proof.Machine
end

