-- ==== Sys2Proof/Machine/Granite.lean ====
section
/-!
DEFINITION. The Granite array (12): matrix steps, drains with their row reductions, quire banks, saves and loads, and
reductions across clusters.
-/

namespace Sys2Proof.Machine

/-! ### Quire banks (R524 to R530, R569) -/

/-- The cells of a bank. -/
def Cluster.bank (c : Cluster) (b : Bool) : List (Nat × BitVec 256) := if b then c.bankB else c.bankA

/-- The 256 bits of a cell. -/
def cellBits (m : List (Nat × BitVec 256)) (k : Nat) : BitVec 256 := (spGet m k).getD 0

/-- R526: bits of the quire of column `j` of row `i`: one cell, or in quire32 form a pair. -/
def quireBits (wide : Bool) (m : List (Nat × BitVec 256)) (i j : Nat) : Nat :=
  if wide then (cellBits m (32 * i + 2 * j)).toNat + 2 ^ 256 * (cellBits m (32 * i + 2 * j + 1)).toNat
  else (cellBits m (32 * i + j)).toNat

/-- Columns and width of the quires of a form. -/
def quireCols (wide : Bool) : Nat := if wide then 16 else 32
/-- See `quireCols`. -/
def quireWidth (wide : Bool) : Nat := if wide then 512 else 256
/-- The posit width whose quire a bank of a form holds. -/
def quireFmt (wide : Bool) : Nat := if wide then 32 else 16

/-- The quires of a bank read in a form, row by row. -/
def bankQuires (wide : Bool) (m : List (Nat × BitVec 256)) : List (List (Option Int)) :=
  (List.range 32).map fun (i : Nat) => (List.range (quireCols wide)).map fun (j : Nat) =>
    quireOf (quireWidth wide) (quireBits wide m i j)

/-- The cells which hold quire patterns of a form, row by row; cells of zero are left out. -/
def bankOf32 (wide : Bool) (rows : List (List Nat)) : List (Nat × BitVec 256) :=
  let cells := (rows.map fun r => if wide then (r.map fun q => [q % 2 ^ 256, q / 2 ^ 256]).flatten else r).flatten
  ((List.range cells.length).zip cells).filterMap fun x =>
    if x.2 % 2 ^ 256 = 0 then none else some (x.1, BitVec.ofNat 256 x.2)

/-- A bank is written: its cells, its form, and whether it is coded. -/
def Cluster.setBank (c : Cluster) (b : Bool) (m : List (Nat × BitVec 256)) (wide coded : Bool) : Cluster :=
  if b then { c with bankB := m, wideB := wide, codedB := coded }
  else { c with bankA := m, wideA := wide, codedA := coded }

/-- The cluster which carries a logical cluster changes. -/
def State.modClusterAt (s : State) (l : LogNo) (f : Cluster → Cluster) : State :=
  match s.mapping[l] with
  | some c => { s with clusters := vmod s.clusters c f }
  | none => s

/-- R630: cluster and first byte of the window of a run's program at a position. -/
def State.windowAt (s : State) (r : Run) (i : Nat) : Option (PhysNo × Nat) :=
  match r.pos i, s.prog r.stratum r.prog with
  | some p, some g =>
    match s.mapping[p.cluster], spGet g.windows p.cluster.val with
    | some c, some o => some (c, o)
    | _, _ => none
  | _, _ => none

/-- Bytes of a position's window are read. -/
def State.windowRead (s : State) (r : Run) (i o n : Nat) : List Byte :=
  match s.windowAt r i with
  | some w => s.scratchN w.1 (w.2 + o) n
  | none => List.replicate n 0

/-- Bytes of a position's window are written. -/
def State.windowWrite (s : State) (r : Run) (i o : Nat) (b : List Byte) : State :=
  match s.windowAt r i with
  | some w => { s with scratch := vmod s.scratch w.1 fun m => memWriteList 0 m (w.2 + o) b }
  | none => s

/-! ### Matrix steps (R549 to R551, R555, R557, R563, R569, R615, R963) -/

/-- The exact product of two posits of `n` bits, in units of its quire; `none` when one is NaR. -/
def mac (n a b : Nat) : Option Int :=
  match decodePosit n a, decodePosit n b with
  | some x, some y => some (x * y * 2 ^ (quireScale (max n 16) - quireScale n))
  | _, _ => none

/-- R529, R531: the exact sum of the products of one beat. -/
def beatSum (l : List (Option Int)) : Option Int :=
  l.foldl (fun a x => match a, x with | some u, some v => some (u + v) | _, _ => none) (some 0)

/-- R527 to R531, R555: a cell's quire takes the products of a row and a column, beat by beat: four products to a beat in
posit8, else one. -/
def accumulate (n w : Nat) : Nat → Option Int → List (Nat × Nat) → Option Int
  | 0, q, _ => q
  | fuel + 1, q, l =>
    match l with
    | [] => q
    | _ =>
      let k := if n = 8 then 4 else 1
      accumulate n w fuel (quireAdd w q (beatSum ((l.take k).map fun x => mac n x.1 x.2))) (l.drop k)

/-- The element of a tile. -/
def OpSlot.at_ (x : OpSlot) (i j : Nat) : Nat := (x.tile[i * x.cols + j]?).getD 0

/-- R615: the tile has this shape and element size. -/
def OpSlot.shaped (x : OpSlot) (rows cols esize : Nat) : Bool := x.rows == rows && x.cols == cols && x.esize == esize

/-- R563, R569: the bank of a step after it. -/
def stepBank (o : StepOp) (a b : OpSlot) (m : List (Nat × BitVec 256)) : List (Nat × BitVec 256) :=
  let n := fmtBits o.fmt
  let wide := o.fmt == 2
  let w := quireWidth wide
  bankOf32 wide ((List.range 32).map fun (i : Nat) => (List.range (quireCols wide)).map fun (j : Nat) =>
    let q := if o.clear then some 0 else quireOf w (quireBits wide m i j)
    quirePattern w (accumulate n w o.k q ((List.range o.k).map fun (k : Nat) => (a.at_ i k, b.at_ k j))))

/-- R553: a step which names the slot issues. -/
def OpSlot.enter (x : OpSlot) : OpSlot := { x with state := .inUse, users := x.users + 1 }

/-- The cluster after a step: its slots are IN_USE; and the bank's cells, form and coding. (Log entry 104 DEDUCED.) -/
def Cluster.step (c : Cluster) (o : StepOp) : Cluster :=
  let a := c.west[o.wslot]
  let b := c.north[o.nslot]
  let c := { c with west := vmod c.west o.wslot OpSlot.enter, north := vmod c.north o.nslot OpSlot.enter }
  c.setBank o.bankB (stepBank o a b (c.bank o.bankB)) (if o.clear then o.fmt == 2 else c.wide o.bankB)
    (if o.clear then a.code else c.coded o.bankB)

/-- R605, R615, R963: the CAUSE of the program fault of a step, if it has one. (Log entry 104 DEDUCED.) -/
def Cluster.stepFault (c : Cluster) (o : StepOp) : Option Nat :=
  let a := c.west[o.wslot]
  if a.code && (o.fmt != 1 || o.reduce != 0) then some 9
  else if a.shaped 32 o.k o.fmt && (c.north[o.nslot]).shaped o.k (if o.fmt = 2 then 16 else 32) o.fmt then none
  else some 4

/-- R560 to R563, R609: the STEP at the head of the M queue issues, and its products are accumulated. -/
def stepIssue (l : LogNo) : State → State :=
  onHead opcStep (fun _ => true) l fun r i p k s =>
    let c := s.clusterAt l
    let o := stepOp (p.uop k)
    if !p.stepMay c (s.reproOf r) k then s
    else
      match c.stepFault o with
      | some cause => s.progFault r i k cause 0
      | none =>
        let num := (spGet p.reduced o.reduce).getD 0
        let t := (s.issue r i { Flight.start k num with done := !o.close, drained := !o.close }).modClusterAt l
          fun g => g.step o
        if o.close && o.reduce != 0 then
          t.modPos r i fun x => { x with reduced := spPut x.reduced o.reduce (num + 1) }
        else t

/-- R560, R609: STEP. -/
def execMicroStep (cluster : LogNo) (s : State) : Host.Outcome State Fault Refusal := .next (stepIssue cluster s)

/-! ### Row reductions (R518, R519, R574, R965) -/

/-- R519: the largest pattern of a row, or the smallest. -/
def rowBest (n : Nat) (min : Bool) (row : List Nat) : Nat :=
  match row with
  | [] => 0
  | x :: r => r.foldl (fun a b =>
      if (if min then decide (positKey n b < positKey n a) else decide (positKey n a < positKey n b)) then b else a) x

/-- The number of bits of a pattern which are 1. -/
def popCount (n x : Nat) : Nat := ((List.range n).filter fun i => x.testBit i).length

/-- R574: an entry of a row vector, by the reduction's name: 1 MAX, 2 SUM, 4 MIN, 6 and up the logical and bitwise ones.
`sum` is the SUM entry. -/
def rowEntry (n kind : Nat) (row : List Nat) (sum : Nat) : Nat :=
  let nonzero := (row.filter fun x => x != 0).length
  if kind = 1 then convertPosit n 32 (rowBest n false row)
  else if kind = 2 then sum
  else if kind = 4 then convertPosit n 32 (rowBest n true row)
  else if kind = 6 then (if nonzero = row.length then 1 else 0)
  else if kind = 7 then (if nonzero = 0 then 0 else 1)
  else if kind = 8 then nonzero % 2
  else if kind = 9 then nonzero
  else if kind = 0xA then row.foldl (fun a b => a &&& b) (2 ^ n - 1)
  else if kind = 0xB then row.foldl (fun a b => a ||| b) 0
  else if kind = 0xC then row.foldl (fun a b => a ^^^ b) 0
  else (row.map (popCount n)).sum

/-- R574: the reductions which a RED code names, in order. -/
def redKinds (red : Nat) : List Nat :=
  if red = 0 then [] else if red = 3 then [1, 2] else if red = 5 then [4, 1] else [red]

/-- R574: the row vectors of a drain. -/
def rowVectors (n red : Nat) (rows : List (List Nat)) (sums : List Nat) : List (List Byte) :=
  (redKinds red).map fun kind =>
    ((List.range rows.length).map fun (i : Nat) => leBytes 4 (rowEntry n kind ((rows[i]?).getD []) ((sums[i]?).getD 0))).flatten

/-- R574: the exact sum of quires in units of 2^-scale, rounded once to posit32. -/
def exactSum (scale : Nat) (row : List (Option Int)) : Nat :=
  match beatSum row with
  | some v => roundPosit 32 v (2 ^ scale)
  | none => nar 32

/-! ### Drains (R539, R564 to R574, R581, R583, R963 to R966, R997, R1136) -/

/-- What a drain writes: the rows of the output tile, and the SUM entry of each row. -/
structure Drained where
  rows : List (List Nat)
  sums : List Nat

/-- R539, R570: a conversion drain of quires. (Log entry 105 DEDUCED.) -/
def convertDrain (wide : Bool) (outFmt : Nat) (q : List (List (Option Int))) : Drained :=
  { rows := q.map fun r => r.map (quireToPosit (quireFmt wide) (fmtBits outFmt))
    sums := q.map (exactSum (quireScale (quireFmt wide))) }

/-- R965: the exact sum of a row's binary32 values, rounded once to posit32. -/
def f32Sum (row : List W32) : Nat :=
  match row.foldl (fun (a : Option Int) x =>
      match a, f32Value false x with
      | some u, some v => some (u + v.1 * 2 ^ 149 / v.2)
      | _, _ => none) (some 0) with
  | some v => roundPosit 32 v (2 ^ 149)
  | none => nar 32

/-- R544, R964: an element of a rescale drain: its quire, and that of the cell's other bank when the message has outliers. -/
def rescale (wide : Bool) (scale : W32) (outliers : Bool) (q other : Option Int) : W32 :=
  let r := f32Mul (quireToF32 (quireFmt wide) q) scale
  if outliers then f32Add r (quireToF32 (quireFmt wide) other) else r

/-- R964, R965: a rescale drain. -/
def rescaleDrain (wide : Bool) (outFmt : Nat) (scale : W32) (outliers : Bool) (q other : List (List (Option Int))) :
    Drained :=
  let rs := (q.zip other).map fun r => (r.1.zip r.2).map fun x => rescale wide scale outliers x.1 x.2
  { rows := rs.map fun r => r.map (f32ToPosit (fmtBits outFmt)), sums := rs.map f32Sum }

/-- R523, R574, R583: the result of a FAST reduction, from posit32 values. -/
def fastDrain (outFmt : Nat) (rows : List (List (Option Int))) : Drained :=
  { rows := rows.map fun r => r.map fun v => match v with
      | some x => convertPosit 32 (fmtBits outFmt) (roundPosit 32 x (2 ^ posScale 32))
      | none => nar (fmtBits outFmt)
    sums := rows.map (exactSum (posScale 32)) }

/-- R947, R960, R964: the header which a channel-frame's FRAME base presents, when that is a message. -/
def State.presentedHead (s : State) (f : Frame) : Option QHead :=
  match s.chan f.chan with
  | some x => if x.kind1 then some (qhead (if f.wideMsg.isEmpty then f.payload else f.wideMsg)) else none
  | none => none

/-- R547, R964: s of a rescale drain, and whether the message carries outliers; free without a message.
(Log entry 106 DESIGN CHOICE.) -/
def State.rescaleTerms (s : State) (f : Frame) : W32 × Bool × State :=
  match s.presentedHead f with
  | some h => (f32Mul (positToF32 8 h.f) (positToF32 16 h.s2), h.outliers != 0, s)
  | none =>
    let d := s.draw
    ((Config.openValue d.1 0).setWidth 32, (Config.openValue d.1 1).getLsbD 0, d.2)

/-- R573, R574, R997: a drain's tile and row vectors are written, and the tile is signed when the channel-frame is paired. -/
def State.writeDrain (s : State) (r : Run) (i k : Nat) (o : StepOp) (d : Drained) : State :=
  let n := fmtBits o.outFmt
  let rows := d.rows.map fun x => (x.map fun v => leBytes (n / 8) v).flatten
  let vecs := rowVectors n o.red d.rows d.sums
  let t := s.forEach ((List.range rows.length).zip rows) fun x u => u.windowWrite r i (o.dst + x.1 * o.stride) x.2
  let t := t.forEach ((List.range vecs.length).zip vecs) fun x u => u.windowWrite r i (o.vdst + 128 * x.1) x.2
  let cluster := match r.pos i with | some p => p.cluster.val | none => 0
  let sig : TileSig := { position := i, cluster, uop := k, sig := crc64 (rows.flatten ++ vecs.flatten) }
  t.modFrame r.chan r.seq.toNat fun f => if f.pairSeq.isSome then { f with sigs := insertSig f.sigs sig } else f

/-- The rank of a position in a reduction group of a run's variant (R580). (Log entry 107 DEDUCED.) -/
def State.rankOf (s : State) (r : Run) (group pos : Nat) : Option Nat :=
  match s.prog r.stratum r.prog with
  | some g => (groupOf g.pkg (g.variant.getD 0) group).idxOf? pos
  | none => none

/-- Members of a reduction group of a run's variant. -/
def State.groupSize (s : State) (r : Run) (group : Nat) : Nat :=
  match s.prog r.stratum r.prog with
  | some g => (groupOf g.pkg (g.variant.getD 0) group).length
  | none => 0

/-- R581, R583: a member's drain of a reduction goes to its combine buffer. (Log entry 105 DEDUCED.) -/
def State.drainPartial (s : State) (r : Run) (i k : Nat) (o : StepOp) (num : Nat) (wide : Bool)
    (q : List (List (Option Int))) : State :=
  let t := s.modFlight r i k fun x => { x with drained := true }
  match s.rankOf r o.reduce i with
  | none => t
  | some rank =>
    let vals := if s.reproOf r then q.flatten
      else q.flatten.map fun v => decodePosit 32 (quireToPosit (quireFmt wide) 32 v)
    let p : Partial := { pos := i, group := o.reduce, num, ranks := [rank], level := 0, ready := false, wide, vals }
    t.modRun r fun x => { x with partials := x.partials ++ [p] }

/-- R566, R572, R581, R583, R964, R1136: the oldest outstanding drain of a cluster reads its bank.
(Log entry 105 DEDUCED.) -/
def drain (l : LogNo) (s : State) : State :=
  match s.runAt l with
  | none => s
  | some (r, i) =>
    match r.pos i, s.frame r.chan r.seq.toNat with
    | some p, some f =>
      match p.undrained with
      | [] => s
      | x :: _ =>
        let k := x.idx
        let o := stepOp (p.uop k)
        let c := s.clusterAt l
        let wide := c.wide o.bankB
        let q := bankQuires wide (c.bank o.bankB)
        let member := o.reduce ≠ 0 ∧ s.rankOf r o.reduce i ≠ some 0
        let s := s.stepLeaves r i k
        if wide ∧ o.outFmt ≠ 2 ∧ ¬ member then s.progFault r i k 10 0
        else if o.reduce ≠ 0 then s.drainPartial r i k o x.num wide q
        else if c.coded o.bankB then
          let m := s.rescaleTerms f
          let other := bankQuires wide (c.bank (!o.bankB))
          (m.2.2.writeDrain r i k o (rescaleDrain wide o.outFmt m.1 m.2.1 q other)).flightDone r i k
        else (s.writeDrain r i k o (convertDrain wide o.outFmt q)).flightDone r i k
    | _, _ => s

/-- R566: DRAIN. -/
def execDrain (cluster : LogNo) (s : State) : Host.Outcome State Fault Refusal := .next (drain cluster s)

/-! ### Saves and loads (R564, R567, R569, R577, R578, R588, R611, R1136) -/

/-- R536: the bits of a quire16 in quire8 form. -/
def toQuire8 (q : Nat) : Nat := if q = 2 ^ 255 then 2 ^ 127 else q / 2 ^ 64 % 2 ^ 128

/-- R537: the bits of a quire8 in a quire16 bank. -/
def fromQuire8 (q : Nat) : Nat :=
  if q = 2 ^ 127 then 2 ^ 255 else ((BitVec.ofNat 128 q).signExtend 192).toNat * 2 ^ 64

/-- R535, R577: the bytes of a save. -/
def saveBytes (form : Nat) (m : List (Nat × BitVec 256)) : List Byte :=
  ((List.range 1024).map fun (k : Nat) =>
    let q := (cellBits m k).toNat
    if form = 0 then leBytes 16 (toQuire8 q) else leBytes 32 q).flatten

/-- R578: the cells of a load; a load in quire32 form sets the same bits, two cells to a quire. -/
def loadCells (form : Nat) (b : List Byte) : List (Nat × BitVec 256) :=
  bankOf32 false ((List.range 32).map fun (i : Nat) => (List.range 32).map fun (j : Nat) =>
    let k := 32 * i + j
    if form = 0 then fromQuire8 (fieldNat (b.drop (16 * k)) 0 16) else fieldNat (b.drop (32 * k)) 0 32)

/-- R577, R588, R1136: a bank is saved. (Log entries 105 DEDUCED, 107 DEDUCED.) -/
def qsaveIssue (l : LogNo) : State → State :=
  onHead opcQsave (fun _ => true) l fun r i p k s =>
    let o := bankOp (p.uop k)
    let c := s.clusterAt l
    if !(p.undrained.isEmpty && decide (p.reserved c (s.reproOf r) + o.bytes ≤ 0x10000)) then s
    else if c.wide o.bankB ≠ (o.form == 2) then s.progFault r i k 10 0
    else (s.issue r i { Flight.start k 0 with done := true }).windowWrite r i o.addr (saveBytes o.form (c.bank o.bankB))

/-- R611: QSAVE. -/
def execQsave (cluster : LogNo) (s : State) : Host.Outcome State Fault Refusal := .next (qsaveIssue cluster s)

/-- R567: a load waits for the drains of the cluster. (Log entry 104 DEDUCED.) -/
def qloadIssue (l : LogNo) : State → State :=
  onHead opcQload (fun _ => true) l fun r i p k s =>
    let o := bankOp (p.uop k)
    if !p.undrained.isEmpty then s
    else
      (s.issue r i { Flight.start k 0 with done := true }).modClusterAt l fun g =>
        g.setBank o.bankB (loadCells o.form (s.windowRead r i o.addr o.bytes)) (o.form == 2) (g.coded o.bankB)

/-- R611: QLOAD. -/
def execQload (cluster : LogNo) (s : State) : Host.Outcome State Fault Refusal := .next (qloadIssue cluster s)

/-- R611: QCLEAR acts as a load of zeros. (Log entry 104 DEDUCED.) -/
def qclearIssue (l : LogNo) : State → State :=
  onHead opcQclear (fun _ => true) l fun r i p k s =>
    let o := bankOp (p.uop k)
    if !p.undrained.isEmpty then s
    else
      (s.issue r i { Flight.start k 0 with done := true }).modClusterAt l fun g =>
        g.setBank o.bankB [] (o.form == 2) (g.coded o.bankB)

/-- R611: QCLEAR. -/
def execQclear (cluster : LogNo) (s : State) : Host.Outcome State Fault Refusal := .next (qclearIssue cluster s)

/-! ### Reductions (R580 to R585) -/

/-- The values of two combine buffers added element by element. (Log entry 108 DESIGN CHOICE.) -/
def addPartials (repro wide : Bool) (a b : List (Option Int)) : List (Option Int) :=
  (a.zip b).map fun x =>
    if repro then quireAdd (quireWidth wide) x.1 x.2
    else match x.1, x.2 with
      | some u, some v => decodePosit 32 (roundPosit 32 (u + v) (2 ^ posScale 32))
      | _, _ => none

/-- One partial is added into another. Where their banks differ in form, the spec states no result.
(Log entries 106 DESIGN CHOICE, 108 DESIGN CHOICE.) -/
def State.combine (s : State) (r : Run) (repro : Bool) (into p : Partial) (level : Nat) : State :=
  let d := s.draw
  let vals := if into.wide = p.wide then addPartials repro into.wide into.vals p.vals
    else (List.range into.vals.length).map fun (i : Nat) => some (Config.openValue d.1 i).toInt
  let t := if into.wide = p.wide then s else d.2
  let new := { into with vals, level, ready := false, ranks := into.ranks ++ p.ranks }
  t.modRun r fun x => { x with
    partials := (x.partials.filter fun y => y.pos ≠ p.pos).map fun y => if y.pos = into.pos then new else y }

/-- The reducing STEP in flight at a position. (Log entry 107 DEDUCED.) -/
def Position.reducing (p : Position) : Option Flight :=
  p.flights.find? fun x => opcOf (p.uop x.idx) == opcStep && (stepOp (p.uop x.idx)).close &&
    (stepOp (p.uop x.idx)).reduce != 0 && !x.done

/-- A member's STEP is done once its partial has been taken (R607); the root's, once the result is in scratch.
(Log entry 107 DEDUCED.) -/
def State.memberDone (s : State) (r : Run) (pos : Nat) : State :=
  match (r.pos pos).bind Position.reducing with
  | some x => s.flightDone r pos x.idx
  | none => s

/-- Rows of a partial's values. -/
def Partial.rows (p : Partial) : List (List (Option Int)) :=
  (List.range 32).map fun (i : Nat) => (p.vals.drop (quireCols p.wide * i)).take (quireCols p.wide)

/-- R581 step 3, R583 step 4: the root writes the result of a reduction. -/
def State.finishReduction (s : State) (r : Run) (root : Nat) (p : Partial) : State :=
  match (r.pos root).bind fun y => y.reducing.map fun x => (x.idx, stepOp (y.uop x.idx)) with
  | none => s
  | some x =>
    let d := if s.reproOf r then convertDrain p.wide x.2.outFmt p.rows else fastDrain x.2.outFmt p.rows
    let t := (s.writeDrain r root x.1 x.2 d).modRun r fun y => { y with
      partials := y.partials.filter fun z => z.pos ≠ p.pos }
    (if p.pos = root then t else t.memberDone r p.pos).memberDone r root

/-- R581: the highest power of two which divides a rank; all of them for rank 0. -/
def rankLevels (rank g : Nat) : List Nat :=
  (List.range 6).filter fun l => rank % 2 ^ (l + 1) == 0 && decide (rank + 2 ^ l < g)

/-- R581: the level at which a rank other than 0 sends. -/
def sendLevel (rank : Nat) : Nat := ((List.range 7).find? fun l => rank % 2 ^ (l + 1) != 0).getD 0

/-- R581: a member's combine buffer moves on in the fixed tree: up to its receiver, or at the root into the result.
(Log entry 109 DEDUCED.) -/
def State.reproTransfer (s : State) (r : Run) (p : Partial) : State :=
  match s.rankOf r p.group p.pos with
  | none => s
  | some rank =>
    let g := s.groupSize r p.group
    if p.level ≠ (rankLevels rank g).length then s
    else if rank = 0 then s.finishReduction r p.pos p
    else
      let upto := rank - 2 ^ sendLevel rank
      match r.partials.find? fun y => y.group == p.group && y.num == p.num && s.rankOf r p.group y.pos == some upto with
      | none => s
      | some y =>
        if y.level = sendLevel rank then (s.combine r true y p (y.level + 1)).memberDone r p.pos else s

/-- R583: a partial moves on at the root's scoreboard. (Log entry 108 DESIGN CHOICE.) -/
def State.fastTransfer (s : State) (r : Run) (p : Partial) : State :=
  let others := r.partials.filter fun y => y.group == p.group && y.num == p.num && y.pos != p.pos
  let missing := decide (p.ranks.length + (others.map fun y => y.ranks.length).sum < s.groupSize r p.group)
  let set := fun (f : Partial → Partial) => s.modRun r fun x => { x with
    partials := x.partials.map fun y => if y.pos = p.pos then f y else y }
  if others.isEmpty && !missing then
    match s.prog r.stratum r.prog with
    | some g => s.finishReduction r ((groupOf g.pkg (g.variant.getD 0) p.group).headD 0) p
    | none => s
  else if !p.ready then
    match others.find? fun y => y.ready && y.level == p.level with
    | some y =>
      let t := s.combine r false y p (y.level + 1)
      if s.rankOf r p.group p.pos = some 0 then t else t.memberDone r p.pos
    | none => set fun y => { y with ready := true }
  else if !missing && others.all fun y => decide (p.level < y.level) then
    set fun y => { y with level := y.level + 1, ready := false }
  else s

/-- R581, R583: the partial in the combine buffer of a cluster moves on. -/
def reductionTransfer (l : LogNo) (s : State) : State :=
  match s.runAt l with
  | none => s
  | some (r, i) =>
    match r.partials.find? fun p => p.pos == i with
    | none => s
    | some p => if s.reproOf r then s.reproTransfer r p else s.fastTransfer r p

/-- R581, R583, R584: REDUCTION_TRANSFER. Of the partials which become ready in one cycle the lower logical cluster's is
taken first. (Log entry 155 DESIGN CHOICE.) -/
def execReductionTransfer (clusters : List LogNo) (s : State) : Host.Outcome State Fault Refusal :=
  .next (s.forEach ((List.finRange 64).filter clusters.contains) reductionTransfer)

end Sys2Proof.Machine
end

