-- ==== Sys2Proof/Machine/Images.lean ====
section
/-!
DEFINITION. Loadable tables and micro-programs (08 R411, R412; 14 R663 to R672): TABLE_LOAD, MICROPROG_LOAD and
the checks of their images.
-/

namespace Sys2Proof.Machine

/-! ### Table images (R663, R665) -/

/-- Bytes of a table image. -/
abbrev tableBytes : Nat := 4160

/-- The bytes of an image which were read, `n` of them. -/
def loadBytes (n : Nat) (host : List Byte) : List Byte := (host ++ List.replicate n 0).take n

/-- ENTRIES, X0, H and the entries of a table image (R663). -/
def tableN (b : List Byte) : Nat := fieldNat b 6 2
/-- See `tableN`. -/
def tableX0 (b : List Byte) : Nat := fieldNat b 8 4
/-- See `tableN`. -/
def tableH (b : List Byte) : Int := (BitVec.ofNat 8 (fieldNat b 12 1)).toInt
/-- See `tableN`. -/
def tableEntry (b : List Byte) (i : Nat) : Nat := fieldNat b (64 + 4 * i) 4

/-- The offset of the first check which fails. (Log entry 92 DEDUCED.) -/
def firstFailing (l : List (Nat × Bool)) : Option Nat := (l.find? fun x => x.2).map (·.1)

/-- R663: the first field of a table image without a legal value. (Log entry 92 DEDUCED.) -/
def tableFieldFault (b : List Byte) : Option Nat :=
  let h := tableH b
  firstFailing <|
    [(0, fieldNat b 0 4 != 0x4C42544D), (4, fieldNat b 4 2 != 1), (6, decide (tableN b < 2) || decide (1024 < tableN b)),
     (8, tableX0 b == nar 32), (12, decide (h < -64) || decide (63 < h)), (13, (b.drop 13 |>.take 47).any (· != 0))] ++
    (List.range 1024).map fun (i : Nat) =>
      (64 + 4 * i, if i < tableN b then tableEntry b i == nar 32 else tableEntry b i != 0)

/-- R665: index of the first entry, `i` on, which breaks the direction: none fixed yet, rising or falling. -/
def monotoneBreak (dir : Option Bool) (prev : Int) : Nat → List Int → Option Nat
  | _, [] => none
  | i, y :: r =>
    if y = prev then monotoneBreak dir y (i + 1) r
    else
      let up := decide (prev < y)
      match dir with
      | none => monotoneBreak (some up) y (i + 1) r
      | some d => if d = up then monotoneBreak dir y (i + 1) r else some i

/-- R665: offset of the first entry of a table which is not monotone. -/
def tableBreak (b : List Byte) : Option Nat :=
  match (List.range (tableN b)).map fun (i : Nat) => positKey 32 (tableEntry b i) with
  | [] => none
  | y :: r => (monotoneBreak none y 1 r).map fun i => 64 + 4 * i

/-- R667: the offset which a faulty table image gives. -/
def tableFault (mono : Bool) (b : List Byte) : Option Nat :=
  if !imageCrcOk b 60 then some 60
  else (tableFieldFault b).or (if mono then tableBreak b else none)

/-! ### Micro-program images (R669, R671, R672) -/

/-- Bytes of a micro-program image. -/
abbrev mprogBytes : Nat := 576

/-- A step of a micro-program (R671). -/
structure MStep where
  op : Nat
  x : Nat
  bimm : Bool
  d : Nat
  a : Nat
  c : Nat
  b : Nat
  imm : Nat
  deriving DecidableEq, Repr

/-- R671: the step at an index of an image. -/
def mstep (img : List Byte) (i : Nat) : MStep :=
  let o := 64 + 8 * i
  let b1 := fieldNat img (o + 1) 1
  let b3 := fieldNat img (o + 3) 1
  { op := fieldNat img o 1, x := b1 / 16 % 4, bimm := b1.testBit 3, d := b1 % 8, a := fieldNat img (o + 2) 1 % 8
    c := b3 / 16 % 8, b := b3 % 8, imm := fieldNat img (o + 4) 4 }

/-- STEPS of an image (R669). -/
def mprogSteps (img : List Byte) : Nat := fieldNat img 6 2

/-- R672: the step at an index is ill-formed. -/
def mstepBad (img : List Byte) (i : Nat) : Bool :=
  let o := 64 + 8 * i
  let t := mstep img i
  decide (t.op < 1) || decide (7 < t.op) || decide (64 ≤ fieldNat img (o + 1) 1) || decide (8 ≤ fieldNat img (o + 2) 1) ||
    (fieldNat img (o + 3) 1).testBit 7 || (fieldNat img (o + 3) 1).testBit 3 || (t.op != 5 && t.c != 0) ||
    (if t.bimm then t.imm == nar 32 else t.imm != 0) || (t.op == 5 && t.x == 3)

/-- R669: the first field, byte or step of a micro-program image without a legal value; steps from STEPS on are zero.
(Log entry 92 DEDUCED.) -/
def mprogFieldFault (arg : Nat) (b : List Byte) : Option Nat :=
  firstFailing <|
    [(0, fieldNat b 0 4 != 0x4752504D), (4, fieldNat b 4 2 != 1), (6, mprogSteps b != arg)] ++
    ((List.range 52).map fun (i : Nat) => (8 + i, fieldNat b (8 + i) 1 != 0)) ++
    (List.range 64).map fun (i : Nat) => (64 + 8 * i, decide (arg ≤ i) && fieldNat b (64 + 8 * i) 8 != 0)

/-- R667, R672: the offset which a faulty micro-program image gives. -/
def mprogFault (arg : Nat) (b : List Byte) : Option Nat :=
  if !imageCrcOk b 60 then some 60
  else (mprogFieldFault arg b).or
    (((List.range arg).find? fun (i : Nat) => mstepBad b i).map fun i => 64 + 8 * i)

/-! ### TABLE_LOAD and MICROPROG_LOAD (R297, R298, R411, R412, R668) -/

/-- R411: SLOT, ARG and SRC_ADDR; `badArg` tells whether ARG is illegal. -/
def chkSlotLoad (p : Packet) (badArg : Bool) : Option Rej :=
  (badField (decide (7 < (p.u8 8).toNat)) 8).or <| (badField badArg 9).or <|
  badField (p.u64 16 == 0 || p.u64 16 % 64 != 0) 16

/-- The load which an accepted command starts. -/
def slotLoad (fn : FnNo) (p : Packet) (id : Nat) : SlotLoad :=
  { id, stratum := fn, slot := (p.u8 8).toNat, arg := (p.u8 9).toNat }

/-- TABLE_LOAD in R375. -/
def specTableLoad : CmdSpec := { op := 0x62, len := 24, used := usedBits [(8, 1), (9, 1), (16, 8)], long := true }

/-- R411: TABLE_LOAD. -/
def execTableLoad (fn : FnNo) (qp : QpNo) (pkt : Packet) (s : State) : Host.Outcome State Fault Refusal :=
  .next (longCommand specTableLoad fn qp pkt (fun _ => chkSlotLoad pkt (decide (1 < (pkt.u8 9).toNat))) (fun _ => none)
    (fun id t => { t with tableLoads := t.tableLoads ++ [slotLoad fn pkt id] }) (fun _ t => t) s)

/-- MICROPROG_LOAD in R375. -/
def specMicroprogLoad : CmdSpec := { op := 0x63, len := 24, used := usedBits [(8, 1), (9, 1), (16, 8)], long := true }

/-- R411: MICROPROG_LOAD. -/
def execMicroprogLoad (fn : FnNo) (qp : QpNo) (pkt : Packet) (s : State) : Host.Outcome State Fault Refusal :=
  .next (longCommand specMicroprogLoad fn qp pkt
    (fun _ => chkSlotLoad pkt (pkt.u8 9 == 0 || decide (64 < (pkt.u8 9).toNat))) (fun _ => none)
    (fun id t => { t with mprogLoads := t.mprogLoads ++ [slotLoad fn pkt id] }) (fun _ t => t) s)

/-- R298: a channel-frame of the stratum without a result runs on a prior copy of a slot. (Log entry 111 DEDUCED.) -/
def State.priorKept (s : State) (n : FnNo) (prior : Frame → Bool) : Bool :=
  (s.frames.filter (s.ownsFrame n)).any fun f => f.launch.isSome && f.stage != .forwarding && prior f

/-- R667: an image which was read ends its load: `fault` is the offset at which it fails, `write` puts it in its slot.
(Log entry 111 DEDUCED.) -/
def endSlotLoad (x : SlotLoad) (fail : Option W64) (fault : Option Nat) (write : State → State) (s : State) : State :=
  match fail, fault with
  | some a, _ => s.complete x.id stOutOfRange 16 0 0 (a.setWidth 192)
  | none, some o => s.complete x.id stImageInvalid 0 0 0 (dataInvalid o)
  | none, none => (write s).completeOk x.id 0 0

/-- R298, R412, R665, R667, R668, R1144: the image of the oldest TABLE_LOAD of a stratum's slot has been read.
(Log entry 111 DEDUCED.) -/
def tableImageCheck (n : FnNo) (slot : Fin 8) (host : List Byte) (fail : Option W64) (s : State) : State :=
  match s.tableLoads.find? fun x => x.stratum == n && x.slot == slot.val with
  | none => s
  | some x =>
    if !s.fns[n].busMaster || s.priorKept n fun f => f.tables[slot] != (s.tables[n])[slot] then s
    else
      let img := loadBytes tableBytes host
      let mono := x.arg == 1
      let t : State := { s with tableLoads := s.tableLoads.filter fun y => y != x }
      endSlotLoad x fail (tableFault mono img) (fun u =>
        { u with tables := vmod u.tables n fun v => vmod v slot fun _ => { image := img, monotone := mono } }) t

/-- R667: TABLE_IMAGE_CHECK. -/
def execTableImageCheck (stratum : FnNo) (slot : Fin 8) (host : List Byte) (fail : Option W64) (s : State) :
    Host.Outcome State Fault Refusal :=
  .next (tableImageCheck stratum slot host fail s)

/-- R298, R412, R667 to R669, R672, R1144: the image of the oldest MICROPROG_LOAD of a stratum's slot has been read.
(Log entry 111 DEDUCED.) -/
def mprogImageCheck (n : FnNo) (slot : Fin 8) (host : List Byte) (fail : Option W64) (s : State) : State :=
  match s.mprogLoads.find? fun x => x.stratum == n && x.slot == slot.val with
  | none => s
  | some x =>
    if !s.fns[n].busMaster || s.priorKept n fun f => f.mprogs[slot] != (s.mprogs[n])[slot] then s
    else
      let img := loadBytes mprogBytes host
      let t : State := { s with mprogLoads := s.mprogLoads.filter fun y => y != x }
      endSlotLoad x fail (mprogFault x.arg img) (fun u =>
        { u with mprogs := vmod u.mprogs n fun v => vmod v slot fun _ => img }) t

/-- R672: MICROPROG_IMAGE_CHECK. -/
def execMicroprogImageCheck (stratum : FnNo) (slot : Fin 8) (host : List Byte) (fail : Option W64) (s : State) :
    Host.Outcome State Fault Refusal :=
  .next (mprogImageCheck stratum slot host fail s)

end Sys2Proof.Machine
end

