-- ==== Sys2Proof/Machine/MemCmds.lean ====
section
/-!
DEFINITION. The memory commands (07): MEM_ALLOC, MEM_FREE and MEM_MAP_EXTERNAL.
-/

namespace Sys2Proof.Machine

/-! ### MEM_ALLOC (R347 to R351) -/

/-- MEM_ALLOC in R306. -/
def specMemAlloc : CmdSpec := { op := 0x20, len := 16, used := usedBits [(8, 1), (16, 8)] }

/-- KIND 0x01: external memory. -/
def Packet.memExt (p : Packet) : Bool := p.u8 8 == 1

/-- Bytes of a granule, or of a page. -/
def partBytes (ext : Bool) : Nat := if ext then pageBytes else granuleBytes

/-- Granules or pages which SIZE asks for. -/
def Packet.memParts (p : Packet) : Nat := (p.u64 16).toNat / partBytes (Packet.memExt p)

/-- R347: check 6 of MEM_ALLOC. -/
def chkMemAlloc (p : Packet) : Option Rej :=
  let size := (p.u64 16).toNat
  let ext := Packet.memExt p
  (badField (decide (1 < p.u8 8)) 8).or <|
  badField (size == 0 || size % partBytes ext != 0 || decide ((if ext then 0x800000000 else 0x80000000) < size)) 16

/-- R312, R348: check 9 of MEM_ALLOC. (Log entry 29 DEDUCED.) -/
def resMemAlloc (n : FnNo) (p : Packet) (s : State) : Option Rej :=
  let ext := Packet.memExt p
  let k := Packet.memParts p
  let st := s.strata[n]
  let held := heldParts (if ext then st.ext else st.arena)
  let quota := if ext then st.extQuota else st.arenaQuota
  let free := if ext then (s.freePages k).length else s.freeGranules
  (overQuota (n.val != 0 && decide (quota < held + k)) quota (if ext then 3 else 2) (held + k)).or <|
  (noResource (decide (free < k)) 4).or <| noResource (s.allocBase n ext k).isNone 5

/-- R349 to R351: the allocation. -/
def memAlloc (n : FnNo) (p : Packet) (s : State) : State × Res :=
  match s.allocBase n (Packet.memExt p) (Packet.memParts p) with
  | none => (s, {})
  | some base =>
    (s.allocate n (Packet.memExt p) base (Packet.memParts p), { r0 := BitVec.ofNat 64 base, r1 := p.u64 16 })

/-- R347 to R351: MEM_ALLOC. -/
def execMemAlloc (fn : FnNo) (qp : QpNo) (pkt : Packet) (s : State) : Host.Outcome State Fault Refusal :=
  .next (shortCommand specMemAlloc fn qp pkt (fun _ => chkMemAlloc pkt) (resMemAlloc fn pkt) (memAlloc fn pkt) s)

/-! ### MEM_FREE (R352 to R355, R929) -/

/-- MEM_FREE in R306. -/
def specMemFree : CmdSpec := { op := 0x21, len := 16, used := usedBits [(8, 1), (16, 8)] }

/-- The live allocation which MEM_FREE names. -/
def State.namedAlloc (s : State) (n : FnNo) (p : Packet) : Option Alloc :=
  (if Packet.memExt p then s.strata[n].ext else s.strata[n].arena).find? fun a => a.base == (p.u64 16).toNat

/-- The ranges of a stratum's view which a program or a Slate output names: first address and address after the last
(R354, R929). A PROG_LOAD which has no completion counts as a loaded program. (Log entry 146 DESIGN CHOICE.) -/
def State.namedRanges (s : State) (n : FnNo) : List (Nat × Nat) :=
  let areas := fun (ctx : List Byte) (o : SlateOut) => (outputAreas ctx o).map fun a => (a.2.1, a.2.1 + a.2.2)
  ((s.progs.filter fun g => g.stratum == n).map fun g => (g.arena, g.arena + fieldNat g.header 16 8)) ++
  ((s.chans.filter fun x => x.stratum == n).map fun x => areas x.slate.image x.slate.out).flatten ++
  ((s.frames.filter fun f => (f.stage == .opened || f.stage == .conditioning) &&
      (match s.chan f.chan with | some x => x.stratum == n | none => false)).map fun f => areas f.ctx f.out).flatten

/-- R354: bytes `lo` to `hi` - 1 of a stratum's view hold one which something in use names. -/
def State.inUse (s : State) (n : FnNo) (lo hi : Nat) : Bool :=
  ((s.namedRanges n).any fun r => decide (r.1 < r.2) && decide (r.1 < hi) && decide (lo < r.2)) ||
    s.copies.any fun j => j.stratum == n && (j.srcNames lo hi || j.dstNames lo hi)

/-- R353, R354: checks 6 to 8 of MEM_FREE. -/
def chkMemFree (n : FnNo) (p : Packet) (s : State) : Option Rej :=
  let named := match s.namedAlloc n p with
    | none => false
    | some a =>
      s.inUse n a.base (a.base + partBytes (Packet.memExt p) * a.parts.length)
  (badField (decide (1 < p.u8 8)) 8).or <| (badState named).or <|
  outOfRange (s.namedAlloc n p).isNone 16 (p.u64 16) 0

/-- R355: the whole allocation is freed. -/
def memFree (n : FnNo) (p : Packet) (s : State) : State × Res :=
  match s.namedAlloc n p with
  | none => (s, {})
  | some a => (s.release n (Packet.memExt p) a, {})

/-- R352 to R355: MEM_FREE. -/
def execMemFree (fn : FnNo) (qp : QpNo) (pkt : Packet) (s : State) : Host.Outcome State Fault Refusal :=
  .next (shortCommand specMemFree fn qp pkt (chkMemFree fn pkt) (fun _ => none) (memFree fn pkt) s)

/-! ### MEM_MAP_EXTERNAL (R356, R357) -/

/-- MEM_MAP_EXTERNAL in R306. -/
def specMemMapExternal : CmdSpec := { op := 0x22, len := 8, used := usedBits [(8, 8)] }

/-- R356: check 6 of MEM_MAP_EXTERNAL. -/
def chkMapExternal (p : Packet) : Option Rej :=
  let b := (p.u64 8).toNat
  badField (b % 0x100000 != 0 || decide (b < 0x010000000000) || decide (0x0107FFF00000 < b)) 8

/-- R356, R357: MEM_MAP_EXTERNAL. -/
def execMemMapExternal (fn : FnNo) (qp : QpNo) (pkt : Packet) (s : State) : Host.Outcome State Fault Refusal :=
  .next (shortCommand specMemMapExternal fn qp pkt (fun _ => chkMapExternal pkt) (fun _ => none)
    (fun t => (t.modStratum fn fun x => { x with aperture := (pkt.u64 8).toNat },
      { r0 := BitVec.ofNat 64 t.strata[fn].aperture })) s)

end Sys2Proof.Machine
end

