-- ==== Sys2Proof/Machine/Mica.lean ====
section
/-!
DEFINITION. The Mica unit (14): the built-in functions with their domains, flushes and bounds, interpolation tables,
and the two soft-maximum methods.
-/

namespace Sys2Proof.Machine

/-! ### Built-in functions (R641, R647 to R653) -/

/-- R652: the function flushes this argument to zero. -/
def micaFlush (func : Nat) (x : Int) : Bool :=
  let tiny := decide (x.natAbs < 2 ^ (fxBits - 48))
  if func = 1 || func = 7 then decide (x < -64 * fxOne)
  else if func = 2 then decide (x < -92 * fxOne)
  else if func = 9 || func = 0xA || func = 0xB then tiny || decide (x < -16 * fxOne)
  else if func = 0xC then tiny || decide (x < -96 * fxOne)
  else false

/-- R647: the argument lies in the function's domain. -/
def micaDomain (func : Nat) (x : Int) : Bool :=
  if func = 3 || func = 5 then decide (0 < x) else if func = 4 then x != 0 else true

/-- e^x. Beyond 130 it only saturates. -/
def expValue (x : Int) : Int := fxExp (min x (130 * fxOne))

/-- 2^x. -/
def exp2Value (x : Int) : Int :=
  let y := min x (130 * fxOne)
  let k := y / fxOne
  let m := fxExp (fxMul (y - k * fxOne) fxLn2)
  if 0 ≤ k then m * 2 ^ k.toNat else m / 2 ^ (-k).toNat

/-- tanh x. -/
def tanhValue (x : Int) : Int :=
  let y := max (-100 * fxOne) (min (100 * fxOne) x)
  let e := fxExp (-2 * y.natAbs)
  y.sign * fxDiv (fxOne - e) (fxOne + e)

/-- R647: the exact value of a built-in function, within its domain. -/
def micaValue (func : Nat) (x : Int) : Int :=
  if func = 1 then expValue x
  else if func = 2 then exp2Value x
  else if func = 3 then fxLog2 x.toNat (2 ^ fxBits)
  else if func = 4 then x.sign * fxDiv fxOne x.natAbs
  else if func = 5 then fxSqrt (2 ^ fxBits) x.toNat
  else if func = 6 then tanhValue x
  else if func = 7 then fxSigmoid x
  else if func = 8 then x.sign * fxErf x.natAbs
  else
    let y := min x (100 * fxOne)
    if func = 9 then fxGate x ((fxOne + fxErf (fxDiv y (fxSqrt 2 1))) / 2)
    else if func = 0xA then
      fxGate x (fxSigmoid (2 * fxMul (fxOf 7978845608 (10 ^ 10)) (y + fxMul (fxOf 44715 (10 ^ 6)) (fxMul y (fxMul y y)))))
    else if func = 0xB then fxGate x (fxSigmoid (y * 1702 / 1000))
    else fxGate x (fxSigmoid y)

/-- R649: the bound of a result in halves of an ulp, for an argument and an output format.
(Log entry 112 DESIGN CHOICE.) -/
def micaBound (func outFmt : Nat) (compat : Bool) (x : Int) : Nat :=
  let pick := fun (a b c d : Nat) => if compat then d else if outFmt = 0 then a else if outFmt = 1 then b else c
  if func = 1 then pick 1 1 (if x ≤ 64 * fxOne then 2 else 8) 4
  else if func = 2 then pick 1 1 (if x ≤ 92 * fxOne then 2 else 8) 4
  else if func = 3 then
    if 15 * fxOne ≤ 16 * x ∧ 16 * x ≤ 17 * fxOne then pick 1 4 16 8 else pick 1 2 2 4
  else if func = 4 then pick 1 1 2 2
  else if func = 5 then pick 1 2 2 4
  else if func = 8 then pick 1 2 (if x.natAbs < 2 * 2 ^ fxBits then 4 else 8) 0
  else pick 1 2 4 4

/-- R651: SIGMOID, TANH and ERF do not exceed 1. (Log entry 112 DESIGN CHOICE.) -/
def micaClamp (func n : Nat) (v : Int) (r : Nat) : Nat :=
  if (func = 6 || func = 7 || func = 8) && decide (positKey n (2 ^ (n - 2)) < positKey n r) then fxToPosit n v else r

/-- R640, R641, R647 to R649, R651 to R653: the result of a built-in function for an input pattern. Where the bound leaves
a choice `choice` makes it; TANH and ERF are odd. -/
def micaWith (choice : Nat → Nat) (func inFmt outFmt : Nat) (compat : Bool) (p : Nat) : Nat :=
  let m := fmtBits inFmt
  let n := fmtBits outFmt
  if p % 2 ^ m = nar m then nar n
  else
    let x := fxOfPosit m p
    if !micaDomain func x then nar n
    else if micaFlush func x then 0
    else
      let flip := (func = 6 || func = 8) && decide (x < 0)
      let q := if flip then positNeg m p else p % 2 ^ m
      let y := if flip then -x else x
      let v := micaValue func y
      let r := micaClamp func n v (boundedPosit n (micaBound func outFmt compat y) (fun _ => choice q) v)
      if flip then positNeg n r else r

/-- R650: two arguments, the lower first, lie in one interval of the table on which the function does not decrease. -/
def micaRises (func : Nat) (x y : Int) : Bool :=
  if func = 3 then decide (0 < x)
  else if func = 4 || func = 5 then false
  else if func = 9 || func = 0xA || func = 0xB then decide (-3 * fxOne ≤ 4 * x)
  else if func = 0xC then decide (-41 * fxOne ≤ 32 * x)
  else decide (x ≤ y)

/-- R650: two arguments, the lower first, lie in one interval of the table on which the function does not increase. -/
def micaFalls (func : Nat) (x y : Int) : Bool :=
  if func = 4 then decide (y < 0) || decide (0 < x)
  else if func = 5 then decide (0 < x)
  else if func = 9 || func = 0xA || func = 0xB then decide (4 * y ≤ -3 * fxOne)
  else if func = 0xC then decide (32 * y ≤ -41 * fxOne)
  else false

/-- R518, R650: the results `u` and `v` for the arguments `x` < `y` stand in the order of the table. -/
def micaOrdered (func n : Nat) (x y : Int) (u v : Nat) : Bool :=
  (!micaRises func x y || decide (positKey n u ≤ positKey n v)) && (!micaFalls func x y || decide (positKey n v ≤ positKey n u))

/-- R650: with these choices the function is monotone on each interval of the table, in formats.
(Log entry 156 DESIGN CHOICE.) -/
def micaMonotone (choice : Nat → Nat) (func inFmt outFmt : Nat) (compat : Bool) : Bool :=
  let m := fmtBits inFmt
  decide (∀ p < 2 ^ m, ∀ q < 2 ^ m, p = nar m ∨ q = nar m ∨ ¬ fxOfPosit m p < fxOfPosit m q ∨
    micaOrdered func (fmtBits outFmt) (fxOfPosit m p) (fxOfPosit m q) (micaWith choice func inFmt outFmt compat p)
      (micaWith choice func inFmt outFmt compat q) = true)

/-- R640, R641, R647 to R653, R674: the result of a built-in function for an input pattern. Where the bound leaves a choice
it is the choice of the Mica version, when its choices are monotone as R650 has it; else the value is rounded once.
(Log entries 112 DESIGN CHOICE, 156 DESIGN CHOICE.) -/
def micaBuiltin (version func inFmt outFmt : Nat) (compat : Bool) (p : Nat) : Nat :=
  let choice := if compat then Config.micaCompat version func else Config.micaNear version func inFmt outFmt
  micaWith (fun q => if micaMonotone choice func inFmt outFmt compat then choice q else 2 ^ 32) func inFmt outFmt compat p

/-! ### Operands (R639) -/

/-- The patterns of a run of elements of a format. -/
def unpack (fmt n : Nat) (b : List Byte) : List Nat :=
  (List.range n).map fun (i : Nat) => fieldNat b (fmtBits fmt / 8 * i) (fmtBits fmt / 8)

/-- The bytes of a run of elements of a format. -/
def pack (fmt : Nat) (l : List Nat) : List Byte := (l.map fun x => leBytes (fmtBits fmt / 8) x).flatten

/-- R639: the elements of an element-layout source. -/
def State.micaElements (s : State) (r : Run) (i : Nat) (o : MicaOp) : List Nat :=
  unpack o.inFmt (32 * o.count) (s.windowRead r i o.src (o.areaBytes o.inFmt))

/-- R639: the rows of a row-layout source. -/
def State.micaRows (s : State) (r : Run) (i : Nat) (o : MicaOp) : List (List Nat) :=
  (List.range 32).map fun (k : Nat) =>
    unpack o.inFmt o.count (s.windowRead r i (o.src + k * o.rowBytes o.inFmt) (o.count * (fmtBits o.inFmt / 8)))

/-- R639: rows are written to a row-layout destination. -/
def State.micaWriteRows (s : State) (r : Run) (i : Nat) (o : MicaOp) (rows : List (List Nat)) : State :=
  s.forEach ((List.range rows.length).zip rows) fun x t =>
    t.windowWrite r i (o.dst + x.1 * o.rowBytes o.outFmt) (pack o.outFmt x.2)

/-- A vector of 32 posit32 at an offset of the window. -/
def State.micaVector (s : State) (r : Run) (i off : Nat) : List Nat := unpack 2 32 (s.windowRead r i off 128)

/-- The MICA operation at the head of the F queue issues, when its FUNC is such: `body` has its frame and its fields, and
does its whole work. -/
def onMica (is : MicaOp → Bool) (l : LogNo) (body : Run → Nat → Frame → MicaOp → State → State) : State → State :=
  onHead opcMica (fun u => is (micaOp u)) l fun r i p k s =>
    match s.frame r.chan r.seq.toNat with
    | some f => (body r i f (micaOp (p.uop k)) (s.issue r i (Flight.start k 0))).flightDone r i k
    | none => s

/-- A function of single elements. -/
def onElements (is : MicaOp → Bool) (f : State → Frame → MicaOp → Nat → Nat) (l : LogNo) : State → State :=
  onMica is l fun r i g o s =>
    s.windowWrite r i o.dst (pack o.outFmt ((s.micaElements r i o).map (f s g o)))

/-- A built-in function of a channel-frame. -/
def builtinOf (s : State) (f : Frame) (o : MicaOp) (p : Nat) : Nat :=
  micaBuiltin s.micaVersion o.func o.inFmt o.outFmt (o.compat f.compat) p

/-- A built-in function by FUNC. -/
def builtinRow (func : Nat) (l : LogNo) : State → State := onElements (fun o => o.func == func) builtinOf l

/-- R647: EXP. -/
def execMicaExp (cluster : LogNo) (s : State) : Host.Outcome State Fault Refusal := .next (builtinRow 1 cluster s)
/-- R647: EXP2. -/
def execMicaExp2 (cluster : LogNo) (s : State) : Host.Outcome State Fault Refusal := .next (builtinRow 2 cluster s)
/-- R647: LOG2. -/
def execMicaLog2 (cluster : LogNo) (s : State) : Host.Outcome State Fault Refusal := .next (builtinRow 3 cluster s)
/-- R647: RECIP. -/
def execMicaRecip (cluster : LogNo) (s : State) : Host.Outcome State Fault Refusal := .next (builtinRow 4 cluster s)
/-- R647: RSQRT. -/
def execMicaRsqrt (cluster : LogNo) (s : State) : Host.Outcome State Fault Refusal := .next (builtinRow 5 cluster s)
/-- R647: TANH. -/
def execMicaTanh (cluster : LogNo) (s : State) : Host.Outcome State Fault Refusal := .next (builtinRow 6 cluster s)
/-- R647: SIGMOID. -/
def execMicaSigmoid (cluster : LogNo) (s : State) : Host.Outcome State Fault Refusal := .next (builtinRow 7 cluster s)
/-- R647: ERF. -/
def execMicaErf (cluster : LogNo) (s : State) : Host.Outcome State Fault Refusal := .next (builtinRow 8 cluster s)
/-- R647: GELU_ERF. -/
def execMicaGeluErf (cluster : LogNo) (s : State) : Host.Outcome State Fault Refusal := .next (builtinRow 9 cluster s)
/-- R647: GELU_TANH. -/
def execMicaGeluTanh (cluster : LogNo) (s : State) : Host.Outcome State Fault Refusal := .next (builtinRow 0xA cluster s)
/-- R647: GELU_SIG. -/
def execMicaGeluSig (cluster : LogNo) (s : State) : Host.Outcome State Fault Refusal := .next (builtinRow 0xB cluster s)
/-- R647: SILU. -/
def execMicaSilu (cluster : LogNo) (s : State) : Host.Outcome State Fault Refusal := .next (builtinRow 0xC cluster s)

/-! ### Tables (R641, R664) -/

/-- The value of a posit32 which is a number, in units of 2^-120. -/
def real32 (p : Nat) : Int := (decodePosit 32 p).getD 0

/-- A posit of another format, or of this one, in units of 2^-120. -/
def realOf (fmt p : Nat) : Int := (decodePosit (fmtBits fmt) p).getD 0 * 2 ^ (120 - posScale (fmtBits fmt))

/-- R664: a table's value at `x`, in units of 2^-120, as a numerator and a denominator. -/
def tableValue (img : List Byte) (x : Int) : Int × Nat :=
  let d := x - real32 (tableX0 img)
  let den : Nat := 2 ^ (120 + tableH img).toNat
  let y := fun (i : Nat) => real32 (tableEntry img i)
  let n := tableN img
  if d ≤ 0 then (y 0, 1)
  else if ((n - 1) * den : Nat) ≤ d then (y (n - 1), 1)
  else
    let i := (d / den).toNat
    (y i * den + d % den * (y (i + 1) - y i), den)

/-- R664: a table evaluated at a pattern; an empty slot gives NaR (R671). -/
def tableAt (img : List Byte) (inFmt outFmt p : Nat) : Nat :=
  let n := fmtBits outFmt
  if img.isEmpty || p % 2 ^ fmtBits inFmt == nar (fmtBits inFmt) then nar n
  else
    let v := tableValue img (realOf inFmt p)
    roundPosit n v.1 (v.2 * 2 ^ 120)

/-- The table slot which a FUNC names, as the channel-frame found it. -/
def tableOf (_ : State) (f : Frame) (o : MicaOp) (p : Nat) : Nat :=
  tableAt f.tables[(Fin.ofNat 8 (o.func - 0x20) : Fin 8)].image o.inFmt o.outFmt p

/-- R664: TABLE. -/
def tableRow (l : LogNo) : State → State := onElements MicaOp.table tableOf l

/-- R664: MICA_TABLE. -/
def execMicaTable (cluster : LogNo) (s : State) : Host.Outcome State Fault Refusal := .next (tableRow cluster s)

/-! ### The soft maximum (R654 to R661, R1135) -/

/-- R1135: E(d), d in units of 2^-120, as a posit32, where `choice` makes the choice which the bound leaves. -/
def expWith (choice : Int → Nat) (d : Int) : Nat :=
  let x := d * 2 ^ (fxBits - 120)
  if micaFlush 1 x then 0 else boundedPosit 32 (micaBound 1 2 false x) (fun _ => choice d) (expValue x)

/-- R650, R1135: with these choices E is monotone; a difference of two posit32 lies within ±2^241 units.
(Log entry 156 DESIGN CHOICE.) -/
def expMonotone (choice : Int → Nat) : Bool :=
  decide (∀ a : Nat, a < 2 ^ 242 → ∀ b : Nat, b < 2 ^ 242 → ¬ a < b ∨
    positKey 32 (expWith choice ((a : Int) - 2 ^ 241)) ≤ positKey 32 (expWith choice ((b : Int) - 2 ^ 241)))

/-- R650, R1135: E(d), d in units of 2^-120, as a posit32: with the choices of the Mica version when they are monotone, else
rounded once. (Log entries 112 DESIGN CHOICE, 156 DESIGN CHOICE.) -/
def expPosit (version : Nat) (d : Int) : Nat :=
  expWith (fun x => if expMonotone (Config.micaExp version) then Config.micaExp version x else 2 ^ 32) d

/-- R1135: E(d) in units of 2^-120. -/
def expUnits (version : Nat) (d : Int) : Int := real32 (expPosit version d)

/-- A row holds a NaR. (Log entry 113 DEDUCED.) -/
def rowNar (fmt : Nat) (row : List Nat) : Bool := row.any (· == nar (fmtBits fmt))

/-- R655: the state of a row after a chunk: `m` is the chunk maximum. (Log entry 113 DEDUCED.) -/
def smaxAcc (version fmt : Nat) (init : Bool) (mx sum m : Nat) (row : List Nat) : Nat × Nat :=
  let bad := rowNar fmt row || m == nar 32
  if bad || (!init && mx == nar 32) then (nar 32, nar 32)
  else
    let new := if init || decide (positKey 32 mx < positKey 32 m) then m else mx
    if !init && sum == nar 32 then (new, nar 32)
    else
      let terms := (row.map fun x => expUnits version (realOf fmt x - real32 new)).sum * 2 ^ 120
      let old := if init then 0 else real32 sum * expUnits version (real32 mx - real32 new)
      (new, roundPosit 32 (old + terms) (2 ^ 240))

/-- R654, R655: SMAX_ACC. -/
def smaxAccRow (l : LogNo) : State → State :=
  onMica (fun o => o.func == 0x10) l fun r i _ o s =>
    let rows := s.micaRows r i o
    let vec := s.micaVector r i (o.aux + 256)
    let old := unpack 2 64 (s.windowRead r i o.aux 256)
    let new := (List.range 32).map fun (k : Nat) =>
      let row := (rows[k]?).getD []
      let m := if o.vec then (vec[k]?).getD 0 else convertPosit (fmtBits o.inFmt) 32 (rowBest (fmtBits o.inFmt) false row)
      smaxAcc s.micaVersion o.inFmt o.init ((old[2 * k]?).getD 0) ((old[2 * k + 1]?).getD 0) m row
    s.windowWrite r i o.aux (pack 2 (new.map fun x => [x.1, x.2]).flatten)

/-- R655: SMAX_ACC. -/
def execSmaxAcc (cluster : LogNo) (s : State) : Host.Outcome State Fault Refusal := .next (smaxAccRow cluster s)

/-- 1 / v for a posit32 or a quire in units of 2^-scale, rounded to posit32; NaR for zero. (Log entry 113 DEDUCED.) -/
def recip32 (scale : Nat) (v : Int) : Nat :=
  if v = 0 then nar 32 else roundPosit 32 (v.sign * 2 ^ scale) v.natAbs

/-- R656: an element of SMAX_NORM. (Log entry 113 DEDUCED.) -/
def smaxNorm (version inFmt outFmt mx sum x : Nat) : Nat :=
  let n := fmtBits outFmt
  let q := if sum == nar 32 then nar 32 else recip32 120 (real32 sum)
  if mx == nar 32 || q == nar 32 || x == nar (fmtBits inFmt) then nar n
  else roundPosit n (expUnits version (realOf inFmt x - real32 mx) * real32 q) (2 ^ 240)

/-- R656: SMAX_NORM. -/
def smaxNormRow (l : LogNo) : State → State :=
  onMica (fun o => o.func == 0x11) l fun r i _ o s =>
    let rows := s.micaRows r i o
    let st := unpack 2 64 (s.windowRead r i o.aux 256)
    s.micaWriteRows r i o ((List.range 32).map fun (k : Nat) => ((rows[k]?).getD []).map
      (smaxNorm s.micaVersion o.inFmt o.outFmt ((st[2 * k]?).getD 0) ((st[2 * k + 1]?).getD 0)))

/-- R656: SMAX_NORM. -/
def execSmaxNorm (cluster : LogNo) (s : State) : Host.Outcome State Fault Refusal := .next (smaxNormRow cluster s)

/-- R661: e^x exceeds maxpos of a format. -/
def expExceeds (inFmt outFmt x : Nat) : Bool :=
  match decodePosit (fmtBits inFmt) x with
  | some _ => decide (posScale (fmtBits outFmt) * fxLn2 < fxOfPosit (fmtBits inFmt) x)
  | none => false

/-- R658: a quire32 with the posits of a row added. -/
def addRow (fmt : Nat) (q : Option Int) (row : List Nat) : Option Int :=
  row.foldl (fun a x => quireAdd 512 a ((decodePosit (fmtBits fmt) x).map fun v =>
    v * 2 ^ (quireScale 32 - posScale (fmtBits fmt)))) q

/-- R658, R659, R661: SMAX_1P. -/
def smax1pRow (l : LogNo) : State → State :=
  onMica (fun o => o.func == 0x12) l fun r i _ o s =>
    let rows := s.micaRows r i o
    let outs := rows.map fun row => row.map (micaBuiltin s.micaVersion 1 o.inFmt o.outFmt false)
    let old := s.windowRead r i o.aux 2048
    let quires := (List.range 32).map fun (k : Nat) =>
      addRow o.outFmt (if o.init then some 0 else quireOf 512 (fieldNat old (64 * k) 64)) ((outs[k]?).getD [])
    let fin := quires.map fun q => match q with | some v => recip32 (quireScale 32) v | none => nar 32
    let zeros := if o.fin then (quires.filter fun q => q == some 0).length else 0
    let exceeds := (rows.map fun row => (row.filter (expExceeds o.inFmt o.outFmt)).length).sum
    let t := (s.micaWriteRows r i o outs).windowWrite r i o.aux (quires.map fun q => leBytes 64 (quirePattern 512 q)).flatten
    let t := if o.fin then t.windowWrite r i (o.aux + 2048) (pack 2 fin) else t
    t.count r.stratum 5 (exceeds + zeros)

/-- R658: SMAX_1P. -/
def execSmax1p (cluster : LogNo) (s : State) : Host.Outcome State Fault Refusal := .next (smax1pRow cluster s)

/-- R660: an element of ROWSCALE. -/
def rowScaled (inFmt outFmt v x : Nat) : Nat :=
  let n := fmtBits outFmt
  if v == nar 32 || x == nar (fmtBits inFmt) then nar n else roundPosit n (realOf inFmt x * real32 v) (2 ^ 240)

/-- R660: ROWSCALE. -/
def rowscaleRow (l : LogNo) : State → State :=
  onMica (fun o => o.func == 0x13) l fun r i _ o s =>
    let rows := s.micaRows r i o
    let vec := s.micaVector r i o.aux
    s.micaWriteRows r i o ((List.range 32).map fun (k : Nat) =>
      ((rows[k]?).getD []).map (rowScaled o.inFmt o.outFmt ((vec[k]?).getD 0)))

/-- R660: ROWSCALE. -/
def execRowscale (cluster : LogNo) (s : State) : Host.Outcome State Fault Refusal := .next (rowscaleRow cluster s)

end Sys2Proof.Machine
end

