-- ==== Sys2Proof/Machine/Mprog.lean ====
section
/-!
DEFINITION. Micro-programs of the Mica unit (R669 to R673): their lanes, their steps, and how an operation goes through
its groups of 32 elements.
-/

namespace Sys2Proof.Machine

/-! ### Lanes (R670, R671) -/

/-- A lane: P0 to P7, Q and N. -/
structure MLane where
  regs : List Nat
  q : Option Int
  n : Int
  deriving DecidableEq, Repr

/-- R670: a lane at the start of an element. -/
def freshLane (p0 p1 : Nat) : MLane := { regs := [p0, p1, 0, 0, 0, 0, 0, 0], q := some 0, n := 0 }

/-- A register. -/
def MLane.reg (x : MLane) (i : Nat) : Nat := (x.regs[i]?).getD 0
/-- A register is written. -/
def MLane.set (x : MLane) (i v : Nat) : MLane := { x with regs := x.regs.set i v }

/-- The value of a posit32 in units of 2^-120, `none` for NaR. -/
def value32 (p : Nat) : Option Int := decodePosit 32 p

/-- R671: an operation on two posit32 values, in units of 2^-scale, rounded once; NaR with a NaR operand. -/
def op32 (scale : Nat) (f : Int → Int → Int) (a b : Nat) : Nat :=
  match value32 a, value32 b with
  | some x, some y => roundPosit 32 (f x y) (2 ^ scale)
  | _, _ => nar 32

/-- R671: N of RRED. -/
def reduceN (a b : Int) : Int :=
  if b = 0 then 0
  else max (-1023) (min 1023 (a.sign * b.sign * (roundEven a.natAbs b.natAbs : Nat)))

/-- R671: A × 2^N. -/
def scale32 (a : Nat) (n : Int) : Nat :=
  match value32 a with
  | none => nar 32
  | some x => if 0 ≤ n then roundPosit 32 (x * 2 ^ n.toNat) (2 ^ 120) else roundPosit 32 x (2 ^ (120 + (-n).toNat))

/-- R671: an integer of −1023 to 1023, N of a range reduction with a NaR operand; it depends on the operands alone (R640,
R673). (Log entry 106 DESIGN CHOICE.) -/
def openN (a b : Nat) : Int := ((Config.nanReduction a b).toNat % 2047 : Nat) - 1023

/-- R671: a step in a lane. `table` gives the image of a table slot. -/
def laneStep (table : Nat → List Byte) (t : MStep) (x : MLane) : MLane :=
  let a := x.reg t.a
  let b := if t.bimm then t.imm else x.reg t.b
  if t.op = 1 then x.set t.d (op32 240 (fun u v => u * v) a b)
  else if t.op = 2 then x.set t.d (op32 120 (fun u v => u + v) a b)
  else if t.op = 3 then
    let p := match value32 a, value32 b with
      | some u, some v => some (if t.x.testBit 0 then -(u * v) else u * v)
      | _, _ => none
    let q := quireAdd 512 x.q p
    if t.x.testBit 1 then { x.set t.d (quireToPosit 32 32 q) with q := some 0 } else { x with q }
  else if t.op = 4 then x.set t.d (tableAt (table t.b) 2 2 a)
  else if t.op = 5 then
    let u := positKey 32 a
    let v := positKey 32 b
    if (t.x = 0 && decide (u < v)) || (t.x = 1 && decide (u ≤ v)) || (t.x = 2 && u == v) then x.set t.d (x.reg t.c) else x
  else if t.op = 6 then
    match value32 a, value32 b with
    | some u, some v => let n := reduceN u v; { x.set t.d (roundPosit 32 (u - n * v) (2 ^ 120)) with n }
    | _, v => { x.set t.d (nar 32) with n := if v = some 0 then 0 else openN a b }
  else x.set t.d (scale32 a x.n)

/-! ### An operation (R639, R670) -/

/-- Groups of 32 lanes of an operation. (Log entry 114 DEDUCED.) -/
abbrev mprogLanes : Nat := 32

/-- The input of a lane in a group: element `32 g + k`, or in the row layout element `g` of row `k`.
(Log entry 114 DEDUCED.) -/
def State.mprogInput (s : State) (r : Run) (i : Nat) (o : MicaOp) (g k : Nat) : Nat :=
  let e := fmtBits o.inFmt / 8
  let off := if o.rowLayout then o.src + k * o.rowBytes o.inFmt + g * e else o.src + (32 * g + k) * e
  leNat (s.windowRead r i off e)

/-- R670: the lanes at the start of a group. -/
def State.mprogStart (s : State) (r : Run) (i : Nat) (o : MicaOp) (g : Nat) : List MLane :=
  let vec := s.micaVector r i o.aux
  (List.range mprogLanes).map fun (k : Nat) =>
    freshLane (convertPosit (fmtBits o.inFmt) 32 (s.mprogInput r i o g k)) (if o.vec then (vec[k]?).getD 0 else 0)

/-- A group's lanes as the run holds them. -/
def mprogRunOf (idx group step : Nat) (l : List MLane) : MprogRun :=
  { idx, group, step, regs := l.map (·.regs), quires := l.map (·.q), ints := l.map (·.n) }

/-- See `mprogRunOf`. -/
def MprogRun.lanes (m : MprogRun) : List MLane :=
  (List.range mprogLanes).map fun (k : Nat) =>
    { regs := (m.regs[k]?).getD [], q := (m.quires[k]?).getD none, n := (m.ints[k]?).getD 0 }

/-- A position's micro-program changes, or ends. -/
def State.setMprog (s : State) (r : Run) (i : Nat) (m : Option MprogRun) : State :=
  s.modRun r fun x => { x with mprogs := match m with | some v => spPut x.mprogs i v | none => spDel x.mprogs i }

/-- R670: the results of a group are written. -/
def State.mprogWrite (s : State) (r : Run) (i : Nat) (o : MicaOp) (g : Nat) (l : List MLane) : State :=
  let e := fmtBits o.outFmt / 8
  let outs := l.map fun x => leBytes e (convertPosit 32 (fmtBits o.outFmt) (x.reg 0))
  if o.rowLayout then
    s.forEach ((List.range outs.length).zip outs) fun x t => t.windowWrite r i (o.dst + x.1 * o.rowBytes o.outFmt + g * e) x.2
  else s.windowWrite r i (o.dst + 32 * g * e) outs.flatten

/-- R670: MPROG issues: its micro-program starts on the first group. -/
def mprogIssue (l : LogNo) : State → State :=
  onHead opcMica (fun u => (micaOp u).mprog) l fun r i p k s =>
    let o := micaOp (p.uop k)
    (s.issue r i (Flight.start k 0)).setMprog r i (some (mprogRunOf k 0 0 (s.mprogStart r i o 0)))

/-- R670: MICA_MPROG. -/
def execMicaMprog (cluster : LogNo) (s : State) : Host.Outcome State Fault Refusal := .next (mprogIssue cluster s)

/-- R671, R673: the lanes after a step. -/
def mprogLanesAfter (f : Frame) (t : MStep) (l : List MLane) : List MLane :=
  l.map (laneStep (fun b => f.tables[(Fin.ofNat 8 b : Fin 8)].image) t)

/-- The lanes of a group have taken their step: the next step, the next group, or the end of the operation.
(Log entry 114 DEDUCED.) -/
def State.mprogNext (s : State) (r : Run) (i : Nat) (o : MicaOp) (steps : Nat) (m : MprogRun) (l : List MLane) : State :=
  if m.step + 1 < steps then s.setMprog r i (some (mprogRunOf m.idx m.group (m.step + 1) l))
  else
    let t := s.mprogWrite r i o m.group l
    if m.group + 1 < o.count then
      t.setMprog r i (some (mprogRunOf m.idx (m.group + 1) 0 (t.mprogStart r i o (m.group + 1))))
    else (t.setMprog r i none).flightDone r i m.idx

/-- R671: the micro-program of a cluster takes its next step, if that is this operation. (Log entry 114 DEDUCED.) -/
def mprogStepRow (op : Nat) (l : LogNo) (s : State) : State :=
  match s.runAt l with
  | none => s
  | some (r, i) =>
    match r.pos i, spGet r.mprogs i, s.frame r.chan r.seq.toNat with
    | some p, some m, some f =>
      let o := micaOp (p.uop m.idx)
      let img := f.mprogs[(Fin.ofNat 8 (o.func - 0x30) : Fin 8)]
      let t := mstep img m.step
      if t.op ≠ op then s
      else
        s.mprogNext r i o (mprogSteps img) m (mprogLanesAfter f t m.lanes)
    | _, _, _ => s

/-- R671: MUL. -/
def execMul (cluster : LogNo) (s : State) : Host.Outcome State Fault Refusal := .next (mprogStepRow 1 cluster s)
/-- R671: ADD. -/
def execAdd (cluster : LogNo) (s : State) : Host.Outcome State Fault Refusal := .next (mprogStepRow 2 cluster s)
/-- R671: FMQ. -/
def execFmq (cluster : LogNo) (s : State) : Host.Outcome State Fault Refusal := .next (mprogStepRow 3 cluster s)
/-- R671: LUT. -/
def execLut (cluster : LogNo) (s : State) : Host.Outcome State Fault Refusal := .next (mprogStepRow 4 cluster s)
/-- R671: CSEL. -/
def execCsel (cluster : LogNo) (s : State) : Host.Outcome State Fault Refusal := .next (mprogStepRow 5 cluster s)
/-- R671: RRED. -/
def execRred (cluster : LogNo) (s : State) : Host.Outcome State Fault Refusal := .next (mprogStepRow 6 cluster s)
/-- R671: RSCALE. -/
def execRscale (cluster : LogNo) (s : State) : Host.Outcome State Fault Refusal := .next (mprogStepRow 7 cluster s)

end Sys2Proof.Machine
end

