-- ==== Sys2Proof/Machine/Reset.lean ====
section
/-!
DEFINITION. What resets and fatal conditions share (02, 03, 04, 23): the start-up phase and its cause bit, the end of
all work, the steps of the HOLDUP sequence, the levels of R112, and entry to a fatal condition.
-/

namespace Sys2Proof.Machine

/-! ### The start-up phase (R140, R141, R240, R316) -/

/-- A start-up phase begins: the tick at which the one before ended is kept. -/
def State.changePhase (s : State) (p : BitVec 4) (fail : BitVec 8) : State :=
  let i := s.boot.phase.toNat - 1
  let ends := if h : i < 8 then s.boot.phaseEnd.set i s.tick h else s.boot.phaseEnd
  { s with boot := { s.boot with phase := p, fail, phaseEnd := ends } }

/-- A start-up phase begins, and START is set on entry to READY, RECOVERY, FAILED and FATAL.
(Log entry 42 DEDUCED.) -/
def State.setPhase (s : State) (p : BitVec 4) (fail : BitVec 8) : State :=
  let t := s.changePhase p fail
  if p = phReady ∨ p = phRecovery ∨ p = phFailed ∨ p = phFatal then t.raiseAll causeStart else t

/-- The existing strata, as a mask of those which a reset or a fatal condition costs their work; before READY none has
any. (Log entry 40 DEDUCED.) -/
def State.costMask (s : State) : W16 :=
  if s.boot.phase = phReady then strataMask ((List.finRange 16).filter fun n => s.strata[n].live || s.strata[n].destroying) else 0

/-- R124: the cause of a reset is kept, and recorded in the fault log. (Log entry 40 DEDUCED.) -/
def State.noteCause (s : State) (c : BitVec 8) : State :=
  (({ s with boot := { s.boot with resetCause := c } }).fault 5 4 0xFFFF s.costMask 0 0xFF 0xFFFF (c.setWidth 224)).1

/-! ### The end of all work (R81, R112, R137, R1040) -/

/-- A port with nothing but its last reason, and its cage's supply (R1122). -/
def Port.silenced (p : Port) : Port := { Port.idle p.reason with cageOff := p.cageOff }

/-- Everything which runs stops: commands, copies, channel-frames, conditioning, lock-step and the ports.
(Log entry 43 DEDUCED.) -/
def State.stopWork (s : State) : State :=
  { s with
    outst := [], copies := [], deliveries := [], waits := [], barriers := [], progs := [], scheduled := []
    tableLoads := [], mprogLoads := [], runs := [], chans := [], frames := []
    stores := Vector.replicate 4 (Vector.replicate 16 EngStore.empty)
    pieces := Vector.replicate 4 [], loaded := Vector.replicate 4 none, lock := Lock.none, logReads := []
    remaps := [], ports := Vector.ofFn fun i => s.ports[i].silenced }

/-- RESULT0 and RESULT1 of a command which a HOLDUP or a module reset ends (R464): those of R381 for a PORT_TRAIN, zero
for the others. What a copy or load which ran had written stays as it was.
(Log entries 43 DEDUCED, 137 DESIGN CHOICE.) -/
def State.endResults (s : State) (o : Outst) : W64 × W64 :=
  if o.op = 0x40 then
    match (List.finRange 8).find? fun i => s.ports[i].cmd == some o.id with
    | some i => (s.ports[i].silenced.res, s.ports[i].partnerLow)
    | none => (0, 0)
  else (0, 0)

/-- R81 steps 1 and 2: the ports are silent; when the link is up, every accepted command ends with ST_TARGET_RESET of a
cause of R464, every short command which was read and has no reply is answered with it (R458), and every launched
channel-frame without a result gets one with ST_FRAME_ABORTED; the messages which announce results follow (R420).
(Log entry 137 DESIGN CHOICE.) -/
def State.tellHost (s : State) (cause : BitVec 8) : State :=
  let quiet := fun (u : State) => ({ u with ports := Vector.ofFn fun i => u.ports[i].silenced } : State)
  if !s.boot.linkL0 then quiet s
  else
    let t := quiet s
    let t := t.forEach s.outst fun o u =>
      u.complete o.id stTargetReset 0 (s.endResults o).1 (s.endResults o).2 (dataTargetReset 0xFFFF cause)
    t.forEach (List.finRange 16) fun n u =>
      ((u.resetShorts n).abortWaiting n).abortAll (u.unresolvedOf n) |>.announceAll n

/-- R81 step 3, R198: the link is down, and what the functions held for the host is gone. -/
def State.dropLink (s : State) : State :=
  { s with fns := Vector.ofFn Func.reset, outst := [], boot := { s.boot with linkL0 := false } }

/-- R81 steps 1 to 3. (Log entry 43 DEDUCED.) -/
def State.haltAll (s : State) (cause : BitVec 8) : State := (s.tellHost cause).stopWork.dropLink

/-- R81 step 4: the refresh under way stops and is journalled as interrupted, as far as the energy allows. Answers the
SEQ of its journal entry. -/
def stopPanel (x : State × Nat) : (State × Nat) × Option Nat :=
  match x.1.panel.refresh with
  | none => (x, none)
  | some r =>
    let y := State.budgeted x fun u => u.setDone r.entry 0x5A
    ((y.1.modPanel fun p => { p with refresh := none, draws := [] }, y.2), some r.entry)

/-- R78, R1048: fault records which wait are written into the slots of the sector in use which need no erase, as far as
the energy allows. (Log entry 38 DEDUCED.) -/
def commitHeld : Nat → State × Nat → State × Nat
  | 0, x => x
  | k + 1, x =>
    match x.1.faults.held with
    | [] => x
    | r :: rest =>
      if x.1.faults.slot % 64 = 0 ∨ x.1.faults.slot % 64 = 63 ∨ x.2 = 0 then x
      else
        let l := FaultLog.commit { x.1.faults with held := rest } r
        commitHeld k ({ x.1 with faults := l }, x.2 - 1)

/-- R1064: DETAIL of the minimal fault record. -/
def State.holdupDetail (s : State) (stopped : Nat) (op refresh : Option Nat) (left : Nat) : BitVec 224 :=
  BitVec.ofNat 224 (leNat (leBytes 2 s.sup.vinMain ++ leBytes 2 s.sup.vinAux ++ leBytes 1 s.sup.charge ++
    leBytes 1 stopped ++ leBytes 4 (op.getD 0xFFFFFFFF) ++ leBytes 4 (refresh.getD 0xFFFFFFFF) ++ leBytes 2 left))

/-- R1048, R1064: the minimal fault record is written into the last slot of the sector in use.
(Log entries 38 DEDUCED, 39 DEDUCED.) -/
def State.minimalRecord (s : State) (tick : Tick) (strata : W16) (detail : BitVec 224) : State :=
  let l := s.faults
  let slot := l.slot / 64 * 64 + 63
  let r : FaultRec :=
    { index := l.next, cls := 4, cause := 2, unit := 0xFFFF, tick, strata, action := 0, logical := 0xFF,
      newUnit := 0xFFFF, boot := l.boots, detail }
  let recs := (l.recs.filter fun x => x.1 ≠ slot) ++ [(slot, r)]
  { s with faults := { l with recs, next := l.next + 1, slot := (slot + 1) % 32768 } }

/-- R81 steps 4 and 5 with so many writes of energy left (R1146): the operations under way reach a safe point, and the
minimal fault record follows. (Log entries 38 DEDUCED, 83 DESIGN CHOICE.) -/
def State.safePoint (s : State) (writes : Nat) (tick : Tick) (strata : W16) : State :=
  let op := (s.nv.ops.head?.filter NvOp.started).bind NvOp.entry
  let a := State.endNvs (s, writes) fun _ => true
  let b := stopPanel (a.1, a.2.1)
  let stopped := a.2.2 + (if b.2.isSome then 4 else 0)
  let c := commitHeld b.1.1.faults.held.length b.1
  (State.budgeted c fun u => u.minimalRecord tick strata
    (u.holdupDetail stopped (if a.2.2 = 0 then none else op) b.2 u.faults.held.length)).1

/-! ### Levels of reset (R112) -/

/-- R1141, R198, R117: the PCIe side resets: the registers of every function, their commands, and what those had under way.
(Log entry 44 DEDUCED.) -/
def State.pcieReset (s : State) : State :=
  let t : State := (State.endNvs (s, allWrites) fun _ => true).1
  let drawn := match t.panel.refresh with | some r => r.opcode == 1 | none => false
  let t := (if drawn then t.stopRefresh else t).modPanel fun p => { p with draws := [] }
  { t with
    fns := Vector.ofFn Func.reset, outst := [], logReads := []
    sup := { t.sup with switched := false, shown := 0 }
    boot := { t.boot with vfEnable := false, numVfs := 0, d3hot := false } }

/-- R112, R127, R134, R137, R1011: a unit which a reset re-initialises; a retired one stays retired.
(Log entry 78 DEDUCED.) -/
def UnitSt.again (u : UnitSt) : UnitSt :=
  if u.retired then { u with draining := none, testing := [], own := u.own + 1 }
  else { UnitSt.fresh with epoch := u.epoch + 1, own := u.own + 1 }

/-- R139: a unit which a PLL out of lock fenced stays fenced. (Log entry 43 DEDUCED.) -/
def State.lockHeld (s : State) (w : W16) : Bool := s.boot.pllOut.any fun x => x.2.contains w

/-- R112: the units in the scope of a host reset. (Log entry 43 DEDUCED.) -/
def State.hostUnits (s : State) : Units :=
  let u := s.units
  let f := fun (w : W16) (x : UnitSt) => if s.lockHeld w then x else x.again
  { u with
    clusters := Vector.ofFn fun i => f (unitId 1 i.val) u.clusters[i]
    slates := Vector.ofFn fun i => f (unitId 3 i.val) u.slates[i]
    copies := Vector.ofFn fun i => f (unitId 4 i.val) u.copies[i]
    ports := Vector.ofFn fun i => f (unitId 5 i.val) u.ports[i] }

/-- R112: every unit is re-initialised. (Log entry 43 DEDUCED.) -/
def Units.again (u : Units) : Units :=
  { clusters := u.clusters.map UnitSt.again, banks := u.banks.map UnitSt.again, slates := u.slates.map UnitSt.again
    copies := u.copies.map UnitSt.again, ports := u.ports.map UnitSt.again, lanes := u.lanes.map UnitSt.again
    exts := u.exts.map UnitSt.again, ctrls := u.ctrls.map UnitSt.again, segs := u.segs.map UnitSt.again }

/-- What every reset of the compute side leaves (R112, R160, R175, R178): no stratum but 0, empty Geode memory and
clusters, no allocation, nothing loaded, and counters at zero. The key of stratum 0 is new (R493). `reason` is why
the ports are DISABLED. (Log entries 43 DEDUCED, 52 DEDUCED.) -/
def State.wipe (s : State) (reason : BitVec 8) : State :=
  let d := s.draw
  let t := d.2.stopWork
  { t with
    strata := (Vector.replicate 16 Stratum.none).set 0 { Stratum.zero with key := some d.1 }
    geo := Geode.fresh, ext := { t.ext with mem := [], poisoned := [], events := [], toldAt := Vector.replicate 8 none }
    scratch := Vector.replicate 72 [], clusters := Vector.replicate 72 Cluster.fresh
    tables := Vector.replicate 16 (Vector.replicate 8 { image := [], monotone := false })
    mprogs := Vector.replicate 16 (Vector.replicate 8 [])
    ports := Vector.replicate 8 (Port.idle reason), lanes := Vector.replicate 32 LaneSt.idle
    repro := Vector.replicate 16 { current := none, due := false, next := 0 }
    telem := Telem.zero, slots := Slots.shared
    plans := { t.plans with hostCap := 175, selected := 1, cmds := [] } }

/-- R1083: T_J: the highest reading among sensors 0 to 79 which is not 0x8000. (Log entry 46 DEDUCED.) -/
def Thermal.tj (t : Thermal) : W16 :=
  (t.readings.toList.take 80).foldl (fun (m : W16) (v : W16) =>
    if v = 0x8000 then m else if m = 0x8000 || decide (m.toInt < v.toInt) then v else m) 0x8000

/-- R1100, R1102: the counters of the TEMPERATURE group are zero. (Log entries 46 DEDUCED, 88 DEDUCED.) -/
def Thermal.zeroCounters (t : Thermal) (tick : Tick) : Thermal :=
  { t with tjMax := t.tj, capTicks := 0, capFrom := tick, capEntries := 0, warnBit := false }

/-- R112, R178: a host reset of the compute side after READY.
(Log entries 43 DEDUCED, 46 DEDUCED, 49 DEDUCED, 52 DEDUCED.) -/
def State.hostWipe (s : State) : State :=
  let granted := ((List.finRange 16).filter fun n => n.val ≠ 0).map fun n => s.strata[n].panelGrant.toNat
  let units := s.hostUnits
  let t := s.forEach granted fun r u => u.whiten r
  let t := (t.wipe 2).stripChanged
  { t with
    units, thermal := t.thermal.zeroCounters t.tick
    toReplace := t.toReplace.filter fun x => units.clusters[x.2.1].retired }

/-- R144, R145: the image which the boot ROM starts: 0 A, 1 B, 0xFF none. -/
def State.pickImage (s : State) : BitVec 8 :=
  let a := if s.boot.abandonedA then none else s.slotValid 1
  let b := if s.boot.abandonedB then none else s.slotValid 2
  match a, b with
  | some x, some y => if x < y then 1 else 0
  | some _, none => 0
  | none, some _ => 1
  | none, none => 0xFF

/-- R144: the boot ROM tests both images and starts one. (Log entries 13 DESIGN CHOICE, 44 DEDUCED.) -/
def State.bootRom (s : State) : State :=
  let t : State := { s with boot := { s.boot with phase := phSupervisorBoot, fail := 0, abandonedA := false, abandonedB := false } }
  { t with boot := { t.boot with image := t.pickImage } }

/-- R493: stratum 0 gets a new key. (Log entries 44 DEDUCED, 52 DEDUCED.) -/
def State.newKey (s : State) : State :=
  let d := s.draw
  d.2.modStratum 0 fun x => { x with key := some d.1 }

/-- R112, R113, R116, R157, R178, R181, R493: a host reset. After READY it is followed by SCRUB; in RECOVERY the boot ROM selects an
image again; otherwise only the PCIe side resets. (Log entry 44 DEDUCED.) -/
def State.hostReset (s : State) (cause : BitVec 8) : State :=
  if !(s.sup.power == .standby || s.sup.power == .active) || s.boot.inReset then s
  else
    let phase := s.boot.phase
    let t := (s.noteCause cause).pcieReset
    if t.boot.fatal then (if phase = phReady ∨ phase = phScrub then t.hostWipe else t.newKey)
    else if phase = phReady ∨ phase = phScrub then (t.hostWipe.setPhase phScrub 0).settlePlan true
    else if phase = phRecovery then t.newKey.bootRom
    else t.newKey

/-- R112: what a module reset and a power-on reset clear; the supervisor then boots, unless MOD_RESET_N or TEST_EN holds
the processor in reset (R121). (Log entry 46 DEDUCED.) -/
def State.moduleWipe (s : State) : State :=
  let held := s.boot.modResetLow || s.boot.testEn
  let units := s.units.again
  let t := s.wipe 1
  let order := ([0, 4, 1, 5, 2, 6, 3, 7] : List ExtNo).filter fun c => units.exts[c].up
  let t : State := { t with
    fns := Vector.ofFn Func.reset, units, ext := { ExtMem.fresh with order }
    mapping := Vector.replicate 64 none, toReplace := []
    plans := { Plans.reset with inForce := t.plans.inForce }
    thermal := Thermal.reset
    sup := { t.sup with throttle := false, switched := false, shown := 0 }
    nv := { t.nv with ops := [], systemHeld := false, staged := false, reerase := [] }
    panel := { t.panel with
      draws := [], refresh := none, pending := false, glyph := false, changed := none, due := false
      redraw := none, touched := 0 }
    faults := { t.faults with boots := t.faults.boots + 1 }
    boot := { Boot.start with
      resetCause := t.boot.resetCause, perst := t.boot.perst, modResetLow := t.boot.modResetLow
      testEn := t.boot.testEn, pendingCause := t.boot.pendingCause, inReset := held
      phaseEnd := t.boot.phaseEnd, fatalLog := t.boot.fatalLog } }
  t.bootRom

/-- R112, R124, R1042: a module reset is applied. The fatal record is committed with it. (Log entry 41 DEDUCED.) -/
def State.moduleReset (s : State) : State :=
  let log := s.boot.fatalLog
  let cost := s.costMask
  let cause := if s.boot.modResetLow then 2 else s.boot.pendingCause
  let fatal := s.boot.fatal
  let t := s.moduleWipe
  let t := (({ t with boot := { t.boot with resetCause := cause } }).fault 5 4 0xFFFF cost 0 0xFF 0xFFFF (cause.setWidth 224)).1
  if fatal then
    (t.faultAt (log[2] ++ log[1]) 6 (log[0].extractLsb' 16 8) (log[0].extractLsb' 0 16) cost 6 0xFF 0xFFFF
      ((log[7] ++ log[6] ++ log[5] ++ log[4] ++ log[3]).setWidth 224)).1
  else t

/-- The monitor's measurements: VIN_MAIN is qualified no longer once it has dropped below V_QUAL (R50). -/
def State.measure (s : State) (v : Volts) : State :=
  { s with sup := { s.sup with
      vinMain := v.main, vinAux := v.aux, charge := min 100 v.charge, mainQual := s.sup.mainQual && decide (1080 ≤ v.main) } }

/-- The power-on reset on entry to STANDBY (R72, R108, R112, R1148). An input is low until it rises above V_LOW_R. A
VIN_MAIN which is qualified on leaving HOLDUP takes the module on to ACTIVE.
(Log entries 40 DEDUCED, 41 DEDUCED, 127 PRESUMED.) -/
def State.powerOnReset (s : State) (cause : BitVec 8) (v : Volts) : State :=
  let low := fun (was : Bool) (x : Nat) => decide (x < 1020) || (was && decide (x ≤ 1050))
  let main := low s.sup.mainLow v.main
  let t := ({ s with tick := 0, withhold := 0 }).moduleWipe
  let t : State := { t with
    sup := { Supply.standby with
      vinMain := v.main, vinAux := v.aux, charge := min 100 v.charge, mainLow := main, auxLow := low s.sup.auxLow v.aux
      mainQual := s.sup.mainQual && decide (1080 ≤ v.main), onAux := main }
    faults := { t.faults with held := [] }
    boot := { t.boot with phaseEnd := Vector.replicate 8 0, fatalLog := Vector.replicate 8 0 }
    panel := { t.panel with count := 0 } }
  let t := t.noteCause cause
  let t := if t.boot.inReset then t.noteCause (if t.boot.modResetLow then 2 else 6) else t
  if t.sup.mainQual then { t with sup := { t.sup with power := .active } } else t

/-! ### Function resets (R112, R114, R115) -/

/-- R112, R115, R117: a function reset ends every command and every launched channel-frame of its stratum without a
completion, and stops its programs; a refresh which carries a PANEL_DRAW of it stops at its next phase boundary.
(Log entry 51 DEDUCED.) -/
def State.functionReset (s : State) (n : FnNo) : State :=
  let mine := fun (c : Nat) => match s.chan c with | some x => x.stratum == n | none => false
  let gone := s.frames.filter fun f => mine f.chan && f.launch.isSome && f.stage != .opened && f.stage != .forwarding
  let drawn := s.panel.refresh.isSome && s.panel.draws.any fun d => d.carried && d.fn == n
  let t : State := (resetFunc n (if drawn then s.stopRefresh else s)).forgetWork n
  let cancel := fun (c : Chan) =>
    { c with pending := c.pending.filter fun r => r.switched || t.outst.any fun o => o.id == r.id }
  let t : State := ({ t with chans := t.chans.map cancel }).forEach gone fun f u =>
    let u : State := { u with deliveries := u.deliveries.filter fun d => !(d.chan == f.chan && d.seq == f.seq) }
    ((u.endRun f.chan f.seq).releaseFrame f.chan f.seq false).delFrame f.chan f.seq
  let unserve := fun (f : Frame) => if mine f.chan then { f with launch := none } else f
  let stop := fun (p : Prog) => if p.stratum = n then { p with launch := none, loading := none, unloading := [], ring := { p.ring with waiting := [] } } else p
  let half := t.progs.filter fun p => !(p.stratum == n && p.loading.isSome)
  let t : State := { t with frames := t.frames.map unserve, progs := half.map stop }
  t.settlePool.endUnbinds

/-- R194: VF Enable and NumVFs change; the VFs which that removes are reset. (Log entry 50 PRESUMED.) -/
def State.setVfs (s : State) (enable : Bool) (num : Nat) : State :=
  let gone := (List.finRange 16).filter fun n => n.val ≠ 0 && s.present n && !(enable && decide (n.val ≤ num))
  let t := s.forEach gone fun n u => u.functionReset n
  { t with boot := { t.boot with vfEnable := enable, numVfs := if enable then num else 0 } }

/-! ### Fatal conditions (R1039, R1040, R174) -/

/-- R246, R1040, R174: the always-on domain writes HIF_FATAL_LOG and sets FATAL in every function; the compute die, the
engines and the ports stop. During start-up the phase becomes FATAL, and the PF alone is presented.
(Log entries 41 DEDUCED, 42 DEDUCED.) -/
def State.enterFatal (s : State) (cause : BitVec 8) (unit : W16) (data : List W32) : State :=
  if s.boot.fatal || s.boot.inReset || !(s.sup.power == .standby || s.sup.power == .active) then s
  else
    let word := fun (i : Nat) => (data[i]?).getD 0
    let w0 : W32 := 0x80000000 ||| (cause.setWidth 32 <<< 16) ||| unit.setWidth 32
    let log : Vector W32 8 := #v[w0, s.tick.setWidth 32, (s.tick >>> 32).setWidth 32, word 0, word 1, word 2, word 3, word 4]
    let starting := !(s.boot.phase == phReady || s.boot.phase == phRecovery || s.boot.phase == phFailed)
    let t := s.stopWork
    let t : State := if starting then
        ({ t with boot := { t.boot with vfEnable := false, numVfs := 0 } }).changePhase phFatal 5 else t
    ({ t with boot := { t.boot with fatal := true, fatalLog := log } }).raiseAll
      (if starting then causeFatal ||| causeStart else causeFatal)

/-- R1112, R1113: MOD_FAULT_N is low. -/
def State.modFault (s : State) : Bool := s.boot.fatal && (s.sup.power == .standby || s.sup.power == .active)

/-- R1112: MOD_ACTIVE: high in ACTIVE, low in STANDBY and HOLDUP, high impedance in OFF. -/
def State.modActive (s : State) : Option Bool :=
  match s.sup.power with
  | .off => none
  | .active => some true
  | _ => some false

end Sys2Proof.Machine
end

