-- ==== Sys2Proof/Machine/Power.lean ====
section
/-!
DEFINITION. Supplies (02): source selection, the 70 W cap, sags, the supply gate, the HOLDUP sequence and the power
states. Each row carries what the supply monitor measures; the comparators act at the typical thresholds of R50.
-/

namespace Sys2Proof.Machine

/-- The supply record changes. -/
def State.modSup (s : State) (f : Supply → Supply) : State := { s with sup := f s.sup }

/-- STANDBY or ACTIVE. -/
def State.supplied (s : State) : Bool := s.sup.power == .standby || s.sup.power == .active

/-- The supply monitor watches the inputs: in every power state but OFF (R50, R66). -/
def State.monitored (s : State) : Bool := s.sup.power != .off

/-! ### Source selection (R51 to R59, R86 to R89) -/

/-- A change of the effective cap is a break of cause 0x03 (R979, R983). -/
def State.capMoved (s : State) (before : Nat) : State := if s.effectiveCap = before then s else s.breakAll 3

/-- R51, R54, R59, R510: a switch to VIN_AUX begins: the fast throttle is asserted, and the 70 W cap is in force.
(Log entry 37 DEDUCED.) -/
def State.switchToAux (s : State) : State :=
  let t := (s.modSup fun p => { p with switching := some true }).throttle
  let before := t.effectiveCap
  let first := !t.sup.cap70
  let t := t.lapse 2 0xFFFF t.isolatedStrata
  let t := (t.modSup fun p => { p with cap70 := true }).capMoved before
  let t : State := { t with plans := { t.plans with capNotice := t.plans.capNotice || first } }
  t.settlePlan true

/-- R51: the ideal-diode controller selects the source which the present conditions call for.
(Log entry 37 DEDUCED.) -/
def State.selectSource (s : State) : State :=
  let p := s.sup
  if !s.supplied || p.switching.isSome then s
  else if !p.onAux then (if p.mainLow && !p.auxLow then s.switchToAux else s)
  else if p.mainQual || (p.auxLow && !p.mainLow) then s.modSup fun x => { x with switching := some false }
  else s

/-- R59: the 70 W cap ends once the active source is VIN_MAIN and VIN_MAIN is qualified. -/
def State.endCap70 (s : State) : State :=
  if s.sup.cap70 && !s.sup.onAux && s.sup.mainQual && s.sup.switching.isNone then
    let t := (s.modSup fun p => { p with cap70 := false }).capMoved s.effectiveCap
    let u : State := { t with plans := { t.plans with capNotice := true } }
    u.settlePlan true
  else s

/-- R50, R51: VIN_MAIN falls below V_LOW_F. (Log entry 36 DEDUCED.) -/
def mainFalls (v : Volts) (s : State) : State :=
  if !s.monitored || !decide (v.main < 1020) then s
  else ((s.measure v).modSup fun p => { p with mainLow := true }).selectSource

/-- R51: VIN_MAIN_LOW. -/
def execVinMainLow (v : Volts) (s : State) : Host.Outcome State Fault Refusal := .next (mainFalls v s)

/-- R50, R51: VIN_AUX falls below V_LOW_F. (Log entry 36 DEDUCED.) -/
def auxFalls (v : Volts) (s : State) : State :=
  if !s.monitored || !decide (v.aux < 1020) then s
  else ((s.measure v).modSup fun p => { p with auxLow := true }).selectSource

/-- R51: VIN_AUX_LOW. -/
def execVinAuxLow (v : Volts) (s : State) : Host.Outcome State Fault Refusal := .next (auxFalls v s)

/-- R50, R51: VIN_AUX rises above V_LOW_R. (Log entry 36 DEDUCED.) -/
def auxRises (v : Volts) (s : State) : State :=
  if !s.monitored || !decide (1050 < v.aux) then s
  else ((s.measure v).modSup fun p => { p with auxLow := false }).selectSource

/-- R51: VIN_AUX_NOT_LOW. -/
def execVinAuxNotLow (v : Volts) (s : State) : Host.Outcome State Fault Refusal := .next (auxRises v s)

/-- R50, R51: VIN_MAIN rises above V_LOW_R. (Log entry 36 DEDUCED.) -/
def mainRises (v : Volts) (s : State) : State :=
  if !s.monitored || !decide (1050 < v.main) then s
  else ((s.measure v).modSup fun p => { p with mainLow := false }).selectSource

/-- R51: VIN_MAIN_NOT_LOW. -/
def execVinMainNotLow (v : Volts) (s : State) : Host.Outcome State Fault Refusal := .next (mainRises v s)

/-- R147, R140: WAIT_MAIN ends once the module is ACTIVE: in RECOVERY without an image. -/
def State.leaveWait (s : State) : State :=
  if s.boot.phase = phWaitMain ∧ s.sup.power = .active ∧ !s.boot.inReset ∧ !s.boot.fatal then
    if s.boot.image = 0xFF then s.setPhase phRecovery 1 else s.setPhase phClockStart 0
  else s

/-- R50, R51, R59, R72: VIN_MAIN has stayed at or above V_QUAL for t_QUAL: STANDBY is left for ACTIVE, a switch back
begins, or the 70 W cap ends. (Log entry 36 DEDUCED.) -/
def mainQualifies (v : Volts) (s : State) : State :=
  if !s.monitored || !decide (1080 ≤ v.main) then s
  else
    let t := (s.measure v).modSup fun p => { p with
      mainQual := true, mainLow := false, power := if p.power = .standby then .active else p.power }
    if t.supplied then t.leaveWait.endCap70.selectSource else t

/-- R51, R72: VIN_MAIN_QUALIFIED. -/
def execVinMainQualified (v : Volts) (s : State) : Host.Outcome State Fault Refusal := .next (mainQualifies v s)

/-- R59, R86 to R89: a switch-over completes. (Log entries 37 DEDUCED, 39 DEDUCED.) -/
def switchEnds (v : Volts) (s : State) : State :=
  match s.sup.switching with
  | none => s
  | some aux =>
    let t := (s.measure v).modSup fun p => { p with switching := none, onAux := aux, switched := true }
    let t := (t.fault 4 1 0xFFFF 0 0 0xFF 0xFFFF 0).1.raise 0 causeSupply
    let t := t.occurAll t.liveStrata (if aux then 0x6000 else 0x6001) (BitVec.ofNat 64 v.main) (BitVec.ofNat 64 v.aux)
    (t.endCap70.settlePlan true).selectSource

/-- R87: SWITCH_COMPLETE. -/
def execSwitchComplete (v : Volts) (s : State) : Host.Outcome State Fault Refusal := .next (switchEnds v s)

/-! ### HOLDUP (R72, R81, R1064, R1146) -/

/-- R494: every key is discarded. -/
def State.discardKeys (s : State) : State := { s with strata := s.strata.map fun x => { x with key := none } }

/-- R72, R81 steps 1 to 3, R181, R494, R1122, R1127: entry to HOLDUP. (Log entries 38 DEDUCED, 128 DEDUCED.) -/
def State.enterHoldup (s : State) : State :=
  let t := (s.modSup fun p => { p with
    power := .holdup, switching := none, sag := none, holdupTick := s.tick }).haltAll 3
  let t : State := { t with
    plans := { t.plans with installing := none, capNotice := false, cmds := [] }
    boot := { t.boot with resetPending := false }
    ports := t.ports.map fun p => { p with cageOff := none }, jtag := 1 }
  t.stopRefresh.discardKeys

/-- R72: the higher input stays below V_LOSS for t_LOSS. (Log entry 36 DEDUCED.) -/
def inputsLost (v : Volts) (s : State) : State :=
  if !s.supplied || !decide (max v.main v.aux < 900) then s else (s.measure v).enterHoldup

/-- R72: VIN_LOSS. -/
def execVinLoss (v : Volts) (s : State) : Host.Outcome State Fault Refusal := .next (inputsLost v s)

/-- R72: the active source is below V_SAG, and the bank has 20 % or less. -/
def State.bankLow (s : State) : State :=
  if s.supplied && decide (s.sup.active < 1000) && decide (s.sup.charge ≤ 20) then s.enterHoldup else s

/-- R72: BANK_CHARGE_LOW. -/
def execBankChargeLow (v : Volts) (s : State) : Host.Outcome State Fault Refusal :=
  .next (if s.supplied then (s.measure v).bankLow else s)

/-- R72, R73, R1147: the HOLDUP sequence has ended: OFF, or STANDBY when an input is above V_LOW_R. -/
def State.leaveHoldup (s : State) (v : Volts) : State :=
  let t := s.measure v
  if 1050 < v.main ∨ 1050 < v.aux then t.powerOnReset 1 v
  else t.modSup fun p => { p with power := .off, mainQual := false, mainLow := true, auxLow := true }

/-- R81 steps 4 to 6, with so many writes of energy left. -/
def holdupEnds (writes : Nat) (v : Volts) (s : State) : State :=
  if s.sup.power ≠ .holdup then s
  else (s.safePoint writes s.sup.holdupTick s.costMask).leaveHoldup v

/-- R72: HOLDUP_SEQUENCE_COMPLETE. -/
def execHoldupSequenceComplete (v : Volts) (s : State) : Host.Outcome State Fault Refusal :=
  .next (holdupEnds allWrites v s)

/-- R1146: BANK_ENERGY_EXHAUSTED after so many flash writes of the sequence. -/
def execBankEnergyExhausted (writes : Nat) (v : Volts) (s : State) : Host.Outcome State Fault Refusal :=
  .next (holdupEnds writes v s)

/-- R72, R124: an input rises above V_LOW_R in OFF. -/
def inputRises (v : Volts) (s : State) : State :=
  if s.sup.power ≠ .off || !(decide (1050 < v.main) || decide (1050 < v.aux)) then s else s.powerOnReset 0 v

/-- R72: INPUT_RISE. -/
def execInputRise (v : Volts) (s : State) : Host.Outcome State Fault Refusal := .next (inputRises v s)

/-! ### Sags (R79, R87) -/

/-- R79: the sector erase under way is suspended. -/
def State.suspendErase (s : State) : State :=
  match s.nv.ops with
  | [] => s
  | o :: _ =>
    match o.steps with
    | .erase _ _ :: _ => if o.started && o.paused.isNone then s.pauseFront true else s
    | _ => s

/-- R79, R87: the active source falls below V_SAG; with 20 % or less in the bank, HOLDUP follows (R72).
(Log entry 36 DEDUCED.) -/
def sagBegins (v : Volts) (s : State) : State :=
  let t := s.measure v
  if !s.supplied || s.sup.sag.isSome || !decide (t.sup.active < 1000) then s
  else
    let t := (t.modSup fun p => { p with sag := some s.tick }).occur 0 0x6004 (BitVec.ofNat 64 t.sup.active)
      (BitVec.ofNat 64 t.sup.charge)
    t.suspendErase.stopRefresh.bankLow

/-- R79: SAG_BEGIN. -/
def execSagBegin (v : Volts) (s : State) : Host.Outcome State Fault Refusal := .next (sagBegins v s)

/-- R87: the active source is at or above V_SAG again. (Log entry 36 DEDUCED.) -/
def sagEnds (v : Volts) (s : State) : State :=
  let t := s.measure v
  match s.sup.sag with
  | none => s
  | some since =>
    if !decide (1000 ≤ t.sup.active) then s
    else (t.modSup fun p => { p with sag := none }).occur 0 0x6005 (s.tick - since) 0

/-- R87: SAG_END. -/
def execSagEnd (v : Volts) (s : State) : Host.Outcome State Fault Refusal := .next (sagEnds v s)

/-! ### The supply gate and the bank (R69, R76 to R78, R83, R84) -/

/-- R76, R78, R1063: the supply gate comes to hold: held records, a held SYSTEM record, scheduled erases and the paused
step proceed. -/
def gateOpens (v : Volts) (s : State) : State :=
  let t := s.measure v
  if !s.supplied then s
  else if !t.gate || t.boot.inReset then t
  else
    let t := t.commitFaults
    let t := if t.nv.systemHeld then t.recordSystem else t
    t.runReerase.resumeFront

/-- R76: SUPPLY_GATE_OPEN. -/
def execSupplyGateOpen (v : Volts) (s : State) : Host.Outcome State Fault Refusal := .next (gateOpens v s)

/-- R77: the command which has been paused longest has been so for 10 s: it ends with ST_SUPPLY_LOW. -/
def pauseEnds (s : State) : State :=
  let front := (s.nv.ops.head?.bind fun o => o.paused.map fun t => (t, o))
  let draw := (s.panel.draws.filterMap fun d => d.paused.map fun t => (t, d)).foldl (fun (m : Option (Tick × Draw)) d =>
    match m with
    | none => some d
    | some x => if d.1 < x.1 then some d else some x) none
  if s.gate || !s.supplied || s.boot.inReset then s
  else
    match front, draw with
    | some a, some b => if b.1 < a.1 then (s.reach (b.1 + 8000000000)).drawTimedOut b.2 else (s.reach (a.1 + 8000000000)).frontTimedOut a.2
    | some a, none => (s.reach (a.1 + 8000000000)).frontTimedOut a.2
    | none, some b => (s.reach (b.1 + 8000000000)).drawTimedOut b.2
    | none, none => s

/-- R77: SUPPLY_GATE_PAUSE_TIMEOUT. -/
def execSupplyGatePauseTimeout (s : State) : Host.Outcome State Fault Refusal := .next (pauseEnds s)

/-- R69, R87: the bank has charged for 15 s and has not reached 90 %. (Log entry 39 DEDUCED.) -/
def bankFails (v : Volts) (s : State) : State :=
  let t := s.measure v
  if !s.supplied || s.sup.holdupFault || !decide (1100 ≤ t.sup.active) || !decide (v.charge < 90) then s
  else
    let t := (t.modSup fun p => { p with holdupFault := true }).occur 0 0x6006 (BitVec.ofNat 64 t.sup.charge) 0
    (t.fault 4 3 0x1100 0 0 0xFF 0xFFFF 0).1

/-- R69: HOLDUP_FAULT. -/
def execHoldupFault (v : Volts) (s : State) : Host.Outcome State Fault Refusal := .next (bankFails v s)

/-- R83: the RO fields of HIF_SUPPLY_STATUS at this moment. -/
def State.supplyFields (s : State) : W32 :=
  let p := s.sup
  let bit := fun (b : Bool) (i : Nat) => if b then 2 ^ i else 0
  BitVec.ofNat 32 (2 ^ 24 * min 100 p.charge + bit p.holdupFault 20 + bit s.gate 19 + bit p.sag.isSome 18 +
    bit p.cap70 17 + bit p.onAux 16 + bit (!p.mainLow) 15 + bit (!p.auxLow) 14 + bit p.mainQual 13 + min 4095 p.active)

/-- R84: the RO fields of HIF_SUPPLY_STATUS are refreshed. (Log entry 90 DEDUCED.) -/
def refreshSupply (v : Volts) (s : State) : State :=
  if !s.supplied then s
  else
    let t := s.measure v
    t.modSup fun p => { p with shown := t.supplyFields }

/-- R84: SUPPLY_STATUS_REFRESH. -/
def execSupplyStatusRefresh (v : Volts) (s : State) : Host.Outcome State Fault Refusal := .next (refreshSupply v s)

end Sys2Proof.Machine
end

