-- ==== Sys2Proof/Machine/Start.lean ====
section
/-!
DEFINITION. Start-up phases (04), module and host resets (03), the PCIe link and its functions, and the fatal conditions
which the always-on domain detects (23).
-/

namespace Sys2Proof.Machine

/-! ### MOD_RESET_N and TEST_EN (R118 to R121, R1128) -/

/-- R120: a recognised pulse: steps 1 to 5 of R81, and the module reset is latched (R119). Held in reset by TEST_EN
alone, only the cause changes, and is recorded (R124). (Log entry 40 DEDUCED.) -/
def State.recogniseReset (s : State) (cause : BitVec 8) : State :=
  if s.boot.inReset then
    if cause = 2 ∧ s.boot.resetCause ≠ 2 then
      ({ s with boot := { s.boot with pendingCause := 2 } }).noteCause 2
    else s
  else if !s.supplied then s
  else if s.boot.resetPending then
    if cause = 2 then { s with boot := { s.boot with pendingCause := 2 } } else s
  else
    let t : State := { s with boot := { s.boot with resetPending := true, pendingCause := cause } }
    (t.haltAll 4).safePoint allWrites s.tick s.costMask

/-- R118, R120: MOD_RESET_N goes low for 1 µs or longer. -/
def execModResetN (s : State) : Host.Outcome State Fault Refusal :=
  .next (({ s with boot := { s.boot with modResetLow := true } }).recogniseReset 2)

/-- R1128: TEST_EN goes high, which acts as MOD_RESET_N low. -/
def execTestEn (s : State) : Host.Outcome State Fault Refusal :=
  .next (({ s with boot := { s.boot with testEn := true } }).recogniseReset 6)

/-- R112, R120: MODULE_RESET. -/
def execModuleReset (s : State) : Host.Outcome State Fault Refusal :=
  .next (if s.boot.resetPending && s.supplied then s.moduleReset else s)

/-- R121: neither pin holds the processor in reset any longer: the supervisor boots. -/
def State.bootWhenFree (s : State) : State :=
  if s.boot.inReset && !s.boot.modResetLow && !s.boot.testEn then
    ({ s with boot := { s.boot with inReset := false } }).bootRom
  else s

/-- R121: MOD_RESET_N returns high. -/
def execModResetNRise (s : State) : Host.Outcome State Fault Refusal :=
  .next ({ s with boot := { s.boot with modResetLow := false } }).bootWhenFree

/-- R1128: TEST_EN returns low. -/
def execTestEnLow (s : State) : Host.Outcome State Fault Refusal :=
  .next ({ s with boot := { s.boot with testEn := false } }).bootWhenFree

/-! ### SUPERVISOR_BOOT and AON_CHECK (R144 to R148) -/

/-- Start-up goes on: the module is powered and neither in reset nor fatal. -/
def State.starting (s : State) (p : BitVec 4) : Bool :=
  s.supplied && !s.boot.inReset && !s.boot.resetPending && !s.boot.fatal && s.boot.phase == p

/-- R146: the image which was started is abandoned, and the other one starts if it is valid. -/
def abandonImage (s : State) : State :=
  if !s.starting phSupervisorBoot || s.boot.image == 0xFF then s
  else
    let t := (s.fault 5 1 0x0A00 0 0 0xFF 0xFFFF (s.boot.image.setWidth 224)).1
    let t : State := { t with boot := { t.boot with
      abandonedA := t.boot.abandonedA || t.boot.image == 0, abandonedB := t.boot.abandonedB || t.boot.image == 1 } }
    { t with boot := { t.boot with image := t.pickImage } }

/-- R146: IMAGE_BOOT_TIMEOUT. -/
def execImageBootTimeout (s : State) : Host.Outcome State Fault Refusal := .next (abandonImage s)

/-- R148: a new fault log is started: records not yet committed are numbered in it from 0.
(Log entries 41 DEDUCED, 48 DEDUCED.) -/
def State.newFaultLog (s : State) : State :=
  let held := s.faults.held.zipIdx.map fun (e : FaultRec × Nat) => { e.1 with index := e.2 }
  (({ s with faults := { s.faults with recs := [], held, next := held.length, slot := 0 } }).fault 5 2 0x0D00 0 0 0xFF 0xFFFF 0).1

/-- R148, R1063, R1076: the panel journal and suspended erases as AON_CHECK finds them. The composite image of rows 48 to
127 is taken from the PANEL_STORE slot of the newest panel entry. (Log entry 48 DEDUCED.) -/
def State.checkJournal (s : State) : State :=
  let panels := s.nv.journal.filter fun e => e.kind == 2
  let t := match panels.getLast? with
    | some e => s.modPanel fun p => { p with pixels := s.storedPixels e.offset, lastSlot := e.offset / 0x8000 }
    | none => s
  let t := match t.unresolvedEntry with
    | some e => t.modPanel fun p => { p with pending := true, redraw := some e.seq }
    | none => t
  let open_ := (t.nv.journal.filter fun e => e.kind == 3 && e.done == 0xFF).map (·.seq)
  ({ t with nv := { t.nv with reerase := open_ } }).runReerase

/-- R148, R174: SUPERVISOR_BOOT ends and AON_CHECK runs. `tickCounts` are the counts measured when the tick check fails; the
module is FATAL then, and what the other checks would have found comes to nothing.
(Log entries 48 DEDUCED, 143 DESIGN CHOICE.) -/
def bootEnds (tickCounts : Option (W32 × W32)) (monitorOk logOk : Bool) (s : State) : State :=
  if !s.starting phSupervisorBoot then s
  else
    let t := s.setPhase phAonCheck 0
    match tickCounts with
    | some c => t.enterFatal 4 0x0C00 [c.1, c.2]
    | none =>
      let t := if logOk then t else t.newFaultLog
      let t := if monitorOk then t
        else ((t.modSup fun p => { p with monitorFailed := true }).fault 5 3 0x1100 0 0 0xFF 0xFFFF 0).1
      t.checkJournal

/-- R148: SUPERVISOR_BOOT_END. -/
def execSupervisorBootEnd (tickCounts : Option (W32 × W32)) (monitorOk logOk : Bool) (s : State) :
    Host.Outcome State Fault Refusal := .next (bootEnds tickCounts monitorOk logOk s)

/-- R140: AON_CHECK_END. WAIT_MAIN follows, and ends at once when the module is ACTIVE. -/
def execAonCheckEnd (s : State) : Host.Outcome State Fault Refusal :=
  .next (if s.starting phAonCheck then (s.setPhase phWaitMain 0).leaveWait else s)

/-! ### CLOCK_START to READY (R158 to R175) -/

/-- R140, R181: CLOCK_START installs the plan which R94 calls for. (Log entry 35 DEDUCED.) -/
def clocksStart (s : State) : State :=
  if !s.starting phClockStart then s
  else
    let t := s.setPhase phGeodeTest 0
    ({ t with plans := { t.plans with inForce := t.planCalled } }).settlePlan true

/-- R140: CLOCK_START_END. -/
def execClockStartEnd (s : State) : Host.Outcome State Fault Refusal := .next (clocksStart s)

/-- R159, R162, R165, R1007, R1010: a unit which fails its test at start-up is fenced and retired.
(Log entry 47 DEDUCED.) -/
def State.bistFail (s : State) (u : Unit_) : State :=
  if (s.unitSt u).retired then s
  else
    let r := s.fault 1 5 u.code 0 2 0xFF 0xFFFF 0
    (r.1.unitFailed u.code 5 2 [] r.2).modUnit u fun x => { x with fenced := true, retired := true, passed := false }

/-- R158 to R160: the banks which fail are retired; every granule of the others reads zero and is free.
(Log entry 47 DEDUCED.) -/
def geodeTested (failed : List BankNo) (s : State) : State :=
  if !s.starting phGeodeTest then s
  else
    let t := s.forEach failed fun b u => u.bistFail (.bank b)
    ({ t with geo := Geode.fresh, boot := { t.boot with rounds := 0, lpddrDone := false } }).setPhase phClusterTest 0

/-- R160: GEODE_TEST_END. -/
def execGeodeTestEnd (failed : List BankNo) (s : State) : Host.Outcome State Fault Refusal :=
  .next (geodeTested failed s)

/-- R166: CLUSTER_TEST ends when the last round and the LPDDR5X work have ended. -/
def State.clusterTestEnds (s : State) : State :=
  if s.boot.rounds = 9 && s.boot.lpddrDone then s.setPhase phMapping 0 else s

/-- R161, R162: a round of eight physical clusters ends; those of it which fail are retired.
(Log entry 47 DEDUCED.) -/
def roundTested (failed : List PhysNo) (s : State) : State :=
  if !s.starting phClusterTest || decide (9 ≤ s.boot.rounds) then s
  else
    let t := s.forEach (failed.filter fun c => c.val / 8 == s.boot.rounds) fun c u => u.bistFail (.cluster c)
    ({ t with boot := { t.boot with rounds := t.boot.rounds + 1 } }).clusterTestEnds

/-- R161: CLUSTER_ROUND_END. -/
def execClusterRoundEnd (failed : List PhysNo) (s : State) : Host.Outcome State Fault Refusal :=
  .next (roundTested failed s)

/-- R748: the interleave order of the channels which are not retired. -/
def State.interleave (s : State) : List ExtNo :=
  ([0, 4, 1, 5, 2, 6, 3, 7] : List ExtNo).filter fun c => !s.units.exts[c].retired

/-- R164, R165: training and initialisation of external memory end; the channels which fail are retired.
(Log entry 47 DEDUCED.) -/
def lpddrTested (failed : List ExtNo) (s : State) : State :=
  if !s.starting phClusterTest || s.boot.lpddrDone then s
  else
    let t := s.forEach failed fun c u => u.bistFail (.ext c)
    ({ t with ext := { ExtMem.fresh with order := t.interleave }, boot := { t.boot with lpddrDone := true } }).clusterTestEnds

/-- R164: LPDDR_TRAINING_END. -/
def execLpddrTrainingEnd (failed : List ExtNo) (s : State) : Host.Outcome State Fault Refusal :=
  .next (lpddrTested failed s)

/-- R167: the mapping recorded in flash, or the factory mapping. (Log entry 53 DEDUCED.) -/
def State.recordedMapping (s : State) : Vector (Option PhysNo) 64 :=
  match s.nv.system.getLast? with
  | some r => r.mapping
  | none => Vector.ofFn fun l => some (Fin.ofNat 72 (9 * (l.val / 8) + l.val % 8))

/-- R168: the retired carrier of a logical cluster is replaced by a spare, or the logical cluster is unmapped.
(Log entry 53 DEDUCED.) -/
def State.remapRetired (s : State) (c : PhysNo) : State :=
  match s.logicalOf c with
  | none => s
  | some l =>
    match s.spareFor l with
    | some k => ((s.mapTo l k).fault 3 1 (unitId 1 c.val) 0 3 (BitVec.ofNat 8 l.val) (unitId 1 k.val) 0).1
    | none =>
      let t : State := { s with mapping := vmod s.mapping l fun _ => none }
      (t.fault 3 2 (unitId 1 c.val) 0 4 (BitVec.ofNat 8 l.val) 0xFFFF 0).1

/-- R169: a logical cluster which has no carrier takes a spare. (Log entry 47 DEDUCED.) -/
def State.fillMapping (s : State) (l : LogNo) : State :=
  if (s.mapping[l]).isSome then s
  else match s.spareFor l with
    | some k => ((s.mapTo l k).fault 3 3 (unitId 1 k.val) 0 0 (BitVec.ofNat 8 l.val) (unitId 1 k.val) 0).1
    | none => s

/-- R167 to R169: MAPPING builds the mapping. (Log entry 53 DEDUCED.) -/
def State.buildMapping (s : State) : State :=
  let m := s.recordedMapping
  let last := Vector.ofFn fun (l : Fin 64) => (m[l]).getD s.lastPhys[l]
  let t : State := { s with mapping := m, lastPhys := last }
  let t := t.forEach ((List.finRange 72).filter fun c => t.units.clusters[c].retired) fun c u => u.remapRetired c
  t.forEach (List.finRange 64) fun l u => u.fillMapping l

/-- R171: START_FAIL at the end of MAPPING, 0 for none; of several conditions the one with the lowest code.
(Log entry 142 DESIGN CHOICE.) -/
def State.startFail (s : State) : BitVec 8 :=
  if upCount s.units.clusters = 0 then 2
  else if upCount s.units.banks < 32 then 3
  else if upCount s.units.exts = 0 then 4
  else 0

/-- R173: a cluster, bank or LPDDR5X channel is retired. (Log entry 45 DEDUCED.) -/
def State.anyRetired (s : State) : Bool :=
  s.units.clusters.toList.any UnitSt.retired || s.units.banks.toList.any UnitSt.retired ||
    s.units.exts.toList.any UnitSt.retired

/-- Entry to READY (R142, R173). (Log entry 45 DEDUCED.) -/
def State.enterReady (s : State) : State :=
  let t : State := { s with boot := { s.boot with degraded := s.anyRetired } }
  t.setPhase phReady 0

/-- R167 to R173: MAPPING ends in READY or FAILED; the record follows, or waits for the gate (R170).
(Log entries 45 DEDUCED, 47 DEDUCED.) -/
def mappingEnds (s : State) : State :=
  if !s.starting phMapping then s
  else
    let t := s.buildMapping
    let t := if t.startFail ≠ 0 then t.setPhase phFailed t.startFail else t.enterReady
    (t.settlePlan true).recordSystem

/-- R171: MAPPING. -/
def execMapping (s : State) : Host.Outcome State Fault Refusal := .next (mappingEnds s)

/-! ### Host resets and the PCIe link (R112, R149, R150, R178 to R181, R187, R194, R1142, R1144) -/

/-- R179: SCRUB_COMPLETE. -/
def execScrubComplete (s : State) : Host.Outcome State Fault Refusal :=
  .next (if s.starting phScrub then s.enterReady else s)

/-- The link is down. -/
def State.pcieDown (s : State) : State := { s with boot := { s.boot with linkL0 := false } }

/-- R112: PERST_ASSERT. -/
def execPerstAssert (s : State) : Host.Outcome State Fault Refusal :=
  .next (if s.boot.perst then s else (({ s with boot := { s.boot with perst := true } }).pcieDown).hostReset 3)

/-- R149: PERST_DEASSERT. -/
def execPerstDeassert (s : State) : Host.Outcome State Fault Refusal :=
  .next { s with boot := { s.boot with perst := false } }

/-- R149: the link can train: the endpoint is powered and out of reset. -/
def State.linkable (s : State) : Bool :=
  s.sup.power == .active && !s.boot.perst && !s.boot.inReset && !s.boot.resetPending

/-- R149: LINK_L0. -/
def execLinkL0 (s : State) : Host.Outcome State Fault Refusal :=
  .next (if s.linkable then { s with boot := { s.boot with linkL0 := true } } else s)

/-- R82: PCIE_LINK_DOWN. -/
def execPcieLinkDown (s : State) : Host.Outcome State Fault Refusal := .next s.pcieDown

/-- R139: PCIE_REFERENCE_LOST: a host reset of cause 0x05. -/
def execPcieReferenceLost (s : State) : Host.Outcome State Fault Refusal :=
  .next (if s.sup.power = .active then s.pcieDown.hostReset 5 else s)

/-- R182: the endpoint supports a feature in a function. -/
def pciSupports (fn : FnNo) : PciCap → Bool
  | .laneReversal | .polarityInversion | .tenBitTags | .msix | .aer | .ecrc | .aspmL1 | .sriov | .ari
  | .functionLevelReset => true
  | .d3hot => fn.val = 0
  | .intx | .msi | .aspmL0s | .l1Substates | .ats | .pri | .pasid | .atomicOp | .peerToPeer => false

/-- The value of a field of a function's configuration space (R182, R183, R185, R187, R190, R194, R1142, R1144).
(Log entries 10 PRESUMED, 50 PRESUMED.) -/
def State.configField (s : State) (fn : FnNo) : CfgField → Nat
  | .vendorId | .subsystemVendorId => 0xC4E7
  | .deviceId => if fn.val = 0 then 0x4820 else 0x4821
  | .vfDeviceId => 0x4821
  | .classCode => 0x120000
  | .subsystemId => if s.order32 then 0x0032 else 0x0016
  | .cap c => (pciSupports fn c).toNat
  | .linkSpeeds => 0x1F
  | .linkWidths => 0xF
  | .payloadSupported => 512
  | .readRequestSupported => 4096
  | .msixEntries => 64
  | .l1ExitBound => 8
  | .noSoftReset => 0
  | .totalVfs | .initialVfs => 15
  | .firstVfOffset | .vfStride => 1
  | .pageSizes => 1
  | .barSize bar2 => if bar2 then 2 ^ 32 else 0x10000
  | .bar64 _ => 1
  | .barPrefetchable bar2 => bar2.toNat
  | .memSpace => s.fns[fn].memSpace.toNat
  | .busMaster => s.fns[fn].busMaster.toNat
  | .relaxedOrdering => s.fns[fn].relaxed.toNat
  | .maxPayload => s.fns[fn].maxPayload
  | .maxReadRequest => s.fns[fn].maxReadRequest
  | .vfEnable => s.boot.vfEnable.toNat
  | .numVfs => s.boot.numVfs

/-- What a configuration write changes (R182, R185, R194, R1142). A payload or read request size which R182 does not list
changes nothing. (Log entry 50 PRESUMED.) -/
def configWrite (fn : FnNo) (req : ConfigReq) (s : State) : State :=
  match req with
  | .memSpace on => s.modFn fn fun f => { f with memSpace := on }
  | .vfEnable n => if fn.val = 0 && decide (1 ≤ n) && decide (n ≤ 15) && !s.boot.fatal then s.setVfs true n else s
  | .relaxedOrdering on => s.modFn fn fun f => { f with relaxed := on }
  | .maxPayload n => if [128, 256, 512].contains n then s.modFn fn fun f => { f with maxPayload := n } else s
  | .maxReadRequest n =>
    if [128, 256, 512, 1024, 2048, 4096].contains n then s.modFn fn fun f => { f with maxReadRequest := n } else s
  | .read _ | .other => s

/-- R150, R1142, R194: every configuration request is answered with CRS until the module is configuration-ready; then one
to a function which is presented completes, a read with the field's value. (Log entry 50 PRESUMED.) -/
def configRequest (fn : FnNo) (req : ConfigReq) (s : State) : State :=
  if !s.boot.linkL0 then s
  else if !s.configReady then s.emit (.configAnswer fn true none)
  else if !s.present fn then s
  else
    let value := match req with
      | .read f => some (BitVec.ofNat 64 (s.configField fn f))
      | _ => none
    (configWrite fn req s).emit (.configAnswer fn false value)

/-- R150: CONFIG_REQUEST. -/
def execConfigRequest (fn : FnNo) (req : ConfigReq) (s : State) : Host.Outcome State Fault Refusal :=
  .next (configRequest fn req s)

/-- R112: FLR_PF. -/
def execFlrPf (s : State) : Host.Outcome State Fault Refusal := .next (if s.configReady then s.hostReset 4 else s)

/-- R112: FLR_VF. -/
def execFlrVf (fn : FnNo) (s : State) : Host.Outcome State Fault Refusal :=
  .next (if s.configReady && decide (fn.val ≠ 0) && s.present fn then s.functionReset fn else s)

/-- R1142: D0_TO_D3HOT. -/
def execD0ToD3hot (s : State) : Host.Outcome State Fault Refusal :=
  .next (if s.configReady then { s with boot := { s.boot with d3hot := true } } else s)

/-- R187: D3HOT_TO_D0. -/
def execD3hotToD0 (s : State) : Host.Outcome State Fault Refusal :=
  .next (if s.configReady && s.boot.d3hot then ({ s with boot := { s.boot with d3hot := false } }).hostReset 7 else s)

/-- R194: VF_ENABLE_CLEAR: VF Enable is cleared (`none`), or NumVFs is lowered. -/
def execVfEnableClear (vfs : Option Nat) (s : State) : Host.Outcome State Fault Refusal :=
  .next (if !s.configReady || !s.boot.vfEnable then s
    else match vfs with
      | none => s.setVfs false 0
      | some n => if n < s.boot.numVfs then s.setVfs true n else s)

/-- R1144: Bus Master Enable of a function changes; once it is 1, what was held for the host is written.
(Log entry 50 PRESUMED.) -/
def busMaster (fn : FnNo) (on : Bool) (s : State) : State :=
  let t := s.modFn fn fun f => { f with busMaster := on }
  if !on then t
  else
    let t := (t.sendUnsent fn).forEach (List.finRange 4) fun qp u => settleQueue u fn qp
    (((t.flushEvq fn).releaseMsix fn).forEach ((t.progs.filter fun p => p.stratum == fn).map (·.id))
    fun pid u => u.pumpRing fn pid)

/-- R1144: BUS_MASTER_ENABLE. -/
def execBusMasterEnable (fn : FnNo) (enable : Bool) (s : State) : Host.Outcome State Fault Refusal :=
  .next (if s.configReady && s.present fn then busMaster fn enable s else s)

/-! ### Fatal conditions (R139, R1039) -/

/-- R1039: WATCHDOG_TIMEOUT, with the supervisor's program counter and the last opcode served. -/
def execWatchdogTimeout (counter : W32) (opcode : BitVec 8) (s : State) : Host.Outcome State Fault Refusal :=
  .next (s.enterFatal 1 0x0A00 [counter, opcode.setWidth 32])

/-- R1039: SUPERVISOR_MEMORY_ERROR at a physical word address. -/
def execSupervisorMemoryError (address : W32) (s : State) : Host.Outcome State Fault Refusal :=
  .next (s.enterFatal 2 0x0A00 [address])

/-- R139, R1039: AON_CRYSTAL_LOST: the crystal, or PLL_AON when `pll`, with the PLL status. -/
def execAonCrystalLost (pll : Bool) (status : W32) (s : State) : Host.Outcome State Fault Refusal :=
  .next (s.enterFatal 3 (if pll then 0x1000 else 0x0B00) [status])

/-- R1039: ALWAYS_ON_PARITY in a register group. -/
def execAlwaysOnParity (group : W32) (s : State) : Host.Outcome State Fault Refusal :=
  .next (s.enterFatal 6 0x0B00 [group])

/-- R1039: FIRMWARE_INTEGRITY_FAILED at a check. -/
def execFirmwareIntegrityFailed (check : W32) (s : State) : Host.Outcome State Fault Refusal :=
  .next (s.enterFatal 7 0x0A00 [check])

end Sys2Proof.Machine
end

