-- ==== Sys2Proof/Machine/Thermal.lean ====
section
/-!
DEFINITION. Temperature (25): the sensors, the thermal cap and its timers, thermal shutdown, and the SMBus view.
-/

namespace Sys2Proof.Machine

/-! ### Sensors (R1080 to R1084) -/

/-- T_WARN, its re-arm value, T_CAP, T_REL and T_SHUT in 1/8 °C (R1086). -/
abbrev tWarn : Int := 760
abbrev tRearm : Int := 720
abbrev tCap : Int := 840
abbrev tRel : Int := 760
abbrev tShut : Int := 920

/-- The temperature record changes. -/
def State.modThermal (s : State) (f : Thermal → Thermal) : State := { s with thermal := f s.thermal }

/-- R96, R161, R163, R167: the physical cluster is powered: it is mapped or under self-test; in start-up, until MAPPING
ends, also while its BIST round has not ended. (Log entry 85 DEDUCED.) -/
def State.clusterPowered (s : State) (c : PhysNo) : Bool :=
  let carries := fun (m : Vector (Option PhysNo) 64) => (List.finRange 64).any fun l => m[l] == some c
  let u := s.units.clusters[c]
  if s.boot.phase = phSupervisorBoot ∨ s.boot.phase = phAonCheck ∨ s.boot.phase = phWaitMain ∨ s.boot.phase = phClockStart ∨
      s.boot.phase = phGeodeTest ∨ s.boot.phase = phClusterTest ∨ s.boot.phase = phMapping then
    !u.retired && (decide (s.boot.rounds ≤ c.val / 8) || carries s.recordedMapping)
  else carries s.mapping || !u.testing.isEmpty

/-- R1080: the sensor is powered. (Log entry 85 DEDUCED.) -/
def State.sensorPowered (s : State) (n : Fin 83) : Bool :=
  if n.val = 82 then s.supplied
  else if h : n.val < 72 then s.sup.power == .active && s.clusterPowered ⟨n.val, h⟩
  else s.sup.power == .active

/-- R1094: the sensor which gives T_J; among several which do, a free one. (Log entry 86 DESIGN CHOICE.) -/
def State.hottest (s : State) : Nat :=
  let tj := s.thermal.tj
  let l := (List.range 80).filter fun i => s.thermal.readings[i]? == some tj
  let k := Config.hottest s.tick.toNat
  if tj = 0x8000 then k % 256 else (l[k % max 1 l.length]?).getD 0

/-- RESULT1 of THERMAL_CAP, and RESULT0 of THERMAL_WARN: T_J and the sensor which gives it. -/
def State.tjWord (s : State) : W64 := BitVec.ofNat 64 (s.thermal.tj.toNat + 2 ^ 16 * s.hottest)

/-- The supervisor acts on temperatures. -/
def State.watching (s : State) : Bool :=
  s.supplied && !s.boot.fatal && !s.boot.inReset

/-- R1084: a sensor fails: SENSOR_FAILED with its last valid reading, and a fault record. -/
def State.sensorFails (s : State) (n : Fin 83) : State :=
  let t := s.modThermal fun h => { h with
    readings := vmod h.readings n fun _ => 0x8000, failed := h.failed ||| (1#83 <<< n.val) }
  if !s.watching then t
  else
    let t := t.occur 0 0x9003 (BitVec.ofNat 64 n.val) (s.thermal.lastValid[n].setWidth 64)
    (t.fault 1 0x0D (unitId 0x12 n.val) 0 0 0xFF 0xFFFF 0).1

/-- R1081, R1084: a sensor is sampled. (Log entry 85 DEDUCED.) -/
def State.sampleSensor (s : State) (n : Fin 83) (v : Int) : State :=
  let h := s.thermal
  if !s.sensorPowered n then s.modThermal fun h => { h with readings := vmod h.readings n fun _ => 0x8000 }
  else if h.failed.getLsbD n.val then s
  else
    let old := h.readings[n]
    let jump := old != 0x8000 && decide (160 < (v - old.toInt).natAbs)
    if v < -320 ∨ 1200 < v ∨ jump then s.sensorFails n
    else
      let w : W16 := BitVec.ofInt 16 v
      s.modThermal fun h => { h with
        readings := vmod h.readings n fun _ => w, lastValid := vmod h.lastValid n fun _ => w }

/-! ### The thermal cap (R1085 to R1091) -/

/-- THERMAL_CAP to every existing stratum (R1103). -/
def State.sendThermalCap (s : State) : State :=
  s.occurAll s.liveStrata 0x9001
    (BitVec.ofNat 64 (s.plans.thermalCap.getD 0 + 2 ^ 16 * s.planCalled.toNat)) s.tjWord

/-- The thermal cap changes; a change of the effective cap is a break of cause 0x03 (R979). -/
def State.setThermalCap (s : State) (c : Option Nat) : State :=
  ({ s with plans := { s.plans with thermalCap := c } }).capMoved s.effectiveCap

/-- R1087, R1090: entry to CAPPED with a cap. -/
def State.enterCapped (s : State) (cap : Nat) : State :=
  let t := s.modThermal fun h => { h with
    capped := true, cappedSince := s.tick, capFrom := s.tick, stepDue := s.tick + 16000000, allHot := true
    releaseDue := none
    capEntries := if h.capEntries = BitVec.allOnes 32 then h.capEntries else h.capEntries + 1 }
  let t := t.throttle.setThermalCap (some cap)
  ((t.lapse 1 0xFFFF t.isolatedStrata).sendThermalCap).settlePlan true

/-- R1087: the cap falls. -/
def State.stepCap (s : State) (cap : Nat) : State := ((s.setThermalCap (some cap)).sendThermalCap).settlePlan true

/-- R1085: sensors 76 to 79 have all failed. -/
def State.dieBlind (s : State) : Bool := (List.range 4).all fun i => s.thermal.failed.getLsbD (76 + i)

/-- R1085: the cap of 50 W for failed sensors. -/
def State.sensorCap (s : State) : State :=
  let t := s.modThermal fun h => { h with sensorCap := true, releaseDue := none }
  if s.thermal.capped then t.stepCap 50 else t.enterCapped 50

/-- R1087: the maximum power of the fastest plan slower than the plan in force, or 50 W. -/
def State.nextSlower (s : State) : Nat := planPower (s.plans.inForce + 1)

/-- R1094, R1103: THERMAL_WARN and the marks which T_J leaves. (Log entry 87 DEDUCED.) -/
def State.noteTj (s : State) (tj : Int) : State :=
  let w := s.thermal.tj
  let t := s.modThermal fun h => { h with
    tjMax := if h.tjMax = 0x8000 ∨ h.tjMax.toInt < tj then w else h.tjMax
    warnBit := h.warnBit || decide (tWarn ≤ tj)
    warned := (h.warned || decide (tWarn ≤ tj)) && decide (tRearm ≤ tj) }
  if decide (tWarn ≤ tj) && !s.thermal.warned then t.occur 0 0x9000 t.tjWord 0 else t

/-- R1087: a sample acts on the thermal cap. (Log entry 87 DEDUCED.) -/
def State.capSample (s : State) (tj : Int) : State :=
  if s.thermal.sensorCap then s
  else if !s.thermal.capped then (if tCap ≤ tj then s.enterCapped s.nextSlower else s)
  else
    s.modThermal fun h => { h with
      allHot := h.allHot && decide (tCap ≤ tj)
      releaseDue := if tj < tRel then some (h.releaseDue.getD (s.tick + 800000000)) else none }

/-- R1092: three consecutive samples at or above T_SHUT are fatal. (Log entry 87 DEDUCED.) -/
def State.shutSample (s : State) (tj : Int) : State :=
  let k := if tShut ≤ tj then s.thermal.shut + 1 else 0
  let t := s.modThermal fun h => { h with shut := k }
  if 3 ≤ k then t.enterFatal 5 (unitId 0x12 s.hottest) [BitVec.ofNat 32 s.hottest, s.thermal.tj.setWidth 32] else t

/-- R1080 to R1092: the sample of sensors 0 to 81. (Log entry 87 DEDUCED.) -/
def sampleDie (readings : List Int) (s : State) : State :=
  if !s.supplied || s.boot.inReset then s
  else
    let t := s.forEach ((List.finRange 83).filter fun n => n.val < 82) fun n u =>
      match readings[n.val]? with
      | some v => u.sampleSensor n v
      | none => u
    if !t.watching || t.sup.power != .active then t
    else
      let t := if t.dieBlind && !t.thermal.sensorCap then t.sensorCap else t
      let w := t.thermal.tj
      if w = 0x8000 then t.modThermal fun h => { h with shut := 0, allHot := false }
      else ((t.noteTj w.toInt).capSample w.toInt).shutSample w.toInt

/-- R1080, R1087: SENSOR_SAMPLE, with the readings of sensors 0, 1, … in 1/8 °C; a sensor which the list does not reach
keeps its reading. -/
def execSensorSample (readings : List Int) (s : State) : Host.Outcome State Fault Refusal := .next (sampleDie readings s)

/-- R1080: CARD_SENSOR_SAMPLE. -/
def execCardSensorSample (reading : Int) (s : State) : Host.Outcome State Fault Refusal :=
  .next (if s.supplied && !s.boot.inReset then s.sampleSensor 82 reading else s)

/-- R1087: the step timer expires. (Log entry 87 DEDUCED.) -/
def stepExpires (s : State) : State :=
  let h := s.thermal
  if !s.watching || !h.capped || h.sensorCap then s
  else
    let cap := s.plans.thermalCap.getD 50
    let t := s.reach h.stepDue
    let u := t.modThermal fun h => { h with stepDue := t.tick + 16000000, allHot := true }
    if h.allHot && decide (50 < cap) then u.stepCap (planPower (fastestFitting (cap - 1))) else u

/-- R1087: STEP_TIMER. -/
def execStepTimer (s : State) : Host.Outcome State Fault Refusal := .next (stepExpires s)

/-- CAP_TICKS up to now (R1094). -/
def State.capTicks (s : State) : W64 :=
  let h := s.thermal
  if h.capped then satAdd h.capTicks (s.tick - h.capFrom).toNat else h.capTicks

/-- R1087, R1089, R1090: the release timer expires: the thermal cap ends. -/
def releaseExpires (s : State) : State :=
  match s.thermal.releaseDue with
  | none => s
  | some due =>
    if !s.watching || !s.thermal.capped || s.thermal.sensorCap then s
    else
      let t := s.reach due
      let n := t.capTicks
      let u := (t.modThermal fun h => { h with capped := false, capTicks := n, releaseDue := none }).setThermalCap none
      (u.occurAll u.liveStrata 0x9002 (t.tick - s.thermal.cappedSince) (u.planCalled.setWidth 64)).settlePlan true

/-- R1087: RELEASE_TIMER. -/
def execReleaseTimer (s : State) : Host.Outcome State Fault Refusal := .next (releaseExpires s)

/-! ### The SMBus view (R1104 to R1106) -/

/-- STATE of R1094: the warning, CAPPED, and R1085 in force. (Log entry 88 DEDUCED.) -/
def Thermal.stateBits (h : Thermal) : Nat :=
  (if h.warnBit then 1 else 0) + (if h.capped then 2 else 0) + (if h.sensorCap then 4 else 0)

/-- R1104: an answer on SMBus, in STANDBY and ACTIVE. -/
def State.smbus (s : State) (data : Option (List Byte)) : State := if s.supplied then s.emit (.smbus data) else s

/-- R1105: SMBUS_PRODUCT, Read Word 0x01. -/
def execSmbusProduct (s : State) : Host.Outcome State Fault Refusal := .next (s.smbus (some (leBytes 2 0x4820)))

/-- R1105: SMBUS_ORDER, Read Byte 0x02. -/
def execSmbusOrder (s : State) : Host.Outcome State Fault Refusal :=
  .next (s.smbus (some (leBytes 1 (if s.order32 then 0x32 else 0x16))))

/-- R1105: SMBUS_SERIAL, Block Read 0x03. -/
def execSmbusSerial (s : State) : Host.Outcome State Fault Refusal := .next (s.smbus (some serialBytes))

/-- R1105: SMBUS_FW_VERSION, Block Read 0x04. -/
def execSmbusFwVersion (s : State) : Host.Outcome State Fault Refusal :=
  .next (s.smbus (some (leBytes 4
    (if s.boot.phase = phSupervisorBoot ∨ s.boot.phase = phRecovery then 0 else s.fwVersion))))

/-- R1105: SMBUS_SUPPLY_STATUS, Block Read 0x10. (Log entry 90 DEDUCED.) -/
def execSmbusSupplyStatus (s : State) : Host.Outcome State Fault Refusal :=
  .next (s.smbus (some (leBytes 4 s.supplyStatus.toNat)))

/-- R1105: SMBUS_VIN_MAIN, Read Word 0x11. -/
def execSmbusVinMain (s : State) : Host.Outcome State Fault Refusal := .next (s.smbus (some (leBytes 2 s.sup.vinMain)))

/-- R1105: SMBUS_VIN_AUX, Read Word 0x12. -/
def execSmbusVinAux (s : State) : Host.Outcome State Fault Refusal := .next (s.smbus (some (leBytes 2 s.sup.vinAux)))

/-- R1105: SMBUS_POWER_STATE, Read Byte 0x13. -/
def execSmbusPowerState (s : State) : Host.Outcome State Fault Refusal :=
  .next (s.smbus (some (leBytes 1 (if s.sup.power = .active then 2 else 1))))

/-- R1105: SMBUS_T_J, Read Word 0x20. -/
def execSmbusTJ (s : State) : Host.Outcome State Fault Refusal :=
  .next (s.smbus (some (leBytes 2 (if s.sup.power = .active then s.thermal.tj.toNat else 0x8000))))

/-- R1105: SMBUS_CARD_TEMPERATURE, Read Word 0x21. -/
def execSmbusCardTemperature (s : State) : Host.Outcome State Fault Refusal :=
  .next (s.smbus (some (leBytes 2 (s.thermal.readings[(82 : Fin 83)]).toNat)))

/-- R1105: SMBUS_STATE, Read Byte 0x22. -/
def execSmbusState (s : State) : Host.Outcome State Fault Refusal :=
  .next (s.smbus (some (leBytes 1 (s.thermal.stateBits + if s.boot.fatal then 8 else 0))))

/-- R1105: the protocol of a command code: 1 Read Byte, 2 Read Word, 3 Block Read; none for a code not listed. -/
def smbusProtocol (code : BitVec 8) : Option (BitVec 8) :=
  match code.toNat with
  | 0x01 | 0x11 | 0x12 | 0x20 | 0x21 => some 2
  | 0x02 | 0x13 | 0x22 => some 1
  | 0x03 | 0x04 | 0x10 => some 3
  | _ => none

/-- R1105: SMBUS_NACK: a write, a code which is not listed, or one with a protocol not its own. -/
def execSmbusNack (code : BitVec 8) (write : Bool) (protocol : BitVec 8) (s : State) :
    Host.Outcome State Fault Refusal :=
  .next (if write || smbusProtocol code != some protocol then s.smbus none else s)

end Sys2Proof.Machine
end

