-- ==== Sys2Proof/Machine/Telemetry.lean ====
section
/-!
DEFINITION. Telemetry counters (25): TELEMETRY_READ and COUNTER_CONFIG.
-/

namespace Sys2Proof.Machine

/-- R1093: a listed GROUP. -/
def groupOk (g : BitVec 8) : Bool :=
  g == 1 || g == 2 || (decide (0x10 ≤ g) && decide (g ≤ 0x1F)) || decide (0x80 ≤ g)

/-- R428, R476, R1093: check 8 for a GROUP at an offset. -/
def groupDenied (s : State) (fn : FnNo) (g : BitVec 8) (off : Nat) : Option Rej :=
  let n := toFn (g &&& 0xF)
  let stratumGroup := decide (0x10 ≤ g) && decide (g ≤ 0x1F)
  notPermitted (decide (g < 0x80) &&
    (if fn.val = 0 then stratumGroup && n.val != 0 && s.strata[n].live && s.strata[n].sealed
     else !(stratumGroup && n == fn))) off

/-- R1093: a stratum may read and clear a channel's entry. -/
def State.mayCount (s : State) (fn : FnNo) (c : Chan) : Bool :=
  c.stratum == fn || (fn.val == 0 && !s.strata[c.stratum].sealed)

/-- Starvation up to now is added to the counts of every channel (R705). (Log entry 26 DEDUCED.) -/
def State.foldAll (s : State) : State := s.forEach s.chans fun c t => t.foldStarved c

/-- R1094: the TEMPERATURE block. -/
def State.temperatureBlock (s : State) : List Byte :=
  let h := s.thermal
  leBytes 2 h.tj.toNat ++ leBytes 2 h.tjMax.toNat ++ leBytes 1 h.stateBits ++ leBytes 1 s.hottest ++
  leBytes 2 (s.plans.thermalCap.getD 0) ++ leBytes 8 s.capTicks.toNat ++ leBytes 4 h.capEntries.toNat ++
  List.replicate 4 0 ++ (h.readings.toList.map fun (r : W16) => leBytes 2 r.toNat).flatten ++ List.replicate 2 0 ++
  leBytes 12 h.failed.toNat ++ List.replicate 52 0

/-- R1095: the MODULE_ERRORS block. -/
def Telem.moduleBlock (t : Telem) : List Byte :=
  leBytes 8 t.geodeCorrected.toNat ++ (t.extCorrected.toList.map fun (w : W64) => leBytes 8 w.toNat).flatten ++
  leBytes 8 t.poisoned.toNat ++ leBytes 8 t.throttles.toNat ++ leBytes 8 t.records.toNat ++ List.replicate 160 0

/-- R1096: the STRATUM block; that of a stratum which does not exist reads zero. -/
def State.stratumBlock (s : State) (n : FnNo) : List Byte :=
  if s.strata[n].live then
    (s.telem.strata[n].toList.map fun (w : W64) => leBytes 8 w.toNat).flatten ++ List.replicate 144 0
  else List.replicate 256 0

/-- R1097: a CHANNELS block as a stratum reads it. -/
def State.channelsBlock (s : State) (fn : FnNo) (k : Nat) : List Byte :=
  ((List.range 32).map fun i =>
    match s.chan (32 * k + i) with
    | some c => leBytes 8 (if s.mayCount fn c then c.starvedClr.toNat else 0)
    | none => List.replicate 8 0).flatten

/-- R427, R1094 to R1097: the block of a GROUP. -/
def State.telemetryBlock (s : State) (fn : FnNo) (g : BitVec 8) : List Byte :=
  if g = 1 then s.temperatureBlock
  else if g = 2 then s.telem.moduleBlock
  else if g < 0x80 then s.stratumBlock (toFn (g &&& 0xF))
  else s.channelsBlock fn (g.toNat - 0x80)

/-- TELEMETRY_READ in R375. -/
def specTelemetryRead : CmdSpec := { op := 0x90, len := 16, used := usedBits [(8, 1), (16, 8)] }

/-- R427, R1093: TELEMETRY_READ. -/
def execTelemetryRead (fn : FnNo) (qp : QpNo) (pkt : Packet) (s : State) : Host.Outcome State Fault Refusal :=
  .next (shortCommand specTelemetryRead fn qp pkt
    (fun t => (badField (!groupOk (pkt.u8 8)) 8).or <| (badBuf pkt 16).or <| groupDenied t fn (pkt.u8 8) 8)
    (fun _ => none)
    (fun t =>
      let u := t.foldAll
      (u.writeBlock fn (pkt.u64 16) (u.telemetryBlock fn (pkt.u8 8)), {})) s)

/-- COUNTER_CONFIG in R375. -/
def specCounterConfig : CmdSpec := { op := 0x91, len := 8, used := usedBits [(8, 1), (9, 1), (10, 2)] }

/-- R1100: CHANNEL names every channel in scope, or a channel of the GROUP's block. -/
def channelOk (g : BitVec 8) (c : W16) : Bool :=
  c == 0xFFFF || (decide (0x80 ≤ g) && c.toNat / 32 == g.toNat - 0x80)

/-- R377, R1100: checks 7 and 8 for a named channel. (Log entry 89 DEDUCED.) -/
def namedChannel (s : State) (fn : FnNo) (c : W16) : Option Rej :=
  if c = 0xFFFF then none
  else match s.chan c.toNat with
    | none => badState true
    | some x => notOwner (!s.mayCount fn x) 10 c.toNat

/-- R1100: the counters of a GROUP become zero; T_J_MAX becomes the current T_J. (Log entry 88 DEDUCED.) -/
def State.clearGroup (s : State) (fn : FnNo) (g : BitVec 8) (c : W16) : State :=
  if g = 1 then
    let hot := s.thermal.tj != 0x8000 && decide (tWarn ≤ s.thermal.tj.toInt)
    s.modThermal fun h => { h.zeroCounters s.tick with warnBit := h.warnBit && hot }
  else if g = 2 then { s with telem := { Telem.zero with strata := s.telem.strata } }
  else if g < 0x80 then
    { s with telem := { s.telem with strata := vmod s.telem.strata (toFn (g &&& 0xF)) fun _ => Vector.replicate 14 0 } }
  else
    let named := fun (x : Chan) => s.mayCount fn x && x.num / 32 == g.toNat - 0x80 && (c == 0xFFFF || x.num == c.toNat)
    let clear := fun (x : Chan) => if named x then { x with starvedClr := 0 } else x
    { s with chans := s.chans.map clear }

/-- R427, R1100, R1101: COUNTER_CONFIG, of which CLEAR is the only OP. -/
def execCounterConfigClear (fn : FnNo) (qp : QpNo) (pkt : Packet) (s : State) : Host.Outcome State Fault Refusal :=
  .next (shortCommand specCounterConfig fn qp pkt
    (fun t => (badField (pkt.u8 8 != 1) 8).or <| (badField (!groupOk (pkt.u8 9)) 9).or <|
      (badField (!channelOk (pkt.u8 9) (pkt.u16 10)) 10).or <|
      (groupDenied t fn (pkt.u8 9) 9).or <| namedChannel t fn (pkt.u16 10))
    (fun _ => none)
    (fun t => (t.foldAll.clearGroup fn (pkt.u8 9) (pkt.u16 10), {})) s)

end Sys2Proof.Machine
end

