-- ==== Sys2Proof/Machine/Transfers.lean ====
section
/-!
DEFINITION. The transfer queue of a position (13, 21): bases, SLOAD with the code region, GET, PUT and halo pairs.
A transfer reads and writes memory as it issues.
-/

namespace Sys2Proof.Machine

/-! ### Bases (R485, R608, R714, R918, R960) -/

/-- How an access of a micro-operation ends when it is not served. -/
inductive Stop where
  /-- A program fault: CAUSE of R1035, and the view address of a failed owner check. -/
  | fault (cause addr : Nat)
  /-- The channel-frame ends with ST_FRAME_ABORTED (R127, R714, R760). -/
  | abort
  deriving DecidableEq, Repr

/-- The end which an access error of the view brings. (Log entry 102 DEDUCED.) -/
def stopOf (a : Nat) : AccErr → Stop
  | .refused => .fault 7 a
  | _ => .abort

/-- The channel of a frame carries messages (R936). -/
def State.messageFrame (s : State) (f : Frame) : Bool :=
  match s.chan f.chan with
  | some x => x.kind1
  | none => false

/-- R960: the bytes which the FRAME base of a message presents to GET. -/
def presented (f : Frame) : List Byte :=
  let h := qhead f.payload
  let size := h.size
  let b := (f.payload ++ List.replicate size 0).take size
  if f.wideMsg.isEmpty then b
  else
    let o := min size (outlierOffset h.rows h.cols)
    f.wideMsg.take 64 ++ ((b.drop 64).take (o - 64) ++ List.replicate (size - o) 0)

/-- R608: first view address and extent of a base, and the bytes from its start which are read-only. -/
def State.baseOf (s : State) (r : Run) (f : Frame) (base : Nat) : Nat × Nat × Nat :=
  match s.prog r.stratum r.prog with
  | none => (0, 0, 0)
  | some p =>
    if base = 1 then (p.arena, hdrResident p.header, hdrTotal p.header)
    else if base = 2 then
      let n := tensorSlotBytes f.ctx f.out.spectrogram
      (f.tensorSlot, n, n)
    else if base = 3 then (0, 0x80000000, 0)
    else (extViewBase, 0x800000000, 0)

/-- R608: `n` bytes of a base at an offset are read. -/
def State.baseRead (s : State) (r : Run) (i : Nat) (f : Frame) (base off n : Nat) : Except Stop (List Byte) :=
  if base = 0 then
    match (s.prog r.stratum r.prog).bind Prog.shape with
    | some v => if off + n ≤ v.window then .ok (s.windowRead r i off n) else .error (.fault 5 0)
    | none => .error (.fault 5 0)
  else if base = 2 && s.messageFrame f then
    if off + n ≤ (qhead f.payload).size then .ok ((presented f).drop off |>.take n) else .error (.fault 5 0)
  else
    let b := s.baseOf r f base
    if b.2.1 < off + n then .error (.fault 5 0)
    else
      match s.viewReadN r.stratum (b.1 + off) n with
      | .ok x => .ok x
      | .error e => .error (stopOf e.1 e.2)

/-- R608: bytes are written at an offset of a base by PUT. -/
def State.baseWrite (s : State) (r : Run) (f : Frame) (base off : Nat) (x : List Byte) : Except Stop State :=
  if base = 5 then
    if off + x.length ≤ 192 then
      .ok (s.modRun r fun y => { y with out := y.out.take off ++ x ++ y.out.drop (off + x.length) })
    else .error (.fault 5 0)
  else
    let b := s.baseOf r f base
    if b.2.1 < off + x.length then .error (.fault 5 0)
    else
      let w := s.viewWrite r.stratum ((List.range x.length).zip x |>.map fun y => (b.1 + off + y.1, y.2))
      match w.2 with
      | none => .ok w.1
      | some e => .error (stopOf e.1 e.2)

/-- A micro-operation whose access was not served ends the channel-frame. (Log entry 102 DEDUCED.) -/
def State.stop (s : State) (r : Run) (i k : Nat) : Stop → State
  | .fault cause addr => s.progFault r i k cause addr
  | .abort => s.abortFrame r.chan r.seq.toNat

/-- Rows which are read one after another; the first error ends the reading. -/
def readRows (read : Nat → Except Stop (List Byte)) : List Nat → Except Stop (List (List Byte))
  | [] => .ok []
  | x :: rest =>
    match read x with
    | .error e => .error e
    | .ok b =>
      match readRows read rest with
      | .error e => .error e
      | .ok r => .ok (b :: r)

/-! ### Reads which meet an error (R688, R689, R759, R760) -/

/-- The rows which a micro-operation reads: base, offset of the first, distance, bytes of each, and how many. -/
structure Reads where
  base : Nat
  off : Nat
  stride : Nat
  bytes : Nat
  rows : Nat
  deriving DecidableEq, Repr

/-- The rows which an SLOAD reads. -/
def SloadOp.reads (o : SloadOp) : Reads :=
  { base := o.base, off := o.off, stride := o.stride, bytes := o.cols * sizeBytes o.esize, rows := o.rows }

/-- The rows which a GET reads. -/
def BlockOp.reads (o : BlockOp) : Reads :=
  { base := o.base, off := o.off, stride := o.fstride, bytes := o.rbytes, rows := o.rows }

/-- R608: a view address is among those which rows read. -/
def State.readsAt (s : State) (r : Run) (f : Frame) (o : Reads) (va : Nat) : Bool :=
  !(o.base == 0) && !(o.base == 2 && s.messageFrame f) &&
    (List.range o.rows).any fun (a : Nat) =>
      let start := (s.baseOf r f o.base).1 + o.off + a * o.stride
      decide (start ≤ va ∧ va < start + o.bytes)

/-- R688, R689, R759, R760: what error correction found at one of the bytes which the micro-operation at the head reads. A
read which ends with ST_TARGET_RESET ends the channel-frame. -/
def readFound (opc : Nat) (reads : Uop → Reads) (l : LogNo) (x : Nat × Ecc) : State → State :=
  onHead opc (fun _ => true) l fun r i p k s =>
    match s.frame r.chan r.seq.toNat with
    | none => s
    | some f =>
      if s.readsAt r f (reads (p.uop k)) x.1 then
        let t := s.foundAt r.stratum x.1 x.2
        if s.readLost r.stratum x.1 x.2 then t.stop r i k .abort else t
      else s

/-- The channel-frame which runs at a logical cluster. -/
def State.runKey (s : State) (l : LogNo) : Option (Nat × W64) := (s.runAt l).map fun x => (x.1.chan, x.1.seq)

/-- The micro-operation at the head issues, unless what error correction found ended its channel-frame. -/
def withFound (opc : Nat) (reads : Uop → Reads) (l : LogNo) (issue : State → State) (found : Option (Nat × Ecc)) (s : State) :
    State :=
  match found with
  | none => issue s
  | some x =>
    let t := readFound opc reads l x s
    if s.runKey l == t.runKey l then issue t else t

/-! ### SLOAD (R552, R600, R610, R961 to R963) -/

/-- Elements of `e` bytes of a row of bytes. -/
def elements (e n : Nat) (b : List Byte) : List Nat := (List.range n).map fun (j : Nat) => fieldNat (b.drop (j * e)) 0 e

/-- Rows become columns. -/
def transposed (rows : List (List Nat)) (cols : Nat) : List (List Nat) :=
  (List.range cols).map fun (j : Nat) => rows.map fun r => (r[j]?).getD 0

/-- The slot which rows of elements fill. -/
def slotOf (o : SloadOp) (rows : List (List Nat)) (code : Bool) : OpSlot :=
  let x : OpSlot := { OpSlot.empty with esize := o.esize, code }
  if o.trans then { x with tile := (transposed rows o.cols).flatten, rows := o.cols, cols := o.rows }
  else { x with tile := rows.flatten, rows := o.rows, cols := o.cols }

/-- How an SLOAD meets the code region of its FRAME base. -/
inductive CodeLoad where
  /-- It touches no code. -/
  | outside
  /-- R961: it loads codes. -/
  | codes
  /-- R961: it breaks the rule. -/
  | bad
  deriving DecidableEq, Repr

/-- R961: an SLOAD from a message's FRAME base. -/
def codeLoad (h : QHead) (o : SloadOp) : CodeLoad :=
  let lo := 128
  let hi := 128 + h.rows * cstride h.cols
  let touches := fun (len : Nat) => (List.range o.rows).any fun (r : Nat) =>
    decide (o.off + r * o.stride < hi) && decide (lo < o.off + r * o.stride + len)
  let within := (List.range o.rows).all fun (r : Nat) =>
    decide (lo ≤ o.off + r * o.stride) && decide (o.off + r * o.stride + o.cols ≤ hi)
  if !o.north && o.esize == 1 && !o.trans && within then .codes
  else if touches (o.cols * sizeBytes o.esize) then .bad else .outside

/-- R961, R962: the posit16 element which stands for the code at an offset of the region. After a wide re-run a code
beyond its row has no stated value; `n` is a draw for it. (Log entry 106 DESIGN CHOICE.) -/
def codeElement (f : Frame) (h : QHead) (n off : Nat) : Nat :=
  if f.wideMsg.isEmpty then
    roundPosit 16 ((fieldNat f.payload off 1 : Int) - h.z) 1
  else
    let row := (off - 128) / cstride h.cols
    let col := (off - 128) % cstride h.cols
    if col < h.cols then fieldNat (f.wideMsg.drop (128 + row * wstride h.cols + 2 * col)) 0 2
    else (Config.openValue n off).toNat % 2 ^ 16

/-- R610, R961: what an SLOAD reads. -/
def State.sloadTile (s : State) (r : Run) (i : Nat) (f : Frame) (o : SloadOp) (draw : Nat) : Except Stop OpSlot :=
  let h := qhead f.payload
  let kind := if o.base == 2 && s.messageFrame f then codeLoad h o else .outside
  match kind with
  | .bad => .error (.fault 8 0)
  | .codes => .ok (slotOf o ((List.range o.rows).map fun (a : Nat) => (List.range o.cols).map fun (j : Nat) =>
      codeElement f h draw (o.off + a * o.stride + j)) true)
  | .outside =>
    let e := sizeBytes o.esize
    match readRows (fun a => s.baseRead r i f o.base (o.off + a * o.stride) (o.cols * e)) (List.range o.rows) with
    | .error x => .error x
    | .ok rows => .ok (slotOf o (rows.map (elements e o.cols)) false)

/-- R598, R610: the SLOAD at the head of the X queue issues, and its source is read. It begins to write its slot when R600
lets it. (Log entries 100 DEDUCED, 102 DEDUCED.) -/
def sloadIssue (l : LogNo) : State → State :=
  onHead opcSload (fun _ => true) l fun r i p k s =>
    match s.frame r.chan r.seq.toNat with
    | none => s
    | some f =>
      let d := s.draw
      match s.sloadTile r i f (sloadOp (p.uop k)) d.1 with
      | .error e => s.stop r i k e
      | .ok x =>
        let t := d.2.issue r i { Flight.start k 0 with tile := some x }
        match s.mapping[p.cluster] with
        | some c => if p.mayFill k then t.fillSlot c (sloadOp (p.uop k)) { x with state := .filling } else t
        | none => t

/-- R610: SLOAD. -/
def execSload (read : SlotRead) (s : State) : Host.Outcome State Fault Refusal :=
  .next (withFound opcSload (fun u => (sloadOp u).reads) read.cluster (sloadIssue read.cluster) read.found s)

/-! ### GET and PUT (R612) -/

/-- R612: rows of bytes are written into scratch, each from a multiple of 64. -/
def State.writeBlockRows (s : State) (r : Run) (i loc len : Nat) (rows : List (List Byte)) : State :=
  s.forEach ((List.range rows.length).zip rows) fun x t => t.windowWrite r i (loc + x.1 * roundUp len 64) x.2

/-- R612: the rows of a block as GET writes them. -/
def BlockOp.localRows (o : BlockOp) (rows : List (List Byte)) : List (List Byte) :=
  if o.trans then
    let e := sizeBytes o.esize
    (transposed (rows.map (elements e (o.rbytes / e))) (o.rbytes / e)).map fun x => (x.map (leBytes e)).flatten
  else rows

/-- R598, R612: the GET at the head of the X queue issues: the block is in scratch. (Log entry 102 DEDUCED.) -/
def getIssue (l : LogNo) : State → State :=
  onHead opcGet (fun _ => true) l fun r i p k s =>
    let o := blockOp (p.uop k)
    match s.frame r.chan r.seq.toNat with
    | none => s
    | some f =>
      match readRows (fun a => s.baseRead r i f o.base (o.off + a * o.fstride) o.rbytes) (List.range o.rows) with
      | .error e => s.stop r i k e
      | .ok rows =>
        (s.issue r i { Flight.start k 0 with done := true }).writeBlockRows r i o.loc o.local.2 (o.localRows rows)

/-- R612: GET. `found` is what error correction found, and the view address where. -/
def execGet (cluster : LogNo) (found : Option (Nat × Ecc)) (s : State) : Host.Outcome State Fault Refusal :=
  .next (withFound opcGet (fun u => (blockOp u).reads) cluster (getIssue cluster) found s)

/-- R612: rows of scratch are written to a base, up to the first which is not served. -/
def State.putRows (s : State) (r : Run) (i : Nat) (f : Frame) (o : BlockOp) : List Nat → State × Option Stop
  | [] => (s, none)
  | a :: rest =>
    match s.baseWrite r f o.base (o.off + a * o.fstride) (s.windowRead r i (o.loc + a * roundUp o.rbytes 64) o.rbytes) with
    | .error e => (s, some e)
    | .ok t => t.putRows r i f o rest

/-- R598, R612: the PUT at the head of the X queue issues: the block is at its destination. Of a PUT which is not wholly
served, the rows before stand as far as R132 has it. (Log entry 102 DEDUCED.) -/
def putIssue (l : LogNo) : State → State :=
  onHead opcPut (fun _ => true) l fun r i p k s =>
    let o := blockOp (p.uop k)
    match s.frame r.chan r.seq.toNat with
    | none => s
    | some f =>
      let w := s.putRows r i f o (List.range o.rows)
      match w.2 with
      | none => w.1.issue r i { Flight.start k 0 with done := true }
      | some e =>
        let d := s.draw
        (d.2.putRows r i f o (List.range (Config.progress d.1 % o.rows))).1.stop r i k e

/-- R612: PUT. -/
def execPut (cluster : LogNo) (s : State) : Host.Outcome State Fault Refusal := .next (putIssue cluster s)

/-! ### Halo pairs (R613, R618, R621, R622) -/

/-- The micro-operation in flight of a kind, direction and number at a position. -/
def Position.halo (p : Position) (opc dir num : Nat) : Option Nat :=
  (p.flights.find? fun x => opcOf (p.uop x.idx) == opc && (haloOp (p.uop x.idx)).dir == dir && x.num == num).map (·.idx)

/-- Shape of the group of a run's program. -/
def State.groupShape (s : State) (r : Run) : Nat × Nat :=
  match (s.prog r.stratum r.prog).bind Prog.shape with
  | some v => (v.gr, v.gc)
  | none => (0, 0)

/-- R618, R622: the `k`th send and receive of a pair have both issued: the rows go from scratch to scratch. -/
def State.exchange (s : State) (r : Run) (i si j rj : Nat) : State :=
  match r.pos i, r.pos j with
  | some p, some q =>
    let a := haloOp (p.uop si)
    let b := haloOp (q.uop rj)
    if a.rows ≠ b.rows ∨ a.rbytes ≠ b.rbytes then s.progFault r j rj 6 0
    else
      let rows := (List.range a.rows).map fun (x : Nat) => s.windowRead r i (a.loc + x * a.lstride) a.rbytes
      let t := s.forEach ((List.range rows.length).zip rows) fun x u => u.windowWrite r j (b.loc + x.1 * b.lstride) x.2
      (t.flightDone r i si).flightDone r j rj
  | _, _ => s

/-- R618: the HSEND at the head of the X queue issues; its rows go when its HRECV has issued. -/
def hsendIssue (l : LogNo) : State → State :=
  onHead opcHsend (fun _ => true) l fun r i p k s =>
    let o := haloOp (p.uop k)
    let d : Fin 4 := Fin.ofNat 4 o.dir
    let g := s.groupShape r
    let num := p.sends[d]
    let t := (s.issue r i (Flight.start k num)).modPos r i fun x => { x with sends := vmod x.sends d fun n => n + 1 }
    match neighbour g.1 g.2 i o.dir with
    | none => t
    | some j =>
      match (r.pos j).bind fun q => q.halo opcHrecv ((o.dir + 2) % 4) num with
      | some rj => t.exchange r i k j rj
      | none => t

/-- R618: HSEND. -/
def execHsend (cluster : LogNo) (s : State) : Host.Outcome State Fault Refusal := .next (hsendIssue cluster s)

/-- R618: the HRECV at the head of the X queue issues, and the send of its pair may begin. -/
def hrecvIssue (l : LogNo) : State → State :=
  onHead opcHrecv (fun _ => true) l fun r i p k s =>
    let o := haloOp (p.uop k)
    let d : Fin 4 := Fin.ofNat 4 o.dir
    let g := s.groupShape r
    let num := p.recvs[d]
    let t := (s.issue r i (Flight.start k num)).modPos r i fun x => { x with recvs := vmod x.recvs d fun n => n + 1 }
    match neighbour g.1 g.2 i o.dir with
    | none => t
    | some j =>
      match (r.pos j).bind fun q => q.halo opcHsend ((o.dir + 2) % 4) num with
      | some sj => t.exchange r j sj i k
      | none => t

/-- R618: HRECV. -/
def execHrecv (cluster : LogNo) (s : State) : Host.Outcome State Fault Refusal := .next (hrecvIssue cluster s)

end Sys2Proof.Machine
end

