-- ==== Sys2Proof/Machine/Dispatch.lean ====
section
/-!
DEFINITION. The meaning of each command: one arm per constructor, each one direct call of its meaning.
-/

namespace Sys2Proof.Machine

/-- The effect of a command or event on everything but the queue of waiting commands. -/
def exec (i : Instr) (s : State) : Host.Outcome State Fault Refusal :=
  match i with
  | .devIdentify fn qp pkt => Sys2Proof.Machine.execDevIdentify fn qp pkt s
  | .devStatus fn qp pkt => Sys2Proof.Machine.execDevStatus fn qp pkt s
  | .devSetPowerCap fn qp pkt => Sys2Proof.Machine.execDevSetPowerCap fn qp pkt s
  | .devSetClockPlan fn qp pkt => Sys2Proof.Machine.execDevSetClockPlan fn qp pkt s
  | .stratumCreate fn qp pkt => Sys2Proof.Machine.execStratumCreate fn qp pkt s
  | .stratumDestroy fn qp pkt => Sys2Proof.Machine.execStratumDestroy fn qp pkt s
  | .stratumDestroyComplete target => Sys2Proof.Machine.execStratumDestroyComplete target s
  | .stratumQuery fn qp pkt => Sys2Proof.Machine.execStratumQuery fn qp pkt s
  | .stratumSetArbitration fn qp pkt => Sys2Proof.Machine.execStratumSetArbitration fn qp pkt s
  | .stratumSetMode fn qp pkt => Sys2Proof.Machine.execStratumSetMode fn qp pkt s
  | .memAlloc fn qp pkt => Sys2Proof.Machine.execMemAlloc fn qp pkt s
  | .memFree fn qp pkt => Sys2Proof.Machine.execMemFree fn qp pkt s
  | .memMapExternal fn qp pkt => Sys2Proof.Machine.execMemMapExternal fn qp pkt s
  | .setSize fn qp pkt => Sys2Proof.Machine.execSetSize fn qp pkt s
  | .setStratum fn qp pkt => Sys2Proof.Machine.execSetStratum fn qp pkt s
  | .poolQuery fn qp pkt => Sys2Proof.Machine.execPoolQuery fn qp pkt s
  | .copy fn qp pkt => Sys2Proof.Machine.execCopy fn qp pkt s
  | .copyFill fn qp pkt => Sys2Proof.Machine.execCopyFill fn qp pkt s
  | .copyChecksum fn qp pkt => Sys2Proof.Machine.execCopyChecksum fn qp pkt s
  | .copyJobStart engine stratum => Sys2Proof.Machine.execCopyJobStart engine stratum s
  | .copyJobComplete engine stratum host outcome => Sys2Proof.Machine.execCopyJobComplete engine stratum host outcome s
  | .deliveryJobStart engine stratum => Sys2Proof.Machine.execDeliveryJobStart engine stratum s
  | .deliveryJobComplete job found => Sys2Proof.Machine.execDeliveryJobComplete job found s
  | .portTrainTrain fn qp pkt => Sys2Proof.Machine.execPortTrainTrain fn qp pkt s
  | .portTrainRetrain fn qp pkt => Sys2Proof.Machine.execPortTrainRetrain fn qp pkt s
  | .portTrainDisable fn qp pkt => Sys2Proof.Machine.execPortTrainDisable fn qp pkt s
  | .portStatus fn qp pkt => Sys2Proof.Machine.execPortStatus fn qp pkt s
  | .portSetWidth fn qp pkt => Sys2Proof.Machine.execPortSetWidth fn qp pkt s
  | .chanBind fn qp pkt => Sys2Proof.Machine.execChanBind fn qp pkt s
  | .chanRoute fn qp pkt => Sys2Proof.Machine.execChanRoute fn qp pkt s
  | .chanUnbind fn qp pkt => Sys2Proof.Machine.execChanUnbind fn qp pkt s
  | .chanQuery fn qp pkt => Sys2Proof.Machine.execChanQuery fn qp pkt s
  | .slateContextLoad fn qp pkt host => Sys2Proof.Machine.execSlateContextLoad fn qp pkt host s
  | .slateParamSet fn qp pkt host => Sys2Proof.Machine.execSlateParamSet fn qp pkt host s
  | .slateOutputCfg fn qp pkt => Sys2Proof.Machine.execSlateOutputCfg fn qp pkt s
  | .slateSchedule fn qp pkt => Sys2Proof.Machine.execSlateSchedule fn qp pkt s
  | .progLoad fn qp pkt host => Sys2Proof.Machine.execProgLoad fn qp pkt host s
  | .packageCheck stratum prog host fail => Sys2Proof.Machine.execPackageCheck stratum prog host fail s
  | .progUnload fn qp pkt => Sys2Proof.Machine.execProgUnload fn qp pkt s
  | .progUnloadComplete stratum prog => Sys2Proof.Machine.execProgUnloadComplete stratum prog s
  | .tableLoad fn qp pkt => Sys2Proof.Machine.execTableLoad fn qp pkt s
  | .tableImageCheck stratum slot host fail => Sys2Proof.Machine.execTableImageCheck stratum slot host fail s
  | .microprogLoad fn qp pkt => Sys2Proof.Machine.execMicroprogLoad fn qp pkt s
  | .microprogImageCheck stratum slot host fail => Sys2Proof.Machine.execMicroprogImageCheck stratum slot host fail s
  | .launch fn qp pkt => Sys2Proof.Machine.execLaunch fn qp pkt s
  | .launchAtTick fn qp pkt => Sys2Proof.Machine.execLaunchAtTick fn qp pkt s
  | .startTickReached stratum => Sys2Proof.Machine.execStartTickReached stratum s
  | .barrier fn qp pkt => Sys2Proof.Machine.execBarrier fn qp pkt s
  | .barrierComplete stratum => Sys2Proof.Machine.execBarrierComplete stratum s
  | .frameAbort fn qp pkt => Sys2Proof.Machine.execFrameAbort fn qp pkt s
  | .eventWait fn qp pkt => Sys2Proof.Machine.execEventWait fn qp pkt s
  | .eventWaitComplete stratum wait => Sys2Proof.Machine.execEventWaitComplete stratum wait s
  | .qlinkConfig fn qp pkt => Sys2Proof.Machine.execQlinkConfig fn qp pkt s
  | .qlinkStats fn qp pkt => Sys2Proof.Machine.execQlinkStats fn qp pkt s
  | .telemetryRead fn qp pkt => Sys2Proof.Machine.execTelemetryRead fn qp pkt s
  | .counterConfigClear fn qp pkt => Sys2Proof.Machine.execCounterConfigClear fn qp pkt s
  | .unitFence fn qp pkt => Sys2Proof.Machine.execUnitFence fn qp pkt s
  | .drainEnd unit => Sys2Proof.Machine.execDrainEnd unit s
  | .unitSelftest fn qp pkt => Sys2Proof.Machine.execUnitSelftest fn qp pkt s
  | .unitSelftestComplete unit code => Sys2Proof.Machine.execUnitSelftestComplete unit code s
  | .unitReturn fn qp pkt => Sys2Proof.Machine.execUnitReturn fn qp pkt s
  | .clusterRemap fn qp pkt => Sys2Proof.Machine.execClusterRemap fn qp pkt s
  | .clusterRemapSwitch => Sys2Proof.Machine.execClusterRemapSwitch s
  | .faultLogRead fn qp pkt => Sys2Proof.Machine.execFaultLogRead fn qp pkt s
  | .faultLogReadComplete fail => Sys2Proof.Machine.execFaultLogReadComplete fail s
  | .nvRead fn qp pkt => Sys2Proof.Machine.execNvRead fn qp pkt s
  | .nvWrite fn qp pkt => Sys2Proof.Machine.execNvWrite fn qp pkt s
  | .fwStage fn qp pkt => Sys2Proof.Machine.execFwStage fn qp pkt s
  | .fwCommit fn qp pkt => Sys2Proof.Machine.execFwCommit fn qp pkt s
  | .calStore fn qp pkt => Sys2Proof.Machine.execCalStore fn qp pkt s
  | .nvOperationStart host fail => Sys2Proof.Machine.execNvOperationStart host fail s
  | .pageProgramComplete mismatch => Sys2Proof.Machine.execPageProgramComplete mismatch s
  | .sectorEraseComplete => Sys2Proof.Machine.execSectorEraseComplete s
  | .panelDraw fn qp pkt host fail => Sys2Proof.Machine.execPanelDraw fn qp pkt host fail s
  | .panelStatus fn qp pkt => Sys2Proof.Machine.execPanelStatus fn qp pkt s
  | .lockstepPair fn qp pkt => Sys2Proof.Machine.execLockstepPair fn qp pkt s
  | .lockstepUnpair fn qp pkt => Sys2Proof.Machine.execLockstepUnpair fn qp pkt s
  | .pairTimeout => Sys2Proof.Machine.execPairTimeout s
  | .lockstepStatus fn qp pkt => Sys2Proof.Machine.execLockstepStatus fn qp pkt s
  | .tickSync fn qp pkt => Sys2Proof.Machine.execTickSync fn qp pkt s
  | .tickSyncTimeout port => Sys2Proof.Machine.execTickSyncTimeout port s
  | .unlistedOpcode fn qp opcode pkt => Sys2Proof.Machine.execUnlistedOpcode fn qp opcode pkt s
  | .cancelledCommand fn qp opcode pkt => Sys2Proof.Machine.execCancelledCommand fn qp opcode pkt s
  | .planInstallComplete => Sys2Proof.Machine.execPlanInstallComplete s
  | .hifIntCause fn value => Sys2Proof.Machine.execHifIntCause fn value s
  | .hifIntMask fn value => Sys2Proof.Machine.execHifIntMask fn value s
  | .hifTickLo fn => Sys2Proof.Machine.execHifTickLo fn s
  | .queuePairEnable fn qp value => Sys2Proof.Machine.execQueuePairEnable fn qp value s
  | .queuePairDisable fn qp value => Sys2Proof.Machine.execQueuePairDisable fn qp value s
  | .evqEnable fn value => Sys2Proof.Machine.execEvqEnable fn value s
  | .evqDisable fn value => Sys2Proof.Machine.execEvqDisable fn value s
  | .doorbell fn qp value => Sys2Proof.Machine.execDoorbell fn qp value s
  | .hifCqnHead fn qp value => Sys2Proof.Machine.execHifCqnHead fn qp value s
  | .hifEvqHead fn value => Sys2Proof.Machine.execHifEvqHead fn value s
  | .ringReadError fn qp => Sys2Proof.Machine.execRingReadError fn qp s
  | .hifSupplyStatus value => Sys2Proof.Machine.execHifSupplyStatus value s
  | .registerWrite fn offset wide value => Sys2Proof.Machine.execRegisterWrite fn offset wide value s
  | .accessErr fn write offset size => Sys2Proof.Machine.execAccessErr fn write offset size s
  | .bar2Read fn offset size ecc => Sys2Proof.Machine.execBar2Read fn offset size ecc s
  | .bar2Write fn offset bytes => Sys2Proof.Machine.execBar2Write fn offset bytes s
  | .resultRingRelease stratum prog value => Sys2Proof.Machine.execResultRingRelease stratum prog value s
  | .perstAssert => Sys2Proof.Machine.execPerstAssert s
  | .scrubComplete => Sys2Proof.Machine.execScrubComplete s
  | .perstDeassert => Sys2Proof.Machine.execPerstDeassert s
  | .linkL0 => Sys2Proof.Machine.execLinkL0 s
  | .configRequest fn req => Sys2Proof.Machine.execConfigRequest fn req s
  | .flrPf => Sys2Proof.Machine.execFlrPf s
  | .flrVf fn => Sys2Proof.Machine.execFlrVf fn s
  | .d3hotToD0 => Sys2Proof.Machine.execD3hotToD0 s
  | .vfEnableClear vfs => Sys2Proof.Machine.execVfEnableClear vfs s
  | .busMasterEnable fn enable => Sys2Proof.Machine.execBusMasterEnable fn enable s
  | .pcieReferenceLost => Sys2Proof.Machine.execPcieReferenceLost s
  | .inputRise v => Sys2Proof.Machine.execInputRise v s
  | .vinMainLow v => Sys2Proof.Machine.execVinMainLow v s
  | .vinAuxLow v => Sys2Proof.Machine.execVinAuxLow v s
  | .vinMainQualified v => Sys2Proof.Machine.execVinMainQualified v s
  | .switchComplete v => Sys2Proof.Machine.execSwitchComplete v s
  | .sagBegin v => Sys2Proof.Machine.execSagBegin v s
  | .sagEnd v => Sys2Proof.Machine.execSagEnd v s
  | .vinLoss v => Sys2Proof.Machine.execVinLoss v s
  | .holdupSequenceComplete v => Sys2Proof.Machine.execHoldupSequenceComplete v s
  | .supplyGateOpen v => Sys2Proof.Machine.execSupplyGateOpen v s
  | .supplyGatePauseTimeout => Sys2Proof.Machine.execSupplyGatePauseTimeout s
  | .holdupFault v => Sys2Proof.Machine.execHoldupFault v s
  | .supplyStatusRefresh v => Sys2Proof.Machine.execSupplyStatusRefresh v s
  | .modResetN => Sys2Proof.Machine.execModResetN s
  | .moduleReset => Sys2Proof.Machine.execModuleReset s
  | .modResetNRise => Sys2Proof.Machine.execModResetNRise s
  | .testEn => Sys2Proof.Machine.execTestEn s
  | .imageBootTimeout => Sys2Proof.Machine.execImageBootTimeout s
  | .supervisorBootEnd tickCounts monitorOk logOk => Sys2Proof.Machine.execSupervisorBootEnd tickCounts monitorOk logOk s
  | .aonCheckEnd => Sys2Proof.Machine.execAonCheckEnd s
  | .clockStartEnd => Sys2Proof.Machine.execClockStartEnd s
  | .geodeTestEnd failed => Sys2Proof.Machine.execGeodeTestEnd failed s
  | .clusterRoundEnd failed => Sys2Proof.Machine.execClusterRoundEnd failed s
  | .lpddrTrainingEnd failed => Sys2Proof.Machine.execLpddrTrainingEnd failed s
  | .mapping => Sys2Proof.Machine.execMapping s
  | .pllOutOfLock pll => Sys2Proof.Machine.execPllOutOfLock pll s
  | .pllRelocked pll => Sys2Proof.Machine.execPllRelocked pll s
  | .pllRelockTimeout pll => Sys2Proof.Machine.execPllRelockTimeout pll s
  | .poicaReferenceLost pll => Sys2Proof.Machine.execPoicaReferenceLost pll s
  | .aonCrystalLost pll status => Sys2Proof.Machine.execAonCrystalLost pll status s
  | .requestOpenTimeout unit => Sys2Proof.Machine.execRequestOpenTimeout unit s
  | .unitFault unit cause detail => Sys2Proof.Machine.execUnitFault unit cause detail s
  | .malformedReply unit reply => Sys2Proof.Machine.execMalformedReply unit reply s
  | .watchdogTimeout counter opcode => Sys2Proof.Machine.execWatchdogTimeout counter opcode s
  | .supervisorMemoryError address => Sys2Proof.Machine.execSupervisorMemoryError address s
  | .alwaysOnParity group => Sys2Proof.Machine.execAlwaysOnParity group s
  | .firmwareIntegrityFailed check => Sys2Proof.Machine.execFirmwareIntegrityFailed check s
  | .spareReplacement => Sys2Proof.Machine.execSpareReplacement s
  | .restoration => Sys2Proof.Machine.execRestoration s
  | .sensorSample readings => Sys2Proof.Machine.execSensorSample readings s
  | .cardSensorSample reading => Sys2Proof.Machine.execCardSensorSample reading s
  | .stepTimer => Sys2Proof.Machine.execStepTimer s
  | .releaseTimer => Sys2Proof.Machine.execReleaseTimer s
  | .smbusProduct => Sys2Proof.Machine.execSmbusProduct s
  | .smbusOrder => Sys2Proof.Machine.execSmbusOrder s
  | .smbusSerial => Sys2Proof.Machine.execSmbusSerial s
  | .smbusFwVersion => Sys2Proof.Machine.execSmbusFwVersion s
  | .smbusSupplyStatus => Sys2Proof.Machine.execSmbusSupplyStatus s
  | .smbusVinMain => Sys2Proof.Machine.execSmbusVinMain s
  | .smbusVinAux => Sys2Proof.Machine.execSmbusVinAux s
  | .smbusPowerState => Sys2Proof.Machine.execSmbusPowerState s
  | .smbusTJ => Sys2Proof.Machine.execSmbusTJ s
  | .smbusCardTemperature => Sys2Proof.Machine.execSmbusCardTemperature s
  | .smbusState => Sys2Proof.Machine.execSmbusState s
  | .smbusNack code write protocol => Sys2Proof.Machine.execSmbusNack code write protocol s
  | .bypass code => Sys2Proof.Machine.execBypass code s
  | .idcode => Sys2Proof.Machine.execIdcode s
  | .samplePreload => Sys2Proof.Machine.execSamplePreload s
  | .extest => Sys2Proof.Machine.execExtest s
  | .privateDebug ins => Sys2Proof.Machine.execPrivateDebug ins s
  | .blockLockAcquired lane => Sys2Proof.Machine.execBlockLockAcquired lane s
  | .blockLockLost lane => Sys2Proof.Machine.execBlockLockLost lane s
  | .laneFailure lane => Sys2Proof.Machine.execLaneFailure lane s
  | .ts lane payload inverted => Sys2Proof.Machine.execTs lane payload inverted s
  | .presetMeasureTimer lane margin => Sys2Proof.Machine.execPresetMeasureTimer lane margin s
  | .detectTimeout port => Sys2Proof.Machine.execDetectTimeout port s
  | .equalizeTimeout port => Sys2Proof.Machine.execEqualizeTimeout port s
  | .alignTimeout port => Sys2Proof.Machine.execAlignTimeout port s
  | .negotiateTimeout port => Sys2Proof.Machine.execNegotiateTimeout port s
  | .retrainTimeout port => Sys2Proof.Machine.execRetrainTimeout port s
  | .laneMark lane payload arrival bip => Sys2Proof.Machine.execLaneMark lane payload arrival bip s
  | .laneMarkTransmit port bips => Sys2Proof.Machine.execLaneMarkTransmit port bips s
  | .negRecord lane payload => Sys2Proof.Machine.execNegRecord lane payload s
  | .negAccept lane payload => Sys2Proof.Machine.execNegAccept lane payload s
  | .negRefuse lane payload => Sys2Proof.Machine.execNegRefuse lane payload s
  | .widthChangeReq port payload => Sys2Proof.Machine.execWidthChangeReq port payload s
  | .widthChangeAck port payload => Sys2Proof.Machine.execWidthChangeAck port payload s
  | .widthChangeNak port payload => Sys2Proof.Machine.execWidthChangeNak port payload s
  | .widthChangeSwitch port payload => Sys2Proof.Machine.execWidthChangeSwitch port payload s
  | .widthChangeReqTimeout port => Sys2Proof.Machine.execWidthChangeReqTimeout port s
  | .widthChangeTimeout port => Sys2Proof.Machine.execWidthChangeTimeout port s
  | .idle port => Sys2Proof.Machine.execIdle port s
  | .samples port bytes => Sys2Proof.Machine.execSamples port bytes s
  | .tensor port bytes => Sys2Proof.Machine.execTensor port bytes s
  | .digestFrame port bytes => Sys2Proof.Machine.execDigestFrame port bytes s
  | .logReq port bytes => Sys2Proof.Machine.execLogReq port bytes s
  | .logFrame port bytes => Sys2Proof.Machine.execLogFrame port bytes s
  | .forward port bytes => Sys2Proof.Machine.execForward port bytes s
  | .pairFrame port bytes => Sys2Proof.Machine.execPairFrame port bytes s
  | .unpairFrame port bytes => Sys2Proof.Machine.execUnpairFrame port bytes s
  | .credit lane payload => Sys2Proof.Machine.execCredit lane payload s
  | .creditWithdraw lane payload => Sys2Proof.Machine.execCreditWithdraw lane payload s
  | .creditRefresh port => Sys2Proof.Machine.execCreditRefresh port s
  | .ack lane payload => Sys2Proof.Machine.execAck lane payload s
  | .nak lane payload => Sys2Proof.Machine.execNak lane payload s
  | .replayTimeout port => Sys2Proof.Machine.execReplayTimeout port s
  | .frameMark lane payload => Sys2Proof.Machine.execFrameMark lane payload s
  | .settingNotice lane payload => Sys2Proof.Machine.execSettingNotice lane payload s
  | .forcedSwitch channel => Sys2Proof.Machine.execForcedSwitch channel s
  | .poolStarved channel => Sys2Proof.Machine.execPoolStarved channel s
  | .syncTime lane payload => Sys2Proof.Machine.execSyncTime lane payload s
  | .echo lane payload => Sys2Proof.Machine.execEcho lane payload s
  | .timeTransmit port => Sys2Proof.Machine.execTimeTransmit port s
  | .echoTimeout port => Sys2Proof.Machine.execEchoTimeout port s
  | .cageOvercurrent cage => Sys2Proof.Machine.execCageOvercurrent cage s
  | .cageRetry cage => Sys2Proof.Machine.execCageRetry cage s
  | .grant => Sys2Proof.Machine.execGrant s
  | .zeroingComplete buffer => Sys2Proof.Machine.execZeroingComplete buffer s
  | .pieceStart engine => Sys2Proof.Machine.execPieceStart engine s
  | .pieceEnd engine => Sys2Proof.Machine.execPieceEnd engine s
  | .dispatch stratum => Sys2Proof.Machine.execDispatch stratum s
  | .microStep cluster => Sys2Proof.Machine.execMicroStep cluster s
  | .drain cluster => Sys2Proof.Machine.execDrain cluster s
  | .reductionTransfer clusters => Sys2Proof.Machine.execReductionTransfer clusters s
  | .sload read => Sys2Proof.Machine.execSload read s
  | .qsave cluster => Sys2Proof.Machine.execQsave cluster s
  | .qload cluster => Sys2Proof.Machine.execQload cluster s
  | .qclear cluster => Sys2Proof.Machine.execQclear cluster s
  | .get cluster found => Sys2Proof.Machine.execGet cluster found s
  | .put cluster => Sys2Proof.Machine.execPut cluster s
  | .hsend cluster => Sys2Proof.Machine.execHsend cluster s
  | .hrecv cluster => Sys2Proof.Machine.execHrecv cluster s
  | .micaExp cluster => Sys2Proof.Machine.execMicaExp cluster s
  | .micaExp2 cluster => Sys2Proof.Machine.execMicaExp2 cluster s
  | .micaLog2 cluster => Sys2Proof.Machine.execMicaLog2 cluster s
  | .micaRecip cluster => Sys2Proof.Machine.execMicaRecip cluster s
  | .micaRsqrt cluster => Sys2Proof.Machine.execMicaRsqrt cluster s
  | .micaTanh cluster => Sys2Proof.Machine.execMicaTanh cluster s
  | .micaSigmoid cluster => Sys2Proof.Machine.execMicaSigmoid cluster s
  | .micaErf cluster => Sys2Proof.Machine.execMicaErf cluster s
  | .micaGeluErf cluster => Sys2Proof.Machine.execMicaGeluErf cluster s
  | .micaGeluTanh cluster => Sys2Proof.Machine.execMicaGeluTanh cluster s
  | .micaGeluSig cluster => Sys2Proof.Machine.execMicaGeluSig cluster s
  | .micaSilu cluster => Sys2Proof.Machine.execMicaSilu cluster s
  | .smaxAcc cluster => Sys2Proof.Machine.execSmaxAcc cluster s
  | .smaxNorm cluster => Sys2Proof.Machine.execSmaxNorm cluster s
  | .smax1p cluster => Sys2Proof.Machine.execSmax1p cluster s
  | .rowscale cluster => Sys2Proof.Machine.execRowscale cluster s
  | .micaTable cluster => Sys2Proof.Machine.execMicaTable cluster s
  | .micaMprog cluster => Sys2Proof.Machine.execMicaMprog cluster s
  | .mul cluster => Sys2Proof.Machine.execMul cluster s
  | .add cluster => Sys2Proof.Machine.execAdd cluster s
  | .fmq cluster => Sys2Proof.Machine.execFmq cluster s
  | .lut cluster => Sys2Proof.Machine.execLut cluster s
  | .csel cluster => Sys2Proof.Machine.execCsel cluster s
  | .rred cluster => Sys2Proof.Machine.execRred cluster s
  | .rscale cluster => Sys2Proof.Machine.execRscale cluster s
  | .microBarrier cluster => Sys2Proof.Machine.execMicroBarrier cluster s
  | .barrierRelease cluster => Sys2Proof.Machine.execBarrierRelease cluster s
  | .nop cluster => Sys2Proof.Machine.execNop cluster s
  | .microEnd cluster => Sys2Proof.Machine.execMicroEnd cluster s
  | .microOpComplete cluster uop => Sys2Proof.Machine.execMicroOpComplete cluster uop s
  | .scoreboardStall cluster => Sys2Proof.Machine.execScoreboardStall cluster s
  | .queueWaitTimeout cluster => Sys2Proof.Machine.execQueueWaitTimeout cluster s
  | .channelFrameEnd cluster => Sys2Proof.Machine.execChannelFrameEnd cluster s
  | .resultAnnounceTimeout stratum prog => Sys2Proof.Machine.execResultAnnounceTimeout stratum prog s
  | .sendStart channel => Sys2Proof.Machine.execSendStart channel s
  | .wideCopyTimeout channel msgSeq => Sys2Proof.Machine.execWideCopyTimeout channel msgSeq s
  | .acceptAnswer channel => Sys2Proof.Machine.execAcceptAnswer channel s
  | .wideReq channel => Sys2Proof.Machine.execWideReq channel s
  | .wideMessage channel => Sys2Proof.Machine.execWideMessage channel s
  | .unavailable channel => Sys2Proof.Machine.execUnavailable channel s
  | .tracking channel failure => Sys2Proof.Machine.execTracking channel failure s
  | .fixedRefresh channel => Sys2Proof.Machine.execFixedRefresh channel s
  | .adaptiveRefresh channel => Sys2Proof.Machine.execAdaptiveRefresh channel s
  | .patrolRead channel word found => Sys2Proof.Machine.execPatrolRead channel word found s
  | .extReinitComplete => Sys2Proof.Machine.execExtReinitComplete s
  | .roundStart => Sys2Proof.Machine.execRoundStart s
  | .slotBoundary => Sys2Proof.Machine.execSlotBoundary s
  | .identityChangeTimer => Sys2Proof.Machine.execIdentityChangeTimer s
  | .panelRefreshStart => Sys2Proof.Machine.execPanelRefreshStart s
  | .waveformPhaseEnd => Sys2Proof.Machine.execWaveformPhaseEnd s
  | .bankChargeLow v => Sys2Proof.Machine.execBankChargeLow v s
  | .bankEnergyExhausted writes v => Sys2Proof.Machine.execBankEnergyExhausted writes v s
  | .vinAuxNotLow v => Sys2Proof.Machine.execVinAuxNotLow v s
  | .vinMainNotLow v => Sys2Proof.Machine.execVinMainNotLow v s
  | .testEnLow => Sys2Proof.Machine.execTestEnLow s
  | .flashReadComplete mismatch fail => Sys2Proof.Machine.execFlashReadComplete mismatch fail s
  | .d0ToD3hot => Sys2Proof.Machine.execD0ToD3hot s
  | .pcieLinkDown => Sys2Proof.Machine.execPcieLinkDown s
  | .msixFunctionMask fn mask => Sys2Proof.Machine.execMsixFunctionMask fn mask s

end Sys2Proof.Machine
end

