-- ==== Sys2Proof/Machine/Step.lean ====
section
/-!
DEFINITION. One step: the command at the front of the queue is carried out; on an empty queue the tick
advances.
-/

namespace Sys2Proof.Machine

/-- The state with the command which a table word spells at the front of its queue. (Log entry 2 DESIGN CHOICE.) -/
def State.withFetchWord (s : State) (nbits w : Nat) : State :=
  match decodeTableWord nbits w with
  | some c => { s with pending := c :: s.pending }
  | none => s

/-- One step of the block. On an empty queue one tick passes. (Log entry 1 DESIGN CHOICE.) -/
def step (s : State) : Host.Outcome State Fault Refusal :=
  match s.pending with
  | [] => .next (idle s)
  | c :: rest => exec c { s with pending := rest }

end Sys2Proof.Machine
end

