-- ==== Sys2Proof/Machine/Line.lean ====
section
/-!
DEFINITION. Line coding of a Poica lane (18): the order and the headers of blocks, the scrambler, striping over the lanes in
use, and the presets of the transmitter. The rows carry what a lane's receiver makes of these; no row is a single bit.
-/

namespace Sys2Proof.Machine

/-! ### Blocks and the scrambler (R778 to R781) -/

/-- R779: the payload bits of a block in the order in which they are sent. -/
def payloadBits (w : W64) : List Bool := (List.range 64).map fun i => w.getLsbD i

/-- R780: the sync header H0, H1 of a control or a data block. -/
def syncHeader (control : Bool) : Bool × Bool := (control, !control)

/-- R780: the header is valid. -/
def headerValid (h : Bool × Bool) : Bool := h.1 != h.2

/-- R781: the bit which the scrambler of polynomial 1 + x^39 + x^58 adds; the latest bit of the line is bit 0 of its state. -/
def scramblerTap (st : BitVec 58) : Bool := st.getLsbD 38 != st.getLsbD 57

/-- R781: the state after a bit of the line. -/
def scramblerNext (st : BitVec 58) (line : Bool) : BitVec 58 := (st <<< 1) ||| (BitVec.ofBool line).setWidth 58

/-- R781: bits are scrambled from a state. -/
def scramble (st : BitVec 58) : List Bool → List Bool
  | [] => []
  | b :: r =>
    let x := b != scramblerTap st
    x :: scramble (scramblerNext st x) r

/-- R781, R782: bits of the line are descrambled from a state. -/
def descramble (st : BitVec 58) : List Bool → List Bool
  | [] => []
  | x :: r => (x != scramblerTap st) :: descramble (scramblerNext st x) r

/-- R779 to R781: the 66 bits of a block on a lane whose scrambler is in a state; the header is not scrambled. -/
def lineBits (st : BitVec 58) (control : Bool) (w : W64) : List Bool :=
  let h := syncHeader control
  h.1 :: h.2 :: scramble st (payloadBits w)

/-! ### Striping (R791) -/

/-- R791: the lane which carries block `n` of the striped stream over the lanes in use. -/
def stripeLane (p : PortNo) (inUse : BitVec 4) (n : Nat) : Option LaneNo :=
  (lanesIn p inUse)[n % (lanesIn p inUse).length]?

/-! ### Presets (R795) -/

/-- R795: the taps c(-1), c(0) and c(+1) of a preset, in sixteenths. -/
def presetTaps : Fin 8 → Int × Int × Int
  | 0 => (0, 16, 0)
  | 1 => (0, 14, -2)
  | 2 => (0, 12, -4)
  | 3 => (0, 10, -6)
  | 4 => (-2, 14, 0)
  | 5 => (-2, 12, -2)
  | 6 => (-2, 10, -4)
  | 7 => (-1, 11, -4)

end Sys2Proof.Machine
end

