-- ==== Sys2Proof/Safety.lean ====
section
/-!
DEFINITION. The terms in which claims are made: a step which completes, the components of the state, and the
relation which says that nothing but the components named differs between two states.
-/

namespace Sys2Proof.Machine

/-- The outcome is a next state. -/
def Completes (o : Host.Outcome State Fault Refusal) : Prop := ∃ t, o = .next t

/-- The components of the state: one for each field of `State`, under the field's name. -/
inductive Comp where
  | pending | out | tick | withhold | free | nextId | nextLaunch | order32 | fns | outst | strata | geo | ext
  | copies | deliveries | sup | plans | boot | units | mapping | lastPhys | toReplace | scratch | clusters
  | waits | barriers | progs | scheduled | tables | mprogs | tableLoads | mprogLoads | runs | ports | lanes
  | chans | frames | stores | pieces | loaded | repro | lock | faults | logReads | nv | panel | thermal | telem
  | slots | remaps | jtag
  deriving DecidableEq, Repr

/-- A component has the same value in two states. -/
def Comp.Same : Comp → State → State → Prop
  | .pending, s, t => t.pending = s.pending
  | .out, s, t => t.out = s.out
  | .tick, s, t => t.tick = s.tick
  | .withhold, s, t => t.withhold = s.withhold
  | .free, s, t => t.free = s.free
  | .nextId, s, t => t.nextId = s.nextId
  | .nextLaunch, s, t => t.nextLaunch = s.nextLaunch
  | .order32, s, t => t.order32 = s.order32
  | .fns, s, t => t.fns = s.fns
  | .outst, s, t => t.outst = s.outst
  | .strata, s, t => t.strata = s.strata
  | .geo, s, t => t.geo = s.geo
  | .ext, s, t => t.ext = s.ext
  | .copies, s, t => t.copies = s.copies
  | .deliveries, s, t => t.deliveries = s.deliveries
  | .sup, s, t => t.sup = s.sup
  | .plans, s, t => t.plans = s.plans
  | .boot, s, t => t.boot = s.boot
  | .units, s, t => t.units = s.units
  | .mapping, s, t => t.mapping = s.mapping
  | .lastPhys, s, t => t.lastPhys = s.lastPhys
  | .toReplace, s, t => t.toReplace = s.toReplace
  | .scratch, s, t => t.scratch = s.scratch
  | .clusters, s, t => t.clusters = s.clusters
  | .waits, s, t => t.waits = s.waits
  | .barriers, s, t => t.barriers = s.barriers
  | .progs, s, t => t.progs = s.progs
  | .scheduled, s, t => t.scheduled = s.scheduled
  | .tables, s, t => t.tables = s.tables
  | .mprogs, s, t => t.mprogs = s.mprogs
  | .tableLoads, s, t => t.tableLoads = s.tableLoads
  | .mprogLoads, s, t => t.mprogLoads = s.mprogLoads
  | .runs, s, t => t.runs = s.runs
  | .ports, s, t => t.ports = s.ports
  | .lanes, s, t => t.lanes = s.lanes
  | .chans, s, t => t.chans = s.chans
  | .frames, s, t => t.frames = s.frames
  | .stores, s, t => t.stores = s.stores
  | .pieces, s, t => t.pieces = s.pieces
  | .loaded, s, t => t.loaded = s.loaded
  | .repro, s, t => t.repro = s.repro
  | .lock, s, t => t.lock = s.lock
  | .faults, s, t => t.faults = s.faults
  | .logReads, s, t => t.logReads = s.logReads
  | .nv, s, t => t.nv = s.nv
  | .panel, s, t => t.panel = s.panel
  | .thermal, s, t => t.thermal = s.thermal
  | .telem, s, t => t.telem = s.telem
  | .slots, s, t => t.slots = s.slots
  | .remaps, s, t => t.remaps = s.remaps
  | .jtag, s, t => t.jtag = s.jtag

/-- Every component outside the list has in `t` the value which it has in `s`. -/
def ChangesOnly (ks : List Comp) (s t : State) : Prop := ∀ c, c ∉ ks → c.Same s t

/-- Between two states the module only added outputs to its output log and writes to those which wait for a function's Bus
Master Enable, and every function kept that enable. -/
structure Grows (s t : State) : Prop where
  out : ∃ l, t.out = s.out ++ l
  waits : ∀ fn : FnNo, t.fns[fn].busMaster = s.fns[fn].busMaster ∧ ∃ l, t.fns[fn].unsent = s.fns[fn].unsent ++ l

/-! ### Host commands -/

/-- The module takes the command `p` of opcode `op` from this submission queue now: the queue is open (R154, R223, R279)
and it is its turn (R293), the command is at its front, held back or unread (R218, R1144), nothing holds it back any longer
(R232, R282, R284), and its chain has not failed (R286). -/
structure Ready (s : State) (fn : FnNo) (qp : QpNo) (op : BitVec 8) (long : Bool) (p : Packet) : Prop where
  opens : s.queueOpen fn qp = true
  turn : s.inTurn fn qp = true
  front : s.fns[fn].qps[qp].held = some ⟨op, p⟩ ∨
    (s.fns[fn].qps[qp].held = none ∧ s.fns[fn].busMaster = true ∧ s.fns[fn].qps[qp].stopping = false ∧
      s.fns[fn].qps[qp].readPos ≠ s.fns[fn].qps[qp].tail)
  free : s.mustWait long fn qp op p = false
  unfailed : s.fns[fn].qps[qp].chainFailed = none

/-- The command is ready, and none of the ten checks of R274 rejects it: `chk` and `res` are its opcode's own checks. -/
def Accepts (c : CmdSpec) (long : Bool) (fn : FnNo) (qp : QpNo) (p : Packet) (chk res : State → Option Rej)
    (s : State) : Prop :=
  Ready s fn qp c.op long p ∧
    validate c fn p (chk (s.taken fn qp)) (res (s.taken fn qp)) (s.taken fn qp) = none

/-- The status reply with which a command is answered in a state (R227, R266). -/
def replyOf (s : State) (fn : FnNo) (qp : QpNo) (op : BitVec 8) (p : Packet) (status detail : W16) (r0 r1 : W64) : Reply :=
  { op, phase := s.fns[fn].qps[qp].cqPhase, notified := p.flags.getLsbD 6, chain := p.flags.getLsbD 5, tag := p.tag,
    status, detail, r0, r1, tick := s.tick }

/-- Between two states the module sent out this status reply for a command, with the tick of the first; while Bus Master
Enable of the function is 0 the reply waits to be written (R1144). -/
def Replied (s t : State) (fn : FnNo) (qp : QpNo) (op : BitVec 8) (p : Packet) (status detail : W16) (r0 r1 : W64) :
    Prop :=
  if s.fns[fn].busMaster then
    ∃ (l : List Emit) (u : State) (a : W64), t.out = s.out ++ l ∧ u.tick = s.tick ∧
      Emit.reply fn qp a (replyOf u fn qp op p status detail r0 r1).bytes ∈ l
  else Unsent.reply qp op p.flags p.tag status detail r0 r1 ∈ t.fns[fn].unsent

/-- Between two states the module wrote these bytes to host memory for a function; while Bus Master Enable of the function
is 0 the write waits (R185, R1144). -/
def Wrote (s t : State) (fn : FnNo) (addr : W64) (bytes : List Byte) : Prop :=
  if s.fns[fn].busMaster then Emit.hostWrite fn addr bytes false ∈ t.out else Unsent.bytes addr bytes ∈ t.fns[fn].unsent

/-- A short command's state after its effect: it is answered, and its queue pair settles (R267, R285). -/
def shortDone (c : CmdSpec) (fn : FnNo) (qp : QpNo) (p : Packet) (u : State × Res) : State :=
  settleQueue (afterReply fn qp p 0 (if u.2.status = stOk then none else some p.tag)
    (u.1.reply fn qp c.op p u.2.status 0 u.2.r0 u.2.r1)) fn qp

/-- An accepted long-running command is outstanding under a new number, with an event queue entry reserved (R232, R269). -/
def State.outstanding (s : State) (fn : FnNo) (qp : QpNo) (op : BitVec 8) (p : Packet) : State :=
  let o : Outst := { id := s.nextId, fn, qp, op, tag := p.tag, chain := p.flags.getLsbD 5 && !s.fns[fn].qps[qp].stopping }
  let t : State := { s with nextId := s.nextId + 1, outst := s.outst ++ [o] }
  t.modEvq fn fun e => { e with reserved := e.reserved + 1 }

/-- A long-running command's state after its acceptance: it is outstanding, has its acceptance effects, is answered
with ST_ACCEPTED, and its work begins (R269, R289). -/
def longDone (c : CmdSpec) (fn : FnNo) (qp : QpNo) (p : Packet) (acc work : Nat → State → State) (r : State) : State :=
  settleQueue (work r.nextId (afterReply fn qp p r.nextId none
    ((acc r.nextId (r.outstanding fn qp c.op p)).reply fn qp c.op p stAccepted 0 0 0))) fn qp

/-! ### Micro-operations -/

/-- The micro-operation `k` stands at the head of the queue of an opcode, at position `i` of the run which a cluster
serves; it has that opcode, and its semaphore and its queue let it issue (R597, R598). -/
structure AtHead (s : State) (opc : Nat) (l : LogNo) (r : Run) (i : Nat) (p : Position) (k : Nat) : Prop where
  run : s.runAt l = some (r, i)
  pos : r.pos i = some p
  head : p.head (Fin.ofNat 3 (queueOf opc)) = some k
  opcode : opcOf (p.uop k) = opc
  may : p.mayIssue k = true

/-- A program fault ended the work of a run between two states: it was recorded, and the rest of every position of the run is
discarded (R604). -/
structure Faulted (s t : State) (r : Run) : Prop where
  recorded : t.faults.next = s.faults.next + 1
  ends : ∀ q ∈ t.runs, q.chan = r.chan → q.seq = r.seq →
    q.ending = true ∧ ∀ p ∈ q.positions, ∀ n : Fin 3, p.head n = none

/-! ### A fatal condition -/

/-- A fatal condition was recorded between two states: HIF_FATAL_LOG holds its first word, the tick and two words of data,
FATAL is raised in every function, and no work is left (R240, R246, R1039, R1040). -/
structure FatalEntered (s t : State) (w0 a b : W32) : Prop where
  fatal : t.boot.fatal = true
  word0 : t.boot.fatalLog[0] = w0
  tickLo : t.boot.fatalLog[1] = s.tick.setWidth 32
  tickHi : t.boot.fatalLog[2] = (s.tick >>> 32).setWidth 32
  word3 : t.boot.fatalLog[3] = a
  word4 : t.boot.fatalLog[4] = b
  outst : t.outst = []
  runs : t.runs = []
  chans : t.chans = []
  raised : ∀ n : FnNo, t.fns[n].intCause.getLsbD 11 = true
  phase : s.boot.phase = 8 → t.boot.phase = 8
  unserved : ∀ (n : FnNo) (qp : QpNo), t.queueServed n qp = false

/-! ### What a command may change -/

/-- The host command which a row stands for: its checks' specification, whether it is long-running, the function and queue
pair, and the packet. A row which shares its opcode answers only packets of its own OP (R358, R378, R451). -/
def command : Instr → Option (CmdSpec × Bool × FnNo × QpNo × Packet)
  | .devIdentify fn qp p => some (specDevIdentify, false, fn, qp, p)
  | .devStatus fn qp p => some (specDevStatus, false, fn, qp, p)
  | .devSetPowerCap fn qp p => some (specDevSetPowerCap, false, fn, qp, p)
  | .devSetClockPlan fn qp p => some (specDevSetClockPlan, true, fn, qp, p)
  | .stratumCreate fn qp p => some (specStratumCreate, false, fn, qp, p)
  | .stratumDestroy fn qp p => some (specStratumDestroy, true, fn, qp, p)
  | .stratumQuery fn qp p => some (specStratumQuery, false, fn, qp, p)
  | .stratumSetMode fn qp p => some (specStratumSetMode, false, fn, qp, p)
  | .memAlloc fn qp p => some (specMemAlloc, false, fn, qp, p)
  | .memFree fn qp p => some (specMemFree, false, fn, qp, p)
  | .memMapExternal fn qp p => some (specMemMapExternal, false, fn, qp, p)
  | .setSize fn qp p => if p.u8 8 != 2 then some (specPoolConfig, false, fn, qp, p) else none
  | .setStratum fn qp p => if p.u8 8 == 2 then some (specPoolConfig, false, fn, qp, p) else none
  | .poolQuery fn qp p => some (specPoolQuery, false, fn, qp, p)
  | .copy fn qp p => some (specCopy, true, fn, qp, p)
  | .copyFill fn qp p => some (specCopyFill, true, fn, qp, p)
  | .copyChecksum fn qp p => some (specCopyChecksum, true, fn, qp, p)
  | .portTrainTrain fn qp p => if p.u8 9 == 2 || p.u8 9 == 3 then none else some (specPortTrain, true, fn, qp, p)
  | .portTrainRetrain fn qp p => if p.u8 9 == 2 then some (specPortTrain, true, fn, qp, p) else none
  | .portTrainDisable fn qp p => if p.u8 9 == 3 then some (specPortTrain, true, fn, qp, p) else none
  | .portStatus fn qp p => some (specPortStatus, false, fn, qp, p)
  | .portSetWidth fn qp p => some (specPortSetWidth, true, fn, qp, p)
  | .chanBind fn qp p => some (specChanBind, false, fn, qp, p)
  | .chanRoute fn qp p => some (specChanRoute, true, fn, qp, p)
  | .chanUnbind fn qp p => some (specChanUnbind, true, fn, qp, p)
  | .chanQuery fn qp p => some (specChanQuery, false, fn, qp, p)
  | .slateContextLoad fn qp p _ => some (specSlateContextLoad, false, fn, qp, p)
  | .slateParamSet fn qp p _ => some (specSlateParamSet, false, fn, qp, p)
  | .slateOutputCfg fn qp p => some (specSlateOutputCfg, false, fn, qp, p)
  | .slateSchedule fn qp p => some (specSlateSchedule, false, fn, qp, p)
  | .progUnload fn qp p => some (specProgUnload, true, fn, qp, p)
  | .tableLoad fn qp p => some (specTableLoad, true, fn, qp, p)
  | .microprogLoad fn qp p => some (specMicroprogLoad, true, fn, qp, p)
  | .launch fn qp p => some (specLaunch, false, fn, qp, p)
  | .launchAtTick fn qp p => some (specLaunchAtTick, true, fn, qp, p)
  | .barrier fn qp p => some (specBarrier, true, fn, qp, p)
  | .frameAbort fn qp p => some (specFrameAbort, false, fn, qp, p)
  | .eventWait fn qp p => some (specEventWait, true, fn, qp, p)
  | .qlinkConfig fn qp p => some (specQlinkConfig, false, fn, qp, p)
  | .qlinkStats fn qp p => some (specQlinkStats, false, fn, qp, p)
  | .telemetryRead fn qp p => some (specTelemetryRead, false, fn, qp, p)
  | .counterConfigClear fn qp p => some (specCounterConfig, false, fn, qp, p)
  | .unitFence fn qp p => some (specUnitFence, true, fn, qp, p)
  | .unitSelftest fn qp p => some (specUnitSelftest, true, fn, qp, p)
  | .unitReturn fn qp p => some (specUnitReturn, false, fn, qp, p)
  | .clusterRemap fn qp p => some (specClusterRemap, true, fn, qp, p)
  | .faultLogRead fn qp p => some (specFaultLogRead, true, fn, qp, p)
  | .nvRead fn qp p => some (specNvRead, true, fn, qp, p)
  | .nvWrite fn qp p => some (specNvWrite, true, fn, qp, p)
  | .fwStage fn qp p => some (specFwStage, true, fn, qp, p)
  | .fwCommit fn qp p => some (specFwCommit, true, fn, qp, p)
  | .calStore fn qp p => some (specCalStore, true, fn, qp, p)
  | .panelDraw fn qp p _ _ => some (specPanelDraw, true, fn, qp, p)
  | .panelStatus fn qp p => some (specPanelStatus, false, fn, qp, p)
  | .lockstepPair fn qp p => if p.u8 8 != 2 then some (specLockstepPair, true, fn, qp, p) else none
  | .lockstepUnpair fn qp p => if p.u8 8 == 2 then some (specLockstepPair, true, fn, qp, p) else none
  | .lockstepStatus fn qp p => some (specLockstepStatus, false, fn, qp, p)
  | .tickSync fn qp p => some (specTickSync, true, fn, qp, p)
  | .stratumSetArbitration fn qp p => some (specStratumSetArbitration, false, fn, qp, p)
  | .progLoad fn qp p _ => some (specProgLoad, true, fn, qp, p)
  | _ => none

/-- The components which a command of a row may change. No row changes the queue of waiting commands. -/
def mayChange : Instr → List Comp
  | .devIdentify .. | .devStatus .. | .stratumQuery .. | .poolQuery .. | .portStatus .. | .chanQuery ..
  | .qlinkStats .. | .panelStatus .. | .lockstepStatus .. | .unlistedOpcode .. | .cancelledCommand ..
  | .hifTickLo .. | .evqEnable .. | .evqDisable .. | .doorbell .. | .hifCqnHead .. | .hifEvqHead ..
  | .ringReadError .. | .accessErr .. | .msixFunctionMask .. =>
    [.out, .fns]
  | .devSetPowerCap .. | .planInstallComplete .. =>
    [.out, .fns, .outst, .geo, .deliveries, .sup, .plans, .clusters, .waits, .progs, .runs, .ports, .chans,
    .frames, .loaded, .repro, .lock, .telem, .slots]
  | .devSetClockPlan .. =>
    [.out, .nextId, .fns, .outst, .plans, .waits, .repro, .slots]
  | .stratumCreate .. =>
    [.out, .free, .fns, .outst, .strata, .geo, .deliveries, .scratch, .clusters, .waits, .progs, .runs, .ports,
    .chans, .frames, .loaded, .repro, .lock, .panel, .telem, .slots, .jtag]
  | .stratumDestroy .. =>
    [.out, .nextId, .fns, .outst, .strata, .panel]
  | .stratumDestroyComplete .. =>
    [.out, .fns, .outst, .strata, .geo, .ext, .copies, .deliveries, .scratch, .clusters, .waits, .barriers,
    .progs, .scheduled, .tables, .mprogs, .tableLoads, .mprogLoads, .runs, .ports, .chans, .frames, .stores,
    .loaded, .repro, .lock, .logReads, .nv, .panel, .telem, .slots]
  | .stratumSetArbitration .. =>
    [.out, .fns, .panel, .slots]
  | .stratumSetMode .. =>
    [.out, .fns, .outst, .strata, .geo, .deliveries, .waits, .runs, .ports, .chans, .frames, .loaded, .repro,
    .lock, .panel, .telem]
  | .memAlloc .. =>
    [.out, .free, .fns, .strata, .geo]
  | .memFree .. =>
    [.out, .fns, .strata, .geo, .ext]
  | .memMapExternal .. =>
    [.out, .fns, .strata]
  | .setSize .. | .zeroingComplete .. | .acceptAnswer .. =>
    [.out, .fns, .geo, .waits, .chans, .telem]
  | .setStratum .. =>
    [.out, .fns, .strata, .geo, .waits, .chans, .telem]
  | .copy .. | .copyFill .. | .copyChecksum .. =>
    [.out, .nextId, .fns, .outst, .copies]
  | .copyJobStart .. =>
    [.copies, .stores]
  | .copyJobComplete .. | .deliveryJobComplete .. | .bar2Read .. | .requestOpenTimeout .. | .unitFault ..
  | .malformedReply .. | .sload .. | .get .. | .patrolRead .. =>
    [.out, .free, .fns, .outst, .strata, .geo, .ext, .copies, .deliveries, .units, .toReplace, .scratch,
    .clusters, .waits, .progs, .runs, .ports, .lanes, .chans, .frames, .stores, .pieces, .loaded, .lock,
    .faults, .nv, .telem, .slots, .remaps]
  | .deliveryJobStart .. =>
    [.deliveries, .stores]
  | .portTrainTrain .. | .portTrainRetrain .. | .portTrainDisable .. =>
    [.out, .nextId, .fns, .outst, .geo, .deliveries, .units, .clusters, .waits, .progs, .runs, .ports, .lanes,
    .chans, .frames, .loaded, .lock, .faults, .telem, .slots]
  | .portSetWidth .. =>
    [.out, .nextId, .fns, .outst, .waits, .ports, .slots]
  | .chanBind .. | .wideReq .. =>
    [.out, .fns, .geo, .waits, .ports, .chans, .telem]
  | .chanRoute .. | .chanUnbind .. =>
    [.out, .nextId, .fns, .outst, .chans]
  | .slateContextLoad .. | .slateParamSet .. | .slateSchedule .. | .qlinkConfig .. =>
    [.out, .fns, .chans]
  | .slateOutputCfg .. =>
    [.out, .fns, .geo, .ext, .scratch, .chans]
  | .progLoad .. =>
    [.out, .nextId, .fns, .outst, .geo, .deliveries, .mapping, .lastPhys, .scratch, .clusters, .waits, .progs,
    .runs, .ports, .chans, .frames, .loaded, .repro, .lock, .faults, .nv, .telem]
  | .packageCheck .. =>
    [.out, .free, .fns, .outst, .geo, .ext, .deliveries, .scratch, .clusters, .waits, .progs, .runs, .ports,
    .chans, .frames, .loaded, .repro, .lock, .telem]
  | .progUnload .. =>
    [.out, .nextId, .fns, .outst, .progs]
  | .progUnloadComplete .. =>
    [.out, .fns, .outst, .scratch, .clusters, .waits, .progs, .scheduled, .chans]
  | .tableLoad .. =>
    [.out, .nextId, .fns, .outst, .tableLoads]
  | .tableImageCheck .. =>
    [.out, .fns, .outst, .waits, .tables, .tableLoads]
  | .microprogLoad .. =>
    [.out, .nextId, .fns, .outst, .mprogLoads]
  | .microprogImageCheck .. =>
    [.out, .fns, .outst, .waits, .mprogs, .mprogLoads]
  | .launch .. =>
    [.out, .nextLaunch, .fns, .progs]
  | .launchAtTick .. =>
    [.out, .nextId, .nextLaunch, .fns, .outst, .scheduled]
  | .startTickReached .. =>
    [.out, .tick, .nextLaunch, .fns, .outst, .waits, .progs, .scheduled]
  | .barrier .. =>
    [.out, .nextId, .fns, .outst, .barriers]
  | .barrierComplete .. =>
    [.out, .fns, .outst, .waits, .barriers]
  | .frameAbort .. | .resultRingRelease .. | .busMasterEnable .. | .forward .. | .grant .. | .wideMessage ..
  | .unavailable .. =>
    [.out, .fns, .outst, .geo, .deliveries, .clusters, .waits, .progs, .runs, .ports, .chans, .frames, .loaded,
    .lock, .telem]
  | .eventWait .. =>
    [.out, .nextId, .fns, .outst, .waits]
  | .eventWaitComplete .. =>
    [.out, .tick, .fns, .outst, .waits]
  | .telemetryRead .. =>
    [.out, .fns, .chans, .telem]
  | .counterConfigClear .. =>
    [.out, .fns, .chans, .thermal, .telem]
  | .unitFence .. =>
    [.out, .free, .nextId, .fns, .outst, .strata, .geo, .ext, .copies, .deliveries, .units, .toReplace,
    .scratch, .clusters, .waits, .progs, .runs, .ports, .lanes, .chans, .frames, .stores, .pieces, .loaded,
    .lock, .faults, .nv, .telem, .slots, .remaps]
  | .drainEnd .. =>
    [.out, .free, .fns, .outst, .strata, .geo, .ext, .copies, .deliveries, .units, .scratch, .clusters, .waits,
    .progs, .runs, .ports, .lanes, .chans, .frames, .stores, .pieces, .loaded, .lock, .faults, .telem, .slots]
  | .unitSelftest .. =>
    [.out, .nextId, .fns, .outst, .units, .waits, .lanes]
  | .unitSelftestComplete .. =>
    [.out, .fns, .outst, .units, .waits, .lanes]
  | .unitReturn .. =>
    [.out, .fns, .geo, .units, .scratch, .clusters, .waits, .ports, .chans, .faults, .nv, .telem]
  | .clusterRemap .. =>
    [.out, .nextId, .fns, .outst, .remaps]
  | .clusterRemapSwitch .. =>
    [.out, .fns, .outst, .mapping, .lastPhys, .scratch, .clusters, .waits, .faults, .nv, .telem, .remaps]
  | .faultLogRead .. =>
    [.out, .nextId, .fns, .outst, .logReads]
  | .faultLogReadComplete .. =>
    [.out, .fns, .outst, .waits, .logReads]
  | .nvRead .. | .nvWrite .. | .fwStage .. | .fwCommit .. | .calStore .. =>
    [.out, .nextId, .fns, .outst, .nv]
  | .nvOperationStart .. | .waveformPhaseEnd .. =>
    [.out, .fns, .outst, .waits, .nv, .panel]
  | .pageProgramComplete .. =>
    [.out, .free, .fns, .outst, .waits, .nv, .panel]
  | .sectorEraseComplete .. =>
    [.out, .fns, .waits, .nv]
  | .panelDraw .. =>
    [.out, .nextId, .fns, .outst, .waits, .panel]
  | .lockstepPair .. | .lockstepUnpair .. =>
    [.out, .nextId, .fns, .outst, .geo, .deliveries, .waits, .runs, .ports, .chans, .frames, .loaded, .lock,
    .telem]
  | .pairTimeout .. =>
    [.out, .tick, .fns, .outst, .waits, .lock]
  | .tickSync .. =>
    [.out, .nextId, .fns, .outst, .ports]
  | .tickSyncTimeout .. | .echoTimeout .. =>
    [.out, .tick, .fns, .outst, .waits, .ports]
  | .hifIntCause .. | .hifIntMask .. | .registerWrite .. =>
    [.out, .fns, .outst, .sup]
  | .queuePairEnable .. | .queuePairDisable .. =>
    [.out, .fns, .outst]
  | .hifSupplyStatus .. =>
    [.out, .sup]
  | .bar2Write .. =>
    [.out, .fns, .geo, .ext, .scratch]
  | .perstAssert .. | .flrPf .. | .d3hotToD0 .. | .pcieReferenceLost .. =>
    [.out, .free, .fns, .outst, .strata, .geo, .ext, .copies, .deliveries, .sup, .plans, .boot, .units,
    .toReplace, .scratch, .clusters, .waits, .barriers, .progs, .scheduled, .tables, .mprogs, .tableLoads,
    .mprogLoads, .runs, .ports, .lanes, .chans, .frames, .stores, .pieces, .loaded, .repro, .lock, .faults,
    .logReads, .nv, .panel, .thermal, .telem, .slots, .remaps]
  | .scrubComplete .. | .aonCheckEnd .. =>
    [.out, .fns, .boot]
  | .perstDeassert .. | .linkL0 .. | .modResetNRise .. | .testEnLow .. | .d0ToD3hot .. | .pcieLinkDown .. =>
    [.boot]
  | .configRequest .. | .vfEnableClear .. =>
    [.out, .fns, .outst, .geo, .copies, .deliveries, .boot, .clusters, .waits, .barriers, .progs, .scheduled,
    .tableLoads, .mprogLoads, .runs, .ports, .chans, .frames, .stores, .loaded, .lock, .logReads, .nv, .panel,
    .telem]
  | .flrVf .. =>
    [.out, .fns, .outst, .geo, .copies, .deliveries, .clusters, .waits, .barriers, .progs, .scheduled,
    .tableLoads, .mprogLoads, .runs, .ports, .chans, .frames, .stores, .loaded, .lock, .logReads, .nv, .panel,
    .telem]
  | .inputRise .. | .holdupSequenceComplete .. | .bankEnergyExhausted .. =>
    [.tick, .withhold, .free, .fns, .outst, .strata, .geo, .ext, .copies, .deliveries, .sup, .plans, .boot,
    .units, .mapping, .toReplace, .scratch, .clusters, .waits, .barriers, .progs, .scheduled, .tables, .mprogs,
    .tableLoads, .mprogLoads, .runs, .ports, .lanes, .chans, .frames, .stores, .pieces, .loaded, .repro, .lock,
    .faults, .logReads, .nv, .panel, .thermal, .telem, .slots, .remaps]
  | .vinMainLow .. | .vinAuxLow .. | .vinAuxNotLow .. | .vinMainNotLow .. =>
    [.out, .fns, .sup, .plans, .waits, .repro, .telem, .slots]
  | .vinMainQualified .. =>
    [.out, .fns, .sup, .plans, .boot, .waits, .repro, .telem, .slots]
  | .switchComplete .. =>
    [.out, .fns, .sup, .plans, .waits, .repro, .faults, .telem, .slots]
  | .sagBegin .. =>
    [.out, .fns, .outst, .strata, .geo, .copies, .deliveries, .sup, .plans, .boot, .clusters, .waits,
    .barriers, .progs, .scheduled, .tableLoads, .mprogLoads, .runs, .ports, .chans, .frames, .stores, .pieces,
    .loaded, .lock, .logReads, .nv, .panel, .telem, .remaps, .jtag]
  | .sagEnd .. =>
    [.out, .fns, .sup, .waits]
  | .vinLoss .. | .bankChargeLow .. =>
    [.out, .fns, .outst, .strata, .geo, .copies, .deliveries, .sup, .plans, .boot, .clusters, .waits,
    .barriers, .progs, .scheduled, .tableLoads, .mprogLoads, .runs, .ports, .chans, .frames, .stores, .pieces,
    .loaded, .lock, .logReads, .panel, .telem, .remaps, .jtag]
  | .supplyGateOpen .. =>
    [.out, .fns, .sup, .waits, .faults, .nv, .panel, .telem]
  | .supplyGatePauseTimeout .. =>
    [.out, .tick, .free, .fns, .outst, .waits, .nv, .panel]
  | .holdupFault .. =>
    [.out, .fns, .sup, .waits, .faults, .telem]
  | .supplyStatusRefresh .. =>
    [.sup]
  | .modResetN .. | .testEn .. =>
    [.out, .free, .fns, .outst, .geo, .copies, .deliveries, .boot, .clusters, .waits, .barriers, .progs,
    .scheduled, .tableLoads, .mprogLoads, .runs, .ports, .chans, .frames, .stores, .pieces, .loaded, .lock,
    .faults, .logReads, .nv, .panel, .telem, .remaps]
  | .moduleReset .. =>
    [.free, .fns, .outst, .strata, .geo, .ext, .copies, .deliveries, .sup, .plans, .boot, .units, .mapping,
    .toReplace, .scratch, .clusters, .waits, .barriers, .progs, .scheduled, .tables, .mprogs, .tableLoads,
    .mprogLoads, .runs, .ports, .lanes, .chans, .frames, .stores, .pieces, .loaded, .repro, .lock, .faults,
    .logReads, .nv, .panel, .thermal, .telem, .slots, .remaps]
  | .imageBootTimeout .. =>
    [.boot, .faults, .telem]
  | .supervisorBootEnd .. =>
    [.out, .fns, .outst, .copies, .deliveries, .sup, .boot, .waits, .barriers, .progs, .scheduled, .tableLoads,
    .mprogLoads, .runs, .ports, .chans, .frames, .stores, .pieces, .loaded, .lock, .faults, .logReads, .nv,
    .panel, .telem, .remaps]
  | .clockStartEnd .. =>
    [.out, .fns, .sup, .plans, .boot, .waits, .repro, .slots]
  | .geodeTestEnd .. =>
    [.out, .fns, .geo, .boot, .units, .waits, .faults, .telem]
  | .clusterRoundEnd .. =>
    [.out, .fns, .boot, .units, .waits, .faults, .telem]
  | .lpddrTrainingEnd .. =>
    [.out, .fns, .ext, .boot, .units, .waits, .faults, .telem]
  | .mapping .. =>
    [.out, .fns, .sup, .plans, .boot, .mapping, .lastPhys, .scratch, .clusters, .waits, .repro, .faults, .nv,
    .telem, .slots]
  | .pllOutOfLock .. =>
    [.out, .free, .fns, .outst, .geo, .ext, .copies, .deliveries, .boot, .units, .toReplace, .scratch,
    .clusters, .waits, .progs, .runs, .ports, .lanes, .chans, .frames, .stores, .pieces, .loaded, .lock,
    .faults, .telem, .slots, .remaps]
  | .pllRelocked .. =>
    [.out, .fns, .geo, .boot, .units, .scratch, .clusters, .waits, .ports, .chans, .telem, .slots]
  | .pllRelockTimeout .. =>
    [.out, .free, .fns, .outst, .strata, .geo, .ext, .copies, .deliveries, .boot, .units, .toReplace, .scratch,
    .clusters, .waits, .progs, .runs, .ports, .lanes, .chans, .frames, .stores, .pieces, .loaded, .lock,
    .faults, .nv, .telem, .slots, .remaps]
  | .poicaReferenceLost .. =>
    [.out, .fns, .outst, .geo, .deliveries, .boot, .units, .waits, .runs, .ports, .lanes, .chans, .frames,
    .loaded, .lock, .faults, .telem, .slots]
  | .aonCrystalLost .. | .watchdogTimeout .. | .supervisorMemoryError .. | .alwaysOnParity ..
  | .firmwareIntegrityFailed .. =>
    [.out, .fns, .outst, .copies, .deliveries, .boot, .waits, .barriers, .progs, .scheduled, .tableLoads,
    .mprogLoads, .runs, .ports, .chans, .frames, .stores, .pieces, .loaded, .lock, .logReads, .remaps]
  | .spareReplacement .. =>
    [.out, .fns, .outst, .geo, .deliveries, .mapping, .lastPhys, .toReplace, .scratch, .clusters, .waits,
    .progs, .runs, .ports, .chans, .frames, .loaded, .repro, .lock, .faults, .nv, .telem]
  | .restoration .. =>
    [.out, .fns, .outst, .geo, .deliveries, .mapping, .lastPhys, .scratch, .clusters, .waits, .progs, .runs,
    .ports, .chans, .frames, .loaded, .repro, .lock, .faults, .nv, .telem]
  | .sensorSample .. =>
    [.out, .fns, .outst, .copies, .deliveries, .sup, .plans, .boot, .waits, .barriers, .progs, .scheduled,
    .tableLoads, .mprogLoads, .runs, .ports, .chans, .frames, .stores, .pieces, .loaded, .repro, .lock,
    .faults, .logReads, .thermal, .telem, .slots, .remaps]
  | .cardSensorSample .. =>
    [.out, .fns, .waits, .faults, .thermal, .telem]
  | .stepTimer .. | .releaseTimer .. =>
    [.out, .tick, .fns, .sup, .plans, .waits, .repro, .thermal, .slots]
  | .smbusProduct .. | .smbusOrder .. | .smbusSerial .. | .smbusFwVersion .. | .smbusSupplyStatus ..
  | .smbusVinMain .. | .smbusVinAux .. | .smbusPowerState .. | .smbusTJ .. | .smbusCardTemperature ..
  | .smbusState .. | .smbusNack .. | .timeTransmit .. =>
    [.out]
  | .bypass .. | .idcode .. | .samplePreload .. | .extest .. =>
    [.out, .jtag]
  | .privateDebug .. =>
    [.out, .fns, .waits, .jtag]
  | .blockLockAcquired .. =>
    [.out, .fns, .waits, .ports, .lanes]
  | .blockLockLost .. | .laneFailure .. | .laneMark .. | .negAccept .. | .widthChangeReq .. | .widthChangeAck ..
  | .widthChangeNak .. | .widthChangeSwitch .. | .credit .. | .creditWithdraw .. | .ack .. | .nak ..
  | .settingNotice .. | .syncTime .. =>
    [.out, .fns, .outst, .geo, .deliveries, .units, .waits, .runs, .ports, .lanes, .chans, .frames, .loaded,
    .lock, .faults, .telem, .slots]
  | .ts .. | .negRecord .. | .negRefuse .. | .frameMark .. =>
    [.out, .fns, .outst, .geo, .deliveries, .units, .clusters, .waits, .progs, .runs, .ports, .lanes, .chans,
    .frames, .loaded, .lock, .faults, .telem, .slots]
  | .presetMeasureTimer .. =>
    [.out, .fns, .units, .waits, .ports, .lanes, .faults, .telem]
  | .detectTimeout .. | .equalizeTimeout .. | .alignTimeout .. | .negotiateTimeout .. | .retrainTimeout .. =>
    [.out, .tick, .fns, .outst, .geo, .deliveries, .units, .clusters, .waits, .progs, .runs, .ports, .lanes,
    .chans, .frames, .loaded, .lock, .faults, .telem, .slots]
  | .laneMarkTransmit .. | .creditRefresh .. =>
    [.out, .ports]
  | .widthChangeReqTimeout .. | .widthChangeTimeout .. =>
    [.out, .tick, .fns, .outst, .geo, .deliveries, .units, .waits, .runs, .ports, .lanes, .chans, .frames,
    .loaded, .lock, .faults, .telem, .slots]
  | .idle .. | .cageOvercurrent .. =>
    [.ports]
  | .samples .. | .tensor .. | .digestFrame .. | .logReq .. | .unpairFrame .. =>
    [.out, .fns, .outst, .geo, .deliveries, .waits, .runs, .ports, .chans, .frames, .loaded, .lock, .telem]
  | .logFrame .. =>
    [.out, .fns, .geo, .waits, .ports, .chans, .frames, .lock, .telem]
  | .pairFrame .. =>
    [.out, .fns, .outst, .geo, .waits, .ports, .chans, .frames, .lock, .telem]
  | .replayTimeout .. =>
    [.out, .tick, .fns, .waits, .ports]
  | .forcedSwitch .. =>
    [.out, .tick, .fns, .outst, .geo, .deliveries, .waits, .runs, .ports, .chans, .frames, .loaded, .lock,
    .telem]
  | .poolStarved .. =>
    [.out, .tick, .fns, .waits, .chans]
  | .echo .. =>
    [.out, .tick, .withhold, .fns, .outst, .geo, .deliveries, .units, .waits, .runs, .ports, .lanes, .chans,
    .frames, .loaded, .lock, .faults, .telem, .slots]
  | .cageRetry .. =>
    [.tick, .ports]
  | .pieceStart .. =>
    [.frames, .pieces, .loaded]
  | .pieceEnd .. =>
    [.out, .fns, .outst, .geo, .ext, .deliveries, .scratch, .clusters, .waits, .progs, .runs, .ports, .chans,
    .frames, .pieces, .loaded, .lock, .telem]
  | .dispatch .. =>
    [.out, .fns, .outst, .geo, .deliveries, .clusters, .waits, .progs, .runs, .ports, .chans, .frames, .loaded,
    .repro, .lock, .telem]
  | .microStep .. | .barrierRelease .. | .nop .. | .microOpComplete .. =>
    [.out, .fns, .outst, .geo, .deliveries, .clusters, .waits, .progs, .runs, .ports, .chans, .frames, .loaded,
    .lock, .faults, .telem]
  | .drain .. =>
    [.out, .free, .fns, .outst, .geo, .deliveries, .scratch, .clusters, .waits, .progs, .runs, .ports, .chans,
    .frames, .loaded, .lock, .faults, .telem]
  | .reductionTransfer .. =>
    [.free, .scratch, .runs, .frames]
  | .qsave .. | .hsend .. | .hrecv .. =>
    [.out, .fns, .outst, .geo, .deliveries, .scratch, .clusters, .waits, .progs, .runs, .ports, .chans,
    .frames, .loaded, .lock, .faults, .telem]
  | .qload .. | .qclear .. =>
    [.clusters, .runs]
  | .put .. =>
    [.out, .free, .fns, .outst, .geo, .ext, .deliveries, .scratch, .clusters, .waits, .progs, .runs, .ports,
    .chans, .frames, .loaded, .lock, .faults, .telem]
  | .micaExp .. | .micaExp2 .. | .micaLog2 .. | .micaRecip .. | .micaRsqrt .. | .micaTanh .. | .micaSigmoid ..
  | .micaErf .. | .micaGeluErf .. | .micaGeluTanh .. | .micaGeluSig .. | .micaSilu .. | .smaxAcc .. | .smaxNorm ..
  | .rowscale .. | .micaTable .. | .mul .. | .add .. | .fmq .. | .lut .. | .csel .. | .rred .. | .rscale .. =>
    [.scratch, .runs]
  | .smax1p .. =>
    [.scratch, .runs, .telem]
  | .micaMprog .. | .microBarrier .. | .microEnd .. =>
    [.runs]
  | .scoreboardStall .. | .queueWaitTimeout .. =>
    [.out, .tick, .fns, .outst, .geo, .deliveries, .clusters, .waits, .progs, .runs, .ports, .chans, .frames,
    .loaded, .lock, .faults, .telem]
  | .channelFrameEnd .. =>
    [.out, .fns, .outst, .geo, .deliveries, .scratch, .clusters, .waits, .progs, .runs, .ports, .chans,
    .frames, .loaded, .repro, .lock, .telem]
  | .resultAnnounceTimeout .. =>
    [.out, .tick, .fns, .progs]
  | .sendStart .. =>
    [.out, .fns, .outst, .geo, .deliveries, .scratch, .clusters, .waits, .progs, .runs, .ports, .chans,
    .frames, .loaded, .lock, .telem]
  | .wideCopyTimeout .. =>
    [.out, .tick, .fns, .geo, .waits, .chans, .telem]
  | .tracking .. =>
    [.out, .tick, .free, .fns, .outst, .strata, .geo, .ext, .copies, .deliveries, .units, .toReplace, .scratch,
    .clusters, .waits, .progs, .runs, .ports, .lanes, .chans, .frames, .stores, .pieces, .loaded, .lock,
    .faults, .nv, .telem, .slots, .remaps]
  | .fixedRefresh .. =>
    [.tick]
  | .adaptiveRefresh .. =>
    []
  | .extReinitComplete .. =>
    [.ext, .slots]
  | .roundStart .. =>
    [.out, .tick, .fns, .strata, .geo, .ext, .waits, .barriers, .ports, .chans, .telem, .slots]
  | .slotBoundary .. =>
    [.out, .tick, .fns, .geo, .waits, .ports, .chans, .telem]
  | .identityChangeTimer .. =>
    [.out, .tick, .free, .fns, .waits, .nv, .panel]
  | .panelRefreshStart .. =>
    [.out, .free, .fns, .waits, .nv, .panel]
  | .flashReadComplete .. =>
    [.out, .free, .fns, .outst, .waits, .nv]

end Sys2Proof.Machine
end

