-- ==== Sys2Proof/Certificates/Slice0/Obligations.lean ====
section
/-!
DEFINITION. The statements for the provers.
-/

section

open Sys2Proof Sys2Proof.Machine

/-! ### Host commands -/

/-- R313 to R316, R363 to R365: DEV_IDENTIFY, DEV_STATUS and POOL_QUERY are answered with ST_OK and their results, write
their block to a nonzero BUF_ADDR, and change nothing but the host interface. The model's choices it rests on: log
entries 4, 129. -/
def Obligations.DeviceQueriesAnswer : Prop :=
  (∀ (fn : FnNo) (qp : QpNo) (p : Packet) (s : State),
    Accepts specDevIdentify false fn qp p (fun _ => badBuf p 8) (fun _ => none) s →
    ∃ t, exec (.devIdentify fn qp p) s = .next t ∧
      Replied s t fn qp 0x01 p stOk 0 (blockRes s.identityBlock).r0 (blockRes s.identityBlock).r1 ∧
      (p.u64 8 ≠ 0 → Wrote s t fn (p.u64 8) s.identityBlock) ∧ ChangesOnly [.fns, .out] s t) ∧
  (∀ (fn : FnNo) (qp : QpNo) (p : Packet) (s : State),
    Accepts specDevStatus false fn qp p (fun _ => badBuf p 8) (fun _ => none) s →
    ∃ t, exec (.devStatus fn qp p) s = .next t ∧
      Replied s t fn qp 0x02 p stOk 0 (blockRes ((s.taken fn qp).statusBlock fn)).r0
        (blockRes ((s.taken fn qp).statusBlock fn)).r1 ∧
      (p.u64 8 ≠ 0 → Wrote s t fn (p.u64 8) ((s.taken fn qp).statusBlock fn)) ∧
      ChangesOnly [.fns, .out] s t) ∧
  (∀ (fn : FnNo) (qp : QpNo) (p : Packet) (s : State),
    Accepts specPoolQuery false fn qp p (chkPoolQuery fn p) (fun _ => none) s →
    ∃ t, exec (.poolQuery fn qp p) s = .next t ∧
      Replied s t fn qp 0x24 p stOk 0 (poolFigures p (s.taken fn qp)).r0 (poolFigures p (s.taken fn qp)).r1 ∧
      ChangesOnly [.fns, .out] s t)

/-- R337 to R340, R382, R383, R396, R426, R450, R454: the queries of a stratum, a port, a channel, the narrow transport,
the panel and the pair are answered with their results (LOCKSTEP_STATUS with ST_DIVERGENCE once a divergence is
recorded) and change nothing but the host interface. -/
def Obligations.ObjectQueriesAnswer : Prop :=
  (∀ (fn : FnNo) (qp : QpNo) (p : Packet) (s : State),
    Accepts specStratumQuery false fn qp p (chkStratumQuery fn p) (fun _ => none) s →
    ∃ t, exec (.stratumQuery fn qp p) s = .next t ∧
      Replied s t fn qp 0x12 p stOk 0
        (BitVec.ofNat 64 (fieldNat ((s.taken fn qp).stratumRecord (toFn (p.u8 8))) 0 8))
        (BitVec.ofNat 64 (fieldNat ((s.taken fn qp).stratumRecord (toFn (p.u8 8))) 32 8)) ∧
      (p.u64 16 ≠ 0 → Wrote s t fn (p.u64 16) ((s.taken fn qp).stratumRecord (toFn (p.u8 8)))) ∧
      ChangesOnly [.fns, .out] s t) ∧
  (∀ (fn : FnNo) (qp : QpNo) (p : Packet) (s : State),
    Accepts specPortStatus false fn qp p (chkPortStatus fn p) (fun _ => none) s →
    ∃ t, exec (.portStatus fn qp p) s = .next t ∧
      Replied s t fn qp 0x41 p stOk 0
        (BitVec.ofNat 64 (fieldNat ((s.taken fn qp).portBlock (Packet.port p)) 0 8)) 0 ∧
      (p.u64 16 ≠ 0 → Wrote s t fn (p.u64 16) ((s.taken fn qp).portBlock (Packet.port p))) ∧
      ChangesOnly [.fns, .out] s t) ∧
  (∀ (fn : FnNo) (qp : QpNo) (p : Packet) (s : State) (x : Chan),
    Accepts specChanQuery false fn qp p (chkChanQuery fn p) (fun _ => none) s →
    s.chan (Packet.chanNo p) = some x →
    ∃ t, exec (.chanQuery fn qp p) s = .next t ∧
      Replied s t fn qp 0x46 p stOk 0 (BitVec.ofNat 64 (fieldNat ((s.taken fn qp).chanBlock x) 0 8))
        (BitVec.ofNat 64 (fieldNat ((s.taken fn qp).chanBlock x) 8 8)) ∧
      (p.u64 16 ≠ 0 → Wrote s t fn (p.u64 16) ((s.taken fn qp).chanBlock x)) ∧
      ChangesOnly [.fns, .out] s t) ∧
  (∀ (fn : FnNo) (qp : QpNo) (p : Packet) (s : State) (x : Chan),
    Accepts specQlinkStats false fn qp p (chkQlinkStats fn p) (fun _ => none) s →
    s.chan (Packet.chanNo p) = some x →
    ∃ t, exec (.qlinkStats fn qp p) s = .next t ∧
      Replied s t fn qp 0x81 p stOk 0 (if x.q.send then x.q.sent else x.q.narrow)
        (if x.q.send then x.q.wideSent.setWidth 64 ||| (x.q.sentShare.setWidth 64 <<< 32)
        else x.q.wideCount.setWidth 64 ||| (x.q.share.setWidth 64 <<< 32)) ∧
      ChangesOnly [.fns, .out] s t) ∧
  (∀ (fn : FnNo) (qp : QpNo) (p : Packet) (s : State),
    Accepts specPanelStatus false fn qp p (fun _ => none) (fun _ => none) s →
    ∃ t, exec (.panelStatus fn qp p) s = .next t ∧
      Replied s t fn qp 0xC1 p stOk 0
        ((s.taken fn qp).panelStatus.setWidth 64 ||| (s.strata[fn].panelGrant.setWidth 64 <<< 32)) 0 ∧
      ChangesOnly [.fns, .out] s t) ∧
  (∀ (fn : FnNo) (qp : QpNo) (p : Packet) (s : State),
    Accepts specLockstepStatus false fn qp p (chkLockstepStatus fn p) (fun _ => none) s →
    ∃ t, exec (.lockstepStatus fn qp p) s = .next t ∧
      Replied s t fn qp 0xD1 p
        (if (s.pairReport (toFn (p.u8 8))).first.isSome then stDivergence else stOk) 0
        (s.pairReport (toFn (p.u8 8))).comparedTiles 0 ∧
      (p.u64 16 ≠ 0 → Wrote s t fn (p.u64 16) ((s.pairReport (toFn (p.u8 8))).block
        (!(fn.val == 0 && s.strata[toFn (p.u8 8)].sealed)))) ∧
      ChangesOnly [.fns, .out] s t)

/-- R349, R355, R357, R362, R404, R399, R906, R425: MEM_ALLOC, MEM_FREE, MEM_MAP_EXTERNAL, SLATE_SCHEDULE,
SLATE_CONTEXT_LOAD, SLATE_PARAM_SET and QLINK_CONFIG make exactly the change which their rule gives, and are answered
with ST_OK. -/
def Obligations.MemoryAndChannelSettings : Prop :=
  (∀ (fn : FnNo) (qp : QpNo) (p : Packet) (s : State) (base : Nat),
    Accepts specMemAlloc false fn qp p (fun _ => chkMemAlloc p) (resMemAlloc fn p) s →
    (s.taken fn qp).allocBase fn (Packet.memExt p) (Packet.memParts p) = some base →
    ∃ t, exec (.memAlloc fn qp p) s = .next t ∧ Replied s t fn qp 0x20 p stOk 0 (BitVec.ofNat 64 base) (p.u64 16) ∧
      t.strata = ((s.taken fn qp).allocate fn (Packet.memExt p) base (Packet.memParts p)).strata ∧
      t.geo = ((s.taken fn qp).allocate fn (Packet.memExt p) base (Packet.memParts p)).geo ∧
      ChangesOnly [.fns, .out, .strata, .geo, .free] s t) ∧
  (∀ (fn : FnNo) (qp : QpNo) (p : Packet) (s : State) (a : Alloc),
    Accepts specMemFree false fn qp p (chkMemFree fn p) (fun _ => none) s →
    (s.taken fn qp).namedAlloc fn p = some a →
    ∃ t, exec (.memFree fn qp p) s = .next t ∧ Replied s t fn qp 0x21 p stOk 0 0 0 ∧
      t.strata = ((s.taken fn qp).release fn (Packet.memExt p) a).strata ∧
      t.geo = ((s.taken fn qp).release fn (Packet.memExt p) a).geo ∧
      ChangesOnly [.fns, .out, .strata, .geo, .ext] s t) ∧
  (∀ (fn : FnNo) (qp : QpNo) (p : Packet) (s : State),
    Accepts specMemMapExternal false fn qp p (fun _ => chkMapExternal p) (fun _ => none) s →
    ∃ t, exec (.memMapExternal fn qp p) s = .next t ∧
      Replied s t fn qp 0x22 p stOk 0 (BitVec.ofNat 64 s.strata[fn].aperture) 0 ∧
      t.strata[fn] = { s.strata[fn] with aperture := (p.u64 8).toNat } ∧
      (∀ n : FnNo, n ≠ fn → t.strata[n] = s.strata[n]) ∧ ChangesOnly [.fns, .out, .strata] s t) ∧
  (∀ (fn : FnNo) (qp : QpNo) (p : Packet) (s : State),
    Accepts specSlateSchedule false fn qp p (chkSlateSchedule fn p) (fun _ => none) s →
    ∃ t, exec (.slateSchedule fn qp p) s = .next t ∧ Replied s t fn qp 0x53 p stOk 0 0 0 ∧
      t.chans = (s.modChan (Packet.chanNo p) fun x => { x with slate := { x.slate with
        stripeNext := (p.u16 12).toNat } }).chans ∧ ChangesOnly [.fns, .out, .chans] s t) ∧
  (∀ (fn : FnNo) (qp : QpNo) (p : Packet) (host : HostData) (s : State),
    Accepts specSlateContextLoad false fn qp p (chkSlateContextLoad fn p host) (fun _ => none) s →
    ∃ t, exec (.slateContextLoad fn qp p host) s = .next t ∧ Replied s t fn qp 0x50 p stOk 0 0 0 ∧
      t.chans = (s.modChan (Packet.chanNo p) fun x => { x with slate := { x.slate with
        image := hostBytes host 256, inForce := none, gen := x.slate.gen + 1 } }).chans ∧
      ChangesOnly [.fns, .out, .chans] s t) ∧
  (∀ (fn : FnNo) (qp : QpNo) (p : Packet) (host : HostData) (s : State),
    Accepts specSlateParamSet false fn qp p (chkSlateParamSet fn p host) (fun _ => none) s →
    ∃ t, exec (.slateParamSet fn qp p host) s = .next t ∧ Replied s t fn qp 0x51 p stOk 0 0 0 ∧
      t.chans = (s.modChan (Packet.chanNo p) fun x => { x with slate := { x.slate with
        sets := vmod x.slate.sets (Fin.ofNat 16 (p.u8 10).toNat) fun _ => hostBytes host 2880 } }).chans ∧
      ChangesOnly [.fns, .out, .chans] s t) ∧
  (∀ (fn : FnNo) (qp : QpNo) (p : Packet) (s : State),
    Accepts specQlinkConfig false fn qp p (chkQlinkConfig fn p) (fun _ => none) s →
    ∃ t, exec (.qlinkConfig fn qp p) s = .next t ∧ Replied s t fn qp 0x80 p stOk 0 0 0 ∧
      t.chans = (s.modChan (Packet.chanNo p) fun x => { x with q := { x.q with
        send := p.u8 10 == 0, k := (p.u8 11).toNat, outliers := (p.u8 12).toNat, outlierList := Packet.outlierList p
        clipThreshold := (p.u32 16).toNat, history := if p.u8 10 == 0 then [] else x.q.history
        msgSeq := if p.u8 10 == 0 then 0 else x.q.msgSeq } }).chans ∧ ChangesOnly [.fns, .out, .chans] s t)

/-- R317 to R320, R326 to R331, R344 to R346, R358 to R362, R387 to R390, R400 to R403, R413, R422, R427, R434: the other
short commands answer with ST_OK and the results of their effect, after that effect: in each clause `u` is the state after
the effect, which is answered, and the clause gives what the rule says of it. The model's choices it rests on: log
entries 4, 30, 89, 97. -/
def Obligations.ShortCommandsComplete : Prop :=
  (∀ (fn : FnNo) (qp : QpNo) (p : Packet) (s : State),
    Accepts specDevSetPowerCap false fn qp p
      (fun _ => badField (decide (p.u16 8 < 50) || decide (175 < p.u16 8)) 8) (fun _ => none) s →
    ∃ t u, exec (.devSetPowerCap fn qp p) s = .next t ∧
      t = shortDone specDevSetPowerCap fn qp p (u, { r0 := BitVec.ofNat 64 (u.effectiveCap + 2 ^ 16 *
        (if s.plans.installing.isSome then u.planCalled else u.plans.inForce).toNat) }) ∧
      u.plans.hostCap = (p.u16 8).toNat ∧ u.plans.selected = s.plans.selected ∧
      (s.plans.installing = none → u.plans.installing = none ∧ (s.planner = true → u.plans.inForce = u.planCalled)) ∧
      (∀ i, s.plans.installing = some i → u.plans.installing = some i ∧ u.plans.inForce = s.plans.inForce) ∧
      u.strata = s.strata ∧ u.units = s.units ∧ u.nv = s.nv) ∧
  (∀ (fn : FnNo) (qp : QpNo) (p : Packet) (s : State),
    Accepts specStratumCreate false fn qp p (chkStratumCreate p) (resStratumCreate p) s →
    ∃ t u, exec (.stratumCreate fn qp p) s = .next t ∧ t = shortDone specStratumCreate fn qp p (u, {}) ∧
      u.strata[toFn (p.u8 8)] = { Stratum.none with
        live := true, sealed := (p.u8 9).getLsbD 0, repro := (p.u8 9).getLsbD 1, isolated := (p.u8 9).getLsbD 2
        retry := (p.u8 9).getLsbD 3, compat := (p.u8 9).getLsbD 4, share := (p.u8 10).toNat, panelGrant := p.u8 11
        chanQuota := (p.u16 12).toNat, clusters := p.u64 16, arenaQuota := (p.u32 24).toNat
        extQuota := (p.u32 28).toNat, reserve := (p.u32 32).toNat, ceiling := (p.u32 36).toNat
        created := s.tick, key := some s.free, aperture := extViewBase } ∧
      (∀ n : FnNo, n ≠ toFn (p.u8 8) → u.strata[n] = s.strata[n]) ∧
      (∀ c ∈ s.physOf (p.u64 16), u.scratch[c] = []) ∧
      (∀ c, c ∉ s.physOf (p.u64 16) → u.scratch[c] = s.scratch[c]) ∧
      u.plans = s.plans ∧ u.units = s.units ∧ u.ext = s.ext ∧ u.nv = s.nv) ∧
  (∀ (fn : FnNo) (qp : QpNo) (p : Packet) (s : State),
    Accepts specStratumSetMode false fn qp p
      (fun _ => badField (p.u8 8 &&& (if fn.val = 0 then 0xE7 else 0xE5) != 0) 8) (fun _ => none) s →
    ∃ t u, exec (.stratumSetMode fn qp p) s = .next t ∧
      t = shortDone specStratumSetMode fn qp p (u, { r0 := BitVec.ofNat 64 s.strata[fn].attr }) ∧
      u.strata[fn] = { s.strata[fn] with
        repro := (p.u8 8).getLsbD 1, retry := (p.u8 8).getLsbD 3, compat := (p.u8 8).getLsbD 4 } ∧
      (∀ n : FnNo, n ≠ fn → u.strata[n] = s.strata[n]) ∧
      ((p.u8 8).getLsbD 1 = true → ChangesOnly [.strata, .panel, .waits, .fns, .out, .repro] s u) ∧
      ((p.u8 8).getLsbD 1 = false → (u.repro[fn]).current = none ∧ (u.repro[fn]).due = false)) ∧
  (∀ (fn : FnNo) (qp : QpNo) (p : Packet) (s : State), p.u8 8 ≠ 2 →
    Accepts specPoolConfig false fn qp p (chkSetSize p) (resSetSize p) s →
    ∃ t u, exec (.setSize fn qp p) s = .next t ∧ t = shortDone specPoolConfig fn qp p (u, {}) ∧ u.geo.bufs = [] ∧
      u.strata = s.strata ∧ ChangesOnly [.waits, .fns, .chans, .geo, .out, .telem] s u) ∧
  (∀ (fn : FnNo) (qp : QpNo) (p : Packet) (s : State), p.u8 8 = 2 →
    Accepts specPoolConfig false fn qp p (chkSetStratum p) (resSetStratum p) s →
    ∃ t u, exec (.setStratum fn qp p) s = .next t ∧ t = shortDone specPoolConfig fn qp p (u, {}) ∧
      u.strata[toFn (p.u8 9)] = { s.strata[toFn (p.u8 9)] with
        reserve := (p.u32 16).toNat, ceiling := (p.u32 20).toNat } ∧
      (∀ n : FnNo, n ≠ toFn (p.u8 9) → u.strata[n] = s.strata[n]) ∧ u.geo.mem = s.geo.mem ∧
      ChangesOnly [.strata, .waits, .fns, .chans, .geo, .out, .telem] s u) ∧
  (∀ (fn : FnNo) (qp : QpNo) (p : Packet) (s : State),
    Accepts specChanBind false fn qp p (chkChanBind p) (resChanBind p) s →
    ∃ t u x, exec (.chanBind fn qp p) s = .next t ∧
      t = shortDone specChanBind fn qp p (u, { r0 := BitVec.ofNat 64 (u.allotment (Packet.chanNo p)) }) ∧
      x ∈ u.chans ∧ x.num = Packet.chanNo p ∧ x.port.val = (p.u8 10).toNat % 8 ∧ x.stratum = toFn (p.u8 11) ∧
      x.partnerCh = (p.u16 12).toNat ∧ x.kind1 = (p.u8 14 == 1) ∧ x.floor = (p.u16 16).toNat ∧
      x.cap = (p.u16 18).toNat ∧ x.period = (p.u32 20).toNat ∧ x.marks = 0 ∧
      x.route = { slate := 0xFE, prog := 0, input := 0 } ∧
      ChangesOnly [.waits, .fns, .chans, .ports, .geo, .out, .telem] s u) ∧
  (∀ (fn : FnNo) (qp : QpNo) (p : Packet) (s : State),
    Accepts specSlateOutputCfg false fn qp p (chkSlateOutputCfg fn p) (fun _ => none) s →
    ∃ t u, exec (.slateOutputCfg fn qp p) s = .next t ∧ t = shortDone specSlateOutputCfg fn qp p (u, {}) ∧
      u.chans = (s.modChan (Packet.chanNo p) fun x => { x with slate := { x.slate with
        out := Packet.slateOut p, codedPos := 0 } }).chans ∧
      ((Packet.slateOut p).mask.getLsbD 0 = false → ChangesOnly [.fns, .chans] s u) ∧
      ChangesOnly [.fns, .chans, .ext, .geo, .scratch] s u) ∧
  (∀ (fn : FnNo) (qp : QpNo) (p : Packet) (s : State),
    Accepts specLaunch false fn qp p
      (fun t => (chkLaunchFields fn p 0x8E t).or (chkLaunchState fn p t)) (fun _ => none) s →
    ∃ t, exec (.launch fn qp p) s = .next t ∧ Replied s t fn qp 0x70 p stOk 0 0 0 ∧ t.nextLaunch = s.nextLaunch + 1 ∧
      t.progs = (s.modProg fn (p.u8 8).toNat fun x => { x with
        launch := some (launchTerms p s.nextLaunch s.tick), ring := ResultRing.empty }).progs ∧
      ChangesOnly [.fns, .out, .progs, .nextLaunch] s t) ∧
  (∀ (fn : FnNo) (qp : QpNo) (p : Packet) (s : State),
    Accepts specFrameAbort false fn qp p (chkFrameAbort fn p) (fun _ => none) s →
    ∃ t l, exec (.frameAbort fn qp p) s = .next t ∧
      (l = ((s.taken fn qp).unresolvedOf fn).filter fun f => p.u16 8 == 0xFFFF || f.chan == Packet.chanNo p) ∧
      t = (shortDone specFrameAbort fn qp p ((s.taken fn qp).abortAll l, { r0 := BitVec.ofNat 64 l.length })).drainArea) ∧
  (∀ (fn : FnNo) (qp : QpNo) (p : Packet) (s : State) (u : Unit_),
    Accepts specUnitReturn false fn qp p (chkUnitReturn p) (fun _ => none) s → unitOf (p.u16 8) = some u →
    ∃ t v, exec (.unitReturn fn qp p) s = .next t ∧ t = shortDone specUnitReturn fn qp p (v, {}) ∧
      (v.unitSt u).fenced = false ∧ (v.unitSt u).retired = false ∧ v.faults.next = s.faults.next + 1 ∧
      v.strata = s.strata ∧ v.mapping = s.mapping) ∧
  (∀ (fn : FnNo) (qp : QpNo) (p : Packet) (s : State),
    Accepts specTelemetryRead false fn qp p
      (fun t => (badField (!groupOk (p.u8 8)) 8).or <| (badBuf p 16).or <| groupDenied t fn (p.u8 8) 8)
      (fun _ => none) s →
    ∃ t, exec (.telemetryRead fn qp p) s = .next t ∧ Replied s t fn qp 0x90 p stOk 0 0 0 ∧
      (p.u64 16 ≠ 0 → Wrote s t fn (p.u64 16) ((s.taken fn qp).foldAll.telemetryBlock fn (p.u8 8))) ∧
      ChangesOnly [.fns, .out, .chans, .telem] s t) ∧
  (∀ (fn : FnNo) (qp : QpNo) (p : Packet) (s : State),
    Accepts specCounterConfig false fn qp p
      (fun t => (badField (p.u8 8 != 1) 8).or <| (badField (!groupOk (p.u8 9)) 9).or <|
        (badField (!channelOk (p.u8 9) (p.u16 10)) 10).or <|
        (groupDenied t fn (p.u8 9) 9).or <| namedChannel t fn (p.u16 10)) (fun _ => none) s →
    ∃ t, exec (.counterConfigClear fn qp p) s = .next t ∧ Replied s t fn qp 0x91 p stOk 0 0 0 ∧
      t.telem = ((s.taken fn qp).foldAll.clearGroup fn (p.u8 9) (p.u16 10)).telem ∧
      (p.u8 9 = 2 → t.telem = { Telem.zero with strata := ((s.taken fn qp).foldAll).telem.strata }) ∧
      ChangesOnly [.fns, .out, .chans, .telem, .thermal] s t)

/-- R341 to R343: STRATUM_SET_ARBITRATION prepares the slots of the next round and keeps the stratum's terms, which take
effect as that round starts: till then the stratum's mode and share stay, and the reply waits. The model's choices it
rests on: log entry 31. -/
def Obligations.SetArbitrationWaitsForRound : Prop :=
  ∀ (fn : FnNo) (qp : QpNo) (p : Packet) (s : State),
    Accepts specStratumSetArbitration false fn qp p (chkSetArbitration p) (resSetArbitration p) s →
    ∃ t, exec (.stratumSetArbitration fn qp p) s = .next t ∧ t.strata = s.strata ∧
      t.slots.terms = s.slots.terms ++ [(toFn (p.u8 8), p.u8 9 == 1, (p.u8 10).toNat)] ∧
      t.slots.table = s.slots.table ∧ toFn (p.u8 8) ∈ t.slots.notices ∧
      t.fns[fn].qps[qp].awaiting = some ⟨0x13, p⟩ ∧ t.out = s.out ∧ ChangesOnly [.fns, .slots, .panel] s t

/-! ### The host's registers and apertures -/

/-- R206, R240, R242: a write of HIF_INT_CAUSE clears the bits written 1 and nothing else; a write of HIF_INT_MASK sets
the mask, leaves the causes and sends the messages of the causes which it unmasks; a read of HIF_TICK_LO answers the
low half of the tick and captures the high half. -/
def Obligations.InterruptAndTickRegisters : Prop :=
  (∀ (fn : FnNo) (v : W32) (s : State), s.barOpen fn = true →
    exec (.hifIntCause fn v) s =
      .next (s.modFn fn fun f => { f with intCause := f.intCause &&& ~~~(v.extractLsb' 0 12) })) ∧
  (∀ (fn : FnNo) (v : W32) (s : State), s.barOpen fn = true →
    ∃ t, exec (.hifIntMask fn v) s = .next t ∧ t.fns[fn].intMask = v.extractLsb' 0 12 &&& causeValid fn ∧
      t.fns[fn].intCause = s.fns[fn].intCause ∧ ChangesOnly [.fns, .out] s t ∧
      (∀ n : FnNo, n ≠ fn → t.fns[n] = s.fns[n]) ∧
      (∀ b : Fin 12, s.fns[fn].intCause.getLsbD b.val = true → s.fns[fn].intMask.getLsbD b.val = true →
        t.fns[fn].intMask.getLsbD b.val = false → s.fns[fn].busMaster = true → s.fns[fn].functionMask = false →
        (s.fns[fn].msix[causeVector b]'(by unfold causeVector; split <;> (try split) <;> omega)).masked = false →
        ∃ a d, Emit.msix fn (causeVector b) a d ∈ t.out)) ∧
  (∀ (fn : FnNo) (s : State), s.barOpen fn = true →
    ∃ t, exec (.hifTickLo fn) s = .next t ∧ t.out = s.out ++ [.readData fn ((s.tick.extractLsb' 0 32).setWidth 64)] ∧
      t.fns[fn] = { s.fns[fn] with tickCapture := s.tick.extractLsb' 32 32 } ∧
      (∀ n : FnNo, n ≠ fn → t.fns[n] = s.fns[n]) ∧ ChangesOnly [.fns, .out] s t)

/-- R213 to R216, R221, R236, R237: enabling a queue pair or the event queue with legal sizes starts it from the first
entry; with an illegal size it stays off, ERROR is set and QUEUE_ERR raised; disabling a queue pair clears RUNNING
once no command which was read is unanswered. -/
def Obligations.QueueEnables : Prop :=
  (∀ (fn : FnNo) (qp : QpNo) (v : W32) (s : State), s.barOpen fn = true → s.fns[fn].qps[qp].running = false →
    s.fns[fn].qps[qp].enable = false → 4 ≤ (v.extractLsb' 16 4).toNat → (v.extractLsb' 16 4).toNat ≤ 12 →
    4 ≤ (v.extractLsb' 20 4).toNat → (v.extractLsb' 20 4).toNat ≤ 12 →
    ∃ t, exec (.queuePairEnable fn qp v) s = .next t ∧
      t.fns[fn].qps[qp] = { s.fns[fn].qps[qp] with
        sqLog2 := v.extractLsb' 16 4, cqLog2 := v.extractLsb' 20 4, enable := true, running := true, error := false,
        tail := 0, cqHead := 0, readPos := 0, cqPos := 0, cqPhase := true, cqUnreleased := 0, stopping := false,
        reenable := false, held := none, awaiting := none, chain := false, chainFailed := none, prevId := 0,
        passed := [] } ∧
      (∀ n : FnNo, n ≠ fn → t.fns[n] = s.fns[n]) ∧ (∀ m : QpNo, m ≠ qp → t.fns[fn].qps[m] = s.fns[fn].qps[m]) ∧
      ChangesOnly [.fns] s t) ∧
  (∀ (fn : FnNo) (qp : QpNo) (v : W32) (s : State), s.barOpen fn = true → s.fns[fn].qps[qp].running = false →
    s.fns[fn].qps[qp].enable = false → ((v.extractLsb' 16 4).toNat < 4 ∨ 12 < (v.extractLsb' 16 4).toNat ∨
      (v.extractLsb' 20 4).toNat < 4 ∨ 12 < (v.extractLsb' 20 4).toNat) →
    ∃ t, exec (.queuePairEnable fn qp v) s = .next t ∧ t.fns[fn].qps[qp].running = false ∧
      t.fns[fn].qps[qp].enable = false ∧ t.fns[fn].qps[qp].error = true ∧
      t.fns[fn].intCause = s.fns[fn].intCause ||| causeQueueErr ∧ ChangesOnly [.fns, .out] s t) ∧
  (∀ (fn : FnNo) (qp : QpNo) (v : W32) (s : State), s.barOpen fn = true → s.fns[fn].qps[qp].running = true →
    s.fns[fn].qps[qp].enable = true →
    ∃ t, exec (.queuePairDisable fn qp v) s = .next t ∧ t.fns[fn].qps[qp].enable = false ∧
      t.fns[fn].qps[qp].chain = false ∧ t.fns[fn].qps[qp].tail = s.fns[fn].qps[qp].tail ∧
      t.fns[fn].qps[qp].running = (s.fns[fn].qps[qp].held.isSome || s.fns[fn].qps[qp].awaiting.isSome ||
        s.fns[fn].replyWaits qp) ∧
      (∀ o ∈ t.outst, o.fn = fn → o.qp = qp → o.chain = false) ∧ ChangesOnly [.fns, .outst] s t) ∧
  (∀ (fn : FnNo) (v : W32) (s : State), s.barOpen fn = true → s.fns[fn].evq.running = false →
    s.fns[fn].evq.enable = false → s.fns[fn].evq.held = [] → 4 ≤ (v.extractLsb' 4 4).toNat →
    (v.extractLsb' 4 4).toNat ≤ 12 →
    ∃ t, exec (.evqEnable fn v) s = .next t ∧
      t.fns[fn].evq = { s.fns[fn].evq with
        base := (s.fns[fn].evq.base &&& 0xFFFFFFFF00000000#64) ||| ((v ||| 1) &&& 0xFFFFF000).setWidth 64
        log2 := v.extractLsb' 4 4, enable := true, running := true, error := false, head := 0, pos := 0,
        phase := true, unreleased := 0, everRan := true } ∧ ChangesOnly [.fns] s t) ∧
  (∀ (fn : FnNo) (v : W32) (s : State), s.barOpen fn = true → s.fns[fn].evq.running = false →
    s.fns[fn].evq.enable = false → ((v.extractLsb' 4 4).toNat < 4 ∨ 12 < (v.extractLsb' 4 4).toNat) →
    ∃ t, exec (.evqEnable fn v) s = .next t ∧ t.fns[fn].evq.running = false ∧ t.fns[fn].evq.enable = false ∧
      t.fns[fn].evq.error = true ∧ t.fns[fn].intCause = s.fns[fn].intCause ||| causeQueueErr ∧
      ChangesOnly [.fns, .out] s t)

/-- R218, R221, R222, R225, R239: disabling the event queue clears RUNNING at once; a doorbell within the ring records the
new TAIL; completion and event entries are released by their HEAD; a value outside the ring sets ERROR and raises
QUEUE_ERR, and changes no index; a failed ring read stops the queue pair. The model's choices it rests on: log entry
8. -/
def Obligations.DoorbellsAndHeads : Prop :=
  (∀ (fn : FnNo) (v : W32) (s : State), s.barOpen fn = true → s.fns[fn].evq.running = true →
    exec (.evqDisable fn v) s =
      .next (s.modEvq fn fun q => { q with enable := false, running := false })) ∧
  (∀ (fn : FnNo) (qp : QpNo) (v : W32) (s : State), s.barOpen fn = true → s.fns[fn].qps[qp].running = true →
    (v.extractLsb' 0 12).toNat < 2 ^ s.fns[fn].qps[qp].sqLog2.toNat →
    exec (.doorbell fn qp v) s = .next (s.modQp fn qp fun q => { q with tail := v.extractLsb' 0 12 })) ∧
  (∀ (fn : FnNo) (qp : QpNo) (v : W32) (s : State), s.barOpen fn = true →
    (s.fns[fn].qps[qp].running = false ∨ 2 ^ s.fns[fn].qps[qp].sqLog2.toNat ≤ (v.extractLsb' 0 12).toNat) →
    ∃ t, exec (.doorbell fn qp v) s = .next t ∧ t.fns[fn].qps[qp] = { s.fns[fn].qps[qp] with error := true } ∧
      t.fns[fn].intCause = s.fns[fn].intCause ||| causeQueueErr ∧ ChangesOnly [.fns, .out] s t) ∧
  (∀ (fn : FnNo) (qp : QpNo) (v : W32) (s : State), s.barOpen fn = true → s.fns[fn].qps[qp].running = true →
    (v.extractLsb' 0 12).toNat < 2 ^ s.fns[fn].qps[qp].cqLog2.toNat →
    ringSpan (2 ^ s.fns[fn].qps[qp].cqLog2.toNat) s.fns[fn].qps[qp].cqHead.toNat (v.extractLsb' 0 12).toNat ≤
      s.fns[fn].qps[qp].cqUnreleased →
    exec (.hifCqnHead fn qp v) s = .next (s.modQp fn qp fun q => { q with
      cqHead := v.extractLsb' 0 12
      cqUnreleased := q.cqUnreleased - ringSpan (2 ^ q.cqLog2.toNat) q.cqHead.toNat (v.extractLsb' 0 12).toNat })) ∧
  (∀ (fn : FnNo) (v : W32) (s : State), s.barOpen fn = true → s.fns[fn].evq.running = true →
    s.fns[fn].evq.held = [] → (v.extractLsb' 0 12).toNat < 2 ^ s.fns[fn].evq.log2.toNat →
    ringSpan (2 ^ s.fns[fn].evq.log2.toNat) s.fns[fn].evq.head.toNat (v.extractLsb' 0 12).toNat ≤
      s.fns[fn].evq.unreleased →
    ∃ t, exec (.hifEvqHead fn v) s = .next t ∧ t.fns[fn].evq = { s.fns[fn].evq with
      head := v.extractLsb' 0 12
      unreleased := s.fns[fn].evq.unreleased -
        ringSpan (2 ^ s.fns[fn].evq.log2.toNat) s.fns[fn].evq.head.toNat (v.extractLsb' 0 12).toNat } ∧
      ChangesOnly [.fns] s t) ∧
  (∀ (fn : FnNo) (v : W32) (s : State), s.barOpen fn = true →
    (s.fns[fn].evq.running = false ∨ 2 ^ s.fns[fn].evq.log2.toNat ≤ (v.extractLsb' 0 12).toNat) →
    ∃ t, exec (.hifEvqHead fn v) s = .next t ∧ t.fns[fn].evq = { s.fns[fn].evq with error := true } ∧
      t.fns[fn].intCause = s.fns[fn].intCause ||| causeQueueErr ∧ ChangesOnly [.fns, .out] s t) ∧
  (∀ (fn : FnNo) (qp : QpNo) (s : State), s.fns[fn].qps[qp].running = true → s.fns[fn].qps[qp].held = none →
    s.fns[fn].qps[qp].awaiting = none → s.fns[fn].qps[qp].reenable = false → s.fns[fn].replyWaits qp = false →
    ∃ t, exec (.ringReadError fn qp) s = .next t ∧
      t.fns[fn].qps[qp] = { s.fns[fn].qps[qp] with error := true, running := false, stopping := false } ∧
      t.fns[fn].intCause = s.fns[fn].intCause ||| causeQueueErr ∧ ChangesOnly [.fns, .out] s t)

/-- R12, R18, R19, R83, R196, R209, R244: an accepted register write has its register's effect (a pair of 4-byte writes
for an 8-byte one), a refused access raises ACCESS_ERR and changes nothing else, SWITCHED is cleared by a 1 in bit 12,
and what Function Mask or Bus Master Enable held back is sent once they let it. The model's choices it rests on: log
entries 7, 10. -/
def Obligations.RegisterAccess : Prop :=
  (∀ (fn : FnNo) (off : BitVec 16) (v : W64) (s : State), s.barOpen fn = true → off.toNat % 4 = 0 →
    exec (.registerWrite fn off false v) s = .next (bar0Write fn off.toNat (v.extractLsb' 0 32) s)) ∧
  (∀ (fn : FnNo) (off : BitVec 16) (v : W64) (s : State), s.barOpen fn = true → bar0Legal off.toNat 8 = true →
    exec (.registerWrite fn off true v) s = .next
      (bar0Write fn (off.toNat + 4) (v.extractLsb' 32 32) (bar0Write fn off.toNat (v.extractLsb' 0 32) s))) ∧
  (∀ (fn : FnNo) (qp : QpNo) (v : W32) (s : State), s.fns[fn].qps[qp].running = false →
    bar0Write fn (0x40 + 0x20 * qp.val) v s = s.modQp fn qp fun q => { q with
      sqBase := (q.sqBase &&& 0xFFFFFFFF00000000#64) ||| (v &&& 0xFFFFF000).setWidth 64 }) ∧
  (∀ (fn : FnNo) (qp : QpNo) (v : W32) (s : State), s.fns[fn].qps[qp].running = true →
    bar0Write fn (0x40 + 0x20 * qp.val) v s = s) ∧
  (∀ (fn : FnNo) (write : Bool) (off : BitVec 16) (n : Nat) (s : State), s.barOpen fn = true →
    bar0Legal off.toNat n = false →
    ∃ t, exec (.accessErr fn write off n) s = .next t ∧
      t.fns[fn].intCause = s.fns[fn].intCause ||| causeAccessErr ∧
      (write = false → Emit.readData fn 0 ∈ t.out) ∧ ChangesOnly [.fns, .out] s t) ∧
  (∀ (fn : FnNo) (off : BitVec 16) (n : Nat) (s : State), s.barOpen fn = true → bar0Legal off.toNat n = true →
    off.toNat ≠ 0x18 → exec (.accessErr fn false off n) s = .next (s.emit (.readData fn
      ((s.readBar0 fn off.toNat).setWidth 64 |||
        (if n = 8 then (s.readBar0 fn (off.toNat + 4)).setWidth 64 <<< 32 else 0))))) ∧
  (∀ (v : W32) (s : State), s.barOpen 0 = true → v.getLsbD 12 = true →
    exec (.hifSupplyStatus v) s = .next { s with sup := { s.sup with switched := false } }) ∧
  (∀ (fn : FnNo) (mask : Bool) (s : State), s.fns[fn].pba = 0 →
    exec (.msixFunctionMask fn mask) s = .next (s.modFn fn fun f => { f with functionMask := mask })) ∧
  (∀ (fn : FnNo) (s : State) (v : Fin 64), s.fns[fn].pba.getLsbD v.val = true → s.fns[fn].busMaster = true →
    s.fns[fn].msix[v].masked = false → s.boot.linkL0 = true →
    ∃ t, exec (.msixFunctionMask fn false) s = .next t ∧
      Emit.msix fn v.val s.fns[fn].msix[v].addr s.fns[fn].msix[v].data ∈ t.out ∧
      t.fns[fn].pba.getLsbD v.val = false ∧ ChangesOnly [.fns, .out] s t)

/-- R249, R252 to R255: a BAR2 access of a function whose stratum exists answers the bytes of the view, or writes them
all, in a slot which serves that stratum, and waits in another; a refused one reads zero, writes nothing and raises
ACCESS_ERR. The model's choices it rests on: log entry 124. -/
def Obligations.ApertureAccess : Prop :=
  (∀ (fn : FnNo) (off : W32) (n : Nat) (b : List Byte) (s : State), s.barOpen fn = true → s.bar2Stratum fn = true →
    s.slotServes fn = true → s.bar2Bytes fn (s.bar2Addrs fn off.toNat n) = some b →
    ∃ t, exec (.bar2Read fn off n .clean) s = .next t ∧ t.out = s.out ++ [.bar2Data fn b] ∧
      ChangesOnly [.out] s t) ∧
  (∀ (fn : FnNo) (off : W32) (n : Nat) (found : Ecc) (b : List Byte) (s : State), s.barOpen fn = true →
    s.bar2Stratum fn = true → s.slotServes fn = false →
    exec (.bar2Read fn off n found) s = .next s ∧ exec (.bar2Write fn off b) s = .next s) ∧
  (∀ (fn : FnNo) (off : W32) (n : Nat) (found : Ecc) (s : State), s.barOpen fn = true → s.bar2Stratum fn = false →
    ∃ t, exec (.bar2Read fn off n found) s = .next t ∧ Emit.bar2Data fn (List.replicate n 0) ∈ t.out ∧
      t.fns[fn].intCause = s.fns[fn].intCause ||| causeAccessErr ∧ ChangesOnly [.fns, .out] s t) ∧
  (∀ (fn : FnNo) (off : W32) (b : List Byte) (s t : State), s.barOpen fn = true → s.bar2Stratum fn = true →
    s.slotServes fn = true → s.viewWrite fn ((s.bar2Addrs fn off.toNat b.length).zip b) = (t, none) →
    exec (.bar2Write fn off b) s = .next t) ∧
  (∀ (fn : FnNo) (off : W32) (b : List Byte) (s : State), s.barOpen fn = true → s.bar2Stratum fn = false →
    ∃ t, exec (.bar2Write fn off b) s = .next t ∧ t.fns[fn].intCause = s.fns[fn].intCause ||| causeAccessErr ∧
      ChangesOnly [.fns, .out] s t)

/-! ### The test port, cages and external memory -/

/-- R477 to R479, R1125 to R1128, R1121, R1122, R1104, R1105: while the test port answers, an instruction it is given is loaded,
and answers the register which its code selects: IDCODE 0x14820E97, BYPASS a zero bit, as does every code which is not
listed, EXTEST without TEST_EN, and a private instruction while a sealed stratum exists (R479, R513: which is told to stratum 0
and to the sealed strata). In the other power states the
port does not answer. a cage over its current limit switches off both ports of the cage; one second later it is
switched on again. in STANDBY and ACTIVE each SMBus command code answers its bytes, and a write, an unlisted code or
another protocol is answered with NACK; otherwise the module does not answer. None of them changes anything else. The
model's choices it rests on: log entries 90, 126, 128, 140. -/
def Obligations.BoardInterfaces : Prop :=
  (∀ (code : BitVec 8) (s : State), s.jtagAnswers = true → jtagOther code = true →
    exec (.bypass code) s = .next { s with jtag := code, out := s.out ++ [.jtag 0xFF (some 0)] }) ∧
  (∀ s : State, s.jtagAnswers = true →
    exec .idcode s = .next { s with jtag := 0x01, out := s.out ++ [.jtag 0x01 (some 0x14820E97)] }) ∧
  (∀ s : State, s.jtagAnswers = true →
    exec .samplePreload s = .next { s with jtag := 0x02, out := s.out ++ [.jtag 0x02 none] }) ∧
  (∀ s : State, s.jtagAnswers = true → exec .extest s =
    .next { s with jtag := 0x00, out := s.out ++ [if s.boot.testEn then .jtag 0x00 none else .jtag 0xFF (some 0)] }) ∧
  (∀ (code : BitVec 8) (trace : Bool) (s : State), s.jtagAnswers = true → 0x80 ≤ code.toNat → code.toNat < 0x90 →
    (∀ n : FnNo, s.strata[n].sealed = true → s.strata[n].live = false ∧ s.strata[n].destroying = false) →
    exec (.privateDebug ⟨code, trace⟩) s = .next { s with jtag := code, out := s.out ++ [.jtag code none] }) ∧
  (∀ (code : BitVec 8) (trace : Bool) (n : FnNo) (s : State), s.jtagAnswers = true → 0x80 ≤ code.toNat →
    code.toNat < 0x90 → s.strata[n].sealed = true → (s.strata[n].live = true ∨ s.strata[n].destroying = true) →
    ∃ t, exec (.privateDebug ⟨code, trace⟩) s = .next t ∧ t =
        ({ s with jtag := code, out := s.out ++ [.jtag 0xFF (some 0)] } : State).occurAll (0 :: s.sealedStrata) 0x1004
          (if trace then 2 else 1) 0 ∧
      n ∈ s.sealedStrata ∧ t.jtag = code ∧ ChangesOnly [.jtag, .out, .fns, .waits] s t) ∧
  (∀ (c : Instr) (s : State), c ∈ [.bypass 0xFF, .idcode, .samplePreload, .extest, .privateDebug ⟨0x80, false⟩] →
    s.sup.power ≠ .standby → s.sup.power ≠ .active → exec c s = .next s) ∧
  (∀ (c : Fin 4) (s : State), s.sup.power = .active → s.cageOff c = none →
    ∃ t, exec (.cageOvercurrent c) s = .next t ∧
      (∀ p : PortNo, t.ports[p] =
        if p.val / 2 = c.val then { s.ports[p] with cageOff := some s.tick } else s.ports[p]) ∧
      ChangesOnly [.ports] s t) ∧
  (∀ (c : Fin 4) (s : State) (since : Tick), s.sup.power = .active → s.cageOff c = some since →
    ∃ t, exec (.cageRetry c) s = .next t ∧
      (∀ p : PortNo, t.ports[p] = if p.val / 2 = c.val then { s.ports[p] with cageOff := none } else s.ports[p]) ∧
      since + 800000000 ≤ t.tick ∧ s.tick ≤ t.tick ∧ ChangesOnly [.ports, .tick] s t) ∧
  (∀ s : State, s.supplied = true →
    exec .smbusProduct s = .next { s with out := s.out ++ [.smbus (some [0x20, 0x48])] } ∧
    exec .smbusOrder s = .next { s with out := s.out ++ [.smbus (some [if s.order32 then 0x32 else 0x16])] } ∧
    exec .smbusSerial s = .next { s with out := s.out ++ [.smbus (some serialBytes)] } ∧
    exec .smbusFwVersion s = .next { s with out := s.out ++ [.smbus (some (leBytes 4
      (if s.boot.phase = 1 ∨ s.boot.phase = 0xA then 0 else s.fwVersion)))] } ∧
    exec .smbusSupplyStatus s = .next { s with out := s.out ++ [.smbus (some (leBytes 4 s.supplyStatus.toNat))] } ∧
    exec .smbusVinMain s = .next { s with out := s.out ++ [.smbus (some (leBytes 2 s.sup.vinMain))] } ∧
    exec .smbusVinAux s = .next { s with out := s.out ++ [.smbus (some (leBytes 2 s.sup.vinAux))] } ∧
    exec .smbusPowerState s = .next { s with out := s.out ++ [.smbus (some [if s.sup.power = .active then 2 else 1])] } ∧
    exec .smbusTJ s = .next { s with out := s.out ++ [.smbus (some (leBytes 2
      (if s.sup.power = .active then s.thermal.tj.toNat else 0x8000)))] } ∧
    exec .smbusCardTemperature s = .next { s with out := s.out ++ [.smbus (some (leBytes 2
      s.thermal.readings[(82 : Fin 83)].toNat))] } ∧
    exec .smbusState s = .next { s with out := s.out ++ [.smbus (some [BitVec.ofNat 8
      (s.thermal.stateBits + if s.boot.fatal then 8 else 0)])] }) ∧
  (∀ (code proto : BitVec 8) (write : Bool) (s : State), s.supplied = true →
    (write = true ∨ smbusProtocol code ≠ some proto) →
    exec (.smbusNack code write proto) s = .next { s with out := s.out ++ [.smbus none] }) ∧
  (∀ (c : Instr) (s : State), c ∈ [.smbusProduct, .smbusOrder, .smbusSerial, .smbusFwVersion, .smbusSupplyStatus,
      .smbusVinMain, .smbusVinAux, .smbusPowerState, .smbusTJ, .smbusCardTemperature, .smbusState,
      .smbusNack 0xFF false 1] →
    s.supplied = false → exec c s = .next s)

/-- R753 to R757, R759, R760, R762, R764: an instant of tracking or of fixed refresh is the channel's own; a tracking
failure retires the channel; a patrol read which finds a corrected error counts it, and one which finds an
uncorrectable error poisons the codeword; a refresh changes nothing. The model's choices it rests on: log entry 125. -/
def Obligations.ExternalMemoryUpkeep : Prop :=
  (∀ (c : ExtNo) (s : State), exec (.adaptiveRefresh c) s = .next s) ∧
  (∀ (c : ExtNo) (p : Nat) (s : State), s.position c = some p → s.channelServes c = true → s.ext.fixedRefresh = true →
    s.tick.toNat + 1536 < 2 ^ 64 →
    ∃ t, exec (.fixedRefresh c) s = .next t ∧ t.tick.toNat % 1536 = 192 * p % 1536 ∧ s.tick.toNat ≤ t.tick.toNat ∧
      t.tick.toNat < s.tick.toNat + 1536 ∧ ChangesOnly [.tick] s t) ∧
  (∀ (c : ExtNo) (p : Nat) (s : State), s.position c = some p → s.channelServes c = true →
    s.tick.toNat + 2 ^ 25 < 2 ^ 64 →
    ∃ t, exec (.tracking c false) s = .next t ∧ t.tick.toNat % 2 ^ 25 = 2 ^ 20 * p % 2 ^ 25 ∧
      s.tick.toNat ≤ t.tick.toNat ∧ t.tick.toNat < s.tick.toNat + 2 ^ 25 ∧ ChangesOnly [.tick] s t) ∧
  (∀ (c : ExtNo) (p : Nat) (s : State), s.position c = some p → s.channelServes c = true →
    ∃ t, exec (.tracking c true) s = .next t ∧ t.units.exts[c].up = false) ∧
  (∀ (c : ExtNo) (k : Nat) (s : State), s.channelServes c = true → k < s.channelWords →
    s.slots.table[s.slotPos] = none →
    exec (.patrolRead c k .clean) s = .next s ∧
    exec (.patrolRead c k .corrected) s = .next { s with telem := { s.telem with
      extCorrected := vmod s.telem.extCorrected c fun v => satAdd v 1 } } ∧
    ((∀ e ∈ s.ext.events, e.1 ≠ c) →
      ∃ t, exec (.patrolRead c k .uncorrectable) s = .next t ∧ t.isPoisoned (c, k) = true))

/-! ### Slots and strata -/

/-- R343, R505, R507: at a round's start the table which was prepared is in force, with the settings which wait for it, and
every STRATUM_SET_ARBITRATION which waited is answered; a slot's end is the next slot's first tick. The model's choices it rests on: log entry 31. -/
def Obligations.RoundsAndSlots : Prop :=
  (∀ s : State, s.arbitrates = true → s.tick.toNat + 2 ^ 20 < 2 ^ 64 →
    ∃ t, exec .roundStart s = .next t ∧ t.slots.table = s.slots.next ∧ t.slots.next = s.slots.next ∧
      t.slots.notices = [] ∧ t.slots.terms = [] ∧
      (∀ x, s.slots.terms = [x] →
        t.strata[x.1] = { s.strata[x.1] with isolated := x.2.1, share := x.2.2 }) ∧
      (∀ n : FnNo, (∀ x ∈ s.slots.terms, x.1 ≠ n) → t.strata[n] = s.strata[n]) ∧ t.tick.toNat * 5 / 1024 % 64 = 0 ∧ s.tick.toNat ≤ t.tick.toNat ∧
      (t.ext.fixedRefresh = true ↔ ∃ p : Fin 64, s.slots.next[p] ≠ none) ∧
      ∀ (fn : FnNo) (qp : QpNo), t.fns[fn].qps[qp].awaiting = none) ∧
  (∀ s : State, s.arbitrates = true → s.tick.toNat + 2 ^ 20 < 2 ^ 64 →
    ∃ t, exec .slotBoundary s = .next t ∧ t.tick.toNat * 5 / 1024 = s.tick.toNat * 5 / 1024 + 1 ∧
      (t.tick.toNat - 1) * 5 / 1024 = s.tick.toNat * 5 / 1024)

/-- R335, R336, R504: when the teardown of a stratum ends the stratum does not exist, has no program, channel or slot, its
clusters' scratch reads zero, and its STRATUM_DESTROY has its completion. The model's choices it rests on: log entry
43. -/
def Obligations.TeardownEnds : Prop :=
  ∀ (n : FnNo) (s : State), s.strata[n].destroying = true →
    ∃ t, exec (.stratumDestroyComplete n) s = .next t ∧ t.strata[n] = Stratum.none ∧
      (∀ m : FnNo, m ≠ n → t.strata[m] = s.strata[m]) ∧ (∀ p ∈ t.progs, p.stratum ≠ n) ∧
      (∀ p : Fin 64, t.slots.next[p] ≠ some n) ∧ (∀ p : Fin 64, s.slots.next[p] ≠ some n → t.slots.next[p] = s.slots.next[p]) ∧
      (∀ o ∈ t.outst, o.id ≠ s.strata[n].destroyId) ∧
      (∀ c ∈ s.physOf s.strata[n].clusters, t.scratch[c] = []) ∧
      t.tables[n] = Vector.replicate 8 { image := [], monotone := false } ∧ t.mprogs[n] = Vector.replicate 8 [] ∧
      t.slots.table = s.slots.table ∧ t.units = s.units ∧ t.tick = s.tick

/-! ### The pool -/

/-- R691, R693, R696, R699, R705, R706: a grant gives one buffer to the channel served next; when a buffer's zeroing ends
it is in the pool; a channel which has starved for its period is reported to its stratum, once. The model's choices it
rests on: log entries 24, 25. -/
def Obligations.PoolEvents : Prop :=
  (∀ (s : State) (c : Chan) (b : Nat), s.nextGrant = some c → s.grantee = some b → s.lock.area = [] →
    ∃ t, exec .grant s = .next t ∧
      t.geo.bufs = insertBuf s.geo.bufs { num := b, state := .allotted, chan := c.num, frame := 0, copy := false } ∧
      t.geo.poolGranules = s.geo.poolGranules ∧ t.geo.mem = s.geo.mem) ∧
  (∀ (n : Nat) (s : State), (∃ b ∈ s.geo.bufs, b.num = n ∧ b.state = .zeroing) →
    ∃ t, exec (.zeroingComplete n) s = .next t ∧ t.geo.bufs = s.geo.bufs.filter (fun b => b.num ≠ n) ∧
      t.geo.poolGranules = s.geo.poolGranules ∧ t.geo.mem = s.geo.mem) ∧
  (∀ (c : Nat) (x : Chan) (since : Tick) (s : State), s.chan c = some x → x.starvedSince = some since →
    x.starvedSent = false →
    ∃ t u, exec (.poolStarved c) s = .next t ∧
      t = u.occur x.stratum 0x2004 (BitVec.ofNat 64 c) (BitVec.ofNat 64 (s.allotment c + 2 ^ 16 * x.cap)) ∧
      u.chans = (s.modChan c fun y => { y with starvedSent := true }).chans ∧
      u.tick = (s.reach (since + BitVec.ofNat 64 x.period)).tick ∧ ChangesOnly [.tick, .chans] s u)

/-! ### Long-running commands -/

/-- R232, R269: an accepted long-running command is outstanding under a new number, with an event queue entry reserved,
and its acceptance is answered with ST_ACCEPTED. The model's choices it rests on: log entry 4. -/
def Obligations.AcceptanceReserves : Prop :=
  (∀ (s : State) (fn : FnNo) (qp : QpNo) (op : BitVec 8) (p : Packet),
    (s.outstanding fn qp op p).nextId = s.nextId + 1 ∧
    (s.outstanding fn qp op p).outst =
      s.outst ++ [{ id := s.nextId, fn := fn, qp := qp, op := op, tag := p.tag,
                    chain := p.flags.getLsbD 5 && !s.fns[fn].qps[qp].stopping }] ∧
    (s.outstanding fn qp op p).fns[fn].evq.reserved = s.fns[fn].evq.reserved + 1 ∧
    ChangesOnly [.nextId, .outst, .fns] s (s.outstanding fn qp op p)) ∧
  (∀ (c : CmdSpec) (fn : FnNo) (qp : QpNo) (p : Packet) (acc : Nat → State → State) (s : State),
    (∀ id u, Grows u (acc id u) ∧ (acc id u).tick = u.tick ∧ (acc id u).boot = u.boot) → s.boot.linkL0 = true →
    Replied s (longDone c fn qp p acc (fun _ t => t) (s.taken fn qp)) fn qp c.op p stAccepted 0 0 0)

/-- R332, R334, R366, R391, R394, R405, R408, R410, R411, R413, R421, R423, R439, R441: the long-running commands whose
work is a later event are accepted, and leave their work where that event finds it. The model's choices it rests on:
log entry 17. -/
def Obligations.LongCommandsAccepted : Prop :=
  (∀ (fn : FnNo) (qp : QpNo) (p : Packet) (s : State),
    Accepts specStratumDestroy true fn qp p (chkStratumDestroy p) (fun _ => none) s →
    ∃ t, exec (.stratumDestroy fn qp p) s = .next t ∧
      t.strata[toFn (p.u8 8)] = { s.strata[toFn (p.u8 8)] with
        live := false, destroying := true, destroyId := s.nextId } ∧
      t = longDone specStratumDestroy fn qp p (acceptDestroy (toFn (p.u8 8))) (fun _ t => t) (s.taken fn qp)) ∧
  (∀ (fn : FnNo) (qp : QpNo) (p : Packet) (s : State),
    Accepts specCopy true fn qp p (chkCopy .copy fn p) (fun _ => none) s →
    ∃ t, exec (.copy fn qp p) s = .next t ∧
      t.copies = s.copies ++ [{ copyJobOf .copy s.nextId fn p with engine := s.copyEngine fn p }] ∧
      t = longDone specCopy fn qp p (acceptCopy .copy fn p) (fun _ t => t) (s.taken fn qp)) ∧
  (∀ (fn : FnNo) (qp : QpNo) (p : Packet) (s : State),
    Accepts specCopyFill true fn qp p (chkCopy .fill fn p) (fun _ => none) s →
    ∃ t, exec (.copyFill fn qp p) s = .next t ∧
      t.copies = s.copies ++ [{ copyJobOf .fill s.nextId fn p with engine := s.copyEngine fn p }] ∧
      t = longDone specCopyFill fn qp p (acceptCopy .fill fn p) (fun _ t => t) (s.taken fn qp)) ∧
  (∀ (fn : FnNo) (qp : QpNo) (p : Packet) (s : State),
    Accepts specCopyChecksum true fn qp p (chkCopy .checksum fn p) (fun _ => none) s →
    ∃ t, exec (.copyChecksum fn qp p) s = .next t ∧
      t.copies = s.copies ++ [{ copyJobOf .checksum s.nextId fn p with engine := s.copyEngine fn p }] ∧
      t = longDone specCopyChecksum fn qp p (acceptCopy .checksum fn p) (fun _ t => t) (s.taken fn qp)) ∧
  (∀ (fn : FnNo) (qp : QpNo) (p : Packet) (s : State),
    Accepts specChanRoute true fn qp p (chkChanRoute fn p) (fun _ => none) s →
    ∃ t, exec (.chanRoute fn qp p) s = .next t ∧
      t.chans = (s.modChan (Packet.chanNo p) fun x => { x with
        pending := some { id := s.nextId, route := Packet.route p, unbind := false, accepted := s.tick
                          switched := false } }).chans ∧
      t = longDone specChanRoute fn qp p (acceptRoute p (Packet.route p) false) (fun _ t => t) (s.taken fn qp)) ∧
  (∀ (fn : FnNo) (qp : QpNo) (p : Packet) (s : State),
    Accepts specChanUnbind true fn qp p (chkChanUnbind p) (fun _ => none) s →
    ∃ t, exec (.chanUnbind fn qp p) s = .next t ∧
      t.chans = (s.modChan (Packet.chanNo p) fun x => { x with
        pending := some { id := s.nextId, route := { slate := 0xFE, prog := 0, input := 0 }, unbind := true
                          accepted := s.tick, switched := false } }).chans ∧
      t = longDone specChanUnbind fn qp p (acceptRoute p { slate := 0xFE, prog := 0, input := 0 } true)
        (fun _ t => t) (s.taken fn qp)) ∧
  (∀ (fn : FnNo) (qp : QpNo) (p : Packet) (host : HostData) (s : State) (v : Nat × List Nat × List (Nat × Nat)),
    (s.unmapped fun h => h == fn) = none →
    Accepts specProgLoad true fn qp p (chkProgLoad fn p host) (resProgLoad fn p host) s →
    (s.selection (s.newProg fn p (hostBytes host 256) s.nextId)) = some v →
    ∃ t, exec (.progLoad fn qp p host) s = .next t ∧
      t.progs = s.progs ++ [{ s.newProg fn p (hostBytes host 256) s.nextId with
        variant := some v.1, origins := v.2.1, windows := v.2.2 }] ∧
      t = longDone specProgLoad fn qp p (reserveProg fn p host) (fun _ t => t) (s.taken fn qp)) ∧
  (∀ (fn : FnNo) (qp : QpNo) (p : Packet) (host : HostData) (s u : State), Ready s fn qp specProgLoad.op true p →
    u = (s.taken fn qp).atProgLoad fn qp p host → u.fns[fn].qps[qp].chainFailed = none →
    validate specProgLoad fn p (chkProgLoad fn p host u) (resProgLoad fn p host u) u = none →
    ∃ t x, exec (.progLoad fn qp p host) s = .next t ∧ t.progs = u.progs ++ [x] ∧ x.stratum = fn ∧
      x.loading = some u.nextId ∧ x.arena = (p.u64 24).toNat ∧ t.mapping = u.mapping ∧
      t = longDone specProgLoad fn qp p (reserveProg fn p host) (fun _ t => t) u) ∧
  (∀ (fn : FnNo) (qp : QpNo) (p : Packet) (s : State),
    Accepts specProgUnload true fn qp p
      (fun t => (badProgId p).or (badState (t.loadedProg fn (p.u8 8).toNat).isNone)) (fun _ => none) s →
    ∃ t, exec (.progUnload fn qp p) s = .next t ∧
      t.progs = (s.modProg fn (p.u8 8).toNat fun x => { x with unloading := x.unloading ++ [s.nextId] }).progs ∧
      ChangesOnly [.fns, .out, .outst, .nextId, .progs] s t) ∧
  (∀ (fn : FnNo) (qp : QpNo) (p : Packet) (s : State),
    Accepts specTableLoad true fn qp p (fun _ => chkSlotLoad p (decide (1 < (p.u8 9).toNat))) (fun _ => none) s →
    ∃ t, exec (.tableLoad fn qp p) s = .next t ∧ t.tableLoads = s.tableLoads ++ [slotLoad fn p s.nextId] ∧
      ChangesOnly [.fns, .out, .outst, .nextId, .tableLoads] s t) ∧
  (∀ (fn : FnNo) (qp : QpNo) (p : Packet) (s : State),
    Accepts specMicroprogLoad true fn qp p
      (fun _ => chkSlotLoad p (p.u8 9 == 0 || decide (64 < (p.u8 9).toNat))) (fun _ => none) s →
    ∃ t, exec (.microprogLoad fn qp p) s = .next t ∧ t.mprogLoads = s.mprogLoads ++ [slotLoad fn p s.nextId] ∧
      ChangesOnly [.fns, .out, .outst, .nextId, .mprogLoads] s t) ∧
  (∀ (fn : FnNo) (qp : QpNo) (p : Packet) (s : State),
    Accepts specLaunchAtTick true fn qp p (chkLaunchAtTick fn p) (fun _ => none) s →
    ∃ t, exec (.launchAtTick fn qp p) s = .next t ∧ t.nextLaunch = s.nextLaunch + 1 ∧
      t.scheduled = s.scheduled ++ [{ id := s.nextId, stratum := fn, prog := (p.u8 8).toNat, start := p.u64 32
                                      requireSync := (p.u8 9).getLsbD 7
                                      terms := launchTerms p s.nextLaunch (p.u64 32) }] ∧
      ChangesOnly [.fns, .out, .outst, .nextId, .nextLaunch, .scheduled] s t) ∧
  (∀ (fn : FnNo) (qp : QpNo) (p : Packet) (s : State),
    Accepts specBarrier true fn qp p (fun _ => none) (fun _ => none) s →
    ∃ t, exec (.barrier fn qp p) s = .next t ∧ (∃ w : BarrierWait, t.barriers = s.barriers ++ [w] ∧ w.id = s.nextId ∧
        w.stratum = fn ∧ w.below = s.nextId ∧
        (∀ k : QpNo, k ∈ w.queues ↔ (s.fns[fn].qps[k].awaiting).isSome = true) ∧ ∀ f ∈ s.frames, f.launch.isSome = true → f.stage ≠ .forwarding →
          s.ownsFrame fn f = true → (f.chan, BitVec.ofNat 64 f.seq) ∈ w.frames) ∧
      ChangesOnly [.fns, .out, .outst, .nextId, .barriers] s t) ∧
  (∀ (fn : FnNo) (qp : QpNo) (p : Packet) (s : State),
    Accepts specEventWait true fn qp p (chkEventWait fn p) (fun _ => none) s →
    ∃ t, exec (.eventWait fn qp p) s = .next t ∧ (∃ w : EvWait, w.id = s.nextId ∧ w.stratum = fn ∧ w.kind = p.u8 8 ∧
        w.value = p.u64 16 ∧ w.timeout = p.u64 24 ∧ w.accepted = s.tick ∧ t.waits = s.waits ++ [w]) ∧
      ChangesOnly [.fns, .out, .outst, .nextId, .waits] s t) ∧
  (∀ (fn : FnNo) (qp : QpNo) (p : Packet) (s : State),
    Accepts specFaultLogRead true fn qp p (fun _ => chkFaultLogRead p) (fun _ => none) s →
    ∃ t, exec (.faultLogRead fn qp p) s = .next t ∧
      t.logReads = s.logReads ++ [{ id := s.nextId, fn, first := (p.u32 8).toNat, count := (p.u16 12).toNat
                                    addr := p.u64 16 }] ∧
      ChangesOnly [.fns, .out, .outst, .nextId, .logReads] s t)

/-- R317, R321 to R325, R378 to R381, R384, R430 to R433, R436, R437, R441 to R449, R451 to R453, R455: the long-running
commands whose work begins at once are accepted under a new number (`s.nextId`), and begin it: a clock plan is called for
and installed, or its command completes at once; a port trains, retrains or is disabled; a width change, a
synchronisation, a fence, a self-test, a remap, a non-volatile operation, a draw or a pair begins. The model's choices it
rests on: log entries 16, 32, 68. -/
def Obligations.LongCommandsBegin : Prop :=
  (∀ (fn : FnNo) (qp : QpNo) (p : Packet) (s : State) (c : BitVec 8),
    Accepts specDevSetClockPlan true fn qp p (fun _ => badField (p.u8 8 == 0 || decide (7 < p.u8 8)) 8)
      (fun t => supplyLow t.sup.cap70 t.supplyStatus) s →
    c = ({ s with plans := { s.plans with selected := p.u8 8 } } : State).planCalled →
    ∃ t, exec (.devSetClockPlan fn qp p) s = .next t ∧ t.plans.selected = p.u8 8 ∧ t.plans.inForce = s.plans.inForce ∧
      (s.plans.installing = none → c = s.plans.inForce →
        t.plans.installing = none ∧ t.plans.cmds = [] ∧ ∀ o ∈ t.outst, o.id ≠ s.nextId) ∧
      (s.plans.installing = none → c ≠ s.plans.inForce →
        t.plans.installing = some c ∧ t.plans.cmds = s.plans.cmds ++ [s.nextId]) ∧
      (∀ i, s.plans.installing = some i →
        t.plans.installing = some i ∧ t.plans.cmds = s.plans.cmds ++ [s.nextId]) ∧
      ChangesOnly [.out, .nextId, .fns, .outst, .plans, .waits, .repro, .slots] s t) ∧
  (∀ (fn : FnNo) (qp : QpNo) (p : Packet) (s : State), p.u8 9 ≠ 2 → p.u8 9 ≠ 3 →
    Accepts specPortTrain true fn qp p (chkTrain p) (fun _ => none) s →
    ∃ t, exec (.portTrainTrain fn qp p) s = .next t ∧
      (s.units.ports[Packet.port p].up = true → (∃ l ∈ lanesOf (Packet.port p), s.laneUp l = true) →
        t.ports[Packet.port p] = { s.ports[Packet.port p] with
          role := p.u8 10, maxWidth := (p.u8 11).toNat, cmd := some s.nextId, retrains := 0, far := [], st := .detect
          reason := 0, due := s.tick + BitVec.ofNat 64 (800000 * (p.u16 12).toNat) }) ∧
      (s.units.ports[Packet.port p].up = false → t.ports[Packet.port p].st = .disabled ∧
        t.ports[Packet.port p].reason = 0x0B ∧ ∀ o ∈ t.outst, o.id ≠ s.nextId) ∧
      t = longDone specPortTrain fn qp p (fun _ t => t) (trainWork p) (s.taken fn qp)) ∧
  (∀ (fn : FnNo) (qp : QpNo) (p : Packet) (s : State), p.u8 9 = 2 →
    Accepts specPortTrain true fn qp p (chkTrain p) (fun _ => none) s →
    ∃ t, exec (.portTrainRetrain fn qp p) s = .next t ∧ t.ports[Packet.port p].st = .retrain ∧
      t.ports[Packet.port p].cmd = some s.nextId ∧ t.ports[Packet.port p].maxWidth = (p.u8 11).toNat ∧
      t.ports[Packet.port p].retrainStep = 1 ∧ t.ports[Packet.port p].due = s.tick + 4000000 ∧
      t = longDone specPortTrain fn qp p (fun _ t => t) (trainWork p) (s.taken fn qp)) ∧
  (∀ (fn : FnNo) (qp : QpNo) (p : Packet) (s : State), p.u8 9 = 3 →
    Accepts specPortTrain true fn qp p (chkTrain p) (fun _ => none) s →
    ∃ t, exec (.portTrainDisable fn qp p) s = .next t ∧ t.ports[Packet.port p].st = .disabled ∧
      (s.ports[Packet.port p].st ≠ .disabled →
        t.ports[Packet.port p].reason = 3 ∧ t.ports[Packet.port p].lanes = 0 ∧ t.ports[Packet.port p].cmd = none) ∧
      (∀ o ∈ t.outst, o.id ≠ s.nextId) ∧
      t = longDone specPortTrain fn qp p (fun _ t => t) (trainWork p) (s.taken fn qp)) ∧
  (∀ (fn : FnNo) (qp : QpNo) (p : Packet) (s : State),
    Accepts specPortSetWidth true fn qp p (chkSetWidth p) (fun _ => none) s →
    ∃ t, exec (.portSetWidth fn qp p) s = .next t ∧
      ((s.ports[Packet.port p].wc.isSome = true ∨ s.ports[Packet.port p].farWc.isSome = true) →
        t.ports[Packet.port p].widthCmd = some (s.nextId, (p.u8 9).toNat)) ∧
      (s.ports[Packet.port p].wc = none → s.ports[Packet.port p].farWc = none →
        t.ports[Packet.port p].widthCmd = none ∧
        ((p.u8 9).toNat = s.ports[Packet.port p].width → ∀ o ∈ t.outst, o.id ≠ s.nextId) ∧
        ((p.u8 9).toNat ≠ s.ports[Packet.port p].width → ∃ w : WidthChange, t.ports[Packet.port p].wc = some w ∧
          w.cause = .command s.nextId ∧ w.width = (p.u8 9).toNat ∧
          w.mask = lowestLanes s.ports[Packet.port p].lanes (p.u8 9).toNat ∧ w.began = s.tick)) ∧
      t.units = s.units ∧ ChangesOnly [.out, .nextId, .fns, .outst, .waits, .ports, .slots] s t) ∧
  (∀ (fn : FnNo) (qp : QpNo) (p : Packet) (s : State),
    Accepts specTickSync true fn qp p (chkTickSync p) (fun _ => none) s →
    ∃ t, exec (.tickSync fn qp p) s = .next t ∧
      t.ports[Packet.port p] = { s.ports[Packet.port p] with sync := some {
        source := p.u8 9 == 0 || s.ports[Packet.port p].role == 0, cmd := some s.nextId, began := s.tick, a := none
        theta := 0, good := 0, bad := 0, lastEcho := s.tick
        synced := (match s.ports[Packet.port p].sync with | some y => y.synced | none => false) } } ∧
      (∀ n : PortNo, n ≠ Packet.port p → t.ports[n] = s.ports[n]) ∧
      ChangesOnly [.out, .nextId, .fns, .outst, .ports] s t) ∧
  (∀ (fn : FnNo) (qp : QpNo) (p : Packet) (s : State) (u : Unit_),
    Accepts specUnitFence true fn qp p (fun _ => (badUnit p).or (badField (decide (1 < p.u8 10)) 10))
      (fun _ => none) s →
    unitOf (p.u16 8) = some u →
    ∃ t, exec (.unitFence fn qp p) s = .next t ∧
      ((s.unitSt u).up = false → t.units = s.units ∧ ∀ o ∈ t.outst, o.id ≠ s.nextId) ∧
      ((s.unitSt u).up = true → (∀ l, u ≠ .lane l) → (t.unitSt u).fenced = true ∧
        (t.unitSt u).retired = retiresOnFence u ∧
        (p.u8 10 = 0 → (t.unitSt u).draining = some (s.nextId, s.tick)) ∧
        (p.u8 10 = 1 → ∀ o ∈ t.outst, o.id ≠ s.nextId)) ∧
      t = longDone specUnitFence fn qp p (fun _ t => t) (fenceWork p) (s.taken fn qp)) ∧
  (∀ (fn : FnNo) (qp : QpNo) (p : Packet) (s : State) (u : Unit_),
    Accepts specUnitSelftest true fn qp p (fun t => (badUnit p).or (badState (!t.unitDown p))) (fun _ => none) s →
    unitOf (p.u16 8) = some u →
    ∃ t, exec (.unitSelftest fn qp p) s = .next t ∧
      ((∀ l, u = .lane l → s.ports[portOf l].st = .active) →
        t.unitSt u = { s.unitSt u with testing := (s.unitSt u).testing ++ [s.nextId] }) ∧
      (∀ l, u = .lane l → s.ports[portOf l].st ≠ .active →
        t.lanes[l] = { s.lanes[l] with rejoin := true } ∧ t.units = s.units ∧ ∀ o ∈ t.outst, o.id ≠ s.nextId) ∧
      ChangesOnly [.out, .nextId, .fns, .outst, .units, .waits, .lanes] s t) ∧
  (∀ (fn : FnNo) (qp : QpNo) (p : Packet) (s : State) (l : LogNo),
    Accepts specClusterRemap true fn qp p (chkClusterRemap p) (fun _ => none) s →
    s.logicalOf (toPhys (p.u8 8)) = some l →
    ∃ t, exec (.clusterRemap fn qp p) s = .next t ∧ t.remaps = s.remaps ++ [(s.nextId, l, toPhys (p.u8 9))] ∧
      t.mapping = s.mapping ∧ ChangesOnly [.fns, .out, .outst, .nextId, .remaps] s t) ∧
  (∀ (fn : FnNo) (qp : QpNo) (p : Packet) (s : State),
    Accepts specNvRead true fn qp p (chkNvRead fn p) (fun _ => none) s →
    ∃ t, exec (.nvRead fn qp p) s = .next t ∧
      t.nv = { s.nv with ops := s.nv.ops ++
        [nvOp fn qp p 0xB0 (p.u8 8).toNat (p.u32 12).toNat (p.u32 16).toNat (p.u64 24) s.nextId] } ∧
      ChangesOnly [.fns, .out, .outst, .nextId, .nv] s t) ∧
  (∀ (fn : FnNo) (qp : QpNo) (p : Packet) (s : State),
    Accepts specNvWrite true fn qp p (chkNvWrite p) State.gateCheck s →
    ∃ t, exec (.nvWrite fn qp p) s = .next t ∧
      t.nv = { s.nv with ops := s.nv.ops ++
        [nvOp fn qp p 0xB1 7 (p.u32 12).toNat (p.u32 16).toNat (p.u64 24) s.nextId] } ∧
      ChangesOnly [.fns, .out, .outst, .nextId, .nv] s t) ∧
  (∀ (fn : FnNo) (qp : QpNo) (p : Packet) (s : State),
    Accepts specFwStage true fn qp p (fun _ => chkSource p 0xFFF000) State.gateCheck s →
    ∃ t, exec (.fwStage fn qp p) s = .next t ∧
      t.nv = { s.nv with staged := false, ops := s.nv.ops ++
        [nvOp fn qp p 0xB2 0 0 (p.u32 16).toNat (p.u64 8) s.nextId] } ∧
      ChangesOnly [.fns, .out, .outst, .nextId, .nv] s t) ∧
  (∀ (fn : FnNo) (qp : QpNo) (p : Packet) (s : State),
    Accepts specFwCommit true fn qp p (fun t => badState (!t.nv.staged)) State.gateCheck s →
    ∃ t, exec (.fwCommit fn qp p) s = .next t ∧
      t.nv = { s.nv with ops := s.nv.ops ++ [nvOp fn qp p 0xB3 0 0 64 0 s.nextId] } ∧
      ChangesOnly [.fns, .out, .outst, .nextId, .nv] s t) ∧
  (∀ (fn : FnNo) (qp : QpNo) (p : Packet) (s : State),
    Accepts specCalStore true fn qp p (fun _ => chkSource p 0x1FF000) State.gateCheck s →
    ∃ t, exec (.calStore fn qp p) s = .next t ∧
      t.nv = { s.nv with ops := s.nv.ops ++ [nvOp fn qp p 0xB4 3 0 (p.u32 16).toNat (p.u64 8) s.nextId] } ∧
      ChangesOnly [.fns, .out, .outst, .nextId, .nv] s t) ∧
  (∀ (fn : FnNo) (qp : QpNo) (p : Packet) (host : List Byte) (fail : Option W64) (s : State),
    Accepts specPanelDraw true fn qp p (chkPanelDraw fn p) State.gateCheck s →
    ∃ t, exec (.panelDraw fn qp p host fail) s = .next t ∧
      (fail = none → t.panel.draws = s.panel.draws ++
        [({ id := s.nextId, fn, qp, tag := p.tag, region := (p.u8 8).toNat, carried := false, paused := none,
            bitmap := (host ++ List.replicate (bitmapBytes (p.u8 8).toNat) 0).take (bitmapBytes (p.u8 8).toNat) } : Draw)]) ∧
      (fail ≠ none → t.panel = s.panel ∧ ∀ o ∈ t.outst, o.id ≠ s.nextId) ∧ t.panel.pixels = s.panel.pixels ∧
      ChangesOnly [.fns, .out, .outst, .nextId, .waits, .panel] s t) ∧
  (∀ (fn : FnNo) (qp : QpNo) (p : Packet) (s : State), p.u8 8 ≠ 2 →
    Accepts specLockstepPair true fn qp p (fun t => (chkPairFields p).or (chkPairState p t)) (fun _ => none) s →
    (∀ x ∈ s.lock.peerRec, pairWait < s.tick - x.1) →
    ∃ t, exec (.lockstepPair fn qp p) s = .next t ∧ t.lock.st = .pairing ∧ t.lock.target = toFn (p.u8 11) ∧
      t.lock.secondary = (p.u8 9 == 1) ∧ t.lock.forwarded = (p.u8 10 == 1) ∧ t.lock.cmd = some s.nextId ∧
      t.lock.began = s.tick ∧ t.lock.first = none) ∧
  (∀ (fn : FnNo) (qp : QpNo) (p : Packet) (s : State), p.u8 8 ≠ 2 →
    Accepts specLockstepPair true fn qp p (fun t => (chkPairFields p).or (chkPairState p t)) (fun _ => none) s →
    ∃ t, exec (.lockstepPair fn qp p) s = .next t ∧ t = longDone specLockstepPair fn qp p
      (fun id t => t.modLock fun l => l.startPair (toFn (p.u8 11)) (p.u8 9 == 1) (p.u8 10 == 1) id t.tick)
      (fun _ t => (t.lockSend none (lockPayload 5 1 t.pairRecord)).tryPair) (s.taken fn qp)) ∧
  (∀ (fn : FnNo) (qp : QpNo) (p : Packet) (s : State), p.u8 8 = 2 →
    Accepts specLockstepPair true fn qp p
      (fun t => (chkPairFields p).or (badState (t.lock.st != .paired || t.lock.target != toFn (p.u8 11) ||
        !t.liveStrata.contains (toFn (p.u8 11)))))
      (fun _ => none) s →
    ∃ t, exec (.lockstepUnpair fn qp p) s = .next t ∧ t.lock.st = .ended ∧ t.lock.endCause = 2 ∧
      t.lock.target = s.lock.target ∧ (∀ o ∈ t.outst, o.id ≠ s.nextId) ∧
      t = longDone specLockstepPair fn qp p (fun _ t => t)
        (fun id t => (t.endPair 2 true).completeOk id 0 0) (s.taken fn qp))

/-! ### What ends the work of commands -/

/-- R227, R229, R269, R300: a completion takes its command from those outstanding and writes its record, numbered, into
the event queue, giving up the entry which was reserved; its status fails the command's chain unless it is ST_OK. The
model's choices it rests on: log entry 9. -/
def Obligations.CompletionRecord : Prop :=
  ∀ (s : State) (o : Outst) (st d : W16) (r0 r1 : W64) (data : BitVec 192),
    (s.outst.find? fun p => p.id = o.id) = some o →
    (∀ p ∈ (s.complete o.id st d r0 r1 data).outst, p.id ≠ o.id) ∧
    (∀ p ∈ s.outst, p.id ≠ o.id → p ∈ (s.complete o.id st d r0 r1 data).outst) ∧
    (s.fns[o.fn].busMaster = true → s.boot.fatal = false → s.boot.linkL0 = true → s.fns[o.fn].evq.held = [] →
      s.fns[o.fn].evq.running = true → s.fns[o.fn].evq.reserved ≠ 0 →
      s.fns[o.fn].evq.unreleased < 2 ^ s.fns[o.fn].evq.log2.toNat - 1 →
      (∃ r : EvRec, Emit.event o.fn (s.fns[o.fn].evq.base + 64 * s.fns[o.fn].evq.pos.setWidth 64)
          (r.bytes o.fn s.fns[o.fn].evq.phase) ∈ (s.complete o.id st d r0 r1 data).out ∧
        r.completion = true ∧ r.evType = o.op.setWidth 16 ∧ r.queue = BitVec.ofNat 8 o.qp.val ∧ r.tag = o.tag ∧ r.status = st ∧ r.detail = d ∧ r.r0 = r0 ∧ r.r1 = r1 ∧ r.data = data ∧
        r.seq = s.fns[o.fn].evq.seq ∧ r.tick = s.tick) ∧
      (s.complete o.id st d r0 r1 data).fns[o.fn].evq.reserved = s.fns[o.fn].evq.reserved - 1 ∧
      (s.complete o.id st d r0 r1 data).fns[o.fn].evq.held = []) ∧
    (o.chain = true → st ≠ stOk →
      (s.complete o.id st d r0 r1 data).fns[o.fn].qps[o.qp].chainFailed = some o.tag) ∧
    ChangesOnly [.fns, .out, .outst, .waits] s (s.complete o.id st d r0 r1 data)

/-- R62, R95, R99, R324, R1080 to R1092: an installation which ends puts its plan in force, and no other begins while it
is the one called for. a sample is recorded as its sensor's reading, or fails its sensor; from T_CAP on the module is
CAPPED and throttled; the step timer lowers the cap, the release timer ends it; a third sample in a row from T_SHUT on
is fatal. The model's choices it rests on: log entries 35, 85, 87. -/
def Obligations.PowerPlansAndThermalCap : Prop :=
  (∀ (p : BitVec 8) (s : State), s.plans.installing = some p →
    ∃ t, exec .planInstallComplete s = .next t ∧ t.plans.inForce = p ∧ t.plans.selected = s.plans.selected ∧
      t.plans.hostCap = s.plans.hostCap ∧ (s.planCalled = p → t.plans.installing = none)) ∧
  (∀ (n : Fin 83) (v : Int) (s : State), s.sensorPowered n = true → s.thermal.failed.getLsbD n.val = false →
    -320 ≤ v → v ≤ 1200 →
    (s.thermal.readings[n] = 0x8000 ∨ (v - s.thermal.readings[n].toInt).natAbs ≤ 160) →
    (s.sampleSensor n v).thermal.readings[n] = BitVec.ofInt 16 v ∧
      (s.sampleSensor n v).thermal.lastValid[n] = BitVec.ofInt 16 v ∧ ChangesOnly [.thermal] s (s.sampleSensor n v)) ∧
  (∀ (n : Fin 83) (v : Int) (s : State), s.sensorPowered n = true → s.thermal.failed.getLsbD n.val = false →
    (v < -320 ∨ 1200 < v) →
    (s.sampleSensor n v).thermal.readings[n] = 0x8000 ∧ (s.sampleSensor n v).thermal.failed.getLsbD n.val = true) ∧
  (∀ (v : Int) (s : State), s.supplied = true → s.boot.inReset = false → s.thermal.failed.getLsbD 82 = false →
    -320 ≤ v → v ≤ 1200 →
    (s.thermal.readings[(82 : Fin 83)] = 0x8000 ∨ (v - s.thermal.readings[(82 : Fin 83)].toInt).natAbs ≤ 160) →
    ∃ t, exec (.cardSensorSample v) s = .next t ∧ t.thermal.readings[(82 : Fin 83)] = BitVec.ofInt 16 v ∧
      ChangesOnly [.thermal] s t) ∧
  (∀ (l : List Int) (s u : State), s.watching = true → s.sup.power = .active →
    u = s.forEach ((List.finRange 83).filter fun n => n.val < 82) (fun n t =>
      match l[n.val]? with
      | some v => t.sampleSensor n v
      | none => t) →
    u.watching = true → u.sup.power = .active → u.dieBlind = false → u.thermal.tj ≠ 0x8000 →
    ∃ t, exec (.sensorSample l) s = .next t ∧ t.thermal.readings = u.thermal.readings ∧
      (920 ≤ u.thermal.tj.toInt → t.thermal.shut = u.thermal.shut + 1) ∧
      (u.thermal.tj.toInt < 920 → t.thermal.shut = 0) ∧
      (u.thermal.sensorCap = false → u.thermal.capped = false →
        (t.thermal.capped = true ↔ 840 ≤ u.thermal.tj.toInt)) ∧
      (u.thermal.sensorCap = false → u.thermal.capped = false → 840 ≤ u.thermal.tj.toInt →
        t.plans.thermalCap = some u.nextSlower) ∧
      (920 ≤ u.thermal.tj.toInt → 2 ≤ u.thermal.shut → t.boot.fatal = true)) ∧
  (∀ s : State, s.watching = true → s.thermal.capped = true → s.thermal.sensorCap = false →
    ∃ t, exec .stepTimer s = .next t ∧ s.thermal.stepDue ≤ t.tick ∧ t.thermal.capped = true ∧
      t.thermal.allHot = true ∧ t.thermal.stepDue = (s.reach s.thermal.stepDue).tick + 16000000 ∧
      t.plans.thermalCap = if s.thermal.allHot = true ∧ 50 < s.plans.thermalCap.getD 50 then
        some (planPower (fastestFitting (s.plans.thermalCap.getD 50 - 1))) else s.plans.thermalCap) ∧
  (∀ (due : Tick) (s : State), s.thermal.releaseDue = some due → s.watching = true → s.thermal.capped = true →
    s.thermal.sensorCap = false →
    ∃ t, exec .releaseTimer s = .next t ∧ due ≤ t.tick ∧ t.thermal.capped = false ∧ t.plans.thermalCap = none)

/-- R372, R402, R403, R498 to R500, R507, R724, R726, R730, R731, R912, R922, R927, R928, R1144: in a slot which serves
the stratum an engine starts its oldest job once none of its jobs runs; a copy which is served throughout writes its
elements and completes with the bytes moved; a delivery writes its megabyte to host memory. An idle engine takes the
oldest piece which a served channel offers it; a piece which ends frees its engine. The model's choices it rests on: log
entries 19, 20, 65, 67, 139. -/
def Obligations.EngineJobs : Prop :=
  (∀ (e : EngNo) (n : FnNo) (j : CopyJob) (s : State), s.units.copies[e].up = true →
    ((s.copies.filter fun x => x.engine == e && x.stratum == n).head?) = some j →
    (∀ x ∈ s.copies, x.engine = e → x.stratum = n → x.started = false) → s.slotServes n = true →
    ((j.srcHost || j.dstHost) = true → s.fns[n].busMaster = true) →
    ∃ t, exec (.copyJobStart e n) s = .next t ∧
      t.copies = s.copies.map (fun x => if x.id = j.id then
        { j with started := true, traversal := if j.kind == .copy && !j.transpose then j.choose else 1 } else x) ∧
      ChangesOnly [.copies, .stores] s t) ∧
  (∀ (e : EngNo) (n : FnNo) (j : CopyJob) (host : List Byte) (ws : List (Nat × List Byte)) (k : Nat) (s u : State),
    (s.copies.find? fun (x : CopyJob) => x.engine == e && x.stratum == n && x.started) = some j →
    s.slotServes n = true → ((j.srcHost || j.dstHost) = true → s.fns[n].busMaster = true) →
    s.readElements j (fun i => (host[i]?).getD 0) 0 (j.order j.traversal) = (ws, none) →
    s.writeElements j ws = (u, k, none) → j.kind ≠ .checksum →
    ∃ t, exec (.copyJobComplete e n host ⟨none, none⟩) s = .next t ∧
      t = ((({ u with copies := u.copies.filter fun x => x.id ≠ j.id } : State).modStore j.engine j.stratum
        fun _ => EngStore.empty).completeOk j.id (BitVec.ofNat 64 k) 0) ∧
      (∀ x ∈ t.copies, x.id ≠ j.id) ∧ (∀ o ∈ t.outst, o.id ≠ j.id) ∧ (t.stores[e])[n] = EngStore.empty ∧
      t.geo = u.geo ∧ t.ext = u.ext ∧ t.scratch = u.scratch) ∧
  (∀ (e : EngNo) (n : FnNo) (j : CopyJob) (host : List Byte) (ws : List (Nat × List Byte)) (s : State),
    (s.copies.find? fun (x : CopyJob) => x.engine == e && x.stratum == n && x.started) = some j →
    s.slotServes n = true → ((j.srcHost || j.dstHost) = true → s.fns[n].busMaster = true) →
    s.readElements j (fun i => (host[i]?).getD 0) 0 (j.order j.traversal) = (ws, none) → j.kind = .checksum →
    ∃ t, exec (.copyJobComplete e n host ⟨none, none⟩) s = .next t ∧
      t = ((({ s with copies := s.copies.filter fun x => x.id ≠ j.id } : State).modStore j.engine j.stratum
        fun _ => EngStore.empty).completeOk j.id (j.sum (ws.map Prod.snd).flatten)
          (BitVec.ofNat 64 (ws.length * j.esize))) ∧
      (∀ o ∈ t.outst, o.id ≠ j.id) ∧ t.geo = s.geo ∧ t.ext = s.ext ∧ t.scratch = s.scratch) ∧
  (∀ (e : EngNo) (n : FnNo) (host : List Byte) (fail : Option W64) (x : Nat × Ecc) (s : State),
    exec (.copyJobComplete e n host ⟨fail, some x⟩) s = exec (.copyJobComplete e n host ⟨fail, none⟩) (copyFound e n x s) ∧
    exec (.deliveryJobComplete ⟨e, n⟩ (some x)) s = exec (.deliveryJobComplete ⟨e, n⟩ none) (deliveryFound e n x s)) ∧
  (∀ (e : EngNo) (n : FnNo) (d : Delivery) (s : State), s.units.copies[e].up = true →
    ((s.deliveries.filter fun x => x.engine == e && x.stratum == n).head?) = some d →
    (∀ x ∈ s.deliveries, x.engine = e → x.stratum = n → x.started = false) → s.slotServes n = true →
    s.fns[n].busMaster = true →
    ∃ t, exec (.deliveryJobStart e n) s = .next t ∧
      t.deliveries = s.deliveries.map (fun x => if x.chan = d.chan ∧ x.seq = d.seq then { x with started := true } else x) ∧
      ChangesOnly [.deliveries, .stores] s t) ∧
  (∀ (e : EngNo) (n : FnNo) (d : Delivery) (s : State),
    (s.deliveries.find? fun x => x.engine == e && x.stratum == n && x.started) = some d → s.boot.linkL0 = true →
    s.slotServes n = true → s.fns[n].busMaster = true →
    ∃ t, exec (.deliveryJobComplete ⟨e, n⟩ none) s = .next t ∧
      Emit.hostWrite n (BitVec.ofNat 64 d.dst) ((List.range 0x100000).map fun i => s.slateGet n (d.src + i))
        s.fns[n].relaxed ∈ t.out ∧
      ∀ x ∈ t.deliveries, ¬ (x.chan = d.chan ∧ x.seq = d.seq)) ∧
  (∀ (e : EngNo) (s : State), s.piece e = none → s.units.slates[e].up = true →
    (∃ x ∈ s.chans, s.slotServes x.stratum = true ∧ (s.offered e x).isSome = true) →
    ∃ t x f r, exec (.pieceStart e) s = .next t ∧ x ∈ s.chans ∧ s.slotServes x.stratum = true ∧
      s.offered e x = some (f, r) ∧
      t.pieces[e] = s.pieces[e] ++ [{ chan := f.chan, seq := f.seq, first := r.1, last := r.2.1 }] ∧
      t.loaded[e] = some f.chan ∧
      (∀ y ∈ s.chans, s.slotServes y.stratum = true → ∀ g q, s.offered e y = some (g, q) → r.2.2 ≤ q.2.2) ∧
      ChangesOnly [.frames, .pieces, .loaded] s t) ∧
  (∀ (e : EngNo) (p : Piece) (s : State), s.piece e = some p → s.frame p.chan p.seq = none →
    exec (.pieceEnd e) s = .next { s with pieces := s.pieces.set e.val ((s.pieces[e]).erase p) e.isLt }) ∧
  (∀ (e : EngNo) (p : Piece) (f : Frame) (x : Chan) (s : State), s.piece e = some p → s.frame p.chan p.seq = some f →
    s.chan p.chan = some x → (∀ d ∈ s.deliveries, d.chan ≠ p.chan) →
    ∃ t, exec (.pieceEnd e) s = .next t ∧ t.pieces[e] = (s.pieces[e]).erase p ∧
      (f.stage = .conditioning → f.pieces = [] → f.cut = p.last → f.launch = none → t.frame p.chan p.seq = none))

/-- R310, R485, R680, R730: a write of a stratum's view which is served changes the bytes which its addresses lead to and
no other byte of any memory, and a byte just written is the byte which the stratum reads there. The model's choices it
rests on: log entry 22. -/
def Obligations.ViewWriteFrame : Prop :=
  (∀ (s t : State) (n : FnNo) (ws : List (Nat × Byte)), s.viewWrite n ws = (t, none) →
    (∀ a, (∀ w ∈ ws, s.locate n w.1 ≠ .geode a) → memRead 0 t.geo.mem a = memRead 0 s.geo.mem a) ∧
    (∀ (c : PhysNo) (o : Nat), (∀ w ∈ ws, s.locate n w.1 ≠ .scratch c o) →
      memRead 0 t.scratch[c] o = memRead 0 s.scratch[c] o) ∧
    (∀ o, (∀ w ∈ ws, ∀ g va, s.locate n w.1 ≠ .ext o g va) → spGet t.ext.mem o = spGet s.ext.mem o) ∧
    ChangesOnly [.geo, .scratch, .ext] s t) ∧
  (∀ (s t : State) (n : FnNo) (a : Nat) (v : Byte), s.viewWrite n [(a, v)] = (t, none) →
    t.viewRead n a = .ok v)

/-- R441, R444, R1044, R1046, R1050, R1057: the next flash command begins with its steps; an erased sector reads 0xFF and
no other byte changes; programming clears bits and no other byte changes; NV_READ writes what the region holds to host
memory; an image which passes its read-back is staged. The model's choices it rests on: log entries 79, 82. -/
def Obligations.FlashSteps : Prop :=
  (∀ (o : NvOp) (r : List NvOp) (host : List Byte) (s : State), s.nv.ops = o :: r → o.started = false →
    (o.op = 0xB0 ∨ s.gate = true) → (o.op = 0xB1 ∨ o.op = 0xB2 ∨ o.op = 0xB4 → s.fns[o.fn].busMaster = true) →
    ∃ t x, exec (.nvOperationStart host none) s = .next t ∧ t.nv.ops.head? = some x ∧ x.id = o.id ∧
      x.started = true ∧ x.data = some host ∧ x.paused = o.paused ∧
      x.steps = (s.nvSteps { o with started := true, data := some host }).1 ∧ t.nv.mem = s.nv.mem) ∧
  (∀ (o : NvOp) (r : List NvOp) (region off : Nat) (rest : List NvStep) (s : State), s.nv.ops = o :: r →
    o.steps = .erase region off :: rest → s.nvRuns = true → o.paused = none →
    ∃ t, exec .sectorEraseComplete s = .next t ∧
      ∀ a, memRead 0xFF t.nv.mem a =
        if region * 0x10000000 + off / 4096 * 4096 ≤ a ∧ a < region * 0x10000000 + off / 4096 * 4096 + 4096 then 0xFF
        else memRead 0xFF s.nv.mem a) ∧
  (∀ (o : NvOp) (r : List NvOp) (region off : Nat) (b : List Byte) (x : NvStep) (rest : List NvStep) (m : Option W32)
      (s : State), s.nv.ops = o :: r → o.steps = .program region off b :: x :: rest → s.nvRuns = true →
    o.paused = none →
    ∃ t, exec (.pageProgramComplete m) s = .next t ∧
      ∀ a, memRead 0xFF t.nv.mem a =
        if region * 0x10000000 + off ≤ a ∧ a < region * 0x10000000 + off + b.length then
          memRead 0xFF s.nv.mem a &&& (b[a - (region * 0x10000000 + off)]?).getD 0xFF
        else memRead 0xFF s.nv.mem a) ∧
  (∀ (o : NvOp) (r : List NvOp) (rest : List NvStep) (m : Option W32) (s : State), s.nv.ops = o :: r →
    o.steps = .read :: rest → s.nvRuns = true → o.started = true → o.paused = none → o.op = 0xB0 →
    s.boot.linkL0 = true →
    ∃ t, exec (.flashReadComplete m none) s = .next t ∧ t.nv.ops = r ∧ t.nv.mem = s.nv.mem ∧
      Wrote s t o.fn o.addr ((List.range o.len).map fun i => s.regionByte o.region (o.off + i))) ∧
  (∀ (o : NvOp) (r : List NvOp) (rest : List NvStep) (s : State), s.nv.ops = o :: r →
    o.steps = .read :: rest → s.nvRuns = true → o.started = true → o.paused = none → o.op = 0xB2 →
    ∃ t, exec (.flashReadComplete none none) s = .next t ∧ t.nv.ops = r ∧ t.nv.mem = s.nv.mem ∧
      t.nv.staged = (s.nv.staged || (s.imageFault (s.place o).1).isNone))

/-- R408 to R410, R628: a package which was read and passes its checks is loaded, one which does not leaves no program; a
program whose frames have their results is unloaded, and the channels which named it discard. The model's choices it
rests on: log entries 91, 92, 94. -/
def Obligations.ProgramLoading : Prop :=
  (∀ (n : FnNo) (pid id : Nat) (p : Prog) (host pkg : List Byte) (s : State),
    s.prog n pid = some p → p.loading = some id → s.fns[n].busMaster = true →
    pkg = p.header ++ ((host ++ List.replicate (hdrTotal p.header) 0).take (hdrTotal p.header)).drop 256 →
    packageFault pkg s.micaVersion = none → s.residentError n p.arena (hdrResident p.header) = none →
    ∃ t x, exec (.packageCheck n pid host none) s = .next t ∧ t.prog n pid = some x ∧ x.pkg = pkg ∧ x.loading = none ∧
      x.arena = p.arena ∧ x.unloading = p.unloading ∧ (∀ o ∈ t.outst, o.id ≠ id) ∧
      t = ((((s.placePackage n p.arena pkg (hdrResident p.header / granuleBytes)).modProg n pid fun x => { x with
          pkg, loading := none }).completeOk id
        (BitVec.ofNat 64 (p.id + 2 ^ 8 * p.variant.getD 0 +
          2 ^ 16 * (variantOf p.header (p.variant.getD 0)).clusters))
        (BitVec.ofNat 64 (dirVCount pkg (p.variant.getD 0)))).reselectProg n pid)) ∧
  (∀ (n : FnNo) (pid id : Nat) (p : Prog) (host : List Byte) (a : W64) (s : State),
    s.prog n pid = some p → p.loading = some id → s.fns[n].busMaster = true →
    ∃ t, exec (.packageCheck n pid host (some a)) s = .next t ∧ t.prog n pid = none ∧ (∀ o ∈ t.outst, o.id ≠ id) ∧
      t = (s.dropProg n pid).complete id stOutOfRange 8 0 0 (a.setWidth 192)) ∧
  (∀ (n : FnNo) (pid id o : Nat) (p : Prog) (host : List Byte) (s : State),
    s.prog n pid = some p → p.loading = some id → s.fns[n].busMaster = true →
    packageFault (p.header ++ ((host ++ List.replicate (hdrTotal p.header) 0).take (hdrTotal p.header)).drop 256)
      s.micaVersion = some o →
    ∃ t, exec (.packageCheck n pid host none) s = .next t ∧ t.prog n pid = none ∧ (∀ o ∈ t.outst, o.id ≠ id) ∧
      t = (s.dropProg n pid).complete id stImageInvalid 0 0 0 (dataInvalid o)) ∧
  (∀ (n : FnNo) (pid : Nat) (host : List Byte) (fail : Option W64) (s : State), s.fns[n].busMaster = false →
    exec (.packageCheck n pid host fail) s = .next s) ∧
  (∀ (n : FnNo) (pid id : Nat) (more : List Nat) (p : Prog) (s : State), s.prog n pid = some p →
    p.unloading = id :: more → pid ≠ 0 →
    (∀ l, p.launch = some l → ∀ f ∈ s.frames, f.owes l.serial = false) →
    ∃ t, exec (.progUnloadComplete n pid) s = .next t ∧ t.prog n pid = none ∧
      t.chans = s.chans.map (fun c => if c.stratum = n ∧ c.route.prog = pid then { c with route := Route.discard } else c) ∧
      (∀ o ∈ t.outst, o.id ≠ id ∧ o.id ∉ more) ∧
      (∀ (m : FnNo) (k : Nat), (m ≠ n ∨ k ≠ pid) → t.prog m k = s.prog m k)) ∧
  (∀ (n : FnNo) (pid : Nat) (p : Prog) (l : Launch) (f : Frame) (s : State), s.prog n pid = some p →
    p.launch = some l → f ∈ s.frames → f.owes l.serial = true →
    exec (.progUnloadComplete n pid) s = .next s)

/-- R415, R419 to R421, R424, R987: a launch whose tick is reached serves from that tick; a barrier whose conditions hold
and a wait which ends complete; host software's release frees ring entries; a result which waited is announced. The
model's choices it rests on: log entries 28, 96, 98. -/
def Obligations.LaunchesAndWaits : Prop :=
  (∀ (n : FnNo) (d : Scheduled) (x : Prog) (s : State),
    ((s.scheduled.filter fun e => e.stratum == n).find? fun d =>
      (s.scheduled.filter fun e => e.stratum == n).all fun e => decide (d.start ≤ e.start)) = some d →
    s.prog n d.prog = some x →
    ∃ t y, exec (.startTickReached n) s = .next t ∧ d.start ≤ t.tick ∧ s.tick ≤ t.tick ∧
      t.scheduled = s.scheduled.filter (fun e => e.id ≠ d.id) ∧ t.prog n d.prog = some y ∧
      y.launch = some { d.terms with serial := s.nextLaunch } ∧ t.nextLaunch = s.nextLaunch + 1 ∧
      ∀ o ∈ t.outst, o.id ≠ d.id) ∧
  (∀ (n : FnNo) (b : BarrierWait) (s : State),
    (s.barriers.find? fun b => b.stratum == n && s.barrierMet b) = some b →
    exec (.barrierComplete n) s = .next
      (({ s with barriers := s.barriers.filter fun x => x.id ≠ b.id }).completeOk b.id 0 0)) ∧
  (∀ (n : FnNo) (k : Nat) (w : EvWait) (e : Tick × Bool) (s : State),
    ((s.waits.filter fun w => w.stratum == n)[k]?) = some w → s.waitEnd w = some e →
    exec (.eventWaitComplete n k) s = .next
      (({ s.reach e.1 with waits := s.waits.filter fun x => x.id ≠ w.id }).completeOk w.id (s.reach e.1).tick
        (if e.2 then 1 else 0))) ∧
  (∀ (n : FnNo) (pid : Nat) (v : W64) (p : Prog) (l : Launch) (s : State), s.prog n pid = some p →
    p.launch = some l → v.toNat < 2 ^ l.ringLog2 →
    (v.toNat + 2 ^ l.ringLog2 - p.ring.head) % 2 ^ l.ringLog2 ≤ p.ring.unreleased → p.ring.waiting = [] →
    s.lock.area = [] →
    ∃ t, exec (.resultRingRelease n pid v) s = .next t ∧ t.prog n pid = some { p with ring := { p.ring with
      head := v.toNat
      unreleased := p.ring.unreleased - (v.toNat + 2 ^ l.ringLog2 - p.ring.head) % 2 ^ l.ringLog2 } }) ∧
  (∀ (n : FnNo) (pid : Nat) (p : Prog) (l : Launch) (s : State), s.prog n pid = some p → p.launch = some l →
    l.vector ≠ 0 → p.ring.unannounced ≠ 0 →
    ∃ t, exec (.resultAnnounceTimeout n pid) s = .next t ∧
      t.prog n pid = some { p with ring := { p.ring with unannounced := 0 } } ∧ s.tick ≤ t.tick ∧
      p.ring.oldest + 80000 ≤ t.tick ∧
      (s.fns[n].busMaster = true → s.fns[n].functionMask = false →
        s.fns[n].msix[(Fin.ofNat 64 l.vector : Fin 64)].masked = false → s.boot.linkL0 = true →
        ∃ a d, Emit.msix n (l.vector % 64) a d ∈ t.out))

/-- R298, R412, R665, R667, R672: an image which was read and passes its checks is in its slot, and the load completes;
one which fails leaves the slot as it was. The model's choices it rests on: log entries 92, 111. -/
def Obligations.SlotImages : Prop :=
  (∀ (n : FnNo) (k : Fin 8) (host : List Byte) (x : SlotLoad) (s : State),
    (s.tableLoads.find? fun x => x.stratum == n && x.slot == k.val) = some x → s.fns[n].busMaster = true →
    (s.priorKept n fun f => f.tables[k] != (s.tables[n])[k]) = false →
    tableFault (x.arg == 1) (loadBytes tableBytes host) = none →
    ∃ t, exec (.tableImageCheck n k host none) s = .next t ∧
      (t.tables[n])[k] = { image := loadBytes tableBytes host, monotone := x.arg == 1 } ∧
      (∀ (m : FnNo) (j : Fin 8), (m ≠ n ∨ j ≠ k) → (t.tables[m])[j] = (s.tables[m])[j]) ∧
      t.tableLoads = s.tableLoads.filter (fun y => y != x) ∧ ∀ o ∈ t.outst, o.id ≠ x.id) ∧
  (∀ (n : FnNo) (k : Fin 8) (host : List Byte) (x : SlotLoad) (off : Nat) (s : State),
    (s.tableLoads.find? fun x => x.stratum == n && x.slot == k.val) = some x → s.fns[n].busMaster = true →
    (s.priorKept n fun f => f.tables[k] != (s.tables[n])[k]) = false →
    tableFault (x.arg == 1) (loadBytes tableBytes host) = some off →
    ∃ t, exec (.tableImageCheck n k host none) s = .next t ∧ t.tables = s.tables ∧
      t.tableLoads = s.tableLoads.filter (fun y => y != x) ∧ ∀ o ∈ t.outst, o.id ≠ x.id) ∧
  (∀ (n : FnNo) (k : Fin 8) (host : List Byte) (x : SlotLoad) (s : State),
    (s.mprogLoads.find? fun x => x.stratum == n && x.slot == k.val) = some x → s.fns[n].busMaster = true →
    (s.priorKept n fun f => f.mprogs[k] != (s.mprogs[n])[k]) = false →
    mprogFault x.arg (loadBytes mprogBytes host) = none →
    ∃ t, exec (.microprogImageCheck n k host none) s = .next t ∧
      (t.mprogs[n])[k] = loadBytes mprogBytes host ∧
      (∀ (m : FnNo) (j : Fin 8), (m ≠ n ∨ j ≠ k) → (t.mprogs[m])[j] = (s.mprogs[m])[j]) ∧
      t.mprogLoads = s.mprogLoads.filter (fun y => y != x) ∧ ∀ o ∈ t.outst, o.id ≠ x.id) ∧
  (∀ (n : FnNo) (k : Fin 8) (host : List Byte) (x : SlotLoad) (off : Nat) (s : State),
    (s.mprogLoads.find? fun x => x.stratum == n && x.slot == k.val) = some x → s.fns[n].busMaster = true →
    (s.priorKept n fun f => f.mprogs[k] != (s.mprogs[n])[k]) = false →
    mprogFault x.arg (loadBytes mprogBytes host) = some off →
    ∃ t, exec (.microprogImageCheck n k host none) s = .next t ∧ t.mprogs = s.mprogs ∧
      t.mprogLoads = s.mprogLoads.filter (fun y => y != x) ∧ ∀ o ∈ t.outst, o.id ≠ x.id)

/-! ### Units and the mapping -/

/-- R127, R431, R433, R439, R440, R1031: a drain which ends is followed by the unit's CUT and its command's completion; a
self-test which ends completes every command which waits for it; the oldest FAULT_LOG_READ completes. The model's
choices it rests on: log entries 68, 76, 77. -/
def Obligations.ServiceCompletions : Prop :=
  (∀ (w : W16) (u : Unit_) (d : Nat × Tick) (s : State), unitOf w = some u → (s.unitSt u).draining = some d →
    (s.working u = true → 800000 ≤ s.tick - d.2) →
    ∃ t, exec (.drainEnd w) s = .next t ∧ (t.unitSt u).draining = none ∧
      (t.unitSt u).own = (s.unitSt u).own + 1 ∧ (∀ o ∈ t.outst, o.id ≠ d.1) ∧
      t = (((s.modUnit u fun x => { x with draining := none }).cutStep u (decide (s.tick - d.2 < 800000))).1.completeOk d.1
        ((s.modUnit u fun x => { x with draining := none }).cutStep u (decide (s.tick - d.2 < 800000))).2 0)) ∧
  (∀ (w : W16) (u : Unit_) (d : Nat × Tick) (s : State), unitOf w = some u → (s.unitSt u).draining = some d →
    s.working u = true → s.tick - d.2 < 800000 → exec (.drainEnd w) s = .next s) ∧
  (∀ (w code : W16) (u : Unit_) (s : State), unitOf w = some u →
    (∀ l, u = .lane l → s.ports[portOf l].st = .active) → (s.unitSt u).testing ≠ [] →
    ∃ t, exec (.unitSelftestComplete w code) s = .next t ∧ (t.unitSt u).testing = [] ∧
      (t.unitSt u).passed = ((s.unitSt u).passed || (code == 0 && !(s.unitSt u).up)) ∧
      (t.unitSt u).fenced = (s.unitSt u).fenced ∧ (t.unitSt u).retired = (s.unitSt u).retired ∧
      ∀ o ∈ t.outst, o.id ∉ (s.unitSt u).testing) ∧
  (∀ (w code : W16) (l : LaneNo) (s : State), unitOf w = some (.lane l) → s.ports[portOf l].st ≠ .active →
    s.units.lanes[l].testing ≠ [] →
    ∃ t, exec (.unitSelftestComplete w code) s = .next t ∧ t.units.lanes[l] = { s.units.lanes[l] with testing := [] } ∧
      t.lanes[l] = { s.lanes[l] with rejoin := true } ∧ ∀ o ∈ t.outst, o.id ∉ s.units.lanes[l].testing) ∧
  (∀ (x : LogRead) (r : List LogRead) (fail : Option W64) (s : State), s.logReads = x :: r →
    ∃ t, exec (.faultLogReadComplete fail) s = .next t ∧ t.logReads = r ∧ t.faults = s.faults ∧
      ∀ o ∈ t.outst, o.id ≠ x.id)

/-- R136, R1007, R1010, R1036, R92, R139, R803, R1010: a unit in service which is not a lane is fenced and retired when it
faults, when a request stays open too long, or when it sends a malformed reply; a reply of an earlier epoch changes
nothing. a PLL out of lock fences the units which it feeds; those not retired since are back when it relocks, and are
retired when it does not; with the Poica reference lost no port is ACTIVE. The model's choices it rests on: log
entries 54, 73. -/
def Obligations.UnitAndClockFaults : Prop :=
  (∀ (w : W16) (u : Unit_) (cause : BitVec 8) (detail : BitVec 224) (s : State), unitOf w = some u →
    (∀ l, u ≠ .lane l) → (s.unitSt u).up = true →
    ∃ t, exec (.unitFault w cause detail) s = .next t ∧ (t.unitSt u).fenced = true ∧ (t.unitSt u).retired = true) ∧
  (∀ (w : W16) (u : Unit_) (s : State), unitOf w = some u → (∀ l, u ≠ .lane l) → (s.unitSt u).up = true →
    ∃ t, exec (.requestOpenTimeout w) s = .next t ∧ (t.unitSt u).fenced = true ∧ (t.unitSt u).retired = true) ∧
  (∀ (w : W16) (u : Unit_) (q : Option W16) (k : Nat) (s : State), unitOf w = some u → (∀ l, u ≠ .lane l) → (s.unitSt u).up = true →
    s.epochAt u q ≤ k →
    ∃ t, exec (.malformedReply w ⟨q, k⟩) s = .next t ∧ (t.unitSt u).fenced = true ∧ (t.unitSt u).retired = true) ∧
  (∀ (w : W16) (u : Unit_) (q : Option W16) (k : Nat) (s : State), unitOf w = some u → k < s.epochAt u q →
    exec (.malformedReply w ⟨q, k⟩) s = .next s) ∧
  (∀ (k : Nat) (s : State), 1 ≤ k → k ≤ 10 → (∀ x ∈ s.boot.pllOut, x.1 ≠ k) →
    ∃ t, exec (.pllOutOfLock k) s = .next t ∧ (∀ u ∈ fedBy k, (s.unitSt u).up = true → (t.unitSt u).fenced = true) ∧
      t.boot.pllOut = s.boot.pllOut ++ [(k, ((fedBy k).filter fun u => (s.unitSt u).up).map (·.code))]) ∧
  (∀ (k : Nat) (s : State), (∃ x ∈ s.boot.pllOut, x.1 = k) →
    ∃ t, exec (.pllRelocked k) s = .next t ∧ (∀ u ∈ s.heldBy k, (t.unitSt u).fenced = false) ∧
      t.boot.pllOut = s.boot.pllOut.filter (fun x => x.1 != k)) ∧
  (∀ (k : Nat) (s : State), (∃ x ∈ s.boot.pllOut, x.1 = k) →
    ∃ t, exec (.pllRelockTimeout k) s = .next t ∧ (∀ u ∈ s.heldBy k, (t.unitSt u).retired = true) ∧
      t.boot.pllOut = s.boot.pllOut.filter (fun x => x.1 != k)) ∧
  (∀ (pll : Bool) (s : State), s.boot.poicaLost = false →
    ∃ t, exec (.poicaReferenceLost pll) s = .next t ∧ t.boot.poicaLost = true ∧
      (∀ p : PortNo, s.units.ports[p].up = true → t.units.ports[p].fenced = true) ∧
      ∀ p : PortNo, t.ports[p].st ≠ .active)

/-- R437, R1016 to R1026, R771: a lost logical cluster is carried by its spare, or by none when there is none; an unmapped
one is restored to a spare; a remap moves the scratch memory with the logical cluster and zeroes what it leaves;
external memory which was reconfigured serves again. The model's choices it rests on: log entries 74, 75. -/
def Obligations.ClusterMapping : Prop :=
  (∀ (x : LogNo × PhysNo × Nat × Nat) (r : List (LogNo × PhysNo × Nat × Nat)) (c : PhysNo) (s : State),
    s.toReplace = x :: r → ({ s with toReplace := r } : State).spareFor x.1 = some c →
    ∃ t, exec .spareReplacement s = .next t ∧ t.mapping[x.1] = some c ∧ t.toReplace = r ∧ t.scratch[c] = [] ∧
      ∀ l : LogNo, l ≠ x.1 → t.mapping[l] = s.mapping[l]) ∧
  (∀ (x : LogNo × PhysNo × Nat × Nat) (r : List (LogNo × PhysNo × Nat × Nat)) (s : State),
    s.toReplace = x :: r → ({ s with toReplace := r } : State).spareFor x.1 = none →
    ∃ t, exec .spareReplacement s = .next t ∧ t.mapping[x.1] = none ∧ t.toReplace = r ∧
      ∀ l : LogNo, l ≠ x.1 → t.mapping[l] = s.mapping[l]) ∧
  (∀ (l : LogNo) (c : PhysNo) (s : State), s.boot.phase = phReady →
    (s.unmapped fun n => !s.progs.any fun (p : Prog) => p.stratum == n && p.launch.isSome) = some l → s.spareFor l = some c →
    ∃ t, exec .restoration s = .next t ∧ t.mapping[l] = some c ∧ t.scratch[c] = [] ∧
      ∀ k : LogNo, k ≠ l → t.mapping[k] = s.mapping[k]) ∧
  (∀ (x : Nat × LogNo × PhysNo) (old : PhysNo) (s : State),
    (s.remaps.find? fun y => !s.runs.any fun r => r.stratum == s.holder y.2.1) = some x → s.mapping[x.2.1] = some old →
    x.2.2 ∈ s.spareSet → old ≠ x.2.2 →
    ∃ t, exec .clusterRemapSwitch s = .next t ∧ t.mapping[x.2.1] = some x.2.2 ∧ t.scratch[x.2.2] = s.scratch[old] ∧
      t.scratch[old] = [] ∧ t.clusters[old] = Cluster.fresh ∧
      t.remaps = s.remaps.filter (fun y => y.1 != x.1) ∧ (∀ l : LogNo, l ≠ x.2.1 → t.mapping[l] = s.mapping[l]) ∧
      ∀ o ∈ t.outst, o.id ≠ x.1) ∧
  (∀ s : State, s.ext.reinit = true →
    ∃ t, exec .extReinitComplete s = .next t ∧ t.ext = { s.ext with reinit := false } ∧
      ChangesOnly [.ext, .slots] s t)

/-! ### The panel -/

/-- R448, R1070 to R1078: a refresh which starts stores its image in the other PANEL_STORE slot and is journalled; its
phases follow one another; the last one completes it, counts it and raises PANEL; one which is to stop ends at the
boundary and is redrawn. The model's choices it rests on: log entry 84. -/
def Obligations.PanelRefresh : Prop :=
  (∀ s : State, s.panel.refresh = none → s.nvRuns = true → s.panel.redraw = none → s.gate = true →
    (∃ d ∈ s.panel.draws, d.carried = false) →
    ∃ t r, exec .panelRefreshStart s = .next t ∧ t.panel.refresh = some r ∧ r.opcode = 1 ∧ r.phases = 0 ∧ r.stop = false ∧
      r.slot = 1 - s.panel.lastSlot ∧ t.panel.lastSlot = r.slot ∧ t.panel.pixels = s.carryDraws.panel.pixels ∧
      (∀ d ∈ t.panel.draws, d.carried = true) ∧ (∃ e ∈ t.nv.journal, e.seq = r.entry ∧ e.kind = 2 ∧ e.done = 0xFF)) ∧
  (∀ (since : Tick) (s : State), s.panel.changed = some since → s.panel.refresh = none → s.nvRuns = true →
    s.panel.redraw = none → s.gate = true → (∀ d ∈ s.panel.draws, d.carried = true) →
    ∃ t r, exec .identityChangeTimer s = .next t ∧ t.panel.refresh = some r ∧ r.opcode = 2 ∧
      t.panel.pixels = s.panel.pixels ∧ t.panel.changed = none ∧ since + 8000000000 ≤ t.tick) ∧
  (∀ (r : Refresh) (s : State), s.panel.refresh = some r → s.nvRuns = true → r.stop = false → r.phases + 1 < 8 →
    exec .waveformPhaseEnd s = .next
      (({ s with panel := { s.panel with refresh := some { r with phases := r.phases + 1 } } }).emit
        (.panel (r.phases + 1)))) ∧
  (∀ (r : Refresh) (s : State), s.panel.refresh = some r → s.nvRuns = true → r.stop = false → r.phases = 7 →
    ∃ t, exec .waveformPhaseEnd s = .next t ∧ t.panel.refresh = none ∧ t.panel.count = s.panel.count + 1 ∧
      t.panel.glyph = (r.opcode == 3) ∧ t.panel.draws = s.panel.draws.filter (fun d => !d.carried) ∧
      t.fns[0].intCause.getLsbD 9 = true ∧ (∀ e ∈ t.nv.journal, e.seq = r.entry → e.done = 0) ∧
      ∀ d ∈ s.panel.draws, d.carried = true → ∀ o ∈ t.outst, o.id ≠ d.id) ∧
  (∀ (r : Refresh) (s : State), s.panel.refresh = some r → s.nvRuns = true → r.stop = true →
    ∃ t, exec .waveformPhaseEnd s = .next t ∧ t.panel.refresh = none ∧ t.panel.redraw = some r.entry ∧
      t.panel.pending = true ∧ t.panel.count = s.panel.count ∧ t.fns[0].intCause.getLsbD 9 = true ∧
      ∀ e ∈ t.nv.journal, e.seq = r.entry → e.done = 0x5A)

/-! ### Supplies -/

/-- R50, R51, R54, R59, R86 to R89: a comparator which trips is recorded with what the monitor measures; with VIN_MAIN low
and VIN_AUX not, a switch begins with the fast throttle and the 70 W cap; a switch which completes is recorded, and
SUPPLY is raised. The model's choices it rests on: log entries 36, 37. -/
def Obligations.SupplySwitching : Prop :=
  (∀ (v : Volts) (s : State), s.supplied = true → v.main < 1020 → s.sup.onAux = false → s.sup.auxLow = false →
    s.sup.switching = none →
    ∃ t, exec (.vinMainLow v) s = .next t ∧ t.sup.mainLow = true ∧ t.sup.switching = some true ∧
      t.sup.cap70 = true ∧ t.sup.vinMain = v.main ∧ t.sup.vinAux = v.aux ∧ t.effectiveCap ≤ 70) ∧
  (∀ (v : Volts) (s : State), s.supplied = true → v.main < 1020 → s.sup.switching.isSome = true →
    exec (.vinMainLow v) s = .next { s with sup := { s.sup with
      vinMain := v.main, vinAux := v.aux, charge := min 100 v.charge, mainQual := s.sup.mainQual && decide (1080 ≤ v.main)
      mainLow := true } }) ∧
  (∀ (v : Volts) (s : State), s.supplied = true → 1050 < v.main → s.sup.switching.isSome = true →
    exec (.vinMainNotLow v) s = .next { s with sup := { s.sup with
      vinMain := v.main, vinAux := v.aux, charge := min 100 v.charge, mainQual := s.sup.mainQual && decide (1080 ≤ v.main)
      mainLow := false } }) ∧
  (∀ (v : Volts) (s : State), s.supplied = true → v.aux < 1020 → s.sup.switching.isSome = true →
    exec (.vinAuxLow v) s = .next { s with sup := { s.sup with
      vinMain := v.main, vinAux := v.aux, charge := min 100 v.charge, mainQual := s.sup.mainQual && decide (1080 ≤ v.main)
      auxLow := true } }) ∧
  (∀ (v : Volts) (s : State), s.supplied = true → 1050 < v.aux → s.sup.switching.isSome = true →
    exec (.vinAuxNotLow v) s = .next { s with sup := { s.sup with
      vinMain := v.main, vinAux := v.aux, charge := min 100 v.charge, mainQual := s.sup.mainQual && decide (1080 ≤ v.main)
      auxLow := false } }) ∧
  (∀ (aux : Bool) (v : Volts) (s : State), s.supplied = true → s.sup.switching = some aux →
    ∃ t, exec (.switchComplete v) s = .next t ∧ t.sup.onAux = aux ∧ t.sup.switched = true ∧
      t.fns[0].intCause.getLsbD 8 = true ∧ t.faults.next = s.faults.next + 1) ∧
  (∀ (v : Volts) (s : State), s.supplied = true → 1080 ≤ v.main →
    ∃ t, exec (.vinMainQualified v) s = .next t ∧ t.sup.power = .active ∧ t.sup.mainQual = true ∧ t.sup.mainLow = false) ∧
  (∀ (v : Volts) (s : State), s.sup.power = .holdup →
    (v.main < 1020 → exec (.vinMainLow v) s = .next { s.measure v with sup := { (s.measure v).sup with mainLow := true } }) ∧
    (1050 < v.main → exec (.vinMainNotLow v) s = .next { s.measure v with sup := { (s.measure v).sup with mainLow := false } }) ∧
    (v.aux < 1020 → exec (.vinAuxLow v) s = .next { s.measure v with sup := { (s.measure v).sup with auxLow := true } }) ∧
    (1050 < v.aux → exec (.vinAuxNotLow v) s = .next { s.measure v with sup := { (s.measure v).sup with auxLow := false } }) ∧
    (1080 ≤ v.main → exec (.vinMainQualified v) s =
      .next { s.measure v with sup := { (s.measure v).sup with mainQual := true, mainLow := false } }))

/-- R72, R73, R81, R82, R1122, R1146: with both inputs lost, or the bank low in a sag, the module enters HOLDUP: nothing
is outstanding, the link is down, every function's registers are at reset and the strata's keys are destroyed (R494); the sequence ends in OFF, or in a power-
on reset when an input is back; in OFF an input which rises brings one. The model's choices it rests on: log entries
36, 38. -/
def Obligations.HoldupAndPowerOn : Prop :=
  (∀ (v : Volts) (s : State), s.supplied = true → v.main < 900 → v.aux < 900 →
    ∃ t, exec (.vinLoss v) s = .next t ∧ t.sup.power = .holdup ∧ t.sup.holdupTick = s.tick ∧ t.boot.linkL0 = false ∧
      t.outst = [] ∧ t.frames = [] ∧ t.runs = [] ∧ t.chans = [] ∧ t.fns = Vector.ofFn Func.reset ∧
      (∀ n : FnNo, t.strata[n].key = none)) ∧
  (∀ (v : Volts) (s : State), s.supplied = true → (if s.sup.onAux then v.aux else v.main) < 1000 → v.charge ≤ 20 →
    ∃ t, exec (.bankChargeLow v) s = .next t ∧ t.sup.power = .holdup ∧ t.boot.linkL0 = false) ∧
  (∀ (v : Volts) (s : State), s.sup.power = .holdup → v.main ≤ 1050 → v.aux ≤ 1050 →
    ∃ t, exec (.holdupSequenceComplete v) s = .next t ∧ t.sup.power = .off ∧ t.nv.ops = []) ∧
  (∀ (v : Volts) (s : State), s.sup.power = .holdup → (1050 < v.main ∨ 1050 < v.aux) →
    ∃ t, exec (.holdupSequenceComplete v) s = .next t ∧ t.sup.power ≠ .off ∧ t.sup.power ≠ .holdup ∧ t.tick = 0 ∧
      t.boot.resetCause ∈ [1, 2, 6]) ∧
  (∀ (n : Nat) (v : Volts) (s : State), s.sup.power = .holdup → v.main ≤ 1050 → v.aux ≤ 1050 →
    ∃ t, exec (.bankEnergyExhausted n v) s = .next t ∧ t.sup.power = .off ∧ t.nv.ops = []) ∧
  (∀ (v : Volts) (s : State), s.sup.power = .off → (1050 < v.main ∨ 1050 < v.aux) →
    ∃ t, exec (.inputRise v) s = .next t ∧ (t.sup.power = .standby ∨ t.sup.power = .active) ∧ t.tick = 0 ∧
      t.boot.linkL0 = false ∧ t.boot.resetCause ∈ [0, 2, 6])

/-- R69, R76, R77, R79, R83, R84, R87: a sag begins and ends as the active source crosses V_SAG; a gate which opens
commits the records which waited and resumes the flash command which was paused; one which stays shut for ten seconds
ends it; a bank which does not charge is reported, and HIF_SUPPLY_STATUS shows what was measured. The model's choices
it rests on: log entry 36. -/
def Obligations.SagsAndGate : Prop :=
  (∀ (v : Volts) (s : State), s.supplied = true → s.sup.sag = none → (if s.sup.onAux then v.aux else v.main) < 1000 →
    20 < v.charge → ∃ t, exec (.sagBegin v) s = .next t ∧ t.sup.sag = some s.tick ∧ t.sup.power = s.sup.power ∧
      (∀ r, t.panel.refresh = some r → r.stop = true)) ∧
  (∀ (v : Volts) (since : Tick) (s : State), s.supplied = true → s.sup.sag = some since →
    1000 ≤ (if s.sup.onAux then v.aux else v.main) →
    ∃ t, exec (.sagEnd v) s = .next t ∧ t.sup.sag = none ∧ ChangesOnly [.sup, .fns, .out, .waits] s t) ∧
  (∀ (v : Volts) (s : State), s.supplied = true → (s.measure v).gate = true → s.boot.inReset = false →
    ∃ t, exec (.supplyGateOpen v) s = .next t ∧ t.faults.held = [] ∧ t.nv.reerase = [] ∧
      ∀ o, t.nv.ops.head? = some o → o.paused = none) ∧
  (∀ (o : NvOp) (r : List NvOp) (since : Tick) (s : State), s.gate = false → s.supplied = true →
    s.boot.inReset = false → s.nv.ops = o :: r → o.paused = some since → s.panel.draws = [] →
    ∃ t, exec .supplyGatePauseTimeout s = .next t ∧ (∀ x ∈ t.nv.ops, x.id ≠ o.id) ∧ (∀ x ∈ t.outst, x.id ≠ o.id) ∧
      since + 8000000000 ≤ t.tick) ∧
  (∀ (v : Volts) (s : State), s.supplied = true → s.sup.holdupFault = false →
    1100 ≤ (if s.sup.onAux then v.aux else v.main) → v.charge < 90 →
    ∃ t, exec (.holdupFault v) s = .next t ∧ t.sup.holdupFault = true ∧ t.faults.next = s.faults.next + 1) ∧
  (∀ (v : Volts) (s : State), s.supplied = true →
    ∃ t, exec (.supplyStatusRefresh v) s = .next t ∧ t.sup.shown = (s.measure v).supplyFields ∧
      t.sup.shown.getLsbD 12 = false ∧ t.sup.power = s.sup.power ∧ t.sup.switched = s.sup.switched ∧
      ChangesOnly [.sup] s t)

/-! ### Start-up and resets -/

/-- R144 to R149, R158 to R175: each phase of start-up is followed by the one which the rules give, with what its test
found: a unit which fails is retired, and MAPPING ends in READY or FAILED. The model's choices it rests on: log
entries 35, 47, 48. -/
def Obligations.StartupPhases : Prop :=
  (∀ s : State, s.starting 1 = true → s.boot.image ≠ 0xFF →
    ∃ t, exec .imageBootTimeout s = .next t ∧ t.boot.phase = 1 ∧ t.faults.next = s.faults.next + 1 ∧
      (s.boot.image = 0 → t.boot.abandonedA = true ∧ t.boot.image ≠ 0) ∧
      (s.boot.image = 1 → t.boot.abandonedB = true ∧ t.boot.image ≠ 1)) ∧
  (∀ (m l : Bool) (s : State), s.starting 1 = true →
    ∃ t, exec (.supervisorBootEnd none m l) s = .next t ∧ t.boot.phase = 2 ∧ t.boot.fatal = false ∧
      t.sup.monitorFailed = (s.sup.monitorFailed || !m)) ∧
  (∀ (a b : W32) (m l : Bool) (s : State), s.starting 1 = true →
    ∃ t, exec (.supervisorBootEnd (some (a, b)) m l) s = .next t ∧ t.boot.phase = 0xC ∧ t.boot.fatal = true ∧
      t.boot.fatalLog[3] = a ∧ t.boot.fatalLog[4] = b) ∧
  (∀ s : State, s.starting 2 = true →
    ∃ t, exec .aonCheckEnd s = .next t ∧ t.boot.phase = (if s.sup.power ≠ .active then 3
      else if s.boot.image = 0xFF then 0xA else 4)) ∧
  (∀ s : State, s.starting 4 = true →
    ∃ t, exec .clockStartEnd s = .next t ∧ t.boot.phase = 5 ∧ t.plans.inForce = s.planCalled) ∧
  (∀ (failed : List BankNo) (s : State), s.starting 5 = true →
    ∃ t, exec (.geodeTestEnd failed) s = .next t ∧ t.boot.phase = 6 ∧ t.geo = Geode.fresh ∧ t.boot.rounds = 0 ∧
      ∀ b ∈ failed, t.units.banks[b].retired = true) ∧
  (∀ (failed : List PhysNo) (s : State), s.starting 6 = true → s.boot.rounds < 9 →
    ∃ t, exec (.clusterRoundEnd failed) s = .next t ∧ t.boot.rounds = s.boot.rounds + 1 ∧
      t.boot.phase = (if s.boot.rounds = 8 ∧ s.boot.lpddrDone = true then 7 else 6) ∧
      ∀ c ∈ failed, c.val / 8 = s.boot.rounds → t.units.clusters[c].retired = true) ∧
  (∀ (failed : List ExtNo) (s : State), s.starting 6 = true → s.boot.lpddrDone = false →
    ∃ t, exec (.lpddrTrainingEnd failed) s = .next t ∧ t.boot.lpddrDone = true ∧
      t.boot.phase = (if s.boot.rounds = 9 then 7 else 6) ∧
      ∀ c ∈ failed, t.units.exts[c].retired = true ∧ c ∉ t.ext.order) ∧
  (∀ s : State, s.starting 7 = true →
    ∃ t, exec .mapping s = .next t ∧ t.boot.phase = (if s.startFail = 0 then 8 else 0xB) ∧
      t.boot.fail = s.startFail ∧ t.mapping = s.buildMapping.mapping ∧
      ∀ n : FnNo, t.fns[n].intCause.getLsbD 10 = true)

/-- R112, R116 to R121, R178, R179, R187, R1128, R1141: a host reset after READY is followed by SCRUB, leaves no stratum
but 0 and no queue pair running, and SCRUB ends in READY; a module reset is latched by MOD_RESET_N or TEST_EN,
applied, and followed by SUPERVISOR_BOOT unless a pin holds it. The model's choices it rests on: log entries 40, 42,
43, 44. -/
def Obligations.HostAndModuleResets : Prop :=
  (∀ s : State, s.starting 9 = true → ∃ t, exec .scrubComplete s = .next t ∧ t.boot.phase = 8) ∧
  (∀ s : State, s.supplied = true → s.boot.inReset = false → s.boot.fatal = false → s.boot.phase = 8 →
    s.boot.perst = false →
    ∃ t, exec .perstAssert s = .next t ∧ t.boot.phase = 9 ∧ t.boot.perst = true ∧ t.boot.linkL0 = false ∧
      t.boot.resetCause = 3 ∧ t.outst = [] ∧ (∀ n : FnNo, n ≠ 0 → t.strata[n] = Stratum.none) ∧ t.geo = Geode.fresh ∧
      ∀ (n : FnNo) (qp : QpNo), t.fns[n].qps[qp].running = false) ∧
  (∀ s : State, s.supplied = true → s.boot.inReset = false → s.boot.fatal = true → s.boot.phase = 8 →
    s.boot.perst = false →
    ∃ t, exec .perstAssert s = .next t ∧ t.boot.phase = 8 ∧ t.boot.fatal = true ∧ t.boot.resetCause = 3 ∧ t.outst = [] ∧
      t.plans.hostCap = 175 ∧ t.plans.selected = 1 ∧ ∀ n : FnNo, n ≠ 0 → t.strata[n] = Stratum.none) ∧
  (∀ s : State, ∃ t, exec .perstDeassert s = .next t ∧ t = { s with boot := { s.boot with perst := false } }) ∧
  (∀ s : State, s.sup.power = .active → s.boot.inReset = false → s.boot.fatal = false → s.boot.phase = 8 →
    ∃ t, exec .pcieReferenceLost s = .next t ∧ t.boot.phase = 9 ∧ t.boot.resetCause = 5 ∧ t.boot.linkL0 = false) ∧
  (∀ s : State, s.configReady = true → s.boot.fatal = false → s.boot.phase = 8 →
    ∃ t, exec .flrPf s = .next t ∧ t.boot.phase = 9 ∧ t.boot.resetCause = 4) ∧
  (∀ s : State, s.configReady = true → s.boot.fatal = false → s.boot.phase = 8 → s.boot.d3hot = true →
    ∃ t, exec .d3hotToD0 s = .next t ∧ t.boot.phase = 9 ∧ t.boot.resetCause = 7 ∧ t.boot.d3hot = false) ∧
  (∀ s : State, s.configReady = true → exec .d0ToD3hot s = .next { s with boot := { s.boot with d3hot := true } }) ∧
  (∀ s : State, s.supplied = true → s.boot.inReset = false → s.boot.resetPending = false →
    ∃ t, exec .modResetN s = .next t ∧ t.boot.modResetLow = true ∧ t.boot.resetPending = true ∧
      t.boot.pendingCause = 2 ∧ t.boot.linkL0 = false ∧ t.outst = [] ∧ t.nv.ops = []) ∧
  (∀ s : State, s.boot.inReset = true → s.boot.resetCause ≠ 2 →
    ∃ t, exec .modResetN s = .next t ∧ t.boot.modResetLow = true ∧ t.boot.resetCause = 2 ∧
      t.faults.next = s.faults.next + 1) ∧
  (∀ s : State, s.supplied = true → s.boot.inReset = false → s.boot.resetPending = false →
    ∃ t, exec .testEn s = .next t ∧ t.boot.testEn = true ∧ t.boot.resetPending = true ∧
      t.boot.pendingCause = 6 ∧ t.boot.linkL0 = false ∧ t.outst = [] ∧ t.nv.ops = []) ∧
  (∀ s : State, s.supplied = true → s.boot.resetPending = true →
    ∃ t, exec .moduleReset s = .next t ∧ t.boot.resetPending = false ∧ t.boot.fatal = false ∧ t.boot.phase = 1 ∧
      t.boot.resetCause = (if s.boot.modResetLow then 2 else s.boot.pendingCause) ∧
      t.boot.inReset = (s.boot.modResetLow || s.boot.testEn) ∧ t.boot.fatalLog = s.boot.fatalLog ∧
      t.fns = Vector.ofFn Func.reset ∧ t.geo = Geode.fresh ∧ ∀ n : FnNo, n ≠ 0 → t.strata[n] = Stratum.none) ∧
  (∀ s : State, s.boot.inReset = true → s.boot.testEn = false →
    ∃ t, exec .modResetNRise s = .next t ∧ t.boot.modResetLow = false ∧ t.boot.inReset = false ∧ t.boot.phase = 1) ∧
  (∀ s : State, s.boot.inReset = true → s.boot.modResetLow = false →
    ∃ t, exec .testEnLow s = .next t ∧ t.boot.testEn = false ∧ t.boot.inReset = false ∧ t.boot.phase = 1)

/-- R82, R112, R114, R115, R149, R150, R183, R194, R1142, R1144: the PCIe link comes up when the endpoint can train and
goes down; configuration requests answer CRS until the module is configuration-ready, and then the field which is read;
a function reset leaves the function's queue pairs at reset with nothing outstanding and none of its programs launched; a
VF which is disabled is gone; a function given Bus Master Enable sends what waited for it. The model's choices it rests
on: log entries 50, 51. -/
def Obligations.LinkAndFunctions : Prop :=
  (∀ s : State, s.linkable = true → exec .linkL0 s = .next { s with boot := { s.boot with linkL0 := true } }) ∧
  (∀ s : State, exec .pcieLinkDown s = .next { s with boot := { s.boot with linkL0 := false } }) ∧
  (∀ (fn : FnNo) (req : ConfigReq) (s : State), s.boot.linkL0 = true → s.configReady = false →
    exec (.configRequest fn req) s = .next { s with out := s.out ++ [.configAnswer fn true none] }) ∧
  (∀ (fn : FnNo) (f : CfgField) (s : State), s.present fn = true → s.configReady = true →
    exec (.configRequest fn (.read f)) s = .next { s with
      out := s.out ++ [.configAnswer fn false (some (BitVec.ofNat 64 (s.configField fn f)))] } ∧
    s.configField fn .vendorId = 0xC4E7 ∧ s.configField fn .deviceId = (if fn = 0 then 0x4820 else 0x4821) ∧
    s.configField fn .classCode = 0x120000 ∧ s.configField fn .subsystemId = (if s.order32 then 0x0032 else 0x0016)) ∧
  (∀ (fn : FnNo) (on : Bool) (s : State), s.present fn = true → s.configReady = true →
    ∃ t, exec (.configRequest fn (.memSpace on)) s = .next t ∧ t.fns[fn] = { s.fns[fn] with memSpace := on } ∧
      t.out = s.out ++ [.configAnswer fn false none] ∧ ChangesOnly [.fns, .out] s t) ∧
  (∀ (fn : FnNo) (on : Bool) (s : State), s.present fn = true → s.configReady = true →
    ∃ t, exec (.configRequest fn (.relaxedOrdering on)) s = .next t ∧ t.fns[fn] = { s.fns[fn] with relaxed := on } ∧
      t.out = s.out ++ [.configAnswer fn false none] ∧ ChangesOnly [.fns, .out] s t) ∧
  (∀ (n : Nat) (s : State), s.configReady = true → s.boot.fatal = false → 1 ≤ n → n ≤ 15 → s.boot.numVfs ≤ n →
    ∃ t, exec (.configRequest 0 (.vfEnable n)) s = .next t ∧ t.boot.vfEnable = true ∧ t.boot.numVfs = n ∧
      ∀ fn : FnNo, (t.present fn = true ↔ fn.val ≤ n)) ∧
  (∀ (fn : FnNo) (s : State), s.configReady = true → fn ≠ 0 → s.present fn = true →
    ∃ t, exec (.flrVf fn) s = .next t ∧ t.fns[fn].qps = (Func.reset fn).qps ∧ (∀ o ∈ t.outst, o.fn ≠ fn) ∧
      (∀ p ∈ t.progs, p.stratum = fn → p.launch = none ∧ p.loading = none ∧ p.unloading = []) ∧
      t.strata = s.strata) ∧
  (∀ s : State, s.configReady = true → s.boot.vfEnable = true →
    ∃ t, exec (.vfEnableClear none) s = .next t ∧ t.boot.vfEnable = false ∧
      ∀ fn : FnNo, fn ≠ 0 → t.present fn = false ∧ (s.present fn = true → t.fns[fn].qps = (Func.reset fn).qps)) ∧
  (∀ (fn : FnNo) (s : State), s.configReady = true → s.present fn = true →
    exec (.busMasterEnable fn false) s = .next (s.modFn fn fun f => { f with busMaster := false })) ∧
  (∀ (fn : FnNo) (s : State), s.configReady = true → s.present fn = true → s.fns[fn].evq.held = [] → s.fns[fn].pba = 0 →
    s.fns[fn].unsent = [] → (∀ qp : QpNo, s.fns[fn].qps[qp].stopping = false) → (∀ p ∈ s.progs, p.stratum ≠ fn) →
    exec (.busMasterEnable fn true) s = .next (s.modFn fn fun f => { f with busMaster := true })) ∧
  (∀ (fn : FnNo) (a : W64) (b : List Byte) (s : State), s.configReady = true → s.present fn = true →
    Unsent.bytes a b ∈ s.fns[fn].unsent →
    ∃ t, exec (.busMasterEnable fn true) s = .next t ∧ t.fns[fn].busMaster = true ∧ t.fns[fn].unsent = [] ∧
      Emit.hostWrite fn a b false ∈ t.out)

/-- R139, R240, R246, R1039, R1040: a fatal condition is written into HIF_FATAL_LOG with its cause, unit and tick, raises
FATAL in every function, and ends all work. The model's choices it rests on: log entries 42, 43. -/
def Obligations.FatalConditions : Prop :=
  ∀ s : State, s.supplied = true → s.boot.fatal = false → s.boot.inReset = false →
    (∀ (a : W32) (op : BitVec 8),
      ∃ t, exec (.watchdogTimeout a op) s = .next t ∧ FatalEntered s t 0x80010A00 a (op.setWidth 32)) ∧
    (∀ a : W32, ∃ t, exec (.supervisorMemoryError a) s = .next t ∧ FatalEntered s t 0x80020A00 a 0) ∧
    (∀ (pll : Bool) (a : W32), ∃ t, exec (.aonCrystalLost pll a) s = .next t ∧
      FatalEntered s t (if pll then 0x80031000 else 0x80030B00) a 0) ∧
    (∀ a : W32, ∃ t, exec (.alwaysOnParity a) s = .next t ∧ FatalEntered s t 0x80060B00 a 0) ∧
    (∀ a : W32, ∃ t, exec (.firmwareIntegrityFailed a) s = .next t ∧ FatalEntered s t 0x80070A00 a 0)

/-! ### Port training -/

/-- R783, R787, R797, R798, R801, R820: block lock is kept per lane; a lane in use which fails is fenced and the port
narrows or retrains; TS blocks are acted on when four in a row agree; a measured preset is followed by the next, and
by the best one after the eighth. The model's choices it rests on: log entries 54, 55, 57. -/
def Obligations.TrainingLanes : Prop :=
  (∀ (l : LaneNo) (s : State), s.units.lanes[l].up = true → s.ports[portOf l].st ≠ .disabled →
    ∃ t, exec (.blockLockAcquired l) s = .next t ∧ t.lanes[l].locked = true ∧
      (s.ports[portOf l].st = .equalize → s.lanes[l].locked = false → t.lanes[l].request = 0)) ∧
  (∀ (l : LaneNo) (s : State),
    ∃ t, exec (.blockLockLost l) s = .next t ∧ t.lanes[l].locked = false) ∧
  (∀ (l : LaneNo) (s : State), s.ports[portOf l].st = .active → s.ports[portOf l].inUse &&& laneBit l ≠ 0 →
    s.ports[portOf l].wc = none → s.ports[portOf l].lanes &&& ~~~laneBit l ≠ 0 →
    ∀ c ∈ [Instr.blockLockLost l, Instr.laneFailure l],
    ∃ t x, exec c s = .next t ∧ t.units.lanes[l].fenced = true ∧ t.ports[portOf l].st = .active ∧
      t.ports[portOf l].lanes = s.ports[portOf l].lanes &&& ~~~laneBit l ∧ t.ports[portOf l].wc = some x ∧
      x.cause = .failure ∧ x.mask &&& laneBit l = 0 ∧ x.tries = 1 ∧ t.faults.next = s.faults.next + 1) ∧
  (∀ (l : LaneNo) (s : State), s.ports[portOf l].st = .active → s.ports[portOf l].inUse &&& laneBit l ≠ 0 →
    s.ports[portOf l].lanes &&& ~~~laneBit l = 0 →
    ∀ c ∈ [Instr.blockLockLost l, Instr.laneFailure l],
    ∃ t, exec c s = .next t ∧ t.units.lanes[l].fenced = true ∧ t.ports[portOf l].st = .retrain ∧
      t.ports[portOf l].retrains = s.ports[portOf l].retrains + 1 ∧ t.ports[portOf l].due = s.tick + 4000000) ∧
  (∀ (l : LaneNo) (w : W64) (s : State), s.units.lanes[l].up = true → s.ports[portOf l].st ≠ .disabled → tsLegal w = true →
    (s.lanes[l].seenTs = w.extractLsb' 8 40 → s.lanes[l].seenCount < 3) →
    exec (.ts l w s.lanes[l].inverted) s = .next (s.modLane l fun x => { x with
      seenTs := w.extractLsb' 8 40
      seenCount := if x.seenTs = w.extractLsb' 8 40 then x.seenCount + 1 else 1 })) ∧
  (∀ (l : LaneNo) (w : W64) (s : State), s.units.lanes[l].up = true → s.ports[portOf l].st ≠ .disabled → tsLegal w = true →
    s.lanes[l].seenTs = w.extractLsb' 8 40 → 3 ≤ s.lanes[l].seenCount →
    (w.extractLsb' 12 4 = 15#4 → ∃ t, exec (.ts l w s.lanes[l].inverted) s = .next t ∧
      t.ports[portOf l].st = .disabled ∧ t.ports[portOf l].reason = 0x0A ∧ t.ports[portOf l].lanes = 0) ∧
    (w.extractLsb' 12 4 = 3#4 → s.ports[portOf l].st = .active → s.ports[portOf l].inUse &&& laneBit l ≠ 0 →
      ∃ t, exec (.ts l w s.lanes[l].inverted) s = .next t ∧ t.ports[portOf l].st = .retrain ∧
        t.ports[portOf l].due = s.tick + 4000000) ∧
    (w.extractLsb' 12 4 = 1#4 → w.getLsbD 9 = true → s.ports[portOf l].st = .detect → s.lanes[l].locked = true →
      ∃ t, exec (.ts l w s.lanes[l].inverted) s = .next t ∧ t.ports[portOf l].st = .equalize ∧
        t.ports[portOf l].due = s.tick + 8000000)) ∧
  (∀ (l : LaneNo) (w : W64) (b : Bool) (s : State), s.units.lanes[l].up = true → s.ports[portOf l].st = .detect →
    tsLegal w = true → b ≠ s.lanes[l].inverted →
    exec (.ts l w b) s = .next (s.modLane l fun x => { x with inverted := b, seenCount := 0 })) ∧
  (∀ (l : LaneNo) (m : Nat) (v : BitVec 40) (s : State), s.units.lanes[l].up = true →
    s.ports[portOf l].st = .equalize → s.lanes[l].locked = true → s.lanes[l].request ≠ 0xF →
    s.lanes[l].margins.length < 8 → s.lanes[l].farTs = some v → v.extractLsb' 8 4 = s.lanes[l].request →
    ∃ t, exec (.presetMeasureTimer l m) s = .next t ∧ t.lanes[l].margins = s.lanes[l].margins ++ [m] ∧
      t.lanes[l].request.toNat = (if s.lanes[l].margins.length < 7 then s.lanes[l].margins.length + 1
        else bestPreset (s.lanes[l].margins ++ [m])))

/-- R800, R801: each timer of a port's state leads to the state which the transition table gives, at the instant which the
port holds. The model's choices it rests on: log entry 55. -/
def Obligations.TrainingTimers : Prop :=
  (∀ (p : PortNo) (s : State), s.ports[p].st = .detect →
    ∃ t, exec (.detectTimeout p) s = .next t ∧ t.ports[p].st = .disabled ∧ t.ports[p].reason = 4 ∧
      t.ports[p].lanes = 0 ∧ s.ports[p].due ≤ t.tick ∧ ∀ i, s.ports[p].cmd = some i → ∀ o ∈ t.outst, o.id ≠ i) ∧
  (∀ (p : PortNo) (s : State), s.ports[p].st = .equalize →
    ∃ t, exec (.equalizeTimeout p) s = .next t ∧ s.ports[p].due ≤ t.tick ∧
      (if (lanesOf p).any fun l => s.units.lanes[l].up && s.lanes[l].equalised then
        t.ports[p].st = .align ∧ t.ports[p].due = t.tick + 3200000 ∧
          (∀ l ∈ lanesOf p, s.lanes[l].equalised = false → t.units.lanes[l].up = false)
      else t.ports[p].st = .disabled ∧ t.ports[p].reason = 5)) ∧
  (∀ (p : PortNo) (s : State), s.ports[p].st = .align →
    ∃ t, exec (.alignTimeout p) s = .next t ∧ t.ports[p].st = .disabled ∧ t.ports[p].reason = 6 ∧
      s.ports[p].due ≤ t.tick) ∧
  (∀ (p : PortNo) (s : State), s.ports[p].st = .negotiate →
    ∃ t, exec (.negotiateTimeout p) s = .next t ∧ t.ports[p].st = .disabled ∧ t.ports[p].reason = 7 ∧
      s.ports[p].due ≤ t.tick) ∧
  (∀ (p : PortNo) (s : State), s.ports[p].st = .retrain →
    ∃ t, exec (.retrainTimeout p) s = .next t ∧ s.ports[p].due ≤ t.tick ∧
      (if s.boot.poicaLost then t.ports[p].st = .disabled ∧ t.ports[p].reason = 0x0C
      else t.ports[p].st = .equalize ∧ t.ports[p].due = t.tick + 8000000))

/-- R788, R789, R792, R801, R804, R801, R806, R813 to R816: a LANE_MARK is kept with its arrival; when every lane aligned
has shown its mark the port leaves ALIGN; a BIP which does not agree is a block error; each marker sent carries the
next number. the record exchange: fragments are kept, and a repetition on the lane of the first confirms one; a whole
far record is answered with ACCEPT or REFUSE; ACCEPT both ways enters ACTIVE, and a REFUSE received disables the port.
The model's choices it rests on: log entries 56, 57. -/
def Obligations.MarkersAndRecords : Prop :=
  (∀ (l : LaneNo) (w : W64) (a : Int) (s : State), s.ports[portOf l].st = .active →
    s.ports[portOf l].lanes &&& laneBit l ≠ 0 → markLegal w = true →
    exec (.laneMark l w a (w.extractLsb' 32 8)) s = .next (s.modLane l fun x => { x with
      arrival := if (w.extractLsb' 10 2).toNat = l.val % 4 then some (w.extractLsb' 16 16, a) else none
      farDeskewed := w.getLsbD 13 })) ∧
  (∀ (l : LaneNo) (w : W64) (a : Int) (b : Byte) (s : State), s.ports[portOf l].st = .active →
    s.ports[portOf l].lanes &&& laneBit l ≠ 0 → markLegal w = true → w.extractLsb' 32 8 ≠ b →
    s.lanes[l].errors.length < 32 →
    ∃ t, exec (.laneMark l w a b) s = .next t ∧ t.lanes[l].errors.getLast? = some s.tick ∧ ChangesOnly [.lanes] s t) ∧
  (∀ (l : LaneNo) (w : W64) (a : Int) (s : State), s.ports[portOf l].st = .align →
    s.ports[portOf l].lanes = laneBit l → markLegal w = true → (w.extractLsb' 10 2).toNat = l.val % 4 →
    w.getLsbD 13 = true → (∀ x, s.lanes[l].arrival = some x → x.1 = w.extractLsb' 16 16) →
    ∃ t, exec (.laneMark l w a (w.extractLsb' 32 8)) s = .next t ∧ t.ports[portOf l].st = .negotiate ∧
      t.ports[portOf l].lanes = laneBit l ∧ t.ports[portOf l].due = s.tick + 4800000 ∧
      ∀ k ∈ lanesOf (portOf l), k ≠ l → t.units.lanes[k].up = false) ∧
  (∀ (p : PortNo) (bips : W32) (s : State), s.ports[p].st = .active →
    ∃ t, exec (.laneMarkTransmit p bips) s = .next t ∧ t.ports[p].markSeq = s.ports[p].markSeq + 1 ∧
      (∀ l ∈ lanesIn p s.ports[p].lanes, ∃ w : W64, Emit.laneBlock l w 1 ∈ t.out ∧ w.extractLsb' 0 8 = 0x2D#8 ∧
        w.extractLsb' 10 2 = BitVec.ofNat 2 l.val ∧ w.extractLsb' 16 16 = s.ports[p].markSeq ∧
        w.extractLsb' 32 8 = bips.extractLsb' (8 * (l.val % 4)) 8) ∧ ChangesOnly [.ports, .out] s t) ∧
  (∀ (l : LaneNo) (w : W64) (s : State), s.exchanging l = true → w.extractLsb' 0 8 = 0x55#8 → w.extractLsb' 12 4 = 1#4 →
    ∃ t f, exec (.negRecord l w) s = .next t ∧
      t.ports[portOf l].frags[(w.extractLsb' 8 4).toNat]? = some (some f) ∧ f.1 = w.extractLsb' 16 48) ∧
  (∀ (l : LaneNo) (w : W64) (i : Fin 16) (c : Bool) (r : List Byte) (s : State), s.exchanging l = true →
    s.ports[portOf l].st = .negotiate → w.extractLsb' 0 8 = 0x55#8 → w.extractLsb' 12 4 = 1#4 →
    i.val = (w.extractLsb' 8 4).toNat → s.ports[portOf l].frags[i] = some (w.extractLsb' 16 48, l, c) →
    s.ports[portOf l].incoming = none →
    ({ s.ports[portOf l] with
        frags := s.ports[portOf l].frags.set i.val (some (w.extractLsb' 16 48, l, true)) i.isLt } : Port).whole = some r →
    (s.refusal (portOf l) r = none →
      ∃ t, exec (.negRecord l w) s = .next t ∧ Emit.laneBlock l (negAccept (r.drop 92)) 8 ∈ t.out ∧
        (if s.ports[portOf l].farAccepted then t.ports[portOf l].st = .active ∧ t.ports[portOf l].far = r
        else t.ports[portOf l].st = .negotiate ∧ t.ports[portOf l].incoming = some r)) ∧
    (∀ e, s.refusal (portOf l) r = some e →
      ∃ t, exec (.negRecord l w) s = .next t ∧ Emit.laneBlock l (negRefuse e.1 e.2) 16 ∈ t.out ∧
        t.ports[portOf l].st = .disabled ∧ t.ports[portOf l].reason = 9)) ∧
  (∀ (l : LaneNo) (w : W64) (s : State), s.exchanging l = true → w.extractLsb' 0 8 = 0x55#8 → w.extractLsb' 12 4 = 2#4 →
    w &&& 0xFFFF0000_00000F00 = 0 → (w.extractLsb' 16 32).toNat = fieldNat s.ports[portOf l].own 92 4 →
    (s.ports[portOf l].incoming = none → exec (.negAccept l w) s = .next (s.modPort (portOf l) fun q => { q with farAccepted := true })) ∧
    (∀ r, s.ports[portOf l].incoming = some r →
      ∃ t, exec (.negAccept l w) s = .next t ∧ t.ports[portOf l].st = .active ∧ t.ports[portOf l].far = r)) ∧
  (∀ (l : LaneNo) (w : W64) (s : State), s.exchanging l = true → s.ports[portOf l].st = .negotiate →
    w.extractLsb' 0 8 = 0x55#8 → w.extractLsb' 12 4 = 3#4 → w &&& 0xFFFFFF00_00000F00 = 0 →
    ∃ t, exec (.negRefuse l w) s = .next t ∧ t.ports[portOf l].st = .disabled ∧ t.ports[portOf l].reason = 8)

/-- R801, R825, R827, R829, R830, R843: the WIDTH_CHANGE handshake: a request is answered, an acknowledgement followed by
SWITCH, a refusal ends the change, a switch moves the lanes in use, and each timeout repeats, ends or retrains; an
IDLE ends the skipping of an item. -/
def Obligations.WidthChanges : Prop :=
  (∀ (p : PortNo) (m : BitVec 4) (w : Nat) (q : W16) (s : State), s.ports[p].st = .active → w ∈ [1, 2, 4] →
    laneCount m = w → s.ports[p].wc = none →
    ((∀ l ∈ lanesIn p m, s.lanes[l].locked = true ∧ s.units.lanes[l].up = true ∧ s.lanes[l].deskewed = true) →
      w ≤ s.ports[p].agreedMax →
      ∃ t, exec (.widthChangeReq p (widthBlock 1 m w 0 q)) s = .next t ∧ t.ports[p].farWc = some (m, q) ∧
        ∀ l ∈ lanesIn p s.ports[p].lanes, Emit.laneBlock l (widthBlock 2 m w 0 q) 1 ∈ t.out ∧
          Emit.laneBlock l (widthBlock 4 m w 0 q) 1 ∈ t.out) ∧
    (s.ports[p].agreedMax < w →
      ∃ t r, exec (.widthChangeReq p (widthBlock 1 m w 0 q)) s = .next t ∧ r ≠ 0 ∧
        (∀ l ∈ lanesIn p s.ports[p].lanes, Emit.laneBlock l (widthBlock 3 m w r q) 1 ∈ t.out) ∧
        ChangesOnly [.out] s t)) ∧
  (∀ (p : PortNo) (x : WidthChange) (s : State), s.ports[p].st = .active → x.width ∈ [1, 2, 4] →
    laneCount x.mask = x.width → s.ports[p].wc = some x → x.acked = false → x.refused = false → x.tries ≠ 0 →
    ∃ t, exec (.widthChangeAck p (widthBlock 2 x.mask x.width 0 x.seq)) s = .next t ∧
      t.ports[p].wc = some { x with acked := true } ∧
      (∀ l ∈ lanesIn p s.ports[p].lanes, Emit.laneBlock l (widthBlock 4 x.mask x.width 0 x.seq) 1 ∈ t.out) ∧
      ChangesOnly [.ports, .out] s t) ∧
  (∀ (p : PortNo) (x : WidthChange) (r : Nat) (s : State), s.ports[p].st = .active → x.width ∈ [1, 2, 4] →
    laneCount x.mask = x.width → s.ports[p].wc = some x → x.acked = false → x.refused = false → x.tries ≠ 0 →
    r < 256 → r ≠ 4 →
    (x.cause = .failure → exec (.widthChangeNak p (widthBlock 3 x.mask x.width r x.seq)) s = .next
      (s.modPort p fun q => { q with wc := some { x with refused := true } })) ∧
    (∀ i, x.cause = .command i → s.ports[p].widthCmd = none →
      ∃ t, exec (.widthChangeNak p (widthBlock 3 x.mask x.width r x.seq)) s = .next t ∧ t.ports[p].wc = none ∧
        t.ports[p].inUse = s.ports[p].inUse ∧ ∀ o ∈ t.outst, o.id ≠ i)) ∧
  (∀ (p : PortNo) (m : BitVec 4) (w : Nat) (q : W16) (s : State), s.ports[p].st = .active → w ∈ [1, 2, 4] →
    laneCount m = w → s.ports[p].widthCmd = none →
    (s.ports[p].farWc = some (m, q) → s.ports[p].wc = none →
      ∃ t, exec (.widthChangeSwitch p (widthBlock 4 m w 0 q)) s = .next t ∧ t.ports[p].inUse = m ∧
        t.ports[p].farWc = none) ∧
    (∀ x, s.ports[p].farWc = none → s.ports[p].wc = some x → x.acked = true → x.seq = q →
      ∃ t, exec (.widthChangeSwitch p (widthBlock 4 m w 0 q)) s = .next t ∧ t.ports[p].inUse = x.mask ∧
        t.ports[p].wc = none ∧ ∀ i, x.cause = .command i → ∀ o ∈ t.outst, o.id ≠ i)) ∧
  (∀ (p : PortNo) (x : WidthChange) (s : State), s.ports[p].st = .active → s.ports[p].wc = some x → x.acked = false →
    x.refused = false → x.tries ≠ 0 →
    (x.tries < 3 →
      ∃ t, exec (.widthChangeReqTimeout p) s = .next t ∧ x.sent + 1600 ≤ t.tick ∧
        t.ports[p].wc = some { x with seq := s.ports[p].wcSeq, tries := x.tries + 1, sent := t.tick } ∧
        (∀ l ∈ lanesIn p s.ports[p].lanes,
          Emit.laneBlock l (widthBlock 1 x.mask x.width 0 s.ports[p].wcSeq) 1 ∈ t.out) ∧
        ChangesOnly [.tick, .ports, .out] s t) ∧
    (3 ≤ x.tries → x.cause = .failure →
      ∃ t, exec (.widthChangeReqTimeout p) s = .next t ∧ x.sent + 1600 ≤ t.tick ∧ t.ports[p].st = .retrain)) ∧
  (∀ (p : PortNo) (x : WidthChange) (s : State), s.ports[p].st = .active → s.ports[p].wc = some x → x.cause = .failure →
    ∃ t, exec (.widthChangeTimeout p) s = .next t ∧ x.began + 8000 ≤ t.tick ∧ t.ports[p].st = .retrain ∧
      t.ports[p].wc = none ∧ t.ports[p].retrains = s.ports[p].retrains + 1) ∧
  (∀ (p : PortNo) (s : State), s.ports[p].st = .active →
    exec (.idle p) s = .next (s.modPort p fun q => { q with skipping := false }))

/-! ### Link and channels -/

/-- R843, R845, R847, R849, R855, R859, R866, R867, R870, R872, R875, R888: the item expected next is acknowledged and
counted; its payload joins the open frame of its channel, or is counted as dropped; a FRAME_MARK opens the next frame;
a SETTING_NOTICE is kept for its frame; an item received before is only acknowledged again; a route change which is
forced takes effect at its instant. The model's choices it rests on: log entries 61, 62. -/
def Obligations.ItemsReceived : Prop :=
  (∀ (k : Nat) (p : PortNo) (ch sbits : Nat) (b : List Byte) (s : State), (k = 1 ∨ k = 2) → s.ports[p].st = .active →
    s.ports[p].skipping = false → ch < 4096 → sbits < 256 → 1 ≤ b.length → b.length ≤ 4096 →
    ∃ t, exec (if k = 1 then .samples p (frameBytes 1 ch s.ports[p].rxSeq.toNat sbits b)
        else .tensor p (frameBytes 2 ch s.ports[p].rxSeq.toNat sbits b)) s = .next t ∧
      t.ports[p].rxSeq = s.ports[p].rxSeq + 1 ∧ Emit.block p (ackBlock 0x10 s.ports[p].rxSeq) ∈ t.out ∧
      (s.chanOn p ch = none → ∃ v ∈ t.ports[p].violations, v.cause = 2) ∧
      (∀ x, s.chanOn p ch = some x → s.chan x.num = some x → s.lock.st ≠ .paired → x.num ∉ s.lock.rejoin →
        x.kind1 = (k == 2) → s.ports[p].creditsOf b.length ≤ x.outstanding →
        (if k = 1 then 8 ≤ sbits ∧ sbits ≤ 16 ∧ (fieldNat s.ports[p].far 26 2).testBit (sbits - 8) = true
          else sbits = 0) →
        (∀ f, s.openFrame x.num = some f → s.frame x.num f.seq = some f → (f.route.slate = 0xFE ∨ k = 2) →
          (x.used + s.ports[p].creditsOf b.length + s.ports[x.port].perBuf - 1) / s.ports[x.port].perBuf ≤
            (s.bufsOf x.num f.seq false).length + s.spare x.num →
          s.allotment x.num ≠ x.cap →
          t.frame x.num f.seq = some { f with payload := f.payload ++ b }) ∧
        (s.openFrame x.num = none → x.strayCounted = false →
          ∃ y, t.chan x.num = some y ∧ y.dropped = satAdd x.dropped 1 ∧ y.strayCounted = true))) ∧
  (∀ (p : PortNo) (ch : Nat) (q : W16) (b : List Byte) (s : State), s.ports[p].st = .active →
    s.ports[p].skipping = false → ch < 4096 → 1 ≤ b.length → b.length ≤ 4096 → q ≠ s.ports[p].rxSeq →
    (s.ports[p].rxSeq - q).toNat ≤ 32768 →
    exec (.tensor p (frameBytes 2 ch q.toNat 0 b)) s =
      .next (s.emit (.block p (ackBlock 0x10 (s.ports[p].rxSeq - 1))))) ∧
  (∀ (p : PortNo) (ch sbits q : Nat) (b : List Byte) (s : State), s.ports[p].st = .active →
    s.ports[p].skipping = false → ch < 4096 → 4096 < b.length → b.length < 65536 →
    ∃ t, exec (.samples p (frameBytes 1 ch q sbits b)) s = .next t ∧ t.ports[p].skipping = true ∧
      t.ports[p].crcErrors = satAdd s.ports[p].crcErrors 1 ∧ ChangesOnly [.ports, .out] s t) ∧
  (∀ (l : LaneNo) (ch : Nat) (x : Chan) (s : State), s.ports[portOf l].st = .active →
    s.ports[portOf l].inUse &&& laneBit l ≠ 0 → ch < 4096 → s.chanOn (portOf l) ch = some x → s.chan x.num = some x →
    s.lock.st ≠ .paired → x.num ∉ s.lock.rejoin → x.pending = none → s.openFrame x.num = none →
    (x.route.slate = 0xFE ∨ x.kind1 = true) →
    ∃ t y f, exec (.frameMark l (withChk ([0xAA] ++ leBytes 2 ch ++ leBytes 2 s.ports[portOf l].rxSeq.toNat))) s =
        .next t ∧ t.ports[portOf l].rxSeq = s.ports[portOf l].rxSeq + 1 ∧ t.chan x.num = some y ∧
      y.marks = x.marks + 1 ∧ t.openFrame x.num = some f ∧ f.seq = x.marks ∧ f.openTick = s.tick ∧ f.payload = [] ∧
      f.route = x.route ∧ Emit.block (portOf l) (ackBlock 0x10 s.ports[portOf l].rxSeq) ∈ t.out) ∧
  (∀ (l : LaneNo) (ch set : Nat) (s : State), s.ports[portOf l].st = .active →
    s.ports[portOf l].inUse &&& laneBit l ≠ 0 → ch < 4096 → set < 16 →
    ∃ t, exec (.settingNotice l (withChk ([0xCC] ++ leBytes 2 ch ++ leBytes 2 s.ports[portOf l].rxSeq.toNat ++
        leBytes 1 set))) s = .next t ∧ t.ports[portOf l].rxSeq = s.ports[portOf l].rxSeq + 1 ∧
      (s.ports[portOf l].role ≠ 0 → ∃ v ∈ t.ports[portOf l].violations, v.cause = 4) ∧
      (∀ x, s.chanOn (portOf l) ch = some x → s.chan x.num = some x → s.ports[portOf l].role = 0 →
        s.ports[portOf l].farCap 1 = true → x.kind1 = false → s.lock.st ≠ .paired → x.num ∉ s.lock.rejoin →
        ∃ y n, t.chan x.num = some y ∧ n ∈ y.slate.notices ∧ n.set = set ∧
          n.effective = x.marks + s.ports[x.port].latency)) ∧
  (∀ (c : Nat) (x : Chan) (r : PendingRoute) (s : State), s.chan c = some x → x.pending = some r → r.switched = false →
    (r.unbind = false → ∃ t y, exec (.forcedSwitch c) s = .next t ∧ r.accepted + BitVec.ofNat 64 (2 * x.period) ≤ t.tick ∧
      t.chan c = some y ∧ y.pending = none ∧ y.route = r.route ∧ (∀ f, s.openFrame c = some f → t.frame c f.seq = none) ∧
      ∀ o ∈ t.outst, o.id ≠ r.id) ∧
    (r.unbind = true → (∀ f ∈ s.frames, f.chan ≠ c) → x.q.offers = [] →
      ∃ t, exec (.forcedSwitch c) s = .next t ∧ r.accepted + BitVec.ofNat 64 (2 * x.period) ≤ t.tick ∧
        t.chan c = none ∧ ∀ o ∈ t.outst, o.id ≠ r.id))

/-- R849, R851, R861 to R864: an acknowledgement frees what it covers; a NAK, or 10 µs without progress, has everything
from an item onward sent again; credits which come move the limit, credits withdrawn take it back to what was
consumed; a refresh shows one CH's credits. The model's choices it rests on: log entry 60. -/
def Obligations.AcknowledgementAndCredits : Prop :=
  (∀ (l : LaneNo) (q : W16) (s : State), s.ports[portOf l].st = .active → s.ports[portOf l].inUse &&& laneBit l ≠ 0 →
    ∃ t k, exec (.ack l (ackBlock 0x10 q)) s = .next t ∧ t.ports[portOf l].replay =
      (s.ports[portOf l].replay.filter fun i => !decide ((q - i.seq).toNat ≤ 32767)) ++ k) ∧
  (∀ (l : LaneNo) (q : W16) (s : State), s.ports[portOf l].st = .active → s.ports[portOf l].inUse &&& laneBit l ≠ 0 →
    ∃ t k, exec (.nak l (ackBlock 0x20 q)) s = .next t ∧ t.ports[portOf l].replay =
        (s.ports[portOf l].replay.filter fun i => !decide ((q - 1 - i.seq).toNat ≤ 32767)) ++ k ∧
      ∀ i ∈ s.ports[portOf l].replay, 32767 < (q - 1 - i.seq).toNat → (i.seq - q).toNat ≤ 32767 →
        (if i.frame then Emit.frame (portOf l) i.bytes else Emit.block (portOf l) (BitVec.ofNat 64 (leNat i.bytes))) ∈
          t.out) ∧
  (∀ (p : PortNo) (i : Item) (s : State), s.ports[p].st = .active → s.ports[p].replay.head? = some i →
    ∃ t, exec (.replayTimeout p) s = .next t ∧ s.ports[p].oldestSent + 8000 ≤ t.tick ∧
      t.ports[p].replay = s.ports[p].replay ∧ t.ports[p].oldestSent = t.tick ∧
      (if i.frame then Emit.frame p i.bytes else Emit.block p (BitVec.ofNat 64 (leNat i.bytes))) ∈ t.out) ∧
  (∀ (l : LaneNo) (ch : Nat) (m : W16) (s : State), s.ports[portOf l].st = .active →
    s.ports[portOf l].inUse &&& laneBit l ≠ 0 → ch < 4095 →
    (s.chanOn (portOf l) ch = none →
      exec (.credit l (creditBlock ch false m)) s = .next (s.modPort (portOf l) fun q => { q with
        farCredits := spPut q.farCredits ch (((spGet q.farCredits ch).getD Credit.zero).update m) })) ∧
    (∀ x, s.chanOn (portOf l) ch = some x → s.chan x.num = some x →
      ∃ t y, exec (.credit l (creditBlock ch false m)) s = .next t ∧ t.chan x.num = some y ∧
        y.q.tx.limit = (x.q.tx.update m).limit)) ∧
  (∀ (l : LaneNo) (ch : Nat) (m : W16) (s : State), s.ports[portOf l].st = .active →
    s.ports[portOf l].inUse &&& laneBit l ≠ 0 → ch < 4095 →
    (s.chanOn (portOf l) ch = none →
      exec (.creditWithdraw l (creditBlock ch true m)) s = .next (s.modPort (portOf l) fun q => { q with
        farCredits := spPut q.farCredits ch { ((spGet q.farCredits ch).getD Credit.zero) with
          limit := ((spGet q.farCredits ch).getD Credit.zero).consumed } })) ∧
    (∀ x, s.chanOn (portOf l) ch = some x → s.chan x.num = some x →
      ∃ t y, exec (.creditWithdraw l (creditBlock ch true m)) s = .next t ∧ t.chan x.num = some y ∧
        y.q.tx.limit = x.q.tx.consumed)) ∧
  (∀ (p : PortNo) (s : State), s.ports[p].st = .active → s.refreshable p ≠ [] →
    ∃ e ∈ s.refreshable p, exec (.creditRefresh p) s = .next ((s.modPort p fun q => { q with refreshed := e.1 }).emit
      (.block p (creditBlock e.1 e.2.1 e.2.2))))

/-- R455, R881 to R886: a TIME is answered with the difference which it shows; an ECHO gives an estimate, which a follower
corrects its tick by, and the third good one in a row synchronises and completes TICK_SYNC; a TIME sent carries the
tick; silence ends synchronisation. The model's choices it rests on: log entry 64. -/
def Obligations.TickSynchronisation : Prop :=
  (∀ (l : LaneNo) (src : Bool) (v : BitVec 40) (y : Sync) (s : State), s.ports[portOf l].st = .active →
    s.ports[portOf l].inUse &&& laneBit l ≠ 0 → s.ports[portOf l].sync = some y →
    (s.ports[portOf l].role = 0 → src = false) →
    exec (.syncTime l (syncBlock 1 src v)) s = .next
      ((s.modPort (portOf l) fun q => { q with sync := some { y with a := some (s.tick.setWidth 40 - v).toInt } }).emit
        (.block (portOf l) (syncBlock 2 y.source (s.tick.setWidth 40 - v))))) ∧
  (∀ (l : LaneNo) (src : Bool) (v : BitVec 40) (y : Sync) (s : State), s.ports[portOf l].st = .active →
    s.ports[portOf l].inUse &&& laneBit l ≠ 0 → s.ports[portOf l].sync = some y →
    (y.a = none → exec (.echo l (syncBlock 2 src v)) s = .next
      (s.modPort (portOf l) fun q => { q with sync := some { y with lastEcho := s.tick } })) ∧
    (∀ (own : Int) (i : Nat), y.a = some own → y.cmd = some i → 2 ≤ y.good →
      ((if y.source then v.toInt - own else own - v.toInt).tdiv 2).natAbs ≤ 2 →
      ∃ t z, exec (.echo l (syncBlock 2 src v)) s = .next t ∧ t.ports[portOf l].sync = some z ∧ z.synced = true ∧
        z.cmd = none ∧ z.good = y.good + 1 ∧ z.lastEcho = s.tick ∧
        z.theta = (if y.source then v.toInt - own else own - v.toInt).tdiv 2 ∧
        t.tick = (if y.source = false ∧ z.theta < 0 then s.tick + BitVec.ofNat 64 (-z.theta).toNat else s.tick) ∧
        t.withhold = (if y.source = false ∧ 0 < z.theta then 2 * z.theta.toNat else s.withhold) ∧
        ∀ o ∈ t.outst, o.id ≠ i)) ∧
  (∀ (p : PortNo) (y : Sync) (s : State), s.ports[p].st = .active → s.ports[p].sync = some y →
    exec (.timeTransmit p) s = .next (s.emit (.block p (syncBlock 1 y.source (s.tick.setWidth 40))))) ∧
  (∀ (p : PortNo) (y : Sync) (s : State), s.ports[p].sync = some y → y.synced = true →
    ∃ t, exec (.echoTimeout p) s = .next t ∧ y.lastEcho + 800000 ≤ t.tick ∧ 
      t.ports[p].sync = if y.cmd.isSome then some { y with synced := false } else none) ∧
  (∀ (p : PortNo) (y : Sync) (i : Nat) (s : State), s.ports[p].sync = some y → y.cmd = some i →
    ∃ t, exec (.tickSyncTimeout p) s = .next t ∧ y.began + 8000000 ≤ t.tick ∧
      t.ports[p].sync = none ∧ ∀ o ∈ t.outst, o.id ≠ i)

/-- R943, R949 to R951, R955 to R957: an offer whose copy fits is sent under the next message number; a copy is released
when it is accepted or after 10 ms; a WIDE_REQ is answered; a WIDE message makes the frame which waits for it ready;
UNAVAILABLE ends that frame. The model's choices it rests on: log entries 59, 60. -/
def Obligations.MessagesBetweenModules : Prop :=
  (∀ (c : Nat) (x : Chan) (f : Offer) (r : Run) (w : PhysNo × Nat) (s : State), s.chan c = some x →
    s.nextOffer x = some f → x.pending = none → s.ports[x.port].st = .active → f.buffers + 1 ≤ s.spare c →
    s.runOf f.srcChan f.srcSeq.toNat = some r → s.window0 r = some w →
    ∃ t y, exec (.sendStart c) s = .next t ∧ t.chan c = some y ∧ y.q.offers = x.q.offers.filter (fun z => z != f) ∧
      y.q.msgSeq = x.q.msgSeq + 1 ∧ y.q.sent = x.q.sent + 1 ∧ y.q.narrow = x.q.narrow) ∧
  (∀ (c : Nat) (m : W32) (x : Chan) (w : WideCopy) (since : Tick) (s : State), s.chan c = some x →
    (x.q.copies.find? fun v => v.msgSeq = m) = some w → w.acked = some since → w.requested = false →
    ∃ t y, exec (.wideCopyTimeout c m) s = .next t ∧ since + 8000000 ≤ t.tick ∧ t.chan c = some y ∧
      y.q.copies = x.q.copies.filter (fun v => v.msgSeq ≠ m)) ∧
  (∀ (c : Nat) (x : Chan) (a : Answer) (s : State), s.chan c = some x →
    (x.q.answers.find? fun b => b.kind = 3) = some a →
    ∃ t y, exec (.acceptAnswer c) s = .next t ∧ t.chan c = some y ∧ y.q.answers = x.q.answers.filter (fun b => b ≠ a) ∧
      y.q.copies = x.q.copies.filter (fun v => v.msgSeq ≠ a.msgSeq)) ∧
  (∀ (c : Nat) (x : Chan) (a : Answer) (s : State), s.chan c = some x →
    (x.q.answers.find? fun b => b.kind = 4) = some a → s.ports[x.port].st ≠ .active →
    ∃ t y i, exec (.wideReq c) s = .next t ∧ t.chan c = some y ∧ y.q.answers = x.q.answers.filter (fun b => b ≠ a) ∧
      i ∈ y.q.queue ∧ i.msgSeq = a.msgSeq ∧
      (if (x.q.copies.any fun w => w.msgSeq = a.msgSeq && !w.requested) then i.kind = 2 ∧ y.q.wideSent = x.q.wideSent + 1
      else i.kind = 5 ∧ y.q.wideSent = x.q.wideSent)) ∧
  (∀ (c : Nat) (x : Chan) (a : Answer) (s : State), s.chan c = some x →
    (x.q.answers.find? fun b => b.kind = 2) = some a →
    (∀ f, s.waitingWide c a.msgSeq = some f →
      ∃ t y g, exec (.wideMessage c) s = .next t ∧ t.chan c = some y ∧ y.q.wideCount = x.q.wideCount + 1 ∧
        t.frame c f.seq = some g ∧ g.stage = .ready s.tick ∧ g.wideMsg = a.bytes) ∧
    (s.waitingWide c a.msgSeq = none →
      ∃ t y, exec (.wideMessage c) s = .next t ∧ t.chan c = some y ∧ y.dropped = satAdd x.dropped 1)) ∧
  (∀ (c : Nat) (x : Chan) (a : Answer) (f : Frame) (s : State), s.chan c = some x →
    (x.q.answers.find? fun b => b.kind = 5) = some a → s.waitingWide c a.msgSeq = some f → s.frame c f.seq = some f →
    ∃ t, exec (.unavailable c) s = .next t ∧ ∀ g ∈ t.frames, g.chan = c → g.seq = f.seq → g.stage ≠ .wide)

/-! ### Programs on the clusters -/

/-- R553, R562, R593 to R595, R597 to R599, R602 to R605, R607, R631, R635, R985: the oldest ready frame which can start
starts on a replica; what heads a queue issues, completes and signals; a barrier which every position reached releases
them; a wait of 10 ms is a program fault; a frame whose positions have all ended has its result decided. The model's
choices it rests on: log entries 97, 99, 100, 109, 110, 153, 154. -/
def Obligations.FramesOnClusters : Prop :=
  (∀ (n : FnNo) (s : State), (∀ p ∈ s.progs, p.stratum = n → p.reselect = false) → s.stranded n = none →
    (∀ x ∈ s.remaps, s.holder x.2.1 ≠ n) → (∃ a ∈ s.readyFrames n, (s.startsOn a.1).isSome = true) →
    ∃ f since p rep cells, (f, since) ∈ s.readyFrames n ∧ s.startsOn f = some (p, rep, cells) ∧
      (∀ b ∈ s.readyFrames n, (s.startsOn b.1).isSome = true → older b (f, since) = false) ∧
      exec (.dispatch n) s = .next (s.startRun f since p rep cells) ∧
      (f.route.input < hdrInputs p.header → ∃ r, (s.startRun f since p rep cells).runs = s.runs ++ [r] ∧
        r.chan = f.chan ∧ r.seq.toNat = f.seq % 2 ^ 64 ∧ r.replica = rep ∧ r.positions.length = cells.length)) ∧
  (∀ (n : FnNo) (f : Frame) (s : State), (∀ p ∈ s.progs, p.stratum = n → p.reselect = false) → s.stranded n = some f →
    exec (.dispatch n) s = .next (s.abortFrame f.chan f.seq)) ∧
  (∀ (l : LogNo) (r : Run) (i k : Nat) (p : Position) (s : State), AtHead s opcNop l r i p k →
    r.ending = false → (∀ n, signalOf (p.uop k) = some n → p.sems[n] < 255) →
    ∃ t q j y, exec (.nop l) s = .next t ∧ t.runAt l = some (q, j) ∧ q.pos j = some y ∧
      y.next[(Fin.ofNat 3 (queueOf opcNop) : Fin 3)] = k + 1 ∧ (∀ x ∈ y.flights, x.idx ≠ k) ∧
      (∀ n, signalOf (p.uop k) = some n →
        y.sems[n] = (if waitOf (p.uop k) = some n then p.sems[n] - 1 else p.sems[n]) + 1) ∧ ChangesOnly [.runs] s t) ∧
  (∀ (l : LogNo) (r : Run) (i k : Nat) (p : Position) (s : State), AtHead s opcEnd l r i p k →
    exec (.microEnd l) s = .next (s.issue r i (Flight.start k 0))) ∧
  (∀ (l : LogNo) (r : Run) (i k : Nat) (p : Position) (s : State), AtHead s opcBarrier l r i p k →
    exec (.microBarrier l) s = .next
      ((s.issue r i (Flight.start k p.barriers)).modPos r i fun x => { x with barriers := x.barriers + 1 })) ∧
  (∀ (l : LogNo) (r : Run) (i n : Nat) (s : State), s.runAt l = some (r, i) →
    r.ending = false → (∀ p ∈ r.positions, n < p.barriers ∧ ∃ k, p.barrier = some (k, n) ∧ signalOf (p.uop k) = none) →
    ∃ t q, exec (.barrierRelease l) s = .next t ∧ t.runAt l = some (q, i) ∧ q.positions.length = r.positions.length ∧
      (∀ j p k y, r.pos j = some p → p.barrier = some (k, n) → q.pos j = some y →
        y.flights = p.flights.filter (fun x => x.idx ≠ k)) ∧ ChangesOnly [.runs] s t) ∧
  (∀ (l : LogNo) (r : Run) (i k : Nat) (p : Position) (x : Flight) (s u : State), s.runAt l = some (r, i) →
    r.pos i = some p → r.ending = false → (p.flights.find? fun y => y.idx == k) = some x →
    u = (if opcOf (p.uop k) = opcStep ∧ (stepOp (p.uop k)).close = false then s.stepLeaves r i k else s) →
    (opcOf (p.uop k) ≠ opcSload → opcOf (p.uop k) ≠ opcEnd → x.done = true →
      (signalOf (p.uop k) = none → exec (.microOpComplete l k) s = .next
        (u.modPos r i fun y => { y with flights := y.flights.filter fun z => z.idx ≠ k })) ∧
      (∀ n, signalOf (p.uop k) = some n → p.sems[n] < 255 → exec (.microOpComplete l k) s = .next
        ((u.modPos r i fun y => { y with flights := y.flights.filter fun z => z.idx ≠ k }).modPos r i fun y =>
          { y with sems := vmod y.sems n fun v => v + 1 })) ∧
      (∀ n, signalOf (p.uop k) = some n → 255 ≤ p.sems[n] →
        ∃ t, exec (.microOpComplete l k) s = .next t ∧ Faulted s t r)) ∧
    (opcOf (p.uop k) = opcEnd → p.allBefore k = true → signalOf (p.uop k) = none →
      exec (.microOpComplete l k) s = .next
        ((s.modPos r i fun y => { y with flights := y.flights.filter fun z => z.idx ≠ k }).modPos r i fun y =>
          { y with ended := true })) ∧
    (∀ c w, opcOf (p.uop k) = opcSload → s.mapping[p.cluster] = some c → x.tile = some w → p.mayFill k = true →
      signalOf (p.uop k) = none →
      exec (.microOpComplete l k) s = .next ((s.fillSlot c (sloadOp (p.uop k)) { w with state := .resident }).modPos r i
        fun y => { y with flights := y.flights.filter fun z => z.idx ≠ k }))) ∧
  (∀ (l : LogNo) (r : Run) (i k : Nat) (p : Position) (s : State), s.runAt l = some (r, i) → r.pos i = some p →
    p.head 0 = some k → opcOf (p.uop k) = opcStep → p.stuck (s.clusterAt l) (s.reproOf r) k = true →
    p.loadsComing k = false → r.ending = false →
    ∃ t, exec (.scoreboardStall l) s = .next t ∧ p.since[(0 : Fin 3)] + 8000000 ≤ t.tick ∧ Faulted s t r) ∧
  (∀ (l : LogNo) (r : Run) (i : Nat) (p : Position) (s : State), s.runAt l = some (r, i) → r.pos i = some p →
    p.flights = [] → s.stuckHeads r p ≠ [] → r.ending = false →
    ∃ t, ∃ a ∈ s.stuckHeads r p, exec (.queueWaitTimeout l) s = .next t ∧ p.since[a.1] + 8000000 ≤ t.tick ∧
      (∀ b ∈ s.stuckHeads r p, p.since[a.1] ≤ p.since[b.1]) ∧ Faulted s t r) ∧
  (∀ (l : LogNo) (r : Run) (i : Nat) (p : Prog) (f : Frame) (s : State), s.runAt l = some (r, i) →
    r.ending = false → (∀ x ∈ r.positions, x.ended = true) → s.prog r.stratum r.prog = some p → p.reselect = false →
    s.frame r.chan r.seq.toNat = some f → s.sendChannel r.stratum r.prog f.route.input = none →
    exec (.channelFrameEnd l) s = .next (s.finishRun r.chan r.seq.toNat).drainArea)

/-- R553, R560, R562 to R567, R569, R572, R577, R578, R581, R583, R584, R605, R609, R611, R615, R1136: a STEP which may issue
accumulates into its bank, or ends the frame where its tiles do not fit; a drain writes its tile or hands a partial
on; partials combine in the order of the rules, of two at once the one of the lower logical cluster first; banks are saved, loaded and cleared. The model's choices it rests on:
log entries 100, 104, 105, 107, 108, 154, 155. -/
def Obligations.MatrixWork : Prop :=
  (∀ (l : LogNo) (r : Run) (i k : Nat) (p : Position) (s : State), AtHead s opcStep l r i p k →
    p.stepMay (s.clusterAt l) (s.reproOf r) k = true → r.ending = false →
    ((s.clusterAt l).stepFault (stepOp (p.uop k)) = none →
      ∃ t u, exec (.microStep l) s = .next t ∧
        u = (s.issue r i { Flight.start k ((spGet p.reduced (stepOp (p.uop k)).reduce).getD 0) with
            done := !(stepOp (p.uop k)).close, drained := !(stepOp (p.uop k)).close }).modClusterAt l
              (fun g => g.step (stepOp (p.uop k))) ∧
        (((stepOp (p.uop k)).close = false ∨ (stepOp (p.uop k)).reduce = 0) → t = u) ∧
        t.clusters = u.clusters ∧ ChangesOnly [.runs, .clusters] s t) ∧
    (∀ c, (s.clusterAt l).stepFault (stepOp (p.uop k)) = some c →
      ∃ t, exec (.microStep l) s = .next t ∧ Faulted s t r ∧
        ∀ (d : PhysNo) (b : Bool), t.clusters[d].bank b = s.clusters[d].bank b)) ∧
  (∀ (l : LogNo) (r : Run) (i : Nat) (p : Position) (f : Frame) (x : Flight) (rest : List Flight) (o : StepOp) (s u : State),
    s.runAt l = some (r, i) → r.pos i = some p → s.frame r.chan r.seq.toNat = some f → p.undrained = x :: rest →
    stepOp (p.uop x.idx) = o → u = s.stepLeaves r i x.idx →
    ((s.clusterAt l).wide o.bankB = true → o.outFmt ≠ 2 → (o.reduce = 0 ∨ s.rankOf r o.reduce i = some 0) →
      r.ending = false → ∃ t, exec (.drain l) s = .next t ∧ Faulted s t r ∧ t.scratch = s.scratch) ∧
    (o.reduce ≠ 0 →
      ((s.clusterAt l).wide o.bankB = false ∨ o.outFmt = 2 ∨ s.rankOf r o.reduce i ≠ some 0) →
      exec (.drain l) s = .next (u.drainPartial r i x.idx o x.num ((s.clusterAt l).wide o.bankB)
        (bankQuires ((s.clusterAt l).wide o.bankB) ((s.clusterAt l).bank o.bankB)))) ∧
    (o.reduce = 0 → ((s.clusterAt l).wide o.bankB = false ∨ o.outFmt = 2) →
      ((s.clusterAt l).coded o.bankB = false →
        exec (.drain l) s = .next ((u.writeDrain r i x.idx o (convertDrain ((s.clusterAt l).wide o.bankB) o.outFmt
          (bankQuires ((s.clusterAt l).wide o.bankB) ((s.clusterAt l).bank o.bankB)))).flightDone r i x.idx)) ∧
      (∀ h, (s.clusterAt l).coded o.bankB = true → s.presentedHead f = some h →
        exec (.drain l) s = .next ((u.writeDrain r i x.idx o (rescaleDrain ((s.clusterAt l).wide o.bankB) o.outFmt
          (f32Mul (positToF32 8 h.f) (positToF32 16 h.s2)) (h.outliers != 0)
          (bankQuires ((s.clusterAt l).wide o.bankB) ((s.clusterAt l).bank o.bankB))
          (bankQuires ((s.clusterAt l).wide o.bankB) ((s.clusterAt l).bank (!o.bankB))))).flightDone r i x.idx)))) ∧
  (∀ (l : LogNo) (r : Run) (i rank : Nat) (p : Partial) (s : State), s.runAt l = some (r, i) →
    (r.partials.find? fun x => x.pos == i) = some p → s.reproOf r = true → s.rankOf r p.group p.pos = some rank →
    p.level = (rankLevels rank (s.groupSize r p.group)).length →
    (rank = 0 → exec (.reductionTransfer [l]) s = .next (s.finishReduction r p.pos p)) ∧
    (∀ y, rank ≠ 0 → (r.partials.find? fun y => y.group == p.group && y.num == p.num &&
        s.rankOf r p.group y.pos == some (rank - 2 ^ sendLevel rank)) = some y → y.level = sendLevel rank →
      exec (.reductionTransfer [l]) s = .next ((s.combine r true y p (y.level + 1)).memberDone r p.pos))) ∧
  (∀ (l : LogNo) (r : Run) (i : Nat) (p y : Partial) (s : State), s.runAt l = some (r, i) →
    (r.partials.find? fun x => x.pos == i) = some p → s.reproOf r = false → p.ready = false →
    ((r.partials.filter fun y => y.group == p.group && y.num == p.num && y.pos != p.pos).find? fun y =>
      y.ready && y.level == p.level) = some y → s.rankOf r p.group p.pos ≠ some 0 →
    exec (.reductionTransfer [l]) s = .next ((s.combine r false y p (y.level + 1)).memberDone r p.pos)) ∧
  (∀ (l m : LogNo) (s : State), l < m →
    exec (.reductionTransfer [m, l]) s = .next (reductionTransfer m (reductionTransfer l s)) ∧
    exec (.reductionTransfer [l, m]) s = .next (reductionTransfer m (reductionTransfer l s))) ∧
  (∀ (l : LogNo) (r : Run) (i k : Nat) (p : Position) (s : State), AtHead s opcQsave l r i p k → p.undrained = [] →
    p.reserved (s.clusterAt l) (s.reproOf r) + (bankOp (p.uop k)).bytes ≤ 0x10000 →
    ((s.clusterAt l).wide (bankOp (p.uop k)).bankB = ((bankOp (p.uop k)).form == 2) →
      exec (.qsave l) s = .next ((s.issue r i { Flight.start k 0 with done := true }).windowWrite r i
        (bankOp (p.uop k)).addr (saveBytes (bankOp (p.uop k)).form ((s.clusterAt l).bank (bankOp (p.uop k)).bankB)))) ∧
    ((s.clusterAt l).wide (bankOp (p.uop k)).bankB ≠ ((bankOp (p.uop k)).form == 2) →
      r.ending = false → ∃ t, exec (.qsave l) s = .next t ∧ Faulted s t r ∧ t.scratch = s.scratch)) ∧
  (∀ (l : LogNo) (r : Run) (i k : Nat) (p : Position) (c : PhysNo) (s : State), AtHead s opcQload l r i p k →
    p.undrained = [] → s.mapping[l] = some c →
    ∃ t, exec (.qload l) s = .next t ∧ t.clusters[c] = s.clusters[c].setBank (bankOp (p.uop k)).bankB
        (loadCells (bankOp (p.uop k)).form (s.windowRead r i (bankOp (p.uop k)).addr (bankOp (p.uop k)).bytes))
        ((bankOp (p.uop k)).form == 2) (s.clusters[c].coded (bankOp (p.uop k)).bankB) ∧
      (∀ d, d ≠ c → t.clusters[d] = s.clusters[d]) ∧ ChangesOnly [.runs, .clusters] s t) ∧
  (∀ (l : LogNo) (r : Run) (i k : Nat) (p : Position) (c : PhysNo) (s : State), AtHead s opcQclear l r i p k →
    p.undrained = [] → s.mapping[l] = some c →
    ∃ t, exec (.qclear l) s = .next t ∧ t.clusters[c] = s.clusters[c].setBank (bankOp (p.uop k)).bankB []
        ((bankOp (p.uop k)).form == 2) (s.clusters[c].coded (bankOp (p.uop k)).bankB) ∧
      (∀ d, d ≠ c → t.clusters[d] = s.clusters[d]) ∧ ChangesOnly [.runs, .clusters] s t)

/-- R598, R608, R610, R612, R613, R618, R622, R688, R689: a transfer which is served throughout reads and writes as it issues; one
which is not ends the frame, and so does a read which meets an error beyond correction; a pair of halo operations moves its rows once both have issued. The model's choices it
rests on: log entries 100, 102, 153, 154. -/
def Obligations.ClusterTransfers : Prop :=
  (∀ (l : LogNo) (r : Run) (i k : Nat) (p : Position) (f : Frame) (s : State), AtHead s opcSload l r i p k →
    s.frame r.chan r.seq.toNat = some f →
    (∀ w u, s.sloadTile r i f (sloadOp (p.uop k)) s.free = .ok w →
      u = ({ s with free := s.free + 1 }).issue r i { Flight.start k 0 with tile := some w } →
      (p.mayFill k = false → exec (.sload ⟨l, none⟩) s = .next u) ∧
      (∀ c, s.mapping[p.cluster] = some c → p.mayFill k = true →
        exec (.sload ⟨l, none⟩) s = .next (u.fillSlot c (sloadOp (p.uop k)) { w with state := .filling }))) ∧
    (∀ c a, r.ending = false → s.sloadTile r i f (sloadOp (p.uop k)) s.free = .error (.fault c a) →
      ∃ t, exec (.sload ⟨l, none⟩) s = .next t ∧ Faulted s t r) ∧
    (∀ (va : Nat) (e : Ecc) (u : State), s.readsAt r f (sloadOp (p.uop k)).reads va = true → u = s.foundAt r.stratum va e →
      (s.readLost r.stratum va e = false → u.runKey l = s.runKey l →
        exec (.sload ⟨l, some (va, e)⟩) s = exec (.sload ⟨l, none⟩) u) ∧
      (s.readLost r.stratum va e = true → (u.abortFrame r.chan r.seq.toNat).runKey l ≠ s.runKey l →
        exec (.sload ⟨l, some (va, e)⟩) s = .next (u.abortFrame r.chan r.seq.toNat)))) ∧
  (∀ (l : LogNo) (r : Run) (i k : Nat) (p : Position) (f : Frame) (o : BlockOp) (s : State), AtHead s opcGet l r i p k →
    s.frame r.chan r.seq.toNat = some f → blockOp (p.uop k) = o →
    (∀ rows, readRows (fun a => s.baseRead r i f o.base (o.off + a * o.fstride) o.rbytes) (List.range o.rows) = .ok rows →
      exec (.get l none) s = .next ((s.issue r i { Flight.start k 0 with done := true }).writeBlockRows r i o.loc o.local.2
        (o.localRows rows))) ∧
    (∀ c a, r.ending = false → readRows (fun a => s.baseRead r i f o.base (o.off + a * o.fstride) o.rbytes)
        (List.range o.rows) = .error (.fault c a) →
      ∃ t, exec (.get l none) s = .next t ∧ Faulted s t r ∧ t.scratch = s.scratch) ∧
    (∀ (va : Nat) (e : Ecc) (u : State), s.readsAt r f o.reads va = true → u = s.foundAt r.stratum va e →
      (s.readLost r.stratum va e = false → u.runKey l = s.runKey l →
        exec (.get l (some (va, e))) s = exec (.get l none) u) ∧
      (s.readLost r.stratum va e = true → (u.abortFrame r.chan r.seq.toNat).runKey l ≠ s.runKey l →
        exec (.get l (some (va, e))) s = .next (u.abortFrame r.chan r.seq.toNat)))) ∧
  (∀ (l : LogNo) (r : Run) (i k : Nat) (p : Position) (f : Frame) (s u : State), AtHead s opcPut l r i p k →
    s.frame r.chan r.seq.toNat = some f →
    s.putRows r i f (blockOp (p.uop k)) (List.range (blockOp (p.uop k)).rows) = (u, none) →
    exec (.put l) s = .next (u.issue r i { Flight.start k 0 with done := true })) ∧
  (∀ (l : LogNo) (r : Run) (i k j : Nat) (p q : Position) (s : State), AtHead s opcHsend l r i p k → (haloOp (p.uop k)).dir < 4 →
    neighbour (s.groupShape r).1 (s.groupShape r).2 i (haloOp (p.uop k)).dir = some j → r.pos j = some q →
    (q.halo opcHrecv (((haloOp (p.uop k)).dir + 2) % 4) p.sends[(Fin.ofNat 4 (haloOp (p.uop k)).dir : Fin 4)] = none →
      exec (.hsend l) s = .next ((s.issue r i (Flight.start k
        p.sends[(Fin.ofNat 4 (haloOp (p.uop k)).dir : Fin 4)])).modPos r i fun x =>
          { x with sends := vmod x.sends (Fin.ofNat 4 (haloOp (p.uop k)).dir) fun n => n + 1 })) ∧
    (∀ m, q.halo opcHrecv (((haloOp (p.uop k)).dir + 2) % 4) p.sends[(Fin.ofNat 4 (haloOp (p.uop k)).dir : Fin 4)] = some m →
      exec (.hsend l) s = .next (((s.issue r i (Flight.start k
        p.sends[(Fin.ofNat 4 (haloOp (p.uop k)).dir : Fin 4)])).modPos r i fun x =>
          { x with sends := vmod x.sends (Fin.ofNat 4 (haloOp (p.uop k)).dir) fun n => n + 1 }).exchange r i k j m))) ∧
  (∀ (l : LogNo) (r : Run) (i k j : Nat) (p q : Position) (s : State), AtHead s opcHrecv l r i p k → (haloOp (p.uop k)).dir < 4 →
    neighbour (s.groupShape r).1 (s.groupShape r).2 i (haloOp (p.uop k)).dir = some j → r.pos j = some q →
    (q.halo opcHsend (((haloOp (p.uop k)).dir + 2) % 4) p.recvs[(Fin.ofNat 4 (haloOp (p.uop k)).dir : Fin 4)] = none →
      exec (.hrecv l) s = .next ((s.issue r i (Flight.start k
        p.recvs[(Fin.ofNat 4 (haloOp (p.uop k)).dir : Fin 4)])).modPos r i fun x =>
          { x with recvs := vmod x.recvs (Fin.ofNat 4 (haloOp (p.uop k)).dir) fun n => n + 1 })) ∧
    (∀ m, q.halo opcHsend (((haloOp (p.uop k)).dir + 2) % 4) p.recvs[(Fin.ofNat 4 (haloOp (p.uop k)).dir : Fin 4)] = some m →
      exec (.hrecv l) s = .next (((s.issue r i (Flight.start k
        p.recvs[(Fin.ofNat 4 (haloOp (p.uop k)).dir : Fin 4)])).modPos r i fun x =>
          { x with recvs := vmod x.recvs (Fin.ofNat 4 (haloOp (p.uop k)).dir) fun n => n + 1 }).exchange r j m i k)))

/-- R639 to R641, R647, R654 to R661, R664, R670, R671: a Mica operation reads its elements, evaluates its function on
each and writes the results; NaR gives NaR, and what lies outside the domain gives NaR; a soft maximum updates its
state; a micro-program starts on its first group and takes its steps in order. The model's choices it rests on: log
entries 112, 113, 114, 156. -/
def Obligations.MicaOperations : Prop :=
  (∀ (l : LogNo) (r : Run) (i k : Nat) (p : Position) (f : Frame) (o : MicaOp) (s : State), AtHead s opcMica l r i p k →
    s.frame r.chan r.seq.toNat = some f → micaOp (p.uop k) = o →
    (∀ c ∈ [(Instr.micaExp l, 1), (Instr.micaExp2 l, 2), (Instr.micaLog2 l, 3), (Instr.micaRecip l, 4),
        (Instr.micaRsqrt l, 5), (Instr.micaTanh l, 6), (Instr.micaSigmoid l, 7), (Instr.micaErf l, 8),
        (Instr.micaGeluErf l, 9), (Instr.micaGeluTanh l, 10), (Instr.micaGeluSig l, 11), (Instr.micaSilu l, 12)],
      o.func = c.2 →
      exec c.1 s = .next (((s.issue r i (Flight.start k 0)).windowWrite r i o.dst
        (pack o.outFmt ((s.micaElements r i o).map (builtinOf s f o)))).flightDone r i k)) ∧
    (o.table = true →
      exec (.micaTable l) s = .next (((s.issue r i (Flight.start k 0)).windowWrite r i o.dst
        (pack o.outFmt ((s.micaElements r i o).map fun x =>
          tableAt f.tables[(Fin.ofNat 8 (o.func - 0x20) : Fin 8)].image o.inFmt o.outFmt x))).flightDone r i k)) ∧
    (o.func = 0x13 →
      exec (.rowscale l) s = .next (((s.issue r i (Flight.start k 0)).micaWriteRows r i o ((List.range 32).map fun (j : Nat) =>
        (((s.micaRows r i o)[j]?).getD []).map
          (rowScaled o.inFmt o.outFmt (((s.micaVector r i o.aux)[j]?).getD 0)))).flightDone r i k)) ∧
    (o.func = 0x11 →
      exec (.smaxNorm l) s = .next (((s.issue r i (Flight.start k 0)).micaWriteRows r i o ((List.range 32).map fun (j : Nat) =>
        (((s.micaRows r i o)[j]?).getD []).map (smaxNorm s.micaVersion o.inFmt o.outFmt
          (((unpack 2 64 (s.windowRead r i o.aux 256))[2 * j]?).getD 0)
          (((unpack 2 64 (s.windowRead r i o.aux 256))[2 * j + 1]?).getD 0)))).flightDone r i k)) ∧
    (o.func = 0x10 → o.vec = false → o.init = true →
      exec (.smaxAcc l) s = .next (((s.issue r i (Flight.start k 0)).windowWrite r i o.aux
        (pack 2 (((List.range 32).map fun (j : Nat) =>
          smaxAcc s.micaVersion o.inFmt true (((unpack 2 64 (s.windowRead r i o.aux 256))[2 * j]?).getD 0)
            (((unpack 2 64 (s.windowRead r i o.aux 256))[2 * j + 1]?).getD 0)
            (convertPosit (fmtBits o.inFmt) 32 (rowBest (fmtBits o.inFmt) false (((s.micaRows r i o)[j]?).getD [])))
            (((s.micaRows r i o)[j]?).getD [])).map fun x => [x.1, x.2]).flatten)).flightDone r i k)) ∧
    (o.func = 0x10 → ∃ t, exec (.smaxAcc l) s = .next t ∧ ChangesOnly [.runs, .scratch] s t) ∧
    (o.func = 0x12 → o.fin = false → o.init = true →
      exec (.smax1p l) s = .next (((((s.issue r i (Flight.start k 0)).micaWriteRows r i o ((s.micaRows r i o).map fun row =>
        row.map (micaBuiltin s.micaVersion 1 o.inFmt o.outFmt false))).windowWrite r i o.aux
          (((List.range 32).map fun (j : Nat) => addRow o.outFmt (some 0) ((((s.micaRows r i o).map fun row =>
            row.map (micaBuiltin s.micaVersion 1 o.inFmt o.outFmt false))[j]?).getD [])).map fun q =>
              leBytes 64 (quirePattern 512 q)).flatten).count r.stratum 5
          ((s.micaRows r i o).map fun row => (row.filter (expExceeds o.inFmt o.outFmt)).length).sum).flightDone r i k)) ∧
    (o.mprog = true →
      exec (.micaMprog l) s = .next ((s.issue r i (Flight.start k 0)).setMprog r i
        (some (mprogRunOf k 0 0 (s.mprogStart r i o 0)))))) ∧
  (∀ (l : LogNo) (r : Run) (i : Nat) (p : Position) (m : MprogRun) (f : Frame) (s : State), s.runAt l = some (r, i) →
    r.pos i = some p → spGet r.mprogs i = some m → s.frame r.chan r.seq.toNat = some f →
    ∀ c ∈ [(Instr.mul l, 1), (Instr.add l, 2), (Instr.fmq l, 3), (Instr.lut l, 4), (Instr.csel l, 5), (Instr.rred l, 6),
      (Instr.rscale l, 7)],
    (mstep f.mprogs[(Fin.ofNat 8 ((micaOp (p.uop m.idx)).func - 0x30) : Fin 8)] m.step).op = c.2 →
    ∀ img lanes, img = f.mprogs[(Fin.ofNat 8 ((micaOp (p.uop m.idx)).func - 0x30) : Fin 8)] →
    lanes = mprogLanesAfter f (mstep img m.step) m.lanes →
    ∃ t, exec c.1 s = .next t ∧ ChangesOnly [.runs, .scratch] s t ∧
      (m.step + 1 < mprogSteps img → t = s.setMprog r i (some (mprogRunOf m.idx m.group (m.step + 1) lanes))) ∧
      (mprogSteps img ≤ m.step + 1 → (micaOp (p.uop m.idx)).count ≤ m.group + 1 →
        t = ((s.mprogWrite r i (micaOp (p.uop m.idx)) m.group lanes).setMprog r i none).flightDone r i m.idx)) ∧
  (∀ (v func inFmt outFmt : Nat) (compat : Bool), inFmt < 3 → outFmt < 3 →
    micaBuiltin v func inFmt outFmt compat (nar (fmtBits inFmt)) = nar (fmtBits outFmt)) ∧
  (∀ (v func inFmt outFmt p : Nat) (compat : Bool), p % 2 ^ fmtBits inFmt ≠ nar (fmtBits inFmt) →
    micaDomain func (fxOfPosit (fmtBits inFmt) p) = false →
    micaBuiltin v func inFmt outFmt compat p = nar (fmtBits outFmt))

/-! ### Lock-step -/

/-- R991, R995, R999, R1001 to R1003, R1005: a LOCKSTEP frame which is accepted acts by its kind: a digest is compared or
kept, a request for a log is answered, a log which the peer dropped locates the divergence to its frame, forwarded
input moves to its channel, a pair record completes or refuses the pairing, and UNPAIR ends the pair; a pairing which
gets no record within 100 ms is refused. The model's choices it rests on: log entries 115, 116, 117, 118, 119, 120. -/
def Obligations.LockstepFrames : Prop :=
  (∀ (p : PortNo) (b : List Byte) (s : State), s.ports[p].st = .active → s.ports[p].skipping = false →
    s.ports[p].role = 2 → 1 ≤ b.length → b.length ≤ 4096 →
    s.ports[p].creditsOf b.length ≤ (s.ports[p].lockRx.limit - s.ports[p].lockRx.consumed).toNat →
    (s.ports[p].lockRx.limit - s.ports[p].lockRx.consumed).toNat ≤ 32767 →
    (∀ d : Digest, b = lockPayload 1 1 (digestRecord d) → s.lock.st = .paired → d.pairSeq < 2 ^ 64 → d.chan < 65536 →
      d.tiles < 2 ^ 32 →
      ∃ t, exec (.digestFrame p (frameBytes 3 4095 s.ports[p].rxSeq.toNat 0 b)) s = .next t ∧
        t.ports[p].rxSeq = s.ports[p].rxSeq + 1 ∧
        ((s.lock.mine.find? fun e => e.chan == d.chan && e.pairSeq == d.pairSeq) = none → s.lock.full = false →
          t.lock.peers = s.lock.peers ++ [{ d with frameSeq := 0, prog := 0 }] ∧ t.lock.compared = s.lock.compared) ∧
        (∀ e, (s.lock.mine.find? fun e => e.chan == d.chan && e.pairSeq == d.pairSeq) = some e →
          ((e.flags ||| d.flags) &&& 3 ≠ 0 ∨ e.conditions ≠ d.conditions →
            t.lock.skipped = s.lock.skipped + 1 ∧ t.lock.compared = s.lock.compared) ∧
          ((e.flags ||| d.flags) &&& 3 = 0 → e.conditions = d.conditions → e.digest = d.digest →
            t.lock.compared = s.lock.compared + 1 ∧ t.lock.divergent = s.lock.divergent ∧
            t.lock.comparedTiles = s.lock.comparedTiles + BitVec.ofNat 64 e.tiles))) ∧
    (∀ q c : Nat, b = lockPayload 2 1 (leBytes 8 q ++ leBytes 2 c ++ List.replicate 6 0) → s.lock.st = .paired →
      q < 2 ^ 64 → c < 65536 → s.lock.log c q = none →
      ∃ t, exec (.logReq p (frameBytes 3 4095 s.ports[p].rxSeq.toNat 0 b)) s = .next t ∧
        t.ports[p].rxSeq = s.ports[p].rxSeq + 1 ∧
        ((none, logPayload c q true []) ∈ t.lock.sendq ∨
          ∃ n, Emit.frame 7 (frameBytes 3 4095 n 0 (logPayload c q true [])) ∈ t.out)) ∧
    (∀ (d : Digest) (l : List TileSig), b = logPayload d.chan d.pairSeq true [] → d.pairSeq < 2 ^ 64 → d.chan < 65536 →
      (s.lock.asked.find? fun e => e.1.chan == d.chan && e.1.pairSeq == d.pairSeq) = some (d, l) → s.lock.first = none →
      ∃ t, exec (.logFrame p (frameBytes 3 4095 s.ports[p].rxSeq.toNat 0 b)) s = .next t ∧
        t.lock.first = some d.wholeFrame ∧ ∀ e ∈ t.lock.asked, e.1 ≠ d) ∧
    (∀ (x : Chan) (set : Nat), b = lockPayload 4 1 (forwardRecord x.num 3 0 set) → x.num < 65536 → set < 256 →
      s.chan x.num = some x → s.takesForwarded x = true → s.lock.area = [] →
      ∃ t y n, exec (.forward p (frameBytes 3 4095 s.ports[p].rxSeq.toNat 0 b)) s = .next t ∧ t.lock.area = [] ∧
        t.chan x.num = some y ∧ n ∈ y.slate.notices ∧ n.set = set ∧
        n.effective = x.marks + s.ports[x.port].latency) ∧
    (fieldNat b 0 1 = 5 →
      (s.lock.st ≠ .paired → s.lock.st ≠ .pairing →
        ∃ t, exec (.pairFrame p (frameBytes 3 4095 s.ports[p].rxSeq.toNat 0 b)) s = .next t ∧
          t.lock.peerRec = some (s.tick, b.drop 8) ∧ t.lock.st = s.lock.st) ∧
      (∀ i, s.lock.st = .pairing → s.lock.cmd = some i →
        ∃ t, exec (.pairFrame p (frameBytes 3 4095 s.ports[p].rxSeq.toNat 0 b)) s = .next t ∧ t.lock.cmd = none ∧
          t.lock.st = (if recordsAgree s.pairRecord (b.drop 8) then .paired else .unpaired) ∧
          ∀ o ∈ t.outst, o.id ≠ i)) ∧
    (fieldNat b 0 1 = 6 → s.lock.st = .paired →
      ∃ t, exec (.unpairFrame p (frameBytes 3 4095 s.ports[p].rxSeq.toNat 0 b)) s = .next t ∧ t.lock.st = .ended ∧
        t.lock.endCause = 2 ∧ t.lock.target = s.lock.target)) ∧
  (∀ (i : Nat) (s : State), s.lock.st = .pairing → s.lock.cmd = some i →
    ∃ t, exec .pairTimeout s = .next t ∧ t.lock.st = .unpaired ∧ s.lock.began + 80000000 ≤ t.tick ∧
      ∀ o ∈ t.outst, o.id ≠ i)

/-! ### Commands which are turned away -/

/-- R26 (OPCODE not listed). -/
def Obligations.UnlistedOpcodeRejected : Prop :=
  ∀ (fn : FnNo) (qp : QpNo) (op : BitVec 8) (p : Packet) (s : State), listedOpcodes.contains op.toNat = false →
    Ready s fn qp op false p →
    ∃ t, exec (.unlistedOpcode fn qp op p) s = .next t ∧ Replied s t fn qp op p stBadOpcode 0 0 0 ∧
      ChangesOnly [.fns, .out] s t

/-- R193, R274, R284 to R286, R463: a host command which a function sends whose stratum does not exist is answered with
ST_BAD_STATE and has no effect but on its queue pair, DEV_IDENTIFY apart; a command of a chain which has failed is
answered with the TAG of the command which failed. -/
def Obligations.CommandsTurnedAway : Prop :=
  (∀ (c : Instr) (w : CmdSpec) (long : Bool) (fn : FnNo) (qp : QpNo) (p : Packet) (s : State),
    command c = some (w, long, fn, qp, p) → Ready s fn qp w.op long p → s.strata[fn].live = false → w.op ≠ 1 →
    ∃ t r, exec c s = .next t ∧ Replied s t fn qp w.op p stBadState 0 r 0 ∧
      ChangesOnly [.fns, .out] s t) ∧
  (∀ (fn : FnNo) (qp : QpNo) (op : BitVec 8) (p : Packet) (tag : W16) (s : State),
    s.fns[fn].qps[qp].chainFailed = some tag → s.queueOpen fn qp = true → s.inTurn fn qp = true →
    (s.fns[fn].qps[qp].held = some ⟨op, p⟩ ∨ (s.fns[fn].qps[qp].held = none ∧ s.fns[fn].busMaster = true ∧
      s.fns[fn].qps[qp].stopping = false ∧ s.fns[fn].qps[qp].readPos ≠ s.fns[fn].qps[qp].tail)) →
    s.orderWaits fn qp p = false →
    ∃ t, exec (.cancelledCommand fn qp op p) s = .next t ∧
      Replied s t fn qp op p stBadState 0 ((1#64 <<< 63) ||| tag.setWidth 64) 0 ∧ ChangesOnly [.fns, .out] s t)

/-! ### Values -/

/-- R58. -/
def Obligations.EffectiveCapIsTheLowest : Prop :=
  ∀ s : State, s.effectiveCap ≤ s.plans.hostCap ∧ (s.sup.cap70 = true → s.effectiveCap ≤ 70) ∧
    (∀ c, s.plans.thermalCap = some c → s.effectiveCap ≤ c) ∧
    (s.effectiveCap = s.plans.hostCap ∨ (s.sup.cap70 = true ∧ s.effectiveCap = 70) ∨
      s.plans.thermalCap = some s.effectiveCap)

/-- R530. -/
def Obligations.QuireKeepsNaR : Prop :=
  (∀ (n w k : Nat) (l : List (Nat × Nat)), accumulate n w k none l = none) ∧
  (∀ (n w : Nat) (q : Option Int) (l r : List (Nat × Nat)) (x : Nat × Nat),
    (decodePosit n x.1 = none ∨ decodePosit n x.2 = none) →
    accumulate n w (l ++ x :: r).length q (l ++ x :: r) = none) ∧
  (∀ (o : StepOp) (a b : OpSlot) (m : List (Nat × BitVec 256)) (i j : Nat), o.fmt ≠ 2 → o.clear = false → i < 32 → j < 32 →
    (cellBits m (32 * i + j)).toNat = 2 ^ 255 → (cellBits (stepBank o a b m) (32 * i + j)).toNat = 2 ^ 255) ∧
  (∀ (o : StepOp) (a b : OpSlot) (m : List (Nat × BitVec 256)) (i j : Nat), o.fmt = 2 → o.clear = false → i < 32 → j < 16 →
    cellBits m (32 * i + 2 * j) = 0 → (cellBits m (32 * i + 2 * j + 1)).toNat = 2 ^ 255 →
    cellBits (stepBank o a b m) (32 * i + 2 * j) = 0 ∧
      (cellBits (stepBank o a b m) (32 * i + 2 * j + 1)).toNat = 2 ^ 255) ∧
  (∀ (o : StepOp) (a b : OpSlot) (m m' : List (Nat × BitVec 256)), o.clear = true → stepBank o a b m = stepBank o a b m')

/-! ### The whole module -/

/-- The model's order of commands: a step carries out the command at the front of the queue, on the state with the rest of
the queue; on an empty queue the module lets a tick pass, or withholds it (log entry 1). -/
def Obligations.StepRunsTheFront : Prop :=
  (∀ (c : Instr) (rest : List Instr) (s : State),
    step { s with pending := c :: rest } = exec c { s with pending := rest }) ∧
  (∀ s : State, s.pending = [] → ∃ t, step s = .next t ∧ t.pending = [])

/-- Every command completes in every state, and leaves the queue of waiting commands as it is. The model's choices it
rests on: log entry 3. -/
def Obligations.EveryCommandCompletes : Prop :=
  ∀ (c : Instr) (s : State), ∃ t, exec c s = .next t ∧ t.pending = s.pending

/-- The frame of every command: no component changes but those which its row names. The model's choices it rests on: log
entry 3. -/
def Obligations.FrameOfEveryCommand : Prop :=
  ∀ (c : Instr) (s t : State), exec c s = .next t → ChangesOnly (mayChange c) s t

/-- Every step keeps every memory of the module in its canonical form. The model's choices it rests on: log entry 22. -/
def Obligations.MemoryFormKept : Prop :=
  ∀ s t : State, Memory.wf s → step s = .next t → Memory.wf t

/-- The reset state's memories are in canonical form. The model's choices it rests on: log entry 22. -/
def Obligations.MemoryFormAtReset : Prop := Memory.wf State.reset

/-- R15, R71, R108, R113, R175, R198, R246, R800: what a power-on reset leaves, and that no other reset disturbs the tick. -/
def Obligations.ResetLeaves : Prop :=
  State.reset.tick = 0 ∧ State.reset.pending = [] ∧ State.reset.outst = [] ∧ State.reset.sup.power = .standby ∧
  State.reset.boot.phase = 1 ∧ State.reset.boot.fatalLog = Vector.replicate 8 0 ∧
  State.reset.plans.hostCap = 175 ∧ State.reset.plans.selected = 1 ∧ State.reset.plans.thermalCap = none ∧
  (∀ n : FnNo, State.reset.strata[n].live = (n == 0)) ∧
  (∀ (n : FnNo) (qp : QpNo), State.reset.fns[n].qps[qp].enable = false ∧ State.reset.fns[n].qps[qp].running = false ∧
    State.reset.fns[n].qps[qp].error = false) ∧
  (∀ n : FnNo, State.reset.fns[n].evq.running = false ∧ State.reset.fns[n].intCause = 0) ∧
  (∀ p : PortNo, State.reset.ports[p].st = .disabled ∧ State.reset.ports[p].reason = 1) ∧
  State.reset.chans = [] ∧ State.reset.progs = [] ∧ State.reset.frames = [] ∧ State.reset.runs = [] ∧
  (∀ (v : Volts) (s : State), s.sup.power = .off → (1050 < v.main ∨ 1050 < v.aux) →
    ∃ t, exec (.inputRise v) s = .next t ∧ t.tick = 0) ∧
  (∀ (v : Volts) (s : State), s.sup.power = .holdup → (1050 < v.main ∨ 1050 < v.aux) →
    ∃ t, exec (.holdupSequenceComplete v) s = .next t ∧ t.tick = 0) ∧
  (∀ (c : Instr) (s t : State), c ∈ [Instr.perstAssert, .perstDeassert, .pcieReferenceLost, .flrPf, .d3hotToD0, .modResetN,
      .testEn, .moduleReset, .modResetNRise, .testEnLow, .scrubComplete] → exec c s = .next t → t.tick = s.tick) ∧
  (∀ (fn : FnNo) (s t : State), exec (.flrVf fn) s = .next t → t.tick = s.tick) ∧
  (∀ (n : Option Nat) (s t : State), exec (.vfEnableClear n) s = .next t → t.tick = s.tick) ∧
  (∀ (fn : FnNo) (qp : QpNo) (p : Packet) (s t : State), exec (.unitFence fn qp p) s = .next t → t.tick = s.tick) ∧
  (∀ (u : W16) (s t : State), exec (.drainEnd u) s = .next t → t.tick = s.tick)

end
end

