-- ==== Sys2Proof/Laws/Changes.lean ====
section
/-!
SUPPORT. Laws of `ChangesOnly`: it is reflexive and transitive, a longer list of components says less, and one
lemma for each record update of the state.
-/

namespace Sys2Proof.Machine

theorem ChangesOnly.refl (ks : List Comp) (s : State) : ChangesOnly ks s s := by
  intro c _; cases c <;> rfl

theorem Comp.Same.trans {c : Comp} {r s t : State} (h : c.Same r s) (g : c.Same s t) : c.Same r t := by
  cases c <;> exact Eq.trans g h

theorem Comp.Same.symm {c : Comp} {s t : State} (h : c.Same s t) : c.Same t s := by
  cases c <;> exact Eq.symm h

theorem ChangesOnly.trans {ks : List Comp} {r s t : State} (h : ChangesOnly ks r s) (g : ChangesOnly ks s t) :
    ChangesOnly ks r t := fun c hc => (h c hc).trans (g c hc)

theorem ChangesOnly.mono {ks ls : List Comp} {s t : State} (h : ChangesOnly ks s t) (hs : ∀ c ∈ ks, c ∈ ls) :
    ChangesOnly ls s t := fun c hc => h c fun hk => hc (hs c hk)

/-- A change within the list neither makes nor breaks `ChangesOnly`. -/
theorem ChangesOnly.congr {ks : List Comp} {r s t : State} (h : ChangesOnly ks s t) :
    ChangesOnly ks r t ↔ ChangesOnly ks r s :=
  ⟨fun g c hc => (g c hc).trans (h c hc).symm, fun g => g.trans h⟩

theorem changesOnly_self (ks : List Comp) (s : State) : ChangesOnly ks s s ↔ True :=
  iff_true_intro (ChangesOnly.refl ks s)

/-- A change made for each element of a list stays within the list if each change does. -/
theorem forEach_only {α : Type} {ks : List Comp} {r : State} {f : α → State → State}
    (h : ∀ a t, ChangesOnly ks r (f a t) ↔ ChangesOnly ks r t) (l : List α) (s : State) :
    ChangesOnly ks r (s.forEach l f) ↔ ChangesOnly ks r s := by
  unfold State.forEach
  induction l generalizing s with
  | nil => rfl
  | cons a l ih => simp only [List.foldl_cons]; rw [ih, h]

/-- The same for a fold. -/
theorem foldl_only {α : Type} {ks : List Comp} {r : State} {f : State → α → State}
    (h : ∀ t a, ChangesOnly ks r (f t a) ↔ ChangesOnly ks r t) (l : List α) (s : State) :
    ChangesOnly ks r (l.foldl f s) ↔ ChangesOnly ks r s := by
  induction l generalizing s with
  | nil => rfl
  | cons a l ih => simp only [List.foldl_cons]; rw [ih, h]

/-- The same for a fold which carries the state and more. -/
theorem foldl_fst_only {α β : Type} {ks : List Comp} {r : State} {f : State × β → α → State × β}
    (h : ∀ x a, ChangesOnly ks r (f x a).1 ↔ ChangesOnly ks r x.1) (l : List α) (x : State × β) :
    ChangesOnly ks r (l.foldl f x).1 ↔ ChangesOnly ks r x.1 := by
  induction l generalizing x with
  | nil => rfl
  | cons a l ih => simp only [List.foldl_cons]; rw [ih, h]

theorem ite_only {ks : List Comp} {r : State} {c : Prop} [Decidable c] (a b : State) :
    ChangesOnly ks r (if c then a else b) ↔ if c then ChangesOnly ks r a else ChangesOnly ks r b := by
  split <;> rfl

theorem upd_nextLaunch_scheduled_only {ks : List Comp} {r s : State} {v0 v1} (h0 : Comp.nextLaunch ∈ ks) (h1 : Comp.scheduled ∈ ks) :
    ChangesOnly ks r { s with nextLaunch := v0, scheduled := v1 } ↔ ChangesOnly ks r s := by
  refine ChangesOnly.congr fun c hc => ?_
  cases c <;> first | rfl | contradiction

theorem upd_withhold_only {ks : List Comp} {r s : State} {v0} (h0 : Comp.withhold ∈ ks) :
    ChangesOnly ks r { s with withhold := v0 } ↔ ChangesOnly ks r s := by
  refine ChangesOnly.congr fun c hc => ?_
  cases c <;> first | rfl | contradiction

theorem upd_boot_only {ks : List Comp} {r s : State} {v0} (h0 : Comp.boot ∈ ks) :
    ChangesOnly ks r { s with boot := v0 } ↔ ChangesOnly ks r s := by
  refine ChangesOnly.congr fun c hc => ?_
  cases c <;> first | rfl | contradiction

theorem upd_lanes_only {ks : List Comp} {r s : State} {v0} (h0 : Comp.lanes ∈ ks) :
    ChangesOnly ks r { s with lanes := v0 } ↔ ChangesOnly ks r s := by
  refine ChangesOnly.congr fun c hc => ?_
  cases c <;> first | rfl | contradiction

theorem upd_units_toReplace_thermal_only {ks : List Comp} {r s : State} {v0 v1 v2} (h0 : Comp.units ∈ ks) (h1 : Comp.toReplace ∈ ks) (h2 : Comp.thermal ∈ ks) :
    ChangesOnly ks r { s with units := v0, toReplace := v1, thermal := v2 } ↔ ChangesOnly ks r s := by
  refine ChangesOnly.congr fun c hc => ?_
  cases c <;> first | rfl | contradiction

theorem upd_ext_only {ks : List Comp} {r s : State} {v0} (h0 : Comp.ext ∈ ks) :
    ChangesOnly ks r { s with ext := v0 } ↔ ChangesOnly ks r s := by
  refine ChangesOnly.congr fun c hc => ?_
  cases c <;> first | rfl | contradiction

theorem upd_sup_only {ks : List Comp} {r s : State} {v0} (h0 : Comp.sup ∈ ks) :
    ChangesOnly ks r { s with sup := v0 } ↔ ChangesOnly ks r s := by
  refine ChangesOnly.congr fun c hc => ?_
  cases c <;> first | rfl | contradiction

theorem upd_jtag_only {ks : List Comp} {r s : State} {v0} (h0 : Comp.jtag ∈ ks) :
    ChangesOnly ks r { s with jtag := v0 } ↔ ChangesOnly ks r s := by
  refine ChangesOnly.congr fun c hc => ?_
  cases c <;> first | rfl | contradiction

theorem upd_mprogs_only {ks : List Comp} {r s : State} {v0} (h0 : Comp.mprogs ∈ ks) :
    ChangesOnly ks r { s with mprogs := v0 } ↔ ChangesOnly ks r s := by
  refine ChangesOnly.congr fun c hc => ?_
  cases c <;> first | rfl | contradiction

theorem upd_barriers_only {ks : List Comp} {r s : State} {v0} (h0 : Comp.barriers ∈ ks) :
    ChangesOnly ks r { s with barriers := v0 } ↔ ChangesOnly ks r s := by
  refine ChangesOnly.congr fun c hc => ?_
  cases c <;> first | rfl | contradiction

theorem upd_nextLaunch_only {ks : List Comp} {r s : State} {v0} (h0 : Comp.nextLaunch ∈ ks) :
    ChangesOnly ks r { s with nextLaunch := v0 } ↔ ChangesOnly ks r s := by
  refine ChangesOnly.congr fun c hc => ?_
  cases c <;> first | rfl | contradiction

theorem upd_toReplace_only {ks : List Comp} {r s : State} {v0} (h0 : Comp.toReplace ∈ ks) :
    ChangesOnly ks r { s with toReplace := v0 } ↔ ChangesOnly ks r s := by
  refine ChangesOnly.congr fun c hc => ?_
  cases c <;> first | rfl | contradiction

theorem upd_remaps_only {ks : List Comp} {r s : State} {v0} (h0 : Comp.remaps ∈ ks) :
    ChangesOnly ks r { s with remaps := v0 } ↔ ChangesOnly ks r s := by
  refine ChangesOnly.congr fun c hc => ?_
  cases c <;> first | rfl | contradiction

theorem upd_outst_copies_deliveries_waits_barriers_progs_scheduled_tableLoads_mprogLoads_runs_ports_chans_frames_stores_pieces_loaded_lock_logReads_remaps_only {ks : List Comp} {r s : State} {v0 v1 v2 v3 v4 v5 v6 v7 v8 v9 v10 v11 v12 v13 v14 v15 v16 v17 v18} (h0 : Comp.outst ∈ ks) (h1 : Comp.copies ∈ ks) (h2 : Comp.deliveries ∈ ks) (h3 : Comp.waits ∈ ks) (h4 : Comp.barriers ∈ ks) (h5 : Comp.progs ∈ ks) (h6 : Comp.scheduled ∈ ks) (h7 : Comp.tableLoads ∈ ks) (h8 : Comp.mprogLoads ∈ ks) (h9 : Comp.runs ∈ ks) (h10 : Comp.ports ∈ ks) (h11 : Comp.chans ∈ ks) (h12 : Comp.frames ∈ ks) (h13 : Comp.stores ∈ ks) (h14 : Comp.pieces ∈ ks) (h15 : Comp.loaded ∈ ks) (h16 : Comp.lock ∈ ks) (h17 : Comp.logReads ∈ ks) (h18 : Comp.remaps ∈ ks) :
    ChangesOnly ks r { s with outst := v0, copies := v1, deliveries := v2, waits := v3, barriers := v4, progs := v5, scheduled := v6, tableLoads := v7, mprogLoads := v8, runs := v9, ports := v10, chans := v11, frames := v12, stores := v13, pieces := v14, loaded := v15, lock := v16, logReads := v17, remaps := v18 } ↔ ChangesOnly ks r s := by
  refine ChangesOnly.congr fun c hc => ?_
  cases c <;> first | rfl | contradiction

theorem upd_nextId_outst_only {ks : List Comp} {r s : State} {v0 v1} (h0 : Comp.nextId ∈ ks) (h1 : Comp.outst ∈ ks) :
    ChangesOnly ks r { s with nextId := v0, outst := v1 } ↔ ChangesOnly ks r s := by
  refine ChangesOnly.congr fun c hc => ?_
  cases c <;> first | rfl | contradiction

theorem upd_tables_only {ks : List Comp} {r s : State} {v0} (h0 : Comp.tables ∈ ks) :
    ChangesOnly ks r { s with tables := v0 } ↔ ChangesOnly ks r s := by
  refine ChangesOnly.congr fun c hc => ?_
  cases c <;> first | rfl | contradiction

theorem upd_frames_lock_only {ks : List Comp} {r s : State} {v0 v1} (h0 : Comp.frames ∈ ks) (h1 : Comp.lock ∈ ks) :
    ChangesOnly ks r { s with frames := v0, lock := v1 } ↔ ChangesOnly ks r s := by
  refine ChangesOnly.congr fun c hc => ?_
  cases c <;> first | rfl | contradiction

theorem upd_out_only {ks : List Comp} {r s : State} {v0} (h0 : Comp.out ∈ ks) :
    ChangesOnly ks r { s with out := v0 } ↔ ChangesOnly ks r s := by
  refine ChangesOnly.congr fun c hc => ?_
  cases c <;> first | rfl | contradiction

theorem upd_ext_boot_only {ks : List Comp} {r s : State} {v0 v1} (h0 : Comp.ext ∈ ks) (h1 : Comp.boot ∈ ks) :
    ChangesOnly ks r { s with ext := v0, boot := v1 } ↔ ChangesOnly ks r s := by
  refine ChangesOnly.congr fun c hc => ?_
  cases c <;> first | rfl | contradiction

theorem upd_free_only {ks : List Comp} {r s : State} {v0} (h0 : Comp.free ∈ ks) :
    ChangesOnly ks r { s with free := v0 } ↔ ChangesOnly ks r s := by
  refine ChangesOnly.congr fun c hc => ?_
  cases c <;> first | rfl | contradiction

theorem upd_clusters_only {ks : List Comp} {r s : State} {v0} (h0 : Comp.clusters ∈ ks) :
    ChangesOnly ks r { s with clusters := v0 } ↔ ChangesOnly ks r s := by
  refine ChangesOnly.congr fun c hc => ?_
  cases c <;> first | rfl | contradiction

theorem upd_nv_only {ks : List Comp} {r s : State} {v0} (h0 : Comp.nv ∈ ks) :
    ChangesOnly ks r { s with nv := v0 } ↔ ChangesOnly ks r s := by
  refine ChangesOnly.congr fun c hc => ?_
  cases c <;> first | rfl | contradiction

theorem upd_chans_only {ks : List Comp} {r s : State} {v0} (h0 : Comp.chans ∈ ks) :
    ChangesOnly ks r { s with chans := v0 } ↔ ChangesOnly ks r s := by
  refine ChangesOnly.congr fun c hc => ?_
  cases c <;> first | rfl | contradiction

theorem upd_fns_outst_only {ks : List Comp} {r s : State} {v0 v1} (h0 : Comp.fns ∈ ks) (h1 : Comp.outst ∈ ks) :
    ChangesOnly ks r { s with fns := v0, outst := v1 } ↔ ChangesOnly ks r s := by
  refine ChangesOnly.congr fun c hc => ?_
  cases c <;> first | rfl | contradiction

theorem upd_copies_only {ks : List Comp} {r s : State} {v0} (h0 : Comp.copies ∈ ks) :
    ChangesOnly ks r { s with copies := v0 } ↔ ChangesOnly ks r s := by
  refine ChangesOnly.congr fun c hc => ?_
  cases c <;> first | rfl | contradiction

theorem upd_telem_only {ks : List Comp} {r s : State} {v0} (h0 : Comp.telem ∈ ks) :
    ChangesOnly ks r { s with telem := v0 } ↔ ChangesOnly ks r s := by
  refine ChangesOnly.congr fun c hc => ?_
  cases c <;> first | rfl | contradiction

theorem upd_outst_only {ks : List Comp} {r s : State} {v0} (h0 : Comp.outst ∈ ks) :
    ChangesOnly ks r { s with outst := v0 } ↔ ChangesOnly ks r s := by
  refine ChangesOnly.congr fun c hc => ?_
  cases c <;> first | rfl | contradiction

theorem upd_plans_only {ks : List Comp} {r s : State} {v0} (h0 : Comp.plans ∈ ks) :
    ChangesOnly ks r { s with plans := v0 } ↔ ChangesOnly ks r s := by
  refine ChangesOnly.congr fun c hc => ?_
  cases c <;> first | rfl | contradiction

theorem upd_geo_boot_only {ks : List Comp} {r s : State} {v0 v1} (h0 : Comp.geo ∈ ks) (h1 : Comp.boot ∈ ks) :
    ChangesOnly ks r { s with geo := v0, boot := v1 } ↔ ChangesOnly ks r s := by
  refine ChangesOnly.congr fun c hc => ?_
  cases c <;> first | rfl | contradiction

theorem upd_strata_geo_ext_plans_scratch_clusters_tables_mprogs_ports_lanes_repro_telem_slots_only {ks : List Comp} {r s : State} {v0 v1 v2 v3 v4 v5 v6 v7 v8 v9 v10 v11 v12} (h0 : Comp.strata ∈ ks) (h1 : Comp.geo ∈ ks) (h2 : Comp.ext ∈ ks) (h3 : Comp.plans ∈ ks) (h4 : Comp.scratch ∈ ks) (h5 : Comp.clusters ∈ ks) (h6 : Comp.tables ∈ ks) (h7 : Comp.mprogs ∈ ks) (h8 : Comp.ports ∈ ks) (h9 : Comp.lanes ∈ ks) (h10 : Comp.repro ∈ ks) (h11 : Comp.telem ∈ ks) (h12 : Comp.slots ∈ ks) :
    ChangesOnly ks r { s with strata := v0, geo := v1, ext := v2, plans := v3, scratch := v4, clusters := v5, tables := v6, mprogs := v7, ports := v8, lanes := v9, repro := v10, telem := v11, slots := v12 } ↔ ChangesOnly ks r s := by
  refine ChangesOnly.congr fun c hc => ?_
  cases c <;> first | rfl | contradiction

theorem upd_faults_only {ks : List Comp} {r s : State} {v0} (h0 : Comp.faults ∈ ks) :
    ChangesOnly ks r { s with faults := v0 } ↔ ChangesOnly ks r s := by
  refine ChangesOnly.congr fun c hc => ?_
  cases c <;> first | rfl | contradiction

theorem upd_geo_only {ks : List Comp} {r s : State} {v0} (h0 : Comp.geo ∈ ks) :
    ChangesOnly ks r { s with geo := v0 } ↔ ChangesOnly ks r s := by
  refine ChangesOnly.congr fun c hc => ?_
  cases c <;> first | rfl | contradiction

theorem upd_progs_only {ks : List Comp} {r s : State} {v0} (h0 : Comp.progs ∈ ks) :
    ChangesOnly ks r { s with progs := v0 } ↔ ChangesOnly ks r s := by
  refine ChangesOnly.congr fun c hc => ?_
  cases c <;> first | rfl | contradiction

theorem upd_tableLoads_only {ks : List Comp} {r s : State} {v0} (h0 : Comp.tableLoads ∈ ks) :
    ChangesOnly ks r { s with tableLoads := v0 } ↔ ChangesOnly ks r s := by
  refine ChangesOnly.congr fun c hc => ?_
  cases c <;> first | rfl | contradiction

theorem upd_plans_boot_ports_jtag_only {ks : List Comp} {r s : State} {v0 v1 v2 v3} (h0 : Comp.plans ∈ ks) (h1 : Comp.boot ∈ ks) (h2 : Comp.ports ∈ ks) (h3 : Comp.jtag ∈ ks) :
    ChangesOnly ks r { s with plans := v0, boot := v1, ports := v2, jtag := v3 } ↔ ChangesOnly ks r s := by
  refine ChangesOnly.congr fun c hc => ?_
  cases c <;> first | rfl | contradiction

theorem upd_logReads_only {ks : List Comp} {r s : State} {v0} (h0 : Comp.logReads ∈ ks) :
    ChangesOnly ks r { s with logReads := v0 } ↔ ChangesOnly ks r s := by
  refine ChangesOnly.congr fun c hc => ?_
  cases c <;> first | rfl | contradiction

theorem upd_scratch_clusters_only {ks : List Comp} {r s : State} {v0 v1} (h0 : Comp.scratch ∈ ks) (h1 : Comp.clusters ∈ ks) :
    ChangesOnly ks r { s with scratch := v0, clusters := v1 } ↔ ChangesOnly ks r s := by
  refine ChangesOnly.congr fun c hc => ?_
  cases c <;> first | rfl | contradiction

theorem upd_pieces_loaded_only {ks : List Comp} {r s : State} {v0 v1} (h0 : Comp.pieces ∈ ks) (h1 : Comp.loaded ∈ ks) :
    ChangesOnly ks r { s with pieces := v0, loaded := v1 } ↔ ChangesOnly ks r s := by
  refine ChangesOnly.congr fun c hc => ?_
  cases c <;> first | rfl | contradiction

theorem upd_tables_mprogs_only {ks : List Comp} {r s : State} {v0 v1} (h0 : Comp.tables ∈ ks) (h1 : Comp.mprogs ∈ ks) :
    ChangesOnly ks r { s with tables := v0, mprogs := v1 } ↔ ChangesOnly ks r s := by
  refine ChangesOnly.congr fun c hc => ?_
  cases c <;> first | rfl | contradiction

theorem upd_scheduled_chans_only {ks : List Comp} {r s : State} {v0 v1} (h0 : Comp.scheduled ∈ ks) (h1 : Comp.chans ∈ ks) :
    ChangesOnly ks r { s with scheduled := v0, chans := v1 } ↔ ChangesOnly ks r s := by
  refine ChangesOnly.congr fun c hc => ?_
  cases c <;> first | rfl | contradiction

theorem upd_deliveries_only {ks : List Comp} {r s : State} {v0} (h0 : Comp.deliveries ∈ ks) :
    ChangesOnly ks r { s with deliveries := v0 } ↔ ChangesOnly ks r s := by
  refine ChangesOnly.congr fun c hc => ?_
  cases c <;> first | rfl | contradiction

theorem upd_fns_outst_sup_boot_logReads_only {ks : List Comp} {r s : State} {v0 v1 v2 v3 v4} (h0 : Comp.fns ∈ ks) (h1 : Comp.outst ∈ ks) (h2 : Comp.sup ∈ ks) (h3 : Comp.boot ∈ ks) (h4 : Comp.logReads ∈ ks) :
    ChangesOnly ks r { s with fns := v0, outst := v1, sup := v2, boot := v3, logReads := v4 } ↔ ChangesOnly ks r s := by
  refine ChangesOnly.congr fun c hc => ?_
  cases c <;> first | rfl | contradiction

theorem upd_scheduled_only {ks : List Comp} {r s : State} {v0} (h0 : Comp.scheduled ∈ ks) :
    ChangesOnly ks r { s with scheduled := v0 } ↔ ChangesOnly ks r s := by
  refine ChangesOnly.congr fun c hc => ?_
  cases c <;> first | rfl | contradiction

theorem upd_repro_only {ks : List Comp} {r s : State} {v0} (h0 : Comp.repro ∈ ks) :
    ChangesOnly ks r { s with repro := v0 } ↔ ChangesOnly ks r s := by
  refine ChangesOnly.congr fun c hc => ?_
  cases c <;> first | rfl | contradiction

theorem upd_stores_only {ks : List Comp} {r s : State} {v0} (h0 : Comp.stores ∈ ks) :
    ChangesOnly ks r { s with stores := v0 } ↔ ChangesOnly ks r s := by
  refine ChangesOnly.congr fun c hc => ?_
  cases c <;> first | rfl | contradiction

theorem upd_frames_only {ks : List Comp} {r s : State} {v0} (h0 : Comp.frames ∈ ks) :
    ChangesOnly ks r { s with frames := v0 } ↔ ChangesOnly ks r s := by
  refine ChangesOnly.congr fun c hc => ?_
  cases c <;> first | rfl | contradiction

theorem upd_faults_telem_only {ks : List Comp} {r s : State} {v0 v1} (h0 : Comp.faults ∈ ks) (h1 : Comp.telem ∈ ks) :
    ChangesOnly ks r { s with faults := v0, telem := v1 } ↔ ChangesOnly ks r s := by
  refine ChangesOnly.congr fun c hc => ?_
  cases c <;> first | rfl | contradiction

theorem upd_lock_only {ks : List Comp} {r s : State} {v0} (h0 : Comp.lock ∈ ks) :
    ChangesOnly ks r { s with lock := v0 } ↔ ChangesOnly ks r s := by
  refine ChangesOnly.congr fun c hc => ?_
  cases c <;> first | rfl | contradiction

theorem upd_copies_waits_barriers_scheduled_tableLoads_mprogLoads_stores_logReads_nv_panel_only {ks : List Comp} {r s : State} {v0 v1 v2 v3 v4 v5 v6 v7 v8 v9} (h0 : Comp.copies ∈ ks) (h1 : Comp.waits ∈ ks) (h2 : Comp.barriers ∈ ks) (h3 : Comp.scheduled ∈ ks) (h4 : Comp.tableLoads ∈ ks) (h5 : Comp.mprogLoads ∈ ks) (h6 : Comp.stores ∈ ks) (h7 : Comp.logReads ∈ ks) (h8 : Comp.nv ∈ ks) (h9 : Comp.panel ∈ ks) :
    ChangesOnly ks r { s with copies := v0, waits := v1, barriers := v2, scheduled := v3, tableLoads := v4, mprogLoads := v5, stores := v6, logReads := v7, nv := v8, panel := v9 } ↔ ChangesOnly ks r s := by
  refine ChangesOnly.congr fun c hc => ?_
  cases c <;> first | rfl | contradiction

theorem upd_fns_ext_sup_plans_boot_units_mapping_toReplace_faults_nv_panel_thermal_only {ks : List Comp} {r s : State} {v0 v1 v2 v3 v4 v5 v6 v7 v8 v9 v10 v11} (h0 : Comp.fns ∈ ks) (h1 : Comp.ext ∈ ks) (h2 : Comp.sup ∈ ks) (h3 : Comp.plans ∈ ks) (h4 : Comp.boot ∈ ks) (h5 : Comp.units ∈ ks) (h6 : Comp.mapping ∈ ks) (h7 : Comp.toReplace ∈ ks) (h8 : Comp.faults ∈ ks) (h9 : Comp.nv ∈ ks) (h10 : Comp.panel ∈ ks) (h11 : Comp.thermal ∈ ks) :
    ChangesOnly ks r { s with fns := v0, ext := v1, sup := v2, plans := v3, boot := v4, units := v5, mapping := v6, toReplace := v7, faults := v8, nv := v9, panel := v10, thermal := v11 } ↔ ChangesOnly ks r s := by
  refine ChangesOnly.congr fun c hc => ?_
  cases c <;> first | rfl | contradiction

theorem upd_sup_telem_only {ks : List Comp} {r s : State} {v0 v1} (h0 : Comp.sup ∈ ks) (h1 : Comp.telem ∈ ks) :
    ChangesOnly ks r { s with sup := v0, telem := v1 } ↔ ChangesOnly ks r s := by
  refine ChangesOnly.congr fun c hc => ?_
  cases c <;> first | rfl | contradiction

theorem upd_tick_withhold_only {ks : List Comp} {r s : State} {v0 v1} (h0 : Comp.tick ∈ ks) (h1 : Comp.withhold ∈ ks) :
    ChangesOnly ks r { s with tick := v0, withhold := v1 } ↔ ChangesOnly ks r s := by
  refine ChangesOnly.congr fun c hc => ?_
  cases c <;> first | rfl | contradiction

theorem upd_pending_only {ks : List Comp} {r s : State} {v0} (h0 : Comp.pending ∈ ks) :
    ChangesOnly ks r { s with pending := v0 } ↔ ChangesOnly ks r s := by
  refine ChangesOnly.congr fun c hc => ?_
  cases c <;> first | rfl | contradiction

theorem upd_fns_outst_boot_only {ks : List Comp} {r s : State} {v0 v1 v2} (h0 : Comp.fns ∈ ks) (h1 : Comp.outst ∈ ks) (h2 : Comp.boot ∈ ks) :
    ChangesOnly ks r { s with fns := v0, outst := v1, boot := v2 } ↔ ChangesOnly ks r s := by
  refine ChangesOnly.congr fun c hc => ?_
  cases c <;> first | rfl | contradiction

theorem upd_panel_only {ks : List Comp} {r s : State} {v0} (h0 : Comp.panel ∈ ks) :
    ChangesOnly ks r { s with panel := v0 } ↔ ChangesOnly ks r s := by
  refine ChangesOnly.congr fun c hc => ?_
  cases c <;> first | rfl | contradiction

theorem upd_fns_only {ks : List Comp} {r s : State} {v0} (h0 : Comp.fns ∈ ks) :
    ChangesOnly ks r { s with fns := v0 } ↔ ChangesOnly ks r s := by
  refine ChangesOnly.congr fun c hc => ?_
  cases c <;> first | rfl | contradiction

theorem upd_units_only {ks : List Comp} {r s : State} {v0} (h0 : Comp.units ∈ ks) :
    ChangesOnly ks r { s with units := v0 } ↔ ChangesOnly ks r s := by
  refine ChangesOnly.congr fun c hc => ?_
  cases c <;> first | rfl | contradiction

theorem upd_progs_frames_only {ks : List Comp} {r s : State} {v0 v1} (h0 : Comp.progs ∈ ks) (h1 : Comp.frames ∈ ks) :
    ChangesOnly ks r { s with progs := v0, frames := v1 } ↔ ChangesOnly ks r s := by
  refine ChangesOnly.congr fun c hc => ?_
  cases c <;> first | rfl | contradiction

theorem upd_waits_only {ks : List Comp} {r s : State} {v0} (h0 : Comp.waits ∈ ks) :
    ChangesOnly ks r { s with waits := v0 } ↔ ChangesOnly ks r s := by
  refine ChangesOnly.congr fun c hc => ?_
  cases c <;> first | rfl | contradiction

theorem upd_deliveries_runs_chans_loaded_only {ks : List Comp} {r s : State} {v0 v1 v2 v3} (h0 : Comp.deliveries ∈ ks) (h1 : Comp.runs ∈ ks) (h2 : Comp.chans ∈ ks) (h3 : Comp.loaded ∈ ks) :
    ChangesOnly ks r { s with deliveries := v0, runs := v1, chans := v2, loaded := v3 } ↔ ChangesOnly ks r s := by
  refine ChangesOnly.congr fun c hc => ?_
  cases c <;> first | rfl | contradiction

theorem upd_pieces_only {ks : List Comp} {r s : State} {v0} (h0 : Comp.pieces ∈ ks) :
    ChangesOnly ks r { s with pieces := v0 } ↔ ChangesOnly ks r s := by
  refine ChangesOnly.congr fun c hc => ?_
  cases c <;> first | rfl | contradiction

theorem upd_ext_slots_only {ks : List Comp} {r s : State} {v0 v1} (h0 : Comp.ext ∈ ks) (h1 : Comp.slots ∈ ks) :
    ChangesOnly ks r { s with ext := v0, slots := v1 } ↔ ChangesOnly ks r s := by
  refine ChangesOnly.congr fun c hc => ?_
  cases c <;> first | rfl | contradiction

theorem upd_nv_panel_only {ks : List Comp} {r s : State} {v0 v1} (h0 : Comp.nv ∈ ks) (h1 : Comp.panel ∈ ks) :
    ChangesOnly ks r { s with nv := v0, panel := v1 } ↔ ChangesOnly ks r s := by
  refine ChangesOnly.congr fun c hc => ?_
  cases c <;> first | rfl | contradiction

theorem upd_scratch_only {ks : List Comp} {r s : State} {v0} (h0 : Comp.scratch ∈ ks) :
    ChangesOnly ks r { s with scratch := v0 } ↔ ChangesOnly ks r s := by
  refine ChangesOnly.congr fun c hc => ?_
  cases c <;> first | rfl | contradiction

theorem upd_mapping_lastPhys_only {ks : List Comp} {r s : State} {v0 v1} (h0 : Comp.mapping ∈ ks) (h1 : Comp.lastPhys ∈ ks) :
    ChangesOnly ks r { s with mapping := v0, lastPhys := v1 } ↔ ChangesOnly ks r s := by
  refine ChangesOnly.congr fun c hc => ?_
  cases c <;> first | rfl | contradiction

theorem upd_slots_only {ks : List Comp} {r s : State} {v0} (h0 : Comp.slots ∈ ks) :
    ChangesOnly ks r { s with slots := v0 } ↔ ChangesOnly ks r s := by
  refine ChangesOnly.congr fun c hc => ?_
  cases c <;> first | rfl | contradiction

theorem upd_thermal_only {ks : List Comp} {r s : State} {v0} (h0 : Comp.thermal ∈ ks) :
    ChangesOnly ks r { s with thermal := v0 } ↔ ChangesOnly ks r s := by
  refine ChangesOnly.congr fun c hc => ?_
  cases c <;> first | rfl | contradiction

theorem upd_runs_only {ks : List Comp} {r s : State} {v0} (h0 : Comp.runs ∈ ks) :
    ChangesOnly ks r { s with runs := v0 } ↔ ChangesOnly ks r s := by
  refine ChangesOnly.congr fun c hc => ?_
  cases c <;> first | rfl | contradiction

theorem upd_sup_boot_faults_panel_only {ks : List Comp} {r s : State} {v0 v1 v2 v3} (h0 : Comp.sup ∈ ks) (h1 : Comp.boot ∈ ks) (h2 : Comp.faults ∈ ks) (h3 : Comp.panel ∈ ks) :
    ChangesOnly ks r { s with sup := v0, boot := v1, faults := v2, panel := v3 } ↔ ChangesOnly ks r s := by
  refine ChangesOnly.congr fun c hc => ?_
  cases c <;> first | rfl | contradiction

theorem upd_mprogLoads_only {ks : List Comp} {r s : State} {v0} (h0 : Comp.mprogLoads ∈ ks) :
    ChangesOnly ks r { s with mprogLoads := v0 } ↔ ChangesOnly ks r s := by
  refine ChangesOnly.congr fun c hc => ?_
  cases c <;> first | rfl | contradiction

theorem upd_tick_only {ks : List Comp} {r s : State} {v0} (h0 : Comp.tick ∈ ks) :
    ChangesOnly ks r { s with tick := v0 } ↔ ChangesOnly ks r s := by
  refine ChangesOnly.congr fun c hc => ?_
  cases c <;> first | rfl | contradiction

theorem upd_ports_only {ks : List Comp} {r s : State} {v0} (h0 : Comp.ports ∈ ks) :
    ChangesOnly ks r { s with ports := v0 } ↔ ChangesOnly ks r s := by
  refine ChangesOnly.congr fun c hc => ?_
  cases c <;> first | rfl | contradiction

theorem upd_ext_telem_only {ks : List Comp} {r s : State} {v0 v1} (h0 : Comp.ext ∈ ks) (h1 : Comp.telem ∈ ks) :
    ChangesOnly ks r { s with ext := v0, telem := v1 } ↔ ChangesOnly ks r s := by
  refine ChangesOnly.congr fun c hc => ?_
  cases c <;> first | rfl | contradiction

theorem upd_strata_only {ks : List Comp} {r s : State} {v0} (h0 : Comp.strata ∈ ks) :
    ChangesOnly ks r { s with strata := v0 } ↔ ChangesOnly ks r s := by
  refine ChangesOnly.congr fun c hc => ?_
  cases c <;> first | rfl | contradiction

theorem upd_mapping_only {ks : List Comp} {r s : State} {v0} (h0 : Comp.mapping ∈ ks) :
    ChangesOnly ks r { s with mapping := v0 } ↔ ChangesOnly ks r s := by
  refine ChangesOnly.congr fun c hc => ?_
  cases c <;> first | rfl | contradiction

theorem upd_mapping_toReplace_only {ks : List Comp} {r s : State} {v0 v1} (h0 : Comp.mapping ∈ ks) (h1 : Comp.toReplace ∈ ks) :
    ChangesOnly ks r { s with mapping := v0, toReplace := v1 } ↔ ChangesOnly ks r s := by
  refine ChangesOnly.congr fun c hc => ?_
  cases c <;> first | rfl | contradiction

end Sys2Proof.Machine
end

