-- ==== Sys2Proof/Laws/ChangesShared.lean ====
section
/-!
SUPPORT. What each operation of the model may change: the shared operations, the command interface, memory, the pool and the notices.
-/

set_option linter.all false

namespace Sys2Proof.Machine

/-! ### Ops -/

theorem modFn_only {ks : List Comp} {r : State} (s : State) (fn : FnNo) (f : Func → Func)
    (h0 : Comp.fns ∈ ks) :
    ChangesOnly ks r (State.modFn s fn f) ↔ ChangesOnly ks r s := by
  unfold State.modFn; simp only [↓upd_fns_only, ↓ite_only, ite_self, h0]

theorem modQp_only {ks : List Comp} {r : State} (s : State) (fn : FnNo) (qp : QpNo) (f : QPair → QPair)
    (h0 : Comp.fns ∈ ks) :
    ChangesOnly ks r (State.modQp s fn qp f) ↔ ChangesOnly ks r s := by
  unfold State.modQp; simp only [↓modFn_only, ↓ite_only, ite_self, h0]

theorem modEvq_only {ks : List Comp} {r : State} (s : State) (fn : FnNo) (f : Evq → Evq)
    (h0 : Comp.fns ∈ ks) :
    ChangesOnly ks r (State.modEvq s fn f) ↔ ChangesOnly ks r s := by
  unfold State.modEvq; simp only [↓modFn_only, ↓ite_only, ite_self, h0]

theorem modStratum_only {ks : List Comp} {r : State} (s : State) (n : FnNo) (f : Stratum → Stratum)
    (h0 : Comp.strata ∈ ks) :
    ChangesOnly ks r (State.modStratum s n f) ↔ ChangesOnly ks r s := by
  unfold State.modStratum; simp only [↓upd_strata_only, ↓ite_only, ite_self, h0]

theorem modStore_only {ks : List Comp} {r : State} (s : State) (e : EngNo) (n : FnNo) (f : EngStore → EngStore)
    (h0 : Comp.stores ∈ ks) :
    ChangesOnly ks r (State.modStore s e n f) ↔ ChangesOnly ks r s := by
  unfold State.modStore; simp only [↓upd_stores_only, ↓ite_only, ite_self, h0]

theorem emit_only {ks : List Comp} {r : State} (s : State) (e : Emit)
    (h0 : Comp.out ∈ ks) :
    ChangesOnly ks r (State.emit s e) ↔ ChangesOnly ks r s := by
  unfold State.emit; simp only [↓upd_out_only, ↓ite_only, ite_self, h0]

theorem draw_only {ks : List Comp} {r : State} (s : State) (h0 : Comp.free ∈ ks) :
    ChangesOnly ks r s.draw.2 ↔ ChangesOnly ks r s := by
  unfold State.draw; simp only [↓upd_free_only, h0]

theorem sendMsix_only {ks : List Comp} {r : State} (s : State) (fn : FnNo) (v : Fin 64)
    (h0 : Comp.fns ∈ ks) (h1 : Comp.out ∈ ks) :
    ChangesOnly ks r (State.sendMsix s fn v) ↔ ChangesOnly ks r s := by
  unfold State.sendMsix; simp only [↓emit_only, ↓modFn_only, ↓ite_only, ite_self, h0, h1]

theorem releaseMsix_only {ks : List Comp} {r : State} (s : State) (fn : FnNo)
    (h0 : Comp.fns ∈ ks) (h1 : Comp.out ∈ ks) :
    ChangesOnly ks r (s.releaseMsix fn) ↔ ChangesOnly ks r s := by
  refine forEach_only (fun v t => ?_) _ s
  dsimp only
  split <;> simp only [↓emit_only, ↓modFn_only, h0, h1]

theorem setCause_only {ks : List Comp} {r : State} (s : State) (fn : FnNo) (cause : BitVec 12) (mask : BitVec 12)
    (h0 : Comp.fns ∈ ks) (h1 : Comp.out ∈ ks) :
    ChangesOnly ks r (State.setCause s fn cause mask) ↔ ChangesOnly ks r s := by
  unfold State.setCause; simp [↓modFn_only, ↓sendMsix_only, ↓forEach_only, ↓ite_only, ite_self, h0, h1]

theorem raise_only {ks : List Comp} {r : State} (s : State) (fn : FnNo) (bits : BitVec 12)
    (h0 : Comp.fns ∈ ks) (h1 : Comp.out ∈ ks) :
    ChangesOnly ks r (State.raise s fn bits) ↔ ChangesOnly ks r s := by
  unfold State.raise; simp only [↓setCause_only, ↓ite_only, ite_self, h0, h1]

theorem raiseAll_only {ks : List Comp} {r : State} (s : State) (bits : BitVec 12)
    (h0 : Comp.fns ∈ ks) (h1 : Comp.out ∈ ks) :
    ChangesOnly ks r (State.raiseAll s bits) ↔ ChangesOnly ks r s := by
  unfold State.raiseAll; simp [↓raise_only, ↓forEach_only, ↓ite_only, ite_self, h0, h1]

theorem writeRec_only {ks : List Comp} {r : State} (s : State) (fn : FnNo) (rr : EvRec)
    (h0 : Comp.fns ∈ ks) (h1 : Comp.out ∈ ks) :
    ChangesOnly ks r (State.writeRec s fn rr) ↔ ChangesOnly ks r s := by
  unfold State.writeRec; simp only [↓raise_only, ↓emit_only, ↓modEvq_only, ↓ite_only, ite_self, h0, h1]

theorem writeHeld_only {ks : List Comp} {r : State} (s : State) (fn : FnNo) (l : List EvRec)
    (h0 : Comp.fns ∈ ks) (h1 : Comp.out ∈ ks) :
    ChangesOnly ks r (s.writeHeld fn l) ↔ ChangesOnly ks r s := by
  induction l generalizing s with
  | nil => simp only [State.writeHeld, ↓modEvq_only, h0]
  | cons a l ih => unfold State.writeHeld; split <;> simp only [↓ih, ↓writeRec_only, ↓modEvq_only, h0, h1]

theorem flushEvq_only {ks : List Comp} {r : State} (s : State) (fn : FnNo)
    (h0 : Comp.fns ∈ ks) (h1 : Comp.out ∈ ks) :
    ChangesOnly ks r (State.flushEvq s fn) ↔ ChangesOnly ks r s := by
  unfold State.flushEvq; simp only [↓writeHeld_only, ↓ite_only, ite_self, h0, h1]

theorem trimHeld_only {ks : List Comp} {r : State} (s : State) (fn : FnNo)
    (h0 : Comp.fns ∈ ks) (h1 : Comp.out ∈ ks) :
    ChangesOnly ks r (State.trimHeld s fn) ↔ ChangesOnly ks r s := by
  unfold State.trimHeld; simp only [↓raise_only, ↓modFn_only, ↓ite_only, ite_self, h0, h1]

theorem hitWaits_only {ks : List Comp} {r : State} (s : State) (fn : FnNo) (rr : EvRec)
    (h0 : Comp.waits ∈ ks) :
    ChangesOnly ks r (State.hitWaits s fn rr) ↔ ChangesOnly ks r s := by
  unfold State.hitWaits; simp only [↓upd_waits_only, ↓ite_only, ite_self, h0]

theorem sendRec_only {ks : List Comp} {r : State} (s : State) (fn : FnNo) (rr : EvRec)
    (h0 : Comp.waits ∈ ks) (h1 : Comp.fns ∈ ks) (h2 : Comp.out ∈ ks) :
    ChangesOnly ks r (State.sendRec s fn rr) ↔ ChangesOnly ks r s := by
  unfold State.sendRec; simp only [↓trimHeld_only, ↓flushEvq_only, ↓modEvq_only, ↓hitWaits_only, ↓ite_only, ite_self, h0, h1, h2]

theorem occurAt_only {ks : List Comp} {r : State} (s : State) (n : FnNo) (evType : W16) (tick : Tick) (a4 : W64) (r1 : W64) (data : BitVec 192)
    (h0 : Comp.waits ∈ ks) (h1 : Comp.fns ∈ ks) (h2 : Comp.out ∈ ks) :
    ChangesOnly ks r (State.occurAt s n evType tick a4 r1 data) ↔ ChangesOnly ks r s := by
  unfold State.occurAt; simp only [↓sendRec_only, ↓ite_only, ite_self, h0, h1, h2]

theorem occur_only {ks : List Comp} {r : State} (s : State) (n : FnNo) (evType : W16) (a3 : W64) (r1 : W64)
    (h0 : Comp.waits ∈ ks) (h1 : Comp.fns ∈ ks) (h2 : Comp.out ∈ ks) :
    ChangesOnly ks r (State.occur s n evType a3 r1) ↔ ChangesOnly ks r s := by
  unfold State.occur; simp only [↓occurAt_only, ↓ite_only, ite_self, h0, h1, h2]

theorem occurAll_only {ks : List Comp} {r : State} (s : State) (l : List FnNo) (evType : W16) (a3 : W64) (r1 : W64)
    (h0 : Comp.waits ∈ ks) (h1 : Comp.fns ∈ ks) (h2 : Comp.out ∈ ks) :
    ChangesOnly ks r (State.occurAll s l evType a3 r1) ↔ ChangesOnly ks r s := by
  unfold State.occurAll; simp [↓occur_only, ↓forEach_only, ↓ite_only, ite_self, h0, h1, h2]

theorem complete_only {ks : List Comp} {r : State} (s : State) (id : Nat) (status : W16) (detail : W16) (a4 : W64) (r1 : W64) (data : BitVec 192)
    (h0 : Comp.waits ∈ ks) (h1 : Comp.fns ∈ ks) (h2 : Comp.outst ∈ ks) (h3 : Comp.out ∈ ks) :
    ChangesOnly ks r (State.complete s id status detail a4 r1 data) ↔ ChangesOnly ks r s := by
  unfold State.complete; (repeat' split) <;> simp [↓modQp_only, ↓sendRec_only, ↓upd_outst_only, ↓ite_only, ite_self, h0, h1, h2, h3]

theorem completeOk_only {ks : List Comp} {r : State} (s : State) (id : Nat) (a2 : W64) (r1 : W64)
    (h0 : Comp.waits ∈ ks) (h1 : Comp.fns ∈ ks) (h2 : Comp.outst ∈ ks) (h3 : Comp.out ∈ ks) :
    ChangesOnly ks r (State.completeOk s id a2 r1) ↔ ChangesOnly ks r s := by
  unfold State.completeOk; simp only [↓complete_only, ↓ite_only, ite_self, h0, h1, h2, h3]

theorem writeReply_only {ks : List Comp} {r : State} (s : State) (fn : FnNo) (qp : QpNo) (op : BitVec 8) (flags : BitVec 8) (tag : W16) (status : W16) (detail : W16) (a8 : W64) (r1 : W64)
    (h0 : Comp.fns ∈ ks) (h1 : Comp.out ∈ ks) :
    ChangesOnly ks r (State.writeReply s fn qp op flags tag status detail a8 r1) ↔ ChangesOnly ks r s := by
  unfold State.writeReply; simp only [↓emit_only, ↓modQp_only, ↓raise_only, ↓ite_only, ite_self, h0, h1]

theorem postpone_only {ks : List Comp} {r : State} (s : State) (fn : FnNo) (w : Unsent)
    (h0 : Comp.fns ∈ ks) :
    ChangesOnly ks r (State.postpone s fn w) ↔ ChangesOnly ks r s := by
  unfold State.postpone; simp only [↓modFn_only, ↓ite_only, ite_self, h0]

theorem reply_only {ks : List Comp} {r : State} (s : State) (fn : FnNo) (qp : QpNo) (op : BitVec 8) (p : Packet) (status : W16) (detail : W16) (a7 : W64) (r1 : W64)
    (h0 : Comp.fns ∈ ks) (h1 : Comp.out ∈ ks) :
    ChangesOnly ks r (State.reply s fn qp op p status detail a7 r1) ↔ ChangesOnly ks r s := by
  unfold State.reply; simp only [↓writeReply_only, ↓postpone_only, ↓ite_only, ite_self, h0, h1]

theorem hostWrite_only {ks : List Comp} {r : State} (s : State) (fn : FnNo) (addr : W64) (bytes : List Byte)
    (h0 : Comp.fns ∈ ks) (h1 : Comp.out ∈ ks) :
    ChangesOnly ks r (State.hostWrite s fn addr bytes) ↔ ChangesOnly ks r s := by
  unfold State.hostWrite; simp only [↓emit_only, ↓postpone_only, ↓ite_only, ite_self, h0, h1]

theorem bulkWrite_only {ks : List Comp} {r : State} (s : State) (fn : FnNo) (addr : W64) (bytes : List Byte)
    (h0 : Comp.out ∈ ks) :
    ChangesOnly ks r (State.bulkWrite s fn addr bytes) ↔ ChangesOnly ks r s := by
  unfold State.bulkWrite; simp only [↓emit_only, ↓ite_only, ite_self, h0]

theorem sendNow_only {ks : List Comp} {r : State} (s : State) (fn : FnNo) (a2 : Unsent)
    (h0 : Comp.fns ∈ ks) (h1 : Comp.out ∈ ks) :
    ChangesOnly ks r (State.sendNow s fn a2) ↔ ChangesOnly ks r s := by
  unfold State.sendNow; (repeat' split) <;> simp [↓emit_only, ↓writeReply_only, ↓ite_only, ite_self, h0, h1]

theorem sendUnsent_only {ks : List Comp} {r : State} (s : State) (fn : FnNo)
    (h0 : Comp.fns ∈ ks) (h1 : Comp.out ∈ ks) :
    ChangesOnly ks r (State.sendUnsent s fn) ↔ ChangesOnly ks r s := by
  unfold State.sendUnsent; simp [↓modFn_only, ↓sendNow_only, ↓forEach_only, ↓ite_only, ite_self, h0, h1]

theorem idle_only {ks : List Comp} {r : State} (s : State)
    (h0 : Comp.tick ∈ ks) (h1 : Comp.withhold ∈ ks) :
    ChangesOnly ks r (idle s) ↔ ChangesOnly ks r s := by
  unfold idle; simp only [↓upd_withhold_only, ↓upd_tick_withhold_only, ↓upd_tick_only, ↓ite_only, ite_self, h0, h1]

theorem reach_only {ks : List Comp} {r : State} (s : State) (t : Tick)
    (h0 : Comp.tick ∈ ks) :
    ChangesOnly ks r (State.reach s t) ↔ ChangesOnly ks r s := by
  unfold State.reach; simp only [↓upd_tick_only, ↓ite_only, ite_self, h0]

/-! ### Operands -/

theorem writeBlock_only {ks : List Comp} {r : State} (s : State) (fn : FnNo) (addr : W64) (bytes : List Byte)
    (h0 : Comp.fns ∈ ks) (h1 : Comp.out ∈ ks) :
    ChangesOnly ks r (State.writeBlock s fn addr bytes) ↔ ChangesOnly ks r s := by
  unfold State.writeBlock; simp only [↓hostWrite_only, ↓ite_only, ite_self, h0, h1]

theorem serve_only {ks : List Comp} {r : State} (s : State) (fn : FnNo) (qp : QpNo)
    (h0 : Comp.fns ∈ ks) :
    ChangesOnly ks r (State.serve s fn qp) ↔ ChangesOnly ks r s := by
  unfold State.serve; simp only [↓upd_fns_only, ↓ite_only, ite_self, h0]

theorem taken_only {ks : List Comp} {r : State} (s : State) (fn : FnNo) (qp : QpNo)
    (h0 : Comp.fns ∈ ks) :
    ChangesOnly ks r (State.taken s fn qp) ↔ ChangesOnly ks r s := by
  unfold State.taken; (repeat' split) <;> simp [↓serve_only, ↓modQp_only, ↓ite_only, ite_self, h0]

theorem startQueue_only {ks : List Comp} {r : State} (s : State) (fn : FnNo) (qp : QpNo)
    (h0 : Comp.fns ∈ ks) (h1 : Comp.out ∈ ks) :
    ChangesOnly ks r (startQueue s fn qp) ↔ ChangesOnly ks r s := by
  unfold startQueue; simp only [↓modQp_only, ↓raise_only, ↓ite_only, ite_self, h0, h1]

theorem settleQueue_only {ks : List Comp} {r : State} (s : State) (fn : FnNo) (qp : QpNo)
    (h0 : Comp.fns ∈ ks) (h1 : Comp.out ∈ ks) :
    ChangesOnly ks r (settleQueue s fn qp) ↔ ChangesOnly ks r s := by
  unfold settleQueue; simp only [↓modQp_only, ↓startQueue_only, ↓ite_only, ite_self, h0, h1]

theorem afterReply_only {ks : List Comp} {r : State} (fn : FnNo) (qp : QpNo) (p : Packet) (prev : Nat) (failed : Option W16) (s : State)
    (h0 : Comp.fns ∈ ks) :
    ChangesOnly ks r (afterReply fn qp p prev failed s) ↔ ChangesOnly ks r s := by
  unfold afterReply; simp only [↓modQp_only, ↓ite_only, ite_self, h0]

theorem cancelReply_only {ks : List Comp} {r : State} (fn : FnNo) (qp : QpNo) (op : BitVec 8) (p : Packet) (tag : W16) (s : State)
    (h0 : Comp.fns ∈ ks) (h1 : Comp.out ∈ ks) :
    ChangesOnly ks r (cancelReply fn qp op p tag s) ↔ ChangesOnly ks r s := by
  unfold cancelReply; simp only [↓afterReply_only, ↓reply_only, ↓ite_only, ite_self, h0, h1]

theorem rejectReply_only {ks : List Comp} {r : State} (fn : FnNo) (qp : QpNo) (op : BitVec 8) (p : Packet) (rr : Rej) (s : State)
    (h0 : Comp.fns ∈ ks) (h1 : Comp.out ∈ ks) :
    ChangesOnly ks r (rejectReply fn qp op p rr s) ↔ ChangesOnly ks r s := by
  unfold rejectReply; simp only [↓afterReply_only, ↓reply_only, ↓ite_only, ite_self, h0, h1]

theorem takeCommand_only {ks : List Comp} {r : State} (fn : FnNo) (qp : QpNo) (op : BitVec 8) (long : Bool)
    (p : Packet) {body : State → State} (s : State) (h0 : Comp.fns ∈ ks) (h1 : Comp.out ∈ ks)
    (hb : ∀ t, ChangesOnly ks r (body t) ↔ ChangesOnly ks r t) :
    ChangesOnly ks r (takeCommand fn qp op long p body s) ↔ ChangesOnly ks r s := by
  unfold takeCommand
  dsimp only
  (repeat' split) <;> simp only [↓settleQueue_only, ↓hb, ↓taken_only, ↓modQp_only, h0, h1]

theorem shortCommand_only {ks : List Comp} {r : State} (c : CmdSpec) (fn : FnNo) (qp : QpNo) (p : Packet)
    (chk res : State → Option Rej) {eff : State → State × Res} (s : State) (h0 : Comp.fns ∈ ks) (h1 : Comp.out ∈ ks)
    (he : ∀ t, ChangesOnly ks r (eff t).1 ↔ ChangesOnly ks r t) :
    ChangesOnly ks r (shortCommand c fn qp p chk res eff s) ↔ ChangesOnly ks r s := by
  refine takeCommand_only _ _ _ _ _ _ h0 h1 fun t => ?_
  (repeat' split) <;>
    simp only [↓cancelReply_only, ↓rejectReply_only, ↓afterReply_only, ↓reply_only, ↓he, h0, h1]

theorem longBody_only {ks : List Comp} {r : State} (c : CmdSpec) (fn : FnNo) (qp : QpNo) (p : Packet)
    (chk res : State → Option Rej) {acc work : Nat → State → State} (s : State) (h0 : Comp.fns ∈ ks)
    (h1 : Comp.out ∈ ks) (h2 : Comp.nextId ∈ ks) (h3 : Comp.outst ∈ ks)
    (ha : ∀ i t, ChangesOnly ks r (acc i t) ↔ ChangesOnly ks r t)
    (hw : ∀ i t, ChangesOnly ks r (work i t) ↔ ChangesOnly ks r t) :
    ChangesOnly ks r (longBody c fn qp p chk res acc work s) ↔ ChangesOnly ks r s := by
  unfold longBody
  (repeat' split) <;>
    simp only [↓cancelReply_only, ↓rejectReply_only, ↓afterReply_only, ↓reply_only, ↓modEvq_only,
      ↓upd_nextId_outst_only, ↓ha, ↓hw, h0, h1, h2, h3]

theorem longCommand_only {ks : List Comp} {r : State} (c : CmdSpec) (fn : FnNo) (qp : QpNo) (p : Packet)
    (chk res : State → Option Rej) {acc work : Nat → State → State} (s : State) (h0 : Comp.fns ∈ ks)
    (h1 : Comp.out ∈ ks) (h2 : Comp.nextId ∈ ks) (h3 : Comp.outst ∈ ks)
    (ha : ∀ i t, ChangesOnly ks r (acc i t) ↔ ChangesOnly ks r t)
    (hw : ∀ i t, ChangesOnly ks r (work i t) ↔ ChangesOnly ks r t) :
    ChangesOnly ks r (longCommand c fn qp p chk res acc work s) ↔ ChangesOnly ks r s :=
  takeCommand_only _ _ _ _ _ _ h0 h1 fun _ => longBody_only _ _ _ _ _ _ _ h0 h1 h2 h3 ha hw

/-! ### Memory -/

theorem markGranule_only {ks : List Comp} {r : State} (s : State) (g : Nat) (m : Mark)
    (h0 : Comp.geo ∈ ks) :
    ChangesOnly ks r (State.markGranule s g m) ↔ ChangesOnly ks r s := by
  unfold State.markGranule; simp only [↓upd_geo_only, ↓ite_only, ite_self, h0]

theorem freeGranule_only {ks : List Comp} {r : State} (s : State) (g : Nat)
    (h0 : Comp.geo ∈ ks) :
    ChangesOnly ks r (State.freeGranule s g) ↔ ChangesOnly ks r s := by
  unfold State.freeGranule; simp only [↓upd_geo_only, ↓ite_only, ite_self, h0]

theorem placeGranules_only {ks : List Comp} {r : State} (s : State) (m : Mark) (last n : Nat)
    (h0 : Comp.geo ∈ ks) :
    ChangesOnly ks r (s.placeGranules m last n).1 ↔ ChangesOnly ks r s := by
  induction n generalizing s last with
  | zero => simp only [State.placeGranules]
  | succ n ih => rw [State.placeGranules]; split <;> simp only [↓ih, ↓markGranule_only, h0]

theorem locWrite_only {ks : List Comp} {r : State} (s : State) (v : Byte) (a2 : Loc)
    (h0 : Comp.ext ∈ ks) (h1 : Comp.geo ∈ ks) (h2 : Comp.scratch ∈ ks) :
    ChangesOnly ks r (State.locWrite s v a2) ↔ ChangesOnly ks r s := by
  unfold State.locWrite; (repeat' split) <;> simp [↓upd_ext_only, ↓upd_geo_only, ↓upd_scratch_only, ↓ite_only, ite_self, h0, h1, h2]

theorem unpoison_only {ks : List Comp} {r : State} (s : State) (w : ExtNo × Nat)
    (h0 : Comp.ext ∈ ks) :
    ChangesOnly ks r (State.unpoison s w) ↔ ChangesOnly ks r s := by
  unfold State.unpoison; simp only [↓upd_ext_only, ↓ite_only, ite_self, h0]

theorem viewWriteGo_only {ks : List Comp} {r : State} (s : State) (n : FnNo) (l : List (Nat × Byte))
    (h0 : Comp.geo ∈ ks) (h1 : Comp.scratch ∈ ks) (h2 : Comp.ext ∈ ks) :
    ChangesOnly ks r (s.viewWriteGo n l).1 ↔ ChangesOnly ks r s := by
  induction l generalizing s with
  | nil => simp only [State.viewWriteGo]
  | cons w l ih => rw [State.viewWriteGo]; split <;> simp only [↓ih, ↓locWrite_only, h0, h1, h2]

theorem makeGood_only {ks : List Comp} {r : State} (s : State) (n : FnNo) (ws : List (Nat × Byte))
    (h0 : Comp.ext ∈ ks) :
    ChangesOnly ks r (State.makeGood s n ws) ↔ ChangesOnly ks r s := by
  unfold State.makeGood; simp [↓unpoison_only, ↓forEach_only, ↓ite_only, ite_self, h0]

theorem viewWrite_only {ks : List Comp} {r : State} (s : State) (n : FnNo) (ws : List (Nat × Byte))
    (h0 : Comp.ext ∈ ks) (h1 : Comp.geo ∈ ks) (h2 : Comp.scratch ∈ ks) :
    ChangesOnly ks r (State.viewWrite s n ws).1 ↔ ChangesOnly ks r s := by
  unfold State.viewWrite; simp [↓viewWriteGo_only, ↓makeGood_only, ↓ite_only, ite_self, h0, h1, h2]

theorem allocate_only {ks : List Comp} {r : State} (s : State) (n : FnNo) (ext : Bool) (base : Nat) (parts : Nat)
    (h0 : Comp.geo ∈ ks) (h1 : Comp.strata ∈ ks) (h2 : Comp.free ∈ ks) :
    ChangesOnly ks r (State.allocate s n ext base parts) ↔ ChangesOnly ks r s := by
  unfold State.allocate; simp only [↓draw_only, ↓modStratum_only, ↓placeGranules_only, ↓ite_only, ite_self, h0, h1, h2]

theorem unpoisonPages_only {ks : List Comp} {r : State} (s : State) (ps : List Nat)
    (h0 : Comp.ext ∈ ks) :
    ChangesOnly ks r (State.unpoisonPages s ps) ↔ ChangesOnly ks r s := by
  unfold State.unpoisonPages; simp only [↓upd_ext_only, ↓ite_only, ite_self, h0]

theorem dropPages_only {ks : List Comp} {r : State} (s : State) (ps : List Nat)
    (h0 : Comp.ext ∈ ks) :
    ChangesOnly ks r (State.dropPages s ps) ↔ ChangesOnly ks r s := by
  unfold State.dropPages; simp only [↓upd_ext_only, ↓ite_only, ite_self, h0]

theorem release_only {ks : List Comp} {r : State} (s : State) (n : FnNo) (ext : Bool) (x : Alloc)
    (h0 : Comp.ext ∈ ks) (h1 : Comp.geo ∈ ks) (h2 : Comp.strata ∈ ks) :
    ChangesOnly ks r (State.release s n ext x) ↔ ChangesOnly ks r s := by
  unfold State.release; simp [↓modStratum_only, ↓dropPages_only, ↓unpoisonPages_only, ↓freeGranule_only, ↓forEach_only, ↓ite_only, ite_self, h0, h1, h2]

/-! ### Pool -/

theorem modChan_only {ks : List Comp} {r : State} (s : State) (c : Nat) (f : Chan → Chan)
    (h0 : Comp.chans ∈ ks) :
    ChangesOnly ks r (State.modChan s c f) ↔ ChangesOnly ks r s := by
  unfold State.modChan; simp only [↓upd_chans_only, ↓ite_only, ite_self, h0]

theorem modFrame_only {ks : List Comp} {r : State} (s : State) (c : Nat) (q : Nat) (f : Frame → Frame)
    (h0 : Comp.frames ∈ ks) :
    ChangesOnly ks r (State.modFrame s c q f) ↔ ChangesOnly ks r s := by
  unfold State.modFrame; simp only [↓upd_frames_only, ↓ite_only, ite_self, h0]

theorem delFrame_only {ks : List Comp} {r : State} (s : State) (c : Nat) (q : Nat)
    (h0 : Comp.frames ∈ ks) :
    ChangesOnly ks r (State.delFrame s c q) ↔ ChangesOnly ks r s := by
  unfold State.delFrame; simp only [↓upd_frames_only, ↓ite_only, ite_self, h0]

theorem count_only {ks : List Comp} {r : State} (s : State) (n : FnNo) (i : Fin 14) (k : Nat)
    (h0 : Comp.telem ∈ ks) :
    ChangesOnly ks r (State.count s n i k) ↔ ChangesOnly ks r s := by
  unfold State.count; simp only [↓upd_telem_only, ↓ite_only, ite_self, h0]

theorem countDrop_only {ks : List Comp} {r : State} (s : State) (c : Nat)
    (h0 : Comp.chans ∈ ks) (h1 : Comp.telem ∈ ks) :
    ChangesOnly ks r (State.countDrop s c) ↔ ChangesOnly ks r s := by
  unfold State.countDrop; (repeat' split) <;> simp [↓count_only, ↓modChan_only, ↓ite_only, ite_self, h0, h1]

theorem modBufs_only {ks : List Comp} {r : State} (s : State) (f : List Buf → List Buf)
    (h0 : Comp.geo ∈ ks) :
    ChangesOnly ks r (State.modBufs s f) ↔ ChangesOnly ks r s := by
  unfold State.modBufs; simp only [↓upd_geo_only, ↓ite_only, ite_self, h0]

theorem grantOne_only {ks : List Comp} {r : State} (s : State) (c : Nat)
    (h0 : Comp.geo ∈ ks) :
    ChangesOnly ks r (State.grantOne s c) ↔ ChangesOnly ks r s := by
  unfold State.grantOne; (repeat' split) <;> simp [↓modBufs_only, ↓ite_only, ite_self, h0]

theorem zeroBuf_only {ks : List Comp} {r : State} (s : State) (n : Nat)
    (h0 : Comp.geo ∈ ks) :
    ChangesOnly ks r (State.zeroBuf s n) ↔ ChangesOnly ks r s := by
  unfold State.zeroBuf; simp only [↓modBufs_only, ↓ite_only, ite_self, h0]

theorem foldStarved_only {ks : List Comp} {r : State} (s : State) (c : Chan)
    (h0 : Comp.chans ∈ ks) (h1 : Comp.telem ∈ ks) :
    ChangesOnly ks r (State.foldStarved s c) ↔ ChangesOnly ks r s := by
  unfold State.foldStarved; (repeat' split) <;> simp [↓count_only, ↓modChan_only, ↓ite_only, ite_self, h0, h1]

theorem advertise_only {ks : List Comp} {r : State} (s : State) (c : Chan)
    (h0 : Comp.chans ∈ ks) (h1 : Comp.out ∈ ks) (h2 : Comp.telem ∈ ks) :
    ChangesOnly ks r (State.advertise s c) ↔ ChangesOnly ks r s := by
  unfold State.advertise; simp only [↓emit_only, ↓modChan_only, ↓foldStarved_only, ↓ite_only, ite_self, h0, h1, h2]

theorem noteWaits_only {ks : List Comp} {r : State} (s : State)
    (h0 : Comp.chans ∈ ks) :
    ChangesOnly ks r (State.noteWaits s) ↔ ChangesOnly ks r s := by
  unfold State.noteWaits; simp only [↓upd_chans_only, ↓ite_only, ite_self, h0]

theorem noteShort_only {ks : List Comp} {r : State} (s : State)
    (h0 : Comp.waits ∈ ks) (h1 : Comp.fns ∈ ks) (h2 : Comp.geo ∈ ks) (h3 : Comp.out ∈ ks) :
    ChangesOnly ks r (State.noteShort s) ↔ ChangesOnly ks r s := by
  unfold State.noteShort; (repeat' split) <;> simp [↓occurAll_only, ↓upd_geo_only, ↓ite_only, ite_self, h0, h1, h2, h3]

theorem settlePool_only {ks : List Comp} {r : State} (s : State)
    (h0 : Comp.waits ∈ ks) (h1 : Comp.fns ∈ ks) (h2 : Comp.chans ∈ ks) (h3 : Comp.geo ∈ ks) (h4 : Comp.out ∈ ks) (h5 : Comp.telem ∈ ks) :
    ChangesOnly ks r (State.settlePool s) ↔ ChangesOnly ks r s := by
  unfold State.settlePool; (repeat' split) <;> (try (refine (forEach_only (fun _ _ => ?_) _ _).trans ?_)) <;> (try dsimp only) <;> (repeat' split) <;> simp [↓noteWaits_only, ↓noteShort_only, ↓advertise_only, ↓forEach_only, ↓ite_only, ite_self, h0, h1, h2, h3, h4, h5]

theorem releaseBuf_only {ks : List Comp} {r : State} (s : State) (c : Chan) (n : Nat)
    (h0 : Comp.geo ∈ ks) :
    ChangesOnly ks r (State.releaseBuf s c n) ↔ ChangesOnly ks r s := by
  unfold State.releaseBuf; simp only [↓modBufs_only, ↓zeroBuf_only, ↓ite_only, ite_self, h0]

theorem releaseFrame_only {ks : List Comp} {r : State} (s : State) (c : Nat) (q : Nat) (copy : Bool)
    (h0 : Comp.geo ∈ ks) :
    ChangesOnly ks r (State.releaseFrame s c q copy) ↔ ChangesOnly ks r s := by
  unfold State.releaseFrame; (repeat' split) <;> simp [↓releaseBuf_only, ↓forEach_only, ↓ite_only, ite_self, h0]

theorem reclaim_only {ks : List Comp} {r : State} (s : State) (n : FnNo) (go : State → Bool)
    (h0 : Comp.geo ∈ ks) :
    ChangesOnly ks r (s.reclaim n go) ↔ ChangesOnly ks r s := by
  refine forEach_only (fun c t => forEach_only (fun b u => ?_) _ _) _ s
  (repeat' split) <;> simp only [↓zeroBuf_only, h0]

theorem reclaimAll_only {ks : List Comp} {r : State} (s old : State) (h0 : Comp.geo ∈ ks) :
    ChangesOnly ks r (s.reclaimAll old) ↔ ChangesOnly ks r s := by
  refine (forEach_only (fun n u => ?_) _ _).trans (forEach_only (fun n u => ?_) _ s)
  · simp only [↓reclaim_only, h0]
  · split <;> simp only [↓reclaim_only, h0]

theorem dropFrame_only {ks : List Comp} {r : State} (s : State) (c : Nat) (q : Nat)
    (h0 : Comp.chans ∈ ks) (h1 : Comp.geo ∈ ks) (h2 : Comp.frames ∈ ks) (h3 : Comp.telem ∈ ks) :
    ChangesOnly ks r (State.dropFrame s c q) ↔ ChangesOnly ks r s := by
  unfold State.dropFrame; simp only [↓delFrame_only, ↓countDrop_only, ↓releaseFrame_only, ↓ite_only, ite_self, h0, h1, h2, h3]

theorem dropOpen_only {ks : List Comp} {r : State} (s : State) (c : Nat)
    (h0 : Comp.chans ∈ ks) (h1 : Comp.geo ∈ ks) (h2 : Comp.frames ∈ ks) (h3 : Comp.telem ∈ ks) :
    ChangesOnly ks r (State.dropOpen s c) ↔ ChangesOnly ks r s := by
  unfold State.dropOpen; (repeat' split) <;> simp [↓modChan_only, ↓dropFrame_only, ↓ite_only, ite_self, h0, h1, h2, h3]

/-! ### Notices -/

theorem modRepro_only {ks : List Comp} {r : State} (s : State) (n : FnNo) (f : ReproRun → ReproRun)
    (h0 : Comp.repro ∈ ks) :
    ChangesOnly ks r (State.modRepro s n f) ↔ ChangesOnly ks r s := by
  unfold State.modRepro; simp only [↓upd_repro_only, ↓ite_only, ite_self, h0]

theorem reproBreak_only {ks : List Comp} {r : State} (s : State) (cause : W64) (n : FnNo)
    (h0 : Comp.waits ∈ ks) (h1 : Comp.fns ∈ ks) (h2 : Comp.out ∈ ks) (h3 : Comp.repro ∈ ks) :
    ChangesOnly ks r (State.reproBreak s cause n) ↔ ChangesOnly ks r s := by
  unfold State.reproBreak; simp only [↓modRepro_only, ↓occur_only, ↓ite_only, ite_self, h0, h1, h2, h3]

theorem breakAll_only {ks : List Comp} {r : State} (s : State) (cause : W64)
    (h0 : Comp.waits ∈ ks) (h1 : Comp.fns ∈ ks) (h2 : Comp.out ∈ ks) (h3 : Comp.repro ∈ ks) :
    ChangesOnly ks r (State.breakAll s cause) ↔ ChangesOnly ks r s := by
  unfold State.breakAll; simp [↓reproBreak_only, ↓forEach_only, ↓ite_only, ite_self, h0, h1, h2, h3]

theorem beginDueRuns_only {ks : List Comp} {r : State} (s : State)
    (h0 : Comp.waits ∈ ks) (h1 : Comp.fns ∈ ks) (h2 : Comp.out ∈ ks) (h3 : Comp.repro ∈ ks) :
    ChangesOnly ks r (State.beginDueRuns s) ↔ ChangesOnly ks r s := by
  unfold State.beginDueRuns; simp [↓occur_only, ↓modRepro_only, ↓forEach_only, ↓ite_only, ite_self, h0, h1, h2, h3]

theorem reproBegin_only {ks : List Comp} {r : State} (s : State) (n : FnNo)
    (h0 : Comp.waits ∈ ks) (h1 : Comp.fns ∈ ks) (h2 : Comp.out ∈ ks) (h3 : Comp.repro ∈ ks) :
    ChangesOnly ks r (State.reproBegin s n) ↔ ChangesOnly ks r s := by
  unfold State.reproBegin; simp only [↓beginDueRuns_only, ↓modRepro_only, ↓ite_only, ite_self, h0, h1, h2, h3]

theorem throttle_only {ks : List Comp} {r : State} (s : State)
    (h0 : Comp.waits ∈ ks) (h1 : Comp.fns ∈ ks) (h2 : Comp.sup ∈ ks) (h3 : Comp.out ∈ ks) (h4 : Comp.telem ∈ ks) (h5 : Comp.repro ∈ ks) :
    ChangesOnly ks r (State.throttle s) ↔ ChangesOnly ks r s := by
  unfold State.throttle; simp only [↓breakAll_only, ↓occurAll_only, ↓upd_sup_only, ↓upd_telem_only, ↓upd_sup_telem_only, ↓ite_only, ite_self, h0, h1, h2, h3, h4, h5]

theorem lapse_only {ks : List Comp} {r : State} (s : State) (cause : BitVec 8) (unit : W16) (l : List FnNo)
    (h0 : Comp.slots ∈ ks) (h1 : Comp.waits ∈ ks) (h2 : Comp.fns ∈ ks) (h3 : Comp.out ∈ ks) :
    ChangesOnly ks r (State.lapse s cause unit l) ↔ ChangesOnly ks r s := by
  unfold State.lapse; simp [↓occur_only, ↓upd_slots_only, ↓forEach_only, ↓ite_only, ite_self, h0, h1, h2, h3]

theorem lapseEnds_only {ks : List Comp} {r : State} (s : State) (cause : BitVec 8) (unit : W16)
    (h0 : Comp.slots ∈ ks) :
    ChangesOnly ks r (State.lapseEnds s cause unit) ↔ ChangesOnly ks r s := by
  unfold State.lapseEnds; simp only [↓upd_slots_only, ↓ite_only, ite_self, h0]

theorem restoreTiming_only {ks : List Comp} {r : State} (s : State)
    (h0 : Comp.slots ∈ ks) (h1 : Comp.waits ∈ ks) (h2 : Comp.fns ∈ ks) (h3 : Comp.out ∈ ks) :
    ChangesOnly ks r (State.restoreTiming s) ↔ ChangesOnly ks r s := by
  unfold State.restoreTiming; (repeat' split) <;> (try (refine (forEach_only (fun _ _ => ?_) _ _).trans ?_)) <;> (try dsimp only) <;> (repeat' split) <;> simp [↓occur_only, ↓upd_slots_only, ↓forEach_only, ↓ite_only, ite_self, h0, h1, h2, h3]

theorem startInstall_only {ks : List Comp} {r : State} (s : State) (plan : BitVec 8) (capCaused : Bool)
    (h0 : Comp.slots ∈ ks) (h1 : Comp.waits ∈ ks) (h2 : Comp.fns ∈ ks) (h3 : Comp.plans ∈ ks) (h4 : Comp.out ∈ ks) (h5 : Comp.repro ∈ ks) :
    ChangesOnly ks r (State.startInstall s plan capCaused) ↔ ChangesOnly ks r s := by
  unfold State.startInstall; simp only [↓breakAll_only, ↓lapse_only, ↓upd_plans_only, ↓ite_only, ite_self, h0, h1, h2, h3, h4, h5]

theorem callPlan_only {ks : List Comp} {r : State} (s : State) (capCaused : Bool)
    (h0 : Comp.slots ∈ ks) (h1 : Comp.waits ∈ ks) (h2 : Comp.fns ∈ ks) (h3 : Comp.plans ∈ ks) (h4 : Comp.out ∈ ks) (h5 : Comp.repro ∈ ks) :
    ChangesOnly ks r (State.callPlan s capCaused) ↔ ChangesOnly ks r s := by
  unfold State.callPlan; simp only [↓startInstall_only, ↓ite_only, ite_self, h0, h1, h2, h3, h4, h5]

theorem commitFaults_only {ks : List Comp} {r : State} (s : State)
    (h0 : Comp.faults ∈ ks) (h1 : Comp.telem ∈ ks) :
    ChangesOnly ks r (State.commitFaults s) ↔ ChangesOnly ks r s := by
  unfold State.commitFaults; simp only [↓upd_telem_only, ↓upd_faults_only, ↓upd_faults_telem_only, ↓ite_only, ite_self, h0, h1]

theorem faultAt_only {ks : List Comp} {r : State} (s : State) (tick : Tick) (cls : BitVec 8) (cause : BitVec 8) (unit : W16) (strata : W16) (action : BitVec 8) (logical : BitVec 8) (newUnit : W16) (detail : BitVec 224)
    (h0 : Comp.faults ∈ ks) (h1 : Comp.telem ∈ ks) :
    ChangesOnly ks r (State.faultAt s tick cls cause unit strata action logical newUnit detail).1 ↔ ChangesOnly ks r s := by
  unfold State.faultAt; simp only [↓commitFaults_only, ↓upd_faults_only, ↓ite_only, ite_self, h0, h1]

theorem fault_only {ks : List Comp} {r : State} (s : State) (cls : BitVec 8) (cause : BitVec 8) (unit : W16) (strata : W16) (action : BitVec 8) (logical : BitVec 8) (newUnit : W16) (detail : BitVec 224)
    (h0 : Comp.faults ∈ ks) (h1 : Comp.telem ∈ ks) :
    ChangesOnly ks r (State.fault s cls cause unit strata action logical newUnit detail).1 ↔ ChangesOnly ks r s := by
  unfold State.fault; simp only [↓faultAt_only, ↓ite_only, ite_self, h0, h1]

theorem unitFailed_only {ks : List Comp} {r : State} (s : State) (unit : W16) (cause : BitVec 8) (action : BitVec 8) (strata : List FnNo) (index : Nat)
    (h0 : Comp.waits ∈ ks) (h1 : Comp.fns ∈ ks) (h2 : Comp.out ∈ ks) :
    ChangesOnly ks r (State.unitFailed s unit cause action strata index) ↔ ChangesOnly ks r s := by
  unfold State.unitFailed; simp only [↓occurAll_only, ↓ite_only, ite_self, h0, h1, h2]

end Sys2Proof.Machine
end

