-- ==== Sys2Proof/Laws/ChangesLinks.lean ====
section
/-!
SUPPORT. What each operation of the model may change: links, frames, caps and plans, copies, narrow transport and ports.
-/

set_option linter.all false

namespace Sys2Proof.Machine

/-! ### Link -/

theorem modPort_only {ks : List Comp} {r : State} (s : State) (p : PortNo) (f : Port → Port)
    (h0 : Comp.ports ∈ ks) :
    ChangesOnly ks r (State.modPort s p f) ↔ ChangesOnly ks r s := by
  unfold State.modPort; simp only [↓upd_ports_only, ↓ite_only, ite_self, h0]

theorem modLane_only {ks : List Comp} {r : State} (s : State) (l : LaneNo) (f : LaneSt → LaneSt)
    (h0 : Comp.lanes ∈ ks) :
    ChangesOnly ks r (State.modLane s l f) ↔ ChangesOnly ks r s := by
  unfold State.modLane; simp only [↓upd_lanes_only, ↓ite_only, ite_self, h0]

theorem notePort_only {ks : List Comp} {r : State} (s : State) (p : PortNo)
    (h0 : Comp.waits ∈ ks) (h1 : Comp.fns ∈ ks) (h2 : Comp.out ∈ ks) :
    ChangesOnly ks r (State.notePort s p) ↔ ChangesOnly ks r s := by
  unfold State.notePort; simp only [↓occurAll_only, ↓ite_only, ite_self, h0, h1, h2]

theorem portLapse_only {ks : List Comp} {r : State} (s : State) (p : PortNo)
    (h0 : Comp.slots ∈ ks) (h1 : Comp.waits ∈ ks) (h2 : Comp.fns ∈ ks) (h3 : Comp.out ∈ ks) :
    ChangesOnly ks r (State.portLapse s p) ↔ ChangesOnly ks r s := by
  unfold State.portLapse; simp only [↓lapse_only, ↓ite_only, ite_self, h0, h1, h2, h3]

theorem portLapseEnds_only {ks : List Comp} {r : State} (s : State) (p : PortNo)
    (h0 : Comp.slots ∈ ks) :
    ChangesOnly ks r (State.portLapseEnds s p) ↔ ChangesOnly ks r s := by
  unfold State.portLapseEnds; simp only [↓lapseEnds_only, ↓ite_only, ite_self, h0]

theorem violation_send_only {ks : List Comp} {r : State} (s : State) (p : PortNo) (cause : BitVec 8) (ch : Nat) (chan : Option Chan) (rest : List Violation) (n : Nat)
    (h0 : Comp.waits ∈ ks) (h1 : Comp.fns ∈ ks) (h2 : Comp.ports ∈ ks) (h3 : Comp.out ∈ ks) :
    ChangesOnly ks r (State.violation.send s p cause ch chan rest n) ↔ ChangesOnly ks r s := by
  unfold State.violation.send; simp only [↓occurAll_only, ↓modPort_only, ↓ite_only, ite_self, h0, h1, h2, h3]

theorem violation_only {ks : List Comp} {r : State} (s : State) (p : PortNo) (cause : BitVec 8) (ch : Nat)
    (h0 : Comp.waits ∈ ks) (h1 : Comp.fns ∈ ks) (h2 : Comp.ports ∈ ks) (h3 : Comp.out ∈ ks) :
    ChangesOnly ks r (State.violation s p cause ch) ↔ ChangesOnly ks r s := by
  simp only [State.violation]; (repeat' split) <;> simp [↓modPort_only, ↓violation_send_only, ↓ite_only, ite_self, h0, h1, h2, h3]

theorem emitItem_only {ks : List Comp} {r : State} (s : State) (p : PortNo) (i : Item)
    (h0 : Comp.out ∈ ks) :
    ChangesOnly ks r (State.emitItem s p i) ↔ ChangesOnly ks r s := by
  unfold State.emitItem; simp only [↓emit_only, ↓ite_only, ite_self, h0]

theorem sendItem_only {ks : List Comp} {r : State} (s : State) (p : PortNo) (frame : Bool) (bytes : List Byte)
    (h0 : Comp.ports ∈ ks) (h1 : Comp.out ∈ ks) :
    ChangesOnly ks r (State.sendItem s p frame bytes) ↔ ChangesOnly ks r s := by
  unfold State.sendItem; simp only [↓emitItem_only, ↓modPort_only, ↓ite_only, ite_self, h0, h1]

theorem sendFrame_only {ks : List Comp} {r : State} (s : State) (p : PortNo) (ftype : Nat) (ch : Nat) (payload : List Byte)
    (h0 : Comp.ports ∈ ks) (h1 : Comp.out ∈ ks) :
    ChangesOnly ks r (State.sendFrame s p ftype ch payload) ↔ ChangesOnly ks r s := by
  unfold State.sendFrame; simp only [↓sendItem_only, ↓ite_only, ite_self, h0, h1]

theorem sendMark_only {ks : List Comp} {r : State} (s : State) (p : PortNo) (ch : Nat)
    (h0 : Comp.ports ∈ ks) (h1 : Comp.out ∈ ks) :
    ChangesOnly ks r (State.sendMark s p ch) ↔ ChangesOnly ks r s := by
  unfold State.sendMark; simp only [↓sendItem_only, ↓ite_only, ite_self, h0, h1]

theorem replayFrom_only {ks : List Comp} {r : State} (s : State) (p : PortNo) (seq : W16)
    (h0 : Comp.ports ∈ ks) (h1 : Comp.out ∈ ks) :
    ChangesOnly ks r (State.replayFrom s p seq) ↔ ChangesOnly ks r s := by
  unfold State.replayFrom; simp [↓modPort_only, ↓emit_only, ↓emitItem_only, ↓forEach_only, ↓ite_only, ite_self, h0, h1]

theorem noteStuck_only {ks : List Comp} {r : State} (s : State) (p : PortNo)
    (h0 : Comp.waits ∈ ks) (h1 : Comp.fns ∈ ks) (h2 : Comp.ports ∈ ks) (h3 : Comp.out ∈ ks) :
    ChangesOnly ks r (State.noteStuck s p) ↔ ChangesOnly ks r s := by
  unfold State.noteStuck; simp only [↓violation_only, ↓ite_only, ite_self, h0, h1, h2, h3]

theorem coverItems_only {ks : List Comp} {r : State} (s : State) (p : PortNo) (upTo : W16)
    (h0 : Comp.ports ∈ ks) :
    ChangesOnly ks r (State.coverItems s p upTo) ↔ ChangesOnly ks r s := by
  unfold State.coverItems; simp only [↓modPort_only, ↓ite_only, ite_self, h0]

theorem sendNak_only {ks : List Comp} {r : State} (s : State) (p : PortNo)
    (h0 : Comp.ports ∈ ks) (h1 : Comp.out ∈ ks) :
    ChangesOnly ks r (State.sendNak s p) ↔ ChangesOnly ks r s := by
  unfold State.sendNak; simp only [↓emit_only, ↓modPort_only, ↓ite_only, ite_self, h0, h1]

theorem rxItem_only {ks : List Comp} {r : State} (s : State) (p : PortNo) (seq : W16)
    (h0 : Comp.ports ∈ ks) (h1 : Comp.out ∈ ks) :
    ChangesOnly ks r (State.rxItem s p seq).1 ↔ ChangesOnly ks r s := by
  simp only [State.rxItem]; (repeat' split) <;> simp [↓emit_only, ↓modPort_only, ↓sendNak_only, ↓ite_only, ite_self, h0, h1]

theorem linkError_only {ks : List Comp} {r : State} (s : State) (p : PortNo)
    (h0 : Comp.ports ∈ ks) (h1 : Comp.out ∈ ks) :
    ChangesOnly ks r (State.linkError s p) ↔ ChangesOnly ks r s := by
  unfold State.linkError; simp only [↓sendNak_only, ↓modPort_only, ↓ite_only, ite_self, h0, h1]

theorem rxFrame_only {ks : List Comp} {r : State} (s : State) (p : PortNo) (bs : List Byte)
    (h0 : Comp.ports ∈ ks) (h1 : Comp.out ∈ ks) :
    ChangesOnly ks r (State.rxFrame s p bs).1 ↔ ChangesOnly ks r s := by
  simp only [State.rxFrame]; (repeat' split) <;> simp [↓linkError_only, ↓rxItem_only, ↓ite_only, ite_self, h0, h1]

/-! ### Frames -/

theorem modLock_only {ks : List Comp} {r : State} (s : State) (f : Lock → Lock)
    (h0 : Comp.lock ∈ ks) :
    ChangesOnly ks r (State.modLock s f) ↔ ChangesOnly ks r s := by
  unfold State.modLock; simp only [↓upd_lock_only, ↓ite_only, ite_self, h0]

theorem takePart_only {ks : List Comp} {r : State} (s : State) (owner : Nat)
    (h0 : Comp.geo ∈ ks) :
    ChangesOnly ks r (State.takePart s owner) ↔ ChangesOnly ks r s := by
  simp only [State.takePart]; (repeat' split) <;> simp [↓markGranule_only, ↓upd_geo_only, ↓ite_only, ite_self, h0]

theorem releaseParts_only {ks : List Comp} {r : State} (s : State) (owner : Nat)
    (h0 : Comp.geo ∈ ks) :
    ChangesOnly ks r (State.releaseParts s owner) ↔ ChangesOnly ks r s := by
  unfold State.releaseParts; (repeat' split) <;> (try (refine (forEach_only (fun _ _ => ?_) _ _).trans ?_)) <;> (try dsimp only) <;> (repeat' split) <;> simp [↓freeGranule_only, ↓markGranule_only, ↓forEach_only, ↓ite_only, ite_self, h0]

theorem unbindNow_only {ks : List Comp} {r : State} (s : State) (c : Nat)
    (h0 : Comp.waits ∈ ks) (h1 : Comp.fns ∈ ks) (h2 : Comp.chans ∈ ks) (h3 : Comp.lock ∈ ks) (h4 : Comp.ports ∈ ks) (h5 : Comp.deliveries ∈ ks) (h6 : Comp.geo ∈ ks) (h7 : Comp.runs ∈ ks) (h8 : Comp.frames ∈ ks) (h9 : Comp.out ∈ ks) (h10 : Comp.telem ∈ ks) (h11 : Comp.loaded ∈ ks) :
    ChangesOnly ks r (State.unbindNow s c) ↔ ChangesOnly ks r s := by
  unfold State.unbindNow; (repeat' split) <;> simp [↓dropOpen_only, ↓dropFrame_only, ↓modPort_only, ↓emit_only, ↓zeroBuf_only, ↓settlePool_only, ↓reclaimAll_only, ↓modLock_only, ↓releaseParts_only, ↓upd_chans_only, ↓upd_deliveries_only, ↓upd_deliveries_runs_chans_loaded_only, ↓upd_runs_only, ↓forEach_only, ↓ite_only, ite_self, h0, h1, h2, h3, h4, h5, h6, h7, h8, h9, h10, h11]

theorem endUnbind_only {ks : List Comp} {r : State} (s : State) (c : Nat)
    (h0 : Comp.waits ∈ ks) (h1 : Comp.fns ∈ ks) (h2 : Comp.chans ∈ ks) (h3 : Comp.lock ∈ ks) (h4 : Comp.ports ∈ ks) (h5 : Comp.outst ∈ ks) (h6 : Comp.deliveries ∈ ks) (h7 : Comp.geo ∈ ks) (h8 : Comp.runs ∈ ks) (h9 : Comp.frames ∈ ks) (h10 : Comp.out ∈ ks) (h11 : Comp.telem ∈ ks) (h12 : Comp.loaded ∈ ks) :
    ChangesOnly ks r (State.endUnbind s c) ↔ ChangesOnly ks r s := by
  unfold State.endUnbind; (repeat' split) <;> simp [↓dropOpen_only, ↓completeOk_only, ↓unbindNow_only, ↓ite_only, ite_self, h0, h1, h2, h3, h4, h5, h6, h7, h8, h9, h10, h11, h12]

theorem endUnbinds_only {ks : List Comp} {r : State} (s : State)
    (h0 : Comp.waits ∈ ks) (h1 : Comp.fns ∈ ks) (h2 : Comp.chans ∈ ks) (h3 : Comp.lock ∈ ks) (h4 : Comp.ports ∈ ks) (h5 : Comp.outst ∈ ks) (h6 : Comp.deliveries ∈ ks) (h7 : Comp.geo ∈ ks) (h8 : Comp.runs ∈ ks) (h9 : Comp.frames ∈ ks) (h10 : Comp.out ∈ ks) (h11 : Comp.telem ∈ ks) (h12 : Comp.loaded ∈ ks) :
    ChangesOnly ks r (State.endUnbinds s) ↔ ChangesOnly ks r s := by
  unfold State.endUnbinds; simp [↓endUnbind_only, ↓forEach_only, ↓ite_only, ite_self, h0, h1, h2, h3, h4, h5, h6, h7, h8, h9, h10, h11, h12]

theorem releaseForwarded_only {ks : List Comp} {r : State} (s : State)
    (h0 : Comp.geo ∈ ks) (h1 : Comp.frames ∈ ks) :
    ChangesOnly ks r (State.releaseForwarded s) ↔ ChangesOnly ks r s := by
  unfold State.releaseForwarded; simp [↓delFrame_only, ↓releaseFrame_only, ↓forEach_only, ↓ite_only, ite_self, h0, h1]

theorem flushLock_only {ks : List Comp} {r : State} (n : Nat) (s : State)
    (h0 : Comp.lock ∈ ks) (h1 : Comp.ports ∈ ks) (h2 : Comp.out ∈ ks) :
    ChangesOnly ks r (State.flushLock n s) ↔ ChangesOnly ks r s := by
  induction n generalizing s with
  | zero => simp only [State.flushLock]
  | succ n ih =>
    rw [State.flushLock]; dsimp only
    (repeat' split) <;> simp only [↓ih, ↓modLock_only, ↓modPort_only, ↓sendFrame_only, h0, h1, h2]

theorem pumpLock_only {ks : List Comp} {r : State} (s : State)
    (h0 : Comp.waits ∈ ks) (h1 : Comp.fns ∈ ks) (h2 : Comp.chans ∈ ks) (h3 : Comp.lock ∈ ks) (h4 : Comp.ports ∈ ks) (h5 : Comp.outst ∈ ks) (h6 : Comp.deliveries ∈ ks) (h7 : Comp.geo ∈ ks) (h8 : Comp.runs ∈ ks) (h9 : Comp.frames ∈ ks) (h10 : Comp.out ∈ ks) (h11 : Comp.telem ∈ ks) (h12 : Comp.loaded ∈ ks) :
    ChangesOnly ks r (State.pumpLock s) ↔ ChangesOnly ks r s := by
  unfold State.pumpLock; simp [↓endUnbinds_only, ↓settlePool_only, ↓releaseForwarded_only, ↓flushLock_only, ↓ite_only, ite_self, h0, h1, h2, h3, h4, h5, h6, h7, h8, h9, h10, h11, h12]

theorem lockSend_only {ks : List Comp} {r : State} (s : State) (item : Option (Nat × Nat)) (payload : List Byte)
    (h0 : Comp.waits ∈ ks) (h1 : Comp.fns ∈ ks) (h2 : Comp.chans ∈ ks) (h3 : Comp.lock ∈ ks) (h4 : Comp.ports ∈ ks) (h5 : Comp.outst ∈ ks) (h6 : Comp.deliveries ∈ ks) (h7 : Comp.geo ∈ ks) (h8 : Comp.runs ∈ ks) (h9 : Comp.frames ∈ ks) (h10 : Comp.out ∈ ks) (h11 : Comp.telem ∈ ks) (h12 : Comp.loaded ∈ ks) :
    ChangesOnly ks r (State.lockSend s item payload) ↔ ChangesOnly ks r s := by
  unfold State.lockSend; simp only [↓pumpLock_only, ↓modLock_only, ↓ite_only, ite_self, h0, h1, h2, h3, h4, h5, h6, h7, h8, h9, h10, h11, h12]

theorem located_only {ks : List Comp} {r : State} (s : State) (d : Divergence)
    (h0 : Comp.waits ∈ ks) (h1 : Comp.fns ∈ ks) (h2 : Comp.lock ∈ ks) (h3 : Comp.out ∈ ks) :
    ChangesOnly ks r (State.located s d) ↔ ChangesOnly ks r s := by
  unfold State.located; (repeat' split) <;> simp [↓occurAt_only, ↓modLock_only, ↓ite_only, ite_self, h0, h1, h2, h3]

theorem compareDigests_only {ks : List Comp} {r : State} (s : State) (mine : Digest) (peer : Digest)
    (h0 : Comp.waits ∈ ks) (h1 : Comp.fns ∈ ks) (h2 : Comp.chans ∈ ks) (h3 : Comp.lock ∈ ks) (h4 : Comp.ports ∈ ks) (h5 : Comp.outst ∈ ks) (h6 : Comp.deliveries ∈ ks) (h7 : Comp.geo ∈ ks) (h8 : Comp.runs ∈ ks) (h9 : Comp.frames ∈ ks) (h10 : Comp.out ∈ ks) (h11 : Comp.telem ∈ ks) (h12 : Comp.loaded ∈ ks) :
    ChangesOnly ks r (State.compareDigests s mine peer) ↔ ChangesOnly ks r s := by
  simp only [State.compareDigests]; (repeat' split) <;> simp [↓modLock_only, ↓located_only, ↓lockSend_only, ↓ite_only, ite_self, h0, h1, h2, h3, h4, h5, h6, h7, h8, h9, h10, h11, h12]

theorem formDigest_only {ks : List Comp} {r : State} (s : State) (f : Frame) (prog : Nat) (outside : Bool) (aborted : Bool) (outs : List Byte)
    (h0 : Comp.waits ∈ ks) (h1 : Comp.fns ∈ ks) (h2 : Comp.chans ∈ ks) (h3 : Comp.lock ∈ ks) (h4 : Comp.ports ∈ ks) (h5 : Comp.outst ∈ ks) (h6 : Comp.deliveries ∈ ks) (h7 : Comp.geo ∈ ks) (h8 : Comp.runs ∈ ks) (h9 : Comp.frames ∈ ks) (h10 : Comp.out ∈ ks) (h11 : Comp.telem ∈ ks) (h12 : Comp.loaded ∈ ks) :
    ChangesOnly ks r (State.formDigest s f prog outside aborted outs) ↔ ChangesOnly ks r s := by
  simp only [State.formDigest]; (repeat' split) <;> simp [↓lockSend_only, ↓compareDigests_only, ↓modLock_only, ↓ite_only, ite_self, h0, h1, h2, h3, h4, h5, h6, h7, h8, h9, h10, h11, h12]

theorem modProg_only {ks : List Comp} {r : State} (s : State) (n : FnNo) (pid : Nat) (f : Prog → Prog)
    (h0 : Comp.progs ∈ ks) :
    ChangesOnly ks r (State.modProg s n pid f) ↔ ChangesOnly ks r s := by
  unfold State.modProg; simp only [↓upd_progs_only, ↓ite_only, ite_self, h0]

theorem announce_only {ks : List Comp} {r : State} (s : State) (n : FnNo) (pid : Nat)
    (h0 : Comp.progs ∈ ks) (h1 : Comp.fns ∈ ks) (h2 : Comp.out ∈ ks) :
    ChangesOnly ks r (State.announce s n pid) ↔ ChangesOnly ks r s := by
  unfold State.announce; (repeat' split) <;> simp [↓sendMsix_only, ↓modProg_only, ↓ite_only, ite_self, h0, h1, h2]

theorem endRun_only {ks : List Comp} {r : State} (s : State) (c : Nat) (q : Nat)
    (h0 : Comp.clusters ∈ ks) (h1 : Comp.runs ∈ ks) :
    ChangesOnly ks r (State.endRun s c q) ↔ ChangesOnly ks r s := by
  unfold State.endRun
  repeat' (first | with_reducible rfl | (simp only [↓upd_clusters_only, ↓upd_runs_only, ↓forEach_only, ↓ite_only, ite_self, h0, h1]) | with_reducible (refine (forEach_only (fun _ _ => ?_) _ _).trans ?_) | split | dsimp only)

theorem retireFrame_only {ks : List Comp} {r : State} (s : State) (c : Nat) (q : Nat)
    (h0 : Comp.geo ∈ ks) (h1 : Comp.frames ∈ ks) :
    ChangesOnly ks r (State.retireFrame s c q) ↔ ChangesOnly ks r s := by
  unfold State.retireFrame; simp only [↓modFrame_only, ↓delFrame_only, ↓releaseFrame_only, ↓ite_only, ite_self, h0, h1]

theorem writeResult_only {ks : List Comp} {r : State} (s : State) (n : FnNo) (p : Prog) (l : Launch) (c : Nat) (q : Nat) (bytes : List Byte)
    (h0 : Comp.waits ∈ ks) (h1 : Comp.progs ∈ ks) (h2 : Comp.fns ∈ ks) (h3 : Comp.chans ∈ ks) (h4 : Comp.clusters ∈ ks) (h5 : Comp.lock ∈ ks) (h6 : Comp.ports ∈ ks) (h7 : Comp.outst ∈ ks) (h8 : Comp.deliveries ∈ ks) (h9 : Comp.geo ∈ ks) (h10 : Comp.runs ∈ ks) (h11 : Comp.frames ∈ ks) (h12 : Comp.out ∈ ks) (h13 : Comp.telem ∈ ks) (h14 : Comp.loaded ∈ ks) :
    ChangesOnly ks r (State.writeResult s n p l c q bytes) ↔ ChangesOnly ks r s := by
  unfold State.writeResult; (repeat' split) <;> simp [↓hostWrite_only, ↓modProg_only, ↓count_only, ↓announce_only, ↓modChan_only, ↓formDigest_only, ↓retireFrame_only, ↓endRun_only, ↓ite_only, ite_self, h0, h1, h2, h3, h4, h5, h6, h7, h8, h9, h10, h11, h12, h13, h14] <;> (repeat' split) <;> simp [↓hostWrite_only, ↓modProg_only, ↓count_only, ↓announce_only, ↓modChan_only, ↓formDigest_only, ↓retireFrame_only, ↓endRun_only, ↓ite_only, ite_self, h0, h1, h2, h3, h4, h5, h6, h7, h8, h9, h10, h11, h12, h13, h14]

theorem flushRing_only {ks : List Comp} {r : State} (n : FnNo) (pid k : Nat) (s : State) (h0 : Comp.waits ∈ ks) (h1 : Comp.progs ∈ ks) (h2 : Comp.fns ∈ ks) (h3 : Comp.chans ∈ ks) (h4 : Comp.clusters ∈ ks) (h5 : Comp.lock ∈ ks) (h6 : Comp.ports ∈ ks) (h7 : Comp.outst ∈ ks) (h8 : Comp.deliveries ∈ ks) (h9 : Comp.geo ∈ ks) (h10 : Comp.runs ∈ ks) (h11 : Comp.frames ∈ ks) (h12 : Comp.out ∈ ks) (h13 : Comp.telem ∈ ks) (h14 : Comp.loaded ∈ ks) :
    ChangesOnly ks r (State.flushRing n pid k s) ↔ ChangesOnly ks r s := by
  induction k generalizing s with
  | zero => simp only [State.flushRing]
  | succ k ih =>
    rw [State.flushRing]; dsimp only
    (repeat' split) <;> simp only [↓ih, ↓modProg_only, ↓writeResult_only, h0, h1, h2, h3, h4, h5, h6, h7, h8, h9, h10, h11, h12, h13, h14]

theorem pumpRing_only {ks : List Comp} {r : State} (s : State) (n : FnNo) (pid : Nat)
    (h0 : Comp.waits ∈ ks) (h1 : Comp.progs ∈ ks) (h2 : Comp.fns ∈ ks) (h3 : Comp.chans ∈ ks) (h4 : Comp.clusters ∈ ks) (h5 : Comp.lock ∈ ks) (h6 : Comp.ports ∈ ks) (h7 : Comp.outst ∈ ks) (h8 : Comp.deliveries ∈ ks) (h9 : Comp.geo ∈ ks) (h10 : Comp.runs ∈ ks) (h11 : Comp.frames ∈ ks) (h12 : Comp.out ∈ ks) (h13 : Comp.telem ∈ ks) (h14 : Comp.loaded ∈ ks) :
    ChangesOnly ks r (State.pumpRing s n pid) ↔ ChangesOnly ks r s := by
  simp only [State.pumpRing]; (repeat' split) <;> simp [↓endUnbinds_only, ↓settlePool_only, ↓flushRing_only, ↓ite_only, ite_self, h0, h1, h2, h3, h4, h5, h6, h7, h8, h9, h10, h11, h12, h13, h14]

theorem finishFrame_only {ks : List Comp} {r : State} (s : State) (c : Nat) (q : Nat) (aborted : Bool) (outs : List Byte)
    (h0 : Comp.waits ∈ ks) (h1 : Comp.progs ∈ ks) (h2 : Comp.fns ∈ ks) (h3 : Comp.chans ∈ ks) (h4 : Comp.clusters ∈ ks) (h5 : Comp.lock ∈ ks) (h6 : Comp.ports ∈ ks) (h7 : Comp.outst ∈ ks) (h8 : Comp.deliveries ∈ ks) (h9 : Comp.geo ∈ ks) (h10 : Comp.runs ∈ ks) (h11 : Comp.frames ∈ ks) (h12 : Comp.out ∈ ks) (h13 : Comp.telem ∈ ks) (h14 : Comp.loaded ∈ ks) :
    ChangesOnly ks r (State.finishFrame s c q aborted outs) ↔ ChangesOnly ks r s := by
  unfold State.finishFrame; (repeat' split) <;> simp [↓delFrame_only, ↓releaseFrame_only, ↓endRun_only, ↓count_only, ↓modFrame_only, ↓pumpRing_only, ↓modProg_only, ↓ite_only, ite_self, h0, h1, h2, h3, h4, h5, h6, h7, h8, h9, h10, h11, h12, h13, h14]

theorem dropRaster_only {ks : List Comp} {r : State} (s : State) (c : Nat) (q : Nat)
    (h0 : Comp.deliveries ∈ ks) (h1 : Comp.frames ∈ ks) :
    ChangesOnly ks r (State.dropRaster s c q) ↔ ChangesOnly ks r s := by
  unfold State.dropRaster; simp only [↓modFrame_only, ↓upd_deliveries_only, ↓ite_only, ite_self, h0, h1]

theorem abortFrame_only {ks : List Comp} {r : State} (s : State) (c : Nat) (q : Nat)
    (h0 : Comp.waits ∈ ks) (h1 : Comp.progs ∈ ks) (h2 : Comp.fns ∈ ks) (h3 : Comp.chans ∈ ks) (h4 : Comp.clusters ∈ ks) (h5 : Comp.lock ∈ ks) (h6 : Comp.ports ∈ ks) (h7 : Comp.outst ∈ ks) (h8 : Comp.deliveries ∈ ks) (h9 : Comp.geo ∈ ks) (h10 : Comp.runs ∈ ks) (h11 : Comp.frames ∈ ks) (h12 : Comp.out ∈ ks) (h13 : Comp.telem ∈ ks) (h14 : Comp.loaded ∈ ks) :
    ChangesOnly ks r (State.abortFrame s c q) ↔ ChangesOnly ks r s := by
  unfold State.abortFrame; (repeat' split) <;> (try (refine (forEach_only (fun _ _ => ?_) _ _).trans ?_)) <;> (try dsimp only) <;> (repeat' split) <;> simp [↓finishFrame_only, ↓dropRaster_only, ↓ite_only, ite_self, h0, h1, h2, h3, h4, h5, h6, h7, h8, h9, h10, h11, h12, h13, h14]

theorem makeReady_only {ks : List Comp} {r : State} (s : State) (c : Nat) (q : Nat) (tick : Tick)
    (h0 : Comp.waits ∈ ks) (h1 : Comp.progs ∈ ks) (h2 : Comp.fns ∈ ks) (h3 : Comp.chans ∈ ks) (h4 : Comp.clusters ∈ ks) (h5 : Comp.lock ∈ ks) (h6 : Comp.ports ∈ ks) (h7 : Comp.outst ∈ ks) (h8 : Comp.deliveries ∈ ks) (h9 : Comp.geo ∈ ks) (h10 : Comp.runs ∈ ks) (h11 : Comp.frames ∈ ks) (h12 : Comp.out ∈ ks) (h13 : Comp.telem ∈ ks) (h14 : Comp.loaded ∈ ks) :
    ChangesOnly ks r (State.makeReady s c q tick) ↔ ChangesOnly ks r s := by
  simp only [State.makeReady]; (repeat' split) <;> simp [↓modFrame_only, ↓abortFrame_only, ↓ite_only, ite_self, h0, h1, h2, h3, h4, h5, h6, h7, h8, h9, h10, h11, h12, h13, h14]

theorem abortAll_only {ks : List Comp} {r : State} (s : State) (l : List Frame)
    (h0 : Comp.waits ∈ ks) (h1 : Comp.progs ∈ ks) (h2 : Comp.fns ∈ ks) (h3 : Comp.chans ∈ ks) (h4 : Comp.clusters ∈ ks) (h5 : Comp.lock ∈ ks) (h6 : Comp.ports ∈ ks) (h7 : Comp.outst ∈ ks) (h8 : Comp.deliveries ∈ ks) (h9 : Comp.geo ∈ ks) (h10 : Comp.runs ∈ ks) (h11 : Comp.frames ∈ ks) (h12 : Comp.out ∈ ks) (h13 : Comp.telem ∈ ks) (h14 : Comp.loaded ∈ ks) :
    ChangesOnly ks r (State.abortAll s l) ↔ ChangesOnly ks r s := by
  unfold State.abortAll; (repeat' split) <;> simp [↓abortFrame_only, ↓forEach_only, ↓ite_only, ite_self, h0, h1, h2, h3, h4, h5, h6, h7, h8, h9, h10, h11, h12, h13, h14]

theorem abortWaiting_only {ks : List Comp} {r : State} (s : State) (n : FnNo)
    (h0 : Comp.waits ∈ ks) (h1 : Comp.progs ∈ ks) (h2 : Comp.fns ∈ ks) (h3 : Comp.chans ∈ ks) (h4 : Comp.clusters ∈ ks) (h5 : Comp.lock ∈ ks) (h6 : Comp.ports ∈ ks) (h7 : Comp.outst ∈ ks) (h8 : Comp.deliveries ∈ ks) (h9 : Comp.geo ∈ ks) (h10 : Comp.runs ∈ ks) (h11 : Comp.frames ∈ ks) (h12 : Comp.out ∈ ks) (h13 : Comp.telem ∈ ks) (h14 : Comp.loaded ∈ ks) :
    ChangesOnly ks r (State.abortWaiting s n) ↔ ChangesOnly ks r s := by
  unfold State.abortWaiting; (repeat' split) <;> (try (refine (forEach_only (fun _ _ => ?_) _ _).trans ?_)) <;> (try dsimp only) <;> (repeat' split) <;> simp [↓pumpRing_only, ↓modProg_only, ↓upd_deliveries_only, ↓upd_frames_only, ↓forEach_only, ↓ite_only, ite_self, h0, h1, h2, h3, h4, h5, h6, h7, h8, h9, h10, h11, h12, h13, h14]

theorem announceAll_only {ks : List Comp} {r : State} (s : State) (n : FnNo)
    (h0 : Comp.progs ∈ ks) (h1 : Comp.fns ∈ ks) (h2 : Comp.out ∈ ks) :
    ChangesOnly ks r (State.announceAll s n) ↔ ChangesOnly ks r s := by
  unfold State.announceAll; (repeat' split) <;> (try (refine (forEach_only (fun _ _ => ?_) _ _).trans ?_)) <;> (try dsimp only) <;> (repeat' split) <;> simp [↓sendMsix_only, ↓modProg_only, ↓forEach_only, ↓ite_only, ite_self, h0, h1, h2]

theorem takeLogGranules_only {ks : List Comp} {r : State} (n : Nat) (s : State)
    (h0 : Comp.geo ∈ ks) (h1 : Comp.lock ∈ ks) :
    ChangesOnly ks r (State.takeLogGranules n s) ↔ ChangesOnly ks r s := by
  induction n generalizing s with
  | zero => simp only [State.takeLogGranules]
  | succ n ih => rw [State.takeLogGranules]; split <;> simp only [↓ih, ↓modLock_only, ↓upd_geo_only, ↓markGranule_only, h0, h1]

theorem areaCredit_only {ks : List Comp} {r : State} (s : State)
    (h0 : Comp.ports ∈ ks) (h1 : Comp.out ∈ ks) :
    ChangesOnly ks r (State.areaCredit s) ↔ ChangesOnly ks r s := by
  unfold State.areaCredit; simp only [↓emit_only, ↓modPort_only, ↓ite_only, ite_self, h0, h1]

theorem endPair_only {ks : List Comp} {r : State} (s : State) (cause : BitVec 8) (tell : Bool)
    (h0 : Comp.waits ∈ ks) (h1 : Comp.fns ∈ ks) (h2 : Comp.chans ∈ ks) (h3 : Comp.lock ∈ ks) (h4 : Comp.ports ∈ ks) (h5 : Comp.outst ∈ ks) (h6 : Comp.deliveries ∈ ks) (h7 : Comp.geo ∈ ks) (h8 : Comp.runs ∈ ks) (h9 : Comp.frames ∈ ks) (h10 : Comp.out ∈ ks) (h11 : Comp.telem ∈ ks) (h12 : Comp.loaded ∈ ks) :
    ChangesOnly ks r (State.endPair s cause tell) ↔ ChangesOnly ks r s := by
  unfold State.endPair; simp only [↓modLock_only, ↓releaseParts_only, ↓lockSend_only, ↓pumpLock_only, ↓areaCredit_only, ↓occurAll_only, ↓ite_only, ite_self, h0, h1, h2, h3, h4, h5, h6, h7, h8, h9, h10, h11, h12]

theorem resetShorts_only {ks : List Comp} {r : State} (s : State) (n : FnNo)
    (h0 : Comp.fns ∈ ks) (h1 : Comp.out ∈ ks) :
    ChangesOnly ks r (State.resetShorts s n) ↔ ChangesOnly ks r s := by
  unfold State.resetShorts; (repeat' split) <;> (try (refine (forEach_only (fun _ _ => ?_) _ _).trans ?_)) <;> (try dsimp only) <;> (repeat' split) <;> simp [↓settleQueue_only, ↓afterReply_only, ↓reply_only, ↓modQp_only, ↓forEach_only, ↓ite_only, ite_self, h0, h1]

theorem endCommands_only {ks : List Comp} {r : State} (s : State) (n : FnNo)
    (h0 : Comp.waits ∈ ks) (h1 : Comp.fns ∈ ks) (h2 : Comp.outst ∈ ks) (h3 : Comp.out ∈ ks) :
    ChangesOnly ks r (State.endCommands s n) ↔ ChangesOnly ks r s := by
  unfold State.endCommands
  repeat' (first | with_reducible rfl | (simp only [↓complete_only, ↓resetShorts_only, ↓forEach_only, ↓ite_only, ite_self, h0, h1, h2, h3]) | with_reducible (refine (forEach_only (fun _ _ => ?_) _ _).trans ?_) | split | dsimp only)

theorem forgetWork_only {ks : List Comp} {r : State} (s : State) (n : FnNo)
    (h0 : Comp.barriers ∈ ks) (h1 : Comp.waits ∈ ks) (h2 : Comp.copies ∈ ks) (h3 : Comp.logReads ∈ ks) (h4 : Comp.scheduled ∈ ks) (h5 : Comp.tableLoads ∈ ks) (h6 : Comp.panel ∈ ks) (h7 : Comp.mprogLoads ∈ ks) (h8 : Comp.nv ∈ ks) (h9 : Comp.stores ∈ ks) :
    ChangesOnly ks r (State.forgetWork s n) ↔ ChangesOnly ks r s := by
  unfold State.forgetWork; simp only [↓upd_barriers_only, ↓upd_nv_only, ↓upd_copies_only, ↓upd_tableLoads_only, ↓upd_logReads_only, ↓upd_scheduled_only, ↓upd_stores_only, ↓upd_copies_waits_barriers_scheduled_tableLoads_mprogLoads_stores_logReads_nv_panel_only, ↓upd_panel_only, ↓upd_waits_only, ↓upd_nv_panel_only, ↓upd_mprogLoads_only, ↓ite_only, ite_self, h0, h1, h2, h3, h4, h5, h6, h7, h8, h9]

/-! ### Place -/

theorem abortReady_only {ks : List Comp} {r : State} (s : State) (p : Prog)
    (h0 : Comp.waits ∈ ks) (h1 : Comp.progs ∈ ks) (h2 : Comp.fns ∈ ks) (h3 : Comp.chans ∈ ks) (h4 : Comp.clusters ∈ ks) (h5 : Comp.lock ∈ ks) (h6 : Comp.ports ∈ ks) (h7 : Comp.outst ∈ ks) (h8 : Comp.deliveries ∈ ks) (h9 : Comp.geo ∈ ks) (h10 : Comp.runs ∈ ks) (h11 : Comp.frames ∈ ks) (h12 : Comp.out ∈ ks) (h13 : Comp.telem ∈ ks) (h14 : Comp.loaded ∈ ks) :
    ChangesOnly ks r (State.abortReady s p) ↔ ChangesOnly ks r s := by
  unfold State.abortReady; (repeat' split) <;> simp [↓abortAll_only, ↓ite_only, ite_self, h0, h1, h2, h3, h4, h5, h6, h7, h8, h9, h10, h11, h12, h13, h14]

theorem reselectProg_only {ks : List Comp} {r : State} (s : State) (n : FnNo) (pid : Nat)
    (h0 : Comp.waits ∈ ks) (h1 : Comp.progs ∈ ks) (h2 : Comp.fns ∈ ks) (h3 : Comp.chans ∈ ks) (h4 : Comp.clusters ∈ ks) (h5 : Comp.lock ∈ ks) (h6 : Comp.ports ∈ ks) (h7 : Comp.outst ∈ ks) (h8 : Comp.deliveries ∈ ks) (h9 : Comp.geo ∈ ks) (h10 : Comp.runs ∈ ks) (h11 : Comp.frames ∈ ks) (h12 : Comp.out ∈ ks) (h13 : Comp.telem ∈ ks) (h14 : Comp.loaded ∈ ks) (h15 : Comp.repro ∈ ks) :
    ChangesOnly ks r (State.reselectProg s n pid) ↔ ChangesOnly ks r s := by
  unfold State.reselectProg; (repeat' split) <;> simp [↓modProg_only, ↓reproBreak_only, ↓abortReady_only, ↓ite_only, ite_self, h0, h1, h2, h3, h4, h5, h6, h7, h8, h9, h10, h11, h12, h13, h14, h15]

theorem reselect_only {ks : List Comp} {r : State} (s : State) (n : FnNo)
    (h0 : Comp.waits ∈ ks) (h1 : Comp.progs ∈ ks) (h2 : Comp.fns ∈ ks) (h3 : Comp.chans ∈ ks) (h4 : Comp.clusters ∈ ks) (h5 : Comp.lock ∈ ks) (h6 : Comp.ports ∈ ks) (h7 : Comp.outst ∈ ks) (h8 : Comp.deliveries ∈ ks) (h9 : Comp.geo ∈ ks) (h10 : Comp.runs ∈ ks) (h11 : Comp.frames ∈ ks) (h12 : Comp.out ∈ ks) (h13 : Comp.telem ∈ ks) (h14 : Comp.loaded ∈ ks) (h15 : Comp.repro ∈ ks) :
    ChangesOnly ks r (State.reselect s n) ↔ ChangesOnly ks r s := by
  unfold State.reselect; simp [↓reselectProg_only, ↓forEach_only, ↓ite_only, ite_self, h0, h1, h2, h3, h4, h5, h6, h7, h8, h9, h10, h11, h12, h13, h14, h15]

theorem reselectAll_only {ks : List Comp} {r : State} (s : State)
    (h0 : Comp.waits ∈ ks) (h1 : Comp.progs ∈ ks) (h2 : Comp.fns ∈ ks) (h3 : Comp.chans ∈ ks) (h4 : Comp.clusters ∈ ks) (h5 : Comp.lock ∈ ks) (h6 : Comp.ports ∈ ks) (h7 : Comp.outst ∈ ks) (h8 : Comp.deliveries ∈ ks) (h9 : Comp.geo ∈ ks) (h10 : Comp.runs ∈ ks) (h11 : Comp.frames ∈ ks) (h12 : Comp.out ∈ ks) (h13 : Comp.telem ∈ ks) (h14 : Comp.loaded ∈ ks) (h15 : Comp.repro ∈ ks) :
    ChangesOnly ks r (State.reselectAll s) ↔ ChangesOnly ks r s := by
  unfold State.reselectAll; simp [↓reselect_only, ↓forEach_only, ↓ite_only, ite_self, h0, h1, h2, h3, h4, h5, h6, h7, h8, h9, h10, h11, h12, h13, h14, h15]

theorem clustersChanged_only {ks : List Comp} {r : State} (s : State) (n : FnNo)
    (h0 : Comp.waits ∈ ks) (h1 : Comp.progs ∈ ks) (h2 : Comp.fns ∈ ks) (h3 : Comp.chans ∈ ks) (h4 : Comp.clusters ∈ ks) (h5 : Comp.lock ∈ ks) (h6 : Comp.ports ∈ ks) (h7 : Comp.outst ∈ ks) (h8 : Comp.deliveries ∈ ks) (h9 : Comp.geo ∈ ks) (h10 : Comp.runs ∈ ks) (h11 : Comp.frames ∈ ks) (h12 : Comp.out ∈ ks) (h13 : Comp.telem ∈ ks) (h14 : Comp.loaded ∈ ks) (h15 : Comp.repro ∈ ks) :
    ChangesOnly ks r (State.clustersChanged s n) ↔ ChangesOnly ks r s := by
  unfold State.clustersChanged; simp only [↓reselect_only, ↓reproBreak_only, ↓ite_only, ite_self, h0, h1, h2, h3, h4, h5, h6, h7, h8, h9, h10, h11, h12, h13, h14, h15]

theorem endLaunch_only {ks : List Comp} {r : State} (s : State) (n : FnNo) (pid : Nat)
    (h0 : Comp.progs ∈ ks) :
    ChangesOnly ks r (State.endLaunch s n pid) ↔ ChangesOnly ks r s := by
  unfold State.endLaunch; simp only [↓modProg_only, ↓ite_only, ite_self, h0]

/-! ### Device -/

theorem capChanged_only {ks : List Comp} {r : State} (s : State)
    (h0 : Comp.waits ∈ ks) (h1 : Comp.fns ∈ ks) (h2 : Comp.out ∈ ks) :
    ChangesOnly ks r (State.capChanged s) ↔ ChangesOnly ks r s := by
  unfold State.capChanged; simp only [↓occurAll_only, ↓ite_only, ite_self, h0, h1, h2]

theorem capNoticeNow_only {ks : List Comp} {r : State} (s : State)
    (h0 : Comp.waits ∈ ks) (h1 : Comp.fns ∈ ks) (h2 : Comp.plans ∈ ks) (h3 : Comp.out ∈ ks) :
    ChangesOnly ks r (State.capNoticeNow s) ↔ ChangesOnly ks r s := by
  unfold State.capNoticeNow; simp only [↓capChanged_only, ↓upd_plans_only, ↓ite_only, ite_self, h0, h1, h2, h3]

theorem endCapLapses_only {ks : List Comp} {r : State} (s : State)
    (h0 : Comp.slots ∈ ks) :
    ChangesOnly ks r (State.endCapLapses s) ↔ ChangesOnly ks r s := by
  unfold State.endCapLapses; simp only [↓lapseEnds_only, ↓ite_only, ite_self, h0]

theorem releaseThrottle_only {ks : List Comp} {r : State} (s : State)
    (h0 : Comp.sup ∈ ks) :
    ChangesOnly ks r (State.releaseThrottle s) ↔ ChangesOnly ks r s := by
  unfold State.releaseThrottle; simp only [↓upd_sup_only, ↓ite_only, ite_self, h0]

theorem settlePlan_only {ks : List Comp} {r : State} (s : State) (capCaused : Bool)
    (h0 : Comp.slots ∈ ks) (h1 : Comp.waits ∈ ks) (h2 : Comp.fns ∈ ks) (h3 : Comp.plans ∈ ks) (h4 : Comp.sup ∈ ks) (h5 : Comp.out ∈ ks) (h6 : Comp.repro ∈ ks) :
    ChangesOnly ks r (State.settlePlan s capCaused) ↔ ChangesOnly ks r s := by
  unfold State.settlePlan; simp only [↓capNoticeNow_only, ↓beginDueRuns_only, ↓endCapLapses_only, ↓releaseThrottle_only, ↓callPlan_only, ↓upd_plans_only, ↓ite_only, ite_self, h0, h1, h2, h3, h4, h5, h6]

theorem planCommandDone_only {ks : List Comp} {r : State} (s : State)
    (h0 : Comp.waits ∈ ks) (h1 : Comp.fns ∈ ks) (h2 : Comp.plans ∈ ks) (h3 : Comp.outst ∈ ks) (h4 : Comp.out ∈ ks) :
    ChangesOnly ks r (State.planCommandDone s) ↔ ChangesOnly ks r s := by
  unfold State.planCommandDone; (repeat' split) <;> simp [↓completeOk_only, ↓upd_plans_only, ↓ite_only, ite_self, h0, h1, h2, h3, h4]

theorem planCommands_only {ks : List Comp} {r : State} (s : State)
    (h0 : Comp.waits ∈ ks) (h1 : Comp.fns ∈ ks) (h2 : Comp.plans ∈ ks) (h3 : Comp.outst ∈ ks) (h4 : Comp.out ∈ ks) :
    ChangesOnly ks r (State.planCommands s) ↔ ChangesOnly ks r s := by
  unfold State.planCommands; simp [↓planCommandDone_only, ↓forEach_only, ↓ite_only, ite_self, h0, h1, h2, h3, h4]

theorem endInstall_only {ks : List Comp} {r : State} (s : State)
    (h0 : Comp.slots ∈ ks) (h1 : Comp.waits ∈ ks) (h2 : Comp.progs ∈ ks) (h3 : Comp.fns ∈ ks) (h4 : Comp.chans ∈ ks) (h5 : Comp.plans ∈ ks) (h6 : Comp.clusters ∈ ks) (h7 : Comp.lock ∈ ks) (h8 : Comp.ports ∈ ks) (h9 : Comp.outst ∈ ks) (h10 : Comp.sup ∈ ks) (h11 : Comp.deliveries ∈ ks) (h12 : Comp.geo ∈ ks) (h13 : Comp.runs ∈ ks) (h14 : Comp.frames ∈ ks) (h15 : Comp.out ∈ ks) (h16 : Comp.telem ∈ ks) (h17 : Comp.loaded ∈ ks) (h18 : Comp.repro ∈ ks) :
    ChangesOnly ks r (endInstall s) ↔ ChangesOnly ks r s := by
  unfold endInstall; (repeat' split) <;> simp [↓reselectAll_only, ↓planCommandDone_only, ↓planCommands_only, ↓settlePlan_only, ↓upd_plans_only, ↓ite_only, ite_self, h0, h1, h2, h3, h4, h5, h6, h7, h8, h9, h10, h11, h12, h13, h14, h15, h16, h17, h18]

theorem setPowerCap_only {ks : List Comp} {r : State} (cap : Nat) (s : State)
    (h0 : Comp.slots ∈ ks) (h1 : Comp.waits ∈ ks) (h2 : Comp.progs ∈ ks) (h3 : Comp.fns ∈ ks) (h4 : Comp.chans ∈ ks) (h5 : Comp.plans ∈ ks) (h6 : Comp.clusters ∈ ks) (h7 : Comp.lock ∈ ks) (h8 : Comp.ports ∈ ks) (h9 : Comp.outst ∈ ks) (h10 : Comp.sup ∈ ks) (h11 : Comp.deliveries ∈ ks) (h12 : Comp.geo ∈ ks) (h13 : Comp.runs ∈ ks) (h14 : Comp.frames ∈ ks) (h15 : Comp.out ∈ ks) (h16 : Comp.telem ∈ ks) (h17 : Comp.loaded ∈ ks) (h18 : Comp.repro ∈ ks) :
    ChangesOnly ks r (setPowerCap cap s).1 ↔ ChangesOnly ks r s := by
  unfold setPowerCap; simp only [↓breakAll_only, ↓endInstall_only, ↓callPlan_only, ↓upd_plans_only, ↓ite_only, ite_self, h0, h1, h2, h3, h4, h5, h6, h7, h8, h9, h10, h11, h12, h13, h14, h15, h16, h17, h18]

theorem execDevIdentify_only {ks : List Comp} {r t : State} {fn : FnNo} {qp : QpNo} {pkt : Packet} {s : State}
    (e : execDevIdentify fn qp pkt s = .next t) (h0 : Comp.fns ∈ ks) (h1 : Comp.out ∈ ks) :
    ChangesOnly ks r t ↔ ChangesOnly ks r s := by
  injection e with e; subst e
  repeat' (first | with_reducible rfl | assumption | intro _ | (simp only [↓shortCommand_only, ↓writeBlock_only, ↓ite_only, ite_self, h0, h1]) | rw [foldl_fst_only] | rw [foldl_only] | rw [shortCommand_only] | split | dsimp only)

theorem execDevStatus_only {ks : List Comp} {r t : State} {fn : FnNo} {qp : QpNo} {pkt : Packet} {s : State}
    (e : execDevStatus fn qp pkt s = .next t) (h0 : Comp.fns ∈ ks) (h1 : Comp.out ∈ ks) :
    ChangesOnly ks r t ↔ ChangesOnly ks r s := by
  injection e with e; subst e
  repeat' (first | with_reducible rfl | assumption | intro _ | (simp only [↓shortCommand_only, ↓writeBlock_only, ↓ite_only, ite_self, h0, h1]) | rw [foldl_fst_only] | rw [foldl_only] | rw [shortCommand_only] | split | dsimp only)

theorem execPlanInstallComplete_only {ks : List Comp} {r t : State} {s : State}
    (e : execPlanInstallComplete s = .next t) (h0 : Comp.slots ∈ ks) (h1 : Comp.waits ∈ ks) (h2 : Comp.progs ∈ ks) (h3 : Comp.fns ∈ ks) (h4 : Comp.chans ∈ ks) (h5 : Comp.plans ∈ ks) (h6 : Comp.clusters ∈ ks) (h7 : Comp.lock ∈ ks) (h8 : Comp.ports ∈ ks) (h9 : Comp.outst ∈ ks) (h10 : Comp.sup ∈ ks) (h11 : Comp.deliveries ∈ ks) (h12 : Comp.geo ∈ ks) (h13 : Comp.runs ∈ ks) (h14 : Comp.frames ∈ ks) (h15 : Comp.out ∈ ks) (h16 : Comp.telem ∈ ks) (h17 : Comp.loaded ∈ ks) (h18 : Comp.repro ∈ ks) :
    ChangesOnly ks r t ↔ ChangesOnly ks r s := by
  injection e with e; subst e; simp only [↓endInstall_only, ↓ite_only, ite_self, h0, h1, h2, h3, h4, h5, h6, h7, h8, h9, h10, h11, h12, h13, h14, h15, h16, h17, h18]

theorem execDevSetPowerCap_only {ks : List Comp} {r t : State} {fn : FnNo} {qp : QpNo} {pkt : Packet} {s : State}
    (e : execDevSetPowerCap fn qp pkt s = .next t) (h0 : Comp.slots ∈ ks) (h1 : Comp.waits ∈ ks) (h2 : Comp.progs ∈ ks) (h3 : Comp.fns ∈ ks) (h4 : Comp.chans ∈ ks) (h5 : Comp.plans ∈ ks) (h6 : Comp.clusters ∈ ks) (h7 : Comp.lock ∈ ks) (h8 : Comp.ports ∈ ks) (h9 : Comp.outst ∈ ks) (h10 : Comp.sup ∈ ks) (h11 : Comp.deliveries ∈ ks) (h12 : Comp.geo ∈ ks) (h13 : Comp.runs ∈ ks) (h14 : Comp.frames ∈ ks) (h15 : Comp.out ∈ ks) (h16 : Comp.telem ∈ ks) (h17 : Comp.loaded ∈ ks) (h18 : Comp.repro ∈ ks) :
    ChangesOnly ks r t ↔ ChangesOnly ks r s := by
  injection e with e; subst e
  repeat' (first | with_reducible rfl | assumption | intro _ | (simp only [↓shortCommand_only, ↓setPowerCap_only, ↓ite_only, ite_self, h0, h1, h2, h3, h4, h5, h6, h7, h8, h9, h10, h11, h12, h13, h14, h15, h16, h17, h18]) | rw [foldl_fst_only] | rw [foldl_only] | rw [shortCommand_only] | split | dsimp only)

theorem execDevSetClockPlan_only {ks : List Comp} {r t : State} {fn : FnNo} {qp : QpNo} {pkt : Packet} {s : State}
    (e : execDevSetClockPlan fn qp pkt s = .next t) (h0 : Comp.slots ∈ ks) (h1 : Comp.waits ∈ ks) (h2 : Comp.nextId ∈ ks) (h3 : Comp.fns ∈ ks) (h4 : Comp.plans ∈ ks) (h5 : Comp.outst ∈ ks) (h6 : Comp.out ∈ ks) (h7 : Comp.repro ∈ ks) :
    ChangesOnly ks r t ↔ ChangesOnly ks r s := by
  injection e with e; subst e
  repeat' (first | with_reducible rfl | assumption | intro _ | (simp only [↓longCommand_only, ↓planCommands_only, ↓callPlan_only, ↓upd_plans_only, ↓ite_only, ite_self, h0, h1, h2, h3, h4, h5, h6, h7]) | rw [foldl_fst_only] | rw [foldl_only] | rw [longCommand_only] | split | dsimp only)

/-! ### Copy -/

theorem acceptCopy_only {ks : List Comp} {r : State} (kind : CopyKind) (n : FnNo) (p : Packet) (id : Nat) (s : State)
    (h0 : Comp.copies ∈ ks) :
    ChangesOnly ks r (acceptCopy kind n p id s) ↔ ChangesOnly ks r s := by
  unfold acceptCopy; simp only [↓upd_copies_only, ↓ite_only, ite_self, h0]

theorem startCopyJob_only {ks : List Comp} {r : State} (e : EngNo) (n : FnNo) (s : State)
    (h0 : Comp.copies ∈ ks) (h1 : Comp.stores ∈ ks) :
    ChangesOnly ks r (startCopyJob e n s) ↔ ChangesOnly ks r s := by
  simp only [startCopyJob]; (repeat' split) <;> simp [↓modStore_only, ↓upd_copies_only, ↓ite_only, ite_self, h0, h1]

theorem writeElements_only {ks : List Comp} {r : State} (s : State) (j : CopyJob) (ws : List (Nat × List Byte))
    (h0 : Comp.ext ∈ ks) (h1 : Comp.geo ∈ ks) (h2 : Comp.scratch ∈ ks) (h3 : Comp.out ∈ ks) :
    ChangesOnly ks r (State.writeElements s j ws).1 ↔ ChangesOnly ks r s := by
  unfold State.writeElements; (repeat' split) <;> simp [↓bulkWrite_only, ↓makeGood_only, ↓viewWriteGo_only, ↓forEach_only, ↓ite_only, ite_self, h0, h1, h2, h3]

theorem copyDone_only {ks : List Comp} {r : State} (s : State) (j : CopyJob) (ws : List (Nat × List Byte)) (bytes : Nat) (f : Option CopyFail)
    (h0 : Comp.waits ∈ ks) (h1 : Comp.copies ∈ ks) (h2 : Comp.fns ∈ ks) (h3 : Comp.outst ∈ ks) (h4 : Comp.out ∈ ks) (h5 : Comp.stores ∈ ks) :
    ChangesOnly ks r (State.copyDone s j ws bytes f) ↔ ChangesOnly ks r s := by
  unfold State.copyDone; (repeat' split) <;> simp [↓modStore_only, ↓completeOk_only, ↓complete_only, ↓upd_copies_only, ↓ite_only, ite_self, h0, h1, h2, h3, h4, h5]

theorem copyStops_only {ks : List Comp} {r : State} (s : State) (j : CopyJob) (ws : List (Nat × List Byte)) (f : CopyFail)
    (h0 : Comp.waits ∈ ks) (h1 : Comp.copies ∈ ks) (h2 : Comp.fns ∈ ks) (h3 : Comp.outst ∈ ks) (h4 : Comp.ext ∈ ks) (h5 : Comp.geo ∈ ks) (h6 : Comp.scratch ∈ ks) (h7 : Comp.out ∈ ks) (h8 : Comp.free ∈ ks) (h9 : Comp.stores ∈ ks) :
    ChangesOnly ks r (State.copyStops s j ws f) ↔ ChangesOnly ks r s := by
  unfold State.copyStops; simp only [↓draw_only, ↓writeElements_only, ↓copyDone_only, ↓ite_only, ite_self, h0, h1, h2, h3, h4, h5, h6, h7, h8, h9]

theorem cutJob_only {ks : List Comp} {r : State} (s : State) (j : CopyJob) (unit : W16)
    (h0 : Comp.waits ∈ ks) (h1 : Comp.copies ∈ ks) (h2 : Comp.fns ∈ ks) (h3 : Comp.outst ∈ ks) (h4 : Comp.ext ∈ ks) (h5 : Comp.geo ∈ ks) (h6 : Comp.scratch ∈ ks) (h7 : Comp.out ∈ ks) (h8 : Comp.free ∈ ks) (h9 : Comp.stores ∈ ks) :
    ChangesOnly ks r (State.cutJob s j unit) ↔ ChangesOnly ks r s := by
  unfold State.cutJob; simp only [↓copyStops_only, ↓ite_only, ite_self, h0, h1, h2, h3, h4, h5, h6, h7, h8, h9]

theorem finishCopy_only {ks : List Comp} {r : State} (e : EngNo) (n : FnNo) (host : List Byte) (fail : Option W64) (s : State)
    (h0 : Comp.waits ∈ ks) (h1 : Comp.copies ∈ ks) (h2 : Comp.fns ∈ ks) (h3 : Comp.outst ∈ ks) (h4 : Comp.ext ∈ ks) (h5 : Comp.geo ∈ ks) (h6 : Comp.scratch ∈ ks) (h7 : Comp.out ∈ ks) (h8 : Comp.free ∈ ks) (h9 : Comp.stores ∈ ks) :
    ChangesOnly ks r (finishCopy e n host fail s) ↔ ChangesOnly ks r s := by
  simp only [finishCopy]; (repeat' split) <;> simp [↓copyStops_only, ↓writeElements_only, ↓copyDone_only, ↓ite_only, ite_self, h0, h1, h2, h3, h4, h5, h6, h7, h8, h9]

theorem endJobsOn_only {ks : List Comp} {r : State} (s : State) (e : EngNo) (unit : W16)
    (h0 : Comp.waits ∈ ks) (h1 : Comp.copies ∈ ks) (h2 : Comp.fns ∈ ks) (h3 : Comp.outst ∈ ks) (h4 : Comp.ext ∈ ks) (h5 : Comp.geo ∈ ks) (h6 : Comp.scratch ∈ ks) (h7 : Comp.out ∈ ks) (h8 : Comp.free ∈ ks) (h9 : Comp.stores ∈ ks) :
    ChangesOnly ks r (State.endJobsOn s e unit).1 ↔ ChangesOnly ks r s := by
  unfold State.endJobsOn; simp [↓cutJob_only, ↓forEach_only, ↓ite_only, ite_self, h0, h1, h2, h3, h4, h5, h6, h7, h8, h9]

theorem execCopyJobStart_only {ks : List Comp} {r t : State} {engine : EngNo} {stratum : FnNo} {s : State}
    (e : execCopyJobStart engine stratum s = .next t) (h0 : Comp.copies ∈ ks) (h1 : Comp.stores ∈ ks) :
    ChangesOnly ks r t ↔ ChangesOnly ks r s := by
  injection e with e; subst e; simp only [↓startCopyJob_only, ↓ite_only, ite_self, h0, h1]

theorem execCopy_only {ks : List Comp} {r t : State} {fn : FnNo} {qp : QpNo} {pkt : Packet} {s : State}
    (e : execCopy fn qp pkt s = .next t) (h0 : Comp.nextId ∈ ks) (h1 : Comp.copies ∈ ks) (h2 : Comp.fns ∈ ks) (h3 : Comp.outst ∈ ks) (h4 : Comp.out ∈ ks) :
    ChangesOnly ks r t ↔ ChangesOnly ks r s := by
  injection e with e; subst e
  repeat' (first | with_reducible rfl | assumption | intro _ | (simp only [↓longCommand_only, ↓acceptCopy_only, ↓ite_only, ite_self, h0, h1, h2, h3, h4]) | rw [foldl_fst_only] | rw [foldl_only] | rw [longCommand_only] | split | dsimp only)

theorem execCopyFill_only {ks : List Comp} {r t : State} {fn : FnNo} {qp : QpNo} {pkt : Packet} {s : State}
    (e : execCopyFill fn qp pkt s = .next t) (h0 : Comp.nextId ∈ ks) (h1 : Comp.copies ∈ ks) (h2 : Comp.fns ∈ ks) (h3 : Comp.outst ∈ ks) (h4 : Comp.out ∈ ks) :
    ChangesOnly ks r t ↔ ChangesOnly ks r s := by
  injection e with e; subst e
  repeat' (first | with_reducible rfl | assumption | intro _ | (simp only [↓longCommand_only, ↓acceptCopy_only, ↓ite_only, ite_self, h0, h1, h2, h3, h4]) | rw [foldl_fst_only] | rw [foldl_only] | rw [longCommand_only] | split | dsimp only)

theorem execCopyChecksum_only {ks : List Comp} {r t : State} {fn : FnNo} {qp : QpNo} {pkt : Packet} {s : State}
    (e : execCopyChecksum fn qp pkt s = .next t) (h0 : Comp.nextId ∈ ks) (h1 : Comp.copies ∈ ks) (h2 : Comp.fns ∈ ks) (h3 : Comp.outst ∈ ks) (h4 : Comp.out ∈ ks) :
    ChangesOnly ks r t ↔ ChangesOnly ks r s := by
  injection e with e; subst e
  repeat' (first | with_reducible rfl | assumption | intro _ | (simp only [↓longCommand_only, ↓acceptCopy_only, ↓ite_only, ite_self, h0, h1, h2, h3, h4]) | rw [foldl_fst_only] | rw [foldl_only] | rw [longCommand_only] | split | dsimp only)

/-! ### Narrow -/

theorem sendFirst_only {ks : List Comp} {r : State} (s : State) (x : Chan) (i : QItem)
    (h0 : Comp.chans ∈ ks) (h1 : Comp.ports ∈ ks) (h2 : Comp.geo ∈ ks) (h3 : Comp.out ∈ ks) :
    ChangesOnly ks r (State.sendFirst s x i) ↔ ChangesOnly ks r s := by
  unfold State.sendFirst; simp only [↓modChan_only, ↓sendMark_only, ↓releaseFrame_only, ↓sendFrame_only, ↓ite_only, ite_self, h0, h1, h2, h3]

theorem pumpChan_only {ks : List Comp} {r : State} (c : Nat) (a1 : Nat) (s : State)
    (h0 : Comp.chans ∈ ks) (h1 : Comp.ports ∈ ks) (h2 : Comp.geo ∈ ks) (h3 : Comp.out ∈ ks) :
    ChangesOnly ks r (State.pumpChan c a1 s) ↔ ChangesOnly ks r s := by
  induction a1 generalizing s with
  | zero => simp only [State.pumpChan]
  | succ _ ih =>
    rw [State.pumpChan]
    (try dsimp only)
    (repeat' split) <;> simp only [↓ih, ↓sendFirst_only, ↓ite_only, ite_self, h0, h1, h2, h3]

theorem pumpChans_only {ks : List Comp} {r : State} (s : State) (p : Option PortNo)
    (h0 : Comp.waits ∈ ks) (h1 : Comp.fns ∈ ks) (h2 : Comp.chans ∈ ks) (h3 : Comp.ports ∈ ks) (h4 : Comp.geo ∈ ks) (h5 : Comp.out ∈ ks) (h6 : Comp.telem ∈ ks) :
    ChangesOnly ks r (State.pumpChans s p) ↔ ChangesOnly ks r s := by
  unfold State.pumpChans
  repeat' (first | with_reducible rfl | (simp only [↓settlePool_only, ↓pumpChan_only, ↓forEach_only, ↓ite_only, ite_self, h0, h1, h2, h3, h4, h5, h6]) | with_reducible (refine (forEach_only (fun _ _ => ?_) _ _).trans ?_) | split | dsimp only)

theorem sendMessage_only {ks : List Comp} {r : State} (s : State) (c : Nat) (kind : BitVec 8) (msgSeq : W32) (bytes : List Byte) (first : Bool)
    (h0 : Comp.chans ∈ ks) (h1 : Comp.ports ∈ ks) (h2 : Comp.geo ∈ ks) (h3 : Comp.out ∈ ks) :
    ChangesOnly ks r (State.sendMessage s c kind msgSeq bytes first) ↔ ChangesOnly ks r s := by
  unfold State.sendMessage
  repeat' (first | with_reducible rfl | (simp only [↓modChan_only, ↓pumpChan_only, ↓ite_only, ite_self, h0, h1, h2, h3]) | with_reducible (refine (forEach_only (fun _ _ => ?_) _ _).trans ?_) | split | dsimp only)

theorem sendAnswer_only {ks : List Comp} {r : State} (s : State) (c : Nat) (kind : Nat) (msgSeq : W32)
    (h0 : Comp.chans ∈ ks) (h1 : Comp.ports ∈ ks) (h2 : Comp.geo ∈ ks) (h3 : Comp.out ∈ ks) :
    ChangesOnly ks r (State.sendAnswer s c kind msgSeq) ↔ ChangesOnly ks r s := by
  unfold State.sendAnswer
  repeat' (first | with_reducible rfl | (simp only [↓sendMessage_only, ↓ite_only, ite_self, h0, h1, h2, h3]) | with_reducible (refine (forEach_only (fun _ _ => ?_) _ _).trans ?_) | split | dsimp only)

theorem sendDropped_only {ks : List Comp} {r : State} (s : State) (x : Chan) (cause : Nat) (srcSeq : W64)
    (h0 : Comp.waits ∈ ks) (h1 : Comp.fns ∈ ks) (h2 : Comp.chans ∈ ks) (h3 : Comp.out ∈ ks) :
    ChangesOnly ks r (State.sendDropped s x cause srcSeq) ↔ ChangesOnly ks r s := by
  unfold State.sendDropped; simp only [↓occur_only, ↓modChan_only, ↓ite_only, ite_self, h0, h1, h2, h3]

theorem finishRun_only {ks : List Comp} {r : State} (s : State) (c : Nat) (q : Nat)
    (h0 : Comp.waits ∈ ks) (h1 : Comp.progs ∈ ks) (h2 : Comp.fns ∈ ks) (h3 : Comp.chans ∈ ks) (h4 : Comp.clusters ∈ ks) (h5 : Comp.lock ∈ ks) (h6 : Comp.ports ∈ ks) (h7 : Comp.outst ∈ ks) (h8 : Comp.deliveries ∈ ks) (h9 : Comp.geo ∈ ks) (h10 : Comp.runs ∈ ks) (h11 : Comp.frames ∈ ks) (h12 : Comp.out ∈ ks) (h13 : Comp.telem ∈ ks) (h14 : Comp.loaded ∈ ks) :
    ChangesOnly ks r (State.finishRun s c q) ↔ ChangesOnly ks r s := by
  unfold State.finishRun; (repeat' split) <;> simp [↓finishFrame_only, ↓ite_only, ite_self, h0, h1, h2, h3, h4, h5, h6, h7, h8, h9, h10, h11, h12, h13, h14]

theorem takeCopy_only {ks : List Comp} {r : State} (s : State) (x : Chan) (n : Nat) (msgSeq : Nat)
    (h0 : Comp.geo ∈ ks) :
    ChangesOnly ks r (State.takeCopy s x n msgSeq) ↔ ChangesOnly ks r s := by
  unfold State.takeCopy; simp only [↓modBufs_only, ↓ite_only, ite_self, h0]

theorem dropOffer_only {ks : List Comp} {r : State} (s : State) (c : Nat) (f : Offer)
    (h0 : Comp.chans ∈ ks) :
    ChangesOnly ks r (State.dropOffer s c f) ↔ ChangesOnly ks r s := by
  unfold State.dropOffer; simp only [↓modChan_only, ↓ite_only, ite_self, h0]

theorem startSend_only {ks : List Comp} {r : State} (s : State) (c : Nat)
    (h0 : Comp.waits ∈ ks) (h1 : Comp.progs ∈ ks) (h2 : Comp.fns ∈ ks) (h3 : Comp.chans ∈ ks) (h4 : Comp.clusters ∈ ks) (h5 : Comp.lock ∈ ks) (h6 : Comp.ports ∈ ks) (h7 : Comp.outst ∈ ks) (h8 : Comp.deliveries ∈ ks) (h9 : Comp.geo ∈ ks) (h10 : Comp.scratch ∈ ks) (h11 : Comp.runs ∈ ks) (h12 : Comp.frames ∈ ks) (h13 : Comp.out ∈ ks) (h14 : Comp.telem ∈ ks) (h15 : Comp.loaded ∈ ks) :
    ChangesOnly ks r (State.startSend s c) ↔ ChangesOnly ks r s := by
  unfold State.startSend
  repeat' (first | with_reducible rfl | (simp only [↓dropOffer_only, ↓finishRun_only, ↓modChan_only, ↓takeCopy_only, ↓sendMessage_only, ↓upd_scratch_only, ↓ite_only, ite_self, h0, h1, h2, h3, h4, h5, h6, h7, h8, h9, h10, h11, h12, h13, h14, h15]) | with_reducible (refine (forEach_only (fun _ _ => ?_) _ _).trans ?_) | split | dsimp only)

theorem offerTensor_only {ks : List Comp} {r : State} (s : State) (rr : Run) (input : Nat) (window : Nat)
    (h0 : Comp.waits ∈ ks) (h1 : Comp.progs ∈ ks) (h2 : Comp.fns ∈ ks) (h3 : Comp.chans ∈ ks) (h4 : Comp.clusters ∈ ks) (h5 : Comp.lock ∈ ks) (h6 : Comp.ports ∈ ks) (h7 : Comp.outst ∈ ks) (h8 : Comp.deliveries ∈ ks) (h9 : Comp.geo ∈ ks) (h10 : Comp.scratch ∈ ks) (h11 : Comp.runs ∈ ks) (h12 : Comp.frames ∈ ks) (h13 : Comp.out ∈ ks) (h14 : Comp.telem ∈ ks) (h15 : Comp.loaded ∈ ks) :
    ChangesOnly ks r (State.offerTensor s rr input window) ↔ ChangesOnly ks r s := by
  unfold State.offerTensor
  repeat' (first | with_reducible rfl | (simp only [↓finishRun_only, ↓sendDropped_only, ↓modChan_only, ↓startSend_only, ↓upd_scratch_only, ↓ite_only, ite_self, h0, h1, h2, h3, h4, h5, h6, h7, h8, h9, h10, h11, h12, h13, h14, h15]) | with_reducible (refine (forEach_only (fun _ _ => ?_) _ _).trans ?_) | split | dsimp only)

theorem dropPortMessages_only {ks : List Comp} {r : State} (s : State) (p : PortNo)
    (h0 : Comp.waits ∈ ks) (h1 : Comp.progs ∈ ks) (h2 : Comp.fns ∈ ks) (h3 : Comp.chans ∈ ks) (h4 : Comp.clusters ∈ ks) (h5 : Comp.lock ∈ ks) (h6 : Comp.ports ∈ ks) (h7 : Comp.outst ∈ ks) (h8 : Comp.deliveries ∈ ks) (h9 : Comp.geo ∈ ks) (h10 : Comp.runs ∈ ks) (h11 : Comp.frames ∈ ks) (h12 : Comp.out ∈ ks) (h13 : Comp.telem ∈ ks) (h14 : Comp.loaded ∈ ks) :
    ChangesOnly ks r (State.dropPortMessages s p) ↔ ChangesOnly ks r s := by
  unfold State.dropPortMessages; (repeat' split) <;> (try (refine (forEach_only (fun _ _ => ?_) _ _).trans ?_)) <;> (try dsimp only) <;> (repeat' split) <;> simp [↓releaseFrame_only, ↓modChan_only, ↓finishRun_only, ↓sendDropped_only, ↓abortAll_only, ↓forEach_only, ↓ite_only, ite_self, h0, h1, h2, h3, h4, h5, h6, h7, h8, h9, h10, h11, h12, h13, h14]

theorem releaseCopy_only {ks : List Comp} {r : State} (s : State) (c : Nat) (m : W32)
    (h0 : Comp.waits ∈ ks) (h1 : Comp.fns ∈ ks) (h2 : Comp.chans ∈ ks) (h3 : Comp.geo ∈ ks) (h4 : Comp.out ∈ ks) (h5 : Comp.telem ∈ ks) :
    ChangesOnly ks r (State.releaseCopy s c m) ↔ ChangesOnly ks r s := by
  unfold State.releaseCopy; simp only [↓settlePool_only, ↓modChan_only, ↓releaseFrame_only, ↓ite_only, ite_self, h0, h1, h2, h3, h4, h5]

theorem copyTimeout_only {ks : List Comp} {r : State} (c : Nat) (m : W32) (s : State)
    (h0 : Comp.waits ∈ ks) (h1 : Comp.fns ∈ ks) (h2 : Comp.chans ∈ ks) (h3 : Comp.tick ∈ ks) (h4 : Comp.geo ∈ ks) (h5 : Comp.out ∈ ks) (h6 : Comp.telem ∈ ks) :
    ChangesOnly ks r (copyTimeout c m s) ↔ ChangesOnly ks r s := by
  unfold copyTimeout; (repeat' split) <;> simp [↓releaseCopy_only, ↓reach_only, ↓ite_only, ite_self, h0, h1, h2, h3, h4, h5, h6]

theorem takeAnswer_only {ks : List Comp} {r : State} {s t : State} {c : Nat} {kind : BitVec 8} {x : Chan} {a : Answer}
    (h : s.takeAnswer c kind = some (x, a, t)) (h0 : Comp.chans ∈ ks) : ChangesOnly ks r t ↔ ChangesOnly ks r s := by
  unfold State.takeAnswer at h
  split at h
  · cases h
  · split at h
    · cases h
    · cases h; simp only [↓modChan_only, h0]

theorem onAnswer_only {ks : List Comp} {r : State} (c : Nat) (kind : BitVec 8) {f : Chan → Answer → State → State}
    (s : State) (h0 : Comp.waits ∈ ks) (h1 : Comp.fns ∈ ks) (h2 : Comp.chans ∈ ks) (h3 : Comp.geo ∈ ks) (h4 : Comp.out ∈ ks) (h5 : Comp.telem ∈ ks) (hf : ∀ x a t, ChangesOnly ks r (f x a t) ↔ ChangesOnly ks r t) :
    ChangesOnly ks r (onAnswer c kind f s) ↔ ChangesOnly ks r s := by
  unfold onAnswer
  split
  · rfl
  · rename_i h
    simp only [↓settlePool_only, ↓hf, ↓releaseFrame_only, h0, h1, h2, h3, h4, h5]
    exact takeAnswer_only h (by assumption)

theorem wideReq_only {ks : List Comp} {r : State} (c : Nat) (x : Chan) (a : Answer) (s : State)
    (h0 : Comp.chans ∈ ks) (h1 : Comp.ports ∈ ks) (h2 : Comp.geo ∈ ks) (h3 : Comp.out ∈ ks) :
    ChangesOnly ks r (wideReq c x a s) ↔ ChangesOnly ks r s := by
  unfold wideReq
  repeat' (first | with_reducible rfl | (simp only [↓sendAnswer_only, ↓sendMessage_only, ↓modChan_only, ↓ite_only, ite_self, h0, h1, h2, h3]) | with_reducible (refine (forEach_only (fun _ _ => ?_) _ _).trans ?_) | split | dsimp only)

theorem wideMessage_only {ks : List Comp} {r : State} (c : Nat) (s : State) (h0 : Comp.waits ∈ ks) (h1 : Comp.progs ∈ ks) (h2 : Comp.fns ∈ ks) (h3 : Comp.chans ∈ ks) (h4 : Comp.clusters ∈ ks) (h5 : Comp.lock ∈ ks) (h6 : Comp.ports ∈ ks) (h7 : Comp.outst ∈ ks) (h8 : Comp.deliveries ∈ ks) (h9 : Comp.geo ∈ ks) (h10 : Comp.runs ∈ ks) (h11 : Comp.frames ∈ ks) (h12 : Comp.out ∈ ks) (h13 : Comp.telem ∈ ks) (h14 : Comp.loaded ∈ ks) :
    ChangesOnly ks r (wideMessage c s) ↔ ChangesOnly ks r s := by
  unfold wideMessage
  split
  · rfl
  · rename_i h
    have g := takeAnswer_only (ks := ks) (r := r) h (by assumption)
    split <;> simp only [↓settlePool_only, ↓countDrop_only, ↓releaseFrame_only, ↓makeReady_only, ↓modFrame_only, ↓modChan_only, ↓modBufs_only, h0, h1, h2, h3, h4, h5, h6, h7, h8, h9, h10, h11, h12, h13, h14] <;>
      exact g

theorem unavailable_only {ks : List Comp} {r : State} (c : Nat) (x : Chan) (a : Answer) (s : State)
    (h0 : Comp.waits ∈ ks) (h1 : Comp.progs ∈ ks) (h2 : Comp.fns ∈ ks) (h3 : Comp.chans ∈ ks) (h4 : Comp.clusters ∈ ks) (h5 : Comp.lock ∈ ks) (h6 : Comp.ports ∈ ks) (h7 : Comp.outst ∈ ks) (h8 : Comp.deliveries ∈ ks) (h9 : Comp.geo ∈ ks) (h10 : Comp.runs ∈ ks) (h11 : Comp.frames ∈ ks) (h12 : Comp.out ∈ ks) (h13 : Comp.telem ∈ ks) (h14 : Comp.loaded ∈ ks) :
    ChangesOnly ks r (unavailable c x a s) ↔ ChangesOnly ks r s := by
  unfold unavailable; (repeat' split) <;> simp [↓occur_only, ↓abortFrame_only, ↓ite_only, ite_self, h0, h1, h2, h3, h4, h5, h6, h7, h8, h9, h10, h11, h12, h13, h14]

theorem execSendStart_only {ks : List Comp} {r t : State} {channel : Nat} {s : State}
    (e : execSendStart channel s = .next t) (h0 : Comp.waits ∈ ks) (h1 : Comp.progs ∈ ks) (h2 : Comp.fns ∈ ks) (h3 : Comp.chans ∈ ks) (h4 : Comp.clusters ∈ ks) (h5 : Comp.lock ∈ ks) (h6 : Comp.ports ∈ ks) (h7 : Comp.outst ∈ ks) (h8 : Comp.deliveries ∈ ks) (h9 : Comp.geo ∈ ks) (h10 : Comp.scratch ∈ ks) (h11 : Comp.runs ∈ ks) (h12 : Comp.frames ∈ ks) (h13 : Comp.out ∈ ks) (h14 : Comp.telem ∈ ks) (h15 : Comp.loaded ∈ ks) :
    ChangesOnly ks r t ↔ ChangesOnly ks r s := by
  injection e with e; subst e; simp only [↓startSend_only, ↓ite_only, ite_self, h0, h1, h2, h3, h4, h5, h6, h7, h8, h9, h10, h11, h12, h13, h14, h15]

theorem execWideCopyTimeout_only {ks : List Comp} {r t : State} {channel : Nat} {msgSeq : W32} {s : State}
    (e : execWideCopyTimeout channel msgSeq s = .next t) (h0 : Comp.waits ∈ ks) (h1 : Comp.fns ∈ ks) (h2 : Comp.chans ∈ ks) (h3 : Comp.tick ∈ ks) (h4 : Comp.geo ∈ ks) (h5 : Comp.out ∈ ks) (h6 : Comp.telem ∈ ks) :
    ChangesOnly ks r t ↔ ChangesOnly ks r s := by
  injection e with e; subst e; simp only [↓copyTimeout_only, ↓ite_only, ite_self, h0, h1, h2, h3, h4, h5, h6]

theorem execAcceptAnswer_only {ks : List Comp} {r t : State} {channel : Nat} {s : State}
    (e : execAcceptAnswer channel s = .next t) (h0 : Comp.waits ∈ ks) (h1 : Comp.fns ∈ ks) (h2 : Comp.chans ∈ ks) (h3 : Comp.geo ∈ ks) (h4 : Comp.out ∈ ks) (h5 : Comp.telem ∈ ks) :
    ChangesOnly ks r t ↔ ChangesOnly ks r s := by
  injection e with e; subst e
  repeat' (first | with_reducible rfl | assumption | intro _ | (simp only [↓onAnswer_only, ↓releaseCopy_only, ↓ite_only, ite_self, h0, h1, h2, h3, h4, h5]) | rw [foldl_fst_only] | rw [foldl_only] | rw [onAnswer_only] | split | dsimp only)

theorem execWideReq_only {ks : List Comp} {r t : State} {channel : Nat} {s : State}
    (e : execWideReq channel s = .next t) (h0 : Comp.waits ∈ ks) (h1 : Comp.fns ∈ ks) (h2 : Comp.chans ∈ ks) (h3 : Comp.ports ∈ ks) (h4 : Comp.geo ∈ ks) (h5 : Comp.out ∈ ks) (h6 : Comp.telem ∈ ks) :
    ChangesOnly ks r t ↔ ChangesOnly ks r s := by
  injection e with e; subst e
  repeat' (first | with_reducible rfl | assumption | intro _ | (simp only [↓onAnswer_only, ↓wideReq_only, ↓ite_only, ite_self, h0, h1, h2, h3, h4, h5, h6]) | rw [foldl_fst_only] | rw [foldl_only] | rw [onAnswer_only] | split | dsimp only)

theorem execWideMessage_only {ks : List Comp} {r t : State} {channel : Nat} {s : State}
    (e : execWideMessage channel s = .next t) (h0 : Comp.waits ∈ ks) (h1 : Comp.progs ∈ ks) (h2 : Comp.fns ∈ ks) (h3 : Comp.chans ∈ ks) (h4 : Comp.clusters ∈ ks) (h5 : Comp.lock ∈ ks) (h6 : Comp.ports ∈ ks) (h7 : Comp.outst ∈ ks) (h8 : Comp.deliveries ∈ ks) (h9 : Comp.geo ∈ ks) (h10 : Comp.runs ∈ ks) (h11 : Comp.frames ∈ ks) (h12 : Comp.out ∈ ks) (h13 : Comp.telem ∈ ks) (h14 : Comp.loaded ∈ ks) :
    ChangesOnly ks r t ↔ ChangesOnly ks r s := by
  injection e with e; subst e; simp only [↓wideMessage_only, ↓ite_only, ite_self, h0, h1, h2, h3, h4, h5, h6, h7, h8, h9, h10, h11, h12, h13, h14]

theorem execUnavailable_only {ks : List Comp} {r t : State} {channel : Nat} {s : State}
    (e : execUnavailable channel s = .next t) (h0 : Comp.waits ∈ ks) (h1 : Comp.progs ∈ ks) (h2 : Comp.fns ∈ ks) (h3 : Comp.chans ∈ ks) (h4 : Comp.clusters ∈ ks) (h5 : Comp.lock ∈ ks) (h6 : Comp.ports ∈ ks) (h7 : Comp.outst ∈ ks) (h8 : Comp.deliveries ∈ ks) (h9 : Comp.geo ∈ ks) (h10 : Comp.runs ∈ ks) (h11 : Comp.frames ∈ ks) (h12 : Comp.out ∈ ks) (h13 : Comp.telem ∈ ks) (h14 : Comp.loaded ∈ ks) :
    ChangesOnly ks r t ↔ ChangesOnly ks r s := by
  injection e with e; subst e
  repeat' (first | with_reducible rfl | assumption | intro _ | (simp only [↓onAnswer_only, ↓unavailable_only, ↓ite_only, ite_self, h0, h1, h2, h3, h4, h5, h6, h7, h8, h9, h10, h11, h12, h13, h14]) | rw [foldl_fst_only] | rw [foldl_only] | rw [onAnswer_only] | split | dsimp only)

/-! ### Ports -/

theorem sendTs_only {ks : List Comp} {r : State} (s : State) (l : LaneNo) (stage : Nat) (reason : Nat) (count : Nat)
    (h0 : Comp.out ∈ ks) (h1 : Comp.lanes ∈ ks) :
    ChangesOnly ks r (State.sendTs s l stage reason count) ↔ ChangesOnly ks r s := by
  unfold State.sendTs; simp only [↓emit_only, ↓modLane_only, ↓ite_only, ite_self, h0, h1]

theorem showTs_only {ks : List Comp} {r : State} (s : State) (l : LaneNo)
    (h0 : Comp.out ∈ ks) (h1 : Comp.lanes ∈ ks) :
    ChangesOnly ks r (State.showTs s l) ↔ ChangesOnly ks r s := by
  unfold State.showTs; simp only [↓sendTs_only, ↓ite_only, ite_self, h0, h1]

theorem showAll_only {ks : List Comp} {r : State} (s : State) (ls : List LaneNo)
    (h0 : Comp.out ∈ ks) (h1 : Comp.lanes ∈ ks) :
    ChangesOnly ks r (State.showAll s ls) ↔ ChangesOnly ks r s := by
  unfold State.showAll; simp [↓showTs_only, ↓forEach_only, ↓ite_only, ite_self, h0, h1]

theorem fenceLane_only {ks : List Comp} {r : State} (s : State) (l : LaneNo) (cause : BitVec 8)
    (h0 : Comp.faults ∈ ks) (h1 : Comp.telem ∈ ks) (h2 : Comp.units ∈ ks) :
    ChangesOnly ks r (State.fenceLane s l cause).1 ↔ ChangesOnly ks r s := by
  unfold State.fenceLane; simp only [↓fault_only, ↓upd_units_only, ↓ite_only, ite_self, h0, h1, h2]

theorem fenceLanes_only {ks : List Comp} {r : State} (s : State) (ls : List LaneNo)
    (h0 : Comp.faults ∈ ks) (h1 : Comp.telem ∈ ks) (h2 : Comp.units ∈ ks) :
    ChangesOnly ks r (State.fenceLanes s ls) ↔ ChangesOnly ks r s := by
  unfold State.fenceLanes; simp [↓fenceLane_only, ↓forEach_only, ↓ite_only, ite_self, h0, h1, h2]

theorem portCommandEnds_only {ks : List Comp} {r : State} (s : State) (p : PortNo) (id : Nat) (status : W16) (a4 : W64)
    (h0 : Comp.waits ∈ ks) (h1 : Comp.fns ∈ ks) (h2 : Comp.outst ∈ ks) (h3 : Comp.out ∈ ks) :
    ChangesOnly ks r (State.portCommandEnds s p id status a4) ↔ ChangesOnly ks r s := by
  unfold State.portCommandEnds; simp only [↓complete_only, ↓ite_only, ite_self, h0, h1, h2, h3]

theorem syncLost_only {ks : List Comp} {r : State} (s : State) (p : PortNo) (cause : BitVec 8)
    (h0 : Comp.waits ∈ ks) (h1 : Comp.fns ∈ ks) (h2 : Comp.ports ∈ ks) (h3 : Comp.outst ∈ ks) (h4 : Comp.out ∈ ks) :
    ChangesOnly ks r (State.syncLost s p cause) ↔ ChangesOnly ks r s := by
  unfold State.syncLost; (repeat' split) <;> simp [↓modPort_only, ↓complete_only, ↓occurAll_only, ↓ite_only, ite_self, h0, h1, h2, h3, h4]

theorem endLaneFence_only {ks : List Comp} {r : State} (s : State) (id : Nat) (l : LaneNo)
    (h0 : Comp.waits ∈ ks) (h1 : Comp.fns ∈ ks) (h2 : Comp.ports ∈ ks) (h3 : Comp.outst ∈ ks) (h4 : Comp.faults ∈ ks) (h5 : Comp.out ∈ ks) (h6 : Comp.telem ∈ ks) (h7 : Comp.units ∈ ks) :
    ChangesOnly ks r (State.endLaneFence s id l) ↔ ChangesOnly ks r s := by
  unfold State.endLaneFence; simp only [↓completeOk_only, ↓fenceLane_only, ↓unitFailed_only, ↓modPort_only, ↓ite_only, ite_self, h0, h1, h2, h3, h4, h5, h6, h7]

theorem dropWidthChange_only {ks : List Comp} {r : State} (s : State) (p : PortNo)
    (h0 : Comp.waits ∈ ks) (h1 : Comp.fns ∈ ks) (h2 : Comp.ports ∈ ks) (h3 : Comp.outst ∈ ks) (h4 : Comp.faults ∈ ks) (h5 : Comp.out ∈ ks) (h6 : Comp.telem ∈ ks) (h7 : Comp.units ∈ ks) :
    ChangesOnly ks r (State.dropWidthChange s p) ↔ ChangesOnly ks r s := by
  simp only [State.dropWidthChange]; (repeat' split) <;> simp [↓modPort_only, ↓portCommandEnds_only, ↓endLaneFence_only, ↓ite_only, ite_self, h0, h1, h2, h3, h4, h5, h6, h7]

theorem leaveActive_only {ks : List Comp} {r : State} (s : State) (p : PortNo)
    (h0 : Comp.waits ∈ ks) (h1 : Comp.fns ∈ ks) (h2 : Comp.chans ∈ ks) (h3 : Comp.lock ∈ ks) (h4 : Comp.ports ∈ ks) (h5 : Comp.outst ∈ ks) (h6 : Comp.deliveries ∈ ks) (h7 : Comp.geo ∈ ks) (h8 : Comp.faults ∈ ks) (h9 : Comp.runs ∈ ks) (h10 : Comp.frames ∈ ks) (h11 : Comp.out ∈ ks) (h12 : Comp.telem ∈ ks) (h13 : Comp.units ∈ ks) (h14 : Comp.loaded ∈ ks) :
    ChangesOnly ks r (State.leaveActive s p) ↔ ChangesOnly ks r s := by
  simp only [State.leaveActive]; (repeat' split) <;> simp [↓syncLost_only, ↓dropWidthChange_only, ↓endPair_only, ↓modLock_only, ↓portCommandEnds_only, ↓ite_only, ite_self, h0, h1, h2, h3, h4, h5, h6, h7, h8, h9, h10, h11, h12, h13, h14]

theorem dropPortFrames_only {ks : List Comp} {r : State} (s : State) (p : PortNo)
    (h0 : Comp.chans ∈ ks) (h1 : Comp.geo ∈ ks) (h2 : Comp.frames ∈ ks) (h3 : Comp.telem ∈ ks) :
    ChangesOnly ks r (State.dropPortFrames s p) ↔ ChangesOnly ks r s := by
  unfold State.dropPortFrames; simp [↓modChan_only, ↓dropOpen_only, ↓forEach_only, ↓ite_only, ite_self, h0, h1, h2, h3]

theorem toDisabled_only {ks : List Comp} {r : State} (s : State) (p : PortNo) (reason : BitVec 8)
    (h0 : Comp.slots ∈ ks) (h1 : Comp.waits ∈ ks) (h2 : Comp.progs ∈ ks) (h3 : Comp.fns ∈ ks) (h4 : Comp.chans ∈ ks) (h5 : Comp.clusters ∈ ks) (h6 : Comp.lock ∈ ks) (h7 : Comp.ports ∈ ks) (h8 : Comp.outst ∈ ks) (h9 : Comp.deliveries ∈ ks) (h10 : Comp.geo ∈ ks) (h11 : Comp.faults ∈ ks) (h12 : Comp.runs ∈ ks) (h13 : Comp.frames ∈ ks) (h14 : Comp.out ∈ ks) (h15 : Comp.telem ∈ ks) (h16 : Comp.units ∈ ks) (h17 : Comp.loaded ∈ ks) (h18 : Comp.lanes ∈ ks) :
    ChangesOnly ks r (State.toDisabled s p reason) ↔ ChangesOnly ks r s := by
  simp only [State.toDisabled]; (repeat' split) <;> simp [↓leaveActive_only, ↓modPort_only, ↓dropPortFrames_only, ↓modLane_only, ↓notePort_only, ↓portLapseEnds_only, ↓dropPortMessages_only, ↓complete_only, ↓settlePool_only, ↓reclaimAll_only, ↓forEach_only, ↓ite_only, ite_self, h0, h1, h2, h3, h4, h5, h6, h7, h8, h9, h10, h11, h12, h13, h14, h15, h16, h17, h18]

theorem disableByHost_only {ks : List Comp} {r : State} (s : State) (p : PortNo)
    (h0 : Comp.slots ∈ ks) (h1 : Comp.waits ∈ ks) (h2 : Comp.progs ∈ ks) (h3 : Comp.fns ∈ ks) (h4 : Comp.chans ∈ ks) (h5 : Comp.clusters ∈ ks) (h6 : Comp.lock ∈ ks) (h7 : Comp.ports ∈ ks) (h8 : Comp.outst ∈ ks) (h9 : Comp.deliveries ∈ ks) (h10 : Comp.geo ∈ ks) (h11 : Comp.faults ∈ ks) (h12 : Comp.runs ∈ ks) (h13 : Comp.frames ∈ ks) (h14 : Comp.out ∈ ks) (h15 : Comp.telem ∈ ks) (h16 : Comp.units ∈ ks) (h17 : Comp.loaded ∈ ks) (h18 : Comp.lanes ∈ ks) :
    ChangesOnly ks r (State.disableByHost s p) ↔ ChangesOnly ks r s := by
  unfold State.disableByHost; simp [↓toDisabled_only, ↓sendTs_only, ↓forEach_only, ↓ite_only, ite_self, h0, h1, h2, h3, h4, h5, h6, h7, h8, h9, h10, h11, h12, h13, h14, h15, h16, h17, h18]

theorem replicate_only {ks : List Comp} {r : State} (s : State) (p : PortNo) (w : W64) (count : Nat)
    (h0 : Comp.out ∈ ks) :
    ChangesOnly ks r (State.replicate s p w count) ↔ ChangesOnly ks r s := by
  unfold State.replicate; simp [↓emit_only, ↓forEach_only, ↓ite_only, ite_self, h0]

theorem beginExchange_only {ks : List Comp} {r : State} (s : State) (p : PortNo)
    (h0 : Comp.ports ∈ ks) (h1 : Comp.out ∈ ks) :
    ChangesOnly ks r (State.beginExchange s p) ↔ ChangesOnly ks r s := by
  unfold State.beginExchange; simp [↓modPort_only, ↓replicate_only, ↓forEach_only, ↓ite_only, ite_self, h0, h1]

theorem freshLink_only {ks : List Comp} {r : State} (s : State) (p : PortNo)
    (h0 : Comp.chans ∈ ks) (h1 : Comp.ports ∈ ks) :
    ChangesOnly ks r (State.freshLink s p) ↔ ChangesOnly ks r s := by
  unfold State.freshLink; simp [↓modPort_only, ↓modChan_only, ↓forEach_only, ↓ite_only, ite_self, h0, h1]

theorem creditLock_only {ks : List Comp} {r : State} (s : State) (p : PortNo)
    (h0 : Comp.ports ∈ ks) (h1 : Comp.out ∈ ks) :
    ChangesOnly ks r (State.creditLock s p) ↔ ChangesOnly ks r s := by
  unfold State.creditLock; simp only [↓emit_only, ↓modPort_only, ↓ite_only, ite_self, h0, h1]

theorem frontEndSync_only {ks : List Comp} {r : State} (s : State) (p : PortNo)
    (h0 : Comp.ports ∈ ks) :
    ChangesOnly ks r (State.frontEndSync s p) ↔ ChangesOnly ks r s := by
  unfold State.frontEndSync; simp only [↓modPort_only, ↓ite_only, ite_self, h0]

theorem enterActive_only {ks : List Comp} {r : State} (s : State) (p : PortNo)
    (h0 : Comp.slots ∈ ks) (h1 : Comp.waits ∈ ks) (h2 : Comp.fns ∈ ks) (h3 : Comp.chans ∈ ks) (h4 : Comp.lock ∈ ks) (h5 : Comp.ports ∈ ks) (h6 : Comp.outst ∈ ks) (h7 : Comp.deliveries ∈ ks) (h8 : Comp.geo ∈ ks) (h9 : Comp.runs ∈ ks) (h10 : Comp.frames ∈ ks) (h11 : Comp.out ∈ ks) (h12 : Comp.telem ∈ ks) (h13 : Comp.loaded ∈ ks) :
    ChangesOnly ks r (State.enterActive s p) ↔ ChangesOnly ks r s := by
  unfold State.enterActive
  repeat' (first | with_reducible rfl | (simp only [↓modPort_only, ↓portLapseEnds_only, ↓frontEndSync_only, ↓creditLock_only, ↓freshLink_only, ↓notePort_only, ↓complete_only, ↓replayFrom_only, ↓pumpLock_only, ↓pumpChans_only, ↓ite_only, ite_self, h0, h1, h2, h3, h4, h5, h6, h7, h8, h9, h10, h11, h12, h13]) | with_reducible (refine (forEach_only (fun _ _ => ?_) _ _).trans ?_) | split | dsimp only)

theorem endExchange_only {ks : List Comp} {r : State} (s : State) (p : PortNo)
    (h0 : Comp.slots ∈ ks) (h1 : Comp.waits ∈ ks) (h2 : Comp.fns ∈ ks) (h3 : Comp.chans ∈ ks) (h4 : Comp.lock ∈ ks) (h5 : Comp.ports ∈ ks) (h6 : Comp.outst ∈ ks) (h7 : Comp.deliveries ∈ ks) (h8 : Comp.geo ∈ ks) (h9 : Comp.runs ∈ ks) (h10 : Comp.frames ∈ ks) (h11 : Comp.out ∈ ks) (h12 : Comp.telem ∈ ks) (h13 : Comp.loaded ∈ ks) :
    ChangesOnly ks r (State.endExchange s p) ↔ ChangesOnly ks r s := by
  unfold State.endExchange
  repeat' (first | with_reducible rfl | (simp only [↓enterActive_only, ↓ite_only, ite_self, h0, h1, h2, h3, h4, h5, h6, h7, h8, h9, h10, h11, h12, h13]) | with_reducible (refine (forEach_only (fun _ _ => ?_) _ _).trans ?_) | split | dsimp only)

theorem judgeRecord_only {ks : List Comp} {r : State} (s : State) (p : PortNo) (rr : List Byte)
    (h0 : Comp.slots ∈ ks) (h1 : Comp.waits ∈ ks) (h2 : Comp.progs ∈ ks) (h3 : Comp.fns ∈ ks) (h4 : Comp.chans ∈ ks) (h5 : Comp.clusters ∈ ks) (h6 : Comp.lock ∈ ks) (h7 : Comp.ports ∈ ks) (h8 : Comp.outst ∈ ks) (h9 : Comp.deliveries ∈ ks) (h10 : Comp.geo ∈ ks) (h11 : Comp.faults ∈ ks) (h12 : Comp.runs ∈ ks) (h13 : Comp.frames ∈ ks) (h14 : Comp.out ∈ ks) (h15 : Comp.telem ∈ ks) (h16 : Comp.units ∈ ks) (h17 : Comp.loaded ∈ ks) (h18 : Comp.lanes ∈ ks) :
    ChangesOnly ks r (State.judgeRecord s p rr) ↔ ChangesOnly ks r s := by
  unfold State.judgeRecord
  repeat' (first | with_reducible rfl | (simp only [↓replicate_only, ↓modPort_only, ↓endExchange_only, ↓toDisabled_only, ↓ite_only, ite_self, h0, h1, h2, h3, h4, h5, h6, h7, h8, h9, h10, h11, h12, h13, h14, h15, h16, h17, h18]) | with_reducible (refine (forEach_only (fun _ _ => ?_) _ _).trans ?_) | split | dsimp only)

theorem startTimer_only {ks : List Comp} {r : State} (s : State) (p : PortNo) (ms : Nat)
    (h0 : Comp.ports ∈ ks) :
    ChangesOnly ks r (State.startTimer s p ms) ↔ ChangesOnly ks r s := by
  unfold State.startTimer; simp only [↓modPort_only, ↓ite_only, ite_self, h0]

theorem enterEqualize_only {ks : List Comp} {r : State} (s : State) (p : PortNo)
    (h0 : Comp.waits ∈ ks) (h1 : Comp.fns ∈ ks) (h2 : Comp.ports ∈ ks) (h3 : Comp.out ∈ ks) (h4 : Comp.lanes ∈ ks) :
    ChangesOnly ks r (State.enterEqualize s p) ↔ ChangesOnly ks r s := by
  unfold State.enterEqualize; simp [↓startTimer_only, ↓modPort_only, ↓modLane_only, ↓notePort_only, ↓showAll_only, ↓forEach_only, ↓ite_only, ite_self, h0, h1, h2, h3, h4]

theorem checkDetect_only {ks : List Comp} {r : State} (s : State) (p : PortNo)
    (h0 : Comp.waits ∈ ks) (h1 : Comp.fns ∈ ks) (h2 : Comp.ports ∈ ks) (h3 : Comp.out ∈ ks) (h4 : Comp.lanes ∈ ks) :
    ChangesOnly ks r (State.checkDetect s p) ↔ ChangesOnly ks r s := by
  unfold State.checkDetect; (repeat' split) <;> simp [↓enterEqualize_only, ↓modPort_only, ↓ite_only, ite_self, h0, h1, h2, h3, h4]

theorem enterAlign_only {ks : List Comp} {r : State} (s : State) (p : PortNo)
    (h0 : Comp.waits ∈ ks) (h1 : Comp.fns ∈ ks) (h2 : Comp.ports ∈ ks) (h3 : Comp.faults ∈ ks) (h4 : Comp.out ∈ ks) (h5 : Comp.telem ∈ ks) (h6 : Comp.units ∈ ks) (h7 : Comp.lanes ∈ ks) :
    ChangesOnly ks r (State.enterAlign s p) ↔ ChangesOnly ks r s := by
  unfold State.enterAlign; simp [↓fenceLanes_only, ↓startTimer_only, ↓modPort_only, ↓notePort_only, ↓modLane_only, ↓forEach_only, ↓ite_only, ite_self, h0, h1, h2, h3, h4, h5, h6, h7]

theorem checkEqualize_only {ks : List Comp} {r : State} (s : State) (p : PortNo)
    (h0 : Comp.waits ∈ ks) (h1 : Comp.fns ∈ ks) (h2 : Comp.ports ∈ ks) (h3 : Comp.faults ∈ ks) (h4 : Comp.out ∈ ks) (h5 : Comp.telem ∈ ks) (h6 : Comp.units ∈ ks) (h7 : Comp.lanes ∈ ks) :
    ChangesOnly ks r (State.checkEqualize s p) ↔ ChangesOnly ks r s := by
  unfold State.checkEqualize; simp only [↓enterAlign_only, ↓ite_only, ite_self, h0, h1, h2, h3, h4, h5, h6, h7]

theorem enterNegotiate_only {ks : List Comp} {r : State} (s : State) (p : PortNo) (set : BitVec 4)
    (h0 : Comp.waits ∈ ks) (h1 : Comp.fns ∈ ks) (h2 : Comp.ports ∈ ks) (h3 : Comp.faults ∈ ks) (h4 : Comp.out ∈ ks) (h5 : Comp.telem ∈ ks) (h6 : Comp.units ∈ ks) :
    ChangesOnly ks r (State.enterNegotiate s p set) ↔ ChangesOnly ks r s := by
  unfold State.enterNegotiate; simp only [↓fenceLanes_only, ↓startTimer_only, ↓modPort_only, ↓beginExchange_only, ↓notePort_only, ↓ite_only, ite_self, h0, h1, h2, h3, h4, h5, h6]

theorem retrainAligned_only {ks : List Comp} {r : State} (s : State) (p : PortNo) (set : BitVec 4)
    (h0 : Comp.ports ∈ ks) (h1 : Comp.out ∈ ks) :
    ChangesOnly ks r (State.retrainAligned s p set) ↔ ChangesOnly ks r s := by
  unfold State.retrainAligned; simp only [↓beginExchange_only, ↓modPort_only, ↓ite_only, ite_self, h0, h1]

theorem chooseSet_only {ks : List Comp} {r : State} (s : State) (p : PortNo) (seq : W16)
    (h0 : Comp.lanes ∈ ks) :
    ChangesOnly ks r (State.chooseSet s p seq) ↔ ChangesOnly ks r s := by
  unfold State.chooseSet; simp [↓modLane_only, ↓forEach_only, ↓ite_only, ite_self, h0]

theorem checkAlign_only {ks : List Comp} {r : State} (s : State) (p : PortNo)
    (h0 : Comp.waits ∈ ks) (h1 : Comp.fns ∈ ks) (h2 : Comp.ports ∈ ks) (h3 : Comp.faults ∈ ks) (h4 : Comp.out ∈ ks) (h5 : Comp.telem ∈ ks) (h6 : Comp.units ∈ ks) :
    ChangesOnly ks r (State.checkAlign s p) ↔ ChangesOnly ks r s := by
  unfold State.checkAlign; simp only [↓enterNegotiate_only, ↓retrainAligned_only, ↓ite_only, ite_self, h0, h1, h2, h3, h4, h5, h6]

theorem enterRetrain_only {ks : List Comp} {r : State} (s : State) (p : PortNo)
    (h0 : Comp.slots ∈ ks) (h1 : Comp.waits ∈ ks) (h2 : Comp.fns ∈ ks) (h3 : Comp.chans ∈ ks) (h4 : Comp.lock ∈ ks) (h5 : Comp.ports ∈ ks) (h6 : Comp.outst ∈ ks) (h7 : Comp.deliveries ∈ ks) (h8 : Comp.geo ∈ ks) (h9 : Comp.faults ∈ ks) (h10 : Comp.runs ∈ ks) (h11 : Comp.frames ∈ ks) (h12 : Comp.out ∈ ks) (h13 : Comp.telem ∈ ks) (h14 : Comp.units ∈ ks) (h15 : Comp.loaded ∈ ks) (h16 : Comp.lanes ∈ ks) :
    ChangesOnly ks r (State.enterRetrain s p) ↔ ChangesOnly ks r s := by
  unfold State.enterRetrain; simp [↓leaveActive_only, ↓startTimer_only, ↓modPort_only, ↓modLane_only, ↓portLapse_only, ↓notePort_only, ↓showAll_only, ↓forEach_only, ↓ite_only, ite_self, h0, h1, h2, h3, h4, h5, h6, h7, h8, h9, h10, h11, h12, h13, h14, h15, h16]

theorem checkRetrain_only {ks : List Comp} {r : State} (s : State) (p : PortNo)
    (h0 : Comp.ports ∈ ks) (h1 : Comp.lanes ∈ ks) :
    ChangesOnly ks r (State.checkRetrain s p) ↔ ChangesOnly ks r s := by
  unfold State.checkRetrain; simp [↓modPort_only, ↓modLane_only, ↓forEach_only, ↓ite_only, ite_self, h0, h1]

theorem sendReq_only {ks : List Comp} {r : State} (s : State) (p : PortNo) (w : WidthChange)
    (h0 : Comp.ports ∈ ks) (h1 : Comp.out ∈ ks) :
    ChangesOnly ks r (State.sendReq s p w) ↔ ChangesOnly ks r s := by
  unfold State.sendReq; simp only [↓replicate_only, ↓modPort_only, ↓ite_only, ite_self, h0, h1]

theorem beginChange_only {ks : List Comp} {r : State} (s : State) (p : PortNo) (cause : WcCause) (mask : BitVec 4) (width : Nat)
    (h0 : Comp.slots ∈ ks) (h1 : Comp.waits ∈ ks) (h2 : Comp.fns ∈ ks) (h3 : Comp.ports ∈ ks) (h4 : Comp.out ∈ ks) :
    ChangesOnly ks r (State.beginChange s p cause mask width) ↔ ChangesOnly ks r s := by
  unfold State.beginChange; simp only [↓portLapse_only, ↓sendReq_only, ↓ite_only, ite_self, h0, h1, h2, h3, h4]

theorem beginSetWidth_only {ks : List Comp} {r : State} (s : State) (p : PortNo) (id : Nat) (width : Nat)
    (h0 : Comp.slots ∈ ks) (h1 : Comp.waits ∈ ks) (h2 : Comp.fns ∈ ks) (h3 : Comp.ports ∈ ks) (h4 : Comp.outst ∈ ks) (h5 : Comp.out ∈ ks) :
    ChangesOnly ks r (State.beginSetWidth s p id width) ↔ ChangesOnly ks r s := by
  unfold State.beginSetWidth; simp only [↓portCommandEnds_only, ↓completeOk_only, ↓beginChange_only, ↓ite_only, ite_self, h0, h1, h2, h3, h4, h5]

theorem nextWidth_only {ks : List Comp} {r : State} (s : State) (p : PortNo)
    (h0 : Comp.slots ∈ ks) (h1 : Comp.waits ∈ ks) (h2 : Comp.fns ∈ ks) (h3 : Comp.ports ∈ ks) (h4 : Comp.outst ∈ ks) (h5 : Comp.out ∈ ks) :
    ChangesOnly ks r (State.nextWidth s p) ↔ ChangesOnly ks r s := by
  simp only [State.nextWidth]; (repeat' split) <;> simp [↓beginSetWidth_only, ↓modPort_only, ↓sendReq_only, ↓ite_only, ite_self, h0, h1, h2, h3, h4, h5]

theorem switchLanes_only {ks : List Comp} {r : State} (s : State) (p : PortNo) (mask : BitVec 4)
    (h0 : Comp.slots ∈ ks) (h1 : Comp.waits ∈ ks) (h2 : Comp.fns ∈ ks) (h3 : Comp.ports ∈ ks) (h4 : Comp.out ∈ ks) :
    ChangesOnly ks r (State.switchLanes s p mask) ↔ ChangesOnly ks r s := by
  unfold State.switchLanes; simp only [↓portLapseEnds_only, ↓notePort_only, ↓modPort_only, ↓ite_only, ite_self, h0, h1, h2, h3, h4]

theorem changeDone_only {ks : List Comp} {r : State} (s : State) (p : PortNo) (w : WidthChange)
    (h0 : Comp.slots ∈ ks) (h1 : Comp.waits ∈ ks) (h2 : Comp.fns ∈ ks) (h3 : Comp.ports ∈ ks) (h4 : Comp.outst ∈ ks) (h5 : Comp.faults ∈ ks) (h6 : Comp.out ∈ ks) (h7 : Comp.telem ∈ ks) (h8 : Comp.units ∈ ks) :
    ChangesOnly ks r (State.changeDone s p w) ↔ ChangesOnly ks r s := by
  unfold State.changeDone; (repeat' split) <;> simp [↓switchLanes_only, ↓modPort_only, ↓completeOk_only, ↓endLaneFence_only, ↓nextWidth_only, ↓ite_only, ite_self, h0, h1, h2, h3, h4, h5, h6, h7, h8]

theorem changeFailed_only {ks : List Comp} {r : State} (s : State) (p : PortNo) (w : WidthChange)
    (h0 : Comp.slots ∈ ks) (h1 : Comp.waits ∈ ks) (h2 : Comp.fns ∈ ks) (h3 : Comp.chans ∈ ks) (h4 : Comp.lock ∈ ks) (h5 : Comp.ports ∈ ks) (h6 : Comp.outst ∈ ks) (h7 : Comp.deliveries ∈ ks) (h8 : Comp.geo ∈ ks) (h9 : Comp.faults ∈ ks) (h10 : Comp.runs ∈ ks) (h11 : Comp.frames ∈ ks) (h12 : Comp.out ∈ ks) (h13 : Comp.telem ∈ ks) (h14 : Comp.units ∈ ks) (h15 : Comp.loaded ∈ ks) (h16 : Comp.lanes ∈ ks) :
    ChangesOnly ks r (State.changeFailed s p w) ↔ ChangesOnly ks r s := by
  unfold State.changeFailed; (repeat' split) <;> simp [↓nextWidth_only, ↓complete_only, ↓portLapseEnds_only, ↓modPort_only, ↓enterRetrain_only, ↓ite_only, ite_self, h0, h1, h2, h3, h4, h5, h6, h7, h8, h9, h10, h11, h12, h13, h14, h15, h16]

theorem narrow_only {ks : List Comp} {r : State} (s : State) (p : PortNo)
    (h0 : Comp.slots ∈ ks) (h1 : Comp.waits ∈ ks) (h2 : Comp.fns ∈ ks) (h3 : Comp.ports ∈ ks) (h4 : Comp.outst ∈ ks) (h5 : Comp.faults ∈ ks) (h6 : Comp.out ∈ ks) (h7 : Comp.telem ∈ ks) (h8 : Comp.units ∈ ks) :
    ChangesOnly ks r (State.narrow s p) ↔ ChangesOnly ks r s := by
  simp only [State.narrow]; (repeat' split) <;> simp [↓modPort_only, ↓endLaneFence_only, ↓beginChange_only, ↓ite_only, ite_self, h0, h1, h2, h3, h4, h5, h6, h7, h8]

theorem laneFailBy_only {ks : List Comp} {r : State} (s : State) (l : LaneNo) (cause : BitVec 8)
    (h0 : Comp.slots ∈ ks) (h1 : Comp.waits ∈ ks) (h2 : Comp.fns ∈ ks) (h3 : Comp.chans ∈ ks) (h4 : Comp.lock ∈ ks) (h5 : Comp.ports ∈ ks) (h6 : Comp.outst ∈ ks) (h7 : Comp.deliveries ∈ ks) (h8 : Comp.geo ∈ ks) (h9 : Comp.faults ∈ ks) (h10 : Comp.runs ∈ ks) (h11 : Comp.frames ∈ ks) (h12 : Comp.out ∈ ks) (h13 : Comp.telem ∈ ks) (h14 : Comp.units ∈ ks) (h15 : Comp.loaded ∈ ks) (h16 : Comp.lanes ∈ ks) :
    ChangesOnly ks r (State.laneFailBy s l cause) ↔ ChangesOnly ks r s := by
  unfold State.laneFailBy; simp only [↓fenceLane_only, ↓unitFailed_only, ↓modPort_only, ↓enterRetrain_only, ↓narrow_only, ↓ite_only, ite_self, h0, h1, h2, h3, h4, h5, h6, h7, h8, h9, h10, h11, h12, h13, h14, h15, h16]

theorem laneFail_only {ks : List Comp} {r : State} (s : State) (l : LaneNo)
    (h0 : Comp.slots ∈ ks) (h1 : Comp.waits ∈ ks) (h2 : Comp.fns ∈ ks) (h3 : Comp.chans ∈ ks) (h4 : Comp.lock ∈ ks) (h5 : Comp.ports ∈ ks) (h6 : Comp.outst ∈ ks) (h7 : Comp.deliveries ∈ ks) (h8 : Comp.geo ∈ ks) (h9 : Comp.faults ∈ ks) (h10 : Comp.runs ∈ ks) (h11 : Comp.frames ∈ ks) (h12 : Comp.out ∈ ks) (h13 : Comp.telem ∈ ks) (h14 : Comp.units ∈ ks) (h15 : Comp.loaded ∈ ks) (h16 : Comp.lanes ∈ ks) :
    ChangesOnly ks r (State.laneFail s l) ↔ ChangesOnly ks r s := by
  unfold State.laneFail; simp only [↓laneFailBy_only, ↓ite_only, ite_self, h0, h1, h2, h3, h4, h5, h6, h7, h8, h9, h10, h11, h12, h13, h14, h15, h16]

theorem blockError_only {ks : List Comp} {r : State} (s : State) (l : LaneNo)
    (h0 : Comp.slots ∈ ks) (h1 : Comp.waits ∈ ks) (h2 : Comp.fns ∈ ks) (h3 : Comp.chans ∈ ks) (h4 : Comp.lock ∈ ks) (h5 : Comp.ports ∈ ks) (h6 : Comp.outst ∈ ks) (h7 : Comp.deliveries ∈ ks) (h8 : Comp.geo ∈ ks) (h9 : Comp.faults ∈ ks) (h10 : Comp.runs ∈ ks) (h11 : Comp.frames ∈ ks) (h12 : Comp.out ∈ ks) (h13 : Comp.telem ∈ ks) (h14 : Comp.units ∈ ks) (h15 : Comp.loaded ∈ ks) (h16 : Comp.lanes ∈ ks) :
    ChangesOnly ks r (State.blockError s l) ↔ ChangesOnly ks r s := by
  unfold State.blockError; simp only [↓modLane_only, ↓laneFail_only, ↓ite_only, ite_self, h0, h1, h2, h3, h4, h5, h6, h7, h8, h9, h10, h11, h12, h13, h14, h15, h16]

theorem otherBlock_only {ks : List Comp} {r : State} (s : State) (l : LaneNo) (w : W64)
    (h0 : Comp.slots ∈ ks) (h1 : Comp.waits ∈ ks) (h2 : Comp.fns ∈ ks) (h3 : Comp.chans ∈ ks) (h4 : Comp.lock ∈ ks) (h5 : Comp.ports ∈ ks) (h6 : Comp.outst ∈ ks) (h7 : Comp.deliveries ∈ ks) (h8 : Comp.geo ∈ ks) (h9 : Comp.faults ∈ ks) (h10 : Comp.runs ∈ ks) (h11 : Comp.frames ∈ ks) (h12 : Comp.out ∈ ks) (h13 : Comp.telem ∈ ks) (h14 : Comp.units ∈ ks) (h15 : Comp.loaded ∈ ks) (h16 : Comp.lanes ∈ ks) :
    ChangesOnly ks r (State.otherBlock s l w) ↔ ChangesOnly ks r s := by
  unfold State.otherBlock; simp only [↓blockError_only, ↓ite_only, ite_self, h0, h1, h2, h3, h4, h5, h6, h7, h8, h9, h10, h11, h12, h13, h14, h15, h16]

theorem beginTrain_only {ks : List Comp} {r : State} (s : State) (p : PortNo) (role : BitVec 8) (maxWidth : Nat) (ms : Nat) (id : Nat)
    (h0 : Comp.slots ∈ ks) (h1 : Comp.waits ∈ ks) (h2 : Comp.progs ∈ ks) (h3 : Comp.fns ∈ ks) (h4 : Comp.chans ∈ ks) (h5 : Comp.clusters ∈ ks) (h6 : Comp.lock ∈ ks) (h7 : Comp.ports ∈ ks) (h8 : Comp.outst ∈ ks) (h9 : Comp.deliveries ∈ ks) (h10 : Comp.geo ∈ ks) (h11 : Comp.faults ∈ ks) (h12 : Comp.runs ∈ ks) (h13 : Comp.frames ∈ ks) (h14 : Comp.out ∈ ks) (h15 : Comp.telem ∈ ks) (h16 : Comp.units ∈ ks) (h17 : Comp.loaded ∈ ks) (h18 : Comp.lanes ∈ ks) :
    ChangesOnly ks r (State.beginTrain s p role maxWidth ms id) ↔ ChangesOnly ks r s := by
  unfold State.beginTrain; simp [↓modLane_only, ↓modPort_only, ↓toDisabled_only, ↓startTimer_only, ↓notePort_only, ↓showAll_only, ↓upd_units_only, ↓forEach_only, ↓ite_only, ite_self, h0, h1, h2, h3, h4, h5, h6, h7, h8, h9, h10, h11, h12, h13, h14, h15, h16, h17, h18]

theorem trainWork_only {ks : List Comp} {r : State} (p : Packet) (id : Nat) (s : State)
    (h0 : Comp.slots ∈ ks) (h1 : Comp.waits ∈ ks) (h2 : Comp.progs ∈ ks) (h3 : Comp.fns ∈ ks) (h4 : Comp.chans ∈ ks) (h5 : Comp.clusters ∈ ks) (h6 : Comp.lock ∈ ks) (h7 : Comp.ports ∈ ks) (h8 : Comp.outst ∈ ks) (h9 : Comp.deliveries ∈ ks) (h10 : Comp.geo ∈ ks) (h11 : Comp.faults ∈ ks) (h12 : Comp.runs ∈ ks) (h13 : Comp.frames ∈ ks) (h14 : Comp.out ∈ ks) (h15 : Comp.telem ∈ ks) (h16 : Comp.units ∈ ks) (h17 : Comp.loaded ∈ ks) (h18 : Comp.lanes ∈ ks) :
    ChangesOnly ks r (trainWork p id s) ↔ ChangesOnly ks r s := by
  unfold trainWork; simp only [↓beginTrain_only, ↓enterRetrain_only, ↓modPort_only, ↓disableByHost_only, ↓completeOk_only, ↓ite_only, ite_self, h0, h1, h2, h3, h4, h5, h6, h7, h8, h9, h10, h11, h12, h13, h14, h15, h16, h17, h18]

theorem setWidth_only {ks : List Comp} {r : State} (p : Packet) (id : Nat) (s : State)
    (h0 : Comp.slots ∈ ks) (h1 : Comp.waits ∈ ks) (h2 : Comp.fns ∈ ks) (h3 : Comp.ports ∈ ks) (h4 : Comp.outst ∈ ks) (h5 : Comp.out ∈ ks) :
    ChangesOnly ks r (setWidth p id s) ↔ ChangesOnly ks r s := by
  unfold setWidth; simp only [↓nextWidth_only, ↓modPort_only, ↓ite_only, ite_self, h0, h1, h2, h3, h4, h5]

theorem lockLane_only {ks : List Comp} {r : State} (l : LaneNo) (s : State)
    (h0 : Comp.waits ∈ ks) (h1 : Comp.fns ∈ ks) (h2 : Comp.ports ∈ ks) (h3 : Comp.out ∈ ks) (h4 : Comp.lanes ∈ ks) :
    ChangesOnly ks r (lockLane l s) ↔ ChangesOnly ks r s := by
  unfold lockLane; simp only [↓modLane_only, ↓checkRetrain_only, ↓checkDetect_only, ↓showTs_only, ↓ite_only, ite_self, h0, h1, h2, h3, h4]

theorem unlockLane_only {ks : List Comp} {r : State} (l : LaneNo) (s : State)
    (h0 : Comp.slots ∈ ks) (h1 : Comp.waits ∈ ks) (h2 : Comp.fns ∈ ks) (h3 : Comp.chans ∈ ks) (h4 : Comp.lock ∈ ks) (h5 : Comp.ports ∈ ks) (h6 : Comp.outst ∈ ks) (h7 : Comp.deliveries ∈ ks) (h8 : Comp.geo ∈ ks) (h9 : Comp.faults ∈ ks) (h10 : Comp.runs ∈ ks) (h11 : Comp.frames ∈ ks) (h12 : Comp.out ∈ ks) (h13 : Comp.telem ∈ ks) (h14 : Comp.units ∈ ks) (h15 : Comp.loaded ∈ ks) (h16 : Comp.lanes ∈ ks) :
    ChangesOnly ks r (unlockLane l s) ↔ ChangesOnly ks r s := by
  unfold unlockLane; simp only [↓showTs_only, ↓modLane_only, ↓checkEqualize_only, ↓laneFail_only, ↓ite_only, ite_self, h0, h1, h2, h3, h4, h5, h6, h7, h8, h9, h10, h11, h12, h13, h14, h15, h16]

theorem actTs_only {ks : List Comp} {r : State} (s : State) (l : LaneNo) (v : BitVec 40)
    (h0 : Comp.slots ∈ ks) (h1 : Comp.waits ∈ ks) (h2 : Comp.progs ∈ ks) (h3 : Comp.fns ∈ ks) (h4 : Comp.chans ∈ ks) (h5 : Comp.clusters ∈ ks) (h6 : Comp.lock ∈ ks) (h7 : Comp.ports ∈ ks) (h8 : Comp.outst ∈ ks) (h9 : Comp.deliveries ∈ ks) (h10 : Comp.geo ∈ ks) (h11 : Comp.faults ∈ ks) (h12 : Comp.runs ∈ ks) (h13 : Comp.frames ∈ ks) (h14 : Comp.out ∈ ks) (h15 : Comp.telem ∈ ks) (h16 : Comp.units ∈ ks) (h17 : Comp.loaded ∈ ks) (h18 : Comp.lanes ∈ ks) :
    ChangesOnly ks r (State.actTs s l v) ↔ ChangesOnly ks r s := by
  unfold State.actTs; simp only [↓toDisabled_only, ↓enterRetrain_only, ↓modLane_only, ↓showTs_only, ↓checkRetrain_only, ↓checkEqualize_only, ↓checkDetect_only, ↓ite_only, ite_self, h0, h1, h2, h3, h4, h5, h6, h7, h8, h9, h10, h11, h12, h13, h14, h15, h16, h17, h18]

theorem rxTs_only {ks : List Comp} {r : State} (l : LaneNo) (w : W64) (inverted : Bool) (s : State)
    (h0 : Comp.slots ∈ ks) (h1 : Comp.waits ∈ ks) (h2 : Comp.progs ∈ ks) (h3 : Comp.fns ∈ ks) (h4 : Comp.chans ∈ ks) (h5 : Comp.clusters ∈ ks) (h6 : Comp.lock ∈ ks) (h7 : Comp.ports ∈ ks) (h8 : Comp.outst ∈ ks) (h9 : Comp.deliveries ∈ ks) (h10 : Comp.geo ∈ ks) (h11 : Comp.faults ∈ ks) (h12 : Comp.runs ∈ ks) (h13 : Comp.frames ∈ ks) (h14 : Comp.out ∈ ks) (h15 : Comp.telem ∈ ks) (h16 : Comp.units ∈ ks) (h17 : Comp.loaded ∈ ks) (h18 : Comp.lanes ∈ ks) :
    ChangesOnly ks r (rxTs l w inverted s) ↔ ChangesOnly ks r s := by
  unfold rxTs; simp only [↓modLane_only, ↓otherBlock_only, ↓actTs_only, ↓ite_only, ite_self, h0, h1, h2, h3, h4, h5, h6, h7, h8, h9, h10, h11, h12, h13, h14, h15, h16, h17, h18]

theorem measured_only {ks : List Comp} {r : State} (l : LaneNo) (margin : Nat) (s : State)
    (h0 : Comp.waits ∈ ks) (h1 : Comp.fns ∈ ks) (h2 : Comp.ports ∈ ks) (h3 : Comp.faults ∈ ks) (h4 : Comp.out ∈ ks) (h5 : Comp.telem ∈ ks) (h6 : Comp.units ∈ ks) (h7 : Comp.lanes ∈ ks) :
    ChangesOnly ks r (measured l margin s) ↔ ChangesOnly ks r s := by
  unfold measured; simp only [↓modLane_only, ↓checkEqualize_only, ↓showTs_only, ↓ite_only, ite_self, h0, h1, h2, h3, h4, h5, h6, h7]

theorem onTimer_only {ks : List Comp} {r : State} (p : PortNo) (st : PState) {f : State → State} (s : State)
    (h0 : Comp.tick ∈ ks) (hf : ∀ t, ChangesOnly ks r (f t) ↔ ChangesOnly ks r t) :
    ChangesOnly ks r (onTimer p st f s) ↔ ChangesOnly ks r s := by
  unfold onTimer; split <;> simp only [↓hf, ↓reach_only, h0]

theorem rxMark_only {ks : List Comp} {r : State} (l : LaneNo) (w : W64) (arrival : Int) (bip : Byte) (s : State)
    (h0 : Comp.slots ∈ ks) (h1 : Comp.waits ∈ ks) (h2 : Comp.fns ∈ ks) (h3 : Comp.chans ∈ ks) (h4 : Comp.lock ∈ ks) (h5 : Comp.ports ∈ ks) (h6 : Comp.outst ∈ ks) (h7 : Comp.deliveries ∈ ks) (h8 : Comp.geo ∈ ks) (h9 : Comp.faults ∈ ks) (h10 : Comp.runs ∈ ks) (h11 : Comp.frames ∈ ks) (h12 : Comp.out ∈ ks) (h13 : Comp.telem ∈ ks) (h14 : Comp.units ∈ ks) (h15 : Comp.loaded ∈ ks) (h16 : Comp.lanes ∈ ks) :
    ChangesOnly ks r (rxMark l w arrival bip s) ↔ ChangesOnly ks r s := by
  simp only [rxMark]; (repeat' split) <;> simp [↓otherBlock_only, ↓blockError_only, ↓chooseSet_only, ↓modLane_only, ↓checkAlign_only, ↓forEach_only, ↓ite_only, ite_self, h0, h1, h2, h3, h4, h5, h6, h7, h8, h9, h10, h11, h12, h13, h14, h15, h16]

theorem txMark_only {ks : List Comp} {r : State} (p : PortNo) (bips : W32) (s : State)
    (h0 : Comp.ports ∈ ks) (h1 : Comp.out ∈ ks) :
    ChangesOnly ks r (txMark p bips s) ↔ ChangesOnly ks r s := by
  unfold txMark; simp [↓emit_only, ↓modPort_only, ↓forEach_only, ↓ite_only, ite_self, h0, h1]

theorem rxNeg_only {ks : List Comp} {r : State} (kind : Nat) (res : W64) (l : LaneNo) (w : W64)
    {f : State → State} (s : State) (h0 : Comp.slots ∈ ks) (h1 : Comp.waits ∈ ks) (h2 : Comp.fns ∈ ks) (h3 : Comp.chans ∈ ks) (h4 : Comp.lock ∈ ks) (h5 : Comp.ports ∈ ks) (h6 : Comp.outst ∈ ks) (h7 : Comp.deliveries ∈ ks) (h8 : Comp.geo ∈ ks) (h9 : Comp.faults ∈ ks) (h10 : Comp.runs ∈ ks) (h11 : Comp.frames ∈ ks) (h12 : Comp.out ∈ ks) (h13 : Comp.telem ∈ ks) (h14 : Comp.units ∈ ks) (h15 : Comp.loaded ∈ ks) (h16 : Comp.lanes ∈ ks) (hf : ∀ t, ChangesOnly ks r (f t) ↔ ChangesOnly ks r t) :
    ChangesOnly ks r (rxNeg kind res l w f s) ↔ ChangesOnly ks r s := by
  unfold rxNeg; (repeat' split) <;> simp only [↓hf, ↓otherBlock_only, ↓blockError_only, h0, h1, h2, h3, h4, h5, h6, h7, h8, h9, h10, h11, h12, h13, h14, h15, h16]

theorem rxFragment_only {ks : List Comp} {r : State} (l : LaneNo) (w : W64) (s : State)
    (h0 : Comp.slots ∈ ks) (h1 : Comp.waits ∈ ks) (h2 : Comp.progs ∈ ks) (h3 : Comp.fns ∈ ks) (h4 : Comp.chans ∈ ks) (h5 : Comp.clusters ∈ ks) (h6 : Comp.lock ∈ ks) (h7 : Comp.ports ∈ ks) (h8 : Comp.outst ∈ ks) (h9 : Comp.deliveries ∈ ks) (h10 : Comp.geo ∈ ks) (h11 : Comp.faults ∈ ks) (h12 : Comp.runs ∈ ks) (h13 : Comp.frames ∈ ks) (h14 : Comp.out ∈ ks) (h15 : Comp.telem ∈ ks) (h16 : Comp.units ∈ ks) (h17 : Comp.loaded ∈ ks) (h18 : Comp.lanes ∈ ks) :
    ChangesOnly ks r (rxFragment l w s) ↔ ChangesOnly ks r s := by
  unfold rxFragment; (repeat' split) <;> simp [↓modPort_only, ↓judgeRecord_only, ↓ite_only, ite_self, h0, h1, h2, h3, h4, h5, h6, h7, h8, h9, h10, h11, h12, h13, h14, h15, h16, h17, h18] <;> (repeat' split) <;> simp [↓modPort_only, ↓judgeRecord_only, ↓ite_only, ite_self, h0, h1, h2, h3, h4, h5, h6, h7, h8, h9, h10, h11, h12, h13, h14, h15, h16, h17, h18]

theorem rxAccept_only {ks : List Comp} {r : State} (l : LaneNo) (w : W64) (s : State)
    (h0 : Comp.slots ∈ ks) (h1 : Comp.waits ∈ ks) (h2 : Comp.fns ∈ ks) (h3 : Comp.chans ∈ ks) (h4 : Comp.lock ∈ ks) (h5 : Comp.ports ∈ ks) (h6 : Comp.outst ∈ ks) (h7 : Comp.deliveries ∈ ks) (h8 : Comp.geo ∈ ks) (h9 : Comp.runs ∈ ks) (h10 : Comp.frames ∈ ks) (h11 : Comp.out ∈ ks) (h12 : Comp.telem ∈ ks) (h13 : Comp.loaded ∈ ks) :
    ChangesOnly ks r (rxAccept l w s) ↔ ChangesOnly ks r s := by
  unfold rxAccept
  repeat' (first | with_reducible rfl | (simp only [↓endExchange_only, ↓modPort_only, ↓ite_only, ite_self, h0, h1, h2, h3, h4, h5, h6, h7, h8, h9, h10, h11, h12, h13]) | with_reducible (refine (forEach_only (fun _ _ => ?_) _ _).trans ?_) | split | dsimp only)

theorem rxRefuse_only {ks : List Comp} {r : State} (l : LaneNo) (w : W64) (s : State)
    (h0 : Comp.slots ∈ ks) (h1 : Comp.waits ∈ ks) (h2 : Comp.progs ∈ ks) (h3 : Comp.fns ∈ ks) (h4 : Comp.chans ∈ ks) (h5 : Comp.clusters ∈ ks) (h6 : Comp.lock ∈ ks) (h7 : Comp.ports ∈ ks) (h8 : Comp.outst ∈ ks) (h9 : Comp.deliveries ∈ ks) (h10 : Comp.geo ∈ ks) (h11 : Comp.faults ∈ ks) (h12 : Comp.runs ∈ ks) (h13 : Comp.frames ∈ ks) (h14 : Comp.out ∈ ks) (h15 : Comp.telem ∈ ks) (h16 : Comp.units ∈ ks) (h17 : Comp.loaded ∈ ks) (h18 : Comp.lanes ∈ ks) :
    ChangesOnly ks r (rxRefuse l w s) ↔ ChangesOnly ks r s := by
  unfold rxRefuse; simp only [↓fault_only, ↓toDisabled_only, ↓ite_only, ite_self, h0, h1, h2, h3, h4, h5, h6, h7, h8, h9, h10, h11, h12, h13, h14, h15, h16, h17, h18]

theorem rxWidth_only {ks : List Comp} {r : State} (op : Nat) (p : PortNo) (w : W64)
    {f : State → State} (s : State) (h0 : Comp.slots ∈ ks) (h1 : Comp.waits ∈ ks) (h2 : Comp.fns ∈ ks) (h3 : Comp.chans ∈ ks) (h4 : Comp.lock ∈ ks) (h5 : Comp.ports ∈ ks) (h6 : Comp.outst ∈ ks) (h7 : Comp.deliveries ∈ ks) (h8 : Comp.geo ∈ ks) (h9 : Comp.faults ∈ ks) (h10 : Comp.runs ∈ ks) (h11 : Comp.frames ∈ ks) (h12 : Comp.out ∈ ks) (h13 : Comp.telem ∈ ks) (h14 : Comp.units ∈ ks) (h15 : Comp.loaded ∈ ks) (h16 : Comp.lanes ∈ ks) (hf : ∀ t, ChangesOnly ks r (f t) ↔ ChangesOnly ks r t) :
    ChangesOnly ks r (rxWidth op p w f s) ↔ ChangesOnly ks r s := by
  unfold rxWidth
  dsimp only
  (repeat' split) <;> first | rfl | simp only [↓hf] | exact forEach_only (fun _ _ => by simp only [↓blockError_only, h0, h1, h2, h3, h4, h5, h6, h7, h8, h9, h10, h11, h12, h13, h14, h15, h16]) _ _

theorem rxReq_only {ks : List Comp} {r : State} (p : PortNo) (w : W64) (s : State)
    (h0 : Comp.slots ∈ ks) (h1 : Comp.waits ∈ ks) (h2 : Comp.fns ∈ ks) (h3 : Comp.ports ∈ ks) (h4 : Comp.out ∈ ks) :
    ChangesOnly ks r (rxReq p w s) ↔ ChangesOnly ks r s := by
  unfold rxReq; simp only [↓replicate_only, ↓portLapse_only, ↓modPort_only, ↓ite_only, ite_self, h0, h1, h2, h3, h4]

theorem rxAck_only {ks : List Comp} {r : State} (p : PortNo) (w : W64) (s : State)
    (h0 : Comp.ports ∈ ks) (h1 : Comp.out ∈ ks) :
    ChangesOnly ks r (rxAck p w s) ↔ ChangesOnly ks r s := by
  unfold rxAck; (repeat' split) <;> simp [↓replicate_only, ↓modPort_only, ↓ite_only, ite_self, h0, h1]

theorem rxNak_only {ks : List Comp} {r : State} (p : PortNo) (w : W64) (s : State)
    (h0 : Comp.slots ∈ ks) (h1 : Comp.waits ∈ ks) (h2 : Comp.fns ∈ ks) (h3 : Comp.chans ∈ ks) (h4 : Comp.lock ∈ ks) (h5 : Comp.ports ∈ ks) (h6 : Comp.outst ∈ ks) (h7 : Comp.deliveries ∈ ks) (h8 : Comp.geo ∈ ks) (h9 : Comp.faults ∈ ks) (h10 : Comp.runs ∈ ks) (h11 : Comp.frames ∈ ks) (h12 : Comp.out ∈ ks) (h13 : Comp.telem ∈ ks) (h14 : Comp.units ∈ ks) (h15 : Comp.loaded ∈ ks) (h16 : Comp.lanes ∈ ks) :
    ChangesOnly ks r (rxNak p w s) ↔ ChangesOnly ks r s := by
  simp only [rxNak]; (repeat' split) <;> simp [↓nextWidth_only, ↓modPort_only, ↓changeFailed_only, ↓ite_only, ite_self, h0, h1, h2, h3, h4, h5, h6, h7, h8, h9, h10, h11, h12, h13, h14, h15, h16]

theorem rxSwitch_only {ks : List Comp} {r : State} (p : PortNo) (w : W64) (s : State)
    (h0 : Comp.slots ∈ ks) (h1 : Comp.waits ∈ ks) (h2 : Comp.fns ∈ ks) (h3 : Comp.ports ∈ ks) (h4 : Comp.outst ∈ ks) (h5 : Comp.faults ∈ ks) (h6 : Comp.out ∈ ks) (h7 : Comp.telem ∈ ks) (h8 : Comp.units ∈ ks) :
    ChangesOnly ks r (rxSwitch p w s) ↔ ChangesOnly ks r s := by
  simp only [rxSwitch]; (repeat' split) <;> simp [↓nextWidth_only, ↓switchLanes_only, ↓modPort_only, ↓changeDone_only, ↓ite_only, ite_self, h0, h1, h2, h3, h4, h5, h6, h7, h8]

theorem reqTimeout_only {ks : List Comp} {r : State} (p : PortNo) (s : State)
    (h0 : Comp.slots ∈ ks) (h1 : Comp.waits ∈ ks) (h2 : Comp.fns ∈ ks) (h3 : Comp.chans ∈ ks) (h4 : Comp.tick ∈ ks) (h5 : Comp.lock ∈ ks) (h6 : Comp.ports ∈ ks) (h7 : Comp.outst ∈ ks) (h8 : Comp.deliveries ∈ ks) (h9 : Comp.geo ∈ ks) (h10 : Comp.faults ∈ ks) (h11 : Comp.runs ∈ ks) (h12 : Comp.frames ∈ ks) (h13 : Comp.out ∈ ks) (h14 : Comp.telem ∈ ks) (h15 : Comp.units ∈ ks) (h16 : Comp.loaded ∈ ks) (h17 : Comp.lanes ∈ ks) :
    ChangesOnly ks r (reqTimeout p s) ↔ ChangesOnly ks r s := by
  unfold reqTimeout; (repeat' split) <;> simp [↓reach_only, ↓sendReq_only, ↓changeFailed_only, ↓ite_only, ite_self, h0, h1, h2, h3, h4, h5, h6, h7, h8, h9, h10, h11, h12, h13, h14, h15, h16, h17]

theorem narrowTimeout_only {ks : List Comp} {r : State} (p : PortNo) (s : State)
    (h0 : Comp.slots ∈ ks) (h1 : Comp.waits ∈ ks) (h2 : Comp.fns ∈ ks) (h3 : Comp.chans ∈ ks) (h4 : Comp.tick ∈ ks) (h5 : Comp.lock ∈ ks) (h6 : Comp.ports ∈ ks) (h7 : Comp.outst ∈ ks) (h8 : Comp.deliveries ∈ ks) (h9 : Comp.geo ∈ ks) (h10 : Comp.faults ∈ ks) (h11 : Comp.runs ∈ ks) (h12 : Comp.frames ∈ ks) (h13 : Comp.out ∈ ks) (h14 : Comp.telem ∈ ks) (h15 : Comp.units ∈ ks) (h16 : Comp.loaded ∈ ks) (h17 : Comp.lanes ∈ ks) :
    ChangesOnly ks r (narrowTimeout p s) ↔ ChangesOnly ks r s := by
  unfold narrowTimeout; (repeat' split) <;> simp [↓enterRetrain_only, ↓reach_only, ↓ite_only, ite_self, h0, h1, h2, h3, h4, h5, h6, h7, h8, h9, h10, h11, h12, h13, h14, h15, h16, h17]

theorem rxIdle_only {ks : List Comp} {r : State} (p : PortNo) (s : State)
    (h0 : Comp.ports ∈ ks) :
    ChangesOnly ks r (rxIdle p s) ↔ ChangesOnly ks r s := by
  unfold rxIdle; simp only [↓modPort_only, ↓ite_only, ite_self, h0]

theorem execPortTrainTrain_only {ks : List Comp} {r t : State} {fn : FnNo} {qp : QpNo} {pkt : Packet} {s : State}
    (e : execPortTrainTrain fn qp pkt s = .next t) (h0 : Comp.slots ∈ ks) (h1 : Comp.waits ∈ ks) (h2 : Comp.progs ∈ ks) (h3 : Comp.nextId ∈ ks) (h4 : Comp.fns ∈ ks) (h5 : Comp.chans ∈ ks) (h6 : Comp.clusters ∈ ks) (h7 : Comp.lock ∈ ks) (h8 : Comp.ports ∈ ks) (h9 : Comp.outst ∈ ks) (h10 : Comp.deliveries ∈ ks) (h11 : Comp.geo ∈ ks) (h12 : Comp.faults ∈ ks) (h13 : Comp.runs ∈ ks) (h14 : Comp.frames ∈ ks) (h15 : Comp.out ∈ ks) (h16 : Comp.telem ∈ ks) (h17 : Comp.units ∈ ks) (h18 : Comp.loaded ∈ ks) (h19 : Comp.lanes ∈ ks) :
    ChangesOnly ks r t ↔ ChangesOnly ks r s := by
  injection e with e; subst e
  repeat' (first | with_reducible rfl | assumption | intro _ | (simp only [↓longCommand_only, ↓trainWork_only, ↓ite_only, ite_self, h0, h1, h2, h3, h4, h5, h6, h7, h8, h9, h10, h11, h12, h13, h14, h15, h16, h17, h18, h19]) | rw [foldl_fst_only] | rw [foldl_only] | rw [longCommand_only] | split | dsimp only)

theorem execPortTrainRetrain_only {ks : List Comp} {r t : State} {fn : FnNo} {qp : QpNo} {pkt : Packet} {s : State}
    (e : execPortTrainRetrain fn qp pkt s = .next t) (h0 : Comp.slots ∈ ks) (h1 : Comp.waits ∈ ks) (h2 : Comp.progs ∈ ks) (h3 : Comp.nextId ∈ ks) (h4 : Comp.fns ∈ ks) (h5 : Comp.chans ∈ ks) (h6 : Comp.clusters ∈ ks) (h7 : Comp.lock ∈ ks) (h8 : Comp.ports ∈ ks) (h9 : Comp.outst ∈ ks) (h10 : Comp.deliveries ∈ ks) (h11 : Comp.geo ∈ ks) (h12 : Comp.faults ∈ ks) (h13 : Comp.runs ∈ ks) (h14 : Comp.frames ∈ ks) (h15 : Comp.out ∈ ks) (h16 : Comp.telem ∈ ks) (h17 : Comp.units ∈ ks) (h18 : Comp.loaded ∈ ks) (h19 : Comp.lanes ∈ ks) :
    ChangesOnly ks r t ↔ ChangesOnly ks r s := by
  injection e with e; subst e
  repeat' (first | with_reducible rfl | assumption | intro _ | (simp only [↓longCommand_only, ↓trainWork_only, ↓ite_only, ite_self, h0, h1, h2, h3, h4, h5, h6, h7, h8, h9, h10, h11, h12, h13, h14, h15, h16, h17, h18, h19]) | rw [foldl_fst_only] | rw [foldl_only] | rw [longCommand_only] | split | dsimp only)

theorem execPortTrainDisable_only {ks : List Comp} {r t : State} {fn : FnNo} {qp : QpNo} {pkt : Packet} {s : State}
    (e : execPortTrainDisable fn qp pkt s = .next t) (h0 : Comp.slots ∈ ks) (h1 : Comp.waits ∈ ks) (h2 : Comp.progs ∈ ks) (h3 : Comp.nextId ∈ ks) (h4 : Comp.fns ∈ ks) (h5 : Comp.chans ∈ ks) (h6 : Comp.clusters ∈ ks) (h7 : Comp.lock ∈ ks) (h8 : Comp.ports ∈ ks) (h9 : Comp.outst ∈ ks) (h10 : Comp.deliveries ∈ ks) (h11 : Comp.geo ∈ ks) (h12 : Comp.faults ∈ ks) (h13 : Comp.runs ∈ ks) (h14 : Comp.frames ∈ ks) (h15 : Comp.out ∈ ks) (h16 : Comp.telem ∈ ks) (h17 : Comp.units ∈ ks) (h18 : Comp.loaded ∈ ks) (h19 : Comp.lanes ∈ ks) :
    ChangesOnly ks r t ↔ ChangesOnly ks r s := by
  injection e with e; subst e
  repeat' (first | with_reducible rfl | assumption | intro _ | (simp only [↓longCommand_only, ↓trainWork_only, ↓ite_only, ite_self, h0, h1, h2, h3, h4, h5, h6, h7, h8, h9, h10, h11, h12, h13, h14, h15, h16, h17, h18, h19]) | rw [foldl_fst_only] | rw [foldl_only] | rw [longCommand_only] | split | dsimp only)

theorem execPortStatus_only {ks : List Comp} {r t : State} {fn : FnNo} {qp : QpNo} {pkt : Packet} {s : State}
    (e : execPortStatus fn qp pkt s = .next t) (h0 : Comp.fns ∈ ks) (h1 : Comp.out ∈ ks) :
    ChangesOnly ks r t ↔ ChangesOnly ks r s := by
  injection e with e; subst e
  repeat' (first | with_reducible rfl | assumption | intro _ | (simp only [↓shortCommand_only, ↓writeBlock_only, ↓ite_only, ite_self, h0, h1]) | rw [foldl_fst_only] | rw [foldl_only] | rw [shortCommand_only] | split | dsimp only)

theorem execPortSetWidth_only {ks : List Comp} {r t : State} {fn : FnNo} {qp : QpNo} {pkt : Packet} {s : State}
    (e : execPortSetWidth fn qp pkt s = .next t) (h0 : Comp.slots ∈ ks) (h1 : Comp.waits ∈ ks) (h2 : Comp.nextId ∈ ks) (h3 : Comp.fns ∈ ks) (h4 : Comp.ports ∈ ks) (h5 : Comp.outst ∈ ks) (h6 : Comp.out ∈ ks) :
    ChangesOnly ks r t ↔ ChangesOnly ks r s := by
  injection e with e; subst e
  repeat' (first | with_reducible rfl | assumption | intro _ | (simp only [↓longCommand_only, ↓setWidth_only, ↓ite_only, ite_self, h0, h1, h2, h3, h4, h5, h6]) | rw [foldl_fst_only] | rw [foldl_only] | rw [longCommand_only] | split | dsimp only)

theorem execBlockLockAcquired_only {ks : List Comp} {r t : State} {lane : LaneNo} {s : State}
    (e : execBlockLockAcquired lane s = .next t) (h0 : Comp.waits ∈ ks) (h1 : Comp.fns ∈ ks) (h2 : Comp.ports ∈ ks) (h3 : Comp.out ∈ ks) (h4 : Comp.lanes ∈ ks) :
    ChangesOnly ks r t ↔ ChangesOnly ks r s := by
  injection e with e; subst e; simp only [↓lockLane_only, ↓ite_only, ite_self, h0, h1, h2, h3, h4]

theorem execBlockLockLost_only {ks : List Comp} {r t : State} {lane : LaneNo} {s : State}
    (e : execBlockLockLost lane s = .next t) (h0 : Comp.slots ∈ ks) (h1 : Comp.waits ∈ ks) (h2 : Comp.fns ∈ ks) (h3 : Comp.chans ∈ ks) (h4 : Comp.lock ∈ ks) (h5 : Comp.ports ∈ ks) (h6 : Comp.outst ∈ ks) (h7 : Comp.deliveries ∈ ks) (h8 : Comp.geo ∈ ks) (h9 : Comp.faults ∈ ks) (h10 : Comp.runs ∈ ks) (h11 : Comp.frames ∈ ks) (h12 : Comp.out ∈ ks) (h13 : Comp.telem ∈ ks) (h14 : Comp.units ∈ ks) (h15 : Comp.loaded ∈ ks) (h16 : Comp.lanes ∈ ks) :
    ChangesOnly ks r t ↔ ChangesOnly ks r s := by
  injection e with e; subst e; simp only [↓unlockLane_only, ↓ite_only, ite_self, h0, h1, h2, h3, h4, h5, h6, h7, h8, h9, h10, h11, h12, h13, h14, h15, h16]

theorem execLaneFailure_only {ks : List Comp} {r t : State} {lane : LaneNo} {s : State}
    (e : execLaneFailure lane s = .next t) (h0 : Comp.slots ∈ ks) (h1 : Comp.waits ∈ ks) (h2 : Comp.fns ∈ ks) (h3 : Comp.chans ∈ ks) (h4 : Comp.lock ∈ ks) (h5 : Comp.ports ∈ ks) (h6 : Comp.outst ∈ ks) (h7 : Comp.deliveries ∈ ks) (h8 : Comp.geo ∈ ks) (h9 : Comp.faults ∈ ks) (h10 : Comp.runs ∈ ks) (h11 : Comp.frames ∈ ks) (h12 : Comp.out ∈ ks) (h13 : Comp.telem ∈ ks) (h14 : Comp.units ∈ ks) (h15 : Comp.loaded ∈ ks) (h16 : Comp.lanes ∈ ks) :
    ChangesOnly ks r t ↔ ChangesOnly ks r s := by
  injection e with e; subst e; simp only [↓laneFail_only, ↓ite_only, ite_self, h0, h1, h2, h3, h4, h5, h6, h7, h8, h9, h10, h11, h12, h13, h14, h15, h16]

theorem execTs_only {ks : List Comp} {r t : State} {lane : LaneNo} {payload : W64} {inverted : Bool} {s : State}
    (e : execTs lane payload inverted s = .next t) (h0 : Comp.slots ∈ ks) (h1 : Comp.waits ∈ ks) (h2 : Comp.progs ∈ ks) (h3 : Comp.fns ∈ ks) (h4 : Comp.chans ∈ ks) (h5 : Comp.clusters ∈ ks) (h6 : Comp.lock ∈ ks) (h7 : Comp.ports ∈ ks) (h8 : Comp.outst ∈ ks) (h9 : Comp.deliveries ∈ ks) (h10 : Comp.geo ∈ ks) (h11 : Comp.faults ∈ ks) (h12 : Comp.runs ∈ ks) (h13 : Comp.frames ∈ ks) (h14 : Comp.out ∈ ks) (h15 : Comp.telem ∈ ks) (h16 : Comp.units ∈ ks) (h17 : Comp.loaded ∈ ks) (h18 : Comp.lanes ∈ ks) :
    ChangesOnly ks r t ↔ ChangesOnly ks r s := by
  injection e with e; subst e; simp only [↓rxTs_only, ↓ite_only, ite_self, h0, h1, h2, h3, h4, h5, h6, h7, h8, h9, h10, h11, h12, h13, h14, h15, h16, h17, h18]

theorem execPresetMeasureTimer_only {ks : List Comp} {r t : State} {lane : LaneNo} {margin : Nat} {s : State}
    (e : execPresetMeasureTimer lane margin s = .next t) (h0 : Comp.waits ∈ ks) (h1 : Comp.fns ∈ ks) (h2 : Comp.ports ∈ ks) (h3 : Comp.faults ∈ ks) (h4 : Comp.out ∈ ks) (h5 : Comp.telem ∈ ks) (h6 : Comp.units ∈ ks) (h7 : Comp.lanes ∈ ks) :
    ChangesOnly ks r t ↔ ChangesOnly ks r s := by
  injection e with e; subst e; simp only [↓measured_only, ↓ite_only, ite_self, h0, h1, h2, h3, h4, h5, h6, h7]

theorem execDetectTimeout_only {ks : List Comp} {r t : State} {port : PortNo} {s : State}
    (e : execDetectTimeout port s = .next t) (h0 : Comp.slots ∈ ks) (h1 : Comp.waits ∈ ks) (h2 : Comp.progs ∈ ks) (h3 : Comp.fns ∈ ks) (h4 : Comp.chans ∈ ks) (h5 : Comp.tick ∈ ks) (h6 : Comp.clusters ∈ ks) (h7 : Comp.lock ∈ ks) (h8 : Comp.ports ∈ ks) (h9 : Comp.outst ∈ ks) (h10 : Comp.deliveries ∈ ks) (h11 : Comp.geo ∈ ks) (h12 : Comp.faults ∈ ks) (h13 : Comp.runs ∈ ks) (h14 : Comp.frames ∈ ks) (h15 : Comp.out ∈ ks) (h16 : Comp.telem ∈ ks) (h17 : Comp.units ∈ ks) (h18 : Comp.loaded ∈ ks) (h19 : Comp.lanes ∈ ks) :
    ChangesOnly ks r t ↔ ChangesOnly ks r s := by
  injection e with e; subst e
  repeat' (first | with_reducible rfl | assumption | intro _ | (simp only [↓onTimer_only, ↓toDisabled_only, ↓ite_only, ite_self, h0, h1, h2, h3, h4, h5, h6, h7, h8, h9, h10, h11, h12, h13, h14, h15, h16, h17, h18, h19]) | rw [foldl_fst_only] | rw [foldl_only] | rw [onTimer_only] | split | dsimp only)

theorem execEqualizeTimeout_only {ks : List Comp} {r t : State} {port : PortNo} {s : State}
    (e : execEqualizeTimeout port s = .next t) (h0 : Comp.slots ∈ ks) (h1 : Comp.waits ∈ ks) (h2 : Comp.progs ∈ ks) (h3 : Comp.fns ∈ ks) (h4 : Comp.chans ∈ ks) (h5 : Comp.tick ∈ ks) (h6 : Comp.clusters ∈ ks) (h7 : Comp.lock ∈ ks) (h8 : Comp.ports ∈ ks) (h9 : Comp.outst ∈ ks) (h10 : Comp.deliveries ∈ ks) (h11 : Comp.geo ∈ ks) (h12 : Comp.faults ∈ ks) (h13 : Comp.runs ∈ ks) (h14 : Comp.frames ∈ ks) (h15 : Comp.out ∈ ks) (h16 : Comp.telem ∈ ks) (h17 : Comp.units ∈ ks) (h18 : Comp.loaded ∈ ks) (h19 : Comp.lanes ∈ ks) :
    ChangesOnly ks r t ↔ ChangesOnly ks r s := by
  injection e with e; subst e
  repeat' (first | with_reducible rfl | assumption | intro _ | (simp only [↓onTimer_only, ↓enterAlign_only, ↓toDisabled_only, ↓ite_only, ite_self, h0, h1, h2, h3, h4, h5, h6, h7, h8, h9, h10, h11, h12, h13, h14, h15, h16, h17, h18, h19]) | rw [foldl_fst_only] | rw [foldl_only] | rw [onTimer_only] | split | dsimp only)

theorem execAlignTimeout_only {ks : List Comp} {r t : State} {port : PortNo} {s : State}
    (e : execAlignTimeout port s = .next t) (h0 : Comp.slots ∈ ks) (h1 : Comp.waits ∈ ks) (h2 : Comp.progs ∈ ks) (h3 : Comp.fns ∈ ks) (h4 : Comp.chans ∈ ks) (h5 : Comp.tick ∈ ks) (h6 : Comp.clusters ∈ ks) (h7 : Comp.lock ∈ ks) (h8 : Comp.ports ∈ ks) (h9 : Comp.outst ∈ ks) (h10 : Comp.deliveries ∈ ks) (h11 : Comp.geo ∈ ks) (h12 : Comp.faults ∈ ks) (h13 : Comp.runs ∈ ks) (h14 : Comp.frames ∈ ks) (h15 : Comp.out ∈ ks) (h16 : Comp.telem ∈ ks) (h17 : Comp.units ∈ ks) (h18 : Comp.loaded ∈ ks) (h19 : Comp.lanes ∈ ks) :
    ChangesOnly ks r t ↔ ChangesOnly ks r s := by
  injection e with e; subst e
  repeat' (first | with_reducible rfl | assumption | intro _ | (simp only [↓onTimer_only, ↓toDisabled_only, ↓ite_only, ite_self, h0, h1, h2, h3, h4, h5, h6, h7, h8, h9, h10, h11, h12, h13, h14, h15, h16, h17, h18, h19]) | rw [foldl_fst_only] | rw [foldl_only] | rw [onTimer_only] | split | dsimp only)

theorem execNegotiateTimeout_only {ks : List Comp} {r t : State} {port : PortNo} {s : State}
    (e : execNegotiateTimeout port s = .next t) (h0 : Comp.slots ∈ ks) (h1 : Comp.waits ∈ ks) (h2 : Comp.progs ∈ ks) (h3 : Comp.fns ∈ ks) (h4 : Comp.chans ∈ ks) (h5 : Comp.tick ∈ ks) (h6 : Comp.clusters ∈ ks) (h7 : Comp.lock ∈ ks) (h8 : Comp.ports ∈ ks) (h9 : Comp.outst ∈ ks) (h10 : Comp.deliveries ∈ ks) (h11 : Comp.geo ∈ ks) (h12 : Comp.faults ∈ ks) (h13 : Comp.runs ∈ ks) (h14 : Comp.frames ∈ ks) (h15 : Comp.out ∈ ks) (h16 : Comp.telem ∈ ks) (h17 : Comp.units ∈ ks) (h18 : Comp.loaded ∈ ks) (h19 : Comp.lanes ∈ ks) :
    ChangesOnly ks r t ↔ ChangesOnly ks r s := by
  injection e with e; subst e
  repeat' (first | with_reducible rfl | assumption | intro _ | (simp only [↓onTimer_only, ↓toDisabled_only, ↓ite_only, ite_self, h0, h1, h2, h3, h4, h5, h6, h7, h8, h9, h10, h11, h12, h13, h14, h15, h16, h17, h18, h19]) | rw [foldl_fst_only] | rw [foldl_only] | rw [onTimer_only] | split | dsimp only)

theorem execRetrainTimeout_only {ks : List Comp} {r t : State} {port : PortNo} {s : State}
    (e : execRetrainTimeout port s = .next t) (h0 : Comp.slots ∈ ks) (h1 : Comp.waits ∈ ks) (h2 : Comp.progs ∈ ks) (h3 : Comp.fns ∈ ks) (h4 : Comp.chans ∈ ks) (h5 : Comp.tick ∈ ks) (h6 : Comp.clusters ∈ ks) (h7 : Comp.lock ∈ ks) (h8 : Comp.ports ∈ ks) (h9 : Comp.outst ∈ ks) (h10 : Comp.deliveries ∈ ks) (h11 : Comp.geo ∈ ks) (h12 : Comp.faults ∈ ks) (h13 : Comp.runs ∈ ks) (h14 : Comp.frames ∈ ks) (h15 : Comp.out ∈ ks) (h16 : Comp.telem ∈ ks) (h17 : Comp.units ∈ ks) (h18 : Comp.loaded ∈ ks) (h19 : Comp.lanes ∈ ks) :
    ChangesOnly ks r t ↔ ChangesOnly ks r s := by
  injection e with e; subst e
  repeat' (first | with_reducible rfl | assumption | intro _ | (simp only [↓onTimer_only, ↓toDisabled_only, ↓enterEqualize_only, ↓portLapseEnds_only, ↓ite_only, ite_self, h0, h1, h2, h3, h4, h5, h6, h7, h8, h9, h10, h11, h12, h13, h14, h15, h16, h17, h18, h19]) | rw [foldl_fst_only] | rw [foldl_only] | rw [onTimer_only] | split | dsimp only)

theorem execLaneMark_only {ks : List Comp} {r t : State} {lane : LaneNo} {payload : W64} {arrival : Int} {bip : Byte} {s : State}
    (e : execLaneMark lane payload arrival bip s = .next t) (h0 : Comp.slots ∈ ks) (h1 : Comp.waits ∈ ks) (h2 : Comp.fns ∈ ks) (h3 : Comp.chans ∈ ks) (h4 : Comp.lock ∈ ks) (h5 : Comp.ports ∈ ks) (h6 : Comp.outst ∈ ks) (h7 : Comp.deliveries ∈ ks) (h8 : Comp.geo ∈ ks) (h9 : Comp.faults ∈ ks) (h10 : Comp.runs ∈ ks) (h11 : Comp.frames ∈ ks) (h12 : Comp.out ∈ ks) (h13 : Comp.telem ∈ ks) (h14 : Comp.units ∈ ks) (h15 : Comp.loaded ∈ ks) (h16 : Comp.lanes ∈ ks) :
    ChangesOnly ks r t ↔ ChangesOnly ks r s := by
  injection e with e; subst e; simp only [↓rxMark_only, ↓ite_only, ite_self, h0, h1, h2, h3, h4, h5, h6, h7, h8, h9, h10, h11, h12, h13, h14, h15, h16]

theorem execLaneMarkTransmit_only {ks : List Comp} {r t : State} {port : PortNo} {bips : W32} {s : State}
    (e : execLaneMarkTransmit port bips s = .next t) (h0 : Comp.ports ∈ ks) (h1 : Comp.out ∈ ks) :
    ChangesOnly ks r t ↔ ChangesOnly ks r s := by
  injection e with e; subst e; simp only [↓txMark_only, ↓ite_only, ite_self, h0, h1]

theorem execNegRecord_only {ks : List Comp} {r t : State} {lane : LaneNo} {payload : W64} {s : State}
    (e : execNegRecord lane payload s = .next t) (h0 : Comp.slots ∈ ks) (h1 : Comp.waits ∈ ks) (h2 : Comp.progs ∈ ks) (h3 : Comp.fns ∈ ks) (h4 : Comp.chans ∈ ks) (h5 : Comp.clusters ∈ ks) (h6 : Comp.lock ∈ ks) (h7 : Comp.ports ∈ ks) (h8 : Comp.outst ∈ ks) (h9 : Comp.deliveries ∈ ks) (h10 : Comp.geo ∈ ks) (h11 : Comp.faults ∈ ks) (h12 : Comp.runs ∈ ks) (h13 : Comp.frames ∈ ks) (h14 : Comp.out ∈ ks) (h15 : Comp.telem ∈ ks) (h16 : Comp.units ∈ ks) (h17 : Comp.loaded ∈ ks) (h18 : Comp.lanes ∈ ks) :
    ChangesOnly ks r t ↔ ChangesOnly ks r s := by
  injection e with e; subst e
  repeat' (first | with_reducible rfl | assumption | intro _ | (simp only [↓rxNeg_only, ↓rxFragment_only, ↓ite_only, ite_self, h0, h1, h2, h3, h4, h5, h6, h7, h8, h9, h10, h11, h12, h13, h14, h15, h16, h17, h18]) | rw [foldl_fst_only] | rw [foldl_only] | rw [rxNeg_only] | split | dsimp only)

theorem execNegAccept_only {ks : List Comp} {r t : State} {lane : LaneNo} {payload : W64} {s : State}
    (e : execNegAccept lane payload s = .next t) (h0 : Comp.slots ∈ ks) (h1 : Comp.waits ∈ ks) (h2 : Comp.fns ∈ ks) (h3 : Comp.chans ∈ ks) (h4 : Comp.lock ∈ ks) (h5 : Comp.ports ∈ ks) (h6 : Comp.outst ∈ ks) (h7 : Comp.deliveries ∈ ks) (h8 : Comp.geo ∈ ks) (h9 : Comp.faults ∈ ks) (h10 : Comp.runs ∈ ks) (h11 : Comp.frames ∈ ks) (h12 : Comp.out ∈ ks) (h13 : Comp.telem ∈ ks) (h14 : Comp.units ∈ ks) (h15 : Comp.loaded ∈ ks) (h16 : Comp.lanes ∈ ks) :
    ChangesOnly ks r t ↔ ChangesOnly ks r s := by
  injection e with e; subst e
  repeat' (first | with_reducible rfl | assumption | intro _ | (simp only [↓rxNeg_only, ↓rxAccept_only, ↓ite_only, ite_self, h0, h1, h2, h3, h4, h5, h6, h7, h8, h9, h10, h11, h12, h13, h14, h15, h16]) | rw [foldl_fst_only] | rw [foldl_only] | rw [rxNeg_only] | split | dsimp only)

theorem execNegRefuse_only {ks : List Comp} {r t : State} {lane : LaneNo} {payload : W64} {s : State}
    (e : execNegRefuse lane payload s = .next t) (h0 : Comp.slots ∈ ks) (h1 : Comp.waits ∈ ks) (h2 : Comp.progs ∈ ks) (h3 : Comp.fns ∈ ks) (h4 : Comp.chans ∈ ks) (h5 : Comp.clusters ∈ ks) (h6 : Comp.lock ∈ ks) (h7 : Comp.ports ∈ ks) (h8 : Comp.outst ∈ ks) (h9 : Comp.deliveries ∈ ks) (h10 : Comp.geo ∈ ks) (h11 : Comp.faults ∈ ks) (h12 : Comp.runs ∈ ks) (h13 : Comp.frames ∈ ks) (h14 : Comp.out ∈ ks) (h15 : Comp.telem ∈ ks) (h16 : Comp.units ∈ ks) (h17 : Comp.loaded ∈ ks) (h18 : Comp.lanes ∈ ks) :
    ChangesOnly ks r t ↔ ChangesOnly ks r s := by
  injection e with e; subst e
  repeat' (first | with_reducible rfl | assumption | intro _ | (simp only [↓rxNeg_only, ↓rxRefuse_only, ↓ite_only, ite_self, h0, h1, h2, h3, h4, h5, h6, h7, h8, h9, h10, h11, h12, h13, h14, h15, h16, h17, h18]) | rw [foldl_fst_only] | rw [foldl_only] | rw [rxNeg_only] | split | dsimp only)

theorem execWidthChangeReq_only {ks : List Comp} {r t : State} {port : PortNo} {payload : W64} {s : State}
    (e : execWidthChangeReq port payload s = .next t) (h0 : Comp.slots ∈ ks) (h1 : Comp.waits ∈ ks) (h2 : Comp.fns ∈ ks) (h3 : Comp.chans ∈ ks) (h4 : Comp.lock ∈ ks) (h5 : Comp.ports ∈ ks) (h6 : Comp.outst ∈ ks) (h7 : Comp.deliveries ∈ ks) (h8 : Comp.geo ∈ ks) (h9 : Comp.faults ∈ ks) (h10 : Comp.runs ∈ ks) (h11 : Comp.frames ∈ ks) (h12 : Comp.out ∈ ks) (h13 : Comp.telem ∈ ks) (h14 : Comp.units ∈ ks) (h15 : Comp.loaded ∈ ks) (h16 : Comp.lanes ∈ ks) :
    ChangesOnly ks r t ↔ ChangesOnly ks r s := by
  injection e with e; subst e
  repeat' (first | with_reducible rfl | assumption | intro _ | (simp only [↓rxWidth_only, ↓rxReq_only, ↓ite_only, ite_self, h0, h1, h2, h3, h4, h5, h6, h7, h8, h9, h10, h11, h12, h13, h14, h15, h16]) | rw [foldl_fst_only] | rw [foldl_only] | rw [rxWidth_only] | split | dsimp only)

theorem execWidthChangeAck_only {ks : List Comp} {r t : State} {port : PortNo} {payload : W64} {s : State}
    (e : execWidthChangeAck port payload s = .next t) (h0 : Comp.slots ∈ ks) (h1 : Comp.waits ∈ ks) (h2 : Comp.fns ∈ ks) (h3 : Comp.chans ∈ ks) (h4 : Comp.lock ∈ ks) (h5 : Comp.ports ∈ ks) (h6 : Comp.outst ∈ ks) (h7 : Comp.deliveries ∈ ks) (h8 : Comp.geo ∈ ks) (h9 : Comp.faults ∈ ks) (h10 : Comp.runs ∈ ks) (h11 : Comp.frames ∈ ks) (h12 : Comp.out ∈ ks) (h13 : Comp.telem ∈ ks) (h14 : Comp.units ∈ ks) (h15 : Comp.loaded ∈ ks) (h16 : Comp.lanes ∈ ks) :
    ChangesOnly ks r t ↔ ChangesOnly ks r s := by
  injection e with e; subst e
  repeat' (first | with_reducible rfl | assumption | intro _ | (simp only [↓rxWidth_only, ↓rxAck_only, ↓ite_only, ite_self, h0, h1, h2, h3, h4, h5, h6, h7, h8, h9, h10, h11, h12, h13, h14, h15, h16]) | rw [foldl_fst_only] | rw [foldl_only] | rw [rxWidth_only] | split | dsimp only)

theorem execWidthChangeNak_only {ks : List Comp} {r t : State} {port : PortNo} {payload : W64} {s : State}
    (e : execWidthChangeNak port payload s = .next t) (h0 : Comp.slots ∈ ks) (h1 : Comp.waits ∈ ks) (h2 : Comp.fns ∈ ks) (h3 : Comp.chans ∈ ks) (h4 : Comp.lock ∈ ks) (h5 : Comp.ports ∈ ks) (h6 : Comp.outst ∈ ks) (h7 : Comp.deliveries ∈ ks) (h8 : Comp.geo ∈ ks) (h9 : Comp.faults ∈ ks) (h10 : Comp.runs ∈ ks) (h11 : Comp.frames ∈ ks) (h12 : Comp.out ∈ ks) (h13 : Comp.telem ∈ ks) (h14 : Comp.units ∈ ks) (h15 : Comp.loaded ∈ ks) (h16 : Comp.lanes ∈ ks) :
    ChangesOnly ks r t ↔ ChangesOnly ks r s := by
  injection e with e; subst e
  repeat' (first | with_reducible rfl | assumption | intro _ | (simp only [↓rxWidth_only, ↓rxNak_only, ↓ite_only, ite_self, h0, h1, h2, h3, h4, h5, h6, h7, h8, h9, h10, h11, h12, h13, h14, h15, h16]) | rw [foldl_fst_only] | rw [foldl_only] | rw [rxWidth_only] | split | dsimp only)

theorem execWidthChangeSwitch_only {ks : List Comp} {r t : State} {port : PortNo} {payload : W64} {s : State}
    (e : execWidthChangeSwitch port payload s = .next t) (h0 : Comp.slots ∈ ks) (h1 : Comp.waits ∈ ks) (h2 : Comp.fns ∈ ks) (h3 : Comp.chans ∈ ks) (h4 : Comp.lock ∈ ks) (h5 : Comp.ports ∈ ks) (h6 : Comp.outst ∈ ks) (h7 : Comp.deliveries ∈ ks) (h8 : Comp.geo ∈ ks) (h9 : Comp.faults ∈ ks) (h10 : Comp.runs ∈ ks) (h11 : Comp.frames ∈ ks) (h12 : Comp.out ∈ ks) (h13 : Comp.telem ∈ ks) (h14 : Comp.units ∈ ks) (h15 : Comp.loaded ∈ ks) (h16 : Comp.lanes ∈ ks) :
    ChangesOnly ks r t ↔ ChangesOnly ks r s := by
  injection e with e; subst e
  repeat' (first | with_reducible rfl | assumption | intro _ | (simp only [↓rxWidth_only, ↓rxSwitch_only, ↓ite_only, ite_self, h0, h1, h2, h3, h4, h5, h6, h7, h8, h9, h10, h11, h12, h13, h14, h15, h16]) | rw [foldl_fst_only] | rw [foldl_only] | rw [rxWidth_only] | split | dsimp only)

theorem execWidthChangeReqTimeout_only {ks : List Comp} {r t : State} {port : PortNo} {s : State}
    (e : execWidthChangeReqTimeout port s = .next t) (h0 : Comp.slots ∈ ks) (h1 : Comp.waits ∈ ks) (h2 : Comp.fns ∈ ks) (h3 : Comp.chans ∈ ks) (h4 : Comp.tick ∈ ks) (h5 : Comp.lock ∈ ks) (h6 : Comp.ports ∈ ks) (h7 : Comp.outst ∈ ks) (h8 : Comp.deliveries ∈ ks) (h9 : Comp.geo ∈ ks) (h10 : Comp.faults ∈ ks) (h11 : Comp.runs ∈ ks) (h12 : Comp.frames ∈ ks) (h13 : Comp.out ∈ ks) (h14 : Comp.telem ∈ ks) (h15 : Comp.units ∈ ks) (h16 : Comp.loaded ∈ ks) (h17 : Comp.lanes ∈ ks) :
    ChangesOnly ks r t ↔ ChangesOnly ks r s := by
  injection e with e; subst e; simp only [↓reqTimeout_only, ↓ite_only, ite_self, h0, h1, h2, h3, h4, h5, h6, h7, h8, h9, h10, h11, h12, h13, h14, h15, h16, h17]

theorem execWidthChangeTimeout_only {ks : List Comp} {r t : State} {port : PortNo} {s : State}
    (e : execWidthChangeTimeout port s = .next t) (h0 : Comp.slots ∈ ks) (h1 : Comp.waits ∈ ks) (h2 : Comp.fns ∈ ks) (h3 : Comp.chans ∈ ks) (h4 : Comp.tick ∈ ks) (h5 : Comp.lock ∈ ks) (h6 : Comp.ports ∈ ks) (h7 : Comp.outst ∈ ks) (h8 : Comp.deliveries ∈ ks) (h9 : Comp.geo ∈ ks) (h10 : Comp.faults ∈ ks) (h11 : Comp.runs ∈ ks) (h12 : Comp.frames ∈ ks) (h13 : Comp.out ∈ ks) (h14 : Comp.telem ∈ ks) (h15 : Comp.units ∈ ks) (h16 : Comp.loaded ∈ ks) (h17 : Comp.lanes ∈ ks) :
    ChangesOnly ks r t ↔ ChangesOnly ks r s := by
  injection e with e; subst e; simp only [↓narrowTimeout_only, ↓ite_only, ite_self, h0, h1, h2, h3, h4, h5, h6, h7, h8, h9, h10, h11, h12, h13, h14, h15, h16, h17]

theorem execIdle_only {ks : List Comp} {r t : State} {port : PortNo} {s : State}
    (e : execIdle port s = .next t) (h0 : Comp.ports ∈ ks) :
    ChangesOnly ks r t ↔ ChangesOnly ks r s := by
  injection e with e; subst e; simp only [↓rxIdle_only, ↓ite_only, ite_self, h0]

/-! ### Items -/

theorem setRoute_only {ks : List Comp} {r : State} (s : State) (c : Nat) (rr : Route)
    (h0 : Comp.chans ∈ ks) :
    ChangesOnly ks r (State.setRoute s c rr) ↔ ChangesOnly ks r s := by
  unfold State.setRoute; simp only [↓modChan_only, ↓ite_only, ite_self, h0]

theorem switchRoute_only {ks : List Comp} {r : State} (s : State) (x : Chan) (rr : PendingRoute) (tick : Tick) (forced : Bool) (partials : Nat)
    (h0 : Comp.waits ∈ ks) (h1 : Comp.fns ∈ ks) (h2 : Comp.chans ∈ ks) (h3 : Comp.outst ∈ ks) (h4 : Comp.out ∈ ks) :
    ChangesOnly ks r (State.switchRoute s x rr tick forced partials) ↔ ChangesOnly ks r s := by
  unfold State.switchRoute; simp only [↓setRoute_only, ↓modChan_only, ↓completeOk_only, ↓ite_only, ite_self, h0, h1, h2, h3, h4]

theorem slateNote_only {ks : List Comp} {r : State} (s : State) (x : Chan) (evType : W16) (hi : Nat) (r1 : W64)
    (h0 : Comp.waits ∈ ks) (h1 : Comp.fns ∈ ks) (h2 : Comp.chans ∈ ks) (h3 : Comp.out ∈ ks) :
    ChangesOnly ks r (State.slateNote s x evType hi r1) ↔ ChangesOnly ks r s := by
  unfold State.slateNote; simp only [↓occur_only, ↓modChan_only, ↓ite_only, ite_self, h0, h1, h2, h3]

theorem openNext_only {ks : List Comp} {r : State} (s : State) (c : Nat) (tick : Tick)
    (h0 : Comp.waits ∈ ks) (h1 : Comp.fns ∈ ks) (h2 : Comp.chans ∈ ks) (h3 : Comp.lock ∈ ks) (h4 : Comp.frames ∈ ks) (h5 : Comp.out ∈ ks) (h6 : Comp.telem ∈ ks) :
    ChangesOnly ks r (State.openNext s c tick) ↔ ChangesOnly ks r s := by
  unfold State.openNext; (repeat' split) <;> simp [↓modChan_only, ↓slateNote_only, ↓countDrop_only, ↓upd_frames_lock_only, ↓upd_frames_only, ↓upd_lock_only, ↓ite_only, ite_self, h0, h1, h2, h3, h4, h5, h6]

theorem dropBad_only {ks : List Comp} {r : State} (s : State) (x : Chan) (q : Nat) (cause : Nat)
    (h0 : Comp.waits ∈ ks) (h1 : Comp.fns ∈ ks) (h2 : Comp.chans ∈ ks) (h3 : Comp.geo ∈ ks) (h4 : Comp.frames ∈ ks) (h5 : Comp.out ∈ ks) (h6 : Comp.telem ∈ ks) :
    ChangesOnly ks r (State.dropBad s x q cause) ↔ ChangesOnly ks r s := by
  unfold State.dropBad; simp only [↓slateNote_only, ↓modChan_only, ↓dropFrame_only, ↓ite_only, ite_self, h0, h1, h2, h3, h4, h5, h6]

theorem closeSamples_only {ks : List Comp} {r : State} (s : State) (x : Chan) (f : Frame) (tick : Tick)
    (h0 : Comp.waits ∈ ks) (h1 : Comp.fns ∈ ks) (h2 : Comp.chans ∈ ks) (h3 : Comp.geo ∈ ks) (h4 : Comp.frames ∈ ks) (h5 : Comp.out ∈ ks) (h6 : Comp.telem ∈ ks) :
    ChangesOnly ks r (State.closeSamples s x f tick) ↔ ChangesOnly ks r s := by
  unfold State.closeSamples; simp only [↓dropFrame_only, ↓dropBad_only, ↓modFrame_only, ↓ite_only, ite_self, h0, h1, h2, h3, h4, h5, h6]

theorem judge_only {ks : List Comp} {r : State} (s : State) (x : Chan) (a2 : QHead) (exceeds : Bool) (e : Nat)
    (h0 : Comp.waits ∈ ks) (h1 : Comp.fns ∈ ks) (h2 : Comp.chans ∈ ks) (h3 : Comp.out ∈ ks) (h4 : Comp.telem ∈ ks) :
    ChangesOnly ks r (State.judge s x a2 exceeds e) ↔ ChangesOnly ks r s := by
  unfold State.judge; simp only [↓modChan_only, ↓count_only, ↓occur_only, ↓upd_telem_only, ↓ite_only, ite_self, h0, h1, h2, h3, h4]

theorem keepMessage_only {ks : List Comp} {r : State} (s : State) (x : Chan) (f : Frame) (a3 : QHead)
    (h0 : Comp.chans ∈ ks) (h1 : Comp.frames ∈ ks) :
    ChangesOnly ks r (State.keepMessage s x f a3) ↔ ChangesOnly ks r s := by
  unfold State.keepMessage; simp only [↓delFrame_only, ↓modChan_only, ↓ite_only, ite_self, h0, h1]

theorem closeMessage_only {ks : List Comp} {r : State} (s : State) (x : Chan) (f : Frame) (tick : Tick)
    (h0 : Comp.waits ∈ ks) (h1 : Comp.progs ∈ ks) (h2 : Comp.fns ∈ ks) (h3 : Comp.chans ∈ ks) (h4 : Comp.clusters ∈ ks) (h5 : Comp.lock ∈ ks) (h6 : Comp.ports ∈ ks) (h7 : Comp.outst ∈ ks) (h8 : Comp.deliveries ∈ ks) (h9 : Comp.geo ∈ ks) (h10 : Comp.runs ∈ ks) (h11 : Comp.frames ∈ ks) (h12 : Comp.out ∈ ks) (h13 : Comp.telem ∈ ks) (h14 : Comp.loaded ∈ ks) :
    ChangesOnly ks r (State.closeMessage s x f tick) ↔ ChangesOnly ks r s := by
  unfold State.closeMessage
  repeat' (first | with_reducible rfl | (simp only [↓dropFrame_only, ↓keepMessage_only, ↓judge_only, ↓modFrame_only, ↓makeReady_only, ↓sendAnswer_only, ↓ite_only, ite_self, h0, h1, h2, h3, h4, h5, h6, h7, h8, h9, h10, h11, h12, h13, h14]) | with_reducible (refine (forEach_only (fun _ _ => ?_) _ _).trans ?_) | split | dsimp only)

theorem closeFrame_only {ks : List Comp} {r : State} (s : State) (c : Nat) (discard : Bool) (tick : Tick)
    (h0 : Comp.waits ∈ ks) (h1 : Comp.progs ∈ ks) (h2 : Comp.fns ∈ ks) (h3 : Comp.chans ∈ ks) (h4 : Comp.clusters ∈ ks) (h5 : Comp.lock ∈ ks) (h6 : Comp.ports ∈ ks) (h7 : Comp.outst ∈ ks) (h8 : Comp.deliveries ∈ ks) (h9 : Comp.geo ∈ ks) (h10 : Comp.runs ∈ ks) (h11 : Comp.frames ∈ ks) (h12 : Comp.out ∈ ks) (h13 : Comp.telem ∈ ks) (h14 : Comp.loaded ∈ ks) :
    ChangesOnly ks r (State.closeFrame s c discard tick) ↔ ChangesOnly ks r s := by
  unfold State.closeFrame
  repeat' (first | with_reducible rfl | (simp only [↓modBufs_only, ↓modFrame_only, ↓dropFrame_only, ↓closeMessage_only, ↓closeSamples_only, ↓ite_only, ite_self, h0, h1, h2, h3, h4, h5, h6, h7, h8, h9, h10, h11, h12, h13, h14]) | with_reducible (refine (forEach_only (fun _ _ => ?_) _ _).trans ?_) | split | dsimp only)

theorem strayPayload_only {ks : List Comp} {r : State} (s : State) (c : Nat)
    (h0 : Comp.chans ∈ ks) (h1 : Comp.telem ∈ ks) :
    ChangesOnly ks r (State.strayPayload s c) ↔ ChangesOnly ks r s := by
  unfold State.strayPayload; (repeat' split) <;> simp [↓modChan_only, ↓countDrop_only, ↓ite_only, ite_self, h0, h1]

theorem dropWhole_only {ks : List Comp} {r : State} (s : State) (c : Nat)
    (h0 : Comp.chans ∈ ks) (h1 : Comp.geo ∈ ks) (h2 : Comp.frames ∈ ks) (h3 : Comp.telem ∈ ks) :
    ChangesOnly ks r (State.dropWhole s c) ↔ ChangesOnly ks r s := by
  unfold State.dropWhole; simp only [↓dropOpen_only, ↓strayPayload_only, ↓ite_only, ite_self, h0, h1, h2, h3]

theorem addUsed_only {ks : List Comp} {r : State} (s : State) (c : Nat) (k : Nat)
    (h0 : Comp.chans ∈ ks) :
    ChangesOnly ks r (State.addUsed s c k) ↔ ChangesOnly ks r s := by
  unfold State.addUsed; simp only [↓modChan_only, ↓ite_only, ite_self, h0]

theorem fill_only {ks : List Comp} {r s t : State} {x : Chan} {q k : Nat} {copy : Bool} {used : Nat}
    (h : s.fill x q k copy used = some t) (h0 : Comp.geo ∈ ks) : ChangesOnly ks r t ↔ ChangesOnly ks r s := by
  unfold State.fill at h
  dsimp only at h
  split at h
  · cases h
  · split at h <;> rw [← Option.some.inj h] <;> simp only [↓modBufs_only, h0]

theorem takePayload_only {ks : List Comp} {r : State} (s : State) (c sbits : Nat) (bytes : List Byte) (k : Nat) (h0 : Comp.waits ∈ ks) (h1 : Comp.fns ∈ ks) (h2 : Comp.chans ∈ ks) (h3 : Comp.geo ∈ ks) (h4 : Comp.frames ∈ ks) (h5 : Comp.out ∈ ks) (h6 : Comp.telem ∈ ks) :
    ChangesOnly ks r (s.takePayload c sbits bytes k) ↔ ChangesOnly ks r s := by
  unfold State.takePayload
  split
  · rfl
  · split
    · simp only [↓addUsed_only, ↓strayPayload_only, h0, h1, h2, h3, h4, h5, h6]
    · dsimp only
      split
      · simp only [↓addUsed_only, ↓dropBad_only, ↓modChan_only, h0, h1, h2, h3, h4, h5, h6]
      · split
        · simp only [↓addUsed_only, ↓dropBad_only, ↓modChan_only, h0, h1, h2, h3, h4, h5, h6]
        · split
          · simp only [↓addUsed_only, ↓dropOpen_only, h0, h1, h2, h3, h4, h5, h6]
          · rename_i h
            have g := fill_only (ks := ks) (r := r) h (by assumption)
            (repeat' split) <;> simp only [↓addUsed_only, ↓dropOpen_only, ↓modFrame_only, h0, h1, h2, h3, h4, h5, h6] <;> exact g

theorem takeMark_only {ks : List Comp} {r : State} (s : State) (c : Nat) (discard : Bool) (tick : Tick)
    (h0 : Comp.waits ∈ ks) (h1 : Comp.progs ∈ ks) (h2 : Comp.fns ∈ ks) (h3 : Comp.chans ∈ ks) (h4 : Comp.clusters ∈ ks) (h5 : Comp.lock ∈ ks) (h6 : Comp.ports ∈ ks) (h7 : Comp.outst ∈ ks) (h8 : Comp.deliveries ∈ ks) (h9 : Comp.geo ∈ ks) (h10 : Comp.runs ∈ ks) (h11 : Comp.frames ∈ ks) (h12 : Comp.out ∈ ks) (h13 : Comp.telem ∈ ks) (h14 : Comp.loaded ∈ ks) :
    ChangesOnly ks r (State.takeMark s c discard tick) ↔ ChangesOnly ks r s := by
  unfold State.takeMark
  repeat' (first | with_reducible rfl | (simp only [↓closeFrame_only, ↓switchRoute_only, ↓settlePool_only, ↓endUnbind_only, ↓openNext_only, ↓ite_only, ite_self, h0, h1, h2, h3, h4, h5, h6, h7, h8, h9, h10, h11, h12, h13, h14]) | with_reducible (refine (forEach_only (fun _ _ => ?_) _ _).trans ?_) | split | dsimp only)

theorem takeNotice_only {ks : List Comp} {r : State} (s : State) (c : Nat) (set : Nat)
    (h0 : Comp.chans ∈ ks) :
    ChangesOnly ks r (State.takeNotice s c set) ↔ ChangesOnly ks r s := by
  unfold State.takeNotice; simp only [↓modChan_only, ↓ite_only, ite_self, h0]

theorem forward_only {ks : List Comp} {r : State} (s : State) (x : Chan) (tag : Option (Nat × Nat)) (itype : Nat) (sbits : Nat) (arg : Nat) (bytes : List Byte)
    (h0 : Comp.waits ∈ ks) (h1 : Comp.fns ∈ ks) (h2 : Comp.chans ∈ ks) (h3 : Comp.lock ∈ ks) (h4 : Comp.ports ∈ ks) (h5 : Comp.outst ∈ ks) (h6 : Comp.deliveries ∈ ks) (h7 : Comp.geo ∈ ks) (h8 : Comp.runs ∈ ks) (h9 : Comp.frames ∈ ks) (h10 : Comp.out ∈ ks) (h11 : Comp.telem ∈ ks) (h12 : Comp.loaded ∈ ks) :
    ChangesOnly ks r (State.forward s x tag itype sbits arg bytes) ↔ ChangesOnly ks r s := by
  unfold State.forward; simp only [↓lockSend_only, ↓ite_only, ite_self, h0, h1, h2, h3, h4, h5, h6, h7, h8, h9, h10, h11, h12]

theorem consumeUnbound_only {ks : List Comp} {r : State} (s : State) (p : PortNo) (ch : Nat) (k : Nat) (mark : Bool)
    (h0 : Comp.ports ∈ ks) :
    ChangesOnly ks r (State.consumeUnbound s p ch k mark) ↔ ChangesOnly ks r s := by
  unfold State.consumeUnbound; simp only [↓modPort_only, ↓ite_only, ite_self, h0]

theorem consume_only {ks : List Comp} {r : State} (s : State) (c : Nat) (k : Nat)
    (h0 : Comp.chans ∈ ks) :
    ChangesOnly ks r (State.consume s c k) ↔ ChangesOnly ks r s := by
  unfold State.consume; simp only [↓modChan_only, ↓ite_only, ite_self, h0]

theorem acceptPayload_only {ks : List Comp} {r : State} (s : State) (p : PortNo) (a2 : RxHead) (bytes : List Byte)
    (h0 : Comp.waits ∈ ks) (h1 : Comp.fns ∈ ks) (h2 : Comp.chans ∈ ks) (h3 : Comp.lock ∈ ks) (h4 : Comp.ports ∈ ks) (h5 : Comp.outst ∈ ks) (h6 : Comp.deliveries ∈ ks) (h7 : Comp.geo ∈ ks) (h8 : Comp.runs ∈ ks) (h9 : Comp.frames ∈ ks) (h10 : Comp.out ∈ ks) (h11 : Comp.telem ∈ ks) (h12 : Comp.loaded ∈ ks) :
    ChangesOnly ks r (State.acceptPayload s p a2 bytes) ↔ ChangesOnly ks r s := by
  unfold State.acceptPayload
  repeat' (first | with_reducible rfl | (simp only [↓violation_only, ↓consumeUnbound_only, ↓consume_only, ↓addUsed_only, ↓countDrop_only, ↓dropWhole_only, ↓forward_only, ↓takePayload_only, ↓settlePool_only, ↓ite_only, ite_self, h0, h1, h2, h3, h4, h5, h6, h7, h8, h9, h10, h11, h12]) | with_reducible (refine (forEach_only (fun _ _ => ?_) _ _).trans ?_) | split | dsimp only)

theorem acceptMark_only {ks : List Comp} {r : State} (s : State) (p : PortNo) (ch : Nat) (discard : Bool)
    (h0 : Comp.waits ∈ ks) (h1 : Comp.progs ∈ ks) (h2 : Comp.fns ∈ ks) (h3 : Comp.chans ∈ ks) (h4 : Comp.clusters ∈ ks) (h5 : Comp.lock ∈ ks) (h6 : Comp.ports ∈ ks) (h7 : Comp.outst ∈ ks) (h8 : Comp.deliveries ∈ ks) (h9 : Comp.geo ∈ ks) (h10 : Comp.runs ∈ ks) (h11 : Comp.frames ∈ ks) (h12 : Comp.out ∈ ks) (h13 : Comp.telem ∈ ks) (h14 : Comp.loaded ∈ ks) :
    ChangesOnly ks r (State.acceptMark s p ch discard) ↔ ChangesOnly ks r s := by
  simp only [State.acceptMark]; (repeat' split) <;> simp [↓consumeUnbound_only, ↓consume_only, ↓settlePool_only, ↓modChan_only, ↓countDrop_only, ↓modLock_only, ↓dropOpen_only, ↓forward_only, ↓takeMark_only, ↓ite_only, ite_self, h0, h1, h2, h3, h4, h5, h6, h7, h8, h9, h10, h11, h12, h13, h14]

theorem acceptNotice_only {ks : List Comp} {r : State} (s : State) (p : PortNo) (ch : Nat) (set : Nat)
    (h0 : Comp.waits ∈ ks) (h1 : Comp.fns ∈ ks) (h2 : Comp.chans ∈ ks) (h3 : Comp.lock ∈ ks) (h4 : Comp.ports ∈ ks) (h5 : Comp.outst ∈ ks) (h6 : Comp.deliveries ∈ ks) (h7 : Comp.geo ∈ ks) (h8 : Comp.runs ∈ ks) (h9 : Comp.frames ∈ ks) (h10 : Comp.out ∈ ks) (h11 : Comp.telem ∈ ks) (h12 : Comp.loaded ∈ ks) :
    ChangesOnly ks r (State.acceptNotice s p ch set) ↔ ChangesOnly ks r s := by
  unfold State.acceptNotice; (repeat' split) <;> simp [↓violation_only, ↓countDrop_only, ↓forward_only, ↓takeNotice_only, ↓ite_only, ite_self, h0, h1, h2, h3, h4, h5, h6, h7, h8, h9, h10, h11, h12]

theorem rxFrameRow_only {ks : List Comp} {r : State} (ftype : Nat) (p : PortNo) (bytes : List Byte)
    {f : RxHead → List Byte → State → State} (s : State) (h0 : Comp.ports ∈ ks) (h1 : Comp.out ∈ ks)
    (hf : ∀ h b t, ChangesOnly ks r (f h b t) ↔ ChangesOnly ks r t) :
    ChangesOnly ks r (rxFrameRow ftype p bytes f s) ↔ ChangesOnly ks r s := by
  have g := rxFrame_only (ks := ks) (r := r) s p bytes h0 h1
  unfold rxFrameRow; dsimp only; (repeat' split) <;> simp_all only [↓hf]

theorem rxStriped_only {ks : List Comp} {r : State} (type : Nat) (reserved : W64) (l : LaneNo) (w : W64)
    {f : State → State} (s : State) (h0 : Comp.slots ∈ ks) (h1 : Comp.waits ∈ ks) (h2 : Comp.fns ∈ ks) (h3 : Comp.chans ∈ ks) (h4 : Comp.lock ∈ ks) (h5 : Comp.ports ∈ ks) (h6 : Comp.outst ∈ ks) (h7 : Comp.deliveries ∈ ks) (h8 : Comp.geo ∈ ks) (h9 : Comp.faults ∈ ks) (h10 : Comp.runs ∈ ks) (h11 : Comp.frames ∈ ks) (h12 : Comp.out ∈ ks) (h13 : Comp.telem ∈ ks) (h14 : Comp.units ∈ ks) (h15 : Comp.loaded ∈ ks) (h16 : Comp.lanes ∈ ks) (hf : ∀ t, ChangesOnly ks r (f t) ↔ ChangesOnly ks r t) :
    ChangesOnly ks r (rxStriped type reserved l w f s) ↔ ChangesOnly ks r s := by
  unfold rxStriped; dsimp only; (repeat' split) <;> simp only [↓hf, ↓otherBlock_only, ↓blockError_only, h0, h1, h2, h3, h4, h5, h6, h7, h8, h9, h10, h11, h12, h13, h14, h15, h16]

theorem rxSequenced_only {ks : List Comp} {r : State} (p : PortNo) (w : W64)
    {f : State → State} (s : State) (h0 : Comp.ports ∈ ks) (h1 : Comp.out ∈ ks) (hf : ∀ t, ChangesOnly ks r (f t) ↔ ChangesOnly ks r t) :
    ChangesOnly ks r (rxSequenced p w f s) ↔ ChangesOnly ks r s := by
  unfold rxSequenced; dsimp only; split <;> simp only [↓hf, ↓rxItem_only, h0, h1]

theorem forcedSwitch_only {ks : List Comp} {r : State} (c : Nat) (s : State)
    (h0 : Comp.waits ∈ ks) (h1 : Comp.fns ∈ ks) (h2 : Comp.chans ∈ ks) (h3 : Comp.tick ∈ ks) (h4 : Comp.lock ∈ ks) (h5 : Comp.ports ∈ ks) (h6 : Comp.outst ∈ ks) (h7 : Comp.deliveries ∈ ks) (h8 : Comp.geo ∈ ks) (h9 : Comp.runs ∈ ks) (h10 : Comp.frames ∈ ks) (h11 : Comp.out ∈ ks) (h12 : Comp.telem ∈ ks) (h13 : Comp.loaded ∈ ks) :
    ChangesOnly ks r (forcedSwitch c s) ↔ ChangesOnly ks r s := by
  unfold forcedSwitch; (repeat' split) <;> simp [↓reach_only, ↓dropOpen_only, ↓settlePool_only, ↓endUnbind_only, ↓switchRoute_only, ↓ite_only, ite_self, h0, h1, h2, h3, h4, h5, h6, h7, h8, h9, h10, h11, h12, h13]

theorem execSamples_only {ks : List Comp} {r t : State} {port : PortNo} {bytes : List Byte} {s : State}
    (e : execSamples port bytes s = .next t) (h0 : Comp.waits ∈ ks) (h1 : Comp.fns ∈ ks) (h2 : Comp.chans ∈ ks) (h3 : Comp.lock ∈ ks) (h4 : Comp.ports ∈ ks) (h5 : Comp.outst ∈ ks) (h6 : Comp.deliveries ∈ ks) (h7 : Comp.geo ∈ ks) (h8 : Comp.runs ∈ ks) (h9 : Comp.frames ∈ ks) (h10 : Comp.out ∈ ks) (h11 : Comp.telem ∈ ks) (h12 : Comp.loaded ∈ ks) :
    ChangesOnly ks r t ↔ ChangesOnly ks r s := by
  injection e with e; subst e
  repeat' (first | with_reducible rfl | assumption | intro _ | (simp only [↓rxFrameRow_only, ↓acceptPayload_only, ↓ite_only, ite_self, h0, h1, h2, h3, h4, h5, h6, h7, h8, h9, h10, h11, h12]) | rw [foldl_fst_only] | rw [foldl_only] | rw [rxFrameRow_only] | split | dsimp only)

theorem execTensor_only {ks : List Comp} {r t : State} {port : PortNo} {bytes : List Byte} {s : State}
    (e : execTensor port bytes s = .next t) (h0 : Comp.waits ∈ ks) (h1 : Comp.fns ∈ ks) (h2 : Comp.chans ∈ ks) (h3 : Comp.lock ∈ ks) (h4 : Comp.ports ∈ ks) (h5 : Comp.outst ∈ ks) (h6 : Comp.deliveries ∈ ks) (h7 : Comp.geo ∈ ks) (h8 : Comp.runs ∈ ks) (h9 : Comp.frames ∈ ks) (h10 : Comp.out ∈ ks) (h11 : Comp.telem ∈ ks) (h12 : Comp.loaded ∈ ks) :
    ChangesOnly ks r t ↔ ChangesOnly ks r s := by
  injection e with e; subst e
  repeat' (first | with_reducible rfl | assumption | intro _ | (simp only [↓rxFrameRow_only, ↓acceptPayload_only, ↓ite_only, ite_self, h0, h1, h2, h3, h4, h5, h6, h7, h8, h9, h10, h11, h12]) | rw [foldl_fst_only] | rw [foldl_only] | rw [rxFrameRow_only] | split | dsimp only)

theorem execFrameMark_only {ks : List Comp} {r t : State} {lane : LaneNo} {payload : W64} {s : State}
    (e : execFrameMark lane payload s = .next t) (h0 : Comp.slots ∈ ks) (h1 : Comp.waits ∈ ks) (h2 : Comp.progs ∈ ks) (h3 : Comp.fns ∈ ks) (h4 : Comp.chans ∈ ks) (h5 : Comp.clusters ∈ ks) (h6 : Comp.lock ∈ ks) (h7 : Comp.ports ∈ ks) (h8 : Comp.outst ∈ ks) (h9 : Comp.deliveries ∈ ks) (h10 : Comp.geo ∈ ks) (h11 : Comp.faults ∈ ks) (h12 : Comp.runs ∈ ks) (h13 : Comp.frames ∈ ks) (h14 : Comp.out ∈ ks) (h15 : Comp.telem ∈ ks) (h16 : Comp.units ∈ ks) (h17 : Comp.loaded ∈ ks) (h18 : Comp.lanes ∈ ks) :
    ChangesOnly ks r t ↔ ChangesOnly ks r s := by
  injection e with e; subst e
  repeat' (first | with_reducible rfl | assumption | intro _ | (simp only [↓rxStriped_only, ↓rxSequenced_only, ↓acceptMark_only, ↓ite_only, ite_self, h0, h1, h2, h3, h4, h5, h6, h7, h8, h9, h10, h11, h12, h13, h14, h15, h16, h17, h18]) | rw [foldl_fst_only] | rw [foldl_only] | rw [rxStriped_only] | rw [rxSequenced_only] | split | dsimp only)

theorem execSettingNotice_only {ks : List Comp} {r t : State} {lane : LaneNo} {payload : W64} {s : State}
    (e : execSettingNotice lane payload s = .next t) (h0 : Comp.slots ∈ ks) (h1 : Comp.waits ∈ ks) (h2 : Comp.fns ∈ ks) (h3 : Comp.chans ∈ ks) (h4 : Comp.lock ∈ ks) (h5 : Comp.ports ∈ ks) (h6 : Comp.outst ∈ ks) (h7 : Comp.deliveries ∈ ks) (h8 : Comp.geo ∈ ks) (h9 : Comp.faults ∈ ks) (h10 : Comp.runs ∈ ks) (h11 : Comp.frames ∈ ks) (h12 : Comp.out ∈ ks) (h13 : Comp.telem ∈ ks) (h14 : Comp.units ∈ ks) (h15 : Comp.loaded ∈ ks) (h16 : Comp.lanes ∈ ks) :
    ChangesOnly ks r t ↔ ChangesOnly ks r s := by
  injection e with e; subst e
  repeat' (first | with_reducible rfl | assumption | intro _ | (simp only [↓rxStriped_only, ↓rxSequenced_only, ↓acceptNotice_only, ↓ite_only, ite_self, h0, h1, h2, h3, h4, h5, h6, h7, h8, h9, h10, h11, h12, h13, h14, h15, h16]) | rw [foldl_fst_only] | rw [foldl_only] | rw [rxStriped_only] | rw [rxSequenced_only] | split | dsimp only)

theorem execForcedSwitch_only {ks : List Comp} {r t : State} {channel : Nat} {s : State}
    (e : execForcedSwitch channel s = .next t) (h0 : Comp.waits ∈ ks) (h1 : Comp.fns ∈ ks) (h2 : Comp.chans ∈ ks) (h3 : Comp.tick ∈ ks) (h4 : Comp.lock ∈ ks) (h5 : Comp.ports ∈ ks) (h6 : Comp.outst ∈ ks) (h7 : Comp.deliveries ∈ ks) (h8 : Comp.geo ∈ ks) (h9 : Comp.runs ∈ ks) (h10 : Comp.frames ∈ ks) (h11 : Comp.out ∈ ks) (h12 : Comp.telem ∈ ks) (h13 : Comp.loaded ∈ ks) :
    ChangesOnly ks r t ↔ ChangesOnly ks r s := by
  injection e with e; subst e; simp only [↓forcedSwitch_only, ↓ite_only, ite_self, h0, h1, h2, h3, h4, h5, h6, h7, h8, h9, h10, h11, h12, h13]

/-! ### LinkRows -/

theorem noteAcked_only {ks : List Comp} {r : State} (s : State) (p : PortNo)
    (h0 : Comp.chans ∈ ks) :
    ChangesOnly ks r (State.noteAcked s p) ↔ ChangesOnly ks r s := by
  unfold State.noteAcked; simp only [↓upd_chans_only, ↓ite_only, ite_self, h0]

theorem covered__only {ks : List Comp} {r : State} (s : State) (p : PortNo) (upTo : W16)
    (h0 : Comp.waits ∈ ks) (h1 : Comp.fns ∈ ks) (h2 : Comp.chans ∈ ks) (h3 : Comp.lock ∈ ks) (h4 : Comp.ports ∈ ks) (h5 : Comp.outst ∈ ks) (h6 : Comp.deliveries ∈ ks) (h7 : Comp.geo ∈ ks) (h8 : Comp.runs ∈ ks) (h9 : Comp.frames ∈ ks) (h10 : Comp.out ∈ ks) (h11 : Comp.telem ∈ ks) (h12 : Comp.loaded ∈ ks) :
    ChangesOnly ks r (State.covered_ s p upTo) ↔ ChangesOnly ks r s := by
  unfold State.covered_
  repeat' (first | with_reducible rfl | (simp only [↓pumpChans_only, ↓noteAcked_only, ↓coverItems_only, ↓pumpLock_only, ↓ite_only, ite_self, h0, h1, h2, h3, h4, h5, h6, h7, h8, h9, h10, h11, h12]) | with_reducible (refine (forEach_only (fun _ _ => ?_) _ _).trans ?_) | split | dsimp only)

theorem resend_only {ks : List Comp} {r : State} (s : State) (p : PortNo) (seq : W16)
    (h0 : Comp.waits ∈ ks) (h1 : Comp.fns ∈ ks) (h2 : Comp.ports ∈ ks) (h3 : Comp.out ∈ ks) :
    ChangesOnly ks r (State.resend s p seq) ↔ ChangesOnly ks r s := by
  unfold State.resend; simp only [↓noteStuck_only, ↓replayFrom_only, ↓ite_only, ite_self, h0, h1, h2, h3]

theorem replayTimeout_only {ks : List Comp} {r : State} (p : PortNo) (s : State)
    (h0 : Comp.waits ∈ ks) (h1 : Comp.fns ∈ ks) (h2 : Comp.tick ∈ ks) (h3 : Comp.ports ∈ ks) (h4 : Comp.out ∈ ks) :
    ChangesOnly ks r (replayTimeout p s) ↔ ChangesOnly ks r s := by
  unfold replayTimeout; (repeat' split) <;> simp [↓resend_only, ↓reach_only, ↓ite_only, ite_self, h0, h1, h2, h3, h4]

theorem rxCredit_only {ks : List Comp} {r : State} (s : State) (p : PortNo) (ch : Nat) (f : Credit → Credit)
    (h0 : Comp.waits ∈ ks) (h1 : Comp.fns ∈ ks) (h2 : Comp.chans ∈ ks) (h3 : Comp.lock ∈ ks) (h4 : Comp.ports ∈ ks) (h5 : Comp.outst ∈ ks) (h6 : Comp.deliveries ∈ ks) (h7 : Comp.geo ∈ ks) (h8 : Comp.runs ∈ ks) (h9 : Comp.frames ∈ ks) (h10 : Comp.out ∈ ks) (h11 : Comp.telem ∈ ks) (h12 : Comp.loaded ∈ ks) :
    ChangesOnly ks r (State.rxCredit s p ch f) ↔ ChangesOnly ks r s := by
  unfold State.rxCredit
  repeat' (first | with_reducible rfl | (simp only [↓pumpLock_only, ↓modPort_only, ↓pumpChans_only, ↓modChan_only, ↓ite_only, ite_self, h0, h1, h2, h3, h4, h5, h6, h7, h8, h9, h10, h11, h12]) | with_reducible (refine (forEach_only (fun _ _ => ?_) _ _).trans ?_) | split | dsimp only)

theorem refreshCredit_only {ks : List Comp} {r : State} (p : PortNo) (s : State)
    (h0 : Comp.ports ∈ ks) (h1 : Comp.out ∈ ks) :
    ChangesOnly ks r (refreshCredit p s) ↔ ChangesOnly ks r s := by
  simp only [refreshCredit]; (repeat' split) <;> simp [↓emit_only, ↓modPort_only, ↓ite_only, ite_self, h0, h1]

theorem rxTime_only {ks : List Comp} {r : State} (s : State) (p : PortNo) (w : W64)
    (h0 : Comp.ports ∈ ks) (h1 : Comp.out ∈ ks) :
    ChangesOnly ks r (State.rxTime s p w) ↔ ChangesOnly ks r s := by
  simp only [State.rxTime]; (repeat' split) <;> simp [↓emit_only, ↓modPort_only, ↓ite_only, ite_self, h0, h1]

theorem correctTick_only {ks : List Comp} {r : State} (s : State) (theta : Int)
    (h0 : Comp.tick ∈ ks) (h1 : Comp.withhold ∈ ks) :
    ChangesOnly ks r (State.correctTick s theta) ↔ ChangesOnly ks r s := by
  unfold State.correctTick; simp only [↓upd_withhold_only, ↓upd_tick_withhold_only, ↓upd_tick_only, ↓ite_only, ite_self, h0, h1]

theorem estimate_only {ks : List Comp} {r : State} (s : State) (p : PortNo) (y : Sync) (theta : Int)
    (h0 : Comp.waits ∈ ks) (h1 : Comp.fns ∈ ks) (h2 : Comp.tick ∈ ks) (h3 : Comp.ports ∈ ks) (h4 : Comp.outst ∈ ks) (h5 : Comp.withhold ∈ ks) (h6 : Comp.out ∈ ks) :
    ChangesOnly ks r (State.estimate s p y theta) ↔ ChangesOnly ks r s := by
  simp only [State.estimate]; (repeat' split) <;> simp [↓modPort_only, ↓correctTick_only, ↓completeOk_only, ↓syncLost_only, ↓ite_only, ite_self, h0, h1, h2, h3, h4, h5, h6]

theorem rxEcho_only {ks : List Comp} {r : State} (s : State) (p : PortNo) (w : W64)
    (h0 : Comp.waits ∈ ks) (h1 : Comp.fns ∈ ks) (h2 : Comp.tick ∈ ks) (h3 : Comp.ports ∈ ks) (h4 : Comp.outst ∈ ks) (h5 : Comp.withhold ∈ ks) (h6 : Comp.out ∈ ks) :
    ChangesOnly ks r (State.rxEcho s p w) ↔ ChangesOnly ks r s := by
  unfold State.rxEcho; (repeat' split) <;> simp [↓modPort_only, ↓estimate_only, ↓ite_only, ite_self, h0, h1, h2, h3, h4, h5, h6]

theorem sendTime_only {ks : List Comp} {r : State} (p : PortNo) (s : State)
    (h0 : Comp.out ∈ ks) :
    ChangesOnly ks r (sendTime p s) ↔ ChangesOnly ks r s := by
  unfold sendTime; (repeat' split) <;> simp [↓emit_only, ↓ite_only, ite_self, h0]

theorem echoTimeout_only {ks : List Comp} {r : State} (p : PortNo) (s : State)
    (h0 : Comp.waits ∈ ks) (h1 : Comp.fns ∈ ks) (h2 : Comp.tick ∈ ks) (h3 : Comp.ports ∈ ks) (h4 : Comp.outst ∈ ks) (h5 : Comp.out ∈ ks) :
    ChangesOnly ks r (echoTimeout p s) ↔ ChangesOnly ks r s := by
  unfold echoTimeout; (repeat' split) <;> simp [↓syncLost_only, ↓reach_only, ↓ite_only, ite_self, h0, h1, h2, h3, h4, h5]

theorem startSync_only {ks : List Comp} {r : State} (p : Packet) (id : Nat) (s : State)
    (h0 : Comp.ports ∈ ks) :
    ChangesOnly ks r (startSync p id s) ↔ ChangesOnly ks r s := by
  unfold startSync; simp only [↓modPort_only, ↓ite_only, ite_self, h0]

theorem syncTimeout_only {ks : List Comp} {r : State} (p : PortNo) (s : State)
    (h0 : Comp.waits ∈ ks) (h1 : Comp.fns ∈ ks) (h2 : Comp.tick ∈ ks) (h3 : Comp.ports ∈ ks) (h4 : Comp.outst ∈ ks) (h5 : Comp.out ∈ ks) :
    ChangesOnly ks r (syncTimeout p s) ↔ ChangesOnly ks r s := by
  unfold syncTimeout; (repeat' split) <;> simp [↓complete_only, ↓modPort_only, ↓reach_only, ↓ite_only, ite_self, h0, h1, h2, h3, h4, h5]

theorem execAck_only {ks : List Comp} {r t : State} {lane : LaneNo} {payload : W64} {s : State}
    (e : execAck lane payload s = .next t) (h0 : Comp.slots ∈ ks) (h1 : Comp.waits ∈ ks) (h2 : Comp.fns ∈ ks) (h3 : Comp.chans ∈ ks) (h4 : Comp.lock ∈ ks) (h5 : Comp.ports ∈ ks) (h6 : Comp.outst ∈ ks) (h7 : Comp.deliveries ∈ ks) (h8 : Comp.geo ∈ ks) (h9 : Comp.faults ∈ ks) (h10 : Comp.runs ∈ ks) (h11 : Comp.frames ∈ ks) (h12 : Comp.out ∈ ks) (h13 : Comp.telem ∈ ks) (h14 : Comp.units ∈ ks) (h15 : Comp.loaded ∈ ks) (h16 : Comp.lanes ∈ ks) :
    ChangesOnly ks r t ↔ ChangesOnly ks r s := by
  injection e with e; subst e
  repeat' (first | with_reducible rfl | assumption | intro _ | (simp only [↓rxStriped_only, ↓covered__only, ↓ite_only, ite_self, h0, h1, h2, h3, h4, h5, h6, h7, h8, h9, h10, h11, h12, h13, h14, h15, h16]) | rw [foldl_fst_only] | rw [foldl_only] | rw [rxStriped_only] | split | dsimp only)

theorem execNak_only {ks : List Comp} {r t : State} {lane : LaneNo} {payload : W64} {s : State}
    (e : execNak lane payload s = .next t) (h0 : Comp.slots ∈ ks) (h1 : Comp.waits ∈ ks) (h2 : Comp.fns ∈ ks) (h3 : Comp.chans ∈ ks) (h4 : Comp.lock ∈ ks) (h5 : Comp.ports ∈ ks) (h6 : Comp.outst ∈ ks) (h7 : Comp.deliveries ∈ ks) (h8 : Comp.geo ∈ ks) (h9 : Comp.faults ∈ ks) (h10 : Comp.runs ∈ ks) (h11 : Comp.frames ∈ ks) (h12 : Comp.out ∈ ks) (h13 : Comp.telem ∈ ks) (h14 : Comp.units ∈ ks) (h15 : Comp.loaded ∈ ks) (h16 : Comp.lanes ∈ ks) :
    ChangesOnly ks r t ↔ ChangesOnly ks r s := by
  injection e with e; subst e
  repeat' (first | with_reducible rfl | assumption | intro _ | (simp only [↓rxStriped_only, ↓covered__only, ↓resend_only, ↓coverItems_only, ↓ite_only, ite_self, h0, h1, h2, h3, h4, h5, h6, h7, h8, h9, h10, h11, h12, h13, h14, h15, h16]) | rw [foldl_fst_only] | rw [foldl_only] | rw [rxStriped_only] | split | dsimp only)

theorem execReplayTimeout_only {ks : List Comp} {r t : State} {port : PortNo} {s : State}
    (e : execReplayTimeout port s = .next t) (h0 : Comp.waits ∈ ks) (h1 : Comp.fns ∈ ks) (h2 : Comp.tick ∈ ks) (h3 : Comp.ports ∈ ks) (h4 : Comp.out ∈ ks) :
    ChangesOnly ks r t ↔ ChangesOnly ks r s := by
  injection e with e; subst e; simp only [↓replayTimeout_only, ↓ite_only, ite_self, h0, h1, h2, h3, h4]

theorem execCredit_only {ks : List Comp} {r t : State} {lane : LaneNo} {payload : W64} {s : State}
    (e : execCredit lane payload s = .next t) (h0 : Comp.slots ∈ ks) (h1 : Comp.waits ∈ ks) (h2 : Comp.fns ∈ ks) (h3 : Comp.chans ∈ ks) (h4 : Comp.lock ∈ ks) (h5 : Comp.ports ∈ ks) (h6 : Comp.outst ∈ ks) (h7 : Comp.deliveries ∈ ks) (h8 : Comp.geo ∈ ks) (h9 : Comp.faults ∈ ks) (h10 : Comp.runs ∈ ks) (h11 : Comp.frames ∈ ks) (h12 : Comp.out ∈ ks) (h13 : Comp.telem ∈ ks) (h14 : Comp.units ∈ ks) (h15 : Comp.loaded ∈ ks) (h16 : Comp.lanes ∈ ks) :
    ChangesOnly ks r t ↔ ChangesOnly ks r s := by
  injection e with e; subst e
  repeat' (first | with_reducible rfl | assumption | intro _ | (simp only [↓rxStriped_only, ↓rxCredit_only, ↓ite_only, ite_self, h0, h1, h2, h3, h4, h5, h6, h7, h8, h9, h10, h11, h12, h13, h14, h15, h16]) | rw [foldl_fst_only] | rw [foldl_only] | rw [rxStriped_only] | split | dsimp only)

theorem execCreditWithdraw_only {ks : List Comp} {r t : State} {lane : LaneNo} {payload : W64} {s : State}
    (e : execCreditWithdraw lane payload s = .next t) (h0 : Comp.slots ∈ ks) (h1 : Comp.waits ∈ ks) (h2 : Comp.fns ∈ ks) (h3 : Comp.chans ∈ ks) (h4 : Comp.lock ∈ ks) (h5 : Comp.ports ∈ ks) (h6 : Comp.outst ∈ ks) (h7 : Comp.deliveries ∈ ks) (h8 : Comp.geo ∈ ks) (h9 : Comp.faults ∈ ks) (h10 : Comp.runs ∈ ks) (h11 : Comp.frames ∈ ks) (h12 : Comp.out ∈ ks) (h13 : Comp.telem ∈ ks) (h14 : Comp.units ∈ ks) (h15 : Comp.loaded ∈ ks) (h16 : Comp.lanes ∈ ks) :
    ChangesOnly ks r t ↔ ChangesOnly ks r s := by
  injection e with e; subst e
  repeat' (first | with_reducible rfl | assumption | intro _ | (simp only [↓rxStriped_only, ↓rxCredit_only, ↓ite_only, ite_self, h0, h1, h2, h3, h4, h5, h6, h7, h8, h9, h10, h11, h12, h13, h14, h15, h16]) | rw [foldl_fst_only] | rw [foldl_only] | rw [rxStriped_only] | split | dsimp only)

theorem execCreditRefresh_only {ks : List Comp} {r t : State} {port : PortNo} {s : State}
    (e : execCreditRefresh port s = .next t) (h0 : Comp.ports ∈ ks) (h1 : Comp.out ∈ ks) :
    ChangesOnly ks r t ↔ ChangesOnly ks r s := by
  injection e with e; subst e; simp only [↓refreshCredit_only, ↓ite_only, ite_self, h0, h1]

theorem execSyncTime_only {ks : List Comp} {r t : State} {lane : LaneNo} {payload : W64} {s : State}
    (e : execSyncTime lane payload s = .next t) (h0 : Comp.slots ∈ ks) (h1 : Comp.waits ∈ ks) (h2 : Comp.fns ∈ ks) (h3 : Comp.chans ∈ ks) (h4 : Comp.lock ∈ ks) (h5 : Comp.ports ∈ ks) (h6 : Comp.outst ∈ ks) (h7 : Comp.deliveries ∈ ks) (h8 : Comp.geo ∈ ks) (h9 : Comp.faults ∈ ks) (h10 : Comp.runs ∈ ks) (h11 : Comp.frames ∈ ks) (h12 : Comp.out ∈ ks) (h13 : Comp.telem ∈ ks) (h14 : Comp.units ∈ ks) (h15 : Comp.loaded ∈ ks) (h16 : Comp.lanes ∈ ks) :
    ChangesOnly ks r t ↔ ChangesOnly ks r s := by
  injection e with e; subst e
  repeat' (first | with_reducible rfl | assumption | intro _ | (simp only [↓rxStriped_only, ↓rxTime_only, ↓ite_only, ite_self, h0, h1, h2, h3, h4, h5, h6, h7, h8, h9, h10, h11, h12, h13, h14, h15, h16]) | rw [foldl_fst_only] | rw [foldl_only] | rw [rxStriped_only] | split | dsimp only)

theorem execEcho_only {ks : List Comp} {r t : State} {lane : LaneNo} {payload : W64} {s : State}
    (e : execEcho lane payload s = .next t) (h0 : Comp.slots ∈ ks) (h1 : Comp.waits ∈ ks) (h2 : Comp.fns ∈ ks) (h3 : Comp.chans ∈ ks) (h4 : Comp.tick ∈ ks) (h5 : Comp.lock ∈ ks) (h6 : Comp.ports ∈ ks) (h7 : Comp.outst ∈ ks) (h8 : Comp.deliveries ∈ ks) (h9 : Comp.geo ∈ ks) (h10 : Comp.faults ∈ ks) (h11 : Comp.withhold ∈ ks) (h12 : Comp.runs ∈ ks) (h13 : Comp.frames ∈ ks) (h14 : Comp.out ∈ ks) (h15 : Comp.telem ∈ ks) (h16 : Comp.units ∈ ks) (h17 : Comp.loaded ∈ ks) (h18 : Comp.lanes ∈ ks) :
    ChangesOnly ks r t ↔ ChangesOnly ks r s := by
  injection e with e; subst e
  repeat' (first | with_reducible rfl | assumption | intro _ | (simp only [↓rxStriped_only, ↓rxEcho_only, ↓ite_only, ite_self, h0, h1, h2, h3, h4, h5, h6, h7, h8, h9, h10, h11, h12, h13, h14, h15, h16, h17, h18]) | rw [foldl_fst_only] | rw [foldl_only] | rw [rxStriped_only] | split | dsimp only)

theorem execTimeTransmit_only {ks : List Comp} {r t : State} {port : PortNo} {s : State}
    (e : execTimeTransmit port s = .next t) (h0 : Comp.out ∈ ks) :
    ChangesOnly ks r t ↔ ChangesOnly ks r s := by
  injection e with e; subst e; simp only [↓sendTime_only, ↓ite_only, ite_self, h0]

theorem execEchoTimeout_only {ks : List Comp} {r t : State} {port : PortNo} {s : State}
    (e : execEchoTimeout port s = .next t) (h0 : Comp.waits ∈ ks) (h1 : Comp.fns ∈ ks) (h2 : Comp.tick ∈ ks) (h3 : Comp.ports ∈ ks) (h4 : Comp.outst ∈ ks) (h5 : Comp.out ∈ ks) :
    ChangesOnly ks r t ↔ ChangesOnly ks r s := by
  injection e with e; subst e; simp only [↓echoTimeout_only, ↓ite_only, ite_self, h0, h1, h2, h3, h4, h5]

theorem execTickSync_only {ks : List Comp} {r t : State} {fn : FnNo} {qp : QpNo} {pkt : Packet} {s : State}
    (e : execTickSync fn qp pkt s = .next t) (h0 : Comp.nextId ∈ ks) (h1 : Comp.fns ∈ ks) (h2 : Comp.ports ∈ ks) (h3 : Comp.outst ∈ ks) (h4 : Comp.out ∈ ks) :
    ChangesOnly ks r t ↔ ChangesOnly ks r s := by
  injection e with e; subst e
  repeat' (first | with_reducible rfl | assumption | intro _ | (simp only [↓longCommand_only, ↓startSync_only, ↓ite_only, ite_self, h0, h1, h2, h3, h4]) | rw [foldl_fst_only] | rw [foldl_only] | rw [longCommand_only] | split | dsimp only)

theorem execTickSyncTimeout_only {ks : List Comp} {r t : State} {port : PortNo} {s : State}
    (e : execTickSyncTimeout port s = .next t) (h0 : Comp.waits ∈ ks) (h1 : Comp.fns ∈ ks) (h2 : Comp.tick ∈ ks) (h3 : Comp.ports ∈ ks) (h4 : Comp.outst ∈ ks) (h5 : Comp.out ∈ ks) :
    ChangesOnly ks r t ↔ ChangesOnly ks r s := by
  injection e with e; subst e; simp only [↓syncTimeout_only, ↓ite_only, ite_self, h0, h1, h2, h3, h4, h5]

end Sys2Proof.Machine
end

