-- ==== Sys2Proof/Laws/ChangesUnits.lean ====
section
/-!
SUPPORT. What each operation of the model may change: slots, strata, lock-step, pool commands, Slate, units, external memory, host registers and service.
-/

set_option linter.all false

namespace Sys2Proof.Machine

/-! ### Slots -/

theorem setSlots_only {ks : List Comp} {r : State} (s : State) (n : FnNo) (share : Nat)
    (h0 : Comp.slots ∈ ks) :
    ChangesOnly ks r (State.setSlots s n share) ↔ ChangesOnly ks r s := by
  unfold State.setSlots; simp only [↓upd_slots_only, ↓ite_only, ite_self, h0]

theorem dropSlots_only {ks : List Comp} {r : State} (s : State) (n : FnNo)
    (h0 : Comp.slots ∈ ks) :
    ChangesOnly ks r (State.dropSlots s n) ↔ ChangesOnly ks r s := by
  unfold State.dropSlots; simp only [↓upd_slots_only, ↓ite_only, ite_self, h0]

theorem arbitrationSet_only {ks : List Comp} {r : State} (s : State) (n : FnNo)
    (h0 : Comp.waits ∈ ks) (h1 : Comp.fns ∈ ks) (h2 : Comp.out ∈ ks) :
    ChangesOnly ks r (State.arbitrationSet s n) ↔ ChangesOnly ks r s := by
  unfold State.arbitrationSet; simp only [↓occurAll_only, ↓ite_only, ite_self, h0, h1, h2]

theorem answerAwaiting_only {ks : List Comp} {r : State} (s : State) (fn : FnNo) (qp : QpNo)
    (h0 : Comp.barriers ∈ ks) (h1 : Comp.fns ∈ ks) (h2 : Comp.out ∈ ks) :
    ChangesOnly ks r (State.answerAwaiting s fn qp) ↔ ChangesOnly ks r s := by
  unfold State.answerAwaiting; (repeat' split) <;> simp [↓modQp_only, ↓settleQueue_only, ↓afterReply_only, ↓reply_only, ↓upd_barriers_only, ↓ite_only, ite_self, h0, h1, h2]

theorem applyTerms_only {ks : List Comp} {r : State} (s : State)
    (h0 : Comp.slots ∈ ks) (h1 : Comp.strata ∈ ks) :
    ChangesOnly ks r (State.applyTerms s) ↔ ChangesOnly ks r s := by
  unfold State.applyTerms; simp [↓modStratum_only, ↓upd_slots_only, ↓forEach_only, ↓ite_only, ite_self, h0, h1]

theorem startRound_only {ks : List Comp} {r : State} (s : State)
    (h0 : Comp.slots ∈ ks) (h1 : Comp.barriers ∈ ks) (h2 : Comp.waits ∈ ks) (h3 : Comp.fns ∈ ks) (h4 : Comp.chans ∈ ks) (h5 : Comp.tick ∈ ks) (h6 : Comp.ports ∈ ks) (h7 : Comp.ext ∈ ks) (h8 : Comp.geo ∈ ks) (h9 : Comp.strata ∈ ks) (h10 : Comp.out ∈ ks) (h11 : Comp.telem ∈ ks) :
    ChangesOnly ks r (startRound s) ↔ ChangesOnly ks r s := by
  unfold startRound
  repeat' (first | with_reducible rfl | (simp only [↓applyTerms_only, ↓reach_only, ↓restoreTiming_only, ↓arbitrationSet_only, ↓answerAwaiting_only, ↓pumpChans_only, ↓upd_ext_only, ↓upd_ext_slots_only, ↓upd_slots_only, ↓forEach_only, ↓ite_only, ite_self, h0, h1, h2, h3, h4, h5, h6, h7, h8, h9, h10, h11]) | with_reducible (refine (forEach_only (fun _ _ => ?_) _ _).trans ?_) | split | dsimp only)

theorem endSlot_only {ks : List Comp} {r : State} (s : State)
    (h0 : Comp.waits ∈ ks) (h1 : Comp.fns ∈ ks) (h2 : Comp.chans ∈ ks) (h3 : Comp.tick ∈ ks) (h4 : Comp.ports ∈ ks) (h5 : Comp.geo ∈ ks) (h6 : Comp.out ∈ ks) (h7 : Comp.telem ∈ ks) :
    ChangesOnly ks r (endSlot s) ↔ ChangesOnly ks r s := by
  unfold endSlot
  repeat' (first | with_reducible rfl | (simp only [↓pumpChans_only, ↓reach_only, ↓ite_only, ite_self, h0, h1, h2, h3, h4, h5, h6, h7]) | with_reducible (refine (forEach_only (fun _ _ => ?_) _ _).trans ?_) | split | dsimp only)

theorem execRoundStart_only {ks : List Comp} {r t : State} {s : State}
    (e : execRoundStart s = .next t) (h0 : Comp.slots ∈ ks) (h1 : Comp.barriers ∈ ks) (h2 : Comp.waits ∈ ks) (h3 : Comp.fns ∈ ks) (h4 : Comp.chans ∈ ks) (h5 : Comp.tick ∈ ks) (h6 : Comp.ports ∈ ks) (h7 : Comp.ext ∈ ks) (h8 : Comp.geo ∈ ks) (h9 : Comp.strata ∈ ks) (h10 : Comp.out ∈ ks) (h11 : Comp.telem ∈ ks) :
    ChangesOnly ks r t ↔ ChangesOnly ks r s := by
  injection e with e; subst e; simp only [↓startRound_only, ↓ite_only, ite_self, h0, h1, h2, h3, h4, h5, h6, h7, h8, h9, h10, h11]

theorem execSlotBoundary_only {ks : List Comp} {r t : State} {s : State}
    (e : execSlotBoundary s = .next t) (h0 : Comp.waits ∈ ks) (h1 : Comp.fns ∈ ks) (h2 : Comp.chans ∈ ks) (h3 : Comp.tick ∈ ks) (h4 : Comp.ports ∈ ks) (h5 : Comp.geo ∈ ks) (h6 : Comp.out ∈ ks) (h7 : Comp.telem ∈ ks) :
    ChangesOnly ks r t ↔ ChangesOnly ks r s := by
  injection e with e; subst e; simp only [↓endSlot_only, ↓ite_only, ite_self, h0, h1, h2, h3, h4, h5, h6, h7]

/-! ### Strata -/

theorem zeroCluster_only {ks : List Comp} {r : State} (s : State) (c : PhysNo)
    (h0 : Comp.clusters ∈ ks) (h1 : Comp.scratch ∈ ks) :
    ChangesOnly ks r (State.zeroCluster s c) ↔ ChangesOnly ks r s := by
  unfold State.zeroCluster; simp only [↓upd_clusters_only, ↓upd_scratch_clusters_only, ↓upd_scratch_only, ↓ite_only, ite_self, h0, h1]

theorem stripChanged_only {ks : List Comp} {r : State} (s : State)
    (h0 : Comp.panel ∈ ks) :
    ChangesOnly ks r (State.stripChanged s) ↔ ChangesOnly ks r s := by
  unfold State.stripChanged; simp only [↓upd_panel_only, ↓ite_only, ite_self, h0]

theorem whiten_only {ks : List Comp} {r : State} (s : State) (rr : Nat)
    (h0 : Comp.panel ∈ ks) :
    ChangesOnly ks r (State.whiten s rr) ↔ ChangesOnly ks r s := by
  unfold State.whiten; simp only [↓upd_panel_only, ↓ite_only, ite_self, h0]

theorem zeroCounters_only {ks : List Comp} {r : State} (s : State) (n : FnNo)
    (h0 : Comp.telem ∈ ks) :
    ChangesOnly ks r (State.zeroCounters s n) ↔ ChangesOnly ks r s := by
  unfold State.zeroCounters; simp only [↓upd_telem_only, ↓ite_only, ite_self, h0]

theorem createStratum_only {ks : List Comp} {r : State} (p : Packet) (s : State)
    (h0 : Comp.jtag ∈ ks) (h1 : Comp.slots ∈ ks) (h2 : Comp.waits ∈ ks) (h3 : Comp.progs ∈ ks) (h4 : Comp.fns ∈ ks) (h5 : Comp.chans ∈ ks) (h6 : Comp.clusters ∈ ks) (h7 : Comp.lock ∈ ks) (h8 : Comp.ports ∈ ks) (h9 : Comp.outst ∈ ks) (h10 : Comp.deliveries ∈ ks) (h11 : Comp.geo ∈ ks) (h12 : Comp.panel ∈ ks) (h13 : Comp.scratch ∈ ks) (h14 : Comp.runs ∈ ks) (h15 : Comp.frames ∈ ks) (h16 : Comp.strata ∈ ks) (h17 : Comp.out ∈ ks) (h18 : Comp.telem ∈ ks) (h19 : Comp.free ∈ ks) (h20 : Comp.loaded ∈ ks) (h21 : Comp.repro ∈ ks) :
    ChangesOnly ks r (createStratum p s).1 ↔ ChangesOnly ks r s := by
  unfold createStratum; simp [↓draw_only, ↓zeroCluster_only, ↓stripChanged_only, ↓zeroCounters_only, ↓modStratum_only, ↓modRepro_only, ↓setSlots_only, ↓clustersChanged_only, ↓settlePool_only, ↓reclaimAll_only, ↓reproBegin_only, ↓upd_jtag_only, ↓forEach_only, ↓ite_only, ite_self, h0, h1, h2, h3, h4, h5, h6, h7, h8, h9, h10, h11, h12, h13, h14, h15, h16, h17, h18, h19, h20, h21]

theorem acceptDestroy_only {ks : List Comp} {r : State} (n : FnNo) (id : Nat) (s : State)
    (h0 : Comp.panel ∈ ks) (h1 : Comp.strata ∈ ks) :
    ChangesOnly ks r (acceptDestroy n id s) ↔ ChangesOnly ks r s := by
  unfold acceptDestroy; simp only [↓stripChanged_only, ↓modStratum_only, ↓ite_only, ite_self, h0, h1]

theorem dropPair_only {ks : List Comp} {r : State} (s : State) (n : FnNo)
    (h0 : Comp.waits ∈ ks) (h1 : Comp.fns ∈ ks) (h2 : Comp.chans ∈ ks) (h3 : Comp.lock ∈ ks) (h4 : Comp.ports ∈ ks) (h5 : Comp.outst ∈ ks) (h6 : Comp.deliveries ∈ ks) (h7 : Comp.geo ∈ ks) (h8 : Comp.runs ∈ ks) (h9 : Comp.frames ∈ ks) (h10 : Comp.out ∈ ks) (h11 : Comp.telem ∈ ks) (h12 : Comp.loaded ∈ ks) :
    ChangesOnly ks r (State.dropPair s n) ↔ ChangesOnly ks r s := by
  unfold State.dropPair; (repeat' split) <;> simp [↓complete_only, ↓endPair_only, ↓modLock_only, ↓ite_only, ite_self, h0, h1, h2, h3, h4, h5, h6, h7, h8, h9, h10, h11, h12]

theorem unbindAll_only {ks : List Comp} {r : State} (s : State) (n : FnNo)
    (h0 : Comp.waits ∈ ks) (h1 : Comp.fns ∈ ks) (h2 : Comp.chans ∈ ks) (h3 : Comp.lock ∈ ks) (h4 : Comp.ports ∈ ks) (h5 : Comp.outst ∈ ks) (h6 : Comp.deliveries ∈ ks) (h7 : Comp.geo ∈ ks) (h8 : Comp.runs ∈ ks) (h9 : Comp.frames ∈ ks) (h10 : Comp.out ∈ ks) (h11 : Comp.telem ∈ ks) (h12 : Comp.loaded ∈ ks) :
    ChangesOnly ks r (State.unbindAll s n) ↔ ChangesOnly ks r s := by
  unfold State.unbindAll; (repeat' split) <;> (try (refine (forEach_only (fun _ _ => ?_) _ _).trans ?_)) <;> (try dsimp only) <;> (repeat' split) <;> simp [↓unbindNow_only, ↓completeOk_only, ↓forEach_only, ↓ite_only, ite_self, h0, h1, h2, h3, h4, h5, h6, h7, h8, h9, h10, h11, h12]

theorem zeroStratum_only {ks : List Comp} {r : State} (s : State) (n : FnNo)
    (h0 : Comp.mprogs ∈ ks) (h1 : Comp.clusters ∈ ks) (h2 : Comp.ext ∈ ks) (h3 : Comp.geo ∈ ks) (h4 : Comp.scratch ∈ ks) (h5 : Comp.strata ∈ ks) (h6 : Comp.tables ∈ ks) :
    ChangesOnly ks r (State.zeroStratum s n) ↔ ChangesOnly ks r s := by
  unfold State.zeroStratum; simp [↓release_only, ↓zeroCluster_only, ↓upd_mprogs_only, ↓upd_tables_only, ↓upd_tables_mprogs_only, ↓forEach_only, ↓ite_only, ite_self, h0, h1, h2, h3, h4, h5, h6]

theorem destroyStratum_only {ks : List Comp} {r : State} (n : FnNo) (s : State)
    (h0 : Comp.mprogs ∈ ks) (h1 : Comp.slots ∈ ks) (h2 : Comp.barriers ∈ ks) (h3 : Comp.waits ∈ ks) (h4 : Comp.progs ∈ ks) (h5 : Comp.copies ∈ ks) (h6 : Comp.fns ∈ ks) (h7 : Comp.chans ∈ ks) (h8 : Comp.clusters ∈ ks) (h9 : Comp.lock ∈ ks) (h10 : Comp.ports ∈ ks) (h11 : Comp.outst ∈ ks) (h12 : Comp.ext ∈ ks) (h13 : Comp.logReads ∈ ks) (h14 : Comp.scheduled ∈ ks) (h15 : Comp.deliveries ∈ ks) (h16 : Comp.geo ∈ ks) (h17 : Comp.tableLoads ∈ ks) (h18 : Comp.panel ∈ ks) (h19 : Comp.mprogLoads ∈ ks) (h20 : Comp.scratch ∈ ks) (h21 : Comp.runs ∈ ks) (h22 : Comp.frames ∈ ks) (h23 : Comp.strata ∈ ks) (h24 : Comp.out ∈ ks) (h25 : Comp.telem ∈ ks) (h26 : Comp.nv ∈ ks) (h27 : Comp.tables ∈ ks) (h28 : Comp.stores ∈ ks) (h29 : Comp.loaded ∈ ks) (h30 : Comp.repro ∈ ks) :
    ChangesOnly ks r (destroyStratum n s) ↔ ChangesOnly ks r s := by
  unfold destroyStratum; simp only [↓forgetWork_only, ↓endCommands_only, ↓abortWaiting_only, ↓abortAll_only, ↓zeroStratum_only, ↓unbindAll_only, ↓dropPair_only, ↓zeroCounters_only, ↓whiten_only, ↓dropSlots_only, ↓modStratum_only, ↓modRepro_only, ↓settlePool_only, ↓reclaimAll_only, ↓clustersChanged_only, ↓completeOk_only, ↓upd_progs_only, ↓ite_only, ite_self, h0, h1, h2, h3, h4, h5, h6, h7, h8, h9, h10, h11, h12, h13, h14, h15, h16, h17, h18, h19, h20, h21, h22, h23, h24, h25, h26, h27, h28, h29, h30]

theorem setArbitration_only {ks : List Comp} {r : State} (p : Packet) (s : State)
    (h0 : Comp.slots ∈ ks) (h1 : Comp.panel ∈ ks) :
    ChangesOnly ks r (setArbitration p s) ↔ ChangesOnly ks r s := by
  unfold setArbitration; simp only [↓stripChanged_only, ↓setSlots_only, ↓upd_slots_only, ↓ite_only, ite_self, h0, h1]

theorem setMode_only {ks : List Comp} {r : State} (n : FnNo) (attr : BitVec 8) (s : State)
    (h0 : Comp.waits ∈ ks) (h1 : Comp.fns ∈ ks) (h2 : Comp.chans ∈ ks) (h3 : Comp.lock ∈ ks) (h4 : Comp.ports ∈ ks) (h5 : Comp.outst ∈ ks) (h6 : Comp.deliveries ∈ ks) (h7 : Comp.geo ∈ ks) (h8 : Comp.panel ∈ ks) (h9 : Comp.runs ∈ ks) (h10 : Comp.frames ∈ ks) (h11 : Comp.strata ∈ ks) (h12 : Comp.out ∈ ks) (h13 : Comp.telem ∈ ks) (h14 : Comp.loaded ∈ ks) (h15 : Comp.repro ∈ ks) :
    ChangesOnly ks r (setMode n attr s).1 ↔ ChangesOnly ks r s := by
  unfold setMode; simp only [↓modStratum_only, ↓stripChanged_only, ↓reproBegin_only, ↓modRepro_only, ↓reproBreak_only, ↓endPair_only, ↓ite_only, ite_self, h0, h1, h2, h3, h4, h5, h6, h7, h8, h9, h10, h11, h12, h13, h14, h15]

theorem execStratumCreate_only {ks : List Comp} {r t : State} {fn : FnNo} {qp : QpNo} {pkt : Packet} {s : State}
    (e : execStratumCreate fn qp pkt s = .next t) (h0 : Comp.jtag ∈ ks) (h1 : Comp.slots ∈ ks) (h2 : Comp.waits ∈ ks) (h3 : Comp.progs ∈ ks) (h4 : Comp.fns ∈ ks) (h5 : Comp.chans ∈ ks) (h6 : Comp.clusters ∈ ks) (h7 : Comp.lock ∈ ks) (h8 : Comp.ports ∈ ks) (h9 : Comp.outst ∈ ks) (h10 : Comp.deliveries ∈ ks) (h11 : Comp.geo ∈ ks) (h12 : Comp.panel ∈ ks) (h13 : Comp.scratch ∈ ks) (h14 : Comp.runs ∈ ks) (h15 : Comp.frames ∈ ks) (h16 : Comp.strata ∈ ks) (h17 : Comp.out ∈ ks) (h18 : Comp.telem ∈ ks) (h19 : Comp.free ∈ ks) (h20 : Comp.loaded ∈ ks) (h21 : Comp.repro ∈ ks) :
    ChangesOnly ks r t ↔ ChangesOnly ks r s := by
  injection e with e; subst e
  repeat' (first | with_reducible rfl | assumption | intro _ | (simp only [↓shortCommand_only, ↓createStratum_only, ↓ite_only, ite_self, h0, h1, h2, h3, h4, h5, h6, h7, h8, h9, h10, h11, h12, h13, h14, h15, h16, h17, h18, h19, h20, h21]) | rw [foldl_fst_only] | rw [foldl_only] | rw [shortCommand_only] | split | dsimp only)

theorem execStratumDestroy_only {ks : List Comp} {r t : State} {fn : FnNo} {qp : QpNo} {pkt : Packet} {s : State}
    (e : execStratumDestroy fn qp pkt s = .next t) (h0 : Comp.nextId ∈ ks) (h1 : Comp.fns ∈ ks) (h2 : Comp.outst ∈ ks) (h3 : Comp.panel ∈ ks) (h4 : Comp.strata ∈ ks) (h5 : Comp.out ∈ ks) :
    ChangesOnly ks r t ↔ ChangesOnly ks r s := by
  injection e with e; subst e
  repeat' (first | with_reducible rfl | assumption | intro _ | (simp only [↓longCommand_only, ↓acceptDestroy_only, ↓ite_only, ite_self, h0, h1, h2, h3, h4, h5]) | rw [foldl_fst_only] | rw [foldl_only] | rw [longCommand_only] | split | dsimp only)

theorem execStratumDestroyComplete_only {ks : List Comp} {r t : State} {target : FnNo} {s : State}
    (e : execStratumDestroyComplete target s = .next t) (h0 : Comp.mprogs ∈ ks) (h1 : Comp.slots ∈ ks) (h2 : Comp.barriers ∈ ks) (h3 : Comp.waits ∈ ks) (h4 : Comp.progs ∈ ks) (h5 : Comp.copies ∈ ks) (h6 : Comp.fns ∈ ks) (h7 : Comp.chans ∈ ks) (h8 : Comp.clusters ∈ ks) (h9 : Comp.lock ∈ ks) (h10 : Comp.ports ∈ ks) (h11 : Comp.outst ∈ ks) (h12 : Comp.ext ∈ ks) (h13 : Comp.logReads ∈ ks) (h14 : Comp.scheduled ∈ ks) (h15 : Comp.deliveries ∈ ks) (h16 : Comp.geo ∈ ks) (h17 : Comp.tableLoads ∈ ks) (h18 : Comp.panel ∈ ks) (h19 : Comp.mprogLoads ∈ ks) (h20 : Comp.scratch ∈ ks) (h21 : Comp.runs ∈ ks) (h22 : Comp.frames ∈ ks) (h23 : Comp.strata ∈ ks) (h24 : Comp.out ∈ ks) (h25 : Comp.telem ∈ ks) (h26 : Comp.nv ∈ ks) (h27 : Comp.tables ∈ ks) (h28 : Comp.stores ∈ ks) (h29 : Comp.loaded ∈ ks) (h30 : Comp.repro ∈ ks) :
    ChangesOnly ks r t ↔ ChangesOnly ks r s := by
  injection e with e; subst e; simp only [↓destroyStratum_only, ↓ite_only, ite_self, h0, h1, h2, h3, h4, h5, h6, h7, h8, h9, h10, h11, h12, h13, h14, h15, h16, h17, h18, h19, h20, h21, h22, h23, h24, h25, h26, h27, h28, h29, h30]

theorem execStratumQuery_only {ks : List Comp} {r t : State} {fn : FnNo} {qp : QpNo} {pkt : Packet} {s : State}
    (e : execStratumQuery fn qp pkt s = .next t) (h0 : Comp.fns ∈ ks) (h1 : Comp.out ∈ ks) :
    ChangesOnly ks r t ↔ ChangesOnly ks r s := by
  injection e with e; subst e
  repeat' (first | with_reducible rfl | assumption | intro _ | (simp only [↓shortCommand_only, ↓writeBlock_only, ↓ite_only, ite_self, h0, h1]) | rw [foldl_fst_only] | rw [foldl_only] | rw [shortCommand_only] | split | dsimp only)

theorem execStratumSetArbitration_only {ks : List Comp} {r t : State} {fn : FnNo} {qp : QpNo} {pkt : Packet} {s : State}
    (e : execStratumSetArbitration fn qp pkt s = .next t) (h0 : Comp.slots ∈ ks) (h1 : Comp.fns ∈ ks) (h2 : Comp.panel ∈ ks) (h3 : Comp.out ∈ ks) :
    ChangesOnly ks r t ↔ ChangesOnly ks r s := by
  injection e with e; subst e
  repeat' (first | with_reducible rfl | assumption | intro _ | (simp only [↓takeCommand_only, ↓cancelReply_only, ↓rejectReply_only, ↓modQp_only, ↓setArbitration_only, ↓ite_only, ite_self, h0, h1, h2, h3]) | rw [foldl_fst_only] | rw [foldl_only] | rw [takeCommand_only] | split | dsimp only)

theorem execStratumSetMode_only {ks : List Comp} {r t : State} {fn : FnNo} {qp : QpNo} {pkt : Packet} {s : State}
    (e : execStratumSetMode fn qp pkt s = .next t) (h0 : Comp.waits ∈ ks) (h1 : Comp.fns ∈ ks) (h2 : Comp.chans ∈ ks) (h3 : Comp.lock ∈ ks) (h4 : Comp.ports ∈ ks) (h5 : Comp.outst ∈ ks) (h6 : Comp.deliveries ∈ ks) (h7 : Comp.geo ∈ ks) (h8 : Comp.panel ∈ ks) (h9 : Comp.runs ∈ ks) (h10 : Comp.frames ∈ ks) (h11 : Comp.strata ∈ ks) (h12 : Comp.out ∈ ks) (h13 : Comp.telem ∈ ks) (h14 : Comp.loaded ∈ ks) (h15 : Comp.repro ∈ ks) :
    ChangesOnly ks r t ↔ ChangesOnly ks r s := by
  injection e with e; subst e
  repeat' (first | with_reducible rfl | assumption | intro _ | (simp only [↓shortCommand_only, ↓setMode_only, ↓ite_only, ite_self, h0, h1, h2, h3, h4, h5, h6, h7, h8, h9, h10, h11, h12, h13, h14, h15]) | rw [foldl_fst_only] | rw [foldl_only] | rw [shortCommand_only] | split | dsimp only)

/-! ### Lockstep -/

theorem tryPair_only {ks : List Comp} {r : State} (s : State)
    (h0 : Comp.waits ∈ ks) (h1 : Comp.fns ∈ ks) (h2 : Comp.lock ∈ ks) (h3 : Comp.outst ∈ ks) (h4 : Comp.geo ∈ ks) (h5 : Comp.out ∈ ks) :
    ChangesOnly ks r (State.tryPair s) ↔ ChangesOnly ks r s := by
  unfold State.tryPair; (repeat' split) <;> simp [↓completeOk_only, ↓takeLogGranules_only, ↓modLock_only, ↓portCommandEnds_only, ↓ite_only, ite_self, h0, h1, h2, h3, h4, h5]

theorem pairTimeout_only {ks : List Comp} {r : State} (s : State)
    (h0 : Comp.waits ∈ ks) (h1 : Comp.fns ∈ ks) (h2 : Comp.tick ∈ ks) (h3 : Comp.lock ∈ ks) (h4 : Comp.outst ∈ ks) (h5 : Comp.out ∈ ks) :
    ChangesOnly ks r (pairTimeout s) ↔ ChangesOnly ks r s := by
  unfold pairTimeout; (repeat' split) <;> simp [↓portCommandEnds_only, ↓modLock_only, ↓reach_only, ↓ite_only, ite_self, h0, h1, h2, h3, h4, h5]

theorem acceptLock_only {ks : List Comp} {r : State} (s : State) (p : PortNo) (h : RxHead) (bytes : List Byte)
    {f : List Byte → State → State} (h0 : Comp.waits ∈ ks) (h1 : Comp.fns ∈ ks) (h2 : Comp.chans ∈ ks) (h3 : Comp.ports ∈ ks) (h4 : Comp.geo ∈ ks) (h5 : Comp.frames ∈ ks) (h6 : Comp.out ∈ ks) (h7 : Comp.telem ∈ ks) (hf : ∀ b t, ChangesOnly ks r (f b t) ↔ ChangesOnly ks r t) :
    ChangesOnly ks r (s.acceptLock p h bytes f) ↔ ChangesOnly ks r s := by
  unfold State.acceptLock
  dsimp only
  (repeat' split) <;> simp only [↓areaCredit_only, ↓violation_only, ↓hf, ↓modPort_only, ↓settlePool_only,
    ↓consumeUnbound_only, ↓addUsed_only, ↓dropWhole_only, ↓consume_only, h0, h1, h2, h3, h4, h5, h6, h7]

theorem rxLockRow_only {ks : List Comp} {r : State} (kind : Nat) (p : PortNo) (bytes : List Byte)
    {f : List Byte → State → State} (s : State) (h0 : Comp.waits ∈ ks) (h1 : Comp.fns ∈ ks) (h2 : Comp.chans ∈ ks) (h3 : Comp.ports ∈ ks) (h4 : Comp.geo ∈ ks) (h5 : Comp.frames ∈ ks) (h6 : Comp.out ∈ ks) (h7 : Comp.telem ∈ ks) (hf : ∀ b t, ChangesOnly ks r (f b t) ↔ ChangesOnly ks r t) :
    ChangesOnly ks r (rxLockRow kind p bytes f s) ↔ ChangesOnly ks r s := by
  unfold rxLockRow
  dsimp only
  split
  · apply rxFrameRow_only <;> first | assumption | (intro h b t; apply acceptLock_only <;> assumption)
  · split
    · apply rxFrameRow_only <;> first
        | assumption
        | (intro h b t; apply acceptLock_only <;> first | assumption | (intro b t; rfl))
    · rfl

theorem peerDigest_only {ks : List Comp} {r : State} (s : State) (d : Digest)
    (h0 : Comp.waits ∈ ks) (h1 : Comp.fns ∈ ks) (h2 : Comp.chans ∈ ks) (h3 : Comp.lock ∈ ks) (h4 : Comp.ports ∈ ks) (h5 : Comp.outst ∈ ks) (h6 : Comp.deliveries ∈ ks) (h7 : Comp.geo ∈ ks) (h8 : Comp.runs ∈ ks) (h9 : Comp.frames ∈ ks) (h10 : Comp.out ∈ ks) (h11 : Comp.telem ∈ ks) (h12 : Comp.loaded ∈ ks) :
    ChangesOnly ks r (State.peerDigest s d) ↔ ChangesOnly ks r s := by
  unfold State.peerDigest; (repeat' split) <;> simp [↓compareDigests_only, ↓modLock_only, ↓ite_only, ite_self, h0, h1, h2, h3, h4, h5, h6, h7, h8, h9, h10, h11, h12]

theorem takeDigests_only {ks : List Comp} {r : State} (b : List Byte) (s : State)
    (h0 : Comp.waits ∈ ks) (h1 : Comp.fns ∈ ks) (h2 : Comp.chans ∈ ks) (h3 : Comp.lock ∈ ks) (h4 : Comp.ports ∈ ks) (h5 : Comp.outst ∈ ks) (h6 : Comp.deliveries ∈ ks) (h7 : Comp.geo ∈ ks) (h8 : Comp.runs ∈ ks) (h9 : Comp.frames ∈ ks) (h10 : Comp.out ∈ ks) (h11 : Comp.telem ∈ ks) (h12 : Comp.loaded ∈ ks) :
    ChangesOnly ks r (takeDigests b s) ↔ ChangesOnly ks r s := by
  unfold takeDigests; simp [↓peerDigest_only, ↓forEach_only, ↓ite_only, ite_self, h0, h1, h2, h3, h4, h5, h6, h7, h8, h9, h10, h11, h12]

theorem dropLog_only {ks : List Comp} {r : State} (s : State) (chan : Nat) (q : Nat)
    (h0 : Comp.lock ∈ ks) :
    ChangesOnly ks r (State.dropLog s chan q) ↔ ChangesOnly ks r s := by
  unfold State.dropLog; simp only [↓modLock_only, ↓ite_only, ite_self, h0]

theorem answerLog_only {ks : List Comp} {r : State} (s : State) (chan : Nat) (q : Nat)
    (h0 : Comp.waits ∈ ks) (h1 : Comp.fns ∈ ks) (h2 : Comp.chans ∈ ks) (h3 : Comp.lock ∈ ks) (h4 : Comp.ports ∈ ks) (h5 : Comp.outst ∈ ks) (h6 : Comp.deliveries ∈ ks) (h7 : Comp.geo ∈ ks) (h8 : Comp.runs ∈ ks) (h9 : Comp.frames ∈ ks) (h10 : Comp.out ∈ ks) (h11 : Comp.telem ∈ ks) (h12 : Comp.loaded ∈ ks) :
    ChangesOnly ks r (State.answerLog s chan q) ↔ ChangesOnly ks r s := by
  simp only [State.answerLog]; (repeat' split) <;> simp [↓lockSend_only, ↓dropLog_only, ↓modLock_only, ↓forEach_only, ↓ite_only, ite_self, h0, h1, h2, h3, h4, h5, h6, h7, h8, h9, h10, h11, h12]

theorem takeLogReq_only {ks : List Comp} {r : State} (b : List Byte) (s : State)
    (h0 : Comp.waits ∈ ks) (h1 : Comp.fns ∈ ks) (h2 : Comp.chans ∈ ks) (h3 : Comp.lock ∈ ks) (h4 : Comp.ports ∈ ks) (h5 : Comp.outst ∈ ks) (h6 : Comp.deliveries ∈ ks) (h7 : Comp.geo ∈ ks) (h8 : Comp.runs ∈ ks) (h9 : Comp.frames ∈ ks) (h10 : Comp.out ∈ ks) (h11 : Comp.telem ∈ ks) (h12 : Comp.loaded ∈ ks) :
    ChangesOnly ks r (takeLogReq b s) ↔ ChangesOnly ks r s := by
  unfold takeLogReq; simp [↓answerLog_only, ↓forEach_only, ↓ite_only, ite_self, h0, h1, h2, h3, h4, h5, h6, h7, h8, h9, h10, h11, h12]

theorem compareLogs_only {ks : List Comp} {r : State} (s : State) (d : Digest) (peer : Option (List TileSig))
    (h0 : Comp.waits ∈ ks) (h1 : Comp.fns ∈ ks) (h2 : Comp.lock ∈ ks) (h3 : Comp.out ∈ ks) :
    ChangesOnly ks r (State.compareLogs s d peer) ↔ ChangesOnly ks r s := by
  unfold State.compareLogs; (repeat' split) <;> simp [↓dropLog_only, ↓modLock_only, ↓located_only, ↓ite_only, ite_self, h0, h1, h2, h3]

theorem takeLog_only {ks : List Comp} {r : State} (b : List Byte) (s : State)
    (h0 : Comp.waits ∈ ks) (h1 : Comp.fns ∈ ks) (h2 : Comp.lock ∈ ks) (h3 : Comp.out ∈ ks) :
    ChangesOnly ks r (takeLog b s) ↔ ChangesOnly ks r s := by
  simp only [takeLog]; (repeat' split) <;> simp [↓compareLogs_only, ↓modLock_only, ↓ite_only, ite_self, h0, h1, h2, h3]

theorem moveItem_only {ks : List Comp} {r : State} (s : State) (i : FwdItem)
    (h0 : Comp.waits ∈ ks) (h1 : Comp.progs ∈ ks) (h2 : Comp.fns ∈ ks) (h3 : Comp.chans ∈ ks) (h4 : Comp.clusters ∈ ks) (h5 : Comp.lock ∈ ks) (h6 : Comp.ports ∈ ks) (h7 : Comp.outst ∈ ks) (h8 : Comp.deliveries ∈ ks) (h9 : Comp.geo ∈ ks) (h10 : Comp.runs ∈ ks) (h11 : Comp.frames ∈ ks) (h12 : Comp.out ∈ ks) (h13 : Comp.telem ∈ ks) (h14 : Comp.loaded ∈ ks) :
    ChangesOnly ks r (State.moveItem s i) ↔ ChangesOnly ks r s := by
  unfold State.moveItem
  repeat' (first | with_reducible rfl | (simp only [↓settlePool_only, ↓takePayload_only, ↓takeMark_only, ↓takeNotice_only, ↓ite_only, ite_self, h0, h1, h2, h3, h4, h5, h6, h7, h8, h9, h10, h11, h12, h13, h14]) | with_reducible (refine (forEach_only (fun _ _ => ?_) _ _).trans ?_) | split | dsimp only)

theorem drainArea_only {ks : List Comp} {r : State} (s : State)
    (h0 : Comp.waits ∈ ks) (h1 : Comp.progs ∈ ks) (h2 : Comp.fns ∈ ks) (h3 : Comp.chans ∈ ks) (h4 : Comp.clusters ∈ ks) (h5 : Comp.lock ∈ ks) (h6 : Comp.ports ∈ ks) (h7 : Comp.outst ∈ ks) (h8 : Comp.deliveries ∈ ks) (h9 : Comp.geo ∈ ks) (h10 : Comp.runs ∈ ks) (h11 : Comp.frames ∈ ks) (h12 : Comp.out ∈ ks) (h13 : Comp.telem ∈ ks) (h14 : Comp.loaded ∈ ks) :
    ChangesOnly ks r (State.drainArea s) ↔ ChangesOnly ks r s := by
  unfold State.drainArea
  repeat' (first | with_reducible rfl | (simp only [↓areaCredit_only, ↓moveItem_only, ↓modLock_only, ↓forEach_only, ↓ite_only, ite_self, h0, h1, h2, h3, h4, h5, h6, h7, h8, h9, h10, h11, h12, h13, h14]) | with_reducible (refine (forEach_only (fun _ _ => ?_) _ _).trans ?_) | split | dsimp only)

theorem takeForward_only {ks : List Comp} {r : State} (b : List Byte) (s : State)
    (h0 : Comp.waits ∈ ks) (h1 : Comp.progs ∈ ks) (h2 : Comp.fns ∈ ks) (h3 : Comp.chans ∈ ks) (h4 : Comp.clusters ∈ ks) (h5 : Comp.lock ∈ ks) (h6 : Comp.ports ∈ ks) (h7 : Comp.outst ∈ ks) (h8 : Comp.deliveries ∈ ks) (h9 : Comp.geo ∈ ks) (h10 : Comp.runs ∈ ks) (h11 : Comp.frames ∈ ks) (h12 : Comp.out ∈ ks) (h13 : Comp.telem ∈ ks) (h14 : Comp.loaded ∈ ks) :
    ChangesOnly ks r (takeForward b s) ↔ ChangesOnly ks r s := by
  unfold takeForward
  repeat' (first | with_reducible rfl | (simp only [↓drainArea_only, ↓modLock_only, ↓ite_only, ite_self, h0, h1, h2, h3, h4, h5, h6, h7, h8, h9, h10, h11, h12, h13, h14]) | with_reducible (refine (forEach_only (fun _ _ => ?_) _ _).trans ?_) | split | dsimp only)

theorem takePairRecord_only {ks : List Comp} {r : State} (b : List Byte) (s : State)
    (h0 : Comp.waits ∈ ks) (h1 : Comp.fns ∈ ks) (h2 : Comp.lock ∈ ks) (h3 : Comp.outst ∈ ks) (h4 : Comp.geo ∈ ks) (h5 : Comp.out ∈ ks) :
    ChangesOnly ks r (takePairRecord b s) ↔ ChangesOnly ks r s := by
  unfold takePairRecord; simp only [↓tryPair_only, ↓modLock_only, ↓ite_only, ite_self, h0, h1, h2, h3, h4, h5]

theorem execLockstepPair_only {ks : List Comp} {r t : State} {fn : FnNo} {qp : QpNo} {pkt : Packet} {s : State}
    (e : execLockstepPair fn qp pkt s = .next t) (h0 : Comp.waits ∈ ks) (h1 : Comp.nextId ∈ ks) (h2 : Comp.fns ∈ ks) (h3 : Comp.chans ∈ ks) (h4 : Comp.lock ∈ ks) (h5 : Comp.ports ∈ ks) (h6 : Comp.outst ∈ ks) (h7 : Comp.deliveries ∈ ks) (h8 : Comp.geo ∈ ks) (h9 : Comp.runs ∈ ks) (h10 : Comp.frames ∈ ks) (h11 : Comp.out ∈ ks) (h12 : Comp.telem ∈ ks) (h13 : Comp.loaded ∈ ks) :
    ChangesOnly ks r t ↔ ChangesOnly ks r s := by
  injection e with e; subst e
  repeat' (first | with_reducible rfl | assumption | intro _ | (simp only [↓longCommand_only, ↓modLock_only, ↓tryPair_only, ↓lockSend_only, ↓ite_only, ite_self, h0, h1, h2, h3, h4, h5, h6, h7, h8, h9, h10, h11, h12, h13]) | rw [foldl_fst_only] | rw [foldl_only] | rw [longCommand_only] | split | dsimp only)

theorem execLockstepUnpair_only {ks : List Comp} {r t : State} {fn : FnNo} {qp : QpNo} {pkt : Packet} {s : State}
    (e : execLockstepUnpair fn qp pkt s = .next t) (h0 : Comp.waits ∈ ks) (h1 : Comp.nextId ∈ ks) (h2 : Comp.fns ∈ ks) (h3 : Comp.chans ∈ ks) (h4 : Comp.lock ∈ ks) (h5 : Comp.ports ∈ ks) (h6 : Comp.outst ∈ ks) (h7 : Comp.deliveries ∈ ks) (h8 : Comp.geo ∈ ks) (h9 : Comp.runs ∈ ks) (h10 : Comp.frames ∈ ks) (h11 : Comp.out ∈ ks) (h12 : Comp.telem ∈ ks) (h13 : Comp.loaded ∈ ks) :
    ChangesOnly ks r t ↔ ChangesOnly ks r s := by
  injection e with e; subst e
  repeat' (first | with_reducible rfl | assumption | intro _ | (simp only [↓longCommand_only, ↓completeOk_only, ↓endPair_only, ↓ite_only, ite_self, h0, h1, h2, h3, h4, h5, h6, h7, h8, h9, h10, h11, h12, h13]) | rw [foldl_fst_only] | rw [foldl_only] | rw [longCommand_only] | split | dsimp only)

theorem execPairTimeout_only {ks : List Comp} {r t : State} {s : State}
    (e : execPairTimeout s = .next t) (h0 : Comp.waits ∈ ks) (h1 : Comp.fns ∈ ks) (h2 : Comp.tick ∈ ks) (h3 : Comp.lock ∈ ks) (h4 : Comp.outst ∈ ks) (h5 : Comp.out ∈ ks) :
    ChangesOnly ks r t ↔ ChangesOnly ks r s := by
  injection e with e; subst e; simp only [↓pairTimeout_only, ↓ite_only, ite_self, h0, h1, h2, h3, h4, h5]

theorem execLockstepStatus_only {ks : List Comp} {r t : State} {fn : FnNo} {qp : QpNo} {pkt : Packet} {s : State}
    (e : execLockstepStatus fn qp pkt s = .next t) (h0 : Comp.fns ∈ ks) (h1 : Comp.out ∈ ks) :
    ChangesOnly ks r t ↔ ChangesOnly ks r s := by
  injection e with e; subst e
  repeat' (first | with_reducible rfl | assumption | intro _ | (simp only [↓shortCommand_only, ↓writeBlock_only, ↓ite_only, ite_self, h0, h1]) | rw [foldl_fst_only] | rw [foldl_only] | rw [shortCommand_only] | split | dsimp only)

theorem execDigestFrame_only {ks : List Comp} {r t : State} {port : PortNo} {bytes : List Byte} {s : State}
    (e : execDigestFrame port bytes s = .next t) (h0 : Comp.waits ∈ ks) (h1 : Comp.fns ∈ ks) (h2 : Comp.chans ∈ ks) (h3 : Comp.lock ∈ ks) (h4 : Comp.ports ∈ ks) (h5 : Comp.outst ∈ ks) (h6 : Comp.deliveries ∈ ks) (h7 : Comp.geo ∈ ks) (h8 : Comp.runs ∈ ks) (h9 : Comp.frames ∈ ks) (h10 : Comp.out ∈ ks) (h11 : Comp.telem ∈ ks) (h12 : Comp.loaded ∈ ks) :
    ChangesOnly ks r t ↔ ChangesOnly ks r s := by
  injection e with e; subst e
  repeat' (first | with_reducible rfl | assumption | intro _ | (simp only [↓rxLockRow_only, ↓takeDigests_only, ↓ite_only, ite_self, h0, h1, h2, h3, h4, h5, h6, h7, h8, h9, h10, h11, h12]) | rw [foldl_fst_only] | rw [foldl_only] | rw [rxLockRow_only] | split | dsimp only)

theorem execLogReq_only {ks : List Comp} {r t : State} {port : PortNo} {bytes : List Byte} {s : State}
    (e : execLogReq port bytes s = .next t) (h0 : Comp.waits ∈ ks) (h1 : Comp.fns ∈ ks) (h2 : Comp.chans ∈ ks) (h3 : Comp.lock ∈ ks) (h4 : Comp.ports ∈ ks) (h5 : Comp.outst ∈ ks) (h6 : Comp.deliveries ∈ ks) (h7 : Comp.geo ∈ ks) (h8 : Comp.runs ∈ ks) (h9 : Comp.frames ∈ ks) (h10 : Comp.out ∈ ks) (h11 : Comp.telem ∈ ks) (h12 : Comp.loaded ∈ ks) :
    ChangesOnly ks r t ↔ ChangesOnly ks r s := by
  injection e with e; subst e
  repeat' (first | with_reducible rfl | assumption | intro _ | (simp only [↓rxLockRow_only, ↓takeLogReq_only, ↓ite_only, ite_self, h0, h1, h2, h3, h4, h5, h6, h7, h8, h9, h10, h11, h12]) | rw [foldl_fst_only] | rw [foldl_only] | rw [rxLockRow_only] | split | dsimp only)

theorem execLogFrame_only {ks : List Comp} {r t : State} {port : PortNo} {bytes : List Byte} {s : State}
    (e : execLogFrame port bytes s = .next t) (h0 : Comp.waits ∈ ks) (h1 : Comp.fns ∈ ks) (h2 : Comp.chans ∈ ks) (h3 : Comp.lock ∈ ks) (h4 : Comp.ports ∈ ks) (h5 : Comp.geo ∈ ks) (h6 : Comp.frames ∈ ks) (h7 : Comp.out ∈ ks) (h8 : Comp.telem ∈ ks) :
    ChangesOnly ks r t ↔ ChangesOnly ks r s := by
  injection e with e; subst e
  repeat' (first | with_reducible rfl | assumption | intro _ | (simp only [↓rxLockRow_only, ↓takeLog_only, ↓ite_only, ite_self, h0, h1, h2, h3, h4, h5, h6, h7, h8]) | rw [foldl_fst_only] | rw [foldl_only] | rw [rxLockRow_only] | split | dsimp only)

theorem execForward_only {ks : List Comp} {r t : State} {port : PortNo} {bytes : List Byte} {s : State}
    (e : execForward port bytes s = .next t) (h0 : Comp.waits ∈ ks) (h1 : Comp.progs ∈ ks) (h2 : Comp.fns ∈ ks) (h3 : Comp.chans ∈ ks) (h4 : Comp.clusters ∈ ks) (h5 : Comp.lock ∈ ks) (h6 : Comp.ports ∈ ks) (h7 : Comp.outst ∈ ks) (h8 : Comp.deliveries ∈ ks) (h9 : Comp.geo ∈ ks) (h10 : Comp.runs ∈ ks) (h11 : Comp.frames ∈ ks) (h12 : Comp.out ∈ ks) (h13 : Comp.telem ∈ ks) (h14 : Comp.loaded ∈ ks) :
    ChangesOnly ks r t ↔ ChangesOnly ks r s := by
  injection e with e; subst e
  repeat' (first | with_reducible rfl | assumption | intro _ | (simp only [↓rxLockRow_only, ↓takeForward_only, ↓ite_only, ite_self, h0, h1, h2, h3, h4, h5, h6, h7, h8, h9, h10, h11, h12, h13, h14]) | rw [foldl_fst_only] | rw [foldl_only] | rw [rxLockRow_only] | split | dsimp only)

theorem execPairFrame_only {ks : List Comp} {r t : State} {port : PortNo} {bytes : List Byte} {s : State}
    (e : execPairFrame port bytes s = .next t) (h0 : Comp.waits ∈ ks) (h1 : Comp.fns ∈ ks) (h2 : Comp.chans ∈ ks) (h3 : Comp.lock ∈ ks) (h4 : Comp.ports ∈ ks) (h5 : Comp.outst ∈ ks) (h6 : Comp.geo ∈ ks) (h7 : Comp.frames ∈ ks) (h8 : Comp.out ∈ ks) (h9 : Comp.telem ∈ ks) :
    ChangesOnly ks r t ↔ ChangesOnly ks r s := by
  injection e with e; subst e
  repeat' (first | with_reducible rfl | assumption | intro _ | (simp only [↓rxLockRow_only, ↓takePairRecord_only, ↓ite_only, ite_self, h0, h1, h2, h3, h4, h5, h6, h7, h8, h9]) | rw [foldl_fst_only] | rw [foldl_only] | rw [rxLockRow_only] | split | dsimp only)

theorem execUnpairFrame_only {ks : List Comp} {r t : State} {port : PortNo} {bytes : List Byte} {s : State}
    (e : execUnpairFrame port bytes s = .next t) (h0 : Comp.waits ∈ ks) (h1 : Comp.fns ∈ ks) (h2 : Comp.chans ∈ ks) (h3 : Comp.lock ∈ ks) (h4 : Comp.ports ∈ ks) (h5 : Comp.outst ∈ ks) (h6 : Comp.deliveries ∈ ks) (h7 : Comp.geo ∈ ks) (h8 : Comp.runs ∈ ks) (h9 : Comp.frames ∈ ks) (h10 : Comp.out ∈ ks) (h11 : Comp.telem ∈ ks) (h12 : Comp.loaded ∈ ks) :
    ChangesOnly ks r t ↔ ChangesOnly ks r s := by
  injection e with e; subst e
  repeat' (first | with_reducible rfl | assumption | intro _ | (simp only [↓rxLockRow_only, ↓endPair_only, ↓ite_only, ite_self, h0, h1, h2, h3, h4, h5, h6, h7, h8, h9, h10, h11, h12]) | rw [foldl_fst_only] | rw [foldl_only] | rw [rxLockRow_only] | split | dsimp only)

/-! ### PoolCmds -/

theorem setPoolSize_only {ks : List Comp} {r : State} (p : Packet) (s : State)
    (h0 : Comp.waits ∈ ks) (h1 : Comp.fns ∈ ks) (h2 : Comp.chans ∈ ks) (h3 : Comp.geo ∈ ks) (h4 : Comp.out ∈ ks) (h5 : Comp.telem ∈ ks) :
    ChangesOnly ks r (setPoolSize p s).1 ↔ ChangesOnly ks r s := by
  unfold setPoolSize; simp [↓freeGranule_only, ↓placeGranules_only, ↓settlePool_only, ↓upd_geo_only, ↓forEach_only, ↓ite_only, ite_self, h0, h1, h2, h3, h4, h5]

theorem setStratumTerms_only {ks : List Comp} {r : State} (p : Packet) (s : State)
    (h0 : Comp.waits ∈ ks) (h1 : Comp.fns ∈ ks) (h2 : Comp.chans ∈ ks) (h3 : Comp.geo ∈ ks) (h4 : Comp.strata ∈ ks) (h5 : Comp.out ∈ ks) (h6 : Comp.telem ∈ ks) :
    ChangesOnly ks r (setStratumTerms p s).1 ↔ ChangesOnly ks r s := by
  unfold setStratumTerms; simp only [↓settlePool_only, ↓reclaimAll_only, ↓modStratum_only, ↓ite_only, ite_self, h0, h1, h2, h3, h4, h5, h6]

theorem grant_only {ks : List Comp} {r : State} (s : State)
    (h0 : Comp.waits ∈ ks) (h1 : Comp.progs ∈ ks) (h2 : Comp.fns ∈ ks) (h3 : Comp.chans ∈ ks) (h4 : Comp.clusters ∈ ks) (h5 : Comp.lock ∈ ks) (h6 : Comp.ports ∈ ks) (h7 : Comp.outst ∈ ks) (h8 : Comp.deliveries ∈ ks) (h9 : Comp.geo ∈ ks) (h10 : Comp.runs ∈ ks) (h11 : Comp.frames ∈ ks) (h12 : Comp.out ∈ ks) (h13 : Comp.telem ∈ ks) (h14 : Comp.loaded ∈ ks) :
    ChangesOnly ks r (grant s) ↔ ChangesOnly ks r s := by
  unfold grant
  repeat' (first | with_reducible rfl | (simp only [↓drainArea_only, ↓settlePool_only, ↓grantOne_only, ↓ite_only, ite_self, h0, h1, h2, h3, h4, h5, h6, h7, h8, h9, h10, h11, h12, h13, h14]) | with_reducible (refine (forEach_only (fun _ _ => ?_) _ _).trans ?_) | split | dsimp only)

theorem zeroingComplete_only {ks : List Comp} {r : State} (n : Nat) (s : State)
    (h0 : Comp.waits ∈ ks) (h1 : Comp.fns ∈ ks) (h2 : Comp.chans ∈ ks) (h3 : Comp.geo ∈ ks) (h4 : Comp.out ∈ ks) (h5 : Comp.telem ∈ ks) :
    ChangesOnly ks r (zeroingComplete n s) ↔ ChangesOnly ks r s := by
  unfold zeroingComplete; simp only [↓settlePool_only, ↓modBufs_only, ↓ite_only, ite_self, h0, h1, h2, h3, h4, h5]

theorem poolStarved_only {ks : List Comp} {r : State} (c : Nat) (s : State)
    (h0 : Comp.waits ∈ ks) (h1 : Comp.fns ∈ ks) (h2 : Comp.chans ∈ ks) (h3 : Comp.tick ∈ ks) (h4 : Comp.out ∈ ks) :
    ChangesOnly ks r (poolStarved c s) ↔ ChangesOnly ks r s := by
  unfold poolStarved; (repeat' split) <;> simp [↓reach_only, ↓occur_only, ↓modChan_only, ↓ite_only, ite_self, h0, h1, h2, h3, h4]

theorem execSetSize_only {ks : List Comp} {r t : State} {fn : FnNo} {qp : QpNo} {pkt : Packet} {s : State}
    (e : execSetSize fn qp pkt s = .next t) (h0 : Comp.waits ∈ ks) (h1 : Comp.fns ∈ ks) (h2 : Comp.chans ∈ ks) (h3 : Comp.geo ∈ ks) (h4 : Comp.out ∈ ks) (h5 : Comp.telem ∈ ks) :
    ChangesOnly ks r t ↔ ChangesOnly ks r s := by
  injection e with e; subst e
  repeat' (first | with_reducible rfl | assumption | intro _ | (simp only [↓shortCommand_only, ↓setPoolSize_only, ↓ite_only, ite_self, h0, h1, h2, h3, h4, h5]) | rw [foldl_fst_only] | rw [foldl_only] | rw [shortCommand_only] | split | dsimp only)

theorem execSetStratum_only {ks : List Comp} {r t : State} {fn : FnNo} {qp : QpNo} {pkt : Packet} {s : State}
    (e : execSetStratum fn qp pkt s = .next t) (h0 : Comp.waits ∈ ks) (h1 : Comp.fns ∈ ks) (h2 : Comp.chans ∈ ks) (h3 : Comp.geo ∈ ks) (h4 : Comp.strata ∈ ks) (h5 : Comp.out ∈ ks) (h6 : Comp.telem ∈ ks) :
    ChangesOnly ks r t ↔ ChangesOnly ks r s := by
  injection e with e; subst e
  repeat' (first | with_reducible rfl | assumption | intro _ | (simp only [↓shortCommand_only, ↓setStratumTerms_only, ↓ite_only, ite_self, h0, h1, h2, h3, h4, h5, h6]) | rw [foldl_fst_only] | rw [foldl_only] | rw [shortCommand_only] | split | dsimp only)

theorem execPoolQuery_only {ks : List Comp} {r t : State} {fn : FnNo} {qp : QpNo} {pkt : Packet} {s : State}
    (e : execPoolQuery fn qp pkt s = .next t) (h0 : Comp.fns ∈ ks) (h1 : Comp.out ∈ ks) :
    ChangesOnly ks r t ↔ ChangesOnly ks r s := by
  injection e with e; subst e
  repeat' (first | with_reducible rfl | assumption | intro _ | (simp only [↓shortCommand_only, ↓ite_only, ite_self, h0, h1]) | rw [foldl_fst_only] | rw [foldl_only] | rw [shortCommand_only] | split | dsimp only)

theorem execGrant_only {ks : List Comp} {r t : State} {s : State}
    (e : execGrant s = .next t) (h0 : Comp.waits ∈ ks) (h1 : Comp.progs ∈ ks) (h2 : Comp.fns ∈ ks) (h3 : Comp.chans ∈ ks) (h4 : Comp.clusters ∈ ks) (h5 : Comp.lock ∈ ks) (h6 : Comp.ports ∈ ks) (h7 : Comp.outst ∈ ks) (h8 : Comp.deliveries ∈ ks) (h9 : Comp.geo ∈ ks) (h10 : Comp.runs ∈ ks) (h11 : Comp.frames ∈ ks) (h12 : Comp.out ∈ ks) (h13 : Comp.telem ∈ ks) (h14 : Comp.loaded ∈ ks) :
    ChangesOnly ks r t ↔ ChangesOnly ks r s := by
  injection e with e; subst e; simp only [↓grant_only, ↓ite_only, ite_self, h0, h1, h2, h3, h4, h5, h6, h7, h8, h9, h10, h11, h12, h13, h14]

theorem execZeroingComplete_only {ks : List Comp} {r t : State} {buffer : Nat} {s : State}
    (e : execZeroingComplete buffer s = .next t) (h0 : Comp.waits ∈ ks) (h1 : Comp.fns ∈ ks) (h2 : Comp.chans ∈ ks) (h3 : Comp.geo ∈ ks) (h4 : Comp.out ∈ ks) (h5 : Comp.telem ∈ ks) :
    ChangesOnly ks r t ↔ ChangesOnly ks r s := by
  injection e with e; subst e; simp only [↓zeroingComplete_only, ↓ite_only, ite_self, h0, h1, h2, h3, h4, h5]

theorem execPoolStarved_only {ks : List Comp} {r t : State} {channel : Nat} {s : State}
    (e : execPoolStarved channel s = .next t) (h0 : Comp.waits ∈ ks) (h1 : Comp.fns ∈ ks) (h2 : Comp.chans ∈ ks) (h3 : Comp.tick ∈ ks) (h4 : Comp.out ∈ ks) :
    ChangesOnly ks r t ↔ ChangesOnly ks r s := by
  injection e with e; subst e; simp only [↓poolStarved_only, ↓ite_only, ite_self, h0, h1, h2, h3, h4]

/-! ### Slate -/

theorem slatePut_only {ks : List Comp} {r : State} (s : State) (n : FnNo) (a : Nat) (bs : List Byte)
    (h0 : Comp.ext ∈ ks) (h1 : Comp.geo ∈ ks) (h2 : Comp.scratch ∈ ks) :
    ChangesOnly ks r (State.slatePut s n a bs) ↔ ChangesOnly ks r s := by
  unfold State.slatePut; (repeat' split) <;> (try (refine (forEach_only (fun _ _ => ?_) _ _).trans ?_)) <;> (try dsimp only) <;> (repeat' split) <;> simp [↓locWrite_only, ↓forEach_only, ↓ite_only, ite_self, h0, h1, h2]

theorem decayRaster_only {ks : List Comp} {r : State} (s : State) (n : FnNo) (base : Nat) (decay : Nat)
    (h0 : Comp.ext ∈ ks) (h1 : Comp.geo ∈ ks) (h2 : Comp.scratch ∈ ks) :
    ChangesOnly ks r (State.decayRaster s n base decay) ↔ ChangesOnly ks r s := by
  unfold State.decayRaster; simp [↓slatePut_only, ↓forEach_only, ↓ite_only, ite_self, h0, h1, h2]

theorem clearRaster_only {ks : List Comp} {r : State} (s : State) (n : FnNo) (base : Nat)
    (h0 : Comp.ext ∈ ks) (h1 : Comp.geo ∈ ks) (h2 : Comp.scratch ∈ ks) :
    ChangesOnly ks r (State.clearRaster s n base) ↔ ChangesOnly ks r s := by
  unfold State.clearRaster; simp only [↓slatePut_only, ↓ite_only, ite_self, h0, h1, h2]

theorem hit_only {ks : List Comp} {r : State} (s : State) (n : FnNo) (f : Frame) (k : Nat)
    (h0 : Comp.ext ∈ ks) (h1 : Comp.geo ∈ ks) (h2 : Comp.scratch ∈ ks) :
    ChangesOnly ks r (State.hit s n f k) ↔ ChangesOnly ks r s := by
  unfold State.hit; simp only [↓slatePut_only, ↓ite_only, ite_self, h0, h1, h2]

theorem rasterPiece_only {ks : List Comp} {r : State} (s : State) (n : FnNo) (f : Frame) (first : Nat) (last : Nat)
    (h0 : Comp.ext ∈ ks) (h1 : Comp.geo ∈ ks) (h2 : Comp.scratch ∈ ks) :
    ChangesOnly ks r (State.rasterPiece s n f first last) ↔ ChangesOnly ks r s := by
  unfold State.rasterPiece; simp [↓decayRaster_only, ↓clearRaster_only, ↓hit_only, ↓forEach_only, ↓ite_only, ite_self, h0, h1, h2]

theorem snapshot_only {ks : List Comp} {r : State} (s : State) (x : Chan) (f : Frame)
    (h0 : Comp.ext ∈ ks) (h1 : Comp.deliveries ∈ ks) (h2 : Comp.geo ∈ ks) (h3 : Comp.scratch ∈ ks) (h4 : Comp.frames ∈ ks) :
    ChangesOnly ks r (State.snapshot s x f) ↔ ChangesOnly ks r s := by
  unfold State.snapshot; (repeat' split) <;> simp [↓slatePut_only, ↓clearRaster_only, ↓modFrame_only, ↓upd_deliveries_only, ↓ite_only, ite_self, h0, h1, h2, h3, h4]

theorem writeRecord_only {ks : List Comp} {r : State} (s : State) (x : Chan) (f : Frame)
    (h0 : Comp.waits ∈ ks) (h1 : Comp.fns ∈ ks) (h2 : Comp.chans ∈ ks) (h3 : Comp.ext ∈ ks) (h4 : Comp.geo ∈ ks) (h5 : Comp.scratch ∈ ks) (h6 : Comp.frames ∈ ks) (h7 : Comp.out ∈ ks) :
    ChangesOnly ks r (State.writeRecord s x f) ↔ ChangesOnly ks r s := by
  unfold State.writeRecord; simp only [↓slateNote_only, ↓modFrame_only, ↓modChan_only, ↓slatePut_only, ↓ite_only, ite_self, h0, h1, h2, h3, h4, h5, h6, h7]

theorem startPiece_only {ks : List Comp} {r : State} (e : EngNo) (s : State)
    (h0 : Comp.pieces ∈ ks) (h1 : Comp.frames ∈ ks) (h2 : Comp.loaded ∈ ks) :
    ChangesOnly ks r (startPiece e s) ↔ ChangesOnly ks r s := by
  simp only [startPiece]; (repeat' split) <;> simp [↓modFrame_only, ↓upd_pieces_loaded_only, ↓upd_pieces_only, ↓ite_only, ite_self, h0, h1, h2]

theorem keepHistories_only {ks : List Comp} {r : State} (s : State) (c : Nat) (f : Frame)
    (h0 : Comp.chans ∈ ks) :
    ChangesOnly ks r (State.keepHistories s c f) ↔ ChangesOnly ks r s := by
  unfold State.keepHistories; simp only [↓modChan_only, ↓ite_only, ite_self, h0]

theorem conditioned_only {ks : List Comp} {r : State} (s : State) (x : Chan) (f : Frame)
    (h0 : Comp.waits ∈ ks) (h1 : Comp.progs ∈ ks) (h2 : Comp.fns ∈ ks) (h3 : Comp.chans ∈ ks) (h4 : Comp.clusters ∈ ks) (h5 : Comp.lock ∈ ks) (h6 : Comp.ports ∈ ks) (h7 : Comp.outst ∈ ks) (h8 : Comp.ext ∈ ks) (h9 : Comp.deliveries ∈ ks) (h10 : Comp.geo ∈ ks) (h11 : Comp.scratch ∈ ks) (h12 : Comp.runs ∈ ks) (h13 : Comp.frames ∈ ks) (h14 : Comp.out ∈ ks) (h15 : Comp.telem ∈ ks) (h16 : Comp.loaded ∈ ks) :
    ChangesOnly ks r (State.conditioned s x f) ↔ ChangesOnly ks r s := by
  unfold State.conditioned; simp only [↓writeRecord_only, ↓slatePut_only, ↓keepHistories_only, ↓snapshot_only, ↓endUnbinds_only, ↓settlePool_only, ↓delFrame_only, ↓releaseFrame_only, ↓finishFrame_only, ↓makeReady_only, ↓ite_only, ite_self, h0, h1, h2, h3, h4, h5, h6, h7, h8, h9, h10, h11, h12, h13, h14, h15, h16]

theorem endPiece_only {ks : List Comp} {r : State} (e : EngNo) (s : State)
    (h0 : Comp.waits ∈ ks) (h1 : Comp.progs ∈ ks) (h2 : Comp.fns ∈ ks) (h3 : Comp.chans ∈ ks) (h4 : Comp.clusters ∈ ks) (h5 : Comp.lock ∈ ks) (h6 : Comp.ports ∈ ks) (h7 : Comp.outst ∈ ks) (h8 : Comp.ext ∈ ks) (h9 : Comp.pieces ∈ ks) (h10 : Comp.deliveries ∈ ks) (h11 : Comp.geo ∈ ks) (h12 : Comp.scratch ∈ ks) (h13 : Comp.runs ∈ ks) (h14 : Comp.frames ∈ ks) (h15 : Comp.out ∈ ks) (h16 : Comp.telem ∈ ks) (h17 : Comp.loaded ∈ ks) :
    ChangesOnly ks r (endPiece e s) ↔ ChangesOnly ks r s := by
  unfold endPiece; (repeat' split) <;> simp [↓modFrame_only, ↓rasterPiece_only, ↓conditioned_only, ↓upd_pieces_only, ↓ite_only, ite_self, h0, h1, h2, h3, h4, h5, h6, h7, h8, h9, h10, h11, h12, h13, h14, h15, h16, h17]

theorem startDelivery_only {ks : List Comp} {r : State} (e : EngNo) (n : FnNo) (s : State)
    (h0 : Comp.deliveries ∈ ks) (h1 : Comp.stores ∈ ks) :
    ChangesOnly ks r (startDelivery e n s) ↔ ChangesOnly ks r s := by
  simp only [startDelivery]; (repeat' split) <;> simp [↓modStore_only, ↓upd_deliveries_only, ↓ite_only, ite_self, h0, h1]

theorem pumpRings_only {ks : List Comp} {r : State} (s : State) (n : FnNo)
    (h0 : Comp.waits ∈ ks) (h1 : Comp.progs ∈ ks) (h2 : Comp.fns ∈ ks) (h3 : Comp.chans ∈ ks) (h4 : Comp.clusters ∈ ks) (h5 : Comp.lock ∈ ks) (h6 : Comp.ports ∈ ks) (h7 : Comp.outst ∈ ks) (h8 : Comp.deliveries ∈ ks) (h9 : Comp.geo ∈ ks) (h10 : Comp.runs ∈ ks) (h11 : Comp.frames ∈ ks) (h12 : Comp.out ∈ ks) (h13 : Comp.telem ∈ ks) (h14 : Comp.loaded ∈ ks) :
    ChangesOnly ks r (State.pumpRings s n) ↔ ChangesOnly ks r s := by
  unfold State.pumpRings; simp [↓pumpRing_only, ↓forEach_only, ↓ite_only, ite_self, h0, h1, h2, h3, h4, h5, h6, h7, h8, h9, h10, h11, h12, h13, h14]

theorem endDelivery_only {ks : List Comp} {r : State} (e : EngNo) (n : FnNo) (s : State)
    (h0 : Comp.waits ∈ ks) (h1 : Comp.progs ∈ ks) (h2 : Comp.fns ∈ ks) (h3 : Comp.chans ∈ ks) (h4 : Comp.clusters ∈ ks) (h5 : Comp.lock ∈ ks) (h6 : Comp.ports ∈ ks) (h7 : Comp.outst ∈ ks) (h8 : Comp.deliveries ∈ ks) (h9 : Comp.geo ∈ ks) (h10 : Comp.runs ∈ ks) (h11 : Comp.frames ∈ ks) (h12 : Comp.out ∈ ks) (h13 : Comp.telem ∈ ks) (h14 : Comp.stores ∈ ks) (h15 : Comp.loaded ∈ ks) :
    ChangesOnly ks r (endDelivery e n s) ↔ ChangesOnly ks r s := by
  unfold endDelivery; (repeat' split) <;> simp [↓pumpRings_only, ↓bulkWrite_only, ↓modChan_only, ↓modStore_only, ↓upd_deliveries_only, ↓ite_only, ite_self, h0, h1, h2, h3, h4, h5, h6, h7, h8, h9, h10, h11, h12, h13, h14, h15]

theorem dropDelivery_only {ks : List Comp} {r : State} (s : State) (d : Delivery)
    (h0 : Comp.waits ∈ ks) (h1 : Comp.progs ∈ ks) (h2 : Comp.fns ∈ ks) (h3 : Comp.chans ∈ ks) (h4 : Comp.clusters ∈ ks) (h5 : Comp.lock ∈ ks) (h6 : Comp.ports ∈ ks) (h7 : Comp.outst ∈ ks) (h8 : Comp.deliveries ∈ ks) (h9 : Comp.geo ∈ ks) (h10 : Comp.runs ∈ ks) (h11 : Comp.frames ∈ ks) (h12 : Comp.out ∈ ks) (h13 : Comp.telem ∈ ks) (h14 : Comp.loaded ∈ ks) :
    ChangesOnly ks r (State.dropDelivery s d) ↔ ChangesOnly ks r s := by
  unfold State.dropDelivery; simp only [↓pumpRings_only, ↓modFrame_only, ↓upd_deliveries_only, ↓ite_only, ite_self, h0, h1, h2, h3, h4, h5, h6, h7, h8, h9, h10, h11, h12, h13, h14]

theorem moveDeliveries_only {ks : List Comp} {r : State} (s : State) (e : EngNo)
    (h0 : Comp.waits ∈ ks) (h1 : Comp.progs ∈ ks) (h2 : Comp.fns ∈ ks) (h3 : Comp.chans ∈ ks) (h4 : Comp.clusters ∈ ks) (h5 : Comp.lock ∈ ks) (h6 : Comp.ports ∈ ks) (h7 : Comp.outst ∈ ks) (h8 : Comp.deliveries ∈ ks) (h9 : Comp.geo ∈ ks) (h10 : Comp.runs ∈ ks) (h11 : Comp.frames ∈ ks) (h12 : Comp.out ∈ ks) (h13 : Comp.telem ∈ ks) (h14 : Comp.loaded ∈ ks) :
    ChangesOnly ks r (State.moveDeliveries s e) ↔ ChangesOnly ks r s := by
  unfold State.moveDeliveries; (repeat' split) <;> (try (refine (forEach_only (fun _ _ => ?_) _ _).trans ?_)) <;> (try dsimp only) <;> (repeat' split) <;> simp [↓dropDelivery_only, ↓upd_deliveries_only, ↓forEach_only, ↓ite_only, ite_self, h0, h1, h2, h3, h4, h5, h6, h7, h8, h9, h10, h11, h12, h13, h14]

theorem execPieceStart_only {ks : List Comp} {r t : State} {engine : EngNo} {s : State}
    (e : execPieceStart engine s = .next t) (h0 : Comp.pieces ∈ ks) (h1 : Comp.frames ∈ ks) (h2 : Comp.loaded ∈ ks) :
    ChangesOnly ks r t ↔ ChangesOnly ks r s := by
  injection e with e; subst e; simp only [↓startPiece_only, ↓ite_only, ite_self, h0, h1, h2]

theorem execPieceEnd_only {ks : List Comp} {r t : State} {engine : EngNo} {s : State}
    (e : execPieceEnd engine s = .next t) (h0 : Comp.waits ∈ ks) (h1 : Comp.progs ∈ ks) (h2 : Comp.fns ∈ ks) (h3 : Comp.chans ∈ ks) (h4 : Comp.clusters ∈ ks) (h5 : Comp.lock ∈ ks) (h6 : Comp.ports ∈ ks) (h7 : Comp.outst ∈ ks) (h8 : Comp.ext ∈ ks) (h9 : Comp.pieces ∈ ks) (h10 : Comp.deliveries ∈ ks) (h11 : Comp.geo ∈ ks) (h12 : Comp.scratch ∈ ks) (h13 : Comp.runs ∈ ks) (h14 : Comp.frames ∈ ks) (h15 : Comp.out ∈ ks) (h16 : Comp.telem ∈ ks) (h17 : Comp.loaded ∈ ks) :
    ChangesOnly ks r t ↔ ChangesOnly ks r s := by
  injection e with e; subst e; simp only [↓endPiece_only, ↓ite_only, ite_self, h0, h1, h2, h3, h4, h5, h6, h7, h8, h9, h10, h11, h12, h13, h14, h15, h16, h17]

theorem execDeliveryJobStart_only {ks : List Comp} {r t : State} {engine : EngNo} {stratum : FnNo} {s : State}
    (e : execDeliveryJobStart engine stratum s = .next t) (h0 : Comp.deliveries ∈ ks) (h1 : Comp.stores ∈ ks) :
    ChangesOnly ks r t ↔ ChangesOnly ks r s := by
  injection e with e; subst e; simp only [↓startDelivery_only, ↓ite_only, ite_self, h0, h1]

/-! ### Units -/

theorem modUnit_only {ks : List Comp} {r : State} (s : State) (u : Unit_) (f : UnitSt → UnitSt)
    (h0 : Comp.units ∈ ks) :
    ChangesOnly ks r (State.modUnit s u f) ↔ ChangesOnly ks r s := by
  unfold State.modUnit; simp only [↓upd_units_only, ↓ite_only, ite_self, h0]

theorem recordSystem_only {ks : List Comp} {r : State} (s : State)
    (h0 : Comp.nv ∈ ks) :
    ChangesOnly ks r (State.recordSystem s) ↔ ChangesOnly ks r s := by
  unfold State.recordSystem; simp only [↓upd_nv_only, ↓ite_only, ite_self, h0]

theorem mapTo_only {ks : List Comp} {r : State} (s : State) (l : LogNo) (c : PhysNo)
    (h0 : Comp.clusters ∈ ks) (h1 : Comp.mapping ∈ ks) (h2 : Comp.lastPhys ∈ ks) (h3 : Comp.scratch ∈ ks) :
    ChangesOnly ks r (State.mapTo s l c) ↔ ChangesOnly ks r s := by
  unfold State.mapTo; simp only [↓zeroCluster_only, ↓upd_mapping_lastPhys_only, ↓upd_mapping_only, ↓ite_only, ite_self, h0, h1, h2, h3]

theorem endOrRetry_only {ks : List Comp} {r : State} (s : State) (rr : Run)
    (h0 : Comp.waits ∈ ks) (h1 : Comp.progs ∈ ks) (h2 : Comp.fns ∈ ks) (h3 : Comp.chans ∈ ks) (h4 : Comp.clusters ∈ ks) (h5 : Comp.lock ∈ ks) (h6 : Comp.ports ∈ ks) (h7 : Comp.outst ∈ ks) (h8 : Comp.deliveries ∈ ks) (h9 : Comp.geo ∈ ks) (h10 : Comp.runs ∈ ks) (h11 : Comp.frames ∈ ks) (h12 : Comp.out ∈ ks) (h13 : Comp.telem ∈ ks) (h14 : Comp.loaded ∈ ks) :
    ChangesOnly ks r (State.endOrRetry s rr).1 ↔ ChangesOnly ks r s := by
  unfold State.endOrRetry; (repeat' split) <;> simp [↓endRun_only, ↓modFrame_only, ↓count_only, ↓abortFrame_only, ↓ite_only, ite_self, h0, h1, h2, h3, h4, h5, h6, h7, h8, h9, h10, h11, h12, h13, h14]

theorem endRunsAt_only {ks : List Comp} {r : State} (s : State) (l : LogNo) (h0 : Comp.waits ∈ ks) (h1 : Comp.progs ∈ ks) (h2 : Comp.fns ∈ ks) (h3 : Comp.chans ∈ ks) (h4 : Comp.clusters ∈ ks) (h5 : Comp.lock ∈ ks) (h6 : Comp.ports ∈ ks) (h7 : Comp.outst ∈ ks) (h8 : Comp.deliveries ∈ ks) (h9 : Comp.geo ∈ ks) (h10 : Comp.runs ∈ ks) (h11 : Comp.frames ∈ ks) (h12 : Comp.out ∈ ks) (h13 : Comp.telem ∈ ks) (h14 : Comp.loaded ∈ ks) :
    ChangesOnly ks r (s.endRunsAt l).1 ↔ ChangesOnly ks r s := by
  unfold State.endRunsAt
  refine foldl_fst_only (fun x a => ?_) _ _
  simp only [↓endOrRetry_only, h0, h1, h2, h3, h4, h5, h6, h7, h8, h9, h10, h11, h12, h13, h14]

theorem endRemaps_only {ks : List Comp} {r : State} (s : State) (c : PhysNo)
    (h0 : Comp.remaps ∈ ks) (h1 : Comp.waits ∈ ks) (h2 : Comp.fns ∈ ks) (h3 : Comp.outst ∈ ks) (h4 : Comp.out ∈ ks) :
    ChangesOnly ks r (State.endRemaps s c) ↔ ChangesOnly ks r s := by
  unfold State.endRemaps; simp [↓complete_only, ↓upd_remaps_only, ↓forEach_only, ↓ite_only, ite_self, h0, h1, h2, h3, h4]

theorem loseCluster_only {ks : List Comp} {r : State} (s : State) (c : PhysNo)
    (h0 : Comp.remaps ∈ ks) (h1 : Comp.waits ∈ ks) (h2 : Comp.progs ∈ ks) (h3 : Comp.fns ∈ ks) (h4 : Comp.chans ∈ ks) (h5 : Comp.clusters ∈ ks) (h6 : Comp.lock ∈ ks) (h7 : Comp.ports ∈ ks) (h8 : Comp.outst ∈ ks) (h9 : Comp.deliveries ∈ ks) (h10 : Comp.geo ∈ ks) (h11 : Comp.toReplace ∈ ks) (h12 : Comp.runs ∈ ks) (h13 : Comp.frames ∈ ks) (h14 : Comp.out ∈ ks) (h15 : Comp.telem ∈ ks) (h16 : Comp.loaded ∈ ks) :
    ChangesOnly ks r (State.loseCluster s c) ↔ ChangesOnly ks r s := by
  unfold State.loseCluster
  repeat' (first | with_reducible rfl | (simp only [↓endRemaps_only, ↓endRunsAt_only, ↓upd_toReplace_only, ↓ite_only, ite_self, h0, h1, h2, h3, h4, h5, h6, h7, h8, h9, h10, h11, h12, h13, h14, h15, h16]) | with_reducible (refine (forEach_only (fun _ _ => ?_) _ _).trans ?_) | split | dsimp only)

theorem replaceOne_only {ks : List Comp} {r : State} (s : State)
    (h0 : Comp.waits ∈ ks) (h1 : Comp.progs ∈ ks) (h2 : Comp.fns ∈ ks) (h3 : Comp.chans ∈ ks) (h4 : Comp.clusters ∈ ks) (h5 : Comp.lock ∈ ks) (h6 : Comp.ports ∈ ks) (h7 : Comp.outst ∈ ks) (h8 : Comp.mapping ∈ ks) (h9 : Comp.deliveries ∈ ks) (h10 : Comp.geo ∈ ks) (h11 : Comp.faults ∈ ks) (h12 : Comp.toReplace ∈ ks) (h13 : Comp.lastPhys ∈ ks) (h14 : Comp.scratch ∈ ks) (h15 : Comp.runs ∈ ks) (h16 : Comp.frames ∈ ks) (h17 : Comp.out ∈ ks) (h18 : Comp.telem ∈ ks) (h19 : Comp.nv ∈ ks) (h20 : Comp.loaded ∈ ks) (h21 : Comp.repro ∈ ks) :
    ChangesOnly ks r (replaceOne s) ↔ ChangesOnly ks r s := by
  unfold replaceOne
  repeat' (first | with_reducible rfl | (simp only [↓mapTo_only, ↓fault_only, ↓recordSystem_only, ↓occurAll_only, ↓clustersChanged_only, ↓upd_toReplace_only, ↓upd_mapping_only, ↓upd_mapping_toReplace_only, ↓ite_only, ite_self, h0, h1, h2, h3, h4, h5, h6, h7, h8, h9, h10, h11, h12, h13, h14, h15, h16, h17, h18, h19, h20, h21]) | with_reducible (refine (forEach_only (fun _ _ => ?_) _ _).trans ?_) | split | dsimp only)

theorem restoreAt_only {ks : List Comp} {r : State} (s : State) (l : LogNo)
    (h0 : Comp.waits ∈ ks) (h1 : Comp.progs ∈ ks) (h2 : Comp.fns ∈ ks) (h3 : Comp.chans ∈ ks) (h4 : Comp.clusters ∈ ks) (h5 : Comp.lock ∈ ks) (h6 : Comp.ports ∈ ks) (h7 : Comp.outst ∈ ks) (h8 : Comp.mapping ∈ ks) (h9 : Comp.deliveries ∈ ks) (h10 : Comp.geo ∈ ks) (h11 : Comp.faults ∈ ks) (h12 : Comp.lastPhys ∈ ks) (h13 : Comp.scratch ∈ ks) (h14 : Comp.runs ∈ ks) (h15 : Comp.frames ∈ ks) (h16 : Comp.out ∈ ks) (h17 : Comp.telem ∈ ks) (h18 : Comp.nv ∈ ks) (h19 : Comp.loaded ∈ ks) (h20 : Comp.repro ∈ ks) :
    ChangesOnly ks r (State.restoreAt s l) ↔ ChangesOnly ks r s := by
  unfold State.restoreAt; (repeat' split) <;> simp [↓mapTo_only, ↓fault_only, ↓occurAll_only, ↓recordSystem_only, ↓clustersChanged_only, ↓ite_only, ite_self, h0, h1, h2, h3, h4, h5, h6, h7, h8, h9, h10, h11, h12, h13, h14, h15, h16, h17, h18, h19, h20]

theorem restoreFor_only {ks : List Comp} {r : State} (n : FnNo) (a1 : Nat) (s : State)
    (h0 : Comp.waits ∈ ks) (h1 : Comp.progs ∈ ks) (h2 : Comp.fns ∈ ks) (h3 : Comp.chans ∈ ks) (h4 : Comp.clusters ∈ ks) (h5 : Comp.lock ∈ ks) (h6 : Comp.ports ∈ ks) (h7 : Comp.outst ∈ ks) (h8 : Comp.mapping ∈ ks) (h9 : Comp.deliveries ∈ ks) (h10 : Comp.geo ∈ ks) (h11 : Comp.faults ∈ ks) (h12 : Comp.lastPhys ∈ ks) (h13 : Comp.scratch ∈ ks) (h14 : Comp.runs ∈ ks) (h15 : Comp.frames ∈ ks) (h16 : Comp.out ∈ ks) (h17 : Comp.telem ∈ ks) (h18 : Comp.nv ∈ ks) (h19 : Comp.loaded ∈ ks) (h20 : Comp.repro ∈ ks) :
    ChangesOnly ks r (State.restoreFor n a1 s) ↔ ChangesOnly ks r s := by
  induction a1 generalizing s with
  | zero => simp only [State.restoreFor]
  | succ _ ih =>
    rw [State.restoreFor]
    (try dsimp only)
    (repeat' split) <;> simp only [↓ih, ↓restoreAt_only, ↓ite_only, ite_self, h0, h1, h2, h3, h4, h5, h6, h7, h8, h9, h10, h11, h12, h13, h14, h15, h16, h17, h18, h19, h20]

theorem restoreNext_only {ks : List Comp} {r : State} (s : State)
    (h0 : Comp.waits ∈ ks) (h1 : Comp.progs ∈ ks) (h2 : Comp.fns ∈ ks) (h3 : Comp.chans ∈ ks) (h4 : Comp.clusters ∈ ks) (h5 : Comp.lock ∈ ks) (h6 : Comp.ports ∈ ks) (h7 : Comp.outst ∈ ks) (h8 : Comp.mapping ∈ ks) (h9 : Comp.deliveries ∈ ks) (h10 : Comp.geo ∈ ks) (h11 : Comp.faults ∈ ks) (h12 : Comp.lastPhys ∈ ks) (h13 : Comp.scratch ∈ ks) (h14 : Comp.runs ∈ ks) (h15 : Comp.frames ∈ ks) (h16 : Comp.out ∈ ks) (h17 : Comp.telem ∈ ks) (h18 : Comp.nv ∈ ks) (h19 : Comp.loaded ∈ ks) (h20 : Comp.repro ∈ ks) :
    ChangesOnly ks r (restoreNext s) ↔ ChangesOnly ks r s := by
  unfold restoreNext; (repeat' split) <;> simp [↓restoreAt_only, ↓ite_only, ite_self, h0, h1, h2, h3, h4, h5, h6, h7, h8, h9, h10, h11, h12, h13, h14, h15, h16, h17, h18, h19, h20]

theorem contextLost_only {ks : List Comp} {r : State} (s : State) (c : Nat) (replaced : Bool)
    (h0 : Comp.waits ∈ ks) (h1 : Comp.fns ∈ ks) (h2 : Comp.chans ∈ ks) (h3 : Comp.out ∈ ks) :
    ChangesOnly ks r (State.contextLost s c replaced) ↔ ChangesOnly ks r s := by
  unfold State.contextLost; (repeat' split) <;> simp [↓slateNote_only, ↓modChan_only, ↓ite_only, ite_self, h0, h1, h2, h3]

theorem replaceSystem_only {ks : List Comp} {r : State} (s : State) (g : Nat) (a : Option Nat) (b : Option Nat)
    (h0 : Comp.lock ∈ ks) (h1 : Comp.geo ∈ ks) :
    ChangesOnly ks r (State.replaceSystem s g a b).1 ↔ ChangesOnly ks r s := by
  simp only [State.replaceSystem]; (repeat' split) <;> simp [↓markGranule_only, ↓modLock_only, ↓upd_geo_only, ↓ite_only, ite_self, h0, h1]

theorem loseSystem_only {ks : List Comp} {r : State} (s : State) (b : BankNo) (h0 : Comp.waits ∈ ks) (h1 : Comp.fns ∈ ks) (h2 : Comp.chans ∈ ks) (h3 : Comp.lock ∈ ks) (h4 : Comp.geo ∈ ks) (h5 : Comp.out ∈ ks) :
    ChangesOnly ks r (s.loseSystem b) ↔ ChangesOnly ks r s := by
  unfold State.loseSystem
  refine (forEach_only (fun c t => ?_) _ _).trans ((foldl_fst_only (fun x a => ?_) _ _).trans Iff.rfl)
  · simp only [↓contextLost_only, h0, h1, h2, h3, h4, h5]
  · simp only [↓replaceSystem_only, h0, h1, h2, h3, h4, h5]

theorem replaceParts_only {ks : List Comp} {r : State} (b : BankNo) (n : FnNo) (s : State) (l : List (Option Nat)) (h0 : Comp.geo ∈ ks) (h1 : Comp.strata ∈ ks) :
    ChangesOnly ks r (State.replaceParts b n s l).1 ↔ ChangesOnly ks r s := by
  induction l generalizing s with
  | nil => simp only [State.replaceParts]
  | cons o l ih =>
    unfold State.replaceParts
    dsimp only
    (repeat' split) <;> simp only [↓ih, ↓modStratum_only, ↓markGranule_only, ↓upd_geo_only, h0, h1]

theorem loseArena_only {ks : List Comp} {r : State} (s : State) (b : BankNo) (n : FnNo) (h0 : Comp.waits ∈ ks) (h1 : Comp.fns ∈ ks) (h2 : Comp.geo ∈ ks) (h3 : Comp.strata ∈ ks) (h4 : Comp.out ∈ ks) :
    ChangesOnly ks r (s.loseArena b n) ↔ ChangesOnly ks r s := by
  unfold State.loseArena
  dsimp only
  split
  · rfl
  · split <;> simp only [↓occur_only, ↓modStratum_only, h0, h1, h2, h3, h4] <;>
      exact (foldl_fst_only (fun x a => by simp only [↓replaceParts_only, h0, h1, h2, h3, h4]) _ _).trans Iff.rfl

theorem loseHolder_only {ks : List Comp} {r : State} (s : State) (b : Buf)
    (h0 : Comp.waits ∈ ks) (h1 : Comp.progs ∈ ks) (h2 : Comp.fns ∈ ks) (h3 : Comp.chans ∈ ks) (h4 : Comp.clusters ∈ ks) (h5 : Comp.lock ∈ ks) (h6 : Comp.ports ∈ ks) (h7 : Comp.outst ∈ ks) (h8 : Comp.deliveries ∈ ks) (h9 : Comp.geo ∈ ks) (h10 : Comp.runs ∈ ks) (h11 : Comp.frames ∈ ks) (h12 : Comp.out ∈ ks) (h13 : Comp.telem ∈ ks) (h14 : Comp.loaded ∈ ks) :
    ChangesOnly ks r (State.loseHolder s b) ↔ ChangesOnly ks r s := by
  unfold State.loseHolder; (repeat' split) <;> simp [↓modChan_only, ↓releaseFrame_only, ↓dropOpen_only, ↓countDrop_only, ↓endRun_only, ↓abortFrame_only, ↓dropFrame_only, ↓ite_only, ite_self, h0, h1, h2, h3, h4, h5, h6, h7, h8, h9, h10, h11, h12, h13, h14]

theorem refillPool_only {ks : List Comp} {r : State} (s : State) (a1 : List Nat)
    (h0 : Comp.geo ∈ ks) :
    ChangesOnly ks r (State.refillPool s a1) ↔ ChangesOnly ks r s := by
  induction a1 generalizing s with
  | nil => simp only [State.refillPool]
  | cons _ _ ih =>
    rw [State.refillPool]
    (try dsimp only)
    (repeat' split) <;> simp only [↓ih, ↓markGranule_only, ↓upd_geo_only, ↓ite_only, ite_self, h0]

theorem losePool_only {ks : List Comp} {r : State} (s : State) (b : BankNo)
    (h0 : Comp.waits ∈ ks) (h1 : Comp.progs ∈ ks) (h2 : Comp.fns ∈ ks) (h3 : Comp.chans ∈ ks) (h4 : Comp.clusters ∈ ks) (h5 : Comp.lock ∈ ks) (h6 : Comp.ports ∈ ks) (h7 : Comp.outst ∈ ks) (h8 : Comp.deliveries ∈ ks) (h9 : Comp.geo ∈ ks) (h10 : Comp.runs ∈ ks) (h11 : Comp.frames ∈ ks) (h12 : Comp.out ∈ ks) (h13 : Comp.telem ∈ ks) (h14 : Comp.loaded ∈ ks) :
    ChangesOnly ks r (State.losePool s b) ↔ ChangesOnly ks r s := by
  unfold State.losePool
  repeat' (first | with_reducible rfl | (simp only [↓loseHolder_only, ↓refillPool_only, ↓occur_only, ↓settlePool_only, ↓reclaimAll_only, ↓upd_geo_only, ↓forEach_only, ↓ite_only, ite_self, h0, h1, h2, h3, h4, h5, h6, h7, h8, h9, h10, h11, h12, h13, h14]) | with_reducible (refine (forEach_only (fun _ _ => ?_) _ _).trans ?_) | split | dsimp only)

theorem loseBank_only {ks : List Comp} {r : State} (s : State) (b : BankNo) (h0 : Comp.waits ∈ ks) (h1 : Comp.progs ∈ ks) (h2 : Comp.fns ∈ ks) (h3 : Comp.chans ∈ ks) (h4 : Comp.clusters ∈ ks) (h5 : Comp.lock ∈ ks) (h6 : Comp.ports ∈ ks) (h7 : Comp.outst ∈ ks) (h8 : Comp.deliveries ∈ ks) (h9 : Comp.geo ∈ ks) (h10 : Comp.runs ∈ ks) (h11 : Comp.frames ∈ ks) (h12 : Comp.strata ∈ ks) (h13 : Comp.out ∈ ks) (h14 : Comp.telem ∈ ks) (h15 : Comp.loaded ∈ ks) :
    ChangesOnly ks r (s.loseBank b) ↔ ChangesOnly ks r s := by
  unfold State.loseBank
  simp only [↓losePool_only, h0, h1, h2, h3, h4, h5, h6, h7, h8, h9, h10, h11, h12, h13, h14, h15]
  rw [forEach_only fun _ _ => by simp only [↓loseArena_only, h0, h1, h2, h3, h4, h5, h6, h7, h8, h9, h10, h11, h12, h13, h14, h15]]
  simp only [↓loseSystem_only, ↓upd_geo_only, h0, h1, h2, h3, h4, h5, h6, h7, h8, h9, h10, h11, h12, h13, h14, h15]

theorem moveContexts_only {ks : List Comp} {r : State} (s : State) (e : EngNo)
    (h0 : Comp.waits ∈ ks) (h1 : Comp.fns ∈ ks) (h2 : Comp.chans ∈ ks) (h3 : Comp.frames ∈ ks) (h4 : Comp.out ∈ ks) :
    ChangesOnly ks r (State.moveContexts s e) ↔ ChangesOnly ks r s := by
  unfold State.moveContexts; (repeat' split) <;> (try (refine (forEach_only (fun _ _ => ?_) _ _).trans ?_)) <;> (try dsimp only) <;> (repeat' split) <;> simp [↓modChan_only, ↓slateNote_only, ↓upd_frames_only, ↓forEach_only, ↓ite_only, ite_self, h0, h1, h2, h3, h4]

theorem endPieceOn_only {ks : List Comp} {r : State} (s : State) (e : EngNo)
    (h0 : Comp.waits ∈ ks) (h1 : Comp.fns ∈ ks) (h2 : Comp.chans ∈ ks) (h3 : Comp.lock ∈ ks) (h4 : Comp.ports ∈ ks) (h5 : Comp.outst ∈ ks) (h6 : Comp.pieces ∈ ks) (h7 : Comp.deliveries ∈ ks) (h8 : Comp.geo ∈ ks) (h9 : Comp.runs ∈ ks) (h10 : Comp.frames ∈ ks) (h11 : Comp.out ∈ ks) (h12 : Comp.telem ∈ ks) (h13 : Comp.loaded ∈ ks) :
    ChangesOnly ks r (State.endPieceOn s e).1 ↔ ChangesOnly ks r s := by
  unfold State.endPieceOn; (repeat' split) <;> (try (refine (forEach_only (fun _ _ => ?_) _ _).trans ?_)) <;> (try dsimp only) <;> (repeat' split) <;> simp [↓endUnbinds_only, ↓settlePool_only, ↓dropOpen_only, ↓dropFrame_only, ↓upd_pieces_loaded_only, ↓upd_pieces_only, ↓forEach_only, ↓ite_only, ite_self, h0, h1, h2, h3, h4, h5, h6, h7, h8, h9, h10, h11, h12, h13]

theorem cutJobs_only {ks : List Comp} {r : State} (s : State) (unit : W16) (js : List CopyJob)
    (h0 : Comp.waits ∈ ks) (h1 : Comp.copies ∈ ks) (h2 : Comp.fns ∈ ks) (h3 : Comp.outst ∈ ks) (h4 : Comp.ext ∈ ks) (h5 : Comp.geo ∈ ks) (h6 : Comp.scratch ∈ ks) (h7 : Comp.out ∈ ks) (h8 : Comp.free ∈ ks) (h9 : Comp.stores ∈ ks) :
    ChangesOnly ks r (State.cutJobs s unit js).1 ↔ ChangesOnly ks r s := by
  unfold State.cutJobs
  repeat' (first | with_reducible rfl | assumption | intro _ | (simp only [↓draw_only, ↓cutJob_only, ↓ite_only, ite_self, h0, h1, h2, h3, h4, h5, h6, h7, h8, h9]) | rw [foldl_fst_only] | rw [foldl_only] | split | dsimp only)

theorem endExtJobs_only {ks : List Comp} {r : State} (s : State) (unit : W16)
    (h0 : Comp.waits ∈ ks) (h1 : Comp.copies ∈ ks) (h2 : Comp.fns ∈ ks) (h3 : Comp.outst ∈ ks) (h4 : Comp.ext ∈ ks) (h5 : Comp.geo ∈ ks) (h6 : Comp.scratch ∈ ks) (h7 : Comp.out ∈ ks) (h8 : Comp.free ∈ ks) (h9 : Comp.stores ∈ ks) :
    ChangesOnly ks r (State.endExtJobs s unit) ↔ ChangesOnly ks r s := by
  unfold State.endExtJobs; simp [↓cutJob_only, ↓forEach_only, ↓ite_only, ite_self, h0, h1, h2, h3, h4, h5, h6, h7, h8, h9]

theorem placeExt_only {ks : List Comp} {r : State} (s : State) (h0 : Comp.strata ∈ ks) (h1 : Comp.free ∈ ks) :
    ChangesOnly ks r s.placeExt ↔ ChangesOnly ks r s := by
  unfold State.placeExt
  refine (foldl_fst_only (fun x a => ?_) _ _).trans Iff.rfl
  simp only [↓modStratum_only, ↓draw_only, h0, h1]

theorem loseExt_only {ks : List Comp} {r : State} (s : State) (cs : List ExtNo)
    (h0 : Comp.slots ∈ ks) (h1 : Comp.waits ∈ ks) (h2 : Comp.copies ∈ ks) (h3 : Comp.fns ∈ ks) (h4 : Comp.outst ∈ ks) (h5 : Comp.ext ∈ ks) (h6 : Comp.geo ∈ ks) (h7 : Comp.scratch ∈ ks) (h8 : Comp.strata ∈ ks) (h9 : Comp.out ∈ ks) (h10 : Comp.free ∈ ks) (h11 : Comp.stores ∈ ks) :
    ChangesOnly ks r (State.loseExt s cs) ↔ ChangesOnly ks r s := by
  unfold State.loseExt
  repeat' (first | with_reducible rfl | (simp only [↓endExtJobs_only, ↓lapse_only, ↓placeExt_only, ↓upd_ext_only, ↓ite_only, ite_self, h0, h1, h2, h3, h4, h5, h6, h7, h8, h9, h10, h11]) | with_reducible (refine (forEach_only (fun _ _ => ?_) _ _).trans ?_) | split | dsimp only)

theorem extReady_only {ks : List Comp} {r : State} (s : State)
    (h0 : Comp.slots ∈ ks) (h1 : Comp.ext ∈ ks) :
    ChangesOnly ks r (extReady s) ↔ ChangesOnly ks r s := by
  unfold extReady; simp [↓lapseEnds_only, ↓upd_ext_only, ↓forEach_only, ↓ite_only, ite_self, h0, h1]

theorem fenceStep_only {ks : List Comp} {r : State} (s : State) (a1 : Unit_)
    (h0 : Comp.remaps ∈ ks) (h1 : Comp.waits ∈ ks) (h2 : Comp.progs ∈ ks) (h3 : Comp.fns ∈ ks) (h4 : Comp.chans ∈ ks) (h5 : Comp.clusters ∈ ks) (h6 : Comp.lock ∈ ks) (h7 : Comp.ports ∈ ks) (h8 : Comp.outst ∈ ks) (h9 : Comp.deliveries ∈ ks) (h10 : Comp.geo ∈ ks) (h11 : Comp.toReplace ∈ ks) (h12 : Comp.runs ∈ ks) (h13 : Comp.frames ∈ ks) (h14 : Comp.out ∈ ks) (h15 : Comp.telem ∈ ks) (h16 : Comp.units ∈ ks) (h17 : Comp.loaded ∈ ks) :
    ChangesOnly ks r (State.fenceStep s a1) ↔ ChangesOnly ks r s := by
  unfold State.fenceStep
  repeat' (first | with_reducible rfl | (simp only [↓loseCluster_only, ↓moveContexts_only, ↓modUnit_only, ↓forEach_only, ↓ite_only, ite_self, h0, h1, h2, h3, h4, h5, h6, h7, h8, h9, h10, h11, h12, h13, h14, h15, h16, h17]) | with_reducible (refine (forEach_only (fun _ _ => ?_) _ _).trans ?_) | split | dsimp only)

theorem fenceLapseEnds_only {ks : List Comp} {r : State} (s : State) (u : Unit_)
    (h0 : Comp.slots ∈ ks) :
    ChangesOnly ks r (State.fenceLapseEnds s u) ↔ ChangesOnly ks r s := by
  unfold State.fenceLapseEnds; (repeat' split) <;> simp [↓lapseEnds_only, ↓ite_only, ite_self, h0]

theorem laneLost_only {ks : List Comp} {r : State} (s : State) (l : LaneNo)
    (h0 : Comp.slots ∈ ks) (h1 : Comp.waits ∈ ks) (h2 : Comp.progs ∈ ks) (h3 : Comp.fns ∈ ks) (h4 : Comp.chans ∈ ks) (h5 : Comp.clusters ∈ ks) (h6 : Comp.lock ∈ ks) (h7 : Comp.ports ∈ ks) (h8 : Comp.outst ∈ ks) (h9 : Comp.deliveries ∈ ks) (h10 : Comp.geo ∈ ks) (h11 : Comp.faults ∈ ks) (h12 : Comp.runs ∈ ks) (h13 : Comp.frames ∈ ks) (h14 : Comp.out ∈ ks) (h15 : Comp.telem ∈ ks) (h16 : Comp.units ∈ ks) (h17 : Comp.loaded ∈ ks) (h18 : Comp.lanes ∈ ks) :
    ChangesOnly ks r (State.laneLost s l) ↔ ChangesOnly ks r s := by
  unfold State.laneLost; simp only [↓modPort_only, ↓toDisabled_only, ↓ite_only, ite_self, h0, h1, h2, h3, h4, h5, h6, h7, h8, h9, h10, h11, h12, h13, h14, h15, h16, h17, h18]

theorem cutSegment_only {ks : List Comp} {r : State} (s : State) (unit : W16)
    (h0 : Comp.waits ∈ ks) (h1 : Comp.progs ∈ ks) (h2 : Comp.copies ∈ ks) (h3 : Comp.fns ∈ ks) (h4 : Comp.chans ∈ ks) (h5 : Comp.clusters ∈ ks) (h6 : Comp.lock ∈ ks) (h7 : Comp.ports ∈ ks) (h8 : Comp.outst ∈ ks) (h9 : Comp.ext ∈ ks) (h10 : Comp.deliveries ∈ ks) (h11 : Comp.geo ∈ ks) (h12 : Comp.scratch ∈ ks) (h13 : Comp.runs ∈ ks) (h14 : Comp.frames ∈ ks) (h15 : Comp.out ∈ ks) (h16 : Comp.telem ∈ ks) (h17 : Comp.free ∈ ks) (h18 : Comp.stores ∈ ks) (h19 : Comp.loaded ∈ ks) :
    ChangesOnly ks r (State.cutSegment s unit).1 ↔ ChangesOnly ks r s := by
  unfold State.cutSegment
  repeat' (first | with_reducible rfl | assumption | intro _ | (simp only [↓cutJobs_only, ↓draw_only, ↓endOrRetry_only, ↓ite_only, ite_self, h0, h1, h2, h3, h4, h5, h6, h7, h8, h9, h10, h11, h12, h13, h14, h15, h16, h17, h18, h19]) | rw [foldl_fst_only] | rw [foldl_only] | split | dsimp only)

theorem endRequests_only {ks : List Comp} {r : State} (s : State) (a1 : Unit_)
    (h0 : Comp.waits ∈ ks) (h1 : Comp.progs ∈ ks) (h2 : Comp.copies ∈ ks) (h3 : Comp.fns ∈ ks) (h4 : Comp.chans ∈ ks) (h5 : Comp.clusters ∈ ks) (h6 : Comp.lock ∈ ks) (h7 : Comp.ports ∈ ks) (h8 : Comp.outst ∈ ks) (h9 : Comp.ext ∈ ks) (h10 : Comp.pieces ∈ ks) (h11 : Comp.deliveries ∈ ks) (h12 : Comp.geo ∈ ks) (h13 : Comp.scratch ∈ ks) (h14 : Comp.runs ∈ ks) (h15 : Comp.frames ∈ ks) (h16 : Comp.out ∈ ks) (h17 : Comp.telem ∈ ks) (h18 : Comp.free ∈ ks) (h19 : Comp.stores ∈ ks) (h20 : Comp.loaded ∈ ks) :
    ChangesOnly ks r (State.endRequests s a1).1 ↔ ChangesOnly ks r s := by
  unfold State.endRequests; (repeat' split) <;> simp [↓endPieceOn_only, ↓endJobsOn_only, ↓moveDeliveries_only, ↓cutJobs_only, ↓cutSegment_only, ↓ite_only, ite_self, h0, h1, h2, h3, h4, h5, h6, h7, h8, h9, h10, h11, h12, h13, h14, h15, h16, h17, h18, h19, h20]

theorem cutCost_only {ks : List Comp} {r : State} (s : State) (a1 : Unit_)
    (h0 : Comp.slots ∈ ks) (h1 : Comp.waits ∈ ks) (h2 : Comp.progs ∈ ks) (h3 : Comp.copies ∈ ks) (h4 : Comp.fns ∈ ks) (h5 : Comp.chans ∈ ks) (h6 : Comp.clusters ∈ ks) (h7 : Comp.lock ∈ ks) (h8 : Comp.ports ∈ ks) (h9 : Comp.outst ∈ ks) (h10 : Comp.ext ∈ ks) (h11 : Comp.deliveries ∈ ks) (h12 : Comp.geo ∈ ks) (h13 : Comp.faults ∈ ks) (h14 : Comp.scratch ∈ ks) (h15 : Comp.runs ∈ ks) (h16 : Comp.frames ∈ ks) (h17 : Comp.strata ∈ ks) (h18 : Comp.out ∈ ks) (h19 : Comp.telem ∈ ks) (h20 : Comp.free ∈ ks) (h21 : Comp.units ∈ ks) (h22 : Comp.stores ∈ ks) (h23 : Comp.loaded ∈ ks) (h24 : Comp.lanes ∈ ks) :
    ChangesOnly ks r (State.cutCost s a1) ↔ ChangesOnly ks r s := by
  unfold State.cutCost; (repeat' split) <;> simp [↓loseBank_only, ↓toDisabled_only, ↓loseExt_only, ↓modUnit_only, ↓laneLost_only, ↓forEach_only, ↓ite_only, ite_self, h0, h1, h2, h3, h4, h5, h6, h7, h8, h9, h10, h11, h12, h13, h14, h15, h16, h17, h18, h19, h20, h21, h22, h23, h24]

theorem cutEffects_only {ks : List Comp} {r : State} (s : State) (u : Unit_) (emptied : Bool)
    (h0 : Comp.slots ∈ ks) (h1 : Comp.waits ∈ ks) (h2 : Comp.progs ∈ ks) (h3 : Comp.copies ∈ ks) (h4 : Comp.fns ∈ ks) (h5 : Comp.chans ∈ ks) (h6 : Comp.clusters ∈ ks) (h7 : Comp.lock ∈ ks) (h8 : Comp.ports ∈ ks) (h9 : Comp.outst ∈ ks) (h10 : Comp.ext ∈ ks) (h11 : Comp.pieces ∈ ks) (h12 : Comp.deliveries ∈ ks) (h13 : Comp.geo ∈ ks) (h14 : Comp.faults ∈ ks) (h15 : Comp.scratch ∈ ks) (h16 : Comp.runs ∈ ks) (h17 : Comp.frames ∈ ks) (h18 : Comp.strata ∈ ks) (h19 : Comp.out ∈ ks) (h20 : Comp.telem ∈ ks) (h21 : Comp.free ∈ ks) (h22 : Comp.units ∈ ks) (h23 : Comp.stores ∈ ks) (h24 : Comp.loaded ∈ ks) (h25 : Comp.lanes ∈ ks) :
    ChangesOnly ks r (State.cutEffects s u emptied).1 ↔ ChangesOnly ks r s := by
  unfold State.cutEffects
  repeat' (first | with_reducible rfl | (simp only [↓cutCost_only, ↓moveDeliveries_only, ↓endRequests_only, ↓draw_only, ↓ite_only, ite_self, h0, h1, h2, h3, h4, h5, h6, h7, h8, h9, h10, h11, h12, h13, h14, h15, h16, h17, h18, h19, h20, h21, h22, h23, h24, h25]) | with_reducible (refine (forEach_only (fun _ _ => ?_) _ _).trans ?_) | split | dsimp only)

theorem cutStep_only {ks : List Comp} {r : State} (s : State) (u : Unit_) (emptied : Bool)
    (h0 : Comp.slots ∈ ks) (h1 : Comp.waits ∈ ks) (h2 : Comp.progs ∈ ks) (h3 : Comp.copies ∈ ks) (h4 : Comp.fns ∈ ks) (h5 : Comp.chans ∈ ks) (h6 : Comp.clusters ∈ ks) (h7 : Comp.lock ∈ ks) (h8 : Comp.ports ∈ ks) (h9 : Comp.outst ∈ ks) (h10 : Comp.ext ∈ ks) (h11 : Comp.pieces ∈ ks) (h12 : Comp.deliveries ∈ ks) (h13 : Comp.geo ∈ ks) (h14 : Comp.faults ∈ ks) (h15 : Comp.scratch ∈ ks) (h16 : Comp.runs ∈ ks) (h17 : Comp.frames ∈ ks) (h18 : Comp.strata ∈ ks) (h19 : Comp.out ∈ ks) (h20 : Comp.telem ∈ ks) (h21 : Comp.free ∈ ks) (h22 : Comp.units ∈ ks) (h23 : Comp.stores ∈ ks) (h24 : Comp.loaded ∈ ks) (h25 : Comp.lanes ∈ ks) :
    ChangesOnly ks r (State.cutStep s u emptied).1 ↔ ChangesOnly ks r s := by
  unfold State.cutStep; simp only [↓cutEffects_only, ↓fenceLapseEnds_only, ↓modUnit_only, ↓ite_only, ite_self, h0, h1, h2, h3, h4, h5, h6, h7, h8, h9, h10, h11, h12, h13, h14, h15, h16, h17, h18, h19, h20, h21, h22, h23, h24, h25]

theorem fenceUnit_only {ks : List Comp} {r : State} (s : State) (u : Unit_) (cause : BitVec 8) (retire : Bool) (detail : BitVec 224)
    (h0 : Comp.remaps ∈ ks) (h1 : Comp.slots ∈ ks) (h2 : Comp.waits ∈ ks) (h3 : Comp.progs ∈ ks) (h4 : Comp.fns ∈ ks) (h5 : Comp.chans ∈ ks) (h6 : Comp.clusters ∈ ks) (h7 : Comp.lock ∈ ks) (h8 : Comp.ports ∈ ks) (h9 : Comp.outst ∈ ks) (h10 : Comp.deliveries ∈ ks) (h11 : Comp.geo ∈ ks) (h12 : Comp.faults ∈ ks) (h13 : Comp.toReplace ∈ ks) (h14 : Comp.runs ∈ ks) (h15 : Comp.frames ∈ ks) (h16 : Comp.out ∈ ks) (h17 : Comp.telem ∈ ks) (h18 : Comp.nv ∈ ks) (h19 : Comp.units ∈ ks) (h20 : Comp.loaded ∈ ks) :
    ChangesOnly ks r (State.fenceUnit s u cause retire detail) ↔ ChangesOnly ks r s := by
  unfold State.fenceUnit; (repeat' split) <;> simp [↓fault_only, ↓modUnit_only, ↓unitFailed_only, ↓lapse_only, ↓fenceStep_only, ↓recordSystem_only, ↓ite_only, ite_self, h0, h1, h2, h3, h4, h5, h6, h7, h8, h9, h10, h11, h12, h13, h14, h15, h16, h17, h18, h19, h20]

theorem failUnit_only {ks : List Comp} {r : State} (s : State) (u : Unit_) (cause : BitVec 8) (detail : BitVec 224)
    (h0 : Comp.remaps ∈ ks) (h1 : Comp.slots ∈ ks) (h2 : Comp.waits ∈ ks) (h3 : Comp.progs ∈ ks) (h4 : Comp.copies ∈ ks) (h5 : Comp.fns ∈ ks) (h6 : Comp.chans ∈ ks) (h7 : Comp.clusters ∈ ks) (h8 : Comp.lock ∈ ks) (h9 : Comp.ports ∈ ks) (h10 : Comp.outst ∈ ks) (h11 : Comp.ext ∈ ks) (h12 : Comp.pieces ∈ ks) (h13 : Comp.deliveries ∈ ks) (h14 : Comp.geo ∈ ks) (h15 : Comp.faults ∈ ks) (h16 : Comp.toReplace ∈ ks) (h17 : Comp.scratch ∈ ks) (h18 : Comp.runs ∈ ks) (h19 : Comp.frames ∈ ks) (h20 : Comp.strata ∈ ks) (h21 : Comp.out ∈ ks) (h22 : Comp.telem ∈ ks) (h23 : Comp.nv ∈ ks) (h24 : Comp.free ∈ ks) (h25 : Comp.units ∈ ks) (h26 : Comp.stores ∈ ks) (h27 : Comp.loaded ∈ ks) (h28 : Comp.lanes ∈ ks) :
    ChangesOnly ks r (State.failUnit s u cause detail) ↔ ChangesOnly ks r s := by
  unfold State.failUnit; (repeat' split) <;> simp [↓laneFailBy_only, ↓cutStep_only, ↓fenceUnit_only, ↓recordSystem_only, ↓modUnit_only, ↓completeOk_only, ↓ite_only, ite_self, h0, h1, h2, h3, h4, h5, h6, h7, h8, h9, h10, h11, h12, h13, h14, h15, h16, h17, h18, h19, h20, h21, h22, h23, h24, h25, h26, h27, h28]

theorem returnUnit_only {ks : List Comp} {r : State} (s : State) (u : Unit_)
    (h0 : Comp.waits ∈ ks) (h1 : Comp.fns ∈ ks) (h2 : Comp.chans ∈ ks) (h3 : Comp.clusters ∈ ks) (h4 : Comp.ports ∈ ks) (h5 : Comp.geo ∈ ks) (h6 : Comp.scratch ∈ ks) (h7 : Comp.out ∈ ks) (h8 : Comp.telem ∈ ks) (h9 : Comp.units ∈ ks) :
    ChangesOnly ks r (State.returnUnit s u) ↔ ChangesOnly ks r s := by
  unfold State.returnUnit
  repeat' (first | with_reducible rfl | (simp only [↓modUnit_only, ↓zeroCluster_only, ↓modPort_only, ↓settlePool_only, ↓refillPool_only, ↓forEach_only, ↓ite_only, ite_self, h0, h1, h2, h3, h4, h5, h6, h7, h8, h9]) | with_reducible (refine (forEach_only (fun _ _ => ?_) _ _).trans ?_) | split | dsimp only)

theorem noteReturn_only {ks : List Comp} {r : State} (s : State) (u : Unit_)
    (h0 : Comp.waits ∈ ks) (h1 : Comp.fns ∈ ks) (h2 : Comp.faults ∈ ks) (h3 : Comp.out ∈ ks) (h4 : Comp.telem ∈ ks) (h5 : Comp.nv ∈ ks) :
    ChangesOnly ks r (State.noteReturn s u) ↔ ChangesOnly ks r s := by
  unfold State.noteReturn; simp only [↓fault_only, ↓recordSystem_only, ↓occur_only, ↓ite_only, ite_self, h0, h1, h2, h3, h4, h5]

theorem execSpareReplacement_only {ks : List Comp} {r t : State} {s : State}
    (e : execSpareReplacement s = .next t) (h0 : Comp.waits ∈ ks) (h1 : Comp.progs ∈ ks) (h2 : Comp.fns ∈ ks) (h3 : Comp.chans ∈ ks) (h4 : Comp.clusters ∈ ks) (h5 : Comp.lock ∈ ks) (h6 : Comp.ports ∈ ks) (h7 : Comp.outst ∈ ks) (h8 : Comp.mapping ∈ ks) (h9 : Comp.deliveries ∈ ks) (h10 : Comp.geo ∈ ks) (h11 : Comp.faults ∈ ks) (h12 : Comp.toReplace ∈ ks) (h13 : Comp.lastPhys ∈ ks) (h14 : Comp.scratch ∈ ks) (h15 : Comp.runs ∈ ks) (h16 : Comp.frames ∈ ks) (h17 : Comp.out ∈ ks) (h18 : Comp.telem ∈ ks) (h19 : Comp.nv ∈ ks) (h20 : Comp.loaded ∈ ks) (h21 : Comp.repro ∈ ks) :
    ChangesOnly ks r t ↔ ChangesOnly ks r s := by
  injection e with e; subst e; simp only [↓replaceOne_only, ↓ite_only, ite_self, h0, h1, h2, h3, h4, h5, h6, h7, h8, h9, h10, h11, h12, h13, h14, h15, h16, h17, h18, h19, h20, h21]

theorem execRestoration_only {ks : List Comp} {r t : State} {s : State}
    (e : execRestoration s = .next t) (h0 : Comp.waits ∈ ks) (h1 : Comp.progs ∈ ks) (h2 : Comp.fns ∈ ks) (h3 : Comp.chans ∈ ks) (h4 : Comp.clusters ∈ ks) (h5 : Comp.lock ∈ ks) (h6 : Comp.ports ∈ ks) (h7 : Comp.outst ∈ ks) (h8 : Comp.mapping ∈ ks) (h9 : Comp.deliveries ∈ ks) (h10 : Comp.geo ∈ ks) (h11 : Comp.faults ∈ ks) (h12 : Comp.lastPhys ∈ ks) (h13 : Comp.scratch ∈ ks) (h14 : Comp.runs ∈ ks) (h15 : Comp.frames ∈ ks) (h16 : Comp.out ∈ ks) (h17 : Comp.telem ∈ ks) (h18 : Comp.nv ∈ ks) (h19 : Comp.loaded ∈ ks) (h20 : Comp.repro ∈ ks) :
    ChangesOnly ks r t ↔ ChangesOnly ks r s := by
  injection e with e; subst e; simp only [↓restoreNext_only, ↓ite_only, ite_self, h0, h1, h2, h3, h4, h5, h6, h7, h8, h9, h10, h11, h12, h13, h14, h15, h16, h17, h18, h19, h20]

theorem execExtReinitComplete_only {ks : List Comp} {r t : State} {s : State}
    (e : execExtReinitComplete s = .next t) (h0 : Comp.slots ∈ ks) (h1 : Comp.ext ∈ ks) :
    ChangesOnly ks r t ↔ ChangesOnly ks r s := by
  injection e with e; subst e; simp only [↓extReady_only, ↓ite_only, ite_self, h0, h1]

/-! ### Ext -/

theorem tellPoisoned_only {ks : List Comp} {r : State} (s : State) (w : ExtNo × Nat)
    (h0 : Comp.waits ∈ ks) (h1 : Comp.fns ∈ ks) (h2 : Comp.ext ∈ ks) (h3 : Comp.out ∈ ks) :
    ChangesOnly ks r (State.tellPoisoned s w) ↔ ChangesOnly ks r s := by
  simp only [State.tellPoisoned]; (repeat' split) <;> simp [↓occur_only, ↓upd_ext_only, ↓ite_only, ite_self, h0, h1, h2, h3]

theorem poison_only {ks : List Comp} {r : State} (s : State) (w : ExtNo × Nat)
    (h0 : Comp.remaps ∈ ks) (h1 : Comp.slots ∈ ks) (h2 : Comp.waits ∈ ks) (h3 : Comp.progs ∈ ks) (h4 : Comp.copies ∈ ks) (h5 : Comp.fns ∈ ks) (h6 : Comp.chans ∈ ks) (h7 : Comp.clusters ∈ ks) (h8 : Comp.lock ∈ ks) (h9 : Comp.ports ∈ ks) (h10 : Comp.outst ∈ ks) (h11 : Comp.ext ∈ ks) (h12 : Comp.pieces ∈ ks) (h13 : Comp.deliveries ∈ ks) (h14 : Comp.geo ∈ ks) (h15 : Comp.faults ∈ ks) (h16 : Comp.toReplace ∈ ks) (h17 : Comp.scratch ∈ ks) (h18 : Comp.runs ∈ ks) (h19 : Comp.frames ∈ ks) (h20 : Comp.strata ∈ ks) (h21 : Comp.out ∈ ks) (h22 : Comp.telem ∈ ks) (h23 : Comp.nv ∈ ks) (h24 : Comp.free ∈ ks) (h25 : Comp.units ∈ ks) (h26 : Comp.stores ∈ ks) (h27 : Comp.loaded ∈ ks) (h28 : Comp.lanes ∈ ks) :
    ChangesOnly ks r (State.poison s w) ↔ ChangesOnly ks r s := by
  unfold State.poison; simp only [↓tellPoisoned_only, ↓failUnit_only, ↓upd_ext_only, ↓upd_telem_only, ↓upd_ext_telem_only, ↓ite_only, ite_self, h0, h1, h2, h3, h4, h5, h6, h7, h8, h9, h10, h11, h12, h13, h14, h15, h16, h17, h18, h19, h20, h21, h22, h23, h24, h25, h26, h27, h28]

theorem foundWord_only {ks : List Comp} {r : State} (s : State) (w : ExtNo × Nat) (a2 : Ecc)
    (h0 : Comp.remaps ∈ ks) (h1 : Comp.slots ∈ ks) (h2 : Comp.waits ∈ ks) (h3 : Comp.progs ∈ ks) (h4 : Comp.copies ∈ ks) (h5 : Comp.fns ∈ ks) (h6 : Comp.chans ∈ ks) (h7 : Comp.clusters ∈ ks) (h8 : Comp.lock ∈ ks) (h9 : Comp.ports ∈ ks) (h10 : Comp.outst ∈ ks) (h11 : Comp.ext ∈ ks) (h12 : Comp.pieces ∈ ks) (h13 : Comp.deliveries ∈ ks) (h14 : Comp.geo ∈ ks) (h15 : Comp.faults ∈ ks) (h16 : Comp.toReplace ∈ ks) (h17 : Comp.scratch ∈ ks) (h18 : Comp.runs ∈ ks) (h19 : Comp.frames ∈ ks) (h20 : Comp.strata ∈ ks) (h21 : Comp.out ∈ ks) (h22 : Comp.telem ∈ ks) (h23 : Comp.nv ∈ ks) (h24 : Comp.free ∈ ks) (h25 : Comp.units ∈ ks) (h26 : Comp.stores ∈ ks) (h27 : Comp.loaded ∈ ks) (h28 : Comp.lanes ∈ ks) :
    ChangesOnly ks r (State.foundWord s w a2) ↔ ChangesOnly ks r s := by
  unfold State.foundWord; (repeat' split) <;> simp [↓poison_only, ↓upd_telem_only, ↓ite_only, ite_self, h0, h1, h2, h3, h4, h5, h6, h7, h8, h9, h10, h11, h12, h13, h14, h15, h16, h17, h18, h19, h20, h21, h22, h23, h24, h25, h26, h27, h28]

theorem foundAt_only {ks : List Comp} {r : State} (s : State) (n : FnNo) (a : Nat) (e : Ecc)
    (h0 : Comp.remaps ∈ ks) (h1 : Comp.slots ∈ ks) (h2 : Comp.waits ∈ ks) (h3 : Comp.progs ∈ ks) (h4 : Comp.copies ∈ ks) (h5 : Comp.fns ∈ ks) (h6 : Comp.chans ∈ ks) (h7 : Comp.clusters ∈ ks) (h8 : Comp.lock ∈ ks) (h9 : Comp.ports ∈ ks) (h10 : Comp.outst ∈ ks) (h11 : Comp.ext ∈ ks) (h12 : Comp.pieces ∈ ks) (h13 : Comp.deliveries ∈ ks) (h14 : Comp.geo ∈ ks) (h15 : Comp.faults ∈ ks) (h16 : Comp.toReplace ∈ ks) (h17 : Comp.scratch ∈ ks) (h18 : Comp.runs ∈ ks) (h19 : Comp.frames ∈ ks) (h20 : Comp.strata ∈ ks) (h21 : Comp.out ∈ ks) (h22 : Comp.telem ∈ ks) (h23 : Comp.nv ∈ ks) (h24 : Comp.free ∈ ks) (h25 : Comp.units ∈ ks) (h26 : Comp.stores ∈ ks) (h27 : Comp.loaded ∈ ks) (h28 : Comp.lanes ∈ ks) :
    ChangesOnly ks r (State.foundAt s n a e) ↔ ChangesOnly ks r s := by
  simp only [State.foundAt]; (repeat' split) <;> simp [↓failUnit_only, ↓foundWord_only, ↓upd_telem_only, ↓ite_only, ite_self, h0, h1, h2, h3, h4, h5, h6, h7, h8, h9, h10, h11, h12, h13, h14, h15, h16, h17, h18, h19, h20, h21, h22, h23, h24, h25, h26, h27, h28]

theorem copyFound_only {ks : List Comp} {r : State} (e : EngNo) (n : FnNo) (x : Nat × Ecc) (s : State)
    (h0 : Comp.remaps ∈ ks) (h1 : Comp.slots ∈ ks) (h2 : Comp.waits ∈ ks) (h3 : Comp.progs ∈ ks) (h4 : Comp.copies ∈ ks) (h5 : Comp.fns ∈ ks) (h6 : Comp.chans ∈ ks) (h7 : Comp.clusters ∈ ks) (h8 : Comp.lock ∈ ks) (h9 : Comp.ports ∈ ks) (h10 : Comp.outst ∈ ks) (h11 : Comp.ext ∈ ks) (h12 : Comp.pieces ∈ ks) (h13 : Comp.deliveries ∈ ks) (h14 : Comp.geo ∈ ks) (h15 : Comp.faults ∈ ks) (h16 : Comp.toReplace ∈ ks) (h17 : Comp.scratch ∈ ks) (h18 : Comp.runs ∈ ks) (h19 : Comp.frames ∈ ks) (h20 : Comp.strata ∈ ks) (h21 : Comp.out ∈ ks) (h22 : Comp.telem ∈ ks) (h23 : Comp.nv ∈ ks) (h24 : Comp.free ∈ ks) (h25 : Comp.units ∈ ks) (h26 : Comp.stores ∈ ks) (h27 : Comp.loaded ∈ ks) (h28 : Comp.lanes ∈ ks) :
    ChangesOnly ks r (copyFound e n x s) ↔ ChangesOnly ks r s := by
  simp only [copyFound]; (repeat' split) <;> simp [↓foundAt_only, ↓cutJob_only, ↓ite_only, ite_self, h0, h1, h2, h3, h4, h5, h6, h7, h8, h9, h10, h11, h12, h13, h14, h15, h16, h17, h18, h19, h20, h21, h22, h23, h24, h25, h26, h27, h28]

theorem deliveryFound_only {ks : List Comp} {r : State} (e : EngNo) (n : FnNo) (x : Nat × Ecc) (s : State)
    (h0 : Comp.remaps ∈ ks) (h1 : Comp.slots ∈ ks) (h2 : Comp.waits ∈ ks) (h3 : Comp.progs ∈ ks) (h4 : Comp.copies ∈ ks) (h5 : Comp.fns ∈ ks) (h6 : Comp.chans ∈ ks) (h7 : Comp.clusters ∈ ks) (h8 : Comp.lock ∈ ks) (h9 : Comp.ports ∈ ks) (h10 : Comp.outst ∈ ks) (h11 : Comp.ext ∈ ks) (h12 : Comp.pieces ∈ ks) (h13 : Comp.deliveries ∈ ks) (h14 : Comp.geo ∈ ks) (h15 : Comp.faults ∈ ks) (h16 : Comp.toReplace ∈ ks) (h17 : Comp.scratch ∈ ks) (h18 : Comp.runs ∈ ks) (h19 : Comp.frames ∈ ks) (h20 : Comp.strata ∈ ks) (h21 : Comp.out ∈ ks) (h22 : Comp.telem ∈ ks) (h23 : Comp.nv ∈ ks) (h24 : Comp.free ∈ ks) (h25 : Comp.units ∈ ks) (h26 : Comp.stores ∈ ks) (h27 : Comp.loaded ∈ ks) (h28 : Comp.lanes ∈ ks) :
    ChangesOnly ks r (deliveryFound e n x s) ↔ ChangesOnly ks r s := by
  unfold deliveryFound; (repeat' split) <;> simp [↓foundAt_only, ↓ite_only, ite_self, h0, h1, h2, h3, h4, h5, h6, h7, h8, h9, h10, h11, h12, h13, h14, h15, h16, h17, h18, h19, h20, h21, h22, h23, h24, h25, h26, h27, h28]

theorem patrolRead_only {ks : List Comp} {r : State} (c : ExtNo) (k : Nat) (e : Ecc) (s : State)
    (h0 : Comp.remaps ∈ ks) (h1 : Comp.slots ∈ ks) (h2 : Comp.waits ∈ ks) (h3 : Comp.progs ∈ ks) (h4 : Comp.copies ∈ ks) (h5 : Comp.fns ∈ ks) (h6 : Comp.chans ∈ ks) (h7 : Comp.clusters ∈ ks) (h8 : Comp.lock ∈ ks) (h9 : Comp.ports ∈ ks) (h10 : Comp.outst ∈ ks) (h11 : Comp.ext ∈ ks) (h12 : Comp.pieces ∈ ks) (h13 : Comp.deliveries ∈ ks) (h14 : Comp.geo ∈ ks) (h15 : Comp.faults ∈ ks) (h16 : Comp.toReplace ∈ ks) (h17 : Comp.scratch ∈ ks) (h18 : Comp.runs ∈ ks) (h19 : Comp.frames ∈ ks) (h20 : Comp.strata ∈ ks) (h21 : Comp.out ∈ ks) (h22 : Comp.telem ∈ ks) (h23 : Comp.nv ∈ ks) (h24 : Comp.free ∈ ks) (h25 : Comp.units ∈ ks) (h26 : Comp.stores ∈ ks) (h27 : Comp.loaded ∈ ks) (h28 : Comp.lanes ∈ ks) :
    ChangesOnly ks r (patrolRead c k e s) ↔ ChangesOnly ks r s := by
  unfold patrolRead; simp only [↓foundWord_only, ↓ite_only, ite_self, h0, h1, h2, h3, h4, h5, h6, h7, h8, h9, h10, h11, h12, h13, h14, h15, h16, h17, h18, h19, h20, h21, h22, h23, h24, h25, h26, h27, h28]

theorem track_only {ks : List Comp} {r : State} (c : ExtNo) (failure : Bool) (s : State)
    (h0 : Comp.remaps ∈ ks) (h1 : Comp.slots ∈ ks) (h2 : Comp.waits ∈ ks) (h3 : Comp.progs ∈ ks) (h4 : Comp.copies ∈ ks) (h5 : Comp.fns ∈ ks) (h6 : Comp.chans ∈ ks) (h7 : Comp.tick ∈ ks) (h8 : Comp.clusters ∈ ks) (h9 : Comp.lock ∈ ks) (h10 : Comp.ports ∈ ks) (h11 : Comp.outst ∈ ks) (h12 : Comp.ext ∈ ks) (h13 : Comp.pieces ∈ ks) (h14 : Comp.deliveries ∈ ks) (h15 : Comp.geo ∈ ks) (h16 : Comp.faults ∈ ks) (h17 : Comp.toReplace ∈ ks) (h18 : Comp.scratch ∈ ks) (h19 : Comp.runs ∈ ks) (h20 : Comp.frames ∈ ks) (h21 : Comp.strata ∈ ks) (h22 : Comp.out ∈ ks) (h23 : Comp.telem ∈ ks) (h24 : Comp.nv ∈ ks) (h25 : Comp.free ∈ ks) (h26 : Comp.units ∈ ks) (h27 : Comp.stores ∈ ks) (h28 : Comp.loaded ∈ ks) (h29 : Comp.lanes ∈ ks) :
    ChangesOnly ks r (track c failure s) ↔ ChangesOnly ks r s := by
  unfold track; (repeat' split) <;> simp [↓reach_only, ↓failUnit_only, ↓ite_only, ite_self, h0, h1, h2, h3, h4, h5, h6, h7, h8, h9, h10, h11, h12, h13, h14, h15, h16, h17, h18, h19, h20, h21, h22, h23, h24, h25, h26, h27, h28, h29]

theorem fixedRefreshAt_only {ks : List Comp} {r : State} (c : ExtNo) (s : State)
    (h0 : Comp.tick ∈ ks) :
    ChangesOnly ks r (fixedRefreshAt c s) ↔ ChangesOnly ks r s := by
  unfold fixedRefreshAt; (repeat' split) <;> simp [↓reach_only, ↓ite_only, ite_self, h0]

theorem execCopyJobComplete_only {ks : List Comp} {r t : State} {engine : EngNo} {stratum : FnNo} {host : List Byte} {outcome : CopyOutcome} {s : State}
    (e : execCopyJobComplete engine stratum host outcome s = .next t) (h0 : Comp.remaps ∈ ks) (h1 : Comp.slots ∈ ks) (h2 : Comp.waits ∈ ks) (h3 : Comp.progs ∈ ks) (h4 : Comp.copies ∈ ks) (h5 : Comp.fns ∈ ks) (h6 : Comp.chans ∈ ks) (h7 : Comp.clusters ∈ ks) (h8 : Comp.lock ∈ ks) (h9 : Comp.ports ∈ ks) (h10 : Comp.outst ∈ ks) (h11 : Comp.ext ∈ ks) (h12 : Comp.pieces ∈ ks) (h13 : Comp.deliveries ∈ ks) (h14 : Comp.geo ∈ ks) (h15 : Comp.faults ∈ ks) (h16 : Comp.toReplace ∈ ks) (h17 : Comp.scratch ∈ ks) (h18 : Comp.runs ∈ ks) (h19 : Comp.frames ∈ ks) (h20 : Comp.strata ∈ ks) (h21 : Comp.out ∈ ks) (h22 : Comp.telem ∈ ks) (h23 : Comp.nv ∈ ks) (h24 : Comp.free ∈ ks) (h25 : Comp.units ∈ ks) (h26 : Comp.stores ∈ ks) (h27 : Comp.loaded ∈ ks) (h28 : Comp.lanes ∈ ks) :
    ChangesOnly ks r t ↔ ChangesOnly ks r s := by
  injection e with e; subst e; (repeat' split) <;> simp only [↓finishCopy_only, ↓copyFound_only, ↓ite_only, ite_self, h0, h1, h2, h3, h4, h5, h6, h7, h8, h9, h10, h11, h12, h13, h14, h15, h16, h17, h18, h19, h20, h21, h22, h23, h24, h25, h26, h27, h28]

theorem execDeliveryJobComplete_only {ks : List Comp} {r t : State} {job : EngineJob} {found : Option (Nat × Ecc)} {s : State}
    (e : execDeliveryJobComplete job found s = .next t) (h0 : Comp.remaps ∈ ks) (h1 : Comp.slots ∈ ks) (h2 : Comp.waits ∈ ks) (h3 : Comp.progs ∈ ks) (h4 : Comp.copies ∈ ks) (h5 : Comp.fns ∈ ks) (h6 : Comp.chans ∈ ks) (h7 : Comp.clusters ∈ ks) (h8 : Comp.lock ∈ ks) (h9 : Comp.ports ∈ ks) (h10 : Comp.outst ∈ ks) (h11 : Comp.ext ∈ ks) (h12 : Comp.pieces ∈ ks) (h13 : Comp.deliveries ∈ ks) (h14 : Comp.geo ∈ ks) (h15 : Comp.faults ∈ ks) (h16 : Comp.toReplace ∈ ks) (h17 : Comp.scratch ∈ ks) (h18 : Comp.runs ∈ ks) (h19 : Comp.frames ∈ ks) (h20 : Comp.strata ∈ ks) (h21 : Comp.out ∈ ks) (h22 : Comp.telem ∈ ks) (h23 : Comp.nv ∈ ks) (h24 : Comp.free ∈ ks) (h25 : Comp.units ∈ ks) (h26 : Comp.stores ∈ ks) (h27 : Comp.loaded ∈ ks) (h28 : Comp.lanes ∈ ks) :
    ChangesOnly ks r t ↔ ChangesOnly ks r s := by
  injection e with e; subst e; (repeat' split) <;> simp only [↓endDelivery_only, ↓deliveryFound_only, ↓ite_only, ite_self, h0, h1, h2, h3, h4, h5, h6, h7, h8, h9, h10, h11, h12, h13, h14, h15, h16, h17, h18, h19, h20, h21, h22, h23, h24, h25, h26, h27, h28]

theorem execPatrolRead_only {ks : List Comp} {r t : State} {channel : ExtNo} {word : Nat} {found : Ecc} {s : State}
    (e : execPatrolRead channel word found s = .next t) (h0 : Comp.remaps ∈ ks) (h1 : Comp.slots ∈ ks) (h2 : Comp.waits ∈ ks) (h3 : Comp.progs ∈ ks) (h4 : Comp.copies ∈ ks) (h5 : Comp.fns ∈ ks) (h6 : Comp.chans ∈ ks) (h7 : Comp.clusters ∈ ks) (h8 : Comp.lock ∈ ks) (h9 : Comp.ports ∈ ks) (h10 : Comp.outst ∈ ks) (h11 : Comp.ext ∈ ks) (h12 : Comp.pieces ∈ ks) (h13 : Comp.deliveries ∈ ks) (h14 : Comp.geo ∈ ks) (h15 : Comp.faults ∈ ks) (h16 : Comp.toReplace ∈ ks) (h17 : Comp.scratch ∈ ks) (h18 : Comp.runs ∈ ks) (h19 : Comp.frames ∈ ks) (h20 : Comp.strata ∈ ks) (h21 : Comp.out ∈ ks) (h22 : Comp.telem ∈ ks) (h23 : Comp.nv ∈ ks) (h24 : Comp.free ∈ ks) (h25 : Comp.units ∈ ks) (h26 : Comp.stores ∈ ks) (h27 : Comp.loaded ∈ ks) (h28 : Comp.lanes ∈ ks) :
    ChangesOnly ks r t ↔ ChangesOnly ks r s := by
  injection e with e; subst e; simp only [↓patrolRead_only, ↓ite_only, ite_self, h0, h1, h2, h3, h4, h5, h6, h7, h8, h9, h10, h11, h12, h13, h14, h15, h16, h17, h18, h19, h20, h21, h22, h23, h24, h25, h26, h27, h28]

theorem execTracking_only {ks : List Comp} {r t : State} {channel : ExtNo} {failure : Bool} {s : State}
    (e : execTracking channel failure s = .next t) (h0 : Comp.remaps ∈ ks) (h1 : Comp.slots ∈ ks) (h2 : Comp.waits ∈ ks) (h3 : Comp.progs ∈ ks) (h4 : Comp.copies ∈ ks) (h5 : Comp.fns ∈ ks) (h6 : Comp.chans ∈ ks) (h7 : Comp.tick ∈ ks) (h8 : Comp.clusters ∈ ks) (h9 : Comp.lock ∈ ks) (h10 : Comp.ports ∈ ks) (h11 : Comp.outst ∈ ks) (h12 : Comp.ext ∈ ks) (h13 : Comp.pieces ∈ ks) (h14 : Comp.deliveries ∈ ks) (h15 : Comp.geo ∈ ks) (h16 : Comp.faults ∈ ks) (h17 : Comp.toReplace ∈ ks) (h18 : Comp.scratch ∈ ks) (h19 : Comp.runs ∈ ks) (h20 : Comp.frames ∈ ks) (h21 : Comp.strata ∈ ks) (h22 : Comp.out ∈ ks) (h23 : Comp.telem ∈ ks) (h24 : Comp.nv ∈ ks) (h25 : Comp.free ∈ ks) (h26 : Comp.units ∈ ks) (h27 : Comp.stores ∈ ks) (h28 : Comp.loaded ∈ ks) (h29 : Comp.lanes ∈ ks) :
    ChangesOnly ks r t ↔ ChangesOnly ks r s := by
  injection e with e; subst e; simp only [↓track_only, ↓ite_only, ite_self, h0, h1, h2, h3, h4, h5, h6, h7, h8, h9, h10, h11, h12, h13, h14, h15, h16, h17, h18, h19, h20, h21, h22, h23, h24, h25, h26, h27, h28, h29]

theorem execFixedRefresh_only {ks : List Comp} {r t : State} {channel : ExtNo} {s : State}
    (e : execFixedRefresh channel s = .next t) (h0 : Comp.tick ∈ ks) :
    ChangesOnly ks r t ↔ ChangesOnly ks r s := by
  injection e with e; subst e; simp only [↓fixedRefreshAt_only, ↓ite_only, ite_self, h0]

theorem execAdaptiveRefresh_only {ks : List Comp} {r t : State} {_channel : ExtNo} {s : State}
    (e : execAdaptiveRefresh _channel s = .next t)  :
    ChangesOnly ks r t ↔ ChangesOnly ks r s := by
  injection e with e; subst e; simp only [↓ite_only, ite_self]

/-! ### HostIf -/

theorem hostAccess_only {ks : List Comp} {r : State} (fn : FnNo) {f : State → State} (s : State)
    (h0 : Comp.out ∈ ks) (hf : ∀ t, ChangesOnly ks r (f t) ↔ ChangesOnly ks r t) :
    ChangesOnly ks r (hostAccess fn f s) ↔ ChangesOnly ks r s := by
  unfold hostAccess
  (repeat' split) <;> simp only [↓emit_only, ↓hf, h0]

theorem qpError_only {ks : List Comp} {r : State} (fn : FnNo) (qp : QpNo) (s : State)
    (h0 : Comp.fns ∈ ks) (h1 : Comp.out ∈ ks) :
    ChangesOnly ks r (qpError fn qp s) ↔ ChangesOnly ks r s := by
  unfold qpError; simp only [↓raise_only, ↓modQp_only, ↓ite_only, ite_self, h0, h1]

theorem evqError_only {ks : List Comp} {r : State} (fn : FnNo) (s : State)
    (h0 : Comp.fns ∈ ks) (h1 : Comp.out ∈ ks) :
    ChangesOnly ks r (evqError fn s) ↔ ChangesOnly ks r s := by
  unfold evqError; simp only [↓raise_only, ↓modEvq_only, ↓ite_only, ite_self, h0, h1]

theorem disableQueue_only {ks : List Comp} {r : State} (fn : FnNo) (qp : QpNo) (s : State)
    (h0 : Comp.fns ∈ ks) (h1 : Comp.outst ∈ ks) (h2 : Comp.out ∈ ks) :
    ChangesOnly ks r (disableQueue fn qp s) ↔ ChangesOnly ks r s := by
  unfold disableQueue; simp only [↓settleQueue_only, ↓modQp_only, ↓upd_outst_only, ↓ite_only, ite_self, h0, h1, h2]

theorem writeSqSize_only {ks : List Comp} {r : State} (fn : FnNo) (qp : QpNo) (v : W32) (s : State)
    (h0 : Comp.fns ∈ ks) (h1 : Comp.outst ∈ ks) (h2 : Comp.out ∈ ks) :
    ChangesOnly ks r (writeSqSize fn qp v s) ↔ ChangesOnly ks r s := by
  unfold writeSqSize; simp only [↓modQp_only, ↓startQueue_only, ↓disableQueue_only, ↓ite_only, ite_self, h0, h1, h2]

theorem writeTail_only {ks : List Comp} {r : State} (fn : FnNo) (qp : QpNo) (v : W32) (s : State)
    (h0 : Comp.fns ∈ ks) (h1 : Comp.out ∈ ks) :
    ChangesOnly ks r (writeTail fn qp v s) ↔ ChangesOnly ks r s := by
  unfold writeTail; simp only [↓modQp_only, ↓qpError_only, ↓ite_only, ite_self, h0, h1]

theorem writeCqHead_only {ks : List Comp} {r : State} (fn : FnNo) (qp : QpNo) (v : W32) (s : State)
    (h0 : Comp.fns ∈ ks) (h1 : Comp.out ∈ ks) :
    ChangesOnly ks r (writeCqHead fn qp v s) ↔ ChangesOnly ks r s := by
  unfold writeCqHead; simp only [↓modQp_only, ↓qpError_only, ↓ite_only, ite_self, h0, h1]

theorem ringError_only {ks : List Comp} {r : State} (fn : FnNo) (qp : QpNo) (s : State)
    (h0 : Comp.fns ∈ ks) (h1 : Comp.out ∈ ks) :
    ChangesOnly ks r (ringError fn qp s) ↔ ChangesOnly ks r s := by
  unfold ringError; simp only [↓settleQueue_only, ↓modQp_only, ↓qpError_only, ↓ite_only, ite_self, h0, h1]

theorem writeEvqLo_only {ks : List Comp} {r : State} (fn : FnNo) (v : W32) (s : State)
    (h0 : Comp.fns ∈ ks) (h1 : Comp.out ∈ ks) :
    ChangesOnly ks r (writeEvqLo fn v s) ↔ ChangesOnly ks r s := by
  unfold writeEvqLo; simp only [↓modEvq_only, ↓flushEvq_only, ↓raise_only, ↓ite_only, ite_self, h0, h1]

theorem writeEvqHead_only {ks : List Comp} {r : State} (fn : FnNo) (v : W32) (s : State)
    (h0 : Comp.fns ∈ ks) (h1 : Comp.out ∈ ks) :
    ChangesOnly ks r (writeEvqHead fn v s) ↔ ChangesOnly ks r s := by
  unfold writeEvqHead; simp only [↓flushEvq_only, ↓modEvq_only, ↓evqError_only, ↓ite_only, ite_self, h0, h1]

theorem writeMsix_only {ks : List Comp} {r : State} (fn : FnNo) (k : Fin 64) (w : Nat) (v : W32) (s : State)
    (h0 : Comp.fns ∈ ks) (h1 : Comp.out ∈ ks) :
    ChangesOnly ks r (writeMsix fn k w v s) ↔ ChangesOnly ks r s := by
  unfold writeMsix; simp only [↓releaseMsix_only, ↓modFn_only, ↓ite_only, ite_self, h0, h1]

theorem writeSupplyStatus_only {ks : List Comp} {r : State} (v : W32) (s : State)
    (h0 : Comp.sup ∈ ks) :
    ChangesOnly ks r (writeSupplyStatus v s) ↔ ChangesOnly ks r s := by
  unfold writeSupplyStatus; simp only [↓upd_sup_only, ↓ite_only, ite_self, h0]

theorem bar0Write_only {ks : List Comp} {r : State} (fn : FnNo) (off : Nat) (v : W32) (s : State)
    (h0 : Comp.fns ∈ ks) (h1 : Comp.outst ∈ ks) (h2 : Comp.sup ∈ ks) (h3 : Comp.out ∈ ks) :
    ChangesOnly ks r (bar0Write fn off v s) ↔ ChangesOnly ks r s := by
  unfold bar0Write; (repeat' split) <;> simp [↓setCause_only, ↓writeEvqLo_only, ↓modEvq_only, ↓writeEvqHead_only, ↓writeSupplyStatus_only, ↓writeMsix_only, ↓writeSqSize_only, ↓writeTail_only, ↓writeCqHead_only, ↓modQp_only, ↓ite_only, ite_self, h0, h1, h2, h3] <;> (repeat' split) <;> simp [↓setCause_only, ↓writeEvqLo_only, ↓modEvq_only, ↓writeEvqHead_only, ↓writeSupplyStatus_only, ↓writeMsix_only, ↓writeSqSize_only, ↓writeTail_only, ↓writeCqHead_only, ↓modQp_only, ↓ite_only, ite_self, h0, h1, h2, h3]

theorem refuseAccess_only {ks : List Comp} {r : State} (fn : FnNo) (write : Bool) (s : State)
    (h0 : Comp.fns ∈ ks) (h1 : Comp.out ∈ ks) :
    ChangesOnly ks r (refuseAccess fn write s) ↔ ChangesOnly ks r s := by
  unfold refuseAccess; simp only [↓raise_only, ↓emit_only, ↓ite_only, ite_self, h0, h1]

theorem resetFunc_only {ks : List Comp} {r : State} (fn : FnNo) (s : State)
    (h0 : Comp.fns ∈ ks) (h1 : Comp.outst ∈ ks) :
    ChangesOnly ks r (resetFunc fn s) ↔ ChangesOnly ks r s := by
  unfold resetFunc; simp only [↓upd_fns_outst_only, ↓upd_outst_only, ↓upd_fns_only, ↓ite_only, ite_self, h0, h1]

/-! ### HostRegs -/

theorem readTickLo_only {ks : List Comp} {r : State} (fn : FnNo) (s : State)
    (h0 : Comp.fns ∈ ks) (h1 : Comp.out ∈ ks) :
    ChangesOnly ks r (readTickLo fn s) ↔ ChangesOnly ks r s := by
  unfold readTickLo; simp only [↓emit_only, ↓modFn_only, ↓ite_only, ite_self, h0, h1]

theorem execHifIntCause_only {ks : List Comp} {r t : State} {fn : FnNo} {value : W32} {s : State}
    (e : execHifIntCause fn value s = .next t) (h0 : Comp.fns ∈ ks) (h1 : Comp.outst ∈ ks) (h2 : Comp.sup ∈ ks) (h3 : Comp.out ∈ ks) :
    ChangesOnly ks r t ↔ ChangesOnly ks r s := by
  injection e with e; subst e
  repeat' (first | with_reducible rfl | assumption | intro _ | (simp only [↓hostAccess_only, ↓bar0Write_only, ↓ite_only, ite_self, h0, h1, h2, h3]) | rw [foldl_fst_only] | rw [foldl_only] | rw [hostAccess_only] | split | dsimp only)

theorem execHifIntMask_only {ks : List Comp} {r t : State} {fn : FnNo} {value : W32} {s : State}
    (e : execHifIntMask fn value s = .next t) (h0 : Comp.fns ∈ ks) (h1 : Comp.outst ∈ ks) (h2 : Comp.sup ∈ ks) (h3 : Comp.out ∈ ks) :
    ChangesOnly ks r t ↔ ChangesOnly ks r s := by
  injection e with e; subst e
  repeat' (first | with_reducible rfl | assumption | intro _ | (simp only [↓hostAccess_only, ↓bar0Write_only, ↓ite_only, ite_self, h0, h1, h2, h3]) | rw [foldl_fst_only] | rw [foldl_only] | rw [hostAccess_only] | split | dsimp only)

theorem execHifTickLo_only {ks : List Comp} {r t : State} {fn : FnNo} {s : State}
    (e : execHifTickLo fn s = .next t) (h0 : Comp.fns ∈ ks) (h1 : Comp.out ∈ ks) :
    ChangesOnly ks r t ↔ ChangesOnly ks r s := by
  injection e with e; subst e
  repeat' (first | with_reducible rfl | assumption | intro _ | (simp only [↓hostAccess_only, ↓readTickLo_only, ↓ite_only, ite_self, h0, h1]) | rw [foldl_fst_only] | rw [foldl_only] | rw [hostAccess_only] | split | dsimp only)

theorem execQueuePairEnable_only {ks : List Comp} {r t : State} {fn : FnNo} {qp : QpNo} {value : W32} {s : State}
    (e : execQueuePairEnable fn qp value s = .next t) (h0 : Comp.fns ∈ ks) (h1 : Comp.outst ∈ ks) (h2 : Comp.out ∈ ks) :
    ChangesOnly ks r t ↔ ChangesOnly ks r s := by
  injection e with e; subst e
  repeat' (first | with_reducible rfl | assumption | intro _ | (simp only [↓hostAccess_only, ↓writeSqSize_only, ↓ite_only, ite_self, h0, h1, h2]) | rw [foldl_fst_only] | rw [foldl_only] | rw [hostAccess_only] | split | dsimp only)

theorem execQueuePairDisable_only {ks : List Comp} {r t : State} {fn : FnNo} {qp : QpNo} {value : W32} {s : State}
    (e : execQueuePairDisable fn qp value s = .next t) (h0 : Comp.fns ∈ ks) (h1 : Comp.outst ∈ ks) (h2 : Comp.out ∈ ks) :
    ChangesOnly ks r t ↔ ChangesOnly ks r s := by
  injection e with e; subst e
  repeat' (first | with_reducible rfl | assumption | intro _ | (simp only [↓hostAccess_only, ↓writeSqSize_only, ↓ite_only, ite_self, h0, h1, h2]) | rw [foldl_fst_only] | rw [foldl_only] | rw [hostAccess_only] | split | dsimp only)

theorem execEvqEnable_only {ks : List Comp} {r t : State} {fn : FnNo} {value : W32} {s : State}
    (e : execEvqEnable fn value s = .next t) (h0 : Comp.fns ∈ ks) (h1 : Comp.out ∈ ks) :
    ChangesOnly ks r t ↔ ChangesOnly ks r s := by
  injection e with e; subst e
  repeat' (first | with_reducible rfl | assumption | intro _ | (simp only [↓hostAccess_only, ↓writeEvqLo_only, ↓ite_only, ite_self, h0, h1]) | rw [foldl_fst_only] | rw [foldl_only] | rw [hostAccess_only] | split | dsimp only)

theorem execEvqDisable_only {ks : List Comp} {r t : State} {fn : FnNo} {value : W32} {s : State}
    (e : execEvqDisable fn value s = .next t) (h0 : Comp.fns ∈ ks) (h1 : Comp.out ∈ ks) :
    ChangesOnly ks r t ↔ ChangesOnly ks r s := by
  injection e with e; subst e
  repeat' (first | with_reducible rfl | assumption | intro _ | (simp only [↓hostAccess_only, ↓writeEvqLo_only, ↓ite_only, ite_self, h0, h1]) | rw [foldl_fst_only] | rw [foldl_only] | rw [hostAccess_only] | split | dsimp only)

theorem execDoorbell_only {ks : List Comp} {r t : State} {fn : FnNo} {qp : QpNo} {value : W32} {s : State}
    (e : execDoorbell fn qp value s = .next t) (h0 : Comp.fns ∈ ks) (h1 : Comp.out ∈ ks) :
    ChangesOnly ks r t ↔ ChangesOnly ks r s := by
  injection e with e; subst e
  repeat' (first | with_reducible rfl | assumption | intro _ | (simp only [↓hostAccess_only, ↓writeTail_only, ↓ite_only, ite_self, h0, h1]) | rw [foldl_fst_only] | rw [foldl_only] | rw [hostAccess_only] | split | dsimp only)

theorem execHifCqnHead_only {ks : List Comp} {r t : State} {fn : FnNo} {qp : QpNo} {value : W32} {s : State}
    (e : execHifCqnHead fn qp value s = .next t) (h0 : Comp.fns ∈ ks) (h1 : Comp.out ∈ ks) :
    ChangesOnly ks r t ↔ ChangesOnly ks r s := by
  injection e with e; subst e
  repeat' (first | with_reducible rfl | assumption | intro _ | (simp only [↓hostAccess_only, ↓writeCqHead_only, ↓ite_only, ite_self, h0, h1]) | rw [foldl_fst_only] | rw [foldl_only] | rw [hostAccess_only] | split | dsimp only)

theorem execHifEvqHead_only {ks : List Comp} {r t : State} {fn : FnNo} {value : W32} {s : State}
    (e : execHifEvqHead fn value s = .next t) (h0 : Comp.fns ∈ ks) (h1 : Comp.out ∈ ks) :
    ChangesOnly ks r t ↔ ChangesOnly ks r s := by
  injection e with e; subst e
  repeat' (first | with_reducible rfl | assumption | intro _ | (simp only [↓hostAccess_only, ↓writeEvqHead_only, ↓ite_only, ite_self, h0, h1]) | rw [foldl_fst_only] | rw [foldl_only] | rw [hostAccess_only] | split | dsimp only)

theorem execRingReadError_only {ks : List Comp} {r t : State} {fn : FnNo} {qp : QpNo} {s : State}
    (e : execRingReadError fn qp s = .next t) (h0 : Comp.fns ∈ ks) (h1 : Comp.out ∈ ks) :
    ChangesOnly ks r t ↔ ChangesOnly ks r s := by
  injection e with e; subst e; simp only [↓ringError_only, ↓ite_only, ite_self, h0, h1]

theorem execHifSupplyStatus_only {ks : List Comp} {r t : State} {value : W32} {s : State}
    (e : execHifSupplyStatus value s = .next t) (h0 : Comp.sup ∈ ks) (h1 : Comp.out ∈ ks) :
    ChangesOnly ks r t ↔ ChangesOnly ks r s := by
  injection e with e; subst e
  repeat' (first | with_reducible rfl | assumption | intro _ | (simp only [↓hostAccess_only, ↓writeSupplyStatus_only, ↓ite_only, ite_self, h0, h1]) | rw [foldl_fst_only] | rw [foldl_only] | rw [hostAccess_only] | split | dsimp only)

theorem execRegisterWrite_only {ks : List Comp} {r t : State} {fn : FnNo} {offset : BitVec 16} {wide : Bool} {value : W64} {s : State}
    (e : execRegisterWrite fn offset wide value s = .next t) (h0 : Comp.fns ∈ ks) (h1 : Comp.outst ∈ ks) (h2 : Comp.sup ∈ ks) (h3 : Comp.out ∈ ks) :
    ChangesOnly ks r t ↔ ChangesOnly ks r s := by
  injection e with e; subst e
  repeat' (first | with_reducible rfl | assumption | intro _ | (simp only [↓hostAccess_only, ↓bar0Write_only, ↓refuseAccess_only, ↓ite_only, ite_self, h0, h1, h2, h3]) | rw [foldl_fst_only] | rw [foldl_only] | rw [hostAccess_only] | split | dsimp only)

theorem execMsixFunctionMask_only {ks : List Comp} {r t : State} {fn : FnNo} {mask : Bool} {s : State}
    (e : execMsixFunctionMask fn mask s = .next t) (h0 : Comp.fns ∈ ks) (h1 : Comp.out ∈ ks) :
    ChangesOnly ks r t ↔ ChangesOnly ks r s := by
  injection e with e; subst e; simp only [↓releaseMsix_only, ↓modFn_only, ↓ite_only, ite_self, h0, h1]

/-! ### Service -/

theorem drainLane_only {ks : List Comp} {r : State} (s : State) (l : LaneNo) (id : Nat)
    (h0 : Comp.slots ∈ ks) (h1 : Comp.waits ∈ ks) (h2 : Comp.progs ∈ ks) (h3 : Comp.fns ∈ ks) (h4 : Comp.chans ∈ ks) (h5 : Comp.clusters ∈ ks) (h6 : Comp.lock ∈ ks) (h7 : Comp.ports ∈ ks) (h8 : Comp.outst ∈ ks) (h9 : Comp.deliveries ∈ ks) (h10 : Comp.geo ∈ ks) (h11 : Comp.faults ∈ ks) (h12 : Comp.runs ∈ ks) (h13 : Comp.frames ∈ ks) (h14 : Comp.out ∈ ks) (h15 : Comp.telem ∈ ks) (h16 : Comp.units ∈ ks) (h17 : Comp.loaded ∈ ks) (h18 : Comp.lanes ∈ ks) :
    ChangesOnly ks r (State.drainLane s l id) ↔ ChangesOnly ks r s := by
  simp only [State.drainLane]; (repeat' split) <;> simp [↓beginChange_only, ↓fenceLane_only, ↓completeOk_only, ↓laneLost_only, ↓unitFailed_only, ↓modPort_only, ↓laneFailBy_only, ↓ite_only, ite_self, h0, h1, h2, h3, h4, h5, h6, h7, h8, h9, h10, h11, h12, h13, h14, h15, h16, h17, h18]

theorem fenceWork_only {ks : List Comp} {r : State} (p : Packet) (id : Nat) (s : State)
    (h0 : Comp.remaps ∈ ks) (h1 : Comp.slots ∈ ks) (h2 : Comp.waits ∈ ks) (h3 : Comp.progs ∈ ks) (h4 : Comp.copies ∈ ks) (h5 : Comp.fns ∈ ks) (h6 : Comp.chans ∈ ks) (h7 : Comp.clusters ∈ ks) (h8 : Comp.lock ∈ ks) (h9 : Comp.ports ∈ ks) (h10 : Comp.outst ∈ ks) (h11 : Comp.ext ∈ ks) (h12 : Comp.pieces ∈ ks) (h13 : Comp.deliveries ∈ ks) (h14 : Comp.geo ∈ ks) (h15 : Comp.faults ∈ ks) (h16 : Comp.toReplace ∈ ks) (h17 : Comp.scratch ∈ ks) (h18 : Comp.runs ∈ ks) (h19 : Comp.frames ∈ ks) (h20 : Comp.strata ∈ ks) (h21 : Comp.out ∈ ks) (h22 : Comp.telem ∈ ks) (h23 : Comp.nv ∈ ks) (h24 : Comp.free ∈ ks) (h25 : Comp.units ∈ ks) (h26 : Comp.stores ∈ ks) (h27 : Comp.loaded ∈ ks) (h28 : Comp.lanes ∈ ks) :
    ChangesOnly ks r (fenceWork p id s) ↔ ChangesOnly ks r s := by
  unfold fenceWork; (repeat' split) <;> simp [↓completeOk_only, ↓fenceUnit_only, ↓modUnit_only, ↓cutStep_only, ↓drainLane_only, ↓laneFailBy_only, ↓ite_only, ite_self, h0, h1, h2, h3, h4, h5, h6, h7, h8, h9, h10, h11, h12, h13, h14, h15, h16, h17, h18, h19, h20, h21, h22, h23, h24, h25, h26, h27, h28]

theorem drainEnds_only {ks : List Comp} {r : State} (unit : W16) (s : State)
    (h0 : Comp.slots ∈ ks) (h1 : Comp.waits ∈ ks) (h2 : Comp.progs ∈ ks) (h3 : Comp.copies ∈ ks) (h4 : Comp.fns ∈ ks) (h5 : Comp.chans ∈ ks) (h6 : Comp.clusters ∈ ks) (h7 : Comp.lock ∈ ks) (h8 : Comp.ports ∈ ks) (h9 : Comp.outst ∈ ks) (h10 : Comp.ext ∈ ks) (h11 : Comp.pieces ∈ ks) (h12 : Comp.deliveries ∈ ks) (h13 : Comp.geo ∈ ks) (h14 : Comp.faults ∈ ks) (h15 : Comp.scratch ∈ ks) (h16 : Comp.runs ∈ ks) (h17 : Comp.frames ∈ ks) (h18 : Comp.strata ∈ ks) (h19 : Comp.out ∈ ks) (h20 : Comp.telem ∈ ks) (h21 : Comp.free ∈ ks) (h22 : Comp.units ∈ ks) (h23 : Comp.stores ∈ ks) (h24 : Comp.loaded ∈ ks) (h25 : Comp.lanes ∈ ks) :
    ChangesOnly ks r (drainEnds unit s) ↔ ChangesOnly ks r s := by
  unfold drainEnds; (repeat' split) <;> simp [↓cutStep_only, ↓modUnit_only, ↓completeOk_only, ↓ite_only, ite_self, h0, h1, h2, h3, h4, h5, h6, h7, h8, h9, h10, h11, h12, h13, h14, h15, h16, h17, h18, h19, h20, h21, h22, h23, h24, h25]

theorem selftestWork_only {ks : List Comp} {r : State} (p : Packet) (id : Nat) (s : State)
    (h0 : Comp.waits ∈ ks) (h1 : Comp.fns ∈ ks) (h2 : Comp.outst ∈ ks) (h3 : Comp.out ∈ ks) (h4 : Comp.units ∈ ks) (h5 : Comp.lanes ∈ ks) :
    ChangesOnly ks r (selftestWork p id s) ↔ ChangesOnly ks r s := by
  unfold selftestWork; (repeat' split) <;> simp [↓modUnit_only, ↓showTs_only, ↓modLane_only, ↓completeOk_only, ↓ite_only, ite_self, h0, h1, h2, h3, h4, h5]

theorem selftestEnds_only {ks : List Comp} {r : State} (unit : W16) (code : W16) (s : State)
    (h0 : Comp.waits ∈ ks) (h1 : Comp.fns ∈ ks) (h2 : Comp.outst ∈ ks) (h3 : Comp.out ∈ ks) (h4 : Comp.units ∈ ks) (h5 : Comp.lanes ∈ ks) :
    ChangesOnly ks r (selftestEnds unit code s) ↔ ChangesOnly ks r s := by
  unfold selftestEnds; (repeat' split) <;> simp [↓modUnit_only, ↓modLane_only, ↓completeOk_only, ↓forEach_only, ↓ite_only, ite_self, h0, h1, h2, h3, h4, h5]

theorem returnWork_only {ks : List Comp} {r : State} (p : Packet) (s : State)
    (h0 : Comp.waits ∈ ks) (h1 : Comp.fns ∈ ks) (h2 : Comp.chans ∈ ks) (h3 : Comp.clusters ∈ ks) (h4 : Comp.ports ∈ ks) (h5 : Comp.geo ∈ ks) (h6 : Comp.faults ∈ ks) (h7 : Comp.scratch ∈ ks) (h8 : Comp.out ∈ ks) (h9 : Comp.telem ∈ ks) (h10 : Comp.nv ∈ ks) (h11 : Comp.units ∈ ks) :
    ChangesOnly ks r (returnWork p s).1 ↔ ChangesOnly ks r s := by
  unfold returnWork; (repeat' split) <;> simp [↓noteReturn_only, ↓returnUnit_only, ↓ite_only, ite_self, h0, h1, h2, h3, h4, h5, h6, h7, h8, h9, h10, h11]

theorem remapWork_only {ks : List Comp} {r : State} (p : Packet) (id : Nat) (s : State)
    (h0 : Comp.remaps ∈ ks) :
    ChangesOnly ks r (remapWork p id s) ↔ ChangesOnly ks r s := by
  unfold remapWork; (repeat' split) <;> simp [↓upd_remaps_only, ↓ite_only, ite_self, h0]

theorem moveCluster_only {ks : List Comp} {r : State} (s : State) (l : LogNo) (old : PhysNo) (new : PhysNo)
    (h0 : Comp.clusters ∈ ks) (h1 : Comp.mapping ∈ ks) (h2 : Comp.lastPhys ∈ ks) (h3 : Comp.scratch ∈ ks) :
    ChangesOnly ks r (State.moveCluster s l old new) ↔ ChangesOnly ks r s := by
  unfold State.moveCluster; simp only [↓zeroCluster_only, ↓mapTo_only, ↓upd_scratch_only, ↓ite_only, ite_self, h0, h1, h2, h3]

theorem remapSwitch_only {ks : List Comp} {r : State} (s : State)
    (h0 : Comp.remaps ∈ ks) (h1 : Comp.waits ∈ ks) (h2 : Comp.fns ∈ ks) (h3 : Comp.clusters ∈ ks) (h4 : Comp.outst ∈ ks) (h5 : Comp.mapping ∈ ks) (h6 : Comp.faults ∈ ks) (h7 : Comp.lastPhys ∈ ks) (h8 : Comp.scratch ∈ ks) (h9 : Comp.out ∈ ks) (h10 : Comp.telem ∈ ks) (h11 : Comp.nv ∈ ks) :
    ChangesOnly ks r (remapSwitch s) ↔ ChangesOnly ks r s := by
  simp only [remapSwitch]; (repeat' split) <;> simp [↓complete_only, ↓fault_only, ↓moveCluster_only, ↓completeOk_only, ↓recordSystem_only, ↓upd_remaps_only, ↓ite_only, ite_self, h0, h1, h2, h3, h4, h5, h6, h7, h8, h9, h10, h11]

theorem logReadEnds_only {ks : List Comp} {r : State} (fail : Option W64) (s : State)
    (h0 : Comp.waits ∈ ks) (h1 : Comp.fns ∈ ks) (h2 : Comp.outst ∈ ks) (h3 : Comp.logReads ∈ ks) (h4 : Comp.out ∈ ks) :
    ChangesOnly ks r (logReadEnds fail s) ↔ ChangesOnly ks r s := by
  unfold logReadEnds; (repeat' split) <;> simp [↓hostWrite_only, ↓complete_only, ↓completeOk_only, ↓upd_logReads_only, ↓forEach_only, ↓ite_only, ite_self, h0, h1, h2, h3, h4]

theorem holdUnit_only {ks : List Comp} {r : State} (s : State) (u : Unit_)
    (h0 : Comp.remaps ∈ ks) (h1 : Comp.slots ∈ ks) (h2 : Comp.waits ∈ ks) (h3 : Comp.progs ∈ ks) (h4 : Comp.copies ∈ ks) (h5 : Comp.fns ∈ ks) (h6 : Comp.chans ∈ ks) (h7 : Comp.clusters ∈ ks) (h8 : Comp.lock ∈ ks) (h9 : Comp.ports ∈ ks) (h10 : Comp.outst ∈ ks) (h11 : Comp.ext ∈ ks) (h12 : Comp.pieces ∈ ks) (h13 : Comp.deliveries ∈ ks) (h14 : Comp.geo ∈ ks) (h15 : Comp.faults ∈ ks) (h16 : Comp.toReplace ∈ ks) (h17 : Comp.scratch ∈ ks) (h18 : Comp.runs ∈ ks) (h19 : Comp.frames ∈ ks) (h20 : Comp.out ∈ ks) (h21 : Comp.telem ∈ ks) (h22 : Comp.free ∈ ks) (h23 : Comp.units ∈ ks) (h24 : Comp.stores ∈ ks) (h25 : Comp.loaded ∈ ks) (h26 : Comp.lanes ∈ ks) :
    ChangesOnly ks r (State.holdUnit s u) ↔ ChangesOnly ks r s := by
  unfold State.holdUnit; (repeat' split) <;> simp [↓modUnit_only, ↓lapse_only, ↓loseCluster_only, ↓moveContexts_only, ↓toDisabled_only, ↓endRequests_only, ↓completeOk_only, ↓ite_only, ite_self, h0, h1, h2, h3, h4, h5, h6, h7, h8, h9, h10, h11, h12, h13, h14, h15, h16, h17, h18, h19, h20, h21, h22, h23, h24, h25, h26]

theorem pllLost_only {ks : List Comp} {r : State} (pll : Nat) (s : State)
    (h0 : Comp.remaps ∈ ks) (h1 : Comp.slots ∈ ks) (h2 : Comp.waits ∈ ks) (h3 : Comp.progs ∈ ks) (h4 : Comp.copies ∈ ks) (h5 : Comp.fns ∈ ks) (h6 : Comp.chans ∈ ks) (h7 : Comp.clusters ∈ ks) (h8 : Comp.lock ∈ ks) (h9 : Comp.ports ∈ ks) (h10 : Comp.outst ∈ ks) (h11 : Comp.ext ∈ ks) (h12 : Comp.pieces ∈ ks) (h13 : Comp.deliveries ∈ ks) (h14 : Comp.geo ∈ ks) (h15 : Comp.faults ∈ ks) (h16 : Comp.toReplace ∈ ks) (h17 : Comp.scratch ∈ ks) (h18 : Comp.runs ∈ ks) (h19 : Comp.frames ∈ ks) (h20 : Comp.boot ∈ ks) (h21 : Comp.out ∈ ks) (h22 : Comp.telem ∈ ks) (h23 : Comp.free ∈ ks) (h24 : Comp.units ∈ ks) (h25 : Comp.stores ∈ ks) (h26 : Comp.loaded ∈ ks) (h27 : Comp.lanes ∈ ks) :
    ChangesOnly ks r (pllLost pll s) ↔ ChangesOnly ks r s := by
  unfold pllLost; simp [↓holdUnit_only, ↓upd_boot_only, ↓forEach_only, ↓ite_only, ite_self, h0, h1, h2, h3, h4, h5, h6, h7, h8, h9, h10, h11, h12, h13, h14, h15, h16, h17, h18, h19, h20, h21, h22, h23, h24, h25, h26, h27]

theorem pllBack_only {ks : List Comp} {r : State} (pll : Nat) (s : State)
    (h0 : Comp.slots ∈ ks) (h1 : Comp.waits ∈ ks) (h2 : Comp.fns ∈ ks) (h3 : Comp.chans ∈ ks) (h4 : Comp.clusters ∈ ks) (h5 : Comp.ports ∈ ks) (h6 : Comp.geo ∈ ks) (h7 : Comp.scratch ∈ ks) (h8 : Comp.boot ∈ ks) (h9 : Comp.out ∈ ks) (h10 : Comp.telem ∈ ks) (h11 : Comp.units ∈ ks) :
    ChangesOnly ks r (pllBack pll s) ↔ ChangesOnly ks r s := by
  unfold pllBack; (repeat' split) <;> (try (refine (forEach_only (fun _ _ => ?_) _ _).trans ?_)) <;> (try dsimp only) <;> (repeat' split) <;> simp [↓fenceLapseEnds_only, ↓modUnit_only, ↓returnUnit_only, ↓upd_boot_only, ↓forEach_only, ↓ite_only, ite_self, h0, h1, h2, h3, h4, h5, h6, h7, h8, h9, h10, h11]

theorem pllGone_only {ks : List Comp} {r : State} (pll : Nat) (s : State)
    (h0 : Comp.remaps ∈ ks) (h1 : Comp.slots ∈ ks) (h2 : Comp.waits ∈ ks) (h3 : Comp.progs ∈ ks) (h4 : Comp.copies ∈ ks) (h5 : Comp.fns ∈ ks) (h6 : Comp.chans ∈ ks) (h7 : Comp.clusters ∈ ks) (h8 : Comp.lock ∈ ks) (h9 : Comp.ports ∈ ks) (h10 : Comp.outst ∈ ks) (h11 : Comp.ext ∈ ks) (h12 : Comp.pieces ∈ ks) (h13 : Comp.deliveries ∈ ks) (h14 : Comp.geo ∈ ks) (h15 : Comp.faults ∈ ks) (h16 : Comp.toReplace ∈ ks) (h17 : Comp.scratch ∈ ks) (h18 : Comp.runs ∈ ks) (h19 : Comp.frames ∈ ks) (h20 : Comp.strata ∈ ks) (h21 : Comp.boot ∈ ks) (h22 : Comp.out ∈ ks) (h23 : Comp.telem ∈ ks) (h24 : Comp.nv ∈ ks) (h25 : Comp.free ∈ ks) (h26 : Comp.units ∈ ks) (h27 : Comp.stores ∈ ks) (h28 : Comp.loaded ∈ ks) (h29 : Comp.lanes ∈ ks) :
    ChangesOnly ks r (pllGone pll s) ↔ ChangesOnly ks r s := by
  unfold pllGone; simp [↓cutStep_only, ↓fenceUnit_only, ↓failUnit_only, ↓upd_boot_only, ↓forEach_only, ↓ite_only, ite_self, h0, h1, h2, h3, h4, h5, h6, h7, h8, h9, h10, h11, h12, h13, h14, h15, h16, h17, h18, h19, h20, h21, h22, h23, h24, h25, h26, h27, h28, h29]

theorem poicaReferenceLost_only {ks : List Comp} {r : State} (pll : Bool) (s : State)
    (h0 : Comp.slots ∈ ks) (h1 : Comp.waits ∈ ks) (h2 : Comp.fns ∈ ks) (h3 : Comp.chans ∈ ks) (h4 : Comp.lock ∈ ks) (h5 : Comp.ports ∈ ks) (h6 : Comp.outst ∈ ks) (h7 : Comp.deliveries ∈ ks) (h8 : Comp.geo ∈ ks) (h9 : Comp.faults ∈ ks) (h10 : Comp.runs ∈ ks) (h11 : Comp.frames ∈ ks) (h12 : Comp.boot ∈ ks) (h13 : Comp.out ∈ ks) (h14 : Comp.telem ∈ ks) (h15 : Comp.units ∈ ks) (h16 : Comp.loaded ∈ ks) (h17 : Comp.lanes ∈ ks) :
    ChangesOnly ks r (poicaReferenceLost pll s) ↔ ChangesOnly ks r s := by
  unfold poicaReferenceLost; simp [↓fault_only, ↓modUnit_only, ↓lapse_only, ↓enterRetrain_only, ↓upd_boot_only, ↓forEach_only, ↓ite_only, ite_self, h0, h1, h2, h3, h4, h5, h6, h7, h8, h9, h10, h11, h12, h13, h14, h15, h16, h17]

theorem execUnitFence_only {ks : List Comp} {r t : State} {fn : FnNo} {qp : QpNo} {pkt : Packet} {s : State}
    (e : execUnitFence fn qp pkt s = .next t) (h0 : Comp.remaps ∈ ks) (h1 : Comp.slots ∈ ks) (h2 : Comp.waits ∈ ks) (h3 : Comp.progs ∈ ks) (h4 : Comp.nextId ∈ ks) (h5 : Comp.copies ∈ ks) (h6 : Comp.fns ∈ ks) (h7 : Comp.chans ∈ ks) (h8 : Comp.clusters ∈ ks) (h9 : Comp.lock ∈ ks) (h10 : Comp.ports ∈ ks) (h11 : Comp.outst ∈ ks) (h12 : Comp.ext ∈ ks) (h13 : Comp.pieces ∈ ks) (h14 : Comp.deliveries ∈ ks) (h15 : Comp.geo ∈ ks) (h16 : Comp.faults ∈ ks) (h17 : Comp.toReplace ∈ ks) (h18 : Comp.scratch ∈ ks) (h19 : Comp.runs ∈ ks) (h20 : Comp.frames ∈ ks) (h21 : Comp.strata ∈ ks) (h22 : Comp.out ∈ ks) (h23 : Comp.telem ∈ ks) (h24 : Comp.nv ∈ ks) (h25 : Comp.free ∈ ks) (h26 : Comp.units ∈ ks) (h27 : Comp.stores ∈ ks) (h28 : Comp.loaded ∈ ks) (h29 : Comp.lanes ∈ ks) :
    ChangesOnly ks r t ↔ ChangesOnly ks r s := by
  injection e with e; subst e
  repeat' (first | with_reducible rfl | assumption | intro _ | (simp only [↓longCommand_only, ↓fenceWork_only, ↓ite_only, ite_self, h0, h1, h2, h3, h4, h5, h6, h7, h8, h9, h10, h11, h12, h13, h14, h15, h16, h17, h18, h19, h20, h21, h22, h23, h24, h25, h26, h27, h28, h29]) | rw [foldl_fst_only] | rw [foldl_only] | rw [longCommand_only] | split | dsimp only)

theorem execDrainEnd_only {ks : List Comp} {r t : State} {unit : W16} {s : State}
    (e : execDrainEnd unit s = .next t) (h0 : Comp.slots ∈ ks) (h1 : Comp.waits ∈ ks) (h2 : Comp.progs ∈ ks) (h3 : Comp.copies ∈ ks) (h4 : Comp.fns ∈ ks) (h5 : Comp.chans ∈ ks) (h6 : Comp.clusters ∈ ks) (h7 : Comp.lock ∈ ks) (h8 : Comp.ports ∈ ks) (h9 : Comp.outst ∈ ks) (h10 : Comp.ext ∈ ks) (h11 : Comp.pieces ∈ ks) (h12 : Comp.deliveries ∈ ks) (h13 : Comp.geo ∈ ks) (h14 : Comp.faults ∈ ks) (h15 : Comp.scratch ∈ ks) (h16 : Comp.runs ∈ ks) (h17 : Comp.frames ∈ ks) (h18 : Comp.strata ∈ ks) (h19 : Comp.out ∈ ks) (h20 : Comp.telem ∈ ks) (h21 : Comp.free ∈ ks) (h22 : Comp.units ∈ ks) (h23 : Comp.stores ∈ ks) (h24 : Comp.loaded ∈ ks) (h25 : Comp.lanes ∈ ks) :
    ChangesOnly ks r t ↔ ChangesOnly ks r s := by
  injection e with e; subst e; simp only [↓drainEnds_only, ↓ite_only, ite_self, h0, h1, h2, h3, h4, h5, h6, h7, h8, h9, h10, h11, h12, h13, h14, h15, h16, h17, h18, h19, h20, h21, h22, h23, h24, h25]

theorem execUnitSelftest_only {ks : List Comp} {r t : State} {fn : FnNo} {qp : QpNo} {pkt : Packet} {s : State}
    (e : execUnitSelftest fn qp pkt s = .next t) (h0 : Comp.waits ∈ ks) (h1 : Comp.nextId ∈ ks) (h2 : Comp.fns ∈ ks) (h3 : Comp.outst ∈ ks) (h4 : Comp.out ∈ ks) (h5 : Comp.units ∈ ks) (h6 : Comp.lanes ∈ ks) :
    ChangesOnly ks r t ↔ ChangesOnly ks r s := by
  injection e with e; subst e
  repeat' (first | with_reducible rfl | assumption | intro _ | (simp only [↓longCommand_only, ↓selftestWork_only, ↓ite_only, ite_self, h0, h1, h2, h3, h4, h5, h6]) | rw [foldl_fst_only] | rw [foldl_only] | rw [longCommand_only] | split | dsimp only)

theorem execUnitSelftestComplete_only {ks : List Comp} {r t : State} {unit : W16} {code : W16} {s : State}
    (e : execUnitSelftestComplete unit code s = .next t) (h0 : Comp.waits ∈ ks) (h1 : Comp.fns ∈ ks) (h2 : Comp.outst ∈ ks) (h3 : Comp.out ∈ ks) (h4 : Comp.units ∈ ks) (h5 : Comp.lanes ∈ ks) :
    ChangesOnly ks r t ↔ ChangesOnly ks r s := by
  injection e with e; subst e; simp only [↓selftestEnds_only, ↓ite_only, ite_self, h0, h1, h2, h3, h4, h5]

theorem execUnitReturn_only {ks : List Comp} {r t : State} {fn : FnNo} {qp : QpNo} {pkt : Packet} {s : State}
    (e : execUnitReturn fn qp pkt s = .next t) (h0 : Comp.waits ∈ ks) (h1 : Comp.fns ∈ ks) (h2 : Comp.chans ∈ ks) (h3 : Comp.clusters ∈ ks) (h4 : Comp.ports ∈ ks) (h5 : Comp.geo ∈ ks) (h6 : Comp.faults ∈ ks) (h7 : Comp.scratch ∈ ks) (h8 : Comp.out ∈ ks) (h9 : Comp.telem ∈ ks) (h10 : Comp.nv ∈ ks) (h11 : Comp.units ∈ ks) :
    ChangesOnly ks r t ↔ ChangesOnly ks r s := by
  injection e with e; subst e
  repeat' (first | with_reducible rfl | assumption | intro _ | (simp only [↓shortCommand_only, ↓returnWork_only, ↓ite_only, ite_self, h0, h1, h2, h3, h4, h5, h6, h7, h8, h9, h10, h11]) | rw [foldl_fst_only] | rw [foldl_only] | rw [shortCommand_only] | split | dsimp only)

theorem execClusterRemap_only {ks : List Comp} {r t : State} {fn : FnNo} {qp : QpNo} {pkt : Packet} {s : State}
    (e : execClusterRemap fn qp pkt s = .next t) (h0 : Comp.remaps ∈ ks) (h1 : Comp.nextId ∈ ks) (h2 : Comp.fns ∈ ks) (h3 : Comp.outst ∈ ks) (h4 : Comp.out ∈ ks) :
    ChangesOnly ks r t ↔ ChangesOnly ks r s := by
  injection e with e; subst e
  repeat' (first | with_reducible rfl | assumption | intro _ | (simp only [↓longCommand_only, ↓remapWork_only, ↓ite_only, ite_self, h0, h1, h2, h3, h4]) | rw [foldl_fst_only] | rw [foldl_only] | rw [longCommand_only] | split | dsimp only)

theorem execClusterRemapSwitch_only {ks : List Comp} {r t : State} {s : State}
    (e : execClusterRemapSwitch s = .next t) (h0 : Comp.remaps ∈ ks) (h1 : Comp.waits ∈ ks) (h2 : Comp.fns ∈ ks) (h3 : Comp.clusters ∈ ks) (h4 : Comp.outst ∈ ks) (h5 : Comp.mapping ∈ ks) (h6 : Comp.faults ∈ ks) (h7 : Comp.lastPhys ∈ ks) (h8 : Comp.scratch ∈ ks) (h9 : Comp.out ∈ ks) (h10 : Comp.telem ∈ ks) (h11 : Comp.nv ∈ ks) :
    ChangesOnly ks r t ↔ ChangesOnly ks r s := by
  injection e with e; subst e; simp only [↓remapSwitch_only, ↓ite_only, ite_self, h0, h1, h2, h3, h4, h5, h6, h7, h8, h9, h10, h11]

theorem execFaultLogRead_only {ks : List Comp} {r t : State} {fn : FnNo} {qp : QpNo} {pkt : Packet} {s : State}
    (e : execFaultLogRead fn qp pkt s = .next t) (h0 : Comp.nextId ∈ ks) (h1 : Comp.fns ∈ ks) (h2 : Comp.outst ∈ ks) (h3 : Comp.logReads ∈ ks) (h4 : Comp.out ∈ ks) :
    ChangesOnly ks r t ↔ ChangesOnly ks r s := by
  injection e with e; subst e
  repeat' (first | with_reducible rfl | assumption | intro _ | (simp only [↓longCommand_only, ↓upd_logReads_only, ↓ite_only, ite_self, h0, h1, h2, h3, h4]) | rw [foldl_fst_only] | rw [foldl_only] | rw [longCommand_only] | split | dsimp only)

theorem execFaultLogReadComplete_only {ks : List Comp} {r t : State} {fail : Option W64} {s : State}
    (e : execFaultLogReadComplete fail s = .next t) (h0 : Comp.waits ∈ ks) (h1 : Comp.fns ∈ ks) (h2 : Comp.outst ∈ ks) (h3 : Comp.logReads ∈ ks) (h4 : Comp.out ∈ ks) :
    ChangesOnly ks r t ↔ ChangesOnly ks r s := by
  injection e with e; subst e; simp only [↓logReadEnds_only, ↓ite_only, ite_self, h0, h1, h2, h3, h4]

theorem execUnitFault_only {ks : List Comp} {r t : State} {unit : W16} {cause : BitVec 8} {detail : BitVec 224} {s : State}
    (e : execUnitFault unit cause detail s = .next t) (h0 : Comp.remaps ∈ ks) (h1 : Comp.slots ∈ ks) (h2 : Comp.waits ∈ ks) (h3 : Comp.progs ∈ ks) (h4 : Comp.copies ∈ ks) (h5 : Comp.fns ∈ ks) (h6 : Comp.chans ∈ ks) (h7 : Comp.clusters ∈ ks) (h8 : Comp.lock ∈ ks) (h9 : Comp.ports ∈ ks) (h10 : Comp.outst ∈ ks) (h11 : Comp.ext ∈ ks) (h12 : Comp.pieces ∈ ks) (h13 : Comp.deliveries ∈ ks) (h14 : Comp.geo ∈ ks) (h15 : Comp.faults ∈ ks) (h16 : Comp.toReplace ∈ ks) (h17 : Comp.scratch ∈ ks) (h18 : Comp.runs ∈ ks) (h19 : Comp.frames ∈ ks) (h20 : Comp.strata ∈ ks) (h21 : Comp.out ∈ ks) (h22 : Comp.telem ∈ ks) (h23 : Comp.nv ∈ ks) (h24 : Comp.free ∈ ks) (h25 : Comp.units ∈ ks) (h26 : Comp.stores ∈ ks) (h27 : Comp.loaded ∈ ks) (h28 : Comp.lanes ∈ ks) :
    ChangesOnly ks r t ↔ ChangesOnly ks r s := by
  injection e with e; subst e; (repeat' split) <;> simp only [↓failUnit_only, ↓ite_only, ite_self, h0, h1, h2, h3, h4, h5, h6, h7, h8, h9, h10, h11, h12, h13, h14, h15, h16, h17, h18, h19, h20, h21, h22, h23, h24, h25, h26, h27, h28]

theorem execRequestOpenTimeout_only {ks : List Comp} {r t : State} {unit : W16} {s : State}
    (e : execRequestOpenTimeout unit s = .next t) (h0 : Comp.remaps ∈ ks) (h1 : Comp.slots ∈ ks) (h2 : Comp.waits ∈ ks) (h3 : Comp.progs ∈ ks) (h4 : Comp.copies ∈ ks) (h5 : Comp.fns ∈ ks) (h6 : Comp.chans ∈ ks) (h7 : Comp.clusters ∈ ks) (h8 : Comp.lock ∈ ks) (h9 : Comp.ports ∈ ks) (h10 : Comp.outst ∈ ks) (h11 : Comp.ext ∈ ks) (h12 : Comp.pieces ∈ ks) (h13 : Comp.deliveries ∈ ks) (h14 : Comp.geo ∈ ks) (h15 : Comp.faults ∈ ks) (h16 : Comp.toReplace ∈ ks) (h17 : Comp.scratch ∈ ks) (h18 : Comp.runs ∈ ks) (h19 : Comp.frames ∈ ks) (h20 : Comp.strata ∈ ks) (h21 : Comp.out ∈ ks) (h22 : Comp.telem ∈ ks) (h23 : Comp.nv ∈ ks) (h24 : Comp.free ∈ ks) (h25 : Comp.units ∈ ks) (h26 : Comp.stores ∈ ks) (h27 : Comp.loaded ∈ ks) (h28 : Comp.lanes ∈ ks) :
    ChangesOnly ks r t ↔ ChangesOnly ks r s := by
  injection e with e; subst e; (repeat' split) <;> simp only [↓failUnit_only, ↓ite_only, ite_self, h0, h1, h2, h3, h4, h5, h6, h7, h8, h9, h10, h11, h12, h13, h14, h15, h16, h17, h18, h19, h20, h21, h22, h23, h24, h25, h26, h27, h28]

theorem execMalformedReply_only {ks : List Comp} {r t : State} {unit : W16} {reply : BadReply} {s : State}
    (e : execMalformedReply unit reply s = .next t) (h0 : Comp.remaps ∈ ks) (h1 : Comp.slots ∈ ks) (h2 : Comp.waits ∈ ks) (h3 : Comp.progs ∈ ks) (h4 : Comp.copies ∈ ks) (h5 : Comp.fns ∈ ks) (h6 : Comp.chans ∈ ks) (h7 : Comp.clusters ∈ ks) (h8 : Comp.lock ∈ ks) (h9 : Comp.ports ∈ ks) (h10 : Comp.outst ∈ ks) (h11 : Comp.ext ∈ ks) (h12 : Comp.pieces ∈ ks) (h13 : Comp.deliveries ∈ ks) (h14 : Comp.geo ∈ ks) (h15 : Comp.faults ∈ ks) (h16 : Comp.toReplace ∈ ks) (h17 : Comp.scratch ∈ ks) (h18 : Comp.runs ∈ ks) (h19 : Comp.frames ∈ ks) (h20 : Comp.strata ∈ ks) (h21 : Comp.out ∈ ks) (h22 : Comp.telem ∈ ks) (h23 : Comp.nv ∈ ks) (h24 : Comp.free ∈ ks) (h25 : Comp.units ∈ ks) (h26 : Comp.stores ∈ ks) (h27 : Comp.loaded ∈ ks) (h28 : Comp.lanes ∈ ks) :
    ChangesOnly ks r t ↔ ChangesOnly ks r s := by
  injection e with e; subst e; (repeat' split) <;> simp only [↓failUnit_only, ↓ite_only, ite_self, h0, h1, h2, h3, h4, h5, h6, h7, h8, h9, h10, h11, h12, h13, h14, h15, h16, h17, h18, h19, h20, h21, h22, h23, h24, h25, h26, h27, h28]

theorem execPllOutOfLock_only {ks : List Comp} {r t : State} {pll : Nat} {s : State}
    (e : execPllOutOfLock pll s = .next t) (h0 : Comp.remaps ∈ ks) (h1 : Comp.slots ∈ ks) (h2 : Comp.waits ∈ ks) (h3 : Comp.progs ∈ ks) (h4 : Comp.copies ∈ ks) (h5 : Comp.fns ∈ ks) (h6 : Comp.chans ∈ ks) (h7 : Comp.clusters ∈ ks) (h8 : Comp.lock ∈ ks) (h9 : Comp.ports ∈ ks) (h10 : Comp.outst ∈ ks) (h11 : Comp.ext ∈ ks) (h12 : Comp.pieces ∈ ks) (h13 : Comp.deliveries ∈ ks) (h14 : Comp.geo ∈ ks) (h15 : Comp.faults ∈ ks) (h16 : Comp.toReplace ∈ ks) (h17 : Comp.scratch ∈ ks) (h18 : Comp.runs ∈ ks) (h19 : Comp.frames ∈ ks) (h20 : Comp.boot ∈ ks) (h21 : Comp.out ∈ ks) (h22 : Comp.telem ∈ ks) (h23 : Comp.free ∈ ks) (h24 : Comp.units ∈ ks) (h25 : Comp.stores ∈ ks) (h26 : Comp.loaded ∈ ks) (h27 : Comp.lanes ∈ ks) :
    ChangesOnly ks r t ↔ ChangesOnly ks r s := by
  injection e with e; subst e; simp only [↓pllLost_only, ↓ite_only, ite_self, h0, h1, h2, h3, h4, h5, h6, h7, h8, h9, h10, h11, h12, h13, h14, h15, h16, h17, h18, h19, h20, h21, h22, h23, h24, h25, h26, h27]

theorem execPllRelocked_only {ks : List Comp} {r t : State} {pll : Nat} {s : State}
    (e : execPllRelocked pll s = .next t) (h0 : Comp.slots ∈ ks) (h1 : Comp.waits ∈ ks) (h2 : Comp.fns ∈ ks) (h3 : Comp.chans ∈ ks) (h4 : Comp.clusters ∈ ks) (h5 : Comp.ports ∈ ks) (h6 : Comp.geo ∈ ks) (h7 : Comp.scratch ∈ ks) (h8 : Comp.boot ∈ ks) (h9 : Comp.out ∈ ks) (h10 : Comp.telem ∈ ks) (h11 : Comp.units ∈ ks) :
    ChangesOnly ks r t ↔ ChangesOnly ks r s := by
  injection e with e; subst e; simp only [↓pllBack_only, ↓ite_only, ite_self, h0, h1, h2, h3, h4, h5, h6, h7, h8, h9, h10, h11]

theorem execPllRelockTimeout_only {ks : List Comp} {r t : State} {pll : Nat} {s : State}
    (e : execPllRelockTimeout pll s = .next t) (h0 : Comp.remaps ∈ ks) (h1 : Comp.slots ∈ ks) (h2 : Comp.waits ∈ ks) (h3 : Comp.progs ∈ ks) (h4 : Comp.copies ∈ ks) (h5 : Comp.fns ∈ ks) (h6 : Comp.chans ∈ ks) (h7 : Comp.clusters ∈ ks) (h8 : Comp.lock ∈ ks) (h9 : Comp.ports ∈ ks) (h10 : Comp.outst ∈ ks) (h11 : Comp.ext ∈ ks) (h12 : Comp.pieces ∈ ks) (h13 : Comp.deliveries ∈ ks) (h14 : Comp.geo ∈ ks) (h15 : Comp.faults ∈ ks) (h16 : Comp.toReplace ∈ ks) (h17 : Comp.scratch ∈ ks) (h18 : Comp.runs ∈ ks) (h19 : Comp.frames ∈ ks) (h20 : Comp.strata ∈ ks) (h21 : Comp.boot ∈ ks) (h22 : Comp.out ∈ ks) (h23 : Comp.telem ∈ ks) (h24 : Comp.nv ∈ ks) (h25 : Comp.free ∈ ks) (h26 : Comp.units ∈ ks) (h27 : Comp.stores ∈ ks) (h28 : Comp.loaded ∈ ks) (h29 : Comp.lanes ∈ ks) :
    ChangesOnly ks r t ↔ ChangesOnly ks r s := by
  injection e with e; subst e; simp only [↓pllGone_only, ↓ite_only, ite_self, h0, h1, h2, h3, h4, h5, h6, h7, h8, h9, h10, h11, h12, h13, h14, h15, h16, h17, h18, h19, h20, h21, h22, h23, h24, h25, h26, h27, h28, h29]

theorem execPoicaReferenceLost_only {ks : List Comp} {r t : State} {pll : Bool} {s : State}
    (e : execPoicaReferenceLost pll s = .next t) (h0 : Comp.slots ∈ ks) (h1 : Comp.waits ∈ ks) (h2 : Comp.fns ∈ ks) (h3 : Comp.chans ∈ ks) (h4 : Comp.lock ∈ ks) (h5 : Comp.ports ∈ ks) (h6 : Comp.outst ∈ ks) (h7 : Comp.deliveries ∈ ks) (h8 : Comp.geo ∈ ks) (h9 : Comp.faults ∈ ks) (h10 : Comp.runs ∈ ks) (h11 : Comp.frames ∈ ks) (h12 : Comp.boot ∈ ks) (h13 : Comp.out ∈ ks) (h14 : Comp.telem ∈ ks) (h15 : Comp.units ∈ ks) (h16 : Comp.loaded ∈ ks) (h17 : Comp.lanes ∈ ks) :
    ChangesOnly ks r t ↔ ChangesOnly ks r s := by
  injection e with e; subst e; simp only [↓poicaReferenceLost_only, ↓ite_only, ite_self, h0, h1, h2, h3, h4, h5, h6, h7, h8, h9, h10, h11, h12, h13, h14, h15, h16, h17]

end Sys2Proof.Machine
end

