-- ==== Sys2Proof/Laws/ChangesCompute.lean ====
section
/-!
SUPPORT. What each operation of the model may change: flash, panel, board, channels, programs and what clusters execute.
-/

set_option linter.all false

namespace Sys2Proof.Machine

/-! ### Nv -/

theorem modFlash_only {ks : List Comp} {r : State} (s : State) (f : Mem → Mem)
    (h0 : Comp.nv ∈ ks) :
    ChangesOnly ks r (State.modFlash s f) ↔ ChangesOnly ks r s := by
  unfold State.modFlash; simp only [↓upd_nv_only, ↓ite_only, ite_self, h0]

theorem eraseSector_only {ks : List Comp} {r : State} (s : State) (region : Nat) (off : Nat)
    (h0 : Comp.nv ∈ ks) :
    ChangesOnly ks r (State.eraseSector s region off) ↔ ChangesOnly ks r s := by
  unfold State.eraseSector; simp only [↓modFlash_only, ↓ite_only, ite_self, h0]

theorem programPage_only {ks : List Comp} {r : State} (s : State) (region : Nat) (off : Nat) (bytes : List Byte)
    (h0 : Comp.nv ∈ ks) :
    ChangesOnly ks r (State.programPage s region off bytes) ↔ ChangesOnly ks r s := by
  unfold State.programPage; simp only [↓modFlash_only, ↓ite_only, ite_self, h0]

theorem damage_only {ks : List Comp} {r : State} (s : State) (region : Nat) (off : Nat) (n : Nat)
    (h0 : Comp.nv ∈ ks) (h1 : Comp.free ∈ ks) :
    ChangesOnly ks r (State.damage s region off n) ↔ ChangesOnly ks r s := by
  unfold State.damage; simp only [↓draw_only, ↓modFlash_only, ↓ite_only, ite_self, h0, h1]

theorem mixOld_only {ks : List Comp} {r : State} (s : State) (o : NvOp) (m : Nat)
    (h0 : Comp.nv ∈ ks) (h1 : Comp.free ∈ ks) :
    ChangesOnly ks r (State.mixOld s o m) ↔ ChangesOnly ks r s := by
  unfold State.mixOld; simp only [↓draw_only, ↓modFlash_only, ↓ite_only, ite_self, h0, h1]

theorem moveEntry_only {ks : List Comp} {r : State} (s : State) (old : Nat) (new : Nat)
    (h0 : Comp.panel ∈ ks) (h1 : Comp.nv ∈ ks) :
    ChangesOnly ks r (State.moveEntry s old new) ↔ ChangesOnly ks r s := by
  unfold State.moveEntry; simp only [↓upd_nv_only, ↓upd_panel_only, ↓upd_nv_panel_only, ↓ite_only, ite_self, h0, h1]

theorem putEntry_only {ks : List Comp} {r : State} (s : State) (e : JEntry)
    (h0 : Comp.nv ∈ ks) :
    ChangesOnly ks r (State.putEntry s e) ↔ ChangesOnly ks r s := by
  unfold State.putEntry; simp only [↓upd_nv_only, ↓ite_only, ite_self, h0]

theorem journal_only {ks : List Comp} {r : State} (s : State) (e : JEntry)
    (h0 : Comp.panel ∈ ks) (h1 : Comp.nv ∈ ks) :
    ChangesOnly ks r (State.journal s e).1 ↔ ChangesOnly ks r s := by
  simp only [State.journal]; (repeat' split) <;> simp [↓putEntry_only, ↓moveEntry_only, ↓upd_nv_only, ↓forEach_only, ↓ite_only, ite_self, h0, h1]

theorem setDone_only {ks : List Comp} {r : State} (s : State) (seq : Nat) (done : BitVec 8)
    (h0 : Comp.nv ∈ ks) :
    ChangesOnly ks r (State.setDone s seq done) ↔ ChangesOnly ks r s := by
  unfold State.setDone; simp only [↓upd_nv_only, ↓ite_only, ite_self, h0]

theorem modFront_only {ks : List Comp} {r : State} (s : State) (f : NvOp → NvOp)
    (h0 : Comp.nv ∈ ks) :
    ChangesOnly ks r (State.modFront s f) ↔ ChangesOnly ks r s := by
  unfold State.modFront; (repeat' split) <;> simp [↓upd_nv_only, ↓ite_only, ite_self, h0]

theorem pauseFront_only {ks : List Comp} {r : State} (s : State) (cut : Bool)
    (h0 : Comp.waits ∈ ks) (h1 : Comp.fns ∈ ks) (h2 : Comp.out ∈ ks) (h3 : Comp.nv ∈ ks) :
    ChangesOnly ks r (State.pauseFront s cut) ↔ ChangesOnly ks r s := by
  unfold State.pauseFront; (repeat' split) <;> simp [↓occur_only, ↓modFront_only, ↓ite_only, ite_self, h0, h1, h2, h3]

theorem beginFront_only {ks : List Comp} {r : State} (s : State)
    (h0 : Comp.panel ∈ ks) (h1 : Comp.nv ∈ ks) :
    ChangesOnly ks r (State.beginFront s) ↔ ChangesOnly ks r s := by
  unfold State.beginFront; (repeat' split) <;> simp [↓modFront_only, ↓journal_only, ↓ite_only, ite_self, h0, h1]

theorem finishFront_only {ks : List Comp} {r : State} (s : State) (status : W16) (detail : W16) (a3 : W64) (data : BitVec 192)
    (h0 : Comp.waits ∈ ks) (h1 : Comp.fns ∈ ks) (h2 : Comp.outst ∈ ks) (h3 : Comp.out ∈ ks) (h4 : Comp.nv ∈ ks) :
    ChangesOnly ks r (State.finishFront s status detail a3 data) ↔ ChangesOnly ks r s := by
  unfold State.finishFront; (repeat' split) <;> simp [↓setDone_only, ↓complete_only, ↓upd_nv_only, ↓ite_only, ite_self, h0, h1, h2, h3, h4]

theorem startNv_only {ks : List Comp} {r : State} (host : List Byte) (fail : Option W64) (s : State)
    (h0 : Comp.waits ∈ ks) (h1 : Comp.fns ∈ ks) (h2 : Comp.outst ∈ ks) (h3 : Comp.panel ∈ ks) (h4 : Comp.out ∈ ks) (h5 : Comp.nv ∈ ks) :
    ChangesOnly ks r (startNv host fail s) ↔ ChangesOnly ks r s := by
  unfold startNv; (repeat' split) <;> simp [↓modFront_only, ↓finishFront_only, ↓beginFront_only, ↓pauseFront_only, ↓ite_only, ite_self, h0, h1, h2, h3, h4, h5]

theorem checkStep_only {ks : List Comp} {r : State} (s : State)
    (h0 : Comp.waits ∈ ks) (h1 : Comp.fns ∈ ks) (h2 : Comp.out ∈ ks) (h3 : Comp.nv ∈ ks) :
    ChangesOnly ks r (State.checkStep s) ↔ ChangesOnly ks r s := by
  unfold State.checkStep; (repeat' split) <;> simp [↓pauseFront_only, ↓ite_only, ite_self, h0, h1, h2, h3]

theorem doProgram_only {ks : List Comp} {r : State} (s : State) (region : Nat) (off : Nat) (b : List Byte)
    (h0 : Comp.panel ∈ ks) (h1 : Comp.nv ∈ ks) :
    ChangesOnly ks r (State.doProgram s region off b) ↔ ChangesOnly ks r s := by
  unfold State.doProgram; simp only [↓programPage_only, ↓stripChanged_only, ↓ite_only, ite_self, h0, h1]

theorem pageDone_only {ks : List Comp} {r : State} (mismatch : Option W32) (s : State)
    (h0 : Comp.waits ∈ ks) (h1 : Comp.fns ∈ ks) (h2 : Comp.outst ∈ ks) (h3 : Comp.panel ∈ ks) (h4 : Comp.out ∈ ks) (h5 : Comp.nv ∈ ks) (h6 : Comp.free ∈ ks) :
    ChangesOnly ks r (pageDone mismatch s) ↔ ChangesOnly ks r s := by
  unfold pageDone; (repeat' split) <;> simp [↓modFront_only, ↓doProgram_only, ↓finishFront_only, ↓mixOld_only, ↓checkStep_only, ↓ite_only, ite_self, h0, h1, h2, h3, h4, h5, h6]

theorem eraseDone_only {ks : List Comp} {r : State} (s : State)
    (h0 : Comp.waits ∈ ks) (h1 : Comp.fns ∈ ks) (h2 : Comp.out ∈ ks) (h3 : Comp.nv ∈ ks) :
    ChangesOnly ks r (eraseDone s) ↔ ChangesOnly ks r s := by
  unfold eraseDone; (repeat' split) <;> simp [↓checkStep_only, ↓modFront_only, ↓eraseSector_only, ↓ite_only, ite_self, h0, h1, h2, h3]

theorem stageRead_only {ks : List Comp} {r : State} (s : State) (o : NvOp) (mismatch : Option W32)
    (h0 : Comp.waits ∈ ks) (h1 : Comp.fns ∈ ks) (h2 : Comp.outst ∈ ks) (h3 : Comp.out ∈ ks) (h4 : Comp.nv ∈ ks) (h5 : Comp.free ∈ ks) :
    ChangesOnly ks r (State.stageRead s o mismatch) ↔ ChangesOnly ks r s := by
  simp only [State.stageRead]; (repeat' split) <;> simp [↓finishFront_only, ↓damage_only, ↓upd_nv_only, ↓ite_only, ite_self, h0, h1, h2, h3, h4, h5]

theorem commitRead_only {ks : List Comp} {r : State} (s : State) (o : NvOp) (mismatch : Option W32)
    (h0 : Comp.waits ∈ ks) (h1 : Comp.fns ∈ ks) (h2 : Comp.outst ∈ ks) (h3 : Comp.out ∈ ks) (h4 : Comp.nv ∈ ks) (h5 : Comp.free ∈ ks) :
    ChangesOnly ks r (State.commitRead s o mismatch) ↔ ChangesOnly ks r s := by
  unfold State.commitRead; (repeat' split) <;> simp [↓finishFront_only, ↓damage_only, ↓upd_nv_only, ↓ite_only, ite_self, h0, h1, h2, h3, h4, h5]

theorem calRead_only {ks : List Comp} {r : State} (s : State) (o : NvOp) (rest : List NvStep) (mismatch : Option W32)
    (h0 : Comp.waits ∈ ks) (h1 : Comp.fns ∈ ks) (h2 : Comp.outst ∈ ks) (h3 : Comp.out ∈ ks) (h4 : Comp.nv ∈ ks) (h5 : Comp.free ∈ ks) :
    ChangesOnly ks r (State.calRead s o rest mismatch) ↔ ChangesOnly ks r s := by
  simp only [State.calRead]; (repeat' split) <;> simp [↓finishFront_only, ↓damage_only, ↓checkStep_only, ↓modFront_only, ↓ite_only, ite_self, h0, h1, h2, h3, h4, h5]

theorem readDone_only {ks : List Comp} {r : State} (mismatch : Option W32) (fail : Option W64) (s : State)
    (h0 : Comp.waits ∈ ks) (h1 : Comp.fns ∈ ks) (h2 : Comp.outst ∈ ks) (h3 : Comp.out ∈ ks) (h4 : Comp.nv ∈ ks) (h5 : Comp.free ∈ ks) :
    ChangesOnly ks r (readDone mismatch fail s) ↔ ChangesOnly ks r s := by
  unfold readDone; (repeat' split) <;> simp [↓stageRead_only, ↓commitRead_only, ↓calRead_only, ↓finishFront_only, ↓hostWrite_only, ↓ite_only, ite_self, h0, h1, h2, h3, h4, h5]

theorem budgeted_only {ks : List Comp} {r : State} (x : State × Nat) {f : State → State}
    (hf : ∀ t, ChangesOnly ks r (f t) ↔ ChangesOnly ks r t) :
    ChangesOnly ks r (State.budgeted x f).1 ↔ ChangesOnly ks r x.1 := by
  unfold State.budgeted; split <;> simp only [↓hf]

theorem leaveErase_only {ks : List Comp} {r : State} (x : State × Nat) (o : NvOp) (region off : Nat) (h0 : Comp.panel ∈ ks) (h1 : Comp.nv ∈ ks) (h2 : Comp.free ∈ ks) :
    ChangesOnly ks r (State.leaveErase x o region off).1 ↔ ChangesOnly ks r x.1 := by
  unfold State.leaveErase
  dsimp only
  refine (budgeted_only _ fun t => ?_).trans ?_
  · simp only [↓journal_only, h0, h1, h2]
  · split <;> simp only [↓eraseSector_only, ↓draw_only, h0, h1, h2]

theorem dropNv_only {ks : List Comp} {r : State} (x : State × Nat) (o : NvOp) (stopped : Nat) (h0 : Comp.nv ∈ ks) :
    ChangesOnly ks r (State.dropNv x o stopped).1 ↔ ChangesOnly ks r x.1 := by
  unfold State.dropNv
  dsimp only
  split <;> simp only [↓upd_nv_only, h0]
  refine (budgeted_only _ fun t => ?_).trans Iff.rfl
  simp only [↓setDone_only, h0]

theorem programNow_only {ks : List Comp} {r : State} (o : NvOp) (region : Nat) (off : Nat) (bytes : List Byte) (s : State)
    (h0 : Comp.panel ∈ ks) (h1 : Comp.nv ∈ ks) :
    ChangesOnly ks r (State.programNow o region off bytes s) ↔ ChangesOnly ks r s := by
  unfold State.programNow; simp only [↓doProgram_only, ↓upd_nv_only, ↓ite_only, ite_self, h0, h1]

theorem endNv_only {ks : List Comp} {r : State} (x : State × Nat) (o : NvOp) (h0 : Comp.panel ∈ ks) (h1 : Comp.nv ∈ ks) (h2 : Comp.free ∈ ks) :
    ChangesOnly ks r (State.endNv x o).1 ↔ ChangesOnly ks r x.1 := by
  unfold State.endNv
  (repeat' split) <;> simp only [↓dropNv_only, ↓leaveErase_only, ↓eraseSector_only, h0, h1, h2]
  refine (budgeted_only _ fun t => ?_).trans Iff.rfl
  simp only [↓programNow_only, h0, h1, h2]

theorem endNvs_only {ks : List Comp} {r : State} (x : State × Nat) (p : NvOp → Bool) (h0 : Comp.panel ∈ ks) (h1 : Comp.nv ∈ ks) (h2 : Comp.free ∈ ks) :
    ChangesOnly ks r (State.endNvs x p).1 ↔ ChangesOnly ks r x.1 := by
  unfold State.endNvs
  suffices h : ∀ (l : List NvOp) (y : State × Nat × Nat),
      ChangesOnly ks r (l.foldl (fun (y : State × Nat × Nat) o =>
        let z := State.endNv (y.1, y.2.1) o
        (z.1, z.2.1, y.2.2 ||| z.2.2)) y).1 ↔ ChangesOnly ks r y.1 from h _ _
  intro l
  induction l with
  | nil => intro y; rfl
  | cons a l ih => intro y; rw [List.foldl_cons, ih]; exact endNv_only _ _ h0 h1 h2

theorem frontTimedOut_only {ks : List Comp} {r : State} (s : State) (o : NvOp)
    (h0 : Comp.waits ∈ ks) (h1 : Comp.fns ∈ ks) (h2 : Comp.outst ∈ ks) (h3 : Comp.panel ∈ ks) (h4 : Comp.out ∈ ks) (h5 : Comp.nv ∈ ks) (h6 : Comp.free ∈ ks) :
    ChangesOnly ks r (State.frontTimedOut s o) ↔ ChangesOnly ks r s := by
  unfold State.frontTimedOut; simp only [↓endNv_only, ↓complete_only, ↓ite_only, ite_self, h0, h1, h2, h3, h4, h5, h6]

theorem runReerase_only {ks : List Comp} {r : State} (s : State)
    (h0 : Comp.nv ∈ ks) :
    ChangesOnly ks r (State.runReerase s) ↔ ChangesOnly ks r s := by
  unfold State.runReerase
  repeat' (first | with_reducible rfl | (simp only [↓setDone_only, ↓eraseSector_only, ↓upd_nv_only, ↓forEach_only, ↓ite_only, ite_self, h0]) | with_reducible (refine (forEach_only (fun _ _ => ?_) _ _).trans ?_) | split | dsimp only)

theorem resumeFront_only {ks : List Comp} {r : State} (s : State)
    (h0 : Comp.waits ∈ ks) (h1 : Comp.fns ∈ ks) (h2 : Comp.panel ∈ ks) (h3 : Comp.out ∈ ks) (h4 : Comp.nv ∈ ks) :
    ChangesOnly ks r (State.resumeFront s) ↔ ChangesOnly ks r s := by
  unfold State.resumeFront; (repeat' split) <;> simp [↓occur_only, ↓modFront_only, ↓beginFront_only, ↓ite_only, ite_self, h0, h1, h2, h3, h4]

theorem queueNv_only {ks : List Comp} {r : State} (s : State) (o : NvOp)
    (h0 : Comp.nv ∈ ks) :
    ChangesOnly ks r (State.queueNv s o) ↔ ChangesOnly ks r s := by
  unfold State.queueNv; simp only [↓upd_nv_only, ↓ite_only, ite_self, h0]

theorem execNvOperationStart_only {ks : List Comp} {r t : State} {host : List Byte} {fail : Option W64} {s : State}
    (e : execNvOperationStart host fail s = .next t) (h0 : Comp.waits ∈ ks) (h1 : Comp.fns ∈ ks) (h2 : Comp.outst ∈ ks) (h3 : Comp.panel ∈ ks) (h4 : Comp.out ∈ ks) (h5 : Comp.nv ∈ ks) :
    ChangesOnly ks r t ↔ ChangesOnly ks r s := by
  injection e with e; subst e; simp only [↓startNv_only, ↓ite_only, ite_self, h0, h1, h2, h3, h4, h5]

theorem execPageProgramComplete_only {ks : List Comp} {r t : State} {mismatch : Option W32} {s : State}
    (e : execPageProgramComplete mismatch s = .next t) (h0 : Comp.waits ∈ ks) (h1 : Comp.fns ∈ ks) (h2 : Comp.outst ∈ ks) (h3 : Comp.panel ∈ ks) (h4 : Comp.out ∈ ks) (h5 : Comp.nv ∈ ks) (h6 : Comp.free ∈ ks) :
    ChangesOnly ks r t ↔ ChangesOnly ks r s := by
  injection e with e; subst e; simp only [↓pageDone_only, ↓ite_only, ite_self, h0, h1, h2, h3, h4, h5, h6]

theorem execSectorEraseComplete_only {ks : List Comp} {r t : State} {s : State}
    (e : execSectorEraseComplete s = .next t) (h0 : Comp.waits ∈ ks) (h1 : Comp.fns ∈ ks) (h2 : Comp.out ∈ ks) (h3 : Comp.nv ∈ ks) :
    ChangesOnly ks r t ↔ ChangesOnly ks r s := by
  injection e with e; subst e; simp only [↓eraseDone_only, ↓ite_only, ite_self, h0, h1, h2, h3]

theorem execFlashReadComplete_only {ks : List Comp} {r t : State} {mismatch : Option W32} {fail : Option W64} {s : State}
    (e : execFlashReadComplete mismatch fail s = .next t) (h0 : Comp.waits ∈ ks) (h1 : Comp.fns ∈ ks) (h2 : Comp.outst ∈ ks) (h3 : Comp.out ∈ ks) (h4 : Comp.nv ∈ ks) (h5 : Comp.free ∈ ks) :
    ChangesOnly ks r t ↔ ChangesOnly ks r s := by
  injection e with e; subst e; simp only [↓readDone_only, ↓ite_only, ite_self, h0, h1, h2, h3, h4, h5]

theorem execNvRead_only {ks : List Comp} {r t : State} {fn : FnNo} {qp : QpNo} {pkt : Packet} {s : State}
    (e : execNvRead fn qp pkt s = .next t) (h0 : Comp.nextId ∈ ks) (h1 : Comp.fns ∈ ks) (h2 : Comp.outst ∈ ks) (h3 : Comp.out ∈ ks) (h4 : Comp.nv ∈ ks) :
    ChangesOnly ks r t ↔ ChangesOnly ks r s := by
  injection e with e; subst e
  repeat' (first | with_reducible rfl | assumption | intro _ | (simp only [↓longCommand_only, ↓queueNv_only, ↓ite_only, ite_self, h0, h1, h2, h3, h4]) | rw [foldl_fst_only] | rw [foldl_only] | rw [longCommand_only] | split | dsimp only)

theorem execNvWrite_only {ks : List Comp} {r t : State} {fn : FnNo} {qp : QpNo} {pkt : Packet} {s : State}
    (e : execNvWrite fn qp pkt s = .next t) (h0 : Comp.nextId ∈ ks) (h1 : Comp.fns ∈ ks) (h2 : Comp.outst ∈ ks) (h3 : Comp.out ∈ ks) (h4 : Comp.nv ∈ ks) :
    ChangesOnly ks r t ↔ ChangesOnly ks r s := by
  injection e with e; subst e
  repeat' (first | with_reducible rfl | assumption | intro _ | (simp only [↓longCommand_only, ↓queueNv_only, ↓ite_only, ite_self, h0, h1, h2, h3, h4]) | rw [foldl_fst_only] | rw [foldl_only] | rw [longCommand_only] | split | dsimp only)

theorem execFwStage_only {ks : List Comp} {r t : State} {fn : FnNo} {qp : QpNo} {pkt : Packet} {s : State}
    (e : execFwStage fn qp pkt s = .next t) (h0 : Comp.nextId ∈ ks) (h1 : Comp.fns ∈ ks) (h2 : Comp.outst ∈ ks) (h3 : Comp.out ∈ ks) (h4 : Comp.nv ∈ ks) :
    ChangesOnly ks r t ↔ ChangesOnly ks r s := by
  injection e with e; subst e
  repeat' (first | with_reducible rfl | assumption | intro _ | (simp only [↓longCommand_only, ↓queueNv_only, ↓upd_nv_only, ↓ite_only, ite_self, h0, h1, h2, h3, h4]) | rw [foldl_fst_only] | rw [foldl_only] | rw [longCommand_only] | split | dsimp only)

theorem execFwCommit_only {ks : List Comp} {r t : State} {fn : FnNo} {qp : QpNo} {pkt : Packet} {s : State}
    (e : execFwCommit fn qp pkt s = .next t) (h0 : Comp.nextId ∈ ks) (h1 : Comp.fns ∈ ks) (h2 : Comp.outst ∈ ks) (h3 : Comp.out ∈ ks) (h4 : Comp.nv ∈ ks) :
    ChangesOnly ks r t ↔ ChangesOnly ks r s := by
  injection e with e; subst e
  repeat' (first | with_reducible rfl | assumption | intro _ | (simp only [↓longCommand_only, ↓queueNv_only, ↓ite_only, ite_self, h0, h1, h2, h3, h4]) | rw [foldl_fst_only] | rw [foldl_only] | rw [longCommand_only] | split | dsimp only)

theorem execCalStore_only {ks : List Comp} {r t : State} {fn : FnNo} {qp : QpNo} {pkt : Packet} {s : State}
    (e : execCalStore fn qp pkt s = .next t) (h0 : Comp.nextId ∈ ks) (h1 : Comp.fns ∈ ks) (h2 : Comp.outst ∈ ks) (h3 : Comp.out ∈ ks) (h4 : Comp.nv ∈ ks) :
    ChangesOnly ks r t ↔ ChangesOnly ks r s := by
  injection e with e; subst e
  repeat' (first | with_reducible rfl | assumption | intro _ | (simp only [↓longCommand_only, ↓queueNv_only, ↓ite_only, ite_self, h0, h1, h2, h3, h4]) | rw [foldl_fst_only] | rw [foldl_only] | rw [longCommand_only] | split | dsimp only)

/-! ### Panel -/

theorem storeImage_only {ks : List Comp} {r : State} (s : State) (off : Nat) (px : BitVec 23680)
    (h0 : Comp.nv ∈ ks) (h1 : Comp.free ∈ ks) :
    ChangesOnly ks r (State.storeImage s off px) ↔ ChangesOnly ks r s := by
  unfold State.storeImage; simp only [↓draw_only, ↓programPage_only, ↓eraseSector_only, ↓ite_only, ite_self, h0, h1]

theorem modPanel_only {ks : List Comp} {r : State} (s : State) (f : Panel → Panel)
    (h0 : Comp.panel ∈ ks) :
    ChangesOnly ks r (State.modPanel s f) ↔ ChangesOnly ks r s := by
  unfold State.modPanel; simp only [↓upd_panel_only, ↓ite_only, ite_self, h0]

theorem beginRefresh_only {ks : List Comp} {r : State} (s : State) (px : BitVec 23680) (opcode : BitVec 8) (ref : Nat)
    (h0 : Comp.panel ∈ ks) (h1 : Comp.out ∈ ks) (h2 : Comp.nv ∈ ks) (h3 : Comp.free ∈ ks) :
    ChangesOnly ks r (State.beginRefresh s px opcode ref) ↔ ChangesOnly ks r s := by
  unfold State.beginRefresh; simp only [↓storeImage_only, ↓journal_only, ↓emit_only, ↓modPanel_only, ↓ite_only, ite_self, h0, h1, h2, h3]

theorem carryDraws_only {ks : List Comp} {r : State} (s : State)
    (h0 : Comp.panel ∈ ks) :
    ChangesOnly ks r (State.carryDraws s) ↔ ChangesOnly ks r s := by
  unfold State.carryDraws; simp [↓modPanel_only, ↓forEach_only, ↓ite_only, ite_self, h0]

theorem pauseDraws_only {ks : List Comp} {r : State} (s : State) (p : Draw → Bool)
    (h0 : Comp.waits ∈ ks) (h1 : Comp.fns ∈ ks) (h2 : Comp.panel ∈ ks) (h3 : Comp.out ∈ ks) :
    ChangesOnly ks r (State.pauseDraws s p) ↔ ChangesOnly ks r s := by
  unfold State.pauseDraws; simp [↓occur_only, ↓modPanel_only, ↓forEach_only, ↓ite_only, ite_self, h0, h1, h2, h3]

theorem resumeDraws_only {ks : List Comp} {r : State} (s : State)
    (h0 : Comp.waits ∈ ks) (h1 : Comp.fns ∈ ks) (h2 : Comp.panel ∈ ks) (h3 : Comp.out ∈ ks) :
    ChangesOnly ks r (State.resumeDraws s) ↔ ChangesOnly ks r s := by
  unfold State.resumeDraws; simp [↓occur_only, ↓modPanel_only, ↓forEach_only, ↓ite_only, ite_self, h0, h1, h2, h3]

theorem startRefresh_only {ks : List Comp} {r : State} (s : State)
    (h0 : Comp.waits ∈ ks) (h1 : Comp.fns ∈ ks) (h2 : Comp.panel ∈ ks) (h3 : Comp.out ∈ ks) (h4 : Comp.nv ∈ ks) (h5 : Comp.free ∈ ks) :
    ChangesOnly ks r (startRefresh s) ↔ ChangesOnly ks r s := by
  unfold startRefresh; simp only [↓resumeDraws_only, ↓beginRefresh_only, ↓modPanel_only, ↓pauseDraws_only, ↓carryDraws_only, ↓ite_only, ite_self, h0, h1, h2, h3, h4, h5]

theorem identityTimer_only {ks : List Comp} {r : State} (s : State)
    (h0 : Comp.waits ∈ ks) (h1 : Comp.fns ∈ ks) (h2 : Comp.tick ∈ ks) (h3 : Comp.panel ∈ ks) (h4 : Comp.out ∈ ks) (h5 : Comp.nv ∈ ks) (h6 : Comp.free ∈ ks) :
    ChangesOnly ks r (identityTimer s) ↔ ChangesOnly ks r s := by
  unfold identityTimer; (repeat' split) <;> simp [↓startRefresh_only, ↓modPanel_only, ↓reach_only, ↓ite_only, ite_self, h0, h1, h2, h3, h4, h5, h6]

theorem refreshDone_only {ks : List Comp} {r : State} (s : State) (rr : Refresh)
    (h0 : Comp.waits ∈ ks) (h1 : Comp.fns ∈ ks) (h2 : Comp.outst ∈ ks) (h3 : Comp.panel ∈ ks) (h4 : Comp.out ∈ ks) (h5 : Comp.nv ∈ ks) :
    ChangesOnly ks r (State.refreshDone s rr) ↔ ChangesOnly ks r s := by
  unfold State.refreshDone; simp [↓modPanel_only, ↓setDone_only, ↓raise_only, ↓occurAll_only, ↓completeOk_only, ↓forEach_only, ↓ite_only, ite_self, h0, h1, h2, h3, h4, h5]

theorem refreshStopped_only {ks : List Comp} {r : State} (s : State) (rr : Refresh)
    (h0 : Comp.waits ∈ ks) (h1 : Comp.fns ∈ ks) (h2 : Comp.panel ∈ ks) (h3 : Comp.out ∈ ks) (h4 : Comp.nv ∈ ks) :
    ChangesOnly ks r (State.refreshStopped s rr) ↔ ChangesOnly ks r s := by
  unfold State.refreshStopped; simp only [↓modPanel_only, ↓setDone_only, ↓pauseDraws_only, ↓occurAll_only, ↓raise_only, ↓ite_only, ite_self, h0, h1, h2, h3, h4]

theorem phaseEnds_only {ks : List Comp} {r : State} (s : State)
    (h0 : Comp.waits ∈ ks) (h1 : Comp.fns ∈ ks) (h2 : Comp.outst ∈ ks) (h3 : Comp.panel ∈ ks) (h4 : Comp.out ∈ ks) (h5 : Comp.nv ∈ ks) :
    ChangesOnly ks r (phaseEnds s) ↔ ChangesOnly ks r s := by
  unfold phaseEnds; (repeat' split) <;> simp [↓refreshStopped_only, ↓refreshDone_only, ↓emit_only, ↓modPanel_only, ↓ite_only, ite_self, h0, h1, h2, h3, h4, h5]

theorem stopRefresh_only {ks : List Comp} {r : State} (s : State)
    (h0 : Comp.panel ∈ ks) :
    ChangesOnly ks r (State.stopRefresh s) ↔ ChangesOnly ks r s := by
  unfold State.stopRefresh; simp only [↓modPanel_only, ↓ite_only, ite_self, h0]

theorem drawTimedOut_only {ks : List Comp} {r : State} (s : State) (d : Draw)
    (h0 : Comp.waits ∈ ks) (h1 : Comp.fns ∈ ks) (h2 : Comp.outst ∈ ks) (h3 : Comp.panel ∈ ks) (h4 : Comp.out ∈ ks) :
    ChangesOnly ks r (State.drawTimedOut s d) ↔ ChangesOnly ks r s := by
  unfold State.drawTimedOut; simp only [↓complete_only, ↓modPanel_only, ↓ite_only, ite_self, h0, h1, h2, h3, h4]

theorem queueDraw_only {ks : List Comp} {r : State} (fn : FnNo) (qp : QpNo) (p : Packet) (host : List Byte) (fail : Option W64) (id : Nat) (s : State)
    (h0 : Comp.waits ∈ ks) (h1 : Comp.fns ∈ ks) (h2 : Comp.outst ∈ ks) (h3 : Comp.panel ∈ ks) (h4 : Comp.out ∈ ks) :
    ChangesOnly ks r (queueDraw fn qp p host fail id s) ↔ ChangesOnly ks r s := by
  unfold queueDraw; (repeat' split) <;> simp [↓complete_only, ↓modPanel_only, ↓ite_only, ite_self, h0, h1, h2, h3, h4]

theorem execPanelRefreshStart_only {ks : List Comp} {r t : State} {s : State}
    (e : execPanelRefreshStart s = .next t) (h0 : Comp.waits ∈ ks) (h1 : Comp.fns ∈ ks) (h2 : Comp.panel ∈ ks) (h3 : Comp.out ∈ ks) (h4 : Comp.nv ∈ ks) (h5 : Comp.free ∈ ks) :
    ChangesOnly ks r t ↔ ChangesOnly ks r s := by
  injection e with e; subst e; simp only [↓startRefresh_only, ↓ite_only, ite_self, h0, h1, h2, h3, h4, h5]

theorem execIdentityChangeTimer_only {ks : List Comp} {r t : State} {s : State}
    (e : execIdentityChangeTimer s = .next t) (h0 : Comp.waits ∈ ks) (h1 : Comp.fns ∈ ks) (h2 : Comp.tick ∈ ks) (h3 : Comp.panel ∈ ks) (h4 : Comp.out ∈ ks) (h5 : Comp.nv ∈ ks) (h6 : Comp.free ∈ ks) :
    ChangesOnly ks r t ↔ ChangesOnly ks r s := by
  injection e with e; subst e; simp only [↓identityTimer_only, ↓ite_only, ite_self, h0, h1, h2, h3, h4, h5, h6]

theorem execWaveformPhaseEnd_only {ks : List Comp} {r t : State} {s : State}
    (e : execWaveformPhaseEnd s = .next t) (h0 : Comp.waits ∈ ks) (h1 : Comp.fns ∈ ks) (h2 : Comp.outst ∈ ks) (h3 : Comp.panel ∈ ks) (h4 : Comp.out ∈ ks) (h5 : Comp.nv ∈ ks) :
    ChangesOnly ks r t ↔ ChangesOnly ks r s := by
  injection e with e; subst e; simp only [↓phaseEnds_only, ↓ite_only, ite_self, h0, h1, h2, h3, h4, h5]

theorem execPanelDraw_only {ks : List Comp} {r t : State} {fn : FnNo} {qp : QpNo} {pkt : Packet} {host : List Byte} {fail : Option W64} {s : State}
    (e : execPanelDraw fn qp pkt host fail s = .next t) (h0 : Comp.waits ∈ ks) (h1 : Comp.nextId ∈ ks) (h2 : Comp.fns ∈ ks) (h3 : Comp.outst ∈ ks) (h4 : Comp.panel ∈ ks) (h5 : Comp.out ∈ ks) :
    ChangesOnly ks r t ↔ ChangesOnly ks r s := by
  injection e with e; subst e
  repeat' (first | with_reducible rfl | assumption | intro _ | (simp only [↓longCommand_only, ↓queueDraw_only, ↓ite_only, ite_self, h0, h1, h2, h3, h4, h5]) | rw [foldl_fst_only] | rw [foldl_only] | rw [longCommand_only] | split | dsimp only)

theorem execPanelStatus_only {ks : List Comp} {r t : State} {fn : FnNo} {qp : QpNo} {pkt : Packet} {s : State}
    (e : execPanelStatus fn qp pkt s = .next t) (h0 : Comp.fns ∈ ks) (h1 : Comp.out ∈ ks) :
    ChangesOnly ks r t ↔ ChangesOnly ks r s := by
  injection e with e; subst e
  repeat' (first | with_reducible rfl | assumption | intro _ | (simp only [↓shortCommand_only, ↓ite_only, ite_self, h0, h1]) | rw [foldl_fst_only] | rw [foldl_only] | rw [shortCommand_only] | split | dsimp only)

/-! ### Access -/

theorem bar2Read_only {ks : List Comp} {r : State} (fn : FnNo) (o : Nat) (n : Nat) (found : Ecc) (s : State)
    (h0 : Comp.remaps ∈ ks) (h1 : Comp.slots ∈ ks) (h2 : Comp.waits ∈ ks) (h3 : Comp.progs ∈ ks) (h4 : Comp.copies ∈ ks) (h5 : Comp.fns ∈ ks) (h6 : Comp.chans ∈ ks) (h7 : Comp.clusters ∈ ks) (h8 : Comp.lock ∈ ks) (h9 : Comp.ports ∈ ks) (h10 : Comp.outst ∈ ks) (h11 : Comp.ext ∈ ks) (h12 : Comp.pieces ∈ ks) (h13 : Comp.deliveries ∈ ks) (h14 : Comp.geo ∈ ks) (h15 : Comp.faults ∈ ks) (h16 : Comp.toReplace ∈ ks) (h17 : Comp.scratch ∈ ks) (h18 : Comp.runs ∈ ks) (h19 : Comp.frames ∈ ks) (h20 : Comp.strata ∈ ks) (h21 : Comp.out ∈ ks) (h22 : Comp.telem ∈ ks) (h23 : Comp.nv ∈ ks) (h24 : Comp.free ∈ ks) (h25 : Comp.units ∈ ks) (h26 : Comp.stores ∈ ks) (h27 : Comp.loaded ∈ ks) (h28 : Comp.lanes ∈ ks) :
    ChangesOnly ks r (bar2Read fn o n found s) ↔ ChangesOnly ks r s := by
  simp only [bar2Read]; (repeat' split) <;> simp [↓foundAt_only, ↓emit_only, ↓raise_only, ↓ite_only, ite_self, h0, h1, h2, h3, h4, h5, h6, h7, h8, h9, h10, h11, h12, h13, h14, h15, h16, h17, h18, h19, h20, h21, h22, h23, h24, h25, h26, h27, h28]

theorem bar2Write_only {ks : List Comp} {r : State} (fn : FnNo) (o : Nat) (b : List Byte) (s : State)
    (h0 : Comp.fns ∈ ks) (h1 : Comp.ext ∈ ks) (h2 : Comp.geo ∈ ks) (h3 : Comp.scratch ∈ ks) (h4 : Comp.out ∈ ks) :
    ChangesOnly ks r (bar2Write fn o b s) ↔ ChangesOnly ks r s := by
  simp only [bar2Write]; (repeat' split) <;> simp [↓viewWrite_only, ↓raise_only, ↓ite_only, ite_self, h0, h1, h2, h3, h4]

theorem bar0Read_only {ks : List Comp} {r : State} (fn : FnNo) (off : Nat) (size : Nat) (s : State)
    (h0 : Comp.fns ∈ ks) (h1 : Comp.out ∈ ks) :
    ChangesOnly ks r (bar0Read fn off size s) ↔ ChangesOnly ks r s := by
  unfold bar0Read; simp only [↓readTickLo_only, ↓emit_only, ↓ite_only, ite_self, h0, h1]

theorem execBar2Read_only {ks : List Comp} {r t : State} {fn : FnNo} {offset : W32} {size : Nat} {found : Ecc} {s : State}
    (e : execBar2Read fn offset size found s = .next t) (h0 : Comp.remaps ∈ ks) (h1 : Comp.slots ∈ ks) (h2 : Comp.waits ∈ ks) (h3 : Comp.progs ∈ ks) (h4 : Comp.copies ∈ ks) (h5 : Comp.fns ∈ ks) (h6 : Comp.chans ∈ ks) (h7 : Comp.clusters ∈ ks) (h8 : Comp.lock ∈ ks) (h9 : Comp.ports ∈ ks) (h10 : Comp.outst ∈ ks) (h11 : Comp.ext ∈ ks) (h12 : Comp.pieces ∈ ks) (h13 : Comp.deliveries ∈ ks) (h14 : Comp.geo ∈ ks) (h15 : Comp.faults ∈ ks) (h16 : Comp.toReplace ∈ ks) (h17 : Comp.scratch ∈ ks) (h18 : Comp.runs ∈ ks) (h19 : Comp.frames ∈ ks) (h20 : Comp.strata ∈ ks) (h21 : Comp.out ∈ ks) (h22 : Comp.telem ∈ ks) (h23 : Comp.nv ∈ ks) (h24 : Comp.free ∈ ks) (h25 : Comp.units ∈ ks) (h26 : Comp.stores ∈ ks) (h27 : Comp.loaded ∈ ks) (h28 : Comp.lanes ∈ ks) :
    ChangesOnly ks r t ↔ ChangesOnly ks r s := by
  injection e with e; subst e
  repeat' (first | with_reducible rfl | assumption | intro _ | (simp only [↓hostAccess_only, ↓bar2Read_only, ↓ite_only, ite_self, h0, h1, h2, h3, h4, h5, h6, h7, h8, h9, h10, h11, h12, h13, h14, h15, h16, h17, h18, h19, h20, h21, h22, h23, h24, h25, h26, h27, h28]) | rw [foldl_fst_only] | rw [foldl_only] | rw [hostAccess_only] | split | dsimp only)

theorem execBar2Write_only {ks : List Comp} {r t : State} {fn : FnNo} {offset : W32} {bytes : List Byte} {s : State}
    (e : execBar2Write fn offset bytes s = .next t) (h0 : Comp.fns ∈ ks) (h1 : Comp.ext ∈ ks) (h2 : Comp.geo ∈ ks) (h3 : Comp.scratch ∈ ks) (h4 : Comp.out ∈ ks) :
    ChangesOnly ks r t ↔ ChangesOnly ks r s := by
  injection e with e; subst e
  repeat' (first | with_reducible rfl | assumption | intro _ | (simp only [↓hostAccess_only, ↓bar2Write_only, ↓ite_only, ite_self, h0, h1, h2, h3, h4]) | rw [foldl_fst_only] | rw [foldl_only] | rw [hostAccess_only] | split | dsimp only)

theorem execAccessErr_only {ks : List Comp} {r t : State} {fn : FnNo} {write : Bool} {offset : BitVec 16} {size : Nat} {s : State}
    (e : execAccessErr fn write offset size s = .next t) (h0 : Comp.fns ∈ ks) (h1 : Comp.out ∈ ks) :
    ChangesOnly ks r t ↔ ChangesOnly ks r s := by
  injection e with e; subst e
  repeat' (first | with_reducible rfl | assumption | intro _ | (simp only [↓hostAccess_only, ↓refuseAccess_only, ↓bar0Read_only, ↓ite_only, ite_self, h0, h1]) | rw [foldl_fst_only] | rw [foldl_only] | rw [hostAccess_only] | split | dsimp only)

theorem execUnlistedOpcode_only {ks : List Comp} {r t : State} {fn : FnNo} {qp : QpNo} {opcode : BitVec 8} {pkt : Packet} {s : State}
    (e : execUnlistedOpcode fn qp opcode pkt s = .next t) (h0 : Comp.fns ∈ ks) (h1 : Comp.out ∈ ks) :
    ChangesOnly ks r t ↔ ChangesOnly ks r s := by
  injection e with e; subst e
  repeat' (first | with_reducible rfl | assumption | intro _ | (simp only [↓takeCommand_only, ↓cancelReply_only, ↓rejectReply_only, ↓ite_only, ite_self, h0, h1]) | rw [foldl_fst_only] | rw [foldl_only] | rw [takeCommand_only] | split | dsimp only)

theorem execCancelledCommand_only {ks : List Comp} {r t : State} {fn : FnNo} {qp : QpNo} {opcode : BitVec 8} {pkt : Packet} {s : State}
    (e : execCancelledCommand fn qp opcode pkt s = .next t) (h0 : Comp.fns ∈ ks) (h1 : Comp.out ∈ ks) :
    ChangesOnly ks r t ↔ ChangesOnly ks r s := by
  injection e with e; subst e
  repeat' (first | with_reducible rfl | assumption | intro _ | (simp only [↓takeCommand_only, ↓cancelReply_only, ↓ite_only, ite_self, h0, h1]) | rw [foldl_fst_only] | rw [foldl_only] | rw [takeCommand_only] | split | dsimp only)

/-! ### Board -/

theorem jtagLoad_only {ks : List Comp} {r : State} (s : State) (code : BitVec 8) (act : BitVec 8) (v : Option W32)
    (h0 : Comp.jtag ∈ ks) (h1 : Comp.out ∈ ks) :
    ChangesOnly ks r (State.jtagLoad s code act v) ↔ ChangesOnly ks r s := by
  unfold State.jtagLoad; simp only [↓emit_only, ↓upd_jtag_only, ↓ite_only, ite_self, h0, h1]

theorem bypassAs_only {ks : List Comp} {r : State} (code : BitVec 8) (s : State)
    (h0 : Comp.jtag ∈ ks) (h1 : Comp.out ∈ ks) :
    ChangesOnly ks r (bypassAs code s) ↔ ChangesOnly ks r s := by
  unfold bypassAs; simp only [↓jtagLoad_only, ↓ite_only, ite_self, h0, h1]

theorem debugRefused_only {ks : List Comp} {r : State} (s : State) (trace : Bool)
    (h0 : Comp.waits ∈ ks) (h1 : Comp.fns ∈ ks) (h2 : Comp.out ∈ ks) :
    ChangesOnly ks r (State.debugRefused s trace) ↔ ChangesOnly ks r s := by
  unfold State.debugRefused; simp only [↓occurAll_only, ↓ite_only, ite_self, h0, h1, h2]

theorem setCage_only {ks : List Comp} {r : State} (s : State) (c : Fin 4) (v : Option Tick)
    (h0 : Comp.ports ∈ ks) :
    ChangesOnly ks r (State.setCage s c v) ↔ ChangesOnly ks r s := by
  unfold State.setCage; simp [↓modPort_only, ↓forEach_only, ↓ite_only, ite_self, h0]

theorem cageTrips_only {ks : List Comp} {r : State} (c : Fin 4) (s : State)
    (h0 : Comp.ports ∈ ks) :
    ChangesOnly ks r (cageTrips c s) ↔ ChangesOnly ks r s := by
  unfold cageTrips; simp only [↓setCage_only, ↓ite_only, ite_self, h0]

theorem cageRetries_only {ks : List Comp} {r : State} (c : Fin 4) (s : State)
    (h0 : Comp.tick ∈ ks) (h1 : Comp.ports ∈ ks) :
    ChangesOnly ks r (cageRetries c s) ↔ ChangesOnly ks r s := by
  unfold cageRetries; (repeat' split) <;> simp [↓setCage_only, ↓reach_only, ↓ite_only, ite_self, h0, h1]

theorem execBypass_only {ks : List Comp} {r t : State} {code : BitVec 8} {s : State}
    (e : execBypass code s = .next t) (h0 : Comp.jtag ∈ ks) (h1 : Comp.out ∈ ks) :
    ChangesOnly ks r t ↔ ChangesOnly ks r s := by
  injection e with e; subst e; simp only [↓bypassAs_only, ↓ite_only, ite_self, h0, h1]

theorem execIdcode_only {ks : List Comp} {r t : State} {s : State}
    (e : execIdcode s = .next t) (h0 : Comp.jtag ∈ ks) (h1 : Comp.out ∈ ks) :
    ChangesOnly ks r t ↔ ChangesOnly ks r s := by
  injection e with e; subst e; simp only [↓jtagLoad_only, ↓ite_only, ite_self, h0, h1]

theorem execSamplePreload_only {ks : List Comp} {r t : State} {s : State}
    (e : execSamplePreload s = .next t) (h0 : Comp.jtag ∈ ks) (h1 : Comp.out ∈ ks) :
    ChangesOnly ks r t ↔ ChangesOnly ks r s := by
  injection e with e; subst e; simp only [↓jtagLoad_only, ↓ite_only, ite_self, h0, h1]

theorem execExtest_only {ks : List Comp} {r t : State} {s : State}
    (e : execExtest s = .next t) (h0 : Comp.jtag ∈ ks) (h1 : Comp.out ∈ ks) :
    ChangesOnly ks r t ↔ ChangesOnly ks r s := by
  injection e with e; subst e; simp only [↓jtagLoad_only, ↓bypassAs_only, ↓ite_only, ite_self, h0, h1]

theorem execPrivateDebug_only {ks : List Comp} {r t : State} {ins : PrivateIns} {s : State}
    (e : execPrivateDebug ins s = .next t) (h0 : Comp.jtag ∈ ks) (h1 : Comp.waits ∈ ks) (h2 : Comp.fns ∈ ks) (h3 : Comp.out ∈ ks) :
    ChangesOnly ks r t ↔ ChangesOnly ks r s := by
  injection e with e; subst e; simp only [↓jtagLoad_only, ↓debugRefused_only, ↓bypassAs_only, ↓ite_only, ite_self, h0, h1, h2, h3]

theorem execCageOvercurrent_only {ks : List Comp} {r t : State} {cage : Fin 4} {s : State}
    (e : execCageOvercurrent cage s = .next t) (h0 : Comp.ports ∈ ks) :
    ChangesOnly ks r t ↔ ChangesOnly ks r s := by
  injection e with e; subst e; simp only [↓cageTrips_only, ↓ite_only, ite_self, h0]

theorem execCageRetry_only {ks : List Comp} {r t : State} {cage : Fin 4} {s : State}
    (e : execCageRetry cage s = .next t) (h0 : Comp.tick ∈ ks) (h1 : Comp.ports ∈ ks) :
    ChangesOnly ks r t ↔ ChangesOnly ks r s := by
  injection e with e; subst e; simp only [↓cageRetries_only, ↓ite_only, ite_self, h0, h1]

/-! ### Channels -/

theorem grantUpTo_only {ks : List Comp} {r : State} (c : Nat) (a1 : Nat) (s : State)
    (h0 : Comp.geo ∈ ks) :
    ChangesOnly ks r (State.grantUpTo c a1 s) ↔ ChangesOnly ks r s := by
  induction a1 generalizing s with
  | zero => simp only [State.grantUpTo]
  | succ _ ih =>
    rw [State.grantUpTo]
    (try dsimp only)
    (repeat' split) <;> simp only [↓ih, ↓grantOne_only, ↓ite_only, ite_self, h0]

theorem withChan_only {ks : List Comp} {r : State} (s : State) (p : Packet)
    (h0 : Comp.chans ∈ ks) (h1 : Comp.geo ∈ ks) :
    ChangesOnly ks r (State.withChan s p) ↔ ChangesOnly ks r s := by
  unfold State.withChan; simp only [↓grantUpTo_only, ↓upd_chans_only, ↓ite_only, ite_self, h0, h1]

theorem chanBind_only {ks : List Comp} {r : State} (p : Packet) (s : State)
    (h0 : Comp.waits ∈ ks) (h1 : Comp.fns ∈ ks) (h2 : Comp.chans ∈ ks) (h3 : Comp.ports ∈ ks) (h4 : Comp.geo ∈ ks) (h5 : Comp.out ∈ ks) (h6 : Comp.telem ∈ ks) :
    ChangesOnly ks r (chanBind p s).1 ↔ ChangesOnly ks r s := by
  unfold chanBind; simp only [↓withChan_only, ↓takePart_only, ↓modPort_only, ↓settlePool_only, ↓ite_only, ite_self, h0, h1, h2, h3, h4, h5, h6]

theorem acceptRoute_only {ks : List Comp} {r : State} (p : Packet) (rr : Route) (unbind : Bool) (id : Nat) (s : State)
    (h0 : Comp.chans ∈ ks) :
    ChangesOnly ks r (acceptRoute p rr unbind id s) ↔ ChangesOnly ks r s := by
  unfold acceptRoute; simp only [↓modChan_only, ↓ite_only, ite_self, h0]

theorem qlinkConfig_only {ks : List Comp} {r : State} (p : Packet) (s : State)
    (h0 : Comp.chans ∈ ks) :
    ChangesOnly ks r (qlinkConfig p s).1 ↔ ChangesOnly ks r s := by
  unfold qlinkConfig; simp only [↓modChan_only, ↓ite_only, ite_self, h0]

theorem execChanBind_only {ks : List Comp} {r t : State} {fn : FnNo} {qp : QpNo} {pkt : Packet} {s : State}
    (e : execChanBind fn qp pkt s = .next t) (h0 : Comp.waits ∈ ks) (h1 : Comp.fns ∈ ks) (h2 : Comp.chans ∈ ks) (h3 : Comp.ports ∈ ks) (h4 : Comp.geo ∈ ks) (h5 : Comp.out ∈ ks) (h6 : Comp.telem ∈ ks) :
    ChangesOnly ks r t ↔ ChangesOnly ks r s := by
  injection e with e; subst e
  repeat' (first | with_reducible rfl | assumption | intro _ | (simp only [↓shortCommand_only, ↓chanBind_only, ↓ite_only, ite_self, h0, h1, h2, h3, h4, h5, h6]) | rw [foldl_fst_only] | rw [foldl_only] | rw [shortCommand_only] | split | dsimp only)

theorem execChanRoute_only {ks : List Comp} {r t : State} {fn : FnNo} {qp : QpNo} {pkt : Packet} {s : State}
    (e : execChanRoute fn qp pkt s = .next t) (h0 : Comp.nextId ∈ ks) (h1 : Comp.fns ∈ ks) (h2 : Comp.chans ∈ ks) (h3 : Comp.outst ∈ ks) (h4 : Comp.out ∈ ks) :
    ChangesOnly ks r t ↔ ChangesOnly ks r s := by
  injection e with e; subst e
  repeat' (first | with_reducible rfl | assumption | intro _ | (simp only [↓longCommand_only, ↓acceptRoute_only, ↓ite_only, ite_self, h0, h1, h2, h3, h4]) | rw [foldl_fst_only] | rw [foldl_only] | rw [longCommand_only] | split | dsimp only)

theorem execChanUnbind_only {ks : List Comp} {r t : State} {fn : FnNo} {qp : QpNo} {pkt : Packet} {s : State}
    (e : execChanUnbind fn qp pkt s = .next t) (h0 : Comp.nextId ∈ ks) (h1 : Comp.fns ∈ ks) (h2 : Comp.chans ∈ ks) (h3 : Comp.outst ∈ ks) (h4 : Comp.out ∈ ks) :
    ChangesOnly ks r t ↔ ChangesOnly ks r s := by
  injection e with e; subst e
  repeat' (first | with_reducible rfl | assumption | intro _ | (simp only [↓longCommand_only, ↓acceptRoute_only, ↓ite_only, ite_self, h0, h1, h2, h3, h4]) | rw [foldl_fst_only] | rw [foldl_only] | rw [longCommand_only] | split | dsimp only)

theorem execChanQuery_only {ks : List Comp} {r t : State} {fn : FnNo} {qp : QpNo} {pkt : Packet} {s : State}
    (e : execChanQuery fn qp pkt s = .next t) (h0 : Comp.fns ∈ ks) (h1 : Comp.out ∈ ks) :
    ChangesOnly ks r t ↔ ChangesOnly ks r s := by
  injection e with e; subst e
  repeat' (first | with_reducible rfl | assumption | intro _ | (simp only [↓shortCommand_only, ↓writeBlock_only, ↓ite_only, ite_self, h0, h1]) | rw [foldl_fst_only] | rw [foldl_only] | rw [shortCommand_only] | split | dsimp only)

theorem execQlinkConfig_only {ks : List Comp} {r t : State} {fn : FnNo} {qp : QpNo} {pkt : Packet} {s : State}
    (e : execQlinkConfig fn qp pkt s = .next t) (h0 : Comp.fns ∈ ks) (h1 : Comp.chans ∈ ks) (h2 : Comp.out ∈ ks) :
    ChangesOnly ks r t ↔ ChangesOnly ks r s := by
  injection e with e; subst e
  repeat' (first | with_reducible rfl | assumption | intro _ | (simp only [↓shortCommand_only, ↓qlinkConfig_only, ↓ite_only, ite_self, h0, h1, h2]) | rw [foldl_fst_only] | rw [foldl_only] | rw [shortCommand_only] | split | dsimp only)

theorem execQlinkStats_only {ks : List Comp} {r t : State} {fn : FnNo} {qp : QpNo} {pkt : Packet} {s : State}
    (e : execQlinkStats fn qp pkt s = .next t) (h0 : Comp.fns ∈ ks) (h1 : Comp.out ∈ ks) :
    ChangesOnly ks r t ↔ ChangesOnly ks r s := by
  injection e with e; subst e
  repeat' (first | with_reducible rfl | assumption | intro _ | (simp only [↓shortCommand_only, ↓ite_only, ite_self, h0, h1]) | rw [foldl_fst_only] | rw [foldl_only] | rw [shortCommand_only] | split | dsimp only)

/-! ### SlateCmds -/

theorem loadContext_only {ks : List Comp} {r : State} (p : Packet) (host : HostData) (s : State)
    (h0 : Comp.chans ∈ ks) :
    ChangesOnly ks r (loadContext p host s).1 ↔ ChangesOnly ks r s := by
  unfold loadContext; simp only [↓modChan_only, ↓ite_only, ite_self, h0]

theorem paramSet_only {ks : List Comp} {r : State} (p : Packet) (host : HostData) (s : State)
    (h0 : Comp.chans ∈ ks) :
    ChangesOnly ks r (paramSet p host s).1 ↔ ChangesOnly ks r s := by
  unfold paramSet; simp only [↓modChan_only, ↓ite_only, ite_self, h0]

theorem outputCfg_only {ks : List Comp} {r : State} (p : Packet) (s : State)
    (h0 : Comp.chans ∈ ks) (h1 : Comp.ext ∈ ks) (h2 : Comp.geo ∈ ks) (h3 : Comp.scratch ∈ ks) :
    ChangesOnly ks r (outputCfg p s).1 ↔ ChangesOnly ks r s := by
  unfold outputCfg; (repeat' split) <;> simp [↓modChan_only, ↓clearRaster_only, ↓ite_only, ite_self, h0, h1, h2, h3]

theorem execSlateContextLoad_only {ks : List Comp} {r t : State} {fn : FnNo} {qp : QpNo} {pkt : Packet} {host : HostData} {s : State}
    (e : execSlateContextLoad fn qp pkt host s = .next t) (h0 : Comp.fns ∈ ks) (h1 : Comp.chans ∈ ks) (h2 : Comp.out ∈ ks) :
    ChangesOnly ks r t ↔ ChangesOnly ks r s := by
  injection e with e; subst e
  repeat' (first | with_reducible rfl | assumption | intro _ | (simp only [↓shortCommand_only, ↓loadContext_only, ↓ite_only, ite_self, h0, h1, h2]) | rw [foldl_fst_only] | rw [foldl_only] | rw [shortCommand_only] | split | dsimp only)

theorem execSlateParamSet_only {ks : List Comp} {r t : State} {fn : FnNo} {qp : QpNo} {pkt : Packet} {host : HostData} {s : State}
    (e : execSlateParamSet fn qp pkt host s = .next t) (h0 : Comp.fns ∈ ks) (h1 : Comp.chans ∈ ks) (h2 : Comp.out ∈ ks) :
    ChangesOnly ks r t ↔ ChangesOnly ks r s := by
  injection e with e; subst e
  repeat' (first | with_reducible rfl | assumption | intro _ | (simp only [↓shortCommand_only, ↓paramSet_only, ↓ite_only, ite_self, h0, h1, h2]) | rw [foldl_fst_only] | rw [foldl_only] | rw [shortCommand_only] | split | dsimp only)

theorem execSlateOutputCfg_only {ks : List Comp} {r t : State} {fn : FnNo} {qp : QpNo} {pkt : Packet} {s : State}
    (e : execSlateOutputCfg fn qp pkt s = .next t) (h0 : Comp.fns ∈ ks) (h1 : Comp.chans ∈ ks) (h2 : Comp.ext ∈ ks) (h3 : Comp.geo ∈ ks) (h4 : Comp.scratch ∈ ks) (h5 : Comp.out ∈ ks) :
    ChangesOnly ks r t ↔ ChangesOnly ks r s := by
  injection e with e; subst e
  repeat' (first | with_reducible rfl | assumption | intro _ | (simp only [↓shortCommand_only, ↓outputCfg_only, ↓ite_only, ite_self, h0, h1, h2, h3, h4, h5]) | rw [foldl_fst_only] | rw [foldl_only] | rw [shortCommand_only] | split | dsimp only)

theorem execSlateSchedule_only {ks : List Comp} {r t : State} {fn : FnNo} {qp : QpNo} {pkt : Packet} {s : State}
    (e : execSlateSchedule fn qp pkt s = .next t) (h0 : Comp.fns ∈ ks) (h1 : Comp.chans ∈ ks) (h2 : Comp.out ∈ ks) :
    ChangesOnly ks r t ↔ ChangesOnly ks r s := by
  injection e with e; subst e
  repeat' (first | with_reducible rfl | assumption | intro _ | (simp only [↓shortCommand_only, ↓modChan_only, ↓ite_only, ite_self, h0, h1, h2]) | rw [foldl_fst_only] | rw [foldl_only] | rw [shortCommand_only] | split | dsimp only)

/-! ### Programs -/

theorem reserveProg_only {ks : List Comp} {r : State} (fn : FnNo) (p : Packet) (host : HostData) (id : Nat) (s : State)
    (h0 : Comp.progs ∈ ks) :
    ChangesOnly ks r (reserveProg fn p host id s) ↔ ChangesOnly ks r s := by
  simp only [reserveProg]; (repeat' split) <;> simp [↓upd_progs_only, ↓ite_only, ite_self, h0]

theorem atProgLoad_only {ks : List Comp} {r : State} (fn : FnNo) (qp : QpNo) (pkt : Packet) (host : HostData) (s : State)
    (h0 : Comp.waits ∈ ks) (h1 : Comp.progs ∈ ks) (h2 : Comp.fns ∈ ks) (h3 : Comp.chans ∈ ks) (h4 : Comp.clusters ∈ ks) (h5 : Comp.lock ∈ ks) (h6 : Comp.ports ∈ ks) (h7 : Comp.outst ∈ ks) (h8 : Comp.mapping ∈ ks) (h9 : Comp.deliveries ∈ ks) (h10 : Comp.geo ∈ ks) (h11 : Comp.faults ∈ ks) (h12 : Comp.lastPhys ∈ ks) (h13 : Comp.scratch ∈ ks) (h14 : Comp.runs ∈ ks) (h15 : Comp.frames ∈ ks) (h16 : Comp.out ∈ ks) (h17 : Comp.telem ∈ ks) (h18 : Comp.nv ∈ ks) (h19 : Comp.loaded ∈ ks) (h20 : Comp.repro ∈ ks) :
    ChangesOnly ks r (State.atProgLoad fn qp pkt host s) ↔ ChangesOnly ks r s := by
  unfold State.atProgLoad; simp only [↓restoreFor_only, ↓ite_only, ite_self, h0, h1, h2, h3, h4, h5, h6, h7, h8, h9, h10, h11, h12, h13, h14, h15, h16, h17, h18, h19, h20]

theorem dropProg_only {ks : List Comp} {r : State} (s : State) (n : FnNo) (pid : Nat)
    (h0 : Comp.progs ∈ ks) :
    ChangesOnly ks r (State.dropProg s n pid) ↔ ChangesOnly ks r s := by
  unfold State.dropProg; simp only [↓upd_progs_only, ↓ite_only, ite_self, h0]

theorem zeroView_only {ks : List Comp} {r : State} (s : State) (n : FnNo) (base : Nat) (granules : Nat)
    (h0 : Comp.geo ∈ ks) :
    ChangesOnly ks r (State.zeroView s n base granules) ↔ ChangesOnly ks r s := by
  unfold State.zeroView; (repeat' split) <;> (try (refine (forEach_only (fun _ _ => ?_) _ _).trans ?_)) <;> (try dsimp only) <;> (repeat' split) <;> simp [↓upd_geo_only, ↓forEach_only, ↓ite_only, ite_self, h0]

theorem placePackage_only {ks : List Comp} {r : State} (s : State) (n : FnNo) (base : Nat) (pkg : List Byte) (granules : Nat)
    (h0 : Comp.ext ∈ ks) (h1 : Comp.geo ∈ ks) (h2 : Comp.scratch ∈ ks) :
    ChangesOnly ks r (State.placePackage s n base pkg granules) ↔ ChangesOnly ks r s := by
  unfold State.placePackage; simp only [↓viewWrite_only, ↓zeroView_only, ↓ite_only, ite_self, h0, h1, h2]

theorem packageCheck_only {ks : List Comp} {r : State} (n : FnNo) (pid : Nat) (host : List Byte) (fail : Option W64) (s : State)
    (h0 : Comp.waits ∈ ks) (h1 : Comp.progs ∈ ks) (h2 : Comp.fns ∈ ks) (h3 : Comp.chans ∈ ks) (h4 : Comp.clusters ∈ ks) (h5 : Comp.lock ∈ ks) (h6 : Comp.ports ∈ ks) (h7 : Comp.outst ∈ ks) (h8 : Comp.ext ∈ ks) (h9 : Comp.deliveries ∈ ks) (h10 : Comp.geo ∈ ks) (h11 : Comp.scratch ∈ ks) (h12 : Comp.runs ∈ ks) (h13 : Comp.frames ∈ ks) (h14 : Comp.out ∈ ks) (h15 : Comp.telem ∈ ks) (h16 : Comp.free ∈ ks) (h17 : Comp.loaded ∈ ks) (h18 : Comp.repro ∈ ks) :
    ChangesOnly ks r (packageCheck n pid host fail s) ↔ ChangesOnly ks r s := by
  simp only [packageCheck]; (repeat' split) <;> simp [↓dropProg_only, ↓complete_only, ↓draw_only, ↓placePackage_only, ↓modProg_only, ↓reselectProg_only, ↓completeOk_only, ↓ite_only, ite_self, h0, h1, h2, h3, h4, h5, h6, h7, h8, h9, h10, h11, h12, h13, h14, h15, h16, h17, h18]

theorem zeroProg_only {ks : List Comp} {r : State} (s : State) (p : Prog)
    (h0 : Comp.clusters ∈ ks) (h1 : Comp.scratch ∈ ks) :
    ChangesOnly ks r (State.zeroProg s p) ↔ ChangesOnly ks r s := by
  unfold State.zeroProg; dsimp only; (repeat' split) <;> (repeat' (refine (forEach_only (fun _ _ => ?_) _ _).trans ?_)) <;> (try dsimp only) <;> (repeat' split) <;> (repeat' (refine (forEach_only (fun _ _ => ?_) _ _).trans ?_)) <;> (try dsimp only) <;> (repeat' split) <;> simp [↓upd_clusters_only, ↓upd_scratch_clusters_only, ↓upd_scratch_only, ↓forEach_only, ↓ite_only, ite_self, h0, h1]

theorem unloadDone_only {ks : List Comp} {r : State} (n : FnNo) (pid : Nat) (s : State)
    (h0 : Comp.waits ∈ ks) (h1 : Comp.progs ∈ ks) (h2 : Comp.fns ∈ ks) (h3 : Comp.chans ∈ ks) (h4 : Comp.clusters ∈ ks) (h5 : Comp.outst ∈ ks) (h6 : Comp.scheduled ∈ ks) (h7 : Comp.scratch ∈ ks) (h8 : Comp.out ∈ ks) :
    ChangesOnly ks r (unloadDone n pid s) ↔ ChangesOnly ks r s := by
  unfold unloadDone; (repeat' split) <;> simp [↓dropProg_only, ↓zeroProg_only, ↓completeOk_only, ↓upd_chans_only, ↓upd_scheduled_chans_only, ↓upd_scheduled_only, ↓forEach_only, ↓ite_only, ite_self, h0, h1, h2, h3, h4, h5, h6, h7, h8]

theorem launchProg_only {ks : List Comp} {r : State} (s : State) (n : FnNo) (pid : Nat) (l : Launch)
    (h0 : Comp.progs ∈ ks) :
    ChangesOnly ks r (State.launchProg s n pid l) ↔ ChangesOnly ks r s := by
  unfold State.launchProg; simp only [↓modProg_only, ↓ite_only, ite_self, h0]

theorem startTick_only {ks : List Comp} {r : State} (n : FnNo) (s : State)
    (h0 : Comp.waits ∈ ks) (h1 : Comp.progs ∈ ks) (h2 : Comp.fns ∈ ks) (h3 : Comp.tick ∈ ks) (h4 : Comp.outst ∈ ks) (h5 : Comp.scheduled ∈ ks) (h6 : Comp.out ∈ ks) (h7 : Comp.nextLaunch ∈ ks) :
    ChangesOnly ks r (startTick n s) ↔ ChangesOnly ks r s := by
  simp only [startTick]; (repeat' split) <;> simp [↓reach_only, ↓completeOk_only, ↓launchProg_only, ↓upd_nextLaunch_scheduled_only, ↓upd_nextLaunch_only, ↓upd_scheduled_only, ↓ite_only, ite_self, h0, h1, h2, h3, h4, h5, h6, h7]

theorem acceptBarrier_only {ks : List Comp} {r : State} (fn : FnNo) (id : Nat) (s : State)
    (h0 : Comp.barriers ∈ ks) :
    ChangesOnly ks r (acceptBarrier fn id s) ↔ ChangesOnly ks r s := by
  unfold acceptBarrier; simp only [↓upd_barriers_only, ↓ite_only, ite_self, h0]

theorem barrierDone_only {ks : List Comp} {r : State} (n : FnNo) (s : State)
    (h0 : Comp.barriers ∈ ks) (h1 : Comp.waits ∈ ks) (h2 : Comp.fns ∈ ks) (h3 : Comp.outst ∈ ks) (h4 : Comp.out ∈ ks) :
    ChangesOnly ks r (barrierDone n s) ↔ ChangesOnly ks r s := by
  unfold barrierDone; (repeat' split) <;> simp [↓completeOk_only, ↓upd_barriers_only, ↓ite_only, ite_self, h0, h1, h2, h3, h4]

theorem abortFrames_only {ks : List Comp} {r : State} (fn : FnNo) (p : Packet) (s : State)
    (h0 : Comp.waits ∈ ks) (h1 : Comp.progs ∈ ks) (h2 : Comp.fns ∈ ks) (h3 : Comp.chans ∈ ks) (h4 : Comp.clusters ∈ ks) (h5 : Comp.lock ∈ ks) (h6 : Comp.ports ∈ ks) (h7 : Comp.outst ∈ ks) (h8 : Comp.deliveries ∈ ks) (h9 : Comp.geo ∈ ks) (h10 : Comp.runs ∈ ks) (h11 : Comp.frames ∈ ks) (h12 : Comp.out ∈ ks) (h13 : Comp.telem ∈ ks) (h14 : Comp.loaded ∈ ks) :
    ChangesOnly ks r (abortFrames fn p s).1 ↔ ChangesOnly ks r s := by
  unfold abortFrames; simp only [↓abortAll_only, ↓ite_only, ite_self, h0, h1, h2, h3, h4, h5, h6, h7, h8, h9, h10, h11, h12, h13, h14]

theorem acceptWait_only {ks : List Comp} {r : State} (fn : FnNo) (p : Packet) (id : Nat) (s : State)
    (h0 : Comp.waits ∈ ks) :
    ChangesOnly ks r (acceptWait fn p id s) ↔ ChangesOnly ks r s := by
  unfold acceptWait; simp only [↓upd_waits_only, ↓ite_only, ite_self, h0]

theorem endWait_only {ks : List Comp} {r : State} (n : FnNo) (k : Nat) (s : State)
    (h0 : Comp.waits ∈ ks) (h1 : Comp.fns ∈ ks) (h2 : Comp.tick ∈ ks) (h3 : Comp.outst ∈ ks) (h4 : Comp.out ∈ ks) :
    ChangesOnly ks r (endWait n k s) ↔ ChangesOnly ks r s := by
  unfold endWait; (repeat' split) <;> simp [↓reach_only, ↓completeOk_only, ↓upd_waits_only, ↓ite_only, ite_self, h0, h1, h2, h3, h4]

theorem ringRelease_only {ks : List Comp} {r : State} (n : FnNo) (pid : Nat) (value : W64) (s : State)
    (h0 : Comp.waits ∈ ks) (h1 : Comp.progs ∈ ks) (h2 : Comp.fns ∈ ks) (h3 : Comp.chans ∈ ks) (h4 : Comp.clusters ∈ ks) (h5 : Comp.lock ∈ ks) (h6 : Comp.ports ∈ ks) (h7 : Comp.outst ∈ ks) (h8 : Comp.deliveries ∈ ks) (h9 : Comp.geo ∈ ks) (h10 : Comp.runs ∈ ks) (h11 : Comp.frames ∈ ks) (h12 : Comp.out ∈ ks) (h13 : Comp.telem ∈ ks) (h14 : Comp.loaded ∈ ks) :
    ChangesOnly ks r (ringRelease n pid value s) ↔ ChangesOnly ks r s := by
  unfold ringRelease; (repeat' split) <;> simp [↓modProg_only, ↓pumpRing_only, ↓ite_only, ite_self, h0, h1, h2, h3, h4, h5, h6, h7, h8, h9, h10, h11, h12, h13, h14]

theorem announceTimeout_only {ks : List Comp} {r : State} (n : FnNo) (pid : Nat) (s : State)
    (h0 : Comp.progs ∈ ks) (h1 : Comp.fns ∈ ks) (h2 : Comp.tick ∈ ks) (h3 : Comp.out ∈ ks) :
    ChangesOnly ks r (announceTimeout n pid s) ↔ ChangesOnly ks r s := by
  unfold announceTimeout; (repeat' split) <;> simp [↓sendMsix_only, ↓modProg_only, ↓reach_only, ↓ite_only, ite_self, h0, h1, h2, h3]

theorem execProgLoad_only {ks : List Comp} {r t : State} {fn : FnNo} {qp : QpNo} {pkt : Packet} {host : HostData} {s : State}
    (e : execProgLoad fn qp pkt host s = .next t) (h0 : Comp.waits ∈ ks) (h1 : Comp.progs ∈ ks) (h2 : Comp.nextId ∈ ks) (h3 : Comp.fns ∈ ks) (h4 : Comp.chans ∈ ks) (h5 : Comp.clusters ∈ ks) (h6 : Comp.lock ∈ ks) (h7 : Comp.ports ∈ ks) (h8 : Comp.outst ∈ ks) (h9 : Comp.mapping ∈ ks) (h10 : Comp.deliveries ∈ ks) (h11 : Comp.geo ∈ ks) (h12 : Comp.faults ∈ ks) (h13 : Comp.lastPhys ∈ ks) (h14 : Comp.scratch ∈ ks) (h15 : Comp.runs ∈ ks) (h16 : Comp.frames ∈ ks) (h17 : Comp.out ∈ ks) (h18 : Comp.telem ∈ ks) (h19 : Comp.nv ∈ ks) (h20 : Comp.loaded ∈ ks) (h21 : Comp.repro ∈ ks) :
    ChangesOnly ks r t ↔ ChangesOnly ks r s := by
  injection e with e; subst e
  repeat' (first | with_reducible rfl | assumption | intro _ | (simp only [↓takeCommand_only, ↓longBody_only, ↓reserveProg_only, ↓atProgLoad_only, ↓ite_only, ite_self, h0, h1, h2, h3, h4, h5, h6, h7, h8, h9, h10, h11, h12, h13, h14, h15, h16, h17, h18, h19, h20, h21]) | rw [foldl_fst_only] | rw [foldl_only] | rw [takeCommand_only] | rw [longBody_only] | split | dsimp only)

theorem execPackageCheck_only {ks : List Comp} {r t : State} {stratum : FnNo} {prog : Nat} {host : List Byte} {fail : Option W64} {s : State}
    (e : execPackageCheck stratum prog host fail s = .next t) (h0 : Comp.waits ∈ ks) (h1 : Comp.progs ∈ ks) (h2 : Comp.fns ∈ ks) (h3 : Comp.chans ∈ ks) (h4 : Comp.clusters ∈ ks) (h5 : Comp.lock ∈ ks) (h6 : Comp.ports ∈ ks) (h7 : Comp.outst ∈ ks) (h8 : Comp.ext ∈ ks) (h9 : Comp.deliveries ∈ ks) (h10 : Comp.geo ∈ ks) (h11 : Comp.scratch ∈ ks) (h12 : Comp.runs ∈ ks) (h13 : Comp.frames ∈ ks) (h14 : Comp.out ∈ ks) (h15 : Comp.telem ∈ ks) (h16 : Comp.free ∈ ks) (h17 : Comp.loaded ∈ ks) (h18 : Comp.repro ∈ ks) :
    ChangesOnly ks r t ↔ ChangesOnly ks r s := by
  injection e with e; subst e; simp only [↓packageCheck_only, ↓ite_only, ite_self, h0, h1, h2, h3, h4, h5, h6, h7, h8, h9, h10, h11, h12, h13, h14, h15, h16, h17, h18]

theorem execProgUnload_only {ks : List Comp} {r t : State} {fn : FnNo} {qp : QpNo} {pkt : Packet} {s : State}
    (e : execProgUnload fn qp pkt s = .next t) (h0 : Comp.progs ∈ ks) (h1 : Comp.nextId ∈ ks) (h2 : Comp.fns ∈ ks) (h3 : Comp.outst ∈ ks) (h4 : Comp.out ∈ ks) :
    ChangesOnly ks r t ↔ ChangesOnly ks r s := by
  injection e with e; subst e
  repeat' (first | with_reducible rfl | assumption | intro _ | (simp only [↓longCommand_only, ↓modProg_only, ↓ite_only, ite_self, h0, h1, h2, h3, h4]) | rw [foldl_fst_only] | rw [foldl_only] | rw [longCommand_only] | split | dsimp only)

theorem execProgUnloadComplete_only {ks : List Comp} {r t : State} {stratum : FnNo} {prog : Nat} {s : State}
    (e : execProgUnloadComplete stratum prog s = .next t) (h0 : Comp.waits ∈ ks) (h1 : Comp.progs ∈ ks) (h2 : Comp.fns ∈ ks) (h3 : Comp.chans ∈ ks) (h4 : Comp.clusters ∈ ks) (h5 : Comp.outst ∈ ks) (h6 : Comp.scheduled ∈ ks) (h7 : Comp.scratch ∈ ks) (h8 : Comp.out ∈ ks) :
    ChangesOnly ks r t ↔ ChangesOnly ks r s := by
  injection e with e; subst e; simp only [↓unloadDone_only, ↓ite_only, ite_self, h0, h1, h2, h3, h4, h5, h6, h7, h8]

theorem execLaunch_only {ks : List Comp} {r t : State} {fn : FnNo} {qp : QpNo} {pkt : Packet} {s : State}
    (e : execLaunch fn qp pkt s = .next t) (h0 : Comp.progs ∈ ks) (h1 : Comp.fns ∈ ks) (h2 : Comp.out ∈ ks) (h3 : Comp.nextLaunch ∈ ks) :
    ChangesOnly ks r t ↔ ChangesOnly ks r s := by
  injection e with e; subst e
  repeat' (first | with_reducible rfl | assumption | intro _ | (simp only [↓shortCommand_only, ↓launchProg_only, ↓upd_nextLaunch_only, ↓ite_only, ite_self, h0, h1, h2, h3]) | rw [foldl_fst_only] | rw [foldl_only] | rw [shortCommand_only] | split | dsimp only)

theorem execLaunchAtTick_only {ks : List Comp} {r t : State} {fn : FnNo} {qp : QpNo} {pkt : Packet} {s : State}
    (e : execLaunchAtTick fn qp pkt s = .next t) (h0 : Comp.nextId ∈ ks) (h1 : Comp.fns ∈ ks) (h2 : Comp.outst ∈ ks) (h3 : Comp.scheduled ∈ ks) (h4 : Comp.out ∈ ks) (h5 : Comp.nextLaunch ∈ ks) :
    ChangesOnly ks r t ↔ ChangesOnly ks r s := by
  injection e with e; subst e
  repeat' (first | with_reducible rfl | assumption | intro _ | (simp only [↓longCommand_only, ↓upd_nextLaunch_scheduled_only, ↓upd_nextLaunch_only, ↓upd_scheduled_only, ↓ite_only, ite_self, h0, h1, h2, h3, h4, h5]) | rw [foldl_fst_only] | rw [foldl_only] | rw [longCommand_only] | split | dsimp only)

theorem execStartTickReached_only {ks : List Comp} {r t : State} {stratum : FnNo} {s : State}
    (e : execStartTickReached stratum s = .next t) (h0 : Comp.waits ∈ ks) (h1 : Comp.progs ∈ ks) (h2 : Comp.fns ∈ ks) (h3 : Comp.tick ∈ ks) (h4 : Comp.outst ∈ ks) (h5 : Comp.scheduled ∈ ks) (h6 : Comp.out ∈ ks) (h7 : Comp.nextLaunch ∈ ks) :
    ChangesOnly ks r t ↔ ChangesOnly ks r s := by
  injection e with e; subst e; simp only [↓startTick_only, ↓ite_only, ite_self, h0, h1, h2, h3, h4, h5, h6, h7]

theorem execBarrier_only {ks : List Comp} {r t : State} {fn : FnNo} {qp : QpNo} {pkt : Packet} {s : State}
    (e : execBarrier fn qp pkt s = .next t) (h0 : Comp.barriers ∈ ks) (h1 : Comp.nextId ∈ ks) (h2 : Comp.fns ∈ ks) (h3 : Comp.outst ∈ ks) (h4 : Comp.out ∈ ks) :
    ChangesOnly ks r t ↔ ChangesOnly ks r s := by
  injection e with e; subst e
  repeat' (first | with_reducible rfl | assumption | intro _ | (simp only [↓longCommand_only, ↓acceptBarrier_only, ↓ite_only, ite_self, h0, h1, h2, h3, h4]) | rw [foldl_fst_only] | rw [foldl_only] | rw [longCommand_only] | split | dsimp only)

theorem execBarrierComplete_only {ks : List Comp} {r t : State} {stratum : FnNo} {s : State}
    (e : execBarrierComplete stratum s = .next t) (h0 : Comp.barriers ∈ ks) (h1 : Comp.waits ∈ ks) (h2 : Comp.fns ∈ ks) (h3 : Comp.outst ∈ ks) (h4 : Comp.out ∈ ks) :
    ChangesOnly ks r t ↔ ChangesOnly ks r s := by
  injection e with e; subst e; simp only [↓barrierDone_only, ↓ite_only, ite_self, h0, h1, h2, h3, h4]

theorem execFrameAbort_only {ks : List Comp} {r t : State} {fn : FnNo} {qp : QpNo} {pkt : Packet} {s : State}
    (e : execFrameAbort fn qp pkt s = .next t) (h0 : Comp.waits ∈ ks) (h1 : Comp.progs ∈ ks) (h2 : Comp.fns ∈ ks) (h3 : Comp.chans ∈ ks) (h4 : Comp.clusters ∈ ks) (h5 : Comp.lock ∈ ks) (h6 : Comp.ports ∈ ks) (h7 : Comp.outst ∈ ks) (h8 : Comp.deliveries ∈ ks) (h9 : Comp.geo ∈ ks) (h10 : Comp.runs ∈ ks) (h11 : Comp.frames ∈ ks) (h12 : Comp.out ∈ ks) (h13 : Comp.telem ∈ ks) (h14 : Comp.loaded ∈ ks) :
    ChangesOnly ks r t ↔ ChangesOnly ks r s := by
  injection e with e; subst e
  repeat' (first | with_reducible rfl | assumption | intro _ | (simp only [↓drainArea_only, ↓shortCommand_only, ↓abortFrames_only, ↓ite_only, ite_self, h0, h1, h2, h3, h4, h5, h6, h7, h8, h9, h10, h11, h12, h13, h14]) | rw [foldl_fst_only] | rw [foldl_only] | rw [shortCommand_only] | split | dsimp only)

theorem execEventWait_only {ks : List Comp} {r t : State} {fn : FnNo} {qp : QpNo} {pkt : Packet} {s : State}
    (e : execEventWait fn qp pkt s = .next t) (h0 : Comp.waits ∈ ks) (h1 : Comp.nextId ∈ ks) (h2 : Comp.fns ∈ ks) (h3 : Comp.outst ∈ ks) (h4 : Comp.out ∈ ks) :
    ChangesOnly ks r t ↔ ChangesOnly ks r s := by
  injection e with e; subst e
  repeat' (first | with_reducible rfl | assumption | intro _ | (simp only [↓longCommand_only, ↓acceptWait_only, ↓ite_only, ite_self, h0, h1, h2, h3, h4]) | rw [foldl_fst_only] | rw [foldl_only] | rw [longCommand_only] | split | dsimp only)

theorem execEventWaitComplete_only {ks : List Comp} {r t : State} {stratum : FnNo} {wait : Nat} {s : State}
    (e : execEventWaitComplete stratum wait s = .next t) (h0 : Comp.waits ∈ ks) (h1 : Comp.fns ∈ ks) (h2 : Comp.tick ∈ ks) (h3 : Comp.outst ∈ ks) (h4 : Comp.out ∈ ks) :
    ChangesOnly ks r t ↔ ChangesOnly ks r s := by
  injection e with e; subst e; simp only [↓endWait_only, ↓ite_only, ite_self, h0, h1, h2, h3, h4]

theorem execResultRingRelease_only {ks : List Comp} {r t : State} {stratum : FnNo} {prog : Nat} {value : W64} {s : State}
    (e : execResultRingRelease stratum prog value s = .next t) (h0 : Comp.waits ∈ ks) (h1 : Comp.progs ∈ ks) (h2 : Comp.fns ∈ ks) (h3 : Comp.chans ∈ ks) (h4 : Comp.clusters ∈ ks) (h5 : Comp.lock ∈ ks) (h6 : Comp.ports ∈ ks) (h7 : Comp.outst ∈ ks) (h8 : Comp.deliveries ∈ ks) (h9 : Comp.geo ∈ ks) (h10 : Comp.runs ∈ ks) (h11 : Comp.frames ∈ ks) (h12 : Comp.out ∈ ks) (h13 : Comp.telem ∈ ks) (h14 : Comp.loaded ∈ ks) :
    ChangesOnly ks r t ↔ ChangesOnly ks r s := by
  injection e with e; subst e; simp only [↓drainArea_only, ↓ringRelease_only, ↓ite_only, ite_self, h0, h1, h2, h3, h4, h5, h6, h7, h8, h9, h10, h11, h12, h13, h14]

theorem execResultAnnounceTimeout_only {ks : List Comp} {r t : State} {stratum : FnNo} {prog : Nat} {s : State}
    (e : execResultAnnounceTimeout stratum prog s = .next t) (h0 : Comp.progs ∈ ks) (h1 : Comp.fns ∈ ks) (h2 : Comp.tick ∈ ks) (h3 : Comp.out ∈ ks) :
    ChangesOnly ks r t ↔ ChangesOnly ks r s := by
  injection e with e; subst e; simp only [↓announceTimeout_only, ↓ite_only, ite_self, h0, h1, h2, h3]

/-! ### Clusters -/

theorem startRun_only {ks : List Comp} {r : State} (s : State) (f : Frame) (since : Nat) (p : Prog) (replica : Nat) (cells : List Nat)
    (h0 : Comp.waits ∈ ks) (h1 : Comp.progs ∈ ks) (h2 : Comp.fns ∈ ks) (h3 : Comp.chans ∈ ks) (h4 : Comp.clusters ∈ ks) (h5 : Comp.lock ∈ ks) (h6 : Comp.ports ∈ ks) (h7 : Comp.outst ∈ ks) (h8 : Comp.deliveries ∈ ks) (h9 : Comp.geo ∈ ks) (h10 : Comp.runs ∈ ks) (h11 : Comp.frames ∈ ks) (h12 : Comp.out ∈ ks) (h13 : Comp.telem ∈ ks) (h14 : Comp.loaded ∈ ks) :
    ChangesOnly ks r (State.startRun s f since p replica cells) ↔ ChangesOnly ks r s := by
  unfold State.startRun; simp only [↓abortFrame_only, ↓modFrame_only, ↓upd_runs_only, ↓ite_only, ite_self, h0, h1, h2, h3, h4, h5, h6, h7, h8, h9, h10, h11, h12, h13, h14]

theorem dispatch_only {ks : List Comp} {r : State} (n : FnNo) (s : State)
    (h0 : Comp.waits ∈ ks) (h1 : Comp.progs ∈ ks) (h2 : Comp.fns ∈ ks) (h3 : Comp.chans ∈ ks) (h4 : Comp.clusters ∈ ks) (h5 : Comp.lock ∈ ks) (h6 : Comp.ports ∈ ks) (h7 : Comp.outst ∈ ks) (h8 : Comp.deliveries ∈ ks) (h9 : Comp.geo ∈ ks) (h10 : Comp.runs ∈ ks) (h11 : Comp.frames ∈ ks) (h12 : Comp.out ∈ ks) (h13 : Comp.telem ∈ ks) (h14 : Comp.loaded ∈ ks) (h15 : Comp.repro ∈ ks) :
    ChangesOnly ks r (dispatch n s) ↔ ChangesOnly ks r s := by
  simp only [dispatch]; (repeat' split) <;> simp [↓reselectProg_only, ↓abortFrame_only, ↓startRun_only, ↓forEach_only, ↓ite_only, ite_self, h0, h1, h2, h3, h4, h5, h6, h7, h8, h9, h10, h11, h12, h13, h14, h15]

theorem modRun_only {ks : List Comp} {r : State} (s : State) (rr : Run) (f : Run → Run)
    (h0 : Comp.runs ∈ ks) :
    ChangesOnly ks r (State.modRun s rr f) ↔ ChangesOnly ks r s := by
  unfold State.modRun; simp only [↓upd_runs_only, ↓ite_only, ite_self, h0]

theorem modPos_only {ks : List Comp} {r : State} (s : State) (rr : Run) (i : Nat) (f : Position → Position)
    (h0 : Comp.runs ∈ ks) :
    ChangesOnly ks r (State.modPos s rr i f) ↔ ChangesOnly ks r s := by
  unfold State.modPos; simp only [↓modRun_only, ↓ite_only, ite_self, h0]

theorem modFlight_only {ks : List Comp} {r : State} (s : State) (rr : Run) (i : Nat) (idx : Nat) (f : Flight → Flight)
    (h0 : Comp.runs ∈ ks) :
    ChangesOnly ks r (State.modFlight s rr i idx f) ↔ ChangesOnly ks r s := by
  unfold State.modFlight; simp only [↓modPos_only, ↓ite_only, ite_self, h0]

theorem flightDone_only {ks : List Comp} {r : State} (s : State) (rr : Run) (i : Nat) (idx : Nat)
    (h0 : Comp.runs ∈ ks) :
    ChangesOnly ks r (State.flightDone s rr i idx) ↔ ChangesOnly ks r s := by
  unfold State.flightDone; simp only [↓modFlight_only, ↓ite_only, ite_self, h0]

theorem issue_only {ks : List Comp} {r : State} (s : State) (rr : Run) (i : Nat) (x : Flight)
    (h0 : Comp.runs ∈ ks) :
    ChangesOnly ks r (State.issue s rr i x) ↔ ChangesOnly ks r s := by
  unfold State.issue; simp only [↓modPos_only, ↓ite_only, ite_self, h0]

theorem onHead_only {ks : List Comp} {r : State} (opc : Nat) (is : Uop → Bool) (l : LogNo)
    {body : Run → Nat → Position → Nat → State → State} (s : State)
    (hb : ∀ x i p k t, ChangesOnly ks r (body x i p k t) ↔ ChangesOnly ks r t) :
    ChangesOnly ks r (onHead opc is l body s) ↔ ChangesOnly ks r s := by
  unfold onHead; dsimp only; (repeat' split) <;> simp only [↓hb]

theorem endFaulted_only {ks : List Comp} {r : State} (s : State) (rr : Run)
    (h0 : Comp.waits ∈ ks) (h1 : Comp.progs ∈ ks) (h2 : Comp.fns ∈ ks) (h3 : Comp.chans ∈ ks) (h4 : Comp.clusters ∈ ks) (h5 : Comp.lock ∈ ks) (h6 : Comp.ports ∈ ks) (h7 : Comp.outst ∈ ks) (h8 : Comp.deliveries ∈ ks) (h9 : Comp.geo ∈ ks) (h10 : Comp.runs ∈ ks) (h11 : Comp.frames ∈ ks) (h12 : Comp.out ∈ ks) (h13 : Comp.telem ∈ ks) (h14 : Comp.loaded ∈ ks) :
    ChangesOnly ks r (State.endFaulted s rr) ↔ ChangesOnly ks r s := by
  unfold State.endFaulted; (repeat' split) <;> simp [↓abortFrame_only, ↓ite_only, ite_self, h0, h1, h2, h3, h4, h5, h6, h7, h8, h9, h10, h11, h12, h13, h14]

theorem progFault_only {ks : List Comp} {r : State} (s : State) (rr : Run) (i : Nat) (k : Nat) (cause : Nat) (addr : Nat)
    (h0 : Comp.waits ∈ ks) (h1 : Comp.progs ∈ ks) (h2 : Comp.fns ∈ ks) (h3 : Comp.chans ∈ ks) (h4 : Comp.clusters ∈ ks) (h5 : Comp.lock ∈ ks) (h6 : Comp.ports ∈ ks) (h7 : Comp.outst ∈ ks) (h8 : Comp.deliveries ∈ ks) (h9 : Comp.geo ∈ ks) (h10 : Comp.faults ∈ ks) (h11 : Comp.runs ∈ ks) (h12 : Comp.frames ∈ ks) (h13 : Comp.out ∈ ks) (h14 : Comp.telem ∈ ks) (h15 : Comp.loaded ∈ ks) :
    ChangesOnly ks r (State.progFault s rr i k cause addr) ↔ ChangesOnly ks r s := by
  unfold State.progFault; (repeat' split) <;> simp [↓endFaulted_only, ↓modRun_only, ↓fault_only, ↓occur_only, ↓ite_only, ite_self, h0, h1, h2, h3, h4, h5, h6, h7, h8, h9, h10, h11, h12, h13, h14, h15]

theorem stepLeaves_only {ks : List Comp} {r : State} (s : State) (rr : Run) (i : Nat) (k : Nat)
    (h0 : Comp.clusters ∈ ks) :
    ChangesOnly ks r (State.stepLeaves s rr i k) ↔ ChangesOnly ks r s := by
  unfold State.stepLeaves; (repeat' split) <;> simp [↓upd_clusters_only, ↓ite_only, ite_self, h0]

theorem completeUop_only {ks : List Comp} {r : State} (s : State) (rr : Run) (i : Nat) (k : Nat)
    (h0 : Comp.waits ∈ ks) (h1 : Comp.progs ∈ ks) (h2 : Comp.fns ∈ ks) (h3 : Comp.chans ∈ ks) (h4 : Comp.clusters ∈ ks) (h5 : Comp.lock ∈ ks) (h6 : Comp.ports ∈ ks) (h7 : Comp.outst ∈ ks) (h8 : Comp.deliveries ∈ ks) (h9 : Comp.geo ∈ ks) (h10 : Comp.faults ∈ ks) (h11 : Comp.runs ∈ ks) (h12 : Comp.frames ∈ ks) (h13 : Comp.out ∈ ks) (h14 : Comp.telem ∈ ks) (h15 : Comp.loaded ∈ ks) :
    ChangesOnly ks r (State.completeUop s rr i k) ↔ ChangesOnly ks r s := by
  simp only [State.completeUop]; (repeat' split) <;> simp [↓modPos_only, ↓endFaulted_only, ↓progFault_only, ↓ite_only, ite_self, h0, h1, h2, h3, h4, h5, h6, h7, h8, h9, h10, h11, h12, h13, h14, h15]

theorem fillSlot_only {ks : List Comp} {r : State} (s : State) (c : PhysNo) (o : SloadOp) (x : OpSlot)
    (h0 : Comp.clusters ∈ ks) :
    ChangesOnly ks r (State.fillSlot s c o x) ↔ ChangesOnly ks r s := by
  unfold State.fillSlot; simp only [↓upd_clusters_only, ↓ite_only, ite_self, h0]

theorem uopComplete_only {ks : List Comp} {r : State} (l : LogNo) (k : Nat) (s : State)
    (h0 : Comp.waits ∈ ks) (h1 : Comp.progs ∈ ks) (h2 : Comp.fns ∈ ks) (h3 : Comp.chans ∈ ks) (h4 : Comp.clusters ∈ ks) (h5 : Comp.lock ∈ ks) (h6 : Comp.ports ∈ ks) (h7 : Comp.outst ∈ ks) (h8 : Comp.deliveries ∈ ks) (h9 : Comp.geo ∈ ks) (h10 : Comp.faults ∈ ks) (h11 : Comp.runs ∈ ks) (h12 : Comp.frames ∈ ks) (h13 : Comp.out ∈ ks) (h14 : Comp.telem ∈ ks) (h15 : Comp.loaded ∈ ks) :
    ChangesOnly ks r (uopComplete l k s) ↔ ChangesOnly ks r s := by
  unfold uopComplete; (repeat' split) <;> simp [↓completeUop_only, ↓fillSlot_only, ↓modPos_only, ↓stepLeaves_only, ↓ite_only, ite_self, h0, h1, h2, h3, h4, h5, h6, h7, h8, h9, h10, h11, h12, h13, h14, h15]

theorem nopIssue_only {ks : List Comp} {r : State} (l : LogNo) (s : State)
    (h0 : Comp.waits ∈ ks) (h1 : Comp.progs ∈ ks) (h2 : Comp.fns ∈ ks) (h3 : Comp.chans ∈ ks) (h4 : Comp.clusters ∈ ks) (h5 : Comp.lock ∈ ks) (h6 : Comp.ports ∈ ks) (h7 : Comp.outst ∈ ks) (h8 : Comp.deliveries ∈ ks) (h9 : Comp.geo ∈ ks) (h10 : Comp.faults ∈ ks) (h11 : Comp.runs ∈ ks) (h12 : Comp.frames ∈ ks) (h13 : Comp.out ∈ ks) (h14 : Comp.telem ∈ ks) (h15 : Comp.loaded ∈ ks) :
    ChangesOnly ks r (nopIssue l s) ↔ ChangesOnly ks r s := by
  unfold nopIssue
  repeat' (first | with_reducible rfl | assumption | intro _ | (simp only [↓onHead_only, ↓issue_only, ↓completeUop_only, ↓ite_only, ite_self, h0, h1, h2, h3, h4, h5, h6, h7, h8, h9, h10, h11, h12, h13, h14, h15]) | rw [foldl_fst_only] | rw [foldl_only] | rw [onHead_only] | split | dsimp only)

theorem endIssue_only {ks : List Comp} {r : State} (l : LogNo) (s : State)
    (h0 : Comp.runs ∈ ks) :
    ChangesOnly ks r (endIssue l s) ↔ ChangesOnly ks r s := by
  unfold endIssue; simp [↓onHead_only, ↓issue_only, ↓ite_only, ite_self, h0]

theorem barrierIssue_only {ks : List Comp} {r : State} (l : LogNo) (s : State)
    (h0 : Comp.runs ∈ ks) :
    ChangesOnly ks r (barrierIssue l s) ↔ ChangesOnly ks r s := by
  unfold barrierIssue; simp [↓onHead_only, ↓modPos_only, ↓issue_only, ↓ite_only, ite_self, h0]

theorem barrierRelease_only {ks : List Comp} {r : State} (l : LogNo) (s : State)
    (h0 : Comp.waits ∈ ks) (h1 : Comp.progs ∈ ks) (h2 : Comp.fns ∈ ks) (h3 : Comp.chans ∈ ks) (h4 : Comp.clusters ∈ ks) (h5 : Comp.lock ∈ ks) (h6 : Comp.ports ∈ ks) (h7 : Comp.outst ∈ ks) (h8 : Comp.deliveries ∈ ks) (h9 : Comp.geo ∈ ks) (h10 : Comp.faults ∈ ks) (h11 : Comp.runs ∈ ks) (h12 : Comp.frames ∈ ks) (h13 : Comp.out ∈ ks) (h14 : Comp.telem ∈ ks) (h15 : Comp.loaded ∈ ks) :
    ChangesOnly ks r (barrierRelease l s) ↔ ChangesOnly ks r s := by
  unfold barrierRelease; (repeat' split) <;> (try (refine (forEach_only (fun _ _ => ?_) _ _).trans ?_)) <;> (try dsimp only) <;> (repeat' split) <;> simp [↓completeUop_only, ↓forEach_only, ↓ite_only, ite_self, h0, h1, h2, h3, h4, h5, h6, h7, h8, h9, h10, h11, h12, h13, h14, h15]

theorem scoreboardStall_only {ks : List Comp} {r : State} (l : LogNo) (s : State)
    (h0 : Comp.waits ∈ ks) (h1 : Comp.progs ∈ ks) (h2 : Comp.fns ∈ ks) (h3 : Comp.chans ∈ ks) (h4 : Comp.tick ∈ ks) (h5 : Comp.clusters ∈ ks) (h6 : Comp.lock ∈ ks) (h7 : Comp.ports ∈ ks) (h8 : Comp.outst ∈ ks) (h9 : Comp.deliveries ∈ ks) (h10 : Comp.geo ∈ ks) (h11 : Comp.faults ∈ ks) (h12 : Comp.runs ∈ ks) (h13 : Comp.frames ∈ ks) (h14 : Comp.out ∈ ks) (h15 : Comp.telem ∈ ks) (h16 : Comp.loaded ∈ ks) :
    ChangesOnly ks r (scoreboardStall l s) ↔ ChangesOnly ks r s := by
  unfold scoreboardStall; (repeat' split) <;> simp [↓progFault_only, ↓reach_only, ↓ite_only, ite_self, h0, h1, h2, h3, h4, h5, h6, h7, h8, h9, h10, h11, h12, h13, h14, h15, h16]

theorem queueTimeout_only {ks : List Comp} {r : State} (l : LogNo) (s : State)
    (h0 : Comp.waits ∈ ks) (h1 : Comp.progs ∈ ks) (h2 : Comp.fns ∈ ks) (h3 : Comp.chans ∈ ks) (h4 : Comp.tick ∈ ks) (h5 : Comp.clusters ∈ ks) (h6 : Comp.lock ∈ ks) (h7 : Comp.ports ∈ ks) (h8 : Comp.outst ∈ ks) (h9 : Comp.deliveries ∈ ks) (h10 : Comp.geo ∈ ks) (h11 : Comp.faults ∈ ks) (h12 : Comp.runs ∈ ks) (h13 : Comp.frames ∈ ks) (h14 : Comp.out ∈ ks) (h15 : Comp.telem ∈ ks) (h16 : Comp.loaded ∈ ks) :
    ChangesOnly ks r (queueTimeout l s) ↔ ChangesOnly ks r s := by
  simp only [queueTimeout]; (repeat' split) <;> simp [↓progFault_only, ↓reach_only, ↓ite_only, ite_self, h0, h1, h2, h3, h4, h5, h6, h7, h8, h9, h10, h11, h12, h13, h14, h15, h16]

theorem frameEnd_only {ks : List Comp} {r : State} (l : LogNo) (s : State)
    (h0 : Comp.waits ∈ ks) (h1 : Comp.progs ∈ ks) (h2 : Comp.fns ∈ ks) (h3 : Comp.chans ∈ ks) (h4 : Comp.clusters ∈ ks) (h5 : Comp.lock ∈ ks) (h6 : Comp.ports ∈ ks) (h7 : Comp.outst ∈ ks) (h8 : Comp.deliveries ∈ ks) (h9 : Comp.geo ∈ ks) (h10 : Comp.scratch ∈ ks) (h11 : Comp.runs ∈ ks) (h12 : Comp.frames ∈ ks) (h13 : Comp.out ∈ ks) (h14 : Comp.telem ∈ ks) (h15 : Comp.loaded ∈ ks) (h16 : Comp.repro ∈ ks) :
    ChangesOnly ks r (frameEnd l s) ↔ ChangesOnly ks r s := by
  unfold frameEnd; (repeat' split) <;> simp [↓offerTensor_only, ↓reselectProg_only, ↓ite_only, ite_self, h0, h1, h2, h3, h4, h5, h6, h7, h8, h9, h10, h11, h12, h13, h14, h15, h16]

theorem execDispatch_only {ks : List Comp} {r t : State} {stratum : FnNo} {s : State}
    (e : execDispatch stratum s = .next t) (h0 : Comp.waits ∈ ks) (h1 : Comp.progs ∈ ks) (h2 : Comp.fns ∈ ks) (h3 : Comp.chans ∈ ks) (h4 : Comp.clusters ∈ ks) (h5 : Comp.lock ∈ ks) (h6 : Comp.ports ∈ ks) (h7 : Comp.outst ∈ ks) (h8 : Comp.deliveries ∈ ks) (h9 : Comp.geo ∈ ks) (h10 : Comp.runs ∈ ks) (h11 : Comp.frames ∈ ks) (h12 : Comp.out ∈ ks) (h13 : Comp.telem ∈ ks) (h14 : Comp.loaded ∈ ks) (h15 : Comp.repro ∈ ks) :
    ChangesOnly ks r t ↔ ChangesOnly ks r s := by
  injection e with e; subst e; simp only [↓dispatch_only, ↓ite_only, ite_self, h0, h1, h2, h3, h4, h5, h6, h7, h8, h9, h10, h11, h12, h13, h14, h15]

theorem execMicroOpComplete_only {ks : List Comp} {r t : State} {cluster : LogNo} {uop : Nat} {s : State}
    (e : execMicroOpComplete cluster uop s = .next t) (h0 : Comp.waits ∈ ks) (h1 : Comp.progs ∈ ks) (h2 : Comp.fns ∈ ks) (h3 : Comp.chans ∈ ks) (h4 : Comp.clusters ∈ ks) (h5 : Comp.lock ∈ ks) (h6 : Comp.ports ∈ ks) (h7 : Comp.outst ∈ ks) (h8 : Comp.deliveries ∈ ks) (h9 : Comp.geo ∈ ks) (h10 : Comp.faults ∈ ks) (h11 : Comp.runs ∈ ks) (h12 : Comp.frames ∈ ks) (h13 : Comp.out ∈ ks) (h14 : Comp.telem ∈ ks) (h15 : Comp.loaded ∈ ks) :
    ChangesOnly ks r t ↔ ChangesOnly ks r s := by
  injection e with e; subst e; simp only [↓uopComplete_only, ↓ite_only, ite_self, h0, h1, h2, h3, h4, h5, h6, h7, h8, h9, h10, h11, h12, h13, h14, h15]

theorem execNop_only {ks : List Comp} {r t : State} {cluster : LogNo} {s : State}
    (e : execNop cluster s = .next t) (h0 : Comp.waits ∈ ks) (h1 : Comp.progs ∈ ks) (h2 : Comp.fns ∈ ks) (h3 : Comp.chans ∈ ks) (h4 : Comp.clusters ∈ ks) (h5 : Comp.lock ∈ ks) (h6 : Comp.ports ∈ ks) (h7 : Comp.outst ∈ ks) (h8 : Comp.deliveries ∈ ks) (h9 : Comp.geo ∈ ks) (h10 : Comp.faults ∈ ks) (h11 : Comp.runs ∈ ks) (h12 : Comp.frames ∈ ks) (h13 : Comp.out ∈ ks) (h14 : Comp.telem ∈ ks) (h15 : Comp.loaded ∈ ks) :
    ChangesOnly ks r t ↔ ChangesOnly ks r s := by
  injection e with e; subst e; simp only [↓nopIssue_only, ↓ite_only, ite_self, h0, h1, h2, h3, h4, h5, h6, h7, h8, h9, h10, h11, h12, h13, h14, h15]

theorem execMicroEnd_only {ks : List Comp} {r t : State} {cluster : LogNo} {s : State}
    (e : execMicroEnd cluster s = .next t) (h0 : Comp.runs ∈ ks) :
    ChangesOnly ks r t ↔ ChangesOnly ks r s := by
  injection e with e; subst e; simp only [↓endIssue_only, ↓ite_only, ite_self, h0]

theorem execMicroBarrier_only {ks : List Comp} {r t : State} {cluster : LogNo} {s : State}
    (e : execMicroBarrier cluster s = .next t) (h0 : Comp.runs ∈ ks) :
    ChangesOnly ks r t ↔ ChangesOnly ks r s := by
  injection e with e; subst e; simp only [↓barrierIssue_only, ↓ite_only, ite_self, h0]

theorem execBarrierRelease_only {ks : List Comp} {r t : State} {cluster : LogNo} {s : State}
    (e : execBarrierRelease cluster s = .next t) (h0 : Comp.waits ∈ ks) (h1 : Comp.progs ∈ ks) (h2 : Comp.fns ∈ ks) (h3 : Comp.chans ∈ ks) (h4 : Comp.clusters ∈ ks) (h5 : Comp.lock ∈ ks) (h6 : Comp.ports ∈ ks) (h7 : Comp.outst ∈ ks) (h8 : Comp.deliveries ∈ ks) (h9 : Comp.geo ∈ ks) (h10 : Comp.faults ∈ ks) (h11 : Comp.runs ∈ ks) (h12 : Comp.frames ∈ ks) (h13 : Comp.out ∈ ks) (h14 : Comp.telem ∈ ks) (h15 : Comp.loaded ∈ ks) :
    ChangesOnly ks r t ↔ ChangesOnly ks r s := by
  injection e with e; subst e; simp only [↓barrierRelease_only, ↓ite_only, ite_self, h0, h1, h2, h3, h4, h5, h6, h7, h8, h9, h10, h11, h12, h13, h14, h15]

theorem execScoreboardStall_only {ks : List Comp} {r t : State} {cluster : LogNo} {s : State}
    (e : execScoreboardStall cluster s = .next t) (h0 : Comp.waits ∈ ks) (h1 : Comp.progs ∈ ks) (h2 : Comp.fns ∈ ks) (h3 : Comp.chans ∈ ks) (h4 : Comp.tick ∈ ks) (h5 : Comp.clusters ∈ ks) (h6 : Comp.lock ∈ ks) (h7 : Comp.ports ∈ ks) (h8 : Comp.outst ∈ ks) (h9 : Comp.deliveries ∈ ks) (h10 : Comp.geo ∈ ks) (h11 : Comp.faults ∈ ks) (h12 : Comp.runs ∈ ks) (h13 : Comp.frames ∈ ks) (h14 : Comp.out ∈ ks) (h15 : Comp.telem ∈ ks) (h16 : Comp.loaded ∈ ks) :
    ChangesOnly ks r t ↔ ChangesOnly ks r s := by
  injection e with e; subst e; simp only [↓scoreboardStall_only, ↓ite_only, ite_self, h0, h1, h2, h3, h4, h5, h6, h7, h8, h9, h10, h11, h12, h13, h14, h15, h16]

theorem execQueueWaitTimeout_only {ks : List Comp} {r t : State} {cluster : LogNo} {s : State}
    (e : execQueueWaitTimeout cluster s = .next t) (h0 : Comp.waits ∈ ks) (h1 : Comp.progs ∈ ks) (h2 : Comp.fns ∈ ks) (h3 : Comp.chans ∈ ks) (h4 : Comp.tick ∈ ks) (h5 : Comp.clusters ∈ ks) (h6 : Comp.lock ∈ ks) (h7 : Comp.ports ∈ ks) (h8 : Comp.outst ∈ ks) (h9 : Comp.deliveries ∈ ks) (h10 : Comp.geo ∈ ks) (h11 : Comp.faults ∈ ks) (h12 : Comp.runs ∈ ks) (h13 : Comp.frames ∈ ks) (h14 : Comp.out ∈ ks) (h15 : Comp.telem ∈ ks) (h16 : Comp.loaded ∈ ks) :
    ChangesOnly ks r t ↔ ChangesOnly ks r s := by
  injection e with e; subst e; simp only [↓queueTimeout_only, ↓ite_only, ite_self, h0, h1, h2, h3, h4, h5, h6, h7, h8, h9, h10, h11, h12, h13, h14, h15, h16]

theorem execChannelFrameEnd_only {ks : List Comp} {r t : State} {cluster : LogNo} {s : State}
    (e : execChannelFrameEnd cluster s = .next t) (h0 : Comp.waits ∈ ks) (h1 : Comp.progs ∈ ks) (h2 : Comp.fns ∈ ks) (h3 : Comp.chans ∈ ks) (h4 : Comp.clusters ∈ ks) (h5 : Comp.lock ∈ ks) (h6 : Comp.ports ∈ ks) (h7 : Comp.outst ∈ ks) (h8 : Comp.deliveries ∈ ks) (h9 : Comp.geo ∈ ks) (h10 : Comp.scratch ∈ ks) (h11 : Comp.runs ∈ ks) (h12 : Comp.frames ∈ ks) (h13 : Comp.out ∈ ks) (h14 : Comp.telem ∈ ks) (h15 : Comp.loaded ∈ ks) (h16 : Comp.repro ∈ ks) :
    ChangesOnly ks r t ↔ ChangesOnly ks r s := by
  injection e with e; subst e; simp only [↓drainArea_only, ↓frameEnd_only, ↓ite_only, ite_self, h0, h1, h2, h3, h4, h5, h6, h7, h8, h9, h10, h11, h12, h13, h14, h15, h16]

/-! ### Granite -/

theorem modClusterAt_only {ks : List Comp} {r : State} (s : State) (l : LogNo) (f : Cluster → Cluster)
    (h0 : Comp.clusters ∈ ks) :
    ChangesOnly ks r (State.modClusterAt s l f) ↔ ChangesOnly ks r s := by
  unfold State.modClusterAt; (repeat' split) <;> simp [↓upd_clusters_only, ↓ite_only, ite_self, h0]

theorem windowWrite_only {ks : List Comp} {r : State} (s : State) (rr : Run) (i : Nat) (o : Nat) (b : List Byte)
    (h0 : Comp.scratch ∈ ks) :
    ChangesOnly ks r (State.windowWrite s rr i o b) ↔ ChangesOnly ks r s := by
  unfold State.windowWrite; (repeat' split) <;> simp [↓upd_scratch_only, ↓ite_only, ite_self, h0]

theorem stepIssue_only {ks : List Comp} {r : State} (l : LogNo) (s : State)
    (h0 : Comp.waits ∈ ks) (h1 : Comp.progs ∈ ks) (h2 : Comp.fns ∈ ks) (h3 : Comp.chans ∈ ks) (h4 : Comp.clusters ∈ ks) (h5 : Comp.lock ∈ ks) (h6 : Comp.ports ∈ ks) (h7 : Comp.outst ∈ ks) (h8 : Comp.deliveries ∈ ks) (h9 : Comp.geo ∈ ks) (h10 : Comp.faults ∈ ks) (h11 : Comp.runs ∈ ks) (h12 : Comp.frames ∈ ks) (h13 : Comp.out ∈ ks) (h14 : Comp.telem ∈ ks) (h15 : Comp.loaded ∈ ks) :
    ChangesOnly ks r (stepIssue l s) ↔ ChangesOnly ks r s := by
  unfold stepIssue
  repeat' (first | with_reducible rfl | assumption | intro _ | (simp only [↓onHead_only, ↓progFault_only, ↓modClusterAt_only, ↓issue_only, ↓modPos_only, ↓ite_only, ite_self, h0, h1, h2, h3, h4, h5, h6, h7, h8, h9, h10, h11, h12, h13, h14, h15]) | rw [foldl_fst_only] | rw [foldl_only] | rw [onHead_only] | split | dsimp only)

theorem writeDrain_only {ks : List Comp} {r : State} (s : State) (rr : Run) (i : Nat) (k : Nat) (o : StepOp) (d : Drained)
    (h0 : Comp.scratch ∈ ks) (h1 : Comp.frames ∈ ks) :
    ChangesOnly ks r (State.writeDrain s rr i k o d) ↔ ChangesOnly ks r s := by
  unfold State.writeDrain; simp [↓windowWrite_only, ↓modFrame_only, ↓forEach_only, ↓ite_only, ite_self, h0, h1]

theorem drainPartial_only {ks : List Comp} {r : State} (s : State) (rr : Run) (i : Nat) (k : Nat) (o : StepOp) (num : Nat) (wide : Bool) (q : List (List (Option Int)))
    (h0 : Comp.runs ∈ ks) :
    ChangesOnly ks r (State.drainPartial s rr i k o num wide q) ↔ ChangesOnly ks r s := by
  unfold State.drainPartial; (repeat' split) <;> simp [↓modFlight_only, ↓modRun_only, ↓ite_only, ite_self, h0]

theorem rescaleTerms_only {ks : List Comp} {r : State} (s : State) (f : Frame) (h0 : Comp.free ∈ ks) :
    ChangesOnly ks r (s.rescaleTerms f).2.2 ↔ ChangesOnly ks r s := by
  unfold State.rescaleTerms
  dsimp only
  split <;> simp only [↓draw_only, h0]

theorem drain_only {ks : List Comp} {r : State} (l : LogNo) (s : State) (h0 : Comp.waits ∈ ks) (h1 : Comp.progs ∈ ks) (h2 : Comp.fns ∈ ks) (h3 : Comp.chans ∈ ks) (h4 : Comp.clusters ∈ ks) (h5 : Comp.lock ∈ ks) (h6 : Comp.ports ∈ ks) (h7 : Comp.outst ∈ ks) (h8 : Comp.deliveries ∈ ks) (h9 : Comp.geo ∈ ks) (h10 : Comp.faults ∈ ks) (h11 : Comp.scratch ∈ ks) (h12 : Comp.runs ∈ ks) (h13 : Comp.frames ∈ ks) (h14 : Comp.out ∈ ks) (h15 : Comp.telem ∈ ks) (h16 : Comp.free ∈ ks) (h17 : Comp.loaded ∈ ks) :
    ChangesOnly ks r (drain l s) ↔ ChangesOnly ks r s := by
  unfold drain
  repeat' (first | with_reducible rfl | (simp only [↓stepLeaves_only, ↓progFault_only, ↓drainPartial_only, ↓flightDone_only,
    ↓writeDrain_only, ↓rescaleTerms_only, h0, h1, h2, h3, h4, h5, h6, h7, h8, h9, h10, h11, h12, h13, h14, h15, h16, h17]) | split | dsimp only)

theorem qsaveIssue_only {ks : List Comp} {r : State} (l : LogNo) (s : State)
    (h0 : Comp.waits ∈ ks) (h1 : Comp.progs ∈ ks) (h2 : Comp.fns ∈ ks) (h3 : Comp.chans ∈ ks) (h4 : Comp.clusters ∈ ks) (h5 : Comp.lock ∈ ks) (h6 : Comp.ports ∈ ks) (h7 : Comp.outst ∈ ks) (h8 : Comp.deliveries ∈ ks) (h9 : Comp.geo ∈ ks) (h10 : Comp.faults ∈ ks) (h11 : Comp.scratch ∈ ks) (h12 : Comp.runs ∈ ks) (h13 : Comp.frames ∈ ks) (h14 : Comp.out ∈ ks) (h15 : Comp.telem ∈ ks) (h16 : Comp.loaded ∈ ks) :
    ChangesOnly ks r (qsaveIssue l s) ↔ ChangesOnly ks r s := by
  unfold qsaveIssue; simp [↓onHead_only, ↓progFault_only, ↓windowWrite_only, ↓issue_only, ↓ite_only, ite_self, h0, h1, h2, h3, h4, h5, h6, h7, h8, h9, h10, h11, h12, h13, h14, h15, h16]

theorem qloadIssue_only {ks : List Comp} {r : State} (l : LogNo) (s : State)
    (h0 : Comp.clusters ∈ ks) (h1 : Comp.runs ∈ ks) :
    ChangesOnly ks r (qloadIssue l s) ↔ ChangesOnly ks r s := by
  unfold qloadIssue; simp [↓onHead_only, ↓modClusterAt_only, ↓issue_only, ↓ite_only, ite_self, h0, h1]

theorem qclearIssue_only {ks : List Comp} {r : State} (l : LogNo) (s : State)
    (h0 : Comp.clusters ∈ ks) (h1 : Comp.runs ∈ ks) :
    ChangesOnly ks r (qclearIssue l s) ↔ ChangesOnly ks r s := by
  unfold qclearIssue; simp [↓onHead_only, ↓modClusterAt_only, ↓issue_only, ↓ite_only, ite_self, h0, h1]

theorem combine_only {ks : List Comp} {r : State} (s : State) (rr : Run) (repro : Bool) (into : Partial) (p : Partial) (level : Nat)
    (h0 : Comp.runs ∈ ks) (h1 : Comp.free ∈ ks) :
    ChangesOnly ks r (State.combine s rr repro into p level) ↔ ChangesOnly ks r s := by
  unfold State.combine; simp only [↓draw_only, ↓modRun_only, ↓ite_only, ite_self, h0, h1]

theorem memberDone_only {ks : List Comp} {r : State} (s : State) (rr : Run) (pos : Nat)
    (h0 : Comp.runs ∈ ks) :
    ChangesOnly ks r (State.memberDone s rr pos) ↔ ChangesOnly ks r s := by
  unfold State.memberDone; (repeat' split) <;> simp [↓flightDone_only, ↓ite_only, ite_self, h0]

theorem finishReduction_only {ks : List Comp} {r : State} (s : State) (rr : Run) (root : Nat) (p : Partial)
    (h0 : Comp.scratch ∈ ks) (h1 : Comp.runs ∈ ks) (h2 : Comp.frames ∈ ks) :
    ChangesOnly ks r (State.finishReduction s rr root p) ↔ ChangesOnly ks r s := by
  unfold State.finishReduction; (repeat' split) <;> simp [↓modRun_only, ↓writeDrain_only, ↓memberDone_only, ↓ite_only, ite_self, h0, h1, h2]

theorem reproTransfer_only {ks : List Comp} {r : State} (s : State) (rr : Run) (p : Partial)
    (h0 : Comp.scratch ∈ ks) (h1 : Comp.runs ∈ ks) (h2 : Comp.frames ∈ ks) (h3 : Comp.free ∈ ks) :
    ChangesOnly ks r (State.reproTransfer s rr p) ↔ ChangesOnly ks r s := by
  simp only [State.reproTransfer]; (repeat' split) <;> simp [↓finishReduction_only, ↓memberDone_only, ↓combine_only, ↓ite_only, ite_self, h0, h1, h2, h3]

theorem fastTransfer_only {ks : List Comp} {r : State} (s : State) (rr : Run) (p : Partial)
    (h0 : Comp.scratch ∈ ks) (h1 : Comp.runs ∈ ks) (h2 : Comp.frames ∈ ks) (h3 : Comp.free ∈ ks) :
    ChangesOnly ks r (State.fastTransfer s rr p) ↔ ChangesOnly ks r s := by
  simp only [State.fastTransfer]; (repeat' split) <;> simp [↓modRun_only, ↓finishReduction_only, ↓combine_only, ↓memberDone_only, ↓ite_only, ite_self, h0, h1, h2, h3]

theorem reductionTransfer_only {ks : List Comp} {r : State} (l : LogNo) (s : State)
    (h0 : Comp.scratch ∈ ks) (h1 : Comp.runs ∈ ks) (h2 : Comp.frames ∈ ks) (h3 : Comp.free ∈ ks) :
    ChangesOnly ks r (reductionTransfer l s) ↔ ChangesOnly ks r s := by
  unfold reductionTransfer; (repeat' split) <;> simp [↓reproTransfer_only, ↓fastTransfer_only, ↓ite_only, ite_self, h0, h1, h2, h3]

theorem execMicroStep_only {ks : List Comp} {r t : State} {cluster : LogNo} {s : State}
    (e : execMicroStep cluster s = .next t) (h0 : Comp.waits ∈ ks) (h1 : Comp.progs ∈ ks) (h2 : Comp.fns ∈ ks) (h3 : Comp.chans ∈ ks) (h4 : Comp.clusters ∈ ks) (h5 : Comp.lock ∈ ks) (h6 : Comp.ports ∈ ks) (h7 : Comp.outst ∈ ks) (h8 : Comp.deliveries ∈ ks) (h9 : Comp.geo ∈ ks) (h10 : Comp.faults ∈ ks) (h11 : Comp.runs ∈ ks) (h12 : Comp.frames ∈ ks) (h13 : Comp.out ∈ ks) (h14 : Comp.telem ∈ ks) (h15 : Comp.loaded ∈ ks) :
    ChangesOnly ks r t ↔ ChangesOnly ks r s := by
  injection e with e; subst e; simp only [↓stepIssue_only, ↓ite_only, ite_self, h0, h1, h2, h3, h4, h5, h6, h7, h8, h9, h10, h11, h12, h13, h14, h15]

theorem execDrain_only {ks : List Comp} {r t : State} {cluster : LogNo} {s : State}
    (e : execDrain cluster s = .next t) (h0 : Comp.waits ∈ ks) (h1 : Comp.progs ∈ ks) (h2 : Comp.fns ∈ ks) (h3 : Comp.chans ∈ ks) (h4 : Comp.clusters ∈ ks) (h5 : Comp.lock ∈ ks) (h6 : Comp.ports ∈ ks) (h7 : Comp.outst ∈ ks) (h8 : Comp.deliveries ∈ ks) (h9 : Comp.geo ∈ ks) (h10 : Comp.faults ∈ ks) (h11 : Comp.scratch ∈ ks) (h12 : Comp.runs ∈ ks) (h13 : Comp.frames ∈ ks) (h14 : Comp.out ∈ ks) (h15 : Comp.telem ∈ ks) (h16 : Comp.free ∈ ks) (h17 : Comp.loaded ∈ ks) :
    ChangesOnly ks r t ↔ ChangesOnly ks r s := by
  injection e with e; subst e; simp only [↓drain_only, ↓ite_only, ite_self, h0, h1, h2, h3, h4, h5, h6, h7, h8, h9, h10, h11, h12, h13, h14, h15, h16, h17]

theorem execQsave_only {ks : List Comp} {r t : State} {cluster : LogNo} {s : State}
    (e : execQsave cluster s = .next t) (h0 : Comp.waits ∈ ks) (h1 : Comp.progs ∈ ks) (h2 : Comp.fns ∈ ks) (h3 : Comp.chans ∈ ks) (h4 : Comp.clusters ∈ ks) (h5 : Comp.lock ∈ ks) (h6 : Comp.ports ∈ ks) (h7 : Comp.outst ∈ ks) (h8 : Comp.deliveries ∈ ks) (h9 : Comp.geo ∈ ks) (h10 : Comp.faults ∈ ks) (h11 : Comp.scratch ∈ ks) (h12 : Comp.runs ∈ ks) (h13 : Comp.frames ∈ ks) (h14 : Comp.out ∈ ks) (h15 : Comp.telem ∈ ks) (h16 : Comp.loaded ∈ ks) :
    ChangesOnly ks r t ↔ ChangesOnly ks r s := by
  injection e with e; subst e; simp only [↓qsaveIssue_only, ↓ite_only, ite_self, h0, h1, h2, h3, h4, h5, h6, h7, h8, h9, h10, h11, h12, h13, h14, h15, h16]

theorem execQload_only {ks : List Comp} {r t : State} {cluster : LogNo} {s : State}
    (e : execQload cluster s = .next t) (h0 : Comp.clusters ∈ ks) (h1 : Comp.runs ∈ ks) :
    ChangesOnly ks r t ↔ ChangesOnly ks r s := by
  injection e with e; subst e; simp only [↓qloadIssue_only, ↓ite_only, ite_self, h0, h1]

theorem execQclear_only {ks : List Comp} {r t : State} {cluster : LogNo} {s : State}
    (e : execQclear cluster s = .next t) (h0 : Comp.clusters ∈ ks) (h1 : Comp.runs ∈ ks) :
    ChangesOnly ks r t ↔ ChangesOnly ks r s := by
  injection e with e; subst e; simp only [↓qclearIssue_only, ↓ite_only, ite_self, h0, h1]

theorem execReductionTransfer_only {ks : List Comp} {r t : State} {clusters : List LogNo} {s : State}
    (e : execReductionTransfer clusters s = .next t) (h0 : Comp.scratch ∈ ks) (h1 : Comp.runs ∈ ks) (h2 : Comp.frames ∈ ks) (h3 : Comp.free ∈ ks) :
    ChangesOnly ks r t ↔ ChangesOnly ks r s := by
  injection e with e; subst e
  repeat' (first | with_reducible rfl | assumption | intro _ | (simp only [↓forEach_only, ↓reductionTransfer_only, ↓forEach_only, ↓ite_only, ite_self, h0, h1, h2, h3]) | rw [foldl_fst_only] | rw [foldl_only] | rw [forEach_only] | split | dsimp only)

/-! ### Images -/

theorem endSlotLoad_only {ks : List Comp} {r : State} (x : SlotLoad) (fail : Option W64) (fault : Option Nat)
    {write : State → State} (s : State) (h0 : Comp.waits ∈ ks) (h1 : Comp.fns ∈ ks) (h2 : Comp.outst ∈ ks) (h3 : Comp.out ∈ ks) (hw : ∀ t, ChangesOnly ks r (write t) ↔ ChangesOnly ks r t) :
    ChangesOnly ks r (endSlotLoad x fail fault write s) ↔ ChangesOnly ks r s := by
  unfold endSlotLoad; split <;> simp only [↓complete_only, ↓completeOk_only, ↓hw, h0, h1, h2, h3]

theorem tableImageCheck_only {ks : List Comp} {r : State} (n : FnNo) (slot : Fin 8) (host : List Byte) (fail : Option W64) (s : State)
    (h0 : Comp.waits ∈ ks) (h1 : Comp.fns ∈ ks) (h2 : Comp.outst ∈ ks) (h3 : Comp.tableLoads ∈ ks) (h4 : Comp.out ∈ ks) (h5 : Comp.tables ∈ ks) :
    ChangesOnly ks r (tableImageCheck n slot host fail s) ↔ ChangesOnly ks r s := by
  unfold tableImageCheck; (repeat' split) <;> simp [↓endSlotLoad_only, ↓upd_tables_only, ↓upd_tableLoads_only, ↓ite_only, ite_self, h0, h1, h2, h3, h4, h5]

theorem mprogImageCheck_only {ks : List Comp} {r : State} (n : FnNo) (slot : Fin 8) (host : List Byte) (fail : Option W64) (s : State)
    (h0 : Comp.mprogs ∈ ks) (h1 : Comp.waits ∈ ks) (h2 : Comp.fns ∈ ks) (h3 : Comp.outst ∈ ks) (h4 : Comp.mprogLoads ∈ ks) (h5 : Comp.out ∈ ks) :
    ChangesOnly ks r (mprogImageCheck n slot host fail s) ↔ ChangesOnly ks r s := by
  unfold mprogImageCheck; (repeat' split) <;> simp [↓endSlotLoad_only, ↓upd_mprogs_only, ↓upd_mprogLoads_only, ↓ite_only, ite_self, h0, h1, h2, h3, h4, h5]

theorem execTableLoad_only {ks : List Comp} {r t : State} {fn : FnNo} {qp : QpNo} {pkt : Packet} {s : State}
    (e : execTableLoad fn qp pkt s = .next t) (h0 : Comp.nextId ∈ ks) (h1 : Comp.fns ∈ ks) (h2 : Comp.outst ∈ ks) (h3 : Comp.tableLoads ∈ ks) (h4 : Comp.out ∈ ks) :
    ChangesOnly ks r t ↔ ChangesOnly ks r s := by
  injection e with e; subst e
  repeat' (first | with_reducible rfl | assumption | intro _ | (simp only [↓longCommand_only, ↓upd_tableLoads_only, ↓ite_only, ite_self, h0, h1, h2, h3, h4]) | rw [foldl_fst_only] | rw [foldl_only] | rw [longCommand_only] | split | dsimp only)

theorem execMicroprogLoad_only {ks : List Comp} {r t : State} {fn : FnNo} {qp : QpNo} {pkt : Packet} {s : State}
    (e : execMicroprogLoad fn qp pkt s = .next t) (h0 : Comp.nextId ∈ ks) (h1 : Comp.fns ∈ ks) (h2 : Comp.outst ∈ ks) (h3 : Comp.mprogLoads ∈ ks) (h4 : Comp.out ∈ ks) :
    ChangesOnly ks r t ↔ ChangesOnly ks r s := by
  injection e with e; subst e
  repeat' (first | with_reducible rfl | assumption | intro _ | (simp only [↓longCommand_only, ↓upd_mprogLoads_only, ↓ite_only, ite_self, h0, h1, h2, h3, h4]) | rw [foldl_fst_only] | rw [foldl_only] | rw [longCommand_only] | split | dsimp only)

theorem execTableImageCheck_only {ks : List Comp} {r t : State} {stratum : FnNo} {slot : Fin 8} {host : List Byte} {fail : Option W64} {s : State}
    (e : execTableImageCheck stratum slot host fail s = .next t) (h0 : Comp.waits ∈ ks) (h1 : Comp.fns ∈ ks) (h2 : Comp.outst ∈ ks) (h3 : Comp.tableLoads ∈ ks) (h4 : Comp.out ∈ ks) (h5 : Comp.tables ∈ ks) :
    ChangesOnly ks r t ↔ ChangesOnly ks r s := by
  injection e with e; subst e; simp only [↓tableImageCheck_only, ↓ite_only, ite_self, h0, h1, h2, h3, h4, h5]

theorem execMicroprogImageCheck_only {ks : List Comp} {r t : State} {stratum : FnNo} {slot : Fin 8} {host : List Byte} {fail : Option W64} {s : State}
    (e : execMicroprogImageCheck stratum slot host fail s = .next t) (h0 : Comp.mprogs ∈ ks) (h1 : Comp.waits ∈ ks) (h2 : Comp.fns ∈ ks) (h3 : Comp.outst ∈ ks) (h4 : Comp.mprogLoads ∈ ks) (h5 : Comp.out ∈ ks) :
    ChangesOnly ks r t ↔ ChangesOnly ks r s := by
  injection e with e; subst e; simp only [↓mprogImageCheck_only, ↓ite_only, ite_self, h0, h1, h2, h3, h4, h5]

/-! ### MemCmds -/

theorem memAlloc_only {ks : List Comp} {r : State} (n : FnNo) (p : Packet) (s : State)
    (h0 : Comp.geo ∈ ks) (h1 : Comp.strata ∈ ks) (h2 : Comp.free ∈ ks) :
    ChangesOnly ks r (memAlloc n p s).1 ↔ ChangesOnly ks r s := by
  unfold memAlloc; (repeat' split) <;> simp [↓allocate_only, ↓ite_only, ite_self, h0, h1, h2]

theorem memFree_only {ks : List Comp} {r : State} (n : FnNo) (p : Packet) (s : State)
    (h0 : Comp.ext ∈ ks) (h1 : Comp.geo ∈ ks) (h2 : Comp.strata ∈ ks) :
    ChangesOnly ks r (memFree n p s).1 ↔ ChangesOnly ks r s := by
  unfold memFree; (repeat' split) <;> simp [↓release_only, ↓ite_only, ite_self, h0, h1, h2]

theorem execMemAlloc_only {ks : List Comp} {r t : State} {fn : FnNo} {qp : QpNo} {pkt : Packet} {s : State}
    (e : execMemAlloc fn qp pkt s = .next t) (h0 : Comp.fns ∈ ks) (h1 : Comp.geo ∈ ks) (h2 : Comp.strata ∈ ks) (h3 : Comp.out ∈ ks) (h4 : Comp.free ∈ ks) :
    ChangesOnly ks r t ↔ ChangesOnly ks r s := by
  injection e with e; subst e
  repeat' (first | with_reducible rfl | assumption | intro _ | (simp only [↓shortCommand_only, ↓memAlloc_only, ↓ite_only, ite_self, h0, h1, h2, h3, h4]) | rw [foldl_fst_only] | rw [foldl_only] | rw [shortCommand_only] | split | dsimp only)

theorem execMemFree_only {ks : List Comp} {r t : State} {fn : FnNo} {qp : QpNo} {pkt : Packet} {s : State}
    (e : execMemFree fn qp pkt s = .next t) (h0 : Comp.fns ∈ ks) (h1 : Comp.ext ∈ ks) (h2 : Comp.geo ∈ ks) (h3 : Comp.strata ∈ ks) (h4 : Comp.out ∈ ks) :
    ChangesOnly ks r t ↔ ChangesOnly ks r s := by
  injection e with e; subst e
  repeat' (first | with_reducible rfl | assumption | intro _ | (simp only [↓shortCommand_only, ↓memFree_only, ↓ite_only, ite_self, h0, h1, h2, h3, h4]) | rw [foldl_fst_only] | rw [foldl_only] | rw [shortCommand_only] | split | dsimp only)

theorem execMemMapExternal_only {ks : List Comp} {r t : State} {fn : FnNo} {qp : QpNo} {pkt : Packet} {s : State}
    (e : execMemMapExternal fn qp pkt s = .next t) (h0 : Comp.fns ∈ ks) (h1 : Comp.strata ∈ ks) (h2 : Comp.out ∈ ks) :
    ChangesOnly ks r t ↔ ChangesOnly ks r s := by
  injection e with e; subst e
  repeat' (first | with_reducible rfl | assumption | intro _ | (simp only [↓shortCommand_only, ↓modStratum_only, ↓ite_only, ite_self, h0, h1, h2]) | rw [foldl_fst_only] | rw [foldl_only] | rw [shortCommand_only] | split | dsimp only)

/-! ### Mica -/

theorem micaWriteRows_only {ks : List Comp} {r : State} (s : State) (rr : Run) (i : Nat) (o : MicaOp) (rows : List (List Nat))
    (h0 : Comp.scratch ∈ ks) :
    ChangesOnly ks r (State.micaWriteRows s rr i o rows) ↔ ChangesOnly ks r s := by
  unfold State.micaWriteRows; simp [↓windowWrite_only, ↓forEach_only, ↓ite_only, ite_self, h0]

theorem onMica_only {ks : List Comp} {r : State} (is : MicaOp → Bool) (l : LogNo)
    {body : Run → Nat → Frame → MicaOp → State → State} (s : State) (h0 : Comp.runs ∈ ks)
    (hb : ∀ x i f o t, ChangesOnly ks r (body x i f o t) ↔ ChangesOnly ks r t) :
    ChangesOnly ks r (onMica is l body s) ↔ ChangesOnly ks r s := by
  refine onHead_only _ _ _ _ fun x i p k t => ?_
  split <;> simp only [↓flightDone_only, ↓hb, ↓issue_only, h0]

theorem onElements_only {ks : List Comp} {r : State} (is : MicaOp → Bool) (f : State → Frame → MicaOp → Nat → Nat)
    (l : LogNo) (s : State) (h0 : Comp.scratch ∈ ks) (h1 : Comp.runs ∈ ks) :
    ChangesOnly ks r (onElements is f l s) ↔ ChangesOnly ks r s := by
  apply onMica_only <;> first
    | assumption
    | (intro x i g o t; simp only [↓windowWrite_only, h0, h1])

theorem builtinRow_only {ks : List Comp} {r : State} (func : Nat) (l : LogNo) (s : State)
    (h0 : Comp.scratch ∈ ks) (h1 : Comp.runs ∈ ks) :
    ChangesOnly ks r (builtinRow func l s) ↔ ChangesOnly ks r s := by
  unfold builtinRow; simp only [↓onElements_only, ↓ite_only, ite_self, h0, h1]

theorem tableRow_only {ks : List Comp} {r : State} (l : LogNo) (s : State)
    (h0 : Comp.scratch ∈ ks) (h1 : Comp.runs ∈ ks) :
    ChangesOnly ks r (tableRow l s) ↔ ChangesOnly ks r s := by
  unfold tableRow; simp only [↓onElements_only, ↓ite_only, ite_self, h0, h1]

theorem smaxAccRow_only {ks : List Comp} {r : State} (l : LogNo) (s : State)
    (h0 : Comp.scratch ∈ ks) (h1 : Comp.runs ∈ ks) :
    ChangesOnly ks r (smaxAccRow l s) ↔ ChangesOnly ks r s := by
  unfold smaxAccRow; simp [↓onMica_only, ↓windowWrite_only, ↓ite_only, ite_self, h0, h1]

theorem smaxNormRow_only {ks : List Comp} {r : State} (l : LogNo) (s : State)
    (h0 : Comp.scratch ∈ ks) (h1 : Comp.runs ∈ ks) :
    ChangesOnly ks r (smaxNormRow l s) ↔ ChangesOnly ks r s := by
  unfold smaxNormRow; simp [↓onMica_only, ↓micaWriteRows_only, ↓ite_only, ite_self, h0, h1]

theorem smax1pRow_only {ks : List Comp} {r : State} (l : LogNo) (s : State)
    (h0 : Comp.scratch ∈ ks) (h1 : Comp.runs ∈ ks) (h2 : Comp.telem ∈ ks) :
    ChangesOnly ks r (smax1pRow l s) ↔ ChangesOnly ks r s := by
  unfold smax1pRow; simp [↓onMica_only, ↓windowWrite_only, ↓micaWriteRows_only, ↓count_only, ↓ite_only, ite_self, h0, h1, h2]

theorem rowscaleRow_only {ks : List Comp} {r : State} (l : LogNo) (s : State)
    (h0 : Comp.scratch ∈ ks) (h1 : Comp.runs ∈ ks) :
    ChangesOnly ks r (rowscaleRow l s) ↔ ChangesOnly ks r s := by
  unfold rowscaleRow; simp [↓onMica_only, ↓micaWriteRows_only, ↓ite_only, ite_self, h0, h1]

theorem execMicaExp_only {ks : List Comp} {r t : State} {cluster : LogNo} {s : State}
    (e : execMicaExp cluster s = .next t) (h0 : Comp.scratch ∈ ks) (h1 : Comp.runs ∈ ks) :
    ChangesOnly ks r t ↔ ChangesOnly ks r s := by
  injection e with e; subst e; simp only [↓builtinRow_only, ↓ite_only, ite_self, h0, h1]

theorem execMicaExp2_only {ks : List Comp} {r t : State} {cluster : LogNo} {s : State}
    (e : execMicaExp2 cluster s = .next t) (h0 : Comp.scratch ∈ ks) (h1 : Comp.runs ∈ ks) :
    ChangesOnly ks r t ↔ ChangesOnly ks r s := by
  injection e with e; subst e; simp only [↓builtinRow_only, ↓ite_only, ite_self, h0, h1]

theorem execMicaLog2_only {ks : List Comp} {r t : State} {cluster : LogNo} {s : State}
    (e : execMicaLog2 cluster s = .next t) (h0 : Comp.scratch ∈ ks) (h1 : Comp.runs ∈ ks) :
    ChangesOnly ks r t ↔ ChangesOnly ks r s := by
  injection e with e; subst e; simp only [↓builtinRow_only, ↓ite_only, ite_self, h0, h1]

theorem execMicaRecip_only {ks : List Comp} {r t : State} {cluster : LogNo} {s : State}
    (e : execMicaRecip cluster s = .next t) (h0 : Comp.scratch ∈ ks) (h1 : Comp.runs ∈ ks) :
    ChangesOnly ks r t ↔ ChangesOnly ks r s := by
  injection e with e; subst e; simp only [↓builtinRow_only, ↓ite_only, ite_self, h0, h1]

theorem execMicaRsqrt_only {ks : List Comp} {r t : State} {cluster : LogNo} {s : State}
    (e : execMicaRsqrt cluster s = .next t) (h0 : Comp.scratch ∈ ks) (h1 : Comp.runs ∈ ks) :
    ChangesOnly ks r t ↔ ChangesOnly ks r s := by
  injection e with e; subst e; simp only [↓builtinRow_only, ↓ite_only, ite_self, h0, h1]

theorem execMicaTanh_only {ks : List Comp} {r t : State} {cluster : LogNo} {s : State}
    (e : execMicaTanh cluster s = .next t) (h0 : Comp.scratch ∈ ks) (h1 : Comp.runs ∈ ks) :
    ChangesOnly ks r t ↔ ChangesOnly ks r s := by
  injection e with e; subst e; simp only [↓builtinRow_only, ↓ite_only, ite_self, h0, h1]

theorem execMicaSigmoid_only {ks : List Comp} {r t : State} {cluster : LogNo} {s : State}
    (e : execMicaSigmoid cluster s = .next t) (h0 : Comp.scratch ∈ ks) (h1 : Comp.runs ∈ ks) :
    ChangesOnly ks r t ↔ ChangesOnly ks r s := by
  injection e with e; subst e; simp only [↓builtinRow_only, ↓ite_only, ite_self, h0, h1]

theorem execMicaErf_only {ks : List Comp} {r t : State} {cluster : LogNo} {s : State}
    (e : execMicaErf cluster s = .next t) (h0 : Comp.scratch ∈ ks) (h1 : Comp.runs ∈ ks) :
    ChangesOnly ks r t ↔ ChangesOnly ks r s := by
  injection e with e; subst e; simp only [↓builtinRow_only, ↓ite_only, ite_self, h0, h1]

theorem execMicaGeluErf_only {ks : List Comp} {r t : State} {cluster : LogNo} {s : State}
    (e : execMicaGeluErf cluster s = .next t) (h0 : Comp.scratch ∈ ks) (h1 : Comp.runs ∈ ks) :
    ChangesOnly ks r t ↔ ChangesOnly ks r s := by
  injection e with e; subst e; simp only [↓builtinRow_only, ↓ite_only, ite_self, h0, h1]

theorem execMicaGeluTanh_only {ks : List Comp} {r t : State} {cluster : LogNo} {s : State}
    (e : execMicaGeluTanh cluster s = .next t) (h0 : Comp.scratch ∈ ks) (h1 : Comp.runs ∈ ks) :
    ChangesOnly ks r t ↔ ChangesOnly ks r s := by
  injection e with e; subst e; simp only [↓builtinRow_only, ↓ite_only, ite_self, h0, h1]

theorem execMicaGeluSig_only {ks : List Comp} {r t : State} {cluster : LogNo} {s : State}
    (e : execMicaGeluSig cluster s = .next t) (h0 : Comp.scratch ∈ ks) (h1 : Comp.runs ∈ ks) :
    ChangesOnly ks r t ↔ ChangesOnly ks r s := by
  injection e with e; subst e; simp only [↓builtinRow_only, ↓ite_only, ite_self, h0, h1]

theorem execMicaSilu_only {ks : List Comp} {r t : State} {cluster : LogNo} {s : State}
    (e : execMicaSilu cluster s = .next t) (h0 : Comp.scratch ∈ ks) (h1 : Comp.runs ∈ ks) :
    ChangesOnly ks r t ↔ ChangesOnly ks r s := by
  injection e with e; subst e; simp only [↓builtinRow_only, ↓ite_only, ite_self, h0, h1]

theorem execMicaTable_only {ks : List Comp} {r t : State} {cluster : LogNo} {s : State}
    (e : execMicaTable cluster s = .next t) (h0 : Comp.scratch ∈ ks) (h1 : Comp.runs ∈ ks) :
    ChangesOnly ks r t ↔ ChangesOnly ks r s := by
  injection e with e; subst e; simp only [↓tableRow_only, ↓ite_only, ite_self, h0, h1]

theorem execSmaxAcc_only {ks : List Comp} {r t : State} {cluster : LogNo} {s : State}
    (e : execSmaxAcc cluster s = .next t) (h0 : Comp.scratch ∈ ks) (h1 : Comp.runs ∈ ks) :
    ChangesOnly ks r t ↔ ChangesOnly ks r s := by
  injection e with e; subst e; simp only [↓smaxAccRow_only, ↓ite_only, ite_self, h0, h1]

theorem execSmaxNorm_only {ks : List Comp} {r t : State} {cluster : LogNo} {s : State}
    (e : execSmaxNorm cluster s = .next t) (h0 : Comp.scratch ∈ ks) (h1 : Comp.runs ∈ ks) :
    ChangesOnly ks r t ↔ ChangesOnly ks r s := by
  injection e with e; subst e; simp only [↓smaxNormRow_only, ↓ite_only, ite_self, h0, h1]

theorem execSmax1p_only {ks : List Comp} {r t : State} {cluster : LogNo} {s : State}
    (e : execSmax1p cluster s = .next t) (h0 : Comp.scratch ∈ ks) (h1 : Comp.runs ∈ ks) (h2 : Comp.telem ∈ ks) :
    ChangesOnly ks r t ↔ ChangesOnly ks r s := by
  injection e with e; subst e; simp only [↓smax1pRow_only, ↓ite_only, ite_self, h0, h1, h2]

theorem execRowscale_only {ks : List Comp} {r t : State} {cluster : LogNo} {s : State}
    (e : execRowscale cluster s = .next t) (h0 : Comp.scratch ∈ ks) (h1 : Comp.runs ∈ ks) :
    ChangesOnly ks r t ↔ ChangesOnly ks r s := by
  injection e with e; subst e; simp only [↓rowscaleRow_only, ↓ite_only, ite_self, h0, h1]

/-! ### Mprog -/

theorem setMprog_only {ks : List Comp} {r : State} (s : State) (rr : Run) (i : Nat) (m : Option MprogRun)
    (h0 : Comp.runs ∈ ks) :
    ChangesOnly ks r (State.setMprog s rr i m) ↔ ChangesOnly ks r s := by
  unfold State.setMprog; simp only [↓modRun_only, ↓ite_only, ite_self, h0]

theorem mprogWrite_only {ks : List Comp} {r : State} (s : State) (rr : Run) (i : Nat) (o : MicaOp) (g : Nat) (l : List MLane)
    (h0 : Comp.scratch ∈ ks) :
    ChangesOnly ks r (State.mprogWrite s rr i o g l) ↔ ChangesOnly ks r s := by
  unfold State.mprogWrite; simp [↓windowWrite_only, ↓forEach_only, ↓ite_only, ite_self, h0]

theorem mprogIssue_only {ks : List Comp} {r : State} (l : LogNo) (s : State)
    (h0 : Comp.runs ∈ ks) :
    ChangesOnly ks r (mprogIssue l s) ↔ ChangesOnly ks r s := by
  unfold mprogIssue; simp [↓onHead_only, ↓setMprog_only, ↓issue_only, ↓ite_only, ite_self, h0]

theorem mprogNext_only {ks : List Comp} {r : State} (s : State) (rr : Run) (i : Nat) (o : MicaOp) (steps : Nat) (m : MprogRun) (l : List MLane)
    (h0 : Comp.scratch ∈ ks) (h1 : Comp.runs ∈ ks) :
    ChangesOnly ks r (State.mprogNext s rr i o steps m l) ↔ ChangesOnly ks r s := by
  unfold State.mprogNext; simp only [↓setMprog_only, ↓mprogWrite_only, ↓flightDone_only, ↓ite_only, ite_self, h0, h1]

theorem mprogStepRow_only {ks : List Comp} {r : State} (op : Nat) (l : LogNo) (s : State)
    (h0 : Comp.scratch ∈ ks) (h1 : Comp.runs ∈ ks) :
    ChangesOnly ks r (mprogStepRow op l s) ↔ ChangesOnly ks r s := by
  unfold mprogStepRow; (repeat' split) <;> simp [↓mprogNext_only, ↓ite_only, ite_self, h0, h1]

theorem execMicaMprog_only {ks : List Comp} {r t : State} {cluster : LogNo} {s : State}
    (e : execMicaMprog cluster s = .next t) (h0 : Comp.runs ∈ ks) :
    ChangesOnly ks r t ↔ ChangesOnly ks r s := by
  injection e with e; subst e; simp only [↓mprogIssue_only, ↓ite_only, ite_self, h0]

theorem execMul_only {ks : List Comp} {r t : State} {cluster : LogNo} {s : State}
    (e : execMul cluster s = .next t) (h0 : Comp.scratch ∈ ks) (h1 : Comp.runs ∈ ks) :
    ChangesOnly ks r t ↔ ChangesOnly ks r s := by
  injection e with e; subst e; simp only [↓mprogStepRow_only, ↓ite_only, ite_self, h0, h1]

theorem execAdd_only {ks : List Comp} {r t : State} {cluster : LogNo} {s : State}
    (e : execAdd cluster s = .next t) (h0 : Comp.scratch ∈ ks) (h1 : Comp.runs ∈ ks) :
    ChangesOnly ks r t ↔ ChangesOnly ks r s := by
  injection e with e; subst e; simp only [↓mprogStepRow_only, ↓ite_only, ite_self, h0, h1]

theorem execFmq_only {ks : List Comp} {r t : State} {cluster : LogNo} {s : State}
    (e : execFmq cluster s = .next t) (h0 : Comp.scratch ∈ ks) (h1 : Comp.runs ∈ ks) :
    ChangesOnly ks r t ↔ ChangesOnly ks r s := by
  injection e with e; subst e; simp only [↓mprogStepRow_only, ↓ite_only, ite_self, h0, h1]

theorem execLut_only {ks : List Comp} {r t : State} {cluster : LogNo} {s : State}
    (e : execLut cluster s = .next t) (h0 : Comp.scratch ∈ ks) (h1 : Comp.runs ∈ ks) :
    ChangesOnly ks r t ↔ ChangesOnly ks r s := by
  injection e with e; subst e; simp only [↓mprogStepRow_only, ↓ite_only, ite_self, h0, h1]

theorem execCsel_only {ks : List Comp} {r t : State} {cluster : LogNo} {s : State}
    (e : execCsel cluster s = .next t) (h0 : Comp.scratch ∈ ks) (h1 : Comp.runs ∈ ks) :
    ChangesOnly ks r t ↔ ChangesOnly ks r s := by
  injection e with e; subst e; simp only [↓mprogStepRow_only, ↓ite_only, ite_self, h0, h1]

theorem execRred_only {ks : List Comp} {r t : State} {cluster : LogNo} {s : State}
    (e : execRred cluster s = .next t) (h0 : Comp.scratch ∈ ks) (h1 : Comp.runs ∈ ks) :
    ChangesOnly ks r t ↔ ChangesOnly ks r s := by
  injection e with e; subst e; simp only [↓mprogStepRow_only, ↓ite_only, ite_self, h0, h1]

theorem execRscale_only {ks : List Comp} {r t : State} {cluster : LogNo} {s : State}
    (e : execRscale cluster s = .next t) (h0 : Comp.scratch ∈ ks) (h1 : Comp.runs ∈ ks) :
    ChangesOnly ks r t ↔ ChangesOnly ks r s := by
  injection e with e; subst e; simp only [↓mprogStepRow_only, ↓ite_only, ite_self, h0, h1]

end Sys2Proof.Machine
end

