-- ==== Sys2Proof/Laws/ChangesLifecycle.lean ====
section
/-!
SUPPORT. What each operation of the model may change: resets, power, start-up, temperature, telemetry and transfers.
-/

set_option linter.all false

namespace Sys2Proof.Machine

/-! ### Reset -/

theorem changePhase_only {ks : List Comp} {r : State} (s : State) (p : BitVec 4) (fail : BitVec 8)
    (h0 : Comp.boot ∈ ks) :
    ChangesOnly ks r (State.changePhase s p fail) ↔ ChangesOnly ks r s := by
  unfold State.changePhase; simp only [↓upd_boot_only, ↓ite_only, ite_self, h0]

theorem setPhase_only {ks : List Comp} {r : State} (s : State) (p : BitVec 4) (fail : BitVec 8)
    (h0 : Comp.fns ∈ ks) (h1 : Comp.boot ∈ ks) (h2 : Comp.out ∈ ks) :
    ChangesOnly ks r (State.setPhase s p fail) ↔ ChangesOnly ks r s := by
  unfold State.setPhase; simp only [↓changePhase_only, ↓raiseAll_only, ↓ite_only, ite_self, h0, h1, h2]

theorem noteCause_only {ks : List Comp} {r : State} (s : State) (c : BitVec 8)
    (h0 : Comp.faults ∈ ks) (h1 : Comp.boot ∈ ks) (h2 : Comp.telem ∈ ks) :
    ChangesOnly ks r (State.noteCause s c) ↔ ChangesOnly ks r s := by
  unfold State.noteCause; simp only [↓fault_only, ↓upd_boot_only, ↓ite_only, ite_self, h0, h1, h2]

theorem stopWork_only {ks : List Comp} {r : State} (s : State)
    (h0 : Comp.remaps ∈ ks) (h1 : Comp.barriers ∈ ks) (h2 : Comp.waits ∈ ks) (h3 : Comp.progs ∈ ks) (h4 : Comp.copies ∈ ks) (h5 : Comp.chans ∈ ks) (h6 : Comp.lock ∈ ks) (h7 : Comp.ports ∈ ks) (h8 : Comp.outst ∈ ks) (h9 : Comp.logReads ∈ ks) (h10 : Comp.pieces ∈ ks) (h11 : Comp.scheduled ∈ ks) (h12 : Comp.deliveries ∈ ks) (h13 : Comp.tableLoads ∈ ks) (h14 : Comp.mprogLoads ∈ ks) (h15 : Comp.runs ∈ ks) (h16 : Comp.frames ∈ ks) (h17 : Comp.stores ∈ ks) (h18 : Comp.loaded ∈ ks) :
    ChangesOnly ks r (State.stopWork s) ↔ ChangesOnly ks r s := by
  unfold State.stopWork; simp only [↓upd_barriers_only, ↓upd_remaps_only, ↓upd_outst_copies_deliveries_waits_barriers_progs_scheduled_tableLoads_mprogLoads_runs_ports_chans_frames_stores_pieces_loaded_lock_logReads_remaps_only, ↓upd_frames_lock_only, ↓upd_chans_only, ↓upd_copies_only, ↓upd_outst_only, ↓upd_progs_only, ↓upd_tableLoads_only, ↓upd_logReads_only, ↓upd_pieces_loaded_only, ↓upd_scheduled_chans_only, ↓upd_deliveries_only, ↓upd_scheduled_only, ↓upd_stores_only, ↓upd_frames_only, ↓upd_lock_only, ↓upd_progs_frames_only, ↓upd_waits_only, ↓upd_deliveries_runs_chans_loaded_only, ↓upd_pieces_only, ↓upd_runs_only, ↓upd_mprogLoads_only, ↓upd_ports_only, ↓ite_only, ite_self, h0, h1, h2, h3, h4, h5, h6, h7, h8, h9, h10, h11, h12, h13, h14, h15, h16, h17, h18]

theorem tellHost_only {ks : List Comp} {r : State} (s : State) (cause : BitVec 8)
    (h0 : Comp.waits ∈ ks) (h1 : Comp.progs ∈ ks) (h2 : Comp.fns ∈ ks) (h3 : Comp.chans ∈ ks) (h4 : Comp.clusters ∈ ks) (h5 : Comp.lock ∈ ks) (h6 : Comp.ports ∈ ks) (h7 : Comp.outst ∈ ks) (h8 : Comp.deliveries ∈ ks) (h9 : Comp.geo ∈ ks) (h10 : Comp.runs ∈ ks) (h11 : Comp.frames ∈ ks) (h12 : Comp.out ∈ ks) (h13 : Comp.telem ∈ ks) (h14 : Comp.loaded ∈ ks) :
    ChangesOnly ks r (State.tellHost s cause) ↔ ChangesOnly ks r s := by
  unfold State.tellHost; simp [↓complete_only, ↓announceAll_only, ↓abortAll_only, ↓abortWaiting_only, ↓resetShorts_only, ↓upd_ports_only, ↓forEach_only, ↓ite_only, ite_self, h0, h1, h2, h3, h4, h5, h6, h7, h8, h9, h10, h11, h12, h13, h14]

theorem dropLink_only {ks : List Comp} {r : State} (s : State)
    (h0 : Comp.fns ∈ ks) (h1 : Comp.outst ∈ ks) (h2 : Comp.boot ∈ ks) :
    ChangesOnly ks r (State.dropLink s) ↔ ChangesOnly ks r s := by
  unfold State.dropLink; simp only [↓upd_boot_only, ↓upd_fns_outst_only, ↓upd_outst_only, ↓upd_fns_outst_boot_only, ↓upd_fns_only, ↓ite_only, ite_self, h0, h1, h2]

theorem haltAll_only {ks : List Comp} {r : State} (s : State) (cause : BitVec 8)
    (h0 : Comp.remaps ∈ ks) (h1 : Comp.barriers ∈ ks) (h2 : Comp.waits ∈ ks) (h3 : Comp.progs ∈ ks) (h4 : Comp.copies ∈ ks) (h5 : Comp.fns ∈ ks) (h6 : Comp.chans ∈ ks) (h7 : Comp.clusters ∈ ks) (h8 : Comp.lock ∈ ks) (h9 : Comp.ports ∈ ks) (h10 : Comp.outst ∈ ks) (h11 : Comp.logReads ∈ ks) (h12 : Comp.pieces ∈ ks) (h13 : Comp.scheduled ∈ ks) (h14 : Comp.deliveries ∈ ks) (h15 : Comp.geo ∈ ks) (h16 : Comp.tableLoads ∈ ks) (h17 : Comp.mprogLoads ∈ ks) (h18 : Comp.runs ∈ ks) (h19 : Comp.frames ∈ ks) (h20 : Comp.boot ∈ ks) (h21 : Comp.out ∈ ks) (h22 : Comp.telem ∈ ks) (h23 : Comp.stores ∈ ks) (h24 : Comp.loaded ∈ ks) :
    ChangesOnly ks r (State.haltAll s cause) ↔ ChangesOnly ks r s := by
  unfold State.haltAll; simp only [↓dropLink_only, ↓stopWork_only, ↓tellHost_only, ↓ite_only, ite_self, h0, h1, h2, h3, h4, h5, h6, h7, h8, h9, h10, h11, h12, h13, h14, h15, h16, h17, h18, h19, h20, h21, h22, h23, h24]

theorem stopPanel_only {ks : List Comp} {r : State} (x : State × Nat) (h0 : Comp.panel ∈ ks) (h1 : Comp.nv ∈ ks) :
    ChangesOnly ks r (stopPanel x).1.1 ↔ ChangesOnly ks r x.1 := by
  unfold stopPanel
  split
  · rfl
  · simp only [↓modPanel_only, h0, h1]
    rw [budgeted_only]; intro t; simp only [↓setDone_only, h0, h1]

theorem commitHeld_only {ks : List Comp} {r : State} (n : Nat) (p : State × Nat) (h0 : Comp.faults ∈ ks) :
    ChangesOnly ks r (commitHeld n p).1 ↔ ChangesOnly ks r p.1 := by
  induction n generalizing p with
  | zero => simp only [commitHeld]
  | succ n ih =>
    rw [commitHeld]
    (repeat' split) <;> (try rfl) <;> simp only [↓ih, ↓upd_faults_only, h0]

theorem minimalRecord_only {ks : List Comp} {r : State} (s : State) (tick : Tick) (strata : W16) (detail : BitVec 224)
    (h0 : Comp.faults ∈ ks) :
    ChangesOnly ks r (State.minimalRecord s tick strata detail) ↔ ChangesOnly ks r s := by
  unfold State.minimalRecord; simp only [↓upd_faults_only, ↓ite_only, ite_self, h0]

theorem safePoint_only {ks : List Comp} {r : State} (s : State) (writes : Nat) (tick : Tick) (strata : W16)
    (h0 : Comp.panel ∈ ks) (h1 : Comp.faults ∈ ks) (h2 : Comp.nv ∈ ks) (h3 : Comp.free ∈ ks) :
    ChangesOnly ks r (State.safePoint s writes tick strata) ↔ ChangesOnly ks r s := by
  unfold State.safePoint; simp [↓endNvs_only, ↓stopPanel_only, ↓commitHeld_only, ↓budgeted_only, ↓minimalRecord_only, ↓ite_only, ite_self, h0, h1, h2, h3]

theorem pcieReset_only {ks : List Comp} {r : State} (s : State)
    (h0 : Comp.fns ∈ ks) (h1 : Comp.outst ∈ ks) (h2 : Comp.sup ∈ ks) (h3 : Comp.logReads ∈ ks) (h4 : Comp.panel ∈ ks) (h5 : Comp.boot ∈ ks) (h6 : Comp.nv ∈ ks) (h7 : Comp.free ∈ ks) :
    ChangesOnly ks r (State.pcieReset s) ↔ ChangesOnly ks r s := by
  unfold State.pcieReset; simp only [↓endNvs_only, ↓modPanel_only, ↓stopRefresh_only, ↓upd_boot_only, ↓upd_sup_only, ↓upd_fns_outst_only, ↓upd_outst_only, ↓upd_logReads_only, ↓upd_fns_outst_sup_boot_logReads_only, ↓upd_fns_outst_boot_only, ↓upd_fns_only, ↓ite_only, ite_self, h0, h1, h2, h3, h4, h5, h6, h7]

theorem wipe_only {ks : List Comp} {r : State} (s : State) (reason : BitVec 8)
    (h0 : Comp.remaps ∈ ks) (h1 : Comp.mprogs ∈ ks) (h2 : Comp.slots ∈ ks) (h3 : Comp.barriers ∈ ks) (h4 : Comp.waits ∈ ks) (h5 : Comp.progs ∈ ks) (h6 : Comp.copies ∈ ks) (h7 : Comp.chans ∈ ks) (h8 : Comp.plans ∈ ks) (h9 : Comp.clusters ∈ ks) (h10 : Comp.lock ∈ ks) (h11 : Comp.ports ∈ ks) (h12 : Comp.outst ∈ ks) (h13 : Comp.ext ∈ ks) (h14 : Comp.logReads ∈ ks) (h15 : Comp.pieces ∈ ks) (h16 : Comp.scheduled ∈ ks) (h17 : Comp.deliveries ∈ ks) (h18 : Comp.geo ∈ ks) (h19 : Comp.tableLoads ∈ ks) (h20 : Comp.mprogLoads ∈ ks) (h21 : Comp.scratch ∈ ks) (h22 : Comp.runs ∈ ks) (h23 : Comp.frames ∈ ks) (h24 : Comp.strata ∈ ks) (h25 : Comp.telem ∈ ks) (h26 : Comp.free ∈ ks) (h27 : Comp.tables ∈ ks) (h28 : Comp.stores ∈ ks) (h29 : Comp.loaded ∈ ks) (h30 : Comp.repro ∈ ks) (h31 : Comp.lanes ∈ ks) :
    ChangesOnly ks r (State.wipe s reason) ↔ ChangesOnly ks r s := by
  unfold State.wipe; simp only [↓draw_only, ↓stopWork_only, ↓upd_lanes_only, ↓upd_ext_only, ↓upd_mprogs_only, ↓upd_tables_only, ↓upd_clusters_only, ↓upd_telem_only, ↓upd_plans_only, ↓upd_strata_geo_ext_plans_scratch_clusters_tables_mprogs_ports_lanes_repro_telem_slots_only, ↓upd_geo_only, ↓upd_scratch_clusters_only, ↓upd_tables_mprogs_only, ↓upd_repro_only, ↓upd_ext_slots_only, ↓upd_scratch_only, ↓upd_slots_only, ↓upd_ports_only, ↓upd_ext_telem_only, ↓upd_strata_only, ↓ite_only, ite_self, h0, h1, h2, h3, h4, h5, h6, h7, h8, h9, h10, h11, h12, h13, h14, h15, h16, h17, h18, h19, h20, h21, h22, h23, h24, h25, h26, h27, h28, h29, h30, h31]

theorem hostWipe_only {ks : List Comp} {r : State} (s : State)
    (h0 : Comp.remaps ∈ ks) (h1 : Comp.mprogs ∈ ks) (h2 : Comp.slots ∈ ks) (h3 : Comp.barriers ∈ ks) (h4 : Comp.waits ∈ ks) (h5 : Comp.progs ∈ ks) (h6 : Comp.copies ∈ ks) (h7 : Comp.chans ∈ ks) (h8 : Comp.plans ∈ ks) (h9 : Comp.clusters ∈ ks) (h10 : Comp.lock ∈ ks) (h11 : Comp.ports ∈ ks) (h12 : Comp.outst ∈ ks) (h13 : Comp.ext ∈ ks) (h14 : Comp.logReads ∈ ks) (h15 : Comp.pieces ∈ ks) (h16 : Comp.scheduled ∈ ks) (h17 : Comp.deliveries ∈ ks) (h18 : Comp.geo ∈ ks) (h19 : Comp.tableLoads ∈ ks) (h20 : Comp.panel ∈ ks) (h21 : Comp.mprogLoads ∈ ks) (h22 : Comp.toReplace ∈ ks) (h23 : Comp.scratch ∈ ks) (h24 : Comp.runs ∈ ks) (h25 : Comp.frames ∈ ks) (h26 : Comp.strata ∈ ks) (h27 : Comp.telem ∈ ks) (h28 : Comp.thermal ∈ ks) (h29 : Comp.free ∈ ks) (h30 : Comp.tables ∈ ks) (h31 : Comp.units ∈ ks) (h32 : Comp.stores ∈ ks) (h33 : Comp.loaded ∈ ks) (h34 : Comp.repro ∈ ks) (h35 : Comp.lanes ∈ ks) :
    ChangesOnly ks r (State.hostWipe s) ↔ ChangesOnly ks r s := by
  unfold State.hostWipe; simp [↓whiten_only, ↓stripChanged_only, ↓wipe_only, ↓upd_units_toReplace_thermal_only, ↓upd_toReplace_only, ↓upd_units_only, ↓upd_thermal_only, ↓forEach_only, ↓ite_only, ite_self, h0, h1, h2, h3, h4, h5, h6, h7, h8, h9, h10, h11, h12, h13, h14, h15, h16, h17, h18, h19, h20, h21, h22, h23, h24, h25, h26, h27, h28, h29, h30, h31, h32, h33, h34, h35]

theorem bootRom_only {ks : List Comp} {r : State} (s : State)
    (h0 : Comp.boot ∈ ks) :
    ChangesOnly ks r (State.bootRom s) ↔ ChangesOnly ks r s := by
  unfold State.bootRom; simp only [↓upd_boot_only, ↓ite_only, ite_self, h0]

theorem newKey_only {ks : List Comp} {r : State} (s : State)
    (h0 : Comp.strata ∈ ks) (h1 : Comp.free ∈ ks) :
    ChangesOnly ks r (State.newKey s) ↔ ChangesOnly ks r s := by
  unfold State.newKey; simp only [↓draw_only, ↓modStratum_only, ↓ite_only, ite_self, h0, h1]

theorem hostReset_only {ks : List Comp} {r : State} (s : State) (cause : BitVec 8)
    (h0 : Comp.remaps ∈ ks) (h1 : Comp.mprogs ∈ ks) (h2 : Comp.slots ∈ ks) (h3 : Comp.barriers ∈ ks) (h4 : Comp.waits ∈ ks) (h5 : Comp.progs ∈ ks) (h6 : Comp.copies ∈ ks) (h7 : Comp.fns ∈ ks) (h8 : Comp.chans ∈ ks) (h9 : Comp.plans ∈ ks) (h10 : Comp.clusters ∈ ks) (h11 : Comp.lock ∈ ks) (h12 : Comp.ports ∈ ks) (h13 : Comp.outst ∈ ks) (h14 : Comp.sup ∈ ks) (h15 : Comp.ext ∈ ks) (h16 : Comp.logReads ∈ ks) (h17 : Comp.pieces ∈ ks) (h18 : Comp.scheduled ∈ ks) (h19 : Comp.deliveries ∈ ks) (h20 : Comp.geo ∈ ks) (h21 : Comp.tableLoads ∈ ks) (h22 : Comp.panel ∈ ks) (h23 : Comp.mprogLoads ∈ ks) (h24 : Comp.faults ∈ ks) (h25 : Comp.toReplace ∈ ks) (h26 : Comp.scratch ∈ ks) (h27 : Comp.runs ∈ ks) (h28 : Comp.frames ∈ ks) (h29 : Comp.strata ∈ ks) (h30 : Comp.boot ∈ ks) (h31 : Comp.out ∈ ks) (h32 : Comp.telem ∈ ks) (h33 : Comp.thermal ∈ ks) (h34 : Comp.nv ∈ ks) (h35 : Comp.free ∈ ks) (h36 : Comp.tables ∈ ks) (h37 : Comp.units ∈ ks) (h38 : Comp.stores ∈ ks) (h39 : Comp.loaded ∈ ks) (h40 : Comp.repro ∈ ks) (h41 : Comp.lanes ∈ ks) :
    ChangesOnly ks r (State.hostReset s cause) ↔ ChangesOnly ks r s := by
  unfold State.hostReset; simp only [↓pcieReset_only, ↓noteCause_only, ↓hostWipe_only, ↓newKey_only, ↓settlePlan_only, ↓setPhase_only, ↓bootRom_only, ↓ite_only, ite_self, h0, h1, h2, h3, h4, h5, h6, h7, h8, h9, h10, h11, h12, h13, h14, h15, h16, h17, h18, h19, h20, h21, h22, h23, h24, h25, h26, h27, h28, h29, h30, h31, h32, h33, h34, h35, h36, h37, h38, h39, h40, h41]

theorem moduleWipe_only {ks : List Comp} {r : State} (s : State)
    (h0 : Comp.remaps ∈ ks) (h1 : Comp.mprogs ∈ ks) (h2 : Comp.slots ∈ ks) (h3 : Comp.barriers ∈ ks) (h4 : Comp.waits ∈ ks) (h5 : Comp.progs ∈ ks) (h6 : Comp.copies ∈ ks) (h7 : Comp.fns ∈ ks) (h8 : Comp.chans ∈ ks) (h9 : Comp.plans ∈ ks) (h10 : Comp.clusters ∈ ks) (h11 : Comp.lock ∈ ks) (h12 : Comp.ports ∈ ks) (h13 : Comp.outst ∈ ks) (h14 : Comp.sup ∈ ks) (h15 : Comp.ext ∈ ks) (h16 : Comp.logReads ∈ ks) (h17 : Comp.pieces ∈ ks) (h18 : Comp.mapping ∈ ks) (h19 : Comp.scheduled ∈ ks) (h20 : Comp.deliveries ∈ ks) (h21 : Comp.geo ∈ ks) (h22 : Comp.tableLoads ∈ ks) (h23 : Comp.panel ∈ ks) (h24 : Comp.mprogLoads ∈ ks) (h25 : Comp.faults ∈ ks) (h26 : Comp.toReplace ∈ ks) (h27 : Comp.scratch ∈ ks) (h28 : Comp.runs ∈ ks) (h29 : Comp.frames ∈ ks) (h30 : Comp.strata ∈ ks) (h31 : Comp.boot ∈ ks) (h32 : Comp.telem ∈ ks) (h33 : Comp.thermal ∈ ks) (h34 : Comp.nv ∈ ks) (h35 : Comp.free ∈ ks) (h36 : Comp.tables ∈ ks) (h37 : Comp.units ∈ ks) (h38 : Comp.stores ∈ ks) (h39 : Comp.loaded ∈ ks) (h40 : Comp.repro ∈ ks) (h41 : Comp.lanes ∈ ks) :
    ChangesOnly ks r (State.moduleWipe s) ↔ ChangesOnly ks r s := by
  unfold State.moduleWipe; simp only [↓wipe_only, ↓bootRom_only, ↓upd_boot_only, ↓upd_units_toReplace_thermal_only, ↓upd_ext_only, ↓upd_sup_only, ↓upd_toReplace_only, ↓upd_ext_boot_only, ↓upd_nv_only, ↓upd_plans_only, ↓upd_faults_only, ↓upd_fns_ext_sup_plans_boot_units_mapping_toReplace_faults_nv_panel_thermal_only, ↓upd_panel_only, ↓upd_fns_only, ↓upd_units_only, ↓upd_nv_panel_only, ↓upd_thermal_only, ↓upd_sup_boot_faults_panel_only, ↓upd_mapping_only, ↓upd_mapping_toReplace_only, ↓ite_only, ite_self, h0, h1, h2, h3, h4, h5, h6, h7, h8, h9, h10, h11, h12, h13, h14, h15, h16, h17, h18, h19, h20, h21, h22, h23, h24, h25, h26, h27, h28, h29, h30, h31, h32, h33, h34, h35, h36, h37, h38, h39, h40, h41]

theorem moduleReset_only {ks : List Comp} {r : State} (s : State)
    (h0 : Comp.remaps ∈ ks) (h1 : Comp.mprogs ∈ ks) (h2 : Comp.slots ∈ ks) (h3 : Comp.barriers ∈ ks) (h4 : Comp.waits ∈ ks) (h5 : Comp.progs ∈ ks) (h6 : Comp.copies ∈ ks) (h7 : Comp.fns ∈ ks) (h8 : Comp.chans ∈ ks) (h9 : Comp.plans ∈ ks) (h10 : Comp.clusters ∈ ks) (h11 : Comp.lock ∈ ks) (h12 : Comp.ports ∈ ks) (h13 : Comp.outst ∈ ks) (h14 : Comp.sup ∈ ks) (h15 : Comp.ext ∈ ks) (h16 : Comp.logReads ∈ ks) (h17 : Comp.pieces ∈ ks) (h18 : Comp.mapping ∈ ks) (h19 : Comp.scheduled ∈ ks) (h20 : Comp.deliveries ∈ ks) (h21 : Comp.geo ∈ ks) (h22 : Comp.tableLoads ∈ ks) (h23 : Comp.panel ∈ ks) (h24 : Comp.mprogLoads ∈ ks) (h25 : Comp.faults ∈ ks) (h26 : Comp.toReplace ∈ ks) (h27 : Comp.scratch ∈ ks) (h28 : Comp.runs ∈ ks) (h29 : Comp.frames ∈ ks) (h30 : Comp.strata ∈ ks) (h31 : Comp.boot ∈ ks) (h32 : Comp.telem ∈ ks) (h33 : Comp.thermal ∈ ks) (h34 : Comp.nv ∈ ks) (h35 : Comp.free ∈ ks) (h36 : Comp.tables ∈ ks) (h37 : Comp.units ∈ ks) (h38 : Comp.stores ∈ ks) (h39 : Comp.loaded ∈ ks) (h40 : Comp.repro ∈ ks) (h41 : Comp.lanes ∈ ks) :
    ChangesOnly ks r (State.moduleReset s) ↔ ChangesOnly ks r s := by
  unfold State.moduleReset; simp only [↓moduleWipe_only, ↓fault_only, ↓faultAt_only, ↓upd_boot_only, ↓ite_only, ite_self, h0, h1, h2, h3, h4, h5, h6, h7, h8, h9, h10, h11, h12, h13, h14, h15, h16, h17, h18, h19, h20, h21, h22, h23, h24, h25, h26, h27, h28, h29, h30, h31, h32, h33, h34, h35, h36, h37, h38, h39, h40, h41]

theorem measure_only {ks : List Comp} {r : State} (s : State) (v : Volts)
    (h0 : Comp.sup ∈ ks) :
    ChangesOnly ks r (State.measure s v) ↔ ChangesOnly ks r s := by
  unfold State.measure; simp only [↓upd_sup_only, ↓ite_only, ite_self, h0]

theorem powerOnReset_only {ks : List Comp} {r : State} (s : State) (cause : BitVec 8) (v : Volts)
    (h0 : Comp.remaps ∈ ks) (h1 : Comp.mprogs ∈ ks) (h2 : Comp.slots ∈ ks) (h3 : Comp.barriers ∈ ks) (h4 : Comp.waits ∈ ks) (h5 : Comp.progs ∈ ks) (h6 : Comp.copies ∈ ks) (h7 : Comp.fns ∈ ks) (h8 : Comp.chans ∈ ks) (h9 : Comp.tick ∈ ks) (h10 : Comp.plans ∈ ks) (h11 : Comp.clusters ∈ ks) (h12 : Comp.lock ∈ ks) (h13 : Comp.ports ∈ ks) (h14 : Comp.outst ∈ ks) (h15 : Comp.sup ∈ ks) (h16 : Comp.ext ∈ ks) (h17 : Comp.logReads ∈ ks) (h18 : Comp.pieces ∈ ks) (h19 : Comp.mapping ∈ ks) (h20 : Comp.scheduled ∈ ks) (h21 : Comp.deliveries ∈ ks) (h22 : Comp.geo ∈ ks) (h23 : Comp.tableLoads ∈ ks) (h24 : Comp.panel ∈ ks) (h25 : Comp.mprogLoads ∈ ks) (h26 : Comp.faults ∈ ks) (h27 : Comp.toReplace ∈ ks) (h28 : Comp.withhold ∈ ks) (h29 : Comp.scratch ∈ ks) (h30 : Comp.runs ∈ ks) (h31 : Comp.frames ∈ ks) (h32 : Comp.strata ∈ ks) (h33 : Comp.boot ∈ ks) (h34 : Comp.telem ∈ ks) (h35 : Comp.thermal ∈ ks) (h36 : Comp.nv ∈ ks) (h37 : Comp.free ∈ ks) (h38 : Comp.tables ∈ ks) (h39 : Comp.units ∈ ks) (h40 : Comp.stores ∈ ks) (h41 : Comp.loaded ∈ ks) (h42 : Comp.repro ∈ ks) (h43 : Comp.lanes ∈ ks) :
    ChangesOnly ks r (State.powerOnReset s cause v) ↔ ChangesOnly ks r s := by
  unfold State.powerOnReset; simp only [↓moduleWipe_only, ↓noteCause_only, ↓upd_withhold_only, ↓upd_boot_only, ↓upd_sup_only, ↓upd_faults_only, ↓upd_tick_withhold_only, ↓upd_panel_only, ↓upd_sup_boot_faults_panel_only, ↓upd_tick_only, ↓ite_only, ite_self, h0, h1, h2, h3, h4, h5, h6, h7, h8, h9, h10, h11, h12, h13, h14, h15, h16, h17, h18, h19, h20, h21, h22, h23, h24, h25, h26, h27, h28, h29, h30, h31, h32, h33, h34, h35, h36, h37, h38, h39, h40, h41, h42, h43]

theorem functionReset_only {ks : List Comp} {r : State} (s : State) (n : FnNo)
    (h0 : Comp.barriers ∈ ks) (h1 : Comp.waits ∈ ks) (h2 : Comp.progs ∈ ks) (h3 : Comp.copies ∈ ks) (h4 : Comp.fns ∈ ks) (h5 : Comp.chans ∈ ks) (h6 : Comp.clusters ∈ ks) (h7 : Comp.lock ∈ ks) (h8 : Comp.ports ∈ ks) (h9 : Comp.outst ∈ ks) (h10 : Comp.logReads ∈ ks) (h11 : Comp.scheduled ∈ ks) (h12 : Comp.deliveries ∈ ks) (h13 : Comp.geo ∈ ks) (h14 : Comp.tableLoads ∈ ks) (h15 : Comp.panel ∈ ks) (h16 : Comp.mprogLoads ∈ ks) (h17 : Comp.runs ∈ ks) (h18 : Comp.frames ∈ ks) (h19 : Comp.out ∈ ks) (h20 : Comp.telem ∈ ks) (h21 : Comp.nv ∈ ks) (h22 : Comp.stores ∈ ks) (h23 : Comp.loaded ∈ ks) :
    ChangesOnly ks r (State.functionReset s n) ↔ ChangesOnly ks r s := by
  unfold State.functionReset; simp [↓forgetWork_only, ↓resetFunc_only, ↓stopRefresh_only, ↓delFrame_only, ↓releaseFrame_only, ↓endRun_only, ↓endUnbinds_only, ↓settlePool_only, ↓upd_chans_only, ↓upd_progs_only, ↓upd_deliveries_only, ↓upd_frames_only, ↓upd_progs_frames_only, ↓forEach_only, ↓ite_only, ite_self, h0, h1, h2, h3, h4, h5, h6, h7, h8, h9, h10, h11, h12, h13, h14, h15, h16, h17, h18, h19, h20, h21, h22, h23]

theorem setVfs_only {ks : List Comp} {r : State} (s : State) (enable : Bool) (num : Nat)
    (h0 : Comp.barriers ∈ ks) (h1 : Comp.waits ∈ ks) (h2 : Comp.progs ∈ ks) (h3 : Comp.copies ∈ ks) (h4 : Comp.fns ∈ ks) (h5 : Comp.chans ∈ ks) (h6 : Comp.clusters ∈ ks) (h7 : Comp.lock ∈ ks) (h8 : Comp.ports ∈ ks) (h9 : Comp.outst ∈ ks) (h10 : Comp.logReads ∈ ks) (h11 : Comp.scheduled ∈ ks) (h12 : Comp.deliveries ∈ ks) (h13 : Comp.geo ∈ ks) (h14 : Comp.tableLoads ∈ ks) (h15 : Comp.panel ∈ ks) (h16 : Comp.mprogLoads ∈ ks) (h17 : Comp.runs ∈ ks) (h18 : Comp.frames ∈ ks) (h19 : Comp.boot ∈ ks) (h20 : Comp.out ∈ ks) (h21 : Comp.telem ∈ ks) (h22 : Comp.nv ∈ ks) (h23 : Comp.stores ∈ ks) (h24 : Comp.loaded ∈ ks) :
    ChangesOnly ks r (State.setVfs s enable num) ↔ ChangesOnly ks r s := by
  unfold State.setVfs; simp [↓functionReset_only, ↓upd_boot_only, ↓forEach_only, ↓ite_only, ite_self, h0, h1, h2, h3, h4, h5, h6, h7, h8, h9, h10, h11, h12, h13, h14, h15, h16, h17, h18, h19, h20, h21, h22, h23, h24]

theorem enterFatal_only {ks : List Comp} {r : State} (s : State) (cause : BitVec 8) (unit : W16) (data : List W32)
    (h0 : Comp.remaps ∈ ks) (h1 : Comp.barriers ∈ ks) (h2 : Comp.waits ∈ ks) (h3 : Comp.progs ∈ ks) (h4 : Comp.copies ∈ ks) (h5 : Comp.fns ∈ ks) (h6 : Comp.chans ∈ ks) (h7 : Comp.lock ∈ ks) (h8 : Comp.ports ∈ ks) (h9 : Comp.outst ∈ ks) (h10 : Comp.logReads ∈ ks) (h11 : Comp.pieces ∈ ks) (h12 : Comp.scheduled ∈ ks) (h13 : Comp.deliveries ∈ ks) (h14 : Comp.tableLoads ∈ ks) (h15 : Comp.mprogLoads ∈ ks) (h16 : Comp.runs ∈ ks) (h17 : Comp.frames ∈ ks) (h18 : Comp.boot ∈ ks) (h19 : Comp.out ∈ ks) (h20 : Comp.stores ∈ ks) (h21 : Comp.loaded ∈ ks) :
    ChangesOnly ks r (State.enterFatal s cause unit data) ↔ ChangesOnly ks r s := by
  unfold State.enterFatal; simp only [↓stopWork_only, ↓changePhase_only, ↓raiseAll_only, ↓upd_boot_only, ↓ite_only, ite_self, h0, h1, h2, h3, h4, h5, h6, h7, h8, h9, h10, h11, h12, h13, h14, h15, h16, h17, h18, h19, h20, h21]

/-! ### Power -/

theorem modSup_only {ks : List Comp} {r : State} (s : State) (f : Supply → Supply)
    (h0 : Comp.sup ∈ ks) :
    ChangesOnly ks r (State.modSup s f) ↔ ChangesOnly ks r s := by
  unfold State.modSup; simp only [↓upd_sup_only, ↓ite_only, ite_self, h0]

theorem capMoved_only {ks : List Comp} {r : State} (s : State) (before : Nat)
    (h0 : Comp.waits ∈ ks) (h1 : Comp.fns ∈ ks) (h2 : Comp.out ∈ ks) (h3 : Comp.repro ∈ ks) :
    ChangesOnly ks r (State.capMoved s before) ↔ ChangesOnly ks r s := by
  unfold State.capMoved; simp only [↓breakAll_only, ↓ite_only, ite_self, h0, h1, h2, h3]

theorem switchToAux_only {ks : List Comp} {r : State} (s : State)
    (h0 : Comp.slots ∈ ks) (h1 : Comp.waits ∈ ks) (h2 : Comp.fns ∈ ks) (h3 : Comp.plans ∈ ks) (h4 : Comp.sup ∈ ks) (h5 : Comp.out ∈ ks) (h6 : Comp.telem ∈ ks) (h7 : Comp.repro ∈ ks) :
    ChangesOnly ks r (State.switchToAux s) ↔ ChangesOnly ks r s := by
  unfold State.switchToAux; simp only [↓throttle_only, ↓modSup_only, ↓lapse_only, ↓capMoved_only, ↓settlePlan_only, ↓upd_plans_only, ↓ite_only, ite_self, h0, h1, h2, h3, h4, h5, h6, h7]

theorem selectSource_only {ks : List Comp} {r : State} (s : State)
    (h0 : Comp.slots ∈ ks) (h1 : Comp.waits ∈ ks) (h2 : Comp.fns ∈ ks) (h3 : Comp.plans ∈ ks) (h4 : Comp.sup ∈ ks) (h5 : Comp.out ∈ ks) (h6 : Comp.telem ∈ ks) (h7 : Comp.repro ∈ ks) :
    ChangesOnly ks r (State.selectSource s) ↔ ChangesOnly ks r s := by
  unfold State.selectSource; simp only [↓switchToAux_only, ↓modSup_only, ↓ite_only, ite_self, h0, h1, h2, h3, h4, h5, h6, h7]

theorem endCap70_only {ks : List Comp} {r : State} (s : State)
    (h0 : Comp.slots ∈ ks) (h1 : Comp.waits ∈ ks) (h2 : Comp.fns ∈ ks) (h3 : Comp.plans ∈ ks) (h4 : Comp.sup ∈ ks) (h5 : Comp.out ∈ ks) (h6 : Comp.repro ∈ ks) :
    ChangesOnly ks r (State.endCap70 s) ↔ ChangesOnly ks r s := by
  unfold State.endCap70; simp only [↓capMoved_only, ↓modSup_only, ↓settlePlan_only, ↓upd_plans_only, ↓ite_only, ite_self, h0, h1, h2, h3, h4, h5, h6]

theorem mainFalls_only {ks : List Comp} {r : State} (v : Volts) (s : State)
    (h0 : Comp.slots ∈ ks) (h1 : Comp.waits ∈ ks) (h2 : Comp.fns ∈ ks) (h3 : Comp.plans ∈ ks) (h4 : Comp.sup ∈ ks) (h5 : Comp.out ∈ ks) (h6 : Comp.telem ∈ ks) (h7 : Comp.repro ∈ ks) :
    ChangesOnly ks r (mainFalls v s) ↔ ChangesOnly ks r s := by
  unfold mainFalls; simp only [↓selectSource_only, ↓modSup_only, ↓measure_only, ↓ite_only, ite_self, h0, h1, h2, h3, h4, h5, h6, h7]

theorem auxFalls_only {ks : List Comp} {r : State} (v : Volts) (s : State)
    (h0 : Comp.slots ∈ ks) (h1 : Comp.waits ∈ ks) (h2 : Comp.fns ∈ ks) (h3 : Comp.plans ∈ ks) (h4 : Comp.sup ∈ ks) (h5 : Comp.out ∈ ks) (h6 : Comp.telem ∈ ks) (h7 : Comp.repro ∈ ks) :
    ChangesOnly ks r (auxFalls v s) ↔ ChangesOnly ks r s := by
  unfold auxFalls; simp only [↓selectSource_only, ↓modSup_only, ↓measure_only, ↓ite_only, ite_self, h0, h1, h2, h3, h4, h5, h6, h7]

theorem auxRises_only {ks : List Comp} {r : State} (v : Volts) (s : State)
    (h0 : Comp.slots ∈ ks) (h1 : Comp.waits ∈ ks) (h2 : Comp.fns ∈ ks) (h3 : Comp.plans ∈ ks) (h4 : Comp.sup ∈ ks) (h5 : Comp.out ∈ ks) (h6 : Comp.telem ∈ ks) (h7 : Comp.repro ∈ ks) :
    ChangesOnly ks r (auxRises v s) ↔ ChangesOnly ks r s := by
  unfold auxRises; simp only [↓selectSource_only, ↓modSup_only, ↓measure_only, ↓ite_only, ite_self, h0, h1, h2, h3, h4, h5, h6, h7]

theorem mainRises_only {ks : List Comp} {r : State} (v : Volts) (s : State)
    (h0 : Comp.slots ∈ ks) (h1 : Comp.waits ∈ ks) (h2 : Comp.fns ∈ ks) (h3 : Comp.plans ∈ ks) (h4 : Comp.sup ∈ ks) (h5 : Comp.out ∈ ks) (h6 : Comp.telem ∈ ks) (h7 : Comp.repro ∈ ks) :
    ChangesOnly ks r (mainRises v s) ↔ ChangesOnly ks r s := by
  unfold mainRises; simp only [↓selectSource_only, ↓modSup_only, ↓measure_only, ↓ite_only, ite_self, h0, h1, h2, h3, h4, h5, h6, h7]

theorem leaveWait_only {ks : List Comp} {r : State} (s : State)
    (h0 : Comp.fns ∈ ks) (h1 : Comp.boot ∈ ks) (h2 : Comp.out ∈ ks) :
    ChangesOnly ks r (State.leaveWait s) ↔ ChangesOnly ks r s := by
  unfold State.leaveWait; simp only [↓setPhase_only, ↓ite_only, ite_self, h0, h1, h2]

theorem mainQualifies_only {ks : List Comp} {r : State} (v : Volts) (s : State)
    (h0 : Comp.slots ∈ ks) (h1 : Comp.waits ∈ ks) (h2 : Comp.fns ∈ ks) (h3 : Comp.plans ∈ ks) (h4 : Comp.sup ∈ ks) (h5 : Comp.boot ∈ ks) (h6 : Comp.out ∈ ks) (h7 : Comp.telem ∈ ks) (h8 : Comp.repro ∈ ks) :
    ChangesOnly ks r (mainQualifies v s) ↔ ChangesOnly ks r s := by
  unfold mainQualifies; simp only [↓modSup_only, ↓measure_only, ↓selectSource_only, ↓endCap70_only, ↓leaveWait_only, ↓ite_only, ite_self, h0, h1, h2, h3, h4, h5, h6, h7, h8]

theorem switchEnds_only {ks : List Comp} {r : State} (v : Volts) (s : State)
    (h0 : Comp.slots ∈ ks) (h1 : Comp.waits ∈ ks) (h2 : Comp.fns ∈ ks) (h3 : Comp.plans ∈ ks) (h4 : Comp.sup ∈ ks) (h5 : Comp.faults ∈ ks) (h6 : Comp.out ∈ ks) (h7 : Comp.telem ∈ ks) (h8 : Comp.repro ∈ ks) :
    ChangesOnly ks r (switchEnds v s) ↔ ChangesOnly ks r s := by
  unfold switchEnds; (repeat' split) <;> simp [↓modSup_only, ↓measure_only, ↓raise_only, ↓fault_only, ↓occurAll_only, ↓selectSource_only, ↓settlePlan_only, ↓endCap70_only, ↓ite_only, ite_self, h0, h1, h2, h3, h4, h5, h6, h7, h8]

theorem discardKeys_only {ks : List Comp} {r : State} (s : State)
    (h0 : Comp.strata ∈ ks) :
    ChangesOnly ks r (State.discardKeys s) ↔ ChangesOnly ks r s := by
  unfold State.discardKeys; simp only [↓upd_strata_only, ↓ite_only, ite_self, h0]

theorem enterHoldup_only {ks : List Comp} {r : State} (s : State)
    (h0 : Comp.jtag ∈ ks) (h1 : Comp.remaps ∈ ks) (h2 : Comp.barriers ∈ ks) (h3 : Comp.waits ∈ ks) (h4 : Comp.progs ∈ ks) (h5 : Comp.copies ∈ ks) (h6 : Comp.fns ∈ ks) (h7 : Comp.chans ∈ ks) (h8 : Comp.plans ∈ ks) (h9 : Comp.clusters ∈ ks) (h10 : Comp.lock ∈ ks) (h11 : Comp.ports ∈ ks) (h12 : Comp.outst ∈ ks) (h13 : Comp.sup ∈ ks) (h14 : Comp.logReads ∈ ks) (h15 : Comp.pieces ∈ ks) (h16 : Comp.scheduled ∈ ks) (h17 : Comp.deliveries ∈ ks) (h18 : Comp.geo ∈ ks) (h19 : Comp.tableLoads ∈ ks) (h20 : Comp.panel ∈ ks) (h21 : Comp.mprogLoads ∈ ks) (h22 : Comp.runs ∈ ks) (h23 : Comp.frames ∈ ks) (h24 : Comp.strata ∈ ks) (h25 : Comp.boot ∈ ks) (h26 : Comp.out ∈ ks) (h27 : Comp.telem ∈ ks) (h28 : Comp.stores ∈ ks) (h29 : Comp.loaded ∈ ks) :
    ChangesOnly ks r (State.enterHoldup s) ↔ ChangesOnly ks r s := by
  unfold State.enterHoldup; simp only [↓haltAll_only, ↓modSup_only, ↓discardKeys_only, ↓stopRefresh_only, ↓upd_boot_only, ↓upd_jtag_only, ↓upd_plans_only, ↓upd_plans_boot_ports_jtag_only, ↓upd_ports_only, ↓ite_only, ite_self, h0, h1, h2, h3, h4, h5, h6, h7, h8, h9, h10, h11, h12, h13, h14, h15, h16, h17, h18, h19, h20, h21, h22, h23, h24, h25, h26, h27, h28, h29]

theorem inputsLost_only {ks : List Comp} {r : State} (v : Volts) (s : State)
    (h0 : Comp.jtag ∈ ks) (h1 : Comp.remaps ∈ ks) (h2 : Comp.barriers ∈ ks) (h3 : Comp.waits ∈ ks) (h4 : Comp.progs ∈ ks) (h5 : Comp.copies ∈ ks) (h6 : Comp.fns ∈ ks) (h7 : Comp.chans ∈ ks) (h8 : Comp.plans ∈ ks) (h9 : Comp.clusters ∈ ks) (h10 : Comp.lock ∈ ks) (h11 : Comp.ports ∈ ks) (h12 : Comp.outst ∈ ks) (h13 : Comp.sup ∈ ks) (h14 : Comp.logReads ∈ ks) (h15 : Comp.pieces ∈ ks) (h16 : Comp.scheduled ∈ ks) (h17 : Comp.deliveries ∈ ks) (h18 : Comp.geo ∈ ks) (h19 : Comp.tableLoads ∈ ks) (h20 : Comp.panel ∈ ks) (h21 : Comp.mprogLoads ∈ ks) (h22 : Comp.runs ∈ ks) (h23 : Comp.frames ∈ ks) (h24 : Comp.strata ∈ ks) (h25 : Comp.boot ∈ ks) (h26 : Comp.out ∈ ks) (h27 : Comp.telem ∈ ks) (h28 : Comp.stores ∈ ks) (h29 : Comp.loaded ∈ ks) :
    ChangesOnly ks r (inputsLost v s) ↔ ChangesOnly ks r s := by
  unfold inputsLost; simp only [↓enterHoldup_only, ↓measure_only, ↓ite_only, ite_self, h0, h1, h2, h3, h4, h5, h6, h7, h8, h9, h10, h11, h12, h13, h14, h15, h16, h17, h18, h19, h20, h21, h22, h23, h24, h25, h26, h27, h28, h29]

theorem bankLow_only {ks : List Comp} {r : State} (s : State)
    (h0 : Comp.jtag ∈ ks) (h1 : Comp.remaps ∈ ks) (h2 : Comp.barriers ∈ ks) (h3 : Comp.waits ∈ ks) (h4 : Comp.progs ∈ ks) (h5 : Comp.copies ∈ ks) (h6 : Comp.fns ∈ ks) (h7 : Comp.chans ∈ ks) (h8 : Comp.plans ∈ ks) (h9 : Comp.clusters ∈ ks) (h10 : Comp.lock ∈ ks) (h11 : Comp.ports ∈ ks) (h12 : Comp.outst ∈ ks) (h13 : Comp.sup ∈ ks) (h14 : Comp.logReads ∈ ks) (h15 : Comp.pieces ∈ ks) (h16 : Comp.scheduled ∈ ks) (h17 : Comp.deliveries ∈ ks) (h18 : Comp.geo ∈ ks) (h19 : Comp.tableLoads ∈ ks) (h20 : Comp.panel ∈ ks) (h21 : Comp.mprogLoads ∈ ks) (h22 : Comp.runs ∈ ks) (h23 : Comp.frames ∈ ks) (h24 : Comp.strata ∈ ks) (h25 : Comp.boot ∈ ks) (h26 : Comp.out ∈ ks) (h27 : Comp.telem ∈ ks) (h28 : Comp.stores ∈ ks) (h29 : Comp.loaded ∈ ks) :
    ChangesOnly ks r (State.bankLow s) ↔ ChangesOnly ks r s := by
  unfold State.bankLow; simp only [↓enterHoldup_only, ↓ite_only, ite_self, h0, h1, h2, h3, h4, h5, h6, h7, h8, h9, h10, h11, h12, h13, h14, h15, h16, h17, h18, h19, h20, h21, h22, h23, h24, h25, h26, h27, h28, h29]

theorem leaveHoldup_only {ks : List Comp} {r : State} (s : State) (v : Volts)
    (h0 : Comp.remaps ∈ ks) (h1 : Comp.mprogs ∈ ks) (h2 : Comp.slots ∈ ks) (h3 : Comp.barriers ∈ ks) (h4 : Comp.waits ∈ ks) (h5 : Comp.progs ∈ ks) (h6 : Comp.copies ∈ ks) (h7 : Comp.fns ∈ ks) (h8 : Comp.chans ∈ ks) (h9 : Comp.tick ∈ ks) (h10 : Comp.plans ∈ ks) (h11 : Comp.clusters ∈ ks) (h12 : Comp.lock ∈ ks) (h13 : Comp.ports ∈ ks) (h14 : Comp.outst ∈ ks) (h15 : Comp.sup ∈ ks) (h16 : Comp.ext ∈ ks) (h17 : Comp.logReads ∈ ks) (h18 : Comp.pieces ∈ ks) (h19 : Comp.mapping ∈ ks) (h20 : Comp.scheduled ∈ ks) (h21 : Comp.deliveries ∈ ks) (h22 : Comp.geo ∈ ks) (h23 : Comp.tableLoads ∈ ks) (h24 : Comp.panel ∈ ks) (h25 : Comp.mprogLoads ∈ ks) (h26 : Comp.faults ∈ ks) (h27 : Comp.toReplace ∈ ks) (h28 : Comp.withhold ∈ ks) (h29 : Comp.scratch ∈ ks) (h30 : Comp.runs ∈ ks) (h31 : Comp.frames ∈ ks) (h32 : Comp.strata ∈ ks) (h33 : Comp.boot ∈ ks) (h34 : Comp.telem ∈ ks) (h35 : Comp.thermal ∈ ks) (h36 : Comp.nv ∈ ks) (h37 : Comp.free ∈ ks) (h38 : Comp.tables ∈ ks) (h39 : Comp.units ∈ ks) (h40 : Comp.stores ∈ ks) (h41 : Comp.loaded ∈ ks) (h42 : Comp.repro ∈ ks) (h43 : Comp.lanes ∈ ks) :
    ChangesOnly ks r (State.leaveHoldup s v) ↔ ChangesOnly ks r s := by
  unfold State.leaveHoldup; simp only [↓measure_only, ↓powerOnReset_only, ↓modSup_only, ↓ite_only, ite_self, h0, h1, h2, h3, h4, h5, h6, h7, h8, h9, h10, h11, h12, h13, h14, h15, h16, h17, h18, h19, h20, h21, h22, h23, h24, h25, h26, h27, h28, h29, h30, h31, h32, h33, h34, h35, h36, h37, h38, h39, h40, h41, h42, h43]

theorem holdupEnds_only {ks : List Comp} {r : State} (writes : Nat) (v : Volts) (s : State)
    (h0 : Comp.remaps ∈ ks) (h1 : Comp.mprogs ∈ ks) (h2 : Comp.slots ∈ ks) (h3 : Comp.barriers ∈ ks) (h4 : Comp.waits ∈ ks) (h5 : Comp.progs ∈ ks) (h6 : Comp.copies ∈ ks) (h7 : Comp.fns ∈ ks) (h8 : Comp.chans ∈ ks) (h9 : Comp.tick ∈ ks) (h10 : Comp.plans ∈ ks) (h11 : Comp.clusters ∈ ks) (h12 : Comp.lock ∈ ks) (h13 : Comp.ports ∈ ks) (h14 : Comp.outst ∈ ks) (h15 : Comp.sup ∈ ks) (h16 : Comp.ext ∈ ks) (h17 : Comp.logReads ∈ ks) (h18 : Comp.pieces ∈ ks) (h19 : Comp.mapping ∈ ks) (h20 : Comp.scheduled ∈ ks) (h21 : Comp.deliveries ∈ ks) (h22 : Comp.geo ∈ ks) (h23 : Comp.tableLoads ∈ ks) (h24 : Comp.panel ∈ ks) (h25 : Comp.mprogLoads ∈ ks) (h26 : Comp.faults ∈ ks) (h27 : Comp.toReplace ∈ ks) (h28 : Comp.withhold ∈ ks) (h29 : Comp.scratch ∈ ks) (h30 : Comp.runs ∈ ks) (h31 : Comp.frames ∈ ks) (h32 : Comp.strata ∈ ks) (h33 : Comp.boot ∈ ks) (h34 : Comp.telem ∈ ks) (h35 : Comp.thermal ∈ ks) (h36 : Comp.nv ∈ ks) (h37 : Comp.free ∈ ks) (h38 : Comp.tables ∈ ks) (h39 : Comp.units ∈ ks) (h40 : Comp.stores ∈ ks) (h41 : Comp.loaded ∈ ks) (h42 : Comp.repro ∈ ks) (h43 : Comp.lanes ∈ ks) :
    ChangesOnly ks r (holdupEnds writes v s) ↔ ChangesOnly ks r s := by
  unfold holdupEnds; simp only [↓leaveHoldup_only, ↓safePoint_only, ↓ite_only, ite_self, h0, h1, h2, h3, h4, h5, h6, h7, h8, h9, h10, h11, h12, h13, h14, h15, h16, h17, h18, h19, h20, h21, h22, h23, h24, h25, h26, h27, h28, h29, h30, h31, h32, h33, h34, h35, h36, h37, h38, h39, h40, h41, h42, h43]

theorem inputRises_only {ks : List Comp} {r : State} (v : Volts) (s : State)
    (h0 : Comp.remaps ∈ ks) (h1 : Comp.mprogs ∈ ks) (h2 : Comp.slots ∈ ks) (h3 : Comp.barriers ∈ ks) (h4 : Comp.waits ∈ ks) (h5 : Comp.progs ∈ ks) (h6 : Comp.copies ∈ ks) (h7 : Comp.fns ∈ ks) (h8 : Comp.chans ∈ ks) (h9 : Comp.tick ∈ ks) (h10 : Comp.plans ∈ ks) (h11 : Comp.clusters ∈ ks) (h12 : Comp.lock ∈ ks) (h13 : Comp.ports ∈ ks) (h14 : Comp.outst ∈ ks) (h15 : Comp.sup ∈ ks) (h16 : Comp.ext ∈ ks) (h17 : Comp.logReads ∈ ks) (h18 : Comp.pieces ∈ ks) (h19 : Comp.mapping ∈ ks) (h20 : Comp.scheduled ∈ ks) (h21 : Comp.deliveries ∈ ks) (h22 : Comp.geo ∈ ks) (h23 : Comp.tableLoads ∈ ks) (h24 : Comp.panel ∈ ks) (h25 : Comp.mprogLoads ∈ ks) (h26 : Comp.faults ∈ ks) (h27 : Comp.toReplace ∈ ks) (h28 : Comp.withhold ∈ ks) (h29 : Comp.scratch ∈ ks) (h30 : Comp.runs ∈ ks) (h31 : Comp.frames ∈ ks) (h32 : Comp.strata ∈ ks) (h33 : Comp.boot ∈ ks) (h34 : Comp.telem ∈ ks) (h35 : Comp.thermal ∈ ks) (h36 : Comp.nv ∈ ks) (h37 : Comp.free ∈ ks) (h38 : Comp.tables ∈ ks) (h39 : Comp.units ∈ ks) (h40 : Comp.stores ∈ ks) (h41 : Comp.loaded ∈ ks) (h42 : Comp.repro ∈ ks) (h43 : Comp.lanes ∈ ks) :
    ChangesOnly ks r (inputRises v s) ↔ ChangesOnly ks r s := by
  unfold inputRises; simp only [↓powerOnReset_only, ↓ite_only, ite_self, h0, h1, h2, h3, h4, h5, h6, h7, h8, h9, h10, h11, h12, h13, h14, h15, h16, h17, h18, h19, h20, h21, h22, h23, h24, h25, h26, h27, h28, h29, h30, h31, h32, h33, h34, h35, h36, h37, h38, h39, h40, h41, h42, h43]

theorem suspendErase_only {ks : List Comp} {r : State} (s : State)
    (h0 : Comp.waits ∈ ks) (h1 : Comp.fns ∈ ks) (h2 : Comp.out ∈ ks) (h3 : Comp.nv ∈ ks) :
    ChangesOnly ks r (State.suspendErase s) ↔ ChangesOnly ks r s := by
  unfold State.suspendErase; (repeat' split) <;> simp [↓pauseFront_only, ↓ite_only, ite_self, h0, h1, h2, h3]

theorem sagBegins_only {ks : List Comp} {r : State} (v : Volts) (s : State)
    (h0 : Comp.jtag ∈ ks) (h1 : Comp.remaps ∈ ks) (h2 : Comp.barriers ∈ ks) (h3 : Comp.waits ∈ ks) (h4 : Comp.progs ∈ ks) (h5 : Comp.copies ∈ ks) (h6 : Comp.fns ∈ ks) (h7 : Comp.chans ∈ ks) (h8 : Comp.plans ∈ ks) (h9 : Comp.clusters ∈ ks) (h10 : Comp.lock ∈ ks) (h11 : Comp.ports ∈ ks) (h12 : Comp.outst ∈ ks) (h13 : Comp.sup ∈ ks) (h14 : Comp.logReads ∈ ks) (h15 : Comp.pieces ∈ ks) (h16 : Comp.scheduled ∈ ks) (h17 : Comp.deliveries ∈ ks) (h18 : Comp.geo ∈ ks) (h19 : Comp.tableLoads ∈ ks) (h20 : Comp.panel ∈ ks) (h21 : Comp.mprogLoads ∈ ks) (h22 : Comp.runs ∈ ks) (h23 : Comp.frames ∈ ks) (h24 : Comp.strata ∈ ks) (h25 : Comp.boot ∈ ks) (h26 : Comp.out ∈ ks) (h27 : Comp.telem ∈ ks) (h28 : Comp.nv ∈ ks) (h29 : Comp.stores ∈ ks) (h30 : Comp.loaded ∈ ks) :
    ChangesOnly ks r (sagBegins v s) ↔ ChangesOnly ks r s := by
  unfold sagBegins; simp only [↓measure_only, ↓occur_only, ↓modSup_only, ↓bankLow_only, ↓stopRefresh_only, ↓suspendErase_only, ↓ite_only, ite_self, h0, h1, h2, h3, h4, h5, h6, h7, h8, h9, h10, h11, h12, h13, h14, h15, h16, h17, h18, h19, h20, h21, h22, h23, h24, h25, h26, h27, h28, h29, h30]

theorem sagEnds_only {ks : List Comp} {r : State} (v : Volts) (s : State)
    (h0 : Comp.waits ∈ ks) (h1 : Comp.fns ∈ ks) (h2 : Comp.sup ∈ ks) (h3 : Comp.out ∈ ks) :
    ChangesOnly ks r (sagEnds v s) ↔ ChangesOnly ks r s := by
  unfold sagEnds; (repeat' split) <;> simp [↓measure_only, ↓occur_only, ↓modSup_only, ↓ite_only, ite_self, h0, h1, h2, h3]

theorem gateOpens_only {ks : List Comp} {r : State} (v : Volts) (s : State)
    (h0 : Comp.waits ∈ ks) (h1 : Comp.fns ∈ ks) (h2 : Comp.sup ∈ ks) (h3 : Comp.panel ∈ ks) (h4 : Comp.faults ∈ ks) (h5 : Comp.out ∈ ks) (h6 : Comp.telem ∈ ks) (h7 : Comp.nv ∈ ks) :
    ChangesOnly ks r (gateOpens v s) ↔ ChangesOnly ks r s := by
  unfold gateOpens; simp only [↓measure_only, ↓commitFaults_only, ↓recordSystem_only, ↓resumeFront_only, ↓runReerase_only, ↓ite_only, ite_self, h0, h1, h2, h3, h4, h5, h6, h7]

theorem pauseEnds_only {ks : List Comp} {r : State} (s : State)
    (h0 : Comp.waits ∈ ks) (h1 : Comp.fns ∈ ks) (h2 : Comp.tick ∈ ks) (h3 : Comp.outst ∈ ks) (h4 : Comp.panel ∈ ks) (h5 : Comp.out ∈ ks) (h6 : Comp.nv ∈ ks) (h7 : Comp.free ∈ ks) :
    ChangesOnly ks r (pauseEnds s) ↔ ChangesOnly ks r s := by
  simp only [pauseEnds]; (repeat' split) <;> simp [↓drawTimedOut_only, ↓reach_only, ↓frontTimedOut_only, ↓ite_only, ite_self, h0, h1, h2, h3, h4, h5, h6, h7]

theorem bankFails_only {ks : List Comp} {r : State} (v : Volts) (s : State)
    (h0 : Comp.waits ∈ ks) (h1 : Comp.fns ∈ ks) (h2 : Comp.sup ∈ ks) (h3 : Comp.faults ∈ ks) (h4 : Comp.out ∈ ks) (h5 : Comp.telem ∈ ks) :
    ChangesOnly ks r (bankFails v s) ↔ ChangesOnly ks r s := by
  unfold bankFails; simp only [↓measure_only, ↓occur_only, ↓modSup_only, ↓fault_only, ↓ite_only, ite_self, h0, h1, h2, h3, h4, h5]

theorem refreshSupply_only {ks : List Comp} {r : State} (v : Volts) (s : State)
    (h0 : Comp.sup ∈ ks) :
    ChangesOnly ks r (refreshSupply v s) ↔ ChangesOnly ks r s := by
  unfold refreshSupply; simp only [↓measure_only, ↓modSup_only, ↓ite_only, ite_self, h0]

theorem execVinMainLow_only {ks : List Comp} {r t : State} {v : Volts} {s : State}
    (e : execVinMainLow v s = .next t) (h0 : Comp.slots ∈ ks) (h1 : Comp.waits ∈ ks) (h2 : Comp.fns ∈ ks) (h3 : Comp.plans ∈ ks) (h4 : Comp.sup ∈ ks) (h5 : Comp.out ∈ ks) (h6 : Comp.telem ∈ ks) (h7 : Comp.repro ∈ ks) :
    ChangesOnly ks r t ↔ ChangesOnly ks r s := by
  injection e with e; subst e; simp only [↓mainFalls_only, ↓ite_only, ite_self, h0, h1, h2, h3, h4, h5, h6, h7]

theorem execVinAuxLow_only {ks : List Comp} {r t : State} {v : Volts} {s : State}
    (e : execVinAuxLow v s = .next t) (h0 : Comp.slots ∈ ks) (h1 : Comp.waits ∈ ks) (h2 : Comp.fns ∈ ks) (h3 : Comp.plans ∈ ks) (h4 : Comp.sup ∈ ks) (h5 : Comp.out ∈ ks) (h6 : Comp.telem ∈ ks) (h7 : Comp.repro ∈ ks) :
    ChangesOnly ks r t ↔ ChangesOnly ks r s := by
  injection e with e; subst e; simp only [↓auxFalls_only, ↓ite_only, ite_self, h0, h1, h2, h3, h4, h5, h6, h7]

theorem execVinAuxNotLow_only {ks : List Comp} {r t : State} {v : Volts} {s : State}
    (e : execVinAuxNotLow v s = .next t) (h0 : Comp.slots ∈ ks) (h1 : Comp.waits ∈ ks) (h2 : Comp.fns ∈ ks) (h3 : Comp.plans ∈ ks) (h4 : Comp.sup ∈ ks) (h5 : Comp.out ∈ ks) (h6 : Comp.telem ∈ ks) (h7 : Comp.repro ∈ ks) :
    ChangesOnly ks r t ↔ ChangesOnly ks r s := by
  injection e with e; subst e; simp only [↓auxRises_only, ↓ite_only, ite_self, h0, h1, h2, h3, h4, h5, h6, h7]

theorem execVinMainNotLow_only {ks : List Comp} {r t : State} {v : Volts} {s : State}
    (e : execVinMainNotLow v s = .next t) (h0 : Comp.slots ∈ ks) (h1 : Comp.waits ∈ ks) (h2 : Comp.fns ∈ ks) (h3 : Comp.plans ∈ ks) (h4 : Comp.sup ∈ ks) (h5 : Comp.out ∈ ks) (h6 : Comp.telem ∈ ks) (h7 : Comp.repro ∈ ks) :
    ChangesOnly ks r t ↔ ChangesOnly ks r s := by
  injection e with e; subst e; simp only [↓mainRises_only, ↓ite_only, ite_self, h0, h1, h2, h3, h4, h5, h6, h7]

theorem execVinMainQualified_only {ks : List Comp} {r t : State} {v : Volts} {s : State}
    (e : execVinMainQualified v s = .next t) (h0 : Comp.slots ∈ ks) (h1 : Comp.waits ∈ ks) (h2 : Comp.fns ∈ ks) (h3 : Comp.plans ∈ ks) (h4 : Comp.sup ∈ ks) (h5 : Comp.boot ∈ ks) (h6 : Comp.out ∈ ks) (h7 : Comp.telem ∈ ks) (h8 : Comp.repro ∈ ks) :
    ChangesOnly ks r t ↔ ChangesOnly ks r s := by
  injection e with e; subst e; simp only [↓mainQualifies_only, ↓ite_only, ite_self, h0, h1, h2, h3, h4, h5, h6, h7, h8]

theorem execSwitchComplete_only {ks : List Comp} {r t : State} {v : Volts} {s : State}
    (e : execSwitchComplete v s = .next t) (h0 : Comp.slots ∈ ks) (h1 : Comp.waits ∈ ks) (h2 : Comp.fns ∈ ks) (h3 : Comp.plans ∈ ks) (h4 : Comp.sup ∈ ks) (h5 : Comp.faults ∈ ks) (h6 : Comp.out ∈ ks) (h7 : Comp.telem ∈ ks) (h8 : Comp.repro ∈ ks) :
    ChangesOnly ks r t ↔ ChangesOnly ks r s := by
  injection e with e; subst e; simp only [↓switchEnds_only, ↓ite_only, ite_self, h0, h1, h2, h3, h4, h5, h6, h7, h8]

theorem execVinLoss_only {ks : List Comp} {r t : State} {v : Volts} {s : State}
    (e : execVinLoss v s = .next t) (h0 : Comp.jtag ∈ ks) (h1 : Comp.remaps ∈ ks) (h2 : Comp.barriers ∈ ks) (h3 : Comp.waits ∈ ks) (h4 : Comp.progs ∈ ks) (h5 : Comp.copies ∈ ks) (h6 : Comp.fns ∈ ks) (h7 : Comp.chans ∈ ks) (h8 : Comp.plans ∈ ks) (h9 : Comp.clusters ∈ ks) (h10 : Comp.lock ∈ ks) (h11 : Comp.ports ∈ ks) (h12 : Comp.outst ∈ ks) (h13 : Comp.sup ∈ ks) (h14 : Comp.logReads ∈ ks) (h15 : Comp.pieces ∈ ks) (h16 : Comp.scheduled ∈ ks) (h17 : Comp.deliveries ∈ ks) (h18 : Comp.geo ∈ ks) (h19 : Comp.tableLoads ∈ ks) (h20 : Comp.panel ∈ ks) (h21 : Comp.mprogLoads ∈ ks) (h22 : Comp.runs ∈ ks) (h23 : Comp.frames ∈ ks) (h24 : Comp.strata ∈ ks) (h25 : Comp.boot ∈ ks) (h26 : Comp.out ∈ ks) (h27 : Comp.telem ∈ ks) (h28 : Comp.stores ∈ ks) (h29 : Comp.loaded ∈ ks) :
    ChangesOnly ks r t ↔ ChangesOnly ks r s := by
  injection e with e; subst e; simp only [↓inputsLost_only, ↓ite_only, ite_self, h0, h1, h2, h3, h4, h5, h6, h7, h8, h9, h10, h11, h12, h13, h14, h15, h16, h17, h18, h19, h20, h21, h22, h23, h24, h25, h26, h27, h28, h29]

theorem execBankChargeLow_only {ks : List Comp} {r t : State} {v : Volts} {s : State}
    (e : execBankChargeLow v s = .next t) (h0 : Comp.jtag ∈ ks) (h1 : Comp.remaps ∈ ks) (h2 : Comp.barriers ∈ ks) (h3 : Comp.waits ∈ ks) (h4 : Comp.progs ∈ ks) (h5 : Comp.copies ∈ ks) (h6 : Comp.fns ∈ ks) (h7 : Comp.chans ∈ ks) (h8 : Comp.plans ∈ ks) (h9 : Comp.clusters ∈ ks) (h10 : Comp.lock ∈ ks) (h11 : Comp.ports ∈ ks) (h12 : Comp.outst ∈ ks) (h13 : Comp.sup ∈ ks) (h14 : Comp.logReads ∈ ks) (h15 : Comp.pieces ∈ ks) (h16 : Comp.scheduled ∈ ks) (h17 : Comp.deliveries ∈ ks) (h18 : Comp.geo ∈ ks) (h19 : Comp.tableLoads ∈ ks) (h20 : Comp.panel ∈ ks) (h21 : Comp.mprogLoads ∈ ks) (h22 : Comp.runs ∈ ks) (h23 : Comp.frames ∈ ks) (h24 : Comp.strata ∈ ks) (h25 : Comp.boot ∈ ks) (h26 : Comp.out ∈ ks) (h27 : Comp.telem ∈ ks) (h28 : Comp.stores ∈ ks) (h29 : Comp.loaded ∈ ks) :
    ChangesOnly ks r t ↔ ChangesOnly ks r s := by
  injection e with e; subst e; simp only [↓bankLow_only, ↓measure_only, ↓ite_only, ite_self, h0, h1, h2, h3, h4, h5, h6, h7, h8, h9, h10, h11, h12, h13, h14, h15, h16, h17, h18, h19, h20, h21, h22, h23, h24, h25, h26, h27, h28, h29]

theorem execHoldupSequenceComplete_only {ks : List Comp} {r t : State} {v : Volts} {s : State}
    (e : execHoldupSequenceComplete v s = .next t) (h0 : Comp.remaps ∈ ks) (h1 : Comp.mprogs ∈ ks) (h2 : Comp.slots ∈ ks) (h3 : Comp.barriers ∈ ks) (h4 : Comp.waits ∈ ks) (h5 : Comp.progs ∈ ks) (h6 : Comp.copies ∈ ks) (h7 : Comp.fns ∈ ks) (h8 : Comp.chans ∈ ks) (h9 : Comp.tick ∈ ks) (h10 : Comp.plans ∈ ks) (h11 : Comp.clusters ∈ ks) (h12 : Comp.lock ∈ ks) (h13 : Comp.ports ∈ ks) (h14 : Comp.outst ∈ ks) (h15 : Comp.sup ∈ ks) (h16 : Comp.ext ∈ ks) (h17 : Comp.logReads ∈ ks) (h18 : Comp.pieces ∈ ks) (h19 : Comp.mapping ∈ ks) (h20 : Comp.scheduled ∈ ks) (h21 : Comp.deliveries ∈ ks) (h22 : Comp.geo ∈ ks) (h23 : Comp.tableLoads ∈ ks) (h24 : Comp.panel ∈ ks) (h25 : Comp.mprogLoads ∈ ks) (h26 : Comp.faults ∈ ks) (h27 : Comp.toReplace ∈ ks) (h28 : Comp.withhold ∈ ks) (h29 : Comp.scratch ∈ ks) (h30 : Comp.runs ∈ ks) (h31 : Comp.frames ∈ ks) (h32 : Comp.strata ∈ ks) (h33 : Comp.boot ∈ ks) (h34 : Comp.telem ∈ ks) (h35 : Comp.thermal ∈ ks) (h36 : Comp.nv ∈ ks) (h37 : Comp.free ∈ ks) (h38 : Comp.tables ∈ ks) (h39 : Comp.units ∈ ks) (h40 : Comp.stores ∈ ks) (h41 : Comp.loaded ∈ ks) (h42 : Comp.repro ∈ ks) (h43 : Comp.lanes ∈ ks) :
    ChangesOnly ks r t ↔ ChangesOnly ks r s := by
  injection e with e; subst e; simp only [↓holdupEnds_only, ↓ite_only, ite_self, h0, h1, h2, h3, h4, h5, h6, h7, h8, h9, h10, h11, h12, h13, h14, h15, h16, h17, h18, h19, h20, h21, h22, h23, h24, h25, h26, h27, h28, h29, h30, h31, h32, h33, h34, h35, h36, h37, h38, h39, h40, h41, h42, h43]

theorem execBankEnergyExhausted_only {ks : List Comp} {r t : State} {writes : Nat} {v : Volts} {s : State}
    (e : execBankEnergyExhausted writes v s = .next t) (h0 : Comp.remaps ∈ ks) (h1 : Comp.mprogs ∈ ks) (h2 : Comp.slots ∈ ks) (h3 : Comp.barriers ∈ ks) (h4 : Comp.waits ∈ ks) (h5 : Comp.progs ∈ ks) (h6 : Comp.copies ∈ ks) (h7 : Comp.fns ∈ ks) (h8 : Comp.chans ∈ ks) (h9 : Comp.tick ∈ ks) (h10 : Comp.plans ∈ ks) (h11 : Comp.clusters ∈ ks) (h12 : Comp.lock ∈ ks) (h13 : Comp.ports ∈ ks) (h14 : Comp.outst ∈ ks) (h15 : Comp.sup ∈ ks) (h16 : Comp.ext ∈ ks) (h17 : Comp.logReads ∈ ks) (h18 : Comp.pieces ∈ ks) (h19 : Comp.mapping ∈ ks) (h20 : Comp.scheduled ∈ ks) (h21 : Comp.deliveries ∈ ks) (h22 : Comp.geo ∈ ks) (h23 : Comp.tableLoads ∈ ks) (h24 : Comp.panel ∈ ks) (h25 : Comp.mprogLoads ∈ ks) (h26 : Comp.faults ∈ ks) (h27 : Comp.toReplace ∈ ks) (h28 : Comp.withhold ∈ ks) (h29 : Comp.scratch ∈ ks) (h30 : Comp.runs ∈ ks) (h31 : Comp.frames ∈ ks) (h32 : Comp.strata ∈ ks) (h33 : Comp.boot ∈ ks) (h34 : Comp.telem ∈ ks) (h35 : Comp.thermal ∈ ks) (h36 : Comp.nv ∈ ks) (h37 : Comp.free ∈ ks) (h38 : Comp.tables ∈ ks) (h39 : Comp.units ∈ ks) (h40 : Comp.stores ∈ ks) (h41 : Comp.loaded ∈ ks) (h42 : Comp.repro ∈ ks) (h43 : Comp.lanes ∈ ks) :
    ChangesOnly ks r t ↔ ChangesOnly ks r s := by
  injection e with e; subst e; simp only [↓holdupEnds_only, ↓ite_only, ite_self, h0, h1, h2, h3, h4, h5, h6, h7, h8, h9, h10, h11, h12, h13, h14, h15, h16, h17, h18, h19, h20, h21, h22, h23, h24, h25, h26, h27, h28, h29, h30, h31, h32, h33, h34, h35, h36, h37, h38, h39, h40, h41, h42, h43]

theorem execInputRise_only {ks : List Comp} {r t : State} {v : Volts} {s : State}
    (e : execInputRise v s = .next t) (h0 : Comp.remaps ∈ ks) (h1 : Comp.mprogs ∈ ks) (h2 : Comp.slots ∈ ks) (h3 : Comp.barriers ∈ ks) (h4 : Comp.waits ∈ ks) (h5 : Comp.progs ∈ ks) (h6 : Comp.copies ∈ ks) (h7 : Comp.fns ∈ ks) (h8 : Comp.chans ∈ ks) (h9 : Comp.tick ∈ ks) (h10 : Comp.plans ∈ ks) (h11 : Comp.clusters ∈ ks) (h12 : Comp.lock ∈ ks) (h13 : Comp.ports ∈ ks) (h14 : Comp.outst ∈ ks) (h15 : Comp.sup ∈ ks) (h16 : Comp.ext ∈ ks) (h17 : Comp.logReads ∈ ks) (h18 : Comp.pieces ∈ ks) (h19 : Comp.mapping ∈ ks) (h20 : Comp.scheduled ∈ ks) (h21 : Comp.deliveries ∈ ks) (h22 : Comp.geo ∈ ks) (h23 : Comp.tableLoads ∈ ks) (h24 : Comp.panel ∈ ks) (h25 : Comp.mprogLoads ∈ ks) (h26 : Comp.faults ∈ ks) (h27 : Comp.toReplace ∈ ks) (h28 : Comp.withhold ∈ ks) (h29 : Comp.scratch ∈ ks) (h30 : Comp.runs ∈ ks) (h31 : Comp.frames ∈ ks) (h32 : Comp.strata ∈ ks) (h33 : Comp.boot ∈ ks) (h34 : Comp.telem ∈ ks) (h35 : Comp.thermal ∈ ks) (h36 : Comp.nv ∈ ks) (h37 : Comp.free ∈ ks) (h38 : Comp.tables ∈ ks) (h39 : Comp.units ∈ ks) (h40 : Comp.stores ∈ ks) (h41 : Comp.loaded ∈ ks) (h42 : Comp.repro ∈ ks) (h43 : Comp.lanes ∈ ks) :
    ChangesOnly ks r t ↔ ChangesOnly ks r s := by
  injection e with e; subst e; simp only [↓inputRises_only, ↓ite_only, ite_self, h0, h1, h2, h3, h4, h5, h6, h7, h8, h9, h10, h11, h12, h13, h14, h15, h16, h17, h18, h19, h20, h21, h22, h23, h24, h25, h26, h27, h28, h29, h30, h31, h32, h33, h34, h35, h36, h37, h38, h39, h40, h41, h42, h43]

theorem execSagBegin_only {ks : List Comp} {r t : State} {v : Volts} {s : State}
    (e : execSagBegin v s = .next t) (h0 : Comp.jtag ∈ ks) (h1 : Comp.remaps ∈ ks) (h2 : Comp.barriers ∈ ks) (h3 : Comp.waits ∈ ks) (h4 : Comp.progs ∈ ks) (h5 : Comp.copies ∈ ks) (h6 : Comp.fns ∈ ks) (h7 : Comp.chans ∈ ks) (h8 : Comp.plans ∈ ks) (h9 : Comp.clusters ∈ ks) (h10 : Comp.lock ∈ ks) (h11 : Comp.ports ∈ ks) (h12 : Comp.outst ∈ ks) (h13 : Comp.sup ∈ ks) (h14 : Comp.logReads ∈ ks) (h15 : Comp.pieces ∈ ks) (h16 : Comp.scheduled ∈ ks) (h17 : Comp.deliveries ∈ ks) (h18 : Comp.geo ∈ ks) (h19 : Comp.tableLoads ∈ ks) (h20 : Comp.panel ∈ ks) (h21 : Comp.mprogLoads ∈ ks) (h22 : Comp.runs ∈ ks) (h23 : Comp.frames ∈ ks) (h24 : Comp.strata ∈ ks) (h25 : Comp.boot ∈ ks) (h26 : Comp.out ∈ ks) (h27 : Comp.telem ∈ ks) (h28 : Comp.nv ∈ ks) (h29 : Comp.stores ∈ ks) (h30 : Comp.loaded ∈ ks) :
    ChangesOnly ks r t ↔ ChangesOnly ks r s := by
  injection e with e; subst e; simp only [↓sagBegins_only, ↓ite_only, ite_self, h0, h1, h2, h3, h4, h5, h6, h7, h8, h9, h10, h11, h12, h13, h14, h15, h16, h17, h18, h19, h20, h21, h22, h23, h24, h25, h26, h27, h28, h29, h30]

theorem execSagEnd_only {ks : List Comp} {r t : State} {v : Volts} {s : State}
    (e : execSagEnd v s = .next t) (h0 : Comp.waits ∈ ks) (h1 : Comp.fns ∈ ks) (h2 : Comp.sup ∈ ks) (h3 : Comp.out ∈ ks) :
    ChangesOnly ks r t ↔ ChangesOnly ks r s := by
  injection e with e; subst e; simp only [↓sagEnds_only, ↓ite_only, ite_self, h0, h1, h2, h3]

theorem execSupplyGateOpen_only {ks : List Comp} {r t : State} {v : Volts} {s : State}
    (e : execSupplyGateOpen v s = .next t) (h0 : Comp.waits ∈ ks) (h1 : Comp.fns ∈ ks) (h2 : Comp.sup ∈ ks) (h3 : Comp.panel ∈ ks) (h4 : Comp.faults ∈ ks) (h5 : Comp.out ∈ ks) (h6 : Comp.telem ∈ ks) (h7 : Comp.nv ∈ ks) :
    ChangesOnly ks r t ↔ ChangesOnly ks r s := by
  injection e with e; subst e; simp only [↓gateOpens_only, ↓ite_only, ite_self, h0, h1, h2, h3, h4, h5, h6, h7]

theorem execSupplyGatePauseTimeout_only {ks : List Comp} {r t : State} {s : State}
    (e : execSupplyGatePauseTimeout s = .next t) (h0 : Comp.waits ∈ ks) (h1 : Comp.fns ∈ ks) (h2 : Comp.tick ∈ ks) (h3 : Comp.outst ∈ ks) (h4 : Comp.panel ∈ ks) (h5 : Comp.out ∈ ks) (h6 : Comp.nv ∈ ks) (h7 : Comp.free ∈ ks) :
    ChangesOnly ks r t ↔ ChangesOnly ks r s := by
  injection e with e; subst e; simp only [↓pauseEnds_only, ↓ite_only, ite_self, h0, h1, h2, h3, h4, h5, h6, h7]

theorem execHoldupFault_only {ks : List Comp} {r t : State} {v : Volts} {s : State}
    (e : execHoldupFault v s = .next t) (h0 : Comp.waits ∈ ks) (h1 : Comp.fns ∈ ks) (h2 : Comp.sup ∈ ks) (h3 : Comp.faults ∈ ks) (h4 : Comp.out ∈ ks) (h5 : Comp.telem ∈ ks) :
    ChangesOnly ks r t ↔ ChangesOnly ks r s := by
  injection e with e; subst e; simp only [↓bankFails_only, ↓ite_only, ite_self, h0, h1, h2, h3, h4, h5]

theorem execSupplyStatusRefresh_only {ks : List Comp} {r t : State} {v : Volts} {s : State}
    (e : execSupplyStatusRefresh v s = .next t) (h0 : Comp.sup ∈ ks) :
    ChangesOnly ks r t ↔ ChangesOnly ks r s := by
  injection e with e; subst e; simp only [↓refreshSupply_only, ↓ite_only, ite_self, h0]

/-! ### Start -/

theorem recogniseReset_only {ks : List Comp} {r : State} (s : State) (cause : BitVec 8)
    (h0 : Comp.remaps ∈ ks) (h1 : Comp.barriers ∈ ks) (h2 : Comp.waits ∈ ks) (h3 : Comp.progs ∈ ks) (h4 : Comp.copies ∈ ks) (h5 : Comp.fns ∈ ks) (h6 : Comp.chans ∈ ks) (h7 : Comp.clusters ∈ ks) (h8 : Comp.lock ∈ ks) (h9 : Comp.ports ∈ ks) (h10 : Comp.outst ∈ ks) (h11 : Comp.logReads ∈ ks) (h12 : Comp.pieces ∈ ks) (h13 : Comp.scheduled ∈ ks) (h14 : Comp.deliveries ∈ ks) (h15 : Comp.geo ∈ ks) (h16 : Comp.tableLoads ∈ ks) (h17 : Comp.panel ∈ ks) (h18 : Comp.mprogLoads ∈ ks) (h19 : Comp.faults ∈ ks) (h20 : Comp.runs ∈ ks) (h21 : Comp.frames ∈ ks) (h22 : Comp.boot ∈ ks) (h23 : Comp.out ∈ ks) (h24 : Comp.telem ∈ ks) (h25 : Comp.nv ∈ ks) (h26 : Comp.free ∈ ks) (h27 : Comp.stores ∈ ks) (h28 : Comp.loaded ∈ ks) :
    ChangesOnly ks r (State.recogniseReset s cause) ↔ ChangesOnly ks r s := by
  unfold State.recogniseReset; simp only [↓noteCause_only, ↓safePoint_only, ↓haltAll_only, ↓upd_boot_only, ↓ite_only, ite_self, h0, h1, h2, h3, h4, h5, h6, h7, h8, h9, h10, h11, h12, h13, h14, h15, h16, h17, h18, h19, h20, h21, h22, h23, h24, h25, h26, h27, h28]

theorem bootWhenFree_only {ks : List Comp} {r : State} (s : State)
    (h0 : Comp.boot ∈ ks) :
    ChangesOnly ks r (State.bootWhenFree s) ↔ ChangesOnly ks r s := by
  unfold State.bootWhenFree; simp only [↓bootRom_only, ↓upd_boot_only, ↓ite_only, ite_self, h0]

theorem abandonImage_only {ks : List Comp} {r : State} (s : State)
    (h0 : Comp.faults ∈ ks) (h1 : Comp.boot ∈ ks) (h2 : Comp.telem ∈ ks) :
    ChangesOnly ks r (abandonImage s) ↔ ChangesOnly ks r s := by
  unfold abandonImage; simp only [↓fault_only, ↓upd_boot_only, ↓ite_only, ite_self, h0, h1, h2]

theorem newFaultLog_only {ks : List Comp} {r : State} (s : State)
    (h0 : Comp.faults ∈ ks) (h1 : Comp.telem ∈ ks) :
    ChangesOnly ks r (State.newFaultLog s) ↔ ChangesOnly ks r s := by
  unfold State.newFaultLog; simp only [↓fault_only, ↓upd_faults_only, ↓ite_only, ite_self, h0, h1]

theorem checkJournal_only {ks : List Comp} {r : State} (s : State)
    (h0 : Comp.panel ∈ ks) (h1 : Comp.nv ∈ ks) :
    ChangesOnly ks r (State.checkJournal s) ↔ ChangesOnly ks r s := by
  simp only [State.checkJournal]; (repeat' split) <;> simp [↓modPanel_only, ↓runReerase_only, ↓upd_nv_only, ↓ite_only, ite_self, h0, h1]

theorem bootEnds_only {ks : List Comp} {r : State} (tickCounts : Option (W32 × W32)) (monitorOk : Bool) (logOk : Bool) (s : State)
    (h0 : Comp.remaps ∈ ks) (h1 : Comp.barriers ∈ ks) (h2 : Comp.waits ∈ ks) (h3 : Comp.progs ∈ ks) (h4 : Comp.copies ∈ ks) (h5 : Comp.fns ∈ ks) (h6 : Comp.chans ∈ ks) (h7 : Comp.lock ∈ ks) (h8 : Comp.ports ∈ ks) (h9 : Comp.outst ∈ ks) (h10 : Comp.sup ∈ ks) (h11 : Comp.logReads ∈ ks) (h12 : Comp.pieces ∈ ks) (h13 : Comp.scheduled ∈ ks) (h14 : Comp.deliveries ∈ ks) (h15 : Comp.tableLoads ∈ ks) (h16 : Comp.panel ∈ ks) (h17 : Comp.mprogLoads ∈ ks) (h18 : Comp.faults ∈ ks) (h19 : Comp.runs ∈ ks) (h20 : Comp.frames ∈ ks) (h21 : Comp.boot ∈ ks) (h22 : Comp.out ∈ ks) (h23 : Comp.telem ∈ ks) (h24 : Comp.nv ∈ ks) (h25 : Comp.stores ∈ ks) (h26 : Comp.loaded ∈ ks) :
    ChangesOnly ks r (bootEnds tickCounts monitorOk logOk s) ↔ ChangesOnly ks r s := by
  unfold bootEnds; (repeat' split) <;> simp [↓setPhase_only, ↓enterFatal_only, ↓newFaultLog_only, ↓fault_only, ↓modSup_only, ↓checkJournal_only, ↓ite_only, ite_self, h0, h1, h2, h3, h4, h5, h6, h7, h8, h9, h10, h11, h12, h13, h14, h15, h16, h17, h18, h19, h20, h21, h22, h23, h24, h25, h26]

theorem clocksStart_only {ks : List Comp} {r : State} (s : State)
    (h0 : Comp.slots ∈ ks) (h1 : Comp.waits ∈ ks) (h2 : Comp.fns ∈ ks) (h3 : Comp.plans ∈ ks) (h4 : Comp.sup ∈ ks) (h5 : Comp.boot ∈ ks) (h6 : Comp.out ∈ ks) (h7 : Comp.repro ∈ ks) :
    ChangesOnly ks r (clocksStart s) ↔ ChangesOnly ks r s := by
  unfold clocksStart; simp only [↓setPhase_only, ↓settlePlan_only, ↓upd_plans_only, ↓ite_only, ite_self, h0, h1, h2, h3, h4, h5, h6, h7]

theorem bistFail_only {ks : List Comp} {r : State} (s : State) (u : Unit_)
    (h0 : Comp.waits ∈ ks) (h1 : Comp.fns ∈ ks) (h2 : Comp.faults ∈ ks) (h3 : Comp.out ∈ ks) (h4 : Comp.telem ∈ ks) (h5 : Comp.units ∈ ks) :
    ChangesOnly ks r (State.bistFail s u) ↔ ChangesOnly ks r s := by
  unfold State.bistFail; simp only [↓fault_only, ↓modUnit_only, ↓unitFailed_only, ↓ite_only, ite_self, h0, h1, h2, h3, h4, h5]

theorem geodeTested_only {ks : List Comp} {r : State} (failed : List BankNo) (s : State)
    (h0 : Comp.waits ∈ ks) (h1 : Comp.fns ∈ ks) (h2 : Comp.geo ∈ ks) (h3 : Comp.faults ∈ ks) (h4 : Comp.boot ∈ ks) (h5 : Comp.out ∈ ks) (h6 : Comp.telem ∈ ks) (h7 : Comp.units ∈ ks) :
    ChangesOnly ks r (geodeTested failed s) ↔ ChangesOnly ks r s := by
  unfold geodeTested; simp [↓bistFail_only, ↓setPhase_only, ↓upd_boot_only, ↓upd_geo_boot_only, ↓upd_geo_only, ↓forEach_only, ↓ite_only, ite_self, h0, h1, h2, h3, h4, h5, h6, h7]

theorem clusterTestEnds_only {ks : List Comp} {r : State} (s : State)
    (h0 : Comp.fns ∈ ks) (h1 : Comp.boot ∈ ks) (h2 : Comp.out ∈ ks) :
    ChangesOnly ks r (State.clusterTestEnds s) ↔ ChangesOnly ks r s := by
  unfold State.clusterTestEnds; simp only [↓setPhase_only, ↓ite_only, ite_self, h0, h1, h2]

theorem roundTested_only {ks : List Comp} {r : State} (failed : List PhysNo) (s : State)
    (h0 : Comp.waits ∈ ks) (h1 : Comp.fns ∈ ks) (h2 : Comp.faults ∈ ks) (h3 : Comp.boot ∈ ks) (h4 : Comp.out ∈ ks) (h5 : Comp.telem ∈ ks) (h6 : Comp.units ∈ ks) :
    ChangesOnly ks r (roundTested failed s) ↔ ChangesOnly ks r s := by
  unfold roundTested; simp [↓bistFail_only, ↓clusterTestEnds_only, ↓upd_boot_only, ↓forEach_only, ↓ite_only, ite_self, h0, h1, h2, h3, h4, h5, h6]

theorem lpddrTested_only {ks : List Comp} {r : State} (failed : List ExtNo) (s : State)
    (h0 : Comp.waits ∈ ks) (h1 : Comp.fns ∈ ks) (h2 : Comp.ext ∈ ks) (h3 : Comp.faults ∈ ks) (h4 : Comp.boot ∈ ks) (h5 : Comp.out ∈ ks) (h6 : Comp.telem ∈ ks) (h7 : Comp.units ∈ ks) :
    ChangesOnly ks r (lpddrTested failed s) ↔ ChangesOnly ks r s := by
  unfold lpddrTested; simp [↓bistFail_only, ↓clusterTestEnds_only, ↓upd_boot_only, ↓upd_ext_only, ↓upd_ext_boot_only, ↓forEach_only, ↓ite_only, ite_self, h0, h1, h2, h3, h4, h5, h6, h7]

theorem remapRetired_only {ks : List Comp} {r : State} (s : State) (c : PhysNo)
    (h0 : Comp.clusters ∈ ks) (h1 : Comp.mapping ∈ ks) (h2 : Comp.faults ∈ ks) (h3 : Comp.lastPhys ∈ ks) (h4 : Comp.scratch ∈ ks) (h5 : Comp.telem ∈ ks) :
    ChangesOnly ks r (State.remapRetired s c) ↔ ChangesOnly ks r s := by
  unfold State.remapRetired; (repeat' split) <;> simp [↓fault_only, ↓mapTo_only, ↓upd_mapping_only, ↓ite_only, ite_self, h0, h1, h2, h3, h4, h5]

theorem fillMapping_only {ks : List Comp} {r : State} (s : State) (l : LogNo)
    (h0 : Comp.clusters ∈ ks) (h1 : Comp.mapping ∈ ks) (h2 : Comp.faults ∈ ks) (h3 : Comp.lastPhys ∈ ks) (h4 : Comp.scratch ∈ ks) (h5 : Comp.telem ∈ ks) :
    ChangesOnly ks r (State.fillMapping s l) ↔ ChangesOnly ks r s := by
  unfold State.fillMapping; (repeat' split) <;> simp [↓fault_only, ↓mapTo_only, ↓ite_only, ite_self, h0, h1, h2, h3, h4, h5]

theorem buildMapping_only {ks : List Comp} {r : State} (s : State)
    (h0 : Comp.clusters ∈ ks) (h1 : Comp.mapping ∈ ks) (h2 : Comp.faults ∈ ks) (h3 : Comp.lastPhys ∈ ks) (h4 : Comp.scratch ∈ ks) (h5 : Comp.telem ∈ ks) :
    ChangesOnly ks r (State.buildMapping s) ↔ ChangesOnly ks r s := by
  unfold State.buildMapping; simp [↓remapRetired_only, ↓fillMapping_only, ↓upd_mapping_lastPhys_only, ↓upd_mapping_only, ↓forEach_only, ↓ite_only, ite_self, h0, h1, h2, h3, h4, h5]

theorem enterReady_only {ks : List Comp} {r : State} (s : State)
    (h0 : Comp.fns ∈ ks) (h1 : Comp.boot ∈ ks) (h2 : Comp.out ∈ ks) :
    ChangesOnly ks r (State.enterReady s) ↔ ChangesOnly ks r s := by
  unfold State.enterReady; simp only [↓setPhase_only, ↓upd_boot_only, ↓ite_only, ite_self, h0, h1, h2]

theorem mappingEnds_only {ks : List Comp} {r : State} (s : State)
    (h0 : Comp.slots ∈ ks) (h1 : Comp.waits ∈ ks) (h2 : Comp.fns ∈ ks) (h3 : Comp.plans ∈ ks) (h4 : Comp.clusters ∈ ks) (h5 : Comp.sup ∈ ks) (h6 : Comp.mapping ∈ ks) (h7 : Comp.faults ∈ ks) (h8 : Comp.lastPhys ∈ ks) (h9 : Comp.scratch ∈ ks) (h10 : Comp.boot ∈ ks) (h11 : Comp.out ∈ ks) (h12 : Comp.telem ∈ ks) (h13 : Comp.nv ∈ ks) (h14 : Comp.repro ∈ ks) :
    ChangesOnly ks r (mappingEnds s) ↔ ChangesOnly ks r s := by
  unfold mappingEnds; simp only [↓buildMapping_only, ↓setPhase_only, ↓enterReady_only, ↓recordSystem_only, ↓settlePlan_only, ↓ite_only, ite_self, h0, h1, h2, h3, h4, h5, h6, h7, h8, h9, h10, h11, h12, h13, h14]

theorem pcieDown_only {ks : List Comp} {r : State} (s : State)
    (h0 : Comp.boot ∈ ks) :
    ChangesOnly ks r (State.pcieDown s) ↔ ChangesOnly ks r s := by
  unfold State.pcieDown; simp only [↓upd_boot_only, ↓ite_only, ite_self, h0]

theorem configWrite_only {ks : List Comp} {r : State} (fn : FnNo) (req : ConfigReq) (s : State)
    (h0 : Comp.barriers ∈ ks) (h1 : Comp.waits ∈ ks) (h2 : Comp.progs ∈ ks) (h3 : Comp.copies ∈ ks) (h4 : Comp.fns ∈ ks) (h5 : Comp.chans ∈ ks) (h6 : Comp.clusters ∈ ks) (h7 : Comp.lock ∈ ks) (h8 : Comp.ports ∈ ks) (h9 : Comp.outst ∈ ks) (h10 : Comp.logReads ∈ ks) (h11 : Comp.scheduled ∈ ks) (h12 : Comp.deliveries ∈ ks) (h13 : Comp.geo ∈ ks) (h14 : Comp.tableLoads ∈ ks) (h15 : Comp.panel ∈ ks) (h16 : Comp.mprogLoads ∈ ks) (h17 : Comp.runs ∈ ks) (h18 : Comp.frames ∈ ks) (h19 : Comp.boot ∈ ks) (h20 : Comp.out ∈ ks) (h21 : Comp.telem ∈ ks) (h22 : Comp.nv ∈ ks) (h23 : Comp.stores ∈ ks) (h24 : Comp.loaded ∈ ks) :
    ChangesOnly ks r (configWrite fn req s) ↔ ChangesOnly ks r s := by
  unfold configWrite; (repeat' split) <;> simp [↓modFn_only, ↓setVfs_only, ↓ite_only, ite_self, h0, h1, h2, h3, h4, h5, h6, h7, h8, h9, h10, h11, h12, h13, h14, h15, h16, h17, h18, h19, h20, h21, h22, h23, h24]

theorem configRequest_only {ks : List Comp} {r : State} (fn : FnNo) (req : ConfigReq) (s : State)
    (h0 : Comp.barriers ∈ ks) (h1 : Comp.waits ∈ ks) (h2 : Comp.progs ∈ ks) (h3 : Comp.copies ∈ ks) (h4 : Comp.fns ∈ ks) (h5 : Comp.chans ∈ ks) (h6 : Comp.clusters ∈ ks) (h7 : Comp.lock ∈ ks) (h8 : Comp.ports ∈ ks) (h9 : Comp.outst ∈ ks) (h10 : Comp.logReads ∈ ks) (h11 : Comp.scheduled ∈ ks) (h12 : Comp.deliveries ∈ ks) (h13 : Comp.geo ∈ ks) (h14 : Comp.tableLoads ∈ ks) (h15 : Comp.panel ∈ ks) (h16 : Comp.mprogLoads ∈ ks) (h17 : Comp.runs ∈ ks) (h18 : Comp.frames ∈ ks) (h19 : Comp.boot ∈ ks) (h20 : Comp.out ∈ ks) (h21 : Comp.telem ∈ ks) (h22 : Comp.nv ∈ ks) (h23 : Comp.stores ∈ ks) (h24 : Comp.loaded ∈ ks) :
    ChangesOnly ks r (configRequest fn req s) ↔ ChangesOnly ks r s := by
  unfold configRequest; (repeat' split) <;> simp [↓emit_only, ↓configWrite_only, ↓ite_only, ite_self, h0, h1, h2, h3, h4, h5, h6, h7, h8, h9, h10, h11, h12, h13, h14, h15, h16, h17, h18, h19, h20, h21, h22, h23, h24]

theorem busMaster_only {ks : List Comp} {r : State} (fn : FnNo) (on : Bool) (s : State)
    (h0 : Comp.waits ∈ ks) (h1 : Comp.progs ∈ ks) (h2 : Comp.fns ∈ ks) (h3 : Comp.chans ∈ ks) (h4 : Comp.clusters ∈ ks) (h5 : Comp.lock ∈ ks) (h6 : Comp.ports ∈ ks) (h7 : Comp.outst ∈ ks) (h8 : Comp.deliveries ∈ ks) (h9 : Comp.geo ∈ ks) (h10 : Comp.runs ∈ ks) (h11 : Comp.frames ∈ ks) (h12 : Comp.out ∈ ks) (h13 : Comp.telem ∈ ks) (h14 : Comp.loaded ∈ ks) :
    ChangesOnly ks r (busMaster fn on s) ↔ ChangesOnly ks r s := by
  unfold busMaster; simp [↓modFn_only, ↓sendUnsent_only, ↓settleQueue_only, ↓releaseMsix_only, ↓flushEvq_only, ↓pumpRing_only, ↓forEach_only, ↓ite_only, ite_self, h0, h1, h2, h3, h4, h5, h6, h7, h8, h9, h10, h11, h12, h13, h14]

theorem execModResetN_only {ks : List Comp} {r t : State} {s : State}
    (e : execModResetN s = .next t) (h0 : Comp.remaps ∈ ks) (h1 : Comp.barriers ∈ ks) (h2 : Comp.waits ∈ ks) (h3 : Comp.progs ∈ ks) (h4 : Comp.copies ∈ ks) (h5 : Comp.fns ∈ ks) (h6 : Comp.chans ∈ ks) (h7 : Comp.clusters ∈ ks) (h8 : Comp.lock ∈ ks) (h9 : Comp.ports ∈ ks) (h10 : Comp.outst ∈ ks) (h11 : Comp.logReads ∈ ks) (h12 : Comp.pieces ∈ ks) (h13 : Comp.scheduled ∈ ks) (h14 : Comp.deliveries ∈ ks) (h15 : Comp.geo ∈ ks) (h16 : Comp.tableLoads ∈ ks) (h17 : Comp.panel ∈ ks) (h18 : Comp.mprogLoads ∈ ks) (h19 : Comp.faults ∈ ks) (h20 : Comp.runs ∈ ks) (h21 : Comp.frames ∈ ks) (h22 : Comp.boot ∈ ks) (h23 : Comp.out ∈ ks) (h24 : Comp.telem ∈ ks) (h25 : Comp.nv ∈ ks) (h26 : Comp.free ∈ ks) (h27 : Comp.stores ∈ ks) (h28 : Comp.loaded ∈ ks) :
    ChangesOnly ks r t ↔ ChangesOnly ks r s := by
  injection e with e; subst e; simp only [↓recogniseReset_only, ↓upd_boot_only, ↓ite_only, ite_self, h0, h1, h2, h3, h4, h5, h6, h7, h8, h9, h10, h11, h12, h13, h14, h15, h16, h17, h18, h19, h20, h21, h22, h23, h24, h25, h26, h27, h28]

theorem execTestEn_only {ks : List Comp} {r t : State} {s : State}
    (e : execTestEn s = .next t) (h0 : Comp.remaps ∈ ks) (h1 : Comp.barriers ∈ ks) (h2 : Comp.waits ∈ ks) (h3 : Comp.progs ∈ ks) (h4 : Comp.copies ∈ ks) (h5 : Comp.fns ∈ ks) (h6 : Comp.chans ∈ ks) (h7 : Comp.clusters ∈ ks) (h8 : Comp.lock ∈ ks) (h9 : Comp.ports ∈ ks) (h10 : Comp.outst ∈ ks) (h11 : Comp.logReads ∈ ks) (h12 : Comp.pieces ∈ ks) (h13 : Comp.scheduled ∈ ks) (h14 : Comp.deliveries ∈ ks) (h15 : Comp.geo ∈ ks) (h16 : Comp.tableLoads ∈ ks) (h17 : Comp.panel ∈ ks) (h18 : Comp.mprogLoads ∈ ks) (h19 : Comp.faults ∈ ks) (h20 : Comp.runs ∈ ks) (h21 : Comp.frames ∈ ks) (h22 : Comp.boot ∈ ks) (h23 : Comp.out ∈ ks) (h24 : Comp.telem ∈ ks) (h25 : Comp.nv ∈ ks) (h26 : Comp.free ∈ ks) (h27 : Comp.stores ∈ ks) (h28 : Comp.loaded ∈ ks) :
    ChangesOnly ks r t ↔ ChangesOnly ks r s := by
  injection e with e; subst e; simp only [↓recogniseReset_only, ↓upd_boot_only, ↓ite_only, ite_self, h0, h1, h2, h3, h4, h5, h6, h7, h8, h9, h10, h11, h12, h13, h14, h15, h16, h17, h18, h19, h20, h21, h22, h23, h24, h25, h26, h27, h28]

theorem execModuleReset_only {ks : List Comp} {r t : State} {s : State}
    (e : execModuleReset s = .next t) (h0 : Comp.remaps ∈ ks) (h1 : Comp.mprogs ∈ ks) (h2 : Comp.slots ∈ ks) (h3 : Comp.barriers ∈ ks) (h4 : Comp.waits ∈ ks) (h5 : Comp.progs ∈ ks) (h6 : Comp.copies ∈ ks) (h7 : Comp.fns ∈ ks) (h8 : Comp.chans ∈ ks) (h9 : Comp.plans ∈ ks) (h10 : Comp.clusters ∈ ks) (h11 : Comp.lock ∈ ks) (h12 : Comp.ports ∈ ks) (h13 : Comp.outst ∈ ks) (h14 : Comp.sup ∈ ks) (h15 : Comp.ext ∈ ks) (h16 : Comp.logReads ∈ ks) (h17 : Comp.pieces ∈ ks) (h18 : Comp.mapping ∈ ks) (h19 : Comp.scheduled ∈ ks) (h20 : Comp.deliveries ∈ ks) (h21 : Comp.geo ∈ ks) (h22 : Comp.tableLoads ∈ ks) (h23 : Comp.panel ∈ ks) (h24 : Comp.mprogLoads ∈ ks) (h25 : Comp.faults ∈ ks) (h26 : Comp.toReplace ∈ ks) (h27 : Comp.scratch ∈ ks) (h28 : Comp.runs ∈ ks) (h29 : Comp.frames ∈ ks) (h30 : Comp.strata ∈ ks) (h31 : Comp.boot ∈ ks) (h32 : Comp.telem ∈ ks) (h33 : Comp.thermal ∈ ks) (h34 : Comp.nv ∈ ks) (h35 : Comp.free ∈ ks) (h36 : Comp.tables ∈ ks) (h37 : Comp.units ∈ ks) (h38 : Comp.stores ∈ ks) (h39 : Comp.loaded ∈ ks) (h40 : Comp.repro ∈ ks) (h41 : Comp.lanes ∈ ks) :
    ChangesOnly ks r t ↔ ChangesOnly ks r s := by
  injection e with e; subst e; simp only [↓moduleReset_only, ↓ite_only, ite_self, h0, h1, h2, h3, h4, h5, h6, h7, h8, h9, h10, h11, h12, h13, h14, h15, h16, h17, h18, h19, h20, h21, h22, h23, h24, h25, h26, h27, h28, h29, h30, h31, h32, h33, h34, h35, h36, h37, h38, h39, h40, h41]

theorem execModResetNRise_only {ks : List Comp} {r t : State} {s : State}
    (e : execModResetNRise s = .next t) (h0 : Comp.boot ∈ ks) :
    ChangesOnly ks r t ↔ ChangesOnly ks r s := by
  injection e with e; subst e; simp only [↓bootWhenFree_only, ↓upd_boot_only, ↓ite_only, ite_self, h0]

theorem execTestEnLow_only {ks : List Comp} {r t : State} {s : State}
    (e : execTestEnLow s = .next t) (h0 : Comp.boot ∈ ks) :
    ChangesOnly ks r t ↔ ChangesOnly ks r s := by
  injection e with e; subst e; simp only [↓bootWhenFree_only, ↓upd_boot_only, ↓ite_only, ite_self, h0]

theorem execImageBootTimeout_only {ks : List Comp} {r t : State} {s : State}
    (e : execImageBootTimeout s = .next t) (h0 : Comp.faults ∈ ks) (h1 : Comp.boot ∈ ks) (h2 : Comp.telem ∈ ks) :
    ChangesOnly ks r t ↔ ChangesOnly ks r s := by
  injection e with e; subst e; simp only [↓abandonImage_only, ↓ite_only, ite_self, h0, h1, h2]

theorem execSupervisorBootEnd_only {ks : List Comp} {r t : State} {tickCounts : Option (W32 × W32)} {monitorOk : Bool} {logOk : Bool} {s : State}
    (e : execSupervisorBootEnd tickCounts monitorOk logOk s = .next t) (h0 : Comp.remaps ∈ ks) (h1 : Comp.barriers ∈ ks) (h2 : Comp.waits ∈ ks) (h3 : Comp.progs ∈ ks) (h4 : Comp.copies ∈ ks) (h5 : Comp.fns ∈ ks) (h6 : Comp.chans ∈ ks) (h7 : Comp.lock ∈ ks) (h8 : Comp.ports ∈ ks) (h9 : Comp.outst ∈ ks) (h10 : Comp.sup ∈ ks) (h11 : Comp.logReads ∈ ks) (h12 : Comp.pieces ∈ ks) (h13 : Comp.scheduled ∈ ks) (h14 : Comp.deliveries ∈ ks) (h15 : Comp.tableLoads ∈ ks) (h16 : Comp.panel ∈ ks) (h17 : Comp.mprogLoads ∈ ks) (h18 : Comp.faults ∈ ks) (h19 : Comp.runs ∈ ks) (h20 : Comp.frames ∈ ks) (h21 : Comp.boot ∈ ks) (h22 : Comp.out ∈ ks) (h23 : Comp.telem ∈ ks) (h24 : Comp.nv ∈ ks) (h25 : Comp.stores ∈ ks) (h26 : Comp.loaded ∈ ks) :
    ChangesOnly ks r t ↔ ChangesOnly ks r s := by
  injection e with e; subst e; simp only [↓bootEnds_only, ↓ite_only, ite_self, h0, h1, h2, h3, h4, h5, h6, h7, h8, h9, h10, h11, h12, h13, h14, h15, h16, h17, h18, h19, h20, h21, h22, h23, h24, h25, h26]

theorem execAonCheckEnd_only {ks : List Comp} {r t : State} {s : State}
    (e : execAonCheckEnd s = .next t) (h0 : Comp.fns ∈ ks) (h1 : Comp.boot ∈ ks) (h2 : Comp.out ∈ ks) :
    ChangesOnly ks r t ↔ ChangesOnly ks r s := by
  injection e with e; subst e; simp only [↓leaveWait_only, ↓setPhase_only, ↓ite_only, ite_self, h0, h1, h2]

theorem execClockStartEnd_only {ks : List Comp} {r t : State} {s : State}
    (e : execClockStartEnd s = .next t) (h0 : Comp.slots ∈ ks) (h1 : Comp.waits ∈ ks) (h2 : Comp.fns ∈ ks) (h3 : Comp.plans ∈ ks) (h4 : Comp.sup ∈ ks) (h5 : Comp.boot ∈ ks) (h6 : Comp.out ∈ ks) (h7 : Comp.repro ∈ ks) :
    ChangesOnly ks r t ↔ ChangesOnly ks r s := by
  injection e with e; subst e; simp only [↓clocksStart_only, ↓ite_only, ite_self, h0, h1, h2, h3, h4, h5, h6, h7]

theorem execGeodeTestEnd_only {ks : List Comp} {r t : State} {failed : List BankNo} {s : State}
    (e : execGeodeTestEnd failed s = .next t) (h0 : Comp.waits ∈ ks) (h1 : Comp.fns ∈ ks) (h2 : Comp.geo ∈ ks) (h3 : Comp.faults ∈ ks) (h4 : Comp.boot ∈ ks) (h5 : Comp.out ∈ ks) (h6 : Comp.telem ∈ ks) (h7 : Comp.units ∈ ks) :
    ChangesOnly ks r t ↔ ChangesOnly ks r s := by
  injection e with e; subst e; simp only [↓geodeTested_only, ↓ite_only, ite_self, h0, h1, h2, h3, h4, h5, h6, h7]

theorem execClusterRoundEnd_only {ks : List Comp} {r t : State} {failed : List PhysNo} {s : State}
    (e : execClusterRoundEnd failed s = .next t) (h0 : Comp.waits ∈ ks) (h1 : Comp.fns ∈ ks) (h2 : Comp.faults ∈ ks) (h3 : Comp.boot ∈ ks) (h4 : Comp.out ∈ ks) (h5 : Comp.telem ∈ ks) (h6 : Comp.units ∈ ks) :
    ChangesOnly ks r t ↔ ChangesOnly ks r s := by
  injection e with e; subst e; simp only [↓roundTested_only, ↓ite_only, ite_self, h0, h1, h2, h3, h4, h5, h6]

theorem execLpddrTrainingEnd_only {ks : List Comp} {r t : State} {failed : List ExtNo} {s : State}
    (e : execLpddrTrainingEnd failed s = .next t) (h0 : Comp.waits ∈ ks) (h1 : Comp.fns ∈ ks) (h2 : Comp.ext ∈ ks) (h3 : Comp.faults ∈ ks) (h4 : Comp.boot ∈ ks) (h5 : Comp.out ∈ ks) (h6 : Comp.telem ∈ ks) (h7 : Comp.units ∈ ks) :
    ChangesOnly ks r t ↔ ChangesOnly ks r s := by
  injection e with e; subst e; simp only [↓lpddrTested_only, ↓ite_only, ite_self, h0, h1, h2, h3, h4, h5, h6, h7]

theorem execMapping_only {ks : List Comp} {r t : State} {s : State}
    (e : execMapping s = .next t) (h0 : Comp.slots ∈ ks) (h1 : Comp.waits ∈ ks) (h2 : Comp.fns ∈ ks) (h3 : Comp.plans ∈ ks) (h4 : Comp.clusters ∈ ks) (h5 : Comp.sup ∈ ks) (h6 : Comp.mapping ∈ ks) (h7 : Comp.faults ∈ ks) (h8 : Comp.lastPhys ∈ ks) (h9 : Comp.scratch ∈ ks) (h10 : Comp.boot ∈ ks) (h11 : Comp.out ∈ ks) (h12 : Comp.telem ∈ ks) (h13 : Comp.nv ∈ ks) (h14 : Comp.repro ∈ ks) :
    ChangesOnly ks r t ↔ ChangesOnly ks r s := by
  injection e with e; subst e; simp only [↓mappingEnds_only, ↓ite_only, ite_self, h0, h1, h2, h3, h4, h5, h6, h7, h8, h9, h10, h11, h12, h13, h14]

theorem execScrubComplete_only {ks : List Comp} {r t : State} {s : State}
    (e : execScrubComplete s = .next t) (h0 : Comp.fns ∈ ks) (h1 : Comp.boot ∈ ks) (h2 : Comp.out ∈ ks) :
    ChangesOnly ks r t ↔ ChangesOnly ks r s := by
  injection e with e; subst e; simp only [↓enterReady_only, ↓ite_only, ite_self, h0, h1, h2]

theorem execPerstAssert_only {ks : List Comp} {r t : State} {s : State}
    (e : execPerstAssert s = .next t) (h0 : Comp.remaps ∈ ks) (h1 : Comp.mprogs ∈ ks) (h2 : Comp.slots ∈ ks) (h3 : Comp.barriers ∈ ks) (h4 : Comp.waits ∈ ks) (h5 : Comp.progs ∈ ks) (h6 : Comp.copies ∈ ks) (h7 : Comp.fns ∈ ks) (h8 : Comp.chans ∈ ks) (h9 : Comp.plans ∈ ks) (h10 : Comp.clusters ∈ ks) (h11 : Comp.lock ∈ ks) (h12 : Comp.ports ∈ ks) (h13 : Comp.outst ∈ ks) (h14 : Comp.sup ∈ ks) (h15 : Comp.ext ∈ ks) (h16 : Comp.logReads ∈ ks) (h17 : Comp.pieces ∈ ks) (h18 : Comp.scheduled ∈ ks) (h19 : Comp.deliveries ∈ ks) (h20 : Comp.geo ∈ ks) (h21 : Comp.tableLoads ∈ ks) (h22 : Comp.panel ∈ ks) (h23 : Comp.mprogLoads ∈ ks) (h24 : Comp.faults ∈ ks) (h25 : Comp.toReplace ∈ ks) (h26 : Comp.scratch ∈ ks) (h27 : Comp.runs ∈ ks) (h28 : Comp.frames ∈ ks) (h29 : Comp.strata ∈ ks) (h30 : Comp.boot ∈ ks) (h31 : Comp.out ∈ ks) (h32 : Comp.telem ∈ ks) (h33 : Comp.thermal ∈ ks) (h34 : Comp.nv ∈ ks) (h35 : Comp.free ∈ ks) (h36 : Comp.tables ∈ ks) (h37 : Comp.units ∈ ks) (h38 : Comp.stores ∈ ks) (h39 : Comp.loaded ∈ ks) (h40 : Comp.repro ∈ ks) (h41 : Comp.lanes ∈ ks) :
    ChangesOnly ks r t ↔ ChangesOnly ks r s := by
  injection e with e; subst e; simp only [↓hostReset_only, ↓pcieDown_only, ↓upd_boot_only, ↓ite_only, ite_self, h0, h1, h2, h3, h4, h5, h6, h7, h8, h9, h10, h11, h12, h13, h14, h15, h16, h17, h18, h19, h20, h21, h22, h23, h24, h25, h26, h27, h28, h29, h30, h31, h32, h33, h34, h35, h36, h37, h38, h39, h40, h41]

theorem execPerstDeassert_only {ks : List Comp} {r t : State} {s : State}
    (e : execPerstDeassert s = .next t) (h0 : Comp.boot ∈ ks) :
    ChangesOnly ks r t ↔ ChangesOnly ks r s := by
  injection e with e; subst e; simp only [↓upd_boot_only, ↓ite_only, ite_self, h0]

theorem execLinkL0_only {ks : List Comp} {r t : State} {s : State}
    (e : execLinkL0 s = .next t) (h0 : Comp.boot ∈ ks) :
    ChangesOnly ks r t ↔ ChangesOnly ks r s := by
  injection e with e; subst e; simp only [↓upd_boot_only, ↓ite_only, ite_self, h0]

theorem execPcieLinkDown_only {ks : List Comp} {r t : State} {s : State}
    (e : execPcieLinkDown s = .next t) (h0 : Comp.boot ∈ ks) :
    ChangesOnly ks r t ↔ ChangesOnly ks r s := by
  injection e with e; subst e; simp only [↓pcieDown_only, ↓ite_only, ite_self, h0]

theorem execPcieReferenceLost_only {ks : List Comp} {r t : State} {s : State}
    (e : execPcieReferenceLost s = .next t) (h0 : Comp.remaps ∈ ks) (h1 : Comp.mprogs ∈ ks) (h2 : Comp.slots ∈ ks) (h3 : Comp.barriers ∈ ks) (h4 : Comp.waits ∈ ks) (h5 : Comp.progs ∈ ks) (h6 : Comp.copies ∈ ks) (h7 : Comp.fns ∈ ks) (h8 : Comp.chans ∈ ks) (h9 : Comp.plans ∈ ks) (h10 : Comp.clusters ∈ ks) (h11 : Comp.lock ∈ ks) (h12 : Comp.ports ∈ ks) (h13 : Comp.outst ∈ ks) (h14 : Comp.sup ∈ ks) (h15 : Comp.ext ∈ ks) (h16 : Comp.logReads ∈ ks) (h17 : Comp.pieces ∈ ks) (h18 : Comp.scheduled ∈ ks) (h19 : Comp.deliveries ∈ ks) (h20 : Comp.geo ∈ ks) (h21 : Comp.tableLoads ∈ ks) (h22 : Comp.panel ∈ ks) (h23 : Comp.mprogLoads ∈ ks) (h24 : Comp.faults ∈ ks) (h25 : Comp.toReplace ∈ ks) (h26 : Comp.scratch ∈ ks) (h27 : Comp.runs ∈ ks) (h28 : Comp.frames ∈ ks) (h29 : Comp.strata ∈ ks) (h30 : Comp.boot ∈ ks) (h31 : Comp.out ∈ ks) (h32 : Comp.telem ∈ ks) (h33 : Comp.thermal ∈ ks) (h34 : Comp.nv ∈ ks) (h35 : Comp.free ∈ ks) (h36 : Comp.tables ∈ ks) (h37 : Comp.units ∈ ks) (h38 : Comp.stores ∈ ks) (h39 : Comp.loaded ∈ ks) (h40 : Comp.repro ∈ ks) (h41 : Comp.lanes ∈ ks) :
    ChangesOnly ks r t ↔ ChangesOnly ks r s := by
  injection e with e; subst e; simp only [↓hostReset_only, ↓pcieDown_only, ↓ite_only, ite_self, h0, h1, h2, h3, h4, h5, h6, h7, h8, h9, h10, h11, h12, h13, h14, h15, h16, h17, h18, h19, h20, h21, h22, h23, h24, h25, h26, h27, h28, h29, h30, h31, h32, h33, h34, h35, h36, h37, h38, h39, h40, h41]

theorem execConfigRequest_only {ks : List Comp} {r t : State} {fn : FnNo} {req : ConfigReq} {s : State}
    (e : execConfigRequest fn req s = .next t) (h0 : Comp.barriers ∈ ks) (h1 : Comp.waits ∈ ks) (h2 : Comp.progs ∈ ks) (h3 : Comp.copies ∈ ks) (h4 : Comp.fns ∈ ks) (h5 : Comp.chans ∈ ks) (h6 : Comp.clusters ∈ ks) (h7 : Comp.lock ∈ ks) (h8 : Comp.ports ∈ ks) (h9 : Comp.outst ∈ ks) (h10 : Comp.logReads ∈ ks) (h11 : Comp.scheduled ∈ ks) (h12 : Comp.deliveries ∈ ks) (h13 : Comp.geo ∈ ks) (h14 : Comp.tableLoads ∈ ks) (h15 : Comp.panel ∈ ks) (h16 : Comp.mprogLoads ∈ ks) (h17 : Comp.runs ∈ ks) (h18 : Comp.frames ∈ ks) (h19 : Comp.boot ∈ ks) (h20 : Comp.out ∈ ks) (h21 : Comp.telem ∈ ks) (h22 : Comp.nv ∈ ks) (h23 : Comp.stores ∈ ks) (h24 : Comp.loaded ∈ ks) :
    ChangesOnly ks r t ↔ ChangesOnly ks r s := by
  injection e with e; subst e; simp only [↓configRequest_only, ↓ite_only, ite_self, h0, h1, h2, h3, h4, h5, h6, h7, h8, h9, h10, h11, h12, h13, h14, h15, h16, h17, h18, h19, h20, h21, h22, h23, h24]

theorem execFlrPf_only {ks : List Comp} {r t : State} {s : State}
    (e : execFlrPf s = .next t) (h0 : Comp.remaps ∈ ks) (h1 : Comp.mprogs ∈ ks) (h2 : Comp.slots ∈ ks) (h3 : Comp.barriers ∈ ks) (h4 : Comp.waits ∈ ks) (h5 : Comp.progs ∈ ks) (h6 : Comp.copies ∈ ks) (h7 : Comp.fns ∈ ks) (h8 : Comp.chans ∈ ks) (h9 : Comp.plans ∈ ks) (h10 : Comp.clusters ∈ ks) (h11 : Comp.lock ∈ ks) (h12 : Comp.ports ∈ ks) (h13 : Comp.outst ∈ ks) (h14 : Comp.sup ∈ ks) (h15 : Comp.ext ∈ ks) (h16 : Comp.logReads ∈ ks) (h17 : Comp.pieces ∈ ks) (h18 : Comp.scheduled ∈ ks) (h19 : Comp.deliveries ∈ ks) (h20 : Comp.geo ∈ ks) (h21 : Comp.tableLoads ∈ ks) (h22 : Comp.panel ∈ ks) (h23 : Comp.mprogLoads ∈ ks) (h24 : Comp.faults ∈ ks) (h25 : Comp.toReplace ∈ ks) (h26 : Comp.scratch ∈ ks) (h27 : Comp.runs ∈ ks) (h28 : Comp.frames ∈ ks) (h29 : Comp.strata ∈ ks) (h30 : Comp.boot ∈ ks) (h31 : Comp.out ∈ ks) (h32 : Comp.telem ∈ ks) (h33 : Comp.thermal ∈ ks) (h34 : Comp.nv ∈ ks) (h35 : Comp.free ∈ ks) (h36 : Comp.tables ∈ ks) (h37 : Comp.units ∈ ks) (h38 : Comp.stores ∈ ks) (h39 : Comp.loaded ∈ ks) (h40 : Comp.repro ∈ ks) (h41 : Comp.lanes ∈ ks) :
    ChangesOnly ks r t ↔ ChangesOnly ks r s := by
  injection e with e; subst e; simp only [↓hostReset_only, ↓ite_only, ite_self, h0, h1, h2, h3, h4, h5, h6, h7, h8, h9, h10, h11, h12, h13, h14, h15, h16, h17, h18, h19, h20, h21, h22, h23, h24, h25, h26, h27, h28, h29, h30, h31, h32, h33, h34, h35, h36, h37, h38, h39, h40, h41]

theorem execFlrVf_only {ks : List Comp} {r t : State} {fn : FnNo} {s : State}
    (e : execFlrVf fn s = .next t) (h0 : Comp.barriers ∈ ks) (h1 : Comp.waits ∈ ks) (h2 : Comp.progs ∈ ks) (h3 : Comp.copies ∈ ks) (h4 : Comp.fns ∈ ks) (h5 : Comp.chans ∈ ks) (h6 : Comp.clusters ∈ ks) (h7 : Comp.lock ∈ ks) (h8 : Comp.ports ∈ ks) (h9 : Comp.outst ∈ ks) (h10 : Comp.logReads ∈ ks) (h11 : Comp.scheduled ∈ ks) (h12 : Comp.deliveries ∈ ks) (h13 : Comp.geo ∈ ks) (h14 : Comp.tableLoads ∈ ks) (h15 : Comp.panel ∈ ks) (h16 : Comp.mprogLoads ∈ ks) (h17 : Comp.runs ∈ ks) (h18 : Comp.frames ∈ ks) (h19 : Comp.out ∈ ks) (h20 : Comp.telem ∈ ks) (h21 : Comp.nv ∈ ks) (h22 : Comp.stores ∈ ks) (h23 : Comp.loaded ∈ ks) :
    ChangesOnly ks r t ↔ ChangesOnly ks r s := by
  injection e with e; subst e; simp only [↓functionReset_only, ↓ite_only, ite_self, h0, h1, h2, h3, h4, h5, h6, h7, h8, h9, h10, h11, h12, h13, h14, h15, h16, h17, h18, h19, h20, h21, h22, h23]

theorem execD0ToD3hot_only {ks : List Comp} {r t : State} {s : State}
    (e : execD0ToD3hot s = .next t) (h0 : Comp.boot ∈ ks) :
    ChangesOnly ks r t ↔ ChangesOnly ks r s := by
  injection e with e; subst e; simp only [↓upd_boot_only, ↓ite_only, ite_self, h0]

theorem execD3hotToD0_only {ks : List Comp} {r t : State} {s : State}
    (e : execD3hotToD0 s = .next t) (h0 : Comp.remaps ∈ ks) (h1 : Comp.mprogs ∈ ks) (h2 : Comp.slots ∈ ks) (h3 : Comp.barriers ∈ ks) (h4 : Comp.waits ∈ ks) (h5 : Comp.progs ∈ ks) (h6 : Comp.copies ∈ ks) (h7 : Comp.fns ∈ ks) (h8 : Comp.chans ∈ ks) (h9 : Comp.plans ∈ ks) (h10 : Comp.clusters ∈ ks) (h11 : Comp.lock ∈ ks) (h12 : Comp.ports ∈ ks) (h13 : Comp.outst ∈ ks) (h14 : Comp.sup ∈ ks) (h15 : Comp.ext ∈ ks) (h16 : Comp.logReads ∈ ks) (h17 : Comp.pieces ∈ ks) (h18 : Comp.scheduled ∈ ks) (h19 : Comp.deliveries ∈ ks) (h20 : Comp.geo ∈ ks) (h21 : Comp.tableLoads ∈ ks) (h22 : Comp.panel ∈ ks) (h23 : Comp.mprogLoads ∈ ks) (h24 : Comp.faults ∈ ks) (h25 : Comp.toReplace ∈ ks) (h26 : Comp.scratch ∈ ks) (h27 : Comp.runs ∈ ks) (h28 : Comp.frames ∈ ks) (h29 : Comp.strata ∈ ks) (h30 : Comp.boot ∈ ks) (h31 : Comp.out ∈ ks) (h32 : Comp.telem ∈ ks) (h33 : Comp.thermal ∈ ks) (h34 : Comp.nv ∈ ks) (h35 : Comp.free ∈ ks) (h36 : Comp.tables ∈ ks) (h37 : Comp.units ∈ ks) (h38 : Comp.stores ∈ ks) (h39 : Comp.loaded ∈ ks) (h40 : Comp.repro ∈ ks) (h41 : Comp.lanes ∈ ks) :
    ChangesOnly ks r t ↔ ChangesOnly ks r s := by
  injection e with e; subst e; simp only [↓hostReset_only, ↓upd_boot_only, ↓ite_only, ite_self, h0, h1, h2, h3, h4, h5, h6, h7, h8, h9, h10, h11, h12, h13, h14, h15, h16, h17, h18, h19, h20, h21, h22, h23, h24, h25, h26, h27, h28, h29, h30, h31, h32, h33, h34, h35, h36, h37, h38, h39, h40, h41]

theorem execVfEnableClear_only {ks : List Comp} {r t : State} {vfs : Option Nat} {s : State}
    (e : execVfEnableClear vfs s = .next t) (h0 : Comp.barriers ∈ ks) (h1 : Comp.waits ∈ ks) (h2 : Comp.progs ∈ ks) (h3 : Comp.copies ∈ ks) (h4 : Comp.fns ∈ ks) (h5 : Comp.chans ∈ ks) (h6 : Comp.clusters ∈ ks) (h7 : Comp.lock ∈ ks) (h8 : Comp.ports ∈ ks) (h9 : Comp.outst ∈ ks) (h10 : Comp.logReads ∈ ks) (h11 : Comp.scheduled ∈ ks) (h12 : Comp.deliveries ∈ ks) (h13 : Comp.geo ∈ ks) (h14 : Comp.tableLoads ∈ ks) (h15 : Comp.panel ∈ ks) (h16 : Comp.mprogLoads ∈ ks) (h17 : Comp.runs ∈ ks) (h18 : Comp.frames ∈ ks) (h19 : Comp.boot ∈ ks) (h20 : Comp.out ∈ ks) (h21 : Comp.telem ∈ ks) (h22 : Comp.nv ∈ ks) (h23 : Comp.stores ∈ ks) (h24 : Comp.loaded ∈ ks) :
    ChangesOnly ks r t ↔ ChangesOnly ks r s := by
  injection e with e; subst e; (repeat' split) <;> simp only [↓setVfs_only, ↓ite_only, ite_self, h0, h1, h2, h3, h4, h5, h6, h7, h8, h9, h10, h11, h12, h13, h14, h15, h16, h17, h18, h19, h20, h21, h22, h23, h24]

theorem execBusMasterEnable_only {ks : List Comp} {r t : State} {fn : FnNo} {enable : Bool} {s : State}
    (e : execBusMasterEnable fn enable s = .next t) (h0 : Comp.waits ∈ ks) (h1 : Comp.progs ∈ ks) (h2 : Comp.fns ∈ ks) (h3 : Comp.chans ∈ ks) (h4 : Comp.clusters ∈ ks) (h5 : Comp.lock ∈ ks) (h6 : Comp.ports ∈ ks) (h7 : Comp.outst ∈ ks) (h8 : Comp.deliveries ∈ ks) (h9 : Comp.geo ∈ ks) (h10 : Comp.runs ∈ ks) (h11 : Comp.frames ∈ ks) (h12 : Comp.out ∈ ks) (h13 : Comp.telem ∈ ks) (h14 : Comp.loaded ∈ ks) :
    ChangesOnly ks r t ↔ ChangesOnly ks r s := by
  injection e with e; subst e; simp only [↓busMaster_only, ↓ite_only, ite_self, h0, h1, h2, h3, h4, h5, h6, h7, h8, h9, h10, h11, h12, h13, h14]

theorem execWatchdogTimeout_only {ks : List Comp} {r t : State} {counter : W32} {opcode : BitVec 8} {s : State}
    (e : execWatchdogTimeout counter opcode s = .next t) (h0 : Comp.remaps ∈ ks) (h1 : Comp.barriers ∈ ks) (h2 : Comp.waits ∈ ks) (h3 : Comp.progs ∈ ks) (h4 : Comp.copies ∈ ks) (h5 : Comp.fns ∈ ks) (h6 : Comp.chans ∈ ks) (h7 : Comp.lock ∈ ks) (h8 : Comp.ports ∈ ks) (h9 : Comp.outst ∈ ks) (h10 : Comp.logReads ∈ ks) (h11 : Comp.pieces ∈ ks) (h12 : Comp.scheduled ∈ ks) (h13 : Comp.deliveries ∈ ks) (h14 : Comp.tableLoads ∈ ks) (h15 : Comp.mprogLoads ∈ ks) (h16 : Comp.runs ∈ ks) (h17 : Comp.frames ∈ ks) (h18 : Comp.boot ∈ ks) (h19 : Comp.out ∈ ks) (h20 : Comp.stores ∈ ks) (h21 : Comp.loaded ∈ ks) :
    ChangesOnly ks r t ↔ ChangesOnly ks r s := by
  injection e with e; subst e; simp only [↓enterFatal_only, ↓ite_only, ite_self, h0, h1, h2, h3, h4, h5, h6, h7, h8, h9, h10, h11, h12, h13, h14, h15, h16, h17, h18, h19, h20, h21]

theorem execSupervisorMemoryError_only {ks : List Comp} {r t : State} {address : W32} {s : State}
    (e : execSupervisorMemoryError address s = .next t) (h0 : Comp.remaps ∈ ks) (h1 : Comp.barriers ∈ ks) (h2 : Comp.waits ∈ ks) (h3 : Comp.progs ∈ ks) (h4 : Comp.copies ∈ ks) (h5 : Comp.fns ∈ ks) (h6 : Comp.chans ∈ ks) (h7 : Comp.lock ∈ ks) (h8 : Comp.ports ∈ ks) (h9 : Comp.outst ∈ ks) (h10 : Comp.logReads ∈ ks) (h11 : Comp.pieces ∈ ks) (h12 : Comp.scheduled ∈ ks) (h13 : Comp.deliveries ∈ ks) (h14 : Comp.tableLoads ∈ ks) (h15 : Comp.mprogLoads ∈ ks) (h16 : Comp.runs ∈ ks) (h17 : Comp.frames ∈ ks) (h18 : Comp.boot ∈ ks) (h19 : Comp.out ∈ ks) (h20 : Comp.stores ∈ ks) (h21 : Comp.loaded ∈ ks) :
    ChangesOnly ks r t ↔ ChangesOnly ks r s := by
  injection e with e; subst e; simp only [↓enterFatal_only, ↓ite_only, ite_self, h0, h1, h2, h3, h4, h5, h6, h7, h8, h9, h10, h11, h12, h13, h14, h15, h16, h17, h18, h19, h20, h21]

theorem execAonCrystalLost_only {ks : List Comp} {r t : State} {pll : Bool} {status : W32} {s : State}
    (e : execAonCrystalLost pll status s = .next t) (h0 : Comp.remaps ∈ ks) (h1 : Comp.barriers ∈ ks) (h2 : Comp.waits ∈ ks) (h3 : Comp.progs ∈ ks) (h4 : Comp.copies ∈ ks) (h5 : Comp.fns ∈ ks) (h6 : Comp.chans ∈ ks) (h7 : Comp.lock ∈ ks) (h8 : Comp.ports ∈ ks) (h9 : Comp.outst ∈ ks) (h10 : Comp.logReads ∈ ks) (h11 : Comp.pieces ∈ ks) (h12 : Comp.scheduled ∈ ks) (h13 : Comp.deliveries ∈ ks) (h14 : Comp.tableLoads ∈ ks) (h15 : Comp.mprogLoads ∈ ks) (h16 : Comp.runs ∈ ks) (h17 : Comp.frames ∈ ks) (h18 : Comp.boot ∈ ks) (h19 : Comp.out ∈ ks) (h20 : Comp.stores ∈ ks) (h21 : Comp.loaded ∈ ks) :
    ChangesOnly ks r t ↔ ChangesOnly ks r s := by
  injection e with e; subst e; simp only [↓enterFatal_only, ↓ite_only, ite_self, h0, h1, h2, h3, h4, h5, h6, h7, h8, h9, h10, h11, h12, h13, h14, h15, h16, h17, h18, h19, h20, h21]

theorem execAlwaysOnParity_only {ks : List Comp} {r t : State} {group : W32} {s : State}
    (e : execAlwaysOnParity group s = .next t) (h0 : Comp.remaps ∈ ks) (h1 : Comp.barriers ∈ ks) (h2 : Comp.waits ∈ ks) (h3 : Comp.progs ∈ ks) (h4 : Comp.copies ∈ ks) (h5 : Comp.fns ∈ ks) (h6 : Comp.chans ∈ ks) (h7 : Comp.lock ∈ ks) (h8 : Comp.ports ∈ ks) (h9 : Comp.outst ∈ ks) (h10 : Comp.logReads ∈ ks) (h11 : Comp.pieces ∈ ks) (h12 : Comp.scheduled ∈ ks) (h13 : Comp.deliveries ∈ ks) (h14 : Comp.tableLoads ∈ ks) (h15 : Comp.mprogLoads ∈ ks) (h16 : Comp.runs ∈ ks) (h17 : Comp.frames ∈ ks) (h18 : Comp.boot ∈ ks) (h19 : Comp.out ∈ ks) (h20 : Comp.stores ∈ ks) (h21 : Comp.loaded ∈ ks) :
    ChangesOnly ks r t ↔ ChangesOnly ks r s := by
  injection e with e; subst e; simp only [↓enterFatal_only, ↓ite_only, ite_self, h0, h1, h2, h3, h4, h5, h6, h7, h8, h9, h10, h11, h12, h13, h14, h15, h16, h17, h18, h19, h20, h21]

theorem execFirmwareIntegrityFailed_only {ks : List Comp} {r t : State} {check : W32} {s : State}
    (e : execFirmwareIntegrityFailed check s = .next t) (h0 : Comp.remaps ∈ ks) (h1 : Comp.barriers ∈ ks) (h2 : Comp.waits ∈ ks) (h3 : Comp.progs ∈ ks) (h4 : Comp.copies ∈ ks) (h5 : Comp.fns ∈ ks) (h6 : Comp.chans ∈ ks) (h7 : Comp.lock ∈ ks) (h8 : Comp.ports ∈ ks) (h9 : Comp.outst ∈ ks) (h10 : Comp.logReads ∈ ks) (h11 : Comp.pieces ∈ ks) (h12 : Comp.scheduled ∈ ks) (h13 : Comp.deliveries ∈ ks) (h14 : Comp.tableLoads ∈ ks) (h15 : Comp.mprogLoads ∈ ks) (h16 : Comp.runs ∈ ks) (h17 : Comp.frames ∈ ks) (h18 : Comp.boot ∈ ks) (h19 : Comp.out ∈ ks) (h20 : Comp.stores ∈ ks) (h21 : Comp.loaded ∈ ks) :
    ChangesOnly ks r t ↔ ChangesOnly ks r s := by
  injection e with e; subst e; simp only [↓enterFatal_only, ↓ite_only, ite_self, h0, h1, h2, h3, h4, h5, h6, h7, h8, h9, h10, h11, h12, h13, h14, h15, h16, h17, h18, h19, h20, h21]

/-! ### Thermal -/

theorem modThermal_only {ks : List Comp} {r : State} (s : State) (f : Thermal → Thermal)
    (h0 : Comp.thermal ∈ ks) :
    ChangesOnly ks r (State.modThermal s f) ↔ ChangesOnly ks r s := by
  unfold State.modThermal; simp only [↓upd_thermal_only, ↓ite_only, ite_self, h0]

theorem sensorFails_only {ks : List Comp} {r : State} (s : State) (n : Fin 83)
    (h0 : Comp.waits ∈ ks) (h1 : Comp.fns ∈ ks) (h2 : Comp.faults ∈ ks) (h3 : Comp.out ∈ ks) (h4 : Comp.telem ∈ ks) (h5 : Comp.thermal ∈ ks) :
    ChangesOnly ks r (State.sensorFails s n) ↔ ChangesOnly ks r s := by
  unfold State.sensorFails; simp only [↓modThermal_only, ↓occur_only, ↓fault_only, ↓ite_only, ite_self, h0, h1, h2, h3, h4, h5]

theorem sampleSensor_only {ks : List Comp} {r : State} (s : State) (n : Fin 83) (v : Int)
    (h0 : Comp.waits ∈ ks) (h1 : Comp.fns ∈ ks) (h2 : Comp.faults ∈ ks) (h3 : Comp.out ∈ ks) (h4 : Comp.telem ∈ ks) (h5 : Comp.thermal ∈ ks) :
    ChangesOnly ks r (State.sampleSensor s n v) ↔ ChangesOnly ks r s := by
  unfold State.sampleSensor; simp only [↓modThermal_only, ↓sensorFails_only, ↓ite_only, ite_self, h0, h1, h2, h3, h4, h5]

theorem sendThermalCap_only {ks : List Comp} {r : State} (s : State)
    (h0 : Comp.waits ∈ ks) (h1 : Comp.fns ∈ ks) (h2 : Comp.out ∈ ks) :
    ChangesOnly ks r (State.sendThermalCap s) ↔ ChangesOnly ks r s := by
  unfold State.sendThermalCap; simp only [↓occurAll_only, ↓ite_only, ite_self, h0, h1, h2]

theorem setThermalCap_only {ks : List Comp} {r : State} (s : State) (c : Option Nat)
    (h0 : Comp.waits ∈ ks) (h1 : Comp.fns ∈ ks) (h2 : Comp.plans ∈ ks) (h3 : Comp.out ∈ ks) (h4 : Comp.repro ∈ ks) :
    ChangesOnly ks r (State.setThermalCap s c) ↔ ChangesOnly ks r s := by
  unfold State.setThermalCap; simp only [↓capMoved_only, ↓upd_plans_only, ↓ite_only, ite_self, h0, h1, h2, h3, h4]

theorem enterCapped_only {ks : List Comp} {r : State} (s : State) (cap : Nat)
    (h0 : Comp.slots ∈ ks) (h1 : Comp.waits ∈ ks) (h2 : Comp.fns ∈ ks) (h3 : Comp.plans ∈ ks) (h4 : Comp.sup ∈ ks) (h5 : Comp.out ∈ ks) (h6 : Comp.telem ∈ ks) (h7 : Comp.thermal ∈ ks) (h8 : Comp.repro ∈ ks) :
    ChangesOnly ks r (State.enterCapped s cap) ↔ ChangesOnly ks r s := by
  unfold State.enterCapped; simp only [↓modThermal_only, ↓setThermalCap_only, ↓throttle_only, ↓settlePlan_only, ↓sendThermalCap_only, ↓lapse_only, ↓ite_only, ite_self, h0, h1, h2, h3, h4, h5, h6, h7, h8]

theorem stepCap_only {ks : List Comp} {r : State} (s : State) (cap : Nat)
    (h0 : Comp.slots ∈ ks) (h1 : Comp.waits ∈ ks) (h2 : Comp.fns ∈ ks) (h3 : Comp.plans ∈ ks) (h4 : Comp.sup ∈ ks) (h5 : Comp.out ∈ ks) (h6 : Comp.repro ∈ ks) :
    ChangesOnly ks r (State.stepCap s cap) ↔ ChangesOnly ks r s := by
  unfold State.stepCap; simp only [↓settlePlan_only, ↓sendThermalCap_only, ↓setThermalCap_only, ↓ite_only, ite_self, h0, h1, h2, h3, h4, h5, h6]

theorem sensorCap_only {ks : List Comp} {r : State} (s : State)
    (h0 : Comp.slots ∈ ks) (h1 : Comp.waits ∈ ks) (h2 : Comp.fns ∈ ks) (h3 : Comp.plans ∈ ks) (h4 : Comp.sup ∈ ks) (h5 : Comp.out ∈ ks) (h6 : Comp.telem ∈ ks) (h7 : Comp.thermal ∈ ks) (h8 : Comp.repro ∈ ks) :
    ChangesOnly ks r (State.sensorCap s) ↔ ChangesOnly ks r s := by
  unfold State.sensorCap; simp only [↓modThermal_only, ↓stepCap_only, ↓enterCapped_only, ↓ite_only, ite_self, h0, h1, h2, h3, h4, h5, h6, h7, h8]

theorem noteTj_only {ks : List Comp} {r : State} (s : State) (tj : Int)
    (h0 : Comp.waits ∈ ks) (h1 : Comp.fns ∈ ks) (h2 : Comp.out ∈ ks) (h3 : Comp.thermal ∈ ks) :
    ChangesOnly ks r (State.noteTj s tj) ↔ ChangesOnly ks r s := by
  unfold State.noteTj; simp only [↓modThermal_only, ↓occur_only, ↓ite_only, ite_self, h0, h1, h2, h3]

theorem capSample_only {ks : List Comp} {r : State} (s : State) (tj : Int)
    (h0 : Comp.slots ∈ ks) (h1 : Comp.waits ∈ ks) (h2 : Comp.fns ∈ ks) (h3 : Comp.plans ∈ ks) (h4 : Comp.sup ∈ ks) (h5 : Comp.out ∈ ks) (h6 : Comp.telem ∈ ks) (h7 : Comp.thermal ∈ ks) (h8 : Comp.repro ∈ ks) :
    ChangesOnly ks r (State.capSample s tj) ↔ ChangesOnly ks r s := by
  unfold State.capSample; simp only [↓enterCapped_only, ↓modThermal_only, ↓ite_only, ite_self, h0, h1, h2, h3, h4, h5, h6, h7, h8]

theorem shutSample_only {ks : List Comp} {r : State} (s : State) (tj : Int)
    (h0 : Comp.remaps ∈ ks) (h1 : Comp.barriers ∈ ks) (h2 : Comp.waits ∈ ks) (h3 : Comp.progs ∈ ks) (h4 : Comp.copies ∈ ks) (h5 : Comp.fns ∈ ks) (h6 : Comp.chans ∈ ks) (h7 : Comp.lock ∈ ks) (h8 : Comp.ports ∈ ks) (h9 : Comp.outst ∈ ks) (h10 : Comp.logReads ∈ ks) (h11 : Comp.pieces ∈ ks) (h12 : Comp.scheduled ∈ ks) (h13 : Comp.deliveries ∈ ks) (h14 : Comp.tableLoads ∈ ks) (h15 : Comp.mprogLoads ∈ ks) (h16 : Comp.runs ∈ ks) (h17 : Comp.frames ∈ ks) (h18 : Comp.boot ∈ ks) (h19 : Comp.out ∈ ks) (h20 : Comp.thermal ∈ ks) (h21 : Comp.stores ∈ ks) (h22 : Comp.loaded ∈ ks) :
    ChangesOnly ks r (State.shutSample s tj) ↔ ChangesOnly ks r s := by
  unfold State.shutSample; simp only [↓modThermal_only, ↓enterFatal_only, ↓ite_only, ite_self, h0, h1, h2, h3, h4, h5, h6, h7, h8, h9, h10, h11, h12, h13, h14, h15, h16, h17, h18, h19, h20, h21, h22]

theorem sampleDie_only {ks : List Comp} {r : State} (readings : List Int) (s : State)
    (h0 : Comp.remaps ∈ ks) (h1 : Comp.slots ∈ ks) (h2 : Comp.barriers ∈ ks) (h3 : Comp.waits ∈ ks) (h4 : Comp.progs ∈ ks) (h5 : Comp.copies ∈ ks) (h6 : Comp.fns ∈ ks) (h7 : Comp.chans ∈ ks) (h8 : Comp.plans ∈ ks) (h9 : Comp.lock ∈ ks) (h10 : Comp.ports ∈ ks) (h11 : Comp.outst ∈ ks) (h12 : Comp.sup ∈ ks) (h13 : Comp.logReads ∈ ks) (h14 : Comp.pieces ∈ ks) (h15 : Comp.scheduled ∈ ks) (h16 : Comp.deliveries ∈ ks) (h17 : Comp.tableLoads ∈ ks) (h18 : Comp.mprogLoads ∈ ks) (h19 : Comp.faults ∈ ks) (h20 : Comp.runs ∈ ks) (h21 : Comp.frames ∈ ks) (h22 : Comp.boot ∈ ks) (h23 : Comp.out ∈ ks) (h24 : Comp.telem ∈ ks) (h25 : Comp.thermal ∈ ks) (h26 : Comp.stores ∈ ks) (h27 : Comp.loaded ∈ ks) (h28 : Comp.repro ∈ ks) :
    ChangesOnly ks r (sampleDie readings s) ↔ ChangesOnly ks r s := by
  unfold sampleDie
  repeat' (first | with_reducible rfl | (simp only [↓sampleSensor_only, ↓sensorCap_only, ↓modThermal_only, ↓shutSample_only, ↓capSample_only, ↓noteTj_only, ↓forEach_only, ↓ite_only, ite_self, h0, h1, h2, h3, h4, h5, h6, h7, h8, h9, h10, h11, h12, h13, h14, h15, h16, h17, h18, h19, h20, h21, h22, h23, h24, h25, h26, h27, h28]) | with_reducible (refine (forEach_only (fun _ _ => ?_) _ _).trans ?_) | split | dsimp only)

theorem stepExpires_only {ks : List Comp} {r : State} (s : State)
    (h0 : Comp.slots ∈ ks) (h1 : Comp.waits ∈ ks) (h2 : Comp.fns ∈ ks) (h3 : Comp.tick ∈ ks) (h4 : Comp.plans ∈ ks) (h5 : Comp.sup ∈ ks) (h6 : Comp.out ∈ ks) (h7 : Comp.thermal ∈ ks) (h8 : Comp.repro ∈ ks) :
    ChangesOnly ks r (stepExpires s) ↔ ChangesOnly ks r s := by
  unfold stepExpires; simp only [↓reach_only, ↓modThermal_only, ↓stepCap_only, ↓ite_only, ite_self, h0, h1, h2, h3, h4, h5, h6, h7, h8]

theorem releaseExpires_only {ks : List Comp} {r : State} (s : State)
    (h0 : Comp.slots ∈ ks) (h1 : Comp.waits ∈ ks) (h2 : Comp.fns ∈ ks) (h3 : Comp.tick ∈ ks) (h4 : Comp.plans ∈ ks) (h5 : Comp.sup ∈ ks) (h6 : Comp.out ∈ ks) (h7 : Comp.thermal ∈ ks) (h8 : Comp.repro ∈ ks) :
    ChangesOnly ks r (releaseExpires s) ↔ ChangesOnly ks r s := by
  unfold releaseExpires; (repeat' split) <;> simp [↓reach_only, ↓setThermalCap_only, ↓modThermal_only, ↓settlePlan_only, ↓occurAll_only, ↓ite_only, ite_self, h0, h1, h2, h3, h4, h5, h6, h7, h8]

theorem smbus_only {ks : List Comp} {r : State} (s : State) (data : Option (List Byte))
    (h0 : Comp.out ∈ ks) :
    ChangesOnly ks r (State.smbus s data) ↔ ChangesOnly ks r s := by
  unfold State.smbus; simp only [↓emit_only, ↓ite_only, ite_self, h0]

theorem execSensorSample_only {ks : List Comp} {r t : State} {readings : List Int} {s : State}
    (e : execSensorSample readings s = .next t) (h0 : Comp.remaps ∈ ks) (h1 : Comp.slots ∈ ks) (h2 : Comp.barriers ∈ ks) (h3 : Comp.waits ∈ ks) (h4 : Comp.progs ∈ ks) (h5 : Comp.copies ∈ ks) (h6 : Comp.fns ∈ ks) (h7 : Comp.chans ∈ ks) (h8 : Comp.plans ∈ ks) (h9 : Comp.lock ∈ ks) (h10 : Comp.ports ∈ ks) (h11 : Comp.outst ∈ ks) (h12 : Comp.sup ∈ ks) (h13 : Comp.logReads ∈ ks) (h14 : Comp.pieces ∈ ks) (h15 : Comp.scheduled ∈ ks) (h16 : Comp.deliveries ∈ ks) (h17 : Comp.tableLoads ∈ ks) (h18 : Comp.mprogLoads ∈ ks) (h19 : Comp.faults ∈ ks) (h20 : Comp.runs ∈ ks) (h21 : Comp.frames ∈ ks) (h22 : Comp.boot ∈ ks) (h23 : Comp.out ∈ ks) (h24 : Comp.telem ∈ ks) (h25 : Comp.thermal ∈ ks) (h26 : Comp.stores ∈ ks) (h27 : Comp.loaded ∈ ks) (h28 : Comp.repro ∈ ks) :
    ChangesOnly ks r t ↔ ChangesOnly ks r s := by
  injection e with e; subst e; simp only [↓sampleDie_only, ↓ite_only, ite_self, h0, h1, h2, h3, h4, h5, h6, h7, h8, h9, h10, h11, h12, h13, h14, h15, h16, h17, h18, h19, h20, h21, h22, h23, h24, h25, h26, h27, h28]

theorem execCardSensorSample_only {ks : List Comp} {r t : State} {reading : Int} {s : State}
    (e : execCardSensorSample reading s = .next t) (h0 : Comp.waits ∈ ks) (h1 : Comp.fns ∈ ks) (h2 : Comp.faults ∈ ks) (h3 : Comp.out ∈ ks) (h4 : Comp.telem ∈ ks) (h5 : Comp.thermal ∈ ks) :
    ChangesOnly ks r t ↔ ChangesOnly ks r s := by
  injection e with e; subst e; simp only [↓sampleSensor_only, ↓ite_only, ite_self, h0, h1, h2, h3, h4, h5]

theorem execStepTimer_only {ks : List Comp} {r t : State} {s : State}
    (e : execStepTimer s = .next t) (h0 : Comp.slots ∈ ks) (h1 : Comp.waits ∈ ks) (h2 : Comp.fns ∈ ks) (h3 : Comp.tick ∈ ks) (h4 : Comp.plans ∈ ks) (h5 : Comp.sup ∈ ks) (h6 : Comp.out ∈ ks) (h7 : Comp.thermal ∈ ks) (h8 : Comp.repro ∈ ks) :
    ChangesOnly ks r t ↔ ChangesOnly ks r s := by
  injection e with e; subst e; simp only [↓stepExpires_only, ↓ite_only, ite_self, h0, h1, h2, h3, h4, h5, h6, h7, h8]

theorem execReleaseTimer_only {ks : List Comp} {r t : State} {s : State}
    (e : execReleaseTimer s = .next t) (h0 : Comp.slots ∈ ks) (h1 : Comp.waits ∈ ks) (h2 : Comp.fns ∈ ks) (h3 : Comp.tick ∈ ks) (h4 : Comp.plans ∈ ks) (h5 : Comp.sup ∈ ks) (h6 : Comp.out ∈ ks) (h7 : Comp.thermal ∈ ks) (h8 : Comp.repro ∈ ks) :
    ChangesOnly ks r t ↔ ChangesOnly ks r s := by
  injection e with e; subst e; simp only [↓releaseExpires_only, ↓ite_only, ite_self, h0, h1, h2, h3, h4, h5, h6, h7, h8]

theorem execSmbusProduct_only {ks : List Comp} {r t : State} {s : State}
    (e : execSmbusProduct s = .next t) (h0 : Comp.out ∈ ks) :
    ChangesOnly ks r t ↔ ChangesOnly ks r s := by
  injection e with e; subst e; simp only [↓smbus_only, ↓ite_only, ite_self, h0]

theorem execSmbusOrder_only {ks : List Comp} {r t : State} {s : State}
    (e : execSmbusOrder s = .next t) (h0 : Comp.out ∈ ks) :
    ChangesOnly ks r t ↔ ChangesOnly ks r s := by
  injection e with e; subst e; simp only [↓smbus_only, ↓ite_only, ite_self, h0]

theorem execSmbusSerial_only {ks : List Comp} {r t : State} {s : State}
    (e : execSmbusSerial s = .next t) (h0 : Comp.out ∈ ks) :
    ChangesOnly ks r t ↔ ChangesOnly ks r s := by
  injection e with e; subst e; simp only [↓smbus_only, ↓ite_only, ite_self, h0]

theorem execSmbusFwVersion_only {ks : List Comp} {r t : State} {s : State}
    (e : execSmbusFwVersion s = .next t) (h0 : Comp.out ∈ ks) :
    ChangesOnly ks r t ↔ ChangesOnly ks r s := by
  injection e with e; subst e; simp only [↓smbus_only, ↓ite_only, ite_self, h0]

theorem execSmbusSupplyStatus_only {ks : List Comp} {r t : State} {s : State}
    (e : execSmbusSupplyStatus s = .next t) (h0 : Comp.out ∈ ks) :
    ChangesOnly ks r t ↔ ChangesOnly ks r s := by
  injection e with e; subst e; simp only [↓smbus_only, ↓ite_only, ite_self, h0]

theorem execSmbusVinMain_only {ks : List Comp} {r t : State} {s : State}
    (e : execSmbusVinMain s = .next t) (h0 : Comp.out ∈ ks) :
    ChangesOnly ks r t ↔ ChangesOnly ks r s := by
  injection e with e; subst e; simp only [↓smbus_only, ↓ite_only, ite_self, h0]

theorem execSmbusVinAux_only {ks : List Comp} {r t : State} {s : State}
    (e : execSmbusVinAux s = .next t) (h0 : Comp.out ∈ ks) :
    ChangesOnly ks r t ↔ ChangesOnly ks r s := by
  injection e with e; subst e; simp only [↓smbus_only, ↓ite_only, ite_self, h0]

theorem execSmbusPowerState_only {ks : List Comp} {r t : State} {s : State}
    (e : execSmbusPowerState s = .next t) (h0 : Comp.out ∈ ks) :
    ChangesOnly ks r t ↔ ChangesOnly ks r s := by
  injection e with e; subst e; simp only [↓smbus_only, ↓ite_only, ite_self, h0]

theorem execSmbusTJ_only {ks : List Comp} {r t : State} {s : State}
    (e : execSmbusTJ s = .next t) (h0 : Comp.out ∈ ks) :
    ChangesOnly ks r t ↔ ChangesOnly ks r s := by
  injection e with e; subst e; simp only [↓smbus_only, ↓ite_only, ite_self, h0]

theorem execSmbusCardTemperature_only {ks : List Comp} {r t : State} {s : State}
    (e : execSmbusCardTemperature s = .next t) (h0 : Comp.out ∈ ks) :
    ChangesOnly ks r t ↔ ChangesOnly ks r s := by
  injection e with e; subst e; simp only [↓smbus_only, ↓ite_only, ite_self, h0]

theorem execSmbusState_only {ks : List Comp} {r t : State} {s : State}
    (e : execSmbusState s = .next t) (h0 : Comp.out ∈ ks) :
    ChangesOnly ks r t ↔ ChangesOnly ks r s := by
  injection e with e; subst e; simp only [↓smbus_only, ↓ite_only, ite_self, h0]

theorem execSmbusNack_only {ks : List Comp} {r t : State} {code : BitVec 8} {write : Bool} {protocol : BitVec 8} {s : State}
    (e : execSmbusNack code write protocol s = .next t) (h0 : Comp.out ∈ ks) :
    ChangesOnly ks r t ↔ ChangesOnly ks r s := by
  injection e with e; subst e; simp only [↓smbus_only, ↓ite_only, ite_self, h0]

/-! ### Telemetry -/

theorem foldAll_only {ks : List Comp} {r : State} (s : State)
    (h0 : Comp.chans ∈ ks) (h1 : Comp.telem ∈ ks) :
    ChangesOnly ks r (State.foldAll s) ↔ ChangesOnly ks r s := by
  unfold State.foldAll; simp [↓foldStarved_only, ↓forEach_only, ↓ite_only, ite_self, h0, h1]

theorem clearGroup_only {ks : List Comp} {r : State} (s : State) (fn : FnNo) (g : BitVec 8) (c : W16)
    (h0 : Comp.chans ∈ ks) (h1 : Comp.telem ∈ ks) (h2 : Comp.thermal ∈ ks) :
    ChangesOnly ks r (State.clearGroup s fn g c) ↔ ChangesOnly ks r s := by
  unfold State.clearGroup; simp only [↓modThermal_only, ↓upd_chans_only, ↓upd_telem_only, ↓ite_only, ite_self, h0, h1, h2]

theorem execTelemetryRead_only {ks : List Comp} {r t : State} {fn : FnNo} {qp : QpNo} {pkt : Packet} {s : State}
    (e : execTelemetryRead fn qp pkt s = .next t) (h0 : Comp.fns ∈ ks) (h1 : Comp.chans ∈ ks) (h2 : Comp.out ∈ ks) (h3 : Comp.telem ∈ ks) :
    ChangesOnly ks r t ↔ ChangesOnly ks r s := by
  injection e with e; subst e
  repeat' (first | with_reducible rfl | assumption | intro _ | (simp only [↓shortCommand_only, ↓foldAll_only, ↓writeBlock_only, ↓ite_only, ite_self, h0, h1, h2, h3]) | rw [foldl_fst_only] | rw [foldl_only] | rw [shortCommand_only] | split | dsimp only)

theorem execCounterConfigClear_only {ks : List Comp} {r t : State} {fn : FnNo} {qp : QpNo} {pkt : Packet} {s : State}
    (e : execCounterConfigClear fn qp pkt s = .next t) (h0 : Comp.fns ∈ ks) (h1 : Comp.chans ∈ ks) (h2 : Comp.out ∈ ks) (h3 : Comp.telem ∈ ks) (h4 : Comp.thermal ∈ ks) :
    ChangesOnly ks r t ↔ ChangesOnly ks r s := by
  injection e with e; subst e
  repeat' (first | with_reducible rfl | assumption | intro _ | (simp only [↓shortCommand_only, ↓clearGroup_only, ↓foldAll_only, ↓ite_only, ite_self, h0, h1, h2, h3, h4]) | rw [foldl_fst_only] | rw [foldl_only] | rw [shortCommand_only] | split | dsimp only)

/-! ### Transfers -/

theorem stop_only {ks : List Comp} {r : State} (s : State) (rr : Run) (i : Nat) (k : Nat) (a4 : Stop)
    (h0 : Comp.waits ∈ ks) (h1 : Comp.progs ∈ ks) (h2 : Comp.fns ∈ ks) (h3 : Comp.chans ∈ ks) (h4 : Comp.clusters ∈ ks) (h5 : Comp.lock ∈ ks) (h6 : Comp.ports ∈ ks) (h7 : Comp.outst ∈ ks) (h8 : Comp.deliveries ∈ ks) (h9 : Comp.geo ∈ ks) (h10 : Comp.faults ∈ ks) (h11 : Comp.runs ∈ ks) (h12 : Comp.frames ∈ ks) (h13 : Comp.out ∈ ks) (h14 : Comp.telem ∈ ks) (h15 : Comp.loaded ∈ ks) :
    ChangesOnly ks r (State.stop s rr i k a4) ↔ ChangesOnly ks r s := by
  unfold State.stop; (repeat' split) <;> simp [↓progFault_only, ↓abortFrame_only, ↓ite_only, ite_self, h0, h1, h2, h3, h4, h5, h6, h7, h8, h9, h10, h11, h12, h13, h14, h15]

theorem readFound_only {ks : List Comp} {r : State} (opc : Nat) (reads : Uop → Reads) (l : LogNo) (x : Nat × Ecc) (s : State)
    (h0 : Comp.remaps ∈ ks) (h1 : Comp.slots ∈ ks) (h2 : Comp.waits ∈ ks) (h3 : Comp.progs ∈ ks) (h4 : Comp.copies ∈ ks) (h5 : Comp.fns ∈ ks) (h6 : Comp.chans ∈ ks) (h7 : Comp.clusters ∈ ks) (h8 : Comp.lock ∈ ks) (h9 : Comp.ports ∈ ks) (h10 : Comp.outst ∈ ks) (h11 : Comp.ext ∈ ks) (h12 : Comp.pieces ∈ ks) (h13 : Comp.deliveries ∈ ks) (h14 : Comp.geo ∈ ks) (h15 : Comp.faults ∈ ks) (h16 : Comp.toReplace ∈ ks) (h17 : Comp.scratch ∈ ks) (h18 : Comp.runs ∈ ks) (h19 : Comp.frames ∈ ks) (h20 : Comp.strata ∈ ks) (h21 : Comp.out ∈ ks) (h22 : Comp.telem ∈ ks) (h23 : Comp.nv ∈ ks) (h24 : Comp.free ∈ ks) (h25 : Comp.units ∈ ks) (h26 : Comp.stores ∈ ks) (h27 : Comp.loaded ∈ ks) (h28 : Comp.lanes ∈ ks) :
    ChangesOnly ks r (readFound opc reads l x s) ↔ ChangesOnly ks r s := by
  unfold readFound
  repeat' (first | with_reducible rfl | assumption | intro _ | (simp only [↓onHead_only, ↓foundAt_only, ↓stop_only, ↓ite_only, ite_self, h0, h1, h2, h3, h4, h5, h6, h7, h8, h9, h10, h11, h12, h13, h14, h15, h16, h17, h18, h19, h20, h21, h22, h23, h24, h25, h26, h27, h28]) | rw [foldl_fst_only] | rw [foldl_only] | rw [onHead_only] | split | dsimp only)

theorem withFound_only {ks : List Comp} {rr : State} (opc : Nat) (reads : Uop → Reads) (l : LogNo) {issue : State → State}
    (found : Option (Nat × Ecc)) (s : State) (h0 : Comp.remaps ∈ ks) (h1 : Comp.slots ∈ ks) (h2 : Comp.waits ∈ ks) (h3 : Comp.progs ∈ ks) (h4 : Comp.copies ∈ ks) (h5 : Comp.fns ∈ ks) (h6 : Comp.chans ∈ ks) (h7 : Comp.clusters ∈ ks) (h8 : Comp.lock ∈ ks) (h9 : Comp.ports ∈ ks) (h10 : Comp.outst ∈ ks) (h11 : Comp.ext ∈ ks) (h12 : Comp.pieces ∈ ks) (h13 : Comp.deliveries ∈ ks) (h14 : Comp.geo ∈ ks) (h15 : Comp.faults ∈ ks) (h16 : Comp.toReplace ∈ ks) (h17 : Comp.scratch ∈ ks) (h18 : Comp.runs ∈ ks) (h19 : Comp.frames ∈ ks) (h20 : Comp.strata ∈ ks) (h21 : Comp.out ∈ ks) (h22 : Comp.telem ∈ ks) (h23 : Comp.nv ∈ ks) (h24 : Comp.free ∈ ks) (h25 : Comp.units ∈ ks) (h26 : Comp.stores ∈ ks) (h27 : Comp.loaded ∈ ks) (h28 : Comp.lanes ∈ ks)
    (hi : ∀ t, ChangesOnly ks rr (issue t) ↔ ChangesOnly ks rr t) :
    ChangesOnly ks rr (withFound opc reads l issue found s) ↔ ChangesOnly ks rr s := by
  unfold withFound; dsimp only; (repeat' split) <;> simp only [↓hi, ↓readFound_only, h0, h1, h2, h3, h4, h5, h6, h7, h8, h9, h10, h11, h12, h13, h14, h15, h16, h17, h18, h19, h20, h21, h22, h23, h24, h25, h26, h27, h28]

theorem sloadIssue_only {ks : List Comp} {r : State} (l : LogNo) (s : State)
    (h0 : Comp.waits ∈ ks) (h1 : Comp.progs ∈ ks) (h2 : Comp.fns ∈ ks) (h3 : Comp.chans ∈ ks) (h4 : Comp.clusters ∈ ks) (h5 : Comp.lock ∈ ks) (h6 : Comp.ports ∈ ks) (h7 : Comp.outst ∈ ks) (h8 : Comp.deliveries ∈ ks) (h9 : Comp.geo ∈ ks) (h10 : Comp.faults ∈ ks) (h11 : Comp.runs ∈ ks) (h12 : Comp.frames ∈ ks) (h13 : Comp.out ∈ ks) (h14 : Comp.telem ∈ ks) (h15 : Comp.free ∈ ks) (h16 : Comp.loaded ∈ ks) :
    ChangesOnly ks r (sloadIssue l s) ↔ ChangesOnly ks r s := by
  unfold sloadIssue
  repeat' (first | with_reducible rfl | assumption | intro _ | (simp only [↓onHead_only, ↓draw_only, ↓stop_only, ↓issue_only, ↓fillSlot_only, ↓ite_only, ite_self, h0, h1, h2, h3, h4, h5, h6, h7, h8, h9, h10, h11, h12, h13, h14, h15, h16]) | rw [foldl_fst_only] | rw [foldl_only] | rw [onHead_only] | split | dsimp only)

theorem writeBlockRows_only {ks : List Comp} {r : State} (s : State) (rr : Run) (i : Nat) (loc : Nat) (len : Nat) (rows : List (List Byte))
    (h0 : Comp.scratch ∈ ks) :
    ChangesOnly ks r (State.writeBlockRows s rr i loc len rows) ↔ ChangesOnly ks r s := by
  unfold State.writeBlockRows; simp [↓windowWrite_only, ↓forEach_only, ↓ite_only, ite_self, h0]

theorem getIssue_only {ks : List Comp} {r : State} (l : LogNo) (s : State)
    (h0 : Comp.waits ∈ ks) (h1 : Comp.progs ∈ ks) (h2 : Comp.fns ∈ ks) (h3 : Comp.chans ∈ ks) (h4 : Comp.clusters ∈ ks) (h5 : Comp.lock ∈ ks) (h6 : Comp.ports ∈ ks) (h7 : Comp.outst ∈ ks) (h8 : Comp.deliveries ∈ ks) (h9 : Comp.geo ∈ ks) (h10 : Comp.faults ∈ ks) (h11 : Comp.scratch ∈ ks) (h12 : Comp.runs ∈ ks) (h13 : Comp.frames ∈ ks) (h14 : Comp.out ∈ ks) (h15 : Comp.telem ∈ ks) (h16 : Comp.loaded ∈ ks) :
    ChangesOnly ks r (getIssue l s) ↔ ChangesOnly ks r s := by
  unfold getIssue
  repeat' (first | with_reducible rfl | assumption | intro _ | (simp only [↓onHead_only, ↓stop_only, ↓writeBlockRows_only, ↓issue_only, ↓ite_only, ite_self, h0, h1, h2, h3, h4, h5, h6, h7, h8, h9, h10, h11, h12, h13, h14, h15, h16]) | rw [foldl_fst_only] | rw [foldl_only] | rw [onHead_only] | split | dsimp only)

theorem baseWrite_only {ks : List Comp} {r s t : State} {x : Run} {f : Frame} {base off : Nat} {l : List Byte}
    (h : s.baseWrite x f base off l = .ok t) (h0 : Comp.ext ∈ ks) (h1 : Comp.geo ∈ ks) (h2 : Comp.scratch ∈ ks) (h3 : Comp.runs ∈ ks) : ChangesOnly ks r t ↔ ChangesOnly ks r s := by
  unfold State.baseWrite at h
  dsimp only at h
  (repeat' split at h) <;> cases h <;> simp only [↓modRun_only, ↓viewWrite_only, h0, h1, h2, h3]

theorem putRows_only {ks : List Comp} {r : State} (s : State) (x : Run) (i : Nat) (f : Frame) (o : BlockOp) (l : List Nat) (h0 : Comp.ext ∈ ks) (h1 : Comp.geo ∈ ks) (h2 : Comp.scratch ∈ ks) (h3 : Comp.runs ∈ ks) :
    ChangesOnly ks r (s.putRows x i f o l).1 ↔ ChangesOnly ks r s := by
  induction l generalizing s with
  | nil => simp only [State.putRows]
  | cons a l ih =>
    rw [State.putRows]
    split
    · rfl
    · rename_i h
      exact (ih _).trans (baseWrite_only h h0 h1 h2 h3)

theorem putIssue_only {ks : List Comp} {r : State} (l : LogNo) (s : State)
    (h0 : Comp.waits ∈ ks) (h1 : Comp.progs ∈ ks) (h2 : Comp.fns ∈ ks) (h3 : Comp.chans ∈ ks) (h4 : Comp.clusters ∈ ks) (h5 : Comp.lock ∈ ks) (h6 : Comp.ports ∈ ks) (h7 : Comp.outst ∈ ks) (h8 : Comp.ext ∈ ks) (h9 : Comp.deliveries ∈ ks) (h10 : Comp.geo ∈ ks) (h11 : Comp.faults ∈ ks) (h12 : Comp.scratch ∈ ks) (h13 : Comp.runs ∈ ks) (h14 : Comp.frames ∈ ks) (h15 : Comp.out ∈ ks) (h16 : Comp.telem ∈ ks) (h17 : Comp.free ∈ ks) (h18 : Comp.loaded ∈ ks) :
    ChangesOnly ks r (putIssue l s) ↔ ChangesOnly ks r s := by
  unfold putIssue
  repeat' (first | with_reducible rfl | assumption | intro _ | (simp only [↓onHead_only, ↓putRows_only, ↓issue_only, ↓draw_only, ↓stop_only, ↓ite_only, ite_self, h0, h1, h2, h3, h4, h5, h6, h7, h8, h9, h10, h11, h12, h13, h14, h15, h16, h17, h18]) | rw [foldl_fst_only] | rw [foldl_only] | rw [onHead_only] | split | dsimp only)

theorem exchange_only {ks : List Comp} {r : State} (s : State) (rr : Run) (i : Nat) (si : Nat) (j : Nat) (rj : Nat)
    (h0 : Comp.waits ∈ ks) (h1 : Comp.progs ∈ ks) (h2 : Comp.fns ∈ ks) (h3 : Comp.chans ∈ ks) (h4 : Comp.clusters ∈ ks) (h5 : Comp.lock ∈ ks) (h6 : Comp.ports ∈ ks) (h7 : Comp.outst ∈ ks) (h8 : Comp.deliveries ∈ ks) (h9 : Comp.geo ∈ ks) (h10 : Comp.faults ∈ ks) (h11 : Comp.scratch ∈ ks) (h12 : Comp.runs ∈ ks) (h13 : Comp.frames ∈ ks) (h14 : Comp.out ∈ ks) (h15 : Comp.telem ∈ ks) (h16 : Comp.loaded ∈ ks) :
    ChangesOnly ks r (State.exchange s rr i si j rj) ↔ ChangesOnly ks r s := by
  unfold State.exchange; (repeat' split) <;> simp [↓progFault_only, ↓windowWrite_only, ↓flightDone_only, ↓forEach_only, ↓ite_only, ite_self, h0, h1, h2, h3, h4, h5, h6, h7, h8, h9, h10, h11, h12, h13, h14, h15, h16]

theorem hsendIssue_only {ks : List Comp} {r : State} (l : LogNo) (s : State)
    (h0 : Comp.waits ∈ ks) (h1 : Comp.progs ∈ ks) (h2 : Comp.fns ∈ ks) (h3 : Comp.chans ∈ ks) (h4 : Comp.clusters ∈ ks) (h5 : Comp.lock ∈ ks) (h6 : Comp.ports ∈ ks) (h7 : Comp.outst ∈ ks) (h8 : Comp.deliveries ∈ ks) (h9 : Comp.geo ∈ ks) (h10 : Comp.faults ∈ ks) (h11 : Comp.scratch ∈ ks) (h12 : Comp.runs ∈ ks) (h13 : Comp.frames ∈ ks) (h14 : Comp.out ∈ ks) (h15 : Comp.telem ∈ ks) (h16 : Comp.loaded ∈ ks) :
    ChangesOnly ks r (hsendIssue l s) ↔ ChangesOnly ks r s := by
  unfold hsendIssue
  repeat' (first | with_reducible rfl | assumption | intro _ | (simp only [↓onHead_only, ↓modPos_only, ↓issue_only, ↓exchange_only, ↓ite_only, ite_self, h0, h1, h2, h3, h4, h5, h6, h7, h8, h9, h10, h11, h12, h13, h14, h15, h16]) | rw [foldl_fst_only] | rw [foldl_only] | rw [onHead_only] | split | dsimp only)

theorem hrecvIssue_only {ks : List Comp} {r : State} (l : LogNo) (s : State)
    (h0 : Comp.waits ∈ ks) (h1 : Comp.progs ∈ ks) (h2 : Comp.fns ∈ ks) (h3 : Comp.chans ∈ ks) (h4 : Comp.clusters ∈ ks) (h5 : Comp.lock ∈ ks) (h6 : Comp.ports ∈ ks) (h7 : Comp.outst ∈ ks) (h8 : Comp.deliveries ∈ ks) (h9 : Comp.geo ∈ ks) (h10 : Comp.faults ∈ ks) (h11 : Comp.scratch ∈ ks) (h12 : Comp.runs ∈ ks) (h13 : Comp.frames ∈ ks) (h14 : Comp.out ∈ ks) (h15 : Comp.telem ∈ ks) (h16 : Comp.loaded ∈ ks) :
    ChangesOnly ks r (hrecvIssue l s) ↔ ChangesOnly ks r s := by
  unfold hrecvIssue
  repeat' (first | with_reducible rfl | assumption | intro _ | (simp only [↓onHead_only, ↓modPos_only, ↓issue_only, ↓exchange_only, ↓ite_only, ite_self, h0, h1, h2, h3, h4, h5, h6, h7, h8, h9, h10, h11, h12, h13, h14, h15, h16]) | rw [foldl_fst_only] | rw [foldl_only] | rw [onHead_only] | split | dsimp only)

theorem execSload_only {ks : List Comp} {r t : State} {read : SlotRead} {s : State}
    (e : execSload read s = .next t) (h0 : Comp.remaps ∈ ks) (h1 : Comp.slots ∈ ks) (h2 : Comp.waits ∈ ks) (h3 : Comp.progs ∈ ks) (h4 : Comp.copies ∈ ks) (h5 : Comp.fns ∈ ks) (h6 : Comp.chans ∈ ks) (h7 : Comp.clusters ∈ ks) (h8 : Comp.lock ∈ ks) (h9 : Comp.ports ∈ ks) (h10 : Comp.outst ∈ ks) (h11 : Comp.ext ∈ ks) (h12 : Comp.pieces ∈ ks) (h13 : Comp.deliveries ∈ ks) (h14 : Comp.geo ∈ ks) (h15 : Comp.faults ∈ ks) (h16 : Comp.toReplace ∈ ks) (h17 : Comp.scratch ∈ ks) (h18 : Comp.runs ∈ ks) (h19 : Comp.frames ∈ ks) (h20 : Comp.strata ∈ ks) (h21 : Comp.out ∈ ks) (h22 : Comp.telem ∈ ks) (h23 : Comp.nv ∈ ks) (h24 : Comp.free ∈ ks) (h25 : Comp.units ∈ ks) (h26 : Comp.stores ∈ ks) (h27 : Comp.loaded ∈ ks) (h28 : Comp.lanes ∈ ks) :
    ChangesOnly ks r t ↔ ChangesOnly ks r s := by
  injection e with e; subst e
  repeat' (first | with_reducible rfl | assumption | intro _ | (simp only [↓withFound_only, ↓sloadIssue_only, ↓ite_only, ite_self, h0, h1, h2, h3, h4, h5, h6, h7, h8, h9, h10, h11, h12, h13, h14, h15, h16, h17, h18, h19, h20, h21, h22, h23, h24, h25, h26, h27, h28]) | rw [foldl_fst_only] | rw [foldl_only] | rw [withFound_only] | split | dsimp only)

theorem execGet_only {ks : List Comp} {r t : State} {cluster : LogNo} {found : Option (Nat × Ecc)} {s : State}
    (e : execGet cluster found s = .next t) (h0 : Comp.remaps ∈ ks) (h1 : Comp.slots ∈ ks) (h2 : Comp.waits ∈ ks) (h3 : Comp.progs ∈ ks) (h4 : Comp.copies ∈ ks) (h5 : Comp.fns ∈ ks) (h6 : Comp.chans ∈ ks) (h7 : Comp.clusters ∈ ks) (h8 : Comp.lock ∈ ks) (h9 : Comp.ports ∈ ks) (h10 : Comp.outst ∈ ks) (h11 : Comp.ext ∈ ks) (h12 : Comp.pieces ∈ ks) (h13 : Comp.deliveries ∈ ks) (h14 : Comp.geo ∈ ks) (h15 : Comp.faults ∈ ks) (h16 : Comp.toReplace ∈ ks) (h17 : Comp.scratch ∈ ks) (h18 : Comp.runs ∈ ks) (h19 : Comp.frames ∈ ks) (h20 : Comp.strata ∈ ks) (h21 : Comp.out ∈ ks) (h22 : Comp.telem ∈ ks) (h23 : Comp.nv ∈ ks) (h24 : Comp.free ∈ ks) (h25 : Comp.units ∈ ks) (h26 : Comp.stores ∈ ks) (h27 : Comp.loaded ∈ ks) (h28 : Comp.lanes ∈ ks) :
    ChangesOnly ks r t ↔ ChangesOnly ks r s := by
  injection e with e; subst e
  repeat' (first | with_reducible rfl | assumption | intro _ | (simp only [↓withFound_only, ↓getIssue_only, ↓ite_only, ite_self, h0, h1, h2, h3, h4, h5, h6, h7, h8, h9, h10, h11, h12, h13, h14, h15, h16, h17, h18, h19, h20, h21, h22, h23, h24, h25, h26, h27, h28]) | rw [foldl_fst_only] | rw [foldl_only] | rw [withFound_only] | split | dsimp only)

theorem execPut_only {ks : List Comp} {r t : State} {cluster : LogNo} {s : State}
    (e : execPut cluster s = .next t) (h0 : Comp.waits ∈ ks) (h1 : Comp.progs ∈ ks) (h2 : Comp.fns ∈ ks) (h3 : Comp.chans ∈ ks) (h4 : Comp.clusters ∈ ks) (h5 : Comp.lock ∈ ks) (h6 : Comp.ports ∈ ks) (h7 : Comp.outst ∈ ks) (h8 : Comp.ext ∈ ks) (h9 : Comp.deliveries ∈ ks) (h10 : Comp.geo ∈ ks) (h11 : Comp.faults ∈ ks) (h12 : Comp.scratch ∈ ks) (h13 : Comp.runs ∈ ks) (h14 : Comp.frames ∈ ks) (h15 : Comp.out ∈ ks) (h16 : Comp.telem ∈ ks) (h17 : Comp.free ∈ ks) (h18 : Comp.loaded ∈ ks) :
    ChangesOnly ks r t ↔ ChangesOnly ks r s := by
  injection e with e; subst e; simp only [↓putIssue_only, ↓ite_only, ite_self, h0, h1, h2, h3, h4, h5, h6, h7, h8, h9, h10, h11, h12, h13, h14, h15, h16, h17, h18]

theorem execHsend_only {ks : List Comp} {r t : State} {cluster : LogNo} {s : State}
    (e : execHsend cluster s = .next t) (h0 : Comp.waits ∈ ks) (h1 : Comp.progs ∈ ks) (h2 : Comp.fns ∈ ks) (h3 : Comp.chans ∈ ks) (h4 : Comp.clusters ∈ ks) (h5 : Comp.lock ∈ ks) (h6 : Comp.ports ∈ ks) (h7 : Comp.outst ∈ ks) (h8 : Comp.deliveries ∈ ks) (h9 : Comp.geo ∈ ks) (h10 : Comp.faults ∈ ks) (h11 : Comp.scratch ∈ ks) (h12 : Comp.runs ∈ ks) (h13 : Comp.frames ∈ ks) (h14 : Comp.out ∈ ks) (h15 : Comp.telem ∈ ks) (h16 : Comp.loaded ∈ ks) :
    ChangesOnly ks r t ↔ ChangesOnly ks r s := by
  injection e with e; subst e; simp only [↓hsendIssue_only, ↓ite_only, ite_self, h0, h1, h2, h3, h4, h5, h6, h7, h8, h9, h10, h11, h12, h13, h14, h15, h16]

theorem execHrecv_only {ks : List Comp} {r t : State} {cluster : LogNo} {s : State}
    (e : execHrecv cluster s = .next t) (h0 : Comp.waits ∈ ks) (h1 : Comp.progs ∈ ks) (h2 : Comp.fns ∈ ks) (h3 : Comp.chans ∈ ks) (h4 : Comp.clusters ∈ ks) (h5 : Comp.lock ∈ ks) (h6 : Comp.ports ∈ ks) (h7 : Comp.outst ∈ ks) (h8 : Comp.deliveries ∈ ks) (h9 : Comp.geo ∈ ks) (h10 : Comp.faults ∈ ks) (h11 : Comp.scratch ∈ ks) (h12 : Comp.runs ∈ ks) (h13 : Comp.frames ∈ ks) (h14 : Comp.out ∈ ks) (h15 : Comp.telem ∈ ks) (h16 : Comp.loaded ∈ ks) :
    ChangesOnly ks r t ↔ ChangesOnly ks r s := by
  injection e with e; subst e; simp only [↓hrecvIssue_only, ↓ite_only, ite_self, h0, h1, h2, h3, h4, h5, h6, h7, h8, h9, h10, h11, h12, h13, h14, h15, h16]

/-! ### Step -/

theorem withFetchWord_only {ks : List Comp} {r : State} (s : State) (nbits : Nat) (w : Nat)
    (h0 : Comp.pending ∈ ks) :
    ChangesOnly ks r (State.withFetchWord s nbits w) ↔ ChangesOnly ks r s := by
  unfold State.withFetchWord; (repeat' split) <;> simp [↓upd_pending_only, ↓ite_only, ite_self, h0]

end Sys2Proof.Machine
end

