-- ==== Sys2Proof/Laws/Commands.lean ====
section
/-!
SUPPORT. How a host command is taken, answered and accepted.
-/

namespace Sys2Proof.Machine

@[simp] theorem vmod_get {α : Type} {n : Nat} (v : Vector α n) (i : Fin n) (f : α → α) : (vmod v i f)[i] = f v[i] := by
  simp [vmod]

theorem vmod_get_ne {α : Type} {n : Nat} (v : Vector α n) {i j : Fin n} (f : α → α) (h : i ≠ j) :
    (vmod v i f)[j] = v[j] := by
  have e : i.val ≠ j.val := fun g => h (Fin.ext g)
  simp [vmod, e]

theorem takeCommand_ready {s : State} {fn : FnNo} {qp : QpNo} {op : BitVec 8} {long : Bool} {p : Packet}
    (h : Ready s fn qp op long p) (body : State → State) :
    takeCommand fn qp op long p body s = settleQueue (body (s.taken fn qp)) fn qp := by
  obtain ⟨ho, ht, hf, hw, _⟩ := h
  unfold takeCommand
  rcases hf with hh | ⟨hh, hb, hst, hp⟩
  · simp only [hh, ho, ht, hw, Bool.not_true, Bool.false_eq_true, ↓reduceIte, ne_eq, not_true_eq_false, decide_false,
      Bool.or_self]
  · have hp' : (s.fns[fn].qps[qp].readPos == s.fns[fn].qps[qp].tail) = false := beq_eq_false_iff_ne.2 hp
    simp only [hh, ho, ht, hb, hw, hst, hp', Bool.or_self, Bool.not_true, Bool.false_eq_true, ↓reduceIte]

theorem serve_chainFailed (s : State) (fn : FnNo) (qp : QpNo) :
    (s.serve fn qp).fns[fn].qps[qp].chainFailed = s.fns[fn].qps[qp].chainFailed := by
  simp [State.serve]

theorem taken_chainFailed (s : State) (fn : FnNo) (qp : QpNo) :
    (s.taken fn qp).fns[fn].qps[qp].chainFailed = s.fns[fn].qps[qp].chainFailed := by
  unfold State.taken; split <;> simp only [State.modQp, State.modFn, vmod_get, serve_chainFailed]

theorem shortCommand_accepts {c : CmdSpec} {fn : FnNo} {qp : QpNo} {p : Packet} {chk res : State → Option Rej}
    {s : State} (h : Accepts c false fn qp p chk res s) (eff : State → State × Res) :
    shortCommand c fn qp p chk res eff s = shortDone c fn qp p (eff (s.taken fn qp)) := by
  unfold shortCommand
  rw [takeCommand_ready h.1]
  simp only [taken_chainFailed, h.1.unfailed, h.2]
  rfl

theorem longCommand_accepts {c : CmdSpec} {fn : FnNo} {qp : QpNo} {p : Packet} {chk res : State → Option Rej}
    {s : State} (h : Accepts c true fn qp p chk res s) (acc work : Nat → State → State) :
    longCommand c fn qp p chk res acc work s = longDone c fn qp p acc work (s.taken fn qp) := by
  unfold longCommand
  rw [takeCommand_ready h.1]
  unfold longBody
  simp only [taken_chainFailed, h.1.unfailed, h.2]
  rfl

/-! ### The output log only grows -/

theorem Grows.refl (s : State) : Grows s s := ⟨⟨[], by simp⟩, fun _ => ⟨rfl, [], by simp⟩⟩

theorem Grows.trans {r s t : State} (h : Grows r s) (g : Grows s t) : Grows r t := by
  obtain ⟨l, hl⟩ := h.out; obtain ⟨m, hm⟩ := g.out
  refine ⟨⟨l ++ m, by rw [hm, hl, List.append_assoc]⟩, fun fn => ?_⟩
  obtain ⟨hb, k, hk⟩ := h.waits fn; obtain ⟨gb, j, hj⟩ := g.waits fn
  exact ⟨gb.trans hb, k ++ j, by rw [hj, hk, List.append_assoc]⟩

/-- What leaves the output log and the functions alone. -/
theorem Grows.of_eq {s t : State} (ho : t.out = s.out) (hf : t.fns = s.fns) : Grows s t :=
  ⟨⟨[], by rw [ho]; simp⟩, fun fn => ⟨by rw [hf], [], by rw [hf]; simp⟩⟩

theorem Grows.of_only {ks : List Comp} {s t : State} (h : ChangesOnly ks s t) (ho : Comp.out ∉ ks)
    (hf : Comp.fns ∉ ks) : Grows s t := .of_eq (h .out ho) (h .fns hf)

theorem forEach_grows {α : Type} {f : α → State → State} (h : ∀ a t, Grows t (f a t)) (l : List α) (s : State) :
    Grows s (s.forEach l f) := by
  unfold State.forEach
  induction l generalizing s with
  | nil => exact Grows.refl s
  | cons a l ih => exact (h a s).trans (ih (f a s))

theorem emit_grows (s : State) (e : Emit) : Grows s (s.emit e) := by
  unfold State.emit; split
  · exact Grows.refl s
  · exact ⟨⟨[e], rfl⟩, fun _ => ⟨rfl, [], by simp⟩⟩

/-- A change of a function which leaves its Bus Master Enable and adds to what waits for it. -/
theorem modFn_grows' (s : State) (fn : FnNo) (f : Func → Func) (hb : (f s.fns[fn]).busMaster = s.fns[fn].busMaster)
    (hu : ∃ l, (f s.fns[fn]).unsent = s.fns[fn].unsent ++ l) : Grows s (s.modFn fn f) := by
  refine ⟨⟨[], by simp [State.modFn]⟩, fun g => ?_⟩
  by_cases e : fn = g
  · subst e; simp only [State.modFn, vmod_get]; exact ⟨hb, hu⟩
  · have h : (s.modFn fn f).fns[g] = s.fns[g] := vmod_get_ne _ _ e
    exact ⟨by rw [h], [], by rw [h]; simp⟩

theorem modFn_grows (s : State) (fn : FnNo) (f : Func → Func)
    (h : ∀ g, (f g).busMaster = g.busMaster ∧ (f g).unsent = g.unsent) : Grows s (s.modFn fn f) :=
  modFn_grows' s fn f (h _).1 ⟨[], by rw [(h _).2]; simp⟩

theorem modQp_grows (s : State) (fn : FnNo) (qp : QpNo) (f : QPair → QPair) : Grows s (s.modQp fn qp f) :=
  modFn_grows _ _ _ fun _ => ⟨rfl, rfl⟩
theorem modEvq_grows (s : State) (fn : FnNo) (f : Evq → Evq) : Grows s (s.modEvq fn f) :=
  modFn_grows _ _ _ fun _ => ⟨rfl, rfl⟩
theorem postpone_grows (s : State) (fn : FnNo) (w : Unsent) : Grows s (s.postpone fn w) :=
  modFn_grows' _ _ _ rfl ⟨[w], rfl⟩

theorem sendMsix_grows (s : State) (fn : FnNo) (v : Fin 64) : Grows s (s.sendMsix fn v) := by
  unfold State.sendMsix; dsimp only; split
  · exact emit_grows _ _
  · exact modFn_grows _ _ _ fun _ => ⟨rfl, rfl⟩

theorem setCause_grows (s : State) (fn : FnNo) (a b : BitVec 12) : Grows s (s.setCause fn a b) := by
  unfold State.setCause
  refine Grows.trans ?_ (forEach_grows (fun v t => sendMsix_grows t fn v) _ _)
  exact modFn_grows _ _ _ fun _ => ⟨rfl, rfl⟩

theorem raise_grows (s : State) (fn : FnNo) (bits : BitVec 12) : Grows s (s.raise fn bits) := setCause_grows _ _ _ _

theorem writeRec_grows (s : State) (fn : FnNo) (x : EvRec) : Grows s (s.writeRec fn x) := by
  unfold State.writeRec
  exact ((modEvq_grows _ _ _).trans (emit_grows _ _)).trans (raise_grows _ _ _)

theorem writeHeld_grows (s : State) (fn : FnNo) (l : List EvRec) : Grows s (s.writeHeld fn l) := by
  induction l generalizing s with
  | nil => exact modEvq_grows _ _ _
  | cons a l ih =>
    unfold State.writeHeld; split
    · exact (writeRec_grows _ _ _).trans (ih _)
    · exact modEvq_grows _ _ _

theorem flushEvq_grows (s : State) (fn : FnNo) : Grows s (s.flushEvq fn) := writeHeld_grows _ _ _

theorem trimHeld_grows (s : State) (fn : FnNo) : Grows s (s.trimHeld fn) := by
  unfold State.trimHeld; dsimp only; split
  · refine Grows.trans ?_ (raise_grows _ _ _)
    exact modFn_grows _ _ _ fun _ => ⟨rfl, rfl⟩
  · exact Grows.refl s

theorem sendRec_grows (s : State) (fn : FnNo) (x : EvRec) : Grows s (s.sendRec fn x) := by
  unfold State.sendRec
  refine (((?_ : Grows s (s.hitWaits fn x)).trans (modEvq_grows _ _ _)).trans (flushEvq_grows _ _)).trans (trimHeld_grows _ _)
  exact .of_eq rfl rfl

theorem occur_grows (s : State) (n : FnNo) (e : W16) (a b : W64) : Grows s (s.occur n e a b) := sendRec_grows _ _ _

theorem occurAll_grows (s : State) (l : List FnNo) (e : W16) (a b : W64) : Grows s (s.occurAll l e a b) :=
  forEach_grows (fun _ _ => occur_grows _ _ _ _ _) _ _

theorem complete_grows (s : State) (id : Nat) (st d : W16) (a b : W64) (x : BitVec 192) :
    Grows s (s.complete id st d a b x) := by
  unfold State.complete; split
  · exact Grows.refl s
  · dsimp only
    refine Grows.trans ?_ (sendRec_grows _ _ _)
    split
    · refine Grows.trans ?_ (modQp_grows _ _ _ _)
      exact .of_eq rfl rfl
    · exact .of_eq rfl rfl

theorem hostWrite_grows (s : State) (fn : FnNo) (a : W64) (l : List Byte) : Grows s (s.hostWrite fn a l) := by
  unfold State.hostWrite; split
  · exact emit_grows _ _
  · exact postpone_grows _ _ _

theorem writeBlock_grows (s : State) (fn : FnNo) (a : W64) (l : List Byte) : Grows s (s.writeBlock fn a l) := by
  unfold State.writeBlock; split
  · exact Grows.refl s
  · exact hostWrite_grows _ _ _ _

theorem startQueue_grows (s : State) (fn : FnNo) (qp : QpNo) : Grows s (startQueue s fn qp) := by
  unfold startQueue; dsimp only; split
  · exact modQp_grows _ _ _ _
  · exact (modQp_grows _ _ _ _).trans (raise_grows _ _ _)

theorem settleQueue_grows (s : State) (fn : FnNo) (qp : QpNo) : Grows s (settleQueue s fn qp) := by
  unfold settleQueue; dsimp only; split
  · split
    · exact (modQp_grows _ _ _ _).trans (startQueue_grows _ _ _)
    · exact modQp_grows _ _ _ _
  · exact Grows.refl s

/-! ### Replies -/

theorem Replied.grows {s t u : State} {fn : FnNo} {qp : QpNo} {op : BitVec 8} {p : Packet} {st d : W16} {a b : W64}
    (h : Replied s t fn qp op p st d a b) (g : Grows t u) : Replied s u fn qp op p st d a b := by
  unfold Replied at h ⊢
  split
  · rename_i hb
    rw [if_pos hb] at h
    obtain ⟨l, v, x, h1, h2, h3⟩ := h; obtain ⟨m, hm⟩ := g.out
    exact ⟨l ++ m, v, x, by rw [hm, h1, List.append_assoc], h2, List.mem_append_left _ h3⟩
  · rename_i hb
    rw [if_neg hb] at h
    obtain ⟨_, m, hm⟩ := g.waits fn
    rw [hm]; exact List.mem_append_left _ h

/-- A status reply written while the link is up, or put by while Bus Master Enable is 0. -/
theorem reply_replied {s u : State} (fn : FnNo) (qp : QpNo) (op : BitVec 8) (p : Packet) (st d : W16) (a b : W64)
    (hg : Grows s u) (ht : u.tick = s.tick) (hl : u.boot.linkL0 = true) :
    Replied s (u.reply fn qp op p st d a b) fn qp op p st d a b := by
  obtain ⟨l, hm⟩ := hg.out
  have hb := (hg.waits fn).1
  unfold State.reply
  split
  · rename_i hu
    have base : ∀ v : State, v.out = u.out ++ [Emit.reply fn qp
        (u.fns[fn].qps[qp].cqBase + 32 * u.fns[fn].qps[qp].cqPos.setWidth 64) (replyOf u fn qp op p st d a b).bytes] →
        Replied s v fn qp op p st d a b := fun v hv => by
      unfold Replied
      rw [if_pos (hb ▸ hu)]
      exact ⟨l ++ [_], u, _, by rw [hv, hm, List.append_assoc], ht, List.mem_append_right _ (List.mem_singleton.2 rfl)⟩
    unfold State.writeReply
    dsimp only
    have hr := base ((u.modQp fn qp fun x => { x with
        cqPos := (ringNext u.fns[fn].qps[qp].cqLog2 u.fns[fn].qps[qp].cqPos u.fns[fn].qps[qp].cqPhase).1
        cqPhase := (ringNext u.fns[fn].qps[qp].cqLog2 u.fns[fn].qps[qp].cqPos u.fns[fn].qps[qp].cqPhase).2
        cqUnreleased := x.cqUnreleased + 1 }).emit
      (.reply fn qp (u.fns[fn].qps[qp].cqBase + 32 * u.fns[fn].qps[qp].cqPos.setWidth 64)
        (replyOf u fn qp op p st d a b).bytes)) (by
          simp only [State.emit, Emit.overPcie, State.modQp, State.modFn, hl, Bool.not_true, Bool.and_false,
            Bool.false_eq_true, ↓reduceIte])
    split
    · exact hr.grows (raise_grows _ _ _)
    · exact hr
  · rename_i hu
    unfold Replied
    rw [if_neg (hb ▸ hu)]
    exact (by simp only [State.postpone, State.modFn, vmod_get]; exact List.mem_append_right _ (List.mem_singleton.2 rfl))

theorem serve_grows (s : State) (fn : FnNo) (qp : QpNo) : Grows s (s.serve fn qp) :=
  ⟨⟨[], by simp [State.serve]⟩, fun g => by simp [State.serve]⟩

theorem taken_grows (s : State) (fn : FnNo) (qp : QpNo) : Grows s (s.taken fn qp) := by
  unfold State.taken; split <;> exact (serve_grows _ _ _).trans (modQp_grows _ _ _ _)

theorem outstanding_only {ks : List Comp} {r : State} (s : State) (fn : FnNo) (qp : QpNo) (op : BitVec 8) (p : Packet)
    (h0 : Comp.fns ∈ ks) (h1 : Comp.nextId ∈ ks) (h2 : Comp.outst ∈ ks) :
    ChangesOnly ks r (s.outstanding fn qp op p) ↔ ChangesOnly ks r s := by
  unfold State.outstanding; simp only [↓modEvq_only, ↓upd_nextId_outst_only, h0, h1, h2]

theorem shortDone_only {ks : List Comp} {r : State} (c : CmdSpec) (fn : FnNo) (qp : QpNo) (p : Packet) (u : State × Res)
    (h0 : Comp.fns ∈ ks) (h1 : Comp.out ∈ ks) :
    ChangesOnly ks r (shortDone c fn qp p u) ↔ ChangesOnly ks r u.1 := by
  unfold shortDone; simp only [↓settleQueue_only, ↓afterReply_only, ↓reply_only, h0, h1]

/-- A short command which the module accepts is answered with the status and results of its effect. -/
theorem shortDone_replied {s : State} (c : CmdSpec) (fn : FnNo) (qp : QpNo) (p : Packet) (u : State × Res)
    (hg : Grows s u.1) (ht : u.1.tick = s.tick) (hl : u.1.boot.linkL0 = true) :
    Replied s (shortDone c fn qp p u) fn qp c.op p u.2.status 0 u.2.r0 u.2.r1 :=
  (reply_replied fn qp c.op p _ _ _ _ hg ht hl).grows
    ((modQp_grows _ _ _ _).trans (settleQueue_grows _ _ _))

/-- Taking a command changes the host interface alone. -/
theorem taken_frame (s : State) (fn : FnNo) (qp : QpNo) : ChangesOnly [.fns] s (s.taken fn qp) :=
  (taken_only s fn qp (by decide)).2 (ChangesOnly.refl _ _)

theorem shortDone_grows (c : CmdSpec) (fn : FnNo) (qp : QpNo) (p : Packet) (u : State × Res) :
    Grows u.1 (shortDone c fn qp p u) := by
  unfold shortDone afterReply
  refine Grows.trans ?_ ((modQp_grows _ _ _ _).trans (settleQueue_grows _ _ _))
  unfold State.reply; split
  · unfold State.writeReply; dsimp only; split
    · exact ((modQp_grows _ _ _ _).trans (emit_grows _ _)).trans (raise_grows _ _ _)
    · exact (modQp_grows _ _ _ _).trans (emit_grows _ _)
  · exact postpone_grows _ _ _

/-! ### Writes to host memory -/

theorem Wrote.grows {s t u : State} {fn : FnNo} {a : W64} {b : List Byte} (h : Wrote s t fn a b) (g : Grows t u) :
    Wrote s u fn a b := by
  unfold Wrote at h ⊢
  split
  · rename_i hb; rw [if_pos hb] at h; obtain ⟨m, hm⟩ := g.out; rw [hm]; exact List.mem_append_left _ h
  · rename_i hb; rw [if_neg hb] at h; obtain ⟨_, m, hm⟩ := g.waits fn; rw [hm]; exact List.mem_append_left _ h

theorem hostWrite_wrote {s t : State} (fn : FnNo) (a : W64) (b : List Byte)
    (hb : t.fns[fn].busMaster = s.fns[fn].busMaster) (hl : t.boot.linkL0 = true) : Wrote s (t.hostWrite fn a b) fn a b := by
  unfold Wrote State.hostWrite
  rw [hb]; split
  · simp only [State.emit, Emit.overPcie, hl, Bool.not_true, Bool.and_false, Bool.false_eq_true, ↓reduceIte,
      List.mem_append, List.mem_singleton, or_true]
  · exact (by simp only [State.postpone, State.modFn, vmod_get]; exact List.mem_append_right _ (List.mem_singleton.2 rfl))

/-- The PCIe link is up while commands are taken (R154). -/
theorem Ready.link {s : State} {fn : FnNo} {qp : QpNo} {op : BitVec 8} {long : Bool} {p : Packet}
    (h : Ready s fn qp op long p) : s.boot.linkL0 = true := by
  have hs := h.opens
  simp only [State.queueOpen, State.serving, Bool.and_eq_true] at hs
  exact hs.1.1.1.1.1.1.1.1.2

/-- A short command which the module accepts is answered with the status and results of its effect. -/
theorem Accepts.replied {s : State} {c : CmdSpec} {fn : FnNo} {qp : QpNo} {p : Packet} {chk res : State → Option Rej}
    (h : Accepts c false fn qp p chk res s) (u : State × Res) (hg : Grows (s.taken fn qp) u.1)
    (ht : u.1.tick = s.tick) (hb : u.1.boot = s.boot) :
    Replied s (shortDone c fn qp p u) fn qp c.op p u.2.status 0 u.2.r0 u.2.r1 :=
  shortDone_replied c fn qp p u ((taken_grows _ _ _).trans hg) ht (by rw [hb]; exact h.1.link)

/-- The block which a short command writes to a nonzero BUF_ADDR. -/
theorem Accepts.wrote {s : State} {c : CmdSpec} {fn : FnNo} {qp : QpNo} {p : Packet} {chk res : State → Option Rej}
    (h : Accepts c false fn qp p chk res s) {a : W64} (ha : a ≠ 0) (b : List Byte) (r : Res) :
    Wrote s (shortDone c fn qp p ((s.taken fn qp).writeBlock fn a b, r)) fn a b := by
  refine Wrote.grows ?_ (shortDone_grows _ _ _ _ _)
  unfold State.writeBlock; rw [if_neg ha]
  refine hostWrite_wrote _ _ _ ((taken_grows _ _ _).waits fn).1 ?_
  rw [show (s.taken fn qp).boot = s.boot from taken_frame s fn qp .boot (by decide)]; exact h.1.link

end Sys2Proof.Machine
end

