-- ==== Sys2Proof/Laws/Form.lean ====
section
/-!
SUPPORT. The canonical form of the memories: every operation over sparse memories keeps it.
-/

namespace Sys2Proof.Machine

theorem spSorted_cons {α : Type} (e : Nat × α) (r : List (Nat × α)) :
    spSorted (e :: r) = true ↔ (∀ f ∈ r, e.1 < f.1) ∧ spSorted r = true := by
  induction r generalizing e with
  | nil => simp [spSorted]
  | cons f r ih =>
    have hf := ih f
    rw [show spSorted (e :: f :: r) = (decide (e.1 < f.1) && spSorted (f :: r)) from rfl]
    simp only [Bool.and_eq_true, decide_eq_true_eq, hf, List.mem_cons, forall_eq_or_imp]
    constructor
    · rintro ⟨h, g, k⟩; exact ⟨⟨h, fun x hx => Nat.lt_trans h (g x hx)⟩, g, k⟩
    · rintro ⟨⟨h, _⟩, g, k⟩; exact ⟨h, g, k⟩

theorem spSorted_filter {α : Type} (p : Nat × α → Bool) (m : List (Nat × α)) (h : spSorted m = true) :
    spSorted (m.filter p) = true := by
  induction m with
  | nil => rfl
  | cons e r ih =>
    rw [spSorted_cons] at h
    rw [List.filter_cons]
    split
    · rw [spSorted_cons]
      exact ⟨fun f hf => h.1 f ((List.mem_filter.1 hf).1), ih h.2⟩
    · exact ih h.2

theorem spDel_sorted {α : Type} (m : List (Nat × α)) (k : Nat) (h : spSorted m = true) :
    spSorted (spDel m k) = true := spSorted_filter _ _ h

theorem mem_spPut {α : Type} {t : List (Nat × α)} {k : Nat} {v : α} {e : Nat × α} (h : e ∈ spPut t k v) :
    e = (k, v) ∨ e ∈ t := by
  induction t with
  | nil => exact Or.inl (List.mem_singleton.1 h)
  | cons a r ih =>
    unfold spPut at h
    split at h
    · exact (List.mem_cons.1 h).imp id id
    · split at h
      · exact (List.mem_cons.1 h).imp id (List.mem_cons_of_mem _)
      · rcases List.mem_cons.1 h with h | h
        · exact Or.inr (h ▸ List.mem_cons_self)
        · exact (ih h).imp id (List.mem_cons_of_mem _)

theorem spPut_sorted {α : Type} (m : List (Nat × α)) (k : Nat) (v : α) (h : spSorted m = true) :
    spSorted (spPut m k v) = true := by
  induction m with
  | nil => rfl
  | cons a r ih =>
    have g := (spSorted_cons a r).1 h
    unfold spPut
    split
    · rename_i hk
      rw [spSorted_cons]
      refine ⟨fun f hf => ?_, h⟩
      rcases List.mem_cons.1 hf with e | e
      · exact e ▸ hk
      · exact Nat.lt_trans hk (g.1 f e)
    · split
      · rename_i hk
        rw [spSorted_cons]
        exact ⟨fun f hf => hk ▸ g.1 f hf, g.2⟩
      · rename_i h1 h2
        rw [spSorted_cons]
        refine ⟨fun f hf => ?_, ih g.2⟩
        rcases mem_spPut hf with e | e
        · rw [e]; exact Nat.lt_of_le_of_ne (Nat.le_of_not_lt h1) h2
        · exact g.1 f e

theorem memWf_iff (d : Byte) (m : Mem) : memWf d m = true ↔ spSorted m = true ∧ ∀ c ∈ m, c.2 ≠ d := by
  simp [memWf]

theorem memWrite_wf {d : Byte} {m : Mem} (a : Nat) (v : Byte) (h : memWf d m = true) :
    memWf d (memWrite d m a v) = true := by
  rw [memWf_iff] at h ⊢
  unfold memWrite
  split
  · exact ⟨spDel_sorted _ _ h.1, fun c hc => h.2 c ((List.mem_filter.1 hc).1)⟩
  · rename_i hv
    refine ⟨spPut_sorted _ _ _ h.1, fun c hc => ?_⟩
    rcases mem_spPut hc with e | e
    · rw [e]; exact hv
    · exact h.2 c e

theorem memWriteList_wf {d : Byte} {m : Mem} (a : Nat) (l : List Byte) (h : memWf d m = true) :
    memWf d (memWriteList d m a l) = true := by
  induction l generalizing m a with
  | nil => exact h
  | cons v r ih => exact ih _ (memWrite_wf _ _ h)

theorem memFilter_wf {d : Byte} {m : Mem} (p : Nat × Byte → Bool) (h : memWf d m = true) :
    memWf d (m.filter p) = true := by
  rw [memWf_iff] at h ⊢
  exact ⟨spSorted_filter _ _ h.1, fun c hc => h.2 c ((List.mem_filter.1 hc).1)⟩

theorem memClear_wf {d : Byte} {m : Mem} (a n : Nat) (h : memWf d m = true) : memWf d (memClear m a n) = true :=
  memFilter_wf _ h

theorem programBytes_wf {m : Mem} (a : Nat) (l : List Byte) (h : memWf 0xFF m = true) :
    memWf 0xFF (programBytes m a l) = true := by
  induction l generalizing m a with
  | nil => exact h
  | cons v r ih => exact ih _ (memWrite_wf _ _ h)

theorem vmod_forall {α : Type} {n : Nat} {P : α → Prop} (v : Vector α n) (i : Fin n) (f : α → α)
    (h : ∀ j : Fin n, P v[j]) (hf : P (f v[i])) : ∀ j : Fin n, P (vmod v i f)[j] := by
  intro j
  unfold vmod
  by_cases e : i.val = j.val
  · have e' : i = j := Fin.ext e
    subst e'; simpa using hf
  · simpa [Vector.getElem_set, e] using h j

/-- The components which hold no memory. -/
def noMemory : List Comp :=
  [.pending, .out, .tick, .withhold, .free, .nextId, .nextLaunch, .order32, .fns, .outst, .strata, .copies,
   .deliveries, .sup, .plans, .boot, .units, .mapping, .lastPhys, .toReplace, .clusters, .waits, .barriers,
   .progs, .scheduled, .tables, .mprogs, .tableLoads, .mprogLoads, .runs, .ports, .lanes, .chans, .frames,
   .stores, .pieces, .loaded, .repro, .lock, .faults, .logReads, .panel, .thermal, .telem, .slots, .remaps, .jtag]

/-- What changes no component with a memory keeps the form and what keeps it was there before. -/
theorem wf_congr {s t : State} (h : ∀ r, ChangesOnly noMemory r t ↔ ChangesOnly noMemory r s) :
    Memory.wf t ↔ Memory.wf s := by
  have g := (h s).2 (ChangesOnly.refl _ _)
  have hg : t.geo = s.geo := g .geo (by decide)
  have he : t.ext = s.ext := g .ext (by decide)
  have hc : t.scratch = s.scratch := g .scratch (by decide)
  have hn : t.nv = s.nv := g .nv (by decide)
  unfold Memory.wf
  rw [hg, he, hc, hn]

theorem ite_wf {c : Prop} [Decidable c] {a b : State} (ha : Memory.wf a) (hb : Memory.wf b) :
    Memory.wf (if c then a else b) := by
  split
  · exact ha
  · exact hb

theorem forEach_wf {α : Type} {f : α → State → State} (h : ∀ a t, Memory.wf t → Memory.wf (f a t)) (l : List α)
    (s : State) (hs : Memory.wf s) : Memory.wf (s.forEach l f) := by
  unfold State.forEach
  induction l generalizing s with
  | nil => exact hs
  | cons a l ih => exact ih _ (h a s hs)

theorem foldl_wf {α : Type} {f : State → α → State} (h : ∀ t a, Memory.wf t → Memory.wf (f t a)) (l : List α)
    (s : State) (hs : Memory.wf s) : Memory.wf (l.foldl f s) := by
  induction l generalizing s with
  | nil => exact hs
  | cons a l ih => exact ih _ (h s a hs)

theorem foldl_fst_wf {α β : Type} {f : State × β → α → State × β}
    (h : ∀ x a, Memory.wf x.1 → Memory.wf (f x a).1) (l : List α) (x : State × β) (hs : Memory.wf x.1) :
    Memory.wf (l.foldl f x).1 := by
  induction l generalizing x with
  | nil => exact hs
  | cons a l ih => exact ih _ (h x a hs)

theorem upd_nextLaunch_scheduled_wf {s : State} {v0} {v1} :
    Memory.wf { s with nextLaunch := v0, scheduled := v1 } ↔ Memory.wf s := Iff.rfl

theorem upd_withhold_wf {s : State} {v0} :
    Memory.wf { s with withhold := v0 } ↔ Memory.wf s := Iff.rfl

theorem upd_boot_wf {s : State} {v0} :
    Memory.wf { s with boot := v0 } ↔ Memory.wf s := Iff.rfl

theorem upd_lanes_wf {s : State} {v0} :
    Memory.wf { s with lanes := v0 } ↔ Memory.wf s := Iff.rfl

theorem upd_units_toReplace_thermal_wf {s : State} {v0} {v1} {v2} :
    Memory.wf { s with units := v0, toReplace := v1, thermal := v2 } ↔ Memory.wf s := Iff.rfl

theorem upd_ext_wf {s : State} {v0 : ExtMem} (h0 : v0.mem = s.ext.mem) :
    Memory.wf { s with ext := v0 } ↔ Memory.wf s := by
  unfold Memory.wf; dsimp only; rw [h0]

theorem upd_sup_wf {s : State} {v0} :
    Memory.wf { s with sup := v0 } ↔ Memory.wf s := Iff.rfl

theorem upd_jtag_wf {s : State} {v0} :
    Memory.wf { s with jtag := v0 } ↔ Memory.wf s := Iff.rfl

theorem upd_mprogs_wf {s : State} {v0} :
    Memory.wf { s with mprogs := v0 } ↔ Memory.wf s := Iff.rfl

theorem upd_barriers_wf {s : State} {v0} :
    Memory.wf { s with barriers := v0 } ↔ Memory.wf s := Iff.rfl

theorem upd_nextLaunch_wf {s : State} {v0} :
    Memory.wf { s with nextLaunch := v0 } ↔ Memory.wf s := Iff.rfl

theorem upd_toReplace_wf {s : State} {v0} :
    Memory.wf { s with toReplace := v0 } ↔ Memory.wf s := Iff.rfl

theorem upd_remaps_wf {s : State} {v0} :
    Memory.wf { s with remaps := v0 } ↔ Memory.wf s := Iff.rfl

theorem upd_outst_copies_deliveries_waits_barriers_progs_scheduled_tableLoads_mprogLoads_runs_ports_chans_frames_stores_pieces_loaded_lock_logReads_remaps_wf {s : State} {v0} {v1} {v2} {v3} {v4} {v5} {v6} {v7} {v8} {v9} {v10} {v11} {v12} {v13} {v14} {v15} {v16} {v17} {v18} :
    Memory.wf { s with outst := v0, copies := v1, deliveries := v2, waits := v3, barriers := v4, progs := v5, scheduled := v6, tableLoads := v7, mprogLoads := v8, runs := v9, ports := v10, chans := v11, frames := v12, stores := v13, pieces := v14, loaded := v15, lock := v16, logReads := v17, remaps := v18 } ↔ Memory.wf s := Iff.rfl

theorem upd_nextId_outst_wf {s : State} {v0} {v1} :
    Memory.wf { s with nextId := v0, outst := v1 } ↔ Memory.wf s := Iff.rfl

theorem upd_tables_wf {s : State} {v0} :
    Memory.wf { s with tables := v0 } ↔ Memory.wf s := Iff.rfl

theorem upd_frames_lock_wf {s : State} {v0} {v1} :
    Memory.wf { s with frames := v0, lock := v1 } ↔ Memory.wf s := Iff.rfl

theorem upd_out_wf {s : State} {v0} :
    Memory.wf { s with out := v0 } ↔ Memory.wf s := Iff.rfl

theorem upd_ext_boot_wf {s : State} {v0 : ExtMem} {v1} (h0 : v0.mem = s.ext.mem) :
    Memory.wf { s with ext := v0, boot := v1 } ↔ Memory.wf s := by
  unfold Memory.wf; dsimp only; rw [h0]

theorem upd_free_wf {s : State} {v0} :
    Memory.wf { s with free := v0 } ↔ Memory.wf s := Iff.rfl

theorem upd_clusters_wf {s : State} {v0} :
    Memory.wf { s with clusters := v0 } ↔ Memory.wf s := Iff.rfl

theorem upd_nv_wf {s : State} {v0 : Nv} (h0 : v0.mem = s.nv.mem) :
    Memory.wf { s with nv := v0 } ↔ Memory.wf s := by
  unfold Memory.wf; dsimp only; rw [h0]

theorem upd_chans_wf {s : State} {v0} :
    Memory.wf { s with chans := v0 } ↔ Memory.wf s := Iff.rfl

theorem upd_fns_outst_wf {s : State} {v0} {v1} :
    Memory.wf { s with fns := v0, outst := v1 } ↔ Memory.wf s := Iff.rfl

theorem upd_copies_wf {s : State} {v0} :
    Memory.wf { s with copies := v0 } ↔ Memory.wf s := Iff.rfl

theorem upd_telem_wf {s : State} {v0} :
    Memory.wf { s with telem := v0 } ↔ Memory.wf s := Iff.rfl

theorem upd_outst_wf {s : State} {v0} :
    Memory.wf { s with outst := v0 } ↔ Memory.wf s := Iff.rfl

theorem upd_plans_wf {s : State} {v0} :
    Memory.wf { s with plans := v0 } ↔ Memory.wf s := Iff.rfl

theorem upd_geo_boot_wf {s : State} {v0 : Geode} {v1} (h0 : v0.mem = s.geo.mem) :
    Memory.wf { s with geo := v0, boot := v1 } ↔ Memory.wf s := by
  unfold Memory.wf; dsimp only; rw [h0]

theorem upd_faults_wf {s : State} {v0} :
    Memory.wf { s with faults := v0 } ↔ Memory.wf s := Iff.rfl

theorem upd_geo_wf {s : State} {v0 : Geode} (h0 : v0.mem = s.geo.mem) :
    Memory.wf { s with geo := v0 } ↔ Memory.wf s := by
  unfold Memory.wf; dsimp only; rw [h0]

theorem upd_progs_wf {s : State} {v0} :
    Memory.wf { s with progs := v0 } ↔ Memory.wf s := Iff.rfl

theorem upd_tableLoads_wf {s : State} {v0} :
    Memory.wf { s with tableLoads := v0 } ↔ Memory.wf s := Iff.rfl

theorem upd_plans_boot_ports_jtag_wf {s : State} {v0} {v1} {v2} {v3} :
    Memory.wf { s with plans := v0, boot := v1, ports := v2, jtag := v3 } ↔ Memory.wf s := Iff.rfl

theorem upd_logReads_wf {s : State} {v0} :
    Memory.wf { s with logReads := v0 } ↔ Memory.wf s := Iff.rfl

theorem upd_pieces_loaded_wf {s : State} {v0} {v1} :
    Memory.wf { s with pieces := v0, loaded := v1 } ↔ Memory.wf s := Iff.rfl

theorem upd_tables_mprogs_wf {s : State} {v0} {v1} :
    Memory.wf { s with tables := v0, mprogs := v1 } ↔ Memory.wf s := Iff.rfl

theorem upd_scheduled_chans_wf {s : State} {v0} {v1} :
    Memory.wf { s with scheduled := v0, chans := v1 } ↔ Memory.wf s := Iff.rfl

theorem upd_deliveries_wf {s : State} {v0} :
    Memory.wf { s with deliveries := v0 } ↔ Memory.wf s := Iff.rfl

theorem upd_fns_outst_sup_boot_logReads_wf {s : State} {v0} {v1} {v2} {v3} {v4} :
    Memory.wf { s with fns := v0, outst := v1, sup := v2, boot := v3, logReads := v4 } ↔ Memory.wf s := Iff.rfl

theorem upd_scheduled_wf {s : State} {v0} :
    Memory.wf { s with scheduled := v0 } ↔ Memory.wf s := Iff.rfl

theorem upd_repro_wf {s : State} {v0} :
    Memory.wf { s with repro := v0 } ↔ Memory.wf s := Iff.rfl

theorem upd_stores_wf {s : State} {v0} :
    Memory.wf { s with stores := v0 } ↔ Memory.wf s := Iff.rfl

theorem upd_frames_wf {s : State} {v0} :
    Memory.wf { s with frames := v0 } ↔ Memory.wf s := Iff.rfl

theorem upd_faults_telem_wf {s : State} {v0} {v1} :
    Memory.wf { s with faults := v0, telem := v1 } ↔ Memory.wf s := Iff.rfl

theorem upd_lock_wf {s : State} {v0} :
    Memory.wf { s with lock := v0 } ↔ Memory.wf s := Iff.rfl

theorem upd_copies_waits_barriers_scheduled_tableLoads_mprogLoads_stores_logReads_nv_panel_wf {s : State} {v0} {v1} {v2} {v3} {v4} {v5} {v6} {v7} {v8 : Nv} {v9} (h8 : v8.mem = s.nv.mem) :
    Memory.wf { s with copies := v0, waits := v1, barriers := v2, scheduled := v3, tableLoads := v4, mprogLoads := v5, stores := v6, logReads := v7, nv := v8, panel := v9 } ↔ Memory.wf s := by
  unfold Memory.wf; dsimp only; rw [h8]

theorem upd_fns_ext_sup_plans_boot_units_mapping_toReplace_faults_nv_panel_thermal_wf {s : State} {v0} {v1 : ExtMem} {v2} {v3} {v4} {v5} {v6} {v7} {v8} {v9 : Nv} {v10} {v11} (h1 : v1.mem = s.ext.mem) (h9 : v9.mem = s.nv.mem) :
    Memory.wf { s with fns := v0, ext := v1, sup := v2, plans := v3, boot := v4, units := v5, mapping := v6, toReplace := v7, faults := v8, nv := v9, panel := v10, thermal := v11 } ↔ Memory.wf s := by
  unfold Memory.wf; dsimp only; rw [h1, h9]

theorem upd_sup_telem_wf {s : State} {v0} {v1} :
    Memory.wf { s with sup := v0, telem := v1 } ↔ Memory.wf s := Iff.rfl

theorem upd_tick_withhold_wf {s : State} {v0} {v1} :
    Memory.wf { s with tick := v0, withhold := v1 } ↔ Memory.wf s := Iff.rfl

theorem upd_pending_wf {s : State} {v0} :
    Memory.wf { s with pending := v0 } ↔ Memory.wf s := Iff.rfl

theorem upd_fns_outst_boot_wf {s : State} {v0} {v1} {v2} :
    Memory.wf { s with fns := v0, outst := v1, boot := v2 } ↔ Memory.wf s := Iff.rfl

theorem upd_panel_wf {s : State} {v0} :
    Memory.wf { s with panel := v0 } ↔ Memory.wf s := Iff.rfl

theorem upd_fns_wf {s : State} {v0} :
    Memory.wf { s with fns := v0 } ↔ Memory.wf s := Iff.rfl

theorem upd_units_wf {s : State} {v0} :
    Memory.wf { s with units := v0 } ↔ Memory.wf s := Iff.rfl

theorem upd_progs_frames_wf {s : State} {v0} {v1} :
    Memory.wf { s with progs := v0, frames := v1 } ↔ Memory.wf s := Iff.rfl

theorem upd_waits_wf {s : State} {v0} :
    Memory.wf { s with waits := v0 } ↔ Memory.wf s := Iff.rfl

theorem upd_deliveries_runs_chans_loaded_wf {s : State} {v0} {v1} {v2} {v3} :
    Memory.wf { s with deliveries := v0, runs := v1, chans := v2, loaded := v3 } ↔ Memory.wf s := Iff.rfl

theorem upd_pieces_wf {s : State} {v0} :
    Memory.wf { s with pieces := v0 } ↔ Memory.wf s := Iff.rfl

theorem upd_ext_slots_wf {s : State} {v0 : ExtMem} {v1} (h0 : v0.mem = s.ext.mem) :
    Memory.wf { s with ext := v0, slots := v1 } ↔ Memory.wf s := by
  unfold Memory.wf; dsimp only; rw [h0]

theorem upd_nv_panel_wf {s : State} {v0 : Nv} {v1} (h0 : v0.mem = s.nv.mem) :
    Memory.wf { s with nv := v0, panel := v1 } ↔ Memory.wf s := by
  unfold Memory.wf; dsimp only; rw [h0]

theorem upd_mapping_lastPhys_wf {s : State} {v0} {v1} :
    Memory.wf { s with mapping := v0, lastPhys := v1 } ↔ Memory.wf s := Iff.rfl

theorem upd_slots_wf {s : State} {v0} :
    Memory.wf { s with slots := v0 } ↔ Memory.wf s := Iff.rfl

theorem upd_thermal_wf {s : State} {v0} :
    Memory.wf { s with thermal := v0 } ↔ Memory.wf s := Iff.rfl

theorem upd_runs_wf {s : State} {v0} :
    Memory.wf { s with runs := v0 } ↔ Memory.wf s := Iff.rfl

theorem upd_sup_boot_faults_panel_wf {s : State} {v0} {v1} {v2} {v3} :
    Memory.wf { s with sup := v0, boot := v1, faults := v2, panel := v3 } ↔ Memory.wf s := Iff.rfl

theorem upd_mprogLoads_wf {s : State} {v0} :
    Memory.wf { s with mprogLoads := v0 } ↔ Memory.wf s := Iff.rfl

theorem upd_tick_wf {s : State} {v0} :
    Memory.wf { s with tick := v0 } ↔ Memory.wf s := Iff.rfl

theorem upd_ports_wf {s : State} {v0} :
    Memory.wf { s with ports := v0 } ↔ Memory.wf s := Iff.rfl

theorem upd_ext_telem_wf {s : State} {v0 : ExtMem} {v1} (h0 : v0.mem = s.ext.mem) :
    Memory.wf { s with ext := v0, telem := v1 } ↔ Memory.wf s := by
  unfold Memory.wf; dsimp only; rw [h0]

theorem upd_strata_wf {s : State} {v0} :
    Memory.wf { s with strata := v0 } ↔ Memory.wf s := Iff.rfl

theorem upd_mapping_wf {s : State} {v0} :
    Memory.wf { s with mapping := v0 } ↔ Memory.wf s := Iff.rfl

theorem upd_mapping_toReplace_wf {s : State} {v0} {v1} :
    Memory.wf { s with mapping := v0, toReplace := v1 } ↔ Memory.wf s := Iff.rfl

/-- A change of one scratch memory which keeps its form. -/
theorem scratch_wf {s : State} {c : PhysNo} {f : Mem → Mem} (hf : ∀ m, memWf 0 m = true → memWf 0 (f m) = true)
    (h : Memory.wf s) : Memory.wf { s with scratch := vmod s.scratch c f } :=
  ⟨h.1, h.2.1, vmod_forall (P := fun m => memWf 0 m = true) _ _ _ h.2.2.1 (hf _ (h.2.2.1 c)), h.2.2.2⟩

/-- Bytes written into a scratch memory. -/
theorem scratchWrite_wf {s : State} {c : PhysNo} {a : Nat} {l : List Byte} (h : Memory.wf s) :
    Memory.wf { s with scratch := vmod s.scratch c fun m => memWriteList 0 m a l } :=
  scratch_wf (fun _ hm => memWriteList_wf _ _ hm) h

/-- Bytes of a scratch memory zeroed. -/
theorem scratchClear_wf {s : State} {c : PhysNo} {a n : Nat} (h : Memory.wf s) :
    Memory.wf { s with scratch := vmod s.scratch c fun m => memClear m a n } :=
  scratch_wf (fun _ hm => memClear_wf _ _ hm) h

end Sys2Proof.Machine
end

