-- ==== Sys2Proof/Laws/FormShared.lean ====
section
/-!
SUPPORT. Each operation of the model keeps the canonical form of every memory: the shared operations, the command interface, memory, the pool and the notices.
-/

set_option linter.all false

namespace Sys2Proof.Machine

/-! ### Ops -/

theorem modFn_wf (s : State) (fn : FnNo) (f : Func → Func) : Memory.wf (State.modFn s fn f) ↔ Memory.wf s :=
  wf_congr fun _ => by apply modFn_only <;> decide

theorem modQp_wf (s : State) (fn : FnNo) (qp : QpNo) (f : QPair → QPair) : Memory.wf (State.modQp s fn qp f) ↔ Memory.wf s :=
  wf_congr fun _ => by apply modQp_only <;> decide

theorem modEvq_wf (s : State) (fn : FnNo) (f : Evq → Evq) : Memory.wf (State.modEvq s fn f) ↔ Memory.wf s :=
  wf_congr fun _ => by apply modEvq_only <;> decide

theorem modStratum_wf (s : State) (n : FnNo) (f : Stratum → Stratum) : Memory.wf (State.modStratum s n f) ↔ Memory.wf s :=
  wf_congr fun _ => by apply modStratum_only <;> decide

theorem modStore_wf (s : State) (e : EngNo) (n : FnNo) (f : EngStore → EngStore) : Memory.wf (State.modStore s e n f) ↔ Memory.wf s :=
  wf_congr fun _ => by apply modStore_only <;> decide

theorem emit_wf (s : State) (e : Emit) : Memory.wf (State.emit s e) ↔ Memory.wf s :=
  wf_congr fun _ => by apply emit_only <;> decide

theorem draw_wf (s : State) : Memory.wf (State.draw s).2 ↔ Memory.wf s :=
  wf_congr fun _ => by apply draw_only <;> decide

theorem sendMsix_wf (s : State) (fn : FnNo) (v : Fin 64) : Memory.wf (State.sendMsix s fn v) ↔ Memory.wf s :=
  wf_congr fun _ => by apply sendMsix_only <;> decide

theorem releaseMsix_wf (s : State) (fn : FnNo) : Memory.wf (State.releaseMsix s fn) ↔ Memory.wf s :=
  wf_congr fun _ => by apply releaseMsix_only <;> decide

theorem setCause_wf (s : State) (fn : FnNo) (cause : BitVec 12) (mask : BitVec 12) : Memory.wf (State.setCause s fn cause mask) ↔ Memory.wf s :=
  wf_congr fun _ => by apply setCause_only <;> decide

theorem raise_wf (s : State) (fn : FnNo) (bits : BitVec 12) : Memory.wf (State.raise s fn bits) ↔ Memory.wf s :=
  wf_congr fun _ => by apply raise_only <;> decide

theorem raiseAll_wf (s : State) (bits : BitVec 12) : Memory.wf (State.raiseAll s bits) ↔ Memory.wf s :=
  wf_congr fun _ => by apply raiseAll_only <;> decide

theorem writeRec_wf (s : State) (fn : FnNo) (r : EvRec) : Memory.wf (State.writeRec s fn r) ↔ Memory.wf s :=
  wf_congr fun _ => by apply writeRec_only <;> decide

theorem writeHeld_wf (s : State) (fn : FnNo) (a2 : List EvRec) : Memory.wf (State.writeHeld s fn a2) ↔ Memory.wf s :=
  wf_congr fun _ => by apply writeHeld_only <;> decide

theorem flushEvq_wf (s : State) (fn : FnNo) : Memory.wf (State.flushEvq s fn) ↔ Memory.wf s :=
  wf_congr fun _ => by apply flushEvq_only <;> decide

theorem trimHeld_wf (s : State) (fn : FnNo) : Memory.wf (State.trimHeld s fn) ↔ Memory.wf s :=
  wf_congr fun _ => by apply trimHeld_only <;> decide

theorem hitWaits_wf (s : State) (fn : FnNo) (r : EvRec) : Memory.wf (State.hitWaits s fn r) ↔ Memory.wf s :=
  wf_congr fun _ => by apply hitWaits_only <;> decide

theorem sendRec_wf (s : State) (fn : FnNo) (r : EvRec) : Memory.wf (State.sendRec s fn r) ↔ Memory.wf s :=
  wf_congr fun _ => by apply sendRec_only <;> decide

theorem occurAt_wf (s : State) (n : FnNo) (evType : W16) (tick : Tick) (a4 : W64) (r1 : W64) (data : BitVec 192) : Memory.wf (State.occurAt s n evType tick a4 r1 data) ↔ Memory.wf s :=
  wf_congr fun _ => by apply occurAt_only <;> decide

theorem occur_wf (s : State) (n : FnNo) (evType : W16) (a3 : W64) (r1 : W64) : Memory.wf (State.occur s n evType a3 r1) ↔ Memory.wf s :=
  wf_congr fun _ => by apply occur_only <;> decide

theorem occurAll_wf (s : State) (l : List FnNo) (evType : W16) (a3 : W64) (r1 : W64) : Memory.wf (State.occurAll s l evType a3 r1) ↔ Memory.wf s :=
  wf_congr fun _ => by apply occurAll_only <;> decide

theorem complete_wf (s : State) (id : Nat) (status : W16) (detail : W16) (a4 : W64) (r1 : W64) (data : BitVec 192) : Memory.wf (State.complete s id status detail a4 r1 data) ↔ Memory.wf s :=
  wf_congr fun _ => by apply complete_only <;> decide

theorem completeOk_wf (s : State) (id : Nat) (a2 : W64) (r1 : W64) : Memory.wf (State.completeOk s id a2 r1) ↔ Memory.wf s :=
  wf_congr fun _ => by apply completeOk_only <;> decide

theorem writeReply_wf (s : State) (fn : FnNo) (qp : QpNo) (op : BitVec 8) (flags : BitVec 8) (tag : W16) (status : W16) (detail : W16) (a8 : W64) (r1 : W64) : Memory.wf (State.writeReply s fn qp op flags tag status detail a8 r1) ↔ Memory.wf s :=
  wf_congr fun _ => by apply writeReply_only <;> decide

theorem postpone_wf (s : State) (fn : FnNo) (w : Unsent) : Memory.wf (State.postpone s fn w) ↔ Memory.wf s :=
  wf_congr fun _ => by apply postpone_only <;> decide

theorem reply_wf (s : State) (fn : FnNo) (qp : QpNo) (op : BitVec 8) (p : Packet) (status : W16) (detail : W16) (a7 : W64) (r1 : W64) : Memory.wf (State.reply s fn qp op p status detail a7 r1) ↔ Memory.wf s :=
  wf_congr fun _ => by apply reply_only <;> decide

theorem hostWrite_wf (s : State) (fn : FnNo) (addr : W64) (bytes : List Byte) : Memory.wf (State.hostWrite s fn addr bytes) ↔ Memory.wf s :=
  wf_congr fun _ => by apply hostWrite_only <;> decide

theorem bulkWrite_wf (s : State) (fn : FnNo) (addr : W64) (bytes : List Byte) : Memory.wf (State.bulkWrite s fn addr bytes) ↔ Memory.wf s :=
  wf_congr fun _ => by apply bulkWrite_only <;> decide

theorem sendNow_wf (s : State) (fn : FnNo) (a2 : Unsent) : Memory.wf (State.sendNow s fn a2) ↔ Memory.wf s :=
  wf_congr fun _ => by apply sendNow_only <;> decide

theorem sendUnsent_wf (s : State) (fn : FnNo) : Memory.wf (State.sendUnsent s fn) ↔ Memory.wf s :=
  wf_congr fun _ => by apply sendUnsent_only <;> decide

theorem idle_wf (s : State) : Memory.wf (idle s) ↔ Memory.wf s :=
  wf_congr fun _ => by apply idle_only <;> decide

theorem reach_wf (s : State) (t : Tick) : Memory.wf (State.reach s t) ↔ Memory.wf s :=
  wf_congr fun _ => by apply reach_only <;> decide

/-! ### Operands -/

theorem writeBlock_wf (s : State) (fn : FnNo) (addr : W64) (bytes : List Byte) : Memory.wf (State.writeBlock s fn addr bytes) ↔ Memory.wf s :=
  wf_congr fun _ => by apply writeBlock_only <;> decide

theorem serve_wf (s : State) (fn : FnNo) (qp : QpNo) : Memory.wf (State.serve s fn qp) ↔ Memory.wf s :=
  wf_congr fun _ => by apply serve_only <;> decide

theorem taken_wf (s : State) (fn : FnNo) (qp : QpNo) : Memory.wf (State.taken s fn qp) ↔ Memory.wf s :=
  wf_congr fun _ => by apply taken_only <;> decide

theorem startQueue_wf (s : State) (fn : FnNo) (qp : QpNo) : Memory.wf (startQueue s fn qp) ↔ Memory.wf s :=
  wf_congr fun _ => by apply startQueue_only <;> decide

theorem settleQueue_wf (s : State) (fn : FnNo) (qp : QpNo) : Memory.wf (settleQueue s fn qp) ↔ Memory.wf s :=
  wf_congr fun _ => by apply settleQueue_only <;> decide

theorem afterReply_wf (fn : FnNo) (qp : QpNo) (p : Packet) (prev : Nat) (failed : Option W16) (s : State) : Memory.wf (afterReply fn qp p prev failed s) ↔ Memory.wf s :=
  wf_congr fun _ => by apply afterReply_only <;> decide

theorem cancelReply_wf (fn : FnNo) (qp : QpNo) (op : BitVec 8) (p : Packet) (tag : W16) (s : State) : Memory.wf (cancelReply fn qp op p tag s) ↔ Memory.wf s :=
  wf_congr fun _ => by apply cancelReply_only <;> decide

theorem rejectReply_wf (fn : FnNo) (qp : QpNo) (op : BitVec 8) (p : Packet) (r : Rej) (s : State) : Memory.wf (rejectReply fn qp op p r s) ↔ Memory.wf s :=
  wf_congr fun _ => by apply rejectReply_only <;> decide

theorem takeCommand_wf {fn : FnNo} {qp : QpNo} {op : BitVec 8} {long : Bool} {p : Packet} {body : State → State} {s : State}
    (hb : ∀ t, Memory.wf t → Memory.wf (body t)) (h : Memory.wf s) : Memory.wf (takeCommand fn qp op long p body s) := by
  unfold takeCommand
  repeat' (first | assumption | (simp only [↓settleQueue_wf, ↓taken_wf, ↓modQp_wf]) | (with_reducible apply hb) | split | dsimp only)

theorem shortCommand_wf {c : CmdSpec} {fn : FnNo} {qp : QpNo} {p : Packet} {chk res : State → Option Rej}
    {eff : State → State × Res} {s : State} (he : ∀ t, Memory.wf t → Memory.wf (eff t).1) (h : Memory.wf s) :
    Memory.wf (shortCommand c fn qp p chk res eff s) := by
  refine takeCommand_wf (fun t ht => ?_) h
  (repeat' split) <;> simp only [↓cancelReply_wf, ↓rejectReply_wf, ↓afterReply_wf, ↓reply_wf] <;> first
    | assumption
    | exact he _ ht

theorem longBody_wf {c : CmdSpec} {fn : FnNo} {qp : QpNo} {p : Packet} {chk res : State → Option Rej}
    {acc work : Nat → State → State} {s : State} (ha : ∀ i t, Memory.wf t → Memory.wf (acc i t))
    (hw : ∀ i t, Memory.wf t → Memory.wf (work i t)) (h : Memory.wf s) :
    Memory.wf (longBody c fn qp p chk res acc work s) := by
  unfold longBody
  (repeat' split) <;> (try simp only [↓cancelReply_wf, ↓rejectReply_wf]) <;> (try assumption)
  apply hw; simp only [↓afterReply_wf, ↓reply_wf]; apply ha; simp only [↓modEvq_wf, ↓upd_nextId_outst_wf]; exact h

theorem longCommand_wf {c : CmdSpec} {fn : FnNo} {qp : QpNo} {p : Packet} {chk res : State → Option Rej}
    {acc work : Nat → State → State} {s : State} (ha : ∀ i t, Memory.wf t → Memory.wf (acc i t))
    (hw : ∀ i t, Memory.wf t → Memory.wf (work i t)) (h : Memory.wf s) :
    Memory.wf (longCommand c fn qp p chk res acc work s) :=
  takeCommand_wf (fun _ ht => longBody_wf ha hw ht) h

/-! ### Memory -/

theorem markGranule_wf (s : State) (g : Nat) (m : Mark) (h : Memory.wf s) : Memory.wf (State.markGranule s g m) := by
  unfold State.markGranule
  repeat' (first | with_reducible assumption | (simp only [↓upd_geo_wf]) | (with_reducible apply foldl_fst_wf) | (with_reducible apply foldl_wf) | intro _ | (with_reducible apply ite_wf) | split | dsimp only)

theorem freeGranule_wf (s : State) (g : Nat) (h : Memory.wf s) : Memory.wf (s.freeGranule g) :=
  ⟨memClear_wf _ _ h.1, h.2.1, h.2.2.1, h.2.2.2⟩

theorem placeGranules_wf (s : State) (m : Mark) (last : Nat) (n : Nat) (h : Memory.wf s) :
    Memory.wf (s.placeGranules m last n).1 := by
  induction n generalizing s last with
  | zero => simpa only [State.placeGranules] using h
  | succ n ih =>
    rw [State.placeGranules]
    split
    · exact ih _ _ h
    · exact ih _ _ (markGranule_wf _ _ _ h)

theorem locWrite_wf (s : State) (v : Byte) (l : Loc) (h : Memory.wf s) : Memory.wf (s.locWrite v l) := by
  unfold State.locWrite
  split
  · exact ⟨memWrite_wf _ _ h.1, h.2.1, h.2.2.1, h.2.2.2⟩
  · exact ⟨h.1, h.2.1, vmod_forall (P := fun m => memWf 0 m = true) _ _ _ h.2.2.1 (memWrite_wf _ _ (h.2.2.1 _)), h.2.2.2⟩
  · exact ⟨h.1, spPut_sorted _ _ _ h.2.1, h.2.2.1, h.2.2.2⟩
  · exact h

theorem unpoison_wf (s : State) (w : ExtNo × Nat) (h : Memory.wf s) : Memory.wf (State.unpoison s w) := by
  unfold State.unpoison
  repeat' (first | with_reducible assumption | (simp only [↓upd_ext_wf]) | (with_reducible apply foldl_fst_wf) | (with_reducible apply foldl_wf) | intro _ | (with_reducible apply ite_wf) | split | dsimp only)

theorem viewWriteGo_wf (s : State) (n : FnNo) (l : List (Nat × Byte)) (h : Memory.wf s) :
    Memory.wf (s.viewWriteGo n l).1 := by
  induction l generalizing s with
  | nil => simpa only [State.viewWriteGo] using h
  | cons w l ih =>
    rw [State.viewWriteGo]
    split
    · exact h
    · exact ih _ (locWrite_wf _ _ _ h)

theorem makeGood_wf (s : State) (n : FnNo) (ws : List (Nat × Byte)) (h : Memory.wf s) : Memory.wf (State.makeGood s n ws) := by
  unfold State.makeGood
  repeat' (first | with_reducible assumption | (with_reducible apply unpoison_wf) | (with_reducible apply forEach_wf) | (with_reducible apply foldl_fst_wf) | (with_reducible apply foldl_wf) | intro _ | (with_reducible apply ite_wf) | split | dsimp only)

theorem viewWrite_wf (s : State) (n : FnNo) (ws : List (Nat × Byte)) (h : Memory.wf s) : Memory.wf (State.viewWrite s n ws).1 := by
  unfold State.viewWrite
  repeat' (first | with_reducible assumption | (with_reducible apply viewWriteGo_wf) | (with_reducible apply makeGood_wf) | (with_reducible apply foldl_fst_wf) | (with_reducible apply foldl_wf) | intro _ | (with_reducible apply ite_wf) | split | dsimp only)

theorem allocate_wf (s : State) (n : FnNo) (ext : Bool) (base : Nat) (parts : Nat) (h : Memory.wf s) : Memory.wf (State.allocate s n ext base parts) := by
  unfold State.allocate
  repeat' (first | with_reducible assumption | (simp only [↓draw_wf, ↓modStratum_wf]) | (with_reducible apply placeGranules_wf) | (with_reducible apply foldl_fst_wf) | (with_reducible apply foldl_wf) | intro _ | (with_reducible apply ite_wf) | split | dsimp only)

theorem unpoisonPages_wf (s : State) (ps : List Nat) (h : Memory.wf s) : Memory.wf (State.unpoisonPages s ps) := by
  unfold State.unpoisonPages
  repeat' (first | with_reducible assumption | (simp only [↓upd_ext_wf]) | (with_reducible apply foldl_fst_wf) | (with_reducible apply foldl_wf) | intro _ | (with_reducible apply ite_wf) | split | dsimp only)

theorem dropPages_wf (s : State) (ps : List Nat) (h : Memory.wf s) : Memory.wf (s.dropPages ps) :=
  ⟨h.1, spSorted_filter _ _ h.2.1, h.2.2.1, h.2.2.2⟩

theorem release_wf (s : State) (n : FnNo) (ext : Bool) (x : Alloc) (h : Memory.wf s) : Memory.wf (State.release s n ext x) := by
  unfold State.release
  repeat' (first | with_reducible assumption | (simp only [↓modStratum_wf]) | (with_reducible apply dropPages_wf) | (with_reducible apply unpoisonPages_wf) | (with_reducible apply freeGranule_wf) | (with_reducible apply forEach_wf) | (with_reducible apply foldl_fst_wf) | (with_reducible apply foldl_wf) | intro _ | (with_reducible apply ite_wf) | split | dsimp only)

/-! ### Pool -/

theorem modChan_wf (s : State) (c : Nat) (f : Chan → Chan) : Memory.wf (State.modChan s c f) ↔ Memory.wf s :=
  wf_congr fun _ => by apply modChan_only <;> decide

theorem modFrame_wf (s : State) (c : Nat) (q : Nat) (f : Frame → Frame) : Memory.wf (State.modFrame s c q f) ↔ Memory.wf s :=
  wf_congr fun _ => by apply modFrame_only <;> decide

theorem delFrame_wf (s : State) (c : Nat) (q : Nat) : Memory.wf (State.delFrame s c q) ↔ Memory.wf s :=
  wf_congr fun _ => by apply delFrame_only <;> decide

theorem count_wf (s : State) (n : FnNo) (i : Fin 14) (k : Nat) : Memory.wf (State.count s n i k) ↔ Memory.wf s :=
  wf_congr fun _ => by apply count_only <;> decide

theorem countDrop_wf (s : State) (c : Nat) : Memory.wf (State.countDrop s c) ↔ Memory.wf s :=
  wf_congr fun _ => by apply countDrop_only <;> decide

theorem modBufs_wf (s : State) (f : List Buf → List Buf) (h : Memory.wf s) : Memory.wf (State.modBufs s f) := by
  unfold State.modBufs
  repeat' (first | with_reducible assumption | (simp only [↓upd_geo_wf]) | (with_reducible apply foldl_fst_wf) | (with_reducible apply foldl_wf) | intro _ | (with_reducible apply ite_wf) | split | dsimp only)

theorem grantOne_wf (s : State) (c : Nat) (h : Memory.wf s) : Memory.wf (State.grantOne s c) := by
  unfold State.grantOne
  repeat' (first | with_reducible assumption | (with_reducible apply modBufs_wf) | (with_reducible apply foldl_fst_wf) | (with_reducible apply foldl_wf) | intro _ | (with_reducible apply ite_wf) | split | dsimp only)

theorem zeroBuf_wf (s : State) (n : Nat) (h : Memory.wf s) : Memory.wf (State.zeroBuf s n) := by
  unfold State.zeroBuf
  repeat' (first | with_reducible assumption | (with_reducible apply modBufs_wf) | (with_reducible apply foldl_fst_wf) | (with_reducible apply foldl_wf) | intro _ | (with_reducible apply ite_wf) | split | dsimp only)

theorem foldStarved_wf (s : State) (c : Chan) : Memory.wf (State.foldStarved s c) ↔ Memory.wf s :=
  wf_congr fun _ => by apply foldStarved_only <;> decide

theorem advertise_wf (s : State) (c : Chan) : Memory.wf (State.advertise s c) ↔ Memory.wf s :=
  wf_congr fun _ => by apply advertise_only <;> decide

theorem noteWaits_wf (s : State) : Memory.wf (State.noteWaits s) ↔ Memory.wf s :=
  wf_congr fun _ => by apply noteWaits_only <;> decide

theorem noteShort_wf (s : State) (h : Memory.wf s) : Memory.wf (State.noteShort s) := by
  unfold State.noteShort
  repeat' (first | with_reducible assumption | (simp only [↓occurAll_wf, ↓upd_geo_wf]) | (with_reducible apply foldl_fst_wf) | (with_reducible apply foldl_wf) | intro _ | (with_reducible apply ite_wf) | split | dsimp only)

theorem settlePool_wf (s : State) (h : Memory.wf s) : Memory.wf (State.settlePool s) := by
  unfold State.settlePool
  repeat' (first | with_reducible assumption | (simp only [↓noteWaits_wf, ↓advertise_wf]) | (with_reducible apply noteShort_wf) | (with_reducible apply forEach_wf) | (with_reducible apply foldl_fst_wf) | (with_reducible apply foldl_wf) | intro _ | (with_reducible apply ite_wf) | split | dsimp only)

theorem releaseBuf_wf (s : State) (c : Chan) (n : Nat) (h : Memory.wf s) : Memory.wf (State.releaseBuf s c n) := by
  unfold State.releaseBuf
  repeat' (first | with_reducible assumption | (with_reducible apply modBufs_wf) | (with_reducible apply zeroBuf_wf) | (with_reducible apply foldl_fst_wf) | (with_reducible apply foldl_wf) | intro _ | (with_reducible apply ite_wf) | split | dsimp only)

theorem releaseFrame_wf (s : State) (c : Nat) (q : Nat) (copy : Bool) (h : Memory.wf s) : Memory.wf (State.releaseFrame s c q copy) := by
  unfold State.releaseFrame
  repeat' (first | with_reducible assumption | (with_reducible apply releaseBuf_wf) | (with_reducible apply forEach_wf) | (with_reducible apply foldl_fst_wf) | (with_reducible apply foldl_wf) | intro _ | (with_reducible apply ite_wf) | split | dsimp only)

theorem reclaim_wf (s : State) (n : FnNo) (go : State → Bool) (h : Memory.wf s) : Memory.wf (s.reclaim n go) := by
  refine forEach_wf (fun c t ht => forEach_wf (fun b u hu => ?_) _ _ ht) _ _ h
  (repeat' split) <;> first | assumption | exact zeroBuf_wf _ _ hu

theorem reclaimAll_wf (s old : State) (h : Memory.wf s) : Memory.wf (s.reclaimAll old) := by
  unfold State.reclaimAll
  dsimp only
  refine forEach_wf ?_ _ _ (forEach_wf ?_ _ _ h)
  · intro n t ht; exact reclaim_wf _ _ _ ht
  · intro n t ht
    split
    · exact ht
    · exact reclaim_wf _ _ _ ht

theorem dropFrame_wf (s : State) (c : Nat) (q : Nat) (h : Memory.wf s) : Memory.wf (State.dropFrame s c q) := by
  unfold State.dropFrame
  repeat' (first | with_reducible assumption | (simp only [↓delFrame_wf, ↓countDrop_wf]) | (with_reducible apply releaseFrame_wf) | (with_reducible apply foldl_fst_wf) | (with_reducible apply foldl_wf) | intro _ | (with_reducible apply ite_wf) | split | dsimp only)

theorem dropOpen_wf (s : State) (c : Nat) (h : Memory.wf s) : Memory.wf (State.dropOpen s c) := by
  unfold State.dropOpen
  repeat' (first | with_reducible assumption | (simp only [↓modChan_wf]) | (with_reducible apply dropFrame_wf) | (with_reducible apply foldl_fst_wf) | (with_reducible apply foldl_wf) | intro _ | (with_reducible apply ite_wf) | split | dsimp only)

/-! ### Notices -/

theorem modRepro_wf (s : State) (n : FnNo) (f : ReproRun → ReproRun) : Memory.wf (State.modRepro s n f) ↔ Memory.wf s :=
  wf_congr fun _ => by apply modRepro_only <;> decide

theorem reproBreak_wf (s : State) (cause : W64) (n : FnNo) : Memory.wf (State.reproBreak s cause n) ↔ Memory.wf s :=
  wf_congr fun _ => by apply reproBreak_only <;> decide

theorem breakAll_wf (s : State) (cause : W64) : Memory.wf (State.breakAll s cause) ↔ Memory.wf s :=
  wf_congr fun _ => by apply breakAll_only <;> decide

theorem beginDueRuns_wf (s : State) : Memory.wf (State.beginDueRuns s) ↔ Memory.wf s :=
  wf_congr fun _ => by apply beginDueRuns_only <;> decide

theorem reproBegin_wf (s : State) (n : FnNo) : Memory.wf (State.reproBegin s n) ↔ Memory.wf s :=
  wf_congr fun _ => by apply reproBegin_only <;> decide

theorem throttle_wf (s : State) : Memory.wf (State.throttle s) ↔ Memory.wf s :=
  wf_congr fun _ => by apply throttle_only <;> decide

theorem lapse_wf (s : State) (cause : BitVec 8) (unit : W16) (l : List FnNo) : Memory.wf (State.lapse s cause unit l) ↔ Memory.wf s :=
  wf_congr fun _ => by apply lapse_only <;> decide

theorem lapseEnds_wf (s : State) (cause : BitVec 8) (unit : W16) : Memory.wf (State.lapseEnds s cause unit) ↔ Memory.wf s :=
  wf_congr fun _ => by apply lapseEnds_only <;> decide

theorem restoreTiming_wf (s : State) : Memory.wf (State.restoreTiming s) ↔ Memory.wf s :=
  wf_congr fun _ => by apply restoreTiming_only <;> decide

theorem startInstall_wf (s : State) (plan : BitVec 8) (capCaused : Bool) : Memory.wf (State.startInstall s plan capCaused) ↔ Memory.wf s :=
  wf_congr fun _ => by apply startInstall_only <;> decide

theorem callPlan_wf (s : State) (capCaused : Bool) : Memory.wf (State.callPlan s capCaused) ↔ Memory.wf s :=
  wf_congr fun _ => by apply callPlan_only <;> decide

theorem commitFaults_wf (s : State) : Memory.wf (State.commitFaults s) ↔ Memory.wf s :=
  wf_congr fun _ => by apply commitFaults_only <;> decide

theorem faultAt_wf (s : State) (tick : Tick) (cls : BitVec 8) (cause : BitVec 8) (unit : W16) (strata : W16) (action : BitVec 8) (logical : BitVec 8) (newUnit : W16) (detail : BitVec 224) : Memory.wf (State.faultAt s tick cls cause unit strata action logical newUnit detail).1 ↔ Memory.wf s :=
  wf_congr fun _ => by apply faultAt_only <;> decide

theorem fault_wf (s : State) (cls : BitVec 8) (cause : BitVec 8) (unit : W16) (strata : W16) (action : BitVec 8) (logical : BitVec 8) (newUnit : W16) (detail : BitVec 224) : Memory.wf (State.fault s cls cause unit strata action logical newUnit detail).1 ↔ Memory.wf s :=
  wf_congr fun _ => by apply fault_only <;> decide

theorem unitFailed_wf (s : State) (unit : W16) (cause : BitVec 8) (action : BitVec 8) (strata : List FnNo) (index : Nat) : Memory.wf (State.unitFailed s unit cause action strata index) ↔ Memory.wf s :=
  wf_congr fun _ => by apply unitFailed_only <;> decide

end Sys2Proof.Machine
end

