-- ==== Sys2Proof/Laws/FormLinks.lean ====
section
/-!
SUPPORT. Each operation of the model keeps the canonical form of every memory: links, frames, caps and plans, copies, narrow transport and ports.
-/

set_option linter.all false

namespace Sys2Proof.Machine

/-! ### Link -/

theorem modPort_wf (s : State) (p : PortNo) (f : Port → Port) : Memory.wf (State.modPort s p f) ↔ Memory.wf s :=
  wf_congr fun _ => by apply modPort_only <;> decide

theorem modLane_wf (s : State) (l : LaneNo) (f : LaneSt → LaneSt) : Memory.wf (State.modLane s l f) ↔ Memory.wf s :=
  wf_congr fun _ => by apply modLane_only <;> decide

theorem notePort_wf (s : State) (p : PortNo) : Memory.wf (State.notePort s p) ↔ Memory.wf s :=
  wf_congr fun _ => by apply notePort_only <;> decide

theorem portLapse_wf (s : State) (p : PortNo) : Memory.wf (State.portLapse s p) ↔ Memory.wf s :=
  wf_congr fun _ => by apply portLapse_only <;> decide

theorem portLapseEnds_wf (s : State) (p : PortNo) : Memory.wf (State.portLapseEnds s p) ↔ Memory.wf s :=
  wf_congr fun _ => by apply portLapseEnds_only <;> decide

theorem violation_send_wf (s : State) (p : PortNo) (cause : BitVec 8) (ch : Nat) (chan : Option Chan) (rest : List Violation) (n : Nat) : Memory.wf (State.violation.send s p cause ch chan rest n) ↔ Memory.wf s :=
  wf_congr fun _ => by apply violation_send_only <;> decide

theorem violation_wf (s : State) (p : PortNo) (cause : BitVec 8) (ch : Nat) : Memory.wf (State.violation s p cause ch) ↔ Memory.wf s :=
  wf_congr fun _ => by apply violation_only <;> decide

theorem emitItem_wf (s : State) (p : PortNo) (i : Item) : Memory.wf (State.emitItem s p i) ↔ Memory.wf s :=
  wf_congr fun _ => by apply emitItem_only <;> decide

theorem sendItem_wf (s : State) (p : PortNo) (frame : Bool) (bytes : List Byte) : Memory.wf (State.sendItem s p frame bytes) ↔ Memory.wf s :=
  wf_congr fun _ => by apply sendItem_only <;> decide

theorem sendFrame_wf (s : State) (p : PortNo) (ftype : Nat) (ch : Nat) (payload : List Byte) : Memory.wf (State.sendFrame s p ftype ch payload) ↔ Memory.wf s :=
  wf_congr fun _ => by apply sendFrame_only <;> decide

theorem sendMark_wf (s : State) (p : PortNo) (ch : Nat) : Memory.wf (State.sendMark s p ch) ↔ Memory.wf s :=
  wf_congr fun _ => by apply sendMark_only <;> decide

theorem replayFrom_wf (s : State) (p : PortNo) (seq : W16) : Memory.wf (State.replayFrom s p seq) ↔ Memory.wf s :=
  wf_congr fun _ => by apply replayFrom_only <;> decide

theorem noteStuck_wf (s : State) (p : PortNo) : Memory.wf (State.noteStuck s p) ↔ Memory.wf s :=
  wf_congr fun _ => by apply noteStuck_only <;> decide

theorem coverItems_wf (s : State) (p : PortNo) (upTo : W16) : Memory.wf (State.coverItems s p upTo) ↔ Memory.wf s :=
  wf_congr fun _ => by apply coverItems_only <;> decide

theorem sendNak_wf (s : State) (p : PortNo) : Memory.wf (State.sendNak s p) ↔ Memory.wf s :=
  wf_congr fun _ => by apply sendNak_only <;> decide

theorem rxItem_wf (s : State) (p : PortNo) (seq : W16) : Memory.wf (State.rxItem s p seq).1 ↔ Memory.wf s :=
  wf_congr fun _ => by apply rxItem_only <;> decide

theorem linkError_wf (s : State) (p : PortNo) : Memory.wf (State.linkError s p) ↔ Memory.wf s :=
  wf_congr fun _ => by apply linkError_only <;> decide

theorem rxFrame_wf (s : State) (p : PortNo) (bs : List Byte) : Memory.wf (State.rxFrame s p bs).1 ↔ Memory.wf s :=
  wf_congr fun _ => by apply rxFrame_only <;> decide

/-! ### Frames -/

theorem modLock_wf (s : State) (f : Lock → Lock) : Memory.wf (State.modLock s f) ↔ Memory.wf s :=
  wf_congr fun _ => by apply modLock_only <;> decide

theorem takePart_wf (s : State) (owner : Nat) (h : Memory.wf s) : Memory.wf (State.takePart s owner) := by
  unfold State.takePart
  repeat' (first | with_reducible assumption | (simp only [↓upd_geo_wf]) | (with_reducible apply markGranule_wf) | (with_reducible apply foldl_fst_wf) | (with_reducible apply foldl_wf) | intro _ | (with_reducible apply ite_wf) | split | dsimp only)

theorem releaseParts_wf (s : State) (owner : Nat) (h : Memory.wf s) : Memory.wf (State.releaseParts s owner) := by
  unfold State.releaseParts
  repeat' (first | with_reducible assumption | (with_reducible apply freeGranule_wf) | (with_reducible apply markGranule_wf) | (with_reducible apply forEach_wf) | (with_reducible apply foldl_fst_wf) | (with_reducible apply foldl_wf) | intro _ | (with_reducible apply ite_wf) | split | dsimp only)

theorem unbindNow_wf (s : State) (c : Nat) (h : Memory.wf s) : Memory.wf (State.unbindNow s c) := by
  unfold State.unbindNow
  repeat' (first | with_reducible assumption | (simp only [↓modPort_wf, ↓emit_wf, ↓modLock_wf, ↓upd_chans_wf, ↓upd_deliveries_wf, ↓upd_deliveries_runs_chans_loaded_wf, ↓upd_runs_wf]) | (with_reducible apply dropOpen_wf) | (with_reducible apply dropFrame_wf) | (with_reducible apply zeroBuf_wf) | (with_reducible apply settlePool_wf) | (with_reducible apply reclaimAll_wf) | (with_reducible apply releaseParts_wf) | (with_reducible apply forEach_wf) | (with_reducible apply foldl_fst_wf) | (with_reducible apply foldl_wf) | intro _ | (with_reducible apply ite_wf) | split | dsimp only)

theorem endUnbind_wf (s : State) (c : Nat) (h : Memory.wf s) : Memory.wf (State.endUnbind s c) := by
  unfold State.endUnbind
  repeat' (first | with_reducible assumption | (simp only [↓completeOk_wf]) | (with_reducible apply dropOpen_wf) | (with_reducible apply unbindNow_wf) | (with_reducible apply foldl_fst_wf) | (with_reducible apply foldl_wf) | intro _ | (with_reducible apply ite_wf) | split | dsimp only)

theorem endUnbinds_wf (s : State) (h : Memory.wf s) : Memory.wf (State.endUnbinds s) := by
  unfold State.endUnbinds
  repeat' (first | with_reducible assumption | (with_reducible apply endUnbind_wf) | (with_reducible apply forEach_wf) | (with_reducible apply foldl_fst_wf) | (with_reducible apply foldl_wf) | intro _ | (with_reducible apply ite_wf) | split | dsimp only)

theorem releaseForwarded_wf (s : State) (h : Memory.wf s) : Memory.wf (State.releaseForwarded s) := by
  unfold State.releaseForwarded
  repeat' (first | with_reducible assumption | (simp only [↓delFrame_wf]) | (with_reducible apply releaseFrame_wf) | (with_reducible apply forEach_wf) | (with_reducible apply foldl_fst_wf) | (with_reducible apply foldl_wf) | intro _ | (with_reducible apply ite_wf) | split | dsimp only)

theorem flushLock_wf (a0 : Nat) (s : State) : Memory.wf (State.flushLock a0 s) ↔ Memory.wf s :=
  wf_congr fun _ => by apply flushLock_only <;> decide

theorem pumpLock_wf (s : State) (h : Memory.wf s) : Memory.wf (State.pumpLock s) := by
  unfold State.pumpLock
  repeat' (first | with_reducible assumption | (simp only [↓flushLock_wf]) | (with_reducible apply endUnbinds_wf) | (with_reducible apply settlePool_wf) | (with_reducible apply releaseForwarded_wf) | (with_reducible apply foldl_fst_wf) | (with_reducible apply foldl_wf) | intro _ | (with_reducible apply ite_wf) | split | dsimp only)

theorem lockSend_wf (s : State) (item : Option (Nat × Nat)) (payload : List Byte) (h : Memory.wf s) : Memory.wf (State.lockSend s item payload) := by
  unfold State.lockSend
  repeat' (first | with_reducible assumption | (simp only [↓modLock_wf]) | (with_reducible apply pumpLock_wf) | (with_reducible apply foldl_fst_wf) | (with_reducible apply foldl_wf) | intro _ | (with_reducible apply ite_wf) | split | dsimp only)

theorem located_wf (s : State) (d : Divergence) : Memory.wf (State.located s d) ↔ Memory.wf s :=
  wf_congr fun _ => by apply located_only <;> decide

theorem compareDigests_wf (s : State) (mine : Digest) (peer : Digest) (h : Memory.wf s) : Memory.wf (State.compareDigests s mine peer) := by
  unfold State.compareDigests
  repeat' (first | with_reducible assumption | (simp only [↓modLock_wf, ↓located_wf]) | (with_reducible apply lockSend_wf) | (with_reducible apply foldl_fst_wf) | (with_reducible apply foldl_wf) | intro _ | (with_reducible apply ite_wf) | split | dsimp only)

theorem formDigest_wf (s : State) (f : Frame) (prog : Nat) (outside : Bool) (aborted : Bool) (outs : List Byte) (h : Memory.wf s) : Memory.wf (State.formDigest s f prog outside aborted outs) := by
  unfold State.formDigest
  repeat' (first | with_reducible assumption | (simp only [↓modLock_wf]) | (with_reducible apply lockSend_wf) | (with_reducible apply compareDigests_wf) | (with_reducible apply foldl_fst_wf) | (with_reducible apply foldl_wf) | intro _ | (with_reducible apply ite_wf) | split | dsimp only)

theorem modProg_wf (s : State) (n : FnNo) (pid : Nat) (f : Prog → Prog) : Memory.wf (State.modProg s n pid f) ↔ Memory.wf s :=
  wf_congr fun _ => by apply modProg_only <;> decide

theorem announce_wf (s : State) (n : FnNo) (pid : Nat) : Memory.wf (State.announce s n pid) ↔ Memory.wf s :=
  wf_congr fun _ => by apply announce_only <;> decide

theorem endRun_wf (s : State) (c : Nat) (q : Nat) : Memory.wf (State.endRun s c q) ↔ Memory.wf s :=
  wf_congr fun _ => by apply endRun_only <;> decide

theorem retireFrame_wf (s : State) (c : Nat) (q : Nat) (h : Memory.wf s) : Memory.wf (State.retireFrame s c q) := by
  unfold State.retireFrame
  repeat' (first | with_reducible assumption | (simp only [↓modFrame_wf, ↓delFrame_wf]) | (with_reducible apply releaseFrame_wf) | (with_reducible apply foldl_fst_wf) | (with_reducible apply foldl_wf) | intro _ | (with_reducible apply ite_wf) | split | dsimp only)

theorem writeResult_wf (s : State) (n : FnNo) (p : Prog) (l : Launch) (c : Nat) (q : Nat) (bytes : List Byte) (h : Memory.wf s) : Memory.wf (State.writeResult s n p l c q bytes) := by
  unfold State.writeResult
  repeat' (first | with_reducible assumption | (simp only [↓hostWrite_wf, ↓modProg_wf, ↓count_wf, ↓announce_wf, ↓modChan_wf, ↓endRun_wf]) | (with_reducible apply formDigest_wf) | (with_reducible apply retireFrame_wf) | (with_reducible apply foldl_fst_wf) | (with_reducible apply foldl_wf) | intro _ | (with_reducible apply ite_wf) | split | dsimp only)

theorem flushRing_wf (n : FnNo) (pid : Nat) (a2 : Nat) (s : State) (h : Memory.wf s) : Memory.wf (State.flushRing n pid a2 s) := by
  induction a2 generalizing s with
  | zero => simpa only [State.flushRing] using h
  | succ _ ih =>
    rw [State.flushRing]
    repeat' (first | (with_reducible apply ih) | with_reducible assumption | (simp only [↓modProg_wf]) | (with_reducible apply writeResult_wf) | (with_reducible apply foldl_fst_wf) | (with_reducible apply foldl_wf) | intro _ | (with_reducible apply ite_wf) | split | dsimp only)

theorem pumpRing_wf (s : State) (n : FnNo) (pid : Nat) (h : Memory.wf s) : Memory.wf (State.pumpRing s n pid) := by
  unfold State.pumpRing
  repeat' (first | with_reducible assumption | (with_reducible apply endUnbinds_wf) | (with_reducible apply settlePool_wf) | (with_reducible apply flushRing_wf) | (with_reducible apply foldl_fst_wf) | (with_reducible apply foldl_wf) | intro _ | (with_reducible apply ite_wf) | split | dsimp only)

theorem finishFrame_wf (s : State) (c : Nat) (q : Nat) (aborted : Bool) (outs : List Byte) (h : Memory.wf s) : Memory.wf (State.finishFrame s c q aborted outs) := by
  unfold State.finishFrame
  repeat' (first | with_reducible assumption | (simp only [↓delFrame_wf, ↓endRun_wf, ↓count_wf, ↓modFrame_wf, ↓modProg_wf]) | (with_reducible apply releaseFrame_wf) | (with_reducible apply pumpRing_wf) | (with_reducible apply foldl_fst_wf) | (with_reducible apply foldl_wf) | intro _ | (with_reducible apply ite_wf) | split | dsimp only)

theorem dropRaster_wf (s : State) (c : Nat) (q : Nat) : Memory.wf (State.dropRaster s c q) ↔ Memory.wf s :=
  wf_congr fun _ => by apply dropRaster_only <;> decide

theorem abortFrame_wf (s : State) (c : Nat) (q : Nat) (h : Memory.wf s) : Memory.wf (State.abortFrame s c q) := by
  unfold State.abortFrame
  repeat' (first | with_reducible assumption | (simp only [↓dropRaster_wf]) | (with_reducible apply finishFrame_wf) | (with_reducible apply foldl_fst_wf) | (with_reducible apply foldl_wf) | intro _ | (with_reducible apply ite_wf) | split | dsimp only)

theorem makeReady_wf (s : State) (c : Nat) (q : Nat) (tick : Tick) (h : Memory.wf s) : Memory.wf (State.makeReady s c q tick) := by
  unfold State.makeReady
  repeat' (first | with_reducible assumption | (simp only [↓modFrame_wf]) | (with_reducible apply abortFrame_wf) | (with_reducible apply foldl_fst_wf) | (with_reducible apply foldl_wf) | intro _ | (with_reducible apply ite_wf) | split | dsimp only)

theorem abortAll_wf (s : State) (l : List Frame) (h : Memory.wf s) : Memory.wf (State.abortAll s l) := by
  unfold State.abortAll
  repeat' (first | with_reducible assumption | (with_reducible apply abortFrame_wf) | (with_reducible apply forEach_wf) | (with_reducible apply foldl_fst_wf) | (with_reducible apply foldl_wf) | intro _ | (with_reducible apply ite_wf) | split | dsimp only)

theorem abortWaiting_wf (s : State) (n : FnNo) (h : Memory.wf s) : Memory.wf (State.abortWaiting s n) := by
  unfold State.abortWaiting
  repeat' (first | with_reducible assumption | (simp only [↓modProg_wf, ↓upd_deliveries_wf, ↓upd_frames_wf]) | (with_reducible apply pumpRing_wf) | (with_reducible apply forEach_wf) | (with_reducible apply foldl_fst_wf) | (with_reducible apply foldl_wf) | intro _ | (with_reducible apply ite_wf) | split | dsimp only)

theorem announceAll_wf (s : State) (n : FnNo) : Memory.wf (State.announceAll s n) ↔ Memory.wf s :=
  wf_congr fun _ => by apply announceAll_only <;> decide

theorem takeLogGranules_wf (a0 : Nat) (s : State) (h : Memory.wf s) : Memory.wf (State.takeLogGranules a0 s) := by
  induction a0 generalizing s with
  | zero => simpa only [State.takeLogGranules] using h
  | succ _ ih =>
    rw [State.takeLogGranules]
    repeat' (first | (with_reducible apply ih) | with_reducible assumption | (simp only [↓modLock_wf, ↓upd_geo_wf]) | (with_reducible apply markGranule_wf) | (with_reducible apply foldl_fst_wf) | (with_reducible apply foldl_wf) | intro _ | (with_reducible apply ite_wf) | split | dsimp only)

theorem areaCredit_wf (s : State) : Memory.wf (State.areaCredit s) ↔ Memory.wf s :=
  wf_congr fun _ => by apply areaCredit_only <;> decide

theorem endPair_wf (s : State) (cause : BitVec 8) (tell : Bool) (h : Memory.wf s) : Memory.wf (State.endPair s cause tell) := by
  unfold State.endPair
  repeat' (first | with_reducible assumption | (simp only [↓modLock_wf, ↓areaCredit_wf, ↓occurAll_wf]) | (with_reducible apply releaseParts_wf) | (with_reducible apply lockSend_wf) | (with_reducible apply pumpLock_wf) | (with_reducible apply foldl_fst_wf) | (with_reducible apply foldl_wf) | intro _ | (with_reducible apply ite_wf) | split | dsimp only)

theorem resetShorts_wf (s : State) (n : FnNo) : Memory.wf (State.resetShorts s n) ↔ Memory.wf s :=
  wf_congr fun _ => by apply resetShorts_only <;> decide

theorem endCommands_wf (s : State) (n : FnNo) : Memory.wf (State.endCommands s n) ↔ Memory.wf s :=
  wf_congr fun _ => by apply endCommands_only <;> decide

theorem forgetWork_wf (s : State) (n : FnNo) (h : Memory.wf s) : Memory.wf (State.forgetWork s n) := by
  unfold State.forgetWork
  repeat' (first | with_reducible assumption | (simp only [↓upd_barriers_wf, ↓upd_nv_wf, ↓upd_copies_wf, ↓upd_tableLoads_wf, ↓upd_logReads_wf, ↓upd_scheduled_wf, ↓upd_stores_wf, ↓upd_copies_waits_barriers_scheduled_tableLoads_mprogLoads_stores_logReads_nv_panel_wf, ↓upd_panel_wf, ↓upd_waits_wf, ↓upd_nv_panel_wf, ↓upd_mprogLoads_wf]) | (with_reducible apply foldl_fst_wf) | (with_reducible apply foldl_wf) | intro _ | (with_reducible apply ite_wf) | split | dsimp only)

/-! ### Place -/

theorem abortReady_wf (s : State) (p : Prog) (h : Memory.wf s) : Memory.wf (State.abortReady s p) := by
  unfold State.abortReady
  repeat' (first | with_reducible assumption | (with_reducible apply abortAll_wf) | (with_reducible apply foldl_fst_wf) | (with_reducible apply foldl_wf) | intro _ | (with_reducible apply ite_wf) | split | dsimp only)

theorem reselectProg_wf (s : State) (n : FnNo) (pid : Nat) (h : Memory.wf s) : Memory.wf (State.reselectProg s n pid) := by
  unfold State.reselectProg
  repeat' (first | with_reducible assumption | (simp only [↓modProg_wf, ↓reproBreak_wf]) | (with_reducible apply abortReady_wf) | (with_reducible apply foldl_fst_wf) | (with_reducible apply foldl_wf) | intro _ | (with_reducible apply ite_wf) | split | dsimp only)

theorem reselect_wf (s : State) (n : FnNo) (h : Memory.wf s) : Memory.wf (State.reselect s n) := by
  unfold State.reselect
  repeat' (first | with_reducible assumption | (with_reducible apply reselectProg_wf) | (with_reducible apply forEach_wf) | (with_reducible apply foldl_fst_wf) | (with_reducible apply foldl_wf) | intro _ | (with_reducible apply ite_wf) | split | dsimp only)

theorem reselectAll_wf (s : State) (h : Memory.wf s) : Memory.wf (State.reselectAll s) := by
  unfold State.reselectAll
  repeat' (first | with_reducible assumption | (with_reducible apply reselect_wf) | (with_reducible apply forEach_wf) | (with_reducible apply foldl_fst_wf) | (with_reducible apply foldl_wf) | intro _ | (with_reducible apply ite_wf) | split | dsimp only)

theorem clustersChanged_wf (s : State) (n : FnNo) (h : Memory.wf s) : Memory.wf (State.clustersChanged s n) := by
  unfold State.clustersChanged
  repeat' (first | with_reducible assumption | (simp only [↓reproBreak_wf]) | (with_reducible apply reselect_wf) | (with_reducible apply foldl_fst_wf) | (with_reducible apply foldl_wf) | intro _ | (with_reducible apply ite_wf) | split | dsimp only)

theorem endLaunch_wf (s : State) (n : FnNo) (pid : Nat) : Memory.wf (State.endLaunch s n pid) ↔ Memory.wf s :=
  wf_congr fun _ => by apply endLaunch_only <;> decide

/-! ### Device -/

theorem capChanged_wf (s : State) : Memory.wf (State.capChanged s) ↔ Memory.wf s :=
  wf_congr fun _ => by apply capChanged_only <;> decide

theorem capNoticeNow_wf (s : State) : Memory.wf (State.capNoticeNow s) ↔ Memory.wf s :=
  wf_congr fun _ => by apply capNoticeNow_only <;> decide

theorem endCapLapses_wf (s : State) : Memory.wf (State.endCapLapses s) ↔ Memory.wf s :=
  wf_congr fun _ => by apply endCapLapses_only <;> decide

theorem releaseThrottle_wf (s : State) : Memory.wf (State.releaseThrottle s) ↔ Memory.wf s :=
  wf_congr fun _ => by apply releaseThrottle_only <;> decide

theorem settlePlan_wf (s : State) (capCaused : Bool) : Memory.wf (State.settlePlan s capCaused) ↔ Memory.wf s :=
  wf_congr fun _ => by apply settlePlan_only <;> decide

theorem planCommandDone_wf (s : State) : Memory.wf (State.planCommandDone s) ↔ Memory.wf s :=
  wf_congr fun _ => by apply planCommandDone_only <;> decide

theorem planCommands_wf (s : State) : Memory.wf (State.planCommands s) ↔ Memory.wf s :=
  wf_congr fun _ => by apply planCommands_only <;> decide

theorem endInstall_wf (s : State) (h : Memory.wf s) : Memory.wf (endInstall s) := by
  unfold endInstall
  repeat' (first | with_reducible assumption | (simp only [↓planCommandDone_wf, ↓planCommands_wf, ↓settlePlan_wf, ↓upd_plans_wf]) | (with_reducible apply reselectAll_wf) | (with_reducible apply foldl_fst_wf) | (with_reducible apply foldl_wf) | intro _ | (with_reducible apply ite_wf) | split | dsimp only)

theorem setPowerCap_wf (cap : Nat) (s : State) (h : Memory.wf s) : Memory.wf (setPowerCap cap s).1 := by
  unfold setPowerCap
  repeat' (first | with_reducible assumption | (simp only [↓breakAll_wf, ↓callPlan_wf, ↓upd_plans_wf]) | (with_reducible apply endInstall_wf) | (with_reducible apply foldl_fst_wf) | (with_reducible apply foldl_wf) | intro _ | (with_reducible apply ite_wf) | split | dsimp only)

theorem execDevIdentify_wf {t : State} {fn : FnNo} {qp : QpNo} {pkt : Packet} {s : State}
    (e : execDevIdentify fn qp pkt s = .next t) (h : Memory.wf s) : Memory.wf t :=
  (wf_congr fun _ => by apply execDevIdentify_only e <;> decide).2 h

theorem execDevStatus_wf {t : State} {fn : FnNo} {qp : QpNo} {pkt : Packet} {s : State}
    (e : execDevStatus fn qp pkt s = .next t) (h : Memory.wf s) : Memory.wf t :=
  (wf_congr fun _ => by apply execDevStatus_only e <;> decide).2 h

theorem execPlanInstallComplete_wf {t : State} {s : State}
    (e : execPlanInstallComplete s = .next t) (h : Memory.wf s) : Memory.wf t := by
  injection e with e; subst e
  repeat' (first | with_reducible assumption | (with_reducible apply endInstall_wf) | (with_reducible apply foldl_fst_wf) | (with_reducible apply foldl_wf) | intro _ | (with_reducible apply ite_wf) | split | dsimp only)

theorem execDevSetPowerCap_wf {t : State} {fn : FnNo} {qp : QpNo} {pkt : Packet} {s : State}
    (e : execDevSetPowerCap fn qp pkt s = .next t) (h : Memory.wf s) : Memory.wf t := by
  injection e with e; subst e
  repeat' (first | with_reducible assumption | (simp only [↓shortCommand_wf]) | (with_reducible apply setPowerCap_wf) | (with_reducible apply foldl_fst_wf) | (with_reducible apply foldl_wf) | (with_reducible apply shortCommand_wf) | intro _ | (with_reducible apply ite_wf) | split | dsimp only)

theorem execDevSetClockPlan_wf {t : State} {fn : FnNo} {qp : QpNo} {pkt : Packet} {s : State}
    (e : execDevSetClockPlan fn qp pkt s = .next t) (h : Memory.wf s) : Memory.wf t :=
  (wf_congr fun _ => by apply execDevSetClockPlan_only e <;> decide).2 h

/-! ### Copy -/

theorem acceptCopy_wf (kind : CopyKind) (n : FnNo) (p : Packet) (id : Nat) (s : State) : Memory.wf (acceptCopy kind n p id s) ↔ Memory.wf s :=
  wf_congr fun _ => by apply acceptCopy_only <;> decide

theorem startCopyJob_wf (e : EngNo) (n : FnNo) (s : State) : Memory.wf (startCopyJob e n s) ↔ Memory.wf s :=
  wf_congr fun _ => by apply startCopyJob_only <;> decide

theorem writeElements_wf (s : State) (j : CopyJob) (ws : List (Nat × List Byte)) (h : Memory.wf s) : Memory.wf (State.writeElements s j ws).1 := by
  unfold State.writeElements
  repeat' (first | with_reducible assumption | (simp only [↓bulkWrite_wf]) | (with_reducible apply makeGood_wf) | (with_reducible apply viewWriteGo_wf) | (with_reducible apply forEach_wf) | (with_reducible apply foldl_fst_wf) | (with_reducible apply foldl_wf) | intro _ | (with_reducible apply ite_wf) | split | dsimp only)

theorem copyDone_wf (s : State) (j : CopyJob) (ws : List (Nat × List Byte)) (bytes : Nat) (f : Option CopyFail) : Memory.wf (State.copyDone s j ws bytes f) ↔ Memory.wf s :=
  wf_congr fun _ => by apply copyDone_only <;> decide

theorem copyStops_wf (s : State) (j : CopyJob) (ws : List (Nat × List Byte)) (f : CopyFail) (h : Memory.wf s) : Memory.wf (State.copyStops s j ws f) := by
  unfold State.copyStops
  repeat' (first | with_reducible assumption | (simp only [↓draw_wf, ↓copyDone_wf]) | (with_reducible apply writeElements_wf) | (with_reducible apply foldl_fst_wf) | (with_reducible apply foldl_wf) | intro _ | (with_reducible apply ite_wf) | split | dsimp only)

theorem cutJob_wf (s : State) (j : CopyJob) (unit : W16) (h : Memory.wf s) : Memory.wf (State.cutJob s j unit) := by
  unfold State.cutJob
  repeat' (first | with_reducible assumption | (with_reducible apply copyStops_wf) | (with_reducible apply foldl_fst_wf) | (with_reducible apply foldl_wf) | intro _ | (with_reducible apply ite_wf) | split | dsimp only)

theorem finishCopy_wf (e : EngNo) (n : FnNo) (host : List Byte) (fail : Option W64) (s : State) (h : Memory.wf s) : Memory.wf (finishCopy e n host fail s) := by
  unfold finishCopy
  repeat' (first | with_reducible assumption | (simp only [↓copyDone_wf]) | (with_reducible apply copyStops_wf) | (with_reducible apply writeElements_wf) | (with_reducible apply foldl_fst_wf) | (with_reducible apply foldl_wf) | intro _ | (with_reducible apply ite_wf) | split | dsimp only)

theorem endJobsOn_wf (s : State) (e : EngNo) (unit : W16) (h : Memory.wf s) : Memory.wf (State.endJobsOn s e unit).1 := by
  unfold State.endJobsOn
  repeat' (first | with_reducible assumption | (with_reducible apply cutJob_wf) | (with_reducible apply forEach_wf) | (with_reducible apply foldl_fst_wf) | (with_reducible apply foldl_wf) | intro _ | (with_reducible apply ite_wf) | split | dsimp only)

theorem execCopyJobStart_wf {t : State} {engine : EngNo} {stratum : FnNo} {s : State}
    (e : execCopyJobStart engine stratum s = .next t) (h : Memory.wf s) : Memory.wf t :=
  (wf_congr fun _ => by apply execCopyJobStart_only e <;> decide).2 h

theorem execCopy_wf {t : State} {fn : FnNo} {qp : QpNo} {pkt : Packet} {s : State}
    (e : execCopy fn qp pkt s = .next t) (h : Memory.wf s) : Memory.wf t :=
  (wf_congr fun _ => by apply execCopy_only e <;> decide).2 h

theorem execCopyFill_wf {t : State} {fn : FnNo} {qp : QpNo} {pkt : Packet} {s : State}
    (e : execCopyFill fn qp pkt s = .next t) (h : Memory.wf s) : Memory.wf t :=
  (wf_congr fun _ => by apply execCopyFill_only e <;> decide).2 h

theorem execCopyChecksum_wf {t : State} {fn : FnNo} {qp : QpNo} {pkt : Packet} {s : State}
    (e : execCopyChecksum fn qp pkt s = .next t) (h : Memory.wf s) : Memory.wf t :=
  (wf_congr fun _ => by apply execCopyChecksum_only e <;> decide).2 h

/-! ### Narrow -/

theorem sendFirst_wf (s : State) (x : Chan) (i : QItem) (h : Memory.wf s) : Memory.wf (State.sendFirst s x i) := by
  unfold State.sendFirst
  repeat' (first | with_reducible assumption | (simp only [↓modChan_wf, ↓sendMark_wf, ↓sendFrame_wf]) | (with_reducible apply releaseFrame_wf) | (with_reducible apply foldl_fst_wf) | (with_reducible apply foldl_wf) | intro _ | (with_reducible apply ite_wf) | split | dsimp only)

theorem pumpChan_wf (c : Nat) (a1 : Nat) (s : State) (h : Memory.wf s) : Memory.wf (State.pumpChan c a1 s) := by
  induction a1 generalizing s with
  | zero => simpa only [State.pumpChan] using h
  | succ _ ih =>
    rw [State.pumpChan]
    repeat' (first | (with_reducible apply ih) | with_reducible assumption | (with_reducible apply sendFirst_wf) | (with_reducible apply foldl_fst_wf) | (with_reducible apply foldl_wf) | intro _ | (with_reducible apply ite_wf) | split | dsimp only)

theorem pumpChans_wf (s : State) (p : Option PortNo) (h : Memory.wf s) : Memory.wf (State.pumpChans s p) := by
  unfold State.pumpChans
  repeat' (first | with_reducible assumption | (with_reducible apply settlePool_wf) | (with_reducible apply pumpChan_wf) | (with_reducible apply forEach_wf) | (with_reducible apply foldl_fst_wf) | (with_reducible apply foldl_wf) | intro _ | (with_reducible apply ite_wf) | split | dsimp only)

theorem sendMessage_wf (s : State) (c : Nat) (kind : BitVec 8) (msgSeq : W32) (bytes : List Byte) (first : Bool) (h : Memory.wf s) : Memory.wf (State.sendMessage s c kind msgSeq bytes first) := by
  unfold State.sendMessage
  repeat' (first | with_reducible assumption | (simp only [↓modChan_wf]) | (with_reducible apply pumpChan_wf) | (with_reducible apply foldl_fst_wf) | (with_reducible apply foldl_wf) | intro _ | (with_reducible apply ite_wf) | split | dsimp only)

theorem sendAnswer_wf (s : State) (c : Nat) (kind : Nat) (msgSeq : W32) (h : Memory.wf s) : Memory.wf (State.sendAnswer s c kind msgSeq) := by
  unfold State.sendAnswer
  repeat' (first | with_reducible assumption | (with_reducible apply sendMessage_wf) | (with_reducible apply foldl_fst_wf) | (with_reducible apply foldl_wf) | intro _ | (with_reducible apply ite_wf) | split | dsimp only)

theorem sendDropped_wf (s : State) (x : Chan) (cause : Nat) (srcSeq : W64) : Memory.wf (State.sendDropped s x cause srcSeq) ↔ Memory.wf s :=
  wf_congr fun _ => by apply sendDropped_only <;> decide

theorem finishRun_wf (s : State) (c : Nat) (q : Nat) (h : Memory.wf s) : Memory.wf (State.finishRun s c q) := by
  unfold State.finishRun
  repeat' (first | with_reducible assumption | (with_reducible apply finishFrame_wf) | (with_reducible apply foldl_fst_wf) | (with_reducible apply foldl_wf) | intro _ | (with_reducible apply ite_wf) | split | dsimp only)

theorem takeCopy_wf (s : State) (x : Chan) (n : Nat) (msgSeq : Nat) (h : Memory.wf s) : Memory.wf (State.takeCopy s x n msgSeq) := by
  unfold State.takeCopy
  repeat' (first | with_reducible assumption | (with_reducible apply modBufs_wf) | (with_reducible apply foldl_fst_wf) | (with_reducible apply foldl_wf) | intro _ | (with_reducible apply ite_wf) | split | dsimp only)

theorem dropOffer_wf (s : State) (c : Nat) (f : Offer) : Memory.wf (State.dropOffer s c f) ↔ Memory.wf s :=
  wf_congr fun _ => by apply dropOffer_only <;> decide

theorem startSend_wf (s : State) (c : Nat) (h : Memory.wf s) : Memory.wf (State.startSend s c) := by
  unfold State.startSend
  repeat' (first | with_reducible assumption | (simp only [↓dropOffer_wf, ↓modChan_wf]) | (with_reducible apply finishRun_wf) | (with_reducible apply takeCopy_wf) | (with_reducible apply sendMessage_wf) | (with_reducible apply scratchWrite_wf) | (with_reducible apply scratchClear_wf) | (with_reducible apply foldl_fst_wf) | (with_reducible apply foldl_wf) | intro _ | (with_reducible apply ite_wf) | split | dsimp only)

theorem offerTensor_wf (s : State) (r : Run) (input : Nat) (window : Nat) (h : Memory.wf s) : Memory.wf (State.offerTensor s r input window) := by
  unfold State.offerTensor
  repeat' (first | with_reducible assumption | (simp only [↓sendDropped_wf, ↓modChan_wf]) | (with_reducible apply finishRun_wf) | (with_reducible apply startSend_wf) | (with_reducible apply scratchWrite_wf) | (with_reducible apply scratchClear_wf) | (with_reducible apply foldl_fst_wf) | (with_reducible apply foldl_wf) | intro _ | (with_reducible apply ite_wf) | split | dsimp only)

theorem dropPortMessages_wf (s : State) (p : PortNo) (h : Memory.wf s) : Memory.wf (State.dropPortMessages s p) := by
  unfold State.dropPortMessages
  repeat' (first | with_reducible assumption | (simp only [↓modChan_wf, ↓sendDropped_wf]) | (with_reducible apply releaseFrame_wf) | (with_reducible apply finishRun_wf) | (with_reducible apply abortAll_wf) | (with_reducible apply forEach_wf) | (with_reducible apply foldl_fst_wf) | (with_reducible apply foldl_wf) | intro _ | (with_reducible apply ite_wf) | split | dsimp only)

theorem releaseCopy_wf (s : State) (c : Nat) (m : W32) (h : Memory.wf s) : Memory.wf (State.releaseCopy s c m) := by
  unfold State.releaseCopy
  repeat' (first | with_reducible assumption | (simp only [↓modChan_wf]) | (with_reducible apply settlePool_wf) | (with_reducible apply releaseFrame_wf) | (with_reducible apply foldl_fst_wf) | (with_reducible apply foldl_wf) | intro _ | (with_reducible apply ite_wf) | split | dsimp only)

theorem copyTimeout_wf (c : Nat) (m : W32) (s : State) (h : Memory.wf s) : Memory.wf (copyTimeout c m s) := by
  unfold copyTimeout
  repeat' (first | with_reducible assumption | (simp only [↓reach_wf]) | (with_reducible apply releaseCopy_wf) | (with_reducible apply foldl_fst_wf) | (with_reducible apply foldl_wf) | intro _ | (with_reducible apply ite_wf) | split | dsimp only)

theorem takeAnswer_wf {s t : State} {c : Nat} {kind : BitVec 8} {x : Chan} {a : Answer}
    (e : s.takeAnswer c kind = some (x, a, t)) (h : Memory.wf s) : Memory.wf t :=
  (wf_congr fun _ => takeAnswer_only e (by decide)).2 h

theorem onAnswer_wf {c : Nat} {kind : BitVec 8} {f : Chan → Answer → State → State} {s : State}
    (hf : ∀ x a t, Memory.wf t → Memory.wf (f x a t)) (h : Memory.wf s) : Memory.wf (onAnswer c kind f s) := by
  unfold onAnswer
  split
  · exact h
  · rename_i e
    exact settlePool_wf _ (hf _ _ _ (releaseFrame_wf _ _ _ _ (takeAnswer_wf e h)))

theorem wideReq_wf (c : Nat) (x : Chan) (a : Answer) (s : State) (h : Memory.wf s) : Memory.wf (wideReq c x a s) := by
  unfold wideReq
  repeat' (first | with_reducible assumption | (simp only [↓modChan_wf]) | (with_reducible apply sendAnswer_wf) | (with_reducible apply sendMessage_wf) | (with_reducible apply foldl_fst_wf) | (with_reducible apply foldl_wf) | intro _ | (with_reducible apply ite_wf) | split | dsimp only)

theorem wideMessage_wf (c : Nat) (s : State) (h : Memory.wf s) : Memory.wf (wideMessage c s) := by
  unfold wideMessage
  split
  · exact h
  · rename_i e
    have g := takeAnswer_wf e h
    split
    · exact settlePool_wf _ ((countDrop_wf _ _).2 (releaseFrame_wf _ _ _ _ g))
    · dsimp only
      refine makeReady_wf _ _ _ _ ?_
      simp only [↓modFrame_wf, ↓modChan_wf]
      exact modBufs_wf _ _ g

theorem unavailable_wf (c : Nat) (x : Chan) (a : Answer) (s : State) (h : Memory.wf s) : Memory.wf (unavailable c x a s) := by
  unfold unavailable
  repeat' (first | with_reducible assumption | (simp only [↓occur_wf]) | (with_reducible apply abortFrame_wf) | (with_reducible apply foldl_fst_wf) | (with_reducible apply foldl_wf) | intro _ | (with_reducible apply ite_wf) | split | dsimp only)

theorem execSendStart_wf {t : State} {channel : Nat} {s : State}
    (e : execSendStart channel s = .next t) (h : Memory.wf s) : Memory.wf t := by
  injection e with e; subst e
  repeat' (first | with_reducible assumption | (with_reducible apply startSend_wf) | (with_reducible apply foldl_fst_wf) | (with_reducible apply foldl_wf) | intro _ | (with_reducible apply ite_wf) | split | dsimp only)

theorem execWideCopyTimeout_wf {t : State} {channel : Nat} {msgSeq : W32} {s : State}
    (e : execWideCopyTimeout channel msgSeq s = .next t) (h : Memory.wf s) : Memory.wf t := by
  injection e with e; subst e
  repeat' (first | with_reducible assumption | (with_reducible apply copyTimeout_wf) | (with_reducible apply foldl_fst_wf) | (with_reducible apply foldl_wf) | intro _ | (with_reducible apply ite_wf) | split | dsimp only)

theorem execAcceptAnswer_wf {t : State} {channel : Nat} {s : State}
    (e : execAcceptAnswer channel s = .next t) (h : Memory.wf s) : Memory.wf t := by
  injection e with e; subst e
  repeat' (first | with_reducible assumption | (with_reducible apply onAnswer_wf) | (with_reducible apply releaseCopy_wf) | (with_reducible apply foldl_fst_wf) | (with_reducible apply foldl_wf) | (with_reducible apply onAnswer_wf) | intro _ | (with_reducible apply ite_wf) | split | dsimp only)

theorem execWideReq_wf {t : State} {channel : Nat} {s : State}
    (e : execWideReq channel s = .next t) (h : Memory.wf s) : Memory.wf t := by
  injection e with e; subst e
  repeat' (first | with_reducible assumption | (with_reducible apply onAnswer_wf) | (with_reducible apply wideReq_wf) | (with_reducible apply foldl_fst_wf) | (with_reducible apply foldl_wf) | (with_reducible apply onAnswer_wf) | intro _ | (with_reducible apply ite_wf) | split | dsimp only)

theorem execWideMessage_wf {t : State} {channel : Nat} {s : State}
    (e : execWideMessage channel s = .next t) (h : Memory.wf s) : Memory.wf t := by
  injection e with e; subst e
  repeat' (first | with_reducible assumption | (with_reducible apply wideMessage_wf) | (with_reducible apply foldl_fst_wf) | (with_reducible apply foldl_wf) | intro _ | (with_reducible apply ite_wf) | split | dsimp only)

theorem execUnavailable_wf {t : State} {channel : Nat} {s : State}
    (e : execUnavailable channel s = .next t) (h : Memory.wf s) : Memory.wf t := by
  injection e with e; subst e
  repeat' (first | with_reducible assumption | (with_reducible apply onAnswer_wf) | (with_reducible apply unavailable_wf) | (with_reducible apply foldl_fst_wf) | (with_reducible apply foldl_wf) | (with_reducible apply onAnswer_wf) | intro _ | (with_reducible apply ite_wf) | split | dsimp only)

/-! ### Ports -/

theorem sendTs_wf (s : State) (l : LaneNo) (stage : Nat) (reason : Nat) (count : Nat) : Memory.wf (State.sendTs s l stage reason count) ↔ Memory.wf s :=
  wf_congr fun _ => by apply sendTs_only <;> decide

theorem showTs_wf (s : State) (l : LaneNo) : Memory.wf (State.showTs s l) ↔ Memory.wf s :=
  wf_congr fun _ => by apply showTs_only <;> decide

theorem showAll_wf (s : State) (ls : List LaneNo) : Memory.wf (State.showAll s ls) ↔ Memory.wf s :=
  wf_congr fun _ => by apply showAll_only <;> decide

theorem fenceLane_wf (s : State) (l : LaneNo) (cause : BitVec 8) : Memory.wf (State.fenceLane s l cause).1 ↔ Memory.wf s :=
  wf_congr fun _ => by apply fenceLane_only <;> decide

theorem fenceLanes_wf (s : State) (ls : List LaneNo) : Memory.wf (State.fenceLanes s ls) ↔ Memory.wf s :=
  wf_congr fun _ => by apply fenceLanes_only <;> decide

theorem portCommandEnds_wf (s : State) (p : PortNo) (id : Nat) (status : W16) (a4 : W64) : Memory.wf (State.portCommandEnds s p id status a4) ↔ Memory.wf s :=
  wf_congr fun _ => by apply portCommandEnds_only <;> decide

theorem syncLost_wf (s : State) (p : PortNo) (cause : BitVec 8) : Memory.wf (State.syncLost s p cause) ↔ Memory.wf s :=
  wf_congr fun _ => by apply syncLost_only <;> decide

theorem endLaneFence_wf (s : State) (id : Nat) (l : LaneNo) : Memory.wf (State.endLaneFence s id l) ↔ Memory.wf s :=
  wf_congr fun _ => by apply endLaneFence_only <;> decide

theorem dropWidthChange_wf (s : State) (p : PortNo) : Memory.wf (State.dropWidthChange s p) ↔ Memory.wf s :=
  wf_congr fun _ => by apply dropWidthChange_only <;> decide

theorem leaveActive_wf (s : State) (p : PortNo) (h : Memory.wf s) : Memory.wf (State.leaveActive s p) := by
  unfold State.leaveActive
  repeat' (first | with_reducible assumption | (simp only [↓syncLost_wf, ↓dropWidthChange_wf, ↓modLock_wf, ↓portCommandEnds_wf]) | (with_reducible apply endPair_wf) | (with_reducible apply foldl_fst_wf) | (with_reducible apply foldl_wf) | intro _ | (with_reducible apply ite_wf) | split | dsimp only)

theorem dropPortFrames_wf (s : State) (p : PortNo) (h : Memory.wf s) : Memory.wf (State.dropPortFrames s p) := by
  unfold State.dropPortFrames
  repeat' (first | with_reducible assumption | (simp only [↓modChan_wf]) | (with_reducible apply dropOpen_wf) | (with_reducible apply forEach_wf) | (with_reducible apply foldl_fst_wf) | (with_reducible apply foldl_wf) | intro _ | (with_reducible apply ite_wf) | split | dsimp only)

theorem toDisabled_wf (s : State) (p : PortNo) (reason : BitVec 8) (h : Memory.wf s) : Memory.wf (State.toDisabled s p reason) := by
  unfold State.toDisabled
  repeat' (first | with_reducible assumption | (simp only [↓modPort_wf, ↓modLane_wf, ↓notePort_wf, ↓portLapseEnds_wf, ↓complete_wf]) | (with_reducible apply leaveActive_wf) | (with_reducible apply dropPortFrames_wf) | (with_reducible apply dropPortMessages_wf) | (with_reducible apply settlePool_wf) | (with_reducible apply reclaimAll_wf) | (with_reducible apply forEach_wf) | (with_reducible apply foldl_fst_wf) | (with_reducible apply foldl_wf) | intro _ | (with_reducible apply ite_wf) | split | dsimp only)

theorem disableByHost_wf (s : State) (p : PortNo) (h : Memory.wf s) : Memory.wf (State.disableByHost s p) := by
  unfold State.disableByHost
  repeat' (first | with_reducible assumption | (simp only [↓sendTs_wf]) | (with_reducible apply toDisabled_wf) | (with_reducible apply forEach_wf) | (with_reducible apply foldl_fst_wf) | (with_reducible apply foldl_wf) | intro _ | (with_reducible apply ite_wf) | split | dsimp only)

theorem replicate_wf (s : State) (p : PortNo) (w : W64) (count : Nat) : Memory.wf (State.replicate s p w count) ↔ Memory.wf s :=
  wf_congr fun _ => by apply replicate_only <;> decide

theorem beginExchange_wf (s : State) (p : PortNo) : Memory.wf (State.beginExchange s p) ↔ Memory.wf s :=
  wf_congr fun _ => by apply beginExchange_only <;> decide

theorem freshLink_wf (s : State) (p : PortNo) : Memory.wf (State.freshLink s p) ↔ Memory.wf s :=
  wf_congr fun _ => by apply freshLink_only <;> decide

theorem creditLock_wf (s : State) (p : PortNo) : Memory.wf (State.creditLock s p) ↔ Memory.wf s :=
  wf_congr fun _ => by apply creditLock_only <;> decide

theorem frontEndSync_wf (s : State) (p : PortNo) : Memory.wf (State.frontEndSync s p) ↔ Memory.wf s :=
  wf_congr fun _ => by apply frontEndSync_only <;> decide

theorem enterActive_wf (s : State) (p : PortNo) (h : Memory.wf s) : Memory.wf (State.enterActive s p) := by
  unfold State.enterActive
  repeat' (first | with_reducible assumption | (simp only [↓modPort_wf, ↓portLapseEnds_wf, ↓frontEndSync_wf, ↓creditLock_wf, ↓freshLink_wf, ↓notePort_wf, ↓complete_wf, ↓replayFrom_wf]) | (with_reducible apply pumpLock_wf) | (with_reducible apply pumpChans_wf) | (with_reducible apply foldl_fst_wf) | (with_reducible apply foldl_wf) | intro _ | (with_reducible apply ite_wf) | split | dsimp only)

theorem endExchange_wf (s : State) (p : PortNo) (h : Memory.wf s) : Memory.wf (State.endExchange s p) := by
  unfold State.endExchange
  repeat' (first | with_reducible assumption | (with_reducible apply enterActive_wf) | (with_reducible apply foldl_fst_wf) | (with_reducible apply foldl_wf) | intro _ | (with_reducible apply ite_wf) | split | dsimp only)

theorem judgeRecord_wf (s : State) (p : PortNo) (r : List Byte) (h : Memory.wf s) : Memory.wf (State.judgeRecord s p r) := by
  unfold State.judgeRecord
  repeat' (first | with_reducible assumption | (simp only [↓replicate_wf, ↓modPort_wf]) | (with_reducible apply endExchange_wf) | (with_reducible apply toDisabled_wf) | (with_reducible apply foldl_fst_wf) | (with_reducible apply foldl_wf) | intro _ | (with_reducible apply ite_wf) | split | dsimp only)

theorem startTimer_wf (s : State) (p : PortNo) (ms : Nat) : Memory.wf (State.startTimer s p ms) ↔ Memory.wf s :=
  wf_congr fun _ => by apply startTimer_only <;> decide

theorem enterEqualize_wf (s : State) (p : PortNo) : Memory.wf (State.enterEqualize s p) ↔ Memory.wf s :=
  wf_congr fun _ => by apply enterEqualize_only <;> decide

theorem checkDetect_wf (s : State) (p : PortNo) : Memory.wf (State.checkDetect s p) ↔ Memory.wf s :=
  wf_congr fun _ => by apply checkDetect_only <;> decide

theorem enterAlign_wf (s : State) (p : PortNo) : Memory.wf (State.enterAlign s p) ↔ Memory.wf s :=
  wf_congr fun _ => by apply enterAlign_only <;> decide

theorem checkEqualize_wf (s : State) (p : PortNo) : Memory.wf (State.checkEqualize s p) ↔ Memory.wf s :=
  wf_congr fun _ => by apply checkEqualize_only <;> decide

theorem enterNegotiate_wf (s : State) (p : PortNo) (set : BitVec 4) : Memory.wf (State.enterNegotiate s p set) ↔ Memory.wf s :=
  wf_congr fun _ => by apply enterNegotiate_only <;> decide

theorem retrainAligned_wf (s : State) (p : PortNo) (set : BitVec 4) : Memory.wf (State.retrainAligned s p set) ↔ Memory.wf s :=
  wf_congr fun _ => by apply retrainAligned_only <;> decide

theorem chooseSet_wf (s : State) (p : PortNo) (seq : W16) : Memory.wf (State.chooseSet s p seq) ↔ Memory.wf s :=
  wf_congr fun _ => by apply chooseSet_only <;> decide

theorem checkAlign_wf (s : State) (p : PortNo) : Memory.wf (State.checkAlign s p) ↔ Memory.wf s :=
  wf_congr fun _ => by apply checkAlign_only <;> decide

theorem enterRetrain_wf (s : State) (p : PortNo) (h : Memory.wf s) : Memory.wf (State.enterRetrain s p) := by
  unfold State.enterRetrain
  repeat' (first | with_reducible assumption | (simp only [↓startTimer_wf, ↓modPort_wf, ↓modLane_wf, ↓portLapse_wf, ↓notePort_wf, ↓showAll_wf]) | (with_reducible apply leaveActive_wf) | (with_reducible apply forEach_wf) | (with_reducible apply foldl_fst_wf) | (with_reducible apply foldl_wf) | intro _ | (with_reducible apply ite_wf) | split | dsimp only)

theorem checkRetrain_wf (s : State) (p : PortNo) : Memory.wf (State.checkRetrain s p) ↔ Memory.wf s :=
  wf_congr fun _ => by apply checkRetrain_only <;> decide

theorem sendReq_wf (s : State) (p : PortNo) (w : WidthChange) : Memory.wf (State.sendReq s p w) ↔ Memory.wf s :=
  wf_congr fun _ => by apply sendReq_only <;> decide

theorem beginChange_wf (s : State) (p : PortNo) (cause : WcCause) (mask : BitVec 4) (width : Nat) : Memory.wf (State.beginChange s p cause mask width) ↔ Memory.wf s :=
  wf_congr fun _ => by apply beginChange_only <;> decide

theorem beginSetWidth_wf (s : State) (p : PortNo) (id : Nat) (width : Nat) : Memory.wf (State.beginSetWidth s p id width) ↔ Memory.wf s :=
  wf_congr fun _ => by apply beginSetWidth_only <;> decide

theorem nextWidth_wf (s : State) (p : PortNo) : Memory.wf (State.nextWidth s p) ↔ Memory.wf s :=
  wf_congr fun _ => by apply nextWidth_only <;> decide

theorem switchLanes_wf (s : State) (p : PortNo) (mask : BitVec 4) : Memory.wf (State.switchLanes s p mask) ↔ Memory.wf s :=
  wf_congr fun _ => by apply switchLanes_only <;> decide

theorem changeDone_wf (s : State) (p : PortNo) (w : WidthChange) : Memory.wf (State.changeDone s p w) ↔ Memory.wf s :=
  wf_congr fun _ => by apply changeDone_only <;> decide

theorem changeFailed_wf (s : State) (p : PortNo) (w : WidthChange) (h : Memory.wf s) : Memory.wf (State.changeFailed s p w) := by
  unfold State.changeFailed
  repeat' (first | with_reducible assumption | (simp only [↓nextWidth_wf, ↓complete_wf, ↓portLapseEnds_wf, ↓modPort_wf]) | (with_reducible apply enterRetrain_wf) | (with_reducible apply foldl_fst_wf) | (with_reducible apply foldl_wf) | intro _ | (with_reducible apply ite_wf) | split | dsimp only)

theorem narrow_wf (s : State) (p : PortNo) : Memory.wf (State.narrow s p) ↔ Memory.wf s :=
  wf_congr fun _ => by apply narrow_only <;> decide

theorem laneFailBy_wf (s : State) (l : LaneNo) (cause : BitVec 8) (h : Memory.wf s) : Memory.wf (State.laneFailBy s l cause) := by
  unfold State.laneFailBy
  repeat' (first | with_reducible assumption | (simp only [↓fenceLane_wf, ↓unitFailed_wf, ↓modPort_wf, ↓narrow_wf]) | (with_reducible apply enterRetrain_wf) | (with_reducible apply foldl_fst_wf) | (with_reducible apply foldl_wf) | intro _ | (with_reducible apply ite_wf) | split | dsimp only)

theorem laneFail_wf (s : State) (l : LaneNo) (h : Memory.wf s) : Memory.wf (State.laneFail s l) := by
  unfold State.laneFail
  repeat' (first | with_reducible assumption | (with_reducible apply laneFailBy_wf) | (with_reducible apply foldl_fst_wf) | (with_reducible apply foldl_wf) | intro _ | (with_reducible apply ite_wf) | split | dsimp only)

theorem blockError_wf (s : State) (l : LaneNo) (h : Memory.wf s) : Memory.wf (State.blockError s l) := by
  unfold State.blockError
  repeat' (first | with_reducible assumption | (simp only [↓modLane_wf]) | (with_reducible apply laneFail_wf) | (with_reducible apply foldl_fst_wf) | (with_reducible apply foldl_wf) | intro _ | (with_reducible apply ite_wf) | split | dsimp only)

theorem otherBlock_wf (s : State) (l : LaneNo) (w : W64) (h : Memory.wf s) : Memory.wf (State.otherBlock s l w) := by
  unfold State.otherBlock
  repeat' (first | with_reducible assumption | (with_reducible apply blockError_wf) | (with_reducible apply foldl_fst_wf) | (with_reducible apply foldl_wf) | intro _ | (with_reducible apply ite_wf) | split | dsimp only)

theorem beginTrain_wf (s : State) (p : PortNo) (role : BitVec 8) (maxWidth : Nat) (ms : Nat) (id : Nat) (h : Memory.wf s) : Memory.wf (State.beginTrain s p role maxWidth ms id) := by
  unfold State.beginTrain
  repeat' (first | with_reducible assumption | (simp only [↓modLane_wf, ↓modPort_wf, ↓startTimer_wf, ↓notePort_wf, ↓showAll_wf, ↓upd_units_wf]) | (with_reducible apply toDisabled_wf) | (with_reducible apply forEach_wf) | (with_reducible apply foldl_fst_wf) | (with_reducible apply foldl_wf) | intro _ | (with_reducible apply ite_wf) | split | dsimp only)

theorem trainWork_wf (p : Packet) (id : Nat) (s : State) (h : Memory.wf s) : Memory.wf (trainWork p id s) := by
  unfold trainWork
  repeat' (first | with_reducible assumption | (simp only [↓modPort_wf, ↓completeOk_wf]) | (with_reducible apply beginTrain_wf) | (with_reducible apply enterRetrain_wf) | (with_reducible apply disableByHost_wf) | (with_reducible apply foldl_fst_wf) | (with_reducible apply foldl_wf) | intro _ | (with_reducible apply ite_wf) | split | dsimp only)

theorem setWidth_wf (p : Packet) (id : Nat) (s : State) : Memory.wf (setWidth p id s) ↔ Memory.wf s :=
  wf_congr fun _ => by apply setWidth_only <;> decide

theorem lockLane_wf (l : LaneNo) (s : State) : Memory.wf (lockLane l s) ↔ Memory.wf s :=
  wf_congr fun _ => by apply lockLane_only <;> decide

theorem unlockLane_wf (l : LaneNo) (s : State) (h : Memory.wf s) : Memory.wf (unlockLane l s) := by
  unfold unlockLane
  repeat' (first | with_reducible assumption | (simp only [↓showTs_wf, ↓modLane_wf, ↓checkEqualize_wf]) | (with_reducible apply laneFail_wf) | (with_reducible apply foldl_fst_wf) | (with_reducible apply foldl_wf) | intro _ | (with_reducible apply ite_wf) | split | dsimp only)

theorem actTs_wf (s : State) (l : LaneNo) (v : BitVec 40) (h : Memory.wf s) : Memory.wf (State.actTs s l v) := by
  unfold State.actTs
  repeat' (first | with_reducible assumption | (simp only [↓modLane_wf, ↓showTs_wf, ↓checkRetrain_wf, ↓checkEqualize_wf, ↓checkDetect_wf]) | (with_reducible apply toDisabled_wf) | (with_reducible apply enterRetrain_wf) | (with_reducible apply foldl_fst_wf) | (with_reducible apply foldl_wf) | intro _ | (with_reducible apply ite_wf) | split | dsimp only)

theorem rxTs_wf (l : LaneNo) (w : W64) (inverted : Bool) (s : State) (h : Memory.wf s) : Memory.wf (rxTs l w inverted s) := by
  unfold rxTs
  repeat' (first | with_reducible assumption | (simp only [↓modLane_wf]) | (with_reducible apply otherBlock_wf) | (with_reducible apply actTs_wf) | (with_reducible apply foldl_fst_wf) | (with_reducible apply foldl_wf) | intro _ | (with_reducible apply ite_wf) | split | dsimp only)

theorem measured_wf (l : LaneNo) (margin : Nat) (s : State) : Memory.wf (measured l margin s) ↔ Memory.wf s :=
  wf_congr fun _ => by apply measured_only <;> decide

theorem onTimer_wf {p : PortNo} {st : PState} {f : State → State} {s : State}
    (hf : ∀ t, Memory.wf t → Memory.wf (f t)) (h : Memory.wf s) : Memory.wf (onTimer p st f s) := by
  unfold onTimer; split
  · exact hf _ ((reach_wf _ _).2 h)
  · exact h

theorem rxMark_wf (l : LaneNo) (w : W64) (arrival : Int) (bip : Byte) (s : State) (h : Memory.wf s) : Memory.wf (rxMark l w arrival bip s) := by
  unfold rxMark
  repeat' (first | with_reducible assumption | (simp only [↓chooseSet_wf, ↓modLane_wf, ↓checkAlign_wf]) | (with_reducible apply otherBlock_wf) | (with_reducible apply blockError_wf) | (with_reducible apply forEach_wf) | (with_reducible apply foldl_fst_wf) | (with_reducible apply foldl_wf) | intro _ | (with_reducible apply ite_wf) | split | dsimp only)

theorem txMark_wf (p : PortNo) (bips : W32) (s : State) : Memory.wf (txMark p bips s) ↔ Memory.wf s :=
  wf_congr fun _ => by apply txMark_only <;> decide

theorem rxNeg_wf {kind : Nat} {res : W64} {l : LaneNo} {w : W64} {f : State → State} {s : State}
    (hf : ∀ t, Memory.wf t → Memory.wf (f t)) (h : Memory.wf s) : Memory.wf (rxNeg kind res l w f s) := by
  unfold rxNeg
  (repeat' split) <;> first | assumption | exact hf _ h | exact otherBlock_wf _ _ _ h | exact blockError_wf _ _ h

theorem rxFragment_wf (l : LaneNo) (w : W64) (s : State) (h : Memory.wf s) : Memory.wf (rxFragment l w s) := by
  unfold rxFragment
  repeat' (first | with_reducible assumption | (simp only [↓modPort_wf]) | (with_reducible apply judgeRecord_wf) | (with_reducible apply foldl_fst_wf) | (with_reducible apply foldl_wf) | intro _ | (with_reducible apply ite_wf) | split | dsimp only)

theorem rxAccept_wf (l : LaneNo) (w : W64) (s : State) (h : Memory.wf s) : Memory.wf (rxAccept l w s) := by
  unfold rxAccept
  repeat' (first | with_reducible assumption | (simp only [↓modPort_wf]) | (with_reducible apply endExchange_wf) | (with_reducible apply foldl_fst_wf) | (with_reducible apply foldl_wf) | intro _ | (with_reducible apply ite_wf) | split | dsimp only)

theorem rxRefuse_wf (l : LaneNo) (w : W64) (s : State) (h : Memory.wf s) : Memory.wf (rxRefuse l w s) := by
  unfold rxRefuse
  repeat' (first | with_reducible assumption | (simp only [↓fault_wf]) | (with_reducible apply toDisabled_wf) | (with_reducible apply foldl_fst_wf) | (with_reducible apply foldl_wf) | intro _ | (with_reducible apply ite_wf) | split | dsimp only)

theorem rxWidth_wf {op : Nat} {p : PortNo} {w : W64} {f : State → State} {s : State}
    (hf : ∀ t, Memory.wf t → Memory.wf (f t)) (h : Memory.wf s) : Memory.wf (rxWidth op p w f s) := by
  unfold rxWidth; dsimp only
  (repeat' split) <;> first | exact h | exact hf _ h | exact forEach_wf (fun _ _ ht => blockError_wf _ _ ht) _ _ h

theorem rxReq_wf (p : PortNo) (w : W64) (s : State) : Memory.wf (rxReq p w s) ↔ Memory.wf s :=
  wf_congr fun _ => by apply rxReq_only <;> decide

theorem rxAck_wf (p : PortNo) (w : W64) (s : State) : Memory.wf (rxAck p w s) ↔ Memory.wf s :=
  wf_congr fun _ => by apply rxAck_only <;> decide

theorem rxNak_wf (p : PortNo) (w : W64) (s : State) (h : Memory.wf s) : Memory.wf (rxNak p w s) := by
  unfold rxNak
  repeat' (first | with_reducible assumption | (simp only [↓nextWidth_wf, ↓modPort_wf]) | (with_reducible apply changeFailed_wf) | (with_reducible apply foldl_fst_wf) | (with_reducible apply foldl_wf) | intro _ | (with_reducible apply ite_wf) | split | dsimp only)

theorem rxSwitch_wf (p : PortNo) (w : W64) (s : State) : Memory.wf (rxSwitch p w s) ↔ Memory.wf s :=
  wf_congr fun _ => by apply rxSwitch_only <;> decide

theorem reqTimeout_wf (p : PortNo) (s : State) (h : Memory.wf s) : Memory.wf (reqTimeout p s) := by
  unfold reqTimeout
  repeat' (first | with_reducible assumption | (simp only [↓reach_wf, ↓sendReq_wf]) | (with_reducible apply changeFailed_wf) | (with_reducible apply foldl_fst_wf) | (with_reducible apply foldl_wf) | intro _ | (with_reducible apply ite_wf) | split | dsimp only)

theorem narrowTimeout_wf (p : PortNo) (s : State) (h : Memory.wf s) : Memory.wf (narrowTimeout p s) := by
  unfold narrowTimeout
  repeat' (first | with_reducible assumption | (simp only [↓reach_wf]) | (with_reducible apply enterRetrain_wf) | (with_reducible apply foldl_fst_wf) | (with_reducible apply foldl_wf) | intro _ | (with_reducible apply ite_wf) | split | dsimp only)

theorem rxIdle_wf (p : PortNo) (s : State) : Memory.wf (rxIdle p s) ↔ Memory.wf s :=
  wf_congr fun _ => by apply rxIdle_only <;> decide

theorem execPortTrainTrain_wf {t : State} {fn : FnNo} {qp : QpNo} {pkt : Packet} {s : State}
    (e : execPortTrainTrain fn qp pkt s = .next t) (h : Memory.wf s) : Memory.wf t := by
  injection e with e; subst e
  repeat' (first | with_reducible assumption | (simp only [↓longCommand_wf]) | (with_reducible apply trainWork_wf) | (with_reducible apply foldl_fst_wf) | (with_reducible apply foldl_wf) | (with_reducible apply longCommand_wf) | intro _ | (with_reducible apply ite_wf) | split | dsimp only)

theorem execPortTrainRetrain_wf {t : State} {fn : FnNo} {qp : QpNo} {pkt : Packet} {s : State}
    (e : execPortTrainRetrain fn qp pkt s = .next t) (h : Memory.wf s) : Memory.wf t := by
  injection e with e; subst e
  repeat' (first | with_reducible assumption | (simp only [↓longCommand_wf]) | (with_reducible apply trainWork_wf) | (with_reducible apply foldl_fst_wf) | (with_reducible apply foldl_wf) | (with_reducible apply longCommand_wf) | intro _ | (with_reducible apply ite_wf) | split | dsimp only)

theorem execPortTrainDisable_wf {t : State} {fn : FnNo} {qp : QpNo} {pkt : Packet} {s : State}
    (e : execPortTrainDisable fn qp pkt s = .next t) (h : Memory.wf s) : Memory.wf t := by
  injection e with e; subst e
  repeat' (first | with_reducible assumption | (simp only [↓longCommand_wf]) | (with_reducible apply trainWork_wf) | (with_reducible apply foldl_fst_wf) | (with_reducible apply foldl_wf) | (with_reducible apply longCommand_wf) | intro _ | (with_reducible apply ite_wf) | split | dsimp only)

theorem execPortStatus_wf {t : State} {fn : FnNo} {qp : QpNo} {pkt : Packet} {s : State}
    (e : execPortStatus fn qp pkt s = .next t) (h : Memory.wf s) : Memory.wf t :=
  (wf_congr fun _ => by apply execPortStatus_only e <;> decide).2 h

theorem execPortSetWidth_wf {t : State} {fn : FnNo} {qp : QpNo} {pkt : Packet} {s : State}
    (e : execPortSetWidth fn qp pkt s = .next t) (h : Memory.wf s) : Memory.wf t :=
  (wf_congr fun _ => by apply execPortSetWidth_only e <;> decide).2 h

theorem execBlockLockAcquired_wf {t : State} {lane : LaneNo} {s : State}
    (e : execBlockLockAcquired lane s = .next t) (h : Memory.wf s) : Memory.wf t :=
  (wf_congr fun _ => by apply execBlockLockAcquired_only e <;> decide).2 h

theorem execBlockLockLost_wf {t : State} {lane : LaneNo} {s : State}
    (e : execBlockLockLost lane s = .next t) (h : Memory.wf s) : Memory.wf t := by
  injection e with e; subst e
  repeat' (first | with_reducible assumption | (with_reducible apply unlockLane_wf) | (with_reducible apply foldl_fst_wf) | (with_reducible apply foldl_wf) | intro _ | (with_reducible apply ite_wf) | split | dsimp only)

theorem execLaneFailure_wf {t : State} {lane : LaneNo} {s : State}
    (e : execLaneFailure lane s = .next t) (h : Memory.wf s) : Memory.wf t := by
  injection e with e; subst e
  repeat' (first | with_reducible assumption | (with_reducible apply laneFail_wf) | (with_reducible apply foldl_fst_wf) | (with_reducible apply foldl_wf) | intro _ | (with_reducible apply ite_wf) | split | dsimp only)

theorem execTs_wf {t : State} {lane : LaneNo} {payload : W64} {inverted : Bool} {s : State}
    (e : execTs lane payload inverted s = .next t) (h : Memory.wf s) : Memory.wf t := by
  injection e with e; subst e
  repeat' (first | with_reducible assumption | (with_reducible apply rxTs_wf) | (with_reducible apply foldl_fst_wf) | (with_reducible apply foldl_wf) | intro _ | (with_reducible apply ite_wf) | split | dsimp only)

theorem execPresetMeasureTimer_wf {t : State} {lane : LaneNo} {margin : Nat} {s : State}
    (e : execPresetMeasureTimer lane margin s = .next t) (h : Memory.wf s) : Memory.wf t :=
  (wf_congr fun _ => by apply execPresetMeasureTimer_only e <;> decide).2 h

theorem execDetectTimeout_wf {t : State} {port : PortNo} {s : State}
    (e : execDetectTimeout port s = .next t) (h : Memory.wf s) : Memory.wf t := by
  injection e with e; subst e
  repeat' (first | with_reducible assumption | (simp only [↓onTimer_wf]) | (with_reducible apply toDisabled_wf) | (with_reducible apply foldl_fst_wf) | (with_reducible apply foldl_wf) | (with_reducible apply onTimer_wf) | intro _ | (with_reducible apply ite_wf) | split | dsimp only)

theorem execEqualizeTimeout_wf {t : State} {port : PortNo} {s : State}
    (e : execEqualizeTimeout port s = .next t) (h : Memory.wf s) : Memory.wf t := by
  injection e with e; subst e
  repeat' (first | with_reducible assumption | (simp only [↓onTimer_wf, ↓enterAlign_wf]) | (with_reducible apply toDisabled_wf) | (with_reducible apply foldl_fst_wf) | (with_reducible apply foldl_wf) | (with_reducible apply onTimer_wf) | intro _ | (with_reducible apply ite_wf) | split | dsimp only)

theorem execAlignTimeout_wf {t : State} {port : PortNo} {s : State}
    (e : execAlignTimeout port s = .next t) (h : Memory.wf s) : Memory.wf t := by
  injection e with e; subst e
  repeat' (first | with_reducible assumption | (simp only [↓onTimer_wf]) | (with_reducible apply toDisabled_wf) | (with_reducible apply foldl_fst_wf) | (with_reducible apply foldl_wf) | (with_reducible apply onTimer_wf) | intro _ | (with_reducible apply ite_wf) | split | dsimp only)

theorem execNegotiateTimeout_wf {t : State} {port : PortNo} {s : State}
    (e : execNegotiateTimeout port s = .next t) (h : Memory.wf s) : Memory.wf t := by
  injection e with e; subst e
  repeat' (first | with_reducible assumption | (simp only [↓onTimer_wf]) | (with_reducible apply toDisabled_wf) | (with_reducible apply foldl_fst_wf) | (with_reducible apply foldl_wf) | (with_reducible apply onTimer_wf) | intro _ | (with_reducible apply ite_wf) | split | dsimp only)

theorem execRetrainTimeout_wf {t : State} {port : PortNo} {s : State}
    (e : execRetrainTimeout port s = .next t) (h : Memory.wf s) : Memory.wf t := by
  injection e with e; subst e
  repeat' (first | with_reducible assumption | (simp only [↓onTimer_wf, ↓enterEqualize_wf, ↓portLapseEnds_wf]) | (with_reducible apply toDisabled_wf) | (with_reducible apply foldl_fst_wf) | (with_reducible apply foldl_wf) | (with_reducible apply onTimer_wf) | intro _ | (with_reducible apply ite_wf) | split | dsimp only)

theorem execLaneMark_wf {t : State} {lane : LaneNo} {payload : W64} {arrival : Int} {bip : Byte} {s : State}
    (e : execLaneMark lane payload arrival bip s = .next t) (h : Memory.wf s) : Memory.wf t := by
  injection e with e; subst e
  repeat' (first | with_reducible assumption | (with_reducible apply rxMark_wf) | (with_reducible apply foldl_fst_wf) | (with_reducible apply foldl_wf) | intro _ | (with_reducible apply ite_wf) | split | dsimp only)

theorem execLaneMarkTransmit_wf {t : State} {port : PortNo} {bips : W32} {s : State}
    (e : execLaneMarkTransmit port bips s = .next t) (h : Memory.wf s) : Memory.wf t :=
  (wf_congr fun _ => by apply execLaneMarkTransmit_only e <;> decide).2 h

theorem execNegRecord_wf {t : State} {lane : LaneNo} {payload : W64} {s : State}
    (e : execNegRecord lane payload s = .next t) (h : Memory.wf s) : Memory.wf t := by
  injection e with e; subst e
  repeat' (first | with_reducible assumption | (with_reducible apply rxNeg_wf) | (with_reducible apply rxFragment_wf) | (with_reducible apply foldl_fst_wf) | (with_reducible apply foldl_wf) | (with_reducible apply rxNeg_wf) | intro _ | (with_reducible apply ite_wf) | split | dsimp only)

theorem execNegAccept_wf {t : State} {lane : LaneNo} {payload : W64} {s : State}
    (e : execNegAccept lane payload s = .next t) (h : Memory.wf s) : Memory.wf t := by
  injection e with e; subst e
  repeat' (first | with_reducible assumption | (with_reducible apply rxNeg_wf) | (with_reducible apply rxAccept_wf) | (with_reducible apply foldl_fst_wf) | (with_reducible apply foldl_wf) | (with_reducible apply rxNeg_wf) | intro _ | (with_reducible apply ite_wf) | split | dsimp only)

theorem execNegRefuse_wf {t : State} {lane : LaneNo} {payload : W64} {s : State}
    (e : execNegRefuse lane payload s = .next t) (h : Memory.wf s) : Memory.wf t := by
  injection e with e; subst e
  repeat' (first | with_reducible assumption | (with_reducible apply rxNeg_wf) | (with_reducible apply rxRefuse_wf) | (with_reducible apply foldl_fst_wf) | (with_reducible apply foldl_wf) | (with_reducible apply rxNeg_wf) | intro _ | (with_reducible apply ite_wf) | split | dsimp only)

theorem execWidthChangeReq_wf {t : State} {port : PortNo} {payload : W64} {s : State}
    (e : execWidthChangeReq port payload s = .next t) (h : Memory.wf s) : Memory.wf t := by
  injection e with e; subst e
  repeat' (first | with_reducible assumption | (simp only [↓rxReq_wf]) | (with_reducible apply rxWidth_wf) | (with_reducible apply foldl_fst_wf) | (with_reducible apply foldl_wf) | (with_reducible apply rxWidth_wf) | intro _ | (with_reducible apply ite_wf) | split | dsimp only)

theorem execWidthChangeAck_wf {t : State} {port : PortNo} {payload : W64} {s : State}
    (e : execWidthChangeAck port payload s = .next t) (h : Memory.wf s) : Memory.wf t := by
  injection e with e; subst e
  repeat' (first | with_reducible assumption | (simp only [↓rxAck_wf]) | (with_reducible apply rxWidth_wf) | (with_reducible apply foldl_fst_wf) | (with_reducible apply foldl_wf) | (with_reducible apply rxWidth_wf) | intro _ | (with_reducible apply ite_wf) | split | dsimp only)

theorem execWidthChangeNak_wf {t : State} {port : PortNo} {payload : W64} {s : State}
    (e : execWidthChangeNak port payload s = .next t) (h : Memory.wf s) : Memory.wf t := by
  injection e with e; subst e
  repeat' (first | with_reducible assumption | (with_reducible apply rxWidth_wf) | (with_reducible apply rxNak_wf) | (with_reducible apply foldl_fst_wf) | (with_reducible apply foldl_wf) | (with_reducible apply rxWidth_wf) | intro _ | (with_reducible apply ite_wf) | split | dsimp only)

theorem execWidthChangeSwitch_wf {t : State} {port : PortNo} {payload : W64} {s : State}
    (e : execWidthChangeSwitch port payload s = .next t) (h : Memory.wf s) : Memory.wf t := by
  injection e with e; subst e
  repeat' (first | with_reducible assumption | (simp only [↓rxSwitch_wf]) | (with_reducible apply rxWidth_wf) | (with_reducible apply foldl_fst_wf) | (with_reducible apply foldl_wf) | (with_reducible apply rxWidth_wf) | intro _ | (with_reducible apply ite_wf) | split | dsimp only)

theorem execWidthChangeReqTimeout_wf {t : State} {port : PortNo} {s : State}
    (e : execWidthChangeReqTimeout port s = .next t) (h : Memory.wf s) : Memory.wf t := by
  injection e with e; subst e
  repeat' (first | with_reducible assumption | (with_reducible apply reqTimeout_wf) | (with_reducible apply foldl_fst_wf) | (with_reducible apply foldl_wf) | intro _ | (with_reducible apply ite_wf) | split | dsimp only)

theorem execWidthChangeTimeout_wf {t : State} {port : PortNo} {s : State}
    (e : execWidthChangeTimeout port s = .next t) (h : Memory.wf s) : Memory.wf t := by
  injection e with e; subst e
  repeat' (first | with_reducible assumption | (with_reducible apply narrowTimeout_wf) | (with_reducible apply foldl_fst_wf) | (with_reducible apply foldl_wf) | intro _ | (with_reducible apply ite_wf) | split | dsimp only)

theorem execIdle_wf {t : State} {port : PortNo} {s : State}
    (e : execIdle port s = .next t) (h : Memory.wf s) : Memory.wf t :=
  (wf_congr fun _ => by apply execIdle_only e <;> decide).2 h

/-! ### Items -/

theorem setRoute_wf (s : State) (c : Nat) (r : Route) : Memory.wf (State.setRoute s c r) ↔ Memory.wf s :=
  wf_congr fun _ => by apply setRoute_only <;> decide

theorem switchRoute_wf (s : State) (x : Chan) (r : PendingRoute) (tick : Tick) (forced : Bool) (partials : Nat) : Memory.wf (State.switchRoute s x r tick forced partials) ↔ Memory.wf s :=
  wf_congr fun _ => by apply switchRoute_only <;> decide

theorem slateNote_wf (s : State) (x : Chan) (evType : W16) (hi : Nat) (r1 : W64) : Memory.wf (State.slateNote s x evType hi r1) ↔ Memory.wf s :=
  wf_congr fun _ => by apply slateNote_only <;> decide

theorem openNext_wf (s : State) (c : Nat) (tick : Tick) : Memory.wf (State.openNext s c tick) ↔ Memory.wf s :=
  wf_congr fun _ => by apply openNext_only <;> decide

theorem dropBad_wf (s : State) (x : Chan) (q : Nat) (cause : Nat) (h : Memory.wf s) : Memory.wf (State.dropBad s x q cause) := by
  unfold State.dropBad
  repeat' (first | with_reducible assumption | (simp only [↓slateNote_wf, ↓modChan_wf]) | (with_reducible apply dropFrame_wf) | (with_reducible apply foldl_fst_wf) | (with_reducible apply foldl_wf) | intro _ | (with_reducible apply ite_wf) | split | dsimp only)

theorem closeSamples_wf (s : State) (x : Chan) (f : Frame) (tick : Tick) (h : Memory.wf s) : Memory.wf (State.closeSamples s x f tick) := by
  unfold State.closeSamples
  repeat' (first | with_reducible assumption | (simp only [↓modFrame_wf]) | (with_reducible apply dropFrame_wf) | (with_reducible apply dropBad_wf) | (with_reducible apply foldl_fst_wf) | (with_reducible apply foldl_wf) | intro _ | (with_reducible apply ite_wf) | split | dsimp only)

theorem judge_wf (s : State) (x : Chan) (a2 : QHead) (exceeds : Bool) (e : Nat) : Memory.wf (State.judge s x a2 exceeds e) ↔ Memory.wf s :=
  wf_congr fun _ => by apply judge_only <;> decide

theorem keepMessage_wf (s : State) (x : Chan) (f : Frame) (a3 : QHead) : Memory.wf (State.keepMessage s x f a3) ↔ Memory.wf s :=
  wf_congr fun _ => by apply keepMessage_only <;> decide

theorem closeMessage_wf (s : State) (x : Chan) (f : Frame) (tick : Tick) (h : Memory.wf s) : Memory.wf (State.closeMessage s x f tick) := by
  unfold State.closeMessage
  repeat' (first | with_reducible assumption | (simp only [↓keepMessage_wf, ↓judge_wf, ↓modFrame_wf]) | (with_reducible apply dropFrame_wf) | (with_reducible apply makeReady_wf) | (with_reducible apply sendAnswer_wf) | (with_reducible apply foldl_fst_wf) | (with_reducible apply foldl_wf) | intro _ | (with_reducible apply ite_wf) | split | dsimp only)

theorem closeFrame_wf (s : State) (c : Nat) (discard : Bool) (tick : Tick) (h : Memory.wf s) : Memory.wf (State.closeFrame s c discard tick) := by
  unfold State.closeFrame
  repeat' (first | with_reducible assumption | (simp only [↓modFrame_wf]) | (with_reducible apply modBufs_wf) | (with_reducible apply dropFrame_wf) | (with_reducible apply closeMessage_wf) | (with_reducible apply closeSamples_wf) | (with_reducible apply foldl_fst_wf) | (with_reducible apply foldl_wf) | intro _ | (with_reducible apply ite_wf) | split | dsimp only)

theorem strayPayload_wf (s : State) (c : Nat) : Memory.wf (State.strayPayload s c) ↔ Memory.wf s :=
  wf_congr fun _ => by apply strayPayload_only <;> decide

theorem dropWhole_wf (s : State) (c : Nat) (h : Memory.wf s) : Memory.wf (State.dropWhole s c) := by
  unfold State.dropWhole
  repeat' (first | with_reducible assumption | (simp only [↓strayPayload_wf]) | (with_reducible apply dropOpen_wf) | (with_reducible apply foldl_fst_wf) | (with_reducible apply foldl_wf) | intro _ | (with_reducible apply ite_wf) | split | dsimp only)

theorem addUsed_wf (s : State) (c : Nat) (k : Nat) : Memory.wf (State.addUsed s c k) ↔ Memory.wf s :=
  wf_congr fun _ => by apply addUsed_only <;> decide

theorem fill_wf {s t : State} {x : Chan} {q k : Nat} {copy : Bool} {used : Nat}
    (e : s.fill x q k copy used = some t) (h : Memory.wf s) : Memory.wf t := by
  unfold State.fill at e
  dsimp only at e
  split at e
  · cases e
  · split at e <;> rw [← Option.some.inj e]
    · exact modBufs_wf _ _ h
    · exact modBufs_wf _ _ (modBufs_wf _ _ h)

theorem takePayload_wf (s : State) (c sbits : Nat) (bytes : List Byte) (k : Nat) (h : Memory.wf s) :
    Memory.wf (s.takePayload c sbits bytes k) := by
  unfold State.takePayload
  split
  · exact h
  · split
    · simp only [↓addUsed_wf, ↓strayPayload_wf]; exact h
    · dsimp only
      split
      · simp only [↓addUsed_wf, ↓modChan_wf]; exact dropBad_wf _ _ _ _ h
      · split
        · simp only [↓addUsed_wf, ↓modChan_wf]; exact dropBad_wf _ _ _ _ h
        · split
          · simp only [↓addUsed_wf]; exact dropOpen_wf _ _ h
          · rename_i e
            have g := fill_wf e h
            repeat' (first | with_reducible assumption | (simp only [↓addUsed_wf, ↓modFrame_wf]) | (with_reducible apply dropOpen_wf) | (with_reducible apply ite_wf))

theorem takeMark_wf (s : State) (c : Nat) (discard : Bool) (tick : Tick) (h : Memory.wf s) : Memory.wf (State.takeMark s c discard tick) := by
  unfold State.takeMark
  repeat' (first | with_reducible assumption | (simp only [↓switchRoute_wf, ↓openNext_wf]) | (with_reducible apply closeFrame_wf) | (with_reducible apply settlePool_wf) | (with_reducible apply endUnbind_wf) | (with_reducible apply foldl_fst_wf) | (with_reducible apply foldl_wf) | intro _ | (with_reducible apply ite_wf) | split | dsimp only)

theorem takeNotice_wf (s : State) (c : Nat) (set : Nat) : Memory.wf (State.takeNotice s c set) ↔ Memory.wf s :=
  wf_congr fun _ => by apply takeNotice_only <;> decide

theorem forward_wf (s : State) (x : Chan) (tag : Option (Nat × Nat)) (itype : Nat) (sbits : Nat) (arg : Nat) (bytes : List Byte) (h : Memory.wf s) : Memory.wf (State.forward s x tag itype sbits arg bytes) := by
  unfold State.forward
  repeat' (first | with_reducible assumption | (with_reducible apply lockSend_wf) | (with_reducible apply foldl_fst_wf) | (with_reducible apply foldl_wf) | intro _ | (with_reducible apply ite_wf) | split | dsimp only)

theorem consumeUnbound_wf (s : State) (p : PortNo) (ch : Nat) (k : Nat) (mark : Bool) : Memory.wf (State.consumeUnbound s p ch k mark) ↔ Memory.wf s :=
  wf_congr fun _ => by apply consumeUnbound_only <;> decide

theorem consume_wf (s : State) (c : Nat) (k : Nat) : Memory.wf (State.consume s c k) ↔ Memory.wf s :=
  wf_congr fun _ => by apply consume_only <;> decide

theorem acceptPayload_wf (s : State) (p : PortNo) (a2 : RxHead) (bytes : List Byte) (h : Memory.wf s) : Memory.wf (State.acceptPayload s p a2 bytes) := by
  unfold State.acceptPayload
  repeat' (first | with_reducible assumption | (simp only [↓violation_wf, ↓consumeUnbound_wf, ↓consume_wf, ↓addUsed_wf, ↓countDrop_wf]) | (with_reducible apply dropWhole_wf) | (with_reducible apply forward_wf) | (with_reducible apply takePayload_wf) | (with_reducible apply settlePool_wf) | (with_reducible apply foldl_fst_wf) | (with_reducible apply foldl_wf) | intro _ | (with_reducible apply ite_wf) | split | dsimp only)

theorem acceptMark_wf (s : State) (p : PortNo) (ch : Nat) (discard : Bool) (h : Memory.wf s) : Memory.wf (State.acceptMark s p ch discard) := by
  unfold State.acceptMark
  repeat' (first | with_reducible assumption | (simp only [↓consumeUnbound_wf, ↓consume_wf, ↓modChan_wf, ↓countDrop_wf, ↓modLock_wf]) | (with_reducible apply settlePool_wf) | (with_reducible apply dropOpen_wf) | (with_reducible apply forward_wf) | (with_reducible apply takeMark_wf) | (with_reducible apply foldl_fst_wf) | (with_reducible apply foldl_wf) | intro _ | (with_reducible apply ite_wf) | split | dsimp only)

theorem acceptNotice_wf (s : State) (p : PortNo) (ch : Nat) (set : Nat) (h : Memory.wf s) : Memory.wf (State.acceptNotice s p ch set) := by
  unfold State.acceptNotice
  repeat' (first | with_reducible assumption | (simp only [↓violation_wf, ↓countDrop_wf, ↓takeNotice_wf]) | (with_reducible apply forward_wf) | (with_reducible apply foldl_fst_wf) | (with_reducible apply foldl_wf) | intro _ | (with_reducible apply ite_wf) | split | dsimp only)

theorem rxFrameRow_wf {ftype : Nat} {p : PortNo} {bytes : List Byte} {f : RxHead → List Byte → State → State} {s : State}
    (hf : ∀ g b t, Memory.wf t → Memory.wf (f g b t)) (h : Memory.wf s) : Memory.wf (rxFrameRow ftype p bytes f s) := by
  have g := (rxFrame_wf s p bytes).2 h
  unfold rxFrameRow
  dsimp only
  split
  · split
    · rename_i e
      rw [e] at g
      exact hf _ _ _ g
    · rename_i e
      rw [e] at g
      exact g
  · exact h

theorem rxStriped_wf {type : Nat} {reserved : W64} {l : LaneNo} {w : W64} {f : State → State} {s : State}
    (hf : ∀ t, Memory.wf t → Memory.wf (f t)) (h : Memory.wf s) : Memory.wf (rxStriped type reserved l w f s) := by
  unfold rxStriped; dsimp only
  (repeat' split) <;> first | assumption | exact hf _ h | exact otherBlock_wf _ _ _ h | exact blockError_wf _ _ h

theorem rxSequenced_wf {p : PortNo} {w : W64} {f : State → State} {s : State}
    (hf : ∀ t, Memory.wf t → Memory.wf (f t)) (h : Memory.wf s) : Memory.wf (rxSequenced p w f s) := by
  have g := (rxItem_wf s p (w.extractLsb' 24 16)).2 h
  unfold rxSequenced; dsimp only; split
  · exact hf _ g
  · exact g

theorem forcedSwitch_wf (c : Nat) (s : State) (h : Memory.wf s) : Memory.wf (forcedSwitch c s) := by
  unfold forcedSwitch
  repeat' (first | with_reducible assumption | (simp only [↓reach_wf, ↓switchRoute_wf]) | (with_reducible apply dropOpen_wf) | (with_reducible apply settlePool_wf) | (with_reducible apply endUnbind_wf) | (with_reducible apply foldl_fst_wf) | (with_reducible apply foldl_wf) | intro _ | (with_reducible apply ite_wf) | split | dsimp only)

theorem execSamples_wf {t : State} {port : PortNo} {bytes : List Byte} {s : State}
    (e : execSamples port bytes s = .next t) (h : Memory.wf s) : Memory.wf t := by
  injection e with e; subst e
  repeat' (first | with_reducible assumption | (simp only [↓rxFrameRow_wf]) | (with_reducible apply acceptPayload_wf) | (with_reducible apply foldl_fst_wf) | (with_reducible apply foldl_wf) | (with_reducible apply rxFrameRow_wf) | intro _ | (with_reducible apply ite_wf) | split | dsimp only)

theorem execTensor_wf {t : State} {port : PortNo} {bytes : List Byte} {s : State}
    (e : execTensor port bytes s = .next t) (h : Memory.wf s) : Memory.wf t := by
  injection e with e; subst e
  repeat' (first | with_reducible assumption | (simp only [↓rxFrameRow_wf]) | (with_reducible apply acceptPayload_wf) | (with_reducible apply foldl_fst_wf) | (with_reducible apply foldl_wf) | (with_reducible apply rxFrameRow_wf) | intro _ | (with_reducible apply ite_wf) | split | dsimp only)

theorem execFrameMark_wf {t : State} {lane : LaneNo} {payload : W64} {s : State}
    (e : execFrameMark lane payload s = .next t) (h : Memory.wf s) : Memory.wf t := by
  injection e with e; subst e
  repeat' (first | with_reducible assumption | (simp only [↓rxSequenced_wf]) | (with_reducible apply rxStriped_wf) | (with_reducible apply acceptMark_wf) | (with_reducible apply foldl_fst_wf) | (with_reducible apply foldl_wf) | (with_reducible apply rxStriped_wf) | (with_reducible apply rxSequenced_wf) | intro _ | (with_reducible apply ite_wf) | split | dsimp only)

theorem execSettingNotice_wf {t : State} {lane : LaneNo} {payload : W64} {s : State}
    (e : execSettingNotice lane payload s = .next t) (h : Memory.wf s) : Memory.wf t := by
  injection e with e; subst e
  repeat' (first | with_reducible assumption | (simp only [↓rxSequenced_wf]) | (with_reducible apply rxStriped_wf) | (with_reducible apply acceptNotice_wf) | (with_reducible apply foldl_fst_wf) | (with_reducible apply foldl_wf) | (with_reducible apply rxStriped_wf) | (with_reducible apply rxSequenced_wf) | intro _ | (with_reducible apply ite_wf) | split | dsimp only)

theorem execForcedSwitch_wf {t : State} {channel : Nat} {s : State}
    (e : execForcedSwitch channel s = .next t) (h : Memory.wf s) : Memory.wf t := by
  injection e with e; subst e
  repeat' (first | with_reducible assumption | (with_reducible apply forcedSwitch_wf) | (with_reducible apply foldl_fst_wf) | (with_reducible apply foldl_wf) | intro _ | (with_reducible apply ite_wf) | split | dsimp only)

/-! ### LinkRows -/

theorem noteAcked_wf (s : State) (p : PortNo) : Memory.wf (State.noteAcked s p) ↔ Memory.wf s :=
  wf_congr fun _ => by apply noteAcked_only <;> decide

theorem covered__wf (s : State) (p : PortNo) (upTo : W16) (h : Memory.wf s) : Memory.wf (State.covered_ s p upTo) := by
  unfold State.covered_
  repeat' (first | with_reducible assumption | (simp only [↓noteAcked_wf, ↓coverItems_wf]) | (with_reducible apply pumpChans_wf) | (with_reducible apply pumpLock_wf) | (with_reducible apply foldl_fst_wf) | (with_reducible apply foldl_wf) | intro _ | (with_reducible apply ite_wf) | split | dsimp only)

theorem resend_wf (s : State) (p : PortNo) (seq : W16) : Memory.wf (State.resend s p seq) ↔ Memory.wf s :=
  wf_congr fun _ => by apply resend_only <;> decide

theorem replayTimeout_wf (p : PortNo) (s : State) : Memory.wf (replayTimeout p s) ↔ Memory.wf s :=
  wf_congr fun _ => by apply replayTimeout_only <;> decide

theorem rxCredit_wf (s : State) (p : PortNo) (ch : Nat) (f : Credit → Credit) (h : Memory.wf s) : Memory.wf (State.rxCredit s p ch f) := by
  unfold State.rxCredit
  repeat' (first | with_reducible assumption | (simp only [↓modPort_wf, ↓modChan_wf]) | (with_reducible apply pumpLock_wf) | (with_reducible apply pumpChans_wf) | (with_reducible apply foldl_fst_wf) | (with_reducible apply foldl_wf) | intro _ | (with_reducible apply ite_wf) | split | dsimp only)

theorem refreshCredit_wf (p : PortNo) (s : State) : Memory.wf (refreshCredit p s) ↔ Memory.wf s :=
  wf_congr fun _ => by apply refreshCredit_only <;> decide

theorem rxTime_wf (s : State) (p : PortNo) (w : W64) : Memory.wf (State.rxTime s p w) ↔ Memory.wf s :=
  wf_congr fun _ => by apply rxTime_only <;> decide

theorem correctTick_wf (s : State) (theta : Int) : Memory.wf (State.correctTick s theta) ↔ Memory.wf s :=
  wf_congr fun _ => by apply correctTick_only <;> decide

theorem estimate_wf (s : State) (p : PortNo) (y : Sync) (theta : Int) : Memory.wf (State.estimate s p y theta) ↔ Memory.wf s :=
  wf_congr fun _ => by apply estimate_only <;> decide

theorem rxEcho_wf (s : State) (p : PortNo) (w : W64) : Memory.wf (State.rxEcho s p w) ↔ Memory.wf s :=
  wf_congr fun _ => by apply rxEcho_only <;> decide

theorem sendTime_wf (p : PortNo) (s : State) : Memory.wf (sendTime p s) ↔ Memory.wf s :=
  wf_congr fun _ => by apply sendTime_only <;> decide

theorem echoTimeout_wf (p : PortNo) (s : State) : Memory.wf (echoTimeout p s) ↔ Memory.wf s :=
  wf_congr fun _ => by apply echoTimeout_only <;> decide

theorem startSync_wf (p : Packet) (id : Nat) (s : State) : Memory.wf (startSync p id s) ↔ Memory.wf s :=
  wf_congr fun _ => by apply startSync_only <;> decide

theorem syncTimeout_wf (p : PortNo) (s : State) : Memory.wf (syncTimeout p s) ↔ Memory.wf s :=
  wf_congr fun _ => by apply syncTimeout_only <;> decide

theorem execAck_wf {t : State} {lane : LaneNo} {payload : W64} {s : State}
    (e : execAck lane payload s = .next t) (h : Memory.wf s) : Memory.wf t := by
  injection e with e; subst e
  repeat' (first | with_reducible assumption | (with_reducible apply rxStriped_wf) | (with_reducible apply covered__wf) | (with_reducible apply foldl_fst_wf) | (with_reducible apply foldl_wf) | (with_reducible apply rxStriped_wf) | intro _ | (with_reducible apply ite_wf) | split | dsimp only)

theorem execNak_wf {t : State} {lane : LaneNo} {payload : W64} {s : State}
    (e : execNak lane payload s = .next t) (h : Memory.wf s) : Memory.wf t := by
  injection e with e; subst e
  repeat' (first | with_reducible assumption | (simp only [↓resend_wf, ↓coverItems_wf]) | (with_reducible apply rxStriped_wf) | (with_reducible apply covered__wf) | (with_reducible apply foldl_fst_wf) | (with_reducible apply foldl_wf) | (with_reducible apply rxStriped_wf) | intro _ | (with_reducible apply ite_wf) | split | dsimp only)

theorem execReplayTimeout_wf {t : State} {port : PortNo} {s : State}
    (e : execReplayTimeout port s = .next t) (h : Memory.wf s) : Memory.wf t :=
  (wf_congr fun _ => by apply execReplayTimeout_only e <;> decide).2 h

theorem execCredit_wf {t : State} {lane : LaneNo} {payload : W64} {s : State}
    (e : execCredit lane payload s = .next t) (h : Memory.wf s) : Memory.wf t := by
  injection e with e; subst e
  repeat' (first | with_reducible assumption | (with_reducible apply rxStriped_wf) | (with_reducible apply rxCredit_wf) | (with_reducible apply foldl_fst_wf) | (with_reducible apply foldl_wf) | (with_reducible apply rxStriped_wf) | intro _ | (with_reducible apply ite_wf) | split | dsimp only)

theorem execCreditWithdraw_wf {t : State} {lane : LaneNo} {payload : W64} {s : State}
    (e : execCreditWithdraw lane payload s = .next t) (h : Memory.wf s) : Memory.wf t := by
  injection e with e; subst e
  repeat' (first | with_reducible assumption | (with_reducible apply rxStriped_wf) | (with_reducible apply rxCredit_wf) | (with_reducible apply foldl_fst_wf) | (with_reducible apply foldl_wf) | (with_reducible apply rxStriped_wf) | intro _ | (with_reducible apply ite_wf) | split | dsimp only)

theorem execCreditRefresh_wf {t : State} {port : PortNo} {s : State}
    (e : execCreditRefresh port s = .next t) (h : Memory.wf s) : Memory.wf t :=
  (wf_congr fun _ => by apply execCreditRefresh_only e <;> decide).2 h

theorem execSyncTime_wf {t : State} {lane : LaneNo} {payload : W64} {s : State}
    (e : execSyncTime lane payload s = .next t) (h : Memory.wf s) : Memory.wf t := by
  injection e with e; subst e
  repeat' (first | with_reducible assumption | (simp only [↓rxTime_wf]) | (with_reducible apply rxStriped_wf) | (with_reducible apply foldl_fst_wf) | (with_reducible apply foldl_wf) | (with_reducible apply rxStriped_wf) | intro _ | (with_reducible apply ite_wf) | split | dsimp only)

theorem execEcho_wf {t : State} {lane : LaneNo} {payload : W64} {s : State}
    (e : execEcho lane payload s = .next t) (h : Memory.wf s) : Memory.wf t := by
  injection e with e; subst e
  repeat' (first | with_reducible assumption | (simp only [↓rxEcho_wf]) | (with_reducible apply rxStriped_wf) | (with_reducible apply foldl_fst_wf) | (with_reducible apply foldl_wf) | (with_reducible apply rxStriped_wf) | intro _ | (with_reducible apply ite_wf) | split | dsimp only)

theorem execTimeTransmit_wf {t : State} {port : PortNo} {s : State}
    (e : execTimeTransmit port s = .next t) (h : Memory.wf s) : Memory.wf t :=
  (wf_congr fun _ => by apply execTimeTransmit_only e <;> decide).2 h

theorem execEchoTimeout_wf {t : State} {port : PortNo} {s : State}
    (e : execEchoTimeout port s = .next t) (h : Memory.wf s) : Memory.wf t :=
  (wf_congr fun _ => by apply execEchoTimeout_only e <;> decide).2 h

theorem execTickSync_wf {t : State} {fn : FnNo} {qp : QpNo} {pkt : Packet} {s : State}
    (e : execTickSync fn qp pkt s = .next t) (h : Memory.wf s) : Memory.wf t :=
  (wf_congr fun _ => by apply execTickSync_only e <;> decide).2 h

theorem execTickSyncTimeout_wf {t : State} {port : PortNo} {s : State}
    (e : execTickSyncTimeout port s = .next t) (h : Memory.wf s) : Memory.wf t :=
  (wf_congr fun _ => by apply execTickSyncTimeout_only e <;> decide).2 h

end Sys2Proof.Machine
end

