-- ==== Sys2Proof/Laws/FormUnits.lean ====
section
/-!
SUPPORT. Each operation of the model keeps the canonical form of every memory: slots, strata, lock-step, pool commands, Slate, units, external memory, host registers and service.
-/

set_option linter.all false

namespace Sys2Proof.Machine

/-! ### Slots -/

theorem setSlots_wf (s : State) (n : FnNo) (share : Nat) : Memory.wf (State.setSlots s n share) ↔ Memory.wf s :=
  wf_congr fun _ => by apply setSlots_only <;> decide

theorem dropSlots_wf (s : State) (n : FnNo) : Memory.wf (State.dropSlots s n) ↔ Memory.wf s :=
  wf_congr fun _ => by apply dropSlots_only <;> decide

theorem arbitrationSet_wf (s : State) (n : FnNo) : Memory.wf (State.arbitrationSet s n) ↔ Memory.wf s :=
  wf_congr fun _ => by apply arbitrationSet_only <;> decide

theorem answerAwaiting_wf (s : State) (fn : FnNo) (qp : QpNo) : Memory.wf (State.answerAwaiting s fn qp) ↔ Memory.wf s :=
  wf_congr fun _ => by apply answerAwaiting_only <;> decide

theorem applyTerms_wf (s : State) : Memory.wf (State.applyTerms s) ↔ Memory.wf s :=
  wf_congr fun _ => by apply applyTerms_only <;> decide

theorem startRound_wf (s : State) (h : Memory.wf s) : Memory.wf (startRound s) := by
  unfold startRound
  repeat' (first | with_reducible assumption | (simp only [↓applyTerms_wf, ↓reach_wf, ↓restoreTiming_wf, ↓arbitrationSet_wf, ↓answerAwaiting_wf, ↓upd_ext_wf, ↓upd_ext_slots_wf, ↓upd_slots_wf]) | (with_reducible apply pumpChans_wf) | (with_reducible apply forEach_wf) | (with_reducible apply foldl_fst_wf) | (with_reducible apply foldl_wf) | intro _ | (with_reducible apply ite_wf) | split | dsimp only)

theorem endSlot_wf (s : State) (h : Memory.wf s) : Memory.wf (endSlot s) := by
  unfold endSlot
  repeat' (first | with_reducible assumption | (simp only [↓reach_wf]) | (with_reducible apply pumpChans_wf) | (with_reducible apply foldl_fst_wf) | (with_reducible apply foldl_wf) | intro _ | (with_reducible apply ite_wf) | split | dsimp only)

theorem execRoundStart_wf {t : State} {s : State}
    (e : execRoundStart s = .next t) (h : Memory.wf s) : Memory.wf t := by
  injection e with e; subst e
  repeat' (first | with_reducible assumption | (with_reducible apply startRound_wf) | (with_reducible apply foldl_fst_wf) | (with_reducible apply foldl_wf) | intro _ | (with_reducible apply ite_wf) | split | dsimp only)

theorem execSlotBoundary_wf {t : State} {s : State}
    (e : execSlotBoundary s = .next t) (h : Memory.wf s) : Memory.wf t := by
  injection e with e; subst e
  repeat' (first | with_reducible assumption | (with_reducible apply endSlot_wf) | (with_reducible apply foldl_fst_wf) | (with_reducible apply foldl_wf) | intro _ | (with_reducible apply ite_wf) | split | dsimp only)

/-! ### Strata -/

theorem zeroCluster_wf (s : State) (c : PhysNo) (h : Memory.wf s) : Memory.wf (s.zeroCluster c) :=
  ⟨h.1, h.2.1, vmod_forall (P := fun m => memWf 0 m = true) _ _ _ h.2.2.1 rfl, h.2.2.2⟩

theorem stripChanged_wf (s : State) : Memory.wf (State.stripChanged s) ↔ Memory.wf s :=
  wf_congr fun _ => by apply stripChanged_only <;> decide

theorem whiten_wf (s : State) (r : Nat) : Memory.wf (State.whiten s r) ↔ Memory.wf s :=
  wf_congr fun _ => by apply whiten_only <;> decide

theorem zeroCounters_wf (s : State) (n : FnNo) : Memory.wf (State.zeroCounters s n) ↔ Memory.wf s :=
  wf_congr fun _ => by apply zeroCounters_only <;> decide

theorem createStratum_wf (p : Packet) (s : State) (h : Memory.wf s) : Memory.wf (createStratum p s).1 := by
  unfold createStratum
  repeat' (first | with_reducible assumption | (simp only [↓draw_wf, ↓stripChanged_wf, ↓zeroCounters_wf, ↓modStratum_wf, ↓modRepro_wf, ↓setSlots_wf, ↓reproBegin_wf, ↓upd_jtag_wf]) | (with_reducible apply zeroCluster_wf) | (with_reducible apply clustersChanged_wf) | (with_reducible apply settlePool_wf) | (with_reducible apply reclaimAll_wf) | (with_reducible apply forEach_wf) | (with_reducible apply foldl_fst_wf) | (with_reducible apply foldl_wf) | intro _ | (with_reducible apply ite_wf) | split | dsimp only)

theorem acceptDestroy_wf (n : FnNo) (id : Nat) (s : State) : Memory.wf (acceptDestroy n id s) ↔ Memory.wf s :=
  wf_congr fun _ => by apply acceptDestroy_only <;> decide

theorem dropPair_wf (s : State) (n : FnNo) (h : Memory.wf s) : Memory.wf (State.dropPair s n) := by
  unfold State.dropPair
  repeat' (first | with_reducible assumption | (simp only [↓complete_wf, ↓modLock_wf]) | (with_reducible apply endPair_wf) | (with_reducible apply foldl_fst_wf) | (with_reducible apply foldl_wf) | intro _ | (with_reducible apply ite_wf) | split | dsimp only)

theorem unbindAll_wf (s : State) (n : FnNo) (h : Memory.wf s) : Memory.wf (State.unbindAll s n) := by
  unfold State.unbindAll
  repeat' (first | with_reducible assumption | (simp only [↓completeOk_wf]) | (with_reducible apply unbindNow_wf) | (with_reducible apply forEach_wf) | (with_reducible apply foldl_fst_wf) | (with_reducible apply foldl_wf) | intro _ | (with_reducible apply ite_wf) | split | dsimp only)

theorem zeroStratum_wf (s : State) (n : FnNo) (h : Memory.wf s) : Memory.wf (State.zeroStratum s n) := by
  unfold State.zeroStratum
  repeat' (first | with_reducible assumption | (simp only [↓upd_mprogs_wf, ↓upd_tables_wf, ↓upd_tables_mprogs_wf]) | (with_reducible apply release_wf) | (with_reducible apply zeroCluster_wf) | (with_reducible apply forEach_wf) | (with_reducible apply foldl_fst_wf) | (with_reducible apply foldl_wf) | intro _ | (with_reducible apply ite_wf) | split | dsimp only)

theorem destroyStratum_wf (n : FnNo) (s : State) (h : Memory.wf s) : Memory.wf (destroyStratum n s) := by
  unfold destroyStratum
  repeat' (first | with_reducible assumption | (simp only [↓endCommands_wf, ↓zeroCounters_wf, ↓whiten_wf, ↓dropSlots_wf, ↓modStratum_wf, ↓modRepro_wf, ↓completeOk_wf, ↓upd_progs_wf]) | (with_reducible apply forgetWork_wf) | (with_reducible apply abortWaiting_wf) | (with_reducible apply abortAll_wf) | (with_reducible apply zeroStratum_wf) | (with_reducible apply unbindAll_wf) | (with_reducible apply dropPair_wf) | (with_reducible apply settlePool_wf) | (with_reducible apply reclaimAll_wf) | (with_reducible apply clustersChanged_wf) | (with_reducible apply foldl_fst_wf) | (with_reducible apply foldl_wf) | intro _ | (with_reducible apply ite_wf) | split | dsimp only)

theorem setArbitration_wf (p : Packet) (s : State) : Memory.wf (setArbitration p s) ↔ Memory.wf s :=
  wf_congr fun _ => by apply setArbitration_only <;> decide

theorem setMode_wf (n : FnNo) (attr : BitVec 8) (s : State) (h : Memory.wf s) : Memory.wf (setMode n attr s).1 := by
  unfold setMode
  repeat' (first | with_reducible assumption | (simp only [↓modStratum_wf, ↓stripChanged_wf, ↓reproBegin_wf, ↓modRepro_wf, ↓reproBreak_wf]) | (with_reducible apply endPair_wf) | (with_reducible apply foldl_fst_wf) | (with_reducible apply foldl_wf) | intro _ | (with_reducible apply ite_wf) | split | dsimp only)

theorem execStratumCreate_wf {t : State} {fn : FnNo} {qp : QpNo} {pkt : Packet} {s : State}
    (e : execStratumCreate fn qp pkt s = .next t) (h : Memory.wf s) : Memory.wf t := by
  injection e with e; subst e
  repeat' (first | with_reducible assumption | (simp only [↓shortCommand_wf]) | (with_reducible apply createStratum_wf) | (with_reducible apply foldl_fst_wf) | (with_reducible apply foldl_wf) | (with_reducible apply shortCommand_wf) | intro _ | (with_reducible apply ite_wf) | split | dsimp only)

theorem execStratumDestroy_wf {t : State} {fn : FnNo} {qp : QpNo} {pkt : Packet} {s : State}
    (e : execStratumDestroy fn qp pkt s = .next t) (h : Memory.wf s) : Memory.wf t :=
  (wf_congr fun _ => by apply execStratumDestroy_only e <;> decide).2 h

theorem execStratumDestroyComplete_wf {t : State} {target : FnNo} {s : State}
    (e : execStratumDestroyComplete target s = .next t) (h : Memory.wf s) : Memory.wf t := by
  injection e with e; subst e
  repeat' (first | with_reducible assumption | (with_reducible apply destroyStratum_wf) | (with_reducible apply foldl_fst_wf) | (with_reducible apply foldl_wf) | intro _ | (with_reducible apply ite_wf) | split | dsimp only)

theorem execStratumQuery_wf {t : State} {fn : FnNo} {qp : QpNo} {pkt : Packet} {s : State}
    (e : execStratumQuery fn qp pkt s = .next t) (h : Memory.wf s) : Memory.wf t :=
  (wf_congr fun _ => by apply execStratumQuery_only e <;> decide).2 h

theorem execStratumSetArbitration_wf {t : State} {fn : FnNo} {qp : QpNo} {pkt : Packet} {s : State}
    (e : execStratumSetArbitration fn qp pkt s = .next t) (h : Memory.wf s) : Memory.wf t :=
  (wf_congr fun _ => by apply execStratumSetArbitration_only e <;> decide).2 h

theorem execStratumSetMode_wf {t : State} {fn : FnNo} {qp : QpNo} {pkt : Packet} {s : State}
    (e : execStratumSetMode fn qp pkt s = .next t) (h : Memory.wf s) : Memory.wf t := by
  injection e with e; subst e
  repeat' (first | with_reducible assumption | (simp only [↓shortCommand_wf]) | (with_reducible apply setMode_wf) | (with_reducible apply foldl_fst_wf) | (with_reducible apply foldl_wf) | (with_reducible apply shortCommand_wf) | intro _ | (with_reducible apply ite_wf) | split | dsimp only)

/-! ### Lockstep -/

theorem tryPair_wf (s : State) (h : Memory.wf s) : Memory.wf (State.tryPair s) := by
  unfold State.tryPair
  repeat' (first | with_reducible assumption | (simp only [↓completeOk_wf, ↓modLock_wf, ↓portCommandEnds_wf]) | (with_reducible apply takeLogGranules_wf) | (with_reducible apply foldl_fst_wf) | (with_reducible apply foldl_wf) | intro _ | (with_reducible apply ite_wf) | split | dsimp only)

theorem pairTimeout_wf (s : State) : Memory.wf (pairTimeout s) ↔ Memory.wf s :=
  wf_congr fun _ => by apply pairTimeout_only <;> decide

theorem acceptLock_wf {s : State} {p : PortNo} {g : RxHead} {bytes : List Byte} {f : List Byte → State → State}
    (hf : ∀ b t, Memory.wf t → Memory.wf (f b t)) (h : Memory.wf s) : Memory.wf (s.acceptLock p g bytes f) := by
  unfold State.acceptLock
  dsimp only
  repeat' (first | with_reducible assumption | (simp only [↓areaCredit_wf, ↓violation_wf, ↓modPort_wf, ↓consumeUnbound_wf, ↓addUsed_wf, ↓consume_wf]) | (with_reducible apply settlePool_wf) | (with_reducible apply dropWhole_wf) | (with_reducible apply hf) | split)

theorem rxLockRow_wf {kind : Nat} {p : PortNo} {bytes : List Byte} {f : List Byte → State → State} {s : State}
    (hf : ∀ b t, Memory.wf t → Memory.wf (f b t)) (h : Memory.wf s) : Memory.wf (rxLockRow kind p bytes f s) := by
  unfold rxLockRow
  dsimp only
  split
  · exact rxFrameRow_wf (fun _ _ _ ht => acceptLock_wf hf ht) h
  · split
    · exact rxFrameRow_wf (fun g b t ht => acceptLock_wf (f := fun _ u => u) (fun _ _ hu => hu) ht) h
    · exact h

theorem peerDigest_wf (s : State) (d : Digest) (h : Memory.wf s) : Memory.wf (State.peerDigest s d) := by
  unfold State.peerDigest
  repeat' (first | with_reducible assumption | (simp only [↓modLock_wf]) | (with_reducible apply compareDigests_wf) | (with_reducible apply foldl_fst_wf) | (with_reducible apply foldl_wf) | intro _ | (with_reducible apply ite_wf) | split | dsimp only)

theorem takeDigests_wf (b : List Byte) (s : State) (h : Memory.wf s) : Memory.wf (takeDigests b s) := by
  unfold takeDigests
  repeat' (first | with_reducible assumption | (with_reducible apply peerDigest_wf) | (with_reducible apply forEach_wf) | (with_reducible apply foldl_fst_wf) | (with_reducible apply foldl_wf) | intro _ | (with_reducible apply ite_wf) | split | dsimp only)

theorem dropLog_wf (s : State) (chan : Nat) (q : Nat) : Memory.wf (State.dropLog s chan q) ↔ Memory.wf s :=
  wf_congr fun _ => by apply dropLog_only <;> decide

theorem answerLog_wf (s : State) (chan : Nat) (q : Nat) (h : Memory.wf s) : Memory.wf (State.answerLog s chan q) := by
  unfold State.answerLog
  repeat' (first | with_reducible assumption | (simp only [↓dropLog_wf, ↓modLock_wf]) | (with_reducible apply lockSend_wf) | (with_reducible apply forEach_wf) | (with_reducible apply foldl_fst_wf) | (with_reducible apply foldl_wf) | intro _ | (with_reducible apply ite_wf) | split | dsimp only)

theorem takeLogReq_wf (b : List Byte) (s : State) (h : Memory.wf s) : Memory.wf (takeLogReq b s) := by
  unfold takeLogReq
  repeat' (first | with_reducible assumption | (with_reducible apply answerLog_wf) | (with_reducible apply forEach_wf) | (with_reducible apply foldl_fst_wf) | (with_reducible apply foldl_wf) | intro _ | (with_reducible apply ite_wf) | split | dsimp only)

theorem compareLogs_wf (s : State) (d : Digest) (peer : Option (List TileSig)) : Memory.wf (State.compareLogs s d peer) ↔ Memory.wf s :=
  wf_congr fun _ => by apply compareLogs_only <;> decide

theorem takeLog_wf (b : List Byte) (s : State) : Memory.wf (takeLog b s) ↔ Memory.wf s :=
  wf_congr fun _ => by apply takeLog_only <;> decide

theorem moveItem_wf (s : State) (i : FwdItem) (h : Memory.wf s) : Memory.wf (State.moveItem s i) := by
  unfold State.moveItem
  repeat' (first | with_reducible assumption | (simp only [↓takeNotice_wf]) | (with_reducible apply settlePool_wf) | (with_reducible apply takePayload_wf) | (with_reducible apply takeMark_wf) | (with_reducible apply foldl_fst_wf) | (with_reducible apply foldl_wf) | intro _ | (with_reducible apply ite_wf) | split | dsimp only)

theorem drainArea_wf (s : State) (h : Memory.wf s) : Memory.wf (State.drainArea s) := by
  unfold State.drainArea
  repeat' (first | with_reducible assumption | (simp only [↓areaCredit_wf, ↓modLock_wf]) | (with_reducible apply moveItem_wf) | (with_reducible apply forEach_wf) | (with_reducible apply foldl_fst_wf) | (with_reducible apply foldl_wf) | intro _ | (with_reducible apply ite_wf) | split | dsimp only)

theorem takeForward_wf (b : List Byte) (s : State) (h : Memory.wf s) : Memory.wf (takeForward b s) := by
  unfold takeForward
  repeat' (first | with_reducible assumption | (simp only [↓modLock_wf]) | (with_reducible apply drainArea_wf) | (with_reducible apply foldl_fst_wf) | (with_reducible apply foldl_wf) | intro _ | (with_reducible apply ite_wf) | split | dsimp only)

theorem takePairRecord_wf (b : List Byte) (s : State) (h : Memory.wf s) : Memory.wf (takePairRecord b s) := by
  unfold takePairRecord
  repeat' (first | with_reducible assumption | (simp only [↓modLock_wf]) | (with_reducible apply tryPair_wf) | (with_reducible apply foldl_fst_wf) | (with_reducible apply foldl_wf) | intro _ | (with_reducible apply ite_wf) | split | dsimp only)

theorem execLockstepPair_wf {t : State} {fn : FnNo} {qp : QpNo} {pkt : Packet} {s : State}
    (e : execLockstepPair fn qp pkt s = .next t) (h : Memory.wf s) : Memory.wf t := by
  injection e with e; subst e
  repeat' (first | with_reducible assumption | (simp only [↓longCommand_wf, ↓modLock_wf]) | (with_reducible apply tryPair_wf) | (with_reducible apply lockSend_wf) | (with_reducible apply foldl_fst_wf) | (with_reducible apply foldl_wf) | (with_reducible apply longCommand_wf) | intro _ | (with_reducible apply ite_wf) | split | dsimp only)

theorem execLockstepUnpair_wf {t : State} {fn : FnNo} {qp : QpNo} {pkt : Packet} {s : State}
    (e : execLockstepUnpair fn qp pkt s = .next t) (h : Memory.wf s) : Memory.wf t := by
  injection e with e; subst e
  repeat' (first | with_reducible assumption | (simp only [↓longCommand_wf, ↓completeOk_wf]) | (with_reducible apply endPair_wf) | (with_reducible apply foldl_fst_wf) | (with_reducible apply foldl_wf) | (with_reducible apply longCommand_wf) | intro _ | (with_reducible apply ite_wf) | split | dsimp only)

theorem execPairTimeout_wf {t : State} {s : State}
    (e : execPairTimeout s = .next t) (h : Memory.wf s) : Memory.wf t :=
  (wf_congr fun _ => by apply execPairTimeout_only e <;> decide).2 h

theorem execLockstepStatus_wf {t : State} {fn : FnNo} {qp : QpNo} {pkt : Packet} {s : State}
    (e : execLockstepStatus fn qp pkt s = .next t) (h : Memory.wf s) : Memory.wf t :=
  (wf_congr fun _ => by apply execLockstepStatus_only e <;> decide).2 h

theorem execDigestFrame_wf {t : State} {port : PortNo} {bytes : List Byte} {s : State}
    (e : execDigestFrame port bytes s = .next t) (h : Memory.wf s) : Memory.wf t := by
  injection e with e; subst e
  repeat' (first | with_reducible assumption | (with_reducible apply rxLockRow_wf) | (with_reducible apply takeDigests_wf) | (with_reducible apply foldl_fst_wf) | (with_reducible apply foldl_wf) | (with_reducible apply rxLockRow_wf) | intro _ | (with_reducible apply ite_wf) | split | dsimp only)

theorem execLogReq_wf {t : State} {port : PortNo} {bytes : List Byte} {s : State}
    (e : execLogReq port bytes s = .next t) (h : Memory.wf s) : Memory.wf t := by
  injection e with e; subst e
  repeat' (first | with_reducible assumption | (with_reducible apply rxLockRow_wf) | (with_reducible apply takeLogReq_wf) | (with_reducible apply foldl_fst_wf) | (with_reducible apply foldl_wf) | (with_reducible apply rxLockRow_wf) | intro _ | (with_reducible apply ite_wf) | split | dsimp only)

theorem execLogFrame_wf {t : State} {port : PortNo} {bytes : List Byte} {s : State}
    (e : execLogFrame port bytes s = .next t) (h : Memory.wf s) : Memory.wf t := by
  injection e with e; subst e
  repeat' (first | with_reducible assumption | (simp only [↓takeLog_wf]) | (with_reducible apply rxLockRow_wf) | (with_reducible apply foldl_fst_wf) | (with_reducible apply foldl_wf) | (with_reducible apply rxLockRow_wf) | intro _ | (with_reducible apply ite_wf) | split | dsimp only)

theorem execForward_wf {t : State} {port : PortNo} {bytes : List Byte} {s : State}
    (e : execForward port bytes s = .next t) (h : Memory.wf s) : Memory.wf t := by
  injection e with e; subst e
  repeat' (first | with_reducible assumption | (with_reducible apply rxLockRow_wf) | (with_reducible apply takeForward_wf) | (with_reducible apply foldl_fst_wf) | (with_reducible apply foldl_wf) | (with_reducible apply rxLockRow_wf) | intro _ | (with_reducible apply ite_wf) | split | dsimp only)

theorem execPairFrame_wf {t : State} {port : PortNo} {bytes : List Byte} {s : State}
    (e : execPairFrame port bytes s = .next t) (h : Memory.wf s) : Memory.wf t := by
  injection e with e; subst e
  repeat' (first | with_reducible assumption | (with_reducible apply rxLockRow_wf) | (with_reducible apply takePairRecord_wf) | (with_reducible apply foldl_fst_wf) | (with_reducible apply foldl_wf) | (with_reducible apply rxLockRow_wf) | intro _ | (with_reducible apply ite_wf) | split | dsimp only)

theorem execUnpairFrame_wf {t : State} {port : PortNo} {bytes : List Byte} {s : State}
    (e : execUnpairFrame port bytes s = .next t) (h : Memory.wf s) : Memory.wf t := by
  injection e with e; subst e
  repeat' (first | with_reducible assumption | (with_reducible apply rxLockRow_wf) | (with_reducible apply endPair_wf) | (with_reducible apply foldl_fst_wf) | (with_reducible apply foldl_wf) | (with_reducible apply rxLockRow_wf) | intro _ | (with_reducible apply ite_wf) | split | dsimp only)

/-! ### PoolCmds -/

theorem setPoolSize_wf (p : Packet) (s : State) (h : Memory.wf s) : Memory.wf (setPoolSize p s).1 := by
  unfold setPoolSize
  repeat' (first | with_reducible assumption | (simp only [↓upd_geo_wf]) | (with_reducible apply freeGranule_wf) | (with_reducible apply placeGranules_wf) | (with_reducible apply settlePool_wf) | (with_reducible apply forEach_wf) | (with_reducible apply foldl_fst_wf) | (with_reducible apply foldl_wf) | intro _ | (with_reducible apply ite_wf) | split | dsimp only)

theorem setStratumTerms_wf (p : Packet) (s : State) (h : Memory.wf s) : Memory.wf (setStratumTerms p s).1 := by
  unfold setStratumTerms
  repeat' (first | with_reducible assumption | (simp only [↓modStratum_wf]) | (with_reducible apply settlePool_wf) | (with_reducible apply reclaimAll_wf) | (with_reducible apply foldl_fst_wf) | (with_reducible apply foldl_wf) | intro _ | (with_reducible apply ite_wf) | split | dsimp only)

theorem grant_wf (s : State) (h : Memory.wf s) : Memory.wf (grant s) := by
  unfold grant
  repeat' (first | with_reducible assumption | (with_reducible apply drainArea_wf) | (with_reducible apply settlePool_wf) | (with_reducible apply grantOne_wf) | (with_reducible apply foldl_fst_wf) | (with_reducible apply foldl_wf) | intro _ | (with_reducible apply ite_wf) | split | dsimp only)

theorem zeroingComplete_wf (n : Nat) (s : State) (h : Memory.wf s) : Memory.wf (zeroingComplete n s) := by
  unfold zeroingComplete
  repeat' (first | with_reducible assumption | (with_reducible apply settlePool_wf) | (with_reducible apply modBufs_wf) | (with_reducible apply foldl_fst_wf) | (with_reducible apply foldl_wf) | intro _ | (with_reducible apply ite_wf) | split | dsimp only)

theorem poolStarved_wf (c : Nat) (s : State) : Memory.wf (poolStarved c s) ↔ Memory.wf s :=
  wf_congr fun _ => by apply poolStarved_only <;> decide

theorem execSetSize_wf {t : State} {fn : FnNo} {qp : QpNo} {pkt : Packet} {s : State}
    (e : execSetSize fn qp pkt s = .next t) (h : Memory.wf s) : Memory.wf t := by
  injection e with e; subst e
  repeat' (first | with_reducible assumption | (simp only [↓shortCommand_wf]) | (with_reducible apply setPoolSize_wf) | (with_reducible apply foldl_fst_wf) | (with_reducible apply foldl_wf) | (with_reducible apply shortCommand_wf) | intro _ | (with_reducible apply ite_wf) | split | dsimp only)

theorem execSetStratum_wf {t : State} {fn : FnNo} {qp : QpNo} {pkt : Packet} {s : State}
    (e : execSetStratum fn qp pkt s = .next t) (h : Memory.wf s) : Memory.wf t := by
  injection e with e; subst e
  repeat' (first | with_reducible assumption | (simp only [↓shortCommand_wf]) | (with_reducible apply setStratumTerms_wf) | (with_reducible apply foldl_fst_wf) | (with_reducible apply foldl_wf) | (with_reducible apply shortCommand_wf) | intro _ | (with_reducible apply ite_wf) | split | dsimp only)

theorem execPoolQuery_wf {t : State} {fn : FnNo} {qp : QpNo} {pkt : Packet} {s : State}
    (e : execPoolQuery fn qp pkt s = .next t) (h : Memory.wf s) : Memory.wf t :=
  (wf_congr fun _ => by apply execPoolQuery_only e <;> decide).2 h

theorem execGrant_wf {t : State} {s : State}
    (e : execGrant s = .next t) (h : Memory.wf s) : Memory.wf t := by
  injection e with e; subst e
  repeat' (first | with_reducible assumption | (with_reducible apply grant_wf) | (with_reducible apply foldl_fst_wf) | (with_reducible apply foldl_wf) | intro _ | (with_reducible apply ite_wf) | split | dsimp only)

theorem execZeroingComplete_wf {t : State} {buffer : Nat} {s : State}
    (e : execZeroingComplete buffer s = .next t) (h : Memory.wf s) : Memory.wf t := by
  injection e with e; subst e
  repeat' (first | with_reducible assumption | (with_reducible apply zeroingComplete_wf) | (with_reducible apply foldl_fst_wf) | (with_reducible apply foldl_wf) | intro _ | (with_reducible apply ite_wf) | split | dsimp only)

theorem execPoolStarved_wf {t : State} {channel : Nat} {s : State}
    (e : execPoolStarved channel s = .next t) (h : Memory.wf s) : Memory.wf t :=
  (wf_congr fun _ => by apply execPoolStarved_only e <;> decide).2 h

/-! ### Slate -/

theorem slatePut_wf (s : State) (n : FnNo) (a : Nat) (bs : List Byte) (h : Memory.wf s) : Memory.wf (State.slatePut s n a bs) := by
  unfold State.slatePut
  repeat' (first | with_reducible assumption | (with_reducible apply locWrite_wf) | (with_reducible apply forEach_wf) | (with_reducible apply foldl_fst_wf) | (with_reducible apply foldl_wf) | intro _ | (with_reducible apply ite_wf) | split | dsimp only)

theorem decayRaster_wf (s : State) (n : FnNo) (base : Nat) (decay : Nat) (h : Memory.wf s) : Memory.wf (State.decayRaster s n base decay) := by
  unfold State.decayRaster
  repeat' (first | with_reducible assumption | (with_reducible apply slatePut_wf) | (with_reducible apply forEach_wf) | (with_reducible apply foldl_fst_wf) | (with_reducible apply foldl_wf) | intro _ | (with_reducible apply ite_wf) | split | dsimp only)

theorem clearRaster_wf (s : State) (n : FnNo) (base : Nat) (h : Memory.wf s) : Memory.wf (State.clearRaster s n base) := by
  unfold State.clearRaster
  repeat' (first | with_reducible assumption | (with_reducible apply slatePut_wf) | (with_reducible apply foldl_fst_wf) | (with_reducible apply foldl_wf) | intro _ | (with_reducible apply ite_wf) | split | dsimp only)

theorem hit_wf (s : State) (n : FnNo) (f : Frame) (k : Nat) (h : Memory.wf s) : Memory.wf (State.hit s n f k) := by
  unfold State.hit
  repeat' (first | with_reducible assumption | (with_reducible apply slatePut_wf) | (with_reducible apply foldl_fst_wf) | (with_reducible apply foldl_wf) | intro _ | (with_reducible apply ite_wf) | split | dsimp only)

theorem rasterPiece_wf (s : State) (n : FnNo) (f : Frame) (first : Nat) (last : Nat) (h : Memory.wf s) : Memory.wf (State.rasterPiece s n f first last) := by
  unfold State.rasterPiece
  repeat' (first | with_reducible assumption | (with_reducible apply decayRaster_wf) | (with_reducible apply clearRaster_wf) | (with_reducible apply hit_wf) | (with_reducible apply forEach_wf) | (with_reducible apply foldl_fst_wf) | (with_reducible apply foldl_wf) | intro _ | (with_reducible apply ite_wf) | split | dsimp only)

theorem snapshot_wf (s : State) (x : Chan) (f : Frame) (h : Memory.wf s) : Memory.wf (State.snapshot s x f) := by
  unfold State.snapshot
  repeat' (first | with_reducible assumption | (simp only [↓modFrame_wf, ↓upd_deliveries_wf]) | (with_reducible apply slatePut_wf) | (with_reducible apply clearRaster_wf) | (with_reducible apply foldl_fst_wf) | (with_reducible apply foldl_wf) | intro _ | (with_reducible apply ite_wf) | split | dsimp only)

theorem writeRecord_wf (s : State) (x : Chan) (f : Frame) (h : Memory.wf s) : Memory.wf (State.writeRecord s x f) := by
  unfold State.writeRecord
  repeat' (first | with_reducible assumption | (simp only [↓slateNote_wf, ↓modFrame_wf, ↓modChan_wf]) | (with_reducible apply slatePut_wf) | (with_reducible apply foldl_fst_wf) | (with_reducible apply foldl_wf) | intro _ | (with_reducible apply ite_wf) | split | dsimp only)

theorem startPiece_wf (e : EngNo) (s : State) : Memory.wf (startPiece e s) ↔ Memory.wf s :=
  wf_congr fun _ => by apply startPiece_only <;> decide

theorem keepHistories_wf (s : State) (c : Nat) (f : Frame) : Memory.wf (State.keepHistories s c f) ↔ Memory.wf s :=
  wf_congr fun _ => by apply keepHistories_only <;> decide

theorem conditioned_wf (s : State) (x : Chan) (f : Frame) (h : Memory.wf s) : Memory.wf (State.conditioned s x f) := by
  unfold State.conditioned
  repeat' (first | with_reducible assumption | (simp only [↓keepHistories_wf, ↓delFrame_wf]) | (with_reducible apply writeRecord_wf) | (with_reducible apply slatePut_wf) | (with_reducible apply snapshot_wf) | (with_reducible apply endUnbinds_wf) | (with_reducible apply settlePool_wf) | (with_reducible apply releaseFrame_wf) | (with_reducible apply finishFrame_wf) | (with_reducible apply makeReady_wf) | (with_reducible apply foldl_fst_wf) | (with_reducible apply foldl_wf) | intro _ | (with_reducible apply ite_wf) | split | dsimp only)

theorem endPiece_wf (e : EngNo) (s : State) (h : Memory.wf s) : Memory.wf (endPiece e s) := by
  unfold endPiece
  repeat' (first | with_reducible assumption | (simp only [↓modFrame_wf, ↓upd_pieces_wf]) | (with_reducible apply rasterPiece_wf) | (with_reducible apply conditioned_wf) | (with_reducible apply foldl_fst_wf) | (with_reducible apply foldl_wf) | intro _ | (with_reducible apply ite_wf) | split | dsimp only)

theorem startDelivery_wf (e : EngNo) (n : FnNo) (s : State) : Memory.wf (startDelivery e n s) ↔ Memory.wf s :=
  wf_congr fun _ => by apply startDelivery_only <;> decide

theorem pumpRings_wf (s : State) (n : FnNo) (h : Memory.wf s) : Memory.wf (State.pumpRings s n) := by
  unfold State.pumpRings
  repeat' (first | with_reducible assumption | (with_reducible apply pumpRing_wf) | (with_reducible apply forEach_wf) | (with_reducible apply foldl_fst_wf) | (with_reducible apply foldl_wf) | intro _ | (with_reducible apply ite_wf) | split | dsimp only)

theorem endDelivery_wf (e : EngNo) (n : FnNo) (s : State) (h : Memory.wf s) : Memory.wf (endDelivery e n s) := by
  unfold endDelivery
  repeat' (first | with_reducible assumption | (simp only [↓bulkWrite_wf, ↓modChan_wf, ↓modStore_wf, ↓upd_deliveries_wf]) | (with_reducible apply pumpRings_wf) | (with_reducible apply foldl_fst_wf) | (with_reducible apply foldl_wf) | intro _ | (with_reducible apply ite_wf) | split | dsimp only)

theorem dropDelivery_wf (s : State) (d : Delivery) (h : Memory.wf s) : Memory.wf (State.dropDelivery s d) := by
  unfold State.dropDelivery
  repeat' (first | with_reducible assumption | (simp only [↓modFrame_wf, ↓upd_deliveries_wf]) | (with_reducible apply pumpRings_wf) | (with_reducible apply foldl_fst_wf) | (with_reducible apply foldl_wf) | intro _ | (with_reducible apply ite_wf) | split | dsimp only)

theorem moveDeliveries_wf (s : State) (e : EngNo) (h : Memory.wf s) : Memory.wf (State.moveDeliveries s e) := by
  unfold State.moveDeliveries
  repeat' (first | with_reducible assumption | (simp only [↓upd_deliveries_wf]) | (with_reducible apply dropDelivery_wf) | (with_reducible apply forEach_wf) | (with_reducible apply foldl_fst_wf) | (with_reducible apply foldl_wf) | intro _ | (with_reducible apply ite_wf) | split | dsimp only)

theorem execPieceStart_wf {t : State} {engine : EngNo} {s : State}
    (e : execPieceStart engine s = .next t) (h : Memory.wf s) : Memory.wf t :=
  (wf_congr fun _ => by apply execPieceStart_only e <;> decide).2 h

theorem execPieceEnd_wf {t : State} {engine : EngNo} {s : State}
    (e : execPieceEnd engine s = .next t) (h : Memory.wf s) : Memory.wf t := by
  injection e with e; subst e
  repeat' (first | with_reducible assumption | (with_reducible apply endPiece_wf) | (with_reducible apply foldl_fst_wf) | (with_reducible apply foldl_wf) | intro _ | (with_reducible apply ite_wf) | split | dsimp only)

theorem execDeliveryJobStart_wf {t : State} {engine : EngNo} {stratum : FnNo} {s : State}
    (e : execDeliveryJobStart engine stratum s = .next t) (h : Memory.wf s) : Memory.wf t :=
  (wf_congr fun _ => by apply execDeliveryJobStart_only e <;> decide).2 h

/-! ### Units -/

theorem modUnit_wf (s : State) (u : Unit_) (f : UnitSt → UnitSt) : Memory.wf (State.modUnit s u f) ↔ Memory.wf s :=
  wf_congr fun _ => by apply modUnit_only <;> decide

theorem recordSystem_wf (s : State) (h : Memory.wf s) : Memory.wf (State.recordSystem s) := by
  unfold State.recordSystem
  repeat' (first | with_reducible assumption | (simp only [↓upd_nv_wf]) | (with_reducible apply foldl_fst_wf) | (with_reducible apply foldl_wf) | intro _ | (with_reducible apply ite_wf) | split | dsimp only)

theorem mapTo_wf (s : State) (l : LogNo) (c : PhysNo) (h : Memory.wf s) : Memory.wf (State.mapTo s l c) := by
  unfold State.mapTo
  repeat' (first | with_reducible assumption | (simp only [↓upd_mapping_lastPhys_wf, ↓upd_mapping_wf]) | (with_reducible apply zeroCluster_wf) | (with_reducible apply foldl_fst_wf) | (with_reducible apply foldl_wf) | intro _ | (with_reducible apply ite_wf) | split | dsimp only)

theorem endOrRetry_wf (s : State) (r : Run) (h : Memory.wf s) : Memory.wf (State.endOrRetry s r).1 := by
  unfold State.endOrRetry
  repeat' (first | with_reducible assumption | (simp only [↓endRun_wf, ↓modFrame_wf, ↓count_wf]) | (with_reducible apply abortFrame_wf) | (with_reducible apply foldl_fst_wf) | (with_reducible apply foldl_wf) | intro _ | (with_reducible apply ite_wf) | split | dsimp only)

theorem endRunsAt_wf (s : State) (l : LogNo) (h : Memory.wf s) : Memory.wf (State.endRunsAt s l).1 := by
  unfold State.endRunsAt
  repeat' (first | with_reducible assumption | (with_reducible apply endOrRetry_wf) | (with_reducible apply foldl_fst_wf) | (with_reducible apply foldl_wf) | intro _ | (with_reducible apply ite_wf) | split | dsimp only)

theorem endRemaps_wf (s : State) (c : PhysNo) : Memory.wf (State.endRemaps s c) ↔ Memory.wf s :=
  wf_congr fun _ => by apply endRemaps_only <;> decide

theorem loseCluster_wf (s : State) (c : PhysNo) (h : Memory.wf s) : Memory.wf (State.loseCluster s c) := by
  unfold State.loseCluster
  repeat' (first | with_reducible assumption | (simp only [↓endRemaps_wf, ↓upd_toReplace_wf]) | (with_reducible apply endRunsAt_wf) | (with_reducible apply foldl_fst_wf) | (with_reducible apply foldl_wf) | intro _ | (with_reducible apply ite_wf) | split | dsimp only)

theorem replaceOne_wf (s : State) (h : Memory.wf s) : Memory.wf (replaceOne s) := by
  unfold replaceOne
  repeat' (first | with_reducible assumption | (simp only [↓fault_wf, ↓occurAll_wf, ↓upd_toReplace_wf, ↓upd_mapping_wf, ↓upd_mapping_toReplace_wf]) | (with_reducible apply mapTo_wf) | (with_reducible apply recordSystem_wf) | (with_reducible apply clustersChanged_wf) | (with_reducible apply foldl_fst_wf) | (with_reducible apply foldl_wf) | intro _ | (with_reducible apply ite_wf) | split | dsimp only)

theorem restoreAt_wf (s : State) (l : LogNo) (h : Memory.wf s) : Memory.wf (State.restoreAt s l) := by
  unfold State.restoreAt
  repeat' (first | with_reducible assumption | (simp only [↓fault_wf, ↓occurAll_wf]) | (with_reducible apply mapTo_wf) | (with_reducible apply recordSystem_wf) | (with_reducible apply clustersChanged_wf) | (with_reducible apply foldl_fst_wf) | (with_reducible apply foldl_wf) | intro _ | (with_reducible apply ite_wf) | split | dsimp only)

theorem restoreFor_wf (n : FnNo) (a1 : Nat) (s : State) (h : Memory.wf s) : Memory.wf (State.restoreFor n a1 s) := by
  induction a1 generalizing s with
  | zero => simpa only [State.restoreFor] using h
  | succ _ ih =>
    rw [State.restoreFor]
    repeat' (first | (with_reducible apply ih) | with_reducible assumption | (with_reducible apply restoreAt_wf) | (with_reducible apply foldl_fst_wf) | (with_reducible apply foldl_wf) | intro _ | (with_reducible apply ite_wf) | split | dsimp only)

theorem restoreNext_wf (s : State) (h : Memory.wf s) : Memory.wf (restoreNext s) := by
  unfold restoreNext
  repeat' (first | with_reducible assumption | (with_reducible apply restoreAt_wf) | (with_reducible apply foldl_fst_wf) | (with_reducible apply foldl_wf) | intro _ | (with_reducible apply ite_wf) | split | dsimp only)

theorem contextLost_wf (s : State) (c : Nat) (replaced : Bool) : Memory.wf (State.contextLost s c replaced) ↔ Memory.wf s :=
  wf_congr fun _ => by apply contextLost_only <;> decide

theorem replaceSystem_wf (s : State) (g : Nat) (a : Option Nat) (b : Option Nat) (h : Memory.wf s) : Memory.wf (State.replaceSystem s g a b).1 := by
  unfold State.replaceSystem
  repeat' (first | with_reducible assumption | (simp only [↓modLock_wf, ↓upd_geo_wf]) | (with_reducible apply markGranule_wf) | (with_reducible apply foldl_fst_wf) | (with_reducible apply foldl_wf) | intro _ | (with_reducible apply ite_wf) | split | dsimp only)

theorem loseSystem_wf (s : State) (b : BankNo) (h : Memory.wf s) : Memory.wf (State.loseSystem s b) := by
  unfold State.loseSystem
  repeat' (first | with_reducible assumption | (simp only [↓contextLost_wf]) | (with_reducible apply replaceSystem_wf) | (with_reducible apply forEach_wf) | (with_reducible apply foldl_fst_wf) | (with_reducible apply foldl_wf) | intro _ | (with_reducible apply ite_wf) | split | dsimp only)

theorem replaceParts_wf (b : BankNo) (n : FnNo) (s : State) (l : List (Option Nat)) (h : Memory.wf s) :
    Memory.wf (State.replaceParts b n s l).1 := by
  induction l generalizing s with
  | nil => simpa only [State.replaceParts] using h
  | cons o l ih =>
    unfold State.replaceParts
    dsimp only
    (repeat' split) <;> apply ih
    · exact (modStratum_wf _ _ _).2 (markGranule_wf _ _ _ ((upd_geo_wf (by rfl)).2 h))
    · exact (upd_geo_wf (by rfl)).2 h
    · exact h
    · exact h

theorem loseArena_wf (s : State) (b : BankNo) (n : FnNo) (h : Memory.wf s) : Memory.wf (s.loseArena b n) := by
  unfold State.loseArena
  dsimp only
  split
  · exact h
  · have g : ∀ (l : List Alloc) (x : State × List Alloc × Nat × Nat), Memory.wf x.1 → Memory.wf (l.foldl
        (fun (acc : State × List Alloc × Nat × Nat) a =>
          let e := State.replaceParts b n acc.1 a.parts
          (e.1, acc.2.1 ++ [{ a with parts := e.2.1 }], acc.2.2.1 + e.2.2.1, acc.2.2.2 + e.2.2.2)) x).1 :=
      fun l x hx => by
        refine foldl_fst_wf (fun y a hy => ?_) _ _ hx
        exact replaceParts_wf b n y.1 a.parts hy
    split <;> simp only [↓occur_wf, ↓modStratum_wf] <;> exact g _ _ h

theorem loseHolder_wf (s : State) (b : Buf) (h : Memory.wf s) : Memory.wf (State.loseHolder s b) := by
  unfold State.loseHolder
  repeat' (first | with_reducible assumption | (simp only [↓modChan_wf, ↓countDrop_wf, ↓endRun_wf]) | (with_reducible apply releaseFrame_wf) | (with_reducible apply dropOpen_wf) | (with_reducible apply abortFrame_wf) | (with_reducible apply dropFrame_wf) | (with_reducible apply foldl_fst_wf) | (with_reducible apply foldl_wf) | intro _ | (with_reducible apply ite_wf) | split | dsimp only)

theorem refillPool_wf (s : State) (a1 : List Nat) (h : Memory.wf s) : Memory.wf (State.refillPool s a1) := by
  induction a1 generalizing s with
  | nil => simpa only [State.refillPool] using h
  | cons _ _ ih =>
    rw [State.refillPool]
    repeat' (first | (with_reducible apply ih) | with_reducible assumption | (simp only [↓upd_geo_wf]) | (with_reducible apply markGranule_wf) | (with_reducible apply foldl_fst_wf) | (with_reducible apply foldl_wf) | intro _ | (with_reducible apply ite_wf) | split | dsimp only)

theorem losePool_wf (s : State) (b : BankNo) (h : Memory.wf s) : Memory.wf (State.losePool s b) := by
  unfold State.losePool
  repeat' (first | with_reducible assumption | (simp only [↓occur_wf, ↓upd_geo_wf]) | (with_reducible apply loseHolder_wf) | (with_reducible apply refillPool_wf) | (with_reducible apply settlePool_wf) | (with_reducible apply reclaimAll_wf) | (with_reducible apply forEach_wf) | (with_reducible apply foldl_fst_wf) | (with_reducible apply foldl_wf) | intro _ | (with_reducible apply ite_wf) | split | dsimp only)

theorem loseBank_wf (s : State) (b : BankNo) (h : Memory.wf s) : Memory.wf (s.loseBank b) := by
  unfold State.loseBank
  dsimp only
  refine losePool_wf _ _ (forEach_wf (fun _ _ ht => loseArena_wf _ _ _ ht) _ _ (loseSystem_wf _ _ ?_))
  exact ⟨memClear_wf _ _ h.1, h.2.1, h.2.2.1, h.2.2.2⟩

theorem moveContexts_wf (s : State) (e : EngNo) : Memory.wf (State.moveContexts s e) ↔ Memory.wf s :=
  wf_congr fun _ => by apply moveContexts_only <;> decide

theorem endPieceOn_wf (s : State) (e : EngNo) (h : Memory.wf s) : Memory.wf (State.endPieceOn s e).1 := by
  unfold State.endPieceOn
  repeat' (first | with_reducible assumption | (simp only [↓upd_pieces_loaded_wf, ↓upd_pieces_wf]) | (with_reducible apply endUnbinds_wf) | (with_reducible apply settlePool_wf) | (with_reducible apply dropOpen_wf) | (with_reducible apply dropFrame_wf) | (with_reducible apply forEach_wf) | (with_reducible apply foldl_fst_wf) | (with_reducible apply foldl_wf) | intro _ | (with_reducible apply ite_wf) | split | dsimp only)

theorem cutJobs_wf (s : State) (unit : W16) (js : List CopyJob) (h : Memory.wf s) : Memory.wf (State.cutJobs s unit js).1 := by
  unfold State.cutJobs
  repeat' (first | with_reducible assumption | (simp only [↓draw_wf]) | (with_reducible apply cutJob_wf) | (with_reducible apply foldl_fst_wf) | (with_reducible apply foldl_wf) | intro _ | (with_reducible apply ite_wf) | split | dsimp only)

theorem endExtJobs_wf (s : State) (unit : W16) (h : Memory.wf s) : Memory.wf (State.endExtJobs s unit) := by
  unfold State.endExtJobs
  repeat' (first | with_reducible assumption | (with_reducible apply cutJob_wf) | (with_reducible apply forEach_wf) | (with_reducible apply foldl_fst_wf) | (with_reducible apply foldl_wf) | intro _ | (with_reducible apply ite_wf) | split | dsimp only)

theorem placeExt_wf (s : State) : Memory.wf (State.placeExt s) ↔ Memory.wf s :=
  wf_congr fun _ => by apply placeExt_only <;> decide

theorem loseExt_wf (s : State) (cs : List ExtNo) (h : Memory.wf s) : Memory.wf (s.loseExt cs) := by
  unfold State.loseExt
  split
  · exact h
  · dsimp only
    simp only [↓lapse_wf, ↓placeExt_wf]
    have g := endExtJobs_wf s (unitId 7 (cs.head?.getD 0).val) h
    exact ⟨g.1, rfl, g.2.2.1, g.2.2.2⟩

theorem extReady_wf (s : State) (h : Memory.wf s) : Memory.wf (extReady s) := by
  unfold extReady
  repeat' (first | with_reducible assumption | (simp only [↓lapseEnds_wf, ↓upd_ext_wf]) | (with_reducible apply forEach_wf) | (with_reducible apply foldl_fst_wf) | (with_reducible apply foldl_wf) | intro _ | (with_reducible apply ite_wf) | split | dsimp only)

theorem fenceStep_wf (s : State) (a1 : Unit_) (h : Memory.wf s) : Memory.wf (State.fenceStep s a1) := by
  unfold State.fenceStep
  repeat' (first | with_reducible assumption | (simp only [↓moveContexts_wf, ↓modUnit_wf]) | (with_reducible apply loseCluster_wf) | (with_reducible apply forEach_wf) | (with_reducible apply foldl_fst_wf) | (with_reducible apply foldl_wf) | intro _ | (with_reducible apply ite_wf) | split | dsimp only)

theorem fenceLapseEnds_wf (s : State) (u : Unit_) : Memory.wf (State.fenceLapseEnds s u) ↔ Memory.wf s :=
  wf_congr fun _ => by apply fenceLapseEnds_only <;> decide

theorem laneLost_wf (s : State) (l : LaneNo) (h : Memory.wf s) : Memory.wf (State.laneLost s l) := by
  unfold State.laneLost
  repeat' (first | with_reducible assumption | (simp only [↓modPort_wf]) | (with_reducible apply toDisabled_wf) | (with_reducible apply foldl_fst_wf) | (with_reducible apply foldl_wf) | intro _ | (with_reducible apply ite_wf) | split | dsimp only)

theorem cutSegment_wf (s : State) (unit : W16) (h : Memory.wf s) : Memory.wf (State.cutSegment s unit).1 := by
  unfold State.cutSegment
  repeat' (first | with_reducible assumption | (simp only [↓draw_wf]) | (with_reducible apply cutJobs_wf) | (with_reducible apply endOrRetry_wf) | (with_reducible apply foldl_fst_wf) | (with_reducible apply foldl_wf) | intro _ | (with_reducible apply ite_wf) | split | dsimp only)

theorem endRequests_wf (s : State) (a1 : Unit_) (h : Memory.wf s) : Memory.wf (State.endRequests s a1).1 := by
  unfold State.endRequests
  repeat' (first | with_reducible assumption | (with_reducible apply endPieceOn_wf) | (with_reducible apply endJobsOn_wf) | (with_reducible apply moveDeliveries_wf) | (with_reducible apply cutJobs_wf) | (with_reducible apply cutSegment_wf) | (with_reducible apply foldl_fst_wf) | (with_reducible apply foldl_wf) | intro _ | (with_reducible apply ite_wf) | split | dsimp only)

theorem cutCost_wf (s : State) (a1 : Unit_) (h : Memory.wf s) : Memory.wf (State.cutCost s a1) := by
  unfold State.cutCost
  repeat' (first | with_reducible assumption | (simp only [↓modUnit_wf]) | (with_reducible apply loseBank_wf) | (with_reducible apply toDisabled_wf) | (with_reducible apply loseExt_wf) | (with_reducible apply laneLost_wf) | (with_reducible apply forEach_wf) | (with_reducible apply foldl_fst_wf) | (with_reducible apply foldl_wf) | intro _ | (with_reducible apply ite_wf) | split | dsimp only)

theorem cutEffects_wf (s : State) (u : Unit_) (emptied : Bool) (h : Memory.wf s) : Memory.wf (State.cutEffects s u emptied).1 := by
  unfold State.cutEffects
  repeat' (first | with_reducible assumption | (simp only [↓draw_wf]) | (with_reducible apply cutCost_wf) | (with_reducible apply moveDeliveries_wf) | (with_reducible apply endRequests_wf) | (with_reducible apply foldl_fst_wf) | (with_reducible apply foldl_wf) | intro _ | (with_reducible apply ite_wf) | split | dsimp only)

theorem cutStep_wf (s : State) (u : Unit_) (emptied : Bool) (h : Memory.wf s) : Memory.wf (State.cutStep s u emptied).1 := by
  unfold State.cutStep
  repeat' (first | with_reducible assumption | (simp only [↓fenceLapseEnds_wf, ↓modUnit_wf]) | (with_reducible apply cutEffects_wf) | (with_reducible apply foldl_fst_wf) | (with_reducible apply foldl_wf) | intro _ | (with_reducible apply ite_wf) | split | dsimp only)

theorem fenceUnit_wf (s : State) (u : Unit_) (cause : BitVec 8) (retire : Bool) (detail : BitVec 224) (h : Memory.wf s) : Memory.wf (State.fenceUnit s u cause retire detail) := by
  unfold State.fenceUnit
  repeat' (first | with_reducible assumption | (simp only [↓fault_wf, ↓modUnit_wf, ↓unitFailed_wf, ↓lapse_wf]) | (with_reducible apply fenceStep_wf) | (with_reducible apply recordSystem_wf) | (with_reducible apply foldl_fst_wf) | (with_reducible apply foldl_wf) | intro _ | (with_reducible apply ite_wf) | split | dsimp only)

theorem failUnit_wf (s : State) (u : Unit_) (cause : BitVec 8) (detail : BitVec 224) (h : Memory.wf s) : Memory.wf (State.failUnit s u cause detail) := by
  unfold State.failUnit
  repeat' (first | with_reducible assumption | (simp only [↓modUnit_wf, ↓completeOk_wf]) | (with_reducible apply laneFailBy_wf) | (with_reducible apply cutStep_wf) | (with_reducible apply fenceUnit_wf) | (with_reducible apply recordSystem_wf) | (with_reducible apply foldl_fst_wf) | (with_reducible apply foldl_wf) | intro _ | (with_reducible apply ite_wf) | split | dsimp only)

theorem returnUnit_wf (s : State) (u : Unit_) (h : Memory.wf s) : Memory.wf (State.returnUnit s u) := by
  unfold State.returnUnit
  repeat' (first | with_reducible assumption | (simp only [↓modUnit_wf, ↓modPort_wf]) | (with_reducible apply zeroCluster_wf) | (with_reducible apply settlePool_wf) | (with_reducible apply refillPool_wf) | (with_reducible apply forEach_wf) | (with_reducible apply foldl_fst_wf) | (with_reducible apply foldl_wf) | intro _ | (with_reducible apply ite_wf) | split | dsimp only)

theorem noteReturn_wf (s : State) (u : Unit_) (h : Memory.wf s) : Memory.wf (State.noteReturn s u) := by
  unfold State.noteReturn
  repeat' (first | with_reducible assumption | (simp only [↓fault_wf, ↓occur_wf]) | (with_reducible apply recordSystem_wf) | (with_reducible apply foldl_fst_wf) | (with_reducible apply foldl_wf) | intro _ | (with_reducible apply ite_wf) | split | dsimp only)

theorem execSpareReplacement_wf {t : State} {s : State}
    (e : execSpareReplacement s = .next t) (h : Memory.wf s) : Memory.wf t := by
  injection e with e; subst e
  repeat' (first | with_reducible assumption | (with_reducible apply replaceOne_wf) | (with_reducible apply foldl_fst_wf) | (with_reducible apply foldl_wf) | intro _ | (with_reducible apply ite_wf) | split | dsimp only)

theorem execRestoration_wf {t : State} {s : State}
    (e : execRestoration s = .next t) (h : Memory.wf s) : Memory.wf t := by
  injection e with e; subst e
  repeat' (first | with_reducible assumption | (with_reducible apply restoreNext_wf) | (with_reducible apply foldl_fst_wf) | (with_reducible apply foldl_wf) | intro _ | (with_reducible apply ite_wf) | split | dsimp only)

theorem execExtReinitComplete_wf {t : State} {s : State}
    (e : execExtReinitComplete s = .next t) (h : Memory.wf s) : Memory.wf t := by
  injection e with e; subst e
  repeat' (first | with_reducible assumption | (with_reducible apply extReady_wf) | (with_reducible apply foldl_fst_wf) | (with_reducible apply foldl_wf) | intro _ | (with_reducible apply ite_wf) | split | dsimp only)

/-! ### Ext -/

theorem tellPoisoned_wf (s : State) (w : ExtNo × Nat) (h : Memory.wf s) : Memory.wf (State.tellPoisoned s w) := by
  unfold State.tellPoisoned
  repeat' (first | with_reducible assumption | (simp only [↓occur_wf, ↓upd_ext_wf]) | (with_reducible apply foldl_fst_wf) | (with_reducible apply foldl_wf) | intro _ | (with_reducible apply ite_wf) | split | dsimp only)

theorem poison_wf (s : State) (w : ExtNo × Nat) (h : Memory.wf s) : Memory.wf (State.poison s w) := by
  unfold State.poison
  repeat' (first | with_reducible assumption | (simp only [↓upd_ext_wf, ↓upd_telem_wf, ↓upd_ext_telem_wf]) | (with_reducible apply tellPoisoned_wf) | (with_reducible apply failUnit_wf) | (with_reducible apply foldl_fst_wf) | (with_reducible apply foldl_wf) | intro _ | (with_reducible apply ite_wf) | split | dsimp only)

theorem foundWord_wf (s : State) (w : ExtNo × Nat) (a2 : Ecc) (h : Memory.wf s) : Memory.wf (State.foundWord s w a2) := by
  unfold State.foundWord
  repeat' (first | with_reducible assumption | (simp only [↓upd_telem_wf]) | (with_reducible apply poison_wf) | (with_reducible apply foldl_fst_wf) | (with_reducible apply foldl_wf) | intro _ | (with_reducible apply ite_wf) | split | dsimp only)

theorem foundAt_wf (s : State) (n : FnNo) (a : Nat) (e : Ecc) (h : Memory.wf s) : Memory.wf (State.foundAt s n a e) := by
  unfold State.foundAt
  repeat' (first | with_reducible assumption | (simp only [↓upd_telem_wf]) | (with_reducible apply failUnit_wf) | (with_reducible apply foundWord_wf) | (with_reducible apply foldl_fst_wf) | (with_reducible apply foldl_wf) | intro _ | (with_reducible apply ite_wf) | split | dsimp only)

theorem copyFound_wf (e : EngNo) (n : FnNo) (x : Nat × Ecc) (s : State) (h : Memory.wf s) : Memory.wf (copyFound e n x s) := by
  unfold copyFound
  repeat' (first | with_reducible assumption | (with_reducible apply foundAt_wf) | (with_reducible apply cutJob_wf) | (with_reducible apply foldl_fst_wf) | (with_reducible apply foldl_wf) | intro _ | (with_reducible apply ite_wf) | split | dsimp only)

theorem deliveryFound_wf (e : EngNo) (n : FnNo) (x : Nat × Ecc) (s : State) (h : Memory.wf s) : Memory.wf (deliveryFound e n x s) := by
  unfold deliveryFound
  repeat' (first | with_reducible assumption | (with_reducible apply foundAt_wf) | (with_reducible apply foldl_fst_wf) | (with_reducible apply foldl_wf) | intro _ | (with_reducible apply ite_wf) | split | dsimp only)

theorem patrolRead_wf (c : ExtNo) (k : Nat) (e : Ecc) (s : State) (h : Memory.wf s) : Memory.wf (patrolRead c k e s) := by
  unfold patrolRead
  repeat' (first | with_reducible assumption | (with_reducible apply foundWord_wf) | (with_reducible apply foldl_fst_wf) | (with_reducible apply foldl_wf) | intro _ | (with_reducible apply ite_wf) | split | dsimp only)

theorem track_wf (c : ExtNo) (failure : Bool) (s : State) (h : Memory.wf s) : Memory.wf (track c failure s) := by
  unfold track
  repeat' (first | with_reducible assumption | (simp only [↓reach_wf]) | (with_reducible apply failUnit_wf) | (with_reducible apply foldl_fst_wf) | (with_reducible apply foldl_wf) | intro _ | (with_reducible apply ite_wf) | split | dsimp only)

theorem fixedRefreshAt_wf (c : ExtNo) (s : State) : Memory.wf (fixedRefreshAt c s) ↔ Memory.wf s :=
  wf_congr fun _ => by apply fixedRefreshAt_only <;> decide

theorem execCopyJobComplete_wf {t : State} {engine : EngNo} {stratum : FnNo} {host : List Byte} {outcome : CopyOutcome} {s : State}
    (e : execCopyJobComplete engine stratum host outcome s = .next t) (h : Memory.wf s) : Memory.wf t := by
  injection e with e; subst e
  repeat' (first | with_reducible assumption | (with_reducible apply finishCopy_wf) | (with_reducible apply copyFound_wf) | (with_reducible apply foldl_fst_wf) | (with_reducible apply foldl_wf) | intro _ | (with_reducible apply ite_wf) | split | dsimp only)

theorem execDeliveryJobComplete_wf {t : State} {job : EngineJob} {found : Option (Nat × Ecc)} {s : State}
    (e : execDeliveryJobComplete job found s = .next t) (h : Memory.wf s) : Memory.wf t := by
  injection e with e; subst e
  repeat' (first | with_reducible assumption | (with_reducible apply endDelivery_wf) | (with_reducible apply deliveryFound_wf) | (with_reducible apply foldl_fst_wf) | (with_reducible apply foldl_wf) | intro _ | (with_reducible apply ite_wf) | split | dsimp only)

theorem execPatrolRead_wf {t : State} {channel : ExtNo} {word : Nat} {found : Ecc} {s : State}
    (e : execPatrolRead channel word found s = .next t) (h : Memory.wf s) : Memory.wf t := by
  injection e with e; subst e
  repeat' (first | with_reducible assumption | (with_reducible apply patrolRead_wf) | (with_reducible apply foldl_fst_wf) | (with_reducible apply foldl_wf) | intro _ | (with_reducible apply ite_wf) | split | dsimp only)

theorem execTracking_wf {t : State} {channel : ExtNo} {failure : Bool} {s : State}
    (e : execTracking channel failure s = .next t) (h : Memory.wf s) : Memory.wf t := by
  injection e with e; subst e
  repeat' (first | with_reducible assumption | (with_reducible apply track_wf) | (with_reducible apply foldl_fst_wf) | (with_reducible apply foldl_wf) | intro _ | (with_reducible apply ite_wf) | split | dsimp only)

theorem execFixedRefresh_wf {t : State} {channel : ExtNo} {s : State}
    (e : execFixedRefresh channel s = .next t) (h : Memory.wf s) : Memory.wf t :=
  (wf_congr fun _ => by apply execFixedRefresh_only e <;> decide).2 h

theorem execAdaptiveRefresh_wf {t : State} {_channel : ExtNo} {s : State}
    (e : execAdaptiveRefresh _channel s = .next t) (h : Memory.wf s) : Memory.wf t :=
  (wf_congr fun _ => by apply execAdaptiveRefresh_only e <;> decide).2 h

/-! ### HostIf -/

theorem hostAccess_wf {fn : FnNo} {f : State → State} {s : State} (hf : ∀ t, Memory.wf t → Memory.wf (f t))
    (h : Memory.wf s) : Memory.wf (hostAccess fn f s) := by
  unfold hostAccess
  (repeat' split) <;> (try simp only [↓emit_wf]) <;> first | assumption | exact hf _ h

theorem qpError_wf (fn : FnNo) (qp : QpNo) (s : State) : Memory.wf (qpError fn qp s) ↔ Memory.wf s :=
  wf_congr fun _ => by apply qpError_only <;> decide

theorem evqError_wf (fn : FnNo) (s : State) : Memory.wf (evqError fn s) ↔ Memory.wf s :=
  wf_congr fun _ => by apply evqError_only <;> decide

theorem disableQueue_wf (fn : FnNo) (qp : QpNo) (s : State) : Memory.wf (disableQueue fn qp s) ↔ Memory.wf s :=
  wf_congr fun _ => by apply disableQueue_only <;> decide

theorem writeSqSize_wf (fn : FnNo) (qp : QpNo) (v : W32) (s : State) : Memory.wf (writeSqSize fn qp v s) ↔ Memory.wf s :=
  wf_congr fun _ => by apply writeSqSize_only <;> decide

theorem writeTail_wf (fn : FnNo) (qp : QpNo) (v : W32) (s : State) : Memory.wf (writeTail fn qp v s) ↔ Memory.wf s :=
  wf_congr fun _ => by apply writeTail_only <;> decide

theorem writeCqHead_wf (fn : FnNo) (qp : QpNo) (v : W32) (s : State) : Memory.wf (writeCqHead fn qp v s) ↔ Memory.wf s :=
  wf_congr fun _ => by apply writeCqHead_only <;> decide

theorem ringError_wf (fn : FnNo) (qp : QpNo) (s : State) : Memory.wf (ringError fn qp s) ↔ Memory.wf s :=
  wf_congr fun _ => by apply ringError_only <;> decide

theorem writeEvqLo_wf (fn : FnNo) (v : W32) (s : State) : Memory.wf (writeEvqLo fn v s) ↔ Memory.wf s :=
  wf_congr fun _ => by apply writeEvqLo_only <;> decide

theorem writeEvqHead_wf (fn : FnNo) (v : W32) (s : State) : Memory.wf (writeEvqHead fn v s) ↔ Memory.wf s :=
  wf_congr fun _ => by apply writeEvqHead_only <;> decide

theorem writeMsix_wf (fn : FnNo) (k : Fin 64) (w : Nat) (v : W32) (s : State) : Memory.wf (writeMsix fn k w v s) ↔ Memory.wf s :=
  wf_congr fun _ => by apply writeMsix_only <;> decide

theorem writeSupplyStatus_wf (v : W32) (s : State) : Memory.wf (writeSupplyStatus v s) ↔ Memory.wf s :=
  wf_congr fun _ => by apply writeSupplyStatus_only <;> decide

theorem bar0Write_wf (fn : FnNo) (off : Nat) (v : W32) (s : State) : Memory.wf (bar0Write fn off v s) ↔ Memory.wf s :=
  wf_congr fun _ => by apply bar0Write_only <;> decide

theorem refuseAccess_wf (fn : FnNo) (write : Bool) (s : State) : Memory.wf (refuseAccess fn write s) ↔ Memory.wf s :=
  wf_congr fun _ => by apply refuseAccess_only <;> decide

theorem resetFunc_wf (fn : FnNo) (s : State) : Memory.wf (resetFunc fn s) ↔ Memory.wf s :=
  wf_congr fun _ => by apply resetFunc_only <;> decide

/-! ### HostRegs -/

theorem readTickLo_wf (fn : FnNo) (s : State) : Memory.wf (readTickLo fn s) ↔ Memory.wf s :=
  wf_congr fun _ => by apply readTickLo_only <;> decide

theorem execHifIntCause_wf {t : State} {fn : FnNo} {value : W32} {s : State}
    (e : execHifIntCause fn value s = .next t) (h : Memory.wf s) : Memory.wf t :=
  (wf_congr fun _ => by apply execHifIntCause_only e <;> decide).2 h

theorem execHifIntMask_wf {t : State} {fn : FnNo} {value : W32} {s : State}
    (e : execHifIntMask fn value s = .next t) (h : Memory.wf s) : Memory.wf t :=
  (wf_congr fun _ => by apply execHifIntMask_only e <;> decide).2 h

theorem execHifTickLo_wf {t : State} {fn : FnNo} {s : State}
    (e : execHifTickLo fn s = .next t) (h : Memory.wf s) : Memory.wf t :=
  (wf_congr fun _ => by apply execHifTickLo_only e <;> decide).2 h

theorem execQueuePairEnable_wf {t : State} {fn : FnNo} {qp : QpNo} {value : W32} {s : State}
    (e : execQueuePairEnable fn qp value s = .next t) (h : Memory.wf s) : Memory.wf t :=
  (wf_congr fun _ => by apply execQueuePairEnable_only e <;> decide).2 h

theorem execQueuePairDisable_wf {t : State} {fn : FnNo} {qp : QpNo} {value : W32} {s : State}
    (e : execQueuePairDisable fn qp value s = .next t) (h : Memory.wf s) : Memory.wf t :=
  (wf_congr fun _ => by apply execQueuePairDisable_only e <;> decide).2 h

theorem execEvqEnable_wf {t : State} {fn : FnNo} {value : W32} {s : State}
    (e : execEvqEnable fn value s = .next t) (h : Memory.wf s) : Memory.wf t :=
  (wf_congr fun _ => by apply execEvqEnable_only e <;> decide).2 h

theorem execEvqDisable_wf {t : State} {fn : FnNo} {value : W32} {s : State}
    (e : execEvqDisable fn value s = .next t) (h : Memory.wf s) : Memory.wf t :=
  (wf_congr fun _ => by apply execEvqDisable_only e <;> decide).2 h

theorem execDoorbell_wf {t : State} {fn : FnNo} {qp : QpNo} {value : W32} {s : State}
    (e : execDoorbell fn qp value s = .next t) (h : Memory.wf s) : Memory.wf t :=
  (wf_congr fun _ => by apply execDoorbell_only e <;> decide).2 h

theorem execHifCqnHead_wf {t : State} {fn : FnNo} {qp : QpNo} {value : W32} {s : State}
    (e : execHifCqnHead fn qp value s = .next t) (h : Memory.wf s) : Memory.wf t :=
  (wf_congr fun _ => by apply execHifCqnHead_only e <;> decide).2 h

theorem execHifEvqHead_wf {t : State} {fn : FnNo} {value : W32} {s : State}
    (e : execHifEvqHead fn value s = .next t) (h : Memory.wf s) : Memory.wf t :=
  (wf_congr fun _ => by apply execHifEvqHead_only e <;> decide).2 h

theorem execRingReadError_wf {t : State} {fn : FnNo} {qp : QpNo} {s : State}
    (e : execRingReadError fn qp s = .next t) (h : Memory.wf s) : Memory.wf t :=
  (wf_congr fun _ => by apply execRingReadError_only e <;> decide).2 h

theorem execHifSupplyStatus_wf {t : State} {value : W32} {s : State}
    (e : execHifSupplyStatus value s = .next t) (h : Memory.wf s) : Memory.wf t :=
  (wf_congr fun _ => by apply execHifSupplyStatus_only e <;> decide).2 h

theorem execRegisterWrite_wf {t : State} {fn : FnNo} {offset : BitVec 16} {wide : Bool} {value : W64} {s : State}
    (e : execRegisterWrite fn offset wide value s = .next t) (h : Memory.wf s) : Memory.wf t :=
  (wf_congr fun _ => by apply execRegisterWrite_only e <;> decide).2 h

theorem execMsixFunctionMask_wf {t : State} {fn : FnNo} {mask : Bool} {s : State}
    (e : execMsixFunctionMask fn mask s = .next t) (h : Memory.wf s) : Memory.wf t :=
  (wf_congr fun _ => by apply execMsixFunctionMask_only e <;> decide).2 h

/-! ### Service -/

theorem drainLane_wf (s : State) (l : LaneNo) (id : Nat) (h : Memory.wf s) : Memory.wf (State.drainLane s l id) := by
  unfold State.drainLane
  repeat' (first | with_reducible assumption | (simp only [↓beginChange_wf, ↓fenceLane_wf, ↓completeOk_wf, ↓unitFailed_wf, ↓modPort_wf]) | (with_reducible apply laneLost_wf) | (with_reducible apply laneFailBy_wf) | (with_reducible apply foldl_fst_wf) | (with_reducible apply foldl_wf) | intro _ | (with_reducible apply ite_wf) | split | dsimp only)

theorem fenceWork_wf (p : Packet) (id : Nat) (s : State) (h : Memory.wf s) : Memory.wf (fenceWork p id s) := by
  unfold fenceWork
  repeat' (first | with_reducible assumption | (simp only [↓completeOk_wf, ↓modUnit_wf]) | (with_reducible apply fenceUnit_wf) | (with_reducible apply cutStep_wf) | (with_reducible apply drainLane_wf) | (with_reducible apply laneFailBy_wf) | (with_reducible apply foldl_fst_wf) | (with_reducible apply foldl_wf) | intro _ | (with_reducible apply ite_wf) | split | dsimp only)

theorem drainEnds_wf (unit : W16) (s : State) (h : Memory.wf s) : Memory.wf (drainEnds unit s) := by
  unfold drainEnds
  repeat' (first | with_reducible assumption | (simp only [↓modUnit_wf, ↓completeOk_wf]) | (with_reducible apply cutStep_wf) | (with_reducible apply foldl_fst_wf) | (with_reducible apply foldl_wf) | intro _ | (with_reducible apply ite_wf) | split | dsimp only)

theorem selftestWork_wf (p : Packet) (id : Nat) (s : State) : Memory.wf (selftestWork p id s) ↔ Memory.wf s :=
  wf_congr fun _ => by apply selftestWork_only <;> decide

theorem selftestEnds_wf (unit : W16) (code : W16) (s : State) : Memory.wf (selftestEnds unit code s) ↔ Memory.wf s :=
  wf_congr fun _ => by apply selftestEnds_only <;> decide

theorem returnWork_wf (p : Packet) (s : State) (h : Memory.wf s) : Memory.wf (returnWork p s).1 := by
  unfold returnWork
  repeat' (first | with_reducible assumption | (with_reducible apply noteReturn_wf) | (with_reducible apply returnUnit_wf) | (with_reducible apply foldl_fst_wf) | (with_reducible apply foldl_wf) | intro _ | (with_reducible apply ite_wf) | split | dsimp only)

theorem remapWork_wf (p : Packet) (id : Nat) (s : State) : Memory.wf (remapWork p id s) ↔ Memory.wf s :=
  wf_congr fun _ => by apply remapWork_only <;> decide

theorem moveCluster_wf (s : State) (l : LogNo) (old new : PhysNo) (h : Memory.wf s) : Memory.wf (s.moveCluster l old new) := by
  have g := zeroCluster_wf _ old (mapTo_wf _ l new h)
  exact ⟨g.1, g.2.1, vmod_forall (P := fun m => memWf 0 m = true) _ _ _ g.2.2.1 (h.2.2.1 _), g.2.2.2⟩

theorem remapSwitch_wf (s : State) (h : Memory.wf s) : Memory.wf (remapSwitch s) := by
  unfold remapSwitch
  repeat' (first | with_reducible assumption | (simp only [↓complete_wf, ↓fault_wf, ↓completeOk_wf, ↓upd_remaps_wf]) | (with_reducible apply moveCluster_wf) | (with_reducible apply recordSystem_wf) | (with_reducible apply foldl_fst_wf) | (with_reducible apply foldl_wf) | intro _ | (with_reducible apply ite_wf) | split | dsimp only)

theorem logReadEnds_wf (fail : Option W64) (s : State) : Memory.wf (logReadEnds fail s) ↔ Memory.wf s :=
  wf_congr fun _ => by apply logReadEnds_only <;> decide

theorem holdUnit_wf (s : State) (u : Unit_) (h : Memory.wf s) : Memory.wf (State.holdUnit s u) := by
  unfold State.holdUnit
  repeat' (first | with_reducible assumption | (simp only [↓modUnit_wf, ↓lapse_wf, ↓moveContexts_wf, ↓completeOk_wf]) | (with_reducible apply loseCluster_wf) | (with_reducible apply toDisabled_wf) | (with_reducible apply endRequests_wf) | (with_reducible apply foldl_fst_wf) | (with_reducible apply foldl_wf) | intro _ | (with_reducible apply ite_wf) | split | dsimp only)

theorem pllLost_wf (pll : Nat) (s : State) (h : Memory.wf s) : Memory.wf (pllLost pll s) := by
  unfold pllLost
  repeat' (first | with_reducible assumption | (simp only [↓upd_boot_wf]) | (with_reducible apply holdUnit_wf) | (with_reducible apply forEach_wf) | (with_reducible apply foldl_fst_wf) | (with_reducible apply foldl_wf) | intro _ | (with_reducible apply ite_wf) | split | dsimp only)

theorem pllBack_wf (pll : Nat) (s : State) (h : Memory.wf s) : Memory.wf (pllBack pll s) := by
  unfold pllBack
  repeat' (first | with_reducible assumption | (simp only [↓fenceLapseEnds_wf, ↓modUnit_wf, ↓upd_boot_wf]) | (with_reducible apply returnUnit_wf) | (with_reducible apply forEach_wf) | (with_reducible apply foldl_fst_wf) | (with_reducible apply foldl_wf) | intro _ | (with_reducible apply ite_wf) | split | dsimp only)

theorem pllGone_wf (pll : Nat) (s : State) (h : Memory.wf s) : Memory.wf (pllGone pll s) := by
  unfold pllGone
  repeat' (first | with_reducible assumption | (simp only [↓upd_boot_wf]) | (with_reducible apply cutStep_wf) | (with_reducible apply fenceUnit_wf) | (with_reducible apply failUnit_wf) | (with_reducible apply forEach_wf) | (with_reducible apply foldl_fst_wf) | (with_reducible apply foldl_wf) | intro _ | (with_reducible apply ite_wf) | split | dsimp only)

theorem poicaReferenceLost_wf (pll : Bool) (s : State) (h : Memory.wf s) : Memory.wf (poicaReferenceLost pll s) := by
  unfold poicaReferenceLost
  repeat' (first | with_reducible assumption | (simp only [↓fault_wf, ↓modUnit_wf, ↓lapse_wf, ↓upd_boot_wf]) | (with_reducible apply enterRetrain_wf) | (with_reducible apply forEach_wf) | (with_reducible apply foldl_fst_wf) | (with_reducible apply foldl_wf) | intro _ | (with_reducible apply ite_wf) | split | dsimp only)

theorem execUnitFence_wf {t : State} {fn : FnNo} {qp : QpNo} {pkt : Packet} {s : State}
    (e : execUnitFence fn qp pkt s = .next t) (h : Memory.wf s) : Memory.wf t := by
  injection e with e; subst e
  repeat' (first | with_reducible assumption | (simp only [↓longCommand_wf]) | (with_reducible apply fenceWork_wf) | (with_reducible apply foldl_fst_wf) | (with_reducible apply foldl_wf) | (with_reducible apply longCommand_wf) | intro _ | (with_reducible apply ite_wf) | split | dsimp only)

theorem execDrainEnd_wf {t : State} {unit : W16} {s : State}
    (e : execDrainEnd unit s = .next t) (h : Memory.wf s) : Memory.wf t := by
  injection e with e; subst e
  repeat' (first | with_reducible assumption | (with_reducible apply drainEnds_wf) | (with_reducible apply foldl_fst_wf) | (with_reducible apply foldl_wf) | intro _ | (with_reducible apply ite_wf) | split | dsimp only)

theorem execUnitSelftest_wf {t : State} {fn : FnNo} {qp : QpNo} {pkt : Packet} {s : State}
    (e : execUnitSelftest fn qp pkt s = .next t) (h : Memory.wf s) : Memory.wf t :=
  (wf_congr fun _ => by apply execUnitSelftest_only e <;> decide).2 h

theorem execUnitSelftestComplete_wf {t : State} {unit : W16} {code : W16} {s : State}
    (e : execUnitSelftestComplete unit code s = .next t) (h : Memory.wf s) : Memory.wf t :=
  (wf_congr fun _ => by apply execUnitSelftestComplete_only e <;> decide).2 h

theorem execUnitReturn_wf {t : State} {fn : FnNo} {qp : QpNo} {pkt : Packet} {s : State}
    (e : execUnitReturn fn qp pkt s = .next t) (h : Memory.wf s) : Memory.wf t := by
  injection e with e; subst e
  repeat' (first | with_reducible assumption | (simp only [↓shortCommand_wf]) | (with_reducible apply returnWork_wf) | (with_reducible apply foldl_fst_wf) | (with_reducible apply foldl_wf) | (with_reducible apply shortCommand_wf) | intro _ | (with_reducible apply ite_wf) | split | dsimp only)

theorem execClusterRemap_wf {t : State} {fn : FnNo} {qp : QpNo} {pkt : Packet} {s : State}
    (e : execClusterRemap fn qp pkt s = .next t) (h : Memory.wf s) : Memory.wf t :=
  (wf_congr fun _ => by apply execClusterRemap_only e <;> decide).2 h

theorem execClusterRemapSwitch_wf {t : State} {s : State}
    (e : execClusterRemapSwitch s = .next t) (h : Memory.wf s) : Memory.wf t := by
  injection e with e; subst e
  repeat' (first | with_reducible assumption | (with_reducible apply remapSwitch_wf) | (with_reducible apply foldl_fst_wf) | (with_reducible apply foldl_wf) | intro _ | (with_reducible apply ite_wf) | split | dsimp only)

theorem execFaultLogRead_wf {t : State} {fn : FnNo} {qp : QpNo} {pkt : Packet} {s : State}
    (e : execFaultLogRead fn qp pkt s = .next t) (h : Memory.wf s) : Memory.wf t :=
  (wf_congr fun _ => by apply execFaultLogRead_only e <;> decide).2 h

theorem execFaultLogReadComplete_wf {t : State} {fail : Option W64} {s : State}
    (e : execFaultLogReadComplete fail s = .next t) (h : Memory.wf s) : Memory.wf t :=
  (wf_congr fun _ => by apply execFaultLogReadComplete_only e <;> decide).2 h

theorem execUnitFault_wf {t : State} {unit : W16} {cause : BitVec 8} {detail : BitVec 224} {s : State}
    (e : execUnitFault unit cause detail s = .next t) (h : Memory.wf s) : Memory.wf t := by
  injection e with e; subst e
  repeat' (first | with_reducible assumption | (with_reducible apply failUnit_wf) | (with_reducible apply foldl_fst_wf) | (with_reducible apply foldl_wf) | intro _ | (with_reducible apply ite_wf) | split | dsimp only)

theorem execRequestOpenTimeout_wf {t : State} {unit : W16} {s : State}
    (e : execRequestOpenTimeout unit s = .next t) (h : Memory.wf s) : Memory.wf t := by
  injection e with e; subst e
  repeat' (first | with_reducible assumption | (with_reducible apply failUnit_wf) | (with_reducible apply foldl_fst_wf) | (with_reducible apply foldl_wf) | intro _ | (with_reducible apply ite_wf) | split | dsimp only)

theorem execMalformedReply_wf {t : State} {unit : W16} {reply : BadReply} {s : State}
    (e : execMalformedReply unit reply s = .next t) (h : Memory.wf s) : Memory.wf t := by
  injection e with e; subst e
  repeat' (first | with_reducible assumption | (with_reducible apply failUnit_wf) | (with_reducible apply foldl_fst_wf) | (with_reducible apply foldl_wf) | intro _ | (with_reducible apply ite_wf) | split | dsimp only)

theorem execPllOutOfLock_wf {t : State} {pll : Nat} {s : State}
    (e : execPllOutOfLock pll s = .next t) (h : Memory.wf s) : Memory.wf t := by
  injection e with e; subst e
  repeat' (first | with_reducible assumption | (with_reducible apply pllLost_wf) | (with_reducible apply foldl_fst_wf) | (with_reducible apply foldl_wf) | intro _ | (with_reducible apply ite_wf) | split | dsimp only)

theorem execPllRelocked_wf {t : State} {pll : Nat} {s : State}
    (e : execPllRelocked pll s = .next t) (h : Memory.wf s) : Memory.wf t := by
  injection e with e; subst e
  repeat' (first | with_reducible assumption | (with_reducible apply pllBack_wf) | (with_reducible apply foldl_fst_wf) | (with_reducible apply foldl_wf) | intro _ | (with_reducible apply ite_wf) | split | dsimp only)

theorem execPllRelockTimeout_wf {t : State} {pll : Nat} {s : State}
    (e : execPllRelockTimeout pll s = .next t) (h : Memory.wf s) : Memory.wf t := by
  injection e with e; subst e
  repeat' (first | with_reducible assumption | (with_reducible apply pllGone_wf) | (with_reducible apply foldl_fst_wf) | (with_reducible apply foldl_wf) | intro _ | (with_reducible apply ite_wf) | split | dsimp only)

theorem execPoicaReferenceLost_wf {t : State} {pll : Bool} {s : State}
    (e : execPoicaReferenceLost pll s = .next t) (h : Memory.wf s) : Memory.wf t := by
  injection e with e; subst e
  repeat' (first | with_reducible assumption | (with_reducible apply poicaReferenceLost_wf) | (with_reducible apply foldl_fst_wf) | (with_reducible apply foldl_wf) | intro _ | (with_reducible apply ite_wf) | split | dsimp only)

end Sys2Proof.Machine
end

