-- ==== Sys2Proof/Laws/FormCompute.lean ====
section
/-!
SUPPORT. Each operation of the model keeps the canonical form of every memory: flash, panel, board, channels, programs and what clusters execute.
-/

set_option linter.all false

namespace Sys2Proof.Machine

/-! ### Nv -/

theorem modFlash_wf (s : State) (f : Mem → Mem) (hf : ∀ m, memWf 0xFF m = true → memWf 0xFF (f m) = true)
    (h : Memory.wf s) : Memory.wf (s.modFlash f) := ⟨h.1, h.2.1, h.2.2.1, hf _ h.2.2.2⟩

theorem eraseSector_wf (s : State) (region off : Nat) (h : Memory.wf s) : Memory.wf (s.eraseSector region off) :=
  modFlash_wf _ _ (fun _ hm => memClear_wf _ _ hm) h

theorem programPage_wf (s : State) (region off : Nat) (bytes : List Byte) (h : Memory.wf s) :
    Memory.wf (s.programPage region off bytes) := modFlash_wf _ _ (fun _ hm => programBytes_wf _ _ hm) h

theorem damage_wf (s : State) (region off n : Nat) (h : Memory.wf s) : Memory.wf (s.damage region off n) :=
  modFlash_wf _ _ (fun _ hm => memWriteList_wf _ _ hm) ((draw_wf _).2 h)

theorem mixOld_wf (s : State) (o : NvOp) (m : Nat) (h : Memory.wf s) : Memory.wf (s.mixOld o m) :=
  modFlash_wf _ _ (fun _ hm => memWriteList_wf _ _ hm) ((draw_wf _).2 h)

theorem moveEntry_wf (s : State) (old : Nat) (new : Nat) (h : Memory.wf s) : Memory.wf (State.moveEntry s old new) := by
  unfold State.moveEntry
  repeat' (first | with_reducible assumption | (simp only [↓upd_nv_wf, ↓upd_panel_wf, ↓upd_nv_panel_wf]) | (with_reducible apply foldl_fst_wf) | (with_reducible apply foldl_wf) | intro _ | (with_reducible apply ite_wf) | split | dsimp only)

theorem putEntry_wf (s : State) (e : JEntry) (h : Memory.wf s) : Memory.wf (State.putEntry s e) := by
  unfold State.putEntry
  repeat' (first | with_reducible assumption | (simp only [↓upd_nv_wf]) | (with_reducible apply foldl_fst_wf) | (with_reducible apply foldl_wf) | intro _ | (with_reducible apply ite_wf) | split | dsimp only)

theorem journal_wf (s : State) (e : JEntry) (h : Memory.wf s) : Memory.wf (State.journal s e).1 := by
  unfold State.journal
  repeat' (first | with_reducible assumption | (simp only [↓upd_nv_wf]) | (with_reducible apply putEntry_wf) | (with_reducible apply moveEntry_wf) | (with_reducible apply forEach_wf) | (with_reducible apply foldl_fst_wf) | (with_reducible apply foldl_wf) | intro _ | (with_reducible apply ite_wf) | split | dsimp only)

theorem setDone_wf (s : State) (seq : Nat) (done : BitVec 8) (h : Memory.wf s) : Memory.wf (State.setDone s seq done) := by
  unfold State.setDone
  repeat' (first | with_reducible assumption | (simp only [↓upd_nv_wf]) | (with_reducible apply foldl_fst_wf) | (with_reducible apply foldl_wf) | intro _ | (with_reducible apply ite_wf) | split | dsimp only)

theorem modFront_wf (s : State) (f : NvOp → NvOp) (h : Memory.wf s) : Memory.wf (State.modFront s f) := by
  unfold State.modFront
  repeat' (first | with_reducible assumption | (simp only [↓upd_nv_wf]) | (with_reducible apply foldl_fst_wf) | (with_reducible apply foldl_wf) | intro _ | (with_reducible apply ite_wf) | split | dsimp only)

theorem pauseFront_wf (s : State) (cut : Bool) (h : Memory.wf s) : Memory.wf (State.pauseFront s cut) := by
  unfold State.pauseFront
  repeat' (first | with_reducible assumption | (simp only [↓occur_wf]) | (with_reducible apply modFront_wf) | (with_reducible apply foldl_fst_wf) | (with_reducible apply foldl_wf) | intro _ | (with_reducible apply ite_wf) | split | dsimp only)

theorem beginFront_wf (s : State) (h : Memory.wf s) : Memory.wf (State.beginFront s) := by
  unfold State.beginFront
  repeat' (first | with_reducible assumption | (with_reducible apply modFront_wf) | (with_reducible apply journal_wf) | (with_reducible apply foldl_fst_wf) | (with_reducible apply foldl_wf) | intro _ | (with_reducible apply ite_wf) | split | dsimp only)

theorem finishFront_wf (s : State) (status : W16) (detail : W16) (a3 : W64) (data : BitVec 192) (h : Memory.wf s) : Memory.wf (State.finishFront s status detail a3 data) := by
  unfold State.finishFront
  repeat' (first | with_reducible assumption | (simp only [↓complete_wf, ↓upd_nv_wf]) | (with_reducible apply setDone_wf) | (with_reducible apply foldl_fst_wf) | (with_reducible apply foldl_wf) | intro _ | (with_reducible apply ite_wf) | split | dsimp only)

theorem startNv_wf (host : List Byte) (fail : Option W64) (s : State) (h : Memory.wf s) : Memory.wf (startNv host fail s) := by
  unfold startNv
  repeat' (first | with_reducible assumption | (with_reducible apply modFront_wf) | (with_reducible apply finishFront_wf) | (with_reducible apply beginFront_wf) | (with_reducible apply pauseFront_wf) | (with_reducible apply foldl_fst_wf) | (with_reducible apply foldl_wf) | intro _ | (with_reducible apply ite_wf) | split | dsimp only)

theorem checkStep_wf (s : State) (h : Memory.wf s) : Memory.wf (State.checkStep s) := by
  unfold State.checkStep
  repeat' (first | with_reducible assumption | (with_reducible apply pauseFront_wf) | (with_reducible apply foldl_fst_wf) | (with_reducible apply foldl_wf) | intro _ | (with_reducible apply ite_wf) | split | dsimp only)

theorem doProgram_wf (s : State) (region : Nat) (off : Nat) (b : List Byte) (h : Memory.wf s) : Memory.wf (State.doProgram s region off b) := by
  unfold State.doProgram
  repeat' (first | with_reducible assumption | (simp only [↓stripChanged_wf]) | (with_reducible apply programPage_wf) | (with_reducible apply foldl_fst_wf) | (with_reducible apply foldl_wf) | intro _ | (with_reducible apply ite_wf) | split | dsimp only)

theorem pageDone_wf (mismatch : Option W32) (s : State) (h : Memory.wf s) : Memory.wf (pageDone mismatch s) := by
  unfold pageDone
  repeat' (first | with_reducible assumption | (with_reducible apply modFront_wf) | (with_reducible apply doProgram_wf) | (with_reducible apply finishFront_wf) | (with_reducible apply mixOld_wf) | (with_reducible apply checkStep_wf) | (with_reducible apply foldl_fst_wf) | (with_reducible apply foldl_wf) | intro _ | (with_reducible apply ite_wf) | split | dsimp only)

theorem eraseDone_wf (s : State) (h : Memory.wf s) : Memory.wf (eraseDone s) := by
  unfold eraseDone
  repeat' (first | with_reducible assumption | (with_reducible apply checkStep_wf) | (with_reducible apply modFront_wf) | (with_reducible apply eraseSector_wf) | (with_reducible apply foldl_fst_wf) | (with_reducible apply foldl_wf) | intro _ | (with_reducible apply ite_wf) | split | dsimp only)

theorem stageRead_wf (s : State) (o : NvOp) (mismatch : Option W32) (h : Memory.wf s) : Memory.wf (State.stageRead s o mismatch) := by
  unfold State.stageRead
  repeat' (first | with_reducible assumption | (simp only [↓upd_nv_wf]) | (with_reducible apply finishFront_wf) | (with_reducible apply damage_wf) | (with_reducible apply foldl_fst_wf) | (with_reducible apply foldl_wf) | intro _ | (with_reducible apply ite_wf) | split | dsimp only)

theorem commitRead_wf (s : State) (o : NvOp) (mismatch : Option W32) (h : Memory.wf s) : Memory.wf (State.commitRead s o mismatch) := by
  unfold State.commitRead
  repeat' (first | with_reducible assumption | (simp only [↓upd_nv_wf]) | (with_reducible apply finishFront_wf) | (with_reducible apply damage_wf) | (with_reducible apply foldl_fst_wf) | (with_reducible apply foldl_wf) | intro _ | (with_reducible apply ite_wf) | split | dsimp only)

theorem calRead_wf (s : State) (o : NvOp) (rest : List NvStep) (mismatch : Option W32) (h : Memory.wf s) : Memory.wf (State.calRead s o rest mismatch) := by
  unfold State.calRead
  repeat' (first | with_reducible assumption | (with_reducible apply finishFront_wf) | (with_reducible apply damage_wf) | (with_reducible apply checkStep_wf) | (with_reducible apply modFront_wf) | (with_reducible apply foldl_fst_wf) | (with_reducible apply foldl_wf) | intro _ | (with_reducible apply ite_wf) | split | dsimp only)

theorem readDone_wf (mismatch : Option W32) (fail : Option W64) (s : State) (h : Memory.wf s) : Memory.wf (readDone mismatch fail s) := by
  unfold readDone
  repeat' (first | with_reducible assumption | (simp only [↓hostWrite_wf]) | (with_reducible apply stageRead_wf) | (with_reducible apply commitRead_wf) | (with_reducible apply calRead_wf) | (with_reducible apply finishFront_wf) | (with_reducible apply foldl_fst_wf) | (with_reducible apply foldl_wf) | intro _ | (with_reducible apply ite_wf) | split | dsimp only)

theorem budgeted_wf {x : State × Nat} {f : State → State} (hf : ∀ t, Memory.wf t → Memory.wf (f t))
    (h : Memory.wf x.1) : Memory.wf (State.budgeted x f).1 := by
  unfold State.budgeted; split
  · exact h
  · exact hf _ h

theorem leaveErase_wf (x : State × Nat) (o : NvOp) (region off : Nat) (h : Memory.wf x.1) :
    Memory.wf (State.leaveErase x o region off).1 := by
  unfold State.leaveErase
  dsimp only
  refine budgeted_wf (fun t ht => journal_wf _ _ ht) ?_
  split
  · exact eraseSector_wf _ _ _ ((draw_wf _).2 h)
  · exact (draw_wf _).2 h

theorem dropNv_wf (x : State × Nat) (o : NvOp) (stopped : Nat) (h : Memory.wf x.1) :
    Memory.wf (State.dropNv x o stopped).1 := by
  unfold State.dropNv
  dsimp only
  split
  · exact (upd_nv_wf rfl).2 (budgeted_wf (fun t ht => setDone_wf _ _ _ ht) h)
  · exact (upd_nv_wf rfl).2 h

theorem programNow_wf (o : NvOp) (region : Nat) (off : Nat) (bytes : List Byte) (s : State) (h : Memory.wf s) : Memory.wf (State.programNow o region off bytes s) := by
  unfold State.programNow
  repeat' (first | with_reducible assumption | (simp only [↓upd_nv_wf]) | (with_reducible apply doProgram_wf) | (with_reducible apply foldl_fst_wf) | (with_reducible apply foldl_wf) | intro _ | (with_reducible apply ite_wf) | split | dsimp only)

theorem endNv_wf (x : State × Nat) (o : NvOp) (h : Memory.wf x.1) : Memory.wf (State.endNv x o).1 := by
  unfold State.endNv
  (repeat' split) <;> apply dropNv_wf
  · exact h
  · exact h
  · exact budgeted_wf (fun t ht => programNow_wf _ _ _ _ _ ht) h
  · exact eraseSector_wf _ _ _ h
  · exact h
  · exact leaveErase_wf _ _ _ _ h
  · exact h

theorem endNvs_wf (x : State × Nat) (p : NvOp → Bool) (h : Memory.wf x.1) : Memory.wf (State.endNvs x p).1 := by
  unfold State.endNvs
  suffices g : ∀ (l : List NvOp) (y : State × Nat × Nat), Memory.wf y.1 →
      Memory.wf (l.foldl (fun (y : State × Nat × Nat) o =>
        let z := State.endNv (y.1, y.2.1) o
        (z.1, z.2.1, y.2.2 ||| z.2.2)) y).1 from g _ _ h
  intro l
  induction l with
  | nil => intro y hy; exact hy
  | cons a l ih => intro y hy; rw [List.foldl_cons]; exact ih _ (endNv_wf _ _ hy)

theorem frontTimedOut_wf (s : State) (o : NvOp) (h : Memory.wf s) : Memory.wf (State.frontTimedOut s o) := by
  unfold State.frontTimedOut
  repeat' (first | with_reducible assumption | (simp only [↓complete_wf]) | (with_reducible apply endNv_wf) | (with_reducible apply foldl_fst_wf) | (with_reducible apply foldl_wf) | intro _ | (with_reducible apply ite_wf) | split | dsimp only)

theorem runReerase_wf (s : State) (h : Memory.wf s) : Memory.wf (State.runReerase s) := by
  unfold State.runReerase
  repeat' (first | with_reducible assumption | (simp only [↓upd_nv_wf]) | (with_reducible apply setDone_wf) | (with_reducible apply eraseSector_wf) | (with_reducible apply forEach_wf) | (with_reducible apply foldl_fst_wf) | (with_reducible apply foldl_wf) | intro _ | (with_reducible apply ite_wf) | split | dsimp only)

theorem resumeFront_wf (s : State) (h : Memory.wf s) : Memory.wf (State.resumeFront s) := by
  unfold State.resumeFront
  repeat' (first | with_reducible assumption | (simp only [↓occur_wf]) | (with_reducible apply modFront_wf) | (with_reducible apply beginFront_wf) | (with_reducible apply foldl_fst_wf) | (with_reducible apply foldl_wf) | intro _ | (with_reducible apply ite_wf) | split | dsimp only)

theorem queueNv_wf (s : State) (o : NvOp) (h : Memory.wf s) : Memory.wf (State.queueNv s o) := by
  unfold State.queueNv
  repeat' (first | with_reducible assumption | (simp only [↓upd_nv_wf]) | (with_reducible apply foldl_fst_wf) | (with_reducible apply foldl_wf) | intro _ | (with_reducible apply ite_wf) | split | dsimp only)

theorem execNvOperationStart_wf {t : State} {host : List Byte} {fail : Option W64} {s : State}
    (e : execNvOperationStart host fail s = .next t) (h : Memory.wf s) : Memory.wf t := by
  injection e with e; subst e
  repeat' (first | with_reducible assumption | (with_reducible apply startNv_wf) | (with_reducible apply foldl_fst_wf) | (with_reducible apply foldl_wf) | intro _ | (with_reducible apply ite_wf) | split | dsimp only)

theorem execPageProgramComplete_wf {t : State} {mismatch : Option W32} {s : State}
    (e : execPageProgramComplete mismatch s = .next t) (h : Memory.wf s) : Memory.wf t := by
  injection e with e; subst e
  repeat' (first | with_reducible assumption | (with_reducible apply pageDone_wf) | (with_reducible apply foldl_fst_wf) | (with_reducible apply foldl_wf) | intro _ | (with_reducible apply ite_wf) | split | dsimp only)

theorem execSectorEraseComplete_wf {t : State} {s : State}
    (e : execSectorEraseComplete s = .next t) (h : Memory.wf s) : Memory.wf t := by
  injection e with e; subst e
  repeat' (first | with_reducible assumption | (with_reducible apply eraseDone_wf) | (with_reducible apply foldl_fst_wf) | (with_reducible apply foldl_wf) | intro _ | (with_reducible apply ite_wf) | split | dsimp only)

theorem execFlashReadComplete_wf {t : State} {mismatch : Option W32} {fail : Option W64} {s : State}
    (e : execFlashReadComplete mismatch fail s = .next t) (h : Memory.wf s) : Memory.wf t := by
  injection e with e; subst e
  repeat' (first | with_reducible assumption | (with_reducible apply readDone_wf) | (with_reducible apply foldl_fst_wf) | (with_reducible apply foldl_wf) | intro _ | (with_reducible apply ite_wf) | split | dsimp only)

theorem execNvRead_wf {t : State} {fn : FnNo} {qp : QpNo} {pkt : Packet} {s : State}
    (e : execNvRead fn qp pkt s = .next t) (h : Memory.wf s) : Memory.wf t := by
  injection e with e; subst e
  repeat' (first | with_reducible assumption | (simp only [↓longCommand_wf]) | (with_reducible apply queueNv_wf) | (with_reducible apply foldl_fst_wf) | (with_reducible apply foldl_wf) | (with_reducible apply longCommand_wf) | intro _ | (with_reducible apply ite_wf) | split | dsimp only)

theorem execNvWrite_wf {t : State} {fn : FnNo} {qp : QpNo} {pkt : Packet} {s : State}
    (e : execNvWrite fn qp pkt s = .next t) (h : Memory.wf s) : Memory.wf t := by
  injection e with e; subst e
  repeat' (first | with_reducible assumption | (simp only [↓longCommand_wf]) | (with_reducible apply queueNv_wf) | (with_reducible apply foldl_fst_wf) | (with_reducible apply foldl_wf) | (with_reducible apply longCommand_wf) | intro _ | (with_reducible apply ite_wf) | split | dsimp only)

theorem execFwStage_wf {t : State} {fn : FnNo} {qp : QpNo} {pkt : Packet} {s : State}
    (e : execFwStage fn qp pkt s = .next t) (h : Memory.wf s) : Memory.wf t := by
  injection e with e; subst e
  repeat' (first | with_reducible assumption | (simp only [↓longCommand_wf, ↓upd_nv_wf]) | (with_reducible apply queueNv_wf) | (with_reducible apply foldl_fst_wf) | (with_reducible apply foldl_wf) | (with_reducible apply longCommand_wf) | intro _ | (with_reducible apply ite_wf) | split | dsimp only)

theorem execFwCommit_wf {t : State} {fn : FnNo} {qp : QpNo} {pkt : Packet} {s : State}
    (e : execFwCommit fn qp pkt s = .next t) (h : Memory.wf s) : Memory.wf t := by
  injection e with e; subst e
  repeat' (first | with_reducible assumption | (simp only [↓longCommand_wf]) | (with_reducible apply queueNv_wf) | (with_reducible apply foldl_fst_wf) | (with_reducible apply foldl_wf) | (with_reducible apply longCommand_wf) | intro _ | (with_reducible apply ite_wf) | split | dsimp only)

theorem execCalStore_wf {t : State} {fn : FnNo} {qp : QpNo} {pkt : Packet} {s : State}
    (e : execCalStore fn qp pkt s = .next t) (h : Memory.wf s) : Memory.wf t := by
  injection e with e; subst e
  repeat' (first | with_reducible assumption | (simp only [↓longCommand_wf]) | (with_reducible apply queueNv_wf) | (with_reducible apply foldl_fst_wf) | (with_reducible apply foldl_wf) | (with_reducible apply longCommand_wf) | intro _ | (with_reducible apply ite_wf) | split | dsimp only)

/-! ### Panel -/

theorem storeImage_wf (s : State) (off : Nat) (px : BitVec 23680) (h : Memory.wf s) : Memory.wf (State.storeImage s off px) := by
  unfold State.storeImage
  repeat' (first | with_reducible assumption | (simp only [↓draw_wf]) | (with_reducible apply programPage_wf) | (with_reducible apply eraseSector_wf) | (with_reducible apply foldl_fst_wf) | (with_reducible apply foldl_wf) | intro _ | (with_reducible apply ite_wf) | split | dsimp only)

theorem modPanel_wf (s : State) (f : Panel → Panel) : Memory.wf (State.modPanel s f) ↔ Memory.wf s :=
  wf_congr fun _ => by apply modPanel_only <;> decide

theorem beginRefresh_wf (s : State) (px : BitVec 23680) (opcode : BitVec 8) (ref : Nat) (h : Memory.wf s) : Memory.wf (State.beginRefresh s px opcode ref) := by
  unfold State.beginRefresh
  repeat' (first | with_reducible assumption | (simp only [↓emit_wf, ↓modPanel_wf]) | (with_reducible apply storeImage_wf) | (with_reducible apply journal_wf) | (with_reducible apply foldl_fst_wf) | (with_reducible apply foldl_wf) | intro _ | (with_reducible apply ite_wf) | split | dsimp only)

theorem carryDraws_wf (s : State) : Memory.wf (State.carryDraws s) ↔ Memory.wf s :=
  wf_congr fun _ => by apply carryDraws_only <;> decide

theorem pauseDraws_wf (s : State) (p : Draw → Bool) : Memory.wf (State.pauseDraws s p) ↔ Memory.wf s :=
  wf_congr fun _ => by apply pauseDraws_only <;> decide

theorem resumeDraws_wf (s : State) : Memory.wf (State.resumeDraws s) ↔ Memory.wf s :=
  wf_congr fun _ => by apply resumeDraws_only <;> decide

theorem startRefresh_wf (s : State) (h : Memory.wf s) : Memory.wf (startRefresh s) := by
  unfold startRefresh
  repeat' (first | with_reducible assumption | (simp only [↓resumeDraws_wf, ↓modPanel_wf, ↓pauseDraws_wf, ↓carryDraws_wf]) | (with_reducible apply beginRefresh_wf) | (with_reducible apply foldl_fst_wf) | (with_reducible apply foldl_wf) | intro _ | (with_reducible apply ite_wf) | split | dsimp only)

theorem identityTimer_wf (s : State) (h : Memory.wf s) : Memory.wf (identityTimer s) := by
  unfold identityTimer
  repeat' (first | with_reducible assumption | (simp only [↓modPanel_wf, ↓reach_wf]) | (with_reducible apply startRefresh_wf) | (with_reducible apply foldl_fst_wf) | (with_reducible apply foldl_wf) | intro _ | (with_reducible apply ite_wf) | split | dsimp only)

theorem refreshDone_wf (s : State) (r : Refresh) (h : Memory.wf s) : Memory.wf (State.refreshDone s r) := by
  unfold State.refreshDone
  repeat' (first | with_reducible assumption | (simp only [↓modPanel_wf, ↓raise_wf, ↓occurAll_wf, ↓completeOk_wf]) | (with_reducible apply setDone_wf) | (with_reducible apply forEach_wf) | (with_reducible apply foldl_fst_wf) | (with_reducible apply foldl_wf) | intro _ | (with_reducible apply ite_wf) | split | dsimp only)

theorem refreshStopped_wf (s : State) (r : Refresh) (h : Memory.wf s) : Memory.wf (State.refreshStopped s r) := by
  unfold State.refreshStopped
  repeat' (first | with_reducible assumption | (simp only [↓modPanel_wf, ↓pauseDraws_wf, ↓occurAll_wf, ↓raise_wf]) | (with_reducible apply setDone_wf) | (with_reducible apply foldl_fst_wf) | (with_reducible apply foldl_wf) | intro _ | (with_reducible apply ite_wf) | split | dsimp only)

theorem phaseEnds_wf (s : State) (h : Memory.wf s) : Memory.wf (phaseEnds s) := by
  unfold phaseEnds
  repeat' (first | with_reducible assumption | (simp only [↓emit_wf, ↓modPanel_wf]) | (with_reducible apply refreshStopped_wf) | (with_reducible apply refreshDone_wf) | (with_reducible apply foldl_fst_wf) | (with_reducible apply foldl_wf) | intro _ | (with_reducible apply ite_wf) | split | dsimp only)

theorem stopRefresh_wf (s : State) : Memory.wf (State.stopRefresh s) ↔ Memory.wf s :=
  wf_congr fun _ => by apply stopRefresh_only <;> decide

theorem drawTimedOut_wf (s : State) (d : Draw) : Memory.wf (State.drawTimedOut s d) ↔ Memory.wf s :=
  wf_congr fun _ => by apply drawTimedOut_only <;> decide

theorem queueDraw_wf (fn : FnNo) (qp : QpNo) (p : Packet) (host : List Byte) (fail : Option W64) (id : Nat) (s : State) : Memory.wf (queueDraw fn qp p host fail id s) ↔ Memory.wf s :=
  wf_congr fun _ => by apply queueDraw_only <;> decide

theorem execPanelRefreshStart_wf {t : State} {s : State}
    (e : execPanelRefreshStart s = .next t) (h : Memory.wf s) : Memory.wf t := by
  injection e with e; subst e
  repeat' (first | with_reducible assumption | (with_reducible apply startRefresh_wf) | (with_reducible apply foldl_fst_wf) | (with_reducible apply foldl_wf) | intro _ | (with_reducible apply ite_wf) | split | dsimp only)

theorem execIdentityChangeTimer_wf {t : State} {s : State}
    (e : execIdentityChangeTimer s = .next t) (h : Memory.wf s) : Memory.wf t := by
  injection e with e; subst e
  repeat' (first | with_reducible assumption | (with_reducible apply identityTimer_wf) | (with_reducible apply foldl_fst_wf) | (with_reducible apply foldl_wf) | intro _ | (with_reducible apply ite_wf) | split | dsimp only)

theorem execWaveformPhaseEnd_wf {t : State} {s : State}
    (e : execWaveformPhaseEnd s = .next t) (h : Memory.wf s) : Memory.wf t := by
  injection e with e; subst e
  repeat' (first | with_reducible assumption | (with_reducible apply phaseEnds_wf) | (with_reducible apply foldl_fst_wf) | (with_reducible apply foldl_wf) | intro _ | (with_reducible apply ite_wf) | split | dsimp only)

theorem execPanelDraw_wf {t : State} {fn : FnNo} {qp : QpNo} {pkt : Packet} {host : List Byte} {fail : Option W64} {s : State}
    (e : execPanelDraw fn qp pkt host fail s = .next t) (h : Memory.wf s) : Memory.wf t :=
  (wf_congr fun _ => by apply execPanelDraw_only e <;> decide).2 h

theorem execPanelStatus_wf {t : State} {fn : FnNo} {qp : QpNo} {pkt : Packet} {s : State}
    (e : execPanelStatus fn qp pkt s = .next t) (h : Memory.wf s) : Memory.wf t :=
  (wf_congr fun _ => by apply execPanelStatus_only e <;> decide).2 h

/-! ### Access -/

theorem bar2Read_wf (fn : FnNo) (o : Nat) (n : Nat) (found : Ecc) (s : State) (h : Memory.wf s) : Memory.wf (bar2Read fn o n found s) := by
  unfold bar2Read
  repeat' (first | with_reducible assumption | (simp only [↓emit_wf, ↓raise_wf]) | (with_reducible apply foundAt_wf) | (with_reducible apply foldl_fst_wf) | (with_reducible apply foldl_wf) | intro _ | (with_reducible apply ite_wf) | split | dsimp only)

theorem bar2Write_wf (fn : FnNo) (o : Nat) (b : List Byte) (s : State) (h : Memory.wf s) : Memory.wf (bar2Write fn o b s) := by
  unfold bar2Write
  repeat' (first | with_reducible assumption | (simp only [↓raise_wf]) | (with_reducible apply viewWrite_wf) | (with_reducible apply foldl_fst_wf) | (with_reducible apply foldl_wf) | intro _ | (with_reducible apply ite_wf) | split | dsimp only)

theorem bar0Read_wf (fn : FnNo) (off : Nat) (size : Nat) (s : State) : Memory.wf (bar0Read fn off size s) ↔ Memory.wf s :=
  wf_congr fun _ => by apply bar0Read_only <;> decide

theorem execBar2Read_wf {t : State} {fn : FnNo} {offset : W32} {size : Nat} {found : Ecc} {s : State}
    (e : execBar2Read fn offset size found s = .next t) (h : Memory.wf s) : Memory.wf t := by
  injection e with e; subst e
  repeat' (first | with_reducible assumption | (simp only [↓hostAccess_wf]) | (with_reducible apply bar2Read_wf) | (with_reducible apply foldl_fst_wf) | (with_reducible apply foldl_wf) | (with_reducible apply hostAccess_wf) | intro _ | (with_reducible apply ite_wf) | split | dsimp only)

theorem execBar2Write_wf {t : State} {fn : FnNo} {offset : W32} {bytes : List Byte} {s : State}
    (e : execBar2Write fn offset bytes s = .next t) (h : Memory.wf s) : Memory.wf t := by
  injection e with e; subst e
  repeat' (first | with_reducible assumption | (simp only [↓hostAccess_wf]) | (with_reducible apply bar2Write_wf) | (with_reducible apply foldl_fst_wf) | (with_reducible apply foldl_wf) | (with_reducible apply hostAccess_wf) | intro _ | (with_reducible apply ite_wf) | split | dsimp only)

theorem execAccessErr_wf {t : State} {fn : FnNo} {write : Bool} {offset : BitVec 16} {size : Nat} {s : State}
    (e : execAccessErr fn write offset size s = .next t) (h : Memory.wf s) : Memory.wf t :=
  (wf_congr fun _ => by apply execAccessErr_only e <;> decide).2 h

theorem execUnlistedOpcode_wf {t : State} {fn : FnNo} {qp : QpNo} {opcode : BitVec 8} {pkt : Packet} {s : State}
    (e : execUnlistedOpcode fn qp opcode pkt s = .next t) (h : Memory.wf s) : Memory.wf t :=
  (wf_congr fun _ => by apply execUnlistedOpcode_only e <;> decide).2 h

theorem execCancelledCommand_wf {t : State} {fn : FnNo} {qp : QpNo} {opcode : BitVec 8} {pkt : Packet} {s : State}
    (e : execCancelledCommand fn qp opcode pkt s = .next t) (h : Memory.wf s) : Memory.wf t :=
  (wf_congr fun _ => by apply execCancelledCommand_only e <;> decide).2 h

/-! ### Board -/

theorem jtagLoad_wf (s : State) (code : BitVec 8) (act : BitVec 8) (v : Option W32) : Memory.wf (State.jtagLoad s code act v) ↔ Memory.wf s :=
  wf_congr fun _ => by apply jtagLoad_only <;> decide

theorem bypassAs_wf (code : BitVec 8) (s : State) : Memory.wf (bypassAs code s) ↔ Memory.wf s :=
  wf_congr fun _ => by apply bypassAs_only <;> decide

theorem debugRefused_wf (s : State) (trace : Bool) : Memory.wf (State.debugRefused s trace) ↔ Memory.wf s :=
  wf_congr fun _ => by apply debugRefused_only <;> decide

theorem setCage_wf (s : State) (c : Fin 4) (v : Option Tick) : Memory.wf (State.setCage s c v) ↔ Memory.wf s :=
  wf_congr fun _ => by apply setCage_only <;> decide

theorem cageTrips_wf (c : Fin 4) (s : State) : Memory.wf (cageTrips c s) ↔ Memory.wf s :=
  wf_congr fun _ => by apply cageTrips_only <;> decide

theorem cageRetries_wf (c : Fin 4) (s : State) : Memory.wf (cageRetries c s) ↔ Memory.wf s :=
  wf_congr fun _ => by apply cageRetries_only <;> decide

theorem execBypass_wf {t : State} {code : BitVec 8} {s : State}
    (e : execBypass code s = .next t) (h : Memory.wf s) : Memory.wf t :=
  (wf_congr fun _ => by apply execBypass_only e <;> decide).2 h

theorem execIdcode_wf {t : State} {s : State}
    (e : execIdcode s = .next t) (h : Memory.wf s) : Memory.wf t :=
  (wf_congr fun _ => by apply execIdcode_only e <;> decide).2 h

theorem execSamplePreload_wf {t : State} {s : State}
    (e : execSamplePreload s = .next t) (h : Memory.wf s) : Memory.wf t :=
  (wf_congr fun _ => by apply execSamplePreload_only e <;> decide).2 h

theorem execExtest_wf {t : State} {s : State}
    (e : execExtest s = .next t) (h : Memory.wf s) : Memory.wf t :=
  (wf_congr fun _ => by apply execExtest_only e <;> decide).2 h

theorem execPrivateDebug_wf {t : State} {ins : PrivateIns} {s : State}
    (e : execPrivateDebug ins s = .next t) (h : Memory.wf s) : Memory.wf t :=
  (wf_congr fun _ => by apply execPrivateDebug_only e <;> decide).2 h

theorem execCageOvercurrent_wf {t : State} {cage : Fin 4} {s : State}
    (e : execCageOvercurrent cage s = .next t) (h : Memory.wf s) : Memory.wf t :=
  (wf_congr fun _ => by apply execCageOvercurrent_only e <;> decide).2 h

theorem execCageRetry_wf {t : State} {cage : Fin 4} {s : State}
    (e : execCageRetry cage s = .next t) (h : Memory.wf s) : Memory.wf t :=
  (wf_congr fun _ => by apply execCageRetry_only e <;> decide).2 h

/-! ### Channels -/

theorem grantUpTo_wf (c : Nat) (a1 : Nat) (s : State) (h : Memory.wf s) : Memory.wf (State.grantUpTo c a1 s) := by
  induction a1 generalizing s with
  | zero => simpa only [State.grantUpTo] using h
  | succ _ ih =>
    rw [State.grantUpTo]
    repeat' (first | (with_reducible apply ih) | with_reducible assumption | (with_reducible apply grantOne_wf) | (with_reducible apply foldl_fst_wf) | (with_reducible apply foldl_wf) | intro _ | (with_reducible apply ite_wf) | split | dsimp only)

theorem withChan_wf (s : State) (p : Packet) (h : Memory.wf s) : Memory.wf (State.withChan s p) := by
  unfold State.withChan
  repeat' (first | with_reducible assumption | (simp only [↓upd_chans_wf]) | (with_reducible apply grantUpTo_wf) | (with_reducible apply foldl_fst_wf) | (with_reducible apply foldl_wf) | intro _ | (with_reducible apply ite_wf) | split | dsimp only)

theorem chanBind_wf (p : Packet) (s : State) (h : Memory.wf s) : Memory.wf (chanBind p s).1 := by
  unfold chanBind
  repeat' (first | with_reducible assumption | (simp only [↓modPort_wf]) | (with_reducible apply withChan_wf) | (with_reducible apply takePart_wf) | (with_reducible apply settlePool_wf) | (with_reducible apply foldl_fst_wf) | (with_reducible apply foldl_wf) | intro _ | (with_reducible apply ite_wf) | split | dsimp only)

theorem acceptRoute_wf (p : Packet) (r : Route) (unbind : Bool) (id : Nat) (s : State) : Memory.wf (acceptRoute p r unbind id s) ↔ Memory.wf s :=
  wf_congr fun _ => by apply acceptRoute_only <;> decide

theorem qlinkConfig_wf (p : Packet) (s : State) : Memory.wf (qlinkConfig p s).1 ↔ Memory.wf s :=
  wf_congr fun _ => by apply qlinkConfig_only <;> decide

theorem execChanBind_wf {t : State} {fn : FnNo} {qp : QpNo} {pkt : Packet} {s : State}
    (e : execChanBind fn qp pkt s = .next t) (h : Memory.wf s) : Memory.wf t := by
  injection e with e; subst e
  repeat' (first | with_reducible assumption | (simp only [↓shortCommand_wf]) | (with_reducible apply chanBind_wf) | (with_reducible apply foldl_fst_wf) | (with_reducible apply foldl_wf) | (with_reducible apply shortCommand_wf) | intro _ | (with_reducible apply ite_wf) | split | dsimp only)

theorem execChanRoute_wf {t : State} {fn : FnNo} {qp : QpNo} {pkt : Packet} {s : State}
    (e : execChanRoute fn qp pkt s = .next t) (h : Memory.wf s) : Memory.wf t :=
  (wf_congr fun _ => by apply execChanRoute_only e <;> decide).2 h

theorem execChanUnbind_wf {t : State} {fn : FnNo} {qp : QpNo} {pkt : Packet} {s : State}
    (e : execChanUnbind fn qp pkt s = .next t) (h : Memory.wf s) : Memory.wf t :=
  (wf_congr fun _ => by apply execChanUnbind_only e <;> decide).2 h

theorem execChanQuery_wf {t : State} {fn : FnNo} {qp : QpNo} {pkt : Packet} {s : State}
    (e : execChanQuery fn qp pkt s = .next t) (h : Memory.wf s) : Memory.wf t :=
  (wf_congr fun _ => by apply execChanQuery_only e <;> decide).2 h

theorem execQlinkConfig_wf {t : State} {fn : FnNo} {qp : QpNo} {pkt : Packet} {s : State}
    (e : execQlinkConfig fn qp pkt s = .next t) (h : Memory.wf s) : Memory.wf t :=
  (wf_congr fun _ => by apply execQlinkConfig_only e <;> decide).2 h

theorem execQlinkStats_wf {t : State} {fn : FnNo} {qp : QpNo} {pkt : Packet} {s : State}
    (e : execQlinkStats fn qp pkt s = .next t) (h : Memory.wf s) : Memory.wf t :=
  (wf_congr fun _ => by apply execQlinkStats_only e <;> decide).2 h

/-! ### SlateCmds -/

theorem loadContext_wf (p : Packet) (host : HostData) (s : State) : Memory.wf (loadContext p host s).1 ↔ Memory.wf s :=
  wf_congr fun _ => by apply loadContext_only <;> decide

theorem paramSet_wf (p : Packet) (host : HostData) (s : State) : Memory.wf (paramSet p host s).1 ↔ Memory.wf s :=
  wf_congr fun _ => by apply paramSet_only <;> decide

theorem outputCfg_wf (p : Packet) (s : State) (h : Memory.wf s) : Memory.wf (outputCfg p s).1 := by
  unfold outputCfg
  repeat' (first | with_reducible assumption | (simp only [↓modChan_wf]) | (with_reducible apply clearRaster_wf) | (with_reducible apply foldl_fst_wf) | (with_reducible apply foldl_wf) | intro _ | (with_reducible apply ite_wf) | split | dsimp only)

theorem execSlateContextLoad_wf {t : State} {fn : FnNo} {qp : QpNo} {pkt : Packet} {host : HostData} {s : State}
    (e : execSlateContextLoad fn qp pkt host s = .next t) (h : Memory.wf s) : Memory.wf t :=
  (wf_congr fun _ => by apply execSlateContextLoad_only e <;> decide).2 h

theorem execSlateParamSet_wf {t : State} {fn : FnNo} {qp : QpNo} {pkt : Packet} {host : HostData} {s : State}
    (e : execSlateParamSet fn qp pkt host s = .next t) (h : Memory.wf s) : Memory.wf t :=
  (wf_congr fun _ => by apply execSlateParamSet_only e <;> decide).2 h

theorem execSlateOutputCfg_wf {t : State} {fn : FnNo} {qp : QpNo} {pkt : Packet} {s : State}
    (e : execSlateOutputCfg fn qp pkt s = .next t) (h : Memory.wf s) : Memory.wf t := by
  injection e with e; subst e
  repeat' (first | with_reducible assumption | (simp only [↓shortCommand_wf]) | (with_reducible apply outputCfg_wf) | (with_reducible apply foldl_fst_wf) | (with_reducible apply foldl_wf) | (with_reducible apply shortCommand_wf) | intro _ | (with_reducible apply ite_wf) | split | dsimp only)

theorem execSlateSchedule_wf {t : State} {fn : FnNo} {qp : QpNo} {pkt : Packet} {s : State}
    (e : execSlateSchedule fn qp pkt s = .next t) (h : Memory.wf s) : Memory.wf t :=
  (wf_congr fun _ => by apply execSlateSchedule_only e <;> decide).2 h

/-! ### Programs -/

theorem reserveProg_wf (fn : FnNo) (p : Packet) (host : HostData) (id : Nat) (s : State) : Memory.wf (reserveProg fn p host id s) ↔ Memory.wf s :=
  wf_congr fun _ => by apply reserveProg_only <;> decide

theorem atProgLoad_wf (fn : FnNo) (qp : QpNo) (pkt : Packet) (host : HostData) (s : State) (h : Memory.wf s) : Memory.wf (State.atProgLoad fn qp pkt host s) := by
  unfold State.atProgLoad
  repeat' (first | with_reducible assumption | (with_reducible apply restoreFor_wf) | (with_reducible apply foldl_fst_wf) | (with_reducible apply foldl_wf) | intro _ | (with_reducible apply ite_wf) | split | dsimp only)

theorem dropProg_wf (s : State) (n : FnNo) (pid : Nat) : Memory.wf (State.dropProg s n pid) ↔ Memory.wf s :=
  wf_congr fun _ => by apply dropProg_only <;> decide

theorem zeroView_wf (s : State) (n : FnNo) (base granules : Nat) (h : Memory.wf s) :
    Memory.wf (s.zeroView n base granules) := by
  refine forEach_wf (fun i t ht => ?_) _ _ h
  split
  · exact ⟨memClear_wf _ _ ht.1, ht.2.1, ht.2.2.1, ht.2.2.2⟩
  · exact ht

theorem placePackage_wf (s : State) (n : FnNo) (base : Nat) (pkg : List Byte) (granules : Nat) (h : Memory.wf s) : Memory.wf (State.placePackage s n base pkg granules) := by
  unfold State.placePackage
  repeat' (first | with_reducible assumption | (with_reducible apply viewWrite_wf) | (with_reducible apply zeroView_wf) | (with_reducible apply foldl_fst_wf) | (with_reducible apply foldl_wf) | intro _ | (with_reducible apply ite_wf) | split | dsimp only)

theorem packageCheck_wf (n : FnNo) (pid : Nat) (host : List Byte) (fail : Option W64) (s : State) (h : Memory.wf s) : Memory.wf (packageCheck n pid host fail s) := by
  unfold packageCheck
  repeat' (first | with_reducible assumption | (simp only [↓dropProg_wf, ↓complete_wf, ↓draw_wf, ↓modProg_wf, ↓completeOk_wf]) | (with_reducible apply placePackage_wf) | (with_reducible apply reselectProg_wf) | (with_reducible apply foldl_fst_wf) | (with_reducible apply foldl_wf) | intro _ | (with_reducible apply ite_wf) | split | dsimp only)

theorem zeroProg_wf (s : State) (p : Prog) (h : Memory.wf s) : Memory.wf (State.zeroProg s p) := by
  unfold State.zeroProg
  repeat' (first | with_reducible assumption | (simp only [↓upd_clusters_wf]) | (with_reducible apply forEach_wf) | (with_reducible apply scratchWrite_wf) | (with_reducible apply scratchClear_wf) | (with_reducible apply foldl_fst_wf) | (with_reducible apply foldl_wf) | intro _ | (with_reducible apply ite_wf) | split | dsimp only)

theorem unloadDone_wf (n : FnNo) (pid : Nat) (s : State) (h : Memory.wf s) : Memory.wf (unloadDone n pid s) := by
  unfold unloadDone
  repeat' (first | with_reducible assumption | (simp only [↓dropProg_wf, ↓completeOk_wf, ↓upd_chans_wf, ↓upd_scheduled_chans_wf, ↓upd_scheduled_wf]) | (with_reducible apply zeroProg_wf) | (with_reducible apply forEach_wf) | (with_reducible apply foldl_fst_wf) | (with_reducible apply foldl_wf) | intro _ | (with_reducible apply ite_wf) | split | dsimp only)

theorem launchProg_wf (s : State) (n : FnNo) (pid : Nat) (l : Launch) : Memory.wf (State.launchProg s n pid l) ↔ Memory.wf s :=
  wf_congr fun _ => by apply launchProg_only <;> decide

theorem startTick_wf (n : FnNo) (s : State) : Memory.wf (startTick n s) ↔ Memory.wf s :=
  wf_congr fun _ => by apply startTick_only <;> decide

theorem acceptBarrier_wf (fn : FnNo) (id : Nat) (s : State) : Memory.wf (acceptBarrier fn id s) ↔ Memory.wf s :=
  wf_congr fun _ => by apply acceptBarrier_only <;> decide

theorem barrierDone_wf (n : FnNo) (s : State) : Memory.wf (barrierDone n s) ↔ Memory.wf s :=
  wf_congr fun _ => by apply barrierDone_only <;> decide

theorem abortFrames_wf (fn : FnNo) (p : Packet) (s : State) (h : Memory.wf s) : Memory.wf (abortFrames fn p s).1 := by
  unfold abortFrames
  repeat' (first | with_reducible assumption | (with_reducible apply abortAll_wf) | (with_reducible apply foldl_fst_wf) | (with_reducible apply foldl_wf) | intro _ | (with_reducible apply ite_wf) | split | dsimp only)

theorem acceptWait_wf (fn : FnNo) (p : Packet) (id : Nat) (s : State) : Memory.wf (acceptWait fn p id s) ↔ Memory.wf s :=
  wf_congr fun _ => by apply acceptWait_only <;> decide

theorem endWait_wf (n : FnNo) (k : Nat) (s : State) : Memory.wf (endWait n k s) ↔ Memory.wf s :=
  wf_congr fun _ => by apply endWait_only <;> decide

theorem ringRelease_wf (n : FnNo) (pid : Nat) (value : W64) (s : State) (h : Memory.wf s) : Memory.wf (ringRelease n pid value s) := by
  unfold ringRelease
  repeat' (first | with_reducible assumption | (simp only [↓modProg_wf]) | (with_reducible apply pumpRing_wf) | (with_reducible apply foldl_fst_wf) | (with_reducible apply foldl_wf) | intro _ | (with_reducible apply ite_wf) | split | dsimp only)

theorem announceTimeout_wf (n : FnNo) (pid : Nat) (s : State) : Memory.wf (announceTimeout n pid s) ↔ Memory.wf s :=
  wf_congr fun _ => by apply announceTimeout_only <;> decide

theorem execProgLoad_wf {t : State} {fn : FnNo} {qp : QpNo} {pkt : Packet} {host : HostData} {s : State}
    (e : execProgLoad fn qp pkt host s = .next t) (h : Memory.wf s) : Memory.wf t := by
  injection e with e; subst e
  repeat' (first | with_reducible assumption | (simp only [↓takeCommand_wf, ↓longBody_wf, ↓reserveProg_wf]) | (with_reducible apply atProgLoad_wf) | (with_reducible apply foldl_fst_wf) | (with_reducible apply foldl_wf) | (with_reducible apply takeCommand_wf) | (with_reducible apply longBody_wf) | intro _ | (with_reducible apply ite_wf) | split | dsimp only)

theorem execPackageCheck_wf {t : State} {stratum : FnNo} {prog : Nat} {host : List Byte} {fail : Option W64} {s : State}
    (e : execPackageCheck stratum prog host fail s = .next t) (h : Memory.wf s) : Memory.wf t := by
  injection e with e; subst e
  repeat' (first | with_reducible assumption | (with_reducible apply packageCheck_wf) | (with_reducible apply foldl_fst_wf) | (with_reducible apply foldl_wf) | intro _ | (with_reducible apply ite_wf) | split | dsimp only)

theorem execProgUnload_wf {t : State} {fn : FnNo} {qp : QpNo} {pkt : Packet} {s : State}
    (e : execProgUnload fn qp pkt s = .next t) (h : Memory.wf s) : Memory.wf t :=
  (wf_congr fun _ => by apply execProgUnload_only e <;> decide).2 h

theorem execProgUnloadComplete_wf {t : State} {stratum : FnNo} {prog : Nat} {s : State}
    (e : execProgUnloadComplete stratum prog s = .next t) (h : Memory.wf s) : Memory.wf t := by
  injection e with e; subst e
  repeat' (first | with_reducible assumption | (with_reducible apply unloadDone_wf) | (with_reducible apply foldl_fst_wf) | (with_reducible apply foldl_wf) | intro _ | (with_reducible apply ite_wf) | split | dsimp only)

theorem execLaunch_wf {t : State} {fn : FnNo} {qp : QpNo} {pkt : Packet} {s : State}
    (e : execLaunch fn qp pkt s = .next t) (h : Memory.wf s) : Memory.wf t :=
  (wf_congr fun _ => by apply execLaunch_only e <;> decide).2 h

theorem execLaunchAtTick_wf {t : State} {fn : FnNo} {qp : QpNo} {pkt : Packet} {s : State}
    (e : execLaunchAtTick fn qp pkt s = .next t) (h : Memory.wf s) : Memory.wf t :=
  (wf_congr fun _ => by apply execLaunchAtTick_only e <;> decide).2 h

theorem execStartTickReached_wf {t : State} {stratum : FnNo} {s : State}
    (e : execStartTickReached stratum s = .next t) (h : Memory.wf s) : Memory.wf t :=
  (wf_congr fun _ => by apply execStartTickReached_only e <;> decide).2 h

theorem execBarrier_wf {t : State} {fn : FnNo} {qp : QpNo} {pkt : Packet} {s : State}
    (e : execBarrier fn qp pkt s = .next t) (h : Memory.wf s) : Memory.wf t :=
  (wf_congr fun _ => by apply execBarrier_only e <;> decide).2 h

theorem execBarrierComplete_wf {t : State} {stratum : FnNo} {s : State}
    (e : execBarrierComplete stratum s = .next t) (h : Memory.wf s) : Memory.wf t :=
  (wf_congr fun _ => by apply execBarrierComplete_only e <;> decide).2 h

theorem execFrameAbort_wf {t : State} {fn : FnNo} {qp : QpNo} {pkt : Packet} {s : State}
    (e : execFrameAbort fn qp pkt s = .next t) (h : Memory.wf s) : Memory.wf t := by
  injection e with e; subst e
  repeat' (first | with_reducible assumption | (simp only [↓shortCommand_wf]) | (with_reducible apply drainArea_wf) | (with_reducible apply abortFrames_wf) | (with_reducible apply foldl_fst_wf) | (with_reducible apply foldl_wf) | (with_reducible apply shortCommand_wf) | intro _ | (with_reducible apply ite_wf) | split | dsimp only)

theorem execEventWait_wf {t : State} {fn : FnNo} {qp : QpNo} {pkt : Packet} {s : State}
    (e : execEventWait fn qp pkt s = .next t) (h : Memory.wf s) : Memory.wf t :=
  (wf_congr fun _ => by apply execEventWait_only e <;> decide).2 h

theorem execEventWaitComplete_wf {t : State} {stratum : FnNo} {wait : Nat} {s : State}
    (e : execEventWaitComplete stratum wait s = .next t) (h : Memory.wf s) : Memory.wf t :=
  (wf_congr fun _ => by apply execEventWaitComplete_only e <;> decide).2 h

theorem execResultRingRelease_wf {t : State} {stratum : FnNo} {prog : Nat} {value : W64} {s : State}
    (e : execResultRingRelease stratum prog value s = .next t) (h : Memory.wf s) : Memory.wf t := by
  injection e with e; subst e
  repeat' (first | with_reducible assumption | (with_reducible apply drainArea_wf) | (with_reducible apply ringRelease_wf) | (with_reducible apply foldl_fst_wf) | (with_reducible apply foldl_wf) | intro _ | (with_reducible apply ite_wf) | split | dsimp only)

theorem execResultAnnounceTimeout_wf {t : State} {stratum : FnNo} {prog : Nat} {s : State}
    (e : execResultAnnounceTimeout stratum prog s = .next t) (h : Memory.wf s) : Memory.wf t :=
  (wf_congr fun _ => by apply execResultAnnounceTimeout_only e <;> decide).2 h

/-! ### Clusters -/

theorem startRun_wf (s : State) (f : Frame) (since : Nat) (p : Prog) (replica : Nat) (cells : List Nat) (h : Memory.wf s) : Memory.wf (State.startRun s f since p replica cells) := by
  unfold State.startRun
  repeat' (first | with_reducible assumption | (simp only [↓modFrame_wf, ↓upd_runs_wf]) | (with_reducible apply abortFrame_wf) | (with_reducible apply foldl_fst_wf) | (with_reducible apply foldl_wf) | intro _ | (with_reducible apply ite_wf) | split | dsimp only)

theorem dispatch_wf (n : FnNo) (s : State) (h : Memory.wf s) : Memory.wf (dispatch n s) := by
  unfold dispatch
  repeat' (first | with_reducible assumption | (with_reducible apply reselectProg_wf) | (with_reducible apply abortFrame_wf) | (with_reducible apply startRun_wf) | (with_reducible apply forEach_wf) | (with_reducible apply foldl_fst_wf) | (with_reducible apply foldl_wf) | intro _ | (with_reducible apply ite_wf) | split | dsimp only)

theorem modRun_wf (s : State) (r : Run) (f : Run → Run) : Memory.wf (State.modRun s r f) ↔ Memory.wf s :=
  wf_congr fun _ => by apply modRun_only <;> decide

theorem modPos_wf (s : State) (r : Run) (i : Nat) (f : Position → Position) : Memory.wf (State.modPos s r i f) ↔ Memory.wf s :=
  wf_congr fun _ => by apply modPos_only <;> decide

theorem modFlight_wf (s : State) (r : Run) (i : Nat) (idx : Nat) (f : Flight → Flight) : Memory.wf (State.modFlight s r i idx f) ↔ Memory.wf s :=
  wf_congr fun _ => by apply modFlight_only <;> decide

theorem flightDone_wf (s : State) (r : Run) (i : Nat) (idx : Nat) : Memory.wf (State.flightDone s r i idx) ↔ Memory.wf s :=
  wf_congr fun _ => by apply flightDone_only <;> decide

theorem issue_wf (s : State) (r : Run) (i : Nat) (x : Flight) : Memory.wf (State.issue s r i x) ↔ Memory.wf s :=
  wf_congr fun _ => by apply issue_only <;> decide

theorem onHead_wf {opc : Nat} {is : Uop → Bool} {l : LogNo} {body : Run → Nat → Position → Nat → State → State} {s : State}
    (hb : ∀ x i p k t, Memory.wf t → Memory.wf (body x i p k t)) (h : Memory.wf s) :
    Memory.wf (onHead opc is l body s) := by
  unfold onHead; dsimp only
  (repeat' split) <;> first | assumption | exact hb _ _ _ _ _ h

theorem endFaulted_wf (s : State) (r : Run) (h : Memory.wf s) : Memory.wf (State.endFaulted s r) := by
  unfold State.endFaulted
  repeat' (first | with_reducible assumption | (with_reducible apply abortFrame_wf) | (with_reducible apply foldl_fst_wf) | (with_reducible apply foldl_wf) | intro _ | (with_reducible apply ite_wf) | split | dsimp only)

theorem progFault_wf (s : State) (r : Run) (i : Nat) (k : Nat) (cause : Nat) (addr : Nat) (h : Memory.wf s) : Memory.wf (State.progFault s r i k cause addr) := by
  unfold State.progFault
  repeat' (first | with_reducible assumption | (simp only [↓modRun_wf, ↓fault_wf, ↓occur_wf]) | (with_reducible apply endFaulted_wf) | (with_reducible apply foldl_fst_wf) | (with_reducible apply foldl_wf) | intro _ | (with_reducible apply ite_wf) | split | dsimp only)

theorem stepLeaves_wf (s : State) (r : Run) (i : Nat) (k : Nat) : Memory.wf (State.stepLeaves s r i k) ↔ Memory.wf s :=
  wf_congr fun _ => by apply stepLeaves_only <;> decide

theorem completeUop_wf (s : State) (r : Run) (i : Nat) (k : Nat) (h : Memory.wf s) : Memory.wf (State.completeUop s r i k) := by
  unfold State.completeUop
  repeat' (first | with_reducible assumption | (simp only [↓modPos_wf]) | (with_reducible apply endFaulted_wf) | (with_reducible apply progFault_wf) | (with_reducible apply foldl_fst_wf) | (with_reducible apply foldl_wf) | intro _ | (with_reducible apply ite_wf) | split | dsimp only)

theorem fillSlot_wf (s : State) (c : PhysNo) (o : SloadOp) (x : OpSlot) : Memory.wf (State.fillSlot s c o x) ↔ Memory.wf s :=
  wf_congr fun _ => by apply fillSlot_only <;> decide

theorem uopComplete_wf (l : LogNo) (k : Nat) (s : State) (h : Memory.wf s) : Memory.wf (uopComplete l k s) := by
  unfold uopComplete
  repeat' (first | with_reducible assumption | (simp only [↓fillSlot_wf, ↓modPos_wf, ↓stepLeaves_wf]) | (with_reducible apply completeUop_wf) | (with_reducible apply foldl_fst_wf) | (with_reducible apply foldl_wf) | intro _ | (with_reducible apply ite_wf) | split | dsimp only)

theorem nopIssue_wf (l : LogNo) (s : State) (h : Memory.wf s) : Memory.wf (nopIssue l s) := by
  unfold nopIssue
  repeat' (first | with_reducible assumption | (simp only [↓onHead_wf, ↓issue_wf]) | (with_reducible apply completeUop_wf) | (with_reducible apply foldl_fst_wf) | (with_reducible apply foldl_wf) | (with_reducible apply onHead_wf) | intro _ | (with_reducible apply ite_wf) | split | dsimp only)

theorem endIssue_wf (l : LogNo) (s : State) : Memory.wf (endIssue l s) ↔ Memory.wf s :=
  wf_congr fun _ => by apply endIssue_only <;> decide

theorem barrierIssue_wf (l : LogNo) (s : State) : Memory.wf (barrierIssue l s) ↔ Memory.wf s :=
  wf_congr fun _ => by apply barrierIssue_only <;> decide

theorem barrierRelease_wf (l : LogNo) (s : State) (h : Memory.wf s) : Memory.wf (barrierRelease l s) := by
  unfold barrierRelease
  repeat' (first | with_reducible assumption | (with_reducible apply completeUop_wf) | (with_reducible apply forEach_wf) | (with_reducible apply foldl_fst_wf) | (with_reducible apply foldl_wf) | intro _ | (with_reducible apply ite_wf) | split | dsimp only)

theorem scoreboardStall_wf (l : LogNo) (s : State) (h : Memory.wf s) : Memory.wf (scoreboardStall l s) := by
  unfold scoreboardStall
  repeat' (first | with_reducible assumption | (simp only [↓reach_wf]) | (with_reducible apply progFault_wf) | (with_reducible apply foldl_fst_wf) | (with_reducible apply foldl_wf) | intro _ | (with_reducible apply ite_wf) | split | dsimp only)

theorem queueTimeout_wf (l : LogNo) (s : State) (h : Memory.wf s) : Memory.wf (queueTimeout l s) := by
  unfold queueTimeout
  repeat' (first | with_reducible assumption | (simp only [↓reach_wf]) | (with_reducible apply progFault_wf) | (with_reducible apply foldl_fst_wf) | (with_reducible apply foldl_wf) | intro _ | (with_reducible apply ite_wf) | split | dsimp only)

theorem frameEnd_wf (l : LogNo) (s : State) (h : Memory.wf s) : Memory.wf (frameEnd l s) := by
  unfold frameEnd
  repeat' (first | with_reducible assumption | (with_reducible apply offerTensor_wf) | (with_reducible apply reselectProg_wf) | (with_reducible apply foldl_fst_wf) | (with_reducible apply foldl_wf) | intro _ | (with_reducible apply ite_wf) | split | dsimp only)

theorem execDispatch_wf {t : State} {stratum : FnNo} {s : State}
    (e : execDispatch stratum s = .next t) (h : Memory.wf s) : Memory.wf t := by
  injection e with e; subst e
  repeat' (first | with_reducible assumption | (with_reducible apply dispatch_wf) | (with_reducible apply foldl_fst_wf) | (with_reducible apply foldl_wf) | intro _ | (with_reducible apply ite_wf) | split | dsimp only)

theorem execMicroOpComplete_wf {t : State} {cluster : LogNo} {uop : Nat} {s : State}
    (e : execMicroOpComplete cluster uop s = .next t) (h : Memory.wf s) : Memory.wf t := by
  injection e with e; subst e
  repeat' (first | with_reducible assumption | (with_reducible apply uopComplete_wf) | (with_reducible apply foldl_fst_wf) | (with_reducible apply foldl_wf) | intro _ | (with_reducible apply ite_wf) | split | dsimp only)

theorem execNop_wf {t : State} {cluster : LogNo} {s : State}
    (e : execNop cluster s = .next t) (h : Memory.wf s) : Memory.wf t := by
  injection e with e; subst e
  repeat' (first | with_reducible assumption | (with_reducible apply nopIssue_wf) | (with_reducible apply foldl_fst_wf) | (with_reducible apply foldl_wf) | intro _ | (with_reducible apply ite_wf) | split | dsimp only)

theorem execMicroEnd_wf {t : State} {cluster : LogNo} {s : State}
    (e : execMicroEnd cluster s = .next t) (h : Memory.wf s) : Memory.wf t :=
  (wf_congr fun _ => by apply execMicroEnd_only e <;> decide).2 h

theorem execMicroBarrier_wf {t : State} {cluster : LogNo} {s : State}
    (e : execMicroBarrier cluster s = .next t) (h : Memory.wf s) : Memory.wf t :=
  (wf_congr fun _ => by apply execMicroBarrier_only e <;> decide).2 h

theorem execBarrierRelease_wf {t : State} {cluster : LogNo} {s : State}
    (e : execBarrierRelease cluster s = .next t) (h : Memory.wf s) : Memory.wf t := by
  injection e with e; subst e
  repeat' (first | with_reducible assumption | (with_reducible apply barrierRelease_wf) | (with_reducible apply foldl_fst_wf) | (with_reducible apply foldl_wf) | intro _ | (with_reducible apply ite_wf) | split | dsimp only)

theorem execScoreboardStall_wf {t : State} {cluster : LogNo} {s : State}
    (e : execScoreboardStall cluster s = .next t) (h : Memory.wf s) : Memory.wf t := by
  injection e with e; subst e
  repeat' (first | with_reducible assumption | (with_reducible apply scoreboardStall_wf) | (with_reducible apply foldl_fst_wf) | (with_reducible apply foldl_wf) | intro _ | (with_reducible apply ite_wf) | split | dsimp only)

theorem execQueueWaitTimeout_wf {t : State} {cluster : LogNo} {s : State}
    (e : execQueueWaitTimeout cluster s = .next t) (h : Memory.wf s) : Memory.wf t := by
  injection e with e; subst e
  repeat' (first | with_reducible assumption | (with_reducible apply queueTimeout_wf) | (with_reducible apply foldl_fst_wf) | (with_reducible apply foldl_wf) | intro _ | (with_reducible apply ite_wf) | split | dsimp only)

theorem execChannelFrameEnd_wf {t : State} {cluster : LogNo} {s : State}
    (e : execChannelFrameEnd cluster s = .next t) (h : Memory.wf s) : Memory.wf t := by
  injection e with e; subst e
  repeat' (first | with_reducible assumption | (with_reducible apply drainArea_wf) | (with_reducible apply frameEnd_wf) | (with_reducible apply foldl_fst_wf) | (with_reducible apply foldl_wf) | intro _ | (with_reducible apply ite_wf) | split | dsimp only)

/-! ### Granite -/

theorem modClusterAt_wf (s : State) (l : LogNo) (f : Cluster → Cluster) : Memory.wf (State.modClusterAt s l f) ↔ Memory.wf s :=
  wf_congr fun _ => by apply modClusterAt_only <;> decide

theorem windowWrite_wf (s : State) (r : Run) (i : Nat) (o : Nat) (b : List Byte) (h : Memory.wf s) : Memory.wf (State.windowWrite s r i o b) := by
  unfold State.windowWrite
  repeat' (first | with_reducible assumption | (with_reducible apply scratchWrite_wf) | (with_reducible apply scratchClear_wf) | (with_reducible apply foldl_fst_wf) | (with_reducible apply foldl_wf) | intro _ | (with_reducible apply ite_wf) | split | dsimp only)

theorem stepIssue_wf (l : LogNo) (s : State) (h : Memory.wf s) : Memory.wf (stepIssue l s) := by
  unfold stepIssue
  repeat' (first | with_reducible assumption | (simp only [↓onHead_wf, ↓modClusterAt_wf, ↓issue_wf, ↓modPos_wf]) | (with_reducible apply progFault_wf) | (with_reducible apply foldl_fst_wf) | (with_reducible apply foldl_wf) | (with_reducible apply onHead_wf) | intro _ | (with_reducible apply ite_wf) | split | dsimp only)

theorem writeDrain_wf (s : State) (r : Run) (i : Nat) (k : Nat) (o : StepOp) (d : Drained) (h : Memory.wf s) : Memory.wf (State.writeDrain s r i k o d) := by
  unfold State.writeDrain
  repeat' (first | with_reducible assumption | (simp only [↓modFrame_wf]) | (with_reducible apply windowWrite_wf) | (with_reducible apply forEach_wf) | (with_reducible apply foldl_fst_wf) | (with_reducible apply foldl_wf) | intro _ | (with_reducible apply ite_wf) | split | dsimp only)

theorem drainPartial_wf (s : State) (r : Run) (i : Nat) (k : Nat) (o : StepOp) (num : Nat) (wide : Bool) (q : List (List (Option Int))) : Memory.wf (State.drainPartial s r i k o num wide q) ↔ Memory.wf s :=
  wf_congr fun _ => by apply drainPartial_only <;> decide

theorem rescaleTerms_wf (s : State) (f : Frame) (h : Memory.wf s) : Memory.wf (s.rescaleTerms f).2.2 :=
  (wf_congr fun _ => rescaleTerms_only s f (by decide)).2 h

theorem drain_wf (l : LogNo) (s : State) (h : Memory.wf s) : Memory.wf (drain l s) := by
  unfold drain
  repeat' (first | with_reducible assumption | (simp only [↓flightDone_wf, ↓stepLeaves_wf]) | (with_reducible apply progFault_wf) | (with_reducible apply drainPartial_wf) | (with_reducible apply writeDrain_wf) | (with_reducible apply rescaleTerms_wf) | (with_reducible apply ite_wf) | (simp only [↓drainPartial_wf, ↓stepLeaves_wf]) | split | dsimp only)

theorem qsaveIssue_wf (l : LogNo) (s : State) (h : Memory.wf s) : Memory.wf (qsaveIssue l s) := by
  unfold qsaveIssue
  repeat' (first | with_reducible assumption | (simp only [↓onHead_wf, ↓issue_wf]) | (with_reducible apply progFault_wf) | (with_reducible apply windowWrite_wf) | (with_reducible apply foldl_fst_wf) | (with_reducible apply foldl_wf) | (with_reducible apply onHead_wf) | intro _ | (with_reducible apply ite_wf) | split | dsimp only)

theorem qloadIssue_wf (l : LogNo) (s : State) : Memory.wf (qloadIssue l s) ↔ Memory.wf s :=
  wf_congr fun _ => by apply qloadIssue_only <;> decide

theorem qclearIssue_wf (l : LogNo) (s : State) : Memory.wf (qclearIssue l s) ↔ Memory.wf s :=
  wf_congr fun _ => by apply qclearIssue_only <;> decide

theorem combine_wf (s : State) (r : Run) (repro : Bool) (into : Partial) (p : Partial) (level : Nat) : Memory.wf (State.combine s r repro into p level) ↔ Memory.wf s :=
  wf_congr fun _ => by apply combine_only <;> decide

theorem memberDone_wf (s : State) (r : Run) (pos : Nat) : Memory.wf (State.memberDone s r pos) ↔ Memory.wf s :=
  wf_congr fun _ => by apply memberDone_only <;> decide

theorem finishReduction_wf (s : State) (r : Run) (root : Nat) (p : Partial) (h : Memory.wf s) : Memory.wf (State.finishReduction s r root p) := by
  unfold State.finishReduction
  repeat' (first | with_reducible assumption | (simp only [↓modRun_wf, ↓memberDone_wf]) | (with_reducible apply writeDrain_wf) | (with_reducible apply foldl_fst_wf) | (with_reducible apply foldl_wf) | intro _ | (with_reducible apply ite_wf) | split | dsimp only)

theorem reproTransfer_wf (s : State) (r : Run) (p : Partial) (h : Memory.wf s) : Memory.wf (State.reproTransfer s r p) := by
  unfold State.reproTransfer
  repeat' (first | with_reducible assumption | (simp only [↓memberDone_wf, ↓combine_wf]) | (with_reducible apply finishReduction_wf) | (with_reducible apply foldl_fst_wf) | (with_reducible apply foldl_wf) | intro _ | (with_reducible apply ite_wf) | split | dsimp only)

theorem fastTransfer_wf (s : State) (r : Run) (p : Partial) (h : Memory.wf s) : Memory.wf (State.fastTransfer s r p) := by
  unfold State.fastTransfer
  repeat' (first | with_reducible assumption | (simp only [↓modRun_wf, ↓combine_wf, ↓memberDone_wf]) | (with_reducible apply finishReduction_wf) | (with_reducible apply foldl_fst_wf) | (with_reducible apply foldl_wf) | intro _ | (with_reducible apply ite_wf) | split | dsimp only)

theorem reductionTransfer_wf (l : LogNo) (s : State) (h : Memory.wf s) : Memory.wf (reductionTransfer l s) := by
  unfold reductionTransfer
  repeat' (first | with_reducible assumption | (with_reducible apply reproTransfer_wf) | (with_reducible apply fastTransfer_wf) | (with_reducible apply foldl_fst_wf) | (with_reducible apply foldl_wf) | intro _ | (with_reducible apply ite_wf) | split | dsimp only)

theorem execMicroStep_wf {t : State} {cluster : LogNo} {s : State}
    (e : execMicroStep cluster s = .next t) (h : Memory.wf s) : Memory.wf t := by
  injection e with e; subst e
  repeat' (first | with_reducible assumption | (with_reducible apply stepIssue_wf) | (with_reducible apply foldl_fst_wf) | (with_reducible apply foldl_wf) | intro _ | (with_reducible apply ite_wf) | split | dsimp only)

theorem execDrain_wf {t : State} {cluster : LogNo} {s : State}
    (e : execDrain cluster s = .next t) (h : Memory.wf s) : Memory.wf t := by
  injection e with e; subst e
  repeat' (first | with_reducible assumption | (with_reducible apply drain_wf) | (with_reducible apply foldl_fst_wf) | (with_reducible apply foldl_wf) | intro _ | (with_reducible apply ite_wf) | split | dsimp only)

theorem execQsave_wf {t : State} {cluster : LogNo} {s : State}
    (e : execQsave cluster s = .next t) (h : Memory.wf s) : Memory.wf t := by
  injection e with e; subst e
  repeat' (first | with_reducible assumption | (with_reducible apply qsaveIssue_wf) | (with_reducible apply foldl_fst_wf) | (with_reducible apply foldl_wf) | intro _ | (with_reducible apply ite_wf) | split | dsimp only)

theorem execQload_wf {t : State} {cluster : LogNo} {s : State}
    (e : execQload cluster s = .next t) (h : Memory.wf s) : Memory.wf t :=
  (wf_congr fun _ => by apply execQload_only e <;> decide).2 h

theorem execQclear_wf {t : State} {cluster : LogNo} {s : State}
    (e : execQclear cluster s = .next t) (h : Memory.wf s) : Memory.wf t :=
  (wf_congr fun _ => by apply execQclear_only e <;> decide).2 h

theorem execReductionTransfer_wf {t : State} {clusters : List LogNo} {s : State}
    (e : execReductionTransfer clusters s = .next t) (h : Memory.wf s) : Memory.wf t := by
  injection e with e; subst e
  repeat' (first | with_reducible assumption | (with_reducible apply reductionTransfer_wf) | (with_reducible apply forEach_wf) | (with_reducible apply foldl_fst_wf) | (with_reducible apply foldl_wf) | intro _ | (with_reducible apply ite_wf) | split | dsimp only)

/-! ### Images -/

theorem endSlotLoad_wf {x : SlotLoad} {fail : Option W64} {fault : Option Nat} {write : State → State} {s : State}
    (hw : ∀ t, Memory.wf t → Memory.wf (write t)) (h : Memory.wf s) : Memory.wf (endSlotLoad x fail fault write s) := by
  unfold endSlotLoad
  split <;> simp only [↓complete_wf, ↓completeOk_wf] <;> first | assumption | exact hw _ h

theorem tableImageCheck_wf (n : FnNo) (slot : Fin 8) (host : List Byte) (fail : Option W64) (s : State) : Memory.wf (tableImageCheck n slot host fail s) ↔ Memory.wf s :=
  wf_congr fun _ => by apply tableImageCheck_only <;> decide

theorem mprogImageCheck_wf (n : FnNo) (slot : Fin 8) (host : List Byte) (fail : Option W64) (s : State) : Memory.wf (mprogImageCheck n slot host fail s) ↔ Memory.wf s :=
  wf_congr fun _ => by apply mprogImageCheck_only <;> decide

theorem execTableLoad_wf {t : State} {fn : FnNo} {qp : QpNo} {pkt : Packet} {s : State}
    (e : execTableLoad fn qp pkt s = .next t) (h : Memory.wf s) : Memory.wf t :=
  (wf_congr fun _ => by apply execTableLoad_only e <;> decide).2 h

theorem execMicroprogLoad_wf {t : State} {fn : FnNo} {qp : QpNo} {pkt : Packet} {s : State}
    (e : execMicroprogLoad fn qp pkt s = .next t) (h : Memory.wf s) : Memory.wf t :=
  (wf_congr fun _ => by apply execMicroprogLoad_only e <;> decide).2 h

theorem execTableImageCheck_wf {t : State} {stratum : FnNo} {slot : Fin 8} {host : List Byte} {fail : Option W64} {s : State}
    (e : execTableImageCheck stratum slot host fail s = .next t) (h : Memory.wf s) : Memory.wf t :=
  (wf_congr fun _ => by apply execTableImageCheck_only e <;> decide).2 h

theorem execMicroprogImageCheck_wf {t : State} {stratum : FnNo} {slot : Fin 8} {host : List Byte} {fail : Option W64} {s : State}
    (e : execMicroprogImageCheck stratum slot host fail s = .next t) (h : Memory.wf s) : Memory.wf t :=
  (wf_congr fun _ => by apply execMicroprogImageCheck_only e <;> decide).2 h

/-! ### MemCmds -/

theorem memAlloc_wf (n : FnNo) (p : Packet) (s : State) (h : Memory.wf s) : Memory.wf (memAlloc n p s).1 := by
  unfold memAlloc
  repeat' (first | with_reducible assumption | (with_reducible apply allocate_wf) | (with_reducible apply foldl_fst_wf) | (with_reducible apply foldl_wf) | intro _ | (with_reducible apply ite_wf) | split | dsimp only)

theorem memFree_wf (n : FnNo) (p : Packet) (s : State) (h : Memory.wf s) : Memory.wf (memFree n p s).1 := by
  unfold memFree
  repeat' (first | with_reducible assumption | (with_reducible apply release_wf) | (with_reducible apply foldl_fst_wf) | (with_reducible apply foldl_wf) | intro _ | (with_reducible apply ite_wf) | split | dsimp only)

theorem execMemAlloc_wf {t : State} {fn : FnNo} {qp : QpNo} {pkt : Packet} {s : State}
    (e : execMemAlloc fn qp pkt s = .next t) (h : Memory.wf s) : Memory.wf t := by
  injection e with e; subst e
  repeat' (first | with_reducible assumption | (simp only [↓shortCommand_wf]) | (with_reducible apply memAlloc_wf) | (with_reducible apply foldl_fst_wf) | (with_reducible apply foldl_wf) | (with_reducible apply shortCommand_wf) | intro _ | (with_reducible apply ite_wf) | split | dsimp only)

theorem execMemFree_wf {t : State} {fn : FnNo} {qp : QpNo} {pkt : Packet} {s : State}
    (e : execMemFree fn qp pkt s = .next t) (h : Memory.wf s) : Memory.wf t := by
  injection e with e; subst e
  repeat' (first | with_reducible assumption | (simp only [↓shortCommand_wf]) | (with_reducible apply memFree_wf) | (with_reducible apply foldl_fst_wf) | (with_reducible apply foldl_wf) | (with_reducible apply shortCommand_wf) | intro _ | (with_reducible apply ite_wf) | split | dsimp only)

theorem execMemMapExternal_wf {t : State} {fn : FnNo} {qp : QpNo} {pkt : Packet} {s : State}
    (e : execMemMapExternal fn qp pkt s = .next t) (h : Memory.wf s) : Memory.wf t :=
  (wf_congr fun _ => by apply execMemMapExternal_only e <;> decide).2 h

/-! ### Mica -/

theorem micaWriteRows_wf (s : State) (r : Run) (i : Nat) (o : MicaOp) (rows : List (List Nat)) (h : Memory.wf s) : Memory.wf (State.micaWriteRows s r i o rows) := by
  unfold State.micaWriteRows
  repeat' (first | with_reducible assumption | (with_reducible apply windowWrite_wf) | (with_reducible apply forEach_wf) | (with_reducible apply foldl_fst_wf) | (with_reducible apply foldl_wf) | intro _ | (with_reducible apply ite_wf) | split | dsimp only)

theorem onMica_wf {is : MicaOp → Bool} {l : LogNo} {body : Run → Nat → Frame → MicaOp → State → State} {s : State}
    (hb : ∀ x i f o t, Memory.wf t → Memory.wf (body x i f o t)) (h : Memory.wf s) : Memory.wf (onMica is l body s) := by
  refine onHead_wf (fun x i p k t ht => ?_) h
  split
  · exact (flightDone_wf _ _ _ _).2 (hb _ _ _ _ _ ((issue_wf _ _ _ _).2 ht))
  · exact ht

theorem onElements_wf (is : MicaOp → Bool) (f : State → Frame → MicaOp → Nat → Nat) (l : LogNo) (s : State)
    (h : Memory.wf s) : Memory.wf (onElements is f l s) :=
  onMica_wf (fun _ _ _ _ _ ht => windowWrite_wf _ _ _ _ _ ht) h

theorem builtinRow_wf (func : Nat) (l : LogNo) (s : State) (h : Memory.wf s) : Memory.wf (builtinRow func l s) := by
  unfold builtinRow
  repeat' (first | with_reducible assumption | (with_reducible apply onElements_wf) | (with_reducible apply foldl_fst_wf) | (with_reducible apply foldl_wf) | intro _ | (with_reducible apply ite_wf) | split | dsimp only)

theorem tableRow_wf (l : LogNo) (s : State) (h : Memory.wf s) : Memory.wf (tableRow l s) := by
  unfold tableRow
  repeat' (first | with_reducible assumption | (with_reducible apply onElements_wf) | (with_reducible apply foldl_fst_wf) | (with_reducible apply foldl_wf) | intro _ | (with_reducible apply ite_wf) | split | dsimp only)

theorem smaxAccRow_wf (l : LogNo) (s : State) (h : Memory.wf s) : Memory.wf (smaxAccRow l s) := by
  unfold smaxAccRow
  repeat' (first | with_reducible assumption | (simp only [↓onMica_wf]) | (with_reducible apply windowWrite_wf) | (with_reducible apply foldl_fst_wf) | (with_reducible apply foldl_wf) | (with_reducible apply onMica_wf) | intro _ | (with_reducible apply ite_wf) | split | dsimp only)

theorem smaxNormRow_wf (l : LogNo) (s : State) (h : Memory.wf s) : Memory.wf (smaxNormRow l s) := by
  unfold smaxNormRow
  repeat' (first | with_reducible assumption | (simp only [↓onMica_wf]) | (with_reducible apply micaWriteRows_wf) | (with_reducible apply foldl_fst_wf) | (with_reducible apply foldl_wf) | (with_reducible apply onMica_wf) | intro _ | (with_reducible apply ite_wf) | split | dsimp only)

theorem smax1pRow_wf (l : LogNo) (s : State) (h : Memory.wf s) : Memory.wf (smax1pRow l s) := by
  unfold smax1pRow
  repeat' (first | with_reducible assumption | (simp only [↓onMica_wf, ↓count_wf]) | (with_reducible apply windowWrite_wf) | (with_reducible apply micaWriteRows_wf) | (with_reducible apply foldl_fst_wf) | (with_reducible apply foldl_wf) | (with_reducible apply onMica_wf) | intro _ | (with_reducible apply ite_wf) | split | dsimp only)

theorem rowscaleRow_wf (l : LogNo) (s : State) (h : Memory.wf s) : Memory.wf (rowscaleRow l s) := by
  unfold rowscaleRow
  repeat' (first | with_reducible assumption | (simp only [↓onMica_wf]) | (with_reducible apply micaWriteRows_wf) | (with_reducible apply foldl_fst_wf) | (with_reducible apply foldl_wf) | (with_reducible apply onMica_wf) | intro _ | (with_reducible apply ite_wf) | split | dsimp only)

theorem execMicaExp_wf {t : State} {cluster : LogNo} {s : State}
    (e : execMicaExp cluster s = .next t) (h : Memory.wf s) : Memory.wf t := by
  injection e with e; subst e
  repeat' (first | with_reducible assumption | (with_reducible apply builtinRow_wf) | (with_reducible apply foldl_fst_wf) | (with_reducible apply foldl_wf) | intro _ | (with_reducible apply ite_wf) | split | dsimp only)

theorem execMicaExp2_wf {t : State} {cluster : LogNo} {s : State}
    (e : execMicaExp2 cluster s = .next t) (h : Memory.wf s) : Memory.wf t := by
  injection e with e; subst e
  repeat' (first | with_reducible assumption | (with_reducible apply builtinRow_wf) | (with_reducible apply foldl_fst_wf) | (with_reducible apply foldl_wf) | intro _ | (with_reducible apply ite_wf) | split | dsimp only)

theorem execMicaLog2_wf {t : State} {cluster : LogNo} {s : State}
    (e : execMicaLog2 cluster s = .next t) (h : Memory.wf s) : Memory.wf t := by
  injection e with e; subst e
  repeat' (first | with_reducible assumption | (with_reducible apply builtinRow_wf) | (with_reducible apply foldl_fst_wf) | (with_reducible apply foldl_wf) | intro _ | (with_reducible apply ite_wf) | split | dsimp only)

theorem execMicaRecip_wf {t : State} {cluster : LogNo} {s : State}
    (e : execMicaRecip cluster s = .next t) (h : Memory.wf s) : Memory.wf t := by
  injection e with e; subst e
  repeat' (first | with_reducible assumption | (with_reducible apply builtinRow_wf) | (with_reducible apply foldl_fst_wf) | (with_reducible apply foldl_wf) | intro _ | (with_reducible apply ite_wf) | split | dsimp only)

theorem execMicaRsqrt_wf {t : State} {cluster : LogNo} {s : State}
    (e : execMicaRsqrt cluster s = .next t) (h : Memory.wf s) : Memory.wf t := by
  injection e with e; subst e
  repeat' (first | with_reducible assumption | (with_reducible apply builtinRow_wf) | (with_reducible apply foldl_fst_wf) | (with_reducible apply foldl_wf) | intro _ | (with_reducible apply ite_wf) | split | dsimp only)

theorem execMicaTanh_wf {t : State} {cluster : LogNo} {s : State}
    (e : execMicaTanh cluster s = .next t) (h : Memory.wf s) : Memory.wf t := by
  injection e with e; subst e
  repeat' (first | with_reducible assumption | (with_reducible apply builtinRow_wf) | (with_reducible apply foldl_fst_wf) | (with_reducible apply foldl_wf) | intro _ | (with_reducible apply ite_wf) | split | dsimp only)

theorem execMicaSigmoid_wf {t : State} {cluster : LogNo} {s : State}
    (e : execMicaSigmoid cluster s = .next t) (h : Memory.wf s) : Memory.wf t := by
  injection e with e; subst e
  repeat' (first | with_reducible assumption | (with_reducible apply builtinRow_wf) | (with_reducible apply foldl_fst_wf) | (with_reducible apply foldl_wf) | intro _ | (with_reducible apply ite_wf) | split | dsimp only)

theorem execMicaErf_wf {t : State} {cluster : LogNo} {s : State}
    (e : execMicaErf cluster s = .next t) (h : Memory.wf s) : Memory.wf t := by
  injection e with e; subst e
  repeat' (first | with_reducible assumption | (with_reducible apply builtinRow_wf) | (with_reducible apply foldl_fst_wf) | (with_reducible apply foldl_wf) | intro _ | (with_reducible apply ite_wf) | split | dsimp only)

theorem execMicaGeluErf_wf {t : State} {cluster : LogNo} {s : State}
    (e : execMicaGeluErf cluster s = .next t) (h : Memory.wf s) : Memory.wf t := by
  injection e with e; subst e
  repeat' (first | with_reducible assumption | (with_reducible apply builtinRow_wf) | (with_reducible apply foldl_fst_wf) | (with_reducible apply foldl_wf) | intro _ | (with_reducible apply ite_wf) | split | dsimp only)

theorem execMicaGeluTanh_wf {t : State} {cluster : LogNo} {s : State}
    (e : execMicaGeluTanh cluster s = .next t) (h : Memory.wf s) : Memory.wf t := by
  injection e with e; subst e
  repeat' (first | with_reducible assumption | (with_reducible apply builtinRow_wf) | (with_reducible apply foldl_fst_wf) | (with_reducible apply foldl_wf) | intro _ | (with_reducible apply ite_wf) | split | dsimp only)

theorem execMicaGeluSig_wf {t : State} {cluster : LogNo} {s : State}
    (e : execMicaGeluSig cluster s = .next t) (h : Memory.wf s) : Memory.wf t := by
  injection e with e; subst e
  repeat' (first | with_reducible assumption | (with_reducible apply builtinRow_wf) | (with_reducible apply foldl_fst_wf) | (with_reducible apply foldl_wf) | intro _ | (with_reducible apply ite_wf) | split | dsimp only)

theorem execMicaSilu_wf {t : State} {cluster : LogNo} {s : State}
    (e : execMicaSilu cluster s = .next t) (h : Memory.wf s) : Memory.wf t := by
  injection e with e; subst e
  repeat' (first | with_reducible assumption | (with_reducible apply builtinRow_wf) | (with_reducible apply foldl_fst_wf) | (with_reducible apply foldl_wf) | intro _ | (with_reducible apply ite_wf) | split | dsimp only)

theorem execMicaTable_wf {t : State} {cluster : LogNo} {s : State}
    (e : execMicaTable cluster s = .next t) (h : Memory.wf s) : Memory.wf t := by
  injection e with e; subst e
  repeat' (first | with_reducible assumption | (with_reducible apply tableRow_wf) | (with_reducible apply foldl_fst_wf) | (with_reducible apply foldl_wf) | intro _ | (with_reducible apply ite_wf) | split | dsimp only)

theorem execSmaxAcc_wf {t : State} {cluster : LogNo} {s : State}
    (e : execSmaxAcc cluster s = .next t) (h : Memory.wf s) : Memory.wf t := by
  injection e with e; subst e
  repeat' (first | with_reducible assumption | (with_reducible apply smaxAccRow_wf) | (with_reducible apply foldl_fst_wf) | (with_reducible apply foldl_wf) | intro _ | (with_reducible apply ite_wf) | split | dsimp only)

theorem execSmaxNorm_wf {t : State} {cluster : LogNo} {s : State}
    (e : execSmaxNorm cluster s = .next t) (h : Memory.wf s) : Memory.wf t := by
  injection e with e; subst e
  repeat' (first | with_reducible assumption | (with_reducible apply smaxNormRow_wf) | (with_reducible apply foldl_fst_wf) | (with_reducible apply foldl_wf) | intro _ | (with_reducible apply ite_wf) | split | dsimp only)

theorem execSmax1p_wf {t : State} {cluster : LogNo} {s : State}
    (e : execSmax1p cluster s = .next t) (h : Memory.wf s) : Memory.wf t := by
  injection e with e; subst e
  repeat' (first | with_reducible assumption | (with_reducible apply smax1pRow_wf) | (with_reducible apply foldl_fst_wf) | (with_reducible apply foldl_wf) | intro _ | (with_reducible apply ite_wf) | split | dsimp only)

theorem execRowscale_wf {t : State} {cluster : LogNo} {s : State}
    (e : execRowscale cluster s = .next t) (h : Memory.wf s) : Memory.wf t := by
  injection e with e; subst e
  repeat' (first | with_reducible assumption | (with_reducible apply rowscaleRow_wf) | (with_reducible apply foldl_fst_wf) | (with_reducible apply foldl_wf) | intro _ | (with_reducible apply ite_wf) | split | dsimp only)

/-! ### Mprog -/

theorem setMprog_wf (s : State) (r : Run) (i : Nat) (m : Option MprogRun) : Memory.wf (State.setMprog s r i m) ↔ Memory.wf s :=
  wf_congr fun _ => by apply setMprog_only <;> decide

theorem mprogWrite_wf (s : State) (r : Run) (i : Nat) (o : MicaOp) (g : Nat) (l : List MLane) (h : Memory.wf s) : Memory.wf (State.mprogWrite s r i o g l) := by
  unfold State.mprogWrite
  repeat' (first | with_reducible assumption | (with_reducible apply windowWrite_wf) | (with_reducible apply forEach_wf) | (with_reducible apply foldl_fst_wf) | (with_reducible apply foldl_wf) | intro _ | (with_reducible apply ite_wf) | split | dsimp only)

theorem mprogIssue_wf (l : LogNo) (s : State) : Memory.wf (mprogIssue l s) ↔ Memory.wf s :=
  wf_congr fun _ => by apply mprogIssue_only <;> decide

theorem mprogNext_wf (s : State) (r : Run) (i : Nat) (o : MicaOp) (steps : Nat) (m : MprogRun) (l : List MLane) (h : Memory.wf s) : Memory.wf (State.mprogNext s r i o steps m l) := by
  unfold State.mprogNext
  repeat' (first | with_reducible assumption | (simp only [↓setMprog_wf, ↓flightDone_wf]) | (with_reducible apply mprogWrite_wf) | (with_reducible apply foldl_fst_wf) | (with_reducible apply foldl_wf) | intro _ | (with_reducible apply ite_wf) | split | dsimp only)

theorem mprogStepRow_wf (op : Nat) (l : LogNo) (s : State) (h : Memory.wf s) : Memory.wf (mprogStepRow op l s) := by
  unfold mprogStepRow
  repeat' (first | with_reducible assumption | (with_reducible apply mprogNext_wf) | (with_reducible apply foldl_fst_wf) | (with_reducible apply foldl_wf) | intro _ | (with_reducible apply ite_wf) | split | dsimp only)

theorem execMicaMprog_wf {t : State} {cluster : LogNo} {s : State}
    (e : execMicaMprog cluster s = .next t) (h : Memory.wf s) : Memory.wf t :=
  (wf_congr fun _ => by apply execMicaMprog_only e <;> decide).2 h

theorem execMul_wf {t : State} {cluster : LogNo} {s : State}
    (e : execMul cluster s = .next t) (h : Memory.wf s) : Memory.wf t := by
  injection e with e; subst e
  repeat' (first | with_reducible assumption | (with_reducible apply mprogStepRow_wf) | (with_reducible apply foldl_fst_wf) | (with_reducible apply foldl_wf) | intro _ | (with_reducible apply ite_wf) | split | dsimp only)

theorem execAdd_wf {t : State} {cluster : LogNo} {s : State}
    (e : execAdd cluster s = .next t) (h : Memory.wf s) : Memory.wf t := by
  injection e with e; subst e
  repeat' (first | with_reducible assumption | (with_reducible apply mprogStepRow_wf) | (with_reducible apply foldl_fst_wf) | (with_reducible apply foldl_wf) | intro _ | (with_reducible apply ite_wf) | split | dsimp only)

theorem execFmq_wf {t : State} {cluster : LogNo} {s : State}
    (e : execFmq cluster s = .next t) (h : Memory.wf s) : Memory.wf t := by
  injection e with e; subst e
  repeat' (first | with_reducible assumption | (with_reducible apply mprogStepRow_wf) | (with_reducible apply foldl_fst_wf) | (with_reducible apply foldl_wf) | intro _ | (with_reducible apply ite_wf) | split | dsimp only)

theorem execLut_wf {t : State} {cluster : LogNo} {s : State}
    (e : execLut cluster s = .next t) (h : Memory.wf s) : Memory.wf t := by
  injection e with e; subst e
  repeat' (first | with_reducible assumption | (with_reducible apply mprogStepRow_wf) | (with_reducible apply foldl_fst_wf) | (with_reducible apply foldl_wf) | intro _ | (with_reducible apply ite_wf) | split | dsimp only)

theorem execCsel_wf {t : State} {cluster : LogNo} {s : State}
    (e : execCsel cluster s = .next t) (h : Memory.wf s) : Memory.wf t := by
  injection e with e; subst e
  repeat' (first | with_reducible assumption | (with_reducible apply mprogStepRow_wf) | (with_reducible apply foldl_fst_wf) | (with_reducible apply foldl_wf) | intro _ | (with_reducible apply ite_wf) | split | dsimp only)

theorem execRred_wf {t : State} {cluster : LogNo} {s : State}
    (e : execRred cluster s = .next t) (h : Memory.wf s) : Memory.wf t := by
  injection e with e; subst e
  repeat' (first | with_reducible assumption | (with_reducible apply mprogStepRow_wf) | (with_reducible apply foldl_fst_wf) | (with_reducible apply foldl_wf) | intro _ | (with_reducible apply ite_wf) | split | dsimp only)

theorem execRscale_wf {t : State} {cluster : LogNo} {s : State}
    (e : execRscale cluster s = .next t) (h : Memory.wf s) : Memory.wf t := by
  injection e with e; subst e
  repeat' (first | with_reducible assumption | (with_reducible apply mprogStepRow_wf) | (with_reducible apply foldl_fst_wf) | (with_reducible apply foldl_wf) | intro _ | (with_reducible apply ite_wf) | split | dsimp only)

end Sys2Proof.Machine
end

