-- ==== Sys2Proof/Laws/FormLifecycle.lean ====
section
/-!
SUPPORT. Each operation of the model keeps the canonical form of every memory: resets, power, start-up, temperature, telemetry and transfers.
-/

set_option linter.all false

namespace Sys2Proof.Machine

/-! ### Reset -/

theorem changePhase_wf (s : State) (p : BitVec 4) (fail : BitVec 8) : Memory.wf (State.changePhase s p fail) ↔ Memory.wf s :=
  wf_congr fun _ => by apply changePhase_only <;> decide

theorem setPhase_wf (s : State) (p : BitVec 4) (fail : BitVec 8) : Memory.wf (State.setPhase s p fail) ↔ Memory.wf s :=
  wf_congr fun _ => by apply setPhase_only <;> decide

theorem noteCause_wf (s : State) (c : BitVec 8) : Memory.wf (State.noteCause s c) ↔ Memory.wf s :=
  wf_congr fun _ => by apply noteCause_only <;> decide

theorem stopWork_wf (s : State) : Memory.wf (State.stopWork s) ↔ Memory.wf s :=
  wf_congr fun _ => by apply stopWork_only <;> decide

theorem tellHost_wf (s : State) (cause : BitVec 8) (h : Memory.wf s) : Memory.wf (State.tellHost s cause) := by
  unfold State.tellHost
  repeat' (first | with_reducible assumption | (simp only [↓complete_wf, ↓announceAll_wf, ↓resetShorts_wf, ↓upd_ports_wf]) | (with_reducible apply abortAll_wf) | (with_reducible apply abortWaiting_wf) | (with_reducible apply forEach_wf) | (with_reducible apply foldl_fst_wf) | (with_reducible apply foldl_wf) | intro _ | (with_reducible apply ite_wf) | split | dsimp only)

theorem dropLink_wf (s : State) : Memory.wf (State.dropLink s) ↔ Memory.wf s :=
  wf_congr fun _ => by apply dropLink_only <;> decide

theorem haltAll_wf (s : State) (cause : BitVec 8) (h : Memory.wf s) : Memory.wf (State.haltAll s cause) := by
  unfold State.haltAll
  repeat' (first | with_reducible assumption | (simp only [↓dropLink_wf, ↓stopWork_wf]) | (with_reducible apply tellHost_wf) | (with_reducible apply foldl_fst_wf) | (with_reducible apply foldl_wf) | intro _ | (with_reducible apply ite_wf) | split | dsimp only)

theorem stopPanel_wf (x : State × Nat) (h : Memory.wf x.1) : Memory.wf (stopPanel x).1.1 := by
  unfold stopPanel
  split
  · exact h
  · exact (modPanel_wf _ _).2 (budgeted_wf (fun t ht => setDone_wf _ _ _ ht) h)

theorem commitHeld_wf (n : Nat) (p : State × Nat) (h : Memory.wf p.1) : Memory.wf (commitHeld n p).1 :=
  (wf_congr fun _ => commitHeld_only n p (by decide)).2 h

theorem minimalRecord_wf (s : State) (tick : Tick) (strata : W16) (detail : BitVec 224) : Memory.wf (State.minimalRecord s tick strata detail) ↔ Memory.wf s :=
  wf_congr fun _ => by apply minimalRecord_only <;> decide

theorem safePoint_wf (s : State) (writes : Nat) (tick : Tick) (strata : W16) (h : Memory.wf s) :
    Memory.wf (s.safePoint writes tick strata) := by
  unfold State.safePoint
  dsimp only
  refine budgeted_wf (fun t ht => (minimalRecord_wf ..).2 ht) ?_
  exact commitHeld_wf _ _ (stopPanel_wf _ (endNvs_wf _ _ h))

theorem pcieReset_wf (s : State) (h : Memory.wf s) : Memory.wf (State.pcieReset s) := by
  unfold State.pcieReset
  repeat' (first | with_reducible assumption | (simp only [↓modPanel_wf, ↓stopRefresh_wf, ↓upd_boot_wf, ↓upd_sup_wf, ↓upd_fns_outst_wf, ↓upd_outst_wf, ↓upd_logReads_wf, ↓upd_fns_outst_sup_boot_logReads_wf, ↓upd_fns_outst_boot_wf, ↓upd_fns_wf]) | (with_reducible apply endNvs_wf) | (with_reducible apply foldl_fst_wf) | (with_reducible apply foldl_wf) | intro _ | (with_reducible apply ite_wf) | split | dsimp only)

theorem wipe_wf (s : State) (reason : BitVec 8) (h : Memory.wf s) : Memory.wf (s.wipe reason) := by
  have g : Memory.wf s.draw.2.stopWork := by
    first | exact stopWork_wf _ ((draw_wf _).2 h) | exact (stopWork_wf _).2 ((draw_wf _).2 h)
  exact ⟨rfl, rfl, fun c => by simp [State.wipe, memWf, spSorted], g.2.2.2⟩

theorem hostWipe_wf (s : State) (h : Memory.wf s) : Memory.wf (State.hostWipe s) := by
  unfold State.hostWipe
  repeat' (first | with_reducible assumption | (simp only [↓whiten_wf, ↓stripChanged_wf, ↓upd_units_toReplace_thermal_wf, ↓upd_toReplace_wf, ↓upd_units_wf, ↓upd_thermal_wf]) | (with_reducible apply wipe_wf) | (with_reducible apply forEach_wf) | (with_reducible apply foldl_fst_wf) | (with_reducible apply foldl_wf) | intro _ | (with_reducible apply ite_wf) | split | dsimp only)

theorem bootRom_wf (s : State) : Memory.wf (State.bootRom s) ↔ Memory.wf s :=
  wf_congr fun _ => by apply bootRom_only <;> decide

theorem newKey_wf (s : State) : Memory.wf (State.newKey s) ↔ Memory.wf s :=
  wf_congr fun _ => by apply newKey_only <;> decide

theorem hostReset_wf (s : State) (cause : BitVec 8) (h : Memory.wf s) : Memory.wf (State.hostReset s cause) := by
  unfold State.hostReset
  repeat' (first | with_reducible assumption | (simp only [↓noteCause_wf, ↓newKey_wf, ↓settlePlan_wf, ↓setPhase_wf, ↓bootRom_wf]) | (with_reducible apply pcieReset_wf) | (with_reducible apply hostWipe_wf) | (with_reducible apply foldl_fst_wf) | (with_reducible apply foldl_wf) | intro _ | (with_reducible apply ite_wf) | split | dsimp only)

theorem moduleWipe_wf (s : State) (h : Memory.wf s) : Memory.wf s.moduleWipe := by
  unfold State.moduleWipe
  dsimp only
  have g := wipe_wf _ 1 h
  refine (bootRom_wf _).2 ?_
  exact ⟨g.1, rfl, g.2.2.1, g.2.2.2⟩

theorem moduleReset_wf (s : State) (h : Memory.wf s) : Memory.wf s.moduleReset := by
  unfold State.moduleReset
  dsimp only
  have g := (upd_boot_wf (s := s.moduleWipe) (v0 := { s.moduleWipe.boot with
    resetCause := if s.boot.modResetLow then 2 else s.boot.pendingCause })).2 (moduleWipe_wf _ h)
  split
  · exact (faultAt_wf ..).2 ((fault_wf ..).2 g)
  · exact (fault_wf ..).2 g

theorem measure_wf (s : State) (v : Volts) : Memory.wf (State.measure s v) ↔ Memory.wf s :=
  wf_congr fun _ => by apply measure_only <;> decide

theorem powerOnReset_wf (s : State) (cause : BitVec 8) (v : Volts) (h : Memory.wf s) :
    Memory.wf (s.powerOnReset cause v) := by
  unfold State.powerOnReset
  have g : Memory.wf ({ s with tick := 0, withhold := 0 } : State).moduleWipe := moduleWipe_wf _ h
  dsimp only
  repeat' (first | with_reducible assumption | (simp only [↓noteCause_wf, ↓upd_sup_wf]) | (with_reducible apply ite_wf) | exact g)

theorem functionReset_wf (s : State) (n : FnNo) (h : Memory.wf s) : Memory.wf (State.functionReset s n) := by
  unfold State.functionReset
  repeat' (first | with_reducible assumption | (simp only [↓resetFunc_wf, ↓stopRefresh_wf, ↓delFrame_wf, ↓endRun_wf, ↓upd_chans_wf, ↓upd_progs_wf, ↓upd_deliveries_wf, ↓upd_frames_wf, ↓upd_progs_frames_wf]) | (with_reducible apply forgetWork_wf) | (with_reducible apply releaseFrame_wf) | (with_reducible apply endUnbinds_wf) | (with_reducible apply settlePool_wf) | (with_reducible apply forEach_wf) | (with_reducible apply foldl_fst_wf) | (with_reducible apply foldl_wf) | intro _ | (with_reducible apply ite_wf) | split | dsimp only)

theorem setVfs_wf (s : State) (enable : Bool) (num : Nat) (h : Memory.wf s) : Memory.wf (State.setVfs s enable num) := by
  unfold State.setVfs
  repeat' (first | with_reducible assumption | (simp only [↓upd_boot_wf]) | (with_reducible apply functionReset_wf) | (with_reducible apply forEach_wf) | (with_reducible apply foldl_fst_wf) | (with_reducible apply foldl_wf) | intro _ | (with_reducible apply ite_wf) | split | dsimp only)

theorem enterFatal_wf (s : State) (cause : BitVec 8) (unit : W16) (data : List W32) : Memory.wf (State.enterFatal s cause unit data) ↔ Memory.wf s :=
  wf_congr fun _ => by apply enterFatal_only <;> decide

/-! ### Power -/

theorem modSup_wf (s : State) (f : Supply → Supply) : Memory.wf (State.modSup s f) ↔ Memory.wf s :=
  wf_congr fun _ => by apply modSup_only <;> decide

theorem capMoved_wf (s : State) (before : Nat) : Memory.wf (State.capMoved s before) ↔ Memory.wf s :=
  wf_congr fun _ => by apply capMoved_only <;> decide

theorem switchToAux_wf (s : State) : Memory.wf (State.switchToAux s) ↔ Memory.wf s :=
  wf_congr fun _ => by apply switchToAux_only <;> decide

theorem selectSource_wf (s : State) : Memory.wf (State.selectSource s) ↔ Memory.wf s :=
  wf_congr fun _ => by apply selectSource_only <;> decide

theorem endCap70_wf (s : State) : Memory.wf (State.endCap70 s) ↔ Memory.wf s :=
  wf_congr fun _ => by apply endCap70_only <;> decide

theorem mainFalls_wf (v : Volts) (s : State) : Memory.wf (mainFalls v s) ↔ Memory.wf s :=
  wf_congr fun _ => by apply mainFalls_only <;> decide

theorem auxFalls_wf (v : Volts) (s : State) : Memory.wf (auxFalls v s) ↔ Memory.wf s :=
  wf_congr fun _ => by apply auxFalls_only <;> decide

theorem auxRises_wf (v : Volts) (s : State) : Memory.wf (auxRises v s) ↔ Memory.wf s :=
  wf_congr fun _ => by apply auxRises_only <;> decide

theorem mainRises_wf (v : Volts) (s : State) : Memory.wf (mainRises v s) ↔ Memory.wf s :=
  wf_congr fun _ => by apply mainRises_only <;> decide

theorem leaveWait_wf (s : State) : Memory.wf (State.leaveWait s) ↔ Memory.wf s :=
  wf_congr fun _ => by apply leaveWait_only <;> decide

theorem mainQualifies_wf (v : Volts) (s : State) : Memory.wf (mainQualifies v s) ↔ Memory.wf s :=
  wf_congr fun _ => by apply mainQualifies_only <;> decide

theorem switchEnds_wf (v : Volts) (s : State) : Memory.wf (switchEnds v s) ↔ Memory.wf s :=
  wf_congr fun _ => by apply switchEnds_only <;> decide

theorem discardKeys_wf (s : State) : Memory.wf (State.discardKeys s) ↔ Memory.wf s :=
  wf_congr fun _ => by apply discardKeys_only <;> decide

theorem enterHoldup_wf (s : State) (h : Memory.wf s) : Memory.wf (State.enterHoldup s) := by
  unfold State.enterHoldup
  repeat' (first | with_reducible assumption | (simp only [↓modSup_wf, ↓discardKeys_wf, ↓stopRefresh_wf, ↓upd_boot_wf, ↓upd_jtag_wf, ↓upd_plans_wf, ↓upd_plans_boot_ports_jtag_wf, ↓upd_ports_wf]) | (with_reducible apply haltAll_wf) | (with_reducible apply foldl_fst_wf) | (with_reducible apply foldl_wf) | intro _ | (with_reducible apply ite_wf) | split | dsimp only)

theorem inputsLost_wf (v : Volts) (s : State) (h : Memory.wf s) : Memory.wf (inputsLost v s) := by
  unfold inputsLost
  repeat' (first | with_reducible assumption | (simp only [↓measure_wf]) | (with_reducible apply enterHoldup_wf) | (with_reducible apply foldl_fst_wf) | (with_reducible apply foldl_wf) | intro _ | (with_reducible apply ite_wf) | split | dsimp only)

theorem bankLow_wf (s : State) (h : Memory.wf s) : Memory.wf (State.bankLow s) := by
  unfold State.bankLow
  repeat' (first | with_reducible assumption | (with_reducible apply enterHoldup_wf) | (with_reducible apply foldl_fst_wf) | (with_reducible apply foldl_wf) | intro _ | (with_reducible apply ite_wf) | split | dsimp only)

theorem leaveHoldup_wf (s : State) (v : Volts) (h : Memory.wf s) : Memory.wf (State.leaveHoldup s v) := by
  unfold State.leaveHoldup
  repeat' (first | with_reducible assumption | (simp only [↓measure_wf, ↓modSup_wf]) | (with_reducible apply powerOnReset_wf) | (with_reducible apply foldl_fst_wf) | (with_reducible apply foldl_wf) | intro _ | (with_reducible apply ite_wf) | split | dsimp only)

theorem holdupEnds_wf (writes : Nat) (v : Volts) (s : State) (h : Memory.wf s) : Memory.wf (holdupEnds writes v s) := by
  unfold holdupEnds
  repeat' (first | with_reducible assumption | (with_reducible apply leaveHoldup_wf) | (with_reducible apply safePoint_wf) | (with_reducible apply foldl_fst_wf) | (with_reducible apply foldl_wf) | intro _ | (with_reducible apply ite_wf) | split | dsimp only)

theorem inputRises_wf (v : Volts) (s : State) (h : Memory.wf s) : Memory.wf (inputRises v s) := by
  unfold inputRises
  repeat' (first | with_reducible assumption | (with_reducible apply powerOnReset_wf) | (with_reducible apply foldl_fst_wf) | (with_reducible apply foldl_wf) | intro _ | (with_reducible apply ite_wf) | split | dsimp only)

theorem suspendErase_wf (s : State) (h : Memory.wf s) : Memory.wf (State.suspendErase s) := by
  unfold State.suspendErase
  repeat' (first | with_reducible assumption | (with_reducible apply pauseFront_wf) | (with_reducible apply foldl_fst_wf) | (with_reducible apply foldl_wf) | intro _ | (with_reducible apply ite_wf) | split | dsimp only)

theorem sagBegins_wf (v : Volts) (s : State) (h : Memory.wf s) : Memory.wf (sagBegins v s) := by
  unfold sagBegins
  repeat' (first | with_reducible assumption | (simp only [↓measure_wf, ↓occur_wf, ↓modSup_wf, ↓stopRefresh_wf]) | (with_reducible apply bankLow_wf) | (with_reducible apply suspendErase_wf) | (with_reducible apply foldl_fst_wf) | (with_reducible apply foldl_wf) | intro _ | (with_reducible apply ite_wf) | split | dsimp only)

theorem sagEnds_wf (v : Volts) (s : State) : Memory.wf (sagEnds v s) ↔ Memory.wf s :=
  wf_congr fun _ => by apply sagEnds_only <;> decide

theorem gateOpens_wf (v : Volts) (s : State) (h : Memory.wf s) : Memory.wf (gateOpens v s) := by
  unfold gateOpens
  repeat' (first | with_reducible assumption | (simp only [↓measure_wf, ↓commitFaults_wf]) | (with_reducible apply recordSystem_wf) | (with_reducible apply resumeFront_wf) | (with_reducible apply runReerase_wf) | (with_reducible apply foldl_fst_wf) | (with_reducible apply foldl_wf) | intro _ | (with_reducible apply ite_wf) | split | dsimp only)

theorem pauseEnds_wf (s : State) (h : Memory.wf s) : Memory.wf (pauseEnds s) := by
  unfold pauseEnds
  repeat' (first | with_reducible assumption | (simp only [↓drawTimedOut_wf, ↓reach_wf]) | (with_reducible apply frontTimedOut_wf) | (with_reducible apply foldl_fst_wf) | (with_reducible apply foldl_wf) | intro _ | (with_reducible apply ite_wf) | split | dsimp only)

theorem bankFails_wf (v : Volts) (s : State) : Memory.wf (bankFails v s) ↔ Memory.wf s :=
  wf_congr fun _ => by apply bankFails_only <;> decide

theorem refreshSupply_wf (v : Volts) (s : State) : Memory.wf (refreshSupply v s) ↔ Memory.wf s :=
  wf_congr fun _ => by apply refreshSupply_only <;> decide

theorem execVinMainLow_wf {t : State} {v : Volts} {s : State}
    (e : execVinMainLow v s = .next t) (h : Memory.wf s) : Memory.wf t :=
  (wf_congr fun _ => by apply execVinMainLow_only e <;> decide).2 h

theorem execVinAuxLow_wf {t : State} {v : Volts} {s : State}
    (e : execVinAuxLow v s = .next t) (h : Memory.wf s) : Memory.wf t :=
  (wf_congr fun _ => by apply execVinAuxLow_only e <;> decide).2 h

theorem execVinAuxNotLow_wf {t : State} {v : Volts} {s : State}
    (e : execVinAuxNotLow v s = .next t) (h : Memory.wf s) : Memory.wf t :=
  (wf_congr fun _ => by apply execVinAuxNotLow_only e <;> decide).2 h

theorem execVinMainNotLow_wf {t : State} {v : Volts} {s : State}
    (e : execVinMainNotLow v s = .next t) (h : Memory.wf s) : Memory.wf t :=
  (wf_congr fun _ => by apply execVinMainNotLow_only e <;> decide).2 h

theorem execVinMainQualified_wf {t : State} {v : Volts} {s : State}
    (e : execVinMainQualified v s = .next t) (h : Memory.wf s) : Memory.wf t :=
  (wf_congr fun _ => by apply execVinMainQualified_only e <;> decide).2 h

theorem execSwitchComplete_wf {t : State} {v : Volts} {s : State}
    (e : execSwitchComplete v s = .next t) (h : Memory.wf s) : Memory.wf t :=
  (wf_congr fun _ => by apply execSwitchComplete_only e <;> decide).2 h

theorem execVinLoss_wf {t : State} {v : Volts} {s : State}
    (e : execVinLoss v s = .next t) (h : Memory.wf s) : Memory.wf t := by
  injection e with e; subst e
  repeat' (first | with_reducible assumption | (with_reducible apply inputsLost_wf) | (with_reducible apply foldl_fst_wf) | (with_reducible apply foldl_wf) | intro _ | (with_reducible apply ite_wf) | split | dsimp only)

theorem execBankChargeLow_wf {t : State} {v : Volts} {s : State}
    (e : execBankChargeLow v s = .next t) (h : Memory.wf s) : Memory.wf t := by
  injection e with e; subst e
  repeat' (first | with_reducible assumption | (simp only [↓measure_wf]) | (with_reducible apply bankLow_wf) | (with_reducible apply foldl_fst_wf) | (with_reducible apply foldl_wf) | intro _ | (with_reducible apply ite_wf) | split | dsimp only)

theorem execHoldupSequenceComplete_wf {t : State} {v : Volts} {s : State}
    (e : execHoldupSequenceComplete v s = .next t) (h : Memory.wf s) : Memory.wf t := by
  injection e with e; subst e
  repeat' (first | with_reducible assumption | (with_reducible apply holdupEnds_wf) | (with_reducible apply foldl_fst_wf) | (with_reducible apply foldl_wf) | intro _ | (with_reducible apply ite_wf) | split | dsimp only)

theorem execBankEnergyExhausted_wf {t : State} {writes : Nat} {v : Volts} {s : State}
    (e : execBankEnergyExhausted writes v s = .next t) (h : Memory.wf s) : Memory.wf t := by
  injection e with e; subst e
  repeat' (first | with_reducible assumption | (with_reducible apply holdupEnds_wf) | (with_reducible apply foldl_fst_wf) | (with_reducible apply foldl_wf) | intro _ | (with_reducible apply ite_wf) | split | dsimp only)

theorem execInputRise_wf {t : State} {v : Volts} {s : State}
    (e : execInputRise v s = .next t) (h : Memory.wf s) : Memory.wf t := by
  injection e with e; subst e
  repeat' (first | with_reducible assumption | (with_reducible apply inputRises_wf) | (with_reducible apply foldl_fst_wf) | (with_reducible apply foldl_wf) | intro _ | (with_reducible apply ite_wf) | split | dsimp only)

theorem execSagBegin_wf {t : State} {v : Volts} {s : State}
    (e : execSagBegin v s = .next t) (h : Memory.wf s) : Memory.wf t := by
  injection e with e; subst e
  repeat' (first | with_reducible assumption | (with_reducible apply sagBegins_wf) | (with_reducible apply foldl_fst_wf) | (with_reducible apply foldl_wf) | intro _ | (with_reducible apply ite_wf) | split | dsimp only)

theorem execSagEnd_wf {t : State} {v : Volts} {s : State}
    (e : execSagEnd v s = .next t) (h : Memory.wf s) : Memory.wf t :=
  (wf_congr fun _ => by apply execSagEnd_only e <;> decide).2 h

theorem execSupplyGateOpen_wf {t : State} {v : Volts} {s : State}
    (e : execSupplyGateOpen v s = .next t) (h : Memory.wf s) : Memory.wf t := by
  injection e with e; subst e
  repeat' (first | with_reducible assumption | (with_reducible apply gateOpens_wf) | (with_reducible apply foldl_fst_wf) | (with_reducible apply foldl_wf) | intro _ | (with_reducible apply ite_wf) | split | dsimp only)

theorem execSupplyGatePauseTimeout_wf {t : State} {s : State}
    (e : execSupplyGatePauseTimeout s = .next t) (h : Memory.wf s) : Memory.wf t := by
  injection e with e; subst e
  repeat' (first | with_reducible assumption | (with_reducible apply pauseEnds_wf) | (with_reducible apply foldl_fst_wf) | (with_reducible apply foldl_wf) | intro _ | (with_reducible apply ite_wf) | split | dsimp only)

theorem execHoldupFault_wf {t : State} {v : Volts} {s : State}
    (e : execHoldupFault v s = .next t) (h : Memory.wf s) : Memory.wf t :=
  (wf_congr fun _ => by apply execHoldupFault_only e <;> decide).2 h

theorem execSupplyStatusRefresh_wf {t : State} {v : Volts} {s : State}
    (e : execSupplyStatusRefresh v s = .next t) (h : Memory.wf s) : Memory.wf t :=
  (wf_congr fun _ => by apply execSupplyStatusRefresh_only e <;> decide).2 h

/-! ### Start -/

theorem recogniseReset_wf (s : State) (cause : BitVec 8) (h : Memory.wf s) : Memory.wf (State.recogniseReset s cause) := by
  unfold State.recogniseReset
  repeat' (first | with_reducible assumption | (simp only [↓noteCause_wf, ↓upd_boot_wf]) | (with_reducible apply safePoint_wf) | (with_reducible apply haltAll_wf) | (with_reducible apply foldl_fst_wf) | (with_reducible apply foldl_wf) | intro _ | (with_reducible apply ite_wf) | split | dsimp only)

theorem bootWhenFree_wf (s : State) : Memory.wf (State.bootWhenFree s) ↔ Memory.wf s :=
  wf_congr fun _ => by apply bootWhenFree_only <;> decide

theorem abandonImage_wf (s : State) : Memory.wf (abandonImage s) ↔ Memory.wf s :=
  wf_congr fun _ => by apply abandonImage_only <;> decide

theorem newFaultLog_wf (s : State) : Memory.wf (State.newFaultLog s) ↔ Memory.wf s :=
  wf_congr fun _ => by apply newFaultLog_only <;> decide

theorem checkJournal_wf (s : State) (h : Memory.wf s) : Memory.wf (State.checkJournal s) := by
  unfold State.checkJournal
  repeat' (first | with_reducible assumption | (simp only [↓modPanel_wf, ↓upd_nv_wf]) | (with_reducible apply runReerase_wf) | (with_reducible apply foldl_fst_wf) | (with_reducible apply foldl_wf) | intro _ | (with_reducible apply ite_wf) | split | dsimp only)

theorem bootEnds_wf (tickCounts : Option (W32 × W32)) (monitorOk : Bool) (logOk : Bool) (s : State) (h : Memory.wf s) : Memory.wf (bootEnds tickCounts monitorOk logOk s) := by
  unfold bootEnds
  repeat' (first | with_reducible assumption | (simp only [↓setPhase_wf, ↓enterFatal_wf, ↓newFaultLog_wf, ↓fault_wf, ↓modSup_wf]) | (with_reducible apply checkJournal_wf) | (with_reducible apply foldl_fst_wf) | (with_reducible apply foldl_wf) | intro _ | (with_reducible apply ite_wf) | split | dsimp only)

theorem clocksStart_wf (s : State) : Memory.wf (clocksStart s) ↔ Memory.wf s :=
  wf_congr fun _ => by apply clocksStart_only <;> decide

theorem bistFail_wf (s : State) (u : Unit_) : Memory.wf (State.bistFail s u) ↔ Memory.wf s :=
  wf_congr fun _ => by apply bistFail_only <;> decide

theorem geodeTested_wf (failed : List BankNo) (s : State) (h : Memory.wf s) : Memory.wf (geodeTested failed s) := by
  unfold geodeTested
  split
  · exact h
  · dsimp only
    have g := forEach_wf (f := fun b u => State.bistFail u (.bank b)) (fun _ _ ht => (bistFail_wf _ _).2 ht) failed _ h
    refine (setPhase_wf ..).2 ?_
    exact ⟨rfl, g.2.1, g.2.2.1, g.2.2.2⟩

theorem clusterTestEnds_wf (s : State) : Memory.wf (State.clusterTestEnds s) ↔ Memory.wf s :=
  wf_congr fun _ => by apply clusterTestEnds_only <;> decide

theorem roundTested_wf (failed : List PhysNo) (s : State) : Memory.wf (roundTested failed s) ↔ Memory.wf s :=
  wf_congr fun _ => by apply roundTested_only <;> decide

theorem lpddrTested_wf (failed : List ExtNo) (s : State) (h : Memory.wf s) : Memory.wf (lpddrTested failed s) := by
  unfold lpddrTested
  split
  · exact h
  · dsimp only
    have g := forEach_wf (f := fun c u => State.bistFail u (.ext c)) (fun _ _ ht => (bistFail_wf _ _).2 ht) failed _ h
    refine (clusterTestEnds_wf _).2 ?_
    exact ⟨g.1, rfl, g.2.2.1, g.2.2.2⟩

theorem remapRetired_wf (s : State) (c : PhysNo) (h : Memory.wf s) : Memory.wf (State.remapRetired s c) := by
  unfold State.remapRetired
  repeat' (first | with_reducible assumption | (simp only [↓fault_wf, ↓upd_mapping_wf]) | (with_reducible apply mapTo_wf) | (with_reducible apply foldl_fst_wf) | (with_reducible apply foldl_wf) | intro _ | (with_reducible apply ite_wf) | split | dsimp only)

theorem fillMapping_wf (s : State) (l : LogNo) (h : Memory.wf s) : Memory.wf (State.fillMapping s l) := by
  unfold State.fillMapping
  repeat' (first | with_reducible assumption | (simp only [↓fault_wf]) | (with_reducible apply mapTo_wf) | (with_reducible apply foldl_fst_wf) | (with_reducible apply foldl_wf) | intro _ | (with_reducible apply ite_wf) | split | dsimp only)

theorem buildMapping_wf (s : State) (h : Memory.wf s) : Memory.wf (State.buildMapping s) := by
  unfold State.buildMapping
  repeat' (first | with_reducible assumption | (simp only [↓upd_mapping_lastPhys_wf, ↓upd_mapping_wf]) | (with_reducible apply remapRetired_wf) | (with_reducible apply fillMapping_wf) | (with_reducible apply forEach_wf) | (with_reducible apply foldl_fst_wf) | (with_reducible apply foldl_wf) | intro _ | (with_reducible apply ite_wf) | split | dsimp only)

theorem enterReady_wf (s : State) : Memory.wf (State.enterReady s) ↔ Memory.wf s :=
  wf_congr fun _ => by apply enterReady_only <;> decide

theorem mappingEnds_wf (s : State) (h : Memory.wf s) : Memory.wf (mappingEnds s) := by
  unfold mappingEnds
  repeat' (first | with_reducible assumption | (simp only [↓setPhase_wf, ↓enterReady_wf, ↓settlePlan_wf]) | (with_reducible apply buildMapping_wf) | (with_reducible apply recordSystem_wf) | (with_reducible apply foldl_fst_wf) | (with_reducible apply foldl_wf) | intro _ | (with_reducible apply ite_wf) | split | dsimp only)

theorem pcieDown_wf (s : State) : Memory.wf (State.pcieDown s) ↔ Memory.wf s :=
  wf_congr fun _ => by apply pcieDown_only <;> decide

theorem configWrite_wf (fn : FnNo) (req : ConfigReq) (s : State) (h : Memory.wf s) : Memory.wf (configWrite fn req s) := by
  unfold configWrite
  repeat' (first | with_reducible assumption | (simp only [↓modFn_wf]) | (with_reducible apply setVfs_wf) | (with_reducible apply foldl_fst_wf) | (with_reducible apply foldl_wf) | intro _ | (with_reducible apply ite_wf) | split | dsimp only)

theorem configRequest_wf (fn : FnNo) (req : ConfigReq) (s : State) (h : Memory.wf s) : Memory.wf (configRequest fn req s) := by
  unfold configRequest
  repeat' (first | with_reducible assumption | (simp only [↓emit_wf]) | (with_reducible apply configWrite_wf) | (with_reducible apply foldl_fst_wf) | (with_reducible apply foldl_wf) | intro _ | (with_reducible apply ite_wf) | split | dsimp only)

theorem busMaster_wf (fn : FnNo) (on : Bool) (s : State) (h : Memory.wf s) : Memory.wf (busMaster fn on s) := by
  unfold busMaster
  repeat' (first | with_reducible assumption | (simp only [↓modFn_wf, ↓sendUnsent_wf, ↓settleQueue_wf, ↓releaseMsix_wf, ↓flushEvq_wf]) | (with_reducible apply pumpRing_wf) | (with_reducible apply forEach_wf) | (with_reducible apply foldl_fst_wf) | (with_reducible apply foldl_wf) | intro _ | (with_reducible apply ite_wf) | split | dsimp only)

theorem execModResetN_wf {t : State} {s : State}
    (e : execModResetN s = .next t) (h : Memory.wf s) : Memory.wf t := by
  injection e with e; subst e
  repeat' (first | with_reducible assumption | (simp only [↓upd_boot_wf]) | (with_reducible apply recogniseReset_wf) | (with_reducible apply foldl_fst_wf) | (with_reducible apply foldl_wf) | intro _ | (with_reducible apply ite_wf) | split | dsimp only)

theorem execTestEn_wf {t : State} {s : State}
    (e : execTestEn s = .next t) (h : Memory.wf s) : Memory.wf t := by
  injection e with e; subst e
  repeat' (first | with_reducible assumption | (simp only [↓upd_boot_wf]) | (with_reducible apply recogniseReset_wf) | (with_reducible apply foldl_fst_wf) | (with_reducible apply foldl_wf) | intro _ | (with_reducible apply ite_wf) | split | dsimp only)

theorem execModuleReset_wf {t : State} {s : State}
    (e : execModuleReset s = .next t) (h : Memory.wf s) : Memory.wf t := by
  injection e with e; subst e
  repeat' (first | with_reducible assumption | (with_reducible apply moduleReset_wf) | (with_reducible apply foldl_fst_wf) | (with_reducible apply foldl_wf) | intro _ | (with_reducible apply ite_wf) | split | dsimp only)

theorem execModResetNRise_wf {t : State} {s : State}
    (e : execModResetNRise s = .next t) (h : Memory.wf s) : Memory.wf t :=
  (wf_congr fun _ => by apply execModResetNRise_only e <;> decide).2 h

theorem execTestEnLow_wf {t : State} {s : State}
    (e : execTestEnLow s = .next t) (h : Memory.wf s) : Memory.wf t :=
  (wf_congr fun _ => by apply execTestEnLow_only e <;> decide).2 h

theorem execImageBootTimeout_wf {t : State} {s : State}
    (e : execImageBootTimeout s = .next t) (h : Memory.wf s) : Memory.wf t :=
  (wf_congr fun _ => by apply execImageBootTimeout_only e <;> decide).2 h

theorem execSupervisorBootEnd_wf {t : State} {tickCounts : Option (W32 × W32)} {monitorOk : Bool} {logOk : Bool} {s : State}
    (e : execSupervisorBootEnd tickCounts monitorOk logOk s = .next t) (h : Memory.wf s) : Memory.wf t := by
  injection e with e; subst e
  repeat' (first | with_reducible assumption | (with_reducible apply bootEnds_wf) | (with_reducible apply foldl_fst_wf) | (with_reducible apply foldl_wf) | intro _ | (with_reducible apply ite_wf) | split | dsimp only)

theorem execAonCheckEnd_wf {t : State} {s : State}
    (e : execAonCheckEnd s = .next t) (h : Memory.wf s) : Memory.wf t :=
  (wf_congr fun _ => by apply execAonCheckEnd_only e <;> decide).2 h

theorem execClockStartEnd_wf {t : State} {s : State}
    (e : execClockStartEnd s = .next t) (h : Memory.wf s) : Memory.wf t :=
  (wf_congr fun _ => by apply execClockStartEnd_only e <;> decide).2 h

theorem execGeodeTestEnd_wf {t : State} {failed : List BankNo} {s : State}
    (e : execGeodeTestEnd failed s = .next t) (h : Memory.wf s) : Memory.wf t := by
  injection e with e; subst e
  repeat' (first | with_reducible assumption | (with_reducible apply geodeTested_wf) | (with_reducible apply foldl_fst_wf) | (with_reducible apply foldl_wf) | intro _ | (with_reducible apply ite_wf) | split | dsimp only)

theorem execClusterRoundEnd_wf {t : State} {failed : List PhysNo} {s : State}
    (e : execClusterRoundEnd failed s = .next t) (h : Memory.wf s) : Memory.wf t :=
  (wf_congr fun _ => by apply execClusterRoundEnd_only e <;> decide).2 h

theorem execLpddrTrainingEnd_wf {t : State} {failed : List ExtNo} {s : State}
    (e : execLpddrTrainingEnd failed s = .next t) (h : Memory.wf s) : Memory.wf t := by
  injection e with e; subst e
  repeat' (first | with_reducible assumption | (with_reducible apply lpddrTested_wf) | (with_reducible apply foldl_fst_wf) | (with_reducible apply foldl_wf) | intro _ | (with_reducible apply ite_wf) | split | dsimp only)

theorem execMapping_wf {t : State} {s : State}
    (e : execMapping s = .next t) (h : Memory.wf s) : Memory.wf t := by
  injection e with e; subst e
  repeat' (first | with_reducible assumption | (with_reducible apply mappingEnds_wf) | (with_reducible apply foldl_fst_wf) | (with_reducible apply foldl_wf) | intro _ | (with_reducible apply ite_wf) | split | dsimp only)

theorem execScrubComplete_wf {t : State} {s : State}
    (e : execScrubComplete s = .next t) (h : Memory.wf s) : Memory.wf t :=
  (wf_congr fun _ => by apply execScrubComplete_only e <;> decide).2 h

theorem execPerstAssert_wf {t : State} {s : State}
    (e : execPerstAssert s = .next t) (h : Memory.wf s) : Memory.wf t := by
  injection e with e; subst e
  repeat' (first | with_reducible assumption | (simp only [↓pcieDown_wf, ↓upd_boot_wf]) | (with_reducible apply hostReset_wf) | (with_reducible apply foldl_fst_wf) | (with_reducible apply foldl_wf) | intro _ | (with_reducible apply ite_wf) | split | dsimp only)

theorem execPerstDeassert_wf {t : State} {s : State}
    (e : execPerstDeassert s = .next t) (h : Memory.wf s) : Memory.wf t :=
  (wf_congr fun _ => by apply execPerstDeassert_only e <;> decide).2 h

theorem execLinkL0_wf {t : State} {s : State}
    (e : execLinkL0 s = .next t) (h : Memory.wf s) : Memory.wf t :=
  (wf_congr fun _ => by apply execLinkL0_only e <;> decide).2 h

theorem execPcieLinkDown_wf {t : State} {s : State}
    (e : execPcieLinkDown s = .next t) (h : Memory.wf s) : Memory.wf t :=
  (wf_congr fun _ => by apply execPcieLinkDown_only e <;> decide).2 h

theorem execPcieReferenceLost_wf {t : State} {s : State}
    (e : execPcieReferenceLost s = .next t) (h : Memory.wf s) : Memory.wf t := by
  injection e with e; subst e
  repeat' (first | with_reducible assumption | (simp only [↓pcieDown_wf]) | (with_reducible apply hostReset_wf) | (with_reducible apply foldl_fst_wf) | (with_reducible apply foldl_wf) | intro _ | (with_reducible apply ite_wf) | split | dsimp only)

theorem execConfigRequest_wf {t : State} {fn : FnNo} {req : ConfigReq} {s : State}
    (e : execConfigRequest fn req s = .next t) (h : Memory.wf s) : Memory.wf t := by
  injection e with e; subst e
  repeat' (first | with_reducible assumption | (with_reducible apply configRequest_wf) | (with_reducible apply foldl_fst_wf) | (with_reducible apply foldl_wf) | intro _ | (with_reducible apply ite_wf) | split | dsimp only)

theorem execFlrPf_wf {t : State} {s : State}
    (e : execFlrPf s = .next t) (h : Memory.wf s) : Memory.wf t := by
  injection e with e; subst e
  repeat' (first | with_reducible assumption | (with_reducible apply hostReset_wf) | (with_reducible apply foldl_fst_wf) | (with_reducible apply foldl_wf) | intro _ | (with_reducible apply ite_wf) | split | dsimp only)

theorem execFlrVf_wf {t : State} {fn : FnNo} {s : State}
    (e : execFlrVf fn s = .next t) (h : Memory.wf s) : Memory.wf t := by
  injection e with e; subst e
  repeat' (first | with_reducible assumption | (with_reducible apply functionReset_wf) | (with_reducible apply foldl_fst_wf) | (with_reducible apply foldl_wf) | intro _ | (with_reducible apply ite_wf) | split | dsimp only)

theorem execD0ToD3hot_wf {t : State} {s : State}
    (e : execD0ToD3hot s = .next t) (h : Memory.wf s) : Memory.wf t :=
  (wf_congr fun _ => by apply execD0ToD3hot_only e <;> decide).2 h

theorem execD3hotToD0_wf {t : State} {s : State}
    (e : execD3hotToD0 s = .next t) (h : Memory.wf s) : Memory.wf t := by
  injection e with e; subst e
  repeat' (first | with_reducible assumption | (simp only [↓upd_boot_wf]) | (with_reducible apply hostReset_wf) | (with_reducible apply foldl_fst_wf) | (with_reducible apply foldl_wf) | intro _ | (with_reducible apply ite_wf) | split | dsimp only)

theorem execVfEnableClear_wf {t : State} {vfs : Option Nat} {s : State}
    (e : execVfEnableClear vfs s = .next t) (h : Memory.wf s) : Memory.wf t := by
  injection e with e; subst e
  repeat' (first | with_reducible assumption | (with_reducible apply setVfs_wf) | (with_reducible apply foldl_fst_wf) | (with_reducible apply foldl_wf) | intro _ | (with_reducible apply ite_wf) | split | dsimp only)

theorem execBusMasterEnable_wf {t : State} {fn : FnNo} {enable : Bool} {s : State}
    (e : execBusMasterEnable fn enable s = .next t) (h : Memory.wf s) : Memory.wf t := by
  injection e with e; subst e
  repeat' (first | with_reducible assumption | (with_reducible apply busMaster_wf) | (with_reducible apply foldl_fst_wf) | (with_reducible apply foldl_wf) | intro _ | (with_reducible apply ite_wf) | split | dsimp only)

theorem execWatchdogTimeout_wf {t : State} {counter : W32} {opcode : BitVec 8} {s : State}
    (e : execWatchdogTimeout counter opcode s = .next t) (h : Memory.wf s) : Memory.wf t :=
  (wf_congr fun _ => by apply execWatchdogTimeout_only e <;> decide).2 h

theorem execSupervisorMemoryError_wf {t : State} {address : W32} {s : State}
    (e : execSupervisorMemoryError address s = .next t) (h : Memory.wf s) : Memory.wf t :=
  (wf_congr fun _ => by apply execSupervisorMemoryError_only e <;> decide).2 h

theorem execAonCrystalLost_wf {t : State} {pll : Bool} {status : W32} {s : State}
    (e : execAonCrystalLost pll status s = .next t) (h : Memory.wf s) : Memory.wf t :=
  (wf_congr fun _ => by apply execAonCrystalLost_only e <;> decide).2 h

theorem execAlwaysOnParity_wf {t : State} {group : W32} {s : State}
    (e : execAlwaysOnParity group s = .next t) (h : Memory.wf s) : Memory.wf t :=
  (wf_congr fun _ => by apply execAlwaysOnParity_only e <;> decide).2 h

theorem execFirmwareIntegrityFailed_wf {t : State} {check : W32} {s : State}
    (e : execFirmwareIntegrityFailed check s = .next t) (h : Memory.wf s) : Memory.wf t :=
  (wf_congr fun _ => by apply execFirmwareIntegrityFailed_only e <;> decide).2 h

/-! ### Thermal -/

theorem modThermal_wf (s : State) (f : Thermal → Thermal) : Memory.wf (State.modThermal s f) ↔ Memory.wf s :=
  wf_congr fun _ => by apply modThermal_only <;> decide

theorem sensorFails_wf (s : State) (n : Fin 83) : Memory.wf (State.sensorFails s n) ↔ Memory.wf s :=
  wf_congr fun _ => by apply sensorFails_only <;> decide

theorem sampleSensor_wf (s : State) (n : Fin 83) (v : Int) : Memory.wf (State.sampleSensor s n v) ↔ Memory.wf s :=
  wf_congr fun _ => by apply sampleSensor_only <;> decide

theorem sendThermalCap_wf (s : State) : Memory.wf (State.sendThermalCap s) ↔ Memory.wf s :=
  wf_congr fun _ => by apply sendThermalCap_only <;> decide

theorem setThermalCap_wf (s : State) (c : Option Nat) : Memory.wf (State.setThermalCap s c) ↔ Memory.wf s :=
  wf_congr fun _ => by apply setThermalCap_only <;> decide

theorem enterCapped_wf (s : State) (cap : Nat) : Memory.wf (State.enterCapped s cap) ↔ Memory.wf s :=
  wf_congr fun _ => by apply enterCapped_only <;> decide

theorem stepCap_wf (s : State) (cap : Nat) : Memory.wf (State.stepCap s cap) ↔ Memory.wf s :=
  wf_congr fun _ => by apply stepCap_only <;> decide

theorem sensorCap_wf (s : State) : Memory.wf (State.sensorCap s) ↔ Memory.wf s :=
  wf_congr fun _ => by apply sensorCap_only <;> decide

theorem noteTj_wf (s : State) (tj : Int) : Memory.wf (State.noteTj s tj) ↔ Memory.wf s :=
  wf_congr fun _ => by apply noteTj_only <;> decide

theorem capSample_wf (s : State) (tj : Int) : Memory.wf (State.capSample s tj) ↔ Memory.wf s :=
  wf_congr fun _ => by apply capSample_only <;> decide

theorem shutSample_wf (s : State) (tj : Int) : Memory.wf (State.shutSample s tj) ↔ Memory.wf s :=
  wf_congr fun _ => by apply shutSample_only <;> decide

theorem sampleDie_wf (readings : List Int) (s : State) : Memory.wf (sampleDie readings s) ↔ Memory.wf s :=
  wf_congr fun _ => by apply sampleDie_only <;> decide

theorem stepExpires_wf (s : State) : Memory.wf (stepExpires s) ↔ Memory.wf s :=
  wf_congr fun _ => by apply stepExpires_only <;> decide

theorem releaseExpires_wf (s : State) : Memory.wf (releaseExpires s) ↔ Memory.wf s :=
  wf_congr fun _ => by apply releaseExpires_only <;> decide

theorem smbus_wf (s : State) (data : Option (List Byte)) : Memory.wf (State.smbus s data) ↔ Memory.wf s :=
  wf_congr fun _ => by apply smbus_only <;> decide

theorem execSensorSample_wf {t : State} {readings : List Int} {s : State}
    (e : execSensorSample readings s = .next t) (h : Memory.wf s) : Memory.wf t :=
  (wf_congr fun _ => by apply execSensorSample_only e <;> decide).2 h

theorem execCardSensorSample_wf {t : State} {reading : Int} {s : State}
    (e : execCardSensorSample reading s = .next t) (h : Memory.wf s) : Memory.wf t :=
  (wf_congr fun _ => by apply execCardSensorSample_only e <;> decide).2 h

theorem execStepTimer_wf {t : State} {s : State}
    (e : execStepTimer s = .next t) (h : Memory.wf s) : Memory.wf t :=
  (wf_congr fun _ => by apply execStepTimer_only e <;> decide).2 h

theorem execReleaseTimer_wf {t : State} {s : State}
    (e : execReleaseTimer s = .next t) (h : Memory.wf s) : Memory.wf t :=
  (wf_congr fun _ => by apply execReleaseTimer_only e <;> decide).2 h

theorem execSmbusProduct_wf {t : State} {s : State}
    (e : execSmbusProduct s = .next t) (h : Memory.wf s) : Memory.wf t :=
  (wf_congr fun _ => by apply execSmbusProduct_only e <;> decide).2 h

theorem execSmbusOrder_wf {t : State} {s : State}
    (e : execSmbusOrder s = .next t) (h : Memory.wf s) : Memory.wf t :=
  (wf_congr fun _ => by apply execSmbusOrder_only e <;> decide).2 h

theorem execSmbusSerial_wf {t : State} {s : State}
    (e : execSmbusSerial s = .next t) (h : Memory.wf s) : Memory.wf t :=
  (wf_congr fun _ => by apply execSmbusSerial_only e <;> decide).2 h

theorem execSmbusFwVersion_wf {t : State} {s : State}
    (e : execSmbusFwVersion s = .next t) (h : Memory.wf s) : Memory.wf t :=
  (wf_congr fun _ => by apply execSmbusFwVersion_only e <;> decide).2 h

theorem execSmbusSupplyStatus_wf {t : State} {s : State}
    (e : execSmbusSupplyStatus s = .next t) (h : Memory.wf s) : Memory.wf t :=
  (wf_congr fun _ => by apply execSmbusSupplyStatus_only e <;> decide).2 h

theorem execSmbusVinMain_wf {t : State} {s : State}
    (e : execSmbusVinMain s = .next t) (h : Memory.wf s) : Memory.wf t :=
  (wf_congr fun _ => by apply execSmbusVinMain_only e <;> decide).2 h

theorem execSmbusVinAux_wf {t : State} {s : State}
    (e : execSmbusVinAux s = .next t) (h : Memory.wf s) : Memory.wf t :=
  (wf_congr fun _ => by apply execSmbusVinAux_only e <;> decide).2 h

theorem execSmbusPowerState_wf {t : State} {s : State}
    (e : execSmbusPowerState s = .next t) (h : Memory.wf s) : Memory.wf t :=
  (wf_congr fun _ => by apply execSmbusPowerState_only e <;> decide).2 h

theorem execSmbusTJ_wf {t : State} {s : State}
    (e : execSmbusTJ s = .next t) (h : Memory.wf s) : Memory.wf t :=
  (wf_congr fun _ => by apply execSmbusTJ_only e <;> decide).2 h

theorem execSmbusCardTemperature_wf {t : State} {s : State}
    (e : execSmbusCardTemperature s = .next t) (h : Memory.wf s) : Memory.wf t :=
  (wf_congr fun _ => by apply execSmbusCardTemperature_only e <;> decide).2 h

theorem execSmbusState_wf {t : State} {s : State}
    (e : execSmbusState s = .next t) (h : Memory.wf s) : Memory.wf t :=
  (wf_congr fun _ => by apply execSmbusState_only e <;> decide).2 h

theorem execSmbusNack_wf {t : State} {code : BitVec 8} {write : Bool} {protocol : BitVec 8} {s : State}
    (e : execSmbusNack code write protocol s = .next t) (h : Memory.wf s) : Memory.wf t :=
  (wf_congr fun _ => by apply execSmbusNack_only e <;> decide).2 h

/-! ### Telemetry -/

theorem foldAll_wf (s : State) : Memory.wf (State.foldAll s) ↔ Memory.wf s :=
  wf_congr fun _ => by apply foldAll_only <;> decide

theorem clearGroup_wf (s : State) (fn : FnNo) (g : BitVec 8) (c : W16) : Memory.wf (State.clearGroup s fn g c) ↔ Memory.wf s :=
  wf_congr fun _ => by apply clearGroup_only <;> decide

theorem execTelemetryRead_wf {t : State} {fn : FnNo} {qp : QpNo} {pkt : Packet} {s : State}
    (e : execTelemetryRead fn qp pkt s = .next t) (h : Memory.wf s) : Memory.wf t :=
  (wf_congr fun _ => by apply execTelemetryRead_only e <;> decide).2 h

theorem execCounterConfigClear_wf {t : State} {fn : FnNo} {qp : QpNo} {pkt : Packet} {s : State}
    (e : execCounterConfigClear fn qp pkt s = .next t) (h : Memory.wf s) : Memory.wf t :=
  (wf_congr fun _ => by apply execCounterConfigClear_only e <;> decide).2 h

/-! ### Transfers -/

theorem stop_wf (s : State) (r : Run) (i : Nat) (k : Nat) (a4 : Stop) (h : Memory.wf s) : Memory.wf (State.stop s r i k a4) := by
  unfold State.stop
  repeat' (first | with_reducible assumption | (with_reducible apply progFault_wf) | (with_reducible apply abortFrame_wf) | (with_reducible apply foldl_fst_wf) | (with_reducible apply foldl_wf) | intro _ | (with_reducible apply ite_wf) | split | dsimp only)

theorem readFound_wf (opc : Nat) (reads : Uop → Reads) (l : LogNo) (x : Nat × Ecc) (s : State) (h : Memory.wf s) : Memory.wf (readFound opc reads l x s) := by
  unfold readFound
  repeat' (first | with_reducible assumption | (simp only [↓onHead_wf]) | (with_reducible apply foundAt_wf) | (with_reducible apply stop_wf) | (with_reducible apply foldl_fst_wf) | (with_reducible apply foldl_wf) | (with_reducible apply onHead_wf) | intro _ | (with_reducible apply ite_wf) | split | dsimp only)

theorem withFound_wf {opc : Nat} {reads : Uop → Reads} {l : LogNo} {issue : State → State}
    {found : Option (Nat × Ecc)} {s : State} (hi : ∀ t, Memory.wf t → Memory.wf (issue t)) (h : Memory.wf s) :
    Memory.wf (withFound opc reads l issue found s) := by
  unfold withFound; dsimp only
  (repeat' split) <;> first
    | exact hi _ h
    | exact hi _ (readFound_wf _ _ _ _ _ h)
    | exact readFound_wf _ _ _ _ _ h

theorem sloadIssue_wf (l : LogNo) (s : State) (h : Memory.wf s) : Memory.wf (sloadIssue l s) := by
  unfold sloadIssue
  repeat' (first | with_reducible assumption | (simp only [↓onHead_wf, ↓draw_wf, ↓issue_wf, ↓fillSlot_wf]) | (with_reducible apply stop_wf) | (with_reducible apply foldl_fst_wf) | (with_reducible apply foldl_wf) | (with_reducible apply onHead_wf) | intro _ | (with_reducible apply ite_wf) | split | dsimp only)

theorem writeBlockRows_wf (s : State) (r : Run) (i : Nat) (loc : Nat) (len : Nat) (rows : List (List Byte)) (h : Memory.wf s) : Memory.wf (State.writeBlockRows s r i loc len rows) := by
  unfold State.writeBlockRows
  repeat' (first | with_reducible assumption | (with_reducible apply windowWrite_wf) | (with_reducible apply forEach_wf) | (with_reducible apply foldl_fst_wf) | (with_reducible apply foldl_wf) | intro _ | (with_reducible apply ite_wf) | split | dsimp only)

theorem getIssue_wf (l : LogNo) (s : State) (h : Memory.wf s) : Memory.wf (getIssue l s) := by
  unfold getIssue
  repeat' (first | with_reducible assumption | (simp only [↓onHead_wf, ↓issue_wf]) | (with_reducible apply stop_wf) | (with_reducible apply writeBlockRows_wf) | (with_reducible apply foldl_fst_wf) | (with_reducible apply foldl_wf) | (with_reducible apply onHead_wf) | intro _ | (with_reducible apply ite_wf) | split | dsimp only)

theorem baseWrite_wf {s t : State} {x : Run} {f : Frame} {base off : Nat} {l : List Byte}
    (e : s.baseWrite x f base off l = .ok t) (h : Memory.wf s) : Memory.wf t := by
  unfold State.baseWrite at e
  dsimp only at e
  (repeat' split at e) <;> cases e
  · exact (modRun_wf _ _ _).2 h
  · exact viewWrite_wf _ _ _ h

theorem putRows_wf (s : State) (x : Run) (i : Nat) (f : Frame) (o : BlockOp) (l : List Nat) (h : Memory.wf s) :
    Memory.wf (s.putRows x i f o l).1 := by
  induction l generalizing s with
  | nil => simpa only [State.putRows] using h
  | cons a l ih =>
    rw [State.putRows]
    split
    · exact h
    · rename_i e
      exact ih _ (baseWrite_wf e h)

theorem putIssue_wf (l : LogNo) (s : State) (h : Memory.wf s) : Memory.wf (putIssue l s) := by
  unfold putIssue
  repeat' (first | with_reducible assumption | (simp only [↓onHead_wf, ↓issue_wf, ↓draw_wf]) | (with_reducible apply putRows_wf) | (with_reducible apply stop_wf) | (with_reducible apply foldl_fst_wf) | (with_reducible apply foldl_wf) | (with_reducible apply onHead_wf) | intro _ | (with_reducible apply ite_wf) | split | dsimp only)

theorem exchange_wf (s : State) (r : Run) (i : Nat) (si : Nat) (j : Nat) (rj : Nat) (h : Memory.wf s) : Memory.wf (State.exchange s r i si j rj) := by
  unfold State.exchange
  repeat' (first | with_reducible assumption | (simp only [↓flightDone_wf]) | (with_reducible apply progFault_wf) | (with_reducible apply windowWrite_wf) | (with_reducible apply forEach_wf) | (with_reducible apply foldl_fst_wf) | (with_reducible apply foldl_wf) | intro _ | (with_reducible apply ite_wf) | split | dsimp only)

theorem hsendIssue_wf (l : LogNo) (s : State) (h : Memory.wf s) : Memory.wf (hsendIssue l s) := by
  unfold hsendIssue
  repeat' (first | with_reducible assumption | (simp only [↓onHead_wf, ↓modPos_wf, ↓issue_wf]) | (with_reducible apply exchange_wf) | (with_reducible apply foldl_fst_wf) | (with_reducible apply foldl_wf) | (with_reducible apply onHead_wf) | intro _ | (with_reducible apply ite_wf) | split | dsimp only)

theorem hrecvIssue_wf (l : LogNo) (s : State) (h : Memory.wf s) : Memory.wf (hrecvIssue l s) := by
  unfold hrecvIssue
  repeat' (first | with_reducible assumption | (simp only [↓onHead_wf, ↓modPos_wf, ↓issue_wf]) | (with_reducible apply exchange_wf) | (with_reducible apply foldl_fst_wf) | (with_reducible apply foldl_wf) | (with_reducible apply onHead_wf) | intro _ | (with_reducible apply ite_wf) | split | dsimp only)

theorem execSload_wf {t : State} {read : SlotRead} {s : State}
    (e : execSload read s = .next t) (h : Memory.wf s) : Memory.wf t := by
  injection e with e; subst e
  repeat' (first | with_reducible assumption | (with_reducible apply withFound_wf) | (with_reducible apply sloadIssue_wf) | (with_reducible apply foldl_fst_wf) | (with_reducible apply foldl_wf) | (with_reducible apply withFound_wf) | intro _ | (with_reducible apply ite_wf) | split | dsimp only)

theorem execGet_wf {t : State} {cluster : LogNo} {found : Option (Nat × Ecc)} {s : State}
    (e : execGet cluster found s = .next t) (h : Memory.wf s) : Memory.wf t := by
  injection e with e; subst e
  repeat' (first | with_reducible assumption | (with_reducible apply withFound_wf) | (with_reducible apply getIssue_wf) | (with_reducible apply foldl_fst_wf) | (with_reducible apply foldl_wf) | (with_reducible apply withFound_wf) | intro _ | (with_reducible apply ite_wf) | split | dsimp only)

theorem execPut_wf {t : State} {cluster : LogNo} {s : State}
    (e : execPut cluster s = .next t) (h : Memory.wf s) : Memory.wf t := by
  injection e with e; subst e
  repeat' (first | with_reducible assumption | (with_reducible apply putIssue_wf) | (with_reducible apply foldl_fst_wf) | (with_reducible apply foldl_wf) | intro _ | (with_reducible apply ite_wf) | split | dsimp only)

theorem execHsend_wf {t : State} {cluster : LogNo} {s : State}
    (e : execHsend cluster s = .next t) (h : Memory.wf s) : Memory.wf t := by
  injection e with e; subst e
  repeat' (first | with_reducible assumption | (with_reducible apply hsendIssue_wf) | (with_reducible apply foldl_fst_wf) | (with_reducible apply foldl_wf) | intro _ | (with_reducible apply ite_wf) | split | dsimp only)

theorem execHrecv_wf {t : State} {cluster : LogNo} {s : State}
    (e : execHrecv cluster s = .next t) (h : Memory.wf s) : Memory.wf t := by
  injection e with e; subst e
  repeat' (first | with_reducible assumption | (with_reducible apply hrecvIssue_wf) | (with_reducible apply foldl_fst_wf) | (with_reducible apply foldl_wf) | intro _ | (with_reducible apply ite_wf) | split | dsimp only)

/-! ### Step -/

theorem withFetchWord_wf (s : State) (nbits : Nat) (w : Nat) : Memory.wf (State.withFetchWord s nbits w) ↔ Memory.wf s :=
  wf_congr fun _ => by apply withFetchWord_only <;> decide

end Sys2Proof.Machine
end

