-- ==== Sys2Proof/Laws/State.lean ====
section
/-!
SUPPORT. What each named update of the state leaves: one lemma per update and field, so that no proof unfolds a record
update. The lemmas of an update stand together: first the component which it changes, then the others.
-/

namespace Sys2Proof.Machine

/-! ### `State.modFn` -/

@[simp] theorem State.modFn_fns (s : State) (fn : FnNo) (f : Func → Func) :
    (s.modFn fn f).fns = vmod s.fns fn f := rfl
@[simp] theorem State.modFn_pending (s : State) (fn : FnNo) (f : Func → Func) : (s.modFn fn f).pending = s.pending := rfl
@[simp] theorem State.modFn_out (s : State) (fn : FnNo) (f : Func → Func) : (s.modFn fn f).out = s.out := rfl
@[simp] theorem State.modFn_tick (s : State) (fn : FnNo) (f : Func → Func) : (s.modFn fn f).tick = s.tick := rfl
@[simp] theorem State.modFn_withhold (s : State) (fn : FnNo) (f : Func → Func) : (s.modFn fn f).withhold = s.withhold := rfl
@[simp] theorem State.modFn_free (s : State) (fn : FnNo) (f : Func → Func) : (s.modFn fn f).free = s.free := rfl
@[simp] theorem State.modFn_nextId (s : State) (fn : FnNo) (f : Func → Func) : (s.modFn fn f).nextId = s.nextId := rfl
@[simp] theorem State.modFn_nextLaunch (s : State) (fn : FnNo) (f : Func → Func) : (s.modFn fn f).nextLaunch = s.nextLaunch := rfl
@[simp] theorem State.modFn_order32 (s : State) (fn : FnNo) (f : Func → Func) : (s.modFn fn f).order32 = s.order32 := rfl
@[simp] theorem State.modFn_outst (s : State) (fn : FnNo) (f : Func → Func) : (s.modFn fn f).outst = s.outst := rfl
@[simp] theorem State.modFn_strata (s : State) (fn : FnNo) (f : Func → Func) : (s.modFn fn f).strata = s.strata := rfl
@[simp] theorem State.modFn_geo (s : State) (fn : FnNo) (f : Func → Func) : (s.modFn fn f).geo = s.geo := rfl
@[simp] theorem State.modFn_ext (s : State) (fn : FnNo) (f : Func → Func) : (s.modFn fn f).ext = s.ext := rfl
@[simp] theorem State.modFn_copies (s : State) (fn : FnNo) (f : Func → Func) : (s.modFn fn f).copies = s.copies := rfl
@[simp] theorem State.modFn_deliveries (s : State) (fn : FnNo) (f : Func → Func) : (s.modFn fn f).deliveries = s.deliveries := rfl
@[simp] theorem State.modFn_sup (s : State) (fn : FnNo) (f : Func → Func) : (s.modFn fn f).sup = s.sup := rfl
@[simp] theorem State.modFn_plans (s : State) (fn : FnNo) (f : Func → Func) : (s.modFn fn f).plans = s.plans := rfl
@[simp] theorem State.modFn_boot (s : State) (fn : FnNo) (f : Func → Func) : (s.modFn fn f).boot = s.boot := rfl
@[simp] theorem State.modFn_units (s : State) (fn : FnNo) (f : Func → Func) : (s.modFn fn f).units = s.units := rfl
@[simp] theorem State.modFn_mapping (s : State) (fn : FnNo) (f : Func → Func) : (s.modFn fn f).mapping = s.mapping := rfl
@[simp] theorem State.modFn_lastPhys (s : State) (fn : FnNo) (f : Func → Func) : (s.modFn fn f).lastPhys = s.lastPhys := rfl
@[simp] theorem State.modFn_toReplace (s : State) (fn : FnNo) (f : Func → Func) : (s.modFn fn f).toReplace = s.toReplace := rfl
@[simp] theorem State.modFn_scratch (s : State) (fn : FnNo) (f : Func → Func) : (s.modFn fn f).scratch = s.scratch := rfl
@[simp] theorem State.modFn_clusters (s : State) (fn : FnNo) (f : Func → Func) : (s.modFn fn f).clusters = s.clusters := rfl
@[simp] theorem State.modFn_waits (s : State) (fn : FnNo) (f : Func → Func) : (s.modFn fn f).waits = s.waits := rfl
@[simp] theorem State.modFn_barriers (s : State) (fn : FnNo) (f : Func → Func) : (s.modFn fn f).barriers = s.barriers := rfl
@[simp] theorem State.modFn_progs (s : State) (fn : FnNo) (f : Func → Func) : (s.modFn fn f).progs = s.progs := rfl
@[simp] theorem State.modFn_scheduled (s : State) (fn : FnNo) (f : Func → Func) : (s.modFn fn f).scheduled = s.scheduled := rfl
@[simp] theorem State.modFn_tables (s : State) (fn : FnNo) (f : Func → Func) : (s.modFn fn f).tables = s.tables := rfl
@[simp] theorem State.modFn_mprogs (s : State) (fn : FnNo) (f : Func → Func) : (s.modFn fn f).mprogs = s.mprogs := rfl
@[simp] theorem State.modFn_tableLoads (s : State) (fn : FnNo) (f : Func → Func) : (s.modFn fn f).tableLoads = s.tableLoads := rfl
@[simp] theorem State.modFn_mprogLoads (s : State) (fn : FnNo) (f : Func → Func) : (s.modFn fn f).mprogLoads = s.mprogLoads := rfl
@[simp] theorem State.modFn_runs (s : State) (fn : FnNo) (f : Func → Func) : (s.modFn fn f).runs = s.runs := rfl
@[simp] theorem State.modFn_ports (s : State) (fn : FnNo) (f : Func → Func) : (s.modFn fn f).ports = s.ports := rfl
@[simp] theorem State.modFn_lanes (s : State) (fn : FnNo) (f : Func → Func) : (s.modFn fn f).lanes = s.lanes := rfl
@[simp] theorem State.modFn_chans (s : State) (fn : FnNo) (f : Func → Func) : (s.modFn fn f).chans = s.chans := rfl
@[simp] theorem State.modFn_frames (s : State) (fn : FnNo) (f : Func → Func) : (s.modFn fn f).frames = s.frames := rfl
@[simp] theorem State.modFn_stores (s : State) (fn : FnNo) (f : Func → Func) : (s.modFn fn f).stores = s.stores := rfl
@[simp] theorem State.modFn_pieces (s : State) (fn : FnNo) (f : Func → Func) : (s.modFn fn f).pieces = s.pieces := rfl
@[simp] theorem State.modFn_loaded (s : State) (fn : FnNo) (f : Func → Func) : (s.modFn fn f).loaded = s.loaded := rfl
@[simp] theorem State.modFn_repro (s : State) (fn : FnNo) (f : Func → Func) : (s.modFn fn f).repro = s.repro := rfl
@[simp] theorem State.modFn_lock (s : State) (fn : FnNo) (f : Func → Func) : (s.modFn fn f).lock = s.lock := rfl
@[simp] theorem State.modFn_faults (s : State) (fn : FnNo) (f : Func → Func) : (s.modFn fn f).faults = s.faults := rfl
@[simp] theorem State.modFn_logReads (s : State) (fn : FnNo) (f : Func → Func) : (s.modFn fn f).logReads = s.logReads := rfl
@[simp] theorem State.modFn_nv (s : State) (fn : FnNo) (f : Func → Func) : (s.modFn fn f).nv = s.nv := rfl
@[simp] theorem State.modFn_panel (s : State) (fn : FnNo) (f : Func → Func) : (s.modFn fn f).panel = s.panel := rfl
@[simp] theorem State.modFn_thermal (s : State) (fn : FnNo) (f : Func → Func) : (s.modFn fn f).thermal = s.thermal := rfl
@[simp] theorem State.modFn_telem (s : State) (fn : FnNo) (f : Func → Func) : (s.modFn fn f).telem = s.telem := rfl
@[simp] theorem State.modFn_slots (s : State) (fn : FnNo) (f : Func → Func) : (s.modFn fn f).slots = s.slots := rfl
@[simp] theorem State.modFn_remaps (s : State) (fn : FnNo) (f : Func → Func) : (s.modFn fn f).remaps = s.remaps := rfl
@[simp] theorem State.modFn_jtag (s : State) (fn : FnNo) (f : Func → Func) : (s.modFn fn f).jtag = s.jtag := rfl

/-! ### `State.modQp` -/

@[simp] theorem State.modQp_fns (s : State) (fn : FnNo) (qp : QpNo) (f : QPair → QPair) :
    (s.modQp fn qp f).fns = vmod s.fns fn fun g => { g with qps := vmod g.qps qp f } := rfl
@[simp] theorem State.modQp_pending (s : State) (fn : FnNo) (qp : QpNo) (f : QPair → QPair) : (s.modQp fn qp f).pending = s.pending := rfl
@[simp] theorem State.modQp_out (s : State) (fn : FnNo) (qp : QpNo) (f : QPair → QPair) : (s.modQp fn qp f).out = s.out := rfl
@[simp] theorem State.modQp_tick (s : State) (fn : FnNo) (qp : QpNo) (f : QPair → QPair) : (s.modQp fn qp f).tick = s.tick := rfl
@[simp] theorem State.modQp_withhold (s : State) (fn : FnNo) (qp : QpNo) (f : QPair → QPair) : (s.modQp fn qp f).withhold = s.withhold := rfl
@[simp] theorem State.modQp_free (s : State) (fn : FnNo) (qp : QpNo) (f : QPair → QPair) : (s.modQp fn qp f).free = s.free := rfl
@[simp] theorem State.modQp_nextId (s : State) (fn : FnNo) (qp : QpNo) (f : QPair → QPair) : (s.modQp fn qp f).nextId = s.nextId := rfl
@[simp] theorem State.modQp_nextLaunch (s : State) (fn : FnNo) (qp : QpNo) (f : QPair → QPair) : (s.modQp fn qp f).nextLaunch = s.nextLaunch := rfl
@[simp] theorem State.modQp_order32 (s : State) (fn : FnNo) (qp : QpNo) (f : QPair → QPair) : (s.modQp fn qp f).order32 = s.order32 := rfl
@[simp] theorem State.modQp_outst (s : State) (fn : FnNo) (qp : QpNo) (f : QPair → QPair) : (s.modQp fn qp f).outst = s.outst := rfl
@[simp] theorem State.modQp_strata (s : State) (fn : FnNo) (qp : QpNo) (f : QPair → QPair) : (s.modQp fn qp f).strata = s.strata := rfl
@[simp] theorem State.modQp_geo (s : State) (fn : FnNo) (qp : QpNo) (f : QPair → QPair) : (s.modQp fn qp f).geo = s.geo := rfl
@[simp] theorem State.modQp_ext (s : State) (fn : FnNo) (qp : QpNo) (f : QPair → QPair) : (s.modQp fn qp f).ext = s.ext := rfl
@[simp] theorem State.modQp_copies (s : State) (fn : FnNo) (qp : QpNo) (f : QPair → QPair) : (s.modQp fn qp f).copies = s.copies := rfl
@[simp] theorem State.modQp_deliveries (s : State) (fn : FnNo) (qp : QpNo) (f : QPair → QPair) : (s.modQp fn qp f).deliveries = s.deliveries := rfl
@[simp] theorem State.modQp_sup (s : State) (fn : FnNo) (qp : QpNo) (f : QPair → QPair) : (s.modQp fn qp f).sup = s.sup := rfl
@[simp] theorem State.modQp_plans (s : State) (fn : FnNo) (qp : QpNo) (f : QPair → QPair) : (s.modQp fn qp f).plans = s.plans := rfl
@[simp] theorem State.modQp_boot (s : State) (fn : FnNo) (qp : QpNo) (f : QPair → QPair) : (s.modQp fn qp f).boot = s.boot := rfl
@[simp] theorem State.modQp_units (s : State) (fn : FnNo) (qp : QpNo) (f : QPair → QPair) : (s.modQp fn qp f).units = s.units := rfl
@[simp] theorem State.modQp_mapping (s : State) (fn : FnNo) (qp : QpNo) (f : QPair → QPair) : (s.modQp fn qp f).mapping = s.mapping := rfl
@[simp] theorem State.modQp_lastPhys (s : State) (fn : FnNo) (qp : QpNo) (f : QPair → QPair) : (s.modQp fn qp f).lastPhys = s.lastPhys := rfl
@[simp] theorem State.modQp_toReplace (s : State) (fn : FnNo) (qp : QpNo) (f : QPair → QPair) : (s.modQp fn qp f).toReplace = s.toReplace := rfl
@[simp] theorem State.modQp_scratch (s : State) (fn : FnNo) (qp : QpNo) (f : QPair → QPair) : (s.modQp fn qp f).scratch = s.scratch := rfl
@[simp] theorem State.modQp_clusters (s : State) (fn : FnNo) (qp : QpNo) (f : QPair → QPair) : (s.modQp fn qp f).clusters = s.clusters := rfl
@[simp] theorem State.modQp_waits (s : State) (fn : FnNo) (qp : QpNo) (f : QPair → QPair) : (s.modQp fn qp f).waits = s.waits := rfl
@[simp] theorem State.modQp_barriers (s : State) (fn : FnNo) (qp : QpNo) (f : QPair → QPair) : (s.modQp fn qp f).barriers = s.barriers := rfl
@[simp] theorem State.modQp_progs (s : State) (fn : FnNo) (qp : QpNo) (f : QPair → QPair) : (s.modQp fn qp f).progs = s.progs := rfl
@[simp] theorem State.modQp_scheduled (s : State) (fn : FnNo) (qp : QpNo) (f : QPair → QPair) : (s.modQp fn qp f).scheduled = s.scheduled := rfl
@[simp] theorem State.modQp_tables (s : State) (fn : FnNo) (qp : QpNo) (f : QPair → QPair) : (s.modQp fn qp f).tables = s.tables := rfl
@[simp] theorem State.modQp_mprogs (s : State) (fn : FnNo) (qp : QpNo) (f : QPair → QPair) : (s.modQp fn qp f).mprogs = s.mprogs := rfl
@[simp] theorem State.modQp_tableLoads (s : State) (fn : FnNo) (qp : QpNo) (f : QPair → QPair) : (s.modQp fn qp f).tableLoads = s.tableLoads := rfl
@[simp] theorem State.modQp_mprogLoads (s : State) (fn : FnNo) (qp : QpNo) (f : QPair → QPair) : (s.modQp fn qp f).mprogLoads = s.mprogLoads := rfl
@[simp] theorem State.modQp_runs (s : State) (fn : FnNo) (qp : QpNo) (f : QPair → QPair) : (s.modQp fn qp f).runs = s.runs := rfl
@[simp] theorem State.modQp_ports (s : State) (fn : FnNo) (qp : QpNo) (f : QPair → QPair) : (s.modQp fn qp f).ports = s.ports := rfl
@[simp] theorem State.modQp_lanes (s : State) (fn : FnNo) (qp : QpNo) (f : QPair → QPair) : (s.modQp fn qp f).lanes = s.lanes := rfl
@[simp] theorem State.modQp_chans (s : State) (fn : FnNo) (qp : QpNo) (f : QPair → QPair) : (s.modQp fn qp f).chans = s.chans := rfl
@[simp] theorem State.modQp_frames (s : State) (fn : FnNo) (qp : QpNo) (f : QPair → QPair) : (s.modQp fn qp f).frames = s.frames := rfl
@[simp] theorem State.modQp_stores (s : State) (fn : FnNo) (qp : QpNo) (f : QPair → QPair) : (s.modQp fn qp f).stores = s.stores := rfl
@[simp] theorem State.modQp_pieces (s : State) (fn : FnNo) (qp : QpNo) (f : QPair → QPair) : (s.modQp fn qp f).pieces = s.pieces := rfl
@[simp] theorem State.modQp_loaded (s : State) (fn : FnNo) (qp : QpNo) (f : QPair → QPair) : (s.modQp fn qp f).loaded = s.loaded := rfl
@[simp] theorem State.modQp_repro (s : State) (fn : FnNo) (qp : QpNo) (f : QPair → QPair) : (s.modQp fn qp f).repro = s.repro := rfl
@[simp] theorem State.modQp_lock (s : State) (fn : FnNo) (qp : QpNo) (f : QPair → QPair) : (s.modQp fn qp f).lock = s.lock := rfl
@[simp] theorem State.modQp_faults (s : State) (fn : FnNo) (qp : QpNo) (f : QPair → QPair) : (s.modQp fn qp f).faults = s.faults := rfl
@[simp] theorem State.modQp_logReads (s : State) (fn : FnNo) (qp : QpNo) (f : QPair → QPair) : (s.modQp fn qp f).logReads = s.logReads := rfl
@[simp] theorem State.modQp_nv (s : State) (fn : FnNo) (qp : QpNo) (f : QPair → QPair) : (s.modQp fn qp f).nv = s.nv := rfl
@[simp] theorem State.modQp_panel (s : State) (fn : FnNo) (qp : QpNo) (f : QPair → QPair) : (s.modQp fn qp f).panel = s.panel := rfl
@[simp] theorem State.modQp_thermal (s : State) (fn : FnNo) (qp : QpNo) (f : QPair → QPair) : (s.modQp fn qp f).thermal = s.thermal := rfl
@[simp] theorem State.modQp_telem (s : State) (fn : FnNo) (qp : QpNo) (f : QPair → QPair) : (s.modQp fn qp f).telem = s.telem := rfl
@[simp] theorem State.modQp_slots (s : State) (fn : FnNo) (qp : QpNo) (f : QPair → QPair) : (s.modQp fn qp f).slots = s.slots := rfl
@[simp] theorem State.modQp_remaps (s : State) (fn : FnNo) (qp : QpNo) (f : QPair → QPair) : (s.modQp fn qp f).remaps = s.remaps := rfl
@[simp] theorem State.modQp_jtag (s : State) (fn : FnNo) (qp : QpNo) (f : QPair → QPair) : (s.modQp fn qp f).jtag = s.jtag := rfl

/-! ### `State.modEvq` -/

@[simp] theorem State.modEvq_fns (s : State) (fn : FnNo) (f : Evq → Evq) :
    (s.modEvq fn f).fns = vmod s.fns fn fun g => { g with evq := f g.evq } := rfl
@[simp] theorem State.modEvq_pending (s : State) (fn : FnNo) (f : Evq → Evq) : (s.modEvq fn f).pending = s.pending := rfl
@[simp] theorem State.modEvq_out (s : State) (fn : FnNo) (f : Evq → Evq) : (s.modEvq fn f).out = s.out := rfl
@[simp] theorem State.modEvq_tick (s : State) (fn : FnNo) (f : Evq → Evq) : (s.modEvq fn f).tick = s.tick := rfl
@[simp] theorem State.modEvq_withhold (s : State) (fn : FnNo) (f : Evq → Evq) : (s.modEvq fn f).withhold = s.withhold := rfl
@[simp] theorem State.modEvq_free (s : State) (fn : FnNo) (f : Evq → Evq) : (s.modEvq fn f).free = s.free := rfl
@[simp] theorem State.modEvq_nextId (s : State) (fn : FnNo) (f : Evq → Evq) : (s.modEvq fn f).nextId = s.nextId := rfl
@[simp] theorem State.modEvq_nextLaunch (s : State) (fn : FnNo) (f : Evq → Evq) : (s.modEvq fn f).nextLaunch = s.nextLaunch := rfl
@[simp] theorem State.modEvq_order32 (s : State) (fn : FnNo) (f : Evq → Evq) : (s.modEvq fn f).order32 = s.order32 := rfl
@[simp] theorem State.modEvq_outst (s : State) (fn : FnNo) (f : Evq → Evq) : (s.modEvq fn f).outst = s.outst := rfl
@[simp] theorem State.modEvq_strata (s : State) (fn : FnNo) (f : Evq → Evq) : (s.modEvq fn f).strata = s.strata := rfl
@[simp] theorem State.modEvq_geo (s : State) (fn : FnNo) (f : Evq → Evq) : (s.modEvq fn f).geo = s.geo := rfl
@[simp] theorem State.modEvq_ext (s : State) (fn : FnNo) (f : Evq → Evq) : (s.modEvq fn f).ext = s.ext := rfl
@[simp] theorem State.modEvq_copies (s : State) (fn : FnNo) (f : Evq → Evq) : (s.modEvq fn f).copies = s.copies := rfl
@[simp] theorem State.modEvq_deliveries (s : State) (fn : FnNo) (f : Evq → Evq) : (s.modEvq fn f).deliveries = s.deliveries := rfl
@[simp] theorem State.modEvq_sup (s : State) (fn : FnNo) (f : Evq → Evq) : (s.modEvq fn f).sup = s.sup := rfl
@[simp] theorem State.modEvq_plans (s : State) (fn : FnNo) (f : Evq → Evq) : (s.modEvq fn f).plans = s.plans := rfl
@[simp] theorem State.modEvq_boot (s : State) (fn : FnNo) (f : Evq → Evq) : (s.modEvq fn f).boot = s.boot := rfl
@[simp] theorem State.modEvq_units (s : State) (fn : FnNo) (f : Evq → Evq) : (s.modEvq fn f).units = s.units := rfl
@[simp] theorem State.modEvq_mapping (s : State) (fn : FnNo) (f : Evq → Evq) : (s.modEvq fn f).mapping = s.mapping := rfl
@[simp] theorem State.modEvq_lastPhys (s : State) (fn : FnNo) (f : Evq → Evq) : (s.modEvq fn f).lastPhys = s.lastPhys := rfl
@[simp] theorem State.modEvq_toReplace (s : State) (fn : FnNo) (f : Evq → Evq) : (s.modEvq fn f).toReplace = s.toReplace := rfl
@[simp] theorem State.modEvq_scratch (s : State) (fn : FnNo) (f : Evq → Evq) : (s.modEvq fn f).scratch = s.scratch := rfl
@[simp] theorem State.modEvq_clusters (s : State) (fn : FnNo) (f : Evq → Evq) : (s.modEvq fn f).clusters = s.clusters := rfl
@[simp] theorem State.modEvq_waits (s : State) (fn : FnNo) (f : Evq → Evq) : (s.modEvq fn f).waits = s.waits := rfl
@[simp] theorem State.modEvq_barriers (s : State) (fn : FnNo) (f : Evq → Evq) : (s.modEvq fn f).barriers = s.barriers := rfl
@[simp] theorem State.modEvq_progs (s : State) (fn : FnNo) (f : Evq → Evq) : (s.modEvq fn f).progs = s.progs := rfl
@[simp] theorem State.modEvq_scheduled (s : State) (fn : FnNo) (f : Evq → Evq) : (s.modEvq fn f).scheduled = s.scheduled := rfl
@[simp] theorem State.modEvq_tables (s : State) (fn : FnNo) (f : Evq → Evq) : (s.modEvq fn f).tables = s.tables := rfl
@[simp] theorem State.modEvq_mprogs (s : State) (fn : FnNo) (f : Evq → Evq) : (s.modEvq fn f).mprogs = s.mprogs := rfl
@[simp] theorem State.modEvq_tableLoads (s : State) (fn : FnNo) (f : Evq → Evq) : (s.modEvq fn f).tableLoads = s.tableLoads := rfl
@[simp] theorem State.modEvq_mprogLoads (s : State) (fn : FnNo) (f : Evq → Evq) : (s.modEvq fn f).mprogLoads = s.mprogLoads := rfl
@[simp] theorem State.modEvq_runs (s : State) (fn : FnNo) (f : Evq → Evq) : (s.modEvq fn f).runs = s.runs := rfl
@[simp] theorem State.modEvq_ports (s : State) (fn : FnNo) (f : Evq → Evq) : (s.modEvq fn f).ports = s.ports := rfl
@[simp] theorem State.modEvq_lanes (s : State) (fn : FnNo) (f : Evq → Evq) : (s.modEvq fn f).lanes = s.lanes := rfl
@[simp] theorem State.modEvq_chans (s : State) (fn : FnNo) (f : Evq → Evq) : (s.modEvq fn f).chans = s.chans := rfl
@[simp] theorem State.modEvq_frames (s : State) (fn : FnNo) (f : Evq → Evq) : (s.modEvq fn f).frames = s.frames := rfl
@[simp] theorem State.modEvq_stores (s : State) (fn : FnNo) (f : Evq → Evq) : (s.modEvq fn f).stores = s.stores := rfl
@[simp] theorem State.modEvq_pieces (s : State) (fn : FnNo) (f : Evq → Evq) : (s.modEvq fn f).pieces = s.pieces := rfl
@[simp] theorem State.modEvq_loaded (s : State) (fn : FnNo) (f : Evq → Evq) : (s.modEvq fn f).loaded = s.loaded := rfl
@[simp] theorem State.modEvq_repro (s : State) (fn : FnNo) (f : Evq → Evq) : (s.modEvq fn f).repro = s.repro := rfl
@[simp] theorem State.modEvq_lock (s : State) (fn : FnNo) (f : Evq → Evq) : (s.modEvq fn f).lock = s.lock := rfl
@[simp] theorem State.modEvq_faults (s : State) (fn : FnNo) (f : Evq → Evq) : (s.modEvq fn f).faults = s.faults := rfl
@[simp] theorem State.modEvq_logReads (s : State) (fn : FnNo) (f : Evq → Evq) : (s.modEvq fn f).logReads = s.logReads := rfl
@[simp] theorem State.modEvq_nv (s : State) (fn : FnNo) (f : Evq → Evq) : (s.modEvq fn f).nv = s.nv := rfl
@[simp] theorem State.modEvq_panel (s : State) (fn : FnNo) (f : Evq → Evq) : (s.modEvq fn f).panel = s.panel := rfl
@[simp] theorem State.modEvq_thermal (s : State) (fn : FnNo) (f : Evq → Evq) : (s.modEvq fn f).thermal = s.thermal := rfl
@[simp] theorem State.modEvq_telem (s : State) (fn : FnNo) (f : Evq → Evq) : (s.modEvq fn f).telem = s.telem := rfl
@[simp] theorem State.modEvq_slots (s : State) (fn : FnNo) (f : Evq → Evq) : (s.modEvq fn f).slots = s.slots := rfl
@[simp] theorem State.modEvq_remaps (s : State) (fn : FnNo) (f : Evq → Evq) : (s.modEvq fn f).remaps = s.remaps := rfl
@[simp] theorem State.modEvq_jtag (s : State) (fn : FnNo) (f : Evq → Evq) : (s.modEvq fn f).jtag = s.jtag := rfl

/-! ### `State.modStratum` -/

@[simp] theorem State.modStratum_strata (s : State) (n : FnNo) (f : Stratum → Stratum) :
    (s.modStratum n f).strata = vmod s.strata n f := rfl
@[simp] theorem State.modStratum_pending (s : State) (n : FnNo) (f : Stratum → Stratum) : (s.modStratum n f).pending = s.pending := rfl
@[simp] theorem State.modStratum_out (s : State) (n : FnNo) (f : Stratum → Stratum) : (s.modStratum n f).out = s.out := rfl
@[simp] theorem State.modStratum_tick (s : State) (n : FnNo) (f : Stratum → Stratum) : (s.modStratum n f).tick = s.tick := rfl
@[simp] theorem State.modStratum_withhold (s : State) (n : FnNo) (f : Stratum → Stratum) : (s.modStratum n f).withhold = s.withhold := rfl
@[simp] theorem State.modStratum_free (s : State) (n : FnNo) (f : Stratum → Stratum) : (s.modStratum n f).free = s.free := rfl
@[simp] theorem State.modStratum_nextId (s : State) (n : FnNo) (f : Stratum → Stratum) : (s.modStratum n f).nextId = s.nextId := rfl
@[simp] theorem State.modStratum_nextLaunch (s : State) (n : FnNo) (f : Stratum → Stratum) : (s.modStratum n f).nextLaunch = s.nextLaunch := rfl
@[simp] theorem State.modStratum_order32 (s : State) (n : FnNo) (f : Stratum → Stratum) : (s.modStratum n f).order32 = s.order32 := rfl
@[simp] theorem State.modStratum_fns (s : State) (n : FnNo) (f : Stratum → Stratum) : (s.modStratum n f).fns = s.fns := rfl
@[simp] theorem State.modStratum_outst (s : State) (n : FnNo) (f : Stratum → Stratum) : (s.modStratum n f).outst = s.outst := rfl
@[simp] theorem State.modStratum_geo (s : State) (n : FnNo) (f : Stratum → Stratum) : (s.modStratum n f).geo = s.geo := rfl
@[simp] theorem State.modStratum_ext (s : State) (n : FnNo) (f : Stratum → Stratum) : (s.modStratum n f).ext = s.ext := rfl
@[simp] theorem State.modStratum_copies (s : State) (n : FnNo) (f : Stratum → Stratum) : (s.modStratum n f).copies = s.copies := rfl
@[simp] theorem State.modStratum_deliveries (s : State) (n : FnNo) (f : Stratum → Stratum) : (s.modStratum n f).deliveries = s.deliveries := rfl
@[simp] theorem State.modStratum_sup (s : State) (n : FnNo) (f : Stratum → Stratum) : (s.modStratum n f).sup = s.sup := rfl
@[simp] theorem State.modStratum_plans (s : State) (n : FnNo) (f : Stratum → Stratum) : (s.modStratum n f).plans = s.plans := rfl
@[simp] theorem State.modStratum_boot (s : State) (n : FnNo) (f : Stratum → Stratum) : (s.modStratum n f).boot = s.boot := rfl
@[simp] theorem State.modStratum_units (s : State) (n : FnNo) (f : Stratum → Stratum) : (s.modStratum n f).units = s.units := rfl
@[simp] theorem State.modStratum_mapping (s : State) (n : FnNo) (f : Stratum → Stratum) : (s.modStratum n f).mapping = s.mapping := rfl
@[simp] theorem State.modStratum_lastPhys (s : State) (n : FnNo) (f : Stratum → Stratum) : (s.modStratum n f).lastPhys = s.lastPhys := rfl
@[simp] theorem State.modStratum_toReplace (s : State) (n : FnNo) (f : Stratum → Stratum) : (s.modStratum n f).toReplace = s.toReplace := rfl
@[simp] theorem State.modStratum_scratch (s : State) (n : FnNo) (f : Stratum → Stratum) : (s.modStratum n f).scratch = s.scratch := rfl
@[simp] theorem State.modStratum_clusters (s : State) (n : FnNo) (f : Stratum → Stratum) : (s.modStratum n f).clusters = s.clusters := rfl
@[simp] theorem State.modStratum_waits (s : State) (n : FnNo) (f : Stratum → Stratum) : (s.modStratum n f).waits = s.waits := rfl
@[simp] theorem State.modStratum_barriers (s : State) (n : FnNo) (f : Stratum → Stratum) : (s.modStratum n f).barriers = s.barriers := rfl
@[simp] theorem State.modStratum_progs (s : State) (n : FnNo) (f : Stratum → Stratum) : (s.modStratum n f).progs = s.progs := rfl
@[simp] theorem State.modStratum_scheduled (s : State) (n : FnNo) (f : Stratum → Stratum) : (s.modStratum n f).scheduled = s.scheduled := rfl
@[simp] theorem State.modStratum_tables (s : State) (n : FnNo) (f : Stratum → Stratum) : (s.modStratum n f).tables = s.tables := rfl
@[simp] theorem State.modStratum_mprogs (s : State) (n : FnNo) (f : Stratum → Stratum) : (s.modStratum n f).mprogs = s.mprogs := rfl
@[simp] theorem State.modStratum_tableLoads (s : State) (n : FnNo) (f : Stratum → Stratum) : (s.modStratum n f).tableLoads = s.tableLoads := rfl
@[simp] theorem State.modStratum_mprogLoads (s : State) (n : FnNo) (f : Stratum → Stratum) : (s.modStratum n f).mprogLoads = s.mprogLoads := rfl
@[simp] theorem State.modStratum_runs (s : State) (n : FnNo) (f : Stratum → Stratum) : (s.modStratum n f).runs = s.runs := rfl
@[simp] theorem State.modStratum_ports (s : State) (n : FnNo) (f : Stratum → Stratum) : (s.modStratum n f).ports = s.ports := rfl
@[simp] theorem State.modStratum_lanes (s : State) (n : FnNo) (f : Stratum → Stratum) : (s.modStratum n f).lanes = s.lanes := rfl
@[simp] theorem State.modStratum_chans (s : State) (n : FnNo) (f : Stratum → Stratum) : (s.modStratum n f).chans = s.chans := rfl
@[simp] theorem State.modStratum_frames (s : State) (n : FnNo) (f : Stratum → Stratum) : (s.modStratum n f).frames = s.frames := rfl
@[simp] theorem State.modStratum_stores (s : State) (n : FnNo) (f : Stratum → Stratum) : (s.modStratum n f).stores = s.stores := rfl
@[simp] theorem State.modStratum_pieces (s : State) (n : FnNo) (f : Stratum → Stratum) : (s.modStratum n f).pieces = s.pieces := rfl
@[simp] theorem State.modStratum_loaded (s : State) (n : FnNo) (f : Stratum → Stratum) : (s.modStratum n f).loaded = s.loaded := rfl
@[simp] theorem State.modStratum_repro (s : State) (n : FnNo) (f : Stratum → Stratum) : (s.modStratum n f).repro = s.repro := rfl
@[simp] theorem State.modStratum_lock (s : State) (n : FnNo) (f : Stratum → Stratum) : (s.modStratum n f).lock = s.lock := rfl
@[simp] theorem State.modStratum_faults (s : State) (n : FnNo) (f : Stratum → Stratum) : (s.modStratum n f).faults = s.faults := rfl
@[simp] theorem State.modStratum_logReads (s : State) (n : FnNo) (f : Stratum → Stratum) : (s.modStratum n f).logReads = s.logReads := rfl
@[simp] theorem State.modStratum_nv (s : State) (n : FnNo) (f : Stratum → Stratum) : (s.modStratum n f).nv = s.nv := rfl
@[simp] theorem State.modStratum_panel (s : State) (n : FnNo) (f : Stratum → Stratum) : (s.modStratum n f).panel = s.panel := rfl
@[simp] theorem State.modStratum_thermal (s : State) (n : FnNo) (f : Stratum → Stratum) : (s.modStratum n f).thermal = s.thermal := rfl
@[simp] theorem State.modStratum_telem (s : State) (n : FnNo) (f : Stratum → Stratum) : (s.modStratum n f).telem = s.telem := rfl
@[simp] theorem State.modStratum_slots (s : State) (n : FnNo) (f : Stratum → Stratum) : (s.modStratum n f).slots = s.slots := rfl
@[simp] theorem State.modStratum_remaps (s : State) (n : FnNo) (f : Stratum → Stratum) : (s.modStratum n f).remaps = s.remaps := rfl
@[simp] theorem State.modStratum_jtag (s : State) (n : FnNo) (f : Stratum → Stratum) : (s.modStratum n f).jtag = s.jtag := rfl

/-! ### `State.modBufs` -/

@[simp] theorem State.modBufs_geo (s : State) (f : List Buf → List Buf) :
    (s.modBufs f).geo = { s.geo with bufs := f s.geo.bufs } := rfl
@[simp] theorem State.modBufs_pending (s : State) (f : List Buf → List Buf) : (s.modBufs f).pending = s.pending := rfl
@[simp] theorem State.modBufs_out (s : State) (f : List Buf → List Buf) : (s.modBufs f).out = s.out := rfl
@[simp] theorem State.modBufs_tick (s : State) (f : List Buf → List Buf) : (s.modBufs f).tick = s.tick := rfl
@[simp] theorem State.modBufs_withhold (s : State) (f : List Buf → List Buf) : (s.modBufs f).withhold = s.withhold := rfl
@[simp] theorem State.modBufs_free (s : State) (f : List Buf → List Buf) : (s.modBufs f).free = s.free := rfl
@[simp] theorem State.modBufs_nextId (s : State) (f : List Buf → List Buf) : (s.modBufs f).nextId = s.nextId := rfl
@[simp] theorem State.modBufs_nextLaunch (s : State) (f : List Buf → List Buf) : (s.modBufs f).nextLaunch = s.nextLaunch := rfl
@[simp] theorem State.modBufs_order32 (s : State) (f : List Buf → List Buf) : (s.modBufs f).order32 = s.order32 := rfl
@[simp] theorem State.modBufs_fns (s : State) (f : List Buf → List Buf) : (s.modBufs f).fns = s.fns := rfl
@[simp] theorem State.modBufs_outst (s : State) (f : List Buf → List Buf) : (s.modBufs f).outst = s.outst := rfl
@[simp] theorem State.modBufs_strata (s : State) (f : List Buf → List Buf) : (s.modBufs f).strata = s.strata := rfl
@[simp] theorem State.modBufs_ext (s : State) (f : List Buf → List Buf) : (s.modBufs f).ext = s.ext := rfl
@[simp] theorem State.modBufs_copies (s : State) (f : List Buf → List Buf) : (s.modBufs f).copies = s.copies := rfl
@[simp] theorem State.modBufs_deliveries (s : State) (f : List Buf → List Buf) : (s.modBufs f).deliveries = s.deliveries := rfl
@[simp] theorem State.modBufs_sup (s : State) (f : List Buf → List Buf) : (s.modBufs f).sup = s.sup := rfl
@[simp] theorem State.modBufs_plans (s : State) (f : List Buf → List Buf) : (s.modBufs f).plans = s.plans := rfl
@[simp] theorem State.modBufs_boot (s : State) (f : List Buf → List Buf) : (s.modBufs f).boot = s.boot := rfl
@[simp] theorem State.modBufs_units (s : State) (f : List Buf → List Buf) : (s.modBufs f).units = s.units := rfl
@[simp] theorem State.modBufs_mapping (s : State) (f : List Buf → List Buf) : (s.modBufs f).mapping = s.mapping := rfl
@[simp] theorem State.modBufs_lastPhys (s : State) (f : List Buf → List Buf) : (s.modBufs f).lastPhys = s.lastPhys := rfl
@[simp] theorem State.modBufs_toReplace (s : State) (f : List Buf → List Buf) : (s.modBufs f).toReplace = s.toReplace := rfl
@[simp] theorem State.modBufs_scratch (s : State) (f : List Buf → List Buf) : (s.modBufs f).scratch = s.scratch := rfl
@[simp] theorem State.modBufs_clusters (s : State) (f : List Buf → List Buf) : (s.modBufs f).clusters = s.clusters := rfl
@[simp] theorem State.modBufs_waits (s : State) (f : List Buf → List Buf) : (s.modBufs f).waits = s.waits := rfl
@[simp] theorem State.modBufs_barriers (s : State) (f : List Buf → List Buf) : (s.modBufs f).barriers = s.barriers := rfl
@[simp] theorem State.modBufs_progs (s : State) (f : List Buf → List Buf) : (s.modBufs f).progs = s.progs := rfl
@[simp] theorem State.modBufs_scheduled (s : State) (f : List Buf → List Buf) : (s.modBufs f).scheduled = s.scheduled := rfl
@[simp] theorem State.modBufs_tables (s : State) (f : List Buf → List Buf) : (s.modBufs f).tables = s.tables := rfl
@[simp] theorem State.modBufs_mprogs (s : State) (f : List Buf → List Buf) : (s.modBufs f).mprogs = s.mprogs := rfl
@[simp] theorem State.modBufs_tableLoads (s : State) (f : List Buf → List Buf) : (s.modBufs f).tableLoads = s.tableLoads := rfl
@[simp] theorem State.modBufs_mprogLoads (s : State) (f : List Buf → List Buf) : (s.modBufs f).mprogLoads = s.mprogLoads := rfl
@[simp] theorem State.modBufs_runs (s : State) (f : List Buf → List Buf) : (s.modBufs f).runs = s.runs := rfl
@[simp] theorem State.modBufs_ports (s : State) (f : List Buf → List Buf) : (s.modBufs f).ports = s.ports := rfl
@[simp] theorem State.modBufs_lanes (s : State) (f : List Buf → List Buf) : (s.modBufs f).lanes = s.lanes := rfl
@[simp] theorem State.modBufs_chans (s : State) (f : List Buf → List Buf) : (s.modBufs f).chans = s.chans := rfl
@[simp] theorem State.modBufs_frames (s : State) (f : List Buf → List Buf) : (s.modBufs f).frames = s.frames := rfl
@[simp] theorem State.modBufs_stores (s : State) (f : List Buf → List Buf) : (s.modBufs f).stores = s.stores := rfl
@[simp] theorem State.modBufs_pieces (s : State) (f : List Buf → List Buf) : (s.modBufs f).pieces = s.pieces := rfl
@[simp] theorem State.modBufs_loaded (s : State) (f : List Buf → List Buf) : (s.modBufs f).loaded = s.loaded := rfl
@[simp] theorem State.modBufs_repro (s : State) (f : List Buf → List Buf) : (s.modBufs f).repro = s.repro := rfl
@[simp] theorem State.modBufs_lock (s : State) (f : List Buf → List Buf) : (s.modBufs f).lock = s.lock := rfl
@[simp] theorem State.modBufs_faults (s : State) (f : List Buf → List Buf) : (s.modBufs f).faults = s.faults := rfl
@[simp] theorem State.modBufs_logReads (s : State) (f : List Buf → List Buf) : (s.modBufs f).logReads = s.logReads := rfl
@[simp] theorem State.modBufs_nv (s : State) (f : List Buf → List Buf) : (s.modBufs f).nv = s.nv := rfl
@[simp] theorem State.modBufs_panel (s : State) (f : List Buf → List Buf) : (s.modBufs f).panel = s.panel := rfl
@[simp] theorem State.modBufs_thermal (s : State) (f : List Buf → List Buf) : (s.modBufs f).thermal = s.thermal := rfl
@[simp] theorem State.modBufs_telem (s : State) (f : List Buf → List Buf) : (s.modBufs f).telem = s.telem := rfl
@[simp] theorem State.modBufs_slots (s : State) (f : List Buf → List Buf) : (s.modBufs f).slots = s.slots := rfl
@[simp] theorem State.modBufs_remaps (s : State) (f : List Buf → List Buf) : (s.modBufs f).remaps = s.remaps := rfl
@[simp] theorem State.modBufs_jtag (s : State) (f : List Buf → List Buf) : (s.modBufs f).jtag = s.jtag := rfl

/-! ### `State.modPort` -/

@[simp] theorem State.modPort_ports (s : State) (p : PortNo) (f : Port → Port) :
    (s.modPort p f).ports = vmod s.ports p f := rfl
@[simp] theorem State.modPort_pending (s : State) (p : PortNo) (f : Port → Port) : (s.modPort p f).pending = s.pending := rfl
@[simp] theorem State.modPort_out (s : State) (p : PortNo) (f : Port → Port) : (s.modPort p f).out = s.out := rfl
@[simp] theorem State.modPort_tick (s : State) (p : PortNo) (f : Port → Port) : (s.modPort p f).tick = s.tick := rfl
@[simp] theorem State.modPort_withhold (s : State) (p : PortNo) (f : Port → Port) : (s.modPort p f).withhold = s.withhold := rfl
@[simp] theorem State.modPort_free (s : State) (p : PortNo) (f : Port → Port) : (s.modPort p f).free = s.free := rfl
@[simp] theorem State.modPort_nextId (s : State) (p : PortNo) (f : Port → Port) : (s.modPort p f).nextId = s.nextId := rfl
@[simp] theorem State.modPort_nextLaunch (s : State) (p : PortNo) (f : Port → Port) : (s.modPort p f).nextLaunch = s.nextLaunch := rfl
@[simp] theorem State.modPort_order32 (s : State) (p : PortNo) (f : Port → Port) : (s.modPort p f).order32 = s.order32 := rfl
@[simp] theorem State.modPort_fns (s : State) (p : PortNo) (f : Port → Port) : (s.modPort p f).fns = s.fns := rfl
@[simp] theorem State.modPort_outst (s : State) (p : PortNo) (f : Port → Port) : (s.modPort p f).outst = s.outst := rfl
@[simp] theorem State.modPort_strata (s : State) (p : PortNo) (f : Port → Port) : (s.modPort p f).strata = s.strata := rfl
@[simp] theorem State.modPort_geo (s : State) (p : PortNo) (f : Port → Port) : (s.modPort p f).geo = s.geo := rfl
@[simp] theorem State.modPort_ext (s : State) (p : PortNo) (f : Port → Port) : (s.modPort p f).ext = s.ext := rfl
@[simp] theorem State.modPort_copies (s : State) (p : PortNo) (f : Port → Port) : (s.modPort p f).copies = s.copies := rfl
@[simp] theorem State.modPort_deliveries (s : State) (p : PortNo) (f : Port → Port) : (s.modPort p f).deliveries = s.deliveries := rfl
@[simp] theorem State.modPort_sup (s : State) (p : PortNo) (f : Port → Port) : (s.modPort p f).sup = s.sup := rfl
@[simp] theorem State.modPort_plans (s : State) (p : PortNo) (f : Port → Port) : (s.modPort p f).plans = s.plans := rfl
@[simp] theorem State.modPort_boot (s : State) (p : PortNo) (f : Port → Port) : (s.modPort p f).boot = s.boot := rfl
@[simp] theorem State.modPort_units (s : State) (p : PortNo) (f : Port → Port) : (s.modPort p f).units = s.units := rfl
@[simp] theorem State.modPort_mapping (s : State) (p : PortNo) (f : Port → Port) : (s.modPort p f).mapping = s.mapping := rfl
@[simp] theorem State.modPort_lastPhys (s : State) (p : PortNo) (f : Port → Port) : (s.modPort p f).lastPhys = s.lastPhys := rfl
@[simp] theorem State.modPort_toReplace (s : State) (p : PortNo) (f : Port → Port) : (s.modPort p f).toReplace = s.toReplace := rfl
@[simp] theorem State.modPort_scratch (s : State) (p : PortNo) (f : Port → Port) : (s.modPort p f).scratch = s.scratch := rfl
@[simp] theorem State.modPort_clusters (s : State) (p : PortNo) (f : Port → Port) : (s.modPort p f).clusters = s.clusters := rfl
@[simp] theorem State.modPort_waits (s : State) (p : PortNo) (f : Port → Port) : (s.modPort p f).waits = s.waits := rfl
@[simp] theorem State.modPort_barriers (s : State) (p : PortNo) (f : Port → Port) : (s.modPort p f).barriers = s.barriers := rfl
@[simp] theorem State.modPort_progs (s : State) (p : PortNo) (f : Port → Port) : (s.modPort p f).progs = s.progs := rfl
@[simp] theorem State.modPort_scheduled (s : State) (p : PortNo) (f : Port → Port) : (s.modPort p f).scheduled = s.scheduled := rfl
@[simp] theorem State.modPort_tables (s : State) (p : PortNo) (f : Port → Port) : (s.modPort p f).tables = s.tables := rfl
@[simp] theorem State.modPort_mprogs (s : State) (p : PortNo) (f : Port → Port) : (s.modPort p f).mprogs = s.mprogs := rfl
@[simp] theorem State.modPort_tableLoads (s : State) (p : PortNo) (f : Port → Port) : (s.modPort p f).tableLoads = s.tableLoads := rfl
@[simp] theorem State.modPort_mprogLoads (s : State) (p : PortNo) (f : Port → Port) : (s.modPort p f).mprogLoads = s.mprogLoads := rfl
@[simp] theorem State.modPort_runs (s : State) (p : PortNo) (f : Port → Port) : (s.modPort p f).runs = s.runs := rfl
@[simp] theorem State.modPort_lanes (s : State) (p : PortNo) (f : Port → Port) : (s.modPort p f).lanes = s.lanes := rfl
@[simp] theorem State.modPort_chans (s : State) (p : PortNo) (f : Port → Port) : (s.modPort p f).chans = s.chans := rfl
@[simp] theorem State.modPort_frames (s : State) (p : PortNo) (f : Port → Port) : (s.modPort p f).frames = s.frames := rfl
@[simp] theorem State.modPort_stores (s : State) (p : PortNo) (f : Port → Port) : (s.modPort p f).stores = s.stores := rfl
@[simp] theorem State.modPort_pieces (s : State) (p : PortNo) (f : Port → Port) : (s.modPort p f).pieces = s.pieces := rfl
@[simp] theorem State.modPort_loaded (s : State) (p : PortNo) (f : Port → Port) : (s.modPort p f).loaded = s.loaded := rfl
@[simp] theorem State.modPort_repro (s : State) (p : PortNo) (f : Port → Port) : (s.modPort p f).repro = s.repro := rfl
@[simp] theorem State.modPort_lock (s : State) (p : PortNo) (f : Port → Port) : (s.modPort p f).lock = s.lock := rfl
@[simp] theorem State.modPort_faults (s : State) (p : PortNo) (f : Port → Port) : (s.modPort p f).faults = s.faults := rfl
@[simp] theorem State.modPort_logReads (s : State) (p : PortNo) (f : Port → Port) : (s.modPort p f).logReads = s.logReads := rfl
@[simp] theorem State.modPort_nv (s : State) (p : PortNo) (f : Port → Port) : (s.modPort p f).nv = s.nv := rfl
@[simp] theorem State.modPort_panel (s : State) (p : PortNo) (f : Port → Port) : (s.modPort p f).panel = s.panel := rfl
@[simp] theorem State.modPort_thermal (s : State) (p : PortNo) (f : Port → Port) : (s.modPort p f).thermal = s.thermal := rfl
@[simp] theorem State.modPort_telem (s : State) (p : PortNo) (f : Port → Port) : (s.modPort p f).telem = s.telem := rfl
@[simp] theorem State.modPort_slots (s : State) (p : PortNo) (f : Port → Port) : (s.modPort p f).slots = s.slots := rfl
@[simp] theorem State.modPort_remaps (s : State) (p : PortNo) (f : Port → Port) : (s.modPort p f).remaps = s.remaps := rfl
@[simp] theorem State.modPort_jtag (s : State) (p : PortNo) (f : Port → Port) : (s.modPort p f).jtag = s.jtag := rfl

/-! ### `State.modLane` -/

@[simp] theorem State.modLane_lanes (s : State) (l : LaneNo) (f : LaneSt → LaneSt) :
    (s.modLane l f).lanes = vmod s.lanes l f := rfl
@[simp] theorem State.modLane_pending (s : State) (l : LaneNo) (f : LaneSt → LaneSt) : (s.modLane l f).pending = s.pending := rfl
@[simp] theorem State.modLane_out (s : State) (l : LaneNo) (f : LaneSt → LaneSt) : (s.modLane l f).out = s.out := rfl
@[simp] theorem State.modLane_tick (s : State) (l : LaneNo) (f : LaneSt → LaneSt) : (s.modLane l f).tick = s.tick := rfl
@[simp] theorem State.modLane_withhold (s : State) (l : LaneNo) (f : LaneSt → LaneSt) : (s.modLane l f).withhold = s.withhold := rfl
@[simp] theorem State.modLane_free (s : State) (l : LaneNo) (f : LaneSt → LaneSt) : (s.modLane l f).free = s.free := rfl
@[simp] theorem State.modLane_nextId (s : State) (l : LaneNo) (f : LaneSt → LaneSt) : (s.modLane l f).nextId = s.nextId := rfl
@[simp] theorem State.modLane_nextLaunch (s : State) (l : LaneNo) (f : LaneSt → LaneSt) : (s.modLane l f).nextLaunch = s.nextLaunch := rfl
@[simp] theorem State.modLane_order32 (s : State) (l : LaneNo) (f : LaneSt → LaneSt) : (s.modLane l f).order32 = s.order32 := rfl
@[simp] theorem State.modLane_fns (s : State) (l : LaneNo) (f : LaneSt → LaneSt) : (s.modLane l f).fns = s.fns := rfl
@[simp] theorem State.modLane_outst (s : State) (l : LaneNo) (f : LaneSt → LaneSt) : (s.modLane l f).outst = s.outst := rfl
@[simp] theorem State.modLane_strata (s : State) (l : LaneNo) (f : LaneSt → LaneSt) : (s.modLane l f).strata = s.strata := rfl
@[simp] theorem State.modLane_geo (s : State) (l : LaneNo) (f : LaneSt → LaneSt) : (s.modLane l f).geo = s.geo := rfl
@[simp] theorem State.modLane_ext (s : State) (l : LaneNo) (f : LaneSt → LaneSt) : (s.modLane l f).ext = s.ext := rfl
@[simp] theorem State.modLane_copies (s : State) (l : LaneNo) (f : LaneSt → LaneSt) : (s.modLane l f).copies = s.copies := rfl
@[simp] theorem State.modLane_deliveries (s : State) (l : LaneNo) (f : LaneSt → LaneSt) : (s.modLane l f).deliveries = s.deliveries := rfl
@[simp] theorem State.modLane_sup (s : State) (l : LaneNo) (f : LaneSt → LaneSt) : (s.modLane l f).sup = s.sup := rfl
@[simp] theorem State.modLane_plans (s : State) (l : LaneNo) (f : LaneSt → LaneSt) : (s.modLane l f).plans = s.plans := rfl
@[simp] theorem State.modLane_boot (s : State) (l : LaneNo) (f : LaneSt → LaneSt) : (s.modLane l f).boot = s.boot := rfl
@[simp] theorem State.modLane_units (s : State) (l : LaneNo) (f : LaneSt → LaneSt) : (s.modLane l f).units = s.units := rfl
@[simp] theorem State.modLane_mapping (s : State) (l : LaneNo) (f : LaneSt → LaneSt) : (s.modLane l f).mapping = s.mapping := rfl
@[simp] theorem State.modLane_lastPhys (s : State) (l : LaneNo) (f : LaneSt → LaneSt) : (s.modLane l f).lastPhys = s.lastPhys := rfl
@[simp] theorem State.modLane_toReplace (s : State) (l : LaneNo) (f : LaneSt → LaneSt) : (s.modLane l f).toReplace = s.toReplace := rfl
@[simp] theorem State.modLane_scratch (s : State) (l : LaneNo) (f : LaneSt → LaneSt) : (s.modLane l f).scratch = s.scratch := rfl
@[simp] theorem State.modLane_clusters (s : State) (l : LaneNo) (f : LaneSt → LaneSt) : (s.modLane l f).clusters = s.clusters := rfl
@[simp] theorem State.modLane_waits (s : State) (l : LaneNo) (f : LaneSt → LaneSt) : (s.modLane l f).waits = s.waits := rfl
@[simp] theorem State.modLane_barriers (s : State) (l : LaneNo) (f : LaneSt → LaneSt) : (s.modLane l f).barriers = s.barriers := rfl
@[simp] theorem State.modLane_progs (s : State) (l : LaneNo) (f : LaneSt → LaneSt) : (s.modLane l f).progs = s.progs := rfl
@[simp] theorem State.modLane_scheduled (s : State) (l : LaneNo) (f : LaneSt → LaneSt) : (s.modLane l f).scheduled = s.scheduled := rfl
@[simp] theorem State.modLane_tables (s : State) (l : LaneNo) (f : LaneSt → LaneSt) : (s.modLane l f).tables = s.tables := rfl
@[simp] theorem State.modLane_mprogs (s : State) (l : LaneNo) (f : LaneSt → LaneSt) : (s.modLane l f).mprogs = s.mprogs := rfl
@[simp] theorem State.modLane_tableLoads (s : State) (l : LaneNo) (f : LaneSt → LaneSt) : (s.modLane l f).tableLoads = s.tableLoads := rfl
@[simp] theorem State.modLane_mprogLoads (s : State) (l : LaneNo) (f : LaneSt → LaneSt) : (s.modLane l f).mprogLoads = s.mprogLoads := rfl
@[simp] theorem State.modLane_runs (s : State) (l : LaneNo) (f : LaneSt → LaneSt) : (s.modLane l f).runs = s.runs := rfl
@[simp] theorem State.modLane_ports (s : State) (l : LaneNo) (f : LaneSt → LaneSt) : (s.modLane l f).ports = s.ports := rfl
@[simp] theorem State.modLane_chans (s : State) (l : LaneNo) (f : LaneSt → LaneSt) : (s.modLane l f).chans = s.chans := rfl
@[simp] theorem State.modLane_frames (s : State) (l : LaneNo) (f : LaneSt → LaneSt) : (s.modLane l f).frames = s.frames := rfl
@[simp] theorem State.modLane_stores (s : State) (l : LaneNo) (f : LaneSt → LaneSt) : (s.modLane l f).stores = s.stores := rfl
@[simp] theorem State.modLane_pieces (s : State) (l : LaneNo) (f : LaneSt → LaneSt) : (s.modLane l f).pieces = s.pieces := rfl
@[simp] theorem State.modLane_loaded (s : State) (l : LaneNo) (f : LaneSt → LaneSt) : (s.modLane l f).loaded = s.loaded := rfl
@[simp] theorem State.modLane_repro (s : State) (l : LaneNo) (f : LaneSt → LaneSt) : (s.modLane l f).repro = s.repro := rfl
@[simp] theorem State.modLane_lock (s : State) (l : LaneNo) (f : LaneSt → LaneSt) : (s.modLane l f).lock = s.lock := rfl
@[simp] theorem State.modLane_faults (s : State) (l : LaneNo) (f : LaneSt → LaneSt) : (s.modLane l f).faults = s.faults := rfl
@[simp] theorem State.modLane_logReads (s : State) (l : LaneNo) (f : LaneSt → LaneSt) : (s.modLane l f).logReads = s.logReads := rfl
@[simp] theorem State.modLane_nv (s : State) (l : LaneNo) (f : LaneSt → LaneSt) : (s.modLane l f).nv = s.nv := rfl
@[simp] theorem State.modLane_panel (s : State) (l : LaneNo) (f : LaneSt → LaneSt) : (s.modLane l f).panel = s.panel := rfl
@[simp] theorem State.modLane_thermal (s : State) (l : LaneNo) (f : LaneSt → LaneSt) : (s.modLane l f).thermal = s.thermal := rfl
@[simp] theorem State.modLane_telem (s : State) (l : LaneNo) (f : LaneSt → LaneSt) : (s.modLane l f).telem = s.telem := rfl
@[simp] theorem State.modLane_slots (s : State) (l : LaneNo) (f : LaneSt → LaneSt) : (s.modLane l f).slots = s.slots := rfl
@[simp] theorem State.modLane_remaps (s : State) (l : LaneNo) (f : LaneSt → LaneSt) : (s.modLane l f).remaps = s.remaps := rfl
@[simp] theorem State.modLane_jtag (s : State) (l : LaneNo) (f : LaneSt → LaneSt) : (s.modLane l f).jtag = s.jtag := rfl

/-! ### `State.modChan` -/

@[simp] theorem State.modChan_chans (s : State) (c : Nat) (f : Chan → Chan) :
    (s.modChan c f).chans = s.chans.map fun x => if x.num = c then f x else x := rfl
@[simp] theorem State.modChan_pending (s : State) (c : Nat) (f : Chan → Chan) : (s.modChan c f).pending = s.pending := rfl
@[simp] theorem State.modChan_out (s : State) (c : Nat) (f : Chan → Chan) : (s.modChan c f).out = s.out := rfl
@[simp] theorem State.modChan_tick (s : State) (c : Nat) (f : Chan → Chan) : (s.modChan c f).tick = s.tick := rfl
@[simp] theorem State.modChan_withhold (s : State) (c : Nat) (f : Chan → Chan) : (s.modChan c f).withhold = s.withhold := rfl
@[simp] theorem State.modChan_free (s : State) (c : Nat) (f : Chan → Chan) : (s.modChan c f).free = s.free := rfl
@[simp] theorem State.modChan_nextId (s : State) (c : Nat) (f : Chan → Chan) : (s.modChan c f).nextId = s.nextId := rfl
@[simp] theorem State.modChan_nextLaunch (s : State) (c : Nat) (f : Chan → Chan) : (s.modChan c f).nextLaunch = s.nextLaunch := rfl
@[simp] theorem State.modChan_order32 (s : State) (c : Nat) (f : Chan → Chan) : (s.modChan c f).order32 = s.order32 := rfl
@[simp] theorem State.modChan_fns (s : State) (c : Nat) (f : Chan → Chan) : (s.modChan c f).fns = s.fns := rfl
@[simp] theorem State.modChan_outst (s : State) (c : Nat) (f : Chan → Chan) : (s.modChan c f).outst = s.outst := rfl
@[simp] theorem State.modChan_strata (s : State) (c : Nat) (f : Chan → Chan) : (s.modChan c f).strata = s.strata := rfl
@[simp] theorem State.modChan_geo (s : State) (c : Nat) (f : Chan → Chan) : (s.modChan c f).geo = s.geo := rfl
@[simp] theorem State.modChan_ext (s : State) (c : Nat) (f : Chan → Chan) : (s.modChan c f).ext = s.ext := rfl
@[simp] theorem State.modChan_copies (s : State) (c : Nat) (f : Chan → Chan) : (s.modChan c f).copies = s.copies := rfl
@[simp] theorem State.modChan_deliveries (s : State) (c : Nat) (f : Chan → Chan) : (s.modChan c f).deliveries = s.deliveries := rfl
@[simp] theorem State.modChan_sup (s : State) (c : Nat) (f : Chan → Chan) : (s.modChan c f).sup = s.sup := rfl
@[simp] theorem State.modChan_plans (s : State) (c : Nat) (f : Chan → Chan) : (s.modChan c f).plans = s.plans := rfl
@[simp] theorem State.modChan_boot (s : State) (c : Nat) (f : Chan → Chan) : (s.modChan c f).boot = s.boot := rfl
@[simp] theorem State.modChan_units (s : State) (c : Nat) (f : Chan → Chan) : (s.modChan c f).units = s.units := rfl
@[simp] theorem State.modChan_mapping (s : State) (c : Nat) (f : Chan → Chan) : (s.modChan c f).mapping = s.mapping := rfl
@[simp] theorem State.modChan_lastPhys (s : State) (c : Nat) (f : Chan → Chan) : (s.modChan c f).lastPhys = s.lastPhys := rfl
@[simp] theorem State.modChan_toReplace (s : State) (c : Nat) (f : Chan → Chan) : (s.modChan c f).toReplace = s.toReplace := rfl
@[simp] theorem State.modChan_scratch (s : State) (c : Nat) (f : Chan → Chan) : (s.modChan c f).scratch = s.scratch := rfl
@[simp] theorem State.modChan_clusters (s : State) (c : Nat) (f : Chan → Chan) : (s.modChan c f).clusters = s.clusters := rfl
@[simp] theorem State.modChan_waits (s : State) (c : Nat) (f : Chan → Chan) : (s.modChan c f).waits = s.waits := rfl
@[simp] theorem State.modChan_barriers (s : State) (c : Nat) (f : Chan → Chan) : (s.modChan c f).barriers = s.barriers := rfl
@[simp] theorem State.modChan_progs (s : State) (c : Nat) (f : Chan → Chan) : (s.modChan c f).progs = s.progs := rfl
@[simp] theorem State.modChan_scheduled (s : State) (c : Nat) (f : Chan → Chan) : (s.modChan c f).scheduled = s.scheduled := rfl
@[simp] theorem State.modChan_tables (s : State) (c : Nat) (f : Chan → Chan) : (s.modChan c f).tables = s.tables := rfl
@[simp] theorem State.modChan_mprogs (s : State) (c : Nat) (f : Chan → Chan) : (s.modChan c f).mprogs = s.mprogs := rfl
@[simp] theorem State.modChan_tableLoads (s : State) (c : Nat) (f : Chan → Chan) : (s.modChan c f).tableLoads = s.tableLoads := rfl
@[simp] theorem State.modChan_mprogLoads (s : State) (c : Nat) (f : Chan → Chan) : (s.modChan c f).mprogLoads = s.mprogLoads := rfl
@[simp] theorem State.modChan_runs (s : State) (c : Nat) (f : Chan → Chan) : (s.modChan c f).runs = s.runs := rfl
@[simp] theorem State.modChan_ports (s : State) (c : Nat) (f : Chan → Chan) : (s.modChan c f).ports = s.ports := rfl
@[simp] theorem State.modChan_lanes (s : State) (c : Nat) (f : Chan → Chan) : (s.modChan c f).lanes = s.lanes := rfl
@[simp] theorem State.modChan_frames (s : State) (c : Nat) (f : Chan → Chan) : (s.modChan c f).frames = s.frames := rfl
@[simp] theorem State.modChan_stores (s : State) (c : Nat) (f : Chan → Chan) : (s.modChan c f).stores = s.stores := rfl
@[simp] theorem State.modChan_pieces (s : State) (c : Nat) (f : Chan → Chan) : (s.modChan c f).pieces = s.pieces := rfl
@[simp] theorem State.modChan_loaded (s : State) (c : Nat) (f : Chan → Chan) : (s.modChan c f).loaded = s.loaded := rfl
@[simp] theorem State.modChan_repro (s : State) (c : Nat) (f : Chan → Chan) : (s.modChan c f).repro = s.repro := rfl
@[simp] theorem State.modChan_lock (s : State) (c : Nat) (f : Chan → Chan) : (s.modChan c f).lock = s.lock := rfl
@[simp] theorem State.modChan_faults (s : State) (c : Nat) (f : Chan → Chan) : (s.modChan c f).faults = s.faults := rfl
@[simp] theorem State.modChan_logReads (s : State) (c : Nat) (f : Chan → Chan) : (s.modChan c f).logReads = s.logReads := rfl
@[simp] theorem State.modChan_nv (s : State) (c : Nat) (f : Chan → Chan) : (s.modChan c f).nv = s.nv := rfl
@[simp] theorem State.modChan_panel (s : State) (c : Nat) (f : Chan → Chan) : (s.modChan c f).panel = s.panel := rfl
@[simp] theorem State.modChan_thermal (s : State) (c : Nat) (f : Chan → Chan) : (s.modChan c f).thermal = s.thermal := rfl
@[simp] theorem State.modChan_telem (s : State) (c : Nat) (f : Chan → Chan) : (s.modChan c f).telem = s.telem := rfl
@[simp] theorem State.modChan_slots (s : State) (c : Nat) (f : Chan → Chan) : (s.modChan c f).slots = s.slots := rfl
@[simp] theorem State.modChan_remaps (s : State) (c : Nat) (f : Chan → Chan) : (s.modChan c f).remaps = s.remaps := rfl
@[simp] theorem State.modChan_jtag (s : State) (c : Nat) (f : Chan → Chan) : (s.modChan c f).jtag = s.jtag := rfl

/-! ### `State.modFrame` -/

@[simp] theorem State.modFrame_frames (s : State) (c q : Nat) (f : Frame → Frame) :
    (s.modFrame c q f).frames = s.frames.map fun x => if x.chan = c ∧ x.seq = q then f x else x := rfl
@[simp] theorem State.modFrame_pending (s : State) (c q : Nat) (f : Frame → Frame) : (s.modFrame c q f).pending = s.pending := rfl
@[simp] theorem State.modFrame_out (s : State) (c q : Nat) (f : Frame → Frame) : (s.modFrame c q f).out = s.out := rfl
@[simp] theorem State.modFrame_tick (s : State) (c q : Nat) (f : Frame → Frame) : (s.modFrame c q f).tick = s.tick := rfl
@[simp] theorem State.modFrame_withhold (s : State) (c q : Nat) (f : Frame → Frame) : (s.modFrame c q f).withhold = s.withhold := rfl
@[simp] theorem State.modFrame_free (s : State) (c q : Nat) (f : Frame → Frame) : (s.modFrame c q f).free = s.free := rfl
@[simp] theorem State.modFrame_nextId (s : State) (c q : Nat) (f : Frame → Frame) : (s.modFrame c q f).nextId = s.nextId := rfl
@[simp] theorem State.modFrame_nextLaunch (s : State) (c q : Nat) (f : Frame → Frame) : (s.modFrame c q f).nextLaunch = s.nextLaunch := rfl
@[simp] theorem State.modFrame_order32 (s : State) (c q : Nat) (f : Frame → Frame) : (s.modFrame c q f).order32 = s.order32 := rfl
@[simp] theorem State.modFrame_fns (s : State) (c q : Nat) (f : Frame → Frame) : (s.modFrame c q f).fns = s.fns := rfl
@[simp] theorem State.modFrame_outst (s : State) (c q : Nat) (f : Frame → Frame) : (s.modFrame c q f).outst = s.outst := rfl
@[simp] theorem State.modFrame_strata (s : State) (c q : Nat) (f : Frame → Frame) : (s.modFrame c q f).strata = s.strata := rfl
@[simp] theorem State.modFrame_geo (s : State) (c q : Nat) (f : Frame → Frame) : (s.modFrame c q f).geo = s.geo := rfl
@[simp] theorem State.modFrame_ext (s : State) (c q : Nat) (f : Frame → Frame) : (s.modFrame c q f).ext = s.ext := rfl
@[simp] theorem State.modFrame_copies (s : State) (c q : Nat) (f : Frame → Frame) : (s.modFrame c q f).copies = s.copies := rfl
@[simp] theorem State.modFrame_deliveries (s : State) (c q : Nat) (f : Frame → Frame) : (s.modFrame c q f).deliveries = s.deliveries := rfl
@[simp] theorem State.modFrame_sup (s : State) (c q : Nat) (f : Frame → Frame) : (s.modFrame c q f).sup = s.sup := rfl
@[simp] theorem State.modFrame_plans (s : State) (c q : Nat) (f : Frame → Frame) : (s.modFrame c q f).plans = s.plans := rfl
@[simp] theorem State.modFrame_boot (s : State) (c q : Nat) (f : Frame → Frame) : (s.modFrame c q f).boot = s.boot := rfl
@[simp] theorem State.modFrame_units (s : State) (c q : Nat) (f : Frame → Frame) : (s.modFrame c q f).units = s.units := rfl
@[simp] theorem State.modFrame_mapping (s : State) (c q : Nat) (f : Frame → Frame) : (s.modFrame c q f).mapping = s.mapping := rfl
@[simp] theorem State.modFrame_lastPhys (s : State) (c q : Nat) (f : Frame → Frame) : (s.modFrame c q f).lastPhys = s.lastPhys := rfl
@[simp] theorem State.modFrame_toReplace (s : State) (c q : Nat) (f : Frame → Frame) : (s.modFrame c q f).toReplace = s.toReplace := rfl
@[simp] theorem State.modFrame_scratch (s : State) (c q : Nat) (f : Frame → Frame) : (s.modFrame c q f).scratch = s.scratch := rfl
@[simp] theorem State.modFrame_clusters (s : State) (c q : Nat) (f : Frame → Frame) : (s.modFrame c q f).clusters = s.clusters := rfl
@[simp] theorem State.modFrame_waits (s : State) (c q : Nat) (f : Frame → Frame) : (s.modFrame c q f).waits = s.waits := rfl
@[simp] theorem State.modFrame_barriers (s : State) (c q : Nat) (f : Frame → Frame) : (s.modFrame c q f).barriers = s.barriers := rfl
@[simp] theorem State.modFrame_progs (s : State) (c q : Nat) (f : Frame → Frame) : (s.modFrame c q f).progs = s.progs := rfl
@[simp] theorem State.modFrame_scheduled (s : State) (c q : Nat) (f : Frame → Frame) : (s.modFrame c q f).scheduled = s.scheduled := rfl
@[simp] theorem State.modFrame_tables (s : State) (c q : Nat) (f : Frame → Frame) : (s.modFrame c q f).tables = s.tables := rfl
@[simp] theorem State.modFrame_mprogs (s : State) (c q : Nat) (f : Frame → Frame) : (s.modFrame c q f).mprogs = s.mprogs := rfl
@[simp] theorem State.modFrame_tableLoads (s : State) (c q : Nat) (f : Frame → Frame) : (s.modFrame c q f).tableLoads = s.tableLoads := rfl
@[simp] theorem State.modFrame_mprogLoads (s : State) (c q : Nat) (f : Frame → Frame) : (s.modFrame c q f).mprogLoads = s.mprogLoads := rfl
@[simp] theorem State.modFrame_runs (s : State) (c q : Nat) (f : Frame → Frame) : (s.modFrame c q f).runs = s.runs := rfl
@[simp] theorem State.modFrame_ports (s : State) (c q : Nat) (f : Frame → Frame) : (s.modFrame c q f).ports = s.ports := rfl
@[simp] theorem State.modFrame_lanes (s : State) (c q : Nat) (f : Frame → Frame) : (s.modFrame c q f).lanes = s.lanes := rfl
@[simp] theorem State.modFrame_chans (s : State) (c q : Nat) (f : Frame → Frame) : (s.modFrame c q f).chans = s.chans := rfl
@[simp] theorem State.modFrame_stores (s : State) (c q : Nat) (f : Frame → Frame) : (s.modFrame c q f).stores = s.stores := rfl
@[simp] theorem State.modFrame_pieces (s : State) (c q : Nat) (f : Frame → Frame) : (s.modFrame c q f).pieces = s.pieces := rfl
@[simp] theorem State.modFrame_loaded (s : State) (c q : Nat) (f : Frame → Frame) : (s.modFrame c q f).loaded = s.loaded := rfl
@[simp] theorem State.modFrame_repro (s : State) (c q : Nat) (f : Frame → Frame) : (s.modFrame c q f).repro = s.repro := rfl
@[simp] theorem State.modFrame_lock (s : State) (c q : Nat) (f : Frame → Frame) : (s.modFrame c q f).lock = s.lock := rfl
@[simp] theorem State.modFrame_faults (s : State) (c q : Nat) (f : Frame → Frame) : (s.modFrame c q f).faults = s.faults := rfl
@[simp] theorem State.modFrame_logReads (s : State) (c q : Nat) (f : Frame → Frame) : (s.modFrame c q f).logReads = s.logReads := rfl
@[simp] theorem State.modFrame_nv (s : State) (c q : Nat) (f : Frame → Frame) : (s.modFrame c q f).nv = s.nv := rfl
@[simp] theorem State.modFrame_panel (s : State) (c q : Nat) (f : Frame → Frame) : (s.modFrame c q f).panel = s.panel := rfl
@[simp] theorem State.modFrame_thermal (s : State) (c q : Nat) (f : Frame → Frame) : (s.modFrame c q f).thermal = s.thermal := rfl
@[simp] theorem State.modFrame_telem (s : State) (c q : Nat) (f : Frame → Frame) : (s.modFrame c q f).telem = s.telem := rfl
@[simp] theorem State.modFrame_slots (s : State) (c q : Nat) (f : Frame → Frame) : (s.modFrame c q f).slots = s.slots := rfl
@[simp] theorem State.modFrame_remaps (s : State) (c q : Nat) (f : Frame → Frame) : (s.modFrame c q f).remaps = s.remaps := rfl
@[simp] theorem State.modFrame_jtag (s : State) (c q : Nat) (f : Frame → Frame) : (s.modFrame c q f).jtag = s.jtag := rfl

/-! ### `State.modProg` -/

@[simp] theorem State.modProg_progs (s : State) (n : FnNo) (pid : Nat) (f : Prog → Prog) :
    (s.modProg n pid f).progs = s.progs.map fun p => if p.stratum = n ∧ p.id = pid then f p else p := rfl
@[simp] theorem State.modProg_pending (s : State) (n : FnNo) (pid : Nat) (f : Prog → Prog) : (s.modProg n pid f).pending = s.pending := rfl
@[simp] theorem State.modProg_out (s : State) (n : FnNo) (pid : Nat) (f : Prog → Prog) : (s.modProg n pid f).out = s.out := rfl
@[simp] theorem State.modProg_tick (s : State) (n : FnNo) (pid : Nat) (f : Prog → Prog) : (s.modProg n pid f).tick = s.tick := rfl
@[simp] theorem State.modProg_withhold (s : State) (n : FnNo) (pid : Nat) (f : Prog → Prog) : (s.modProg n pid f).withhold = s.withhold := rfl
@[simp] theorem State.modProg_free (s : State) (n : FnNo) (pid : Nat) (f : Prog → Prog) : (s.modProg n pid f).free = s.free := rfl
@[simp] theorem State.modProg_nextId (s : State) (n : FnNo) (pid : Nat) (f : Prog → Prog) : (s.modProg n pid f).nextId = s.nextId := rfl
@[simp] theorem State.modProg_nextLaunch (s : State) (n : FnNo) (pid : Nat) (f : Prog → Prog) : (s.modProg n pid f).nextLaunch = s.nextLaunch := rfl
@[simp] theorem State.modProg_order32 (s : State) (n : FnNo) (pid : Nat) (f : Prog → Prog) : (s.modProg n pid f).order32 = s.order32 := rfl
@[simp] theorem State.modProg_fns (s : State) (n : FnNo) (pid : Nat) (f : Prog → Prog) : (s.modProg n pid f).fns = s.fns := rfl
@[simp] theorem State.modProg_outst (s : State) (n : FnNo) (pid : Nat) (f : Prog → Prog) : (s.modProg n pid f).outst = s.outst := rfl
@[simp] theorem State.modProg_strata (s : State) (n : FnNo) (pid : Nat) (f : Prog → Prog) : (s.modProg n pid f).strata = s.strata := rfl
@[simp] theorem State.modProg_geo (s : State) (n : FnNo) (pid : Nat) (f : Prog → Prog) : (s.modProg n pid f).geo = s.geo := rfl
@[simp] theorem State.modProg_ext (s : State) (n : FnNo) (pid : Nat) (f : Prog → Prog) : (s.modProg n pid f).ext = s.ext := rfl
@[simp] theorem State.modProg_copies (s : State) (n : FnNo) (pid : Nat) (f : Prog → Prog) : (s.modProg n pid f).copies = s.copies := rfl
@[simp] theorem State.modProg_deliveries (s : State) (n : FnNo) (pid : Nat) (f : Prog → Prog) : (s.modProg n pid f).deliveries = s.deliveries := rfl
@[simp] theorem State.modProg_sup (s : State) (n : FnNo) (pid : Nat) (f : Prog → Prog) : (s.modProg n pid f).sup = s.sup := rfl
@[simp] theorem State.modProg_plans (s : State) (n : FnNo) (pid : Nat) (f : Prog → Prog) : (s.modProg n pid f).plans = s.plans := rfl
@[simp] theorem State.modProg_boot (s : State) (n : FnNo) (pid : Nat) (f : Prog → Prog) : (s.modProg n pid f).boot = s.boot := rfl
@[simp] theorem State.modProg_units (s : State) (n : FnNo) (pid : Nat) (f : Prog → Prog) : (s.modProg n pid f).units = s.units := rfl
@[simp] theorem State.modProg_mapping (s : State) (n : FnNo) (pid : Nat) (f : Prog → Prog) : (s.modProg n pid f).mapping = s.mapping := rfl
@[simp] theorem State.modProg_lastPhys (s : State) (n : FnNo) (pid : Nat) (f : Prog → Prog) : (s.modProg n pid f).lastPhys = s.lastPhys := rfl
@[simp] theorem State.modProg_toReplace (s : State) (n : FnNo) (pid : Nat) (f : Prog → Prog) : (s.modProg n pid f).toReplace = s.toReplace := rfl
@[simp] theorem State.modProg_scratch (s : State) (n : FnNo) (pid : Nat) (f : Prog → Prog) : (s.modProg n pid f).scratch = s.scratch := rfl
@[simp] theorem State.modProg_clusters (s : State) (n : FnNo) (pid : Nat) (f : Prog → Prog) : (s.modProg n pid f).clusters = s.clusters := rfl
@[simp] theorem State.modProg_waits (s : State) (n : FnNo) (pid : Nat) (f : Prog → Prog) : (s.modProg n pid f).waits = s.waits := rfl
@[simp] theorem State.modProg_barriers (s : State) (n : FnNo) (pid : Nat) (f : Prog → Prog) : (s.modProg n pid f).barriers = s.barriers := rfl
@[simp] theorem State.modProg_scheduled (s : State) (n : FnNo) (pid : Nat) (f : Prog → Prog) : (s.modProg n pid f).scheduled = s.scheduled := rfl
@[simp] theorem State.modProg_tables (s : State) (n : FnNo) (pid : Nat) (f : Prog → Prog) : (s.modProg n pid f).tables = s.tables := rfl
@[simp] theorem State.modProg_mprogs (s : State) (n : FnNo) (pid : Nat) (f : Prog → Prog) : (s.modProg n pid f).mprogs = s.mprogs := rfl
@[simp] theorem State.modProg_tableLoads (s : State) (n : FnNo) (pid : Nat) (f : Prog → Prog) : (s.modProg n pid f).tableLoads = s.tableLoads := rfl
@[simp] theorem State.modProg_mprogLoads (s : State) (n : FnNo) (pid : Nat) (f : Prog → Prog) : (s.modProg n pid f).mprogLoads = s.mprogLoads := rfl
@[simp] theorem State.modProg_runs (s : State) (n : FnNo) (pid : Nat) (f : Prog → Prog) : (s.modProg n pid f).runs = s.runs := rfl
@[simp] theorem State.modProg_ports (s : State) (n : FnNo) (pid : Nat) (f : Prog → Prog) : (s.modProg n pid f).ports = s.ports := rfl
@[simp] theorem State.modProg_lanes (s : State) (n : FnNo) (pid : Nat) (f : Prog → Prog) : (s.modProg n pid f).lanes = s.lanes := rfl
@[simp] theorem State.modProg_chans (s : State) (n : FnNo) (pid : Nat) (f : Prog → Prog) : (s.modProg n pid f).chans = s.chans := rfl
@[simp] theorem State.modProg_frames (s : State) (n : FnNo) (pid : Nat) (f : Prog → Prog) : (s.modProg n pid f).frames = s.frames := rfl
@[simp] theorem State.modProg_stores (s : State) (n : FnNo) (pid : Nat) (f : Prog → Prog) : (s.modProg n pid f).stores = s.stores := rfl
@[simp] theorem State.modProg_pieces (s : State) (n : FnNo) (pid : Nat) (f : Prog → Prog) : (s.modProg n pid f).pieces = s.pieces := rfl
@[simp] theorem State.modProg_loaded (s : State) (n : FnNo) (pid : Nat) (f : Prog → Prog) : (s.modProg n pid f).loaded = s.loaded := rfl
@[simp] theorem State.modProg_repro (s : State) (n : FnNo) (pid : Nat) (f : Prog → Prog) : (s.modProg n pid f).repro = s.repro := rfl
@[simp] theorem State.modProg_lock (s : State) (n : FnNo) (pid : Nat) (f : Prog → Prog) : (s.modProg n pid f).lock = s.lock := rfl
@[simp] theorem State.modProg_faults (s : State) (n : FnNo) (pid : Nat) (f : Prog → Prog) : (s.modProg n pid f).faults = s.faults := rfl
@[simp] theorem State.modProg_logReads (s : State) (n : FnNo) (pid : Nat) (f : Prog → Prog) : (s.modProg n pid f).logReads = s.logReads := rfl
@[simp] theorem State.modProg_nv (s : State) (n : FnNo) (pid : Nat) (f : Prog → Prog) : (s.modProg n pid f).nv = s.nv := rfl
@[simp] theorem State.modProg_panel (s : State) (n : FnNo) (pid : Nat) (f : Prog → Prog) : (s.modProg n pid f).panel = s.panel := rfl
@[simp] theorem State.modProg_thermal (s : State) (n : FnNo) (pid : Nat) (f : Prog → Prog) : (s.modProg n pid f).thermal = s.thermal := rfl
@[simp] theorem State.modProg_telem (s : State) (n : FnNo) (pid : Nat) (f : Prog → Prog) : (s.modProg n pid f).telem = s.telem := rfl
@[simp] theorem State.modProg_slots (s : State) (n : FnNo) (pid : Nat) (f : Prog → Prog) : (s.modProg n pid f).slots = s.slots := rfl
@[simp] theorem State.modProg_remaps (s : State) (n : FnNo) (pid : Nat) (f : Prog → Prog) : (s.modProg n pid f).remaps = s.remaps := rfl
@[simp] theorem State.modProg_jtag (s : State) (n : FnNo) (pid : Nat) (f : Prog → Prog) : (s.modProg n pid f).jtag = s.jtag := rfl

/-! ### `State.modRun` -/

@[simp] theorem State.modRun_runs (s : State) (r : Run) (f : Run → Run) :
    (s.modRun r f).runs = s.runs.map fun x => if x.chan = r.chan ∧ x.seq = r.seq then f x else x := rfl
@[simp] theorem State.modRun_pending (s : State) (r : Run) (f : Run → Run) : (s.modRun r f).pending = s.pending := rfl
@[simp] theorem State.modRun_out (s : State) (r : Run) (f : Run → Run) : (s.modRun r f).out = s.out := rfl
@[simp] theorem State.modRun_tick (s : State) (r : Run) (f : Run → Run) : (s.modRun r f).tick = s.tick := rfl
@[simp] theorem State.modRun_withhold (s : State) (r : Run) (f : Run → Run) : (s.modRun r f).withhold = s.withhold := rfl
@[simp] theorem State.modRun_free (s : State) (r : Run) (f : Run → Run) : (s.modRun r f).free = s.free := rfl
@[simp] theorem State.modRun_nextId (s : State) (r : Run) (f : Run → Run) : (s.modRun r f).nextId = s.nextId := rfl
@[simp] theorem State.modRun_nextLaunch (s : State) (r : Run) (f : Run → Run) : (s.modRun r f).nextLaunch = s.nextLaunch := rfl
@[simp] theorem State.modRun_order32 (s : State) (r : Run) (f : Run → Run) : (s.modRun r f).order32 = s.order32 := rfl
@[simp] theorem State.modRun_fns (s : State) (r : Run) (f : Run → Run) : (s.modRun r f).fns = s.fns := rfl
@[simp] theorem State.modRun_outst (s : State) (r : Run) (f : Run → Run) : (s.modRun r f).outst = s.outst := rfl
@[simp] theorem State.modRun_strata (s : State) (r : Run) (f : Run → Run) : (s.modRun r f).strata = s.strata := rfl
@[simp] theorem State.modRun_geo (s : State) (r : Run) (f : Run → Run) : (s.modRun r f).geo = s.geo := rfl
@[simp] theorem State.modRun_ext (s : State) (r : Run) (f : Run → Run) : (s.modRun r f).ext = s.ext := rfl
@[simp] theorem State.modRun_copies (s : State) (r : Run) (f : Run → Run) : (s.modRun r f).copies = s.copies := rfl
@[simp] theorem State.modRun_deliveries (s : State) (r : Run) (f : Run → Run) : (s.modRun r f).deliveries = s.deliveries := rfl
@[simp] theorem State.modRun_sup (s : State) (r : Run) (f : Run → Run) : (s.modRun r f).sup = s.sup := rfl
@[simp] theorem State.modRun_plans (s : State) (r : Run) (f : Run → Run) : (s.modRun r f).plans = s.plans := rfl
@[simp] theorem State.modRun_boot (s : State) (r : Run) (f : Run → Run) : (s.modRun r f).boot = s.boot := rfl
@[simp] theorem State.modRun_units (s : State) (r : Run) (f : Run → Run) : (s.modRun r f).units = s.units := rfl
@[simp] theorem State.modRun_mapping (s : State) (r : Run) (f : Run → Run) : (s.modRun r f).mapping = s.mapping := rfl
@[simp] theorem State.modRun_lastPhys (s : State) (r : Run) (f : Run → Run) : (s.modRun r f).lastPhys = s.lastPhys := rfl
@[simp] theorem State.modRun_toReplace (s : State) (r : Run) (f : Run → Run) : (s.modRun r f).toReplace = s.toReplace := rfl
@[simp] theorem State.modRun_scratch (s : State) (r : Run) (f : Run → Run) : (s.modRun r f).scratch = s.scratch := rfl
@[simp] theorem State.modRun_clusters (s : State) (r : Run) (f : Run → Run) : (s.modRun r f).clusters = s.clusters := rfl
@[simp] theorem State.modRun_waits (s : State) (r : Run) (f : Run → Run) : (s.modRun r f).waits = s.waits := rfl
@[simp] theorem State.modRun_barriers (s : State) (r : Run) (f : Run → Run) : (s.modRun r f).barriers = s.barriers := rfl
@[simp] theorem State.modRun_progs (s : State) (r : Run) (f : Run → Run) : (s.modRun r f).progs = s.progs := rfl
@[simp] theorem State.modRun_scheduled (s : State) (r : Run) (f : Run → Run) : (s.modRun r f).scheduled = s.scheduled := rfl
@[simp] theorem State.modRun_tables (s : State) (r : Run) (f : Run → Run) : (s.modRun r f).tables = s.tables := rfl
@[simp] theorem State.modRun_mprogs (s : State) (r : Run) (f : Run → Run) : (s.modRun r f).mprogs = s.mprogs := rfl
@[simp] theorem State.modRun_tableLoads (s : State) (r : Run) (f : Run → Run) : (s.modRun r f).tableLoads = s.tableLoads := rfl
@[simp] theorem State.modRun_mprogLoads (s : State) (r : Run) (f : Run → Run) : (s.modRun r f).mprogLoads = s.mprogLoads := rfl
@[simp] theorem State.modRun_ports (s : State) (r : Run) (f : Run → Run) : (s.modRun r f).ports = s.ports := rfl
@[simp] theorem State.modRun_lanes (s : State) (r : Run) (f : Run → Run) : (s.modRun r f).lanes = s.lanes := rfl
@[simp] theorem State.modRun_chans (s : State) (r : Run) (f : Run → Run) : (s.modRun r f).chans = s.chans := rfl
@[simp] theorem State.modRun_frames (s : State) (r : Run) (f : Run → Run) : (s.modRun r f).frames = s.frames := rfl
@[simp] theorem State.modRun_stores (s : State) (r : Run) (f : Run → Run) : (s.modRun r f).stores = s.stores := rfl
@[simp] theorem State.modRun_pieces (s : State) (r : Run) (f : Run → Run) : (s.modRun r f).pieces = s.pieces := rfl
@[simp] theorem State.modRun_loaded (s : State) (r : Run) (f : Run → Run) : (s.modRun r f).loaded = s.loaded := rfl
@[simp] theorem State.modRun_repro (s : State) (r : Run) (f : Run → Run) : (s.modRun r f).repro = s.repro := rfl
@[simp] theorem State.modRun_lock (s : State) (r : Run) (f : Run → Run) : (s.modRun r f).lock = s.lock := rfl
@[simp] theorem State.modRun_faults (s : State) (r : Run) (f : Run → Run) : (s.modRun r f).faults = s.faults := rfl
@[simp] theorem State.modRun_logReads (s : State) (r : Run) (f : Run → Run) : (s.modRun r f).logReads = s.logReads := rfl
@[simp] theorem State.modRun_nv (s : State) (r : Run) (f : Run → Run) : (s.modRun r f).nv = s.nv := rfl
@[simp] theorem State.modRun_panel (s : State) (r : Run) (f : Run → Run) : (s.modRun r f).panel = s.panel := rfl
@[simp] theorem State.modRun_thermal (s : State) (r : Run) (f : Run → Run) : (s.modRun r f).thermal = s.thermal := rfl
@[simp] theorem State.modRun_telem (s : State) (r : Run) (f : Run → Run) : (s.modRun r f).telem = s.telem := rfl
@[simp] theorem State.modRun_slots (s : State) (r : Run) (f : Run → Run) : (s.modRun r f).slots = s.slots := rfl
@[simp] theorem State.modRun_remaps (s : State) (r : Run) (f : Run → Run) : (s.modRun r f).remaps = s.remaps := rfl
@[simp] theorem State.modRun_jtag (s : State) (r : Run) (f : Run → Run) : (s.modRun r f).jtag = s.jtag := rfl

/-! ### `State.modLock` -/

@[simp] theorem State.modLock_lock (s : State) (f : Lock → Lock) :
    (s.modLock f).lock = f s.lock := rfl
@[simp] theorem State.modLock_pending (s : State) (f : Lock → Lock) : (s.modLock f).pending = s.pending := rfl
@[simp] theorem State.modLock_out (s : State) (f : Lock → Lock) : (s.modLock f).out = s.out := rfl
@[simp] theorem State.modLock_tick (s : State) (f : Lock → Lock) : (s.modLock f).tick = s.tick := rfl
@[simp] theorem State.modLock_withhold (s : State) (f : Lock → Lock) : (s.modLock f).withhold = s.withhold := rfl
@[simp] theorem State.modLock_free (s : State) (f : Lock → Lock) : (s.modLock f).free = s.free := rfl
@[simp] theorem State.modLock_nextId (s : State) (f : Lock → Lock) : (s.modLock f).nextId = s.nextId := rfl
@[simp] theorem State.modLock_nextLaunch (s : State) (f : Lock → Lock) : (s.modLock f).nextLaunch = s.nextLaunch := rfl
@[simp] theorem State.modLock_order32 (s : State) (f : Lock → Lock) : (s.modLock f).order32 = s.order32 := rfl
@[simp] theorem State.modLock_fns (s : State) (f : Lock → Lock) : (s.modLock f).fns = s.fns := rfl
@[simp] theorem State.modLock_outst (s : State) (f : Lock → Lock) : (s.modLock f).outst = s.outst := rfl
@[simp] theorem State.modLock_strata (s : State) (f : Lock → Lock) : (s.modLock f).strata = s.strata := rfl
@[simp] theorem State.modLock_geo (s : State) (f : Lock → Lock) : (s.modLock f).geo = s.geo := rfl
@[simp] theorem State.modLock_ext (s : State) (f : Lock → Lock) : (s.modLock f).ext = s.ext := rfl
@[simp] theorem State.modLock_copies (s : State) (f : Lock → Lock) : (s.modLock f).copies = s.copies := rfl
@[simp] theorem State.modLock_deliveries (s : State) (f : Lock → Lock) : (s.modLock f).deliveries = s.deliveries := rfl
@[simp] theorem State.modLock_sup (s : State) (f : Lock → Lock) : (s.modLock f).sup = s.sup := rfl
@[simp] theorem State.modLock_plans (s : State) (f : Lock → Lock) : (s.modLock f).plans = s.plans := rfl
@[simp] theorem State.modLock_boot (s : State) (f : Lock → Lock) : (s.modLock f).boot = s.boot := rfl
@[simp] theorem State.modLock_units (s : State) (f : Lock → Lock) : (s.modLock f).units = s.units := rfl
@[simp] theorem State.modLock_mapping (s : State) (f : Lock → Lock) : (s.modLock f).mapping = s.mapping := rfl
@[simp] theorem State.modLock_lastPhys (s : State) (f : Lock → Lock) : (s.modLock f).lastPhys = s.lastPhys := rfl
@[simp] theorem State.modLock_toReplace (s : State) (f : Lock → Lock) : (s.modLock f).toReplace = s.toReplace := rfl
@[simp] theorem State.modLock_scratch (s : State) (f : Lock → Lock) : (s.modLock f).scratch = s.scratch := rfl
@[simp] theorem State.modLock_clusters (s : State) (f : Lock → Lock) : (s.modLock f).clusters = s.clusters := rfl
@[simp] theorem State.modLock_waits (s : State) (f : Lock → Lock) : (s.modLock f).waits = s.waits := rfl
@[simp] theorem State.modLock_barriers (s : State) (f : Lock → Lock) : (s.modLock f).barriers = s.barriers := rfl
@[simp] theorem State.modLock_progs (s : State) (f : Lock → Lock) : (s.modLock f).progs = s.progs := rfl
@[simp] theorem State.modLock_scheduled (s : State) (f : Lock → Lock) : (s.modLock f).scheduled = s.scheduled := rfl
@[simp] theorem State.modLock_tables (s : State) (f : Lock → Lock) : (s.modLock f).tables = s.tables := rfl
@[simp] theorem State.modLock_mprogs (s : State) (f : Lock → Lock) : (s.modLock f).mprogs = s.mprogs := rfl
@[simp] theorem State.modLock_tableLoads (s : State) (f : Lock → Lock) : (s.modLock f).tableLoads = s.tableLoads := rfl
@[simp] theorem State.modLock_mprogLoads (s : State) (f : Lock → Lock) : (s.modLock f).mprogLoads = s.mprogLoads := rfl
@[simp] theorem State.modLock_runs (s : State) (f : Lock → Lock) : (s.modLock f).runs = s.runs := rfl
@[simp] theorem State.modLock_ports (s : State) (f : Lock → Lock) : (s.modLock f).ports = s.ports := rfl
@[simp] theorem State.modLock_lanes (s : State) (f : Lock → Lock) : (s.modLock f).lanes = s.lanes := rfl
@[simp] theorem State.modLock_chans (s : State) (f : Lock → Lock) : (s.modLock f).chans = s.chans := rfl
@[simp] theorem State.modLock_frames (s : State) (f : Lock → Lock) : (s.modLock f).frames = s.frames := rfl
@[simp] theorem State.modLock_stores (s : State) (f : Lock → Lock) : (s.modLock f).stores = s.stores := rfl
@[simp] theorem State.modLock_pieces (s : State) (f : Lock → Lock) : (s.modLock f).pieces = s.pieces := rfl
@[simp] theorem State.modLock_loaded (s : State) (f : Lock → Lock) : (s.modLock f).loaded = s.loaded := rfl
@[simp] theorem State.modLock_repro (s : State) (f : Lock → Lock) : (s.modLock f).repro = s.repro := rfl
@[simp] theorem State.modLock_faults (s : State) (f : Lock → Lock) : (s.modLock f).faults = s.faults := rfl
@[simp] theorem State.modLock_logReads (s : State) (f : Lock → Lock) : (s.modLock f).logReads = s.logReads := rfl
@[simp] theorem State.modLock_nv (s : State) (f : Lock → Lock) : (s.modLock f).nv = s.nv := rfl
@[simp] theorem State.modLock_panel (s : State) (f : Lock → Lock) : (s.modLock f).panel = s.panel := rfl
@[simp] theorem State.modLock_thermal (s : State) (f : Lock → Lock) : (s.modLock f).thermal = s.thermal := rfl
@[simp] theorem State.modLock_telem (s : State) (f : Lock → Lock) : (s.modLock f).telem = s.telem := rfl
@[simp] theorem State.modLock_slots (s : State) (f : Lock → Lock) : (s.modLock f).slots = s.slots := rfl
@[simp] theorem State.modLock_remaps (s : State) (f : Lock → Lock) : (s.modLock f).remaps = s.remaps := rfl
@[simp] theorem State.modLock_jtag (s : State) (f : Lock → Lock) : (s.modLock f).jtag = s.jtag := rfl

/-! ### `State.modRepro` -/

@[simp] theorem State.modRepro_pending (s : State) (n : FnNo) (f : ReproRun → ReproRun) : (s.modRepro n f).pending = s.pending := rfl
@[simp] theorem State.modRepro_out (s : State) (n : FnNo) (f : ReproRun → ReproRun) : (s.modRepro n f).out = s.out := rfl
@[simp] theorem State.modRepro_tick (s : State) (n : FnNo) (f : ReproRun → ReproRun) : (s.modRepro n f).tick = s.tick := rfl
@[simp] theorem State.modRepro_withhold (s : State) (n : FnNo) (f : ReproRun → ReproRun) : (s.modRepro n f).withhold = s.withhold := rfl
@[simp] theorem State.modRepro_free (s : State) (n : FnNo) (f : ReproRun → ReproRun) : (s.modRepro n f).free = s.free := rfl
@[simp] theorem State.modRepro_nextId (s : State) (n : FnNo) (f : ReproRun → ReproRun) : (s.modRepro n f).nextId = s.nextId := rfl
@[simp] theorem State.modRepro_nextLaunch (s : State) (n : FnNo) (f : ReproRun → ReproRun) : (s.modRepro n f).nextLaunch = s.nextLaunch := rfl
@[simp] theorem State.modRepro_order32 (s : State) (n : FnNo) (f : ReproRun → ReproRun) : (s.modRepro n f).order32 = s.order32 := rfl
@[simp] theorem State.modRepro_fns (s : State) (n : FnNo) (f : ReproRun → ReproRun) : (s.modRepro n f).fns = s.fns := rfl
@[simp] theorem State.modRepro_outst (s : State) (n : FnNo) (f : ReproRun → ReproRun) : (s.modRepro n f).outst = s.outst := rfl
@[simp] theorem State.modRepro_strata (s : State) (n : FnNo) (f : ReproRun → ReproRun) : (s.modRepro n f).strata = s.strata := rfl
@[simp] theorem State.modRepro_geo (s : State) (n : FnNo) (f : ReproRun → ReproRun) : (s.modRepro n f).geo = s.geo := rfl
@[simp] theorem State.modRepro_ext (s : State) (n : FnNo) (f : ReproRun → ReproRun) : (s.modRepro n f).ext = s.ext := rfl
@[simp] theorem State.modRepro_copies (s : State) (n : FnNo) (f : ReproRun → ReproRun) : (s.modRepro n f).copies = s.copies := rfl
@[simp] theorem State.modRepro_deliveries (s : State) (n : FnNo) (f : ReproRun → ReproRun) : (s.modRepro n f).deliveries = s.deliveries := rfl
@[simp] theorem State.modRepro_sup (s : State) (n : FnNo) (f : ReproRun → ReproRun) : (s.modRepro n f).sup = s.sup := rfl
@[simp] theorem State.modRepro_plans (s : State) (n : FnNo) (f : ReproRun → ReproRun) : (s.modRepro n f).plans = s.plans := rfl
@[simp] theorem State.modRepro_boot (s : State) (n : FnNo) (f : ReproRun → ReproRun) : (s.modRepro n f).boot = s.boot := rfl
@[simp] theorem State.modRepro_units (s : State) (n : FnNo) (f : ReproRun → ReproRun) : (s.modRepro n f).units = s.units := rfl
@[simp] theorem State.modRepro_mapping (s : State) (n : FnNo) (f : ReproRun → ReproRun) : (s.modRepro n f).mapping = s.mapping := rfl
@[simp] theorem State.modRepro_lastPhys (s : State) (n : FnNo) (f : ReproRun → ReproRun) : (s.modRepro n f).lastPhys = s.lastPhys := rfl
@[simp] theorem State.modRepro_toReplace (s : State) (n : FnNo) (f : ReproRun → ReproRun) : (s.modRepro n f).toReplace = s.toReplace := rfl
@[simp] theorem State.modRepro_scratch (s : State) (n : FnNo) (f : ReproRun → ReproRun) : (s.modRepro n f).scratch = s.scratch := rfl
@[simp] theorem State.modRepro_clusters (s : State) (n : FnNo) (f : ReproRun → ReproRun) : (s.modRepro n f).clusters = s.clusters := rfl
@[simp] theorem State.modRepro_waits (s : State) (n : FnNo) (f : ReproRun → ReproRun) : (s.modRepro n f).waits = s.waits := rfl
@[simp] theorem State.modRepro_barriers (s : State) (n : FnNo) (f : ReproRun → ReproRun) : (s.modRepro n f).barriers = s.barriers := rfl
@[simp] theorem State.modRepro_progs (s : State) (n : FnNo) (f : ReproRun → ReproRun) : (s.modRepro n f).progs = s.progs := rfl
@[simp] theorem State.modRepro_scheduled (s : State) (n : FnNo) (f : ReproRun → ReproRun) : (s.modRepro n f).scheduled = s.scheduled := rfl
@[simp] theorem State.modRepro_tables (s : State) (n : FnNo) (f : ReproRun → ReproRun) : (s.modRepro n f).tables = s.tables := rfl
@[simp] theorem State.modRepro_mprogs (s : State) (n : FnNo) (f : ReproRun → ReproRun) : (s.modRepro n f).mprogs = s.mprogs := rfl
@[simp] theorem State.modRepro_tableLoads (s : State) (n : FnNo) (f : ReproRun → ReproRun) : (s.modRepro n f).tableLoads = s.tableLoads := rfl
@[simp] theorem State.modRepro_mprogLoads (s : State) (n : FnNo) (f : ReproRun → ReproRun) : (s.modRepro n f).mprogLoads = s.mprogLoads := rfl
@[simp] theorem State.modRepro_runs (s : State) (n : FnNo) (f : ReproRun → ReproRun) : (s.modRepro n f).runs = s.runs := rfl
@[simp] theorem State.modRepro_ports (s : State) (n : FnNo) (f : ReproRun → ReproRun) : (s.modRepro n f).ports = s.ports := rfl
@[simp] theorem State.modRepro_lanes (s : State) (n : FnNo) (f : ReproRun → ReproRun) : (s.modRepro n f).lanes = s.lanes := rfl
@[simp] theorem State.modRepro_chans (s : State) (n : FnNo) (f : ReproRun → ReproRun) : (s.modRepro n f).chans = s.chans := rfl
@[simp] theorem State.modRepro_frames (s : State) (n : FnNo) (f : ReproRun → ReproRun) : (s.modRepro n f).frames = s.frames := rfl
@[simp] theorem State.modRepro_stores (s : State) (n : FnNo) (f : ReproRun → ReproRun) : (s.modRepro n f).stores = s.stores := rfl
@[simp] theorem State.modRepro_pieces (s : State) (n : FnNo) (f : ReproRun → ReproRun) : (s.modRepro n f).pieces = s.pieces := rfl
@[simp] theorem State.modRepro_loaded (s : State) (n : FnNo) (f : ReproRun → ReproRun) : (s.modRepro n f).loaded = s.loaded := rfl
@[simp] theorem State.modRepro_lock (s : State) (n : FnNo) (f : ReproRun → ReproRun) : (s.modRepro n f).lock = s.lock := rfl
@[simp] theorem State.modRepro_faults (s : State) (n : FnNo) (f : ReproRun → ReproRun) : (s.modRepro n f).faults = s.faults := rfl
@[simp] theorem State.modRepro_logReads (s : State) (n : FnNo) (f : ReproRun → ReproRun) : (s.modRepro n f).logReads = s.logReads := rfl
@[simp] theorem State.modRepro_nv (s : State) (n : FnNo) (f : ReproRun → ReproRun) : (s.modRepro n f).nv = s.nv := rfl
@[simp] theorem State.modRepro_panel (s : State) (n : FnNo) (f : ReproRun → ReproRun) : (s.modRepro n f).panel = s.panel := rfl
@[simp] theorem State.modRepro_thermal (s : State) (n : FnNo) (f : ReproRun → ReproRun) : (s.modRepro n f).thermal = s.thermal := rfl
@[simp] theorem State.modRepro_telem (s : State) (n : FnNo) (f : ReproRun → ReproRun) : (s.modRepro n f).telem = s.telem := rfl
@[simp] theorem State.modRepro_slots (s : State) (n : FnNo) (f : ReproRun → ReproRun) : (s.modRepro n f).slots = s.slots := rfl
@[simp] theorem State.modRepro_remaps (s : State) (n : FnNo) (f : ReproRun → ReproRun) : (s.modRepro n f).remaps = s.remaps := rfl
@[simp] theorem State.modRepro_jtag (s : State) (n : FnNo) (f : ReproRun → ReproRun) : (s.modRepro n f).jtag = s.jtag := rfl

/-! ### `State.modPanel` -/

@[simp] theorem State.modPanel_panel (s : State) (f : Panel → Panel) :
    (s.modPanel f).panel = f s.panel := rfl
@[simp] theorem State.modPanel_pending (s : State) (f : Panel → Panel) : (s.modPanel f).pending = s.pending := rfl
@[simp] theorem State.modPanel_out (s : State) (f : Panel → Panel) : (s.modPanel f).out = s.out := rfl
@[simp] theorem State.modPanel_tick (s : State) (f : Panel → Panel) : (s.modPanel f).tick = s.tick := rfl
@[simp] theorem State.modPanel_withhold (s : State) (f : Panel → Panel) : (s.modPanel f).withhold = s.withhold := rfl
@[simp] theorem State.modPanel_free (s : State) (f : Panel → Panel) : (s.modPanel f).free = s.free := rfl
@[simp] theorem State.modPanel_nextId (s : State) (f : Panel → Panel) : (s.modPanel f).nextId = s.nextId := rfl
@[simp] theorem State.modPanel_nextLaunch (s : State) (f : Panel → Panel) : (s.modPanel f).nextLaunch = s.nextLaunch := rfl
@[simp] theorem State.modPanel_order32 (s : State) (f : Panel → Panel) : (s.modPanel f).order32 = s.order32 := rfl
@[simp] theorem State.modPanel_fns (s : State) (f : Panel → Panel) : (s.modPanel f).fns = s.fns := rfl
@[simp] theorem State.modPanel_outst (s : State) (f : Panel → Panel) : (s.modPanel f).outst = s.outst := rfl
@[simp] theorem State.modPanel_strata (s : State) (f : Panel → Panel) : (s.modPanel f).strata = s.strata := rfl
@[simp] theorem State.modPanel_geo (s : State) (f : Panel → Panel) : (s.modPanel f).geo = s.geo := rfl
@[simp] theorem State.modPanel_ext (s : State) (f : Panel → Panel) : (s.modPanel f).ext = s.ext := rfl
@[simp] theorem State.modPanel_copies (s : State) (f : Panel → Panel) : (s.modPanel f).copies = s.copies := rfl
@[simp] theorem State.modPanel_deliveries (s : State) (f : Panel → Panel) : (s.modPanel f).deliveries = s.deliveries := rfl
@[simp] theorem State.modPanel_sup (s : State) (f : Panel → Panel) : (s.modPanel f).sup = s.sup := rfl
@[simp] theorem State.modPanel_plans (s : State) (f : Panel → Panel) : (s.modPanel f).plans = s.plans := rfl
@[simp] theorem State.modPanel_boot (s : State) (f : Panel → Panel) : (s.modPanel f).boot = s.boot := rfl
@[simp] theorem State.modPanel_units (s : State) (f : Panel → Panel) : (s.modPanel f).units = s.units := rfl
@[simp] theorem State.modPanel_mapping (s : State) (f : Panel → Panel) : (s.modPanel f).mapping = s.mapping := rfl
@[simp] theorem State.modPanel_lastPhys (s : State) (f : Panel → Panel) : (s.modPanel f).lastPhys = s.lastPhys := rfl
@[simp] theorem State.modPanel_toReplace (s : State) (f : Panel → Panel) : (s.modPanel f).toReplace = s.toReplace := rfl
@[simp] theorem State.modPanel_scratch (s : State) (f : Panel → Panel) : (s.modPanel f).scratch = s.scratch := rfl
@[simp] theorem State.modPanel_clusters (s : State) (f : Panel → Panel) : (s.modPanel f).clusters = s.clusters := rfl
@[simp] theorem State.modPanel_waits (s : State) (f : Panel → Panel) : (s.modPanel f).waits = s.waits := rfl
@[simp] theorem State.modPanel_barriers (s : State) (f : Panel → Panel) : (s.modPanel f).barriers = s.barriers := rfl
@[simp] theorem State.modPanel_progs (s : State) (f : Panel → Panel) : (s.modPanel f).progs = s.progs := rfl
@[simp] theorem State.modPanel_scheduled (s : State) (f : Panel → Panel) : (s.modPanel f).scheduled = s.scheduled := rfl
@[simp] theorem State.modPanel_tables (s : State) (f : Panel → Panel) : (s.modPanel f).tables = s.tables := rfl
@[simp] theorem State.modPanel_mprogs (s : State) (f : Panel → Panel) : (s.modPanel f).mprogs = s.mprogs := rfl
@[simp] theorem State.modPanel_tableLoads (s : State) (f : Panel → Panel) : (s.modPanel f).tableLoads = s.tableLoads := rfl
@[simp] theorem State.modPanel_mprogLoads (s : State) (f : Panel → Panel) : (s.modPanel f).mprogLoads = s.mprogLoads := rfl
@[simp] theorem State.modPanel_runs (s : State) (f : Panel → Panel) : (s.modPanel f).runs = s.runs := rfl
@[simp] theorem State.modPanel_ports (s : State) (f : Panel → Panel) : (s.modPanel f).ports = s.ports := rfl
@[simp] theorem State.modPanel_lanes (s : State) (f : Panel → Panel) : (s.modPanel f).lanes = s.lanes := rfl
@[simp] theorem State.modPanel_chans (s : State) (f : Panel → Panel) : (s.modPanel f).chans = s.chans := rfl
@[simp] theorem State.modPanel_frames (s : State) (f : Panel → Panel) : (s.modPanel f).frames = s.frames := rfl
@[simp] theorem State.modPanel_stores (s : State) (f : Panel → Panel) : (s.modPanel f).stores = s.stores := rfl
@[simp] theorem State.modPanel_pieces (s : State) (f : Panel → Panel) : (s.modPanel f).pieces = s.pieces := rfl
@[simp] theorem State.modPanel_loaded (s : State) (f : Panel → Panel) : (s.modPanel f).loaded = s.loaded := rfl
@[simp] theorem State.modPanel_repro (s : State) (f : Panel → Panel) : (s.modPanel f).repro = s.repro := rfl
@[simp] theorem State.modPanel_lock (s : State) (f : Panel → Panel) : (s.modPanel f).lock = s.lock := rfl
@[simp] theorem State.modPanel_faults (s : State) (f : Panel → Panel) : (s.modPanel f).faults = s.faults := rfl
@[simp] theorem State.modPanel_logReads (s : State) (f : Panel → Panel) : (s.modPanel f).logReads = s.logReads := rfl
@[simp] theorem State.modPanel_nv (s : State) (f : Panel → Panel) : (s.modPanel f).nv = s.nv := rfl
@[simp] theorem State.modPanel_thermal (s : State) (f : Panel → Panel) : (s.modPanel f).thermal = s.thermal := rfl
@[simp] theorem State.modPanel_telem (s : State) (f : Panel → Panel) : (s.modPanel f).telem = s.telem := rfl
@[simp] theorem State.modPanel_slots (s : State) (f : Panel → Panel) : (s.modPanel f).slots = s.slots := rfl
@[simp] theorem State.modPanel_remaps (s : State) (f : Panel → Panel) : (s.modPanel f).remaps = s.remaps := rfl
@[simp] theorem State.modPanel_jtag (s : State) (f : Panel → Panel) : (s.modPanel f).jtag = s.jtag := rfl

/-! ### `State.modSup` -/

@[simp] theorem State.modSup_sup (s : State) (f : Supply → Supply) :
    (s.modSup f).sup = f s.sup := rfl
@[simp] theorem State.modSup_pending (s : State) (f : Supply → Supply) : (s.modSup f).pending = s.pending := rfl
@[simp] theorem State.modSup_out (s : State) (f : Supply → Supply) : (s.modSup f).out = s.out := rfl
@[simp] theorem State.modSup_tick (s : State) (f : Supply → Supply) : (s.modSup f).tick = s.tick := rfl
@[simp] theorem State.modSup_withhold (s : State) (f : Supply → Supply) : (s.modSup f).withhold = s.withhold := rfl
@[simp] theorem State.modSup_free (s : State) (f : Supply → Supply) : (s.modSup f).free = s.free := rfl
@[simp] theorem State.modSup_nextId (s : State) (f : Supply → Supply) : (s.modSup f).nextId = s.nextId := rfl
@[simp] theorem State.modSup_nextLaunch (s : State) (f : Supply → Supply) : (s.modSup f).nextLaunch = s.nextLaunch := rfl
@[simp] theorem State.modSup_order32 (s : State) (f : Supply → Supply) : (s.modSup f).order32 = s.order32 := rfl
@[simp] theorem State.modSup_fns (s : State) (f : Supply → Supply) : (s.modSup f).fns = s.fns := rfl
@[simp] theorem State.modSup_outst (s : State) (f : Supply → Supply) : (s.modSup f).outst = s.outst := rfl
@[simp] theorem State.modSup_strata (s : State) (f : Supply → Supply) : (s.modSup f).strata = s.strata := rfl
@[simp] theorem State.modSup_geo (s : State) (f : Supply → Supply) : (s.modSup f).geo = s.geo := rfl
@[simp] theorem State.modSup_ext (s : State) (f : Supply → Supply) : (s.modSup f).ext = s.ext := rfl
@[simp] theorem State.modSup_copies (s : State) (f : Supply → Supply) : (s.modSup f).copies = s.copies := rfl
@[simp] theorem State.modSup_deliveries (s : State) (f : Supply → Supply) : (s.modSup f).deliveries = s.deliveries := rfl
@[simp] theorem State.modSup_plans (s : State) (f : Supply → Supply) : (s.modSup f).plans = s.plans := rfl
@[simp] theorem State.modSup_boot (s : State) (f : Supply → Supply) : (s.modSup f).boot = s.boot := rfl
@[simp] theorem State.modSup_units (s : State) (f : Supply → Supply) : (s.modSup f).units = s.units := rfl
@[simp] theorem State.modSup_mapping (s : State) (f : Supply → Supply) : (s.modSup f).mapping = s.mapping := rfl
@[simp] theorem State.modSup_lastPhys (s : State) (f : Supply → Supply) : (s.modSup f).lastPhys = s.lastPhys := rfl
@[simp] theorem State.modSup_toReplace (s : State) (f : Supply → Supply) : (s.modSup f).toReplace = s.toReplace := rfl
@[simp] theorem State.modSup_scratch (s : State) (f : Supply → Supply) : (s.modSup f).scratch = s.scratch := rfl
@[simp] theorem State.modSup_clusters (s : State) (f : Supply → Supply) : (s.modSup f).clusters = s.clusters := rfl
@[simp] theorem State.modSup_waits (s : State) (f : Supply → Supply) : (s.modSup f).waits = s.waits := rfl
@[simp] theorem State.modSup_barriers (s : State) (f : Supply → Supply) : (s.modSup f).barriers = s.barriers := rfl
@[simp] theorem State.modSup_progs (s : State) (f : Supply → Supply) : (s.modSup f).progs = s.progs := rfl
@[simp] theorem State.modSup_scheduled (s : State) (f : Supply → Supply) : (s.modSup f).scheduled = s.scheduled := rfl
@[simp] theorem State.modSup_tables (s : State) (f : Supply → Supply) : (s.modSup f).tables = s.tables := rfl
@[simp] theorem State.modSup_mprogs (s : State) (f : Supply → Supply) : (s.modSup f).mprogs = s.mprogs := rfl
@[simp] theorem State.modSup_tableLoads (s : State) (f : Supply → Supply) : (s.modSup f).tableLoads = s.tableLoads := rfl
@[simp] theorem State.modSup_mprogLoads (s : State) (f : Supply → Supply) : (s.modSup f).mprogLoads = s.mprogLoads := rfl
@[simp] theorem State.modSup_runs (s : State) (f : Supply → Supply) : (s.modSup f).runs = s.runs := rfl
@[simp] theorem State.modSup_ports (s : State) (f : Supply → Supply) : (s.modSup f).ports = s.ports := rfl
@[simp] theorem State.modSup_lanes (s : State) (f : Supply → Supply) : (s.modSup f).lanes = s.lanes := rfl
@[simp] theorem State.modSup_chans (s : State) (f : Supply → Supply) : (s.modSup f).chans = s.chans := rfl
@[simp] theorem State.modSup_frames (s : State) (f : Supply → Supply) : (s.modSup f).frames = s.frames := rfl
@[simp] theorem State.modSup_stores (s : State) (f : Supply → Supply) : (s.modSup f).stores = s.stores := rfl
@[simp] theorem State.modSup_pieces (s : State) (f : Supply → Supply) : (s.modSup f).pieces = s.pieces := rfl
@[simp] theorem State.modSup_loaded (s : State) (f : Supply → Supply) : (s.modSup f).loaded = s.loaded := rfl
@[simp] theorem State.modSup_repro (s : State) (f : Supply → Supply) : (s.modSup f).repro = s.repro := rfl
@[simp] theorem State.modSup_lock (s : State) (f : Supply → Supply) : (s.modSup f).lock = s.lock := rfl
@[simp] theorem State.modSup_faults (s : State) (f : Supply → Supply) : (s.modSup f).faults = s.faults := rfl
@[simp] theorem State.modSup_logReads (s : State) (f : Supply → Supply) : (s.modSup f).logReads = s.logReads := rfl
@[simp] theorem State.modSup_nv (s : State) (f : Supply → Supply) : (s.modSup f).nv = s.nv := rfl
@[simp] theorem State.modSup_panel (s : State) (f : Supply → Supply) : (s.modSup f).panel = s.panel := rfl
@[simp] theorem State.modSup_thermal (s : State) (f : Supply → Supply) : (s.modSup f).thermal = s.thermal := rfl
@[simp] theorem State.modSup_telem (s : State) (f : Supply → Supply) : (s.modSup f).telem = s.telem := rfl
@[simp] theorem State.modSup_slots (s : State) (f : Supply → Supply) : (s.modSup f).slots = s.slots := rfl
@[simp] theorem State.modSup_remaps (s : State) (f : Supply → Supply) : (s.modSup f).remaps = s.remaps := rfl
@[simp] theorem State.modSup_jtag (s : State) (f : Supply → Supply) : (s.modSup f).jtag = s.jtag := rfl

/-! ### `State.modThermal` -/

@[simp] theorem State.modThermal_thermal (s : State) (f : Thermal → Thermal) :
    (s.modThermal f).thermal = f s.thermal := rfl
@[simp] theorem State.modThermal_pending (s : State) (f : Thermal → Thermal) : (s.modThermal f).pending = s.pending := rfl
@[simp] theorem State.modThermal_out (s : State) (f : Thermal → Thermal) : (s.modThermal f).out = s.out := rfl
@[simp] theorem State.modThermal_tick (s : State) (f : Thermal → Thermal) : (s.modThermal f).tick = s.tick := rfl
@[simp] theorem State.modThermal_withhold (s : State) (f : Thermal → Thermal) : (s.modThermal f).withhold = s.withhold := rfl
@[simp] theorem State.modThermal_free (s : State) (f : Thermal → Thermal) : (s.modThermal f).free = s.free := rfl
@[simp] theorem State.modThermal_nextId (s : State) (f : Thermal → Thermal) : (s.modThermal f).nextId = s.nextId := rfl
@[simp] theorem State.modThermal_nextLaunch (s : State) (f : Thermal → Thermal) : (s.modThermal f).nextLaunch = s.nextLaunch := rfl
@[simp] theorem State.modThermal_order32 (s : State) (f : Thermal → Thermal) : (s.modThermal f).order32 = s.order32 := rfl
@[simp] theorem State.modThermal_fns (s : State) (f : Thermal → Thermal) : (s.modThermal f).fns = s.fns := rfl
@[simp] theorem State.modThermal_outst (s : State) (f : Thermal → Thermal) : (s.modThermal f).outst = s.outst := rfl
@[simp] theorem State.modThermal_strata (s : State) (f : Thermal → Thermal) : (s.modThermal f).strata = s.strata := rfl
@[simp] theorem State.modThermal_geo (s : State) (f : Thermal → Thermal) : (s.modThermal f).geo = s.geo := rfl
@[simp] theorem State.modThermal_ext (s : State) (f : Thermal → Thermal) : (s.modThermal f).ext = s.ext := rfl
@[simp] theorem State.modThermal_copies (s : State) (f : Thermal → Thermal) : (s.modThermal f).copies = s.copies := rfl
@[simp] theorem State.modThermal_deliveries (s : State) (f : Thermal → Thermal) : (s.modThermal f).deliveries = s.deliveries := rfl
@[simp] theorem State.modThermal_sup (s : State) (f : Thermal → Thermal) : (s.modThermal f).sup = s.sup := rfl
@[simp] theorem State.modThermal_plans (s : State) (f : Thermal → Thermal) : (s.modThermal f).plans = s.plans := rfl
@[simp] theorem State.modThermal_boot (s : State) (f : Thermal → Thermal) : (s.modThermal f).boot = s.boot := rfl
@[simp] theorem State.modThermal_units (s : State) (f : Thermal → Thermal) : (s.modThermal f).units = s.units := rfl
@[simp] theorem State.modThermal_mapping (s : State) (f : Thermal → Thermal) : (s.modThermal f).mapping = s.mapping := rfl
@[simp] theorem State.modThermal_lastPhys (s : State) (f : Thermal → Thermal) : (s.modThermal f).lastPhys = s.lastPhys := rfl
@[simp] theorem State.modThermal_toReplace (s : State) (f : Thermal → Thermal) : (s.modThermal f).toReplace = s.toReplace := rfl
@[simp] theorem State.modThermal_scratch (s : State) (f : Thermal → Thermal) : (s.modThermal f).scratch = s.scratch := rfl
@[simp] theorem State.modThermal_clusters (s : State) (f : Thermal → Thermal) : (s.modThermal f).clusters = s.clusters := rfl
@[simp] theorem State.modThermal_waits (s : State) (f : Thermal → Thermal) : (s.modThermal f).waits = s.waits := rfl
@[simp] theorem State.modThermal_barriers (s : State) (f : Thermal → Thermal) : (s.modThermal f).barriers = s.barriers := rfl
@[simp] theorem State.modThermal_progs (s : State) (f : Thermal → Thermal) : (s.modThermal f).progs = s.progs := rfl
@[simp] theorem State.modThermal_scheduled (s : State) (f : Thermal → Thermal) : (s.modThermal f).scheduled = s.scheduled := rfl
@[simp] theorem State.modThermal_tables (s : State) (f : Thermal → Thermal) : (s.modThermal f).tables = s.tables := rfl
@[simp] theorem State.modThermal_mprogs (s : State) (f : Thermal → Thermal) : (s.modThermal f).mprogs = s.mprogs := rfl
@[simp] theorem State.modThermal_tableLoads (s : State) (f : Thermal → Thermal) : (s.modThermal f).tableLoads = s.tableLoads := rfl
@[simp] theorem State.modThermal_mprogLoads (s : State) (f : Thermal → Thermal) : (s.modThermal f).mprogLoads = s.mprogLoads := rfl
@[simp] theorem State.modThermal_runs (s : State) (f : Thermal → Thermal) : (s.modThermal f).runs = s.runs := rfl
@[simp] theorem State.modThermal_ports (s : State) (f : Thermal → Thermal) : (s.modThermal f).ports = s.ports := rfl
@[simp] theorem State.modThermal_lanes (s : State) (f : Thermal → Thermal) : (s.modThermal f).lanes = s.lanes := rfl
@[simp] theorem State.modThermal_chans (s : State) (f : Thermal → Thermal) : (s.modThermal f).chans = s.chans := rfl
@[simp] theorem State.modThermal_frames (s : State) (f : Thermal → Thermal) : (s.modThermal f).frames = s.frames := rfl
@[simp] theorem State.modThermal_stores (s : State) (f : Thermal → Thermal) : (s.modThermal f).stores = s.stores := rfl
@[simp] theorem State.modThermal_pieces (s : State) (f : Thermal → Thermal) : (s.modThermal f).pieces = s.pieces := rfl
@[simp] theorem State.modThermal_loaded (s : State) (f : Thermal → Thermal) : (s.modThermal f).loaded = s.loaded := rfl
@[simp] theorem State.modThermal_repro (s : State) (f : Thermal → Thermal) : (s.modThermal f).repro = s.repro := rfl
@[simp] theorem State.modThermal_lock (s : State) (f : Thermal → Thermal) : (s.modThermal f).lock = s.lock := rfl
@[simp] theorem State.modThermal_faults (s : State) (f : Thermal → Thermal) : (s.modThermal f).faults = s.faults := rfl
@[simp] theorem State.modThermal_logReads (s : State) (f : Thermal → Thermal) : (s.modThermal f).logReads = s.logReads := rfl
@[simp] theorem State.modThermal_nv (s : State) (f : Thermal → Thermal) : (s.modThermal f).nv = s.nv := rfl
@[simp] theorem State.modThermal_panel (s : State) (f : Thermal → Thermal) : (s.modThermal f).panel = s.panel := rfl
@[simp] theorem State.modThermal_telem (s : State) (f : Thermal → Thermal) : (s.modThermal f).telem = s.telem := rfl
@[simp] theorem State.modThermal_slots (s : State) (f : Thermal → Thermal) : (s.modThermal f).slots = s.slots := rfl
@[simp] theorem State.modThermal_remaps (s : State) (f : Thermal → Thermal) : (s.modThermal f).remaps = s.remaps := rfl
@[simp] theorem State.modThermal_jtag (s : State) (f : Thermal → Thermal) : (s.modThermal f).jtag = s.jtag := rfl

/-! ### `State.modFlash` -/

@[simp] theorem State.modFlash_nv (s : State) (f : Mem → Mem) :
    (s.modFlash f).nv = { s.nv with mem := f s.nv.mem } := rfl
@[simp] theorem State.modFlash_pending (s : State) (f : Mem → Mem) : (s.modFlash f).pending = s.pending := rfl
@[simp] theorem State.modFlash_out (s : State) (f : Mem → Mem) : (s.modFlash f).out = s.out := rfl
@[simp] theorem State.modFlash_tick (s : State) (f : Mem → Mem) : (s.modFlash f).tick = s.tick := rfl
@[simp] theorem State.modFlash_withhold (s : State) (f : Mem → Mem) : (s.modFlash f).withhold = s.withhold := rfl
@[simp] theorem State.modFlash_free (s : State) (f : Mem → Mem) : (s.modFlash f).free = s.free := rfl
@[simp] theorem State.modFlash_nextId (s : State) (f : Mem → Mem) : (s.modFlash f).nextId = s.nextId := rfl
@[simp] theorem State.modFlash_nextLaunch (s : State) (f : Mem → Mem) : (s.modFlash f).nextLaunch = s.nextLaunch := rfl
@[simp] theorem State.modFlash_order32 (s : State) (f : Mem → Mem) : (s.modFlash f).order32 = s.order32 := rfl
@[simp] theorem State.modFlash_fns (s : State) (f : Mem → Mem) : (s.modFlash f).fns = s.fns := rfl
@[simp] theorem State.modFlash_outst (s : State) (f : Mem → Mem) : (s.modFlash f).outst = s.outst := rfl
@[simp] theorem State.modFlash_strata (s : State) (f : Mem → Mem) : (s.modFlash f).strata = s.strata := rfl
@[simp] theorem State.modFlash_geo (s : State) (f : Mem → Mem) : (s.modFlash f).geo = s.geo := rfl
@[simp] theorem State.modFlash_ext (s : State) (f : Mem → Mem) : (s.modFlash f).ext = s.ext := rfl
@[simp] theorem State.modFlash_copies (s : State) (f : Mem → Mem) : (s.modFlash f).copies = s.copies := rfl
@[simp] theorem State.modFlash_deliveries (s : State) (f : Mem → Mem) : (s.modFlash f).deliveries = s.deliveries := rfl
@[simp] theorem State.modFlash_sup (s : State) (f : Mem → Mem) : (s.modFlash f).sup = s.sup := rfl
@[simp] theorem State.modFlash_plans (s : State) (f : Mem → Mem) : (s.modFlash f).plans = s.plans := rfl
@[simp] theorem State.modFlash_boot (s : State) (f : Mem → Mem) : (s.modFlash f).boot = s.boot := rfl
@[simp] theorem State.modFlash_units (s : State) (f : Mem → Mem) : (s.modFlash f).units = s.units := rfl
@[simp] theorem State.modFlash_mapping (s : State) (f : Mem → Mem) : (s.modFlash f).mapping = s.mapping := rfl
@[simp] theorem State.modFlash_lastPhys (s : State) (f : Mem → Mem) : (s.modFlash f).lastPhys = s.lastPhys := rfl
@[simp] theorem State.modFlash_toReplace (s : State) (f : Mem → Mem) : (s.modFlash f).toReplace = s.toReplace := rfl
@[simp] theorem State.modFlash_scratch (s : State) (f : Mem → Mem) : (s.modFlash f).scratch = s.scratch := rfl
@[simp] theorem State.modFlash_clusters (s : State) (f : Mem → Mem) : (s.modFlash f).clusters = s.clusters := rfl
@[simp] theorem State.modFlash_waits (s : State) (f : Mem → Mem) : (s.modFlash f).waits = s.waits := rfl
@[simp] theorem State.modFlash_barriers (s : State) (f : Mem → Mem) : (s.modFlash f).barriers = s.barriers := rfl
@[simp] theorem State.modFlash_progs (s : State) (f : Mem → Mem) : (s.modFlash f).progs = s.progs := rfl
@[simp] theorem State.modFlash_scheduled (s : State) (f : Mem → Mem) : (s.modFlash f).scheduled = s.scheduled := rfl
@[simp] theorem State.modFlash_tables (s : State) (f : Mem → Mem) : (s.modFlash f).tables = s.tables := rfl
@[simp] theorem State.modFlash_mprogs (s : State) (f : Mem → Mem) : (s.modFlash f).mprogs = s.mprogs := rfl
@[simp] theorem State.modFlash_tableLoads (s : State) (f : Mem → Mem) : (s.modFlash f).tableLoads = s.tableLoads := rfl
@[simp] theorem State.modFlash_mprogLoads (s : State) (f : Mem → Mem) : (s.modFlash f).mprogLoads = s.mprogLoads := rfl
@[simp] theorem State.modFlash_runs (s : State) (f : Mem → Mem) : (s.modFlash f).runs = s.runs := rfl
@[simp] theorem State.modFlash_ports (s : State) (f : Mem → Mem) : (s.modFlash f).ports = s.ports := rfl
@[simp] theorem State.modFlash_lanes (s : State) (f : Mem → Mem) : (s.modFlash f).lanes = s.lanes := rfl
@[simp] theorem State.modFlash_chans (s : State) (f : Mem → Mem) : (s.modFlash f).chans = s.chans := rfl
@[simp] theorem State.modFlash_frames (s : State) (f : Mem → Mem) : (s.modFlash f).frames = s.frames := rfl
@[simp] theorem State.modFlash_stores (s : State) (f : Mem → Mem) : (s.modFlash f).stores = s.stores := rfl
@[simp] theorem State.modFlash_pieces (s : State) (f : Mem → Mem) : (s.modFlash f).pieces = s.pieces := rfl
@[simp] theorem State.modFlash_loaded (s : State) (f : Mem → Mem) : (s.modFlash f).loaded = s.loaded := rfl
@[simp] theorem State.modFlash_repro (s : State) (f : Mem → Mem) : (s.modFlash f).repro = s.repro := rfl
@[simp] theorem State.modFlash_lock (s : State) (f : Mem → Mem) : (s.modFlash f).lock = s.lock := rfl
@[simp] theorem State.modFlash_faults (s : State) (f : Mem → Mem) : (s.modFlash f).faults = s.faults := rfl
@[simp] theorem State.modFlash_logReads (s : State) (f : Mem → Mem) : (s.modFlash f).logReads = s.logReads := rfl
@[simp] theorem State.modFlash_panel (s : State) (f : Mem → Mem) : (s.modFlash f).panel = s.panel := rfl
@[simp] theorem State.modFlash_thermal (s : State) (f : Mem → Mem) : (s.modFlash f).thermal = s.thermal := rfl
@[simp] theorem State.modFlash_telem (s : State) (f : Mem → Mem) : (s.modFlash f).telem = s.telem := rfl
@[simp] theorem State.modFlash_slots (s : State) (f : Mem → Mem) : (s.modFlash f).slots = s.slots := rfl
@[simp] theorem State.modFlash_remaps (s : State) (f : Mem → Mem) : (s.modFlash f).remaps = s.remaps := rfl
@[simp] theorem State.modFlash_jtag (s : State) (f : Mem → Mem) : (s.modFlash f).jtag = s.jtag := rfl

/-! ### `State.modUnit` -/

@[simp] theorem State.modUnit_pending (s : State) (u : Unit_) (f : UnitSt → UnitSt) : (s.modUnit u f).pending = s.pending := rfl
@[simp] theorem State.modUnit_out (s : State) (u : Unit_) (f : UnitSt → UnitSt) : (s.modUnit u f).out = s.out := rfl
@[simp] theorem State.modUnit_tick (s : State) (u : Unit_) (f : UnitSt → UnitSt) : (s.modUnit u f).tick = s.tick := rfl
@[simp] theorem State.modUnit_withhold (s : State) (u : Unit_) (f : UnitSt → UnitSt) : (s.modUnit u f).withhold = s.withhold := rfl
@[simp] theorem State.modUnit_free (s : State) (u : Unit_) (f : UnitSt → UnitSt) : (s.modUnit u f).free = s.free := rfl
@[simp] theorem State.modUnit_nextId (s : State) (u : Unit_) (f : UnitSt → UnitSt) : (s.modUnit u f).nextId = s.nextId := rfl
@[simp] theorem State.modUnit_nextLaunch (s : State) (u : Unit_) (f : UnitSt → UnitSt) : (s.modUnit u f).nextLaunch = s.nextLaunch := rfl
@[simp] theorem State.modUnit_order32 (s : State) (u : Unit_) (f : UnitSt → UnitSt) : (s.modUnit u f).order32 = s.order32 := rfl
@[simp] theorem State.modUnit_fns (s : State) (u : Unit_) (f : UnitSt → UnitSt) : (s.modUnit u f).fns = s.fns := rfl
@[simp] theorem State.modUnit_outst (s : State) (u : Unit_) (f : UnitSt → UnitSt) : (s.modUnit u f).outst = s.outst := rfl
@[simp] theorem State.modUnit_strata (s : State) (u : Unit_) (f : UnitSt → UnitSt) : (s.modUnit u f).strata = s.strata := rfl
@[simp] theorem State.modUnit_geo (s : State) (u : Unit_) (f : UnitSt → UnitSt) : (s.modUnit u f).geo = s.geo := rfl
@[simp] theorem State.modUnit_ext (s : State) (u : Unit_) (f : UnitSt → UnitSt) : (s.modUnit u f).ext = s.ext := rfl
@[simp] theorem State.modUnit_copies (s : State) (u : Unit_) (f : UnitSt → UnitSt) : (s.modUnit u f).copies = s.copies := rfl
@[simp] theorem State.modUnit_deliveries (s : State) (u : Unit_) (f : UnitSt → UnitSt) : (s.modUnit u f).deliveries = s.deliveries := rfl
@[simp] theorem State.modUnit_sup (s : State) (u : Unit_) (f : UnitSt → UnitSt) : (s.modUnit u f).sup = s.sup := rfl
@[simp] theorem State.modUnit_plans (s : State) (u : Unit_) (f : UnitSt → UnitSt) : (s.modUnit u f).plans = s.plans := rfl
@[simp] theorem State.modUnit_boot (s : State) (u : Unit_) (f : UnitSt → UnitSt) : (s.modUnit u f).boot = s.boot := rfl
@[simp] theorem State.modUnit_mapping (s : State) (u : Unit_) (f : UnitSt → UnitSt) : (s.modUnit u f).mapping = s.mapping := rfl
@[simp] theorem State.modUnit_lastPhys (s : State) (u : Unit_) (f : UnitSt → UnitSt) : (s.modUnit u f).lastPhys = s.lastPhys := rfl
@[simp] theorem State.modUnit_toReplace (s : State) (u : Unit_) (f : UnitSt → UnitSt) : (s.modUnit u f).toReplace = s.toReplace := rfl
@[simp] theorem State.modUnit_scratch (s : State) (u : Unit_) (f : UnitSt → UnitSt) : (s.modUnit u f).scratch = s.scratch := rfl
@[simp] theorem State.modUnit_clusters (s : State) (u : Unit_) (f : UnitSt → UnitSt) : (s.modUnit u f).clusters = s.clusters := rfl
@[simp] theorem State.modUnit_waits (s : State) (u : Unit_) (f : UnitSt → UnitSt) : (s.modUnit u f).waits = s.waits := rfl
@[simp] theorem State.modUnit_barriers (s : State) (u : Unit_) (f : UnitSt → UnitSt) : (s.modUnit u f).barriers = s.barriers := rfl
@[simp] theorem State.modUnit_progs (s : State) (u : Unit_) (f : UnitSt → UnitSt) : (s.modUnit u f).progs = s.progs := rfl
@[simp] theorem State.modUnit_scheduled (s : State) (u : Unit_) (f : UnitSt → UnitSt) : (s.modUnit u f).scheduled = s.scheduled := rfl
@[simp] theorem State.modUnit_tables (s : State) (u : Unit_) (f : UnitSt → UnitSt) : (s.modUnit u f).tables = s.tables := rfl
@[simp] theorem State.modUnit_mprogs (s : State) (u : Unit_) (f : UnitSt → UnitSt) : (s.modUnit u f).mprogs = s.mprogs := rfl
@[simp] theorem State.modUnit_tableLoads (s : State) (u : Unit_) (f : UnitSt → UnitSt) : (s.modUnit u f).tableLoads = s.tableLoads := rfl
@[simp] theorem State.modUnit_mprogLoads (s : State) (u : Unit_) (f : UnitSt → UnitSt) : (s.modUnit u f).mprogLoads = s.mprogLoads := rfl
@[simp] theorem State.modUnit_runs (s : State) (u : Unit_) (f : UnitSt → UnitSt) : (s.modUnit u f).runs = s.runs := rfl
@[simp] theorem State.modUnit_ports (s : State) (u : Unit_) (f : UnitSt → UnitSt) : (s.modUnit u f).ports = s.ports := rfl
@[simp] theorem State.modUnit_lanes (s : State) (u : Unit_) (f : UnitSt → UnitSt) : (s.modUnit u f).lanes = s.lanes := rfl
@[simp] theorem State.modUnit_chans (s : State) (u : Unit_) (f : UnitSt → UnitSt) : (s.modUnit u f).chans = s.chans := rfl
@[simp] theorem State.modUnit_frames (s : State) (u : Unit_) (f : UnitSt → UnitSt) : (s.modUnit u f).frames = s.frames := rfl
@[simp] theorem State.modUnit_stores (s : State) (u : Unit_) (f : UnitSt → UnitSt) : (s.modUnit u f).stores = s.stores := rfl
@[simp] theorem State.modUnit_pieces (s : State) (u : Unit_) (f : UnitSt → UnitSt) : (s.modUnit u f).pieces = s.pieces := rfl
@[simp] theorem State.modUnit_loaded (s : State) (u : Unit_) (f : UnitSt → UnitSt) : (s.modUnit u f).loaded = s.loaded := rfl
@[simp] theorem State.modUnit_repro (s : State) (u : Unit_) (f : UnitSt → UnitSt) : (s.modUnit u f).repro = s.repro := rfl
@[simp] theorem State.modUnit_lock (s : State) (u : Unit_) (f : UnitSt → UnitSt) : (s.modUnit u f).lock = s.lock := rfl
@[simp] theorem State.modUnit_faults (s : State) (u : Unit_) (f : UnitSt → UnitSt) : (s.modUnit u f).faults = s.faults := rfl
@[simp] theorem State.modUnit_logReads (s : State) (u : Unit_) (f : UnitSt → UnitSt) : (s.modUnit u f).logReads = s.logReads := rfl
@[simp] theorem State.modUnit_nv (s : State) (u : Unit_) (f : UnitSt → UnitSt) : (s.modUnit u f).nv = s.nv := rfl
@[simp] theorem State.modUnit_panel (s : State) (u : Unit_) (f : UnitSt → UnitSt) : (s.modUnit u f).panel = s.panel := rfl
@[simp] theorem State.modUnit_thermal (s : State) (u : Unit_) (f : UnitSt → UnitSt) : (s.modUnit u f).thermal = s.thermal := rfl
@[simp] theorem State.modUnit_telem (s : State) (u : Unit_) (f : UnitSt → UnitSt) : (s.modUnit u f).telem = s.telem := rfl
@[simp] theorem State.modUnit_slots (s : State) (u : Unit_) (f : UnitSt → UnitSt) : (s.modUnit u f).slots = s.slots := rfl
@[simp] theorem State.modUnit_remaps (s : State) (u : Unit_) (f : UnitSt → UnitSt) : (s.modUnit u f).remaps = s.remaps := rfl
@[simp] theorem State.modUnit_jtag (s : State) (u : Unit_) (f : UnitSt → UnitSt) : (s.modUnit u f).jtag = s.jtag := rfl

/-! ### Outputs, free values and time -/

@[simp] theorem State.emit_pending (s : State) (e : Emit) : (s.emit e).pending = s.pending := by
  unfold State.emit; split <;> rfl
@[simp] theorem State.emit_tick (s : State) (e : Emit) : (s.emit e).tick = s.tick := by
  unfold State.emit; split <;> rfl
@[simp] theorem State.emit_withhold (s : State) (e : Emit) : (s.emit e).withhold = s.withhold := by
  unfold State.emit; split <;> rfl
@[simp] theorem State.emit_free (s : State) (e : Emit) : (s.emit e).free = s.free := by
  unfold State.emit; split <;> rfl
@[simp] theorem State.emit_nextId (s : State) (e : Emit) : (s.emit e).nextId = s.nextId := by
  unfold State.emit; split <;> rfl
@[simp] theorem State.emit_nextLaunch (s : State) (e : Emit) : (s.emit e).nextLaunch = s.nextLaunch := by
  unfold State.emit; split <;> rfl
@[simp] theorem State.emit_order32 (s : State) (e : Emit) : (s.emit e).order32 = s.order32 := by
  unfold State.emit; split <;> rfl
@[simp] theorem State.emit_fns (s : State) (e : Emit) : (s.emit e).fns = s.fns := by
  unfold State.emit; split <;> rfl
@[simp] theorem State.emit_outst (s : State) (e : Emit) : (s.emit e).outst = s.outst := by
  unfold State.emit; split <;> rfl
@[simp] theorem State.emit_strata (s : State) (e : Emit) : (s.emit e).strata = s.strata := by
  unfold State.emit; split <;> rfl
@[simp] theorem State.emit_geo (s : State) (e : Emit) : (s.emit e).geo = s.geo := by
  unfold State.emit; split <;> rfl
@[simp] theorem State.emit_ext (s : State) (e : Emit) : (s.emit e).ext = s.ext := by
  unfold State.emit; split <;> rfl
@[simp] theorem State.emit_copies (s : State) (e : Emit) : (s.emit e).copies = s.copies := by
  unfold State.emit; split <;> rfl
@[simp] theorem State.emit_deliveries (s : State) (e : Emit) : (s.emit e).deliveries = s.deliveries := by
  unfold State.emit; split <;> rfl
@[simp] theorem State.emit_sup (s : State) (e : Emit) : (s.emit e).sup = s.sup := by
  unfold State.emit; split <;> rfl
@[simp] theorem State.emit_plans (s : State) (e : Emit) : (s.emit e).plans = s.plans := by
  unfold State.emit; split <;> rfl
@[simp] theorem State.emit_boot (s : State) (e : Emit) : (s.emit e).boot = s.boot := by
  unfold State.emit; split <;> rfl
@[simp] theorem State.emit_units (s : State) (e : Emit) : (s.emit e).units = s.units := by
  unfold State.emit; split <;> rfl
@[simp] theorem State.emit_mapping (s : State) (e : Emit) : (s.emit e).mapping = s.mapping := by
  unfold State.emit; split <;> rfl
@[simp] theorem State.emit_lastPhys (s : State) (e : Emit) : (s.emit e).lastPhys = s.lastPhys := by
  unfold State.emit; split <;> rfl
@[simp] theorem State.emit_toReplace (s : State) (e : Emit) : (s.emit e).toReplace = s.toReplace := by
  unfold State.emit; split <;> rfl
@[simp] theorem State.emit_scratch (s : State) (e : Emit) : (s.emit e).scratch = s.scratch := by
  unfold State.emit; split <;> rfl
@[simp] theorem State.emit_clusters (s : State) (e : Emit) : (s.emit e).clusters = s.clusters := by
  unfold State.emit; split <;> rfl
@[simp] theorem State.emit_waits (s : State) (e : Emit) : (s.emit e).waits = s.waits := by
  unfold State.emit; split <;> rfl
@[simp] theorem State.emit_barriers (s : State) (e : Emit) : (s.emit e).barriers = s.barriers := by
  unfold State.emit; split <;> rfl
@[simp] theorem State.emit_progs (s : State) (e : Emit) : (s.emit e).progs = s.progs := by
  unfold State.emit; split <;> rfl
@[simp] theorem State.emit_scheduled (s : State) (e : Emit) : (s.emit e).scheduled = s.scheduled := by
  unfold State.emit; split <;> rfl
@[simp] theorem State.emit_tables (s : State) (e : Emit) : (s.emit e).tables = s.tables := by
  unfold State.emit; split <;> rfl
@[simp] theorem State.emit_mprogs (s : State) (e : Emit) : (s.emit e).mprogs = s.mprogs := by
  unfold State.emit; split <;> rfl
@[simp] theorem State.emit_tableLoads (s : State) (e : Emit) : (s.emit e).tableLoads = s.tableLoads := by
  unfold State.emit; split <;> rfl
@[simp] theorem State.emit_mprogLoads (s : State) (e : Emit) : (s.emit e).mprogLoads = s.mprogLoads := by
  unfold State.emit; split <;> rfl
@[simp] theorem State.emit_runs (s : State) (e : Emit) : (s.emit e).runs = s.runs := by
  unfold State.emit; split <;> rfl
@[simp] theorem State.emit_ports (s : State) (e : Emit) : (s.emit e).ports = s.ports := by
  unfold State.emit; split <;> rfl
@[simp] theorem State.emit_lanes (s : State) (e : Emit) : (s.emit e).lanes = s.lanes := by
  unfold State.emit; split <;> rfl
@[simp] theorem State.emit_chans (s : State) (e : Emit) : (s.emit e).chans = s.chans := by
  unfold State.emit; split <;> rfl
@[simp] theorem State.emit_frames (s : State) (e : Emit) : (s.emit e).frames = s.frames := by
  unfold State.emit; split <;> rfl
@[simp] theorem State.emit_stores (s : State) (e : Emit) : (s.emit e).stores = s.stores := by
  unfold State.emit; split <;> rfl
@[simp] theorem State.emit_pieces (s : State) (e : Emit) : (s.emit e).pieces = s.pieces := by
  unfold State.emit; split <;> rfl
@[simp] theorem State.emit_loaded (s : State) (e : Emit) : (s.emit e).loaded = s.loaded := by
  unfold State.emit; split <;> rfl
@[simp] theorem State.emit_repro (s : State) (e : Emit) : (s.emit e).repro = s.repro := by
  unfold State.emit; split <;> rfl
@[simp] theorem State.emit_lock (s : State) (e : Emit) : (s.emit e).lock = s.lock := by
  unfold State.emit; split <;> rfl
@[simp] theorem State.emit_faults (s : State) (e : Emit) : (s.emit e).faults = s.faults := by
  unfold State.emit; split <;> rfl
@[simp] theorem State.emit_logReads (s : State) (e : Emit) : (s.emit e).logReads = s.logReads := by
  unfold State.emit; split <;> rfl
@[simp] theorem State.emit_nv (s : State) (e : Emit) : (s.emit e).nv = s.nv := by
  unfold State.emit; split <;> rfl
@[simp] theorem State.emit_panel (s : State) (e : Emit) : (s.emit e).panel = s.panel := by
  unfold State.emit; split <;> rfl
@[simp] theorem State.emit_thermal (s : State) (e : Emit) : (s.emit e).thermal = s.thermal := by
  unfold State.emit; split <;> rfl
@[simp] theorem State.emit_telem (s : State) (e : Emit) : (s.emit e).telem = s.telem := by
  unfold State.emit; split <;> rfl
@[simp] theorem State.emit_slots (s : State) (e : Emit) : (s.emit e).slots = s.slots := by
  unfold State.emit; split <;> rfl
@[simp] theorem State.emit_remaps (s : State) (e : Emit) : (s.emit e).remaps = s.remaps := by
  unfold State.emit; split <;> rfl
@[simp] theorem State.emit_jtag (s : State) (e : Emit) : (s.emit e).jtag = s.jtag := by
  unfold State.emit; split <;> rfl
@[simp] theorem State.draw_pending (s : State) : s.draw.2.pending = s.pending := rfl
@[simp] theorem State.draw_out (s : State) : s.draw.2.out = s.out := rfl
@[simp] theorem State.draw_tick (s : State) : s.draw.2.tick = s.tick := rfl
@[simp] theorem State.draw_withhold (s : State) : s.draw.2.withhold = s.withhold := rfl
@[simp] theorem State.draw_nextId (s : State) : s.draw.2.nextId = s.nextId := rfl
@[simp] theorem State.draw_nextLaunch (s : State) : s.draw.2.nextLaunch = s.nextLaunch := rfl
@[simp] theorem State.draw_order32 (s : State) : s.draw.2.order32 = s.order32 := rfl
@[simp] theorem State.draw_fns (s : State) : s.draw.2.fns = s.fns := rfl
@[simp] theorem State.draw_outst (s : State) : s.draw.2.outst = s.outst := rfl
@[simp] theorem State.draw_strata (s : State) : s.draw.2.strata = s.strata := rfl
@[simp] theorem State.draw_geo (s : State) : s.draw.2.geo = s.geo := rfl
@[simp] theorem State.draw_ext (s : State) : s.draw.2.ext = s.ext := rfl
@[simp] theorem State.draw_copies (s : State) : s.draw.2.copies = s.copies := rfl
@[simp] theorem State.draw_deliveries (s : State) : s.draw.2.deliveries = s.deliveries := rfl
@[simp] theorem State.draw_sup (s : State) : s.draw.2.sup = s.sup := rfl
@[simp] theorem State.draw_plans (s : State) : s.draw.2.plans = s.plans := rfl
@[simp] theorem State.draw_boot (s : State) : s.draw.2.boot = s.boot := rfl
@[simp] theorem State.draw_units (s : State) : s.draw.2.units = s.units := rfl
@[simp] theorem State.draw_mapping (s : State) : s.draw.2.mapping = s.mapping := rfl
@[simp] theorem State.draw_lastPhys (s : State) : s.draw.2.lastPhys = s.lastPhys := rfl
@[simp] theorem State.draw_toReplace (s : State) : s.draw.2.toReplace = s.toReplace := rfl
@[simp] theorem State.draw_scratch (s : State) : s.draw.2.scratch = s.scratch := rfl
@[simp] theorem State.draw_clusters (s : State) : s.draw.2.clusters = s.clusters := rfl
@[simp] theorem State.draw_waits (s : State) : s.draw.2.waits = s.waits := rfl
@[simp] theorem State.draw_barriers (s : State) : s.draw.2.barriers = s.barriers := rfl
@[simp] theorem State.draw_progs (s : State) : s.draw.2.progs = s.progs := rfl
@[simp] theorem State.draw_scheduled (s : State) : s.draw.2.scheduled = s.scheduled := rfl
@[simp] theorem State.draw_tables (s : State) : s.draw.2.tables = s.tables := rfl
@[simp] theorem State.draw_mprogs (s : State) : s.draw.2.mprogs = s.mprogs := rfl
@[simp] theorem State.draw_tableLoads (s : State) : s.draw.2.tableLoads = s.tableLoads := rfl
@[simp] theorem State.draw_mprogLoads (s : State) : s.draw.2.mprogLoads = s.mprogLoads := rfl
@[simp] theorem State.draw_runs (s : State) : s.draw.2.runs = s.runs := rfl
@[simp] theorem State.draw_ports (s : State) : s.draw.2.ports = s.ports := rfl
@[simp] theorem State.draw_lanes (s : State) : s.draw.2.lanes = s.lanes := rfl
@[simp] theorem State.draw_chans (s : State) : s.draw.2.chans = s.chans := rfl
@[simp] theorem State.draw_frames (s : State) : s.draw.2.frames = s.frames := rfl
@[simp] theorem State.draw_stores (s : State) : s.draw.2.stores = s.stores := rfl
@[simp] theorem State.draw_pieces (s : State) : s.draw.2.pieces = s.pieces := rfl
@[simp] theorem State.draw_loaded (s : State) : s.draw.2.loaded = s.loaded := rfl
@[simp] theorem State.draw_repro (s : State) : s.draw.2.repro = s.repro := rfl
@[simp] theorem State.draw_lock (s : State) : s.draw.2.lock = s.lock := rfl
@[simp] theorem State.draw_faults (s : State) : s.draw.2.faults = s.faults := rfl
@[simp] theorem State.draw_logReads (s : State) : s.draw.2.logReads = s.logReads := rfl
@[simp] theorem State.draw_nv (s : State) : s.draw.2.nv = s.nv := rfl
@[simp] theorem State.draw_panel (s : State) : s.draw.2.panel = s.panel := rfl
@[simp] theorem State.draw_thermal (s : State) : s.draw.2.thermal = s.thermal := rfl
@[simp] theorem State.draw_telem (s : State) : s.draw.2.telem = s.telem := rfl
@[simp] theorem State.draw_slots (s : State) : s.draw.2.slots = s.slots := rfl
@[simp] theorem State.draw_remaps (s : State) : s.draw.2.remaps = s.remaps := rfl
@[simp] theorem State.draw_jtag (s : State) : s.draw.2.jtag = s.jtag := rfl
@[simp] theorem State.draw_free (s : State) : s.draw.2.free = s.free + 1 := rfl
@[simp] theorem State.reach_pending (s : State) (t : Tick) : (s.reach t).pending = s.pending := by
  unfold State.reach; split <;> rfl
@[simp] theorem State.reach_out (s : State) (t : Tick) : (s.reach t).out = s.out := by
  unfold State.reach; split <;> rfl
@[simp] theorem State.reach_withhold (s : State) (t : Tick) : (s.reach t).withhold = s.withhold := by
  unfold State.reach; split <;> rfl
@[simp] theorem State.reach_free (s : State) (t : Tick) : (s.reach t).free = s.free := by
  unfold State.reach; split <;> rfl
@[simp] theorem State.reach_nextId (s : State) (t : Tick) : (s.reach t).nextId = s.nextId := by
  unfold State.reach; split <;> rfl
@[simp] theorem State.reach_nextLaunch (s : State) (t : Tick) : (s.reach t).nextLaunch = s.nextLaunch := by
  unfold State.reach; split <;> rfl
@[simp] theorem State.reach_order32 (s : State) (t : Tick) : (s.reach t).order32 = s.order32 := by
  unfold State.reach; split <;> rfl
@[simp] theorem State.reach_fns (s : State) (t : Tick) : (s.reach t).fns = s.fns := by
  unfold State.reach; split <;> rfl
@[simp] theorem State.reach_outst (s : State) (t : Tick) : (s.reach t).outst = s.outst := by
  unfold State.reach; split <;> rfl
@[simp] theorem State.reach_strata (s : State) (t : Tick) : (s.reach t).strata = s.strata := by
  unfold State.reach; split <;> rfl
@[simp] theorem State.reach_geo (s : State) (t : Tick) : (s.reach t).geo = s.geo := by
  unfold State.reach; split <;> rfl
@[simp] theorem State.reach_ext (s : State) (t : Tick) : (s.reach t).ext = s.ext := by
  unfold State.reach; split <;> rfl
@[simp] theorem State.reach_copies (s : State) (t : Tick) : (s.reach t).copies = s.copies := by
  unfold State.reach; split <;> rfl
@[simp] theorem State.reach_deliveries (s : State) (t : Tick) : (s.reach t).deliveries = s.deliveries := by
  unfold State.reach; split <;> rfl
@[simp] theorem State.reach_sup (s : State) (t : Tick) : (s.reach t).sup = s.sup := by
  unfold State.reach; split <;> rfl
@[simp] theorem State.reach_plans (s : State) (t : Tick) : (s.reach t).plans = s.plans := by
  unfold State.reach; split <;> rfl
@[simp] theorem State.reach_boot (s : State) (t : Tick) : (s.reach t).boot = s.boot := by
  unfold State.reach; split <;> rfl
@[simp] theorem State.reach_units (s : State) (t : Tick) : (s.reach t).units = s.units := by
  unfold State.reach; split <;> rfl
@[simp] theorem State.reach_mapping (s : State) (t : Tick) : (s.reach t).mapping = s.mapping := by
  unfold State.reach; split <;> rfl
@[simp] theorem State.reach_lastPhys (s : State) (t : Tick) : (s.reach t).lastPhys = s.lastPhys := by
  unfold State.reach; split <;> rfl
@[simp] theorem State.reach_toReplace (s : State) (t : Tick) : (s.reach t).toReplace = s.toReplace := by
  unfold State.reach; split <;> rfl
@[simp] theorem State.reach_scratch (s : State) (t : Tick) : (s.reach t).scratch = s.scratch := by
  unfold State.reach; split <;> rfl
@[simp] theorem State.reach_clusters (s : State) (t : Tick) : (s.reach t).clusters = s.clusters := by
  unfold State.reach; split <;> rfl
@[simp] theorem State.reach_waits (s : State) (t : Tick) : (s.reach t).waits = s.waits := by
  unfold State.reach; split <;> rfl
@[simp] theorem State.reach_barriers (s : State) (t : Tick) : (s.reach t).barriers = s.barriers := by
  unfold State.reach; split <;> rfl
@[simp] theorem State.reach_progs (s : State) (t : Tick) : (s.reach t).progs = s.progs := by
  unfold State.reach; split <;> rfl
@[simp] theorem State.reach_scheduled (s : State) (t : Tick) : (s.reach t).scheduled = s.scheduled := by
  unfold State.reach; split <;> rfl
@[simp] theorem State.reach_tables (s : State) (t : Tick) : (s.reach t).tables = s.tables := by
  unfold State.reach; split <;> rfl
@[simp] theorem State.reach_mprogs (s : State) (t : Tick) : (s.reach t).mprogs = s.mprogs := by
  unfold State.reach; split <;> rfl
@[simp] theorem State.reach_tableLoads (s : State) (t : Tick) : (s.reach t).tableLoads = s.tableLoads := by
  unfold State.reach; split <;> rfl
@[simp] theorem State.reach_mprogLoads (s : State) (t : Tick) : (s.reach t).mprogLoads = s.mprogLoads := by
  unfold State.reach; split <;> rfl
@[simp] theorem State.reach_runs (s : State) (t : Tick) : (s.reach t).runs = s.runs := by
  unfold State.reach; split <;> rfl
@[simp] theorem State.reach_ports (s : State) (t : Tick) : (s.reach t).ports = s.ports := by
  unfold State.reach; split <;> rfl
@[simp] theorem State.reach_lanes (s : State) (t : Tick) : (s.reach t).lanes = s.lanes := by
  unfold State.reach; split <;> rfl
@[simp] theorem State.reach_chans (s : State) (t : Tick) : (s.reach t).chans = s.chans := by
  unfold State.reach; split <;> rfl
@[simp] theorem State.reach_frames (s : State) (t : Tick) : (s.reach t).frames = s.frames := by
  unfold State.reach; split <;> rfl
@[simp] theorem State.reach_stores (s : State) (t : Tick) : (s.reach t).stores = s.stores := by
  unfold State.reach; split <;> rfl
@[simp] theorem State.reach_pieces (s : State) (t : Tick) : (s.reach t).pieces = s.pieces := by
  unfold State.reach; split <;> rfl
@[simp] theorem State.reach_loaded (s : State) (t : Tick) : (s.reach t).loaded = s.loaded := by
  unfold State.reach; split <;> rfl
@[simp] theorem State.reach_repro (s : State) (t : Tick) : (s.reach t).repro = s.repro := by
  unfold State.reach; split <;> rfl
@[simp] theorem State.reach_lock (s : State) (t : Tick) : (s.reach t).lock = s.lock := by
  unfold State.reach; split <;> rfl
@[simp] theorem State.reach_faults (s : State) (t : Tick) : (s.reach t).faults = s.faults := by
  unfold State.reach; split <;> rfl
@[simp] theorem State.reach_logReads (s : State) (t : Tick) : (s.reach t).logReads = s.logReads := by
  unfold State.reach; split <;> rfl
@[simp] theorem State.reach_nv (s : State) (t : Tick) : (s.reach t).nv = s.nv := by
  unfold State.reach; split <;> rfl
@[simp] theorem State.reach_panel (s : State) (t : Tick) : (s.reach t).panel = s.panel := by
  unfold State.reach; split <;> rfl
@[simp] theorem State.reach_thermal (s : State) (t : Tick) : (s.reach t).thermal = s.thermal := by
  unfold State.reach; split <;> rfl
@[simp] theorem State.reach_telem (s : State) (t : Tick) : (s.reach t).telem = s.telem := by
  unfold State.reach; split <;> rfl
@[simp] theorem State.reach_slots (s : State) (t : Tick) : (s.reach t).slots = s.slots := by
  unfold State.reach; split <;> rfl
@[simp] theorem State.reach_remaps (s : State) (t : Tick) : (s.reach t).remaps = s.remaps := by
  unfold State.reach; split <;> rfl
@[simp] theorem State.reach_jtag (s : State) (t : Tick) : (s.reach t).jtag = s.jtag := by
  unfold State.reach; split <;> rfl

end Sys2Proof.Machine
end

