-- ==== Sys2Proof/WellFormed.lean ====
section
/-!
DEFINITION. Well-formed commands: what the operands of a row must satisfy for the row to be one which the
spec describes. The operand types already bound every unit number; the checks left are of lengths. A
meaning is given to every command, well formed or not.
-/

namespace Sys2Proof

/-- R196, R251: an access the PCI Express link can carry has 1 to 4096 bytes. -/
def accessSize (n : Nat) : Bool := decide (1 ≤ n ∧ n ≤ 4096)

/-- The checks on a command's operands. -/
def WellFormed : Instr → Bool
  | .accessErr _ _ _ size => accessSize size
  | .bar2Read _ _ size _ => accessSize size
  | .bar2Write _ _ bytes => accessSize bytes.length
  | _ => true

end Sys2Proof
end

