-- ==== Sys2Proof/Tests/Slice0.lean ====
section
/-!
SUPPORT. Tests: well-formedness, the check values of the spec, and for each clause of each obligation a concrete state and
operands which meet its hypotheses. The helper definitions build small states from `State.reset`.
-/

namespace Sys2Proof.Tests

-- The tests are elaborated one after another, so that the number of threads stays small.
set_option Elab.async false

open Sys2Proof Sys2Proof.Machine

/-- A packet of an opcode: its parameters as (offset, value) pairs. -/
def tPacket (c : CmdSpec) (fn : FnNo) (fs : List (Nat × Nat)) : Packet :=
  { flags := 0, tag := 7, stratum := BitVec.ofNat 8 fn.val, byte5 := 0, paramLen := c.len
    body := fs.foldl (fun b f => b ||| (BitVec.ofNat 448 f.2 <<< (8 * (f.1 - 8)))) 0 }

/-- A function whose queue pair 0 and event queue run, with one command waiting. -/
def tFunc (n : FnNo) : Func :=
  { Func.reset n with
    busMaster := true, memSpace := true
    qps := Vector.replicate 4 { QPair.reset with sqLog2 := 4, cqLog2 := 4, enable := true, running := true,
                                                 tail := 1 }
    evq := { Evq.reset with log2 := 4, enable := true, running := true } }

/-- A module in READY with the link up, the factory mapping, and VF 1 with its stratum. -/
def tReady : State :=
  { State.reset with
    sup := { Supply.standby with power := .active, mainQual := true, vinMain := 1200, vinAux := 1200, charge := 100 }
    boot := { Boot.start with phase := 8, linkL0 := true, vfEnable := true, numVfs := 1, perst := false }
    fns := Vector.ofFn tFunc
    mapping := Vector.ofFn fun l => some (Fin.ofNat 72 (9 * (l.val / 8) + l.val % 8))
    strata := State.reset.strata.set 1 { Stratum.zero with clusters := 0xFF, chanQuota := 16, arenaQuota := 1024,
                                                           extQuota := 4096, ceiling := 64 } }

/-- The conditions of `Ready`, as a test. -/
def readyTest (s : State) (fn : FnNo) (qp : QpNo) (op : BitVec 8) (long : Bool) (p : Packet) : Bool :=
  let q := s.fns[fn].qps[qp]
  s.queueOpen fn qp && s.inTurn fn qp && !s.mustWait long fn qp op p && q.chainFailed == none &&
    (q.held == some ⟨op, p⟩ || (q.held == none && s.fns[fn].busMaster && !q.stopping && q.readPos != q.tail))

theorem ready_sound {s : State} {fn : FnNo} {qp : QpNo} {op : BitVec 8} {long : Bool} {p : Packet}
    (h : readyTest s fn qp op long p = true) : Ready s fn qp op long p := by
  simp only [readyTest, Bool.and_eq_true, Bool.or_eq_true, beq_iff_eq, Bool.not_eq_true', bne_iff_ne] at h
  obtain ⟨⟨⟨⟨a, b⟩, c⟩, d⟩, e⟩ := h
  exact ⟨a, b, e.imp id fun e => ⟨e.1.1.1, e.1.1.2, e.1.2, e.2⟩, c, d⟩

/-- The conditions of `Accepts`, as a test. -/
def accepts (c : CmdSpec) (long : Bool) (fn : FnNo) (qp : QpNo) (p : Packet) (chk res : State → Option Rej)
    (s : State) : Bool :=
  readyTest s fn qp c.op long p && (validate c fn p (chk (s.taken fn qp)) (res (s.taken fn qp)) (s.taken fn qp)).isNone

theorem accepts_sound {c : CmdSpec} {long : Bool} {fn : FnNo} {qp : QpNo} {p : Packet} {chk res : State → Option Rej}
    {s : State} (h : accepts c long fn qp p chk res s = true) : Accepts c long fn qp p chk res s := by
  simp only [accepts, Bool.and_eq_true, Option.isNone_iff_eq_none] at h
  exact ⟨ready_sound h.1, h.2⟩

theorem accepts_of_chk {c : CmdSpec} {long : Bool} {fn : FnNo} {qp : QpNo} {p : Packet} {chk res : State → Option Rej}
    {s : State} (hc : chk (s.taken fn qp) = none) (h : accepts c long fn qp p (fun _ => none) res s = true) :
    Accepts c long fn qp p chk res s := by
  have a := accepts_sound h
  exact ⟨a.1, by rw [hc]; exact a.2⟩

/-- The conditions of `AtHead`, as a test. -/
def headTest (s : State) (opc : Nat) (l : LogNo) (r : Run) (i : Nat) (p : Position) (k : Nat) : Bool :=
  s.runAt l == some (r, i) && r.pos i == some p && p.head (Fin.ofNat 3 (queueOf opc)) == some k &&
    opcOf (p.uop k) == opc && p.mayIssue k

theorem head_sound {s : State} {opc : Nat} {l : LogNo} {r : Run} {i : Nat} {p : Position} {k : Nat}
    (h : headTest s opc l r i p k = true) : AtHead s opc l r i p k := by
  simp only [headTest, Bool.and_eq_true, beq_iff_eq] at h
  obtain ⟨⟨⟨⟨a, b⟩, c⟩, d⟩, e⟩ := h
  exact ⟨a, b, c, d, e⟩

/-- One bit of CRC-32C over natural numbers, which the kernel evaluates fast. -/
def crcBitNat (c : Nat) : Nat := if c % 2 = 1 then (c / 2) ^^^ 0x82F63B78 else c / 2

/-- One byte of CRC-32C over natural numbers. -/
def crcByteNat (c : Nat) (b : Byte) : Nat :=
  crcBitNat (crcBitNat (crcBitNat (crcBitNat (crcBitNat (crcBitNat (crcBitNat (crcBitNat (c ^^^ b.toNat))))))))

/-- Application with the argument reduced to a numeral first. -/
def forceNat (f : Nat → Nat) : Nat → Nat
  | 0 => f 0
  | n + 1 => f (n + 1)

theorem forceNat_eq (f : Nat → Nat) (n : Nat) : forceNat f n = f n := by cases n <;> rfl

/-- CRC-32C over natural numbers, with the register reduced at each byte. -/
def crcNat : List Byte → Nat → Nat
  | [], c => c
  | b :: bs, c => forceNat (crcNat bs) (crcByteNat c b)

theorem crcBitNat_eq (c : W32) : crcBitNat c.toNat = (crc32cBit c).toNat := by
  have h : c.getLsbD 0 = decide (c.toNat % 2 = 1) := by
    simp [BitVec.getLsbD, Nat.testBit, Nat.shiftRight_zero]
    rcases Nat.mod_two_eq_zero_or_one c.toNat with h | h <;> simp [h]
  simp only [crcBitNat, crc32cBit, h, decide_eq_true_eq]
  split <;> simp [BitVec.toNat_xor, BitVec.toNat_ushiftRight, Nat.shiftRight_eq_div_pow]

theorem crcByteNat_eq (c : W32) (b : Byte) : crcByteNat c.toNat b = (crc32cByte c b).toNat := by
  have g : c.toNat ^^^ b.toNat = (c ^^^ b.setWidth 32).toNat := by
    simp only [BitVec.toNat_xor, BitVec.toNat_setWidth]
    rw [Nat.mod_eq_of_lt (Nat.lt_of_lt_of_le b.isLt (by decide))]
  have bit : ∀ (n : Nat) (x : W32), n = x.toNat → crcBitNat n = (crc32cBit x).toNat := fun n x h => h ▸ crcBitNat_eq x
  rw [crc32cByte, show List.range 8 = [0, 1, 2, 3, 4, 5, 6, 7] from rfl]
  exact bit _ _ (bit _ _ (bit _ _ (bit _ _ (bit _ _ (bit _ _ (bit _ _ (bit _ _ g)))))))

theorem crcNat_cons (b : Byte) (bs : List Byte) (c : Nat) : crcNat (b :: bs) c = crcNat bs (crcByteNat c b) := by
  simp only [crcNat, forceNat_eq]

theorem crcNat_eq (bs : List Byte) (c : W32) : crcNat bs c.toNat = (bs.foldl crc32cByte c).toNat := by
  induction bs generalizing c with
  | nil => rfl
  | cons b bs ih => rw [crcNat_cons, crcByteNat_eq, ih, List.foldl]

theorem imageCrc_eq (b : List Byte) (o : Nat) : imageCrcOk b o =
    (fieldNat b o 4 == 0xFFFFFFFF - crcNat (b.take o ++ List.replicate 4 0 ++ b.drop (o + 4)) 0xFFFFFFFF) := by
  have e := crcNat_eq (b.take o ++ List.replicate 4 0 ++ b.drop (o + 4)) 0xFFFFFFFF
  have k : (0xFFFFFFFF : W32).toNat = 0xFFFFFFFF := rfl
  rw [k] at e
  rw [imageCrcOk, crc32c, BitVec.toNat_not, e]

/-- Past the head, an image of zeros has zero fields. -/
theorem zeroField {h : List Byte} {n o k : Nat} (ho : h.length ≤ o) : fieldNat (h ++ List.replicate n 0) o k = 0 := by
  have z : ∀ i, ((h ++ List.replicate n 0)[o + i]?).getD (0 : Byte) = 0 := by
    intro i
    rw [List.getElem?_append_right (by omega), List.getElem?_replicate]
    split <;> rfl
  simp only [fieldNat, z]
  generalize List.range k = l
  induction l with
  | nil => rfl
  | cons a l ih => simp only [List.map, leNat, ih]; rfl

/-- A partner's record: width 4, latency 2, 1024 channels, 16 sub-converters, samples of 8 to 16 bits,
  G of 4096 and CAPS bits 0 and 1. -/
def tFar : List Byte :=
  List.replicate 20 0 ++ [4] ++ leBytes 1 2 ++ leBytes 2 1024 ++ leBytes 1 16 ++ [0] ++ leBytes 2 0x1FF ++ [12,
    3] ++ List.replicate 66 0

/-- A port in ACTIVE with four lanes. -/
def tPort (role : BitVec 8) : Port :=
  { Port.idle 0 with st := .active, reason := 0, role, maxWidth := 4, far := tFar, lanes := 0xF, inUse := 0xF }

/-- A bound channel. -/
def tChan (n port stratum ch kind : Nat) : Chan :=
  { State.reset.newChan (tPacket specChanBind 0 [(8, n), (10, port), (11, stratum), (12, ch), (14, kind), (16, 2),
    (18, 8),
    (20, 1000)]) with rx := { limit := 8, consumed := 0 } }

/-- A module with a pool, acquisition channel 3 of stratum 0 on port 0, tensor channel 5 of stratum 1 on port 6, and a
lock-step port. -/
def tLink : State :=
  { tReady with
    ports := ((tReady.ports.set 0 (tPort 0)).set 6 (tPort 1)).set 7 { tPort 2 with lockRx := { limit := 16, consumed := 0 } }
    chans := [tChan 3 0 0 2 0, tChan 5 6 1 4 1]
    geo := { Geode.fresh with
      poolGranules := (List.range 16).map some
      bufs := [{ num := 0, state := .allotted, chan := 3, frame := 0, copy := false },
        { num := 1, state := .allotted, chan := 3, frame := 0, copy := false },
        { num := 2, state := .allotted, chan := 5, frame := 0, copy := false },
        { num := 3, state := .allotted, chan := 5, frame := 0, copy := false }] } }

/-- The header of a correction-set image of one sub-converter (R934), with its CRC. -/
def tSetHead : List Byte :=
  leBytes 4 0x524F4353 ++ leBytes 2 1 ++ leBytes 1 1 ++ List.replicate 53 0 ++ leBytes 4 2239492744

/-- The rest of the image from FIR_COEF(1.0) of sub-converter 0 on. -/
def tSetTail : List Byte := leBytes 2 0x4000 ++ List.replicate 766 0

/-- A correction-set image of one sub-converter (R934). -/
def tSet : List Byte := tSetHead ++ (List.replicate 2048 0 ++ tSetTail)

theorem tSet_at {o : Nat} (h : 64 ≤ o) (h' : o < 2112) : tSet[o]? = some 0 := by
  rw [tSet, List.getElem?_append_right (le_of_eq_of_le (by decide +kernel) h),
    List.getElem?_append_left (by rw [List.length_replicate, show tSetHead.length = 64 by decide +kernel]; omega),
    List.getElem?_replicate_of_lt (by rw [show tSetHead.length = 64 by decide +kernel]; omega)]

theorem tSet_zero {o : Nat} (h : 64 ≤ o) (h' : o + 2 ≤ 2112) : fieldNat tSet o 2 = 0 := by
  simp only [fieldNat, List.range, List.range.loop, List.map, Nat.add_zero]
  rw [tSet_at h (by omega), tSet_at (by omega) (by omega)]
  rfl

theorem tSet_entries : setEntriesLegal tSet = true := by
  simp only [setEntriesLegal, Bool.and_eq_true, List.all_eq_true]
  refine ⟨fun i hi j hj t ht => ?_, by decide +kernel⟩
  simp only [List.mem_range] at hi hj ht
  rw [tSet_zero (by omega) (by omega)]
  exact ⟨rfl, rfl⟩

theorem tSet_take : (tSet ++ List.replicate 2880 0).take 2880 = tSet := by
  have h : tSet.length = 2880 := by decide +kernel
  rw [List.take_append_of_le_length (by omega), List.take_of_length_le (by omega)]

theorem tSet_crc : imageCrcOk tSet 60 = true := by
  rw [imageCrc_eq]
  decide +kernel

/-- A context image (R933). -/
def tContext : List Byte :=
  leBytes 4 0x54584353 ++ leBytes 2 1 ++ leBytes 1 1 ++ leBytes 1 8 ++ leBytes 4 256 ++ [0, 0] ++ leBytes 2 1 ++
    leBytes 2 0xC000 ++ leBytes 2 0x4000 ++ leBytes 4 1024 ++ [1, 0, 1, 0] ++ leBytes 2 32 ++ List.replicate 222 0 ++
    leBytes 4 2132980329

theorem tContext_crc : imageCrcOk tContext 252 = true := by
  rw [imageCrc_eq]
  decide +kernel

/-- SLATE_PARAM_SET of slot 15 of channel 3. -/
def tSetPacket : Packet := tPacket specSlateParamSet 0 [(8, 3), (10, 15), (16, 64)]

/-- SLATE_CONTEXT_LOAD of channel 3. -/
def tContextPacket : Packet := tPacket specSlateContextLoad 0 [(8, 3), (16, 64)]

theorem tSet_accepted : chkSlateParamSet 0 tSetPacket (.bytes tSet) (tLink.taken 0 0) = none := by
  simp only [chkSlateParamSet, hostLegal, hostFault, tSet_take, setLegal, tSet_crc, tSet_entries]
  decide +kernel

theorem tContext_accepted : chkSlateContextLoad 0 tContextPacket (.bytes tContext) (tLink.taken 0 0) = none := by
  have h : (tContext ++ List.replicate 256 0).take 256 = tContext := by decide +kernel
  simp only [chkSlateContextLoad, hostLegal, hostFault, h, State.ctxImage, ctxLegal, tContext_crc]
  decide +kernel

/-- Stratum 1 holds one granule. -/
def tAllocated : State :=
  { tLink with strata := vmod tLink.strata 1 fun x => { x with arena := [{ base := 0, parts := [some 0], gen := 1 }] } }

/-- A program which is loaded, not launched. -/
def tProg (fn : FnNo) (id : Nat) : Prog :=
  { stratum := fn, id, pkg := [], header := List.replicate 256 0, arena := 65536, loading := none, unloading := [],
    variant := some 0, origins := [0], windows := [], reselect := false, unfit := false, launch := none, ring :=
      ResultRing.empty }

/-- Program 1 of stratum 0 is loaded. -/
def tProgram : State := { tLink with progs := [tProg 0 1] }

/-- A change of one unit. -/
def tUnit (u : Unit_) (f : UnitSt → UnitSt) (s : State) : State := s.modUnit u f

/-- Cluster 0 is fenced and its last self-test passed. -/
def tPassed : State := tUnit (.cluster 0) (fun x => { x with fenced := true, passed := true }) tReady

/-- Queue pair 1 and the event queue of function 0 are disabled. -/
def tDisabled : State :=
  (tReady.modQp 0 1 fun q => { q with enable := false, running := false }).modEvq 0 fun q =>
    { q with enable := false, running := false, base := 0xFFFFFFFF00000000 }

/-- Function 0 has replies and records to release, and a pending vector with its table entry. -/
def tHeads : State :=
  (tReady.modQp 0 3 fun q => { q with cqHead := 14, cqUnreleased := 3, cqPos := 1 }).modFn 0 fun f =>
    { f with evq := { f.evq with head := 15, pos := 2, unreleased := 3 }, functionMask := true,
             pba := 0x8000000000000000
             msix := f.msix.set 63 { addr := 0xFEE00000, data := 0x41, masked := false } }

/-- VF 1 has no stratum. -/
def tUnmade : State := { tReady with strata := State.reset.strata }

/-- Stratum 0 has an arena of one granule at view address 0, where its aperture starts. -/
def tAperture : State :=
  { tLink with strata := vmod tLink.strata 0 fun x => { x with arena := [{ base := 0, parts := [some 9], gen := 1 }],
                                                               aperture := 0 } }

/-- The slot in progress is stratum 0's alone. -/
def tSlotted : State :=
  { tReady with
    strata := vmod tReady.strata 0 fun x => { x with isolated := true }
    slots := { tReady.slots with table := Vector.replicate 64 (some 0) } }

/-- Stratum 1 is sealed. -/
def tSealed : State := { tReady with strata := vmod tReady.strata 1 fun x => { x with sealed := true } }

/-- The supplies are off. -/
def tOff : State := { tReady with sup := { tReady.sup with power := .off, mainQual := false, vinMain := 0,
                                                           vinAux := 0 } }

/-- Cage 2 is switched off. -/
def tCage : State :=
  { tReady with ports := Vector.ofFn fun p => if p.val / 2 = 2 then { tReady.ports[p] with cageOff := some 77 } else tReady.ports[p] }

/-- The external memory is under fixed refresh. -/
def tFixed : State := { tReady with ext := { tReady.ext with fixedRefresh := true }, tick := 1000 }

/-- The next round's table gives slot 63 to stratum 1. -/
def tRound : State := { tReady with slots := { tReady.slots with next := tReady.slots.next.set 63 (some 1),
                                                                 notices := [1] } }

/-- Stratum 1, which owns a program, is being destroyed. -/
def tDestroying : State :=
  { tReady with
    strata := vmod tReady.strata 1 fun x => { x with destroying := true, destroyId := 9 }
    outst := [{ id := 9, fn := 0, qp := 0, op := 0x12, tag := 5, chain := false }]
    progs := [tProg 1 0, tProg 0 1]
    slots := { tReady.slots with next := tReady.slots.next.set 63 (some 1) } }

/-- Buffer 3 is being zeroed. -/
def tZeroing : State :=
  { tLink with geo := { tLink.geo with bufs := (tLink.geo.bufs.take 3) ++ [{ num := 3, state := .zeroing, chan := 5, frame := 0, copy := false }] } }

/-- Channel 3 waits for a grant since tick 10. -/
def tWaits : State :=
  (tLink.modChan 3 fun x => { x with waitSince := some 10 }).modBufs fun l => l.map fun b =>
    if b.chan = 3 then { b with state := .held } else b

/-- Channel 3 is starved since tick 10. -/
def tStarved : State := tLink.modChan 3 fun x => { x with starvedSince := some 10 }

/-- Bytes given as (offset, length-free value) pairs. -/
def tBytes (n : Nat) (fs : List (Nat × Nat)) : List Byte :=
  leBytes n (fs.foldl (fun a f => a + f.2 * 2 ^ (8 * f.1)) 0)

/-- The header of a package of one variant of one cluster (R623, R624). -/
def tHeader : List Byte :=
  tBytes 256 [(0, 0x474B5053), (4, 1), (6, 1), (7, 1), (8, 512), (16, 0x10000), (24, 2), (25, 1), (40, 256), (64, 1),
    (65, 1),
    (66, 1), (67, 2), (68, 1), (70, 1)]

/-- Channel 3 has a context. -/
def tRoutable : State := tProgram.modChan 3 fun x => { x with slate := { x.slate with image := [1] } }

/-- Strata 0 and 1 have an arena of one granule. -/
def tArenas : State :=
  { tProgram with
    strata := (List.finRange 2).foldl (fun v n => vmod v (Fin.ofNat 16 n.val) fun x => { x with
      arena := [{ base := 0, parts := [some n.val], gen := 1 }] }) tProgram.strata }

/-- A logical cluster of stratum 1 is unmapped. -/
def tUnmapped : State := { tArenas with mapping := vmod tArenas.mapping 0 fun _ => none }

/-- Port 6 is synchronised, and stratum 1 is in REPRODUCIBLE mode. -/
def tSynced : State :=
  { tArenas with
    ports := tArenas.ports.set 6 { tPort 1 with sync := some { source := true, cmd := none, began := 0, a := none,
                                                               theta := 0, good := 64, bad := 0, lastEcho := 0,
                                                               synced := true } }
    strata := vmod tArenas.strata 1 fun x => { x with repro := true }
    nv := { tArenas.nv with staged := true } }

/-- Strata 0 and 1 are paired on this module. -/
def tPaired : State := { tSynced with lock := { tSynced.lock with st := .paired, target := 1 } }

/-- Copy engine 3 and cluster 5 are fenced. -/
def tFenced : State := tUnit (.cluster 5) (fun x => { x with fenced := true }) (tUnit (.copy 3) (fun x =>
  { x with fenced := true }) tReady)

/-- A long-running command of VF 1 is outstanding. -/
def tOutst : Outst := { id := 9, fn := 1, qp := 3, op := 0x30, tag := 5, chain := true }

/-- Two commands are outstanding. -/
def tTwo : State :=
  { tReady with
    outst := [{ id := 3, fn := 0, qp := 0, op := 0x80, tag := 1, chain := false }, tOutst], nextId := 10
    fns := (tReady.fns.set 1 { tReady.fns[1] with evq := { tReady.fns[1].evq with reserved := 1 } }) }

/-- Every sensor reads 40.0 degrees. -/
def tWarm : State :=
  { tReady with thermal := { tReady.thermal with readings := Vector.replicate 83 400,
                                                 lastValid := Vector.replicate 83 400, tjMax := 400 } }

/-- Every sensor reads 80.0 degrees, and the last two samples were at T_SHUT. -/
def tHot : State := { tWarm with thermal := { tWarm.thermal with shut := 2, readings := Vector.replicate 83 800 } }

/-- The thermal cap of 100 W is in force since tick 0. -/
def tCapped : State :=
  { tWarm with
    thermal := { tWarm.thermal with capped := true, stepDue := 16000000, allHot := true, releaseDue := some 800000 }
    plans := { tWarm.plans with thermalCap := some 100, inForce := 4 } }

/-- The location is external memory. -/
def isExt : Loc → Bool
  | .ext _ _ _ => true
  | _ => false

theorem tArenas_inside : ∀ w ∈ [(65535, (7 : Byte)), (0, 9)], ¬ isExt (tArenas.locate 0 w.1) = true :=
  by decide +kernel

/-- A copy job of stratum 0 on engine 3: 64 bytes from view address 0 to 4096. -/
def tJob : CopyJob :=
  { copyJobOf .copy 9 0 (tPacket specCopy 0 [(8, 0), (16, 4096), (24, 64), (32, 64), (40, 64), (44, 1), (46,
    1)]) with engine := 3 }

/-- The job runs; and so does one of COPY_CHECKSUM. -/
def tJobCopy : CopyJob := { tJob with started := true, traversal := 1 }

/-- See `tJobCopy`. -/
def tJobSum : CopyJob := { tJobCopy with kind := .checksum }

theorem pair_none {α β : Type} {x : α × Option β} (h : x.2.isNone = true) : x = (x.1, none) := by
  rw [← Option.isNone_iff_eq_none.mp h]

theorem triple_none {α β γ : Type} {x : α × β × Option γ} (h : x.2.2.isNone = true) : x = (x.1, x.2.1, none) := by
  rw [← Option.isNone_iff_eq_none.mp h]

theorem loadBytes_self {n : Nat} {b : List Byte} (h : b.length = n) : loadBytes n b = b := by
  rw [loadBytes, List.take_append_of_le_length (by omega), List.take_of_length_le (by omega)]

/-- The job waits on engine 3, and its command is outstanding. -/
def tCopying (j : CopyJob) : State :=
  { tArenas with
    copies := [j], outst := [{ id := 9, fn := 0, qp := 0, op := 0x30, tag := 5, chain := false }], nextId := 10
    deliveries := [{ chan := 3, seq := 4, stratum := 0, engine := 1, src := 0, dst := 0x100000,
                     started := j.started }] }

/-- A frame of a channel at its opening FRAME_MARK. -/
def tFrame (chan seq : Nat) (stage : FStage) : Frame :=
  { chan, seq, stage, openTick := 5, markTick := 0, payload := [], route := { slate := 0, prog := 0, input := 0 }
    launch := none, runNo := none, repro := false, retry := false, compat := false, tables := tReady.tables[0]
    mprogs := tReady.mprogs[0], gen := 0, engine := some 0, set := 0, setImage := tSet, ctx := tContext
    out := SlateOut.none, stripe := 0, pieces := [], cut := 0, done := 0, x0 := [], x2 := [], x3 := [], kernel4 := 0
    record := 0, raster := 0, retried := false, pairSeq := none, sigs := [], wideMsg := [] }

/-- A frame of channel 3 waits for Slate engine 0 with one piece of work. -/
def tOffered : State :=
  { tLink with frames := [{ tFrame 3 4 .conditioning with payload := List.replicate 8 0, pieces := [(0, 8, 5)],
                                                          cut := 8 }] }

/-- Slate engine 0 has finished the last piece of a frame which no launch serves. -/
def tPieces : State :=
  { tLink with
    frames := [{ tFrame 3 4 .conditioning with payload := List.replicate 8 0, cut := 8 }]
    pieces := tLink.pieces.set 0 [{ chan := 3, seq := 4, first := 0, last := 8 }] }

/-- A flash command. -/
def tNvOp (op : BitVec 8) (steps : List NvStep) (started : Bool) : NvOp :=
  { id := 9, fn := 0, qp := 0, op, tag := 5, region := 7, off := 4096, len := 4096, addr := 4096, data := none,
    old := [], started, steps
    entry := none, paused := none, eraseCut := false }

/-- A flash command is at the front of the queue. -/
def tFlash (o : NvOp) : State :=
  { tReady with
    nv := { tReady.nv with mem := [(0x70001000, 0x5A), (0x70002000, 0x5A)], ops := [o] }, nextId := 10
    outst := [{ id := 9, fn := 0, qp := 0, op := o.op, tag := 5, chain := false }] }

/-- CRC-64 with the register reduced at each byte. -/
def crc64Nat : List Byte → W64 → W64
  | [], c => c
  | b :: bs, c => if c.toNat = 0 then crc64Nat bs (crc64Byte c b) else crc64Nat bs (crc64Byte c b)

theorem crc64Nat_eq (bs : List Byte) (c : W64) : crc64Nat bs c = bs.foldl crc64Byte c := by
  induction bs generalizing c with
  | nil => rfl
  | cons b bs ih => simp [crc64Nat, ih]

/-- A package of one variant whose entry is one END. -/
def tPackage : List Byte :=
  tBytes 512 [(0, 0x474B5053), (4, 1), (6, 1), (7, 1), (8, 512), (16, 0x10000), (24, 2), (25, 1), (40, 256), (64, 1),
    (65, 1),
    (66, 1), (67, 2), (68, 1), (70, 1), (248, 1205161541009631979), (256, 320), (260, 336), (264, 16), (324, 1),
      (351, 0x34)]

theorem tPackage_crc : packageCrcOk tPackage = true := by
  rw [packageCrcOk, crc64, ← crc64Nat_eq]
  decide +kernel

/-- Program 1 of stratum 1 waits for its package check. -/
def tLoadProg : Prog := { tProg 1 1 with header := tPackage.take 256, arena := 0, loading := some 9 }

/-- See `tLoadProg`. -/
def tLoading : State :=
  { tArenas with
    progs := [tLoadProg], nextId := 10
    outst := [{ id := 9, fn := 1, qp := 0, op := 0x60, tag := 5, chain := false }] }

theorem tPackage_passes : packageFault (tLoadProg.header ++ ((tPackage ++ List.replicate (hdrTotal tLoadProg.header) 0).take
    (hdrTotal tLoadProg.header)).drop 256) tLoading.micaVersion = none := by
  have h : tLoadProg.header ++ ((tPackage ++ List.replicate (hdrTotal tLoadProg.header) 0).take
    (hdrTotal tLoadProg.header)).drop 256 = tPackage := by decide +kernel
  simp only [h, packageFault, tPackage_crc]
  decide +kernel

theorem tPackage_empty : packageFault (tLoadProg.header ++ ((([] : List Byte) ++ List.replicate (hdrTotal tLoadProg.header) 0).take
    (hdrTotal tLoadProg.header)).drop 256) tLoading.micaVersion = some 0xFFFFFFFF := by
  have h : packageCrcOk (tLoadProg.header ++ ((([] : List Byte) ++ List.replicate (hdrTotal tLoadProg.header) 0).take
    (hdrTotal tLoadProg.header)).drop 256) = false := by
    rw [packageCrcOk, crc64, ← crc64Nat_eq]
    decide +kernel
  simp only [packageFault, h]
  decide

/-- A launch. -/
def tLaunch (serial : Nat) : Launch :=
  { binary32 := false, modLog2 := 0, vector := 6, ringLog2 := 4, deadline := 0, ringAddr := 0x10000,
    headAddr := 0x20000
    fromTick := 0, serial }

/-- Program 1 of stratum 1 is being unloaded. -/
def tUnloading : State :=
  { tArenas with
    progs := [{ tProg 1 1 with unloading := [9] }, tProg 0 1], nextId := 10
    chans := [{ tChan 3 0 1 2 0 with route := { slate := 0, prog := 1, input := 0 } }]
    outst := [{ id := 9, fn := 1, qp := 0, op := 0x61, tag := 5, chain := false }] }

/-- LAUNCH_AT_TICK, BARRIER, and EVENT_WAIT of function 0 wait, and program 1 is launched with results in its ring. -/
def tWaiting : State :=
  { tArenas with
    progs := [tProg 0 1, { tProg 0 2 with launch := some (tLaunch 1),
                                          ring :=
                                          { ResultRing.empty with head := 14, pos := 1, unreleased := 3,
                                                                  unannounced := 2, oldest := 7 } }]
    scheduled := [{ id := 9, stratum := 0, prog := 1, start := 500, requireSync := false, terms := tLaunch 0 }]
    barriers := [{ id := 8, stratum := 0, below := 8, frames := [(3, 0)], queues := [] }], nextId := 10
    waits := [{ id := 10, stratum := 0, kind := 1, chan := 0, evType := 0, value := 800, accepted := 0,
                timeout := 400, hit := false }]
    outst := [{ id := 8, fn := 0, qp := 0, op := 0x6F, tag := 5, chain := false },
      { id := 9, fn := 0, qp := 0, op := 0x65, tag := 6, chain := false },
        { id := 10, fn := 0, qp := 0, op := 0x67, tag := 7, chain := false }] }

/-- The first words of a table image, with its CRC (R663). -/
def tTableHead : List Byte :=
  tBytes 72 [(0, 0x4C42544D), (4, 1), (6, 2), (60, 1054252304), (64, 0x10000000), (68, 0x20000000)]

/-- A table of two entries. -/
def tTable : List Byte := tTableHead ++ List.replicate 4088 0

theorem tTable_crc : imageCrcOk tTable 60 = true := by
  rw [imageCrc_eq]
  decide +kernel

theorem firstFailing_none {l m : List (Nat × Bool)} (h : firstFailing l = none) (hm : ∀ x ∈ m, x.2 = false) :
    firstFailing (l ++ m) = none := by
  simp only [firstFailing, Option.map_eq_none_iff, List.find?_append, List.find?_eq_none] at *
  simp only [Option.or_eq_none_iff, List.find?_eq_none]
  exact ⟨h, fun x hx => by simp [hm x hx]⟩

theorem tTable_passes : tableFault true (loadBytes tableBytes tTable) = none := by
  have h : loadBytes tableBytes tTable = tTable := loadBytes_self (by decide +kernel)
  have f : tableFieldFault tTable = none := by
    refine firstFailing_none (by decide +kernel) fun x hx => ?_
    obtain ⟨i, -, rfl⟩ := List.mem_map.mp hx
    by_cases hi : 2 ≤ i
    · have n : tableN tTable = 2 := by decide +kernel
      have z : tableEntry tTable i = 0 :=
        zeroField (Nat.le_trans (Nat.le_of_eq (by decide +kernel)) (show 72 ≤ 64 + 4 * i by omega))
      simp only [n, z]
      rw [if_neg (by omega)]
      rfl
    · obtain rfl | rfl : i = 0 ∨ i = 1 := by omega
      · decide +kernel
      · decide +kernel
  rw [h, tableFault, tTable_crc, f]
  decide +kernel

theorem tTable_empty : tableFault true (loadBytes tableBytes []) = some 60 := by
  have h : imageCrcOk (loadBytes tableBytes []) 60 = false := by rw [imageCrc_eq]; decide +kernel
  rw [tableFault, h]
  rfl

/-- A micro-program of one step, with its CRC (R669). -/
def tMprog : List Byte := tBytes 72 [(0, 0x4752504D), (4, 1), (6, 1), (60, 3853668638), (64,
  7)] ++ List.replicate 504 0

theorem tMprog_passes : mprogFault 1 (loadBytes mprogBytes tMprog) = none := by
  have h : loadBytes mprogBytes tMprog = tMprog := loadBytes_self (by decide +kernel)
  have c : imageCrcOk tMprog 60 = true := by rw [imageCrc_eq]; decide +kernel
  have f : mprogFieldFault 1 tMprog = none := by
    refine firstFailing_none (by decide +kernel) fun x hx => ?_
    obtain ⟨i, -, rfl⟩ := List.mem_map.mp hx
    by_cases hi : 1 ≤ i
    · have z : fieldNat tMprog (64 + 8 * i) 8 = 0 :=
        zeroField (Nat.le_trans (Nat.le_of_eq (by decide +kernel)) (show 72 ≤ 64 + 8 * i by omega))
      simp [z]
    · obtain rfl : i = 0 := by omega
      decide +kernel
  rw [h, mprogFault, c, f]
  decide +kernel

theorem tMprog_empty : mprogFault 1 (loadBytes mprogBytes []) = some 60 := by
  have h : imageCrcOk (loadBytes mprogBytes []) 60 = false := by rw [imageCrc_eq]; decide +kernel
  rw [mprogFault, h]
  rfl

/-- A TABLE_LOAD and a MICROPROG_LOAD of stratum 1 wait for their images. -/
def tSlots : State :=
  { tReady with
    tableLoads := [{ id := 8, stratum := 1, slot := 7, arg := 1 }], mprogLoads :=
      [{ id := 9, stratum := 1, slot := 0, arg := 1 }], nextId := 10
    outst := [{ id := 8, fn := 1, qp := 0, op := 0x62, tag := 5, chain := false },
      { id := 9, fn := 1, qp := 0, op := 0x63, tag := 6, chain := false }] }

/-- Unit 0x0204 drains for command 8, unit 0x0105 is under test, and a FAULT_LOG_READ waits. -/
def tService : State :=
  { (tUnit (.bank 4) (fun x => { x with fenced := true, draining := some (8, 0) })
      (tUnit (.cluster 5) (fun x => { x with fenced := true, testing := [9] }) tReady)) with
    logReads := [{ id := 10, fn := 0, first := 0, count := 4, addr := 4096 }], nextId := 11
    outst := [{ id := 8, fn := 0, qp := 0, op := 0xA0, tag := 5, chain := false },
      { id := 9, fn := 0, qp := 0, op := 0xA1, tag := 6, chain := false },
      { id := 10, fn := 0, qp := 0, op := 0xA4, tag := 7, chain := false }] }

/-- Copy engine 3 drains for command 8 while its job runs. -/
def tWorking : State := tUnit (.copy 3) (fun x => { x with fenced := true, draining := some (8,
                                                           0) }) (tCopying tJobCopy)

/-- Lane 4 is under test. -/
def tLaneTest : State := tUnit (.lane 4) (fun x => { x with fenced := true, testing := [9] }) tTwo

/-- PLL 3 is out of lock with the units which that fenced. -/
def tPll : State :=
  { tUnit (.cluster 0) (fun x => { x with fenced := true }) tLink with boot := { tLink.boot with pllOut := [(3, [0x0100])] } }

/-- Logical cluster 2 waits for its replacement; logical cluster 9 is not mapped. -/
def tReplace : State :=
  { tReady with toReplace := [(2, 2, 0, 0)], mapping := (tReady.mapping.set 2 none).set 9 none }

/-- Logical cluster 9 waits for its replacement, and no spare is up. -/
def tNoSpare : State :=
  (List.finRange 8).foldl (fun s k => tUnit (.cluster (Fin.ofNat 72 (9 * k.val + 8))) (fun x =>
    { x with retired := true }) s)
    { tReplace with toReplace := [(9, 10, 0, 0)], mapping := tReady.mapping }

/-- A remap of logical cluster 5 to cluster 71 waits, and the external memory is being re-initialised. -/
def tRemap : State :=
  { tReady with remaps := [(9, 5, 71)], nextId := 10, ext := { tReady.ext with reinit := true }
                outst := [{ id := 9, fn := 0, qp := 0, op := 0xA3, tag := 5, chain := false }] }

/-- A PANEL_DRAW. -/
def tDraw (carried : Bool) : Draw :=
  { id := 9, fn := 0, qp := 0, tag := 5, region := 9, bitmap := List.replicate 288 0xFF, carried, paused := none }

/-- A PANEL_DRAW waits, with the panel's refresh. -/
def tPanel (carried : Bool) (r : Option Refresh) : State :=
  { tReady with
    panel := { tReady.panel with draws := [tDraw carried], refresh := r, changed := some 77 }, nextId := 10
    nv := { tReady.nv with journal := [{ seq := 4, kind := 2, done := 0xFF, opcode := 1, region := 0, tick := 0,
                                         offset := 0, len := 0, ref := 0 }], nextEntry := 5 }
    outst := [{ id := 9, fn := 0, qp := 0, op := 0xC0, tag := 5, chain := false }] }

/-- A refresh under way. -/
def tRefresh (phases : Nat) (stop : Bool) : Refresh :=
  { entry := 4, opcode := 1, slot := 0, phases, stop, regions := 0x200 }

/-- Both inputs at 12 V, and a switch-over under way. -/
def tSwitching : State :=
  { tReady with sup := { tReady.sup with auxLow := false, switching := some true } }

/-- Both inputs at 12 V. -/
def tBoth : State := { tReady with sup := { tReady.sup with auxLow := false } }

/-- The module is in HOLDUP. -/
def tHoldup : State := { tReady with sup := { tReady.sup with power := .holdup, vinMain := 0, vinAux := 0 } }

/-- A sag since tick 5; a flash command is paused. -/
def tSag : State :=
  { tFlash { tNvOp 0xB1 [.erase 7 4096, .read] true with paused := some 5 } with
    sup := { tReady.sup with sag := some 5, vinMain := 950, charge := 95 }
    panel := { tReady.panel with refresh := some (tRefresh 3 false) } }

/-- A measurement. -/
def tVolts (main aux charge : Nat) : Volts := { main, aux, charge }

/-- The module in a phase of its start-up. -/
def tBoot (phase : BitVec 4) : State :=
  { tReady with boot := { tReady.boot with phase, image := 0, linkL0 := false },
                sup := { tReady.sup with charge := 100 } }

/-- The module is held in module reset. -/
def tHeld : State := { tReady with boot := { tReady.boot with inReset := true, modResetLow := true,
                                                              linkL0 := false } }

/-- TEST_EN holds the module in module reset. -/
def tHeldTest : State := { tReady with boot := { tReady.boot with inReset := true, testEn := true, resetCause := 6,
                                                                  linkL0 := false } }

/-- A module reset is latched. -/
def tLatched : State :=
  { tLink with boot := { tLink.boot with resetPending := true, pendingCause := 1, linkL0 := false, fatal := true,
                                         fatalLog := Vector.replicate 8 0x80010A00 } }

/-- A port in a state of its training, with its lanes locked. -/
def tTrain (p : PortNo) (st : PState) : State :=
  { tReady with
    ports := tReady.ports.set p { tPort 0 with st, lanes := 0xF, inUse := if st = .active then 0xF else 0,
                                               due := 4000, cmd := some 9 }
    lanes := Vector.ofFn fun l =>
      if portOf l = p then { LaneSt.idle with locked := true, seenCount := 3 } else LaneSt.idle
    outst := [{ id := 9, fn := 0, qp := 0, op := 0x70, tag := 5, chain := false }], nextId := 10 }

/-- A port of which only lane 0 is in service. -/
def tNarrow : State := { tReady with ports := tReady.ports.set 2 { tPort 0 with lanes := 1, inUse := 1 } }

/-- A TS block of bytes 1 to 4. -/
def tTs (b1 b2 b3 b4 : Nat) : W64 := BitVec.ofNat 64 (0x4B + 2 ^ 8 * b1 + 2 ^ 16 * b2 + 2 ^ 24 * b3 + 2 ^ 32 * b4)

/-- The lane has received three equal TS blocks. -/
def tSeen (s : State) (l : LaneNo) (w : W64) : State := s.modLane l fun x =>
  { x with seenTs := w.extractLsb' 8 40, seenCount := 3 }

/-- Lane 4 of a port in EQUALIZE has measured seven presets. -/
def tSweep : State :=
  (tTrain 1 .equalize).modLane 4 fun x => { x with request := 7, margins := [1, 2, 9, 4, 5, 6, 7],
                                                   farTs := some 0x0000000720 }

/-- A LANE_MARK of a lane's place and a MARK_SEQ, with flags. -/
def tMark (place seq flags : Nat) : W64 :=
  BitVec.ofNat 64 (0x2D + 2 ^ 10 * place + 2 ^ 13 * flags + 2 ^ 16 * seq + 2 ^ 32 * 0x5A)

/-- Port 1 aligns its only lane 6. -/
def tAlign : State :=
  { tTrain 1 .align with ports := tReady.ports.set 1 { tPort 0 with st := .align, lanes := 4, inUse := 0 } }

/-- A record of a front end (R814), less its CRC. -/
def tRecord0 : List Byte :=
  tBytes 92 [(0, 1), (2, 1), (4, 0x1234), (20, 4), (22, 1024), (24, 1), (26, 0x1FF), (28, 12), (29, 0), (30, 64)]

/-- The record with its CRC. -/
def tRecord : List Byte := tRecord0 ++ leBytes 4 1058729743

theorem tRecord_crc : (crc32c tRecord0).toNat = 1058729743 := by
  rw [crc32c, BitVec.toNat_not]
  have e := crcNat_eq tRecord0 0xFFFFFFFF
  have k : (0xFFFFFFFF : W32).toNat = 0xFFFFFFFF := rfl
  rw [← e, k]
  decide +kernel

/-- A port in NEGOTIATE whose fragments have arrived on a lane, each confirmed but fragment 0. -/
def tExchange (r : List Byte) : Port :=
  { tPort 0 with
    st := .negotiate, own := List.replicate 96 0, due := 4000
    frags := Vector.ofFn fun i => some (BitVec.ofNat 48 (fieldNat r (6 * i.val) 6), 4, i.val != 0) }

/-- Port 1 exchanges a record. -/
def tNeg (r : List Byte) : State := { tTrain 1 .negotiate with ports := tReady.ports.set 1 (tExchange r) }

/-- A NEG block. -/
def tNegWord (kind index : Nat) (data : Nat) : W64 :=
  BitVec.ofNat 64 (0x55 + 2 ^ 8 * (16 * kind + index) + 2 ^ 16 * data)

theorem whole_of {x r : List Byte} (e : x = r) (c : (crc32c (r.take 92)).toNat = fieldNat r 92 4) :
    (let y := x; if fieldNat y 92 4 = (crc32c (y.take 92)).toNat then some y else none) = some r := by
  subst e
  simp only [c, if_true]

theorem tNeg_whole : ({ tExchange tRecord with frags := (tExchange tRecord).frags.set 0 (some (BitVec.ofNat 48 (fieldNat tRecord 0 6), 4, true)) } : Port).whole =
    some tRecord := by
  have h : tRecord.take 92 = tRecord0 := by decide +kernel
  unfold Port.whole
  rw [if_pos (by decide +kernel)]
  exact whole_of (by decide +kernel) (by rw [h, tRecord_crc]; decide +kernel)

/-- Every lane of port 1 is locked and deskewed, and a width change may be under way. -/
def tWide (w : Option WidthChange) (far : Option (BitVec 4 × W16)) : State :=
  { tTrain 1 .active with
    ports := tReady.ports.set 1 { tPort 0 with wc := w, farWc := far }
    lanes := Vector.ofFn fun l =>
      if portOf l = 1 then { LaneSt.idle with locked := true, deskewed := true } else LaneSt.idle }

/-- A width change to lane 0. -/
def tChange (cause : WcCause) (tries : Nat) (acked : Bool) : WidthChange :=
  { cause, mask := 1, width := 1, seq := 5, tries, refused := false, acked, sent := 10, began := 4 }

/-- A channel-frame of channel 3 is open with one granted buffer left. -/
def tOpen : State :=
  { tLink with
    chans := [{ tChan 3 0 0 2 0 with marks := 5, used := 0, noFrame := false }, tChan 5 6 1 4 1]
    frames := [{ tFrame 3 4 .opened with route := { slate := 0xFE, prog := 0, input := 0 } }] }

/-- Channel 3 discards and has a CHAN_ROUTE waiting. -/
def tRouting (unbind : Bool) : State :=
  { tLink with
    chans := [{ tChan 3 0 0 2 0 with
      route := { slate := 0xFE, prog := 0, input := 0 }
      pending := some { id := 9, route := { slate := 0, prog := 0, input := 0 }, unbind, accepted := 3,
                        switched := false } }]
    outst := [{ id := 9, fn := 0, qp := 0, op := 0x44, tag := 5, chain := false }], nextId := 10 }

/-- Channel 3 discards what it receives. -/
def tDiscard : State :=
  { tLink with chans := [{ tChan 3 0 0 2 0 with marks := 7, route := { slate := 0xFE, prog := 0, input := 0 } }] }

/-- Three items of port 0 wait for their acknowledgement. -/
def tReplay : State :=
  { tLink with
    ports := tLink.ports.set 0 { tPort 0 with
      txSeq := 2, oldestSent := 40, replay := [{ seq := 0xFFFF, bytes := List.replicate 16 1, frame := true },
        { seq := 0, bytes := List.replicate 8 2, frame := false },
        { seq := 1, bytes := List.replicate 16 3, frame := true }] } }

/-- Port 6 runs tick synchronisation. -/
def tSync (y : Sync) : State :=
  { tLink with
    ports := tLink.ports.set 6 { tPort 1 with sync := some y }, tick := 1000
    outst := [{ id := 9, fn := 0, qp := 0, op := 0x82, tag := 5, chain := false }], nextId := 10 }

/-- The state of tick synchronisation of a follower. -/
def tFollow (a : Option Int) (good : Nat) (synced : Bool) : Sync :=
  { source := false, cmd := some 9, began := 0, a, theta := 0, good, bad := 0, lastEcho := 5, synced }

/-- A position which runs micro-operations on logical cluster 0. -/
def tPos (code : List (BitVec 128)) : Position :=
  { cluster := 0, code, next := Vector.replicate 3 0, since := Vector.replicate 3 0, flights := [],
    sems := Vector.replicate 16 0
    sends := Vector.replicate 4 0, recvs := Vector.replicate 4 0, barriers := 0, reduced := [], ended := false }

/-- A channel-frame which runs at these positions. -/
def tRun (ps : List Position) : Run :=
  { stratum := 0, prog := 1, replica := 0, chan := 3, seq := 4, positions := ps, ending := false, out := [],
    partials := [], mprogs := [] }

/-- Channel 5 sends; frame 4 of channel 3, which produced its tensor, runs. -/
def tSends : State :=
  { tLink with
    chans := [tChan 3 0 0 2 0, { tChan 5 6 1 4 1 with q := { QEnd.initial with
      send := true, opened := true, tx := { limit := 64, consumed := 0 }, offers :=
        [{ srcChan := 3, srcSeq := 4, rows := 1, cols := 2, wide32 := false, addr := 0, stride := 4 }],
      copies := [{ msgSeq := 7, bytes := [1, 2], markSeq := none, acked := some 9, requested := false }]
      answers := [{ kind := 3, msgSeq := 7, bytes := [], seq := 2 },
        { kind := 4, msgSeq := 7, bytes := [], seq := 3 }] } }]
    progs := [{ tProg 0 1 with windows := [(0, 0)] }], runs := [tRun [tPos []]]
    frames := [{ tFrame 3 4 (.running 5) with launch := some 1 }] }

/-- Channel 5 receives; its frame 2 waits for WIDE message 7. -/
def tReceives (kind : BitVec 8) (m : W32) : State :=
  { tLink with
    chans := [tChan 3 0 0 2 0,
      { tChan 5 6 1 4 1 with q := { QEnd.initial with answers := [{ kind, msgSeq := m, bytes := List.replicate 24 1,
                                                                    seq := 3 }] } }]
    frames := [{ tFrame 5 2 .wide with payload := leBytes 8 0 ++ leBytes 4 7 ++ List.replicate 20 0 }] }

/-- A micro-operation of an opcode with its operands (R606). -/
def tUop (opc operands : Nat) : BitVec 128 := BitVec.ofNat 128 (opc * 2 ^ 122 + operands)

/-- The micro-operation waits on semaphore 0, or signals it (R606). -/
def tWait (u : BitVec 128) : BitVec 128 := u ||| 1#128 <<< 117

/-- See `tWait`. -/
def tSignal (u : BitVec 128) : BitVec 128 := u ||| 1#128 <<< 112

/-- A program of one replica of two positions, with reduction group 1 of both (R625). -/
def tGroup : Prog :=
  { tProg 0 1 with
    header := tBytes 256 [(0, 0x474B5053), (4, 1), (6, 1), (7, 1), (8, 512), (16, 0x10000), (24, 8), (25, 1), (40,
      256), (64, 2), (65, 1),
      (66, 2), (67, 2), (68, 1), (70, 4)]
    pkg := tBytes 512 [(4, 1), (6, 1), (7, 1), (40, 256), (256, 448), (260, 464), (264, 16), (268, 320), (272, 1),
      (320, 2), (323, 1), (452, 1), (460, 1), (479, 0x34)]
    arena := 0, windows := [(0, 0), (1, 0)], launch := some (tLaunch 1) }

/-- The operand slots 0 of a cluster hold tiles for a step of depth 16 of 8-bit elements. -/
def tCells : Cluster :=
  { Cluster.fresh with
    west := Cluster.fresh.west.set 0 { state := .resident, users := 0, tile := List.replicate 512 0x40, rows := 32,
                                       cols := 16, esize := 0, code := false }
    north := Cluster.fresh.north.set 0 { state := .resident, users := 0, tile := List.replicate 512 0x40, rows := 16,
                                         cols := 32, esize := 0, code := false } }

/-- The tile in the west slot does not fit such a step. -/
def tMisfit : Cluster := { tCells with west := vmod tCells.west 0 fun x => { x with cols := 8 } }

/-- A run of the program on a frame of channel 3, with the state of cluster 0. -/
def tOnRun (r : Run) (f : Frame) (c : Cluster) : State :=
  { tArenas with
    progs := [tGroup], frames := [{ f with launch := some 1, stage := .running 5,
                                           route := { slate := 0, prog := 1, input := 0 } }]
    runs := [r], clusters := tArenas.clusters.set 0 c }

/-- A position at cluster 0, and one at cluster 1. -/
def tOn (p q : Position) : State := tOnRun (tRun [p, { q with cluster := 1 }]) (tFrame 3 4 .opened) tCells

/-- The run of `tOn`. -/
def tOnR (p q : Position) : Run := tRun [p, { q with cluster := 1 }]

/-- A position with one micro-operation, nothing issued. -/
def tAt (u : BitVec 128) : Position := tPos [u]

/-- The position has issued its only micro-operation. -/
def tIssued (u : BitVec 128) (x : Flight) : Position := { tPos [u] with next := Vector.replicate 3 1, flights := [x] }

/-- A position at its first BARRIER. -/
def tStopped : Position := { tIssued (tUop 11 0) (Flight.start 0 0) with barriers := 1 }

theorem tStopped_all : ∀ p ∈ (tOnR tStopped tStopped).positions,
    0 < p.barriers ∧ ∃ k, p.barrier = some (k, 0) ∧ signalOf (p.uop k) = none := by
  intro p hp
  simp only [tOnR, tRun, List.mem_cons, List.not_mem_nil, or_false] at hp
  rcases hp with rfl | rfl <;> exact ⟨by decide +kernel, 0, by decide +kernel, by decide +kernel⟩

/-- STEP with CLEAR, CLOSE, REDUCE and OUT_FMT; its output rows are 64 bytes apart. -/
def tStep (close reduce outFmt : Nat) : BitVec 128 :=
  tUop 1 (2 ^ 81 + close * 2 ^ 80 + reduce * 2 ^ 74 + outFmt * 2 ^ 72 + close * 2 ^ 40)

/-- SLOAD of slot 3 of two rows of 16 bytes from the scratch window, at a multiple of 64 bytes. -/
def tSload (off : Nat) : BitVec 128 := tUop 2 (3 * 2 ^ 92 + 2 ^ 76 + 15 * 2 ^ 66 + 2 ^ 46 + off * 2 ^ 14)

/-- An SLOAD is in flight, and another into the same slot is next. -/
def tTwice : Position :=
  { tPos [tSload 0, tSload 0] with next := Vector.replicate 3 1, flights := [Flight.start 0 0] }

/-- GET or PUT of two rows of 16 bytes. -/
def tBlock (opc base off : Nat) : BitVec 128 := tUop opc (base * 2 ^ 93 + 2 ^ 80 + 2 ^ 68 + 2 ^ 48 + off)

/-- HSEND or HRECV of one row of 16 bytes. -/
def tHalo (opc dir : Nat) : BitVec 128 := tUop opc (dir * 2 ^ 94 + 2 ^ 72 + 2 ^ 40)

/-- MICA of one element a lane, from offset 0 to 16384, AUX at 32768, in 16-bit posits. -/
def tMica (func flags : Nat) : BitVec 128 :=
  tUop 10 (func * 2 ^ 88 + 2 ^ 86 + 2 ^ 84 + 256 * 2 ^ 52 + 2 ^ 40 + 512 * 2 ^ 24 + flags * 2 ^ 16)

/-- A frame with tables, and with a micro-program of one step of an operation. -/
def tTabled (op : Nat) : Frame :=
  { tFrame 3 4 .opened with
    tables := Vector.replicate 8 { image := tTableHead, monotone := false }
    mprogs := Vector.replicate 8 (tBytes 80 [(0, 0x4752504D), (4, 1), (6, 2), (64, op), (72, 1)]) }

/-- The run of one position which executes MICA. -/
def tMicaRun (u : BitVec 128) : Run := tRun [tAt u]

/-- It runs on `tTabled`. -/
def tMicaOn (u : BitVec 128) : State := tOnRun (tMicaRun u) (tTabled 1) tCells

/-- A micro-program which has begun. -/
def tMprogRun : MprogRun :=
  { idx := 0, group := 0, step := 0, regs := List.replicate 32 (List.replicate 8 0x40000000),
    quires := List.replicate 32 (some 0), ints := List.replicate 32 0 }

/-- The run of a micro-program. -/
def tMprogR : Run := { tRun [tIssued (tMica 0x30 0) (Flight.start 0 0)] with mprogs := [(0, tMprogRun)] }

/-- It runs one step of an operation. -/
def tMprogOn (op : Nat) : State := tOnRun tMprogR (tTabled op) tCells

/-- A partial result of reduction group 1 at a position. -/
def tPartial (pos level : Nat) (ready : Bool) : Partial :=
  { pos, group := 1, num := 0, ranks := [pos], level, ready, wide := false, vals := List.replicate 1024 (some 0) }

/-- The run of a reduction. -/
def tReduce (ps : List Partial) : Run :=
  { tRun [tIssued (tStep 1 1 0) { Flight.start 0 0 with drained := true },
    { tIssued (tStep 1 1 0) { Flight.start 0 0 with drained := true } with cluster := 1 }] with
    partials := ps }

/-- It runs in REPRODUCIBLE mode, or in FAST mode. -/
def tReduceOn (repro : Bool) (ps : List Partial) : State :=
  tOnRun (tReduce ps) { tFrame 3 4 .opened with repro } tCells

/-- The value of a read which succeeds, and a test of one which ends in a fault. -/
def okOr {α : Type} (d : α) : Except Stop α → α
  | .ok a => a
  | .error _ => d

/-- See `okOr`. -/
def isOk {α : Type} : Except Stop α → Bool
  | .ok _ => true
  | .error _ => false

/-- See `okOr`. -/
def isFault {α : Type} (c a : Nat) : Except Stop α → Bool
  | .error (.fault x y) => x == c && y == a
  | _ => false

theorem okOr_eq {α : Type} {d : α} {x : Except Stop α} (h : isOk x = true) : x = .ok (okOr d x) := by
  cases x with
  | ok a => rfl
  | error e => cases h

theorem fault_eq {α : Type} {c a : Nat} {x : Except Stop α} (h : isFault c a x = true) : x = .error (.fault c a) := by
  match x, h with
  | .error (.fault y z), h =>
    simp only [isFault, Bool.and_eq_true, beq_iff_eq] at h
    rw [h.1, h.2]

/-- A lock-step link on port 7, and what the pair is. -/
def tPair (f : Lock → Lock) : State :=
  { tLink with
    lock := f { tLink.lock with st := .paired, secondary := true, forwarded := true }, nextId := 10
    outst := [{ id := 9, fn := 0, qp := 0, op := 0x84, tag := 5, chain := false }] }

/-- A digest of channel 3. -/
def tDigest : Digest :=
  { chan := 3, pairSeq := 7, flags := 0, tiles := 2, digest := 0x1234, conditions := 0, frameSeq := 4, prog := 1 }

/-- A failed chain cancels the rest of queue pair 3. -/
def tCancelled : State := tReady.modQp 0 3 fun q => { q with chainFailed := some 5 }

/-- A frame of channel-frame rows whose last command is a held one. -/
def tHeldCmd : State := tReady.modQp 0 1 fun q => { q with held := some ⟨0x99, tPacket specDevStatus 0 []⟩ }

/-- A state and operands which meet the hypotheses of each clause of `Obligations.DeviceQueriesAnswer`. -/
theorem test_DeviceQueriesAnswer :
    (∃ (fn : FnNo) (qp : QpNo) (p : Packet) (s : State), (Accepts specDevIdentify false fn qp p (fun _ =>
      badBuf p 8) (fun _ => none) s)) ∧
    (∃ (fn : FnNo) (qp : QpNo) (p : Packet) (s : State), (Accepts specDevStatus false fn qp p (fun _ =>
      badBuf p 8) (fun _ => none) s)) ∧
    (∃ (fn : FnNo) (qp : QpNo) (p : Packet) (s : State),
      (Accepts specPoolQuery false fn qp p (chkPoolQuery fn p) (fun _ => none) s)) :=
  ⟨⟨0, 0, (tPacket specDevIdentify 0 [(8, 4096)]), tReady, accepts_sound (by decide +kernel)⟩,
   ⟨1, 2, (tPacket specDevStatus 1 [(8, 4096)]), tReady, accepts_sound (by decide +kernel)⟩,
   ⟨0, 0, (tPacket specPoolQuery 0 [(8, 255)]), tLink, accepts_sound (by decide +kernel)⟩⟩

/-- A state and operands which meet the hypotheses of each clause of `Obligations.ObjectQueriesAnswer`. -/
theorem test_ObjectQueriesAnswer :
    (∃ (fn : FnNo) (qp : QpNo) (p : Packet) (s : State),
      (Accepts specStratumQuery false fn qp p (chkStratumQuery fn p) (fun _ => none) s)) ∧
    (∃ (fn : FnNo) (qp : QpNo) (p : Packet) (s : State),
      (Accepts specPortStatus false fn qp p (chkPortStatus fn p) (fun _ => none) s)) ∧
    (∃ (fn : FnNo) (qp : QpNo) (p : Packet) (s : State) (x : Chan),
      (Accepts specChanQuery false fn qp p (chkChanQuery fn p) (fun _ => none) s) ∧
      s.chan (Packet.chanNo p) = some x) ∧
    (∃ (fn : FnNo) (qp : QpNo) (p : Packet) (s : State) (x : Chan),
      (Accepts specQlinkStats false fn qp p (chkQlinkStats fn p) (fun _ => none) s) ∧
      s.chan (Packet.chanNo p) = some x) ∧
    (∃ (fn : FnNo) (qp : QpNo) (p : Packet) (s : State), (Accepts specPanelStatus false fn qp p (fun _ =>
      none) (fun _ => none) s)) ∧
    (∃ (fn : FnNo) (qp : QpNo) (p : Packet) (s : State),
      (Accepts specLockstepStatus false fn qp p (chkLockstepStatus fn p) (fun _ => none) s)) :=
  ⟨⟨1, 0, (tPacket specStratumQuery 1 [(8, 1), (16, 4096)]), tLink, accepts_sound (by decide +kernel)⟩,
   ⟨0, 0, (tPacket specPortStatus 0 [(8, 7), (16, 4096)]), tLink, accepts_sound (by decide +kernel)⟩,
   ⟨0, 0, (tPacket specChanQuery 0 [(8, 3), (16, 4096)]), tLink, (tChan 3 0 0 2 0),
     accepts_sound (by decide +kernel), by decide +kernel⟩,
   ⟨1, 0, (tPacket specQlinkStats 1 [(8, 5)]), tLink, (tChan 5 6 1 4 1), accepts_sound (by decide +kernel),
     by decide +kernel⟩,
   ⟨1, 3, (tPacket specPanelStatus 1 []), tReady, accepts_sound (by decide +kernel)⟩,
   ⟨0, 0, (tPacket specLockstepStatus 0 [(8, 1), (16, 4096)]), tReady, accepts_sound (by decide +kernel)⟩⟩

/-- A state and operands which meet the hypotheses of each clause of `Obligations.MemoryAndChannelSettings`. -/
theorem test_MemoryAndChannelSettings :
    (∃ (fn : FnNo) (qp : QpNo) (p : Packet) (s : State) (base : Nat), (Accepts specMemAlloc false fn qp p (fun _ =>
      chkMemAlloc p) (resMemAlloc fn p) s) ∧
      (s.taken fn qp).allocBase fn (Packet.memExt p) (Packet.memParts p) = some base) ∧
    (∃ (fn : FnNo) (qp : QpNo) (p : Packet) (s : State) (a : Alloc),
      (Accepts specMemFree false fn qp p (chkMemFree fn p) (fun _ => none) s) ∧
      (s.taken fn qp).namedAlloc fn p = some a) ∧
    (∃ (fn : FnNo) (qp : QpNo) (p : Packet) (s : State), (Accepts specMemMapExternal false fn qp p (fun _ =>
      chkMapExternal p) (fun _ => none) s)) ∧
    (∃ (fn : FnNo) (qp : QpNo) (p : Packet) (s : State),
      (Accepts specSlateSchedule false fn qp p (chkSlateSchedule fn p) (fun _ => none) s)) ∧
    (∃ (fn : FnNo) (qp : QpNo) (p : Packet) (host : HostData) (s : State),
      (Accepts specSlateContextLoad false fn qp p (chkSlateContextLoad fn p host) (fun _ => none) s)) ∧
    (∃ (fn : FnNo) (qp : QpNo) (p : Packet) (host : HostData) (s : State),
      (Accepts specSlateParamSet false fn qp p (chkSlateParamSet fn p host) (fun _ => none) s)) ∧
    (∃ (fn : FnNo) (qp : QpNo) (p : Packet) (s : State),
      (Accepts specQlinkConfig false fn qp p (chkQlinkConfig fn p) (fun _ => none) s)) :=
  ⟨⟨1, 0, (tPacket specMemAlloc 1 [(16, 0x10000)]), tReady, 0, accepts_sound (by decide +kernel), by decide +kernel⟩,
   ⟨1, 0, (tPacket specMemFree 1 [(16, 0)]), tAllocated, { base := 0, parts := [some 0], gen := 1 },
     accepts_sound (by decide +kernel), by decide +kernel⟩,
   ⟨1, 0, (tPacket specMemMapExternal 1 [(8, 0x0107FFF00000)]), tReady, accepts_sound (by decide +kernel)⟩,
   ⟨0, 0, (tPacket specSlateSchedule 0 [(8, 3), (10, 1), (12, 4096)]), tLink, accepts_sound (by decide +kernel)⟩,
   ⟨0, 0, tContextPacket, (.bytes tContext), tLink, accepts_of_chk tContext_accepted (by decide +kernel)⟩,
   ⟨0, 0, tSetPacket, (.bytes tSet), tLink, accepts_of_chk tSet_accepted (by decide +kernel)⟩,
   ⟨1, 0, (tPacket specQlinkConfig 1 [(8, 5), (11, 8), (16, 1)]), tLink, accepts_sound (by decide +kernel)⟩⟩

/-- A state and operands which meet the hypotheses of each clause of `Obligations.ShortCommandsComplete`. -/
theorem test_ShortCommandsComplete :
    (∃ (fn : FnNo) (qp : QpNo) (p : Packet) (s : State), (Accepts specDevSetPowerCap false fn qp p (fun _ => badField (decide (p.u16 8 < 50) || decide (175 < p.u16 8)) 8) (fun _ => none) s)) ∧
    (∃ (fn : FnNo) (qp : QpNo) (p : Packet) (s : State),
      Accepts specStratumCreate false fn qp p (chkStratumCreate p) (resStratumCreate p) s) ∧
    (∃ (fn : FnNo) (qp : QpNo) (p : Packet) (s : State), (Accepts specStratumSetMode false fn qp p (fun _ =>
      badField (p.u8 8 &&& (if fn.val = 0 then 0xE7 else 0xE5) != 0) 8) (fun _ => none) s)) ∧
    (∃ (fn : FnNo) (qp : QpNo) (p : Packet) (s : State), p.u8 8 ≠ 2 ∧
      Accepts specPoolConfig false fn qp p (chkSetSize p) (resSetSize p) s) ∧
    (∃ (fn : FnNo) (qp : QpNo) (p : Packet) (s : State), p.u8 8 = 2 ∧
      Accepts specPoolConfig false fn qp p (chkSetStratum p) (resSetStratum p) s) ∧
    (∃ (fn : FnNo) (qp : QpNo) (p : Packet) (s : State),
      Accepts specChanBind false fn qp p (chkChanBind p) (resChanBind p) s) ∧
    (∃ (fn : FnNo) (qp : QpNo) (p : Packet) (s : State),
      (Accepts specSlateOutputCfg false fn qp p (chkSlateOutputCfg fn p) (fun _ => none) s)) ∧
    (∃ (fn : FnNo) (qp : QpNo) (p : Packet) (s : State), (Accepts specLaunch false fn qp p (fun t =>
      (chkLaunchFields fn p 0x8E t).or (chkLaunchState fn p t)) (fun _ => none) s)) ∧
    (∃ (fn : FnNo) (qp : QpNo) (p : Packet) (s : State),
      (Accepts specFrameAbort false fn qp p (chkFrameAbort fn p) (fun _ => none) s)) ∧
    (∃ (fn : FnNo) (qp : QpNo) (p : Packet) (s : State) (u : Unit_),
      (Accepts specUnitReturn false fn qp p (chkUnitReturn p) (fun _ => none) s) ∧ unitOf (p.u16 8) = some u) ∧
    (∃ (fn : FnNo) (qp : QpNo) (p : Packet) (s : State), (Accepts specTelemetryRead false fn qp p (fun t => (badField (!groupOk (p.u8 8)) 8).or <| (badBuf p 16).or <| groupDenied t fn (p.u8 8) 8) (fun _ => none) s)) ∧
    (∃ (fn : FnNo) (qp : QpNo) (p : Packet) (s : State), (Accepts specCounterConfig false fn qp p (fun t => (badField (p.u8 8 != 1) 8).or <| (badField (!groupOk (p.u8 9)) 9).or <| (badField (!channelOk (p.u8 9) (p.u16 10)) 10).or <| (groupDenied t fn (p.u8 9) 9).or <| namedChannel t fn (p.u16 10)) (fun _ => none) s)) :=
  ⟨⟨0, 0, (tPacket specDevSetPowerCap 0 [(8, 50)]), tReady, accepts_sound (by decide +kernel)⟩,
   ⟨0, 0, (tPacket specStratumCreate 0 [(8, 15), (9, 6), (10, 63), (16, 0x8000000000000000)]), tReady,
     accepts_sound (by decide +kernel)⟩,
   ⟨1, 0, (tPacket specStratumSetMode 1 [(8, 26)]), tLink, accepts_sound (by decide +kernel)⟩,
   ⟨0, 0, (tPacket specPoolConfig 0 [(8, 1), (12, 4)]), tReady, by decide +kernel, accepts_sound (by decide +kernel)⟩,
   ⟨0, 0, (tPacket specPoolConfig 0 [(8, 2), (9, 1), (16, 4), (20, 8)]), tLink, by decide +kernel,
     accepts_sound (by decide +kernel)⟩,
   ⟨0, 0, (tPacket specChanBind 0 [(8, 4095), (10, 0), (11, 1), (12, 1023), (16, 2), (18, 2), (20, 800)]), tLink,
     accepts_sound (by decide +kernel)⟩,
   ⟨0, 0, (tPacket specSlateOutputCfg 0 [(8, 3)]), tLink, accepts_sound (by decide +kernel)⟩,
   ⟨0, 0, (tPacket specLaunch 0 [(8, 1), (10, 6), (11, 16), (16, 4096), (24, 8)]), tProgram,
     accepts_sound (by decide +kernel)⟩,
   ⟨0, 0, (tPacket specFrameAbort 0 [(8, 3)]), tLink, accepts_sound (by decide +kernel)⟩,
   ⟨0, 0, (tPacket specUnitReturn 0 [(8, 0x0100)]), tPassed, (.cluster 0), accepts_sound (by decide +kernel),
     by decide +kernel⟩,
   ⟨0, 0, (tPacket specTelemetryRead 0 [(8, 1), (16, 4096)]), tLink, accepts_sound (by decide +kernel)⟩,
   ⟨0, 0, (tPacket specCounterConfig 0 [(8, 1), (9, 128), (10, 3)]), tLink, accepts_sound (by decide +kernel)⟩⟩

/-- A state and operands which meet the hypotheses of each clause of `Obligations.SetArbitrationWaitsForRound`. -/
theorem test_SetArbitrationWaitsForRound :
    (∃ (fn : FnNo) (qp : QpNo) (p : Packet) (s : State),
      Accepts specStratumSetArbitration false fn qp p (chkSetArbitration p) (resSetArbitration p) s) :=
  ⟨0, 0, (tPacket specStratumSetArbitration 0 [(8, 1), (9, 1), (10, 63)]), tReady, accepts_sound (by decide +kernel)⟩

/-- A state and operands which meet the hypotheses of each clause of `Obligations.InterruptAndTickRegisters`. -/
theorem test_InterruptAndTickRegisters :
    (∃ (fn : FnNo) (s : State), s.barOpen fn = true) ∧
    (∃ (fn : FnNo) (s : State), s.barOpen fn = true) ∧
    (∃ (fn : FnNo) (s : State), s.barOpen fn = true) :=
  ⟨⟨1, tReady, by decide +kernel⟩,
   ⟨0, tHeads, by decide +kernel⟩,
   ⟨1, tReady, by decide +kernel⟩⟩

/-- A state and operands which meet the hypotheses of each clause of `Obligations.QueueEnables`. -/
theorem test_QueueEnables :
    (∃ (fn : FnNo) (qp : QpNo) (v : W32) (s : State), s.barOpen fn = true ∧ s.fns[fn].qps[qp].running = false ∧
      s.fns[fn].qps[qp].enable = false ∧ 4 ≤ (v.extractLsb' 16 4).toNat ∧ (v.extractLsb' 16 4).toNat ≤ 12 ∧
      4 ≤ (v.extractLsb' 20 4).toNat ∧ (v.extractLsb' 20 4).toNat ≤ 12) ∧
    (∃ (fn : FnNo) (qp : QpNo) (v : W32) (s : State), s.barOpen fn = true ∧ s.fns[fn].qps[qp].running = false ∧
      s.fns[fn].qps[qp].enable = false ∧
      (((v.extractLsb' 16 4).toNat < 4 ∨ 12 < (v.extractLsb' 16 4).toNat ∨ (v.extractLsb' 20 4).toNat < 4 ∨ 12 < (v.extractLsb' 20 4).toNat))) ∧
    (∃ (fn : FnNo) (qp : QpNo) (s : State), s.barOpen fn = true ∧ s.fns[fn].qps[qp].running = true ∧
      s.fns[fn].qps[qp].enable = true) ∧
    (∃ (fn : FnNo) (v : W32) (s : State), s.barOpen fn = true ∧ s.fns[fn].evq.running = false ∧
      s.fns[fn].evq.enable = false ∧ s.fns[fn].evq.held = [] ∧ 4 ≤ (v.extractLsb' 4 4).toNat ∧
      (v.extractLsb' 4 4).toNat ≤ 12) ∧
    (∃ (fn : FnNo) (v : W32) (s : State), s.barOpen fn = true ∧ s.fns[fn].evq.running = false ∧
      s.fns[fn].evq.enable = false ∧ (((v.extractLsb' 4 4).toNat < 4 ∨ 12 < (v.extractLsb' 4 4).toNat))) :=
  ⟨⟨0, 1, 0xC40001, tDisabled, by decide +kernel⟩,
   ⟨0, 1, 0xD40001, tDisabled, by decide +kernel⟩,
   ⟨0, 3, tHeads, by decide +kernel⟩,
   ⟨0, 0xABCDE0C1, tDisabled, by decide +kernel⟩,
   ⟨0, 0x31, tDisabled, by decide +kernel⟩⟩

/-- A state and operands which meet the hypotheses of each clause of `Obligations.DoorbellsAndHeads`. -/
theorem test_DoorbellsAndHeads :
    (∃ (fn : FnNo) (s : State), s.barOpen fn = true ∧ s.fns[fn].evq.running = true) ∧
    (∃ (fn : FnNo) (qp : QpNo) (v : W32) (s : State), s.barOpen fn = true ∧ s.fns[fn].qps[qp].running = true ∧
      (v.extractLsb' 0 12).toNat < 2 ^ s.fns[fn].qps[qp].sqLog2.toNat) ∧
    (∃ (fn : FnNo) (qp : QpNo) (v : W32) (s : State), s.barOpen fn = true ∧
      ((s.fns[fn].qps[qp].running = false ∨ 2 ^ s.fns[fn].qps[qp].sqLog2.toNat ≤ (v.extractLsb' 0 12).toNat))) ∧
    (∃ (fn : FnNo) (qp : QpNo) (v : W32) (s : State), s.barOpen fn = true ∧ s.fns[fn].qps[qp].running = true ∧
      (v.extractLsb' 0 12).toNat < 2 ^ s.fns[fn].qps[qp].cqLog2.toNat ∧
      ringSpan (2 ^ s.fns[fn].qps[qp].cqLog2.toNat) s.fns[fn].qps[qp].cqHead.toNat (v.extractLsb' 0 12).toNat ≤ s.fns[fn].qps[qp].cqUnreleased) ∧
    (∃ (fn : FnNo) (v : W32) (s : State), s.barOpen fn = true ∧ s.fns[fn].evq.running = true ∧
      s.fns[fn].evq.held = [] ∧ (v.extractLsb' 0 12).toNat < 2 ^ s.fns[fn].evq.log2.toNat ∧
      ringSpan (2 ^ s.fns[fn].evq.log2.toNat) s.fns[fn].evq.head.toNat (v.extractLsb' 0 12).toNat ≤ s.fns[fn].evq.unreleased) ∧
    (∃ (fn : FnNo) (v : W32) (s : State), s.barOpen fn = true ∧
      ((s.fns[fn].evq.running = false ∨ 2 ^ s.fns[fn].evq.log2.toNat ≤ (v.extractLsb' 0 12).toNat))) ∧
    (∃ (fn : FnNo) (qp : QpNo) (s : State), s.fns[fn].qps[qp].running = true ∧ s.fns[fn].qps[qp].held = none ∧
      s.fns[fn].qps[qp].awaiting = none ∧ s.fns[fn].qps[qp].reenable = false ∧ s.fns[fn].replyWaits qp = false) :=
  ⟨⟨0, tReady, by decide +kernel⟩,
   ⟨0, 2, 0xF, tReady, by decide +kernel⟩,
   ⟨0, 2, 0x10, tReady, by decide +kernel⟩,
   ⟨0, 3, 1, tHeads, by decide +kernel⟩,
   ⟨0, 2, tHeads, by decide +kernel⟩,
   ⟨0, 0x10, tReady, by decide +kernel⟩,
   ⟨0, 3, tReady, by decide +kernel⟩⟩

/-- A state and operands which meet the hypotheses of each clause of `Obligations.RegisterAccess`. -/
theorem test_RegisterAccess :
    (∃ (fn : FnNo) (off : BitVec 16) (s : State), s.barOpen fn = true ∧ off.toNat % 4 = 0) ∧
    (∃ (fn : FnNo) (off : BitVec 16) (s : State), s.barOpen fn = true ∧ bar0Legal off.toNat 8 = true) ∧
    (∃ (fn : FnNo) (qp : QpNo) (s : State), s.fns[fn].qps[qp].running = false) ∧
    (∃ (fn : FnNo) (qp : QpNo) (s : State), s.fns[fn].qps[qp].running = true) ∧
    (∃ (fn : FnNo) (off : BitVec 16) (n : Nat) (s : State), s.barOpen fn = true ∧ bar0Legal off.toNat n = false) ∧
    (∃ (fn : FnNo) (off : BitVec 16) (n : Nat) (s : State), s.barOpen fn = true ∧ bar0Legal off.toNat n = true ∧
      off.toNat ≠ 0x18) ∧
    (∃ (v : W32) (s : State), s.barOpen 0 = true ∧ v.getLsbD 12 = true) ∧
    (∃ (fn : FnNo) (s : State), s.fns[fn].pba = 0) ∧
    (∃ (fn : FnNo) (s : State) (v : Fin 64), s.fns[fn].pba.getLsbD v.val = true ∧ s.fns[fn].busMaster = true ∧
      s.fns[fn].msix[v].masked = false ∧ s.boot.linkL0 = true) :=
  ⟨⟨0, 0x0, tReady, by decide +kernel⟩,
   ⟨0, 0x8000, tDisabled, by decide +kernel⟩,
   ⟨0, 1, tDisabled, by decide +kernel⟩,
   ⟨0, 0, tReady, by decide +kernel⟩,
   ⟨1, 0x3, 4, tReady, by decide +kernel⟩,
   ⟨0, 0x8000, 8, tHeads, by decide +kernel⟩,
   ⟨0x1000, { tReady with sup := { tReady.sup with switched := true } }, by decide +kernel⟩,
   ⟨1, tReady, by decide +kernel⟩,
   ⟨0, tHeads, 63, by decide +kernel⟩⟩

/-- A state and operands which meet the hypotheses of each clause of `Obligations.ApertureAccess`. -/
theorem test_ApertureAccess :
    (∃ (fn : FnNo) (off : W32) (n : Nat) (b : List Byte) (s : State), s.barOpen fn = true ∧ s.bar2Stratum fn = true ∧
      s.slotServes fn = true ∧ s.bar2Bytes fn (s.bar2Addrs fn off.toNat n) = some b) ∧
    (∃ (fn : FnNo) (s : State), s.barOpen fn = true ∧ s.bar2Stratum fn = true ∧ s.slotServes fn = false) ∧
    (∃ (fn : FnNo) (s : State), s.barOpen fn = true ∧ s.bar2Stratum fn = false) ∧
    (∃ (fn : FnNo) (off : W32) (b : List Byte) (s : State) (t : State), s.barOpen fn = true ∧
      s.bar2Stratum fn = true ∧ s.slotServes fn = true ∧
      s.viewWrite fn ((s.bar2Addrs fn off.toNat b.length).zip b) = (t, none)) ∧
    (∃ (fn : FnNo) (s : State), s.barOpen fn = true ∧ s.bar2Stratum fn = false) :=
  ⟨⟨0, 16, 64, (List.replicate 64 0), tAperture, by decide +kernel⟩,
   ⟨1, tSlotted, by decide +kernel⟩,
   ⟨1, tUnmade, by decide +kernel⟩,
   ⟨0, 65532, [1, 2, 3, 4], tAperture, ((tAperture.viewWrite 0 ((tAperture.bar2Addrs 0 65532 4).zip [1, 2, 3,
     4])).1), by decide +kernel⟩,
   ⟨1, tUnmade, by decide +kernel⟩⟩

/-- A state and operands which meet the hypotheses of each clause of `Obligations.BoardInterfaces`. -/
theorem test_BoardInterfaces :
    (∃ (code : BitVec 8) (s : State), s.jtagAnswers = true ∧ jtagOther code = true) ∧
    (∃ (s : State), s.jtagAnswers = true) ∧
    (∃ (s : State), s.jtagAnswers = true) ∧
    (∃ (s : State), s.jtagAnswers = true) ∧
    (∃ (code : BitVec 8) (s : State), s.jtagAnswers = true ∧ 0x80 ≤ code.toNat ∧ code.toNat < 0x90 ∧ ((∀ n : FnNo,
      s.strata[n].sealed = true → s.strata[n].live = false ∧ s.strata[n].destroying = false))) ∧
    (∃ (code : BitVec 8) (n : FnNo) (s : State), s.jtagAnswers = true ∧ 0x80 ≤ code.toNat ∧ code.toNat < 0x90 ∧
      s.strata[n].sealed = true ∧ ((s.strata[n].live = true ∨ s.strata[n].destroying = true))) ∧
    (∃ (c : Instr) (s : State), c ∈ [.bypass 0xFF, .idcode, .samplePreload, .extest, .privateDebug ⟨0x80, false⟩] ∧
      s.sup.power ≠ .standby ∧ s.sup.power ≠ .active) ∧
    (∃ (c : Fin 4) (s : State), s.sup.power = .active ∧ s.cageOff c = none) ∧
    (∃ (c : Fin 4) (s : State) (since : Tick), s.sup.power = .active ∧ s.cageOff c = some since) ∧
    (∃ (s : State), s.supplied = true) ∧
    (∃ (code : BitVec 8) (proto : BitVec 8) (write : Bool) (s : State), s.supplied = true ∧
      ((write = true ∨ smbusProtocol code ≠ some proto))) ∧
    (∃ (c : Instr) (s : State), c ∈ [.smbusProduct, .smbusOrder, .smbusSerial, .smbusFwVersion, .smbusSupplyStatus,
      .smbusVinMain, .smbusVinAux, .smbusPowerState, .smbusTJ, .smbusCardTemperature, .smbusState,
      .smbusNack 0xFF false 1] ∧ s.supplied = false) :=
  ⟨⟨0xC3, tReady, by decide +kernel⟩,
   ⟨tReady, by decide +kernel⟩,
   ⟨tReady, by decide +kernel⟩,
   ⟨tReady, by decide +kernel⟩,
   ⟨0x8F, tReady, by decide +kernel⟩,
   ⟨0x80, 1, tSealed, by decide +kernel⟩,
   ⟨(.privateDebug ⟨0x80, false⟩), tOff, by decide +kernel⟩,
   ⟨3, tReady, by decide +kernel⟩,
   ⟨2, tCage, 77, by decide +kernel⟩,
   ⟨tReady, by decide +kernel⟩,
   ⟨0x10, 1, false, tReady, by decide +kernel⟩,
   ⟨(.smbusNack 0xFF false 1), tOff, by decide +kernel⟩⟩

/-- A state and operands which meet the hypotheses of each clause of `Obligations.ExternalMemoryUpkeep`. -/
theorem test_ExternalMemoryUpkeep :
    (∃ (c : ExtNo) (p : Nat) (s : State), s.position c = some p ∧ s.channelServes c = true ∧
      s.ext.fixedRefresh = true ∧ s.tick.toNat + 1536 < 2 ^ 64) ∧
    (∃ (c : ExtNo) (p : Nat) (s : State), s.position c = some p ∧ s.channelServes c = true ∧
      s.tick.toNat + 2 ^ 25 < 2 ^ 64) ∧
    (∃ (c : ExtNo) (p : Nat) (s : State), s.position c = some p ∧ s.channelServes c = true) ∧
    (∃ (c : ExtNo) (k : Nat) (s : State), s.channelServes c = true ∧ k < s.channelWords ∧
      s.slots.table[s.slotPos] = none) ∧
    (∃ (c : ExtNo) (k : Nat) (s : State), s.channelServes c = true ∧ k < s.channelWords ∧
      s.slots.table[s.slotPos] = none) ∧
    (∃ (c : ExtNo) (k : Nat) (s : State), s.channelServes c = true ∧ k < s.channelWords ∧
      s.slots.table[s.slotPos] = none ∧ ((∀ e ∈ s.ext.events, e.1 ≠ c))) :=
  ⟨⟨7, 7, tFixed, by decide +kernel⟩,
   ⟨4, 1, tReady, by decide +kernel⟩,
   ⟨0, 0, tReady, by decide +kernel⟩,
   ⟨7, 1, tReady, by decide +kernel⟩,
   ⟨0, 0, tReady, by decide +kernel⟩,
   ⟨5, 16777215, tReady, by decide +kernel⟩⟩

/-- A state and operands which meet the hypotheses of each clause of `Obligations.RoundsAndSlots`. -/
theorem test_RoundsAndSlots :
    (∃ (s : State), s.arbitrates = true ∧ s.tick.toNat + 2 ^ 20 < 2 ^ 64) ∧
    (∃ (s : State), s.arbitrates = true ∧ s.tick.toNat + 2 ^ 20 < 2 ^ 64) :=
  ⟨⟨tRound, by decide +kernel⟩,
   ⟨tReady, by decide +kernel⟩⟩

/-- A state and operands which meet the hypotheses of each clause of `Obligations.TeardownEnds`. -/
theorem test_TeardownEnds :
    (∃ (n : FnNo) (s : State), s.strata[n].destroying = true) :=
  ⟨1, tDestroying, by decide +kernel⟩

/-- A state and operands which meet the hypotheses of each clause of `Obligations.PoolEvents`. -/
theorem test_PoolEvents :
    (∃ (s : State) (c : Chan) (b : Nat), s.nextGrant = some c ∧ s.grantee = some b ∧ s.lock.area = []) ∧
    (∃ (n : Nat) (s : State), ((∃ b ∈ s.geo.bufs, b.num = n ∧ b.state = .zeroing))) ∧
    (∃ (c : Nat) (x : Chan) (since : Tick) (s : State), s.chan c = some x ∧ x.starvedSince = some since ∧
      x.starvedSent = false) :=
  ⟨⟨tWaits, tWaits.chans[0], (tWaits.grantee.getD 0), by decide +kernel⟩,
   ⟨3, tZeroing, by decide +kernel⟩,
   ⟨3, (tStarved.chans[0]), 10, tStarved, by decide +kernel⟩⟩

/-- A state and operands which meet the hypotheses of each clause of `Obligations.AcceptanceReserves`. -/
theorem test_AcceptanceReserves :
    (∃ (acc : Nat → State → State) (s : State), ((∀ id u, Grows u (acc id u) ∧ (acc id u).tick = u.tick ∧
      (acc id u).boot = u.boot)) ∧ s.boot.linkL0 = true) :=
  ⟨(fun _ t => t), tReady, fun _ u => ⟨⟨⟨[], by simp⟩, fun _ => ⟨rfl, [], by simp⟩⟩, rfl, rfl⟩, by decide +kernel⟩

/-- A state and operands which meet the hypotheses of each clause of `Obligations.LongCommandsAccepted`. -/
theorem test_LongCommandsAccepted :
    (∃ (fn : FnNo) (qp : QpNo) (p : Packet) (s : State),
      (Accepts specStratumDestroy true fn qp p (chkStratumDestroy p) (fun _ => none) s)) ∧
    (∃ (fn : FnNo) (qp : QpNo) (p : Packet) (s : State),
      (Accepts specCopy true fn qp p (chkCopy .copy fn p) (fun _ => none) s)) ∧
    (∃ (fn : FnNo) (qp : QpNo) (p : Packet) (s : State),
      (Accepts specCopyFill true fn qp p (chkCopy .fill fn p) (fun _ => none) s)) ∧
    (∃ (fn : FnNo) (qp : QpNo) (p : Packet) (s : State),
      (Accepts specCopyChecksum true fn qp p (chkCopy .checksum fn p) (fun _ => none) s)) ∧
    (∃ (fn : FnNo) (qp : QpNo) (p : Packet) (s : State),
      (Accepts specChanRoute true fn qp p (chkChanRoute fn p) (fun _ => none) s)) ∧
    (∃ (fn : FnNo) (qp : QpNo) (p : Packet) (s : State),
      (Accepts specChanUnbind true fn qp p (chkChanUnbind p) (fun _ => none) s)) ∧
    (∃ (fn : FnNo) (qp : QpNo) (p : Packet) (host : HostData) (s : State) (v : Nat × List Nat × List (Nat × Nat)),
      ((s.unmapped fun h => h == fn) = none) ∧
      Accepts specProgLoad true fn qp p (chkProgLoad fn p host) (resProgLoad fn p host) s ∧
      (s.selection (s.newProg fn p (hostBytes host 256) s.nextId)) = some v) ∧
    (∃ (fn : FnNo) (qp : QpNo) (p : Packet) (host : HostData) (s : State) (u : State),
      Ready s fn qp specProgLoad.op true p ∧ u = (s.taken fn qp).atProgLoad fn qp p host ∧
      u.fns[fn].qps[qp].chainFailed = none ∧
      validate specProgLoad fn p (chkProgLoad fn p host u) (resProgLoad fn p host u) u = none) ∧
    (∃ (fn : FnNo) (qp : QpNo) (p : Packet) (s : State), (Accepts specProgUnload true fn qp p (fun t =>
      (badProgId p).or (badState (t.loadedProg fn (p.u8 8).toNat).isNone)) (fun _ => none) s)) ∧
    (∃ (fn : FnNo) (qp : QpNo) (p : Packet) (s : State), (Accepts specTableLoad true fn qp p (fun _ =>
      chkSlotLoad p (decide (1 < (p.u8 9).toNat))) (fun _ => none) s)) ∧
    (∃ (fn : FnNo) (qp : QpNo) (p : Packet) (s : State), (Accepts specMicroprogLoad true fn qp p (fun _ => chkSlotLoad p (p.u8 9 == 0 || decide (64 < (p.u8 9).toNat))) (fun _ => none) s)) ∧
    (∃ (fn : FnNo) (qp : QpNo) (p : Packet) (s : State),
      (Accepts specLaunchAtTick true fn qp p (chkLaunchAtTick fn p) (fun _ => none) s)) ∧
    (∃ (fn : FnNo) (qp : QpNo) (p : Packet) (s : State), (Accepts specBarrier true fn qp p (fun _ => none) (fun _ =>
      none) s)) ∧
    (∃ (fn : FnNo) (qp : QpNo) (p : Packet) (s : State),
      (Accepts specEventWait true fn qp p (chkEventWait fn p) (fun _ => none) s)) ∧
    (∃ (fn : FnNo) (qp : QpNo) (p : Packet) (s : State), (Accepts specFaultLogRead true fn qp p (fun _ =>
      chkFaultLogRead p) (fun _ => none) s)) :=
  ⟨⟨0, 0, (tPacket specStratumDestroy 0 [(8, 1)]), tReady, accepts_sound (by decide +kernel)⟩,
   ⟨0, 0, (tPacket specCopy 0 [(8, 0), (16, 4096), (24, 64), (32, 64), (40, 64), (44, 1), (46, 1), (50, 255)]),
     tArenas, accepts_sound (by decide +kernel)⟩,
   ⟨0, 0, (tPacket specCopyFill 0 [(8, 255), (16, 4096), (32, 64), (40, 64), (44, 1), (46, 1), (50, 3)]), tArenas,
     accepts_sound (by decide +kernel)⟩,
   ⟨0, 0, (tPacket specCopyChecksum 0 [(8, 4096), (24, 64), (40, 64), (44, 1), (46, 1), (50, 0), (51, 1)]), tArenas,
     accepts_sound (by decide +kernel)⟩,
   ⟨0, 0, (tPacket specChanRoute 0 [(8, 3), (10, 255), (12, 1), (13, 7)]), tRoutable,
     accepts_sound (by decide +kernel)⟩,
   ⟨0, 0, (tPacket specChanUnbind 0 [(8, 3)]), tLink, accepts_sound (by decide +kernel)⟩,
   ⟨1, 0, (tPacket specProgLoad 1 [(8, 4096), (16, 512), (24, 0)]), (.bytes tHeader), tArenas,
     ((tArenas.selection (tArenas.newProg 1 (tPacket specProgLoad 1 [(8, 4096), (16, 512), (24,
     0)]) (hostBytes (.bytes tHeader) 256) tArenas.nextId)).getD default), by decide +kernel,
     accepts_sound (by decide +kernel), by decide +kernel⟩,
   ⟨1, 0, (tPacket specProgLoad 1 [(8, 4096), (16, 512), (24, 0)]), (.bytes tHeader), tUnmapped, _,
     ready_sound (by decide +kernel), rfl, by decide +kernel⟩,
   ⟨0, 0, (tPacket specProgUnload 0 [(8, 1)]), tProgram, accepts_sound (by decide +kernel)⟩,
   ⟨0, 0, (tPacket specTableLoad 0 [(8, 7), (9, 1), (16, 4096)]), tReady, accepts_sound (by decide +kernel)⟩,
   ⟨0, 0, (tPacket specMicroprogLoad 0 [(8, 7), (9, 64), (16, 4096)]), tReady, accepts_sound (by decide +kernel)⟩,
   ⟨0, 0, (tPacket specLaunchAtTick 0 [(8, 1), (10, 6), (11, 4), (16, 4096), (24, 8), (32, 1000000)]), tProgram,
     accepts_sound (by decide +kernel)⟩,
   ⟨0, 0, (tPacket specBarrier 0 []), tReady, accepts_sound (by decide +kernel)⟩,
   ⟨0, 0, (tPacket specEventWait 0 [(8, 2), (10, 3), (16, 7), (24, 0)]), tLink, accepts_sound (by decide +kernel)⟩,
   ⟨0, 0, (tPacket specFaultLogRead 0 [(8, 0), (12, 1024), (16, 4096)]), tReady, accepts_sound (by decide +kernel)⟩⟩

/-- A state and operands which meet the hypotheses of each clause of `Obligations.LongCommandsBegin`. -/
theorem test_LongCommandsBegin :
    (∃ (fn : FnNo) (qp : QpNo) (p : Packet) (s : State) (c : BitVec 8), (Accepts specDevSetClockPlan true fn qp p (fun _ => badField (p.u8 8 == 0 || decide (7 < p.u8 8)) 8) (fun t => supplyLow t.sup.cap70 t.supplyStatus) s) ∧ c = ({ s with plans := { s.plans with selected := p.u8 8 } } : State).planCalled) ∧
    (∃ (fn : FnNo) (qp : QpNo) (p : Packet) (s : State), p.u8 9 ≠ 2 ∧ p.u8 9 ≠ 3 ∧
      (Accepts specPortTrain true fn qp p (chkTrain p) (fun _ => none) s)) ∧
    (∃ (fn : FnNo) (qp : QpNo) (p : Packet) (s : State), p.u8 9 = 2 ∧
      (Accepts specPortTrain true fn qp p (chkTrain p) (fun _ => none) s)) ∧
    (∃ (fn : FnNo) (qp : QpNo) (p : Packet) (s : State), p.u8 9 = 3 ∧
      (Accepts specPortTrain true fn qp p (chkTrain p) (fun _ => none) s)) ∧
    (∃ (fn : FnNo) (qp : QpNo) (p : Packet) (s : State),
      (Accepts specPortSetWidth true fn qp p (chkSetWidth p) (fun _ => none) s)) ∧
    (∃ (fn : FnNo) (qp : QpNo) (p : Packet) (s : State), (Accepts specTickSync true fn qp p (chkTickSync p) (fun _ =>
      none) s)) ∧
    (∃ (fn : FnNo) (qp : QpNo) (p : Packet) (s : State) (u : Unit_), (Accepts specUnitFence true fn qp p (fun _ =>
      (badUnit p).or (badField (decide (1 < p.u8 10)) 10)) (fun _ => none) s) ∧ unitOf (p.u16 8) = some u) ∧
    (∃ (fn : FnNo) (qp : QpNo) (p : Packet) (s : State) (u : Unit_), (Accepts specUnitSelftest true fn qp p (fun t =>
      (badUnit p).or (badState (!t.unitDown p))) (fun _ => none) s) ∧ unitOf (p.u16 8) = some u) ∧
    (∃ (fn : FnNo) (qp : QpNo) (p : Packet) (s : State) (l : LogNo),
      (Accepts specClusterRemap true fn qp p (chkClusterRemap p) (fun _ => none) s) ∧
      s.logicalOf (toPhys (p.u8 8)) = some l) ∧
    (∃ (fn : FnNo) (qp : QpNo) (p : Packet) (s : State), (Accepts specNvRead true fn qp p (chkNvRead fn p) (fun _ =>
      none) s)) ∧
    (∃ (fn : FnNo) (qp : QpNo) (p : Packet) (s : State),
      Accepts specNvWrite true fn qp p (chkNvWrite p) State.gateCheck s) ∧
    (∃ (fn : FnNo) (qp : QpNo) (p : Packet) (s : State), (Accepts specFwStage true fn qp p (fun _ =>
      chkSource p 0xFFF000) State.gateCheck s)) ∧
    (∃ (fn : FnNo) (qp : QpNo) (p : Packet) (s : State), (Accepts specFwCommit true fn qp p (fun t =>
      badState (!t.nv.staged)) State.gateCheck s)) ∧
    (∃ (fn : FnNo) (qp : QpNo) (p : Packet) (s : State), (Accepts specCalStore true fn qp p (fun _ =>
      chkSource p 0x1FF000) State.gateCheck s)) ∧
    (∃ (fn : FnNo) (qp : QpNo) (p : Packet) (s : State),
      Accepts specPanelDraw true fn qp p (chkPanelDraw fn p) State.gateCheck s) ∧
    (∃ (fn : FnNo) (qp : QpNo) (p : Packet) (s : State), p.u8 8 ≠ 2 ∧
      (Accepts specLockstepPair true fn qp p (fun t => (chkPairFields p).or (chkPairState p t)) (fun _ => none) s) ∧
      ((∀ x ∈ s.lock.peerRec, pairWait < s.tick - x.1))) ∧
    (∃ (fn : FnNo) (qp : QpNo) (p : Packet) (s : State), p.u8 8 ≠ 2 ∧
      (Accepts specLockstepPair true fn qp p (fun t => (chkPairFields p).or (chkPairState p t)) (fun _ => none) s)) ∧
    (∃ (fn : FnNo) (qp : QpNo) (p : Packet) (s : State), p.u8 8 = 2 ∧ (Accepts specLockstepPair true fn qp p (fun t => (chkPairFields p).or (badState (t.lock.st != .paired || t.lock.target != toFn (p.u8 11) || !t.liveStrata.contains (toFn (p.u8 11))))) (fun _ => none) s)) :=
  ⟨⟨0, 0, (tPacket specDevSetClockPlan 0 [(8, 7)]), tReady, _, accepts_sound (by decide +kernel), rfl⟩,
   ⟨0, 0, (tPacket specPortTrain 0 [(8, 5), (9, 1), (11, 4), (12, 100)]), tReady, by decide +kernel,
     by decide +kernel, accepts_sound (by decide +kernel)⟩,
   ⟨0, 0, (tPacket specPortTrain 0 [(8, 6), (9, 2), (11, 4)]), tLink, by decide +kernel,
     accepts_sound (by decide +kernel)⟩,
   ⟨0, 0, (tPacket specPortTrain 0 [(8, 7), (9, 3)]), tLink, by decide +kernel, accepts_sound (by decide +kernel)⟩,
   ⟨0, 0, (tPacket specPortSetWidth 0 [(8, 6), (9, 2)]), tLink, accepts_sound (by decide +kernel)⟩,
   ⟨0, 0, (tPacket specTickSync 0 [(8, 6), (9, 1)]), tLink, accepts_sound (by decide +kernel)⟩,
   ⟨0, 0, (tPacket specUnitFence 0 [(8, 0x0303), (10, 1)]), tLink, ((unitOf 0x0303).getD (.slate 0)),
     accepts_sound (by decide +kernel), by decide +kernel⟩,
   ⟨0, 0, (tPacket specUnitSelftest 0 [(8, 0x0105)]), tFenced, (.cluster 5), accepts_sound (by decide +kernel),
     by decide +kernel⟩,
   ⟨0, 0, (tPacket specClusterRemap 0 [(8, 0), (9, 71)]), tReady, 0, accepts_sound (by decide +kernel),
     by decide +kernel⟩,
   ⟨0, 0, (tPacket specNvRead 0 [(8, 1), (12, 0), (16, 256), (24, 4096)]), tReady, accepts_sound (by decide +kernel)⟩,
   ⟨0, 0, (tPacket specNvWrite 0 [(8, 7), (12, 0), (16, 4096), (24, 4096)]), tReady,
     accepts_sound (by decide +kernel)⟩,
   ⟨0, 0, (tPacket specFwStage 0 [(8, 4096), (16, 256)]), tReady, accepts_sound (by decide +kernel)⟩,
   ⟨0, 0, (tPacket specFwCommit 0 []), tSynced, accepts_sound (by decide +kernel)⟩,
   ⟨0, 0, (tPacket specCalStore 0 [(8, 4096), (16, 256)]), tReady, accepts_sound (by decide +kernel)⟩,
   ⟨0, 0, (tPacket specPanelDraw 0 [(8, 9), (16, 4096)]), tReady, accepts_sound (by decide +kernel)⟩,
   ⟨0, 0, (tPacket specLockstepPair 0 [(8, 1), (9, 1), (10, 0), (11, 1)]), tSynced, by decide +kernel,
     accepts_sound (by decide +kernel), by decide +kernel⟩,
   ⟨0, 0, (tPacket specLockstepPair 0 [(8, 1), (9, 1), (10, 0), (11, 1)]), tSynced, by decide +kernel,
     accepts_sound (by decide +kernel)⟩,
   ⟨0, 0, (tPacket specLockstepPair 0 [(8, 2), (11, 1)]), tPaired, by decide +kernel,
     accepts_sound (by decide +kernel)⟩⟩

/-- A state and operands which meet the hypotheses of each clause of `Obligations.CompletionRecord`. -/
theorem test_CompletionRecord :
    (∃ (s : State) (o : Outst) (st : W16) (d : W16) (r0 : W64) (r1 : W64) (data : BitVec 192) (p : _),
      ((s.outst.find? fun p => p.id = o.id) = some o) ∧ p ∈ (s.complete o.id st d r0 r1 data).outst) ∧
    (∃ (s : State) (o : Outst) (p : _), ((s.outst.find? fun p => p.id = o.id) = some o) ∧ p ∈ s.outst ∧ p.id ≠ o.id) ∧
    (∃ (s : State) (o : Outst), ((s.outst.find? fun p => p.id = o.id) = some o) ∧ s.fns[o.fn].busMaster = true ∧
      s.boot.fatal = false ∧ s.boot.linkL0 = true ∧ s.fns[o.fn].evq.held = [] ∧ s.fns[o.fn].evq.running = true ∧
      s.fns[o.fn].evq.reserved ≠ 0 ∧ s.fns[o.fn].evq.unreleased < 2 ^ s.fns[o.fn].evq.log2.toNat - 1) ∧
    (∃ (s : State) (o : Outst) (st : W16), ((s.outst.find? fun p => p.id = o.id) = some o) ∧ o.chain = true ∧
      st ≠ stOk) ∧
    (∃ (s : State) (o : Outst), ((s.outst.find? fun p => p.id = o.id) = some o)) :=
  ⟨⟨tTwo, tOutst, 0, 0, 1, 2, 3, tTwo.outst[0], by decide +kernel⟩,
   ⟨tTwo, tOutst, tTwo.outst[0], by decide +kernel⟩,
   ⟨tTwo, tOutst, by decide +kernel⟩,
   ⟨tTwo, tOutst, 0x0A, by decide +kernel⟩,
   ⟨tTwo, tOutst, by decide +kernel⟩⟩

/-- A state and operands which meet the hypotheses of each clause of `Obligations.PowerPlansAndThermalCap`. -/
theorem test_PowerPlansAndThermalCap :
    (∃ (p : BitVec 8) (s : State), s.plans.installing = some p) ∧
    (∃ (n : Fin 83) (v : Int) (s : State), s.sensorPowered n = true ∧ s.thermal.failed.getLsbD n.val = false ∧
      -320 ≤ v ∧ v ≤ 1200 ∧ ((s.thermal.readings[n] = 0x8000 ∨ (v - s.thermal.readings[n].toInt).natAbs ≤ 160))) ∧
    (∃ (n : Fin 83) (v : Int) (s : State), s.sensorPowered n = true ∧ s.thermal.failed.getLsbD n.val = false ∧
      ((v < -320 ∨ 1200 < v))) ∧
    (∃ (v : Int) (s : State), s.supplied = true ∧ s.boot.inReset = false ∧ s.thermal.failed.getLsbD 82 = false ∧
      -320 ≤ v ∧ v ≤ 1200 ∧
      ((s.thermal.readings[(82 : Fin 83)] = 0x8000 ∨ (v - s.thermal.readings[(82 : Fin 83)].toInt).natAbs ≤ 160))) ∧
    (∃ (l : List Int) (s : State) (u : State), s.watching = true ∧ s.sup.power = .active ∧ (u = s.forEach ((List.finRange 83).filter fun n => n.val < 82) (fun n t => match l[n.val]? with | some v => t.sampleSensor n v | none => t)) ∧ u.watching = true ∧ u.sup.power = .active ∧ u.dieBlind = false ∧ u.thermal.tj ≠ 0x8000) ∧
    (∃ (s : State), s.watching = true ∧ s.thermal.capped = true ∧ s.thermal.sensorCap = false) ∧
    (∃ (due : Tick) (s : State), s.thermal.releaseDue = some due ∧ s.watching = true ∧ s.thermal.capped = true ∧
      s.thermal.sensorCap = false) :=
  ⟨⟨4, { tReady with plans := { tReady.plans with installing := some 4, selected := 4 } }, by decide +kernel⟩,
   ⟨0, -320, tReady, by decide +kernel⟩,
   ⟨81, 1201, tReady, by decide +kernel⟩,
   ⟨560, tWarm, by decide +kernel⟩,
   ⟨(List.replicate 82 920), tHot, (State.forEach tHot ((List.finRange 83).filter fun n => n.val < 82) (fun (n : Fin 83) (t : State) => match (List.replicate 82 920)[n.val]? with | some v => t.sampleSensor n v | none => t)), by decide +kernel, by decide +kernel, rfl, by decide +kernel⟩,
   ⟨tCapped, by decide +kernel⟩,
   ⟨800000, tCapped, by decide +kernel⟩⟩

/-- A state and operands which meet the hypotheses of each clause of `Obligations.EngineJobs`. -/
theorem test_EngineJobs :
    (∃ (e : EngNo) (n : FnNo) (j : CopyJob) (s : State), s.units.copies[e].up = true ∧ (((s.copies.filter fun x => x.engine == e && x.stratum == n).head?) = some j) ∧ ((∀ x ∈ s.copies, x.engine = e → x.stratum = n → x.started = false)) ∧ s.slotServes n = true ∧ (((j.srcHost || j.dstHost) = true → s.fns[n].busMaster = true))) ∧
    (∃ (e : EngNo) (n : FnNo) (j : CopyJob) (host : List Byte) (ws : List (Nat × List Byte)) (k : Nat) (s : State) (u : State), ((s.copies.find? fun (x : CopyJob) => x.engine == e && x.stratum == n && x.started) = some j) ∧ s.slotServes n = true ∧ (((j.srcHost || j.dstHost) = true → s.fns[n].busMaster = true)) ∧ (s.readElements j (fun i => (host[i]?).getD 0) 0 (j.order j.traversal) = (ws, none)) ∧ s.writeElements j ws = (u, k, none) ∧ j.kind ≠ .checksum) ∧
    (∃ (e : EngNo) (n : FnNo) (j : CopyJob) (host : List Byte) (ws : List (Nat × List Byte)) (s : State), ((s.copies.find? fun (x : CopyJob) => x.engine == e && x.stratum == n && x.started) = some j) ∧ s.slotServes n = true ∧ (((j.srcHost || j.dstHost) = true → s.fns[n].busMaster = true)) ∧ (s.readElements j (fun i => (host[i]?).getD 0) 0 (j.order j.traversal) = (ws, none)) ∧ j.kind = .checksum) ∧
    (∃ (e : EngNo) (n : FnNo) (d : Delivery) (s : State), s.units.copies[e].up = true ∧
      (((s.deliveries.filter fun x => x.engine == e && x.stratum == n).head?) = some d) ∧ ((∀ x ∈ s.deliveries,
      x.engine = e → x.stratum = n → x.started = false)) ∧ s.slotServes n = true ∧ s.fns[n].busMaster = true) ∧
    (∃ (e : EngNo) (n : FnNo) (d : Delivery) (s : State), ((s.deliveries.find? fun x =>
      x.engine == e && x.stratum == n && x.started) = some d) ∧ s.boot.linkL0 = true ∧ s.slotServes n = true ∧
      s.fns[n].busMaster = true) ∧
    (∃ (e : EngNo) (s : State), s.piece e = none ∧ s.units.slates[e].up = true ∧ ((∃ x ∈ s.chans,
      s.slotServes x.stratum = true ∧ (s.offered e x).isSome = true))) ∧
    (∃ (e : EngNo) (p : Piece) (s : State), s.piece e = some p ∧ s.frame p.chan p.seq = none) ∧
    (∃ (e : EngNo) (p : Piece) (f : Frame) (x : Chan) (s : State), s.piece e = some p ∧
      s.frame p.chan p.seq = some f ∧ s.chan p.chan = some x ∧ ((∀ d ∈ s.deliveries, d.chan ≠ p.chan))) :=
  ⟨⟨3, 0, tJob, (tCopying tJob), by decide +kernel⟩,
   ⟨3, 0, tJobCopy, [], (((tCopying tJobCopy).readElements tJobCopy (fun i =>
     (([] : List Byte)[i]?).getD 0) 0 ((tJobCopy).order 1)).1),
     ((tCopying tJobCopy).writeElements tJobCopy (((tCopying tJobCopy).readElements tJobCopy (fun i =>
     (([] : List Byte)[i]?).getD 0) 0 ((tJobCopy).order 1)).1)).2.1, (tCopying tJobCopy),
     (((tCopying tJobCopy).writeElements tJobCopy (((tCopying tJobCopy).readElements tJobCopy (fun i =>
     (([] : List Byte)[i]?).getD 0) 0 ((tJobCopy).order 1)).1)).1), by decide +kernel, by decide +kernel,
     by decide +kernel, pair_none (by decide +kernel), triple_none (by decide +kernel), by decide +kernel⟩,
   ⟨3, 0, tJobSum, [], (((tCopying tJobSum).readElements tJobSum (fun i =>
     (([] : List Byte)[i]?).getD 0) 0 ((tJobSum).order 1)).1), (tCopying tJobSum), by decide +kernel,
     by decide +kernel, by decide +kernel, pair_none (by decide +kernel), by decide +kernel⟩,
   ⟨1, 0, ((tCopying tJob).deliveries[0]), (tCopying tJob), by decide +kernel⟩,
   ⟨1, 0, ((tCopying tJobCopy).deliveries[0]), (tCopying tJobCopy), by decide +kernel⟩,
   ⟨0, tOffered, by decide +kernel⟩,
   ⟨0, { chan := 3, seq := 4, first := 0, last := 8 }, { tPieces with frames := [] }, by decide +kernel⟩,
   ⟨0, { chan := 3, seq := 4, first := 0, last := 8 }, (tPieces.frames[0]), (tPieces.chans[0]), tPieces,
     by decide +kernel⟩⟩

/-- A state and operands which meet the hypotheses of each clause of `Obligations.ViewWriteFrame`. -/
theorem test_ViewWriteFrame :
    (∃ (s : State) (t : State) (n : FnNo) (ws : List (Nat × Byte)) (a : _), s.viewWrite n ws = (t, none) ∧
      ((∀ w ∈ ws, s.locate n w.1 ≠ .geode a))) ∧
    (∃ (s : State) (t : State) (n : FnNo) (ws : List (Nat × Byte)) (c : PhysNo) (o : Nat), s.viewWrite n ws = (t,
      none) ∧ ((∀ w ∈ ws, s.locate n w.1 ≠ .scratch c o))) ∧
    (∃ (s : State) (t : State) (n : FnNo) (ws : List (Nat × Byte)) (o : _), s.viewWrite n ws = (t, none) ∧
      ((∀ w ∈ ws, ∀ g va, s.locate n w.1 ≠ .ext o g va))) ∧
    (∃ (s : State) (t : State) (n : FnNo) (ws : List (Nat × Byte)), s.viewWrite n ws = (t, none)) ∧
    (∃ (s : State) (t : State) (n : FnNo) (a : Nat) (v : Byte), s.viewWrite n [(a, v)] = (t, none)) :=
  ⟨⟨tArenas, ((tArenas.viewWrite 0 [(65535, 7), (0, 9)]).1), 0, [(65535, 7), (0, 9)], 70000, by decide +kernel⟩,
   ⟨tArenas, ((tArenas.viewWrite 0 [(65535, 7), (0, 9)]).1), 0, [(65535, 7), (0, 9)], 71, 3, by decide +kernel⟩,
   ⟨tArenas, ((tArenas.viewWrite 0 [(65535, 7), (0, 9)]).1), 0, [(65535, 7), (0, 9)], 5, by decide +kernel,
     fun w hw g va e => tArenas_inside w hw (by rw [e]; rfl)⟩,
   ⟨tArenas, ((tArenas.viewWrite 0 [(65535, 7), (0, 9)]).1), 0, [(65535, 7), (0, 9)], by decide +kernel⟩,
   ⟨tArenas, ((tArenas.viewWrite 0 [(65535, 7)]).1), 0, 65535, 7, by decide +kernel⟩⟩

/-- A state and operands which meet the hypotheses of each clause of `Obligations.FlashSteps`. -/
theorem test_FlashSteps :
    (∃ (o : NvOp) (r : List NvOp) (s : State), s.nv.ops = o :: r ∧ o.started = false ∧
      ((o.op = 0xB0 ∨ s.gate = true)) ∧ ((o.op = 0xB1 ∨ o.op = 0xB2 ∨ o.op = 0xB4 → s.fns[o.fn].busMaster = true))) ∧
    (∃ (o : NvOp) (r : List NvOp) (region : Nat) (off : Nat) (rest : List NvStep) (s : State), s.nv.ops = o :: r ∧
      o.steps = .erase region off :: rest ∧ s.nvRuns = true ∧ o.paused = none) ∧
    (∃ (o : NvOp) (r : List NvOp) (region : Nat) (off : Nat) (b : List Byte) (x : NvStep) (rest : List NvStep) (s : State), s.nv.ops = o :: r ∧ o.steps = .program region off b :: x :: rest ∧ s.nvRuns = true ∧ o.paused = none) ∧
    (∃ (o : NvOp) (r : List NvOp) (rest : List NvStep) (s : State), s.nv.ops = o :: r ∧ o.steps = .read :: rest ∧
      s.nvRuns = true ∧ o.started = true ∧ o.paused = none ∧ o.op = 0xB0 ∧ s.boot.linkL0 = true) ∧
    (∃ (o : NvOp) (r : List NvOp) (rest : List NvStep) (s : State), s.nv.ops = o :: r ∧ o.steps = .read :: rest ∧
      s.nvRuns = true ∧ o.started = true ∧ o.paused = none ∧ o.op = 0xB2) :=
  ⟨⟨(tNvOp 0xB1 [] false), [], (tFlash (tNvOp 0xB1 [] false)), by decide +kernel⟩,
   ⟨(tNvOp 0xB1 [.erase 7 4096, .read] true), [], 7, 4096, [.read], (tFlash (tNvOp 0xB1 [.erase 7 4096,
     .read] true)), by decide +kernel⟩,
   ⟨(tNvOp 0xB1 [.program 7 4096 [0xF0, 1], .read] true), [], 7, 4096, [0xF0, 1], .read, [],
     (tFlash (tNvOp 0xB1 [.program 7 4096 [0xF0, 1], .read] true)), by decide +kernel⟩,
   ⟨(tNvOp 0xB0 [.read] true), [], [], (tFlash (tNvOp 0xB0 [.read] true)), by decide +kernel⟩,
   ⟨(tNvOp 0xB2 [.read] true), [], [], (tFlash (tNvOp 0xB2 [.read] true)), by decide +kernel⟩⟩

/-- A state and operands which meet the hypotheses of each clause of `Obligations.ProgramLoading`. -/
theorem test_ProgramLoading :
    (∃ (n : FnNo) (pid : Nat) (id : Nat) (p : Prog) (host : List Byte) (pkg : List Byte) (s : State),
      s.prog n pid = some p ∧ p.loading = some id ∧ s.fns[n].busMaster = true ∧
      pkg = p.header ++ ((host ++ List.replicate (hdrTotal p.header) 0).take (hdrTotal p.header)).drop 256 ∧
      packageFault pkg s.micaVersion = none ∧ s.residentError n p.arena (hdrResident p.header) = none) ∧
    (∃ (n : FnNo) (pid : Nat) (id : Nat) (p : Prog) (s : State), s.prog n pid = some p ∧ p.loading = some id ∧
      s.fns[n].busMaster = true) ∧
    (∃ (n : FnNo) (pid : Nat) (id : Nat) (o : Nat) (p : Prog) (host : List Byte) (s : State), s.prog n pid = some p ∧
      p.loading = some id ∧ s.fns[n].busMaster = true ∧
      packageFault (p.header ++ ((host ++ List.replicate (hdrTotal p.header) 0).take (hdrTotal p.header)).drop 256) s.micaVersion = some o) ∧
    (∃ (n : FnNo) (s : State), s.fns[n].busMaster = false) ∧
    (∃ (n : FnNo) (pid : Nat) (id : Nat) (more : List Nat) (p : Prog) (s : State), s.prog n pid = some p ∧
      p.unloading = id :: more ∧ pid ≠ 0 ∧ ((∀ l, p.launch = some l → ∀ f ∈ s.frames, f.owes l.serial = false))) ∧
    (∃ (n : FnNo) (pid : Nat) (p : Prog) (l : Launch) (f : Frame) (s : State), s.prog n pid = some p ∧
      p.launch = some l ∧ f ∈ s.frames ∧ f.owes l.serial = true) :=
  ⟨⟨1, 1, 9, tLoadProg, tPackage, _, tLoading, by decide +kernel, by decide +kernel, by decide +kernel, rfl,
    tPackage_passes, by decide +kernel⟩,
   ⟨1, 1, 9, tLoadProg, tLoading, by decide +kernel⟩,
   ⟨1, 1, 9, 0xFFFFFFFF, tLoadProg, [], tLoading, by decide +kernel, by decide +kernel, by decide +kernel,
     tPackage_empty⟩,
   ⟨1, { tLoading with fns := tLoading.fns.set 1 { tLoading.fns[1] with busMaster := false } }, by decide +kernel⟩,
   ⟨1, 1, 9, [], (tUnloading.progs[0]), tUnloading, by decide +kernel⟩,
   ⟨0, 2, (tWaiting.progs[1]), (tLaunch 1), { tFrame 3 4 (.ready 5) with launch := some 1 },
     { tWaiting with frames := [{ tFrame 3 4 (.ready 5) with launch := some 1 }] }, by decide +kernel⟩⟩

/-- A state and operands which meet the hypotheses of each clause of `Obligations.LaunchesAndWaits`. -/
theorem test_LaunchesAndWaits :
    (∃ (n : FnNo) (d : Scheduled) (x : Prog) (s : State), (((s.scheduled.filter fun e =>
      e.stratum == n).find? fun d => (s.scheduled.filter fun e => e.stratum == n).all fun e =>
      decide (d.start ≤ e.start)) = some d) ∧ s.prog n d.prog = some x) ∧
    (∃ (n : FnNo) (b : BarrierWait) (s : State), ((s.barriers.find? fun b =>
      b.stratum == n && s.barrierMet b) = some b)) ∧
    (∃ (n : FnNo) (k : Nat) (w : EvWait) (e : Tick × Bool) (s : State), (((s.waits.filter fun w =>
      w.stratum == n)[k]?) = some w) ∧ s.waitEnd w = some e) ∧
    (∃ (n : FnNo) (pid : Nat) (v : W64) (p : Prog) (l : Launch) (s : State), s.prog n pid = some p ∧
      p.launch = some l ∧ v.toNat < 2 ^ l.ringLog2 ∧
      (v.toNat + 2 ^ l.ringLog2 - p.ring.head) % 2 ^ l.ringLog2 ≤ p.ring.unreleased ∧ p.ring.waiting = [] ∧
      s.lock.area = []) ∧
    (∃ (n : FnNo) (pid : Nat) (p : Prog) (l : Launch) (s : State), s.prog n pid = some p ∧ p.launch = some l ∧
      l.vector ≠ 0 ∧ p.ring.unannounced ≠ 0) :=
  ⟨⟨0, (tWaiting.scheduled[0]), (tWaiting.progs[0]), tWaiting, by decide +kernel⟩,
   ⟨0, { id := 8, stratum := 0, below := 8, frames := [(3, 0)], queues := [] }, tWaiting, by decide +kernel⟩,
   ⟨0, 0, (tWaiting.waits[0]), (400, true), tWaiting, by decide +kernel⟩,
   ⟨0, 2, 1, (tWaiting.progs[1]), (tLaunch 1), tWaiting, by decide +kernel⟩,
   ⟨0, 2, (tWaiting.progs[1]), (tLaunch 1), tWaiting, by decide +kernel⟩⟩

/-- A state and operands which meet the hypotheses of each clause of `Obligations.SlotImages`. -/
theorem test_SlotImages :
    (∃ (n : FnNo) (k : Fin 8) (host : List Byte) (x : SlotLoad) (s : State), ((s.tableLoads.find? fun x =>
      x.stratum == n && x.slot == k.val) = some x) ∧ s.fns[n].busMaster = true ∧ ((s.priorKept n fun f =>
      f.tables[k] != (s.tables[n])[k]) = false) ∧ tableFault (x.arg == 1) (loadBytes tableBytes host) = none) ∧
    (∃ (n : FnNo) (k : Fin 8) (host : List Byte) (x : SlotLoad) (off : Nat) (s : State),
      ((s.tableLoads.find? fun x => x.stratum == n && x.slot == k.val) = some x) ∧ s.fns[n].busMaster = true ∧
      ((s.priorKept n fun f => f.tables[k] != (s.tables[n])[k]) = false) ∧
      tableFault (x.arg == 1) (loadBytes tableBytes host) = some off) ∧
    (∃ (n : FnNo) (k : Fin 8) (host : List Byte) (x : SlotLoad) (s : State), ((s.mprogLoads.find? fun x =>
      x.stratum == n && x.slot == k.val) = some x) ∧ s.fns[n].busMaster = true ∧ ((s.priorKept n fun f =>
      f.mprogs[k] != (s.mprogs[n])[k]) = false) ∧ mprogFault x.arg (loadBytes mprogBytes host) = none) ∧
    (∃ (n : FnNo) (k : Fin 8) (host : List Byte) (x : SlotLoad) (off : Nat) (s : State),
      ((s.mprogLoads.find? fun x => x.stratum == n && x.slot == k.val) = some x) ∧ s.fns[n].busMaster = true ∧
      ((s.priorKept n fun f => f.mprogs[k] != (s.mprogs[n])[k]) = false) ∧
      mprogFault x.arg (loadBytes mprogBytes host) = some off) :=
  ⟨⟨1, 7, tTable, (tSlots.tableLoads[0]), tSlots, by decide +kernel, by decide +kernel, by decide +kernel,
    tTable_passes⟩,
   ⟨1, 7, [], (tSlots.tableLoads[0]), 60, tSlots, by decide +kernel, by decide +kernel, by decide +kernel,
     tTable_empty⟩,
   ⟨1, 0, tMprog, (tSlots.mprogLoads[0]), tSlots, by decide +kernel, by decide +kernel, by decide +kernel,
     tMprog_passes⟩,
   ⟨1, 0, [], (tSlots.mprogLoads[0]), 60, tSlots, by decide +kernel, by decide +kernel, by decide +kernel,
     tMprog_empty⟩⟩

/-- A state and operands which meet the hypotheses of each clause of `Obligations.ServiceCompletions`. -/
theorem test_ServiceCompletions :
    (∃ (w : W16) (u : Unit_) (d : Nat × Tick) (s : State), unitOf w = some u ∧ (s.unitSt u).draining = some d ∧
      ((s.working u = true → 800000 ≤ s.tick - d.2))) ∧
    (∃ (w : W16) (u : Unit_) (d : Nat × Tick) (s : State), unitOf w = some u ∧ (s.unitSt u).draining = some d ∧
      s.working u = true ∧ s.tick - d.2 < 800000) ∧
    (∃ (w : W16) (u : Unit_) (s : State), unitOf w = some u ∧ ((∀ l, u = .lane l → s.ports[portOf l].st = .active)) ∧
      (s.unitSt u).testing ≠ []) ∧
    (∃ (w : W16) (l : LaneNo) (s : State), unitOf w = some (.lane l) ∧ s.ports[portOf l].st ≠ .active ∧
      s.units.lanes[l].testing ≠ []) ∧
    (∃ (x : LogRead) (r : List LogRead) (s : State), s.logReads = x :: r) :=
  ⟨⟨0x0204, (.bank 4), (8, 0), tService, by decide +kernel⟩,
   ⟨0x0403, (.copy 3), (8, 0), tWorking, by decide +kernel⟩,
   ⟨0x0105, (.cluster 5), tService, by decide +kernel⟩,
   ⟨0x0604, 4, tLaneTest, by decide +kernel⟩,
   ⟨(tService.logReads[0]), [], tService, by decide +kernel⟩⟩

/-- A state and operands which meet the hypotheses of each clause of `Obligations.UnitAndClockFaults`. -/
theorem test_UnitAndClockFaults :
    (∃ (w : W16) (u : Unit_) (s : State), unitOf w = some u ∧ ((∀ l, u ≠ .lane l)) ∧ (s.unitSt u).up = true) ∧
    (∃ (w : W16) (u : Unit_) (s : State), unitOf w = some u ∧ ((∀ l, u ≠ .lane l)) ∧ (s.unitSt u).up = true) ∧
    (∃ (w : W16) (u : Unit_) (q : Option W16) (k : Nat) (s : State), unitOf w = some u ∧ ((∀ l, u ≠ .lane l)) ∧
      (s.unitSt u).up = true ∧ s.epochAt u q ≤ k) ∧
    (∃ (w : W16) (u : Unit_) (q : Option W16) (k : Nat) (s : State), unitOf w = some u ∧ k < s.epochAt u q) ∧
    (∃ (k : Nat) (s : State), 1 ≤ k ∧ k ≤ 10 ∧ ((∀ x ∈ s.boot.pllOut, x.1 ≠ k))) ∧
    (∃ (k : Nat) (s : State), ((∃ x ∈ s.boot.pllOut, x.1 = k))) ∧
    (∃ (k : Nat) (s : State), ((∃ x ∈ s.boot.pllOut, x.1 = k))) ∧
    (∃ (s : State), s.boot.poicaLost = false) :=
  ⟨⟨0x0105, (.cluster 5), tLink, by decide +kernel⟩,
   ⟨0x0203, (.bank 3), tLink, by decide +kernel⟩,
   ⟨0x0300, (.slate 0), none, 0, tLink, by decide +kernel⟩,
   ⟨0x0105, (.cluster 5), none, 0, (tUnit (.cluster 5) (fun x => { x with epoch := 1, own := 1 }) tLink),
     by decide +kernel⟩,
   ⟨10, tLink, by decide +kernel⟩,
   ⟨3, tPll, by decide +kernel⟩,
   ⟨3, tPll, by decide +kernel⟩,
   ⟨tLink, by decide +kernel⟩⟩

/-- A state and operands which meet the hypotheses of each clause of `Obligations.ClusterMapping`. -/
theorem test_ClusterMapping :
    (∃ (x : LogNo × PhysNo × Nat × Nat) (r : List (LogNo × PhysNo × Nat × Nat)) (c : PhysNo) (s : State),
      s.toReplace = x :: r ∧ ({ s with toReplace := r } : State).spareFor x.1 = some c) ∧
    (∃ (x : LogNo × PhysNo × Nat × Nat) (r : List (LogNo × PhysNo × Nat × Nat)) (s : State), s.toReplace = x :: r ∧
      ({ s with toReplace := r } : State).spareFor x.1 = none) ∧
    (∃ (l : LogNo) (c : PhysNo) (s : State), s.boot.phase = phReady ∧ ((s.unmapped fun n =>
      !s.progs.any fun (p : Prog) => p.stratum == n && p.launch.isSome) = some l) ∧ s.spareFor l = some c) ∧
    (∃ (x : Nat × LogNo × PhysNo) (old : PhysNo) (s : State), ((s.remaps.find? fun y => !s.runs.any fun r =>
      r.stratum == s.holder y.2.1) = some x) ∧ s.mapping[x.2.1] = some old ∧ x.2.2 ∈ s.spareSet ∧ old ≠ x.2.2) ∧
    (∃ (s : State), s.ext.reinit = true) :=
  ⟨⟨(tReplace.toReplace[0]), [], ((tReplace.spareFor 2).getD 0), tReplace, by decide +kernel⟩,
   ⟨(tNoSpare.toReplace[0]), [], tNoSpare, by decide +kernel⟩,
   ⟨9, ((State.spareFor { tReplace with toReplace := [], mapping := tReady.mapping.set 9 none } 9).getD 0),
     { tReplace with toReplace := [], mapping := tReady.mapping.set 9 none }, by decide +kernel⟩,
   ⟨(9, 5, 71), 5, tRemap, by decide +kernel⟩,
   ⟨tRemap, by decide +kernel⟩⟩

/-- A state and operands which meet the hypotheses of each clause of `Obligations.PanelRefresh`. -/
theorem test_PanelRefresh :
    (∃ (s : State), s.panel.refresh = none ∧ s.nvRuns = true ∧ s.panel.redraw = none ∧ s.gate = true ∧
      ((∃ d ∈ s.panel.draws, d.carried = false))) ∧
    (∃ (since : Tick) (s : State), s.panel.changed = some since ∧ s.panel.refresh = none ∧ s.nvRuns = true ∧
      s.panel.redraw = none ∧ s.gate = true ∧ ((∀ d ∈ s.panel.draws, d.carried = true))) ∧
    (∃ (r : Refresh) (s : State), s.panel.refresh = some r ∧ s.nvRuns = true ∧ r.stop = false ∧ r.phases + 1 < 8) ∧
    (∃ (r : Refresh) (s : State), s.panel.refresh = some r ∧ s.nvRuns = true ∧ r.stop = false ∧ r.phases = 7) ∧
    (∃ (r : Refresh) (s : State), s.panel.refresh = some r ∧ s.nvRuns = true ∧ r.stop = true) :=
  ⟨⟨(tPanel false none), by decide +kernel⟩,
   ⟨77, (tPanel true none), by decide +kernel⟩,
   ⟨(tRefresh 6 false), (tPanel true (some (tRefresh 6 false))), by decide +kernel⟩,
   ⟨(tRefresh 7 false), (tPanel true (some (tRefresh 7 false))), by decide +kernel⟩,
   ⟨(tRefresh 3 true), (tPanel true (some (tRefresh 3 true))), by decide +kernel⟩⟩

/-- A state and operands which meet the hypotheses of each clause of `Obligations.SupplySwitching`. -/
theorem test_SupplySwitching :
    (∃ (v : Volts) (s : State), s.supplied = true ∧ v.main < 1020 ∧ s.sup.onAux = false ∧ s.sup.auxLow = false ∧
      s.sup.switching = none) ∧
    (∃ (v : Volts) (s : State), s.supplied = true ∧ v.main < 1020 ∧ s.sup.switching.isSome = true) ∧
    (∃ (v : Volts) (s : State), s.supplied = true ∧ 1050 < v.main ∧ s.sup.switching.isSome = true) ∧
    (∃ (v : Volts) (s : State), s.supplied = true ∧ v.aux < 1020 ∧ s.sup.switching.isSome = true) ∧
    (∃ (v : Volts) (s : State), s.supplied = true ∧ 1050 < v.aux ∧ s.sup.switching.isSome = true) ∧
    (∃ (aux : Bool) (s : State), s.supplied = true ∧ s.sup.switching = some aux) ∧
    (∃ (v : Volts) (s : State), s.supplied = true ∧ 1080 ≤ v.main) ∧
    (∃ (v : Volts) (s : State), s.sup.power = .holdup ∧ v.main < 1020) ∧
    (∃ (v : Volts) (s : State), s.sup.power = .holdup ∧ 1050 < v.main) ∧
    (∃ (v : Volts) (s : State), s.sup.power = .holdup ∧ v.aux < 1020) ∧
    (∃ (v : Volts) (s : State), s.sup.power = .holdup ∧ 1050 < v.aux) ∧
    (∃ (v : Volts) (s : State), s.sup.power = .holdup ∧ 1080 ≤ v.main) :=
  ⟨⟨(tVolts 1019 1200 100), tBoth, by decide +kernel⟩,
   ⟨(tVolts 1019 1200 100), tSwitching, by decide +kernel⟩,
   ⟨(tVolts 1051 1200 100), tSwitching, by decide +kernel⟩,
   ⟨(tVolts 1200 1019 100), tSwitching, by decide +kernel⟩,
   ⟨(tVolts 1200 1051 100), tSwitching, by decide +kernel⟩,
   ⟨true, tSwitching, by decide +kernel⟩,
   ⟨(tVolts 1080 0 0), { tReady with sup := Supply.standby }, by decide +kernel⟩,
   ⟨(tVolts 1019 0 0), tHoldup, by decide +kernel⟩,
   ⟨(tVolts 1051 0 0), tHoldup, by decide +kernel⟩,
   ⟨(tVolts 0 1019 0), tHoldup, by decide +kernel⟩,
   ⟨(tVolts 0 1051 0), tHoldup, by decide +kernel⟩,
   ⟨(tVolts 1080 0 0), tHoldup, by decide +kernel⟩⟩

/-- A state and operands which meet the hypotheses of each clause of `Obligations.HoldupAndPowerOn`. -/
theorem test_HoldupAndPowerOn :
    (∃ (v : Volts) (s : State), s.supplied = true ∧ v.main < 900 ∧ v.aux < 900) ∧
    (∃ (v : Volts) (s : State), s.supplied = true ∧ (if s.sup.onAux then v.aux else v.main) < 1000 ∧ v.charge ≤ 20) ∧
    (∃ (v : Volts) (s : State), s.sup.power = .holdup ∧ v.main ≤ 1050 ∧ v.aux ≤ 1050) ∧
    (∃ (v : Volts) (s : State), s.sup.power = .holdup ∧ ((1050 < v.main ∨ 1050 < v.aux))) ∧
    (∃ (v : Volts) (s : State), s.sup.power = .holdup ∧ v.main ≤ 1050 ∧ v.aux ≤ 1050) ∧
    (∃ (v : Volts) (s : State), s.sup.power = .off ∧ ((1050 < v.main ∨ 1050 < v.aux))) :=
  ⟨⟨(tVolts 899 899 90), tLink, by decide +kernel⟩,
   ⟨(tVolts 999 0 20), tLink, by decide +kernel⟩,
   ⟨(tVolts 1050 1050 50), tHoldup, by decide +kernel⟩,
   ⟨(tVolts 1051 0 50), tHoldup, by decide +kernel⟩,
   ⟨(tVolts 1050 1050 0), tHoldup, by decide +kernel⟩,
   ⟨(tVolts 0 1051 0), tOff, by decide +kernel⟩⟩

/-- A state and operands which meet the hypotheses of each clause of `Obligations.SagsAndGate`. -/
theorem test_SagsAndGate :
    (∃ (v : Volts) (s : State), s.supplied = true ∧ s.sup.sag = none ∧
      (if s.sup.onAux then v.aux else v.main) < 1000 ∧ 20 < v.charge) ∧
    (∃ (v : Volts) (since : Tick) (s : State), s.supplied = true ∧ s.sup.sag = some since ∧
      1000 ≤ (if s.sup.onAux then v.aux else v.main)) ∧
    (∃ (v : Volts) (s : State), s.supplied = true ∧ (s.measure v).gate = true ∧ s.boot.inReset = false) ∧
    (∃ (o : NvOp) (r : List NvOp) (since : Tick) (s : State), s.gate = false ∧ s.supplied = true ∧
      s.boot.inReset = false ∧ s.nv.ops = o :: r ∧ o.paused = some since ∧ s.panel.draws = []) ∧
    (∃ (v : Volts) (s : State), s.supplied = true ∧ s.sup.holdupFault = false ∧
      1100 ≤ (if s.sup.onAux then v.aux else v.main) ∧ v.charge < 90) ∧
    (∃ (s : State), s.supplied = true) :=
  ⟨⟨(tVolts 999 0 21), (tPanel true (some (tRefresh 3 false))), by decide +kernel⟩,
   ⟨(tVolts 1000 0 95), 5, tSag, by decide +kernel⟩,
   ⟨(tVolts 1100 0 90), tSag, by decide +kernel⟩,
   ⟨(tSag.nv.ops[0]), [], 5, tSag, by decide +kernel⟩,
   ⟨(tVolts 1100 0 89), tReady, by decide +kernel⟩,
   ⟨tReady, by decide +kernel⟩⟩

/-- A state and operands which meet the hypotheses of each clause of `Obligations.StartupPhases`. -/
theorem test_StartupPhases :
    (∃ (s : State), s.starting 1 = true ∧ s.boot.image ≠ 0xFF) ∧
    (∃ (s : State), s.starting 1 = true) ∧
    (∃ (s : State), s.starting 1 = true) ∧
    (∃ (s : State), s.starting 2 = true) ∧
    (∃ (s : State), s.starting 4 = true) ∧
    (∃ (s : State), s.starting 5 = true) ∧
    (∃ (s : State), s.starting 6 = true ∧ s.boot.rounds < 9) ∧
    (∃ (s : State), s.starting 6 = true ∧ s.boot.lpddrDone = false) ∧
    (∃ (s : State), s.starting 7 = true) :=
  ⟨⟨(tBoot 1), by decide +kernel⟩,
   ⟨(tBoot 1), by decide +kernel⟩,
   ⟨(tBoot 1), by decide +kernel⟩,
   ⟨(tBoot 2), by decide +kernel⟩,
   ⟨(tBoot 4), by decide +kernel⟩,
   ⟨(tBoot 5), by decide +kernel⟩,
   ⟨{ tBoot 6 with boot := { (tBoot 6).boot with rounds := 8, lpddrDone := true } }, by decide +kernel⟩,
   ⟨(tBoot 6), by decide +kernel⟩,
   ⟨(tBoot 7), by decide +kernel⟩⟩

/-- A state and operands which meet the hypotheses of each clause of `Obligations.HostAndModuleResets`. -/
theorem test_HostAndModuleResets :
    (∃ (s : State), s.starting 9 = true) ∧
    (∃ (s : State), s.supplied = true ∧ s.boot.inReset = false ∧ s.boot.fatal = false ∧ s.boot.phase = 8 ∧
      s.boot.perst = false) ∧
    (∃ (s : State), s.supplied = true ∧ s.boot.inReset = false ∧ s.boot.fatal = true ∧ s.boot.phase = 8 ∧
      s.boot.perst = false) ∧
    (∃ (s : State), s.sup.power = .active ∧ s.boot.inReset = false ∧ s.boot.fatal = false ∧ s.boot.phase = 8) ∧
    (∃ (s : State), s.configReady = true ∧ s.boot.fatal = false ∧ s.boot.phase = 8) ∧
    (∃ (s : State), s.configReady = true ∧ s.boot.fatal = false ∧ s.boot.phase = 8 ∧ s.boot.d3hot = true) ∧
    (∃ (s : State), s.configReady = true) ∧
    (∃ (s : State), s.supplied = true ∧ s.boot.inReset = false ∧ s.boot.resetPending = false) ∧
    (∃ (s : State), s.boot.inReset = true ∧ s.boot.resetCause ≠ 2) ∧
    (∃ (s : State), s.supplied = true ∧ s.boot.inReset = false ∧ s.boot.resetPending = false) ∧
    (∃ (s : State), s.supplied = true ∧ s.boot.resetPending = true) ∧
    (∃ (s : State), s.boot.inReset = true ∧ s.boot.testEn = false) ∧
    (∃ (s : State), s.boot.inReset = true ∧ s.boot.modResetLow = false) :=
  ⟨⟨(tBoot 9), by decide +kernel⟩,
   ⟨tLink, by decide +kernel⟩,
   ⟨{ tLink with boot := { tLink.boot with fatal := true } }, by decide +kernel⟩,
   ⟨tLink, by decide +kernel⟩,
   ⟨tLink, by decide +kernel⟩,
   ⟨{ tLink with boot := { tLink.boot with d3hot := true } }, by decide +kernel⟩,
   ⟨tLink, by decide +kernel⟩,
   ⟨tTwo, by decide +kernel⟩,
   ⟨tHeldTest, by decide +kernel⟩,
   ⟨tTwo, by decide +kernel⟩,
   ⟨tLatched, by decide +kernel⟩,
   ⟨tHeld, by decide +kernel⟩,
   ⟨tHeldTest, by decide +kernel⟩⟩

/-- A state and operands which meet the hypotheses of each clause of `Obligations.LinkAndFunctions`. -/
theorem test_LinkAndFunctions :
    (∃ (s : State), s.linkable = true) ∧
    (∃ (s : State), s.boot.linkL0 = true ∧ s.configReady = false) ∧
    (∃ (fn : FnNo) (s : State), s.present fn = true ∧ s.configReady = true) ∧
    (∃ (fn : FnNo) (s : State), s.present fn = true ∧ s.configReady = true) ∧
    (∃ (fn : FnNo) (s : State), s.present fn = true ∧ s.configReady = true) ∧
    (∃ (n : Nat) (s : State), s.configReady = true ∧ s.boot.fatal = false ∧ 1 ≤ n ∧ n ≤ 15 ∧ s.boot.numVfs ≤ n) ∧
    (∃ (fn : FnNo) (s : State), s.configReady = true ∧ fn ≠ 0 ∧ s.present fn = true) ∧
    (∃ (s : State), s.configReady = true ∧ s.boot.vfEnable = true) ∧
    (∃ (fn : FnNo) (s : State), s.configReady = true ∧ s.present fn = true) ∧
    (∃ (fn : FnNo) (s : State), s.configReady = true ∧ s.present fn = true ∧ s.fns[fn].evq.held = [] ∧
      s.fns[fn].pba = 0 ∧ s.fns[fn].unsent = [] ∧ ((∀ qp : QpNo, s.fns[fn].qps[qp].stopping = false)) ∧
      ((∀ p ∈ s.progs, p.stratum ≠ fn))) ∧
    (∃ (fn : FnNo) (a : W64) (b : List Byte) (s : State), s.configReady = true ∧ s.present fn = true ∧
      Unsent.bytes a b ∈ s.fns[fn].unsent) :=
  ⟨⟨tReady, by decide +kernel⟩,
   ⟨{ tBoot 2 with boot := { (tBoot 2).boot with linkL0 := true } }, by decide +kernel⟩,
   ⟨1, tReady, by decide +kernel⟩,
   ⟨1, tReady, by decide +kernel⟩,
   ⟨1, tReady, by decide +kernel⟩,
   ⟨15, tReady, by decide +kernel⟩,
   ⟨1, { tTwo with progs := [tProg 1 0, tProg 0 0] }, by decide +kernel⟩,
   ⟨tTwo, by decide +kernel⟩,
   ⟨1, tReady, by decide +kernel⟩,
   ⟨0, tDisabled, by decide +kernel⟩,
   ⟨0, 4096, [1, 2], (tReady.modFn 0 fun f => { f with busMaster := false, unsent := [.bytes 4096 [1, 2]] }),
     by decide +kernel⟩⟩

/-- A state and operands which meet the hypotheses of each clause of `Obligations.FatalConditions`. -/
theorem test_FatalConditions :
    (∃ (s : State), s.supplied = true ∧ s.boot.fatal = false ∧ s.boot.inReset = false) ∧
    (∃ (s : State), s.supplied = true ∧ s.boot.fatal = false ∧ s.boot.inReset = false) ∧
    (∃ (s : State), s.supplied = true ∧ s.boot.fatal = false ∧ s.boot.inReset = false) ∧
    (∃ (s : State), s.supplied = true ∧ s.boot.fatal = false ∧ s.boot.inReset = false) ∧
    (∃ (s : State), s.supplied = true ∧ s.boot.fatal = false ∧ s.boot.inReset = false) :=
  ⟨⟨tTwo, by decide +kernel⟩,
   ⟨tTwo, by decide +kernel⟩,
   ⟨tTwo, by decide +kernel⟩,
   ⟨tTwo, by decide +kernel⟩,
   ⟨tTwo, by decide +kernel⟩⟩

/-- A state and operands which meet the hypotheses of each clause of `Obligations.TrainingLanes`. -/
theorem test_TrainingLanes :
    (∃ (l : LaneNo) (s : State), s.units.lanes[l].up = true ∧ s.ports[portOf l].st ≠ .disabled) ∧
    (∃ (l : LaneNo) (s : State) (c : _), s.ports[portOf l].st = .active ∧ s.ports[portOf l].inUse &&& laneBit l ≠ 0 ∧
      s.ports[portOf l].wc = none ∧ s.ports[portOf l].lanes &&& ~~~laneBit l ≠ 0 ∧ c ∈ [Instr.blockLockLost l,
      Instr.laneFailure l]) ∧
    (∃ (l : LaneNo) (s : State) (c : _), s.ports[portOf l].st = .active ∧ s.ports[portOf l].inUse &&& laneBit l ≠ 0 ∧
      s.ports[portOf l].lanes &&& ~~~laneBit l = 0 ∧ c ∈ [Instr.blockLockLost l, Instr.laneFailure l]) ∧
    (∃ (l : LaneNo) (w : W64) (s : State), s.units.lanes[l].up = true ∧ s.ports[portOf l].st ≠ .disabled ∧
      tsLegal w = true ∧ ((s.lanes[l].seenTs = w.extractLsb' 8 40 → s.lanes[l].seenCount < 3))) ∧
    (∃ (l : LaneNo) (w : W64) (s : State), s.units.lanes[l].up = true ∧ s.ports[portOf l].st ≠ .disabled ∧
      tsLegal w = true ∧ s.lanes[l].seenTs = w.extractLsb' 8 40 ∧ 3 ≤ s.lanes[l].seenCount ∧
      w.extractLsb' 12 4 = 15#4) ∧
    (∃ (l : LaneNo) (w : W64) (s : State), s.units.lanes[l].up = true ∧ s.ports[portOf l].st ≠ .disabled ∧
      tsLegal w = true ∧ s.lanes[l].seenTs = w.extractLsb' 8 40 ∧ 3 ≤ s.lanes[l].seenCount ∧
      w.extractLsb' 12 4 = 3#4 ∧ s.ports[portOf l].st = .active ∧ s.ports[portOf l].inUse &&& laneBit l ≠ 0) ∧
    (∃ (l : LaneNo) (w : W64) (s : State), s.units.lanes[l].up = true ∧ s.ports[portOf l].st ≠ .disabled ∧
      tsLegal w = true ∧ s.lanes[l].seenTs = w.extractLsb' 8 40 ∧ 3 ≤ s.lanes[l].seenCount ∧
      w.extractLsb' 12 4 = 1#4 ∧ w.getLsbD 9 = true ∧ s.ports[portOf l].st = .detect ∧ s.lanes[l].locked = true) ∧
    (∃ (l : LaneNo) (w : W64) (b : Bool) (s : State), s.units.lanes[l].up = true ∧ s.ports[portOf l].st = .detect ∧
      tsLegal w = true ∧ b ≠ s.lanes[l].inverted) ∧
    (∃ (l : LaneNo) (v : BitVec 40) (s : State), s.units.lanes[l].up = true ∧ s.ports[portOf l].st = .equalize ∧
      s.lanes[l].locked = true ∧ s.lanes[l].request ≠ 0xF ∧ s.lanes[l].margins.length < 8 ∧
      s.lanes[l].farTs = some v ∧ v.extractLsb' 8 4 = s.lanes[l].request) :=
  ⟨⟨4, (tTrain 1 .equalize).modLane 4 fun x => { x with locked := false }, by decide +kernel⟩,
   ⟨7, (tTrain 1 .active), (.laneFailure 7), by decide +kernel⟩,
   ⟨8, tNarrow, (.blockLockLost 8), by decide +kernel⟩,
   ⟨4, (tTs 0x10 0x20 0 4), (tTrain 1 .equalize), by decide +kernel⟩,
   ⟨4, (tTs 0xF0 0x27 4 4), (tSeen (tTrain 1 .align) 4 (tTs 0xF0 0x27 4 4)), by decide +kernel⟩,
   ⟨7, (tTs 0x30 0x27 0 4), (tSeen (tTrain 1 .active) 7 (tTs 0x30 0x27 0 4)), by decide +kernel⟩,
   ⟨4, (tTs 0x12 0x27 0 4), (tSeen (tTrain 1 .detect) 4 (tTs 0x12 0x27 0 4)), by decide +kernel⟩,
   ⟨4, (tTs 0x10 0x27 0 1), true, (tTrain 1 .detect), by decide +kernel⟩,
   ⟨4, 0x720, tSweep, by decide +kernel⟩⟩

/-- A state and operands which meet the hypotheses of each clause of `Obligations.TrainingTimers`. -/
theorem test_TrainingTimers :
    (∃ (p : PortNo) (s : State), s.ports[p].st = .detect) ∧
    (∃ (p : PortNo) (s : State), s.ports[p].st = .equalize) ∧
    (∃ (p : PortNo) (s : State), s.ports[p].st = .align) ∧
    (∃ (p : PortNo) (s : State), s.ports[p].st = .negotiate) ∧
    (∃ (p : PortNo) (s : State), s.ports[p].st = .retrain) :=
  ⟨⟨1, (tTrain 1 .detect), by decide +kernel⟩,
   ⟨1, (tTrain 1 .equalize), by decide +kernel⟩,
   ⟨1, (tTrain 1 .align), by decide +kernel⟩,
   ⟨1, (tTrain 1 .negotiate), by decide +kernel⟩,
   ⟨1, (tTrain 1 .retrain), by decide +kernel⟩⟩

/-- A state and operands which meet the hypotheses of each clause of `Obligations.MarkersAndRecords`. -/
theorem test_MarkersAndRecords :
    (∃ (l : LaneNo) (w : W64) (s : State), s.ports[portOf l].st = .active ∧
      s.ports[portOf l].lanes &&& laneBit l ≠ 0 ∧ markLegal w = true) ∧
    (∃ (l : LaneNo) (w : W64) (b : Byte) (s : State), s.ports[portOf l].st = .active ∧
      s.ports[portOf l].lanes &&& laneBit l ≠ 0 ∧ markLegal w = true ∧ w.extractLsb' 32 8 ≠ b ∧
      s.lanes[l].errors.length < 32) ∧
    (∃ (l : LaneNo) (w : W64) (s : State), s.ports[portOf l].st = .align ∧ s.ports[portOf l].lanes = laneBit l ∧
      markLegal w = true ∧ (w.extractLsb' 10 2).toNat = l.val % 4 ∧ w.getLsbD 13 = true ∧ ((∀ x,
      s.lanes[l].arrival = some x → x.1 = w.extractLsb' 16 16))) ∧
    (∃ (p : PortNo) (s : State), s.ports[p].st = .active) ∧
    (∃ (l : LaneNo) (w : W64) (s : State), s.exchanging l = true ∧ w.extractLsb' 0 8 = 0x55#8 ∧
      w.extractLsb' 12 4 = 1#4) ∧
    (∃ (l : LaneNo) (w : W64) (i : Fin 16) (c : Bool) (r : List Byte) (s : State), s.exchanging l = true ∧
      s.ports[portOf l].st = .negotiate ∧ w.extractLsb' 0 8 = 0x55#8 ∧ w.extractLsb' 12 4 = 1#4 ∧
      i.val = (w.extractLsb' 8 4).toNat ∧ s.ports[portOf l].frags[i] = some (w.extractLsb' 16 48, l, c) ∧
      s.ports[portOf l].incoming = none ∧
      ({ s.ports[portOf l] with frags := s.ports[portOf l].frags.set i.val (some (w.extractLsb' 16 48, l,
                                true)) i.isLt } : Port).whole = some r ∧ s.refusal (portOf l) r = none) ∧
    (∃ (l : LaneNo) (w : W64) (i : Fin 16) (c : Bool) (r : List Byte) (s : State) (e : _), s.exchanging l = true ∧
      s.ports[portOf l].st = .negotiate ∧ w.extractLsb' 0 8 = 0x55#8 ∧ w.extractLsb' 12 4 = 1#4 ∧
      i.val = (w.extractLsb' 8 4).toNat ∧ s.ports[portOf l].frags[i] = some (w.extractLsb' 16 48, l, c) ∧
      s.ports[portOf l].incoming = none ∧
      ({ s.ports[portOf l] with frags := s.ports[portOf l].frags.set i.val (some (w.extractLsb' 16 48, l,
                                true)) i.isLt } : Port).whole = some r ∧ s.refusal (portOf l) r = some e) ∧
    (∃ (l : LaneNo) (w : W64) (s : State), s.exchanging l = true ∧ w.extractLsb' 0 8 = 0x55#8 ∧
      w.extractLsb' 12 4 = 2#4 ∧ w &&& 0xFFFF0000_00000F00 = 0 ∧
      (w.extractLsb' 16 32).toNat = fieldNat s.ports[portOf l].own 92 4 ∧ s.ports[portOf l].incoming = none) ∧
    (∃ (l : LaneNo) (w : W64) (s : State) (r : _), s.exchanging l = true ∧ w.extractLsb' 0 8 = 0x55#8 ∧
      w.extractLsb' 12 4 = 2#4 ∧ w &&& 0xFFFF0000_00000F00 = 0 ∧
      (w.extractLsb' 16 32).toNat = fieldNat s.ports[portOf l].own 92 4 ∧ s.ports[portOf l].incoming = some r) ∧
    (∃ (l : LaneNo) (w : W64) (s : State), s.exchanging l = true ∧ s.ports[portOf l].st = .negotiate ∧
      w.extractLsb' 0 8 = 0x55#8 ∧ w.extractLsb' 12 4 = 3#4 ∧ w &&& 0xFFFFFF00_00000F00 = 0) :=
  ⟨⟨6, (tMark 2 9 1), (tTrain 1 .active), by decide +kernel⟩,
   ⟨4, (tMark 0 9 0), 0, (tTrain 1 .active), by decide +kernel⟩,
   ⟨6, (tMark 2 9 1), tAlign, by decide +kernel⟩,
   ⟨1, (tTrain 1 .active), by decide +kernel⟩,
   ⟨4, (tNegWord 1 15 0x123456789ABC), (tNeg tRecord), by decide +kernel⟩,
   ⟨4, (tNegWord 1 0 (fieldNat tRecord 0 6)), 0, false, tRecord, (tNeg tRecord), by decide +kernel,
     by decide +kernel, by decide +kernel, by decide +kernel, by decide +kernel, by decide +kernel,
     by decide +kernel, tNeg_whole, by decide +kernel⟩,
   ⟨4, (tNegWord 1 0 (fieldNat tRecord 0 6)), 0, false, tRecord,
     { tNeg tRecord with ports := (tNeg tRecord).ports.set 1 { tExchange tRecord with role := 2 } }, (2, 2),
     by decide +kernel, by decide +kernel, by decide +kernel, by decide +kernel, by decide +kernel,
     by decide +kernel, by decide +kernel, tNeg_whole, by decide +kernel⟩,
   ⟨4, (tNegWord 2 0 0), (tNeg tRecord), by decide +kernel⟩,
   ⟨4, (tNegWord 2 0 0),
     { tNeg tRecord with ports := (tNeg tRecord).ports.set 1 { tExchange tRecord with incoming := some tRecord } },
     tRecord, by decide +kernel⟩,
   ⟨4, (tNegWord 3 0 0x0403), (tNeg tRecord), by decide +kernel⟩⟩

/-- A state and operands which meet the hypotheses of each clause of `Obligations.WidthChanges`. -/
theorem test_WidthChanges :
    (∃ (p : PortNo) (m : BitVec 4) (w : Nat) (s : State), s.ports[p].st = .active ∧ w ∈ [1, 2, 4] ∧ laneCount m = w ∧
      s.ports[p].wc = none ∧ ((∀ l ∈ lanesIn p m, s.lanes[l].locked = true ∧ s.units.lanes[l].up = true ∧
      s.lanes[l].deskewed = true)) ∧ w ≤ s.ports[p].agreedMax) ∧
    (∃ (p : PortNo) (m : BitVec 4) (w : Nat) (s : State), s.ports[p].st = .active ∧ w ∈ [1, 2, 4] ∧ laneCount m = w ∧
      s.ports[p].wc = none ∧ s.ports[p].agreedMax < w) ∧
    (∃ (p : PortNo) (x : WidthChange) (s : State), s.ports[p].st = .active ∧ x.width ∈ [1, 2, 4] ∧
      laneCount x.mask = x.width ∧ s.ports[p].wc = some x ∧ x.acked = false ∧ x.refused = false ∧ x.tries ≠ 0) ∧
    (∃ (p : PortNo) (x : WidthChange) (r : Nat) (s : State), s.ports[p].st = .active ∧ x.width ∈ [1, 2, 4] ∧
      laneCount x.mask = x.width ∧ s.ports[p].wc = some x ∧ x.acked = false ∧ x.refused = false ∧ x.tries ≠ 0 ∧
      r < 256 ∧ r ≠ 4 ∧ x.cause = .failure) ∧
    (∃ (p : PortNo) (x : WidthChange) (r : Nat) (s : State) (i : _), s.ports[p].st = .active ∧ x.width ∈ [1, 2, 4] ∧
      laneCount x.mask = x.width ∧ s.ports[p].wc = some x ∧ x.acked = false ∧ x.refused = false ∧ x.tries ≠ 0 ∧
      r < 256 ∧ r ≠ 4 ∧ x.cause = .command i ∧ s.ports[p].widthCmd = none) ∧
    (∃ (p : PortNo) (m : BitVec 4) (w : Nat) (q : W16) (s : State), s.ports[p].st = .active ∧ w ∈ [1, 2, 4] ∧
      laneCount m = w ∧ s.ports[p].widthCmd = none ∧ s.ports[p].farWc = some (m, q) ∧ s.ports[p].wc = none) ∧
    (∃ (p : PortNo) (m : BitVec 4) (w : Nat) (q : W16) (s : State) (x : _), s.ports[p].st = .active ∧ w ∈ [1, 2, 4] ∧
      laneCount m = w ∧ s.ports[p].widthCmd = none ∧ s.ports[p].farWc = none ∧ s.ports[p].wc = some x ∧
      x.acked = true ∧ x.seq = q) ∧
    (∃ (p : PortNo) (x : WidthChange) (s : State), s.ports[p].st = .active ∧ s.ports[p].wc = some x ∧
      x.acked = false ∧ x.refused = false ∧ x.tries ≠ 0 ∧ x.tries < 3) ∧
    (∃ (p : PortNo) (x : WidthChange) (s : State), s.ports[p].st = .active ∧ s.ports[p].wc = some x ∧
      x.acked = false ∧ x.refused = false ∧ x.tries ≠ 0 ∧ 3 ≤ x.tries ∧ x.cause = .failure) ∧
    (∃ (p : PortNo) (x : WidthChange) (s : State), s.ports[p].st = .active ∧ s.ports[p].wc = some x ∧
      x.cause = .failure) ∧
    (∃ (p : PortNo) (s : State), s.ports[p].st = .active) :=
  ⟨⟨1, 3, 2, (tWide none none), by decide +kernel⟩,
   ⟨1, 15, 4, { tWide none none with ports := tReady.ports.set 1 { tPort 0 with maxWidth := 2 } }, by decide +kernel⟩,
   ⟨1, (tChange .failure 1 false), (tWide (some (tChange .failure 1 false)) none), by decide +kernel⟩,
   ⟨1, (tChange .failure 1 false), 255, (tWide (some (tChange .failure 1 false)) none), by decide +kernel⟩,
   ⟨1, (tChange (.command 9) 1 false), 3, (tWide (some (tChange (.command 9) 1 false)) none), 9, by decide +kernel⟩,
   ⟨1, 8, 1, 9, (tWide none (some (8, 9))), by decide +kernel⟩,
   ⟨1, 1, 1, 5, (tWide (some (tChange (.command 9) 1 true)) none), (tChange (.command 9) 1 true), by decide +kernel⟩,
   ⟨1, (tChange .failure 2 false), (tWide (some (tChange .failure 2 false)) none), by decide +kernel⟩,
   ⟨1, (tChange .failure 3 false), (tWide (some (tChange .failure 3 false)) none), by decide +kernel⟩,
   ⟨1, (tChange .failure 1 false), (tWide (some (tChange .failure 1 false)) none), by decide +kernel⟩,
   ⟨1, (tWide none none), by decide +kernel⟩⟩

/-- A state and operands which meet the hypotheses of each clause of `Obligations.ItemsReceived`. -/
theorem test_ItemsReceived :
    (∃ (k : Nat) (p : PortNo) (ch : Nat) (sbits : Nat) (b : List Byte) (s : State), ((k = 1 ∨ k = 2)) ∧
      s.ports[p].st = .active ∧ s.ports[p].skipping = false ∧ ch < 4096 ∧ sbits < 256 ∧ 1 ≤ b.length ∧
      b.length ≤ 4096) ∧
    (∃ (p : PortNo) (ch : Nat) (q : W16) (b : List Byte) (s : State), s.ports[p].st = .active ∧
      s.ports[p].skipping = false ∧ ch < 4096 ∧ 1 ≤ b.length ∧ b.length ≤ 4096 ∧ q ≠ s.ports[p].rxSeq ∧
      (s.ports[p].rxSeq - q).toNat ≤ 32768) ∧
    (∃ (p : PortNo) (ch : Nat) (b : List Byte) (s : State), s.ports[p].st = .active ∧ s.ports[p].skipping = false ∧
      ch < 4096 ∧ 4096 < b.length ∧ b.length < 65536) ∧
    (∃ (l : LaneNo) (ch : Nat) (x : Chan) (s : State), s.ports[portOf l].st = .active ∧
      s.ports[portOf l].inUse &&& laneBit l ≠ 0 ∧ ch < 4096 ∧ s.chanOn (portOf l) ch = some x ∧
      s.chan x.num = some x ∧ s.lock.st ≠ .paired ∧ x.num ∉ s.lock.rejoin ∧ x.pending = none ∧
      s.openFrame x.num = none ∧ ((x.route.slate = 0xFE ∨ x.kind1 = true))) ∧
    (∃ (l : LaneNo) (ch : Nat) (set : Nat) (s : State), s.ports[portOf l].st = .active ∧
      s.ports[portOf l].inUse &&& laneBit l ≠ 0 ∧ ch < 4096 ∧ set < 16) ∧
    (∃ (c : Nat) (x : Chan) (r : PendingRoute) (s : State), s.chan c = some x ∧ x.pending = some r ∧
      r.switched = false ∧ r.unbind = false) ∧
    (∃ (c : Nat) (x : Chan) (r : PendingRoute) (s : State), s.chan c = some x ∧ x.pending = some r ∧
      r.switched = false ∧ r.unbind = true ∧ ((∀ f ∈ s.frames, f.chan ≠ c)) ∧ x.q.offers = []) :=
  ⟨⟨1, 0, 2, 8, (List.replicate 8 7), tOpen, by decide +kernel⟩,
   ⟨0, 4095, 0xFFFF, [7], tLink, by decide +kernel⟩,
   ⟨0, 0, (List.replicate 4097 7), tLink, by decide +kernel⟩,
   ⟨0, 2, (tDiscard.chans[0]), tDiscard, by decide +kernel⟩,
   ⟨0, 2, 15, tLink, by decide +kernel⟩,
   ⟨3, ((tRouting false).chans[0]), { id := 9, route := { slate := 0, prog := 0, input := 0 }, unbind := false,
                                      accepted := 3, switched := false }, (tRouting false), by decide +kernel⟩,
   ⟨3, ((tRouting true).chans[0]), { id := 9, route := { slate := 0, prog := 0, input := 0 }, unbind := true,
                                     accepted := 3, switched := false }, (tRouting true), by decide +kernel⟩⟩

/-- A state and operands which meet the hypotheses of each clause of `Obligations.AcknowledgementAndCredits`. -/
theorem test_AcknowledgementAndCredits :
    (∃ (l : LaneNo) (s : State), s.ports[portOf l].st = .active ∧ s.ports[portOf l].inUse &&& laneBit l ≠ 0) ∧
    (∃ (l : LaneNo) (s : State), s.ports[portOf l].st = .active ∧ s.ports[portOf l].inUse &&& laneBit l ≠ 0) ∧
    (∃ (p : PortNo) (i : Item) (s : State), s.ports[p].st = .active ∧ s.ports[p].replay.head? = some i) ∧
    (∃ (l : LaneNo) (ch : Nat) (s : State), s.ports[portOf l].st = .active ∧
      s.ports[portOf l].inUse &&& laneBit l ≠ 0 ∧ ch < 4095 ∧ s.chanOn (portOf l) ch = none) ∧
    (∃ (l : LaneNo) (ch : Nat) (s : State) (x : _), s.ports[portOf l].st = .active ∧
      s.ports[portOf l].inUse &&& laneBit l ≠ 0 ∧ ch < 4095 ∧ s.chanOn (portOf l) ch = some x ∧
      s.chan x.num = some x) ∧
    (∃ (l : LaneNo) (ch : Nat) (s : State), s.ports[portOf l].st = .active ∧
      s.ports[portOf l].inUse &&& laneBit l ≠ 0 ∧ ch < 4095 ∧ s.chanOn (portOf l) ch = none) ∧
    (∃ (l : LaneNo) (ch : Nat) (s : State) (x : _), s.ports[portOf l].st = .active ∧
      s.ports[portOf l].inUse &&& laneBit l ≠ 0 ∧ ch < 4095 ∧ s.chanOn (portOf l) ch = some x ∧
      s.chan x.num = some x) ∧
    (∃ (p : PortNo) (s : State), s.ports[p].st = .active ∧ s.refreshable p ≠ []) :=
  ⟨⟨0, tReplay, by decide +kernel⟩,
   ⟨3, tReplay, by decide +kernel⟩,
   ⟨0, (tReplay.ports[0].replay[0]), tReplay, by decide +kernel⟩,
   ⟨0, 4094, tLink, by decide +kernel⟩,
   ⟨0, 2, tLink, (tLink.chans[0]), by decide +kernel⟩,
   ⟨0, 4094, tLink, by decide +kernel⟩,
   ⟨0, 2, tLink, (tLink.chans[0]), by decide +kernel⟩,
   ⟨0, tLink, by decide +kernel⟩⟩

/-- A state and operands which meet the hypotheses of each clause of `Obligations.TickSynchronisation`. -/
theorem test_TickSynchronisation :
    (∃ (l : LaneNo) (src : Bool) (y : Sync) (s : State), s.ports[portOf l].st = .active ∧
      s.ports[portOf l].inUse &&& laneBit l ≠ 0 ∧ s.ports[portOf l].sync = some y ∧ ((s.ports[portOf l].role = 0 →
      src = false))) ∧
    (∃ (l : LaneNo) (y : Sync) (s : State), s.ports[portOf l].st = .active ∧
      s.ports[portOf l].inUse &&& laneBit l ≠ 0 ∧ s.ports[portOf l].sync = some y ∧ y.a = none) ∧
    (∃ (l : LaneNo) (v : BitVec 40) (y : Sync) (s : State) (own : Int) (i : Nat), s.ports[portOf l].st = .active ∧
      s.ports[portOf l].inUse &&& laneBit l ≠ 0 ∧ s.ports[portOf l].sync = some y ∧ y.a = some own ∧ y.cmd = some i ∧
      2 ≤ y.good ∧ ((if y.source then v.toInt - own else own - v.toInt).tdiv 2).natAbs ≤ 2) ∧
    (∃ (p : PortNo) (y : Sync) (s : State), s.ports[p].st = .active ∧ s.ports[p].sync = some y) ∧
    (∃ (p : PortNo) (y : Sync) (s : State), s.ports[p].sync = some y ∧ y.synced = true) ∧
    (∃ (p : PortNo) (y : Sync) (i : Nat) (s : State), s.ports[p].sync = some y ∧ y.cmd = some i) :=
  ⟨⟨24, true, (tFollow none 0 false), (tSync (tFollow none 0 false)), by decide +kernel⟩,
   ⟨24, (tFollow none 0 false), (tSync (tFollow none 0 false)), by decide +kernel⟩,
   ⟨24, 4, (tFollow (some 8) 2 false), (tSync (tFollow (some 8) 2 false)), 8, 9, by decide +kernel⟩,
   ⟨6, (tFollow none 0 false), (tSync (tFollow none 0 false)), by decide +kernel⟩,
   ⟨6, (tFollow none 3 true), (tSync (tFollow none 3 true)), by decide +kernel⟩,
   ⟨6, (tFollow none 3 true), 9, (tSync (tFollow none 3 true)), by decide +kernel⟩⟩

/-- A state and operands which meet the hypotheses of each clause of `Obligations.MessagesBetweenModules`. -/
theorem test_MessagesBetweenModules :
    (∃ (c : Nat) (x : Chan) (f : Offer) (r : Run) (w : PhysNo × Nat) (s : State), s.chan c = some x ∧
      s.nextOffer x = some f ∧ x.pending = none ∧ s.ports[x.port].st = .active ∧ f.buffers + 1 ≤ s.spare c ∧
      s.runOf f.srcChan f.srcSeq.toNat = some r ∧ s.window0 r = some w) ∧
    (∃ (c : Nat) (m : W32) (x : Chan) (w : WideCopy) (since : Tick) (s : State), s.chan c = some x ∧
      ((x.q.copies.find? fun v => v.msgSeq = m) = some w) ∧ w.acked = some since ∧ w.requested = false) ∧
    (∃ (c : Nat) (x : Chan) (a : Answer) (s : State), s.chan c = some x ∧ ((x.q.answers.find? fun b =>
      b.kind = 3) = some a)) ∧
    (∃ (c : Nat) (x : Chan) (a : Answer) (s : State), s.chan c = some x ∧ ((x.q.answers.find? fun b =>
      b.kind = 4) = some a) ∧ s.ports[x.port].st ≠ .active) ∧
    (∃ (c : Nat) (x : Chan) (a : Answer) (s : State) (f : _), s.chan c = some x ∧ ((x.q.answers.find? fun b =>
      b.kind = 2) = some a) ∧ s.waitingWide c a.msgSeq = some f) ∧
    (∃ (c : Nat) (x : Chan) (a : Answer) (s : State), s.chan c = some x ∧ ((x.q.answers.find? fun b =>
      b.kind = 2) = some a) ∧ s.waitingWide c a.msgSeq = none) ∧
    (∃ (c : Nat) (x : Chan) (a : Answer) (f : Frame) (s : State), s.chan c = some x ∧ ((x.q.answers.find? fun b =>
      b.kind = 5) = some a) ∧ s.waitingWide c a.msgSeq = some f ∧ s.frame c f.seq = some f) :=
  ⟨⟨5, (tSends.chans[1]), (tSends.chans[1].q.offers[0]), (tRun [tPos []]), (0, 0), tSends, by decide +kernel⟩,
   ⟨5, 7, (tSends.chans[1]), (tSends.chans[1].q.copies[0]), 9, tSends, by decide +kernel⟩,
   ⟨5, (tSends.chans[1]), (tSends.chans[1].q.answers[0]), tSends, by decide +kernel⟩,
   ⟨5, (tSends.chans[1]), (tSends.chans[1].q.answers[1]), { tSends with ports := tSends.ports.set 6 (Port.idle 1) },
     by decide +kernel⟩,
   ⟨5, ((tReceives 2 7).chans[1]), ((tReceives 2 7).chans[1].q.answers[0]), (tReceives 2 7),
     ((tReceives 2 7).frames[0]), by decide +kernel⟩,
   ⟨5, ((tReceives 2 8).chans[1]), ((tReceives 2 8).chans[1].q.answers[0]), (tReceives 2 8), by decide +kernel⟩,
   ⟨5, ((tReceives 5 7).chans[1]), ((tReceives 5 7).chans[1].q.answers[0]), ((tReceives 5 7).frames[0]),
     (tReceives 5 7), by decide +kernel⟩⟩

/-- A state and operands which meet the hypotheses of each clause of `Obligations.FramesOnClusters`. -/
theorem test_FramesOnClusters :
    (∃ (n : FnNo) (s : State), ((∀ p ∈ s.progs, p.stratum = n → p.reselect = false)) ∧ s.stranded n = none ∧
      ((∀ x ∈ s.remaps, s.holder x.2.1 ≠ n)) ∧ ((∃ a ∈ s.readyFrames n, (s.startsOn a.1).isSome = true))) ∧
    (∃ (n : FnNo) (f : Frame) (s : State), ((∀ p ∈ s.progs, p.stratum = n → p.reselect = false)) ∧
      s.stranded n = some f) ∧
    (∃ (l : LogNo) (r : Run) (i : Nat) (k : Nat) (p : Position) (s : State), AtHead s opcNop l r i p k ∧
      r.ending = false ∧ ((∀ n, signalOf (p.uop k) = some n → p.sems[n] < 255))) ∧
    (∃ (l : LogNo) (r : Run) (i : Nat) (k : Nat) (p : Position) (s : State), AtHead s opcEnd l r i p k) ∧
    (∃ (l : LogNo) (r : Run) (i : Nat) (k : Nat) (p : Position) (s : State), AtHead s opcBarrier l r i p k) ∧
    (∃ (l : LogNo) (r : Run) (i : Nat) (n : Nat) (s : State), s.runAt l = some (r, i) ∧ r.ending = false ∧
      ((∀ p ∈ r.positions, n < p.barriers ∧ ∃ k, p.barrier = some (k, n) ∧ signalOf (p.uop k) = none))) ∧
    (∃ (l : LogNo) (r : Run) (i : Nat) (k : Nat) (p : Position) (x : Flight) (s : State) (u : State),
      s.runAt l = some (r, i) ∧ r.pos i = some p ∧ r.ending = false ∧ ((p.flights.find? fun y =>
      y.idx == k) = some x) ∧ u = (if opcOf (p.uop k) = opcStep ∧
      (stepOp (p.uop k)).close = false then s.stepLeaves r i k else s) ∧ opcOf (p.uop k) ≠ opcSload ∧
      opcOf (p.uop k) ≠ opcEnd ∧ x.done = true ∧ signalOf (p.uop k) = none) ∧
    (∃ (l : LogNo) (r : Run) (i : Nat) (k : Nat) (p : Position) (x : Flight) (s : State) (u : State) (n : _),
      s.runAt l = some (r, i) ∧ r.pos i = some p ∧ r.ending = false ∧ ((p.flights.find? fun y =>
      y.idx == k) = some x) ∧ u = (if opcOf (p.uop k) = opcStep ∧
      (stepOp (p.uop k)).close = false then s.stepLeaves r i k else s) ∧ opcOf (p.uop k) ≠ opcSload ∧
      opcOf (p.uop k) ≠ opcEnd ∧ x.done = true ∧ signalOf (p.uop k) = some n ∧ p.sems[n] < 255) ∧
    (∃ (l : LogNo) (r : Run) (i : Nat) (k : Nat) (p : Position) (x : Flight) (s : State) (u : State) (n : _),
      s.runAt l = some (r, i) ∧ r.pos i = some p ∧ r.ending = false ∧ ((p.flights.find? fun y =>
      y.idx == k) = some x) ∧ u = (if opcOf (p.uop k) = opcStep ∧
      (stepOp (p.uop k)).close = false then s.stepLeaves r i k else s) ∧ opcOf (p.uop k) ≠ opcSload ∧
      opcOf (p.uop k) ≠ opcEnd ∧ x.done = true ∧ signalOf (p.uop k) = some n ∧ 255 ≤ p.sems[n]) ∧
    (∃ (l : LogNo) (r : Run) (i : Nat) (k : Nat) (p : Position) (x : Flight) (s : State) (u : State),
      s.runAt l = some (r, i) ∧ r.pos i = some p ∧ r.ending = false ∧ ((p.flights.find? fun y =>
      y.idx == k) = some x) ∧ u = (if opcOf (p.uop k) = opcStep ∧
      (stepOp (p.uop k)).close = false then s.stepLeaves r i k else s) ∧ opcOf (p.uop k) = opcEnd ∧
      p.allBefore k = true ∧ signalOf (p.uop k) = none) ∧
    (∃ (l : LogNo) (r : Run) (i : Nat) (k : Nat) (p : Position) (x : Flight) (s : State) (u : State) (c : _) (w : _),
      s.runAt l = some (r, i) ∧ r.pos i = some p ∧ r.ending = false ∧ ((p.flights.find? fun y =>
      y.idx == k) = some x) ∧ u = (if opcOf (p.uop k) = opcStep ∧
      (stepOp (p.uop k)).close = false then s.stepLeaves r i k else s) ∧ opcOf (p.uop k) = opcSload ∧
      s.mapping[p.cluster] = some c ∧ x.tile = some w ∧ p.mayFill k = true ∧ signalOf (p.uop k) = none) ∧
    (∃ (l : LogNo) (r : Run) (i : Nat) (k : Nat) (p : Position) (s : State), s.runAt l = some (r, i) ∧
      r.pos i = some p ∧ p.head 0 = some k ∧ opcOf (p.uop k) = opcStep ∧
      p.stuck (s.clusterAt l) (s.reproOf r) k = true ∧ p.loadsComing k = false ∧ r.ending = false) ∧
    (∃ (l : LogNo) (r : Run) (i : Nat) (p : Position) (s : State), s.runAt l = some (r, i) ∧ r.pos i = some p ∧
      p.flights = [] ∧ s.stuckHeads r p ≠ [] ∧ r.ending = false) ∧
    (∃ (l : LogNo) (r : Run) (i : Nat) (p : Prog) (f : Frame) (s : State), s.runAt l = some (r, i) ∧
      r.ending = false ∧ ((∀ x ∈ r.positions, x.ended = true)) ∧ s.prog r.stratum r.prog = some p ∧
      p.reselect = false ∧ s.frame r.chan r.seq.toNat = some f ∧
      s.sendChannel r.stratum r.prog f.route.input = none) :=
  ⟨⟨0, { tArenas with progs := [tGroup],
                      frames := [{ tFrame 3 4 (.ready 5) with launch := some 1,
                                                              route := { slate := 0, prog := 1, input := 0 } }] },
                                                              by decide +kernel⟩,
   ⟨0, { tFrame 3 4 (.ready 5) with launch := some 1, route := { slate := 0, prog := 1, input := 0 } },
     { tArenas with progs := [{ tGroup with variant := none }],
                    frames := [{ tFrame 3 4 (.ready 5) with launch := some 1,
                                                            route := { slate := 0, prog := 1, input := 0 } }] },
                                                            by decide +kernel⟩,
   ⟨0, (tOnR (tAt (tSignal (tUop 12 0))) (tAt (tUop 12 0))), 0, 0, (tAt (tSignal (tUop 12 0))),
     (tOn (tAt (tSignal (tUop 12 0))) (tAt (tUop 12 0))), head_sound (by decide +kernel), by decide +kernel⟩,
   ⟨0, (tOnR (tAt (tUop 13 0)) (tAt (tUop 12 0))), 0, 0, (tAt (tUop 13 0)),
     (tOn (tAt (tUop 13 0)) (tAt (tUop 12 0))), head_sound (by decide +kernel)⟩,
   ⟨0, (tOnR (tAt (tUop 11 0)) (tAt (tUop 12 0))), 0, 0, (tAt (tUop 11 0)),
     (tOn (tAt (tUop 11 0)) (tAt (tUop 12 0))), head_sound (by decide +kernel)⟩,
   ⟨0, (tOnR tStopped tStopped), 0, 0, (tOn tStopped tStopped), by decide +kernel, by decide +kernel, tStopped_all⟩,
   ⟨0, (tOnR (tIssued (tUop 12 0) { Flight.start 0 0 with done := true }) (tAt (tUop 12 0))), 0, 0,
     (tIssued (tUop 12 0) { Flight.start 0 0 with done := true }), { Flight.start 0 0 with done := true },
     (tOn (tIssued (tUop 12 0) { Flight.start 0 0 with done := true }) (tAt (tUop 12 0))), _, by decide +kernel,
     by decide +kernel, by decide +kernel, by decide +kernel, rfl, by decide +kernel⟩,
   ⟨0, (tOnR (tIssued (tSignal (tUop 12 0)) { Flight.start 0 0 with done := true }) (tAt (tUop 12 0))), 0, 0,
     (tIssued (tSignal (tUop 12 0)) { Flight.start 0 0 with done := true }), { Flight.start 0 0 with done := true },
     (tOn (tIssued (tSignal (tUop 12 0)) { Flight.start 0 0 with done := true }) (tAt (tUop 12 0))), _, 0,
     by decide +kernel, by decide +kernel, by decide +kernel, by decide +kernel, rfl, by decide +kernel⟩,
   ⟨0, (tOnR { tIssued (tSignal (tUop 12 0)) { Flight.start 0 0 with done := true } with sems := Vector.replicate 16 255 } (tAt (tUop 12 0))), 0, 0, { tIssued (tSignal (tUop 12 0)) { Flight.start 0 0 with done := true } with sems := Vector.replicate 16 255 }, { Flight.start 0 0 with done := true }, (tOn { tIssued (tSignal (tUop 12 0)) { Flight.start 0 0 with done := true } with sems := Vector.replicate 16 255 } (tAt (tUop 12 0))), _, 0, by decide +kernel, by decide +kernel, by decide +kernel, by decide +kernel, rfl, by decide +kernel⟩,
   ⟨0, (tOnR (tIssued (tUop 13 0) (Flight.start 0 0)) (tAt (tUop 12 0))), 0, 0,
     (tIssued (tUop 13 0) (Flight.start 0 0)), (Flight.start 0 0),
     (tOn (tIssued (tUop 13 0) (Flight.start 0 0)) (tAt (tUop 12 0))), _, by decide +kernel, by decide +kernel,
     by decide +kernel, by decide +kernel, rfl, by decide +kernel⟩,
   ⟨0, (tOnR (tIssued (tSload 0) { Flight.start 0 0 with tile := some OpSlot.empty }) (tAt (tUop 12 0))), 0, 0,
     (tIssued (tSload 0) { Flight.start 0 0 with tile := some OpSlot.empty }),
     { Flight.start 0 0 with tile := some OpSlot.empty },
     (tOn (tIssued (tSload 0) { Flight.start 0 0 with tile := some OpSlot.empty }) (tAt (tUop 12 0))), _, 0,
     OpSlot.empty, by decide +kernel, by decide +kernel, by decide +kernel, by decide +kernel, rfl,
     by decide +kernel⟩,
   ⟨0, (tOnR (tAt (tWait (tStep 0 0 0))) (tAt (tUop 12 0))), 0, 0, (tAt (tWait (tStep 0 0 0))),
     (tOn (tAt (tWait (tStep 0 0 0))) (tAt (tUop 12 0))), by decide +kernel⟩,
   ⟨0, (tOnR (tAt (tWait (tUop 12 0))) (tAt (tUop 12 0))), 0, (tAt (tWait (tUop 12 0))),
     (tOn (tAt (tWait (tUop 12 0))) (tAt (tUop 12 0))), by decide +kernel⟩,
   ⟨0, (tOnR { tAt (tUop 12 0) with ended := true } { tAt (tUop 12 0) with ended := true }), 0, tGroup,
     ((tOn { tAt (tUop 12 0) with ended := true } { tAt (tUop 12 0) with ended := true }).frames[0]),
     (tOn { tAt (tUop 12 0) with ended := true } { tAt (tUop 12 0) with ended := true }), by decide +kernel⟩⟩

/-- A state and operands which meet the hypotheses of each clause of `Obligations.MatrixWork`. -/
theorem test_MatrixWork :
    (∃ (l : LogNo) (r : Run) (i : Nat) (k : Nat) (p : Position) (s : State), AtHead s opcStep l r i p k ∧
      p.stepMay (s.clusterAt l) (s.reproOf r) k = true ∧ r.ending = false ∧
      (s.clusterAt l).stepFault (stepOp (p.uop k)) = none) ∧
    (∃ (l : LogNo) (r : Run) (i : Nat) (k : Nat) (p : Position) (s : State) (c : _), AtHead s opcStep l r i p k ∧
      p.stepMay (s.clusterAt l) (s.reproOf r) k = true ∧ r.ending = false ∧
      (s.clusterAt l).stepFault (stepOp (p.uop k)) = some c) ∧
    (∃ (l : LogNo) (r : Run) (i : Nat) (p : Position) (f : Frame) (x : Flight) (rest : List Flight) (o : StepOp) (s : State) (u : State), s.runAt l = some (r, i) ∧ r.pos i = some p ∧ s.frame r.chan r.seq.toNat = some f ∧ p.undrained = x :: rest ∧ stepOp (p.uop x.idx) = o ∧ u = s.stepLeaves r i x.idx ∧ (s.clusterAt l).wide o.bankB = true ∧ o.outFmt ≠ 2 ∧ ((o.reduce = 0 ∨ s.rankOf r o.reduce i = some 0)) ∧ r.ending = false) ∧
    (∃ (l : LogNo) (r : Run) (i : Nat) (p : Position) (f : Frame) (x : Flight) (rest : List Flight) (o : StepOp) (s : State) (u : State), s.runAt l = some (r, i) ∧ r.pos i = some p ∧ s.frame r.chan r.seq.toNat = some f ∧ p.undrained = x :: rest ∧ stepOp (p.uop x.idx) = o ∧ u = s.stepLeaves r i x.idx ∧ o.reduce ≠ 0 ∧ (((s.clusterAt l).wide o.bankB = false ∨ o.outFmt = 2 ∨ s.rankOf r o.reduce i ≠ some 0))) ∧
    (∃ (l : LogNo) (r : Run) (i : Nat) (p : Position) (f : Frame) (x : Flight) (rest : List Flight) (o : StepOp) (s : State) (u : State), s.runAt l = some (r, i) ∧ r.pos i = some p ∧ s.frame r.chan r.seq.toNat = some f ∧ p.undrained = x :: rest ∧ stepOp (p.uop x.idx) = o ∧ u = s.stepLeaves r i x.idx ∧ o.reduce = 0 ∧ (((s.clusterAt l).wide o.bankB = false ∨ o.outFmt = 2)) ∧ (s.clusterAt l).coded o.bankB = false) ∧
    (∃ (l : LogNo) (r : Run) (i : Nat) (p : Position) (f : Frame) (x : Flight) (rest : List Flight) (o : StepOp) (s : State) (u : State) (h : _), s.runAt l = some (r, i) ∧ r.pos i = some p ∧ s.frame r.chan r.seq.toNat = some f ∧ p.undrained = x :: rest ∧ stepOp (p.uop x.idx) = o ∧ u = s.stepLeaves r i x.idx ∧ o.reduce = 0 ∧ (((s.clusterAt l).wide o.bankB = false ∨ o.outFmt = 2)) ∧ (s.clusterAt l).coded o.bankB = true ∧ s.presentedHead f = some h) ∧
    (∃ (l : LogNo) (r : Run) (i : Nat) (rank : Nat) (p : Partial) (s : State), s.runAt l = some (r, i) ∧
      ((r.partials.find? fun x => x.pos == i) = some p) ∧ s.reproOf r = true ∧ s.rankOf r p.group p.pos = some rank ∧
      p.level = (rankLevels rank (s.groupSize r p.group)).length ∧ rank = 0) ∧
    (∃ (l : LogNo) (r : Run) (i : Nat) (rank : Nat) (p : Partial) (s : State) (y : _), s.runAt l = some (r, i) ∧
      ((r.partials.find? fun x => x.pos == i) = some p) ∧ s.reproOf r = true ∧ s.rankOf r p.group p.pos = some rank ∧
      p.level = (rankLevels rank (s.groupSize r p.group)).length ∧ rank ≠ 0 ∧ ((r.partials.find? fun y =>
      y.group == p.group && y.num == p.num && s.rankOf r p.group y.pos == some (rank - 2 ^ sendLevel rank)) = some y) ∧ y.level = sendLevel rank) ∧
    (∃ (l : LogNo) (r : Run) (i : Nat) (p : Partial) (y : Partial) (s : State), s.runAt l = some (r, i) ∧
      ((r.partials.find? fun x => x.pos == i) = some p) ∧ s.reproOf r = false ∧ p.ready = false ∧
      (((r.partials.filter fun y => y.group == p.group && y.num == p.num && y.pos != p.pos).find? fun y =>
      y.ready && y.level == p.level) = some y) ∧ s.rankOf r p.group p.pos ≠ some 0) ∧
    (∃ (l : LogNo) (m : LogNo), l < m) ∧
    (∃ (l : LogNo) (r : Run) (i : Nat) (k : Nat) (p : Position) (s : State), AtHead s opcQsave l r i p k ∧
      p.undrained = [] ∧ p.reserved (s.clusterAt l) (s.reproOf r) + (bankOp (p.uop k)).bytes ≤ 0x10000 ∧
      (s.clusterAt l).wide (bankOp (p.uop k)).bankB = ((bankOp (p.uop k)).form == 2)) ∧
    (∃ (l : LogNo) (r : Run) (i : Nat) (k : Nat) (p : Position) (s : State), AtHead s opcQsave l r i p k ∧
      p.undrained = [] ∧ p.reserved (s.clusterAt l) (s.reproOf r) + (bankOp (p.uop k)).bytes ≤ 0x10000 ∧
      (s.clusterAt l).wide (bankOp (p.uop k)).bankB ≠ ((bankOp (p.uop k)).form == 2) ∧ r.ending = false) ∧
    (∃ (l : LogNo) (r : Run) (i : Nat) (k : Nat) (p : Position) (c : PhysNo) (s : State),
      AtHead s opcQload l r i p k ∧ p.undrained = [] ∧ s.mapping[l] = some c) ∧
    (∃ (l : LogNo) (r : Run) (i : Nat) (k : Nat) (p : Position) (c : PhysNo) (s : State),
      AtHead s opcQclear l r i p k ∧ p.undrained = [] ∧ s.mapping[l] = some c) :=
  ⟨⟨0, (tOnR (tAt (tStep 1 0 0)) (tAt (tUop 12 0))), 0, 0, (tAt (tStep 1 0 0)),
    (tOn (tAt (tStep 1 0 0)) (tAt (tUop 12 0))), head_sound (by decide +kernel), by decide +kernel⟩,
   ⟨0, (tOnR (tAt (tStep 1 0 0)) (tAt (tUop 12 0))), 0, 0, (tAt (tStep 1 0 0)),
     (tOnRun (tOnR (tAt (tStep 1 0 0)) (tAt (tUop 12 0))) (tFrame 3 4 .opened) tMisfit), 4,
     head_sound (by decide +kernel), by decide +kernel⟩,
   ⟨0, { tRun [(tIssued (tStep 1 0 0) (Flight.start 0 0))] with chan := 3 }, 0,
     (tIssued (tStep 1 0 0) (Flight.start 0 0)),
     ((tOnRun { tRun [(tIssued (tStep 1 0 0) (Flight.start 0 0))] with chan := 3 } (tFrame 3 4 .opened) { tCells with wideA := true }).frames[0]), (Flight.start 0 0), [], (stepOp (tStep 1 0 0)), (tOnRun { tRun [(tIssued (tStep 1 0 0) (Flight.start 0 0))] with chan := 3 } (tFrame 3 4 .opened) { tCells with wideA := true }), _, by decide +kernel, by decide +kernel, by decide +kernel, by decide +kernel, by decide +kernel, rfl, by decide +kernel⟩,
   ⟨0, { tRun [(tIssued (tStep 1 1 0) (Flight.start 0 0))] with chan := 3 }, 0,
     (tIssued (tStep 1 1 0) (Flight.start 0 0)),
     ((tOnRun { tRun [(tIssued (tStep 1 1 0) (Flight.start 0 0))] with chan := 3 } (tFrame 3 4 .opened) tCells).frames[0]), (Flight.start 0 0), [], (stepOp (tStep 1 1 0)), (tOnRun { tRun [(tIssued (tStep 1 1 0) (Flight.start 0 0))] with chan := 3 } (tFrame 3 4 .opened) tCells), _, by decide +kernel, by decide +kernel, by decide +kernel, by decide +kernel, by decide +kernel, rfl, by decide +kernel⟩,
   ⟨0, { tRun [(tIssued (tStep 1 0 1) (Flight.start 0 0))] with chan := 3 }, 0,
     (tIssued (tStep 1 0 1) (Flight.start 0 0)),
     ((tOnRun { tRun [(tIssued (tStep 1 0 1) (Flight.start 0 0))] with chan := 3 } (tFrame 3 4 .opened) tCells).frames[0]), (Flight.start 0 0), [], (stepOp (tStep 1 0 1)), (tOnRun { tRun [(tIssued (tStep 1 0 1) (Flight.start 0 0))] with chan := 3 } (tFrame 3 4 .opened) tCells), _, by decide +kernel, by decide +kernel, by decide +kernel, by decide +kernel, by decide +kernel, rfl, by decide +kernel⟩,
   ⟨0, { tRun [(tIssued (tStep 1 0 2) (Flight.start 0 0))] with chan := 5 }, 0,
     (tIssued (tStep 1 0 2) (Flight.start 0 0)),
     ((tOnRun { tRun [(tIssued (tStep 1 0 2) (Flight.start 0 0))] with chan := 5 } { tFrame 5 4 .opened with payload := List.replicate 64 0x40 } { tCells with codedA := true }).frames[0]), (Flight.start 0 0), [], (stepOp (tStep 1 0 2)), (tOnRun { tRun [(tIssued (tStep 1 0 2) (Flight.start 0 0))] with chan := 5 } { tFrame 5 4 .opened with payload := List.replicate 64 0x40 } { tCells with codedA := true }), _, (qhead (List.replicate 64 0x40)), by decide +kernel, by decide +kernel, by decide +kernel, by decide +kernel, by decide +kernel, rfl, by decide +kernel⟩,
   ⟨0, (tReduce [tPartial 0 1 false]), 0, 0, (tPartial 0 1 false), (tReduceOn true [tPartial 0 1 false]),
     by decide +kernel⟩,
   ⟨1, (tReduce [tPartial 0 0 false, tPartial 1 0 false]), 1, 1, (tPartial 1 0 false),
     (tReduceOn true [tPartial 0 0 false, tPartial 1 0 false]), (tPartial 0 0 false), by decide +kernel⟩,
   ⟨1, (tReduce [tPartial 0 0 true, tPartial 1 0 false]), 1, (tPartial 1 0 false), (tPartial 0 0 true),
     (tReduceOn false [tPartial 0 0 true, tPartial 1 0 false]), by decide +kernel⟩,
   ⟨0, 1, by decide +kernel⟩,
   ⟨0, (tOnR (tAt (tUop 3 (2 ^ 93))) (tAt (tUop 12 0))), 0, 0, (tAt (tUop 3 (2 ^ 93))),
     (tOn (tAt (tUop 3 (2 ^ 93))) (tAt (tUop 12 0))), head_sound (by decide +kernel), by decide +kernel⟩,
   ⟨0, (tOnR (tAt (tUop 3 (2 * 2 ^ 93))) (tAt (tUop 12 0))), 0, 0, (tAt (tUop 3 (2 * 2 ^ 93))),
     (tOn (tAt (tUop 3 (2 * 2 ^ 93))) (tAt (tUop 12 0))), head_sound (by decide +kernel), by decide +kernel⟩,
   ⟨0, (tOnR (tAt (tUop 4 (2 ^ 93))) (tAt (tUop 12 0))), 0, 0, (tAt (tUop 4 (2 ^ 93))), 0,
     (tOn (tAt (tUop 4 (2 ^ 93))) (tAt (tUop 12 0))), head_sound (by decide +kernel), by decide +kernel⟩,
   ⟨0, (tOnR (tAt (tUop 5 (2 ^ 95 + 2 * 2 ^ 93))) (tAt (tUop 12 0))), 0, 0, (tAt (tUop 5 (2 ^ 95 + 2 * 2 ^ 93))), 0,
     (tOn (tAt (tUop 5 (2 ^ 95 + 2 * 2 ^ 93))) (tAt (tUop 12 0))), head_sound (by decide +kernel), by decide +kernel⟩⟩

/-- A state and operands which meet the hypotheses of each clause of `Obligations.ClusterTransfers`. -/
theorem test_ClusterTransfers :
    (∃ (l : LogNo) (r : Run) (i : Nat) (k : Nat) (p : Position) (f : Frame) (s : State) (w : _) (u : _),
      AtHead s opcSload l r i p k ∧ s.frame r.chan r.seq.toNat = some f ∧
      s.sloadTile r i f (sloadOp (p.uop k)) s.free = .ok w ∧
      u = ({ s with free := s.free + 1 }).issue r i { Flight.start k 0 with tile := some w } ∧ p.mayFill k = false) ∧
    (∃ (l : LogNo) (r : Run) (i : Nat) (k : Nat) (p : Position) (f : Frame) (s : State) (w : _) (u : _) (c : _),
      AtHead s opcSload l r i p k ∧ s.frame r.chan r.seq.toNat = some f ∧
      s.sloadTile r i f (sloadOp (p.uop k)) s.free = .ok w ∧
      u = ({ s with free := s.free + 1 }).issue r i { Flight.start k 0 with tile := some w } ∧
      s.mapping[p.cluster] = some c ∧ p.mayFill k = true) ∧
    (∃ (l : LogNo) (r : Run) (i : Nat) (k : Nat) (p : Position) (f : Frame) (s : State) (c : _) (a : _),
      AtHead s opcSload l r i p k ∧ s.frame r.chan r.seq.toNat = some f ∧ r.ending = false ∧
      s.sloadTile r i f (sloadOp (p.uop k)) s.free = .error (.fault c a)) ∧
    (∃ (l : LogNo) (r : Run) (i : Nat) (k : Nat) (p : Position) (f : Frame) (s : State) (va : Nat) (e : Ecc) (u : State), AtHead s opcSload l r i p k ∧ s.frame r.chan r.seq.toNat = some f ∧ s.readsAt r f (sloadOp (p.uop k)).reads va = true ∧ u = s.foundAt r.stratum va e ∧ s.readLost r.stratum va e = false ∧ u.runKey l = s.runKey l) ∧
    (∃ (l : LogNo) (r : Run) (i : Nat) (k : Nat) (p : Position) (f : Frame) (s : State) (va : Nat) (e : Ecc) (u : State), AtHead s opcSload l r i p k ∧ s.frame r.chan r.seq.toNat = some f ∧ s.readsAt r f (sloadOp (p.uop k)).reads va = true ∧ u = s.foundAt r.stratum va e ∧ s.readLost r.stratum va e = true ∧ (u.abortFrame r.chan r.seq.toNat).runKey l ≠ s.runKey l) ∧
    (∃ (l : LogNo) (r : Run) (i : Nat) (k : Nat) (p : Position) (f : Frame) (o : BlockOp) (s : State) (rows : _),
      AtHead s opcGet l r i p k ∧ s.frame r.chan r.seq.toNat = some f ∧ blockOp (p.uop k) = o ∧ (readRows (fun a =>
      s.baseRead r i f o.base (o.off + a * o.fstride) o.rbytes) (List.range o.rows) = .ok rows)) ∧
    (∃ (l : LogNo) (r : Run) (i : Nat) (k : Nat) (p : Position) (f : Frame) (o : BlockOp) (s : State) (c : _) (a : _), AtHead s opcGet l r i p k ∧ s.frame r.chan r.seq.toNat = some f ∧ blockOp (p.uop k) = o ∧ r.ending = false ∧ (readRows (fun a => s.baseRead r i f o.base (o.off + a * o.fstride) o.rbytes) (List.range o.rows) = .error (.fault c a))) ∧
    (∃ (l : LogNo) (r : Run) (i : Nat) (k : Nat) (p : Position) (f : Frame) (o : BlockOp) (s : State) (va : Nat) (e : Ecc) (u : State), AtHead s opcGet l r i p k ∧ s.frame r.chan r.seq.toNat = some f ∧ blockOp (p.uop k) = o ∧ s.readsAt r f o.reads va = true ∧ u = s.foundAt r.stratum va e ∧ s.readLost r.stratum va e = false ∧ u.runKey l = s.runKey l) ∧
    (∃ (l : LogNo) (r : Run) (i : Nat) (k : Nat) (p : Position) (f : Frame) (o : BlockOp) (s : State) (va : Nat) (e : Ecc) (u : State), AtHead s opcGet l r i p k ∧ s.frame r.chan r.seq.toNat = some f ∧ blockOp (p.uop k) = o ∧ s.readsAt r f o.reads va = true ∧ u = s.foundAt r.stratum va e ∧ s.readLost r.stratum va e = true ∧ (u.abortFrame r.chan r.seq.toNat).runKey l ≠ s.runKey l) ∧
    (∃ (l : LogNo) (r : Run) (i : Nat) (k : Nat) (p : Position) (f : Frame) (s : State) (u : State),
      AtHead s opcPut l r i p k ∧ s.frame r.chan r.seq.toNat = some f ∧
      s.putRows r i f (blockOp (p.uop k)) (List.range (blockOp (p.uop k)).rows) = (u, none)) ∧
    (∃ (l : LogNo) (r : Run) (i : Nat) (k : Nat) (j : Nat) (p : Position) (q : Position) (s : State),
      AtHead s opcHsend l r i p k ∧ (haloOp (p.uop k)).dir < 4 ∧
      neighbour (s.groupShape r).1 (s.groupShape r).2 i (haloOp (p.uop k)).dir = some j ∧ r.pos j = some q ∧
      q.halo opcHrecv (((haloOp (p.uop k)).dir + 2) % 4) p.sends[(Fin.ofNat 4 (haloOp (p.uop k)).dir : Fin 4)] = none) ∧
    (∃ (l : LogNo) (r : Run) (i : Nat) (k : Nat) (j : Nat) (p : Position) (q : Position) (s : State) (m : _),
      AtHead s opcHsend l r i p k ∧ (haloOp (p.uop k)).dir < 4 ∧
      neighbour (s.groupShape r).1 (s.groupShape r).2 i (haloOp (p.uop k)).dir = some j ∧ r.pos j = some q ∧
      q.halo opcHrecv (((haloOp (p.uop k)).dir + 2) % 4) p.sends[(Fin.ofNat 4 (haloOp (p.uop k)).dir : Fin 4)] = some m) ∧
    (∃ (l : LogNo) (r : Run) (i : Nat) (k : Nat) (j : Nat) (p : Position) (q : Position) (s : State),
      AtHead s opcHrecv l r i p k ∧ (haloOp (p.uop k)).dir < 4 ∧
      neighbour (s.groupShape r).1 (s.groupShape r).2 i (haloOp (p.uop k)).dir = some j ∧ r.pos j = some q ∧
      q.halo opcHsend (((haloOp (p.uop k)).dir + 2) % 4) p.recvs[(Fin.ofNat 4 (haloOp (p.uop k)).dir : Fin 4)] = none) ∧
    (∃ (l : LogNo) (r : Run) (i : Nat) (k : Nat) (j : Nat) (p : Position) (q : Position) (s : State) (m : _),
      AtHead s opcHrecv l r i p k ∧ (haloOp (p.uop k)).dir < 4 ∧
      neighbour (s.groupShape r).1 (s.groupShape r).2 i (haloOp (p.uop k)).dir = some j ∧ r.pos j = some q ∧
      q.halo opcHsend (((haloOp (p.uop k)).dir + 2) % 4) p.recvs[(Fin.ofNat 4 (haloOp (p.uop k)).dir : Fin 4)] = some m) :=
  ⟨⟨0, (tOnR tTwice (tAt (tUop 12 0))), 0, 1, tTwice, ((tOn tTwice (tAt (tUop 12 0))).frames[0]),
    (tOn tTwice (tAt (tUop 12 0))), _, _, head_sound (by decide +kernel), by decide +kernel, okOr_eq (d :=
    OpSlot.empty) (by decide +kernel), rfl, by decide +kernel⟩,
   ⟨0, (tOnR (tAt (tSload 0)) (tAt (tUop 12 0))), 0, 0, (tAt (tSload 0)),
     ((tOn (tAt (tSload 0)) (tAt (tUop 12 0))).frames[0]), (tOn (tAt (tSload 0)) (tAt (tUop 12 0))), _, _, 0,
     head_sound (by decide +kernel), by decide +kernel, okOr_eq (d := OpSlot.empty) (by decide +kernel), rfl,
     by decide +kernel⟩,
   ⟨0, (tOnR (tAt (tSload 1024)) (tAt (tUop 12 0))), 0, 0, (tAt (tSload 1024)),
     ((tOn (tAt (tSload 1024)) (tAt (tUop 12 0))).frames[0]), (tOn (tAt (tSload 1024)) (tAt (tUop 12 0))), 5, 0,
     head_sound (by decide +kernel), by decide +kernel, by decide +kernel, fault_eq (by decide +kernel)⟩,
   ⟨0, (tOnR (tAt (tSload 0 ||| 3#128 <<< 86)) (tAt (tUop 12 0))), 0, 0, (tAt (tSload 0 ||| 3#128 <<< 86)), ((tOn (tAt (tSload 0 ||| 3#128 <<< 86)) (tAt (tUop 12 0))).frames[0]), (tOn (tAt (tSload 0 ||| 3#128 <<< 86)) (tAt (tUop 12 0))), 5, .corrected, _, head_sound (by decide +kernel), by decide +kernel, by decide +kernel, rfl, by decide +kernel⟩,
   ⟨0, (tOnR (tAt (tSload 0 ||| 3#128 <<< 86)) (tAt (tUop 12 0))), 0, 0, (tAt (tSload 0 ||| 3#128 <<< 86)), ((tOn (tAt (tSload 0 ||| 3#128 <<< 86)) (tAt (tUop 12 0))).frames[0]), (tOn (tAt (tSload 0 ||| 3#128 <<< 86)) (tAt (tUop 12 0))), 5, .uncorrectable, _, head_sound (by decide +kernel), by decide +kernel, by decide +kernel, rfl, by decide +kernel⟩,
   ⟨0, (tOnR (tAt (tBlock 6 1 0)) (tAt (tUop 12 0))), 0, 0, (tAt (tBlock 6 1 0)),
     ((tOn (tAt (tBlock 6 1 0)) (tAt (tUop 12 0))).frames[0]), (blockOp (tBlock 6 1 0)),
     (tOn (tAt (tBlock 6 1 0)) (tAt (tUop 12 0))), _, head_sound (by decide +kernel), by decide +kernel,
     by decide +kernel, okOr_eq (d := []) (by decide +kernel)⟩,
   ⟨0, (tOnR (tAt (tBlock 6 1 0xFFFFFF)) (tAt (tUop 12 0))), 0, 0, (tAt (tBlock 6 1 0xFFFFFF)),
     ((tOn (tAt (tBlock 6 1 0xFFFFFF)) (tAt (tUop 12 0))).frames[0]), (blockOp (tBlock 6 1 0xFFFFFF)),
     (tOn (tAt (tBlock 6 1 0xFFFFFF)) (tAt (tUop 12 0))), 5, 0, head_sound (by decide +kernel), by decide +kernel,
     by decide +kernel, by decide +kernel, fault_eq (by decide +kernel)⟩,
   ⟨0, (tOnR (tAt (tBlock 6 3 0)) (tAt (tUop 12 0))), 0, 0, (tAt (tBlock 6 3 0)),
     ((tOn (tAt (tBlock 6 3 0)) (tAt (tUop 12 0))).frames[0]), (blockOp (tBlock 6 3 0)),
     (tOn (tAt (tBlock 6 3 0)) (tAt (tUop 12 0))), 5, .corrected, _, head_sound (by decide +kernel),
     by decide +kernel, by decide +kernel, by decide +kernel, rfl, by decide +kernel⟩,
   ⟨0, (tOnR (tAt (tBlock 6 3 0)) (tAt (tUop 12 0))), 0, 0, (tAt (tBlock 6 3 0)),
     ((tOn (tAt (tBlock 6 3 0)) (tAt (tUop 12 0))).frames[0]), (blockOp (tBlock 6 3 0)),
     (tOn (tAt (tBlock 6 3 0)) (tAt (tUop 12 0))), 5, .uncorrectable, _, head_sound (by decide +kernel),
     by decide +kernel, by decide +kernel, by decide +kernel, rfl, by decide +kernel⟩,
   ⟨0, { tRun [(tAt (tBlock 7 5 0))] with out := List.replicate 64 0 }, 0, 0, (tAt (tBlock 7 5 0)),
     ((tOnRun { tRun [(tAt (tBlock 7 5 0))] with out := List.replicate 64 0 } (tFrame 3 4 .opened) tCells).frames[0]), (tOnRun { tRun [(tAt (tBlock 7 5 0))] with out := List.replicate 64 0 } (tFrame 3 4 .opened) tCells), _, head_sound (by decide +kernel), by decide +kernel, pair_none (by decide +kernel)⟩,
   ⟨0, (tOnR (tAt (tHalo 8 1)) (tAt (tHalo 9 3))), 0, 0, 1, (tAt (tHalo 8 1)),
     { (tAt (tHalo 9 3)) with cluster := 1 }, (tOn (tAt (tHalo 8 1)) (tAt (tHalo 9 3))),
     head_sound (by decide +kernel), by decide +kernel⟩,
   ⟨0, (tOnR (tAt (tHalo 8 1)) (tIssued (tHalo 9 3) (Flight.start 0 0))), 0, 0, 1, (tAt (tHalo 8 1)),
     { (tIssued (tHalo 9 3) (Flight.start 0 0)) with cluster := 1 },
     (tOn (tAt (tHalo 8 1)) (tIssued (tHalo 9 3) (Flight.start 0 0))), 0, head_sound (by decide +kernel),
     by decide +kernel⟩,
   ⟨0, (tOnR (tAt (tHalo 9 1)) (tAt (tHalo 8 3))), 0, 0, 1, (tAt (tHalo 9 1)),
     { (tAt (tHalo 8 3)) with cluster := 1 }, (tOn (tAt (tHalo 9 1)) (tAt (tHalo 8 3))),
     head_sound (by decide +kernel), by decide +kernel⟩,
   ⟨0, (tOnR (tAt (tHalo 9 1)) (tIssued (tHalo 8 3) (Flight.start 0 0))), 0, 0, 1, (tAt (tHalo 9 1)),
     { (tIssued (tHalo 8 3) (Flight.start 0 0)) with cluster := 1 },
     (tOn (tAt (tHalo 9 1)) (tIssued (tHalo 8 3) (Flight.start 0 0))), 0, head_sound (by decide +kernel),
     by decide +kernel⟩⟩

/-- A state and operands which meet the hypotheses of each clause of `Obligations.MicaOperations`. -/
theorem test_MicaOperations :
    (∃ (l : LogNo) (r : Run) (i : Nat) (k : Nat) (p : Position) (f : Frame) (o : MicaOp) (s : State) (c : _),
      AtHead s opcMica l r i p k ∧ s.frame r.chan r.seq.toNat = some f ∧ micaOp (p.uop k) = o ∧
      c ∈ [(Instr.micaExp l, 1), (Instr.micaExp2 l, 2), (Instr.micaLog2 l, 3), (Instr.micaRecip l, 4),
      (Instr.micaRsqrt l, 5), (Instr.micaTanh l, 6), (Instr.micaSigmoid l, 7), (Instr.micaErf l, 8),
      (Instr.micaGeluErf l, 9), (Instr.micaGeluTanh l, 10), (Instr.micaGeluSig l, 11), (Instr.micaSilu l, 12)] ∧
      o.func = c.2) ∧
    (∃ (l : LogNo) (r : Run) (i : Nat) (k : Nat) (p : Position) (f : Frame) (o : MicaOp) (s : State),
      AtHead s opcMica l r i p k ∧ s.frame r.chan r.seq.toNat = some f ∧ micaOp (p.uop k) = o ∧ o.table = true) ∧
    (∃ (l : LogNo) (r : Run) (i : Nat) (k : Nat) (p : Position) (f : Frame) (o : MicaOp) (s : State),
      AtHead s opcMica l r i p k ∧ s.frame r.chan r.seq.toNat = some f ∧ micaOp (p.uop k) = o ∧ o.func = 0x13) ∧
    (∃ (l : LogNo) (r : Run) (i : Nat) (k : Nat) (p : Position) (f : Frame) (o : MicaOp) (s : State),
      AtHead s opcMica l r i p k ∧ s.frame r.chan r.seq.toNat = some f ∧ micaOp (p.uop k) = o ∧ o.func = 0x11) ∧
    (∃ (l : LogNo) (r : Run) (i : Nat) (k : Nat) (p : Position) (f : Frame) (o : MicaOp) (s : State),
      AtHead s opcMica l r i p k ∧ s.frame r.chan r.seq.toNat = some f ∧ micaOp (p.uop k) = o ∧ o.func = 0x10 ∧
      o.vec = false ∧ o.init = true) ∧
    (∃ (l : LogNo) (r : Run) (i : Nat) (k : Nat) (p : Position) (f : Frame) (o : MicaOp) (s : State),
      AtHead s opcMica l r i p k ∧ s.frame r.chan r.seq.toNat = some f ∧ micaOp (p.uop k) = o ∧ o.func = 0x10) ∧
    (∃ (l : LogNo) (r : Run) (i : Nat) (k : Nat) (p : Position) (f : Frame) (o : MicaOp) (s : State),
      AtHead s opcMica l r i p k ∧ s.frame r.chan r.seq.toNat = some f ∧ micaOp (p.uop k) = o ∧ o.func = 0x12 ∧
      o.fin = false ∧ o.init = true) ∧
    (∃ (l : LogNo) (r : Run) (i : Nat) (k : Nat) (p : Position) (f : Frame) (o : MicaOp) (s : State),
      AtHead s opcMica l r i p k ∧ s.frame r.chan r.seq.toNat = some f ∧ micaOp (p.uop k) = o ∧ o.mprog = true) ∧
    (∃ (l : LogNo) (r : Run) (i : Nat) (p : Position) (m : MprogRun) (f : Frame) (s : State) (c : _) (img : _) (lanes : _), s.runAt l = some (r, i) ∧ r.pos i = some p ∧ spGet r.mprogs i = some m ∧ s.frame r.chan r.seq.toNat = some f ∧ c ∈ [(Instr.mul l, 1), (Instr.add l, 2), (Instr.fmq l, 3), (Instr.lut l, 4), (Instr.csel l, 5), (Instr.rred l, 6), (Instr.rscale l, 7)] ∧ (mstep f.mprogs[(Fin.ofNat 8 ((micaOp (p.uop m.idx)).func - 0x30) : Fin 8)] m.step).op = c.2 ∧ img = f.mprogs[(Fin.ofNat 8 ((micaOp (p.uop m.idx)).func - 0x30) : Fin 8)] ∧ lanes = mprogLanesAfter f (mstep img m.step) m.lanes) ∧
    (∃ (inFmt : Nat) (outFmt : Nat), inFmt < 3 ∧ outFmt < 3) ∧
    (∃ (func : Nat) (inFmt : Nat) (p : Nat), p % 2 ^ fmtBits inFmt ≠ nar (fmtBits inFmt) ∧
      micaDomain func (fxOfPosit (fmtBits inFmt) p) = false) :=
  ⟨⟨0, (tMicaRun (tMica 12 0)), 0, 0, (tAt (tMica 12 0)), ((tMicaOn (tMica 12 0)).frames[0]), (micaOp (tMica 12 0)),
    (tMicaOn (tMica 12 0)), (Instr.micaSilu 0, 12), head_sound (by decide +kernel), by decide +kernel⟩,
   ⟨0, (tMicaRun (tMica 39 0)), 0, 0, (tAt (tMica 39 0)), ((tMicaOn (tMica 39 0)).frames[0]), (micaOp (tMica 39 0)),
     (tMicaOn (tMica 39 0)), head_sound (by decide +kernel), by decide +kernel⟩,
   ⟨0, (tMicaRun (tMica 19 0)), 0, 0, (tAt (tMica 19 0)), ((tMicaOn (tMica 19 0)).frames[0]), (micaOp (tMica 19 0)),
     (tMicaOn (tMica 19 0)), head_sound (by decide +kernel), by decide +kernel⟩,
   ⟨0, (tMicaRun (tMica 17 0)), 0, 0, (tAt (tMica 17 0)), ((tMicaOn (tMica 17 0)).frames[0]), (micaOp (tMica 17 0)),
     (tMicaOn (tMica 17 0)), head_sound (by decide +kernel), by decide +kernel⟩,
   ⟨0, (tMicaRun (tMica 16 1)), 0, 0, (tAt (tMica 16 1)), ((tMicaOn (tMica 16 1)).frames[0]), (micaOp (tMica 16 1)),
     (tMicaOn (tMica 16 1)), head_sound (by decide +kernel), by decide +kernel⟩,
   ⟨0, (tMicaRun (tMica 16 2)), 0, 0, (tAt (tMica 16 2)), ((tMicaOn (tMica 16 2)).frames[0]), (micaOp (tMica 16 2)),
     (tMicaOn (tMica 16 2)), head_sound (by decide +kernel), by decide +kernel⟩,
   ⟨0, (tMicaRun (tMica 18 1)), 0, 0, (tAt (tMica 18 1)), ((tMicaOn (tMica 18 1)).frames[0]), (micaOp (tMica 18 1)),
     (tMicaOn (tMica 18 1)), head_sound (by decide +kernel), by decide +kernel⟩,
   ⟨0, (tMicaRun (tMica 55 0)), 0, 0, (tAt (tMica 55 0)), ((tMicaOn (tMica 55 0)).frames[0]), (micaOp (tMica 55 0)),
     (tMicaOn (tMica 55 0)), head_sound (by decide +kernel), by decide +kernel⟩,
   ⟨0, tMprogR, 0, (tIssued (tMica 0x30 0) (Flight.start 0 0)), tMprogRun, ((tMprogOn 7).frames[0]), (tMprogOn 7),
     (Instr.rscale 0, 7), _, _, by decide +kernel, by decide +kernel, by decide +kernel, by decide +kernel,
     by decide +kernel, by decide +kernel, rfl, rfl⟩,
   ⟨2, 0, by decide +kernel⟩,
   ⟨3, 1, 0xC000, by decide +kernel⟩⟩

/-- A state and operands which meet the hypotheses of each clause of `Obligations.LockstepFrames`. -/
theorem test_LockstepFrames :
    (∃ (p : PortNo) (b : List Byte) (s : State) (d : Digest), s.ports[p].st = .active ∧ s.ports[p].skipping = false ∧
      s.ports[p].role = 2 ∧ 1 ≤ b.length ∧ b.length ≤ 4096 ∧
      s.ports[p].creditsOf b.length ≤ (s.ports[p].lockRx.limit - s.ports[p].lockRx.consumed).toNat ∧
      (s.ports[p].lockRx.limit - s.ports[p].lockRx.consumed).toNat ≤ 32767 ∧ b = lockPayload 1 1 (digestRecord d) ∧
      s.lock.st = .paired ∧ d.pairSeq < 2 ^ 64 ∧ d.chan < 65536 ∧ d.tiles < 2 ^ 32) ∧
    (∃ (p : PortNo) (b : List Byte) (s : State) (q : Nat) (c : Nat), s.ports[p].st = .active ∧
      s.ports[p].skipping = false ∧ s.ports[p].role = 2 ∧ 1 ≤ b.length ∧ b.length ≤ 4096 ∧
      s.ports[p].creditsOf b.length ≤ (s.ports[p].lockRx.limit - s.ports[p].lockRx.consumed).toNat ∧
      (s.ports[p].lockRx.limit - s.ports[p].lockRx.consumed).toNat ≤ 32767 ∧
      b = lockPayload 2 1 (leBytes 8 q ++ leBytes 2 c ++ List.replicate 6 0) ∧ s.lock.st = .paired ∧ q < 2 ^ 64 ∧
      c < 65536 ∧ s.lock.log c q = none) ∧
    (∃ (p : PortNo) (b : List Byte) (s : State) (d : Digest) (l : List TileSig), s.ports[p].st = .active ∧
      s.ports[p].skipping = false ∧ s.ports[p].role = 2 ∧ 1 ≤ b.length ∧ b.length ≤ 4096 ∧
      s.ports[p].creditsOf b.length ≤ (s.ports[p].lockRx.limit - s.ports[p].lockRx.consumed).toNat ∧
      (s.ports[p].lockRx.limit - s.ports[p].lockRx.consumed).toNat ≤ 32767 ∧
      b = logPayload d.chan d.pairSeq true [] ∧ d.pairSeq < 2 ^ 64 ∧ d.chan < 65536 ∧ ((s.lock.asked.find? fun e =>
      e.1.chan == d.chan && e.1.pairSeq == d.pairSeq) = some (d, l)) ∧ s.lock.first = none) ∧
    (∃ (p : PortNo) (b : List Byte) (s : State) (x : Chan) (set : Nat), s.ports[p].st = .active ∧
      s.ports[p].skipping = false ∧ s.ports[p].role = 2 ∧ 1 ≤ b.length ∧ b.length ≤ 4096 ∧
      s.ports[p].creditsOf b.length ≤ (s.ports[p].lockRx.limit - s.ports[p].lockRx.consumed).toNat ∧
      (s.ports[p].lockRx.limit - s.ports[p].lockRx.consumed).toNat ≤ 32767 ∧
      b = lockPayload 4 1 (forwardRecord x.num 3 0 set) ∧ x.num < 65536 ∧ set < 256 ∧ s.chan x.num = some x ∧
      s.takesForwarded x = true ∧ s.lock.area = []) ∧
    (∃ (p : PortNo) (b : List Byte) (s : State), s.ports[p].st = .active ∧ s.ports[p].skipping = false ∧
      s.ports[p].role = 2 ∧ 1 ≤ b.length ∧ b.length ≤ 4096 ∧
      s.ports[p].creditsOf b.length ≤ (s.ports[p].lockRx.limit - s.ports[p].lockRx.consumed).toNat ∧
      (s.ports[p].lockRx.limit - s.ports[p].lockRx.consumed).toNat ≤ 32767 ∧ fieldNat b 0 1 = 5 ∧
      s.lock.st ≠ .paired ∧ s.lock.st ≠ .pairing) ∧
    (∃ (p : PortNo) (b : List Byte) (s : State) (i : _), s.ports[p].st = .active ∧ s.ports[p].skipping = false ∧
      s.ports[p].role = 2 ∧ 1 ≤ b.length ∧ b.length ≤ 4096 ∧
      s.ports[p].creditsOf b.length ≤ (s.ports[p].lockRx.limit - s.ports[p].lockRx.consumed).toNat ∧
      (s.ports[p].lockRx.limit - s.ports[p].lockRx.consumed).toNat ≤ 32767 ∧ fieldNat b 0 1 = 5 ∧
      s.lock.st = .pairing ∧ s.lock.cmd = some i) ∧
    (∃ (p : PortNo) (b : List Byte) (s : State), s.ports[p].st = .active ∧ s.ports[p].skipping = false ∧
      s.ports[p].role = 2 ∧ 1 ≤ b.length ∧ b.length ≤ 4096 ∧
      s.ports[p].creditsOf b.length ≤ (s.ports[p].lockRx.limit - s.ports[p].lockRx.consumed).toNat ∧
      (s.ports[p].lockRx.limit - s.ports[p].lockRx.consumed).toNat ≤ 32767 ∧ fieldNat b 0 1 = 6 ∧
      s.lock.st = .paired) ∧
    (∃ (i : Nat) (s : State), s.lock.st = .pairing ∧ s.lock.cmd = some i) :=
  ⟨⟨7, (lockPayload 1 1 (digestRecord tDigest)), (tPair fun l => l), tDigest, by decide +kernel⟩,
   ⟨7, (lockPayload 2 1 (leBytes 8 7 ++ leBytes 2 3 ++ List.replicate 6 0)), (tPair fun l => l), 7, 3,
     by decide +kernel⟩,
   ⟨7, (logPayload 3 7 true []), (tPair fun l => { l with asked := [(tDigest, [])] }), tDigest, [],
     by decide +kernel⟩,
   ⟨7, (lockPayload 4 1 (forwardRecord 3 3 0 15)), (tPair fun l => l), ((tPair fun l => l).chans[0]), 15,
     by decide +kernel⟩,
   ⟨7, (lockPayload 5 1 (State.pairRecord tLink)), (tPair fun l => { l with st := .unpaired }), by decide +kernel⟩,
   ⟨7, (lockPayload 5 1 (State.pairRecord tLink)), (tPair fun l => { l with st := .pairing, cmd := some 9 }), 9,
     by decide +kernel⟩,
   ⟨7, (lockPayload 6 0 []), (tPair fun l => l), by decide +kernel⟩,
   ⟨9, (tPair fun l => { l with st := .pairing, cmd := some 9 }), by decide +kernel⟩⟩

/-- A state and operands which meet the hypotheses of each clause of `Obligations.UnlistedOpcodeRejected`. -/
theorem test_UnlistedOpcodeRejected :
    (∃ (fn : FnNo) (qp : QpNo) (op : BitVec 8) (p : Packet) (s : State), listedOpcodes.contains op.toNat = false ∧
      Ready s fn qp op false p) :=
  ⟨0, 1, 0x99, (tPacket specDevStatus 0 []), tHeldCmd, by decide +kernel, ready_sound (by decide +kernel)⟩

/-- A state and operands which meet the hypotheses of each clause of `Obligations.CommandsTurnedAway`. -/
theorem test_CommandsTurnedAway :
    (∃ (c : Instr) (w : CmdSpec) (long : Bool) (fn : FnNo) (qp : QpNo) (p : Packet) (s : State), command c = some (w,
      long, fn, qp, p) ∧ Ready s fn qp w.op long p ∧ s.strata[fn].live = false ∧ w.op ≠ 1) ∧
    (∃ (fn : FnNo) (qp : QpNo) (op : BitVec 8) (p : Packet) (tag : W16) (s : State),
      s.fns[fn].qps[qp].chainFailed = some tag ∧ s.queueOpen fn qp = true ∧ s.inTurn fn qp = true ∧
      ((s.fns[fn].qps[qp].held = some ⟨op, p⟩ ∨ (s.fns[fn].qps[qp].held = none ∧ s.fns[fn].busMaster = true ∧
      s.fns[fn].qps[qp].stopping = false ∧ s.fns[fn].qps[qp].readPos ≠ s.fns[fn].qps[qp].tail))) ∧
      s.orderWaits fn qp p = false) :=
  ⟨⟨(.barrier 1 0 (tPacket specBarrier 1 [])), specBarrier, true, 1, 0, (tPacket specBarrier 1 []), tUnmade, rfl,
    ready_sound (by decide +kernel), by decide +kernel⟩,
   ⟨0, 3, 0x30, (tPacket specCopy 0 []), 5, tCancelled, by decide +kernel⟩⟩

/-- A state and operands which meet the hypotheses of each clause of `Obligations.EffectiveCapIsTheLowest`. -/
theorem test_EffectiveCapIsTheLowest :
    (∃ (s : State), s.sup.cap70 = true) ∧
    (∃ (s : State) (c : _), s.plans.thermalCap = some c) :=
  ⟨⟨{ tCapped with sup := { tCapped.sup with cap70 := true } }, by decide +kernel⟩,
   ⟨tCapped, 100, by decide +kernel⟩⟩

/-- A state and operands which meet the hypotheses of each clause of `Obligations.QuireKeepsNaR`. -/
theorem test_QuireKeepsNaR :
    (∃ (n : Nat) (x : Nat × Nat), ((decodePosit n x.1 = none ∨ decodePosit n x.2 = none))) ∧
    (∃ (o : StepOp) (m : List (Nat × BitVec 256)) (i : Nat) (j : Nat), o.fmt ≠ 2 ∧ o.clear = false ∧ i < 32 ∧
      j < 32 ∧ (cellBits m (32 * i + j)).toNat = 2 ^ 255) ∧
    (∃ (o : StepOp) (m : List (Nat × BitVec 256)) (i : Nat) (j : Nat), o.fmt = 2 ∧ o.clear = false ∧ i < 32 ∧
      j < 16 ∧ cellBits m (32 * i + 2 * j) = 0 ∧ (cellBits m (32 * i + 2 * j + 1)).toNat = 2 ^ 255) ∧
    (∃ (o : StepOp), o.clear = true) :=
  ⟨⟨8, (0x80, 0x40), by decide +kernel⟩,
   ⟨(stepOp 0), [(1023, 1#256 <<< 255)], 31, 31, by decide +kernel⟩,
   ⟨(stepOp (2#128 <<< 94)), [(1023, 1#256 <<< 255)], 31, 15, by decide +kernel⟩,
   ⟨(stepOp (1#128 <<< 81)), by decide +kernel⟩⟩

/-- A state and operands which meet the hypotheses of each clause of `Obligations.StepRunsTheFront`. -/
theorem test_StepRunsTheFront :
    (∃ (s : State), s.pending = []) :=
  ⟨tReady, by decide +kernel⟩

/-- A state and operands which meet the hypotheses of each clause of `Obligations.FrameOfEveryCommand`. -/
theorem test_FrameOfEveryCommand :
    (∃ (c : Instr) (s : State) (t : State), exec c s = .next t) :=
  ⟨(.dispatch 0), tSends, _, rfl⟩

/-- A state and operands which meet the hypotheses of each clause of `Obligations.MemoryFormKept`. -/
theorem test_MemoryFormKept :
    (∃ (s : State) (t : State), Memory.wf s ∧ step s = .next t) :=
  ⟨{ tArenas with pending := [.vinLoss (tVolts 0 0 90)] }, _, by decide +kernel, rfl⟩

/-- A state and operands which meet the hypotheses of each clause of `Obligations.ResetLeaves`. -/
theorem test_ResetLeaves :
    (∃ (v : Volts) (s : State), s.sup.power = .off ∧ ((1050 < v.main ∨ 1050 < v.aux))) ∧
    (∃ (v : Volts) (s : State), s.sup.power = .holdup ∧ ((1050 < v.main ∨ 1050 < v.aux))) ∧
    (∃ (c : Instr) (s : State) (t : State), c ∈ [Instr.perstAssert, .perstDeassert, .pcieReferenceLost, .flrPf,
      .d3hotToD0, .modResetN, .testEn, .moduleReset, .modResetNRise, .testEnLow, .scrubComplete] ∧
      exec c s = .next t) ∧
    (∃ (fn : FnNo) (s : State) (t : State), exec (.flrVf fn) s = .next t) ∧
    (∃ (n : Option Nat) (s : State) (t : State), exec (.vfEnableClear n) s = .next t) ∧
    (∃ (fn : FnNo) (qp : QpNo) (p : Packet) (s : State) (t : State), exec (.unitFence fn qp p) s = .next t) ∧
    (∃ (u : W16) (s : State) (t : State), exec (.drainEnd u) s = .next t) :=
  ⟨⟨(tVolts 1051 0 0), tOff, by decide +kernel⟩,
   ⟨(tVolts 0 1051 0), tHoldup, by decide +kernel⟩,
   ⟨.moduleReset, tLatched, _, by decide +kernel, rfl⟩,
   ⟨1, tTwo, _, rfl⟩,
   ⟨none, tTwo, _, rfl⟩,
   ⟨0, 0, (tPacket specUnitFence 0 [(8, 0x0105), (10, 1)]), tReady, _, rfl⟩,
   ⟨0x0204, tService, _, rfl⟩⟩

/-! ### Well-formedness, and check values which the spec gives -/

theorem test_wellFormed_accessErr : WellFormed (.accessErr 0 false 2 4096) = true ∧
    WellFormed (.accessErr 0 false 2 0) = false ∧ WellFormed (.accessErr 0 true 2 4097) = false := by decide

theorem test_wellFormed_bar2Read : WellFormed (.bar2Read 0 8 1 .clean) = true ∧
    WellFormed (.bar2Read 0 8 0 .clean) = false ∧ WellFormed (.bar2Read 0 8 4097 .clean) = false := by decide

theorem test_wellFormed_bar2Write : WellFormed (.bar2Write 0 8 [7]) = true ∧ WellFormed (.bar2Write 0 8 []) = false ∧
    WellFormed (.bar2Write 0 8 (List.replicate 4097 7)) = false := by decide +kernel

/-- "123456789" in ASCII. -/
def tDigits : List Byte := [0x31, 0x32, 0x33, 0x34, 0x35, 0x36, 0x37, 0x38, 0x39]

/-- R374: the check value of CRC-32C. -/
theorem test_crc32c : crc32c tDigits = 0xE3069283 := by decide +kernel

/-- R374: the check value of CRC-64/ECMA-182. -/
theorem test_crc64 : crc64 tDigits = 0x6C40DF5F0B497347 := by decide +kernel

/-- R837: the check value of CRC-8. -/
theorem test_crc8 : crc8 tDigits = 0xF4 := by decide +kernel

/-- 17, worked example: the tweak of the data unit which holds byte 0x2512345 of the data space. -/
theorem test_xtsTweak : xtsTweak 0x2512345 = 0x40009448D := by decide +kernel

/-- Words spell no command, since no row of the table gives bits. -/
theorem test_decodeTableWord : decodeTableWord 0 0 = none ∧ decodeTableWord 32 0xFFFFFFFF = none := by decide

end Sys2Proof.Tests
end

section
/-!
PROOFS. The effective power cap is the lowest of the caps in force (R58), and is one of them.
-/

namespace Sys2Proof.Machine

/-! ### The two stages of the effective cap -/

/-- R58 without the thermal cap: the lower of the host cap and, while it is in force, the 70 W supply cap. -/
def State.supplyLimitedCap (s : State) : Nat := if s.sup.cap70 then min s.plans.hostCap 70 else s.plans.hostCap

theorem State.supplyLimitedCap_of_cap70 {s : State} (h : s.sup.cap70 = true) :
    s.supplyLimitedCap = min s.plans.hostCap 70 := if_pos h

theorem State.supplyLimitedCap_of_not_cap70 {s : State} (h : ¬ s.sup.cap70 = true) :
    s.supplyLimitedCap = s.plans.hostCap := if_neg h

theorem State.effectiveCap_of_thermalCap {s : State} {c : Nat} (h : s.plans.thermalCap = some c) :
    s.effectiveCap = min s.supplyLimitedCap c := by
  simp only [effectiveCap, supplyLimitedCap, h]

theorem State.effectiveCap_of_no_thermalCap {s : State} (h : s.plans.thermalCap = none) :
    s.effectiveCap = s.supplyLimitedCap := by
  simp only [effectiveCap, supplyLimitedCap, h]

/-! ### The effective cap is below each cap in force -/

theorem State.supplyLimitedCap_le_hostCap (s : State) : s.supplyLimitedCap ≤ s.plans.hostCap := by
  by_cases h : s.sup.cap70 = true
  · rw [supplyLimitedCap_of_cap70 h]; exact Nat.min_le_left _ _
  · exact Nat.le_of_eq (supplyLimitedCap_of_not_cap70 h)

theorem State.supplyLimitedCap_le_70 {s : State} (h : s.sup.cap70 = true) : s.supplyLimitedCap ≤ 70 :=
  Nat.le_trans (Nat.le_of_eq (supplyLimitedCap_of_cap70 h)) (Nat.min_le_right _ _)

theorem State.effectiveCap_le_supplyLimitedCap (s : State) : s.effectiveCap ≤ s.supplyLimitedCap := by
  cases h : s.plans.thermalCap with
  | none => exact Nat.le_of_eq (effectiveCap_of_no_thermalCap h)
  | some c => rw [effectiveCap_of_thermalCap h]; exact Nat.min_le_left _ _

theorem State.effectiveCap_le_thermalCap {s : State} {c : Nat} (h : s.plans.thermalCap = some c) :
    s.effectiveCap ≤ c :=
  Nat.le_trans (Nat.le_of_eq (effectiveCap_of_thermalCap h)) (Nat.min_le_right _ _)

/-! ### The effective cap is one of the caps in force -/

theorem State.supplyLimitedCap_eq_hostCap_or_70 (s : State) :
    s.supplyLimitedCap = s.plans.hostCap ∨ (s.sup.cap70 = true ∧ s.supplyLimitedCap = 70) := by
  by_cases h : s.sup.cap70 = true
  · rw [supplyLimitedCap_of_cap70 h]
    exact (Std.min_eq_or : min s.plans.hostCap 70 = _ ∨ _).imp_right fun h70 => ⟨h, h70⟩
  · exact .inl (supplyLimitedCap_of_not_cap70 h)

theorem State.effectiveCap_eq_supplyLimitedCap_or_thermalCap (s : State) :
    s.effectiveCap = s.supplyLimitedCap ∨ s.plans.thermalCap = some s.effectiveCap := by
  cases h : s.plans.thermalCap with
  | none => exact .inl (effectiveCap_of_no_thermalCap h)
  | some c =>
    rw [effectiveCap_of_thermalCap h]
    exact (Std.min_eq_or : min s.supplyLimitedCap c = _ ∨ _).imp_right fun hc => congrArg some hc.symm

theorem State.effectiveCap_eq_hostCap_or_70_or_thermalCap (s : State) :
    s.effectiveCap = s.plans.hostCap ∨ (s.sup.cap70 = true ∧ s.effectiveCap = 70) ∨
      s.plans.thermalCap = some s.effectiveCap := by
  rcases s.effectiveCap_eq_supplyLimitedCap_or_thermalCap with hsup | hthermal
  · rw [hsup, ← or_assoc]
    exact .inl s.supplyLimitedCap_eq_hostCap_or_70
  · exact .inr (.inr hthermal)

/-! ### The obligation -/

/-- Settles O53: each bound is a bound of one of the two stages, and each stage picks one of its two arguments. -/
theorem effectiveCapIsTheLowest : Obligations.EffectiveCapIsTheLowest := by
  intro s
  have hsup := s.effectiveCap_le_supplyLimitedCap
  exact ⟨Nat.le_trans hsup s.supplyLimitedCap_le_hostCap,
    fun h => Nat.le_trans hsup (State.supplyLimitedCap_le_70 h),
    fun _ h => State.effectiveCap_le_thermalCap h, s.effectiveCap_eq_hostCap_or_70_or_thermalCap⟩

end Sys2Proof.Machine
end

section
/-!
PROOFS. What a power-on reset leaves, and that no other reset disturbs the global tick counter (R108).
-/

namespace Sys2Proof.Machine

/-! ### What keeps the tick -/

/-- The components other than the global tick counter. -/
def notTick : List Comp :=
  [.pending, .out, .withhold, .free, .nextId, .nextLaunch, .order32, .fns, .outst, .strata, .geo, .ext, .copies,
   .deliveries, .sup, .plans, .boot, .units, .mapping, .lastPhys, .toReplace, .scratch, .clusters, .waits, .barriers,
   .progs, .scheduled, .tables, .mprogs, .tableLoads, .mprogLoads, .runs, .ports, .lanes, .chans, .frames, .stores,
   .pieces, .loaded, .repro, .lock, .faults, .logReads, .nv, .panel, .thermal, .telem, .slots, .remaps, .jtag]

/-- An operation whose `_only` law asks for no right to change the tick keeps it. -/
theorem tick_eq_of_only {s t : State} (h : ∀ r, ChangesOnly notTick r t ↔ ChangesOnly notTick r s) :
    t.tick = s.tick :=
  (h s).2 (ChangesOnly.refl _ _) .tick (by decide)

theorem State.noteCause_tick (s : State) (c : BitVec 8) : (s.noteCause c).tick = s.tick :=
  tick_eq_of_only fun _ => by apply noteCause_only <;> decide

theorem State.moduleWipe_tick (s : State) : s.moduleWipe.tick = s.tick :=
  tick_eq_of_only fun _ => by apply moduleWipe_only <;> decide

/-! ### A power-on reset sets the tick to zero -/

/-- The tick is zeroed first, and none of what follows touches it. -/
theorem State.powerOnReset_tick (s : State) (cause : BitVec 8) (v : Volts) : (s.powerOnReset cause v).tick = 0 := by
  simp only [State.powerOnReset, apply_ite State.tick, State.noteCause_tick, State.moduleWipe_tick, ite_self]

/-- R72, R124: a rise of an input in OFF is a power-on reset. -/
theorem inputRises_of_above {v : Volts} {s : State} (hp : s.sup.power = .off) (hv : 1050 < v.main ∨ 1050 < v.aux) :
    inputRises v s = s.powerOnReset 0 v := by
  have habove : (decide (1050 < v.main) || decide (1050 < v.aux)) = true := by simpa using hv
  simp [inputRises, hp, habove]

/-- R72: an input above V_LOW_R at the end of HOLDUP is a power-on reset. -/
theorem State.leaveHoldup_of_above {v : Volts} {s : State} (hv : 1050 < v.main ∨ 1050 < v.aux) :
    s.leaveHoldup v = (s.measure v).powerOnReset 1 v :=
  if_pos hv

theorem holdupEnds_of_holdup {writes : Nat} {v : Volts} {s : State} (hp : s.sup.power = .holdup) :
    holdupEnds writes v s = (s.safePoint writes s.sup.holdupTick s.costMask).leaveHoldup v :=
  if_neg fun h => h hp

theorem exec_inputRise_tick_zero {v : Volts} {s : State} (hp : s.sup.power = .off)
    (hv : 1050 < v.main ∨ 1050 < v.aux) : ∃ t, exec (.inputRise v) s = .next t ∧ t.tick = 0 :=
  ⟨inputRises v s, rfl, by rw [inputRises_of_above hp hv, State.powerOnReset_tick]⟩

theorem exec_holdupSequenceComplete_tick_zero {v : Volts} {s : State} (hp : s.sup.power = .holdup)
    (hv : 1050 < v.main ∨ 1050 < v.aux) : ∃ t, exec (.holdupSequenceComplete v) s = .next t ∧ t.tick = 0 :=
  ⟨holdupEnds allWrites v s, rfl, by
    rw [holdupEnds_of_holdup hp, State.leaveHoldup_of_above hv, State.powerOnReset_tick]⟩

/-! ### No other reset disturbs the tick -/

/-- The commands without operands which begin or end a host reset, a module reset or the reset of a function. -/
def resetEvents : List Instr :=
  [.perstAssert, .perstDeassert, .pcieReferenceLost, .flrPf, .d3hotToD0, .modResetN, .testEn, .moduleReset,
   .modResetNRise, .testEnLow, .scrubComplete]

theorem exec_resetEvent_tick {c : Instr} {s t : State} (hc : c ∈ resetEvents) (e : exec c s = .next t) :
    t.tick = s.tick := by
  simp only [resetEvents, List.mem_cons, List.not_mem_nil, or_false] at hc
  refine tick_eq_of_only fun r => ?_
  rcases hc with rfl | rfl | rfl | rfl | rfl | rfl | rfl | rfl | rfl | rfl | rfl
  · apply execPerstAssert_only e <;> decide
  · exact execPerstDeassert_only e (by decide)
  · apply execPcieReferenceLost_only e <;> decide
  · apply execFlrPf_only e <;> decide
  · apply execD3hotToD0_only e <;> decide
  · apply execModResetN_only e <;> decide
  · apply execTestEn_only e <;> decide
  · apply execModuleReset_only e <;> decide
  · exact execModResetNRise_only e (by decide)
  · exact execTestEnLow_only e (by decide)
  · apply execScrubComplete_only e <;> decide

theorem exec_flrVf_tick {fn : FnNo} {s t : State} (e : exec (.flrVf fn) s = .next t) : t.tick = s.tick :=
  tick_eq_of_only fun _ => by apply execFlrVf_only e <;> decide

theorem exec_vfEnableClear_tick {n : Option Nat} {s t : State} (e : exec (.vfEnableClear n) s = .next t) :
    t.tick = s.tick :=
  tick_eq_of_only fun _ => by apply execVfEnableClear_only e <;> decide

/-- R112: a fence begins the reset of a unit. -/
theorem exec_unitFence_tick {fn : FnNo} {qp : QpNo} {p : Packet} {s t : State}
    (e : exec (.unitFence fn qp p) s = .next t) : t.tick = s.tick :=
  tick_eq_of_only fun _ => by apply execUnitFence_only e <;> decide

/-- R112: the end of the drain completes a unit's fence. -/
theorem exec_drainEnd_tick {u : W16} {s t : State} (e : exec (.drainEnd u) s = .next t) : t.tick = s.tick :=
  tick_eq_of_only fun _ => by apply execDrainEnd_only e <;> decide

/-! ### The reset state, unit by unit -/

theorem State.reset_fns (n : FnNo) : State.reset.fns[n] = Func.reset n := by simp [State.reset]

theorem Func.reset_qps (n : FnNo) (qp : QpNo) : (Func.reset n).qps[qp] = QPair.reset := by simp [Func.reset]

theorem State.reset_ports (p : PortNo) : State.reset.ports[p] = Port.idle 1 := by simp [State.reset]

theorem State.reset_strata (n : FnNo) :
    State.reset.strata[n] = if n = 0 then Stratum.zero else Stratum.none := by
  by_cases h : n = 0
  · subst h; rfl
  · have hn : (0 : Nat) ≠ n.val := fun g => h (Fin.ext g.symm)
    simp [State.reset, h, hn]

/-- R469: only stratum 0 exists. -/
theorem State.reset_strata_live (n : FnNo) : State.reset.strata[n].live = (n == 0) := by
  rw [State.reset_strata]
  by_cases h : n = 0
  · subst h; rfl
  · simp [h, Stratum.none]

/-- R198: every queue pair is disabled, at rest and without an error. -/
theorem State.reset_qps_idle (n : FnNo) (qp : QpNo) :
    State.reset.fns[n].qps[qp].enable = false ∧ State.reset.fns[n].qps[qp].running = false ∧
      State.reset.fns[n].qps[qp].error = false := by
  rw [State.reset_fns, Func.reset_qps]
  exact ⟨rfl, rfl, rfl⟩

theorem State.reset_evq_idle (n : FnNo) :
    State.reset.fns[n].evq.running = false ∧ State.reset.fns[n].intCause = 0 := by
  rw [State.reset_fns]
  exact ⟨rfl, rfl⟩

/-- R175, R800: every port is disabled, with the reason that no training was requested. -/
theorem State.reset_ports_disabled (p : PortNo) :
    State.reset.ports[p].st = .disabled ∧ State.reset.ports[p].reason = 1 := by
  rw [State.reset_ports]
  exact ⟨rfl, rfl⟩

/-! ### The obligation -/

/-- Settles O60: a power-on reset zeroes the tick before all else it does, and every other reset is an operation whose law
lets the tick alone. -/
theorem resetLeaves : Obligations.ResetLeaves :=
  ⟨rfl, rfl, rfl, rfl, rfl, rfl, rfl, rfl, rfl, State.reset_strata_live, State.reset_qps_idle, State.reset_evq_idle,
    State.reset_ports_disabled, rfl, rfl, rfl, rfl,
    fun _ _ => exec_inputRise_tick_zero, fun _ _ => exec_holdupSequenceComplete_tick_zero,
    fun _ _ _ => exec_resetEvent_tick, fun _ _ _ => exec_flrVf_tick, fun _ _ _ => exec_vfEnableClear_tick,
    fun _ _ _ _ _ => exec_unitFence_tick, fun _ _ _ => exec_drainEnd_tick⟩

end Sys2Proof.Machine
end

section
/-!
PROOFS. The host's access to the interrupt and tick registers (R206, R240 to R242): what a change of cause or mask does
to a function, and which messages it sends.
-/

namespace Sys2Proof.Machine

/-! ### One function changed, once or twice -/

theorem vmod_vmod {α : Type} {n : Nat} (v : Vector α n) (i : Fin n) (f g : α → α) :
    vmod (vmod v i f) i g = vmod v i fun a => g (f a) := by
  simp [vmod]

/-- Only what the change makes of the element's value counts. -/
theorem vmod_congr {α : Type} {n : Nat} {v : Vector α n} {i : Fin n} {f g : α → α} (h : f v[i] = g v[i]) :
    vmod v i f = vmod v i g := by
  rw [vmod, h, vmod]

theorem vmod_eq_self {α : Type} {n : Nat} {v : Vector α n} {i : Fin n} {f : α → α} (h : f v[i] = v[i]) :
    vmod v i f = v := by
  rw [vmod, h]; exact Vector.set_getElem_self i.isLt

theorem State.modFn_congr {s : State} {fn : FnNo} {f g : Func → Func} (h : f s.fns[fn] = g s.fns[fn]) :
    s.modFn fn f = s.modFn fn g := by
  rw [modFn, vmod_congr h, modFn]

/-! ### An access which the function answers -/

/-- R1142: a function whose BARs are open serves the access. -/
theorem hostAccess_of_barOpen {fn : FnNo} {s : State} (h : s.barOpen fn = true) (f : State → State) :
    hostAccess fn f s = f s :=
  if_pos h

/-- R1142, R149: memory requests are answered only while the PCIe link is up. -/
theorem linkL0_of_barOpen {fn : FnNo} {s : State} (h : s.barOpen fn = true) : s.boot.linkL0 = true := by
  simp only [State.barOpen, State.configReady, Bool.and_eq_true] at h
  exact h.1.1.1.1.1.1.2

/-- While the PCIe link is up every output reaches the log. -/
theorem State.emit_out_of_link {s : State} (h : s.boot.linkL0 = true) (e : Emit) : (s.emit e).out = s.out ++ [e] := by
  simp [emit, h]

/-! ### MSI-X messages touch the pending bits alone -/

/-- A message of a vector, sent or held pending. -/
theorem State.sendMsix_fns (s : State) (fn : FnNo) (v : Fin 64) :
    ∃ p, (s.sendMsix fn v).fns = vmod s.fns fn fun g => { g with pba := p } := by
  unfold sendMsix
  dsimp only
  split
  · exact ⟨s.fns[fn].pba, by rw [emit_fns, vmod_eq_self rfl]⟩
  · exact ⟨s.fns[fn].pba ||| (1#64 <<< v.val), by rw [modFn_fns]; exact vmod_congr rfl⟩

theorem State.forEach_sendMsix_fns (l : List (Fin 64)) (s : State) (fn : FnNo) :
    ∃ p, (s.forEach l fun v t => t.sendMsix fn v).fns = vmod s.fns fn fun g => { g with pba := p } := by
  induction l generalizing s with
  | nil => exact ⟨s.fns[fn].pba, (vmod_eq_self rfl).symm⟩
  | cons v l ih =>
    obtain ⟨p, hp⟩ := s.sendMsix_fns fn v
    obtain ⟨q, hq⟩ := ih (s.sendMsix fn v)
    exact ⟨q, by rw [forEach, List.foldl_cons, ← forEach, hq, hp, vmod_vmod]⟩

/-- R241: a function whose cause and mask change keeps all else but the pending bits. -/
theorem State.setCause_fns (s : State) (fn : FnNo) (cause mask : BitVec 12) :
    ∃ p, (s.setCause fn cause mask).fns =
      vmod s.fns fn fun g => { g with intCause := cause, intMask := mask, pba := p } := by
  obtain ⟨p, hp⟩ := forEach_sendMsix_fns
    (riseVectors (s.fns[fn].intCause &&& ~~~s.fns[fn].intMask) (cause &&& ~~~mask))
    (s.modFn fn fun g => { g with intCause := cause, intMask := mask }) fn
  exact ⟨p, by rw [setCause, hp, modFn_fns, vmod_vmod]⟩

/-! ### The vectors whose messages a change sends -/

theorem causeVector_lt (b : Fin 12) : causeVector b < 64 := by
  revert b; decide

theorem mem_riseVectors {before after : BitVec 12} {v : Fin 64} :
    v ∈ riseVectors before after ↔
      ∃ b : Fin 12, causeVector b = v.val ∧ after.getLsbD b.val = true ∧ before.getLsbD b.val = false := by
  simp [riseVectors, and_assoc]

theorem riseVectors_eq_nil {before after : BitVec 12}
    (h : ∀ b : Fin 12, after.getLsbD b.val = true → before.getLsbD b.val = true) : riseVectors before after = [] := by
  refine List.eq_nil_iff_forall_not_mem.2 fun v hv => ?_
  obtain ⟨b, -, hafter, hbefore⟩ := mem_riseVectors.1 hv
  exact Bool.false_ne_true (hbefore.symm.trans (h b hafter))

/-- R240: clearing causes raises none, and so sends nothing. -/
theorem riseVectors_clear (cause mask bits : BitVec 12) :
    riseVectors (cause &&& ~~~mask) (cause &&& ~~~bits &&& ~~~mask) = [] := by
  refine riseVectors_eq_nil fun b hb => ?_
  simp only [BitVec.getLsbD_and, Bool.and_eq_true] at hb ⊢
  exact ⟨hb.1.1, hb.2⟩

/-! ### A message which nothing holds back is sent -/

/-- R244, R1144: a message of the vector would be sent now. -/
def State.msixOpen (s : State) (fn : FnNo) (v : Fin 64) : Prop :=
  s.boot.linkL0 = true ∧ s.fns[fn].busMaster = true ∧ s.fns[fn].functionMask = false ∧ s.fns[fn].msix[v].masked = false

theorem State.sendMsix_of_msixOpen {s : State} {fn : FnNo} {v : Fin 64} (h : s.msixOpen fn v) :
    s.sendMsix fn v = s.emit (.msix fn v.val s.fns[fn].msix[v].addr s.fns[fn].msix[v].data) := by
  obtain ⟨-, hbus, hmask, hentry⟩ := h
  have hsend : (s.fns[fn].busMaster && !s.fns[fn].functionMask && !s.fns[fn].msix[v].masked) = true := by
    rw [hbus, hmask, hentry]; rfl
  exact if_pos hsend

theorem State.sendMsix_keeps_msixOpen {s : State} {fn : FnNo} {v w : Fin 64} (h : s.msixOpen fn v) :
    (s.sendMsix fn w).msixOpen fn v := by
  obtain ⟨hlink, hentry⟩ := h
  have hboot : (s.sendMsix fn w).boot = s.boot :=
    (sendMsix_only (ks := [.fns, .out]) s fn w (by decide) (by decide)).2 (ChangesOnly.refl _ _) .boot (by decide)
  obtain ⟨p, hp⟩ := s.sendMsix_fns fn w
  exact ⟨hboot ▸ hlink, by rw [hp, vmod_get]; exact hentry⟩

theorem State.forEach_sendMsix_sends {s : State} {fn : FnNo} {v : Fin 64} (h : s.msixOpen fn v) {l : List (Fin 64)}
    (hv : v ∈ l) : ∃ a d, Emit.msix fn v.val a d ∈ (s.forEach l fun w t => t.sendMsix fn w).out := by
  induction l generalizing s with
  | nil => cases hv
  | cons w l ih =>
    rcases List.mem_cons.1 hv with rfl | hl
    · obtain ⟨sent, hsent⟩ := (forEach_grows (fun w t => sendMsix_grows t fn w) l (s.sendMsix fn v)).out
      refine ⟨s.fns[fn].msix[v].addr, s.fns[fn].msix[v].data, ?_⟩
      rw [forEach, List.foldl_cons, ← forEach, hsent, sendMsix_of_msixOpen h, emit_out_of_link h.1]
      simp
    · exact ih (sendMsix_keeps_msixOpen h) hl

/-- R241: a bit of cause AND NOT mask which becomes 1 sends the message of its vector. -/
theorem State.setCause_sends {s : State} {fn : FnNo} {v : Fin 64} (h : s.msixOpen fn v) {cause mask : BitVec 12}
    (hv : v ∈ riseVectors (s.fns[fn].intCause &&& ~~~s.fns[fn].intMask) (cause &&& ~~~mask)) :
    ∃ a d, Emit.msix fn v.val a d ∈ (s.setCause fn cause mask).out :=
  forEach_sendMsix_sends (s := s.modFn fn fun g => { g with intCause := cause, intMask := mask })
    ⟨h.1, by rw [modFn_fns, vmod_get]; exact h.2⟩ hv

/-! ### The three registers -/

/-- R240: a W1C write of HIF_INT_CAUSE. -/
theorem exec_hifIntCause_of_barOpen {fn : FnNo} {s : State} (h : s.barOpen fn = true) (v : W32) :
    exec (.hifIntCause fn v) s =
      .next (s.modFn fn fun f => { f with intCause := f.intCause &&& ~~~(v.extractLsb' 0 12) }) := by
  change Host.Outcome.next (hostAccess fn (bar0Write fn 0x10 v) s) = _
  rw [hostAccess_of_barOpen h, bar0Write, if_pos rfl, State.setCause, riseVectors_clear]
  exact congrArg Host.Outcome.next (State.modFn_congr rfl)

/-- R242: a write of HIF_INT_MASK. -/
theorem exec_hifIntMask_of_barOpen {fn : FnNo} {s : State} (h : s.barOpen fn = true) (v : W32) :
    exec (.hifIntMask fn v) s = .next (s.setCause fn s.fns[fn].intCause (v.extractLsb' 0 12 &&& causeValid fn)) := by
  change Host.Outcome.next (hostAccess fn (bar0Write fn 0x14 v) s) = _
  rw [hostAccess_of_barOpen h, bar0Write, if_neg (by decide), if_pos rfl]

/-- R206: a read of HIF_TICK_LO. -/
theorem exec_hifTickLo_of_barOpen {fn : FnNo} {s : State} (h : s.barOpen fn = true) :
    exec (.hifTickLo fn) s = .next (readTickLo fn s) :=
  congrArg Host.Outcome.next (hostAccess_of_barOpen h _)

theorem readTickLo_out {fn : FnNo} {s : State} (h : s.boot.linkL0 = true) :
    (readTickLo fn s).out = s.out ++ [.readData fn ((s.tick.extractLsb' 0 32).setWidth 64)] := by
  rw [readTickLo, State.emit_out_of_link (by exact h), State.modFn_out]

theorem readTickLo_fns (fn : FnNo) (s : State) :
    (readTickLo fn s).fns = vmod s.fns fn fun f => { f with tickCapture := s.tick.extractLsb' 32 32 } :=
  State.emit_fns _ _

/-- R242: a set cause whose mask bit a write changes to 0 is one whose message is sent. -/
theorem causeVector_mem_riseVectors {cause oldMask mask : BitVec 12} {b : Fin 12} {v : Fin 64}
    (hv : causeVector b = v.val) (hc : cause.getLsbD b.val = true) (ho : oldMask.getLsbD b.val = true)
    (hm : mask.getLsbD b.val = false) : v ∈ riseVectors (cause &&& ~~~oldMask) (cause &&& ~~~mask) :=
  mem_riseVectors.2 ⟨b, hv, by
    simp only [BitVec.getLsbD_and, BitVec.getLsbD_not, hc, hm, b.isLt, decide_true, Bool.not_false, Bool.and_self], by
    simp only [BitVec.getLsbD_and, BitVec.getLsbD_not, ho, Bool.not_true, Bool.and_false]⟩

/-! ### The obligation -/

/-- Settles O6: a cleared cause raises nothing, a mask write is one `setCause`, whose messages touch the pending bits
alone, and a read of HIF_TICK_LO captures and answers in one state. -/
theorem interruptAndTickRegisters : Obligations.InterruptAndTickRegisters := by
  refine ⟨fun fn v s h => exec_hifIntCause_of_barOpen h v, fun fn v s h => ?_, fun fn s h => ?_⟩
  · obtain ⟨p, hfns⟩ := s.setCause_fns fn s.fns[fn].intCause (v.extractLsb' 0 12 &&& causeValid fn)
    have hmask : (s.setCause fn s.fns[fn].intCause (v.extractLsb' 0 12 &&& causeValid fn)).fns[fn].intMask =
        v.extractLsb' 0 12 &&& causeValid fn := by rw [hfns, vmod_get]
    refine ⟨_, exec_hifIntMask_of_barOpen h v, hmask, by rw [hfns, vmod_get],
      (setCause_only s fn _ _ (by decide) (by decide)).2 (ChangesOnly.refl _ _),
      fun n hn => by rw [hfns, vmod_get_ne _ _ hn.symm], fun b hc ho hm hbus hfun hentry => ?_⟩
    rw [hmask] at hm
    exact State.setCause_sends (v := ⟨causeVector b, causeVector_lt b⟩) ⟨linkL0_of_barOpen h, hbus, hfun, hentry⟩
      (causeVector_mem_riseVectors rfl hc ho hm)
  · exact ⟨_, exec_hifTickLo_of_barOpen h, readTickLo_out (linkL0_of_barOpen h), by rw [readTickLo_fns, vmod_get],
      fun n hn => by rw [readTickLo_fns, vmod_get_ne _ _ hn.symm],
      (readTickLo_only fn s (by decide) (by decide)).2 (ChangesOnly.refl _ _)⟩

end Sys2Proof.Machine
end

section
/-!
PROOFS. Enabling and disabling the queues of a function (R213 to R216, R221, R236, R237): each write of ENABLE is one
change of one queue, and QUEUE_ERR where the sizes are illegal.
-/

namespace Sys2Proof.Machine

/-! ### One queue changed -/

theorem State.modQp_qps (s : State) (fn : FnNo) (qp : QpNo) (f : QPair → QPair) :
    (s.modQp fn qp f).fns[fn].qps[qp] = f s.fns[fn].qps[qp] := by
  rw [modQp_fns, vmod_get, vmod_get]

theorem State.modQp_qps_ne (s : State) (fn : FnNo) {qp m : QpNo} (f : QPair → QPair) (h : m ≠ qp) :
    (s.modQp fn qp f).fns[fn].qps[m] = s.fns[fn].qps[m] := by
  rw [modQp_fns, vmod_get, vmod_get_ne _ _ h.symm]

theorem State.modQp_fns_ne (s : State) {fn n : FnNo} (qp : QpNo) (f : QPair → QPair) (h : n ≠ fn) :
    (s.modQp fn qp f).fns[n] = s.fns[n] := by
  rw [modQp_fns, vmod_get_ne _ _ h.symm]

theorem State.modEvq_evq (s : State) (fn : FnNo) (f : Evq → Evq) : (s.modEvq fn f).fns[fn].evq = f s.fns[fn].evq := by
  rw [modEvq_fns, vmod_get]

theorem State.modFn_modFn (s : State) (fn : FnNo) (f g : Func → Func) :
    (s.modFn fn f).modFn fn g = s.modFn fn fun a => g (f a) := by
  rw [modFn, modFn_fns, vmod_vmod]; rfl

theorem State.modQp_modQp (s : State) (fn : FnNo) (qp : QpNo) (f g : QPair → QPair) :
    (s.modQp fn qp f).modQp fn qp g = s.modQp fn qp fun q => g (f q) := by
  simp only [modQp, modFn_modFn, vmod_vmod]

theorem State.modEvq_modEvq (s : State) (fn : FnNo) (f g : Evq → Evq) :
    (s.modEvq fn f).modEvq fn g = s.modEvq fn fun q => g (f q) :=
  modFn_modFn s fn _ _

theorem State.modFn_eq_self {s : State} {fn : FnNo} {f : Func → Func} (h : f s.fns[fn] = s.fns[fn]) :
    s.modFn fn f = s := by
  rw [modFn, vmod_eq_self h]

theorem State.modQp_congr {s : State} {fn : FnNo} {qp : QpNo} {f g : QPair → QPair}
    (h : f s.fns[fn].qps[qp] = g s.fns[fn].qps[qp]) : s.modQp fn qp f = s.modQp fn qp g := by
  refine modFn_congr ?_
  rw [vmod_congr h]

theorem State.modQp_eq_self {s : State} {fn : FnNo} {qp : QpNo} {f : QPair → QPair}
    (h : f s.fns[fn].qps[qp] = s.fns[fn].qps[qp]) : s.modQp fn qp f = s := by
  refine modFn_eq_self ?_
  rw [vmod_eq_self h]

theorem State.modEvq_eq_self {s : State} {fn : FnNo} {f : Evq → Evq} (h : f s.fns[fn].evq = s.fns[fn].evq) :
    s.modEvq fn f = s := by
  refine modFn_eq_self ?_
  rw [h]

/-! ### Legal sizes, and QUEUE_ERR -/

/-- R213: a size field from 4 to 12. -/
abbrev legalLog2 (n : BitVec 4) : Prop := 4 ≤ n.toNat ∧ n.toNat ≤ 12

theorem not_legalLog2 {n : BitVec 4} : ¬ legalLog2 n ↔ n.toNat < 4 ∨ 12 < n.toNat := by
  rw [legalLog2]; omega

/-- R240: QUEUE_ERR is a bit of every function. -/
theorem causeQueueErr_valid (fn : FnNo) : causeQueueErr &&& causeValid fn = causeQueueErr := by
  unfold causeValid; split <;> rfl

/-- R221, R240: QUEUE_ERR becomes 1, and nothing of the function but its pending bits follows. -/
theorem State.raise_queueErr_fns (s : State) (fn : FnNo) :
    ∃ p, (s.raise fn causeQueueErr).fns =
      vmod s.fns fn fun g => { g with intCause := g.intCause ||| causeQueueErr, pba := p } := by
  obtain ⟨p, hp⟩ :=
    s.setCause_fns fn (s.fns[fn].intCause ||| (causeQueueErr &&& causeValid fn)) s.fns[fn].intMask
  refine ⟨p, ?_⟩
  rw [raise, hp, causeQueueErr_valid]
  exact vmod_congr rfl

theorem State.raise_queueErr_qps (s : State) (fn : FnNo) : (s.raise fn causeQueueErr).fns[fn].qps = s.fns[fn].qps := by
  obtain ⟨p, hp⟩ := s.raise_queueErr_fns fn
  rw [hp, vmod_get]

theorem State.raise_queueErr_evq (s : State) (fn : FnNo) : (s.raise fn causeQueueErr).fns[fn].evq = s.fns[fn].evq := by
  obtain ⟨p, hp⟩ := s.raise_queueErr_fns fn
  rw [hp, vmod_get]

theorem State.raise_queueErr_intCause (s : State) (fn : FnNo) :
    (s.raise fn causeQueueErr).fns[fn].intCause = s.fns[fn].intCause ||| causeQueueErr := by
  obtain ⟨p, hp⟩ := s.raise_queueErr_fns fn
  rw [hp, vmod_get]

/-! ### A queue pair starts, or is found illegal -/

/-- What a write of HIF_SQn_SIZE with ENABLE 1 leaves of a queue pair which is not running, before it starts. -/
def QPair.sized (v : W32) (q : QPair) : QPair :=
  { q with cqLog2 := v.extractLsb' 20 4, sqLog2 := v.extractLsb' 16 4, error := false }

/-- R214: the queue pair runs from the first entry of its rings. -/
def QPair.started (q : QPair) : QPair :=
  { q with
    enable := true, running := true, error := false, tail := 0, cqHead := 0, readPos := 0, cqPos := 0,
    cqPhase := true, cqUnreleased := 0, stopping := false, reenable := false, held := none,
    awaiting := none, chain := false, chainFailed := none, prevId := 0, passed := [] }

/-- R215: the queue pair stays off with ERROR. -/
def QPair.refusedSize (q : QPair) : QPair := { q with enable := false, error := true, reenable := false }

theorem startQueue_of_legal {s : State} {fn : FnNo} {qp : QpNo} (hs : legalLog2 s.fns[fn].qps[qp].sqLog2)
    (hc : legalLog2 s.fns[fn].qps[qp].cqLog2) : startQueue s fn qp = s.modQp fn qp QPair.started := by
  obtain ⟨hs4, hs12⟩ := hs
  obtain ⟨hc4, hc12⟩ := hc
  exact if_pos (by simp only [hs4, hs12, hc4, hc12, decide_true, Bool.and_self])

theorem startQueue_of_illegal {s : State} {fn : FnNo} {qp : QpNo}
    (h : ¬ (legalLog2 s.fns[fn].qps[qp].sqLog2 ∧ legalLog2 s.fns[fn].qps[qp].cqLog2)) :
    startQueue s fn qp = (s.modQp fn qp QPair.refusedSize).raise fn causeQueueErr := by
  refine if_neg fun hok => h ?_
  simp only [Bool.and_eq_true, decide_eq_true_eq] at hok
  obtain ⟨⟨⟨hs4, hs12⟩, hc4⟩, hc12⟩ := hok
  exact ⟨⟨hs4, hs12⟩, hc4, hc12⟩

theorem writeSqSize_enable {fn : FnNo} {qp : QpNo} {v : W32} {s : State} (hr : s.fns[fn].qps[qp].running = false)
    (he : s.fns[fn].qps[qp].enable = false) :
    writeSqSize fn qp (v ||| 0x80000000) s = startQueue (s.modQp fn qp (QPair.sized v)) fn qp := by
  have hen : (v ||| 0x80000000).getLsbD 31 = true := by simp
  have hcq : (v ||| 0x80000000).extractLsb' 20 4 = v.extractLsb' 20 4 := by
    rw [BitVec.extractLsb'_or]; exact BitVec.or_zero
  have hsq : (v ||| 0x80000000).extractLsb' 16 4 = v.extractLsb' 16 4 := by
    rw [BitVec.extractLsb'_or]; exact BitVec.or_zero
  simp only [writeSqSize, hr, he, hen, hcq, hsq, Bool.false_eq_true, ↓reduceIte, State.modQp_modQp]
  rfl

theorem exec_queuePairEnable_of_legal {fn : FnNo} {qp : QpNo} {v : W32} {s : State} (h : s.barOpen fn = true)
    (hr : s.fns[fn].qps[qp].running = false) (he : s.fns[fn].qps[qp].enable = false)
    (hs : legalLog2 (v.extractLsb' 16 4)) (hc : legalLog2 (v.extractLsb' 20 4)) :
    exec (.queuePairEnable fn qp v) s = .next (s.modQp fn qp fun q => (q.sized v).started) := by
  change Host.Outcome.next (hostAccess fn (writeSqSize fn qp (v ||| 0x80000000)) s) = _
  rw [hostAccess_of_barOpen h, writeSqSize_enable hr he,
    startQueue_of_legal (by rw [State.modQp_qps]; exact hs) (by rw [State.modQp_qps]; exact hc), State.modQp_modQp]

theorem exec_queuePairEnable_of_illegal {fn : FnNo} {qp : QpNo} {v : W32} {s : State} (h : s.barOpen fn = true)
    (hr : s.fns[fn].qps[qp].running = false) (he : s.fns[fn].qps[qp].enable = false)
    (hv : ¬ (legalLog2 (v.extractLsb' 16 4) ∧ legalLog2 (v.extractLsb' 20 4))) :
    exec (.queuePairEnable fn qp v) s =
      .next ((s.modQp fn qp fun q => (q.sized v).refusedSize).raise fn causeQueueErr) := by
  change Host.Outcome.next (hostAccess fn (writeSqSize fn qp (v ||| 0x80000000)) s) = _
  rw [hostAccess_of_barOpen h, writeSqSize_enable hr he, startQueue_of_illegal (by rw [State.modQp_qps]; exact hv),
    State.modQp_modQp]

/-! ### A queue pair is disabled -/

/-- R237: a command which was read from the submission queue is not answered yet. -/
def Func.owes (f : Func) (qp : QpNo) : Bool :=
  f.qps[qp].held.isSome || f.qps[qp].awaiting.isSome || f.replyWaits qp

/-- R289: the outstanding commands of a queue pair leave their chains. -/
def State.unchain (s : State) (fn : FnNo) (qp : QpNo) : State :=
  { s with outst := s.outst.map fun o => if o.fn = fn ∧ o.qp = qp then { o with chain := false } else o }

theorem State.unchain_chain {s : State} {fn : FnNo} {qp : QpNo} {o : Outst} (ho : o ∈ (s.unchain fn qp).outst)
    (hfn : o.fn = fn) (hqp : o.qp = qp) : o.chain = false := by
  obtain ⟨a, -, rfl⟩ := List.mem_map.1 ho
  by_cases ha : a.fn = fn ∧ a.qp = qp
  · rw [if_pos ha]
  · rw [if_neg ha] at hfn hqp
    exact absurd ⟨hfn, hqp⟩ ha

theorem State.modQp_owes {s : State} {fn : FnNo} {qp : QpNo} {f : QPair → QPair}
    (hh : (f s.fns[fn].qps[qp]).held = s.fns[fn].qps[qp].held)
    (ha : (f s.fns[fn].qps[qp]).awaiting = s.fns[fn].qps[qp].awaiting) :
    (s.modQp fn qp f).fns[fn].owes qp = s.fns[fn].owes qp := by
  simp only [modQp_fns, vmod_get, Func.owes, hh, ha]
  rfl

/-- R236: the queue pair reads no further entry. -/
def QPair.stopped (q : QPair) : QPair :=
  { q with enable := false, reenable := false, stopping := q.running, chain := false, chainFailed := none }

/-- What a disable leaves of a running queue pair, which stops at once unless it owes an answer. -/
def QPair.disabled (owes : Bool) (q : QPair) : QPair :=
  { q with enable := false, reenable := false, running := owes, stopping := owes, chain := false, chainFailed := none }

/-- R236: a stopping queue pair without a recorded enable clears RUNNING unless it owes an answer. -/
theorem settleQueue_of_not_reenable {s : State} {fn : FnNo} {qp : QpNo} (hst : s.fns[fn].qps[qp].stopping = true)
    (hre : s.fns[fn].qps[qp].reenable = false) :
    settleQueue s fn qp = s.modQp fn qp fun q =>
      { q with running := q.running && s.fns[fn].owes qp, stopping := s.fns[fn].owes qp } := by
  have hsettled : (s.fns[fn].qps[qp].stopping && (s.fns[fn].qps[qp].held == none) &&
      (s.fns[fn].qps[qp].awaiting == none) && !s.fns[fn].replyWaits qp) = !s.fns[fn].owes qp := by
    simp only [hst, Func.owes, Bool.true_and, Bool.not_or, Option.beq_none, Option.not_isSome]
  simp only [settleQueue, hsettled, hre]
  cases s.fns[fn].owes qp with
  | true =>
    rw [Bool.not_true, if_neg Bool.false_ne_true]
    exact (State.modQp_eq_self (by rw [Bool.and_true, ← hst])).symm
  | false =>
    rw [Bool.not_false, if_pos rfl, if_neg Bool.false_ne_true]
    exact State.modQp_congr (by rw [Bool.and_false])

theorem disableQueue_of_running {fn : FnNo} {qp : QpNo} {s : State} (hr : s.fns[fn].qps[qp].running = true) :
    disableQueue fn qp s = (s.unchain fn qp).modQp fn qp (QPair.disabled (s.fns[fn].owes qp)) := by
  change settleQueue ((s.unchain fn qp).modQp fn qp QPair.stopped) fn qp = _
  rw [settleQueue_of_not_reenable (by rw [State.modQp_qps]; exact hr) (by rw [State.modQp_qps]; rfl),
    State.modQp_modQp, State.modQp_owes rfl rfl]
  refine State.modQp_congr ?_
  have hrun : (s.unchain fn qp).fns[fn].qps[qp].running = true := hr
  simp only [QPair.stopped, QPair.disabled, hrun, Bool.true_and]
  rfl

theorem writeSqSize_disable {fn : FnNo} {qp : QpNo} {v : W32} {s : State} (hr : s.fns[fn].qps[qp].running = true)
    (he : s.fns[fn].qps[qp].enable = true) : writeSqSize fn qp (v &&& 0x7FFFFFFF) s = disableQueue fn qp s := by
  have hen : (v &&& 0x7FFFFFFF).getLsbD 31 = false := by simp
  simp only [writeSqSize, hr, he, hen, Bool.false_eq_true, ↓reduceIte]

theorem exec_queuePairDisable_of_running {fn : FnNo} {qp : QpNo} {v : W32} {s : State} (h : s.barOpen fn = true)
    (hr : s.fns[fn].qps[qp].running = true) (he : s.fns[fn].qps[qp].enable = true) :
    exec (.queuePairDisable fn qp v) s =
      .next ((s.unchain fn qp).modQp fn qp (QPair.disabled (s.fns[fn].owes qp))) := by
  change Host.Outcome.next (hostAccess fn (writeSqSize fn qp (v &&& 0x7FFFFFFF)) s) = _
  rw [hostAccess_of_barOpen h, writeSqSize_disable hr he, disableQueue_of_running hr]

/-! ### The event queue starts, or is found illegal -/

/-- What a write of HIF_EVQ_BASE_LO leaves of the address and size of an event queue which is not running. -/
def Evq.placed (v : W32) (q : Evq) : Evq :=
  { q with
    base := (q.base &&& 0xFFFFFFFF00000000#64) ||| ((v ||| 1) &&& 0xFFFFF000).setWidth 64, log2 := v.extractLsb' 4 4 }

/-- R214: the event queue runs from the first entry of its ring. -/
def Evq.started (q : Evq) : Evq :=
  { q with
    enable := true, running := true, error := false, head := 0, pos := 0, phase := true, unreleased := 0,
    everRan := true }

/-- R215: the event queue stays off with ERROR. -/
def Evq.refusedSize (q : Evq) : Evq := { q with enable := false, error := true }

/-- R235: without held records nothing is written. -/
theorem State.flushEvq_of_held_nil {s : State} {fn : FnNo} (h : s.fns[fn].evq.held = []) : s.flushEvq fn = s := by
  rw [flushEvq, h]
  exact modEvq_eq_self (by rw [← h])

/-- The two ways in which an enable of an event queue at rest ends. -/
theorem writeEvqLo_enable {fn : FnNo} {v : W32} {s : State} (hr : s.fns[fn].evq.running = false)
    (he : s.fns[fn].evq.enable = false) :
    writeEvqLo fn (v ||| 1) s =
      if legalLog2 (v.extractLsb' 4 4) then
        (s.modEvq fn fun q => (q.placed v).started).flushEvq fn
      else (s.modEvq fn fun q => (q.placed v).refusedSize).raise fn causeQueueErr := by
  have hen : (v ||| 1).getLsbD 0 = true := by simp
  have hlog : (v ||| 1).extractLsb' 4 4 = v.extractLsb' 4 4 := by
    rw [BitVec.extractLsb'_or]; exact BitVec.or_zero
  simp only [writeEvqLo, hr, he, hen, hlog, Bool.false_eq_true, ↓reduceIte, State.modEvq_modEvq, State.modEvq_evq]
  rfl

theorem exec_evqEnable_of_legal {fn : FnNo} {v : W32} {s : State} (h : s.barOpen fn = true)
    (hr : s.fns[fn].evq.running = false) (he : s.fns[fn].evq.enable = false) (hh : s.fns[fn].evq.held = [])
    (hl : legalLog2 (v.extractLsb' 4 4)) :
    exec (.evqEnable fn v) s = .next (s.modEvq fn fun q => (q.placed v).started) := by
  change Host.Outcome.next (hostAccess fn (writeEvqLo fn (v ||| 1)) s) = _
  rw [hostAccess_of_barOpen h, writeEvqLo_enable hr he, if_pos hl,
    State.flushEvq_of_held_nil (by rw [State.modEvq_evq]; exact hh)]

theorem exec_evqEnable_of_illegal {fn : FnNo} {v : W32} {s : State} (h : s.barOpen fn = true)
    (hr : s.fns[fn].evq.running = false) (he : s.fns[fn].evq.enable = false) (hl : ¬ legalLog2 (v.extractLsb' 4 4)) :
    exec (.evqEnable fn v) s = .next ((s.modEvq fn fun q => (q.placed v).refusedSize).raise fn causeQueueErr) := by
  change Host.Outcome.next (hostAccess fn (writeEvqLo fn (v ||| 1)) s) = _
  rw [hostAccess_of_barOpen h, writeEvqLo_enable hr he, if_neg hl]

/-! ### The obligation -/

/-- Settles O7: each write of ENABLE is one change of one queue, after which an illegal size raises QUEUE_ERR. -/
theorem queueEnables : Obligations.QueueEnables := by
  refine ⟨fun fn qp v s h hr he hs4 hs12 hc4 hc12 => ?starts, fun fn qp v s h hr he hv => ?illegal,
    fun fn qp v s h hr he => ?disabled, fun fn v s h hr he hh hl4 hl12 => ?evqStarts,
    fun fn v s h hr he hv => ?evqIllegal⟩
  case starts =>
    exact ⟨_, exec_queuePairEnable_of_legal h hr he ⟨hs4, hs12⟩ ⟨hc4, hc12⟩, State.modQp_qps _ _ _ _,
      fun n hn => State.modQp_fns_ne _ _ _ hn, fun m hm => State.modQp_qps_ne _ _ _ hm,
      (modQp_only _ _ _ _ (by decide)).2 (ChangesOnly.refl _ _)⟩
  case illegal =>
    have hillegal : ¬ (legalLog2 (v.extractLsb' 16 4) ∧ legalLog2 (v.extractLsb' 20 4)) := by
      rintro ⟨⟨hs4, hs12⟩, hc4, hc12⟩
      omega
    have hqp : ((s.modQp fn qp fun q => (q.sized v).refusedSize).raise fn causeQueueErr).fns[fn].qps[qp] =
        (s.fns[fn].qps[qp].sized v).refusedSize := by rw [State.raise_queueErr_qps, State.modQp_qps]
    refine ⟨_, exec_queuePairEnable_of_illegal h hr he hillegal, ?_, ?_, ?_, ?_,
      (raise_only _ _ _ (by decide) (by decide)).2 ((modQp_only _ _ _ _ (by decide)).2 (ChangesOnly.refl _ _))⟩
    · rw [hqp]; exact hr
    · rw [hqp]; rfl
    · rw [hqp]; rfl
    · rw [State.raise_queueErr_intCause, State.modQp_fns, vmod_get]
  case disabled =>
    have hqp := (s.unchain fn qp).modQp_qps fn qp (QPair.disabled (s.fns[fn].owes qp))
    refine ⟨_, exec_queuePairDisable_of_running h hr he, ?_, ?_, ?_, ?_, fun o ho => State.unchain_chain ho,
      (modQp_only _ _ _ _ (by decide)).2 ((upd_outst_only (by decide)).2 (ChangesOnly.refl _ _))⟩ <;>
      (rw [hqp]; rfl)
  case evqStarts =>
    exact ⟨_, exec_evqEnable_of_legal h hr he hh ⟨hl4, hl12⟩, State.modEvq_evq _ _ _,
      (modEvq_only _ _ _ (by decide)).2 (ChangesOnly.refl _ _)⟩
  case evqIllegal =>
    have hevq : ((s.modEvq fn fun q => (q.placed v).refusedSize).raise fn causeQueueErr).fns[fn].evq =
        (s.fns[fn].evq.placed v).refusedSize := by rw [State.raise_queueErr_evq, State.modEvq_evq]
    refine ⟨_, exec_evqEnable_of_illegal h hr he (not_legalLog2.2 hv), ?_, ?_, ?_, ?_,
      (raise_only _ _ _ (by decide) (by decide)).2 ((modEvq_only _ _ _ (by decide)).2 (ChangesOnly.refl _ _))⟩
    · rw [hevq]; exact hr
    · rw [hevq]; rfl
    · rw [hevq]; rfl
    · rw [State.raise_queueErr_intCause, State.modEvq_fns, vmod_get]

end Sys2Proof.Machine
end

section
/-!
PROOFS. The memory commands and the channel settings (R347 to R357, R397 to R399, R404, R425): a short command whose
effect leaves the host interface, the tick and the link alone is answered with its results, and adds nothing to that
effect but the answer.
-/

namespace Sys2Proof.Machine

/-! ### What an accepted short command makes of its effect -/

/-- Answering a short command touches the host interface and the output log alone. -/
theorem shortDone_frame (c : CmdSpec) (fn : FnNo) (qp : QpNo) (p : Packet) (u : State × Res) :
    ChangesOnly [.fns, .out] u.1 (shortDone c fn qp p u) :=
  (shortDone_only c fn qp p u (by decide) (by decide)).2 (ChangesOnly.refl _ _)

section
variable {s : State} {c : CmdSpec} {fn : FnNo} {qp : QpNo} {p : Packet} {chk res : State → Option Rej}

/-- An effect which leaves alone all that an answer depends on is answered with its status and results; the answer changes
nothing of the effect, and so the command changes nothing but what the effect does and the host interface. -/
theorem Accepts.answered {ks : List Comp} {eff : State → State × Res} {u : State × Res}
    (h : Accepts c false fn qp p chk res s) (he : eff (s.taken fn qp) = u) (hu : ChangesOnly ks (s.taken fn qp) u.1)
    (hks : ∀ k ∈ [Comp.fns, .out, .tick, .boot], k ∉ ks) :
    ∃ t, Host.Outcome.next (shortCommand c fn qp p chk res eff s) = (.next t : Host.Outcome State Fault Refusal) ∧
      Replied s t fn qp c.op p u.2.status 0 u.2.r0 u.2.r1 ∧ ChangesOnly [.fns, .out] u.1 t ∧
      ChangesOnly (.fns :: .out :: ks) s t := by
  have htaken := taken_frame s fn qp
  have hframe := shortDone_frame c fn qp p u
  refine ⟨_, congrArg _ ((shortCommand_accepts h eff).trans (by rw [he])), ?_, hframe, ?_⟩
  · have htick := (htaken .tick (by decide)).trans (hu .tick (hks _ (by decide)))
    have hboot := (htaken .boot (by decide)).trans (hu .boot (hks _ (by decide)))
    exact h.replied u (.of_only hu (hks _ (by decide)) (hks _ (by decide))) htick hboot
  · have heffect : ChangesOnly (.fns :: .out :: ks) s u.1 :=
      (htaken.mono (by simp)).trans (hu.mono fun k hk => by simp [hk])
    exact heffect.trans (hframe.mono (by simp))

/-- A command whose effect is one change of a channel makes that change, and is answered with ST_OK and no results. -/
theorem Accepts.modChan_answered (h : Accepts c false fn qp p chk res s) (n : Nat) (f : Chan → Chan) :
    ∃ t, Host.Outcome.next (shortCommand c fn qp p chk res (fun u => (u.modChan n f, {})) s) =
        (.next t : Host.Outcome State Fault Refusal) ∧ Replied s t fn qp c.op p stOk 0 0 0 ∧
      t.chans = (s.modChan n f).chans ∧ ChangesOnly [.fns, .out, .chans] s t := by
  obtain ⟨t, ht, hreply, hframe, honly⟩ := h.answered (eff := fun u => (u.modChan n f, {})) (ks := [.chans]) rfl
    ((modChan_only _ n f (by decide)).2 (ChangesOnly.refl _ _)) (by decide)
  have htaken : (s.taken fn qp).chans = s.chans := taken_frame s fn qp .chans (by decide)
  have hchans : t.chans = ((s.taken fn qp).modChan n f).chans := hframe .chans (by decide)
  exact ⟨t, ht, hreply, by rw [hchans, State.modChan_chans, State.modChan_chans, htaken], honly⟩

end

/-! ### The effects of the memory commands -/

theorem memAlloc_of_allocBase {n : FnNo} {p : Packet} {s : State} {base : Nat}
    (h : s.allocBase n (Packet.memExt p) (Packet.memParts p) = some base) :
    memAlloc n p s =
      (s.allocate n (Packet.memExt p) base (Packet.memParts p), { r0 := BitVec.ofNat 64 base, r1 := p.u64 16 }) := by
  rw [memAlloc, h]

theorem memFree_of_namedAlloc {n : FnNo} {p : Packet} {s : State} {a : Alloc} (h : s.namedAlloc n p = some a) :
    memFree n p s = (s.release n (Packet.memExt p) a, {}) := by
  rw [memFree, h]

/-- R357: an accepted MEM_MAP_EXTERNAL sets the aperture base of its own stratum and answers with the former base. -/
theorem exec_memMapExternal_answered {fn : FnNo} {qp : QpNo} {p : Packet} {s : State}
    (h : Accepts specMemMapExternal false fn qp p (fun _ => chkMapExternal p) (fun _ => none) s) :
    ∃ t, exec (.memMapExternal fn qp p) s = .next t ∧
      Replied s t fn qp 0x22 p stOk 0 (BitVec.ofNat 64 s.strata[fn].aperture) 0 ∧
      t.strata = (vmod s.strata fn fun x => { x with aperture := (p.u64 8).toNat }) ∧
      ChangesOnly [.fns, .out, .strata] s t := by
  obtain ⟨t, ht, hreply, hframe, honly⟩ := h.answered (ks := [.strata])
    (eff := fun u => (u.modStratum fn fun x => { x with aperture := (p.u64 8).toNat },
      { r0 := BitVec.ofNat 64 u.strata[fn].aperture })) rfl
    ((modStratum_only _ _ _ (by decide)).2 (ChangesOnly.refl _ _)) (by decide)
  have htaken : (s.taken fn qp).strata = s.strata := taken_frame s fn qp .strata (by decide)
  have hstrata := hframe .strata (by decide)
  simp only [Comp.Same, State.modStratum_strata, htaken] at hreply hstrata
  exact ⟨t, ht, hreply, hstrata, honly⟩

/-! ### The obligation -/

/-- Settles O3: each command is an effect which is answered, and the answer leaves the effect alone. -/
theorem memoryAndChannelSettings : Obligations.MemoryAndChannelSettings := by
  refine ⟨fun fn qp p s base h hbase => ?_, fun fn qp p s a h ha => ?_, fun fn qp p s h => ?_,
    fun _ _ _ _ h => h.modChan_answered _ _, fun _ _ _ _ _ h => h.modChan_answered _ _,
    fun _ _ _ _ _ h => h.modChan_answered _ _, fun _ _ _ _ h => h.modChan_answered _ _⟩
  · obtain ⟨t, ht, hreply, hframe, honly⟩ := h.answered (memAlloc_of_allocBase hbase) (ks := [.strata, .geo, .free])
      ((allocate_only _ _ _ _ _ (by decide) (by decide) (by decide)).2 (ChangesOnly.refl _ _)) (by decide)
    exact ⟨t, ht, hreply, hframe .strata (by decide), hframe .geo (by decide), honly⟩
  · obtain ⟨t, ht, hreply, hframe, honly⟩ := h.answered (memFree_of_namedAlloc ha) (ks := [.strata, .geo, .ext])
      ((release_only _ _ _ _ (by decide) (by decide) (by decide)).2 (ChangesOnly.refl _ _)) (by decide)
    exact ⟨t, ht, hreply, hframe .strata (by decide), hframe .geo (by decide), honly⟩
  · obtain ⟨t, ht, hreply, hstrata, honly⟩ := exec_memMapExternal_answered h
    exact ⟨t, ht, hreply, by rw [hstrata, vmod_get], fun n hn => by rw [hstrata, vmod_get_ne _ _ hn.symm], honly⟩

end Sys2Proof.Machine
end

section
/-!
PROOFS. The queries of an object (R337 to R340, R382, R383, R396, R426, R450, R454): a short command which writes at
most one block to host memory is answered, and neither the block nor the answer reaches beyond the host interface.
-/

namespace Sys2Proof.Machine

/-! ### What taking a command leaves of the objects queried -/

theorem taken_strata (s : State) (fn : FnNo) (qp : QpNo) : (s.taken fn qp).strata = s.strata :=
  taken_frame s fn qp .strata (by decide)

theorem taken_chan (s : State) (fn : FnNo) (qp : QpNo) (n : Nat) : (s.taken fn qp).chan n = s.chan n := by
  have hchans : (s.taken fn qp).chans = s.chans := taken_frame s fn qp .chans (by decide)
  rw [State.chan, hchans, State.chan]

theorem taken_pairReport (s : State) (fn : FnNo) (qp : QpNo) (n : FnNo) :
    (s.taken fn qp).pairReport n = s.pairReport n := by
  have hlock : (s.taken fn qp).lock = s.lock := taken_frame s fn qp .lock (by decide)
  rw [State.pairReport, hlock, State.pairReport]

/-! ### A query which the module accepts -/

theorem writeBlock_frame (s : State) (fn : FnNo) (a : W64) (b : List Byte) :
    ChangesOnly [.fns, .out] s (s.writeBlock fn a b) :=
  (writeBlock_only s fn a b (by decide) (by decide)).2 (ChangesOnly.refl _ _)

section
variable {s : State} {c : CmdSpec} {fn : FnNo} {qp : QpNo} {p : Packet} {chk res : State → Option Rej}
variable {eff : State → State × Res} {st : W16} {r0 r1 : W64}

/-- An effect which only writes a block to BUF_ADDR is answered with its status and results. -/
theorem Accepts.block_answered {a : W64} {b : List Byte} (h : Accepts c false fn qp p chk res s)
    (he : eff (s.taken fn qp) = ((s.taken fn qp).writeBlock fn a b, ⟨st, r0, r1⟩)) :
    ∃ t, Host.Outcome.next (shortCommand c fn qp p chk res eff s) = (.next t : Host.Outcome State Fault Refusal) ∧
      Replied s t fn qp c.op p st 0 r0 r1 ∧ (a ≠ 0 → Wrote s t fn a b) ∧ ChangesOnly [.fns, .out] s t := by
  have hblock : ChangesOnly [.fns, .out] s ((s.taken fn qp).writeBlock fn a b) :=
    ((taken_frame s fn qp).mono (by simp)).trans (writeBlock_frame _ _ _ _)
  refine ⟨_, congrArg _ ((shortCommand_accepts h eff).trans (by rw [he])), ?replied, fun ha => h.wrote ha b _,
    hblock.trans (shortDone_frame c fn qp p ((s.taken fn qp).writeBlock fn a b, ⟨st, r0, r1⟩))⟩
  case replied =>
    exact h.replied ((s.taken fn qp).writeBlock fn a b, ⟨st, r0, r1⟩) (writeBlock_grows _ _ _ _)
      (hblock .tick (by decide)) (hblock .boot (by decide))

/-- An effect which changes nothing is answered with its status and results. -/
theorem Accepts.result_answered (h : Accepts c false fn qp p chk res s)
    (he : eff (s.taken fn qp) = (s.taken fn qp, ⟨st, r0, r1⟩)) :
    ∃ t, Host.Outcome.next (shortCommand c fn qp p chk res eff s) = (.next t : Host.Outcome State Fault Refusal) ∧
      Replied s t fn qp c.op p st 0 r0 r1 ∧ ChangesOnly [.fns, .out] s t := by
  obtain ⟨t, ht, hreply, _, honly⟩ := h.answered (ks := []) he (ChangesOnly.refl _ _) (by simp)
  exact ⟨t, ht, hreply, honly⟩

end

/-! ### The queries of a channel, and of the pair -/

/-- R396: CHAN_QUERY of a bound channel writes its binding block, whose first two words are the results. -/
theorem exec_chanQuery_answered {fn : FnNo} {qp : QpNo} {p : Packet} {s : State} {x : Chan}
    (h : Accepts specChanQuery false fn qp p (chkChanQuery fn p) (fun _ => none) s)
    (hx : s.chan (Packet.chanNo p) = some x) :
    ∃ t, exec (.chanQuery fn qp p) s = .next t ∧
      Replied s t fn qp 0x46 p stOk 0 (BitVec.ofNat 64 (fieldNat ((s.taken fn qp).chanBlock x) 0 8))
        (BitVec.ofNat 64 (fieldNat ((s.taken fn qp).chanBlock x) 8 8)) ∧
      (p.u64 16 ≠ 0 → Wrote s t fn (p.u64 16) ((s.taken fn qp).chanBlock x)) ∧ ChangesOnly [.fns, .out] s t :=
  h.block_answered (by simp only [taken_chan, hx])

/-- R426, R970: QLINK_STATS answers with the counts of the channel's own direction. -/
theorem exec_qlinkStats_answered {fn : FnNo} {qp : QpNo} {p : Packet} {s : State} {x : Chan}
    (h : Accepts specQlinkStats false fn qp p (chkQlinkStats fn p) (fun _ => none) s)
    (hx : s.chan (Packet.chanNo p) = some x) :
    ∃ t, exec (.qlinkStats fn qp p) s = .next t ∧
      Replied s t fn qp 0x81 p stOk 0 (if x.q.send then x.q.sent else x.q.narrow)
        (if x.q.send then x.q.wideSent.setWidth 64 ||| (x.q.sentShare.setWidth 64 <<< 32)
        else x.q.wideCount.setWidth 64 ||| (x.q.share.setWidth 64 <<< 32)) ∧
      ChangesOnly [.fns, .out] s t :=
  h.result_answered (by cases hsend : x.q.send <;> simp [taken_chan, hx, hsend])

/-- R454, R1004: LOCKSTEP_STATUS writes the report of the stratum's pair, as it stands before the command, and its
status says whether a divergence is recorded. -/
theorem exec_lockstepStatus_answered {fn : FnNo} {qp : QpNo} {p : Packet} {s : State}
    (h : Accepts specLockstepStatus false fn qp p (chkLockstepStatus fn p) (fun _ => none) s) :
    ∃ t, exec (.lockstepStatus fn qp p) s = .next t ∧
      Replied s t fn qp 0xD1 p (if (s.pairReport (toFn (p.u8 8))).first.isSome then stDivergence else stOk) 0
        (s.pairReport (toFn (p.u8 8))).comparedTiles 0 ∧
      (p.u64 16 ≠ 0 → Wrote s t fn (p.u64 16) ((s.pairReport (toFn (p.u8 8))).block
        (!(fn.val == 0 && s.strata[toFn (p.u8 8)].sealed)))) ∧
      ChangesOnly [.fns, .out] s t :=
  h.block_answered (by simp only [taken_pairReport, taken_strata])

/-! ### The obligation -/

/-- Settles O2: each query is a block or a result which is answered, read from the state which has taken the command. -/
theorem objectQueriesAnswer : Obligations.ObjectQueriesAnswer := by
  refine ⟨fun fn qp p s h => ?stratum, fun fn qp p s h => ?port, fun _ _ _ _ _ => exec_chanQuery_answered,
    fun _ _ _ _ _ => exec_qlinkStats_answered, fun fn qp p s h => ?panel, fun _ _ _ _ => exec_lockstepStatus_answered⟩
  case stratum => exact h.block_answered rfl
  case port => exact h.block_answered rfl
  case panel =>
    rw [← taken_strata s fn qp]
    exact h.result_answered rfl

end Sys2Proof.Machine
end

section
/-!
PROOFS. A quire which holds NaR keeps it (R530): under the products of a step, and through the cells of the bank
which the step writes.
-/

namespace Sys2Proof.Machine

/-! ### NaR in a beat and in the products of a step -/

theorem mac_eq_none {n a b : Nat} (h : decodePosit n a = none ∨ decodePosit n b = none) : mac n a b = none := by
  rcases h with ha | hb
  · simp only [mac, ha]
  · cases ha : decodePosit n a <;> simp only [mac, ha, hb]

/-- R531: whatever else a beat adds, one NaR product makes its sum NaR. -/
theorem beatSum_eq_none {l : List (Option Int)} (h : none ∈ l) : beatSum l = none := by
  obtain ⟨before, after, rfl⟩ := List.append_of_mem h
  rw [beatSum, List.foldl_append, List.foldl_cons]
  split
  · contradiction
  · exact List.foldlRecOn (motive := (· = none)) after _ rfl fun _ hnone _ _ => by rw [hnone]

theorem quireAdd_none_right (w : Nat) (q : Option Int) : quireAdd w q none = none := by cases q <;> rfl

theorem accumulate_none (n w fuel : Nat) (l : List (Nat × Nat)) : accumulate n w fuel none l = none := by
  induction fuel generalizing l with
  | zero => rfl
  | succ fuel ih =>
    cases l with
    | nil => rfl
    | cons x l => exact ih _

/-- R529: how many products a beat adds. -/
def beatLen (n : Nat) : Nat := if n = 8 then 4 else 1

theorem beatLen_pos (n : Nat) : 0 < beatLen n := by
  rw [beatLen]
  split <;> decide

theorem accumulate_cons (n w fuel : Nat) (q : Option Int) (x : Nat × Nat) (l : List (Nat × Nat)) :
    accumulate n w (fuel + 1) q (x :: l) = accumulate n w fuel
      (quireAdd w q (beatSum (((x :: l).take (beatLen n)).map fun y => mac n y.1 y.2)))
      ((x :: l).drop (beatLen n)) := rfl

/-- A NaR product makes the quire NaR in its beat, and the later beats leave it so. -/
theorem accumulate_eq_none {n w fuel : Nat} {q : Option Int} {l : List (Nat × Nat)} (hlen : l.length ≤ fuel)
    (h : ∃ x ∈ l, mac n x.1 x.2 = none) : accumulate n w fuel q l = none := by
  obtain ⟨x, hx, hnar⟩ := h
  induction fuel generalizing q l with
  | zero => simp [List.length_eq_zero_iff.1 (Nat.le_zero.1 hlen)] at hx
  | succ fuel ih =>
    cases l with
    | nil => simp at hx
    | cons y l =>
      rw [accumulate_cons]
      rw [← List.take_append_drop (beatLen n) (y :: l), List.mem_append] at hx
      rcases hx with hbeat | hlater
      · rw [beatSum_eq_none (List.mem_map.2 ⟨x, hbeat, hnar⟩), quireAdd_none_right, accumulate_none]
      · refine ih ?_ hlater
        have hpos := beatLen_pos n
        simp only [List.length_drop, List.length_cons] at hlen ⊢
        omega

/-! ### The pattern of NaR -/

/-- R525: the pattern with only the top bit set is NaR. -/
theorem quireOf_nar {w : Nat} (h : 0 < w) : quireOf w (2 ^ (w - 1)) = none := by
  have hmin : BitVec.ofNat w (2 ^ (w - 1)) = BitVec.intMin w :=
    BitVec.eq_of_toNat_eq (by rw [BitVec.toNat_ofNat, BitVec.toNat_intMin])
  rw [quireOf, quireWrap, hmin, BitVec.ofInt_toInt, BitVec.toInt_intMin_of_pos h]
  exact if_pos rfl

/-! ### The cells of a bank -/

@[simp] theorem cellBits_nil (k : Nat) : cellBits [] k = 0 := rfl

@[simp] theorem cellBits_cons (e : Nat × BitVec 256) (m : List (Nat × BitVec 256)) (k : Nat) :
    cellBits (e :: m) k = if e.1 = k then e.2 else cellBits m k := by
  by_cases h : e.1 = k <;> simp [cellBits, spGet, h]

/-- The sparse table of cells which are numbered from `start`; cells of zero are left out. -/
def cellsFrom (start : Nat) : List Nat → List (Nat × BitVec 256)
  | [] => []
  | c :: cs => if c % 2 ^ 256 = 0 then cellsFrom (start + 1) cs
    else (start, BitVec.ofNat 256 c) :: cellsFrom (start + 1) cs

theorem cellBits_cellsFrom_of_lt {start k : Nat} (h : k < start) (cells : List Nat) :
    cellBits (cellsFrom start cells) k = 0 := by
  induction cells generalizing start with
  | nil => rfl
  | cons c cs ih =>
    rw [cellsFrom]
    split
    · exact ih (by omega)
    · rw [cellBits_cons, if_neg (by simpa using Nat.ne_of_gt h), ih (by omega)]

/-- A cell which is left out of the table reads zero, which is what it holds. -/
theorem cellBits_cellsFrom (start k : Nat) (cells : List Nat) :
    cellBits (cellsFrom start cells) (start + k) = BitVec.ofNat 256 ((cells[k]?).getD 0) := by
  induction cells generalizing start k with
  | nil => rfl
  | cons c cs ih =>
    cases k with
    | zero =>
      have hrest : cellBits (cellsFrom (start + 1) cs) start = 0 := cellBits_cellsFrom_of_lt (by omega) cs
      rw [cellsFrom]
      split
      case isTrue hzero => simpa [hrest] using (BitVec.eq_of_toNat_eq (by simpa using hzero.symm))
      case isFalse => simp
    | succ k =>
      have hnext := ih (start + 1) k
      rw [Nat.add_right_comm, Nat.add_assoc] at hnext
      rw [cellsFrom]
      split <;> simpa using hnext

/-- The cells which hold quire patterns of a form, in their order. -/
def bankCells (wide : Bool) (rows : List (List Nat)) : List Nat :=
  (rows.map fun r => if wide then (r.map fun q => [q % 2 ^ 256, q / 2 ^ 256]).flatten else r).flatten

theorem filterMap_numbered_eq_cellsFrom (start : Nat) (cells : List Nat) :
    ((List.range' start cells.length).zip cells).filterMap (fun x =>
      if x.2 % 2 ^ 256 = 0 then none else some (x.1, BitVec.ofNat 256 x.2)) = cellsFrom start cells := by
  induction cells generalizing start with
  | nil => rfl
  | cons c cs ih =>
    by_cases hzero : c % 2 ^ 256 = 0 <;>
      simp [-Nat.reducePow, List.range'_succ, cellsFrom, hzero, ih]

theorem bankOf32_eq_cellsFrom (wide : Bool) (rows : List (List Nat)) :
    bankOf32 wide rows = cellsFrom 0 (bankCells wide rows) := by
  rw [bankOf32, List.range_eq_range', ← filterMap_numbered_eq_cellsFrom]
  rfl

theorem cellBits_bankOf32 (wide : Bool) (rows : List (List Nat)) (k : Nat) :
    cellBits (bankOf32 wide rows) k = BitVec.ofNat 256 (((bankCells wide rows)[k]?).getD 0) := by
  rw [bankOf32_eq_cellsFrom, ← cellBits_cellsFrom 0, Nat.zero_add]

/-! ### The place of a quire among the cells -/

theorem getElem?_flatten_of_length {α : Type} {c j : Nat} {rows : List (List α)} (h : ∀ r ∈ rows, r.length = c)
    (hj : j < c) (i : Nat) : rows.flatten[c * i + j]? = rows[i]?.bind (·[j]?) := by
  induction rows generalizing i with
  | nil => rfl
  | cons r rows ih =>
    obtain ⟨hr, hrows⟩ := List.forall_mem_cons.1 h
    cases i with
    | zero => simp [List.getElem?_append_left (hr ▸ hj)]
    | succ i =>
      have hskip : c * (i + 1) + j = r.length + (c * i + j) := by rw [hr, Nat.mul_succ]; omega
      rw [List.flatten_cons, hskip, List.getElem?_append_right (Nat.le_add_right _ _), Nat.add_sub_cancel_left,
        ih hrows, List.getElem?_cons_succ]

/-- The 32 rows of quire patterns of a form. -/
def patternRows (wide : Bool) (f : Nat → Nat → Nat) : List (List Nat) :=
  (List.range 32).map fun i => (List.range (quireCols wide)).map (f i)

theorem bankCells_narrow {i j : Nat} (hi : i < 32) (hj : j < 32) (f : Nat → Nat → Nat) :
    (bankCells false (patternRows false f))[32 * i + j]? = some (f i j) := by
  rw [bankCells, getElem?_flatten_of_length (by simp [patternRows, quireCols]) hj]
  simp [patternRows, quireCols, hi, hj]

theorem bankCells_wide {i j e : Nat} (hi : i < 32) (hj : j < 16) (he : e < 2) (f : Nat → Nat → Nat) :
    (bankCells true (patternRows true f))[32 * i + (2 * j + e)]? = [f i j % 2 ^ 256, f i j / 2 ^ 256][e]? := by
  rw [bankCells, getElem?_flatten_of_length (by simp [patternRows, quireCols, Function.comp_def, List.map_const']) (by omega)]
  simp only [patternRows, quireCols, List.getElem?_map, List.getElem?_range hi, Option.map_some,
    Option.bind_some, if_true]
  rw [getElem?_flatten_of_length (by simp) he]
  simp [hj]

/-! ### The quires of a step -/

/-- R563, R569: the pattern which a step leaves in the quire of column `j` of row `i`. -/
def stepQuire (o : StepOp) (a b : OpSlot) (m : List (Nat × BitVec 256)) (i j : Nat) : Nat :=
  let wide := o.fmt == 2
  let q := if o.clear then some 0 else quireOf (quireWidth wide) (quireBits wide m i j)
  quirePattern (quireWidth wide) (accumulate (fmtBits o.fmt) (quireWidth wide) o.k q
    ((List.range o.k).map fun k => (a.at_ i k, b.at_ k j)))

theorem stepBank_eq_bankOf32 (o : StepOp) (a b : OpSlot) (m : List (Nat × BitVec 256)) :
    stepBank o a b m = bankOf32 (o.fmt == 2) (patternRows (o.fmt == 2) (stepQuire o a b m)) := rfl

/-- R530: a step which does not clear leaves the NaR pattern where it stands. -/
theorem stepQuire_nar {o : StepOp} {a b : OpSlot} {m : List (Nat × BitVec 256)} {i j top : Nat} {wide : Bool}
    (hf : (o.fmt == 2) = wide) (hw : quireWidth wide = top + 1) (hc : o.clear = false)
    (h : quireBits wide m i j = 2 ^ top) : stepQuire o a b m i j = 2 ^ top := by
  have hnar : quireOf (top + 1) (2 ^ top) = none := quireOf_nar (Nat.succ_pos top)
  rw [stepQuire, hf, hw, hc, h, if_neg Bool.false_ne_true, hnar, accumulate_none]
  rfl

theorem stepQuire_of_clear {o : StepOp} (hc : o.clear = true) (a b : OpSlot) (m m' : List (Nat × BitVec 256)) :
    stepQuire o a b m = stepQuire o a b m' := by
  funext i j
  simp only [stepQuire, hc, if_true]

theorem stepBank_nar_narrow {o : StepOp} {a b : OpSlot} {m : List (Nat × BitVec 256)} {i j : Nat} (hf : o.fmt ≠ 2)
    (hc : o.clear = false) (hi : i < 32) (hj : j < 32) (h : (cellBits m (32 * i + j)).toNat = 2 ^ 255) :
    (cellBits (stepBank o a b m) (32 * i + j)).toNat = 2 ^ 255 := by
  have hnarrow : (o.fmt == 2) = false := beq_false_of_ne hf
  have hquire : stepQuire o a b m i j = 2 ^ 255 := stepQuire_nar hnarrow rfl hc h
  rw [stepBank_eq_bankOf32, hnarrow, cellBits_bankOf32, bankCells_narrow hi hj, hquire]
  rfl

theorem stepBank_nar_wide {o : StepOp} {a b : OpSlot} {m : List (Nat × BitVec 256)} {i j : Nat} (hf : o.fmt = 2)
    (hc : o.clear = false) (hi : i < 32) (hj : j < 16) (hlow : cellBits m (32 * i + 2 * j) = 0)
    (hhigh : (cellBits m (32 * i + 2 * j + 1)).toNat = 2 ^ 255) :
    cellBits (stepBank o a b m) (32 * i + 2 * j) = 0 ∧
      (cellBits (stepBank o a b m) (32 * i + 2 * j + 1)).toNat = 2 ^ 255 := by
  have hwide : (o.fmt == 2) = true := beq_of_eq hf
  generalize htop : 255 = top at hhigh ⊢
  have hwidth : quireWidth true = 256 + top + 1 := by rw [← htop]; rfl
  have hbits : quireBits true m i j = 2 ^ (256 + top) := by
    rw [quireBits, if_pos rfl, hlow, hhigh, Nat.pow_add]
    exact Nat.zero_add _
  have hquire : stepQuire o a b m i j = 2 ^ 256 * 2 ^ top := by
    rw [stepQuire_nar hwide hwidth hc hbits, Nat.pow_add]
  rw [stepBank_eq_bankOf32, hwide, cellBits_bankOf32, cellBits_bankOf32, Nat.add_assoc (32 * i),
    bankCells_wide hi hj Nat.one_lt_two, ← Nat.add_zero (2 * j), bankCells_wide hi hj Nat.two_pos, hquire,
    Nat.mul_mod_right, Nat.mul_div_cancel_left _ (Nat.two_pow_pos 256)]
  exact ⟨rfl, htop ▸ rfl⟩

/-! ### The obligation -/

/-- Settles O54: NaR absorbs every product, by induction on the beats; and a step reads and writes each quire of its
bank at the same cells. -/
theorem quireKeepsNaR : Obligations.QuireKeepsNaR := by
  refine ⟨accumulate_none, fun n w q l r x hnar => ?product, fun _ _ _ _ _ _ => stepBank_nar_narrow,
    fun _ _ _ _ _ _ => stepBank_nar_wide, fun o a b m m' hc => ?clear⟩
  case product => exact accumulate_eq_none (Nat.le_refl _) ⟨x, by simp, mac_eq_none hnar⟩
  case clear => rw [stepBank_eq_bankOf32, stepBank_eq_bankOf32, stepQuire_of_clear hc a b m m']

end Sys2Proof.Machine
end

section
/-!
PROOFS. The frame of every command, and the canonical form of the memories: each is the law of the command's own meaning,
one case for each constructor.
-/

namespace Sys2Proof.Machine

/-! ### The frame of every command -/

/-- Membership read off the list's Boolean test, which computes also where the list's command has operands. -/
theorem Comp.mem_of_contains {k : Comp} {ks : List Comp} (h : ks.contains k = true) : k ∈ ks :=
  List.contains_iff_mem.1 h

/-- Each command's law asks for the components which its row of `mayChange` names. -/
theorem exec_only {c : Instr} {s t : State} (e : exec c s = .next t) (r : State) :
    ChangesOnly (mayChange c) r t ↔ ChangesOnly (mayChange c) r s := by
  cases c with
  | devIdentify => apply execDevIdentify_only e <;> exact Comp.mem_of_contains rfl
  | devStatus => apply execDevStatus_only e <;> exact Comp.mem_of_contains rfl
  | devSetPowerCap => apply execDevSetPowerCap_only e <;> exact Comp.mem_of_contains rfl
  | devSetClockPlan => apply execDevSetClockPlan_only e <;> exact Comp.mem_of_contains rfl
  | stratumCreate => apply execStratumCreate_only e <;> exact Comp.mem_of_contains rfl
  | stratumDestroy => apply execStratumDestroy_only e <;> exact Comp.mem_of_contains rfl
  | stratumDestroyComplete => apply execStratumDestroyComplete_only e <;> exact Comp.mem_of_contains rfl
  | stratumQuery => apply execStratumQuery_only e <;> exact Comp.mem_of_contains rfl
  | stratumSetArbitration => apply execStratumSetArbitration_only e <;> exact Comp.mem_of_contains rfl
  | stratumSetMode => apply execStratumSetMode_only e <;> exact Comp.mem_of_contains rfl
  | memAlloc => apply execMemAlloc_only e <;> exact Comp.mem_of_contains rfl
  | memFree => apply execMemFree_only e <;> exact Comp.mem_of_contains rfl
  | memMapExternal => apply execMemMapExternal_only e <;> exact Comp.mem_of_contains rfl
  | setSize => apply execSetSize_only e <;> exact Comp.mem_of_contains rfl
  | setStratum => apply execSetStratum_only e <;> exact Comp.mem_of_contains rfl
  | poolQuery => apply execPoolQuery_only e <;> exact Comp.mem_of_contains rfl
  | copy => apply execCopy_only e <;> exact Comp.mem_of_contains rfl
  | copyFill => apply execCopyFill_only e <;> exact Comp.mem_of_contains rfl
  | copyChecksum => apply execCopyChecksum_only e <;> exact Comp.mem_of_contains rfl
  | copyJobStart => apply execCopyJobStart_only e <;> exact Comp.mem_of_contains rfl
  | copyJobComplete => apply execCopyJobComplete_only e <;> exact Comp.mem_of_contains rfl
  | deliveryJobStart => apply execDeliveryJobStart_only e <;> exact Comp.mem_of_contains rfl
  | deliveryJobComplete => apply execDeliveryJobComplete_only e <;> exact Comp.mem_of_contains rfl
  | portTrainTrain => apply execPortTrainTrain_only e <;> exact Comp.mem_of_contains rfl
  | portTrainRetrain => apply execPortTrainRetrain_only e <;> exact Comp.mem_of_contains rfl
  | portTrainDisable => apply execPortTrainDisable_only e <;> exact Comp.mem_of_contains rfl
  | portStatus => apply execPortStatus_only e <;> exact Comp.mem_of_contains rfl
  | portSetWidth => apply execPortSetWidth_only e <;> exact Comp.mem_of_contains rfl
  | chanBind => apply execChanBind_only e <;> exact Comp.mem_of_contains rfl
  | chanRoute => apply execChanRoute_only e <;> exact Comp.mem_of_contains rfl
  | chanUnbind => apply execChanUnbind_only e <;> exact Comp.mem_of_contains rfl
  | chanQuery => apply execChanQuery_only e <;> exact Comp.mem_of_contains rfl
  | slateContextLoad => apply execSlateContextLoad_only e <;> exact Comp.mem_of_contains rfl
  | slateParamSet => apply execSlateParamSet_only e <;> exact Comp.mem_of_contains rfl
  | slateOutputCfg => apply execSlateOutputCfg_only e <;> exact Comp.mem_of_contains rfl
  | slateSchedule => apply execSlateSchedule_only e <;> exact Comp.mem_of_contains rfl
  | progLoad => apply execProgLoad_only e <;> exact Comp.mem_of_contains rfl
  | packageCheck => apply execPackageCheck_only e <;> exact Comp.mem_of_contains rfl
  | progUnload => apply execProgUnload_only e <;> exact Comp.mem_of_contains rfl
  | progUnloadComplete => apply execProgUnloadComplete_only e <;> exact Comp.mem_of_contains rfl
  | tableLoad => apply execTableLoad_only e <;> exact Comp.mem_of_contains rfl
  | tableImageCheck => apply execTableImageCheck_only e <;> exact Comp.mem_of_contains rfl
  | microprogLoad => apply execMicroprogLoad_only e <;> exact Comp.mem_of_contains rfl
  | microprogImageCheck => apply execMicroprogImageCheck_only e <;> exact Comp.mem_of_contains rfl
  | launch => apply execLaunch_only e <;> exact Comp.mem_of_contains rfl
  | launchAtTick => apply execLaunchAtTick_only e <;> exact Comp.mem_of_contains rfl
  | startTickReached => apply execStartTickReached_only e <;> exact Comp.mem_of_contains rfl
  | barrier => apply execBarrier_only e <;> exact Comp.mem_of_contains rfl
  | barrierComplete => apply execBarrierComplete_only e <;> exact Comp.mem_of_contains rfl
  | frameAbort => apply execFrameAbort_only e <;> exact Comp.mem_of_contains rfl
  | eventWait => apply execEventWait_only e <;> exact Comp.mem_of_contains rfl
  | eventWaitComplete => apply execEventWaitComplete_only e <;> exact Comp.mem_of_contains rfl
  | qlinkConfig => apply execQlinkConfig_only e <;> exact Comp.mem_of_contains rfl
  | qlinkStats => apply execQlinkStats_only e <;> exact Comp.mem_of_contains rfl
  | telemetryRead => apply execTelemetryRead_only e <;> exact Comp.mem_of_contains rfl
  | counterConfigClear => apply execCounterConfigClear_only e <;> exact Comp.mem_of_contains rfl
  | unitFence => apply execUnitFence_only e <;> exact Comp.mem_of_contains rfl
  | drainEnd => apply execDrainEnd_only e <;> exact Comp.mem_of_contains rfl
  | unitSelftest => apply execUnitSelftest_only e <;> exact Comp.mem_of_contains rfl
  | unitSelftestComplete => apply execUnitSelftestComplete_only e <;> exact Comp.mem_of_contains rfl
  | unitReturn => apply execUnitReturn_only e <;> exact Comp.mem_of_contains rfl
  | clusterRemap => apply execClusterRemap_only e <;> exact Comp.mem_of_contains rfl
  | clusterRemapSwitch => apply execClusterRemapSwitch_only e <;> exact Comp.mem_of_contains rfl
  | faultLogRead => apply execFaultLogRead_only e <;> exact Comp.mem_of_contains rfl
  | faultLogReadComplete => apply execFaultLogReadComplete_only e <;> exact Comp.mem_of_contains rfl
  | nvRead => apply execNvRead_only e <;> exact Comp.mem_of_contains rfl
  | nvWrite => apply execNvWrite_only e <;> exact Comp.mem_of_contains rfl
  | fwStage => apply execFwStage_only e <;> exact Comp.mem_of_contains rfl
  | fwCommit => apply execFwCommit_only e <;> exact Comp.mem_of_contains rfl
  | calStore => apply execCalStore_only e <;> exact Comp.mem_of_contains rfl
  | nvOperationStart => apply execNvOperationStart_only e <;> exact Comp.mem_of_contains rfl
  | pageProgramComplete => apply execPageProgramComplete_only e <;> exact Comp.mem_of_contains rfl
  | sectorEraseComplete => apply execSectorEraseComplete_only e <;> exact Comp.mem_of_contains rfl
  | panelDraw => apply execPanelDraw_only e <;> exact Comp.mem_of_contains rfl
  | panelStatus => apply execPanelStatus_only e <;> exact Comp.mem_of_contains rfl
  | lockstepPair => apply execLockstepPair_only e <;> exact Comp.mem_of_contains rfl
  | lockstepUnpair => apply execLockstepUnpair_only e <;> exact Comp.mem_of_contains rfl
  | pairTimeout => apply execPairTimeout_only e <;> exact Comp.mem_of_contains rfl
  | lockstepStatus => apply execLockstepStatus_only e <;> exact Comp.mem_of_contains rfl
  | tickSync => apply execTickSync_only e <;> exact Comp.mem_of_contains rfl
  | tickSyncTimeout => apply execTickSyncTimeout_only e <;> exact Comp.mem_of_contains rfl
  | unlistedOpcode => apply execUnlistedOpcode_only e <;> exact Comp.mem_of_contains rfl
  | cancelledCommand => apply execCancelledCommand_only e <;> exact Comp.mem_of_contains rfl
  | planInstallComplete => apply execPlanInstallComplete_only e <;> exact Comp.mem_of_contains rfl
  | hifIntCause => apply execHifIntCause_only e <;> exact Comp.mem_of_contains rfl
  | hifIntMask => apply execHifIntMask_only e <;> exact Comp.mem_of_contains rfl
  | hifTickLo => apply execHifTickLo_only e <;> exact Comp.mem_of_contains rfl
  | queuePairEnable => apply execQueuePairEnable_only e <;> exact Comp.mem_of_contains rfl
  | queuePairDisable => apply execQueuePairDisable_only e <;> exact Comp.mem_of_contains rfl
  | evqEnable => apply execEvqEnable_only e <;> exact Comp.mem_of_contains rfl
  | evqDisable => apply execEvqDisable_only e <;> exact Comp.mem_of_contains rfl
  | doorbell => apply execDoorbell_only e <;> exact Comp.mem_of_contains rfl
  | hifCqnHead => apply execHifCqnHead_only e <;> exact Comp.mem_of_contains rfl
  | hifEvqHead => apply execHifEvqHead_only e <;> exact Comp.mem_of_contains rfl
  | ringReadError => apply execRingReadError_only e <;> exact Comp.mem_of_contains rfl
  | hifSupplyStatus => apply execHifSupplyStatus_only e <;> exact Comp.mem_of_contains rfl
  | registerWrite => apply execRegisterWrite_only e <;> exact Comp.mem_of_contains rfl
  | accessErr => apply execAccessErr_only e <;> exact Comp.mem_of_contains rfl
  | bar2Read => apply execBar2Read_only e <;> exact Comp.mem_of_contains rfl
  | bar2Write => apply execBar2Write_only e <;> exact Comp.mem_of_contains rfl
  | resultRingRelease => apply execResultRingRelease_only e <;> exact Comp.mem_of_contains rfl
  | perstAssert => apply execPerstAssert_only e <;> exact Comp.mem_of_contains rfl
  | scrubComplete => apply execScrubComplete_only e <;> exact Comp.mem_of_contains rfl
  | perstDeassert => exact execPerstDeassert_only e (Comp.mem_of_contains rfl)
  | linkL0 => exact execLinkL0_only e (Comp.mem_of_contains rfl)
  | configRequest => apply execConfigRequest_only e <;> exact Comp.mem_of_contains rfl
  | flrPf => apply execFlrPf_only e <;> exact Comp.mem_of_contains rfl
  | flrVf => apply execFlrVf_only e <;> exact Comp.mem_of_contains rfl
  | d3hotToD0 => apply execD3hotToD0_only e <;> exact Comp.mem_of_contains rfl
  | vfEnableClear => apply execVfEnableClear_only e <;> exact Comp.mem_of_contains rfl
  | busMasterEnable => apply execBusMasterEnable_only e <;> exact Comp.mem_of_contains rfl
  | pcieReferenceLost => apply execPcieReferenceLost_only e <;> exact Comp.mem_of_contains rfl
  | inputRise => apply execInputRise_only e <;> exact Comp.mem_of_contains rfl
  | vinMainLow => apply execVinMainLow_only e <;> exact Comp.mem_of_contains rfl
  | vinAuxLow => apply execVinAuxLow_only e <;> exact Comp.mem_of_contains rfl
  | vinMainQualified => apply execVinMainQualified_only e <;> exact Comp.mem_of_contains rfl
  | switchComplete => apply execSwitchComplete_only e <;> exact Comp.mem_of_contains rfl
  | sagBegin => apply execSagBegin_only e <;> exact Comp.mem_of_contains rfl
  | sagEnd => apply execSagEnd_only e <;> exact Comp.mem_of_contains rfl
  | vinLoss => apply execVinLoss_only e <;> exact Comp.mem_of_contains rfl
  | holdupSequenceComplete => apply execHoldupSequenceComplete_only e <;> exact Comp.mem_of_contains rfl
  | supplyGateOpen => apply execSupplyGateOpen_only e <;> exact Comp.mem_of_contains rfl
  | supplyGatePauseTimeout => apply execSupplyGatePauseTimeout_only e <;> exact Comp.mem_of_contains rfl
  | holdupFault => apply execHoldupFault_only e <;> exact Comp.mem_of_contains rfl
  | supplyStatusRefresh => exact execSupplyStatusRefresh_only e (Comp.mem_of_contains rfl)
  | modResetN => apply execModResetN_only e <;> exact Comp.mem_of_contains rfl
  | moduleReset => apply execModuleReset_only e <;> exact Comp.mem_of_contains rfl
  | modResetNRise => exact execModResetNRise_only e (Comp.mem_of_contains rfl)
  | testEn => apply execTestEn_only e <;> exact Comp.mem_of_contains rfl
  | imageBootTimeout => apply execImageBootTimeout_only e <;> exact Comp.mem_of_contains rfl
  | supervisorBootEnd => apply execSupervisorBootEnd_only e <;> exact Comp.mem_of_contains rfl
  | aonCheckEnd => apply execAonCheckEnd_only e <;> exact Comp.mem_of_contains rfl
  | clockStartEnd => apply execClockStartEnd_only e <;> exact Comp.mem_of_contains rfl
  | geodeTestEnd => apply execGeodeTestEnd_only e <;> exact Comp.mem_of_contains rfl
  | clusterRoundEnd => apply execClusterRoundEnd_only e <;> exact Comp.mem_of_contains rfl
  | lpddrTrainingEnd => apply execLpddrTrainingEnd_only e <;> exact Comp.mem_of_contains rfl
  | mapping => apply execMapping_only e <;> exact Comp.mem_of_contains rfl
  | pllOutOfLock => apply execPllOutOfLock_only e <;> exact Comp.mem_of_contains rfl
  | pllRelocked => apply execPllRelocked_only e <;> exact Comp.mem_of_contains rfl
  | pllRelockTimeout => apply execPllRelockTimeout_only e <;> exact Comp.mem_of_contains rfl
  | poicaReferenceLost => apply execPoicaReferenceLost_only e <;> exact Comp.mem_of_contains rfl
  | aonCrystalLost => apply execAonCrystalLost_only e <;> exact Comp.mem_of_contains rfl
  | requestOpenTimeout => apply execRequestOpenTimeout_only e <;> exact Comp.mem_of_contains rfl
  | unitFault => apply execUnitFault_only e <;> exact Comp.mem_of_contains rfl
  | malformedReply => apply execMalformedReply_only e <;> exact Comp.mem_of_contains rfl
  | watchdogTimeout => apply execWatchdogTimeout_only e <;> exact Comp.mem_of_contains rfl
  | supervisorMemoryError => apply execSupervisorMemoryError_only e <;> exact Comp.mem_of_contains rfl
  | alwaysOnParity => apply execAlwaysOnParity_only e <;> exact Comp.mem_of_contains rfl
  | firmwareIntegrityFailed => apply execFirmwareIntegrityFailed_only e <;> exact Comp.mem_of_contains rfl
  | spareReplacement => apply execSpareReplacement_only e <;> exact Comp.mem_of_contains rfl
  | restoration => apply execRestoration_only e <;> exact Comp.mem_of_contains rfl
  | sensorSample => apply execSensorSample_only e <;> exact Comp.mem_of_contains rfl
  | cardSensorSample => apply execCardSensorSample_only e <;> exact Comp.mem_of_contains rfl
  | stepTimer => apply execStepTimer_only e <;> exact Comp.mem_of_contains rfl
  | releaseTimer => apply execReleaseTimer_only e <;> exact Comp.mem_of_contains rfl
  | smbusProduct => exact execSmbusProduct_only e (Comp.mem_of_contains rfl)
  | smbusOrder => exact execSmbusOrder_only e (Comp.mem_of_contains rfl)
  | smbusSerial => exact execSmbusSerial_only e (Comp.mem_of_contains rfl)
  | smbusFwVersion => exact execSmbusFwVersion_only e (Comp.mem_of_contains rfl)
  | smbusSupplyStatus => exact execSmbusSupplyStatus_only e (Comp.mem_of_contains rfl)
  | smbusVinMain => exact execSmbusVinMain_only e (Comp.mem_of_contains rfl)
  | smbusVinAux => exact execSmbusVinAux_only e (Comp.mem_of_contains rfl)
  | smbusPowerState => exact execSmbusPowerState_only e (Comp.mem_of_contains rfl)
  | smbusTJ => exact execSmbusTJ_only e (Comp.mem_of_contains rfl)
  | smbusCardTemperature => exact execSmbusCardTemperature_only e (Comp.mem_of_contains rfl)
  | smbusState => exact execSmbusState_only e (Comp.mem_of_contains rfl)
  | smbusNack => exact execSmbusNack_only e (Comp.mem_of_contains rfl)
  | bypass => apply execBypass_only e <;> exact Comp.mem_of_contains rfl
  | idcode => apply execIdcode_only e <;> exact Comp.mem_of_contains rfl
  | samplePreload => apply execSamplePreload_only e <;> exact Comp.mem_of_contains rfl
  | extest => apply execExtest_only e <;> exact Comp.mem_of_contains rfl
  | privateDebug => apply execPrivateDebug_only e <;> exact Comp.mem_of_contains rfl
  | blockLockAcquired => apply execBlockLockAcquired_only e <;> exact Comp.mem_of_contains rfl
  | blockLockLost => apply execBlockLockLost_only e <;> exact Comp.mem_of_contains rfl
  | laneFailure => apply execLaneFailure_only e <;> exact Comp.mem_of_contains rfl
  | ts => apply execTs_only e <;> exact Comp.mem_of_contains rfl
  | presetMeasureTimer => apply execPresetMeasureTimer_only e <;> exact Comp.mem_of_contains rfl
  | detectTimeout => apply execDetectTimeout_only e <;> exact Comp.mem_of_contains rfl
  | equalizeTimeout => apply execEqualizeTimeout_only e <;> exact Comp.mem_of_contains rfl
  | alignTimeout => apply execAlignTimeout_only e <;> exact Comp.mem_of_contains rfl
  | negotiateTimeout => apply execNegotiateTimeout_only e <;> exact Comp.mem_of_contains rfl
  | retrainTimeout => apply execRetrainTimeout_only e <;> exact Comp.mem_of_contains rfl
  | laneMark => apply execLaneMark_only e <;> exact Comp.mem_of_contains rfl
  | laneMarkTransmit => apply execLaneMarkTransmit_only e <;> exact Comp.mem_of_contains rfl
  | negRecord => apply execNegRecord_only e <;> exact Comp.mem_of_contains rfl
  | negAccept => apply execNegAccept_only e <;> exact Comp.mem_of_contains rfl
  | negRefuse => apply execNegRefuse_only e <;> exact Comp.mem_of_contains rfl
  | widthChangeReq => apply execWidthChangeReq_only e <;> exact Comp.mem_of_contains rfl
  | widthChangeAck => apply execWidthChangeAck_only e <;> exact Comp.mem_of_contains rfl
  | widthChangeNak => apply execWidthChangeNak_only e <;> exact Comp.mem_of_contains rfl
  | widthChangeSwitch => apply execWidthChangeSwitch_only e <;> exact Comp.mem_of_contains rfl
  | widthChangeReqTimeout => apply execWidthChangeReqTimeout_only e <;> exact Comp.mem_of_contains rfl
  | widthChangeTimeout => apply execWidthChangeTimeout_only e <;> exact Comp.mem_of_contains rfl
  | idle => exact execIdle_only e (Comp.mem_of_contains rfl)
  | samples => apply execSamples_only e <;> exact Comp.mem_of_contains rfl
  | tensor => apply execTensor_only e <;> exact Comp.mem_of_contains rfl
  | digestFrame => apply execDigestFrame_only e <;> exact Comp.mem_of_contains rfl
  | logReq => apply execLogReq_only e <;> exact Comp.mem_of_contains rfl
  | logFrame => apply execLogFrame_only e <;> exact Comp.mem_of_contains rfl
  | forward => apply execForward_only e <;> exact Comp.mem_of_contains rfl
  | pairFrame => apply execPairFrame_only e <;> exact Comp.mem_of_contains rfl
  | unpairFrame => apply execUnpairFrame_only e <;> exact Comp.mem_of_contains rfl
  | credit => apply execCredit_only e <;> exact Comp.mem_of_contains rfl
  | creditWithdraw => apply execCreditWithdraw_only e <;> exact Comp.mem_of_contains rfl
  | creditRefresh => apply execCreditRefresh_only e <;> exact Comp.mem_of_contains rfl
  | ack => apply execAck_only e <;> exact Comp.mem_of_contains rfl
  | nak => apply execNak_only e <;> exact Comp.mem_of_contains rfl
  | replayTimeout => apply execReplayTimeout_only e <;> exact Comp.mem_of_contains rfl
  | frameMark => apply execFrameMark_only e <;> exact Comp.mem_of_contains rfl
  | settingNotice => apply execSettingNotice_only e <;> exact Comp.mem_of_contains rfl
  | forcedSwitch => apply execForcedSwitch_only e <;> exact Comp.mem_of_contains rfl
  | poolStarved => apply execPoolStarved_only e <;> exact Comp.mem_of_contains rfl
  | syncTime => apply execSyncTime_only e <;> exact Comp.mem_of_contains rfl
  | echo => apply execEcho_only e <;> exact Comp.mem_of_contains rfl
  | timeTransmit => exact execTimeTransmit_only e (Comp.mem_of_contains rfl)
  | echoTimeout => apply execEchoTimeout_only e <;> exact Comp.mem_of_contains rfl
  | cageOvercurrent => exact execCageOvercurrent_only e (Comp.mem_of_contains rfl)
  | cageRetry => apply execCageRetry_only e <;> exact Comp.mem_of_contains rfl
  | grant => apply execGrant_only e <;> exact Comp.mem_of_contains rfl
  | zeroingComplete => apply execZeroingComplete_only e <;> exact Comp.mem_of_contains rfl
  | pieceStart => apply execPieceStart_only e <;> exact Comp.mem_of_contains rfl
  | pieceEnd => apply execPieceEnd_only e <;> exact Comp.mem_of_contains rfl
  | dispatch => apply execDispatch_only e <;> exact Comp.mem_of_contains rfl
  | microStep => apply execMicroStep_only e <;> exact Comp.mem_of_contains rfl
  | drain => apply execDrain_only e <;> exact Comp.mem_of_contains rfl
  | reductionTransfer => apply execReductionTransfer_only e <;> exact Comp.mem_of_contains rfl
  | sload => apply execSload_only e <;> exact Comp.mem_of_contains rfl
  | qsave => apply execQsave_only e <;> exact Comp.mem_of_contains rfl
  | qload => apply execQload_only e <;> exact Comp.mem_of_contains rfl
  | qclear => apply execQclear_only e <;> exact Comp.mem_of_contains rfl
  | get => apply execGet_only e <;> exact Comp.mem_of_contains rfl
  | put => apply execPut_only e <;> exact Comp.mem_of_contains rfl
  | hsend => apply execHsend_only e <;> exact Comp.mem_of_contains rfl
  | hrecv => apply execHrecv_only e <;> exact Comp.mem_of_contains rfl
  | micaExp => apply execMicaExp_only e <;> exact Comp.mem_of_contains rfl
  | micaExp2 => apply execMicaExp2_only e <;> exact Comp.mem_of_contains rfl
  | micaLog2 => apply execMicaLog2_only e <;> exact Comp.mem_of_contains rfl
  | micaRecip => apply execMicaRecip_only e <;> exact Comp.mem_of_contains rfl
  | micaRsqrt => apply execMicaRsqrt_only e <;> exact Comp.mem_of_contains rfl
  | micaTanh => apply execMicaTanh_only e <;> exact Comp.mem_of_contains rfl
  | micaSigmoid => apply execMicaSigmoid_only e <;> exact Comp.mem_of_contains rfl
  | micaErf => apply execMicaErf_only e <;> exact Comp.mem_of_contains rfl
  | micaGeluErf => apply execMicaGeluErf_only e <;> exact Comp.mem_of_contains rfl
  | micaGeluTanh => apply execMicaGeluTanh_only e <;> exact Comp.mem_of_contains rfl
  | micaGeluSig => apply execMicaGeluSig_only e <;> exact Comp.mem_of_contains rfl
  | micaSilu => apply execMicaSilu_only e <;> exact Comp.mem_of_contains rfl
  | smaxAcc => apply execSmaxAcc_only e <;> exact Comp.mem_of_contains rfl
  | smaxNorm => apply execSmaxNorm_only e <;> exact Comp.mem_of_contains rfl
  | smax1p => apply execSmax1p_only e <;> exact Comp.mem_of_contains rfl
  | rowscale => apply execRowscale_only e <;> exact Comp.mem_of_contains rfl
  | micaTable => apply execMicaTable_only e <;> exact Comp.mem_of_contains rfl
  | micaMprog => exact execMicaMprog_only e (Comp.mem_of_contains rfl)
  | mul => apply execMul_only e <;> exact Comp.mem_of_contains rfl
  | add => apply execAdd_only e <;> exact Comp.mem_of_contains rfl
  | fmq => apply execFmq_only e <;> exact Comp.mem_of_contains rfl
  | lut => apply execLut_only e <;> exact Comp.mem_of_contains rfl
  | csel => apply execCsel_only e <;> exact Comp.mem_of_contains rfl
  | rred => apply execRred_only e <;> exact Comp.mem_of_contains rfl
  | rscale => apply execRscale_only e <;> exact Comp.mem_of_contains rfl
  | microBarrier => exact execMicroBarrier_only e (Comp.mem_of_contains rfl)
  | barrierRelease => apply execBarrierRelease_only e <;> exact Comp.mem_of_contains rfl
  | nop => apply execNop_only e <;> exact Comp.mem_of_contains rfl
  | microEnd => exact execMicroEnd_only e (Comp.mem_of_contains rfl)
  | microOpComplete => apply execMicroOpComplete_only e <;> exact Comp.mem_of_contains rfl
  | scoreboardStall => apply execScoreboardStall_only e <;> exact Comp.mem_of_contains rfl
  | queueWaitTimeout => apply execQueueWaitTimeout_only e <;> exact Comp.mem_of_contains rfl
  | channelFrameEnd => apply execChannelFrameEnd_only e <;> exact Comp.mem_of_contains rfl
  | resultAnnounceTimeout => apply execResultAnnounceTimeout_only e <;> exact Comp.mem_of_contains rfl
  | sendStart => apply execSendStart_only e <;> exact Comp.mem_of_contains rfl
  | wideCopyTimeout => apply execWideCopyTimeout_only e <;> exact Comp.mem_of_contains rfl
  | acceptAnswer => apply execAcceptAnswer_only e <;> exact Comp.mem_of_contains rfl
  | wideReq => apply execWideReq_only e <;> exact Comp.mem_of_contains rfl
  | wideMessage => apply execWideMessage_only e <;> exact Comp.mem_of_contains rfl
  | unavailable => apply execUnavailable_only e <;> exact Comp.mem_of_contains rfl
  | tracking => apply execTracking_only e <;> exact Comp.mem_of_contains rfl
  | fixedRefresh => exact execFixedRefresh_only e (Comp.mem_of_contains rfl)
  | adaptiveRefresh channel => exact execAdaptiveRefresh_only (_channel := channel) e
  | patrolRead => apply execPatrolRead_only e <;> exact Comp.mem_of_contains rfl
  | extReinitComplete => apply execExtReinitComplete_only e <;> exact Comp.mem_of_contains rfl
  | roundStart => apply execRoundStart_only e <;> exact Comp.mem_of_contains rfl
  | slotBoundary => apply execSlotBoundary_only e <;> exact Comp.mem_of_contains rfl
  | identityChangeTimer => apply execIdentityChangeTimer_only e <;> exact Comp.mem_of_contains rfl
  | panelRefreshStart => apply execPanelRefreshStart_only e <;> exact Comp.mem_of_contains rfl
  | waveformPhaseEnd => apply execWaveformPhaseEnd_only e <;> exact Comp.mem_of_contains rfl
  | bankChargeLow => apply execBankChargeLow_only e <;> exact Comp.mem_of_contains rfl
  | bankEnergyExhausted => apply execBankEnergyExhausted_only e <;> exact Comp.mem_of_contains rfl
  | vinAuxNotLow => apply execVinAuxNotLow_only e <;> exact Comp.mem_of_contains rfl
  | vinMainNotLow => apply execVinMainNotLow_only e <;> exact Comp.mem_of_contains rfl
  | testEnLow => exact execTestEnLow_only e (Comp.mem_of_contains rfl)
  | flashReadComplete => apply execFlashReadComplete_only e <;> exact Comp.mem_of_contains rfl
  | d0ToD3hot => exact execD0ToD3hot_only e (Comp.mem_of_contains rfl)
  | pcieLinkDown => exact execPcieLinkDown_only e (Comp.mem_of_contains rfl)
  | msixFunctionMask => apply execMsixFunctionMask_only e <;> exact Comp.mem_of_contains rfl

/-- Settles O57: what a command's law lets it change is what its row names. -/
theorem frameOfEveryCommand : Obligations.FrameOfEveryCommand :=
  fun _ s _ e => (exec_only e s).2 (ChangesOnly.refl _ s)

/-! ### The form of the memories -/

theorem exec_wf {c : Instr} {s t : State} (e : exec c s = .next t) (h : Memory.wf s) : Memory.wf t := by
  cases c with
  | devIdentify => exact execDevIdentify_wf e h
  | devStatus => exact execDevStatus_wf e h
  | devSetPowerCap => exact execDevSetPowerCap_wf e h
  | devSetClockPlan => exact execDevSetClockPlan_wf e h
  | stratumCreate => exact execStratumCreate_wf e h
  | stratumDestroy => exact execStratumDestroy_wf e h
  | stratumDestroyComplete => exact execStratumDestroyComplete_wf e h
  | stratumQuery => exact execStratumQuery_wf e h
  | stratumSetArbitration => exact execStratumSetArbitration_wf e h
  | stratumSetMode => exact execStratumSetMode_wf e h
  | memAlloc => exact execMemAlloc_wf e h
  | memFree => exact execMemFree_wf e h
  | memMapExternal => exact execMemMapExternal_wf e h
  | setSize => exact execSetSize_wf e h
  | setStratum => exact execSetStratum_wf e h
  | poolQuery => exact execPoolQuery_wf e h
  | copy => exact execCopy_wf e h
  | copyFill => exact execCopyFill_wf e h
  | copyChecksum => exact execCopyChecksum_wf e h
  | copyJobStart => exact execCopyJobStart_wf e h
  | copyJobComplete => exact execCopyJobComplete_wf e h
  | deliveryJobStart => exact execDeliveryJobStart_wf e h
  | deliveryJobComplete => exact execDeliveryJobComplete_wf e h
  | portTrainTrain => exact execPortTrainTrain_wf e h
  | portTrainRetrain => exact execPortTrainRetrain_wf e h
  | portTrainDisable => exact execPortTrainDisable_wf e h
  | portStatus => exact execPortStatus_wf e h
  | portSetWidth => exact execPortSetWidth_wf e h
  | chanBind => exact execChanBind_wf e h
  | chanRoute => exact execChanRoute_wf e h
  | chanUnbind => exact execChanUnbind_wf e h
  | chanQuery => exact execChanQuery_wf e h
  | slateContextLoad => exact execSlateContextLoad_wf e h
  | slateParamSet => exact execSlateParamSet_wf e h
  | slateOutputCfg => exact execSlateOutputCfg_wf e h
  | slateSchedule => exact execSlateSchedule_wf e h
  | progLoad => exact execProgLoad_wf e h
  | packageCheck => exact execPackageCheck_wf e h
  | progUnload => exact execProgUnload_wf e h
  | progUnloadComplete => exact execProgUnloadComplete_wf e h
  | tableLoad => exact execTableLoad_wf e h
  | tableImageCheck => exact execTableImageCheck_wf e h
  | microprogLoad => exact execMicroprogLoad_wf e h
  | microprogImageCheck => exact execMicroprogImageCheck_wf e h
  | launch => exact execLaunch_wf e h
  | launchAtTick => exact execLaunchAtTick_wf e h
  | startTickReached => exact execStartTickReached_wf e h
  | barrier => exact execBarrier_wf e h
  | barrierComplete => exact execBarrierComplete_wf e h
  | frameAbort => exact execFrameAbort_wf e h
  | eventWait => exact execEventWait_wf e h
  | eventWaitComplete => exact execEventWaitComplete_wf e h
  | qlinkConfig => exact execQlinkConfig_wf e h
  | qlinkStats => exact execQlinkStats_wf e h
  | telemetryRead => exact execTelemetryRead_wf e h
  | counterConfigClear => exact execCounterConfigClear_wf e h
  | unitFence => exact execUnitFence_wf e h
  | drainEnd => exact execDrainEnd_wf e h
  | unitSelftest => exact execUnitSelftest_wf e h
  | unitSelftestComplete => exact execUnitSelftestComplete_wf e h
  | unitReturn => exact execUnitReturn_wf e h
  | clusterRemap => exact execClusterRemap_wf e h
  | clusterRemapSwitch => exact execClusterRemapSwitch_wf e h
  | faultLogRead => exact execFaultLogRead_wf e h
  | faultLogReadComplete => exact execFaultLogReadComplete_wf e h
  | nvRead => exact execNvRead_wf e h
  | nvWrite => exact execNvWrite_wf e h
  | fwStage => exact execFwStage_wf e h
  | fwCommit => exact execFwCommit_wf e h
  | calStore => exact execCalStore_wf e h
  | nvOperationStart => exact execNvOperationStart_wf e h
  | pageProgramComplete => exact execPageProgramComplete_wf e h
  | sectorEraseComplete => exact execSectorEraseComplete_wf e h
  | panelDraw => exact execPanelDraw_wf e h
  | panelStatus => exact execPanelStatus_wf e h
  | lockstepPair => exact execLockstepPair_wf e h
  | lockstepUnpair => exact execLockstepUnpair_wf e h
  | pairTimeout => exact execPairTimeout_wf e h
  | lockstepStatus => exact execLockstepStatus_wf e h
  | tickSync => exact execTickSync_wf e h
  | tickSyncTimeout => exact execTickSyncTimeout_wf e h
  | unlistedOpcode => exact execUnlistedOpcode_wf e h
  | cancelledCommand => exact execCancelledCommand_wf e h
  | planInstallComplete => exact execPlanInstallComplete_wf e h
  | hifIntCause => exact execHifIntCause_wf e h
  | hifIntMask => exact execHifIntMask_wf e h
  | hifTickLo => exact execHifTickLo_wf e h
  | queuePairEnable => exact execQueuePairEnable_wf e h
  | queuePairDisable => exact execQueuePairDisable_wf e h
  | evqEnable => exact execEvqEnable_wf e h
  | evqDisable => exact execEvqDisable_wf e h
  | doorbell => exact execDoorbell_wf e h
  | hifCqnHead => exact execHifCqnHead_wf e h
  | hifEvqHead => exact execHifEvqHead_wf e h
  | ringReadError => exact execRingReadError_wf e h
  | hifSupplyStatus => exact execHifSupplyStatus_wf e h
  | registerWrite => exact execRegisterWrite_wf e h
  | accessErr => exact execAccessErr_wf e h
  | bar2Read => exact execBar2Read_wf e h
  | bar2Write => exact execBar2Write_wf e h
  | resultRingRelease => exact execResultRingRelease_wf e h
  | perstAssert => exact execPerstAssert_wf e h
  | scrubComplete => exact execScrubComplete_wf e h
  | perstDeassert => exact execPerstDeassert_wf e h
  | linkL0 => exact execLinkL0_wf e h
  | configRequest => exact execConfigRequest_wf e h
  | flrPf => exact execFlrPf_wf e h
  | flrVf => exact execFlrVf_wf e h
  | d3hotToD0 => exact execD3hotToD0_wf e h
  | vfEnableClear => exact execVfEnableClear_wf e h
  | busMasterEnable => exact execBusMasterEnable_wf e h
  | pcieReferenceLost => exact execPcieReferenceLost_wf e h
  | inputRise => exact execInputRise_wf e h
  | vinMainLow => exact execVinMainLow_wf e h
  | vinAuxLow => exact execVinAuxLow_wf e h
  | vinMainQualified => exact execVinMainQualified_wf e h
  | switchComplete => exact execSwitchComplete_wf e h
  | sagBegin => exact execSagBegin_wf e h
  | sagEnd => exact execSagEnd_wf e h
  | vinLoss => exact execVinLoss_wf e h
  | holdupSequenceComplete => exact execHoldupSequenceComplete_wf e h
  | supplyGateOpen => exact execSupplyGateOpen_wf e h
  | supplyGatePauseTimeout => exact execSupplyGatePauseTimeout_wf e h
  | holdupFault => exact execHoldupFault_wf e h
  | supplyStatusRefresh => exact execSupplyStatusRefresh_wf e h
  | modResetN => exact execModResetN_wf e h
  | moduleReset => exact execModuleReset_wf e h
  | modResetNRise => exact execModResetNRise_wf e h
  | testEn => exact execTestEn_wf e h
  | imageBootTimeout => exact execImageBootTimeout_wf e h
  | supervisorBootEnd => exact execSupervisorBootEnd_wf e h
  | aonCheckEnd => exact execAonCheckEnd_wf e h
  | clockStartEnd => exact execClockStartEnd_wf e h
  | geodeTestEnd => exact execGeodeTestEnd_wf e h
  | clusterRoundEnd => exact execClusterRoundEnd_wf e h
  | lpddrTrainingEnd => exact execLpddrTrainingEnd_wf e h
  | mapping => exact execMapping_wf e h
  | pllOutOfLock => exact execPllOutOfLock_wf e h
  | pllRelocked => exact execPllRelocked_wf e h
  | pllRelockTimeout => exact execPllRelockTimeout_wf e h
  | poicaReferenceLost => exact execPoicaReferenceLost_wf e h
  | aonCrystalLost => exact execAonCrystalLost_wf e h
  | requestOpenTimeout => exact execRequestOpenTimeout_wf e h
  | unitFault => exact execUnitFault_wf e h
  | malformedReply => exact execMalformedReply_wf e h
  | watchdogTimeout => exact execWatchdogTimeout_wf e h
  | supervisorMemoryError => exact execSupervisorMemoryError_wf e h
  | alwaysOnParity => exact execAlwaysOnParity_wf e h
  | firmwareIntegrityFailed => exact execFirmwareIntegrityFailed_wf e h
  | spareReplacement => exact execSpareReplacement_wf e h
  | restoration => exact execRestoration_wf e h
  | sensorSample => exact execSensorSample_wf e h
  | cardSensorSample => exact execCardSensorSample_wf e h
  | stepTimer => exact execStepTimer_wf e h
  | releaseTimer => exact execReleaseTimer_wf e h
  | smbusProduct => exact execSmbusProduct_wf e h
  | smbusOrder => exact execSmbusOrder_wf e h
  | smbusSerial => exact execSmbusSerial_wf e h
  | smbusFwVersion => exact execSmbusFwVersion_wf e h
  | smbusSupplyStatus => exact execSmbusSupplyStatus_wf e h
  | smbusVinMain => exact execSmbusVinMain_wf e h
  | smbusVinAux => exact execSmbusVinAux_wf e h
  | smbusPowerState => exact execSmbusPowerState_wf e h
  | smbusTJ => exact execSmbusTJ_wf e h
  | smbusCardTemperature => exact execSmbusCardTemperature_wf e h
  | smbusState => exact execSmbusState_wf e h
  | smbusNack => exact execSmbusNack_wf e h
  | bypass => exact execBypass_wf e h
  | idcode => exact execIdcode_wf e h
  | samplePreload => exact execSamplePreload_wf e h
  | extest => exact execExtest_wf e h
  | privateDebug => exact execPrivateDebug_wf e h
  | blockLockAcquired => exact execBlockLockAcquired_wf e h
  | blockLockLost => exact execBlockLockLost_wf e h
  | laneFailure => exact execLaneFailure_wf e h
  | ts => exact execTs_wf e h
  | presetMeasureTimer => exact execPresetMeasureTimer_wf e h
  | detectTimeout => exact execDetectTimeout_wf e h
  | equalizeTimeout => exact execEqualizeTimeout_wf e h
  | alignTimeout => exact execAlignTimeout_wf e h
  | negotiateTimeout => exact execNegotiateTimeout_wf e h
  | retrainTimeout => exact execRetrainTimeout_wf e h
  | laneMark => exact execLaneMark_wf e h
  | laneMarkTransmit => exact execLaneMarkTransmit_wf e h
  | negRecord => exact execNegRecord_wf e h
  | negAccept => exact execNegAccept_wf e h
  | negRefuse => exact execNegRefuse_wf e h
  | widthChangeReq => exact execWidthChangeReq_wf e h
  | widthChangeAck => exact execWidthChangeAck_wf e h
  | widthChangeNak => exact execWidthChangeNak_wf e h
  | widthChangeSwitch => exact execWidthChangeSwitch_wf e h
  | widthChangeReqTimeout => exact execWidthChangeReqTimeout_wf e h
  | widthChangeTimeout => exact execWidthChangeTimeout_wf e h
  | idle => exact execIdle_wf e h
  | samples => exact execSamples_wf e h
  | tensor => exact execTensor_wf e h
  | digestFrame => exact execDigestFrame_wf e h
  | logReq => exact execLogReq_wf e h
  | logFrame => exact execLogFrame_wf e h
  | forward => exact execForward_wf e h
  | pairFrame => exact execPairFrame_wf e h
  | unpairFrame => exact execUnpairFrame_wf e h
  | credit => exact execCredit_wf e h
  | creditWithdraw => exact execCreditWithdraw_wf e h
  | creditRefresh => exact execCreditRefresh_wf e h
  | ack => exact execAck_wf e h
  | nak => exact execNak_wf e h
  | replayTimeout => exact execReplayTimeout_wf e h
  | frameMark => exact execFrameMark_wf e h
  | settingNotice => exact execSettingNotice_wf e h
  | forcedSwitch => exact execForcedSwitch_wf e h
  | poolStarved => exact execPoolStarved_wf e h
  | syncTime => exact execSyncTime_wf e h
  | echo => exact execEcho_wf e h
  | timeTransmit => exact execTimeTransmit_wf e h
  | echoTimeout => exact execEchoTimeout_wf e h
  | cageOvercurrent => exact execCageOvercurrent_wf e h
  | cageRetry => exact execCageRetry_wf e h
  | grant => exact execGrant_wf e h
  | zeroingComplete => exact execZeroingComplete_wf e h
  | pieceStart => exact execPieceStart_wf e h
  | pieceEnd => exact execPieceEnd_wf e h
  | dispatch => exact execDispatch_wf e h
  | microStep => exact execMicroStep_wf e h
  | drain => exact execDrain_wf e h
  | reductionTransfer => exact execReductionTransfer_wf e h
  | sload => exact execSload_wf e h
  | qsave => exact execQsave_wf e h
  | qload => exact execQload_wf e h
  | qclear => exact execQclear_wf e h
  | get => exact execGet_wf e h
  | put => exact execPut_wf e h
  | hsend => exact execHsend_wf e h
  | hrecv => exact execHrecv_wf e h
  | micaExp => exact execMicaExp_wf e h
  | micaExp2 => exact execMicaExp2_wf e h
  | micaLog2 => exact execMicaLog2_wf e h
  | micaRecip => exact execMicaRecip_wf e h
  | micaRsqrt => exact execMicaRsqrt_wf e h
  | micaTanh => exact execMicaTanh_wf e h
  | micaSigmoid => exact execMicaSigmoid_wf e h
  | micaErf => exact execMicaErf_wf e h
  | micaGeluErf => exact execMicaGeluErf_wf e h
  | micaGeluTanh => exact execMicaGeluTanh_wf e h
  | micaGeluSig => exact execMicaGeluSig_wf e h
  | micaSilu => exact execMicaSilu_wf e h
  | smaxAcc => exact execSmaxAcc_wf e h
  | smaxNorm => exact execSmaxNorm_wf e h
  | smax1p => exact execSmax1p_wf e h
  | rowscale => exact execRowscale_wf e h
  | micaTable => exact execMicaTable_wf e h
  | micaMprog => exact execMicaMprog_wf e h
  | mul => exact execMul_wf e h
  | add => exact execAdd_wf e h
  | fmq => exact execFmq_wf e h
  | lut => exact execLut_wf e h
  | csel => exact execCsel_wf e h
  | rred => exact execRred_wf e h
  | rscale => exact execRscale_wf e h
  | microBarrier => exact execMicroBarrier_wf e h
  | barrierRelease => exact execBarrierRelease_wf e h
  | nop => exact execNop_wf e h
  | microEnd => exact execMicroEnd_wf e h
  | microOpComplete => exact execMicroOpComplete_wf e h
  | scoreboardStall => exact execScoreboardStall_wf e h
  | queueWaitTimeout => exact execQueueWaitTimeout_wf e h
  | channelFrameEnd => exact execChannelFrameEnd_wf e h
  | resultAnnounceTimeout => exact execResultAnnounceTimeout_wf e h
  | sendStart => exact execSendStart_wf e h
  | wideCopyTimeout => exact execWideCopyTimeout_wf e h
  | acceptAnswer => exact execAcceptAnswer_wf e h
  | wideReq => exact execWideReq_wf e h
  | wideMessage => exact execWideMessage_wf e h
  | unavailable => exact execUnavailable_wf e h
  | tracking => exact execTracking_wf e h
  | fixedRefresh => exact execFixedRefresh_wf e h
  | adaptiveRefresh channel => exact execAdaptiveRefresh_wf (_channel := channel) e h
  | patrolRead => exact execPatrolRead_wf e h
  | extReinitComplete => exact execExtReinitComplete_wf e h
  | roundStart => exact execRoundStart_wf e h
  | slotBoundary => exact execSlotBoundary_wf e h
  | identityChangeTimer => exact execIdentityChangeTimer_wf e h
  | panelRefreshStart => exact execPanelRefreshStart_wf e h
  | waveformPhaseEnd => exact execWaveformPhaseEnd_wf e h
  | bankChargeLow => exact execBankChargeLow_wf e h
  | bankEnergyExhausted => exact execBankEnergyExhausted_wf e h
  | vinAuxNotLow => exact execVinAuxNotLow_wf e h
  | vinMainNotLow => exact execVinMainNotLow_wf e h
  | testEnLow => exact execTestEnLow_wf e h
  | flashReadComplete => exact execFlashReadComplete_wf e h
  | d0ToD3hot => exact execD0ToD3hot_wf e h
  | pcieLinkDown => exact execPcieLinkDown_wf e h
  | msixFunctionMask => exact execMsixFunctionMask_wf e h

/-- Settles O58: a step is a tick, which touches no memory, or the command at the front, whose law keeps the form. -/
theorem memoryFormKept : Obligations.MemoryFormKept := by
  intro s t h e
  unfold step at e
  split at e
  case h_1 =>
    injection e with e
    exact e ▸ (idle_wf s).2 h
  case h_2 => exact exec_wf e (upd_pending_wf.2 h)

/-- Settles O59: no byte of any memory has been written at reset. -/
theorem memoryFormAtReset : Obligations.MemoryFormAtReset :=
  ⟨rfl, rfl, fun c => by simp [State.reset, memWf, spSorted], rfl⟩

/-! ### Every command completes -/

/-- No meaning ends in a fault or a refusal. -/
theorem exec_completes (c : Instr) (s : State) : Completes (exec c s) := by
  cases c <;> exact ⟨_, rfl⟩

theorem pending_not_mem_mayChange (c : Instr) : Comp.pending ∉ mayChange c := by
  cases c <;> simp [mayChange]

/-- Settles O56: the frame of no command names the queue of waiting commands. -/
theorem everyCommandCompletes : Obligations.EveryCommandCompletes := by
  intro c s
  obtain ⟨t, ht⟩ := exec_completes c s
  exact ⟨t, ht, frameOfEveryCommand c s t ht .pending (pending_not_mem_mayChange c)⟩

end Sys2Proof.Machine
end

section
/-!
PROOFS. The queries of the module and of the buffer pool (R313 to R316, R363 to R365).
-/

namespace Sys2Proof.Machine

/-- Taking a command writes the functions alone. -/
theorem taken_eq_with_fns (s : State) (fn : FnNo) (qp : QpNo) :
    s.taken fn qp = { s with fns := (s.taken fn qp).fns } := by
  unfold State.taken
  split <;> rfl

/-- R313: no byte of the identity block comes from a function. -/
theorem taken_identityBlock (s : State) (fn : FnNo) (qp : QpNo) :
    (s.taken fn qp).identityBlock = s.identityBlock := by
  rw [taken_eq_with_fns]; rfl

theorem poolFigures_eq (p : Packet) (s : State) :
    poolFigures p s = ⟨stOk, (poolFigures p s).r0, (poolFigures p s).r1⟩ := by
  unfold poolFigures
  split <;> rfl

/-- Settles O1: two queries write a block, POOL_QUERY none, and each is answered. -/
theorem deviceQueriesAnswer : Obligations.DeviceQueriesAnswer := by
  refine ⟨fun fn qp p s h => ?identify, fun fn qp p s h => ?status, fun fn qp p s h => ?pool⟩
  case identify =>
    rw [← taken_identityBlock s fn qp]
    exact h.block_answered rfl
  case status => exact h.block_answered rfl
  case pool => exact h.result_answered (Prod.ext rfl (poolFigures_eq _ _))

end Sys2Proof.Machine
end

section
/-!
PROOFS. Doorbells and the HEAD registers (R218, R221, R222, R225, R239): a value within the ring moves one index, and a
value outside it sets ERROR and raises QUEUE_ERR.
-/

namespace Sys2Proof.Machine

/-! ### QUEUE_ERR of a queue pair and of the event queue -/

theorem qpError_qps (fn : FnNo) (qp : QpNo) (s : State) :
    (qpError fn qp s).fns[fn].qps[qp] = { s.fns[fn].qps[qp] with error := true } := by
  rw [qpError, State.raise_queueErr_qps, State.modQp_qps]

theorem qpError_intCause (fn : FnNo) (qp : QpNo) (s : State) :
    (qpError fn qp s).fns[fn].intCause = s.fns[fn].intCause ||| causeQueueErr := by
  rw [qpError, State.raise_queueErr_intCause, State.modQp_fns, vmod_get]

theorem qpError_frame (fn : FnNo) (qp : QpNo) (s : State) : ChangesOnly [.fns, .out] s (qpError fn qp s) :=
  (qpError_only fn qp s (by decide) (by decide)).2 (ChangesOnly.refl _ _)

/-- Which commands wait for their replies is not a matter of the cause bits. -/
theorem qpError_unsent (fn : FnNo) (qp : QpNo) (s : State) : (qpError fn qp s).fns[fn].unsent = s.fns[fn].unsent := by
  obtain ⟨p, hp⟩ := (s.modQp fn qp fun q => { q with error := true }).raise_queueErr_fns fn
  rw [qpError, hp, vmod_get, State.modQp_fns, vmod_get]

theorem evqError_evq (fn : FnNo) (s : State) :
    (evqError fn s).fns[fn].evq = { s.fns[fn].evq with error := true } := by
  rw [evqError, State.raise_queueErr_evq, State.modEvq_evq]

theorem evqError_intCause (fn : FnNo) (s : State) :
    (evqError fn s).fns[fn].intCause = s.fns[fn].intCause ||| causeQueueErr := by
  rw [evqError, State.raise_queueErr_intCause, State.modEvq_fns, vmod_get]

theorem evqError_frame (fn : FnNo) (s : State) : ChangesOnly [.fns, .out] s (evqError fn s) :=
  (evqError_only fn s (by decide) (by decide)).2 (ChangesOnly.refl _ _)

/-! ### Values within the ring, and outside it -/

section
variable {fn : FnNo} {qp : QpNo} {v : W32} {s : State}

/-- R239: the event queue stops at once. -/
theorem writeEvqLo_disable (hr : s.fns[fn].evq.running = true) :
    writeEvqLo fn (v &&& 0xFFFFFFFE) s = s.modEvq fn fun q => { q with enable := false, running := false } := by
  have hen : (v &&& 0xFFFFFFFE).getLsbD 0 = false := by simp
  simp only [writeEvqLo, hr, hen, Bool.false_eq_true, ↓reduceIte]

theorem writeTail_of_inside (hr : s.fns[fn].qps[qp].running = true)
    (hv : (ringValue v).toNat < ringSize s.fns[fn].qps[qp].sqLog2) :
    writeTail fn qp v s = s.modQp fn qp fun q => { q with tail := ringValue v } := by
  simp only [writeTail, hr, hv, decide_true, Bool.and_self, ↓reduceIte]

theorem writeTail_of_outside
    (h : s.fns[fn].qps[qp].running = false ∨ ringSize s.fns[fn].qps[qp].sqLog2 ≤ (ringValue v).toNat) :
    writeTail fn qp v s = qpError fn qp s := by
  refine if_neg fun hok => ?_
  simp only [Bool.and_eq_true, decide_eq_true_eq] at hok
  rcases h with hr | hv
  · exact Bool.false_ne_true (hr.symm.trans hok.1)
  · exact absurd hok.2 (Nat.not_lt.2 hv)

theorem writeCqHead_of_inside (hr : s.fns[fn].qps[qp].running = true)
    (hv : (ringValue v).toNat < ringSize s.fns[fn].qps[qp].cqLog2)
    (hn : ringSpan (ringSize s.fns[fn].qps[qp].cqLog2) s.fns[fn].qps[qp].cqHead.toNat (ringValue v).toNat ≤
      s.fns[fn].qps[qp].cqUnreleased) :
    writeCqHead fn qp v s = s.modQp fn qp fun q => { q with
      cqHead := ringValue v
      cqUnreleased := q.cqUnreleased - ringSpan (ringSize q.cqLog2) q.cqHead.toNat (ringValue v).toNat } := by
  simp only [writeCqHead, hr, hv, hn, decide_true, Bool.and_self, ↓reduceIte]
  exact State.modQp_congr rfl

theorem writeEvqHead_of_inside (hr : s.fns[fn].evq.running = true) (hh : s.fns[fn].evq.held = [])
    (hv : (ringValue v).toNat < ringSize s.fns[fn].evq.log2)
    (hn : ringSpan (ringSize s.fns[fn].evq.log2) s.fns[fn].evq.head.toNat (ringValue v).toNat ≤
      s.fns[fn].evq.unreleased) :
    writeEvqHead fn v s = s.modEvq fn fun q => { q with
      head := ringValue v
      unreleased := q.unreleased -
        ringSpan (ringSize s.fns[fn].evq.log2) s.fns[fn].evq.head.toNat (ringValue v).toNat } := by
  simp only [writeEvqHead, hr, hv, hn, decide_true, Bool.and_self, ↓reduceIte]
  exact State.flushEvq_of_held_nil (by rw [State.modEvq_evq]; exact hh)

theorem writeEvqHead_of_outside
    (h : s.fns[fn].evq.running = false ∨ ringSize s.fns[fn].evq.log2 ≤ (ringValue v).toNat) :
    writeEvqHead fn v s = evqError fn s := by
  refine if_neg fun hok => ?_
  simp only [Bool.and_eq_true, decide_eq_true_eq] at hok
  rcases h with hr | hv
  · exact Bool.false_ne_true (hr.symm.trans hok.1.1)
  · exact absurd hok.1.2 (Nat.not_lt.2 hv)

/-- R222: a queue pair which owes no answer stops as its ring cannot be read. -/
theorem ringError_of_running (hr : s.fns[fn].qps[qp].running = true) (hre : s.fns[fn].qps[qp].reenable = false)
    (ho : s.fns[fn].owes qp = false) :
    ringError fn qp s = (qpError fn qp s).modQp fn qp fun q => { q with running := false, stopping := false } := by
  have howes : ((qpError fn qp s).modQp fn qp fun q => { q with stopping := true }).fns[fn].owes qp = false := by
    rw [State.modQp_owes rfl rfl, ← ho]
    unfold Func.owes Func.replyWaits
    rw [qpError_unsent, qpError_qps]
  rw [ringError, if_pos hr, settleQueue_of_not_reenable (by rw [State.modQp_qps])
    (by rw [State.modQp_qps, qpError_qps]; exact hre), howes, State.modQp_modQp]
  exact State.modQp_congr (by rw [Bool.and_false])

end

/-! ### The obligation -/

/-- Settles O8: each write moves one index or is a queue error. -/
theorem doorbellsAndHeads : Obligations.DoorbellsAndHeads := by
  refine ⟨fun fn v s h hr => ?disable, fun fn qp v s h hr hv => ?tail, fun fn qp v s h hv => ?tailError,
    fun fn qp v s h hr hv hn => ?cqHead, fun fn v s h hr hh hv hn => ?evqHead, fun fn v s h hv => ?evqHeadError,
    fun fn qp s hr hh ha hre hw => ?ringError⟩
  case disable =>
    exact congrArg Host.Outcome.next ((hostAccess_of_barOpen h _).trans (writeEvqLo_disable hr))
  case tail =>
    exact congrArg Host.Outcome.next ((hostAccess_of_barOpen h _).trans (writeTail_of_inside hr hv))
  case tailError =>
    exact ⟨_, congrArg Host.Outcome.next ((hostAccess_of_barOpen h _).trans (writeTail_of_outside hv)),
      qpError_qps fn qp s, qpError_intCause fn qp s, qpError_frame fn qp s⟩
  case cqHead =>
    exact congrArg Host.Outcome.next ((hostAccess_of_barOpen h _).trans (writeCqHead_of_inside hr hv hn))
  case evqHead =>
    exact ⟨_, congrArg Host.Outcome.next ((hostAccess_of_barOpen h _).trans (writeEvqHead_of_inside hr hh hv hn)),
      State.modEvq_evq _ _ _, (modEvq_only _ _ _ (by decide)).2 (ChangesOnly.refl _ _)⟩
  case evqHeadError =>
    exact ⟨_, congrArg Host.Outcome.next ((hostAccess_of_barOpen h _).trans (writeEvqHead_of_outside hv)),
      evqError_evq fn s, evqError_intCause fn s, evqError_frame fn s⟩
  case ringError =>
    have howes : s.fns[fn].owes qp = false := by simp only [Func.owes, hh, ha, hw, Option.isSome_none, Bool.or_self]
    refine ⟨_, congrArg Host.Outcome.next (ringError_of_running hr hre howes), ?_, ?_,
      (modQp_only _ _ _ _ (by decide)).2 (qpError_frame fn qp s)⟩
    · rw [State.modQp_qps, qpError_qps]
    · rw [State.modQp_fns, vmod_get]
      exact qpError_intCause fn qp s

end Sys2Proof.Machine
end

section
/-!
PROOFS. Accesses to BAR0 (R12, R18, R19, R83, R196, R209) and the messages which masks held back (R244).
-/

namespace Sys2Proof.Machine

/-! ### Cause bits of a function -/

/-- R240: the bits which the function has become 1, and nothing of the function but its pending bits follows. -/
theorem State.raise_fns (s : State) (fn : FnNo) (bits : BitVec 12) :
    ∃ p, (s.raise fn bits).fns =
      vmod s.fns fn fun g => { g with intCause := g.intCause ||| (bits &&& causeValid fn), pba := p } := by
  obtain ⟨p, hp⟩ := s.setCause_fns fn (s.fns[fn].intCause ||| (bits &&& causeValid fn)) s.fns[fn].intMask
  exact ⟨p, hp.trans (vmod_congr rfl)⟩

theorem State.raise_intCause {s : State} {fn : FnNo} {bits : BitVec 12} (h : bits &&& causeValid fn = bits) :
    (s.raise fn bits).fns[fn].intCause = s.fns[fn].intCause ||| bits := by
  obtain ⟨p, hp⟩ := s.raise_fns fn bits
  rw [hp, vmod_get, h]

/-- R240: ACCESS_ERR is a bit of every function. -/
theorem causeAccessErr_valid (fn : FnNo) : causeAccessErr &&& causeValid fn = causeAccessErr := by
  unfold causeValid; split <;> rfl

theorem State.raise_frame (s : State) (fn : FnNo) (bits : BitVec 12) : ChangesOnly [.fns, .out] s (s.raise fn bits) :=
  (raise_only s fn bits (by decide) (by decide)).2 (ChangesOnly.refl _ _)

theorem State.raise_out_mem {s : State} {e : Emit} (h : e ∈ s.out) (fn : FnNo) (bits : BitVec 12) :
    e ∈ (s.raise fn bits).out := by
  obtain ⟨l, hl⟩ := (raise_grows s fn bits).out
  rw [hl]
  exact List.mem_append_left _ h

theorem State.emit_frame (s : State) (e : Emit) : ChangesOnly [.out] s (s.emit e) :=
  (emit_only s e (by decide)).2 (ChangesOnly.refl _ _)

theorem State.mem_emit_out {s : State} (h : s.boot.linkL0 = true) (e : Emit) : e ∈ (s.emit e).out := by
  rw [emit_out_of_link h]
  exact List.mem_append_right _ (List.mem_singleton_self e)

/-! ### Accepted and refused accesses -/

theorem bar0Legal_4 {off : Nat} (h : off % 4 = 0) : bar0Legal off 4 = true := by simp [bar0Legal, h]

/-- R195: the first register of a queue pair's block. -/
theorem qpRegister_base (qp : QpNo) : qpRegister (0x40 + 0x20 * qp.val) = some (qp, 0) := by
  revert qp; decide

/-- R209: HIF_SQn_BASE_LO, which a running queue pair ignores. -/
theorem bar0Write_sqBaseLo (fn : FnNo) (qp : QpNo) (v : W32) (s : State) :
    bar0Write fn (0x40 + 0x20 * qp.val) v s =
      if s.fns[fn].qps[qp].running then s else s.modQp fn qp fun q => { q with
        sqBase := (q.sqBase &&& 0xFFFFFFFF00000000#64) ||| (v &&& 0xFFFFF000).setWidth 64 } := by
  have hqp := qp.isLt
  have h10 : 0x40 + 0x20 * qp.val ≠ 0x10 := by omega
  have h14 : 0x40 + 0x20 * qp.val ≠ 0x14 := by omega
  have h20 : 0x40 + 0x20 * qp.val ≠ 0x20 := by omega
  have h24 : 0x40 + 0x20 * qp.val ≠ 0x24 := by omega
  have h28 : 0x40 + 0x20 * qp.val ≠ 0x28 := by omega
  have h100 : ¬ (0x40 + 0x20 * qp.val = 0x100 ∧ fn.val = 0) := by omega
  have hmsix : ¬ (0x8000 ≤ 0x40 + 0x20 * qp.val ∧ 0x40 + 0x20 * qp.val < 0x8400) := by omega
  rw [bar0Write, if_neg h10, if_neg h14, if_neg h20, if_neg h24, if_neg h28, if_neg h100, if_neg hmsix,
    qpRegister_base]
  rfl

theorem refuseAccess_frame (fn : FnNo) (write : Bool) (s : State) :
    ChangesOnly [.fns, .out] s (refuseAccess fn write s) :=
  (refuseAccess_only fn write s (by decide) (by decide)).2 (ChangesOnly.refl _ _)

theorem refuseAccess_intCause (fn : FnNo) (write : Bool) (s : State) :
    (refuseAccess fn write s).fns[fn].intCause = s.fns[fn].intCause ||| causeAccessErr := by
  rw [refuseAccess, State.raise_intCause (causeAccessErr_valid fn)]
  cases write with
  | true => rfl
  | false => rw [if_neg Bool.false_ne_true, State.emit_fns]

theorem refuseAccess_read_out {s : State} (h : s.boot.linkL0 = true) (fn : FnNo) :
    Emit.readData fn 0 ∈ (refuseAccess fn false s).out :=
  State.raise_out_mem (State.mem_emit_out h _) _ _

theorem exec_accessErr_of_barOpen {fn : FnNo} {s : State} (h : s.barOpen fn = true) (write : Bool) (off : BitVec 16)
    (n : Nat) : exec (.accessErr fn write off n) s =
      .next (if !bar0Legal off.toNat n then refuseAccess fn write s
        else if write then s else bar0Read fn off.toNat n s) :=
  congrArg Host.Outcome.next (hostAccess_of_barOpen h _)

/-! ### What the pending bit array holds is sent -/

/-- R244: a vector's message is sent once it is pending and nothing masks it. -/
def State.releaseVector (fn : FnNo) (v : Fin 64) (t : State) : State :=
  if t.fns[fn].pba.getLsbD v.val && t.fns[fn].busMaster && !t.fns[fn].functionMask && !t.fns[fn].msix[v].masked then
    (t.modFn fn fun g => { g with pba := g.pba &&& ~~~(1#64 <<< v.val) }).emit
      (.msix fn v.val t.fns[fn].msix[v].addr t.fns[fn].msix[v].data)
  else t

theorem State.releaseMsix_eq (s : State) (fn : FnNo) :
    s.releaseMsix fn = s.forEach (List.finRange 64) (releaseVector fn) := rfl

/-- A release clears pending bits and changes nothing else of the functions. -/
theorem State.releaseVector_fns (fn : FnNo) (v : Fin 64) (t : State) :
    ∃ m : BitVec 64, (releaseVector fn v t).fns = (vmod t.fns fn fun g => { g with pba := g.pba &&& m }) ∧
      ∀ w : Fin 64, w ≠ v → m.getLsbD w.val = true := by
  unfold releaseVector
  split
  · refine ⟨~~~(1#64 <<< v.val), by rw [emit_fns, modFn_fns], fun w hw => ?_⟩
    have hval : w.val ≠ v.val := fun h => hw (Fin.ext h)
    simp only [BitVec.getLsbD_not, BitVec.getLsbD_shiftLeft, BitVec.getLsbD_one, w.isLt, decide_true, Bool.true_and,
      Bool.not_eq_true', Bool.and_eq_false_imp, Bool.not_eq_true', decide_eq_false_iff_not]
    omega
  · exact ⟨BitVec.allOnes 64, (vmod_eq_self (by rw [BitVec.and_allOnes])).symm, fun w _ => by simp [-BitVec.reduceAllOnes, w.isLt]⟩

theorem State.releaseVector_pba_false {fn : FnNo} {v w : Fin 64} {t : State}
    (h : t.fns[fn].pba.getLsbD w.val = false) : (releaseVector fn v t).fns[fn].pba.getLsbD w.val = false := by
  obtain ⟨m, hm, -⟩ := releaseVector_fns fn v t
  rw [hm, vmod_get, BitVec.getLsbD_and, h, Bool.false_and]

theorem State.forEach_releaseVector_pba_false {fn : FnNo} {w : Fin 64} (l : List (Fin 64)) {t : State}
    (h : t.fns[fn].pba.getLsbD w.val = false) :
    (t.forEach l (releaseVector fn)).fns[fn].pba.getLsbD w.val = false := by
  induction l generalizing t with
  | nil => exact h
  | cons v l ih => exact ih (releaseVector_pba_false h)

/-- R244: a pending message which nothing masks. -/
def State.pendingMsix (s : State) (fn : FnNo) (v : Fin 64) : Prop := s.fns[fn].pba.getLsbD v.val = true ∧ s.msixOpen fn v

theorem State.releaseVector_of_pending {s : State} {fn : FnNo} {v : Fin 64} (h : s.pendingMsix fn v) :
    releaseVector fn v s = (s.modFn fn fun g => { g with pba := g.pba &&& ~~~(1#64 <<< v.val) }).emit
      (.msix fn v.val s.fns[fn].msix[v].addr s.fns[fn].msix[v].data) := by
  obtain ⟨hpending, -, hbus, hmask, hentry⟩ := h
  exact if_pos (by rw [hpending, hbus, hmask, hentry]; rfl)

theorem State.releaseVector_pba_same {s : State} {fn : FnNo} {v : Fin 64} (h : s.pendingMsix fn v) :
    (releaseVector fn v s).fns[fn].pba.getLsbD v.val = false := by
  rw [releaseVector_of_pending h, emit_fns, modFn_fns, vmod_get]
  simp

/-- The release of another vector keeps a message pending, with its address and data. -/
theorem State.releaseVector_keeps_pending {s : State} {fn : FnNo} {v w : Fin 64} (h : s.pendingMsix fn v)
    (hw : v ≠ w) : (releaseVector fn w s).pendingMsix fn v ∧
      (releaseVector fn w s).fns[fn].msix = s.fns[fn].msix := by
  obtain ⟨hpending, hlink, hopen⟩ := h
  have hboot : (releaseVector fn w s).boot = s.boot := by
    unfold releaseVector
    split
    · exact emit_boot _ _
    · rfl
  obtain ⟨m, hm, hother⟩ := releaseVector_fns fn w s
  rw [pendingMsix, msixOpen, hboot, hm, vmod_get, BitVec.getLsbD_and, hpending, hother v hw]
  exact ⟨⟨rfl, hlink, hopen⟩, rfl⟩

theorem State.releaseVector_grows (fn : FnNo) (v : Fin 64) (t : State) : Grows t (releaseVector fn v t) := by
  unfold releaseVector
  split
  · refine Grows.trans ?_ (emit_grows _ _)
    exact modFn_grows _ _ _ fun _ => ⟨rfl, rfl⟩
  · exact Grows.refl t

theorem State.forEach_releaseVector_sends {s : State} {fn : FnNo} {v : Fin 64} (h : s.pendingMsix fn v)
    {l : List (Fin 64)} (hv : v ∈ l) :
    Emit.msix fn v.val s.fns[fn].msix[v].addr s.fns[fn].msix[v].data ∈ (s.forEach l (releaseVector fn)).out ∧
      (s.forEach l (releaseVector fn)).fns[fn].pba.getLsbD v.val = false := by
  induction l generalizing s with
  | nil => cases hv
  | cons w l ih =>
    rw [forEach, List.foldl_cons, ← forEach]
    by_cases hw : v = w
    · subst hw
      obtain ⟨sent, hsent⟩ := (forEach_grows (releaseVector_grows fn) l (releaseVector fn v s)).out
      refine ⟨?_, forEach_releaseVector_pba_false l (releaseVector_pba_same h)⟩
      rw [hsent, releaseVector_of_pending h]
      exact List.mem_append_left _ (mem_emit_out (by exact h.2.1) _)
    · obtain ⟨hstill, hmsix⟩ := releaseVector_keeps_pending h hw
      rw [← hmsix]
      exact ih hstill ((List.mem_cons.1 hv).resolve_left hw)

/-- Without a pending message nothing is sent. -/
theorem State.forEach_releaseVector_of_pba_zero {s : State} {fn : FnNo} (h : s.fns[fn].pba = 0) (l : List (Fin 64)) :
    s.forEach l (releaseVector fn) = s := by
  induction l with
  | nil => rfl
  | cons v l ih =>
    have hnone : releaseVector fn v s = s := if_neg (by rw [h]; simp)
    rw [forEach, List.foldl_cons, hnone]
    exact ih

/-! ### The obligation -/

/-- Settles O9: an access is one `bar0Write` or `bar0Read`, or is refused; a mask which goes releases what is pending. -/
theorem registerAccess : Obligations.RegisterAccess := by
  refine ⟨fun fn off v s h hoff => ?narrow, fun fn off v s h hlegal => ?wide, fun fn qp v s hr => ?sqBase,
    fun fn qp v s hr => ?sqBaseRunning, fun fn write off n s h hlegal => ?refused, fun fn off n s h hlegal hoff => ?read,
    fun v s h hv => ?supply, fun fn mask s hp => ?unheld, fun fn s v hp hb hm hl => ?released⟩
  case narrow =>
    refine congrArg Host.Outcome.next ((hostAccess_of_barOpen h _).trans ?_)
    simp only [Bool.false_eq_true, ↓reduceIte, bar0Legal_4 hoff]
  case wide =>
    refine congrArg Host.Outcome.next ((hostAccess_of_barOpen h _).trans ?_)
    simp only [↓reduceIte, hlegal]
  case sqBase => rw [bar0Write_sqBaseLo, hr, if_neg Bool.false_ne_true]
  case sqBaseRunning => rw [bar0Write_sqBaseLo, if_pos hr]
  case refused =>
    refine ⟨_, exec_accessErr_of_barOpen h write off n, ?_⟩
    rw [hlegal, Bool.not_false, if_pos rfl]
    exact ⟨refuseAccess_intCause fn write s, fun hw => hw ▸ refuseAccess_read_out (linkL0_of_barOpen h) fn,
      refuseAccess_frame fn write s⟩
  case read =>
    rw [exec_accessErr_of_barOpen h, hlegal, Bool.not_true, if_neg Bool.false_ne_true, if_neg Bool.false_ne_true,
      bar0Read, if_neg hoff]
  case supply =>
    exact congrArg Host.Outcome.next ((hostAccess_of_barOpen h _).trans (if_pos hv))
  case unheld =>
    refine congrArg Host.Outcome.next ?_
    rw [State.releaseMsix_eq]
    exact State.forEach_releaseVector_of_pba_zero (by rw [State.modFn_fns, vmod_get]; exact hp) _
  case released =>
    have hpending : (s.modFn fn fun f => { f with functionMask := false }).pendingMsix fn v := by
      rw [State.pendingMsix, State.msixOpen, State.modFn_fns, vmod_get]
      exact ⟨hp, hl, hb, rfl, hm⟩
    obtain ⟨hsent, hcleared⟩ := State.forEach_releaseVector_sends hpending (List.mem_finRange v)
    rw [State.modFn_fns, vmod_get] at hsent
    exact ⟨_, rfl, hsent, hcleared, (releaseMsix_only _ _ (by decide) (by decide)).2
      ((modFn_only _ _ _ (by decide)).2 (ChangesOnly.refl _ _))⟩

end Sys2Proof.Machine
end

section
/-!
PROOFS. Accesses to BAR2 (R249, R252 to R255): one which its slot does not serve waits, one of a stratum which does not
exist is refused, and the rest read or write the view.
-/

namespace Sys2Proof.Machine

/-- R759: a read without errors finds nothing. -/
theorem State.foundAt_clean (s : State) (n : FnNo) (a : Nat) : s.foundAt n a .clean = s := by
  cases h : s.locate n a with
  | ext off gen key =>
    simp only [foundAt, h]
    split
    · rfl
    · split <;> rfl
  | geode | scratch | lost | none => simp only [foundAt, h, ite_self]

theorem State.readLost_clean (s : State) (n : FnNo) (a : Nat) : s.readLost n a .clean = false := by
  unfold readLost
  split
  next h => cases h
  next => rfl

section
variable {fn : FnNo} {o : Nat} {s : State}

/-- R252: a read without errors of bytes which the view serves. -/
theorem bar2Read_of_served (hmine : s.bar2Stratum fn = true) {n : Nat} {b : List Byte}
    (hb : s.bar2Bytes fn (s.bar2Addrs fn o n) = some b) : bar2Read fn o n .clean s = s.emit (.bar2Data fn b) := by
  cases has : s.bar2Addrs fn o n with
  | nil =>
    rw [has] at hb
    simp only [bar2Read, has, hmine, hb, Bool.not_false, Bool.and_self, ↓reduceIte]
  | cons a as =>
    rw [has] at hb
    simp only [bar2Read, has, hmine, hb, State.foundAt_clean, State.readLost_clean, Bool.not_false, Bool.and_self,
      ↓reduceIte]

/-- R255: a read for a stratum which does not exist returns zeros. -/
theorem bar2Read_of_no_stratum (h : s.bar2Stratum fn = false) (n : Nat) (found : Ecc) :
    bar2Read fn o n found s = (s.emit (.bar2Data fn (List.replicate n 0))).raise fn causeAccessErr := by
  cases has : s.bar2Addrs fn o n <;> simp only [bar2Read, has, h, Bool.false_and, Bool.false_eq_true, ↓reduceIte]

theorem bar2Write_of_served (hmine : s.bar2Stratum fn = true) {b : List Byte} {t : State}
    (hw : s.viewWrite fn ((s.bar2Addrs fn o b.length).zip b) = (t, none)) : bar2Write fn o b s = t := by
  simp only [bar2Write, hmine, hw, ↓reduceIte]

theorem bar2Write_of_no_stratum (h : s.bar2Stratum fn = false) (b : List Byte) :
    bar2Write fn o b s = s.raise fn causeAccessErr := by
  simp only [bar2Write, h, Bool.false_eq_true, ↓reduceIte]

/-- R254: what the slot of the moment serves. -/
theorem State.bar2Slot_of_serves (h : s.slotServes fn = true) : s.bar2Slot fn = true := by
  rw [State.bar2Slot, h, Bool.or_true]

theorem State.bar2Slot_of_no_stratum (h : s.bar2Stratum fn = false) : s.bar2Slot fn = true := by
  rw [State.bar2Slot, h]; rfl

theorem exec_bar2Read_of_slot (h : s.barOpen fn = true) (hslot : s.bar2Slot fn = true) (off : W32) (n : Nat)
    (found : Ecc) : exec (.bar2Read fn off n found) s = .next (bar2Read fn off.toNat n found s) :=
  congrArg Host.Outcome.next ((hostAccess_of_barOpen h _).trans (if_pos hslot))

theorem exec_bar2Write_of_slot (h : s.barOpen fn = true) (hslot : s.bar2Slot fn = true) (off : W32) (b : List Byte) :
    exec (.bar2Write fn off b) s = .next (bar2Write fn off.toNat b s) :=
  congrArg Host.Outcome.next ((hostAccess_of_barOpen h _).trans (if_pos hslot))

end

/-- Settles O10: the slot decides whether the access is made, the stratum whether it is refused. -/
theorem apertureAccess : Obligations.ApertureAccess := by
  refine ⟨fun fn off n b s h hmine hslot hb => ?read, fun fn off n found b s h hmine hslot => ?waits,
    fun fn off n found s h hmine => ?readRefused, fun fn off b s t h hmine hslot hw => ?write,
    fun fn off b s h hmine => ?writeRefused⟩
  case read =>
    refine ⟨_, exec_bar2Read_of_slot h (State.bar2Slot_of_serves hslot) off n .clean, ?_⟩
    rw [bar2Read_of_served hmine hb]
    exact ⟨State.emit_out_of_link (linkL0_of_barOpen h) _, State.emit_frame _ _⟩
  case waits =>
    have hclosed : ¬ s.bar2Slot fn = true := by rw [State.bar2Slot, hmine, hslot]; decide
    exact ⟨congrArg Host.Outcome.next ((hostAccess_of_barOpen h _).trans (if_neg hclosed)),
      congrArg Host.Outcome.next ((hostAccess_of_barOpen h _).trans (if_neg hclosed))⟩
  case readRefused =>
    refine ⟨_, exec_bar2Read_of_slot h (State.bar2Slot_of_no_stratum hmine) off n found, ?_⟩
    rw [bar2Read_of_no_stratum hmine, State.raise_intCause (causeAccessErr_valid fn), State.emit_fns]
    exact ⟨State.raise_out_mem (State.mem_emit_out (linkL0_of_barOpen h) _) _ _, rfl,
      (raise_only _ _ _ (by decide) (by decide)).2 ((State.emit_frame _ _).mono (by simp))⟩
  case write =>
    rw [exec_bar2Write_of_slot h (State.bar2Slot_of_serves hslot), bar2Write_of_served hmine hw]
  case writeRefused =>
    refine ⟨_, exec_bar2Write_of_slot h (State.bar2Slot_of_no_stratum hmine) off b, ?_⟩
    rw [bar2Write_of_no_stratum hmine]
    exact ⟨State.raise_intCause (causeAccessErr_valid fn), State.raise_frame _ _ _⟩

end Sys2Proof.Machine
end

section
/-!
PROOFS. The test port, the supply of the Poica cages and the SMBus view (R477 to R479, R1104, R1105, R1121 to R1128).
-/

namespace Sys2Proof.Machine

/-! ### Outputs and instants -/

/-- What does not travel over the PCIe link always reaches the log. -/
theorem State.emit_of_not_overPcie {e : Emit} (h : e.overPcie = false) (s : State) :
    s.emit e = { s with out := s.out ++ [e] } := by
  rw [emit, h, Bool.false_and, if_neg Bool.false_ne_true]

/-- An instant which is waited for has come. -/
theorem State.le_reach_tick (s : State) (due : Tick) : due ≤ (s.reach due).tick := by
  unfold reach
  split
  · exact BitVec.le_refl due
  · next h => exact BitVec.not_lt.1 h

/-- R109: the tick never decreases. -/
theorem State.tick_le_reach_tick (s : State) (due : Tick) : s.tick ≤ (s.reach due).tick := by
  unfold reach
  split
  · next h => exact BitVec.le_of_lt h
  · exact BitVec.le_refl _

theorem State.reach_frame (s : State) (due : Tick) : ChangesOnly [.tick] s (s.reach due) :=
  (reach_only s due (by decide)).2 (ChangesOnly.refl _ _)

/-! ### The test port -/

theorem State.jtagLoad_of_answers {s : State} (h : s.jtagAnswers = true) (code act : BitVec 8) (v : Option W32) :
    s.jtagLoad code act v = { s with jtag := code, out := s.out ++ [.jtag act v] } := by
  rw [jtagLoad, if_pos h]
  exact emit_of_not_overPcie rfl _

theorem State.jtagLoad_of_silent {s : State} (h : ¬ s.jtagAnswers = true) (code act : BitVec 8) (v : Option W32) :
    s.jtagLoad code act v = s := if_neg h

/-- R1127. -/
theorem State.not_jtagAnswers {s : State} (hs : s.sup.power ≠ .standby) (ha : s.sup.power ≠ .active) :
    ¬ s.jtagAnswers = true := by
  simp [State.jtagAnswers, hs, ha]

/-- R477: the debug codes are those of one row of sixteen. -/
theorem jtagPrivate_of_range {code : BitVec 8} (hl : 0x80 ≤ code.toNat) (hu : code.toNat < 0x90) :
    jtagPrivate code = true := by
  refine beq_iff_eq.2 (BitVec.eq_of_toNat_eq ?_)
  rw [BitVec.extractLsb'_toNat, Nat.shiftRight_eq_div_pow]
  change code.toNat / 2 ^ 4 % 2 ^ 4 = 8
  omega

theorem State.mem_sealedStrata {s : State} {n : FnNo} :
    n ∈ s.sealedStrata ↔ (s.strata[n].live = true ∨ s.strata[n].destroying = true) ∧ s.strata[n].sealed = true := by
  simp [sealedStrata]

theorem State.sealedStrata_isEmpty {s : State}
    (h : ∀ n : FnNo, s.strata[n].sealed = true → s.strata[n].live = false ∧ s.strata[n].destroying = false) :
    s.sealedStrata.isEmpty = true := by
  refine List.isEmpty_iff.2 (List.eq_nil_iff_forall_not_mem.2 fun n hn => ?_)
  obtain ⟨hexists, hsealed⟩ := mem_sealedStrata.1 hn
  obtain ⟨hlive, hdestroying⟩ := h n hsealed
  rcases hexists with hx | hx
  · exact Bool.false_ne_true (hlive.symm.trans hx)
  · exact Bool.false_ne_true (hdestroying.symm.trans hx)

/-- R477: a debug instruction which no sealed stratum forbids. -/
theorem exec_privateDebug_of_unsealed {s : State} {code : BitVec 8} (ha : s.jtagAnswers = true)
    (hc : jtagPrivate code = true) (hs : s.sealedStrata.isEmpty = true) (trace : Bool) :
    exec (.privateDebug ⟨code, trace⟩) s = .next { s with jtag := code, out := s.out ++ [.jtag code none] } := by
  refine congrArg Host.Outcome.next ?_
  simp only [hc, ha, hs, Bool.not_true, Bool.or_self, Bool.false_eq_true, ↓reduceIte]
  exact State.jtagLoad_of_answers ha _ _ _

/-- R479, R513: a debug instruction is refused while a sealed stratum exists. -/
theorem exec_privateDebug_of_sealed {s : State} {code : BitVec 8} (ha : s.jtagAnswers = true)
    (hc : jtagPrivate code = true) (hs : s.sealedStrata.isEmpty = false) (trace : Bool) :
    exec (.privateDebug ⟨code, trace⟩) s =
      .next (({ s with jtag := code, out := s.out ++ [.jtag 0xFF (some 0)] } : State).occurAll (0 :: s.sealedStrata)
        0x1004 (if trace then 2 else 1) 0) := by
  refine congrArg Host.Outcome.next ?_
  simp only [hc, ha, hs, Bool.not_true, Bool.or_self, Bool.false_eq_true, ↓reduceIte]
  rw [State.debugRefused, bypassAs, State.jtagLoad_of_answers ha]
  rfl

theorem State.occurAll_frame (s : State) (l : List FnNo) (e : W16) (a b : W64) :
    ChangesOnly [.fns, .out, .waits] s (s.occurAll l e a b) :=
  (occurAll_only s l e a b (by decide) (by decide) (by decide)).2 (ChangesOnly.refl _ _)

/-! ### Cages -/

theorem State.setCage_ports (s : State) (c : Fin 4) (v : Option Tick) (p : PortNo) :
    (s.setCage c v).ports[p] = if p.val / 2 = c.val then { s.ports[p] with cageOff := v } else s.ports[p] := by
  have hc := c.isLt
  simp only [setCage, cagePorts, forEach, List.foldl_cons, List.foldl_nil, modPort_ports]
  by_cases h0 : p = ⟨2 * c.val, by omega⟩
  · subst h0
    rw [vmod_get_ne _ _ (fun h => by have := congrArg Fin.val h; simp at this), vmod_get, if_pos (by simp)]
  · by_cases h1 : p = ⟨2 * c.val + 1, by omega⟩
    · subst h1
      rw [vmod_get, vmod_get_ne _ _ (Ne.symm h0), if_pos (by simp only; omega)]
    · have hdiv : p.val / 2 ≠ c.val := by
        have h0' : p.val ≠ 2 * c.val := fun h => h0 (Fin.ext h)
        have h1' : p.val ≠ 2 * c.val + 1 := fun h => h1 (Fin.ext h)
        omega
      rw [vmod_get_ne _ _ (Ne.symm h1), vmod_get_ne _ _ (Ne.symm h0), if_neg hdiv]

theorem State.setCage_frame (s : State) (c : Fin 4) (v : Option Tick) : ChangesOnly [.ports] s (s.setCage c v) :=
  (setCage_only s c v (by decide)).2 (ChangesOnly.refl _ _)

theorem cageTrips_of_on {s : State} {c : Fin 4} (ha : s.sup.power = .active) (hc : s.cageOff c = none) :
    cageTrips c s = s.setCage c (some s.tick) := by
  simp only [cageTrips, ha, hc, beq_self_eq_true, Option.isNone_none, Bool.and_self, ↓reduceIte]

theorem cageRetries_of_off {s : State} {c : Fin 4} {since : Tick} (ha : s.sup.power = .active)
    (hc : s.cageOff c = some since) : cageRetries c s = (s.reach (since + oneSecond)).setCage c none := by
  simp only [cageRetries, ha, hc, beq_self_eq_true, ↓reduceIte]

/-! ### The SMBus view -/

theorem State.smbus_of_supplied {s : State} (h : s.supplied = true) (data : Option (List Byte)) :
    s.smbus data = { s with out := s.out ++ [.smbus data] } := by
  rw [smbus, if_pos h]
  exact emit_of_not_overPcie rfl _

theorem State.smbus_of_unsupplied {s : State} (h : s.supplied = false) (data : Option (List Byte)) :
    s.smbus data = s := if_neg (by rw [h]; exact Bool.false_ne_true)

theorem leBytes_one (v : Nat) : leBytes 1 v = [BitVec.ofNat 8 v] := by simp [leBytes]

theorem exec_smbusNack_of_fault {code proto : BitVec 8} {write : Bool} {s : State} (h : s.supplied = true)
    (hf : write = true ∨ smbusProtocol code ≠ some proto) :
    exec (.smbusNack code write proto) s = .next { s with out := s.out ++ [.smbus none] } := by
  rw [← State.smbus_of_supplied h]
  exact congrArg Host.Outcome.next (if_pos (by simpa using hf))

/-- R1105: each listed command code answers its bytes. -/
theorem exec_smbus_reads {s : State} (h : s.supplied = true) :
    exec .smbusProduct s = .next { s with out := s.out ++ [.smbus (some [0x20, 0x48])] } ∧
    exec .smbusOrder s = .next { s with out := s.out ++ [.smbus (some [if s.order32 then 0x32 else 0x16])] } ∧
    exec .smbusSerial s = .next { s with out := s.out ++ [.smbus (some serialBytes)] } ∧
    exec .smbusFwVersion s = .next { s with out := s.out ++ [.smbus (some (leBytes 4
      (if s.boot.phase = 1 ∨ s.boot.phase = 0xA then 0 else s.fwVersion)))] } ∧
    exec .smbusSupplyStatus s = .next { s with out := s.out ++ [.smbus (some (leBytes 4 s.supplyStatus.toNat))] } ∧
    exec .smbusVinMain s = .next { s with out := s.out ++ [.smbus (some (leBytes 2 s.sup.vinMain))] } ∧
    exec .smbusVinAux s = .next { s with out := s.out ++ [.smbus (some (leBytes 2 s.sup.vinAux))] } ∧
    exec .smbusPowerState s = .next { s with out := s.out ++ [.smbus (some [if s.sup.power = .active then 2 else 1])] } ∧
    exec .smbusTJ s = .next { s with out := s.out ++ [.smbus (some (leBytes 2
      (if s.sup.power = .active then s.thermal.tj.toNat else 0x8000)))] } ∧
    exec .smbusCardTemperature s = .next { s with out := s.out ++ [.smbus (some (leBytes 2
      s.thermal.readings[(82 : Fin 83)].toNat))] } ∧
    exec .smbusState s = .next { s with out := s.out ++ [.smbus (some [BitVec.ofNat 8
      (s.thermal.stateBits + if s.boot.fatal then 8 else 0)])] } := by
  have hone : ∀ (c : Prop) [Decidable c] (a b : Nat),
      leBytes 1 (if c then a else b) = [if c then BitVec.ofNat 8 a else BitVec.ofNat 8 b] := fun c _ a b => by
    rw [leBytes_one, apply_ite (BitVec.ofNat 8)]
  simp only [← State.smbus_of_supplied h]
  refine ⟨rfl, ?order, rfl, rfl, rfl, rfl, rfl, ?power, rfl, rfl, ?state⟩
  case order => exact congrArg (fun b => Host.Outcome.next (s.smbus (some b))) (hone _ _ _)
  case power => exact congrArg (fun b => Host.Outcome.next (s.smbus (some b))) (hone _ _ _)
  case state => exact congrArg (fun b => Host.Outcome.next (s.smbus (some b))) (leBytes_one _)

/-! ### The obligation -/

/-- Settles O11: each interface answers with one output, or not at all. -/
theorem boardInterfaces : Obligations.BoardInterfaces := by
  refine ⟨fun code s ha hc => ?bypass, fun s ha => ?idcode, fun s ha => ?sample, fun s ha => ?extest,
    fun code trace s ha hl hu hs => ?allowed, fun code trace n s ha hl hu hsealed hexists => ?refused,
    fun c s hc hs ha => ?silent, fun c s ha hc => ?trips, fun c s since ha hc => ?retries, fun s h => exec_smbus_reads h,
    fun _ _ _ _ => exec_smbusNack_of_fault, fun c s hc h => ?unsupplied⟩
  case bypass =>
    exact congrArg Host.Outcome.next ((if_pos hc).trans (State.jtagLoad_of_answers ha _ _ _))
  case idcode => exact congrArg Host.Outcome.next (State.jtagLoad_of_answers ha _ _ _)
  case sample => exact congrArg Host.Outcome.next (State.jtagLoad_of_answers ha _ _ _)
  case extest =>
    refine congrArg Host.Outcome.next ?_
    simp only [bypassAs, State.jtagLoad_of_answers ha]
    split <;> rfl
  case allowed =>
    exact exec_privateDebug_of_unsealed ha (jtagPrivate_of_range hl hu) (State.sealedStrata_isEmpty hs) trace
  case refused =>
    have hn : n ∈ s.sealedStrata := State.mem_sealedStrata.2 ⟨hexists, hsealed⟩
    have hsome : s.sealedStrata.isEmpty = false := by
      rw [List.isEmpty_eq_false_iff]
      exact List.ne_nil_of_mem hn
    have hframe := State.occurAll_frame ({ s with jtag := code, out := s.out ++ [.jtag 0xFF (some 0)] } : State)
      (0 :: s.sealedStrata) 0x1004 (if trace then 2 else 1) 0
    exact ⟨_, exec_privateDebug_of_sealed ha (jtagPrivate_of_range hl hu) hsome trace, rfl, hn,
      hframe .jtag (by decide),
      (occurAll_only _ _ _ _ _ (by decide) (by decide) (by decide)).2
        ((upd_out_only (s := { s with jtag := code }) (by decide)).2 ((upd_jtag_only (by decide)).2 (ChangesOnly.refl _ _)))⟩
  case silent =>
    have hsilent := State.not_jtagAnswers hs ha
    simp only [List.mem_cons, List.not_mem_nil, or_false] at hc
    rcases hc with rfl | rfl | rfl | rfl | rfl
    · exact congrArg Host.Outcome.next ((if_pos (by decide)).trans (State.jtagLoad_of_silent hsilent _ _ _))
    · exact congrArg Host.Outcome.next (State.jtagLoad_of_silent hsilent _ _ _)
    · exact congrArg Host.Outcome.next (State.jtagLoad_of_silent hsilent _ _ _)
    · refine congrArg Host.Outcome.next ?_
      simp only [bypassAs, State.jtagLoad_of_silent hsilent, ite_self]
    · exact congrArg Host.Outcome.next (if_pos (by simp [hsilent]))
  case trips =>
    refine ⟨_, congrArg Host.Outcome.next (cageTrips_of_on ha hc), s.setCage_ports c _, State.setCage_frame _ _ _⟩
  case retries =>
    have hports : (s.reach (since + oneSecond)).ports = s.ports := State.reach_frame _ _ .ports (by decide)
    have htick : ((s.reach (since + oneSecond)).setCage c none).tick = (s.reach (since + oneSecond)).tick :=
      State.setCage_frame _ _ _ .tick (by decide)
    refine ⟨_, congrArg Host.Outcome.next (cageRetries_of_off ha hc), fun p => ?_, ?_, ?_, ?_⟩
    · rw [State.setCage_ports, hports]
    · rw [htick]; exact State.le_reach_tick _ _
    · rw [htick]; exact State.tick_le_reach_tick _ _
    · exact (setCage_only _ _ _ (by decide)).2 ((State.reach_frame _ _).mono (by simp))
  case unsupplied =>
    simp only [List.mem_cons, List.not_mem_nil, or_false] at hc
    rcases hc with rfl | rfl | rfl | rfl | rfl | rfl | rfl | rfl | rfl | rfl | rfl | rfl
    case inr.inr.inr.inr.inr.inr.inr.inr.inr.inr.inr =>
      exact congrArg Host.Outcome.next ((if_pos (by decide)).trans (State.smbus_of_unsupplied h _))
    all_goals exact congrArg Host.Outcome.next (State.smbus_of_unsupplied h _)

end Sys2Proof.Machine
end

section
/-!
PROOFS. Long-running commands: what their acceptance reserves (R232, R269) and what their completion does
(R227, R229, R269, R285, R299, R300).
-/

namespace Sys2Proof.Machine

/-- The changed element, where its index is written as a number. -/
@[simp] theorem vmod_get_val {α : Type} {n : Nat} (v : Vector α n) (i : Fin n) (f : α → α) :
    (vmod v i f)[i.val] = f v[i.val] := vmod_get v i f

/-! ### Acceptance -/

/-- An accepted command is added to those outstanding, and reserves one entry of its function's event queue. -/
theorem State.outstanding_evq (s : State) (fn : FnNo) (qp : QpNo) (op : BitVec 8) (p : Packet) :
    (s.outstanding fn qp op p).fns[fn].evq = { s.fns[fn].evq with reserved := s.fns[fn].evq.reserved + 1 } := by
  unfold outstanding
  rw [modEvq_evq]

theorem State.outstanding_frame (s : State) (fn : FnNo) (qp : QpNo) (op : BitVec 8) (p : Packet) :
    ChangesOnly [.nextId, .outst, .fns] s (s.outstanding fn qp op p) :=
  (outstanding_only s fn qp op p (by decide) (by decide) (by decide)).2 (ChangesOnly.refl _ _)

theorem State.outstanding_grows (s : State) (fn : FnNo) (qp : QpNo) (op : BitVec 8) (p : Packet) :
    Grows s (s.outstanding fn qp op p) := by
  refine Grows.trans ?_ (modEvq_grows _ fn fun e => { e with reserved := e.reserved + 1 })
  exact .of_eq rfl rfl

/-- R269: what follows its acceptance effects leaves the answer of a long-running command as it is. -/
theorem longDone_replied {s : State} (c : CmdSpec) (fn : FnNo) (qp : QpNo) (p : Packet) {acc : Nat → State → State}
    (hacc : ∀ id u, Grows u (acc id u) ∧ (acc id u).tick = u.tick ∧ (acc id u).boot = u.boot)
    (hl : s.boot.linkL0 = true) :
    Replied s (longDone c fn qp p acc (fun _ t => t) (s.taken fn qp)) fn qp c.op p stAccepted 0 0 0 := by
  obtain ⟨hgrows, htick, hboot⟩ := hacc (s.taken fn qp).nextId ((s.taken fn qp).outstanding fn qp c.op p)
  have hframe : ChangesOnly [.nextId, .outst, .fns] s ((s.taken fn qp).outstanding fn qp c.op p) :=
    ((taken_frame s fn qp).mono (by decide)).trans (State.outstanding_frame _ _ _ _ _)
  have hreply := reply_replied fn qp c.op p stAccepted 0 0 0
    (((taken_grows s fn qp).trans (State.outstanding_grows _ _ _ _ _)).trans hgrows)
    (htick.trans (hframe .tick (by decide))) (by rw [hboot, hframe .boot (by decide)]; exact hl)
  exact hreply.grows ((modQp_grows _ _ _ _).trans (settleQueue_grows _ _ _))

/-- Settles O16. -/
theorem acceptanceReserves : Obligations.AcceptanceReserves := by
  unfold Obligations.AcceptanceReserves
  refine ⟨fun s fn qp op p => ⟨rfl, rfl, ?_, s.outstanding_frame fn qp op p⟩,
    fun c fn qp p acc s hacc hl => longDone_replied c fn qp p hacc hl⟩
  rw [State.outstanding_evq]

/-! ### Event records -/

theorem State.sendRec_frame (s : State) (fn : FnNo) (r : EvRec) : ChangesOnly [.waits, .fns, .out] s (s.sendRec fn r) :=
  (sendRec_only s fn r (by decide) (by decide) (by decide)).2 (ChangesOnly.refl _ _)

theorem State.raise_qps (s : State) (fn n : FnNo) (bits : BitVec 12) : (s.raise fn bits).fns[n].qps = s.fns[n].qps := by
  obtain ⟨p, hp⟩ := s.raise_fns fn bits
  rw [hp]
  by_cases e : fn = n
  · subst e; rw [vmod_get]
  · rw [vmod_get_ne _ _ e]

theorem State.raise_evq (s : State) (fn : FnNo) (bits : BitVec 12) : (s.raise fn bits).fns[fn].evq = s.fns[fn].evq := by
  obtain ⟨p, hp⟩ := s.raise_fns fn bits
  rw [hp, vmod_get]

theorem State.modEvq_qps (s : State) (fn n : FnNo) (f : Evq → Evq) : (s.modEvq fn f).fns[n].qps = s.fns[n].qps := by
  unfold modEvq
  rw [modFn_fns]
  by_cases e : fn = n
  · subst e; rw [vmod_get]
  · rw [vmod_get_ne _ _ e]

theorem State.writeRec_qps (s : State) (fn n : FnNo) (r : EvRec) : (s.writeRec fn r).fns[n].qps = s.fns[n].qps := by
  unfold writeRec
  rw [raise_qps, emit_fns, modEvq_qps]

theorem State.writeHeld_qps (s : State) (fn n : FnNo) (l : List EvRec) :
    (s.writeHeld fn l).fns[n].qps = s.fns[n].qps := by
  induction l generalizing s with
  | nil => exact modEvq_qps _ _ _ _
  | cons r l ih =>
    unfold writeHeld
    split
    · rw [ih, writeRec_qps]
    · exact modEvq_qps _ _ _ _

theorem State.trimHeld_qps (s : State) (fn n : FnNo) : (s.trimHeld fn).fns[n].qps = s.fns[n].qps := by
  unfold trimHeld
  dsimp only
  split
  · rw [raise_qps, modFn_fns]
    by_cases e : fn = n
    · subst e; rw [vmod_get]
    · rw [vmod_get_ne _ _ e]
  · rfl

/-- A record which arises leaves every queue pair as it is. -/
theorem State.sendRec_qps (s : State) (fn n : FnNo) (r : EvRec) : (s.sendRec fn r).fns[n].qps = s.fns[n].qps := by
  unfold sendRec flushEvq
  rw [trimHeld_qps, writeHeld_qps, modEvq_qps]
  rfl

/-- R226: the event queue after a completion record is written into it. -/
theorem State.writeRec_evq (s : State) (fn : FnNo) (r : EvRec) :
    (s.writeRec fn r).fns[fn].evq = { s.fns[fn].evq with
      pos := (ringNext s.fns[fn].evq.log2 s.fns[fn].evq.pos s.fns[fn].evq.phase).1
      phase := (ringNext s.fns[fn].evq.log2 s.fns[fn].evq.pos s.fns[fn].evq.phase).2
      unreleased := s.fns[fn].evq.unreleased + 1
      reserved := if r.completion then s.fns[fn].evq.reserved - 1 else s.fns[fn].evq.reserved } := by
  unfold writeRec
  rw [raise_evq, emit_fns, modEvq_evq]

/-- R228: the record which is written travels to the event queue's next entry. -/
theorem State.writeRec_out_mem {s : State} (h : s.boot.linkL0 = true) (fn : FnNo) (r : EvRec) :
    Emit.event fn (s.fns[fn].evq.base + 64 * s.fns[fn].evq.pos.setWidth 64) (r.bytes fn s.fns[fn].evq.phase) ∈
      (s.writeRec fn r).out := by
  unfold writeRec
  exact raise_out_mem (mem_emit_out (by exact h) _) _ _

theorem State.trimHeld_of_held_nil {s : State} {fn : FnNo} (h : s.fns[fn].evq.held = []) : s.trimHeld fn = s := by
  have hfew : ¬ 32 < (s.fns[fn].evq.held.filter fun r => !r.completion).length := by rw [h]; decide
  unfold trimHeld
  exact if_neg hfew

/-- R224, R232: with a reservation of its own a completion record needs one free entry only. -/
theorem Evq.writable_of_reserved {e : Evq} {r : EvRec} (hrun : e.running = true) (hr : e.reserved ≠ 0)
    (hc : r.completion = true) (hfree : e.unreleased < 2 ^ e.log2.toNat - 1) : e.writable r = true := by
  simpa [writable, hrun, hr, hc, ringSize] using hfree

/-- A record which arises as the only one held, and can be written: it takes the next number (R300) and is written. -/
theorem State.sendRec_of_writable {s : State} {fn : FnNo} {r : EvRec} (hheld : s.fns[fn].evq.held = [])
    (hbm : s.fns[fn].busMaster = true) (hf : s.boot.fatal = false)
    (hw : s.fns[fn].evq.writable { r with seq := s.fns[fn].evq.seq } = true) :
    s.sendRec fn r = (((s.hitWaits fn r).modEvq fn fun q => { q with
        held := [{ r with seq := s.fns[fn].evq.seq }], seq := q.seq + 1 }).writeRec fn
          { r with seq := s.fns[fn].evq.seq }).modEvq fn fun q => { q with held := [] } := by
  have hnumbered : ((s.hitWaits fn r).modEvq fn fun q => { q with held := q.held ++ [{ r with seq := q.seq }], seq := q.seq + 1 }) =
      (s.hitWaits fn r).modEvq fn fun q => { q with held := [{ r with seq := s.fns[fn].evq.seq }], seq := q.seq + 1 } :=
    modFn_congr (by
      rw [show (s.hitWaits fn r).fns = s.fns from rfl]
      dsimp only
      rw [hheld, List.nil_append])
  have hnow : ∀ f : Evq → Evq, (((s.hitWaits fn r).modEvq fn f).fns[fn].busMaster &&
      !((s.hitWaits fn r).modEvq fn f).boot.fatal) = true := fun f => by
    simpa [modEvq, hitWaits, hf] using hbm
  unfold sendRec flushEvq
  rw [hnumbered, modEvq_evq, writeHeld, hnow, modEvq_evq, if_pos (by simpa [Evq.writable, hitWaits] using hw), writeHeld,
    trimHeld_of_held_nil (by rw [modEvq_evq])]

/-- R227, R228, R229, R300: such a record is numbered, written into the next entry, and no record is held. -/
theorem State.sendRec_writes {s : State} {fn : FnNo} {r : EvRec} (hheld : s.fns[fn].evq.held = [])
    (hbm : s.fns[fn].busMaster = true) (hf : s.boot.fatal = false) (hl : s.boot.linkL0 = true)
    (hw : s.fns[fn].evq.writable { r with seq := s.fns[fn].evq.seq } = true) (hc : r.completion = true) :
    Emit.event fn (s.fns[fn].evq.base + 64 * s.fns[fn].evq.pos.setWidth 64)
        ({ r with seq := s.fns[fn].evq.seq }.bytes fn s.fns[fn].evq.phase) ∈ (s.sendRec fn r).out ∧
      (s.sendRec fn r).fns[fn].evq.reserved = s.fns[fn].evq.reserved - 1 ∧
      (s.sendRec fn r).fns[fn].evq.held = [] := by
  rw [sendRec_of_writable hheld hbm hf hw]
  refine ⟨?_, ?_, ?_⟩
  · have hmem := writeRec_out_mem (s := (s.hitWaits fn r).modEvq fn fun q => { q with
        held := [{ r with seq := s.fns[fn].evq.seq }], seq := q.seq + 1 }) (by exact hl) fn
      { r with seq := s.fns[fn].evq.seq }
    rw [modEvq_evq] at hmem
    exact hmem
  · rw [modEvq_evq, writeRec_evq, modEvq_evq]
    exact if_pos hc
  · rw [modEvq_evq]

/-! ### Completions -/

/-- R269, R299: the record which completes a command. -/
def Outst.completion (o : Outst) (st d : W16) (tick : Tick) (r0 r1 : W64) (data : BitVec 192) : EvRec :=
  { completion := true, tag := o.tag, evType := o.op.setWidth 16, status := st,
    queue := BitVec.ofNat 8 o.qp.val, detail := d, seq := 0, tick, r0, r1, data }

/-- R269, R285: the state in which a command's completion record arises: it is no longer outstanding, and its chain has
failed unless its status is ST_OK. -/
def State.completing (s : State) (o : Outst) (st : W16) : State :=
  let t : State := { s with outst := s.outst.filter fun p => p.id ≠ o.id }
  if o.chain && st != stOk then t.modQp o.fn o.qp fun q => { q with chainFailed := some o.tag } else t

theorem State.complete_of_find {s : State} {o : Outst} (h : (s.outst.find? fun p => p.id = o.id) = some o)
    (st d : W16) (r0 r1 : W64) (data : BitVec 192) :
    s.complete o.id st d r0 r1 data =
      (s.completing o st).sendRec o.fn (o.completion st d s.tick r0 r1 data) := by
  unfold complete completing
  rw [h]
  dsimp only
  split <;> rfl

theorem State.completing_outst (s : State) (o : Outst) (st : W16) :
    (s.completing o st).outst = s.outst.filter fun p => p.id ≠ o.id := by
  unfold completing; dsimp only; split <;> rfl

theorem State.completing_boot (s : State) (o : Outst) (st : W16) : (s.completing o st).boot = s.boot := by
  unfold completing; dsimp only; split <;> rfl

theorem State.completing_busMaster (s : State) (o : Outst) (st : W16) :
    (s.completing o st).fns[o.fn].busMaster = s.fns[o.fn].busMaster := by
  unfold completing; dsimp only; split <;> simp

theorem State.completing_evq (s : State) (o : Outst) (st : W16) :
    (s.completing o st).fns[o.fn].evq = s.fns[o.fn].evq := by
  unfold completing; dsimp only; split <;> simp

theorem State.completing_chainFailed {s : State} {o : Outst} {st : W16} (hc : o.chain = true) (hst : st ≠ stOk) :
    (s.completing o st).fns[o.fn].qps[o.qp].chainFailed = some o.tag := by
  have hfails : (o.chain && st != stOk) = true := by rw [hc, Bool.true_and]; exact bne_iff_ne.2 hst
  unfold completing
  dsimp only
  rw [if_pos hfails, modQp_qps]

theorem State.complete_frame (s : State) (id : Nat) (st d : W16) (r0 r1 : W64) (data : BitVec 192) :
    ChangesOnly [.waits, .fns, .outst, .out] s (s.complete id st d r0 r1 data) :=
  (complete_only s id st d r0 r1 data (by decide) (by decide) (by decide) (by decide)).2 (ChangesOnly.refl _ _)

/-- R269: a completion takes its command, and no other, from those outstanding. -/
theorem State.complete_outst (s : State) (id : Nat) (st d : W16) (r0 r1 : W64) (data : BitVec 192) :
    (s.complete id st d r0 r1 data).outst = s.outst.filter fun p => p.id ≠ id := by
  cases h : s.outst.find? fun o => o.id = id with
  | none =>
    have hall : ∀ o ∈ s.outst, o.id ≠ id := by simpa using h
    unfold complete
    rw [h]
    exact (List.filter_eq_self.2 fun o ho => by simpa using hall o ho).symm
  | some o =>
    obtain rfl : o.id = id := by simpa using List.find?_some h
    rw [complete_of_find h, sendRec_frame _ _ _ .outst (by decide), completing_outst]

theorem State.not_mem_complete_outst {s : State} {id : Nat} {st d : W16} {r0 r1 : W64} {data : BitVec 192} :
    ∀ o ∈ (s.complete id st d r0 r1 data).outst, o.id ≠ id := by
  intro o ho
  rw [complete_outst] at ho
  simpa using (List.mem_filter.1 ho).2

section
variable {s : State} {o : Outst} (h : (s.outst.find? fun p => p.id = o.id) = some o) (st d : W16) (r0 r1 : W64)
  (data : BitVec 192)
include h

/-- R227, R229, R300: a completion record which can be written is written, numbered, and gives up its reservation. -/
theorem State.complete_writes (hbm : s.fns[o.fn].busMaster = true) (hf : s.boot.fatal = false)
    (hl : s.boot.linkL0 = true) (hheld : s.fns[o.fn].evq.held = []) (hrun : s.fns[o.fn].evq.running = true)
    (hres : s.fns[o.fn].evq.reserved ≠ 0)
    (hfree : s.fns[o.fn].evq.unreleased < 2 ^ s.fns[o.fn].evq.log2.toNat - 1) :
    Emit.event o.fn (s.fns[o.fn].evq.base + 64 * s.fns[o.fn].evq.pos.setWidth 64)
        ({ o.completion st d s.tick r0 r1 data with seq := s.fns[o.fn].evq.seq }.bytes o.fn s.fns[o.fn].evq.phase) ∈
          (s.complete o.id st d r0 r1 data).out ∧
      (s.complete o.id st d r0 r1 data).fns[o.fn].evq.reserved = s.fns[o.fn].evq.reserved - 1 ∧
      (s.complete o.id st d r0 r1 data).fns[o.fn].evq.held = [] := by
  have hevq := s.completing_evq o st
  have hwritable := Evq.writable_of_reserved (r := { o.completion st d s.tick r0 r1 data with seq := s.fns[o.fn].evq.seq })
    hrun hres rfl hfree
  have hwrites := sendRec_writes (s := s.completing o st) (fn := o.fn) (r := o.completion st d s.tick r0 r1 data)
    (by rw [hevq, hheld]) (by rw [completing_busMaster, hbm]) (by rw [completing_boot, hf])
    (by rw [completing_boot, hl]) (by rw [hevq]; exact hwritable) rfl
  rw [hevq, ← complete_of_find h] at hwrites
  exact hwrites

/-- R285: a status other than ST_OK fails the command's chain. -/
theorem State.complete_chainFailed (hc : o.chain = true) (hst : st ≠ stOk) :
    (s.complete o.id st d r0 r1 data).fns[o.fn].qps[o.qp].chainFailed = some o.tag := by
  rw [complete_of_find h, sendRec_qps, completing_chainFailed hc hst]

end

/-- Settles O19. -/
theorem completionRecord : Obligations.CompletionRecord := by
  unfold Obligations.CompletionRecord
  intro s o st d r0 r1 data h
  refine ⟨State.not_mem_complete_outst, fun p hp hne => ?_, fun hbm hf hl hheld hrun hres hfree => ?_,
    State.complete_chainFailed h st d r0 r1 data, (s.complete_frame o.id st d r0 r1 data).mono (by decide)⟩
  · rw [State.complete_outst]
    exact List.mem_filter.2 ⟨hp, by simpa using hne⟩
  · obtain ⟨hout, hreserved, hempty⟩ := State.complete_writes h st d r0 r1 data hbm hf hl hheld hrun hres hfree
    exact ⟨⟨_, hout, rfl, rfl, rfl, rfl, rfl, rfl, rfl, rfl, rfl, rfl, rfl⟩, hreserved, hempty⟩

end Sys2Proof.Machine
end

section
/-!
PROOFS. Images of Mica table slots and of micro-program slots which have been read (R298, R412, R665, R667, R672).
-/

namespace Sys2Proof.Machine

/-- One place of a table of tables is changed: every other one is as before. -/
theorem vmod_vmod_get_ne {α : Type} {m n : Nat} (v : Vector (Vector α m) n) {i a : Fin n} {j b : Fin m} (f : α → α)
    (h : a ≠ i ∨ b ≠ j) : ((vmod v i fun w => vmod w j f)[a])[b] = (v[a])[b] := by
  by_cases e : i = a
  · subst e
    rw [vmod_get, vmod_get_ne _ _ fun g => h.elim (fun k => k rfl) fun k => k g.symm]
  · rw [vmod_get_ne _ _ e]

section
variable {n : FnNo} {k : Fin 8} {x : SlotLoad} {s : State} (host : List Byte)

/-- The load of a Mica table which ends: it no longer waits, and its image has the outcome of its check. -/
theorem exec_tableImageCheck_of_load (hx : (s.tableLoads.find? fun x => x.stratum == n && x.slot == k.val) = some x)
    (hbm : s.fns[n].busMaster = true) (hk : (s.priorKept n fun f => f.tables[k] != (s.tables[n])[k]) = false) :
    exec (.tableImageCheck n k host none) s = .next (endSlotLoad x none (tableFault (x.arg == 1) (loadBytes tableBytes host))
      (fun u => { u with tables := vmod u.tables n fun v => vmod v k fun _ =>
        { image := loadBytes tableBytes host, monotone := x.arg == 1 } })
      { s with tableLoads := s.tableLoads.filter fun y => y != x }) := by
  refine congrArg Host.Outcome.next ?_
  unfold tableImageCheck
  rw [hx]
  simp only [hbm, hk, Bool.not_true, Bool.or_self, Bool.false_eq_true, ↓reduceIte]

/-- The load of a micro-program which ends: it no longer waits, and its image has the outcome of its check. -/
theorem exec_microprogImageCheck_of_load
    (hx : (s.mprogLoads.find? fun x => x.stratum == n && x.slot == k.val) = some x) (hbm : s.fns[n].busMaster = true)
    (hk : (s.priorKept n fun f => f.mprogs[k] != (s.mprogs[n])[k]) = false) :
    exec (.microprogImageCheck n k host none) s = .next (endSlotLoad x none (mprogFault x.arg (loadBytes mprogBytes host))
      (fun u => { u with mprogs := vmod u.mprogs n fun v => vmod v k fun _ => loadBytes mprogBytes host })
      { s with mprogLoads := s.mprogLoads.filter fun y => y != x }) := by
  refine congrArg Host.Outcome.next ?_
  unfold mprogImageCheck
  rw [hx]
  simp only [hbm, hk, Bool.not_true, Bool.or_self, Bool.false_eq_true, ↓reduceIte]

end

/-- Settles O26: an image without a fault is put in its slot and the load completes; with a fault the load completes and
nothing else of the slots changes, for a completion touches no slot. -/
theorem slotImages : Obligations.SlotImages := by
  unfold Obligations.SlotImages
  refine ⟨fun n k host x s hx hbm hk hf => ⟨_, exec_tableImageCheck_of_load host hx hbm hk, ?_⟩,
    fun n k host x off s hx hbm hk hf => ⟨_, exec_tableImageCheck_of_load host hx hbm hk, ?_⟩,
    fun n k host x s hx hbm hk hf => ⟨_, exec_microprogImageCheck_of_load host hx hbm hk, ?_⟩,
    fun n k host x off s hx hbm hk hf => ⟨_, exec_microprogImageCheck_of_load host hx hbm hk, ?_⟩⟩
  all_goals rw [hf]; unfold endSlotLoad; dsimp only
  · have hdone := fun t : State => t.complete_frame x.id stOk 0 0 0 0
    refine ⟨?_, fun m j h => ?_, hdone _ .tableLoads (by decide), State.not_mem_complete_outst⟩ <;>
      rw [show ∀ t : State, (t.completeOk x.id 0 0).tables = t.tables from fun t => hdone t .tables (by decide)]
    · rw [vmod_get, vmod_get]
    · exact vmod_vmod_get_ne _ _ h
  · have hdone := fun t : State => t.complete_frame x.id stImageInvalid 0 0 0 (dataInvalid off)
    exact ⟨hdone _ .tables (by decide), hdone _ .tableLoads (by decide), State.not_mem_complete_outst⟩
  · have hdone := fun t : State => t.complete_frame x.id stOk 0 0 0 0
    refine ⟨?_, fun m j h => ?_, hdone _ .mprogLoads (by decide), State.not_mem_complete_outst⟩ <;>
      rw [show ∀ t : State, (t.completeOk x.id 0 0).mprogs = t.mprogs from fun t => hdone t .mprogs (by decide)]
    · rw [vmod_get, vmod_get]
    · exact vmod_vmod_get_ne _ _ h
  · have hdone := fun t : State => t.complete_frame x.id stImageInvalid 0 0 0 (dataInvalid off)
    exact ⟨hdone _ .mprogs (by decide), hdone _ .mprogLoads (by decide), State.not_mem_complete_outst⟩

end Sys2Proof.Machine
end

section
/-!
PROOFS. Writes of a stratum's view (R310, R485, R680, R730): which bytes they change, and that they are read back.
-/

namespace Sys2Proof.Machine

/-! ### Sparse memories -/

theorem spGet_spPut_same {α : Type} (m : List (Nat × α)) (k : Nat) (v : α) : spGet (spPut m k v) k = some v := by
  induction m with
  | nil => simp [spPut, spGet]
  | cons e r ih =>
    unfold spPut
    split
    · simp [spGet]
    · split
      · simp [spGet]
      · rename_i hne
        simp [spGet, hne, ih]

theorem spGet_spPut_ne {α : Type} (m : List (Nat × α)) {k j : Nat} (v : α) (h : j ≠ k) :
    spGet (spPut m k v) j = spGet m j := by
  induction m with
  | nil => simp [spPut, spGet, h.symm]
  | cons e r ih =>
    unfold spPut
    split
    · simp [spGet, h.symm]
    · split
      · rename_i he
        simp [spGet, he, h.symm]
      · simp [spGet, ih]

theorem spGet_spDel_same {α : Type} (m : List (Nat × α)) (k : Nat) : spGet (spDel m k) k = none := by
  induction m with
  | nil => rfl
  | cons e r ih =>
    by_cases he : e.1 = k
    · simpa [spDel, he] using ih
    · simpa [spDel, he, spGet] using ih

theorem spGet_spDel_ne {α : Type} (m : List (Nat × α)) {k j : Nat} (h : j ≠ k) : spGet (spDel m k) j = spGet m j := by
  induction m with
  | nil => rfl
  | cons e r ih =>
    by_cases he : e.1 = k
    · simpa [spDel, he, spGet, h.symm] using ih
    · simp only [spDel, ne_eq, he, not_false_eq_true, decide_true, List.filter_cons_of_pos, spGet]
      rw [show List.filter (fun e => decide ¬e.1 = k) r = spDel r k from rfl, ih]

/-- A byte which was written is the byte which is read. -/
theorem memRead_memWrite_same (d : Byte) (m : Mem) (a : Nat) (v : Byte) : memRead d (memWrite d m a v) a = v := by
  unfold memRead memWrite
  split
  · rename_i hv
    rw [spGet_spDel_same, hv, Option.getD_none]
  · rw [spGet_spPut_same, Option.getD_some]

/-- A write leaves every other byte as it is. -/
theorem memRead_memWrite_ne (d : Byte) (m : Mem) {a b : Nat} (v : Byte) (h : b ≠ a) :
    memRead d (memWrite d m a v) b = memRead d m b := by
  unfold memRead memWrite
  split
  · rw [spGet_spDel_ne _ h]
  · rw [spGet_spPut_ne _ _ h]

/-! ### Which bytes a write changes -/

/-- Between two states no byte of a memory changed but at the locations of `hit`. -/
def KeepsBytes (hit : Loc → Prop) (s t : State) : Prop :=
  (∀ a, ¬ hit (.geode a) → memRead 0 t.geo.mem a = memRead 0 s.geo.mem a) ∧
    (∀ (c : PhysNo) (o : Nat), ¬ hit (.scratch c o) → memRead 0 t.scratch[c] o = memRead 0 s.scratch[c] o) ∧
    ∀ o, (∀ g k, ¬ hit (.ext o g k)) → spGet t.ext.mem o = spGet s.ext.mem o

theorem KeepsBytes.of_eq {hit : Loc → Prop} {s t : State} (hg : t.geo.mem = s.geo.mem) (hs : t.scratch = s.scratch)
    (he : t.ext.mem = s.ext.mem) : KeepsBytes hit s t :=
  ⟨fun _ _ => by rw [hg], fun _ _ _ => by rw [hs], fun _ _ => by rw [he]⟩

theorem KeepsBytes.trans {hit : Loc → Prop} {r s t : State} (h : KeepsBytes hit r s) (g : KeepsBytes hit s t) :
    KeepsBytes hit r t :=
  ⟨fun a ha => (g.1 a ha).trans (h.1 a ha), fun c o ho => (g.2.1 c o ho).trans (h.2.1 c o ho),
    fun o ho => (g.2.2 o ho).trans (h.2.2 o ho)⟩

theorem KeepsBytes.mono {hit wide : Loc → Prop} {s t : State} (h : KeepsBytes hit s t) (hw : ∀ l, hit l → wide l) :
    KeepsBytes wide s t :=
  ⟨fun a ha => h.1 a fun k => ha (hw _ k), fun c o ho => h.2.1 c o fun k => ho (hw _ k),
    fun o ho => h.2.2 o fun g k j => ho g k (hw _ j)⟩

/-- A byte which is written at a location changes no other. -/
theorem State.locWrite_keepsBytes (s : State) (v : Byte) (l : Loc) : KeepsBytes (· = l) s (s.locWrite v l) := by
  cases l with
  | geode a => exact ⟨fun b hb => memRead_memWrite_ne 0 _ v fun h => hb (by rw [h]), fun _ _ _ => rfl, fun _ _ => rfl⟩
  | scratch c o =>
    refine ⟨fun _ _ => rfl, fun d p hp => ?_, fun _ _ => rfl⟩
    unfold locWrite
    by_cases hc : c = d
    · subst hc
      rw [vmod_get]
      exact memRead_memWrite_ne 0 _ v fun h => hp (by rw [h])
    · rw [vmod_get_ne _ _ hc]
  | ext o g k =>
    exact ⟨fun _ _ => rfl, fun _ _ _ => rfl, fun p hp => spGet_spPut_ne _ v fun h => hp g k (by rw [h])⟩
  | lost => exact .of_eq rfl rfl rfl
  | none => exact .of_eq rfl rfl rfl

theorem State.locWrite_frame (s : State) (v : Byte) (l : Loc) : ChangesOnly [.geo, .scratch, .ext] s (s.locWrite v l) :=
  (locWrite_only s v l (by decide) (by decide) (by decide)).2 (ChangesOnly.refl _ _)

/-- R310: where a view address leads depends on no memory's contents. -/
theorem State.locate_of_frame {s t : State} (h : ChangesOnly [.geo, .scratch, .ext] s t) (n : FnNo) (a : Nat) :
    t.locate n a = s.locate n a := by
  have hs : t.strata = s.strata := h .strata (by decide)
  have hm : t.mapping = s.mapping := h .mapping (by decide)
  have hc : t.holdsCluster = s.holdsCluster := by funext n l; unfold holdsCluster; rw [hs]
  unfold locate
  rw [hs, hm, hc]

theorem State.viewWriteGo_frame (s : State) (n : FnNo) (ws : List (Nat × Byte)) :
    ChangesOnly [.geo, .scratch, .ext] s (s.viewWriteGo n ws).1 :=
  (viewWriteGo_only s n ws (by decide) (by decide) (by decide)).2 (ChangesOnly.refl _ _)

theorem State.viewWriteGo_keepsBytes (s : State) (n : FnNo) (ws : List (Nat × Byte)) :
    KeepsBytes (fun l => ∃ w ∈ ws, s.locate n w.1 = l) s (s.viewWriteGo n ws).1 := by
  induction ws generalizing s with
  | nil => exact .of_eq rfl rfl rfl
  | cons w r ih =>
    cases he : s.locError false (s.locate n w.1) with
    | some e =>
      rw [viewWriteGo, he]
      exact .of_eq rfl rfl rfl
    | none =>
      rw [viewWriteGo, he]
      have hfirst := s.locWrite_keepsBytes w.2 (s.locate n w.1)
      have hrest := ih (s.locWrite w.2 (s.locate n w.1))
      refine (hfirst.mono fun l hl => ⟨w, by simp, hl.symm⟩).trans (hrest.mono fun l hl => ?_)
      obtain ⟨x, hx, hl⟩ := hl
      rw [locate_of_frame (s.locWrite_frame _ _)] at hl
      exact ⟨x, by simp [hx], hl⟩

theorem State.forEach_unpoison_mem (l : List (ExtNo × Nat)) (s : State) :
    (s.forEach l fun w u => u.unpoison w).ext.mem = s.ext.mem := by
  induction l generalizing s with
  | nil => rfl
  | cons w l ih => exact ih (s.unpoison w)

theorem State.makeGood_frame (s : State) (n : FnNo) (ws : List (Nat × Byte)) : ChangesOnly [.ext] s (s.makeGood n ws) :=
  (makeGood_only s n ws (by decide)).2 (ChangesOnly.refl _ _)

theorem State.viewWrite_frame (s : State) (n : FnNo) (ws : List (Nat × Byte)) :
    ChangesOnly [.geo, .scratch, .ext] s (s.viewWrite n ws).1 :=
  ((s.makeGood_frame n ws).mono (by decide)).trans (viewWriteGo_frame _ _ _)

/-- R485: a write of the view changes no byte but those which its addresses lead to. -/
theorem State.viewWrite_keepsBytes (s : State) (n : FnNo) (ws : List (Nat × Byte)) :
    KeepsBytes (fun l => ∃ w ∈ ws, s.locate n w.1 = l) s (s.viewWrite n ws).1 := by
  have hgood := s.makeGood_frame n ws
  have hbytes : (s.makeGood n ws).ext.mem = s.ext.mem := forEach_unpoison_mem _ s
  have hgeo : (s.makeGood n ws).geo = s.geo := hgood .geo (by decide)
  refine KeepsBytes.trans (.of_eq (by rw [hgeo]) (hgood .scratch (by decide)) hbytes)
    ((viewWriteGo_keepsBytes (s.makeGood n ws) n ws).mono fun l hl => ?_)
  obtain ⟨w, hw, hl⟩ := hl
  rw [locate_of_frame (hgood.mono (by decide))] at hl
  exact ⟨w, hw, hl⟩

/-! ### A byte just written is read back -/

/-- R761: one byte covers no codeword wholly. -/
theorem State.coversCodeword_singleton (s : State) (n : FnNo) (a : Nat) (w : ExtNo × Nat) :
    s.coversCodeword n [a] w = false := by
  unfold coversCodeword
  have hfew : ∀ p : Nat → Bool, ([a].filter p).length ≤ 1 := fun p => List.length_filter_le p [a]
  exact decide_eq_false fun h => absurd (Nat.le_trans h (hfew _)) (by decide)

theorem State.makeGood_singleton (s : State) (n : FnNo) (w : Nat × Byte) : s.makeGood n [w] = s := by
  have hnone : s.coversCodeword n [w.1] = fun _ => false := funext (s.coversCodeword_singleton n w.1)
  unfold makeGood
  simp only [List.map_cons, List.map_nil, hnone]
  rw [List.filter_eq_nil_iff.2 fun _ _ => Bool.false_ne_true]
  rfl

theorem State.locWrite_locError (s : State) (b : Bool) (v : Byte) (l k : Loc) :
    (s.locWrite v l).locError b k = s.locError b k := by
  cases l <;> rfl

/-- The byte at a location which can be served is the byte just written there. -/
theorem State.locRead_locWrite {s : State} {b : Bool} {l : Loc} (h : s.locError b l = none) (v : Byte) :
    (s.locWrite v l).locRead l = v := by
  cases l with
  | geode a => exact memRead_memWrite_same 0 _ a v
  | scratch c o =>
    unfold locWrite locRead
    dsimp only
    rw [vmod_get, memRead_memWrite_same]
  | ext o g k =>
    unfold locWrite locRead
    dsimp only
    rw [spGet_spPut_same]
  | lost => cases h
  | none => cases h

/-- Settles O22. -/
theorem viewWriteFrame : Obligations.ViewWriteFrame := by
  unfold Obligations.ViewWriteFrame
  refine ⟨fun s t n ws h => ?_, fun s t n a v h => ?_⟩
  · obtain rfl : (s.viewWrite n ws).1 = t := by rw [h]
    obtain ⟨hgeode, hscratch, hext⟩ := s.viewWrite_keepsBytes n ws
    refine ⟨fun a ha => hgeode a fun ⟨w, hw, hl⟩ => ha w hw hl, fun c o ho => hscratch c o fun ⟨w, hw, hl⟩ => ho w hw hl,
      fun o ho => hext o fun g k ⟨w, hw, hl⟩ => ho w hw g k hl, s.viewWrite_frame n ws⟩
  · unfold State.viewWrite at h
    rw [State.makeGood_singleton, State.viewWriteGo] at h
    cases he : s.locError false (s.locate n a) with
    | some e => rw [he] at h; cases h
    | none =>
      rw [he, State.viewWriteGo] at h
      cases h
      have hlocate := State.locate_of_frame (s.locWrite_frame v (s.locate n a)) n a
      unfold State.viewRead
      simp only [hlocate, State.locWrite_locError, he, State.locRead_locWrite he]

end Sys2Proof.Machine
end

section
/-!
PROOFS. What an operation leaves alone, read off the laws of `ChangesOnly`; the outstanding commands only lose members.
-/

namespace Sys2Proof.Machine

/-! ### All components but a few -/

/-- Every component of the state. -/
def Comp.every : List Comp :=
  [.pending, .out, .tick, .withhold, .free, .nextId, .nextLaunch, .order32, .fns, .outst, .strata, .geo, .ext, .copies,
   .deliveries, .sup, .plans, .boot, .units, .mapping, .lastPhys, .toReplace, .scratch, .clusters, .waits, .barriers,
   .progs, .scheduled, .tables, .mprogs, .tableLoads, .mprogLoads, .runs, .ports, .lanes, .chans, .frames, .stores,
   .pieces, .loaded, .repro, .lock, .faults, .logReads, .nv, .panel, .thermal, .telem, .slots, .remaps, .jtag]

/-- Every component but these: an operation which changes no other keeps these. -/
def Comp.allBut (l : List Comp) : List Comp := Comp.every.filter fun c => !l.contains c

theorem Comp.mem_every (c : Comp) : c ∈ Comp.every := by cases c <;> decide

@[simp] theorem Comp.mem_allBut {l : List Comp} {c : Comp} : c ∈ Comp.allBut l ↔ c ∉ l := by
  simp [allBut, mem_every]

/-! ### Outstanding commands -/

/-- The commands outstanding in the second state were outstanding in the first. -/
def OutstShrinks (s t : State) : Prop := ∀ o ∈ t.outst, o ∈ s.outst

theorem OutstShrinks.refl (s : State) : OutstShrinks s s := fun _ ho => ho

theorem OutstShrinks.of_eq {s t : State} (h : t.outst = s.outst) : OutstShrinks s t := fun _ ho => h ▸ ho

theorem OutstShrinks.trans {r s t : State} (h : OutstShrinks r s) (g : OutstShrinks s t) : OutstShrinks r t :=
  fun o ho => h o (g o ho)

theorem OutstShrinks.of_only {ks : List Comp} {s t : State} (h : ChangesOnly ks s t) (hk : Comp.outst ∉ ks) :
    OutstShrinks s t := .of_eq (h .outst hk)

theorem State.complete_outstShrinks (s : State) (id : Nat) (st d : W16) (r0 r1 : W64) (data : BitVec 192) :
    OutstShrinks s (s.complete id st d r0 r1 data) := fun o ho => by
  rw [complete_outst] at ho
  exact (List.mem_filter.1 ho).1

theorem OutstShrinks.forEach {α : Type} {f : α → State → State} (h : ∀ a t, OutstShrinks t (f a t)) (l : List α)
    (s : State) : OutstShrinks s (s.forEach l f) := by
  unfold State.forEach
  induction l generalizing s with
  | nil => exact .refl s
  | cons a l ih => exact (h a s).trans (ih (f a s))

/-- What was taken from the outstanding commands stays taken. -/
theorem OutstShrinks.not_mem {s t : State} {id : Nat} (h : OutstShrinks s t) (hs : ∀ o ∈ s.outst, o.id ≠ id) :
    ∀ o ∈ t.outst, o.id ≠ id := fun o ho => hs o (h o ho)

end Sys2Proof.Machine
end

section
/-!
PROOFS. Which physical cluster carries a logical one (R437, R1016 to R1026, R771).
-/

namespace Sys2Proof.Machine

theorem State.mapTo_mapping (s : State) (l : LogNo) (c : PhysNo) : (s.mapTo l c).mapping[l] = some c := by
  unfold mapTo
  exact vmod_get _ _ _

theorem State.mapTo_mapping_ne (s : State) {l k : LogNo} (c : PhysNo) (h : k ≠ l) :
    (s.mapTo l c).mapping[k] = s.mapping[k] := by
  unfold mapTo
  exact vmod_get_ne _ _ h.symm

/-- R489: a cluster which takes over a logical cluster is zeroed. -/
theorem State.mapTo_scratch (s : State) (l : LogNo) (c : PhysNo) : (s.mapTo l c).scratch[c] = [] := by
  unfold mapTo
  exact vmod_get _ _ _

section
variable {x : LogNo × PhysNo × Nat × Nat} {r : List (LogNo × PhysNo × Nat × Nat)} {s : State}

/-- R1018: a lost logical cluster for which there is a spare; what is recorded and told of it leaves the mapping alone. -/
theorem replaceOne_of_spare {c : PhysNo} (h : s.toReplace = x :: r)
    (hc : ({ s with toReplace := r } : State).spareFor x.1 = some c) :
    ChangesOnly (Comp.allBut [.mapping, .toReplace, .scratch]) (({ s with toReplace := r } : State).mapTo x.1 c)
      (replaceOne s) := by
  unfold replaceOne
  rw [h]
  dsimp only
  rw [hc]
  simp (disch := decide) only [recordSystem_only, occurAll_only, fault_only, changesOnly_self]

/-- R1021: a lost logical cluster for which there is no spare. -/
theorem replaceOne_of_no_spare (h : s.toReplace = x :: r)
    (hc : ({ s with toReplace := r } : State).spareFor x.1 = none) :
    ChangesOnly (Comp.allBut [.mapping, .toReplace]) { s with toReplace := r, mapping := vmod s.mapping x.1 fun _ => none }
      (replaceOne s) := by
  unfold replaceOne
  rw [h]
  dsimp only
  rw [hc]
  simp (disch := decide) only [recordSystem_only, occurAll_only, clustersChanged_only, fault_only, changesOnly_self]

end

/-- R1025: an unmapped logical cluster takes its spare. -/
theorem State.restoreAt_of_spare {s : State} {l : LogNo} {c : PhysNo} (h : s.spareFor l = some c) :
    ChangesOnly (Comp.allBut [.mapping, .scratch]) (s.mapTo l c) (s.restoreAt l) := by
  unfold restoreAt
  rw [h]
  simp (disch := decide) only [recordSystem_only, occurAll_only, clustersChanged_only, fault_only, changesOnly_self]

theorem restoreNext_of_unmapped {s : State} {l : LogNo} (hp : s.boot.phase = phReady)
    (hl : (s.unmapped fun n => !s.progs.any fun p => p.stratum == n && p.launch.isSome) = some l) :
    restoreNext s = s.restoreAt l := by
  unfold restoreNext
  rw [hl, if_neg (by rw [hp]; decide)]

/-- R437: the new cluster holds what the old one held. -/
theorem State.moveCluster_scratch_new (s : State) (l : LogNo) (old new : PhysNo) :
    (s.moveCluster l old new).scratch[new] = s.scratch[old] := by
  unfold moveCluster
  exact vmod_get _ _ _

/-- R437: the cluster which is left is zeroed. -/
theorem State.moveCluster_scratch_old (s : State) (l : LogNo) {old new : PhysNo} (h : old ≠ new) :
    (s.moveCluster l old new).scratch[old] = [] := by
  unfold moveCluster
  exact (vmod_get_ne _ _ h.symm).trans (vmod_get _ _ _)

theorem State.moveCluster_clusters_old (s : State) (l : LogNo) (old new : PhysNo) :
    (s.moveCluster l old new).clusters[old] = Cluster.fresh := by
  unfold moveCluster zeroCluster
  exact vmod_get _ _ _

/-- R437: a remap which may take effect moves its cluster, and completes. -/
theorem remapSwitch_of_movable {x : Nat × LogNo × PhysNo} {old : PhysNo} {s : State}
    (hx : (s.remaps.find? fun y => !s.runs.any fun r => r.stratum == s.holder y.2.1) = some x)
    (ho : s.mapping[x.2.1] = some old) (hs : x.2.2 ∈ s.spareSet) :
    ChangesOnly (Comp.allBut [.mapping, .scratch, .clusters, .remaps])
        (({ s with remaps := s.remaps.filter fun y => y.1 != x.1 } : State).moveCluster x.2.1 old x.2.2) (remapSwitch s) ∧
      ∀ o ∈ (remapSwitch s).outst, o.id ≠ x.1 := by
  have hspare : (!({ s with remaps := s.remaps.filter fun y => y.1 != x.1 } : State).spareSet.contains x.2.2) = false := by
    rw [Bool.not_eq_false', List.contains_iff_mem]
    exact hs
  unfold remapSwitch
  rw [hx]
  dsimp only
  rw [ho]
  simp only [hspare, Bool.false_eq_true, ↓reduceIte]
  refine ⟨?_, State.not_mem_complete_outst⟩
  simp (disch := decide) only [recordSystem_only, completeOk_only, fault_only, changesOnly_self]

/-- R771: once external memory is reconfigured it serves; the lapses which then end are slots' alone. -/
theorem extReady_frame {s : State} (h : s.ext.reinit = true) :
    ChangesOnly [.slots] { s with ext := { s.ext with reinit := false } } (extReady s) := by
  unfold extReady
  rw [h]
  exact (forEach_only (fun u v => lapseEnds_only v 4 u (by decide)) _ _).2 (ChangesOnly.refl _ _)

/-- Settles O29. -/
theorem clusterMapping : Obligations.ClusterMapping := by
  unfold Obligations.ClusterMapping
  refine ⟨fun x r c s h hc => ?_, fun x r s h hc => ?_, fun l c s hp hl hc => ?_, fun x old s hx ho hs hne => ?_,
    fun s h => ?_⟩
  · have hkeep := replaceOne_of_spare h hc
    have hmap := hkeep .mapping (by decide)
    refine ⟨replaceOne s, rfl, ?_, hkeep .toReplace (by decide), ?_, fun l hl => ?_⟩
    · rw [hmap, State.mapTo_mapping]
    · rw [hkeep .scratch (by decide), State.mapTo_scratch]
    · rw [hmap, State.mapTo_mapping_ne _ _ hl]
  · have hkeep := replaceOne_of_no_spare h hc
    have hmap := hkeep .mapping (by decide)
    refine ⟨replaceOne s, rfl, ?_, hkeep .toReplace (by decide), fun l hl => ?_⟩
    · rw [hmap, vmod_get]
    · rw [hmap, vmod_get_ne _ _ hl.symm]
  · have hkeep := State.restoreAt_of_spare hc
    have hmap := hkeep .mapping (by decide)
    refine ⟨s.restoreAt l, congrArg Host.Outcome.next (restoreNext_of_unmapped hp hl), ?_, ?_, fun k hk => ?_⟩
    · rw [hmap, State.mapTo_mapping]
    · rw [hkeep .scratch (by decide), State.mapTo_scratch]
    · rw [hmap, State.mapTo_mapping_ne _ _ hk]
  · obtain ⟨hkeep, hdone⟩ := remapSwitch_of_movable hx ho hs
    have hmap := hkeep .mapping (by decide)
    have hscratch := hkeep .scratch (by decide)
    refine ⟨remapSwitch s, rfl, ?_, ?_, ?_, ?_, hkeep .remaps (by decide), fun l hl => ?_, hdone⟩
    · rw [hmap]
      exact State.mapTo_mapping _ _ _
    · rw [hscratch, State.moveCluster_scratch_new]
    · rw [hscratch, State.moveCluster_scratch_old _ _ hne]
    · rw [hkeep .clusters (by decide), State.moveCluster_clusters_old]
    · rw [hmap]
      exact State.mapTo_mapping_ne _ _ hl
  · have hkeep := extReady_frame h
    exact ⟨extReady s, rfl, hkeep .ext (by decide), 
      ((upd_ext_only (by decide)).2 (ChangesOnly.refl _ s)).trans (hkeep.mono (by decide))⟩

end Sys2Proof.Machine
end

section
/-!
PROOFS. Fatal conditions (R139, R240, R246, R1039, R1040).
-/

namespace Sys2Proof.Machine

/-! ### A cause bit raised in every function -/

/-- R240: a cause bit which is 1 stays 1 when bits are raised in some function. -/
theorem State.raise_keeps_bit (s : State) (fn n : FnNo) (bits : BitVec 12) {b : Nat}
    (h : s.fns[n].intCause.getLsbD b = true) : (s.raise fn bits).fns[n].intCause.getLsbD b = true := by
  obtain ⟨p, hp⟩ := s.raise_fns fn bits
  rw [hp]
  by_cases e : fn = n
  · subst e
    rw [vmod_get, BitVec.getLsbD_or, h, Bool.true_or]
  · rw [vmod_get_ne _ _ e, h]

/-- R240: a bit which the function has becomes 1. -/
theorem State.raise_sets_bit (s : State) (fn : FnNo) {bits : BitVec 12} {b : Nat} (h : bits.getLsbD b = true)
    (hv : (causeValid fn).getLsbD b = true) : (s.raise fn bits).fns[fn].intCause.getLsbD b = true := by
  obtain ⟨p, hp⟩ := s.raise_fns fn bits
  rw [hp, vmod_get, BitVec.getLsbD_or, BitVec.getLsbD_and, h, hv, Bool.and_self, Bool.or_true]

theorem State.forEach_raise_keeps_bit (l : List FnNo) (s : State) (n : FnNo) (bits : BitVec 12) {b : Nat}
    (h : s.fns[n].intCause.getLsbD b = true) :
    (s.forEach l fun fn t => t.raise fn bits).fns[n].intCause.getLsbD b = true := by
  induction l generalizing s with
  | nil => exact h
  | cons fn l ih => exact ih _ (s.raise_keeps_bit fn n bits h)

theorem State.forEach_raise_sets_bit {l : List FnNo} (s : State) {n : FnNo} (hn : n ∈ l) {bits : BitVec 12} {b : Nat}
    (h : bits.getLsbD b = true) (hv : (causeValid n).getLsbD b = true) :
    (s.forEach l fun fn t => t.raise fn bits).fns[n].intCause.getLsbD b = true := by
  induction l generalizing s with
  | nil => cases hn
  | cons fn l ih =>
    rcases List.mem_cons.1 hn with e | hl
    · subst e
      exact forEach_raise_keeps_bit l _ n bits (s.raise_sets_bit n h hv)
    · exact ih _ hl

/-- R240: FATAL, START and ACCESS_ERR are bits of every function; a bit raised in all of them is 1 in each. -/
theorem State.raiseAll_sets_bit (s : State) (n : FnNo) {bits : BitVec 12} {b : Nat} (h : bits.getLsbD b = true)
    (hv : (causeValid n).getLsbD b = true) : (s.raiseAll bits).fns[n].intCause.getLsbD b = true :=
  s.forEach_raise_sets_bit (List.mem_finRange n) h hv

theorem State.raiseAll_frame (s : State) (bits : BitVec 12) : ChangesOnly [.fns, .out] s (s.raiseAll bits) :=
  (raiseAll_only s bits (by decide) (by decide)).2 (ChangesOnly.refl _ _)

theorem causeFatal_valid (n : FnNo) : (causeValid n).getLsbD 11 = true := by
  unfold causeValid; split <;> rfl

/-! ### The fatal state -/

/-- R154: in a fatal state no queue pair is served. -/
theorem State.not_queueServed_of_fatal {s : State} (h : s.boot.fatal = true) (n : FnNo) (qp : QpNo) :
    s.queueServed n qp = false := by
  simp [queueServed, queueOpen, serving, h]

/-- R246: what HIF_FATAL_LOG holds of a condition. -/
def fatalWords (tick : Tick) (cause : BitVec 8) (unit : W16) (data : List W32) : Vector W32 8 :=
  #v[0x80000000 ||| (cause.setWidth 32 <<< 16) ||| unit.setWidth 32, tick.setWidth 32, (tick >>> 32).setWidth 32,
    (data[0]?).getD 0, (data[1]?).getD 0, (data[2]?).getD 0, (data[3]?).getD 0, (data[4]?).getD 0]

/-- R174: a fatal condition during start-up: the phase becomes FATAL and the PF alone is presented. -/
def State.fatalPhase (s : State) : State :=
  ({ s with boot := { s.boot with vfEnable := false, numVfs := 0 } }).changePhase phFatal 5

/-- R1039, R1040: a supplied module which is not in reset records its first fatal condition. -/
theorem State.enterFatal_of_supplied {s : State} (hs : s.supplied = true) (hf : s.boot.fatal = false)
    (hr : s.boot.inReset = false) (cause : BitVec 8) (unit : W16) (data : List W32) :
    ∃ (starting : Bool) (u : State) (bits : BitVec 12),
      u = (if starting then s.stopWork.fatalPhase else s.stopWork) ∧ (s.boot.phase = phReady → starting = false) ∧
      bits.getLsbD 11 = true ∧
      s.enterFatal cause unit data =
        ({ u with boot := { u.boot with fatal := true, fatalLog := fatalWords s.tick cause unit data } }).raiseAll bits := by
  have hgo : ¬ (s.boot.fatal || s.boot.inReset || !(s.sup.power == .standby || s.sup.power == .active)) = true := by
    rw [hf, hr, show (s.sup.power == .standby || s.sup.power == .active) = true from hs]
    decide
  refine ⟨!(s.boot.phase == phReady || s.boot.phase == phRecovery || s.boot.phase == phFailed), _,
    if !(s.boot.phase == phReady || s.boot.phase == phRecovery || s.boot.phase == phFailed)
      then causeFatal ||| causeStart else causeFatal, rfl, fun h => by rw [h]; rfl, by split <;> rfl, ?_⟩
  unfold enterFatal
  rw [if_neg hgo]
  rfl

/-- R240, R246, R1040: what holds once a fatal condition is recorded. -/
theorem State.enterFatal_entered {s : State} (hs : s.supplied = true) (hf : s.boot.fatal = false)
    (hr : s.boot.inReset = false) (cause : BitVec 8) (unit : W16) (data : List W32) :
    FatalEntered s (s.enterFatal cause unit data) (0x80000000 ||| (cause.setWidth 32 <<< 16) ||| unit.setWidth 32)
      ((data[0]?).getD 0) ((data[1]?).getD 0) := by
  obtain ⟨starting, u, bits, hu, hready, hbits, he⟩ := enterFatal_of_supplied hs hf hr cause unit data
  have hstopped : u.outst = [] ∧ u.runs = [] ∧ u.chans = [] := by
    rw [hu]
    split <;> exact ⟨rfl, rfl, rfl⟩
  obtain ⟨houtst, hruns, hchans⟩ := hstopped
  have hphase : s.boot.phase = phReady → u.boot.phase = phReady := fun h => by
    rw [hu, hready h]
    exact h
  rw [he]
  have hkeep := State.raiseAll_frame
    { u with boot := { u.boot with fatal := true, fatalLog := fatalWords s.tick cause unit data } } bits
  have hboot := hkeep .boot (by decide)
  exact {
    fatal := by rw [hboot]
    word0 := by rw [hboot]; rfl
    tickLo := by rw [hboot]; rfl
    tickHi := by rw [hboot]; rfl
    word3 := by rw [hboot]; rfl
    word4 := by rw [hboot]; rfl
    outst := Eq.trans (hkeep .outst (by decide)) houtst
    runs := Eq.trans (hkeep .runs (by decide)) hruns
    chans := Eq.trans (hkeep .chans (by decide)) hchans
    raised := fun n => State.raiseAll_sets_bit _ n hbits (causeFatal_valid n)
    phase := fun h => by rw [hboot]; exact hphase h
    unserved := State.not_queueServed_of_fatal (by rw [hboot]) }

/-- Settles O37. -/
theorem fatalConditions : Obligations.FatalConditions := by
  unfold Obligations.FatalConditions
  intro s hs hf hr
  refine ⟨fun a op => ⟨_, rfl, ?_⟩, fun a => ⟨_, rfl, ?_⟩, fun pll a => ⟨_, rfl, ?_⟩, fun a => ⟨_, rfl, ?_⟩,
    fun a => ⟨_, rfl, ?_⟩⟩
  · exact State.enterFatal_entered hs hf hr 1 0x0A00 [a, op.setWidth 32]
  · exact State.enterFatal_entered hs hf hr 2 0x0A00 [a]
  · cases pll
    · exact State.enterFatal_entered hs hf hr 3 0x0B00 [a]
    · exact State.enterFatal_entered hs hf hr 3 0x1000 [a]
  · exact State.enterFatal_entered hs hf hr 6 0x0B00 [a]
  · exact State.enterFatal_entered hs hf hr 7 0x0A00 [a]

end Sys2Proof.Machine
end

section
/-!
PROOFS. The pool: grants, zeroing and starvation (R691, R693, R696, R699, R705, R706), and what settles after them.
-/

namespace Sys2Proof.Machine

/-! ### What settling the pool leaves alone -/

/-- The buffers, the pool's granules and the Geode memory are the same in two states. -/
structure SameBuffers (s t : State) : Prop where
  bufs : t.geo.bufs = s.geo.bufs
  granules : t.geo.poolGranules = s.geo.poolGranules
  mem : t.geo.mem = s.geo.mem

theorem SameBuffers.of_eq {s t : State} (h : t.geo = s.geo) : SameBuffers s t := ⟨by rw [h], by rw [h], by rw [h]⟩

theorem SameBuffers.of_only {ks : List Comp} {s t : State} (h : ChangesOnly ks s t) (hk : Comp.geo ∉ ks) :
    SameBuffers s t := .of_eq (h .geo hk)

theorem SameBuffers.trans {r s t : State} (h : SameBuffers r s) (g : SameBuffers s t) : SameBuffers r t :=
  ⟨g.bufs.trans h.bufs, g.granules.trans h.granules, g.mem.trans h.mem⟩

theorem State.occurAll_sameBuffers (s : State) (l : List FnNo) (e : W16) (a b : W64) :
    SameBuffers s (s.occurAll l e a b) := .of_only (s.occurAll_frame l e a b) (by decide)

/-- R712: a pool which becomes short, or stops being short, has the buffers it had. -/
theorem State.noteShort_sameBuffers (s : State) : SameBuffers s s.noteShort := by
  unfold noteShort
  split
  · split
    · refine SameBuffers.trans ?_ (occurAll_sameBuffers _ _ _ _ _)
      exact ⟨rfl, rfl, rfl⟩
    · exact .of_eq rfl
  · split
    · exact .of_eq rfl
    · refine SameBuffers.trans ?_ (occurAll_sameBuffers _ _ _ _ _)
      exact ⟨rfl, rfl, rfl⟩

/-- Shortage, waiting and credits follow a change of holdings, and change no buffer. -/
theorem State.settlePool_sameBuffers (s : State) : SameBuffers s s.settlePool := by
  have hrest : ChangesOnly (Comp.allBut [.geo]) s.noteShort s.settlePool := by
    unfold settlePool
    refine (forEach_only (fun c u => ?_) _ _).2 ?_
    · split
      · apply advertise_only <;> decide
      · rfl
    · exact (noteWaits_only _ (by decide)).2 (ChangesOnly.refl _ _)
  exact s.noteShort_sameBuffers.trans (.of_only hrest (by decide))

theorem State.areaCredit_frame (s : State) : ChangesOnly [.ports, .out] s s.areaCredit :=
  by simp (disch := decide) only [areaCredit_only, changesOnly_self]

/-- R996: nothing moves from an empty area. -/
theorem State.drainArea_of_empty {s : State} (h : s.lock.area = []) : s.drainArea = s.areaCredit := by
  unfold drainArea
  rw [h]
  rfl

/-! ### Grants, zeroing, starvation -/

theorem State.grantOne_of_grantee {s : State} {c b : Nat} (h : s.grantee = some b) :
    s.grantOne c = s.modBufs fun l => insertBuf l { num := b, state := .allotted, chan := c, frame := 0, copy := false } := by
  unfold grantOne
  rw [h]

/-- R699: a grant gives its buffer to the channel served next; settling what follows changes no buffer. -/
theorem grant_sameBuffers {s : State} {c : Chan} {b : Nat} (hc : s.nextGrant = some c) (hb : s.grantee = some b)
    (ha : s.lock.area = []) :
    SameBuffers (s.modBufs fun l => insertBuf l { num := b, state := .allotted, chan := c.num, frame := 0, copy := false })
      (grant s) := by
  have hsettled := State.settlePool_sameBuffers (s.grantOne c.num)
  have hlock : (s.grantOne c.num).settlePool.lock = s.lock := by
    have hframe : ChangesOnly (Comp.allBut [.lock]) s (s.grantOne c.num).settlePool := by
      simp (disch := decide) only [settlePool_only, grantOne_only, changesOnly_self]
    exact hframe .lock (by decide)
  unfold grant
  rw [hc]
  dsimp only
  rw [State.drainArea_of_empty (by rw [hlock, ha]), ← State.grantOne_of_grantee hb]
  exact hsettled.trans (.of_only (State.areaCredit_frame _) (by decide))

theorem State.any_zeroing {s : State} {n : Nat} (h : ∃ b ∈ s.geo.bufs, b.num = n ∧ b.state = .zeroing) :
    (s.geo.bufs.any fun b => b.num = n && b.state == .zeroing) = true := by
  obtain ⟨b, hb, hn, hz⟩ := h
  exact List.any_eq_true.2 ⟨b, hb, by simp [hn, hz]⟩

theorem zeroingComplete_of_zeroing {s : State} {n : Nat} (h : ∃ b ∈ s.geo.bufs, b.num = n ∧ b.state = .zeroing) :
    zeroingComplete n s = (s.modBufs fun l => l.filter fun b => b.num ≠ n).settlePool :=
  if_pos (State.any_zeroing h)

/-- R705, R706: a channel which starves is told of once, at the end of its period. -/
theorem poolStarved_of_starving {s : State} {c : Nat} {x : Chan} {since : Tick} (hx : s.chan c = some x)
    (hsince : x.starvedSince = some since) (hsent : x.starvedSent = false) :
    poolStarved c s = ((s.reach (since + BitVec.ofNat 64 x.period)).modChan c fun y => { y with starvedSent := true }).occur
      x.stratum 0x2004 (BitVec.ofNat 64 c)
      (BitVec.ofNat 64 ((s.reach (since + BitVec.ofNat 64 x.period)).allotment c + 2 ^ 16 * x.cap)) := by
  unfold poolStarved
  rw [hx]
  dsimp only
  rw [hsince]
  dsimp only
  rw [if_neg (by rw [hsent]; decide)]

/-- Settles O15. -/
theorem poolEvents : Obligations.PoolEvents := by
  unfold Obligations.PoolEvents
  refine ⟨fun s c b hc hb ha => ?_, fun n s h => ?_, fun c x since s hx hsince hsent => ?_⟩
  · have hkeep := grant_sameBuffers hc hb ha
    exact ⟨grant s, rfl, hkeep.bufs, hkeep.granules, hkeep.mem⟩
  · have hkeep := State.settlePool_sameBuffers (s.modBufs fun l => l.filter fun b => b.num ≠ n)
    exact ⟨_, congrArg Host.Outcome.next (zeroingComplete_of_zeroing h), hkeep.bufs, hkeep.granules, hkeep.mem⟩
  · have hreach := s.reach_frame (since + BitVec.ofNat 64 x.period)
    have hallot : (s.reach (since + BitVec.ofNat 64 x.period)).allotment c = s.allotment c := by
      unfold State.allotment
      rw [hreach .geo (by decide)]
    refine ⟨_, (s.reach (since + BitVec.ofNat 64 x.period)).modChan c fun y => { y with starvedSent := true },
      congrArg Host.Outcome.next (poolStarved_of_starving hx hsince hsent), by rw [hallot], ?_, rfl, ?_⟩
    · unfold State.modChan
      rw [hreach .chans (by decide)]
    · exact (hreach.mono (by decide)).trans ((modChan_only _ _ _ (by decide)).2 (ChangesOnly.refl _ _))

end Sys2Proof.Machine
end

section
/-!
PROOFS. Launches at a tick, barriers, waits and result rings (R415, R419 to R421, R424, R987).
-/

namespace Sys2Proof.Machine

/-! ### Programs -/

theorem State.prog_of_progs {s t : State} (h : t.progs = s.progs) (n : FnNo) (pid : Nat) :
    t.prog n pid = s.prog n pid := by
  unfold prog
  rw [h]

/-- A program which changes, but not its stratum and number, is the one found under them. -/
theorem State.prog_modProg {s : State} {n : FnNo} {pid : Nat} {x : Prog} {f : Prog → Prog}
    (hf : ∀ p, (f p).stratum = p.stratum ∧ (f p).id = p.id) (h : s.prog n pid = some x) :
    (s.modProg n pid f).prog n pid = some (f x) := by
  have hx : x.stratum = n ∧ x.id = pid := by simpa using List.find?_some h
  have hsame : ((fun p : Prog => p.stratum == n && p.id == pid) ∘
      fun p => if p.stratum = n ∧ p.id = pid then f p else p) = fun p => p.stratum == n && p.id == pid := by
    funext p
    dsimp only [Function.comp]
    split
    · rw [(hf p).1, (hf p).2]
    · rfl
  unfold prog modProg
  rw [List.find?_map, hsame, show List.find? _ s.progs = some x from h, Option.map_some, if_pos hx]

/-! ### Launches at a tick, barriers, waits -/

/-- R415, R987: the launch whose tick comes first of a stratum's. -/
theorem startTick_of_first {n : FnNo} {d : Scheduled} {s : State}
    (h : ((s.scheduled.filter fun e => e.stratum == n).find? fun d =>
      (s.scheduled.filter fun e => e.stratum == n).all fun e => decide (d.start ≤ e.start)) = some d) :
    startTick n s = (({ s.reach d.start with
      scheduled := (s.reach d.start).scheduled.filter fun e => e.id ≠ d.id
      nextLaunch := (s.reach d.start).nextLaunch + 1 } : State).launchProg n d.prog
        { d.terms with serial := (s.reach d.start).nextLaunch }).completeOk d.id 0 0 := by
  unfold startTick
  dsimp only
  rw [h]

theorem State.completeOk_frame (s : State) (id : Nat) (r0 r1 : W64) :
    ChangesOnly [.waits, .fns, .outst, .out] s (s.completeOk id r0 r1) := s.complete_frame id stOk 0 r0 r1 0

theorem barrierDone_of_met {n : FnNo} {b : BarrierWait} {s : State}
    (h : (s.barriers.find? fun b => b.stratum == n && s.barrierMet b) = some b) :
    barrierDone n s = ({ s with barriers := s.barriers.filter fun x => x.id ≠ b.id }).completeOk b.id 0 0 := by
  unfold barrierDone
  rw [h]

theorem endWait_of_end {n : FnNo} {k : Nat} {w : EvWait} {e : Tick × Bool} {s : State}
    (hw : (s.waits.filter fun w => w.stratum == n)[k]? = some w) (he : s.waitEnd w = some e) :
    endWait n k s = (({ s.reach e.1 with waits := s.waits.filter fun x => x.id ≠ w.id }).completeOk w.id (s.reach e.1).tick
      (if e.2 then 1 else 0)) := by
  unfold endWait
  rw [hw]
  dsimp only
  rw [he]
  dsimp only
  rw [show (s.reach e.1).waits = s.waits from s.reach_frame e.1 .waits (by decide)]

/-! ### Result rings -/

/-- The items which the area of a lock-step pair holds in the second state it holds in the first. -/
def AreaShrinks (s t : State) : Prop := ∀ i ∈ t.lock.area, i ∈ s.lock.area

theorem AreaShrinks.trans {r s t : State} (h : AreaShrinks r s) (g : AreaShrinks s t) : AreaShrinks r t :=
  fun i hi => h i (g i hi)

theorem AreaShrinks.of_only {ks : List Comp} {s t : State} (h : ChangesOnly ks s t) (hk : Comp.lock ∉ ks) :
    AreaShrinks s t := fun i hi => by rwa [h .lock hk] at hi

theorem AreaShrinks.forEach {α : Type} {f : α → State → State} (h : ∀ a t, AreaShrinks t (f a t)) (l : List α)
    (s : State) : AreaShrinks s (s.forEach l f) := by
  unfold State.forEach
  induction l generalizing s with
  | nil => exact fun _ hi => hi
  | cons a l ih => exact (h a s).trans (ih (f a s))

theorem AreaShrinks.nil {s t : State} (h : AreaShrinks s t) (hs : s.lock.area = []) : t.lock.area = [] :=
  List.eq_nil_iff_forall_not_mem.2 fun i hi => by simpa [hs] using h i hi

theorem AreaShrinks.modLock_filter (s : State) (q : FwdItem → Bool) (g : Lock → List Nat) :
    AreaShrinks s (s.modLock fun l => { l with area := l.area.filter q, rejoin := g l }) :=
  fun _ hi => (List.mem_filter.1 hi).1

/-- R395, R996: a channel which is unbound takes its own items from the area, and brings none. -/
theorem State.unbindNow_areaShrinks (s : State) (c : Nat) : AreaShrinks s (s.unbindNow c) := by
  have hsettle : ∀ t u : State, AreaShrinks t (State.reclaimAll t u).settlePool := fun t u =>
    .of_only (ks := Comp.allBut [.lock]) (by simp [settlePool_only, reclaimAll_only, changesOnly_self]) (by decide)
  unfold unbindNow
  split
  · exact fun _ hi => hi
  · refine AreaShrinks.trans (AreaShrinks.trans ?_ (.modLock_filter _ _ _)) (hsettle _ _)
    refine .of_only (ks := Comp.allBut [.lock]) ?_ (by decide)
    simp [↓releaseParts_only, ↓upd_deliveries_runs_chans_loaded_only, ↓forEach_only, ↓zeroBuf_only, ↓emit_only,
      ↓modPort_only, ↓dropFrame_only, ↓dropOpen_only, ↓ite_only, ite_self, changesOnly_self]

theorem State.endUnbind_areaShrinks (s : State) (c : Nat) : AreaShrinks s (s.endUnbind c) := by
  unfold endUnbind
  split
  · exact fun _ hi => hi
  · split
    · exact fun _ hi => hi
    · split
      · refine AreaShrinks.trans ?_ (.of_only (State.completeOk_frame _ _ _ _) (by decide))
        refine AreaShrinks.trans (.of_only (ks := Comp.allBut [.lock]) ?_ (by decide)) (unbindNow_areaShrinks _ _)
        simp (disch := decide) only [dropOpen_only, changesOnly_self]
      · exact fun _ hi => hi

theorem State.endUnbinds_areaShrinks (s : State) : AreaShrinks s s.endUnbinds :=
  .forEach (fun c t => t.endUnbind_areaShrinks c) _ _

/-- R419: a program whose ring has entries released up to an index. -/
def Prog.releaseRing (v : W64) (freed : Nat) (x : Prog) : Prog :=
  { x with ring := { x.ring with head := v.toNat, unreleased := x.ring.unreleased - freed } }

/-- R419: with no result which waits, a ring whose entries are released is only pumped dry. -/
theorem ringRelease_of_released {n : FnNo} {pid : Nat} {v : W64} {p : Prog} {l : Launch} {s : State}
    (hp : s.prog n pid = some p) (hl : p.launch = some l) (hv : v.toNat < 2 ^ l.ringLog2)
    (hfreed : (v.toNat + 2 ^ l.ringLog2 - p.ring.head) % 2 ^ l.ringLog2 ≤ p.ring.unreleased) (hw : p.ring.waiting = []) :
    ringRelease n pid v s = (s.modProg n pid
      (Prog.releaseRing v ((v.toNat + 2 ^ l.ringLog2 - p.ring.head) % 2 ^ l.ringLog2))).settlePool.endUnbinds := by
  have hgo : ¬ (2 ^ l.ringLog2 ≤ v.toNat ∨
      p.ring.unreleased < (v.toNat + 2 ^ l.ringLog2 - p.ring.head) % 2 ^ l.ringLog2) := by omega
  have hmod : (s.modProg n pid fun x => { x with ring := { x.ring with
      head := v.toNat, unreleased := x.ring.unreleased - (v.toNat + 2 ^ l.ringLog2 - p.ring.head) % 2 ^ l.ringLog2 }
      }).prog n pid = some (p.releaseRing v ((v.toNat + 2 ^ l.ringLog2 - p.ring.head) % 2 ^ l.ringLog2)) :=
    State.prog_modProg (fun _ => ⟨rfl, rfl⟩) hp
  unfold ringRelease
  rw [hp]
  dsimp only
  rw [hl]
  dsimp only
  rw [if_neg hgo, State.pumpRing, hmod]
  dsimp only [Prog.releaseRing]
  rw [hw]
  rfl

/-- R996: what follows a released ring moves nothing out of an empty area, and leaves the programs alone. -/
theorem State.settled_drainArea_frame {s : State} (h : s.lock.area = []) :
    ChangesOnly (Comp.allBut [.progs]) s s.settlePool.endUnbinds.drainArea := by
  have hsettle : ChangesOnly (Comp.allBut [.lock]) s s.settlePool := by
    simp [settlePool_only, changesOnly_self]
  have hempty := ((AreaShrinks.of_only hsettle (by decide)).trans (endUnbinds_areaShrinks _)).nil h
  rw [drainArea_of_empty hempty]
  simp [areaCredit_only, endUnbinds_only, settlePool_only, changesOnly_self]

theorem announceTimeout_of_unannounced {n : FnNo} {pid : Nat} {p : Prog} {l : Launch} {s : State}
    (hp : s.prog n pid = some p) (hl : p.launch = some l) (hv : l.vector ≠ 0) (hu : p.ring.unannounced ≠ 0) :
    announceTimeout n pid s = ((s.reach (p.ring.oldest + 80000)).modProg n pid fun x => { x with
      ring := { x.ring with unannounced := 0 } }).sendMsix n (Fin.ofNat 64 l.vector) := by
  unfold announceTimeout
  rw [hp]
  dsimp only
  rw [hl]
  dsimp only
  rw [if_neg fun h => h.elim hv hu]

theorem State.sendMsix_frame (s : State) (n : FnNo) (v : Fin 64) : ChangesOnly [.fns, .out] s (s.sendMsix n v) := by
  simp (disch := decide) only [sendMsix_only, changesOnly_self]

/-- R420: results which are announced are waited for no longer, and their message is sent where nothing masks it. -/
theorem State.announced {n : FnNo} {pid : Nat} {p : Prog} {s u : State} (hreach : ChangesOnly [.tick] s u)
    (hp : s.prog n pid = some p) (v : Nat) :
    ∃ t, t = (u.modProg n pid fun x => { x with ring := { x.ring with unannounced := 0 } }).sendMsix n (Fin.ofNat 64 v) ∧
      t.prog n pid = some { p with ring := { p.ring with unannounced := 0 } } ∧ t.tick = u.tick ∧
      (s.fns[n].busMaster = true → s.fns[n].functionMask = false →
        s.fns[n].msix[(Fin.ofNat 64 v : Fin 64)].masked = false → s.boot.linkL0 = true →
        ∃ a d, Emit.msix n (v % 64) a d ∈ t.out) := by
  have hsent := State.sendMsix_frame (u.modProg n pid fun x => { x with ring := { x.ring with unannounced := 0 } }) n
    (Fin.ofNat 64 v)
  refine ⟨_, rfl, ?_, hsent .tick (by decide), fun hbm hmask hentry hlink => ?_⟩
  · rw [State.prog_of_progs (hsent .progs (by decide))]
    exact State.prog_modProg (fun _ => ⟨rfl, rfl⟩) (by rw [State.prog_of_progs (hreach .progs (by decide)), hp])
  · have hfns : u.fns = s.fns := hreach .fns (by decide)
    have hboot : u.boot = s.boot := hreach .boot (by decide)
    have hopen : (u.modProg n pid fun x => { x with ring := { x.ring with unannounced := 0 } }).msixOpen n
        (Fin.ofNat 64 v) := by
      unfold State.msixOpen State.modProg
      rw [hfns, hboot]
      exact ⟨hlink, hbm, hmask, hentry⟩
    rw [State.sendMsix_of_msixOpen hopen]
    exact ⟨_, _, State.mem_emit_out hopen.1 _⟩

/-- Settles O25. -/
theorem launchesAndWaits : Obligations.LaunchesAndWaits := by
  unfold Obligations.LaunchesAndWaits
  refine ⟨fun n d x s hd hx => ?_, fun n b s h => congrArg Host.Outcome.next (barrierDone_of_met h),
    fun n k w e s hw he => congrArg Host.Outcome.next (endWait_of_end hw he),
    fun n pid v p l s hp hl hv hfreed hw ha => ?_, fun n pid p l s hp hl hv hu => ?_⟩
  · have hreach := s.reach_frame d.start
    have hserial := hreach .nextLaunch (by decide)
    have hscheduled := hreach .scheduled (by decide)
    have hfound : (s.reach d.start).prog n d.prog = some x := by
      rw [State.prog_of_progs (hreach .progs (by decide)), hx]
    have hlaunched := State.prog_modProg (s := { s.reach d.start with
        scheduled := (s.reach d.start).scheduled.filter fun e => e.id ≠ d.id
        nextLaunch := (s.reach d.start).nextLaunch + 1 })
      (f := fun x => { x with launch := some { d.terms with serial := (s.reach d.start).nextLaunch }, ring := ResultRing.empty })
      (fun _ => ⟨rfl, rfl⟩) hfound
    have hdone := State.completeOk_frame (({ s.reach d.start with
        scheduled := (s.reach d.start).scheduled.filter fun e => e.id ≠ d.id
        nextLaunch := (s.reach d.start).nextLaunch + 1 } : State).launchProg n d.prog
          { d.terms with serial := (s.reach d.start).nextLaunch }) d.id 0 0
    have htick : _ = (s.reach d.start).tick := hdone .tick (by decide)
    refine ⟨_, _, congrArg Host.Outcome.next (startTick_of_first hd), ?_, ?_, ?_,
      (State.prog_of_progs (hdone .progs (by decide)) n d.prog).trans hlaunched, ?_, ?_, State.not_mem_complete_outst⟩
    · rw [htick]
      exact s.le_reach_tick d.start
    · rw [htick]
      exact s.tick_le_reach_tick d.start
    · rw [← hscheduled]
      exact hdone .scheduled (by decide)
    · rw [← hserial]
    · rw [← hserial]
      exact hdone .nextLaunch (by decide)
  · refine ⟨_, congrArg (fun t : State => Host.Outcome.next t.drainArea) (ringRelease_of_released hp hl hv hfreed hw), ?_⟩
    rw [State.prog_of_progs (State.settled_drainArea_frame (by exact ha) .progs (by decide))]
    exact State.prog_modProg (fun _ => ⟨rfl, rfl⟩) hp
  · obtain ⟨t, ht, hprog, htick, hmsix⟩ := State.announced (s.reach_frame (p.ring.oldest + 80000)) hp l.vector
    have hsent := (announceTimeout_of_unannounced hp hl hv hu).trans ht.symm
    refine ⟨t, congrArg Host.Outcome.next hsent, hprog, ?_, ?_, hmsix⟩
    · rw [htick]
      exact s.tick_le_reach_tick _
    · rw [htick]
      exact s.le_reach_tick _

end Sys2Proof.Machine
end

section
/-!
PROOFS. The marks of units: what fences and retires a unit, and that a fence, a CUT and what follows from them take no
unit's mark away (R127, R129, R1010, R1012).
-/

namespace Sys2Proof.Machine

/-! ### One unit changes -/

@[simp] theorem State.modUnit_unitSt (s : State) (u : Unit_) (f : UnitSt → UnitSt) :
    (s.modUnit u f).unitSt u = f (s.unitSt u) := by
  cases u <;> exact vmod_get _ _ _

theorem State.modUnit_unitSt_ne (s : State) {u v : Unit_} (f : UnitSt → UnitSt) (h : v ≠ u) :
    (s.modUnit u f).unitSt v = s.unitSt v := by
  cases u with
  | cluster c => cases v with
    | cluster d => exact vmod_get_ne _ _ fun e => h (by rw [e])
    | _ => rfl
  | bank c => cases v with
    | bank d => exact vmod_get_ne _ _ fun e => h (by rw [e])
    | _ => rfl
  | slate c => cases v with
    | slate d => exact vmod_get_ne _ _ fun e => h (by rw [e])
    | _ => rfl
  | copy c => cases v with
    | copy d => exact vmod_get_ne _ _ fun e => h (by rw [e])
    | _ => rfl
  | port c => cases v with
    | port d => exact vmod_get_ne _ _ fun e => h (by rw [e])
    | _ => rfl
  | lane c => cases v with
    | lane d => exact vmod_get_ne _ _ fun e => h (by rw [e])
    | _ => rfl
  | ext c => cases v with
    | ext d => exact vmod_get_ne _ _ fun e => h (by rw [e])
    | _ => rfl
  | ctrl c => cases v with
    | ctrl d => exact vmod_get_ne _ _ fun e => h (by rw [e])
    | _ => rfl
  | seg c => cases v with
    | seg d => exact vmod_get_ne _ _ fun e => h (by rw [e])
    | _ => rfl

theorem State.unitSt_of_units {s t : State} (h : t.units = s.units) (u : Unit_) : t.unitSt u = s.unitSt u := by
  cases u <;> simp only [unitSt, h]

/-! ### Marks are kept -/

/-- A unit which is fenced, or retired, in the first state is so in the second. -/
def MarksKept (s t : State) : Prop :=
  ∀ u, ((s.unitSt u).fenced = true → (t.unitSt u).fenced = true) ∧
    ((s.unitSt u).retired = true → (t.unitSt u).retired = true)

theorem MarksKept.refl (s : State) : MarksKept s s := fun _ => ⟨id, id⟩

theorem MarksKept.trans {r s t : State} (h : MarksKept r s) (g : MarksKept s t) : MarksKept r t :=
  fun u => ⟨fun k => (g u).1 ((h u).1 k), fun k => (g u).2 ((h u).2 k)⟩

theorem MarksKept.of_units {s t : State} (h : t.units = s.units) : MarksKept s t := fun u => by
  rw [State.unitSt_of_units h]
  exact ⟨id, id⟩

theorem MarksKept.of_only {ks : List Comp} {s t : State} (h : ChangesOnly ks s t) (hk : Comp.units ∉ ks) :
    MarksKept s t := .of_units (h .units hk)

/-- An operation whose law asks for no right to change the units keeps their marks. -/
theorem MarksKept.of_law {s t : State}
    (h : ChangesOnly (Comp.allBut [.units]) s t ↔ ChangesOnly (Comp.allBut [.units]) s s) : MarksKept s t :=
  .of_only (h.2 (ChangesOnly.refl _ _)) (by decide)

theorem MarksKept.forEach {α : Type} {f : α → State → State} (h : ∀ a t, MarksKept t (f a t)) (l : List α)
    (s : State) : MarksKept s (s.forEach l f) := by
  unfold State.forEach
  induction l generalizing s with
  | nil => exact .refl s
  | cons a l ih => exact (h a s).trans (ih (f a s))

/-- A change of one unit which takes neither mark away. -/
theorem State.modUnit_marksKept (s : State) (u : Unit_) {f : UnitSt → UnitSt}
    (hf : ∀ x, (x.fenced = true → (f x).fenced = true) ∧ (x.retired = true → (f x).retired = true)) :
    MarksKept s (s.modUnit u f) := fun v => by
  by_cases h : v = u
  · subst h
    rw [modUnit_unitSt]
    exact hf _
  · rw [modUnit_unitSt_ne _ _ h]
    exact ⟨id, id⟩

/-! ### Ports which leave service -/

theorem State.fenceLane_marksKept (s : State) (l : LaneNo) (cause : BitVec 8) : MarksKept s (s.fenceLane l cause).1 := by
  have hmark := s.modUnit_marksKept (.lane l) (f := fun u => { u with fenced := true, passed := false })
    fun x => ⟨fun _ => rfl, id⟩
  refine hmark.trans (.of_only (ks := Comp.allBut [.units]) ?_ (by decide))
  unfold fenceLane
  simp only [fault_only, Comp.mem_allBut, List.mem_singleton, reduceCtorEq, not_false_eq_true]
  exact ChangesOnly.refl _ _

theorem State.fenceLanes_marksKept (s : State) (ls : List LaneNo) : MarksKept s (s.fenceLanes ls) :=
  .forEach (fun l t => t.fenceLane_marksKept l 6) _ _

theorem State.complete_marksKept (s : State) (id : Nat) (st d : W16) (r0 r1 : W64) (data : BitVec 192) :
    MarksKept s (s.complete id st d r0 r1 data) := .of_only (s.complete_frame id st d r0 r1 data) (by decide)

theorem State.endLaneFence_marksKept (s : State) (id : Nat) (l : LaneNo) : MarksKept s (s.endLaneFence id l) := by
  unfold endLaneFence
  split
  · exact complete_marksKept _ _ _ _ _ _ _
  · refine (s.fenceLane_marksKept l 0x0A).trans (.of_only (ks := Comp.allBut [.units]) ?_ (by decide))
    simp [completeOk_only, modPort_only, unitFailed_only, changesOnly_self]

theorem State.portCommandEnds_marksKept (s : State) (p : PortNo) (id : Nat) (st : W16) (r0 : W64) :
    MarksKept s (s.portCommandEnds p id st r0) := complete_marksKept _ _ _ _ _ _ _

theorem State.dropWidthChange_marksKept (s : State) (p : PortNo) : MarksKept s (s.dropWidthChange p) := by
  have hport : MarksKept s (s.modPort p fun x => { x with wc := none, farWc := none, widthCmd := none }) := .of_units rfl
  have hchange : ∀ t : State, MarksKept t (match s.ports[p].wc with
      | some w => match w.cause with
        | .command id => t.portCommandEnds p id stLinkDown 0
        | .fence id l => t.endLaneFence id l
        | .failure => t
      | none => t) := fun t => by
    split
    · split
      · exact portCommandEnds_marksKept _ _ _ _ _
      · exact endLaneFence_marksKept _ _ _
      · exact .refl t
    · exact .refl t
  unfold dropWidthChange
  dsimp only
  split
  · exact (hport.trans (hchange _)).trans (portCommandEnds_marksKept _ _ _ _ _)
  · exact hport.trans (hchange _)

theorem MarksKept.ite {s t u : State} {c : Prop} [Decidable c] (h : MarksKept s t) (g : MarksKept s u) :
    MarksKept s (if c then t else u) := by
  split
  · exact h
  · exact g

theorem State.leaveActive_of_not_active {s : State} {p : PortNo} (h : s.ports[p].st ≠ .active) :
    s.leaveActive p = s := if_pos (bne_iff_ne.2 h)

/-- What follows the end of a width change as a port leaves ACTIVE touches no unit. -/
theorem State.leaveActive_of_active {s : State} {p : PortNo} (h : s.ports[p].st = .active) :
    ChangesOnly (Comp.allBut [.units]) (s.dropWidthChange p) (s.leaveActive p) := by
  unfold leaveActive
  rw [if_neg (by rw [h]; decide)]
  dsimp only
  (repeat' split) <;>
    simp [syncLost_only, endPair_only, portCommandEnds_only, modLock_only, changesOnly_self]

theorem State.leaveActive_marksKept (s : State) (p : PortNo) : MarksKept s (s.leaveActive p) := by
  by_cases h : s.ports[p].st = .active
  · exact (s.dropWidthChange_marksKept p).trans (.of_only (leaveActive_of_active h) (by decide))
  · rw [leaveActive_of_not_active h]
    exact .refl s

theorem State.toDisabled_marksKept (s : State) (p : PortNo) (reason : BitVec 8) : MarksKept s (s.toDisabled p reason) := by
  refine (s.leaveActive_marksKept p).trans (.of_only (ks := Comp.allBut [.units]) ?_ (by decide))
  unfold toDisabled
  dsimp only
  split <;>
    simp [complete_only, dropPortFrames_only, modPort_only, modLane_only, forEach_only, dropPortMessages_only,
      portLapseEnds_only, notePort_only, reclaimAll_only, settlePool_only, changesOnly_self]

theorem State.laneLost_marksKept (s : State) (l : LaneNo) : MarksKept s (s.laneLost l) := by
  have hport : MarksKept s (s.modPort (portOf l) fun q => { q with lanes := q.lanes &&& ~~~laneBit l }) := .of_units rfl
  exact .ite (hport.trans (toDisabled_marksKept _ _ _)) hport

/-! ### Fence, CUT and fault -/

/-- What ends with a unit's requests touches no mark. -/
theorem State.endRequests_marksKept (s : State) (u : Unit_) : MarksKept s (s.endRequests u).1 :=
  .of_law (by apply endRequests_only <;> simp)

theorem State.loseCluster_marksKept (s : State) (c : PhysNo) : MarksKept s (s.loseCluster c) :=
  .of_law (by apply loseCluster_only <;> simp)

theorem State.fenceStep_marksKept (s : State) (u : Unit_) : MarksKept s (s.fenceStep u) := by
  cases u with
  | cluster c => exact loseCluster_marksKept s c
  | slate e => exact .of_law (by apply moveContexts_only <;> simp)
  | seg k =>
    refine .forEach (fun c t => MarksKept.trans ?_ (loseCluster_marksKept _ c)) _ _
    exact modUnit_marksKept _ _ fun _ => ⟨fun _ => rfl, fun _ => rfl⟩
  | _ => exact .refl s

theorem State.loseExt_marksKept (s : State) (cs : List ExtNo) : MarksKept s (s.loseExt cs) :=
  .of_law (by apply loseExt_only <;> simp)

theorem State.loseBank_marksKept (s : State) (b : BankNo) : MarksKept s (s.loseBank b) :=
  .of_law (by apply loseBank_only <;> simp)

theorem State.cutCost_marksKept (s : State) (u : Unit_) : MarksKept s (s.cutCost u) := by
  cases u with
  | bank b => exact loseBank_marksKept s b
  | port p =>
    unfold cutCost
    dsimp only
    split
    · exact .refl s
    · exact toDisabled_marksKept s p 0x0B
  | ext c => exact loseExt_marksKept s [c]
  | ctrl k =>
    refine MarksKept.trans (.forEach (fun c t => ?_) _ _) (loseExt_marksKept _ _)
    exact modUnit_marksKept _ _ fun _ => ⟨fun _ => rfl, fun _ => rfl⟩
  | lane l => exact laneLost_marksKept s l
  | _ => exact .refl s

theorem State.cutEffects_marksKept (s : State) (u : Unit_) (emptied : Bool) :
    MarksKept s (s.cutEffects u emptied).1 := by
  have hmoved : ∀ e, MarksKept s (s.moveDeliveries e) := fun e => .of_law (by apply moveDeliveries_only <;> simp)
  have hcost : ∀ t, MarksKept s t → MarksKept s (t.cutCost u) := fun t ht => ht.trans (cutCost_marksKept t u)
  have hended := s.endRequests_marksKept u
  have hdrawn : MarksKept s ((s.endRequests u).1.draw).2 := hended.trans (.of_units rfl)
  unfold cutEffects
  split
  · cases u with
    | copy e => exact hcost (s.moveDeliveries e) (hmoved e)
    | _ =>
      dsimp only
      exact hcost s (.refl s)
  · cases u with
    | slate e | copy e | lane l => exact hcost _ hended
    | _ =>
      dsimp only
      exact hcost _ hdrawn

/-- R127: the CUT of a unit takes no mark away. -/
theorem State.cutStep_marksKept (s : State) (u : Unit_) (emptied : Bool) : MarksKept s (s.cutStep u emptied).1 := by
  refine (s.cutEffects_marksKept u emptied).trans (MarksKept.trans ?_ (.of_law (by apply fenceLapseEnds_only; simp)))
  exact modUnit_marksKept _ _ fun _ => ⟨id, id⟩

/-- R1043: the fault record and UNIT_FAILED of a unit's fence, ahead of its mark. -/
def State.fenceNoted (s : State) (u : Unit_) (cause : BitVec 8) (retire : Bool) (detail : BitVec 224) : State :=
  let r := s.fault 1 cause u.code (strataMask (s.losers u)) (if retire then 2 else 1) (s.logicalByte u) 0xFFFF detail
  r.1.unitFailed u.code cause (if retire then 2 else 1) (s.losers u) r.2

/-- The marks of a unit which is fenced. -/
def UnitSt.fence (retire : Bool) (x : UnitSt) : UnitSt :=
  { x with fenced := true, retired := x.retired || retire, passed := false }

theorem State.fenceNoted_marksKept (s : State) (u : Unit_) (cause : BitVec 8) (retire : Bool) (detail : BitVec 224) :
    MarksKept s (s.fenceNoted u cause retire detail) :=
  .of_law (by simp [fenceNoted, unitFailed_only, fault_only])

/-- What a fence does beside its marks keeps them. -/
theorem State.fenceUnit_marksKept_marked (s : State) (u : Unit_) (cause : BitVec 8) (retire : Bool)
    (detail : BitVec 224) :
    MarksKept ((s.fenceNoted u cause retire detail).modUnit u (UnitSt.fence retire)) (s.fenceUnit u cause retire detail) := by
  refine MarksKept.trans (.of_only (ks := Comp.allBut [.units]) ?_ (by decide)) (fenceStep_marksKept _ u)
  unfold fenceNoted UnitSt.fence
  cases retire <;> cases lapseUnit u <;> simp [recordSystem_only, lapse_only, changesOnly_self]

/-- R1010, R1012: the unit is fenced, and retired where its fence retires it, and no other loses a mark. -/
theorem State.fenceUnit_marks (s : State) (u : Unit_) (cause : BitVec 8) (retire : Bool) (detail : BitVec 224) :
    ((s.fenceUnit u cause retire detail).unitSt u).fenced = true ∧
      (retire = true → ((s.fenceUnit u cause retire detail).unitSt u).retired = true) ∧
      MarksKept s (s.fenceUnit u cause retire detail) := by
  have hrest := s.fenceUnit_marksKept_marked u cause retire detail
  have hmark := (s.fenceNoted u cause retire detail).modUnit_marksKept u (f := UnitSt.fence retire)
    fun x => ⟨fun _ => rfl, fun h => by simp [UnitSt.fence, h]⟩
  refine ⟨(hrest u).1 ?_, fun hr => (hrest u).2 ?_, ((s.fenceNoted_marksKept u cause retire detail).trans hmark).trans hrest⟩
  · rw [modUnit_unitSt]
    rfl
  · rw [modUnit_unitSt, hr]
    exact Bool.or_true _

/-! ### Unit faults -/

/-- R1010: the fault of a unit which is neither retired nor fenced for good: fence, CUT, and the end of its DRAIN. -/
def State.failServing (s : State) (u : Unit_) (cause : BitVec 8) (detail : BitVec 224) : State :=
  let c := (s.fenceUnit u cause true detail).cutStep u false
  match (s.unitSt u).draining with
  | some d => (c.1.modUnit u fun x => { x with draining := none }).completeOk d.1 c.2 0
  | none => c.1

theorem State.failUnit_of_not_lane {u : Unit_} (hu : ∀ l, u ≠ .lane l) (s : State) (cause : BitVec 8)
    (detail : BitVec 224) :
    s.failUnit u cause detail = if (s.unitSt u).retired then s
      else if (s.unitSt u).fenced && (s.unitSt u).draining.isNone then
        (s.modUnit u fun x => { x with retired := true }).recordSystem
      else s.failServing u cause detail := by
  cases u with
  | lane l => exact absurd rfl (hu l)
  | _ => rfl

theorem State.failServing_marks (s : State) (u : Unit_) (cause : BitVec 8) (detail : BitVec 224) :
    ((s.failServing u cause detail).unitSt u).fenced = true ∧ ((s.failServing u cause detail).unitSt u).retired = true ∧
      MarksKept s (s.failServing u cause detail) := by
  obtain ⟨hfenced, hretired, hkept⟩ := s.fenceUnit_marks u cause true detail
  have hcut := (s.fenceUnit u cause true detail).cutStep_marksKept u false
  have hrest : MarksKept (s.fenceUnit u cause true detail) (s.failServing u cause detail) := by
    unfold failServing
    cases (s.unitSt u).draining with
    | none => exact hcut
    | some d =>
      refine hcut.trans (MarksKept.trans ?_ (complete_marksKept _ _ _ _ _ _ _))
      exact modUnit_marksKept _ _ fun _ => ⟨id, id⟩
  exact ⟨(hrest u).1 hfenced, (hrest u).2 (hretired rfl), hkept.trans hrest⟩

theorem State.recordSystem_marksKept (s : State) : MarksKept s s.recordSystem :=
  .of_law (by apply recordSystem_only; simp)

/-- R1010: a unit which is not a lane is retired by a fault, and no unit loses a mark. -/
theorem State.failUnit_marks {u : Unit_} (hu : ∀ l, u ≠ .lane l) (s : State) (cause : BitVec 8) (detail : BitVec 224) :
    ((s.failUnit u cause detail).unitSt u).retired = true ∧ MarksKept s (s.failUnit u cause detail) := by
  rw [failUnit_of_not_lane hu]
  split
  · rename_i h
    exact ⟨h, .refl s⟩
  · split
    · have hkept := recordSystem_marksKept (s.modUnit u fun x => { x with retired := true })
      have hmark := s.modUnit_marksKept u (f := fun x => { x with retired := true }) fun x => ⟨id, fun _ => rfl⟩
      exact ⟨(hkept u).2 (by rw [modUnit_unitSt]), hmark.trans hkept⟩
    · obtain ⟨-, hretired, hkept⟩ := s.failServing_marks u cause detail
      exact ⟨hretired, hkept⟩

/-- R1010: a fault of a unit in service fences it and retires it. -/
theorem State.failUnit_of_up {u : Unit_} (hu : ∀ l, u ≠ .lane l) {s : State} (h : (s.unitSt u).up = true)
    (cause : BitVec 8) (detail : BitVec 224) :
    ((s.failUnit u cause detail).unitSt u).fenced = true ∧ ((s.failUnit u cause detail).unitSt u).retired = true := by
  have hup : (s.unitSt u).retired = false ∧ (s.unitSt u).fenced = false := by simpa [UnitSt.up] using h
  obtain ⟨hretired, hfenced⟩ := hup
  have hmarks := s.failServing_marks u cause detail
  rw [failUnit_of_not_lane hu, hretired, hfenced]
  exact ⟨hmarks.1, hmarks.2.1⟩

end Sys2Proof.Machine
end

section
/-!
PROOFS. The upkeep of external memory (R753 to R757, R759, R760, R762, R764).
-/

namespace Sys2Proof.Machine

/-! ### Tracking and refresh instants -/

/-- The number of ticks until the remainder `r` modulo `m` comes. -/
def ticksTo (t m r : Nat) : Nat := (r + m - t % m) % m

theorem ticksTo_lt {m : Nat} (h : 0 < m) (t r : Nat) : ticksTo t m r < m := Nat.mod_lt _ h

theorem add_ticksTo_mod {m : Nat} (h : 0 < m) (t r : Nat) : (t + ticksTo t m r) % m = r % m := by
  have hlt := Nat.mod_lt t h
  have hsum : t + (r + m - t % m) = r + m + m * (t / m) := by
    have := Nat.mod_add_div t m
    omega
  rw [ticksTo, Nat.add_mod_mod, hsum, Nat.add_mul_mod_self_left, Nat.add_mod_right]

theorem nextTick_toNat {t : Tick} {m r : Nat} (hm : 0 < m) (h : t.toNat + m < 2 ^ 64) :
    (nextTick t m r).toNat = t.toNat + ticksTo t.toNat m r := by
  have hlt := ticksTo_lt hm t.toNat r
  unfold nextTick
  rw [BitVec.toNat_add, BitVec.toNat_ofNat, Nat.mod_eq_of_lt (a := (r + m - t.toNat % m) % m)]
  · exact Nat.mod_eq_of_lt (by unfold ticksTo at hlt; omega)
  · unfold ticksTo at hlt
    omega

/-- The next instant of a channel is the first tick from now on with the channel's remainder. -/
theorem State.reach_nextTick {s : State} {m r : Nat} (hm : 0 < m) (h : s.tick.toNat + m < 2 ^ 64) :
    (s.reach (nextTick s.tick m r)).tick.toNat % m = r % m ∧ s.tick.toNat ≤ (s.reach (nextTick s.tick m r)).tick.toNat ∧
      (s.reach (nextTick s.tick m r)).tick.toNat < s.tick.toNat + m := by
  have hnext := nextTick_toNat (r := r) hm h
  have hlt := ticksTo_lt hm s.tick.toNat r
  have hmod := add_ticksTo_mod hm s.tick.toNat r
  have htick : (s.reach (nextTick s.tick m r)).tick.toNat = s.tick.toNat + ticksTo s.tick.toNat m r := by
    unfold reach
    split
    · exact hnext
    · rename_i hle
      have : (nextTick s.tick m r).toNat ≤ s.tick.toNat := BitVec.not_lt.1 hle
      omega
  rw [htick]
  exact ⟨hmod, by omega, by omega⟩

/-- R753: the tracking instant of a channel in service. -/
theorem track_of_serves {c : ExtNo} {p : Nat} {s : State} (hp : s.position c = some p) (hs : s.channelServes c = true)
    (failure : Bool) :
    track c failure s = if failure then (s.reach (nextTick s.tick (2 ^ 25) (2 ^ 20 * p))).failUnit (.ext c) 7 0
      else s.reach (nextTick s.tick (2 ^ 25) (2 ^ 20 * p)) := by
  unfold track
  rw [hp]
  dsimp only
  rw [if_neg (by rw [hs]; decide)]

theorem State.up_of_channelServes {s : State} {c : ExtNo} (h : s.channelServes c = true) :
    s.units.exts[c].up = true := by
  simp only [channelServes, Bool.and_eq_true] at h
  exact h.1.2

/-- R764: a tracking failure takes the channel out of service. -/
theorem track_failure_down {c : ExtNo} {p : Nat} {s : State} (hp : s.position c = some p)
    (hs : s.channelServes c = true) : (track c true s).units.exts[c].up = false := by
  rw [track_of_serves hp hs, if_pos rfl]
  generalize hu : s.reach (nextTick s.tick (2 ^ 25) (2 ^ 20 * p)) = u
  have hunits : u.units = s.units := hu ▸ s.reach_frame _ .units (by decide)
  have hup : (u.unitSt (.ext c)).up = true := by
    rw [State.unitSt_of_units hunits]
    exact State.up_of_channelServes hs
  have hdown : ((u.failUnit (.ext c) 7 0).units.exts[c]).fenced = true :=
    (State.failUnit_of_up (by simp) hup 7 0).1
  simp only [UnitSt.up, hdown, Bool.not_true, Bool.and_false]

/-! ### Patrol reads -/

theorem patrolRead_of_serves {c : ExtNo} {k : Nat} {s : State} (hs : s.channelServes c = true) (hk : k < s.channelWords)
    (hslot : s.slots.table[s.slotPos] = none) (e : Ecc) : patrolRead c k e s = s.foundWord (c, k) e := by
  unfold patrolRead
  rw [hs, hslot, decide_eq_true hk]
  rfl

/-- R763: telling of a poisoned codeword leaves the poisonings as they are. -/
theorem State.tellPoisoned_poisonings (s : State) (w : ExtNo × Nat) :
    (s.tellPoisoned w).ext.poisoned = s.ext.poisoned ∧ (s.tellPoisoned w).ext.events = s.ext.events := by
  have htold : ∀ t : State, ∀ n e a b, (t.occur n e a b).ext = t.ext := fun t n e a b => by
    have hframe : ChangesOnly [.waits, .fns, .out] t (t.occur n e a b) := by
      simp (disch := decide) only [occur_only, changesOnly_self]
    exact hframe .ext (by decide)
  unfold tellPoisoned
  split
  · exact ⟨rfl, rfl⟩
  · dsimp only
    split <;> simp only [htold, and_self]

/-- R764: the first poisoning of a channel within a second does not fail it. -/
theorem State.not_channelFails {s : State} {c : ExtNo} {e : ExtNo × Nat × Tick}
    (h : s.ext.events.filter (fun e => e.1 == c) = [e]) : s.channelFails c = false := by
  unfold channelFails
  rw [h]
  rfl

/-- R760: a codeword which is found uncorrectable is poisoned, where its channel does not fail with it. -/
theorem State.poison_isPoisoned {s : State} {w : ExtNo × Nat} (h : ∀ e ∈ s.ext.events, e.1 ≠ w.1) :
    (s.poison w).isPoisoned w = true := by
  by_cases hw : s.isPoisoned w = true
  · rw [poison, if_pos hw, hw]
  · have hnone : s.ext.events.filter (fun e => decide (s.tick - e.2.2 < 800000000) && e.1 == w.1) = [] :=
      List.filter_eq_nil_iff.2 fun e he => by simp [h e he]
    rw [poison, if_neg hw]
    dsimp only
    generalize hu : ({ s with
      ext := { s.ext with
        poisoned := s.ext.poisoned ++ [(w.1, w.2, s.tick)]
        events := (s.ext.events.filter fun e => decide (s.tick - e.2.2 < 800000000)) ++ [(w.1, w.2, s.tick)] }
      telem := { s.telem with poisoned := satAdd s.telem.poisoned 1 } } : State) = u
    obtain ⟨hpoisoned, hevents⟩ := u.tellPoisoned_poisonings w
    have hfew : (u.tellPoisoned w).ext.events.filter (fun e => e.1 == w.1) = [(w.1, w.2, s.tick)] := by
      rw [hevents, ← hu]
      simpa [List.filter_append, List.filter_filter, Bool.and_comm] using hnone
    rw [not_channelFails hfew, if_neg (by decide)]
    unfold isPoisoned
    rw [hpoisoned, ← hu]
    simp

/-- Settles O12. -/
theorem externalMemoryUpkeep : Obligations.ExternalMemoryUpkeep := by
  unfold Obligations.ExternalMemoryUpkeep
  refine ⟨fun c s => rfl, fun c p s hp hs hfixed htime => ?_, fun c p s hp hs htime => ?_,
    fun c p s hp hs => ⟨track c true s, rfl, track_failure_down hp hs⟩, fun c k s hs hk hslot => ?_⟩
  · have hrefresh : fixedRefreshAt c s = s.reach (nextTick s.tick 1536 (192 * p)) := by
      unfold fixedRefreshAt
      rw [hp]
      dsimp only
      rw [if_pos (by rw [hs, hfixed]; rfl)]
    obtain ⟨hmod, hle, hlt⟩ := State.reach_nextTick (s := s) (m := 1536) (r := 192 * p) (by decide) htime
    exact ⟨_, congrArg Host.Outcome.next hrefresh, hmod, hle, hlt, s.reach_frame _⟩
  · obtain ⟨hmod, hle, hlt⟩ := State.reach_nextTick (s := s) (m := 2 ^ 25) (r := 2 ^ 20 * p) (by decide) htime
    have htrack := (track_of_serves hp hs false).trans (if_neg (by decide))
    exact ⟨_, congrArg Host.Outcome.next htrack, hmod, hle, hlt, s.reach_frame _⟩
  · have hread := patrolRead_of_serves hs hk hslot
    exact ⟨congrArg Host.Outcome.next (hread .clean), congrArg Host.Outcome.next (hread .corrected), fun hevents =>
      ⟨_, congrArg Host.Outcome.next (hread .uncorrectable), State.poison_isPoisoned hevents⟩⟩

end Sys2Proof.Machine
end

section
/-!
PROOFS. Bytes and control blocks: the number which bytes spell, the fields of a block which is built of its bytes, and its
check byte (R779, R837, R838).
-/

namespace Sys2Proof.Machine

/-! ### Bytes -/

theorem leNat_lt (l : List Byte) : leNat l < 256 ^ l.length := by
  induction l with
  | nil => decide
  | cons b r ih =>
    have hb := b.isLt
    rw [leNat, List.length_cons, Nat.pow_succ]
    omega

theorem leNat_append (a b : List Byte) : leNat (a ++ b) = leNat a + 256 ^ a.length * leNat b := by
  induction a with
  | nil => simp [leNat]
  | cons x r ih =>
    rw [List.cons_append, leNat, leNat, ih, List.length_cons, Nat.pow_succ, Nat.mul_add, Nat.add_assoc,
      Nat.mul_comm (256 ^ r.length) 256, Nat.mul_assoc]

theorem leBytes_succ (n v : Nat) : leBytes (n + 1) v = BitVec.ofNat 8 v :: leBytes n (v / 256) := by
  simp [leBytes, List.range_succ_eq_map, Nat.pow_succ', Nat.div_div_eq_div_mul]

theorem leBytes_leNat (l : List Byte) : leBytes l.length (leNat l) = l := by
  induction l with
  | nil => rfl
  | cons b r ih =>
    have hb : BitVec.ofNat 8 (b.toNat + 256 * leNat r) = b := by
      apply BitVec.eq_of_toNat_eq
      have := b.isLt
      rw [BitVec.toNat_ofNat]
      omega
    rw [List.length_cons, leBytes_succ, leNat, hb]
    congr 1
    rw [show (b.toNat + 256 * leNat r) / 256 = leNat r by have := b.isLt; omega, ih]

theorem leNat_leBytes (n v : Nat) : leNat (leBytes n v) = v % 256 ^ n := by
  induction n generalizing v with
  | zero => simp [leBytes, leNat, Nat.mod_one]
  | succ n ih =>
    rw [leBytes_succ, leNat, ih, BitVec.toNat_ofNat, show 256 ^ (n + 1) = 256 * 256 ^ n from Nat.pow_succ', Nat.mod_mul]

@[simp] theorem length_leBytes (n v : Nat) : (leBytes n v).length = n := by simp [leBytes]

/-! ### Blocks -/

/-- The seven bytes of a block ahead of its check byte. -/
def sevenBytes (bs : List Byte) : List Byte := (bs ++ List.replicate 7 0).take 7

theorem length_sevenBytes (bs : List Byte) : (sevenBytes bs).length = 7 := by simp [sevenBytes]

theorem withChk_toNat (bs : List Byte) :
    (withChk bs).toNat = leNat (sevenBytes bs) + 2 ^ 56 * (crc8 (sevenBytes bs)).toNat := by
  have hl := leNat_lt (sevenBytes bs ++ [crc8 (sevenBytes bs)])
  have hlen := length_sevenBytes bs
  rw [withChk, BitVec.toNat_ofNat, ← sevenBytes, Nat.mod_eq_of_lt, leNat_append, hlen]
  · simp only [leNat, Nat.reducePow, Nat.mul_zero, Nat.add_zero]
  · simpa [hlen] using hl

theorem blockBytes_withChk (bs : List Byte) : (blockBytes (withChk bs)).take 7 = sevenBytes bs := by
  have hb : blockBytes (withChk bs) = sevenBytes bs ++ [crc8 (sevenBytes bs)] := by
    have hlen : (sevenBytes bs ++ [crc8 (sevenBytes bs)]).length = 8 := by
      rw [List.length_append, length_sevenBytes]; rfl
    have h := leBytes_leNat (sevenBytes bs ++ [crc8 (sevenBytes bs)])
    have hlt := leNat_lt (sevenBytes bs ++ [crc8 (sevenBytes bs)])
    rw [hlen] at h hlt
    unfold blockBytes withChk
    dsimp only
    rw [← sevenBytes, BitVec.toNat_ofNat, Nat.mod_eq_of_lt (by simpa using hlt), h]
  rw [hb, List.take_append_of_le_length (Nat.le_of_eq (length_sevenBytes bs).symm),
    List.take_of_length_le (Nat.le_of_eq (length_sevenBytes bs))]

/-- R837: a block which is built with its check byte passes its check. -/
theorem chkOk_withChk (bs : List Byte) : chkOk (withChk bs) = true := by
  have hlt := leNat_lt (sevenBytes bs)
  have hc : (withChk bs).extractLsb' 56 8 = crc8 (sevenBytes bs) := by
    apply BitVec.eq_of_toNat_eq
    have := (crc8 (sevenBytes bs)).isLt
    rw [BitVec.extractLsb'_toNat, withChk_toNat, Nat.shiftRight_eq_div_pow]
    rw [length_sevenBytes] at hlt
    omega
  rw [chkOk, blockBytes_withChk, hc, beq_self_eq_true]

theorem toNat_extractLsb'_eq (w : W64) (k n : Nat) : (w.extractLsb' k n).toNat = w.toNat / 2 ^ k % 2 ^ n := by
  rw [BitVec.extractLsb'_toNat, Nat.shiftRight_eq_div_pow]

/-- A field of a word is zero when the mask of its bits finds nothing. -/
theorem and_fieldMask_eq_zero {w : W64} (k n : Nat) (h : w.toNat / 2 ^ k % 2 ^ n = 0) :
    w &&& (BitVec.ofNat 64 (2 ^ n - 1) <<< k) = 0 := by
  have hbit : ∀ i, i < n → w.getLsbD (k + i) = false := fun i hi => by
    have := congrArg (fun m => m.testBit i) h
    simpa [Nat.testBit_mod_two_pow, hi, Nat.testBit_div_two_pow, BitVec.getLsbD, Nat.add_comm] using this
  apply BitVec.eq_of_getLsbD_eq
  intro i hi
  rw [BitVec.getLsbD_and, BitVec.getLsbD_shiftLeft, BitVec.getLsbD_ofNat, Nat.testBit_two_pow_sub_one]
  by_cases hk : k ≤ i ∧ i - k < n
  · rw [show i = k + (i - k) by omega, hbit _ hk.2]
    simp
  · have : i < k ∨ ¬ i - k < n := by omega
    rcases this with h | h <;> simp [h]

theorem leNat_replicate_zero (n : Nat) : leNat (List.replicate n 0) = 0 := by
  induction n with
  | zero => rfl
  | succ n ih => rw [List.replicate_succ, leNat, ih]; rfl

/-- The bytes after those which are given are zero. -/
theorem leNat_sevenBytes {bs : List Byte} (h : bs.length ≤ 7) : leNat (sevenBytes bs) = leNat bs := by
  rw [sevenBytes, List.take_append, List.take_of_length_le h, List.take_replicate, leNat_append, leNat_replicate_zero,
    Nat.mul_zero, Nat.add_zero]

/-- A block as a number: the bytes which are given, and the check byte. -/
theorem withChk_toNat_of_le {bs : List Byte} (h : bs.length ≤ 7) :
    (withChk bs).toNat = leNat bs + 2 ^ 56 * (crc8 (sevenBytes bs)).toNat := by
  rw [withChk_toNat, leNat_sevenBytes h]

end Sys2Proof.Machine
end

section
/-!
PROOFS. Blocks which a lane in service carries, and tick synchronisation (R455, R790, R881 to R886).
-/

namespace Sys2Proof.Machine

/-! ### A block on a lane in service -/

/-- A block of its type, whose check holds and whose reserved bits are zero, has its effect. -/
theorem rxStriped_of_good {type : Nat} {reserved w : W64} {l : LaneNo} {s : State} (hst : s.ports[portOf l].st = .active)
    (hin : s.ports[portOf l].inUse &&& laneBit l ≠ 0) (htype : w.toNat % 256 = type) (hchk : chkOk w = true)
    (hres : w &&& reserved = 0) (f : State → State) : rxStriped type reserved l w f s = f s := by
  unfold rxStriped
  dsimp only
  rw [if_neg (by rw [hst]; simpa using hin), if_neg (not_not_intro htype), if_neg (by simp [hchk, hres])]

/-! ### SYNC blocks -/

theorem syncBlock_toNat (kind : Nat) (src : Bool) (v : BitVec 40) :
    ∃ c : Nat, (syncBlock kind src v).toNat =
      0x99 + 256 * ((16 * kind + if src then 1 else 0) % 256) + 65536 * v.toNat + 2 ^ 56 * c := by
  have hv := v.isLt
  refine ⟨(crc8 (sevenBytes ([0x99] ++ leBytes 1 (16 * kind + if src then 1 else 0) ++ leBytes 5 v.toNat))).toNat, ?_⟩
  rw [syncBlock, withChk_toNat_of_le (by simp), leNat_append, leNat_append, leNat_leBytes, leNat_leBytes]
  simp only [leNat, List.length_append, List.length_cons, List.length_nil, length_leBytes,
    show (0x99 : Byte).toNat = 0x99 from rfl]
  simp only [Nat.reduceAdd, Nat.reducePow, Nat.mul_zero, Nat.add_zero, Nat.zero_add]
  omega

section
variable (kind : Nat) (src : Bool) (v : BitVec 40)

theorem syncBlock_type : (syncBlock kind src v).toNat % 256 = 0x99 := by
  obtain ⟨c, hc⟩ := syncBlock_toNat kind src v
  omega

theorem syncValue_syncBlock : syncValue (syncBlock kind src v) = v := by
  obtain ⟨c, hc⟩ := syncBlock_toNat kind src v
  have hv := v.isLt
  apply BitVec.eq_of_toNat_eq
  rw [syncValue, toNat_extractLsb'_eq]
  omega

theorem blockKind_syncBlock (h : kind < 16) : blockKind (syncBlock kind src v) = kind := by
  obtain ⟨c, hc⟩ := syncBlock_toNat kind src v
  rw [blockKind, toNat_extractLsb'_eq]
  cases src <;> simp only [Bool.false_eq_true, ↓reduceIte] at hc <;> omega

theorem syncBlock_reserved : syncBlock kind src v &&& 0xE00 = 0 := by
  obtain ⟨c, hc⟩ := syncBlock_toNat kind src v
  refine and_fieldMask_eq_zero 9 3 ?_
  cases src <;> simp only [Bool.false_eq_true, ↓reduceIte] at hc <;> omega

theorem syncBlock_source (kind : Nat) (v : BitVec 40) : (syncBlock kind src v).getLsbD 8 = src := by
  obtain ⟨c, hc⟩ := syncBlock_toNat kind src v
  rw [BitVec.getLsbD, Nat.testBit_eq_decide_div_mod_eq]
  cases src <;> simp only [Bool.false_eq_true, ↓reduceIte, decide_eq_true_eq, decide_eq_false_iff_not] at hc ⊢ <;> omega

end

/-- A SYNC block which this module could send has its effect on a lane in service. -/
theorem rxStriped_syncBlock {l : LaneNo} {s : State} (hst : s.ports[portOf l].st = .active)
    (hin : s.ports[portOf l].inUse &&& laneBit l ≠ 0) (kind : Nat) (src : Bool) (v : BitVec 40) (f : State → State) :
    rxStriped 0x99 0xE00 l (syncBlock kind src v) f s = f s :=
  rxStriped_of_good hst hin (syncBlock_type kind src v) (chkOk_withChk _) (syncBlock_reserved kind src v) f

/-! ### TIME, ECHO and the timers -/

theorem State.rxTime_of_sync {s : State} {p : PortNo} {y : Sync} (hy : s.ports[p].sync = some y) {src : Bool}
    (hrole : s.ports[p].role = 0 → src = false) (v : BitVec 40) :
    s.rxTime p (syncBlock 1 src v) =
      (s.modPort p fun q => { q with sync := some { y with a := some (s.tick.setWidth 40 - v).toInt } }).emit
        (.block p (syncBlock 2 y.source (s.tick.setWidth 40 - v))) := by
  have hown : ¬ ((s.ports[p].role = 0 && (syncBlock 1 src v).getLsbD 8) = true) := by
    rw [syncBlock_source]
    simpa using hrole
  unfold rxTime
  dsimp only
  rw [hy]
  dsimp only
  rw [if_neg hown, syncValue_syncBlock]

theorem State.rxEcho_of_no_time {s : State} {p : PortNo} {y : Sync} (hy : s.ports[p].sync = some y) (ha : y.a = none)
    (w : W64) : s.rxEcho p w = s.modPort p fun q => { q with sync := some { y with lastEcho := s.tick } } := by
  unfold rxEcho
  rw [hy]
  dsimp only
  rw [ha]

theorem State.rxEcho_of_time {s : State} {p : PortNo} {y : Sync} {own : Int} (hy : s.ports[p].sync = some y)
    (ha : y.a = some own) (src : Bool) (v : BitVec 40) : s.rxEcho p (syncBlock 2 src v) =
      s.estimate p y ((if y.source then v.toInt - own else own - v.toInt).tdiv 2) := by
  unfold rxEcho
  rw [hy]
  dsimp only
  rw [ha, syncValue_syncBlock]

/-- The estimate which the third good one in a row leaves with its port (R885). -/
def Sync.settled (y : Sync) (theta : Int) (tick : Tick) : Sync :=
  { y with theta, lastEcho := tick, good := y.good + 1, bad := 0, cmd := none, synced := true }

/-- R884: the tick as the module's own offset moves it. -/
def State.corrected (s : State) (source : Bool) (theta : Int) : State := if source then s else s.correctTick theta

theorem State.corrected_tick (s : State) (source : Bool) (theta : Int) : (s.corrected source theta).tick =
    if source = false ∧ theta < 0 then s.tick + BitVec.ofNat 64 (-theta).toNat else s.tick := by
  unfold corrected correctTick
  cases source
  · by_cases h : theta < 0
    · simp [h]
    · by_cases hp : 0 < theta <;> simp [h, hp]
  · simp

theorem State.corrected_withhold (s : State) (source : Bool) (theta : Int) : (s.corrected source theta).withhold =
    if source = false ∧ 0 < theta then 2 * theta.toNat else s.withhold := by
  unfold corrected correctTick
  cases source
  · by_cases h : theta < 0
    · simp [h, show ¬ 0 < theta by omega]
    · by_cases hp : 0 < theta <;> simp [h, hp]
  · simp

/-- R885: the third good estimate in a row synchronises, and TICK_SYNC completes. -/
theorem State.estimate_settles {s : State} {p : PortNo} {y : Sync} {theta : Int} {i : Nat} (hcmd : y.cmd = some i)
    (hgood : 2 ≤ y.good) (hnear : theta.natAbs ≤ 2) : ∃ u, ChangesOnly [.ports] s u ∧
      s.estimate p y theta = ((u.corrected y.source theta).modPort p fun x =>
        { x with sync := some (y.settled theta s.tick) }).completeOk i 0 0 := by
  refine ⟨s.modPort p fun x => { x with sync := some { y with
    theta, lastEcho := s.tick, good := y.good + 1, bad := 0 } }, ?_, ?_⟩
  · simp [modPort_only, changesOnly_self]
  · unfold estimate corrected
    simp only [hcmd, hnear, decide_true, ↓reduceIte, show 3 ≤ y.good + 1 by omega,
      show decide (8 ≤ 0) = false from rfl, Bool.and_false, Bool.false_eq_true]
    rfl

/-- R886: what ends with synchronisation, beside the port's own record of it. -/
theorem State.syncLost_of_sync {s : State} {p : PortNo} {y : Sync} (hy : s.ports[p].sync = some y) (cause : BitVec 8) :
    ChangesOnly (Comp.allBut [.tick, .ports]) (s.modPort p fun q => { q with
      sync := if cause != 1 && y.cmd.isSome then some { y with synced := false } else none }) (s.syncLost p cause) := by
  unfold syncLost
  rw [hy]
  cases hc : y.cmd <;> simp (disch := decide) only [complete_only, occurAll_only, ite_only, ite_self, hc, changesOnly_self]

theorem State.reach_syncLost {s : State} {p : PortNo} {y : Sync} (hy : s.ports[p].sync = some y) (cause : BitVec 8)
    (due : Tick) : due ≤ ((s.reach due).syncLost p cause).tick ∧ ((s.reach due).syncLost p cause).ports[p].sync =
      if cause != 1 && y.cmd.isSome then some { y with synced := false } else none := by
  have hle := s.le_reach_tick due
  have hports : (s.reach due).ports = s.ports := s.reach_frame due .ports (by decide)
  have hlost := State.syncLost_of_sync (s := s.reach due) (by rw [hports]; exact hy) cause
  constructor
  · rw [hlost .tick (by decide)]
    exact hle
  · rw [hlost .ports (by decide)]
    simp

theorem echoTimeout_of_synced {p : PortNo} {y : Sync} {s : State} (hy : s.ports[p].sync = some y) (hs : y.synced = true) :
    echoTimeout p s = (s.reach (y.lastEcho + 800000)).syncLost p 2 := by
  unfold echoTimeout
  rw [hy]
  dsimp only
  rw [if_pos hs]

theorem syncTimeout_of_cmd {p : PortNo} {y : Sync} {i : Nat} {s : State} (hy : s.ports[p].sync = some y)
    (hc : y.cmd = some i) : syncTimeout p s = ((s.reach (y.began + 8000000)).modPort p fun q => { q with
        sync := none }).complete i stTickUnsynced 0 0 0 ((BitVec.ofInt 64 y.theta).setWidth 192) := by
  unfold syncTimeout
  rw [hy]
  dsimp only
  rw [hc]

/-- Settles O44. -/
theorem tickSynchronisation : Obligations.TickSynchronisation := by
  unfold Obligations.TickSynchronisation
  refine ⟨fun l src v y s hst hin hy hrole => ?_, fun l src v y s hst hin hy => ⟨fun ha => ?_, fun own i ha hc hg hn => ?_⟩,
    fun p y s hst hy => ?_, fun p y s hy hs => ?_, fun p y i s hy hc => ?_⟩
  · have hkind := blockKind_syncBlock 1 src v (by decide)
    refine congrArg Host.Outcome.next ((rxStriped_syncBlock hst hin 1 src v _).trans ?_)
    rw [if_pos hkind, State.rxTime_of_sync hy hrole]
  · have hkind := blockKind_syncBlock 2 src v (by decide)
    refine congrArg Host.Outcome.next ((rxStriped_syncBlock hst hin 2 src v _).trans ?_)
    rw [if_pos hkind, State.rxEcho_of_no_time hy ha]
  · have hkind := blockKind_syncBlock 2 src v (by decide)
    obtain ⟨u, hu, hest⟩ := State.estimate_settles (s := s) (p := portOf l) hc hg hn
    have hexec : exec (.echo l (syncBlock 2 src v)) s = .next _ :=
      congrArg Host.Outcome.next ((rxStriped_syncBlock hst hin 2 src v _).trans
        ((if_pos hkind).trans ((State.rxEcho_of_time hy ha src v).trans hest)))
    generalize (if y.source then v.toInt - own else own - v.toInt).tdiv 2 = theta at *
    have hdone := State.completeOk_frame ((u.corrected y.source theta).modPort (portOf l) fun x =>
        { x with sync := some (y.settled theta s.tick) }) i 0 0
    refine ⟨_, y.settled theta s.tick, hexec, ?_, rfl, rfl, rfl, rfl, rfl, ?_, ?_, State.not_mem_complete_outst⟩
    · rw [hdone .ports (by decide)]
      simp
    · rw [hdone .tick (by decide), State.modPort_tick, State.corrected_tick, hu .tick (by decide)]
      rfl
    · rw [hdone .withhold (by decide), State.modPort_withhold, State.corrected_withhold, hu .withhold (by decide)]
      rfl
  · refine congrArg Host.Outcome.next ?_
    unfold sendTime
    rw [hy]
    exact if_pos (by rw [hst]; rfl)
  · obtain ⟨htick, hsync⟩ := State.reach_syncLost hy 2 (y.lastEcho + 800000)
    exact ⟨_, congrArg Host.Outcome.next (echoTimeout_of_synced hy hs), htick, hsync⟩
  · have hdone := State.complete_frame ((s.reach (y.began + 8000000)).modPort p fun q => { q with sync := none }) i
      stTickUnsynced 0 0 0 ((BitVec.ofInt 64 y.theta).setWidth 192)
    refine ⟨_, congrArg Host.Outcome.next (syncTimeout_of_cmd hy hc), ?_, ?_, State.not_mem_complete_outst⟩
    · rw [hdone .tick (by decide), State.modPort_tick]
      exact s.le_reach_tick _
    · rw [hdone .ports (by decide)]
      simp

end Sys2Proof.Machine
end

section
/-!
PROOFS. What sending does: the output log grows, items are added behind those in a port's replay buffer, and the port's
training stays as it is (R845, R849, R850, R855).
-/

namespace Sys2Proof.Machine

/-! ### The relation -/

/-- A port without what sending and credits change of it. -/
def Port.training (q : Port) : Port :=
  { q with txSeq := 0, replay := [], replays := 0, oldestSent := 0, oldestResent := 0, lockRx := Credit.zero, lockTx := Credit.zero,
           withdrawn := [], farCredits := [], violations := [] }

/-- The port has the same training, and items behind those which its replay buffer held. -/
def Port.Sent (a b : Port) : Prop := b.training = a.training ∧ ∃ k, b.replay = a.replay ++ k

/-- Between two states outputs and items were sent, and no port's training changed. -/
structure Sends (s t : State) : Prop where
  grows : Grows s t
  sent : ∀ p : PortNo, s.ports[p].Sent t.ports[p]

theorem Port.Sent.refl (a : Port) : a.Sent a := ⟨rfl, [], by simp⟩

theorem Port.Sent.trans {a b c : Port} (h : a.Sent b) (g : b.Sent c) : a.Sent c := by
  obtain ⟨ht, k, hk⟩ := h
  obtain ⟨gt, j, hj⟩ := g
  exact ⟨gt.trans ht, k ++ j, by rw [hj, hk, List.append_assoc]⟩

theorem Sends.refl (s : State) : Sends s s := ⟨.refl s, fun _ => .refl _⟩

theorem Sends.trans {r s t : State} (h : Sends r s) (g : Sends s t) : Sends r t :=
  ⟨h.grows.trans g.grows, fun p => (h.sent p).trans (g.sent p)⟩

theorem Sends.of_grows {s t : State} (h : Grows s t) (hp : t.ports = s.ports) : Sends s t :=
  ⟨h, fun p => by rw [hp]; exact .refl _⟩

theorem Sends.of_only {ks : List Comp} {s t : State} (h : ChangesOnly ks s t) (ho : Comp.out ∉ ks) (hf : Comp.fns ∉ ks)
    (hp : Comp.ports ∉ ks) : Sends s t := .of_grows (.of_only h ho hf) (h .ports hp)

/-- An operation whose law asks for no right to change outputs, functions and ports. -/
theorem Sends.of_law {s t : State}
    (h : ChangesOnly (Comp.allBut [.out, .fns, .ports]) s t ↔ ChangesOnly (Comp.allBut [.out, .fns, .ports]) s s) :
    Sends s t := .of_only (h.2 (ChangesOnly.refl _ _)) (by decide) (by decide) (by decide)

theorem Sends.forEach {α : Type} {f : α → State → State} (h : ∀ a t, Sends t (f a t)) (l : List α) (s : State) :
    Sends s (s.forEach l f) := by
  unfold State.forEach
  induction l generalizing s with
  | nil => exact .refl s
  | cons a l ih => exact (h a s).trans (ih (f a s))

theorem Sends.ite {s t u : State} {c : Prop} [Decidable c] (h : Sends s t) (g : Sends s u) :
    Sends s (if c then t else u) := by
  split
  · exact h
  · exact g

/-- What an output held before is there still. -/
theorem Sends.mem_out {s t : State} (h : Sends s t) {e : Emit} (he : e ∈ s.out) : e ∈ t.out := by
  obtain ⟨l, hl⟩ := h.grows.out
  rw [hl]
  exact List.mem_append_left _ he

/-! ### Shared operations -/

theorem State.emit_sends (s : State) (e : Emit) : Sends s (s.emit e) :=
  .of_grows (emit_grows s e) (s.emit_frame e .ports (by decide))

theorem State.occurAll_sends (s : State) (l : List FnNo) (e : W16) (a b : W64) : Sends s (s.occurAll l e a b) :=
  .of_grows (occurAll_grows s l e a b) (s.occurAll_frame l e a b .ports (by decide))

theorem State.complete_sends (s : State) (id : Nat) (st d : W16) (r0 r1 : W64) (data : BitVec 192) :
    Sends s (s.complete id st d r0 r1 data) :=
  .of_grows (complete_grows s id st d r0 r1 data) (s.complete_frame id st d r0 r1 data .ports (by decide))

theorem State.completeOk_sends (s : State) (id : Nat) (r0 r1 : W64) : Sends s (s.completeOk id r0 r1) :=
  s.complete_sends id stOk 0 r0 r1 0

theorem State.sendMsix_sends (s : State) (n : FnNo) (v : Fin 64) : Sends s (s.sendMsix n v) :=
  .of_grows (sendMsix_grows s n v) (s.sendMsix_frame n v .ports (by decide))

theorem State.noteShort_sends (s : State) : Sends s s.noteShort := by
  have hgeo : ∀ g, Sends s { s with geo := g } := fun g => .of_grows (.of_eq rfl rfl) rfl
  unfold noteShort
  split
  · exact .ite ((hgeo _).trans (occurAll_sends _ _ _ _ _)) (.refl s)
  · exact .ite (.refl s) ((hgeo _).trans (occurAll_sends _ _ _ _ _))

theorem State.modLock_sends (s : State) (f : Lock → Lock) : Sends s (s.modLock f) := .of_grows (.of_eq rfl rfl) rfl

theorem State.modChan_sends (s : State) (c : Nat) (f : Chan → Chan) : Sends s (s.modChan c f) :=
  .of_grows (.of_eq rfl rfl) rfl

theorem State.advertise_sends (s : State) (c : Chan) : Sends s (s.advertise c) := by
  unfold advertise
  refine .ite ?_ (.ite (modChan_sends _ _ _) (.refl s))
  refine ((Sends.of_law ?_).trans (modChan_sends _ _ _)).trans (emit_sends _ _)
  simp [foldStarved_only]

theorem State.settlePool_sends (s : State) : Sends s s.settlePool := by
  unfold settlePool
  refine ((s.noteShort_sends).trans (t := s.noteShort.noteWaits) (.of_grows (.of_eq rfl rfl) rfl)).trans ?_
  refine .forEach (fun c u => ?_) _ _
  split
  · exact advertise_sends _ _
  · exact .refl u

/-! ### Ports which send -/

@[simp] theorem State.modPort_port (s : State) (p : PortNo) (f : Port → Port) :
    (s.modPort p f).ports[p] = f s.ports[p] := vmod_get _ _ _

theorem State.modPort_port_ne (s : State) {p q : PortNo} (f : Port → Port) (h : q ≠ p) :
    (s.modPort p f).ports[q] = s.ports[q] := vmod_get_ne _ _ h.symm

theorem State.modPort_grows (s : State) (p : PortNo) (f : Port → Port) : Grows s (s.modPort p f) := .of_eq rfl rfl

theorem State.modPort_sends (s : State) (p : PortNo) {f : Port → Port} (h : s.ports[p].Sent (f s.ports[p])) :
    Sends s (s.modPort p f) := by
  refine ⟨s.modPort_grows p f, fun q => ?_⟩
  by_cases e : q = p
  · subst e
    rw [modPort_port]
    exact h
  · rw [modPort_port_ne _ _ e]
    exact .refl _

theorem State.emitItem_sends (s : State) (p : PortNo) (i : Item) : Sends s (s.emitItem p i) :=
  .ite (emit_sends _ _) (emit_sends _ _)

theorem State.sendItem_sends (s : State) (p : PortNo) (frame : Bool) (b : List Byte) : Sends s (s.sendItem p frame b) :=
  (s.modPort_sends p ⟨rfl, _, rfl⟩).trans (emitItem_sends _ _ _)

theorem State.sendFrame_sends (s : State) (p : PortNo) (ftype ch : Nat) (b : List Byte) :
    Sends s (s.sendFrame p ftype ch b) := sendItem_sends _ _ _ _

theorem State.sendMark_sends (s : State) (p : PortNo) (ch : Nat) : Sends s (s.sendMark p ch) := sendItem_sends _ _ _ _

theorem State.sendFirst_sends (s : State) (x : Chan) (i : QItem) : Sends s (s.sendFirst x i) := by
  have hrelease : ∀ (t : State) (q : Nat), Sends t (t.releaseFrame x.num q true) := fun t q =>
    .of_law (by simp [releaseFrame_only])
  unfold sendFirst
  dsimp only
  refine .ite (.ite ?_ ?_) ?_
  · exact (((s.sendMark_sends _ _).trans (modChan_sends _ _ _)).trans (hrelease _ _)).trans (modChan_sends _ _ _)
  · exact (s.sendMark_sends _ _).trans (modChan_sends _ _ _)
  · exact (s.sendFrame_sends _ _ _ _).trans (modChan_sends _ _ _)

theorem State.pumpChan_sends (s : State) (c n : Nat) : Sends s (s.pumpChan c n) := by
  induction n generalizing s with
  | zero => exact .refl s
  | succ n ih =>
    unfold pumpChan
    split
    · exact .refl s
    · split
      · exact .refl s
      · exact .ite ((s.sendFirst_sends _ _).trans (ih _)) (.refl s)

theorem State.pumpChans_sends (s : State) (p : Option PortNo) : Sends s (s.pumpChans p) :=
  (Sends.forEach (f := fun (c : Chan) t => t.pumpChan c.num c.q.queue.length) (fun c t => t.pumpChan_sends c.num _) _ _).trans (settlePool_sends _)

/-! ### Unbinding -/

theorem State.unbindNow_sends (s : State) (c : Nat) : Sends s (s.unbindNow c) := by
  unfold unbindNow
  split
  · exact .refl s
  · rename_i x _
    dsimp only
    have hdrop : ∀ t : State, Sends t ((t.dropOpen c).forEach ((t.dropOpen c).frames.filter fun f => f.chan == c)
        fun f u => u.dropFrame c f.seq) := fun t => .of_law (by
      simp [forEach_only, dropFrame_only, dropOpen_only])
    refine Sends.trans ?_ (settlePool_sends _)
    refine Sends.trans ?_ (.of_law (by apply reclaimAll_only; simp))
    refine Sends.trans ?_ (modLock_sends _ _)
    refine Sends.trans ?_ (.of_law (by apply releaseParts_only; simp))
    refine Sends.trans ?_ (.of_law (by apply upd_deliveries_runs_chans_loaded_only <;> simp))
    refine Sends.trans ?_ (.of_law (forEach_only (fun b u => by apply zeroBuf_only; simp) _ _))
    refine .ite ?_ ?_
    · refine ((hdrop s).trans (modPort_sends _ _ ?_)).trans (emit_sends _ _)
      exact ⟨rfl, [], by simp⟩
    · refine (hdrop s).trans (modPort_sends _ _ ?_)
      exact ⟨rfl, [], by simp⟩

theorem State.endUnbind_sends (s : State) (c : Nat) : Sends s (s.endUnbind c) := by
  unfold endUnbind
  split
  · exact .refl s
  · split
    · exact .refl s
    · refine .ite ?_ (.refl s)
      refine ((Sends.of_law ?_).trans (unbindNow_sends _ c)).trans (completeOk_sends _ _ _ _)
      simp [dropOpen_only]

theorem State.endUnbinds_sends (s : State) : Sends s s.endUnbinds := .forEach (fun c t => t.endUnbind_sends c) _ _

/-! ### LOCKSTEP frames -/

theorem State.flushLock_sends (n : Nat) (s : State) : Sends s (s.flushLock n) := by
  induction n generalizing s with
  | zero => exact .refl s
  | succ n ih =>
    unfold flushLock
    split
    · exact .refl s
    · dsimp only
      refine .ite ?_ (.refl s)
      refine Sends.trans ?_ (ih _)
      refine Sends.trans ?_ (sendFrame_sends _ _ _ _ _)
      refine Sends.trans (modLock_sends _ _) (modPort_sends _ _ ?_)
      exact ⟨rfl, [], by simp⟩

theorem State.pumpLock_sends (s : State) : Sends s s.pumpLock := by
  have hrelease : ∀ t : State, Sends t t.releaseForwarded := fun t => .of_law (by apply releaseForwarded_only <;> simp)
  exact (((s.flushLock_sends _).trans (hrelease _)).trans (settlePool_sends _)).trans (endUnbinds_sends _)

theorem State.lockSend_sends (s : State) (item : Option (Nat × Nat)) (b : List Byte) : Sends s (s.lockSend item b) :=
  Sends.trans (modLock_sends _ _) (pumpLock_sends _)

theorem State.areaCredit_sends (s : State) : Sends s s.areaCredit :=
  .ite (.refl s) ((s.modPort_sends 7 ⟨rfl, [], by simp⟩).trans (emit_sends _ _))

theorem State.endPair_sends (s : State) (cause : BitVec 8) (tell : Bool) : Sends s (s.endPair cause tell) := by
  unfold endPair
  refine .ite (.refl s) ?_
  dsimp only
  refine Sends.trans (Sends.trans ?_ (occurAll_sends _ _ _ _ _)) (areaCredit_sends _)
  have hparts : ∀ t : State, Sends t (t.releaseParts lockOwner) := fun t => .of_law (by apply releaseParts_only; simp)
  refine .ite ?_ ?_
  · exact ((modLock_sends _ _).trans (hparts _)).trans (lockSend_sends _ _ _)
  · exact ((modLock_sends _ _).trans (hparts _)).trans (pumpLock_sends _)

/-! ### Frame results -/

theorem State.sendRec_sends (s : State) (n : FnNo) (r : EvRec) : Sends s (s.sendRec n r) :=
  .of_grows (sendRec_grows s n r) (s.sendRec_frame n r .ports (by decide))

theorem State.hostWrite_sends (s : State) (n : FnNo) (a : W64) (b : List Byte) : Sends s (s.hostWrite n a b) := by
  refine .of_grows (hostWrite_grows s n a b) ?_
  have h : ChangesOnly [.fns, .out] s (s.hostWrite n a b) := by
    simp (disch := decide) only [hostWrite_only, changesOnly_self]
  exact h .ports (by decide)

theorem State.located_sends (s : State) (d : Divergence) : Sends s (s.located d) := by
  unfold located
  split
  · exact .refl s
  · exact (modLock_sends _ _).trans (sendRec_sends _ _ _)

theorem State.compareDigests_sends (s : State) (mine peer : Digest) : Sends s (s.compareDigests mine peer) := by
  unfold compareDigests
  dsimp only
  refine .ite ((modLock_sends _ _).trans (modLock_sends _ _)) ?_
  refine .ite (((modLock_sends _ _).trans (modLock_sends _ _)).trans (modLock_sends _ _)) ?_
  split
  · exact (((modLock_sends _ _).trans (modLock_sends _ _)).trans (modLock_sends _ _)).trans (located_sends _ _)
  · refine Sends.trans ?_ (lockSend_sends _ _ _)
    exact (((modLock_sends _ _).trans (modLock_sends _ _)).trans (modLock_sends _ _)).trans (modLock_sends _ _)

theorem State.formDigest_sends (s : State) (f : Frame) (prog : Nat) (outside aborted : Bool) (b : List Byte) :
    Sends s (s.formDigest f prog outside aborted b) := by
  unfold formDigest
  split
  · exact .refl s
  · refine .ite (.refl s) ?_
    dsimp only
    split
    · exact ((lockSend_sends _ _ _).trans (modLock_sends _ _)).trans (compareDigests_sends _ _ _)
    · exact .ite ((lockSend_sends _ _ _).trans (modLock_sends _ _)) ((lockSend_sends _ _ _).trans (modLock_sends _ _))

theorem State.modProg_sends (s : State) (n : FnNo) (pid : Nat) (f : Prog → Prog) : Sends s (s.modProg n pid f) :=
  .of_grows (.of_eq rfl rfl) rfl

theorem State.announce_sends (s : State) (n : FnNo) (pid : Nat) : Sends s (s.announce n pid) := by
  unfold announce
  split
  · exact .refl s
  · split
    · exact .refl s
    · exact .ite (.refl s) (.ite ((modProg_sends _ _ _ _).trans (sendMsix_sends _ _ _)) (.refl s))

theorem State.count_sends (s : State) (n : FnNo) (i : Fin 14) (k : Nat) : Sends s (s.count n i k) :=
  .of_law (by apply count_only; simp)

/-- R418: a result which is written. -/
theorem State.writeResult_sends (s : State) (n : FnNo) (p : Prog) (l : Launch) (c q : Nat) (b : List Byte) :
    Sends s (s.writeResult n p l c q b) := by
  unfold writeResult
  split
  · exact .refl s
  · dsimp only
    have hend : ∀ t : State, Sends t ((t.endRun c q).retireFrame c q) := fun t => .of_law (by
      simp [retireFrame_only, endRun_only])
    refine Sends.trans ?_ (hend _)
    refine Sends.trans ?_ (formDigest_sends _ _ _ _ _ _)
    refine Sends.trans ?_ (modChan_sends _ _ _)
    have hcounted : ∀ t : State, Sends s t → Sends s ((t.announce n p.id).count n 0 1) := fun t ht =>
      (ht.trans (announce_sends _ _ _)).trans (count_sends _ _ _ _)
    refine .ite (Sends.trans ?_ (count_sends _ _ _ _)) ?_
    · exact hcounted _ ((modProg_sends _ _ _ _).trans (hostWrite_sends _ _ _ _))
    · exact hcounted _ ((modProg_sends _ _ _ _).trans (hostWrite_sends _ _ _ _))

theorem State.flushRing_sends (n : FnNo) (pid k : Nat) (s : State) : Sends s (s.flushRing n pid k) := by
  induction k generalizing s with
  | zero => exact .refl s
  | succ k ih =>
    unfold flushRing
    split
    · exact .refl s
    · split
      · exact .ite (((modProg_sends _ _ _ _).trans (writeResult_sends _ _ _ _ _ _ _)).trans (ih _)) (.refl s)
      · exact .refl s

theorem State.pumpRing_sends (s : State) (n : FnNo) (pid : Nat) : Sends s (s.pumpRing n pid) := by
  unfold pumpRing
  split
  · exact .refl s
  · exact ((flushRing_sends _ _ _ _).trans (settlePool_sends _)).trans (endUnbinds_sends _)

/-- R417: a frame whose result is decided. -/
theorem State.finishFrame_sends (s : State) (c q : Nat) (aborted : Bool) (b : List Byte) :
    Sends s (s.finishFrame c q aborted b) := by
  have hdropped : Sends s (((s.endRun c q).releaseFrame c q false).delFrame c q) := .of_law (by
    simp [delFrame_only, releaseFrame_only, endRun_only])
  unfold finishFrame
  split
  · exact .refl s
  · split
    · exact hdropped
    · split
      · exact hdropped
      · refine .ite (.refl s) ?_
        dsimp only
        refine Sends.trans (Sends.trans ?_ (modProg_sends _ _ _ _)) (pumpRing_sends _ _ _)
        refine .of_law ?_
        simp [modFrame_only, ite_only, count_only]

theorem State.abortFrame_sends (s : State) (c q : Nat) : Sends s (s.abortFrame c q) := by
  have hraster : Sends s (s.dropRaster c q) := .of_law (by apply dropRaster_only <;> simp)
  unfold abortFrame
  split
  · exact (Sends.ite hraster (.refl s)).trans (finishFrame_sends _ _ _ _ _)
  · exact .refl s

theorem State.abortAll_sends (s : State) (l : List Frame) : Sends s (s.abortAll l) :=
  .forEach (f := fun (f : Frame) t => t.abortFrame f.chan f.seq) (fun f t => t.abortFrame_sends f.chan f.seq) _ _

theorem State.finishRun_sends (s : State) (c q : Nat) : Sends s (s.finishRun c q) := by
  unfold finishRun
  split
  · exact finishFrame_sends _ _ _ _ _
  · exact .refl s

/-- R952, R959: the messages and waiting frames of a port which is disabled. -/
theorem State.dropPortMessages_sends (s : State) (p : PortNo) : Sends s (s.dropPortMessages p) := by
  have hrelease : ∀ (t : State) (c q : Nat) (b : Bool), Sends t (t.releaseFrame c q b) := fun t c q b =>
    .of_law (by apply releaseFrame_only; simp)
  have hdropped : ∀ (t : State) (x : Chan) (n : Nat) (q : W64), Sends t (t.sendDropped x n q) := fun t x n q =>
    .ite (.refl t) ((modChan_sends _ _ _).trans (sendRec_sends _ _ _))
  unfold dropPortMessages
  refine .forEach (fun x t => ?_) _ _
  refine Sends.trans ?_ (abortAll_sends _ _)
  refine Sends.trans ?_ (.forEach (fun f u => (hdropped _ _ _ _).trans (finishRun_sends _ _ _)) _ _)
  refine Sends.trans ?_ (.forEach (fun a u => hrelease _ _ _ _) _ _)
  refine Sends.trans ?_ (modChan_sends _ _ _)
  exact .forEach (fun a u => hrelease _ _ _ _) _ _

end Sys2Proof.Machine
end

section
/-!
PROOFS. Channels: the channel which changes, and what sending and the pool leave of every channel (R703 to R706, R860, R938).
-/

namespace Sys2Proof.Machine

/-! ### One channel changes -/

theorem State.num_of_chan {s : State} {c : Nat} {x : Chan} (h : s.chan c = some x) : x.num = c := by
  simpa using List.find?_some h

/-- A channel which changes, but not its number, is the one found under that. -/
theorem State.chan_modChan {s : State} {c : Nat} {x : Chan} {f : Chan → Chan} (hf : ∀ y, (f y).num = y.num)
    (h : s.chan c = some x) : (s.modChan c f).chan c = some (f x) := by
  have hsame : ((fun y : Chan => decide (y.num = c)) ∘ fun y => if y.num = c then f y else y) =
      fun y => decide (y.num = c) := by
    funext y
    dsimp only [Function.comp]
    split
    · rw [hf]
    · rfl
  unfold chan
  rw [modChan_chans, List.find?_map, hsame, show List.find? _ s.chans = some x from h, Option.map_some,
    if_pos (num_of_chan h)]

theorem State.chan_of_chans {s t : State} (h : t.chans = s.chans) (c : Nat) : t.chan c = s.chan c := by
  unfold chan
  rw [h]

/-! ### What every channel keeps -/

/-- The channels of two states are the same in what `f` tells of them. -/
def ChansKeep {α : Type} (f : Chan → α) (s t : State) : Prop := t.chans.map f = s.chans.map f

section
variable {α : Type} {f : Chan → α} {r s t : State}

theorem ChansKeep.refl (s : State) : ChansKeep f s s := rfl

theorem ChansKeep.trans (h : ChansKeep f r s) (g : ChansKeep f s t) : ChansKeep f r t := Eq.trans g h

theorem ChansKeep.of_eq (h : t.chans = s.chans) : ChansKeep f s t := by
  unfold ChansKeep
  rw [h]

theorem ChansKeep.of_only {ks : List Comp} (h : ChangesOnly ks s t) (hk : Comp.chans ∉ ks) : ChansKeep f s t :=
  .of_eq (h .chans hk)

/-- An operation whose law asks for no right to change the channels. -/
theorem ChansKeep.of_law
    (h : ChangesOnly (Comp.allBut [.chans]) s t ↔ ChangesOnly (Comp.allBut [.chans]) s s) : ChansKeep f s t :=
  .of_only (h.2 (ChangesOnly.refl _ _)) (by decide)

theorem ChansKeep.forEach {β : Type} {g : β → State → State} (h : ∀ a t, ChansKeep f t (g a t)) (l : List β)
    (s : State) : ChansKeep f s (s.forEach l g) := by
  unfold State.forEach
  induction l generalizing s with
  | nil => exact .refl s
  | cons a l ih => exact (h a s).trans (ih (g a s))

theorem ChansKeep.ite {c : Prop} [Decidable c] (h : ChansKeep f s t) (g : ChansKeep f s r) :
    ChansKeep f s (if c then t else r) := by
  split
  · exact h
  · exact g

theorem State.modChan_chansKeep (s : State) (c : Nat) {g : Chan → Chan} (h : ∀ y, f (g y) = f y) :
    ChansKeep f s (s.modChan c g) := by
  unfold ChansKeep
  rw [modChan_chans, List.map_map]
  refine List.map_congr_left fun y _ => ?_
  dsimp only [Function.comp]
  split
  · exact h y
  · rfl

/-- What is told of less is kept too. -/
theorem ChansKeep.mono {β : Type} {g : Chan → β} (h : ChansKeep f s t) (k : α → β) (hk : ∀ x, g x = k (f x)) :
    ChansKeep g s t := by
  have hg : g = k ∘ f := funext hk
  unfold ChansKeep at h ⊢
  rw [hg, ← List.map_map, h, List.map_map]

/-- A channel which is found in the first state is found in the second, and is the same in what is told. -/
theorem ChansKeep.chan (h : ChansKeep f s t) (num : α → Nat) (hnum : ∀ x, num (f x) = x.num) {c : Nat} {x : Chan}
    (hx : s.chan c = some x) : ∃ y, t.chan c = some y ∧ f y = f x := by
  have hfind : ∀ u : State, (u.chan c).map f = (u.chans.map f).find? fun a => decide (num a = c) := fun u => by
    have hp : ((fun a => decide (num a = c)) ∘ f) = fun y : Chan => decide (y.num = c) := by
      funext y
      simp only [Function.comp, hnum]
    rw [List.find?_map, hp]
    rfl
  have hmap : (t.chan c).map f = some (f x) := by
    rw [hfind t, h, ← hfind s, hx]
    rfl
  obtain ⟨y, hy, hf⟩ := Option.map_eq_some_iff.1 hmap
  exact ⟨y, hy, hf⟩

end

/-! ### Credits and starvation -/

/-- A channel without what the pool changes of it: its credits as receiver, its starvation, and its wait for a grant. -/
def Chan.unpooled (c : Chan) : Chan :=
  { c with rx := Credit.zero, starved := 0, starvedClr := 0, starvedSince := none, starvedFrom := 0, starvedSent := false,
           waitSince := none }

/-- A channel without what sending changes of its end either: its queue, and the credits and copies of what was sent. -/
def Chan.unsent (c : Chan) : Chan :=
  { c.unpooled with q := { c.q with
      queue := [], midway := false, txUsed := 0, tx := { c.q.tx with consumed := 0 }, copies := [] } }

theorem State.foldStarved_chansKeep (s : State) (c : Chan) : ChansKeep Chan.unpooled s (s.foldStarved c) := by
  unfold foldStarved
  split
  · exact .refl s
  · refine ChansKeep.trans ?_ (.of_law (by apply count_only; simp))
    exact modChan_chansKeep _ _ fun _ => rfl

theorem State.advertise_chansKeep (s : State) (c : Chan) : ChansKeep Chan.unpooled s (s.advertise c) := by
  unfold advertise
  refine .ite ?_ (.ite (modChan_chansKeep _ _ fun _ => rfl) (.refl s))
  refine ChansKeep.trans ?_ (.of_only (emit_frame _ _) (by decide))
  refine (foldStarved_chansKeep s c).trans ?_
  exact modChan_chansKeep _ _ fun _ => rfl

theorem State.noteWaits_chansKeep (s : State) : ChansKeep Chan.unpooled s s.noteWaits := by
  unfold ChansKeep noteWaits
  rw [List.map_map]
  exact List.map_congr_left fun y _ => rfl

theorem State.settlePool_chansKeep (s : State) : ChansKeep Chan.unpooled s s.settlePool := by
  have hshort : ChansKeep Chan.unpooled s s.noteShort := .of_law (by apply noteShort_only <;> simp)
  unfold settlePool
  refine (hshort.trans (noteWaits_chansKeep _)).trans (.forEach (fun c u => ?_) _ _)
  split
  · exact advertise_chansKeep _ _
  · exact .refl u

/-! ### Sending -/

theorem Chan.unsent_unpooled (x : Chan) : x.unsent = x.unpooled.unsent := rfl

theorem State.sendFirst_chansKeep (s : State) (x : Chan) (i : QItem) : ChansKeep Chan.unsent s (s.sendFirst x i) := by
  have hitem : ∀ (t : State) (p : PortNo) (b : Bool) (l : List Byte), ChansKeep Chan.unsent t (t.sendItem p b l) :=
    fun t p b l => .of_law (by apply sendItem_only <;> simp)
  have hrelease : ∀ (t : State) (q : Nat), ChansKeep Chan.unsent t (t.releaseFrame x.num q true) := fun t q =>
    .of_law (by apply releaseFrame_only; simp)
  unfold sendFirst
  dsimp only
  refine .ite (.ite ?_ ?_) ?_
  · refine ChansKeep.trans ?_ (modChan_chansKeep _ _ fun _ => rfl)
    refine ChansKeep.trans ?_ (hrelease _ _)
    exact (hitem s _ _ _).trans (modChan_chansKeep _ _ fun _ => rfl)
  · exact (hitem s _ _ _).trans (modChan_chansKeep _ _ fun _ => rfl)
  · exact (hitem s _ _ _).trans (modChan_chansKeep _ _ fun _ => rfl)

theorem State.pumpChan_chansKeep (s : State) (c n : Nat) : ChansKeep Chan.unsent s (s.pumpChan c n) := by
  induction n generalizing s with
  | zero => exact .refl s
  | succ n ih =>
    unfold pumpChan
    split
    · exact .refl s
    · split
      · exact .refl s
      · exact .ite ((s.sendFirst_chansKeep _ _).trans (ih _)) (.refl s)

theorem State.pumpChans_chansKeep (s : State) (p : Option PortNo) : ChansKeep Chan.unsent s (s.pumpChans p) := by
  unfold pumpChans
  refine ChansKeep.trans ?_ ((settlePool_chansKeep _).mono Chan.unsent Chan.unsent_unpooled)
  exact .forEach (fun _ t => t.pumpChan_chansKeep _ _) _ _

/-- A channel which changes, with what is sent after it. -/
theorem State.pumpChans_modChan {s : State} {c : Nat} {x : Chan} {f : Chan → Chan} (hf : ∀ y, (f y).num = y.num)
    (h : s.chan c = some x) (p : Option PortNo) :
    ∃ y, ((s.modChan c f).pumpChans p).chan c = some y ∧ y.unsent = (f x).unsent :=
  (pumpChans_chansKeep _ _).chan Chan.num (fun _ => rfl) (chan_modChan hf h)

end Sys2Proof.Machine
end

section
/-!
PROOFS. Acknowledgement, replay and credits (R849 to R854, R861 to R865).
-/

namespace Sys2Proof.Machine

/-! ### ACK_NAK blocks -/

theorem ackBlock_toNat (kind : Byte) (q : W16) :
    ∃ c : Nat, (ackBlock kind q).toNat = 0x87 + 256 * kind.toNat + 65536 * q.toNat + 2 ^ 56 * c := by
  have hq := q.isLt
  refine ⟨(crc8 (sevenBytes ([0x87, kind] ++ leBytes 2 q.toNat))).toNat, ?_⟩
  rw [ackBlock, withChk_toNat_of_le (by simp), leNat_append, leNat_leBytes]
  simp only [leNat, List.length_cons, List.length_nil, show (0x87 : Byte).toNat = 0x87 from rfl]
  simp only [Nat.reduceAdd, Nat.reducePow, Nat.mul_zero, Nat.add_zero, Nat.zero_add]
  omega

section
variable {kind : Byte} (q : W16) (h : kind = 0x10 ∨ kind = 0x20)
include h

omit q in
theorem ackKind_toNat : kind.toNat = 16 ∨ kind.toNat = 32 := h.imp (fun e => by rw [e]; rfl) (fun e => by rw [e]; rfl)

theorem ackBlock_reserved : ackBlock kind q &&& ackReserved = 0 := by
  obtain ⟨c, hc⟩ := ackBlock_toNat kind q
  have hq := q.isLt
  have hk := ackKind_toNat h
  have hmask : ackReserved = (BitVec.ofNat 64 (2 ^ 4 - 1) <<< 8) ||| (BitVec.ofNat 64 (2 ^ 24 - 1) <<< 32) := by decide
  rw [hmask, BitVec.and_or_distrib_left, and_fieldMask_eq_zero 8 4 (by omega), and_fieldMask_eq_zero 32 24 (by omega)]
  rfl

theorem blockKind_ackBlock : blockKind (ackBlock kind q) = kind.toNat / 16 := by
  obtain ⟨c, hc⟩ := ackBlock_toNat kind q
  have hk := ackKind_toNat h
  rw [blockKind, toNat_extractLsb'_eq]
  omega

theorem ackBlock_seq : (ackBlock kind q).extractLsb' 16 16 = q := by
  obtain ⟨c, hc⟩ := ackBlock_toNat kind q
  have hq := q.isLt
  have hk := ackKind_toNat h
  apply BitVec.eq_of_toNat_eq
  rw [toNat_extractLsb'_eq]
  omega

theorem rxStriped_ackBlock {l : LaneNo} {s : State} (hst : s.ports[portOf l].st = .active)
    (hin : s.ports[portOf l].inUse &&& laneBit l ≠ 0) (f : State → State) :
    rxStriped 0x87 ackReserved l (ackBlock kind q) f s = f s := by
  refine rxStriped_of_good (w := ackBlock kind q) hst hin ?_ (chkOk_withChk _) (ackBlock_reserved q h) f
  obtain ⟨c, hc⟩ := ackBlock_toNat kind q
  omega

end

/-! ### CREDIT blocks -/

theorem creditBlock_toNat {ch : Nat} (h : ch < 4096) (w : Bool) (m : W16) :
    ∃ c : Nat, (creditBlock ch w m).toNat = 0x78 + 256 * (ch + if w then 0x8000 else 0) + 2 ^ 24 * m.toNat + 2 ^ 56 * c := by
  have hm := m.isLt
  refine ⟨(crc8 (sevenBytes ([0x78] ++ leBytes 2 (ch + if w then 0x8000 else 0) ++ leBytes 2 m.toNat))).toNat, ?_⟩
  rw [creditBlock, withChk_toNat_of_le (by simp), leNat_append, leNat_append, leNat_leBytes, leNat_leBytes]
  simp only [leNat, List.length_append, List.length_cons, List.length_nil, length_leBytes,
    show (0x78 : Byte).toNat = 0x78 from rfl]
  cases w <;> simp only [Bool.false_eq_true, ↓reduceIte, Nat.reduceAdd, Nat.reducePow, Nat.mul_zero, Nat.add_zero,
    Nat.zero_add] <;> omega

section
variable {ch : Nat} (h : ch < 4096) (w : Bool) (m : W16)
include h

theorem blockCh_creditBlock : blockCh (creditBlock ch w m) = ch := by
  obtain ⟨c, hc⟩ := creditBlock_toNat h w m
  rw [blockCh, toNat_extractLsb'_eq]
  cases w <;> simp only [Bool.false_eq_true, ↓reduceIte] at hc <;> omega

theorem creditBlock_withdraw : (creditBlock ch w m).getLsbD 23 = w := by
  obtain ⟨c, hc⟩ := creditBlock_toNat h w m
  rw [BitVec.getLsbD, Nat.testBit_eq_decide_div_mod_eq]
  cases w <;> simp only [Bool.false_eq_true, ↓reduceIte, decide_eq_true_eq, decide_eq_false_iff_not] at hc ⊢ <;> omega

theorem creditBlock_limit : (creditBlock ch w m).extractLsb' 24 16 = m := by
  obtain ⟨c, hc⟩ := creditBlock_toNat h w m
  have hm := m.isLt
  apply BitVec.eq_of_toNat_eq
  rw [toNat_extractLsb'_eq]
  cases w <;> simp only [Bool.false_eq_true, ↓reduceIte] at hc <;> omega

theorem creditBlock_reserved : creditBlock ch w m &&& creditReserved = 0 := by
  obtain ⟨c, hc⟩ := creditBlock_toNat h w m
  have hm := m.isLt
  have hmask : creditReserved = (BitVec.ofNat 64 (2 ^ 3 - 1) <<< 20) ||| (BitVec.ofNat 64 (2 ^ 16 - 1) <<< 40) := by decide
  rw [hmask, BitVec.and_or_distrib_left, and_fieldMask_eq_zero 20 3, and_fieldMask_eq_zero 40 16]
  · rfl
  · cases w <;> simp only [Bool.false_eq_true, ↓reduceIte] at hc <;> omega
  · cases w <;> simp only [Bool.false_eq_true, ↓reduceIte] at hc <;> omega

theorem rxStriped_creditBlock {l : LaneNo} {s : State} (hst : s.ports[portOf l].st = .active)
    (hin : s.ports[portOf l].inUse &&& laneBit l ≠ 0) (f : State → State) :
    rxStriped 0x78 creditReserved l (creditBlock ch w m) f s = f s := by
  refine rxStriped_of_good (w := creditBlock ch w m) hst hin ?_ (chkOk_withChk _) (creditBlock_reserved h w m) f
  obtain ⟨c, hc⟩ := creditBlock_toNat h w m
  omega

end

/-! ### The replay buffer -/

/-- R849: what an acknowledgement of a number leaves of the replay buffer. -/
def unacked (upTo : W16) (l : List Item) : List Item := l.filter fun i => ! decide ((upTo - i.seq).toNat ≤ 32767)

theorem State.coverItems_replay (s : State) (p : PortNo) (upTo : W16) :
    (s.coverItems p upTo).ports[p].replay = unacked upTo s.ports[p].replay := by
  unfold coverItems
  dsimp only
  split
  · next h => exact (List.filter_eq_self.2 (List.length_filter_eq_length_iff.1 h)).symm
  · rw [modPort_port]
    rfl

theorem State.coverItems_grows (s : State) (p : PortNo) (upTo : W16) : Grows s (s.coverItems p upTo) := by
  unfold coverItems
  dsimp only
  split
  · exact .refl s
  · exact modPort_grows _ _ _

/-- What an acknowledgement lets be sent. -/
theorem State.covered_sends (s : State) (p : PortNo) (upTo : W16) : Sends (s.coverItems p upTo) (s.covered_ p upTo) := by
  have hpump : Sends (s.coverItems p upTo) (((s.coverItems p upTo).noteAcked p).pumpChans (some p)) :=
    Sends.trans (.of_law (by apply noteAcked_only; simp)) (pumpChans_sends _ _)
  exact .ite (hpump.trans (pumpLock_sends _)) hpump

theorem State.covered_replay (s : State) (p : PortNo) (upTo : W16) :
    ∃ k, (s.covered_ p upTo).ports[p].replay = unacked upTo s.ports[p].replay ++ k := by
  obtain ⟨-, k, hk⟩ := (s.covered_sends p upTo).sent p
  exact ⟨k, by rw [hk, coverItems_replay]⟩

/-- The output by which an item leaves its port. -/
def Item.output (p : PortNo) (i : Item) : Emit :=
  if i.frame then .frame p i.bytes else .block p (BitVec.ofNat 64 (leNat i.bytes))

theorem State.emitItem_out (s : State) (p : PortNo) (i : Item) : i.output p ∈ (s.emitItem p i).out := by
  unfold emitItem Item.output
  split
  · rw [emit_of_not_overPcie rfl]
    exact List.mem_append_right _ (List.mem_singleton.2 rfl)
  · rw [emit_of_not_overPcie rfl]
    exact List.mem_append_right _ (List.mem_singleton.2 rfl)

theorem State.forEach_emitItem_out {l : List Item} {i : Item} (hi : i ∈ l) (p : PortNo) (s : State) :
    i.output p ∈ (s.forEach l fun i u => u.emitItem p i).out := by
  unfold forEach
  induction l generalizing s with
  | nil => exact absurd hi (List.not_mem_nil)
  | cons j l ih =>
    rw [List.foldl_cons]
    rcases List.mem_cons.1 hi with rfl | hl
    · exact (Sends.forEach (fun i u => u.emitItem_sends p i) l _).mem_out (emitItem_out s p i)
    · exact ih hl _

/-- The port after its items from a number onward were sent again. -/
theorem State.replayFrom_port (s : State) (p : PortNo) (q : W16) : (s.replayFrom p q).ports[p].replay = s.ports[p].replay ∧
    (s.replayFrom p q).ports[p].oldestSent = s.tick := by
  have hitems : ∀ (t : State) (l : List Item), ((t.forEach l fun i u => u.emitItem p i).ports) = t.ports := fun t l =>
    (show ChangesOnly [.out] _ _ from (forEach_only (fun i u => by apply emitItem_only; simp) _ _).2 (.refl _ _)) .ports
      (by decide)
  unfold replayFrom
  dsimp only
  rw [hitems, emit_frame _ _ .ports (by decide), modPort_ports, vmod_get]
  exact ⟨rfl, rfl⟩

theorem State.replayFrom_out {s : State} {p : PortNo} {q : W16} {i : Item} (hi : i ∈ s.ports[p].replay)
    (hq : (i.seq - q).toNat ≤ 32767) : i.output p ∈ (s.replayFrom p q).out :=
  forEach_emitItem_out (List.mem_filter.2 ⟨hi, decide_eq_true hq⟩) p _

/-- R888: of the ports, a violation changes only its port's record of them. -/
theorem State.violation_ports (s : State) (p : PortNo) (cause : BitVec 8) (ch : Nat) :
    ∃ v, (s.violation p cause ch).ports = (s.modPort p fun q => { q with violations := v }).ports ∧
      ∃ e ∈ v, e.cause = cause := by
  have hsend : ∀ (t : State) (l : List FnNo) (a b : W64), (t.occurAll l 0x4001 a b).ports = t.ports := fun t l a b =>
    t.occurAll_frame l _ a b .ports (by decide)
  unfold violation
  dsimp only
  split
  · next e he =>
    have hcause : e.cause = cause := by simpa using List.find?_some he
    split
    · exact ⟨_, rfl, { e with since := e.since + 1 }, by simp, hcause⟩
    · unfold violation.send
      dsimp only
      rw [hsend]
      exact ⟨_, rfl, _, List.mem_append_right _ (List.mem_singleton.2 rfl), rfl⟩
  · unfold violation.send
    dsimp only
    rw [hsend]
    exact ⟨_, rfl, _, List.mem_append_right _ (List.mem_singleton.2 rfl), rfl⟩

theorem State.violation_sends (s : State) (p : PortNo) (cause : BitVec 8) (ch : Nat) : Sends s (s.violation p cause ch) := by
  have hport : ∀ v, Sends s (s.modPort p fun q => { q with violations := v }) := fun v =>
    modPort_sends _ _ ⟨rfl, [], by simp⟩
  unfold violation
  dsimp only
  split
  · exact .ite (hport _) ((hport _).trans (occurAll_sends _ _ _ _ _))
  · exact (hport _).trans (occurAll_sends _ _ _ _ _)

theorem State.noteStuck_sends (s : State) (p : PortNo) : Sends s (s.noteStuck p) := .ite (violation_sends _ _ _ _) (.refl s)

/-- R854: of its port, what is noted of a replay changes no item. -/
theorem State.noteStuck_port (s : State) (p : PortNo) : (s.noteStuck p).ports[p].replay = s.ports[p].replay ∧
    (s.noteStuck p).ports[p].oldestSent = s.ports[p].oldestSent := by
  by_cases h : s.ports[p].oldestResent = 4
  · obtain ⟨v, hv, -⟩ := s.violation_ports p 5 0xFFF
    rw [noteStuck, if_pos h, hv, modPort_ports, vmod_get]
    exact ⟨rfl, rfl⟩
  · rw [noteStuck, if_neg h]
    exact ⟨rfl, rfl⟩

/-- R851: a replay sends the items from a number onward again, and leaves the replay buffer as it is. -/
theorem State.resend_replays {s : State} {p : PortNo} {q : W16} {i : Item} (hi : i ∈ s.ports[p].replay)
    (hq : (i.seq - q).toNat ≤ 32767) : (s.resend p q).ports[p].replay = s.ports[p].replay ∧
      (s.resend p q).ports[p].oldestSent = s.tick ∧ i.output p ∈ (s.resend p q).out := by
  obtain ⟨hreplay, hsent⟩ := s.replayFrom_port p q
  obtain ⟨hnoted, hwhen⟩ := (s.replayFrom p q).noteStuck_port p
  rw [resend, if_pos (List.any_eq_true.2 ⟨i, hi, decide_eq_true hq⟩)]
  exact ⟨hnoted.trans hreplay, hwhen.trans hsent, (noteStuck_sends _ p).mem_out (replayFrom_out hi hq)⟩

theorem State.resend_replay (s : State) (p : PortNo) (q : W16) : (s.resend p q).ports[p].replay = s.ports[p].replay := by
  unfold resend
  split
  · next h =>
    obtain ⟨i, hi, hq⟩ := List.any_eq_true.1 h
    have := (resend_replays hi (of_decide_eq_true hq)).1
    rwa [resend, if_pos h] at this
  · rfl

theorem unacked_unacked (q : W16) (l : List Item) : unacked q (unacked q l) = unacked q l := by
  simp [unacked, List.filter_filter]

theorem replayTimeout_of_head {p : PortNo} {i : Item} {s : State} (hst : s.ports[p].st = .active)
    (hi : s.ports[p].replay.head? = some i) :
    replayTimeout p s = (s.reach (s.ports[p].oldestSent + 8000)).resend p i.seq := by
  unfold replayTimeout
  rw [hi]
  dsimp only
  rw [if_pos (by rw [hst]; rfl)]

/-- R851: the oldest item is sent again at an instant which comes. -/
theorem State.reach_resend {s : State} {p : PortNo} {i : Item} (hi : s.ports[p].replay.head? = some i) (due : Tick) :
    due ≤ ((s.reach due).resend p i.seq).tick ∧
      ((s.reach due).resend p i.seq).ports[p].replay = s.ports[p].replay ∧
      ((s.reach due).resend p i.seq).ports[p].oldestSent = ((s.reach due).resend p i.seq).tick ∧
      i.output p ∈ ((s.reach due).resend p i.seq).out := by
  have hports : (s.reach due).ports = s.ports := s.reach_frame due .ports (by decide)
  have htick : ((s.reach due).resend p i.seq).tick = (s.reach due).tick :=
    (show ChangesOnly (Comp.allBut [.tick]) _ _ from (resend_only _ _ _ (by simp) (by simp) (by simp) (by simp)).2 (.refl _ _))
      .tick (by decide)
  have hmem : i ∈ (s.reach due).ports[p].replay := by
    rw [hports]
    exact List.mem_of_head? hi
  obtain ⟨hreplay, hsent, hout⟩ := resend_replays hmem (q := i.seq) (by simp)
  rw [htick]
  refine ⟨s.le_reach_tick due, ?_, hsent, hout⟩
  rw [hreplay, hports]

/-! ### Refresh CREDITs -/

/-- The entry with the lower CH of one found before, if any, and another. -/
def lowerCh (best : Option (Nat × Bool × W16)) (e : Nat × Bool × W16) : Option (Nat × Bool × W16) :=
  match best with
  | some b => if e.1 < b.1 then some e else best
  | none => some e

theorem lowerCh_eq (best : Option (Nat × Bool × W16)) (e : Nat × Bool × W16) :
    lowerCh best e = some e ∨ lowerCh best e = best ∧ best ≠ none := by
  cases best with
  | none => exact .inl rfl
  | some b =>
    by_cases h : e.1 < b.1
    · exact .inl (if_pos h)
    · exact .inr ⟨if_neg h, nofun⟩

/-- What the search finds is one of the list, or what it began with. -/
theorem foldl_lowerCh (l : List (Nat × Bool × W16)) (best : Option (Nat × Bool × W16)) :
    (∃ e ∈ l, l.foldl lowerCh best = some e) ∨ l.foldl lowerCh best = best ∧ (l ≠ [] → best ≠ none) := by
  induction l generalizing best with
  | nil => exact .inr ⟨rfl, fun h => absurd rfl h⟩
  | cons a l ih =>
    rw [List.foldl_cons]
    rcases ih (lowerCh best a) with ⟨e, he, hfound⟩ | ⟨hkept, -⟩
    · exact .inl ⟨e, List.mem_cons_of_mem _ he, hfound⟩
    · rcases lowerCh_eq best a with ha | ⟨hb, hne⟩
      · exact .inl ⟨a, List.mem_cons_self, hkept.trans ha⟩
      · exact .inr ⟨hkept.trans hb, fun _ => hne⟩

theorem lowestCh_eq (l : List (Nat × Bool × W16)) (f : Nat → Bool) :
    lowestCh l f = (l.filter fun e => f e.1).foldl lowerCh none := rfl

theorem mem_of_lowestCh {l : List (Nat × Bool × W16)} {f : Nat → Bool} {e : Nat × Bool × W16}
    (h : lowestCh l f = some e) : e ∈ l := by
  rw [lowestCh_eq] at h
  rcases foldl_lowerCh (l.filter fun e => f e.1) none with ⟨x, hx, hfound⟩ | ⟨hkept, -⟩
  · rw [h, Option.some.injEq] at hfound
    exact hfound ▸ (List.mem_filter.1 hx).1
  · rw [h] at hkept
    cases hkept

theorem lowestCh_true_isSome {l : List (Nat × Bool × W16)} (h : l ≠ []) : ∃ e, lowestCh l (fun _ => true) = some e := by
  rw [lowestCh_eq, List.filter_eq_self.2 fun _ _ => rfl]
  rcases foldl_lowerCh l none with ⟨x, -, hfound⟩ | ⟨-, hne⟩
  · exact ⟨x, hfound⟩
  · exact absurd rfl (hne h)

theorem refreshCredit_of_refreshable {p : PortNo} {s : State} (hst : s.ports[p].st = .active) (h : s.refreshable p ≠ []) :
    ∃ e ∈ s.refreshable p, refreshCredit p s =
      (s.modPort p fun q => { q with refreshed := e.1 }).emit (.block p (creditBlock e.1 e.2.1 e.2.2)) := by
  obtain ⟨a, ha⟩ := lowestCh_true_isSome h
  have hact : ¬ (s.ports[p].st != .active) = true := by rw [hst]; decide
  unfold refreshCredit
  rw [if_neg hact]
  dsimp only
  cases hn : lowestCh (s.refreshable p) fun c => decide (s.ports[p].refreshed < c) with
  | some e => exact ⟨e, mem_of_lowestCh hn, rfl⟩
  | none =>
    rw [ha]
    exact ⟨a, mem_of_lowestCh ha, rfl⟩

/-! ### Credits received -/

theorem State.rxCredit_of_unbound {s : State} {p : PortNo} {ch : Nat} (hch : ch < 4095) (h : s.chanOn p ch = none)
    (f : Credit → Credit) : s.rxCredit p ch f = s.modPort p fun q => { q with
      farCredits := spPut q.farCredits ch (f ((spGet q.farCredits ch).getD Credit.zero)) } := by
  unfold rxCredit
  rw [if_neg (by omega), h]

/-- What a channel end holds as transmitter changes as the CREDIT tells. -/
theorem State.rxCredit_of_bound {s : State} {p : PortNo} {ch : Nat} {x : Chan} (hch : ch < 4095)
    (h : s.chanOn p ch = some x) (hx : s.chan x.num = some x) (f : Credit → Credit) :
    ∃ y, (s.rxCredit p ch f).chan x.num = some y ∧ y.q.tx.limit = (f x.q.tx).limit := by
  obtain ⟨y, hy, hsame⟩ := pumpChans_modChan (s := s) (f := fun y => { y with q := { y.q with tx := f y.q.tx } })
    (fun _ => rfl) hx (some p)
  refine ⟨y, ?_, congrArg (fun c => c.q.tx.limit) hsame⟩
  unfold rxCredit
  rw [if_neg (by omega), h]
  exact hy

/-- Settles O43. -/
theorem acknowledgementAndCredits : Obligations.AcknowledgementAndCredits := by
  unfold Obligations.AcknowledgementAndCredits
  refine ⟨fun l q s hst hin => ?_, fun l q s hst hin => ?_, fun p i s hst hi => ?_, fun l ch m s hst hin hch => ?_,
    fun l ch m s hst hin hch => ?_, fun p s hst h => ?_⟩
  · obtain ⟨k, hk⟩ := s.covered_replay (portOf l) q
    have hexec : exec (.ack l (ackBlock 0x10 q)) s = .next (s.covered_ (portOf l) q) := by
      refine congrArg Host.Outcome.next ((rxStriped_ackBlock q (.inl rfl) hst hin _).trans ?_)
      rw [if_pos (show blockKind (ackBlock 0x10 q) = 1 from blockKind_ackBlock q (.inl rfl)), ackBlock_seq q (.inl rfl)]
    exact ⟨_, k, hexec, hk⟩
  · have hexec : exec (.nak l (ackBlock 0x20 q)) s =
        .next (((s.coverItems (portOf l) (q - 1)).resend (portOf l) q).covered_ (portOf l) (q - 1)) := by
      refine congrArg Host.Outcome.next ((rxStriped_ackBlock q (.inr rfl) hst hin _).trans ?_)
      dsimp only
      rw [if_pos (show blockKind (ackBlock 0x20 q) = 2 from blockKind_ackBlock q (.inr rfl)), ackBlock_seq q (.inr rfl)]
    have hcovered := s.coverItems_replay (portOf l) (q - 1)
    obtain ⟨k, hk⟩ := ((s.coverItems (portOf l) (q - 1)).resend (portOf l) q).covered_replay (portOf l) (q - 1)
    rw [State.resend_replay, hcovered, unacked_unacked] at hk
    refine ⟨_, k, hexec, hk, fun i hi hleft hq => ?_⟩
    have hmem : i ∈ (s.coverItems (portOf l) (q - 1)).ports[portOf l].replay := by
      rw [hcovered]
      exact List.mem_filter.2 ⟨hi, by simpa using hleft⟩
    obtain ⟨-, -, hout⟩ := State.resend_replays hmem hq
    obtain ⟨n, hn⟩ := ((State.coverItems_grows _ _ _).trans (State.covered_sends
      ((s.coverItems (portOf l) (q - 1)).resend (portOf l) q) (portOf l) (q - 1)).grows).out
    rw [hn]
    exact List.mem_append_left _ hout
  · obtain ⟨htick, hreplay, hsent, hout⟩ := State.reach_resend hi (s.ports[p].oldestSent + 8000)
    exact ⟨_, congrArg Host.Outcome.next (replayTimeout_of_head hst hi), htick, hreplay, hsent, hout⟩
  · have hblock : exec (.credit l (creditBlock ch false m)) s =
        .next (s.rxCredit (portOf l) ch fun c => c.update m) := by
      refine congrArg Host.Outcome.next ((rxStriped_creditBlock (by omega) false m hst hin _).trans ?_)
      rw [if_neg (by rw [creditBlock_withdraw (by omega)]; decide), blockCh_creditBlock (by omega),
        creditBlock_limit (by omega)]
    refine ⟨fun hx => ?_, fun x hx hnum => ?_⟩
    · rw [hblock, State.rxCredit_of_unbound hch hx]
    · obtain ⟨y, hy, hlimit⟩ := State.rxCredit_of_bound hch hx hnum fun c => c.update m
      exact ⟨_, y, hblock, hy, hlimit⟩
  · have hblock : exec (.creditWithdraw l (creditBlock ch true m)) s =
        .next (s.rxCredit (portOf l) ch fun c => { c with limit := c.consumed }) := by
      refine congrArg Host.Outcome.next ((rxStriped_creditBlock (by omega) true m hst hin _).trans ?_)
      rw [if_pos (creditBlock_withdraw (by omega) true m), blockCh_creditBlock (by omega)]
    refine ⟨fun hx => ?_, fun x hx hnum => ?_⟩
    · rw [hblock, State.rxCredit_of_unbound hch hx]
    · obtain ⟨y, hy, hlimit⟩ := State.rxCredit_of_bound hch hx hnum fun c => { c with limit := c.consumed }
      exact ⟨_, y, hblock, hy, hlimit⟩
  · obtain ⟨e, he, hrefreshed⟩ := refreshCredit_of_refreshable hst h
    exact ⟨e, he, congrArg Host.Outcome.next hrefreshed⟩

end Sys2Proof.Machine
end

section
/-!
PROOFS. The states of a port: what a port has once it leaves ACTIVE, is disabled, or enters another state of its training
(R800, R801, R821).
-/

namespace Sys2Proof.Machine

/-! ### What every port keeps -/

/-- The ports of two states are the same in what `f` tells of them. -/
def PortsKeep {α : Type} (f : Port → α) (s t : State) : Prop := ∀ p : PortNo, f t.ports[p] = f s.ports[p]

/-- A port without what sending, synchronisation and a lane's fence change of it. -/
def Port.service (q : Port) : Port := { q.training with lanes := 0, sync := none }

section
variable {α : Type} {f : Port → α} {r s t : State}

theorem PortsKeep.refl (s : State) : PortsKeep f s s := fun _ => rfl

theorem PortsKeep.trans (h : PortsKeep f r s) (g : PortsKeep f s t) : PortsKeep f r t := fun p => (g p).trans (h p)

theorem PortsKeep.of_eq (h : t.ports = s.ports) : PortsKeep f s t := fun p => by rw [h]

theorem PortsKeep.of_only {ks : List Comp} (h : ChangesOnly ks s t) (hk : Comp.ports ∉ ks) : PortsKeep f s t :=
  .of_eq (h .ports hk)

/-- An operation whose law asks for no right to change the ports. -/
theorem PortsKeep.of_law
    (h : ChangesOnly (Comp.allBut [.ports]) s t ↔ ChangesOnly (Comp.allBut [.ports]) s s) : PortsKeep f s t :=
  .of_only (h.2 (ChangesOnly.refl _ _)) (by decide)

theorem PortsKeep.forEach {β : Type} {g : β → State → State} (h : ∀ a t, PortsKeep f t (g a t)) (l : List β)
    (s : State) : PortsKeep f s (s.forEach l g) := by
  unfold State.forEach
  induction l generalizing s with
  | nil => exact .refl s
  | cons a l ih => exact (h a s).trans (ih (g a s))

theorem PortsKeep.ite {c : Prop} [Decidable c] (h : PortsKeep f s t) (g : PortsKeep f s r) :
    PortsKeep f s (if c then t else r) := by
  split
  · exact h
  · exact g

/-- What is told of what is kept is kept too. -/
theorem PortsKeep.field {β : Type} {f : Port → Port} (h : PortsKeep f s t) (g : Port → β) (hg : ∀ q, g (f q) = g q) :
    PortsKeep g s t := fun p => by rw [← hg, h p, hg]

theorem State.modPort_portsKeep (s : State) (p : PortNo) {g : Port → Port} (h : f (g s.ports[p]) = f s.ports[p]) :
    PortsKeep f s (s.modPort p g) := fun q => by
  by_cases e : q = p
  · subst e
    rw [modPort_port, h]
  · rw [modPort_port_ne _ _ e]

end

/-- Sending keeps a port's training. -/
theorem Sends.training {s t : State} (h : Sends s t) : PortsKeep Port.training s t := fun p => (h.sent p).1

theorem Sends.service {s t : State} (h : Sends s t) : PortsKeep Port.service s t :=
  h.training.field Port.service fun _ => rfl

/-! ### Leaving ACTIVE -/

theorem State.syncLost_service (s : State) (p : PortNo) (cause : BitVec 8) :
    PortsKeep Port.service s (s.syncLost p cause) := by
  cases hy : s.ports[p].sync with
  | none =>
    unfold syncLost
    rw [hy]
    exact .refl s
  | some y =>
    refine PortsKeep.trans (modPort_portsKeep _ p ?_) (.of_eq (State.syncLost_of_sync hy cause .ports (by decide)))
    rfl

theorem State.endLaneFence_service (s : State) (id : Nat) (l : LaneNo) : PortsKeep Port.service s (s.endLaneFence id l) := by
  unfold endLaneFence
  refine .ite (completeOk_sends _ _ _ _).service ?_
  dsimp only
  refine PortsKeep.trans ?_ (completeOk_sends _ _ _ _).service
  refine PortsKeep.trans (.of_law ?_) (modPort_portsKeep _ _ ?_)
  · simp [unitFailed_only, fenceLane_only]
  · rfl

/-- A port whose width changes, and a PORT_SET_WIDTH behind them, are dropped. -/
def Port.dropWidths (q : Port) : Port := { q with wc := none, farWc := none, widthCmd := none }

theorem State.dropWidthChange_service (s : State) (p : PortNo) :
    PortsKeep Port.service (s.modPort p Port.dropWidths) (s.dropWidthChange p) := by
  have hchange : ∀ t : State, PortsKeep Port.service t (match s.ports[p].wc with
      | some w => match w.cause with
        | .command id => t.portCommandEnds p id stLinkDown 0
        | .fence id l => t.endLaneFence id l
        | .failure => t
      | none => t) := fun t => by
    split
    · split
      · exact (complete_sends _ _ _ _ _ _ _).service
      · exact endLaneFence_service _ _ _
      · exact .refl t
    · exact .refl t
  unfold dropWidthChange
  dsimp only
  split
  · exact (hchange _).trans (complete_sends _ _ _ _ _ _ _).service
  · exact hchange _

/-- R801: of its ports' service, what leaves ACTIVE changes only the width changes of one. -/
theorem State.leaveActive_service {s : State} {p : PortNo} (h : s.ports[p].st = .active) :
    PortsKeep Port.service (s.modPort p Port.dropWidths) (s.leaveActive p) := by
  unfold leaveActive
  rw [if_neg (by rw [h]; decide)]
  dsimp only
  have hlost := (s.dropWidthChange_service p).trans (syncLost_service _ p 1)
  have hpair : PortsKeep Port.service (s.modPort p Port.dropWidths)
      (if p.val = 7 then ((s.dropWidthChange p).syncLost p 1).endPair 1 false else (s.dropWidthChange p).syncLost p 1) :=
    .ite (hlost.trans (endPair_sends _ _ _).service) hlost
  refine .ite ?_ hpair
  split
  · exact (hpair.trans (modLock_sends _ _).service).trans (complete_sends _ _ _ _ _ _ _).service
  · exact hpair.trans (modLock_sends _ _).service

/-- The state, the reason and the count of RETRAINs of no port change as one leaves ACTIVE. -/
theorem State.leaveActive_keeps {α : Type} (f : Port → α) (hservice : ∀ q, f q.service = f q)
    (hwidths : ∀ q, f q.dropWidths = f q) (s : State) (p : PortNo) : PortsKeep f s (s.leaveActive p) := by
  by_cases h : s.ports[p].st = .active
  · exact (modPort_portsKeep s p (hwidths _)).trans ((leaveActive_service h).field f hservice)
  · rw [leaveActive_of_not_active h]
    exact .refl s

theorem State.leaveActive_wc {s : State} {p : PortNo} (h : s.ports[p].st = .active) :
    (s.leaveActive p).ports[p].wc = none := by
  have hs := (leaveActive_service h).field Port.wc (fun _ => rfl) p
  rwa [modPort_port] at hs

theorem State.leaveActive_tick (s : State) (p : PortNo) : (s.leaveActive p).tick = s.tick :=
  (show ChangesOnly (Comp.allBut [.tick]) s (s.leaveActive p) by simp [leaveActive_only, changesOnly_self]) .tick
    (by decide)

/-! ### DISABLED -/

/-- A port as it enters DISABLED. -/
def Port.disable (reason : BitVec 8) (q : Port) : Port :=
  { q with st := .disabled, reason, cmd := none, lanes := 0, inUse := 0, replay := [], incoming := none
           farAccepted := false, wc := none, farWc := none, retrainStep := 0, skipping := false, nakAt := none }

theorem State.notePort_sends (s : State) (p : PortNo) : Sends s (s.notePort p) := occurAll_sends _ _ _ _ _

theorem State.modLane_sends (s : State) (l : LaneNo) (f : LaneSt → LaneSt) : Sends s (s.modLane l f) :=
  .of_grows (.of_eq rfl rfl) rfl

/-- What follows as a port is disabled keeps the ports' training. -/
theorem State.toDisabled_sends (s : State) (p : PortNo) (reason : BitVec 8) :
    Sends (((s.leaveActive p).dropPortFrames p).modPort p (Port.disable reason)) (s.toDisabled p reason) := by
  unfold toDisabled
  dsimp only
  refine Sends.trans ?_ (settlePool_sends _)
  refine Sends.trans ?_ (.of_law (by apply reclaimAll_only; simp))
  have hnoted : ∀ t : State, Sends t ((((t.forEach (lanesOf p) fun l u => u.modLane l fun x =>
      { LaneSt.idle with rejoin := x.rejoin }).dropPortMessages p).portLapseEnds p).notePort p) := fun t => by
    refine Sends.trans ?_ (notePort_sends _ _)
    refine Sends.trans ?_ (.of_law (by apply portLapseEnds_only; simp))
    refine Sends.trans ?_ (dropPortMessages_sends _ _)
    exact .forEach (fun _ _ => modLane_sends _ _ _) _ _
  split
  · exact (hnoted _).trans (complete_sends _ _ _ _ _ _ _)
  · exact hnoted _

/-- R801: a port which enters DISABLED is disabled, for its reason, with no lane in service. -/
theorem State.toDisabled_port (s : State) (p : PortNo) (reason : BitVec 8) :
    (s.toDisabled p reason).ports[p].st = .disabled ∧ (s.toDisabled p reason).ports[p].reason = reason ∧
      (s.toDisabled p reason).ports[p].lanes = 0 := by
  have h := (s.toDisabled_sends p reason).training
  refine ⟨(h.field Port.st (fun _ => rfl) p).trans ?_, (h.field Port.reason (fun _ => rfl) p).trans ?_,
    (h.field Port.lanes (fun _ => rfl) p).trans ?_⟩ <;>
    rw [modPort_port] <;> rfl

theorem State.dropPortFrames_ports (s : State) (p : PortNo) : (s.dropPortFrames p).ports = s.ports :=
  (show ChangesOnly (Comp.allBut [.ports]) _ _ from
    (dropPortFrames_only _ _ (by simp) (by simp) (by simp) (by simp)).2 (.refl _ _)) .ports (by decide)

theorem State.toDisabled_tick (s : State) (p : PortNo) (reason : BitVec 8) : (s.toDisabled p reason).tick = s.tick :=
  (show ChangesOnly (Comp.allBut [.tick]) s (s.toDisabled p reason) by simp [toDisabled_only, changesOnly_self]) .tick
    (by decide)

/-- R801: the command of a port which is disabled completes. -/
theorem State.toDisabled_outst {s : State} {p : PortNo} {i : Nat} (h : s.ports[p].cmd = some i) (reason : BitVec 8) :
    ∀ o ∈ (s.toDisabled p reason).outst, o.id ≠ i := by
  unfold toDisabled
  dsimp only
  rw [h]
  dsimp only
  have hkept : ∀ t : State, OutstShrinks t (t.reclaimAll s).settlePool := fun t =>
    .of_only (ks := Comp.allBut [.outst]) (by simp [settlePool_only, reclaimAll_only, changesOnly_self]) (by decide)
  exact (hkept _).not_mem not_mem_complete_outst

/-! ### RETRAIN, EQUALIZE, ALIGN and NEGOTIATE -/

theorem State.sendTs_sends (s : State) (l : LaneNo) (stage reason count : Nat) : Sends s (s.sendTs l stage reason count) :=
  (modLane_sends _ _ _).trans (emit_sends _ _)

theorem State.showTs_sends (s : State) (l : LaneNo) : Sends s (s.showTs l) :=
  .ite (sendTs_sends _ _ _ _ _) (.ite (sendTs_sends _ _ _ _ _) (.refl s))

theorem State.showAll_sends (s : State) (ls : List LaneNo) : Sends s (s.showAll ls) :=
  .forEach (fun _ _ => showTs_sends _ _) _ _

theorem State.replicate_sends (s : State) (p : PortNo) (w : W64) (n : Nat) : Sends s (s.replicate p w n) :=
  .forEach (fun _ _ => emit_sends _ _) _ _

theorem State.portLapse_sends (s : State) (p : PortNo) : Sends s (s.portLapse p) := by
  refine .forEach (fun n t => .ite (.refl t) ?_) _ _
  exact Sends.trans (.of_law (by apply upd_slots_only; simp)) (sendRec_sends _ _ _)

/-- A port as its timer starts. -/
def Port.timed (due : Tick) (q : Port) : Port := { q with due }

theorem State.startTimer_eq (s : State) (p : PortNo) (ms : Nat) :
    s.startTimer p ms = s.modPort p (Port.timed (s.tick + BitVec.ofNat 64 (800000 * ms))) := rfl

/-- A port as it enters RETRAIN. -/
def Port.retrain (q : Port) : Port :=
  { q with st := .retrain, retrainStep := 1, retrains := q.retrains + 1, skipping := false, nakAt := none }

theorem State.enterRetrain_sends (s : State) (p : PortNo) :
    Sends (((s.leaveActive p).modPort p Port.retrain).startTimer p 5) (s.enterRetrain p) := by
  unfold enterRetrain
  dsimp only
  refine Sends.trans ?_ (portLapse_sends _ _)
  refine Sends.trans ?_ (notePort_sends _ _)
  refine Sends.trans ?_ (showAll_sends _ _)
  exact .forEach (fun _ _ => modLane_sends _ _ _) _ _

/-- R801, R821: a port which enters RETRAIN, for 5 ms. -/
theorem State.enterRetrain_port (s : State) (p : PortNo) : (s.enterRetrain p).ports[p].st = .retrain ∧
    (s.enterRetrain p).ports[p].due = s.tick + BitVec.ofNat 64 (800000 * 5) ∧
    (s.enterRetrain p).ports[p].retrains = s.ports[p].retrains + 1 ∧
    (s.enterRetrain p).ports[p].wc = (s.leaveActive p).ports[p].wc := by
  have h := (s.enterRetrain_sends p).training
  have hcount := s.leaveActive_keeps Port.retrains (fun _ => rfl) (fun _ => rfl) p p
  refine ⟨(h.field Port.st (fun _ => rfl) p).trans ?_, (h.field Port.due (fun _ => rfl) p).trans ?_,
    (h.field Port.retrains (fun _ => rfl) p).trans ?_, (h.field Port.wc (fun _ => rfl) p).trans ?_⟩
  · rw [startTimer_eq, modPort_port, modPort_port]
    rfl
  · rw [startTimer_eq, modPort_port, modPort_tick, leaveActive_tick]
    rfl
  · rw [startTimer_eq, modPort_port, modPort_port, ← hcount]
    rfl
  · rw [startTimer_eq, modPort_port, modPort_port]
    rfl

/-- No other port changes state. -/
theorem State.enterRetrain_st_ne (s : State) {p q : PortNo} (h : q ≠ p) :
    (s.enterRetrain p).ports[q].st = s.ports[q].st := by
  have hdown := (s.enterRetrain_sends p).training.field Port.st (fun _ => rfl) q
  rw [startTimer_eq, modPort_port_ne _ _ h, modPort_port_ne _ _ h] at hdown
  exact hdown.trans (leaveActive_keeps Port.st (fun _ => rfl) (fun _ => rfl) s p q)

/-- A port as it enters EQUALIZE. -/
def Port.equalize (q : Port) : Port := { q with st := .equalize, lanes := 0, inUse := 0, retrainStep := 0 }

/-- R801: a port which enters EQUALIZE, for 10 ms. -/
theorem State.enterEqualize_port (s : State) (p : PortNo) : (s.enterEqualize p).ports[p].st = .equalize ∧
    (s.enterEqualize p).ports[p].due = s.tick + BitVec.ofNat 64 (800000 * 10) := by
  have h : Sends ((s.modPort p Port.equalize).startTimer p 10) (s.enterEqualize p) := by
    unfold enterEqualize
    dsimp only
    refine Sends.trans ?_ (notePort_sends _ _)
    refine Sends.trans ?_ (showAll_sends _ _)
    exact .forEach (fun _ _ => modLane_sends _ _ _) _ _
  refine ⟨(h.training.field Port.st (fun _ => rfl) p).trans ?_, (h.training.field Port.due (fun _ => rfl) p).trans ?_⟩
  · rw [startTimer_eq, modPort_port, modPort_port]
    rfl
  · rw [startTimer_eq, modPort_port]
    rfl

/-! ### Lanes which training leaves out -/

theorem State.fenceLane_fences (s : State) (l : LaneNo) (cause : BitVec 8) :
    (s.fenceLane l cause).1.units.lanes[l].fenced = true := by
  have hlog : ChangesOnly [.faults, .telem] (s.modUnit (.lane l) fun u => { u with fenced := true, passed := false })
      (s.fenceLane l cause).1 := by
    unfold fenceLane
    exact (fault_only _ _ _ _ _ _ _ _ _ (by decide) (by decide)).2 (.refl _ _)
  have hunits : (s.fenceLane l cause).1.unitSt (.lane l) = _ := unitSt_of_units (hlog .units (by decide)) _
  rw [modUnit_unitSt] at hunits
  exact congrArg UnitSt.fenced hunits

theorem State.fenceLanes_frame (s : State) (ls : List LaneNo) :
    ChangesOnly [.units, .faults, .telem] s (s.fenceLanes ls) := by
  simp (disch := decide) only [fenceLanes_only, changesOnly_self]

/-- A lane with a mark does not serve. -/
theorem UnitSt.not_up_of_fenced {x : UnitSt} (h : x.fenced = true) : x.up = false := by simp [UnitSt.up, h]

theorem MarksKept.not_up {s t : State} (h : MarksKept s t) {u : Unit_} (hu : (s.unitSt u).up = false) :
    (t.unitSt u).up = false := by
  obtain ⟨hfenced, hretired⟩ := h u
  have hmark : (s.unitSt u).retired = true ∨ (s.unitSt u).fenced = true := by
    simpa [UnitSt.up, ← Bool.not_eq_true, Classical.or_iff_not_imp_left] using hu
  rcases hmark with hr | hf
  · simp [UnitSt.up, hretired hr]
  · simp [UnitSt.up, hfenced hf]

theorem State.fenceLanes_fences {ls : List LaneNo} {l : LaneNo} (h : l ∈ ls) (s : State) :
    (s.fenceLanes ls).units.lanes[l].fenced = true := by
  unfold fenceLanes forEach
  induction ls generalizing s with
  | nil => exact absurd h List.not_mem_nil
  | cons k ls ih =>
    rw [List.foldl_cons]
    rcases List.mem_cons.1 h with rfl | hl
    · exact ((fenceLanes_marksKept (s.fenceLane l 6).1 ls) (.lane l)).1 (fenceLane_fences s l 6)
    · exact ih hl _

/-- A lane of a port does not serve once training has left it out. -/
theorem State.fenceLanes_training_down {s : State} {p : PortNo} {l : LaneNo} {f : LaneNo → Bool} (hl : l ∈ lanesOf p)
    (hf : f l = true) : (s.fenceLanes ((s.training p).filter f)).units.lanes[l].up = false := by
  cases hup : s.laneUp l with
  | true =>
    refine UnitSt.not_up_of_fenced (fenceLanes_fences (List.mem_filter.2 ⟨List.mem_filter.2 ⟨hl, hup⟩, hf⟩) s)
  | false => exact (s.fenceLanes_marksKept _).not_up (u := .lane l) hup

/-- A port as it enters ALIGN with some lanes. -/
def Port.align (lanes : BitVec 4) (q : Port) : Port := { q with st := .align, lanes }

/-- R801: a port which enters ALIGN, for 4 ms; the lanes which are not equalised serve no more. -/
theorem State.enterAlign_port (s : State) (p : PortNo) : (s.enterAlign p).ports[p].st = .align ∧
    (s.enterAlign p).ports[p].due = s.tick + BitVec.ofNat 64 (800000 * 4) ∧
    ∀ l ∈ lanesOf p, s.lanes[l].equalised = false → (s.enterAlign p).units.lanes[l].up = false := by
  have hfence := s.fenceLanes_frame ((s.training p).filter fun l => !(s.lanes[l].equalised))
  have htick := hfence .tick (by decide)
  have hdown : ∀ l ∈ lanesOf p, s.lanes[l].equalised = false →
      (s.fenceLanes ((s.training p).filter fun l => !(s.lanes[l].equalised))).units.lanes[l].up = false :=
    fun l hl he => fenceLanes_training_down hl (by rw [he]; rfl)
  unfold enterAlign
  dsimp only
  generalize s.fenceLanes ((s.training p).filter fun l => !(s.lanes[l].equalised)) = t at htick hdown
  have h : ∀ u : State, Sends u ((u.forEach (lanesOf p) fun l v => v.modLane l fun x =>
      { x with arrival := none, deskewed := false, farDeskewed := false }).notePort p) := fun u =>
    Sends.trans (.forEach (fun _ _ => modLane_sends _ _ _) _ _) (notePort_sends _ _)
  refine ⟨((h _).training.field Port.st (fun _ => rfl) p).trans ?_, ((h _).training.field Port.due (fun _ => rfl) p).trans ?_,
    fun l hl he => ?_⟩
  · rw [startTimer_eq, modPort_port, modPort_port]
    rfl
  · rw [startTimer_eq, modPort_port]
    rw [← htick]
    rfl
  · have hunits : ∀ u : State, ((u.forEach (lanesOf p) fun l v => v.modLane l fun x =>
        { x with arrival := none, deskewed := false, farDeskewed := false }).notePort p).units = u.units := fun u =>
      (show ChangesOnly (Comp.allBut [.units]) _ _ by simp [notePort_only, forEach_only, modLane_only, changesOnly_self])
        .units (by decide)
    rw [hunits]
    exact hdown l hl he

end Sys2Proof.Machine
end

section
/-!
PROOFS. The timers of a port's state (R801).
-/

namespace Sys2Proof.Machine

/-- A timer which expires has its effect at an instant not before the one which the port holds. -/
theorem onTimer_of_state {p : PortNo} {st : PState} {s : State} (h : s.ports[p].st = st) (f : State → State) :
    onTimer p st f s = f (s.reach s.ports[p].due) := if_pos (beq_iff_eq.2 h)

/-- R801: a port whose timer disables it. -/
theorem timer_disables (s : State) (p : PortNo) (reason : BitVec 8) (due : Tick) :
    ((s.reach due).toDisabled p reason).ports[p].st = .disabled ∧
      ((s.reach due).toDisabled p reason).ports[p].reason = reason ∧ due ≤ ((s.reach due).toDisabled p reason).tick := by
  obtain ⟨hst, hreason, -⟩ := (s.reach due).toDisabled_port p reason
  rw [State.toDisabled_tick]
  exact ⟨hst, hreason, s.le_reach_tick due⟩

theorem State.training_equalised (s : State) (p : PortNo) : ((s.training p).any fun l => s.lanes[l].equalised) =
    (lanesOf p).any fun l => s.units.lanes[l].up && s.lanes[l].equalised := by
  unfold training
  rw [List.any_filter]
  rfl

theorem State.enterAlign_tick (s : State) (p : PortNo) : (s.enterAlign p).tick = s.tick :=
  (show ChangesOnly (Comp.allBut [.tick]) s (s.enterAlign p) by simp [enterAlign_only, changesOnly_self]) .tick (by decide)

theorem State.enterEqualize_tick (s : State) (p : PortNo) : (s.enterEqualize p).tick = s.tick :=
  (show ChangesOnly (Comp.allBut [.tick]) s (s.enterEqualize p) by simp [enterEqualize_only, changesOnly_self]) .tick
    (by decide)

/-- R801: EQUALIZE's timer leads on with a lane which is equalised, and disables the port without one. -/
theorem equalizeTimer (s : State) (p : PortNo) (due : Tick) :
    ∃ t, t = (if ((s.reach due).training p).any fun l => (s.reach due).lanes[l].equalised then (s.reach due).enterAlign p
        else (s.reach due).toDisabled p 5) ∧ due ≤ t.tick ∧
      (if (lanesOf p).any fun l => s.units.lanes[l].up && s.lanes[l].equalised then
        t.ports[p].st = .align ∧ t.ports[p].due = t.tick + 3200000 ∧
          (∀ l ∈ lanesOf p, s.lanes[l].equalised = false → t.units.lanes[l].up = false)
      else t.ports[p].st = .disabled ∧ t.ports[p].reason = 5) := by
  have hle := s.le_reach_tick due
  have hunits : (s.reach due).units = s.units := s.reach_frame due .units (by decide)
  have hlanes : (s.reach due).lanes = s.lanes := s.reach_frame due .lanes (by decide)
  rw [State.training_equalised, ← hunits, ← hlanes]
  generalize s.reach due = u at hle
  refine ⟨_, rfl, ?_⟩
  split
  · obtain ⟨hst, hdue, hdown⟩ := u.enterAlign_port p
    rw [u.enterAlign_tick]
    exact ⟨hle, hst, hdue, hdown⟩
  · obtain ⟨hst, hreason, -⟩ := u.toDisabled_port p 5
    rw [State.toDisabled_tick]
    exact ⟨hle, hst, hreason⟩

/-- R801, R821: RETRAIN's timer leads to EQUALIZE, or disables a port whose reference is lost. -/
theorem retrainTimer (s : State) (p : PortNo) (due : Tick) :
    ∃ t, t = (if (s.reach due).boot.poicaLost then (s.reach due).toDisabled p 0x0C
        else ((s.reach due).portLapseEnds p).enterEqualize p) ∧ due ≤ t.tick ∧
      (if s.boot.poicaLost then t.ports[p].st = .disabled ∧ t.ports[p].reason = 0x0C
      else t.ports[p].st = .equalize ∧ t.ports[p].due = t.tick + 8000000) := by
  have hle := s.le_reach_tick due
  have hboot : (s.reach due).boot = s.boot := s.reach_frame due .boot (by decide)
  rw [← hboot]
  generalize s.reach due = u at hle
  refine ⟨_, rfl, ?_⟩
  split
  · obtain ⟨hst, hreason, -⟩ := u.toDisabled_port p 0x0C
    rw [State.toDisabled_tick]
    exact ⟨hle, hst, hreason⟩
  · obtain ⟨hst, hdue⟩ := (u.portLapseEnds p).enterEqualize_port p
    rw [State.enterEqualize_tick]
    exact ⟨hle, hst, hdue⟩

/-- Settles O39. -/
theorem trainingTimers : Obligations.TrainingTimers := by
  unfold Obligations.TrainingTimers
  refine ⟨fun p s h => ?_, fun p s h => ?_, fun p s h => ?_, fun p s h => ?_, fun p s h => ?_⟩
  · obtain ⟨hst, hreason, htick⟩ := timer_disables s p 4 s.ports[p].due
    have hports : (s.reach s.ports[p].due).ports = s.ports := s.reach_frame _ .ports (by decide)
    refine ⟨_, congrArg Host.Outcome.next (onTimer_of_state h _), hst, hreason, (State.toDisabled_port _ p 4).2.2, htick,
      fun i hi => State.toDisabled_outst ?_ 4⟩
    rw [hports, hi]
  · obtain ⟨t, ht, htick, hled⟩ := equalizeTimer s p s.ports[p].due
    exact ⟨t, congrArg Host.Outcome.next ((onTimer_of_state h _).trans ht.symm), htick, hled⟩
  · obtain ⟨hst, hreason, htick⟩ := timer_disables s p 6 s.ports[p].due
    exact ⟨_, congrArg Host.Outcome.next (onTimer_of_state h _), hst, hreason, htick⟩
  · obtain ⟨hst, hreason, htick⟩ := timer_disables s p 7 s.ports[p].due
    exact ⟨_, congrArg Host.Outcome.next (onTimer_of_state h _), hst, hreason, htick⟩
  · obtain ⟨t, ht, htick, hled⟩ := retrainTimer s p s.ports[p].due
    exact ⟨t, congrArg Host.Outcome.next ((onTimer_of_state h _).trans ht.symm), htick, hled⟩

end Sys2Proof.Machine
end

section
/-!
PROOFS. Faults of units, and clocks which are lost and come back (R92, R136, R139, R803, R1010, R1036).
-/

namespace Sys2Proof.Machine

/-! ### A list of operations -/

/-- What one operation of a list brings about, and none undoes, holds after them all. -/
theorem State.forEach_establishes {α : Type} {f : α → State → State} {P : State → Prop} {l : List α} {a : α} (ha : a ∈ l)
    (hset : ∀ t, P (f a t)) (hkeep : ∀ b t, P t → P (f b t)) (s : State) : P (s.forEach l f) := by
  have hrest : ∀ (m : List α) (t : State), P t → P (m.foldl (fun t b => f b t) t) := fun m => by
    induction m with
    | nil => exact fun _ h => h
    | cons b m ih => exact fun t h => ih _ (hkeep b t h)
  unfold forEach
  induction l generalizing s with
  | nil => exact absurd ha List.not_mem_nil
  | cons b l ih =>
    rw [List.foldl_cons]
    rcases List.mem_cons.1 ha with rfl | hl
    · exact hrest l _ (hset s)
    · exact ih hl _

/-! ### Faults -/

theorem exec_unitFault_of_unit {w : W16} {u : Unit_} (h : unitOf w = some u) (cause : BitVec 8) (detail : BitVec 224)
    (s : State) : exec (.unitFault w cause detail) s = .next (s.failUnit u cause detail) := by
  change execUnitFault w cause detail s = _
  rw [execUnitFault, h]

theorem exec_requestOpenTimeout_of_unit {w : W16} {u : Unit_} (h : unitOf w = some u) (s : State) :
    exec (.requestOpenTimeout w) s = .next (s.failUnit u 3 0) := by
  change execRequestOpenTimeout w s = _
  rw [execRequestOpenTimeout, h]

theorem exec_malformedReply_of_unit {w : W16} {u : Unit_} (h : unitOf w = some u) (q : Option W16) (k : Nat) (s : State) :
    exec (.malformedReply w ⟨q, k⟩) s = .next (if k < s.epochAt u q then s else s.failUnit u 0x0C 0x0F00) := by
  change execMalformedReply w ⟨q, k⟩ s = _
  rw [execMalformedReply, h]

/-! ### A PLL out of lock -/

theorem State.lapse_marksKept (s : State) (cause : BitVec 8) (w : W16) (l : List FnNo) : MarksKept s (s.lapse cause w l) :=
  .of_law (by apply lapse_only <;> simp)

theorem State.moveContexts_marksKept (s : State) (e : EngNo) : MarksKept s (s.moveContexts e) :=
  .of_law (by apply moveContexts_only <;> simp)

/-- What a hold of a unit costs at once takes no mark away. -/
theorem State.holdCost_marksKept (t : State) (u : Unit_) : MarksKept t (match u with
    | .cluster c => t.loseCluster c
    | .slate e => t.moveContexts e
    | .port p => if t.ports[p].st == .disabled then t else t.toDisabled p 0x0B
    | _ => t) := by
  cases u with
  | cluster c => exact loseCluster_marksKept t c
  | slate e => exact moveContexts_marksKept t e
  | port p => exact .ite (.refl t) (toDisabled_marksKept t p 0x0B)
  | _ => exact .refl t

/-- R139: a unit which is held is fenced, and no unit loses a mark. -/
theorem State.holdUnit_marks (s : State) (u : Unit_) :
    ((s.holdUnit u).unitSt u).fenced = true ∧ MarksKept s (s.holdUnit u) := by
  have hmark := s.modUnit_marksKept u (f := fun x => { x with fenced := true, passed := false, draining := none })
    fun x => ⟨fun _ => rfl, id⟩
  have hrest : MarksKept (s.modUnit u fun x => { x with fenced := true, passed := false, draining := none })
      (s.holdUnit u) := by
    have hcut : ∀ t : State, MarksKept t ((t.endRequests u).1.modUnit u fun x => { x with own := x.own + 1 }) := fun t =>
      (t.endRequests_marksKept u).trans (modUnit_marksKept _ _ fun _ => ⟨id, id⟩)
    have hlapse : ∀ t : State, MarksKept t (match lapseUnit u with
        | some w => t.lapse 4 w (t.lapsed u)
        | none => t) := fun t => by
      split
      · exact lapse_marksKept _ _ _ _
      · exact .refl t
    have hheld := ((hlapse (s.modUnit u fun x => { x with fenced := true, passed := false, draining := none })).trans
      (holdCost_marksKept _ u)).trans (hcut _)
    unfold holdUnit
    dsimp only
    split
    · exact hheld.trans (complete_marksKept _ _ _ _ _ _ _)
    · exact hheld
  refine ⟨(hrest u).1 ?_, hmark.trans hrest⟩
  rw [modUnit_unitSt]

theorem UnitSt.works_of_up {x : UnitSt} (h : x.up = true) : x.works = true := by simp [UnitSt.works, h]

theorem pllLost_of_locked {k : Nat} {s : State} (hk : 1 ≤ k) (hle : k ≤ 10) (h : ∀ x ∈ s.boot.pllOut, x.1 ≠ k) :
    pllLost k s = ({ s with boot := { s.boot with pllOut := s.boot.pllOut ++
        [(k, ((fedBy k).filter fun u => (s.unitSt u).up).map (·.code))] } } : State).forEach
      ((fedBy k).filter fun u => (s.unitSt u).works) fun u v => v.holdUnit u := by
  have hgo : ¬ (k = 0 || decide (10 < k) || s.boot.pllOut.any fun x => x.1 == k) = true := by
    simp only [Bool.or_eq_true, decide_eq_true_eq, List.any_eq_true, beq_iff_eq, not_or, not_exists, not_and]
    exact ⟨by omega, h⟩
  exact if_neg hgo

/-! ### A PLL which relocks -/

/-- A unit which is not fenced in the first state is not in the second. -/
def FreeKept (s t : State) : Prop := ∀ u, (s.unitSt u).fenced = false → (t.unitSt u).fenced = false

theorem FreeKept.trans {r s t : State} (h : FreeKept r s) (g : FreeKept s t) : FreeKept r t := fun u hu => g u (h u hu)

theorem FreeKept.of_only {ks : List Comp} {s t : State} (h : ChangesOnly ks s t) (hk : Comp.units ∉ ks) :
    FreeKept s t := fun u hu => by rw [State.unitSt_of_units (h .units hk), hu]

theorem FreeKept.of_law {s t : State}
    (h : ChangesOnly (Comp.allBut [.units]) s t ↔ ChangesOnly (Comp.allBut [.units]) s s) : FreeKept s t :=
  .of_only (h.2 (ChangesOnly.refl _ _)) (by decide)

/-- A change of one unit which does not fence it. -/
theorem State.modUnit_freeKept (s : State) (u : Unit_) {f : UnitSt → UnitSt} (hf : ∀ x, (f x).fenced = false) :
    FreeKept s (s.modUnit u f) := fun v hv => by
  by_cases h : v = u
  · subst h
    rw [modUnit_unitSt]
    exact hf _
  · rwa [modUnit_unitSt_ne _ _ h]

theorem State.fenceLapseEnds_freeKept (s : State) (u : Unit_) : FreeKept s (s.fenceLapseEnds u) :=
  .of_law (by apply fenceLapseEnds_only; simp)

theorem FreeKept.forEach {α : Type} {f : α → State → State} (h : ∀ a t, FreeKept t (f a t)) (l : List α) (s : State) :
    FreeKept s (s.forEach l f) := by
  unfold State.forEach
  induction l generalizing s with
  | nil => exact fun _ => id
  | cons a l ih => exact (h a s).trans (ih (f a s))

/-- What else the return of a unit does fences none. -/
theorem State.returnUnit_freeKept (s : State) (u : Unit_) : FreeKept (s.modUnit u fun x => { x with
    fenced := false, retired := false, passed := false, withCtrl := false, epoch := x.epoch + 1 }) (s.returnUnit u) := by
  cases u with
  | cluster c => exact .of_law (by apply zeroCluster_only <;> simp)
  | lane l =>
    unfold returnUnit
    dsimp only
    split
    · exact .of_law (by apply modPort_only; simp)
    · exact fun _ => id
  | port p => exact .of_law (by apply modPort_only; simp)
  | bank b => exact .of_law (by
      unfold returnUnit
      simp [settlePool_only, refillPool_only])
  | ctrl k => exact .forEach (fun c t => modUnit_freeKept _ _ fun _ => rfl) _ _
  | _ => exact fun _ => id

/-- R1010: a unit returns as its PLL relocks; a port's lanes stay as they are. -/
def State.unhold (v : State) (u : Unit_) : State :=
  match u with
  | .port p => (v.modUnit u fun x => { x with fenced := false, epoch := x.epoch + 1 }).fenceLapseEnds (.port p)
  | _ => (v.returnUnit u).fenceLapseEnds u

theorem State.unhold_frees (v : State) (u : Unit_) : ((v.unhold u).unitSt u).fenced = false ∧ FreeKept v (v.unhold u) := by
  have hreturn : (((v.returnUnit u).fenceLapseEnds u).unitSt u).fenced = false ∧
      FreeKept v ((v.returnUnit u).fenceLapseEnds u) := by
    have hrest := (v.returnUnit_freeKept u).trans (fenceLapseEnds_freeKept _ u)
    exact ⟨hrest u (by rw [modUnit_unitSt]), (modUnit_freeKept v u fun _ => rfl).trans hrest⟩
  cases u with
  | port p =>
    have hrest := (v.modUnit (.port p) fun x => { x with fenced := false, epoch := x.epoch + 1 }).fenceLapseEnds_freeKept
      (.port p)
    exact ⟨hrest _ (by rw [modUnit_unitSt]), (modUnit_freeKept v _ fun _ => rfl).trans hrest⟩
  | _ => exact hreturn

theorem pllBack_eq (k : Nat) (s : State) : pllBack k s = ({ s with boot := { s.boot with
    pllOut := s.boot.pllOut.filter fun x => x.1 != k, poicaLost := s.boot.poicaLost && k != 11 } } : State).forEach
      (s.heldBy k) fun u v => v.unhold u := by
  unfold pllBack
  dsimp only
  congr 1

/-! ### A PLL which does not relock -/

theorem not_lane_of_fedBy {k : Nat} {u : Unit_} (h : u ∈ fedBy k) (l : LaneNo) : u ≠ .lane l := by
  unfold fedBy at h
  rintro rfl
  (repeat' split at h) <;> simp at h

theorem State.failUnit_fed_marksKept {k : Nat} (l : List Unit_) (hl : ∀ u ∈ l, u ∈ fedBy k) (s : State) :
    MarksKept s (s.forEach l fun u v => v.failUnit u 4 0) := by
  unfold forEach
  induction l generalizing s with
  | nil => exact .refl s
  | cons u l ih =>
    have hu := (s.failUnit_marks (not_lane_of_fedBy (hl u List.mem_cons_self)) 4 0).2
    exact hu.trans (ih (fun v hv => hl v (List.mem_cons_of_mem _ hv)) _)

theorem pllGone_of_out {k : Nat} {s : State} (h : ∃ x ∈ s.boot.pllOut, x.1 = k) : pllGone k s =
    ((({ s with boot := { s.boot with pllOut := s.boot.pllOut.filter fun x => x.1 != k } } : State).forEach (s.heldBy k)
      fun u v => ((v.fenceUnit u 4 true 0).cutStep u false).1).forEach (fedBy k) fun u v => v.failUnit u 4 0) := by
  have hout : ¬ (!s.boot.pllOut.any fun x => x.1 == k) = true := by simpa using h
  exact if_neg hout

/-- A unit which is fenced for good. -/
theorem State.fenceCut_retires (s : State) (u : Unit_) (cause : BitVec 8) (detail : BitVec 224) :
    ((((s.fenceUnit u cause true detail).cutStep u false).1).unitSt u).retired = true ∧
      MarksKept s ((s.fenceUnit u cause true detail).cutStep u false).1 := by
  obtain ⟨-, hretired, hkept⟩ := s.fenceUnit_marks u cause true detail
  have hcut := (s.fenceUnit u cause true detail).cutStep_marksKept u false
  exact ⟨(hcut u).2 (hretired rfl), hkept.trans hcut⟩

/-! ### The Poica reference -/

theorem State.enterRetrain_marksKept (s : State) (p : PortNo) : MarksKept s (s.enterRetrain p) := by
  refine (s.leaveActive_marksKept p).trans (.of_only (ks := Comp.allBut [.units]) ?_ (by decide))
  unfold enterRetrain
  simp [startTimer_only, modPort_only, forEach_only, modLane_only, showAll_only, notePort_only, portLapse_only,
    changesOnly_self]

/-- R803: a port which is ACTIVE enters RETRAIN. -/
def State.retrainActive (p : PortNo) (v : State) : State := if v.ports[p].st == .active then v.enterRetrain p else v

theorem State.retrainActive_st (p : PortNo) (v : State) : (retrainActive p v).ports[p].st ≠ .active := by
  unfold retrainActive
  split
  · rw [(v.enterRetrain_port p).1]
    decide
  · next h => exact fun e => h (beq_iff_eq.2 e)

theorem State.retrainActive_keeps_st (p q : PortNo) (v : State) (h : v.ports[q].st ≠ .active) :
    (retrainActive p v).ports[q].st ≠ .active := by
  by_cases e : q = p
  · subst e
    exact retrainActive_st q v
  · unfold retrainActive
    split
    · rwa [enterRetrain_st_ne v e]
    · exact h

theorem State.retrainActive_marksKept (p : PortNo) (v : State) : MarksKept v (retrainActive p v) :=
  .ite (enterRetrain_marksKept v p) (.refl v)

/-- R803: a unit which is fenced as its clock is lost. -/
def State.losePortClock (u : Unit_) (v : State) : State :=
  let w := v.modUnit u fun x => { x with fenced := true, passed := false, own := x.own + 1 }
  w.lapse 4 u.code (w.lapsed u)

theorem State.losePortClock_marks (u : Unit_) (v : State) :
    ((losePortClock u v).unitSt u).fenced = true ∧ MarksKept v (losePortClock u v) := by
  have hrest := (v.modUnit u fun x => { x with fenced := true, passed := false, own := x.own + 1 }).lapse_marksKept 4 u.code
    ((v.modUnit u fun x => { x with fenced := true, passed := false, own := x.own + 1 }).lapsed u)
  have hmark := v.modUnit_marksKept u (f := fun x => { x with fenced := true, passed := false, own := x.own + 1 })
    fun x => ⟨fun _ => rfl, id⟩
  refine ⟨(hrest u).1 ?_, hmark.trans hrest⟩
  rw [modUnit_unitSt]

theorem poicaReferenceLost_of_kept (pll : Bool) {s : State} (h : s.boot.poicaLost = false) :
    ∃ t : State, poicaReferenceLost pll s =
        (t.forEach ((fedBy 11).filter fun u => (s.unitSt u).up) State.losePortClock).forEach (List.finRange 8)
          State.retrainActive ∧
      t.boot.poicaLost = true := by
  have hlog : ∀ (t : State) (cls cause : BitVec 8) (u m : W16) (a l : BitVec 8) (n : W16) (d : BitVec 224),
      (t.fault cls cause u m a l n d).1.boot = t.boot := fun t cls cause u m a l n d =>
    (show ChangesOnly [.faults, .telem] _ _ from (fault_only _ _ _ _ _ _ _ _ _ (by decide) (by decide)).2 (.refl _ _))
      .boot (by decide)
  unfold poicaReferenceLost
  rw [if_neg (by rw [h]; decide)]
  exact ⟨_, rfl, by rw [hlog]⟩

/-! ### What start-up holds -/

/-- The part of the state which holds the clocks is the same. -/
theorem State.forEach_boot {α : Type} {f : α → State → State} (h : ∀ a t, (f a t).boot = t.boot) (l : List α) (s : State) :
    (s.forEach l f).boot = s.boot := by
  unfold forEach
  induction l generalizing s with
  | nil => rfl
  | cons a l ih => exact (ih (f a s)).trans (h a s)

theorem State.unhold_boot (u : Unit_) (v : State) : (v.unhold u).boot = v.boot := by
  have h : ChangesOnly (Comp.allBut [.boot]) v (v.unhold u) := by
    cases u <;> simp [unhold, fenceLapseEnds_only, returnUnit_only, modUnit_only, changesOnly_self]
  exact h .boot (by decide)

theorem State.holdUnit_boot (u : Unit_) (v : State) : (v.holdUnit u).boot = v.boot :=
  (show ChangesOnly (Comp.allBut [.boot]) v _ from (by apply holdUnit_only <;> simp : _ ↔ ChangesOnly _ v v).2 (.refl _ _)) .boot (by decide)

theorem State.failUnit_boot (u : Unit_) (cause : BitVec 8) (detail : BitVec 224) (v : State) :
    (v.failUnit u cause detail).boot = v.boot :=
  (show ChangesOnly (Comp.allBut [.boot]) v _ from (by apply failUnit_only <;> simp : _ ↔ ChangesOnly _ v v).2 (.refl _ _)) .boot
    (by decide)

theorem State.fenceCut_boot (u : Unit_) (cause : BitVec 8) (detail : BitVec 224) (v : State) :
    (((v.fenceUnit u cause true detail).cutStep u false).1).boot = v.boot := by
  have h : ChangesOnly (Comp.allBut [.boot]) v (((v.fenceUnit u cause true detail).cutStep u false).1) := by
    simp [cutStep_only, fenceUnit_only, changesOnly_self]
  exact h .boot (by decide)

theorem State.losePortClock_boot (u : Unit_) (v : State) : (losePortClock u v).boot = v.boot := by
  have h : ChangesOnly (Comp.allBut [.boot]) v (losePortClock u v) := by
    simp [losePortClock, lapse_only, modUnit_only, changesOnly_self]
  exact h .boot (by decide)

theorem State.retrainActive_boot (p : PortNo) (v : State) : (retrainActive p v).boot = v.boot := by
  unfold retrainActive
  split
  · exact (show ChangesOnly (Comp.allBut [.boot]) v _ from (by apply enterRetrain_only <;> simp : _ ↔ ChangesOnly _ v v).2 (.refl _ _))
      .boot (by decide)
  · rfl

theorem State.retrainActive_all (s : State) (p : PortNo) :
    (s.forEach (List.finRange 8) retrainActive).ports[p].st ≠ .active :=
  forEach_establishes (P := fun t => t.ports[p].st ≠ .active) (List.mem_finRange p) (retrainActive_st p)
    (fun q v h => retrainActive_keeps_st q p v h) s

theorem port_mem_fedBy (p : PortNo) : Unit_.port p ∈ fedBy 11 := List.mem_map_of_mem (List.mem_finRange p)

/-- R139: every port in service is fenced as the clock is lost. -/
theorem State.losePortClocks_fences (t s : State) (p : PortNo) (hup : (s.unitSt (.port p)).up = true) :
    (((t.forEach ((fedBy 11).filter fun u => (s.unitSt u).up) losePortClock).forEach (List.finRange 8)
      retrainActive).unitSt (.port p)).fenced = true := by
  have hmem : Unit_.port p ∈ (fedBy 11).filter fun u => (s.unitSt u).up := List.mem_filter.2 ⟨port_mem_fedBy p, hup⟩
  have hlost := forEach_establishes (P := fun v => (v.unitSt (.port p)).fenced = true) hmem
    (fun v => (v.losePortClock_marks (.port p)).1) (fun u v hv => ((v.losePortClock_marks u).2 _).1 hv) t
  generalize (fedBy 11).filter (fun u => (s.unitSt u).up) = l at hlost ⊢
  exact (MarksKept.forEach retrainActive_marksKept _ _ (.port p)).1 hlost

/-- Settles O28. -/
theorem unitAndClockFaults : Obligations.UnitAndClockFaults := by
  unfold Obligations.UnitAndClockFaults
  refine ⟨fun w u cause detail s hu hl hup => ?_, fun w u s hu hl hup => ?_, fun w u q k s hu hl hup hk => ?_,
    fun w u q k s hu hk => ?_, fun k s hk hle hlocked => ?_, fun k s _ => ?_, fun k s hout => ?_, fun pll s h => ?_⟩
  · exact ⟨_, exec_unitFault_of_unit hu cause detail s, State.failUnit_of_up hl hup cause detail⟩
  · exact ⟨_, exec_requestOpenTimeout_of_unit hu s, State.failUnit_of_up hl hup 3 0⟩
  · refine ⟨_, (exec_malformedReply_of_unit hu q k s).trans ?_, State.failUnit_of_up hl hup 0x0C 0x0F00⟩
    rw [if_neg (by omega)]
  · rw [exec_malformedReply_of_unit hu, if_pos hk]
  · refine ⟨_, congrArg Host.Outcome.next (pllLost_of_locked hk hle hlocked), fun u hu hup => ?_, ?_⟩
    · refine State.forEach_establishes (P := fun t => (t.unitSt u).fenced = true)
        (List.mem_filter.2 ⟨hu, UnitSt.works_of_up hup⟩) (fun t => (t.holdUnit_marks u).1)
        (fun v t ht => ((t.holdUnit_marks v).2 u).1 ht) _
    · rw [State.forEach_boot State.holdUnit_boot]
  · refine ⟨_, congrArg Host.Outcome.next (pllBack_eq k s), fun u hu => ?_, ?_⟩
    · exact State.forEach_establishes (P := fun t => (t.unitSt u).fenced = false) hu (fun t => (t.unhold_frees u).1)
        (fun v t ht => (t.unhold_frees v).2 u ht) _
    · rw [State.forEach_boot State.unhold_boot]
  · refine ⟨_, congrArg Host.Outcome.next (pllGone_of_out hout), fun u hu => ?_, ?_⟩
    · refine (State.failUnit_fed_marksKept (fedBy k) (fun _ => id) _ u).2 ?_
      exact State.forEach_establishes (P := fun t => (t.unitSt u).retired = true) hu
        (fun t => (t.fenceCut_retires u 4 0).1) (fun v t ht => ((t.fenceCut_retires v 4 0).2 u).2 ht) _
    · rw [State.forEach_boot fun u v => v.failUnit_boot u 4 0, State.forEach_boot fun u v => v.fenceCut_boot u 4 0]
  · obtain ⟨t, heq, hlost⟩ := poicaReferenceLost_of_kept pll h
    refine ⟨_, congrArg Host.Outcome.next heq, ?_, fun p hup => ?_, State.retrainActive_all _⟩
    · rw [State.forEach_boot State.retrainActive_boot, State.forEach_boot State.losePortClock_boot, hlost]
    · exact t.losePortClocks_fences s p hup

end Sys2Proof.Machine
end

section
/-!
PROOFS. The states of the lanes: what training keeps of a lane, and what a lane in use which fails brings about
(R783, R801, R820).
-/

namespace Sys2Proof.Machine

/-! ### What every lane keeps -/

/-- The lanes of two states are the same in what `f` tells of them. -/
def LanesKeep {α : Type} (f : LaneSt → α) (s t : State) : Prop := ∀ l : LaneNo, f t.lanes[l] = f s.lanes[l]

@[simp] theorem State.modLane_lane (s : State) (l : LaneNo) (f : LaneSt → LaneSt) :
    (s.modLane l f).lanes[l] = f s.lanes[l] := vmod_get _ _ _

theorem State.modLane_lane_ne (s : State) {l k : LaneNo} (f : LaneSt → LaneSt) (h : k ≠ l) :
    (s.modLane l f).lanes[k] = s.lanes[k] := vmod_get_ne _ _ h.symm

/-- Of a change of a lane only what it makes of the lane counts. -/
theorem State.modLane_congr (s : State) (l : LaneNo) {f g : LaneSt → LaneSt} (h : f s.lanes[l] = g s.lanes[l]) :
    s.modLane l f = s.modLane l g := congrArg (fun v => { s with lanes := v }) (vmod_congr h)

section
variable {α : Type} {f : LaneSt → α} {r s t : State}

theorem LanesKeep.refl (s : State) : LanesKeep f s s := fun _ => rfl

theorem LanesKeep.trans (h : LanesKeep f r s) (g : LanesKeep f s t) : LanesKeep f r t := fun l => (g l).trans (h l)

theorem LanesKeep.of_eq (h : t.lanes = s.lanes) : LanesKeep f s t := fun l => by rw [h]

theorem LanesKeep.of_only {ks : List Comp} (h : ChangesOnly ks s t) (hk : Comp.lanes ∉ ks) : LanesKeep f s t :=
  .of_eq (h .lanes hk)

/-- An operation whose law asks for no right to change the lanes. -/
theorem LanesKeep.of_law
    (h : ChangesOnly (Comp.allBut [.lanes]) s t ↔ ChangesOnly (Comp.allBut [.lanes]) s s) : LanesKeep f s t :=
  .of_only (h.2 (ChangesOnly.refl _ _)) (by decide)

theorem LanesKeep.forEach {β : Type} {g : β → State → State} (h : ∀ a t, LanesKeep f t (g a t)) (l : List β)
    (s : State) : LanesKeep f s (s.forEach l g) := by
  unfold State.forEach
  induction l generalizing s with
  | nil => exact .refl s
  | cons a l ih => exact (h a s).trans (ih (g a s))

theorem LanesKeep.ite {c : Prop} [Decidable c] (h : LanesKeep f s t) (g : LanesKeep f s r) :
    LanesKeep f s (if c then t else r) := by
  split
  · exact h
  · exact g

theorem LanesKeep.field {β : Type} {f : LaneSt → LaneSt} (h : LanesKeep f s t) (g : LaneSt → β) (hg : ∀ x, g (f x) = g x) :
    LanesKeep g s t := fun l => by rw [← hg, h l, hg]

theorem State.modLane_lanesKeep (s : State) (l : LaneNo) {g : LaneSt → LaneSt} (h : ∀ x, f (g x) = f x) :
    LanesKeep f s (s.modLane l g) := fun k => by
  by_cases e : k = l
  · subst e
    rw [modLane_lane, h]
  · rw [modLane_lane_ne _ _ e]

end

/-- A lane without the number of its next TS. -/
def LaneSt.shown (x : LaneSt) : LaneSt := { x with tsSeq := 0 }

/-- A lane without what a stage of training which begins forgets of it. -/
def LaneSt.lasting (x : LaneSt) : LaneSt := { x.newStage with tsSeq := 0 }

/-- A lane without what the lanes' alignment changes of it. -/
def LaneSt.unaligned (x : LaneSt) : LaneSt := { x with arrival := none, deskewed := false, farDeskewed := false }

theorem State.sendTs_lanesKeep (s : State) (l : LaneNo) (stage reason count : Nat) :
    LanesKeep LaneSt.shown s (s.sendTs l stage reason count) :=
  (s.modLane_lanesKeep l (g := fun x => { x with tsSeq := x.tsSeq + BitVec.ofNat 16 count }) fun _ => rfl).trans
    (.of_eq (emit_frame _ _ .lanes (by decide)))

theorem State.showTs_lanesKeep (s : State) (l : LaneNo) : LanesKeep LaneSt.shown s (s.showTs l) :=
  .ite (sendTs_lanesKeep _ _ _ _ _) (.ite (sendTs_lanesKeep _ _ _ _ _) (.refl s))

theorem State.showAll_lanesKeep (s : State) (ls : List LaneNo) : LanesKeep LaneSt.shown s (s.showAll ls) :=
  .forEach (fun _ _ => showTs_lanesKeep _ _) _ _

theorem State.notePort_lanesKeep {α : Type} (f : LaneSt → α) (s : State) (p : PortNo) : LanesKeep f s (s.notePort p) :=
  .of_law (by apply notePort_only <;> simp)

/-! ### Stages of training keep the block lock -/

theorem LanesKeep.lasting {s t : State} (h : LanesKeep LaneSt.shown s t) : LanesKeep LaneSt.lasting s t :=
  h.field LaneSt.lasting fun _ => rfl

/-- R787, R801: EQUALIZE begins with a new stage on every lane; its request is 0 on a lane which sweeps. -/
theorem State.enterEqualize_lanesKeep (s : State) (p : PortNo) : LanesKeep LaneSt.lasting s (s.enterEqualize p) := by
  unfold enterEqualize
  dsimp only
  refine LanesKeep.trans ?_ (notePort_lanesKeep _ _ _)
  refine LanesKeep.trans ?_ (showAll_lanesKeep _ _).lasting
  refine LanesKeep.trans ?_ (.forEach (fun l t => t.modLane_lanesKeep l fun x => ?_) _ _)
  · exact .of_eq rfl
  · split <;> rfl

theorem State.checkDetect_lanesKeep (s : State) (p : PortNo) : LanesKeep LaneSt.lasting s (s.checkDetect p) := by
  unfold checkDetect
  refine .ite (.refl s) ?_
  split
  · exact .refl s
  · refine LanesKeep.trans ?_ (enterEqualize_lanesKeep _ _)
    exact .of_eq rfl

theorem State.unalign_lanesKeep (s : State) (ls : List LaneNo) :
    LanesKeep LaneSt.unaligned s (s.forEach ls fun l t => t.modLane l LaneSt.unaligned) :=
  .forEach (fun l t => t.modLane_lanesKeep l (g := LaneSt.unaligned) fun _ => rfl) _ _

theorem State.checkRetrain_lanesKeep (s : State) (p : PortNo) : LanesKeep LaneSt.unaligned s (s.checkRetrain p) := by
  refine .ite (LanesKeep.trans ?_ (unalign_lanesKeep _ _)) (.refl s)
  exact .of_eq rfl

theorem State.enterAlign_lanesKeep (s : State) (p : PortNo) : LanesKeep LaneSt.unaligned s (s.enterAlign p) := by
  unfold enterAlign
  dsimp only
  refine LanesKeep.trans ?_ (notePort_lanesKeep _ _ _)
  refine LanesKeep.trans (.of_law ?_) (unalign_lanesKeep _ _)
  simp [startTimer_only, modPort_only, fenceLanes_only]

theorem State.checkEqualize_lanesKeep (s : State) (p : PortNo) : LanesKeep LaneSt.unaligned s (s.checkEqualize p) :=
  .ite (enterAlign_lanesKeep s p) (.refl s)

theorem State.enterRetrain_lanesKeep (s : State) (p : PortNo) : LanesKeep LaneSt.lasting s (s.enterRetrain p) := by
  unfold enterRetrain
  dsimp only
  refine LanesKeep.trans ?_ (.of_law (by apply portLapse_only <;> simp))
  refine LanesKeep.trans ?_ (notePort_lanesKeep _ _ _)
  refine LanesKeep.trans ?_ (showAll_lanesKeep _ _).lasting
  refine LanesKeep.trans (.of_law ?_) (.forEach (fun l t => t.modLane_lanesKeep l (g := LaneSt.newStage) fun _ => rfl) _ _)
  simp [startTimer_only, modPort_only, leaveActive_only]

/-! ### Checks which do not apply -/

theorem State.checkDetect_of_not_detect {s : State} {p : PortNo} (h : s.ports[p].st ≠ .detect) : s.checkDetect p = s :=
  if_pos (bne_iff_ne.2 h)

theorem State.checkEqualize_of_not_equalize {s : State} {p : PortNo} (h : s.ports[p].st ≠ .equalize) :
    s.checkEqualize p = s := 
  if_neg (by simp only [beq_eq_false_iff_ne.2 h, Bool.false_and, Bool.false_eq_true, not_false_eq_true])

theorem State.checkRetrain_of_not_retrain {s : State} {p : PortNo} (h : s.ports[p].st ≠ .retrain) :
    s.checkRetrain p = s := 
  if_neg (by simp only [beq_eq_false_iff_ne.2 h, Bool.false_and, Bool.false_eq_true, not_false_eq_true])

/-! ### A lane in use which fails -/

/-- The state as a lane in use is fenced and reported (R802, R820). -/
def State.laneReported (s : State) (l : LaneNo) (cause : BitVec 8) : State :=
  (s.fenceLane l cause).1.unitFailed (unitId 6 l.val) cause 1 (s.portStrata (portOf l)) (s.fenceLane l cause).2

/-- The state as a lane in use is taken out of its port. -/
def State.laneOut (s : State) (l : LaneNo) (cause : BitVec 8) : State :=
  (s.laneReported l cause).modPort (portOf l) fun x => { x with lanes := x.lanes &&& ~~~laneBit l }

theorem State.laneFailBy_of_in_use {s : State} {l : LaneNo} (hst : s.ports[portOf l].st = .active)
    (hin : s.ports[portOf l].inUse &&& laneBit l ≠ 0) (cause : BitVec 8) : s.laneFailBy l cause =
      if (s.laneOut l cause).ports[portOf l].lanes = 0 then (s.laneOut l cause).enterRetrain (portOf l)
      else (s.laneOut l cause).narrow (portOf l) :=
  if_neg (by rw [hst, decide_eq_false hin]; decide)

theorem State.laneReported_after_fence (s : State) (l : LaneNo) (cause : BitVec 8) :
    ChangesOnly [.waits, .fns, .out] (s.fenceLane l cause).1 (s.laneReported l cause) := by
  simp (disch := decide) only [laneReported, unitFailed_only, changesOnly_self]

theorem State.laneReported_frame (s : State) (l : LaneNo) (cause : BitVec 8) :
    ChangesOnly [.units, .faults, .telem, .waits, .fns, .out] s (s.laneReported l cause) := by
  simp (disch := decide) only [laneReported, unitFailed_only, fenceLane_only, changesOnly_self]

theorem State.laneOut_frame (s : State) (l : LaneNo) (cause : BitVec 8) :
    ChangesOnly [.ports, .units, .faults, .telem, .waits, .fns, .out] s (s.laneOut l cause) := by
  simp (disch := decide) only [laneOut, laneReported, modPort_only, unitFailed_only, fenceLane_only, changesOnly_self]

theorem State.laneReported_fences (s : State) (l : LaneNo) (cause : BitVec 8) :
    (s.laneReported l cause).units.lanes[l].fenced = true := by
  rw [s.laneReported_after_fence l cause .units (by decide)]
  exact s.fenceLane_fences l cause

theorem foldl_commit_next (l : List FaultRec) (log : FaultLog) : (l.foldl FaultLog.commit log).next = log.next := by
  induction l generalizing log with
  | nil => rfl
  | cons r l ih => exact (ih _).trans rfl

/-- R1036: a fault record takes the next INDEX. -/
theorem State.fault_next (s : State) (cls cause : BitVec 8) (u m : W16) (a l : BitVec 8) (n : W16) (d : BitVec 224) :
    (s.fault cls cause u m a l n d).1.faults.next = s.faults.next + 1 := by
  unfold fault faultAt commitFaults
  dsimp only
  split
  · exact foldl_commit_next _ _
  · rfl

/-- R1036: one fault record. -/
theorem State.laneReported_faults (s : State) (l : LaneNo) (cause : BitVec 8) :
    (s.laneReported l cause).faults.next = s.faults.next + 1 := by
  rw [s.laneReported_after_fence l cause .faults (by decide)]
  exact fault_next _ _ _ _ _ _ _ _ _

/-- R820: the port is as before but for the lane. -/
theorem State.laneOut_port (s : State) (l : LaneNo) (cause : BitVec 8) : (s.laneOut l cause).ports[portOf l] =
    { s.ports[portOf l] with lanes := s.ports[portOf l].lanes &&& ~~~laneBit l } := by
  unfold laneOut
  rw [modPort_port, s.laneReported_frame l cause .ports (by decide)]

/-- R830: a narrowing of a port without a width change under way sends its first request. -/
theorem State.narrow_of_idle {s : State} {p : PortNo} (h : s.ports[p].wc = none) : ∃ x, s.narrow p =
    (((s.modPort p fun x => { x with farWc := none }).sendReq p x).portLapse p) ∧ x.cause = .failure ∧ x.tries = 0 ∧
      ∃ w, x.mask = lowestLanes s.ports[p].lanes w := by
  unfold narrow
  dsimp only
  rw [h]
  dsimp only
  rw [modPort_port]
  exact ⟨_, rfl, rfl, rfl, _, rfl⟩

/-- A mask's lowest lanes are lanes of it. -/
theorem lowestLanes_and_not (m : BitVec 4) (w : Nat) : lowestLanes m w &&& ~~~m = 0 := by
  have hfew : ∀ (m : BitVec 4) (w : Fin 5), lowestLanes m w.val &&& ~~~m = 0 := by decide
  rcases Nat.lt_or_ge w 5 with hw | hw
  · exact hfew m ⟨w, hw⟩
  · have hlength := List.length_filter_le (fun i => m.getLsbD i) (List.range 4)
    rw [List.length_range] at hlength
    have hall : lowestLanes m w = lowestLanes m 4 := by
      unfold lowestLanes
      rw [List.take_of_length_le (Nat.le_trans hlength (by omega)), List.take_of_length_le hlength]
    rw [hall]
    exact hfew m 4

theorem State.sendReq_sends (s : State) (p : PortNo) (x : WidthChange) :
    Sends (s.modPort p fun q => { q with
      wc := some { x with seq := s.ports[p].wcSeq, tries := x.tries + 1, sent := s.tick }, wcSeq := q.wcSeq + 1 })
      (s.sendReq p x) := replicate_sends _ _ _ _

end Sys2Proof.Machine
end

section
/-!
PROOFS. Block lock, lanes which fail, TS blocks and the sweep of presets (R783, R787, R797, R798, R801, R820).
-/

namespace Sys2Proof.Machine

/-! ### Block lock -/

/-- A lane in service of a port which is not disabled trains. -/
theorem State.lane_trains {s : State} {l : LaneNo} (hup : s.units.lanes[l].up = true)
    (hst : s.ports[portOf l].st ≠ .disabled) :
    ¬ (s.ports[portOf l].st == .disabled || !(s.laneUp l || !(s.units.lanes[l].testing).isEmpty)) = true := by
  rw [beq_eq_false_iff_ne.2 hst, laneUp, hup]
  exact Bool.false_ne_true

/-- R783: a lane which trains acquires block lock, and sweeps from preset 0 in EQUALIZE. -/
def LaneSt.lock (sweeps : Bool) (x : LaneSt) : LaneSt :=
  if sweeps && !x.locked then { x with locked := true }.sweep else { x with locked := true }

theorem lockLane_of_up {l : LaneNo} {s : State} (hup : s.units.lanes[l].up = true)
    (hst : s.ports[portOf l].st ≠ .disabled) : lockLane l s =
      ((((s.modLane l (LaneSt.lock (s.ports[portOf l].st == .equalize))).showTs l).checkDetect (portOf l)).checkRetrain
        (portOf l)) :=
  if_neg (State.lane_trains hup hst)

theorem LaneSt.lock_locked (b : Bool) (x : LaneSt) : (x.lock b).locked = true := by
  unfold lock
  split <;> rfl

theorem LanesKeep.locked {s t : State} (h : LanesKeep LaneSt.lasting s t) : LanesKeep LaneSt.locked s t :=
  h.field LaneSt.locked fun _ => rfl

theorem lockLane_locks (l : LaneNo) (s : State) (sweeps : Bool) :
    ((((s.modLane l (LaneSt.lock sweeps)).showTs l).checkDetect (portOf l)).checkRetrain (portOf l)).lanes[l].locked =
      true := by
  have hshown := (State.showTs_lanesKeep (s.modLane l (LaneSt.lock sweeps)) l).field LaneSt.locked fun _ => rfl
  have hdetect := (State.checkDetect_lanesKeep ((s.modLane l (LaneSt.lock sweeps)).showTs l) (portOf l)).locked
  have hretrain := (State.checkRetrain_lanesKeep (((s.modLane l (LaneSt.lock sweeps)).showTs l).checkDetect (portOf l))
    (portOf l)).field LaneSt.locked fun _ => rfl
  rw [hretrain l, hdetect l, hshown l, State.modLane_lane, LaneSt.lock_locked]

/-- What a lane shows changes the state of no port. -/
theorem State.showTs_st (s : State) (l : LaneNo) (p : PortNo) : (s.showTs l).ports[p].st = s.ports[p].st :=
  (s.showTs_sends l).training.field Port.st (fun _ => rfl) p

theorem blockLockAcquired_sweeps {l : LaneNo} {s : State} (hst : s.ports[portOf l].st = .equalize)
    (hlock : s.lanes[l].locked = false) :
    ((((s.modLane l (LaneSt.lock (s.ports[portOf l].st == .equalize))).showTs l).checkDetect (portOf l)).checkRetrain
      (portOf l)).lanes[l].request = 0 := by
  have hshown : ∀ t : State, (t.showTs l).lanes[l].request = t.lanes[l].request := fun t =>
    (t.showTs_lanesKeep l).field LaneSt.request (fun _ => rfl) l
  have hkept : ((s.modLane l (LaneSt.lock (s.ports[portOf l].st == .equalize))).showTs l).ports[portOf l].st = .equalize :=
    (State.showTs_st _ _ _).trans hst
  rw [State.checkDetect_of_not_detect (by rw [hkept]; decide), State.checkRetrain_of_not_retrain (by rw [hkept]; decide),
    hshown, State.modLane_lane, hst, LaneSt.lock, hlock]
  rfl

theorem State.laneFail_locked (s : State) (l : LaneNo) : LanesKeep LaneSt.locked s (s.laneFail l) := by
  have hout : LanesKeep LaneSt.locked s (s.laneOut l 6) :=
    .of_only (s.laneOut_frame l 6) (by decide)
  unfold laneFail laneFailBy
  refine .ite (.refl s) (.ite (hout.trans (enterRetrain_lanesKeep _ _).locked) (hout.trans (.of_law ?_)))
  apply narrow_only <;> simp

/-- A lane which loses block lock. -/
def LaneSt.unlock (x : LaneSt) : LaneSt := { x with locked := false, deskewed := false }

theorem unlockLane_unlocks (l : LaneNo) (s : State) : (unlockLane l s).lanes[l].locked = false := by
  have hshown := ((s.modLane l LaneSt.unlock).showTs_lanesKeep l).field LaneSt.locked fun _ => rfl
  have hfail := ((s.modLane l LaneSt.unlock).showTs l).laneFail_locked l
  have hcheck := ((((s.modLane l LaneSt.unlock).showTs l).laneFail l).checkEqualize_lanesKeep (portOf l)).field
    LaneSt.locked fun _ => rfl
  refine (hcheck l).trans ((hfail l).trans ((hshown l).trans ?_))
  rw [State.modLane_lane]
  rfl

/-! ### A lane in use which fails -/

theorem and_eq_zero_of_and_not {x m b : BitVec 4} (h : x &&& ~~~(m &&& ~~~b) = 0) : x &&& b = 0 := by
  refine BitVec.eq_of_getLsbD_eq fun i hi => ?_
  have hbit := congrArg (fun v => v.getLsbD i) h
  simp only [BitVec.getLsbD_and, BitVec.getLsbD_not, hi, decide_true, Bool.true_and] at hbit ⊢
  cases hx : x.getLsbD i <;> cases hb : b.getLsbD i <;> simp [hx, hb] at hbit ⊢

/-- R820, R830: the first request of a narrowing. -/
theorem State.laneFail_narrows {l : LaneNo} {s : State} (hst : s.ports[portOf l].st = .active)
    (hin : s.ports[portOf l].inUse &&& laneBit l ≠ 0) (hwc : s.ports[portOf l].wc = none)
    (hlanes : s.ports[portOf l].lanes &&& ~~~laneBit l ≠ 0) :
    (s.laneFail l).units.lanes[l].fenced = true ∧ (s.laneFail l).ports[portOf l].st = .active ∧
      (s.laneFail l).ports[portOf l].lanes = s.ports[portOf l].lanes &&& ~~~laneBit l ∧
      (s.laneFail l).faults.next = s.faults.next + 1 ∧
      ∃ x, (s.laneFail l).ports[portOf l].wc = some x ∧ x.cause = .failure ∧ x.mask &&& laneBit l = 0 ∧ x.tries = 1 := by
  have hport := s.laneOut_port l 6
  have hfenced : (s.laneOut l 6).units.lanes[l].fenced = true := s.laneReported_fences l 6
  have hfaults : (s.laneOut l 6).faults.next = s.faults.next + 1 := s.laneReported_faults l 6
  have hwc' : (s.laneOut l 6).ports[portOf l].wc = none := by rw [hport]; exact hwc
  have hleft : (s.laneOut l 6).ports[portOf l].lanes ≠ 0 := by rw [hport]; exact hlanes
  obtain ⟨x, hx, hcause, htries, w, hmask⟩ := narrow_of_idle hwc'
  rw [laneFail, laneFailBy_of_in_use hst hin, if_neg hleft, hx]
  have hsent := (((s.laneOut l 6).modPort (portOf l) fun x => { x with farWc := none }).sendReq_sends (portOf l) x).trans
    (portLapse_sends _ (portOf l))
  have hframe : ChangesOnly [.ports, .out, .slots, .fns, .waits] (s.laneOut l 6)
      ((((s.laneOut l 6).modPort (portOf l) fun x => { x with farWc := none }).sendReq (portOf l) x).portLapse
        (portOf l)) := by
    simp (disch := decide) only [portLapse_only, sendReq_only, modPort_only, changesOnly_self]
  have hunits := hframe .units (by decide)
  have hlog := hframe .faults (by decide)
  generalize ((((s.laneOut l 6).modPort (portOf l) fun x => { x with farWc := none }).sendReq (portOf l) x).portLapse
    (portOf l)) = t at hsent hunits hlog ⊢
  have hst' := hsent.training.field Port.st (fun _ => rfl) (portOf l)
  have hlanes' := hsent.training.field Port.lanes (fun _ => rfl) (portOf l)
  have hwc' := hsent.training.field Port.wc (fun _ => rfl) (portOf l)
  simp only [modPort_port, hport] at hst' hlanes' hwc'
  refine ⟨by rw [hunits, hfenced], hst'.trans hst, hlanes', by rw [hlog, hfaults], _, hwc', hcause, ?_, ?_⟩
  · rw [hmask, hport]
    exact and_eq_zero_of_and_not (lowestLanes_and_not _ w)
  · rw [htries]

/-- R801, R820: the last lane in service fails, and the port retrains for 5 ms. -/
theorem State.laneFail_retrains {l : LaneNo} {s : State} (hst : s.ports[portOf l].st = .active)
    (hin : s.ports[portOf l].inUse &&& laneBit l ≠ 0) (hlanes : s.ports[portOf l].lanes &&& ~~~laneBit l = 0) :
    (s.laneFail l).units.lanes[l].fenced = true ∧ (s.laneFail l).ports[portOf l].st = .retrain ∧
      (s.laneFail l).ports[portOf l].retrains = s.ports[portOf l].retrains + 1 ∧
      (s.laneFail l).ports[portOf l].due = s.tick + 4000000 := by
  have hport := s.laneOut_port l 6
  have hfenced : ((s.laneOut l 6).unitSt (.lane l)).fenced = true := s.laneReported_fences l 6
  have htick : (s.laneOut l 6).tick = s.tick := s.laneOut_frame l 6 .tick (by decide)
  have hnone : (s.laneOut l 6).ports[portOf l].lanes = 0 := by rw [hport]; exact hlanes
  rw [laneFail, laneFailBy_of_in_use hst hin, if_pos hnone]
  obtain ⟨hst', hdue, hcount, -⟩ := (s.laneOut l 6).enterRetrain_port (portOf l)
  refine ⟨((s.laneOut l 6).enterRetrain_marksKept (portOf l) (.lane l)).1 hfenced, hst', ?_, ?_⟩
  · rw [hcount, hport]
  · rw [hdue, htick]
    rfl

/-- The state in which a lane which lost block lock may fail. -/
def State.unlocked (s : State) (l : LaneNo) : State := (s.modLane l LaneSt.unlock).showTs l

theorem State.unlocked_frame (s : State) (l : LaneNo) : ChangesOnly [.lanes, .out] s (s.unlocked l) := by
  simp (disch := decide) only [unlocked, showTs_only, modLane_only, changesOnly_self]

theorem unlockLane_eq (l : LaneNo) (s : State) :
    unlockLane l s = ((s.unlocked l).laneFail l).checkEqualize (portOf l) := rfl

/-- R820: a lane in use which loses block lock fails. -/
theorem unlockLane_of_not_equalize {s : State} {l : LaneNo}
    (h : ((s.unlocked l).laneFail l).ports[portOf l].st ≠ .equalize) : unlockLane l s = (s.unlocked l).laneFail l := by
  rw [unlockLane_eq]
  exact State.checkEqualize_of_not_equalize h

/-- R783, R801, R820: a lane which loses block lock narrows its port as a lane failure does. -/
theorem unlockLane_narrows {l : LaneNo} {s : State} (hst : s.ports[portOf l].st = .active)
    (hin : s.ports[portOf l].inUse &&& laneBit l ≠ 0) (hwc : s.ports[portOf l].wc = none)
    (hlanes : s.ports[portOf l].lanes &&& ~~~laneBit l ≠ 0) :
    (unlockLane l s).units.lanes[l].fenced = true ∧ (unlockLane l s).ports[portOf l].st = .active ∧
      (unlockLane l s).ports[portOf l].lanes = s.ports[portOf l].lanes &&& ~~~laneBit l ∧
      (unlockLane l s).faults.next = s.faults.next + 1 ∧
      ∃ x, (unlockLane l s).ports[portOf l].wc = some x ∧ x.cause = .failure ∧ x.mask &&& laneBit l = 0 ∧ x.tries = 1 := by
  have hports : (s.unlocked l).ports = s.ports := s.unlocked_frame l .ports (by decide)
  have hfaults : (s.unlocked l).faults = s.faults := s.unlocked_frame l .faults (by decide)
  rw [← hports] at hst hin hwc hlanes
  have h := State.laneFail_narrows hst hin hwc hlanes
  rw [unlockLane_of_not_equalize (by rw [h.2.1]; decide), ← hports, ← hfaults]
  exact h

theorem unlockLane_retrains {l : LaneNo} {s : State} (hst : s.ports[portOf l].st = .active)
    (hin : s.ports[portOf l].inUse &&& laneBit l ≠ 0) (hlanes : s.ports[portOf l].lanes &&& ~~~laneBit l = 0) :
    (unlockLane l s).units.lanes[l].fenced = true ∧ (unlockLane l s).ports[portOf l].st = .retrain ∧
      (unlockLane l s).ports[portOf l].retrains = s.ports[portOf l].retrains + 1 ∧
      (unlockLane l s).ports[portOf l].due = s.tick + 4000000 := by
  have hports : (s.unlocked l).ports = s.ports := s.unlocked_frame l .ports (by decide)
  have htick : (s.unlocked l).tick = s.tick := s.unlocked_frame l .tick (by decide)
  rw [← hports] at hst hin hlanes
  have h := State.laneFail_retrains hst hin hlanes
  rw [unlockLane_of_not_equalize (by rw [h.2.1]; decide), ← hports, ← htick]
  exact h

/-! ### TS blocks -/

theorem fieldNat_zero_one (b : Byte) (l : List Byte) : fieldNat (b :: l) 0 1 = b.toNat := by
  simp [fieldNat, leNat]

theorem blockCode (w : W64) : fieldNat (blockBytes w) 0 1 = w.toNat % 256 := by
  rw [blockBytes, leBytes_succ, fieldNat_zero_one, BitVec.toNat_ofNat]

theorem tsLegal_code {w : W64} (h : tsLegal w = true) : w.toNat % 256 = 0x4B := by
  unfold tsLegal at h
  simp only [Bool.and_eq_true, beq_iff_eq] at h
  obtain ⟨⟨⟨⟨⟨hcode, -⟩, -⟩, -⟩, -⟩, -⟩ := h
  rw [← blockCode, hcode]

/-- R787: what a lane keeps of a TS which it receives. -/
def LaneSt.see (v : BitVec 40) (x : LaneSt) : LaneSt :=
  { x with seenTs := v, seenCount := if x.seenTs = v then min 4 (x.seenCount + 1) else 1 }

theorem rxTs_of_legal {l : LaneNo} {w : W64} {s : State} (hup : s.units.lanes[l].up = true)
    (hst : s.ports[portOf l].st ≠ .disabled) (hw : tsLegal w = true) : rxTs l w s.lanes[l].inverted s =
      if 4 ≤ (s.lanes[l].see (w.extractLsb' 8 40)).seenCount then
        (s.modLane l (LaneSt.see (w.extractLsb' 8 40))).actTs l (w.extractLsb' 8 40)
      else s.modLane l (LaneSt.see (w.extractLsb' 8 40)) := by
  unfold rxTs
  dsimp only
  rw [if_neg (State.lane_trains hup hst), if_neg (by simp), if_neg (by rw [tsLegal_code hw]; decide), if_neg (by rw [hw]; decide)]
  rfl

/-- R787: a TS which has agreed fewer than four times in a row is only counted. -/
theorem rxTs_of_few {l : LaneNo} {w : W64} {s : State} (hup : s.units.lanes[l].up = true)
    (hst : s.ports[portOf l].st ≠ .disabled) (hw : tsLegal w = true)
    (hfew : s.lanes[l].seenTs = w.extractLsb' 8 40 → s.lanes[l].seenCount < 3) :
    rxTs l w s.lanes[l].inverted s = s.modLane l fun x => { x with
      seenTs := w.extractLsb' 8 40, seenCount := if x.seenTs = w.extractLsb' 8 40 then x.seenCount + 1 else 1 } := by
  have hcount : (if s.lanes[l].seenTs = w.extractLsb' 8 40 then min 4 (s.lanes[l].seenCount + 1) else 1) =
      if s.lanes[l].seenTs = w.extractLsb' 8 40 then s.lanes[l].seenCount + 1 else 1 := by
    split
    · next h => exact Nat.min_eq_right (by have := hfew h; omega)
    · rfl
  rw [rxTs_of_legal hup hst hw, if_neg]
  · exact State.modLane_congr _ _ (by rw [LaneSt.see, hcount])
  · rw [LaneSt.see, hcount]
    dsimp only
    split
    · next h => have := hfew h; omega
    · omega

theorem tsStage (w : W64) : (w.extractLsb' 8 40).extractLsb' 4 4 = w.extractLsb' 12 4 := by
  refine BitVec.eq_of_getLsbD_eq fun i hi => ?_
  simp only [BitVec.getLsbD_extractLsb', hi, decide_true, Bool.true_and, show 4 + i < 40 by omega]
  rw [show 8 + (4 + i) = 12 + i by omega]

theorem tsLocked (w : W64) : (w.extractLsb' 8 40).getLsbD 1 = w.getLsbD 9 := by
  rw [BitVec.getLsbD_extractLsb']
  rfl

theorem State.actTs_refused {s : State} {l : LaneNo} {v : BitVec 40} (hst : s.ports[portOf l].st ≠ .disabled)
    (h : v.extractLsb' 4 4 = 15) : s.actTs l v = s.toDisabled (portOf l) 0x0A := by
  unfold actTs
  dsimp only
  rw [if_neg (by rw [beq_eq_false_iff_ne.2 hst]; decide), if_pos h]

theorem State.actTs_retrain {s : State} {l : LaneNo} {v : BitVec 40} (hst : s.ports[portOf l].st = .active)
    (hin : s.ports[portOf l].inUse &&& laneBit l ≠ 0) (h : v.extractLsb' 4 4 = 3) :
    s.actTs l v = s.enterRetrain (portOf l) := by
  unfold actTs
  dsimp only
  rw [if_neg (by rw [hst]; decide), if_neg (by rw [h]; decide), if_pos (by rw [hst]; decide), if_pos ⟨h, hin⟩]

/-- What a lane keeps of a TS which it acts on. -/
def LaneSt.act (v : BitVec 40) (x : LaneSt) : LaneSt := { x.presets v with farTs := some v }

/-- R787: DETECT acts on a TS. -/
theorem State.actTs_detect {s : State} {l : LaneNo} {v : BitVec 40} (hst : s.ports[portOf l].st = .detect)
    (h : v.extractLsb' 4 4 ≠ 15) : ∃ t, s.actTs l v = ((t.checkDetect (portOf l)).checkEqualize (portOf l)).checkRetrain
        (portOf l) ∧ Sends s t ∧ t.units = s.units ∧ t.tick = s.tick ∧
      t.lanes[l].shown = (s.lanes[l].act v).shown := by
  have hshown : Sends s ((s.modLane l (LaneSt.act v)).showTs l) := (modLane_sends _ _ _).trans (showTs_sends _ _)
  have hframe : ChangesOnly [.lanes, .out] s ((s.modLane l (LaneSt.act v)).showTs l) := by
    simp (disch := decide) only [showTs_only, modLane_only, changesOnly_self]
  have hlane := (s.modLane l (LaneSt.act v)).showTs_lanesKeep l l
  unfold actTs
  dsimp only
  rw [if_neg (by rw [hst]; decide), if_neg h, if_neg (by rw [hst]; decide)]
  split
  · refine ⟨_, rfl, modLane_sends _ _ _, rfl, rfl, ?_⟩
    rw [modLane_lane]
    rfl
  · refine ⟨_, rfl, hshown, hframe .units (by decide), hframe .tick (by decide), hlane.trans ?_⟩
    rw [modLane_lane]

/-- R801: EQUALIZE has just begun, and no lane is done. -/
theorem State.enterEqualize_not_done (s : State) {p : PortNo} {l : LaneNo} (hl : l ∈ lanesOf p) :
    (s.enterEqualize p).lanes[l].done = false := by
  unfold enterEqualize
  dsimp only
  refine (notePort_lanesKeep LaneSt.done _ p l).trans (((showAll_lanesKeep _ _).field LaneSt.done (fun _ => rfl) l).trans ?_)
  refine forEach_establishes (P := fun t => t.lanes[l].done = false) hl (fun t => ?_) (fun k t h => ?_) _
  · rw [modLane_lane]
    split <;> rfl
  · by_cases e : l = k
    · subst e
      rw [modLane_lane]
      split <;> rfl
    · rw [modLane_lane_ne _ _ e]
      exact h

theorem State.checkEqualize_of_not_done {s : State} {p : PortNo} (h : ∀ l ∈ lanesOf p, s.lanes[l].done = false) :
    s.checkEqualize p = s := by
  refine if_neg fun hall => ?_
  simp only [Bool.and_eq_true, Bool.not_eq_true', List.isEmpty_eq_false_iff, List.all_eq_true] at hall
  obtain ⟨⟨-, hne⟩, hequal⟩ := hall
  obtain ⟨k, hk⟩ := List.exists_mem_of_ne_nil _ hne
  have hdone := h k (List.mem_filter.1 (List.mem_filter.1 hk).1).1
  have hk := hequal k hk
  rw [LaneSt.equalised, hdone, Bool.and_false, Bool.false_and] at hk
  exact absurd hk (by decide)

theorem mem_lanesOf (l : LaneNo) : l ∈ lanesOf (portOf l) := by
  refine List.mem_map.2 ⟨⟨l.val % 4, by omega⟩, List.mem_finRange _, Fin.ext ?_⟩
  change 4 * (l.val / 4) + l.val % 4 = l.val
  omega

/-- R801: a lane with block lock and agreeing TS STAGE 0x1 leads out of DETECT. -/
theorem State.checkDetect_leaves {s : State} {l : LaneNo} {v : BitVec 40} (hst : s.ports[portOf l].st = .detect)
    (hup : s.units.lanes[l].up = true) (hlock : s.lanes[l].locked = true) (hts : s.lanes[l].farTs = some v)
    (hstage : v.extractLsb' 4 4 = 1#4) (hfar : v.getLsbD 1 = true) :
    ∃ t : State, s.checkDetect (portOf l) = t.enterEqualize (portOf l) ∧ t.tick = s.tick := by
  unfold checkDetect
  rw [if_neg (by rw [hst]; decide)]
  split
  · next h =>
    have hl := List.find?_eq_none.1 h l (List.mem_filter.2 ⟨mem_lanesOf l, hup⟩)
    dsimp only at hl
    rw [hlock, hts] at hl
    dsimp only at hl
    rw [hstage, hfar] at hl
    exact absurd rfl hl
  · exact ⟨_, rfl, rfl⟩

/-- R801: a lane with block lock which sees the far side's lock leads from DETECT to EQUALIZE, for 10 ms. -/
theorem State.actTs_equalizes {s : State} {l : LaneNo} {v : BitVec 40} (hst : s.ports[portOf l].st = .detect)
    (hup : s.units.lanes[l].up = true) (hlock : s.lanes[l].locked = true) (hstage : v.extractLsb' 4 4 = 1#4)
    (hfar : v.getLsbD 1 = true) : (s.actTs l v).ports[portOf l].st = .equalize ∧
      (s.actTs l v).ports[portOf l].due = s.tick + 8000000 := by
  obtain ⟨t, ht, hsent, hunits, htick, hlane⟩ := actTs_detect hst (v := v) (by rw [hstage]; decide)
  have hst' : t.ports[portOf l].st = .detect := (hsent.training.field Port.st (fun _ => rfl) (portOf l)).trans hst
  have hlock' : t.lanes[l].locked = true := (congrArg LaneSt.locked hlane).trans hlock
  have hts' : t.lanes[l].farTs = some v := congrArg LaneSt.farTs hlane
  obtain ⟨u, hu, hutick⟩ := checkDetect_leaves hst' (by rw [hunits, hup]) hlock' hts' hstage hfar
  obtain ⟨hequal, hdue⟩ := u.enterEqualize_port (portOf l)
  rw [ht, hu, checkEqualize_of_not_done fun k hk => u.enterEqualize_not_done hk,
    checkRetrain_of_not_retrain (by rw [hequal]; decide)]
  refine ⟨hequal, hdue.trans ?_⟩
  rw [hutick, htick]
  rfl

/-- R782: in DETECT a lane takes the polarity of what arrives. -/
theorem rxTs_inverts {l : LaneNo} {w : W64} {b : Bool} {s : State} (hup : s.units.lanes[l].up = true)
    (hst : s.ports[portOf l].st = .detect) (hw : tsLegal w = true) (hb : b ≠ s.lanes[l].inverted) :
    rxTs l w b s = s.modLane l fun x => { x with inverted := b, seenCount := 0 } := by
  unfold rxTs
  dsimp only
  rw [if_neg (State.lane_trains hup (by rw [hst]; decide)), if_pos (bne_iff_ne.2 hb), if_pos (by rw [hst, hw]; decide)]

/-! ### The sweep of presets -/

theorem bestPreset_lt (ms : List Nat) (h : 0 < ms.length) : bestPreset ms < ms.length := by
  unfold bestPreset
  cases hfind : (List.range ms.length).find? fun i => (ms[i]?).getD 0 == ms.foldl max 0 with
  | none => exact h
  | some i => exact List.mem_range.1 (List.mem_of_find?_eq_some hfind)

/-- A lane whose measurement of a preset ends. -/
def LaneSt.measure (m : Nat) (x : LaneSt) : LaneSt :=
  let ms := x.margins ++ [m]
  let req := if ms.length < 8 then ms.length else bestPreset ms
  { x with margins := ms, request := BitVec.ofNat 4 req, done := ms.length == 8 && req == 7 }

theorem measured_of_sweeping {l : LaneNo} {m : Nat} {v : BitVec 40} {s : State} (hup : s.units.lanes[l].up = true)
    (hst : s.ports[portOf l].st = .equalize) (hlock : s.lanes[l].locked = true) (hreq : s.lanes[l].request ≠ 0xF)
    (hlen : s.lanes[l].margins.length < 8) (hts : s.lanes[l].farTs = some v)
    (hrep : v.extractLsb' 8 4 = s.lanes[l].request) :
    measured l m s = ((s.modLane l (LaneSt.measure m)).showTs l).checkEqualize (portOf l) := by
  unfold measured
  dsimp only
  rw [hts]
  dsimp only
  rw [if_neg]
  · rfl
  · rw [hst, State.laneUp, hup, hlock, hrep, decide_eq_false hreq, decide_eq_false (by omega)]
    simp

theorem LaneSt.measure_request {x : LaneSt} (m : Nat) (h : x.margins.length < 8) : (x.measure m).request.toNat =
    if x.margins.length < 7 then x.margins.length + 1 else bestPreset (x.margins ++ [m]) := by
  have hbest := bestPreset_lt (x.margins ++ [m]) (by simp)
  unfold measure
  simp only [List.length_append, List.length_singleton] at hbest ⊢
  rw [BitVec.toNat_ofNat]
  split <;> split <;> omega

/-- What a lane measured stays as the port goes on. -/
theorem State.measure_kept {α : Type} (f : LaneSt → α) (hshown : ∀ x, f x.shown = f x) (haligned : ∀ x, f x.unaligned = f x)
    (s : State) (l : LaneNo) (m : Nat) :
    f (((s.modLane l (LaneSt.measure m)).showTs l).checkEqualize (portOf l)).lanes[l] = f (s.lanes[l].measure m) := by
  have hshow := ((s.modLane l (LaneSt.measure m)).showTs_lanesKeep l).field f hshown l
  have hcheck := (((s.modLane l (LaneSt.measure m)).showTs l).checkEqualize_lanesKeep (portOf l)).field f haligned l
  rw [hcheck, hshow, modLane_lane]

/-- Settles O38. -/
theorem trainingLanes : Obligations.TrainingLanes := by
  unfold Obligations.TrainingLanes
  refine ⟨fun l s hup hst => ?_, fun l s => ?_, fun l s hst hin hwc hlanes c hc => ?_,
    fun l s hst hin hlanes c hc => ?_, fun l w s hup hst hw hfew => ?_, fun l w s hup hst hw hseen hmany => ?_,
    fun l w b s hup hst hw hb => ?_,
    fun l m v s hup hst hlock hreq hlen hts hrep => ?_⟩
  · exact ⟨_, congrArg Host.Outcome.next (lockLane_of_up hup hst), lockLane_locks l s _, blockLockAcquired_sweeps⟩
  · exact ⟨unlockLane l s, rfl, unlockLane_unlocks l s⟩
  · rcases (List.mem_cons.1 hc).imp_right List.mem_singleton.1 with rfl | rfl
    · obtain ⟨hf, ha, hl, hn, x, hx, hcause, hmask, htries⟩ := unlockLane_narrows hst hin hwc hlanes
      exact ⟨_, x, rfl, hf, ha, hl, hx, hcause, hmask, htries, hn⟩
    · obtain ⟨hf, ha, hl, hn, x, hx, hcause, hmask, htries⟩ := State.laneFail_narrows hst hin hwc hlanes
      exact ⟨_, x, rfl, hf, ha, hl, hx, hcause, hmask, htries, hn⟩
  · rcases (List.mem_cons.1 hc).imp_right List.mem_singleton.1 with rfl | rfl
    · exact ⟨_, rfl, unlockLane_retrains hst hin hlanes⟩
    · exact ⟨_, rfl, State.laneFail_retrains hst hin hlanes⟩
  · exact congrArg Host.Outcome.next (rxTs_of_few hup hst hw hfew)
  · have hact : rxTs l w s.lanes[l].inverted s =
        (s.modLane l (LaneSt.see (w.extractLsb' 8 40))).actTs l (w.extractLsb' 8 40) := by
      rw [rxTs_of_legal hup hst hw, if_pos]
      simp only [LaneSt.see, hseen, if_true]
      omega
    have hports : (s.modLane l (LaneSt.see (w.extractLsb' 8 40))).ports = s.ports := rfl
    have hlane : (s.modLane l (LaneSt.see (w.extractLsb' 8 40))).lanes[l].locked = s.lanes[l].locked := by
      rw [State.modLane_lane]
      rfl
    refine ⟨fun hstage => ?_, fun hstage hactive hin => ?_, fun hstage hfar hdetect hlock => ?_⟩
    · exact ⟨_, congrArg Host.Outcome.next (hact.trans (State.actTs_refused hst ((tsStage w).trans hstage))),
        State.toDisabled_port _ _ _⟩
    · obtain ⟨hretrain, hdue, -⟩ := (s.modLane l (LaneSt.see (w.extractLsb' 8 40))).enterRetrain_port (portOf l)
      exact ⟨_, congrArg Host.Outcome.next (hact.trans (State.actTs_retrain hactive hin ((tsStage w).trans hstage))),
        hretrain, hdue⟩
    · exact ⟨_, congrArg Host.Outcome.next hact, State.actTs_equalizes hdetect hup (hlane.trans hlock)
        ((tsStage w).trans hstage) ((tsLocked w).trans hfar)⟩
  · exact congrArg Host.Outcome.next (rxTs_inverts hup hst hw hb)
  · refine ⟨_, congrArg Host.Outcome.next (measured_of_sweeping hup hst hlock hreq hlen hts hrep), ?_, ?_⟩
    · exact State.measure_kept LaneSt.margins (fun _ => rfl) (fun _ => rfl) s l m
    · rw [State.measure_kept LaneSt.request (fun _ => rfl) (fun _ => rfl) s l m]
      exact LaneSt.measure_request m hlen

end Sys2Proof.Machine
end

section
/-!
PROOFS. LANE_MARKs: what is kept of one, the set of lanes which they align, and what a port sends (R788, R789, R792, R801,
R804).
-/

namespace Sys2Proof.Machine

/-! ### A mark which arrives -/

/-- What a lane keeps of a LANE_MARK. -/
def LaneSt.mark (l : LaneNo) (w : W64) (arrival : Int) (x : LaneSt) : LaneSt :=
  { x with
    arrival := if (w.extractLsb' 10 2).toNat == l.val % 4 then some (w.extractLsb' 16 16, arrival) else none
    farDeskewed := w.getLsbD 13 }

/-- R789, R804: what becomes of a LANE_MARK once its BIP was compared. -/
def State.keepMark (l : LaneNo) (w : W64) (arrival : Int) (s : State) : State :=
  let p := portOf l
  let seq := w.extractLsb' 16 16
  let aligning := s.ports[p].st == .align || s.ports[p].st == .retrain
  let ls := lanesIn p s.ports[p].lanes
  let old := (ls.filterMap fun k => (s.lanes[k].arrival).map (·.1)).find? fun q => q ≠ seq
  let s := match aligning, old with
    | true, some q => (s.chooseSet p q).forEach ls fun k u => u.modLane k fun x => { x with arrival := none }
    | _, _ => s
  let s := s.modLane l (LaneSt.mark l w arrival)
  let s := if aligning && ls.all fun k => (match s.lanes[k].arrival with | some a => a.1 == seq | none => false) then
      s.chooseSet p seq else s
  if aligning then s.checkAlign p else s

theorem markLegal_code {w : W64} (h : markLegal w = true) : w.toNat % 256 = 0x2D := by
  unfold markLegal at h
  simp only [Bool.and_eq_true, beq_iff_eq] at h
  exact h.2

theorem rxMark_of_legal {l : LaneNo} {w : W64} {s : State} (hmarks : s.ports[portOf l].marks = true)
    (hlane : s.ports[portOf l].lanes &&& laneBit l ≠ 0) (hw : markLegal w = true) (a : Int) (b : Byte) :
    rxMark l w a b s = (if w.extractLsb' 32 8 = b then s else s.blockError l).keepMark l w a := by
  unfold rxMark
  dsimp only
  rw [if_neg (by rw [hmarks, decide_eq_false hlane]; decide), if_neg (by rw [markLegal_code hw]; decide),
    if_neg (by rw [hw]; decide)]
  rfl

theorem State.keepMark_of_active {l : LaneNo} {s : State} (hst : s.ports[portOf l].st = .active) (w : W64) (a : Int) :
    s.keepMark l w a = s.modLane l (LaneSt.mark l w a) := by
  unfold keepMark
  dsimp only
  rw [hst]
  rfl

theorem Port.marks_of_active {q : Port} (h : q.st = .active) : q.marks = true := by rw [Port.marks, h]; rfl

/-- R785: a block error which is not one too many is only counted. -/
theorem State.blockError_of_few {s : State} {l : LaneNo} (h : s.lanes[l].errors.length < 32) : s.blockError l =
    s.modLane l fun x => { x with errors := (s.lanes[l].errors.filter fun t => s.tick - t < 800000) ++ [s.tick] } := by
  have hle := List.length_filter_le (fun t => decide (s.tick - t < 800000)) s.lanes[l].errors
  exact if_neg (by omega)

/-- R788: a mark whose BIP does not agree is a block error, and is kept. -/
theorem rxMark_miscounted {l : LaneNo} {w : W64} {a : Int} {b : Byte} {s : State} (hst : s.ports[portOf l].st = .active)
    (hlane : s.ports[portOf l].lanes &&& laneBit l ≠ 0) (hw : markLegal w = true) (hb : w.extractLsb' 32 8 ≠ b)
    (hfew : s.lanes[l].errors.length < 32) :
    (rxMark l w a b s).lanes[l].errors.getLast? = some s.tick ∧ ChangesOnly [.lanes] s (rxMark l w a b s) := by
  rw [rxMark_of_legal (Port.marks_of_active hst) hlane hw, if_neg hb, State.blockError_of_few hfew,
    State.keepMark_of_active (by exact hst)]
  refine ⟨?_, ?_⟩
  · rw [State.modLane_lane, State.modLane_lane]
    exact List.getLast?_concat
  · simp (disch := decide) only [modLane_only, changesOnly_self]

/-! ### Lanes and their bits -/

theorem laneOf_portOf (l : LaneNo) : laneOf (portOf l) ⟨l.val % 4, by omega⟩ = l := by
  refine Fin.ext ?_
  change 4 * (l.val / 4) + l.val % 4 = l.val
  omega

theorem laneOf_mod (p : PortNo) (i : Fin 4) : (laneOf p i).val % 4 = i.val := by
  change (4 * p.val + i.val) % 4 = i.val
  omega

theorem laneBit_laneOf (p : PortNo) (i : Fin 4) : laneBit (laneOf p i) = 1#4 <<< i.val := by rw [laneBit, laneOf_mod]

theorem lanesIn_bit (p : PortNo) (i : Fin 4) : lanesIn p (1#4 <<< i.val) = [laneOf p i] := by
  have h : ∀ i : Fin 4, ((List.finRange 4).filter fun j => (1#4 <<< i.val).getLsbD j.val) = [i] := by decide
  rw [lanesIn, h]
  rfl

theorem laneBit_eq (l : LaneNo) : laneBit l = 1#4 <<< (⟨l.val % 4, by omega⟩ : Fin 4).val := rfl

theorem laneBit_ne_zero (l : LaneNo) : laneBit l ≠ 0 := by
  have h : ∀ i : Fin 4, 1#4 <<< i.val ≠ 0 := by decide
  exact h ⟨l.val % 4, by omega⟩

theorem lanesIn_laneBit (l : LaneNo) : lanesIn (portOf l) (laneBit l) = [l] := by
  rw [laneBit_eq, lanesIn_bit, laneOf_portOf]

theorem bit_and_eq_zero (i j : Fin 4) : (1#4 <<< i.val) &&& (1#4 <<< j.val) = 0 ↔ i ≠ j := by
  revert i j
  decide

/-- The mask of one lane. -/
theorem maskOf_one {p : PortNo} {i : Fin 4} {f : LaneNo → Bool} (h : ∀ j, f (laneOf p j) = decide (j = i)) :
    maskOf p f = 1#4 <<< i.val := by
  have hone : ∀ i : Fin 4, (List.finRange 4).filter (fun j => decide (j = i)) = [i] := by decide
  have hlanes : (lanesOf p).filter f = [laneOf p i] := by
    rw [lanesOf, List.filter_map, show f ∘ laneOf p = fun j => decide (j = i) from funext h, hone]
    rfl
  rw [maskOf, hlanes, List.foldl_cons, List.foldl_nil, laneBit_laneOf]
  exact BitVec.zero_or

/-! ### The set which marks align -/

/-- A mask other than 0 which is not one lane's holds another lane. -/
theorem exists_other_bit : ∀ (m : BitVec 4) (i : Fin 4), m ≠ 0 → m ≠ 1#4 <<< i.val → ∃ j, j ≠ i ∧ m.getLsbD j.val = true := by
  decide

theorem masks_filter_one : ∀ i : Fin 4,
    ((List.range 15).map fun k => BitVec.ofNat 4 (k + 1)).filter (fun m => decide (m = 1#4 <<< i.val)) = [1#4 <<< i.val] := by
  decide

theorem laneCount_bit : ∀ i : Fin 4, laneCount 0 < laneCount (1#4 <<< i.val) := by decide

theorem within64_one (a : Int) : within64 [a] = true := by simp [within64]

/-- R804: with a mark of the sequence on one lane only, that lane is the set. -/
theorem State.alignedSet_one {s : State} {p : PortNo} {i : Fin 4} {l : LaneNo} {seq : W16} {a : Int} (hl : laneOf p i = l)
    (ha : s.lanes[l].arrival = some (seq, a)) (hp : s.ports[p].lanes = 1#4 <<< i.val) :
    s.alignedSet p seq = 1#4 <<< i.val := by
  subst hl
  have harrived : ∀ j, j ≠ i → (match s.lanes[laneOf p j].arrival with
      | some b => b.1 == seq && s.ports[p].lanes &&& laneBit (laneOf p j) != 0
      | none => false) = false := fun j hj => by
    split
    · rw [hp, laneBit_laneOf, (bit_and_eq_zero i j).2 (Ne.symm hj), bne_self_eq_false, Bool.and_false]
    · rfl
  have hbit : s.ports[p].lanes &&& laneBit (laneOf p i) ≠ 0 := by
    rw [hp, laneBit_laneOf, Ne, bit_and_eq_zero]
    exact fun h => h rfl
  unfold alignedSet
  dsimp only
  rw [List.filter_congr (q := fun m => decide (m = 1#4 <<< i.val)), masks_filter_one, List.foldl_cons, List.foldl_nil,
    if_pos (laneCount_bit i)]
  have hpos : ∀ k ∈ List.range 15, BitVec.ofNat 4 (k + 1) ≠ 0 := by decide
  intro m hm
  by_cases h : m = 1#4 <<< i.val
  · rw [h, lanesIn_bit, decide_eq_true rfl]
    simp only [List.all_cons, List.all_nil, List.filterMap_cons, List.filterMap_nil, ha, Option.map_some]
    rw [BEq.rfl, bne_iff_ne.2 hbit, within64_one]
    rfl
  · obtain ⟨k, hk, rfl⟩ := List.mem_map.1 hm
    obtain ⟨j, hj, hmj⟩ := exists_other_bit _ i (hpos k hk) h
    rw [decide_eq_false h]
    have hm : laneOf p j ∈ lanesIn p (BitVec.ofNat 4 (k + 1)) :=
      List.mem_map_of_mem (List.mem_filter.2 ⟨List.mem_finRange j, hmj⟩)
    rw [List.all_eq_false.2 ⟨_, hm, Bool.eq_false_iff.1 (harrived j hj)⟩, Bool.false_and]

/-- A lane without the mark of the set which was chosen. -/
def LaneSt.unchosen (x : LaneSt) : LaneSt := { x with deskewed := false }

/-- R804: of a port's lanes, those of the set which is chosen are deskewed. -/
theorem State.chooseSet_deskews (s : State) {p : PortNo} {l : LaneNo} (hl : l ∈ lanesOf p) (seq : W16) :
    (s.chooseSet p seq).lanes[l].deskewed = (s.alignedSet p seq &&& laneBit l != 0) := by
  unfold chooseSet
  dsimp only
  refine forEach_establishes (P := fun t => t.lanes[l].deskewed = (s.alignedSet p seq &&& laneBit l != 0)) hl
    (fun t => ?_) (fun k t h => ?_) s
  · rw [modLane_lane]
  · by_cases e : l = k
    · subst e
      rw [modLane_lane]
    · rw [modLane_lane_ne _ _ e]
      exact h

theorem State.chooseSet_lanesKeep (s : State) (p : PortNo) (seq : W16) : LanesKeep LaneSt.unchosen s (s.chooseSet p seq) :=
  .forEach (fun l t => t.modLane_lanesKeep l (g := fun x => { x with deskewed := s.alignedSet p seq &&& laneBit l != 0 })
    fun _ => rfl) _ _

/-- R801, R804: a port whose only lane is deskewed on both sides leaves ALIGN. -/
theorem State.checkAlign_of_one {s : State} {l : LaneNo} (hst : s.ports[portOf l].st = .align)
    (hp : s.ports[portOf l].lanes = laneBit l) (hmine : s.lanes[l].deskewed = true) (hfar : s.lanes[l].farDeskewed = true) :
    s.checkAlign (portOf l) = s.enterNegotiate (portOf l) (laneBit l) := by
  have hbit : ∀ j : Fin 4, (s.ports[portOf l].lanes &&& laneBit (laneOf (portOf l) j) != 0) =
      decide (j = ⟨l.val % 4, by omega⟩) := fun j => by
    rw [hp, laneBit_laneOf, laneBit_eq, Bool.eq_iff_iff, bne_iff_ne, Ne, bit_and_eq_zero, decide_eq_true_eq, Classical.not_not,
      eq_comm]
  have hset : (maskOf (portOf l) fun k => s.lanes[k].deskewed && s.ports[portOf l].lanes &&& laneBit k != 0) = laneBit l := by
    refine maskOf_one (i := ⟨l.val % 4, by omega⟩) fun j => ?_
    rw [hbit j]
    by_cases e : j = ⟨l.val % 4, by omega⟩
    · rw [e, laneOf_portOf, hmine]
      rfl
    · rw [decide_eq_false e, Bool.and_false]
  unfold checkAlign
  dsimp only
  rw [hset, lanesIn_laneBit, List.all_cons, hfar, List.all_nil, if_pos, hst]
  · rfl
  · rw [decide_eq_true (laneBit_ne_zero l)]
    rfl

/-- A port as it enters NEGOTIATE with a set of lanes. -/
def Port.negotiate (set : BitVec 4) (q : Port) : Port := { q with st := .negotiate, lanes := set, own := q.record }

/-- A port without what sending and a record exchange which begins change of it. -/
def Port.phase (q : Port) : Port :=
  { q.training with frags := Vector.replicate 16 none, incoming := none, farAccepted := false }

theorem State.beginExchange_phase (s : State) (p : PortNo) : PortsKeep Port.phase s (s.beginExchange p) := by
  unfold beginExchange
  dsimp only
  refine PortsKeep.trans (modPort_portsKeep s p ?_)
    ((Sends.forEach (fun i u => u.replicate_sends p _ 1) _ _).training.field Port.phase fun _ => rfl)
  rfl

/-- R801: a port which enters NEGOTIATE, for 6 ms; the lanes which are not of the set serve no more. -/
theorem State.enterNegotiate_port (s : State) (p : PortNo) (set : BitVec 4) :
    (s.enterNegotiate p set).ports[p].st = .negotiate ∧ (s.enterNegotiate p set).ports[p].lanes = set ∧
    (s.enterNegotiate p set).ports[p].due = s.tick + BitVec.ofNat 64 (800000 * 6) ∧
    ∀ l ∈ lanesOf p, set &&& laneBit l = 0 → (s.enterNegotiate p set).units.lanes[l].up = false := by
  have htick := s.fenceLanes_frame ((s.training p).filter fun l => set &&& laneBit l = 0) .tick (by decide)
  have hdown : ∀ l ∈ lanesOf p, set &&& laneBit l = 0 →
      (s.fenceLanes ((s.training p).filter fun l => set &&& laneBit l = 0)).units.lanes[l].up = false :=
    fun l hl he => fenceLanes_training_down hl (decide_eq_true he)
  unfold enterNegotiate
  dsimp only
  generalize s.fenceLanes ((s.training p).filter fun l => set &&& laneBit l = 0) = t at htick hdown
  have h : ∀ u : State, PortsKeep Port.phase u ((u.notePort p).beginExchange p) := fun u =>
    ((notePort_sends u p).training.field Port.phase fun _ => rfl).trans (beginExchange_phase _ p)
  refine ⟨((h _).field Port.st (fun _ => rfl) p).trans ?_, ((h _).field Port.lanes (fun _ => rfl) p).trans ?_,
    ((h _).field Port.due (fun _ => rfl) p).trans ?_, fun l hl he => ?_⟩
  · rw [startTimer_eq, modPort_port, modPort_port]
    rfl
  · rw [startTimer_eq, modPort_port, modPort_port]
    rfl
  · rw [startTimer_eq, modPort_port, ← htick]
    rfl
  · have hunits : ∀ u : State, ((u.notePort p).beginExchange p).units = u.units := fun u =>
      (show ChangesOnly (Comp.allBut [.units]) _ _ by simp [notePort_only, beginExchange_only, changesOnly_self])
        .units (by decide)
    rw [hunits]
    exact hdown l hl he

/-- R801, R804: the marks of a port's only lane lead to NEGOTIATE. -/
theorem State.keepMark_aligns {l : LaneNo} {w : W64} {a : Int} {s : State} (hst : s.ports[portOf l].st = .align)
    (hp : s.ports[portOf l].lanes = laneBit l) (hnum : (w.extractLsb' 10 2).toNat = l.val % 4) (hfar : w.getLsbD 13 = true)
    (hold : ∀ x, s.lanes[l].arrival = some x → x.1 = w.extractLsb' 16 16) :
    ∃ t : State, t.tick = s.tick ∧ s.keepMark l w a = t.enterNegotiate (portOf l) (laneBit l) := by
  have hold' : ([l].filterMap fun k => (s.lanes[k].arrival).map (·.1)).find? (fun q => q ≠ w.extractLsb' 16 16) =
      none := by
    rw [List.filterMap_cons]
    cases hx : s.lanes[l].arrival with
    | none => rfl
    | some x => simp [hold x hx]
  have harrived : (s.modLane l (LaneSt.mark l w a)).lanes[l].arrival = some (w.extractLsb' 16 16, a) := by
    rw [modLane_lane, LaneSt.mark, hnum, BEq.rfl]
    rfl
  have hset : (s.modLane l (LaneSt.mark l w a)).alignedSet (portOf l) (w.extractLsb' 16 16) = laneBit l :=
    alignedSet_one (laneOf_portOf l) harrived hp
  have hkept : ChangesOnly [.lanes] s ((s.modLane l (LaneSt.mark l w a)).chooseSet (portOf l) (w.extractLsb' 16 16)) := by
    simp (disch := decide) only [chooseSet_only, modLane_only, changesOnly_self]
  have hports := hkept .ports (by decide)
  have hmine := (s.modLane l (LaneSt.mark l w a)).chooseSet_deskews (mem_lanesOf l) (w.extractLsb' 16 16)
  have hfar' := ((s.modLane l (LaneSt.mark l w a)).chooseSet_lanesKeep (portOf l) (w.extractLsb' 16 16)).field
    LaneSt.farDeskewed (fun _ => rfl) l
  have htick := hkept .tick (by decide)
  rw [hset, BitVec.and_self, bne_iff_ne.2 (laneBit_ne_zero l)] at hmine
  rw [modLane_lane] at hfar'
  unfold keepMark
  dsimp only
  rw [hp, lanesIn_laneBit, hst, hold', show (PState.align == .align || PState.align == .retrain) = true from rfl]
  dsimp only
  rw [if_pos rfl, if_pos]
  · refine ⟨_, htick, checkAlign_of_one ?_ ?_ hmine (hfar'.trans hfar)⟩
    · rw [hports, hst]
    · rw [hports, hp]
  · rw [List.all_cons, harrived, List.all_nil, Bool.and_true]
    exact beq_self_eq_true (w.extractLsb' 16 16)

/-! ### The marks which a port sends -/

/-- R788: a LANE_MARK. -/
def markBlock (l : LaneNo) (deskewed : Bool) (seq : W16) (bips : W32) : W64 :=
  BitVec.ofNat 64 (leNat ([0x2D] ++ leBytes 1 ((if deskewed then 0x20 else 0) + 4 * (l.val % 4)) ++
    leBytes 2 seq.toNat ++ leBytes 1 (fieldNat (leBytes 4 bips.toNat) (l.val % 4) 1) ++ [0, 0, 0]))

theorem fieldNat_leBytes (v i : Nat) (h : i < 4) : fieldNat (leBytes 4 v) i 1 = v / 256 ^ i % 256 := by
  have hbyte : (leBytes 4 v)[i]? = some (BitVec.ofNat 8 (v / 256 ^ i)) := by
    simp [leBytes, h]
  simp only [fieldNat, List.range_one, List.map_cons, List.map_nil, Nat.add_zero, hbyte, Option.getD_some, leNat,
    BitVec.toNat_ofNat]
  omega

theorem markBlock_toNat (l : LaneNo) (d : Bool) (seq : W16) (bips : W32) : (markBlock l d seq bips).toNat =
    0x2D + 256 * ((if d then 0x20 else 0) + 4 * (l.val % 4)) + 65536 * seq.toNat +
      2 ^ 32 * (bips.toNat / 256 ^ (l.val % 4) % 256) := by
  have hseq := seq.isLt
  have hbip := Nat.mod_lt (bips.toNat / 256 ^ (l.val % 4)) (show 256 > 0 by decide)
  rw [markBlock, fieldNat_leBytes _ _ (Nat.mod_lt _ (by decide)), BitVec.toNat_ofNat, leNat_append, leNat_append,
    leNat_append, leNat_append, leNat_leBytes, leNat_leBytes, leNat_leBytes]
  generalize bips.toNat / 256 ^ (l.val % 4) % 256 = x at hbip
  simp only [leNat, List.length_append, List.length_cons, List.length_nil, length_leBytes,
    show (0x2D : Byte).toNat = 0x2D from rfl, show (0 : Byte).toNat = 0 from rfl]
  cases d <;> simp only [Bool.false_eq_true, ↓reduceIte, Nat.reduceAdd, Nat.reducePow, Nat.mul_zero, Nat.add_zero,
    Nat.zero_add] <;> omega

/-- R788: what a LANE_MARK tells. -/
theorem markBlock_fields (l : LaneNo) (d : Bool) (seq : W16) (bips : W32) :
    (markBlock l d seq bips).extractLsb' 0 8 = 0x2D#8 ∧
      (markBlock l d seq bips).extractLsb' 10 2 = BitVec.ofNat 2 l.val ∧
      (markBlock l d seq bips).extractLsb' 16 16 = seq ∧
      (markBlock l d seq bips).extractLsb' 32 8 = bips.extractLsb' (8 * (l.val % 4)) 8 := by
  have hval := markBlock_toNat l d seq bips
  have hseq := seq.isLt
  refine ⟨BitVec.eq_of_toNat_eq ?_, BitVec.eq_of_toNat_eq ?_, BitVec.eq_of_toNat_eq ?_, BitVec.eq_of_toNat_eq ?_⟩
  · rw [toNat_extractLsb'_eq, show (0x2D#8).toNat = 0x2D from rfl]
    cases d <;> simp only [Bool.false_eq_true, ↓reduceIte] at hval <;> omega
  · rw [toNat_extractLsb'_eq, BitVec.toNat_ofNat]
    cases d <;> simp only [Bool.false_eq_true, ↓reduceIte] at hval <;> omega
  · rw [toNat_extractLsb'_eq]
    cases d <;> simp only [Bool.false_eq_true, ↓reduceIte] at hval <;> omega
  · rw [toNat_extractLsb'_eq, BitVec.extractLsb'_toNat, Nat.shiftRight_eq_div_pow,
      show (2 : Nat) ^ (8 * (l.val % 4)) = 256 ^ (l.val % 4) from Nat.pow_mul 2 8 _]
    cases d <;> simp only [Bool.false_eq_true, ↓reduceIte] at hval <;> omega

theorem State.mem_emit_of_not_overPcie (s : State) {e : Emit} (h : e.overPcie = false) : e ∈ (s.emit e).out := by
  rw [emit_of_not_overPcie h]
  exact List.mem_append_right _ (List.mem_singleton_self e)

/-- R792, R799: each lane in service sends a mark with the next number. -/
theorem txMark_of_active {p : PortNo} {s : State} (hst : s.ports[p].st = .active) (bips : W32) : txMark p bips s =
    (s.forEach (lanesIn p s.ports[p].lanes) fun l u => u.emit (.laneBlock l
      (markBlock l (u.lanes[l].deskewed || s.ports[p].st == .active) s.ports[p].markSeq bips) 1)).modPort p
      fun x => { x with markSeq := x.markSeq + 1 } :=
  if_neg (by rw [Port.marks_of_active hst]; decide)

theorem txMark_sends {p : PortNo} {s : State} (hst : s.ports[p].st = .active) (bips : W32) :
    (txMark p bips s).ports[p].markSeq = s.ports[p].markSeq + 1 ∧
      (∀ l ∈ lanesIn p s.ports[p].lanes, ∃ w : W64, Emit.laneBlock l w 1 ∈ (txMark p bips s).out ∧
        w.extractLsb' 0 8 = 0x2D#8 ∧ w.extractLsb' 10 2 = BitVec.ofNat 2 l.val ∧
        w.extractLsb' 16 16 = s.ports[p].markSeq ∧ w.extractLsb' 32 8 = bips.extractLsb' (8 * (l.val % 4)) 8) ∧
      ChangesOnly [.ports, .out] s (txMark p bips s) := by
  have hports : ∀ (t : State) (ls : List LaneNo) (g : LaneNo → State → Emit),
      (t.forEach ls fun l u => u.emit (g l u)).ports = t.ports := fun t ls g =>
    (show ChangesOnly [.out] _ _ from (forEach_only (fun l u => by apply emit_only; simp) _ _).2 (.refl _ _)) .ports
      (by decide)
  refine ⟨?_, fun l hl => ?_, ?_⟩
  · rw [txMark_of_active hst, State.modPort_port, hports]
  · rw [txMark_of_active hst]
    refine State.forEach_establishes (P := fun t => ∃ w : W64, Emit.laneBlock l w 1 ∈ t.out ∧
      w.extractLsb' 0 8 = 0x2D#8 ∧ w.extractLsb' 10 2 = BitVec.ofNat 2 l.val ∧
      w.extractLsb' 16 16 = s.ports[p].markSeq ∧ w.extractLsb' 32 8 = bips.extractLsb' (8 * (l.val % 4)) 8) hl
      (fun t => ⟨_, t.mem_emit_of_not_overPcie rfl, markBlock_fields l _ _ _⟩) (fun k t h => ?_) s
    obtain ⟨w, hw, hfields⟩ := h
    exact ⟨w, (State.emit_sends _ _).mem_out hw, hfields⟩
  · simp (disch := decide) only [txMark_only, changesOnly_self]

end Sys2Proof.Machine
end

section
/-!
PROOFS. The record exchange: fragments, ACCEPT and REFUSE, and the entry to ACTIVE (R801, R806, R813 to R816).
-/

namespace Sys2Proof.Machine

/-! ### Entering ACTIVE -/

/-- A port without what sending and an entry to ACTIVE begin afresh. -/
def Port.linked (q : Port) : Port := { q.training with rxSeq := 0, nakAt := none, skipping := false, sync := none }

/-- Between two states outputs were sent, and of each port no more changed than an entry to ACTIVE begins afresh. -/
def Links (s t : State) : Prop := Grows s t ∧ PortsKeep Port.linked s t

theorem Links.trans {r s t : State} (h : Links r s) (g : Links s t) : Links r t := ⟨h.1.trans g.1, h.2.trans g.2⟩

theorem Links.refl (s : State) : Links s s := ⟨.refl s, .refl s⟩

theorem Sends.links {s t : State} (h : Sends s t) : Links s t := ⟨h.grows, h.training.field Port.linked fun _ => rfl⟩

theorem State.modPort_links (s : State) (p : PortNo) {f : Port → Port} (h : (f s.ports[p]).linked = s.ports[p].linked) :
    Links s (s.modPort p f) := ⟨modPort_grows s p f, modPort_portsKeep s p h⟩

theorem State.freshLink_links (s : State) (p : PortNo) : Links s (s.freshLink p) := by
  unfold freshLink
  dsimp only
  refine Links.trans ?_ (Sends.forEach (fun c u => u.modChan_sends c _) _ _).links
  refine modPort_links s p ?_
  rfl

theorem State.creditLock_sends (s : State) (p : PortNo) : Sends s (s.creditLock p) := by
  unfold creditLock
  dsimp only
  refine .ite (.refl s) (Sends.trans (modPort_sends s p ?_) (emit_sends _ _))
  exact ⟨rfl, [], by simp⟩

theorem State.frontEndSync_links (s : State) (p : PortNo) : Links s (s.frontEndSync p) := by
  unfold frontEndSync
  split
  · refine modPort_links s p ?_
    rfl
  · exact .refl s

theorem State.replayFrom_sends (s : State) (p : PortNo) (q : W16) : Sends s (s.replayFrom p q) := by
  unfold replayFrom
  dsimp only
  refine Sends.trans ?_ (.forEach (fun i u => u.emitItem_sends p i) _ _)
  refine Sends.trans (modPort_sends s p ?_) (emit_sends _ _)
  exact ⟨rfl, [], by simp⟩

/-- A port as it enters ACTIVE with a far record. -/
def Port.activate (far : List Byte) (w : Nat) (q : Port) : Port :=
  { q with st := .active, reason := 0, far, incoming := none, inUse := lowestLanes q.lanes w, cmd := none, retrainStep := 0 }

/-- R810, R818: the width with which a port enters ACTIVE. -/
def Port.entryWidth (q : Port) : Nat :=
  widest (min (min q.maxWidth (fieldNat (q.incoming.getD q.far) 20 1)) (laneCount q.lanes))

theorem State.enterActive_links (s : State) (p : PortNo) :
    Links (s.modPort p (Port.activate (s.ports[p].incoming.getD s.ports[p].far) s.ports[p].entryWidth))
      (s.enterActive p) := by
  unfold enterActive
  dsimp only
  refine Links.trans ?_ (pumpLock_sends _).links
  refine Links.trans ?_ (pumpChans_sends _ _).links
  have hreplay : ∀ (b : Bool) (t : State), Links t (match b, t.ports[p].replay.head? with
      | true, some i => t.replayFrom p i.seq
      | _, _ => t) := fun b t => by
    split
    · exact (replayFrom_sends _ _ _).links
    · exact .refl t
  refine Links.trans ?_ (hreplay _ _)
  have hcmd : ∀ t : State, Links t (match s.ports[p].cmd with
      | some id => t.complete id stOk 0 t.ports[p].res t.ports[p].partnerLow 0
      | none => t) := fun t => by
    split
    · exact (complete_sends _ _ _ _ _ _ _).links
    · exact .refl t
  refine Links.trans ?_ (hcmd _)
  refine Links.trans ?_ (notePort_sends _ _).links
  split
  · exact (Sends.of_law (by apply portLapseEnds_only; simp)).links
  · refine Links.trans ?_ (frontEndSync_links _ _)
    refine Links.trans ?_ (creditLock_sends _ _).links
    exact freshLink_links _ _

/-- R810, R815: a port which enters ACTIVE, with the record which it accepted. -/
theorem State.enterActive_port (s : State) (p : PortNo) : (s.enterActive p).ports[p].st = .active ∧
    (s.enterActive p).ports[p].far = s.ports[p].incoming.getD s.ports[p].far ∧
    (s.enterActive p).ports[p].frags = s.ports[p].frags ∧ Grows s (s.enterActive p) := by
  obtain ⟨hgrows, hkeep⟩ := s.enterActive_links p
  refine ⟨(hkeep.field Port.st (fun _ => rfl) p).trans ?_, (hkeep.field Port.far (fun _ => rfl) p).trans ?_,
    (hkeep.field Port.frags (fun _ => rfl) p).trans ?_, (modPort_grows _ _ _).trans hgrows⟩ <;>
    rw [modPort_port] <;> rfl

/-! ### A record which is judged -/

theorem State.toDisabled_frags (s : State) (p : PortNo) (reason : BitVec 8) :
    (s.toDisabled p reason).ports[p].frags = s.ports[p].frags := by
  refine ((s.toDisabled_sends p reason).training.field Port.frags (fun _ => rfl) p).trans ?_
  rw [modPort_port, dropPortFrames_ports]
  exact leaveActive_keeps Port.frags (fun _ => rfl) (fun _ => rfl) s p p

theorem State.endExchange_frags (s : State) (p : PortNo) : (s.endExchange p).ports[p].frags = s.ports[p].frags := by
  unfold endExchange
  split
  · exact (s.enterActive_port p).2.2.1
  · rfl

theorem State.replicate_frame (s : State) (p : PortNo) (w : W64) (n : Nat) : ChangesOnly [.out] s (s.replicate p w n) := by
  simp (disch := decide) only [replicate_only, changesOnly_self]

theorem State.judgeRecord_frags (s : State) (p : PortNo) (r : List Byte) :
    (s.judgeRecord p r).ports[p].frags = s.ports[p].frags := by
  have hreplicate : ∀ (t : State) (w : W64) (n : Nat), (t.replicate p w n).ports = t.ports := fun t w n =>
    t.replicate_frame p w n .ports (by decide)
  have haccept : ∀ w n, (((s.modPort p fun x => { x with incoming := some r }).replicate p w n).endExchange p).ports[p].frags =
      s.ports[p].frags := fun w n => by
    rw [endExchange_frags, hreplicate, modPort_port]
  have hrefuse : ∀ w n reason, ((s.replicate p w n).toDisabled p reason).ports[p].frags = s.ports[p].frags :=
    fun w n reason => by rw [toDisabled_frags, hreplicate]
  unfold judgeRecord
  dsimp only
  split
  · split
    · exact haccept _ _
    · exact hrefuse _ _ _
  · split
    · exact hrefuse _ _ _
    · exact haccept _ _

/-- A block which is replicated leaves on every lane in service. -/
theorem State.replicate_out {s : State} {p : PortNo} {l : LaneNo} (hl : l ∈ lanesIn p s.ports[p].lanes) (w : W64) (n : Nat) :
    Emit.laneBlock l w n ∈ (s.replicate p w n).out :=
  forEach_establishes (P := fun t => Emit.laneBlock l w n ∈ t.out) hl (fun t => t.mem_emit_of_not_overPcie rfl)
    (fun _ _ h => (emit_sends _ _).mem_out h) s

/-- R801: an output which was sent is there still as a port which is not ACTIVE is disabled. -/
theorem State.toDisabled_grows {s : State} {p : PortNo} (h : s.ports[p].st ≠ .active) (reason : BitVec 8) :
    Grows s (s.toDisabled p reason) := by
  have hdrop : Grows s (s.dropPortFrames p) :=
    .of_only (ks := Comp.allBut [.out, .fns]) ((dropPortFrames_only _ _ (by simp) (by simp) (by simp) (by simp)).2 (.refl _ _))
      (by decide) (by decide)
  have hrest := (s.toDisabled_sends p reason).grows
  rw [leaveActive_of_not_active h] at hrest
  exact (hdrop.trans (modPort_grows _ _ _)).trans hrest

/-! ### NEG blocks -/

theorem blockCode_of_extract {w : W64} {b : Byte} (h : w.extractLsb' 0 8 = b) : w.toNat % 256 = b.toNat := by
  have hbyte : w.toNat / 2 ^ 0 % 2 ^ 8 = b.toNat := by rw [← h, toNat_extractLsb'_eq]
  omega

/-- R806, R813: a NEG block of its kind, with its reserved bytes zero, is acted on during an exchange. -/
theorem rxNeg_of_exchanging {kind : Nat} {k : BitVec 4} {res w : W64} {l : LaneNo} {s : State} (hex : s.exchanging l = true)
    (hcode : w.extractLsb' 0 8 = 0x55#8) (hkind : w.extractLsb' 12 4 = k) (hk : k.toNat = kind) (hres : w &&& res = 0)
    (f : State → State) : rxNeg kind res l w f s = f s := by
  unfold rxNeg
  rw [if_neg (by rw [hex]; decide), if_neg (by rw [blockCode_of_extract hcode]; decide),
    if_neg (by rw [hkind, hk]; exact fun h => h rfl), if_neg (fun h => h hres)]

theorem State.exchanging_lane {s : State} {l : LaneNo} (h : s.exchanging l = true) :
    l ∈ lanesIn (portOf l) s.ports[portOf l].lanes := by
  have hbit : s.ports[portOf l].lanes.getLsbD (l.val % 4) = true := by
    unfold exchanging at h
    simp only [Bool.and_eq_true] at h
    exact h.2
  exact List.mem_map.2 ⟨_, List.mem_filter.2 ⟨List.mem_finRange _, hbit⟩, laneOf_portOf l⟩

/-! ### Fragments -/

/-- R814: what is kept of a fragment, beside what was kept of it before. -/
def newFragment (l : LaneNo) (v : BitVec 48) (old : Option (BitVec 48 × LaneNo × Bool)) : BitVec 48 × LaneNo × Bool :=
  match old with
  | some f => if f.1 = v then (v, f.2.1, f.2.2 || f.2.1 == l) else (v, l, false)
  | none => (v, l, false)

theorem newFragment_value (l : LaneNo) (v : BitVec 48) (old : Option (BitVec 48 × LaneNo × Bool)) :
    (newFragment l v old).1 = v := by
  unfold newFragment
  split
  · split <;> rfl
  · rfl

theorem newFragment_repeated (l : LaneNo) (v : BitVec 48) (c : Bool) : newFragment l v (some (v, l, c)) = (v, l, true) := by
  simp [newFragment]

/-- A port with a fragment of the far record. -/
def Port.keepFragment (i : Fin 16) (f : BitVec 48 × LaneNo × Bool) (q : Port) : Port :=
  { q with frags := q.frags.set i.val (some f) i.isLt }

/-- R806: the number of a fragment. -/
def fragmentNo (w : W64) : Fin 16 := Fin.ofNat 16 (w.extractLsb' 8 4).toNat

theorem fragmentNo_val (w : W64) : (fragmentNo w).val = (w.extractLsb' 8 4).toNat :=
  Nat.mod_eq_of_lt (w.extractLsb' 8 4).isLt

/-- The state with a fragment kept. -/
def State.keepFragment (s : State) (l : LaneNo) (w : W64) : State :=
  s.modPort (portOf l)
    (Port.keepFragment (fragmentNo w) (newFragment l (w.extractLsb' 16 48) s.ports[portOf l].frags[fragmentNo w]))

theorem rxFragment_eq (l : LaneNo) (w : W64) (s : State) : rxFragment l w s =
    if (s.keepFragment l w).ports[portOf l].incoming.isSome then s.keepFragment l w
    else match (s.keepFragment l w).ports[portOf l].whole with
      | some r => (s.keepFragment l w).judgeRecord (portOf l) r
      | none => s.keepFragment l w := rfl

theorem State.keepFragment_port (s : State) (l : LaneNo) (w : W64) : (s.keepFragment l w).ports[portOf l] =
    s.ports[portOf l].keepFragment (fragmentNo w)
      (newFragment l (w.extractLsb' 16 48) s.ports[portOf l].frags[fragmentNo w]) := modPort_port _ _ _

/-- R814: a fragment is kept. -/
theorem rxFragment_keeps (l : LaneNo) (w : W64) (s : State) : ∃ f,
    (rxFragment l w s).ports[portOf l].frags[(w.extractLsb' 8 4).toNat]? = some (some f) ∧ f.1 = w.extractLsb' 16 48 := by
  refine ⟨_, ?_, newFragment_value l (w.extractLsb' 16 48) s.ports[portOf l].frags[fragmentNo w]⟩
  have hkept : (rxFragment l w s).ports[portOf l].frags = (s.keepFragment l w).ports[portOf l].frags := by
    rw [rxFragment_eq]
    split
    · rfl
    · split
      · exact State.judgeRecord_frags _ _ _
      · rfl
  rw [hkept, State.keepFragment_port, ← fragmentNo_val, Port.keepFragment, Vector.getElem?_eq_getElem (fragmentNo w).isLt,
    Vector.getElem_set_self]

/-! ### ACCEPT and REFUSE -/

theorem State.endExchange_of_both {s : State} {p : PortNo} {r : List Byte} (hin : s.ports[p].incoming = some r)
    (hfar : s.ports[p].farAccepted = true) : s.endExchange p = s.enterActive p :=
  if_pos (by rw [hin, hfar]; rfl)

/-- R815: a record which is accepted. -/
theorem State.judgeRecord_accepts {s : State} {l : LaneNo} {r : List Byte} (hst : s.ports[portOf l].st = .negotiate)
    (hl : l ∈ lanesIn (portOf l) s.ports[portOf l].lanes) (h : s.refusal (portOf l) r = none) :
    Emit.laneBlock l (negAccept (r.drop 92)) 8 ∈ (s.judgeRecord (portOf l) r).out ∧
      (if s.ports[portOf l].farAccepted then (s.judgeRecord (portOf l) r).ports[portOf l].st = .active ∧
          (s.judgeRecord (portOf l) r).ports[portOf l].far = r
        else (s.judgeRecord (portOf l) r).ports[portOf l].st = .negotiate ∧
          (s.judgeRecord (portOf l) r).ports[portOf l].incoming = some r) := by
  have hjudge : s.judgeRecord (portOf l) r = ((s.modPort (portOf l) fun x => { x with incoming := some r }).replicate
      (portOf l) (negAccept (r.drop 92)) 8).endExchange (portOf l) := by
    unfold judgeRecord
    dsimp only
    rw [if_neg (by rw [hst]; decide), h]
  have hsent := replicate_out (s := s.modPort (portOf l) fun x => { x with incoming := some r }) (l := l) (by
    rw [modPort_port]
    exact hl) (negAccept (r.drop 92)) 8
  have hport : ((s.modPort (portOf l) fun x => { x with incoming := some r }).replicate (portOf l)
      (negAccept (r.drop 92)) 8).ports[portOf l] = { s.ports[portOf l] with incoming := some r } := by
    rw [(replicate_frame _ _ _ _) .ports (by decide), modPort_port]
  rw [hjudge]
  generalize (s.modPort (portOf l) fun x => { x with incoming := some r }).replicate (portOf l) (negAccept (r.drop 92)) 8 = t
    at hsent hport
  split
  · next hfar =>
    rw [endExchange_of_both (r := r) (by rw [hport]) (by rw [hport, hfar])]
    obtain ⟨hactive, hrec, -, hgrows⟩ := t.enterActive_port (portOf l)
    refine ⟨?_, hactive, ?_⟩
    · obtain ⟨o, ho⟩ := hgrows.out
      rw [ho]
      exact List.mem_append_left _ hsent
    · rw [hrec, hport]
      rfl
  · next hfar =>
    have hwait : t.endExchange (portOf l) = t := if_neg (by rw [hport]; simpa using hfar)
    rw [hwait, hport]
    exact ⟨hsent, hst, rfl⟩

/-- R816: a record which is refused. -/
theorem State.judgeRecord_refuses {s : State} {l : LaneNo} {r : List Byte} {e : Nat × Nat}
    (hst : s.ports[portOf l].st = .negotiate) (hl : l ∈ lanesIn (portOf l) s.ports[portOf l].lanes)
    (h : s.refusal (portOf l) r = some e) : Emit.laneBlock l (negRefuse e.1 e.2) 16 ∈ (s.judgeRecord (portOf l) r).out ∧
      (s.judgeRecord (portOf l) r).ports[portOf l].st = .disabled ∧
      (s.judgeRecord (portOf l) r).ports[portOf l].reason = 9 := by
  have hjudge : s.judgeRecord (portOf l) r =
      (s.replicate (portOf l) (negRefuse e.1 e.2) 16).toDisabled (portOf l) 9 := by
    unfold judgeRecord
    dsimp only
    rw [if_neg (by rw [hst]; decide), h]
  have hports := s.replicate_frame (portOf l) (negRefuse e.1 e.2) 16 .ports (by decide)
  obtain ⟨hdown, hreason, -⟩ := (s.replicate (portOf l) (negRefuse e.1 e.2) 16).toDisabled_port (portOf l) 9
  obtain ⟨o, ho⟩ := ((s.replicate (portOf l) (negRefuse e.1 e.2) 16).toDisabled_grows (p := portOf l)
    (by rw [hports, hst]; decide) 9).out
  rw [hjudge]
  refine ⟨?_, hdown, hreason⟩
  rw [ho]
  exact List.mem_append_left _ (replicate_out hl _ _)

/-- What a fragment adds does not bear on the judgement of a record. -/
theorem State.keepFragment_refusal (s : State) (l : LaneNo) (w : W64) (r : List Byte) :
    (s.keepFragment l w).refusal (portOf l) r = s.refusal (portOf l) r := by
  unfold refusal
  rw [keepFragment_port]
  rfl

theorem rxFragment_judges {l : LaneNo} {w : W64} {c : Bool} {r : List Byte} {s : State}
    (hrep : s.ports[portOf l].frags[fragmentNo w] = some (w.extractLsb' 16 48, l, c))
    (hnone : s.ports[portOf l].incoming = none)
    (hwhole : (s.ports[portOf l].keepFragment (fragmentNo w) (w.extractLsb' 16 48, l, true)).whole = some r) :
    rxFragment l w s = (s.keepFragment l w).judgeRecord (portOf l) r := by
  rw [rxFragment_eq, State.keepFragment_port, hrep, newFragment_repeated, if_neg, hwhole]
  rw [Port.keepFragment, hnone]
  decide

/-- R801: a refusal which comes in NEGOTIATE. -/
theorem rxRefuse_of_negotiate {l : LaneNo} {w : W64} {s : State} (h : s.ports[portOf l].st = .negotiate) :
    ∃ t : State, rxRefuse l w s = t.toDisabled (portOf l) 8 := ⟨_, if_neg (by rw [h]; decide)⟩

theorem Port.marks_of_align {q : Port} (h : q.st = .align) : q.marks = true := by rw [Port.marks, h]; rfl

theorem laneBit_and_eq_zero {k l : LaneNo} (hk : k ∈ lanesOf (portOf l)) (hne : k ≠ l) : laneBit l &&& laneBit k = 0 := by
  obtain ⟨j, -, rfl⟩ := List.mem_map.1 hk
  rw [laneBit_laneOf, laneBit_eq, bit_and_eq_zero]
  exact fun h => hne (by rw [← h, laneOf_portOf])

/-- Settles O40. -/
theorem markersAndRecords : Obligations.MarkersAndRecords := by
  unfold Obligations.MarkersAndRecords
  refine ⟨fun l w a s hst hlane hw => ?_, fun l w a b s hst hlane hw hb hfew => ?_,
    fun l w a s hst hp hw hnum hfar hold => ?_, fun p bips s hst => ⟨_, rfl, txMark_sends hst bips⟩,
    fun l w s hex hcode hkind => ?_, fun l w i c r s hex hst hcode hkind hi hrep hnone hwhole => ?_,
    fun l w s hex hcode hkind hres hcrc => ?_, fun l w s hex hst hcode hkind hres => ?_⟩
  · refine congrArg Host.Outcome.next ?_
    rw [rxMark_of_legal (Port.marks_of_active hst) hlane hw, if_pos rfl, State.keepMark_of_active hst]
    exact State.modLane_congr _ _ (by simp only [LaneSt.mark, beq_iff_eq])
  · exact ⟨_, rfl, rxMark_miscounted hst hlane hw hb hfew⟩
  · obtain ⟨t, ht, heq⟩ := State.keepMark_aligns (a := a) hst hp hnum hfar hold
    obtain ⟨hneg, hlanes, hdue, hdown⟩ := t.enterNegotiate_port (portOf l) (laneBit l)
    refine ⟨_, congrArg Host.Outcome.next (Eq.trans ?_ heq), hneg, hlanes, ?_, fun k hk hne => ?_⟩
    · rw [rxMark_of_legal (Port.marks_of_align hst) (by rw [hp, BitVec.and_self]; exact laneBit_ne_zero l) hw, if_pos rfl]
    · rw [hdue, ht]
      rfl
    · exact hdown k hk (laneBit_and_eq_zero hk hne)
  · obtain ⟨f, hf, hv⟩ := rxFragment_keeps l w s
    exact ⟨_, f, congrArg Host.Outcome.next (rxNeg_of_exchanging hex hcode hkind rfl BitVec.and_zero _), hf, hv⟩
  · obtain rfl : i = fragmentNo w := Fin.ext (hi.trans (fragmentNo_val w).symm)
    have heq : exec (.negRecord l w) s = .next ((s.keepFragment l w).judgeRecord (portOf l) r) :=
      congrArg Host.Outcome.next ((rxNeg_of_exchanging hex hcode hkind rfl BitVec.and_zero _).trans
        (rxFragment_judges hrep hnone hwhole))
    have hport := s.keepFragment_port l w
    have hst' : (s.keepFragment l w).ports[portOf l].st = .negotiate := by rw [hport]; exact hst
    have hl : l ∈ lanesIn (portOf l) (s.keepFragment l w).ports[portOf l].lanes := by
      rw [hport]
      exact State.exchanging_lane hex
    have hfar : (s.keepFragment l w).ports[portOf l].farAccepted = s.ports[portOf l].farAccepted := by rw [hport]; rfl
    refine ⟨fun h => ⟨_, heq, ?_⟩, fun e h => ⟨_, heq, ?_⟩⟩
    · rw [← hfar]
      exact State.judgeRecord_accepts hst' hl ((s.keepFragment_refusal l w r).trans h)
    · exact State.judgeRecord_refuses hst' hl ((s.keepFragment_refusal l w r).trans h)
  · have heq : exec (.negAccept l w) s =
        .next ((s.modPort (portOf l) fun q => { q with farAccepted := true }).endExchange (portOf l)) :=
      congrArg Host.Outcome.next ((rxNeg_of_exchanging hex hcode hkind rfl hres _).trans (if_pos hcrc))
    have hport := s.modPort_port (portOf l) fun q => { q with farAccepted := true }
    refine ⟨fun hnone => heq.trans (congrArg Host.Outcome.next (if_neg ?_)), fun r hin => ⟨_, heq, ?_⟩⟩
    · rw [hport, hnone]
      exact Bool.false_ne_true
    · rw [State.endExchange_of_both (r := r) (by rw [hport, hin]) (by rw [hport])]
      obtain ⟨hactive, hrec, -⟩ := (s.modPort (portOf l) fun q => { q with farAccepted := true }).enterActive_port (portOf l)
      refine ⟨hactive, ?_⟩
      rw [hrec, hport, hin]
      rfl
  · obtain ⟨t, ht⟩ := rxRefuse_of_negotiate (w := w) hst
    exact ⟨_, congrArg Host.Outcome.next ((rxNeg_of_exchanging hex hcode hkind rfl hres _).trans ht),
      (t.toDisabled_port _ 8).1, (t.toDisabled_port _ 8).2.1⟩

end Sys2Proof.Machine
end

section
/-!
PROOFS. The WIDTH_CHANGE handshake and IDLE (R790, R801, R825 to R830, R843).
-/

namespace Sys2Proof.Machine

/-! ### WIDTH_CHANGE blocks -/

section
variable {op w r : Nat} {m : BitVec 4} (q : W16) (hop : op < 16) (hw : w < 256) (hr : r < 256)
include hop hw hr

theorem widthBlock_toNat : (widthBlock op m w r q).toNat =
    0x66 + 256 * (16 * op + m.toNat) + 65536 * w + 2 ^ 24 * r + 2 ^ 32 * q.toNat := by
  have hm := m.isLt
  have hq := q.isLt
  rw [widthBlock, BitVec.toNat_ofNat, leNat_append, leNat_append, leNat_append, leNat_append, leNat_append, leNat_leBytes,
    leNat_leBytes, leNat_leBytes, leNat_leBytes]
  simp only [leNat, List.length_append, List.length_cons, List.length_nil, length_leBytes,
    show (0x66 : Byte).toNat = 0x66 from rfl, show (0 : Byte).toNat = 0 from rfl]
  simp only [Nat.reduceAdd, Nat.reducePow, Nat.mul_zero, Nat.add_zero, Nat.zero_add]
  omega

theorem widthBlock_mask : (widthBlock op m w r q).extractLsb' 8 4 = m := by
  have hval := widthBlock_toNat (m := m) q hop hw hr
  have hm := m.isLt
  refine BitVec.eq_of_toNat_eq ?_
  rw [toNat_extractLsb'_eq]
  omega

theorem widthBlock_width : ((widthBlock op m w r q).extractLsb' 16 8).toNat = w := by
  have hval := widthBlock_toNat (m := m) q hop hw hr
  have hm := m.isLt
  rw [toNat_extractLsb'_eq]
  omega

theorem widthBlock_reason : (widthBlock op m w r q).extractLsb' 24 8 = BitVec.ofNat 8 r := by
  have hval := widthBlock_toNat (m := m) q hop hw hr
  have hm := m.isLt
  refine BitVec.eq_of_toNat_eq ?_
  rw [toNat_extractLsb'_eq, BitVec.toNat_ofNat]
  omega

theorem widthBlock_seq : (widthBlock op m w r q).extractLsb' 32 16 = q := by
  have hval := widthBlock_toNat (m := m) q hop hw hr
  have hm := m.isLt
  have hq := q.isLt
  refine BitVec.eq_of_toNat_eq ?_
  rw [toNat_extractLsb'_eq]
  omega

theorem widthBlock_reserved : (widthBlock op m w r q).extractLsb' 48 16 = 0#16 := by
  have hval := widthBlock_toNat (m := m) q hop hw hr
  have hm := m.isLt
  have hq := q.isLt
  refine BitVec.eq_of_toNat_eq ?_
  rw [toNat_extractLsb'_eq, show (0#16).toNat = 0 from rfl]
  omega

theorem widthBlock_op : (widthBlock op m w r q).toNat % 256 = 0x66 ∧ ((widthBlock op m w r q).extractLsb' 12 4).toNat = op := by
  have hval := widthBlock_toNat (m := m) q hop hw hr
  have hm := m.isLt
  rw [toNat_extractLsb'_eq]
  omega

end

theorem width_lt {w : Nat} (h : w ∈ [1, 2, 4]) : w < 256 := by
  have hle : ∀ v ∈ [1, 2, 4], v < 256 := by decide
  exact hle w h

/-- R785, R790: a WIDTH_CHANGE with legal fields is acted on at an ACTIVE port. -/
theorem rxWidth_of_legal {op w r : Nat} {p : PortNo} {m : BitVec 4} {q : W16} {s : State} (hst : s.ports[p].st = .active)
    (hop : op < 16) (hw : w ∈ [1, 2, 4]) (hm : laneCount m = w) (hr : r < 256) (hreason : op = 3 ∨ r = 0)
    (f : State → State) : rxWidth op p (widthBlock op m w r q) f s = f s := by
  have hwidth := width_lt hw
  have hreason' : (op == 3 || BitVec.ofNat 8 r == 0#8) = true := by
    rcases hreason with rfl | rfl
    · rfl
    · exact Bool.or_true _
  obtain ⟨hcode, hopcode⟩ := widthBlock_op (m := m) q hop hwidth hr
  unfold rxWidth
  dsimp only
  rw [widthBlock_reserved q hop hwidth hr, widthBlock_mask q hop hwidth hr, widthBlock_width q hop hwidth hr,
    widthBlock_reason q hop hwidth hr, hcode, hopcode, hm, hst, hreason', List.contains_iff_mem.2 hw, beq_self_eq_true op,
    beq_self_eq_true w]
  exact (if_neg (by decide)).trans (if_pos (by decide))

/-! ### REQ -/

/-- R825, R829: the reason for which a REQ is refused when the module asks for no width itself, 0 for none. -/
def State.reqReason (s : State) (p : PortNo) (m : BitVec 4) (w : Nat) : Nat :=
  if (lanesIn p m).any fun l => !(s.lanes[l].locked && s.laneUp l) then 1
  else if (lanesIn p m).any fun l => !s.lanes[l].deskewed then 2
  else if s.ports[p].agreedMax < w then 3
  else 0

/-- R825: a REQ which is accepted is answered with ACK and SWITCH. -/
def State.grantReq (s : State) (p : PortNo) (m : BitVec 4) (w : Nat) (q : W16) : State :=
  (((s.modPort p fun x => { x with farWc := some (m, q) }).portLapse p).replicate p (widthBlock 2 m w 0 q) 1).replicate p
    (widthBlock 4 m w 0 q) 1

theorem rxReq_of_idle {p : PortNo} {m : BitVec 4} {w : Nat} {s : State} (q : W16) (hwc : s.ports[p].wc = none)
    (hw : w < 256) : rxReq p (widthBlock 1 m w 0 q) s =
      if s.reqReason p m w ≠ 0 then s.replicate p (widthBlock 3 m w (s.reqReason p m w) q) 1 else s.grantReq p m w q := by
  unfold rxReq
  dsimp only
  rw [hwc, widthBlock_mask q (by decide) hw (by decide), widthBlock_width q (by decide) hw (by decide),
    widthBlock_seq q (by decide) hw (by decide)]
  rfl

theorem State.reqReason_of_good {s : State} {p : PortNo} {m : BitVec 4} {w : Nat}
    (hlanes : ∀ l ∈ lanesIn p m, s.lanes[l].locked = true ∧ s.units.lanes[l].up = true ∧ s.lanes[l].deskewed = true)
    (hmax : w ≤ s.ports[p].agreedMax) : s.reqReason p m w = 0 := by
  have hready : ((lanesIn p m).any fun l => !(s.lanes[l].locked && s.laneUp l)) = false :=
    List.any_eq_false.2 fun l hl => by
      obtain ⟨hlock, hup, -⟩ := hlanes l hl
      rw [hlock, laneUp, hup]
      decide
  have hdeskewed : ((lanesIn p m).any fun l => !s.lanes[l].deskewed) = false :=
    List.any_eq_false.2 fun l hl => by
      rw [(hlanes l hl).2.2]
      decide
  rw [reqReason, hready, hdeskewed, if_neg (by decide), if_neg (by decide), if_neg (by omega)]

theorem State.reqReason_of_wide {s : State} {p : PortNo} {w : Nat} (m : BitVec 4) (hmax : s.ports[p].agreedMax < w) :
    s.reqReason p m w ≠ 0 := by
  unfold reqReason
  split
  · decide
  · split
    · decide
    · decide

theorem State.grantReq_answers (s : State) (p : PortNo) (m : BitVec 4) (w : Nat) (q : W16) :
    (s.grantReq p m w q).ports[p].farWc = some (m, q) ∧
      ∀ l ∈ lanesIn p s.ports[p].lanes, Emit.laneBlock l (widthBlock 2 m w 0 q) 1 ∈ (s.grantReq p m w q).out ∧
        Emit.laneBlock l (widthBlock 4 m w 0 q) 1 ∈ (s.grantReq p m w q).out := by
  have hlapse := (portLapse_sends (s.modPort p fun x => { x with farWc := some (m, q) }) p).training
  unfold grantReq
  generalize (s.modPort p fun x => { x with farWc := some (m, q) }).portLapse p = t at hlapse
  have hfirst := t.replicate_frame p (widthBlock 2 m w 0 q) 1 .ports (by decide)
  have hsecond := (t.replicate p (widthBlock 2 m w 0 q) 1).replicate_frame p (widthBlock 4 m w 0 q) 1 .ports (by decide)
  have hfar := hlapse.field Port.farWc (fun _ => rfl) p
  have hlanes := hlapse.field Port.lanes (fun _ => rfl) p
  rw [modPort_port] at hfar hlanes
  refine ⟨by rw [hsecond, hfirst, hfar], fun l hl => ⟨?_, ?_⟩⟩
  · refine (replicate_sends _ _ _ _).mem_out (replicate_out ?_ _ _)
    rw [hlanes]
    exact hl
  · refine replicate_out ?_ _ _
    rw [hfirst, hlanes]
    exact hl

/-! ### ACK, NAK and SWITCH -/

/-- A port with its width change changed. -/
def Port.changing (x : Option WidthChange) (q : Port) : Port := { q with wc := x }

theorem rxAck_of_asked {p : PortNo} {x : WidthChange} {s : State} (hwc : s.ports[p].wc = some x) (hw : x.width < 256)
    (hacked : x.acked = false) (hrefused : x.refused = false) (htries : x.tries ≠ 0) :
    rxAck p (widthBlock 2 x.mask x.width 0 x.seq) s = (s.modPort p (Port.changing (some { x with acked := true }))).replicate p
      (widthBlock 4 x.mask x.width 0 x.seq) 1 := by
  unfold rxAck
  rw [hwc]
  dsimp only
  rw [widthBlock_seq x.seq (by decide) hw (by decide), decide_eq_true rfl, hacked, hrefused, decide_eq_true htries]
  rfl

/-- R829: a NAK of the own REQ which is not a collision. -/
theorem rxNak_of_asked {p : PortNo} {x : WidthChange} {r : Nat} {s : State} (hwc : s.ports[p].wc = some x)
    (hw : x.width < 256) (hacked : x.acked = false) (hrefused : x.refused = false) (htries : x.tries ≠ 0) (hr : r < 256)
    (hr4 : r ≠ 4) : rxNak p (widthBlock 3 x.mask x.width r x.seq) s = match x.cause with
      | .failure => s.modPort p (Port.changing (some { x with refused := true }))
      | _ => s.changeFailed p x := by
  have hnum : BitVec.ofNat 8 r ≠ 4#8 := fun h => hr4 (by
    have := congrArg BitVec.toNat h
    rwa [BitVec.toNat_ofNat, Nat.mod_eq_of_lt hr] at this)
  unfold rxNak
  dsimp only
  rw [hwc]
  dsimp only
  rw [widthBlock_seq x.seq (by decide) hw hr, widthBlock_reason x.seq (by decide) hw hr, if_neg, if_neg]
  · rfl
  · exact fun h => hnum h.1
  · rw [hacked, hrefused]
    simp [htries]

/-- R831: with no width change under way and none waiting, none begins. -/
theorem State.nextWidth_of_idle {s : State} {p : PortNo} (hwc : s.ports[p].wc = none) (hcmd : s.ports[p].widthCmd = none) :
    s.nextWidth p = s := by
  unfold nextWidth
  dsimp only
  rw [hwc, hcmd]
  cases s.ports[p].farWc <;> rfl

/-- R829: a PORT_SET_WIDTH which is refused ends without effect. -/
theorem State.changeFailed_command {s : State} {p : PortNo} {x : WidthChange} {i : Nat} (hcause : x.cause = .command i)
    (hcmd : s.ports[p].widthCmd = none) : (s.changeFailed p x).ports[p].wc = none ∧
      (s.changeFailed p x).ports[p].inUse = s.ports[p].inUse ∧ ∀ o ∈ (s.changeFailed p x).outst, o.id ≠ i := by
  have hended : ∃ t : State, s.changeFailed p x = t.nextWidth p ∧ Sends (s.modPort p (Port.changing none)) t ∧
      ∀ o ∈ t.outst, o.id ≠ i := by
    unfold changeFailed
    rw [hcause]
    dsimp only
    refine ⟨_, rfl, ?_, fun o ho => not_mem_complete_outst o ho⟩
    refine Sends.trans ?_ (complete_sends _ _ _ _ _ _ _)
    exact .of_law (by apply portLapseEnds_only; simp)
  obtain ⟨t, ht, hsent, hout⟩ := hended
  have hwc := hsent.training.field Port.wc (fun _ => rfl) p
  have hin := hsent.training.field Port.inUse (fun _ => rfl) p
  have hwait := hsent.training.field Port.widthCmd (fun _ => rfl) p
  rw [modPort_port] at hwc hin hwait
  rw [ht, nextWidth_of_idle hwc (hwait.trans hcmd)]
  exact ⟨hwc, hin, hout⟩

/-- A port whose lanes in use change. -/
def Port.switched (m : BitVec 4) (q : Port) : Port := { q with inUse := m }

theorem State.switchLanes_sends (s : State) (p : PortNo) (m : BitVec 4) :
    Sends (s.modPort p (Port.switched m)) (s.switchLanes p m) :=
  (notePort_sends _ _).trans (.of_law (by apply portLapseEnds_only; simp))

/-- R825: a SWITCH which the far side asked for. -/
theorem rxSwitch_of_far {p : PortNo} {m : BitVec 4} {w : Nat} {q : W16} {s : State} (hw : w < 256)
    (hfar : s.ports[p].farWc = some (m, q)) (hwc : s.ports[p].wc = none) (hcmd : s.ports[p].widthCmd = none) :
    (rxSwitch p (widthBlock 4 m w 0 q) s).ports[p].inUse = m ∧ (rxSwitch p (widthBlock 4 m w 0 q) s).ports[p].farWc = none := by
  have heq : rxSwitch p (widthBlock 4 m w 0 q) s =
      ((s.modPort p fun x => { x with farWc := none }).switchLanes p m).nextWidth p := by
    unfold rxSwitch
    dsimp only
    rw [hfar, widthBlock_seq q (by decide) hw (by decide)]
    exact if_pos rfl
  have hsent := (State.switchLanes_sends (s.modPort p fun x => { x with farWc := none }) p m).training
  have hin := hsent.field Port.inUse (fun _ => rfl) p
  have hfar' := hsent.field Port.farWc (fun _ => rfl) p
  have hwc' := hsent.field Port.wc (fun _ => rfl) p
  have hwait := hsent.field Port.widthCmd (fun _ => rfl) p
  rw [State.modPort_port, State.modPort_port] at hin hfar' hwc' hwait
  rw [heq, State.nextWidth_of_idle (hwc'.trans hwc) (hwait.trans hcmd)]
  exact ⟨hin, hfar'⟩

/-- R825: the module's own change is done. -/
theorem State.changeDone_port {s : State} {p : PortNo} {x : WidthChange} (hcmd : s.ports[p].widthCmd = none) :
    (s.changeDone p x).ports[p].inUse = x.mask ∧ (s.changeDone p x).ports[p].wc = none ∧
      ∀ i, x.cause = .command i → ∀ o ∈ (s.changeDone p x).outst, o.id ≠ i := by
  have hended : ∃ t : State, s.changeDone p x = t.nextWidth p ∧
      PortsKeep Port.service ((s.modPort p (Port.changing none)).modPort p (Port.switched x.mask)) t ∧
      ∀ i, x.cause = .command i → ∀ o ∈ t.outst, o.id ≠ i := by
    have hswitched := (switchLanes_sends (s.modPort p (Port.changing none)) p x.mask).service
    unfold changeDone
    dsimp only
    refine ⟨_, rfl, ?_, ?_⟩
    · cases x.cause with
      | command i => exact hswitched.trans (completeOk_sends _ _ _ _).service
      | fence i l => exact hswitched.trans (endLaneFence_service _ _ _)
      | failure => exact hswitched
    · intro i hi o ho
      rw [hi] at ho
      exact not_mem_complete_outst o ho
  obtain ⟨t, ht, hkept, hout⟩ := hended
  have hwc := hkept.field Port.wc (fun _ => rfl) p
  have hin := hkept.field Port.inUse (fun _ => rfl) p
  have hwait := hkept.field Port.widthCmd (fun _ => rfl) p
  rw [modPort_port, modPort_port] at hwc hin hwait
  rw [ht, nextWidth_of_idle hwc (hwait.trans hcmd)]
  exact ⟨hin, hwc, hout⟩

theorem rxSwitch_of_own {p : PortNo} {m : BitVec 4} {w : Nat} {q : W16} {x : WidthChange} {s : State} (hw : w < 256)
    (hfar : s.ports[p].farWc = none) (hwc : s.ports[p].wc = some x) (hacked : x.acked = true) (hseq : x.seq = q) :
    rxSwitch p (widthBlock 4 m w 0 q) s = s.changeDone p x := by
  unfold rxSwitch
  dsimp only
  rw [hfar, hwc, widthBlock_seq q (by decide) hw (by decide)]
  exact if_pos (by rw [hacked, hseq, Bool.true_and, beq_self_eq_true])

/-! ### Timeouts -/

/-- R830: a REQ is sent again at an instant which comes. -/
theorem State.reach_sendReq (s : State) (p : PortNo) (x : WidthChange) (due : Tick) :
    due ≤ ((s.reach due).sendReq p x).tick ∧
      ((s.reach due).sendReq p x).ports[p].wc =
        some { x with seq := s.ports[p].wcSeq, tries := x.tries + 1, sent := ((s.reach due).sendReq p x).tick } ∧
      (∀ l ∈ lanesIn p s.ports[p].lanes,
        Emit.laneBlock l (widthBlock 1 x.mask x.width 0 s.ports[p].wcSeq) 1 ∈ ((s.reach due).sendReq p x).out) ∧
      ChangesOnly [.tick, .ports, .out] s ((s.reach due).sendReq p x) := by
  have hports : (s.reach due).ports = s.ports := s.reach_frame due .ports (by decide)
  have hle := s.le_reach_tick due
  have hframe : ChangesOnly [.tick, .ports, .out] s ((s.reach due).sendReq p x) := by
    simp (disch := decide) only [sendReq_only, reach_only, changesOnly_self]
  rw [← hports]
  generalize s.reach due = u at hle hframe
  have htick : (u.sendReq p x).tick = u.tick := (show ChangesOnly [.ports, .out] u (u.sendReq p x) by
    simp (disch := decide) only [sendReq_only, changesOnly_self]) .tick (by decide)
  have hwc := (u.sendReq_sends p x).training.field Port.wc (fun _ => rfl) p
  rw [modPort_port] at hwc
  refine ⟨by rw [htick]; exact hle, by rw [htick]; exact hwc, fun l hl => ?_, hframe⟩
  unfold sendReq
  dsimp only
  refine replicate_out ?_ _ _
  rw [modPort_port]
  exact hl

theorem reqTimeout_of_asked {p : PortNo} {x : WidthChange} {s : State} (hst : s.ports[p].st = .active)
    (hwc : s.ports[p].wc = some x) (hacked : x.acked = false) (hrefused : x.refused = false) (htries : x.tries ≠ 0) :
    reqTimeout p s = if x.tries < 3 then (s.reach (x.sent + 1600)).sendReq p x
      else (s.reach (x.sent + 1600)).changeFailed p x := by
  unfold reqTimeout
  rw [hwc]
  dsimp only
  rw [if_neg]
  rw [hst, hacked, hrefused, decide_eq_false htries]
  decide

theorem State.changeFailed_of_failure {x : WidthChange} (h : x.cause = .failure) (s : State) (p : PortNo) :
    s.changeFailed p x = s.enterRetrain p := by
  unfold changeFailed
  rw [h]

theorem narrowTimeout_of_failure {p : PortNo} {x : WidthChange} {s : State} (hst : s.ports[p].st = .active)
    (hwc : s.ports[p].wc = some x) (h : x.cause = .failure) :
    narrowTimeout p s = (s.reach (x.began + 8000)).enterRetrain p := by
  unfold narrowTimeout
  rw [hwc]
  dsimp only
  rw [h]
  exact if_pos (by rw [hst]; rfl)

/-- R801, R821: a port retrains at an instant which comes. -/
theorem State.reach_enterRetrain {s : State} {p : PortNo} (hst : s.ports[p].st = .active) (due : Tick) :
    due ≤ ((s.reach due).enterRetrain p).tick ∧ ((s.reach due).enterRetrain p).ports[p].st = .retrain ∧
      ((s.reach due).enterRetrain p).ports[p].wc = none ∧
      ((s.reach due).enterRetrain p).ports[p].retrains = s.ports[p].retrains + 1 := by
  have hports : (s.reach due).ports = s.ports := s.reach_frame due .ports (by decide)
  have hle := s.le_reach_tick due
  rw [← hports] at hst ⊢
  generalize s.reach due = u at hle hst
  have htick : (u.enterRetrain p).tick = u.tick := (show ChangesOnly (Comp.allBut [.tick]) u (u.enterRetrain p) by
    simp [enterRetrain_only, changesOnly_self]) .tick (by decide)
  obtain ⟨hretrain, -, hcount, hwc⟩ := u.enterRetrain_port p
  exact ⟨by rw [htick]; exact hle, hretrain, hwc.trans (leaveActive_wc hst), hcount⟩

/-- Settles O41. -/
theorem widthChanges : Obligations.WidthChanges := by
  unfold Obligations.WidthChanges
  refine ⟨fun p m w q s hst hw hm hwc => ⟨fun hlanes hmax => ?_, fun hmax => ?_⟩,
    fun p x s hst hw hm hwc hacked hrefused htries => ?_,
    fun p x r s hst hw hm hwc hacked hrefused htries hr hr4 => ⟨fun hcause => ?_, fun i hcause hcmd => ?_⟩,
    fun p m w q s hst hw hm hcmd => ⟨fun hfar hwc => ?_, fun x hfar hwc hacked hseq => ?_⟩,
    fun p x s hst hwc hacked hrefused htries => ⟨fun hfew => ?_, fun hmany hcause => ?_⟩,
    fun p x s hst hwc hcause => ?_, fun p s hst => ?_⟩
  · refine ⟨_, congrArg Host.Outcome.next ((rxWidth_of_legal hst (by decide) hw hm (by decide) (.inr rfl) _).trans ?_),
      s.grantReq_answers p m w q⟩
    rw [rxReq_of_idle q hwc (width_lt hw), State.reqReason_of_good hlanes hmax]
    exact if_neg fun h => h rfl
  · refine ⟨_, _, congrArg Host.Outcome.next ((rxWidth_of_legal hst (by decide) hw hm (by decide) (.inr rfl) _).trans
      ((rxReq_of_idle q hwc (width_lt hw)).trans (if_pos (State.reqReason_of_wide m hmax)))),
      State.reqReason_of_wide m hmax, fun l hl => State.replicate_out hl _ _, s.replicate_frame _ _ _⟩
  · refine ⟨_, congrArg Host.Outcome.next ((rxWidth_of_legal hst (by decide) hw hm (by decide) (.inr rfl) _).trans
      (rxAck_of_asked hwc (width_lt hw) hacked hrefused htries)), ?_, fun l hl => State.replicate_out ?_ _ _, ?_⟩
    · rw [(State.replicate_frame _ _ _ _) .ports (by decide), State.modPort_port]
      rfl
    · rw [State.modPort_port]
      exact hl
    · simp (disch := decide) only [replicate_only, modPort_only, changesOnly_self]
  · refine congrArg Host.Outcome.next ((rxWidth_of_legal hst (by decide) hw hm hr (.inl rfl) _).trans
      ((rxNak_of_asked hwc (width_lt hw) hacked hrefused htries hr hr4).trans ?_))
    rw [hcause]
    rfl
  · have hnak := rxNak_of_asked hwc (width_lt hw) hacked hrefused htries hr hr4
    rw [hcause] at hnak
    exact ⟨_, congrArg Host.Outcome.next ((rxWidth_of_legal hst (by decide) hw hm hr (.inl rfl) _).trans hnak),
      State.changeFailed_command hcause hcmd⟩
  · exact ⟨_, congrArg Host.Outcome.next (rxWidth_of_legal hst (by decide) hw hm (by decide) (.inr rfl) _),
      rxSwitch_of_far (width_lt hw) hfar hwc hcmd⟩
  · exact ⟨_, congrArg Host.Outcome.next ((rxWidth_of_legal hst (by decide) hw hm (by decide) (.inr rfl) _).trans
      (rxSwitch_of_own (width_lt hw) hfar hwc hacked hseq)), State.changeDone_port hcmd⟩
  · exact ⟨_, congrArg Host.Outcome.next ((reqTimeout_of_asked hst hwc hacked hrefused htries).trans (if_pos hfew)),
      s.reach_sendReq p x _⟩
  · obtain ⟨hle, hretrain, -⟩ := State.reach_enterRetrain hst (x.sent + 1600)
    exact ⟨_, congrArg Host.Outcome.next ((reqTimeout_of_asked hst hwc hacked hrefused htries).trans
      ((if_neg (by omega)).trans (State.changeFailed_of_failure hcause _ p))), hle, hretrain⟩
  · exact ⟨_, congrArg Host.Outcome.next (narrowTimeout_of_failure hst hwc hcause),
      State.reach_enterRetrain hst (x.began + 8000)⟩
  · exact congrArg Host.Outcome.next (if_pos (by rw [hst]; rfl))

end Sys2Proof.Machine
end

section
/-!
PROOFS. Items which are received (R843, R845, R855, R866, R888). The statement about them fails in a state whose buffer table
names one buffer twice.
-/

namespace Sys2Proof.Machine

/-- An ACTIVE port whose partner's record is empty: its credits have the module's granularity. -/
def bareActive : Port := { Port.idle 0 with st := .active }

/-- A tensor channel with one credit outstanding and a cap of two buffers. -/
def twiceChan : Chan :=
  { num := 1, port := 0, stratum := 0, partnerCh := 0, kind1 := true, floor := 0, cap := 2, period := 800
    route := { slate := 0xFE, prog := 0, input := 0 }, pending := none, marks := 0, dropped := 0, starved := 0
    starvedClr := 0, lastSeq := 0, maxSeq := none, noFrame := false, strayCounted := false
    rx := { limit := 1, consumed := 0 }, used := 0, starvedSince := none, starvedFrom := 0, starvedSent := false
    waitSince := none, slate := SlateCtx.empty, q := QEnd.initial }

/-- The channel's open frame, to which nothing has come. -/
def twiceFrame : Frame :=
  { chan := 1, seq := 0, stage := .opened, openTick := 0, markTick := 0, payload := []
    route := { slate := 0xFE, prog := 0, input := 0 }, launch := none, runNo := none, repro := false, retry := false
    compat := false, tables := Vector.replicate 8 { image := [], monotone := false }, mprogs := Vector.replicate 8 []
    gen := 0, engine := none, set := 0, setImage := [], ctx := [], out := SlateOut.none, stripe := 0, pieces := []
    cut := 0, done := 0, x0 := [], x2 := [], x3 := [], kernel4 := 0, record := 0, raster := 0, retried := false
    pairSeq := none, sigs := [], wideMsg := [] }

/-- Buffer 0 stands twice in the table: it is the channel's, and it is being zeroed. -/
def twiceListed : State :=
  { State.reset with
    ports := State.reset.ports.set 0 bareActive
    chans := [twiceChan], frames := [twiceFrame]
    geo := { Geode.fresh with bufs := [{ num := 0, state := .allotted, chan := 1, frame := 0, copy := false },
      { num := 0, state := .zeroing, chan := 1, frame := 0, copy := false }] } }

/-- One byte comes for the frame: both entries become FILLING, and the frame is dropped as one which fills its channel. -/
theorem twiceListed_drops : (rxFrameRow 2 0 (frameBytes 2 0 0 0 [0]) (fun h b t => t.acceptPayload 0 h b) twiceListed).frame 1 0 =
    none := by
  decide +kernel

/-- Refutes O42: where the buffer table names a buffer twice, as the channel's and as one which is being zeroed, one byte of
payload makes both entries the frame's, the channel fills its cap of two, and the frame is dropped instead of growing. -/
theorem not_itemsReceived : ¬ Obligations.ItemsReceived := by
  unfold Obligations.ItemsReceived
  rintro ⟨hitems, -⟩
  obtain ⟨t, ht, -, -, -, hbound⟩ := hitems 2 0 0 0 [0] twiceListed (.inr rfl) rfl rfl (by decide) (by decide) (by decide)
    (by decide)
  have hkept := (hbound twiceChan rfl rfl (by decide) (by decide) rfl (by decide +kernel) rfl).1 twiceFrame rfl rfl (.inr rfl)
    (by decide +kernel) (by decide +kernel)
  have hrun : t = rxFrameRow 2 0 (frameBytes 2 0 0 0 [0]) (fun h b t => t.acceptPayload 0 h b) twiceListed :=
    (Host.Outcome.next.inj ht).symm
  have hgone : t.frame twiceChan.num twiceFrame.seq = none := hrun ▸ twiceListed_drops
  rw [hgone] at hkept
  cases hkept

end Sys2Proof.Machine
end

section
/-!
PROOFS. Messages between modules (R955, R635). The statement about them fails for a WIDE message whose frame is served by a
program no variant of which fits: the frame ends instead of becoming ready.
-/

namespace Sys2Proof.Machine

/-- A launch without options. -/
def plainLaunch : Launch :=
  { binary32 := false, modLog2 := 0, vector := 0, ringLog2 := 4, deadline := 0, ringAddr := 0, headAddr := 0, fromTick := 0
    serial := 1 }

/-- A launched program no variant of which fits (R635). -/
def unfitProg : Prog :=
  { stratum := 0, id := 1, pkg := [], header := List.replicate 256 0, arena := 0, loading := none, unloading := []
    variant := none, origins := [], windows := [], reselect := false, unfit := true, launch := some plainLaunch
    ring := ResultRing.empty }

/-- A tensor channel with a WIDE message to act on. -/
def wideChan : Chan :=
  { twiceChan with
    route := { slate := 0xFE, prog := 1, input := 0 }
    q := { QEnd.initial with answers := [{ kind := 2, msgSeq := 0, bytes := [], seq := 1 }] } }

/-- The channel-frame of the program which waits for that message. -/
def wideFrame : Frame := { twiceFrame with stage := .wide, route := { slate := 0xFE, prog := 1, input := 0 }, launch := some 1 }

/-- A WIDE message has come for a frame whose program fits nowhere. -/
def wideUnfit : State := { State.reset with chans := [wideChan], frames := [wideFrame], progs := [unfitProg] }

/-- R635: the frame ends instead of becoming ready. -/
theorem wideUnfit_aborts : ((wideMessage 1 wideUnfit).frame 1 0).map (·.stage) ≠ some (.ready 0) := by
  decide +kernel

/-- Refutes O45: the frame which waits for a WIDE message is not made ready when no variant of its program fits. -/
theorem not_messagesBetweenModules : ¬ Obligations.MessagesBetweenModules := by
  unfold Obligations.MessagesBetweenModules
  rintro ⟨-, -, -, -, hwide, -⟩
  obtain ⟨t, y, g, ht, -, -, hg, hready, -⟩ := (hwide 1 wideChan { kind := 2, msgSeq := 0, bytes := [], seq := 1 } wideUnfit rfl
    rfl).1 wideFrame rfl
  have hrun : t = wideMessage 1 wideUnfit := (Host.Outcome.next.inj ht).symm
  have hframe : (wideMessage 1 wideUnfit).frame 1 0 = some g := hrun ▸ hg
  refine wideUnfit_aborts ?_
  rw [hframe]
  exact congrArg some hready

end Sys2Proof.Machine
end

section
/-!
PROOFS. What ends of the service commands: DRAIN, self-tests and FAULT_LOG_READ (R127, R431, R433, R439, R440, R1031).
-/

namespace Sys2Proof.Machine

/-! ### What every unit keeps -/

/-- The epoch of a unit's own requests, and its DRAIN. -/
def UnitSt.drain (x : UnitSt) : Nat × Option (Nat × Tick) := (x.own, x.draining)

/-- Every unit has the epoch and the DRAIN which it had. -/
def DrainsKept (s t : State) : Prop := ∀ u, (t.unitSt u).drain = (s.unitSt u).drain

theorem DrainsKept.refl (s : State) : DrainsKept s s := fun _ => rfl

theorem DrainsKept.trans {r s t : State} (h : DrainsKept r s) (g : DrainsKept s t) : DrainsKept r t :=
  fun u => (g u).trans (h u)

theorem DrainsKept.of_units {s t : State} (h : t.units = s.units) : DrainsKept s t := fun u => by
  rw [State.unitSt_of_units h]

theorem DrainsKept.of_only {ks : List Comp} {s t : State} (h : ChangesOnly ks s t) (hk : Comp.units ∉ ks) :
    DrainsKept s t := .of_units (h .units hk)

/-- An operation whose law asks for no right to change the units. -/
theorem DrainsKept.of_law {s t : State}
    (h : ChangesOnly (Comp.allBut [.units]) s t ↔ ChangesOnly (Comp.allBut [.units]) s s) : DrainsKept s t :=
  .of_only (h.2 (ChangesOnly.refl _ _)) (by decide)

theorem DrainsKept.forEach {α : Type} {f : α → State → State} (h : ∀ a t, DrainsKept t (f a t)) (l : List α) (s : State) :
    DrainsKept s (s.forEach l f) := by
  unfold State.forEach
  induction l generalizing s with
  | nil => exact .refl s
  | cons a l ih => exact (h a s).trans (ih (f a s))

theorem DrainsKept.ite {s t u : State} {c : Prop} [Decidable c] (h : DrainsKept s t) (g : DrainsKept s u) :
    DrainsKept s (if c then t else u) := by
  split
  · exact h
  · exact g

theorem State.modUnit_drainsKept (s : State) (u : Unit_) {f : UnitSt → UnitSt} (hf : ∀ x, (f x).drain = x.drain) :
    DrainsKept s (s.modUnit u f) := fun v => by
  by_cases h : v = u
  · subst h
    rw [modUnit_unitSt, hf]
  · rw [modUnit_unitSt_ne _ _ h]

/-! ### Ports and lanes which leave service -/

theorem State.complete_drainsKept (s : State) (id : Nat) (st d : W16) (r0 r1 : W64) (data : BitVec 192) :
    DrainsKept s (s.complete id st d r0 r1 data) := .of_only (s.complete_frame id st d r0 r1 data) (by decide)

theorem State.fenceLane_drainsKept (s : State) (l : LaneNo) (cause : BitVec 8) : DrainsKept s (s.fenceLane l cause).1 := by
  have hmark := s.modUnit_drainsKept (.lane l) (f := fun u => { u with fenced := true, passed := false }) fun _ => rfl
  refine hmark.trans (.of_only (ks := Comp.allBut [.units]) ?_ (by decide))
  unfold fenceLane
  simp only [fault_only, Comp.mem_allBut, List.mem_singleton, reduceCtorEq, not_false_eq_true]
  exact ChangesOnly.refl _ _

theorem State.endLaneFence_drainsKept (s : State) (id : Nat) (l : LaneNo) : DrainsKept s (s.endLaneFence id l) := by
  unfold endLaneFence
  refine .ite (complete_drainsKept _ _ _ _ _ _ _) ((s.fenceLane_drainsKept l 0x0A).trans
    (.of_only (ks := Comp.allBut [.units]) ?_ (by decide)))
  simp [completeOk_only, modPort_only, unitFailed_only, changesOnly_self]

theorem State.dropWidthChange_drainsKept (s : State) (p : PortNo) : DrainsKept s (s.dropWidthChange p) := by
  have hport : DrainsKept s (s.modPort p Port.dropWidths) := .of_units rfl
  have hchange : ∀ t : State, DrainsKept t (match s.ports[p].wc with
      | some w => match w.cause with
        | .command id => t.portCommandEnds p id stLinkDown 0
        | .fence id l => t.endLaneFence id l
        | .failure => t
      | none => t) := fun t => by
    split
    · split
      · exact complete_drainsKept _ _ _ _ _ _ _
      · exact endLaneFence_drainsKept _ _ _
      · exact .refl t
    · exact .refl t
  unfold dropWidthChange
  dsimp only
  split
  · exact (hport.trans (hchange _)).trans (complete_drainsKept _ _ _ _ _ _ _)
  · exact hport.trans (hchange _)

theorem State.leaveActive_drainsKept (s : State) (p : PortNo) : DrainsKept s (s.leaveActive p) := by
  by_cases h : s.ports[p].st = .active
  · exact (s.dropWidthChange_drainsKept p).trans (.of_only (leaveActive_of_active h) (by decide))
  · rw [leaveActive_of_not_active h]
    exact .refl s

theorem State.toDisabled_drainsKept (s : State) (p : PortNo) (reason : BitVec 8) :
    DrainsKept s (s.toDisabled p reason) := by
  refine (s.leaveActive_drainsKept p).trans (.of_only (ks := Comp.allBut [.units]) ?_ (by decide))
  unfold toDisabled
  dsimp only
  split <;>
    simp [complete_only, dropPortFrames_only, modPort_only, modLane_only, forEach_only, dropPortMessages_only,
      portLapseEnds_only, notePort_only, reclaimAll_only, settlePool_only, changesOnly_self]

theorem State.laneLost_drainsKept (s : State) (l : LaneNo) : DrainsKept s (s.laneLost l) := by
  have hport : DrainsKept s (s.modPort (portOf l) fun q => { q with lanes := q.lanes &&& ~~~laneBit l }) := .of_units rfl
  exact .ite (hport.trans (toDisabled_drainsKept _ _ _)) hport

/-! ### DRAIN and CUT -/

theorem State.loseExt_drainsKept (s : State) (cs : List ExtNo) : DrainsKept s (s.loseExt cs) :=
  .of_law (by apply loseExt_only <;> simp)

theorem State.loseBank_drainsKept (s : State) (b : BankNo) : DrainsKept s (s.loseBank b) :=
  .of_law (by apply loseBank_only <;> simp)

theorem State.cutCost_drainsKept (s : State) (u : Unit_) : DrainsKept s (s.cutCost u) := by
  cases u with
  | bank b => exact loseBank_drainsKept s b
  | port p =>
    unfold cutCost
    dsimp only
    split
    · exact .refl s
    · exact toDisabled_drainsKept s p _
  | ext c => exact loseExt_drainsKept s [c]
  | ctrl k =>
    refine DrainsKept.trans (.forEach (fun c t => ?_) _ _) (loseExt_drainsKept _ _)
    exact modUnit_drainsKept _ _ fun _ => rfl
  | lane l => exact laneLost_drainsKept s l
  | _ => exact .refl s

theorem State.cutEffects_drainsKept (s : State) (u : Unit_) (emptied : Bool) : DrainsKept s (s.cutEffects u emptied).1 := by
  have hmoved : ∀ e, DrainsKept s (s.moveDeliveries e) := fun e => .of_law (by apply moveDeliveries_only <;> simp)
  have hcost : ∀ t, DrainsKept s t → DrainsKept s (t.cutCost u) := fun t ht => ht.trans (cutCost_drainsKept t u)
  have hended : DrainsKept s (s.endRequests u).1 := .of_law (by apply endRequests_only <;> simp)
  have hdrawn : DrainsKept s ((s.endRequests u).1.draw).2 := hended.trans (.of_units rfl)
  unfold cutEffects
  split
  · cases u with
    | copy e => exact hcost (s.moveDeliveries e) (hmoved e)
    | _ =>
      dsimp only
      exact hcost s (.refl s)
  · cases u with
    | slate e | copy e | lane l => exact hcost _ hended
    | _ =>
      dsimp only
      exact hcost _ hdrawn

/-- R127, R134: the CUT of a unit raises the epoch of its own requests, and begins no DRAIN. -/
theorem State.cutStep_drain (s : State) (u : Unit_) (emptied : Bool) :
    (((s.cutStep u emptied).1).unitSt u).drain = ((s.unitSt u).own + 1, (s.unitSt u).draining) := by
  have hunits : ((s.cutStep u emptied).1).units = ((s.cutEffects u emptied).1.modUnit u fun x => { x with own := x.own + 1 }).units :=
    (show ChangesOnly [.slots] _ _ from (fenceLapseEnds_only _ _ (by decide)).2 (.refl _ _)) .units (by decide)
  have hkept := s.cutEffects_drainsKept u emptied u
  simp only [UnitSt.drain, Prod.mk.injEq] at hkept
  rw [unitSt_of_units hunits, modUnit_unitSt, UnitSt.drain, hkept.1, hkept.2]

theorem drainEnds_of_draining {w : W16} {u : Unit_} {d : Nat × Tick} {s : State} (hu : unitOf w = some u)
    (hd : (s.unitSt u).draining = some d) : drainEnds w s =
      if decide (s.tick - d.2 < 800000) && s.working u then s
      else (((s.modUnit u fun x => { x with draining := none }).cutStep u (decide (s.tick - d.2 < 800000))).1.completeOk d.1
        ((s.modUnit u fun x => { x with draining := none }).cutStep u (decide (s.tick - d.2 < 800000))).2 0) := by
  unfold drainEnds
  rw [hu]
  dsimp only
  rw [hd]

/-! ### Self-tests -/

/-- The completions of the commands which waited for a unit's test. -/
def State.testsComplete (s : State) (ids : List Nat) (r0 : W64) : State := s.forEach ids fun id v => v.completeOk id r0 0

theorem State.testsComplete_frame (s : State) (ids : List Nat) (r0 : W64) :
    ChangesOnly [.waits, .fns, .outst, .out] s (s.testsComplete ids r0) :=
  (forEach_only (fun id v => by apply completeOk_only <;> decide) _ _).2 (.refl _ _)

theorem State.not_mem_testsComplete {ids : List Nat} (s : State) (r0 : W64) :
    ∀ o ∈ (s.testsComplete ids r0).outst, o.id ∉ ids := fun o ho hid =>
  forEach_establishes (P := fun t => ∀ p ∈ t.outst, p.id ≠ o.id) hid (fun _ => not_mem_complete_outst)
    (fun _ v h => (complete_outstShrinks v _ _ _ _ _ _).not_mem h) s o ho rfl

/-- R433, R835: the test of a unit which can take it, and of a lane whose port is `ACTIVE`, answers with its own code. -/
theorem selftestEnds_of_testing {w code : W16} {u : Unit_} {s : State} (hu : unitOf w = some u)
    (hlane : ∀ l, u = .lane l → s.ports[portOf l].st = .active) (ht : (s.unitSt u).testing ≠ []) :
    selftestEnds w code s =
      (s.modUnit u fun y => { y with testing := [], passed := y.passed || (code == 0 && !y.up) }).testsComplete
        (s.unitSt u).testing (if code = 0 then 1 else code.setWidth 64 <<< 16) := by
  unfold selftestEnds
  rw [hu]
  have hne := mt List.isEmpty_iff.1 ht
  cases u with
  | lane l =>
    have haway : (s.ports[portOf l].st != .active) = false := by rw [hlane l rfl]; rfl
    dsimp only
    simp only [haway, if_neg hne, Bool.false_eq_true, if_false]
    rfl
  | _ =>
    dsimp only
    rw [if_neg hne]
    rfl

/-- R833, R835: a lane whose port is not `ACTIVE` fails its test, and is to rejoin. -/
theorem selftestEnds_of_away {w code : W16} {l : LaneNo} {s : State} (hu : unitOf w = some (.lane l))
    (hst : s.ports[portOf l].st ≠ .active) (ht : s.units.lanes[l].testing ≠ []) :
    selftestEnds w code s =
      ((s.modUnit (.lane l) fun y => { y with testing := [] }).modLane l fun y => { y with rejoin := true }).testsComplete
        s.units.lanes[l].testing (0x10000 : W64) := by
  unfold selftestEnds
  rw [hu]
  have hne := mt List.isEmpty_iff.1 ht
  have haway : (s.ports[portOf l].st != .active) = true := bne_iff_ne.2 hst
  dsimp only
  rw [if_neg (show ¬(s.unitSt (.lane l)).testing.isEmpty = true from hne)]
  simp only [haway, if_true]
  have hpassed : (fun y : UnitSt => { y with testing := [], passed := y.passed || ((1 : W16) == 0 && !y.up) }) =
      fun y => { y with testing := [] } := funext fun y => by simp
  exact congrArg (fun f => ((s.modUnit (.lane l) f).modLane l fun y => { y with rejoin := true }).testsComplete
    s.units.lanes[l].testing (0x10000 : W64)) hpassed

/-! ### FAULT_LOG_READ -/

/-- R439, R1037: the oldest FAULT_LOG_READ is outstanding no longer, whichever way it ends; the log stays. -/
theorem logReadEnds_of_cons {x : LogRead} {r : List LogRead} {s : State} (fail : Option W64) (hx : s.logReads = x :: r) :
    ∃ t, logReadEnds fail s = t ∧ ChangesOnly [.waits, .fns, .outst, .out] { s with logReads := r } t ∧
      ∀ o ∈ t.outst, o.id ≠ x.id := by
  have hwrites : ∀ (l : List (W64 × List Byte)) (v : State),
      ChangesOnly [.waits, .fns, .outst, .out] v (v.forEach l fun w u => u.hostWrite x.fn w.1 w.2) := fun l v =>
    (forEach_only (fun _ _ => by apply hostWrite_only <;> decide) _ _).2 (.refl _ _)
  refine ⟨_, rfl, ?_, ?_⟩ <;> unfold logReadEnds <;> rw [hx] <;> dsimp only <;> split
  · exact (hwrites _ _).trans (State.complete_frame _ _ _ _ _ _ _)
  · exact (hwrites _ _).trans (State.complete_frame _ _ _ _ _ _ _)
  · exact State.not_mem_complete_outst
  · exact State.not_mem_complete_outst

/-- Settles O27. -/
theorem serviceCompletions : Obligations.ServiceCompletions := by
  unfold Obligations.ServiceCompletions
  refine ⟨fun w u d s hu hd hw => ?_, fun w u d s hu hd hw hlt => ?_, fun w code u s hu hl ht => ?_,
    fun w code l s hu hst ht => ?_, fun x r fail s hx => ?_⟩
  · have hover : ¬(decide (s.tick - d.2 < 800000) && s.working u) = true := by
      rw [Bool.and_eq_true, decide_eq_true_iff]
      exact fun h => absurd (hw h.2) (Nat.not_le.2 h.1)
    have hcut := (s.modUnit u fun x => { x with draining := none }).cutStep_drain u (decide (s.tick - d.2 < 800000))
    rw [State.modUnit_unitSt] at hcut
    obtain ⟨hown, hdrain⟩ := Prod.mk.inj hcut
    generalize hc : (s.modUnit u fun x => { x with draining := none }).cutStep u (decide (s.tick - d.2 < 800000)) = c
      at hown hdrain
    have hunit : ((c.1.completeOk d.1 c.2 0).unitSt u) = c.1.unitSt u :=
      State.unitSt_of_units (c.1.complete_frame d.1 _ _ _ _ _ .units (by decide)) u
    refine ⟨c.1.completeOk d.1 c.2 0, ?_, ?_, ?_, State.not_mem_complete_outst, rfl⟩
    · exact congrArg Host.Outcome.next ((drainEnds_of_draining hu hd).trans (by rw [if_neg hover, hc]))
    · rw [hunit, hdrain]
    · rw [hunit, hown]
  · have hempty : (decide (s.tick - d.2 < 800000) && s.working u) = true := by rw [hw, decide_eq_true hlt]; rfl
    exact congrArg Host.Outcome.next ((drainEnds_of_draining hu hd).trans (if_pos hempty))
  · have hunit := fun v : State => fun r0 => State.unitSt_of_units
      (v.testsComplete_frame (s.unitSt u).testing r0 .units (by decide)) u
    refine ⟨_, congrArg Host.Outcome.next (selftestEnds_of_testing hu hl ht), ?_, ?_, ?_, ?_,
      State.not_mem_testsComplete _ _⟩ <;> rw [hunit, State.modUnit_unitSt]
  · refine ⟨_, congrArg Host.Outcome.next (selftestEnds_of_away hu hst ht), ?_, ?_, State.not_mem_testsComplete _ _⟩
    · rw [State.testsComplete_frame _ _ _ .units (by decide)]
      exact State.modUnit_unitSt s (.lane l) _
    · rw [State.testsComplete_frame _ _ _ .lanes (by decide)]
      exact State.modLane_lane _ l _
  · obtain ⟨t, ht, hlog, hdone⟩ := logReadEnds_of_cons fail hx
    exact ⟨t, congrArg Host.Outcome.next ht, hlog .logReads (by decide), hlog .faults (by decide), hdone⟩

end Sys2Proof.Machine
end

section
/-!
PROOFS. What frames whose results are decided leave alone: no command becomes outstanding, no frame and no delivery
appears, and of the programs only the result rings change (R416 to R420, R635).
-/

namespace Sys2Proof.Machine

/-! ### Frames which go -/

/-- A frame which is not in the first state is not in the second. -/
def FramesShrink (s t : State) : Prop := ∀ c q, s.frame c q = none → t.frame c q = none

theorem FramesShrink.refl (s : State) : FramesShrink s s := fun _ _ h => h

theorem FramesShrink.trans {r s t : State} (h : FramesShrink r s) (g : FramesShrink s t) : FramesShrink r t :=
  fun c q hr => g c q (h c q hr)

theorem FramesShrink.of_frames {s t : State} (h : t.frames = s.frames) : FramesShrink s t := fun c q hs => by
  unfold State.frame at hs ⊢
  rw [h, hs]

theorem FramesShrink.of_only {ks : List Comp} {s t : State} (h : ChangesOnly ks s t) (hk : Comp.frames ∉ ks) :
    FramesShrink s t := .of_frames (h .frames hk)

theorem FramesShrink.forEach {α : Type} {f : α → State → State} (h : ∀ a t, FramesShrink t (f a t)) (l : List α)
    (s : State) : FramesShrink s (s.forEach l f) := by
  unfold State.forEach
  induction l generalizing s with
  | nil => exact .refl s
  | cons a l ih => exact (h a s).trans (ih (f a s))

theorem State.frame_eq_none {s : State} {c q : Nat} :
    s.frame c q = none ↔ ∀ x ∈ s.frames, ¬(x.chan = c ∧ x.seq = q) := by
  simp only [frame, List.find?_eq_none, Bool.and_eq_true, decide_eq_true_eq]

theorem State.delFrame_framesShrink (s : State) (c q : Nat) : FramesShrink s (s.delFrame c q) := fun _ _ h =>
  frame_eq_none.2 fun x hx => frame_eq_none.1 h x (List.mem_filter.1 hx).1

/-- A frame which was deleted is in the state no longer. -/
theorem State.delFrame_frame (s : State) (c q : Nat) : (s.delFrame c q).frame c q = none :=
  frame_eq_none.2 fun x hx hcq => by simpa [hcq] using (List.mem_filter.1 hx).2

theorem State.modFrame_framesShrink (s : State) (c q : Nat) {f : Frame → Frame}
    (hf : ∀ x : Frame, x.chan = c → x.seq = q → (f x).chan = c ∧ (f x).seq = q) : FramesShrink s (s.modFrame c q f) := by
  refine fun d r h => frame_eq_none.2 fun y hy => ?_
  obtain ⟨x, hx, rfl⟩ := List.mem_map.1 hy
  have hnot := frame_eq_none.1 h x hx
  split
  next hcq =>
    obtain ⟨hc, hq⟩ := hf x hcq.1 hcq.2
    rw [hc, hq, ← hcq.1, ← hcq.2]
    exact hnot
  next => exact hnot

theorem State.dropFrame_framesShrink (s : State) (c q : Nat) : FramesShrink s (s.dropFrame c q) := by
  refine FramesShrink.trans (.of_only (ks := Comp.allBut [.frames]) ?_ (by decide)) (delFrame_framesShrink _ _ _)
  simp [countDrop_only, releaseFrame_only, changesOnly_self]

theorem State.dropOpen_framesShrink (s : State) (c : Nat) : FramesShrink s (s.dropOpen c) := by
  unfold dropOpen
  split
  · exact .refl s
  · exact (dropFrame_framesShrink s c _).trans (.of_frames rfl)

theorem State.retireFrame_framesShrink (s : State) (c q : Nat) : FramesShrink s (s.retireFrame c q) := by
  unfold retireFrame
  split
  · exact modFrame_framesShrink s c q fun x hc hq => ⟨hc, hq⟩
  · refine FramesShrink.trans (.of_only (ks := Comp.allBut [.frames]) ?_ (by decide)) (delFrame_framesShrink _ _ _)
    simp [releaseFrame_only, changesOnly_self]

/-! ### The relation -/

/-- A program without its result ring. -/
def Prog.unringed (p : Prog) : Prog := { p with ring := ResultRing.empty }

/-- Between two states no command became outstanding, no frame and no delivery appeared, and the programs changed only in
their result rings. -/
structure Resolves (s t : State) : Prop where
  outst : OutstShrinks s t
  frames : FramesShrink s t
  deliveries : ∀ d ∈ t.deliveries, d ∈ s.deliveries
  progs : t.progs.map Prog.unringed = s.progs.map Prog.unringed

theorem Resolves.refl (s : State) : Resolves s s := ⟨.refl s, .refl s, fun _ h => h, rfl⟩

theorem Resolves.trans {r s t : State} (h : Resolves r s) (g : Resolves s t) : Resolves r t :=
  ⟨h.outst.trans g.outst, h.frames.trans g.frames, fun d hd => h.deliveries d (g.deliveries d hd), g.progs.trans h.progs⟩

theorem Resolves.of_eq {s t : State} (ho : OutstShrinks s t) (hf : FramesShrink s t) (hd : t.deliveries = s.deliveries)
    (hp : t.progs = s.progs) : Resolves s t := ⟨ho, hf, fun _ h => hd ▸ h, by rw [hp]⟩

/-- An operation whose law asks for no right to change what the relation speaks of. -/
theorem Resolves.of_law {s t : State}
    (h : ChangesOnly (Comp.allBut [.outst, .frames, .deliveries, .progs]) s t ↔
      ChangesOnly (Comp.allBut [.outst, .frames, .deliveries, .progs]) s s) : Resolves s t := by
  have hc := h.2 (ChangesOnly.refl _ _)
  exact .of_eq (.of_only hc (by decide)) (.of_only hc (by decide)) (hc .deliveries (by decide)) (hc .progs (by decide))

/-- An operation whose law asks for the right to change the frames only. -/
theorem Resolves.of_frames {s t : State} (hf : FramesShrink s t)
    (h : ChangesOnly (Comp.allBut [.outst, .deliveries, .progs]) s t ↔
      ChangesOnly (Comp.allBut [.outst, .deliveries, .progs]) s s) : Resolves s t := by
  have hc := h.2 (ChangesOnly.refl _ _)
  exact .of_eq (.of_only hc (by decide)) hf (hc .deliveries (by decide)) (hc .progs (by decide))

theorem Resolves.forEach {α : Type} {f : α → State → State} (h : ∀ a t, Resolves t (f a t)) (l : List α) (s : State) :
    Resolves s (s.forEach l f) := by
  unfold State.forEach
  induction l generalizing s with
  | nil => exact .refl s
  | cons a l ih => exact (h a s).trans (ih (f a s))

theorem Resolves.ite {s t u : State} {c : Prop} [Decidable c] (h : Resolves s t) (g : Resolves s u) :
    Resolves s (if c then t else u) := by
  split
  · exact h
  · exact g

/-- A program found under a number is found under it afterwards, with another ring at most. -/
theorem Resolves.prog {s t : State} (h : Resolves s t) (n : FnNo) (pid : Nat) :
    (t.prog n pid).map Prog.unringed = (s.prog n pid).map Prog.unringed := by
  have hfind : ∀ l : List Prog, (l.find? fun p => p.stratum == n && p.id == pid).map Prog.unringed =
      (l.map Prog.unringed).find? fun p => p.stratum == n && p.id == pid := fun l => by
    rw [List.find?_map]
    rfl
  rw [State.prog, State.prog, hfind, hfind, h.progs]

/-! ### Shared operations -/

theorem State.modLock_resolves (s : State) (f : Lock → Lock) : Resolves s (s.modLock f) :=
  .of_eq (.of_eq rfl) (.of_frames rfl) rfl rfl

theorem State.complete_resolves (s : State) (id : Nat) (st d : W16) (r0 r1 : W64) (data : BitVec 192) :
    Resolves s (s.complete id st d r0 r1 data) := by
  have h := s.complete_frame id st d r0 r1 data
  exact .of_eq (complete_outstShrinks s id st d r0 r1 data) (.of_only h (by decide)) (h .deliveries (by decide))
    (h .progs (by decide))

theorem State.dropFrame_resolves (s : State) (c q : Nat) : Resolves s (s.dropFrame c q) :=
  .of_frames (dropFrame_framesShrink s c q) (by apply dropFrame_only <;> simp)

theorem State.dropOpen_resolves (s : State) (c : Nat) : Resolves s (s.dropOpen c) :=
  .of_frames (dropOpen_framesShrink s c) (by apply dropOpen_only <;> simp)

theorem State.deleted_resolves (s : State) (c q : Nat) : Resolves s ((s.releaseFrame c q false).delFrame c q) :=
  Resolves.trans (.of_law (by apply releaseFrame_only; simp)) (.of_frames (delFrame_framesShrink _ c q) (by apply delFrame_only; simp))

theorem State.settlePool_resolves (s : State) : Resolves s s.settlePool := .of_law (by apply settlePool_only <;> simp)

theorem State.modProg_resolves (s : State) (n : FnNo) (pid : Nat) {f : Prog → Prog}
    (hf : ∀ p, (f p).unringed = p.unringed) : Resolves s (s.modProg n pid f) := by
  refine ⟨.of_eq rfl, .of_frames rfl, fun _ h => h, ?_⟩
  show (s.progs.map _).map Prog.unringed = _
  rw [List.map_map]
  refine List.map_congr_left fun p _ => ?_
  show (if p.stratum = n ∧ p.id = pid then f p else p).unringed = p.unringed
  split
  · exact hf p
  · rfl

/-- R395: a channel which is unbound takes its frames and its deliveries along. -/
theorem State.unbindNow_resolves (s : State) (c : Nat) : Resolves s (s.unbindNow c) := by
  unfold unbindNow
  split
  · exact .refl s
  · dsimp only
    refine Resolves.trans ?_ (settlePool_resolves _)
    refine Resolves.trans ?_ (.of_law (by apply reclaimAll_only; simp))
    refine Resolves.trans ?_ (modLock_resolves _ _)
    refine Resolves.trans ?_ (.of_law (by apply releaseParts_only; simp))
    have hless : ∀ (u : State) cs rs lo p, Resolves u { u with
        chans := cs, runs := rs, loaded := lo, deliveries := u.deliveries.filter p } := fun u cs rs lo p =>
      ⟨.of_eq rfl, .of_frames rfl, fun d hd => (List.mem_filter.1 hd).1, rfl⟩
    refine Resolves.trans ?_ (hless _ _ _ _ _)
    refine Resolves.trans ?_ (.of_law (forEach_only (fun b u => by apply zeroBuf_only; simp) _ _))
    have hdrop : Resolves s ((s.dropOpen c).forEach ((s.dropOpen c).frames.filter fun f => f.chan == c)
        fun f u => u.dropFrame c f.seq) :=
      (s.dropOpen_resolves c).trans (.forEach (fun (f : Frame) u => u.dropFrame_resolves c f.seq) _ _)
    generalize (s.dropOpen c).forEach _ _ = t at hdrop ⊢
    have hport : ∀ p f, Resolves s (t.modPort p f) := fun p f => hdrop.trans (.of_law (by apply modPort_only; simp))
    exact .ite ((hport _ _).trans (.of_law (by apply emit_only; simp))) (hport _ _)

theorem State.endUnbind_resolves (s : State) (c : Nat) : Resolves s (s.endUnbind c) := by
  unfold endUnbind
  split
  · exact .refl s
  · split
    · exact .refl s
    · refine .ite (Resolves.trans ?_ (complete_resolves _ _ _ _ _ _ _)) (.refl s)
      exact (dropOpen_resolves s c).trans (unbindNow_resolves _ c)

theorem State.endUnbinds_resolves (s : State) : Resolves s s.endUnbinds := .forEach (fun c t => t.endUnbind_resolves c) _ _

/-! ### LOCKSTEP frames -/

theorem State.releaseForwarded_resolves (s : State) : Resolves s s.releaseForwarded :=
  .forEach (fun (f : Frame) t => .ite (.refl t) (t.deleted_resolves f.chan f.seq)) _ _

theorem State.pumpLock_resolves (s : State) : Resolves s s.pumpLock := by
  have hflush : ∀ t : State, Resolves t (t.flushLock t.lock.sendq.length) := fun t => .of_law (by apply flushLock_only <;> simp)
  exact (((hflush s).trans (releaseForwarded_resolves _)).trans (settlePool_resolves _)).trans (endUnbinds_resolves _)

theorem State.lockSend_resolves (s : State) (item : Option (Nat × Nat)) (b : List Byte) : Resolves s (s.lockSend item b) :=
  Resolves.trans (modLock_resolves _ _) (pumpLock_resolves _)

theorem State.compareDigests_resolves (s : State) (mine peer : Digest) : Resolves s (s.compareDigests mine peer) := by
  have hlock : ∀ f g : Lock → Lock, Resolves s ((s.modLock f).modLock g) := fun f g =>
    (modLock_resolves _ _).trans (modLock_resolves _ _)
  unfold compareDigests
  dsimp only
  refine .ite (hlock _ _) (.ite ((hlock _ _).trans (modLock_resolves _ _)) ?_)
  split
  · exact ((hlock _ _).trans (modLock_resolves _ _)).trans (.of_law (by apply located_only <;> simp))
  · exact (((hlock _ _).trans (modLock_resolves _ _)).trans (modLock_resolves _ _)).trans (lockSend_resolves _ _ _)

theorem State.formDigest_resolves (s : State) (f : Frame) (prog : Nat) (outside aborted : Bool) (b : List Byte) :
    Resolves s (s.formDigest f prog outside aborted b) := by
  unfold formDigest
  split
  · exact .refl s
  · refine .ite (.refl s) ?_
    dsimp only
    split
    · exact ((lockSend_resolves _ _ _).trans (modLock_resolves _ _)).trans (compareDigests_resolves _ _ _)
    · exact .ite ((lockSend_resolves _ _ _).trans (modLock_resolves _ _))
        ((lockSend_resolves _ _ _).trans (modLock_resolves _ _))

/-! ### Frame results -/

theorem State.announce_resolves (s : State) (n : FnNo) (pid : Nat) : Resolves s (s.announce n pid) := by
  unfold announce
  split
  · exact .refl s
  · split
    · exact .refl s
    · refine .ite (.refl s) (.ite (Resolves.trans ?_ (.of_law (by apply sendMsix_only <;> simp))) (.refl s))
      exact modProg_resolves _ _ _ fun _ => rfl

theorem State.count_resolves (s : State) (n : FnNo) (i : Fin 14) (k : Nat) : Resolves s (s.count n i k) :=
  .of_law (by apply count_only; simp)

theorem State.hostWrite_resolves (s : State) (n : FnNo) (a : W64) (b : List Byte) : Resolves s (s.hostWrite n a b) :=
  .of_law (by apply hostWrite_only <;> simp)

theorem State.endRun_resolves (s : State) (c q : Nat) : Resolves s (s.endRun c q) := .of_law (by apply endRun_only <;> simp)

theorem State.writeResult_resolves (s : State) (n : FnNo) (p : Prog) (l : Launch) (c q : Nat) (b : List Byte) :
    Resolves s (s.writeResult n p l c q b) := by
  unfold writeResult
  split
  · exact .refl s
  · dsimp only
    have hend : ∀ t : State, Resolves t ((t.endRun c q).retireFrame c q) := fun t =>
      (endRun_resolves t c q).trans
        (.of_frames (retireFrame_framesShrink _ c q) (by apply retireFrame_only <;> simp))
    have hcounted : ∀ t : State, Resolves s t → Resolves s ((t.announce n p.id).count n 0 1) := fun t ht =>
      (ht.trans (announce_resolves _ _ _)).trans (count_resolves _ _ _ _)
    refine Resolves.trans ?_ (hend _)
    refine Resolves.trans ?_ (formDigest_resolves _ _ _ _ _ _)
    refine Resolves.trans ?_ (.of_law (by apply modChan_only; simp))
    refine .ite (Resolves.trans ?_ (count_resolves _ _ _ _)) ?_ <;>
      refine hcounted _ (Resolves.trans ?_ (hostWrite_resolves _ _ _ _)) <;>
      exact modProg_resolves _ _ _ fun _ => rfl

theorem State.flushRing_resolves (n : FnNo) (pid k : Nat) (s : State) : Resolves s (s.flushRing n pid k) := by
  induction k generalizing s with
  | zero => exact .refl s
  | succ k ih =>
    unfold flushRing
    split
    · exact .refl s
    · split
      · refine .ite (Resolves.trans (Resolves.trans ?_ (writeResult_resolves _ _ _ _ _ _ _)) (ih _)) (.refl s)
        exact modProg_resolves _ _ _ fun _ => rfl
      · exact .refl s

theorem State.pumpRing_resolves (s : State) (n : FnNo) (pid : Nat) : Resolves s (s.pumpRing n pid) := by
  unfold pumpRing
  split
  · exact .refl s
  · exact ((flushRing_resolves _ _ _ _).trans (settlePool_resolves _)).trans (endUnbinds_resolves _)

/-- R417: a frame whose result is decided. -/
theorem State.finishFrame_resolves (s : State) (c q : Nat) (aborted : Bool) (b : List Byte) :
    Resolves s (s.finishFrame c q aborted b) := by
  have hdropped : Resolves s (((s.endRun c q).releaseFrame c q false).delFrame c q) :=
    (endRun_resolves s c q).trans (deleted_resolves _ c q)
  unfold finishFrame
  split
  · exact .refl s
  · split
    · exact hdropped
    · split
      · exact hdropped
      · refine .ite (.refl s) ?_
        dsimp only
        refine Resolves.trans (Resolves.trans (Resolves.trans (.of_law ?_) (.of_frames (modFrame_framesShrink _ c q ?_) ?_))
          (modProg_resolves _ _ _ ?_)) (pumpRing_resolves _ _ _)
        rotate_left 1
        · exact fun x hc hq => ⟨hc, hq⟩
        · apply modFrame_only
          simp
        · exact fun _ => rfl
        · simp [ite_only, count_only]

theorem State.abortFrame_resolves (s : State) (c q : Nat) : Resolves s (s.abortFrame c q) := by
  have hraster : Resolves s (s.dropRaster c q) := by
    unfold dropRaster
    have hless : ∀ p, Resolves s { s with deliveries := s.deliveries.filter p } := fun p =>
      ⟨.of_eq rfl, .of_frames rfl, fun d hd => (List.mem_filter.1 hd).1, rfl⟩
    refine .ite ((hless _).trans (.of_frames (modFrame_framesShrink _ c q ?_) ?_)) (.refl s)
    · exact fun x hc hq => ⟨hc, hq⟩
    · apply modFrame_only
      simp
  unfold abortFrame
  split
  · exact (Resolves.ite hraster (.refl s)).trans (finishFrame_resolves _ _ _ _ _)
  · exact .refl s

theorem State.abortReady_resolves (s : State) (p : Prog) : Resolves s (s.abortReady p) := by
  unfold abortReady
  split
  · exact .refl s
  · exact .forEach (f := fun (f : Frame) t => t.abortFrame f.chan f.seq) (fun f t => t.abortFrame_resolves f.chan f.seq) _ _

end Sys2Proof.Machine
end

section
/-!
PROOFS. Programs which are loaded and unloaded (R408 to R410, R628, R634).
-/

namespace Sys2Proof.Machine

/-! ### The programs of a stratum -/

theorem State.dropProg_prog (s : State) (n : FnNo) (pid : Nat) : (s.dropProg n pid).prog n pid = none := by
  refine List.find?_eq_none.2 fun p hp h => ?_
  have hkeep := (List.mem_filter.1 hp).2
  rw [h] at hkeep
  exact Bool.false_ne_true hkeep

theorem State.dropProg_prog_ne (s : State) {n m : FnNo} {pid k : Nat} (h : m ≠ n ∨ k ≠ pid) :
    (s.dropProg n pid).prog m k = s.prog m k := by
  unfold prog dropProg
  rw [List.find?_filter]
  congr 1
  funext p
  by_cases hp : p.stratum = m ∧ p.id = k
  · obtain ⟨rfl, rfl⟩ := hp
    rcases h with h | h <;> simp [h]
  · have hother : (p.stratum == m && p.id == k) = false := by
      simpa using hp
    simp [hother]

/-- What a repeated selection leaves of a program (R634). -/
def Prog.package (p : Prog) : (FnNo × Nat) × List Byte × Option Nat × Nat × List Nat :=
  ((p.stratum, p.id), p.pkg, p.loading, p.arena, p.unloading)

/-- Every program has the package which it had, and is loaded and unloaded by the same commands. -/
def PackagesKept (s t : State) : Prop := t.progs.map Prog.package = s.progs.map Prog.package

theorem PackagesKept.trans {r s t : State} (h : PackagesKept r s) (g : PackagesKept s t) : PackagesKept r t :=
  Eq.trans g h

theorem PackagesKept.of_only {ks : List Comp} {s t : State} (h : ChangesOnly ks s t) (hk : Comp.progs ∉ ks) :
    PackagesKept s t := congrArg (List.map Prog.package) (h .progs hk)

theorem PackagesKept.of_resolves {s t : State} (h : Resolves s t) : PackagesKept s t := by
  have hpackage : Prog.package = Prog.package ∘ Prog.unringed := rfl
  unfold PackagesKept
  rw [hpackage, ← List.map_map, ← List.map_map, h.progs]

theorem State.modProg_packagesKept (s : State) (n : FnNo) (pid : Nat) {f : Prog → Prog}
    (hf : ∀ p, (f p).package = p.package) : PackagesKept s (s.modProg n pid f) := by
  show (s.progs.map _).map Prog.package = _
  rw [List.map_map]
  refine List.map_congr_left fun p _ => ?_
  show (if p.stratum = n ∧ p.id = pid then f p else p).package = p.package
  split
  · exact hf p
  · rfl

theorem PackagesKept.prog {s t : State} (h : PackagesKept s t) (n : FnNo) (pid : Nat) :
    (t.prog n pid).map Prog.package = (s.prog n pid).map Prog.package := by
  have hfind : ∀ l : List Prog, (l.find? fun p => p.stratum == n && p.id == pid).map Prog.package =
      (l.map Prog.package).find? fun p => p.1.1 == n && p.1.2 == pid := fun l => by
    rw [List.find?_map]
    rfl
  rw [State.prog, State.prog, hfind, hfind, h]

/-- Between two states the packages stay, and no command became outstanding. -/
structure Reselects (s t : State) : Prop where
  packages : PackagesKept s t
  outst : OutstShrinks s t

theorem Reselects.trans {r s t : State} (h : Reselects r s) (g : Reselects s t) : Reselects r t :=
  ⟨h.packages.trans g.packages, h.outst.trans g.outst⟩

theorem Reselects.ite {s t u : State} {c : Prop} [Decidable c] (h : Reselects s t) (g : Reselects s u) :
    Reselects s (if c then t else u) := by
  split
  · exact h
  · exact g

theorem State.abortReady_reselects (s : State) (p : Prog) : Reselects s (s.abortReady p) :=
  ⟨.of_resolves (abortReady_resolves s p), (abortReady_resolves s p).outst⟩

theorem State.reproBreak_reselects (s : State) (cause : W64) (n : FnNo) : Reselects s (s.reproBreak cause n) := by
  have h : ChangesOnly [.fns, .out, .repro, .waits] s (s.reproBreak cause n) :=
    (by apply reproBreak_only <;> decide : _ ↔ ChangesOnly _ s s).2 (.refl _ _)
  exact ⟨.of_only h (by decide), .of_only h (by decide)⟩

/-- R634: the selection is repeated; the programs stay loaded with their packages. -/
theorem State.reselectProg_reselects (s : State) (n : FnNo) (pid : Nat) : Reselects s (s.reselectProg n pid) := by
  have hmod : ∀ f : Prog → Prog, (∀ p, (f p).package = p.package) → Reselects s (s.modProg n pid f) := fun f hf =>
    ⟨s.modProg_packagesKept n pid hf, .of_eq rfl⟩
  unfold reselectProg
  split
  · exact ⟨rfl, .refl s⟩
  · dsimp only
    refine .ite (hmod _ fun _ => rfl) (.ite (Reselects.trans ?_ (abortReady_reselects _ _)) ?_) <;>
      refine .ite (hmod _ fun _ => rfl) (.ite (hmod _ fun _ => rfl) (Reselects.trans ?_ (reproBreak_reselects _ _ _))) <;>
      exact hmod _ fun _ => rfl

/-! ### The package check -/

/-- R408: the package of which the host gives the bytes behind the header. -/
def Prog.packageRead (p : Prog) (host : List Byte) : List Byte :=
  p.header ++ ((host ++ List.replicate (hdrTotal p.header) 0).take (hdrTotal p.header)).drop 256

/-- R409: a read which failed. -/
theorem packageCheck_of_fail {n : FnNo} {pid id : Nat} {p : Prog} {s : State} (host : List Byte) (a : W64)
    (hp : s.prog n pid = some p) (hl : p.loading = some id) (hm : s.fns[n].busMaster = true) :
    packageCheck n pid host (some a) s = (s.dropProg n pid).complete id stOutOfRange 8 0 0 (a.setWidth 192) := by
  unfold packageCheck
  simp only [hp, hl, hm, Bool.not_true, Bool.false_eq_true, if_false]

/-- R628: a package which fails its checks. -/
theorem packageCheck_of_fault {n : FnNo} {pid id o : Nat} {p : Prog} {host : List Byte} {s : State}
    (hp : s.prog n pid = some p) (hl : p.loading = some id) (hm : s.fns[n].busMaster = true)
    (hf : packageFault (p.packageRead host) s.micaVersion = some o) :
    packageCheck n pid host none s = (s.dropProg n pid).complete id stImageInvalid 0 0 0 (dataInvalid o) := by
  unfold Prog.packageRead at hf
  unfold packageCheck
  simp only [hp, hl, hm, hf, Bool.not_true, Bool.false_eq_true, if_false]

/-- R408: a package which passes its checks, to an arena which can be written. -/
theorem packageCheck_of_passed {n : FnNo} {pid id : Nat} {p : Prog} {host : List Byte} {s : State}
    (hp : s.prog n pid = some p) (hl : p.loading = some id) (hm : s.fns[n].busMaster = true)
    (hf : packageFault (p.packageRead host) s.micaVersion = none)
    (hr : s.residentError n p.arena (hdrResident p.header) = none) :
    packageCheck n pid host none s =
      (((s.placePackage n p.arena (p.packageRead host) (hdrResident p.header / granuleBytes)).modProg n pid fun x => { x with
          pkg := p.packageRead host, loading := none }).completeOk id
        (BitVec.ofNat 64 (p.id + 2 ^ 8 * p.variant.getD 0 + 2 ^ 16 * (variantOf p.header (p.variant.getD 0)).clusters))
        (BitVec.ofNat 64 (dirVCount (p.packageRead host) (p.variant.getD 0)))).reselectProg n pid := by
  unfold Prog.packageRead at hf
  unfold packageCheck
  simp only [hp, hl, hm, hf, hr, Bool.not_true, Bool.false_eq_true, if_false]
  rfl

/-- R408, R634: a program which is loaded keeps its package through the repeated selection. -/
theorem State.loaded_prog {s : State} {n : FnNo} {pid : Nat} {p : Prog} (pkg : List Byte) (id : Nat) (r0 r1 : W64)
    (hp : s.prog n pid = some p) :
    ∃ x, (((s.modProg n pid fun x => { x with pkg, loading := none }).completeOk id r0 r1).reselectProg n pid).prog n pid =
        some x ∧ x.pkg = pkg ∧ x.loading = none ∧ x.arena = p.arena ∧ x.unloading = p.unloading ∧
      ∀ o ∈ (((s.modProg n pid fun x => { x with pkg, loading := none }).completeOk id r0 r1).reselectProg n pid).outst,
        o.id ≠ id := by
  obtain ⟨hkept, houtst⟩ := reselectProg_reselects
    ((s.modProg n pid fun x => { x with pkg, loading := none }).completeOk id r0 r1) n pid
  have hprog := hkept.prog n pid
  rw [prog_of_progs (completeOk_frame _ id r0 r1 .progs (by decide)),
    prog_modProg (f := fun x => { x with pkg, loading := none }) (fun _ => ⟨rfl, rfl⟩) hp, Option.map_some,
    Option.map_eq_some_iff] at hprog
  obtain ⟨x, hx, hpackage⟩ := hprog
  simp only [Prog.package, Prod.mk.injEq] at hpackage
  obtain ⟨-, hpkg, hload, harena, hunload⟩ := hpackage
  exact ⟨x, hx, hpkg, hload, harena, hunload, houtst.not_mem not_mem_complete_outst⟩

/-! ### Unloading -/

theorem State.testsComplete_outstShrinks (s : State) (ids : List Nat) (r0 : W64) :
    OutstShrinks s (s.testsComplete ids r0) :=
  .forEach (f := fun id v => v.completeOk id r0 0) (fun _ v => complete_outstShrinks v _ _ _ _ _ _) _ _

/-- R410: a channel which named the program discards. -/
def Chan.unroute (n : FnNo) (pid : Nat) (c : Chan) : Chan :=
  if c.stratum = n ∧ c.route.prog = pid then { c with route := Route.discard } else c

/-- R410, R634: a launch which waits for its tick is of no program any more. -/
def Scheduled.unprogram (n : FnNo) (pid : Nat) (d : Scheduled) : Scheduled :=
  if d.stratum = n ∧ d.prog = pid then { d with prog := 0 } else d

/-- R410: the program goes, and what named it names none. -/
def State.unloaded (s : State) (n : FnNo) (pid : Nat) (p : Prog) : State :=
  let t := (s.zeroProg p).dropProg n pid
  { t with chans := t.chans.map (Chan.unroute n pid), scheduled := t.scheduled.map (Scheduled.unprogram n pid) }

theorem unloadDone_of_idle {n : FnNo} {pid id : Nat} {more : List Nat} {p : Prog} {s : State} (hp : s.prog n pid = some p)
    (hu : p.unloading = id :: more) (hf : ∀ l, p.launch = some l → ∀ f ∈ s.frames, f.owes l.serial = false) :
    ∃ k, unloadDone n pid s = ((s.unloaded n pid p).completeOk id k 0).testsComplete more 0 := by
  have hroute : (fun c : Chan => if (c.stratum == n && c.route.prog == pid) = true then { c with route := Route.discard }
      else c) = Chan.unroute n pid := funext fun c => by simp [Chan.unroute]
  refine ⟨BitVec.ofNat 64 (s.chans.filter fun c => c.stratum == n && c.route.prog == pid).length, ?_⟩
  unfold unloadDone
  rw [hp]
  dsimp only
  rw [hu]
  dsimp only
  split
  · next l hl =>
    have hfree : ¬(s.frames.any fun f => f.owes l.serial) = true := fun hbusy => by
      obtain ⟨f, hm, ho⟩ := List.any_eq_true.1 hbusy
      exact absurd ho (by rw [hf l hl f hm]; exact Bool.false_ne_true)
    rw [if_neg hfree, hroute]
    rfl
  · rw [if_neg Bool.false_ne_true, hroute]
    rfl

theorem unloadDone_of_owed {n : FnNo} {pid : Nat} {p : Prog} {l : Launch} {f : Frame} {s : State}
    (hp : s.prog n pid = some p) (hl : p.launch = some l) (hf : f ∈ s.frames) (ho : f.owes l.serial = true) :
    unloadDone n pid s = s := by
  have hbusy : (s.frames.any fun f => f.owes l.serial) = true := List.any_eq_true.2 ⟨f, hf, ho⟩
  unfold unloadDone
  rw [hp]
  dsimp only
  split
  · rfl
  · simp only [hl, hbusy, if_true]

/-- Settles O24. -/
theorem programLoading : Obligations.ProgramLoading := by
  unfold Obligations.ProgramLoading
  refine ⟨fun n pid id p host pkg s hp hl hm hpkg hf hr => ?_, fun n pid id p host a s hp hl hm => ?_,
    fun n pid id o p host s hp hl hm hf => ?_, fun n pid host fail s hm => ?_,
    fun n pid id more p s hp hu _ hf => ?_, fun n pid p l f s hp hl hf ho => ?_⟩
  · subst hpkg
    have hplaced : (s.placePackage n p.arena (p.packageRead host) (hdrResident p.header / granuleBytes)).prog n pid =
        some p := by
      have h : ChangesOnly [.ext, .geo, .scratch] s
          (s.placePackage n p.arena (p.packageRead host) (hdrResident p.header / granuleBytes)) :=
        (by apply placePackage_only <;> decide : _ ↔ ChangesOnly _ s s).2 (.refl _ _)
      rw [State.prog_of_progs (h .progs (by decide)), hp]
    obtain ⟨x, hx, hpkg, hload, harena, hunload, hdone⟩ := State.loaded_prog (p.packageRead host) id
      (BitVec.ofNat 64 (p.id + 2 ^ 8 * p.variant.getD 0 + 2 ^ 16 * (variantOf p.header (p.variant.getD 0)).clusters))
      (BitVec.ofNat 64 (dirVCount (p.packageRead host) (p.variant.getD 0))) hplaced
    exact ⟨_, x, congrArg Host.Outcome.next (packageCheck_of_passed hp hl hm hf hr), hx, hpkg, hload, harena, hunload,
      hdone, rfl⟩
  · refine ⟨_, congrArg Host.Outcome.next (packageCheck_of_fail host a hp hl hm), ?_, State.not_mem_complete_outst, rfl⟩
    rw [State.prog_of_progs (State.complete_frame _ _ _ _ _ _ _ .progs (by decide)), State.dropProg_prog]
  · refine ⟨_, congrArg Host.Outcome.next (packageCheck_of_fault hp hl hm hf), ?_, State.not_mem_complete_outst, rfl⟩
    rw [State.prog_of_progs (State.complete_frame _ _ _ _ _ _ _ .progs (by decide)), State.dropProg_prog]
  · refine congrArg Host.Outcome.next ?_
    unfold packageCheck
    split
    · rfl
    · split
      · rfl
      · simp only [hm, Bool.not_false, if_true]
  · obtain ⟨k, hk⟩ := unloadDone_of_idle hp hu hf
    have hframe : ChangesOnly [.waits, .fns, .outst, .out] (s.unloaded n pid p)
        (((s.unloaded n pid p).completeOk id k 0).testsComplete more 0) :=
      (State.completeOk_frame _ id k 0).trans (State.testsComplete_frame _ more 0)
    have hzeroed : ChangesOnly [.clusters, .scratch] s (s.zeroProg p) :=
      (by apply zeroProg_only <;> decide : _ ↔ ChangesOnly _ s s).2 (.refl _ _)
    have hprogs := hframe .progs (by decide)
    have hgone : (s.unloaded n pid p).progs = (s.dropProg n pid).progs :=
      congrArg (List.filter fun q : Prog => !(q.stratum == n && q.id == pid)) (hzeroed .progs (by decide))
    refine ⟨_, congrArg Host.Outcome.next hk, ?_, ?_, fun o ho => ⟨?_, State.not_mem_testsComplete _ _ o ho⟩, ?_⟩
    · rw [State.prog_of_progs (Eq.trans hprogs hgone), State.dropProg_prog]
    · exact Eq.trans (hframe .chans (by decide)) (congrArg (List.map (Chan.unroute n pid)) (hzeroed .chans (by decide)))
    · exact (State.testsComplete_outstShrinks _ more 0).not_mem State.not_mem_complete_outst o ho
    · intro m j hne
      rw [State.prog_of_progs (Eq.trans hprogs hgone), State.dropProg_prog_ne s hne]
  · exact congrArg Host.Outcome.next (unloadDone_of_owed hp hl hf ho)

end Sys2Proof.Machine
end

section
/-!
PROOFS. The flash commands and their steps (R441, R444, R1044, R1046, R1050, R1057).
-/

namespace Sys2Proof.Machine

/-! ### Ranges of a memory -/

theorem memRead_memClear (d : Byte) (m : Mem) (a n b : Nat) :
    memRead d (memClear m a n) b = if a ≤ b ∧ b < a + n then d else memRead d m b := by
  unfold memRead memClear
  induction m with
  | nil => split <;> rfl
  | cons e m ih =>
    by_cases he : a ≤ e.1 ∧ e.1 < a + n
    · rw [List.filter_cons_of_neg (by simpa using he), ih]
      split
      · rfl
      · rw [spGet, if_neg (fun h => by rw [h] at he; contradiction)]
    · rw [List.filter_cons_of_pos (by exact decide_eq_true he), spGet, spGet]
      by_cases hb : e.1 = b
      · rw [if_pos hb, if_pos hb, if_neg (by rw [← hb]; exact he)]
      · rw [if_neg hb, if_neg hb, ih]

/-- R1044: programming clears bits of the bytes which it covers. -/
theorem memRead_programBytes (m : Mem) (a : Nat) (l : List Byte) (b : Nat) :
    memRead 0xFF (programBytes m a l) b =
      if a ≤ b ∧ b < a + l.length then memRead 0xFF m b &&& (l[b - a]?).getD 0xFF else memRead 0xFF m b := by
  induction l generalizing m a with
  | nil => rw [if_neg (fun h => absurd h.2 (Nat.not_lt.2 h.1))]; rfl
  | cons v l ih =>
    rw [programBytes, ih]
    by_cases hb : b = a
    · subst hb
      rw [if_neg (fun h => by omega), memRead_memWrite_same, if_pos (by simp)]
      simp
    · rw [memRead_memWrite_ne 0xFF m _ hb]
      by_cases hin : a + 1 ≤ b ∧ b < a + 1 + l.length
      · rw [if_pos hin, if_pos (by simp; omega), show b - a = (b - (a + 1)) + 1 by omega, List.getElem?_cons_succ]
      · rw [if_neg hin, if_neg (by simp; omega)]

/-! ### The journal -/

/-- An operation without the journal entry which it has. -/
def NvOp.unlogged (o : NvOp) : NvOp := { o with entry := none }

/-- The bytes of flash are the same, and the operations but for their journal entries. -/
def FlashKept (s t : State) : Prop := t.nv.mem = s.nv.mem ∧ t.nv.ops.map NvOp.unlogged = s.nv.ops.map NvOp.unlogged

theorem FlashKept.trans {r s t : State} (h : FlashKept r s) (g : FlashKept s t) : FlashKept r t :=
  ⟨g.1.trans h.1, g.2.trans h.2⟩

theorem FlashKept.forEach {α : Type} {f : α → State → State} (h : ∀ a t, FlashKept t (f a t)) (l : List α) (s : State) :
    FlashKept s (s.forEach l f) := by
  unfold State.forEach
  induction l generalizing s with
  | nil => exact ⟨rfl, rfl⟩
  | cons a l ih => exact (h a s).trans (ih (f a s))

theorem State.moveEntry_flashKept (s : State) (old new : Nat) : FlashKept s (s.moveEntry old new) := by
  refine ⟨rfl, ?_⟩
  show (s.nv.ops.map _).map NvOp.unlogged = _
  rw [List.map_map]
  refine List.map_congr_left fun o _ => ?_
  show (if o.entry = some old then { o with entry := some new } else o).unlogged = o.unlogged
  split <;> rfl

/-- R1050: a journal entry is written, and no operation changes but for the number of its entry. -/
theorem State.journal_flashKept (s : State) (e : JEntry) : FlashKept s (s.journal e).1 := by
  unfold journal
  dsimp only
  split
  · refine FlashKept.trans ?_ (.forEach (fun x v => ?_) _ _)
    · exact ⟨rfl, rfl⟩
    · exact (v.moveEntry_flashKept x.seq v.nv.nextEntry).trans ⟨rfl, rfl⟩
  · exact ⟨rfl, rfl⟩

theorem FlashKept.head {s t : State} {o : NvOp} {r : List NvOp} (h : FlashKept s t) (ho : s.nv.ops = o :: r) :
    ∃ x l, t.nv.ops = x :: l ∧ x.unlogged = o.unlogged := by
  have hops := h.2
  rw [ho, List.map_cons] at hops
  obtain ⟨x, l, hx, hxo, -⟩ := List.map_eq_cons_iff.1 hops
  exact ⟨x, l, hx, hxo⟩

/-! ### The front operation -/

theorem State.modFront_ops {s : State} {o : NvOp} {r : List NvOp} (f : NvOp → NvOp) (ho : s.nv.ops = o :: r) :
    s.modFront f = { s with nv := { s.nv with ops := f o :: r } } := by
  unfold modFront
  rw [ho]

theorem State.modFront_mem (s : State) (f : NvOp → NvOp) : (s.modFront f).nv.mem = s.nv.mem := by
  unfold modFront
  split <;> rfl

/-- The steps of an operation depend on the bytes of flash and on the image which booted. -/
theorem State.nvSteps_of_flash {s t : State} (hm : t.nv.mem = s.nv.mem) (hb : t.boot = s.boot) (o : NvOp) :
    t.nvSteps o = s.nvSteps o := by
  have hbytes : t.flashBytes = s.flashBytes := by
    funext r a n
    simp only [flashBytes, flashByte, hm]
  have hfield : t.flashField = s.flashField := by
    funext r a n
    simp only [flashField, hbytes]
  have hcommit : t.commitSeq = s.commitSeq := by
    funext r
    simp only [commitSeq, hbytes, hfield]
  have himage : t.imageFault = s.imageFault := by
    funext r
    unfold imageFault
    rw [hbytes]
  have hcal : t.calSeq = s.calSeq := by
    funext k
    simp only [calSeq, hbytes, hfield]
  have hstage : t.stagingSlot = s.stagingSlot := by
    unfold stagingSlot slotValid
    rw [hb, himage, hcommit]
  have htarget : t.calTarget = s.calTarget := by
    unfold calTarget calInForce
    rw [hcal]
  unfold nvSteps
  rw [hstage, hcommit, hfield, htarget, hcal]

/-- R1050: as the front operation begins it is given its steps. -/
theorem State.beginFront_head {s : State} {o : NvOp} {r : List NvOp} (ho : s.nv.ops = o :: r) :
    ∃ x, s.beginFront.nv.ops.head? = some x ∧ x.id = o.id ∧ x.started = o.started ∧ x.data = o.data ∧
      x.paused = o.paused ∧ x.steps = (s.nvSteps o).1 ∧ s.beginFront.nv.mem = s.nv.mem := by
  unfold beginFront
  rw [ho]
  dsimp only
  rw [modFront_ops _ ho]
  split
  · exact ⟨_, rfl, rfl, rfl, rfl, rfl, rfl, rfl⟩
  · generalize hj : State.journal _ _ = j
    have hkept := hj ▸ journal_flashKept _ _
    obtain ⟨x, l, hx, hxo⟩ := hkept.head rfl
    refine ⟨{ x with entry := some j.2 }, ?_, ?_, ?_, ?_, ?_, ?_, ?_⟩
    · rw [modFront_ops _ hx]
      rfl
    · exact (congrArg NvOp.id hxo :)
    · exact (congrArg NvOp.started hxo :)
    · exact (congrArg NvOp.data hxo :)
    · exact (congrArg NvOp.paused hxo :)
    · exact (congrArg NvOp.steps hxo :)
    · rw [modFront_mem]
      exact hkept.1

theorem State.pauseFront_mem (s : State) (cut : Bool) : (s.pauseFront cut).nv.mem = s.nv.mem := by
  unfold pauseFront
  split
  · rfl
  · have h : ∀ (t : State) (n : FnNo) (x : W64), ChangesOnly [.fns, .out, .waits] t (t.occur n 0x6007 x 0) := fun t n x =>
      (by apply occur_only <;> decide : _ ↔ ChangesOnly _ t t).2 (.refl _ _)
    exact (congrArg Nv.mem (h _ _ _ .nv (by decide))).trans (modFront_mem s _)

theorem State.checkStep_mem (s : State) : s.checkStep.nv.mem = s.nv.mem := by
  have hcheck : ∀ c : Prop, [Decidable c] → (if c then s.pauseFront false else s).nv.mem = s.nv.mem := fun c _ => by
    split
    · exact pauseFront_mem s false
    · rfl
  unfold checkStep
  split
  · rfl
  · exact hcheck _

/-- A completed operation leaves the front; the bytes of flash and the staged mark stay. -/
theorem State.finishFront_nv {s : State} {o : NvOp} {r : List NvOp} (ho : s.nv.ops = o :: r) (st d : W16) (r0 : W64)
    (data : BitVec 192) : (s.finishFront st d r0 data).nv.ops = r ∧ (s.finishFront st d r0 data).nv.mem = s.nv.mem ∧
      (s.finishFront st d r0 data).nv.staged = s.nv.staged := by
  have h : ∀ t : State, (t.complete o.id st d r0 0 data).nv = t.nv := fun t => t.complete_frame _ _ _ _ _ _ .nv (by decide)
  unfold finishFront
  rw [ho]
  dsimp only
  split <;> rw [h] <;> exact ⟨rfl, rfl, rfl⟩

theorem State.finishFront_grows (s : State) (st d : W16) (r0 : W64) (data : BitVec 192) :
    Grows s (s.finishFront st d r0 data) := by
  unfold finishFront
  split
  · exact .refl s
  · dsimp only
    split <;> refine Grows.trans ?_ (complete_grows _ _ _ _ _ _ _) <;> exact .of_eq rfl rfl

/-! ### The steps -/

/-- R1046: the front operation begins when the supply gate lets it, and host memory can be read. -/
theorem startNv_of_ready {s : State} {o : NvOp} {r : List NvOp} (host : List Byte) (ho : s.nv.ops = o :: r)
    (hs : o.started = false) (hg : o.op = 0xB0 ∨ s.gate = true)
    (hm : o.op = 0xB1 ∨ o.op = 0xB2 ∨ o.op = 0xB4 → s.fns[o.fn].busMaster = true) :
    startNv host none s = (s.modFront fun x => { x with started := true, data := some host }).beginFront := by
  have hread : ¬(o.started || ((o.op == 0xB1 || o.op == 0xB2 || o.op == 0xB4) && !s.fns[o.fn].busMaster)) = true := by
    rw [hs, Bool.false_or, Bool.and_eq_true]
    rintro ⟨hop, hoff⟩
    simp only [Bool.or_eq_true, beq_iff_eq, or_assoc] at hop
    rw [hm hop] at hoff
    exact Bool.false_ne_true hoff
  have hgate : (o.op = 0xB0 || (s.modFront fun x => { x with started := true, data := some host }).gate) = true := by
    rw [State.modFront_ops _ ho, Bool.or_eq_true, decide_eq_true_iff]
    exact hg
  unfold startNv
  rw [ho]
  dsimp only
  rw [if_neg hread, if_pos hgate]

theorem not_held {s : State} {o : NvOp} (hr : s.nvRuns = true) (hp : o.paused = none) :
    ¬(!s.nvRuns || o.paused.isSome) = true := by
  rw [hr, hp]
  exact Bool.false_ne_true

theorem readDone_of_op {s : State} {o : NvOp} {r : List NvOp} {rest : List NvStep} (ho : s.nv.ops = o :: r)
    (hs : o.steps = .read :: rest) (hr : s.nvRuns = true) (hb : o.started = true) (hp : o.paused = none) (m : Option W32) :
    (o.op = 0xB0 → readDone m none s =
      (s.hostWrite o.fn o.addr ((List.range o.len).map fun i => s.regionByte o.region (o.off + i))).finishFront stOk 0 0 0) ∧
    (o.op = 0xB2 → readDone m none s = s.stageRead o m) := by
  have hgo : ¬(!s.nvRuns || !o.started || o.paused.isSome) = true := by
    rw [hr, hb, hp]
    exact Bool.false_ne_true
  unfold readDone
  rw [ho]
  dsimp only
  rw [hs]
  dsimp only
  rw [if_neg hgo]
  exact ⟨fun h => by rw [h]; rfl, fun h => by rw [h]; rfl⟩

/-- Settles O23. -/
theorem flashSteps : Obligations.FlashSteps := by
  unfold Obligations.FlashSteps
  refine ⟨fun o r host s ho hs hg hm => ?_, fun o r region off rest s ho hs hr hp => ?_,
    fun o r region off b x rest m s ho hs hr hp => ?_, fun o r rest m s ho hs hr hb hp hop hl => ?_,
    fun o r rest s ho hs hr hb hp hop => ?_⟩
  · have hbegun := State.modFront_ops (fun x => { x with started := true, data := some host }) ho
    have hfront : (s.modFront fun x => { x with started := true, data := some host }).nv.ops =
        { o with started := true, data := some host } :: r := by rw [hbegun]
    obtain ⟨x, hx, hid, hstarted, hdata, hpaused, hsteps, hmem⟩ := State.beginFront_head hfront
    have hboot : (s.modFront fun x => { x with started := true, data := some host }).boot = s.boot := by rw [hbegun]
    refine ⟨_, x, congrArg Host.Outcome.next (startNv_of_ready host ho hs hg hm), hx, hid, hstarted, hdata, hpaused, ?_,
      hmem.trans (State.modFront_mem s _)⟩
    rw [hsteps, State.nvSteps_of_flash (State.modFront_mem s _) hboot]
  · refine ⟨((s.eraseSector region off).modFront fun x => { x with steps := rest }).checkStep, ?_, fun a => ?_⟩
    · refine congrArg Host.Outcome.next ?_
      unfold eraseDone
      rw [ho]
      dsimp only
      rw [hs]
      dsimp only
      rw [if_neg (not_held hr hp)]
    · rw [State.checkStep_mem, State.modFront_mem]
      exact memRead_memClear _ _ _ _ _
  · refine ⟨((s.doProgram region off b).modFront fun o => { o with steps := x :: rest }).checkStep, ?_, fun a => ?_⟩
    · refine congrArg Host.Outcome.next ?_
      unfold pageDone
      rw [ho]
      dsimp only
      rw [hs]
      dsimp only
      rw [if_neg (not_held hr hp), if_neg (show ¬(x :: rest).isEmpty = true from Bool.false_ne_true)]
    · have hmem : (s.doProgram region off b).nv.mem = programBytes s.nv.mem (region * 0x10000000 + off) b := by
        unfold State.doProgram
        dsimp only
        split <;> rfl
      rw [State.checkStep_mem, State.modFront_mem, hmem, memRead_programBytes]
  · have hwritten : ChangesOnly [.fns, .out] s (s.hostWrite o.fn o.addr
        ((List.range o.len).map fun i => s.regionByte o.region (o.off + i))) := by
      simp (disch := decide) only [hostWrite_only, changesOnly_self]
    have hnv := hwritten .nv (by decide)
    obtain ⟨hops, hmem, -⟩ := State.finishFront_nv (by rw [hnv, ho]) stOk 0 0 0
    refine ⟨_, congrArg Host.Outcome.next ((readDone_of_op ho hs hr hb hp m).1 hop), hops, hmem.trans (by rw [hnv]), ?_⟩
    exact (hostWrite_wrote o.fn o.addr _ rfl hl).grows (State.finishFront_grows _ _ _ _ _)
  · refine ⟨_, congrArg Host.Outcome.next ((readDone_of_op ho hs hr hb hp none).2 hop), ?_⟩
    unfold State.stageRead
    dsimp only
    cases hf : s.imageFault (s.place o).1 with
    | some k =>
      obtain ⟨hops, hmem, hstaged⟩ := State.finishFront_nv ho stImageInvalid 0 0 (dataInvalid k)
      exact ⟨hops, hmem, hstaged.trans (by simp)⟩
    | none =>
      obtain ⟨hops, hmem, hstaged⟩ := State.finishFront_nv (s := { s with nv := { s.nv with staged := true } }) ho stOk 0 0 0
      exact ⟨hops, hmem, hstaged.trans (by simp)⟩

end Sys2Proof.Machine
end

section
/-!
PROOFS. The jobs of copy engines and the pieces of conditioning engines (R372, R402, R724, R726, R912, R922, R927, R928).
-/

namespace Sys2Proof.Machine

/-! ### Copies -/

theorem State.engineServes_iff (s : State) (n : FnNo) (host : Bool) :
    s.engineServes n host = true ↔ s.slotServes n = true ∧ (host = true → s.fns[n].busMaster = true) := by
  unfold engineServes
  cases host <;> simp

theorem not_started_any {α : Type} {l : List α} {p q : α → Bool} (h : ∀ x ∈ l, p x = true → q x = false) :
    (l.filter p).any q = false :=
  List.any_eq_false.2 fun x hx => by
    obtain ⟨hl, hp⟩ := List.mem_filter.1 hx
    rw [h x hl hp]
    exact Bool.false_ne_true

/-- R724, R731: the oldest job of a stratum as its engine starts it. -/
def CopyJob.begun (j : CopyJob) : CopyJob :=
  { j with started := true, traversal := if j.kind == .copy && !j.transpose then j.choose else 1 }

theorem startCopyJob_of_idle {e : EngNo} {n : FnNo} {j : CopyJob} {s : State} (hup : s.units.copies[e].up = true)
    (hj : (s.copies.filter fun x => x.engine == e && x.stratum == n).head? = some j)
    (hidle : ∀ x ∈ s.copies, x.engine = e → x.stratum = n → x.started = false)
    (hserves : s.engineServes n (j.srcHost || j.dstHost) = true) :
    startCopyJob e n s = State.modStore { s with copies := s.copies.map fun x => if x.id = j.id then j.begun else x } e n
      fun _ => { delivery := s.deliveries.any fun d => d.engine == e && d.stratum == n && d.started
                 staging := s.stageBytes j.begun } := by
  have hany : (s.copies.filter fun x => x.engine == e && x.stratum == n).any CopyJob.started = false :=
    not_started_any fun x hx hen => by
      rw [Bool.and_eq_true, beq_iff_eq, beq_iff_eq] at hen
      exact hidle x hx hen.1 hen.2
  have hgo : ¬((s.copies.filter fun x => x.engine == e && x.stratum == n).any CopyJob.started ||
      !s.units.copies[e].works) = true := by
    rw [hany, UnitSt.works_of_up hup]
    exact Bool.false_ne_true
  have hserves' : ¬(!s.engineServes n (j.srcHost || j.dstHost)) = true := by rw [hserves]; exact Bool.false_ne_true
  unfold startCopyJob
  dsimp only
  rw [if_neg hgo, hj]
  dsimp only
  rw [if_neg hserves']
  rfl

theorem finishCopy_of_served {e : EngNo} {n : FnNo} {j : CopyJob} {host : List Byte} {ws : List (Nat × List Byte)} {s : State}
    (hj : (s.copies.find? fun (x : CopyJob) => x.engine == e && x.stratum == n && x.started) = some j)
    (hserves : s.engineServes n (j.srcHost || j.dstHost) = true)
    (hr : s.readElements j (fun i => (host[i]?).getD 0) 0 (j.order j.traversal) = (ws, none)) :
    finishCopy e n host none s =
      (s.writeElements j ws).1.copyDone j ws (s.writeElements j ws).2.1 (s.writeElements j ws).2.2 := by
  have hserves' : ¬(!s.engineServes n (j.srcHost || j.dstHost)) = true := by rw [hserves]; exact Bool.false_ne_true
  unfold finishCopy
  rw [hj]
  dsimp only
  rw [if_neg hserves', hr]

/-- R372, R725: the job leaves its engine, which keeps nothing of it. -/
def State.jobGone (s : State) (j : CopyJob) : State :=
  State.modStore { s with copies := s.copies.filter fun x => x.id ≠ j.id } j.engine j.stratum fun _ => EngStore.empty

theorem State.jobGone_copies (s : State) (j : CopyJob) (r0 r1 : W64) :
    ∀ x ∈ ((s.jobGone j).completeOk j.id r0 r1).copies, x.id ≠ j.id := by
  rw [(s.jobGone j).completeOk_frame j.id r0 r1 .copies (by decide)]
  exact fun x hx => of_decide_eq_true (List.mem_filter.1 hx).2

theorem State.jobGone_store (s : State) (j : CopyJob) (r0 r1 : W64) :
    (((s.jobGone j).completeOk j.id r0 r1).stores[j.engine])[j.stratum] = EngStore.empty := by
  rw [(s.jobGone j).completeOk_frame j.id r0 r1 .stores (by decide)]
  show ((vmod s.stores j.engine fun v => vmod v j.stratum fun _ => EngStore.empty)[j.engine])[j.stratum] = _
  rw [vmod_get, vmod_get]

theorem copyJob_of_find {e : EngNo} {n : FnNo} {j : CopyJob} {s : State}
    (hj : (s.copies.find? fun (x : CopyJob) => x.engine == e && x.stratum == n && x.started) = some j) :
    j.engine = e ∧ j.stratum = n := by
  have h := List.find?_some hj
  simp only [Bool.and_eq_true, beq_iff_eq] at h
  exact h.1

/-! ### Deliveries -/

/-- R726: a delivery of a frame which is under way. -/
def Delivery.begun (d : Delivery) (x : Delivery) : Delivery :=
  if x.chan = d.chan ∧ x.seq = d.seq then { x with started := true } else x

theorem startDelivery_of_idle {e : EngNo} {n : FnNo} {d : Delivery} {s : State} (hup : s.units.copies[e].up = true)
    (hd : (s.deliveries.filter fun x => x.engine == e && x.stratum == n).head? = some d)
    (hidle : ∀ x ∈ s.deliveries, x.engine = e → x.stratum = n → x.started = false)
    (hserves : s.engineServes n true = true) :
    startDelivery e n s = State.modStore { s with deliveries := s.deliveries.map d.begun } e n
      fun k => { k with delivery := true } := by
  have hany : (s.deliveries.filter fun x => x.engine == e && x.stratum == n).any Delivery.started = false :=
    not_started_any fun x hx hen => by
      rw [Bool.and_eq_true, beq_iff_eq, beq_iff_eq] at hen
      exact hidle x hx hen.1 hen.2
  have hgo : ¬((s.deliveries.filter fun x => x.engine == e && x.stratum == n).any Delivery.started ||
      !s.units.copies[e].up || !s.engineServes n true) = true := by
    rw [hany, hup, hserves]
    exact Bool.false_ne_true
  unfold startDelivery
  dsimp only
  rw [if_neg hgo, hd]
  rfl

/-- R402, R912: the bytes of a raster which is delivered. -/
def State.rasterBytes (s : State) (n : FnNo) (d : Delivery) : List Byte :=
  (List.range 0x100000).map fun i => s.slateGet n (d.src + i)

theorem State.pumpRings_resolves (s : State) (n : FnNo) : Resolves s (s.pumpRings n) :=
  .forEach (fun pid t => t.pumpRing_resolves n pid) _ _

theorem State.pumpRings_sends (s : State) (n : FnNo) : Sends s (s.pumpRings n) :=
  .forEach (fun pid t => t.pumpRing_sends n pid) _ _

/-- R402, R912: a delivery which is served ends: its bytes are written, and it is a delivery no longer. -/
theorem endDelivery_of_served {e : EngNo} {n : FnNo} {d : Delivery} {s : State}
    (hd : (s.deliveries.find? fun x => x.engine == e && x.stratum == n && x.started) = some d)
    (hserves : s.engineServes n true = true) :
    ∃ u : State, endDelivery e n s = (u.bulkWrite n (BitVec.ofNat 64 d.dst) (s.rasterBytes n d)).pumpRings n ∧
      u.boot = s.boot ∧ u.fns = s.fns ∧ ∀ x ∈ u.deliveries, ¬(x.chan = d.chan ∧ x.seq = d.seq) := by
  have hserves' : ¬(!s.engineServes n true) = true := by rw [hserves]; exact Bool.false_ne_true
  refine ⟨(State.modStore { s with deliveries := s.deliveries.filter fun x => !(x.chan == d.chan && x.seq == d.seq) } e n
    fun k => { k with delivery := false }).modChan d.chan fun y => { y with
      slate := { y.slate with delivered := y.slate.delivered + 1 } }, ?_, rfl, rfl, fun x hx hsame => ?_⟩
  · unfold endDelivery
    rw [hd]
    dsimp only
    rw [if_neg hserves']
    rfl
  · have hkept := (List.mem_filter.1 hx).2
    rw [hsame.1, hsame.2, beq_self_eq_true, beq_self_eq_true] at hkept
    exact Bool.false_ne_true hkept

/-! ### Pieces -/

/-- R928: of two pieces the older one, the first when they are of the same age. -/
def olderPiece (b : Option (Frame × (Nat × Nat × Tick))) (p : Frame × (Nat × Nat × Tick)) :
    Option (Frame × (Nat × Nat × Tick)) :=
  match b with
  | none => some p
  | some q => if p.2.2.2 < q.2.2.2 then some p else some q

/-- R928: the piece which is chosen is one of those offered, and none is older. -/
theorem oldestPiece_le (l : List (Frame × (Nat × Nat × Tick))) (q : Frame × (Nat × Nat × Tick)) :
    ∃ m, l.foldl olderPiece (some q) = some m ∧ (m = q ∨ m ∈ l) ∧ m.2.2.2 ≤ q.2.2.2 ∧ ∀ y ∈ l, m.2.2.2 ≤ y.2.2.2 := by
  induction l generalizing q with
  | nil => exact ⟨q, rfl, .inl rfl, BitVec.le_refl _, by simp⟩
  | cons p l ih =>
    rw [List.foldl_cons]
    by_cases hp : p.2.2.2 < q.2.2.2
    · obtain ⟨m, hm, hin, hle, hall⟩ := ih p
      refine ⟨m, by rw [olderPiece, if_pos hp]; exact hm, .inr (List.mem_cons.2 hin), ?_, ?_⟩
      · exact BitVec.le_trans hle (BitVec.le_of_lt hp)
      · exact List.forall_mem_cons.2 ⟨hle, hall⟩
    · obtain ⟨m, hm, hin, hle, hall⟩ := ih q
      refine ⟨m, by rw [olderPiece, if_neg hp]; exact hm, hin.imp_right (List.mem_cons_of_mem _), hle, ?_⟩
      exact List.forall_mem_cons.2 ⟨BitVec.le_trans hle (BitVec.not_lt.1 hp), hall⟩

theorem startPiece_of_offered {e : EngNo} {s : State} (hidle : s.piece e = none) (hup : s.units.slates[e].up = true)
    (hoffer : ∃ x ∈ s.chans, s.slotServes x.stratum = true ∧ (s.offered e x).isSome = true) :
    ∃ m x, x ∈ s.chans ∧ s.slotServes x.stratum = true ∧ s.offered e x = some m ∧
      (∀ y ∈ s.chans, s.slotServes y.stratum = true → ∀ q, s.offered e y = some q → m.2.2.2 ≤ q.2.2.2) ∧
      (startPiece e s).pieces[e] = s.pieces[e] ++ [{ chan := m.1.chan, seq := m.1.seq, first := m.2.1, last := m.2.2.1 }] ∧
      (startPiece e s).loaded[e] = some m.1.chan := by
  have hgo : ¬((s.piece e).isSome || !s.units.slates[e].up) = true := by
    rw [hidle, hup]
    exact Bool.false_ne_true
  have hmem : ∀ q, q ∈ (s.chans.filter fun x => s.slotServes x.stratum).filterMap (s.offered e) ↔
      ∃ x ∈ s.chans, s.slotServes x.stratum = true ∧ s.offered e x = some q := fun q => by
    simp only [List.mem_filterMap, List.mem_filter, and_assoc]
  obtain ⟨x, hx, hserves, hsome⟩ := hoffer
  obtain ⟨q, hq⟩ := Option.isSome_iff_exists.1 hsome
  have hin := (hmem q).2 ⟨x, hx, hserves, hq⟩
  obtain ⟨m, hfold, hm, hle⟩ : ∃ m, ((s.chans.filter fun x => s.slotServes x.stratum).filterMap (s.offered e)).foldl olderPiece
      none = some m ∧ m ∈ (s.chans.filter fun x => s.slotServes x.stratum).filterMap (s.offered e) ∧
      ∀ y ∈ (s.chans.filter fun x => s.slotServes x.stratum).filterMap (s.offered e), m.2.2.2 ≤ y.2.2.2 := by
    generalize (s.chans.filter fun x => s.slotServes x.stratum).filterMap (s.offered e) = l at hin ⊢
    cases l with
    | nil => exact absurd hin List.not_mem_nil
    | cons p l =>
      obtain ⟨m, hfold, hm, hp, hall⟩ := oldestPiece_le l p
      exact ⟨m, hfold, List.mem_cons.2 hm, List.forall_mem_cons.2 ⟨hp, hall⟩⟩
  obtain ⟨y, hy, hys, hym⟩ := (hmem m).1 hm
  have hstart : startPiece e s = { s.modFrame m.1.chan m.1.seq (fun g => { g with pieces := g.pieces.drop 1 }) with
      pieces := s.pieces.set e.val (s.pieces[e] ++ [{ chan := m.1.chan, seq := m.1.seq, first := m.2.1, last := m.2.2.1 }]) e.isLt
      loaded := s.loaded.set e.val (some m.1.chan) e.isLt } := by
    unfold startPiece
    rw [if_neg hgo]
    dsimp only
    split
    next hnone => exact absurd (hfold.symm.trans hnone) (Option.some_ne_none m)
    next f r hsome =>
      obtain rfl := Option.some.inj (hfold.symm.trans hsome)
      rfl
  refine ⟨m, y, hy, hys, hym, fun z hz hzs r hr => hle r ((hmem r).2 ⟨z, hz, hzs, hr⟩), ?_, ?_⟩
  · rw [hstart]
    exact Vector.getElem_set_self _
  · rw [hstart]
    exact Vector.getElem_set_self _

/-- R922: a piece which ends leaves its engine, whatever else its end brings. -/
theorem endPiece_of_frame {e : EngNo} {p : Piece} {f : Frame} {x : Chan} {s : State} (hp : s.piece e = some p)
    (hf : s.frame p.chan p.seq = some f) (hx : s.chan p.chan = some x) (hd : ∀ d ∈ s.deliveries, d.chan ≠ p.chan) :
    ∃ t : State, t.pieces[e] = (s.pieces[e]).erase p ∧
      endPiece e s = if f.stage == .conditioning && f.pieces.isEmpty && f.cut == p.last then
        t.conditioned x (f.condition x.slate p.last) else t := by
  have hfree : (s.deliveries.any fun d => d.chan == p.chan) = false :=
    List.any_eq_false.2 fun d hm => by rw [beq_eq_false_iff_ne.2 (hd d hm)]; exact Bool.false_ne_true
  refine ⟨(State.modFrame { s with pieces := s.pieces.set e.val ((s.pieces[e]).erase p) e.isLt } p.chan p.seq
    fun _ => f.condition x.slate p.last).rasterPiece x.stratum (f.condition x.slate p.last) p.first p.last, ?_, ?_⟩
  · have hframe : ∀ t : State, ChangesOnly [.ext, .geo, .scratch] t
        (t.rasterPiece x.stratum (f.condition x.slate p.last) p.first p.last) := fun t =>
      (by apply rasterPiece_only <;> decide : _ ↔ ChangesOnly _ t t).2 (.refl _ _)
    rw [hframe _ .pieces (by decide)]
    exact Vector.getElem_set_self _
  · unfold endPiece
    rw [hp]
    dsimp only
    rw [hf, hx]
    dsimp only
    rw [hfree, Bool.and_false, if_neg Bool.false_ne_true]

/-- R922: a frame which no launch serves is gone once it is conditioned. -/
theorem State.conditioned_frame (t : State) {x : Chan} {g : Frame} (hl : g.launch = none) :
    (t.conditioned x g).frame x.num g.seq = none := by
  have hgone : ∀ u : State, (((u.releaseFrame x.num g.seq false).delFrame x.num g.seq).settlePool.endUnbinds).frame x.num
      g.seq = none := fun u =>
    ((settlePool_resolves _).trans (endUnbinds_resolves _)).frames _ _ (delFrame_frame _ _ _)
  unfold conditioned
  dsimp only
  rw [hl]
  exact hgone _

theorem State.conditioned_pieces (t : State) (x : Chan) (g : Frame) : (t.conditioned x g).pieces = t.pieces := by
  have h : ChangesOnly (Comp.allBut [.pieces]) t (t.conditioned x g) :=
    (by apply conditioned_only <;> simp : _ ↔ ChangesOnly _ t t).2 (.refl _ _)
  exact h .pieces (by decide)

/-- Settles O21. -/
theorem engineJobs : Obligations.EngineJobs := by
  unfold Obligations.EngineJobs
  refine ⟨fun e n j s hup hj hidle hs hb => ?_, fun e n j host ws k s u hj hs hb hr hw hk => ?_,
    fun e n j host ws s hj hs hb hr hk => ?_, fun e n host fail x s => ⟨rfl, rfl⟩, fun e n d s hup hd hidle hs hb => ?_,
    fun e n d s hd hl hs hb => ?_, fun e s hidle hup hoffer => ?_, fun e p s hp hf => ?_, fun e p f x s hp hf hx hd => ?_⟩
  · refine ⟨_, congrArg Host.Outcome.next (startCopyJob_of_idle hup hj hidle ((s.engineServes_iff n _).2 ⟨hs, hb⟩)), rfl, ?_⟩
    rw [← startCopyJob_of_idle hup hj hidle ((s.engineServes_iff n _).2 ⟨hs, hb⟩)]
    exact (by apply startCopyJob_only <;> decide : _ ↔ ChangesOnly _ s s).2 (.refl _ _)
  · obtain ⟨rfl, rfl⟩ := copyJob_of_find hj
    have hkind : (j.kind == .checksum) = false := beq_eq_false_iff_ne.2 hk
    have hdone := finishCopy_of_served hj ((s.engineServes_iff _ _).2 ⟨hs, hb⟩) hr
    rw [hw] at hdone
    refine ⟨(u.jobGone j).completeOk j.id (BitVec.ofNat 64 k) 0, ?_, rfl, u.jobGone_copies j _ _, State.not_mem_complete_outst,
      u.jobGone_store j _ _, ?_, ?_, ?_⟩
    · refine congrArg Host.Outcome.next (hdone.trans ?_)
      unfold State.copyDone
      dsimp only
      rw [hkind]
      rfl
    · exact (u.jobGone j).completeOk_frame _ _ _ .geo (by decide)
    · exact (u.jobGone j).completeOk_frame _ _ _ .ext (by decide)
    · exact (u.jobGone j).completeOk_frame _ _ _ .scratch (by decide)
  · have hkind : (j.kind == .checksum) = true := beq_iff_eq.2 hk
    have hdone := finishCopy_of_served hj ((s.engineServes_iff _ _).2 ⟨hs, hb⟩) hr
    have hwrite : s.writeElements j ws = (s, ws.length * j.esize, none) := by
      unfold State.writeElements
      dsimp only
      rw [if_pos hkind]
    rw [hwrite] at hdone
    refine ⟨(s.jobGone j).completeOk j.id (j.sum (ws.map Prod.snd).flatten) (BitVec.ofNat 64 (ws.length * j.esize)), ?_, rfl,
      State.not_mem_complete_outst, ?_, ?_, ?_⟩
    · refine congrArg Host.Outcome.next (hdone.trans ?_)
      unfold State.copyDone
      dsimp only
      rw [hkind]
      rfl
    · exact (s.jobGone j).completeOk_frame _ _ _ .geo (by decide)
    · exact (s.jobGone j).completeOk_frame _ _ _ .ext (by decide)
    · exact (s.jobGone j).completeOk_frame _ _ _ .scratch (by decide)
  · refine ⟨_, congrArg Host.Outcome.next (startDelivery_of_idle hup hd hidle ((s.engineServes_iff n _).2 ⟨hs, fun _ => hb⟩)),
      rfl, ?_⟩
    rw [← startDelivery_of_idle hup hd hidle ((s.engineServes_iff n _).2 ⟨hs, fun _ => hb⟩)]
    exact (by apply startDelivery_only <;> decide : _ ↔ ChangesOnly _ s s).2 (.refl _ _)
  · obtain ⟨u, hu, hboot, hfns, hgone⟩ := endDelivery_of_served hd ((s.engineServes_iff n _).2 ⟨hs, fun _ => hb⟩)
    have hopen : u.boot.linkL0 = true := by rw [hboot, hl]
    refine ⟨_, congrArg Host.Outcome.next hu, (State.pumpRings_sends _ n).mem_out ?_, fun x hx => hgone x ?_⟩
    · rw [← hfns]
      exact State.mem_emit_out hopen _
    · have hout : ChangesOnly [.out] u (u.bulkWrite n (BitVec.ofNat 64 d.dst) (s.rasterBytes n d)) := u.emit_frame _
      exact (hout .deliveries (by decide) : _) ▸ (State.pumpRings_resolves _ n).deliveries x hx
  · obtain ⟨m, x, hx, hserves, hm, hle, hpieces, hloaded⟩ := startPiece_of_offered hidle hup hoffer
    refine ⟨_, x, m.1, m.2, rfl, hx, hserves, hm, hpieces, hloaded, fun y hy hys g q hq => hle y hy hys _ hq, ?_⟩
    exact (by apply startPiece_only <;> decide : _ ↔ ChangesOnly _ s s).2 (.refl _ _)
  · refine congrArg Host.Outcome.next ?_
    unfold endPiece
    rw [hp]
    dsimp only
    rw [hf]
  · obtain ⟨t, hpieces, ht⟩ := endPiece_of_frame hp hf hx hd
    refine ⟨_, congrArg Host.Outcome.next ht, ?_, fun hstage hnone hcut hlaunch => ?_⟩
    · split
      · exact (congrArg (fun v : Vector (List Piece) 4 => v[e]) (t.conditioned_pieces x _)).trans hpieces
      · exact hpieces
    · have hends : (f.stage == .conditioning && f.pieces.isEmpty && f.cut == p.last) = true := by
        rw [hstage, hnone, hcut]
        simp
      have hnum := State.num_of_chan hx
      have hseq : (f.condition x.slate p.last).seq = p.seq := by
        have h := List.find?_some hf
        simp only [Bool.and_eq_true, decide_eq_true_eq] at h
        exact h.2
      rw [if_pos hends, ← hnum, ← hseq]
      exact t.conditioned_frame hlaunch

end Sys2Proof.Machine
end

section
/-!
PROOFS. Clock plans, temperatures and the thermal cap (R62, R95, R99, R324, R1080 to R1092).
-/

namespace Sys2Proof.Machine

/-! ### The caps which stand while plans are settled -/

/-- The plan in force, the plan selected, the caps of host and temperature, the power state and the 70 W cap. -/
def State.caps (s : State) : BitVec 8 × BitVec 8 × Nat × Option Nat × PowerState × Bool :=
  (s.plans.inForce, s.plans.selected, s.plans.hostCap, s.plans.thermalCap, s.sup.power, s.sup.cap70)

theorem State.caps_of_only {ks : List Comp} {s t : State} (h : ChangesOnly ks s t) (hp : Comp.plans ∉ ks)
    (hs : Comp.sup ∉ ks) : t.caps = s.caps := by
  unfold caps
  rw [h .plans hp, h .sup hs]

/-- An operation whose law asks for no right to change plans and supply. -/
theorem State.caps_of_law {s t : State} (h : ChangesOnly (Comp.allBut [.plans, .sup]) s t ↔
    ChangesOnly (Comp.allBut [.plans, .sup]) s s) : t.caps = s.caps :=
  caps_of_only (h.2 (ChangesOnly.refl _ _)) (by decide) (by decide)

theorem State.planCalled_of_caps {s t : State} (h : t.caps = s.caps) : t.planCalled = s.planCalled := by
  simp only [caps, Prod.mk.injEq] at h
  obtain ⟨-, hselected, hhost, hthermal, -, hcap⟩ := h
  have hcaps : t.effectiveCap = s.effectiveCap := by
    unfold effectiveCap
    rw [hhost, hthermal, hcap]
  unfold planCalled
  rw [hcaps, hselected]

theorem State.startInstall_caps (s : State) (p : BitVec 8) (c : Bool) : (s.startInstall p c).caps = s.caps := by
  have hbroken : ({ s with plans := { s.plans with installing := some p, capMoved := false } }.breakAll 2).caps = s.caps :=
    caps_of_law (s := { s with plans := { s.plans with installing := some p, capMoved := false } }) (by
      apply breakAll_only <;> simp)
  unfold startInstall
  dsimp only
  split
  · exact hbroken
  · exact (caps_of_law (by apply lapse_only <;> simp)).trans hbroken

theorem State.callPlan_caps (s : State) (c : Bool) : (s.callPlan c).caps = s.caps := by
  unfold callPlan
  split
  · rfl
  · exact startInstall_caps _ _ _

theorem State.callPlan_of_called {s : State} {c : Bool} (h : s.planCalled = s.plans.inForce) : s.callPlan c = s := by
  unfold callPlan
  rw [decide_eq_true h, Bool.or_true, if_pos rfl]

theorem State.capNoticeNow_plans (s : State) :
    s.capNoticeNow.caps = s.caps ∧ s.capNoticeNow.plans.installing = s.plans.installing := by
  have hsent : ∀ t : State, ChangesOnly [.fns, .out, .waits] t t.capChanged := fun t =>
    (by apply capChanged_only <;> decide : _ ↔ ChangesOnly _ t t).2 (.refl _ _)
  have hcaps : ∀ t : State, t.capChanged.caps = t.caps := fun t => caps_of_only (hsent t) (by decide) (by decide)
  have hplans : ∀ t : State, t.capChanged.plans.installing = t.plans.installing := fun t =>
    congrArg Plans.installing (hsent t .plans (by decide))
  unfold capNoticeNow
  split
  · exact ⟨hcaps _, hplans _⟩
  · exact ⟨rfl, rfl⟩

/-- R62, R324: what settles plans installs at most; the plan in force and the caps stand. -/
theorem State.settled_plans (s : State) :
    (s.releaseThrottle.endCapLapses.beginDueRuns).caps = s.caps ∧
      (s.releaseThrottle.endCapLapses.beginDueRuns).plans.installing = s.plans.installing := by
  have hthrottle : s.releaseThrottle.caps = s.caps ∧ s.releaseThrottle.plans = s.plans := by
    unfold releaseThrottle
    split <;> exact ⟨rfl, rfl⟩
  have hsettled : ChangesOnly [.fns, .out, .repro, .waits, .slots] s.releaseThrottle
      s.releaseThrottle.endCapLapses.beginDueRuns := by
    simp (disch := decide) only [beginDueRuns_only, endCapLapses_only, changesOnly_self]
  exact ⟨(caps_of_only hsettled (by decide) (by decide)).trans hthrottle.1,
    congrArg Plans.installing (Eq.trans (hsettled .plans (by decide)) hthrottle.2)⟩

theorem State.settlePlan_caps (s : State) (c : Bool) : (s.settlePlan c).caps = s.caps := by
  unfold settlePlan
  dsimp only
  split
  · split
    · exact (capNoticeNow_plans _).1
    · rfl
  · exact ((capNoticeNow_plans _).1.trans (settled_plans _).1).trans (callPlan_caps _ _)

/-- R62: while the plan called for is in force, none is installed. -/
theorem State.settlePlan_installing {s : State} (c : Bool) (hi : s.plans.installing = none)
    (hcalled : s.planCalled = s.plans.inForce) : (s.settlePlan c).plans.installing = none := by
  unfold settlePlan
  dsimp only
  split
  · split
    · exact (capNoticeNow_plans _).2.trans hi
    · exact hi
  · rw [(capNoticeNow_plans _).2, (settled_plans _).2]
    rw [callPlan_of_called (by exact hcalled)]
    exact hi

theorem State.planCommandDone_plans (s : State) :
    s.planCommandDone.caps = s.caps ∧ s.planCommandDone.plans.installing = s.plans.installing := by
  have hsent : ∀ (t : State) (id : Nat) (r0 : W64), (t.completeOk id r0 0).caps = t.caps ∧
      (t.completeOk id r0 0).plans = t.plans := fun t id r0 => by
    have h := t.completeOk_frame id r0 0
    exact ⟨caps_of_only h (by decide) (by decide), h .plans (by decide)⟩
  unfold planCommandDone
  split
  · exact ⟨rfl, rfl⟩
  · exact ⟨(hsent _ _ _).1, (congrArg Plans.installing (hsent _ _ _).2 :)⟩

theorem State.planCommands_plans (s : State) :
    s.planCommands.caps = s.caps ∧ s.planCommands.plans.installing = s.plans.installing := by
  unfold planCommands forEach
  generalize s.plans.cmds = l
  induction l generalizing s with
  | nil => exact ⟨rfl, rfl⟩
  | cons a l ih =>
    obtain ⟨hcaps, hinstalling⟩ := ih (if s.plans.installing.isNone then s.planCommandDone else s)
    refine ⟨hcaps.trans ?_, hinstalling.trans ?_⟩
    · split
      · exact s.planCommandDone_plans.1
      · rfl
    · split
      · exact s.planCommandDone_plans.2
      · rfl

/-- R95, R99, R324: an installation which ends puts its plan in force under the caps which stand. -/
theorem endInstall_plans {s : State} {p : BitVec 8} (hp : s.plans.installing = some p) :
    (endInstall s).caps = State.caps { s with plans := { s.plans with installing := none, inForce := p } } ∧
      (s.planCalled = p → (endInstall s).plans.installing = none) := by
  generalize hu : ({ s with plans := { s.plans with installing := none, inForce := p } } : State) = u
  have hselected : u.reselectAll.caps = u.caps ∧ u.reselectAll.plans = u.plans := by
    have h : ChangesOnly (Comp.allBut [.plans, .sup]) u u.reselectAll :=
      (by apply reselectAll_only <;> simp : _ ↔ ChangesOnly _ u u).2 (.refl _ _)
    exact ⟨State.caps_of_only h (by decide) (by decide), h .plans (by decide)⟩
  obtain ⟨v, c, hcaps, hinstalling, he⟩ : ∃ (v : State) (c : Bool), v.caps = u.caps ∧
      v.plans.installing = u.plans.installing ∧ endInstall s = (v.settlePlan c).planCommands := by
    refine ⟨if 2 ≤ u.reselectAll.plans.cmds.length then u.reselectAll.planCommandDone else u.reselectAll,
      u.reselectAll.plans.cmds.isEmpty || u.reselectAll.plans.capMoved, ?_, ?_, ?_⟩
    · split
      · exact (State.planCommandDone_plans _).1.trans hselected.1
      · exact hselected.1
    · split
      · exact (State.planCommandDone_plans _).2.trans (congrArg Plans.installing hselected.2)
      · exact congrArg Plans.installing hselected.2
    · subst hu
      unfold endInstall
      rw [hp]
  refine ⟨?_, fun hcalled => ?_⟩
  · rw [he, (State.planCommands_plans _).1, State.settlePlan_caps, hcaps]
  · have hforce : v.plans.inForce = u.plans.inForce := congrArg Prod.fst hcaps
    rw [he, (State.planCommands_plans _).2]
    refine State.settlePlan_installing c ?_ ?_
    · rw [hinstalling, ← hu]
    · rw [State.planCalled_of_caps hcaps, hforce, ← hu]
      exact hcalled

/-! ### Sensors -/

theorem State.sampleSensor_of_valid {s : State} {n : Fin 83} {v : Int} (hp : s.sensorPowered n = true)
    (hf : s.thermal.failed.getLsbD n.val = false) (hlo : -320 ≤ v) (hhi : v ≤ 1200)
    (hjump : s.thermal.readings[n] = 0x8000 ∨ (v - s.thermal.readings[n].toInt).natAbs ≤ 160) :
    s.sampleSensor n v = s.modThermal fun h => { h with
      readings := vmod h.readings n fun _ => BitVec.ofInt 16 v, lastValid := vmod h.lastValid n fun _ => BitVec.ofInt 16 v } := by
  have hsteady : (s.thermal.readings[n] != 0x8000 && decide (160 < (v - s.thermal.readings[n].toInt).natAbs)) = false := by
    rw [Bool.and_eq_false_iff, bne_eq_false_iff_eq, decide_eq_false_iff_not]
    exact hjump.imp_right Nat.not_lt.2
  have hon : ¬(!s.sensorPowered n) = true := by rw [hp]; exact Bool.false_ne_true
  have hgood : ¬(v < -320 ∨ 1200 < v ∨ (s.thermal.readings[n] != 0x8000 &&
      decide (160 < (v - s.thermal.readings[n].toInt).natAbs)) = true) := by
    rw [hsteady]
    simp only [Bool.false_eq_true, or_false]
    omega
  unfold sampleSensor
  dsimp only
  rw [if_neg hon, if_neg (by rw [hf]; exact Bool.false_ne_true), if_neg hgood]

/-- R1084: a sensor which fails reads 0x8000. -/
theorem State.sensorFails_thermal (s : State) (n : Fin 83) : (s.sensorFails n).thermal =
    { s.thermal with readings := vmod s.thermal.readings n fun _ => 0x8000, failed := s.thermal.failed ||| (1#83 <<< n.val) } := by
  have hnoted : ∀ (t : State) (a b : W64) (u : W16), ((t.occur 0 0x9003 a b).fault 1 0x0D u 0 0 0xFF 0xFFFF 0).1.thermal =
      t.thermal := fun t a b u => by
    have h : ChangesOnly (Comp.allBut [.thermal]) t ((t.occur 0 0x9003 a b).fault 1 0x0D u 0 0 0xFF 0xFFFF 0).1 := by
      simp [fault_only, occur_only, changesOnly_self]
    exact h .thermal (by decide)
  unfold sensorFails
  dsimp only
  split
  · rfl
  · exact hnoted _ _ _ _

theorem State.sampleSensor_of_wild {s : State} {n : Fin 83} {v : Int} (hp : s.sensorPowered n = true)
    (hf : s.thermal.failed.getLsbD n.val = false) (hv : v < -320 ∨ 1200 < v) : s.sampleSensor n v = s.sensorFails n := by
  have hon : ¬(!s.sensorPowered n) = true := by rw [hp]; exact Bool.false_ne_true
  unfold sampleSensor
  dsimp only
  rw [if_neg hon, if_neg (by rw [hf]; exact Bool.false_ne_true), if_pos (hv.imp_right .inl)]

theorem getLsbD_or_one_shiftLeft {w i : Nat} (x : BitVec w) (h : i < w) : (x ||| (1#w <<< i)).getLsbD i = true := by
  simp [h]

/-! ### The thermal cap -/

theorem State.throttle_caps (s : State) : s.throttle.caps = s.caps := by
  have hvoid : ∀ (t : State) (l : List FnNo), ((t.occurAll l 0x6003 t.tick 0).breakAll 1).caps = t.caps := fun t l =>
    caps_of_law (by simp [breakAll_only, occurAll_only])
  unfold throttle
  dsimp only
  rw [hvoid]
  rfl

theorem State.setThermalCap_caps (s : State) (c : Option Nat) :
    (s.setThermalCap c).caps = State.caps { s with plans := { s.plans with thermalCap := c } } := by
  have hmoved : ∀ (t : State) (n : Nat), (t.capMoved n).caps = t.caps := fun t n =>
    caps_of_law (by apply capMoved_only <;> simp)
  unfold setThermalCap
  rw [hmoved]

theorem State.sendThermalCap_caps (s : State) : s.sendThermalCap.caps = s.caps :=
  caps_of_law (by apply sendThermalCap_only <;> simp)

/-- R1087, R1090: what the entry to `CAPPED` changes of the temperature record. -/
def Thermal.enterCapped (tick : Tick) (h : Thermal) : Thermal :=
  { h with
    capped := true, cappedSince := tick, capFrom := tick, stepDue := tick + 16000000, allHot := true
    releaseDue := none
    capEntries := if h.capEntries = BitVec.allOnes 32 then h.capEntries else h.capEntries + 1 }

/-- R1087, R1090: what the entry to `CAPPED` brings beside its record. -/
def State.actCapped (s : State) (cap : Nat) : State :=
  let t := s.throttle.setThermalCap (some cap)
  ((t.lapse 1 0xFFFF t.isolatedStrata).sendThermalCap).settlePlan true

theorem State.enterCapped_eq (s : State) (cap : Nat) :
    s.enterCapped cap = (s.modThermal (Thermal.enterCapped s.tick)).actCapped cap := rfl

theorem State.actCapped_state (s : State) (cap : Nat) :
    (s.actCapped cap).thermal = s.thermal ∧ (s.actCapped cap).boot = s.boot ∧
      (s.actCapped cap).caps = State.caps { s with plans := { s.plans with thermalCap := some cap } } := by
  have hframe : ChangesOnly (Comp.allBut [.thermal, .boot]) s (s.actCapped cap) := by
    unfold actCapped
    simp [settlePlan_only, sendThermalCap_only, lapse_only, setThermalCap_only, throttle_only, changesOnly_self]
  have hlapse : ∀ (t : State) (l : List FnNo), (t.lapse 1 0xFFFF l).caps = t.caps := fun t l =>
    caps_of_law (by apply lapse_only <;> simp)
  refine ⟨hframe .thermal (by decide), hframe .boot (by decide), ?_⟩
  have hthrottle := s.throttle_caps
  unfold actCapped
  dsimp only
  rw [settlePlan_caps, sendThermalCap_caps, hlapse, setThermalCap_caps]
  simp only [caps, Prod.mk.injEq] at hthrottle ⊢
  obtain ⟨hforce, hselected, hhost, -, hpower, hcap⟩ := hthrottle
  exact ⟨hforce, hselected, hhost, trivial, hpower, hcap⟩

/-- R1094, R1103: noting T_J leaves the marks of the cap, and what is not temperature, as they are. -/
theorem State.noteTj_state (s : State) (tj : Int) :
    (s.noteTj tj).thermal.capped = s.thermal.capped ∧ (s.noteTj tj).thermal.sensorCap = s.thermal.sensorCap ∧
      (s.noteTj tj).thermal.readings = s.thermal.readings ∧ (s.noteTj tj).thermal.shut = s.thermal.shut ∧
      ChangesOnly (Comp.allBut [.boot, .plans, .sup]) s (s.noteTj tj) := by
  have hoccur : ∀ (t : State) (x : W64), ChangesOnly [.fns, .out, .waits] t (t.occur 0 0x9000 x 0) := fun t x =>
    (by apply occur_only <;> decide : _ ↔ ChangesOnly _ t t).2 (.refl _ _)
  have hframe : ChangesOnly (Comp.allBut [.boot, .plans, .sup]) s (s.noteTj tj) :=
    (by apply noteTj_only <;> simp : _ ↔ ChangesOnly _ s s).2 (.refl _ _)
  unfold noteTj at hframe ⊢
  dsimp only at hframe ⊢
  split at hframe
  · rw [if_pos ‹_›, hoccur _ _ .thermal (by decide)]
    exact ⟨rfl, rfl, rfl, rfl, hframe⟩
  · rw [if_neg ‹_›]
    exact ⟨rfl, rfl, rfl, rfl, hframe⟩

/-- R1087: a sample acts on the cap; of temperatures, power and start-up nothing else changes. -/
theorem State.capSample_kept (s : State) (tj : Int) :
    (s.capSample tj).thermal.readings = s.thermal.readings ∧ (s.capSample tj).thermal.shut = s.thermal.shut ∧
      (s.capSample tj).boot = s.boot ∧ (s.capSample tj).sup.power = s.sup.power := by
  unfold capSample
  split
  · exact ⟨rfl, rfl, rfl, rfl⟩
  · split
    · split
      · rw [enterCapped_eq]
        obtain ⟨hthermal, hboot, hcaps⟩ := (s.modThermal (Thermal.enterCapped s.tick)).actCapped_state s.nextSlower
        rw [hthermal, hboot]
        simp only [caps, Prod.mk.injEq] at hcaps
        exact ⟨rfl, rfl, rfl, hcaps.2.2.2.2.1⟩
      · exact ⟨rfl, rfl, rfl, rfl⟩
    · exact ⟨rfl, rfl, rfl, rfl⟩

/-- R1087: from T_CAP on the module is `CAPPED`, at the power of the next slower plan. -/
theorem State.capSample_of_uncapped {s : State} {tj : Int} (hsensor : s.thermal.sensorCap = false)
    (hcapped : s.thermal.capped = false) : ((s.capSample tj).thermal.capped = true ↔ 840 ≤ tj) ∧
      (840 ≤ tj → (s.capSample tj).plans.thermalCap = some s.nextSlower) := by
  have hfree : (!s.thermal.capped) = true := by rw [hcapped]; rfl
  unfold capSample
  rw [if_neg (by rw [hsensor]; exact Bool.false_ne_true), if_pos hfree]
  by_cases htj : tCap ≤ tj
  · obtain ⟨hthermal, -, hcaps⟩ := (s.modThermal (Thermal.enterCapped s.tick)).actCapped_state s.nextSlower
    simp only [caps, Prod.mk.injEq] at hcaps
    rw [if_pos htj, enterCapped_eq, hthermal]
    exact ⟨⟨fun _ => htj, fun _ => rfl⟩, fun _ => hcaps.2.2.2.1⟩
  · rw [if_neg htj, hcapped]
    exact ⟨⟨fun h => absurd h Bool.false_ne_true, fun h => absurd h htj⟩, fun h => absurd h htj⟩

/-- R1092: a sample counts those in a row from T_SHUT on. -/
theorem State.shutSample_state (s : State) (tj : Int) :
    (s.shutSample tj).thermal = { s.thermal with shut := if tShut ≤ tj then s.thermal.shut + 1 else 0 } ∧
      (s.shutSample tj).plans = s.plans := by
  have hfatal : ∀ (t : State) (x : W16) (l : List W32), ChangesOnly (Comp.allBut [.thermal, .plans]) t (t.enterFatal 5 x l) :=
    fun t x l => (by apply enterFatal_only <;> simp : _ ↔ ChangesOnly _ t t).2 (.refl _ _)
  unfold shutSample
  dsimp only
  generalize (if tShut ≤ tj then s.thermal.shut + 1 else 0) = k
  split
  · exact ⟨hfatal _ _ _ .thermal (by decide), hfatal _ _ _ .plans (by decide)⟩
  · exact ⟨rfl, rfl⟩

/-- R1092: the third sample in a row from T_SHUT on is fatal. -/
theorem State.shutSample_fatal {s : State} {tj : Int} (hs : s.supplied = true) (hf : s.boot.fatal = false)
    (hr : s.boot.inReset = false) (htj : tShut ≤ tj) (hk : 2 ≤ s.thermal.shut) : (s.shutSample tj).boot.fatal = true := by
  unfold shutSample
  dsimp only
  rw [if_pos htj, if_pos (by omega)]
  exact (State.enterFatal_entered (s := s.modThermal fun h => { h with shut := s.thermal.shut + 1 }) hs hf hr _ _ _).fatal

theorem State.watching_iff (s : State) :
    s.watching = true ↔ s.supplied = true ∧ s.boot.fatal = false ∧ s.boot.inReset = false := by
  simp only [watching, Bool.and_eq_true, Bool.not_eq_true', and_assoc]

/-- R1080: the sample of the sensors of the die, where some sensor reads. -/
theorem sampleDie_of_watching {l : List Int} {s u : State} (hw : s.watching = true)
    (hu : u = s.forEach ((List.finRange 83).filter fun n => n.val < 82) fun n t =>
      match l[n.val]? with
      | some v => t.sampleSensor n v
      | none => t)
    (huw : u.watching = true) (hup : u.sup.power = .active) (hb : u.dieBlind = false) (htj : u.thermal.tj ≠ 0x8000) :
    sampleDie l s = ((u.noteTj u.thermal.tj.toInt).capSample u.thermal.tj.toInt).shutSample u.thermal.tj.toInt := by
  obtain ⟨hs, -, hr⟩ := s.watching_iff.1 hw
  have hgo : ¬(!s.supplied || s.boot.inReset) = true := by rw [hs, hr]; exact Bool.false_ne_true
  have hon : ¬(!u.watching || u.sup.power != .active) = true := by rw [huw, hup]; exact Bool.false_ne_true
  have hsees : ¬(u.dieBlind && !u.thermal.sensorCap) = true := by rw [hb]; exact Bool.false_ne_true
  unfold sampleDie
  rw [if_neg hgo]
  generalize hv : s.forEach _ _ = v
  obtain rfl : v = u := hv.symm.trans hu.symm
  dsimp only
  rw [if_neg hon, if_neg hsees, if_neg htj]

/-! ### The timers -/

/-- R1087: the samples of the next step are counted anew. -/
def Thermal.nextStep (due : Tick) (h : Thermal) : Thermal := { h with stepDue := due, allHot := true }

theorem stepExpires_of_capped {s : State} {d : Tick} (hw : s.watching = true) (hc : s.thermal.capped = true)
    (hs : s.thermal.sensorCap = false) (hd : (s.reach s.thermal.stepDue).tick + 16000000 = d) :
    stepExpires s = if s.thermal.allHot && decide (50 < s.plans.thermalCap.getD 50) then
        ((s.reach s.thermal.stepDue).modThermal (Thermal.nextStep d)).stepCap
          (planPower (fastestFitting (s.plans.thermalCap.getD 50 - 1)))
      else (s.reach s.thermal.stepDue).modThermal (Thermal.nextStep d) := by
  have hgo : ¬(!s.watching || !s.thermal.capped || s.thermal.sensorCap) = true := by
    rw [hw, hc, hs]
    exact Bool.false_ne_true
  unfold stepExpires
  dsimp only
  rw [if_neg hgo, hd]
  rfl

theorem State.stepCap_state (s : State) (cap : Nat) :
    (s.stepCap cap).plans.thermalCap = some cap ∧ ChangesOnly (Comp.allBut [.tick, .thermal]) s (s.stepCap cap) := by
  have hcaps : (s.stepCap cap).caps = State.caps { s with plans := { s.plans with thermalCap := some cap } } := by
    unfold stepCap
    rw [settlePlan_caps, sendThermalCap_caps, setThermalCap_caps]
  simp only [caps, Prod.mk.injEq] at hcaps
  exact ⟨hcaps.2.2.2.1, (by apply stepCap_only <;> simp : _ ↔ ChangesOnly _ s s).2 (.refl _ _)⟩

/-- R1087: the step timer lowers a cap which every sample since found hot. -/
theorem stepExpires_state {s : State} {d : Tick} (hw : s.watching = true) (hc : s.thermal.capped = true)
    (hs : s.thermal.sensorCap = false) (hd : (s.reach s.thermal.stepDue).tick + 16000000 = d) :
    s.thermal.stepDue ≤ (stepExpires s).tick ∧ (stepExpires s).thermal.capped = true ∧
      (stepExpires s).thermal.allHot = true ∧ (stepExpires s).thermal.stepDue = d ∧
      (stepExpires s).plans.thermalCap = if s.thermal.allHot = true ∧ 50 < s.plans.thermalCap.getD 50 then
        some (planPower (fastestFitting (s.plans.thermalCap.getD 50 - 1))) else s.plans.thermalCap := by
  rw [stepExpires_of_capped hw hc hs hd]
  clear hd
  have hdue := s.le_reach_tick s.thermal.stepDue
  have hframe := s.reach_frame s.thermal.stepDue
  have hthermal := hframe .thermal (by decide)
  have hplans := hframe .plans (by decide)
  generalize s.reach s.thermal.stepDue = t at *
  have hcapped : t.thermal.capped = true := (congrArg Thermal.capped hthermal).trans hc
  by_cases hhot : s.thermal.allHot = true ∧ 50 < s.plans.thermalCap.getD 50
  · obtain ⟨hcap, hstep⟩ := (t.modThermal (Thermal.nextStep d)).stepCap_state
      (planPower (fastestFitting (s.plans.thermalCap.getD 50 - 1)))
    rw [if_pos (by rw [hhot.1, decide_eq_true hhot.2]; rfl), if_pos hhot, hstep .tick (by decide),
      hstep .thermal (by decide)]
    exact ⟨hdue, hcapped, rfl, rfl, hcap⟩
  · rw [if_neg (by simpa using hhot), if_neg hhot]
    exact ⟨hdue, hcapped, rfl, rfl, congrArg Plans.thermalCap hplans⟩

theorem releaseExpires_of_capped {due : Tick} {s : State} (hd : s.thermal.releaseDue = some due) (hw : s.watching = true)
    (hc : s.thermal.capped = true) (hs : s.thermal.sensorCap = false) : due ≤ (releaseExpires s).tick ∧
      (releaseExpires s).thermal.capped = false ∧ (releaseExpires s).plans.thermalCap = none := by
  have hgo : ¬(!s.watching || !s.thermal.capped || s.thermal.sensorCap) = true := by
    rw [hw, hc, hs]
    exact Bool.false_ne_true
  have hframe : ∀ (u : State) (l : List FnNo) (a b : W64), ChangesOnly (Comp.allBut [.tick, .thermal]) u
      (((u.setThermalCap none).occurAll l 0x9002 a b).settlePlan true) := fun u l a b => by
    simp [settlePlan_only, occurAll_only, setThermalCap_only, changesOnly_self]
  have hcap : ∀ (u : State) (l : List FnNo) (a b : W64),
      (((u.setThermalCap none).occurAll l 0x9002 a b).settlePlan true).plans.thermalCap = none := fun u l a b => by
    have hoccur : ∀ v : State, (v.occurAll l 0x9002 a b).caps = v.caps := fun v =>
      State.caps_of_law (by apply occurAll_only <;> simp)
    have hcaps : (((u.setThermalCap none).occurAll l 0x9002 a b).settlePlan true).caps =
        State.caps { u with plans := { u.plans with thermalCap := none } } := by
      rw [State.settlePlan_caps, hoccur, State.setThermalCap_caps]
    simp only [State.caps, Prod.mk.injEq] at hcaps
    exact hcaps.2.2.2.1
  unfold releaseExpires
  rw [hd]
  dsimp only
  rw [if_neg hgo]
  refine ⟨?_, ?_, hcap _ _ _ _⟩
  · rw [hframe _ _ _ _ .tick (by decide)]
    exact s.le_reach_tick due
  · rw [hframe _ _ _ _ .thermal (by decide)]
    rfl

/-- Settles O20. -/
theorem powerPlansAndThermalCap : Obligations.PowerPlansAndThermalCap := by
  unfold Obligations.PowerPlansAndThermalCap
  refine ⟨fun p s hp => ?_, fun n v s hp hf hlo hhi hjump => ?_, fun n v s hp hf hv => ?_,
    fun v s hp hr hf hlo hhi hjump => ?_, fun l s u hw _ hu huw hup hb htj => ?_, fun s hw hc hs => ⟨_, rfl, stepExpires_state hw hc hs rfl⟩,
    fun due s hd hw hc hs => ⟨_, rfl, releaseExpires_of_capped hd hw hc hs⟩⟩
  · obtain ⟨hcaps, hinstalling⟩ := endInstall_plans hp
    simp only [State.caps, Prod.mk.injEq] at hcaps
    obtain ⟨hforce, hselected, hhost, -⟩ := hcaps
    exact ⟨_, rfl, hforce, hselected, hhost, hinstalling⟩
  · rw [State.sampleSensor_of_valid hp hf hlo hhi hjump]
    exact ⟨vmod_get _ _ _, vmod_get _ _ _, (modThermal_only _ _ (by decide)).2 (.refl _ _)⟩
  · rw [State.sampleSensor_of_wild hp hf hv, State.sensorFails_thermal]
    exact ⟨vmod_get _ _ _, getLsbD_or_one_shiftLeft _ n.isLt⟩
  · have hsampled : exec (.cardSensorSample v) s = .next (s.sampleSensor 82 v) := by
      refine congrArg Host.Outcome.next ?_
      rw [hp, hr]
      rfl
    have hon : s.sensorPowered 82 = true := hp
    rw [State.sampleSensor_of_valid hon hf hlo hhi hjump] at hsampled
    exact ⟨_, hsampled, vmod_get _ _ _, (modThermal_only _ _ (by decide)).2 (.refl _ _)⟩
  · obtain ⟨hcapped, hsensor, hreadings, hshut, hframe⟩ := u.noteTj_state u.thermal.tj.toInt
    have hboot := hframe .boot (by decide)
    have hplans := hframe .plans (by decide)
    have hsup := hframe .sup (by decide)
    obtain ⟨hs, hf, hr⟩ := u.watching_iff.1 huw
    refine ⟨_, congrArg Host.Outcome.next (sampleDie_of_watching hw hu huw hup hb htj), ?_⟩
    generalize u.noteTj u.thermal.tj.toInt = v at *
    generalize u.thermal.tj.toInt = tj at *
    obtain ⟨hreadings', hshut', hboot', hpower'⟩ := v.capSample_kept tj
    obtain ⟨hthermal, hplans'⟩ := (v.capSample tj).shutSample_state tj
    rw [hthermal, hplans']
    refine ⟨hreadings'.trans hreadings, fun h => ?_, fun h => ?_, fun h1 h2 => ?_, fun h1 h2 h => ?_, fun h hk => ?_⟩
    · exact (if_pos h).trans (by rw [hshut', hshut])
    · exact if_neg (Int.not_le.2 h)
    · exact (State.capSample_of_uncapped (hsensor.trans h1) (hcapped.trans h2)).1
    · rw [(State.capSample_of_uncapped (hsensor.trans h1) (hcapped.trans h2)).2 h]
      unfold State.nextSlower
      rw [hplans]
    · refine State.shutSample_fatal ?_ ?_ ?_ h ?_
      · unfold State.supplied at hs ⊢
        rw [hpower', hsup]
        exact hs
      · rw [hboot', hboot, hf]
      · rw [hboot', hboot, hr]
      · rw [hshut', hshut]
        exact hk

end Sys2Proof.Machine
end

section
/-!
PROOFS. A cause bit of a function stays 1 while records arise and commands complete (R240).
-/

namespace Sys2Proof.Machine

/-- The cause bits which are 1 in the first state are 1 in the second. -/
def CausesKept (s t : State) : Prop :=
  ∀ (n : FnNo) (b : Nat), s.fns[n].intCause.getLsbD b = true → t.fns[n].intCause.getLsbD b = true

theorem CausesKept.refl (s : State) : CausesKept s s := fun _ _ h => h

theorem CausesKept.trans {r s t : State} (h : CausesKept r s) (g : CausesKept s t) : CausesKept r t :=
  fun n b hr => g n b (h n b hr)

theorem CausesKept.of_fns {s t : State} (h : t.fns = s.fns) : CausesKept s t := fun _ _ hs => by rw [h]; exact hs

theorem CausesKept.of_only {ks : List Comp} {s t : State} (h : ChangesOnly ks s t) (hk : Comp.fns ∉ ks) :
    CausesKept s t := .of_fns (h .fns hk)

theorem CausesKept.forEach {α : Type} {f : α → State → State} (h : ∀ a t, CausesKept t (f a t)) (l : List α) (s : State) :
    CausesKept s (s.forEach l f) := by
  unfold State.forEach
  induction l generalizing s with
  | nil => exact .refl s
  | cons a l ih => exact (h a s).trans (ih (f a s))

theorem State.modFn_causesKept (s : State) (fn : FnNo) {f : Func → Func} (hf : ∀ g, (f g).intCause = g.intCause) :
    CausesKept s (s.modFn fn f) := fun n b h => by
  by_cases e : fn = n
  · subst e
    unfold modFn
    rw [vmod_get, hf, h]
  · unfold modFn
    rw [vmod_get_ne _ _ e, h]

theorem State.raise_causesKept (s : State) (fn : FnNo) (bits : BitVec 12) : CausesKept s (s.raise fn bits) :=
  fun n _ h => raise_keeps_bit s fn n bits h

theorem State.emit_causesKept (s : State) (e : Emit) : CausesKept s (s.emit e) := .of_only (s.emit_frame e) (by decide)

theorem State.writeRec_causesKept (s : State) (fn : FnNo) (r : EvRec) : CausesKept s (s.writeRec fn r) := by
  unfold writeRec
  refine CausesKept.trans (CausesKept.trans ?_ (emit_causesKept _ _)) (raise_causesKept _ _ _)
  exact s.modFn_causesKept fn fun _ => rfl

theorem State.writeHeld_causesKept (s : State) (fn : FnNo) (l : List EvRec) : CausesKept s (s.writeHeld fn l) := by
  induction l generalizing s with
  | nil => exact s.modFn_causesKept fn fun _ => rfl
  | cons r l ih =>
    unfold writeHeld
    split
    · exact (s.writeRec_causesKept fn r).trans (ih _)
    · exact s.modFn_causesKept fn fun _ => rfl

theorem State.trimHeld_causesKept (s : State) (fn : FnNo) : CausesKept s (s.trimHeld fn) := by
  unfold trimHeld
  dsimp only
  split
  · refine CausesKept.trans ?_ (raise_causesKept _ _ _)
    exact s.modFn_causesKept fn fun _ => rfl
  · exact .refl s

theorem State.sendRec_causesKept (s : State) (fn : FnNo) (r : EvRec) : CausesKept s (s.sendRec fn r) := by
  refine CausesKept.trans (CausesKept.trans ?_ (writeHeld_causesKept _ fn _)) (trimHeld_causesKept _ fn)
  exact (CausesKept.of_fns rfl).trans ((s.hitWaits fn r).modFn_causesKept fn fun _ => rfl)

theorem State.occur_causesKept (s : State) (n : FnNo) (e : W16) (a b : W64) : CausesKept s (s.occur n e a b) :=
  sendRec_causesKept _ _ _

theorem State.occurAll_causesKept (s : State) (l : List FnNo) (e : W16) (a b : W64) : CausesKept s (s.occurAll l e a b) :=
  .forEach (fun n t => t.occur_causesKept n e a b) _ _

theorem State.complete_causesKept (s : State) (id : Nat) (st d : W16) (r0 r1 : W64) (data : BitVec 192) :
    CausesKept s (s.complete id st d r0 r1 data) := by
  unfold complete
  split
  · exact .refl s
  · dsimp only
    refine CausesKept.trans ?_ (sendRec_causesKept _ _ _)
    split
    · refine CausesKept.trans (s := { s with outst := _ }) (.of_fns rfl) (modFn_causesKept _ _ fun _ => rfl)
    · exact .of_fns rfl

end Sys2Proof.Machine
end

section
/-!
PROOFS. Refreshes of the status panel (R448, R1070 to R1079).
-/

namespace Sys2Proof.Machine

/-! ### The journal entry of a refresh -/

/-- The panel's record without what a rewritten journal entry renumbers. -/
def Panel.unnumbered (p : Panel) : Panel := { p with refresh := none, redraw := none }

/-- The journal entries stay, and of the panel's record only the numbers of its entries change. -/
structure JournalKept (s t : State) : Prop where
  entries : ∀ e ∈ s.nv.journal, e ∈ t.nv.journal
  panel : t.panel.unnumbered = s.panel.unnumbered
  tick : t.tick = s.tick

theorem JournalKept.trans {r s t : State} (h : JournalKept r s) (g : JournalKept s t) : JournalKept r t :=
  ⟨fun e he => g.entries e (h.entries e he), g.panel.trans h.panel, g.tick.trans h.tick⟩

theorem JournalKept.forEach {α : Type} {f : α → State → State} (h : ∀ a t, JournalKept t (f a t)) (l : List α)
    (s : State) : JournalKept s (s.forEach l f) := by
  unfold State.forEach
  induction l generalizing s with
  | nil => exact ⟨fun _ h => h, rfl, rfl⟩
  | cons a l ih => exact (h a s).trans (ih (f a s))

/-- R1047, R1050: the entry which is written stands in the journal under the number answered. -/
theorem State.journal_entry (s : State) (e : JEntry) :
    { e with seq := s.nv.nextEntry } ∈ (s.journal e).1.nv.journal ∧ (s.journal e).2 = s.nv.nextEntry ∧
      (s.journal e).1.panel.unnumbered = s.panel.unnumbered ∧ (s.journal e).1.tick = s.tick := by
  have hput : { e with seq := s.nv.nextEntry } ∈ (s.putEntry e).nv.journal :=
    List.mem_append_right _ (List.mem_singleton.2 rfl)
  unfold journal
  dsimp only
  split
  · have hmove : ∀ (x : JEntry) (v : State), JournalKept v ((v.moveEntry x.seq v.nv.nextEntry).putEntry x) := fun x v =>
      ⟨fun _ he => List.mem_append_left _ he, rfl, rfl⟩
    have hsector : (s.nv.nextEntry / 64 % 64 != (s.nv.nextEntry / 64 + 1) % 64) = true := bne_iff_ne.2 (by omega)
    have hall := fun l v => JournalKept.forEach hmove l v
    exact ⟨(hall _ _).entries _ (List.mem_filter.2 ⟨hput, hsector⟩), rfl, (hall _ _).panel, (hall _ _).tick⟩
  · exact ⟨hput, rfl, rfl, rfl⟩

/-- R1070: a refresh which begins stores its image in the other slot and is journalled. -/
theorem State.beginRefresh_state (s : State) (px : BitVec 23680) (opcode : BitVec 8) (ref : Nat) :
    ∃ r, (s.beginRefresh px opcode ref).panel.refresh = some r ∧ r.opcode = opcode ∧ r.phases = 0 ∧ r.stop = false ∧
      r.slot = 1 - s.panel.lastSlot ∧ (s.beginRefresh px opcode ref).panel.lastSlot = r.slot ∧
      (s.beginRefresh px opcode ref).panel.pixels = s.panel.pixels ∧
      (s.beginRefresh px opcode ref).panel.draws = s.panel.draws ∧
      (s.beginRefresh px opcode ref).panel.changed = none ∧ (s.beginRefresh px opcode ref).tick = s.tick ∧
      ∃ e ∈ (s.beginRefresh px opcode ref).nv.journal, e.seq = r.entry ∧ e.kind = 2 ∧ e.done = 0xFF := by
  have hemit : ∀ t : State, ChangesOnly [.out] t (t.emit (.panel 0)) := fun t => t.emit_frame _
  unfold beginRefresh
  dsimp only
  obtain ⟨hmem, hseq, hpanel, htick⟩ := (s.storeImage ((1 - s.panel.lastSlot) * 0x8000) px).journal_entry
    { seq := 0, kind := 2, done := 0xFF, opcode, region := 6, tick := (s.storeImage ((1 - s.panel.lastSlot) * 0x8000) px).tick,
      offset := (1 - s.panel.lastSlot) * 0x8000, len := 0, ref }
  generalize State.journal _ _ = j at hmem hseq hpanel htick ⊢
  rw [hemit _ .panel (by decide), hemit _ .tick (by decide), hemit _ .nv (by decide)]
  exact ⟨_, rfl, rfl, rfl, rfl, rfl, rfl, (congrArg Panel.pixels hpanel :), (congrArg Panel.draws hpanel :),
    rfl, htick, _, hmem, hseq.symm, rfl, rfl⟩

/-! ### The draws which a refresh carries -/

/-- R1071: a bitmap is applied, and the refresh carries its draw. -/
def Panel.carry (d : Draw) (p : Panel) : Panel :=
  { p with
    pixels := drawRegion p.pixels d.region d.bitmap
    touched := p.touched ||| (1#10 <<< d.region)
    draws := p.draws.map fun x => if x.id = d.id then { x with carried := true } else x }

/-- R1071: every draw which waited is carried. -/
theorem State.carryDraws_carried (s : State) : ∀ d ∈ s.carryDraws.panel.draws, d.carried = true := by
  have hfold : ∀ (l : List Draw) (t : State), (∀ d ∈ t.panel.draws, d.carried = false → d.id ∈ l.map Draw.id) →
      ∀ d ∈ (l.foldl (fun t d => t.modPanel (Panel.carry d)) t).panel.draws, d.carried = true := by
    intro l
    induction l with
    | nil => exact fun t h d hd => eq_true_of_ne_false fun hc => absurd (h d hd hc) List.not_mem_nil
    | cons a l ih =>
      refine fun t h => ih (t.modPanel (Panel.carry a)) fun d hd hc => ?_
      obtain ⟨x, hx, rfl⟩ := List.mem_map.1 hd
      split at hc
      · exact absurd hc.symm Bool.false_ne_true
      next hne =>
        rw [if_neg hne]
        rcases List.mem_cons.1 (h x hx hc) with hid | hmem
        · exact absurd hid hne
        · exact hmem
  refine hfold (s.panel.draws.filter fun d => !d.carried) s fun d hd hc => ?_
  exact List.mem_map_of_mem (List.mem_filter.2 ⟨hd, by rw [hc]; rfl⟩)

theorem State.carryDraws_panel (s : State) : ChangesOnly [.panel] s s.carryDraws ∧
    s.carryDraws.panel.lastSlot = s.panel.lastSlot := by
  refine ⟨(by apply carryDraws_only; decide : _ ↔ ChangesOnly _ s s).2 (.refl _ _), ?_⟩
  unfold carryDraws forEach
  generalize s.panel.draws.filter _ = l
  induction l generalizing s with
  | nil => rfl
  | cons d l ih => exact (ih _).trans rfl

/-- Of the panel's record only the pauses of its draws change. -/
structure Resumed (s t : State) : Prop where
  nv : t.nv = s.nv
  tick : t.tick = s.tick
  panel : { t.panel with draws := [] } = { s.panel with draws := [] }
  carried : (∀ d ∈ s.panel.draws, d.carried = true) → ∀ d ∈ t.panel.draws, d.carried = true

theorem Resumed.trans {r s t : State} (h : Resumed r s) (g : Resumed s t) : Resumed r t :=
  ⟨g.nv.trans h.nv, g.tick.trans h.tick, g.panel.trans h.panel, fun hr => g.carried (h.carried hr)⟩

theorem State.resumeDraws_resumed (s : State) : Resumed s s.resumeDraws := by
  have hoccur : ∀ (t : State) (n : FnNo) (a b : W64), ChangesOnly [.fns, .out, .waits] t (t.occur n 0x6008 a b) :=
    fun t n a b => (by apply occur_only <;> decide : _ ↔ ChangesOnly _ t t).2 (.refl _ _)
  have hstep : ∀ (d : Draw) (t : State), Resumed t ((t.modPanel fun q => { q with
      draws := q.draws.map fun x => if x.id = d.id then { x with paused := none } else x }).occur d.fn 0x6008
      (nvEvent 0xC0 d.qp d.tag) (t.tick - d.paused.getD 0)) := fun d t => by
    have hframe := hoccur (t.modPanel fun q => { q with
      draws := q.draws.map fun x => if x.id = d.id then { x with paused := none } else x }) d.fn (nvEvent 0xC0 d.qp d.tag)
      (t.tick - d.paused.getD 0)
    refine ⟨hframe .nv (by decide), hframe .tick (by decide), ?_, fun h x hx => ?_⟩
    · rw [hframe .panel (by decide)]
      rfl
    · rw [hframe .panel (by decide)] at hx
      obtain ⟨y, hy, rfl⟩ := List.mem_map.1 hx
      split
      · exact h y hy
      · exact h y hy
  unfold resumeDraws forEach
  generalize s.panel.draws.filter _ = l
  induction l generalizing s with
  | nil => exact ⟨rfl, rfl, rfl, fun h => h⟩
  | cons d l ih => exact (hstep d s).trans (ih _)

/-! ### The end of a refresh -/

theorem State.setDone_done (s : State) (seq : Nat) (done : BitVec 8) :
    ∀ e ∈ (s.setDone seq done).nv.journal, e.seq = seq → e.done = done := by
  intro e he hs
  obtain ⟨x, -, rfl⟩ := List.mem_map.1 he
  split at hs
  next h => rw [if_pos h]
  next h => exact absurd hs h

theorem causePanel_valid : (causeValid 0).getLsbD 9 = true := by decide

/-- R1070, R1075: a refresh which completes, before its notices. -/
def State.refreshCounted (s : State) (r : Refresh) : State :=
  (s.setDone r.entry 0).modPanel fun p => { p with
    refresh := none, count := p.count + 1, glyph := r.opcode == 3, draws := p.draws.filter fun d => !d.carried }

theorem State.refreshDone_state (s : State) (r : Refresh) :
    ChangesOnly [.waits, .fns, .outst, .out] (s.refreshCounted r) (s.refreshDone r) ∧
      (s.refreshDone r).fns[0].intCause.getLsbD 9 = true ∧
      ∀ d ∈ s.panel.draws, d.carried = true → ∀ o ∈ (s.refreshDone r).outst, o.id ≠ d.id := by
  have hraise : ∀ t : State, ChangesOnly [.fns, .out] t (t.raise 0 causePanel) := fun t => t.raise_frame 0 causePanel
  have hdone : ∃ (l : List FnNo) (a b : W64), s.refreshDone r =
      (((s.refreshCounted r).raise 0 causePanel).occurAll l 0xC000 a b).forEach (s.panel.draws.filter fun d => d.carried)
        fun d u => u.completeOk d.id 0 0 := ⟨_, _, _, rfl⟩
  obtain ⟨l, a, b, hdone⟩ := hdone
  rw [hdone]
  refine ⟨?_, ?_, fun d hd hc => ?_⟩
  · refine ((hraise _).mono (by simp)).trans (((State.occurAll_frame _ l 0xC000 a b).mono (by simp)).trans ?_)
    exact (forEach_only (fun d u => by apply completeOk_only <;> decide) _ _).2 (.refl _ _)
  · exact (CausesKept.trans (occurAll_causesKept _ l 0xC000 a b)
      (.forEach (fun d u => complete_causesKept u _ _ _ _ _ _) _ _)) 0 9 (raise_sets_bit _ 0 rfl causePanel_valid)
  · exact forEach_establishes (P := fun t => ∀ o ∈ t.outst, o.id ≠ d.id) (List.mem_filter.2 ⟨hd, hc⟩)
      (fun _ => not_mem_complete_outst) (fun _ v h => (complete_outstShrinks v _ _ _ _ _ _).not_mem h) _

/-- R79, R1077: a refresh which was stopped, before its notices. -/
def State.refreshHalted (s : State) (r : Refresh) : State :=
  (s.setDone r.entry 0x5A).modPanel fun p => { p with
    refresh := none, redraw := some r.entry, pending := true, touched := p.touched ||| r.regions }

/-- Of the panel's record only its draws change, and the cause bits stay. -/
structure Paused (s t : State) : Prop where
  nv : t.nv = s.nv
  panel : { t.panel with draws := [] } = { s.panel with draws := [] }
  causes : CausesKept s t

theorem State.pauseDraws_paused (s : State) (p : Draw → Bool) : Paused s (s.pauseDraws p) := by
  have hoccur : ∀ (t : State) (n : FnNo) (a : W64), ChangesOnly [.fns, .out, .waits] t (t.occur n 0x6007 a 0) :=
    fun t n a => (by apply occur_only <;> decide : _ ↔ ChangesOnly _ t t).2 (.refl _ _)
  unfold pauseDraws forEach
  generalize s.panel.draws.filter _ = l
  induction l generalizing s with
  | nil => exact ⟨rfl, rfl, .refl s⟩
  | cons d l ih =>
    refine ⟨(ih _).nv.trans (hoccur _ _ _ .nv (by decide)), (ih _).panel.trans ?_, CausesKept.trans ?_ (ih _).causes⟩
    · rw [hoccur _ _ _ .panel (by decide)]
      rfl
    · refine CausesKept.trans ?_ (occur_causesKept _ _ _ _ _)
      exact .of_fns rfl

theorem State.refreshStopped_state (s : State) (r : Refresh) :
    (s.refreshStopped r).nv = (s.refreshHalted r).nv ∧
      { (s.refreshStopped r).panel with draws := [] } = { (s.refreshHalted r).panel with draws := [] } ∧
      (s.refreshStopped r).fns[0].intCause.getLsbD 9 = true := by
  obtain ⟨l, a, b, hstopped⟩ : ∃ (l : List FnNo) (a b : W64), s.refreshStopped r =
      (((s.refreshHalted r).raise 0 causePanel).occurAll l 0xC001 a b).pauseDraws fun d => d.carried := ⟨_, _, _, rfl⟩
  have htold : ChangesOnly [.fns, .out, .waits] (s.refreshHalted r)
      (((s.refreshHalted r).raise 0 causePanel).occurAll l 0xC001 a b) :=
    ((State.raise_frame _ 0 causePanel).mono (by simp)).trans (State.occurAll_frame _ l 0xC001 a b)
  have hset := raise_sets_bit (s.refreshHalted r) 0 (bits := causePanel) (b := 9) rfl causePanel_valid
  have hkept := occurAll_causesKept ((s.refreshHalted r).raise 0 causePanel) l 0xC001 a b
  rw [hstopped]
  obtain ⟨hnv, hpanel, hcauses⟩ :=
    (((s.refreshHalted r).raise 0 causePanel).occurAll l 0xC001 a b).pauseDraws_paused fun d => d.carried
  refine ⟨hnv.trans (htold .nv (by decide)), hpanel.trans ?_, hcauses 0 9 (hkept 0 9 hset)⟩
  rw [htold .panel (by decide)]

/-! ### The commands -/

theorem phaseEnds_of_refresh {s : State} {r : Refresh} (hr : s.panel.refresh = some r) (hn : s.nvRuns = true) :
    phaseEnds s = if r.stop then s.refreshStopped { r with phases := r.phases + 1 }
      else if r.phases + 1 = 8 then s.refreshDone { r with phases := r.phases + 1 }
      else (s.modPanel fun p => { p with refresh := some { r with phases := r.phases + 1 } }).emit (.panel (r.phases + 1)) := by
  unfold phaseEnds
  rw [hr]
  dsimp only
  rw [if_neg (by rw [hn]; exact Bool.false_ne_true)]

theorem startRefresh_of_idle {s : State} (hr : s.panel.refresh = none) (hn : s.nvRuns = true) (hd : s.panel.redraw = none)
    (hg : s.gate = true) : startRefresh s =
      if s.panel.draws.any fun d => !d.carried then (s.carryDraws.beginRefresh s.carryDraws.panel.pixels 1 0).resumeDraws
      else if s.panel.due then s.beginRefresh s.panel.pixels 2 0 else s := by
  have hgo : ¬(s.panel.refresh.isSome || !s.nvRuns) = true := by rw [hr, hn]; exact Bool.false_ne_true
  have hno : ¬s.panel.redraw.isSome = true := by rw [hd]; exact Bool.false_ne_true
  have hopen : ¬(!s.gate) = true := by rw [hg]; exact Bool.false_ne_true
  unfold startRefresh
  rw [if_neg hgo, if_neg hno, if_neg hopen, hg, Bool.and_true]

theorem State.nvRuns_of_sup {s t : State} (hs : t.sup = s.sup) (hb : t.boot = s.boot) : t.nvRuns = s.nvRuns := by
  unfold nvRuns
  rw [hs, hb]

theorem State.gate_of_sup {s t : State} (hs : t.sup = s.sup) : t.gate = s.gate := by
  unfold gate
  rw [hs]

theorem identityTimer_of_changed {s : State} {since due : Tick} (hc : s.panel.changed = some since)
    (hdue : since + 8000000000 = due) :
    identityTimer s = startRefresh ((s.reach due).modPanel fun p => { p with due := true }) := by
  unfold identityTimer
  rw [hc]
  dsimp only
  rw [hdue]

/-- R1073: ten seconds after the first change of the supervisor's own regions their refresh begins. -/
theorem identityTimer_begins {s : State} {since due : Tick} (hc : s.panel.changed = some since)
    (hdue : since + 8000000000 = due) (hr : s.panel.refresh = none) (hn : s.nvRuns = true) (hd : s.panel.redraw = none)
    (hg : s.gate = true) (hall : ∀ d ∈ s.panel.draws, d.carried = true) :
    ∃ t r, exec .identityChangeTimer s = .next t ∧ t.panel.refresh = some r ∧ r.opcode = 2 ∧
      t.panel.pixels = s.panel.pixels ∧ t.panel.changed = none ∧ due ≤ t.tick := by
  have hstart : exec .identityChangeTimer s = .next _ := congrArg Host.Outcome.next (identityTimer_of_changed hc hdue)
  clear hdue
  have hframe := s.reach_frame due
  have hreached := s.le_reach_tick due
  generalize s.reach due = u at *
  have hpanel := hframe .panel (by decide)
  generalize hv : (u.modPanel fun p => { p with due := true }) = v at hstart
  have hsup : v.sup = s.sup := hv ▸ hframe .sup (by decide)
  have hboot : v.boot = s.boot := hv ▸ hframe .boot (by decide)
  have hvpanel : v.panel = { s.panel with due := true } := by
    rw [← hv, ← hpanel]
    rfl
  have hidle : ¬(v.panel.draws.any fun d => !d.carried) = true := by
    rw [hvpanel, List.any_eq_false.2 fun d hm => by rw [hall d hm]; exact Bool.false_ne_true]
    exact Bool.false_ne_true
  have hbegun := startRefresh_of_idle (s := v) (by rw [hvpanel, hr]) (by rw [State.nvRuns_of_sup hsup hboot, hn])
    (by rw [hvpanel, hd]) (by rw [State.gate_of_sup hsup, hg])
  rw [if_neg hidle, if_pos (by rw [hvpanel])] at hbegun
  obtain ⟨r, hrefresh, hop, -, -, -, -, hpixels, -, hchanged, htick, -⟩ := v.beginRefresh_state v.panel.pixels 2 0
  refine ⟨_, r, hstart.trans (congrArg Host.Outcome.next hbegun), hrefresh, hop, hpixels.trans (by rw [hvpanel]), hchanged, ?_⟩
  rw [htick, ← hv]
  exact hreached

/-- Settles O30. -/
theorem panelRefresh : Obligations.PanelRefresh := by
  unfold Obligations.PanelRefresh
  refine ⟨fun s hr hn hd hg hdraw => ?_, fun since s hc hr hn hd hg hall => ?_, fun r s hr hn hs hp => ?_,
    fun r s hr hn hs hp => ?_, fun r s hr hn hs => ?_⟩
  · obtain ⟨d, hmem, hwaits⟩ := hdraw
    have hany : (s.panel.draws.any fun d => !d.carried) = true := List.any_eq_true.2 ⟨d, hmem, by rw [hwaits]; rfl⟩
    obtain ⟨-, hslot⟩ := s.carryDraws_panel
    obtain ⟨r, hrefresh, hop, hphases, hstop, hrslot, hlast, hpixels, hdraws, -, -, e, he, hentry⟩ :=
      s.carryDraws.beginRefresh_state s.carryDraws.panel.pixels 1 0
    have hresumed := (s.carryDraws.beginRefresh s.carryDraws.panel.pixels 1 0).resumeDraws_resumed
    have hpanel := hresumed.panel
    refine ⟨_, r, congrArg Host.Outcome.next ((startRefresh_of_idle hr hn hd hg).trans (if_pos hany)), ?_, hop, hphases, hstop,
      hrslot.trans (by rw [hslot]), ?_, ?_, hresumed.carried ?_, e, ?_, hentry⟩
    · exact (congrArg Panel.refresh hpanel :).trans hrefresh
    · exact (congrArg Panel.lastSlot hpanel :).trans hlast
    · exact (congrArg Panel.pixels hpanel :).trans hpixels
    · rw [hdraws]
      exact s.carryDraws_carried
    · rw [hresumed.nv]
      exact he
  · exact identityTimer_begins hc rfl hr hn hd hg hall
  · exact congrArg Host.Outcome.next ((phaseEnds_of_refresh hr hn).trans
      ((if_neg (by rw [hs]; exact Bool.false_ne_true)).trans (if_neg (by omega))))
  · obtain ⟨hframe, hbit, hgone⟩ := s.refreshDone_state { r with phases := r.phases + 1 }
    have hpanel := hframe .panel (by decide)
    refine ⟨_, congrArg Host.Outcome.next ((phaseEnds_of_refresh hr hn).trans
      ((if_neg (by rw [hs]; exact Bool.false_ne_true)).trans (if_pos (by omega)))), ?_, ?_, ?_, ?_, hbit, ?_, hgone⟩
    · exact (congrArg Panel.refresh hpanel :)
    · exact (congrArg Panel.count hpanel :)
    · exact (congrArg Panel.glyph hpanel :)
    · exact (congrArg Panel.draws hpanel :)
    · rw [hframe .nv (by decide)]
      exact s.setDone_done r.entry 0
  · obtain ⟨hnv, hpanel, hbit⟩ := s.refreshStopped_state { r with phases := r.phases + 1 }
    refine ⟨_, congrArg Host.Outcome.next ((phaseEnds_of_refresh hr hn).trans (if_pos hs)), ?_, ?_, ?_, ?_, hbit, ?_⟩
    · exact (congrArg Panel.refresh hpanel :)
    · exact (congrArg Panel.redraw hpanel :)
    · exact (congrArg Panel.pending hpanel :)
    · exact (congrArg Panel.count hpanel :)
    · rw [hnv]
      exact s.setDone_done r.entry 0x5A

end Sys2Proof.Machine
end

section
/-!
PROOFS. Sags, the supply gate and the bank (R69, R76 to R79, R83, R84, R87).
-/

namespace Sys2Proof.Machine

/-! ### Flash commands which pause and resume -/

theorem State.forEach_keeps {α : Type} {f : α → State → State} {P : State → Prop} (h : ∀ a t, P t → P (f a t)) (l : List α)
    (s : State) (hs : P s) : P (s.forEach l f) := by
  unfold forEach
  induction l generalizing s with
  | nil => exact hs
  | cons a l ih => exact ih _ (h a s hs)

/-- R1047: while no sector is to be erased again, the journal schedules none. -/
theorem State.journal_reerase {s : State} (e : JEntry) (h : s.nv.reerase = []) : (s.journal e).1.nv.reerase = [] := by
  have hmove : ∀ (x : JEntry) (t : State), t.nv.reerase = [] →
      ((t.moveEntry x.seq t.nv.nextEntry).putEntry x).nv.reerase = [] := fun x t ht => by
    show t.nv.reerase.map _ = []
    rw [ht]
    rfl
  unfold journal
  dsimp only
  split
  · exact forEach_keeps (P := fun t => t.nv.reerase = []) hmove _ _ h
  · exact h

theorem State.modFront_reerase (s : State) (f : NvOp → NvOp) : (s.modFront f).nv.reerase = s.nv.reerase := by
  unfold modFront
  split <;> rfl

theorem State.beginFront_reerase {s : State} (h : s.nv.reerase = []) : s.beginFront.nv.reerase = [] := by
  unfold beginFront
  split
  · exact h
  · dsimp only
    split
    · rw [modFront_reerase, h]
    · rw [modFront_reerase]
      exact journal_reerase _ (by rw [modFront_reerase, h])

/-- R76: the front operation is paused no longer, and no erase is scheduled. -/
theorem State.resumeFront_state {s : State} (h : s.nv.reerase = []) :
    s.resumeFront.nv.reerase = [] ∧ ∀ o, s.resumeFront.nv.ops.head? = some o → o.paused = none := by
  have hoccur : ∀ (t : State) (n : FnNo) (a b : W64), (t.occur n 0x6008 a b).nv = t.nv := fun t n a b =>
    (show ChangesOnly [.fns, .out, .waits] t (t.occur n 0x6008 a b) from
      (by apply occur_only <;> decide : _ ↔ ChangesOnly _ t t).2 (.refl _ _)) .nv (by decide)
  unfold resumeFront
  split
  next hempty => exact ⟨h, fun o ho => by rw [hempty] at ho; cases ho⟩
  next o r hops =>
    split
    next hp =>
      refine ⟨h, fun x hx => ?_⟩
      rw [hops] at hx
      rw [← Option.some.inj hx, hp]
    next since hp =>
      dsimp only
      generalize hu : State.occur _ _ _ _ _ = u
      have hnv : u.nv = (s.modFront fun x => { x with paused := none, eraseCut := false }).nv := hu ▸ hoccur _ _ _ _
      have hfront : u.nv.ops = { o with paused := none, eraseCut := false } :: r := by rw [hnv, modFront_ops _ hops]
      have hnone : u.nv.reerase = [] := by rw [hnv, modFront_reerase, h]
      split
      · obtain ⟨x, hx, -, -, -, hpaused, -⟩ := beginFront_head hfront
        refine ⟨beginFront_reerase hnone, fun y hy => ?_⟩
        rw [hx] at hy
        rw [← Option.some.inj hy, hpaused]
      · refine ⟨hnone, fun y hy => ?_⟩
        rw [hfront] at hy
        rw [← Option.some.inj hy]

/-- R76, R78, R1063: a gate which opens leaves no record held and no erase scheduled. -/
theorem gateOpens_state {v : Volts} {s : State} (hs : s.supplied = true) (hg : (s.measure v).gate = true)
    (hr : s.boot.inReset = false) : (gateOpens v s).faults.held = [] ∧ (gateOpens v s).nv.reerase = [] ∧
      ∀ o, (gateOpens v s).nv.ops.head? = some o → o.paused = none := by
  have hheld : (s.measure v).commitFaults.faults.held = [] := by
    unfold State.commitFaults
    rw [if_pos hg]
  obtain ⟨t, ht, hopen⟩ : ∃ t : State, ChangesOnly [.nv] (s.measure v).commitFaults t ∧
      gateOpens v s = t.runReerase.resumeFront := by
    refine ⟨if (s.measure v).commitFaults.nv.systemHeld then (s.measure v).commitFaults.recordSystem
      else (s.measure v).commitFaults, ?_, ?_⟩
    · split
      · exact (by apply recordSystem_only; decide : _ ↔ ChangesOnly _ _ _).2 (.refl _ _)
      · exact .refl _ _
    · have hgo : ¬(!(s.measure v).gate || (s.measure v).boot.inReset) = true := by
        rw [hg, show (s.measure v).boot.inReset = false from hr]
        exact Bool.false_ne_true
      unfold gateOpens
      dsimp only
      rw [if_neg (by rw [hs]; exact Bool.false_ne_true), if_neg hgo]
  have hcommit : ChangesOnly [.faults, .telem] (s.measure v) (s.measure v).commitFaults :=
    (by apply commitFaults_only <;> decide : _ ↔ ChangesOnly _ _ (s.measure v)).2 (.refl _ _)
  have htgate : t.gate = true := (State.gate_of_sup (Eq.trans (ht .sup (by decide)) (hcommit .sup (by decide)))).trans hg
  have hrun : ChangesOnly [.nv] t t.runReerase := (by apply runReerase_only; decide : _ ↔ ChangesOnly _ t t).2 (.refl _ _)
  have hresume : ChangesOnly (Comp.allBut [.faults]) t.runReerase t.runReerase.resumeFront :=
    (by apply resumeFront_only <;> simp : _ ↔ ChangesOnly _ _ t.runReerase).2 (.refl _ _)
  have hnone : t.runReerase.nv.reerase = [] := by
    unfold State.runReerase
    rw [if_neg (by rw [htgate]; exact Bool.false_ne_true)]
  obtain ⟨hreerase, hpaused⟩ := State.resumeFront_state hnone
  rw [hopen]
  refine ⟨?_, hreerase, hpaused⟩
  rw [hresume .faults (by decide), hrun .faults (by decide), ht .faults (by decide), hheld]

/-! ### A pause which has lasted -/

theorem State.endNv_ops (x : State × Nat) (o : NvOp) : ∀ p ∈ (State.endNv x o).1.nv.ops, p.id ≠ o.id := by
  have hdrop : ∀ (y : State × Nat) (k : Nat), ∀ p ∈ (State.dropNv y o k).1.nv.ops, p.id ≠ o.id := fun y k p hp =>
    bne_iff_ne.1 (List.mem_filter.1 hp).2
  unfold endNv
  split
  · exact hdrop _ _
  · split
    · split <;> exact hdrop _ _
    · split <;> exact hdrop _ _
    · exact hdrop _ _

/-- R77: the command whose pause has lasted ends, and is no flash command any more. -/
theorem State.frontTimedOut_gone (s : State) (o : NvOp) : (∀ x ∈ (s.frontTimedOut o).nv.ops, x.id ≠ o.id) ∧
    (∀ x ∈ (s.frontTimedOut o).outst, x.id ≠ o.id) ∧ (s.frontTimedOut o).tick = s.tick := by
  have hend : ChangesOnly [.free, .nv, .panel] s (State.endNv (s, allWrites) o).1 :=
    (by apply endNv_only <;> decide : _ ↔ ChangesOnly _ s s).2 (.refl _ _)
  have hcomplete := (State.endNv (s, allWrites) o).1.complete_frame o.id stSupplyLow 0 0 0 (s.supplyStatus.setWidth 192)
  refine ⟨?_, not_mem_complete_outst, Eq.trans (hcomplete .tick (by decide)) (hend .tick (by decide))⟩
  unfold frontTimedOut
  dsimp only
  rw [hcomplete .nv (by decide)]
  exact State.endNv_ops _ o

theorem pauseEnds_of_front {s : State} {o : NvOp} {r : List NvOp} {since due : Tick} (hg : s.gate = false)
    (hs : s.supplied = true) (hr : s.boot.inReset = false) (ho : s.nv.ops = o :: r) (hp : o.paused = some since)
    (hd : s.panel.draws = []) (hdue : since + 8000000000 = due) : pauseEnds s = (s.reach due).frontTimedOut o := by
  have hgo : ¬(s.gate || !s.supplied || s.boot.inReset) = true := by rw [hg, hs, hr]; exact Bool.false_ne_true
  unfold pauseEnds
  rw [if_neg hgo, ho, hd, List.head?_cons, Option.bind_some, hp, Option.map_some]
  dsimp only [List.filterMap_nil, List.foldl_nil]
  rw [hdue]

/-! ### Sags -/

/-- R79, R87: a sag which begins with more than 20 % in the bank stops the refresh under way, and no more of the panel. -/
theorem sagBegins_of_charged {v : Volts} {s : State} (hs : s.supplied = true) (hn : s.sup.sag = none)
    (hlow : (if s.sup.onAux then v.aux else v.main) < 1000) (hc : 20 < v.charge) :
    (sagBegins v s).sup = { (s.measure v).sup with sag := some s.tick } ∧
      ∃ p : Panel, (sagBegins v s).panel = { p with refresh := p.refresh.map fun r => { r with stop := true } } := by
  have hgo : ¬(!s.supplied || s.sup.sag.isSome || !decide ((s.measure v).sup.active < 1000)) = true := by
    rw [hs, hn, show decide ((s.measure v).sup.active < 1000) = true from decide_eq_true hlow]
    exact Bool.false_ne_true
  obtain ⟨u, hu, hsag⟩ : ∃ u : State, u.sup = { (s.measure v).sup with sag := some s.tick } ∧
      sagBegins v s = u.stopRefresh.bankLow := by
    refine ⟨(((s.measure v).modSup fun p => { p with sag := some s.tick }).occur 0 0x6004
      (BitVec.ofNat 64 (s.measure v).sup.active) (BitVec.ofNat 64 (s.measure v).sup.charge)).suspendErase, ?_, ?_⟩
    · have h : ∀ (t : State) (a b : W64), ChangesOnly (Comp.allBut [.sup]) t ((t.occur 0 0x6004 a b).suspendErase) :=
        fun t a b => by simp [suspendErase_only, occur_only, changesOnly_self]
      exact h _ _ _ .sup (by decide)
    · unfold sagBegins
      dsimp only
      rw [if_neg hgo]
  have hfull : ¬(u.stopRefresh.supplied && decide (u.stopRefresh.sup.active < 1000) &&
      decide (u.stopRefresh.sup.charge ≤ 20)) = true := by
    have hcharge : u.stopRefresh.sup.charge = min 100 v.charge := congrArg Supply.charge hu
    rw [hcharge, decide_eq_false (by omega : ¬min 100 v.charge ≤ 20), Bool.and_false]
    exact Bool.false_ne_true
  have hbank : u.stopRefresh.bankLow = u.stopRefresh := if_neg hfull
  rw [hsag, hbank]
  exact ⟨hu, u.panel, rfl⟩

/-! ### HIF_SUPPLY_STATUS -/

theorem bit_dvd (b : Bool) {i : Nat} (h : 13 ≤ i) : ∃ k, (if b then 2 ^ i else 0) = 8192 * k := by
  cases b
  · exact ⟨0, rfl⟩
  · exact Nat.pow_dvd_pow 2 h

/-- R83: the fields of HIF_SUPPLY_STATUS leave bit 12 to SWITCHED. -/
theorem State.supplyFields_bit12 (s : State) : s.supplyFields.getLsbD 12 = false := by
  obtain ⟨k20, h20⟩ := bit_dvd s.sup.holdupFault (i := 20) (by decide)
  obtain ⟨k19, h19⟩ := bit_dvd s.gate (i := 19) (by decide)
  obtain ⟨k18, h18⟩ := bit_dvd s.sup.sag.isSome (i := 18) (by decide)
  obtain ⟨k17, h17⟩ := bit_dvd s.sup.cap70 (i := 17) (by decide)
  obtain ⟨k16, h16⟩ := bit_dvd s.sup.onAux (i := 16) (by decide)
  obtain ⟨k15, h15⟩ := bit_dvd (!s.sup.mainLow) (i := 15) (by decide)
  obtain ⟨k14, h14⟩ := bit_dvd (!s.sup.auxLow) (i := 14) (by decide)
  obtain ⟨k13, h13⟩ := bit_dvd s.sup.mainQual (i := 13) (by decide)
  unfold supplyFields
  dsimp only
  rw [h20, h19, h18, h17, h16, h15, h14, h13, BitVec.getLsbD_ofNat, Nat.testBit_eq_decide_div_mod_eq]
  have hlow : min 4095 s.sup.active < 4096 := by omega
  have heven : (2 ^ 24 * min 100 s.sup.charge + 8192 * k20 + 8192 * k19 + 8192 * k18 + 8192 * k17 + 8192 * k16 + 8192 * k15 +
      8192 * k14 + 8192 * k13 + min 4095 s.sup.active) / 2 ^ 12 % 2 ≠ 1 := by omega
  rw [decide_eq_false heven, Bool.and_false]

theorem State.measure_frame (s : State) (v : Volts) : ChangesOnly [.sup] s (s.measure v) :=
  (upd_sup_only (by decide)).2 (.refl _ _)

/-- R77: a pause of the front command which has lasted ends it. -/
theorem pauseTimeout_state {s : State} {o : NvOp} {r : List NvOp} {since due : Tick} (hg : s.gate = false)
    (hs : s.supplied = true) (hr : s.boot.inReset = false) (ho : s.nv.ops = o :: r) (hp : o.paused = some since)
    (hd : s.panel.draws = []) (hdue : since + 8000000000 = due) :
    ∃ t, exec .supplyGatePauseTimeout s = .next t ∧ (∀ x ∈ t.nv.ops, x.id ≠ o.id) ∧ (∀ x ∈ t.outst, x.id ≠ o.id) ∧
      due ≤ t.tick := by
  obtain ⟨hops, houtst, htick⟩ := (s.reach due).frontTimedOut_gone o
  exact ⟨_, congrArg Host.Outcome.next (pauseEnds_of_front hg hs hr ho hp hd hdue), hops, houtst,
    htick ▸ s.le_reach_tick due⟩

/-- Settles O33. -/
theorem sagsAndGate : Obligations.SagsAndGate := by
  unfold Obligations.SagsAndGate
  refine ⟨fun v s hs hn hlow hc => ?_, fun v since s hs hsag hhigh => ?_,
    fun v s hs hg hr => ⟨_, rfl, gateOpens_state hs hg hr⟩,
    fun o r since s hg hs hr ho hp hd => pauseTimeout_state hg hs hr ho hp hd rfl,
    fun v s hs hf hhigh hc => ?_, fun v s hs => ?_⟩
  · obtain ⟨hsup, p, hpanel⟩ := sagBegins_of_charged hs hn hlow hc
    refine ⟨_, rfl, by rw [hsup], by rw [hsup]; rfl, fun r hr => ?_⟩
    rw [hpanel] at hr
    obtain ⟨x, -, rfl⟩ := Option.map_eq_some_iff.1 hr
    rfl
  · have h : ∀ (t : State) (a : W64), ChangesOnly [.fns, .out, .waits] t (t.occur 0 0x6005 a 0) := fun t a =>
      (by apply occur_only <;> decide : _ ↔ ChangesOnly _ t t).2 (.refl _ _)
    have hends : sagEnds v s = ((s.measure v).modSup fun p => { p with sag := none }).occur 0 0x6005 (s.tick - since) 0 := by
      unfold sagEnds
      dsimp only
      rw [hsag]
      dsimp only
      rw [if_neg (by rw [show decide (1000 ≤ (s.measure v).sup.active) = true from decide_eq_true hhigh]; exact Bool.false_ne_true)]
    refine ⟨_, congrArg Host.Outcome.next hends, ?_, ?_⟩
    · rw [h _ _ .sup (by decide)]
      rfl
    · refine ChangesOnly.trans ?_ ((h _ _).mono (by simp))
      exact (upd_sup_only (by decide)).2 ((s.measure_frame v).mono (by simp))
  · have hgo : ¬(!s.supplied || s.sup.holdupFault || !decide (1100 ≤ (s.measure v).sup.active) || !decide (v.charge < 90)) =
        true := by
      rw [hs, hf, show decide (1100 ≤ (s.measure v).sup.active) = true from decide_eq_true hhigh, decide_eq_true hc]
      exact Bool.false_ne_true
    have h : ∀ (t : State) (a : W64), ChangesOnly [.fns, .out, .waits] t (t.occur 0 0x6006 a 0) := fun t a =>
      (by apply occur_only <;> decide : _ ↔ ChangesOnly _ t t).2 (.refl _ _)
    have hfault : ∀ t : State, ChangesOnly [.faults, .telem] t (t.fault 4 3 0x1100 0 0 0xFF 0xFFFF 0).1 := fun t =>
      (by apply fault_only <;> decide : _ ↔ ChangesOnly _ t t).2 (.refl _ _)
    refine ⟨_, congrArg Host.Outcome.next (if_neg hgo), ?_, ?_⟩
    · rw [hfault _ .sup (by decide), h _ _ .sup (by decide)]
      rfl
    · rw [State.fault_next, h _ _ .faults (by decide)]
      rfl
  · refine ⟨_, congrArg Host.Outcome.next (if_neg (by rw [hs]; exact Bool.false_ne_true)), rfl,
      (s.measure v).supplyFields_bit12, rfl, rfl, ?_⟩
    exact (upd_sup_only (by decide)).2 (s.measure_frame v)

end Sys2Proof.Machine
end

section
/-!
PROOFS. Records, messages and completions leave a function's queue pairs, its Bus Master Enable and what waits for that
(R193, R1144).
-/

namespace Sys2Proof.Machine

/-- Queue pairs and Bus Master Enable are the same, and nothing more waits for a Bus Master Enable which is 1. -/
structure Func.QueuesKept (f g : Func) : Prop where
  qps : g.qps = f.qps
  busMaster : g.busMaster = f.busMaster
  unsent : f.busMaster = true → g.unsent = f.unsent

theorem Func.QueuesKept.refl (f : Func) : f.QueuesKept f := ⟨rfl, rfl, fun _ => rfl⟩

theorem Func.QueuesKept.trans {f g k : Func} (a : f.QueuesKept g) (b : g.QueuesKept k) : f.QueuesKept k :=
  ⟨b.qps.trans a.qps, b.busMaster.trans a.busMaster, fun h => (b.unsent (a.busMaster.trans h)).trans (a.unsent h)⟩

/-- Every function's queues are as before. -/
def QueuesKept (s t : State) : Prop := ∀ n : FnNo, s.fns[n].QueuesKept t.fns[n]

theorem QueuesKept.refl (s : State) : QueuesKept s s := fun _ => .refl _

theorem QueuesKept.trans {r s t : State} (h : QueuesKept r s) (g : QueuesKept s t) : QueuesKept r t :=
  fun n => (h n).trans (g n)

theorem QueuesKept.of_fns {s t : State} (h : t.fns = s.fns) : QueuesKept s t := fun n => by rw [h]; exact .refl _

theorem QueuesKept.of_only {ks : List Comp} {s t : State} (h : ChangesOnly ks s t) (hk : Comp.fns ∉ ks) :
    QueuesKept s t := .of_fns (h .fns hk)

theorem QueuesKept.of_law {s t : State}
    (h : ChangesOnly (Comp.allBut [.fns]) s t ↔ ChangesOnly (Comp.allBut [.fns]) s s) : QueuesKept s t :=
  .of_only (h.2 (.refl _ _)) (by decide)

theorem QueuesKept.forEach {α : Type} {f : α → State → State} (h : ∀ a t, QueuesKept t (f a t)) (l : List α) (s : State) :
    QueuesKept s (s.forEach l f) := by
  unfold State.forEach
  induction l generalizing s with
  | nil => exact .refl s
  | cons a l ih => exact (h a s).trans (ih (f a s))

theorem QueuesKept.ite {s t u : State} {c : Prop} [Decidable c] (h : QueuesKept s t) (g : QueuesKept s u) :
    QueuesKept s (if c then t else u) := by
  split
  · exact h
  · exact g

theorem State.modFn_queuesKept (s : State) (fn : FnNo) {f : Func → Func} (hf : s.fns[fn].QueuesKept (f s.fns[fn])) :
    QueuesKept s (s.modFn fn f) := fun n => by
  by_cases e : fn = n
  · subst e
    unfold modFn
    rw [vmod_get]
    exact hf
  · unfold modFn
    rw [vmod_get_ne _ _ e]
    exact .refl _

/-! ### Messages and records -/

theorem State.emit_queuesKept (s : State) (e : Emit) : QueuesKept s (s.emit e) := .of_only (s.emit_frame e) (by decide)

theorem State.sendMsix_queuesKept (s : State) (n : FnNo) (v : Fin 64) : QueuesKept s (s.sendMsix n v) :=
  .ite (s.emit_queuesKept _) (s.modFn_queuesKept n ⟨rfl, rfl, fun _ => rfl⟩)

theorem State.raise_queuesKept (s : State) (n : FnNo) (bits : BitVec 12) : QueuesKept s (s.raise n bits) :=
  (s.modFn_queuesKept n ⟨rfl, rfl, fun _ => rfl⟩).trans (.forEach (fun v t => t.sendMsix_queuesKept n v) _ _)

theorem State.writeRec_queuesKept (s : State) (n : FnNo) (r : EvRec) : QueuesKept s (s.writeRec n r) := by
  unfold writeRec
  refine QueuesKept.trans (QueuesKept.trans ?_ (emit_queuesKept _ _)) (raise_queuesKept _ _ _)
  exact s.modFn_queuesKept n ⟨rfl, rfl, fun _ => rfl⟩

theorem State.writeHeld_queuesKept (s : State) (n : FnNo) (l : List EvRec) : QueuesKept s (s.writeHeld n l) := by
  induction l generalizing s with
  | nil => exact s.modFn_queuesKept n ⟨rfl, rfl, fun _ => rfl⟩
  | cons r l ih =>
    unfold writeHeld
    exact .ite ((s.writeRec_queuesKept n r).trans (ih _)) (s.modFn_queuesKept n ⟨rfl, rfl, fun _ => rfl⟩)

theorem State.trimHeld_queuesKept (s : State) (n : FnNo) : QueuesKept s (s.trimHeld n) := by
  unfold trimHeld
  refine .ite (QueuesKept.trans ?_ (raise_queuesKept _ _ _)) (.refl s)
  exact s.modFn_queuesKept n ⟨rfl, rfl, fun _ => rfl⟩

theorem State.sendRec_queuesKept (s : State) (n : FnNo) (r : EvRec) : QueuesKept s (s.sendRec n r) := by
  refine QueuesKept.trans (QueuesKept.trans ?_ (writeHeld_queuesKept _ n _)) (trimHeld_queuesKept _ n)
  exact (QueuesKept.of_fns rfl).trans ((s.hitWaits n r).modFn_queuesKept n ⟨rfl, rfl, fun _ => rfl⟩)

theorem State.occur_queuesKept (s : State) (n : FnNo) (e : W16) (a b : W64) : QueuesKept s (s.occur n e a b) :=
  sendRec_queuesKept _ _ _

theorem State.occurAll_queuesKept (s : State) (l : List FnNo) (e : W16) (a b : W64) : QueuesKept s (s.occurAll l e a b) :=
  .forEach (fun n t => t.occur_queuesKept n e a b) _ _

theorem State.completeOk_queuesKept (s : State) (id : Nat) (r0 r1 : W64) : QueuesKept s (s.completeOk id r0 r1) := by
  unfold completeOk complete
  split
  · exact .refl s
  · rename_i o _
    dsimp only
    rw [if_neg (by rw [bne_self_eq_false, Bool.and_false]; exact Bool.false_ne_true)]
    have hgone : ∀ l, QueuesKept s { s with outst := l } := fun _ => .of_fns rfl
    exact (hgone _).trans (sendRec_queuesKept _ _ _)

theorem State.hostWrite_queuesKept (s : State) (n : FnNo) (a : W64) (b : List Byte) : QueuesKept s (s.hostWrite n a b) := by
  unfold hostWrite
  split
  · exact s.emit_queuesKept _
  next hoff => exact s.modFn_queuesKept n ⟨rfl, rfl, fun h => absurd h hoff⟩

theorem State.modLock_queuesKept (s : State) (f : Lock → Lock) : QueuesKept s (s.modLock f) := .of_fns rfl

theorem State.modChan_queuesKept (s : State) (c : Nat) (f : Chan → Chan) : QueuesKept s (s.modChan c f) := .of_fns rfl

theorem State.modProg_queuesKept (s : State) (n : FnNo) (pid : Nat) (f : Prog → Prog) : QueuesKept s (s.modProg n pid f) :=
  .of_fns rfl

theorem State.modPort_queuesKept (s : State) (p : PortNo) (f : Port → Port) : QueuesKept s (s.modPort p f) := .of_fns rfl

/-! ### The pool and the channels -/

theorem State.noteShort_queuesKept (s : State) : QueuesKept s s.noteShort := by
  have hgeo : ∀ g, QueuesKept s { s with geo := g } := fun g => .of_fns rfl
  unfold noteShort
  split
  · exact .ite ((hgeo _).trans (occurAll_queuesKept _ _ _ _ _)) (.refl s)
  · exact .ite (.refl s) ((hgeo _).trans (occurAll_queuesKept _ _ _ _ _))

theorem State.settlePool_queuesKept (s : State) : QueuesKept s s.settlePool := by
  unfold settlePool
  refine ((s.noteShort_queuesKept).trans (t := s.noteShort.noteWaits) (.of_fns rfl)).trans ?_
  refine .forEach (fun c u => ?_) _ _
  split
  · exact .of_law (by apply advertise_only <;> simp)
  · exact .refl u

theorem State.unbindNow_queuesKept (s : State) (c : Nat) : QueuesKept s (s.unbindNow c) := by
  unfold unbindNow
  split
  · exact .refl s
  · dsimp only
    have hdrop : ∀ t : State, QueuesKept t ((t.dropOpen c).forEach ((t.dropOpen c).frames.filter fun f => f.chan == c)
        fun f u => u.dropFrame c f.seq) := fun t => .of_law (by simp [forEach_only, dropFrame_only, dropOpen_only])
    refine QueuesKept.trans ?_ (settlePool_queuesKept _)
    refine QueuesKept.trans ?_ (.of_law (by apply reclaimAll_only; simp))
    refine QueuesKept.trans ?_ (modLock_queuesKept _ _)
    refine QueuesKept.trans ?_ (.of_law (by apply releaseParts_only; simp))
    refine QueuesKept.trans ?_ (.of_law (by apply upd_deliveries_runs_chans_loaded_only <;> simp))
    refine QueuesKept.trans ?_ (.of_law (forEach_only (fun b u => by apply zeroBuf_only; simp) _ _))
    exact .ite (((hdrop s).trans (modPort_queuesKept _ _ _)).trans (emit_queuesKept _ _))
      ((hdrop s).trans (modPort_queuesKept _ _ _))

theorem State.endUnbind_queuesKept (s : State) (c : Nat) : QueuesKept s (s.endUnbind c) := by
  unfold endUnbind
  split
  · exact .refl s
  · split
    · exact .refl s
    · refine .ite ?_ (.refl s)
      refine ((QueuesKept.of_law ?_).trans (unbindNow_queuesKept _ c)).trans (completeOk_queuesKept _ _ _ _)
      simp [dropOpen_only]

theorem State.endUnbinds_queuesKept (s : State) : QueuesKept s s.endUnbinds :=
  .forEach (fun c t => t.endUnbind_queuesKept c) _ _

/-! ### Results -/

theorem State.lockSend_queuesKept (s : State) (item : Option (Nat × Nat)) (b : List Byte) :
    QueuesKept s (s.lockSend item b) := by
  have hsent : ∀ t : State, QueuesKept t (t.flushLock t.lock.sendq.length) := fun t =>
    .of_law (by apply flushLock_only <;> simp)
  have hreleased : ∀ t : State, QueuesKept t t.releaseForwarded := fun t => .of_law (by apply releaseForwarded_only <;> simp)
  have hpumped : ∀ t : State, QueuesKept t t.pumpLock := fun t =>
    (((hsent t).trans (hreleased _)).trans (settlePool_queuesKept _)).trans (endUnbinds_queuesKept _)
  exact (modLock_queuesKept _ _).trans (hpumped _)

theorem State.located_queuesKept (s : State) (d : Divergence) : QueuesKept s (s.located d) := by
  unfold located
  split
  · exact .refl s
  · exact (modLock_queuesKept _ _).trans (sendRec_queuesKept _ _ _)

theorem State.compareDigests_queuesKept (s : State) (mine peer : Digest) : QueuesKept s (s.compareDigests mine peer) := by
  unfold compareDigests
  dsimp only
  refine .ite (modLock_queuesKept _ _ |>.trans (modLock_queuesKept _ _)) ?_
  have hmarked : ∀ f g k, QueuesKept s (((s.modLock f).modLock g).modLock k) := fun _ _ _ => .of_fns rfl
  refine .ite (hmarked _ _ _) ?_
  split
  · exact (hmarked _ _ _).trans (located_queuesKept _ _)
  · exact ((hmarked _ _ _).trans (modLock_queuesKept _ _)).trans (lockSend_queuesKept _ _ _)

theorem State.formDigest_queuesKept (s : State) (f : Frame) (prog : Nat) (outside aborted : Bool) (b : List Byte) :
    QueuesKept s (s.formDigest f prog outside aborted b) := by
  unfold formDigest
  split
  · exact .refl s
  · refine .ite (.refl s) ?_
    dsimp only
    split
    · exact ((lockSend_queuesKept _ _ _).trans (modLock_queuesKept _ _)).trans (compareDigests_queuesKept _ _ _)
    · exact .ite ((lockSend_queuesKept _ _ _).trans (modLock_queuesKept _ _))
        ((lockSend_queuesKept _ _ _).trans (modLock_queuesKept _ _))

theorem State.announce_queuesKept (s : State) (n : FnNo) (pid : Nat) : QueuesKept s (s.announce n pid) := by
  unfold announce
  split
  · exact .refl s
  · split
    · exact .refl s
    · exact .ite (.refl s) (.ite ((modProg_queuesKept _ _ _ _).trans (sendMsix_queuesKept _ _ _)) (.refl s))

theorem State.writeResult_queuesKept (s : State) (n : FnNo) (p : Prog) (l : Launch) (c q : Nat) (b : List Byte) :
    QueuesKept s (s.writeResult n p l c q b) := by
  have hcount : ∀ (t : State) (i : Fin 14), QueuesKept t (t.count n i 1) := fun t i => .of_law (by apply count_only; simp)
  have hend : ∀ t : State, QueuesKept t ((t.endRun c q).retireFrame c q) := fun t => .of_law (by
    simp [retireFrame_only, endRun_only])
  unfold writeResult
  split
  · exact .refl s
  · dsimp only
    refine QueuesKept.trans ?_ (hend _)
    refine QueuesKept.trans ?_ (formDigest_queuesKept _ _ _ _ _ _)
    refine QueuesKept.trans ?_ (modChan_queuesKept _ _ _)
    have hwritten : ∀ (t : State) (a : W64) (w : List Byte), QueuesKept t (((t.hostWrite n a w).announce n p.id).count n 0 1) :=
      fun t a w => ((t.hostWrite_queuesKept n a w).trans (announce_queuesKept _ _ _)).trans (hcount _ _)
    exact .ite (((modProg_queuesKept _ _ _ _).trans (hwritten _ _ _)).trans (hcount _ _)) ((modProg_queuesKept _ _ _ _).trans (hwritten _ _ _))

theorem State.pumpRing_queuesKept (s : State) (n : FnNo) (pid : Nat) : QueuesKept s (s.pumpRing n pid) := by
  have hflush : ∀ (k : Nat) (t : State), QueuesKept t (t.flushRing n pid k) := by
    intro k
    induction k with
    | zero => exact fun t => .refl t
    | succ k ih =>
      intro t
      unfold flushRing
      split
      · exact .refl t
      · split
        · refine .ite (QueuesKept.trans (QueuesKept.trans ?_ (writeResult_queuesKept _ _ _ _ _ _ _)) (ih _)) (.refl t)
          exact .of_fns rfl
        · exact .refl t
  unfold pumpRing
  split
  · exact .refl s
  · exact ((hflush _ _).trans (settlePool_queuesKept _)).trans (endUnbinds_queuesKept _)

/-! ### Plans -/

/-- Between the two states nothing happens to the functions but that occurrence records arise. -/
inductive Recorded : State → State → Prop
  | same {s t : State} (h : t.fns = s.fns) : Recorded s t
  | occur (s : State) (n : FnNo) (e : W16) (a b : W64) : Recorded s (s.occur n e a b)
  | trans {r s t : State} (h : Recorded r s) (g : Recorded s t) : Recorded r t

theorem Recorded.queuesKept {s t : State} (h : Recorded s t) : QueuesKept s t := by
  induction h with
  | same h => exact .of_fns h
  | occur s n e a b => exact s.occur_queuesKept n e a b
  | trans _ _ h g => exact h.trans g

theorem Recorded.causesKept {s t : State} (h : Recorded s t) : CausesKept s t := by
  induction h with
  | same h => exact .of_fns h
  | occur s n e a b => exact s.occur_causesKept n e a b
  | trans _ _ h g => exact h.trans g

theorem Recorded.refl (s : State) : Recorded s s := .same rfl

theorem Recorded.ite {s t u : State} {c : Prop} [Decidable c] (h : Recorded s t) (g : Recorded s u) :
    Recorded s (if c then t else u) := by
  split
  · exact h
  · exact g

theorem Recorded.forEach {α : Type} {f : α → State → State} (h : ∀ a t, Recorded t (f a t)) (l : List α) (s : State) :
    Recorded s (s.forEach l f) :=
  State.forEach_keeps (P := Recorded s) (fun a t ht => ht.trans (h a t)) l s (.refl s)

theorem State.modRepro_recorded (s : State) (n : FnNo) (f : ReproRun → ReproRun) : Recorded s (s.modRepro n f) := .same rfl

theorem State.breakAll_recorded (s : State) (c : W64) : Recorded s (s.breakAll c) := by
  refine .forEach (fun _ t => ?_) _ _
  exact .ite (.refl t) (.ite (modRepro_recorded _ _ _) ((modRepro_recorded _ _ _).trans (.occur _ _ _ _ _)))

theorem State.lapse_recorded (s : State) (c : BitVec 8) (u : W16) (l : List FnNo) : Recorded s (s.lapse c u l) := by
  have hslots : ∀ (t : State) x, Recorded t { t with slots := x } := fun _ _ => .same rfl
  exact .forEach (fun n t => .ite (.refl t) ((hslots t _).trans (.occur _ _ _ _ _))) _ _

theorem State.callPlan_recorded (s : State) (c : Bool) : Recorded s (s.callPlan c) := by
  have hplans : ∀ x, Recorded s { s with plans := x } := fun _ => .same rfl
  have hbroken := fun x => (hplans x).trans (breakAll_recorded _ 2)
  exact .ite (.refl s) (.ite (hbroken _) ((hbroken _).trans (lapse_recorded _ _ _ _)))

theorem State.beginDueRuns_recorded (s : State) : Recorded s s.beginDueRuns :=
  .ite (.refl s) (.forEach (fun _ t => .ite ((modRepro_recorded _ _ _).trans (.occur _ _ _ _ _)) (.refl t)) _ _)

theorem State.occurAll_recorded (s : State) (l : List FnNo) (e : W16) (a b : W64) : Recorded s (s.occurAll l e a b) :=
  .forEach (fun n t => .occur t n e a b) _ _

theorem State.capNoticeNow_recorded (s : State) : Recorded s s.capNoticeNow := by
  have hplans : ∀ x, Recorded s { s with plans := x } := fun _ => .same rfl
  exact .ite ((hplans _).trans (occurAll_recorded _ _ _ _ _)) (.refl s)

theorem State.settlePlan_recorded (s : State) (c : Bool) : Recorded s (s.settlePlan c) := by
  have hplans : ∀ x, Recorded s { s with plans := x } := fun _ => .same rfl
  have hended : ∀ t : State, Recorded t t.releaseThrottle.endCapLapses := fun t => .same
    ((show ChangesOnly [.slots, .sup] t _ from (by
      simp (disch := decide) only [endCapLapses_only, releaseThrottle_only, changesOnly_self])) .fns (by decide))
  have hcalled := fun t => (((callPlan_recorded t c).trans (hended _)).trans (beginDueRuns_recorded _)).trans
    (capNoticeNow_recorded _)
  unfold settlePlan
  exact .ite (.ite ((hplans _).trans (capNoticeNow_recorded _)) (hplans _)) ((hplans _).trans (hcalled _))

theorem State.settlePlan_queuesKept (s : State) (c : Bool) : QueuesKept s (s.settlePlan c) :=
  (s.settlePlan_recorded c).queuesKept

end Sys2Proof.Machine
end

section
/-!
PROOFS. The HOLDUP sequence and power-on resets (R72, R73, R81, R82, R1146).
-/

namespace Sys2Proof.Machine

/-! ### Flash commands which reach a safe point -/

/-- No flash command of the second state is new. -/
def OpsShrink (s t : State) : Prop := ∀ p ∈ t.nv.ops, ∃ q ∈ s.nv.ops, q.id = p.id

theorem OpsShrink.refl (s : State) : OpsShrink s s := fun p hp => ⟨p, hp, rfl⟩

theorem OpsShrink.trans {r s t : State} (h : OpsShrink r s) (g : OpsShrink s t) : OpsShrink r t := fun p hp => by
  obtain ⟨q, hq, e⟩ := g p hp
  obtain ⟨o, ho, f⟩ := h q hq
  exact ⟨o, ho, f.trans e⟩

theorem OpsShrink.of_ops {s t : State} (h : t.nv.ops = s.nv.ops) : OpsShrink s t := fun p hp => ⟨p, h ▸ hp, rfl⟩

theorem OpsShrink.ite {s t u : State} {c : Prop} [Decidable c] (h : OpsShrink s t) (g : OpsShrink s u) :
    OpsShrink s (if c then t else u) := by
  split
  · exact h
  · exact g

theorem State.journal_opsShrink (s : State) (e : JEntry) : OpsShrink s (s.journal e).1 := by
  have hmove : ∀ (x : JEntry) (t : State), OpsShrink s t → OpsShrink s ((t.moveEntry x.seq t.nv.nextEntry).putEntry x) :=
    fun x t ht => by
      refine ht.trans fun p hp => ?_
      obtain ⟨q, hq, rfl⟩ := List.mem_map.1 hp
      refine ⟨q, hq, ?_⟩
      split <;> rfl
  unfold journal
  dsimp only
  split
  · exact forEach_keeps (P := OpsShrink s) hmove _ _ (.of_ops rfl)
  · exact .of_ops rfl

theorem State.budgeted_opsShrink {x : State × Nat} {f : State → State} (h : OpsShrink x.1 (f x.1)) :
    OpsShrink x.1 (State.budgeted x f).1 := by
  unfold budgeted
  split
  · exact .refl _
  · exact h

theorem State.setDone_opsShrink (s : State) (q : Nat) (d : BitVec 8) : OpsShrink s (s.setDone q d) := .of_ops rfl

theorem State.eraseSector_opsShrink (s : State) (r o : Nat) : OpsShrink s (s.eraseSector r o) := .of_ops rfl

theorem State.leaveErase_opsShrink (x : State × Nat) (o : NvOp) (r off : Nat) :
    OpsShrink x.1 (State.leaveErase x o r off).1 := by
  have hdraw : OpsShrink x.1 x.1.draw.2 := .of_ops rfl
  exact (OpsShrink.ite (hdraw.trans (eraseSector_opsShrink _ _ _)) hdraw).trans
    (budgeted_opsShrink (x := (_, x.2)) (journal_opsShrink _ _))

theorem State.programNow_opsShrink (o : NvOp) (r off : Nat) (b : List Byte) (s : State) :
    OpsShrink s (State.programNow o r off b s) := by
  have hdone : OpsShrink s (s.doProgram r off b) := .of_ops (by unfold doProgram; dsimp only; split <;> rfl)
  exact .ite (hdone.trans (.of_ops rfl)) hdone

theorem State.dropNv_opsShrink (x : State × Nat) (o : NvOp) (k : Nat) : OpsShrink x.1 (State.dropNv x o k).1 := by
  have hkept : ∀ u : State, OpsShrink u { u with nv := { u.nv with ops := u.nv.ops.filter fun p => p.id != o.id } } :=
    fun u p hp => ⟨p, (List.mem_filter.1 hp).1, rfl⟩
  unfold dropNv
  dsimp only
  split
  · exact (budgeted_opsShrink (setDone_opsShrink _ _ _)).trans (hkept _)
  · exact hkept _

theorem State.endNv_opsShrink (x : State × Nat) (o : NvOp) : OpsShrink x.1 (State.endNv x o).1 := by
  unfold endNv
  split
  · exact dropNv_opsShrink _ _ _
  · split
    · split
      · exact dropNv_opsShrink _ _ _
      · exact (budgeted_opsShrink (programNow_opsShrink _ _ _ _ _)).trans (dropNv_opsShrink _ _ _)
    · split
      · split
        · exact (eraseSector_opsShrink _ _ _).trans (dropNv_opsShrink (_, x.2) _ _)
        · exact dropNv_opsShrink _ _ _
      · exact (leaveErase_opsShrink _ _ _ _).trans (dropNv_opsShrink _ _ _)
    · exact dropNv_opsShrink _ _ _

/-- R81 step 4: once every flash command has reached a safe point, none is left. -/
theorem State.endNvs_ops (s : State) (k : Nat) : (State.endNvs (s, k) fun _ => true).1.nv.ops = [] := by
  have hfold : ∀ (l : List NvOp) (y : State × Nat × Nat), (∀ p ∈ y.1.nv.ops, ∃ o ∈ l, o.id = p.id) →
      (l.foldl (fun (y : State × Nat × Nat) o =>
        let z := State.endNv (y.1, y.2.1) o
        (z.1, z.2.1, y.2.2 ||| z.2.2)) y).1.nv.ops = [] := by
    intro l
    induction l with
    | nil =>
      intro y hy
      exact List.eq_nil_iff_forall_not_mem.2 fun p hp => by simpa using hy p hp
    | cons o l ih =>
      intro y hy
      refine ih _ fun p hp => ?_
      obtain ⟨q, hq, e⟩ := endNv_opsShrink (y.1, y.2.1) o p hp
      obtain ⟨a, ha, f⟩ := hy q hq
      rcases List.mem_cons.1 ha with rfl | ha
      · exact absurd (f.trans e).symm (endNv_ops _ _ p hp)
      · exact ⟨a, ha, f.trans e⟩
  exact hfold _ _ fun p hp => ⟨p, List.mem_filter.2 ⟨hp, rfl⟩, rfl⟩

theorem stopPanel_ops (x : State × Nat) : (stopPanel x).1.1.nv.ops = x.1.nv.ops := by
  unfold stopPanel
  split
  · rfl
  · unfold State.budgeted
    dsimp only
    split <;> rfl

/-- R81: the safe point ends every flash command. -/
theorem State.safePoint_ops (s : State) (k : Nat) (tick : Tick) (strata : W16) : (s.safePoint k tick strata).nv.ops = [] := by
  have hheld : ∀ (n : Nat) (x : State × Nat), (commitHeld n x).1.nv = x.1.nv := fun n x =>
    (show ChangesOnly [.faults] x.1 (commitHeld n x).1 from
      (by apply commitHeld_only; decide : _ ↔ ChangesOnly _ x.1 x.1).2 (.refl _ _)) .nv (by decide)
  have hlast : ∀ (x : State × Nat) (d : State → BitVec 224),
      (State.budgeted x fun u => u.minimalRecord tick strata (d u)).1.nv = x.1.nv := fun x d => by
    unfold budgeted
    split <;> rfl
  unfold safePoint
  dsimp only
  rw [hlast _ (fun u => u.holdupDetail _ _ _ u.faults.held.length), hheld, stopPanel_ops]
  exact endNvs_ops s k

/-! ### Entry to HOLDUP -/

theorem State.tellHost_sup (s : State) (c : BitVec 8) : (s.tellHost c).sup = s.sup :=
  (show ChangesOnly (Comp.allBut [.sup]) s (s.tellHost c) from
    (by apply tellHost_only <;> simp : _ ↔ ChangesOnly _ s s).2 (.refl _ _)) .sup (by decide)

theorem State.stopRefresh_frame (s : State) : ChangesOnly [.panel] s s.stopRefresh :=
  (by apply stopRefresh_only; decide : _ ↔ ChangesOnly _ s s).2 (.refl _ _)

/-- R72, R81, R494: what an entry to HOLDUP leaves. -/
theorem State.enterHoldup_state (s : State) : s.enterHoldup.sup.power = .holdup ∧ s.enterHoldup.sup.holdupTick = s.tick ∧
    s.enterHoldup.boot.linkL0 = false ∧ s.enterHoldup.outst = [] ∧ s.enterHoldup.frames = [] ∧ s.enterHoldup.runs = [] ∧
    s.enterHoldup.chans = [] ∧ s.enterHoldup.fns = Vector.ofFn Func.reset ∧
    ∀ n : FnNo, s.enterHoldup.strata[n].key = none := by
  have hpower := (s.modSup fun p => { p with power := .holdup, switching := none, sag := none, holdupTick := s.tick }).tellHost_sup 3
  unfold enterHoldup
  dsimp only
  generalize ht : State.haltAll _ 3 = t
  have hsup : t.sup = { s.sup with power := .holdup, switching := none, sag := none, holdupTick := s.tick } := ht ▸ hpower
  have hstopped : t.boot.linkL0 = false ∧ t.outst = [] ∧ t.frames = [] ∧ t.runs = [] ∧ t.chans = [] ∧
      t.fns = Vector.ofFn Func.reset := by
    subst ht
    exact ⟨rfl, rfl, rfl, rfl, rfl, rfl⟩
  obtain ⟨hlink, houtst, hframes, hruns, hchans, hfns⟩ := hstopped
  generalize hu : ({ t with plans := _, boot := _, ports := _, jtag := 1 } : State) = u
  have h := u.stopRefresh_frame
  refine ⟨?_, ?_, ?_, ?_, ?_, ?_, ?_, ?_, fun n => ?_⟩
  · show u.stopRefresh.sup.power = _
    rw [h .sup (by decide), ← hu, hsup]
  · show u.stopRefresh.sup.holdupTick = _
    rw [h .sup (by decide), ← hu, hsup]
  · show u.stopRefresh.boot.linkL0 = _
    rw [h .boot (by decide), ← hu]
    exact hlink
  · exact Eq.trans (h .outst (by decide)) (hu ▸ houtst)
  · exact Eq.trans (h .frames (by decide)) (hu ▸ hframes)
  · exact Eq.trans (h .runs (by decide)) (hu ▸ hruns)
  · exact Eq.trans (h .chans (by decide)) (hu ▸ hchans)
  · exact Eq.trans (h .fns (by decide)) (hu ▸ hfns)
  · simp [discardKeys]

/-! ### The end of the sequence -/

theorem State.noteCause_frame (s : State) (c : BitVec 8) : ChangesOnly [.boot, .faults, .telem] s (s.noteCause c) :=
  (by apply noteCause_only <;> decide : _ ↔ ChangesOnly _ s s).2 (.refl _ _)

theorem State.noteCause_boot (s : State) (c : BitVec 8) : (s.noteCause c).boot = { s.boot with resetCause := c } := by
  have h : ChangesOnly [.faults, .telem] ({ s with boot := { s.boot with resetCause := c } } : State) (s.noteCause c) := by
    unfold noteCause
    simp (disch := decide) only [fault_only, changesOnly_self]
  exact h .boot (by decide)

/-- R72, R112: a power-on reset starts from tick 0, in STANDBY or ACTIVE, with its cause or that of a pin. -/
theorem State.powerOnReset_state (s : State) (c : BitVec 8) (v : Volts) :
    ((s.powerOnReset c v).sup.power = .standby ∨ (s.powerOnReset c v).sup.power = .active) ∧
      (s.powerOnReset c v).tick = 0 ∧ (s.powerOnReset c v).boot.linkL0 = false ∧
      (s.powerOnReset c v).boot.resetCause ∈ [c, 2, 6] := by
  unfold powerOnReset
  dsimp only
  generalize ht : ({ State.moduleWipe _ with sup := _, faults := _, boot := _, panel := _ } : State) = t
  have hwiped : t.sup.power = .standby ∧ t.tick = 0 ∧ t.boot.linkL0 = false := by
    subst ht
    exact ⟨rfl, rfl, rfl⟩
  clear ht
  obtain ⟨hpower, htick, hlink⟩ := hwiped
  have hnoted : ∀ (u : State) (k : BitVec 8), u.sup.power = .standby → u.tick = 0 → u.boot.linkL0 = false →
      (u.noteCause k).sup.power = .standby ∧ (u.noteCause k).tick = 0 ∧ (u.noteCause k).boot.linkL0 = false ∧
        (u.noteCause k).boot.resetCause = k := fun u k hp hu hl => by
    have h := u.noteCause_frame k
    rw [h .sup (by decide), h .tick (by decide), u.noteCause_boot]
    exact ⟨hp, hu, hl, rfl⟩
  obtain ⟨hp, hu, hl, hc⟩ := hnoted t c hpower htick hlink
  have hdone : ∀ u : State, u.sup.power = .standby → u.tick = 0 → u.boot.linkL0 = false → u.boot.resetCause ∈ [c, 2, 6] →
      ((if u.sup.mainQual then { u with sup := { u.sup with power := .active } } else u).sup.power = .standby ∨
        (if u.sup.mainQual then { u with sup := { u.sup with power := .active } } else u).sup.power = .active) ∧
      (if u.sup.mainQual then { u with sup := { u.sup with power := .active } } else u).tick = 0 ∧
      (if u.sup.mainQual then { u with sup := { u.sup with power := .active } } else u).boot.linkL0 = false ∧
      (if u.sup.mainQual then { u with sup := { u.sup with power := .active } } else u).boot.resetCause ∈ [c, 2, 6] :=
    fun u hp hu hl hc => by
      split
      · exact ⟨.inr rfl, hu, hl, hc⟩
      · exact ⟨.inl hp, hu, hl, hc⟩
  split
  next hreset =>
    obtain ⟨hp', hu', hl', hc'⟩ := hnoted _ (if (t.noteCause c).boot.modResetLow then 2 else 6) hp hu hl
    refine hdone _ hp' hu' hl' ?_
    rw [hc']
    split <;> simp
  · exact hdone _ hp hu hl (by simp [hc])

theorem State.safePoint_frame (s : State) (k : Nat) (tick : Tick) (strata : W16) :
    ChangesOnly [.faults, .free, .nv, .panel] s (s.safePoint k tick strata) :=
  (by apply safePoint_only <;> decide : _ ↔ ChangesOnly _ s s).2 (.refl _ _)

/-- R72, R81: with both inputs gone the sequence ends in OFF, whatever energy it had. -/
theorem holdupEnds_off {k : Nat} {v : Volts} {s : State} (hs : s.sup.power = .holdup) (hm : v.main ≤ 1050)
    (ha : v.aux ≤ 1050) : (holdupEnds k v s).sup.power = .off ∧ (holdupEnds k v s).nv.ops = [] := by
  unfold holdupEnds
  rw [if_neg (not_not_intro hs)]
  unfold State.leaveHoldup
  dsimp only
  rw [if_neg (by omega)]
  exact ⟨rfl, s.safePoint_ops k _ _⟩

/-- R72, R73: with an input back the sequence ends in a power-on reset. -/
theorem holdupEnds_on {k : Nat} {v : Volts} {s : State} (hs : s.sup.power = .holdup) (hv : 1050 < v.main ∨ 1050 < v.aux) :
    (holdupEnds k v s).sup.power ≠ .off ∧ (holdupEnds k v s).sup.power ≠ .holdup ∧ (holdupEnds k v s).tick = 0 ∧
      (holdupEnds k v s).boot.resetCause ∈ [1, 2, 6] := by
  unfold holdupEnds
  rw [if_neg (not_not_intro hs)]
  unfold State.leaveHoldup
  dsimp only
  rw [if_pos hv]
  obtain ⟨hpower, htick, -, hcause⟩ := ((s.safePoint k s.sup.holdupTick s.costMask).measure v).powerOnReset_state 1 v
  refine ⟨?_, ?_, htick, hcause⟩
  · rcases hpower with h | h <;> rw [h] <;> decide
  · rcases hpower with h | h <;> rw [h] <;> decide

theorem inputsLost_of_low {v : Volts} {s : State} (hs : s.supplied = true) (hm : v.main < 900) (ha : v.aux < 900) :
    inputsLost v s = (s.measure v).enterHoldup := by
  unfold inputsLost
  rw [if_neg]
  rw [hs, decide_eq_true (Nat.max_lt.2 ⟨hm, ha⟩)]
  exact Bool.false_ne_true

/-- R72: a bank of 20 % or less in a sag. -/
theorem bankLow_of_sag {v : Volts} {s : State} (hs : s.supplied = true)
    (hlow : (if s.sup.onAux then v.aux else v.main) < 1000) (hc : v.charge ≤ 20) :
    (s.measure v).bankLow = (s.measure v).enterHoldup := by
  have hactive : (s.measure v).sup.active < 1000 := hlow
  have hcharge : (s.measure v).sup.charge ≤ 20 := Nat.le_trans (Nat.min_le_right _ _) hc
  have hsupplied : (s.measure v).supplied = true := hs
  unfold State.bankLow
  rw [if_pos (by rw [hsupplied, decide_eq_true hactive, decide_eq_true hcharge]; rfl)]

/-- Settles O32: the entry to HOLDUP, its end and the power-on reset are the lemmas above. -/
theorem holdupAndPowerOn : Obligations.HoldupAndPowerOn := by
  unfold Obligations.HoldupAndPowerOn
  refine ⟨?_, ?_, ?_, ?_, ?_, ?_⟩
  · intro v s hs hm ha
    refine ⟨_, congrArg Host.Outcome.next (inputsLost_of_low hs hm ha), ?_⟩
    exact (s.measure v).enterHoldup_state
  · intro v s hs hlow hc
    refine ⟨_, congrArg Host.Outcome.next ((if_pos hs).trans (bankLow_of_sag hs hlow hc)), ?_⟩
    obtain ⟨hpower, -, hlink, -⟩ := (s.measure v).enterHoldup_state
    exact ⟨hpower, hlink⟩
  · intro v s hs hm ha
    exact ⟨_, rfl, holdupEnds_off hs hm ha⟩
  · intro v s hs hv
    exact ⟨_, rfl, holdupEnds_on hs hv⟩
  · intro n v s hs hm ha
    exact ⟨_, rfl, holdupEnds_off hs hm ha⟩
  · intro v s hs hv
    have hrise : inputRises v s = s.powerOnReset 0 v := by
      unfold inputRises
      rw [if_neg]
      rcases hv with h | h <;> simp [hs, h]
    refine ⟨_, congrArg Host.Outcome.next hrise, ?_⟩
    exact s.powerOnReset_state 0 v

end Sys2Proof.Machine
end

section
/-!
PROOFS. Host resets and module resets (R112, R116 to R121, R178, R179, R187, R1128).
-/

namespace Sys2Proof.Machine

/-! ### What each level of reset leaves (R112) -/

/-- R1141, R198: the PCIe side after its reset. -/
theorem State.pcieReset_state (s : State) :
    s.pcieReset.boot = { s.boot with vfEnable := false, numVfs := 0, d3hot := false } ∧ s.pcieReset.outst = [] ∧
      s.pcieReset.fns = Vector.ofFn Func.reset := by
  have hended : ChangesOnly [.free, .nv, .panel] s (State.endNvs (s, allWrites) fun _ => true).1 :=
    (by apply endNvs_only <;> decide : _ ↔ ChangesOnly _ s s).2 (.refl _ _)
  have hstopped : ∀ (t : State) (b : Bool), (if b then t.stopRefresh else t).boot = t.boot := fun t b => by
    split
    · exact t.stopRefresh_frame .boot (by decide)
    · rfl
  refine ⟨?_, rfl, rfl⟩
  unfold pcieReset
  dsimp only
  rw [← show State.boot _ = s.boot from hended .boot (by decide)]
  exact congrArg (fun b : Boot => { b with vfEnable := false, numVfs := 0, d3hot := false }) (hstopped _ _)

theorem State.wipe_strata (s : State) (r : BitVec 8) {n : FnNo} (h : n ≠ 0) : (s.wipe r).strata[n] = Stratum.none := by
  have hset : ∀ x : Stratum, ((Vector.replicate 16 Stratum.none).set 0 x)[n] = Stratum.none := fun x => by
    have hn : n.val ≠ 0 := fun e => h (Fin.ext e)
    simp [Ne.symm hn]
  exact hset _

/-- R112, R178: the compute side after a host reset. -/
theorem State.hostWipe_state (s : State) : s.hostWipe.boot = s.boot ∧ s.hostWipe.fns = s.fns ∧ s.hostWipe.outst = [] ∧
    s.hostWipe.geo = Geode.fresh ∧ s.hostWipe.plans.hostCap = 175 ∧ s.hostWipe.plans.selected = 1 ∧
    ∀ n : FnNo, n ≠ 0 → s.hostWipe.strata[n] = Stratum.none := by
  have h : ChangesOnly (Comp.allBut [.boot, .fns]) s s.hostWipe :=
    (by apply hostWipe_only <;> simp : _ ↔ ChangesOnly _ s s).2 (.refl _ _)
  exact ⟨h .boot (by decide), h .fns (by decide), rfl, rfl, rfl, rfl, fun n hn => wipe_strata _ 2 hn⟩

theorem State.setPhase_boot (s : State) (p : BitVec 4) (f : BitVec 8) :
    (s.setPhase p f).boot = (s.changePhase p f).boot := by
  unfold setPhase
  dsimp only
  split
  · exact (s.changePhase p f).raiseAll_frame causeStart .boot (by decide)
  · rfl

theorem State.settlePlan_frame (s : State) (c : Bool) :
    ChangesOnly [.fns, .out, .plans, .repro, .slots, .sup, .waits] s (s.settlePlan c) :=
  (by apply settlePlan_only <;> decide : _ ↔ ChangesOnly _ s s).2 (.refl _ _)

theorem State.enterReady_phase (s : State) : s.enterReady.boot.phase = 8 := by
  unfold enterReady
  rw [setPhase_boot]
  rfl

/-! ### Host resets -/

/-- R112, R178: a host reset in READY, but for fatal conditions, is followed by SCRUB. -/
theorem State.hostReset_of_ready {s : State} {c : BitVec 8} (hs : s.supplied = true) (hr : s.boot.inReset = false)
    (hf : s.boot.fatal = false) (hp : s.boot.phase = 8) :
    (s.hostReset c).boot.phase = 9 ∧ (s.hostReset c).boot.perst = s.boot.perst ∧
      (s.hostReset c).boot.linkL0 = s.boot.linkL0 ∧ (s.hostReset c).boot.resetCause = c ∧
      (s.hostReset c).boot.d3hot = false ∧ (s.hostReset c).outst = [] ∧ (s.hostReset c).geo = Geode.fresh ∧
      (∀ n : FnNo, n ≠ 0 → (s.hostReset c).strata[n] = Stratum.none) ∧
      ∀ (n : FnNo) (qp : QpNo), (s.hostReset c).fns[n].qps[qp].running = false := by
  obtain ⟨hboot, -, hfns⟩ := (s.noteCause c).pcieReset_state
  rw [s.noteCause_boot] at hboot
  generalize ht : (s.noteCause c).pcieReset = t at hboot hfns
  obtain ⟨hwboot, hwfns, hwoutst, hwgeo, -, -, hwstrata⟩ := t.hostWipe_state
  have hreset : s.hostReset c = (t.hostWipe.changePhase phScrub 0).settlePlan true := by
    have hgo : ¬(!(s.sup.power == .standby || s.sup.power == .active) || s.boot.inReset) = true := by
      rw [show (s.sup.power == .standby || s.sup.power == .active) = true from hs, hr]
      exact Bool.false_ne_true
    have htf : ¬t.boot.fatal = true := by rw [hboot]; exact (ne_true_of_eq_false hf :)
    unfold hostReset
    rw [if_neg hgo]
    dsimp only
    rw [ht, if_neg htf, if_pos (.inl hp)]
    rfl
  have hq := (t.hostWipe.changePhase phScrub 0).settlePlan_queuesKept true
  have h := (t.hostWipe.changePhase phScrub 0).settlePlan_frame true
  rw [hreset, h .boot (by decide), h .outst (by decide), h .geo (by decide), h .strata (by decide)]
  refine ⟨rfl, ?_, ?_, ?_, ?_, hwoutst, hwgeo, hwstrata, fun n qp => ?_⟩
  · show t.hostWipe.boot.perst = _
    rw [hwboot, hboot]
  · show t.hostWipe.boot.linkL0 = _
    rw [hwboot, hboot]
  · show t.hostWipe.boot.resetCause = _
    rw [hwboot, hboot]
  · show t.hostWipe.boot.d3hot = _
    rw [hwboot, hboot]
  · rw [(hq n).qps]
    show t.hostWipe.fns[n].qps[qp].running = false
    rw [hwfns, hfns]
    simp [Func.reset, QPair.reset]

/-- R112: a host reset while the module is FATAL wipes the compute side, and is followed by no SCRUB. -/
theorem State.hostReset_of_fatal {s : State} {c : BitVec 8} (hs : s.supplied = true) (hr : s.boot.inReset = false)
    (hf : s.boot.fatal = true) (hp : s.boot.phase = 8) :
    (s.hostReset c).boot.phase = 8 ∧ (s.hostReset c).boot.fatal = true ∧ (s.hostReset c).boot.resetCause = c ∧
      (s.hostReset c).outst = [] ∧ (s.hostReset c).plans.hostCap = 175 ∧ (s.hostReset c).plans.selected = 1 ∧
      ∀ n : FnNo, n ≠ 0 → (s.hostReset c).strata[n] = Stratum.none := by
  obtain ⟨hboot, -, -⟩ := (s.noteCause c).pcieReset_state
  rw [s.noteCause_boot] at hboot
  generalize ht : (s.noteCause c).pcieReset = t at hboot
  obtain ⟨hwboot, -, hwoutst, -, hwcap, hwplan, hwstrata⟩ := t.hostWipe_state
  have hreset : s.hostReset c = t.hostWipe := by
    have hgo : ¬(!(s.sup.power == .standby || s.sup.power == .active) || s.boot.inReset) = true := by
      rw [show (s.sup.power == .standby || s.sup.power == .active) = true from hs, hr]
      exact Bool.false_ne_true
    have htf : t.boot.fatal = true := by rw [hboot]; exact hf
    unfold hostReset
    rw [if_neg hgo]
    dsimp only
    rw [ht, if_pos htf, if_pos (.inl hp)]
  rw [hreset, hwboot, hboot]
  exact ⟨hp, hf, rfl, hwoutst, hwcap, hwplan, hwstrata⟩

theorem State.configReady_iff (s : State) : s.configReady = true ↔ s.sup.power = .active ∧ s.boot.linkL0 = true ∧
    s.boot.inReset = false ∧ s.boot.resetPending = false ∧ s.boot.phase ≠ 0 ∧ s.boot.phase ≠ phSupervisorBoot ∧
    s.boot.phase ≠ phAonCheck := by
  unfold configReady
  simp [and_assoc]

theorem State.supplied_of_active {s : State} (h : s.sup.power = .active) : s.supplied = true := by
  unfold supplied
  rw [h]
  rfl

/-! ### MOD_RESET_N and TEST_EN -/

/-- R118, R120: a pin which begins a module reset latches its cause, with nothing left outstanding. -/
theorem State.recogniseReset_of_free {s : State} {c : BitVec 8} (hs : s.supplied = true) (hr : s.boot.inReset = false)
    (hp : s.boot.resetPending = false) :
    (s.recogniseReset c).boot = { s.boot with resetPending := true, pendingCause := c, linkL0 := false } ∧
      (s.recogniseReset c).outst = [] ∧ (s.recogniseReset c).nv.ops = [] := by
  have hhalt : ∀ t : State, (t.haltAll 4).boot = { t.boot with linkL0 := false } := fun t => by
    have h : ChangesOnly (Comp.allBut [.boot]) t (t.tellHost 4) :=
      (by apply tellHost_only <;> simp : _ ↔ ChangesOnly _ t t).2 (.refl _ _)
    exact congrArg (fun b : Boot => { b with linkL0 := false }) (h .boot (by decide))
  unfold recogniseReset
  rw [if_neg (ne_true_of_eq_false hr), if_neg (by rw [hs]; exact Bool.false_ne_true), if_neg (ne_true_of_eq_false hp)]
  dsimp only
  generalize hu : ({ s with boot := _ } : State) = u
  have h := (u.haltAll 4).safePoint_frame allWrites s.tick s.costMask
  rw [h .boot (by decide), h .outst (by decide), hhalt, ← hu]
  exact ⟨rfl, rfl, safePoint_ops _ _ _ _⟩

/-- R124: held in reset by TEST_EN, MOD_RESET_N becomes the cause, and is recorded. -/
theorem State.recogniseReset_of_held {s : State} (hr : s.boot.inReset = true) (hc : s.boot.resetCause ≠ 2) :
    (s.recogniseReset 2).boot = { s.boot with pendingCause := 2, resetCause := 2 } ∧
      (s.recogniseReset 2).faults.next = s.faults.next + 1 := by
  unfold recogniseReset
  rw [if_pos hr, if_pos ⟨rfl, hc⟩]
  exact ⟨noteCause_boot _ 2, fault_next _ _ _ _ _ _ _ _ _⟩

/-- R112, R1042: the state of a module after its reset. -/
theorem State.moduleReset_state (s : State) :
    s.moduleReset.boot.resetPending = false ∧ s.moduleReset.boot.fatal = false ∧ s.moduleReset.boot.phase = 1 ∧
      s.moduleReset.boot.resetCause = (if s.boot.modResetLow then 2 else s.boot.pendingCause) ∧
      s.moduleReset.boot.inReset = (s.boot.modResetLow || s.boot.testEn) ∧
      s.moduleReset.boot.fatalLog = s.boot.fatalLog ∧ s.moduleReset.fns = Vector.ofFn Func.reset ∧
      s.moduleReset.geo = Geode.fresh ∧ ∀ n : FnNo, n ≠ 0 → s.moduleReset.strata[n] = Stratum.none := by
  have hstrata : ∀ n : FnNo, n ≠ 0 → s.moduleWipe.strata[n] = Stratum.none := fun n hn => wipe_strata _ 1 hn
  obtain ⟨t, ht, hreset⟩ : ∃ t : State, t = { s.moduleWipe with boot := { s.moduleWipe.boot with
      resetCause := if s.boot.modResetLow then 2 else s.boot.pendingCause } } ∧
      ChangesOnly [.faults, .telem] t s.moduleReset := by
    refine ⟨_, rfl, ?_⟩
    unfold moduleReset
    dsimp only
    generalize (if s.boot.modResetLow = true then (2 : BitVec 8) else s.boot.pendingCause) = cause
    split
    · simp (disch := decide) only [faultAt_only, fault_only, changesOnly_self]
    · simp (disch := decide) only [fault_only, changesOnly_self]
  rw [hreset .boot (by decide), hreset .fns (by decide), hreset .geo (by decide), hreset .strata (by decide), ht]
  exact ⟨rfl, rfl, rfl, rfl, rfl, rfl, rfl, rfl, hstrata⟩

/-- R121: with neither pin active the supervisor boots. -/
theorem State.bootWhenFree_of_free {s : State} (hr : s.boot.inReset = true) (hm : s.boot.modResetLow = false)
    (ht : s.boot.testEn = false) : s.bootWhenFree.boot.modResetLow = false ∧ s.bootWhenFree.boot.testEn = false ∧
      s.bootWhenFree.boot.inReset = false ∧ s.bootWhenFree.boot.phase = 1 := by
  unfold bootWhenFree
  rw [if_pos (by rw [hr, hm, ht]; rfl)]
  exact ⟨hm, ht, rfl, rfl⟩

/-- Settles O35: a host reset in READY and while FATAL, and the latching, the application and the end of a module reset,
are the lemmas above. -/
theorem hostAndModuleResets : Obligations.HostAndModuleResets := by
  unfold Obligations.HostAndModuleResets
  refine ⟨?_, ?_, ?_, ?_, ?_, ?_, ?_, ?_, ?_, ?_, ?_, ?_, ?_, ?_⟩
  · intro s hs
    exact ⟨_, congrArg Host.Outcome.next (if_pos hs), s.enterReady_phase⟩
  · intro s hs hr hf hp hn
    refine ⟨_, congrArg Host.Outcome.next (if_neg (ne_true_of_eq_false hn)), ?_⟩
    obtain ⟨hphase, hperst, hlink, hcause, -, houtst, hgeo, hstrata, hrun⟩ := State.hostReset_of_ready (c := 3)
      (s := ({ s with boot := { s.boot with perst := true } } : State).pcieDown) hs hr hf hp
    exact ⟨hphase, hperst, hlink, hcause, houtst, hstrata, hgeo, hrun⟩
  · intro s hs hr hf hp hn
    refine ⟨_, congrArg Host.Outcome.next (if_neg (ne_true_of_eq_false hn)), ?_⟩
    exact State.hostReset_of_fatal (c := 3) (s := ({ s with boot := { s.boot with perst := true } } : State).pcieDown)
      hs hr hf hp
  · intro s
    exact ⟨_, rfl, rfl⟩
  · intro s hs hr hf hp
    refine ⟨_, congrArg Host.Outcome.next (if_pos hs), ?_⟩
    obtain ⟨hphase, -, hlink, hcause, -⟩ := State.hostReset_of_ready (c := 5) (s := s.pcieDown)
      (State.supplied_of_active hs) hr hf hp
    exact ⟨hphase, hcause, hlink⟩
  · intro s hs hf hp
    obtain ⟨hactive, -, hr, -⟩ := s.configReady_iff.1 hs
    obtain ⟨hphase, -, -, hcause, -⟩ := State.hostReset_of_ready (c := 4) (State.supplied_of_active hactive) hr hf hp
    exact ⟨_, congrArg Host.Outcome.next (if_pos hs), hphase, hcause⟩
  · intro s hs hf hp hd
    obtain ⟨hactive, -, hr, -⟩ := s.configReady_iff.1 hs
    refine ⟨_, congrArg Host.Outcome.next (if_pos (by rw [hs, hd]; rfl)), ?_⟩
    obtain ⟨hphase, -, -, hcause, hd3, -⟩ := State.hostReset_of_ready (c := 7)
      (s := { s with boot := { s.boot with d3hot := false } }) (State.supplied_of_active hactive) hr hf hp
    exact ⟨hphase, hcause, hd3⟩
  · intro s hs
    exact congrArg Host.Outcome.next (if_pos hs)
  · intro s hs hr hp
    obtain ⟨hboot, houtst, hops⟩ := State.recogniseReset_of_free (c := 2)
      (s := { s with boot := { s.boot with modResetLow := true } }) hs hr hp
    refine ⟨_, rfl, ?_⟩
    rw [hboot]
    exact ⟨rfl, rfl, rfl, rfl, houtst, hops⟩
  · intro s hr hc
    obtain ⟨hboot, hnext⟩ := State.recogniseReset_of_held
      (s := { s with boot := { s.boot with modResetLow := true } }) hr hc
    refine ⟨_, rfl, ?_⟩
    rw [hboot]
    exact ⟨rfl, rfl, hnext⟩
  · intro s hs hr hp
    obtain ⟨hboot, houtst, hops⟩ := State.recogniseReset_of_free (c := 6)
      (s := { s with boot := { s.boot with testEn := true } }) hs hr hp
    refine ⟨_, rfl, ?_⟩
    rw [hboot]
    exact ⟨rfl, rfl, rfl, rfl, houtst, hops⟩
  · intro s hs hp
    exact ⟨_, congrArg Host.Outcome.next (if_pos (by rw [hs, hp]; rfl)), s.moduleReset_state⟩
  · intro s hr ht
    obtain ⟨hlow, -, hfree, hphase⟩ := State.bootWhenFree_of_free
      (s := { s with boot := { s.boot with modResetLow := false } }) hr rfl ht
    exact ⟨_, rfl, hlow, hfree, hphase⟩
  · intro s hr hm
    obtain ⟨-, htest, hfree, hphase⟩ := State.bootWhenFree_of_free
      (s := { s with boot := { s.boot with testEn := false } }) hr hm rfl
    exact ⟨_, rfl, htest, hfree, hphase⟩

end Sys2Proof.Machine
end

section
/-!
PROOFS. The PCIe link, configuration requests, function resets and Bus Master Enable (R82, R112, R114, R115, R149, R150,
R183, R194, R1142, R1144).
-/

namespace Sys2Proof.Machine

/-! ### Configuration requests -/

theorem State.emit_of_configReady {s : State} (h : s.configReady = true) (e : Emit) :
    s.emit e = { s with out := s.out ++ [e] } := by
  obtain ⟨-, hlink, -⟩ := s.configReady_iff.1 h
  unfold emit
  rw [if_neg (by rw [hlink, Bool.not_true, Bool.and_false]; exact Bool.false_ne_true)]

/-- What a configuration request which reads is answered with. -/
def State.configValue (s : State) (fn : FnNo) : ConfigReq → Option W64
  | .read f => some (BitVec.ofNat 64 (s.configField fn f))
  | _ => none

theorem configRequest_of_present {fn : FnNo} {req : ConfigReq} {s : State} (hp : s.present fn = true)
    (hr : s.configReady = true) : configRequest fn req s = (configWrite fn req s).emit
      (.configAnswer fn false (s.configValue fn req)) := by
  obtain ⟨-, hlink, -⟩ := s.configReady_iff.1 hr
  unfold configRequest
  rw [if_neg (by rw [hlink]; exact Bool.false_ne_true), if_neg (by rw [hr]; exact Bool.false_ne_true),
    if_neg (by rw [hp]; exact Bool.false_ne_true)]
  cases req <;> rfl

/-- A configuration write which changes one field of the function. -/
theorem configRequest_of_modFn {fn : FnNo} {req : ConfigReq} {s : State} {f : Func → Func} (hp : s.present fn = true)
    (hr : s.configReady = true) (hw : configWrite fn req s = s.modFn fn f) (hn : ∀ x, req ≠ .read x) :
    ∃ t, exec (.configRequest fn req) s = .next t ∧ t.fns[fn] = f s.fns[fn] ∧
      t.out = s.out ++ [.configAnswer fn false none] ∧ ChangesOnly [.fns, .out] s t := by
  have hready : (s.modFn fn f).configReady = true := hr
  have hrequest : configRequest fn req s =
      { s.modFn fn f with out := s.out ++ [.configAnswer fn false none] } := by
    rw [configRequest_of_present hp hr, hw, State.emit_of_configReady hready]
    cases req
    case read x => exact absurd rfl (hn x)
    all_goals rfl
  refine ⟨_, congrArg Host.Outcome.next hrequest, vmod_get _ _ _, rfl, ?_⟩
  simp (disch := decide) only [upd_out_only, modFn_only, changesOnly_self]

/-! ### Function resets -/

theorem State.settledUnbinds_frame (s : State) : ChangesOnly (Comp.allBut [.progs, .strata, .boot]) s s.settlePool.endUnbinds := by
  simp [endUnbinds_only, settlePool_only, changesOnly_self]

theorem State.endUnbinds_outstShrinks (s : State) : OutstShrinks s s.settlePool.endUnbinds :=
  ((State.settlePool_resolves s).trans (State.endUnbinds_resolves _)).outst

/-- A function reset in two steps: what it takes away, and what the pool and the channels make of that. -/
theorem State.functionReset_split (s : State) (n : FnNo) : ∃ u : State, s.functionReset n = u.settlePool.endUnbinds ∧
    u.fns = vmod s.fns n (fun _ => Func.reset n) ∧ (∀ o ∈ u.outst, o.fn ≠ n) ∧ (∀ p ∈ u.progs, p.stratum = n →
      p.launch = none ∧ p.loading = none ∧ p.unloading = []) := by
  have hstopped : ∀ x : State, (if s.panel.refresh.isSome && s.panel.draws.any fun d => d.carried && d.fn == n then
      s.stopRefresh else s) = x → x.fns = s.fns := fun x hx => by
    rw [← hx]
    split
    · exact s.stopRefresh_frame .fns (by decide)
    · rfl
  unfold functionReset
  dsimp only
  generalize hx : (if (s.panel.refresh.isSome && s.panel.draws.any fun d => d.carried && d.fn == n) = true then
    s.stopRefresh else s) = x
  have hends : ∀ (t : State) (l : List Frame), ChangesOnly [.clusters, .deliveries, .frames, .geo, .runs] t
      (t.forEach l fun f u =>
        ((({ u with deliveries := u.deliveries.filter fun d => !(d.chan == f.chan && d.seq == f.seq) } : State).endRun
          f.chan f.seq).releaseFrame f.chan f.seq false).delFrame f.chan f.seq) := fun t l =>
    (forEach_only (fun f u => by
      simp (disch := decide) only [delFrame_only, releaseFrame_only, endRun_only, upd_deliveries_only]) _ _).2 (.refl _ _)
  generalize hv : State.forEach _ _ _ = v
  have hv : ChangesOnly [.clusters, .deliveries, .frames, .geo, .runs] _ v := hv ▸ hends _ _
  refine ⟨_, rfl, ?_, ?_, fun p hp => ?_⟩
  · rw [← hstopped x hx]
    exact hv .fns (by decide)
  · have houtst : v.outst = x.outst.filter fun o => o.fn ≠ n := hv .outst (by decide)
    intro o ho
    have ho : o ∈ x.outst.filter fun o => o.fn ≠ n := houtst ▸ ho
    exact of_decide_eq_true (List.mem_filter.1 ho).2
  · obtain ⟨q, -, rfl⟩ := List.mem_map.1 hp
    split
    · exact fun _ => ⟨rfl, rfl, rfl⟩
    next h => exact fun e => absurd e h

/-- R112, R114, R115: what a function reset leaves of the function, and that no other function's queue pairs change. -/
theorem State.functionReset_state (s : State) (n : FnNo) : (s.functionReset n).fns[n].qps = (Func.reset n).qps ∧
    (∀ m : FnNo, m ≠ n → (s.functionReset n).fns[m].qps = s.fns[m].qps) ∧ (∀ o ∈ (s.functionReset n).outst, o.fn ≠ n) ∧
    (∀ p ∈ (s.functionReset n).progs, p.stratum = n → p.launch = none ∧ p.loading = none ∧ p.unloading = []) := by
  obtain ⟨u, hreset, hfns, houtst, hprogs⟩ := s.functionReset_split n
  have hq := (u.settlePool_queuesKept).trans u.settlePool.endUnbinds_queuesKept
  rw [hreset]
  refine ⟨?_, fun m hm => ?_, fun o ho => ?_, ?_⟩
  · rw [(hq n).qps, hfns, vmod_get]
  · rw [(hq m).qps, hfns, vmod_get_ne _ _ hm.symm]
  · exact houtst o (u.endUnbinds_outstShrinks o ho)
  · rw [u.settledUnbinds_frame .progs (by decide)]
    exact hprogs

theorem State.functionReset_keeps_reset {s : State} {n : FnNo} (m : FnNo) (h : s.fns[n].qps = (Func.reset n).qps) :
    (s.functionReset m).fns[n].qps = (Func.reset n).qps := by
  obtain ⟨hsame, hother, -⟩ := s.functionReset_state m
  by_cases e : n = m
  · rw [e]
    exact hsame
  · exact (hother n e).trans h

/-- R194: a VF which a change of VF Enable or NumVFs removes is reset. -/
theorem State.setVfs_qps {s : State} {on : Bool} {num : Nat} {n : FnNo} (h : n ≠ 0) (hp : s.present n = true)
    (hgone : (on && decide (n.val ≤ num)) = false) : (s.setVfs on num).fns[n].qps = (Func.reset n).qps := by
  have hn : n.val ≠ 0 := Fin.val_ne_zero_iff.2 h
  have hmem : n ∈ (List.finRange 16).filter fun n => n.val ≠ 0 && s.present n && !(on && decide (n.val ≤ num)) := by
    refine List.mem_filter.2 ⟨List.mem_finRange n, ?_⟩
    rw [hp, hgone, Bool.and_true, Bool.not_false, Bool.and_true]
    exact decide_eq_true hn
  have hreset := forEach_establishes (P := fun t => t.fns[n].qps = (Func.reset n).qps) (f := fun n u => u.functionReset n)
    hmem (fun t => (t.functionReset_state n).1) (fun m t ht => functionReset_keeps_reset m ht) s
  unfold setVfs
  exact hreset

/-! ### Bus Master Enable -/

/-- Bus Master Enable is 1, and nothing waits for it. -/
def Func.Drained (f : Func) : Prop := f.busMaster = true ∧ f.unsent = []

theorem QueuesKept.drained {s t : State} (h : QueuesKept s t) {n : FnNo} (hs : s.fns[n].Drained) : t.fns[n].Drained :=
  ⟨(h n).busMaster.trans hs.1, ((h n).unsent hs.1).trans hs.2⟩

theorem State.modQp_drained {s : State} {n : FnNo} (q : QpNo) (f : QPair → QPair) (hs : s.fns[n].Drained) :
    (s.modQp n q f).fns[n].Drained := by
  unfold modQp modFn
  rw [vmod_get]
  exact hs

theorem State.writeReply_drained {s : State} {n : FnNo} (q : QpNo) (op fl : BitVec 8) (tag st d : W16) (a b : W64)
    (hs : s.fns[n].Drained) : (s.writeReply n q op fl tag st d a b).fns[n].Drained := by
  have hwritten := fun f e => (emit_queuesKept (s.modQp n q f) e).drained (modQp_drained q f hs)
  unfold writeReply
  dsimp only
  split
  · exact (raise_queuesKept _ _ _).drained (hwritten _ _)
  · exact hwritten _ _

theorem State.sendNow_drained {s : State} {n : FnNo} (w : Unsent) (hs : s.fns[n].Drained) : (s.sendNow n w).fns[n].Drained := by
  cases w with
  | bytes a b => exact (emit_queuesKept _ _).drained hs
  | reply q op fl tag st d a b => exact writeReply_drained q op fl tag st d a b hs

theorem settleQueue_drained {s : State} {n : FnNo} (q : QpNo) (hs : s.fns[n].Drained) : (settleQueue s n q).fns[n].Drained := by
  have hstart : ∀ t : State, t.fns[n].Drained → (startQueue t n q).fns[n].Drained := fun t ht => by
    unfold startQueue
    dsimp only
    split
    · exact State.modQp_drained q _ ht
    · exact (State.raise_queuesKept _ _ _).drained (State.modQp_drained q _ ht)
  unfold settleQueue
  dsimp only
  split
  · split
    · exact hstart _ (State.modQp_drained q _ hs)
    · exact State.modQp_drained q _ hs
  · exact hs

theorem State.releaseMsix_queuesKept (s : State) (n : FnNo) : QueuesKept s (s.releaseMsix n) :=
  .forEach (fun _ t => .ite ((t.modFn_queuesKept n ⟨rfl, rfl, fun _ => rfl⟩).trans (emit_queuesKept _ _)) (.refl t)) _ _

theorem writeReply_grows (s : State) (n : FnNo) (q : QpNo) (op fl : BitVec 8) (tag st d : W16) (a b : W64) :
    Grows s (s.writeReply n q op fl tag st d a b) := by
  unfold State.writeReply
  dsimp only
  split
  · exact ((modQp_grows _ _ _ _).trans (emit_grows _ _)).trans (raise_grows _ _ _)
  · exact (modQp_grows _ _ _ _).trans (emit_grows _ _)

theorem State.releaseMsix_grows (s : State) (n : FnNo) : Grows s (s.releaseMsix n) :=
  forEach_grows (fun _ t => by
    dsimp only
    split
    · refine Grows.trans ?_ (emit_grows _ _)
      exact modFn_grows _ _ _ fun _ => ⟨rfl, rfl⟩
    · exact .refl t) _ _

/-- The event queue, the pending messages and the rings of a function which may write again. -/
theorem State.resumed_queuesKept (s : State) (n : FnNo) (l : List Nat) :
    QueuesKept s (((s.flushEvq n).releaseMsix n).forEach l fun pid u => u.pumpRing n pid) :=
  ((s.writeHeld_queuesKept n _).trans (releaseMsix_queuesKept _ n)).trans (.forEach (fun pid u => u.pumpRing_queuesKept n pid) _ _)

theorem State.resumed_mem_out (s : State) (n : FnNo) (l : List Nat) {e : Emit} (h : e ∈ s.out) :
    e ∈ (((s.flushEvq n).releaseMsix n).forEach l fun pid u => u.pumpRing n pid).out := by
  obtain ⟨k, hk⟩ := ((flushEvq_grows s n).trans (releaseMsix_grows _ n)).out
  refine (Sends.forEach (fun pid u => u.pumpRing_sends n pid) l _).mem_out ?_
  rw [hk]
  exact List.mem_append_left _ h

theorem settleQueues_drained {s : State} {n : FnNo} (hs : s.fns[n].Drained) :
    (s.forEach (List.finRange 4) fun q t => settleQueue t n q).fns[n].Drained :=
  State.forEach_keeps (P := fun t => t.fns[n].Drained) (fun q _ ht => settleQueue_drained q ht) _ s hs

/-- R1144: a function which is given Bus Master Enable stays drained, and what it has sent stays sent. -/
theorem busMaster_on {n : FnNo} {s u : State} (hu : (s.modFn n fun f => { f with busMaster := true }).sendUnsent n = u)
    (hd : u.fns[n].Drained) : (busMaster n true s).fns[n].Drained ∧ ∀ e ∈ u.out, e ∈ (busMaster n true s).out := by
  have heq : busMaster n true s = (((u.forEach (List.finRange 4) fun q t => settleQueue t n q).flushEvq n).releaseMsix n).forEach
      (((u.forEach (List.finRange 4) fun q t => settleQueue t n q).progs.filter fun p => p.stratum == n).map (·.id))
      fun pid v => v.pumpRing n pid := by
    rw [← hu]
    rfl
  rw [heq]
  refine ⟨(State.resumed_queuesKept _ n _).drained (settleQueues_drained hd), fun e he => State.resumed_mem_out _ n _ ?_⟩
  obtain ⟨l, hl⟩ := (forEach_grows (fun q t => settleQueue_grows t n q) (List.finRange 4) u).out
  rw [hl]
  exact List.mem_append_left _ he

/-- R1144: what waited is written, and nothing waits any longer. -/
theorem State.sendUnsent_state {s : State} {n : FnNo} (hon : s.fns[n].busMaster = true) (hlink : s.boot.linkL0 = true) :
    (s.sendUnsent n).fns[n].Drained ∧
      ∀ a b, Unsent.bytes a b ∈ s.fns[n].unsent → Emit.hostWrite n a b false ∈ (s.sendUnsent n).out := by
  have hempty : (s.modFn n fun g => { g with unsent := [] }).fns[n].Drained := by
    unfold modFn
    rw [vmod_get]
    exact ⟨hon, rfl⟩
  refine ⟨forEach_keeps (P := fun t => t.fns[n].Drained) (fun w t ht => sendNow_drained w ht) _ _ hempty, fun a b hw => ?_⟩
  have hboot : ∀ (t : State) (w : Unsent), ChangesOnly [.fns, .out] t (t.sendNow n w) := fun t w =>
    (by apply sendNow_only <;> decide : _ ↔ ChangesOnly _ t t).2 (.refl _ _)
  have hgrows : ∀ (t : State) (w : Unsent), Grows t (t.sendNow n w) := fun t w => by
    cases w with
    | bytes a b => exact emit_grows _ _
    | reply q op fl tag st d a b => exact writeReply_grows t n q op fl tag st d a b
  have hsent := forEach_establishes (P := fun t => t.boot.linkL0 = true → Emit.hostWrite n a b false ∈ t.out)
    (f := fun w t => t.sendNow n w) hw (fun t ht => by
      have h : t.boot.linkL0 = true := by rw [← hboot t (.bytes a b) .boot (by decide)]; exact ht
      exact mem_emit_out h _) (fun w t ht hlink => by
      have h : t.boot.linkL0 = true := by rw [← hboot t w .boot (by decide)]; exact hlink
      obtain ⟨l, hl⟩ := (hgrows t w).out
      rw [hl]
      exact List.mem_append_left _ (ht h)) (s.modFn n fun g => { g with unsent := [] })
  have hframe : ChangesOnly [.fns, .out] s (s.sendUnsent n) :=
    (by apply sendUnsent_only <;> decide : _ ↔ ChangesOnly _ s s).2 (.refl _ _)
  exact hsent ((congrArg Boot.linkL0 (hframe .boot (by decide))).trans hlink)

theorem State.forEach_fixed {α : Type} {f : α → State → State} {s : State} (h : ∀ a, f a s = s) (l : List α) :
    s.forEach l f = s :=
  forEach_keeps (P := fun t => t = s) (fun a t ht => by rw [ht, h]) l s rfl

/-- R1144: with nothing waiting, nothing held and no program, Bus Master Enable is all that changes. -/
theorem busMaster_of_idle {n : FnNo} {s : State} (hheld : s.fns[n].evq.held = []) (hpba : s.fns[n].pba = 0)
    (hunsent : s.fns[n].unsent = []) (hstop : ∀ qp : QpNo, s.fns[n].qps[qp].stopping = false)
    (hprogs : ∀ p ∈ s.progs, p.stratum ≠ n) :
    busMaster n true s = s.modFn n fun f => { f with busMaster := true } := by
  generalize ht : (s.modFn n fun f => { f with busMaster := true }) = t
  have hfn : t.fns[n] = { s.fns[n] with busMaster := true } := by
    rw [← ht]
    exact vmod_get _ _ _
  have hsent : t.sendUnsent n = t := by
    have hnone : t.fns[n].unsent = [] := by rw [hfn, hunsent]
    have hsame : (t.modFn n fun g => { g with unsent := [] }) = t := by
      unfold State.modFn
      rw [vmod_eq_self (by rw [← hnone])]
    unfold State.sendUnsent
    rw [hnone, hsame]
    rfl
  have hsettle : ∀ q : QpNo, settleQueue t n q = t := fun q => by
    unfold settleQueue
    dsimp only
    rw [if_neg]
    rw [show t.fns[n].qps[q].stopping = false by rw [hfn]; exact hstop q]
    exact Bool.false_ne_true
  have hflush : t.flushEvq n = t := by
    have hnone : t.fns[n].evq.held = [] := by rw [hfn, hheld]
    unfold State.flushEvq
    rw [hnone]
    unfold State.writeHeld State.modEvq State.modFn
    rw [vmod_eq_self (by rw [← hnone])]
  have hrelease : ∀ v : Fin 64, ¬(t.fns[n].pba.getLsbD v.val && t.fns[n].busMaster && !t.fns[n].functionMask &&
      !t.fns[n].msix[v].masked) = true := fun v => by
    rw [show t.fns[n].pba = 0 by rw [hfn, hpba]]
    simp
  have hqueues : (t.forEach (List.finRange 4) fun q u => settleQueue u n q) = t := State.forEach_fixed hsettle _
  have hmessages : t.releaseMsix n = t := by
    unfold State.releaseMsix
    refine State.forEach_fixed (fun v => ?_) _
    exact if_neg (hrelease v)
  have hnone : (t.progs.filter fun p => p.stratum == n) = [] := by
    rw [← ht]
    exact List.filter_eq_nil_iff.2 fun p hp => by simpa using hprogs p hp
  unfold busMaster
  dsimp only
  rw [ht, if_neg (by decide), hsent, hqueues, hflush, hmessages, hnone]
  rfl

/-- Settles O36: configuration requests, function resets and Bus Master Enable are the lemmas above. -/
theorem linkAndFunctions : Obligations.LinkAndFunctions := by
  unfold Obligations.LinkAndFunctions
  refine ⟨?_, ?_, ?_, ?_, ?_, ?_, ?_, ?_, ?_, ?_, ?_, ?_⟩
  · intro s hs
    exact congrArg Host.Outcome.next (if_pos hs)
  · intro s
    rfl
  · intro fn req s hl hr
    have hcrs : configRequest fn req s = { s with out := s.out ++ [.configAnswer fn true none] } := by
      unfold configRequest State.emit
      rw [if_neg (by rw [hl]; exact Bool.false_ne_true), if_pos (by rw [hr]; rfl),
        if_neg (by rw [hl, Bool.not_true, Bool.and_false]; exact Bool.false_ne_true)]
    exact congrArg Host.Outcome.next hcrs
  · intro fn f s hp hr
    refine ⟨congrArg Host.Outcome.next ((configRequest_of_present hp hr).trans (State.emit_of_configReady hr _)), rfl, ?_,
      rfl, rfl⟩
    show (if fn.val = 0 then 0x4820 else 0x4821) = _
    exact ite_congr (propext Fin.val_eq_zero_iff) (fun _ => rfl) (fun _ => rfl)
  · intro fn on s hp hr
    exact configRequest_of_modFn (req := .memSpace on) hp hr rfl nofun
  · intro fn on s hp hr
    exact configRequest_of_modFn (req := .relaxedOrdering on) hp hr rfl nofun
  · intro n s hr hf h1 h15 hn
    have hwrite : configWrite 0 (.vfEnable n) s = s.setVfs true n :=
      if_pos (by rw [hf, decide_eq_true h1, decide_eq_true h15]; rfl)
    have hrequest : configRequest 0 (.vfEnable n) s = (s.setVfs true n).emit (.configAnswer 0 false none) :=
      (configRequest_of_present rfl hr).trans (by rw [hwrite]; rfl)
    refine ⟨_, congrArg Host.Outcome.next hrequest, ?_⟩
    have hboot := (s.setVfs true n).emit_frame (.configAnswer 0 false none) .boot (by decide)
    generalize State.emit _ _ = t at hboot
    have hboot : t.boot = { (s.setVfs true n).boot with vfEnable := true, numVfs := n } := hboot
    refine ⟨by rw [hboot], by rw [hboot], fun fn => ?_⟩
    unfold State.present
    rw [hboot]
    simp
    omega
  · intro fn s hr hn hp
    have hmine : (s.configReady && decide (fn.val ≠ 0) && s.present fn) = true := by
      rw [hr, hp, decide_eq_true (Fin.val_ne_zero_iff.2 hn)]
      rfl
    obtain ⟨hqps, -, houtst, hprogs⟩ := s.functionReset_state fn
    have hframe : ChangesOnly (Comp.allBut [.strata]) s (s.functionReset fn) :=
      (by apply functionReset_only <;> simp : _ ↔ ChangesOnly _ s s).2 (.refl _ _)
    exact ⟨_, congrArg Host.Outcome.next (if_pos hmine), hqps, houtst, hprogs, hframe .strata (by decide)⟩
  · intro s hr hv
    refine ⟨s.setVfs false 0, congrArg Host.Outcome.next (if_neg (by rw [hr, hv]; exact Bool.false_ne_true)), rfl,
      fun fn hn => ⟨?_, fun hp => State.setVfs_qps hn hp rfl⟩⟩
    show (decide (fn.val = 0) || (false && _)) = false
    rw [decide_eq_false (Fin.val_ne_zero_iff.2 hn), Bool.false_and]
    rfl
  · intro fn s hr hp
    exact congrArg Host.Outcome.next (if_pos (by rw [hr, hp]; rfl))
  · intro fn s hr hp hheld hpba hunsent hstop hprogs
    exact congrArg Host.Outcome.next
      ((if_pos (by rw [hr, hp]; rfl)).trans (busMaster_of_idle hheld hpba hunsent hstop hprogs))
  · intro fn a b s hr hp hw
    obtain ⟨-, hlink, -⟩ := s.configReady_iff.1 hr
    refine ⟨_, congrArg Host.Outcome.next (if_pos (by rw [hr, hp]; rfl)), ?_⟩
    generalize ht : (s.modFn fn fun f => { f with busMaster := true }) = t
    have hfn : t.fns[fn] = { s.fns[fn] with busMaster := true } := by
      rw [← ht]
      exact vmod_get _ _ _
    have hboot : t.boot = s.boot := by rw [← ht]; rfl
    obtain ⟨hdrained, hout⟩ := State.sendUnsent_state (s := t) (n := fn) (by rw [hfn]) (by rw [hboot, hlink])
    obtain ⟨hlast, hkept⟩ := busMaster_on (s := s) (by rw [ht]) hdrained
    exact ⟨hlast.1, hlast.2, hkept _ (hout a b (by rw [hfn]; exact hw))⟩

end Sys2Proof.Machine
end

section
/-!
PROOFS. The phases of start-up (R144 to R149, R158 to R175).
-/

namespace Sys2Proof.Machine

/-! ### Start-up which goes on -/

theorem State.starting_iff (s : State) (p : BitVec 4) : s.starting p = true ↔ s.supplied = true ∧ s.boot.inReset = false ∧
    s.boot.resetPending = false ∧ s.boot.fatal = false ∧ s.boot.phase = p := by
  unfold starting
  simp [and_assoc]

theorem State.setPhase_frame (s : State) (p : BitVec 4) (f : BitVec 8) : ChangesOnly [.boot, .fns, .out] s (s.setPhase p f) :=
  (by apply setPhase_only <;> decide : _ ↔ ChangesOnly _ s s).2 (.refl _ _)

theorem State.setPhase_phase (s : State) (p : BitVec 4) (f : BitVec 8) : (s.setPhase p f).boot.phase = p := by
  rw [setPhase_boot]
  rfl

/-! ### SUPERVISOR_BOOT and AON_CHECK -/

/-- R145: an image which was abandoned is not picked. -/
theorem State.pickImage_ne_of_abandonedA {s : State} (h : s.boot.abandonedA = true) : s.pickImage ≠ 0 := by
  unfold pickImage
  rw [if_pos h]
  cases (if s.boot.abandonedB then none else s.slotValid 2) with
  | none => exact (by decide : (0xFF : BitVec 8) ≠ 0)
  | some k => exact (by decide : (1 : BitVec 8) ≠ 0)

theorem State.pickImage_ne_of_abandonedB {s : State} (h : s.boot.abandonedB = true) : s.pickImage ≠ 1 := by
  unfold pickImage
  rw [if_pos h]
  cases (if s.boot.abandonedA then none else s.slotValid 1) with
  | none => exact (by decide : (0xFF : BitVec 8) ≠ 1)
  | some k => exact (by decide : (0 : BitVec 8) ≠ 1)

/-- R146: an image which does not boot is abandoned, and the fault recorded. -/
theorem abandonImage_state {s : State} (hs : s.starting 1 = true) (hi : s.boot.image ≠ 0xFF) :
    (abandonImage s).boot.phase = 1 ∧ (abandonImage s).faults.next = s.faults.next + 1 ∧
      (s.boot.image = 0 → (abandonImage s).boot.abandonedA = true ∧ (abandonImage s).boot.image ≠ 0) ∧
      (s.boot.image = 1 → (abandonImage s).boot.abandonedB = true ∧ (abandonImage s).boot.image ≠ 1) := by
  have hgo : ¬(!s.starting phSupervisorBoot || s.boot.image == 0xFF) = true := by
    rw [hs, beq_eq_false_iff_ne.2 hi]
    exact Bool.false_ne_true
  have hphase := ((s.starting_iff 1).1 hs).2.2.2.2
  unfold abandonImage
  rw [if_neg hgo]
  dsimp only
  have hnext := s.fault_next 5 1 0x0A00 0 0 0xFF 0xFFFF (s.boot.image.setWidth 224)
  have hboot : (s.fault 5 1 0x0A00 0 0 0xFF 0xFFFF (s.boot.image.setWidth 224)).1.boot = s.boot :=
    (show ChangesOnly [.faults, .telem] s _ from (by apply fault_only <;> decide : _ ↔ ChangesOnly _ s s).2 (.refl _ _))
      .boot (by decide)
  generalize (s.fault 5 1 0x0A00 0 0 0xFF 0xFFFF (s.boot.image.setWidth 224)).1 = t at hnext hboot
  rw [hboot]
  refine ⟨hphase, hnext, fun h => ?_, fun h => ?_⟩
  · have hab : (s.boot.abandonedA || s.boot.image == 0) = true := by rw [h]; exact Bool.or_true _
    exact ⟨hab, State.pickImage_ne_of_abandonedA hab⟩
  · have hab : (s.boot.abandonedB || s.boot.image == 1) = true := by rw [h]; exact Bool.or_true _
    exact ⟨hab, State.pickImage_ne_of_abandonedB hab⟩

/-- R148: without a failed tick check SUPERVISOR_BOOT is followed by AON_CHECK. -/
theorem bootEnds_none {m l : Bool} {s : State} (hs : s.starting 1 = true) : (bootEnds none m l s).boot.phase = 2 ∧
    (bootEnds none m l s).boot.fatal = false ∧ (bootEnds none m l s).sup.monitorFailed = (s.sup.monitorFailed || !m) := by
  obtain ⟨-, -, -, hfatal, -⟩ := (s.starting_iff 1).1 hs
  have hfault : ∀ (t : State) (a b : BitVec 8) (u : W16), ChangesOnly [.faults, .telem] t (t.fault a b u 0 0 0xFF 0xFFFF 0).1 :=
    fun t a b u => (by apply fault_only <;> decide : _ ↔ ChangesOnly _ t t).2 (.refl _ _)
  have hlog : ∀ t : State, ChangesOnly [.faults, .telem] t (if l then t else t.newFaultLog) := fun t => by
    split
    · exact .refl _ _
    · exact (by apply newFaultLog_only <;> decide : _ ↔ ChangesOnly _ t t).2 (.refl _ _)
  have hcheck : ∀ t : State, ChangesOnly [.nv, .panel] t t.checkJournal := fun t =>
    (by apply checkJournal_only <;> decide : _ ↔ ChangesOnly _ t t).2 (.refl _ _)
  unfold bootEnds
  rw [if_neg (by rw [hs]; exact Bool.false_ne_true)]
  dsimp only
  have hphase : (s.setPhase phAonCheck 0).boot.phase = 2 ∧ (s.setPhase phAonCheck 0).boot.fatal = false ∧
      (s.setPhase phAonCheck 0).sup = s.sup := ⟨rfl, hfatal, rfl⟩
  generalize s.setPhase phAonCheck 0 = u at hphase
  obtain ⟨hp, hf, hu⟩ := hphase
  rw [hcheck _ .boot (by decide), hcheck _ .sup (by decide)]
  cases m
  · rw [if_neg Bool.false_ne_true, hfault _ _ _ _ .boot (by decide), hfault _ _ _ _ .sup (by decide)]
    refine ⟨?_, ?_, ?_⟩
    · exact (congrArg Boot.phase (hlog u .boot (by decide))).trans hp
    · exact (congrArg Boot.fatal (hlog u .boot (by decide))).trans hf
    · exact (Bool.or_true _).symm
  · rw [if_pos rfl, hlog u .boot (by decide), hlog u .sup (by decide)]
    exact ⟨hp, hf, by rw [hu]; exact (Bool.or_false _).symm⟩

/-- R140, R246: a fatal condition during start-up sets the phase, and its words. -/
theorem State.enterFatal_of_starting {s : State} {p : BitVec 4} (hs : s.starting p = true)
    (hp : p ≠ phReady ∧ p ≠ phRecovery ∧ p ≠ phFailed) (cause : BitVec 8) (w : W16) (a b : W32) :
    (s.enterFatal cause w [a, b]).boot.phase = 0xC ∧ (s.enterFatal cause w [a, b]).boot.fatal = true ∧
      (s.enterFatal cause w [a, b]).boot.fatalLog[3] = a ∧ (s.enterFatal cause w [a, b]).boot.fatalLog[4] = b := by
  obtain ⟨hsupplied, hreset, -, hfatal, hphase⟩ := (s.starting_iff p).1 hs
  have hgo : ¬(s.boot.fatal || s.boot.inReset || !(s.sup.power == .standby || s.sup.power == .active)) = true := by
    rw [hfatal, hreset, show (s.sup.power == .standby || s.sup.power == .active) = true from hsupplied]
    decide
  have hstart : (!(s.boot.phase == phReady || s.boot.phase == phRecovery || s.boot.phase == phFailed)) = true := by
    rw [hphase, beq_eq_false_iff_ne.2 hp.1, beq_eq_false_iff_ne.2 hp.2.1, beq_eq_false_iff_ne.2 hp.2.2]
    rfl
  unfold enterFatal
  rw [if_neg hgo]
  dsimp only
  rw [if_pos hstart, raiseAll_frame _ _ .boot (by decide)]
  exact ⟨rfl, rfl, rfl, rfl⟩

/-- R140, R147: AON_CHECK is followed by WAIT_MAIN, which ends at once when the module is ACTIVE. -/
theorem State.leaveWait_phase {s : State} (hs : s.starting 2 = true) : (s.setPhase phWaitMain 0).leaveWait.boot.phase =
    if s.sup.power ≠ .active then 3 else if s.boot.image = 0xFF then 0xA else 4 := by
  obtain ⟨-, hreset, -, hfatal, -⟩ := (s.starting_iff 2).1 hs
  have hwait : (s.setPhase phWaitMain 0).boot.phase = phWaitMain ∧ (s.setPhase phWaitMain 0).sup = s.sup ∧
      (s.setPhase phWaitMain 0).boot.inReset = s.boot.inReset ∧ (s.setPhase phWaitMain 0).boot.fatal = s.boot.fatal ∧
      (s.setPhase phWaitMain 0).boot.image = s.boot.image := ⟨rfl, rfl, rfl, rfl, rfl⟩
  generalize s.setPhase phWaitMain 0 = t at hwait
  obtain ⟨hphase, hsup, hr, hf, himage⟩ := hwait
  unfold leaveWait
  rw [hphase, hsup, hr, hf, himage, hreset, hfatal]
  by_cases hpower : s.sup.power = .active
  · rw [if_pos ⟨rfl, hpower, by decide, by decide⟩, if_neg (not_not_intro hpower)]
    split
    · exact setPhase_phase _ _ _
    · exact setPhase_phase _ _ _
  · rw [if_neg fun h => hpower h.2.1, if_pos hpower]
    exact hphase

/-! ### CLOCK_START to MAPPING -/

/-- R181: CLOCK_START puts the plan in force which the caps call for. -/
theorem clocksStart_state {s : State} (hs : s.starting 4 = true) :
    (clocksStart s).boot.phase = 5 ∧ (clocksStart s).plans.inForce = s.planCalled := by
  have hcalled : (s.setPhase phGeodeTest 0).planCalled = s.planCalled := rfl
  have hcaps : ∀ t : State, (t.settlePlan true).plans.inForce = t.plans.inForce := fun t =>
    congrArg Prod.fst (t.settlePlan_caps true)
  unfold clocksStart
  rw [if_neg (by rw [hs]; exact Bool.false_ne_true)]
  dsimp only
  rw [State.settlePlan_frame _ _ .boot (by decide), hcaps]
  exact ⟨rfl, hcalled⟩

/-- R159, R162, R165: a unit which fails its test is retired. -/
theorem State.bistFail_retires (s : State) (u : Unit_) : ((s.bistFail u).unitSt u).retired = true := by
  unfold bistFail
  split
  next h => exact h
  · dsimp only
    rw [modUnit_unitSt]

theorem State.bistFail_marksKept (s : State) (u : Unit_) : MarksKept s (s.bistFail u) := by
  refine .ite (.refl s) ?_
  have hfault : MarksKept s (s.fault 1 5 u.code 0 2 0xFF 0xFFFF 0).1 := .of_law (by apply fault_only <;> simp)
  have hfailed : ∀ (t : State) (k : Nat), MarksKept t (t.unitFailed u.code 5 2 [] k) := fun t k =>
    .of_law (by apply unitFailed_only <;> simp)
  exact (hfault.trans (hfailed _ _)).trans (modUnit_marksKept _ _ fun _ => ⟨fun _ => rfl, fun _ => rfl⟩)

/-- The units which fail their tests at the end of a round, a bank test or a training. -/
theorem State.bistFails_retire {α : Type} {l : List α} {a : α} (u : α → Unit_) (h : a ∈ l) (s : State) :
    ((s.forEach l fun b t => t.bistFail (u b)).unitSt (u a)).retired = true :=
  forEach_establishes (P := fun t => (t.unitSt (u a)).retired = true) (f := fun b t => t.bistFail (u b)) h
    (fun t => t.bistFail_retires (u a)) (fun b t ht => (t.bistFail_marksKept (u b) (u a)).2 ht) s

theorem State.bistFails_frame {α : Type} (l : List α) (u : α → Unit_) (s : State) :
    ChangesOnly [.faults, .fns, .out, .telem, .units, .waits] s (s.forEach l fun b t => t.bistFail (u b)) :=
  (forEach_only (fun b t => by apply bistFail_only <;> decide) _ _).2 (.refl _ _)

/-- R160: the banks which fail are retired, and the rest is free. -/
theorem geodeTested_state {failed : List BankNo} {s : State} (hs : s.starting 5 = true) :
    (geodeTested failed s).boot.phase = 6 ∧ (geodeTested failed s).geo = Geode.fresh ∧
      (geodeTested failed s).boot.rounds = 0 ∧ ∀ b ∈ failed, (geodeTested failed s).units.banks[b].retired = true := by
  have hretired : ∀ b ∈ failed, ((s.forEach failed fun b u => u.bistFail (.bank b)).unitSt (.bank b)).retired = true :=
    fun b hb => State.bistFails_retire Unit_.bank hb s
  unfold geodeTested
  rw [if_neg (by rw [hs]; exact Bool.false_ne_true)]
  exact ⟨rfl, rfl, rfl, hretired⟩

/-- R166: CLUSTER_TEST ends once both parts of it have. -/
theorem State.clusterTestEnds_state (s : State) : s.clusterTestEnds.units = s.units ∧ s.clusterTestEnds.ext = s.ext ∧
    s.clusterTestEnds.boot.rounds = s.boot.rounds ∧ s.clusterTestEnds.boot.lpddrDone = s.boot.lpddrDone ∧
    s.clusterTestEnds.boot.phase = if s.boot.rounds = 9 ∧ s.boot.lpddrDone = true then phMapping else s.boot.phase := by
  unfold clusterTestEnds
  by_cases h : s.boot.rounds = 9 ∧ s.boot.lpddrDone = true
  · rw [if_pos h, if_pos (by rw [h.1, h.2]; rfl)]
    exact ⟨rfl, rfl, rfl, rfl, rfl⟩
  · rw [if_neg h, if_neg (by simpa using h)]
    exact ⟨rfl, rfl, rfl, rfl, rfl⟩

/-- R161, R162: a round of eight clusters. -/
theorem roundTested_state {failed : List PhysNo} {s : State} (hs : s.starting 6 = true) (hn : s.boot.rounds < 9) :
    (roundTested failed s).boot.rounds = s.boot.rounds + 1 ∧
      (roundTested failed s).boot.phase = (if s.boot.rounds = 8 ∧ s.boot.lpddrDone = true then 7 else 6) ∧
      ∀ c ∈ failed, c.val / 8 = s.boot.rounds → (roundTested failed s).units.clusters[c].retired = true := by
  have hphase := ((s.starting_iff 6).1 hs).2.2.2.2
  have hretired := fun c hc => State.bistFails_retire (l := failed.filter fun c => c.val / 8 == s.boot.rounds)
    (a := c) Unit_.cluster hc s
  have hboot := State.bistFails_frame (failed.filter fun c => c.val / 8 == s.boot.rounds) Unit_.cluster s .boot (by decide)
  have hgo : ¬(!s.starting phClusterTest || decide (9 ≤ s.boot.rounds)) = true := by
    rw [hs, decide_eq_false (Nat.not_le.2 hn)]
    exact Bool.false_ne_true
  unfold roundTested
  rw [if_neg hgo]
  dsimp only
  generalize State.forEach _ _ _ = u at hretired hboot
  obtain ⟨hunits, -, hrounds, -, hends⟩ :=
    ({ u with boot := { u.boot with rounds := u.boot.rounds + 1 } } : State).clusterTestEnds_state
  have hboot : u.boot = s.boot := hboot
  rw [hunits, hrounds, hends, hboot]
  refine ⟨rfl, ?_, fun c hc hr => hretired c (List.mem_filter.2 ⟨hc, beq_iff_eq.2 hr⟩)⟩
  dsimp only
  rw [hphase]
  exact ite_congr (propext (and_congr_left fun _ => by omega)) (fun _ => rfl) fun _ => rfl

/-- R164, R165: the training of external memory. -/
theorem lpddrTested_state {failed : List ExtNo} {s : State} (hs : s.starting 6 = true) (hl : s.boot.lpddrDone = false) :
    (lpddrTested failed s).boot.lpddrDone = true ∧
      (lpddrTested failed s).boot.phase = (if s.boot.rounds = 9 then 7 else 6) ∧
      ∀ c ∈ failed, (lpddrTested failed s).units.exts[c].retired = true ∧ c ∉ (lpddrTested failed s).ext.order := by
  have hphase := ((s.starting_iff 6).1 hs).2.2.2.2
  have hretired := fun c hc => State.bistFails_retire (l := failed) (a := c) Unit_.ext hc s
  have hboot := State.bistFails_frame failed Unit_.ext s .boot (by decide)
  have hgo : ¬(!s.starting phClusterTest || s.boot.lpddrDone) = true := by
    rw [hs, hl]
    exact Bool.false_ne_true
  unfold lpddrTested
  rw [if_neg hgo]
  dsimp only
  generalize State.forEach _ _ _ = u at hretired hboot
  obtain ⟨hunits, hext, -, hdone, hends⟩ := ({ u with
    ext := { ExtMem.fresh with order := u.interleave }, boot := { u.boot with lpddrDone := true } } : State).clusterTestEnds_state
  have hboot : u.boot = s.boot := hboot
  rw [hunits, hext, hdone, hends, hboot]
  refine ⟨rfl, ?_, fun c hc => ⟨hretired c hc, fun hmem => ?_⟩⟩
  · dsimp only
    rw [hphase]
    exact ite_congr (propext (and_iff_left rfl)) (fun _ => rfl) fun _ => rfl
  · have hfree : (!u.units.exts[c].retired) = true := (List.mem_filter.1 hmem).2
    have hgone : u.units.exts[c].retired = true := hretired c hc
    rw [hgone] at hfree
    exact Bool.false_ne_true hfree

/-! ### MAPPING -/

theorem causeStart_valid (n : FnNo) : (causeValid n).getLsbD 10 = true := by
  unfold causeValid
  split <;> rfl

/-- R140: the phases which end start-up raise START in every function. -/
theorem State.setPhase_raises {s : State} {p : BitVec 4} (hp : p = phReady ∨ p = phRecovery ∨ p = phFailed ∨ p = phFatal)
    (f : BitVec 8) (n : FnNo) : (s.setPhase p f).fns[n].intCause.getLsbD 10 = true := by
  unfold setPhase
  dsimp only
  rw [if_pos hp]
  exact raiseAll_sets_bit _ n (by decide) (causeStart_valid n)

/-- R171 to R173: MAPPING ends in READY or FAILED. -/
theorem mappingEnds_state {s : State} (hs : s.starting 7 = true) :
    (mappingEnds s).boot.phase = (if s.startFail = 0 then 8 else 0xB) ∧ (mappingEnds s).boot.fail = s.startFail ∧
      (mappingEnds s).mapping = s.buildMapping.mapping ∧ ∀ n : FnNo, (mappingEnds s).fns[n].intCause.getLsbD 10 = true := by
  have hbuilt : ChangesOnly [.clusters, .faults, .lastPhys, .mapping, .scratch, .telem] s s.buildMapping :=
    (by apply buildMapping_only <;> decide : _ ↔ ChangesOnly _ s s).2 (.refl _ _)
  have hfail : s.buildMapping.startFail = s.startFail := by
    unfold State.startFail
    rw [hbuilt .units (by decide)]
  have hrecorded : ∀ t : State, ChangesOnly [.nv] t t.recordSystem := fun t =>
    (by apply recordSystem_only; decide : _ ↔ ChangesOnly _ t t).2 (.refl _ _)
  unfold mappingEnds
  rw [if_neg (by rw [hs]; exact Bool.false_ne_true)]
  dsimp only
  rw [hfail]
  generalize hu : (if s.startFail ≠ 0 then s.buildMapping.setPhase phFailed s.startFail else s.buildMapping.enterReady) = u
  have hphase : u.boot.phase = (if s.startFail = 0 then 8 else 0xB) ∧ u.boot.fail = s.startFail ∧
      u.mapping = s.buildMapping.mapping ∧ ∀ n : FnNo, u.fns[n].intCause.getLsbD 10 = true := by
    rw [← hu]
    generalize s.buildMapping = m
    by_cases h : s.startFail = 0
    · rw [if_neg (not_not_intro h), if_pos h, h]
      unfold State.enterReady
      have hmapping := ({ m with boot := { m.boot with degraded := m.anyRetired } } : State).setPhase_frame phReady 0
        .mapping (by decide)
      rw [State.setPhase_boot]
      exact ⟨rfl, rfl, hmapping, State.setPhase_raises (.inl rfl) 0⟩
    · have hmapping := m.setPhase_frame phFailed s.startFail .mapping (by decide)
      rw [if_pos h, if_neg h, State.setPhase_boot]
      exact ⟨rfl, rfl, hmapping, State.setPhase_raises (.inr (.inr (.inl rfl))) _⟩
  obtain ⟨hp, hf, hm, hraised⟩ := hphase
  rw [hrecorded _ .boot (by decide), hrecorded _ .mapping (by decide), hrecorded _ .fns (by decide),
    State.settlePlan_frame _ _ .boot (by decide), State.settlePlan_frame _ _ .mapping (by decide)]
  exact ⟨hp, hf, hm, fun n => (u.settlePlan_recorded true).causesKept n 10 (hraised n)⟩

/-- Settles O34: each phase is a lemma above. -/
theorem startupPhases : Obligations.StartupPhases := by
  unfold Obligations.StartupPhases
  refine ⟨?_, ?_, ?_, ?_, ?_, ?_, ?_, ?_, ?_⟩
  · intro s hs hi
    exact ⟨_, rfl, abandonImage_state hs hi⟩
  · intro m l s hs
    exact ⟨_, rfl, bootEnds_none hs⟩
  · intro a b m l s hs
    have hchecked : bootEnds (some (a, b)) m l s = (s.setPhase phAonCheck 0).enterFatal 4 0x0C00 [a, b] := by
      unfold bootEnds
      rw [if_neg (by rw [hs]; exact Bool.false_ne_true)]
    obtain ⟨hsupplied, hreset, hpending, hfatal, -⟩ := (s.starting_iff 1).1 hs
    exact ⟨_, congrArg Host.Outcome.next hchecked, State.enterFatal_of_starting (p := phAonCheck)
      (((s.setPhase phAonCheck 0).starting_iff _).2 ⟨hsupplied, hreset, hpending, hfatal, rfl⟩) (by decide) _ _ _ _⟩
  · intro s hs
    exact ⟨_, congrArg Host.Outcome.next (if_pos hs), State.leaveWait_phase hs⟩
  · intro s hs
    exact ⟨_, rfl, clocksStart_state hs⟩
  · intro failed s hs
    exact ⟨_, rfl, geodeTested_state hs⟩
  · intro failed s hs hn
    exact ⟨_, rfl, roundTested_state hs hn⟩
  · intro failed s hs hl
    exact ⟨_, rfl, lpddrTested_state hs hl⟩
  · intro s hs
    exact ⟨_, rfl, mappingEnds_state hs⟩

end Sys2Proof.Machine
end

section
/-!
PROOFS. Channel-frames on the clusters: the run which a cluster serves after a change of the run, and the micro-operation
at the head of a queue (R597, R598).
-/

namespace Sys2Proof.Machine

/-- A command whose next state is equal to another. -/
theorem outcome_next {s t : State} (h : s = t) : (Host.Outcome.next s : Host.Outcome State Fault Refusal) = .next t :=
  congrArg _ h

/-! ### The head of a queue -/

/-- R598: a micro-operation which stands at its queue's head and may issue is what its command acts on. -/
theorem onHead_of_atHead {opc : Nat} {l : LogNo} {r : Run} {i k : Nat} {p : Position} {s : State}
    (h : AtHead s opc l r i p k) {is : Uop → Bool} (his : is (p.uop k) = true)
    (body : Run → Nat → Position → Nat → State → State) : onHead opc is l body s = body r i p k s := by
  obtain ⟨hrun, hpos, hhead, hop, hmay⟩ := h
  simp only [onHead, hrun, hpos, hhead, hop, hmay, his, beq_self_eq_true, Bool.and_self, if_true]

/-! ### The run which a cluster serves -/

/-- Some position of a run stands at a logical cluster. -/
def Run.servesAt (r : Run) (l : LogNo) : Bool := r.positions.any fun p => p.cluster == l

theorem State.runAt_eq_some {s : State} {l : LogNo} {r : Run} {i : Nat} :
    s.runAt l = some (r, i) ↔ s.runs.find? (·.servesAt l) = some r ∧
      r.positions.findIdx? (fun p => p.cluster == l) = some i ∧
      ∃ f t, s.frame r.chan r.seq.toNat = some f ∧ f.stage = .running t := by
  unfold runAt
  show (s.runs.find? (·.servesAt l)).bind _ = _ ↔ _
  cases s.runs.find? (·.servesAt l) with
  | none => simp
  | some q =>
    cases hf : s.frame q.chan q.seq.toNat with
    | none =>
      refine ⟨fun h => ?_, fun ⟨hq, _, g, _, hg, _⟩ => ?_⟩
      · simp [hf] at h
      · cases hq
        cases hf.symm.trans hg
    | some f =>
      cases hi : q.positions.findIdx? (fun p => p.cluster == l) with
      | none =>
        refine ⟨fun h => ?_, fun ⟨hq, hj, _⟩ => ?_⟩
        · simp [hf, hi] at h
        · cases hq
          cases hi.symm.trans hj
      | some j =>
        simp only [Option.bind_some, hf, hi]
        constructor
        · intro h
          split at h
          · next t ht =>
            obtain ⟨rfl, rfl⟩ := Prod.mk.inj (Option.some.inj h)
            exact ⟨rfl, hi, f, t, hf, ht⟩
          · cases h
        · rintro ⟨hq, hj, g, t, hg, ht⟩
          cases hq
          cases hf.symm.trans hg
          cases hi.symm.trans hj
          simp [ht]

/-- A change of a run which leaves its channel-frame and its positions' clusters. -/
structure KeepsPlaces (f : Run → Run) : Prop where
  chan : ∀ x, (f x).chan = x.chan
  seq : ∀ x, (f x).seq = x.seq
  clusters : ∀ x, (f x).positions.map (·.cluster) = x.positions.map (·.cluster)

theorem KeepsPlaces.servesAt {f : Run → Run} (h : KeepsPlaces f) (x : Run) (l : LogNo) :
    (f x).servesAt l = x.servesAt l := by
  have hmap : ∀ y : Run, y.servesAt l = (y.positions.map (·.cluster)).any (· == l) := fun y => by
    rw [List.any_map]
    rfl
  rw [hmap, hmap, h.clusters]

/-- The cluster serves the run which was changed, at the same position. -/
theorem State.modRun_runAt {s : State} {l : LogNo} {r : Run} {i : Nat} (h : s.runAt l = some (r, i)) {f : Run → Run}
    (hf : KeepsPlaces f) : (s.modRun r f).runAt l = some (f r, i) := by
  obtain ⟨hfind, hidx, hframe⟩ := runAt_eq_some.1 h
  have hindex : ∀ x : Run, x.positions.findIdx? (fun p => p.cluster == l) =
      (x.positions.map (·.cluster)).findIdx? (· == l) := fun x => by
    rw [List.findIdx?_map]
    rfl
  refine runAt_eq_some.2 ⟨?_, by rw [hindex, hf.clusters, ← hindex, hidx], by rw [hf.chan, hf.seq]; exact hframe⟩
  show (s.runs.map fun x => if x.chan = r.chan ∧ x.seq = r.seq then f x else x).find? _ = _
  rw [List.find?_map]
  have hsame : ((·.servesAt l) ∘ fun x : Run => if x.chan = r.chan ∧ x.seq = r.seq then f x else x) = (·.servesAt l) := by
    funext x
    show (if x.chan = r.chan ∧ x.seq = r.seq then f x else x).servesAt l = _
    split
    · exact hf.servesAt x l
    · rfl
  rw [hsame, hfind]
  simp

/-- A change of one position leaves the places of the run. -/
theorem keepsPlaces_modify (i : Nat) {f : Position → Position} (hf : ∀ p, (f p).cluster = p.cluster) :
    KeepsPlaces fun x => { x with positions := x.positions.modify i f } := by
  refine ⟨fun _ => rfl, fun _ => rfl, fun x => ?_⟩
  refine List.ext_getElem? fun j => ?_
  simp only [List.getElem?_map, List.getElem?_modify]
  cases x.positions[j]? with
  | none => rfl
  | some p =>
    simp only [Option.map_eq_map, Option.map_some]
    split
    · rw [hf]
    · rfl

theorem State.modPos_runAt {s : State} {l : LogNo} {r : Run} {i j : Nat} (h : s.runAt l = some (r, i))
    {f : Position → Position} (hf : ∀ p, (f p).cluster = p.cluster) :
    (s.modPos r j f).runAt l = some ({ r with positions := r.positions.modify j f }, i) :=
  modRun_runAt h (keepsPlaces_modify j hf)

/-- The position which was changed. -/
theorem Run.pos_modify_same {r : Run} {i : Nat} {p : Position} (h : r.pos i = some p) (f : Position → Position) :
    Run.pos { r with positions := r.positions.modify i f } i = some (f p) := by
  unfold Run.pos at h ⊢
  simp [h]

theorem State.modRun_frame (s : State) (r : Run) (f : Run → Run) : ChangesOnly [.runs] s (s.modRun r f) :=
  (by apply modRun_only; simp : _ ↔ ChangesOnly [.runs] s s).2 (.refl _ _)

theorem State.modPos_frame (s : State) (r : Run) (i : Nat) (f : Position → Position) :
    ChangesOnly [.runs] s (s.modPos r i f) := s.modRun_frame r _

theorem State.issue_frame (s : State) (r : Run) (i : Nat) (x : Flight) : ChangesOnly [.runs] s (s.issue r i x) :=
  s.modPos_frame r i _

end Sys2Proof.Machine
end

section
/-!
PROOFS. The Mica operations (R639 to R641, R647, R654 to R661, R664, R670, R671).
-/

namespace Sys2Proof.Machine

/-! ### Operations at the head of the F queue -/

/-- The head of the F queue is a MICA operation of a frame which runs. -/
theorem onMica_of_atHead {l : LogNo} {r : Run} {i k : Nat} {p : Position} {f : Frame} {s : State}
    (h : AtHead s opcMica l r i p k) (hf : s.frame r.chan r.seq.toNat = some f) {is : MicaOp → Bool}
    (his : is (micaOp (p.uop k)) = true) (body : Run → Nat → Frame → MicaOp → State → State) :
    onMica is l body s = (body r i f (micaOp (p.uop k)) (s.issue r i (Flight.start k 0))).flightDone r i k := by
  refine (onHead_of_atHead h his _).trans ?_
  show (match s.frame r.chan r.seq.toNat with
    | some f => (body r i f (micaOp (p.uop k)) (s.issue r i (Flight.start k 0))).flightDone r i k
    | none => s) = _
  rw [hf]

/-- The head of the F queue is a MICA operation of one function, of a frame which runs. -/
theorem onMica_of_func {l : LogNo} {r : Run} {i k : Nat} {p : Position} {f : Frame} {s : State}
    (h : AtHead s opcMica l r i p k) (hf : s.frame r.chan r.seq.toNat = some f) {n : Nat}
    (hn : (micaOp (p.uop k)).func = n) (body : Run → Nat → Frame → MicaOp → State → State) :
    onMica (fun o => o.func == n) l body s =
      (body r i f (micaOp (p.uop k)) (s.issue r i (Flight.start k 0))).flightDone r i k :=
  onMica_of_atHead h hf (is := fun o => o.func == n) (beq_iff_eq.2 hn) body

/-- R639, R641: a function of single elements at the head of the F queue. -/
theorem onElements_of_atHead {l : LogNo} {r : Run} {i k : Nat} {p : Position} {f : Frame} {s : State}
    (h : AtHead s opcMica l r i p k) (hf : s.frame r.chan r.seq.toNat = some f) {is : MicaOp → Bool}
    (his : is (micaOp (p.uop k)) = true) (g : State → Frame → MicaOp → Nat → Nat) :
    onElements is g l s = ((s.issue r i (Flight.start k 0)).windowWrite r i (micaOp (p.uop k)).dst
      (pack (micaOp (p.uop k)).outFmt ((s.micaElements r i (micaOp (p.uop k))).map
        (g (s.issue r i (Flight.start k 0)) f (micaOp (p.uop k)))))).flightDone r i k :=
  onMica_of_atHead h hf his _

/-- R647: a built-in function at the head of the F queue. -/
theorem builtinRow_of_atHead {l : LogNo} {r : Run} {i k : Nat} {p : Position} {f : Frame} {s : State}
    (h : AtHead s opcMica l r i p k) (hf : s.frame r.chan r.seq.toNat = some f) {func : Nat}
    (hfunc : (micaOp (p.uop k)).func = func) :
    builtinRow func l s = ((s.issue r i (Flight.start k 0)).windowWrite r i (micaOp (p.uop k)).dst
      (pack (micaOp (p.uop k)).outFmt ((s.micaElements r i (micaOp (p.uop k))).map
        (builtinOf s f (micaOp (p.uop k)))))).flightDone r i k :=
  onElements_of_atHead h hf (is := fun o => o.func == func) (beq_iff_eq.2 hfunc) builtinOf

/-! ### What operations change -/

theorem State.mprogNext_frame (s : State) (r : Run) (i : Nat) (o : MicaOp) (n : Nat) (m : MprogRun) (l : List MLane) :
    ChangesOnly [.runs, .scratch] s (s.mprogNext r i o n m l) :=
  (by apply mprogNext_only <;> simp : _ ↔ ChangesOnly [.runs, .scratch] s s).2 (.refl _ _)

theorem smaxAccRow_frame (l : LogNo) (s : State) : ChangesOnly [.runs, .scratch] s (smaxAccRow l s) :=
  (by apply smaxAccRow_only <;> simp : _ ↔ ChangesOnly [.runs, .scratch] s s).2 (.refl _ _)

/-! ### Micro-programs -/

/-- R671: the step of the micro-program of a cluster, when it is the operation. -/
theorem mprogStepRow_eq {l : LogNo} {r : Run} {i op : Nat} {p : Position} {m : MprogRun} {f : Frame} {s : State}
    (hrun : s.runAt l = some (r, i)) (hpos : r.pos i = some p) (hm : spGet r.mprogs i = some m)
    (hf : s.frame r.chan r.seq.toNat = some f)
    (hop : (mstep f.mprogs[(Fin.ofNat 8 ((micaOp (p.uop m.idx)).func - 0x30) : Fin 8)] m.step).op = op) :
    mprogStepRow op l s = s.mprogNext r i (micaOp (p.uop m.idx))
      (mprogSteps f.mprogs[(Fin.ofNat 8 ((micaOp (p.uop m.idx)).func - 0x30) : Fin 8)]) m
      (mprogLanesAfter f (mstep f.mprogs[(Fin.ofNat 8 ((micaOp (p.uop m.idx)).func - 0x30) : Fin 8)] m.step) m.lanes) := by
  simp only [mprogStepRow, hrun, hpos, hm, hf]
  exact if_neg (not_not_intro hop)

/-- R671: each of the seven operations is its command. -/
theorem exec_mprogStep {l : LogNo} {c : Instr × Nat} (hc : c ∈ [(Instr.mul l, 1), (Instr.add l, 2), (Instr.fmq l, 3),
    (Instr.lut l, 4), (Instr.csel l, 5), (Instr.rred l, 6), (Instr.rscale l, 7)]) (s : State) :
    exec c.1 s = .next (mprogStepRow c.2 l s) := by
  simp only [List.mem_cons, List.not_mem_nil, or_false] at hc
  rcases hc with rfl | rfl | rfl | rfl | rfl | rfl | rfl <;> rfl

/-- R647: each of the twelve built-in functions is its command. -/
theorem exec_builtin {l : LogNo} {c : Instr × Nat} (hc : c ∈ [(Instr.micaExp l, 1), (Instr.micaExp2 l, 2),
    (Instr.micaLog2 l, 3), (Instr.micaRecip l, 4), (Instr.micaRsqrt l, 5), (Instr.micaTanh l, 6), (Instr.micaSigmoid l, 7),
    (Instr.micaErf l, 8), (Instr.micaGeluErf l, 9), (Instr.micaGeluTanh l, 10), (Instr.micaGeluSig l, 11),
    (Instr.micaSilu l, 12)]) (s : State) : exec c.1 s = .next (builtinRow c.2 l s) := by
  simp only [List.mem_cons, List.not_mem_nil, or_false] at hc
  rcases hc with rfl | rfl | rfl | rfl | rfl | rfl | rfl | rfl | rfl | rfl | rfl | rfl <;> rfl

/-! ### NaR (R640, R647) -/

/-- NaR is a pattern of its format. -/
theorem nar_mod_fmtBits {fmt : Nat} (h : fmt < 3) : nar (fmtBits fmt) % 2 ^ fmtBits fmt = nar (fmtBits fmt) := by
  have hall : ∀ fmt < 3, nar (fmtBits fmt) % 2 ^ fmtBits fmt = nar (fmtBits fmt) := by decide
  exact hall fmt h

theorem micaWith_nar (choice : Nat → Nat) (func inFmt outFmt : Nat) (compat : Bool) {p : Nat}
    (h : p % 2 ^ fmtBits inFmt = nar (fmtBits inFmt)) :
    micaWith choice func inFmt outFmt compat p = nar (fmtBits outFmt) := if_pos h

theorem micaWith_of_not_domain (choice : Nat → Nat) (func inFmt outFmt : Nat) (compat : Bool) {p : Nat}
    (h : p % 2 ^ fmtBits inFmt ≠ nar (fmtBits inFmt)) (hd : micaDomain func (fxOfPosit (fmtBits inFmt) p) = false) :
    micaWith choice func inFmt outFmt compat p = nar (fmtBits outFmt) := by
  refine (if_neg h).trans (if_pos ?_)
  rw [hd]
  rfl

/-- R650: a built-in function makes its choices, whichever they are, in one way. -/
theorem micaBuiltin_eq (version func inFmt outFmt : Nat) (compat : Bool) :
    ∃ choice, ∀ p, micaBuiltin version func inFmt outFmt compat p = micaWith choice func inFmt outFmt compat p := by
  unfold micaBuiltin
  exact ⟨_, fun _ => rfl⟩

theorem micaBuiltin_nar (version func outFmt : Nat) (compat : Bool) {inFmt : Nat} (h : inFmt < 3) :
    micaBuiltin version func inFmt outFmt compat (nar (fmtBits inFmt)) = nar (fmtBits outFmt) := by
  obtain ⟨choice, hc⟩ := micaBuiltin_eq version func inFmt outFmt compat
  rw [hc, micaWith_nar _ _ _ _ _ (nar_mod_fmtBits h)]

theorem micaBuiltin_of_not_domain (version func inFmt outFmt : Nat) (compat : Bool) {p : Nat}
    (h : p % 2 ^ fmtBits inFmt ≠ nar (fmtBits inFmt)) (hd : micaDomain func (fxOfPosit (fmtBits inFmt) p) = false) :
    micaBuiltin version func inFmt outFmt compat p = nar (fmtBits outFmt) := by
  obtain ⟨choice, hc⟩ := micaBuiltin_eq version func inFmt outFmt compat
  rw [hc, micaWith_of_not_domain _ _ _ _ _ h hd]

/-! ### The obligation -/

/-- Settles O49: the head of the F queue is unfolded once for all operations, and the run of the micro-program once for all
steps; the value of a NaR and of an argument outside the domain does not depend on the choices. -/
theorem micaOperations : Obligations.MicaOperations := by
  refine ⟨?_, ?_, ?_, ?_⟩
  · rintro l r i k p f _ s h hf rfl
    refine ⟨fun c hc hfunc => (exec_builtin hc s).trans (outcome_next (builtinRow_of_atHead h hf hfunc)),
      fun ht => outcome_next (onElements_of_atHead h hf ht tableOf),
      fun hfunc => outcome_next (onMica_of_func h hf hfunc _),
      fun hfunc => outcome_next (onMica_of_func h hf hfunc _),
      fun hfunc hv hi => outcome_next ?_, fun _ => ⟨_, rfl, smaxAccRow_frame l s⟩,
      fun hfunc hfin hi => outcome_next ?_,
      fun hm => outcome_next (onHead_of_atHead h hm _)⟩
    · refine (onMica_of_func h hf hfunc _).trans ?_
      simp only [hv, hi, Bool.false_eq_true, if_false]
      rfl
    · refine (onMica_of_func h hf hfunc _).trans ?_
      simp only [hfin, hi, Bool.false_eq_true, if_false, if_true, Nat.add_zero]
      rfl
  · rintro l r i p m f s hrun hpos hm hf c hc hop _ _ rfl rfl
    refine ⟨_, (exec_mprogStep hc s).trans (outcome_next (mprogStepRow_eq hrun hpos hm hf hop)),
      s.mprogNext_frame _ _ _ _ _ _, fun hn => if_pos hn, fun hn hg => ?_⟩
    exact (if_neg (Nat.not_lt.2 hn)).trans (if_neg (Nat.not_lt.2 hg))
  · exact fun v func inFmt outFmt compat hi _ => micaBuiltin_nar v func outFmt compat hi
  · exact fun v func inFmt outFmt p compat hp hd => micaBuiltin_of_not_domain v func inFmt outFmt compat hp hd

end Sys2Proof.Machine
end

section
/-!
PROOFS. Program faults (R604, R605): a frame whose result is decided takes runs away and adds none, and leaves the quire
banks; so after a program fault every position of its run has nothing left to issue.
-/

namespace Sys2Proof.Machine

/-! ### Runs which go -/

/-- Between two states no run appeared or changed, and every quire bank kept its cells. -/
structure Retires (s t : State) : Prop where
  runs : ∀ q ∈ t.runs, q ∈ s.runs
  banks : ∀ (d : PhysNo) (b : Bool), t.clusters[d].bank b = s.clusters[d].bank b

theorem Retires.refl (s : State) : Retires s s := ⟨fun _ h => h, fun _ _ => rfl⟩

theorem Retires.trans {r s t : State} (h : Retires r s) (g : Retires s t) : Retires r t :=
  ⟨fun q hq => h.runs q (g.runs q hq), fun d b => (g.banks d b).trans (h.banks d b)⟩

theorem Retires.of_eq {s t : State} (hr : t.runs = s.runs) (hc : t.clusters = s.clusters) : Retires s t :=
  ⟨fun _ h => hr ▸ h, fun _ _ => by rw [hc]⟩

/-- An operation whose law asks for no right to change the runs or the clusters. -/
theorem Retires.of_law {s t : State}
    (h : ChangesOnly (Comp.allBut [.runs, .clusters]) s t ↔ ChangesOnly (Comp.allBut [.runs, .clusters]) s s) :
    Retires s t := by
  have hc := h.2 (ChangesOnly.refl _ _)
  exact .of_eq (hc .runs (by decide)) (hc .clusters (by decide))

theorem Retires.forEach {α : Type} {f : α → State → State} (h : ∀ a t, Retires t (f a t)) (l : List α) (s : State) :
    Retires s (s.forEach l f) := by
  unfold State.forEach
  induction l generalizing s with
  | nil => exact .refl s
  | cons a l ih => exact (h a s).trans (ih (f a s))

theorem Retires.ite {s t u : State} {c : Prop} [Decidable c] (h : Retires s t) (g : Retires s u) :
    Retires s (if c then t else u) := by
  split
  · exact h
  · exact g

/-! ### Shared operations -/

theorem State.modLock_retires (s : State) (f : Lock → Lock) : Retires s (s.modLock f) := .of_eq rfl rfl

theorem State.modProg_retires (s : State) (n : FnNo) (pid : Nat) (f : Prog → Prog) : Retires s (s.modProg n pid f) :=
  .of_eq rfl rfl

theorem State.modPort_retires (s : State) (p : PortNo) (f : Port → Port) : Retires s (s.modPort p f) := .of_eq rfl rfl

theorem State.completeOk_retires (s : State) (id : Nat) (r0 r1 : W64) : Retires s (s.completeOk id r0 r1) :=
  .of_law (by apply completeOk_only <;> simp)

theorem State.settlePool_retires (s : State) : Retires s s.settlePool := .of_law (by apply settlePool_only <;> simp)

theorem State.count_retires (s : State) (n : FnNo) (i : Fin 14) (k : Nat) : Retires s (s.count n i k) :=
  .of_law (by apply count_only; simp)

theorem State.dropOpen_retires (s : State) (c : Nat) : Retires s (s.dropOpen c) := .of_law (by apply dropOpen_only <;> simp)

/-- R395: a channel which is unbound takes its runs along. -/
theorem State.unbindNow_retires (s : State) (c : Nat) : Retires s (s.unbindNow c) := by
  unfold unbindNow
  split
  · exact .refl s
  · dsimp only
    refine Retires.trans ?_ (settlePool_retires _)
    refine Retires.trans ?_ (.of_law (by apply reclaimAll_only; simp))
    refine Retires.trans ?_ (modLock_retires _ _)
    refine Retires.trans ?_ (.of_law (by apply releaseParts_only; simp))
    have hless : ∀ (u : State) cs p lo ds, Retires u { u with
        chans := cs, runs := u.runs.filter p, loaded := lo, deliveries := ds } := fun u cs p lo ds =>
      ⟨fun _ hq => (List.mem_filter.1 hq).1, fun _ _ => rfl⟩
    refine Retires.trans ?_ (hless _ _ _ _ _)
    refine Retires.trans ?_ (.of_law (forEach_only (fun b u => by apply zeroBuf_only; simp) _ _))
    have hdrop : Retires s ((s.dropOpen c).forEach ((s.dropOpen c).frames.filter fun f => f.chan == c)
        fun f u => u.dropFrame c f.seq) :=
      (s.dropOpen_retires c).trans (.of_law (forEach_only (fun f u => by apply dropFrame_only <;> simp) _ _))
    generalize (s.dropOpen c).forEach _ _ = t at hdrop ⊢
    have hport : ∀ p f, Retires s (t.modPort p f) := fun p f => hdrop.trans (t.modPort_retires p f)
    exact .ite ((hport _ _).trans (.of_law (by apply emit_only; simp))) (hport _ _)

theorem State.endUnbind_retires (s : State) (c : Nat) : Retires s (s.endUnbind c) := by
  unfold endUnbind
  split
  · exact .refl s
  · split
    · exact .refl s
    · refine .ite (Retires.trans ?_ (completeOk_retires _ _ _ _)) (.refl s)
      exact (dropOpen_retires s c).trans (unbindNow_retires _ c)

theorem State.endUnbinds_retires (s : State) : Retires s s.endUnbinds := .forEach (fun c t => t.endUnbind_retires c) _ _

/-! ### LOCKSTEP frames -/

theorem State.lockSend_retires (s : State) (item : Option (Nat × Nat)) (b : List Byte) : Retires s (s.lockSend item b) := by
  have hflush : ∀ t : State, Retires t ((t.flushLock t.lock.sendq.length).releaseForwarded) := fun t => .of_law (by
    simp (disch := decide) only [flushLock_only, releaseForwarded_only, changesOnly_self])
  have hpump : ∀ t : State, Retires t t.pumpLock := fun t =>
    ((hflush t).trans (settlePool_retires _)).trans (endUnbinds_retires _)
  exact (modLock_retires _ _).trans (hpump _)

theorem State.compareDigests_retires (s : State) (mine peer : Digest) : Retires s (s.compareDigests mine peer) := by
  have hlock : ∀ f g : Lock → Lock, Retires s ((s.modLock f).modLock g) := fun _ _ => .of_eq rfl rfl
  unfold compareDigests
  dsimp only
  refine .ite (hlock _ _) (.ite ((hlock _ _).trans (modLock_retires _ _)) ?_)
  split
  · exact ((hlock _ _).trans (modLock_retires _ _)).trans (.of_law (by apply located_only <;> simp))
  · exact (((hlock _ _).trans (modLock_retires _ _)).trans (modLock_retires _ _)).trans (lockSend_retires _ _ _)

theorem State.formDigest_retires (s : State) (f : Frame) (prog : Nat) (outside aborted : Bool) (b : List Byte) :
    Retires s (s.formDigest f prog outside aborted b) := by
  unfold formDigest
  split
  · exact .refl s
  · refine .ite (.refl s) ?_
    dsimp only
    split
    · exact ((lockSend_retires _ _ _).trans (modLock_retires _ _)).trans (compareDigests_retires _ _ _)
    · exact .ite ((lockSend_retires _ _ _).trans (modLock_retires _ _))
        ((lockSend_retires _ _ _).trans (modLock_retires _ _))

/-! ### Frame results -/

theorem Cluster.settle_bank (c : Cluster) (b : Bool) : c.settle.bank b = c.bank b := by cases b <;> rfl

theorem vmod_bank (v : Vector Cluster 72) (k d : PhysNo) {f : Cluster → Cluster} (hf : ∀ c b, (f c).bank b = c.bank b)
    (b : Bool) : (vmod v k f)[d].bank b = v[d].bank b := by
  by_cases h : d = k
  · subst h
    rw [vmod_get, hf]
  · rw [vmod_get_ne v f (Ne.symm h)]

/-- The run of a frame leaves its replica; its clusters settle. -/
theorem State.endRun_retires (s : State) (c q : Nat) : Retires s (s.endRun c q) := by
  unfold endRun
  dsimp only
  have hless : ∀ (t : State) p, Retires t { t with runs := t.runs.filter p } := fun t p =>
    ⟨fun _ hq => (List.mem_filter.1 hq).1, fun _ _ => rfl⟩
  refine Retires.trans (.forEach ?_ _ _) (hless _ _)
  intro p u
  split
  · exact ⟨fun _ h => h, fun d b => vmod_bank _ _ d Cluster.settle_bank b⟩
  · exact .refl u

theorem State.writeResult_retires (s : State) (n : FnNo) (p : Prog) (l : Launch) (c q : Nat) (b : List Byte) :
    Retires s (s.writeResult n p l c q b) := by
  unfold writeResult
  split
  · exact .refl s
  · dsimp only
    have hend : ∀ t : State, Retires t ((t.endRun c q).retireFrame c q) := fun t =>
      (endRun_retires t c q).trans (.of_law (by apply retireFrame_only <;> simp))
    have hcounted : ∀ t : State, Retires s t → Retires s ((t.announce n p.id).count n 0 1) := fun t ht =>
      (ht.trans (.of_law (by apply announce_only <;> simp))).trans (count_retires _ _ _ _)
    refine Retires.trans ?_ (hend _)
    refine Retires.trans ?_ (formDigest_retires _ _ _ _ _ _)
    refine Retires.trans ?_ (.of_law (by apply modChan_only; simp))
    refine .ite (Retires.trans ?_ (count_retires _ _ _ _)) ?_ <;>
      exact hcounted _ ((modProg_retires _ _ _ _).trans (.of_law (by apply hostWrite_only <;> simp)))

theorem State.flushRing_retires (n : FnNo) (pid k : Nat) (s : State) : Retires s (s.flushRing n pid k) := by
  induction k generalizing s with
  | zero => exact .refl s
  | succ k ih =>
    unfold flushRing
    split
    · exact .refl s
    · split
      · exact .ite (((modProg_retires _ _ _ _).trans (writeResult_retires _ _ _ _ _ _ _)).trans (ih _)) (.refl s)
      · exact .refl s

theorem State.pumpRing_retires (s : State) (n : FnNo) (pid : Nat) : Retires s (s.pumpRing n pid) := by
  unfold pumpRing
  split
  · exact .refl s
  · exact ((flushRing_retires _ _ _ _).trans (settlePool_retires _)).trans (endUnbinds_retires _)

theorem State.finishFrame_retires (s : State) (c q : Nat) (aborted : Bool) (b : List Byte) :
    Retires s (s.finishFrame c q aborted b) := by
  have hdropped : Retires s (((s.endRun c q).releaseFrame c q false).delFrame c q) :=
    (endRun_retires s c q).trans (.of_law (by simp [releaseFrame_only, delFrame_only, changesOnly_self]))
  unfold finishFrame
  split
  · exact .refl s
  · split
    · exact hdropped
    · split
      · exact hdropped
      · refine .ite (.refl s) ?_
        dsimp only
        refine Retires.trans (Retires.trans (.of_law ?_) (modProg_retires _ _ _ _)) (pumpRing_retires _ _ _)
        simp [ite_only, count_only, modFrame_only, changesOnly_self]

theorem State.abortFrame_retires (s : State) (c q : Nat) : Retires s (s.abortFrame c q) := by
  unfold abortFrame
  split
  · exact (Retires.ite (.of_law (by apply dropRaster_only <;> simp)) (.refl s)).trans (finishFrame_retires _ _ _ _ _)
  · exact .refl s

/-- R604: a frame which a fault ended goes once nothing of it is in flight. -/
theorem State.endFaulted_retires (s : State) (r : Run) : Retires s (s.endFaulted r) := by
  unfold endFaulted
  split
  · exact .ite (abortFrame_retires s _ _) (.refl s)
  · exact .refl s

/-! ### A program fault -/

/-- R604: what is discarded leaves no queue a head. -/
theorem Position.head_discard (p : Position) (k : Option Nat) (n : Fin 3) : (p.discard k).head n = none := by
  have hnext : (p.discard k).next[n] = p.code.length := Vector.getElem_replicate _
  unfold Position.head
  rw [hnext]
  show ((List.range p.code.length).drop p.code.length).find? _ = none
  rw [List.drop_of_length_le (by simp)]
  rfl

/-- R604: the run of a fault at position `i`, its rest discarded. -/
def Run.stopped (r : Run) (i k : Nat) : Run :=
  { r with
    ending := true
    positions := ((List.range r.positions.length).zip r.positions).map fun y =>
      y.2.discard (if y.1 = i then some k else none) }

/-- R605: the record and the event of a program fault of a run. -/
def State.faultNoted (s : State) (r : Run) (p : Position) (k cause addr : Nat) : State :=
  let unit := match s.mapping[p.cluster] with | some c => unitId 1 c.val | none => 0xFFFF
  let t := (s.fault 2 (BitVec.ofNat 8 cause) unit (strataMask [r.stratum]) 0 (BitVec.ofNat 8 p.cluster.val) 0xFFFF 0).1
  if cause = 7 then
    t.occur r.stratum 0x1003 (BitVec.ofNat 64 addr) (BitVec.ofNat 64 (p.cluster.val + 2 ^ 8 * r.prog + 2 ^ 16 * r.chan))
  else
    t.occur r.stratum 0xA004
      (BitVec.ofNat 64 (p.cluster.val + 2 ^ 8 * r.prog + 2 ^ 16 * cause + 2 ^ 32 * (k % 65536) + 2 ^ 48 * r.chan)) r.seq

/-- R604, R605: a program fault of a run which none ended before. -/
theorem State.progFault_eq {s : State} {r : Run} {i : Nat} {p : Position} (hpos : r.pos i = some p)
    (he : r.ending = false) (k cause addr : Nat) :
    s.progFault r i k cause addr =
      ((s.faultNoted r p k cause addr).modRun r fun x => x.stopped i k).endFaulted r := by
  simp only [progFault, hpos, he, Bool.false_eq_true, if_false]
  rfl

theorem State.faultNoted_frame (s : State) (r : Run) (p : Position) (k cause addr : Nat) :
    ChangesOnly [.faults, .telem, .fns, .out, .waits] s (s.faultNoted r p k cause addr) :=
  (by simp (disch := decide) only [faultNoted, ite_only, occur_only, fault_only, changesOnly_self, ite_self] :
    _ ↔ ChangesOnly [.faults, .telem, .fns, .out, .waits] s s).2 (.refl _ _)

theorem State.faultNoted_next (s : State) (r : Run) (p : Position) (k cause addr : Nat) :
    (s.faultNoted r p k cause addr).faults.next = s.faults.next + 1 := by
  have hoccur : ∀ (t : State) n e a b, (t.occur n e a b).faults = t.faults := fun t n e a b =>
    ((by apply occur_only <;> simp : _ ↔ ChangesOnly [.fns, .out, .waits] t t).2 (.refl _ _) : ChangesOnly _ t _) .faults
      (by decide)
  unfold faultNoted
  dsimp only
  split <;> exact (congrArg FaultLog.next (hoccur _ _ _ _ _)).trans (fault_next ..)

theorem State.endFaulted_frame (s : State) (r : Run) :
    ChangesOnly (Comp.allBut [.faults, .scratch, .tick]) s (s.endFaulted r) :=
  (by apply endFaulted_only <;> simp : _ ↔ ChangesOnly (Comp.allBut [.faults, .scratch, .tick]) s s).2 (.refl _ _)

/-- R604: a run of the channel-frame whose rest was discarded is ending, with nothing at the head of a queue. -/
theorem State.modRun_stopped {s : State} {r : Run} {i k : Nat} {q : Run}
    (hq : q ∈ (s.modRun r fun x => x.stopped i k).runs) (hc : q.chan = r.chan) (hs : q.seq = r.seq) :
    q.ending = true ∧ ∀ p ∈ q.positions, ∀ n : Fin 3, p.head n = none := by
  obtain ⟨x, _, rfl⟩ := List.mem_map.1 hq
  by_cases hx : x.chan = r.chan ∧ x.seq = r.seq
  · simp only [if_pos hx]
    refine ⟨rfl, fun p hp n => ?_⟩
    obtain ⟨y, _, rfl⟩ := List.mem_map.1 hp
    exact y.2.head_discard _ n
  · simp only [if_neg hx] at hc hs
    exact absurd ⟨hc, hs⟩ hx

/-- R604, R605: a program fault of a run which none ended before is recorded, and the run's rest is discarded. -/
theorem State.progFault_faulted {s : State} {r : Run} {i : Nat} {p : Position} (hpos : r.pos i = some p)
    (he : r.ending = false) (k cause addr : Nat) : Faulted s (s.progFault r i k cause addr) r := by
  rw [progFault_eq hpos he]
  refine ⟨?_, fun q hq hc hs => modRun_stopped ((endFaulted_retires _ r).runs q hq) hc hs⟩
  exact (congrArg FaultLog.next (endFaulted_frame _ r .faults (by decide))).trans (faultNoted_next _ _ _ _ _ _)

/-- A program fault leaves the scratch memories and the tick. -/
theorem State.progFault_frame (s : State) (r : Run) (i k cause addr : Nat) :
    ChangesOnly (Comp.allBut [.scratch, .tick]) s (s.progFault r i k cause addr) :=
  (by apply progFault_only <;> simp : _ ↔ ChangesOnly (Comp.allBut [.scratch, .tick]) s s).2 (.refl _ _)

/-- A program fault leaves the quire banks. -/
theorem State.progFault_banks {s : State} {r : Run} {i : Nat} {p : Position} (hpos : r.pos i = some p)
    (he : r.ending = false) (k cause addr : Nat) (d : PhysNo) (b : Bool) :
    (s.progFault r i k cause addr).clusters[d].bank b = s.clusters[d].bank b := by
  rw [progFault_eq hpos he, (endFaulted_retires _ r).banks d b]
  show (s.faultNoted r p k cause addr).clusters[d].bank b = _
  rw [s.faultNoted_frame r p k cause addr .clusters (by decide)]

/-- A fault after a change which leaves the log of faults. -/
theorem Faulted.of_eq {s t u : State} {r : Run} (h : Faulted t u r) (hf : t.faults = s.faults) : Faulted s u r :=
  ⟨h.recorded.trans (by rw [hf]), h.ends⟩

end Sys2Proof.Machine
end

section
/-!
PROOFS. The transfer queue of a position (R598, R608, R610, R612, R613, R618, R622, R688, R689).
-/

namespace Sys2Proof.Machine

/-! ### Transfers which are not served -/

/-- R608: an access which a program fault answers. -/
theorem State.stop_faulted {s : State} {r : Run} {i : Nat} {p : Position} (hpos : r.pos i = some p)
    (he : r.ending = false) (k cause addr : Nat) : Faulted s (s.stop r i k (.fault cause addr)) r :=
  progFault_faulted hpos he k cause addr

theorem State.stop_scratch (s : State) (r : Run) (i k cause addr : Nat) :
    (s.stop r i k (.fault cause addr)).scratch = s.scratch :=
  s.progFault_frame r i k cause addr .scratch (by decide)

/-! ### SLOAD -/

section
variable {l : LogNo} {r : Run} {i k : Nat} {p : Position} {f : Frame} {s : State}

/-- R598: an SLOAD which may not write its slot yet. -/
theorem sloadIssue_of_not_mayFill (h : AtHead s opcSload l r i p k) (hf : s.frame r.chan r.seq.toNat = some f) {w : OpSlot}
    (hw : s.sloadTile r i f (sloadOp (p.uop k)) s.free = .ok w) (hm : p.mayFill k = false) :
    sloadIssue l s = ({ s with free := s.free + 1 }).issue r i { Flight.start k 0 with tile := some w } := by
  refine (onHead_of_atHead h rfl _).trans ?_
  have hdraw : s.sloadTile r i f (sloadOp (p.uop k)) s.draw.1 = .ok w := hw
  simp only [hf, hdraw, hm, Bool.false_eq_true, if_false]
  split <;> rfl

/-- R600: an SLOAD which begins to write its slot. -/
theorem sloadIssue_of_mayFill (h : AtHead s opcSload l r i p k) (hf : s.frame r.chan r.seq.toNat = some f) {w : OpSlot}
    (hw : s.sloadTile r i f (sloadOp (p.uop k)) s.free = .ok w) {c : PhysNo} (hc : s.mapping[p.cluster] = some c)
    (hm : p.mayFill k = true) :
    sloadIssue l s = (({ s with free := s.free + 1 }).issue r i { Flight.start k 0 with tile := some w }).fillSlot c
      (sloadOp (p.uop k)) { w with state := .filling } := by
  refine (onHead_of_atHead h rfl _).trans ?_
  have hdraw : s.sloadTile r i f (sloadOp (p.uop k)) s.draw.1 = .ok w := hw
  simp only [hf, hdraw, hc, hm, if_true]
  rfl

/-- R608: an SLOAD whose source is not served. -/
theorem sloadIssue_of_error (h : AtHead s opcSload l r i p k) (hf : s.frame r.chan r.seq.toNat = some f) {e : Stop}
    (hw : s.sloadTile r i f (sloadOp (p.uop k)) s.free = .error e) : sloadIssue l s = s.stop r i k e := by
  refine (onHead_of_atHead h rfl _).trans ?_
  have hdraw : s.sloadTile r i f (sloadOp (p.uop k)) s.draw.1 = .error e := hw
  simp only [hf, hdraw]

/-! ### GET and PUT -/

/-- R612: a GET whose rows are read. -/
theorem getIssue_of_ok (h : AtHead s opcGet l r i p k) (hf : s.frame r.chan r.seq.toNat = some f) {o : BlockOp}
    (ho : blockOp (p.uop k) = o) {rows : List (List Byte)}
    (hr : readRows (fun a => s.baseRead r i f o.base (o.off + a * o.fstride) o.rbytes) (List.range o.rows) = .ok rows) :
    getIssue l s = (s.issue r i { Flight.start k 0 with done := true }).writeBlockRows r i o.loc o.local.2
      (o.localRows rows) := by
  subst ho
  refine (onHead_of_atHead h rfl _).trans ?_
  simp only [hf, hr]

/-- R608: a GET one of whose rows is not served. -/
theorem getIssue_of_error (h : AtHead s opcGet l r i p k) (hf : s.frame r.chan r.seq.toNat = some f) {o : BlockOp}
    (ho : blockOp (p.uop k) = o) {e : Stop}
    (hr : readRows (fun a => s.baseRead r i f o.base (o.off + a * o.fstride) o.rbytes) (List.range o.rows) = .error e) :
    getIssue l s = s.stop r i k e := by
  subst ho
  refine (onHead_of_atHead h rfl _).trans ?_
  simp only [hf, hr]

/-- R612: a PUT which is served throughout. -/
theorem putIssue_of_ok (h : AtHead s opcPut l r i p k) (hf : s.frame r.chan r.seq.toNat = some f) {u : State}
    (hu : s.putRows r i f (blockOp (p.uop k)) (List.range (blockOp (p.uop k)).rows) = (u, none)) :
    putIssue l s = u.issue r i { Flight.start k 0 with done := true } := by
  refine (onHead_of_atHead h rfl _).trans ?_
  simp only [hf, hu]

/-! ### Reads which meet an error -/

/-- R688, R759: what error correction found at a byte which the head reads. -/
theorem readFound_eq {opc : Nat} (h : AtHead s opc l r i p k) (hf : s.frame r.chan r.seq.toNat = some f)
    {reads : Uop → Reads} {va : Nat} (e : Ecc) (hr : s.readsAt r f (reads (p.uop k)) va = true) :
    readFound opc reads l (va, e) s =
      if s.readLost r.stratum va e then (s.foundAt r.stratum va e).abortFrame r.chan r.seq.toNat
      else s.foundAt r.stratum va e := by
  refine (onHead_of_atHead h rfl _).trans ?_
  simp only [hf, hr, if_true]
  rfl

/-- R688: an error which is corrected leaves the read as it is in the state which it brings. -/
theorem withFound_of_kept {opc : Nat} (h : AtHead s opc l r i p k) (hf : s.frame r.chan r.seq.toNat = some f)
    {reads : Uop → Reads} {va : Nat} {e : Ecc} (hr : s.readsAt r f (reads (p.uop k)) va = true)
    (hl : s.readLost r.stratum va e = false) (hk : (s.foundAt r.stratum va e).runKey l = s.runKey l)
    (issue : State → State) :
    withFound opc reads l issue (some (va, e)) s = issue (s.foundAt r.stratum va e) := by
  simp only [withFound, readFound_eq h hf e hr, hl, Bool.false_eq_true, if_false, hk, beq_self_eq_true, if_true]

/-- R689: an error beyond correction ends the channel-frame, and nothing issues. -/
theorem withFound_of_lost {opc : Nat} (h : AtHead s opc l r i p k) (hf : s.frame r.chan r.seq.toNat = some f)
    {reads : Uop → Reads} {va : Nat} {e : Ecc} (hr : s.readsAt r f (reads (p.uop k)) va = true)
    (hl : s.readLost r.stratum va e = true)
    (hk : ((s.foundAt r.stratum va e).abortFrame r.chan r.seq.toNat).runKey l ≠ s.runKey l) (issue : State → State) :
    withFound opc reads l issue (some (va, e)) s = (s.foundAt r.stratum va e).abortFrame r.chan r.seq.toNat := by
  simp only [withFound, readFound_eq h hf e hr, hl, if_true]
  exact if_neg fun he => hk (beq_iff_eq.1 he).symm

/-! ### Halo pairs -/

/-- R618: an HSEND whose pair has not issued waits for it. -/
theorem hsendIssue_of_waits (h : AtHead s opcHsend l r i p k) {j : Nat} {q : Position}
    (hn : neighbour (s.groupShape r).1 (s.groupShape r).2 i (haloOp (p.uop k)).dir = some j) (hq : r.pos j = some q)
    (ho : q.halo opcHrecv (((haloOp (p.uop k)).dir + 2) % 4)
      p.sends[(Fin.ofNat 4 (haloOp (p.uop k)).dir : Fin 4)] = none) :
    hsendIssue l s =
      (s.issue r i (Flight.start k p.sends[(Fin.ofNat 4 (haloOp (p.uop k)).dir : Fin 4)])).modPos r i fun x =>
        { x with sends := vmod x.sends (Fin.ofNat 4 (haloOp (p.uop k)).dir) fun n => n + 1 } := by
  refine (onHead_of_atHead h rfl _).trans ?_
  simp only [hn, hq, Option.bind_some, ho]

/-- R618: an HSEND whose pair has issued moves the rows. -/
theorem hsendIssue_of_pair (h : AtHead s opcHsend l r i p k) {j : Nat} {q : Position}
    (hn : neighbour (s.groupShape r).1 (s.groupShape r).2 i (haloOp (p.uop k)).dir = some j) (hq : r.pos j = some q)
    {m : Nat} (ho : q.halo opcHrecv (((haloOp (p.uop k)).dir + 2) % 4)
      p.sends[(Fin.ofNat 4 (haloOp (p.uop k)).dir : Fin 4)] = some m) :
    hsendIssue l s =
      ((s.issue r i (Flight.start k p.sends[(Fin.ofNat 4 (haloOp (p.uop k)).dir : Fin 4)])).modPos r i fun x =>
        { x with sends := vmod x.sends (Fin.ofNat 4 (haloOp (p.uop k)).dir) fun n => n + 1 }).exchange r i k j m := by
  refine (onHead_of_atHead h rfl _).trans ?_
  simp only [hn, hq, Option.bind_some, ho]

/-- R618: an HRECV whose pair has not issued waits for it. -/
theorem hrecvIssue_of_waits (h : AtHead s opcHrecv l r i p k) {j : Nat} {q : Position}
    (hn : neighbour (s.groupShape r).1 (s.groupShape r).2 i (haloOp (p.uop k)).dir = some j) (hq : r.pos j = some q)
    (ho : q.halo opcHsend (((haloOp (p.uop k)).dir + 2) % 4)
      p.recvs[(Fin.ofNat 4 (haloOp (p.uop k)).dir : Fin 4)] = none) :
    hrecvIssue l s =
      (s.issue r i (Flight.start k p.recvs[(Fin.ofNat 4 (haloOp (p.uop k)).dir : Fin 4)])).modPos r i fun x =>
        { x with recvs := vmod x.recvs (Fin.ofNat 4 (haloOp (p.uop k)).dir) fun n => n + 1 } := by
  refine (onHead_of_atHead h rfl _).trans ?_
  simp only [hn, hq, Option.bind_some, ho]

/-- R618: an HRECV whose pair has issued moves the rows. -/
theorem hrecvIssue_of_pair (h : AtHead s opcHrecv l r i p k) {j : Nat} {q : Position}
    (hn : neighbour (s.groupShape r).1 (s.groupShape r).2 i (haloOp (p.uop k)).dir = some j) (hq : r.pos j = some q)
    {m : Nat} (ho : q.halo opcHsend (((haloOp (p.uop k)).dir + 2) % 4)
      p.recvs[(Fin.ofNat 4 (haloOp (p.uop k)).dir : Fin 4)] = some m) :
    hrecvIssue l s =
      ((s.issue r i (Flight.start k p.recvs[(Fin.ofNat 4 (haloOp (p.uop k)).dir : Fin 4)])).modPos r i fun x =>
        { x with recvs := vmod x.recvs (Fin.ofNat 4 (haloOp (p.uop k)).dir) fun n => n + 1 }).exchange r j m i k := by
  refine (onHead_of_atHead h rfl _).trans ?_
  simp only [hn, hq, Option.bind_some, ho]

end

/-! ### The obligation -/

/-- Settles O48: each transfer at the head of its queue, by how its access ends; a byte which error correction looked at by
whether the read is lost; a halo operation by whether its pair has issued. -/
theorem clusterTransfers : Obligations.ClusterTransfers := by
  refine ⟨fun l r i k p f s h hf => ⟨?_, fun c a he hw => ?_, ?_⟩, ?_, fun l r i k p f s u h hf hu => ?_, ?_, ?_⟩
  · rintro w _ hw rfl
    exact ⟨fun hm => outcome_next (sloadIssue_of_not_mayFill h hf hw hm),
      fun c hc hm => outcome_next (sloadIssue_of_mayFill h hf hw hc hm)⟩
  · exact ⟨_, outcome_next (sloadIssue_of_error h hf hw), State.stop_faulted h.pos he k c a⟩
  · rintro va e _ hr rfl
    exact ⟨fun hl hk => outcome_next (withFound_of_kept h hf hr hl hk _),
      fun hl hk => outcome_next (withFound_of_lost h hf hr hl hk _)⟩
  · rintro l r i k p f o s h hf rfl
    refine ⟨fun rows hr => outcome_next (getIssue_of_ok h hf rfl hr), fun c a he hr => ?_, ?_⟩
    · exact ⟨_, outcome_next (getIssue_of_error h hf rfl hr), State.stop_faulted h.pos he k c a, s.stop_scratch r i k c a⟩
    · rintro va e _ hr rfl
      exact ⟨fun hl hk => outcome_next (withFound_of_kept h hf hr hl hk _),
        fun hl hk => outcome_next (withFound_of_lost h hf hr hl hk _)⟩
  · exact outcome_next (putIssue_of_ok h hf hu)
  · exact fun l r i k j p q s h _ hn hq =>
      ⟨fun ho => outcome_next (hsendIssue_of_waits h hn hq ho), fun m ho => outcome_next (hsendIssue_of_pair h hn hq ho)⟩
  · exact fun l r i k j p q s h _ hn hq =>
      ⟨fun ho => outcome_next (hrecvIssue_of_waits h hn hq ho), fun m ho => outcome_next (hrecvIssue_of_pair h hn hq ho)⟩

end Sys2Proof.Machine
end

section
/-!
PROOFS. The Granite array (R553, R560 to R567, R572, R577, R578, R581, R583, R584, R605, R609, R611, R615).
-/

namespace Sys2Proof.Machine

/-! ### The cluster which carries a logical cluster -/

theorem State.modClusterAt_frame (s : State) (l : LogNo) (f : Cluster → Cluster) :
    ChangesOnly [.clusters] s (s.modClusterAt l f) :=
  (by apply modClusterAt_only; simp : _ ↔ ChangesOnly [.clusters] s s).2 (.refl _ _)

theorem State.modClusterAt_same {s : State} {l : LogNo} {c : PhysNo} (h : s.mapping[l] = some c) (f : Cluster → Cluster) :
    (s.modClusterAt l f).clusters[c] = f s.clusters[c] := by
  simp only [modClusterAt, h, vmod_get]

theorem State.modClusterAt_ne {s : State} {l : LogNo} {c d : PhysNo} (h : s.mapping[l] = some c) (hd : d ≠ c)
    (f : Cluster → Cluster) : (s.modClusterAt l f).clusters[d] = s.clusters[d] := by
  simp only [modClusterAt, h]
  exact vmod_get_ne _ _ hd.symm

theorem State.stepLeaves_frame (s : State) (r : Run) (i k : Nat) : ChangesOnly [.clusters] s (s.stepLeaves r i k) :=
  (by apply stepLeaves_only; simp : _ ↔ ChangesOnly [.clusters] s s).2 (.refl _ _)

/-! ### STEP -/

section
variable {l : LogNo} {r : Run} {i k : Nat} {p : Position} {s : State}

/-- R605, R615: a STEP whose tiles do not fit. -/
theorem stepIssue_of_fault (h : AtHead s opcStep l r i p k) (hm : p.stepMay (s.clusterAt l) (s.reproOf r) k = true)
    {c : Nat} (hf : (s.clusterAt l).stepFault (stepOp (p.uop k)) = some c) : stepIssue l s = s.progFault r i k c 0 := by
  refine (onHead_of_atHead h rfl _).trans ?_
  simp only [hm, hf, Bool.not_true, Bool.false_eq_true, if_false]

/-- R560, R563: a STEP which accumulates; one which closes a reduction takes the next number of its group. -/
theorem stepIssue_of_fits (h : AtHead s opcStep l r i p k) (hm : p.stepMay (s.clusterAt l) (s.reproOf r) k = true)
    (hf : (s.clusterAt l).stepFault (stepOp (p.uop k)) = none) {u : State}
    (hu : u = (s.issue r i { Flight.start k ((spGet p.reduced (stepOp (p.uop k)).reduce).getD 0) with
      done := !(stepOp (p.uop k)).close, drained := !(stepOp (p.uop k)).close }).modClusterAt l
        (fun g => g.step (stepOp (p.uop k)))) :
    stepIssue l s = if (stepOp (p.uop k)).close && (stepOp (p.uop k)).reduce != 0 then
        u.modPos r i fun x => { x with
          reduced := spPut x.reduced (stepOp (p.uop k)).reduce ((spGet p.reduced (stepOp (p.uop k)).reduce).getD 0 + 1) }
      else u := by
  subst hu
  refine (onHead_of_atHead h rfl _).trans ?_
  simp only [hm, hf, Bool.not_true, Bool.false_eq_true, if_false]

/-! ### Drains -/

/-- R566, R572: the oldest outstanding drain of a cluster. -/
theorem drain_eq {f : Frame} {x : Flight} {rest : List Flight} {o : StepOp} {u : State} {wide : Bool}
    {q : List (List (Option Int))} (hrun : s.runAt l = some (r, i))
    (hpos : r.pos i = some p) (hf : s.frame r.chan r.seq.toNat = some f) (hx : p.undrained = x :: rest)
    (ho : stepOp (p.uop x.idx) = o) (hu : u = s.stepLeaves r i x.idx) (hw : (s.clusterAt l).wide o.bankB = wide)
    (hq : bankQuires wide ((s.clusterAt l).bank o.bankB) = q) :
    drain l s =
      if wide ∧ o.outFmt ≠ 2 ∧ ¬(o.reduce ≠ 0 ∧ s.rankOf r o.reduce i ≠ some 0) then u.progFault r i x.idx 10 0
      else if o.reduce ≠ 0 then u.drainPartial r i x.idx o x.num wide q
      else if (s.clusterAt l).coded o.bankB then
        ((u.rescaleTerms f).2.2.writeDrain r i x.idx o (rescaleDrain wide o.outFmt (u.rescaleTerms f).1
          (u.rescaleTerms f).2.1 q (bankQuires wide ((s.clusterAt l).bank (!o.bankB))))).flightDone r i x.idx
      else (u.writeDrain r i x.idx o (convertDrain wide o.outFmt q)).flightDone r i x.idx := by
  subst ho hu hw hq
  simp only [drain, hrun, hpos, hf, hx]

/-- R964: the scale and the outliers of a rescale drain of a message. -/
theorem State.rescaleTerms_of_head {t : State} {f : Frame} {h : QHead} (hh : t.presentedHead f = some h) :
    t.rescaleTerms f = (f32Mul (positToF32 8 h.f) (positToF32 16 h.s2), h.outliers != 0, t) := by
  simp only [rescaleTerms, hh]

/-- The header of a message lies in its channel-frame and its channel. -/
theorem State.presentedHead_of_chans {t : State} (h : t.chans = s.chans) (f : Frame) :
    t.presentedHead f = s.presentedHead f := by
  unfold presentedHead
  rw [chan_of_chans h]

/-! ### Saves and loads -/

/-- R567: what a QSAVE may do. -/
theorem qsaveIssue_eq (h : AtHead s opcQsave l r i p k) (hu : p.undrained = [])
    (hroom : p.reserved (s.clusterAt l) (s.reproOf r) + (bankOp (p.uop k)).bytes ≤ 0x10000) :
    qsaveIssue l s = if (s.clusterAt l).wide (bankOp (p.uop k)).bankB ≠ ((bankOp (p.uop k)).form == 2) then
        s.progFault r i k 10 0
      else (s.issue r i { Flight.start k 0 with done := true }).windowWrite r i (bankOp (p.uop k)).addr
        (saveBytes (bankOp (p.uop k)).form ((s.clusterAt l).bank (bankOp (p.uop k)).bankB)) := by
  refine (onHead_of_atHead h rfl _).trans ?_
  simp only [hu, List.isEmpty_nil, decide_eq_true hroom, Bool.and_self, Bool.not_true, Bool.false_eq_true, if_false]

/-- R578: a QLOAD which no drain holds back. -/
theorem qloadIssue_eq (h : AtHead s opcQload l r i p k) (hu : p.undrained = []) :
    qloadIssue l s = (s.issue r i { Flight.start k 0 with done := true }).modClusterAt l fun g =>
      g.setBank (bankOp (p.uop k)).bankB (loadCells (bankOp (p.uop k)).form
        (s.windowRead r i (bankOp (p.uop k)).addr (bankOp (p.uop k)).bytes)) ((bankOp (p.uop k)).form == 2)
        (g.coded (bankOp (p.uop k)).bankB) := by
  refine (onHead_of_atHead h rfl _).trans ?_
  simp only [hu, List.isEmpty_nil, Bool.not_true, Bool.false_eq_true, if_false]

/-- R611: a QCLEAR which no drain holds back. -/
theorem qclearIssue_eq (h : AtHead s opcQclear l r i p k) (hu : p.undrained = []) :
    qclearIssue l s = (s.issue r i { Flight.start k 0 with done := true }).modClusterAt l fun g =>
      g.setBank (bankOp (p.uop k)).bankB [] ((bankOp (p.uop k)).form == 2) (g.coded (bankOp (p.uop k)).bankB) := by
  refine (onHead_of_atHead h rfl _).trans ?_
  simp only [hu, List.isEmpty_nil, Bool.not_true, Bool.false_eq_true, if_false]

/-- A micro-operation which is done as it issues and sets a bank of its cluster. -/
theorem issue_modClusterAt {c : PhysNo} (hc : s.mapping[l] = some c) (x : Flight) (f : Cluster → Cluster) {t : State}
    (ht : t = (s.issue r i x).modClusterAt l f) :
    t.clusters[c] = f s.clusters[c] ∧ (∀ d, d ≠ c → t.clusters[d] = s.clusters[d]) ∧
      ChangesOnly [.runs, .clusters] s t := by
  subst ht
  exact ⟨State.modClusterAt_same (s := s.issue r i x) hc f, fun d hd => State.modClusterAt_ne (s := s.issue r i x) hc hd f,
    ((s.issue_frame r i x).mono (by decide)).trans ((State.modClusterAt_frame _ _ _).mono (by decide))⟩

/-! ### Reductions -/

/-- R581, R583: the partial in the combine buffer of a cluster. -/
theorem reductionTransfer_eq {p : Partial} (hrun : s.runAt l = some (r, i))
    (hp : (r.partials.find? fun x => x.pos == i) = some p) :
    reductionTransfer l s = if s.reproOf r then s.reproTransfer r p else s.fastTransfer r p := by
  simp only [reductionTransfer, hrun, hp]

/-- R581: the root of the fixed tree, whose senders have all come. -/
theorem State.reproTransfer_of_root {p : Partial} (hr : s.rankOf r p.group p.pos = some 0)
    (hl : p.level = (rankLevels 0 (s.groupSize r p.group)).length) : s.reproTransfer r p = s.finishReduction r p.pos p := by
  simp only [reproTransfer, hr]
  rw [if_neg (not_not_intro hl), if_pos trivial]

/-- R581: a member of the fixed tree whose senders have all come, and whose receiver waits for it. -/
theorem State.reproTransfer_of_member {p y : Partial} {rank : Nat} (hr : s.rankOf r p.group p.pos = some rank)
    (hl : p.level = (rankLevels rank (s.groupSize r p.group)).length) (h0 : rank ≠ 0)
    (hy : (r.partials.find? fun y => y.group == p.group && y.num == p.num &&
      s.rankOf r p.group y.pos == some (rank - 2 ^ sendLevel rank)) = some y) (hs : y.level = sendLevel rank) :
    s.reproTransfer r p = (s.combine r true y p (y.level + 1)).memberDone r p.pos := by
  simp only [reproTransfer, hr]
  rw [if_neg (not_not_intro hl), if_neg h0]
  simp only [hy, hs, if_true]

/-- R583: a member which meets a partial of its level at the scoreboard. -/
theorem State.fastTransfer_of_meets {p y : Partial} (hp : p.ready = false)
    (hy : ((r.partials.filter fun y => y.group == p.group && y.num == p.num && y.pos != p.pos).find? fun y =>
      y.ready && y.level == p.level) = some y) (hr : s.rankOf r p.group p.pos ≠ some 0) :
    s.fastTransfer r p = (s.combine r false y p (y.level + 1)).memberDone r p.pos := by
  have hne : (r.partials.filter fun y => y.group == p.group && y.num == p.num && y.pos != p.pos).isEmpty = false :=
    List.isEmpty_eq_false_iff_exists_mem.2 ⟨y, List.mem_of_find?_eq_some hy⟩
  simp only [fastTransfer, hne, Bool.false_and, Bool.false_eq_true, if_false, hp, Bool.not_false, if_true, hy, if_neg hr]

end

/-- R584: of the clusters named, one. -/
theorem finRange_filter_one (l : LogNo) : (List.finRange 64).filter [l].contains = [l] := by
  decide +revert

/-- R584: of two clusters named, the lower one comes first. -/
theorem finRange_filter_two {l m : LogNo} (h : l < m) (ls : List LogNo) (hls : ∀ x, x ∈ ls ↔ x = l ∨ x = m) :
    (List.finRange 64).filter ls.contains = [l, m] := by
  have hsorted : ((List.finRange 64).filter ls.contains).Pairwise (· < ·) := (List.pairwise_lt_finRange 64).filter _
  have hpair : [l, m].Pairwise (· < ·) := List.pairwise_pair.2 h
  refine List.Perm.eq_of_pairwise (le := (· < ·)) (fun a b _ _ hab hba => absurd hab (Nat.lt_asymm hba)) hsorted hpair ?_
  refine (List.perm_ext_iff_of_nodup (hsorted.imp fun hab => Fin.ne_of_lt hab)
    (hpair.imp fun hab => Fin.ne_of_lt hab)).2 fun x => ?_
  simp [hls]

/-! ### The obligation -/

/-- R605, R609: a STEP which may issue, by whether its tiles fit. -/
theorem stepIssue_settled {l : LogNo} {r : Run} {i k : Nat} {p : Position} {s : State} (h : AtHead s opcStep l r i p k)
    (hm : p.stepMay (s.clusterAt l) (s.reproOf r) k = true)
    (hf : (s.clusterAt l).stepFault (stepOp (p.uop k)) = none) :
    ∃ t u, exec (.microStep l) s = .next t ∧
      u = (s.issue r i { Flight.start k ((spGet p.reduced (stepOp (p.uop k)).reduce).getD 0) with
          done := !(stepOp (p.uop k)).close, drained := !(stepOp (p.uop k)).close }).modClusterAt l
            (fun g => g.step (stepOp (p.uop k))) ∧
      (((stepOp (p.uop k)).close = false ∨ (stepOp (p.uop k)).reduce = 0) → t = u) ∧
      t.clusters = u.clusters ∧ ChangesOnly [.runs, .clusters] s t := by
  generalize hu : (s.issue r i _).modClusterAt l _ = u
  have hframe : ChangesOnly [.runs, .clusters] s u := by
    subst hu
    exact ((s.issue_frame r i _).mono (by decide)).trans ((State.modClusterAt_frame _ _ _).mono (by decide))
  refine ⟨_, u, outcome_next (stepIssue_of_fits h hm hf hu.symm), rfl, fun hc => if_neg ?_, ?_, ?_⟩
  · rcases hc with hc | hc <;> simp [hc]
  · split <;> rfl
  · split
    · exact hframe.trans ((u.modPos_frame r i _).mono (by decide))
    · exact hframe

/-- Settles O47: a STEP by whether its tiles fit, a drain by the branches of its rules, a transfer by the level which the
partial has reached, and a save or load by what its bank holds. -/
theorem matrixWork : Obligations.MatrixWork := by
  refine ⟨fun l r i k p s h hm he => ⟨stepIssue_settled h hm, fun c hf => ?_⟩, ?_, ?_, ?_, ?_, ?_, ?_, ?_⟩
  · exact ⟨_, outcome_next (stepIssue_of_fault h hm hf), State.progFault_faulted h.pos he k c 0,
      State.progFault_banks h.pos he k c 0⟩
  · rintro l r i p f x rest _ s _ hrun hpos hf hx rfl rfl
    have hdrain := drain_eq hrun hpos hf hx rfl rfl rfl rfl
    have hleft := s.stepLeaves_frame r i x.idx
    refine ⟨fun hw ho hm he => ?_, fun hr hm => ?_, fun hr hw => ⟨fun hc => ?_, fun g hc hg => ?_⟩⟩
    · have hroot : ¬((stepOp (p.uop x.idx)).reduce ≠ 0 ∧ s.rankOf r (stepOp (p.uop x.idx)).reduce i ≠ some 0) :=
        fun ⟨hn, hmem⟩ => hm.elim hn hmem
      exact ⟨_, outcome_next (hdrain.trans (if_pos ⟨hw, ho, hroot⟩)),
        (State.progFault_faulted hpos he x.idx 10 0).of_eq (hleft .faults (by decide)),
        Eq.trans (State.progFault_frame _ r i x.idx 10 0 .scratch (by decide)) (hleft .scratch (by decide))⟩
    · refine outcome_next ((hdrain.trans (if_neg fun hn => ?_)).trans (if_pos hr))
      obtain ⟨hn, ho, hmem⟩ := hn
      rcases hm with hm | hm | hm
      · exact Bool.false_ne_true (hm.symm.trans hn)
      · exact ho hm
      · exact hmem ⟨hr, hm⟩
    · refine outcome_next (((hdrain.trans (if_neg fun hn => ?_)).trans (if_neg (not_not_intro hr))).trans
        (if_neg (by rw [hc]; exact Bool.false_ne_true)))
      exact hw.elim (fun hw => Bool.false_ne_true (hw.symm.trans hn.1)) hn.2.1
    · refine outcome_next (((hdrain.trans (if_neg fun hn => ?_)).trans (if_neg (not_not_intro hr))).trans
        ((if_pos hc).trans ?_))
      · exact hw.elim (fun hw => Bool.false_ne_true (hw.symm.trans hn.1)) hn.2.1
      · rw [State.rescaleTerms_of_head ((State.presentedHead_of_chans (hleft .chans (by decide)) f).trans hg)]
  · intro l r i rank p s hrun hp hr hrank hl
    have hone : exec (.reductionTransfer [l]) s = .next (s.reproTransfer r p) := by
      show Host.Outcome.next (s.forEach ((List.finRange 64).filter [l].contains) reductionTransfer) = _
      rw [finRange_filter_one]
      exact outcome_next ((reductionTransfer_eq hrun hp).trans (if_pos hr))
    refine ⟨fun h0 => ?_, fun y h0 hy hs => hone.trans (outcome_next (State.reproTransfer_of_member hrank hl h0 hy hs))⟩
    subst h0
    exact hone.trans (outcome_next (State.reproTransfer_of_root hrank hl))
  · intro l r i p y s hrun hp hr hready hy hroot
    show Host.Outcome.next (s.forEach ((List.finRange 64).filter [l].contains) reductionTransfer) = _
    rw [finRange_filter_one]
    exact outcome_next (((reductionTransfer_eq hrun hp).trans (if_neg (by rw [hr]; exact Bool.false_ne_true))).trans
      (State.fastTransfer_of_meets hready hy hroot))
  · intro l m s hlm
    have htwo : ∀ ls : List LogNo, (∀ x, x ∈ ls ↔ x = l ∨ x = m) →
        exec (.reductionTransfer ls) s = .next (reductionTransfer m (reductionTransfer l s)) := fun ls hls => by
      show Host.Outcome.next (s.forEach ((List.finRange 64).filter ls.contains) reductionTransfer) = _
      rw [finRange_filter_two hlm ls hls]
      rfl
    exact ⟨htwo [m, l] fun x => by simp [or_comm], htwo [l, m] fun x => by simp⟩
  · intro l r i k p s h hu hroom
    have hsave := qsaveIssue_eq h hu hroom
    refine ⟨fun hw => outcome_next (hsave.trans (if_neg (not_not_intro hw))), fun hw he => ?_⟩
    exact ⟨_, outcome_next (hsave.trans (if_pos hw)), State.progFault_faulted h.pos he k 10 0,
      s.progFault_frame r i k 10 0 .scratch (by decide)⟩
  · intro l r i k p c s h hu hc
    have hset := issue_modClusterAt hc _ _ (qloadIssue_eq h hu)
    exact ⟨_, rfl, hset⟩
  · intro l r i k p c s h hu hc
    have hset := issue_modClusterAt hc _ _ (qclearIssue_eq h hu)
    exact ⟨_, rfl, hset⟩

end Sys2Proof.Machine
end

section
/-!
PROOFS. Channel-frames on the clusters (R553, R562, R593 to R595, R597 to R599, R602 to R605, R607, R631, R635, R985).
-/

namespace Sys2Proof.Machine

/-! ### The first of the least -/

section
variable {α : Type} {le : α → α → Bool}

/-- A list which is not empty has a least element. -/
theorem exists_least (htrans : ∀ a b c, le a b = true → le b c = true → le a c = true)
    (htotal : ∀ a b, le a b = true ∨ le b a = true) {l : List α} (hl : l ≠ []) : ∃ m ∈ l, ∀ b ∈ l, le m b = true := by
  have hself : ∀ a, le a a = true := fun a => (htotal a a).elim id id
  induction l with
  | nil => exact absurd rfl hl
  | cons x r ih =>
    by_cases hr : r = []
    · subst hr
      exact ⟨x, List.mem_cons_self, fun b hb => List.mem_singleton.1 hb ▸ hself x⟩
    · obtain ⟨m, hm, hleast⟩ := ih hr
      rcases htotal x m with hx | hx
      · refine ⟨x, List.mem_cons_self, fun b hb => ?_⟩
        rcases List.mem_cons.1 hb with rfl | hb
        · exact hself b
        · exact htrans x m b hx (hleast b hb)
      · refine ⟨m, List.mem_cons_of_mem x hm, fun b hb => ?_⟩
        rcases List.mem_cons.1 hb with rfl | hb
        · exact hx
        · exact hleast b hb

/-- A search for an element which is least finds one in a list which is not empty. -/
theorem find?_least (htrans : ∀ a b c, le a b = true → le b c = true → le a c = true)
    (htotal : ∀ a b, le a b = true ∨ le b a = true) {l : List α} (hl : l ≠ []) :
    ∃ a ∈ l, (l.find? fun a => l.all fun b => le a b) = some a ∧ ∀ b ∈ l, le a b = true := by
  obtain ⟨m, hm, hleast⟩ := exists_least htrans htotal hl
  have hsome : (l.find? fun a => l.all fun b => le a b).isSome :=
    List.find?_isSome.2 ⟨m, hm, List.all_eq_true.2 hleast⟩
  obtain ⟨a, ha⟩ := Option.isSome_iff_exists.1 hsome
  have hall := List.find?_some ha
  exact ⟨a, List.mem_of_find?_eq_some ha, ha, List.all_eq_true.1 hall⟩

end

/-! ### Dispatch -/

/-- R631: no frame is older than one of an earlier tick, or of the same tick and no higher channel. -/
theorem not_older_iff (a b : Frame × Nat) :
    (!older b a) = true ↔ a.2 < b.2 ∨ a.2 = b.2 ∧ a.1.chan ≤ b.1.chan := by
  simp only [older, Bool.not_eq_true', Bool.or_eq_false_iff, decide_eq_false_iff_not, Nat.not_lt, Bool.and_eq_false_iff,
    beq_eq_false_iff_ne]
  omega

theorem not_older_trans (a b c : Frame × Nat) (hab : (!older b a) = true) (hbc : (!older c b) = true) :
    (!older c a) = true := by
  rw [not_older_iff] at *
  omega

theorem not_older_total (a b : Frame × Nat) : (!older b a) = true ∨ (!older a b) = true := by
  rw [not_older_iff, not_older_iff]
  omega

section
variable {n : FnNo} {s : State}

/-- R631: with no program to be chosen again, the dispatcher looks at its ready frames. -/
theorem dispatch_of_settled (hp : ∀ p ∈ s.progs, p.stratum = n → p.reselect = false) :
    ((s.progs.filter fun p => p.stratum == n && p.reselect).map (·.id)) = [] := by
  rw [List.map_eq_nil_iff, List.filter_eq_nil_iff]
  intro p hm hsel
  obtain ⟨hn, hr⟩ := Bool.and_eq_true_iff.1 hsel
  exact Bool.false_ne_true ((hp p hm (beq_iff_eq.1 hn)).symm.trans hr)

/-- R635: a frame which nothing can run ends. -/
theorem dispatch_of_stranded (hp : ∀ p ∈ s.progs, p.stratum = n → p.reselect = false) {f : Frame}
    (hf : s.stranded n = some f) : dispatch n s = s.abortFrame f.chan f.seq := by
  unfold dispatch
  rw [dispatch_of_settled hp]
  simp only [State.forEach, List.foldl_nil, hf]

/-- R631: the frame which is found starts. -/
theorem dispatch_of_found (hp : ∀ p ∈ s.progs, p.stratum = n → p.reselect = false) (hs : s.stranded n = none)
    (hr : ∀ x ∈ s.remaps, s.holder x.2.1 ≠ n) {f : Frame × Nat}
    (hf : (((s.readyFrames n).filter fun f => (s.startsOn f.1).isSome).find? fun a =>
      ((s.readyFrames n).filter fun f => (s.startsOn f.1).isSome).all fun b => !older b a) = some f)
    {x : Prog × Nat × List Nat} (hx : s.startsOn f.1 = some x) :
    dispatch n s = s.startRun f.1 f.2 x.1 x.2.1 x.2.2 := by
  have hremaps : (s.remaps.any fun x => s.holder x.2.1 == n) = false :=
    List.any_eq_false.2 fun x hm he => hr x hm (beq_iff_eq.1 he)
  unfold dispatch
  rw [dispatch_of_settled hp]
  simp only [State.forEach, List.foldl_nil, hs, hremaps, Bool.false_eq_true, if_false, hf, hx]

/-- R593, R594: the run of a channel-frame for whose input the program has an entry. -/
theorem State.startRun_runs {f : Frame} {p : Prog} (hf : f.route.input < hdrInputs p.header) (since rep : Nat)
    (cells : List Nat) : ∃ r, (s.startRun f since p rep cells).runs = s.runs ++ [r] ∧ r.chan = f.chan ∧
      r.seq.toNat = f.seq % 2 ^ 64 ∧ r.replica = rep ∧ r.positions.length = cells.length := by
  unfold startRun
  rw [if_neg (Nat.not_le.2 hf)]
  exact ⟨_, rfl, rfl, BitVec.toNat_ofNat _ _, rfl, by simp⟩

end

/-! ### The end of a micro-operation -/

/-- R599: a position from whose flights a micro-operation has gone. -/
def Position.land (p : Position) (k : Nat) : Position := { p with flights := p.flights.filter fun x => x.idx ≠ k }

/-- R602: a position whose semaphore was signalled. -/
def Position.signalled (p : Position) (n : Fin 16) : Position := { p with sems := vmod p.sems n fun v => v + 1 }

section
variable {s : State} {r : Run} {i k : Nat} {p : Position}

/-- R599: a micro-operation which signals nothing. -/
theorem State.completeUop_of_silent (hpos : r.pos i = some p) (he : r.ending = false) (hs : signalOf (p.uop k) = none) :
    s.completeUop r i k = s.modPos r i fun x => x.land k := by
  simp only [completeUop, hpos, he, Bool.false_eq_true, if_false, hs]
  rfl

/-- R602: a micro-operation which signals a semaphore below its limit. -/
theorem State.completeUop_of_signal (hpos : r.pos i = some p) (he : r.ending = false) {n : Fin 16}
    (hs : signalOf (p.uop k) = some n) (hn : p.sems[n] < 255) :
    s.completeUop r i k = (s.modPos r i fun x => x.land k).modPos r i fun x => x.signalled n := by
  simp only [completeUop, hpos, he, Bool.false_eq_true, if_false, hs, if_neg (Nat.not_le.2 hn)]
  rfl

/-- R602, R605: a signal beyond the semaphore's limit is a program fault. -/
theorem State.completeUop_of_overflow (hpos : r.pos i = some p) (he : r.ending = false) {n : Fin 16}
    (hs : signalOf (p.uop k) = some n) (hn : 255 ≤ p.sems[n]) :
    s.completeUop r i k = (s.modPos r i fun x => x.land k).progFault r i k 3 0 := by
  simp only [completeUop, hpos, he, Bool.false_eq_true, if_false, hs, if_pos hn]
  rfl

end

/-! ### NOP -/

/-- R607: NOP completes as it issues. -/
theorem nopIssue_of_run {l : LogNo} {r q : Run} {i k : Nat} {p : Position} {s t : State}
    (h : AtHead s opcNop l r i p k) (ht : t = s.issue r i { Flight.start k 0 with done := true })
    (hq : t.runAt l = some (q, i)) : nopIssue l s = t.completeUop q i k := by
  subst ht
  refine (onHead_of_atHead h rfl _).trans ?_
  simp only [hq]

/-- A micro-operation which issues moves its queue on. -/
theorem Position.issue_next {p : Position} {k opc : Nat} (h : opcOf (p.uop k) = opc) (tick : Tick) (x : Flight) :
    (p.issue tick k x).next[(Fin.ofNat 3 (queueOf opc) : Fin 3)] = k + 1 := by
  subst h
  exact vmod_get _ _ _

/-- A micro-operation which issues takes from the semaphore which it waits for. -/
theorem Position.issue_sems (p : Position) (tick : Tick) (k : Nat) (x : Flight) (n : Fin 16) :
    (p.issue tick k x).sems[n] = if waitOf (p.uop k) = some n then p.sems[n] - 1 else p.sems[n] := by
  unfold issue
  dsimp only
  cases waitOf (p.uop k) with
  | none => rfl
  | some m =>
    by_cases hm : m = n
    · subst hm
      rw [if_pos rfl]
      exact vmod_get _ _ _
    · rw [if_neg fun he => hm (Option.some.inj he)]
      exact vmod_get_ne _ _ hm

/-- What is left of the flights of a position once a micro-operation has completed. -/
theorem Position.land_flights (p : Position) (k : Nat) : ∀ x ∈ (p.land k).flights, x.idx ≠ k := fun _ hx =>
  of_decide_eq_true (List.mem_filter.1 hx).2

/-- R598, R602, R607: NOP issues, completes and signals. -/
theorem nop_settled {l : LogNo} {r : Run} {i k : Nat} {p : Position} {s : State} (h : AtHead s opcNop l r i p k)
    (he : r.ending = false) (hsem : ∀ n, signalOf (p.uop k) = some n → p.sems[n] < 255) :
    ∃ t q j y, exec (.nop l) s = .next t ∧ t.runAt l = some (q, j) ∧ q.pos j = some y ∧
      y.next[(Fin.ofNat 3 (queueOf opcNop) : Fin 3)] = k + 1 ∧ (∀ x ∈ y.flights, x.idx ≠ k) ∧
      (∀ n, signalOf (p.uop k) = some n →
        y.sems[n] = (if waitOf (p.uop k) = some n then p.sems[n] - 1 else p.sems[n]) + 1) ∧ ChangesOnly [.runs] s t := by
  generalize hx : ({ Flight.start k 0 with done := true } : Flight) = x
  have hidx : x.idx = k := by subst hx; rfl
  have hissued := State.modPos_runAt (j := i) h.run (f := fun y => y.issue s.tick x.idx x) fun _ => rfl
  have hpos := Run.pos_modify_same h.pos fun y => y.issue s.tick x.idx x
  generalize hq : ({ r with positions := r.positions.modify i fun y => y.issue s.tick x.idx x } : Run) = q at hissued hpos
  have hqe : q.ending = false := by subst hq; exact he
  have hnop : nopIssue l s = (s.issue r i x).completeUop q i k := nopIssue_of_run h (by rw [hx]) hissued
  have hnext : (p.issue s.tick x.idx x).next[(Fin.ofNat 3 (queueOf opcNop) : Fin 3)] = k + 1 := by
    rw [hidx]
    exact Position.issue_next h.opcode s.tick x
  have hsems : ∀ n, (p.issue s.tick x.idx x).sems[n] =
      if waitOf (p.uop k) = some n then p.sems[n] - 1 else p.sems[n] := fun n => by
    rw [hidx]
    exact p.issue_sems s.tick k x n
  have hlanded := State.modPos_runAt (j := i) hissued (f := fun y => y.land k) fun _ => rfl
  have hpos' := Run.pos_modify_same hpos fun y => y.land k
  have hframe : ChangesOnly [.runs] s ((s.issue r i x).modPos q i fun y => y.land k) :=
    (s.issue_frame r i x).trans (State.modPos_frame _ q i _)
  cases hs : signalOf (p.uop k) with
  | none =>
    exact ⟨_, _, i, _, outcome_next (hnop.trans (State.completeUop_of_silent hpos hqe hs)), hlanded, hpos', hnext,
      Position.land_flights _ k, fun _ hn => (nomatch hn), hframe⟩
  | some m =>
    have hless : (p.issue s.tick x.idx x).sems[m] < 255 := by
      have := hsem m hs
      rw [hsems]
      split <;> omega
    refine ⟨_, _, i, _, outcome_next (hnop.trans (State.completeUop_of_signal hpos hqe hs hless)),
      State.modPos_runAt (j := i) hlanded (f := fun y => y.signalled m) fun _ => rfl,
      Run.pos_modify_same hpos' fun y => y.signalled m, hnext, Position.land_flights _ k, fun n hn => ?_,
      hframe.trans (State.modPos_frame _ q i _)⟩
    cases hn
    rw [← hsems]
    exact vmod_get _ _ _

/-! ### BARRIER_RELEASE -/

/-- R607: a position which is released from the BARRIER at which it waits. -/
def Position.released (p : Position) : Position := p.barrier.elim p fun x => p.land x.1

/-- R985: a run of which the first positions are released. -/
def Run.released (r : Run) (m : Nat) : Run :=
  { r with positions := r.positions.mapIdx fun j p => if j < m then p.released else p }

theorem Run.released_zero (r : Run) : r.released 0 = r := by
  have hsame : r.positions.mapIdx (fun j p => if j < 0 then p.released else p) = r.positions :=
    List.ext_getElem? fun j => by simp
  unfold released
  rw [hsame]

theorem Run.pos_released (r : Run) (m j : Nat) :
    (r.released m).pos j = (r.pos j).map fun p => if j < m then p.released else p := List.getElem?_mapIdx

/-- The next position is released. -/
theorem Run.released_succ {r : Run} {m : Nat} {p : Position} {b : Nat × Nat} (hp : r.pos m = some p)
    (hb : p.barrier = some b) :
    { r.released m with positions := (r.released m).positions.modify m fun x => x.land b.1 } = r.released (m + 1) := by
  have hsame : (r.released m).positions.modify m (fun x => x.land b.1) = (r.released (m + 1)).positions := by
    refine List.ext_getElem? fun j => ?_
    rw [List.getElem?_modify]
    show (fun x : Position => if m = j then x.land b.1 else x) <$> (r.released m).pos j = (r.released (m + 1)).pos j
    rw [pos_released, pos_released]
    by_cases hj : m = j
    · subst hj
      simp [hp, Position.released, hb]
    · have hlt : j < m + 1 ↔ j < m := by omega
      simp only [if_neg hj, hlt]
      exact id_map _
  rw [hsame]
  rfl

/-- What BARRIER_RELEASE does at a position. -/
def State.releaseAt (r : Run) (l : LogNo) (n j : Nat) (t : State) : State :=
  match (r.pos j).bind Position.barrier with
  | some x =>
    if x.2 = n then
      match t.runAt l with
      | some q => t.completeUop q.1 j x.1
      | none => t
    else t
  | none => t

section
variable {l : LogNo} {r : Run} {i n : Nat} {s : State}

/-- R607, R985: every position has reached the BARRIER: each is released in turn. -/
theorem barrierRelease_of_reached (hrun : s.runAt l = some (r, i)) {b : Nat × Nat}
    (hb : (r.pos i).bind Position.barrier = some b) (hall : ∀ p ∈ r.positions, b.2 < p.barriers) :
    barrierRelease l s = s.forEach (List.range r.positions.length) (State.releaseAt r l b.2) := by
  have hreached : (r.positions.all fun p => decide (b.2 < p.barriers)) = true :=
    List.all_eq_true.2 fun p hp => decide_eq_true (hall p hp)
  simp only [barrierRelease, hrun, hb, hreached, if_true]
  rfl

theorem State.releaseAt_eq {m : Nat} {p : Position} {k : Nat} {q : Run × Nat} {t : State} (hp : r.pos m = some p)
    (hb : p.barrier = some (k, n)) (hq : t.runAt l = some q) : t.releaseAt r l n m = t.completeUop q.1 m k := by
  simp only [releaseAt, hp, Option.bind_some, hb, if_true, hq]

/-- R985: of the positions which wait at one BARRIER that signals nothing, the first are released. -/
theorem State.releaseAt_forEach (hrun : s.runAt l = some (r, i)) (he : r.ending = false)
    (hwait : ∀ p ∈ r.positions, ∃ k, p.barrier = some (k, n) ∧ signalOf (p.uop k) = none) {m : Nat}
    (hm : m ≤ r.positions.length) :
    (s.forEach (List.range m) (releaseAt r l n)).runAt l = some (r.released m, i) ∧
      ChangesOnly [.runs] s (s.forEach (List.range m) (releaseAt r l n)) := by
  induction m with
  | zero => exact ⟨hrun.trans (by rw [r.released_zero]), .refl _ _⟩
  | succ m ih =>
    obtain ⟨hat, hframe⟩ := ih (Nat.le_of_succ_le hm)
    have hp : r.pos m = some r.positions[m] := List.getElem?_eq_getElem hm
    obtain ⟨k, hb, hs⟩ := hwait _ (List.getElem_mem hm)
    have hstep : s.forEach (List.range (m + 1)) (releaseAt r l n) =
        (s.forEach (List.range m) (releaseAt r l n)).modPos (r.released m) m fun x => x.land k := by
      rw [List.range_succ]
      refine (List.foldl_append ..).trans ((releaseAt_eq hp hb hat).trans (completeUop_of_silent ?_ he hs))
      rw [Run.pos_released, hp, Option.map_some, if_neg (Nat.lt_irrefl m)]
    rw [hstep]
    refine ⟨(modPos_runAt (j := m) hat (f := fun x => x.land k) fun _ => rfl).trans ?_,
      hframe.trans (modPos_frame _ _ _ _)⟩
    rw [Run.released_succ hp hb]

/-- R607, R985: the positions of a run are released from their BARRIER together. -/
theorem barrierRelease_settled (hrun : s.runAt l = some (r, i)) (he : r.ending = false)
    (hwait : ∀ p ∈ r.positions, n < p.barriers ∧ ∃ k, p.barrier = some (k, n) ∧ signalOf (p.uop k) = none) :
    ∃ t q, exec (.barrierRelease l) s = .next t ∧ t.runAt l = some (q, i) ∧ q.positions.length = r.positions.length ∧
      (∀ j p k y, r.pos j = some p → p.barrier = some (k, n) → q.pos j = some y →
        y.flights = p.flights.filter (fun x => x.idx ≠ k)) ∧ ChangesOnly [.runs] s t := by
  obtain ⟨_, hi, _⟩ := State.runAt_eq_some.1 hrun
  have hlt : i < r.positions.length := (List.findIdx?_eq_some_iff_findIdx_eq.1 hi).1
  have hp : r.pos i = some r.positions[i] := List.getElem?_eq_getElem hlt
  obtain ⟨k, hb, _⟩ := (hwait _ (List.getElem_mem hlt)).2
  have hbar : (r.pos i).bind Position.barrier = some (k, n) := by rw [hp, Option.bind_some, hb]
  obtain ⟨hat, hframe⟩ := State.releaseAt_forEach hrun he (fun p hp => (hwait p hp).2) (Nat.le_refl _)
  refine ⟨_, _, outcome_next (barrierRelease_of_reached hrun hbar fun p hp => (hwait p hp).1), hat, List.length_mapIdx,
    fun j p m y hj hm hy => ?_, hframe⟩
  have hjlt : j < r.positions.length := (List.getElem?_eq_some_iff.1 hj).1
  rw [Run.pos_released, hj, Option.map_some, if_pos hjlt] at hy
  cases hy
  unfold Position.released
  rw [hm]
  rfl

end

end Sys2Proof.Machine
end

section
/-!
PROOFS. Micro-operations which complete, waits of 10 ms and the end of a channel-frame (R553, R562, R595, R599, R603, R607).
-/

namespace Sys2Proof.Machine

/-! ### MICRO_OP_COMPLETE -/

section
variable {l : LogNo} {r : Run} {i k : Nat} {p : Position} {x : Flight} {s : State}

/-- R599: a micro-operation whose work is done completes; a STEP which does not drain has left its slots. -/
theorem uopComplete_of_done (hrun : s.runAt l = some (r, i)) (hpos : r.pos i = some p)
    (hx : (p.flights.find? fun y => y.idx == k) = some x) (hload : opcOf (p.uop k) ≠ opcSload)
    (hend : opcOf (p.uop k) ≠ opcEnd) (hd : x.done = true) {u : State}
    (hu : u = if opcOf (p.uop k) = opcStep ∧ (stepOp (p.uop k)).close = false then s.stepLeaves r i k else s) :
    uopComplete l k s = u.completeUop r i k := by
  have hcond : (opcOf (p.uop k) = opcStep && !(stepOp (p.uop k)).close) = true ↔
      opcOf (p.uop k) = opcStep ∧ (stepOp (p.uop k)).close = false := by simp
  subst hu
  simp only [uopComplete, hrun, hpos, hx, if_neg hload, if_neg hend, hd, if_true, hcond]

/-- R607: an END before which everything has completed. -/
theorem uopComplete_of_end (hrun : s.runAt l = some (r, i)) (hpos : r.pos i = some p)
    (hx : (p.flights.find? fun y => y.idx == k) = some x) (hend : opcOf (p.uop k) = opcEnd)
    (hb : p.allBefore k = true) :
    uopComplete l k s = (s.completeUop r i k).modPos r i fun y => { y with ended := true } := by
  have hload : opcOf (p.uop k) ≠ opcSload := by rw [hend]; decide
  simp only [uopComplete, hrun, hpos, hx, if_neg hload, if_pos hend, hb, if_true]

/-- R553, R610: an SLOAD whose slot may be filled. -/
theorem uopComplete_of_load (hrun : s.runAt l = some (r, i)) (hpos : r.pos i = some p)
    (hx : (p.flights.find? fun y => y.idx == k) = some x) (hload : opcOf (p.uop k) = opcSload) {c : PhysNo} {w : OpSlot}
    (hc : s.mapping[p.cluster] = some c) (hw : x.tile = some w) (hf : p.mayFill k = true) :
    uopComplete l k s = (s.fillSlot c (sloadOp (p.uop k)) { w with state := .resident }).completeUop r i k := by
  simp only [uopComplete, hrun, hpos, hx, if_pos hload, hc, hw, hf, if_true]

end

/-! ### Waits of 10 ms -/

/-- A program fault once an instant is reached. -/
theorem State.reach_progFault {s : State} {r : Run} {i : Nat} {p : Position} (hpos : r.pos i = some p)
    (he : r.ending = false) (due : Tick) (k cause addr : Nat) :
    due ≤ ((s.reach due).progFault r i k cause addr).tick ∧ Faulted s ((s.reach due).progFault r i k cause addr) r := by
  refine ⟨?_, (progFault_faulted hpos he k cause addr).of_eq (s.reach_frame due .faults (by decide))⟩
  rw [progFault_frame _ r i k cause addr .tick (by decide)]
  exact s.le_reach_tick due

section
variable {l : LogNo} {r : Run} {i k : Nat} {p : Position} {s : State}

/-- R562: a STEP which is stuck with no load coming. -/
theorem scoreboardStall_of_stuck (hrun : s.runAt l = some (r, i)) (hpos : r.pos i = some p) (hh : p.head 0 = some k)
    (ho : opcOf (p.uop k) = opcStep) (hst : p.stuck (s.clusterAt l) (s.reproOf r) k = true)
    (hl : p.loadsComing k = false) :
    scoreboardStall l s = (s.reach (p.since[(0 : Fin 3)] + tenMs)).progFault r i k 1 0 := by
  have hcond : opcOf (p.uop k) = opcStep ∧ p.stuck (s.clusterAt l) (s.reproOf r) k = true ∧ (!p.loadsComing k) = true :=
    ⟨ho, hst, by rw [hl]; rfl⟩
  simp only [scoreboardStall, hrun, hpos, hh, if_pos hcond]

/-- R603: of the heads which are stuck, the one which has waited longest. -/
theorem queueTimeout_of_stuck (hrun : s.runAt l = some (r, i)) (hpos : r.pos i = some p) (hfl : p.flights = [])
    {a : Fin 3 × Nat} (ha : ((s.stuckHeads r p).find? fun a =>
      (s.stuckHeads r p).all fun b => decide (p.since[a.1] ≤ p.since[b.1])) = some a) :
    queueTimeout l s = (s.reach (p.since[a.1] + tenMs)).progFault r i a.2 2 0 := by
  simp only [queueTimeout, hrun, hpos, hfl, List.isEmpty_nil, Bool.not_true, Bool.false_eq_true, if_false, ha]

/-- R603: with nothing in flight, a head which is stuck becomes a program fault. -/
theorem queueTimeout_settled (hrun : s.runAt l = some (r, i)) (hpos : r.pos i = some p) (hfl : p.flights = [])
    (hst : s.stuckHeads r p ≠ []) (he : r.ending = false) :
    ∃ t, ∃ a ∈ s.stuckHeads r p, exec (.queueWaitTimeout l) s = .next t ∧ p.since[a.1] + 8000000 ≤ t.tick ∧
      (∀ b ∈ s.stuckHeads r p, p.since[a.1] ≤ p.since[b.1]) ∧ Faulted s t r := by
  obtain ⟨a, hm, ha, hleast⟩ := find?_least (le := fun a b : Fin 3 × Nat => decide (p.since[a.1] ≤ p.since[b.1]))
    (fun a b c hab hbc => decide_eq_true (BitVec.le_trans (of_decide_eq_true hab) (of_decide_eq_true hbc)))
    (fun a b => (BitVec.le_total p.since[a.1] p.since[b.1]).imp decide_eq_true decide_eq_true) hst
  obtain ⟨htick, hfault⟩ := State.reach_progFault (s := s) hpos he (p.since[a.1] + tenMs) a.2 2 0
  exact ⟨_, a, hm, outcome_next (queueTimeout_of_stuck hrun hpos hfl ha), htick,
    fun b hb => of_decide_eq_true (hleast b hb), hfault⟩

/-- R595: a channel-frame whose positions have all ended, and which offers no tensor. -/
theorem frameEnd_of_ended {g : Prog} {f : Frame} (hrun : s.runAt l = some (r, i)) (he : r.ending = false)
    (hall : ∀ x ∈ r.positions, x.ended = true) (hg : s.prog r.stratum r.prog = some g) (hsel : g.reselect = false)
    (hf : s.frame r.chan r.seq.toNat = some f) (hsend : s.sendChannel r.stratum r.prog f.route.input = none) :
    frameEnd l s = s.finishRun r.chan r.seq.toNat := by
  have hended : (!r.ending && r.positions.all fun p => p.ended) = true := by
    rw [he, List.all_eq_true.2 hall]
    rfl
  simp only [frameEnd, hrun, hended, if_true, hg, hf, hsel, Bool.false_eq_true, if_false, State.offerTensor, hsend]

end

/-! ### The obligation -/

/-- R631: the oldest ready frame which can start does. -/
theorem dispatch_settled {n : FnNo} {s : State} (hp : ∀ p ∈ s.progs, p.stratum = n → p.reselect = false)
    (hs : s.stranded n = none) (hr : ∀ x ∈ s.remaps, s.holder x.2.1 ≠ n)
    (hcan : ∃ a ∈ s.readyFrames n, (s.startsOn a.1).isSome = true) :
    ∃ f since p rep cells, (f, since) ∈ s.readyFrames n ∧ s.startsOn f = some (p, rep, cells) ∧
      (∀ b ∈ s.readyFrames n, (s.startsOn b.1).isSome = true → older b (f, since) = false) ∧
      exec (.dispatch n) s = .next (s.startRun f since p rep cells) ∧
      (f.route.input < hdrInputs p.header → ∃ r, (s.startRun f since p rep cells).runs = s.runs ++ [r] ∧
        r.chan = f.chan ∧ r.seq.toNat = f.seq % 2 ^ 64 ∧ r.replica = rep ∧ r.positions.length = cells.length) := by
  obtain ⟨a, ha, hstart⟩ := hcan
  have hne : ((s.readyFrames n).filter fun f => (s.startsOn f.1).isSome) ≠ [] :=
    List.ne_nil_of_mem (List.mem_filter.2 ⟨ha, hstart⟩)
  obtain ⟨f, hmem, hfind, hleast⟩ := find?_least (le := fun a b : Frame × Nat => !older b a) not_older_trans
    not_older_total hne
  obtain ⟨hready, hsome⟩ := List.mem_filter.1 hmem
  obtain ⟨x, hx⟩ := Option.isSome_iff_exists.1 hsome
  refine ⟨f.1, f.2, x.1, x.2.1, x.2.2, hready, hx, fun b hb hbs => ?_, outcome_next (dispatch_of_found hp hs hr hfind hx),
    fun hi => State.startRun_runs hi _ _ _⟩
  have hnot := hleast b (List.mem_filter.2 ⟨hb, hbs⟩)
  rwa [Bool.not_eq_true'] at hnot

/-- Settles O46: the dispatcher's search finds a least frame; a micro-operation by what its opcode needs to complete; a wait
of 10 ms is a program fault, after which no position of the run has a head left. -/
theorem framesOnClusters : Obligations.FramesOnClusters := by
  refine ⟨fun n s hp hs hr hcan => dispatch_settled hp hs hr hcan,
    fun n f s hp hf => outcome_next (dispatch_of_stranded hp hf), fun l r i k p s h he hsem => nop_settled h he hsem,
    fun l r i k p s h => outcome_next (onHead_of_atHead h rfl _),
    fun l r i k p s h => outcome_next (onHead_of_atHead h rfl _),
    fun l r i n s hrun he hwait => barrierRelease_settled hrun he hwait, ?_, ?_,
    fun l r i p s hrun hpos hfl hst he => queueTimeout_settled hrun hpos hfl hst he,
    fun l r i p f s hrun he hall hg hsel hf hsend =>
      congrArg (fun t : State => Host.Outcome.next t.drainArea) (frameEnd_of_ended hrun he hall hg hsel hf hsend)⟩
  · intro l r i k p x s u hrun hpos he hx hu
    refine ⟨fun hload hend hd => ?_, fun hend hb hs => ?_, fun c w hload hc hw hf hs => ?_⟩
    · have hdone := uopComplete_of_done hrun hpos hx hload hend hd hu
      refine ⟨fun hs => outcome_next (hdone.trans (State.completeUop_of_silent hpos he hs)),
        fun n hs hn => outcome_next (hdone.trans (State.completeUop_of_signal hpos he hs hn)), fun n hs hn => ?_⟩
      refine ⟨_, outcome_next (hdone.trans (State.completeUop_of_overflow hpos he hs hn)),
        (State.progFault_faulted hpos he k 3 0).of_eq ?_⟩
      rw [State.modPos_frame u r i _ .faults (by decide), hu]
      split
      · exact s.stepLeaves_frame r i k .faults (by decide)
      · rfl
    · refine outcome_next ((uopComplete_of_end hrun hpos hx hend hb).trans ?_)
      rw [State.completeUop_of_silent hpos he hs]
      rfl
    · exact outcome_next ((uopComplete_of_load hrun hpos hx hload hc hw hf).trans (State.completeUop_of_silent hpos he hs))
  · intro l r i k p s hrun hpos hh ho hst hl he
    obtain ⟨htick, hfault⟩ := State.reach_progFault (s := s) hpos he (p.since[(0 : Fin 3)] + tenMs) k 1 0
    exact ⟨_, outcome_next (scoreboardStall_of_stuck hrun hpos hh ho hst hl), htick, hfault⟩

end Sys2Proof.Machine
end

section
/-!
PROOFS. LOCKSTEP frames as they arrive (R839, R841, R843, R847, R855, R1003): the fields of a frame which was built as it
should be, its acceptance, and what the LOCKSTEP queue leaves of the lock-step record.
-/

namespace Sys2Proof.Machine

/-! ### Fields -/

/-- A field behind other bytes. -/
theorem fieldNat_append_right {a : List Byte} {k : Nat} (ha : a.length = k) (l : List Byte) (o n : Nat) :
    fieldNat (a ++ l) (k + o) n = fieldNat l o n := by
  unfold fieldNat
  congr 1
  refine List.map_congr_left fun i _ => ?_
  rw [← ha, List.getElem?_append_right (by omega)]
  congr 2
  omega

/-- A field before other bytes. -/
theorem fieldNat_append_left {b : List Byte} {o n : Nat} (h : o + n ≤ b.length) (d : List Byte) :
    fieldNat (b ++ d) o n = fieldNat b o n := by
  unfold fieldNat
  congr 1
  refine List.map_congr_left fun i hi => ?_
  have hlt := List.mem_range.1 hi
  rw [List.getElem?_append_left (by omega)]

/-- A field which was written as a number. -/
theorem fieldNat_leBytes_append {n v : Nat} (hv : v < 256 ^ n) (d : List Byte) : fieldNat (leBytes n v ++ d) 0 n = v := by
  rw [fieldNat_append_left (by simp)]
  have hbytes : (List.range n).map (fun i => ((leBytes n v)[0 + i]?).getD 0) = leBytes n v := by
    refine List.ext_getElem (by simp) fun j hj _ => ?_
    have hlt : j < (leBytes n v).length := by simpa using hj
    simp [List.getElem?_eq_getElem hlt]
  rw [fieldNat, hbytes, leNat_leBytes, Nat.mod_eq_of_lt hv]

/-! ### Frames -/

/-- The bytes of a frame's header. -/
def headBytes (ftype ch seq sbits n : Nat) : List Byte :=
  leBytes 2 (ftype * 4096 + ch) ++ leBytes 2 seq ++ leBytes 2 n ++ leBytes 1 sbits ++ [0]

theorem length_headBytes (ftype ch seq sbits n : Nat) : (headBytes ftype ch seq sbits n).length = 8 := by
  simp [headBytes, length_leBytes]

theorem length_padTo8 (n : Nat) : n + (padTo8 n).length = (n + 7) / 8 * 8 := by
  rw [padTo8, List.length_replicate]
  omega

/-- What a frame's CRC covers. -/
def frameBody (ftype ch seq sbits : Nat) (b : List Byte) : List Byte :=
  headBytes ftype ch seq sbits b.length ++ (b ++ padTo8 b.length)

theorem length_frameBody (ftype ch seq sbits : Nat) (b : List Byte) :
    (frameBody ftype ch seq sbits b).length = 8 + (b.length + 7) / 8 * 8 := by
  rw [frameBody, List.length_append, length_headBytes, List.length_append, length_padTo8]

theorem frameBytes_eq (ftype ch seq sbits : Nat) (b : List Byte) : frameBytes ftype ch seq sbits b =
    frameBody ftype ch seq sbits b ++
      (leBytes 4 (crc32c (frameBody ftype ch seq sbits b)).toNat ++ List.replicate 4 0) := by
  have hbody : leBytes 2 (ftype * 4096 + ch) ++ leBytes 2 seq ++ leBytes 2 b.length ++ leBytes 1 sbits ++ [0] ++ b ++
      padTo8 b.length = frameBody ftype ch seq sbits b := by
    simp only [frameBody, headBytes, List.append_assoc]
  simp only [frameBytes, hbody]
  exact List.append_assoc ..

section
variable {ftype ch seq sbits : Nat} {b : List Byte}

/-- R841: the CRC of a frame which was built holds. -/
theorem frameIntact_frameBytes : frameIntact (frameBytes ftype ch seq sbits b) b.length = true := by
  have hcrc : (crc32c (frameBody ftype ch seq sbits b)).toNat < 256 ^ 4 := BitVec.isLt _
  have hbody := length_frameBody ftype ch seq sbits b
  have hfield : fieldNat (frameBytes ftype ch seq sbits b) (8 + (b.length + 7) / 8 * 8) 4 =
      (crc32c (frameBody ftype ch seq sbits b)).toNat := by
    rw [frameBytes_eq]
    exact (fieldNat_append_right hbody _ 0 4).trans (fieldNat_leBytes_append hcrc _)
  have hlen : (frameBytes ftype ch seq sbits b).length = 8 + (b.length + 7) / 8 * 8 + 8 := by
    rw [frameBytes_eq, List.length_append, hbody, List.length_append, length_leBytes, List.length_replicate]
  have htake : (frameBytes ftype ch seq sbits b).take (8 + (b.length + 7) / 8 * 8) = frameBody ftype ch seq sbits b := by
    rw [frameBytes_eq, List.take_left' hbody]
  simp only [frameIntact, hlen, hfield, htake, beq_self_eq_true, Bool.and_self]

/-- The payload of a frame which was built. -/
theorem payload_frameBytes : ((frameBytes ftype ch seq sbits b).drop 8).take b.length = b := by
  rw [frameBytes_eq, frameBody, List.append_assoc, List.drop_left' (length_headBytes ..), List.append_assoc, List.take_left]

/-- The first byte of the payload. -/
theorem rawLkind_frameBytes (h : 1 ≤ b.length) : rawLkind (frameBytes ftype ch seq sbits b) = fieldNat b 0 1 := by
  rw [rawLkind, frameBytes_eq, frameBody, List.append_assoc, List.append_assoc]
  exact (fieldNat_append_right (length_headBytes ..) _ 0 1).trans (fieldNat_append_left (by omega) _)

/-- R839: the header of a frame which was built with fields that fit. -/
theorem headFields_frameBytes (ht : ftype * 4096 + ch < 65536) (hseq : seq < 65536) (hn : b.length < 65536)
    (hsb : sbits < 256) : fieldNat (frameBytes ftype ch seq sbits b) 0 2 = ftype * 4096 + ch ∧
      fieldNat (frameBytes ftype ch seq sbits b) 2 2 = seq ∧
      fieldNat (frameBytes ftype ch seq sbits b) 4 2 = b.length ∧
      fieldNat (frameBytes ftype ch seq sbits b) 6 1 = sbits ∧
      fieldNat (frameBytes ftype ch seq sbits b) 7 1 = 0 := by
  have htwo : ∀ (v : Nat) (l : List Byte) (o n : Nat), fieldNat (leBytes 2 v ++ l) (2 + o) n = fieldNat l o n :=
    fun v l o n => fieldNat_append_right (length_leBytes 2 v) l o n
  have hone : ∀ (v : Nat) (l : List Byte) (o n : Nat), fieldNat (leBytes 1 v ++ l) (1 + o) n = fieldNat l o n :=
    fun v l o n => fieldNat_append_right (length_leBytes 1 v) l o n
  rw [frameBytes_eq]
  simp only [frameBody, headBytes, List.append_assoc]
  refine ⟨fieldNat_leBytes_append ht _, (htwo _ _ 0 2).trans (fieldNat_leBytes_append hseq _),
    ((htwo _ _ 2 2).trans (htwo _ _ 0 2)).trans (fieldNat_leBytes_append hn _),
    (((htwo _ _ 4 1).trans (htwo _ _ 2 1)).trans (htwo _ _ 0 1)).trans (fieldNat_leBytes_append hsb _),
    ((((htwo _ _ 5 1).trans (htwo _ _ 3 1)).trans (htwo _ _ 1 1)).trans (hone _ _ 0 1)).trans ?_⟩
  exact fieldNat_append_left (b := [0]) (Nat.le_refl 1) _

end

/-- The header of a LOCKSTEP frame. -/
def lockHead (q : W16) (n : Nat) : RxHead := { ftype := 3, ch := 4095, seq := q, len := n, sbits := 0 }

theorem rxHead_frameBytes {q : W16} {b : List Byte} (h1 : 1 ≤ b.length) (h2 : b.length ≤ 4096) :
    rxHead (frameBytes 3 4095 q.toNat 0 b) = some (lockHead q b.length) := by
  obtain ⟨ht, hq, hn, hs, hz⟩ := headFields_frameBytes (ftype := 3) (ch := 4095) (seq := q.toNat) (sbits := 0) (b := b)
    (by decide) q.isLt (by omega) (by decide)
  have hlegal : ¬(decide ((3 * 4096 + 4095) / 4096 = 0) || decide (3 < (3 * 4096 + 4095) / 4096) ||
      decide (b.length = 0) || decide (4096 < b.length) || ((0 : Nat) != 0)) = true := by
    simp only [Bool.or_eq_true, decide_eq_true_eq, bne_self_eq_false, Bool.false_eq_true, or_false]
    omega
  simp only [rxHead, rawFtype, ht, hq, hn, hs, hz, if_neg hlegal, BitVec.ofNat_toNat, BitVec.setWidth_eq]
  rfl

/-! ### Acceptance -/

/-- A LOCKSTEP payload stands before a port which may carry it, with credit for it. -/
structure LockArrives (s : State) (p : PortNo) (b : List Byte) : Prop where
  active : s.ports[p].st = .active
  reads : s.ports[p].skipping = false
  role : s.ports[p].role = 2
  pos : 1 ≤ b.length
  fits : b.length ≤ 4096
  credit : s.ports[p].creditsOf b.length ≤ (s.ports[p].lockRx.limit - s.ports[p].lockRx.consumed).toNat
  ahead : (s.ports[p].lockRx.limit - s.ports[p].lockRx.consumed).toNat ≤ 32767

/-- R847: the item expected next was acknowledged and counted. -/
def State.acked (s : State) (p : PortNo) : State :=
  (s.modPort p fun x => { x with rxSeq := x.rxSeq + 1, nakAt := none }).emit (.block p (ackBlock 0x10 s.ports[p].rxSeq))

/-- R855: a LOCKSTEP frame of so many payload bytes was accepted, and its credits are consumed. -/
def State.lockAccepted (s : State) (p : PortNo) (n : Nat) : State :=
  (s.acked p).modPort p fun x => { x with
    lockRx := { x.lockRx with consumed := x.lockRx.consumed + BitVec.ofNat 16 (s.ports[p].creditsOf n) } }

theorem State.lockAccepted_frame (s : State) (p : PortNo) (n : Nat) : ChangesOnly [.ports, .out] s (s.lockAccepted p n) :=
  (by simp (disch := decide) only [lockAccepted, acked, emit_only, modPort_only, changesOnly_self] :
    _ ↔ ChangesOnly [.ports, .out] s s).2 (.refl _ _)

theorem State.acked_port (s : State) (p : PortNo) :
    (s.acked p).ports[p] = { s.ports[p] with rxSeq := s.ports[p].rxSeq + 1, nakAt := none } := by
  rw [acked, (emit_frame _ _ .ports (by decide) : (State.emit _ _).ports = _), modPort_port]

theorem State.lockAccepted_rxSeq (s : State) (p : PortNo) (n : Nat) :
    (s.lockAccepted p n).ports[p].rxSeq = s.ports[p].rxSeq + 1 := by
  rw [lockAccepted, modPort_port, acked_port]

/-- What arrives leaves the ports' latencies. -/
theorem State.lockAccepted_latency (s : State) (p : PortNo) (n : Nat) (q : PortNo) :
    (s.lockAccepted p n).ports[q].latency = s.ports[q].latency := by
  by_cases h : q = p
  · subst h
    rw [lockAccepted, modPort_port, acked_port]
    rfl
  · rw [lockAccepted, modPort_port_ne _ _ h, acked, (emit_frame _ _ .ports (by decide) : (State.emit _ _).ports = _),
      modPort_port_ne _ _ h]

section
variable {s : State} {p : PortNo} {b : List Byte}

/-- R847: a frame with the number expected next. -/
theorem State.rxFrame_lock (h : LockArrives s p b) :
    s.rxFrame p (frameBytes 3 4095 s.ports[p].rxSeq.toNat 0 b) =
      (s.acked p, some (lockHead s.ports[p].rxSeq b.length, b)) := by
  have hlive : (s.ports[p].st != .active || s.ports[p].skipping) = false := by
    rw [h.active, h.reads]
    rfl
  have hitem : s.rxItem p s.ports[p].rxSeq = (s.acked p, true) := if_pos rfl
  simp only [rxFrame, hlive, Bool.false_eq_true, if_false, rxHead_frameBytes h.pos h.fits]
  simp only [lockHead, frameIntact_frameBytes, if_true, hitem, payload_frameBytes]

/-- R855: with enough credit its records are acted on. -/
theorem State.acceptLock_of_credit (h : LockArrives s p b) (q : W16) (f : List Byte → State → State) :
    (s.acked p).acceptLock p (lockHead q b.length) b f = (f b (s.lockAccepted p b.length)).areaCredit := by
  have hport := s.acked_port p
  have hrole : (s.acked p).ports[p].role = 2 ∧ (lockHead q b.length).ch = 4095 := ⟨by rw [hport, h.role], rfl⟩
  have hrx : (s.acked p).ports[p].lockRx = s.ports[p].lockRx := by rw [hport]
  have hcredits : (s.acked p).ports[p].creditsOf b.length = s.ports[p].creditsOf b.length := by rw [hport]; rfl
  have henough : ¬(32767 < (s.ports[p].lockRx.limit - s.ports[p].lockRx.consumed).toNat ∨
      (s.ports[p].lockRx.limit - s.ports[p].lockRx.consumed).toNat < s.ports[p].creditsOf b.length) :=
    not_or.2 ⟨Nat.not_lt.2 h.ahead, Nat.not_lt.2 h.credit⟩
  unfold acceptLock
  dsimp only
  rw [if_pos hrole, hrx, hcredits, if_neg henough]
  rfl

/-- R1003: a LOCKSTEP frame of a kind acts by its kind. -/
theorem rxLockRow_of_arrives (h : LockArrives s p b) {kind : Nat} (hk : fieldNat b 0 1 = kind)
    (f : List Byte → State → State) :
    rxLockRow kind p (frameBytes 3 4095 s.ports[p].rxSeq.toNat 0 b) f s =
      (f b (s.lockAccepted p b.length)).areaCredit := by
  have hkind : rawLkind (frameBytes 3 4095 s.ports[p].rxSeq.toNat 0 b) = kind := (rawLkind_frameBytes h.pos).trans hk
  have hftype : rawFtype (frameBytes 3 4095 s.ports[p].rxSeq.toNat 0 b) = 3 := by
    have hfirst := (headFields_frameBytes (ftype := 3) (ch := 4095) (seq := s.ports[p].rxSeq.toNat) (sbits := 0) (b := b)
      (by decide) s.ports[p].rxSeq.isLt (Nat.lt_of_le_of_lt h.fits (by decide)) (by decide)).1
    rw [rawFtype, hfirst]
  unfold rxLockRow
  dsimp only
  rw [if_pos hkind, rxFrameRow, hftype]
  simp only [true_or, if_true, State.rxFrame_lock h]
  exact State.acceptLock_of_credit h _ f

end

/-! ### What the LOCKSTEP queue leaves of the record -/

/-- The lock-step record without the area of forwarded items. -/
def Lock.withoutArea (l : Lock) : Lock := { l with area := [], rejoin := [] }

/-- The lock-step record without the area of forwarded items and the queue of payloads. -/
def Lock.core (l : Lock) : Lock := { l.withoutArea with sendq := [] }

/-- A view of the lock-step record is the same in two states. -/
def LockKept {α : Type} (v : Lock → α) (s t : State) : Prop := v t.lock = v s.lock

section
variable {α : Type} {v : Lock → α}

theorem LockKept.refl (s : State) : LockKept v s s := rfl

theorem LockKept.view {s t : State} (h : LockKept v s t) : v t.lock = v s.lock := h

theorem LockKept.trans {r s t : State} (h : LockKept v r s) (g : LockKept v s t) : LockKept v r t := Eq.trans g h

theorem LockKept.of_eq {s t : State} (h : t.lock = s.lock) : LockKept v s t := congrArg v h

theorem LockKept.of_law {s t : State}
    (h : ChangesOnly (Comp.allBut [.lock]) s t ↔ ChangesOnly (Comp.allBut [.lock]) s s) : LockKept v s t :=
  .of_eq (h.2 (ChangesOnly.refl _ _) .lock (by decide))

theorem LockKept.forEach {β : Type} {f : β → State → State} (h : ∀ a t, LockKept v t (f a t)) (l : List β) (s : State) :
    LockKept v s (s.forEach l f) := by
  unfold State.forEach
  induction l generalizing s with
  | nil => exact .refl s
  | cons a l ih => exact (h a s).trans (ih (f a s))

theorem LockKept.ite {s t u : State} {c : Prop} [Decidable c] (h : LockKept v s t) (g : LockKept v s u) :
    LockKept v s (if c then t else u) := by
  split
  · exact h
  · exact g

end

/-- A channel which is unbound takes its items from the area only. -/
theorem State.unbindNow_lockKept (s : State) (c : Nat) : LockKept Lock.withoutArea s (s.unbindNow c) := by
  unfold unbindNow
  split
  · exact .refl s
  · dsimp only
    refine LockKept.trans ?_ (.of_law (by apply settlePool_only <;> simp))
    refine LockKept.trans ?_ (.of_law (by apply reclaimAll_only; simp))
    have harea : ∀ (t : State) (a : Lock → List FwdItem) (r : Lock → List Nat),
        LockKept Lock.withoutArea t (t.modLock fun l => { l with area := a l, rejoin := r l }) := fun _ _ _ => rfl
    refine LockKept.trans ?_ (harea _ (fun l => l.area.filter fun e => e.1 ≠ c) fun l => l.rejoin.filter (· ≠ c))
    refine LockKept.trans ?_ (.of_law (by apply releaseParts_only; simp))
    refine LockKept.trans ?_ (.of_law (by apply upd_deliveries_runs_chans_loaded_only <;> simp))
    refine LockKept.trans ?_ (.of_law (forEach_only (fun b u => by apply zeroBuf_only; simp) _ _))
    have hdrop : LockKept Lock.withoutArea s ((s.dropOpen c).forEach
        ((s.dropOpen c).frames.filter fun f => f.chan == c) fun f u => u.dropFrame c f.seq) :=
      LockKept.trans (.of_law (by apply dropOpen_only <;> simp))
        (.of_law (forEach_only (fun f u => by apply dropFrame_only <;> simp) _ _))
    generalize (s.dropOpen c).forEach _ _ = t at hdrop ⊢
    have hport : ∀ p f, LockKept Lock.withoutArea s (t.modPort p f) := fun p f => hdrop.trans (.of_eq rfl)
    exact .ite ((hport _ _).trans (.of_law (by apply emit_only; simp))) (hport _ _)

theorem State.endUnbinds_lockKept (s : State) : LockKept Lock.withoutArea s s.endUnbinds := by
  refine .forEach (f := fun c t => t.endUnbind c) (fun c t => ?_) _ _
  unfold endUnbind
  split
  · exact .refl t
  · split
    · exact .refl t
    · refine .ite (LockKept.trans ?_ (.of_law (by apply completeOk_only <;> simp))) (.refl t)
      exact LockKept.trans (.of_law (by apply dropOpen_only <;> simp)) (unbindNow_lockKept _ c)

theorem State.sendFrame_lock (s : State) (p : PortNo) (ftype ch : Nat) (b : List Byte) :
    (s.sendFrame p ftype ch b).lock = s.lock :=
  ((by apply sendFrame_only <;> simp : _ ↔ ChangesOnly [.ports, .out] s s).2 (.refl _ _) : ChangesOnly _ s _) .lock
    (by decide)

theorem State.sendItem_out (s : State) (p : PortNo) (b : List Byte) : Emit.frame p b ∈ (s.sendItem p true b).out :=
  emitItem_out (i := { seq := s.ports[p].txSeq, bytes := b, frame := true }) _ p

/-- A frame which is sent is among the outputs. -/
theorem State.sendFrame_out (s : State) (p : PortNo) (ftype ch : Nat) (b : List Byte) :
    ∃ n, Emit.frame p (frameBytes ftype ch n 0 b) ∈ (s.sendFrame p ftype ch b).out :=
  ⟨s.ports[p].txSeq.toNat, s.sendItem_out p _⟩

theorem State.flushLock_lockKept (n : Nat) (s : State) : LockKept Lock.core s (s.flushLock n) := by
  induction n generalizing s with
  | zero => exact .refl s
  | succ n ih =>
    unfold flushLock
    split
    · exact .refl s
    · next e rest _ =>
      have hsent : ∀ f, LockKept Lock.core s
          (((s.modLock fun l => { l with sendq := rest }).modPort 7 f).sendFrame 7 3 4095 e.2) := fun f =>
        .trans (s := (s.modLock fun l => { l with sendq := rest }).modPort 7 f) rfl (.of_eq (sendFrame_lock _ _ _ _ _))
      exact .ite ((hsent _).trans (ih _)) (.refl s)

/-- A payload of the queue stays in it, or is sent. -/
theorem State.flushLock_sent (n : Nat) {s : State} {x : Option (Nat × Nat) × List Byte} (hx : x ∈ s.lock.sendq) :
    x ∈ (s.flushLock n).lock.sendq ∨ ∃ m, Emit.frame 7 (frameBytes 3 4095 m 0 x.2) ∈ (s.flushLock n).out := by
  induction n generalizing s with
  | zero => exact .inl hx
  | succ n ih =>
    unfold flushLock
    split
    · exact .inl hx
    · next e rest hq =>
      dsimp only
      split
      · generalize hu : (s.modLock fun l => { l with sendq := rest }).modPort 7 _ = u
        have hrest : u.lock.sendq = rest := by rw [← hu]; rfl
        rw [hq] at hx
        rcases List.mem_cons.1 hx with rfl | hin
        · obtain ⟨m, hm⟩ := u.sendFrame_out 7 3 4095 x.2
          exact .inr ⟨m, (flushLock_sends n _).mem_out hm⟩
        · exact ih (by rw [sendFrame_lock, hrest]; exact hin)
      · exact .inl hx

theorem Lock.core_of_withoutArea {s t : State} (h : LockKept Lock.withoutArea s t) : LockKept Lock.core s t :=
  (congrArg (fun l : Lock => { l with sendq := [] }) h.view :)

/-- What follows the sending of the queue. -/
theorem State.afterFlush_lockKept (s : State) :
    LockKept Lock.withoutArea s s.releaseForwarded.settlePool.endUnbinds :=
  (LockKept.trans (.of_law (by apply releaseForwarded_only <;> simp)) (.of_law (by apply settlePool_only <;> simp))).trans
    (endUnbinds_lockKept _)

theorem State.pumpLock_lockKept (s : State) : LockKept Lock.core s s.pumpLock :=
  (flushLock_lockKept _ s).trans (Lock.core_of_withoutArea (afterFlush_lockKept _))

/-- R855: a payload which is to be sent waits in the queue, or was sent. -/
theorem State.lockSend_sent (s : State) (item : Option (Nat × Nat)) (b : List Byte) :
    (item, b) ∈ (s.lockSend item b).lock.sendq ∨
      ∃ m, Emit.frame 7 (frameBytes 3 4095 m 0 b) ∈ (s.lockSend item b).out := by
  generalize hu : (s.modLock fun l => { l with sendq := l.sendq ++ [(item, b)] }) = u
  have hsend : s.lockSend item b = u.pumpLock := by rw [← hu]; rfl
  have hq : (item, b) ∈ u.lock.sendq := by
    rw [← hu]
    exact List.mem_append_right _ (List.mem_singleton_self _)
  have hsends : Sends (u.flushLock u.lock.sendq.length) u.pumpLock := by
    have hrelease : ∀ t : State, Sends t t.releaseForwarded := fun t => .of_law (by apply releaseForwarded_only <;> simp)
    exact ((hrelease _).trans (settlePool_sends _)).trans (endUnbinds_sends _)
  rw [hsend]
  rcases flushLock_sent u.lock.sendq.length hq with hin | ⟨m, hm⟩
  · refine .inl ?_
    have hkept : u.pumpLock.lock.sendq = (u.flushLock u.lock.sendq.length).lock.sendq :=
      (congrArg Lock.sendq (afterFlush_lockKept (u.flushLock u.lock.sendq.length)).view :)
    rwa [hkept]
  · exact .inr ⟨m, hsends.mem_out hm⟩

end Sys2Proof.Machine
end

section
/-!
PROOFS. The records of LOCKSTEP frames (R1003), and what each kind of frame does (R991, R995, R999, R1001, R1002, R1005).
-/

namespace Sys2Proof.Machine

/-! ### The payload -/

section
variable {kind count : Nat} {r : List Byte}

theorem length_lockPayload : (lockPayload kind count r).length = 8 + r.length := by
  simp only [lockPayload, List.length_append, length_leBytes, List.length_replicate, List.length_cons, List.length_nil]

theorem drop_lockPayload : (lockPayload kind count r).drop 8 = r :=
  List.drop_left' (by simp [length_leBytes])

/-- A field of the records. -/
theorem fieldNat_lockPayload (o n : Nat) : fieldNat (lockPayload kind count r) (8 + o) n = fieldNat r o n :=
  fieldNat_append_right (by simp [length_leBytes]) r o n

theorem lockPayload_kind (h : kind < 256) : fieldNat (lockPayload kind count r) 0 1 = kind := by
  simp only [lockPayload, List.append_assoc]
  exact fieldNat_leBytes_append h _

theorem lockPayload_count (h : count < 65536) : fieldNat (lockPayload kind count r) 2 2 = count := by
  simp only [lockPayload, List.append_assoc]
  exact (fieldNat_append_right (length_leBytes 1 kind) _ 1 2).trans
    ((fieldNat_append_right (a := [0]) rfl _ 0 2).trans (fieldNat_leBytes_append h _))

/-- The one record of a payload. -/
theorem lockRecords_one (h : 0 < r.length) : lockRecords (lockPayload kind 1 r) r.length = [r] := by
  have hcount : min (fieldNat (lockPayload kind 1 r) 2 2) (((lockPayload kind 1 r).length - 8) / r.length) = 1 := by
    rw [lockPayload_count (by decide), length_lockPayload, Nat.add_sub_cancel_left, Nat.div_self h]
    rfl
  rw [lockRecords, hcount]
  show [((lockPayload kind 1 r).drop (8 + r.length * 0)).take r.length] = [r]
  rw [Nat.mul_zero, Nat.add_zero, drop_lockPayload, List.take_length]

end

/-! ### Digests -/

theorem length_digestRecord (d : Digest) : (digestRecord d).length = 32 := by
  simp [digestRecord, length_leBytes]

/-- R1003: a DIGEST record holds its digest, less what is this side's own. -/
theorem digestOf_digestRecord {d : Digest} (hq : d.pairSeq < 2 ^ 64) (hc : d.chan < 65536) (ht : d.tiles < 2 ^ 32) :
    digestOf (digestRecord d) = { d with frameSeq := 0, prog := 0 } := by
  have hskip : ∀ (n v : Nat) (l : List Byte) (o m : Nat), fieldNat (leBytes n v ++ l) (n + o) m = fieldNat l o m :=
    fun n v l o m => fieldNat_append_right (length_leBytes n v) l o m
  have hpad : ∀ (l : List Byte) (o m : Nat), fieldNat ([0] ++ l) (1 + o) m = fieldNat l o m :=
    fun l o m => fieldNat_append_right (a := [0]) rfl l o m
  have hrec : digestRecord d = leBytes 8 d.pairSeq ++ (leBytes 2 d.chan ++ (leBytes 1 d.flags.toNat ++ ([0] ++
      (leBytes 4 d.tiles ++ (leBytes 8 d.digest.toNat ++ (leBytes 4 d.conditions.toNat ++ List.replicate 4 0)))))) := by
    simp only [digestRecord, List.append_assoc]
  have hpair : fieldNat (digestRecord d) 0 8 = d.pairSeq := by
    rw [hrec]
    exact fieldNat_leBytes_append hq _
  have hchan : fieldNat (digestRecord d) 8 2 = d.chan := by
    rw [hrec]
    exact (hskip 8 _ _ 0 2).trans (fieldNat_leBytes_append hc _)
  have hflags : fieldNat (digestRecord d) 10 1 = d.flags.toNat := by
    rw [hrec]
    exact ((hskip 8 _ _ 2 1).trans (hskip 2 _ _ 0 1)).trans (fieldNat_leBytes_append d.flags.isLt _)
  have htiles : fieldNat (digestRecord d) 12 4 = d.tiles := by
    rw [hrec]
    exact ((((hskip 8 _ _ 4 4).trans (hskip 2 _ _ 2 4)).trans (hskip 1 _ _ 1 4)).trans (hpad _ 0 4)).trans
      (fieldNat_leBytes_append ht _)
  have hdigest : fieldNat (digestRecord d) 16 8 = d.digest.toNat := by
    rw [hrec]
    exact (((((hskip 8 _ _ 8 8).trans (hskip 2 _ _ 6 8)).trans (hskip 1 _ _ 5 8)).trans (hpad _ 4 8)).trans
      (hskip 4 _ _ 0 8)).trans (fieldNat_leBytes_append d.digest.isLt _)
  have hcond : fieldNat (digestRecord d) 24 4 = d.conditions.toNat := by
    rw [hrec]
    exact ((((((hskip 8 _ _ 16 4).trans (hskip 2 _ _ 14 4)).trans (hskip 1 _ _ 13 4)).trans (hpad _ 12 4)).trans
      (hskip 4 _ _ 8 4)).trans (hskip 8 _ _ 0 4)).trans (fieldNat_leBytes_append d.conditions.isLt _)
  rw [digestOf, hpair, hchan, hflags, htiles, hdigest, hcond, BitVec.ofNat_toNat, BitVec.ofNat_toNat, BitVec.ofNat_toNat,
    BitVec.setWidth_eq, BitVec.setWidth_eq, BitVec.setWidth_eq]

section
variable {s : State}

/-- R999: the digest of a DIGEST frame. -/
theorem takeDigests_one {d : Digest} (hst : s.lock.st = .paired) (hq : d.pairSeq < 2 ^ 64) (hc : d.chan < 65536)
    (ht : d.tiles < 2 ^ 32) :
    takeDigests (lockPayload 1 1 (digestRecord d)) s = s.peerDigest { d with frameSeq := 0, prog := 0 } := by
  have hone : lockRecords (lockPayload 1 1 (digestRecord d)) 32 = [digestRecord d] :=
    length_digestRecord d ▸ lockRecords_one (by rw [length_digestRecord]; decide)
  have hpaired : (s.lock.st != .paired) = false := by rw [hst]; rfl
  rw [takeDigests, hpaired, hone, ← digestOf_digestRecord hq hc ht]
  rfl

theorem State.peerDigest_sends (s : State) (d : Digest) : Sends s (s.peerDigest d) := by
  unfold peerDigest
  split
  · exact compareDigests_sends _ _ _
  · exact modLock_sends _ _

/-- R1000: a digest which has none of this side's to meet is kept. -/
theorem State.peerDigest_of_none {d : Digest}
    (h : (s.lock.mine.find? fun e => e.chan == d.chan && e.pairSeq == d.pairSeq) = none) (hf : s.lock.full = false) :
    (s.peerDigest d).lock = { s.lock with peers := s.lock.peers ++ [d] } := by
  simp only [peerDigest, h, modLock, hf, Bool.false_eq_true, if_false]

theorem State.peerDigest_of_some {d e : Digest}
    (h : (s.lock.mine.find? fun e => e.chan == d.chan && e.pairSeq == d.pairSeq) = some e) :
    s.peerDigest d = s.compareDigests e d := by
  simp only [peerDigest, h]

/-- R999: digests of a frame which is not comparable are passed over. -/
theorem State.compareDigests_of_skipped {e d : Digest}
    (h : (e.flags ||| d.flags) &&& 3 ≠ 0 ∨ e.conditions ≠ d.conditions) :
    (s.compareDigests e d).lock.skipped = s.lock.skipped + 1 ∧ (s.compareDigests e d).lock.compared = s.lock.compared := by
  unfold compareDigests
  dsimp only
  rw [if_pos h]
  exact ⟨rfl, rfl⟩

/-- R999: digests which agree are counted. -/
theorem State.compareDigests_of_equal {e d : Digest} (hf : (e.flags ||| d.flags) &&& 3 = 0)
    (hc : e.conditions = d.conditions) (hd : e.digest = d.digest) :
    (s.compareDigests e d).lock.compared = s.lock.compared + 1 ∧
      (s.compareDigests e d).lock.divergent = s.lock.divergent ∧
      (s.compareDigests e d).lock.comparedTiles = s.lock.comparedTiles + BitVec.ofNat 64 e.tiles := by
  unfold compareDigests
  dsimp only
  rw [if_neg (not_or.2 ⟨not_not_intro hf, not_not_intro hc⟩), if_pos hd]
  exact ⟨rfl, rfl, rfl⟩

/-! ### Tile logs -/

theorem State.dropLog_frame (s : State) (c q : Nat) : ChangesOnly [.lock] s (s.dropLog c q) :=
  (by apply dropLog_only; simp : _ ↔ ChangesOnly [.lock] s s).2 (.refl _ _)

theorem State.dropLog_sends (s : State) (c q : Nat) : Sends s (s.dropLog c q) :=
  .of_only (s.dropLog_frame c q) (by decide) (by decide) (by decide)

/-- A log which goes leaves the queue, what was asked and the first divergence. -/
theorem State.dropLog_lock (s : State) (c q : Nat) : (s.dropLog c q).lock.sendq = s.lock.sendq ∧
    (s.dropLog c q).lock.asked = s.lock.asked ∧ (s.dropLog c q).lock.first = s.lock.first := by
  unfold dropLog
  dsimp only
  split <;> exact ⟨rfl, rfl, rfl⟩

/-- R1001: a request for a log which is not kept is answered so. -/
theorem State.answerLog_of_none {c q : Nat} (h : s.lock.log c q = none) :
    Sends s (s.answerLog c q) ∧ ((none, logPayload c q true []) ∈ (s.answerLog c q).lock.sendq ∨
      ∃ n, Emit.frame 7 (frameBytes 3 4095 n 0 (logPayload c q true [])) ∈ (s.answerLog c q).out) := by
  have hsend := s.lockSend_sends none (logPayload c q true [])
  have hsent := s.lockSend_sent none (logPayload c q true [])
  unfold answerLog
  simp only [h]
  generalize s.lockSend none (logPayload c q true []) = t at hsend hsent ⊢
  have hafter := (t.modLock_sends _).trans (State.dropLog_sends (t.modLock fun l => { l with
    answered := if (none : Option (List TileSig)).isSome then l.answered ++ [(c, q)] else l.answered }) c q)
  refine ⟨hsend.trans hafter, hsent.imp (fun hq => ?_) fun ⟨n, hn⟩ => ⟨n, hafter.mem_out hn⟩⟩
  rw [(dropLog_lock _ c q).1]
  exact hq

theorem length_logReqRecord (q c : Nat) : (leBytes 8 q ++ leBytes 2 c ++ List.replicate 6 0 : List Byte).length = 16 := by
  simp [length_leBytes]

/-- R1001: the request of a LOG_REQ frame. -/
theorem takeLogReq_one {q c : Nat} (hst : s.lock.st = .paired) (hq : q < 2 ^ 64) (hc : c < 65536) :
    takeLogReq (lockPayload 2 1 (leBytes 8 q ++ leBytes 2 c ++ List.replicate 6 0)) s = s.answerLog c q := by
  have hrec : (leBytes 8 q ++ leBytes 2 c ++ List.replicate 6 0 : List Byte) =
      leBytes 8 q ++ (leBytes 2 c ++ List.replicate 6 0) := List.append_assoc ..
  have hseq : fieldNat (leBytes 8 q ++ leBytes 2 c ++ List.replicate 6 0) 0 8 = q := by
    rw [hrec]
    exact fieldNat_leBytes_append hq _
  have hchan : fieldNat (leBytes 8 q ++ leBytes 2 c ++ List.replicate 6 0) 8 2 = c := by
    rw [hrec]
    exact (fieldNat_append_right (length_leBytes 8 q) _ 0 2).trans (fieldNat_leBytes_append hc _)
  have hone : lockRecords (lockPayload 2 1 (leBytes 8 q ++ leBytes 2 c ++ List.replicate 6 0)) 16 =
      [leBytes 8 q ++ leBytes 2 c ++ List.replicate 6 0] :=
    length_logReqRecord q c ▸ lockRecords_one (by rw [length_logReqRecord]; decide)
  have hpaired : (s.lock.st != .paired) = false := by rw [hst]; rfl
  rw [takeLogReq, hpaired, hone]
  show s.answerLog (fieldNat _ 8 2) (fieldNat _ 0 8) = _
  rw [hseq, hchan]

/-- The header of a LOG frame for a log which is not kept. -/
theorem logPayload_fields {c q : Nat} (hq : q < 2 ^ 64) (hc : c < 65536) :
    fieldNat (logPayload c q true []) 16 2 = c ∧ fieldNat (logPayload c q true []) 8 8 = q ∧
      fieldNat (logPayload c q true []) 18 1 = 1 := by
  have hrec : logPayload c q true [] = lockPayload 3 0 (leBytes 8 q ++ (leBytes 2 c ++ (leBytes 1 1 ++
      (List.replicate 5 0 ++ [])))) := by
    simp [logPayload, List.append_assoc]
  rw [hrec]
  refine ⟨(fieldNat_lockPayload 8 2).trans ?_, (fieldNat_lockPayload 0 8).trans (fieldNat_leBytes_append hq _),
    (fieldNat_lockPayload 10 1).trans ?_⟩
  · exact (fieldNat_append_right (length_leBytes 8 q) _ 0 2).trans (fieldNat_leBytes_append hc _)
  · exact ((fieldNat_append_right (length_leBytes 8 q) _ 2 1).trans
      (fieldNat_append_right (length_leBytes 2 c) _ 0 1)).trans (fieldNat_leBytes_append (by decide) _)

/-- R1002: the first divergence which is located. -/
theorem State.located_of_first {d : Divergence} (h : s.lock.first = none) :
    (s.located d).lock = { s.lock with first := some d } := by
  have hoccur : ∀ (t : State) n e at_ a b data, (t.occurAt n e at_ a b data).lock = t.lock := fun t n e at_ a b data =>
    ((by apply occurAt_only <;> simp : _ ↔ ChangesOnly [.fns, .out, .waits] t t).2 (.refl _ _) : ChangesOnly _ t _) .lock
      (by decide)
  simp only [located, h]
  exact hoccur _ _ _ _ _ _ _

/-- R1001, R1002: a log which is not to be had locates the divergence to its channel-frame. -/
theorem State.compareLogs_of_none (h : s.lock.first = none) (d : Digest) :
    (s.compareLogs d none).lock.first = some d.wholeFrame ∧ ∀ e ∈ (s.compareLogs d none).lock.asked, e.1 ≠ d := by
  have hcompare : s.compareLogs d none =
      ((s.modLock fun l => { l with asked := l.asked.filter fun e => e.1 != d }).dropLog d.chan d.pairSeq).located
        d.wholeFrame := by
    unfold compareLogs
    dsimp only
    split
    · next hn => cases hn
    · rfl
  obtain ⟨_, hasked, hfirst⟩ :=
    (s.modLock fun l => { l with asked := l.asked.filter fun e => e.1 != d }).dropLog_lock d.chan d.pairSeq
  rw [hcompare, located_of_first (hfirst.trans h)]
  refine ⟨rfl, fun e he => ?_⟩
  replace he := hasked ▸ he
  exact bne_iff_ne.1 (List.mem_filter.1 he).2

/-- R1001: a LOG frame which says that the log was dropped. -/
theorem takeLog_of_dropped {d : Digest} {l : List TileSig} (hq : d.pairSeq < 2 ^ 64) (hc : d.chan < 65536)
    (ha : (s.lock.asked.find? fun e => e.1.chan == d.chan && e.1.pairSeq == d.pairSeq) = some (d, l)) :
    takeLog (logPayload d.chan d.pairSeq true []) s = s.compareLogs d none := by
  obtain ⟨hchan, hseq, hflag⟩ := logPayload_fields hq hc
  simp only [takeLog, hchan, hseq, hflag, ha]
  rfl

end

end Sys2Proof.Machine
end

section
/-!
PROOFS. Forwarded input, the beginning and the end of a pair, and the obligation (R991, R995, R1005).
-/

namespace Sys2Proof.Machine

/-! ### Forwarded input -/

/-- The fields of a FORWARD record without payload. -/
theorem forwardRecord_fields {c kind set : Nat} (hc : c < 65536) (hk : kind < 256) (hs : set < 256) :
    fieldNat (forwardRecord c kind 0 set) 0 2 = c ∧ fieldNat (forwardRecord c kind 0 set) 2 1 = kind ∧
      fieldNat (forwardRecord c kind 0 set) 3 1 = 0 ∧ fieldNat (forwardRecord c kind 0 set) 4 1 = set := by
  have hone : ∀ (v : Nat) (l : List Byte) (o n : Nat), fieldNat (leBytes 1 v ++ l) (1 + o) n = fieldNat l o n :=
    fun v l o n => fieldNat_append_right (length_leBytes 1 v) l o n
  have htwo : ∀ (l : List Byte) (o n : Nat), fieldNat (leBytes 2 c ++ l) (2 + o) n = fieldNat l o n :=
    fun l o n => fieldNat_append_right (length_leBytes 2 c) l o n
  have hrec : forwardRecord c kind 0 set =
      leBytes 2 c ++ (leBytes 1 kind ++ (leBytes 1 0 ++ (leBytes 1 set ++ [0, 0, 0]))) := by
    simp only [forwardRecord, List.append_assoc]
  rw [hrec]
  exact ⟨fieldNat_leBytes_append hc _, (htwo _ 0 1).trans (fieldNat_leBytes_append hk _),
    ((htwo _ 1 1).trans (hone _ _ 0 1)).trans (fieldNat_leBytes_append (by decide) _),
    (((htwo _ 2 1).trans (hone _ _ 1 1)).trans (hone _ _ 0 1)).trans (fieldNat_leBytes_append hs _)⟩

section
variable {s : State}

/-- R996: the one item of the area, which has room. -/
theorem State.drainArea_of_single {i : FwdItem} (ha : s.lock.area = [i]) (hf : s.itemFits i = true) :
    s.drainArea = ((s.modLock fun l => { l with area := l.area.erase i }).moveItem i).areaCredit := by
  have hfirst : (([i].find? fun j => j.chan == i.chan) == some i) = true := by simp
  unfold drainArea
  rw [ha]
  simp only [forEach, List.foldl_cons, List.foldl_nil, ha, hfirst, hf, Bool.and_self, if_true]

/-- R995: a SETTING_NOTICE which is forwarded. -/
def settingItem (c set : Nat) (tick : Tick) : FwdItem :=
  { chan := c, itype := 3, sbits := 0, arg := BitVec.ofNat 8 set, bytes := [], tick }

theorem State.moveItem_setting {c set : Nat} {x : Chan} (h : s.chan c = some x) (hs : set < 256) (tick : Tick) :
    s.moveItem (settingItem c set tick) = s.takeNotice c set := by
  have harg : (settingItem c set tick).arg.toNat = set := Nat.mod_eq_of_lt hs
  have hchan : s.chan (settingItem c set tick).chan = some x := h
  have hmark : ¬(settingItem c set tick).itype = 1 := by simp [settingItem]
  have hnotice : ¬(settingItem c set tick).itype = 2 := by simp [settingItem]
  simp only [moveItem, hchan, if_neg hmark, if_neg hnotice, harg]
  rfl

/-- R995: a forwarded SETTING_NOTICE moves to its channel at once. -/
theorem takeForward_of_setting {x : Chan} {set : Nat} (hn : x.num < 65536) (hs : set < 256)
    (hx : s.chan x.num = some x) (ht : s.takesForwarded x = true) (ha : s.lock.area = []) :
    takeForward (lockPayload 4 1 (forwardRecord x.num 3 0 set)) s =
      (((s.modLock fun l => { l with area := l.area ++ [settingItem x.num set s.tick] }).modLock fun l =>
        { l with area := l.area.erase (settingItem x.num set s.tick) }).takeNotice x.num set).areaCredit := by
  obtain ⟨hc, hk, hsbits, hset⟩ := forwardRecord_fields (kind := 3) hn (by decide) hs
  have htake : takeForward (lockPayload 4 1 (forwardRecord x.num 3 0 set)) s =
      (s.modLock fun l => { l with area := l.area ++ [settingItem x.num set s.tick] }).drainArea := by
    simp only [takeForward, drop_lockPayload, hc, hk, hset, hsbits, hx, ht, Bool.not_true, Bool.false_or]
    rfl
  have harea : (s.modLock fun l => { l with area := l.area ++ [settingItem x.num set s.tick] }).lock.area =
      [settingItem x.num set s.tick] := by
    show s.lock.area ++ _ = _
    rw [ha, List.nil_append]
  have hfits : (s.modLock fun l => { l with area := l.area ++ [settingItem x.num set s.tick] }).itemFits
      (settingItem x.num set s.tick) = true := by
    have hchan : (s.modLock fun l => { l with area := l.area ++ [settingItem x.num set s.tick] }).chan
        (settingItem x.num set s.tick).chan = some x := hx
    have hkind : ((settingItem x.num set s.tick).itype != 1) = true := by simp [settingItem]
    simp only [State.itemFits, hchan, hkind, Bool.true_or]
  rw [htake, State.drainArea_of_single harea hfits]
  refine congrArg State.areaCredit (State.moveItem_setting (x := x) ?_ hs s.tick)
  exact hx

/-- R870, R908: a SETTING_NOTICE stands among its channel's. -/
theorem State.takeNotice_chan {c set : Nat} {x : Chan} (h : s.chan c = some x) :
    ∃ y n, (s.takeNotice c set).chan c = some y ∧ n ∈ y.slate.notices ∧ n.set = set ∧
      n.effective = x.marks + s.ports[x.port].latency :=
  ⟨_, _, chan_modChan (fun _ => rfl) h, List.mem_append_right _ (List.mem_singleton_self _), rfl, rfl⟩

/-! ### Pairs -/

/-- R1000: granules which are taken for tile logs. -/
theorem State.takeLogGranules_lock (n : Nat) (s : State) :
    ∃ g, (s.takeLogGranules n).lock = { s.lock with granules := g } := by
  induction n generalizing s with
  | zero => exact ⟨s.lock.granules, rfl⟩
  | succ n ih =>
    unfold takeLogGranules
    split
    · exact ⟨s.lock.granules, rfl⟩
    · obtain ⟨g, hg⟩ := ih _
      exact ⟨g, hg⟩

/-- R453, R991: with the peer's record here the PAIR completes. -/
theorem State.tryPair_of_record {id : Nat} {r : List Byte} (hst : s.lock.st = .pairing) (hcmd : s.lock.cmd = some id)
    (hr : s.lock.peerRec = some (s.tick, r)) :
    s.tryPair.lock.cmd = none ∧
      s.tryPair.lock.st = (if recordsAgree s.pairRecord r then .paired else .unpaired) ∧
      ∀ o ∈ s.tryPair.outst, o.id ≠ id := by
  have hsoon : ¬pairWait < s.tick - s.tick := by rw [BitVec.sub_self]; decide
  unfold tryPair
  simp only [hst, hcmd, hr, if_neg hsoon]
  by_cases hagree : recordsAgree s.pairRecord r = true
  · simp only [if_pos hagree]
    refine ⟨?_, ?_, not_mem_complete_outst⟩ <;> rw [completeOk_frame _ id 0 0 .lock (by decide)]
    · obtain ⟨g, hg⟩ := takeLogGranules_lock 256
        (s.modLock fun l => { l with st := .paired, cmd := none, peerRec := none, since := s.nextLaunch })
      rw [hg]
      rfl
    · obtain ⟨g, hg⟩ := takeLogGranules_lock 256
        (s.modLock fun l => { l with st := .paired, cmd := none, peerRec := none, since := s.nextLaunch })
      rw [hg]
      rfl
  · simp only [if_neg hagree]
    refine ⟨?_, ?_, not_mem_complete_outst⟩ <;>
      exact congrArg _ (complete_frame _ id stPartnerRefused 0 0 0 (dataPort 7) .lock (by decide))

/-- R991: without a PAIR here the record is kept. -/
theorem takePairRecord_of_waits (b : List Byte) (hpaired : s.lock.st ≠ .paired) (hpairing : s.lock.st ≠ .pairing) :
    takePairRecord b s = s.modLock fun l => { l with peerRec := some (s.tick, b.drop 8) } := by
  rw [takePairRecord, if_neg hpaired]
  unfold State.tryPair
  split
  · next h _ _ => exact absurd h hpairing
  · rfl

/-- R1005: the lock-step record of a pair which ends. -/
def Lock.ended (l : Lock) (cause : BitVec 8) (mine : List Nat) : Lock :=
  { l with
    st := .ended, endCause := cause, mine := [], peers := [], logs := [], asked := [], answered := [], granules := []
    area := [], rejoin := if l.secondary && l.forwarded then mine else l.rejoin, sendq := [] }

/-- R1005: what else ends with a pair leaves its record. -/
theorem State.endPair_lockKept (hst : s.lock.st = .paired) (cause : BitVec 8) : ∃ mine,
    LockKept Lock.core (s.modLock fun l => l.ended cause mine) (s.endPair cause false) := by
  have hpaired : ¬(s.lock.st != .paired) = true := by rw [hst]; exact Bool.false_ne_true
  refine ⟨(s.chans.filter fun c => c.stratum == s.lock.target).map (·.num), ?_⟩
  unfold endPair
  rw [if_neg hpaired]
  dsimp only
  refine LockKept.trans ?_ (.of_eq (areaCredit_frame _ .lock (by decide)))
  refine LockKept.trans ?_ (.of_eq (occurAll_frame _ _ _ _ _ .lock (by decide)))
  rw [if_neg Bool.false_ne_true]
  exact LockKept.trans (.of_law (by apply releaseParts_only; simp)) (pumpLock_lockKept _)

/-- R1005: a pair which ends. -/
theorem State.endPair_lock (hst : s.lock.st = .paired) (cause : BitVec 8) :
    (s.endPair cause false).lock.st = .ended ∧ (s.endPair cause false).lock.endCause = cause ∧
      (s.endPair cause false).lock.target = s.lock.target := by
  obtain ⟨mine, hkept⟩ := endPair_lockKept hst cause
  exact ⟨(congrArg Lock.st hkept.view :), (congrArg Lock.endCause hkept.view :), (congrArg Lock.target hkept.view :)⟩

/-- R991: a PAIR which gets no record in time is refused. -/
theorem pairTimeout_of_pairing {id : Nat} (hst : s.lock.st = .pairing) (hcmd : s.lock.cmd = some id) {due : Tick}
    (hdue : s.lock.began + pairWait = due) :
    pairTimeout s = ((s.reach due).modLock fun l => { l with st := .unpaired, cmd := none }).complete
      id stPartnerRefused 0 0 0 (dataPort 7) := by
  simp only [pairTimeout, hst, hcmd, hdue]
  rfl

end

end Sys2Proof.Machine
end

section
/-!
PROOFS. Each kind of LOCKSTEP frame which is accepted (R991, R995, R999, R1001 to R1003, R1005).
-/

namespace Sys2Proof.Machine

/-- What was accepted changes the ports and the outputs only. -/
theorem State.lockAccepted_eq (s : State) (p : PortNo) (n : Nat) :
    ∃ ports out, s.lockAccepted p n = { s with ports, out } := by
  unfold lockAccepted acked
  rw [emit_of_not_overPcie rfl]
  exact ⟨_, _, rfl⟩

/-- What an accepted frame's records do leaves the number of the item which is expected next. -/
theorem State.accepted_rxSeq {s : State} {p : PortNo} {n : Nat} {t : State} (h : Sends (s.lockAccepted p n) t) :
    t.areaCredit.ports[p].rxSeq = s.ports[p].rxSeq + 1 := by
  have htraining := ((h.trans (areaCredit_sends t)).sent p).1
  exact (congrArg Port.rxSeq htraining :).trans (s.lockAccepted_rxSeq p n)

theorem State.areaCredit_lock (s : State) : s.areaCredit.lock = s.lock := s.areaCredit_frame .lock (by decide)

section
variable {s : State} {p : PortNo} {b : List Byte}

/-- R999: a DIGEST frame which is accepted. -/
theorem digestFrame_accepted (h : LockArrives s p b) {d : Digest} (hb : b = lockPayload 1 1 (digestRecord d))
    (hst : s.lock.st = .paired) (hq : d.pairSeq < 2 ^ 64) (hc : d.chan < 65536) (ht : d.tiles < 2 ^ 32) :
    exec (.digestFrame p (frameBytes 3 4095 s.ports[p].rxSeq.toNat 0 b)) s =
      .next ((s.lockAccepted p b.length).peerDigest { d with frameSeq := 0, prog := 0 }).areaCredit := by
  have hlock : (s.lockAccepted p b.length).lock = s.lock := s.lockAccepted_frame p b.length .lock (by decide)
  have htake : takeDigests b (s.lockAccepted p b.length) =
      (s.lockAccepted p b.length).peerDigest { d with frameSeq := 0, prog := 0 } := by
    generalize s.lockAccepted p b.length = u at hlock
    subst hb
    exact takeDigests_one (by rw [hlock, hst]) hq hc ht
  refine outcome_next ((rxLockRow_of_arrives h ?_ takeDigests).trans (congrArg State.areaCredit htake))
  rw [hb]
  exact lockPayload_kind (by decide)

/-- R999, R1000: the digest is kept, passed over, or compared. -/
theorem digestFrame_settled (h : LockArrives s p b) {d : Digest} (hb : b = lockPayload 1 1 (digestRecord d))
    (hst : s.lock.st = .paired) (hq : d.pairSeq < 2 ^ 64) (hc : d.chan < 65536) (ht : d.tiles < 2 ^ 32) :
    ∃ t, exec (.digestFrame p (frameBytes 3 4095 s.ports[p].rxSeq.toNat 0 b)) s = .next t ∧
      t.ports[p].rxSeq = s.ports[p].rxSeq + 1 ∧
      ((s.lock.mine.find? fun e => e.chan == d.chan && e.pairSeq == d.pairSeq) = none → s.lock.full = false →
        t.lock.peers = s.lock.peers ++ [{ d with frameSeq := 0, prog := 0 }] ∧ t.lock.compared = s.lock.compared) ∧
      (∀ e, (s.lock.mine.find? fun e => e.chan == d.chan && e.pairSeq == d.pairSeq) = some e →
        ((e.flags ||| d.flags) &&& 3 ≠ 0 ∨ e.conditions ≠ d.conditions →
          t.lock.skipped = s.lock.skipped + 1 ∧ t.lock.compared = s.lock.compared) ∧
        ((e.flags ||| d.flags) &&& 3 = 0 → e.conditions = d.conditions → e.digest = d.digest →
          t.lock.compared = s.lock.compared + 1 ∧ t.lock.divergent = s.lock.divergent ∧
          t.lock.comparedTiles = s.lock.comparedTiles + BitVec.ofNat 64 e.tiles)) := by
  have hlock : (s.lockAccepted p b.length).lock = s.lock := s.lockAccepted_frame p b.length .lock (by decide)
  refine ⟨_, digestFrame_accepted h hb hst hq hc ht, State.accepted_rxSeq (State.peerDigest_sends _ _), ?_⟩
  rw [State.areaCredit_lock]
  generalize s.lockAccepted p b.length = u at hlock
  rw [← hlock]
  generalize hd : ({ d with frameSeq := 0, prog := 0 } : Digest) = g
  have hfields : g.chan = d.chan ∧ g.pairSeq = d.pairSeq ∧ g.flags = d.flags ∧ g.conditions = d.conditions ∧
      g.digest = d.digest := by
    subst hd
    exact ⟨rfl, rfl, rfl, rfl, rfl⟩
  obtain ⟨hchan, hseq, hflags, hcond, hdigest⟩ := hfields
  rw [← hchan, ← hseq, ← hflags, ← hcond, ← hdigest]
  refine ⟨fun hnone hfull => ?_, fun e he => ?_⟩
  · rw [State.peerDigest_of_none hnone hfull]
    exact ⟨rfl, rfl⟩
  · rw [State.peerDigest_of_some he]
    exact ⟨State.compareDigests_of_skipped, State.compareDigests_of_equal⟩

/-- R1001: a LOG_REQ for a log which is not kept. -/
theorem logReq_settled (h : LockArrives s p b) {q c : Nat}
    (hb : b = lockPayload 2 1 (leBytes 8 q ++ leBytes 2 c ++ List.replicate 6 0)) (hst : s.lock.st = .paired)
    (hq : q < 2 ^ 64) (hc : c < 65536) (hlog : s.lock.log c q = none) :
    ∃ t, exec (.logReq p (frameBytes 3 4095 s.ports[p].rxSeq.toNat 0 b)) s = .next t ∧
      t.ports[p].rxSeq = s.ports[p].rxSeq + 1 ∧
      ((none, logPayload c q true []) ∈ t.lock.sendq ∨
        ∃ n, Emit.frame 7 (frameBytes 3 4095 n 0 (logPayload c q true [])) ∈ t.out) := by
  have hlock : (s.lockAccepted p b.length).lock = s.lock := s.lockAccepted_frame p b.length .lock (by decide)
  have hkind : fieldNat b 0 1 = 2 := by
    rw [hb]
    exact lockPayload_kind (by decide)
  have htake : takeLogReq b (s.lockAccepted p b.length) = (s.lockAccepted p b.length).answerLog c q := by
    generalize s.lockAccepted p b.length = u at hlock
    subst hb
    exact takeLogReq_one (by rw [hlock, hst]) hq hc
  obtain ⟨hsends, hsent⟩ := State.answerLog_of_none (s := s.lockAccepted p b.length) (c := c) (q := q) (by rw [hlock, hlog])
  refine ⟨_, outcome_next ((rxLockRow_of_arrives h hkind takeLogReq).trans (congrArg State.areaCredit htake)),
    State.accepted_rxSeq hsends, ?_⟩
  rw [State.areaCredit_lock]
  exact hsent.imp_right fun ⟨n, hn⟩ => ⟨n, (State.areaCredit_sends _).mem_out hn⟩

/-- R1001, R1002: a LOG frame of a log which the peer dropped. -/
theorem logFrame_settled (h : LockArrives s p b) {d : Digest} {l : List TileSig}
    (hb : b = logPayload d.chan d.pairSeq true []) (hq : d.pairSeq < 2 ^ 64) (hc : d.chan < 65536)
    (ha : (s.lock.asked.find? fun e => e.1.chan == d.chan && e.1.pairSeq == d.pairSeq) = some (d, l))
    (hf : s.lock.first = none) :
    ∃ t, exec (.logFrame p (frameBytes 3 4095 s.ports[p].rxSeq.toNat 0 b)) s = .next t ∧
      t.lock.first = some d.wholeFrame ∧ ∀ e ∈ t.lock.asked, e.1 ≠ d := by
  have hlock : (s.lockAccepted p b.length).lock = s.lock := s.lockAccepted_frame p b.length .lock (by decide)
  have hkind : fieldNat b 0 1 = 3 := by
    rw [hb]
    exact lockPayload_kind (by decide)
  have htake : takeLog b (s.lockAccepted p b.length) = (s.lockAccepted p b.length).compareLogs d none := by
    generalize s.lockAccepted p b.length = u at hlock
    subst hb
    exact takeLog_of_dropped (l := l) hq hc (by rw [hlock, ha])
  refine ⟨_, outcome_next ((rxLockRow_of_arrives h hkind takeLog).trans (congrArg State.areaCredit htake)), ?_⟩
  rw [State.areaCredit_lock]
  exact State.compareLogs_of_none (by rw [hlock, hf]) d

/-- R995: a FORWARD frame with a SETTING_NOTICE. -/
theorem forward_settled (h : LockArrives s p b) {x : Chan} {set : Nat}
    (hb : b = lockPayload 4 1 (forwardRecord x.num 3 0 set)) (hn : x.num < 65536) (hs : set < 256)
    (hx : s.chan x.num = some x) (ht : s.takesForwarded x = true) (ha : s.lock.area = []) :
    ∃ t y n, exec (.forward p (frameBytes 3 4095 s.ports[p].rxSeq.toNat 0 b)) s = .next t ∧ t.lock.area = [] ∧
      t.chan x.num = some y ∧ n ∈ y.slate.notices ∧ n.set = set ∧
      n.effective = x.marks + s.ports[x.port].latency := by
  have hkind : fieldNat b 0 1 = 4 := by
    rw [hb]
    exact lockPayload_kind (by decide)
  have hframe := s.lockAccepted_frame p b.length
  have hlatency := s.lockAccepted_latency p b.length x.port
  have hlock : (s.lockAccepted p b.length).lock = s.lock := hframe .lock (by decide)
  have hchan : (s.lockAccepted p b.length).chan x.num = some x :=
    (State.chan_of_chans (hframe .chans (by decide)) _).trans hx
  have htakes : (s.lockAccepted p b.length).takesForwarded x = true := by
    rw [State.takesForwarded, hlock]
    exact ht
  have hrow := rxLockRow_of_arrives h hkind takeForward
  generalize s.lockAccepted p b.length = u at hlatency hlock hchan htakes hrow
  have htake := takeForward_of_setting hn hs hchan htakes (by rw [hlock, ha])
  rw [← hb] at htake
  generalize hv : (u.modLock fun l => { l with area := l.area ++ [settingItem x.num set u.tick] }).modLock (fun l =>
    { l with area := l.area.erase (settingItem x.num set u.tick) }) = v at htake
  have harea : v.lock.area = [] := by
    subst hv
    show (u.lock.area ++ [settingItem x.num set u.tick]).erase (settingItem x.num set u.tick) = []
    rw [hlock, ha, List.nil_append, List.erase_cons_head]
  have hvchan : v.chan x.num = some x := by
    subst hv
    exact hchan
  have hports : v.ports = u.ports := by
    subst hv
    rfl
  obtain ⟨y, n, hy, hmem, hset, heff⟩ := State.takeNotice_chan (set := set) hvchan
  have hcredit : ∀ t : State, t.areaCredit.areaCredit.chan x.num = t.chan x.num := fun t =>
    (State.chan_of_chans (State.areaCredit_frame _ .chans (by decide)) _).trans
      (State.chan_of_chans (t.areaCredit_frame .chans (by decide)) _)
  refine ⟨_, y, n, outcome_next (hrow.trans (congrArg State.areaCredit htake)), ?_, (hcredit _).trans hy, hmem, hset, ?_⟩
  · rw [State.areaCredit_lock, State.areaCredit_lock]
    exact harea
  · rw [heff, hports, hlatency]

/-- R991: a pair record, with or without a PAIR here. -/
theorem pairFrame_settled (h : LockArrives s p b) (hkind : fieldNat b 0 1 = 5) :
    (s.lock.st ≠ .paired → s.lock.st ≠ .pairing →
      ∃ t, exec (.pairFrame p (frameBytes 3 4095 s.ports[p].rxSeq.toNat 0 b)) s = .next t ∧
        t.lock.peerRec = some (s.tick, b.drop 8) ∧ t.lock.st = s.lock.st) ∧
    (∀ i, s.lock.st = .pairing → s.lock.cmd = some i →
      ∃ t, exec (.pairFrame p (frameBytes 3 4095 s.ports[p].rxSeq.toNat 0 b)) s = .next t ∧ t.lock.cmd = none ∧
        t.lock.st = (if recordsAgree s.pairRecord (b.drop 8) then .paired else .unpaired) ∧
        ∀ o ∈ t.outst, o.id ≠ i) := by
  have hrow := rxLockRow_of_arrives h hkind takePairRecord
  obtain ⟨ports, out, hu⟩ := s.lockAccepted_eq p b.length
  rw [hu] at hrow
  refine ⟨fun hpaired hpairing => ?_, fun i hst hcmd => ?_⟩
  · refine ⟨_, outcome_next (hrow.trans (congrArg State.areaCredit
      (takePairRecord_of_waits (s := { s with ports, out }) b hpaired hpairing))), ?_⟩
    rw [State.areaCredit_lock]
    exact ⟨rfl, rfl⟩
  · have hpaired : ¬s.lock.st = .paired := by rw [hst]; exact nofun
    have htake : takePairRecord b { s with ports, out } =
        (({ s with ports, out } : State).modLock fun l => { l with peerRec := some (s.tick, b.drop 8) }).tryPair :=
      if_neg hpaired
    obtain ⟨hnone, hagree, houtst⟩ := State.tryPair_of_record
      (s := ({ s with ports, out } : State).modLock fun l => { l with peerRec := some (s.tick, b.drop 8) }) hst hcmd rfl
    refine ⟨_, outcome_next (hrow.trans (congrArg State.areaCredit htake)), ?_⟩
    rw [State.areaCredit_lock, (State.areaCredit_frame _ .outst (by decide) : (State.areaCredit _).outst = _)]
    exact ⟨hnone, hagree, houtst⟩

/-- R1005: an UNPAIR frame. -/
theorem unpairFrame_settled (h : LockArrives s p b) (hkind : fieldNat b 0 1 = 6) (hst : s.lock.st = .paired) :
    ∃ t, exec (.unpairFrame p (frameBytes 3 4095 s.ports[p].rxSeq.toNat 0 b)) s = .next t ∧ t.lock.st = .ended ∧
      t.lock.endCause = 2 ∧ t.lock.target = s.lock.target := by
  have hlock : (s.lockAccepted p b.length).lock = s.lock := s.lockAccepted_frame p b.length .lock (by decide)
  obtain ⟨hended, hcause, htarget⟩ := State.endPair_lock (s := s.lockAccepted p b.length) (by rw [hlock, hst]) 2
  refine ⟨_, outcome_next (rxLockRow_of_arrives h hkind fun _ t => t.endPair 2 false), ?_⟩
  rw [State.areaCredit_lock]
  exact ⟨hended, hcause, htarget.trans (by rw [hlock])⟩

/-- R991: no pair record within 100 ms. -/
theorem pairTimeout_settled {i : Nat} (hst : s.lock.st = .pairing) (hcmd : s.lock.cmd = some i) {due : Tick}
    (hdue : s.lock.began + pairWait = due) :
    ∃ t, exec .pairTimeout s = .next t ∧ t.lock.st = .unpaired ∧ due ≤ t.tick ∧ ∀ o ∈ t.outst, o.id ≠ i := by
  refine ⟨_, outcome_next (pairTimeout_of_pairing hst hcmd hdue), ?_, ?_, State.not_mem_complete_outst⟩
  · rw [State.complete_frame _ i stPartnerRefused 0 0 0 (dataPort 7) .lock (by decide)]
    rfl
  · rw [State.complete_frame _ i stPartnerRefused 0 0 0 (dataPort 7) .tick (by decide)]
    exact s.le_reach_tick _

end

/-! ### The obligation -/

/-- Settles O50: the frame is accepted once for all kinds; each kind then by what its records do, through which the
lock-step record keeps what the sending queue does not touch. -/
theorem lockstepFrames : Obligations.LockstepFrames := by
  refine ⟨fun p b s hact hskip hrole h1 h2 hcredit hahead => ?_, fun i s hst hcmd => pairTimeout_settled hst hcmd rfl⟩
  have h : LockArrives s p b := ⟨hact, hskip, hrole, h1, h2, hcredit, hahead⟩
  exact ⟨fun d hb hst hq hc ht => digestFrame_settled h hb hst hq hc ht,
    fun q c hb hst hq hc hlog => logReq_settled h hb hst hq hc hlog,
    fun d l hb hq hc ha hf => logFrame_settled h hb hq hc ha hf,
    fun x set hb hn hs hx ht ha => forward_settled h hb hn hs hx ht ha, fun hk => pairFrame_settled h hk,
    fun hk hst => unpairFrame_settled h hk hst⟩

end Sys2Proof.Machine
end
